-- ==== Sys2Proof/Word.lean ====
section
/-! DEFINITION. The words of the Myzia S2048, the operand types of its commands, and the sparse
table that holds every large array of the part as plain data. -/
namespace Sys2Proof

/-- A BAR0 register, a descriptor word, a header word: 64 bits (R11, R92, R333). -/
abbrev Word := BitVec 64
abbrev Byte := BitVec 8

/-- A sparse array: keys strictly rising, no entry equal to what an unlisted key reads as. -/
abbrev Tab (α : Type) := List (Nat × α)

/-- Who makes a register access or a doorbell write (R330, R357, R387). -/
inductive Func where
  | pf
  | vf (n : Nat)
  | core
  | fw
deriving DecidableEq, Repr

/-- The order codes of R4. -/
inductive Variant where
  | x | b | m | c
deriving DecidableEq, Repr

/-- The ring kinds of R334, numbered as RING_FAULT of R383 numbers them. -/
inductive RingKind where
  | cmd | cq | eq | tdma | pload
deriving DecidableEq, Repr

/-- The sets of sensors of R378. -/
inductive SensorSet where
  | die | stack | engine
deriving DecidableEq, Repr

/-- Which side of an engine a channel lies on (R39): a laser or a drop. -/
inductive Dir where
  | tx | rx
deriving DecidableEq, Repr

/-- What the host answered to a DMA read or write of a descriptor's buffer (R333, R356): the bytes
moved, and the host address whose access failed, if one did. -/
structure HostAccess where
  data : List Byte
  failAt : Option Word
deriving DecidableEq, Repr

/-- What the image check of R361 answers. -/
inductive ImageVerdict where
  | accepted | badImage | badSignature | rollback
deriving DecidableEq, Repr

/-- A firmware or self-hosted image: its bytes (R360), the fused key-hash slot that the hash of its key equals, if one
does, and whether its ECDSA signature verifies with that key (R361). -/
structure FwImage where
  bytes : List Byte
  keySlot : Option (Fin 4)
  signed : Bool
deriving DecidableEq, Repr

/-- A pattern copy as it was read: its bytes from offset 0 on, or an SPI error (R435, R437). -/
structure PatternImage where
  spiError : Bool
  bytes : List Byte
deriving DecidableEq, Repr

/-- A slot of a retirement journal (R438): its entry, and whether the slot is live. -/
structure JournalSlot where
  entry : Word
  live : Bool
deriving DecidableEq, Repr

/-- One attempt of a channel transfer of R295 and R297, as the channel gave it. -/
structure TransferResult where
  parityError : Bool
  /-- what the line's symbols 0 to 35 were received as, xor what they were sent as; 0 beyond the list (R296) -/
  errors : List Nat
deriving DecidableEq, Repr

/-- An ECC error that a crucible finds in one of its slots: corrected, or double (R215). -/
structure EccError where
  cru : Nat
  slot : Nat
  double : Bool
deriving DecidableEq, Repr

/-- A frame for a crucible: its payload, and the ECC errors that the crucible finds as it takes it (R215). -/
structure CruPayload where
  bytes : List Byte
  ecc : List EccError
deriving DecidableEq, Repr

/-- The kinds of access a channel transfer serves (R292, R297). -/
inductive MemUser where
  | plan | update | deep | fabric | copy | scrub | patrol
deriving DecidableEq, Repr

/-- Bits [hi:lo] of a 64-bit word. -/
def fld (w : Word) (hi lo : Nat) : Nat := (w.toNat >>> lo) % 2 ^ (hi + 1 - lo)

/-- One bit of a 64-bit word. -/
def bit (w : Word) (i : Nat) : Bool := w.toNat.testBit i

/-- A field value placed at bit `lo`. -/
def at_ (lo v : Nat) : Nat := v <<< lo

/-- A word made of placed fields. -/
def mkWord (l : List Nat) : Word := BitVec.ofNat 64 (l.foldl (· + ·) 0)

def b2n (b : Bool) : Nat := if b then 1 else 0

end Sys2Proof
end

