-- ==== Sys2Proof/Syntax.lean ====
section
/-! DEFINITION. The commands of the block: one constructor per row of spec/opcode_table.json. A row
that executes a descriptor names its ring: the descriptor itself lies fetched in the state. A row
for an ordered set carries the 104-bit body of R80. BLOCK_RECEIVE carries the channel that a block
came on, 0 working, 1 S0, 2 S1 (R81), and its 5,440 PAM4 levels in four parts, two for each code word (R74). The close
of a test window carries what the decoder counted on the blocks of the window that came as no command of their own:
corrected bits and code words that did not decode, per channel (R86). A row that depends on a physical reading
carries it. -/
namespace Sys2Proof

inductive Instr where
  | registerWrite (f : Func) (off bytes : Nat) (v : Word)
  | blockLockSet (f : Func) (tbl : Bool)
  | fabricPosWrite (f : Func) (v : Word)
  | frameReceive (lane : Nat) (hdr : List Word) (payload : List Byte)
  | linkBringupRetry (link : Nat)
  | recastOpen (ring : Nat)
  | recastClose (ring : Nat)
  | recastCloseTakesEffect (p : Nat)
  | recastLimitExpiry (p : Nat)
  | tblCfgWrite (f : Func) (v : Word)
  | laserEnSet (f : Func) (n : Nat) (v : Word)
  | laserEnClear (f : Func) (n : Nat) (v : Word)
  | oeBringupDone (n : Nat)
  | oeBringupTimeout (n cause : Nat)
  | oeBringupRetry (n : Nat)
  | optSensorSample (n : Nat) (readings : List (BitVec 16))
  | ditherLockLoss (n t : Nat) (d : Dir)
  | lockReacquired (n t : Nat) (d : Dir)
  | marginTestStart (link : Nat)
  | marginPowerStep (link : Nat)
  | marginWindowOpen (link : Nat)
  | marginWindowClose (link : Nat) (counts : Tab (Nat × Nat))
  | marginReportWaitExpiry (link : Nat)
  | marginRetry (link : Nat)
  | quickCheckWindowClose (lane : Nat) (counts : Tab (Nat × Nat))
  | laserFadeSample (n : Nat) (fades : List (Nat × Nat))
  | spareLocked (lane : Nat)
  | swRequestReceive (lane : Nat) (body : BitVec 104)
  | spareDropLocked (lane : Nat)
  | swReadyReceive (lane : Nat) (body : BitVec 104)
  | duplicateIntervalEnd (lane : Nat)
  | swMarkReceive (lane : Nat) (newColour : Bool) (body : BitVec 104)
  | swDoneReceive (lane : Nat) (body : BitVec 104)
  | fadedLaserDark (lane : Nat)
  | swNakReceive (lane : Nat) (body : BitVec 104)
  | swapReadyTimeout (lane : Nat)
  | swapDoneTimeout (lane : Nat)
  | swapRetry (lane : Nat)
  | journalAppend (okB okA : Bool)
  | calPassStart (n : Nat)
  | calSlotStart (n : Nat)
  | calSweepDone (n : Nat) (rows : List (Nat × Word))
  | sprueSet (ctx claim : Nat)
  | sprueThrough (n i : Nat)
  | sprueRelease (n i : Nat)
  | sprueReleaseDone (n i : Nat)
  | blockReceive (lane ch : Nat) (a b c d : List Nat)
  | heartbeatSend (lane : Nat)
  | heartbeatReceive (lane : Nat) (body : BitVec 104)
  | heartbeatTimeout (lane : Nat)
  | positionSend (lane : Nat)
  | positionReceive (lane : Nat) (body : BitVec 104)
  | creditReceive (lane : Nat) (hi : Bool) (body : BitVec 104)
  | creditResyncReceive (lane : Nat) (body : BitVec 104)
  | retryReceive (lane : Nat) (body : BitVec 104)
  | retryTimeout (lane : Nat)
  | marginReportReceive (lane : Nat) (body : BitVec 104)
  | linkctlQuiesceReceive (lane : Nat) (body : BitVec 104)
  | linkctlResumeReceive (lane : Nat) (body : BitVec 104)
  | linkctlDisableReceive (lane : Nat) (body : BitVec 104)
  | lossOfLight (lane : Nat)
  | lightPresent (lane : Nat)
  | linkEnable (f : Func) (link : Nat) (v : Word)
  | linkDisable (f : Func) (link : Nat) (v : Word)
  | frameAdmitRetry (die : Nat)
  | spillPrefetch (die : Nat) (poisoned : Bool)
  | gateMatch
  | runnerReplicate (die : Nat)
  | slagSweep
  | satHoldExpiry (link : Nat)
  | satRearmExpiry (link : Nat)
  | queuedFrameMove (link : Nat)
  | tdmaWrite (ring : Nat)
  | tdmaRead (ring : Nat)
  | emInsert (ring : Nat)
  | emDelete (ring : Nat)
  | tdmaLock (ring : Nat)
  | tdmaUnlock (ring : Nat)
  | tdmaPurge (ring : Nat)
  | purgeComplete (ring : Nat)
  | mgmtEthReceive (port : Nat) (packet : List Byte)
  | collContribReceive (lane : Nat) (hdr : List Word) (payload : CruPayload)
  | collCombineReceive (lane : Nat) (hdr : List Word) (payload : CruPayload)
  | slotScrubDone (cru slot : Nat)
  | planLoad (ring : Nat)
  | planUnload (ring : Nat)
  | planUnloadDone (ctx : Nat)
  | planArm (ring : Nat)
  | planDisarm (ring : Nat)
  | planDisarmDone (ctx : Nat)
  | pourComparatorLoad (seq : Nat)
  | runStart (ctx : Nat)
  | pourTime (seq : Nat)
  | phaseStart (seq : Nat)
  | phaseDeadline (ctx phase : Nat)
  | waitBoundExpiry (ctx phase : Nat)
  | wordIssue (seq : Nat) (planEcc : Bool) (ecc : List EccError)
  | memDataArrive (seq : Nat)
  | frameLaunch (die : Nat)
  | ctxSetup (ring : Nat)
  | ctxRead (ring : Nat)
  | ctxExclude (ring : Nat)
  | ctxInclude (ring : Nat)
  | ctxStats (ring : Nat)
  | ctxTeardown (ring : Nat)
  | ctxScrubDone (ctx : Nat)
  | dynTimeoutExpiry (ctx : Nat)
  | rotPassStart (stack : Nat)
  | memRotReqWrite (f : Func) (v : Word)
  | rotCopyDone (stack : Nat)
  | rotSwitch (stack : Nat)
  | rotTrainDone (stack : Nat) (ok : Bool)
  | rotTestDone (stack : Nat) (ok : Bool)
  | memTransfer (stack ch line : Nat) (write : Bool) (user : MemUser) (tries : List TransferResult)
  | pageRetirementDone (stack ch : Nat)
  | patrolPassStart
  | memHotClearExpiry (stack : Nat)
  | rebuildComplete (l : Nat)
  | regionScrubDone
  | memPutReceive (lane : Nat) (hdr : List Word) (payload : List Byte)
  | memGetReceive (lane : Nat) (hdr : List Word) (payload : List Byte)
  | memAtomicReceive (lane : Nat) (hdr : List Word) (payload : List Byte)
  | fabricMemDone
  | timeSyncSend (link dom : Nat)
  | timeAnnounceSend (link dom : Nat)
  | timeSyncReceive (lane : Nat) (body : BitVec 104)
  | timeDelayReqReceive (lane : Nat) (body : BitVec 104)
  | timeDelayRespReceive (lane : Nat) (body : BitVec 104)
  | timeAnnounceReceive (lane : Nat) (body : BitVec 104)
  | timeExchangeTimeout (dom : Nat)
  | timeMasterLost (dom : Nat)
  | ppsEdge
  | ppsNoEdgeTimeout
  | ppsOutRise
  | ppsOutFall
  | timeSwitch (f : Func)
  | timeReacq (f : Func) (ta tb : Bool)
  | timeDomainDisable (f : Func) (dom : Nat) (v : Word)
  | timeNowRead (f : Func)
  | cmdTail (f : Func) (page : Nat) (v : Word)
  | cqHead (f : Func) (page : Nat) (v : Word)
  | cqArm (f : Func) (page : Nat)
  | eqHead (f : Func) (page : Nat) (v : Word)
  | eqArm (f : Func) (page : Nat)
  | tdmaTail (f : Func) (page : Nat) (v : Word)
  | ploadTail (f : Func) (page : Nat) (v : Word)
  | doorbellStray (f : Func) (page off bytes : Nat) (v : Word)
  | descriptorFetch (k : RingKind) (ring : Nat) (answer : Option (List Word))
  | hostBufferAccess (k : RingKind) (ring : Nat) (answer : HostAccess)
  | coalUsExpiry (k : RingKind) (ring : Nat)
  | ringEnable (f : Func) (k : RingKind) (ring : Nat) (v : Word)
  | ringDisable (f : Func) (k : RingKind) (ring : Nat) (v : Word)
  | ringDrained (k : RingKind) (ring : Nat)
  | ringAssignWrite (f : Func) (ring : Nat) (v : Word)
  | sendFrame (ring : Nat)
  | telemetryBuf (ring : Nat)
  | telemetryBufTimeout (die : Nat)
  | memWrite (ring : Nat)
  | memRead (ring : Nat)
  | debugRead (ring : Nat) (badWords : List Nat)
  | nop (ring : Nat)
  | getInfo
  | getMeasurement
  | fwStage (image : Option FwImage) (flashOk : Bool)
  | fwRecover (image : Option FwImage)
  | svnCommit
  | keyRevoke
  | vfFlr (n : Nat)
  | pfFlr
  | pcieLinkDown
  | vfEnable (n : Nat)
  | vfDisable (n : Nat)
  | linkFenceSet (f : Func) (link : Nat)
  | linkFenceClear (f : Func) (link : Nat)
  | deadHoldExpiry (link : Nat)
  | fenceNAssert
  | fenceNDeassert
  | fenceNHoldExpiry
  | fenceUnstableClear (f : Func)
  | wakeNAssert
  | wakeNHoldExpiry
  | wakeRearm (f : Func)
  | perstNAssert
  | perstNRelease
  | thermalSample (set : SensorSet) (unit : Nat) (readings : List (BitVec 16))
  | thermalClearExpiry (set : SensorSet) (unit : Nat)
  | counterRead (f : Func) (index : Nat)
  | sampleDataRead (f : Func) (die : Nat)
  | pwrGoodAssert
  | pwrGoodDeassert
  | vinTrip (vin : Nat)
  | ilimTrip (vin : Nat)
  | overcurrentTrip (vin : Nat)
  | railFault (rail vin : Nat)
  | vinStable
  | powerCapSample (vin iin pin energy : Nat)
  | cappingClearExpiry
  | pwrReqActive (f : Func)
  | pwrReqParked (f : Func)
  | pwrReqRetain (f : Func)
  | pwrReqStandby (f : Func)
  | i3cRequestWake
  | i3cRequestStandby
  | parkDrainDone
  | parkDrainLimit
  | parkDisableDone
  | lowPowerEntryDone
  | wakeTimer
  | wakeParkedDone
  | wakeRetainDone
  | powerOn (bl2 selfHost : Bool) (bootSrc : Nat)
  | coldReset (f : Func) (v : Word)
  | warmReset (f : Func) (v : Word)
  | pllLockLost (k : Nat)
  | pllRelockTimeout (k : Nat)
  | crossingWaitExpiry (near far : Nat)
  | patternCopyRead (copy : Nat) (image : PatternImage) (journal : List (Word × Word))
  | journalCompactionDone
  | railUp (rail mv : Nat)
  | mainResetRelease
  | firmwareAccepted (copy : Nat) (image : FwImage)
  | sramZeroDone
  | memTrainDone (failed : List (Nat × Nat))
  | memZeroDone
  | memVerifyDone (failed : List (Nat × Nat))
  | moduleReady
  | blockTransmit (lane : Nat)
  | alwaysOnDomainStop
  | aonResetEnd (pwrGood fenceN wakeN perstN : Bool)
  | pcieL1Exit
  | pllRelocked (k : Nat)
  | timeAnnounceExpiry (link dom : Nat)
  | wakeNDeassert
deriving DecidableEq, Repr

end Sys2Proof
end

