-- ==== Sys2Proof/Decode.lean ====
section
/-! DEFINITION. The opcode table gives the rows of this block no bits (its commands reach it as bus
transactions, cells, pins and moments), so no word spells a command. -/
namespace Sys2Proof

/-- The command a word spells by the table's bits: the table gives none of its rows bits. -/
def decodeTableWord (_nbits _w : Nat) : Option Instr := none

end Sys2Proof
end

