-- ==== Sys2Proof/Config.lean ====
section
/-! DEFINITION. What the manual leaves open: free values without a body (log entry 4), and the
hashes that the manual names by a published standard and the model leaves uninterpreted. -/
namespace Sys2Proof.Config

/-- A free value: what the manual does not state, taken for the n-th time (log entry 4). -/
opaque freeNat : Nat → Nat

/-- A free signed value (log entry 4). -/
opaque freeInt : Nat → Int

/-- The SHA-384 digest of a byte string (R362), its first byte the most significant: uninterpreted (log entry 5). -/
opaque sha384 : List Byte → BitVec 384

/-- The SHA-384 digest of the ROM defaults (R437): the manual gives the defaults no encoding (log entry 6). -/
opaque romDigest : BitVec 384

/-- The chill rows that firmware holds as defaults (R440): region, channel, colour and row packed as
the key of the chill table; the manual gives no row of them (log entry 6). -/
opaque defaultChill : Nat → Word

/-- The dither-lock trim of a channel in heater codes, at a free value taken with a sample (R49, log entry 51). -/
opaque ditherTrim : Nat → Nat → Int

/-- What a rail's converter measures at a time: 0 voltage, 1 current, 2 power (log entry 47). -/
opaque railReading : Nat → Nat → Nat → Nat

/-- The lane-derived transmit clock of the optical engines in kHz (log entry 47). -/
opaque oeTxKhz : Nat

/-- Records that a die's tap ring holds (R144): the manual gives no size (log entry 60). -/
opaque tapRing : Nat

end Sys2Proof.Config
end

