-- ==== Sys2Proof/Machine/State.lean ====
section
/-! DEFINITION. The state of the Myzia S2048 as plain data: one structure per chapter of the manual.
RO status words that the manual computes from other state are not stored twice: Machine/Regs.lean
composes them. Times are in units of 1/120 ns (log entry 2). -/
namespace Sys2Proof.Machine

/-- A BL3 frame: the fields of R92 and its payload. -/
structure Frame where
  dest : Nat := 0
  src : Nat := 0
  type : Nat := 0
  tc : Nat := 0
  cm : Bool := false
  ce : Bool := false
  detour : Bool := false
  poison : Bool := false
  mc : Bool := false
  seq : Nat := 0
  ctx : Nat := 0
  ver : Nat := 3
  length : Nat := 0
  entropy : Nat := 0
  rsv1 : Nat := 0
  chunk : Nat := 0
  dhash : Nat := 0
  aux : Nat := 0
  rsv3 : Nat := 0
  payload : List Byte := []
  /-- the frame came in BL2 form, and W1[18:17] of that form (R94, R107) -/
  fromBl2 : Bool := false
  rsv2 : Nat := 0
deriving DecidableEq, Repr

/-- What leaves the module at its boundary, oldest first (the model's own record, log entry 3). -/
inductive Output where
  /-- a frame whose first cell leaves on a lane (R115) -/
  | frame (link lane : Nat) (bl2 : Bool) (f : Frame)
  /-- an ordered set sent on a lane: type and body of R81 -/
  | os (lane type : Nat) (body : BitVec 104)
  /-- a block sent on a lane: header word of R77, cells and PAM4 levels of R74; on a spare colour as well when dup -/
  | block (lane : Nat) (dup : Bool) (hdr : BitVec 40) (cells : List (List Byte)) (levels : List Nat)
  /-- a DMA write with the requester's function (R330) -/
  | dma (f : Func) (addr : Nat) (data : List Byte)
  /-- a DMA read with the requester's function (R330) -/
  | dmaRead (f : Func) (addr bytes : Nat)
  /-- an MSI-X message (R340) -/
  | msix (f : Func) (vector : Nat)
  /-- a packet handed to firmware, for a management port or the cores (R168) -/
  | packet (port : Option Nat) (data : List Byte)
  /-- an I3C in-band interrupt (R409) -/
  | ibi
  /-- the value a read returned (R329, R387, R399) -/
  | readData (f : Func) (v : Word)
deriving DecidableEq, Repr

/-! ### Start-up, resets and identity: chapter 15 -/

inductive FwState where
  | booting | running | failed | recovery
deriving DecidableEq, Repr

structure Boot where
  stepping : Nat := 0
  serial : Word := 0
  modState : Nat := 0
  stage : Nat := 0
  readyMs : Nat := 0
  selfHostFallback : Bool := false
  /-- the zero moment of R441, while a start runs or after it -/
  zeroAt : Option Nat := none
  mainUp : Bool := false
  fwState : FwState := .booting
  fwCopy : Nat := 0
  fwSvn : BitVec 32 := 0
  fwVersion : BitVec 32 := 0
  keySlot : Nat := 0
  revoked : Nat := 0
  minSvn : BitVec 32 := 0
  /-- FW_STAGE images waiting in the flash copies (R363) -/
  staged : Tab FwImage := []
  firmwareTried : Nat := 0
  selfHostTried : Nat := 0
  sramZero : Bool := false
  memZero : Bool := false
  memVerified : Bool := false
  regInitDone : Bool := false
  patDefaulted : Bool := false
  patCopy : Nat := 0
  aRes : Nat := 15
  bRes : Nat := 15
  store : Option PatternImage := none
  journalA : List JournalSlot := []
  journalB : List JournalSlot := []
  /-- entries made and not yet programmed, oldest first (R439) -/
  journalHeld : List Word := []
  journalEntries : Nat := 0
  journalFull : Bool := false
  journalErr : Bool := false
  pinBl2 : Bool := false
  pinSelfHost : Bool := false
  pinBootSrc : Nat := 0
  strapBl2 : Bool := false
  strapSelfHost : Bool := false
  strapBootSrc : Nat := 0
  warmCount : Nat := 0
  lastCause : Nat := 0
  meas : Tab (BitVec 384) := []
  /-- when the PLL of a clock domain lost lock (R430) -/
  pllLost : Tab (Option Nat) := []
deriving DecidableEq, Repr

/-! ### Power: chapter 14 -/

structure Pwr where
  /-- VIN is below the always-on domain's range: nothing runs -/
  powered : Bool := true
  /-- the first 20 ms after VIN comes within range (R407) -/
  aonReset : Bool := true
  aonSince : Nat := 0
  state : Nat := 0
  target : Nat := 0
  lastWake : Nat := 0
  reqResult : Nat := 0
  capping : Bool := false
  uvWarn : Bool := false
  ilim : Bool := false
  pwrGood : Bool := false
  vin : Nat := 0
  iin : Nat := 0
  pin : Nat := 0
  energy : Nat := 0
  rails : Tab Nat := []
  railUpTo : Nat := 0
  /-- VIN within 44 V to 58 V for 1 s since the last trip (R414) -/
  vinOk : Bool := true
  tripAt : Option Nat := none
  capBelowSince : Option Nat := none
  /-- PARKED, RETAIN and STANDBY entry: when accepted, when drained (R418) -/
  enterAt : Option Nat := none
  drainAt : Option Nat := none
  /-- the disable interval of R418 has ended: the module is at the PARKED point of the entry -/
  parkPoint : Option Nat := none
  wakePending : Nat := 0
  /-- RESET_CAUSE of the exit from STANDBY that comes next (R431) -/
  exitCause : Nat := 3
  wakeAt : Option Nat := none
  wakeFrom : Nat := 0
  /-- lanes whose receive fibre was dark at entry (R419) -/
  darkAtEntry : List Nat := []
  ppsOut : Bool := false
deriving DecidableEq, Repr

/-! ### Optics: chapter 02 -/

structure Engine where
  state : Nat := 0
  enAt : Option Nat := none
  faultAt : Option Nat := none
  /-- OE_TEMP sensors 0 to 3 -/
  temps : List (BitVec 16) := [0, 0, 0, 0]
  faulty : List Bool := [false, false, false, false]
  /-- the readings the heater codes in force were computed from, per fibre pair (R48, R51) -/
  applied : List Int := [0, 0, 0, 0]
  /-- earlier readings with their times, newest first, within 1 ms (R51) -/
  history : List (Nat × List (BitVec 16)) := []
  slewing : List Bool := [false, false, false, false]
  outRange : List Bool := [false, false, false, false]
  calPassAt : Option Nat := none
  calRunning : Bool := false
  calNext : Nat := 0
  /-- channel under calibration (index, 256 + index for a drop), 0xFF none -/
  calChannel : Nat := 255
  calDir : Dir := .tx
  calBorrow : Option Nat := none
  calSaved : List (Nat × Word) := []
  calPhase : Nat := 0
  /-- the lane that was swapped out for the calibration slot, 0x1FFF none -/
  calLane : Nat := 0x1FFF
  /-- the free value that the dither-lock trims stand at since the last sample (R49, log entry 51) -/
  trimAt : Nat := 0
deriving DecidableEq, Repr

/-- A transmit or receive channel of R39 with its LASER_STATUS or DROP_STATUS fields. -/
structure Chan where
  lane : Nat := 0x1FFF
  fade : Nat := 0
  colour : Nat := 0
  serves : Nat := 0xFF
  state : Nat := 0
  /-- the trim at which the loop stood still when it lost lock (R49) -/
  trim : Int := 0
  noticed : Bool := false
  /-- fade has crossed SWAP and was answered -/
  crossed : Bool := false
  lostLock : Bool := false
  /-- a spare that passed the margin test (R54) -/
  tested : Bool := false
deriving DecidableEq, Repr

structure Sprue where
  ctx : Nat := 0
  colour : Nat := 0
  txFibre : Nat := 0
  rxFibre : Nat := 0
  state : Nat := 0
  setAt : Nat := 0
  releaseAt : Option Nat := none
deriving DecidableEq, Repr

/-- A switchover in progress on a lane, in one direction (R60, R61). Key 2 × lane + direction. -/
structure Swap where
  /-- 1 spare locking, 2 REQUEST sent, 3 duplicate, 4 interval complete, 5 DONE, 6 waiting to retry -/
  phase : Nat := 0
  old : Nat := 0
  spare : Nat := 0
  colour : Nat := 0
  reason : Nat := 0
  startAt : Nat := 0
  reqAt : Nat := 0
  readyAt : Nat := 0
  doneAt : Nat := 0
  marks : List Nat := []
  oldMarks : List Nat := []
  sinceMark : Nat := 0
  mark : Nat := 0
  noDone : Bool := false
  /-- receive side: the block and the MARK at which data are taken from the new colour (R83) -/
  switchAt : Option (Nat × Nat) := none
deriving DecidableEq, Repr

structure Opt where
  engines : Tab Engine := []
  /-- key 256 × engine + t -/
  lasers : Tab Chan := []
  drops : Tab Chan := []
  chill : Tab Word := []
  /-- key 16 × engine + circuit -/
  sprues : Tab Sprue := []
  swaps : Tab Swap := []
  /-- key 8 × engine + 4 × direction + fibre: CAL_SUSPENDED and SPARES_EXHAUSTED raised -/
  calSuspended : Tab Bool := []
  exhausted : Tab Bool := []
  /-- fades waiting for their turn: (lane, fade) -/
  fadeQueue : List (Nat × Nat) := []
  /-- lanes whose partner refused its fixed drop: that drop is not in service (R59, log entry 52) -/
  farBad : Tab Bool := []
deriving DecidableEq, Repr

/-! ### Frames in the riser: chapter 04 -/

inductive Place where
  | landing | pool | deep | prefetched | runner (id : Nat)
deriving DecidableEq, Repr

structure QFrame where
  id : Nat := 0
  f : Frame := {}
  inGroup : Nat := 0
  inLink : Nat := 0xFFF
  inLane : Nat := 0x1FFF
  inBl2 : Bool := false
  die : Nat := 0
  outLink : Nat := 0
  outLane : Nat := 0
  born : Nat := 0
  arriveNs : Nat := 0
  place : Place := .pool
  spilled : Bool := false
  sentCells : Nat := 0
  /-- spray set, HASHED, detour policy, as decided at ingress (R155) -/
  spray : List Nat := []
  primary : Nat := 0
  hashed : Bool := false
  policy : Nat := 0
  store : Bool := false
  originated : Bool := false
  detourSent : Bool := false
  cmSet : Bool := false
  qAtEnq : Nat := 0
  group : Option Nat := none
  /-- the frame lies in the riser already and is only moved between queues (R147) -/
  inside : Bool := false
  /-- the arrival whose later cells are still to come, 0 where the frame is whole (R117) -/
  rx : Nat := 0
deriving DecidableEq, Repr

/-! ### Links and lanes: chapter 03 -/

structure Block where
  seq : Nat := 0
  cells : List (List Byte) := []
  ctl : List Bool := []
deriving DecidableEq, Repr

/-- A cell in an egress lane buffer (R117): its place in its frame, its bytes, and at a first cell the
frame as it leaves, for sampling (R143, R395). -/
structure BufCell where
  first : Bool := false
  last : Bool := false
  bytes : List Byte := []
  q : Option QFrame := none
  /-- credits freed as the cell leaves: ingress link, class, cells (R119) -/
  owes : Option (Nat × Nat × Nat) := none
deriving DecidableEq, Repr

structure Lane where
  /-- 0 DOWN, 1 LOCKING, 2 POSITION, 3 MARGIN, 4 UP, 5 SPRUED, 6 DEAD, 7 RETIRED, 8 DISABLED -/
  state : Nat := 0
  los : Bool := true
  good : Nat := 0
  bad : Nat := 0
  blockLock : Bool := false
  nextSeq : Nat := 0
  held : List Block := []
  replay : Option Nat := none
  expect : Nat := 0
  awaiting : Bool := false
  attempt : Nat := 0
  retryAt : Nat := 0
  lastHb : Nat := 0
  lastHbSent : Nat := 0
  lastPosSent : Nat := 0
  partnerTx : Nat := 0
  /-- TX_STATE DISABLED is being sent, and since when (R105, R418) -/
  txDisabled : Bool := false
  posSeen : Bool := false
  rx : List (List Byte) := []
  rxRemain : Nat := 0
  /-- the arrival in progress, and what waits for its last cell: the frame and its source's partition (R117) -/
  rxId : Nat := 0
  rxPend : Option (QFrame × Nat) := none
  hcrcBad : Bool := false
  osOut : List (Nat × BitVec 104) := []
  buf : List BufCell := []
  /-- retired by the margin test (R56), so that LINK_CFG.ENABLE tests it again -/
  marginRetired : Bool := false
  /-- the partner asked by LINKCTL QUIESCE that spine traffic stop (R81) -/
  quiesced : Bool := false
  /-- the quick check of R57 or R88 runs on this lane since then -/
  quickAt : Option Nat := none
  quickPartner : Option Bool := none
  quickOwn : Option Bool := none
  /-- bit errors counted in the window of the quick check, per channel: 0 working, 1 S0, 2 S1 (R57, R86) -/
  quickErr : Tab Nat := []
  /-- the working lane failed and its fibre's spares are under test (R57) -/
  quickSpare : Bool := false
  /-- the register of the PRBS31Q pattern sent in MARGIN (R86) -/
  prbs : Nat := 1
  /-- the state in which a circuit took the lane (R70) -/
  sprueFrom : Nat := 0
  /-- after a wake from PARKED the lane goes from POSITION straight to UP (R84, R420) -/
  wakeDirect : Bool := false
  needFull : Bool := true
deriving DecidableEq, Repr

structure Margin where
  round : Nat := 1
  /-- 0 full power, 1 reduced, 2 window open, 3 counts awaited, 4 setting, 5 passed and restoring -/
  phase : Nat := 0
  startAt : Nat := 0
  windowAt : Nat := 0
  /-- own counts and partner reports of this round, key 4 × place + channel; a count is held plus 1, so that 0 says
  that nothing came on the channel -/
  own : Tab Nat := []
  partner : Tab Nat := []
  /-- places still to be tested in this round, per direction (key as above) -/
  testing : List Nat := []
  /-- channels moved to in this test: key of R60's swap, channel given up, spare, colour (R56, R62) -/
  moves : List (Nat × Nat × Nat × Nat) := []
deriving DecidableEq, Repr

structure Link where
  /-- 0 DOWN, 1 TRAINING, 2 UP, 3 DEGRADED, 4 DISABLED -/
  state : Nat := 0
  cause : Nat := 0
  partner : Nat := 0
  bl2 : Bool := false
  /-- credits per class (R100): granted to the partner, received, sent, last CREDIT from it -/
  credit : Tab Nat := []
  /-- the CREDIT last sent to the partner (R102) -/
  creditSent : Tab Nat := []
  granted : Tab Nat := []
  received : Tab Nat := []
  sent : Tab Nat := []
  limit : Tab Nat := []
  lfsr : Option (BitVec 16) := none
  margin : Option Margin := none
  retryAt : Option Nat := none
  everUp : Bool := false
  partnerDisabled : Bool := false
  /-- fencing (R368 to R371) -/
  fenced : Bool := false
  source : Nat := 0
  wanted : Bool := false
  downs : List Nat := []
  deadSince : Option Nat := none
  /-- slag and saturation (R142, R145) -/
  slagAt : Option Nat := none
  slagged : Nat := 0
  sat : Bool := false
  highSince : Option Nat := none
  lowSince : Option Nat := none
  mcDown : List Nat := []
deriving DecidableEq, Repr

structure Lnk where
  links : Tab Link := []
  lanes : Tab Lane := []
deriving DecidableEq, Repr

/-! ### Switch core: chapter 04 -/

/-- A multicast frame waiting for the runners (R139), with the member links read at ingress that it has not been
copied to. -/
structure McFrame where
  q : QFrame := {}
  members : List Nat := []
deriving DecidableEq, Repr

/-- A multicast frame stored by a die's runner, and the references left (R122, R140). -/
structure RunnerStore where
  id : Nat := 0
  die : Nat := 0
  cells : Nat := 0
  tc : Nat := 0
  refs : Nat := 0
deriving DecidableEq, Repr

structure Resv where
  inGroup : Nat := 0
  outGroup : Nat := 0
  slot : Nat := 0
  ctx : Nat := 0
deriving DecidableEq, Repr

structure TapDie where
  count : Nat := 0
  gap : Nat := 0
  recordNo : Nat := 0
  /-- the tap ring: records that firmware has not forwarded (R144) -/
  ring : List (List Byte) := []
deriving DecidableEq, Repr

structure Sw where
  nextId : Nat := 1
  queue : List QFrame := []
  mcq : List McFrame := []
  /-- frames of the spine's own addressed to SELF_EID, not yet consumed (R95) -/
  selfIn : List QFrame := []
  runner : List RunnerStore := []
  /-- DEEP_CFG.RESERVE as read at start-up, GiB (R123) -/
  reserve : Nat := 64
  /-- VOQs in the spill state: (die, ingress group, egress link, class) -/
  spilling : List (Nat × Nat × Nat × Nat) := []
  deepFull : Tab Bool := []
  /-- bytes that the deep riser moved in the present microsecond, and when that began (R123, log entry 53) -/
  deepSince : Nat := 0
  deepBytes : Nat := 0
  grantPtr : Tab Nat := []
  acceptPtr : Tab Nat := []
  /-- cell times a request has waited, key 512 × ingress group + egress group -/
  waits : Tab Nat := []
  /-- deficit of DRR, key 8 × egress link + class, and the class it serves next -/
  deficit : Tab Nat := []
  drrNext : Tab Nat := []
  /-- the class that DRR serves has had its quantum in this turn -/
  drrFresh : Tab Bool := []
  rrLink : Tab Nat := []
  resv : List Resv := []
  /-- cell times given so far, modulo 4, and reservations that a throttled die's idle cell time has put off (R379) -/
  beat : Nat := 0
  resvLate : List Resv := []
  /-- the LT cell time at which the slot frame in progress ends once NT is in force, and the NT slot
  frame then in progress (R133); both none while slots follow LT, NT mode in `slotNt` -/
  slotEnd : Option Nat := none
  slotWait : Option Nat := none
  slotNt : Bool := false
  tap : Tab TapDie := []
  /-- LT counts from here (R141) -/
  ltZero : Nat := 0
deriving DecidableEq, Repr

/-! ### Tables: chapter 05 -/

structure EmEntry where
  e0 : Word := 0
  e1 : Word := 0
  e2 : Word := 0
  e3 : Word := 0
deriving DecidableEq, Repr

structure McEntry where
  mask : BitVec 2048 := 0
  ctl : Word := 0
deriving DecidableEq, Repr

structure Window where
  isOpen : Bool := false
  openedAt : Nat := 0
  long : Bool := false
  lock : Bool := false
  /-- closes that wait: command ring, TAG and fetch number of each RECAST_CLOSE descriptor -/
  closing : List (Nat × Nat × Nat) := []
deriving DecidableEq, Repr

/-- A before-image of R177: table number of R173, entry (or key for exact-match), prior contents. -/
structure Before where
  part : Nat
  table : Nat
  index : Nat
  value : Nat
  size : Nat
deriving DecidableEq, Repr

structure Purge where
  part : Nat := 0
  table : Nat := 0
  ring : Nat := 0
  tag : Nat := 0
deriving DecidableEq, Repr

structure Tbl where
  route : Tab Word := []
  em : Tab EmEntry := []
  lpmNode : Tab Word := []
  lpmResult : Tab Word := []
  mcast : Tab McEntry := []
  loc : Tab (BitVec 32) := []
  reach : Tab (BitVec 128) := []
  windows : Tab Window := []
  shadow : List Before := []
  purges : Tab Purge := []
  /-- when LOCATION_VIOLATION was last raised for an EID -/
  violAt : Tab Nat := []
deriving DecidableEq, Repr

/-! ### Crucibles: chapter 06 -/

/-- An exact real value, an infinity or NaN (R186): a finite value is ±m × 2^e. -/
inductive FVal where
  | nan
  | inf (neg : Bool)
  | fin (neg : Bool) (m : Nat) (e : Int)
deriving DecidableEq, Repr

/-- The superaccumulator of R196. -/
structure Super where
  sum : Int := 0
  nan : Bool := false
  pinf : Bool := false
  ninf : Bool := false
  neg0 : Bool := true
deriving DecidableEq, Repr

/-- An element's accumulator: nothing added yet, a rounded float, a superaccumulator, an integer,
or the bit pattern of MIN, MAX and the bitwise folds. -/
inductive Acc where
  | none
  | f (v : FVal)
  | x (a : Super)
  | i (n : Int)
deriving DecidableEq, Repr

/-- A COMBINE contribution held for a segment (R203, R204). -/
structure Seg where
  token : Nat := 0
  col : Nat := 0
  member : Nat := 0
  weight : Nat := 0
  count : Nat := 0
  data : List Byte := []
deriving DecidableEq, Repr

/-- A crucible slot of R212: 0 free, 1 plan of owner, 2 dynamic chunk of owner, 3 scrubbing. -/
structure Slot where
  use : Nat := 0
  owner : Nat := 0
  since : Nat := 0
  ue : Bool := false
  retired : Bool := false
deriving DecidableEq, Repr

/-- What a chunk of a collective has gathered, dynamic or in a plan's window. -/
structure Chunk where
  received : List Nat := []
  /-- members excluded by a late path, for this run alone (R238) -/
  excluded : List Nat := []
  /-- one accumulator per element; empty: nothing added to any of them -/
  acc : List Acc := []
  flags : Nat := 0
  /-- 0 none, else the highest status of R274 that poisons the chunk -/
  poison : Nat := 0
  mmEid : Nat := 0
  mmExpected : Nat := 0
  mmReceived : Nat := 0
  cmSeen : Bool := false
  segs : List Seg := []
  done : Bool := false
  slots : List Nat := []
  startedAt : Nat := 0
deriving DecidableEq, Repr

structure Cru where
  /-- key 512 × crucible + slot -/
  slots : Tab Slot := []
deriving DecidableEq, Repr

/-! ### Pour plans: chapter 07 -/

/-- A window of a plan in the present run (R225, R230). -/
structure WinRun where
  /-- 0 not yet opened, 1 open, 2 closed -/
  st : Nat := 0
  c : Chunk := {}
  /-- STORE: each member's contribution, under its member slot -/
  contribs : Tab (List Byte) := []
  /-- bytes of contributions taken -/
  inBytes : Nat := 0
  /-- DTYPE of the last CONVERT of the run -/
  outFmt : Option Nat := none
  outBytes : List Byte := []
  /-- state buffer: planes' bits per element; empty: nothing loaded in the run -/
  state : List (Nat × Nat × Nat) := []
  /-- marked LATE under R237 -/
  late : Bool := false
  /-- the lowest member missing when it was marked LATE -/
  lateLow : Option Nat := none
  /-- taken as complete although COMBINE segments lack contributions (R238) -/
  forced : Bool := false
  doneAt : Option Nat := none
deriving DecidableEq, Repr

structure Plan where
  /-- 0 EMPTY, 1 LOADING, 2 ADMITTED, 3 ARMED, 4 RUNNING, 5 STOPPED, 6 UNLOADING -/
  state : Nat := 0
  planId : Nat := 0
  part : Nat := 0
  runSpan : Nat := 0
  ring : Nat := 0
  claims : List (Word × Word) := []
  phases : List (Word × Word × Word) := []
  windows : List (Word × Word × Word × Word) := []
  dests : List Nat := []
  base : Nat := 0
  period : Nat := 0
  runs : Nat := 0
  runNo : Nat := 0
  lastRun : Nat := 0
  sprueFailed : Bool := false
  /-- SPRUE claims whose set time has acted in this run, or in this arm when they persist -/
  sprueActed : List Nat := []
  disarming : Option (Nat × Nat) := none
  unloading : Option (Nat × Nat) := none
  /-- the run in progress -/
  running : Bool := false
  runBase : Nat := 0
  win : Tab WinRun := []
  /-- phases whose pour time has come, that have started, that have ended -/
  poured : List Nat := []
  started : List Nat := []
  phaseEnded : List Nat := []
  /-- phases whose deadline has acted, that wait under a WAIT_ path, that start whatever is missing -/
  missed : List Nat := []
  waiting : List Nat := []
  forced : List (Nat × Nat) := []
  seqEnded : List Nat := []
deriving DecidableEq, Repr

/-- A MEM LOAD or LOAD_STATE whose data have not arrived: context, window, operation, claim, granule, issue
time and the word's sample record. -/
structure MemWait where
  ctx : Nat := 0
  win : Nat := 0
  op : Nat := 0
  claim : Nat := 0
  off : Nat := 0
  issued : Nat := 0
  sample : Option (List Word) := none
deriving DecidableEq, Repr

structure Seqr where
  busy : Bool := false
  ctx : Nat := 0
  phase : Nat := 0
  startAt : Nat := 0
  phaseNs : Nat := 0
  nextAddr : Nat := 0
  /-- when the next word is due, and its declared cycle from the phase start -/
  nextAt : Nat := 0
  declared : Nat := 0
  last : Nat := 0
  /-- the last word ended the phase: SYNC.OP, and when every unit is idle -/
  endAt : Option (Nat × Nat) := none
  /-- end of occupancy of RECV, ACC, CVT, MEM, SEND, SYNC -/
  busyUntil : List Nat := [0, 0, 0, 0, 0, 0]
  /-- stall cycles of the running phase; the riser keeps the next word waiting -/
  stall : Nat := 0
  blocked : Bool := false
  memWait : List MemWait := []
  /-- the comparator's target, and the context and phase it was loaded for (R245) -/
  comparator : Option Nat := none
  target : Nat × Nat := (0, 0)
deriving DecidableEq, Repr

/-- A frame held in a launch store (R249, R345). -/
structure Launch where
  f : Frame := {}
  time : Nat := 0
  release : Bool := false
  ring : Nat := 0
  tag : Nat := 0
  part : Nat := 0
  late : Bool := false
  order : Nat := 0
deriving DecidableEq, Repr

structure PlanSt where
  plans : Tab Plan := []
  /-- key 65536 × sequencer + address -/
  memory : Tab (BitVec 256) := []
  seqs : Tab Seqr := []
  launch : Tab (List Launch) := []
deriving DecidableEq, Repr

/-! ### Collectives: chapter 08 -/

structure Stat where
  last : Nat := 0
  miss : Nat := 0
  lag : Nat := 0
deriving DecidableEq, Repr

/-- What the invocation's completions report so far (R273 to R275). -/
structure CmplSum where
  count : Nat := 0
  best : Nat := 0
  errChunk : Nat := 0xFFFFFFFF
  eid : Nat := 0
  expected : Nat := 0
  received : Nat := 0
  flags : Nat := 0
  excluded : List Nat := []
  cm : Bool := false
  /-- chunks reported -/
  done : List Nat := []
deriving DecidableEq, Repr

structure Ctx where
  /-- 0 FREE, 1 configured (IDLE, or ACTIVE while an invocation is in progress), 3 SCRUBBING -/
  state : Nat := 0
  /-- K0 to K15 of R253; the update block's STEP, P1 and P2 advance in place -/
  record : List Word := []
  n : Nat := 0
  hash : Nat := 0
  seq : Nat := 0
  excluded : List Nat := []
  including : List Nat := []
  /-- a dynamic invocation is in progress -/
  dyn : Bool := false
  chunks : Tab Chunk := []
  sum : CmplSum := {}
  lastTaken : Nat := 0
  advanced : Bool := false
  mmRaised : Bool := false
  exRaised : List Nat := []
  /-- arrivals of the present invocation: member to time of its last contribution -/
  arrivals : Tab Nat := []
  missing : List Nat := []
  slowest : List Nat := []
  suspects : List Nat := []
  lastMember : Nat := 0
  lastLag : Nat := 0
  stats : Tab Stat := []
  teardown : Option (Nat × Nat) := none
deriving DecidableEq, Repr

structure Coll where
  ctxs : Tab Ctx := []
deriving DecidableEq, Repr

/-! ### Stacked memory: chapter 09 -/

/-- A 64 B line, or the poison marker of R296. -/
inductive Line where
  | data (v : BitVec 512)
  | poison
deriving DecidableEq, Repr

/-- A line transfer in a queue of its channel's controller (R292), with what its attempts will give. -/
structure MemXfer where
  user : MemUser
  line : Nat
  tries : List TransferResult
deriving DecidableEq, Repr

structure MemCh where
  state : Nat := 0
  logical : Nat := 0x3FF
  repairRows : Nat := 128
  ce : Nat := 0
  retries : Nat := 0
  /-- tracked pages with their counts (R298): page number = layer, bank group, bank and row as one -/
  pages : List (Nat × Nat) := []
  /-- redundant rows used per bank (0 to 63) -/
  rowsUsed : Tab Nat := []
  /-- page under retirement, and since when -/
  retiring : Option (Nat × Nat) := none
  trainTemp : Nat := 0
  /-- direction of the last transfer: 0 none, 1 read, 2 write; and the lines moved in it since it began (R292) -/
  dir : Nat := 0
  run : Nat := 0
  /-- the read queue and the write queue (R292), when the bus is free for the next line, and the command slots given -/
  rdq : List MemXfer := []
  wrq : List MemXfer := []
  freeAt : Nat := 0
  slots : Nat := 0
  /-- on a stack that limits its traffic: when the next line of precedence 4 to 6 may move (R380) -/
  quarterAt : Nat := 0
deriving DecidableEq, Repr

structure Rot where
  /-- 0 IDLE, 1 COPY, 2 SWITCH, 3 TRAIN, 4 TEST -/
  phase : Nat := 0
  src : Nat := 0x3F
  dst : Nat := 0x3F
  repair : Bool := false
  copyLine : Nat := 0
  /-- lines of the bitmap of R287 -/
  written : List Nat := []
  /-- granule ranges that a scrub has written since the copy began, base and size: their lines are marked too -/
  zeroed : List (Nat × Nat) := []
  /-- lines of Y that hold the poison marker where X does not -/
  poisonY : List Nat := []
  startAt : Nat := 0
  /-- channels that await a repair while the stack is busy with another rotation -/
  repairs : List Nat := []
  /-- channels of the stack still to be rotated in this pass, and requests ahead of it -/
  pass : List Nat := []
  requests : List Nat := []
  lastPass : Option Nat := none
deriving DecidableEq, Repr

structure MapEntry where
  stack : Nat := 0
  ch : Nat := 0
  retired : Bool := false
  rebuilt : Bool := false
  moved : Bool := false
deriving DecidableEq, Repr

structure Stack where
  temp : Nat := 0
  hot : Bool := false
  coolSince : Option Nat := none
  spare : Nat := 32
  failed : Nat := 0
deriving DecidableEq, Repr

/-- A relief block of R301: its base granule, rows, the channel it serves. -/
structure Relief where
  base : Nat := 0
  rows : Nat := 0
  logical : Nat := 0
  /-- the logical channels that held its granules, in address order -/
  hosts : List Nat := []
  ready : Bool := false
deriving DecidableEq, Repr

/-- An accepted fabric memory request (R306, R307). -/
structure MemReq where
  q : QFrame := {}
  base : Nat := 0
  rid : Nat := 0
deriving DecidableEq, Repr

structure Mem where
  /-- key 4 × granule + line -/
  lines : Tab Line := []
  map : Tab MapEntry := []
  chans : Tab MemCh := []
  stks : Tab Stack := []
  rots : Tab Rot := []
  relief : List Relief := []
  /-- retired logical channels awaiting their rebuild -/
  pendingRebuild : List Nat := []
  reliefFull : Bool := false
  rebuilds : Nat := 0
  /-- granule ranges being scrubbed: base and size -/
  scrubbing : List (Nat × Nat) := []
  reqs : List MemReq := []
  patrolAt : Option Nat := none
  /-- lines of each logical channel that the present patrol pass has read (R299) -/
  patrol : Tab Nat := []
  /-- lines whose last transfer of a requester failed: its read is POISONED, the line is not (R295) -/
  readFailed : List Nat := []
deriving DecidableEq, Repr

/-! ### Network time: chapter 10 -/

/-- The master a permitted link announces (R317). -/
structure Cand where
  at_ : Nat := 0
  priority : Nat := 0
  cls : Nat := 0
  identity : Nat := 0
  /-- mean path delay in 2^-17 ns -/
  delay : Nat := 0
  /-- it has announced nothing for 8 sync intervals since -/
  lapsed : Bool := false
deriving DecidableEq, Repr

structure Dom where
  /-- 0 UNACQUIRED, 1 SETTLING, 2 LOCKED, 3 HOLDOVER -/
  state : Nat := 0
  /-- value in 2^-48 ns at TIME clock period `per`, and RATE -/
  base : Int := 0
  per : Nat := 0
  rate : Int := 0
  /-- the part of RATE that does not remove an offset (R316) -/
  drift : Int := 0
  stepNeeded : Bool := false
  offset : Int := 0
  goodRun : Nat := 0
  upstream : Nat := 0xFFF
  pathDelay : Nat := 0
  gmPriority : Nat := 0
  gmClass : Nat := 0
  gm : Nat := 0
  cands : Tab Cand := []
  /-- acquisition: provisional count started, offsets taken (2^-48 ns) -/
  acqAt : Option Nat := none
  acq : List Int := []
  /-- exchanges in progress: SEQ, t1, t2, t3 in 2^-16 ns, link, start -/
  exch : List (Nat × Int × Int × Int × Nat × Nat) := []
  /-- the next exchange or edge measures the offset from a better, new or returned master (R321) -/
  measuring : Bool := false
  /-- the link whose grandmaster is measured; 0xFFF none -/
  probe : Nat := 0xFFF
  lastSync : Nat := 0
  lastEdge : Option Nat := none
deriving DecidableEq, Repr

structure Tim where
  doms : Tab Dom := []
  inForce : Bool := false
  sel : Nat := 0
  /-- the TIME clock period in which NT came into force -/
  forcePer : Option Nat := none
  /-- D of R313 in 2^-48 ns -/
  d : Int := 0
  /-- NT runs on by itself: value, period and rate since the selected domain became UNACQUIRED -/
  free : Option (Int × Nat × Int) := none
  nowHi : Nat := 0
  syncSeq : Tab Nat := []
  syncAt : Tab Nat := []
  annAt : Tab Nat := []
  ppsHigh : Option Nat := none
deriving DecidableEq, Repr

/-! ### Driver interface: chapter 11 -/

structure Ring where
  /-- 0 DISABLED, 1 RUNNING, 2 DRAINING, 3 FAULT, 4 STALLED -/
  state : Nat := 0
  head : Nat := 0
  tail : Nat := 0
  lost : Nat := 0
  fault : Nat := 0
  armed : Bool := false
  /-- completion and event rings: when each entry that the driver has not returned was written -/
  newAt : List Nat := []
  /-- fetched descriptors not yet started: their eight words -/
  fetched : List (List Word) := []
  /-- descriptors started and not completed: TAG + 2^32 × gen -/
  running : List Nat := []
  /-- completions that a full completion ring holds back: E0 less the ring, DETAIL, COUNT -/
  heldBack : List (Nat × Nat × Nat × Nat) := []
  /-- what the host answered for the buffer of the first fetched descriptor (R356) -/
  staged : Option HostAccess := none
  /-- completions are not written (R342, R356) -/
  mute : Bool := false
  /-- the function whose rights and requester ID the descriptors of a muted ring keep -/
  runAs : Option Func := none
  /-- how often the ring has started again after it was muted: tells a descriptor of before from one of after -/
  gen : Nat := 0
deriving DecidableEq, Repr

structure Telem where
  die : Nat := 0
  addr : Nat := 0
  records : Nat := 0
  filled : Nat := 0
  firstAt : Option Nat := none
  ring : Nat := 0
  tag : Nat := 0
deriving DecidableEq, Repr

structure Hif where
  epoch : Nat := 1
  vfs : List Nat := []
  /-- key 256 × kind + index -/
  rings : Tab Ring := []
  msix : Tab Word := []
  pba : Tab Word := []
  mboxBusy : Bool := false
  mboxDone : Bool := false
  mboxStatus : Nat := 0
  mboxResp : Tab Word := []
  eventSeq : Nat := 0
  /-- descriptors fetched so far (the model's own field): numbers them in fetch order -/
  fetchSeq : Nat := 0
  telem : List Telem := []
deriving DecidableEq, Repr

/-! ### Health: chapter 12 -/

/-- Sensor readings of one set, and the conditions that hold on it (R378 to R382). -/
structure Therm where
  readings : List (BitVec 16) := []
  excluded : List Bool := []
  warn : Bool := false
  limit : Bool := false
  warnLow : Option Nat := none
  limitLow : Option Nat := none
  latched : Bool := false
deriving DecidableEq, Repr

structure Hlt where
  fenceN : Bool := false
  wakeN : Bool := false
  perstN : Bool := false
  fenceUnstable : Bool := false
  fenceHeld : Bool := false
  fenceAssertAt : Option Nat := none
  fenceDeassertAt : Option Nat := none
  moduleFenced : Bool := false
  wakeMasked : Bool := false
  wakeRearm : Bool := false
  wakeAt : Option Nat := none
  tripSrc : Nat := 0
  tripLatch : Bool := false
  tripUnit : Nat := 0
  alert : Bool := false
  /-- key 64 × set + unit -/
  therm : Tab Therm := []
  throttled : List Nat := []
  limited : List Nat := []
  autoFences : List Nat := []
  /-- the six bits of HEALTH_STATUS as last reported (R376) -/
  reported : Nat := 0
deriving DecidableEq, Repr

/-! ### Counters and sampling: chapter 13 -/

structure Smp where
  words : Nat := 0
  frames : Nat := 0
  pos : Nat := 0
  recs : List (List Word) := []
deriving DecidableEq, Repr

structure Cnt where
  values : Tab Nat := []
  /-- CNT_LAST of the PF, of cores P24 to P31 and of firmware -/
  last : Tab Word := []
  smp : Tab Smp := []
deriving DecidableEq, Repr

/-! ### The whole -/

/-- The reasons the block stops. No command of the manual stops the block: each breach is answered by
a status, a NACK, an event or an ignored write. -/
inductive Fault where
  /-- never raised (safe): the manual describes no behaviour that halts the module with a fault -/
  | none
deriving DecidableEq, Repr

inductive Refusal where
  /-- a row without its meaning: raised by the arms of Dispatch.lean alone (safe) -/
  | notModelled (mnemonic : String)
deriving DecidableEq, Repr

structure State where
  /-- commands waiting, first in first out -/
  pending : List Instr := []
  /-- time since the always-on domain started, in 1/120 ns (log entry 2) -/
  now : Nat := 0
  /-- how many free values have been taken (the model's own field, log entry 4) -/
  freeCtr : Nat := 0
  variant : Variant := .x
  /-- registers the driver writes and latched logs, under their BAR0 offset; unlisted: the reset value -/
  regs : Tab Word := []
  out : List Output := []
  boot : Boot := {}
  pwr : Pwr := {}
  opt : Opt := {}
  lnk : Lnk := {}
  sw : Sw := {}
  tbl : Tbl := {}
  cru : Cru := {}
  plan : PlanSt := {}
  coll : Coll := {}
  mem : Mem := {}
  tim : Tim := {}
  hif : Hif := {}
  hlt : Hlt := {}
  cnt : Cnt := {}
deriving DecidableEq, Repr

/-- The module right after the power-on reset of R431: the always-on domain has started, AON reset of
R407 runs, and every register reads its reset value. -/
def State.reset : State := {}

abbrev Out := Host.Outcome State Fault Refusal

end Sys2Proof.Machine
end

