-- ==== Sys2Proof/Machine/Ops.lean ====
section
/-! DEFINITION. Operations every family uses: sparse tables, bit fields and bytes, time, the free
values, the clock of the part and what leaves the module. -/
namespace Sys2Proof.Machine

/-! ### Sparse tables -/

/-- Read a sparse table; d is what an unlisted key reads as. -/
def tget {α : Type} (d : α) : Tab α → Nat → α
  | [], _ => d
  | (k', v) :: r, k => if k' = k then v else tget d r k

/-- A table without a key. -/
def tdrop {α : Type} (t : Tab α) (k : Nat) : Tab α := t.filter fun e => decide (e.1 ≠ k)

/-- Write a sparse table, keeping it canonical. -/
def tset {α : Type} [DecidableEq α] (d : α) : Tab α → Nat → α → Tab α
  | [], k, v => if v = d then [] else [(k, v)]
  | (k', v') :: r, k, v =>
    if k' < k then (k', v') :: tset d r k v
    else if v = d then tdrop ((k', v') :: r) k
    else (k, v) :: tdrop ((k', v') :: r) k

def tmod {α : Type} [DecidableEq α] (d : α) (t : Tab α) (k : Nat) (f : α → α) : Tab α :=
  tset d t k (f (tget d t k))

/-- Apply f to every listed entry. -/
def tmap {α : Type} [DecidableEq α] (d : α) (t : Tab α) (f : Nat → α → α) : Tab α :=
  (t.map fun e => (e.1, f e.1 e.2)).filter fun e => decide (e.2 ≠ d)

/-- The canonical form: keys strictly rising, no entry equal to the default of its key. -/
def tabWf {α : Type} [DecidableEq α] (d : Nat → α) : Tab α → Bool
  | [] => true
  | [(k, v)] => decide (v ≠ d k)
  | (k, v) :: (k', v') :: r => decide (v ≠ d k) && decide (k < k') && tabWf d ((k', v') :: r)

/-! ### Words, fields and bytes -/

/-- Replace bits [hi:lo] of a word. -/
def setFld (w : Word) (hi lo v : Nat) : Word :=
  BitVec.ofNat 64 (w.toNat - (fld w hi lo) * 2 ^ lo + (v % 2 ^ (hi + 1 - lo)) * 2 ^ lo)

/-- Two's complement reading of the low n bits. -/
def sx (n v : Nat) : Int := if v % 2 ^ n < 2 ^ (n - 1) then (v % 2 ^ n : Nat) else (v % 2 ^ n : Nat) - (2 ^ n : Nat)

/-- Two's complement encoding in n bits. -/
def enc (n : Nat) (i : Int) : Nat := (i % (2 ^ n : Nat)).toNat

/-- Little-endian value of a byte list. -/
def leNat : List Byte → Nat
  | [] => 0
  | b :: r => b.toNat + 256 * leNat r

/-- n little-endian bytes of a value. -/
def leBytes : Nat → Nat → List Byte
  | 0, _ => []
  | n + 1, v => BitVec.ofNat 8 (v % 256) :: leBytes n (v / 256)

/-- The bytes at [off, off + n); bytes beyond the list read 0. -/
def sliceB (l : List Byte) (off n : Nat) : List Byte :=
  let t := (l.drop off).take n
  t ++ List.replicate (n - t.length) 0

def leAt (l : List Byte) (off n : Nat) : Nat := leNat (sliceB l off n)

def wordAt (l : List Byte) (i : Nat) : Word := BitVec.ofNat 64 (leAt l (8 * i) 8)

/-- The little-endian words of a byte list. -/
def wordsOf (l : List Byte) (n : Nat) : List Word := (List.range n).map fun i => wordAt l i

def bytesOfWords : List Word → List Byte
  | [] => []
  | w :: r => leBytes 8 w.toNat ++ bytesOfWords r

/-- Replace the bytes at off. -/
def putBytes (l : List Byte) (off : Nat) (d : List Byte) : List Byte :=
  let pre := l.take off
  pre ++ List.replicate (off - pre.length) 0 ++ d ++ l.drop (off + d.length)

def nth {α : Type} (d : α) (l : List α) (i : Nat) : α := l.getD i d

def setNth {α : Type} : List α → Nat → α → List α
  | [], _, _ => []
  | _ :: r, 0, v => v :: r
  | x :: r, n + 1, v => x :: setNth r n v

/-- The numbers below n, in order, in runs of 64. -/
def upTo (n : Nat) : List Nat :=
  ((List.range ((n + 63) / 64)).flatMap fun i => (List.range 64).map fun j => 64 * i + j).filter fun x => decide (x < n)

def ceilDiv (a b : Nat) : Nat := (a + b - 1) / b

def addNew (l : List Nat) (n : Nat) : List Nat := if l.contains n then l else l ++ [n]

def remNat (l : List Nat) (n : Nat) : List Nat := l.filter fun x => decide (x ≠ n)

/-! ### Time: State.now counts 1/120 ns (log entry 2) -/

def nsT : Nat := 120
def usT : Nat := 120000
def msT : Nat := 120000000
def secT : Nat := 120000000000

/-- LT, the TIME clock's own 32-bit nanosecond count of R141. -/
def ltNow (s : State) : Nat := ((s.now - s.sw.ltZero) / nsT) % 2 ^ 32

/-- The TIME clock period of 1 ns that now lies in (R312). -/
def perNow (s : State) : Nat := s.now / nsT

def defDom : Dom := {}

def dom (s : State) (k : Nat) : Dom := tget {} s.tim.doms k

/-- The domain's counter in 2^-48 ns (R312): each period adds 1 ns + RATE. UNACQUIRED reads 0 (R314). -/
def domValue (s : State) (k : Nat) : Int :=
  let d := dom s k
  if d.state = 0 then 0
  else d.base + ((perNow s - d.per : Nat) : Int) * (2 ^ 48 + d.rate)

/-- NT in 2^-48 ns (R313), 0 while it is not in force. -/
def ntFine (s : State) : Int :=
  if !s.tim.inForce then 0
  else match s.tim.free with
    | some (v, p, r) => v + ((perNow s - p : Nat) : Int) * (2 ^ 48 + r)
    | none => domValue s s.tim.sel + s.tim.d

/-- NT in whole nanoseconds, which never wrap. -/
def ntWhole (s : State) : Int := ntFine s / 2 ^ 48

/-- Seconds of NT, 48 bits, and its nanoseconds (R311). -/
def ntSeconds (s : State) : Nat := enc 48 (ntWhole s / 1000000000)
def ntNanos (s : State) : Nat := (ntWhole s % 1000000000).toNat

/-- NT in whole nanoseconds as 64 bits (R311). -/
def ntNs (s : State) : Nat := enc 64 (ntFine s / 2 ^ 48)

/-- NT[31:0], 0 while NT is not in force (R350, R383, R386). -/
def nt32 (s : State) : Nat := ntNs s % 2 ^ 32

/-- The time since t, in 1/120 ns. -/
def since (s : State) (t : Nat) : Nat := s.now - t

/-- At least d has passed since t. -/
def due (s : State) (t d : Nat) : Bool := decide (t + d ≤ s.now)

def dueOpt (s : State) (t : Option Nat) (d : Nat) : Bool :=
  match t with
  | some x => due s x d
  | none => false

/-- The row of a timer is the moment at which its interval ends: d after t, or now where that has passed (log
entry 39). -/
def await (s : State) (t d : Nat) : State := { s with now := max s.now (t + d) }

def awaitOpt (s : State) (t : Option Nat) (d : Nat) : State :=
  match t with
  | some x => await s x d
  | none => s

/-- The moment at which NT reaches T ns: now where it has, or where NT is not in force. -/
def awaitNt (s : State) (t : Nat) : State :=
  let rate : Int := match s.tim.free with
    | some (_, _, r) => r
    | none => (dom s s.tim.sel).rate
  let gap := (t : Int) * 2 ^ 48 - ntFine s
  if !s.tim.inForce || decide (gap ≤ 0) || decide (2 ^ 48 + rate ≤ 0) then s
  else await s 0 (nsT * (perNow s + ((gap + (2 ^ 48 + rate) - 1) / (2 ^ 48 + rate)).toNat))

/-! ### Free values (log entry 4) -/

def takeFree (s : State) : State := { s with freeCtr := s.freeCtr + 1 }

/-! ### What leaves the module (log entry 3) -/

def emit (s : State) (o : Output) : State := { s with out := s.out ++ [o] }
def emitAll (s : State) (l : List Output) : State := { s with out := s.out ++ l }

/-! ### Units of the variants (R4) -/

def hasStacks (s : State) : Bool := decide (s.variant ≠ .m)
def hasCrucibles (s : State) : Bool := decide (s.variant ≠ .c)
def hasSprue (s : State) : Bool := decide (s.variant ≠ .b)
def hasUpdate (s : State) : Bool := hasStacks s && hasCrucibles s

/-! ### Links and lanes (R16, R18, R38) -/

def isLateral (l : Nat) : Bool := decide (2048 ≤ l)

/-- Lanes of a link: two on a leaf link, 32 on a lateral link. -/
def lanesOf (l : Nat) : List Nat :=
  if l < 2048 then [2 * l, 2 * l + 1] else (List.range 32).map fun i => 4096 + 32 * (l - 2048) + i

def linkOf (lane : Nat) : Nat := if lane < 4096 then lane / 2 else 2048 + (lane - 4096) / 32

def link (s : State) (l : Nat) : Link := tget {} s.lnk.links l
def lane (s : State) (q : Nat) : Lane := tget {} s.lnk.lanes q

def setLink (s : State) (l : Nat) (v : Link) : State :=
  { s with lnk := { s.lnk with links := tset {} s.lnk.links l v } }
def setLane (s : State) (q : Nat) (v : Lane) : State :=
  { s with lnk := { s.lnk with lanes := tset {} s.lnk.lanes q v } }
def modLink (s : State) (l : Nat) (f : Link → Link) : State := setLink s l (f (link s l))
def modLane (s : State) (q : Nat) (f : Lane → Lane) : State := setLane s q (f (lane s q))

/-- A lane is UP (R84). -/
def laneUp (s : State) (q : Nat) : Bool := (lane s q).state == 4

def upLanes (s : State) (l : Nat) : List Nat := (lanesOf l).filter (laneUp s)

/-- A link has a lane UP (R84, R367). -/
def linkUp (s : State) (l : Nat) : Bool := !(upLanes s l).isEmpty

/-- Fold an update over a list of units. -/
def forEach {α : Type} (l : List α) (s : State) (f : State → α → State) : State := l.foldl f s

end Sys2Proof.Machine
end

