-- ==== Sys2Proof/Machine/Fec.lean ====
section
/-! DEFINITION. The Reed–Solomon codes of the lanes (R74) and of the stacked memory (R296), and the PAM4 line
(R74, R76). A code word is a list of symbols, the first sent first; its first k symbols are the data. -/
namespace Sys2Proof.Machine

/-! ### Fields of characteristic 2 -/

/-- A Reed–Solomon code: symbols of w bits, the field polynomial with its leading term, n symbols of which k are
data, and generator roots α⁰ to α^(n − k − 1). -/
structure Rs where
  w : Nat
  poly : Nat
  n : Nat
  k : Nat

/-- RS(544,514) over GF(2¹⁰) of IEEE 802.3 Clause 91; its field polynomial and roots are that standard's
(log entry 50). -/
def rsLane : Rs := { w := 10, poly := 0x409, n := 544, k := 514 }

/-- The line code of R296: 32 data symbols and 4 check symbols of 16 bits. -/
def rsLine : Rs := { w := 16, poly := 0x1100B, n := 36, k := 32 }

/-- Multiply by α. -/
def gfStep (r : Rs) (a : Nat) : Nat := if 2 ^ r.w ≤ 2 * a then (2 * a) ^^^ r.poly else 2 * a

def gfMulLoop (r : Rs) : Nat → Nat → Nat → Nat → Nat
  | 0, _, _, acc => acc
  | n + 1, a, b, acc => gfMulLoop r n (gfStep r a) (b / 2) (if b % 2 = 1 then acc ^^^ a else acc)

def gfMul (r : Rs) (a b : Nat) : Nat := gfMulLoop r r.w a b 0

/-- Square and multiply over the bits of an exponent, their number first. -/
def gfPowLoop (r : Rs) : Nat → Nat → Nat → Nat → Nat
  | 0, _, _, acc => acc
  | k + 1, a, n, acc => gfPowLoop r k (gfMul r a a) (n / 2) (if n % 2 = 1 then gfMul r acc a else acc)

/-- α to the n-th power, for n below 2^w. -/
def gfAlpha (r : Rs) (n : Nat) : Nat := gfPowLoop r r.w 2 n 1

/-- a^(2^w − 2): the product of a^2, a^4, …, a^(2^(w−1)). -/
def gfInvLoop (r : Rs) : Nat → Nat → Nat → Nat
  | 0, _, acc => acc
  | n + 1, a, acc => let a2 := gfMul r a a; gfInvLoop r n a2 (gfMul r acc a2)

def gfInv (r : Rs) (a : Nat) : Nat := gfInvLoop r (r.w - 1) a 1

/-- A polynomial, its coefficients from the constant upward, at a point. -/
def gfEval (r : Rs) : List Nat → Nat → Nat
  | [], _ => 0
  | c :: l, x => c ^^^ gfMul r x (gfEval r l x)

/-! ### Encoding -/

/-- Multiply a polynomial by x + a. -/
def gfTimesRoot (r : Rs) (a : Nat) (p : List Nat) : List Nat :=
  (List.range (p.length + 1)).map fun i =>
    (if i = 0 then 0 else nth 0 p (i - 1)) ^^^ (if i < p.length then gfMul r a (nth 0 p i) else 0)

/-- The generator polynomial below its leading term. -/
def rsGen (r : Rs) : List Nat :=
  ((List.range (r.n - r.k)).foldl (fun p i => gfTimesRoot r (gfAlpha r i) p) [1]).take (r.n - r.k)

/-- Symbols as one number, the first in the lowest place. -/
def rsPack (r : Rs) : List Nat → Nat
  | [] => 0
  | c :: l => c + 2 ^ r.w * rsPack r l

/-- The generator times each power of α below the w-th. -/
def rsGens (r : Rs) : List Nat :=
  (List.range r.w).map fun b => rsPack r ((rsGen r).map fun c => gfMul r (gfAlpha r b) c)

/-- The multiple of the generator that a feedback symbol adds. -/
def rsFeed (gens : List Nat) (fb : Nat) : Nat :=
  (List.range gens.length).foldl (fun v b => if fb.testBit b then v ^^^ nth 0 gens b else v) 0

/-- One data symbol through the dividing register. -/
def rsShift (r : Rs) (reg c : Nat) : Nat :=
  let top := r.w * (r.n - r.k - 1)
  ((reg * 2 ^ r.w) % 2 ^ (r.w * (r.n - r.k))) ^^^ rsFeed (rsGens r) ((reg / 2 ^ top) ^^^ c)

/-- The check symbols of k data symbols as one number, the last sent in the lowest place. -/
def rsRem (r : Rs) (data : List Nat) : Nat := data.foldl (rsShift r) 0

/-- The symbols of a packed register, the first sent first. -/
def rsUnpack (r : Rs) (v : Nat) : List Nat :=
  (List.range (r.n - r.k)).map fun i => v / 2 ^ (r.w * (r.n - r.k - 1 - i)) % 2 ^ r.w

def rsEncode (r : Rs) (data : List Nat) : List Nat := data ++ rsUnpack r (rsRem r data)

/-! ### Decoding -/

/-- Berlekamp and Massey's register: the connection polynomial and the one before its last change, its length,
the steps since and that step's discrepancy. -/
structure RsReg where
  c : List Nat := [1]
  b : List Nat := [1]
  len : Nat := 0
  m : Nat := 1
  d : Nat := 1

def gfAddPoly (p q : List Nat) : List Nat :=
  (List.range (max p.length q.length)).map fun i => nth 0 p i ^^^ nth 0 q i

def rsSum (l : List Nat) : Nat := l.foldl (· ^^^ ·) 0

def rsRegStep (r : Rs) (syn : List Nat) (g : RsReg) (n : Nat) : RsReg :=
  let d := rsSum ((List.range (g.len + 1)).map fun i => if n < i then 0 else gfMul r (nth 0 g.c i) (nth 0 syn (n - i)))
  if d = 0 then { g with m := g.m + 1 }
  else
    let f := gfMul r d (gfInv r g.d)
    let c := gfAddPoly g.c (List.replicate g.m 0 ++ g.b.map (gfMul r f))
    if 2 * g.len ≤ n then { c := c, b := g.c, len := n + 1 - g.len, m := 1, d := d }
    else { g with c := c, m := g.m + 1 }

/-- What a decoder makes of a received word: the word it takes for the one sent and the symbols that it
corrected, with their bits. -/
structure RsWord where
  word : List Nat
  symbols : Nat
  bits : Nat

def popCount : Nat → Nat → Nat
  | 0, _ => 0
  | n + 1, v => v % 2 + popCount n (v / 2)

/-- The formal derivative. -/
def gfDeriv (p : List Nat) : List Nat :=
  (List.range (p.length - 1)).map fun i => if i % 2 = 0 then nth 0 p (i + 1) else 0

/-- The code word within (n − k) / 2 symbols of what was received, none where there is none. -/
def rsDecode (r : Rs) (recv : List Nat) : Option RsWord :=
  let dif := rsRem r (recv.take r.k) ^^^ (recv.drop r.k).foldl (fun v c => v * 2 ^ r.w + c) 0
  if dif = 0 then some { word := recv, symbols := 0, bits := 0 }
  else
    let t2 := r.n - r.k
    let low := (rsUnpack r dif).reverse
    let syn := (List.range t2).map fun j => gfEval r low (gfAlpha r j)
    let g := (List.range t2).foldl (rsRegStep r syn) {}
    let inv (i : Nat) : Nat := gfAlpha r ((2 ^ r.w - 1 - (r.n - 1 - i)) % (2 ^ r.w - 1))
    let bad := (List.range r.n).filter fun i => gfEval r g.c (inv i) == 0
    if t2 < 2 * g.len ∨ bad.length ≠ g.len then none
    else
      let om := (List.range t2).map fun n =>
        rsSum ((List.range (n + 1)).map fun i => gfMul r (nth 0 g.c i) (nth 0 syn (n - i)))
      let err (i : Nat) : Nat :=
        gfMul r (gfMul r (gfAlpha r (r.n - 1 - i)) (gfEval r om (inv i))) (gfInv r (gfEval r (gfDeriv g.c) (inv i)))
      let errs := bad.map err
      some {
        word := (List.range bad.length).foldl
          (fun w j => setNth w (nth 0 bad j) (nth 0 w (nth 0 bad j) ^^^ nth 0 errs j)) recv
        symbols := bad.length
        bits := (errs.map (popCount r.w)).foldl (· + ·) 0 }

/-! ### The line of stacked memory: R296 -/

/-- The poison marker: a poisoned line's check symbols are its correct ones xor these. -/
def poisonMarker : List Nat := [0xA5A5, 0x5A5A, 0xA5A5, 0x5A5A]

/-- Symbol by symbol, n symbols of 16 bits. -/
def xorSyms (n : Nat) (a b : List Nat) : List Nat := (List.range n).map fun i => nth 0 a i ^^^ (nth 0 b i % 65536)

/-- The 36 symbols of 64 B of data: data symbol i is bits [16i + 15:16i], then come the check symbols. -/
def lineCode (v : BitVec 512) : List Nat :=
  rsEncode rsLine ((List.range 32).map fun i => v.toNat / 2 ^ (16 * i) % 65536)

/-- The symbols that a line holds. The code being linear, what the data symbols of a poisoned line hold is nothing
to its decoder; 0 stands for them. -/
def lineSyms36 : Line → List Nat
  | .data v => lineCode v
  | .poison => xorSyms 36 (lineCode 0) (List.replicate 32 0 ++ poisonMarker)

/-- The decoder recognises the marker (R296). -/
def isMarker (recv : List Nat) : Bool :=
  xorSyms 4 (rsUnpack rsLine (rsRem rsLine (recv.take 32))) poisonMarker == recv.drop 32

/-- What a controller makes of a line that its channel gave (R297): delivered, delivered with n symbols corrected,
the poison marker, or more symbols in error than the code corrects. -/
inductive LineVerdict where
  | good
  | corrected (n : Nat)
  | poison
  | bad
deriving DecidableEq, Repr

/-- A line comes with `errors` in its symbols. A word whose decoding is not what was sent has more than two symbols
in error, so R297's last row applies to it though the decoder would take it for another line (log entry 79). -/
def lineVerdict (l : Line) (errors : List Nat) : LineVerdict :=
  if errors.all fun e => e % 65536 == 0 then
    match l with
    | .data _ => .good
    | .poison => .poison
  else
    let sent := lineSyms36 l
    let recv := xorSyms 36 sent errors
    if isMarker recv then .poison
    else match rsDecode rsLine recv with
      | some w => if w.word = sent then .corrected w.symbols else .bad
      | none => .bad

/-! ### The lane's line: R74, R76 -/

/-- The low `n` digits of a number in base 2^w, the highest first. -/
def digits (w n v : Nat) : List Nat := (List.range n).map fun i => v / 2 ^ (w * (n - 1 - i)) % 2 ^ w

def ofDigits (w : Nat) (l : List Nat) : Nat := l.foldl (fun v d => v * 2 ^ w + d) 0

/-- Gray mapping of two bits, the first sent the higher, to a PAM4 level, and back (IEEE 802.3; log entry 50). -/
def gray (b : Nat) : Nat := b ^^^ (b / 2)

/-- The data bits of a block as one number, the first sent highest: the header, then five cells (R76). -/
def blockBits (hdr : BitVec 40) (cells : List (List Byte)) : Nat :=
  ofDigits 8 ((digits 8 5 hdr.toNat) ++ ((List.range 5).map fun i =>
    (sliceB (nth [] cells i) 0 256).map (·.toNat)).flatten)

/-- The two code words of a block. -/
def blockWords (hdr : BitVec 40) (cells : List (List Byte)) : List (List Nat) :=
  let d := digits 10 1028 (blockBits hdr cells)
  [rsEncode rsLane (d.take 514), rsEncode rsLane (d.drop 514)]

/-- The PAM4 levels of a symbol of 10 bits, and the symbol of five levels. -/
def symLevels (c : Nat) : List Nat := (digits 2 5 c).map gray
def levelSym (l : List Nat) : Nat := ofDigits 2 (l.map fun v => gray (v % 4))

/-- A block on the line: 5,440 PAM4 levels (R74, R76). -/
def blockLevels (hdr : BitVec 40) (cells : List (List Byte)) : List Nat :=
  ((blockWords hdr cells).map fun w => (w.map symLevels).flatten).flatten

/-- The symbols of a code word on the line: 544, of five levels each. -/
def lineSyms : Nat → List Nat → List Nat
  | 0, _ => []
  | n + 1, l => levelSym (l.take 5) :: lineSyms n (l.drop 5)

/-- A received block: code words that did not decode, bits and symbols corrected, and header and cells where both
decoded (R78). -/
structure RxBlock where
  undecoded : Nat := 0
  bits : Nat := 0
  symbols : Nat := 0
  block : Option (BitVec 40 × List (List Byte)) := none

/-- Read a block off the line. -/
def readBlock (levels : List Nat) : RxBlock :=
  let a := rsDecode rsLane (lineSyms 544 levels)
  let b := rsDecode rsLane (lineSyms 544 (levels.drop 2720))
  let tally (o : Option RsWord) (f : RsWord → Nat) : Nat := (o.map f).getD 0
  { undecoded := b2n a.isNone + b2n b.isNone
    bits := tally a (·.bits) + tally b (·.bits)
    symbols := tally a (·.symbols) + tally b (·.symbols)
    block := match a, b with
      | some x, some y =>
        let v := ofDigits 10 (x.word.take 514 ++ y.word.take 514)
        let bytes := (digits 8 1285 v).map fun n => BitVec.ofNat 8 n
        some (BitVec.ofNat 40 (v / 2 ^ 10240), (List.range 5).map fun i => (bytes.drop (5 + 256 * i)).take 256)
      | _, _ => none }

/-! ### PRBS31Q: R86 -/

/-- The next bit of PRBS31 (x³¹ + x²⁸ + 1) and the register after it (log entry 50). -/
def prbsStep (v : Nat) : Nat := (v * 2) % 2 ^ 31 + ((v / 2 ^ 30) ^^^ (v / 2 ^ 27 % 2))

/-- The register after n bits, with the bits so far ahead of them. -/
def prbsBits : Nat → Nat → Nat → Nat × Nat
  | 0, v, acc => (v, acc)
  | n + 1, v, acc => prbsBits n (prbsStep v) (2 * acc + prbsStep v % 2)

/-- A data cell of test pattern and the register after it. -/
def prbsCell (v : Nat) : Nat × List Byte :=
  let r := prbsBits 2048 v 0
  (r.1, (digits 8 256 r.2).map fun n => BitVec.ofNat 8 n)

end Sys2Proof.Machine
end

