-- ==== Sys2Proof/Machine/Arith.lean ====
section
/-! DEFINITION. The arithmetic of the crucibles to the bit (chapter 06): formats, exact decoding, rounding,
microscaling blocks, sums, minima and maxima, combine and the update operations. -/
namespace Sys2Proof.Machine

/-! ### Arithmetic flags: R211 -/

def flNAN_IN : Nat := 1
def flINVALID : Nat := 2
def flOVERFLOW : Nat := 4
def flSATURATED : Nat := 8
def flINF_IN : Nat := 16
def flSKIPPED : Nat := 32
def flSTATE_RANGE : Nat := 64

/-! ### Formats: R185 -/

def isFlt (d : Nat) : Bool := decide (d ≤ 4)
def isMx (d : Nat) : Bool := decide (8 ≤ d) && decide (d ≤ 12)
def isIntF (d : Nat) : Bool := decide (16 ≤ d) && decide (d ≤ 18)
def fmtKnown (d : Nat) : Bool := isFlt d || isMx d || isIntF d

/-- Bits of an element of a format; of an MX format, without its share of the scale. -/
def fmtBits (d : Nat) : Nat :=
  match d with
  | 0 => 32 | 1 => 16 | 2 => 16 | 3 => 8 | 4 => 8 | 8 => 8 | 9 => 8 | 10 => 6 | 11 => 6 | 12 => 4
  | 16 => 32 | 17 => 16 | _ => 8

/-- Fraction bits of a floating-point format or MX element. -/
def fmtFrac (d : Nat) : Nat :=
  match d with
  | 0 => 23 | 1 => 7 | 2 => 10 | 3 => 3 | 4 => 2 | 8 => 3 | 9 => 2 | 10 => 2 | 11 => 3 | _ => 1

def fmtBias (d : Nat) : Nat :=
  match d with
  | 0 => 127 | 1 => 127 | 2 => 15 | 3 => 7 | 4 => 15 | 8 => 7 | 9 => 15 | 10 => 3 | 11 => 1 | _ => 1

/-- An encoding for infinity, with every exponent-all-ones fraction but 0 a NaN. -/
def fmtInf (d : Nat) : Bool := d == 0 || d == 1 || d == 2 || d == 4 || d == 9

/-- E4M3: S.1111.111 alone is NaN. -/
def fmtE4m3 (d : Nat) : Bool := d == 3 || d == 8

/-- The exponent of the largest finite value: emax of R185. -/
def fmtEmax (d : Nat) : Nat :=
  match d with
  | 3 => 8 | 8 => 8 | 10 => 4 | 11 => 2 | 12 => 2 | _ => fmtBias d

def fmtEmin (d : Nat) : Int := 1 - (fmtBias d : Int)

/-- The largest finite value is fmtMaxM × 2^(emax − fraction bits). -/
def fmtMaxM (d : Nat) : Nat := 2 ^ (fmtFrac d + 1) - (if fmtE4m3 d then 2 else 1)
def fmtMax (d : Nat) (neg : Bool) : FVal := .fin neg (fmtMaxM d) ((fmtEmax d : Int) - fmtFrac d)

/-- Bytes of an element outside the MX formats. -/
def elemSize (d : Nat) : Nat := fmtBits d / 8

/-- Bytes of n elements: MX data travel in whole groups of 256 elements (R188). -/
def payBytes (d n : Nat) : Nat := if isMx d then ceilDiv n 256 * (8 + 32 * fmtBits d) else n * elemSize d

/-- The canonical NaN of a format (R186). -/
def nanBits (d : Nat) : Nat :=
  if fmtE4m3 d then 0x7F else (2 ^ (fmtBits d - 1 - fmtFrac d) - 1) * 2 ^ fmtFrac d + 2 ^ (fmtFrac d - 1)

/-! ### Exact values: R186 -/

/-- The greatest k with 2^k ≤ m, for m > 0. -/
def flog2 (m : Nat) (e : Int) : Int := (Nat.log2 m : Int) + e

def fzero (neg : Bool) : FVal := .fin neg 0 0
def fone : FVal := .fin false 1 0

def isNan : FVal → Bool
  | .nan => true
  | _ => false

def isInfV : FVal → Bool
  | .inf _ => true
  | _ => false

def isZeroV : FVal → Bool
  | .fin _ m _ => m == 0
  | _ => false

def isNegV : FVal → Bool
  | .nan => false
  | .inf n => n
  | .fin n _ _ => n

/-- NAN_IN or INF_IN for a contribution, a weight or an operand of `add` (R197, R211). -/
def inFlags (v : FVal) : Nat := if isNan v then flNAN_IN else if isInfV v then flINF_IN else 0

/-- Decode the bits of a floating-point format or of an MX element without its scale (R186). -/
def decF (d raw : Nat) : FVal :=
  let fr := fmtFrac d
  let neg := raw.testBit (fmtBits d - 1)
  let ones := 2 ^ (fmtBits d - 1 - fr) - 1
  let ex := raw / 2 ^ fr % (ones + 1)
  let man := raw % 2 ^ fr
  if fmtInf d && ex == ones then (if man = 0 then .inf neg else .nan)
  else if fmtE4m3 d && ex == ones && man == 7 then .nan
  else if ex = 0 then (if man = 0 then fzero neg else .fin neg man (fmtEmin d - fr))
  else .fin neg (2 ^ fr + man) ((ex : Int) - fmtBias d - fr)

/-- Decode an element outside the MX formats; an integer is exact as well. -/
def decE (d raw : Nat) : FVal :=
  if isIntF d then
    let i := sx (fmtBits d) raw
    .fin (decide (i < 0)) i.natAbs 0
  else decF d raw

/-- The integer a decoded integer element stands for. -/
def intOf : FVal → Int
  | .fin neg m _ => if neg then -(m : Int) else m
  | _ => 0

/-- Multiply by a power of two, exactly. -/
def scaleV (v : FVal) (k : Int) : FVal :=
  match v with
  | .fin n m e => if m = 0 then v else .fin n m (e + k)
  | _ => v

/-- Decode the elements of a payload (R187 to R189); bytes beyond it read 0. -/
def decPayload (d : Nat) (b : List Byte) (n : Nat) : List FVal :=
  if isMx d then
    let w := fmtBits d
    let size := 8 + 32 * w
    (List.range (ceilDiv n 256)).flatMap fun g =>
      let scales := sliceB b (size * g) 8
      let bits := leAt b (size * g + 8) (32 * w)
      (List.range (min 256 (n - 256 * g))).map fun i =>
        let x := (nth 0 scales (i / 32)).toNat
        if x = 0xFF then .nan else scaleV (decF d (bits / 2 ^ (w * i) % 2 ^ w)) ((x : Int) - 127)
  else (List.range n).map fun i => decE d (leAt b (elemSize d * i) (elemSize d))

/-! ### Rounding: R200 -/

/-- Compare m × 2^a with n × 2^b. -/
def magLt (m : Nat) (a : Int) (n : Nat) (b : Int) : Bool :=
  if b ≤ a then decide (m * 2 ^ (a - b).toNat < n) else decide (m < n * 2 ^ (b - a).toNat)

/-- `overflow` of R200: infinity where the format has one, else the largest finite value. -/
def overflowV (d : Nat) (noInf neg : Bool) : FVal := if fmtInf d && !noInf then .inf neg else fmtMax d neg

/-- Units of u = 2^(q − p + 1) in m × 2^e after rounding: to nearest even, or stochastically by a word. -/
def roundUnits (m : Nat) (sh : Int) (sr : Option Nat) : Nat :=
  if sh ≤ 0 then m * 2 ^ (-sh).toNat
  else
    let n := sh.toNat
    let lo := m / 2 ^ n
    let r := m % 2 ^ n
    let up := match sr with
      | none => decide (2 ^ n < 2 * r) || (2 * r == 2 ^ n && lo % 2 == 1)
      | some w => decide (w < r * 2 ^ 32 / 2 ^ n)
    if up then lo + 1 else lo

/-- `round_to` of R200: the value rounded to a floating-point format and the flags of R211. `noInf` treats
the format as one without infinity (R190). -/
def roundTo (d : Nat) (noInf : Bool) (sr : Option Nat) (x : FVal) : FVal × Nat :=
  match x with
  | .nan => (.nan, 0)
  | .inf neg => (overflowV d noInf neg, if fmtInf d && !noInf then 0 else flSATURATED)
  | .fin neg m e =>
    if m = 0 then (fzero neg, 0)
    else
      let q := max (flog2 m e) (fmtEmin d)
      let ue := q - fmtFrac d
      let k := roundUnits m (ue - e) sr
      if magLt (fmtMaxM d) ((fmtEmax d : Int) - fmtFrac d) k ue then
        (overflowV d noInf neg, if fmtInf d && !noInf then flOVERFLOW else flOVERFLOW ||| flSATURATED)
      else if k = 0 then (fzero neg, 0)
      else (.fin neg k ue, 0)

/-- The bits of a value that the format represents. -/
def encF (d : Nat) (x : FVal) : Nat :=
  let fr := fmtFrac d
  let sign (neg : Bool) : Nat := if neg then 2 ^ (fmtBits d - 1) else 0
  match x with
  | .nan => nanBits d
  | .inf neg => sign neg + (2 ^ (fmtBits d - 1 - fr) - 1) * 2 ^ fr
  | .fin neg m e =>
    if m = 0 then sign neg
    else
      let l := flog2 m e
      let q := max l (fmtEmin d)
      let sh := e - (q - fr)
      let k := if 0 ≤ sh then m * 2 ^ sh.toNat else m / 2 ^ (-sh).toNat
      if l < fmtEmin d then sign neg + k
      else sign neg + (l + fmtBias d).toNat * 2 ^ fr + (k - 2 ^ fr)

/-! ### The generator of stochastic rounding: R201 -/

def philoxRound (c : Nat × Nat × Nat × Nat) (k0 k1 : Nat) : Nat × Nat × Nat × Nat :=
  let p := 0xD2511F53 * c.1
  let q := 0xCD9E8D57 * c.2.2.1
  ((q / 2 ^ 32) ^^^ c.2.1 ^^^ k0, q % 2 ^ 32, (p / 2 ^ 32) ^^^ c.2.2.2 ^^^ k1, p % 2 ^ 32)

def philoxLoop : Nat → Nat × Nat × Nat × Nat → Nat → Nat → Nat × Nat × Nat × Nat
  | 0, c, _, _ => c
  | n + 1, c, k0, k1 =>
    philoxLoop n (philoxRound c k0 k1) ((k0 + 0x9E3779B9) % 2 ^ 32) ((k1 + 0xBB67AE85) % 2 ^ 32)

def philox (c0 c1 c2 c3 k0 k1 : Nat) : Nat × Nat × Nat × Nat := philoxLoop 10 (c0, c1, c2, c3) k0 k1

/-- `sr_word(E, stage)` for the key of CTX_SEED and invocation n. -/
def srWord (seed : Word) (n e stage : Nat) : Nat :=
  let q := e / 4
  let r := philox (q % 2 ^ 32) (q / 2 ^ 32 % 2 ^ 32) (n % 2 ^ 32) stage (fld seed 31 0) (fld seed 63 32)
  if e % 4 = 0 then r.1 else if e % 4 = 1 then r.2.1 else if e % 4 = 2 then r.2.2.1 else r.2.2.2

/-! ### Conversion: R190, R194, R199 -/

/-- The greater magnitude of two finite values, as its floor_log2. -/
def maxLog (l : List FVal) : Option Int :=
  l.foldl (fun a v =>
    match v with
    | .fin _ m e =>
      if m = 0 then a
      else match a with
        | none => some (flog2 m e)
        | some k => some (max k (flog2 m e))
    | _ => a) none

/-- `mx_encode` of R190 on one block: scale byte, elements and flags. `sr` gives the word of an element. An element is
a value and whether it is the empty value, which sets no flag (R449). An infinite one sets INF_IN (R197). -/
def mxEncode (d : Nat) (sr : Nat → Option Nat) (e0 : Nat) (xs : List (FVal × Bool)) : Nat × List Nat × Nat :=
  if xs.any fun x => isNan x.1 || isInfV x.1 then
    (0xFF, xs.map fun _ => 0, if xs.any fun x => isInfV x.1 && !x.2 then flINVALID ||| flINF_IN else 0)
  else
    let k : Int := match maxLog (xs.map (·.1)) with
      | none => -127
      | some l => max (-127) (min 127 (l - fmtEmax d))
    let r := (List.range xs.length).map fun i =>
      let x := nth (.nan, false) xs i
      let y := roundTo d true (sr (e0 + i)) (scaleV x.1 (-k))
      (y.1, if x.2 then 0 else y.2)
    ((k + 127).toNat, r.map fun y => encF d y.1, r.foldl (fun a y => a ||| y.2) 0)

/-- One MX group of 8 blocks (R188). -/
def mxGroup (d : Nat) (sr : Nat → Option Nat) (e0 : Nat) (xs : List (FVal × Bool)) : List Byte × Nat :=
  let w := fmtBits d
  let bl := (List.range 8).map fun b =>
    mxEncode d sr (e0 + 32 * b) ((List.range 32).map fun i => nth (fzero false, false) xs (32 * b + i))
  let bits := (bl.flatMap fun b => b.2.1).foldr (fun v a => a * 2 ^ w + v) 0
  ((bl.map fun b => BitVec.ofNat 8 b.1) ++ leBytes (32 * w) bits, bl.foldl (fun a b => a ||| b.2.2) 0)

/-- Saturation to an integer format (R199). -/
def satInt (d : Nat) (i : Int) : Int × Nat :=
  let hi : Int := 2 ^ (fmtBits d - 1) - 1
  if hi < i then (hi, flSATURATED) else if i < -hi - 1 then (-hi - 1, flSATURATED) else (i, 0)

/-- `convert_out`: the bytes of the values in a format, rounded by `sr`, element e0 the first. An infinity converted to
a format without one sets INF_IN (R197); an empty value sets no flag (R449). -/
def convOut (d : Nat) (sr : Nat → Option Nat) (e0 : Nat) (vals : List (FVal × Bool)) : List Byte × Nat :=
  if isMx d then
    let g := (List.range (ceilDiv vals.length 256)).map fun g =>
      mxGroup d sr (e0 + 256 * g) ((vals.drop (256 * g)).take 256)
    (g.flatMap (·.1), g.foldl (fun a x => a ||| x.2) 0)
  else
    let r := (List.range vals.length).map fun i =>
      let v := nth (.nan, false) vals i
      let x : Nat × Nat :=
        if isIntF d then
          let x := satInt d (intOf v.1)
          (enc (fmtBits d) x.1, x.2)
        else
          let x := roundTo d false (sr (e0 + i)) v.1
          (encF d x.1, x.2 ||| (if isInfV v.1 && !fmtInf d then flINF_IN else 0))
      (x.1, if v.2 then 0 else x.2)
    (r.flatMap fun x => leBytes (elemSize d) x.1, r.foldl (fun a x => a ||| x.2) 0)

/-! ### The arithmetic words of a context: R191 to R193 -/

def aOp (k1 : Word) : Nat := fld k1 63 56
def aIn (k1 : Word) : Nat := fld k1 55 51
def aOut (k1 : Word) : Nat := fld k1 50 46
def aExact (k1 : Word) : Bool := bit k1 45
def aNative (k1 : Word) : Bool := bit k1 44
def aRound (k1 : Word) : Nat := fld k1 43 42
def cTopk (k2 : Word) : Nat := fld k2 63 60 + 1
def cTokens (k2 : Word) : Nat := fld k2 51 36 + 1
def cSeg (k2 : Word) : Nat := fld k2 35 24
def cRow (k2 : Word) : Nat := fld k2 19 0

def opSUM : Nat := 0
def opMIN : Nat := 1
def opMAX : Nat := 2
def opAND : Nat := 3
def opOR : Nat := 4
def opXOR : Nat := 5
def opCOMBINE : Nat := 8

/-- A SUM_ operation: SGDM, ADAM, ADAMW, LION. -/
def isUpdate (op : Nat) : Bool := decide (16 ≤ op) && decide (op ≤ 19)

/-- The pairs of operation and formats of R191. -/
def opFmtOk (op i o : Nat) : Bool :=
  if op = opSUM then if isIntF i then isIntF o else (isFlt i || isMx i) && (isFlt o || isMx o)
  else if op = opMIN ∨ op = opMAX then (isFlt i || isIntF i) && o == i
  else if op = opAND ∨ op = opOR ∨ op = opXOR then isIntF i && o == i
  else if op = opCOMBINE then isFlt i && decide (o ≤ 2)
  else if isUpdate op then isFlt i && (isFlt o || isMx o)
  else false

/-- The checks of R193 on CTX_ARITH and CTX_COMBINE. -/
def arithOk (k1 k2 : Word) : Bool :=
  let s := elemSize (aIn k1)
  opFmtOk (aOp k1) (aIn k1) (aOut k1) && decide (aRound k1 ≤ 1) && fld k1 41 0 == 0
    && (!aNative k1 || (!aExact k1 && (aIn k1 == 1 || aIn k1 == 2)))
    && (if aOp k1 = opCOMBINE then
          fld k2 59 52 == 0 && fld k2 23 20 == 0 && decide (1 ≤ cSeg k2) && decide (cSeg k2 ≤ 4080)
            && decide (16 + cSeg k2 * s ≤ 4096) && decide (1 ≤ cRow k2)
        else k2 == 0)

/-- The word for an element of the final conversion or of a CVT step: none rounds to nearest even. -/
def srOf (mode : Nat) (seed : Word) (n stage : Nat) : Nat → Option Nat :=
  fun e => if mode = 1 then some (srWord seed n e stage) else none

/-- Exact-mode accumulation: a plan follows MODE; dynamic floating-point sums always run exact (R195). -/
def exactMode (k1 : Word) (dyn : Bool) : Bool := dyn || aExact k1

/-- No contribution from a BL2 link: COMBINE, an update, exact mode under a plan, and dynamic floating-point
or MX sums (R108, R195). -/
def needsBl3 (k1 : Word) (dyn : Bool) : Bool :=
  aOp k1 == opCOMBINE || isUpdate (aOp k1)
    || (if dyn then aOp k1 == opSUM && !isIntF (aIn k1) else aExact k1)

/-! ### Accumulation: R194, R196 to R199, R449 -/

/-- The exact sum of two values with the special cases of R197. -/
def addX (a b : FVal) : FVal × Nat :=
  match a, b with
  | .nan, _ => (.nan, 0)
  | _, .nan => (.nan, 0)
  | .inf x, .inf y => if x = y then (.inf x, 0) else (.nan, flINVALID)
  | .inf x, _ => (.inf x, 0)
  | _, .inf y => (.inf y, 0)
  | .fin n1 m1 e1, .fin n2 m2 e2 =>
    let e := min e1 e2
    let i1 : Int := (m1 * 2 ^ (e1 - e).toNat : Nat)
    let i2 : Int := (m2 * 2 ^ (e2 - e).toNat : Nat)
    let t := (if n1 then -i1 else i1) + (if n2 then -i2 else i2)
    if t = 0 then (fzero (n1 && n2 && m1 == 0 && m2 == 0), 0) else (.fin (decide (t < 0)) t.natAbs e, 0)

/-- a < b in the order of R198, −0 below +0; neither is NaN. -/
def fltLt (a b : FVal) : Bool :=
  match a, b with
  | .inf x, .inf y => x && !y
  | .inf x, _ => x
  | _, .inf y => !y
  | .fin n1 m1 e1, .fin n2 m2 e2 =>
    if n1 != n2 then n1 else if n1 then magLt m2 e2 m1 e1 else magLt m1 e1 m2 e2
  | _, _ => false

/-- MIN and MAX of R198. -/
def minMax (isMin : Bool) (a b : FVal) : FVal :=
  if isNan a || isNan b then .nan
  else if isMin then (if fltLt b a then b else a) else (if fltLt a b then b else a)

/-- Bitwise folds of R199 on the bit patterns of a format. -/
def bitFold (op d : Nat) (a b : Int) : Int :=
  let w := fmtBits d
  let x := enc w a
  let y := enc w b
  sx w (if op = opAND then x &&& y else if op = opOR then x ||| y else x ^^^ y)

/-- The accumulator format of a slot-ordered sum (R194). -/
def accFmt (k1 : Word) : Nat := if aNative k1 then aIn k1 else 0

/-- exact_add of R196: the sum in units of 2^−149. -/
def superAdd (a : Super) (v : FVal) : Super :=
  match v with
  | .nan => { a with nan := true, neg0 := false }
  | .inf n => if n then { a with ninf := true, neg0 := false } else { a with pinf := true, neg0 := false }
  | .fin n m e =>
    let i : Int := (m * 2 ^ (e + 149).toNat : Nat)
    { a with sum := a.sum + (if n then -i else i), neg0 := a.neg0 && m == 0 && n }

def superOf : Acc → Super
  | .x a => a
  | .f v => superAdd {} v
  | _ => {}

/-- exact_result of R196. -/
def superResult (a : Super) : FVal × Nat :=
  if a.pinf && a.ninf then (.nan, flINVALID)
  else if a.nan then (.nan, 0)
  else if a.pinf then (.inf false, 0)
  else if a.ninf then (.inf true, 0)
  else if a.sum = 0 then (fzero a.neg0, 0)
  else (.fin (decide (a.sum < 0)) a.sum.natAbs (-149), 0)

/-- Add one contribution to an element's accumulator, with the flags it sets: NAN_IN and INF_IN for either operand of
a slot-ordered addition, as R197 lists them (log entry 73). -/
def accAdd (k1 : Word) (exact : Bool) (a : Acc) (v : FVal) : Acc × Nat :=
  let op := aOp k1
  if op = opMIN ∨ op = opMAX then
    (match a with
      | .f c => .f (minMax (op == opMIN) c v)
      | _ => .f v, inFlags v)
  else if op = opAND ∨ op = opOR ∨ op = opXOR then
    (match a with
      | .i n => .i (bitFold op (aIn k1) n (intOf v))
      | _ => .i (intOf v), 0)
  else if isIntF (aIn k1) then
    (match a with
      | .i n => .i (n + intOf v)
      | _ => .i (intOf v), 0)
  else if exact then (.x (superAdd (superOf a) v), inFlags v)
  else match a with
    | .f c =>
      let t := addX c v
      let r := roundTo (accFmt k1) false none t.1
      (.f r.1, inFlags c ||| inFlags v ||| t.2 ||| r.2)
    | _ =>
      let r := roundTo (accFmt k1) false none v
      (.f r.1, inFlags v ||| r.2)

/-- The empty value of R449. -/
def emptyVal (k1 : Word) : FVal :=
  let op := aOp k1
  let d := aIn k1
  let top : Int := 2 ^ (fmtBits d - 1) - 1
  let ofI (i : Int) : FVal := .fin (decide (i < 0)) i.natAbs 0
  if op = opMIN then if isIntF d then ofI top else overflowV d false false
  else if op = opMAX then if isIntF d then ofI (-top - 1) else overflowV d false true
  else if op = opAND then ofI (-1)
  else if isIntF d then fzero false
  else fzero true

/-- The value of an accumulator, with the flags of its final combination (R196, R449). -/
def accVal (k1 : Word) (a : Acc) : FVal × Nat :=
  match a with
  | .none => (emptyVal k1, 0)
  | .f v => (v, 0)
  | .i n => (.fin (decide (n < 0)) n.natAbs 0, 0)
  | .x s => superResult s

/-- Add the elements of a contribution to accumulators, from element `off` of the chunk on. -/
def accList (k1 : Word) (exact : Bool) (off : Nat) (accs : List Acc) (vals : List FVal) : List Acc × Nat :=
  let r := (List.range accs.length).map fun i =>
    if off ≤ i ∧ i < off + vals.length then accAdd k1 exact (nth .none accs i) (nth .nan vals (i - off))
    else (nth .none accs i, 0)
  (r.map (·.1), r.foldl (fun a x => a ||| x.2) 0)

def accVals (k1 : Word) (accs : List Acc) : List FVal × Nat :=
  let r := accs.map (accVal k1)
  (r.map (·.1), r.foldl (fun a x => a ||| x.2) 0)

/-! ### Products and combine: R203 to R205 -/

/-- An exact product with the special cases of R197 and R211. -/
def mulX (a b : FVal) : FVal × Nat :=
  let neg := isNegV a != isNegV b
  match a, b with
  | .nan, _ => (.nan, 0)
  | _, .nan => (.nan, 0)
  | .fin _ m1 e1, .fin _ m2 e2 => if m1 * m2 = 0 then (fzero neg, 0) else (.fin neg (m1 * m2) (e1 + e2), 0)
  | x, y => if isZeroV x || isZeroV y then (.nan, flINVALID) else (.inf neg, 0)

/-- The segments of a COLL_COMBINE payload (R203): none where one overruns it, or sets a reserved bit or a
padding byte. -/
def parseSegs (d member : Nat) : Nat → List Byte → Option (List Seg)
  | 0, b => if b.isEmpty then some [] else none
  | n + 1, b =>
    if b.isEmpty then some []
    else if b.length < 16 then none
    else
      let h0 := wordAt b 0
      let h1 := wordAt b 1
      let count := fld h1 47 32
      let size := count * elemSize d
      let whole := 16 + ceilDiv size 8 * 8
      if b.length < whole ∨ fld h1 63 48 ≠ 0 ∨ ((b.take whole).drop (16 + size)).any (fun x => x != 0) then none
      else
        (parseSegs d member n (b.drop whole)).map fun r =>
          { token := fld h0 31 0, col := fld h1 31 0, member := member, weight := fld h0 63 32,
            count := count, data := (b.drop 16).take size } :: r

/-- Segments of a token's row (R204). -/
def segsPerRow (k2 : Word) : Nat := ceilDiv (cRow k2) (cSeg k2)

/-- A segment contributes to column `col` of its token. -/
def segHits (t col : Nat) (g : Seg) : Bool := g.token == t && (g.count == 0 || g.col == col)

/-- What has come to one row segment. -/
def segHave (segs : List Seg) (t col : Nat) : List Seg := segs.filter (segHits t col)

/-- The columns a segment header bears on. -/
def segCols (k2 : Word) (g : Seg) : List Nat :=
  if g.count = 0 then (List.range (segsPerRow k2)).map fun i => i * cSeg k2 else [g.col]

/-- The checks of R205 on one segment, given those before it, for tokens [t0, t0 + n). -/
def segOk (k2 : Word) (t0 n : Nat) (have_ : List Seg) (g : Seg) : Bool :=
  decide (t0 ≤ g.token) && decide (g.token < t0 + n) && g.col % cSeg k2 == 0
    && (if g.count = 0 then g.col == 0
        else decide (g.col < cRow k2) && g.count == min (cSeg k2) (cRow k2 - g.col))
    && (segCols k2 g).all fun c =>
      let h := segHave have_ g.token c
      decide (h.length < cTopk k2) && !(h.any fun x => x.member == g.member)

/-- Take segments in order, or refuse them all. -/
def takeSegs (k2 : Word) (t0 n : Nat) : List Seg → List Seg → Option (List Seg)
  | have_, [] => some have_
  | have_, g :: r => if segOk k2 t0 n have_ g then takeSegs k2 t0 n (have_ ++ [g]) r else none

/-- Every segment of tokens [t0, t0 + n) has TOPK contributions (R204). -/
def segsFull (k2 : Word) (t0 n : Nat) (segs : List Seg) : Bool :=
  (List.range n).all fun i => (List.range (segsPerRow k2)).all fun j =>
    (segHave segs (t0 + i) (j * cSeg k2)).length == cTopk k2

/-- Insert a segment by its member slot index. -/
def insertSeg (g : Seg) : List Seg → List Seg
  | [] => [g]
  | h :: r => if g.member < h.member then g :: h :: r else h :: insertSeg g r

def sortSegs (l : List Seg) : List Seg := l.foldr insertSeg []

/-- One element of a row: the products of its segment in member slot order (R204). -/
def combineElem (k1 : Word) (exact : Bool) (j : Nat) (l : List Seg) : FVal × Nat :=
  let r := l.foldl (fun (a : Acc × Nat) g =>
    let w := decF 0 g.weight
    let x := decE (aIn k1) (leAt g.data (j * elemSize (aIn k1)) (elemSize (aIn k1)))
    let p := mulX w x
    let fl := a.2 ||| inFlags w ||| inFlags x ||| p.2
    if exact then
      let y := roundTo 0 false none p.1
      (Acc.x (superAdd (superOf a.1) y.1), fl ||| y.2)
    else match a.1 with
      | .f c =>
        let t := addX c p.1
        let y := roundTo 0 false none t.1
        (Acc.f y.1, fl ||| inFlags c ||| t.2 ||| y.2)
      | _ =>
        let y := roundTo 0 false none p.1
        (Acc.f y.1, fl ||| y.2)) (Acc.none, 0)
  let v := accVal k1 r.1
  (v.1, r.2 ||| v.2)

/-- Values none of which is the empty value of R449. -/
def noEmpty (l : List FVal) : List (FVal × Bool) := l.map fun v => (v, false)

/-- Every element of tokens [t0, t0 + n), row by row. -/
def combineVals (k1 k2 : Word) (exact : Bool) (t0 n : Nat) (segs : List Seg) : List FVal × Nat :=
  let r := (List.range n).flatMap fun i => (List.range (segsPerRow k2)).flatMap fun c =>
    let l := sortSegs ((segHave segs (t0 + i) (c * cSeg k2)).filter fun g => g.count != 0)
    (List.range (min (cSeg k2) (cRow k2 - c * cSeg k2))).map fun j => combineElem k1 exact j l
  (r.map (·.1), r.foldl (fun a x => a ||| x.2) 0)

/-! ### binary32 operations and the update: R206 to R209 -/

/-- A computation that gathers the flags of R211. -/
abbrev Fl (α : Type) := StateM Nat α

def noteF {α : Type} (r : α × Nat) : Fl α := fun f => (r.1, f ||| r.2)

def r32 (x : FVal) : Fl FVal := noteF (roundTo 0 false none x)

def f32Add (a b : FVal) : Fl FVal := do
  let t ← noteF (addX a b)
  r32 t

def negV : FVal → FVal
  | .nan => .nan
  | .inf n => .inf (!n)
  | .fin n m e => .fin (!n) m e

def f32Sub (a b : FVal) : Fl FVal := f32Add a (negV b)

def f32Mul (a b : FVal) : Fl FVal := do
  let t ← noteF (mulX a b)
  r32 t

/-- A quotient of positive numbers to 128 bits, its last bit set where it is inexact: rounding it once to
binary32 gives the correctly rounded quotient. -/
def divMag (m1 : Nat) (e1 : Int) (m2 : Nat) (e2 : Int) : Nat × Int :=
  let k := 128 + Nat.log2 m2
  let n := m1 * 2 ^ k
  (2 * (n / m2) + (if n % m2 = 0 then 0 else 1), e1 - e2 - k - 1)

def f32Div (a b : FVal) : Fl FVal :=
  let neg := isNegV a != isNegV b
  match a, b with
  | .nan, _ => pure .nan
  | _, .nan => pure .nan
  | .inf _, .inf _ => noteF (.nan, flINVALID)
  | .inf _, _ => pure (.inf neg)
  | _, .inf _ => pure (fzero neg)
  | .fin _ m1 e1, .fin _ m2 e2 =>
    if m2 = 0 then (if m1 = 0 then noteF (.nan, flINVALID) else pure (.inf neg))
    else if m1 = 0 then pure (fzero neg)
    else
      let q := divMag m1 e1 m2 e2
      r32 (.fin neg q.1 q.2)

/-- The integer square root, bit by bit from bit n − 1 down. -/
def isqrt : Nat → Nat → Nat → Nat
  | 0, _, r => r
  | n + 1, m, r => if (r + 2 ^ n) * (r + 2 ^ n) ≤ m then isqrt n m (r + 2 ^ n) else isqrt n m r

/-- A square root, its last bit set where it is inexact. -/
def sqrtMag (m : Nat) (e : Int) : Nat × Int :=
  let k := 128 + (e % 2).toNat
  let n := m * 2 ^ k
  let r := isqrt (Nat.log2 n / 2 + 1) n 0
  (2 * r + (if r * r = n then 0 else 1), (e - k) / 2 - 1)

def f32Sqrt (a : FVal) : Fl FVal :=
  match a with
  | .nan => pure .nan
  | .inf n => if n then noteF (.nan, flINVALID) else pure a
  | .fin n m e =>
    if m = 0 then pure a
    else if n then noteF (.nan, flINVALID)
    else
      let q := sqrtMag m e
      r32 (.fin false q.1 q.2)

/-- `sign` of R209. -/
def signV (a : FVal) : FVal :=
  match a with
  | .nan => .nan
  | .inf n => .fin n 1 0
  | .fin n m _ => if m = 0 then fzero n else .fin n 1 0

def f32Of (n : Nat) : FVal := decF 0 (n % 2 ^ 32)

/-- The update block advanced once for an invocation (R208). -/
def advanceBlock (u : List Word) : List Word :=
  let u0 := nth 0 u 0
  let u2 := nth 0 u 2
  let u4 := nth 0 u 4
  let mul (a b : Nat) : Nat := encF 0 (f32Mul (f32Of a) (f32Of b) 0).1
  let u := setNth u 0 (setFld u0 31 0 (fld u0 31 0 + 1))
  setNth u 4 (mkWord [at_ 32 (mul (fld u2 63 32) (fld u4 63 32)), mul (fld u2 31 0) (fld u4 31 0)])

/-- Planes of state an operation uses (R207). -/
def planesOf (op : Nat) : Nat := if op = 17 ∨ op = 18 then 3 else 2

/-- One element of R209: op, update block, the planes' bits and the reduction result; the answer is the new
planes and the returned weight. A g that is NaN or infinite is recorded by SKIPPED, or by NAN_IN or INF_IN. -/
def updateElem (op : Nat) (u : List Word) (w0 m0 v0 : Nat) (sum : FVal) : Fl (Nat × Nat × Nat × FVal) := do
  let u1 := nth 0 u 1
  let u2 := nth 0 u 2
  let u3 := nth 0 u 3
  let u4 := nth 0 u 4
  let lr := f32Of (fld u1 63 32)
  let b1 := f32Of (fld u2 63 32)
  let b2 := f32Of (fld u2 31 0)
  let eps := f32Of (fld u3 63 32)
  let wd := f32Of (fld u3 31 0)
  let bc1 := (f32Sub fone (f32Of (fld u4 63 32)) 0).1
  let bc2 := (f32Sub fone (f32Of (fld u4 31 0)) 0).1
  let omb1 := (f32Sub fone b1 0).1
  let omb2 := (f32Sub fone b2 0).1
  let w := f32Of w0
  let m := f32Of m0
  let v := f32Of v0
  let sum ← r32 sum
  let g ← f32Mul sum (f32Of (fld u1 31 0))
  if bit (nth 0 u 0) 32 && (isNan g || isInfV g) then
    noteF ((w0, m0, v0, w), flSKIPPED)
  else
  noteF ((), inFlags g)
  if op = 16 then
    let g ← f32Add g (← f32Mul wd w)
    let m ← f32Add (← f32Mul b1 m) g
    let w ← f32Sub w (← f32Mul lr m)
    pure (encF 0 w, encF 0 m, v0, w)
  else if op = 19 then
    let c ← f32Add (← f32Mul b1 m) (← f32Mul omb1 g)
    let w ← f32Sub w (← f32Mul lr (← f32Add (signV c) (← f32Mul wd w)))
    let m ← f32Add (← f32Mul b2 m) (← f32Mul omb2 g)
    pure (encF 0 w, encF 0 m, v0, w)
  else
    let g ← if op = 17 then f32Add g (← f32Mul wd w) else pure g
    let m ← f32Add (← f32Mul b1 m) (← f32Mul omb1 g)
    let v ← f32Add (← f32Mul b2 v) (← f32Mul omb2 (← f32Mul g g))
    let r ← f32Div (← f32Div m bc1) (← f32Add (← f32Sqrt (← f32Div v bc2)) eps)
    let r ← if op = 18 then f32Add r (← f32Mul wd w) else pure r
    let w ← f32Sub w (← f32Mul lr r)
    pure (encF 0 w, encF 0 m, encF 0 v, w)

end Sys2Proof.Machine
end

