-- ==== Sys2Proof/Machine/Regs.lean ====
section
/-! DEFINITION. The BAR0 register file (R10 to R15): where each writable register lies, its reset
value, its field masks by access code, and the ranges that a write must keep. -/
namespace Sys2Proof.Machine

/-- The writable fields of a register by access code (R13), as masks, and its reset value. -/
structure RegInfo where
  reset : Nat := 0
  rw : Nat := 0
  rws : Nat := 0
  rwk : Nat := 0
  w1c : Nat := 0
  w1s : Nat := 0
  /-- bits that the spine alone writes and that are kept here -/
  hw : Nat := 0
deriving DecidableEq, Repr

def mask (hi lo : Nat) : Nat := (2 ^ (hi + 1 - lo) - 1) * 2 ^ lo
def ones : Nat := 2 ^ 64 - 1

/-! ### Offsets -/

def oLOCK : Nat := 0x58
def oFABRIC_POS : Nat := 0x100
def oPWR_CFG : Nat := 0x100008
def oPWR_FAULT : Nat := 0x100028
def oCDC_LOG : Nat := 0x101100
def oTIME_CFG : Nat := 0x200008
def oPPS_CFG : Nat := 0x200030
def oPPS_TOD : Nat := 0x200038
def oDOM_CFG (k : Nat) : Nat := 0x200100 + 0x40 * k
def oTIME_ASYM (n : Nat) : Nat := 0x201000 + 8 * n
def oMBOX_CTRL : Nat := 0x400010
def oCMD (p : Nat) : Nat := 0x410000 + 0x20 * p
def oCQ (p : Nat) : Nat := 0x420000 + 0x20 * p
def oEQ (p : Nat) : Nat := 0x430000 + 0x20 * p
def oTDMA (p : Nat) : Nat := 0x431000 + 0x20 * p
def oPLOAD (p : Nat) : Nat := 0x432000 + 0x20 * p
def oMBOX_REQ : Nat := 0x450000
def oENGINE (n : Nat) : Nat := 0x800000 + 0x10000 * n
def oCHILL_ADDR (n : Nat) : Nat := oENGINE n + 0x4000
def oFADE_CFG : Nat := 0xA20000
def oCAL_CFG : Nat := 0xA20008
def oSELF_EID : Nat := 0xC00008
def oCM_CFG : Nat := 0xC00010
def oCREDIT_CFG : Nat := 0xC00018
def oLINK_CFG (n : Nat) : Nat := 0xC10000 + 0x20 * n
def oSW_CTRL : Nat := 0x1000000
def oAGE_CFG : Nat := 0x1000008
def oRISER_CFG : Nat := 0x1000010
def oDEEP_CFG : Nat := 0x1000018
def oGATE_CFG : Nat := 0x1000020
def oCLASS_WEIGHT : Nat := 0x1000028
def oSAT_CFG : Nat := 0x1000030
def oTAP_CFG (d : Nat) : Nat := 0x1001010 + 0x200000 * d
def oTBL_CFG : Nat := 0x1800000
def oTBL_SEED : Nat := 0x1800008
def oTBL_LOCK : Nat := 0x1800010
def oCRU_POOL : Nat := 0x2000000
def oPLAN_CFG : Nat := 0x2100000
def oPLAN_CU_FAULT (n : Nat) : Nat := 0x2120200 + 8 * n
def oCTX_CFG : Nat := 0x2800000
def oCTX_RING : Nat := 0x2800008
def oMISMATCH0 : Nat := 0x2800010
def oMISMATCH1 : Nat := 0x2800018
def oMEM_CFG : Nat := 0x3200000
def oMEM_ROT_CFG : Nat := 0x3200008
def oMEM_UE_LOG : Nat := 0x3200020
def oFENCE_CFG : Nat := 0x3800010
def oTHERM_CFG : Nat := 0x3800020
def oEVENT_MASK (w : Nat) : Nat := 0x3802000 + 8 * w
def oSMP_CFG (d : Nat) : Nat := 0x3FF0100 + 0x20 * d
def oSMP_FILTER (d : Nat) : Nat := 0x3FF0108 + 0x20 * d

/-- Registers of the GLOBAL, POWER, CLOCK and TIME blocks (R19, R424, R448, R329, R447). -/
def regInfoLow (off : Nat) : RegInfo :=
  if off = oLOCK then { w1s := 1 }
  else if off = oFABRIC_POS then { reset := 0xE00000, rwk := mask 23 21 + mask 16 16 + mask 13 8 + mask 2 0 }
  else if off = oPWR_CFG then { reset := at_ 52 0xCE4 + 0xF, rw := mask 63 52 + mask 3 0 }
  else if off = oPWR_FAULT then { rws := mask 63 40 }
  else if off = oCDC_LOG then { w1c := mask 63 63, hw := mask 63 63 + mask 60 56 + mask 52 48 + mask 31 0 }
  else if off = oTIME_CFG then { reset := at_ 32 0x3E8 + 0xFA, rw := mask 51 32 + mask 13 0 }
  else if off = oPPS_CFG then { reset := at_ 32 0x64, rw := mask 41 32 + mask 15 0 }
  else if off = oPPS_TOD then { rw := mask 63 63 + mask 47 0 }
  else if off = oDOM_CFG 0 ∨ off = oDOM_CFG 1 then { reset := 0x808009, rw := mask 23 8 + mask 5 0 }
  else if 0x201000 ≤ off ∧ off < 0x201000 + 8 * 2050 ∧ off % 8 = 0 then { rw := mask 15 0 }
  else {}

/-- RING_BASE, RING_CFG and RING_ASSIGN of ring p at its group's base (R366). -/
def regInfoRing (kind p o : Nat) : RegInfo :=
  if o = 0 then { rw := mask 63 12 }
  else if o = 8 then
    match kind with
    | 0 => { reset := at_ 56 p + at_ 18 (p % 4) + 4, rw := mask 63 56 + mask 19 18 + mask 8 8 + mask 4 0 }
    | 1 => { reset := at_ 30 1 + 4, rw := mask 46 20 + mask 8 8 + mask 4 0 }
    | 2 => { reset := at_ 30 1 + 4, rw := mask 55 20 + mask 8 8 + mask 4 0 }
    | _ => { reset := 4, rw := mask 63 56 + mask 8 8 + mask 4 0 }
  else if o = 0x18 ∧ kind = 0 then { rw := mask 15 15 + mask 13 8 + mask 1 0 }
  else {}

/-- Registers of the HOSTIF block (R366). -/
def regInfoHif (off : Nat) : RegInfo :=
  if off = oMBOX_CTRL then { rw := mask 10 0 }
  else if 0x410000 ≤ off ∧ off < 0x412000 then regInfoRing 0 ((off - 0x410000) / 0x20) (off % 0x20)
  else if 0x420000 ≤ off ∧ off < 0x422000 then regInfoRing 1 ((off - 0x420000) / 0x20) (off % 0x20)
  else if 0x430000 ≤ off ∧ off < 0x430200 then regInfoRing 2 ((off - 0x430000) / 0x20) (off % 0x20)
  else if 0x431000 ≤ off ∧ off < 0x431800 then regInfoRing 3 ((off - 0x431000) / 0x20) (off % 0x20)
  else if 0x432000 ≤ off ∧ off < 0x432080 then regInfoRing 4 ((off - 0x432000) / 0x20) (off % 0x20)
  else if 0x450000 ≤ off ∧ off < 0x450400 ∧ off % 8 = 0 then { rw := ones }
  else {}

/-- Registers of the OPTICS and LINK blocks (R73, R111). -/
def regInfoOpt (v : Variant) (bl2 : Bool) (off : Nat) : RegInfo :=
  if 0x800000 ≤ off ∧ off < 0x800000 + 34 * 0x10000 then
    let n := (off - 0x800000) / 0x10000
    if off % 0x10000 = 0 then
      if v = .b then { reset := 6, rw := mask 2 0 } else { reset := 0xE, rw := mask 3 0 }
    else if off % 0x10000 = 0x4000 ∧ n < 34 then { rw := mask 23 3 }
    else {}
  else if off = oFADE_CFG then { reset := 0x0A28140A, rw := mask 31 0 }
  else if off = oCAL_CFG then { reset := 0x4B0, rw := mask 31 0 }
  else if off = oSELF_EID then { rw := mask 24 0 }
  else if off = oCM_CFG then { reset := 0x300000100, rw := mask 33 32 + mask 15 0 }
  else if off = oCREDIT_CFG then { reset := 0x1818181818180101, rw := ones }
  else if 0xC10000 ≤ off ∧ off < 0xC10000 + 0x20 * 2050 ∧ off % 0x20 = 0 then
    if bl2 then { reset := 3, rw := 1 } else { reset := 1, rw := 3 }
  else {}

/-- Registers of the SWITCH block (R149, R150) at their page-0 offset, or a die's own page. -/
def regInfoSwitch (v : Variant) (off : Nat) : RegInfo :=
  if off = oSW_CTRL then
    if v = .m then { reset := 0xB, rw := 0xB } else { reset := 0xF, rw := 0xF }
  else if off = oAGE_CFG then { reset := 0x7D0, rw := mask 16 0 }
  else if off = oRISER_CFG then
    { reset := at_ 40 3 + at_ 32 0x10 + at_ 16 0x40 + at_ 8 0x40, rw := mask 42 32 + mask 23 8 }
  else if off = oDEEP_CFG then
    if v = .m then { reset := at_ 16 0x10, rw := mask 23 16 }
    else { reset := at_ 16 0x10 + 0x40, rw := mask 23 16, rws := mask 8 0 }
  else if off = oGATE_CFG then { reset := at_ 48 0x1000 + at_ 32 0x10 + 0x200, rw := mask 63 48 + mask 36 32 + mask 9 0 }
  else if off = oCLASS_WEIGHT then
    { reset := at_ 56 0x20 + at_ 40 0x40 + at_ 32 0x40 + at_ 24 0x20 + at_ 16 0x10,
      rw := mask 63 56 + mask 47 16 }
  else if off = oSAT_CFG then { reset := 0x64, rw := mask 13 0 }
  else if off = oTAP_CFG 0 ∨ off = oTAP_CFG 1 ∨ off = oTAP_CFG 2 ∨ off = oTAP_CFG 3 then
    { reset := at_ 48 0xFE + 0xFFFF, rw := mask 63 61 + mask 55 49 + mask 23 0 }
  else {}

/-- Registers of the TABLES, CRUCIBLE and PLAN, CONTEXTS and MEMORY blocks (R182, R218, R251, R281,
R310). Registers of an absent unit read 0 and ignore writes (R8). -/
def regInfoHigh (v : Variant) (off : Nat) : RegInfo :=
  if off = oTBL_CFG then
    { reset := at_ 52 0x3C + at_ 40 8 + at_ 16 0x80 + 1, rw := mask 63 52 + mask 45 40 + mask 25 16 + 1 }
  else if off = oTBL_SEED then { rwk := mask 31 0 }
  else if off = oTBL_LOCK then { w1s := 1 }
  else if off = oCRU_POOL then if v = .c then {} else { reset := 0x40, rw := mask 9 0 }
  else if off = oPLAN_CFG then
    { reset := at_ 48 0xA + at_ 32 0xA + at_ 16 0x64 + 0x22D,
      rw := mask 63 48 + mask 41 32 + mask 25 16 + mask 9 0 }
  else if 0x2120200 ≤ off ∧ off < 0x2120400 ∧ off % 8 = 0 then { w1c := mask 63 63, hw := mask 63 16 }
  else if off = oCTX_CFG then
    { reset := at_ 47 0x3E8 + at_ 16 0x64 + at_ 8 0x10 + 0xC,
      rw := mask 63 47 + mask 31 16 + mask 13 8 + mask 5 0 }
  else if off = oCTX_RING then { rw := mask 49 0 }
  else if off = oMISMATCH0 then { w1c := mask 63 63, hw := mask 63 51 + mask 23 0 }
  else if off = oMISMATCH1 then { hw := ones }
  else if off = oMEM_CFG then
    if v = .m then {} else { reset := at_ 44 0x15180 + at_ 32 4 + 1, rw := mask 63 44 + mask 39 32 + 1 }
  else if off = oMEM_ROT_CFG then
    if v = .m then {}
    else { reset := at_ 44 0x15180 + at_ 32 4 + at_ 8 0xF + 1, rw := mask 63 44 + mask 36 32 + mask 13 8 + 1 }
  else if off = oMEM_UE_LOG then if v = .m then {} else { w1c := mask 63 63, hw := mask 63 29 }
  else {}

/-- Registers of the HEALTH and EVENTS block and the sampling registers (R384, R400). -/
def regInfoHealth (off : Nat) : RegInfo :=
  if off = oFENCE_CFG then
    { reset := at_ 56 4 + at_ 44 0xA + at_ 36 4 + at_ 24 0x3C + 1, rw := mask 63 12 + 1 }
  else if off = oTHERM_CFG then { reset := at_ 56 0x5F + at_ 48 0x58, rw := mask 63 48 }
  else if 0x3802000 ≤ off ∧ off < 0x3802200 ∧ off % 8 = 0 then { rw := ones }
  else if off = oSMP_CFG 0 ∨ off = oSMP_CFG 1 ∨ off = oSMP_CFG 2 ∨ off = oSMP_CFG 3 then
    { reset := at_ 48 0xFE + at_ 24 0xFFFF + 0xFFFF, rw := mask 63 62 + mask 55 49 + mask 47 0 }
  else if off = oSMP_FILTER 0 ∨ off = oSMP_FILTER 1 ∨ off = oSMP_FILTER 2 ∨ off = oSMP_FILTER 3 then
    { rw := mask 63 63 + mask 11 0 }
  else {}

/-- The register at a BAR0 offset; an offset of no register has no field (R11). -/
def regInfo (v : Variant) (bl2 : Bool) (off : Nat) : RegInfo :=
  if off < 0x400000 then regInfoLow off
  else if off < 0x800000 then regInfoHif off
  else if off < 0x1000000 then regInfoOpt v bl2 off
  else if off < 0x1800000 then regInfoSwitch v off
  else if off < 0x3800000 then regInfoHigh v off
  else regInfoHealth off

def regReset (v : Variant) (bl2 : Bool) (off : Nat) : Word := BitVec.ofNat 64 (regInfo v bl2 off).reset

/-- The stored value of a register. -/
def getR (s : State) (off : Nat) : Word := tget (regReset s.variant s.boot.strapBl2 off) s.regs off

/-- Bits of a register that can hold anything but their reset value (R12). -/
def regBits (i : RegInfo) : Nat := i.rw ||| i.rws ||| i.rwk ||| i.w1c ||| i.w1s ||| i.hw

/-- A value with every reserved bit at its reset value (R12). -/
def regClip (i : RegInfo) (v : Nat) : Nat := (i.reset &&& (ones ^^^ regBits i)) ||| (v &&& regBits i)

/-- Store a register's value; reserved bits stay as they read (R12). -/
def putR (s : State) (off : Nat) (v : Word) : State :=
  let i := regInfo s.variant s.boot.strapBl2 off
  let v := BitVec.ofNat 64 (regClip i v.toNat)
  { s with regs := tset (regReset s.variant s.boot.strapBl2 off) s.regs off v }

/-- A field of a stored register. -/
def rf (s : State) (off hi lo : Nat) : Nat := fld (getR s off) hi lo

def setRf (s : State) (off hi lo v : Nat) : State := putR s off (setFld (getR s off) hi lo v)

/-- The block LOCK bit that guards the RWK fields at an offset (R15). -/
def lockedAt (s : State) (off : Nat) : Bool :=
  if off < 0x100000 then bit (getR s oLOCK) 0 else bit (getR s oTBL_LOCK) 0

/-- What a write of v leaves in a register by its access codes (R13 to R15). -/
def applyWrite (i : RegInfo) (locked : Bool) (old v : Nat) : Nat :=
  let m := i.rw ||| i.rws ||| (if locked then 0 else i.rwk)
  let x := (old &&& (ones ^^^ m)) ||| (v &&& m)
  let x := x &&& (ones ^^^ (v &&& i.w1c))
  x ||| (v &&& i.w1s)

/-- A field lies within [a, b]. -/
def inR (w : Word) (hi lo a b : Nat) : Bool := decide (a ≤ fld w hi lo) && decide (fld w hi lo ≤ b)

/-- The ranges a written value must keep, else the write is ignored as a whole (R58, R73, R98, R101,
R103, R150, R182, R218, R251, R281, R310, R329, R384, R400, R424). Checks that rest on other state are
made by the family that owns the register. -/
def rangeOk (off : Nat) (w : Word) : Bool :=
  if off = oPWR_CFG then inR w 63 52 900 3450
  else if off = oTIME_CFG then inR w 51 32 0 1000000 && inR w 13 0 50 10000
  else if off = oPPS_CFG then inR w 39 32 1 250
  else if off = oDOM_CFG 0 ∨ off = oDOM_CFG 1 then inR w 2 1 0 1
  else if off = oFADE_CFG then
    inR w 7 0 5 30 && inR w 15 8 10 40 && inR w 23 16 20 80 && inR w 31 24 1 100
      && decide (fld w 7 0 < fld w 15 8) && decide (fld w 15 8 < fld w 23 16)
  else if off = oCAL_CFG then inR w 31 0 60 86400
  else if off = oSELF_EID then !(bit w 24 && (fld w 23 0 == 0 || fld w 23 0 == 0xFFFFFF))
  else if off = oCM_CFG then inR w 15 0 16 16384
  else if off = oCREDIT_CFG then
    (List.range 8).all (fun t => inR w (8 * t + 7) (8 * t) 1 64)
      && decide (((List.range 8).map fun t => fld w (8 * t + 7) (8 * t)).foldl (· + ·) 0 ≤ 378)
  else if off = oAGE_CFG then inR w 16 0 10 100000
  else if off = oRISER_CFG then inR w 39 32 1 255 && inR w 23 16 1 255 && inR w 15 8 1 255
  else if off = oDEEP_CFG then inR w 23 16 1 64 && inR w 8 0 0 256
  else if off = oGATE_CFG then inR w 63 48 256 65535 && inR w 36 32 4 20 && inR w 9 0 0 640
  else if off = oCLASS_WEIGHT then
    inR w 63 56 1 255 && inR w 47 40 1 255 && inR w 39 32 1 255 && inR w 31 24 1 255 && inR w 23 16 1 255
  else if off = oSAT_CFG then inR w 13 0 10 10000
  else if off = oTBL_CFG then inR w 63 52 1 3600 && inR w 25 16 16 512
  else if off = oCRU_POOL then inR w 9 0 0 512
  else if off = oPLAN_CFG then
    inR w 63 48 1 65535 && inR w 41 32 1 1000 && inR w 25 16 60 1000 && inR w 9 0 0 655
  else if off = oCTX_CFG then
    inR w 63 47 10 100000 && inR w 31 16 1 65535 && inR w 13 8 2 32
      && decide (1 ≤ fld w 5 0) && decide (fld w 5 0 ≤ fld w 13 8)
  else if off = oMEM_CFG then inR w 63 44 3600 604800 && inR w 39 32 1 255
  else if off = oMEM_ROT_CFG then inR w 63 44 600 604800 && inR w 36 32 1 20 && inR w 13 8 5 40
  else if off = oFENCE_CFG then
    inR w 63 56 0 64 && inR w 55 44 1 3600 && inR w 43 36 2 255 && inR w 35 24 1 3600 && inR w 23 12 0 3600
  else if off = oTHERM_CFG then inR w 63 56 70 99 && inR w 55 48 70 91
  else true

/-- A register write by its access codes; a write that breaks a range is ignored as a whole. -/
def writeReg (s : State) (off : Nat) (v : Word) : State :=
  let i := regInfo s.variant s.boot.strapBl2 off
  let new : Word := BitVec.ofNat 64 (applyWrite i (lockedAt s off) (getR s off).toNat v.toNat)
  if rangeOk off new then putR s off new else s

/-! ### Fields that many families read -/

def selfEid (s : State) : Option Nat :=
  let w := getR s oSELF_EID
  if bit w 24 then some (fld w 23 0) else none

/-- The bits that survive a warm reset (R13, RWS). -/
def keepSticky (s : State) (bl2 : Bool) : Tab Word :=
  s.regs.foldl (fun t e =>
    let i := regInfo s.variant s.boot.strapBl2 e.1
    let d := regReset s.variant bl2 e.1
    let v := (d.toNat &&& (ones ^^^ i.rws)) ||| (e.2.toNat &&& i.rws)
    tset d t e.1 (BitVec.ofNat 64 v)) []

end Sys2Proof.Machine
end

