-- ==== Sys2Proof/Machine/Flags.lean ====
section
/-! DEFINITION. Status and interrupt flags: counters (chapter 13), rings and their entries, MSI-X,
completions and events (chapter 11, R383). -/
namespace Sys2Proof.Machine

/-! ### Counters: R388 to R394 -/

def cntGet (s : State) (i : Nat) : Nat := tget 0 s.cnt.values i

/-- A counter advances by n, modulo 2^64 (R388). -/
def bumpN (s : State) (i n : Nat) : State :=
  { s with cnt := { s.cnt with values := tset 0 s.cnt.values i ((cntGet s i + n) % 2 ^ 64) } }

def bump (s : State) (i : Nat) : State := bumpN s i 1

/-- Counter indices of R390. -/
def cLink (l k : Nat) : Nat := 0x1000 + 32 * l + k
def cLane (q k : Nat) : Nat := 0x12000 + 8 * q + k
def cCtx (c k : Nat) : Nat := 0x20000 + 16 * c + k
def cSeq (n k : Nat) : Nat := 0x30000 + 16 * n + k
def cChan (st h k : Nat) : Nat := 0x31000 + 8 * (33 * st + h) + k
def cRing (r k : Nat) : Nat := 0x34000 + 4 * r + k
def cDie (d k : Nat) : Nat := 0x38000 + 32 * d + k
def cMod (k : Nat) : Nat := 0x39000 + k
def cNack (cause : Nat) : Nat := 0x3A000 + cause

/-! ### Rings: R334 to R341 -/

def kindNo : RingKind → Nat
  | .cmd => 0 | .cq => 1 | .eq => 2 | .tdma => 3 | .pload => 4

def ringCount : RingKind → Nat
  | .cmd => 256 | .cq => 256 | .eq => 16 | .tdma => 64 | .pload => 4

def ringKey (k : RingKind) (i : Nat) : Nat := 256 * kindNo k + i

def ringOff (k : RingKind) (i : Nat) : Nat :=
  match k with
  | .cmd => oCMD i | .cq => oCQ i | .eq => oEQ i | .tdma => oTDMA i | .pload => oPLOAD i

/-- The number r of a ring in the ring counters (R390). -/
def ringCnt (k : RingKind) (i : Nat) : Nat :=
  match k with
  | .cmd => i | .cq => 256 + i | .eq => 512 + i | .tdma => 528 + i | .pload => 592 + i

def ring (s : State) (k : RingKind) (i : Nat) : Ring := tget {} s.hif.rings (ringKey k i)

def setRing (s : State) (k : RingKind) (i : Nat) (r : Ring) : State :=
  { s with hif := { s.hif with rings := tset {} s.hif.rings (ringKey k i) r } }

def modRing (s : State) (k : RingKind) (i : Nat) (f : Ring → Ring) : State := setRing s k i (f (ring s k i))

/-- Firmware runs (R361). -/
def fwRuns (s : State) : Bool := s.boot.fwState == .running || s.boot.fwState == .recovery

/-- The self-hosted driver runs the module (R357, R358). -/
def selfHosted (s : State) : Bool := s.boot.strapSelfHost && !s.boot.selfHostFallback

/-- Who stands for the PF: the PF, or the self-hosted driver (R344, R357). -/
def mgr (s : State) : Func := if selfHosted s then .core else .pf

/-- The function that owns a ring (R334, R342). -/
def ringOwner (s : State) (k : RingKind) (i : Nat) : Func :=
  match k with
  | .tdma => if s.hif.vfs.contains i then .vf i else mgr s
  | .pload => mgr s
  | _ =>
    let w := getR s (oCMD i + 0x18)
    if bit w 15 then .vf (fld w 13 8) else mgr s

/-- RING_CFG as it takes effect: an event ring of VF n has SCOPE 2 and PART n (R354). -/
def ringCfg (s : State) (k : RingKind) (i : Nat) : Word :=
  let w := getR s (ringOff k i + 8)
  match k, ringOwner s k i with
  | .eq, .vf n => setFld (setFld w 55 54 2) 53 47 n
  | _, _ => w

def ringSize (s : State) (k : RingKind) (i : Nat) : Nat := 2 ^ fld (ringCfg s k i) 4 0

def ringBase (s : State) (k : RingKind) (i : Nat) : Nat := (getR s (ringOff k i)).toNat

/-- The entries a ring holds (R335). -/
def ringHeld (r : Ring) : Nat := (r.tail + 2 ^ 24 - r.head) % 2 ^ 24

/-- A completion or event ring that writes entries: enabled (R341). -/
def ringOn (s : State) (k : RingKind) (i : Nat) : Bool := (ring s k i).state == 1

/-- A driver-written ring is enabled, draining, faulted or stalled: not DISABLED. -/
def ringLive (s : State) (k : RingKind) (i : Nat) : Bool := (ring s k i).state != 0

/-! ### MSI-X: R331, R340 -/

/-- The first entry of a function's MSI-X table. -/
def msixBase : Func → Nat
  | .vf n => 256 + 4 * n
  | _ => 0

/-- A word of the MSI-X tables: the even word the address, the odd word data and vector control,
whose mask bit is 1 at reset (log entry 7). -/
def msixWord (s : State) (k : Nat) : Word :=
  tget (if k % 2 = 1 then BitVec.ofNat 64 (2 ^ 32) else 0) s.hif.msix k

def setMsixWord (s : State) (k : Nat) (v : Word) : State :=
  let t := tset (if k % 2 = 1 then BitVec.ofNat 64 (2 ^ 32) else 0) s.hif.msix k v
  { s with hif := { s.hif with msix := t } }

def setPba (s : State) (k : Nat) (b : Bool) : State :=
  let w := (tget (0 : Word) s.hif.pba (k / 64))
  let v := if b then w ||| BitVec.ofNat 64 (2 ^ (k % 64)) else w &&& ~~~(BitVec.ofNat 64 (2 ^ (k % 64)))
  { s with hif := { s.hif with pba := tset 0 s.hif.pba (k / 64) v } }

/-- Raise an MSI-X vector: a masked one becomes pending (R331, log entry 7). -/
def raiseMsix (s : State) (f : Func) (v : Nat) : State :=
  let k := msixBase f + v
  if bit (msixWord s (2 * k + 1)) 32 then setPba s k true else emit s (.msix f v)

/-! ### Entries written by the spine: R339, R340 -/

/-- The interrupt condition of R340. -/
def irqDue (s : State) (k : RingKind) (i : Nat) : Bool :=
  let r := ring s k i
  let c := ringCfg s k i
  match r.newAt with
  | [] => false
  | t :: _ => r.armed && (decide (fld c 37 30 ≤ r.newAt.length) || due s t (fld c 29 20 * usT))

/-- Raise the ring's vector once after its arm, when R340 says so. -/
def irqCheck (s : State) (k : RingKind) (i : Nat) : State :=
  if irqDue s k i then
    let s := modRing s k i fun r => { r with armed := false }
    let s := bump s (cRing (ringCnt k i) 2)
    raiseMsix s (ringOwner s k i) (fld (ringCfg s k i) 46 38)
  else s

def ringFull (s : State) (k : RingKind) (i : Nat) : Bool :=
  decide (ringSize s k i ≤ ringHeld (ring s k i))

/-- PHASE of the entry at index t: 1 on the first pass, alternating at each wrap (R339). -/
def phaseBit (s : State) (k : RingKind) (i t : Nat) : Nat := (t / ringSize s k i + 1) % 2

/-- Write one 32 B entry into a completion or event ring that is enabled and not full (R339). -/
def writeEntry (s : State) (k : RingKind) (i : Nat) (w0 w1 w2 : Word) (w3 : Nat) : State :=
  let r := ring s k i
  let data := bytesOfWords [w0, w1, w2, BitVec.ofNat 64 (at_ 63 (phaseBit s k i r.tail) + w3)]
  let s := emit s (.dma (ringOwner s k i) (ringBase s k i + 32 * (r.tail % ringSize s k i)) data)
  let s := setRing s k i { r with tail := (r.tail + 1) % 2 ^ 24, newAt := r.newAt ++ [s.now] }
  let s := bump s (cRing (ringCnt k i) 0)
  irqCheck s k i

/-! ### Events: R353, R354, R383, R391 -/

/-- The partition a link or lane belongs to, for R383. -/
def partLink (l : Nat) : Nat := if l < 2048 then l / 32 else 0x7F
def partLane (q : Nat) : Nat := if q < 4096 then q / 128 else 0x7F

/-- A channel word of R383. -/
def chw (engine idx lane : Nat) (d : Dir) : Nat :=
  at_ 24 engine + at_ 16 idx + at_ 3 lane + (match d with | .tx => 0 | .rx => 1)

/-- An event ring's SCOPE admits a partition (R354). -/
def scopeAdmits (c : Word) (part : Nat) : Bool :=
  match fld c 55 54 with
  | 0 => true
  | 1 => part == 0x7F
  | 2 => part == fld c 53 47
  | _ => false

/-- Write an event to one ring: dropped and counted in LOST when the ring is full (R339). -/
def eventToRing (s : State) (code part a0 a1 : Nat) (e : Nat) : State :=
  if !ringOn s .eq e || !scopeAdmits (ringCfg s .eq e) part then s
  else if ringFull s .eq e then modRing s .eq e fun r => { r with lost := min 15 (r.lost + 1) }
  else writeEntry s .eq e (mkWord [at_ 52 code, at_ 41 part, nt32 s]) (BitVec.ofNat 64 a0)
    (BitVec.ofNat 64 a1) (s.hif.eventSeq % 2 ^ 32)

/-- Raise an event: counted, numbered, and written to every ring that admits it unless masked. -/
def raiseEvent (s : State) (code part a0 a1 : Nat) : State :=
  let s := bump s code
  let s := { s with hif := { s.hif with eventSeq := (s.hif.eventSeq + 1) % 2 ^ 32 } }
  if bit (getR s (oEVENT_MASK (code / 64))) (code % 64) then s
  else forEach (List.range 16) s fun s e => eventToRing s code part a0 a1 e

/-- The condition of an event occurs but a once-per rule keeps it from being raised (R391). -/
def countEvent (s : State) (code : Nat) : State := bump s code

/-! ### Completions: R338, R339, R350 -/

/-- KIND of E0 (R350). -/
def complKind : RingKind → Nat
  | .tdma => 1 | .pload => 2 | _ => 0

/-- The completion ring of a producer ring. -/
def cqOf (s : State) (k : RingKind) (i : Nat) : Nat := fld (ringCfg s k i) 63 56

/-- Write one completion entry: E0 without KIND and RING is tag and status. -/
def writeCompletion (s : State) (k : RingKind) (i : Nat) (c : Nat × Nat × Nat × Nat) : State :=
  writeEntry s .cq (cqOf s k i)
    (mkWord [at_ 32 (c.1 % 2 ^ 32), at_ 24 c.2.1, at_ 20 (complKind k), at_ 12 i])
    (BitVec.ofNat 64 c.2.2.1) (mkWord [at_ 32 (c.2.2.2 % 2 ^ 32), nt32 s]) (ring s k i).head

/-- The state a producer ring reads once its completions are no longer held back (R341). -/
def unstalled (s : State) (k : RingKind) (i : Nat) : Nat :=
  if (ring s k i).fault ≠ 0 then 3 else if bit (getR s (ringOff k i + 8)) 8 then 1 else 2

/-- A descriptor has reached its effect: its completion is written, or held back by a full
completion ring, whose producer then reads STALLED (R339). A muted ring writes none, nor does a
descriptor started before its ring was muted (R342, R356): `tag` carries the ring's gen above bit 31. -/
def complete (s : State) (k : RingKind) (i tag status detail count : Nat) : State :=
  let r := ring s k i
  let s := setRing s k i { r with running := r.running.erase tag }
  if r.mute || tag / 2 ^ 32 != r.gen || !ringOn s .cq (cqOf s k i) then s
  else if !r.heldBack.isEmpty || ringFull s .cq (cqOf s k i) then
    let s := if r.heldBack.isEmpty then bump s (cRing (ringCnt k i) 1) else s
    modRing s k i fun r => { r with heldBack := r.heldBack ++ [(tag, status, detail, count)], state := 4 }
  else writeCompletion s k i (tag, status, detail, count)

/-- Write the completions a producer ring holds back while its completion ring has room. -/
def releaseHeld (k : RingKind) (i : Nat) : Nat → State → State
  | 0, s => s
  | n + 1, s =>
    match (ring s k i).heldBack with
    | [] => s
    | c :: rest =>
      if ringFull s .cq (cqOf s k i) then s
      else
        let s := writeCompletion s k i c
        let s := modRing s k i fun r => { r with heldBack := rest }
        let s := if rest.isEmpty then modRing s k i fun r => { r with state := unstalled s k i } else s
        releaseHeld k i n s

/-- Every producer ring: command, table-DMA and plan-load rings. -/
def producerRings : List (RingKind × Nat) :=
  (upTo 256).map (fun i => (.cmd, i)) ++ (List.range 64).map (fun i => (.tdma, i))
    ++ (List.range 4).map (fun i => (.pload, i))

/-- The kind and index of a ring's key. -/
def keyRing (k : Nat) : RingKind × Nat :=
  (match k / 256 with | 0 => .cmd | 1 => .cq | 2 => .eq | 3 => .tdma | _ => .pload, k % 256)

/-- A completion ring has gained room: its producers go on (R339). -/
def unstallProducers (s : State) (cq : Nat) : State :=
  forEach (s.hif.rings.map (·.1)) s fun s key =>
    let (k, i) := keyRing key
    match k with
    | .cq | .eq => s
    | _ => if cqOf s k i = cq then releaseHeld k i (ring s k i).heldBack.length s else s

/-! ### Statuses: R352 -/

def stOK : Nat := 0x00
def stUNIT_ABSENT : Nat := 0x01
def stBAD_OP : Nat := 0x02
def stBAD_RANGE : Nat := 0x03
def stWRONG_PARTITION : Nat := 0x04
def stWINDOW_CLOSED : Nat := 0x05
def stPARTITION_ACTIVE : Nat := 0x06
def stLOCK_HELD : Nat := 0x07
def stBAD_ENTRY : Nat := 0x08
def stTABLE_FULL : Nat := 0x09
def stNOT_FOUND : Nat := 0x0A
def stSHADOW_FULL : Nat := 0x0B
def stBAD_ARITH : Nat := 0x0C
def stCONTEXT_BUSY : Nat := 0x0D
def stBAD_RECORD : Nat := 0x0E
def stSTATS_FULL : Nat := 0x0F
def stNO_CONTEXT : Nat := 0x10
def stEXCLUDE_FULL : Nat := 0x11
def stNO_STATS : Nat := 0x12
def stPLAN_BUSY : Nat := 0x13
def stADMIT_REFUSED : Nat := 0x14
def stPARTITION_RECAST : Nat := 0x15
def stNO_PLAN : Nat := 0x16
def stTIME_PAST : Nat := 0x17
def stPERIOD_SHORT : Nat := 0x18
def stNO_TIME : Nat := 0x19
def stWRONG_RING : Nat := 0x1A
def stLATE_LAUNCH : Nat := 0x1B
def stLAUNCH_FULL : Nat := 0x1C
def stDISCARDED : Nat := 0x1D
def stBAD_FRAME : Nat := 0x1E
def stUNREACHABLE : Nat := 0x1F
def stNO_REGION : Nat := 0x20
def stMEM_RANGE : Nat := 0x21
def stREGION_CLAIMED : Nat := 0x22
def stMEM_POISONED : Nat := 0x23
def stDMA_ERROR : Nat := 0x24
def stNOT_PERMITTED : Nat := 0x25

end Sys2Proof.Machine
end

