-- ==== Sys2Proof/Machine/Resets.lean ====
section
/-! DEFINITION. The resets of R431, entry to STANDBY, the start of a start-up, and the wakes of R419. -/
namespace Sys2Proof.Machine

/-- EPOCH advances by one and wraps from 0xFFFF to 1 (R365). -/
def nextEpoch (e : Nat) : Nat := if e = 0xFFFF then 1 else e + 1

def advanceEpoch (s : State) : State := { s with hif := { s.hif with epoch := nextEpoch s.hif.epoch } }

/-- What a reset leaves of the channels: the page repairs alone (R298, R431). -/
def keptChannels (s : State) : Tab MemCh :=
  tmap {} s.mem.chans fun _ c => { rowsUsed := c.rowsUsed, repairRows := c.repairRows }

/-- Main and HIF logic return to their reset values (R431): RWS fields, the pins, the pattern store,
the measurements, the flash, PWR_ENERGY, RESET_CAUSE and EPOCH stay. -/
def clearMain (s : State) : State :=
  let b := s.boot
  { s with
    regs := keepSticky s b.strapBl2
    boot := { b with
      modState := 0, readyMs := 0, selfHostFallback := false, mainUp := false,
      fwState := .booting, fwCopy := 0, fwSvn := 0, fwVersion := 0, keySlot := 0,
      firmwareTried := 0, selfHostTried := 0, sramZero := false, memZero := false,
      memVerified := false, regInitDone := false, pllLost := [] }
    pwr := { s.pwr with
      capping := false, capBelowSince := none, enterAt := none, drainAt := none,
      parkPoint := none, wakePending := 0, wakeAt := none, darkAtEntry := [], ppsOut := false,
      ilim := false, reqResult := 0, target := 0 }
    opt := {}
    lnk := {}
    sw := { ltZero := s.now }
    tbl := {}
    cru := {}
    plan := {}
    coll := {}
    mem := { chans := keptChannels s }
    tim := {}
    hif := { epoch := s.hif.epoch }
    hlt := {
      fenceN := s.hlt.fenceN, wakeN := s.hlt.wakeN, perstN := s.hlt.perstN,
      wakeMasked := s.hlt.wakeMasked, wakeRearm := s.hlt.wakeRearm, wakeAt := s.hlt.wakeAt,
      fenceAssertAt := s.hlt.fenceAssertAt, tripSrc := s.hlt.tripSrc,
      tripLatch := s.hlt.tripLatch, tripUnit := s.hlt.tripUnit, alert := s.hlt.alert,
      therm := tmap {} s.hlt.therm fun _ t => { t with latched := false } }
    cnt := {} }

/-- Entry to STANDBY: the main and HIF rails are off and what they held is lost (R411, R414, R417). -/
def enterStandby (s : State) : State :=
  let s := clearMain s
  { s with pwr := { s.pwr with state := 3, rails := [], railUpTo := 0 } }

/-- A start begins at its zero moment (R441): with an image in the store the body is not read (R437). -/
def beginStart (s : State) : State :=
  let b := if s.boot.store.isSome then s.boot
    else { s.boot with patDefaulted := false, patCopy := 0, aRes := 15, bRes := 15 }
  { s with
    boot := { b with modState := 0, stage := if b.store.isSome then 1 else 0, zeroAt := some s.now } }

/-- A reset outside ACTIVE and STANDBY leads through the start to ACTIVE (log entry 41). -/
def restartPower (p : Pwr) : Pwr := if p.state = 0 ∨ p.state = 3 then p else { p with state := 5, wakeFrom := 3 }

/-- A warm reset with its cause (R431): EPOCH and WARM_COUNT advance, and a start begins. -/
def warmReset (s : State) (cause : Nat) : State :=
  let s := clearMain s
  let s := advanceEpoch s
  beginStart { s with
    boot := { s.boot with lastCause := cause, warmCount := min 0xFFFF (s.boot.warmCount + 1) }
    pwr := restartPower s.pwr }

/-- A cold reset (R431): the RWS fields, the measurements and the pattern store go too. -/
def coldReset (s : State) : State :=
  let s := clearMain s
  let s := advanceEpoch s
  let s := { s with
             regs := []
             boot := { s.boot with
               store := none, patDefaulted := false, patCopy := 0, aRes := 15, bRes := 15,
               journalEntries := 0, journalFull := false, journalErr := false,
               meas := [], lastCause := 1 }
             hlt := { fenceN := s.hlt.fenceN, wakeN := s.hlt.wakeN, perstN := s.hlt.perstN }
             pwr := { restartPower s.pwr with lastWake := 0 } }
  beginStart s

/-- The power-on reset of R431: fuses, the flash, the stack's own page repairs and what stands outside
the module stay, and so do the model's own fields. -/
def powerOnReset (s : State) : State :=
  let b := s.boot
  {
    pending := s.pending, now := s.now, freeCtr := s.freeCtr, out := s.out, variant := s.variant
    boot := {
    stepping := b.stepping, serial := b.serial, minSvn := b.minSvn, revoked := b.revoked,
    staged := b.staged, journalA := b.journalA, journalB := b.journalB }
    mem := { chans := keptChannels s }
    sw := { ltZero := s.now }
    pwr := { aonSince := s.now } }

/-! ### Wakes: R419 -/

/-- The trip that holds STANDBY lets a wake act: VIN stable for 1 s (R414), and after a thermal trip
every sensor at least 10 K below its trip threshold (R381). -/
def sensorsCool (s : State) : Bool :=
  s.hlt.therm.all fun e =>
    let lim : Int := if e.1 / 64 = 1 then (95 - 10) * 16 else (105 - 10) * 16
    (e.2.readings.zip e.2.excluded).all fun r => r.2 || decide (sx 16 r.1.toNat ≤ lim)

def wakeAllowed (s : State) : Bool :=
  s.pwr.pwrGood && s.pwr.vinOk && (!s.hlt.tripLatch || sensorsCool s)

/-- WAKE_EN admits a source (R419): 1 PCIE, 2 LIGHT, 3 TIMER, 4 WAKE_PIN, 5 I3C, 6 PWR_GOOD. The TIMER
wake is judged by its caller. -/
def wakeEnabled (s : State) (src : Nat) : Bool :=
  let en := rf s oPWR_CFG 3 0
  match src with
  | 1 => en.testBit 0
  | 2 => en.testBit 1
  | 4 => en.testBit 3
  | _ => true

/-- Leave STANDBY: a warm reset whose cause is what led into it, and WAKING until READY (R417, R431). -/
def leaveStandby (s : State) (src : Nat) : State :=
  let cause := if src = 6 ∧ s.pwr.exitCause = 3 then 6 else s.pwr.exitCause
  let s := warmReset s cause
  { s with pwr := { s.pwr with state := 5, wakeFrom := 3, wakeAt := some s.now, lastWake := src, exitCause := 3 } }

/-- The wake from RETAIN heats and lights the engines again; the lanes wait for light (R421). -/
def leaveRetain (s : State) (src : Nat) : State :=
  let on (n : Nat) : Bool := bit (getR s (oENGINE n)) 0
  let engines := (List.range 34).foldl (fun t n => if on n then
    tmod ({} : Engine) t n fun e => { e with state := 1, enAt := some s.now, faultAt := none } else t) s.opt.engines
  let lanes := tmap ({} : Lane) s.lnk.lanes fun q x =>
    if x.state = 8 ∧ bit (getR s (oLINK_CFG (linkOf q))) 0 then { x with state := 0 } else x
  { s with
    pwr := { s.pwr with state := 5, wakeFrom := 2, wakeAt := some s.now, lastWake := src }
    opt := { s.opt with engines := engines }
    lnk := { s.lnk with lanes := lanes } }

/-- A wake source acts (R417, R419, R422). -/
def wake (s : State) (src : Nat) : State :=
  if !wakeEnabled s src then s
  else match s.pwr.state with
  | 1 =>
    if src = 6 then s
    else { s with pwr := { s.pwr with state := 5, wakeFrom := 1, wakeAt := some s.now, lastWake := src } }
  | 2 =>
    if src = 3 ∨ src = 6 then s
    else leaveRetain s src
  | 3 =>
    if src = 2 ∨ src = 3 ∨ !wakeAllowed s then s else leaveStandby s src
  | 4 => if s.pwr.wakePending = 0 then { s with pwr := { s.pwr with wakePending := src } } else s
  | _ => s

end Sys2Proof.Machine
end

