-- ==== Sys2Proof/Machine/Operands.lean ====
section
/-! DEFINITION. The forms of what passes the module's boundary: checks, BL3 and BL2 frames, cells,
ordered sets, and the common fields of descriptors. -/
namespace Sys2Proof.Machine

/-! ### Checks -/

/-- The bits of a byte, most significant first. -/
def bitsOfByte (b : Byte) : List Bool := (List.range 8).map fun i => b.toNat.testBit (7 - i)

def bitsMsb (l : List Byte) : List Bool := (l.map bitsOfByte).flatten

/-- One step of a CRC of w bits that takes bits most significant first. -/
def crcStep (w poly c : Nat) (b : Bool) : Nat :=
  let top := c.testBit (w - 1)
  let c' := (c * 2) % 2 ^ w
  if top != b then c' ^^^ poly else c'

def crcMsb (w poly init : Nat) (l : List Bool) : Nat := l.foldl (crcStep w poly) init

/-- The CRC-16 of R93. -/
def crc16 (l : List Byte) : Nat := crcMsb 16 0x8BB7 0xFFFF (bitsMsb l)

/-- HCRC8 of R77 over bits [39:8] of a block header. -/
def hcrc8 (h : Nat) : Nat := crcMsb 8 0x07 0xFF ((List.range 32).map fun i => h.testBit (39 - i))

/-- One bit of a reflected CRC-32C. -/
def crc32cBit (c : Nat) : Nat := if c.testBit 0 then (c / 2) ^^^ 0x82F63B78 else c / 2

def crc32cByte (c : Nat) (b : Byte) : Nat :=
  crc32cBit (crc32cBit (crc32cBit (crc32cBit (crc32cBit (crc32cBit (crc32cBit (crc32cBit (c ^^^ b.toNat))))))))

/-- CRC-32C of R163: reflected, initial value and final XOR all ones. -/
def crc32c (l : List Byte) : Nat := (l.foldl crc32cByte 0xFFFFFFFF) ^^^ 0xFFFFFFFF

/-! ### Frame types: R96 -/

def tDATA : Nat := 0x01
def tEP_ACK : Nat := 0x02
def tNACK : Nat := 0x03
def tMGMT : Nat := 0x04
def tLINKCTL : Nat := 0x05
def tCONTRIB : Nat := 0x10
def tRESULT : Nat := 0x11
def tCOMBINE : Nat := 0x12
def tCMPL : Nat := 0x13
def tPUT : Nat := 0x20
def tGET : Nat := 0x21
def tRESP : Nat := 0x22
def tATOMIC : Nat := 0x23

/-- The classes that R96 lists for a type; an undefined type has none. -/
def classesOf (t : Nat) : List Nat :=
  if t = tDATA then [2, 3, 6]
  else if t = tEP_ACK then [2, 3, 4, 5, 6, 7]
  else if t = tNACK then [1, 2, 3, 4, 5, 6, 7]
  else if t = tMGMT then [1]
  else if t = tLINKCTL then [0]
  else if t = tCONTRIB ∨ t = tRESULT ∨ t = tCMPL then [4, 5, 6]
  else if t = tCOMBINE then [4, 6]
  else if t = tPUT ∨ t = tGET ∨ t = tRESP ∨ t = tATOMIC then [7]
  else []

def typeOk (t tc : Nat) : Bool := (classesOf t).contains tc

/-- The collective types (R96, R110). -/
def isColl (t : Nat) : Bool := t == tCONTRIB || t == tRESULT || t == tCOMBINE || t == tCMPL

/-! ### BL3 frames: R92, R93 -/

def bl3W0 (f : Frame) : Word :=
  mkWord [at_ 40 (f.dest % 2 ^ 24), at_ 16 (f.src % 2 ^ 24), at_ 8 (f.type % 256), at_ 5 (f.tc % 8),
    at_ 4 (b2n f.cm), at_ 3 (b2n f.ce), at_ 2 (b2n f.detour), at_ 1 (b2n f.poison), b2n f.mc]
def bl3W1 (f : Frame) : Word :=
  mkWord [at_ 48 (f.seq % 2 ^ 16), at_ 36 (f.ctx % 2 ^ 12), at_ 33 (f.ver % 8), at_ 20 (f.length % 2 ^ 13),
    at_ 4 (f.entropy % 2 ^ 16), f.rsv1 % 16]
def bl3W2 (f : Frame) : Word := mkWord [at_ 32 (f.chunk % 2 ^ 32), f.dhash % 2 ^ 32]
def bl3W3 (f : Frame) (crc : Nat) : Word :=
  mkWord [at_ 32 (f.aux % 2 ^ 32), at_ 16 (f.rsv3 % 2 ^ 16), crc % 2 ^ 16]

/-- HCRC of a BL3 header with bytes 24 and 25 taken as 0 (R93). -/
def bl3Crc (f : Frame) : Nat := crc16 (bytesOfWords [bl3W0 f, bl3W1 f, bl3W2 f, bl3W3 f 0])

def bl3Hdr (f : Frame) : List Word := [bl3W0 f, bl3W1 f, bl3W2 f, bl3W3 f (bl3Crc f)]

/-- Read a BL3 header. -/
def bl3Dec (w : List Word) (payload : List Byte) : Frame :=
  let w0 := nth 0 w 0; let w1 := nth 0 w 1; let w2 := nth 0 w 2; let w3 := nth 0 w 3
  { dest := fld w0 63 40, src := fld w0 39 16, type := fld w0 15 8, tc := fld w0 7 5, cm := bit w0 4,
    ce := bit w0 3, detour := bit w0 2, poison := bit w0 1, mc := bit w0 0, seq := fld w1 63 48,
    ctx := fld w1 47 36, ver := fld w1 35 33, length := fld w1 32 20, entropy := fld w1 19 4,
    rsv1 := fld w1 3 0, chunk := fld w2 63 32, dhash := fld w2 31 0, aux := fld w3 63 32,
    rsv3 := fld w3 31 16, payload := payload }

/-- HCRC of a BL3 header as received matches (R93). -/
def bl3CrcOk (w : List Word) : Bool :=
  let w3 := nth 0 w 3
  crc16 (bytesOfWords [nth 0 w 0, nth 0 w 1, nth 0 w 2, setFld w3 15 0 0]) == fld w3 15 0

/-! ### BL2 frames: R107 to R110 -/

def bl2W0 (f : Frame) : Word :=
  mkWord [at_ 44 (f.dest % 2 ^ 20), at_ 24 (f.src % 2 ^ 20), at_ 18 (f.type % 64), at_ 15 (f.tc % 8),
    at_ 14 (b2n f.cm), at_ 13 (b2n f.ce), at_ 12 (b2n f.detour), f.ctx % 2 ^ 12]
def bl2W1 (f : Frame) (crc : Nat) : Word :=
  mkWord [at_ 48 (f.seq % 2 ^ 16), at_ 32 (f.chunk % 2 ^ 16), at_ 19 (f.length % 2 ^ 13),
    at_ 17 (f.rsv2 % 4), at_ 16 (b2n f.mc), crc % 2 ^ 16]
def bl2Crc (f : Frame) : Nat := crc16 (bytesOfWords [bl2W0 f, bl2W1 f 0])
def bl2Hdr (f : Frame) : List Word := [bl2W0 f, bl2W1 f (bl2Crc f)]

def bl2CrcOk (w : List Word) : Bool :=
  let w1 := nth 0 w 1
  crc16 (bytesOfWords [nth 0 w 0, setFld w1 15 0 0]) == fld w1 15 0

/-- The CHUNK of a BL2 collective frame in its BL3 place (R110). -/
def chunkUp (c : Nat) : Nat := at_ 30 (c / 2 ^ 14) + c % 2 ^ 14

/-- Read a BL2 header into the BL3 form of R109. -/
def bl2Dec (w : List Word) (payload : List Byte) : Frame :=
  let w0 := nth 0 w 0; let w1 := nth 0 w 1
  let src := fld w0 43 24; let dest := fld w0 63 44; let ty := fld w0 23 18; let ch := fld w1 47 32
  { dest := dest, src := src, type := ty, tc := fld w0 17 15, cm := bit w0 14, ce := bit w0 13,
    detour := bit w0 12, mc := bit w1 16, seq := fld w1 63 48, ctx := fld w0 11 0, ver := 3,
    length := fld w1 31 19, entropy := (src % 2 ^ 16) ^^^ (dest % 2 ^ 16),
    chunk := if ty = tNACK then 0 else if isColl ty then chunkUp ch else ch,
    aux := if ty = tNACK then at_ 24 (ch / 256) + ch % 256 else 0, payload := payload, fromBl2 := true,
    rsv2 := fld w1 18 17 }

/-- CHUNK of a frame in its BL2 form, none where it does not fit (R108, R110): of all-ones chunks that of a coalesced
completion alone does (R275); what came in BL2 form leaves unchanged (R94). -/
def chunkDown (f : Frame) : Option Nat :=
  if f.type = tNACK then some (at_ 8 (f.aux / 2 ^ 24) + min 255 (f.aux % 2 ^ 16))
  else if isColl f.type then
    let c := f.chunk % 2 ^ 30
    let tag := at_ 14 (f.chunk / 2 ^ 30)
    if f.fromBl2 ∨ (f.type = tCMPL ∧ c = 2 ^ 30 - 1) then some (tag + c % 2 ^ 14)
    else if c ≥ 0x3FFF then none else some (tag + c)
  else if f.chunk ≤ 0xFFFF then some f.chunk else none

/-- The BL2 form of a frame, none where it does not fit (R108, R110). CE is 0 on frames the spine
originates (R108). -/
def toBl2 (f : Frame) (originated : Bool) : Option Frame :=
  if f.src > 0xFFFFF ∨ f.dest > 0xFFFFF ∨ f.type > 0x3F then none
  else match chunkDown f with
    | none => none
    | some c => some { f with
        chunk := c, dhash := 0, aux := 0, poison := false, entropy := 0, ver := 0, rsv1 := 0, rsv3 := 0,
        ce := if originated then false else f.ce }

/-- The 8 B prefix that carries AUX of a COLL_RESULT or COLL_CMPL toward BL2 (R110). -/
def auxPrefix (aux : Nat) : List Byte := leBytes 8 (aux % 2 ^ 32)

/-- The BL2 frames of a COLL_RESULT or COLL_CMPL that the spine originates (R110): its AUX in a
prefix, and a payload above 4,088 B in two frames with OFFSET increased by 15. -/
def resultBl2 (f g : Frame) : List Frame :=
  if f.type = tRESULT ∧ f.payload.length > 4088 then
    let a := f.payload.take 3840
    let b := f.payload.drop 3840
    let aux2 := f.aux + at_ 16 15
    [{ g with payload := auxPrefix f.aux ++ a, length := a.length + 8 },
     { g with payload := auxPrefix aux2 ++ b, length := b.length + 8 }]
  else [{ g with payload := auxPrefix f.aux ++ f.payload, length := f.payload.length + 8 }]

/-! ### Cells: R79 -/

def hdrBytes (bl2 : Bool) : Nat := if bl2 then 16 else 32

/-- Data cells of a frame on a link of the given protocol. -/
def cellsOf (bl2 : Bool) (len : Nat) : Nat := ceilDiv (hdrBytes bl2 + len) 256

/-- The data cells a frame counts in Q and in the buffers: its BL3 form (R103). -/
def frameCells (f : Frame) : Nat := cellsOf false f.length

def frameBytes (bl2 : Bool) (f : Frame) : List Byte :=
  bytesOfWords (if bl2 then bl2Hdr f else bl3Hdr f) ++ sliceB f.payload 0 f.length

/-- The 256 B cells of a frame, the unused bytes of the last as 0 (R79). -/
def frameCellBytes (bl2 : Bool) (f : Frame) : List (List Byte) :=
  let b := frameBytes bl2 f
  (List.range (cellsOf bl2 f.length)).map fun i => sliceB b (256 * i) 256

/-! ### Ordered sets: R80, R81 -/

def bf (b : BitVec 104) (hi lo : Nat) : Nat := (b.toNat >>> lo) % 2 ^ (hi + 1 - lo)

def mkBody (l : List Nat) : BitVec 104 := BitVec.ofNat 104 (l.foldl (· + ·) 0)

def osHEARTBEAT : Nat := 0x01
def osCREDIT_LO : Nat := 0x02
def osCREDIT_HI : Nat := 0x03
def osCREDIT_RESYNC : Nat := 0x04
def osRETRY : Nat := 0x05
def osPOSITION : Nat := 0x10
def osMARGIN_REPORT : Nat := 0x11
def osLINKCTL : Nat := 0x12
def osSW_REQUEST : Nat := 0x20
def osSW_READY : Nat := 0x21
def osSW_MARK : Nat := 0x22
def osSW_DONE : Nat := 0x23
def osSW_NAK : Nat := 0x24
def osTIME_SYNC : Nat := 0x30
def osTIME_DELAY_REQ : Nat := 0x31
def osTIME_DELAY_RESP : Nat := 0x32
def osTIME_ANNOUNCE : Nat := 0x33

/-- The 16 bytes of an ordered set (R80). -/
def osBytes (type : Nat) (body : BitVec 104) : List Byte :=
  let p := BitVec.ofNat 8 type :: (List.range 13).map fun i => BitVec.ofNat 8 (bf body (103 - 8 * i) (96 - 8 * i))
  let c := crc16 p
  p ++ [BitVec.ofNat 8 (c / 256), BitVec.ofNat 8 (c % 256)]

/-- The ordered set in 16 bytes: none for NULL, an error for a bad CRC. -/
def osDec (l : List Byte) : Option (Option (Nat × BitVec 104)) :=
  if l.all (fun b => b.toNat == 0) then none
  else
    let c := (nth 0 l 14).toNat * 256 + (nth 0 l 15).toNat
    if crc16 (l.take 14) == c then
      some (some ((nth 0 l 0).toNat,
        BitVec.ofNat 104 (((l.drop 1).take 13).foldl (fun a b => a * 256 + b.toNat) 0)))
    else some none

/-- The place of a lane within its link (R81). -/
def linkLane (q : Nat) : Nat := if q < 4096 then q % 2 else (q - 4096) % 32

/-- An ordered set waits for the next outgoing block of a lane (R80). -/
def queueOs (s : State) (q type : Nat) (body : BitVec 104) : State :=
  modLane s q fun l => { l with osOut := l.osOut ++ [(type, body)] }

/-- Send an ordered set on a lane. -/
def sendOs (s : State) (q type : Nat) (body : BitVec 104) : State := emit (queueOs s q type body) (.os q type body)

/-! ### Descriptors: R173, R243, R343 -/

def dOp (d : List Word) : Nat := fld (nth 0 d 0) 63 56
def dPart (d : List Word) : Nat := fld (nth 0 d 0) 55 49
def dOrder (d : List Word) : Bool := bit (nth 0 d 0) 48
def dTag (d : List Word) : Nat := fld (nth 0 d 0) 31 0

/-- The bits of a descriptor that its operation does not define are 0 (R343). -/
def resOk (masks : List Nat) (d : List Word) : Bool :=
  (List.range 8).all fun i => (nth 0 d i).toNat &&& (ones ^^^ nth 0 masks i) == 0

end Sys2Proof.Machine
end

