-- ==== Sys2Proof/Machine/Tables.lean ====
section
/-! DEFINITION. The forwarding tables of chapter 05: entries, the locked view of R177, before-images,
ownership and format checks, the exact-match table, the trie and the recast windows of R33. -/
namespace Sys2Proof.Machine

/-! ### Recast windows: R33 -/

def window (s : State) (p : Nat) : Window := tget {} s.tbl.windows p
def setWindow (s : State) (p : Nat) (w : Window) : State :=
  { s with tbl := { s.tbl with windows := tset {} s.tbl.windows p w } }

/-- RECAST_LONG is raised once per opening when the window has been open longer than RECAST_LIMIT. -/
def recastLong (s : State) (p : Nat) : State :=
  let w := window s p
  let lim := rf s oTBL_CFG 63 52 * secT
  if w.isOpen && !w.long && decide (w.openedAt + lim < s.now) then
    raiseEvent (setWindow s p { w with long := true }) 0x402 p (since s w.openedAt / secT) 0
  else s

/-! ### Before-images: R177, R178. Table numbers are those of R173. -/

def tbROUTE : Nat := 1
def tbEXACT : Nat := 2
def tbLPM_NODE : Nat := 3
def tbLPM_RESULT : Nat := 4
def tbMCAST : Nat := 5
def tbLOCATION : Nat := 6
def tbREACH : Nat := 7

/-- The before-image of an entry that lookups see, whatever partition saved it: the oldest one held. An entry that
changes hands between two locked partitions has one of each (R177). -/
def beforeImage (s : State) (table index : Nat) : Option Nat :=
  (s.tbl.shadow.find? fun b => b.table == table && b.index == index).map (·.value)

def shadowUse (l : List Before) : Nat := (l.map (·.size)).foldl (· + ·) 0

/-- Space a before-image takes (R178). -/
def imageSize (table : Nat) : Nat :=
  if table = tbREACH then 32 else if table = tbEXACT then 48 else if table = tbMCAST then 272 else 16

def shadowQuota (s : State) : Nat :=
  let q := rf s oTBL_CFG 45 40
  (if q = 0 then 64 else q) * 2 ^ 20

/-- Save an entry's prior contents before a partition's first write of it under its LOCK; none where they do not
fit (R177, R178). -/
def saveBefore (s : State) (part table index value : Nat) : Option State :=
  if !(window s part).lock || s.tbl.shadow.any fun b => b.part == part && b.table == table && b.index == index then
    some s
  else
    let sz := imageSize table
    if shadowUse s.tbl.shadow + sz > 64 * 2 ^ 20
        || shadowUse (s.tbl.shadow.filter fun b => b.part == part) + sz > shadowQuota s then none
    else
      let b : Before := { part := part, table := table, index := index, value := value, size := sz }
      some { s with tbl := { s.tbl with shadow := s.tbl.shadow ++ [b] } }

/-! ### Entries as lookups see them -/

def seenWord (s : State) (table index : Nat) (act : Word) : Word :=
  match beforeImage s table index with
  | some v => BitVec.ofNat 64 v
  | none => act

/-- Route entry of an EID, as a lookup sees it (R154, R177). -/
def routeOf (s : State) (e : Nat) : Word := seenWord s tbROUTE e (tget 0 s.tbl.route e)

def rtValid (w : Word) : Bool := bit w 63
def rtPart (w : Word) : Nat := fld w 60 54
def rtLink (w : Word) : Nat := fld w 42 32

/-- The links a SPRAY_MASK selects, in link order (R156). -/
def sprayOf (w : Word) : List Nat :=
  ((List.range 8).filter fun i => bit w (43 + i)).map fun i => 8 * (rtLink w / 8) + i

/-- The partition an EID belongs to for an event of R383: its route entry's. -/
def partEid (s : State) (e : Nat) : Nat :=
  let w := tget (0 : Word) s.tbl.route e
  if rtValid w then rtPart w else 0x7F

def locOf (s : State) (e : Nat) : Nat :=
  match beforeImage s tbLOCATION e with
  | some v => v
  | none => (tget (0 : BitVec 32) s.tbl.loc e).toNat

/-- A partition's reach mask as a READ shows it: bit P, bit 64 and all of partition 64's are 1 (R159). -/
def reachRead (s : State) (p : Nat) : Nat :=
  if p = 64 then 2 ^ 65 - 1
  else (tget (0 : BitVec 128) s.tbl.reach p).toNat ||| (2 ^ p) ||| (2 ^ 64)

/-- Partition p reaches partition q (R32, R159). -/
def reaches (s : State) (p q : Nat) : Bool :=
  p == 64 || q == 64 || p == q ||
  (match beforeImage s tbREACH p with
   | some v => v.testBit q
   | none => (tget (0 : BitVec 128) s.tbl.reach p).toNat.testBit q)

def mcastOf (s : State) (m : Nat) : McEntry :=
  match beforeImage s tbMCAST m with
  | some v => { mask := BitVec.ofNat 2048 v, ctl := BitVec.ofNat 64 (v / 2 ^ 2048) }
  | none => tget {} s.tbl.mcast m

def mcVal (e : McEntry) : Nat := e.mask.toNat + e.ctl.toNat * 2 ^ 2048

/-! ### Exact-match table: R162 to R165 -/

/-- CRC-32 of R163 with polynomial 0x04C1_1DB7, reflected. -/
def crc32Bit (c : Nat) : Nat := if c.testBit 0 then (c / 2) ^^^ 0xEDB88320 else c / 2
def crc32Byte (c : Nat) (b : Byte) : Nat :=
  crc32Bit (crc32Bit (crc32Bit (crc32Bit (crc32Bit (crc32Bit (crc32Bit (crc32Bit (c ^^^ b.toNat))))))))
def crc32 (l : List Byte) : Nat := (l.foldl crc32Byte 0xFFFFFFFF) ^^^ 0xFFFFFFFF

def emKeyBytes (s : State) (e0 e1 : Word) : List Byte :=
  leBytes 4 (rf s oTBL_SEED 31 0) ++ leBytes 8 e0.toNat ++ leBytes 8 e1.toNat

def emHalf : Nat := 2097152

/-- The eight candidate slots of a key: half 0 before half 1, the lowest way first (R163, R164). -/
def emCands (s : State) (e0 e1 : Word) : List Nat :=
  let b := emKeyBytes s e0 e1
  let b0 := crc32c b % 524288
  let b1 := crc32 b % 524288
  (List.range 4).map (fun w => 4 * b0 + w) ++ (List.range 4).map (fun w => emHalf + 4 * b1 + w)

def emSlot (s : State) (i : Nat) : EmEntry := tget {} s.tbl.em i
def emValid (e : EmEntry) : Bool := bit e.e3 15
def setEm (s : State) (i : Nat) (e : EmEntry) : State :=
  { s with tbl := { s.tbl with em := tset {} s.tbl.em i e } }

/-- The slot that holds a key in the active bank. -/
def emFind (s : State) (e0 e1 : Word) : Option Nat :=
  (emCands s e0 e1).find? fun i =>
    let e := emSlot s i
    emValid e && e.e0 == e0 && e.e1 == e1

/-- The index of an exact-match before-image: its key (R177). -/
def emKeyNo (e0 e1 : Word) : Nat := e0.toNat + e1.toNat * 2 ^ 64
def emValNo (e : EmEntry) : Nat := e.e2.toNat + e.e3.toNat * 2 ^ 64

/-- Look a key up: VALUE_A and VALUE_B words, as the locked view shows them. -/
def emLook (s : State) (e0 e1 : Word) : Option (Word × Word) :=
  match beforeImage s tbEXACT (emKeyNo e0 e1) with
  | some v =>
    let e3 : Word := BitVec.ofNat 64 (v / 2 ^ 64)
    if bit e3 15 then some (BitVec.ofNat 64 v, e3) else none
  | none => (emFind s e0 e1).map fun i => ((emSlot s i).e2, (emSlot s i).e3)

def emKey0 (kind part keyA : Nat) : Word := mkWord [at_ 56 kind, at_ 49 part, keyA]

/-- The MEMBER that binds an EID to a context (R165 CONTEXT). -/
def memberOf (s : State) (part ctx eid : Nat) : Option Nat :=
  (emLook s (emKey0 2 part 0) (mkWord [at_ 32 ctx, eid])).map fun v => fld v.1 19 0

/-- A memory region's value words by partition and key (R165 MEM_REGION). -/
def regionOf (s : State) (part key : Nat) : Option (Word × Word) :=
  if hasStacks s then emLook s (emKey0 1 part 0) (BitVec.ofNat 64 key) else none

def rgBase (v : Word × Word) : Nat := fld v.1 62 32
def rgSize (v : Word × Word) : Nat := fld v.1 31 0
def rgRights (v : Word × Word) : Nat := fld v.2 63 56
def rgId (v : Word × Word) : Nat := fld v.2 55 40

def emUsed (s : State) : Nat := (s.tbl.em.filter fun e => emValid e.2).length

/-- Search for a chain of relocations (R164). The order in which occupants are examined and the free
slot taken are free values (log entry 8). A frontier entry is a slot and the slots before it. -/
def emChain : Nat → State → List (Nat × List Nat) → List Nat → State × Option (List Nat)
  | 0, s, _, _ => (s, none)
  | n + 1, s, fr, seen =>
    match fr with
    | [] => (s, none)
    | _ :: _ =>
      let k := Config.freeNat s.freeCtr % fr.length
      let s := takeFree s
      let cur := nth (0, []) fr k
      let occ := emSlot s cur.1
      let c := emCands s occ.e0 occ.e1
      let other := if cur.1 < emHalf then c.drop 4 else c.take 4
      let free := other.filter fun i => !emValid (emSlot s i)
      match free with
      | [] =>
        let new := other.filter fun i => !seen.contains i
        emChain n s (fr.eraseIdx k ++ new.map fun i => (i, cur.1 :: cur.2)) (seen ++ new)
      | _ :: _ =>
        let f := nth 0 free (Config.freeNat s.freeCtr % free.length)
        (takeFree s, some (f :: cur.1 :: cur.2))

/-- Make the moves of a chain from its far end back, each a copy before a clear (R164). -/
def emMoves : List Nat → State → State
  | f :: o :: rest, s =>
    let s := setEm s f (emSlot s o)
    let s := setEm s o {}
    emMoves (o :: rest) (bump s (cMod 7))
  | _, s => s

/-- Place an entry whose key is not present: a free candidate, else a chain; none: TABLE_FULL. -/
def emPlace (s : State) (e : EmEntry) : State × Bool :=
  let c := emCands s e.e0 e.e1
  match c.find? fun i => !emValid (emSlot s i) with
  | some i => (setEm s i e, true)
  | none =>
    let r := emChain (rf s oTBL_CFG 25 16) s (c.map fun i => (i, [])) c
    match r.2 with
    | none => (r.1, false)
    | some path =>
      let s := emMoves path r.1
      (setEm s (nth 0 path (path.length - 1)) e, true)

/-! ### Format checks of a written entry: R157 to R169 -/

def popcount (n : Nat) (w : Nat) : Nat := ((List.range n).filter fun i => w.testBit i).length

/-- SPRAY_MASK, DETOUR and LINK keep R157 for a partition. -/
def sprayOk (w : Word) (part : Nat) : Bool :=
  let m := fld w 50 43
  let n := popcount 8 m
  m.testBit (rtLink w % 8) && (n == 1 || n == 2 || n == 4 || n == 8) && fld w 53 52 != 3
    && (part == 64 || rtLink w / 32 == part)

/-- R157 for a route entry with VALID 1. -/
def routeOk (w : Word) : Bool := sprayOk w (rtPart w) && !bit w 61 && fld w 31 0 == 0

def lpmNodeOk (w : Word) : Bool := decide (fld w 34 20 < 21120) && fld w 61 35 == 0
def lpmResultOk (w : Word) : Bool := decide (fld w 62 60 ≤ 4) && fld w 59 24 == 0

/-- Entry size in bytes (R151, R173). -/
def entryBytes (table : Nat) : Nat :=
  if table = tbEXACT then 32 else if table = tbMCAST then 1024 else if table = tbLOCATION then 4
  else if table = tbREACH then 16 else 8

/-- INDEX and COUNT lie within the table (R175). -/
def tableRangeOk (table index count : Nat) : Bool :=
  if table = tbROUTE ∨ table = tbLOCATION then
    decide (index + count ≤ 2 ^ 24) && index != 0 && decide (index + count ≤ 0xFFFFFF)
  else if table = tbEXACT then decide (index + count ≤ 4194304)
  else if table = tbLPM_NODE then
    let m := index / 2 ^ 29
    decide (m ≤ 6) && decide (index % 2 ^ 29 + count ≤ if m = 0 then 65536 else 21120 * 256)
  else if table = tbLPM_RESULT then decide (index + count ≤ 1048576)
  else if table = tbMCAST then decide (index + count ≤ 65536)
  else decide (index + count ≤ 65)

/-- Save the before-image of an entry, then store it. -/
def saveThen (s : State) (part table index value : Nat) (f : State → State) : State × Nat :=
  match saveBefore s part table index value with
  | none => (s, stSHADOW_FULL)
  | some s => (f s, stOK)

/-- WRITE of one entry through a partition's ring: its status and effect (R153 to R178). -/
def writeTable (s : State) (part table index : Nat) (b : List Byte) : State × Nat :=
  let w := wordAt b 0
  if table = tbROUTE then
    let old := tget (0 : Word) s.tbl.route index
    if (rtValid old && rtPart old != part) || (rtValid w && rtPart w != part) then (s, stWRONG_PARTITION)
    else if rtValid w && !routeOk w then (s, stBAD_ENTRY)
    else saveThen s part table index old.toNat fun s =>
      { s with tbl := { s.tbl with route := tset 0 s.tbl.route index w } }
  else if table = tbLPM_NODE then
    if part != 64 then (s, stWRONG_PARTITION)
    else if !lpmNodeOk w then (s, stBAD_ENTRY)
    else saveThen s part table index (tget (0 : Word) s.tbl.lpmNode index).toNat fun s =>
      { s with tbl := { s.tbl with lpmNode := tset 0 s.tbl.lpmNode index w } }
  else if table = tbLPM_RESULT then
    if part != 64 then (s, stWRONG_PARTITION)
    else if !lpmResultOk w then (s, stBAD_ENTRY)
    else saveThen s part table index (tget (0 : Word) s.tbl.lpmResult index).toNat fun s =>
      { s with tbl := { s.tbl with lpmResult := tset 0 s.tbl.lpmResult index w } }
  else if table = tbMCAST then
    let old := tget ({} : McEntry) s.tbl.mcast index
    let ctl := wordAt b 32
    if bit old.ctl 63 && fld old.ctl 6 0 != part then (s, stWRONG_PARTITION)
    else if fld ctl 60 7 != 0 || decide (fld ctl 6 0 > 64) then (s, stBAD_ENTRY)
    else if bit ctl 63 && fld ctl 6 0 != part then (s, stWRONG_PARTITION)
    else saveThen s part table index (mcVal old) fun s =>
      { s with tbl := { s.tbl with
          mcast := tset {} s.tbl.mcast index { mask := BitVec.ofNat 2048 (leAt b 0 256), ctl := ctl } } }
  else if table = tbLOCATION then
    let v := leAt b 0 4
    let r := tget (0 : Word) s.tbl.route index
    if !rtValid r || rtPart r != part then (s, stWRONG_PARTITION)
    else if v.testBit 28 || v.testBit 27 then (s, stBAD_ENTRY)
    else saveThen s part table index (tget (0 : BitVec 32) s.tbl.loc index).toNat fun s =>
      { s with tbl := { s.tbl with loc := tset 0 s.tbl.loc index (BitVec.ofNat 32 v) } }
  else
    let v := leAt b 0 16
    if index != part || index == 64 then (s, stWRONG_PARTITION)
    else if v ≥ 2 ^ 65 then (s, stBAD_ENTRY)
    else saveThen s part table index (tget (0 : BitVec 128) s.tbl.reach index).toNat fun s =>
      let v := v &&& (2 ^ 65 - 1 - 2 ^ 64 - (if index < 64 then 2 ^ index else 0))
      { s with tbl := { s.tbl with reach := tset 0 s.tbl.reach index (BitVec.ofNat 128 v) } }

/-- WRITE of entries in order, stopping at the first that fails (R175): state, status, entries written. -/
def writeEntries : List (List Byte) → State → Nat → Nat → Nat → Nat → State × Nat × Nat
  | [], s, _, _, _, n => (s, stOK, n)
  | b :: rest, s, part, table, index, n =>
    let r := writeTable s part table index b
    if r.2 = stOK then writeEntries rest (bump r.1 (cMod 8)) part table (index + 1) (n + 1)
    else (r.1, r.2, n)

/-- One entry of the active bank as READ copies it (R174). -/
def readEntry (s : State) (table index : Nat) : List Byte :=
  if table = tbROUTE then leBytes 8 (tget (0 : Word) s.tbl.route index).toNat
  else if table = tbEXACT then
    let e := emSlot s index
    bytesOfWords [e.e0, e.e1, e.e2, e.e3]
  else if table = tbLPM_NODE then leBytes 8 (tget (0 : Word) s.tbl.lpmNode index).toNat
  else if table = tbLPM_RESULT then leBytes 8 (tget (0 : Word) s.tbl.lpmResult index).toNat
  else if table = tbMCAST then
    let e := tget ({} : McEntry) s.tbl.mcast index
    leBytes 256 e.mask.toNat ++ leBytes 8 e.ctl.toNat ++ List.replicate 760 0
  else if table = tbLOCATION then leBytes 4 (tget (0 : BitVec 32) s.tbl.loc index).toNat
  else leBytes 16 (reachRead s index)

/-! ### Longest-prefix match: R166 to R168 -/

def lpmNodeAt (s : State) (mem idx : Nat) : Word :=
  seenWord s tbLPM_NODE (mem * 2 ^ 29 + idx) (tget 0 s.tbl.lpmNode (mem * 2 ^ 29 + idx))

/-- The walk of R167 from a level on: `left` levels remain. -/
def lpmStep (s : State) (addr : Nat) : Nat → Nat → Word → Option Nat → Option Nat
  | 0, _, e, best => if bit e 63 then some (fld e 19 0) else best
  | n + 1, level, e, best =>
    let best := if bit e 63 then some (fld e 19 0) else best
    if !bit e 62 then best
    else
      let level := level + 1
      lpmStep s addr n level (lpmNodeAt s level (256 * fld e 34 20 + (addr >>> (48 - 8 * level)) % 256)) best

/-- The result index of the upper 64 bits of an IPv6 destination address. -/
def lpmWalk (s : State) (addr : Nat) : Option Nat :=
  lpmStep s addr 6 0 (lpmNodeAt s 0 (addr / 2 ^ 48 % 2 ^ 16)) none

def lpmResultAt (s : State) (i : Nat) : Word := seenWord s tbLPM_RESULT i (tget 0 s.tbl.lpmResult i)

end Sys2Proof.Machine
end

