-- ==== Sys2Proof/Machine/MemBase.lean ====
section
/-! DEFINITION. Stacked memory as data (chapter 09): the channel map, relief blocks, the layout of the
address space, lines with their poison, regions and the plan claims on them. -/
namespace Sys2Proof.Machine

/-! ### Channels, stacks and rotations: R282, R284 -/

/-- The map entry of a logical channel: until it first moves, stack l mod 20, channel l div 20 (R284). -/
def mapOf (s : State) (l : Nat) : MapEntry :=
  let e := tget {} s.mem.map l
  if e.moved then e else { e with stack := l % 20, ch := l / 20 }

def setMap (s : State) (l : Nat) (e : MapEntry) : State :=
  { s with mem := { s.mem with map := tset {} s.mem.map l { e with moved := true } } }

/-- A physical channel of a stack; one that nothing has changed is mapped under R284, channel 32 spare. -/
def memCh (s : State) (k h : Nat) : MemCh :=
  let c := tget {} s.mem.chans (33 * k + h)
  if c.state = 0 ∧ c.logical = 0x3FF then
    if h = 32 then { c with state := 1 } else { c with logical := 20 * h + k }
  else c

def setMemCh (s : State) (k h : Nat) (c : MemCh) : State :=
  { s with mem := { s.mem with chans := tset {} s.mem.chans (33 * k + h) c } }
def modMemCh (s : State) (k h : Nat) (f : MemCh → MemCh) : State := setMemCh s k h (f (memCh s k h))

def stk (s : State) (k : Nat) : Stack := tget {} s.mem.stks k
def modStk (s : State) (k : Nat) (f : Stack → Stack) : State :=
  { s with mem := { s.mem with stks := tset {} s.mem.stks k (f (stk s k)) } }

def rot (s : State) (k : Nat) : Rot := tget {} s.mem.rots k
def setRot (s : State) (k : Nat) (r : Rot) : State :=
  { s with mem := { s.mem with rots := tset {} s.mem.rots k r } }
def modRot (s : State) (k : Nat) (f : Rot → Rot) : State := setRot s k (f (rot s k))

/-! ### Layout of the address space: R285, R301 -/

/-- Granules of 256 B, and those of one channel (R282, R283). -/
def totalGranules : Nat := 1342177280
def chanGranules : Nat := 2097152

def reliefRows (s : State) : Nat := s.mem.relief.foldl (fun n r => n + r.rows) 0

/-- The lowest granule of the relief blocks. -/
def reliefBase (s : State) : Nat := totalGranules - 640 * reliefRows s

/-- Granules of the deep riser: the reserve read at start-up less what the relief blocks took (R123, R301). -/
def deepSize (s : State) : Nat := s.sw.reserve * 2 ^ 22 - 640 * reliefRows s

/-- REGION_TOP (R285): it falls by what the deep riser cannot give. -/
def regionTop (s : State) : Nat := reliefBase s - deepSize s

/-- Logical channels that are mapped and not retired, in address order. -/
def liveChans (s : State) : List Nat := (upTo 640).filter fun l => !(tget {} s.mem.map l).retired

/-- Rows of a relief block below `rows` rows of earlier ones (R301): m is what those have on the retired channel,
one granule a row. -/
def blockRows (s : State) (rows : Nat) : Nat := ceilDiv (chanGranules + rows) (liveChans s).length

/-- Rows of the next relief block (R301). -/
def nextReliefRows (s : State) : Nat := blockRows s (reliefRows s)

/-- Rows that the relief blocks have with those of every retirement that waits for its rebuild. -/
def rowsToCome (s : State) : Nat := s.mem.pendingRebuild.foldl (fun n _ => n + blockRows s n) (reliefRows s)

/-- The deep riser no longer allocates in the blocks that the retirements will take (R301). -/
def deepRoomSize (s : State) : Nat := deepSize s - 640 * (rowsToCome s - reliefRows s)

/-- Where a granule's data lie after the redirections of R301; none: its channel is retired and not rebuilt. -/
def placeOf (s : State) : Nat → Nat → Option Nat
  | 0, _ => none
  | n + 1, g =>
    let e := tget ({} : MapEntry) s.mem.map (g % 640)
    if !e.retired then some g
    else if !e.rebuilt then none
    else match s.mem.relief.find? fun r => r.logical == g % 640 with
      | none => none
      | some r =>
        let top := r.base / 640 + r.rows
        let i := if top ≤ g / 640 then chanGranules + (g / 640 - top) else g / 640
        let h := r.hosts.length
        placeOf s n (r.base + 640 * (i / h) + nth 0 r.hosts (i % h))

def place (s : State) (g : Nat) : Option Nat := placeOf s 18 g

/-! ### Lines: R296, R297, R300, R301, R304 -/

/-- What a line that nothing has written reads as: zeros (R304), in a relief block the poison marker (R301). -/
def lineDef (s : State) (key : Nat) : Line := if reliefBase s ≤ key / 4 then .poison else .data 0

/-- A line as memory holds it, at 4 × granule + line of a place. -/
def lineAt (s : State) (key : Nat) : Line := tget (lineDef s key) s.mem.lines key

def putLine (s : State) (key : Nat) (v : Line) : State :=
  { s with mem := { s.mem with lines := tset (lineDef s key) s.mem.lines key v } }

/-- Read a line for a requester: POISONED on a retired channel and after a failed transfer (R295, R300). -/
def readLine (s : State) (g i : Nat) : Line :=
  match place s g with
  | none => .poison
  | some p => if s.mem.readFailed.contains (4 * p + i) then .poison else lineAt s (4 * p + i)

/-- A rotation mirrors writes from the start of its copy to its switch (R287). -/
def mirrors (r : Rot) : Bool := r.phase == 1 || r.phase == 2

/-- A line of the channel is written on both: marked in the bitmap, and on Y no longer poisoned (R287). -/
def markLine (r : Rot) (n : Nat) : Rot := { r with written := addNew r.written n, poisonY := remNat r.poisonY n }

/-- Until the switch, a write goes to both channels (R287). -/
def noteWritten (s : State) (p i : Nat) : State :=
  let e := mapOf s (p % 640)
  let r := rot s e.stack
  if mirrors r && r.src == e.ch then setRot s e.stack (markLine r (4 * (p / 640) + i)) else s

/-- The granule of a line of a channel. -/
def granuleOf (l n : Nat) : Nat := 640 * (n / 4) + l

def inRange (g n x : Nat) : Bool := decide (g ≤ x) && decide (x < g + n)

/-- A scrub writes a range of granules: every rotation that mirrors writes marks its lines of them (R287, R304). -/
def noteZeroed (s : State) (g n : Nat) : State :=
  let note (k : Nat) (r : Rot) : Rot :=
    if !mirrors r then r
    else
      { r with
        zeroed := r.zeroed ++ [(g, n)]
        poisonY := r.poisonY.filter fun x => !(inRange g n (granuleOf (memCh s k r.src).logical x)) }
  { s with mem := { s.mem with rots := tmap {} s.mem.rots note } }

/-- The bitmap of R287 marks a line of logical channel l. -/
def marked (r : Rot) (l n : Nat) : Bool :=
  r.written.contains n || r.zeroed.any fun z => inRange z.1 z.2 (granuleOf l n)

/-- Write a whole line: on a retired channel discarded and counted in RETIRED_WRITE (R300). What an earlier read
of it met is past. -/
def writeLine (s : State) (g i : Nat) (v : Line) : State :=
  match place s g with
  | none => bump s (cMod 6)
  | some p =>
    let s := putLine (noteWritten s p i) (4 * p + i) v
    { s with mem := { s.mem with readFailed := remNat s.mem.readFailed (4 * p + i) } }

/-- A requester has taken what its transfers gave for the n lines from line l0 of a region (R295). -/
def doneReads (s : State) (base l0 n : Nat) : State :=
  let mine (k : Nat) : Bool := (List.range n).any fun i =>
    place s (base + (l0 + i) / 4) == some (k / 4) && (l0 + i) % 4 == k % 4
  { s with mem := { s.mem with readFailed := s.mem.readFailed.filter fun k => !mine k } }

def lineBytes (v : BitVec 512) : List Byte := leBytes 64 v.toNat
def bytesLine (b : List Byte) : BitVec 512 := BitVec.ofNat 512 (leNat (b.take 64))

/-- The lines n, n + 1, … of a region whose first granule is base. -/
def regionLine (s : State) (base n : Nat) : Line := readLine s (base + n / 4) (n % 4)
def setRegionLine (s : State) (base n : Nat) (v : Line) : State := writeLine s (base + n / 4) (n % 4) v

/-- Write whole lines of data from line n of a region on. -/
def writeLines (base : Nat) : Nat → State → Nat → List Byte → State
  | 0, s, _, _ => s
  | c + 1, s, n, b =>
    writeLines base c (setRegionLine s base n (.data (bytesLine b))) (n + 1) (b.drop 64)

/-- Read lines up to the first that is POISONED: the bytes before it, and its number. -/
def readLines (s : State) (base : Nat) : Nat → Nat → List Byte × Option Nat
  | 0, _ => ([], none)
  | c + 1, n =>
    match regionLine s base n with
    | .poison => ([], some n)
    | .data v =>
      let r := readLines s base c (n + 1)
      (lineBytes v ++ r.1, r.2)

/-! ### Regions: R165, R303, R304 -/

/-- The valid MEM_REGION entries with their slots. -/
def regions (s : State) : List (Nat × EmEntry) :=
  s.tbl.em.filter fun e => emValid e.2 && fld e.2.e0 63 56 == 1

def emVal (e : EmEntry) : Word × Word := (e.e2, e.e3)

def overlaps (a n b m : Nat) : Bool := decide (a < b + m) && decide (b < a + n)

/-- The checks of R303 on a region value; `self` is the slot of a region that it replaces (R450). -/
def regionOk (s : State) (v : Word × Word) (self : Option Nat) : Bool :=
  let others := (regions s).filter fun e => some e.1 != self
  rgSize v != 0 && decide (rgBase v + rgSize v ≤ regionTop s)
    && !(others.any fun e => overlaps (rgBase v) (rgSize v) (rgBase (emVal e.2)) (rgSize (emVal e.2)))
    && !(s.mem.scrubbing.any fun r => overlaps (rgBase v) (rgSize v) r.1 r.2)
    && decide (others.length < 65536)
    && !(others.any fun e => rgId (emVal e.2) == rgId v)

/-- Granules of one range that another does not cover. -/
def rangeLess (a n b m : Nat) : List (Nat × Nat) :=
  if !overlaps a n b m then [(a, n)]
  else
    (if a < b then [(a, b - a)] else []) ++ (if b + m < a + n then [(b + m, a + n - (b + m))] else [])

/-- Ranges that a delete or a replacement gives up are scrubbed, and taken by no region until then. -/
def scrubRanges (s : State) (l : List (Nat × Nat)) : State :=
  { s with mem := { s.mem with scrubbing := s.mem.scrubbing ++ l } }

/-- Requests already accepted for a region complete first (R304, R450). -/
def regionBusy (s : State) (v : Word × Word) : Bool :=
  s.mem.reqs.any fun r => r.base == rgBase v && r.rid == rgId v

/-- Granules of a region under a plan's REGION claim with WRITE or STATE (R241), claims being in force
from admission to unload. -/
def regionClaimed (s : State) (g n : Nat) : Bool :=
  s.plan.plans.any fun p => decide (2 ≤ p.2.state) && decide (p.2.state ≤ 6) &&
    p.2.claims.any fun c => fld c.1 63 56 == 3 && fld c.1 50 49 != 0 &&
      match regionOf s p.2.part (fld c.1 31 0) with
      | some v => overlaps g n (rgBase v + fld c.2 63 32) (fld c.2 31 0)
      | none => false

end Sys2Proof.Machine
end

