-- ==== Sys2Proof/Machine/Switch.lean ====
section
/-! DEFINITION. The riser and the way into it (chapter 04): queues, admission, marking, spraying and
detours, refusals and NACKs (chapter 03), and frames that the spine originates. -/
namespace Sys2Proof.Machine

/-! ### Dies, groups and fences: R112, R113, R372 -/

def dieOfLane (q : Nat) : Nat := if q < 4096 then q / 1024 else (q - 4096) / 16
def groupOfLane (q : Nat) : Nat := if q < 4096 then q / 16 else 256 + (q - 4096) / 16
def dieOfGroup (g : Nat) : Nat := if g < 256 then g / 64 else if g < 260 then g - 256 else g - 260

/-- A link is treated as fenced: its own fence, or the module fence (R368, R372). -/
def fenced (s : State) (l : Nat) : Bool := s.hlt.moduleFenced || (link s l).fenced

/-- A link that a frame may be enqueued on: a lane UP and not fenced (R136). -/
def eligible (s : State) (l : Nat) : Bool := linkUp s l && !fenced s l

/-- A lateral link that detours may use: up and not fenced, in a fabric of more than one plane (R20, R28). -/
def lateralUp (s : State) (l : Nat) : Bool :=
  eligible s l && rf s oFABRIC_POS 23 21 != 0

/-! ### Occupancy: R103, R118 to R123 -/

def qCells (q : QFrame) : Nat := frameCells q.f

/-- Q of R103 in bytes: the frames of TC2 to TC7 queued for a link. -/
def linkQ (s : State) (l : Nat) : Nat :=
  ((s.sw.queue.filter fun q => q.outLink == l && decide (2 ≤ q.f.tc)).map fun q => 256 * qCells q).foldl (· + ·) 0

/-- The part of Q in the deep riser. -/
def deepQ (s : State) (l : Nat) : Nat :=
  ((s.sw.queue.filter fun q => q.outLink == l && q.place == .deep).map fun q => 256 * qCells q).foldl (· + ·) 0

/-- The grant of a link for a class (R101). -/
def grantOf (s : State) (l tc : Nat) : Nat :=
  let g := rf s oCREDIT_CFG (8 * tc + 7) (8 * tc) * 16
  if isLateral l then 16 * g else g

/-- Cells of landing reserve that a die holds for one link: half a lateral link's grant (R118). -/
def landingOf (grant : Nat → Nat) (l : Nat) : Nat :=
  let t := ((List.range 8).map grant).foldl (· + ·) 0
  if isLateral l then t / 2 else t

def linkOnDie (d l : Nat) : Bool :=
  if l < 2048 then l / 512 == d else if l = 2048 then decide (d < 2) else decide (2 ≤ d)

/-- The grant of a link that has not come up since the start: the reset value of CREDIT_CFG (R101, R118). -/
def grantAtStart (s : State) (l tc : Nat) : Nat :=
  let g := fld (regReset s.variant s.boot.strapBl2 oCREDIT_CFG) (8 * tc + 7) (8 * tc) * 16
  if isLateral l then 16 * g else g

/-- Cells of a die's landing reserve: the grants in force on links that came up, those of the start on the others; a
write of CREDIT_CFG resizes it at each link's next bring-up (R101, R118). -/
def landingCells (s : State) (d : Nat) : Nat :=
  let lat := if d < 2 then 2048 else 2049
  let base := 512 * landingOf (grantAtStart s (512 * d)) (512 * d) + landingOf (grantAtStart s lat) lat
  s.lnk.links.foldl (fun n e =>
    if linkOnDie d e.1 && e.2.everUp then
      n + landingOf (fun t => tget 0 e.2.granted t) e.1 - landingOf (grantAtStart s e.1) e.1
    else n) base

/-- Cells of a die's shared pool (R118). -/
def poolCells (s : State) (d : Nat) : Nat := 4194304 - landingCells s d

def inPool (q : QFrame) : Bool := q.place == .pool || q.place == .prefetched

/-- Cells of the shared pool in use: frames of the slice, and each multicast cell once (R122). -/
def poolUsed (s : State) (d : Nat) : Nat :=
  (s.sw.queue.filter fun q => q.die == d && inPool q).foldl (fun n q => n + qCells q)
    ((s.sw.runner.filter fun r => r.die == d).foldl (fun n r => n + r.cells)
      ((s.sw.mcq.filter fun m => m.q.die == d && inPool m.q).foldl (fun n m => n + qCells m.q) 0))

def poolFree (s : State) (d : Nat) : Nat := poolCells s d - poolUsed s d

/-- Pool cells a class holds in a slice (R120, R122). -/
def classUsed (s : State) (d tc : Nat) : Nat :=
  (s.sw.queue.filter fun q => q.die == d && inPool q && q.f.tc == tc).foldl (fun n q => n + qCells q)
    ((s.sw.runner.filter fun r => r.die == d && r.tc == tc).foldl (fun n r => n + r.cells)
      ((s.sw.mcq.filter fun m => m.q.die == d && inPool m.q && m.q.f.tc == tc).foldl
        (fun n m => n + qCells m.q) 0))

/-- The link test of R121. -/
def linkTest (s : State) (d e : Nat) : Bool :=
  let held := (s.sw.queue.filter fun q => q.die == d && inPool q && q.outLink == e).foldl (fun n q => n + qCells q) 0
  decide (held * 2 ^ rf s oRISER_CFG 42 40 < poolFree s d)

/-- The virtual output queue of a frame: die, ingress group, egress link, class. -/
def voqOf (q : QFrame) : Nat × Nat × Nat × Nat := (q.die, q.inGroup, q.outLink, q.f.tc)

/-- A queue is in the spill state while it holds a frame in the deep riser (R124). -/
def spilling (s : State) (v : Nat × Nat × Nat × Nat) : Bool := s.sw.spilling.contains v

def deepOn (s : State) : Bool := hasStacks s && bit (getR s oSW_CTRL) 2

/-- Cells in the deep riser, and its size: the reserve read at start-up less what relief blocks took
(R123, R301). -/
def deepUsed (s : State) : Nat :=
  (s.sw.queue.filter fun q => q.place == .deep).foldl (fun n q => n + qCells q) 0

/-- Bytes that the deep riser has moved in the present microsecond (R123; log entry 53). -/
def deepSpent (s : State) : Nat := if s.now < s.sw.deepSince + usT then s.sw.deepBytes else 0

/-- The share of the peak stacked bandwidth has room for these cells: DEEP_CFG.BW of 64 parts of 65.536 TB/s (R123). -/
def deepBwLeft (s : State) (cells : Nat) : Bool :=
  decide (deepSpent s + 256 * cells ≤ rf s oDEEP_CFG 23 16 * 1024000)

/-- Cells are written to the deep riser or read from it. -/
def deepMove (s : State) (cells : Nat) : State :=
  { s with sw := { s.sw with
    deepSince := if s.now < s.sw.deepSince + usT then s.sw.deepSince else s.now
    deepBytes := deepSpent s + 256 * cells } }

/-- The deep riser can take these cells: it has room, and its bandwidth share is not exhausted (R120, R126). -/
def deepRoom (s : State) (cells : Nat) : Bool :=
  deepOn s && decide (deepUsed s + cells ≤ deepRoomSize s) && deepBwLeft s cells

/-! ### Credits of the receiver: R100, R119 -/

/-- Cells of a frame on the link it arrived on. -/
def inCells (q : QFrame) : Nat := cellsOf q.inBl2 q.f.length

/-- The receiver frees cells: CREDIT rises (R100). -/
def freeCredit (s : State) (l tc n : Nat) : State :=
  if l = 0xFFF then s
  else modLink s l fun k => { k with credit := tset 0 k.credit tc ((tget 0 k.credit tc + n) % 2 ^ 24) }

/-! ### Congestion marking: R103 -/

/-- The Galois LFSR of R103. -/
def lfsr16 (v : Nat) : Nat := if v % 2 = 1 then (v / 2) ^^^ 0xB400 else v / 2

/-- The next value of a link's marking generator; its start is a free value (log entry 4). -/
def nextMark (s : State) (l : Nat) : State × Nat :=
  let k := link s l
  let s1 := if k.lfsr.isNone then takeFree s else s
  let v := match k.lfsr with
    | some x => x.toNat
    | none => Config.freeNat s.freeCtr % 65535 + 1
  let u := lfsr16 v
  (modLink s1 l fun k => { k with lfsr := some (BitVec.ofNat 16 u) }, u)

/-- Decide CM of a frame placed in the egress queue of a link: state, CM set by this spine. -/
def markCm (s : State) (l : Nat) (f : Frame) : State × Bool :=
  if !bit (getR s oCM_CFG) 32 || f.tc < 2 || f.cm then (s, false)
  else
    let t := rf s oCM_CFG 15 0 * 1024
    let q := linkQ s l
    if q ≤ t then (s, false)
    else if 4 * t ≤ q then (bump s (cLink l 4), true)
    else
      let r := nextMark s l
      if r.2 < 65536 * (q - t) / (3 * t) then (bump r.1 (cLink l 4), true) else (r.1, false)

/-! ### Saturation timers: R145 -/

/-- Follow Q of a link past 4 × CM_THRESH and below CM_THRESH. -/
def noteQ (s : State) (l : Nat) : State :=
  let t := rf s oCM_CFG 15 0 * 1024
  let q := linkQ s l
  modLink s l fun k =>
    { k with
      highSince := if 4 * t < q then some (k.highSince.getD s.now) else none
      lowSince := if q < t then some (k.lowSince.getD s.now) else none }

/-! ### Choosing the lane: R137 -/

/-- The element of a list that minimises a measure; ties to the earlier. -/
def minBy (f : Nat → Nat) : List Nat → Option Nat
  | [] => none
  | x :: r =>
    match minBy f r with
    | none => some x
    | some y => if f y < f x then some y else some x

def bufCells (s : State) (q : Nat) : Nat := (lane s q).buf.length

/-- The half of a lateral link with the smaller Q, ties by ENTROPY[1]; a half without a lane UP gives way. -/
def lateralHalf (s : State) (l ent : Nat) : List Nat :=
  let up := upLanes s l
  let half (h : Nat) : List Nat := up.filter fun q => (linkLane q) / 16 == h
  let hq (h : Nat) : Nat := ((s.sw.queue.filter fun q => q.outLink == l && linkLane q.outLane / 16 == h
    && decide (2 ≤ q.f.tc)).map fun q => 256 * qCells q).foldl (· + ·) 0
  if (half 0).isEmpty then half 1 else if (half 1).isEmpty then half 0
  else if hq 0 < hq 1 then half 0 else if hq 1 < hq 0 then half 1
  else half (ent / 2 % 2)

def chooseLane (s : State) (l : Nat) (hashed : Bool) (ent : Nat) : Nat :=
  if isLateral l then (minBy (bufCells s) (lateralHalf s l ent)).getD 0x1FFF
  else
    let up := upLanes s l
    if hashed && up.length == 2 then 2 * l + ent / 2 % 2
    else (minBy (bufCells s) up).getD 0x1FFF

/-! ### Into the riser: R120 to R126 -/

inductive Admission where
  | to (p : Place)
  | drop
  /-- stays in the landing reserve, its credits withheld -/
  | hold
deriving DecidableEq, Repr

/-- Where a frame for a queue goes (R120). -/
def admission (s : State) (q : QFrame) : Admission :=
  let d := q.die
  let c := qCells q
  let room := decide (c ≤ poolFree s d)
  let tc := q.f.tc
  if tc = 1 then if room then .to .pool else .hold
  else if tc = 2 ∨ tc = 3 then
    let share := if tc = 2 then rf s oRISER_CFG 15 8 else rf s oRISER_CFG 23 16
    if room && decide (classUsed s d tc * 256 < share * poolCells s d) && linkTest s d q.outLink then .to .pool
    else .drop
  else if room && linkTest s d q.outLink && !spilling s (voqOf q) then .to .pool
  else if deepRoom s c then .to .deep
  else .hold

/-- A frame of TC4 to TC7 stays in a die's landing reserve. -/
def deepHeld (s : State) (d : Nat) : Bool :=
  s.sw.queue.any fun q => q.die == d && q.place == .landing && decide (4 ≤ q.f.tc)

/-- DEEP_FULL ends when a die holds no such frame any more (R126). -/
def deepFullEnd (s : State) (d : Nat) : State :=
  if deepHeld s d then s else { s with sw := { s.sw with deepFull := tset false s.sw.deepFull d false } }

/-- DEEP_FULL is raised once per filling when a frame finds the deep riser full, or its bandwidth share exhausted
(R126). -/
def deepFullNote (s : State) (d : Nat) : State :=
  if !deepOn s || tget false s.sw.deepFull d then s
  else raiseEvent { s with sw := { s.sw with deepFull := tset false s.sw.deepFull d true } } 0x303 0x7F d 0

/-- A frame enters its queue; one in the deep riser puts its queue in the spill state (R124). -/
def pushFrame (s : State) (q : QFrame) : State :=
  let v := voqOf q
  let s := { s with sw := { s.sw with
    queue := s.sw.queue ++ [{ q with inside := true }]
    spilling := if q.place == .deep && !s.sw.spilling.contains v then s.sw.spilling ++ [v] else s.sw.spilling } }
  noteQ s q.outLink

/-- Put a frame into its queue where admission sends it; RISER_DROP counts a dropped one (R120). A frame
that only moves between queues keeps its place (R147). -/
def putFrame (s : State) (q : QFrame) : State :=
  if q.inside then pushFrame s q
  else match admission s q with
  | .to .deep =>
    let s := freeCredit (deepMove s (qCells q)) q.inLink q.f.tc (inCells q)
    pushFrame (bump s (cLink q.outLink 19)) { q with place := .deep, spilled := true, store := true }
  | .to p => pushFrame (freeCredit s q.inLink q.f.tc (inCells q)) { q with place := p }
  | .drop => bump (freeCredit s q.inLink q.f.tc (inCells q)) (cLink q.outLink (18 + q.f.tc))
  | .hold =>
    let s := if q.f.tc ≥ 4 then deepFullNote s q.die else s
    pushFrame s { q with place := .landing }

def freshId (s : State) : State × Nat :=
  ({ s with sw := { s.sw with nextId := s.sw.nextId + 1 } }, s.sw.nextId)

/-- NACK causes of R99. -/
def nkUNREACHABLE : Nat := 0x01
def nkFENCED : Nat := 0x02
def nkUNIT_ABSENT : Nat := 0x03
def nkBAD_TYPE : Nat := 0x04
def nkBAD_LENGTH : Nat := 0x05
def nkBAD_ADDRESS : Nat := 0x06
def nkBL2_LIMIT : Nat := 0x07
def nkPOISONED : Nat := 0x08

/-- The cause that refuses a frame bound for a BL2 link, if any: POISON, which that form cannot carry, or a field that
does not fit (R99, R108, R110). -/
def bl2Cause (s : State) (q : QFrame) (l : Nat) : Option Nat :=
  if !(link s l).bl2 then none
  else if q.f.poison then some nkPOISONED
  else if (toBl2 q.f q.originated).isNone then some nkBL2_LIMIT
  else none

/-- Place a frame on a chosen link: its BL2 form is checked, its lane chosen and CM decided (R94, R103,
R108, R137). The answer is a NACK cause, 0 where the frame is in the riser; a refused frame of the spine's own is
counted in BL2_DROP (R97, R110), one with POISON too (DESIGN CHOICE, log entry 63). -/
def placeOn (s : State) (q : QFrame) (l : Nat) : State × Nat :=
  match bl2Cause s q l with
  | some c => (if q.originated then bump s (cLink l 22) else s, c)
  | none =>
    let q0 := linkQ s l
    let r := markCm s l q.f
    let s := r.1
    let q := { q with
      outLink := l
      outLane := chooseLane s l q.hashed q.f.entropy
      cmSet := q.cmSet || r.2
      qAtEnq := q0 / 1024
      f := if r.2 then { q.f with cm := true } else q.f }
    (putFrame s q, 0)

/-- The link of the spray set that a frame takes (R136). -/
def chooseLink (s : State) (q : QFrame) : Option Nat :=
  let e := q.spray.filter (eligible s)
  if q.hashed then (if e.isEmpty then none else some (nth 0 e (q.f.entropy / 4 % 8 % e.length)))
  else minBy (linkQ s) e

/-- A frame of a TC4 context that the spine sends: it leaves on leaf links alone (R266). -/
def leafOnly (q : QFrame) : Bool := q.originated && q.f.tc == 4 && isColl q.f.type

/-- The lateral link of a detour: the policy's, else the other (R28, R30); none for what leaves on leaf links alone. -/
def detourLink (s : State) (q : QFrame) : Option Nat :=
  if !bit (getR s oSW_CTRL) 1 || leafOnly q then none
  else
    let first := if q.policy = 1 then 2048 else if q.policy = 2 then 2049 else 2048 + q.f.entropy % 2
    let other := if first = 2048 then 2049 else 2048
    if lateralUp s first then some first else if lateralUp s other then some other else none

/-- Deliver a frame to a link of its spray set, or on a detour; answers a NACK cause, 0 when queued
(R28 to R30, R136, R369). -/
def deliverCore (s : State) (q : QFrame) : State × Nat :=
  match chooseLink s q with
  | some l => placeOn s q l
  | none =>
    if q.spray.any (fenced s) then
      (if q.originated then bump s (cLink q.primary 17) else s, nkFENCED)
    else if q.f.detour && isLateral q.inLink then
      (raiseEvent s 0x20A (partEid s q.f.src) q.f.dest q.f.src, nkUNREACHABLE)
    else match detourLink s q with
      | some l =>
        let s := bump s (cLink q.primary 5)
        placeOn s { q with f := { q.f with detour := true }, detourSent := true } l
      | none => (raiseEvent s 0x209 (partEid s q.f.src) q.f.dest q.f.src, nkUNREACHABLE)

/-- The routing decision of a route entry or a FLOW value (R156, R165). -/
def withRoute (q : QFrame) (w : Word) : QFrame :=
  { q with spray := sprayOf w, primary := rtLink w, hashed := bit w 51, policy := fld w 53 52 }

/-- The flow override of a frame: none, or its FLOW value (R165). -/
def flowOf (s : State) (f : Frame) (w : Word) : Option Word :=
  if bit w 62 then
    (emLook s (emKey0 3 (rtPart w) (at_ 24 f.src + f.dest)) (BitVec.ofNat 64 f.tc)).map (·.1)
  else none

/-- The cause of a frame that a FLOW entry drops: answered UNREACHABLE, counted in FLOW_DROP alone (R165). -/
def flowDropped : Nat := 0x201

/-- Route a unicast frame from step 4 of R158 on, its source in partition p. A cause of 0 means queued. -/
def routeFrame (s : State) (q : QFrame) (p : Nat) (useFlow : Bool) : State × Nat :=
  let w := routeOf s q.f.dest
  if !rtValid w then (s, nkUNREACHABLE)
  else if !reaches s p (rtPart w) then (s, nkUNREACHABLE)
  else match (if useFlow then flowOf s q.f w else none) with
    | some v =>
      if fld v 63 62 = 1 then (if q.inLink = 0xFFF then s else bump s (cLink q.inLink 18), flowDropped)
      else deliverCore s (withRoute q v)
    | none => deliverCore s (withRoute q w)

/-- A frame of the spine's own, entering through a die's internal port (R114). -/
def ownFrame (s : State) (die : Nat) (f : Frame) : State × QFrame :=
  let r := freshId s
  (r.1, { id := r.2, f := f, inGroup := 260 + die, die := die, born := s.now, arriveNs := nt32 s,
          originated := true })

/-! ### Multicast frames into the ingress slice: R122, R139, R160 -/

def mcValid (e : McEntry) : Bool := bit e.ctl 63
def mcOwner (e : McEntry) : Nat := fld e.ctl 6 0

/-- The member links of a group: leaf links whose partition its owner reaches, and its lateral bits (R140, R161). -/
def mcMembers (s : State) (e : McEntry) : List Nat :=
  ((upTo 2048).filter fun i => e.mask.toNat.testBit i && reaches s (mcOwner e) (i / 32))
    ++ (if bit e.ctl 62 then [2048] else []) ++ (if bit e.ctl 61 then [2049] else [])

/-- A multicast frame finds room in the shared pool of its slice (log entry 21). -/
def mcRoom (s : State) (q : QFrame) : Bool :=
  let d := q.die
  let tc := q.f.tc
  decide (qCells q ≤ poolFree s d) &&
    (if tc = 2 ∨ tc = 3 then
      decide (classUsed s d tc * 256 < (if tc = 2 then rf s oRISER_CFG 15 8 else rf s oRISER_CFG 23 16) * poolCells s d)
    else true)

/-- A multicast frame waits for the runners in the pool, or in the landing reserve; TC2 and TC3 without
room are dropped. R392 counts RISER_DROP by egress link, and a multicast frame has none: such a drop is counted at its
ingress link, and one of the spine's own not at all (DESIGN CHOICE, log entry 61). -/
def mcEnter (s : State) (q : QFrame) (members : List Nat) : State :=
  let push (s : State) (p : Place) : State :=
    { s with sw := { s.sw with mcq := s.sw.mcq ++ [{ q := { q with place := p, inside := true }, members := members }] } }
  if mcRoom s q then push (freeCredit s q.inLink q.f.tc (inCells q)) .pool
  else if q.f.tc = 2 ∨ q.f.tc = 3 then
    let s := freeCredit s q.inLink q.f.tc (inCells q)
    if q.inLink = 0xFFF then s else bump s (cLink q.inLink (18 + q.f.tc))
  else push s .landing

/-! ### Frames of the spine's own: R168, R266, R267 -/

/-- The lateral link of a frame addressed to a neighbour's SELF_EID of CTX_RING. -/
def ringLink (s : State) (f : Frame) : Option Nat :=
  let w := getR s oCTX_RING
  if f.mc then none
  else if bit w 48 && fld w 23 0 == f.dest then some 2048
  else if bit w 49 && fld w 47 24 == f.dest then some 2049
  else none

/-- The answer for a frame of the spine's own that was dropped and counted: no cause of R99. -/
def dropCounted : Nat := 0x100

/-- A frame addressed to a ring neighbour: TC4 and TC6 are dropped, as is any on a link that is down or
fenced; others go on the lateral link, never looked up in the route table. -/
def ringSend (s : State) (q : QFrame) (l : Nat) : State × Nat :=
  if q.f.tc = 4 ∨ q.f.tc = 6 then (bump s (cCtx q.f.ctx 4), dropCounted)
  else if !eligible s l then (bump s (if isColl q.f.type then cCtx q.f.ctx 4 else cLink l 23), dropCounted)
  else ((placeOn s { q with spray := [l], primary := l } l).1, 0)

/-- The spine originates a frame: routed with partition 64 as source (R168); what is refused on its way
out is not answered (R97). One addressed to SELF_EID is consumed by the spine and never forwarded (R95, R156). A cause
of 0 means that it entered the riser. -/
def originate (s : State) (die : Nat) (f : Frame) : State × Nat :=
  let r := ownFrame s die f
  if f.mc then
    let e := mcastOf r.1 (f.dest % 2 ^ 16)
    let links := (mcMembers r.1 e).filter fun l => !(leafOnly r.2 && isLateral l)
    if mcValid e then (mcEnter r.1 r.2 links, 0) else (r.1, nkUNREACHABLE)
  else if selfEid s == some f.dest then
    ({ r.1 with sw := { r.1.sw with selfIn := r.1.sw.selfIn ++ [r.2] } }, 0)
  else match ringLink s f with
    | some l => ringSend r.1 r.2 l
    | none => routeFrame r.1 r.2 64 true

/-- The riser takes a frame that the spine originates now (R120, R234): a held one would keep the
internal port waiting. -/
def riserTakes (s : State) (die : Nat) (f : Frame) : Bool :=
  let q := (ownFrame s die f).2
  if f.mc then mcRoom s q || !mcValid (mcastOf s (f.dest % 2 ^ 16))
  else
    let t := (originate s die f).1
    !(t.sw.queue.any fun x => x.id == q.id && x.place == .landing)

/-- Send a NACK for a refused frame (R97 to R99, R104); one that may not be answered is counted. R97 gives it the
refused frame's 32 B header as payload; for a frame that came in BL2 form, whose header has 16 B, that is the header of
its BL3 form (DESIGN CHOICE, log entry 62). -/
def sendNack (s : State) (q : QFrame) (cause backoff : Nat) : State :=
  let f := q.f
  let lost (s : State) : State := if q.inLink = 0xFFF then s else bump s (cLink q.inLink 13)
  match selfEid s with
  | none => lost s
  | some self =>
    if f.type = tNACK ∨ f.tc = 0 ∨ f.src = 0 ∨ f.src = 0xFFFFFF ∨ f.src = self then lost s
    else
      let s := bump s (cNack cause)
      let n : Frame :=
        { dest := f.src, src := self, type := tNACK, tc := f.tc, seq := f.seq, ctx := f.ctx, chunk := f.chunk,
          dhash := f.dhash, entropy := f.entropy, ce := f.cm && bit (getR s oCM_CFG) 33, length := 32,
          aux := at_ 24 cause + backoff % 2 ^ 16, payload := bytesOfWords (bl3Hdr f) }
      (originate s q.die n).1

/-- A received frame is refused with a NACK and dropped: its cells are freed (R97, R100). -/
def refuse (s : State) (q : QFrame) (cause backoff : Nat) : State :=
  sendNack (freeCredit s q.inLink q.f.tc (inCells q)) q cause backoff

/-- Finish the delivery of a received frame: a cause is answered, UNREACHABLE counted (R30, R32, R158). -/
def answer (q : QFrame) (r : State × Nat) : State :=
  if r.2 = 0 then r.1
  else
    let s := r.1
    let s := if r.2 = nkUNREACHABLE && q.inLink != 0xFFF then bump s (cLink q.inLink 12) else s
    refuse s q (r.2 % 0x100) 0

/-! ### Frames that leave the riser otherwise -/

/-- Drop one reference to a stored multicast cell; the last frees it (R140). -/
def dropRef (s : State) (id : Nat) : State :=
  { s with sw := { s.sw with
    runner := (s.sw.runner.map fun r => if r.id = id then { r with refs := r.refs - 1 } else r).filter
      fun r => decide (r.refs ≠ 0) } }

/-- Lift a frame out of its queue; the spill state ends with the queue's last frame in the deep riser. -/
def liftFrame (s : State) (q : QFrame) : State :=
  let s := { s with sw := { s.sw with queue := s.sw.queue.filter fun x => decide (x.id ≠ q.id) } }
  let s := if q.place = .deep && !(s.sw.queue.any fun x => x.place == .deep && voqOf x == voqOf q) then
      { s with sw := { s.sw with spilling := s.sw.spilling.filter fun v => decide (v ≠ voqOf q) } }
    else s
  let s := if q.place = .landing then deepFullEnd s q.die else s
  noteQ s q.outLink

/-- What a frame held of the riser is free: the withheld credits of a landing frame's cells that have not begun to
leave, a reference to a stored multicast cell (R119, R140). -/
def freePlace (s : State) (q : QFrame) : State :=
  match q.place with
  | .landing => freeCredit s q.inLink q.f.tc (inCells q - q.sentCells)
  | .runner id => dropRef s id
  | _ => s

/-- Take a frame out of the riser. -/
def takeOut (s : State) (q : QFrame) : State := freePlace (liftFrame s q) q

/-- Discard a frame to slag: counted, and SLAG raised at most once per link per second (R142). -/
def slagCount (s : State) (l tc : Nat) : State :=
  let s := bump s (cLink l (24 + tc))
  let s := modLink s l fun k => { k with slagged := k.slagged + 1 }
  let k := link s l
  if k.slagAt.isSome && !dueOpt s k.slagAt secT then countEvent s 0x302
  else
    let s := setLink s l { k with slagAt := some s.now, slagged := 0 }
    raiseEvent s 0x302 (partLink l) (l + at_ 16 tc) k.slagged

/-- Answer a queued frame that can no longer be delivered (R147, R369). -/
def answerQueued (s : State) (q : QFrame) (cause : Nat) : State :=
  if q.originated then s
  else
    let s := if cause = nkUNREACHABLE && q.inLink != 0xFFF then bump s (cLink q.inLink 12) else s
    sendNack s q cause 0

/-- A copy to a link that is down or fenced is lost; MC_LEAF_DOWN is raised once per group and link-down (R140). -/
def mcCopyLost (s : State) (group l : Nat) : State :=
  let s := bump s (cLink l 14)
  if isLateral l then s
  else if (link s l).mcDown.contains group then countEvent s 0x304
  else
    let s := modLink s l fun k => { k with mcDown := k.mcDown ++ [group] }
    let own := fld (tget ({} : McEntry) s.tbl.mcast group).ctl 6 0
    raiseEvent s 0x304 own l group

/-- A frame that stays in the riser takes another UP lane of its link (R137, R147). -/
def reLane (s : State) (q : QFrame) : State :=
  let n := chooseLane s q.outLink q.hashed q.f.entropy
  { s with sw := { s.sw with
    queue := s.sw.queue.map fun x => if x.id = q.id && x.outLink == q.outLink then { x with outLane := n } else x } }

/-- Move a queued frame that has not begun to leave off a lane or link it can no longer use (R147): it
stays on its link where that has another lane, else it goes to another link of its spray set or on a
detour, or it is answered. -/
def moveFrame (s : State) (q : QFrame) : State :=
  if eligible s q.outLink then reLane s q
  else match q.group with
    | some g => mcCopyLost (takeOut s q) g q.outLink
    | none =>
      if isLateral q.outLink && !q.detourSent then answerQueued (takeOut s q) q nkUNREACHABLE
      else
        let back := { q with f := { q.f with detour := q.f.detour && !q.detourSent }, detourSent := false }
        let r := deliverCore (liftFrame s q) back
        if r.2 = 0 then r.1 else answerQueued (freePlace r.1 q) q r.2

/-- Every frame queued for a link that cannot stay there is moved or answered, in queue order. -/
def moveQueued (s : State) (l : Nat) : State :=
  let stuck := s.sw.queue.filter fun q => q.outLink == l && q.sentCells == 0
    && (!laneUp s q.outLane || fenced s l)
  forEach stuck s moveFrame

end Sys2Proof.Machine
end

