-- ==== Sys2Proof/Machine/LinkBase.lean ====
section
/-! DEFINITION. Lanes, links and fences (chapters 02, 03 and 12): which channel carries a lane, the health
bits, lane and link states, fences of the spine's own, lane death and lane retirement. -/
namespace Sys2Proof.Machine

/-! ### Where a lane lies: R22, R40 -/

def engine (s : State) (n : Nat) : Engine := tget {} s.opt.engines n
def setEngine (s : State) (n : Nat) (e : Engine) : State :=
  { s with opt := { s.opt with engines := tset {} s.opt.engines n e } }
def modEngine (s : State) (n : Nat) (f : Engine → Engine) : State := setEngine s n (f (engine s n))


def posValid (s : State) : Bool := bit (getR s oFABRIC_POS) 16
/-- The spine's position j within its group (R18). -/
def posJ (s : State) : Nat := rf s oFABRIC_POS 12 8
def onePlane (s : State) : Bool := rf s oFABRIC_POS 23 21 == 0

def engineOfLane (q : Nat) : Nat := if q < 4096 then q / 128 else 32 + (q - 4096) / 32
def fibreOfLane (q : Nat) : Nat := if q < 4096 then 2 * (q / 64 % 2) + q % 2 else 0
def colourOfLane (s : State) (q : Nat) : Nat :=
  if q < 4096 then (q / 2 % 32 + 32 - posJ s) % 32 else (q - 4096) % 32

/-- The working channel of a lane, as 256 × engine + channel index (R39, R40). -/
def workKey (s : State) (q : Nat) : Nat :=
  256 * engineOfLane q + 34 * fibreOfLane q + colourOfLane s q

/-- The lane of a working channel (R40); a spare has none of its own. -/
def laneOfKey (s : State) (k : Nat) : Nat :=
  let n := k / 256; let f := k % 256 / 34; let x := k % 256 % 34
  if x ≥ 32 then 0x1FFF
  else if n < 32 then 128 * n + 64 * (f / 2) + 2 * ((x + posJ s) % 32) + f % 2
  else 4096 + 32 * (n - 32) + x

/-- The two spares of the fibre of a channel key, the lower index first. -/
def spareKeys (k : Nat) : List Nat :=
  let b := 256 * (k / 256) + 34 * (k % 256 / 34)
  [b + 32, b + 33]

/-- What a channel holds when nothing of its own is recorded: it follows its engine (R45). -/
def nominalChan (s : State) (k : Nat) (c : Chan) : Chan :=
  let e := (tget ({} : Engine) s.opt.engines (k / 256)).state
  let work := decide (k % 256 % 34 < 32)
  if e = 2 then
    if work then
      { c with state := 2, lane := laneOfKey s k, colour := k % 256 % 34, serves := k % 256 % 34 }
    else { c with state := 5 }
  else if e = 1 then
    if work then
      { c with state := 1, lane := laneOfKey s k, colour := k % 256 % 34, serves := k % 256 % 34 }
    else { c with state := 1 }
  else c

def storedChan (s : State) (d : Dir) (k : Nat) : Chan :=
  match d with
  | .tx => tget {} s.opt.lasers k
  | .rx => tget {} s.opt.drops k

/-- A channel: a state of its own where it has left the nominal one, else its engine's. -/
def chan (s : State) (d : Dir) (k : Nat) : Chan :=
  let c := storedChan s d k
  if c.state = 0 then nominalChan s k c else c

def setChan (s : State) (d : Dir) (k : Nat) (c : Chan) : State :=
  match d with
  | .tx => { s with opt := { s.opt with lasers := tset {} s.opt.lasers k c } }
  | .rx => { s with opt := { s.opt with drops := tset {} s.opt.drops k c } }

def modChan (s : State) (d : Dir) (k : Nat) (f : Chan → Chan) : State := setChan s d k (f (chan s d k))

/-- States in which a channel carries its lane: IN_SERVICE, BORROWED, SPRUED (R73). -/
def carries (c : Chan) : Bool := c.state == 2 || c.state == 6 || c.state == 7

/-- The channel that carries a lane in one direction: a spare that stands in, else the working channel. -/
def laneKey (s : State) (d : Dir) (q : Nat) : Nat :=
  let w := workKey s q
  ((spareKeys w).find? fun k => (chan s d k).lane == q && carries (chan s d k)).getD w

/-- The channel word of a channel of R383 for a lane. -/
def chwOf (d : Dir) (k q : Nat) : Nat := chw (k / 256) (k % 256) q d

/-- A spare that a swap or a calibration can take: tested, locked and idle (R54, R60, R73). -/
def spareFree (c : Chan) : Bool := c.state == 5 && c.tested && c.lane == 0x1FFF && !c.lostLock

/-- A spare that is used up (R376): in service, retired, failed, or being moved to. -/
def spareGone (c : Chan) : Bool :=
  c.state == 2 || c.state == 8 || c.state == 9 || (c.lane != 0x1FFF && c.state != 6)

/-- A fibre of one side with both spares used up. -/
def fibreSpent (t : Tab Chan) (k : Nat) : Bool :=
  (spareKeys k).all fun x => spareGone (tget {} t x)

def anySpent (t : Tab Chan) : Bool :=
  t.any fun e => e.1 % 256 % 34 == 32 && fibreSpent t e.1

/-! ### Degraded operation: R376 -/

def laneRetired (l : Lane) : Bool := l.state == 7

/-- The six conditions of R376 in their bits [15:10] of HEALTH_STATUS. -/
def healthBits (s : State) : Nat :=
  at_ 15 (b2n (s.lnk.lanes.any fun e => laneRetired e.2))
    + at_ 14 (b2n (anySpent s.opt.lasers || anySpent s.opt.drops))
    + at_ 13 (b2n (hasStacks s && s.mem.stks.any fun e => e.2.spare == 0x3F))
    + at_ 12 (b2n (hasStacks s && s.mem.map.any fun e => e.2.retired))
    + at_ 11 (b2n (s.cru.slots.any fun e => e.2.retired))
    + at_ 10 (b2n ((s.hlt.therm.any fun e => e.2.excluded.any id)
        || s.opt.engines.any fun e => e.2.faulty.any id))

def anyFenced (s : State) : Bool := s.lnk.links.any fun e => e.2.fenced

/-- HEALTH_STATUS with the given six conditions (R384). -/
def healthWord (s : State) (bits : Nat) : Nat :=
  at_ 63 (b2n (bits != 0)) + at_ 62 (b2n s.hlt.moduleFenced) + at_ 61 (b2n (anyFenced s))
    + at_ 60 (b2n (!s.hlt.throttled.isEmpty || !s.hlt.limited.isEmpty)) + bits

/-- Each change of any of the six conditions raises DEGRADED (R376). -/
def noteHealth (s : State) : State :=
  let b := healthBits s
  if b = s.hlt.reported then s
  else
    let old := s.hlt.reported
    raiseEvent { s with hlt := { s.hlt with reported := b } } 0x001 0x7F (healthWord s b) (healthWord s old)

/-! ### Journal entries: R62, R302, R438 -/

def journalNote (s : State) (w : Word) : State :=
  { s with boot := { s.boot with journalHeld := s.boot.journalHeld ++ [w] } }

/-- A journal entry of KIND 0 to 3 for a channel. -/
def journalChan (s : State) (kind k colour serves : Nat) : State :=
  journalNote s (mkWord [at_ 63 1, at_ 60 kind, at_ 54 (k / 256), at_ 46 (k % 256), at_ 40 (colour % 64),
    at_ 35 (serves % 32)])

/-! ### LINKCTL: R81 -/

def lcQUIESCE : Nat := 1
def lcRESUME : Nat := 2
def lcDISABLE : Nat := 3

def sendLinkctl (s : State) (q op : Nat) : State :=
  sendOs s q osLINKCTL (mkBody [at_ 96 op, at_ 91 (linkLane q)])

/-! ### Fences: R368 to R371 -/

/-- A link's fence takes effect: QUIESCE on its UP lanes, queued frames answered (R368, R369). -/
def fenceEffect (s : State) (l : Nat) : State :=
  moveQueued (forEach (upLanes s l) s fun s q => sendLinkctl s q lcQUIESCE) l

/-- Fence a link from a source: 1 FLAP, 2 DEAD, 3 DRIVER. `n` is what LINK_FENCED carries. -/
def fenceLink (s : State) (l src n : Nat) : State :=
  let s := modLink s l fun k => { k with fenced := true, source := src, wanted := false }
  let s := raiseEvent s 0x002 (partLink l) (l + at_ 12 src) (min 255 n)
  fenceEffect s l

/-- Automatic fences within the present PERIOD. -/
def recentFences (s : State) : List Nat :=
  s.hlt.autoFences.filter fun t => decide (s.now < t + rf s oFENCE_CFG 55 44 * secT)

/-- A trigger of R370 (1 FLAP, 2 DEAD) acts within the budget of R371. -/
def autoFence (s : State) (l src : Nat) : State :=
  if !bit (getR s oFENCE_CFG) 0 || (link s l).fenced then s
  else
    let r := recentFences s
    if r.length < rf s oFENCE_CFG 63 56 then
      fenceLink { s with hlt := { s.hlt with autoFences := r ++ [s.now] } } l src (r.length + 1)
    else
      raiseEvent (modLink s l fun k => { k with wanted := true }) 0x004 (partLink l) (l + at_ 12 src) 0

/-- The downs of a link within the present FLAP_WINDOW (R370). -/
def recentDowns (s : State) (l : Nat) : List Nat :=
  (link s l).downs.filter fun t => decide (s.now < t + rf s oFENCE_CFG 35 24 * secT)

/-- A down of R370 that the driver has not caused: counted, and FLAP judged. -/
def countDown (s : State) (l : Nat) : State :=
  let d := recentDowns s l ++ [s.now]
  let s := modLink s l fun k => { k with downs := d, deadSince := some s.now }
  if rf s oFENCE_CFG 43 36 ≤ d.length then autoFence s l 1 else s

/-! ### Link states: R84, R88, R111 -/

def linkEnabled (s : State) (l : Nat) : Bool := bit (getR s (oLINK_CFG l)) 0

/-- The protocol a link's LINK_CFG selects (R106). -/
def linkBl2Cfg (s : State) (l : Nat) : Bool := s.boot.strapBl2 || bit (getR s (oLINK_CFG l)) 1

def lanesIn (s : State) (l st : Nat) : Nat := ((lanesOf l).filter fun q => (lane s q).state == st).length

/-- A link that may leave the down state: FABRIC_POS is valid, the link enabled, no lateral link of a single
plane, no retry awaited, not disabled by its partner (R19, R20, R26, R56, R105). -/
def linkMayRise (s : State) (l : Nat) : Bool :=
  posValid s && linkEnabled s l && !(isLateral l && onePlane s) && (link s l).retryAt.isNone
    && !(link s l).partnerDisabled

/-- The state LINK_STATUS reads from its lanes. -/
def linkStateOf (s : State) (l : Nat) : Nat :=
  let up := lanesIn s l 4
  if !linkEnabled s l then 4
  else if up = 0 then
    let training := lanesIn s l 1 + lanesIn s l 2 + lanesIn s l 3
    if training = 0 || !linkMayRise s l then 0 else 1
  else if up + lanesIn s l 5 = (lanesOf l).length then 2 else 3

/-- A link comes up: every credit counter starts afresh (R100, R101). -/
def startCredits (s : State) (l : Nat) : State :=
  let g : Tab Nat := (List.range 8).map fun t => (t, grantOf s l t)
  modLink s l fun k => { k with
    credit := g, creditSent := g, granted := g, received := [], sent := [], limit := [], everUp := true, deadSince := none,
    mcDown := [], bl2 := linkBl2Cfg s l }

def linkUpState (st : Nat) : Bool := st == 2 || st == 3

/-- Follow a link's state after its lanes changed. `cause` is the DOWN_CAUSE of a down, `counts` whether
the down counts for R370. -/
def refreshLink (s : State) (l cause : Nat) (counts : Bool) : State :=
  let old := (link s l).state
  let new := linkStateOf s l
  let ups := lanesIn s l 4
  let s := if linkUpState new && !linkUpState old then startCredits s l else s
  let s := modLink s l fun k => { k with state := new }
  if linkUpState old && !linkUpState new then
    let s := modLink s l fun k => { k with cause := cause, partner := k.partner / 2 * 2 }
    let s := raiseEvent s 0x201 (partLink l) (l + at_ 16 cause) 0
    if counts && new != 4 then countDown s l else s
  else if !linkUpState old && linkUpState new then
    let s := raiseEvent s 0x202 (partLink l) (l + at_ 16 ups) 0
    if new = 3 then raiseEvent s 0x203 (partLink l) (l + at_ 16 ups) 0 else s
  else if old = 2 && new = 3 then raiseEvent s 0x203 (partLink l) (l + at_ 16 ups) 0
  else if new = 0 && old != 0 && !posValid s then modLink s l fun k => { k with cause := 9 }
  else s

/-- Move a lane to a state without any other effect. -/
def putLaneState (s : State) (q st : Nat) : State := modLane s q fun l => { l with state := st }

/-- Lanes of one link reach UP together (R84, R88): the link comes up on them, and a fence that stands is
announced (R368). A link that must stay down keeps them where they are. -/
def lanesToUp (s : State) (l : Nat) (qs : List Nat) : State :=
  if !linkMayRise s l || qs.isEmpty then s
  else
    let s := forEach qs s fun s q => modLane s q fun x =>
      { x with
        state := 4, lastHb := s.now, quickAt := none, quickOwn := none, quickPartner := none, quickErr := [],
        quickSpare := false, needFull := false, wakeDirect := false, hcrcBad := false }
    let s := refreshLink s l 0 false
    if fenced s l then forEach qs s fun s q => sendLinkctl s q lcQUIESCE else s

def laneToUp (s : State) (q : Nat) : State := lanesToUp s (linkOf q) [q]

/-! ### Lanes that stop: R84, R88, R147 -/

/-- What a receiver and a transmitter hold for a lane goes when it dies or goes down. -/
def clearLane (l : Lane) : Lane :=
  { l with
    good := 0, bad := 0, blockLock := false, nextSeq := 0, held := [], replay := none, expect := 0,
    awaiting := false, attempt := 0, rx := [], rxRemain := 0, rxId := 0, rxPend := none, hcrcBad := false,
    osOut := [], buf := [], quickAt := none, quickPartner := none, quickOwn := none, quickErr := [],
    quickSpare := false, posSeen := false, partnerTx := 0, quiesced := false }

/-- Frames that have begun to leave on a lane are lost with it (R88, R147). -/
def loseStarted (s : State) (q : Nat) : State :=
  forEach (s.sw.queue.filter fun x => x.outLane == q && decide (0 < x.sentCells)) s takeOut

/-- Cells still in a lane's egress buffer free their credits as they go (R119). -/
def freeOwed (s : State) (c : BufCell) : State :=
  match c.owes with
  | none => s
  | some (l, tc, n) => freeCredit s l tc n

/-- The bytes that a frame cut short would still have had: the spec does not say what its last cells then carry
(log entry 54). -/
def cutBytes (ctr n : Nat) : List Byte :=
  (List.range n).map fun i => BitVec.ofNat 8 (Config.freeNat ctr / 2 ^ (8 * i) % 256)

/-- A frame held only in part is discarded with its receive lane (R88); one that has begun to leave goes on with
free bytes. -/
def loseArriving (s : State) (q : Nat) : State :=
  let x := lane s q
  let s := match x.rxPend with
    | none => s
    | some (f, _) => freeCredit s f.inLink f.f.tc (inCells f)
  if x.rxId = 0 then s
  else
    let mine (f : QFrame) : Bool := f.rx == x.rxId
    let s := forEach (s.sw.queue.filter fun f => mine f && f.sentCells == 0) s takeOut
    let s := forEach (s.sw.mcq.filter fun m => mine m.q) s fun s m => freePlace s m.q
    let ctr := s.freeCtr
    let s := takeFree s
    { s with sw := { s.sw with
      mcq := s.sw.mcq.filter fun m => !mine m.q
      queue := s.sw.queue.map fun f =>
        if mine f then
          { f with rx := 0, f := { f.f with payload := f.f.payload ++ cutBytes ctr (f.f.length - f.f.payload.length) } }
        else f } }

/-- A lane leaves service: it dies (R88), or goes down without dying, as its light ended, its engine is dark or its
link is disabled (R45, R84). -/
def laneToDown (s : State) (q st : Nat) : State :=
  let s := forEach (lane s q).buf (loseArriving s q) freeOwed
  loseStarted (modLane s q fun l => { clearLane l with state := st }) q

/-- An engine whose lanes may lock: BRINGUP or READY (R45, R84). -/
def engineLit (s : State) (n : Nat) : Bool := (engine s n).state == 1 || (engine s n).state == 2

def moduleReadyNow (s : State) : Bool := s.boot.modState == 1

end Sys2Proof.Machine
end

