-- ==== Sys2Proof/Machine/Memory.lean ====
section
/-! DEFINITION. Commands of chapter 09: channel rotation, transfers with their errors, page and channel
retirement, relief blocks, scrubs, and fabric memory requests. -/
namespace Sys2Proof.Machine

/-! ### Retirement and repair: R290, R291, R295, R300, R302 -/

/-- The channel word SC of R383. -/
def scWord (k h : Nat) : Nat := at_ 8 k + h

def rotating (s : State) : Nat := (s.mem.rots.filter fun e => decide (e.2.phase ≠ 0)).length

def noSpare : Nat := 0x3F

/-- A journal entry of KIND 4 CH_FAILED or 5 CH_RETIRED (R302, R438). -/
def journalCh (s : State) (kind k h l : Nat) : State :=
  journalNote s (mkWord [at_ 63 1, at_ 60 kind, at_ 30 k, at_ 24 h, at_ 14 l])

/-- A channel is FAILED (R289, R291): nothing waits for it. -/
def failChannel (s : State) (k h : Nat) : State :=
  let s := modMemCh s k h fun c => { c with state := 6, logical := 0x3FF, rdq := [], wrq := [] }
  let s := modStk s k fun t => { t with failed := t.failed + 1 }
  noteHealth (journalCh (raiseEvent s 0x703 0x7F (scWord k h) 0) 4 k h 0)

/-- A logical channel is retired and waits for its rebuild; the module makes at most 16 (R300, R301). -/
def markRetired (s : State) (k h l : Nat) : State :=
  let full := decide (16 ≤ s.mem.relief.length + s.mem.pendingRebuild.length)
  let s := setMap s l { mapOf s l with retired := true, rebuilt := false }
  let s := modMemCh s k h fun c => { c with state := 7, rdq := [], wrq := [] }
  { s with mem := { s.mem with
    lines := s.mem.lines.filter fun e => decide (e.1 / 4 % 640 ≠ l)
    pendingRebuild := if full then s.mem.pendingRebuild else addNew s.mem.pendingRebuild l
    reliefFull := s.mem.reliefFull || full } }

/-- The logical channel on a physical channel is retired (R300). -/
def retireLogical (s : State) (k h : Nat) : State :=
  let l := (memCh s k h).logical
  if 640 ≤ l then s
  else
    let s := markRetired s k h l
    noteHealth (journalCh (raiseEvent s 0x704 0x7F (scWord k h) l) 5 k h l)

/-- A rotation of channel x onto the stack's spare begins with its copy (R286, R287). -/
def startRot (s : State) (k x : Nat) (repair : Bool) : State :=
  let y := (stk s k).spare
  let s := modMemCh s k x fun c => { c with state := 2 }
  let s := modMemCh s k y fun c => { c with state := 3, logical := 0x3FF }
  modRot s k fun r => { r with
    phase := 1, src := x, dst := y, repair := repair, copyLine := 0, written := [], zeroed := [], poisonY := [], startAt := s.now }

/-- The next channel of a stack to rotate: a named request, else the pass, and in it first a channel whose
stack has moved by more than RETRAIN_DT since its training (R290). -/
def nextRot (s : State) (k : Nat) : Option Nat :=
  let mapped (h : Nat) : Bool := (memCh s k h).state == 0
  let moved (h : Nat) : Bool :=
    let a := (memCh s k h).trainTemp; let b := (stk s k).temp
    decide (rf s oMEM_ROT_CFG 13 8 < (a - b) + (b - a))
  match (rot s k).requests.find? mapped with
  | some h => some h
  | none =>
    if !bit (getR s oMEM_ROT_CFG) 0 then none
    else
      let p := (rot s k).pass.filter mapped
      match p.find? moved with
      | some h => some h
      | none => p.head?

/-- The stacks rotate and are patrolled: in ACTIVE and PARKED, and on the way to and from them (R417, R418). -/
def stacksRun (s : State) : Bool :=
  let p := s.pwr
  decide (p.state ≤ 1) || (p.state == 4 && p.parkPoint.isNone) || (p.state == 5 && p.wakeFrom == 1)

/-- A stack that makes no rotation starts what waits for it: repairs first, else within ROT_MAX (R290). A
stack without a spare makes none, and a repair then retires its channel (R300). -/
def rotNext (s : State) (k : Nat) : State :=
  let r := rot s k
  if !stacksRun s || decide (r.phase ≠ 0) then s
  else match r.repairs with
    | h :: rest =>
      if (stk s k).spare = noSpare then
        forEach (h :: rest) (setRot s k { r with repairs := [] }) fun s h => retireLogical s k h
      else startRot (setRot s k { r with repairs := rest }) k h true
    | [] =>
      if (stk s k).spare = noSpare || decide (rf s oMEM_ROT_CFG 36 32 ≤ rotating s) then s
      else match nextRot s k with
        | none => s
        | some h =>
          let s := setRot s k { r with requests := remNat r.requests h, pass := remNat r.pass h }
          startRot s k h false

/-- Every stack starts what waits for it. -/
def rotAll (s : State) : State := forEach (List.range 20) s rotNext

/-- A stack's rotation is over. -/
def endRot (s : State) (k : Nat) : State :=
  modRot s k fun r => { r with phase := 0, src := noSpare, dst := noSpare, repair := false, written := [], zeroed := [], poisonY := [] }

/-- A rotation in copy or awaiting its switch ends before the switch: X stays mapped, complete and current
(R287, R291). Causes: 1 other channel faulty, 2 power-state entry. -/
def abortRot (s : State) (k cause : Nat) : State :=
  let r := rot s k
  let s := modMemCh s k r.src fun c => { c with state := 0 }
  let s := modMemCh s k r.dst fun c => { c with state := 1 }
  raiseEvent (endRot s k) 0x705 0x7F (scWord k r.src) cause

/-- Rotations in copy end at entry to RETAIN or STANDBY (R291). -/
def abortCopies (s : State) : State :=
  forEach (List.range 20) s fun s k => if (rot s k).phase = 1 then abortRot s k 2 else s

/-- A channel must be repaired (R286, R290, R298): onto the spare at once, or after the rotation that has
it, or without one its logical channel is retired (R300). -/
def repairChannel (s : State) (k h : Nat) : State :=
  let r := rot s k
  if (memCh s k h).state ≠ 0 then s
  else if r.repairs.contains h then s
  else if r.phase = 0 then
    if (stk s k).spare = noSpare then retireLogical s k h else startRot s k h true
  else if (r.phase = 1 ∨ r.phase = 2) ∧ !r.repair then startRot (abortRot s k 1) k h true
  else setRot s k { r with repairs := r.repairs ++ [h] }

/-- A channel is declared faulty (R291, R295). -/
def declareFaulty (s : State) (k h : Nat) : State :=
  let r := rot s k
  if (r.phase = 1 ∨ r.phase = 2) ∧ r.dst = h then
    let s := modMemCh s k r.src fun c => { c with state := 0 }
    let s := modStk (endRot s k) k fun t => { t with spare := noSpare }
    rotAll (failChannel s k h)
  else
    let s := raiseEvent s 0x701 0x7F (scWord k h) 0
    if (r.phase = 1 ∨ r.phase = 2) ∧ r.src = h then setRot s k { r with repair := true }
    else repairChannel s k h

/-! ### Rotation: R286 to R290 -/

/-- A periodic pass of a stack begins every INTERVAL, in PARKED too (R290, R417). -/
def rotPassStart (k : Nat) (s : State) : State :=
  let r := rot s k
  if hasStacks s && moduleReadyNow s && stacksRun s && bit (getR s oMEM_ROT_CFG) 0 then
    let s := awaitOpt s r.lastPass (rf s oMEM_ROT_CFG 63 44 * secT)
    let all := (List.range 33).filter fun h => (memCh s k h).state == 0
    rotNext (setRot s k { r with pass := all, lastPass := some s.now }) k
  else s

def execRotPassStart (stack : Nat) (s : State) : Out := .next (rotPassStart stack s)

/-- MEM_ROT_REQ: GO and a MAPPED channel queue a rotation; any other write is ignored (R290, R310). -/
def memRotReq (v : Word) (s : State) : State :=
  let k := fld v 12 8
  let h := fld v 5 0
  if hasStacks s && bit v 63 && decide (k < 20) && decide (h < 33) && (memCh s k h).state == 0 then
    rotNext (modRot s k fun r => { r with requests := addNew r.requests h }) k
  else s

/-- Every line of X has been copied (R286). -/
def rotCopyDone (k : Nat) (s : State) : State :=
  let r := rot s k
  if r.phase = 1 then setRot s k { r with phase := 2, copyLine := 8388608 } else s

def execRotCopyDone (stack : Nat) (s : State) : Out := .next (rotCopyDone stack s)

/-- X fails its training or its test: FAILED, and the stack has no spare (R289). -/
def rotFail (s : State) (k : Nat) : State :=
  let r := rot s k
  let s := modStk s k fun t => { t with spare := noSpare }
  rotAll (failChannel (endRot s k) k r.src)

/-- X's interface has been trained again, and its line test starts (R289). -/
def rotTrainDone (k : Nat) (ok : Bool) (s : State) : State :=
  let r := rot s k
  if r.phase ≠ 3 then s
  else if !ok then rotFail s k
  else
    let s := modMemCh s k r.src fun c => { c with state := 5, trainTemp := (stk s k).temp }
    setRot s k { r with phase := 4 }

def execRotTrainDone (stack : Nat) (ok : Bool) (s : State) : Out := .next (rotTrainDone stack ok s)

/-- The test of X ends: X is the stack's spare, or FAILED (R286, R289). -/
def rotTestDone (k : Nat) (ok : Bool) (s : State) : State :=
  let r := rot s k
  if r.phase ≠ 4 then s
  else if !ok then rotFail s k
  else
    let s := modMemCh s k r.src fun c => { c with state := 1 }
    rotAll (endRot s k)

def execRotTestDone (stack : Nat) (ok : Bool) (s : State) : Out := .next (rotTestDone stack ok s)

/-! ### Transfers and errors: R295 to R299 -/

/-- The page of a line within its channel, and its bank: R283, R298. A page is numbered by local granule
div 8. -/
def pageOf (line : Nat) : Nat := line / 4 / 8

def bankOf (page : Nat) : Nat :=
  let n := 8 * page
  let bg := ((n >>> 3) ^^^ (n >>> 9)) % 4
  let bank := ((n >>> 5) ^^^ (n >>> 11)) % 8
  let layer := ((n >>> 8) ^^^ (n >>> 14)) % 2
  32 * layer + 8 * bg + bank

/-- Count a corrected error of a page in the tracker of 64 pages; a full tracker gives up the entry with
the lowest count, among equals a free choice (log entry 4). -/
def trackPage (s : State) (k h page : Nat) : State :=
  let c := memCh s k h
  if c.pages.any fun p => p.1 == page then
    setMemCh s k h { c with pages := c.pages.map fun p => if p.1 = page then (p.1, p.2 + 1) else p }
  else if c.pages.length < 64 then setMemCh s k h { c with pages := c.pages ++ [(page, 1)] }
  else
    let low := (c.pages.map (·.2)).foldl min (nth (0, 0) c.pages 0).2
    let ties := (List.range 64).filter fun i => (nth (0, 0) c.pages i).2 == low
    let i := nth 0 ties (Config.freeNat s.freeCtr % ties.length)
    setMemCh (takeFree s) k h { c with pages := setNth c.pages i (page, 1) }

/-- A page whose count has reached PAGE_CE_LIMIT is retired: to a redundant row of its bank, or without
one the channel is repaired; not on the source of a copy (R291, R298). -/
def judgePages (s : State) (k h : Nat) : State :=
  let c := memCh s k h
  if c.retiring.isSome ∨ c.state ≠ 0 then s
  else match c.pages.find? fun p => decide (rf s oMEM_CFG 39 32 ≤ p.2) with
    | none => s
    | some p =>
      if tget 0 c.rowsUsed (bankOf p.1) < 2 then setMemCh s k h { c with retiring := some (p.1, s.now) }
      else repairChannel (setMemCh s k h { c with pages := c.pages.filter fun x => decide (x.1 ≠ p.1) }) k h

/-- An uncorrectable line is rewritten with the poison marker; MEM_UE_LOG latches the first (R297). -/
def uncorrectable (s : State) (k h line key : Nat) : State :=
  let w := mkWord [at_ 63 1, at_ 58 k, at_ 52 h, at_ 31 (line / 4), at_ 29 (line % 4)]
  let s := putLine s key .poison
  let s := if bit (getR s oMEM_UE_LOG) 63 then s else putR s oMEM_UE_LOG w
  raiseEvent s 0x702 0x7F (scWord k h) w.toNat

/-- The first attempt without a parity error among four, and the parity errors before it (R295). -/
def outcome : Nat → List TransferResult → Nat → Option (List Nat) × Nat
  | 0, _, n => (none, n)
  | _, [], n => (none, n)
  | f + 1, r :: rest, n => if r.parityError then outcome f rest (n + 1) else (some r.errors, n)

/-- Count one moved line and a change of direction (R292, R393). -/
def countMove (s : State) (k h : Nat) (write : Bool) : State :=
  let c := memCh s k h
  let d := if write then 2 else 1
  let s := bump s (cChan k h (if write then 1 else 0))
  let s := if c.dir ≠ 0 ∧ c.dir ≠ d then bump s (cChan k h 2) else s
  setMemCh s k h { c with dir := d, run := if c.dir = d then c.run + 1 else 1 }

/-- A requester that waits for what a read returns (R295, R297). -/
def readsForUse : MemUser → Bool
  | .plan | .update | .fabric => true
  | _ => false

/-- A line that its channel gave is judged by its check (R297). -/
def judgeRead (s : State) (k h line key : Nat) (errors : List Nat) : State :=
  match lineVerdict (lineAt s key) errors with
  | .good => s
  | .poison => bump s (cChan k h 5)
  | .corrected _ =>
    let s := bump s (cChan k h 3)
    let s := modMemCh s k h fun c => { c with ce := min 0xFFFF (c.ce + 1) }
    judgePages (trackPage s k h (pageOf line)) k h
  | .bad => uncorrectable s k h line key

/-- A transfer whose fourth attempt fails (R291, R295): a read returns POISONED to its requester, the copy's
writes the poison marker to Y. -/
def transferFails (s : State) (k h line key : Nat) (write : Bool) (user : MemUser) : State :=
  let s := declareFaulty s k h
  if write then s
  else if user = .copy then
    let r := rot s k
    if r.phase = 1 ∧ r.src = h ∧ !marked r (memCh s k h).logical line then
      setRot s k { r with poisonY := addNew r.poisonY line }
    else s
  else if readsForUse user then
    { s with mem := { s.mem with readFailed := addNew s.mem.readFailed key } }
  else s

/-- The copy and the patrol have read one line more. -/
def noteRead (s : State) (k h line : Nat) (user : MemUser) : State :=
  let l := (memCh s k h).logical
  let r := rot s k
  match user with
  | .copy => if r.phase = 1 ∧ r.src = h then setRot s k { r with copyLine := max r.copyLine (line + 1) } else s
  | .patrol =>
    if tget 0 s.mem.patrol l = line then { s with mem := { s.mem with patrol := tset 0 s.mem.patrol l (line + 1) } }
    else s
  | _ => s

/-- A channel that takes a transfer: MAPPED or COPY_SRC, or COPY_DST for a write, the copy's or one that is mirrored
(R287). -/
def channelServes (s : State) (k h : Nat) (write : Bool) : Bool :=
  let c := memCh s k h
  c.state == 0 || c.state == 2 || (c.state == 3 && write)

/-- One line is moved (R295 to R297): its retries, its error check, the copy's and the patrol's progress. -/
def moveLine (s : State) (k h : Nat) (write : Bool) (x : MemXfer) : State :=
  let c := memCh s k h
  let o := outcome 4 x.tries 0
  if !channelServes s k h write then s
  else
    let key := 4 * granuleOf c.logical x.line + x.line % 4
    let n := min 3 o.2
    let s := bumpN s (cChan k h 4) n
    let s := modMemCh s k h fun c => { c with retries := min 0xFFFF (c.retries + n) }
    match o.1 with
    | none => transferFails s k h x.line key write x.user
    | some e =>
      let s := countMove s k h write
      if write then s else judgeRead (noteRead s k h x.line x.user) k h x.line key e

/-! ### The controller of a channel: R286, R292 -/

/-- The order of precedence of R292. -/
def userRank : MemUser → Nat
  | .plan => 1
  | .update => 2
  | .deep => 3
  | .fabric => 4
  | .copy | .scrub | .patrol => 5

/-- Lines that the bus moves in one direction while the other waits (R292). -/
def runLines : Nat := 256

/-- A line of precedence 4 to 6 that waits on a stack that limits its traffic: these take a quarter of the channel's
time, and a copy slot is none of them (R380). -/
def quarterWaits (lim : Bool) (c : MemCh) (x : MemXfer) : Bool :=
  lim && decide (3 ≤ userRank x.user) && decide (c.freeAt < c.quarterAt) && !(x.user == .copy && c.slots % 64 == 63)

/-- The places in a queue of what may be served now. -/
def servable (lim : Bool) (c : MemCh) (q : List MemXfer) : List Nat :=
  (List.range q.length).filter fun i => (q[i]?.map fun x => quarterWaits lim c x) == some false

/-- The next line is a write: the bus keeps its direction until 256 lines have moved in it or its queue is empty. -/
def nextWrites (lim : Bool) (c : MemCh) : Bool :=
  if (servable lim c c.wrq).isEmpty then false
  else if (servable lim c c.rdq).isEmpty then true
  else (c.dir == 2) == decide (c.run < runLines)

/-- The places in a queue of what may be moved next: in one command slot of 64 the copy's lines, else those of the
highest precedence (R286, R292). -/
def mayMove (lim : Bool) (c : MemCh) (q : List MemXfer) : List Nat :=
  let l := servable lim c q
  let copies := l.filter fun i => (q[i]?.map (·.user)) == some .copy
  if c.slots % 64 = 63 ∧ !copies.isEmpty then copies
  else
    let best := (l.filterMap fun i => q[i]?.map fun x => userRank x.user).foldl min 9
    l.filter fun i => (q[i]?.map fun x => userRank x.user) == some best

/-- Which of several: the controller reorders requests for open pages and free banks, which is a free value (R292,
log entry 4). -/
def pickOne (s : State) (l : List Nat) : State × Nat :=
  match l with
  | [i] => (s, i)
  | _ => (takeFree s, nth 0 l (Config.freeNat s.freeCtr % l.length))

/-- The stack limits its traffic (R380, R413). -/
def stackLimits (s : State) (k : Nat) : Bool := s.hlt.limited.contains k

/-- The controller takes the next line off its queues: 0.625 ns of the bus, after 14 ns where it turns round (R282,
R292); where all that waits is held back the bus stays idle until a quarter of its time allows the next (R380). -/
def serveNext (s : State) (k h : Nat) : State :=
  let c := memCh s k h
  let lim := stackLimits s k
  let w := nextWrites lim c
  let q := if w then c.wrq else c.rdq
  if (mayMove lim c q).isEmpty then modMemCh s k h fun c => { c with freeAt := max c.freeAt c.quarterAt }
  else
    let o := pickOne s (mayMove lim c q)
    match q[o.2]? with
    | none => s
    | some x =>
      let turn := decide (c.dir ≠ 0) && (c.dir == 2) != w
      let start := c.freeAt + (if turn then 14 * nsT else 0)
      let slow := lim && decide (3 ≤ userRank x.user) && !(x.user == .copy && c.slots % 64 == 63)
      let s := modMemCh o.1 k h fun c => { c with
        rdq := if w then c.rdq else c.rdq.eraseIdx o.2
        wrq := if w then c.wrq.eraseIdx o.2 else c.wrq
        freeAt := start + 75
        quarterAt := if slow then start + 4 * 75 else c.quarterAt
        slots := (c.slots + 1) % 64 }
      moveLine s k h w x

/-- What has waited is moved as far as the bus has become free by now. -/
def serveDue (k h : Nat) : Nat → State → State
  | 0, s => s
  | n + 1, s =>
    let c := memCh s k h
    if c.rdq.isEmpty && c.wrq.isEmpty || decide (s.now < c.freeAt) then s else serveDue k h n (serveNext s k h)

/-- Every channel moves what it can. -/
def serveChannels (s : State) : State :=
  forEach (s.mem.chans.map (·.1)) s fun s i => serveDue (i / 33) (i % 33) 1024 s

/-- Lines that a queue holds (R292). -/
def queueLines : Nat := 256

/-- A full queue takes no request: the requester waits until the controller has moved a line of it. -/
def makeRoom (k h : Nat) (write : Bool) : Nat → State → State
  | 0, s => s
  | n + 1, s =>
    let c := memCh s k h
    if (if write then c.wrq else c.rdq).length < queueLines then s
    else makeRoom k h write n (serveNext (await s c.freeAt 0) k h)

/-- A write enters the queue of the channel that is copied to: the copy's is discarded where its line is marked, any
other marks it (R287). None: discarded. -/
def mirrorEnters (s : State) (k h line : Nat) (user : MemUser) : Option State :=
  let r := rot s k
  if (memCh s k h).state ≠ 3 then some s
  else if user = .copy then if marked r (memCh s k r.src).logical line then none else some s
  else some (setRot s k (markLine r line))

/-- One channel transfer: it enters the queue of its direction, and the controller moves what it can by now (R292). -/
def memTransfer (k h line : Nat) (write : Bool) (user : MemUser) (tries : List TransferResult) (s : State) : State :=
  let o := outcome 4 tries 0
  if !hasStacks s || !stacksRun s || !channelServes s k h write || decide (8388608 ≤ line) ||
      (o.1.isNone && decide (o.2 < 4)) then s
  else match mirrorEnters s k h line user with
    | none => s
    | some s =>
      let s := makeRoom k h write 1024 (serveDue k h 1024 s)
      let x : MemXfer := { user := user, line := line, tries := tries }
      let s := modMemCh s k h fun c => { c with
        freeAt := if c.rdq.isEmpty && c.wrq.isEmpty then max c.freeAt s.now else c.freeAt
        rdq := if write then c.rdq else c.rdq ++ [x]
        wrq := if write then c.wrq ++ [x] else c.wrq }
      serveDue k h 1 s

def execMemTransfer (stack ch line : Nat) (write : Bool) (user : MemUser) (tries : List TransferResult)
    (s : State) : Out := .next (memTransfer stack ch line write user tries s)

/-! ### The switch of a rotation: R288 -/

/-- The writes issued to a channel complete (R288). -/
def finishWrites (k h : Nat) (s : State) : State :=
  forEach (memCh s k h).wrq (modMemCh s k h fun c => { c with wrq := [] }) fun s x => moveLine s k h true x

/-- The map entry changes from X to Y once the writes issued have completed on both; requests held go to Y (R288).
Lines poisoned on Y alone read POISONED from now on. -/
def rotSwitch (k : Nat) (s : State) : State :=
  let s := if (rot s k).phase = 2 then finishWrites k (rot s k).dst (finishWrites k (rot s k).src s) else s
  let r := rot s k
  if r.phase ≠ 2 then s
  else
    let held := (memCh s k r.src).rdq
    let l := (memCh s k r.src).logical
    let s := setMap s l { mapOf s l with ch := r.dst }
    let s := forEach r.poisonY s fun s n => putLine s (4 * (640 * (n / 4) + l) + n % 4) .poison
    let s := modMemCh s k r.dst fun c => { c with state := 0, logical := l, rdq := c.rdq ++ held }
    let s := modMemCh s k r.src fun c => { c with state := 4, logical := 0x3FF, rdq := [] }
    let s := modStk s k fun t => { t with spare := r.src }
    setRot s k { r with phase := 3, written := [], zeroed := [], poisonY := [] }

def execRotSwitch (stack : Nat) (s : State) : Out := .next (rotSwitch stack s)

/-- A page's data lie in a redundant row (R298). -/
def pageRetirementDone (k h : Nat) (s : State) : State :=
  let c := memCh s k h
  match c.retiring with
  | none => s
  | some (p, _) =>
    let b := bankOf p
    let s := setMemCh s k h { c with
      retiring := none, repairRows := c.repairRows - 1, rowsUsed := tset 0 c.rowsUsed b (tget 0 c.rowsUsed b + 1)
      pages := c.pages.filter fun x => decide (x.1 ≠ p) }
    judgePages (bump s (cChan k h 6)) k h

def execPageRetirementDone (stack ch : Nat) (s : State) : Out := .next (pageRetirementDone stack ch s)

/-- The pass in progress has read every line of the channels that are mapped (R299; log entry 80). -/
def patrolDone (s : State) : Bool :=
  s.mem.patrolAt.isNone || (liveChans s).all fun l => decide (8388608 ≤ tget 0 s.mem.patrol l)

/-- A patrol pass starts, the one before having read every line, and clears the trackers (R298, R299); in PARKED
too (R417). -/
def patrolPassStart (s : State) : State :=
  if hasStacks s && moduleReadyNow s && stacksRun s && bit (getR s oMEM_CFG) 0 && patrolDone s then
    let s := awaitOpt s s.mem.patrolAt (rf s oMEM_CFG 63 44 * secT)
    { s with mem := { s.mem with
      patrolAt := some s.now, patrol := [], chans := tmap {} s.mem.chans fun _ c => { c with pages := [] } } }
  else s

def execPatrolPassStart (s : State) : Out := .next (patrolPassStart s)

/-- The sensor has read 83 °C or less for 1 s, and refresh returns to normal (R294). -/
def memHotClear (k : Nat) (s : State) : State :=
  let t := stk s k
  if t.hot ∧ t.coolSince.isSome then
    let s := awaitOpt s t.coolSince secT
    raiseEvent (modStk s k fun t => { t with hot := false, coolSince := none }) 0x708 0x7F k t.temp
  else s

def execMemHotClearExpiry (stack : Nat) (s : State) : Out := .next (memHotClear stack s)

/-! ### Rebuild and scrub: R301, R304 -/

/-- A RECAST_OPEN starts the rebuilds that wait: a region in the block's way raises RELIEF_BLOCKED (R301). What a
scrub has still to write in the block is written with the poison marker instead. -/
def startRebuild (s : State) (l : Nat) : State :=
  let rows := nextReliefRows s
  let base := reliefBase s - 640 * rows
  match (regions s).find? fun e => decide (base < rgBase (emVal e.2) + rgSize (emVal e.2)) with
  | some e => raiseEvent s 0x706 0x7F l (rgId (emVal e.2))
  | none =>
    { s with mem := { s.mem with
      relief := s.mem.relief ++ [{ base := base, rows := rows, logical := l, hosts := liveChans s, ready := false }]
      pendingRebuild := remNat s.mem.pendingRebuild l
      scrubbing := s.mem.scrubbing.flatMap fun x => rangeLess x.1 x.2 base (640 * rows)
      lines := s.mem.lines.filter fun e => decide (e.1 / 4 < base) || decide (reliefBase s ≤ e.1 / 4) } }

def startRebuilds (s : State) : State := forEach s.mem.pendingRebuild s startRebuild

/-- The redirection of a retired channel is in force (R301): every granule reads POISONED until written.
The block holds no deep-riser frame (log entry 25). -/
def rebuildComplete (l : Nat) (s : State) : State :=
  if (s.mem.relief.any fun r => r.logical == l && !r.ready) && decide (deepUsed s ≤ deepSize s) then
    let s := setMap s l { mapOf s l with rebuilt := true }
    let s := { s with mem := { s.mem with
      rebuilds := s.mem.rebuilds + 1
      relief := s.mem.relief.map fun r => if r.logical = l then { r with ready := true } else r } }
    raiseEvent s 0x707 0x7F l s.mem.rebuilds
  else s

def execRebuildComplete (l : Nat) (s : State) : Out := .next (rebuildComplete l s)

/-- Zero a granule on a rebuilt channel line by line. -/
def zeroGranule (s : State) (g : Nat) : State :=
  forEach (List.range 4) s fun s i => writeLine s g i (.data 0)

/-- A range is written with zeros (R304): the lines of channels in place vanish from the list, those of
retired and rebuilt channels are written where they lie now. -/
def zeroRange (s : State) (g n : Nat) : State :=
  let moved := (upTo 640).filter fun l => (tget ({} : MapEntry) s.mem.map l).retired
  let s := noteZeroed { s with mem := { s.mem with
    lines := s.mem.lines.filter fun e => !inRange g n (e.1 / 4)
    readFailed := s.mem.readFailed.filter fun k => !inRange g n (k / 4) } } g n
  if moved.isEmpty then s
  else forEach ((List.range n).filter fun i => moved.contains ((g + i) % 640)) s fun s i => zeroGranule s (g + i)

/-- The scrub of the oldest range given up ends, and regions may take its granules again (R304, R450). -/
def regionScrubDone (s : State) : State :=
  match s.mem.scrubbing with
  | [] => s
  | r :: rest => zeroRange { s with mem := { s.mem with scrubbing := rest } } r.1 r.2

def execRegionScrubDone (s : State) : Out := .next (regionScrubDone s)

/-! ### Fabric memory: R305 to R308 -/

def nkNO_REGION : Nat := 0x80
def nkMEM_RIGHTS : Nat := 0x81
def nkMEM_RANGE : Nat := 0x82
def nkREGION_CLAIMED : Nat := 0x83
def nkMEM_POISONED : Nat := 0x84
def nkMEM_BAD_REQUEST : Nat := 0x85
def nkMEM_NOT_REACHED : Nat := 0x86

/-- Bytes a request touches, from the byte offset of its line. -/
def memLen (f : Frame) : Nat :=
  if f.type = tPUT then f.length else if f.type = tGET then f.aux % 2 ^ 13 else 64

/-- The fields follow R305; AUX[23:17] is 0 to 64. -/
def memFieldsOk (f : Frame) : Bool :=
  let hi := f.aux / 2 ^ 24 % 256
  let part := f.aux / 2 ^ 17 % 128
  let rsv := f.aux / 2 ^ 13 % 16
  let lo := f.aux % 2 ^ 13
  let span (n : Nat) : Bool := decide (64 ≤ n) && decide (n ≤ 4096) && n % 64 == 0
  decide (part ≤ 64) && rsv == 0 &&
    (if f.type = tPUT then hi == 0 && lo == 0 && span f.length
     else if f.type = tGET then hi == 0 && span lo && f.length == 0
     else decide (1 ≤ hi) && decide (hi ≤ 6) && decide (lo < 8) && f.length == 16)

def rightBit (t : Nat) : Nat := if t = tGET then 0 else if t = tPUT then 1 else 2

/-- The checks of R306 on a request whose source lies in partition p, in their order: a NACK cause, or the
region it is accepted for. -/
def memCheck (s : State) (q : QFrame) (p : Nat) : Except Nat (Word × Word) :=
  let f := q.f
  let part := f.aux / 2 ^ 17 % 128
  if !hasStacks s then .error nkUNIT_ABSENT
  else if q.inBl2 then .error nkBL2_LIMIT
  else if !memFieldsOk f then .error nkMEM_BAD_REQUEST
  else if !reaches s p part then .error nkMEM_NOT_REACHED
  else match regionOf s part f.dhash with
    | none => .error nkNO_REGION
    | some v =>
      if !(rgRights v).testBit (rightBit f.type) then .error nkMEM_RIGHTS
      else if 256 * rgSize v < 64 * f.chunk + memLen f then .error nkMEM_RANGE
      else if f.type ≠ tGET ∧
          regionClaimed s (rgBase v + f.chunk / 4) (ceilDiv (64 * (f.chunk % 4) + memLen f) 256) then
        .error nkREGION_CLAIMED
      else .ok v

/-- A fabric memory request reaches the spine: accepted, or answered with a NACK (R306). -/
def memRequest (q : QFrame) (p : Nat) (s : State) : State :=
  match memCheck s q p with
  | .error c => refuse s q c 0
  | .ok v =>
    let s := freeCredit s q.inLink q.f.tc (inCells q)
    { s with mem := { s.mem with reqs := s.mem.reqs ++ [{ q := q, base := rgBase v, rid := rgId v }] } }

/-- The new value of a word under an AOP (R305). -/
def atomicOp (aop old operand cmp : Nat) : Nat :=
  if aop = 1 then (old + operand) % 2 ^ 64
  else if aop = 2 then operand
  else if aop = 3 then (if old = cmp then operand else old)
  else if aop = 4 then old &&& operand
  else if aop = 5 then old ||| operand
  else old ^^^ operand

/-- MEM_RESP to the requester (R307). -/
def memResp (s : State) (q : QFrame) (payload : List Byte) : State :=
  match selfEid s with
  | none => s
  | some self =>
    let f := q.f
    let n : Frame :=
      { dest := f.src, src := self, type := tRESP, tc := 7, seq := f.seq, ctx := f.ctx, chunk := f.chunk,
        dhash := f.dhash, entropy := f.entropy, ce := f.cm && bit (getR s oCM_CFG) 33,
        length := payload.length, aux := at_ 24 f.type, payload := payload }
    (originate s q.die n).1

/-- An accepted request is carried out and answered (R306, R307). -/
def serveMem (s : State) (r : MemReq) : State :=
  let f := r.q.f
  let n := memLen f / 64
  if f.type = tPUT then memResp (writeLines r.base n s f.chunk f.payload) r.q []
  else
    let d := readLines s r.base n f.chunk
    let s := doneReads s r.base f.chunk n
    match d.2 with
    | some _ => sendNack s r.q nkMEM_POISONED 0
    | none =>
      if f.type = tGET then memResp s r.q d.1
      else
        let i := f.aux % 8
        let old := leAt d.1 (8 * i) 8
        let new := atomicOp (f.aux / 2 ^ 24 % 256) old (leAt f.payload 0 8) (leAt f.payload 8 8)
        let line := bytesLine (putBytes d.1 (8 * i) (leBytes 8 new))
        memResp (setRegionLine s r.base f.chunk (.data line)) r.q (leBytes 8 old)

/-- Two requests of one source touch a line in common (R307). -/
def sameLine (a b : MemReq) : Bool :=
  a.q.f.src == b.q.f.src &&
    overlaps (4 * a.base + a.q.f.chunk) (memLen a.q.f / 64) (4 * b.base + b.q.f.chunk) (memLen b.q.f / 64)

/-- Requests that may complete next: none waits for an earlier one of its source to the same line. -/
def freeReqs (s : State) : List Nat :=
  (List.range s.mem.reqs.length).filter fun i =>
    let r := nth {} s.mem.reqs i
    !((s.mem.reqs.take i).any fun e => sameLine e r)

/-- An accepted request completes: which of those that may is a free value (R307, log entry 4). -/
def fabricMemDone (s : State) : State :=
  match freeReqs s with
  | [] => s
  | l =>
    let i := nth 0 l (Config.freeNat s.freeCtr % l.length)
    let r := nth {} s.mem.reqs i
    let s := takeFree s
    serveMem { s with mem := { s.mem with reqs := s.mem.reqs.eraseIdx i } } r

def execFabricMemDone (s : State) : Out := .next (fabricMemDone s)

end Sys2Proof.Machine
end

