-- ==== Sys2Proof/Machine/Spares.lean ====
section
/-! DEFINITION. Spares that stand in for lasers and drops (chapter 02: R59 to R68), and what the death or the
retirement of a lane makes of them (R56, R67, R68, R85, R88). -/
namespace Sys2Proof.Machine

/-! ### Swaps as data -/

def swapKey (d : Dir) (q : Nat) : Nat := 2 * q + (match d with | .tx => 0 | .rx => 1)
def swapOf (s : State) (d : Dir) (q : Nat) : Option Swap :=
  let w := tget ({} : Swap) s.opt.swaps (swapKey d q)
  if w.phase = 0 then none else some w
def setSwap (s : State) (d : Dir) (q : Nat) (w : Swap) : State :=
  { s with opt := { s.opt with swaps := tset {} s.opt.swaps (swapKey d q) w } }

/-- A channel is given up and idle. -/
def idleChan (c : Chan) : Chan := { c with state := 5, lane := 0x1FFF, serves := 0xFF }

/-- A swap of a lane ends with the lane where it was. -/
def dropSwap (s : State) (d : Dir) (q : Nat) : State :=
  match swapOf s d q with
  | none => s
  | some w =>
    modChan (setSwap s d q {}) d w.spare fun c => if c.state = 8 ∨ c.state = 9 then c else idleChan c

/-- Fibre of a channel key, over both the engine and the fibre. -/
def fibreId (k : Nat) : Nat := 4 * (k / 256) + k % 256 / 34

/-- A transmit swap runs on the fibre of a channel. -/
def fibreSwapping (s : State) (k : Nat) : Bool :=
  s.opt.swaps.any fun e => e.1 % 2 == 0 && e.2.phase != 6 && e.2.phase != 0 && fibreId e.2.old == fibreId k

/-! ### Which spare, and at which colour: R25, R59, R60 -/

/-- The colour that a spare standing in for a lane takes (R25, R59): the alias colour; where that is lit by the spare
that fades, the lane's own colour once its working laser is retired and dark and the far end's fixed drop is in
service. -/
def standInColour (s : State) (d : Dir) (q : Nat) : Option Nat :=
  let old := laneKey s d q
  let c := colourOfLane s q
  if old % 256 % 34 ≥ 32 && (chan s d old).colour == c + 32 then
    if (chan s d (workKey s q)).state == 8 && !tget false s.opt.farBad q then some c else none
  else some (c + 32)

/-- The channel is under calibration (R63 to R66). -/
def calHeld (s : State) (d : Dir) (k : Nat) : Bool :=
  let e := engine s (k / 256)
  e.calChannel != 255 && e.calDir == d && 256 * (k / 256) + e.calChannel == k

/-- The free spare of lower index of a channel's fibre: one under calibration is not free (R60, R66). -/
def freeSpare (s : State) (d : Dir) (k : Nat) : Option Nat :=
  (spareKeys k).find? fun k => spareFree (chan s d k) && !calHeld s d k

/-- The spare that a lane can swap to, none where R59 leaves it none. -/
def usableSpare (s : State) (d : Dir) (q : Nat) : Option Nat :=
  if (standInColour s d q).isNone then none else freeSpare s d (laneKey s d q)

/-- Start a transmit swap onto a channel at a colour: the spare is lit from its chill table. -/
def startSwap (s : State) (q spare colour reason : Nat) : State :=
  let old := laneKey s .tx q
  let s := modChan s .tx spare fun c =>
    { c with state := 1, lane := q, colour := colour, serves := colourOfLane s q }
  setSwap s .tx q { phase := 1, old := old, spare := spare, colour := colour, reason := reason, startAt := s.now }

/-! ### Calibration slots: R63 to R66 -/

/-- The calibration slot of an engine ends: an idle spare that was swept is idle again, and the sequencer goes to
the next channel, or ends its pass. -/
def calSlotEnd (s : State) (n : Nat) : State :=
  let e := engine s n
  let k := 256 * n + e.calChannel
  let s := if e.calChannel != 255 && (chan s e.calDir k).state == 4 then
      modChan s e.calDir k fun c => { c with state := if k % 256 % 34 < 32 then 0 else 5 }
    else s
  modEngine s n fun e => { e with
    calChannel := 255, calBorrow := none, calSaved := [], calPhase := 0, calLane := 0x1FFF, calNext := e.calNext + 1
    calRunning := decide (e.calNext + 1 < 2 * (if n < 32 then 136 else 34)) }

/-- The lane of a calibration slot swaps back to its channel (R64); a lane that is not UP waits. -/
def swapBack (s : State) (q k colour : Nat) : State :=
  if laneUp s q then startSwap s q k colour 3
  else
    setSwap s .tx q { phase := 6, old := laneKey s .tx q, spare := k, colour := colour, reason := 3, startAt := s.now }

/-- Calibration of a channel ends at once (R66): CAL_ABORTED, previous chill rows; a lane on a borrowed spare swaps
back as R60 to the channel under calibration. A swap of the slot that is under way runs to its end first. -/
def calAbort (s : State) (n cause : Nat) : State :=
  let e := engine s n
  let k := 256 * n + e.calChannel
  if e.calChannel = 255 ∨ e.calPhase ≠ 2 then s
  else
    let q := match e.calBorrow with
      | some _ => e.calLane
      | none => (chan s e.calDir k).lane
    let s := raiseEvent s 0x10B (partLane q) (chwOf e.calDir k q) cause
    match e.calBorrow with
    | some _ => swapBack (modEngine s n fun e => { e with calPhase := 3 }) q k (chan s .tx k).colour
    | none => calSlotEnd s n

/-- A lane leaves the calibration slot that it is part of. -/
def calLeave (s : State) (q : Nat) : State :=
  let n := engineOfLane q
  let e := engine s n
  if e.calChannel = 255 ∨ e.calLane ≠ q then s
  else
    let s := dropSwap s .tx q
    let s := match e.calBorrow with
      | some b => modChan s .tx b fun c => if c.state = 8 then c else idleChan c
      | none => s
    calSlotEnd s n

/-- The engine calibrates on the transmit fibre of a channel. -/
def calOnFibre (s : State) (k : Nat) : Bool :=
  let e := engine s (k / 256)
  e.calChannel != 255 && e.calDir == .tx && fibreId (256 * (k / 256) + e.calChannel) == fibreId k

/-! ### Fades: R58, R66 to R68 -/

/-- SPARES_EXHAUSTED is raised once per fibre and direction (R67). -/
def noteExhausted (s : State) (d : Dir) (k : Nat) : State :=
  let key := 8 * (k / 256) + (match d with | .tx => 0 | .rx => 4) + k % 256 / 34
  if tget false s.opt.exhausted key then countEvent s 0x106
  else
    let s := { s with opt := { s.opt with exhausted := tset false s.opt.exhausted key true } }
    raiseEvent s 0x106 0x7F (at_ 24 (k / 256) + at_ 8 (k % 256 / 34) + (match d with | .tx => 0 | .rx => 1)) 0

def queueFade (s : State) (q fade : Nat) : State :=
  { s with opt := { s.opt with fadeQueue := s.opt.fadeQueue ++ [(q, fade)] } }

/-- The swap of a faded laser starts, if its fibre has a usable spare; a calibration that holds one yields (R66). -/
def fadeGo (s : State) (q fade : Nat) : State :=
  let k := laneKey s .tx q
  let go (s : State) : Option State :=
    match usableSpare s .tx q, standInColour s .tx q with
    | some sp, some c => some (startSwap s q sp c 0)
    | _, _ => none
  match go s with
  | some t => t
  | none =>
    if !calOnFibre s k then noteExhausted s .tx k
    else
      let s := calAbort s (k / 256) 1
      match go s with
      | some t => t
      | none => if calOnFibre s k then queueFade s q fade else noteExhausted s .tx k

/-- Fade of a lane's laser has crossed SWAP (R58, R66 to R68); a lane held by a circuit is left alone (R69). -/
def fadeSwap (s : State) (q fade : Nat) : State :=
  let k := laneKey s .tx q
  if (lane s q).state = 5 then s
  else if !bit (getR s (oENGINE (k / 256))) 2 then
    raiseEvent s 0x105 (partLane q) (chwOf .tx k q) (min 255 fade)
  else match swapOf s .tx q with
    | some w => if w.reason = 0 then s else queueFade s q fade
    | none => if fibreSwapping s k then queueFade s q fade else fadeGo s q fade

/-- The fade that is served next: of those waiting on a fibre the largest, the earliest of equals (R68). -/
def largestFade (s : State) (k : Nat) : Option (Nat × Nat) :=
  (s.opt.fadeQueue.filter fun p => fibreId (laneKey s .tx p.1) == fibreId k).foldl (fun b p =>
    match b with
    | none => some p
    | some x => if x.2 < p.2 then some p else some x) none

/-- The next fade that waits on a fibre starts its swap (R68). -/
def nextFade (s : State) (k : Nat) : State :=
  if fibreSwapping s k then s
  else match largestFade s k with
    | none => s
    | some p =>
      let s := { s with opt := { s.opt with fadeQueue := s.opt.fadeQueue.erase p } }
      if (lane s p.1).state = 5 ∨ (lane s p.1).state = 7 ∨ (swapOf s .tx p.1).isSome then s else fadeGo s p.1 p.2

/-! ### The end of a transmit swap: R60, R62, R64 -/

/-- The channel given up in a transmit swap goes dark: a faded laser is RETIRED and journalled (R60, R62), a laser
swapped out for calibration is swept, a borrowed spare swapped back is free (R64). -/
def finishSwap (s : State) (q : Nat) (w : Swap) : State :=
  let n := w.old / 256
  let s := setSwap s .tx q {}
  if w.reason = 1 then
    modEngine (modChan s .tx w.old fun c => { c with state := 4, lane := 0x1FFF }) n fun e =>
      { e with calPhase := 2, calBorrow := some w.spare }
  else if w.reason = 3 then calSlotEnd (modChan s .tx w.old idleChan) n
  else
    let s := modChan s .tx w.old fun c => { c with state := 8, lane := 0x1FFF, serves := 0xFF }
    journalChan (journalChan s 0 w.old 0 0) 1 w.spare w.colour (colourOfLane s q)

/-- A transmit swap is given up before the switchover: the spare goes dark, to be tried again (R68). -/
def swapBackOff (s : State) (q : Nat) (w : Swap) : State :=
  let dark (c : Chan) : Chan := if w.reason = 3 then { c with state := 4, lane := 0x1FFF } else idleChan c
  let s := setSwap (modChan s .tx w.spare dark) .tx q { w with phase := 6, startAt := s.now }
  nextFade s w.old

/-- The transmit swap of a lane that dies (R68): in the duplicate interval it is abandoned, and recovery brings the
lane back on the spare; after DONE it is complete; before READY its spare is idle again (log entry 20), and a swap
back from calibration is tried again. -/
def txSwapDeath (s : State) (q : Nat) : State :=
  match swapOf s .tx q with
  | none => s
  | some w =>
    if w.phase = 3 ∨ w.phase = 4 then
      let s := raiseEvent s 0x103 (partLane q) (chwOf .tx w.old q) 3
      finishSwap (modChan s .tx w.spare fun c =>
        { c with state := if w.reason = 1 then 6 else 2, lane := q, serves := colourOfLane s q }) q w
    else if w.phase = 5 then finishSwap s q w
    else if w.phase = 6 then s
    else if w.reason = 3 then
      setSwap (modChan s .tx w.spare fun c => { c with state := 4, lane := 0x1FFF }) .tx q
        { w with phase := 6, startAt := s.now }
    else
      let s := modChan (setSwap s .tx q {}) .tx w.spare idleChan
      if w.reason = 1 then calSlotEnd s (w.old / 256) else s

/-- A receive swap reaches its end: the drop given up is idle, the new one in service and journalled where a spare
stays in service (R61, R62). -/
def drop2 (s : State) (q : Nat) (w : Swap) : State :=
  let s := modChan (setSwap s .rx q {}) .rx w.old idleChan
  let s := modChan s .rx w.spare fun c => { c with state := 2, lane := q, serves := colourOfLane s q }
  if w.spare % 256 % 34 ≥ 32 && (w.reason == 0 || w.reason == 2) then
    journalChan s 3 w.spare w.colour (colourOfLane s q)
  else s

/-- The receive swap of a lane that dies: after READY the lane comes back on the new drop (R68). -/
def rxSwapDeath (s : State) (q : Nat) : State :=
  match swapOf s .rx q with
  | none => s
  | some w => if w.phase = 3 ∨ w.phase = 4 then drop2 s q w else modChan (setSwap s .rx q {}) .rx w.spare idleChan

def swapDeath (s : State) (q : Nat) : State := rxSwapDeath (txSwapDeath s q) q

/-! ### Lane death and retirement: R56, R67, R85, R88 -/

/-- The fade of a lane's laser has crossed SWAP and its fibre has no usable spare (R67); one that its own swap or a
calibration holds is not lacking. -/
def fadeHopeless (s : State) (q : Nat) : Bool :=
  let k := laneKey s .tx q
  decide (rf s oFADE_CFG 15 8 ≤ (chan s .tx k).fade)
    && (swapOf s .tx q).isNone && (usableSpare s .tx q).isNone && !calOnFibre s k

/-- A lane is retired with its laser dark (R56, R67); `journal` where the laser itself is retired. -/
def retireLane (s : State) (q : Nat) (d : Dir) (cause : Nat) (journal : Bool) : State :=
  let s := dropSwap (dropSwap (calLeave s q) .tx q) .rx q
  let k := laneKey s .tx q
  let ck := laneKey s d q
  let s := modChan s .tx k fun c => { c with state := 8 }
  let s := if journal then journalChan s 0 k 0 0 else s
  let s := modLane (laneToDown s q 7) q fun l => { l with marginRetired := !journal }
  let s := { s with opt := { s.opt with fadeQueue := s.opt.fadeQueue.filter fun p => decide (p.1 ≠ q) } }
  let s := raiseEvent s 0x107 (partLane q) (chwOf d ck q) 0
  refreshLink s (linkOf q) cause true

/-- CREDIT_RESYNC of one class on a lane (R81, R102). -/
def sendResync (s : State) (q tc : Nat) : State :=
  let l := linkOf q
  let k := link s l
  let s := modLink s l fun k => { k with creditSent := tset 0 k.creditSent tc (tget 0 k.credit tc) }
  sendOs s q osCREDIT_RESYNC (mkBody [at_ 101 tc, at_ 77 (tget 0 k.received tc), at_ 53 (tget 0 k.credit tc)])

/-- The margin test of a link without a lane that died in it. -/
def marginWithout (q : Nat) (k : Link) : Link :=
  { k with margin := k.margin.bind fun m =>
      let t := m.testing.filter fun t => decide (t / 2 ≠ linkLane q)
      if t.isEmpty && m.phase != 5 then none else some { m with testing := t } }

/-- A lane in MARGIN or UP dies (R85, R88): `cause` as DOWN_CAUSE and LANE_DEAD number it, `ev` whether
LANE_DEAD is raised, `dark` whether it goes to DOWN for want of light. It is brought up again with the quick check
alone. -/
def laneDie (s : State) (q cause : Nat) (ev dark : Bool) : State :=
  if !((lane s q).state == 3 || (lane s q).state == 4) then s
  else
    let l := linkOf q
    let k := laneKey s .tx q
    let s := bump s (cLane q 7)
    let s := if ev then raiseEvent s 0x204 (partLane q) (q + at_ 16 cause) 0 else s
    let hopeless := fadeHopeless s q
    let s := swapDeath s q
    let s := if hopeless then retireLane s q .tx cause true
      else
        let s := modLane (laneToDown s q (if dark then 0 else 1)) q fun x => { x with needFull := false }
        refreshLink (modLink s l (marginWithout q)) l cause true
    let s := nextFade s k
    match upLanes s l with
    | [] => s
    | u :: _ => forEach (List.range 8) s fun s t => sendResync s u t

end Sys2Proof.Machine
end

