-- ==== Sys2Proof/Machine/Links.lean ====
section
/-! DEFINITION. Commands of chapter 03's lanes and links, and of the margin tests of chapter 02: light,
POSITION, heartbeats, credits, retry, LINKCTL, R52 to R57, and LINK_CFG.ENABLE. -/
namespace Sys2Proof.Machine

/-- The HIF rail is on and the main reset released: the blocks behind BAR0 and BAR2 answer (R407, R415, R441). -/
def hifUp (s : State) : Bool := s.pwr.powered && s.pwr.state != 3 && s.boot.mainUp

/-- A function's accesses reach BAR0 and BAR2: those of the host once PERST_N is released and FW_STATE has left BOOTING
(R432, R444). -/
def barUp (s : State) (f : Func) : Bool :=
  hifUp s &&
    match f with
    | .pf | .vf _ => !s.hlt.perstN && s.boot.fwState != .booting
    | .core | .fw => true

/-- Blocks outside the HIF rail answer: not in RETAIN, nor on the way from it until ACTIVE (R417). -/
def mainAlive (s : State) : Bool := hifUp s && s.pwr.state != 2 && !(s.pwr.state == 5 && s.pwr.wakeFrom == 2)

/-- Who may write BAR0: the PF, in self-hosted mode the cores in its place, and firmware (R332, R358). -/
def mayReach (s : State) (f : Func) : Bool :=
  barUp s f &&
    match f with
    | .pf => !selfHosted s
    | .core => selfHosted s
    | .fw => true
    | .vf _ => false

/-- The same while firmware has not FAILED: then the module offers GLOBAL, HIF_STATUS and the mailbox alone (R361). -/
def mayWrite (s : State) (f : Func) : Bool := mayReach s f && s.boot.fwState != .failed

/-- The same for the registers of a block outside the HIF rail. -/
def mayWriteMain (s : State) (f : Func) : Bool := mayWrite s f && mainAlive s

/-- A clock domain whose PLL has lost lock (R430). -/
def pllLost (s : State) (k : Nat) : Bool := (tget none s.boot.pllLost k).isSome

/-- The same for a block clocked by domain k: while its PLL has lost lock a write times out and is discarded (R428). -/
def mayWriteIn (s : State) (f : Func) (k : Nat) : Bool := mayWriteMain s f && !pllLost s k

/-- The clock domain of the blocks for which R425 names one: TIME, OPTICS, the dies' SWITCH pages, MEMORY (log entry
92). -/
def blockDomain (off : Nat) : Option Nat :=
  if 0x200000 ≤ off ∧ off < 0x400000 then some 3
  else if 0x800000 ≤ off ∧ off < 0xC00000 then some 18
  else if 0x1000000 ≤ off ∧ off < 0x1800000 then some (4 + (off - 0x1000000) / 0x200000)
  else if 0x3000000 ≤ off ∧ off < 0x3800000 then some 9
  else none

/-- An access to a BAR0 offset crosses into its block: its clock domain has not lost lock (R428, R430). -/
def crosses (s : State) (off : Nat) : Bool :=
  match blockDomain off with
  | some k => !pllLost s k
  | none => true

/-- An ordered set that is not sent in the lane's state is ignored and counted (R105). -/
def osIllegal (s : State) (q : Nat) : State := bump s (cLane q 5)

/-! ### Margin tests: R52 to R57 -/

def marginKey (place ch : Nat) : Nat := 4 * place + ch

/-- CHANNEL of MARGIN_REPORT for a channel: 0 working, 1 S0, 2 S1. -/
def chanCode (k : Nat) : Nat := if k % 256 % 34 < 32 then 0 else k % 256 % 34 - 31

def laneAt (l place : Nat) : Nat := nth 0x1FFF (lanesOf l) place

/-- A test still to be judged: 2 × place, plus 1 for the receive direction. -/
def testDir (t : Nat) : Dir := if t % 2 = 0 then .tx else .rx

/-- The bit errors of a count: a channel on which no block came in the window has every line bit of it wrong
(R52, R86, log entry 55). -/
def errorsOf (count : Nat) : Nat := if count = 0 then 1062500000 else count - 1

/-- One block more in a count: the corrected bits, and 5,440 for each code word that did not decode (R86). -/
def addErrors (count bits undecoded : Nat) : Nat := max 1 count + bits + 5440 * undecoded

/-- What the decoder counted on further blocks of a window, per channel. -/
def addCounts (t : Tab Nat) (counts : Tab (Nat × Nat)) : Tab Nat :=
  counts.foldl (fun t e => tmod 0 t e.1 fun c => addErrors c e.2.1 e.2.2) t

/-- A channel that a lane was moved to in a passed test is journalled with the laser given up (R56, R62). -/
def journalMove (s : State) (mv : Nat × Nat × Nat × Nat) : State :=
  let (key, old, spare, col) := mv
  let q := key / 2
  let c := colourOfLane s q
  let held (d : Dir) : Bool := (chan s d spare).state == 2 && (chan s d spare).lane == q
  if key % 2 = 1 then (if held .rx then journalChan s 3 spare col c else s)
  else
    let s := if old % 256 % 34 < 32 then journalChan s 0 old 0 0 else s
    if held .tx then journalChan s 1 spare col c else s

/-- A channel has moved: journalled once its lane has passed the margin test, at once outside of one (R56, R62). -/
def noteMove (s : State) (d : Dir) (q old spare col : Nat) : State :=
  let mv := (swapKey d q, old, spare, col)
  let s := match (link s (linkOf q)).margin with
    | some m => modLink s (linkOf q) fun k => { k with margin := some { m with moves := m.moves ++ [mv] } }
    | none => journalMove s mv
  raiseEvent s 0x102 (partLane q) (chwOf d old q) (chwOf d spare q + at_ 32 2)

/-- Give a lane a spare laser at its alias colour (R54, R56): the partner is asked to tune its spare drop (R53). -/
def moveToSpare (s : State) (q spare : Nat) : State :=
  let old := laneKey s .tx q
  let c := colourOfLane s q
  let s := modChan s .tx old fun x => { x with state := if old % 256 % 34 ≥ 32 then 9 else 8, lane := 0x1FFF, serves := 0xFF }
  let s := modChan s .tx spare fun x => { x with state := 2, lane := q, colour := c + 32, serves := c }
  let s := noteMove s .tx q old spare (c + 32)
  sendOs s q osSW_REQUEST (mkBody [at_ 99 (linkLane q), at_ 93 (c + 32), at_ 91 2])

/-- The outcome of one test: its errors, and whether it passed. -/
def testResult (s : State) (l : Nat) (m : Margin) (t : Nat) : Nat × Bool :=
  let q := laneAt l (t / 2)
  let d := testDir t
  let k := marginKey (t / 2) (chanCode (laneKey s d q))
  match d with
  | .rx => (errorsOf (tget 0 m.own k), decide (errorsOf (tget 0 m.own k) ≤ 255000))
  | .tx => (tget 0 m.partner k % 2 ^ 24, (tget 0 m.partner k).testBit 24)

/-- The counts of a spare: those of the link's lanes on its fibre. -/
def spareCounts (s : State) (l : Nat) (t : Tab Nat) (k : Nat) : List Nat :=
  (((List.range (lanesOf l).length).filter fun p => fibreId (workKey s (laneAt l p)) == fibreId k).map
    fun p => tget 0 t (marginKey p (chanCode k))).filter fun c => c != 0

/-- A spare that passed or failed its test (R54). -/
def markSpare (s : State) (d : Dir) (k : Nat) (ok : Bool) : State :=
  if (chan s d k).state != 5 then s
  else modChan s d k fun c => if ok then { c with tested := true } else { c with state := 9 }

/-- Round 1 also tests the spares of every fibre (R54): what each end counted marks them. -/
def judgeSpares (s : State) (l : Nat) (m : Margin) : State :=
  forEach (List.range (lanesOf l).length) s fun s p =>
    forEach (spareKeys (workKey s (laneAt l p))) s fun s k =>
      let own := spareCounts s l m.own k
      let errors := if own.isEmpty then errorsOf 0 else (own.map errorsOf).foldl (· + ·) 0
      let s := markSpare s .rx k (decide (errors ≤ 255000))
      match spareCounts s l m.partner k with
      | [] => s
      | r :: _ => markSpare s .tx k (r.testBit 24)

/-- Judge one test of a round: MARGIN_FAIL, then a spare or retirement. A failing transmit channel takes a spare
laser; for a failing receive channel the partner asks (R53). Answers the state, the tests of the next round and the
lanes to retire with the direction that failed. -/
def judgeTest (l : Nat) (m : Margin) (r : State × List Nat × List (Nat × Dir)) (t : Nat) :
    State × List Nat × List (Nat × Dir) :=
  let (s, again, dead) := r
  let q := laneAt l (t / 2)
  let d := testDir t
  let res := testResult s l m t
  if res.2 || (lane s q).state != 3 then (s, again, dead)
  else
    let k := laneKey s d q
    let s := raiseEvent s 0x108 (partLane q) (chwOf d k q) (at_ 24 m.round + min 0xFFFFFF res.1)
    match (if m.round < 3 then freeSpare s d k else none) with
    | some sp => (match d with
      | .tx => moveToSpare s q sp
      | .rx => s, again ++ [t], dead)
    | none => (s, again, if dead.any fun x => x.1 == q then dead else dead ++ [(q, d)])

/-- A lane that the test retires goes back to the channel it had before the test, the spare it tried is FAILED_TEST
(R54, R56). -/
def undoMove (s : State) (d : Dir) (q : Nat) : State :=
  match (((link s (linkOf q)).margin.map (·.moves)).getD []).find? fun mv => mv.1 == swapKey d q with
  | none => s
  | some mv =>
    let s := modChan s d (laneKey s d q) fun c => { c with state := 9, lane := 0x1FFF, serves := 0xFF }
    modChan s d mv.2.1 fun c => { c with state := 2, lane := q, serves := colourOfLane s q }

/-- The counts of a round are complete: failing lanes move to spares or are retired, and the next round
is set up or full power restored (R55, R56). -/
def marginJudge (s : State) (l : Nat) (m : Margin) : State :=
  let s := if m.round = 1 then judgeSpares s l m else s
  let r := m.testing.foldl (judgeTest l m) (s, [], [])
  let s := forEach r.2.2 r.1 fun s x => retireLane (undoMove (undoMove s .tx x.1) .rx x.1) x.1 x.2 6 false
  let again := r.2.1.filter fun t => !(r.2.2.any fun x => x.1 == laneAt l (t / 2))
  let moves := ((link s l).margin.map (·.moves)).getD []
  if !again.isEmpty then
    modLink s l fun k => { k with margin := some { m with
      round := m.round + 1, phase := 4, testing := again, own := [], partner := [], moves := moves } }
  else if lanesIn s l 3 = 0 then
    let s := modLink s l fun k => { k with margin := none, cause := 6 }
    raiseEvent s 0x201 (partLink l) (l + at_ 16 6) 0
  else modLink s l fun k => { k with margin := some { m with
    phase := 5, windowAt := s.now, testing := [], moves := moves } }

/-- Every transmit test of the round has been reported by the partner. -/
def reportsIn (s : State) (l : Nat) (m : Margin) : Bool :=
  m.testing.all fun t => t % 2 == 1 ||
    tget 0 m.partner (marginKey (t / 2) (chanCode (laneKey s .tx (laneAt l (t / 2))))) != 0

/-- MARGIN_REPORT of a receive channel (R81). -/
def sendReport (s : State) (q ch round errors limit : Nat) (quick : Bool) : State :=
  sendOs s q osMARGIN_REPORT (mkBody [at_ 99 (linkLane q), at_ 97 ch, at_ 95 (round % 4), at_ 94 (b2n quick),
    at_ 93 (b2n (decide (errors ≤ limit))), at_ 69 (min 0xFFFFFF errors)])

/-- The idle spares of a lane's fibre take the colours at which they are tested: S0 C32, S1 C33 (R54). -/
def spareColours (s : State) (q : Nat) : State :=
  forEach [Dir.tx, Dir.rx] s fun s d => forEach (spareKeys (workKey s q)) s fun s k =>
    if (chan s d k).state = 5 then modChan s d k fun c => { c with colour := k % 256 % 34 } else s

/-- A test begins: round 1 takes every lane of the link that is in MARGIN for it, and the spares of their fibres. -/
def marginBegin (s : State) (l : Nat) : State :=
  let places := (List.range (lanesOf l).length).filter fun p =>
    (lane s (laneAt l p)).state == 3 && (lane s (laneAt l p)).needFull
  let s := forEach places s fun s p => spareColours s (laneAt l p)
  modLink s l fun k => { k with margin := some {
    startAt := s.now, testing := (places.map fun p => [2 * p, 2 * p + 1]).flatten } }

/-- Every lane of the link that is neither retired nor sprued nor UP waits in MARGIN, one for the full test. -/
def marginReady (s : State) (l : Nat) : Bool :=
  moduleReadyNow s && linkMayRise s l && decide (0 < lanesIn s l 3)
    && lanesIn s l 3 + lanesIn s l 4 + lanesIn s l 5 + lanesIn s l 7 == (lanesOf l).length
    && (lanesOf l).any fun q => (lane s q).state == 3 && (lane s q).needFull

/-- Both ends report all channels locked: the test starts at full power (R55). -/
def marginTestStart (l : Nat) (s : State) : State :=
  if (link s l).margin.isNone && marginReady s l then marginBegin s l else s

def execMarginTestStart (l : Nat) (s : State) : Out := .next (marginTestStart l s)

/-- A power step of the test: 3 dB down after 1 ms; at the end full power is back, what the passed lanes moved to is
journalled (R62), and the link comes up. -/
def marginPowerStep (l : Nat) (s : State) : State :=
  match (link s l).margin with
  | none => s
  | some m =>
    if m.phase = 0 then
      modLink (await s m.startAt msT) l fun k => { k with margin := some { m with phase := 1 } }
    else if m.phase = 5 then
      let s := modLink (await s m.windowAt msT) l fun k => { k with margin := none }
      let passed := (lanesOf l).filter fun q => (lane s q).state == 3 && (lane s q).needFull
      let s := forEach (m.moves.filter fun mv => passed.contains (mv.1 / 2)) s journalMove
      noteHealth (lanesToUp s l passed)
    else s

def execMarginPowerStep (l : Nat) (s : State) : Out := .next (marginPowerStep l s)

/-- A count window opens: 2 ms after the start, and 13 ms later for each further round (R55). -/
def marginWindowOpen (l : Nat) (s : State) : State :=
  match (link s l).margin with
  | none => s
  | some m =>
    if m.phase = 1 ∨ m.phase = 4 then
      let s := await s m.startAt ((2 + 13 * (m.round - 1)) * msT)
      modLink s l fun k => { k with margin := some { m with phase := 2, windowAt := s.now } }
    else s

def execMarginWindowOpen (l : Nat) (s : State) : Out := .next (marginWindowOpen l s)

/-- The 10 ms window closes: own counts are reported to the partner, and the round is judged once the
partner's counts are in (R53, R55, R56). -/
def marginWindowClose (l : Nat) (counts : Tab (Nat × Nat)) (s : State) : State :=
  match (link s l).margin with
  | none => s
  | some m =>
    if m.phase = 2 then
      let s := await s m.windowAt (10 * msT)
      let m := { m with phase := 3, own := addCounts m.own counts }
      let s := modLink s l fun k => { k with margin := some m }
      let count (t c : Nat) : Nat := errorsOf (tget 0 m.own (marginKey (t / 2) c))
      let s := forEach m.testing s fun s t =>
        if t % 2 = 0 then s
        else
          let q := laneAt l (t / 2)
          let code := chanCode (laneKey s .rx q)
          let s := sendReport s q code m.round (count t code) 255000 false
          if m.round ≠ 1 then s
          else forEach ([1, 2].filter fun c => c != code) s fun s c => sendReport s q c 1 (count t c) 255000 false
      noteHealth (if reportsIn s l m then marginJudge s l m else s)
    else s

def execMarginWindowClose (l : Nat) (counts : Tab (Nat × Nat)) (s : State) : Out := .next (marginWindowClose l counts s)

/-- No report within 100 ms: MARGIN_TIMEOUT, and a retry 1 s later (R56). -/
def marginReportWaitExpiry (l : Nat) (s : State) : State :=
  match (link s l).margin with
  | none => s
  | some m =>
    if m.phase = 3 then
      let s := await s m.startAt (100 * msT)
      let s := modLink s l fun k => { k with margin := none, retryAt := some s.now, cause := 6 }
      raiseEvent (refreshLink s l 6 false) 0x109 (partLink l) l 0
    else s

def execMarginReportWaitExpiry (l : Nat) (s : State) : Out := .next (marginReportWaitExpiry l s)

/-- The test is retried 1 s after a timeout (R56), on a link that may leave the down state (R19, R20). -/
def marginRetry (l : Nat) (s : State) : State :=
  let t := modLink (awaitOpt s (link s l).retryAt secT) l fun k => { k with retryAt := none }
  if (link s l).retryAt.isSome && (link s l).margin.isNone && marginReady t l then
    marginBegin (refreshLink t l 0 false) l
  else s

def execMarginRetry (l : Nat) (s : State) : Out := .next (marginRetry l s)

/-! ### The quick check: R57, R88 -/

def quickCount (x : Lane) (code : Nat) : Nat := errorsOf (tget 0 x.quickErr code)

/-- The window of a quick check opens on a lane in MARGIN. -/
def quickBegin (s : State) (q : Nat) : State :=
  modLane s q fun x => { x with
    quickAt := some s.now, quickOwn := none, quickPartner := none, quickErr := [], quickSpare := false }

def quickPassed (x : Lane) : Bool :=
  x.state == 3 && x.quickAt.isSome && x.quickOwn == some true && x.quickPartner == some true

/-- Lanes that passed the quick check go UP, on a link that is down once no other lane of it is still in its
check (R57, R88). -/
def quickRaise (s : State) (l : Nat) : State :=
  let busy := (lanesOf l).any fun q =>
    let x := lane s q
    x.state == 3 && x.quickAt.isSome && !x.quickSpare && !quickPassed x
  if busy && !linkUpState (link s l).state then s
  else lanesToUp s l ((lanesOf l).filter fun q => quickPassed (lane s q))

/-- Judge the quick check once both ends' results are known: UP, or the spares of the fibre are tested too. -/
def quickJudge (s : State) (q : Nat) : State :=
  match (lane s q).quickOwn, (lane s q).quickPartner with
  | some a, some b =>
    let s := if a && b then s
      else modLane (spareColours s q) q fun x => { x with quickAt := some s.now, quickErr := [], quickSpare := true }
    quickRaise s (linkOf q)
  | _, _ => s

/-- The spares of the fibre have been tested: a failing transmit channel moves to a spare, a failing receive channel
waits for the partner to ask, and the check is made again; without a spare the lane locks anew (R53, R57, R88). -/
def quickSpareJudge (s : State) (q : Nat) : State :=
  let x := lane s q
  let w := workKey s q
  let s := forEach (spareKeys w) s fun s k =>
    let code := chanCode k
    if code = chanCode (laneKey s .rx q) then s
    else
      markSpare (sendReport s q code 0 (quickCount x code) 25500 true) .rx k (decide (quickCount x code ≤ 25500))
  let sp := if x.quickPartner = some false then freeSpare s .tx w else none
  let s := match sp with
    | some k => moveToSpare s q k
    | none => s
  if sp.isSome || (x.quickOwn == some false && (freeSpare s .rx w).isSome) then quickBegin s q
  else refreshLink (laneToDown s q 1) (linkOf q) 6 true

/-- The 1 ms window of the quick check closes (R57, R88). -/
def quickCheckWindowClose (q : Nat) (counts : Tab (Nat × Nat)) (s : State) : State :=
  let s := modLane s q fun x => { x with quickErr := if x.quickAt.isSome then addCounts x.quickErr counts else x.quickErr }
  let x := lane s q
  if x.state == 3 && x.quickAt.isSome && x.quickSpare then
    noteHealth (quickSpareJudge (awaitOpt s x.quickAt msT) q)
  else if x.state == 3 && x.quickAt.isSome && x.quickOwn.isNone then
    let s := awaitOpt s x.quickAt msT
    let code := chanCode (laneKey s .rx q)
    let errors := quickCount x code
    let s := sendReport s q code 0 errors 25500 true
    quickJudge (modLane s q fun l => { l with quickOwn := some (decide (errors ≤ 25500)) }) q
  else s

def execQuickCheckWindowClose (q : Nat) (counts : Tab (Nat × Nat)) (s : State) : Out :=
  .next (quickCheckWindowClose q counts s)

/-- The errors of a block on a channel of a lane in MARGIN, while a window is open (R52, R86). -/
def countMargin (s : State) (q ch bits undecoded : Nat) : State :=
  let l := linkOf q
  let x := lane s q
  if x.state ≠ 3 then s
  else if x.quickAt.isSome then
    modLane s q fun x => { x with quickErr := tmod 0 x.quickErr ch fun c => addErrors c bits undecoded }
  else modLink s l fun k => { k with margin := k.margin.map fun m =>
    if m.phase = 2 then
      { m with own := tmod 0 m.own (marginKey (linkLane q) ch) fun c => addErrors c bits undecoded }
    else m }

/-- The partner's counts of a channel (R53). -/
def marginReport (q : Nat) (b : BitVec 104) (s : State) : State :=
  if (lane s q).state != 3 then osIllegal s q
  else if bf b 94 94 = 1 then
    let code := bf b 98 97
    let k := laneKey s .tx q
    if code = chanCode k then quickJudge (modLane s q fun l => { l with quickPartner := some (bf b 93 93 == 1) }) q
    else
      forEach ((spareKeys k).filter fun x => chanCode x == code) s fun s x => markSpare s .tx x (bf b 93 93 == 1)
  else
    let l := linkOf q
    match (link s l).margin with
    | none => s
    | some m =>
      if bf b 96 95 ≠ m.round then s
      else
        let v := bf b 92 69 + at_ 24 (bf b 93 93) + at_ 25 1
        let m := { m with partner := tset 0 m.partner (marginKey (bf b 103 99) (bf b 98 97)) v }
        let s := modLink s l fun k => { k with margin := some m }
        if m.phase = 3 && reportsIn s l m then noteHealth (marginJudge s l m) else s

def execMarginReportReceive (q : Nat) (b : BitVec 104) (s : State) : Out := .next (marginReport q b s)

/-! ### POSITION: R26, R84 -/

/-- The POSITION expected from the partner of a lane: body bits [103:102] and [99:75] (R22, R26). -/
def expectedPos (s : State) (q : Nat) : Nat :=
  let l := linkOf q
  let plane := rf s oFABRIC_POS 2 0
  let planes := rf s oFABRIC_POS 23 21 + 1
  if l < 2048 then at_ 102 1 + at_ 97 plane + at_ 91 (l / 32) + at_ 86 (l % 32) + at_ 75 (linkLane q)
  else
    let p := if l = 2048 then (plane + 1) % planes else (plane + planes - 1) % planes
    at_ 102 2 + at_ 97 p + at_ 80 (rf s oFABRIC_POS 13 8) + at_ 75 (linkLane q)

/-- What of a POSITION is compared: a leaf's plane, pod and leaf, or a spine's plane and index. -/
def posOf (q : Nat) (b : BitVec 104) : Nat :=
  let common := at_ 102 (bf b 103 102) + at_ 97 (bf b 99 97) + at_ 75 (bf b 79 75)
  if linkOf q < 2048 then common + at_ 91 (bf b 96 91) + at_ 86 (bf b 90 86) else common + at_ 80 (bf b 85 80)

/-- LINK_PARTNER as a POSITION gives it (R111). -/
def partnerWord (b : BitVec 104) : Nat :=
  at_ 30 (bf b 103 102) + at_ 28 (bf b 101 100) + at_ 25 (bf b 99 97) + at_ 19 (bf b 96 91)
    + at_ 14 (bf b 90 86) + at_ 8 (bf b 85 80) + 1

/-- Lanes of a link that wait in POSITION with a match. -/
def posWaiting (s : State) (l : Nat) : List Nat :=
  (lanesOf l).filter fun q => (lane s q).state == 2 && (lane s q).posSeen

/-- Every lane of the link but those retired or held by a circuit has received a matching POSITION (R84). -/
def posOnAll (s : State) (l : Nat) : Bool :=
  (lanesOf l).all fun q =>
    let x := lane s q
    x.state == 5 || x.state == 7 || (x.posSeen && (x.state == 2 || x.state == 3 || x.state == 4))

/-- Lanes of a link that wait in POSITION with a match go on (R84, R88, R420, R442): straight to UP after
a wake from PARKED, to the quick check when recovered alone, else to MARGIN once every lane has matched. -/
def positionAdvance (s : State) (l : Nat) : State :=
  if !linkMayRise s l then s
  else
    let direct := (posWaiting s l).filter fun q => (lane s q).wakeDirect
    let s := if posOnAll s l && (posWaiting s l).all fun q => (lane s q).wakeDirect || (lane s q).needFull then
        lanesToUp s l direct
      else s
    if !moduleReadyNow s then s
    else
      let alone := (posWaiting s l).filter fun q => !(lane s q).needFull && !(lane s q).wakeDirect
      let s := forEach alone s fun s q =>
        quickBegin (modLane s q fun x => { x with state := 3, lastHb := s.now }) q
      let s := if posOnAll s l then
          forEach ((posWaiting s l).filter fun q => (lane s q).needFull) s fun s q =>
            modLane s q fun x => { x with state := 3, lastHb := s.now }
        else s
      refreshLink s l 0 false

/-- A lane that is locked enters POSITION (R84). -/
def laneToPosition (s : State) (q : Nat) : State :=
  refreshLink (modLane s q fun l => { l with state := 2, posSeen := false, lastPosSent := 0 }) (linkOf q) 0 false

/-- Hold a link down until the retry of R26. -/
def holdDown (s : State) (l cause : Nat) : State :=
  let s := forEach ((lanesOf l).filter fun q => (lane s q).state == 2) s fun s q =>
    modLane s q fun x => { x with posSeen := false }
  refreshLink (modLink s l fun k => { k with retryAt := some s.now, cause := cause }) l cause false

def positionReceive (q : Nat) (b : BitVec 104) (s : State) : State :=
  let x := lane s q
  let l := linkOf q
  if x.state != 2 && x.state != 3 then osIllegal s q
  else
    let s := modLink s l fun k => { k with partner := partnerWord b }
    if x.state == 3 || (link s l).retryAt.isSome then s
    else if !posValid s then modLink s l fun k => { k with cause := 9 }
    else if isLateral l && onePlane s then s
    else if posOf q b ≠ expectedPos s q then
      raiseEvent (holdDown s l 4) 0x207 (partLink l) l (partnerWord b)
    else if bf b 101 100 ≠ (if linkBl2Cfg s l then 2 else 3) then
      raiseEvent (holdDown s l 5) 0x208 (partLink l) l (partnerWord b)
    else positionAdvance (modLane s q fun x => { x with posSeen := true }) l

def execPositionReceive (q : Nat) (b : BitVec 104) (s : State) : Out := .next (positionReceive q b s)

/-- Bring-up is retried 1 s after a mismatch (R26, R105). -/
def linkBringupRetry (l : Nat) (s : State) : State :=
  if (link s l).retryAt.isSome && (link s l).margin.isNone && lanesIn s l 3 == 0 then
    let s := awaitOpt s (link s l).retryAt secT
    refreshLink (modLink s l fun k => { k with retryAt := none }) l 0 false
  else s

def execLinkBringupRetry (l : Nat) (s : State) : Out := .next (linkBringupRetry l s)

/-- POSITION is sent every 10 µs in POSITION state (R81). -/
def positionSend (q : Nat) (s : State) : State :=
  let x := lane s q
  if x.state == 2 then
    let s := if x.lastPosSent = 0 then s else await s x.lastPosSent (10 * usT)
    let s := modLane s q fun x => { x with lastPosSent := s.now }
    sendOs s q osPOSITION (mkBody [at_ 102 2, at_ 100 (if linkBl2Cfg s (linkOf q) then 2 else 3),
      at_ 97 (rf s oFABRIC_POS 2 0), at_ 80 (rf s oFABRIC_POS 13 8), at_ 75 (linkLane q)])
  else s

def execPositionSend (q : Nat) (s : State) : Out := .next (positionSend q s)

/-! ### Heartbeats and credits: R81, R85, R100 to R102 -/

/-- TX_STATE of a lane (R81), none while it sends no heartbeat. -/
def txState (x : Lane) : Option Nat :=
  if x.txDisabled then some 4
  else if x.state = 1 then (if x.blockLock then some 0 else none)
  else if x.state = 2 then some 1
  else if x.state = 3 then some 2
  else if x.state = 4 then some 3
  else if x.state = 8 then some 4
  else none

def creditBody (s : State) (l base : Nat) : BitVec 104 :=
  let c (t : Nat) := tget 0 (link s l).credit (base + t)
  mkBody [at_ 72 (c 0), at_ 48 (c 1), at_ 24 (c 2), c 3]

/-- HEARTBEAT from block lock onward, with the credits once the link is up. -/
def heartbeatSend (q : Nat) (s : State) : State :=
  let x := lane s q
  match txState x with
  | none => s
  | some t =>
      let s := if x.lastHbSent = 0 then s else await s x.lastHbSent usT
      let s := modLane s q fun x => { x with lastHbSent := s.now }
      let s := sendOs s q osHEARTBEAT (mkBody [at_ 99 (linkLane q), at_ 96 t, at_ 84 x.expect])
      if linkUpState (link s (linkOf q)).state then
        let s := modLink s (linkOf q) fun k => { k with creditSent := k.credit }
        sendOs (sendOs s q osCREDIT_LO (creditBody s (linkOf q) 0)) q osCREDIT_HI (creditBody s (linkOf q) 4)
      else s

def execHeartbeatSend (q : Nat) (s : State) : Out := .next (heartbeatSend q s)

/-- The partner disables the link (R105): it goes down with cause PARTNER_DISABLED. Its lanes go back to POSITION with
the full margin test still to pass (DESIGN CHOICE, log entry 71). -/
def partnerDisable (s : State) (l : Nat) : State :=
  if (link s l).partnerDisabled then s
  else
    let s := modLink s l fun k =>
      { k with partnerDisabled := true, margin := none, cause := if k.state = 4 then k.cause else 8 }
    let s := forEach ((lanesOf l).filter fun q => (lane s q).state == 3 || (lane s q).state == 4) s fun s q =>
      modLane (laneToDown s q 2) q fun x => { x with needFull := true, blockLock := true }
    refreshLink s l 8 true

/-- A lane that receives: LOCKING to UP, and one held by a circuit (R80, R84). -/
def laneHears (x : Lane) : Bool := x.state == 1 || x.state == 2 || x.state == 3 || x.state == 4 || x.state == 5

def heartbeatReceive (q : Nat) (b : BitVec 104) (s : State) : State :=
  let x := lane s q
  let l := linkOf q
  if !laneHears x then s
  else
    let t := bf b 98 96
    let s := modLane s q fun x => { x with lastHb := s.now, partnerTx := t }
    if t = 4 then partnerDisable s l
    else
      let s := if (link s l).partnerDisabled then
          refreshLink (modLink s l fun k => { k with partnerDisabled := false }) l 0 false
        else s
      -- a partner that wakes from PARKED goes straight from POSITION to UP, and so does this end (R420)
      if x.state == 2 && x.posSeen && x.partnerTx == 1 && t == 3 && !x.needFull && moduleReadyNow s then
        positionAdvance (modLane s q fun x => { x with wakeDirect := true }) l
      else s

def execHeartbeatReceive (q : Nat) (b : BitVec 104) (s : State) : Out := .next (heartbeatReceive q b s)

/-- No good HEARTBEAT for 50 µs: the lane dies (R85). -/
def heartbeatTimeout (q : Nat) (s : State) : State :=
  let x := lane s q
  if x.state == 3 || x.state == 4 then noteHealth (laneDie (await s x.lastHb (50 * usT)) q 2 true false) else s

def execHeartbeatTimeout (q : Nat) (s : State) : Out := .next (heartbeatTimeout q s)

/-- CREDIT_LO or CREDIT_HI, valid on either lane: they are sent with every HEARTBEAT once the link is up (R81, R100). -/
def creditReceive (q : Nat) (hi : Bool) (b : BitVec 104) (s : State) : State :=
  if !linkUpState (link s (linkOf q)).state then osIllegal s q
  else
    let base := if hi then 4 else 0
    forEach (List.range 4) s fun s t =>
      modLink s (linkOf q) fun k => { k with limit := tset 0 k.limit (base + t) (bf b (95 - 24 * t) (72 - 24 * t)) }

def execCreditReceive (q : Nat) (hi : Bool) (b : BitVec 104) (s : State) : Out := .next (creditReceive q hi b s)

/-- CREDIT_RESYNC sets SENT and the credit limit of a class (R102). -/
def creditResync (q : Nat) (b : BitVec 104) (s : State) : State :=
  if (lane s q).state != 4 then osIllegal s q
  else
    let t := bf b 103 101
    modLink s (linkOf q) fun k =>
      { k with sent := tset 0 k.sent t (bf b 100 77), limit := tset 0 k.limit t (bf b 76 53) }

def execCreditResyncReceive (q : Nat) (b : BitVec 104) (s : State) : Out := .next (creditResync q b s)

/-! ### Lane retry: R89, R90 -/

/-- Send RETRY(E) with an attempt number (R81, R90). -/
def sendRetry (s : State) (q attempt : Nat) : State :=
  let s := modLane s q fun x => { x with awaiting := true, attempt := attempt, retryAt := s.now }
  bump (sendOs s q osRETRY (mkBody [at_ 92 (lane s q).expect, at_ 88 attempt])) (cLane q 3)

/-- RETRY names a held block: it and every later one are sent again; the next to be sent needs nothing;
any other kills the lane with RETRY_RANGE (R89), and LANE_DEAD gives cause 3, RETRY_EXHAUSTED, which
the list of causes does not say (DESIGN CHOICE, log entry 72). -/
def retryReceive (q : Nat) (b : BitVec 104) (s : State) : State :=
  let x := lane s q
  let n := bf b 103 92
  if x.state != 4 then osIllegal s q
  else if x.held.any fun k => k.seq == n then modLane s q fun x => { x with replay := some n }
  else if n = x.nextSeq then s
  else noteHealth (laneDie (raiseEvent s 0x205 (partLane q) q n) q 3 false false)

def execRetryReceive (q : Nat) (b : BitVec 104) (s : State) : Out := .next (retryReceive q b s)

/-- 4 µs after a RETRY without the expected block: the next attempt, or death after the eighth (R90). -/
def retryTimeout (q : Nat) (s : State) : State :=
  let x := lane s q
  if x.state == 4 && x.awaiting then
    let s := await s x.retryAt (4 * usT)
    if x.attempt < 8 then sendRetry s q (x.attempt + 1) else noteHealth (laneDie s q 3 true false)
  else s

def execRetryTimeout (q : Nat) (s : State) : Out := .next (retryTimeout q s)

/-! ### LINKCTL: R81, R105 -/

def linkctlLegal (s : State) (q : Nat) : Bool := laneHears (lane s q) && (lane s q).state != 1

def linkctlQuiesce (q : Nat) (_b : BitVec 104) (s : State) : State :=
  if linkctlLegal s q then modLane s q fun x => { x with quiesced := true } else osIllegal s q

def execLinkctlQuiesceReceive (q : Nat) (b : BitVec 104) (s : State) : Out := .next (linkctlQuiesce q b s)

def linkctlResume (q : Nat) (_b : BitVec 104) (s : State) : State :=
  if linkctlLegal s q then modLane s q fun x => { x with quiesced := false } else osIllegal s q

def execLinkctlResumeReceive (q : Nat) (b : BitVec 104) (s : State) : Out := .next (linkctlResume q b s)

def linkctlDisable (q : Nat) (_b : BitVec 104) (s : State) : State :=
  if linkctlLegal s q then partnerDisable s (linkOf q) else osIllegal s q

def execLinkctlDisableReceive (q : Nat) (b : BitVec 104) (s : State) : Out := .next (linkctlDisable q b s)

/-! ### Light: R84, R85 -/

/-- Received power has been below the threshold for 1 µs: a lane in MARGIN or UP dies, one that locks or
waits goes DOWN; a sprued, retired or disabled lane only loses light (R71, R84, R85). -/
def lossOfLight (q : Nat) (s : State) : State :=
  let s := modLane s q fun x => { x with los := true }
  let st := (lane s q).state
  if st == 3 || st == 4 then noteHealth (laneDie s q 1 true true)
  else if st == 1 || st == 2 then refreshLink (laneToDown s q 0) (linkOf q) 1 true
  else s

def execLossOfLight (q : Nat) (s : State) : Out := .next (lossOfLight q s)

/-- Light on a lane's fibre: a DOWN lane of a lit engine enters LOCKING; in PARKED and RETAIN light on a
fibre that was dark at entry wakes the module (R84, R419). -/
def lightPresent (q : Nat) (s : State) : State :=
  let s := modLane s q fun x => { x with los := false }
  let s := if (s.pwr.state == 1 || s.pwr.state == 2) && s.pwr.darkAtEntry.contains q then wake s 2 else s
  if (lane s q).state == 0 && engineLit s (engineOfLane q) then
    refreshLink (putLaneState s q 1) (linkOf q) 0 false
  else s

def execLightPresent (q : Nat) (s : State) : Out := .next (lightPresent q s)

/-- A lane that may lock again after it was held: LOCKING with light and a lit engine, else DOWN. -/
def restartLane (s : State) (q : Nat) : State :=
  let st := if !(lane s q).los && engineLit s (engineOfLane q) then 1 else 0
  modLane s q fun x => { clearLane x with state := st, needFull := true, txDisabled := false }

/-! ### LINK_CFG.ENABLE: R84, R56, R105, R111 -/

/-- A write of LINK_CFG that would change BL2 while ENABLE reads 1 is ignored as a whole (R111). -/
def linkCfgIgnored (s : State) (l : Nat) (v : Word) : Bool :=
  linkEnabled s l && !s.boot.strapBl2 && bit v 1 != bit (getR s (oLINK_CFG l)) 1

/-- ENABLE written 1: lanes leave DISABLED, and lanes that the margin test retired are tested again. -/
def linkEnable (f : Func) (l : Nat) (v : Word) (s : State) : State :=
  if !mayWriteMain s f || linkCfgIgnored s l v then s
  else
    let was := linkEnabled s l
    let s := writeReg s (oLINK_CFG l) (v ||| 1)
    if was then s
    else
      let s := forEach (lanesOf l) s fun s q =>
        let x := lane s q
        if x.state = 8 then restartLane s q
        else if x.state = 7 && x.marginRetired then
          let mine := (workKey s q :: spareKeys (workKey s q)).filter fun k =>
            (chan s .tx k).state == 8 && (chan s .tx k).lane == q
          let s := forEach mine s fun s k => modChan s .tx k fun c => { c with state := 2 }
          modLane s q fun x => { clearLane x with state := 1, needFull := true, marginRetired := false }
        else s
      noteHealth (refreshLink (modLink s l fun k => { k with retryAt := none }) l 0 false)

def execLinkEnable (f : Func) (l : Nat) (v : Word) (s : State) : Out := .next (linkEnable f l v s)

/-- ENABLE written 0: LINKCTL DISABLE on each lane, then DISABLED heartbeats; the lanes read DISABLED. -/
def linkDisable (f : Func) (l : Nat) (v : Word) (s : State) : State :=
  if !mayWriteMain s f || linkCfgIgnored s l v then s
  else
    let s := writeReg s (oLINK_CFG l) (v &&& ~~~1)
    let s := forEach (lanesOf l) s fun s q =>
      let x := lane s q
      if x.state = 5 ∨ x.state = 7 ∨ x.state = 8 then s
      else
        let s := laneToDown s q 8
        if engineLit s (engineOfLane q) then sendLinkctl s q lcDISABLE else s
    let s := modLink s l fun k => { k with margin := none, retryAt := none }
    modLink (refreshLink s l 7 false) l fun k => { k with cause := 7 }

def execLinkDisable (f : Func) (l : Nat) (v : Word) (s : State) : Out := .next (linkDisable f l v s)

end Sys2Proof.Machine
end

