-- ==== Sys2Proof/Machine/Pattern.lean ====
section
/-! DEFINITION. What the flash holds, as its bytes are read: pattern images and their records (R435 to R437, R440),
slots of a retirement journal (R438), and the header of a firmware or self-hosted image (R360, R361). -/
namespace Sys2Proof.Machine

/-! ### A pattern image: R435, R436 -/

/-- Bytes of a field of a pattern image's header, or of what follows it (R435). -/
def patField (p : PatternImage) (off n : Nat) : Nat := leAt p.bytes off n

/-- LENGTH, the bytes of the body (R435). -/
def patLength (p : PatternImage) : Nat := patField p 8 4

def patBody (p : PatternImage) : List Byte := sliceB p.bytes 64 (patLength p)

/-- The records of a body in order, each its TAG and its data; false where one does not end within the body (R436,
R437). The first argument bounds their number. -/
def patRecords : Nat → List Byte → List (Nat × List Byte) × Bool
  | _, [] => ([], true)
  | 0, _ => ([], false)
  | n + 1, b =>
    let size := 8 + (leAt b 4 4 + 7) / 8 * 8
    if b.length < size then ([], false)
    else
      let r := patRecords n (b.drop size)
      ((leAt b 0 2, (b.drop 8).take (leAt b 4 4)) :: r.1, r.2)

def recordsOf (p : PatternImage) : List (Nat × List Byte) × Bool := patRecords (patLength p / 8) (patBody p)

/-- Each required record stands exactly once, and every record ends within LENGTH (R436, R437). -/
def recordsOk (p : PatternImage) : Bool :=
  let r := recordsOf p
  r.2 && [0x0001, 0x0003, 0x0010, 0x0020].all fun t => (r.1.filter fun e => e.1 == t).length == 1

/-- LENGTH is a multiple of 8 from 8 to 33,488,824 (R435). -/
def lengthOk (p : PatternImage) : Bool :=
  patLength p % 8 == 0 && decide (8 ≤ patLength p) && decide (patLength p ≤ 33488824)

/-- The result code of PATTERN_STATUS for a copy read on the module of a serial number, in the order of R437: 7
READ_ERROR, 1 BAD_MAGIC, 2 BAD_VERSION, 5 BAD_SERIAL, 3 BAD_LENGTH, 4 BAD_CRC, 6 BAD_RECORD, 0 OK. -/
def patResult (serial : Word) (p : PatternImage) : Nat :=
  if p.spiError then 7
  else if patField p 0 4 ≠ 0x50415454 then 1
  else if patField p 4 2 ≠ 1 then 2
  else if patField p 16 8 ≠ serial.toNat then 5
  else if !lengthOk p then 3
  else if patField p (64 + patLength p) 4 ≠ crc32c (patBody p) then 4
  else if !recordsOk p then 6
  else 0

/-- The 48 bytes of a digest or measurement, the first the most significant. -/
def digestBytes (d : BitVec 384) : List Byte := (leBytes 48 d.toNat).reverse

/-- A measurement extended with a digest: M := SHA-384(M ‖ d) (R362). -/
def sha384Extend (m d : BitVec 384) : BitVec 384 := Config.sha384 (digestBytes m ++ digestBytes d)

/-- The digest of a copy covers its header and its body (R362). -/
def patDigest (p : PatternImage) : BitVec 384 := Config.sha384 (sliceB p.bytes 0 64 ++ patBody p)

/-- The data of the records of a TAG, in order. -/
def recordData (p : PatternImage) (tag : Nat) : List Byte :=
  (((recordsOf p).1.filter fun e => e.1 == tag).map (·.2)).flatten

/-- The POSITION record's FABRIC_POS, where the image has one (R436). -/
def patPosition (p : PatternImage) : Option Word :=
  if (recordsOf p).1.any fun e => e.1 == 0x0002 then some (wordAt (recordData p 0x0002) 0) else none

/-- The pairs of REG_INIT: BAR0 offset and value (R436). -/
def patRegInit (p : PatternImage) : List (Nat × Word) :=
  let d := recordData p 0x0030
  (List.range (d.length / 16)).map fun i => ((wordAt d (2 * i)).toNat, wordAt d (2 * i + 1))

/-- Fibres of an engine (R38, R39). -/
def engineFibres (n : Nat) : Nat := if n < 32 then 4 else 1

/-- Where OPT_TRIM begins for an engine: 2 B of calibrated power per laser, then the chill tables (R436). -/
def trimBase (n : Nat) : Nat := if n < 32 then 522512 * n else 16720384 + 130628 * (n - 32)

/-- The number of a chill entry in its engine's tables, by region, channel, colour and row as CHILL_ADDR [23:3] gives
them; none where it addresses no entry (R46, R73, R436). -/
def chillIndex (n key : Nat) : Option Nat :=
  let nf := engineFibres n
  let reg := key / 2 ^ 19 % 4; let ch := key / 2 ^ 12 % 128; let col := key / 2 ^ 6 % 64; let row := key % 64
  let side := if reg < 2 then 0 else 8160 * nf
  if 50 < row then none
  else if reg % 2 = 0 then
    if ch < 32 * nf ∧ col = 0 then some (side + 51 * ch + row) else none
  else if ch < 2 * nf then some (side + 1632 * nf + 51 * (64 * ch + col) + row) else none

/-- The chill entry of an engine that an image gives (R436, R47). -/
def patChill (p : PatternImage) (n key : Nat) : Word :=
  match chillIndex n key with
  | none => 0
  | some i => BitVec.ofNat 64 (leAt (recordData p 0x0010) (trimBase n + 68 * engineFibres n + 8 * i) 8)

/-! ### A journal's slots: R438 -/

/-- The slots of a journal that are not free, in order: one is a live entry when its mark is 0 and its CRC matches. A
slot is given as its bytes 0 to 7 and its bytes 8 to 15. -/
def readJournal (l : List (Word × Word)) : List JournalSlot :=
  (l.filter fun e => e != (BitVec.allOnes 64, BitVec.allOnes 64)).map fun e =>
    { entry := e.1, live := e.2.toNat == crc32c (leBytes 8 e.1.toNat) }

/-! ### A firmware image: R360, R361 -/

/-- A field of an image's header (R360). -/
def fwField (i : FwImage) (off n : Nat) : Nat := leAt i.bytes off n

def fwKind (i : FwImage) : Nat := fwField i 6 2
def fwSvnOf (i : FwImage) : BitVec 32 := BitVec.ofNat 32 (fwField i 8 4)
def fwVersionOf (i : FwImage) : BitVec 32 := BitVec.ofNat 32 (fwField i 12 4)

/-- The digest of an image covers its header and its body (R362). -/
def fwDigest (i : FwImage) : BitVec 384 := Config.sha384 (sliceB i.bytes 0 (256 + fwField i 16 4))

/-- What the image check of R361 answers for a kind, with the slots revoked and MIN_SVN of now: MAGIC, FORMAT, KIND and
BODY_LENGTH, the key and the signature, then SVN. A flash copy holds 48 MiB, header included (R434). -/
def imageVerdict (s : State) (kind : Nat) (i : FwImage) : ImageVerdict :=
  if fwField i 0 4 ≠ 0x5746494B ∨ fwField i 4 2 ≠ 1 ∨ fwKind i ≠ kind ∨ 48 * 2 ^ 20 < 256 + fwField i 16 4 then .badImage
  else match i.keySlot with
  | none => .badSignature
  | some k =>
    if s.boot.revoked.testBit k ∨ !i.signed then .badSignature
    else if fwSvnOf i < s.boot.minSvn then .rollback
    else .accepted

end Sys2Proof.Machine
end

