-- ==== Sys2Proof/Machine/Optics.lean ====
section
/-! DEFINITION. Commands of chapter 02: engines, feed-forward, dither lock, fade, spare swaps in both
directions, the retirement journal, calibration and sprue circuits. -/
namespace Sys2Proof.Machine

def engineLanes (n : Nat) : List Nat :=
  if n < 32 then (List.range 128).map fun i => 128 * n + i
  else (List.range 32).map fun i => 4096 + 32 * (n - 32) + i

def engineLinks (n : Nat) : List Nat :=
  if n < 32 then (List.range 64).map fun i => 64 * n + i else [2048 + (n - 32)]

/-- Channel indices of an engine's side (R39). -/
def engineChans (n : Nat) : Nat := if n < 32 then 136 else 34

/-! ### Engine states: R44, R45 -/

/-- The lasers are held dark (R44): no PWR_GOOD, or the main logic in reset. -/
def interlock (s : State) : Bool := !s.pwr.pwrGood || !s.boot.mainUp || s.pwr.state == 3

/-- An engine's circuits end and its matrix passes light through (R44, R71). -/
def endSprues (s : State) (n : Nat) : State :=
  forEach (List.range 16) s fun s i =>
    let e := tget ({} : Sprue) s.opt.sprues (16 * n + i)
    if e.state < 2 then s
    else { s with opt := { s.opt with sprues := tset {} s.opt.sprues (16 * n + i) { e with state := 1, releaseAt := none } } }

/-- A channel of a dark engine: what a swap, a calibration or a circuit made of it ends; retired and failed channels
and spares in service keep what they are (R44, R71). -/
def darkChan (k : Nat) (c : Chan) : Chan :=
  if c.state = 2 ∨ c.state = 5 ∨ c.state = 8 ∨ c.state = 9 then { c with lostLock := false, trim := 0 }
  else if k % 256 % 34 < 32 then
    { c with state := 0, lane := 0x1FFF, serves := 0xFF, colour := 0, lostLock := false, trim := 0 }
  else { idleChan c with lostLock := false, trim := 0 }

def darkSide (n : Nat) (t : Tab Chan) : Tab Chan := tmap {} t fun k c => if k / 256 = n then darkChan k c else c

/-- An engine goes dark: its lanes go DOWN at once, passing through no DEAD state (R45); its circuits, swaps and
calibration end (R44, R71). -/
def darkenEngine (s : State) (n cause : Nat) (counts : Bool) : State :=
  let s := endSprues s n
  let s := forEach (engineLanes n) s fun s q =>
    let st := (lane s q).state
    if st = 7 ∨ st = 8 ∨ st = 0 then s
    else
      let s := dropSwap (dropSwap s .tx q) .rx q
      modLane (laneToDown s q 0) q fun x => { x with needFull := true }
  let s := modEngine s n fun e => { e with
    calRunning := false, calChannel := 255, calBorrow := none, calPhase := 0, calLane := 0x1FFF, calSaved := [] }
  let s := { s with opt := { s.opt with lasers := darkSide n s.opt.lasers, drops := darkSide n s.opt.drops } }
  forEach (engineLinks n) s fun s l =>
    let s := modLink s l fun k => { k with margin := none }
    let s := refreshLink s l cause counts
    if (link s l).state = 4 then s else modLink s l fun k => { k with cause := cause }

/-- Lanes of an engine that have light enter LOCKING (R84). -/
def lockEngine (s : State) (n : Nat) : State :=
  let s := forEach (engineLanes n) s fun s q =>
    if (lane s q).state == 0 && !(lane s q).los then putLaneState s q 1 else s
  forEach (engineLinks n) s fun s l => refreshLink s l 0 false

/-- The engine starts its bring-up. -/
def beginBringup (s : State) (n : Nat) : State :=
  lockEngine (modEngine s n fun e => { e with state := 1, enAt := some s.now, faultAt := none }) n

def sprue (s : State) (n i : Nat) : Sprue := tget {} s.opt.sprues (16 * n + i)
def setSprue (s : State) (n i : Nat) (e : Sprue) : State :=
  { s with opt := { s.opt with sprues := tset {} s.opt.sprues (16 * n + i) e } }

/-- The release of a circuit begins: the matrix detunes, the output laser relights (R70). -/
def releaseSprue (s : State) (n i : Nat) : State :=
  let e := sprue s n i
  if e.state = 2 ∨ e.state = 3 then setSprue s n i { e with state := 4, releaseAt := some s.now } else s

/-- SPRUE_EN written 0 holds the matrix in pass-through: its circuits are released (R70, R73, log entry 43). -/
def sprueEnWritten (s : State) (n : Nat) : State :=
  if bit (getR s (oENGINE n)) 3 then s else forEach (List.range 16) s fun s i => releaseSprue s n i

/-- OE_CTRL written with LASER_EN 1: bring-up from OFF, unless R44 holds the lasers dark. -/
def laserEnSet (f : Func) (n : Nat) (v : Word) (s : State) : State :=
  if !mayWriteIn s f 18 then s
  else
    let was := bit (getR s (oENGINE n)) 0
    let s := sprueEnWritten (writeReg s (oENGINE n) (v ||| 1)) n
    if was || interlock s then s else beginBringup s n

def execLaserEnSet (f : Func) (n : Nat) (v : Word) (s : State) : Out := .next (laserEnSet f n v s)

/-- OE_CTRL written with LASER_EN 0: the engine is OFF and its links are down with cause DISABLED. -/
def laserEnClear (f : Func) (n : Nat) (v : Word) (s : State) : State :=
  if !mayWriteIn s f 18 then s
  else
    let was := bit (getR s (oENGINE n)) 0
    let s := sprueEnWritten (writeReg s (oENGINE n) (v &&& ~~~1)) n
    if !was then s
    else darkenEngine (modEngine s n fun e => { e with state := 0, enAt := none, faultAt := none }) n 7 false

def execLaserEnClear (f : Func) (n : Nat) (v : Word) (s : State) : Out := .next (laserEnClear f n v s)

def oeBringupDone (n : Nat) (s : State) : State :=
  if (engine s n).state = 1 then lockEngine (modEngine s n fun e => { e with state := 2 }) n else s

def execOeBringupDone (n : Nat) (s : State) : Out := .next (oeBringupDone n s)

/-- An engine enters FAULT: OE_FAULT with its cause, lasers dark, lanes held DOWN (R45). -/
def oeFault (s : State) (n cause : Nat) : State :=
  let s := modEngine s n fun e => { e with state := 3, faultAt := some s.now, enAt := none }
  let s := raiseEvent s 0x10E 0x7F (at_ 24 n) cause
  darkenEngine s n 1 true

def oeBringupTimeout (n cause : Nat) (s : State) : State :=
  if (engine s n).state = 1 then noteHealth (oeFault (awaitOpt s (engine s n).enAt secT) n cause) else s

def execOeBringupTimeout (n cause : Nat) (s : State) : Out := .next (oeBringupTimeout n cause s)

/-- While LASER_EN stays 1, a FAULT engine tries again every 60 s. -/
def oeBringupRetry (n : Nat) (s : State) : State :=
  if (engine s n).state = 3 ∧ bit (getR s (oENGINE n)) 0 then
    beginBringup (awaitOpt s (engine s n).faultAt (60 * secT)) n
  else s

def execOeBringupRetry (n : Nat) (s : State) : Out := .next (oeBringupRetry n s)

/-! ### Feed-forward: R46 to R51 -/

/-- A chill row that calibration has not rewritten: the one the pattern image gives, or the nominal one of the ROM
defaults where no copy was accepted (R46, R440). -/
def chillDef (s : State) (k : Nat) : Word :=
  if s.boot.patDefaulted then Config.defaultChill (k % 2 ^ 21)
  else match s.boot.store with
    | some p => patChill p (k / 2 ^ 21) (k % 2 ^ 21)
    | none => 0

/-- The bits of a chill entry that are not reserved: VALID, MOD_HEATER, BIAS and HEATER of a laser, VALID and HEATER
of a drop (R47). -/
def chillMask (key : Nat) : Word := if key / 2 ^ 20 % 2 = 1 then 0x800000000000FFFF else 0x80000FFFFFFFFFFF

/-- A chill row of an engine, its reserved bits 0 (R47): its key is the CHILL_ADDR field of R73. -/
def chillAt (s : State) (n key : Nat) : Word :=
  tget (chillDef s (2 ^ 21 * n + key)) s.opt.chill (2 ^ 21 * n + key) &&& chillMask key

/-- CHILL_ADDR field [23:3] of a channel at a row: region, channel, colour, row (R46, R73). -/
def chillKey (s : State) (d : Dir) (k row : Nat) : Nat :=
  let f := k % 256 / 34; let x := k % 256 % 34
  let reg := (match d with | .tx => 0 | .rx => 2) + (if x < 32 then 0 else 1)
  at_ 19 reg + at_ 12 (if x < 32 then 32 * f + x else 2 * f + (x - 32))
    + at_ 6 (if x < 32 then 0 else (chan s d k).colour) + row

/-- A row whose VALID is 0 is replaced by the nearest valid row on the same side (R48). Where that side has none, the
row itself is used: the spec does not say what is (DESIGN CHOICE, log entry 56). -/
def chillRow (s : State) (d : Dir) (k row : Nat) (below : Bool) : Word :=
  let rows := if below then (List.range (row + 1)).reverse else (List.range (51 - row)).map (row + ·)
  let get (r : Nat) : Word := chillAt s (k / 256) (chillKey s d k r)
  match rows.find? fun r => bit (get r) 63 with
  | some r => get r
  | none => get row

/-- Interpolate one field between two rows at weight w of 32, rounding toward minus infinity (R48). -/
def interp (a b w : Nat) : Int := (a : Int) + (((b : Int) - a) * w) / 32

/-- The heater, modulator-heater and bias codes of a channel at a sensor reading in 1/16 K (R48). -/
def chillCodes (s : State) (d : Dir) (k : Nat) (reading : Int) : Int × Int × Int :=
  let u := (max 0 (min 1600 (reading - 160))).toNat
  let r := min (u / 32) 49
  let w := u - 32 * r
  let a := chillRow s d k r true
  let b := chillRow s d k (r + 1) false
  (interp (fld a 15 0) (fld b 15 0) w, interp (fld a 43 28) (fld b 43 28) w, interp (fld a 27 16) (fld b 27 16) w)

/-- The trim of a channel's dither lock: the loop's, which the spec gives no value in heater codes (a free value, log
entry 51), or the one at which it stood still when the lock was lost (R49). -/
def trimOf (s : State) (d : Dir) (k : Nat) : Int :=
  let c := chan s d k
  if c.lostLock then c.trim
  else Config.ditherTrim (engine s (k / 256)).trimAt (2 * k + match d with | .tx => 0 | .rx => 1)

/-- The codes that a channel's DACs hold: the interpolation at the reading in force, and the dither-lock
trim added to the heater (R48, R49). -/
def dacCodes (s : State) (d : Dir) (k : Nat) : Int × Int × Int :=
  let c := chillCodes s d k (nth 0 (engine s (k / 256)).applied (k % 256 / 34))
  (c.1 + trimOf s d k, c.2.1, c.2.2)

/-- A sensor differs from both its neighbours in the sensor order by more than 15 K, or reads full
scale (R51, R382; log entry 14). A sensor at an end of the order, 0 or 3, has one neighbour alone and is faulty where
it differs from that one: the spec does not say how an end is compared (DESIGN CHOICE, log entry 57). -/
def sensorBad (r : List (BitVec 16)) (i : Nat) : Bool :=
  let v := nth 0 r i
  let x := sx 16 v.toNat
  let far (j : Nat) : Bool := decide (240 < (x - sx 16 (nth 0 r j).toNat).natAbs)
  let nb := (if i = 0 then [] else [i - 1]) ++ (if i + 1 < r.length then [i + 1] else [])
  v == 0x7FFF || v == 0x8000 || (!nb.isEmpty && nb.all far)

/-- UNIT of the thermal events: [31:24] sensor, [23:16] unit, [15:8] kind, [7:0] °C. -/
def unitWord (sensor unit kind : Nat) (r : BitVec 16) : Nat :=
  at_ 24 sensor + at_ 16 unit + at_ 8 kind + enc 8 (sx 16 r.toNat / 16)

/-- The reading that the channels of a fibre pair follow: its sensor's, or the mean of the engine's other
sensors where that one is faulty (R51). The mean leaves out other faulty sensors and rounds toward minus infinity: the
spec states neither (DESIGN CHOICE, log entry 58). -/
def followed (r : List (BitVec 16)) (bad : List Bool) (i : Nat) : Int :=
  if nth false bad i then
    let good := (List.range r.length).filter fun j => !nth false bad j
    if good.isEmpty then sx 16 (nth 0 r i).toNat
    else ((good.map fun j => sx 16 (nth 0 r j).toNat).foldl (· + ·) 0) / (good.length : Nat)
  else sx 16 (nth 0 r i).toNat

/-- One sensor's part of a sample: SENSOR_FAULT, OPT_TEMP_SLEW and OPT_TEMP_RANGE as each condition begins. -/
def senseOne (n : Nat) (r : List (BitVec 16)) (s : State) (i : Nat) : State :=
  let e := engine s n
  let v := nth 0 r i
  let x := sx 16 v.toNat
  let bad := sensorBad r i
  let s := if bad && !nth false e.faulty i then raiseEvent s 0x013 0x7F (unitWord i n 2 v) 0 else s
  let past := (e.history.filter fun h => decide (s.now ≤ h.1 + msT)).map fun h => sx 16 (nth 0 h.2 i).toNat
  let slew := past.find? fun p => decide (80 < (x - p).natAbs)
  let s := match slew with
    | some p => if nth false e.slewing i then s else raiseEvent s 0x10C 0x7F (at_ 24 n + i) (enc 16 (x - p))
    | none => s
  let out := decide (x < 160) || decide (1760 < x)
  let s := if out && !nth false e.outRange i then raiseEvent s 0x10D 0x7F (at_ 24 n + i) (enc 16 x) else s
  modEngine s n fun e => { e with
    temps := setNth e.temps i (if bad then 0x8000 else v)
    faulty := setNth e.faulty i bad
    slewing := setNth e.slewing i slew.isSome
    outRange := setNth e.outRange i out }

/-- The 10 µs sample of an engine's four sensors (R43, R48, R51): its channels take new codes and trims, and an
engine with every sensor faulty is in FAULT (R45). -/
def optSensorSample (n : Nat) (readings : List (BitVec 16)) (s : State) : State :=
  let r := readings.take 4
  let s := forEach (List.range r.length) s (senseOne n r)
  let bad := (List.range r.length).map (sensorBad r)
  let s := modEngine (takeFree s) n fun e => { e with
    trimAt := s.freeCtr
    applied := (List.range 4).map fun i => if i < r.length then followed r bad i else nth 0 e.applied i
    history := (s.now, r) :: e.history.filter fun h => decide (s.now ≤ h.1 + msT) }
  let st := (engine s n).state
  let s := if !bad.isEmpty && bad.all id && (st == 1 || st == 2) then oeFault s n 4 else s
  noteHealth s

def execOptSensorSample (n : Nat) (r : List (BitVec 16)) (s : State) : Out := .next (optSensorSample n r s)

/-- A channel's trim has been at its limit for 100 µs (R49): it has lost lock, and the lane it carries is handled as
dead. A dark channel runs no lock. -/
def ditherLockLoss (n t : Nat) (d : Dir) (s : State) : State :=
  let k := 256 * n + t
  let c := chan s d k
  if c.lostLock || c.state == 0 || c.state == 8 || c.state == 9 then s
  else
    let s := modChan s d k fun c => { c with lostLock := true, trim := trimOf s d k }
    if carries c then noteHealth (laneDie s c.lane 1 true false) else s

def execDitherLockLoss (n t : Nat) (d : Dir) (s : State) : Out := .next (ditherLockLoss n t d s)

def lockReacquired (n t : Nat) (d : Dir) (s : State) : State :=
  let k := 256 * n + t
  if (chan s d k).lostLock then modChan s d k fun c => { c with lostLock := false, trim := 0 } else s

def execLockReacquired (n t : Nat) (d : Dir) (s : State) : Out := .next (lockReacquired n t d s)

/-! ### Spare swaps: R58 to R62, R67, R68 -/

/-- One laser's averaged fade against NOTICE, SWAP and RETIRE (R58, R67). The laser of a lane that a circuit holds is
dark and has none (R70). -/
def fadeOne (n : Nat) (s : State) (p : Nat × Nat) : State :=
  let k := 256 * n + p.1
  let c := chan s .tx k
  if !carries c || (lane s c.lane).state == 5 then s
  else
    let q := c.lane
    let s := modChan s .tx k fun c => { c with fade := min 255 p.2 }
    let noticed := decide (rf s oFADE_CFG 7 0 ≤ p.2)
    let s := if noticed && !c.noticed then raiseEvent s 0x101 (partLane q) (chwOf .tx k q) (min 255 p.2) else s
    let s := if noticed != c.noticed then modChan s .tx k fun c => { c with noticed := noticed } else s
    let cross := decide (rf s oFADE_CFG 15 8 ≤ p.2)
    let s := if cross != c.crossed then modChan s .tx k fun c => { c with crossed := cross } else s
    let s := if cross && !c.crossed then fadeSwap s q p.2 else s
    let held := !bit (getR s (oENGINE n)) 2
    if rf s oFADE_CFG 23 16 ≤ p.2 && (held || ((usableSpare s .tx q).isNone && !calOnFibre s k)) && (swapOf s .tx q).isNone
        && (chan s .tx k).state == 2 then
      retireLane s q .tx 1 true
    else s

/-- The averaged fade of an engine's lasers, the larger fade first (R58, R68). -/
def laserFadeSample (n : Nat) (fades : List (Nat × Nat)) (s : State) : State :=
  noteHealth (forEach (fades.mergeSort fun a b => decide (b.2 ≤ a.2)) s (fadeOne n))

def execLaserFadeSample (n : Nat) (fades : List (Nat × Nat)) (s : State) : Out := .next (laserFadeSample n fades s)

/-- The spare has locked at its colour: REQUEST on the lane (R60). -/
def spareLocked (q : Nat) (s : State) : State :=
  match swapOf s .tx q with
  | none => s
  | some w =>
    if w.phase = 1 then
      let s := await s w.startAt msT
      let s := setSwap s .tx q { w with phase := 2, reqAt := s.now }
      sendOs s q osSW_REQUEST (mkBody [at_ 99 (linkLane q), at_ 93 w.colour, at_ 91 w.reason])
    else s

def execSpareLocked (q : Nat) (s : State) : Out := .next (spareLocked q s)

/-- READY: the same blocks go out on both colours from here on (R60, R83). In MARGIN it only says that the partner's
spare drop is on its colour (R53). -/
def swReadyReceive (q : Nat) (b : BitVec 104) (s : State) : State :=
  if (lane s q).state == 3 then s
  else if (lane s q).state != 4 then osIllegal s q
  else match swapOf s .tx q with
  | none => s
  | some w =>
    if w.phase = 2 ∧ bf b 98 93 = w.colour then
      modChan (setSwap s .tx q { w with phase := 3, readyAt := s.now }) .tx w.spare fun c => { c with state := 3 }
    else s

def execSwReadyReceive (q : Nat) (b : BitVec 104) (s : State) : Out := .next (swReadyReceive q b s)

/-- 3 ms of duplicate have passed, in either direction (R60, R61). -/
def duplicateIntervalEnd (q : Nat) (s : State) : State :=
  let one (d : Dir) (s : State) : State :=
    match swapOf s d q with
    | none => s
    | some w => if w.phase = 3 then setSwap (await s w.readyAt (3 * msT)) d q { w with phase := 4 } else s
  one .rx (one .tx s)

def execDuplicateIntervalEnd (q : Nat) (s : State) : Out := .next (duplicateIntervalEnd q s)

/-- DONE names a MARK of the duplicate interval: the lane is on the spare (R60). -/
def swDoneReceive (q : Nat) (b : BitVec 104) (s : State) : State :=
  if (lane s q).state != 4 then osIllegal s q
  else match swapOf s .tx q with
  | none => s
  | some w =>
    if w.phase = 4 ∧ w.marks.contains (bf b 98 83) then
      let s := setSwap s .tx q { w with phase := 5, doneAt := s.now }
      let s := modChan s .tx w.spare fun c => { c with state := if w.reason = 1 then 6 else 2 }
      raiseEvent s 0x102 (partLane q) (chwOf .tx w.old q) (chwOf .tx w.spare q + at_ 32 w.reason)
    else s

def execSwDoneReceive (q : Nat) (b : BitVec 104) (s : State) : Out := .next (swDoneReceive q b s)

/-- 0.1 ms after DONE the laser given up goes dark, and the next fade of the fibre is served (R60, R68). -/
def fadedLaserDark (q : Nat) (s : State) : State :=
  match swapOf s .tx q with
  | none => s
  | some w =>
    if w.phase = 5 then noteHealth (nextFade (finishSwap (await s w.doneAt (msT / 10)) q w) w.old) else s

def execFadedLaserDark (q : Nat) (s : State) : Out := .next (fadedLaserDark q s)

/-- The partner refuses the swap (R81): SWAP_REFUSED with its cause; tried again like an aborted swap
(log entry 15). A refused working colour says that its fixed drop is not in service (R59, log entry 52); in MARGIN the
lane's next round fails. -/
def swNakReceive (q : Nat) (b : BitVec 104) (s : State) : State :=
  if (lane s q).state == 3 then raiseEvent s 0x104 (partLane q) (chwOf .tx (laneKey s .tx q) q) (bf b 98 96)
  else if (lane s q).state != 4 then osIllegal s q
  else match swapOf s .tx q with
  | none => s
  | some w =>
    if w.phase = 2 then
      let s := if w.colour < 32 && bf b 98 96 == 2 then
          { s with opt := { s.opt with farBad := tset false s.opt.farBad q true } }
        else s
      swapBackOff (raiseEvent s 0x104 (partLane q) (chwOf .tx w.old q) (bf b 98 96)) q w
    else s

def execSwNakReceive (q : Nat) (b : BitVec 104) (s : State) : Out := .next (swNakReceive q b s)

def swapReadyTimeout (q : Nat) (s : State) : State :=
  match swapOf s .tx q with
  | none => s
  | some w =>
    if w.phase = 2 then
      let s := await s w.reqAt (5 * msT)
      swapBackOff (raiseEvent s 0x103 (partLane q) (chwOf .tx w.old q) 1) q w
    else s

def execSwapReadyTimeout (q : Nat) (s : State) : Out := .next (swapReadyTimeout q s)

/-- No DONE within 10 ms of READY: both colours stay lit until DONE or lane death (R68). -/
def swapDoneTimeout (q : Nat) (s : State) : State :=
  match swapOf s .tx q with
  | none => s
  | some w =>
    if (w.phase = 3 ∨ w.phase = 4) ∧ !w.noDone then
      let s := await s w.readyAt (10 * msT)
      raiseEvent (setSwap s .tx q { w with noDone := true }) 0x103 (partLane q) (chwOf .tx w.old q) 2
    else s

def execSwapDoneTimeout (q : Nat) (s : State) : Out := .next (swapDoneTimeout q s)

/-- An aborted swap is tried again after 1 s (R68). -/
def swapRetry (q : Nat) (s : State) : State :=
  match swapOf s .tx q with
  | none => s
  | some w =>
    if w.phase = 6 then
      let s := await s w.startAt secT
      let s := setSwap s .tx q {}
      if w.reason = 0 then fadeSwap s q (chan s .tx w.old).fade
      else if w.reason = 3 then swapBack s q w.spare w.colour
      else match usableSpare s .tx q, standInColour s .tx q with
        | some sp, some c => startSwap s q sp c w.reason
        | _, _ => calSlotEnd s (w.old / 256)
    else s

def execSwapRetry (q : Nat) (s : State) : Out := .next (swapRetry q s)

/-! ### The partner's swaps: R61 -/

def sendNak (s : State) (q cause : Nat) : State :=
  let s := sendOs s q osSW_NAK (mkBody [at_ 99 (linkLane q), at_ 96 cause])
  raiseEvent s 0x104 (partLane q) (chwOf .rx (laneKey s .rx q) q) cause

/-- REQUEST: tune a free spare drop to the named colour, or the fixed drop where the partner swaps back;
refuse with SPRUED, NO_SPARE or BUSY (R61, R68, R81). In MARGIN the partner repairs its own channel (R53). Calibration
of an idle spare drop yields (R66). -/
def swRequestReceive (q : Nat) (b : BitVec 104) (s : State) : State :=
  let st := (lane s q).state
  let col := bf b 98 93
  if st = 5 then sendNak s q 1
  else if st ≠ 4 && !(st == 3 && bf b 92 91 == 2) then osIllegal s q
  else if (swapOf s .rx q).isSome then sendNak s q 3
  else
    let start (s : State) (k : Nat) : State :=
      let old := laneKey s .rx q
      let s := modChan s .rx k fun c => { c with state := 1, lane := q, colour := col, serves := colourOfLane s q }
      setSwap s .rx q { phase := 1, old := old, spare := k, colour := col, reason := bf b 92 91, startAt := s.now }
    let w := workKey s q
    if col < 32 && (chan s .rx w).state == 5 then start s w
    else
      let held := (spareKeys w).any fun k => calHeld s .rx k && spareFree (chan s .rx k)
      let s := if (freeSpare s .rx w).isNone && held then calAbort s (w / 256) 2 else s
      match freeSpare s .rx w with
      | some k => start s k
      | none => sendNak s q 2

def execSwRequestReceive (q : Nat) (b : BitVec 104) (s : State) : Out := .next (swRequestReceive q b s)

/-- The drop has locked at the named colour: READY, and the duplicate interval begins (R61); in MARGIN, where no frame
runs, the lane is on the new drop at once (R53, R56). -/
def spareDropLocked (q : Nat) (s : State) : State :=
  match swapOf s .rx q with
  | none => s
  | some w =>
    if w.phase ≠ 1 then s
    else
      let s := if (lane s q).state = 3 then
          let s := modChan (setSwap s .rx q {}) .rx w.old idleChan
          let s := modChan s .rx w.spare fun c => { c with state := 2 }
          noteMove s .rx q w.old w.spare w.colour
        else
          modChan (setSwap s .rx q { w with phase := 3, readyAt := s.now }) .rx w.spare fun c => { c with state := 3 }
      sendOs s q osSW_READY (mkBody [at_ 99 (linkLane q), at_ 93 w.colour])

def execSpareDropLocked (q : Nat) (s : State) : Out := .next (spareDropLocked q s)

/-- The receiver has come to the block that the switchover MARK names: DONE naming the MARK, the drop given up idle,
SPARE_SWAP (R61, R62, R83). -/
def switchDrop (s : State) (q mark : Nat) (w : Swap) : State :=
  let s := drop2 s q w
  let s := sendOs s q osSW_DONE (mkBody [at_ 99 (linkLane q), at_ 83 mark])
  raiseEvent s 0x102 (partLane q) (chwOf .rx w.old q) (chwOf .rx w.spare q + at_ 32 w.reason)

/-- The next block expected is the one that the switchover MARK names, or lies past it: from here on data come from
the new colour (R83). -/
def trySwitch (q : Nat) (s : State) : State :=
  match swapOf s .rx q with
  | none => s
  | some w => match w.switchAt with
    | none => s
    | some (n, m) => if ((lane s q).expect + 4096 - n) % 4096 < 2048 then noteHealth (switchDrop s q m w) else s

/-- A MARK on one colour; the first that both have shown once 3 ms of duplicate have passed names the block of the
switch (R61, R83). -/
def swMarkReceive (q : Nat) (newColour : Bool) (b : BitVec 104) (s : State) : State :=
  if (lane s q).state != 4 then osIllegal s q
  else match swapOf s .rx q with
  | none => s
  | some w =>
    if (w.phase ≠ 3 ∧ w.phase ≠ 4) ∨ w.switchAt.isSome then s
    else
      let m := bf b 103 88
      let w := if newColour then { w with marks := addNew w.marks m } else { w with oldMarks := addNew w.oldMarks m }
      let both := due s w.readyAt (3 * msT) && w.marks.contains m && w.oldMarks.contains m
      trySwitch q (setSwap s .rx q { w with switchAt := if both then some (bf b 87 76, m) else none })

def execSwMarkReceive (q : Nat) (newColour : Bool) (b : BitVec 104) (s : State) : Out :=
  .next (swMarkReceive q newColour b s)

/-! ### The retirement journal: R62, R438, R439 -/

/-- Program an entry: a slot that does not read back is left dead, and the entry goes to the next. -/
def program (j : List JournalSlot) (e : Word) (ok : Bool) : List JournalSlot :=
  if ok then j ++ [{ entry := e, live := true }] else j ++ [{ entry := e, live := false }, { entry := e, live := true }]

/-- Firmware appends the oldest entry held first to copy B's journal, then to copy A's; an entry that
finds no free slot sets JOURNAL_FULL and is kept (R439). -/
def journalAppend (okB okA : Bool) (s : State) : State :=
  match s.boot.journalHeld with
  | [] => s
  | e :: rest =>
    let b := program s.boot.journalB e okB
    let a := program s.boot.journalA e okA
    if b.length > 4096 || a.length > 4096 then { s with boot := { s.boot with journalFull := true } }
    else
      { s with boot := { s.boot with
          journalB := b, journalA := a, journalHeld := rest, journalEntries := s.boot.journalEntries + 1
          journalErr := s.boot.journalErr || !okB || !okA } }

def execJournalAppend (okB okA : Bool) (s : State) : Out := .next (journalAppend okB okA s)

/-! ### Calibration: R63 to R66 -/

/-- A READY engine with CAL_EN that runs no pass may start one (R63). -/
def mayPass (s : State) (n : Nat) : Bool :=
  (engine s n).state == 2 && bit (getR s (oENGINE n)) 1 && !(engine s n).calRunning

/-- A pass starts at its first channel, and CAL_SUSPENDED may be raised anew (R63, R66). -/
def beginPass (s : State) (n : Nat) : State :=
  let s := modEngine s n fun e => { e with calPassAt := some s.now, calRunning := true, calNext := 0 }
  forEach (List.range 4) s fun s f =>
    { s with opt := { s.opt with calSuspended := tset false s.opt.calSuspended (8 * n + f) false } }

/-- A new pass every INTERVAL (R63). -/
def calPassStart (n : Nat) (s : State) : State :=
  if mayPass s n then beginPass (awaitOpt s (engine s n).calPassAt (rf s oCAL_CFG 31 0 * secT)) n else s

def execCalPassStart (n : Nat) (s : State) : Out := .next (calPassStart n s)

/-- CAL_SUSPENDED once per fibre and pass (R66). -/
def noteSuspended (s : State) (k : Nat) : State :=
  let key := 8 * (k / 256) + k % 256 / 34
  if tget false s.opt.calSuspended key then countEvent s 0x10A
  else
    let s := { s with opt := { s.opt with calSuspended := tset false s.opt.calSuspended key true } }
    raiseEvent s 0x10A 0x7F (at_ 24 (k / 256) + at_ 8 (k % 256 / 34)) 0

/-- The sequencer visits the next channel in index order, transmit channels first (R63 to R66): a laser
that carries an UP lane is swapped out, every other channel is calibrated in place, an idle spare laser CALIBRATING. -/
def calSlotStart (n : Nat) (s : State) : State :=
  let e := engine s n
  if !(e.state == 2 && e.calRunning && e.calChannel == 255 && bit (getR s (oENGINE n)) 1) then s
  else
    let d : Dir := if e.calNext < engineChans n then .tx else .rx
    let t := e.calNext % engineChans n
    let k := 256 * n + t
    let c := chan s d k
    let visit (s : State) (ph q : Nat) : State :=
      modEngine s n fun e => { e with
        calChannel := t, calDir := d, calPhase := ph, calBorrow := none, calSaved := [], calLane := q }
    if c.state = 8 ∨ c.state = 9 ∨ c.state = 7 ∨ c.lostLock then calSlotEnd s n
    else if d == .tx && carries c && laneUp s c.lane then
      if (swapOf s .tx c.lane).isSome || fibreSwapping s k then s
      else match usableSpare s .tx c.lane, standInColour s .tx c.lane with
        | some sp, some col => startSwap (visit s 1 c.lane) c.lane sp col 1
        | _, _ => calSlotEnd (noteSuspended s k) n
    else if d == .tx && c.state == 5 then visit (modChan s d k fun c => { c with state := 4 }) 2 0x1FFF
    else visit s 2 0x1FFF

def execCalSlotStart (n : Nat) (s : State) : Out := .next (calSlotStart n s)

/-- The sweep ends: the channel's chill rows are rewritten and the lane swaps back (R64, R65). -/
def calSweepDone (n : Nat) (rows : List (Nat × Word)) (s : State) : State :=
  let e := engine s n
  if e.calChannel = 255 ∨ e.calPhase ≠ 2 then s
  else
    let k := 256 * n + e.calChannel
    let base := chillKey s e.calDir k 0
    let mine := rows.filter fun r => r.1 / 64 / 64 == base / 64 / 64 && decide (r.1 % 64 < 51)
    let saved := mine.map fun r => (2 ^ 21 * n + r.1, chillAt s n r.1)
    let s := { s with opt := { s.opt with
      chill := mine.foldl (fun t r => tset (chillDef s (2 ^ 21 * n + r.1)) t (2 ^ 21 * n + r.1) r.2) s.opt.chill } }
    match e.calBorrow with
    | none => calSlotEnd s n
    | some _ =>
      let s := modEngine s n fun e => { e with calPhase := 3, calSaved := saved }
      swapBack s e.calLane k (chan s .tx k).colour

def execCalSweepDone (n : Nat) (rows : List (Nat × Word)) (s : State) : Out := .next (calSweepDone n rows s)

/-! ### Sprues: R69 to R71, R241, R248 -/

/-- The two spine lanes of a circuit: input and output (R69). -/
def sprueLanes (s : State) (n : Nat) (e : Sprue) : Nat × Nat :=
  (laneOfKey s (256 * n + 34 * e.rxFibre + e.colour), laneOfKey s (256 * n + 34 * e.txFibre + e.colour))

/-- The constraints of R69 on engine, circuit, fibres, colour, spares, lanes, variant and SPRUE_EN. -/
def sprueValid (s : State) (n i : Nat) (e : Sprue) : Bool :=
  let lanes := sprueLanes s n e
  let barred (d : Dir) (f : Nat) : Bool :=
    (spareKeys (256 * n + 34 * f)).any fun k =>
      let c := chan s d k
      c.colour == e.colour + 32 && c.lane != 0x1FFF
  hasSprue s && decide (n < 32) && decide (i < 16) && decide (e.colour < 32)
    && e.rxFibre / 2 != e.txFibre / 2 && bit (getR s (oENGINE n)) 3
    && !barred .tx e.rxFibre && !barred .rx e.rxFibre && !barred .tx e.txFibre && !barred .rx e.txFibre
    && (lane s lanes.1).state != 7 && (lane s lanes.2).state != 7
    && (chan s .rx (256 * n + 34 * e.rxFibre + e.colour)).state != 8
    && (chan s .tx (256 * n + 34 * e.txFibre + e.colour)).state != 8

def planOf (s : State) (c : Nat) : Plan := tget {} s.plan.plans c
def setPlan (s : State) (c : Nat) (p : Plan) : State :=
  { s with plan := { s.plan with plans := tset {} s.plan.plans c p } }
def modPlan (s : State) (c : Nat) (f : Plan → Plan) : State := setPlan s c (f (planOf s c))

def claimKind (c : Word × Word) : Nat := fld c.1 63 56

/-- The circuit that a SPRUE claim names (R241): engine, circuit, entry, PERSIST, set and release offsets. -/
def sprueClaim (c : Word × Word) (ctx : Nat) : Nat × Nat × Sprue :=
  (fld c.1 55 50, fld c.1 49 46,
    { ctx := ctx, colour := fld c.1 41 37, txFibre := fld c.1 43 42, rxFibre := fld c.1 45 44, state := 1 })

/-- A lane is held by a circuit: the leaf is told to stop spine traffic on it (R70, R71). A swap of it ends. -/
def holdLane (s : State) (q : Nat) : State :=
  let s := if (lane s q).state == 4 || (lane s q).state == 3 then sendLinkctl s q lcQUIESCE else s
  let s := dropSwap (dropSwap (calLeave s q) .tx q) .rx q
  let s := modLane s q fun x => { x with state := 5, sprueFrom := x.state, quickAt := none, quickSpare := false }
  refreshLink s (linkOf q) 0 false

/-- A claimed circuit is set at its time, or fails R69 and is not set (R70, R248). -/
def sprueSet (ctx claim : Nat) (s : State) : State :=
  let p := planOf s ctx
  match p.claims[claim]? with
  | none => s
  | some c =>
    let (n, i, e0) := sprueClaim c ctx
    let e := if (sprue s n i).state = 0 then e0 else sprue s n i
    let first := bit c.1 36
    let base := if first then p.base else p.runBase
    if claimKind c ≠ 5 ∨ e.state ≠ 1 ∨ e.ctx ≠ ctx ∨ p.sprueActed.contains claim ∨ !s.tim.inForce
        ∨ !(p.running || (first && (p.state == 3 || p.state == 4))) then s
    else
      let s := awaitNt s (base + fld c.2 63 32)
      let s := modPlan s ctx fun p => { p with sprueActed := p.sprueActed ++ [claim] }
      if sprueValid s n i e0 then
        let lanes := sprueLanes s n e0
        let s := holdLane (holdLane s lanes.1) lanes.2
        setSprue s n i { e with state := 2, setAt := s.now, releaseAt := none }
      else
      raiseEvent (modPlan s ctx fun p => { p with sprueFailed := true }) 0x506 p.part (at_ 52 ctx) (at_ 4 n + i)

def execSprueSet (ctx claim : Nat) (s : State) : Out := .next (sprueSet ctx claim s)

/-- A circuit has its channel: 10 µs after the set time the output laser is dark with its heater held and the input
channel idle (R70). -/
def sprueHas (s : State) (d : Dir) (k : Nat) : Bool :=
  (List.range 16).any fun i =>
    let e := sprue s (k / 256) i
    let f := match d with | .tx => e.txFibre | .rx => e.rxFibre
    ((e.state == 2 && due s e.setAt (10 * usT)) || e.state == 3 || e.state == 4) && decide (k % 256 = 34 * f + e.colour)

/-- 40 µs after the set time the matrix couples: the output laser is dark, the input idle (R70). -/
def sprueThrough (n i : Nat) (s : State) : State :=
  let e := sprue s n i
  if e.state = 2 then
    let s := await s e.setAt (40 * usT)
    let s := modChan s .rx (256 * n + 34 * e.rxFibre + e.colour) fun c => { c with state := 7 }
    let s := modChan s .tx (256 * n + 34 * e.txFibre + e.colour) fun c => { c with state := 7 }
    setSprue s n i { e with state := 3 }
  else s

def execSprueThrough (n i : Nat) (s : State) : Out := .next (sprueThrough n i s)

/-- The claim of a plan that holds a circuit. -/
def sprueHolder (s : State) (n i : Nat) : Option (Word × Word) :=
  (planOf s (sprue s n i).ctx).claims.find? fun c =>
    claimKind c == 5 && fld c.1 55 50 == n && fld c.1 49 46 == i

/-- At its release time a circuit that does not persist is released (R241). -/
def sprueRelease (n i : Nat) (s : State) : State :=
  let p := planOf s (sprue s n i).ctx
  match sprueHolder s n i with
  | none => releaseSprue s n i
  | some c =>
    if p.state ≥ 2 && p.state ≤ 5 then
      if bit c.1 36 then s else releaseSprue (awaitNt s (p.runBase + fld c.2 31 0)) n i
    else releaseSprue s n i

def execSprueRelease (n i : Nat) (s : State) : Out := .next (sprueRelease n i s)

/-- Where a released lane goes: DISABLED with its link; UP where it was UP and the check finds light and lock in both
directions (log entry 59); else it locks anew, or is DOWN for want of light (R70, R84). -/
def releasedState (s : State) (q : Nat) : Nat :=
  let x := lane s q
  let held (d : Dir) : Bool := !(chan s d (laneKey s d q)).lostLock
  if !linkEnabled s (linkOf q) then 8
  else if x.los then 0
  else if x.sprueFrom == 4 && held .tx && held .rx && linkMayRise s (linkOf q) then 4
  else 1

/-- A lane of a released circuit returns to its link with no margin test (R70). -/
def freeLane (s : State) (q : Nat) : State :=
  if (lane s q).state = 5 then
    let st := releasedState s q
    let s := laneToDown s q (if st = 4 then 1 else st)
    if st = 4 then sendLinkctl (laneToUp s q) q lcRESUME else refreshLink s (linkOf q) 0 false
  else s

/-- A circuit as the admitted plan that claims it, if any, has it before its set time. -/
def claimedSprue (s : State) (n i : Nat) : Sprue :=
  s.plan.plans.foldl (fun e p =>
    if 2 ≤ p.2.state ∧ p.2.state ≤ 5 then
      match p.2.claims.find? fun c => claimKind c == 5 && fld c.1 55 50 == n && fld c.1 49 46 == i with
      | some c => (sprueClaim c p.1).2.2
      | none => e
    else e) {}

/-- 1 ms after the release both lanes are back, and the circuit is claimed or free (R70). -/
def sprueReleaseDone (n i : Nat) (s : State) : State :=
  let e := sprue s n i
  if e.state = 4 then
    let s := awaitOpt s e.releaseAt msT
    let lanes := sprueLanes s n e
    let back (d : Dir) (f : Nat) (s : State) : State :=
      modChan s d (256 * n + 34 * f + e.colour) fun c => if c.state = 7 then { c with state := 0 } else c
    let s := back .tx e.txFibre (back .rx e.rxFibre s)
    let s := freeLane (freeLane s lanes.1) lanes.2
    setSprue s n i (claimedSprue s n i)
  else s

def execSprueReleaseDone (n i : Nat) (s : State) : Out := .next (sprueReleaseDone n i s)

end Sys2Proof.Machine
end

