-- ==== Sys2Proof/Machine/Descr.lean ====
section
/-! DEFINITION. How fetched descriptors start, reach host memory and complete (R333, R338, R343, R344,
R356, R359). -/
namespace Sys2Proof.Machine

/-! ### Starting: R338, R343, R344 -/

/-- The first fetched descriptor of a ring that has not started. -/
def firstDesc (s : State) (k : RingKind) (i : Nat) : Option (List Word) := (ring s k i).fetched.head?

/-- The ring of a row's operand for table DMA: 0 to 63, or 64 for command ring 0 (R172). -/
def tdmaRing (r : Nat) : RingKind × Nat := if r < 64 then (.tdma, r) else (.cmd, 0)

/-- The OPs of R344 permitted on a ring; table DMA travels on command ring 0 as well (R172). -/
def opKnown (k : RingKind) (i op : Nat) : Bool :=
  match k with
  | .tdma => decide (1 ≤ op) && decide (op ≤ 7)
  | .pload => decide (1 ≤ op) && decide (op ≤ 4)
  | .cmd =>
    [0x10, 0x11, 0x20, 0x21, 0x22, 0x23, 0x24, 0x25, 0x30, 0x31, 0x40, 0x41, 0x50, 0x60].contains op
      || (i == 0 && decide (1 ≤ op) && decide (op ≤ 7))
  | _ => false

/-- A PURGE of partition 64 runs on command ring 0. -/
def purging (s : State) (part : Nat) : Bool := s.tbl.purges.any fun e => e.2.part == part

/-- A descriptor may start: table-DMA and plan-load descriptors one at a time, a command in order and
with ORDER set only once every earlier one has completed; not while completions are held back (R338, R339), nor before ACTIVE, and a
SEND_FRAME not while the module enters a lower state (R418, R419). -/
def mayStart (s : State) (k : RingKind) (i : Nat) (d : List Word) : Bool :=
  let r := ring s k i
  r.heldBack.isEmpty && (s.pwr.state == 0 || (s.pwr.state == 4 && !(k == .cmd && dOp d == 0x30))) &&
    match k with
    | .cmd => if dOp d ≤ 7 then !purging s 64 else !dOrder d || r.running.isEmpty
    | _ => r.running.isEmpty

/-- What names a started descriptor: its TAG, and the ring's gen above it. -/
def runKey (s : State) (k : RingKind) (i : Nat) (d : List Word) : Nat := dTag d + 2 ^ 32 * (ring s k i).gen

/-- A descriptor starts. -/
def popDesc (s : State) (k : RingKind) (i : Nat) (d : List Word) : State :=
  modRing s k i fun r => { r with
    fetched := r.fetched.drop 1, staged := none, running := r.running ++ [runKey s k i d] }

/-- Descriptors of an OP that the ring does not permit complete with BAD_OP in their turn (R343). -/
def sweepLoop (k : RingKind) (i : Nat) : Nat → State → State
  | 0, s => s
  | n + 1, s =>
    match firstDesc s k i with
    | none => s
    | some d =>
      if opKnown k i (dOp d) || !mayStart s k i d then s
      else sweepLoop k i n (complete (popDesc s k i d) k i (runKey s k i d) stBAD_OP 0 0)

def sweepBad (s : State) (k : RingKind) (i : Nat) : State := sweepLoop k i (ring s k i).fetched.length s

/-- What an operation is given: the state with its descriptor started, the descriptor, its run key, and
the host's answer for its buffer. It answers none while it waits for the host. -/
abbrev DescOp := State → List Word → Nat → Option HostAccess → Option State

/-- Run the first fetched descriptor of a ring, if it is of the operation and may start. -/
def runHead (k : RingKind) (i op : Nat) (f : DescOp) (s : State) : State :=
  match firstDesc s k i with
  | none => s
  | some d =>
    if dOp d ≠ op || !mayStart s k i d then s
    else match f (popDesc s k i d) d (runKey s k i d) (ring s k i).staged with
      | none => s
      | some t => sweepBad t k i

/-- The first checks of every descriptor with a PARTITION: BAD_OP, then a partition above 64 (R343, R344). -/
def firstCheck (masks : List Nat) (d : List Word) : Option Nat :=
  if !resOk masks d then some stBAD_OP else if 64 < dPart d then some stBAD_RANGE else none

/-- The function on whose behalf a ring's descriptors run: its owner, or the owner it had when it was muted (R355, R356). -/
def descOwner (s : State) (k : RingKind) (i : Nat) : Func := (ring s k i).runAs.getD (ringOwner s k i)

/-- The VF on whose behalf a ring's descriptors run, if it is one. -/
def ringVf (s : State) (k : RingKind) (i : Nat) : Option Nat :=
  match descOwner s k i with
  | .vf n => some n
  | _ => none

/-- An operation on a partition other than the VF's own (R37, R344). -/
def foreignPart (s : State) (k : RingKind) (i part : Nat) : Bool :=
  match ringVf s k i with
  | some n => n != part
  | none => false

/-! ### The PCIe functions: R330 -/

/-- What the PCIe base specification offers of which R330 speaks. -/
inductive PcieCap where
  | msix | aer | flr | ari | tenBitTags | sriov | ats | pri | pasid | tph | msi | intx
deriving DecidableEq, Repr

/-- What the module implements; no other of PcieCap. -/
def pcieCaps : List PcieCap := [.msix, .aer, .flr, .ari, .tenBitTags, .sriov]

/-- The class code: other network controller. -/
def pcieClass : Nat := 0x028000

def vfTotal : Nat := 64
def vfOffset : Nat := 1
def vfStride : Nat := 1
def maxPayload : Nat := 512
def maxReadRequest : Nat := 4096

/-- The requester ID that a function's DMA carries, from the PF's: none for the self-hosted driver and firmware,
whose memory lies on the module (R330, R359). -/
def requesterId (pf : Nat) : Func → Option Nat
  | .pf => some pf
  | .vf n => some (pf + vfOffset + vfStride * n)
  | .core | .fw => none

/-- A DMA write, no more than the maximum payload in each request. -/
def dmaWrites (f : Func) (addr : Nat) (data : List Byte) : List Output :=
  (List.range (ceilDiv data.length maxPayload)).map fun j =>
    .dma f (addr + maxPayload * j) ((data.drop (maxPayload * j)).take maxPayload)

/-- A DMA read, no more than the maximum read request size in each request. -/
def dmaReads (f : Func) (addr n : Nat) : List Output :=
  (List.range (ceilDiv n maxReadRequest)).map fun j =>
    .dmaRead f (addr + maxReadRequest * j) (min maxReadRequest (n - maxReadRequest * j))

/-! ### Host buffers: R333, R356, R359 -/

/-- Bytes of a buffer that the self-host region of 128 MiB holds (R359); the PF's and VFs' have no such bound. -/
def reachable (s : State) (k : RingKind) (i addr n : Nat) : Nat :=
  if descOwner s k i = .core then min n (2 ^ 27 - addr) else n

/-- The buffer as read from the host: the bytes moved and the address that failed, if one did; none while
the host has not answered. -/
def hostIn (s : State) (k : RingKind) (i addr n : Nat) (a : Option HostAccess) : Option (List Byte × Option Nat) :=
  let m := reachable s k i addr n
  if m = 0 ∧ n ≠ 0 then some ([], some addr)
  else match a with
    | none => none
    | some x =>
      match x.failAt with
      | some w => some (x.data.take (min m (w.toNat - addr)), some w.toNat)
      | none =>
        if x.data.length < n then none
        else if m < n then some (x.data.take m, some (addr + m)) else some (x.data.take n, none)

/-- Write to a host buffer: the bytes before an access that fails are moved, and its address is answered. -/
def hostOut (s : State) (k : RingKind) (i addr : Nat) (data : List Byte) (a : Option HostAccess) :
    State × Option Nat :=
  let m := reachable s k i addr data.length
  let fail : Option Nat := match a.bind (·.failAt) with
    | some w => some (min w.toNat (addr + m))
    | none => if m < data.length then some (addr + m) else none
  let put := match fail with
    | some x => data.take (x - addr)
    | none => data
  (emitAll s (dmaWrites (descOwner s k i) addr put), fail)

/-- Fixed-size pieces of a byte list. -/
def pieces (n : Nat) : Nat → List Byte → List (List Byte)
  | 0, _ => []
  | c + 1, b => if b.length < n then [] else b.take n :: pieces n c (b.drop n)

/-- NOP completes OK (R344). -/
def opNop (i : Nat) : DescOp := fun s d key _ =>
  some (complete s .cmd i key ((firstCheck [ones] d).getD stOK) 0 0)

def nop (i : Nat) (s : State) : State := runHead .cmd i 0x60 (opNop i) s

def execNop (ring : Nat) (s : State) : Out := .next (nop ring s)

end Sys2Proof.Machine
end

