-- ==== Sys2Proof/Machine/TableDma.lean ====
section
/-! DEFINITION. Recast windows (R33) and table DMA (R172 to R179), the exact-match engine (R164, R165,
R303, R450), and packets routed through the prefix trie (R168). -/
namespace Sys2Proof.Machine

/-! ### Recast windows: R33 -/

/-- A context bound to the partition holds an admitted plan. -/
def planActive (s : State) (part : Nat) : Bool :=
  s.plan.plans.any fun p => p.2.part == part && decide (2 ≤ p.2.state) && decide (p.2.state ≤ 5)

/-- D0 of a command descriptor without fields of its own (R343). -/
def cmdMask : Nat := mask 63 48 + mask 31 0

/-- RECAST_OPEN; its completion starts the memory rebuilds that wait (R33, R301). -/
def opRecastOpen (i : Nat) : DescOp := fun s d key _ =>
  let p := dPart d
  match firstCheck [cmdMask] d with
  | some st => some (complete s .cmd i key st 0 0)
  | none =>
    if foreignPart s .cmd i p then some (complete s .cmd i key stWRONG_PARTITION 0 0)
    else if planActive s p then some (complete s .cmd i key stPARTITION_ACTIVE 0 0)
    else
      let s := if (window s p).isOpen then s
        else setWindow s p { window s p with isOpen := true, openedAt := s.now, long := false }
      some (complete (startRebuilds s) .cmd i key stOK 0 0)

def recastOpen (i : Nat) (s : State) : State := runHead .cmd i 0x10 (opRecastOpen i) s

def execRecastOpen (ring : Nat) (s : State) : Out := .next (recastOpen ring s)

/-- RECAST_CLOSE starts to wait for the table DMA fetched before it. -/
def opRecastClose (i : Nat) : DescOp := fun s d key _ =>
  let p := dPart d
  match firstCheck [cmdMask] d with
  | some st => some (complete s .cmd i key st 0 0)
  | none =>
    if foreignPart s .cmd i p then some (complete s .cmd i key stWRONG_PARTITION 0 0)
    else
      let w := window s p
      some (setWindow s p { w with closing := w.closing ++ [(i, key, (nth 0 d 8).toNat)] })

def recastClose (i : Nat) (s : State) : State := runHead .cmd i 0x11 (opRecastClose i) s

def execRecastClose (ring : Nat) (s : State) : Out := .next (recastClose ring s)

/-- A table-DMA descriptor of the partition fetched before number n has not completed, or a PURGE of it runs
(R33, R181). -/
def earlierDma (s : State) (p n : Nat) : Bool :=
  let (k, i) := tdmaRing p
  let r := ring s k i
  (r.fetched.any fun d => decide (1 ≤ dOp d) && decide (dOp d ≤ 7) && decide ((nth 0 d 8).toNat < n))
    || purging s p

/-- A close takes effect once the earlier table DMA has completed: the window closes, unless LOCK is set. -/
def closeTakesEffect (p : Nat) (s : State) : State :=
  let w := window s p
  match w.closing.find? fun c => !earlierDma s p c.2.2 with
  | none => s
  | some c =>
    let w := { w with closing := w.closing.erase c }
    if w.isOpen && w.lock then complete (setWindow s p w) .cmd c.1 c.2.1 stLOCK_HELD 0 0
    else complete (setWindow s p { w with isOpen := false, long := false }) .cmd c.1 c.2.1 stOK 0 0

def execRecastCloseTakesEffect (p : Nat) (s : State) : Out := .next (closeTakesEffect p s)

/-- An open window has just been open longer than RECAST_LIMIT. -/
def recastExpiry (p : Nat) (s : State) : State :=
  let w := window s p
  if w.isOpen && !w.long then recastLong (await s w.openedAt (rf s oTBL_CFG 63 52 * secT + 1)) p else s

def execRecastLimitExpiry (p : Nat) (s : State) : Out := .next (recastExpiry p s)

/-! ### Descriptors of table DMA: R173 to R175 -/

def tdTable (d : List Word) : Nat := fld (nth 0 d 1) 63 56
def tdIndex (d : List Word) : Nat := fld (nth 0 d 1) 31 0
def tdCount (d : List Word) : Nat := fld (nth 0 d 2) 31 0
def tdInline (d : List Word) : Bool := bit (nth 0 d 0) 48
def tdAddr (d : List Word) : Nat := (nth 0 d 3).toNat

def tdMasks : List Nat :=
  [mask 63 48 + mask 31 0, mask 63 56 + mask 31 0, mask 31 0, ones, ones, ones, ones, ones]

/-- An undefined TABLE, an OP that does not apply to it, INLINE misused or missing, a reserved bit (R173, R175). -/
def tdBadOp (d : List Word) : Bool :=
  let op := dOp d
  let t := tdTable d
  !resOk tdMasks d
    || (op == 1 && !([1, 3, 4, 5, 6, 7].contains t)) || (op == 2 && !(decide (1 ≤ t) && decide (t ≤ 7)))
    || ((op == 3 || op == 4) && (t != tbEXACT || !tdInline d)) || (op == 7 && decide (7 < t))
    || (decide (op ≤ 4) && tdInline d && (tdCount d != 1 || t == tbMCAST))

/-- HOST_ADDR, COUNT and INDEX break their alignment or range (R173, R175, R333). -/
def tdBadRange (d : List Word) : Bool :=
  (dOp d == 1 || dOp d == 2) &&
    (((dOp d == 2 || !tdInline d) && tdAddr d % 8 != 0) || tdCount d == 0
      || !tableRangeOk (tdTable d) (tdIndex d) (tdCount d))

/-- The checks before a table-DMA operation, in order: none, or the status that ends it. -/
def tdCheck (s : State) (part : Nat) (d : List Word) : Option Nat :=
  if tdBadOp d then some stBAD_OP
  else if 64 < dPart d ∨ tdBadRange d then some stBAD_RANGE
  else if dPart d ≠ part then some stWRONG_PARTITION
  else if dOp d ≠ 2 ∧ !(window s part).isOpen then some stWINDOW_CLOSED
  else none

/-- Run a table-DMA operation on the ring of a row's operand. -/
def runTdma (r op : Nat) (f : State → List Word → Nat → Option HostAccess → Option State) (s : State) : State :=
  let (k, i) := tdmaRing r
  runHead k i op (fun s d key a =>
    match tdCheck s r d with
    | some st => some (complete s k i key st 0 0)
    | none => f s d key a) s

/-- A table-DMA operation completes. -/
def tdDone (r : Nat) (s : State) (key status detail count : Nat) : State :=
  let (k, i) := tdmaRing r
  complete s k i key status detail count

/-! ### WRITE and READ: R174, R175 -/

/-- WRITE: the inline entry, or COUNT entries from the host; a failed access ends it after the entries
before it (R356). -/
def opTdmaWrite (r : Nat) : DescOp := fun s d key a =>
  let (k, i) := tdmaRing r
  let n := entryBytes (tdTable d)
  let got := if tdInline d then some (bytesOfWords (d.drop 4), none)
    else hostIn s k i (tdAddr d) (n * tdCount d) a
  match got with
  | none => none
  | some (b, fail) =>
    let w := writeEntries (pieces n (tdCount d) b) s r (tdTable d) (tdIndex d) 0
    if w.2.1 = stOK then
      match fail with
      | some x => some (tdDone r w.1 key stDMA_ERROR x w.2.2)
      | none => some (tdDone r w.1 key stOK 0 w.2.2)
    else some (tdDone r w.1 key w.2.1 0 w.2.2)

def tdmaWrite (r : Nat) (s : State) : State := runTdma r 1 (opTdmaWrite r) s

def execTdmaWrite (ring : Nat) (s : State) : Out := .next (tdmaWrite ring s)

/-- READ: entries of the active bank, packed at their own size. -/
def opTdmaRead (r : Nat) : DescOp := fun s d key a =>
  let (k, i) := tdmaRing r
  let data := ((List.range (tdCount d)).map fun j => readEntry s (tdTable d) (tdIndex d + j)).flatten
  let o := hostOut s k i (tdAddr d) data a
  match o.2 with
  | some x => some (tdDone r o.1 key stDMA_ERROR x 0)
  | none => some (tdDone r o.1 key stOK 0 0)

def tdmaRead (r : Nat) (s : State) : State := runTdma r 2 (opTdmaRead r) s

def execTdmaRead (ring : Nat) (s : State) : Out := .next (tdmaRead ring s)

/-! ### The exact-match engine: R164, R165, R303, R450 -/

/-- The key and value of an entry keep the format of its KIND (R162, R165). -/
def emFormatOk (e : EmEntry) (part : Nat) : Bool :=
  let kind := fld e.e0 63 56
  let a := fld e.e0 47 0
  fld e.e0 48 48 == 0 && fld e.e3 14 0 == 0 &&
    (if kind = 1 then
      a == 0 && fld e.e1 63 32 == 0 && fld e.e2 63 63 == 0 && fld e.e3 63 60 == 0 && fld e.e3 39 16 == 0
    else if kind = 2 then
      a == 0 && fld e.e1 63 44 == 0 && fld e.e1 31 24 == 0 && fld e.e2 63 20 == 0 && fld e.e3 63 16 == 0
    else if kind = 3 then
      fld e.e1 63 3 == 0 && fld e.e2 61 54 == 0 && fld e.e2 31 0 == 0 && fld e.e3 63 16 == 0
        && decide (fld e.e2 63 62 ≤ 1) && sprayOk e.e2 part
    else false)

/-- The inline entry of a descriptor. An insert puts it in use: it is stored with VALID 1 whatever E3[15] says
(DESIGN CHOICE, log entry 70). -/
def emInline (d : List Word) : EmEntry :=
  { e0 := nth 0 d 4, e1 := nth 0 d 5, e2 := nth 0 d 6, e3 := setFld (nth 0 d 7) 15 15 1 }

/-- Replace a value in place; the granules that a region gives up are scrubbed (R164, R450). -/
def emReplace (s : State) (i : Nat) (e : EmEntry) : State :=
  let old := emSlot s i
  let s := setEm s i e
  if fld e.e0 63 56 = 1 then
    scrubRanges s (rangeLess (rgBase (emVal old)) (rgSize (emVal old)) (rgBase (emVal e)) (rgSize (emVal e)))
  else s

/-- Insert an entry that has passed its checks: status and state. -/
def emPut (s : State) (part : Nat) (e : EmEntry) : State × Nat :=
  let key := emKeyNo e.e0 e.e1
  let cur := emFind s e.e0 e.e1
  let old := match cur with
    | some i => emValNo (emSlot s i)
    | none => 0
  match saveBefore s part tbEXACT key old with
  | none => (s, stSHADOW_FULL)
  | some t =>
    match cur with
    | some i => (emReplace t i e, stOK)
    | none =>
      let r := emPlace t e
      if r.2 then (r.1, stOK) else ({ s with freeCtr := r.1.freeCtr }, stTABLE_FULL)

/-- EM_INSERT. A region's replacement waits for the requests accepted for it. -/
def opEmInsert (r : Nat) : DescOp := fun s d key _ =>
  let e := emInline d
  let kind := fld e.e0 63 56
  let cur := emFind s e.e0 e.e1
  if kind = 1 ∧ !hasStacks s then some (tdDone r s key stUNIT_ABSENT 0 0)
  else if fld e.e0 55 49 ≠ r then some (tdDone r s key stWRONG_PARTITION 0 0)
  else if !emFormatOk e r || (kind == 1 && !regionOk s (emVal e) cur) then some (tdDone r s key stBAD_ENTRY 0 0)
  else if kind == 1 && cur.any fun i => regionBusy s (emVal (emSlot s i)) then none
  else
    let w := emPut s r e
    if w.2 = stOK then some (tdDone r (bump w.1 (cMod 8)) key stOK 0 1) else some (tdDone r w.1 key w.2 0 0)

def emInsert (r : Nat) (s : State) : State := runTdma r 3 (opEmInsert r) s

def execEmInsert (ring : Nat) (s : State) : Out := .next (emInsert ring s)

/-- Clear the slot of a key; a deleted region's granules are scrubbed (R304). -/
def emClear (s : State) (i : Nat) : State :=
  let e := emSlot s i
  let s := setEm s i {}
  if fld e.e0 63 56 = 1 then scrubRanges s [(rgBase (emVal e), rgSize (emVal e))] else s

/-- EM_DELETE. A region's delete waits for the requests accepted for it (R304). -/
def opEmDelete (r : Nat) : DescOp := fun s d key _ =>
  let e0 := nth 0 d 4
  let e1 := nth 0 d 5
  if fld e0 55 49 ≠ r then some (tdDone r s key stWRONG_PARTITION 0 0)
  else match emFind s e0 e1 with
    | none => some (tdDone r s key stNOT_FOUND 0 0)
    | some i =>
      if fld e0 63 56 = 1 ∧ regionBusy s (emVal (emSlot s i)) then none
      else match saveBefore s r tbEXACT (emKeyNo e0 e1) (emValNo (emSlot s i)) with
        | none => some (tdDone r s key stSHADOW_FULL 0 0)
        | some t => some (tdDone r (bump (emClear t i) (cMod 8)) key stOK 0 1)

def emDelete (r : Nat) (s : State) : State := runTdma r 4 (opEmDelete r) s

def execEmDelete (ring : Nat) (s : State) : Out := .next (emDelete ring s)

/-! ### LOCK, UNLOCK and PURGE: R174, R177 to R179 -/

def opTdmaLock (r : Nat) : DescOp := fun s _ key _ =>
  some (tdDone r (setWindow s r { window s r with lock := true }) key stOK 0 0)

def tdmaLock (r : Nat) (s : State) : State := runTdma r 5 (opTdmaLock r) s

def execTdmaLock (ring : Nat) (s : State) : Out := .next (tdmaLock ring s)

/-- LOCK is cleared and the partition's before-images are released (R179). -/
def unlockPart (s : State) (p : Nat) : State :=
  let s := setWindow s p { window s p with lock := false }
  { s with tbl := { s.tbl with shadow := s.tbl.shadow.filter fun b => b.part != p } }

def opTdmaUnlock (r : Nat) : DescOp := fun s _ key _ => some (tdDone r (unlockPart s r) key stOK 0 0)

def tdmaUnlock (r : Nat) (s : State) : State := runTdma r 6 (opTdmaUnlock r) s

def execTdmaUnlock (ring : Nat) (s : State) : Out := .next (tdmaUnlock ring s)

/-- PURGE begins: it runs at background priority until PURGE_COMPLETE. -/
def opTdmaPurge (r : Nat) : DescOp := fun s d key _ =>
  some { s with tbl := { s.tbl with
    purges := tset {} s.tbl.purges r
      { part := r, table := tdTable d, ring := r + 1, tag := key } } }

def tdmaPurge (r : Nat) (s : State) : State := runTdma r 7 (opTdmaPurge r) s

def execTdmaPurge (ring : Nat) (s : State) : Out := .next (tdmaPurge ring s)

/-- The valid entries of a table that a partition owns (R153): index and prior contents. -/
def ownedEntries (s : State) (part table : Nat) : List (Nat × Nat) :=
  let routed (e : Nat) : Bool :=
    let w := tget (0 : Word) s.tbl.route e
    rtValid w && rtPart w == part
  if table = tbROUTE then
    (s.tbl.route.filter fun e => rtValid e.2 && rtPart e.2 == part).map fun e => (e.1, e.2.toNat)
  else if table = tbEXACT then
    (s.tbl.em.filter fun e => emValid e.2 && fld e.2.e0 55 49 == part).map fun e =>
      (emKeyNo e.2.e0 e.2.e1, emValNo e.2)
  else if table = tbLPM_NODE then
    if part = 64 then s.tbl.lpmNode.map fun e => (e.1, e.2.toNat) else []
  else if table = tbLPM_RESULT then
    if part = 64 then (s.tbl.lpmResult.filter fun e => bit e.2 63).map fun e => (e.1, e.2.toNat) else []
  else if table = tbMCAST then
    (s.tbl.mcast.filter fun e => bit e.2.ctl 63 && fld e.2.ctl 6 0 == part).map fun e => (e.1, mcVal e.2)
  else if table = tbLOCATION then
    (s.tbl.loc.filter fun e => routed e.1 && e.2.toNat.testBit 31).map fun e => (e.1, e.2.toNat)
  else (s.tbl.reach.filter fun e => e.1 == part).map fun e => (e.1, e.2.toNat)

/-- Invalidate one entry. -/
def invalidate (s : State) (table index : Nat) : State :=
  if table = tbROUTE then { s with tbl := { s.tbl with route := tset 0 s.tbl.route index 0 } }
  else if table = tbEXACT then
    match emFind s (BitVec.ofNat 64 index) (BitVec.ofNat 64 (index / 2 ^ 64)) with
    | some i => emClear s i
    | none => s
  else if table = tbLPM_NODE then { s with tbl := { s.tbl with lpmNode := tset 0 s.tbl.lpmNode index 0 } }
  else if table = tbLPM_RESULT then { s with tbl := { s.tbl with lpmResult := tset 0 s.tbl.lpmResult index 0 } }
  else if table = tbMCAST then { s with tbl := { s.tbl with mcast := tset {} s.tbl.mcast index {} } }
  else if table = tbLOCATION then { s with tbl := { s.tbl with loc := tset 0 s.tbl.loc index 0 } }
  else { s with tbl := { s.tbl with reach := tset 0 s.tbl.reach index 0 } }

/-- Invalidate entries in order until one whose before-image does not fit: count, and SHADOW_FULL. -/
def purgeEntries (part table : Nat) : List (Nat × Nat) → State → Nat → State × Nat × Bool
  | [], s, n => (s, n, false)
  | e :: rest, s, n =>
    match saveBefore s part table e.1 e.2 with
    | none => (s, n, true)
    | some t => purgeEntries part table rest (invalidate t table e.1) (n + 1)

/-- The tables of a PURGE in order: a location entry belongs to its route entry's owner, so it goes first
(log entry 28). -/
def purgeTables (t : Nat) : List Nat :=
  if t = 0 then [tbLOCATION, tbROUTE, tbMCAST, tbEXACT, tbREACH, tbLPM_NODE, tbLPM_RESULT] else [t]

def purgeAll (part : Nat) : List Nat → State → Nat → State × Nat × Bool
  | [], s, n => (s, n, false)
  | t :: rest, s, n =>
    let r := purgeEntries part t (ownedEntries s part t) s n
    if r.2.2 then r else purgeAll part rest r.1 r.2.1

/-- A region that the PURGE would delete still has requests accepted for it (R304). -/
def purgeBusy (s : State) (part : Nat) (tables : List Nat) : Bool :=
  tables.contains tbEXACT && (regions s).any fun e => fld e.2.e0 55 49 == part && regionBusy s (emVal e.2)

/-- PURGE has invalidated every entry it owns, or has stopped with SHADOW_FULL (R174). -/
def purgeComplete (r : Nat) (s : State) : State :=
  let p := tget ({} : Purge) s.tbl.purges r
  let tables := purgeTables p.table
  if p.ring = 0 ∨ purgeBusy s p.part tables then s
  else
    let w := purgeAll p.part tables s 0
    let s := { w.1 with tbl := { w.1.tbl with purges := tset {} w.1.tbl.purges r {} } }
    let s := tdDone r s p.tag (if w.2.2 then stSHADOW_FULL else stOK) 0 w.2.1
    let (k, i) := tdmaRing r
    sweepBad s k i

def execPurgeComplete (ring : Nat) (s : State) : Out := .next (purgeComplete ring s)

/-! ### Packets through the trie: R168 -/

/-- Route an IPv6 packet: hop limit, then the trie's result for the upper half of its address. -/
def routePacket (s : State) (die : Nat) (pkt : List Byte) : State :=
  let hop := leAt pkt 7 1
  if hop ≤ 1 then emit s (.packet none pkt)
  else
    let pkt := putBytes pkt 7 [BitVec.ofNat 8 (hop - 1)]
    let addr := (sliceB pkt 24 8).foldl (fun a b => a * 256 + b.toNat) 0
    let w := match lpmWalk s addr with
      | some i => lpmResultAt s i
      | none => 0
    let act := if bit w 63 then fld w 62 60 else 0
    if act = 1 then
      match selfEid s with
      | none => s
      | some self =>
        let f : Frame := { dest := fld w 23 0, src := self, type := tMGMT, tc := 1, length := pkt.length, payload := pkt }
        if 4096 < pkt.length then s else (originate s die f).1
    else if act = 2 ∨ act = 3 then emit s (.packet (some (act - 2)) pkt)
    else if act = 4 then emit s (.packet none pkt)
    else bump s (cMod 2)

/-- A packet on a management Ethernet port that is not addressed to the module: IPv6 goes through the
trie, anything else to the cores (log entry 29). The ports are up in ACTIVE, and firmware runs their MAC, with frames
of at most 9,216 B (R408). -/
def mgmtEth (_port : Nat) (pkt : List Byte) (s : State) : State :=
  if s.pwr.state ≠ 0 ∨ fwRuns s = false then s
  else if leAt pkt 0 1 / 16 = 6 then routePacket s 0 pkt
  else emit s (.packet none pkt)

def execMgmtEthReceive (port : Nat) (packet : List Byte) (s : State) : Out := .next (mgmtEth port packet s)

end Sys2Proof.Machine
end

