-- ==== Sys2Proof/Machine/Collect.lean ====
section
/-! DEFINITION. Collective contexts (chapter 08): crucible slots, the record, the descriptor hash, results and
completions, the end of an invocation, and dynamic reductions. -/
namespace Sys2Proof.Machine

/-! ### Clock of a die: R375, R430 -/

/-- A core clock cycle of a die, in 1/120 ns: 0.625 ns, or 1.2 GHz while the die is throttled. -/
def coreT (s : State) (die : Nat) : Nat := if s.hlt.throttled.contains die then 100 else 75

/-! ### Crucible slots: R212 to R215 -/

def cruSlot (s : State) (g : Nat) : Slot := tget {} s.cru.slots g
def setCruSlot (s : State) (g : Nat) (v : Slot) : State :=
  { s with cru := { s.cru with slots := tset {} s.cru.slots g v } }

def slotFree (s : State) (g : Nat) : Bool := (cruSlot s g).use == 0 && !(cruSlot s g).retired

def dynSlots (s : State) : Nat := rf s oCRU_POOL 9 0

/-- Free and scrubbed pool slots of a crucible. -/
def poolSlots (s : State) (cu : Nat) : List Nat :=
  ((List.range (dynSlots s)).map fun i => 512 * cu + 511 - i).filter (slotFree s)

/-- A slot in use is released: it is scrubbed, and retired if it had an uncorrectable error. -/
def releaseSlot (s : State) (g : Nat) : State :=
  let v := cruSlot s g
  setCruSlot s g { v with use := 3, since := s.now, retired := v.retired || v.ue }

def releaseSlots (s : State) (l : List Nat) : State := noteHealth (forEach l s releaseSlot)

/-- A scrub ends, 128 cycles of 512 B after the release at the earliest (R214). -/
def slotScrubDone (cru slot : Nat) (s : State) : State :=
  let g := 512 * cru + slot
  let v := cruSlot s g
  if v.use = 3 then
    setCruSlot (await s v.since (128 * coreT s (cru / 16))) g { v with use := 0, owner := 0, since := 0 }
  else s

def execSlotScrubDone (cru slot : Nat) (s : State) : Out := .next (slotScrubDone cru slot s)

/-- Bytes per element of an accumulator (R212). -/
def accBytes (k1 : Word) (exact : Bool) : Nat :=
  if aOp k1 = opCOMBINE then if exact then 64 else 4
  else if isIntF (aIn k1) then 8
  else if exact then 64
  else if aNative k1 then 2 else 4

/-- Bytes of the records of a chunk of n elements, or of n tokens under COMBINE. -/
def recordBytes (k1 k2 : Word) (exact : Bool) (n : Nat) : Nat :=
  if aOp k1 = opCOMBINE then
    n * (if exact then cRow k2 * 64 + 64 else cTopk k2 * cRow k2 * elemSize (aIn k1) + cRow k2 * 4 + 64)
  else n * (accBytes k1 exact + (if isUpdate (aOp k1) then 4 * planesOf (aOp k1) else 0))

/-! ### Contexts: R252, R253 -/

def ctxOf (s : State) (c : Nat) : Ctx := tget {} s.coll.ctxs c
def setCtx (s : State) (c : Nat) (x : Ctx) : State :=
  { s with coll := { s.coll with ctxs := tset {} s.coll.ctxs c x } }
def modCtx (s : State) (c : Nat) (f : Ctx → Ctx) : State := setCtx s c (f (ctxOf s c))

def cK (x : Ctx) (i : Nat) : Word := nth 0 x.record i
def ctxPart (x : Ctx) : Nat := fld (cK x 0) 63 57
def ctxTc (x : Ctx) : Nat := fld (cK x 0) 56 54
def ctxKind (x : Ctx) : Nat := fld (cK x 0) 53 52
def ctxStatsEn (x : Ctx) : Bool := bit (cK x 0) 51
def ctxSuspectEn (x : Ctx) : Bool := bit (cK x 0) 50
def ctxCoalesce (x : Ctx) : Bool := bit (cK x 0) 49
def ctxMembers (x : Ctx) : Nat := fld (cK x 0) 47 28
def ctxArith (x : Ctx) : Word := cK x 1
def ctxCombine (x : Ctx) : Word := cK x 2
def ctxSeed (x : Ctx) : Word := cK x 3
def ctxChunkElems (x : Ctx) : Nat := fld (cK x 4) 63 32
def ctxElements (x : Ctx) : Nat := fld (cK x 5) 39 0
def ctxResultGroup (x : Ctx) : Nat := fld (cK x 6) 63 48
def ctxCmplGroup (x : Ctx) : Nat := fld (cK x 6) 47 32
def ctxRoot (x : Ctx) : Nat := fld (cK x 6) 23 0
def ctxCuFirst (x : Ctx) : Nat := fld (cK x 7) 63 58
def ctxCuCount (x : Ctx) : Nat := fld (cK x 7) 57 51
def ctxBlock (x : Ctx) : List Word := (List.range 8).map fun i => cK x (8 + i)

/-- A configured context: its record stands. -/
def ctxUp (x : Ctx) : Bool := x.state == 1

def isCombine (x : Ctx) : Bool := aOp (ctxArith x) == opCOMBINE

/-- A plan of the context is admitted (R195, R241); loaded or unloading plans do not count. -/
def planned (s : State) (c : Nat) : Bool := decide (2 ≤ (planOf s c).state) && decide ((planOf s c).state ≤ 5)

/-- The mode in which sums run: MODE under a plan; dynamic sums on floating-point input run exact (R195). -/
def runsExact (x : Ctx) (dyn : Bool) : Bool :=
  let k1 := ctxArith x
  aExact k1 || (dyn && !isIntF (aIn k1) && (aOp k1 == opSUM || aOp k1 == opCOMBINE || isUpdate (aOp k1)))

/-- Chunks of an invocation (R203, R257). -/
def ctxChunks (x : Ctx) : Nat :=
  if isCombine x then ceilDiv (ctxElements x / cRow (ctxCombine x)) (cTokens (ctxCombine x))
  else ceilDiv (ctxElements x) (ctxChunkElems x)

/-- Tokens of chunk k under COMBINE. -/
def chunkTokens (x : Ctx) (k : Nat) : Nat :=
  let t := cTokens (ctxCombine x)
  min t (ctxElements x / cRow (ctxCombine x) - k * t)

def chunkElems (x : Ctx) (k : Nat) : Nat :=
  if isCombine x then chunkTokens x k * cRow (ctxCombine x)
  else min (ctxChunkElems x) (ctxElements x - k * ctxChunkElems x)

/-- The buffer index of a chunk's first element (R203, R257). -/
def chunkE0 (x : Ctx) (k : Nat) : Nat :=
  if isCombine x then k * cTokens (ctxCombine x) * cRow (ctxCombine x) else k * ctxChunkElems x

/-- The EID that holds a member slot of a context, 0 where none does. -/
def memberEid (s : State) (c slot : Nat) : Nat :=
  let part := ctxPart (ctxOf s c)
  match s.tbl.em.find? fun e => emValid e.2 && fld e.2.e0 63 56 == 2 && fld e.2.e0 55 49 == part
      && fld e.2.e1 43 32 == c && fld e.2.e2 19 0 == slot with
  | some e => fld e.2.e1 23 0
  | none => 0

/-! ### The descriptor hash: R259, R260 -/

def ctxHashOf (s : State) (c : Nat) (x : Ctx) : Nat :=
  let k1 := ctxArith x
  let flags := b2n (aExact k1) + 2 * b2n (aNative k1) + 4 * aRound k1
  let plan := if planned s c then (planOf s c).planId else 0
  crc32c (leBytes 2 c ++ leBytes 1 (aOp k1) ++ leBytes 1 (aIn k1) ++ leBytes 1 (aOut k1) ++ leBytes 1 flags
    ++ leBytes 2 0 ++ leBytes 8 (ctxElements x) ++ leBytes 4 (ctxRoot x) ++ leBytes 4 plan)

/-- The expected hash is computed anew. -/
def rehash (s : State) (c : Nat) : State :=
  if ctxUp (ctxOf s c) then modCtx s c fun x => { x with hash := ctxHashOf s c x } else s

/-! ### Frames of a context: R98, R104, R258, R275 -/

/-- The statuses of R274. -/
def csPARTIAL : Nat := 1
def csLATE : Nat := 2
def csSTATE_RANGE : Nat := 3
def csPOISONED : Nat := 4
def csMISMATCH : Nat := 5
def csTIME_STEP : Nat := 6
def csABANDONED : Nat := 7
def csTORN_DOWN : Nat := 8
def csPLAN_CONTRACT : Nat := 9

def allOnesChunk : Nat := 0x3FFFFFFF

/-- The header that a frame of a context carries to a group or an EID; its TC is the context's (R258). -/
def collHeader (s : State) (self c : Nat) (mc : Bool) (dest chunk : Nat) (ce : Bool) (f : Frame) : Frame :=
  let x := ctxOf s c
  let ch := at_ 30 (x.n % 4) + chunk % 2 ^ 30
  { f with
    src := self, dest := if mc then 0x10000 + dest % 2 ^ 16 else dest, mc := mc, tc := ctxTc x, ctx := c,
    dhash := x.hash, chunk := ch, seq := x.seq, entropy := ch % 2 ^ 16, ce := ce && bit (getR s oCM_CFG) 33 }

/-- Send one frame of a context, numbered in its SEQ, to a group or an EID; without SELF_EID it is counted
and not sent. The answer says whether it entered the riser. -/
def collFrame (s : State) (c die : Nat) (mc : Bool) (dest chunk : Nat) (ce : Bool) (f : Frame) : State × Bool :=
  match selfEid s with
  | none => (bump s (cMod 9), false)
  | some self =>
    let x := ctxOf s c
    let r := originate (setCtx s c { x with seq := (x.seq + 1) % 2 ^ 16 }) die (collHeader s self c mc dest chunk ce f)
    (r.1, r.2 == 0)

/-- Payload bytes of every COLL_RESULT frame of an output in format d but the last: 4,096, or the whole MX groups that
fit (R188, R228). -/
def resultBytes (d : Nat) : Nat :=
  let g := 8 + 32 * fmtBits d
  if isMx d then 4096 / g * g else 4096

/-- COLL_RESULT frames of a chunk's output in format d; at least one (R188, R228, R258). OFFSET rounds down where
whole MX groups do not end on 256 B (log entry 74). -/
def resultFrames (d : Nat) (poison : Bool) (flags : Nat) (data : List Byte) : List Frame :=
  let n := resultBytes d
  (List.range (max 1 (ceilDiv data.length n))).map fun i =>
    let p := (data.drop (n * i)).take n
    { type := tRESULT, poison := poison, length := p.length, payload := p,
      aux := at_ 16 (n * i / 256) + at_ 8 (flags % 256) }

def sendResult (s : State) (c die : Nat) (mc : Bool) (dest chunk : Nat) (ce : Bool) (l : List Frame) : State :=
  forEach l s fun s f =>
    let r := collFrame s c die mc dest chunk ce f
    if r.2 then bump r.1 (cCtx c 1) else r.1

/-- The riser takes every frame of a list, one after the other (R120, R234). -/
def takesAll (c die : Nat) (mc : Bool) (dest chunk : Nat) : State → List Frame → Bool
  | _, [] => true
  | s, f :: r =>
    match selfEid s with
    | none => true
    | some self =>
      riserTakes s die (collHeader s self c mc dest chunk false f)
        && takesAll c die mc dest chunk (collFrame s c die mc dest chunk false f).1 r

/-- A COLL_CMPL frame with its payload of R273. -/
def cmplFrame (n : Nat) (status : Nat) (m : CmplSum) : Frame :=
  { type := tCMPL, length := 32, aux := at_ 24 status + at_ 16 (m.flags % 256),
    payload := bytesOfWords
      [mkWord [at_ 32 (n % 2 ^ 32), m.count % 2 ^ 32],
       mkWord [at_ 44 (min 0xFFFFF m.excluded.length), if status = 0 then 0xFFFFFFFF else m.errChunk % 2 ^ 32],
       mkWord [m.eid % 2 ^ 24],
       mkWord [at_ 32 (m.expected % 2 ^ 32), m.received % 2 ^ 32]] }

/-- A chunk is added to what the invocation's completion will report: the highest status, its lowest chunk,
and the OR of the flags (R274). -/
def addChunk (m : CmplSum) (chunk : Nat) (one : CmplSum) : CmplSum :=
  let s := { m with
    count := m.count + 1, flags := m.flags ||| one.flags, cm := m.cm || one.cm,
    excluded := one.excluded.foldl addNew m.excluded, done := addNew m.done chunk }
  if m.best < one.best ∨ (one.best ≠ 0 ∧ one.best = m.best ∧ chunk < m.errChunk) then
    { s with best := one.best, errChunk := chunk, eid := one.eid, expected := one.expected, received := one.received }
  else s

/-- A chunk completes: it is counted, and with COALESCE 0 its COLL_CMPL is sent (R275). -/
def chunkCompletes (s : State) (c die chunk : Nat) (mc : Bool) (dest : Nat) (one : CmplSum) : State :=
  let x := ctxOf s c
  let s := setCtx s c { x with sum := addChunk x.sum chunk one }
  if ctxCoalesce x then s
  else (collFrame s c die mc dest chunk one.cm (cmplFrame x.n one.best { one with count := 1, errChunk := chunk })).1

/-! ### Arrivals, statistics and suspects: R277 to R279 -/

/-- A member's contribution has been written. -/
def arrived (s : State) (c m : Nat) : State :=
  modCtx s c fun x => { x with arrivals := tset 0 x.arrivals m (s.now + 1) }

def missedMembers (s : State) (c : Nat) (l : List Nat) : State :=
  modCtx s c fun x => { x with missing := l.foldl addNew x.missing }

def minList (l : List Nat) : Option Nat :=
  match l with
  | [] => none
  | x :: r => some (r.foldl min x)

def maxList (l : List Nat) : Nat := l.foldl max 0

/-- The slowest member of the invocation and its lag in µs. -/
def slowestOf (x : Ctx) : Option (Nat × Nat) :=
  match minList x.missing with
  | some m => some (m, 0x1FFFF)
  | none =>
    match minList (x.arrivals.map (·.2)) with
    | none => none
    | some first =>
      let last := maxList (x.arrivals.map (·.2))
      (minList ((x.arrivals.filter fun e => e.2 == last).map (·.1))).map fun m =>
        (m, min 0x1FFFE ((last - first) / usT))

/-- The per-member records of R278. -/
def noteStats (x : Ctx) (slow : Nat) : Tab Stat :=
  let t := tmod {} x.stats slow fun r => { r with last := min 0xFFFF (r.last + 1) }
  let t := x.missing.foldl (fun t m => tmod {} t m fun r => { r with miss := min 0xFFFF (r.miss + 1) }) t
  let first := (minList (x.arrivals.map (·.2))).getD 0
  x.arrivals.foldl (fun t e => tmod {} t e.1 fun r =>
    { r with lag := min 0xFFFFFFFF (r.lag + (e.2 - first) / usT) }) t

def countIn (l : List Nat) (m : Nat) : Nat := (l.filter fun x => x == m).length

/-- Suspect marking over the last SUSPECT_WINDOW invocations (R279). -/
def noteSuspects (s : State) (c slow : Nat) : State :=
  let x := ctxOf s c
  let hist := (slow :: x.slowest).take (rf s oCTX_CFG 13 8)
  let lim := rf s oCTX_CFG 5 0
  let sus := (hist.foldl addNew []).filter fun m => decide (lim ≤ countIn hist m)
  let s := setCtx s c { x with slowest := hist, suspects := sus }
  forEach (sus.filter fun m => !x.suspects.contains m) s fun s m =>
    raiseEvent s 0x603 (ctxPart x) (at_ 52 c) (at_ 44 (countIn hist m) + at_ 24 m + memberEid s c m)

/-- The records that an invocation's end leaves (R277 to R279). -/
def noteArrivals (s : State) (c : Nat) : State :=
  let x := ctxOf s c
  match slowestOf x with
  | none => s
  | some (m, lag) =>
    let stats := if ctxStatsEn x then noteStats x m else x.stats
    let s := setCtx s c { x with lastMember := m, lastLag := lag, stats := stats }
    if ctxSuspectEn x then noteSuspects s c m else s

/-! ### The end of an invocation: R256, R273 to R276 -/

/-- The context once an invocation has ended, whatever its outcome: N advances and inclusions take effect (R256,
R276). -/
def nextInvocation (x : Ctx) : Ctx :=
  { x with
    n := (x.n + 1) % 2 ^ 32, dyn := false, chunks := [], sum := {}, advanced := false, mmRaised := false,
    exRaised := [], arrivals := [], missing := [], including := [],
    excluded := x.excluded.filter fun m => !x.including.contains m }

/-- An invocation ends: its completion is sent, N advances and inclusions take effect. `early` is the status
of an invocation that is cut short, with the lowest chunk not completed and the EID to name. -/
def endInvocation (s : State) (c : Nat) (early : Option (Nat × Nat × Nat)) : State :=
  let x := ctxOf s c
  let send (s : State) (st : Nat) (m : CmplSum) : State :=
    (collFrame s c 0 true (ctxCmplGroup x) allOnesChunk x.sum.cm (cmplFrame x.n st m)).1
  let s := match early with
    | some (st, chunk, eid) => send s st { x.sum with errChunk := chunk, eid := eid, expected := 0, received := 0 }
    | none => if ctxCoalesce x then send s x.sum.best x.sum else s
  let s := noteArrivals s c
  modCtx s c nextInvocation

/-! ### State in memory: R207 to R210 -/

/-- The bytes [off, off + n) of a region, none where a line is POISONED. -/
def readBytes (s : State) (base off n : Nat) : State × Option (List Byte) :=
  let l0 := off / 64
  let cnt := (off + n + 63) / 64 - l0
  let r := readLines s base cnt l0
  let s := doneReads s base l0 cnt
  (s, if r.2.isSome then none else some (sliceB r.1 (off - 64 * l0) n))

/-- One line with the bytes of a write that fall into it; a poisoned line that is not written whole keeps
its marker. -/
def patchLine (old : Line) (off line : Nat) (data : List Byte) : Line :=
  let b := 64 * line
  if off ≤ b ∧ b + 64 ≤ off + data.length then .data (bytesLine ((data.drop (b - off)).take 64))
  else match old with
    | .poison => .poison
    | .data v =>
      let skip := b - off
      let at' := off - b
      .data (bytesLine (putBytes (lineBytes v) at' ((data.drop skip).take (64 - at'))))

/-- Write bytes at [off, …) of a region. -/
def writeBytes (s : State) (base off : Nat) (data : List Byte) : State :=
  let l0 := off / 64
  forEach (List.range ((off + data.length + 63) / 64 - l0)) s fun s i =>
    setRegionLine s base (l0 + i) (patchLine (regionLine s base (l0 + i)) off (l0 + i) data)

/-- Where the state of n elements from buffer element e0 lies: the region's base granule and the byte offset
of each plane; none where R207 fails. -/
def stateGeo (s : State) (x : Ctx) (e0 n : Nat) : Option (Nat × List Nat) :=
  let u := ctxBlock x
  let pe := fld (nth 0 u 7) 39 0
  let s0 := e0 + fld (nth 0 u 6) 39 0
  let np := planesOf (aOp (ctxArith x))
  match regionOf s (ctxPart x) (fld (nth 0 u 5) 31 0) with
  | none => none
  | some v =>
    if !(rgRights v).testBit 3 ∨ 256 * rgSize v < 4 * np * pe ∨ pe < s0 + n then none
    else some (rgBase v, (List.range np).map fun k => 4 * k * pe + 4 * s0)

/-- All planes of n elements, none where a line is POISONED. -/
def readPlanes (s : State) (base n : Nat) : List Nat → State × Option (List (List Byte))
  | [] => (s, some [])
  | o :: r =>
    let a := readBytes s base o (4 * n)
    let b := readPlanes a.1 base n r
    (b.1, match a.2, b.2 with
      | some x, some y => some (x :: y)
      | _, _ => none)

/-- The planes' bits per element. -/
def planeElems (n : Nat) (l : List (List Byte)) : List (Nat × Nat × Nat) :=
  (List.range n).map fun i =>
    (leAt (nth [] l 0) (4 * i) 4, leAt (nth [] l 1) (4 * i) 4, leAt (nth [] l 2) (4 * i) 4)

def planeBytes (l : List (Nat × Nat × Nat)) : List (List Byte) :=
  [l.flatMap fun e => leBytes 4 e.1, l.flatMap fun e => leBytes 4 e.2.1, l.flatMap fun e => leBytes 4 e.2.2]

def writePlanes (s : State) (base : Nat) (offs : List Nat) (l : List (Nat × Nat × Nat)) : State :=
  let b := planeBytes l
  forEach (List.range offs.length) s fun s k => writeBytes s base (nth 0 offs k) (nth [] b k)

/-- The update block advances once per invocation (R208). -/
def advanceOnce (s : State) (c : Nat) : State :=
  modCtx s c fun x =>
    if x.advanced then x
    else { x with advanced := true, record := x.record.take 8 ++ advanceBlock (ctxBlock x) }

/-- R209 over the elements of a chunk: the returned weights, the new state and the flags. -/
def updateAll (x : Ctx) (vals : List FVal) (state : List (Nat × Nat × Nat)) :
    List FVal × List (Nat × Nat × Nat) × Nat :=
  let r := (List.range vals.length).map fun i =>
    let e := nth (0, 0, 0) state i
    updateElem (aOp (ctxArith x)) (ctxBlock x) e.1 e.2.1 e.2.2 (nth .nan vals i) 0
  (r.map fun a => a.1.2.2.2, r.map fun a => (a.1.1, a.1.2.1, a.1.2.2.1), r.foldl (fun f a => f ||| a.2) 0)

/-! ### Dynamic chunks: R270 -/

def ctxChunk (x : Ctx) (k : Nat) : Chunk := tget {} x.chunks k
def setChunk (s : State) (c k : Nat) (v : Chunk) : State :=
  modCtx s c fun x => { x with chunks := tset {} x.chunks k v }
def modChunk (s : State) (c k : Nat) (f : Chunk → Chunk) : State := setChunk s c k (f (ctxChunk (ctxOf s c) k))

/-- A dynamic chunk that has started and not completed holds its slots. -/
def chunkOpen (v : Chunk) : Bool := !v.slots.isEmpty && !v.done

/-- The crucible of a dynamic chunk. -/
def chunkCu (x : Ctx) (k : Nat) : Nat := ctxCuFirst x + k % ctxCuCount x

/-- Slots a dynamic chunk claims (R212). -/
def chunkSlots (x : Ctx) (k : Nat) : Nat :=
  ceilDiv (recordBytes (ctxArith x) (ctxCombine x) (runsExact x true)
    (if isCombine x then chunkTokens x k else chunkElems x k)) 65536

/-- The chunk's first contribution claims its slots and starts it. -/
def startChunk (s : State) (c k : Nat) : State :=
  let x := ctxOf s c
  if chunkOpen (ctxChunk x k) then s
  else
    let l := (poolSlots s (chunkCu x k)).take (chunkSlots x k)
    let s := forEach l s fun s g => setCruSlot s g { cruSlot s g with use := 2, owner := c, since := s.now }
    let s := modChunk s c k fun v => { v with slots := l, startedAt := s.now }
    modCtx s c fun x => { x with dyn := true }

/-- Member slots of the context that are excluded and that the chunk has not received. -/
def chunkMissing (x : Ctx) (v : Chunk) : List Nat :=
  x.excluded.filter fun m => decide (m < ctxMembers x) && !v.received.contains m

/-- Every member slot that is not excluded is in; under COMBINE, every segment has TOPK contributions. -/
def chunkFull (x : Ctx) (k : Nat) (v : Chunk) : Bool :=
  if isCombine x then segsFull (ctxCombine x) (k * cTokens (ctxCombine x)) (chunkTokens x k) v.segs
  else v.received.length + (chunkMissing x v).length == ctxMembers x

/-- The reduction result of a chunk of n elements from e0 (t tokens from t0), as values and flags. -/
def chunkVals (x : Ctx) (exact : Bool) (n t0 t : Nat) (v : Chunk) : List FVal × Nat :=
  if isCombine x then combineVals (ctxArith x) (ctxCombine x) exact t0 t v.segs
  else accVals (ctxArith x) (if v.acc.isEmpty then List.replicate n .none else v.acc)

/-- The final conversion (R194, stage 0). A dynamic chunk's empty values convert without a flag in every format that
its operation allows (R191, R449). -/
def finalOut (x : Ctx) (e0 : Nat) (vals : List FVal) : List Byte × Nat :=
  convOut (aOut (ctxArith x)) (srOf (aRound (ctxArith x)) (ctxSeed x) x.n 0) e0 (noEmpty vals)

/-- The update of a dynamic chunk: state read whole, then written; POISONED or STATE_RANGE writes none. -/
def updateChunk (s : State) (c e0 : Nat) (vals : List FVal) : State × List FVal × Nat × Nat :=
  let s := advanceOnce s c
  let x := ctxOf s c
  match stateGeo s x e0 vals.length with
  | none => (s, vals, flSTATE_RANGE, csSTATE_RANGE)
  | some (base, offs) =>
    let r := readPlanes s base vals.length offs
    match r.2 with
    | none => (r.1, vals, 0, csPOISONED)
    | some b =>
      let u := updateAll x vals (planeElems vals.length b)
      (writePlanes r.1 base offs u.2.1, u.1, u.2.2, 0)

/-- A chunk's output: result bytes, flags and the status that poisons it, with the state written. -/
def chunkOutput (s : State) (c k : Nat) (v : Chunk) : State × List Byte × Nat × Nat :=
  let x := ctxOf s c
  let n := chunkElems x k
  let zeros := List.replicate (payBytes (aOut (ctxArith x)) n) (0 : Byte)
  if v.poison ≠ 0 then (s, zeros, v.flags, v.poison)
  else
    let e0 := chunkE0 x k
    let r := chunkVals x (runsExact x true) n (k * cTokens (ctxCombine x)) (chunkTokens x k) v
    let u := if isUpdate (aOp (ctxArith x)) then updateChunk s c e0 r.1 else (s, r.1, 0, 0)
    let fl := v.flags ||| r.2 ||| u.2.2.1
    if u.2.2.2 ≠ 0 then (u.1, zeros, fl, u.2.2.2)
    else
      let o := finalOut x e0 u.2.1
      (u.1, o.1, fl ||| o.2, 0)

/-- A dynamic chunk completes: its result and completion are sent and its slots released. -/
def completeChunk (s : State) (c k : Nat) : State :=
  let x := ctxOf s c
  let v := ctxChunk x k
  let o := chunkOutput s c k v
  let s := o.1
  let die := chunkCu x k / 16
  let miss := chunkMissing x v
  let status := max o.2.2.2 (if miss.isEmpty then 0 else csPARTIAL)
  let s := sendResult s c die (ctxKind x == 0) (if ctxKind x = 0 then ctxResultGroup x else ctxRoot x) k v.cmSeen
    (resultFrames (aOut (ctxArith x)) (o.2.2.2 != 0) o.2.2.1 o.2.1)
  let one : CmplSum :=
    { best := status, flags := o.2.2.1, excluded := miss, cm := v.cmSeen,
      eid := if status = csMISMATCH then v.mmEid
        else if status = csPARTIAL then memberEid s c ((minList miss).getD 0) else 0,
      expected := if status = csMISMATCH then v.mmExpected else 0,
      received := if status = csMISMATCH then v.mmReceived else 0 }
  let s := chunkCompletes (missedMembers s c miss) c die k true (ctxCmplGroup x) one
  let s := releaseSlots s v.slots
  let s := setChunk s c k { received := v.received, done := true }
  if (ctxOf s c).sum.count = ctxChunks x then endInvocation s c none else s

/-- Complete the chunk if nothing is missing. -/
def checkChunk (s : State) (c k : Nat) : State :=
  let x := ctxOf s c
  if chunkOpen (ctxChunk x k) && chunkFull x k (ctxChunk x k) then completeChunk s c k else s

/-- Chunks started and not completed. -/
def openChunks (x : Ctx) : List Nat := (x.chunks.filter fun e => chunkOpen e.2).map (·.1)

/-- The dynamic invocation ends early: its chunks send no result and their slots are released. -/
def endDynamic (s : State) (c status eid : Nat) : State :=
  let x := ctxOf s c
  let left := (List.range (ctxChunks x)).find? fun k => !(ctxChunk x k).done
  let s := releaseSlots s ((openChunks x).flatMap fun k => (ctxChunk x k).slots)
  endInvocation s c (some (status, left.getD 0xFFFFFFFF, eid))

/-- Member slots that some incomplete chunk has not received and that are not excluded. -/
def lateMembers (x : Ctx) : List Nat :=
  let bad := ((List.range (ctxChunks x)).map (ctxChunk x)).filter fun v => !v.done
  (List.range (ctxMembers x)).filter fun m =>
    !x.excluded.contains m && bad.any fun v => !v.received.contains m

/-- No contribution for DYN_TIMEOUT: the incomplete chunks end LATE (R272). -/
def dynTimeoutExpiry (c : Nat) (s : State) : State :=
  let x := ctxOf s c
  if ctxUp x && x.dyn then
    let s := await s x.lastTaken (rf s oCTX_CFG 63 47 * usT)
    let late := lateMembers x
    let s := missedMembers s c (late ++ x.excluded.filter fun m => decide (m < ctxMembers x))
    endDynamic s c csLATE (match minList late with
      | some m => memberEid s c m
      | none => 0)
  else s

def execDynTimeoutExpiry (ctx : Nat) (s : State) : Out := .next (dynTimeoutExpiry ctx s)

end Sys2Proof.Machine
end

