-- ==== Sys2Proof/Machine/PlanBase.lean ====
section
/-! DEFINITION. Pour plans as loaded (chapter 07): claims, phases, windows, pour words, the lines of a window,
and when its contributions are complete. -/
namespace Sys2Proof.Machine

/-! ### Claims: R223 -/

def clWORDS : Nat := 1
def clSLOTS : Nat := 2
def clREGION : Nat := 3
def clGATE : Nat := 4
def clSPRUE : Nat := 5

/-- Sequencer or crucible, first and count of a PLAN_WORDS or CRU_SLOTS claim. -/
def wordsClaim (c : Word × Word) : Nat × Nat × Nat := (fld c.1 55 50, fld c.1 49 34, fld c.1 33 17)
def slotsClaim (c : Word × Word) : Nat × Nat × Nat := (fld c.1 55 50, fld c.1 49 41, fld c.1 40 31)

def claimSpan (c : Word × Word) : Nat × Nat × Nat :=
  if claimKind c = clWORDS then wordsClaim c else slotsClaim c

/-- The cell times of a GATE claim. -/
def gateTimes (c : Word × Word) : List Nat :=
  (List.range (fld c.1 27 18)).map fun i => fld c.1 37 28 + i * fld c.1 17 8

def gateIn (c : Word × Word) : Nat := fld c.1 55 47
def gateOut (c : Word × Word) : Nat := fld c.1 46 38

/-- The slots of a plan's CRU_SLOTS claims on a crucible, in claim order, by number 512n + slot. -/
def planSlots (p : Plan) (cu : Nat) : List Nat :=
  (p.claims.filter fun c => claimKind c == clSLOTS && fld c.1 55 50 == cu).flatMap fun c =>
    (List.range (slotsClaim c).2.2).map fun i => 512 * cu + (slotsClaim c).2.1 + i

/-- Every slot of a plan. -/
def allSlots (p : Plan) : List Nat := (List.range 64).flatMap (planSlots p)

/-! ### Phases: R224 -/

def phase (p : Plan) (k : Nat) : Word × Word × Word := nth (0, 0, 0) p.phases k
def phSeq (e : Word × Word × Word) : Nat := fld e.1 63 58
def phFirst (e : Word × Word × Word) : Nat := fld e.1 57 42
def phInFirst (e : Word × Word × Word) : Nat := fld e.1 41 30
def phInCount (e : Word × Word × Word) : Nat := fld e.1 29 17
def phLate (e : Word × Word × Word) : Nat := fld e.1 16 15
def phPour (e : Word × Word × Word) : Nat := fld e.2.1 63 32
def phDeadline (e : Word × Word × Word) : Nat := fld e.2.1 31 0
def phWait (e : Word × Word × Word) : Nat := fld e.2.2 63 32

def phInputs (e : Word × Word × Word) : List Nat := (List.range (phInCount e)).map fun i => phInFirst e + i

/-- The phases that a sequencer runs, in order. -/
def seqPhases (p : Plan) (n : Nat) : List Nat :=
  (List.range p.phases.length).filter fun k => phSeq (phase p k) == n

/-- The sequencers that a plan uses. -/
def planSeqs (p : Plan) : List Nat := (p.phases.map phSeq).foldl addNew []

/-! ### Windows: R225 -/

def window4 (p : Plan) (i : Nat) : Word × Word × Word × Word := nth (0, 0, 0, 0) p.windows i
def wnChunk (e : Word × Word × Word × Word) : Nat := fld e.1 63 32
def wnFmt (e : Word × Word × Word × Word) : Nat := fld e.1 31 27
def wnKind (e : Word × Word × Word × Word) : Nat := fld e.1 26 25
def wnPreopen (e : Word × Word × Word × Word) : Bool := bit e.1 24
def wnCru (e : Word × Word × Word × Word) : Nat := fld e.1 23 18
def wnFirst (e : Word × Word × Word × Word) : Nat := fld e.2.1 63 44
def wnMembers (e : Word × Word × Word × Word) : Nat := fld e.2.1 43 24
def wnLocal (e : Word × Word × Word × Word) : Bool := bit e.2.1 23
def wnSrc (e : Word × Word × Word × Word) : Nat := fld e.2.1 22 17
def wnIn (e : Word × Word × Word × Word) : Nat := fld e.2.2.1 63 47
def wnAcc (e : Word × Word × Word × Word) : Nat := fld e.2.2.1 46 30
def wnOut (e : Word × Word × Word × Word) : Nat := fld e.2.2.1 29 13
def wnLines (e : Word × Word × Word × Word) : Nat := fld e.2.2.1 12 0
def wnElems (e : Word × Word × Word × Word) : Nat := fld e.2.2.2 63 32
def wnState (e : Word × Word × Word × Word) : Nat := fld e.2.2.2 31 15

def win (p : Plan) (i : Nat) : WinRun := tget {} p.win i
def setWin (s : State) (c i : Nat) (w : WinRun) : State :=
  modPlan s c fun p => { p with win := tset {} p.win i w }
def modWin (s : State) (c i : Nat) (f : WinRun → WinRun) : State := setWin s c i (f (win (planOf s c) i))

/-! ### Pour words: R227 -/

/-- Bits [hi:lo] of a pour word. -/
def pw (w : BitVec 256) (hi lo : Nat) : Nat := (w.toNat >>> lo) % 2 ^ (hi + 1 - lo)

def pwDelta (w : BitVec 256) : Nat := pw w 255 240
/-- Unit u of RECV, ACC, CVT, MEM, SEND, SYNC is enabled. -/
def pwEn (w : BitVec 256) (u : Nat) : Bool := pw w (239 - u) (239 - u) == 1
def syncOp (w : BitVec 256) : Nat := pw w 223 220
def syncPhase (w : BitVec 256) : Nat := pw w 219 208
def recvOp (w : BitVec 256) : Nat := pw w 191 188
def recvWin (w : BitVec 256) : Nat := pw w 187 176
def accOp (w : BitVec 256) : Nat := pw w 175 172
def accWin (w : BitVec 256) : Nat := pw w 171 160
def accMember (w : BitVec 256) : Nat := pw w 159 140
def accSpan (w : BitVec 256) : Nat := if pw w 139 132 = 0 then 256 else pw w 139 132
def cvtOp (w : BitVec 256) : Nat := pw w 127 124
def cvtWin (w : BitVec 256) : Nat := pw w 123 112
def cvtFmt (w : BitVec 256) : Nat := pw w 111 107
def cvtMode (w : BitVec 256) : Nat := pw w 106 106
def cvtStage (w : BitVec 256) : Nat := pw w 105 98
def memOp (w : BitVec 256) : Nat := pw w 95 92
def memClaim (w : BitVec 256) : Nat := pw w 91 84
def memWin (w : BitVec 256) : Nat := pw w 83 72
def memOff (w : BitVec 256) : Nat := pw w 63 40
def sendOp (w : BitVec 256) : Nat := pw w 39 36
def sendWin (w : BitVec 256) : Nat := pw w 35 24
def sendTarget (w : BitVec 256) : Nat := pw w 23 4
def sendTc (w : BitVec 256) : Nat := pw w 3 1

def planWord (s : State) (seq addr : Nat) : BitVec 256 := tget 0 s.plan.memory (65536 * seq + addr)

/-- The addresses of a plan's words, by sequencer. -/
def planAddrs (p : Plan) : List (Nat × Nat) :=
  (p.claims.filter fun c => claimKind c == clWORDS).flatMap fun c =>
    (List.range (wordsClaim c).2.2).map fun i => ((wordsClaim c).1, (wordsClaim c).2.1 + i)

def planWords (s : State) (p : Plan) : List (Nat × Nat × BitVec 256) :=
  (planAddrs p).map fun a => (a.1, a.2, planWord s a.1 a.2)

/-! ### Lines of a window: R212, R225, R239 -/

/-- The formats its output can take: FMT, and that of every CVT word that names it. -/
def outFmts (words : List (Nat × Nat × BitVec 256)) (k1 : Word) (i : Nat) (e : Word × Word × Word × Word) : List Nat :=
  wnFmt e :: (words.filter fun w => w.1 == wnCru e && pwEn w.2.2 2 && cvtWin w.2.2 == i).map fun w =>
    if cvtStage w.2.2 = 0 then aOut k1 else cvtFmt w.2.2

/-- Bytes of a window's accumulator record without state. -/
def winAccBytes (k1 k2 : Word) (n : Nat) : Nat :=
  if aOp k1 = opCOMBINE then recordBytes k1 k2 (aExact k1) (ceilDiv n (max 1 (cRow k2)))
  else n * accBytes k1 (aExact k1)

/-- The line ranges of a window: accumulator, output at its largest, STORE contributions, state buffer. -/
def winRanges (k1 k2 : Word) (fmts : List Nat) (e : Word × Word × Word × Word) : List (Nat × Nat) :=
  let n := wnElems e
  [(wnAcc e, ceilDiv (winAccBytes k1 k2 n) 256), (wnOut e, ceilDiv (maxList (fmts.map fun f => payBytes f n)) 256)]
    ++ (if wnKind e = 0 then [(wnIn e, wnMembers e * wnLines e)] else [])
    ++ (if isUpdate (aOp k1) then [(wnState e, ceilDiv (4 * planesOf (aOp k1) * n) 256)] else [])

def rangesMeet (a b : List (Nat × Nat)) : Bool := a.any fun x => b.any fun y => overlaps x.1 x.2 y.1 y.2

/-! ### Contributions of a window: R225, R237, R246 -/

/-- Excluded members of a window that it has not received. A LOCAL source is no member slot of the context. -/
def winExcluded (x : Ctx) (e : Word × Word × Word × Word) (w : WinRun) : List Nat :=
  ((if wnLocal e then w.c.excluded else w.c.excluded.foldl addNew x.excluded).filter fun m =>
    decide (wnFirst e ≤ m) && decide (m < wnFirst e + wnMembers e) && !w.c.received.contains m)

/-- Members neither received nor excluded. -/
def winMissing (x : Ctx) (e : Word × Word × Word × Word) (w : WinRun) : List Nat :=
  ((List.range (wnMembers e)).map fun i => wnFirst e + i).filter fun m =>
    !w.c.received.contains m && !(winExcluded x e w).contains m

/-- The tokens of a COMBINE window: first and count. -/
def winTokens (x : Ctx) (e : Word × Word × Word × Word) : Nat × Nat :=
  (wnChunk e * cTokens (ctxCombine x), wnElems e / max 1 (cRow (ctxCombine x)))

/-- Every awaited contribution of an input window is in (R204, R232). -/
def winComplete (x : Ctx) (e : Word × Word × Word × Word) (w : WinRun) : Bool :=
  w.forced ||
    (if wnKind e = 2 ∧ isCombine x then segsFull (ctxCombine x) (winTokens x e).1 (winTokens x e).2 w.c.segs
     else decide (wnMembers e ≤ w.c.received.length + (winExcluded x e w).length))

/-- A COMBINE segment has begun and lacks contributions (R246). -/
def segsBegun (x : Ctx) (w : WinRun) : Bool :=
  w.c.segs.any fun g => (segCols (ctxCombine x) g).any fun c =>
    decide ((segHave w.c.segs g.token c).length < cTopk (ctxCombine x))

/-- Incomplete contributions of R246: opened in the run, and a member not in, or a segment begun. -/
def winIncomplete (x : Ctx) (e : Word × Word × Word × Word) (w : WinRun) : Bool :=
  w.st != 0 && !w.forced && (!(winMissing x e w).isEmpty || (wnKind e == 2 && isCombine x && segsBegun x w))

/-- Note the moment at which windows of the run became complete. -/
def noteDone (s : State) (c : Nat) : State :=
  if !(planOf s c).running then s
  else
    let x := ctxOf s c
    forEach (List.range (planOf s c).windows.length) s fun s i =>
      let p := planOf s c
      let w := win p i
      if w.doneAt.isNone && winComplete x (window4 p i) w then setWin s c i { w with doneAt := some s.now } else s

end Sys2Proof.Machine
end

