-- ==== Sys2Proof/Machine/Launch.lean ====
section
/-! DEFINITION. Frame launch at a given time (R249, R250) and the way of a SEND_FRAME into the riser (R345). -/
namespace Sys2Proof.Machine

def launchStore (s : State) (d : Nat) : List Launch := tget [] s.plan.launch d
def setLaunch (s : State) (d : Nat) (l : List Launch) : State :=
  { s with plan := { s.plan with launch := tset [] s.plan.launch d l } }

/-- The destination check of R345, made as the frame is due to enter the riser; every partition reaches SELF_EID
(R95). -/
def destOk (s : State) (part : Nat) (f : Frame) : Bool :=
  if f.mc then
    let e := mcastOf s (f.dest % 2 ^ 16)
    mcValid e && (mcOwner e == part || reaches s part (mcOwner e))
  else if selfEid s == some f.dest then true
  else
    let w := routeOf s f.dest
    rtValid w && (rtPart w == part || reaches s part (rtPart w))

/-- A frame of a descriptor enters the riser through a die's internal port, and its descriptor completes; one
that may not, or that has no way out, completes with UNREACHABLE. -/
def enterRiser (s : State) (d : Nat) (l : Launch) : State :=
  let done (s : State) (st detail : Nat) : State := complete s .cmd l.ring l.tag st detail 0
  match selfEid s with
  | none => done s stUNREACHABLE 0
  | some self =>
    if !destOk s l.part l.f then done s stUNREACHABLE 0
    else
      let r := originate s d { l.f with src := self }
      if r.2 = 0 then done r.1 (if l.late then stLATE_LAUNCH else stOK) (nt32 s) else done r.1 stUNREACHABLE 0

/-- A timed frame that its launch time lets go: not while sends are held at entry to a lower state, or asleep
(R418, R420). -/
def launchDue (s : State) (l : Launch) : Bool := !l.release && s.tim.inForce && s.pwr.state == 0

/-- The entry that goes first: the earliest launch time, and of equal ones the first fetched. -/
def earliest : List Launch → Option Launch
  | [] => none
  | l :: r =>
    match earliest r with
    | none => some l
    | some m => if l.time < m.time ∨ (l.time = m.time ∧ l.order ≤ m.order) then some l else some m

/-- A timed frame of a die's launch store enters the riser (R249). -/
def frameLaunch (d : Nat) (s : State) : State :=
  match earliest ((launchStore s d).filter (launchDue s)) with
  | none => s
  | some l =>
    let s := awaitNt s l.time
    enterRiser (bump (setLaunch s d ((launchStore s d).erase l)) (cDie d 8)) d l

def execFrameLaunch (die : Nat) (s : State) : Out := .next (frameLaunch die s)

/-- The oldest frame held for SEND RELEASE of a context, with its die. -/
def heldFor (s : State) (c : Nat) : Option (Nat × Launch) :=
  let all := (List.range 4).flatMap fun d =>
    ((launchStore s d).filter fun l => l.release && l.f.ctx == c).map fun l => (d, l)
  (minList (all.map fun e => e.2.order)).bind fun o => all.find? fun e => e.2.order == o

/-- SEND RELEASE: the oldest held frame of the context enters the riser, or RELEASE_EMPTY counts (R228, R250). -/
def releaseHeldFrame (s : State) (c : Nat) : State :=
  match heldFor s c with
  | none => bump s (cCtx c 10)
  | some (d, l) => enterRiser (bump (setLaunch s d ((launchStore s d).erase l)) (cDie d 8)) d l

/-- CTX_TEARDOWN discards the frames held for the context (R255, R345). -/
def discardHeld (s : State) (c : Nat) : State :=
  forEach (List.range 4) s fun s d =>
    let gone := (launchStore s d).filter fun l => l.release && l.f.ctx == c
    let s := setLaunch s d ((launchStore s d).filter fun l => !(l.release && l.f.ctx == c))
    forEach gone s fun s l => complete s .cmd l.ring l.tag stDISCARDED 0 0

end Sys2Proof.Machine
end

