-- ==== Sys2Proof/Machine/CtxCmd.lean ====
section
/-! DEFINITION. The context commands (R253 to R255, R276, R278, R349). -/
namespace Sys2Proof.Machine

/-! ### Status words of a context: R281 -/

def ctxStatusWord (s : State) (c : Nat) : Word :=
  let x := ctxOf s c
  let run := if (planOf s c).running then 2 else if x.dyn then 1 else 0
  let st := if x.state = 1 ∧ run ≠ 0 then 2 else x.state
  mkWord [at_ 60 st, at_ 53 (ctxPart x), at_ 51 run, at_ 44 (x.excluded.length % 128),
    at_ 32 (min 4095 (openChunks x).length), x.n % 2 ^ 32]

def ctxHashWord (s : State) (c : Nat) : Word := BitVec.ofNat 64 ((ctxOf s c).hash % 2 ^ 32)

/-- The member with the highest count in the suspect window, ties to the lowest slot. -/
def topSuspect (x : Ctx) : Nat × Nat :=
  let hits := maxList (x.slowest.map (countIn x.slowest))
  ((minList (x.slowest.filter fun m => countIn x.slowest m == hits)).getD 0, hits)

def ctxArrivalWord (s : State) (c : Nat) : Word :=
  let x := ctxOf s c
  let t := topSuspect x
  mkWord [at_ 63 (b2n !x.suspects.isEmpty), at_ 43 (t.1 % 2 ^ 20), at_ 37 (t.2 % 64),
    at_ 20 (x.lastLag % 2 ^ 17), x.lastMember % 2 ^ 20]

/-! ### Checks common to the commands -/

def ctxMasks (d1 d2 d3 : Nat) : List Nat := [mask 63 36 + mask 31 0, d1, d2, d3]
def dCtx (d : List Word) : Nat := fld (nth 0 d 0) 47 36

/-- The checks before the record: form, partition, alignment and count, the VF's own partition (R333, R344). -/
def ctxFirst (s : State) (i : Nat) (masks : List Nat) (bad : Bool) (d : List Word) : Option Nat :=
  match firstCheck masks d with
  | some st => some st
  | none =>
    if bad then some stBAD_RANGE
    else if foreignPart s .cmd i (dPart d) then some stWRONG_PARTITION
    else none

/-- The checks of every command but CTX_SETUP on its context. -/
def ctxReady (s : State) (d : List Word) : Option Nat :=
  let x := ctxOf s (dCtx d)
  if x.state = 0 then some stNO_CONTEXT
  else if x.state = 3 then some stCONTEXT_BUSY
  else if ctxPart x ≠ dPart d then some stWRONG_PARTITION
  else none

def ctxBoth (s : State) (i : Nat) (masks : List Nat) (bad : Bool) (d : List Word) : Option Nat :=
  match ctxFirst s i masks bad d with
  | some st => some st
  | none => ctxReady s d

/-! ### CTX_SETUP: R193, R253, R254, R278 -/

/-- Reserved bits of the record are 0. -/
def recordReserved (r : List Word) : Bool :=
  !bit (nth 0 r 0) 48 && fld (nth 0 r 0) 27 0 == 0 && fld (nth 0 r 4) 31 0 == 0 && fld (nth 0 r 5) 63 40 == 0
    && fld (nth 0 r 6) 31 24 == 0 && fld (nth 0 r 7) 50 0 == 0

/-- Reserved bits of the update block are 0 and PLANE_ELEMS is a multiple of 64 (R206). -/
def blockOk (u : List Word) : Bool :=
  fld (nth 0 u 0) 63 33 == 0 && fld (nth 0 u 5) 63 32 == 0 && fld (nth 0 u 6) 63 40 == 0
    && fld (nth 0 u 7) 63 40 == 0 && fld (nth 0 u 7) 39 0 % 64 == 0

/-- CHUNK_ELEMS and ELEMENT_COUNT keep their rules (R254). -/
def chunkRule (x : Ctx) : Bool :=
  let d := aIn (ctxArith x)
  let n := ctxChunkElems x
  if isCombine x then n == 0 && ctxElements x % cRow (ctxCombine x) == 0
  else if isMx d then n != 0 && n % 256 == 0 && decide (payBytes d n ≤ 4096) && ctxElements x % 256 == 0
  else n != 0 && decide (n * elemSize d ≤ 4096)

/-- The checks of R254. -/
def recordOk (r : List Word) : Bool :=
  let x : Ctx := { record := r }
  let upd := isUpdate (aOp (ctxArith x))
  recordReserved r && (ctxTc x == 4 || ctxTc x == 5 || ctxTc x == 6) && ctxKind x != 3 && ctxMembers x != 0
    && chunkRule x && ctxElements x != 0 && ctxCuCount x != 0 && decide (ctxCuFirst x + ctxCuCount x ≤ 64)
    && (if ctxKind x = 1 then ctxRoot x != 0 && ctxRoot x != 0xFFFFFF else ctxRoot x == 0)
    && (if upd then blockOk (ctxBlock x) else (ctxBlock x).all (fun w => w == 0))

/-- Statistics records that a record asks for. -/
def statsNeed (x : Ctx) : Nat := if ctxStatsEn x then ctxMembers x else 0

def statsUsed (s : State) (except_ : Nat) : Nat :=
  ((s.coll.ctxs.filter fun e => e.1 != except_ && ctxUp e.2).map fun e => statsNeed e.2).foldl (· + ·) 0

/-- The record is taken, or the status that refuses it. -/
def setupRecord (s : State) (i : Nat) (d : List Word) (r : List Word) : State × Nat :=
  let c := dCtx d
  let old := ctxOf s c
  let x : Ctx := { record := r }
  if !arithOk (ctxArith x) (ctxCombine x) then (s, stBAD_ARITH)
  else if !recordOk r then (s, stBAD_RECORD)
  else if ctxPart x ≠ dPart d ∨ (old.state = 1 ∧ foreignPart s .cmd i (ctxPart old)) then (s, stWRONG_PARTITION)
  else if (!hasStacks s && isUpdate (aOp (ctxArith x))) || (!hasCrucibles s && (ctxArith x != 0 || ctxKind x != 2)) then
    (s, stUNIT_ABSENT)
  else if 1048576 < statsUsed s c + statsNeed x then (s, stSTATS_FULL)
  else
    let s :=
      if old.state = 1 then
        setCtx s c { old with record := r, stats := if ctxMembers old = ctxMembers x then old.stats else [] }
      else setCtx s c { state := 1, record := r }
    (rehash s c, stOK)

/-- The context is in use: SCRUBBING, a plan is held or a reduction is in progress (R193, R255, R280). -/
def ctxBusy (s : State) (c : Nat) : Bool :=
  let x := ctxOf s c
  x.state == 3 || x.dyn || planned s c

def opCtxSetup (i : Nat) : DescOp := fun s d key a =>
  let addr := (nth 0 d 1).toNat
  match ctxFirst s i (ctxMasks ones 0 0) (addr % 8 != 0) d with
  | some st => some (complete s .cmd i key st 0 0)
  | none =>
    if ctxBusy s (dCtx d) then some (complete s .cmd i key stCONTEXT_BUSY 0 0)
    else match hostIn s .cmd i addr 128 a with
      | none => none
      | some (_, some w) => some (complete s .cmd i key stDMA_ERROR w 0)
      | some (b, none) =>
        let r := setupRecord s i d (wordsOf b 16)
        some (complete r.1 .cmd i key r.2 0 0)

def ctxSetup (i : Nat) (s : State) : State := runHead .cmd i 0x20 (opCtxSetup i) s

def execCtxSetup (ring : Nat) (s : State) : Out := .next (ctxSetup ring s)

/-! ### CTX_READ and CTX_STATS -/

/-- Copy bytes to the buffer of a command and complete it. -/
def copyOut (s : State) (i key addr count : Nat) (data : List Byte) (a : Option HostAccess) : State :=
  let r := hostOut s .cmd i addr data a
  match r.2 with
  | some w => complete r.1 .cmd i key stDMA_ERROR w 0
  | none => complete r.1 .cmd i key stOK 0 count

def opCtxRead (i : Nat) : DescOp := fun s d key a =>
  let addr := (nth 0 d 1).toNat
  match ctxBoth s i (ctxMasks ones 0 0) (addr % 8 != 0) d with
  | some st => some (complete s .cmd i key st 0 0)
  | none =>
    let c := dCtx d
    some (copyOut s i key addr 0
      (bytesOfWords ((List.range 16).map (cK (ctxOf s c)) ++ [ctxStatusWord s c, ctxHashWord s c, ctxArrivalWord s c])) a)

def ctxRead (i : Nat) (s : State) : State := runHead .cmd i 0x21 (opCtxRead i) s

def execCtxRead (ring : Nat) (s : State) : Out := .next (ctxRead ring s)

def statWord (r : Stat) : Word := mkWord [at_ 48 r.last, at_ 32 r.miss, r.lag]

def opCtxStats (i : Nat) : DescOp := fun s d key a =>
  let addr := (nth 0 d 1).toNat
  let first := fld (nth 0 d 2) 19 0
  let count := fld (nth 0 d 3) 19 0
  match ctxBoth s i (ctxMasks ones (mask 19 0) (mask 19 0)) (addr % 8 != 0 || count == 0) d with
  | some st => some (complete s .cmd i key st 0 0)
  | none =>
    let x := ctxOf s (dCtx d)
    if ctxMembers x < first + count then some (complete s .cmd i key stBAD_RANGE 0 0)
    else if !ctxStatsEn x then some (complete s .cmd i key stNO_STATS 0 0)
    else
      some (copyOut s i key addr 0
        (bytesOfWords ((List.range count).map fun j => statWord (tget {} x.stats (first + j)))) a)

def ctxStats (i : Nat) (s : State) : State := runHead .cmd i 0x24 (opCtxStats i) s

def execCtxStats (ring : Nat) (s : State) : Out := .next (ctxStats ring s)

/-! ### CTX_EXCLUDE and CTX_INCLUDE: R276 -/

/-- A slot is excluded at once: chunks and windows stop waiting for it. -/
def excludeSlot (s : State) (c slot : Nat) : State :=
  let s := modCtx s c fun x => { x with excluded := addNew x.excluded slot, including := remNat x.including slot }
  let s := noteDone s c
  forEach (openChunks (ctxOf s c)) s fun s k => checkChunk s c k

def opCtxExclude (i : Nat) : DescOp := fun s d key _ =>
  let slot := fld (nth 0 d 2) 19 0
  let c := dCtx d
  let x := ctxOf s c
  let st := (ctxBoth s i (ctxMasks 0 (mask 19 0) 0) false d).getD
    (if ctxMembers x ≤ slot then stBAD_RANGE
     else if !x.excluded.contains slot && decide (64 ≤ x.excluded.length) then stEXCLUDE_FULL else stOK)
  some (complete (if st = stOK then excludeSlot s c slot else s) .cmd i key st 0 0)

def ctxExclude (i : Nat) (s : State) : State := runHead .cmd i 0x22 (opCtxExclude i) s

def execCtxExclude (ring : Nat) (s : State) : Out := .next (ctxExclude ring s)

/-- An exclusion ends at the start of the next invocation; with none in progress, now. -/
def includeSlot (s : State) (c slot : Nat) : State :=
  if (ctxOf s c).dyn || (planOf s c).running then modCtx s c fun x => { x with including := addNew x.including slot }
  else modCtx s c fun x => { x with excluded := remNat x.excluded slot }

def opCtxInclude (i : Nat) : DescOp := fun s d key _ =>
  let slot := fld (nth 0 d 2) 19 0
  let c := dCtx d
  let st := (ctxBoth s i (ctxMasks 0 (mask 19 0) 0) false d).getD
    (if (ctxOf s c).excluded.contains slot then stOK else stNOT_FOUND)
  some (complete (if st = stOK then includeSlot s c slot else s) .cmd i key st 0 0)

def ctxInclude (i : Nat) (s : State) : State := runHead .cmd i 0x23 (opCtxInclude i) s

def execCtxInclude (ring : Nat) (s : State) : Out := .next (ctxInclude ring s)

/-! ### CTX_TEARDOWN -/

/-- Slots of the context under scrub. -/
def ctxScrubbing (s : State) (c : Nat) : Bool := s.cru.slots.any fun e => e.2.use == 3 && e.2.owner == c

/-- A dynamic invocation in progress ends with TORN_DOWN, held frames are discarded, the record, exclusions,
history and statistics are cleared, and the context scrubs. -/
def tearDown (s : State) (i key c : Nat) : State :=
  let s := if (ctxOf s c).dyn then endDynamic s c csTORN_DOWN 0 else s
  let s := discardHeld s c
  setCtx s c { state := 3, teardown := some (i, key) }

def opCtxTeardown (i : Nat) : DescOp := fun s d key _ =>
  let c := dCtx d
  match ctxBoth s i (ctxMasks 0 0 0) false d with
  | some st => some (complete s .cmd i key st 0 0)
  | none =>
    if (planOf s c).state ≠ 0 then some (complete s .cmd i key stPLAN_BUSY 0 0) else some (tearDown s i key c)

def ctxTeardown (i : Nat) (s : State) : State := runHead .cmd i 0x25 (opCtxTeardown i) s

def execCtxTeardown (ring : Nat) (s : State) : Out := .next (ctxTeardown ring s)

/-- The scrub has ended: the context is FREE and the command completes. -/
def ctxScrubDone (c : Nat) (s : State) : State :=
  let x := ctxOf s c
  if x.state = 3 ∧ !ctxScrubbing s c then
    let s := setCtx s c {}
    match x.teardown with
    | some (i, key) => sweepBad (complete s .cmd i key stOK 0 0) .cmd i
    | none => s
  else s

def execCtxScrubDone (ctx : Nat) (s : State) : Out := .next (ctxScrubDone ctx s)

end Sys2Proof.Machine
end

