-- ==== Sys2Proof/Machine/Sampling.lean ====
section
/-! DEFINITION. Tap records (R143, R144, R348) and precise sampling (R395 to R399). -/
namespace Sys2Proof.Machine

/-! ### Sample records: R395 to R398 -/

def smp (s : State) (d : Nat) : Smp := tget {} s.cnt.smp d
def setSmp (s : State) (d : Nat) (x : Smp) : State := { s with cnt := { s.cnt with smp := tset {} s.cnt.smp d x } }

/-- A sample record enters its die's buffer, or is lost and counted when that is full (R397, R398). -/
def sampleRecord (s : State) (d ctr : Nat) (rec4 : List Word) : State :=
  let x := smp s d
  if x.recs.length ≥ 4096 then bump s (cDie d 4)
  else bump (setSmp s d { x with recs := x.recs ++ [rec4] }) (cDie d ctr)

/-- The frame record of R396. -/
def frameRecord (s : State) (q : QFrame) (f : Frame) : List Word :=
  [mkWord [at_ 62 2, at_ 59 f.tc, at_ 48 (f.type % 256), at_ 24 f.src, f.dest],
   mkWord [at_ 52 q.inLink, at_ 40 q.outLink, at_ 27 q.outLane, at_ 14 f.length, at_ 13 (b2n f.mc),
     at_ 12 (b2n q.spilled), at_ 11 (b2n f.detour)],
   mkWord [at_ 32 q.arriveNs, nt32 s],
   mkWord [at_ 40 (min 0xFFFFFF q.qAtEnq), at_ 28 f.ctx, f.seq]]

/-- A frame's first cell leaves on an egress lane of a die: every Nf-th of a selected class is recorded. -/
def sampleFrame (s : State) (d : Nat) (q : QFrame) (f : Frame) : State :=
  let c := getR s (oSMP_CFG d)
  if !bit c 62 || !bit c (48 + f.tc) then s
  else
    let x := smp s d
    if x.frames < fld c 47 24 then setSmp s d { x with frames := x.frames + 1 }
    else sampleRecord (setSmp s d { x with frames := 0 }) d 3 (frameRecord s q f)

/-- A pour word issues on a die: whether it is the Nw-th of the selected words (R395). -/
def sampleWord (s : State) (d ctx : Nat) : State × Bool :=
  let c := getR s (oSMP_CFG d)
  let flt := getR s (oSMP_FILTER d)
  if !bit c 63 || (bit flt 63 && fld flt 11 0 != ctx) then (s, false)
  else
    let x := smp s d
    if x.words < fld c 23 0 then (setSmp s d { x with words := x.words + 1 }, false)
    else (setSmp s d { x with words := 0 }, true)

/-! ### Telemetry buffers: R348 -/

/-- A telemetry buffer completes with the records written. -/
def completeTelem (s : State) (t : Telem) : State :=
  let s := { s with hif := { s.hif with telem := s.hif.telem.erase t } }
  complete s .cmd t.ring t.tag stOK 0 t.filled

/-- A tap record goes to the first buffer posted for its die, or is lost (R144, R348). -/
def storeTap (s : State) (d : Nat) (data : List Byte) : State :=
  match s.hif.telem.find? fun t => t.die == d with
  | none => bump s (cDie d 1)
  | some t =>
    let s := emit s (.dma (ringOwner s .cmd t.ring) (t.addr + 288 * t.filled) data)
    let t' := { t with filled := t.filled + 1, firstAt := some (t.firstAt.getD s.now) }
    let s := { s with hif := { s.hif with telem := s.hif.telem.map fun x => if x = t then t' else x } }
    let s := bump s (cDie d 0)
    if t'.filled = t'.records then completeTelem s t' else s

/-! ### Taps: R143, R144 -/

/-- A tap record enters its die's tap ring: firmware forwards what the ring holds, oldest first. While none runs the
record waits there, or is lost where the ring is full (R144; log entry 60). -/
def tapRecord (s : State) (d : Nat) (data : List Byte) : State :=
  let t := tget ({} : TapDie) s.sw.tap d
  let put (s : State) (l : List (List Byte)) : State :=
    { s with sw := { s.sw with tap := tset {} s.sw.tap d { t with ring := l } } }
  if fwRuns s then forEach (t.ring ++ [data]) (put s []) fun s r => storeTap s d r
  else if t.ring.length < Config.tapRing then put s (t.ring ++ [data])
  else bump s (cDie d 1)

def tapMeta (s : State) (q : QFrame) (f : Frame) (egress : Bool) (no : Nat) : List Word :=
  [mkWord [at_ 52 q.inLink, at_ 40 (if egress && !f.mc then q.outLink else 0xFFF), at_ 27 q.inLane,
     at_ 14 (if egress then q.outLane else 0x1FFF), at_ 13 (b2n f.mc), at_ 12 (b2n q.cmSet),
     at_ 11 (b2n q.detourSent), at_ 10 (b2n q.spilled), at_ 9 (b2n egress)],
   mkWord [at_ 32 q.arriveNs, nt32 s],
   mkWord [at_ 40 (if egress then min 0xFFFFFF q.qAtEnq else 0), at_ 27 f.length],
   BitVec.ofNat 64 no]

/-- A frame passes a die's sampler at ingress or egress: every Nth of a selected class is copied; with
RANDOM each gap is a free value from 1 to 2N − 1 (log entry 4). -/
def tapFrame (s : State) (d : Nat) (q : QFrame) (f : Frame) (egress bl2 : Bool) : State :=
  let c := getR s (oTAP_CFG d)
  if !bit c 63 || bit c 61 != egress || !bit c (48 + f.tc) then s
  else
    let n := fld c 23 0 + 1
    let t := tget ({} : TapDie) s.sw.tap d
    let draw := bit c 62 && t.gap == 0
    let gap := if draw then Config.freeNat s.freeCtr % (2 * n - 1) + 1 else if bit c 62 then t.gap else n
    let s := if draw then takeFree s else s
    if t.count + 1 < gap then
      { s with sw := { s.sw with
        tap := tset {} s.sw.tap d { t with count := t.count + 1, gap := if bit c 62 then gap else 0 } } }
    else
      let data := bytesOfWords (tapMeta s q f egress t.recordNo) ++ sliceB (frameBytes bl2 f) 0 256
      let s := { s with sw := { s.sw with
        tap := tset {} s.sw.tap d { t with count := 0, gap := 0, recordNo := t.recordNo + 1 } } }
      tapRecord s d data

end Sys2Proof.Machine
end

