-- ==== Sys2Proof/Machine/PlanRun.lean ====
section
/-! DEFINITION. Runs of admitted pour plans (chapter 07): run bases, pour times, phases and their late paths,
word issue with its checks, memory data, and the end of a run. -/
namespace Sys2Proof.Machine

/-! ### Sequencers: R219, R233 -/

def seqr (s : State) (n : Nat) : Seqr := tget {} s.plan.seqs n
def setSeqr (s : State) (n : Nat) (q : Seqr) : State :=
  { s with plan := { s.plan with seqs := tset {} s.plan.seqs n q } }
def modSeqr (s : State) (n : Nat) (f : Seqr → Seqr) : State := setSeqr s n (f (seqr s n))

/-- The die of a sequencer. -/
def seqDie (n : Nat) : Nat := n / 16

/-- A core clock cycle of a sequencer. -/
def cycT (s : State) (n : Nat) : Nat := coreT s (seqDie n)

/-- NT in ns at an earlier moment. -/
def ntAt (s : State) (t : Nat) : Nat := ntNs s - (perNow s - t / nsT)

/-- The base of the run in progress or of the next one (R236). -/
def baseOf (p : Plan) : Nat := if p.running then p.runBase else p.base + p.runNo * p.period

def pourNs (p : Plan) (k : Nat) : Nat := baseOf p + phPour (phase p k)
def deadNs (p : Plan) (k : Nat) : Nat := pourNs p k + phDeadline (phase p k)
def boundNs (p : Plan) (k : Nat) : Nat := deadNs p k + phWait (phase p k)

/-! ### The end of a run: R236, R237, R244, R247, R256 -/

/-- No further word of the context issues on any sequencer. -/
def stopSeqs (s : State) (c : Nat) : State :=
  forEach (planSeqs (planOf s c)) s fun s n =>
    let q := seqr s n
    let q := if q.busy && q.ctx == c then { q with busy := false, endAt := none, blocked := false } else q
    let q := if q.target.1 = c then { q with comparator := none } else q
    setSeqr s n { q with memWait := q.memWait.filter fun m => m.ctx != c }

/-- The windows of a plan with their numbers. -/
def winIds (p : Plan) : List Nat := List.range p.windows.length

/-- Members that some window of the run excluded, or, in a run cut short, still lacks (R277). -/
def runMissed (s : State) (c : Nat) (cut : Bool) : List Nat :=
  let p := planOf s c
  let x := ctxOf s c
  (winIds p).flatMap fun i =>
    let e := window4 p i
    let w := win p i
    if wnLocal e then []
    else winExcluded x e w ++ (if cut && w.st != 0 && !(isCombine x && wnKind e == 2) then winMissing x e w else [])

/-- The lowest chunk of a run whose completion has not been reported, all ones where there is none (R273). -/
def lowestLeft (s : State) (c : Nat) : Nat :=
  let p := planOf s c
  let x := ctxOf s c
  (minList (((winIds p).map fun i => wnChunk (window4 p i)).filter fun k => !x.sum.done.contains k)).getD 0xFFFFFFFF

/-- The worst status of the run's chunks as LAST_RUN codes it: 1 OK, 2 PARTIAL, 3 LATE (R237, R251). -/
def worstRun (s : State) (c : Nat) : Nat :=
  let p := planOf s c
  let x := ctxOf s c
  maxList ((winIds p).map fun i =>
    let w := win p i
    if !(winExcluded x (window4 p i) w).isEmpty then 2 else if w.late then 3 else 1)

/-- The run is over: nothing of its phases stands. Its windows keep what they hold until the next run starts (R230). -/
def clearRun (p : Plan) : Plan :=
  { p with running := false, poured := [], started := [], phaseEnded := [], missed := [], waiting := [],
           forced := [], seqEnded := [] }

/-- The windows of an abandoned run close (R237). -/
def closeWins (p : Plan) : Plan :=
  { p with win := tmap {} p.win fun _ w => if w.st = 1 then { w with st := 2 } else w }

/-- A run is cut short: no further word issues, and the invocation ends with a status (R237, R247, R248). -/
def cutRun (s : State) (c status lastRun eid : Nat) : State :=
  let s := stopSeqs s c
  let s := missedMembers s c (runMissed s c true)
  let s := endInvocation s c (some (status, lowestLeft s c, eid))
  modPlan s c fun p => { p with running := false, lastRun := lastRun }

def abandonRun (s : State) (c status eid : Nat) : State :=
  if (planOf s c).running then modPlan (cutRun s c status 4 eid) c fun p => closeWins (clearRun p) else s

/-- After a run the next one waits for its base, or the plan is ADMITTED again (R236, R244). -/
def nextRun (s : State) (c : Nat) : State :=
  modPlan s c fun p =>
    let p := { p with runNo := p.runNo + 1 }
    if p.disarming.isSome || (p.runs != 0 && decide (p.runs ≤ p.runNo)) then { p with state := 2 } else { p with state := 3 }

/-- Every sequencer of the plan has ended its share of the run (R236). -/
def endRun (s : State) (c : Nat) : State :=
  let worst := worstRun s c
  let s := missedMembers s c (runMissed s c false)
  let s := endInvocation s c none
  nextRun (modPlan s c fun p => { clearRun p with lastRun := worst }) c

/-- A time step abandons the runs of every plan ARMED or RUNNING, which are ADMITTED again (R248, R323). -/
def timeStepPlans (s : State) : State :=
  forEach ((s.plan.plans.filter fun e => e.2.state == 3 || e.2.state == 4).map (·.1)) s fun s c =>
    let s := abandonRun s c csTIME_STEP 0
    let s := modPlan s c fun p => { p with state := 2 }
    raiseEvent s 0x505 (planOf s c).part (at_ 52 c) 1

/-! ### The start of a run: R230, R236 -/

/-- The lines of a window on its crucible. -/
def winLines (s : State) (c i : Nat) : List (Nat × Nat) :=
  let p := planOf s c
  let x := ctxOf s c
  let e := window4 p i
  winRanges (ctxArith x) (ctxCombine x) (outFmts (planWords s p) (ctxArith x) i e) e

/-- No other window of the plan has lines in common with a window, and no two of its own ranges meet: what its output
lines and its state buffer hold is its own. -/
def soleWin (s : State) (c i : Nat) : Bool :=
  let p := planOf s c
  let r := winLines s c i
  ((List.range r.length).all fun a => (List.range a).all fun b => !rangesMeet [nth (0, 0) r a] [nth (0, 0) r b])
    && (winIds p).all fun j => j == i || wnCru (window4 p j) != wnCru (window4 p i) || !rangesMeet r (winLines s c j)

/-- A window as a run starts: its accumulator emptied, its arrival record cleared, nobody excluded, open with PREOPEN.
Its output lines and its state buffer are not reset, where no other window has written into them (R230). -/
def freshWin (s : State) (c i : Nat) : WinRun :=
  let p := planOf s c
  let w := win p i
  let w : WinRun := if soleWin s c i then { outBytes := w.outBytes, state := w.state } else {}
  { w with st := if wnPreopen (window4 p i) then 1 else 0 }

def freshWins (s : State) (c : Nat) : Tab WinRun :=
  (winIds (planOf s c)).foldl (fun t i => tset {} t i (freshWin s c i)) []

/-- At its base, or once the run before it has ended, a run starts. A context runs one invocation at a time: a dynamic
one that was in progress when the plan was admitted ends first (R256, log entry 75). -/
def runStart (c : Nat) (s : State) : State :=
  let p := planOf s c
  if p.state == 3 && s.tim.inForce && !(ctxOf s c).dyn then
    let s := awaitNt s (baseOf p)
    noteDone (setPlan s c { clearRun p with
      state := 4, running := true, runBase := baseOf p, win := freshWins s c,
      sprueActed := p.sprueActed.filter fun i => bit (nth (0, 0) p.claims i).1 36 }) c
  else s

def execRunStart (ctx : Nat) (s : State) : Out := .next (runStart ctx s)

/-! ### Pour times: R245, R327 -/

/-- The first phase of a sequencer in a plan's present or next run whose pour time has not come. -/
def nextPour (p : Plan) (n : Nat) : Option Nat :=
  if p.state = 3 ∨ p.state = 4 then (seqPhases p n).find? fun k => !(p.running && p.poured.contains k) else none

/-- The next pour time of a sequencer over all plans: pour time, context and phase. -/
def nextTarget (s : State) (n : Nat) : Option (Nat × Nat × Nat) :=
  s.plan.plans.foldl (fun best e =>
    match nextPour e.2 n, best with
    | none, _ => best
    | some k, none => some (pourNs e.2 k, e.1, k)
    | some k, some b => if pourNs e.2 k < b.1 then some (pourNs e.2 k, e.1, k) else best) none

/-- Firmware loads the comparator once the next pour time lies less than 2 s ahead (R245). -/
def pourComparatorLoad (n : Nat) (s : State) : State :=
  match nextTarget s n with
  | none => s
  | some t =>
    if s.tim.inForce then
      let s := awaitNt s (t.1 - 1999999999)
      modSeqr s n fun q => { q with comparator := some (t.1 % 2 ^ 32), target := (t.2.1, t.2.2) }
    else s

def execPourComparatorLoad (seq : Nat) (s : State) : Out := .next (pourComparatorLoad seq s)

/-- The comparator matches once NT[31:0] has reached it (R327): the phase's pour time has come. -/
def pourTime (n : Nat) (s : State) : State :=
  let q := seqr s n
  match q.comparator with
  | none => s
  | some v =>
    let (c, k) := q.target
    if s.tim.inForce && (planOf s c).running then
      let gap := (v + 2 ^ 32 - nt32 s) % 2 ^ 32
      let s := if gap ≤ 2 ^ 31 then awaitNt s (ntNs s + gap) else s
      setSeqr (modPlan s c fun p => { p with poured := addNew p.poured k }) n { q with comparator := none }
    else s

def execPourTime (seq : Nat) (s : State) : Out := .next (pourTime seq s)

/-! ### The end of a phase: R228 -/

/-- The phase that a sequencer runs ends: its share of the run as well under RUN_END. -/
def endPhase (s : State) (n op : Nat) : State :=
  let q := seqr s n
  let c := q.ctx
  let s := setSeqr s n { q with busy := false, endAt := none }
  let s := modPlan s c fun p => { p with phaseEnded := addNew p.phaseEnded q.phase }
  if op = 2 then
    let s := bump (modPlan s c fun p => { p with seqEnded := addNew p.seqEnded n }) (cSeq n 6)
    if (planSeqs (planOf s c)).all fun m => (planOf s c).seqEnded.contains m then endRun s c else s
  else s

/-- Phases end once every unit they used is idle (R228). -/
def endPhasesDue (s : State) : State :=
  forEach (s.plan.seqs.map (·.1)) s fun s n =>
    match (seqr s n).endAt with
    | some (op, t) => if t ≤ s.now then endPhase s n op else s
    | none => s

/-! ### Phase starts: R232, R235 -/

/-- The moment the last awaited contribution of a phase's input windows was in; none while one is awaited. -/
def phaseAk (p : Plan) (k : Nat) : Option Nat :=
  (phInputs (phase p k)).foldl (fun a i =>
    match a, (win p i).doneAt with
    | some x, some y => some (max x y)
    | _, _ => none) (some 0)

/-- The moment at which a late path forced the start of a phase. -/
def forcedAt (p : Plan) (k : Nat) : Option Nat := (p.forced.find? fun e => e.1 == k).map (·.2)

/-- A phase's inputs are as R232 or its late path requires. -/
def inputsReady (s : State) (p : Plan) (k : Nat) : Bool :=
  (forcedAt p k).isSome ||
    match phaseAk p k with
    | none => false
    | some a =>
      if (phInputs (phase p k)).isEmpty then true
      else if p.missed.contains k then p.waiting.contains k && decide (ntAt s a ≤ boundNs p k)
      else decide (ntAt s a ≤ deadNs p k)

/-- The phase of a plan that comes next on a sequencer: earlier ones of the run have ended. -/
def nextPhase (p : Plan) (n : Nat) : Option Nat :=
  if p.running && !p.seqEnded.contains n then (seqPhases p n).find? fun k => !p.phaseEnded.contains k else none

/-- The contexts whose next phase on a sequencer may start, with the phase and its pour time. -/
def readyPhases (s : State) (n : Nat) : List (Nat × Nat × Nat) :=
  s.plan.plans.filterMap fun e =>
    match nextPhase e.2 n with
    | none => none
    | some k =>
      if e.2.poured.contains k && !e.2.started.contains k && inputsReady s e.2 k then some (e.1, k, pourNs e.2 k)
      else none

/-- The slip of a phase that starts now, in ns (R235). -/
def slipNs (s : State) (p : Plan) (k : Nat) : Nat :=
  let a := (forcedAt p k).getD ((phaseAk p k).getD 0)
  min (ntNs s - pourNs p k) ((s.now - a) / nsT)

/-- The phase of a plan starts on its sequencer: its first word issues DELTA cycles later (R233). -/
def beginPhase (s : State) (n c k : Nat) : State :=
  let p := planOf s c
  let slip := slipNs s p k
  let addr := phFirst (phase p k)
  let delta := pwDelta (planWord s n addr)
  let s := setSeqr s n { seqr s n with
    busy := true, ctx := c, phase := k, startAt := s.now, phaseNs := nt32 s, nextAddr := addr,
    nextAt := s.now + delta * cycT s n, declared := delta, endAt := none, stall := 0, blocked := false }
  let s := bump (modPlan s c fun p => { p with started := addNew p.started k }) (cSeq n 2)
  if rf s oPLAN_CFG 63 48 * 1000 < slip then raiseEvent s 0x503 p.part (at_ 52 c + at_ 40 k) slip else s

/-- A phase starts at a core clock edge: the one with the earliest pour time of those ready (log entry 33). -/
def phaseStart (n : Nat) (s : State) : State :=
  let s := endPhasesDue (awaitOpt s ((seqr s n).endAt.map (·.2)) 0)
  if (seqr s n).busy then s
  else match readyPhases s n with
    | [] => s
    | e :: r =>
      let b := r.foldl (fun b x => if x.2.2 < b.2.2 then x else b) e
      beginPhase s n b.1 b.2.1

def execPhaseStart (seq : Nat) (s : State) : Out := .next (phaseStart seq s)

/-! ### Late paths: R237, R238 -/

/-- An input window as the deadline finds it: marked LATE, and PLAN_LATE raised if it is incomplete. -/
def lateWindow (s : State) (c k i : Nat) : State :=
  let p := planOf s c
  let x := ctxOf s c
  let e := window4 p i
  let w := win p i
  if winComplete x e w then setWin s c i { w with late := true }
  else
    let miss := winMissing x e w
    let low := (minList miss).getD 0
    let eid := if wnLocal e || miss.isEmpty then 0 else memberEid s c low
    let s := setWin s c i { w with late := true, lateLow := if wnLocal e then none else minList miss }
    raiseEvent s 0x502 p.part (at_ 52 c + at_ 40 k + wnChunk e % 2 ^ 30)
      (at_ 44 (min 0xFFFFF miss.length) + at_ 24 low + eid)

/-- ERROR: the run is abandoned, its windows close, and its members receive LATE (R237). -/
def lateError (s : State) (c : Nat) : State :=
  let miss := runMissed s c true
  let eid := match minList miss with
    | some m => memberEid s c m
    | none => 0
  nextRun (abandonRun s c csLATE eid) c

/-- EXCLUDE: the missing members of the input windows are excluded from this run, and the phase may start. -/
def lateExclude (s : State) (c k : Nat) : State :=
  let s := forEach (phInputs (phase (planOf s c) k)) s fun s i =>
    let x := ctxOf s c
    let e := window4 (planOf s c) i
    modWin s c i fun w =>
      { w with forced := w.forced || (isCombine x && wnKind e == 2), c := { w.c with excluded := (winMissing x e w).foldl addNew w.c.excluded } }
  noteDone (modPlan s c fun p => { p with forced := p.forced ++ [(k, s.now)] }) c

/-- A phase of the present run that has neither started nor been forced to. -/
def phaseWaits (s : State) (c k : Nat) : Bool :=
  let p := planOf s c
  p.running && decide (k < p.phases.length) && !p.started.contains k && (forcedAt p k).isNone
    && !p.seqEnded.contains (phSeq (phase p k)) && s.tim.inForce

/-- At the deadline the inputs are incomplete: the late path acts (R237). -/
def phaseDeadline (c k : Nat) (s : State) : State :=
  let p := planOf s c
  if phaseWaits s c k && !p.missed.contains k && !inputsReady s p k then
    let s := awaitNt s (deadNs p k)
    let e := phase p k
    let s := forEach (phInputs e) s fun s i => lateWindow s c k i
    let s := modPlan s c fun p => { p with missed := addNew p.missed k }
    if phLate e = 0 then lateError s c
    else if phLate e = 1 then lateExclude s c k
    else modPlan s c fun p => { p with waiting := addNew p.waiting k }
  else s

def execPhaseDeadline (ctx phase : Nat) (s : State) : Out := .next (phaseDeadline ctx phase s)

/-- WAIT_BOUND passes without completion: ERROR or EXCLUDE applies (R237). -/
def waitBoundExpiry (c k : Nat) (s : State) : State :=
  let p := planOf s c
  if phaseWaits s c k && p.waiting.contains k && !inputsReady s p k then
    let s := awaitNt s (boundNs p k)
    if phLate (phase p k) = 2 then lateError s c else lateExclude s c k
  else s

def execWaitBoundExpiry (ctx phase : Nat) (s : State) : Out := .next (waitBoundExpiry ctx phase s)

/-! ### Contents of a window -/

/-- An element of a window to which no contribution has been added (R449). -/
def winEmpty (x : Ctx) (w : WinRun) (i : Nat) : Bool := !isCombine x && nth .none w.c.acc i == .none

/-- n bytes that the manual does not state (log entry 4). -/
def freeBytes (s : State) (n : Nat) : State × List Byte := (takeFree s, leBytes n (Config.freeNat s.freeCtr % 2 ^ (8 * n)))

/-- The values of a window's accumulator, with their flags. An exact COMBINE holds its products as they arrive
(R204). -/
def winVals (x : Ctx) (e : Word × Word × Word × Word) (w : WinRun) : List FVal × Nat :=
  let k1 := ctxArith x
  if isCombine x && aExact k1 then
    combineVals k1 (ctxCombine x) true (winTokens x e).1 (winTokens x e).2 w.c.segs
  else accVals k1 (if w.c.acc.isEmpty then List.replicate (wnElems e) .none else w.c.acc)

/-- The window's FMT and IN_FMT are both integer formats or neither is. -/
def sameClass (x : Ctx) (d : Nat) : Bool := isIntF d == isIntF (aIn (ctxArith x))

/-- The format in which a window keeps contributions. -/
def keptFmt (x : Ctx) (e : Word × Word × Word × Word) : Nat := if sameClass x (wnFmt e) then wnFmt e else aIn (ctxArith x)

/-- A contribution's bytes as a window keeps them: an integer in a floating-point sum, or the reverse, has no
stated value (log entry 34). -/
def keptBytes (s : State) (x : Ctx) (e : Word × Word × Word × Word) (b : List Byte) : State × List Byte :=
  if sameClass x (wnFmt e) then (s, b) else freeBytes s (payBytes (aIn (ctxArith x)) (wnElems e))

/-- Add one contribution's bytes to a window's accumulator (R194, R196). -/
def accTake (x : Ctx) (e : Word × Word × Word × Word) (w : WinRun) (b : List Byte) : WinRun :=
  let k1 := ctxArith x
  let n := wnElems e
  let r := accList k1 (aExact k1) 0 (if w.c.acc.isEmpty then List.replicate n .none else w.c.acc)
    (decPayload (keptFmt x e) b n)
  { w with c := { w.c with acc := r.1, flags := w.c.flags ||| r.2 } }

/-- ACC ADD: the contributions of SPAN members from MEMBER on, in order (R228). -/
def accSpanAdd (x : Ctx) (e : Word × Word × Word × Word) (w : WinRun) (member span : Nat) : WinRun :=
  (List.range span).foldl (fun w i =>
    let m := wnFirst e + member + i
    if w.contribs.any fun c => c.1 == m then accTake x e w (tget [] w.contribs m) else w) w

/-- ACC COMBINE: R204 on every completed segment of the window; others keep what they held. -/
def accCombine (x : Ctx) (e : Word × Word × Word × Word) (w : WinRun) : WinRun :=
  let k1 := ctxArith x
  let k2 := ctxCombine x
  if !isCombine x || aExact k1 then w
  else
    let t := winTokens x e
    let old := if w.c.acc.isEmpty then List.replicate (wnElems e) .none else w.c.acc
    let full (i : Nat) : Bool :=
      let j := i % cRow k2
      w.forced || (segHave w.c.segs (t.1 + i / cRow k2) (j / cSeg k2 * cSeg k2)).length == cTopk k2
    let segs := if w.forced then w.c.segs
      else w.c.segs.filter fun g => (segCols k2 g).any fun c => (segHave w.c.segs g.token c).length == cTopk k2
    let r := combineVals k1 k2 false t.1 t.2 segs
    let acc := (List.range (wnElems e)).map fun i => if full i then Acc.f (nth .nan r.1 i) else nth .none old i
    { w with c := { w.c with acc := acc, flags := w.c.flags ||| r.2 } }

/-- The bytes a window's output takes: ELEMENTS in the format of the last CONVERT, or in FMT (R228). -/
def outSize (e : Word × Word × Word × Word) (w : WinRun) : Nat := payBytes (w.outFmt.getD (wnFmt e)) (wnElems e)

def outFmt (p : Plan) (i : Nat) : Nat := (win p i).outFmt.getD (wnFmt (window4 p i))

/-- n bytes of a window's lines that no word has placed: zeros, as the scrub of its slots left them, where the lines
are the window's own (R214); else what other windows have left there, a free value. -/
def unplaced (s : State) (c i n : Nat) : State × List Byte :=
  if soleWin s c i then (s, List.replicate n 0) else freeBytes s n

/-- The output lines of a window. -/
def outLines (s : State) (c i : Nat) : State × List Byte :=
  let w := win (planOf s c) i
  let n := outSize (window4 (planOf s c) i) w
  if n ≤ w.outBytes.length then (s, w.outBytes.take n)
  else
    let r := unplaced s c i (n - w.outBytes.length)
    (r.1, w.outBytes ++ r.2)

/-- The state buffer of a window. -/
def stateBuf (s : State) (c i : Nat) : State × List (Nat × Nat × Nat) :=
  let e := window4 (planOf s c) i
  let w := win (planOf s c) i
  if w.state.isEmpty then
    let r := unplaced s c i (12 * wnElems e)
    (r.1, (List.range (wnElems e)).map fun i => (leAt r.2 (12 * i) 4, leAt r.2 (12 * i + 4) 4, leAt r.2 (12 * i + 8) 4))
  else (s, w.state)

/-- ACC UPDATE: R208 and R209 on each element, with the state buffer. A poisoned window's state stays. -/
def accUpdate (s : State) (c i : Nat) : State :=
  let p := planOf s c
  let e := window4 p i
  let w := win p i
  if w.c.poison ≠ 0 then s
  else
    let s := advanceOnce s c
    let x := ctxOf s c
    let v := winVals x e w
    let b := stateBuf s c i
    let u := updateAll x v.1 b.2
    setWin b.1 c i { w with
      state := u.2.1, c := { w.c with acc := u.1.map Acc.f, flags := w.c.flags ||| v.2 ||| u.2.2 } }

/-- CVT CONVERT: the accumulator into the output lines (R200, R201, R228); between an integer and a
floating-point format no result is stated (log entry 34). An empty value sets no flag (R449). -/
def convertWin (s : State) (c i stage fmt mode : Nat) : State :=
  let p := planOf s c
  let x := ctxOf s c
  let k1 := ctxArith x
  let e := window4 p i
  let w := win p i
  let d := if stage = 0 then aOut k1 else fmt
  let v := winVals x e w
  let free := freeBytes s (payBytes d (wnElems e))
  let o := if sameClass x d then
      convOut d (srOf (if stage = 0 then aRound k1 else mode) (ctxSeed x) x.n stage) (chunkE0 x (wnChunk e))
        ((List.range v.1.length).map fun j => (nth .nan v.1 j, winEmpty x w j))
    else (free.2, 0)
  setWin (if sameClass x d then s else free.1) c i { w with
    outFmt := some d, outBytes := putBytes w.outBytes 0 o.1, c := { w.c with flags := w.c.flags ||| v.2 ||| o.2 } }

/-- Poison a window's chunk with a status, the highest staying (R207, R262, R274). -/
def poisonWin (w : WinRun) (status : Nat) : WinRun := { w with c := { w.c with poison := max w.c.poison status } }

/-! ### MEM: R207, R210, R228, R242 -/

/-- The region of a REGION claim: its first granule, and the byte offset of a granule of the claim. -/
def claimPlace (s : State) (p : Plan) (claim off : Nat) : Option (Nat × Nat) :=
  let c := nth (0, 0) p.claims claim
  (regionOf s p.part (fld c.1 31 0)).map fun v => (rgBase v, 256 * (fld c.2 63 32 + off))

/-- Where the state of a window's chunk lies; none where R207 fails. -/
def winGeo (s : State) (c i : Nat) : Option (Nat × List Nat) :=
  let x := ctxOf s c
  let e := window4 (planOf s c) i
  stateGeo s x (chunkE0 x (wnChunk e)) (wnElems e)

/-- R207 fails: the chunk is poisoned with STATE_RANGE. -/
def stateRange (s : State) (c i : Nat) : State :=
  modWin s c i fun w => { poisonWin w csSTATE_RANGE with c := { (poisonWin w csSTATE_RANGE).c with
    flags := w.c.flags ||| flSTATE_RANGE } }

/-- STORE: the output lines are written to the region. -/
def memStore (s : State) (c i claim off : Nat) : State :=
  let p := planOf s c
  let r := outLines s c i
  match claimPlace s p claim off with
  | none => s
  | some (b, o) => writeBytes r.1 b o r.2

/-- STORE_STATE: the state buffer is written, unless the chunk is poisoned. -/
def memStoreState (s : State) (c i : Nat) : State :=
  let p := planOf s c
  match winGeo s c i with
  | none => stateRange s c i
  | some (b, offs) =>
    if (win p i).c.poison ≠ 0 then s
    else
      let r := stateBuf s c i
      writePlanes r.1 b offs r.2

/-- The data of a LOAD arrive: POISONED lines poison the chunk (R297). -/
def loadArrives (s : State) (m : MemWait) : State :=
  let p := planOf s m.ctx
  let n := outSize (window4 p m.win) (win p m.win)
  match claimPlace s p m.claim m.off with
  | none => s
  | some (b, o) =>
    let r := readBytes s b o n
    modWin r.1 m.ctx m.win fun w =>
      match r.2 with
      | some d => { w with outBytes := putBytes w.outBytes 0 d }
      | none => poisonWin { w with outBytes := putBytes w.outBytes 0 (List.replicate n 0) } csPOISONED

/-- The data of a LOAD_STATE arrive. -/
def stateArrives (s : State) (m : MemWait) : State :=
  let e := window4 (planOf s m.ctx) m.win
  match winGeo s m.ctx m.win with
  | none => stateRange s m.ctx m.win
  | some (b, offs) =>
    let r := readPlanes s b (wnElems e) offs
    modWin r.1 m.ctx m.win fun w =>
      match r.2 with
      | some d => { w with state := planeElems (wnElems e) d }
      | none => poisonWin w csPOISONED

/-! ### SEND: R228, R234, R250, R258, R275 -/

/-- The status of a window's chunk, and what its completion reports (R237, R273, R274). -/
def winSum (s : State) (c i : Nat) : CmplSum :=
  let p := planOf s c
  let x := ctxOf s c
  let e := window4 p i
  let w := win p i
  let ex := winExcluded x e w
  let st := max w.c.poison (if !ex.isEmpty then csPARTIAL else if w.late then csLATE else 0)
  let who : Option Nat := if st = csPARTIAL then minList ex else if st = csLATE then w.lateLow else none
  { best := st, flags := w.c.flags, excluded := ex, cm := w.c.cmSeen,
    eid := if st = csMISMATCH then w.c.mmEid
      else match who with
        | some m => if wnLocal e then 0 else memberEid s c m
        | none => 0,
    expected := if st = csMISMATCH then w.c.mmExpected else 0,
    received := if st = csMISMATCH then w.c.mmReceived else 0 }

/-- SEND LOCAL: the output becomes the LOCAL source's contribution to an open window (R228). The flags of the roundings
that made it are the receiving chunk's too (R211). -/
def sendLocal (s : State) (c i j : Nat) : State :=
  let p := planOf s c
  let x := ctxOf s c
  let w := win p i
  let e := window4 p j
  let t := win p j
  let m := wnFirst e
  let r := outLines s c i
  if t.st ≠ 1 ∨ t.c.received.contains m then r.1
  else
    let r := if w.c.poison ≠ 0 then r else keptBytes r.1 x e r.2
    let t := { t with
      inBytes := t.inBytes + r.2.length
      c := { t.c with received := t.c.received ++ [m], cmSeen := t.c.cmSeen || w.c.cmSeen, flags := t.c.flags ||| w.c.flags } }
    let t := if w.c.poison ≠ 0 then
        { poisonWin t w.c.poison with c := { (poisonWin t w.c.poison).c with
            mmEid := w.c.mmEid, mmExpected := w.c.mmExpected, mmReceived := w.c.mmReceived } }
      else if wnKind e ≠ 1 then { t with contribs := tset [] t.contribs m r.2 }
      else accTake x e t r.2
    noteDone (setWin r.1 c j t) c

/-- The destination of a SEND: multicast, and the group or EID. -/
def sendDest (p : Plan) (w : BitVec 256) : Bool × Nat :=
  if sendOp w = 2 ∨ sendOp w = 5 then (true, sendTarget w % 2 ^ 16)
  else (false, nth 0 p.dests (sendTarget w % 2 ^ 12))

/-- The bytes of a SEND and the frames they are cut into. -/
def sendLoad (p : Plan) (w : BitVec 256) : Nat × Nat :=
  if sendOp w ≤ 3 then
    let n := outSize (window4 p (sendWin w)) (win p (sendWin w))
    (n, max 1 (ceilDiv n (resultBytes (outFmt p (sendWin w)))))
  else if sendOp w ≤ 5 then (32, 1)
  else (0, 1)

/-- The riser can take every frame of a word's SEND (R120, R234). -/
def sendTaken (s : State) (n c : Nat) (w : BitVec 256) : Bool :=
  let p := planOf s c
  let i := sendWin w
  let d := sendDest p w
  let ask (l : List Frame) : Bool := takesAll c (seqDie n) d.1 d.2 (wnChunk (window4 p i)) s l
  if !pwEn w 4 || (selfEid s).isNone then true
  else if sendOp w = 6 then
    match heldFor s c with
    | some e => riserTakes s (seqDie n) e.2.f
    | none => true
  else if sendOp w ≤ 2 then ask (resultFrames (outFmt p i) false 0 (List.replicate (sendLoad p w).1 0))
  else if sendOp w = 3 || ctxCoalesce (ctxOf s c) then true
  else ask [cmplFrame (ctxOf s c).n 0 {}]

/-- SEND of a word. Its frames carry the context's TC, as R258 gives every collective frame that the spine originates;
SEND.TC is checked at admission (log entry 76). -/
def sendSlot (s : State) (n c : Nat) (w : BitVec 256) : State :=
  let p := planOf s c
  let i := sendWin w
  let x := win p i
  let d := sendDest p w
  if sendOp w = 6 then releaseHeldFrame s c
  else if sendOp w = 3 then sendLocal s c i (sendTarget w % 2 ^ 12)
  else if sendOp w ≤ 2 then
    let bad := x.c.poison != 0
    let r := outLines s c i
    sendResult r.1 c (seqDie n) d.1 d.2 (wnChunk (window4 p i)) x.c.cmSeen
      (resultFrames (outFmt p i) bad x.c.flags (if bad then List.replicate r.2.length 0 else r.2))
  else chunkCompletes s c (seqDie n) (wnChunk (window4 p i)) d.1 d.2 (winSum s c i)

/-! ### Checks at issue: R229, R246 -/

/-- Cycles that the enabled units of a word are occupied: RECV, ACC, CVT, MEM, SEND, SYNC (R229). -/
def wordCycles (s : State) (c : Nat) (w : BitVec 256) : List Nat :=
  let p := planOf s c
  let x := ctxOf s c
  let k1 := ctxArith x
  let e := window4 p (accWin w)
  let half := aExact k1 && (isCombine x || ((aOp k1 == opSUM || isUpdate (aOp k1)) && decide (wnFmt e ≤ 1)))
  let r := if half then 256 else 512
  let acc := if accOp w = 1 then accSpan w * ceilDiv (payBytes (wnFmt e) (wnElems e)) r
    else if accOp w = 2 then ceilDiv (win p (accWin w)).inBytes r
    else ceilDiv (wnElems e) 128
  let cvt := ceilDiv (wnElems (window4 p (cvtWin w)) * accBytes k1 (aExact k1)) 512
  let mem := ceilDiv (if memOp w ≤ 2 then outSize (window4 p (memWin w)) (win p (memWin w))
    else 4 * planesOf (aOp k1) * wnElems (window4 p (memWin w))) 512
  let send := ceilDiv (32 * (sendLoad p w).2 + (sendLoad p w).1) 512
  [1, acc, cvt, mem, send, 1]

/-- The windows that a word reads, with the unit that reads each (R246). -/
def wordReads (w : BitVec 256) : List (Nat × Nat) :=
  (if pwEn w 1 then [(1, accWin w)] else []) ++ (if pwEn w 2 then [(2, cvtWin w)] else [])
    ++ (if pwEn w 3 && memOp w == 2 then [(3, memWin w)] else [])
    ++ (if pwEn w 4 && sendOp w != 6 then [(4, sendWin w)] else [])

/-- A window is an input of phase k or of an earlier one. -/
def inputBy (p : Plan) (k i : Nat) : Bool :=
  (List.range (k + 1)).any fun j => (phInputs (phase p j)).contains i

/-- A RECV OPEN names a window whose lines overlap those of one still open. -/
def openOverlaps (s : State) (c i : Nat) : Bool :=
  let p := planOf s c
  (winIds p).any fun j => j != i && (win p j).st == 1 && wnCru (window4 p j) == wnCru (window4 p i)
    && rangesMeet (winLines s c i) (winLines s c j)

/-- The breach of a word that would issue at time t: kind and unit (R246). -/
def wordBreach (s : State) (n c k t : Nat) (w : BitVec 256) (ecc : Bool) : Option (Nat × Nat) :=
  let p := planOf s c
  let x := ctxOf s c
  if ecc then some (4, 0)
  else match (List.range 6).find? fun u => pwEn w u && decide (t < nth 0 (seqr s n).busyUntil u) with
    | some u => some (1, u)
    | none =>
      match (wordReads w).find? fun r => winIncomplete x (window4 p r.2) (win p r.2) && !inputBy p k r.2 with
      | some r => some (2, r.1)
      | none => if pwEn w 0 && recvOp w == 1 && openOverlaps s c (recvWin w) then some (3, 0) else none

/-- PLAN_CONTRACT: the plan stops with everything it holds kept, and the breach is recorded (R247, R251). -/
def planContract (s : State) (n kind unit : Nat) : State :=
  let q := seqr s n
  let c := q.ctx
  let v := mkWord [at_ 63 1, at_ 60 kind, at_ 48 c, at_ 36 q.phase, at_ 20 q.nextAddr, at_ 16 unit]
  let s := putR s (oPLAN_CU_FAULT n) v
  let s := raiseEvent s 0x504 (planOf s c).part (at_ 52 c + n) v.toNat
  let s := cutRun s c csPLAN_CONTRACT 5 0
  modPlan s c fun p => { p with state := 5 }

/-! ### Word issue: R228, R233, R234, R395 -/

/-- A word reads what a LOAD or LOAD_STATE has not yet brought (R234). -/
def waitsData (q : Seqr) (w : BitVec 256) : Bool :=
  q.memWait.any fun m => m.ctx == q.ctx &&
    (if m.op = 1 then
      (pwEn w 3 && memOp w == 2 && memWin w == m.win) || (pwEn w 4 && decide (sendOp w ≤ 3) && sendWin w == m.win)
    else (pwEn w 1 && accOp w == 3 && accWin w == m.win) || (pwEn w 3 && memOp w == 4 && memWin w == m.win))

/-- The pour-word record of R396 without its MEM_LAT. -/
def wordRecord (s : State) (n c k t : Nat) (q : Seqr) (w : BitVec 256) : List Word :=
  [mkWord [at_ 62 1, at_ 56 n, at_ 44 c, at_ 32 k, at_ 16 q.nextAddr],
   mkWord [at_ 32 ((planOf s c).planId), q.phaseNs],
   mkWord [at_ 32 (q.declared % 2 ^ 32), (t - q.startAt) / cycT s n % 2 ^ 32],
   mkWord [at_ 42 (pw w 239 234), (ctxOf s c).n % 2 ^ 32]]

/-- The chunks that use a slot are poisoned: a dynamic chunk that holds it, and the windows of the plan that holds it
which have lines in it and which `reads` names by context and window (R215, R262, log entry 77). -/
def poisonSlot (s : State) (g : Nat) (reads : Nat → Nat → Bool) : State :=
  let v := cruSlot s g
  let c := v.owner
  if v.use = 2 then
    forEach ((openChunks (ctxOf s c)).filter fun k => (ctxChunk (ctxOf s c) k).slots.contains g) s fun s k =>
      modChunk s c k fun x => { x with poison := max x.poison csPOISONED }
  else if v.use = 1 then
    let p := planOf s c
    let line := 256 * (planSlots p (g / 512)).idxOf g
    forEach ((winIds p).filter fun i =>
      reads c i && wnCru (window4 p i) == g / 512 && rangesMeet [(line, 256)] (winLines s c i)) s fun s i =>
        modWin s c i fun v => poisonWin v csPOISONED
  else s

/-- An ECC error in crucible memory: a single-bit one is corrected and counted in CRU_ECC_CE; a double-bit one raises
CRU_ECC_UE, poisons the chunks that use the slot and retires it at its release (R215). -/
def slotEcc (reads : Nat → Nat → Bool) (s : State) (e : EccError) : State :=
  if !hasCrucibles s then s
  else if !e.double then bump s (cSeq e.cru 5)
  else
    let g := 512 * e.cru + e.slot
    let s := setCruSlot s g { cruSlot s g with ue := true }
    poisonSlot (raiseEvent s 0x501 0x7F e.cru e.slot) g reads

/-- The ECC errors that a crucible finds as it takes a frame: the windows open then are those that use a slot. -/
def arrivalEcc (s : State) (l : List EccError) : State :=
  forEach l s (slotEcc fun c i => (win (planOf s c) i).st == 1)

/-- The ECC errors found as a word of a context issues: the windows that the word reads are those that use a slot. -/
def wordEcc (s : State) (c : Nat) (w : BitVec 256) (l : List EccError) : State :=
  forEach l s (slotEcc fun d i => d == c && ((wordReads w).map (·.2)).contains i)

/-- The slots of a word act: RECV, ACC, CVT, MEM, SEND and SYNC in turn. -/
def wordActs (s : State) (n c t : Nat) (w : BitVec 256) (sample : Option (List Word)) : State :=
  let s := if pwEn w 0 then modWin s c (recvWin w) fun v => { v with st := if recvOp w = 1 then 1 else 2 } else s
  let s := if !pwEn w 1 then s
    else if accOp w = 1 then
      modWin s c (accWin w) fun v => accSpanAdd (ctxOf s c) (window4 (planOf s c) (accWin w)) v (accMember w) (accSpan w)
    else if accOp w = 2 then modWin s c (accWin w) fun v => accCombine (ctxOf s c) (window4 (planOf s c) (accWin w)) v
    else accUpdate s c (accWin w)
  let s := if pwEn w 2 then convertWin s c (cvtWin w) (cvtStage w) (cvtFmt w) (cvtMode w) else s
  let wait (s : State) : State := modSeqr s n fun q => { q with memWait := q.memWait ++
    [{ ctx := c, win := memWin w, op := memOp w, claim := memClaim w, off := memOff w, issued := t, sample := sample }] }
  let s := if !pwEn w 3 then s
    else if memOp w = 1 then wait s
    else if memOp w = 2 then memStore s c (memWin w) (memClaim w) (memOff w)
    else if memOp w = 3 then if (winGeo s c (memWin w)).isNone then stateRange s c (memWin w) else wait s
    else memStoreState s c (memWin w)
  let s := if pwEn w 4 then sendSlot s n c w else s
  if pwEn w 5 && syncOp w == 2 then
    forEach (winIds (planOf s c)) s fun s i =>
      if wnCru (window4 (planOf s c) i) = n ∧ (win (planOf s c) i).st = 1 then modWin s c i fun v => { v with st := 2 }
      else s
  else s

/-- The next word of a sequencer issues at time t. -/
def issueWord (s : State) (n t : Nat) (w : BitVec 256) (ecc : List EccError) : State :=
  let q := seqr s n
  let c := q.ctx
  let cyc := wordCycles s c w
  let pick := sampleWord s (seqDie n) c
  let rec_ := wordRecord s n c q.phase t q w
  let load := pwEn w 3 && (memOp w == 1 || (memOp w == 3 && (winGeo s c (memWin w)).isSome))
  let s := if pick.2 && !load then sampleRecord pick.1 (seqDie n) 2 rec_ else pick.1
  let s := bump s (cSeq n 1)
  let s := if hasCrucibles s then
      bumpN s (cSeq n 3) ((if pwEn w 1 then nth 0 cyc 1 else 0) + (if pwEn w 2 then nth 0 cyc 2 else 0))
    else s
  let s := wordEcc s c w ecc
  let s := wordActs s n c t w (if pick.2 && load then some rec_ else none)
  let busy := (List.range 6).map fun u =>
    if pwEn w u then t + nth 0 cyc u * cycT s n else nth 0 (seqr s n).busyUntil u
  let delta := pwDelta (planWord s n (q.nextAddr + 1))
  let s := modSeqr s n fun r => { r with last := q.nextAddr, busyUntil := busy, blocked := false }
  if pwEn w 5 then modSeqr s n fun r => { r with endAt := some (syncOp w, maxList busy) }
  else modSeqr s n fun r => { r with
    nextAddr := q.nextAddr + 1, nextAt := t + delta * cycT s n, declared := q.declared + delta }

/-- Stall the next word of a sequencer until now, in whole cycles (R234). -/
def stallNow (s : State) (n : Nat) : State :=
  let q := seqr s n
  let d := ceilDiv (s.now - q.nextAt) (cycT s n)
  if d = 0 then s
  else bumpN (setSeqr s n { q with nextAt := q.nextAt + d * cycT s n, stall := q.stall + d }) (cSeq n 0) d

/-- A pour word issues at its DELTA cycle, is checked against the contract, and its slots act. A SEND that the
riser cannot take, or a word whose data have not arrived, waits. -/
def wordIssue (n : Nat) (planEcc : Bool) (ecc : List EccError) (s : State) : State :=
  let q := seqr s n
  if !q.busy || q.endAt.isSome then s
  else
    let s := await s q.nextAt 0
    let w := planWord s n q.nextAddr
    if !planEcc && waitsData q w then s
    else if !planEcc && !sendTaken s n q.ctx w then setSeqr s n { q with blocked := true }
    else
      let s := if q.blocked then stallNow s n else s
      let t := (seqr s n).nextAt
      match wordBreach s n q.ctx q.phase t w planEcc with
      | some b => planContract s n b.1 b.2
      | none => endPhasesDue (issueWord s n t w ecc)

def execWordIssue (seq : Nat) (planEcc : Bool) (ecc : List EccError) (s : State) : Out :=
  .next (wordIssue seq planEcc ecc s)

/-- Data of a MEM LOAD or LOAD_STATE arrive, ending the stall of a word that waits for them. -/
def memDataArrive (n : Nat) (s : State) : State :=
  let q := seqr s n
  match q.memWait with
  | [] => s
  | m :: rest =>
    let s := setSeqr s n { q with memWait := rest }
    let s := if m.op = 1 then loadArrives s m else stateArrives s m
    let lat := min 0xFFFF (ceilDiv (s.now - m.issued) (cycT s n))
    let s := match m.sample with
      | some l => sampleRecord s (seqDie n) 2 (l.take 3 ++ [setFld (nth 0 l 3) 63 48 lat])
      | none => s
    let w := planWord s n q.nextAddr
    if q.busy && q.endAt.isNone && waitsData q w && !waitsData (seqr s n) w && decide (q.nextAt < s.now) then stallNow s n
    else s

def execMemDataArrive (seq : Nat) (s : State) : Out := .next (memDataArrive seq s)

end Sys2Proof.Machine
end

