-- ==== Sys2Proof/Machine/PlanLoad.lean ====
section
/-! DEFINITION. Plan images and admission (R221 to R227, R239 to R242) and the plan-load rings (R243, R244). -/
namespace Sys2Proof.Machine

/-! ### The image: R221, R222 -/

/-- The sections of an image, once their sizes agree with its length. -/
structure Image where
  hdr : List Word := []
  claims : List (Word × Word) := []
  phases : List (Word × Word × Word × Word) := []
  windows : List (Word × Word × Word × Word) := []
  dests : List Word := []
  words : List (BitVec 256) := []
deriving DecidableEq, Repr

/-- Entries of k words each. -/
def groups (k : Nat) : Nat → List Word → List (List Word)
  | 0, _ => []
  | n + 1, l => l.take k :: groups k n (l.drop k)

def pair4 (l : List Word) : Word × Word × Word × Word := (nth 0 l 0, nth 0 l 1, nth 0 l 2, nth 0 l 3)

def quadWord (l : List Word) : BitVec 256 :=
  BitVec.ofNat 256 ((nth 0 l 0).toNat + 2 ^ 64 * (nth 0 l 1).toNat + 2 ^ 128 * (nth 0 l 2).toNat + 2 ^ 192 * (nth 0 l 3).toNat)

/-- Section sizes of R222: claims, phases, windows, destinations, words. -/
def imageSizes (w : List Word) : Nat × Nat × Nat × Nat × Nat :=
  (fld (nth 0 w 2) 63 48, fld (nth 0 w 2) 47 32, fld (nth 0 w 2) 31 16, fld (nth 0 w 2) 15 0, fld (nth 0 w 3) 63 32)

def imageLength (w : List Word) : Nat :=
  let (c, p, v, d, n) := imageSizes w
  64 + 16 * c + 32 * p + 32 * v + 8 * d + 32 * n

/-- The image's words cut into sections; none where MAGIC, VERSION, IMAGE_CRC or the sizes do not agree. -/
def parseImage (b : List Byte) : Option Image :=
  let w := wordsOf b (b.length / 8)
  let (c, p, v, d, n) := imageSizes w
  let h7 := setFld (nth 0 w 7) 31 0 0
  if b.length < 64 ∨ b.length ≠ imageLength w ∨ fld (nth 0 w 0) 63 32 ≠ 0x504F5552 ∨ fld (nth 0 w 0) 31 16 ≠ 1
      ∨ crc32c (bytesOfWords (w.take 7 ++ [h7] ++ w.drop 8)) ≠ fld (nth 0 w 7) 31 0 then none
  else
    let r1 := w.drop 8
    let r2 := r1.drop (2 * c)
    let r3 := r2.drop (4 * p)
    let r4 := r3.drop (4 * v)
    some
      { hdr := w.take 8, claims := (groups 2 c r1).map fun l => (nth 0 l 0, nth 0 l 1),
        phases := (groups 4 p r2).map pair4, windows := (groups 4 v r3).map pair4, dests := r4.take d,
        words := (groups 4 n (r4.drop d)).map quadWord }

def imSpan (m : Image) : Nat := fld (nth 0 m.hdr 3) 31 0
def imPart (m : Image) : Nat := fld (nth 0 m.hdr 1) 19 13

/-- The plan of an image as its metadata hold it. -/
def imPlan (m : Image) (ring : Nat) : Plan :=
  { state := 2, planId := fld (nth 0 m.hdr 1) 63 32, part := imPart m, runSpan := imSpan m, ring := ring,
    claims := m.claims, phases := m.phases.map fun e => (e.1, e.2.1, e.2.2.1), windows := m.windows,
    dests := m.dests.map fun w => fld w 23 0 }

/-- The words of an image with the sequencer and address that each fills (R221). -/
def imWords (m : Image) : List (Nat × Nat × BitVec 256) :=
  (planAddrs (imPlan m 0)).zip m.words |>.map fun e => (e.1.1, e.1.2, e.2)

/-! ### Refusals: R239, R240 -/

/-- CAUSE, CLAIM, SECTION and ARG. -/
abbrev Refused := Nat × Nat × Nat × Nat

def noClaim : Nat := 0xFFFF

def admitDetail (r : Refused) : Nat := (mkWord [at_ 56 r.1, at_ 32 r.2.1, at_ 28 r.2.2.1, r.2.2.2]).toNat

/-- The first refusal of a list of checks. -/
def firstRef : List (Option Refused) → Option Refused
  | [] => none
  | some r :: _ => some r
  | none :: t => firstRef t

/-- The first index of a list at which a check fails. -/
def firstBad {α : Type} (l : List α) (ok : Nat → α → Bool) : Option Nat :=
  (List.range l.length).find? fun i => match l[i]? with
    | some a => !ok i a
    | none => false

/-- A breach of form in a section. -/
def badForm (section_ : Nat) (i : Option Nat) : Option Refused :=
  i.map fun i => (3, if section_ = 2 then i else noClaim, section_, i)

/-! ### BAD_STRUCTURE: claims -/

def claimMask : Nat → Nat × Nat
  | 1 => (mask 63 56 + mask 55 17, 0)
  | 2 => (mask 63 56 + mask 55 31, 0)
  | 3 => (ones, ones)
  | 4 => (mask 63 56 + mask 55 8, 0)
  | 5 => (mask 63 36, ones)
  | _ => (0, 0)

def within (v : Word) (m : Nat) : Bool := v.toNat &&& (ones ^^^ m) == 0

/-- Reserved fields, KIND and ranges of a claim (R223). -/
def claimFormOk (c : Word × Word) : Bool :=
  let k := claimKind c
  let m := claimMask k
  decide (1 ≤ k) && decide (k ≤ 5) && within c.1 m.1 && within c.2 m.2 &&
    (if k = 1 then decide (1 ≤ (wordsClaim c).2.2) && decide ((wordsClaim c).2.1 + (wordsClaim c).2.2 ≤ 65536)
     else if k = 2 then decide (1 ≤ (slotsClaim c).2.2) && decide ((slotsClaim c).2.1 + (slotsClaim c).2.2 ≤ 512)
     else if k = 3 then decide (fld c.1 55 48 ≤ 7)
     else if k = 4 then
       decide (gateIn c ≤ 263) && decide (gateOut c ≤ 259) && inR c.1 27 18 1 640 && decide (1 ≤ fld c.1 17 8)
         && decide (fld c.1 37 28 + (fld c.1 27 18 - 1) * fld c.1 17 8 < 1024)
     else true)

/-- Two claims ask for one thing: words, slots, cell times of a group, a circuit or an output colour. -/
def claimsClash (a b : Word × Word) : Bool :=
  let k := claimKind a
  claimKind b == k &&
    (if k = 1 ∨ k = 2 then
       (claimSpan a).1 == (claimSpan b).1
         && overlaps (claimSpan a).2.1 (claimSpan a).2.2 (claimSpan b).2.1 (claimSpan b).2.2
     else if k = 4 then
       (gateIn a == gateIn b || gateOut a == gateOut b) && (gateTimes a).any fun t => (gateTimes b).contains t
     else if k = 5 then
       fld a.1 55 50 == fld b.1 55 50
         && (fld a.1 49 46 == fld b.1 49 46 || (fld a.1 43 42 == fld b.1 43 42 && fld a.1 41 37 == fld b.1 41 37))
     else false)

def claimsOk (m : Image) : Option Refused :=
  badForm 2 (firstBad m.claims fun i c => claimFormOk c && !((m.claims.take i).any fun b => claimsClash b c))

/-! ### BAD_STRUCTURE: header, phases, windows, destinations -/

def headerOk (m : Image) : Bool :=
  let h := m.hdr
  fld (nth 0 h 0) 15 0 == 0 && fld (nth 0 h 1) 12 0 == 0 && nth 0 h 4 == 0 && nth 0 h 5 == 0 && nth 0 h 6 == 0
    && fld (nth 0 h 7) 63 32 == 0 && decide (imSpan m < 2 ^ 31) && decide (m.claims.length ≤ 256)
    && decide (1 ≤ m.phases.length) && decide (m.phases.length ≤ 4096) && decide (m.windows.length ≤ 4096)
    && decide (m.dests.length ≤ 4096)

/-- Header WORDS is the sum of the COUNT fields of the PLAN_WORDS claims. -/
def wordCountOk (m : Image) : Bool := (planAddrs (imPlan m 0)).length == m.words.length

/-- The words of a phase from FIRST_WORD to the end of their claim. -/
def phaseWords (m : Image) (n first : Nat) : List (BitVec 256) :=
  match (m.claims.filter fun c => claimKind c == clWORDS).find? fun c =>
      (wordsClaim c).1 == n && decide ((wordsClaim c).2.1 ≤ first)
        && decide (first < (wordsClaim c).2.1 + (wordsClaim c).2.2) with
  | none => []
  | some c =>
    ((imWords m).filter fun w => w.1 == n && decide (first ≤ w.2.1)
      && decide (w.2.1 < (wordsClaim c).2.1 + (wordsClaim c).2.2)).map fun w => w.2.2

/-- SYNC.OP of the word that ends phase k; none where its words leave the claim or end another phase. -/
def phaseEndOp (m : Image) (k : Nat) (e : Word × Word × Word) : Option Nat :=
  match (phaseWords m (phSeq e) (phFirst e)).find? fun w => pwEn w 5 with
  | none => none
  | some w => if syncPhase w = k ∧ (syncOp w = 1 ∨ syncOp w = 2) then some (syncOp w) else none

def phaseFormOk (m : Image) (p : Plan) (k : Nat) (raw : Word × Word × Word × Word) : Bool :=
  let e := phase p k
  let mine := seqPhases p (phSeq e)
  let op := phaseEndOp m k e
  fld raw.1 14 0 == 0 && fld raw.2.2.1 31 0 == 0 && raw.2.2.2 == 0 && op.isSome
    && decide (phInFirst e + phInCount e ≤ m.windows.length)
    && (phInputs e).all (fun i => wnCru (window4 p i) == phSeq e)
    && decide (phPour e + phDeadline e + phWait e ≤ imSpan m)
    && (mine.filter fun j => decide (j < k)).all (fun j => decide (phPour (phase p j) ≤ phPour e))
    && (mine.getLast? != some k || op == some 2)

/-- Lines that a plan's claims give a crucible (R225). -/
def crucibleLines (p : Plan) (cu : Nat) : Nat := 256 * (planSlots p cu).length

/-- A word of the source crucible sends to the LOCAL window. -/
def localFed (m : Image) (i : Nat) (e : Word × Word × Word × Word) : Bool :=
  (imWords m).any fun w => w.1 == wnSrc e && pwEn w.2.2 4 && sendOp w.2.2 == 3 && sendTarget w.2.2 == i

def imLines (m : Image) (x : Ctx) (p : Plan) (i : Nat) : List (Nat × Nat) :=
  let e := window4 p i
  winRanges (ctxArith x) (ctxCombine x) (outFmts (imWords m) (ctxArith x) i e) e

/-- A MERGE window is refused with slot-ordered floating-point SUM or COMBINE. -/
def mergeOk (k1 : Word) : Bool :=
  aExact k1 || !(aOp k1 == opCOMBINE || ((aOp k1 == opSUM || isUpdate (aOp k1)) && !isIntF (aIn k1)))

def windowFormOk (m : Image) (x : Ctx) (p : Plan) (i : Nat) (e : Word × Word × Word × Word) : Bool :=
  let lines := imLines m x p i
  let before := (List.range i).filter fun j => wnPreopen (window4 p j) && wnCru (window4 p j) == wnCru e
  fld e.1 17 0 == 0 && fld e.1 63 62 == 0 && fld e.2.1 16 0 == 0 && fld e.2.2.2 14 0 == 0 && wnKind e != 3
    && fmtKnown (wnFmt e) && wnMembers e != 0 && (!wnLocal e || (wnMembers e == 1 && localFed m i e))
    && (if wnKind e = 0 then decide (1 ≤ wnLines e) && decide (wnLines e ≤ 16) else wnLines e == 0)
    && (wnKind e != 1 || mergeOk (ctxArith x))
    && (outFmts (imWords m) (ctxArith x) i e).all fmtKnown
    && lines.all (fun r => decide (r.1 + r.2 ≤ crucibleLines p (wnCru e)))
    && (!wnPreopen e || before.all fun j => !rangesMeet lines (imLines m x p j))

/-! ### BAD_STRUCTURE: words -/

/-- Bits of a word's disabled slots, its reserved bits and the fields a unit does not use are 0 (R227). -/
def wordReserved (w : BitVec 256) : Bool :=
  pw w 233 224 == 0 && pw w 207 192 == 0 && pw w 131 128 == 0 && pw w 97 96 == 0 && pw w 71 64 == 0 && pw w 0 0 == 0
    && (pwEn w 0 || pw w 191 176 == 0) && (pwEn w 1 || pw w 175 132 == 0) && (pwEn w 2 || pw w 127 98 == 0)
    && (pwEn w 3 || (pw w 95 72 == 0 && pw w 63 40 == 0)) && (pwEn w 4 || pw w 39 1 == 0)
    && (pwEn w 5 || pw w 223 208 == 0)

/-- A window that a word of sequencer n may name. -/
def ownWindow (m : Image) (p : Plan) (n i : Nat) : Bool := decide (i < m.windows.length) && wnCru (window4 p i) == n

def accWordOk (m : Image) (x : Ctx) (p : Plan) (n : Nat) (w : BitVec 256) : Bool :=
  ownWindow m p n (accWin w) &&
    (if accOp w = 1 then decide (accMember w + accSpan w ≤ wnMembers (window4 p (accWin w)))
     else if accOp w = 2 then isCombine x
     else accOp w == 3 && isUpdate (aOp (ctxArith x)))

def cvtWordOk (m : Image) (p : Plan) (n : Nat) (w : BitVec 256) : Bool :=
  cvtOp w == 1 && ownWindow m p n (cvtWin w)
    && (if cvtStage w = 0 then cvtFmt w == 0 && cvtMode w == 0 else fmtKnown (cvtFmt w))

/-- The right of R223 that a MEM operation needs. -/
def memRight (op : Nat) : Nat := if op = 1 then 0 else if op = 2 then 1 else 2

def memWordOk (m : Image) (p : Plan) (n : Nat) (w : BitVec 256) : Bool :=
  decide (1 ≤ memOp w) && decide (memOp w ≤ 4) && ownWindow m p n (memWin w)
    && (match m.claims[memClaim w]? with
        | some c => claimKind c == clREGION && (fld c.1 55 48).testBit (memRight (memOp w))
        | none => false)
    && (decide (memOp w ≤ 2) || memOff w == 0)

def sendWordOk (m : Image) (p : Plan) (n : Nat) (w : BitVec 256) : Bool :=
  let t := sendTarget w
  let tcOk := decide (4 ≤ sendTc w) && decide (sendTc w ≤ 6)
  if sendOp w = 6 then t == 0 && sendTc w == 0
  else ownWindow m p n (sendWin w) && tcOk &&
    (if sendOp w = 1 ∨ sendOp w = 4 then decide (t < m.dests.length)
     else if sendOp w = 2 ∨ sendOp w = 5 then decide (t < 65536)
     else sendOp w == 3 && decide (t < m.windows.length))

def wordFormOk (m : Image) (x : Ctx) (p : Plan) (w : Nat × Nat × BitVec 256) : Bool :=
  let v := w.2.2
  wordReserved v
    && (!pwEn v 0 || (ownWindow m p w.1 (recvWin v) && decide (1 ≤ recvOp v) && decide (recvOp v ≤ 2)))
    && (!pwEn v 1 || accWordOk m x p w.1 v) && (!pwEn v 2 || cvtWordOk m p w.1 v)
    && (!pwEn v 3 || memWordOk m p w.1 v) && (!pwEn v 4 || sendWordOk m p w.1 v)
    && (!pwEn v 5 || syncOp v == 1 || syncOp v == 2)

/-- Every breach of form, section by section. -/
def structureOk (x : Ctx) (m : Image) : Option Refused :=
  let p := imPlan m 0
  firstRef [
    (if headerOk m then none else some (3, noClaim, 1, 0)),
    claimsOk m,
    (if wordCountOk m then none else some (3, noClaim, 6, 0)),
    badForm 3 (firstBad m.phases fun k e => phaseFormOk m p k e),
    badForm 4 (firstBad m.windows fun i e => windowFormOk m x p i e),
    badForm 5 (firstBad m.dests fun _ d => fld d 63 24 == 0),
    ((imWords m).find? fun w => !wordFormOk m x p w).map fun w => (3, noClaim, 6, 65536 * w.1 + w.2.1)]

/-! ### UNIT_ABSENT, META_FULL and the claims: R239 -/

/-- R5 and R6; a SPRUE claim on -B. -/
def unitsOk (s : State) (m : Image) : Option Refused :=
  let claim (c : Word × Word) : Bool :=
    let k := claimKind c
    !((!hasCrucibles s && (k == clSLOTS || k == clREGION)) || (!hasStacks s && k == clREGION) || (!hasSprue s && k == clSPRUE))
  match firstBad m.claims fun _ c => claim c with
  | some i => some (4, i, 0, 0)
  | none =>
    if !hasCrucibles s && (m.words.any fun w => (List.range 4).any fun u => pwEn w u) then some (4, noClaim, 0, 0) else none

/-- Plans that hold claims: admitted, and unloading ones until they are done. -/
def heldPlans (s : State) : List (Nat × Plan) := s.plan.plans.filter fun e => decide (2 ≤ e.2.state)

def sumOf (l : List Nat) : Nat := l.foldl (· + ·) 0

def phasesUsed (s : State) : Nat := sumOf ((heldPlans s).map fun e => e.2.phases.length)
def windowsUsed (s : State) : Nat := sumOf ((heldPlans s).map fun e => e.2.windows.length)

def claimBw (c : Word × Word) : Nat := if claimKind c = clREGION then fld c.1 47 32 else 0
def bwUsed (s : State) : Nat := sumOf ((heldPlans s).flatMap fun e => e.2.claims.map claimBw)

/-- The first claim of a kind that a check refuses, with its ARG. -/
def refuseClaim (m : Image) (cause kind : Nat) (f : Nat → Word × Word → Option Nat) : Option Refused :=
  firstRef ((List.range m.claims.length).map fun i =>
    let c := nth (0, 0) m.claims i
    if claimKind c = kind then (f i c).map fun a => (cause, i, 0, a) else none)

/-- The context of another plan with a claim that clashes. -/
def clashHolder (s : State) (clash : Word × Word → Word × Word → Bool) (c : Word × Word) : Option Nat :=
  ((heldPlans s).find? fun e => e.2.claims.any fun b => clash b c).map (·.1)

/-- A slot range reaches into the pool or holds a retired slot (R213, R215). -/
def slotsTaken (s : State) (c : Word × Word) : Bool :=
  let (n, first, count) := slotsClaim c
  decide (512 - dynSlots s < first + count) || (List.range count).any fun i => (cruSlot s (512 * n + first + i)).retired

/-- Granules of a REGION claim: first and count; none where its region is missing. -/
def claimGranules (s : State) (part : Nat) (c : Word × Word) : Option (Nat × Nat) :=
  (regionOf s part (fld c.1 31 0)).map fun v => (rgBase v + fld c.2 63 32, fld c.2 31 0)

/-- The region exists, its rights cover the claim and the range lies within it. -/
def regionClaimOk (s : State) (part : Nat) (c : Word × Word) : Bool :=
  match regionOf s part (fld c.1 31 0) with
  | none => false
  | some v =>
    let r := rgRights v
    let q := fld c.1 55 48
    (!q.testBit 0 || r.testBit 0 || r.testBit 3) && (!q.testBit 1 || r.testBit 1 || r.testBit 3)
      && (!q.testBit 2 || r.testBit 3) && decide (fld c.2 63 32 + fld c.2 31 0 ≤ rgSize v)

/-- The context of another plan whose REGION claim meets this one where either writes. -/
def regionHolder (s : State) (part : Nat) (c : Word × Word) : Option Nat :=
  match claimGranules s part c with
  | none => none
  | some g => ((heldPlans s).find? fun e => e.2.claims.any fun b =>
      claimKind b == clREGION && (fld b.1 50 49 != 0 || fld c.1 50 49 != 0) &&
        match claimGranules s e.2.part b with
        | some h => overlaps g.1 g.2 h.1 h.2
        | none => false).map (·.1)

/-- The partition of a leaf group lies outside the reach mask. -/
def gateFar (s : State) (part g : Nat) : Bool := decide (g < 256) && !reaches s part (g / 4)

def gateHolder (s : State) (part : Nat) (c : Word × Word) : Option Nat :=
  match s.sw.resv.find? fun v => (v.inGroup == gateIn c || v.outGroup == gateOut c) && (gateTimes c).contains v.slot with
  | some v => some v.ctx
  | none => if gateFar s part (gateIn c) || gateFar s part (gateOut c) then some 0xFFF else none

def gateResv (ctx : Nat) (c : Word × Word) : List Resv :=
  if claimKind c = clGATE then
    (gateTimes c).map fun t => { inGroup := gateIn c, outGroup := gateOut c, slot := t, ctx := ctx }
  else []

/-- The limits of R131 and R135 with the claims up to this one. -/
def gateOver (s : State) (l : List Resv) (c : Word × Word) : Bool :=
  let all := s.sw.resv ++ l
  let d := (dieOfGroup (gateIn c), dieOfGroup (gateOut c))
  decide (rf s oGATE_CFG 9 0 < (all.filter fun v => v.inGroup == gateIn c).length)
    || decide (rf s oGATE_CFG 9 0 < (all.filter fun v => v.outGroup == gateOut c).length)
    || (d.1 != d.2 && (gateTimes c).any fun t =>
        decide (rf s oGATE_CFG 36 32 < (all.filter fun v =>
          v.slot == t && dieOfGroup v.inGroup == d.1 && dieOfGroup v.outGroup == d.2).length))

def sprueInvalid (s : State) (m : Image) (c : Word × Word) : Option Nat :=
  let (n, i, e) := sprueClaim c 0
  let set := fld c.2 63 32
  let rel := fld c.2 31 0
  if !sprueValid s n i e || decide (rel < set + 100000) || (!bit c.1 36 && decide (imSpan m < rel + 1000000)) then some 0
  else if !reaches s (imPart m) (2 * n) || !reaches s (imPart m) (2 * n + 1) then some 0xFFF
  else none

/-- The claims in the order of the table of R239. -/
def claimsHeld (s : State) (ctx : Nat) (m : Image) : Option Refused :=
  let part := imPart m
  firstRef [
    refuseClaim m 6 clWORDS fun _ c => clashHolder s claimsClash c,
    refuseClaim m 7 clSLOTS fun _ c =>
      match clashHolder s claimsClash c with
      | some h => some h
      | none => if slotsTaken s c then some 0xFFF else none,
    refuseClaim m 8 clREGION fun _ c => if regionClaimOk s part c then none else some 0,
    refuseClaim m 9 clREGION fun _ c => regionHolder s part c,
    refuseClaim m 10 clREGION fun i _ =>
      if rf s oPLAN_CFG 9 0 < bwUsed s + sumOf ((m.claims.take (i + 1)).map claimBw) then some 0 else none,
    refuseClaim m 11 clGATE fun _ c => gateHolder s part c,
    refuseClaim m 12 clGATE fun i c =>
      if gateOver s ((m.claims.take (i + 1)).flatMap (gateResv ctx)) c then some 0 else none,
    refuseClaim m 13 clSPRUE fun _ c => sprueInvalid s m c,
    refuseClaim m 14 clSPRUE fun _ c => clashHolder s claimsClash c]

/-- The checks of R239 in the order of its table; the image's form has been read. -/
def refusal (s : State) (ctx : Nat) (m : Image) : Option Refused :=
  let x := ctxOf s ctx
  if fld (nth 0 m.hdr 1) 31 20 ≠ ctx ∨ !ctxUp x ∨ ctxPart x ≠ imPart m then some (2, noClaim, 0, 0)
  else firstRef [
    structureOk x m,
    unitsOk s m,
    (if 65536 < phasesUsed s + m.phases.length ∨ 65536 < windowsUsed s + m.windows.length then some (5, noClaim, 0, 0)
     else none),
    claimsHeld s ctx m]

/-! ### Admission: R241, R242 -/

/-- Admission claims everything at once: plan memory, slots, gate slots and sprue circuits. -/
def admitPlan (s : State) (ctx ring : Nat) (m : Image) : State :=
  let p := imPlan m ring
  let mem := (imWords m).foldl (fun t w => tset 0 t (65536 * w.1 + w.2.1) w.2.2) s.plan.memory
  let s := { s with plan := { s.plan with memory := mem } }
  let s := setPlan s ctx { p with sprueFailed := (planOf s ctx).sprueFailed }
  let s := forEach (allSlots p) s fun s g => setCruSlot s g { cruSlot s g with use := 1, owner := ctx, since := s.now }
  let s := { s with sw := { s.sw with resv := s.sw.resv ++ m.claims.flatMap (gateResv ctx) } }
  let s := forEach (m.claims.filter fun c => claimKind c == clSPRUE) s fun s c =>
    let (n, i, e) := sprueClaim c ctx
    if (sprue s n i).state = 0 then setSprue s n i e else s
  rehash s ctx

/-! ### Plan-load descriptors: R243, R244 -/

def pMasks : List Nat :=
  [mask 63 44 + mask 31 0, ones, mask 31 0, ones, mask 31 0, mask 63 32, 0, 0]

def pdCtx (d : List Word) : Nat := fld (nth 0 d 0) 55 44

/-- BAD_OP, then WRONG_RING where another ring's plan stands on the context. -/
def pFirst (s : State) (i : Nat) (d : List Word) : Option Nat :=
  let p := planOf s (pdCtx d)
  if !resOk pMasks d then some stBAD_OP
  else if p.state ≠ 0 ∧ p.ring ≠ i then some stWRONG_RING
  else none

/-- The image has been fetched: it is checked and admitted, or refused with ADMIT_DETAIL. -/
def loadImage (s : State) (i key ctx : Nat) (b : List Byte) : State :=
  let done (s : State) (st detail : Nat) : State := complete s .pload i key st detail 0
  let x := ctxOf s ctx
  if ctxUp x && (window s (ctxPart x)).isOpen then done s stPARTITION_RECAST 0
  else
    let refuse (r : Refused) : State := done s (if r.1 = 4 then stUNIT_ABSENT else stADMIT_REFUSED) (admitDetail r)
    match parseImage b with
    | none => refuse (1, noClaim, 0, 0)
    | some m =>
      match refusal s ctx m with
      | some r => refuse r
      | none => done (admitPlan s ctx i m) stOK 0

def opPlanLoad (i : Nat) : DescOp := fun s d key a =>
  let addr := (nth 0 d 1).toNat
  let n := fld (nth 0 d 2) 31 0
  let st := if !resOk pMasks d then some stBAD_OP else if addr % 64 ≠ 0 then some stBAD_RANGE else pFirst s i d
  match st with
  | some st => some (complete s .pload i key st 0 0)
  | none =>
    if (planOf s (pdCtx d)).state ≠ 0 then some (complete s .pload i key stPLAN_BUSY 0 0)
    else match hostIn s .pload i addr n a with
      | none => none
      | some (_, some w) => some (complete s .pload i key stDMA_ERROR w 0)
      | some (b, none) => some (loadImage s i key (pdCtx d) b)

def planLoad (i : Nat) (s : State) : State := runHead .pload i 1 (opPlanLoad i) s

def execPlanLoad (ring : Nat) (s : State) : Out := .next (planLoad ring s)

/-- PLAN_UNLOAD: any run is abandoned, sprues are released, and the slots scrub (R244). -/
def startUnload (s : State) (i key c : Nat) : State :=
  let s := abandonRun s c csABANDONED 0
  let p := planOf s c
  let s := forEach (p.claims.filter fun x => claimKind x == clSPRUE) s fun s x =>
    let (n, k, _) := sprueClaim x c
    if (sprue s n k).ctx ≠ c then s
    else if (sprue s n k).state = 1 then setSprue s n k {} else releaseSprue s n k
  let s := modPlan s c fun p => { p with state := 6, unloading := some (i, key) }
  releaseSlots s (allSlots p)

/-- The ring whose first descriptor is a PLAN_LOAD for an empty context that has begun: its image is being fetched
(R244). -/
def loadingRing (s : State) (c : Nat) : Option Nat :=
  if (planOf s c).state ≠ 0 then none
  else (List.range 4).find? fun i =>
    match firstDesc s .pload i with
    | none => false
    | some d =>
      dOp d == 1 && pdCtx d == c && mayStart s .pload i d && resOk pMasks d && (nth 0 d 1).toNat % 64 == 0

def opPlanUnload (i : Nat) : DescOp := fun s d key _ =>
  let c := pdCtx d
  match pFirst s i d with
  | some st => some (complete s .pload i key st 0 0)
  | none =>
    if (planOf s c).state = 0 then some (complete s .pload i key stNO_PLAN 0 0) else some (startUnload s i key c)

def planUnload (i : Nat) (s : State) : State := runHead .pload i 2 (opPlanUnload i) s

def execPlanUnload (ring : Nat) (s : State) : Out := .next (planUnload ring s)

/-- The slot scrub has ended: every claim is released and the context holds no plan. -/
def planUnloadDone (c : Nat) (s : State) : State :=
  let p := planOf s c
  if p.state = 6 ∧ (allSlots p).all (fun g => (cruSlot s g).use != 3) then
    let s := { s with sw := { s.sw with
      resv := s.sw.resv.filter fun v => decide (v.ctx ≠ c)
      resvLate := s.sw.resvLate.filter fun v => decide (v.ctx ≠ c) } }
    let s := rehash (setPlan s c { sprueFailed := p.sprueFailed }) c
    match p.unloading with
    | some (i, key) => sweepBad (complete s .pload i key stOK 0 0) .pload i
    | none => s
  else s

def execPlanUnloadDone (ctx : Nat) (s : State) : Out := .next (planUnloadDone ctx s)

/-- PLAN_ARM: its status, and the runs it arms (R236, R244). -/
def armStatus (s : State) (p : Plan) (d : List Word) : Nat :=
  let base := (nth 0 d 3).toNat
  let period := fld (nth 0 d 4) 31 0
  let runs := fld (nth 0 d 5) 63 32
  if p.state = 0 then stNO_PLAN
  else if p.state ≠ 2 then stPLAN_BUSY
  else if !s.tim.inForce then stNO_TIME
  else if base < ntNs s + 1000 * rf s oPLAN_CFG 41 32 then stTIME_PAST
  else if (period ≠ 0 ∧ period < p.runSpan) ∨ (period = 0 ∧ runs ≠ 1) then stPERIOD_SHORT
  else stOK

def opPlanArm (i : Nat) : DescOp := fun s d key _ =>
  let c := pdCtx d
  let p := planOf s c
  let st := (pFirst s i d).getD (armStatus s p d)
  let s := if st = stOK then
      setPlan s c { p with
        state := 3, base := (nth 0 d 3).toNat, period := fld (nth 0 d 4) 31 0, runs := fld (nth 0 d 5) 63 32,
        runNo := 0, sprueActed := [], disarming := none }
    else s
  some (complete s .pload i key st 0 0)

def planArm (i : Nat) (s : State) : State := runHead .pload i 3 (opPlanArm i) s

def execPlanArm (ring : Nat) (s : State) : Out := .next (planArm ring s)

/-- PLAN_DISARM: no further run starts; it completes when the run in progress has ended. -/
def opPlanDisarm (i : Nat) : DescOp := fun s d key _ =>
  let c := pdCtx d
  let p := planOf s c
  match pFirst s i d with
  | some st => some (complete s .pload i key st 0 0)
  | none =>
    if p.state = 0 then some (complete s .pload i key stNO_PLAN 0 0)
    else if p.running then some (setPlan s c { p with disarming := some (i, key) })
    else
      let s := if p.state = 3 then setPlan s c { p with state := 2 } else s
      some (complete s .pload i key stOK 0 0)

def planDisarm (i : Nat) (s : State) : State := runHead .pload i 4 (opPlanDisarm i) s

def execPlanDisarm (ring : Nat) (s : State) : Out := .next (planDisarm ring s)

/-- The run in progress has ended, and PLAN_DISARM completes. -/
def planDisarmDone (c : Nat) (s : State) : State :=
  let p := planOf s c
  match p.disarming with
  | some (i, key) =>
    if p.running then s
    else sweepBad (complete (setPlan s c { p with disarming := none }) .pload i key stOK 0 0) .pload i
  | none => s

def execPlanDisarmDone (ctx : Nat) (s : State) : Out := .next (planDisarmDone ctx s)

end Sys2Proof.Machine
end

