-- ==== Sys2Proof/Machine/Contrib.lean ====
section
/-! DEFINITION. Contributions addressed to the spine (R231, R261 to R264, R271). -/
namespace Sys2Proof.Machine

def nkBUSY : Nat := 0x40
def nkMISMATCH : Nat := 0x41
def nkBAD_COMBINE : Nat := 0x42
def nkDUPLICATE : Nat := 0x43
def nkLATE : Nat := 0x44
def nkEARLY : Nat := 0x45
def nkNOT_ARMED : Nat := 0x46
def nkNO_WINDOW : Nat := 0x47
def nkPLAN_STOPPED : Nat := 0x48
def nkNO_CONTEXT : Nat := 0x49
def nkNOT_MEMBER : Nat := 0x4A
def nkEXCLUDED : Nat := 0x4B
def nkBAD_OP : Nat := 0x4C
def nkBAD_CHUNK : Nat := 0x4D

/-- The context counter of a collective cause (R393). -/
def causeCnt (cause : Nat) : Nat :=
  if cause = nkMISMATCH then 3 else if cause = nkLATE then 5 else if cause = nkEARLY then 6
  else if cause = nkDUPLICATE then 7 else if cause = nkNOT_ARMED then 8 else if cause = nkNO_WINDOW then 9
  else if cause = nkBUSY then 11 else if cause = nkNOT_MEMBER then 12 else if cause = nkEXCLUDED then 13
  else if cause = nkBAD_CHUNK then 14 else 15

/-- Refuse a contribution: a NACK, counted for its context where the cause is a collective one. -/
def refuseContrib (s : State) (q : QFrame) (cause backoff : Nat) : State :=
  refuse (if 0x40 ≤ cause then bump s (cCtx q.f.ctx (causeCnt cause)) else s) q cause backoff

/-! ### The tag and where the contribution belongs: R231, R256, R263 -/

/-- How far the tag of a CHUNK lies ahead of the present invocation: 0 present, 1 next, 2 and 3 earlier ones. -/
def tagAhead (x : Ctx) (chunk : Nat) : Nat := (chunk / 2 ^ 30 + 4 - x.n % 4) % 4

def chunkNo (chunk : Nat) : Nat := chunk % 2 ^ 30

/-- The pour time, after the run base, of a window's phase: the first that has it as an input, else the first of
its sequencer. -/
def winPour (p : Plan) (i : Nat) : Nat :=
  match (List.range p.phases.length).find? fun k => (phInputs (phase p k)).contains i with
  | some k => phPour (phase p k)
  | none => match seqPhases p (wnCru (window4 p i)) with
    | k :: _ => phPour (phase p k)
    | [] => 0

/-- BACKOFF of an EARLY answer: µs until the window's pour time in a run of the given base. -/
def earlyBackoff (s : State) (p : Plan) (i base : Nat) : Nat :=
  max 1 (min 65535 (ceilDiv (base + winPour p i - ntNs s) 1000))

/-- The window of a chunk that a member feeds: an open one, else one to be opened, else a closed one. -/
def feedWindow (p : Plan) (chunk member : Nat) : Option Nat :=
  let l := (winIds p).filter fun i =>
    let e := window4 p i
    !wnLocal e && wnChunk e == chunk && decide (wnFirst e ≤ member) && decide (member < wnFirst e + wnMembers e)
  if !p.running then l.head?
  else match l.find? fun i => (win p i).st == 1, l.find? fun i => (win p i).st == 0 with
  | some i, _ => some i
  | none, some i => some i
  | none, none => l.head?

/-- R231: the window that takes the contribution, or the cause and back-off that refuse it. A straggler of the two
invocations before the present one is LATE whether or not a run is armed. -/
def planPlace (s : State) (c member chunk : Nat) : Except (Nat × Nat) Nat :=
  let p := planOf s c
  let x := ctxOf s c
  let ahead := tagAhead x chunk
  if p.state = 5 then .error (nkPLAN_STOPPED, 0)
  else if p.state = 2 ∧ ahead ≤ 1 then .error (nkNOT_ARMED, 0)
  else match feedWindow p (chunkNo chunk) member with
    | none => .error (nkNO_WINDOW, 0)
    | some i =>
      let w := win p i
      if ahead = 1 then .error (nkEARLY, earlyBackoff s p i (p.base + (p.runNo + 1) * p.period))
      else if ahead ≠ 0 then .error (nkLATE, 0)
      else if !p.running ∨ w.st = 0 then .error (nkEARLY, earlyBackoff s p i (baseOf p))
      else if !isCombine x && w.c.received.contains member then .error (nkDUPLICATE, 0)
      else if w.st = 2 ∨ w.c.excluded.contains member then .error (nkLATE, 0)
      else .ok i

/-- The time until the oldest dynamic chunk with slots on a crucible reaches its idle limit, in µs (R271). -/
def busyBackoff (s : State) (cu : Nat) : Nat :=
  let olds := s.coll.ctxs.flatMap fun e =>
    ((openChunks e.2).filter fun k => chunkCu e.2 k == cu).map fun k => ((ctxChunk e.2 k).startedAt, e.2.lastTaken)
  let first := minList (olds.map (·.1))
  let left := (olds.filter fun o => some o.1 == first).map fun o =>
    ceilDiv (o.2 + rf s oCTX_CFG 63 47 * usT - s.now) usT
  max 1 (min (rf s oCTX_CFG 31 16) ((minList left).getD 65535))

/-- The dynamic checks of R263 on a chunk. -/
def dynPlace (s : State) (c member chunk : Nat) : Except (Nat × Nat) Nat :=
  let x := ctxOf s c
  let k := chunkNo chunk
  let v := ctxChunk x k
  let ahead := tagAhead x chunk
  if ctxKind x = 2 then .error (nkNOT_ARMED, 0)
  else if ctxChunks x ≤ k then .error (nkBAD_CHUNK, 0)
  else if ahead = 1 then .error (nkEARLY, 1)
  else if ahead ≠ 0 then .error (nkLATE, 0)
  else if !isCombine x && v.received.contains member then .error (nkDUPLICATE, 0)
  else if v.done then .error (nkLATE, 0)
  else if !chunkOpen v && decide ((poolSlots s (chunkCu x k)).length < chunkSlots x k) then
    .error (nkBUSY, busyBackoff s (chunkCu x k))
  else .ok k

/-! ### What a contribution leaves in its chunk: R261, R262 -/

/-- What is to be done with an accepted contribution: add it, or only poison its chunk. -/
inductive Taking where
  | add | poison | mismatch
deriving DecidableEq, Repr

/-- The chunk after a contribution, but for what is added to its accumulator. -/
def noteContrib (v : Chunk) (t : Taking) (f : Frame) (member expected : Nat) (segs : Option (List Seg)) : Chunk :=
  let v := { v with received := addNew v.received member, cmSeen := v.cmSeen || f.cm, segs := segs.getD v.segs }
  match t with
  | .add => v
  | .poison => { v with poison := max v.poison csPOISONED }
  | .mismatch =>
    let first := decide (v.poison < csMISMATCH)
    { v with
      poison := max v.poison csMISMATCH
      mmEid := if first then f.src else v.mmEid
      mmExpected := if first then expected else v.mmExpected
      mmReceived := if first then f.dhash else v.mmReceived }

/-- MISMATCH is raised once per context per invocation, and the logs latch the first (R261). -/
def noteMismatch (s : State) (c : Nat) (f : Frame) (expected : Nat) : State :=
  let x := ctxOf s c
  let s := if bit (getR s oMISMATCH0) 63 then s
    else putR (putR s oMISMATCH0 (mkWord [at_ 63 1, at_ 51 c, f.src])) oMISMATCH1 (mkWord [at_ 32 expected, f.dhash])
  if x.mmRaised then countEvent s 0x601
  else raiseEvent (setCtx s c { x with mmRaised := true }) 0x601 (ctxPart x) (at_ 32 expected + f.dhash)
    (at_ 52 c + at_ 28 f.src + f.chunk % 2 ^ 28)

/-- Counters and the arrival record of a contribution that passed R263. -/
def noteTaken (s : State) (q : QFrame) (c member : Nat) : State :=
  let s := bump s (cCtx c 0)
  arrived (if q.inBl2 then bump s (cCtx c 2) else s) c member

/-- A dynamic chunk takes a contribution, and completes if it was the last. -/
def takeDyn (s : State) (q : QFrame) (c member k : Nat) (t : Taking) (segs : Option (List Seg)) : State :=
  let s := startChunk s c k
  let x := ctxOf s c
  let k1 := ctxArith x
  let n := chunkElems x k
  let s := modChunk s c k fun v =>
    let v := noteContrib v t q.f member x.hash segs
    if t = .add && !isCombine x then
      let r := accList k1 (runsExact x true) 0 (if v.acc.isEmpty then List.replicate n .none else v.acc)
        (decPayload (aIn k1) q.f.payload n)
      { v with acc := r.1, flags := v.flags ||| r.2 }
    else v
  let s := modCtx s c fun x => { x with lastTaken := s.now }
  checkChunk s c k

/-- A window takes a contribution: stored, merged or held as its KIND requires (R225, R231). -/
def takeWin (s : State) (q : QFrame) (c member i : Nat) (t : Taking) (segs : Option (List Seg)) : State :=
  let x := ctxOf s c
  let e := window4 (planOf s c) i
  let kept := if t = .add && !isCombine x then keptBytes s x e q.f.payload else (s, [])
  let s := modWin kept.1 c i fun w =>
    let w := { w with
      c := noteContrib w.c t q.f member x.hash segs
      inBytes := w.inBytes + (if t = .mismatch then 0 else q.f.length) }
    if t ≠ .add ∨ isCombine x then w
    else if wnKind e = 1 then accTake x e w kept.2
    else { w with contribs := tset [] w.contribs member kept.2 }
  let s := if t = .mismatch then s else bumpN s (cSeq (wnCru e) 4) (ceilDiv q.f.length 256)
  noteDone s c

/-- Tokens that a contribution's segments may name: those of its chunk or window. -/
def tokensOf (s : State) (c : Nat) (planned_ : Bool) (at' : Nat) : Nat × Nat :=
  let x := ctxOf s c
  if planned_ then winTokens x (window4 (planOf s c) at') else (at' * cTokens (ctxCombine x), chunkTokens x at')

/-- LENGTH as R257 requires, or the segments under R205: the segments held then, or the cause. -/
def checkForm (s : State) (c member at' : Nat) (planned_ : Bool) (f : Frame) : Except Nat (Option (List Seg)) :=
  let x := ctxOf s c
  let k1 := ctxArith x
  if isCombine x then
    let have_ := if planned_ then (win (planOf s c) at').c.segs else (ctxChunk x at').segs
    let t := tokensOf s c planned_ at'
    match (parseSegs (aIn k1) member 512 (sliceB f.payload 0 f.length)).bind
        (takeSegs (ctxCombine x) t.1 t.2 have_) with
    | some l => .ok (some l)
    | none => .error nkBAD_COMBINE
  else
    let e := window4 (planOf s c) at'
    let n := if planned_ then payBytes (wnFmt e) (wnElems e) else payBytes (aIn k1) (chunkElems x at')
    if f.length = n then .ok none else .error nkBAD_CHUNK

/-- Steps 8 to 10 of R263: hash, length and POISON, and what the chunk or window takes. -/
def takeContrib (s : State) (q : QFrame) (c member at' : Nat) (planned_ : Bool) : State :=
  let f := q.f
  let x := ctxOf s c
  let take (s : State) (t : Taking) (segs : Option (List Seg)) : State :=
    if planned_ then takeWin s q c member at' t segs else takeDyn s q c member at' t segs
  let form := checkForm s c member at' planned_ f
  if !q.inBl2 && f.dhash != x.hash then
    let s := noteMismatch (refuseContrib s q nkMISMATCH 0) c f x.hash
    take s .mismatch (match form with
      | .ok l => l
      | .error _ => none)
  else match form with
    | .error cause => refuseContrib s q cause 0
    | .ok segs =>
      let s := noteTaken (freeCredit s q.inLink f.tc (inCells q)) q c member
      take s (if f.poison then .poison else .add) segs

/-- EXCLUDED is raised once per member per invocation (R263). -/
def excludedEvent (s : State) (c member eid : Nat) : State :=
  let x := ctxOf s c
  if x.exRaised.contains member then countEvent s 0x602
  else raiseEvent (setCtx s c { x with exRaised := x.exRaised ++ [member] }) 0x602 (ctxPart x) (at_ 52 c)
    (at_ 24 member + eid)

/-- A COLL_CONTRIB or COLL_COMBINE addressed to SELF_EID: the checks of R263 in order. -/
def contribution (q : QFrame) (s : State) : State :=
  let f := q.f
  let c := f.ctx
  let x := ctxOf s c
  if !ctxUp x then refuseContrib s q nkNO_CONTEXT 0
  else match memberOf s (ctxPart x) c f.src with
    | none => refuseContrib s q nkNOT_MEMBER 0
    | some m =>
      let plan := planned s c
      if ctxMembers x ≤ m then refuseContrib s q nkNOT_MEMBER 0
      else if x.excluded.contains m then excludedEvent (refuseContrib s q nkEXCLUDED 0) c m f.src
      else if f.tc ≠ ctxTc x ∨ (f.type = tCOMBINE) ≠ (isCombine x = true) then refuseContrib s q nkBAD_OP 0
      else if !plan && !hasCrucibles s then refuseContrib s q nkUNIT_ABSENT 0
      else if q.inBl2 && (f.type == tCOMBINE || needsBl3 (ctxArith x) (!plan)) then refuseContrib s q nkBL2_LIMIT 0
      else match (if plan then planPlace s c m f.chunk else dynPlace s c m f.chunk) with
        | .error (cause, backoff) => refuseContrib s q cause backoff
        | .ok i => takeContrib s q c m i plan

end Sys2Proof.Machine
end

