-- ==== Sys2Proof/Machine/Time.lean ====
section
/-! DEFINITION. Network time (chapter 10): the domains TA and TB, time transfer over links, failover, PPS. -/
namespace Sys2Proof.Machine

/-! ### Domains: R312 to R314 -/

def setDom (s : State) (k : Nat) (d : Dom) : State :=
  { s with tim := { s.tim with doms := tset {} s.tim.doms k d } }
def modDom (s : State) (k : Nat) (f : Dom → Dom) : State := setDom s k (f (dom s k))

def domEn (s : State) (k : Nat) : Bool := bit (getR s (oDOM_CFG k)) 0
def domPps (s : State) (k : Nat) : Bool := rf s (oDOM_CFG k) 2 1 == 1

/-- SYNC_INTERVAL (R320). -/
def syncT (s : State) : Nat := rf s oTIME_CFG 13 0 * usT

/-- SLEW_THRESH in 2^−48 ns. -/
def slewMax (s : State) : Int := (rf s oTIME_CFG 51 32 : Int) * 2 ^ 48

/-- The limits of RATE (R312). -/
def clampRate (r : Int) : Int := max (-56294995342) (min 56294995342 r)

/-- The rate at which an offset is removed: over 10 ms, 1 µs at 100 ppm, and one that an edge of PPS_IN gave until
the next edge (R316; log entry 82). -/
def slewOf (s : State) (k : Nat) (off : Int) : Int := -off / (if domPps s k then 1000000000 else 10000000)

/-- What the servo takes for the drift at the step: the trend of the offsets (R315, log entry 4). -/
def trend (s : State) : State × Int := (takeFree s, clampRate (Config.freeInt s.freeCtr))

/-- What the servo adds to the drift for an offset: a free value no larger than the slew, its constants being the
module's own (R316, log entry 4). -/
def drifts (s : State) (slew : Int) : State × Int :=
  (takeFree s, max (-slew.natAbs) (min slew.natAbs (Config.freeInt s.freeCtr)))

/-- The domain goes on from its value at another rate. -/
def rebase (s : State) (k : Nat) (drift rate : Int) : State :=
  modDom s k fun d => { d with base := domValue s k, per := perNow s, drift := drift, rate := clampRate rate }

/-- RATE is renewed for an offset (R316). -/
def servo (s : State) (k : Nat) (off : Int) : State :=
  let slew := slewOf s k off
  let r := drifts s slew
  let drift := clampRate ((dom s k).drift + r.2)
  rebase r.1 k drift (drift + slew)

/-- The provisional count of an acquisition, in 2^−48 ns (R315). -/
def provisional (s : State) (d : Dom) : Int :=
  match d.acqAt with
  | some p => ((perNow s - p : Nat) : Int) * 2 ^ 48
  | none => 0

/-- The count on which an exchange takes its times, in 2^−16 ns. -/
def stampNow (s : State) (k : Nat) : Int :=
  let d := dom s k
  (if d.state = 0 then provisional s d else domValue s k) / 2 ^ 32

/-! ### Timestamps: R81, R311 -/

/-- The 96 bits of a time in 2^−16 ns. -/
def tsEnc (t : Int) : Nat :=
  let n := enc 144 t
  let ns := n / 65536
  at_ 48 (ns / 1000000000 % 2 ^ 48) + at_ 16 (ns % 1000000000) + n % 65536

def tsDec (v : Nat) : Int := ((v / 2 ^ 48 * 1000000000 + v / 65536 % 2 ^ 32) * 65536 + v % 65536 : Nat)

/-- The body of TIME_SYNC, TIME_DELAY_REQ and TIME_DELAY_RESP. -/
def timeBody (k seq : Nat) (t : Int) : BitVec 104 := mkBody [at_ 103 k, at_ 96 (seq % 128), tsEnc t]

def osDom (b : BitVec 104) : Nat := bf b 103 103
def osSeq (b : BitVec 104) : Nat := bf b 102 96

/-! ### Selection of the time in force: R313, R322 -/

/-- NT moves to domain k and keeps its value (R322). -/
def switchNt (s : State) (k cause : Nat) : State :=
  let d := ntFine s - domValue s k
  let s := { s with tim := { s.tim with sel := k, d := d, free := none } }
  raiseEvent s 0x801 0x7F (k + at_ 8 cause) (enc 64 (d / 2 ^ 32))

/-- The selected domain in HOLDOVER or UNACQUIRED gives way to the other if that is LOCKED (R322). -/
def settleNt (s : State) : State :=
  let k := s.tim.sel
  let st := (dom s k).state
  if s.tim.inForce && (st == 3 || st == 0) && (dom s (1 - k)).state == 2 then
    switchNt s (1 - k) (if st = 3 then 1 else 2)
  else s

/-- A domain is stepped to a value (R313, R315, R323): NT comes into force with the first, and follows a step of
the selected domain. -/
def stepDom (s : State) (k : Nat) (v rate : Int) : State :=
  let p := perNow s
  let s := modDom s k fun d => { d with
    state := 1, base := v, per := p, rate := rate, drift := rate, stepNeeded := false, goodRun := 0, acqAt := none, acq := [],
    measuring := false, probe := 0xFFF, lastSync := s.now }
  let t := s.tim
  if !t.inForce then { s with tim := { t with inForce := true, sel := k, d := 0, free := none, forcePer := some p } }
  else if t.forcePer = some p ∧ k = 0 then { s with tim := { t with sel := 0, d := 0 } }
  else if t.sel = k then timeStepPlans { s with tim := { t with d := 0, free := none } }
  else s

/-- Exchanges that are given up are counted in TIME_EXCH_DROP (R319). -/
def giveUpExch (s : State) (ks : List Nat) : State :=
  bumpN s (cMod 4) (ks.foldl (fun n k => n + (dom s k).exch.length) 0)

/-- Domains become UNACQUIRED (R314). If the selected one is among them NT runs on at its last rate, unless it
switches (R313). -/
def unacquire (s : State) (ks : List Nat) : State :=
  let k := s.tim.sel
  let run := s.tim.inForce && ks.contains k && (dom s k).state != 0
  let free := if run then some (ntFine s, perNow s, (dom s k).rate) else s.tim.free
  let s := forEach ks (giveUpExch s ks) fun s j => setDom s j { cands := (dom s j).cands }
  settleNt { s with tim := { s.tim with free := free } }

/-- A domain keeps its last rate in HOLDOVER (R314, R321). -/
def holdDom (s : State) (k : Nat) : State :=
  modDom s k fun d => { d with state := 3, goodRun := 0, measuring := false, probe := 0xFFF }

/-- A domain enters HOLDOVER: NT switches away, or TIME_HOLDOVER tells of it (R321 to R323). -/
def enterHoldover (s : State) (k cause : Nat) : State :=
  let t := settleNt (holdDom s k)
  if t.tim.sel ≠ s.tim.sel then t else raiseEvent t 0x802 0x7F (k + at_ 8 cause) 0

/-- Entry to PARKED: both domains go to HOLDOVER (R323). -/
def parkTime (s : State) : State :=
  let on := [0, 1].filter fun k => (dom s k).state == 1 || (dom s k).state == 2
  forEach on (forEach on s holdDom) fun s k => raiseEvent s 0x802 0x7F (k + at_ 8 2) 0

/-- Entry to RETAIN or STANDBY: both domains are UNACQUIRED and NT is out of force (R323). -/
def dropTime (s : State) : State :=
  let s := giveUpExch s [0, 1]
  { s with tim := { nowHi := s.tim.nowHi } }

/-! ### Ports and candidates: R317 -/

/-- No announce yet; a path delay that has not been measured ranks last. -/
def noDelay : Nat := 2 ^ 33
def noCand : Cand := { delay := noDelay }

/-- A link is a permitted port of a domain. -/
def permitted (s : State) (k l : Nat) : Bool :=
  let w := getR s (oDOM_CFG k)
  if l < 2048 then bit w 3 else if l = 2048 then bit w 4 else bit w 5

/-- Time ordered sets are exchanged on the link: UP and BL3. -/
def timeLink (s : State) (l : Nat) : Bool := linkUp s l && !(link s l).bl2

/-- The domain takes time from the link. -/
def slavePort (s : State) (k l : Nat) : Bool := domEn s k && !domPps s k && permitted s k l && timeLink s l

/-- The spine acts as master on the link for the domain. -/
def masterPort (s : State) (k l : Nat) : Bool := timeLink s l && !permitted s k l && (dom s k).state != 0

/-- A candidate: it announced within the last 8 sync intervals. -/
def candOk (s : State) (k l : Nat) (c : Cand) : Bool := slavePort s k l && !c.lapsed && decide (s.now < c.at_ + 8 * syncT s)

/-- Order of choice: grandmaster PRIORITY, CLASS and identity, then path delay, then link number. -/
def candLt (a b : Nat × Cand) : Bool :=
  let x := a.2
  let y := b.2
  if x.priority ≠ y.priority then decide (x.priority < y.priority)
  else if x.cls ≠ y.cls then decide (x.cls < y.cls)
  else if x.identity ≠ y.identity then decide (x.identity < y.identity)
  else if x.delay ≠ y.delay then decide (x.delay < y.delay)
  else decide (a.1 < b.1)

/-- The best candidate of a domain among those that p admits: its link and its grandmaster. -/
def bestOf (s : State) (k : Nat) (p : Cand → Bool) : Option (Nat × Cand) :=
  ((dom s k).cands.filter fun e => candOk s k e.1 e.2 && p e.2).foldl (fun b e =>
    match b with
    | none => some e
    | some x => if candLt e x then some e else some x) none

def bestCand (s : State) (k : Nat) : Option (Nat × Cand) := bestOf s k fun _ => true

/-- The domain follows a candidate, or has no upstream link. -/
def follow (d : Dom) : Option (Nat × Cand) → Dom
  | none => { d with upstream := 0xFFF, pathDelay := 0 }
  | some (l, c) =>
    { d with
      upstream := l, pathDelay := if c.delay = noDelay then 0 else c.delay, gmPriority := c.priority,
      gmClass := c.cls, gm := c.identity }

/-- The upstream link is chosen again (R317). A domain that is UNACQUIRED takes the best grandmaster, and another
one starts its 8 exchanges again (R315). Any other goes on with the grandmaster that it follows, and the offset
against another that is chosen is measured first (R321). -/
def reselect (s : State) (k : Nat) : State :=
  let d := dom s k
  match bestCand s k with
  | none => setDom s k { follow d none with measuring := false, probe := 0xFFF }
  | some (l, c) =>
    if d.gm = c.identity then setDom s k { follow d (some (l, c)) with measuring := false, probe := 0xFFF }
    else if d.state = 0 then setDom s k { follow d (some (l, c)) with acq := [] }
    else
      let own := bestOf s k fun x => x.identity == d.gm
      setDom s k { follow d own with measuring := !d.stepNeeded, probe := if d.stepNeeded then 0xFFF else l }

/-! ### The spine as master: R317 to R319 -/

/-- The first UP lane of a link. -/
def firstUp (s : State) (l : Nat) : Option Nat := (upLanes s l).head?

/-- A set that carries the time at which it leaves is stamped as the first bit of its block passes the connector; t3
of an exchange is that of its TIME_DELAY_REQ (R82, R319). -/
def stampOne (q : Nat) (r : State × List (Nat × BitVec 104)) (o : Nat × BitVec 104) :
    State × List (Nat × BitVec 104) :=
  let (s, l) := r
  if o.1 ≠ osTIME_SYNC ∧ o.1 ≠ osTIME_DELAY_REQ then (s, l ++ [o])
  else
    let k := osDom o.2
    let t := stampNow s k
    let body := timeBody k (osSeq o.2) t
    let s := if o.1 = osTIME_DELAY_REQ then modDom s k fun d => { d with
        exch := d.exch.map fun x => if x.1 = osSeq o.2 ∧ x.2.2.2.2.1 = linkOf q then
          (x.1, x.2.1, x.2.2.1, t, x.2.2.2.2) else x }
      else s
    (emit s (.os q o.1 body), l ++ [(o.1, body)])

/-- The ordered sets that leave in the next block of a lane. -/
def stampSets (s : State) (q : Nat) : State × List (Nat × BitVec 104) :=
  ((lane s q).osOut.take 16).foldl (stampOne q) (s, [])

/-- The next SEQ of a link and domain. -/
def nextSeqOf (s : State) (l k : Nat) : State × Nat :=
  let n := tget 0 s.tim.syncSeq (2 * l + k)
  ({ s with tim := { s.tim with syncSeq := tset 0 s.tim.syncSeq (2 * l + k) ((n + 1) % 128) } }, n)

/-- A time at which something was last sent plus 1, or 0: d has passed since. -/
def sentDue (s : State) (t d : Nat) : Bool := t == 0 || decide (t - 1 + d ≤ s.now)

def timeSyncSend (l k : Nat) (s : State) : State :=
  if k < 2 && masterPort s k l && sentDue s (tget 0 s.tim.syncAt (2 * l + k)) (syncT s) then
    let r := nextSeqOf s l k
    let s := { r.1 with tim := { r.1.tim with syncAt := tset 0 r.1.tim.syncAt (2 * l + k) (s.now + 1) } }
    match firstUp s l with
    | some q => queueOs s q osTIME_SYNC (timeBody k r.2 0)
    | none => s
  else s

def execTimeSyncSend (link dom : Nat) (s : State) : Out := .next (timeSyncSend link dom s)

/-- PRIORITY, CLASS and identity that the spine announces (R317, R318). -/
def announced (s : State) (k : Nat) : Nat × Nat × Nat :=
  let d := dom s k
  if domPps s k then
    (rf s (oDOM_CFG k) 15 8, if d.state = 3 then 0xFE else rf s (oDOM_CFG k) 23 16, s.boot.serial.toNat)
  else (d.gmPriority, d.gmClass, d.gm)

def timeAnnounceSend (l k : Nat) (s : State) : State :=
  if k < 2 && masterPort s k l && sentDue s (tget 0 s.tim.annAt (2 * l + k)) (8 * syncT s) then
    let r := nextSeqOf s l k
    let s := { r.1 with tim := { r.1.tim with annAt := tset 0 r.1.tim.annAt (2 * l + k) (s.now + 1) } }
    let a := announced s k
    match firstUp s l with
    | some q =>
      sendOs s q osTIME_ANNOUNCE
        (mkBody [at_ 103 k, at_ 96 r.2, at_ 88 a.1, at_ 80 a.2.1, at_ 16 (a.2.2 % 2 ^ 64)])
    | none => s
  else s

def execTimeAnnounceSend (link dom : Nat) (s : State) : Out := .next (timeAnnounceSend link dom s)

/-- As master, the spine answers a TIME_DELAY_REQ with the time of its receipt. -/
def timeDelayReqReceive (q : Nat) (b : BitVec 104) (s : State) : State :=
  let k := osDom b
  if !laneUp s q then osIllegal s q
  else if masterPort s k (linkOf q) then
    sendOs s q osTIME_DELAY_RESP (timeBody k (osSeq b) (stampNow s k))
  else s

def execTimeDelayReqReceive (lane : Nat) (body : BitVec 104) (s : State) : Out :=
  .next (timeDelayReqReceive lane body s)

/-! ### The spine as slave: R315, R317, R319, R321 -/

/-- An announce updates the candidate links and the choice of a grandmaster. -/
def timeAnnounceReceive (q : Nat) (b : BitVec 104) (s : State) : State :=
  let k := osDom b
  let l := linkOf q
  if !laneUp s q then osIllegal s q
  else if slavePort s k l then
    let s := modDom s k fun d =>
      let c : Cand :=
        { at_ := s.now, priority := bf b 95 88, cls := bf b 87 80, identity := bf b 79 16
          delay := (tget noCand d.cands l).delay }
      { d with cands := tset noCand d.cands l c }
    reselect s k
  else s

def execTimeAnnounceReceive (lane : Nat) (body : BitVec 104) (s : State) : Out :=
  .next (timeAnnounceReceive lane body s)

/-- A link that has announced nothing for 8 sync intervals is no candidate, and the choice is made again. Whose
TIME_SYNC it carries is still known from its last announce (R321). -/
def timeAnnounceExpiry (l k : Nat) (s : State) : State :=
  let d := dom s k
  match d.cands.find? fun e => e.1 == l with
  | some e =>
    if k < 2 then
      let s := await s e.2.at_ (8 * syncT s)
      reselect (setDom s k { d with cands := tset noCand d.cands l { e.2 with lapsed := true } }) k
    else s
  | none => s

def execTimeAnnounceExpiry (link dom : Nat) (s : State) : Out := .next (timeAnnounceExpiry link dom s)

/-- TIME_SYNC from a candidate: t2 is taken and TIME_DELAY_REQ sent. The first from the chosen master starts the
provisional count of an acquisition that no REACQ started (log entry 81). One from the grandmaster that the domain
follows is heard on every permitted port (R321). -/
def timeSyncReceive (q : Nat) (b : BitVec 104) (s : State) : State :=
  let k := osDom b
  let l := linkOf q
  if !laneUp s q then osIllegal s q
  else if !slavePort s k l then s
  else
    let s := reselect s k
    let d := dom s k
    match d.cands.find? fun e => e.1 == l with
    | none => s
    | some e =>
      let s := if e.2.identity = d.gm then modDom s k fun d => { d with lastSync := s.now } else s
      if !candOk s k l e.2 || (d.state == 0 && d.acqAt.isNone && d.upstream != l) then s
      else
        let s := if d.state = 0 ∧ d.acqAt.isNone then modDom s k fun d => { d with acqAt := some (perNow s) } else s
        let t := stampNow s k
        let s := modDom s k fun d => { d with
          exch := d.exch ++ [(osSeq b, tsDec (bf b 95 0), t, t, l, s.now)] }
        queueOs s q osTIME_DELAY_REQ (timeBody k (osSeq b) 0)

def execTimeSyncReceive (lane : Nat) (body : BitVec 104) (s : State) : Out := .next (timeSyncReceive lane body s)

/-- A mean in units of 2^−17 ns, and twice the offset in 2^−16 ns, of an exchange (R319). -/
def exchangeOf (t1 t2 t3 t4 asym : Int) : Int × Int :=
  let mean2 := (t2 - t1) + (t4 - t3)
  (mean2, 2 * (t2 - t1) - mean2 - asym)

/-- 16 offsets within ±4 ns in a row lock the domain (R314). -/
def noteGood (d : Dom) (off : Int) : Dom :=
  let run := if off.natAbs ≤ 4 * 2 ^ 48 then d.goodRun + 1 else 0
  { d with goodRun := min 16 run, state := if d.state = 1 ∧ 16 ≤ run then 2 else d.state }

/-- An offset drives the servo of a domain that is SETTLING or LOCKED (R316). -/
def followOffset (s : State) (k : Nat) (off : Int) : State :=
  settleNt (modDom (servo s k off) k fun d => noteGood d off)

/-- The offset against a better, new or returned master (R321): within SLEW_THRESH the domain follows it and
settles, else it holds and needs a step. -/
def measureOffset (s : State) (k : Nat) (off : Int) : State :=
  let d := dom s k
  if (off.natAbs : Int) ≤ slewMax s then
    let d := if d.measuring then follow d (bestCand s k) else d
    followOffset (setDom s k { d with
      state := 1, stepNeeded := false, goodRun := 0, measuring := false, probe := 0xFFF, lastSync := s.now }) k off
  else
    let s := settleNt (modDom (holdDom s k) k fun d => { d with stepNeeded := true })
    raiseEvent s 0x803 0x7F k (enc 64 (off / 2 ^ 32))

/-- TIME_DOM_OFFSET holds the last offset. -/
def noteOffset (s : State) (k : Nat) (off : Int) : State := modDom s k fun d => { d with offset := off / 2 ^ 32 }

/-- A link's mean path delay, in 2^−17 ns. -/
def noteDelay (s : State) (k l delay : Nat) : State :=
  if (dom s k).cands.any fun e => e.1 == l then
    modDom s k fun d => { d with cands := tset noCand d.cands l { tget noCand d.cands l with delay := delay } }
  else s

/-- The mean of the offsets of an acquisition. -/
def meanOff (l : List Int) : Int := l.foldl (· + ·) 0 / l.length

/-- An offset of the upstream link, in 2^−48 ns. -/
def takeOffset (s : State) (k : Nat) (off : Int) : State :=
  let d := dom s k
  let s := noteOffset s k off
  if d.state = 0 then
    let acq := d.acq ++ [off]
    if acq.length < 8 then modDom s k fun d => { d with acq := acq }
    else
      let r := trend s
      stepDom r.1 k (provisional s d - meanOff acq) r.2
  else if d.state = 3 then if d.stepNeeded then s else measureOffset s k off
  else followOffset s k off

/-- The exchange of a link with a SEQ. -/
def isExch (l seq : Nat) (x : Nat × Int × Int × Int × Nat × Nat) : Bool := x.2.2.2.2.1 == l && x.1 == seq

def endExch (s : State) (k l seq : Nat) : State :=
  modDom s k fun d => { d with exch := d.exch.filter fun x => !isExch l seq x }

/-- A discarded exchange is counted in TIME_EXCH_DROP. -/
def dropExch (s : State) (k l seq : Nat) : State := bump (endExch s k l seq) (cMod 4)

/-- TIME_DELAY_RESP completes the exchange of its SEQ: the link's mean delay is kept, the upstream link's offset
drives the domain, and that of the link whose grandmaster is measured decides (R319, R321). A SEQ that no exchange
of the link has discards its oldest (log entry 83). -/
def timeDelayRespReceive (q : Nat) (b : BitVec 104) (s : State) : State :=
  let k := osDom b
  let l := linkOf q
  if !laneUp s q then osIllegal s q
  else if !slavePort s k l then s
  else match (dom s k).exch.find? (isExch l (osSeq b)) with
  | none =>
    match (dom s k).exch.find? fun x => x.2.2.2.2.1 == l with
    | none => s
    | some x => dropExch s k l x.1
  | some (seq, t1, t2, t3, _, at_) =>
    let asym : Int := sx 16 (rf s (oTIME_ASYM l) 15 0) * 2 ^ 12
    let e := exchangeOf t1 t2 t3 (tsDec (bf b 95 0)) asym
    if due s at_ (msT + 1) ∨ e.1 < 0 ∨ 2 * 65535 * 65536 < e.1 then dropExch s k l seq
    else
      let s := noteDelay (endExch s k l seq) k l e.1.toNat
      let s := reselect s k
      let d := dom s k
      let off := e.2 * 2 ^ 31
      if d.measuring ∧ d.probe = l then measureOffset (noteOffset s k off) k off
      else if d.upstream = l then takeOffset s k off
      else s

def execTimeDelayRespReceive (lane : Nat) (body : BitVec 104) (s : State) : Out :=
  .next (timeDelayRespReceive lane body s)

/-- No TIME_DELAY_RESP within 1 ms: the exchange is discarded. -/
def timeExchangeTimeout (k : Nat) (s : State) : State :=
  if k < 2 then
    let s := awaitOpt s ((dom s k).exch.map fun x => x.2.2.2.2.2).min? msT
    forEach ((dom s k).exch.filter fun x => due s x.2.2.2.2.2 msT) s fun s x => dropExch s k x.2.2.2.2.1 x.1
  else s

def execTimeExchangeTimeout (dom : Nat) (s : State) : Out := .next (timeExchangeTimeout dom s)

/-- No TIME_SYNC from the grandmaster for 3 sync intervals (R321). -/
def timeMasterLost (k : Nat) (s : State) : State :=
  let d := dom s k
  if k < 2 && !domPps s k && (d.state == 1 || d.state == 2) then
    enterHoldover (await s d.lastSync (3 * syncT s)) k 1
  else s

def execTimeMasterLost (dom : Nat) (s : State) : Out := .next (timeMasterLost dom s)

/-! ### The driver: R313 to R315, R322 -/

/-- TIME_CTRL.SWITCH moves NT to the other domain if that is LOCKED. -/
def timeSwitch (f : Func) (s : State) : State :=
  if mayWriteIn s f 3 && s.tim.inForce && (dom s (1 - s.tim.sel)).state == 2 then switchNt s (1 - s.tim.sel) 3 else s

def execTimeSwitch (f : Func) (s : State) : Out := .next (timeSwitch f s)

/-- The acquisition of a domain with SOURCE LINKS starts: its provisional count is 0 (R315). -/
def acquire (s : State) (k : Nat) : State :=
  if domEn s k && !domPps s k then reselect (modDom s k fun d => { d with acqAt := some (perNow s) }) k
  else reselect s k

/-- REACQ returns domains to UNACQUIRED and starts their acquisition. -/
def timeReacq (f : Func) (ta tb : Bool) (s : State) : State :=
  if mayWriteIn s f 3 && (ta || tb) then
    let ks := (if ta then [0] else []) ++ (if tb then [1] else [])
    forEach ks (unacquire s ks) acquire
  else s

def execTimeReacq (f : Func) (ta tb : Bool) (s : State) : Out := .next (timeReacq f ta tb s)

/-- A write of TIME_DOM_CFG: one that would give both domains SOURCE PPS is ignored as a whole (R324); EN 0 makes
the domain UNACQUIRED, EN 1 starts its acquisition, other ports make another choice (R317), and SOURCE PPS waits for
its edges from then on (R325; log entry 84). -/
def domCfgWrite (f : Func) (k : Nat) (v : Word) (s : State) : State :=
  if !mayWriteIn s f 3 || (fld v 2 1 == 1 && domPps s (1 - k)) then s
  else
    let t := writeReg s (oDOM_CFG k) v
    if domEn s k && !domEn t k then unacquire t [k]
    else if !domEn s k && domEn t k then acquire t k
    else if !domPps s k && domPps t k then reselect (modDom t k fun d => { d with lastEdge := some t.now }) k
    else reselect t k

def timeDomainDisable (f : Func) (k : Nat) (v : Word) (s : State) : State :=
  if k < 2 then domCfgWrite f k (setFld v 0 0 0) s else s

def execTimeDomainDisable (f : Func) (dom : Nat) (v : Word) (s : State) : Out := .next (timeDomainDisable f dom v s)

/-! ### Reads of TIME_NOW: R311, R329 -/

def mayRead (f : Func) : Bool :=
  match f with
  | .vf _ => false
  | _ => true

/-- A function's read reaches the registers that the PF and its stand-ins may read. -/
def readReaches (s : State) (f : Func) : Bool := mayRead f && barUp s f

/-- The same where the block outside the HIF rail answers with what it holds; in RETAIN, and until ACTIVE, it reads 0
(R417). -/
def mayReadMain (s : State) (f : Func) : Bool := readReaches s f && mainAlive s

/-- TIME_NOW_LO of NT now. -/
def timeNowLo (s : State) : Word :=
  mkWord [at_ 32 (ntNanos s), at_ 16 (enc 16 (ntFine s / 2 ^ 32))]

/-- A read of TIME_NOW_LO latches the seconds into TIME_NOW_HI; it returns 0 while the block does not answer (R417), and
all ones while the PLL of the TIME domain has lost lock (R428). -/
def timeNowRead (f : Func) (s : State) : State :=
  if !readReaches s f then s
  else if !mainAlive s then emit s (.readData f 0)
  else if pllLost s 3 then emit s (.readData f (BitVec.allOnes 64))
  else emit { s with tim := { s.tim with nowHi := ntSeconds s } } (.readData f (timeNowLo s))

def execTimeNowRead (f : Func) (s : State) : Out := .next (timeNowRead f s)

/-! ### PPS pins: R324, R325 -/

/-- The domain with SOURCE PPS, if one is enabled. -/
def ppsDom (s : State) : Option Nat := [0, 1].find? fun k => domEn s k && domPps s k

def ppsDelay (s : State) : Int := sx 16 (rf s oPPS_CFG 15 0)

/-- The phase error of an edge at which the domain read v, in 2^−48 ns: from the nearest moment at which the
domain less PPS_DELAY is a whole second, as the first edge sets it (R324; log entry 85). -/
def ppsError (s : State) (v : Int) : Int :=
  let sec : Int := 1000000000 * 2 ^ 48
  let e := (v - ppsDelay s * 2 ^ 48) % sec
  if e < sec / 2 then e else e - sec

/-- An accepted edge: it drives the servo, or ends HOLDOVER under the threshold of R321. -/
def ppsAccept (s : State) (k : Nat) (e : Int) : State :=
  let d := dom s k
  let s := modDom s k fun d => { d with lastEdge := some s.now, offset := e / 2 ^ 32 }
  if d.state = 3 then if d.stepNeeded then s else measureOffset s k e
  else followOffset s k e

/-- PPS_IN is taken in ACTIVE, until PARKED is reached (R407). -/
def ppsTaken (s : State) : Bool := s.pwr.state == 0 || (s.pwr.state == 4 && s.pwr.parkPoint.isNone)

/-- A rising edge of PPS_IN, 1 µs old when the glitch filter confirms it. -/
def ppsEdge (s : State) : State :=
  if !ppsTaken s then s
  else match ppsDom s with
  | none => s
  | some k =>
    let d := dom s k
    if !bit (getR s oPPS_CFG) 40 then s
    else if d.state = 0 then
      if bit (getR s oPPS_TOD) 63 then
        let v : Int := ((rf s oPPS_TOD 47 0 : Int) * 1000000000 + ppsDelay s + 1000) * 2 ^ 48
        let r := trend (setRf s oPPS_TOD 63 63 0)
        modDom (stepDom r.1 k v r.2) k fun d => { d with lastEdge := some s.now }
      else s
    else
      let e := ppsError s (domValue s k - 1000 * (2 ^ 48 + d.rate))
      if e.natAbs ≤ 50000 * 2 ^ 48 then ppsAccept s k e else bump s (cMod 5)

def execPpsEdge (s : State) : Out := .next (ppsEdge s)

/-- No edge accepted for 3 s: HOLDOVER and PPS_STUCK. -/
def ppsNoEdgeTimeout (s : State) : State :=
  match ppsDom s with
  | none => s
  | some k =>
    let d := dom s k
    if d.state == 1 || d.state == 2 then
      let s := awaitOpt s d.lastEdge (3 * secT)
      raiseEvent (settleNt (holdDom s k)) 0x804 0x7F k 0
    else s

def execPpsNoEdgeTimeout (s : State) : Out := .next (ppsNoEdgeTimeout s)

/-- PPS_OUT rises at a whole second of NT. -/
def ppsOutRise (s : State) : State :=
  if bit (getR s oPPS_CFG) 41 && s.tim.inForce && !s.pwr.ppsOut then
    let s := awaitNt s (ceilDiv (ntWhole s).toNat 1000000000 * 1000000000)
    { s with pwr := { s.pwr with ppsOut := true }, tim := { s.tim with ppsHigh := some s.now } }
  else s

def execPpsOutRise (s : State) : Out := .next (ppsOutRise s)

/-- PPS_OUT falls after OUT_WIDTH. -/
def ppsOutFall (s : State) : State :=
  if s.pwr.ppsOut && s.tim.ppsHigh.isSome then
    let s := awaitOpt s s.tim.ppsHigh (rf s oPPS_CFG 39 32 * msT)
    { s with pwr := { s.pwr with ppsOut := false }, tim := { s.tim with ppsHigh := none } }
  else s

def execPpsOutFall (s : State) : Out := .next (ppsOutFall s)

end Sys2Proof.Machine
end

