-- ==== Sys2Proof/Machine/Counters.lean ====
section
/-! DEFINITION. Reads of the counter window and of the sample buffers (R385 to R387, R399). -/
namespace Sys2Proof.Machine

/-- The requester of CNT_LAST: the PF, cores P24 to P31, firmware (R387). -/
def lastSlot : Func → Nat
  | .core => 1 | .fw => 2 | _ => 0

/-- Sequencer counters 3 to 5 of a -C module read 0 (R393). -/
def counterAbsent (s : State) (i : Nat) : Bool :=
  !hasCrucibles s && decide (0x30000 ≤ i) && decide (i < 0x30400) && decide (3 ≤ i % 16) && decide (i % 16 ≤ 5)

/-- The value of counter i; an index that names none reads 0 (R385). -/
def counterValue (s : State) (i : Nat) : Nat :=
  if decide (i < 258048) && !counterAbsent s i then cntGet s i else 0

/-- A read of CNT_VALUE latches its index and stamp; the block reads 0 in RETAIN (R385, R417). -/
def counterRead (f : Func) (i : Nat) (s : State) : State :=
  if !readReaches s f then s
  else if !mainAlive s then emit s (.readData f 0)
  else
    let w := mkWord [at_ 32 (nt32 s), i % 2 ^ 18]
    emit { s with cnt := { s.cnt with last := tset 0 s.cnt.last (lastSlot f) w } }
      (.readData f (BitVec.ofNat 64 (counterValue s i)))

def execCounterRead (f : Func) (index : Nat) (s : State) : Out := .next (counterRead f index s)

/-- The word that a read of SMP_DATA returns: 0 while the buffer is empty. -/
def sampleWordAt (s : State) (d : Nat) : Word :=
  match (smp s d).recs with
  | [] => 0
  | r :: _ => nth 0 r (smp s d).pos

/-- A read of SMP_DATA moves the die's one read position; W3 frees the record. -/
def sampleDataRead (f : Func) (d : Nat) (s : State) : State :=
  if !readReaches s f then s
  else if !mainAlive s then emit s (.readData f 0)
  else
    let x := smp s d
    let w := sampleWordAt s d
    let s := match x.recs with
      | [] => s
      | _ :: rest =>
        if x.pos = 3 then setSmp s d { x with pos := 0, recs := rest } else setSmp s d { x with pos := x.pos + 1 }
    emit s (.readData f w)

def execSampleDataRead (f : Func) (die : Nat) (s : State) : Out := .next (sampleDataRead f die s)

end Sys2Proof.Machine
end

