-- ==== Sys2Proof/Machine/Rings.lean ====
section
/-! DEFINITION. Ring set-up, doorbells, descriptor fetch and function resets (R336 to R342, R354 to R359). -/
namespace Sys2Proof.Machine

/-! ### Doorbells: R336, R337 -/

/-- The ring index assigned to slot k of VF n (R342). -/
def slotIndex (s : State) (n k : Nat) : Option Nat :=
  (upTo 256).find? fun p =>
    let w := getR s (oCMD p + 0x18)
    bit w 15 && fld w 13 8 == n && fld w 1 0 == k

/-- The ring behind a doorbell of a page: page p of BAR2 of the PF, or of the self-hosted driver, is ring
index p; page k of a VF is the index of its slot k, and its page 0 holds table-DMA ring n (R336). -/
def pageRing (s : State) (f : Func) (k : RingKind) (page : Nat) : Option Nat :=
  match f with
  | .vf n =>
    if !s.hif.vfs.contains n || decide (4 ≤ page) then none
    else match k with
    | .tdma => if page = 0 then some n else none
    | .pload => none
    | _ => slotIndex s n page
  | _ => some page

/-- The ring a doorbell acts on: one that exists, is enabled and owned by the writing function (R337). -/
def bellRing (s : State) (f : Func) (k : RingKind) (page : Nat) : Option Nat :=
  match pageRing s f k page with
  | none => none
  | some i =>
    if decide (i < ringCount k) && ringOwner s k i == f && bit (getR s (ringOff k i + 8)) 8 then some i else none

/-- A BAR2 write wakes the module (R419); one that acts on no ring is ignored and counted (R337). -/
def bell (f : Func) (k : RingKind) (page : Nat) (act : Nat → State → State) (s : State) : State :=
  if !barUp s f then s
  else
    let s := wake s 1
    match bellRing s f k page with
    | none => bump s (cMod 3)
    | some i => act i s

/-- A ring enters FAULT with a cause: nothing more is fetched from it (R337, R356). -/
def faultRing (s : State) (k : RingKind) (i cause : Nat) : State :=
  let s := modRing s k i fun r => { r with state := 3, fault := cause }
  raiseEvent s 0x901 0x7F (at_ 8 i + at_ 4 (kindNo k) + cause) 0

/-- TAIL of a driver-written ring: beyond the ring's size it is an OVERRUN. -/
def tailWrite (k : RingKind) (v : Word) (i : Nat) (s : State) : State :=
  let r := ring s k i
  let t := fld v 23 0
  if ringSize s k i < (t + 2 ^ 24 - r.head) % 2 ^ 24 then
    if r.fault = 0 then faultRing s k i 1 else s
  else setRing s k i { r with tail := t }

/-- HEAD of a ring the spine writes: the entries before it are returned, and a completion ring's producers
go on (R336, R339). -/
def headWrite (k : RingKind) (v : Word) (i : Nat) (s : State) : State :=
  let r := ring s k i
  let h := fld v 23 0
  let left := (r.tail + 2 ^ 24 - h) % 2 ^ 24
  let s := setRing s k i { r with head := h, newAt := r.newAt.drop (r.newAt.length - min left r.newAt.length) }
  match k with
  | .cq =>
    let s := unstallProducers s i
    forEach (s.hif.rings.map fun e => keyRing e.1) s fun s p => if cqOf s p.1 p.2 = i then sweepBad s p.1 p.2 else s
  | _ => s

/-- Arm a ring's interrupt (R340). -/
def armRing (k : RingKind) (i : Nat) (s : State) : State := irqCheck (modRing s k i fun r => { r with armed := true }) k i

def execCmdTail (f : Func) (page : Nat) (v : Word) (s : State) : Out := .next (bell f .cmd page (tailWrite .cmd v) s)
def execTdmaTail (f : Func) (page : Nat) (v : Word) (s : State) : Out := .next (bell f .tdma page (tailWrite .tdma v) s)
def execPloadTail (f : Func) (page : Nat) (v : Word) (s : State) : Out := .next (bell f .pload page (tailWrite .pload v) s)
def execCqHead (f : Func) (page : Nat) (v : Word) (s : State) : Out := .next (bell f .cq page (headWrite .cq v) s)
def execEqHead (f : Func) (page : Nat) (v : Word) (s : State) : Out := .next (bell f .eq page (headWrite .eq v) s)
def execCqArm (f : Func) (page : Nat) (s : State) : Out := .next (bell f .cq page (armRing .cq) s)
def execEqArm (f : Func) (page : Nat) (s : State) : Out := .next (bell f .eq page (armRing .eq) s)

/-- A BAR2 write at any offset and size: the doorbell it hits, or none (R336, R337). -/
def doorbellWrite (f : Func) (page off bytes : Nat) (v : Word) (s : State) : State :=
  let stray (s : State) : State := if barUp s f then bump (wake s 1) (cMod 3) else s
  if !((bytes == 4 || bytes == 8) && off % bytes == 0) then stray s
  else match off with
  | 0x00 => bell f .cmd page (tailWrite .cmd v) s
  | 0x08 => bell f .cq page (headWrite .cq v) s
  | 0x10 => bell f .cq page (armRing .cq) s
  | 0x18 => bell f .eq page (headWrite .eq v) s
  | 0x20 => bell f .eq page (armRing .eq) s
  | 0x28 => bell f .tdma page (tailWrite .tdma v) s
  | 0x30 => bell f .pload page (tailWrite .pload v) s
  | _ => stray s

def execDoorbellStray (f : Func) (page off bytes : Nat) (v : Word) (s : State) : Out :=
  .next (doorbellWrite f page off bytes v s)

/-! ### Descriptor fetch: R335, R338, R356 -/

/-- Descriptors that one read takes: at most 8, contiguous in the ring. -/
def fetchCount (s : State) (k : RingKind) (i : Nat) : Nat :=
  let r := ring s k i
  min 8 (min (ringHeld r) (ringSize s k i - r.head % ringSize s k i))

/-- The descriptors of a read, each with its fetch number. -/
def fetchedWords (serial : Nat) (l : List Word) : Nat → List (List Word)
  | 0 => []
  | n + 1 => (sliceW l 0 8 ++ [BitVec.ofNat 64 serial]) :: fetchedWords (serial + 1) (l.drop 8) n
where sliceW (l : List Word) (off n : Nat) : List Word := (List.range n).map fun i => nth 0 l (off + i)

/-- A read of descriptors, which carries the owner's requester ID (R330), completes with the words the host gave, or fails with FETCH_ERROR: by the host's
answer, or beyond the self-host region (R359). -/
def descriptorFetch (k : RingKind) (i : Nat) (answer : Option (List Word)) (s : State) : State :=
  let r := ring s k i
  let n := fetchCount s k i
  let addr := ringBase s k i + 64 * (r.head % ringSize s k i)
  if r.state ≠ 1 ∨ n = 0 then s
  else if reachable s k i addr (64 * n) < 64 * n then faultRing s k i 2
  else
    let s := emitAll s (dmaReads (ringOwner s k i) addr (64 * n))
    match answer with
    | none => faultRing s k i 2
    | some w =>
      let s := setRing s k i { r with
        head := (r.head + n) % 2 ^ 24, fetched := r.fetched ++ fetchedWords s.hif.fetchSeq w n }
      let s := bumpN s (cRing (ringCnt k i) 0) n
      sweepBad { s with hif := { s.hif with fetchSeq := s.hif.fetchSeq + n } } k i

def execDescriptorFetch (k : RingKind) (ring : Nat) (answer : Option (List Word)) (s : State) : Out :=
  .next (descriptorFetch k ring answer s)

/-- COAL_US has passed since the first new entry (R340). -/
def coalUsExpiry (k : RingKind) (i : Nat) (s : State) : State :=
  let r := ring s k i
  if r.armed then irqCheck (awaitOpt s r.newAt.head? (fld (ringCfg s k i) 29 20 * usT)) k i else s

def execCoalUsExpiry (k : RingKind) (ring : Nat) (s : State) : Out := .next (coalUsExpiry k ring s)

/-! ### RING_BASE and RING_CFG: R341, R354, R366 -/

/-- Who may write a ring's registers: the PF or its stand-in, firmware, and the VF that owns it (R332, R355). -/
def ringWriter (s : State) (f : Func) (k : RingKind) (i : Nat) : Bool :=
  mayWrite s f || (barUp s f && s.boot.fwState != .failed && ringOwner s k i == f)

/-- The value of RING_CFG that a write would leave: in an event ring of a VF, SCOPE and PART stay (R354). -/
def cfgNext (s : State) (k : RingKind) (i : Nat) (v : Word) : Word :=
  let o := ringOff k i + 8
  let old := getR s o
  let new : Word := BitVec.ofNat 64 (applyWrite (regInfo s.variant s.boot.strapBl2 o) false old.toNat v.toNat)
  match k, ringOwner s k i with
  | .eq, .vf _ => setFld new 55 47 (fld old 55 47)
  | _, _ => new

/-- Every field lies in its range (R340, R354, R366). -/
def cfgRange (s : State) (k : RingKind) (i : Nat) (w : Word) : Bool :=
  let vecs := match ringOwner s k i with | .vf _ => 3 | _ => 255
  inR w 4 0 4 16 &&
    match k with
    | .cq => inR w 37 30 1 255 && decide (fld w 46 38 ≤ vecs)
    | .eq => inR w 37 30 1 255 && decide (fld w 46 38 ≤ vecs) && fld w 55 54 != 3 && decide (fld w 53 47 ≤ 64)
    | _ => true

/-- The fields that a live ring takes: ENABLE, VECTOR, COAL_COUNT and COAL_US. -/
def cfgLiveMask (k : RingKind) : Nat :=
  match k with
  | .cq | .eq => mask 46 20 + mask 8 8
  | _ => mask 8 8

/-- A ring names a completion ring as its CQ while it is enabled or draining. -/
def cqInUse (s : State) (cq : Nat) : Bool :=
  s.hif.rings.any fun e =>
    let (k, i) := keyRing e.1
    k != .cq && k != .eq && e.2.state != 0 && fld (getR s (ringOff k i + 8)) 63 56 == cq

/-- The writes to RING_CFG that R341 ignores as a whole. -/
def cfgIgnored (s : State) (k : RingKind) (i : Nat) (new : Word) : Bool :=
  let old := getR s (ringOff k i + 8)
  let fixed := ones ^^^ cfgLiveMask k
  (ringLive s k i && (old.toNat &&& fixed) != (new.toNat &&& fixed))
    || match k with
      | .cq => bit old 8 && !bit new 8 && cqInUse s i
      | .eq => false
      | _ =>
        let cq := fld new 63 56
        bit new 8 && !bit old 8 && (!ringOn s .cq cq || ringOwner s .cq cq != ringOwner s k i)

/-- What has been fetched or started on a ring and has not completed. -/
def outstanding (r : Ring) : Bool := !r.fetched.isEmpty || !r.running.isEmpty || !r.heldBack.isEmpty

/-- What a muted ring still had to run is given up when it starts again: it may or may not have taken effect (R356). -/
def forgetMuted (r : Ring) : Ring :=
  if r.mute then { r with fetched := [], running := [], staged := none, mute := false, runAs := none, gen := r.gen + 1 }
  else r

/-- ENABLE 1 starts a ring with HEAD and TAIL at 0, disarmed (R335, R340, R341). -/
def startRing (s : State) (k : RingKind) (i : Nat) : State :=
  modRing s k i fun r => { forgetMuted r with
    state := if r.heldBack.isEmpty then 1 else 4, head := 0, tail := 0, lost := 0, fault := 0, armed := false,
    newAt := [] }

/-- ENABLE 0: a driver-written ring drains, the others write nothing more (R341). -/
def stopRing (s : State) (k : RingKind) (i : Nat) : State :=
  modRing s k i fun r => { r with
    state := match k with
      | .cq | .eq => 0
      | _ => if outstanding r then 2 else 0 }

/-- A write of RING_CFG. -/
def ringCfgWrite (f : Func) (k : RingKind) (i : Nat) (v : Word) (s : State) : State :=
  let old := getR s (ringOff k i + 8)
  let new := cfgNext s k i v
  if !ringWriter s f k i || !cfgRange s k i new || cfgIgnored s k i new then s
  else
    let s := putR s (ringOff k i + 8) new
    if bit new 8 && !bit old 8 then startRing s k i
    else if bit old 8 && !bit new 8 then stopRing s k i
    else s

/-- A write of RING_CFG with ENABLE 1. -/
def ringEnable (f : Func) (k : RingKind) (i : Nat) (v : Word) (s : State) : State :=
  ringCfgWrite f k i (setFld v 8 8 1) s

def execRingEnable (f : Func) (k : RingKind) (ring : Nat) (v : Word) (s : State) : Out :=
  .next (ringEnable f k ring v s)

/-- A write of RING_CFG with ENABLE 0. -/
def ringDisable (f : Func) (k : RingKind) (i : Nat) (v : Word) (s : State) : State :=
  ringCfgWrite f k i (setFld v 8 8 0) s

def execRingDisable (f : Func) (k : RingKind) (ring : Nat) (v : Word) (s : State) : Out :=
  .next (ringDisable f k ring v s)

/-- The last fetched descriptor of a disabled ring has completed: it reads DISABLED. -/
def ringDrained (k : RingKind) (i : Nat) (s : State) : State :=
  let s := sweepBad s k i
  if ringLive s k i && !bit (getR s (ringOff k i + 8)) 8 && !outstanding (ring s k i) then
    modRing s k i fun r => { r with state := 0, runAs := none }
  else s

def execRingDrained (k : RingKind) (ring : Nat) (s : State) : Out := .next (ringDrained k ring s)

def ringBaseWrite (f : Func) (k : RingKind) (i : Nat) (v : Word) (s : State) : State :=
  if ringWriter s f k i then writeReg s (ringOff k i) v else s

/-! ### RING_ASSIGN: R342 -/

def ringAssignWrite (f : Func) (p : Nat) (v : Word) (s : State) : State :=
  let idle := !ringLive s .cmd p && !ringLive s .cq p && !(decide (p < 16) && ringLive s .eq p)
  let taken := match slotIndex s (fld v 13 8) (fld v 1 0) with
    | some q => q != p
    | none => false
  if !mayWrite s f || !idle || (bit v 15 && (p == 0 || taken)) then s
  else writeReg s (oCMD p + 0x18) v

def execRingAssignWrite (f : Func) (ring : Nat) (v : Word) (s : State) : Out := .next (ringAssignWrite f ring v s)

/-! ### Function resets: R342, R356, R365 -/

/-- The launch stores drop the frames of a command ring. -/
def dropLaunches (s : State) (i : Nat) : State :=
  forEach (List.range 4) s fun s d => setLaunch s d ((launchStore s d).filter fun l => l.ring != i)

/-- The descriptors of a command ring that end with its reset: frames in the launch stores, telemetry buffers. -/
def endedKeys (s : State) (i : Nat) : List Nat :=
  ((List.range 4).flatMap fun d => ((launchStore s d).filter fun l => l.ring == i).map (·.tag)) ++
    (s.hif.telem.filter fun t => t.ring == i).map (·.tag)

/-- A ring that a reset of its function, or a new owner, disables: it fetches nothing more, and what it had fetched runs
to completion as its function's without writing completions (R341, R342, R356, log entry 32). -/
def mutedRing (f : Func) (ended : List Nat) (r : Ring) : Ring :=
  let r := { r with heldBack := [], running := r.running.filter fun t => !ended.contains t }
  { r with
    state := if outstanding r then 2 else 0, armed := false, newAt := [],
    mute := true, runAs := some (r.runAs.getD f) }

/-- A ring is muted; the launch stores and the telemetry buffers give up what it had put there (R356). -/
def muteRing (s : State) (k : RingKind) (i : Nat) : State :=
  let f := ringOwner s k i
  let s := putR s (ringOff k i + 8) (setFld (getR s (ringOff k i + 8)) 8 8 0)
  match k with
  | .cmd =>
    let s := modRing s k i (mutedRing f (endedKeys s i))
    dropLaunches { s with hif := { s.hif with telem := s.hif.telem.filter fun t => t.ring != i } } i
  | _ => modRing s k i (mutedRing f [])

/-- Mute every ring whose owner satisfies p. -/
def muteRings (s : State) (p : Func → Bool) : State :=
  forEach (s.hif.rings.map fun e => keyRing e.1) s fun s e =>
    if p (ringOwner s e.1 e.2) then muteRing s e.1 e.2 else s

/-- FLR of VF n: its rings are disabled; partition n is untouched. -/
def vfFlr (n : Nat) (s : State) : State := if s.hif.vfs.contains n then muteRings s fun f => f == .vf n else s

def execVfFlr (n : Nat) (s : State) : Out := .next (vfFlr n s)

/-- VF n is enabled: table-DMA ring n becomes its own, and is disabled first if it is not DISABLED (R342). -/
def vfEnable (n : Nat) (s : State) : State :=
  if s.hif.vfs.contains n then s
  else
    let s := if ringLive s .tdma n then muteRing s .tdma n else s
    { s with hif := { s.hif with vfs := n :: s.hif.vfs } }

def execVfEnable (n : Nat) (s : State) : Out := .next (vfEnable n s)

/-- VF n is disabled: its rings stop, and table-DMA ring n returns to the PF. -/
def vfDisable (n : Nat) (s : State) : State :=
  let s := vfFlr n s
  { s with hif := { s.hif with vfs := remNat s.hif.vfs n } }

def execVfDisable (n : Nat) (s : State) : Out := .next (vfDisable n s)

/-- FLR of the PF and loss of the PCIe link: every ring of every function is disabled, the VFs are disabled,
and EPOCH advances; the rest continues (R356, R365). -/
def hostReset (s : State) : State :=
  let s := muteRings s fun f => f != .core
  advanceEpoch { s with hif := { s.hif with vfs := [] } }

/-- PERST_N outside STANDBY: as an FLR of the PF, and the HOSTIF block at its reset values; in self-hosted mode the
block serves the cores, and the rings of the VFs alone are reset (R357, R431, R432, log entry 90). -/
def hostifReset (s : State) : State :=
  let s := hostReset s
  if selfHosted s then s
  else
    let s := forEach ((s.regs.map (·.1)).filter fun o => decide (0x400000 ≤ o) && decide (o < 0x800000)) s fun s o =>
      putR s o (regReset s.variant s.boot.strapBl2 o)
    { s with hif := { s.hif with
        msix := [], pba := [], mboxBusy := false, mboxDone := false, mboxStatus := 0, mboxResp := [] } }

def execPfFlr (s : State) : Out := .next (hostReset s)

def pcieLinkDown (s : State) : State := hostReset s

def execPcieLinkDown (s : State) : Out := .next (pcieLinkDown s)

end Sys2Proof.Machine
end

