-- ==== Sys2Proof/Machine/HostCmd.lean ====
section
/-! DEFINITION. The command descriptors of the driver interface (R345 to R348) and the host's answer for a
descriptor's buffer (R333, R356). -/
namespace Sys2Proof.Machine

/-- D0 of a command descriptor, and D1 as its HOST_ADDR. -/
def d1Addr (d : List Word) : Nat := (nth 0 d 1).toNat

/-! ### SEND_FRAME: R249, R250, R345 -/

def sfMasks : List Nat := [cmdMask, ones, 0, ones, ones, ones, ones, ones]

/-- The frame of a descriptor: the spine sets VER, CM and DETOUR. -/
def sfFrame (d : List Word) : Frame :=
  { bl3Dec (d.drop 4) [] with ver := 3, cm := false, detour := false }

/-- The faults of a header that R345 names. -/
def badFrame (f : Frame) : Bool :=
  !([tDATA, tMGMT, tRESULT, tCMPL].contains f.type) || !typeOk f.type f.tc || decide (4096 < f.length)
    || (f.mc && f.dest / 2 ^ 16 != 1) || f.rsv1 != 0 || f.rsv3 != 0

/-- From VF n, a collective frame whose CONTEXT is not of partition n. -/
def foreignColl (s : State) (i : Nat) (f : Frame) : Bool :=
  match ringVf s .cmd i with
  | some n => isColl f.type && !((ctxOf s f.ctx).state == 1 && ctxPart (ctxOf s f.ctx) == n)
  | none => false

def sfCheck (s : State) (i : Nat) (d : List Word) : Option Nat :=
  let f := sfFrame d
  match firstCheck sfMasks d with
  | some st => some st
  | none =>
    if f.length ≠ 0 ∧ d1Addr d % 8 ≠ 0 then some stBAD_RANGE
    else if foreignPart s .cmd i (dPart d) then some stWRONG_PARTITION
    else if badFrame f then some stBAD_FRAME
    else if foreignColl s i f then some stWRONG_PARTITION
    else none

/-- The frame has been fetched: it goes at once, is held for SEND RELEASE, or waits for its launch time. -/
def launchFrame (s : State) (i key : Nat) (d : List Word) (payload : List Byte) : State :=
  let die := fld (ringCfg s .cmd i) 19 18
  let t := (nth 0 d 3).toNat
  let l : Launch :=
    { f := { sfFrame d with payload := payload }, time := t, release := t == ones, ring := i, tag := key,
      part := dPart d, order := (nth 0 d 8).toNat, late := t != 0 && t != ones && s.tim.inForce && decide (t < ntNs s) }
  if t = 0 then enterRiser s die l
  else if l.late then enterRiser (bump s (cDie die 8)) die l
  else setLaunch s die (launchStore s die ++ [l])

def opSendFrame (i : Nat) : DescOp := fun s d key a =>
  match sfCheck s i d with
  | some st => some (complete s .cmd i key st 0 0)
  | none =>
    let n := (sfFrame d).length
    if nth 0 d 3 ≠ 0 ∧ 1024 ≤ (launchStore s (fld (ringCfg s .cmd i) 19 18)).length then
      some (complete s .cmd i key stLAUNCH_FULL 0 0)
    else
      let got := if n = 0 then some ([], none) else hostIn s .cmd i (d1Addr d) n a
      match got with
      | none => none
      | some (_, some w) => some (complete s .cmd i key stDMA_ERROR w 0)
      | some (b, none) => some (launchFrame s i key d b)

def sendFrame (i : Nat) (s : State) : State := runHead .cmd i 0x30 (opSendFrame i) s

def execSendFrame (ring : Nat) (s : State) : Out := .next (sendFrame ring s)

/-! ### TELEMETRY_BUF: R348 -/

/-- The checks of a command that only the PF may issue (R333, R344). -/
def pfOnly (s : State) (i : Nat) (masks : List Nat) (bad : Bool) (d : List Word) : Option Nat :=
  match firstCheck masks d with
  | some st => some st
  | none => if bad then some stBAD_RANGE else if (ringVf s .cmd i).isSome then some stNOT_PERMITTED else none

def opTelemetryBuf (i : Nat) : DescOp := fun s d key _ =>
  let n := fld (nth 0 d 2) 31 0
  match pfOnly s i [cmdMask, ones, mask 35 34 + mask 31 0] (d1Addr d % 64 != 0 || n == 0 || decide (65536 < n)) d with
  | some st => some (complete s .cmd i key st 0 0)
  | none =>
    let t : Telem := { die := fld (nth 0 d 2) 35 34, addr := d1Addr d, records := n, ring := i, tag := key }
    some { s with hif := { s.hif with telem := s.hif.telem ++ [t] } }

def telemetryBuf (i : Nat) (s : State) : State := runHead .cmd i 0x31 (opTelemetryBuf i) s

def execTelemetryBuf (ring : Nat) (s : State) : Out := .next (telemetryBuf ring s)

/-- 1 ms after its first record the buffer that is filled completes. -/
def telemetryBufTimeout (d : Nat) (s : State) : State :=
  match s.hif.telem.find? fun t => t.die == d with
  | none => s
  | some t => if t.firstAt.isSome then completeTelem (awaitOpt s t.firstAt msT) t else s

def execTelemetryBufTimeout (die : Nat) (s : State) : Out := .next (telemetryBufTimeout die s)

/-! ### MEM_WRITE and MEM_READ: R346 -/

def mwMasks : List Nat := [cmdMask, ones, mask 31 0, ones, mask 31 0]
def mwOff (d : List Word) : Nat := (nth 0 d 3).toNat
def mwLen (d : List Word) : Nat := fld (nth 0 d 4) 31 0

/-- The region a command may reach, or the status of the first check that fails. -/
def mwCheck (s : State) (i : Nat) (write : Bool) (d : List Word) : Except Nat (Word × Word) :=
  match firstCheck mwMasks d with
  | some st => .error st
  | none =>
    if d1Addr d % 64 ≠ 0 ∨ mwOff d % 64 ≠ 0 ∨ mwLen d % 64 ≠ 0 ∨ mwLen d = 0 ∨ 2 ^ 26 < mwLen d then .error stBAD_RANGE
    else if foreignPart s .cmd i (dPart d) then .error stWRONG_PARTITION
    else if !hasStacks s then .error stUNIT_ABSENT
    else match regionOf s (dPart d) (fld (nth 0 d 2) 31 0) with
      | none => .error stNO_REGION
      | some v =>
        let g := mwOff d / 256
        if 256 * rgSize v < mwOff d + mwLen d then .error stMEM_RANGE
        else if write && regionClaimed s (rgBase v + g) (ceilDiv (mwOff d + mwLen d) 256 - g) then
          .error stREGION_CLAIMED
        else .ok v

/-- MEM_WRITE: whole lines of what the host gave, up to an access that fails. -/
def opMemWrite (i : Nat) : DescOp := fun s d key a =>
  match mwCheck s i true d with
  | .error st => some (complete s .cmd i key st 0 0)
  | .ok v =>
    match hostIn s .cmd i (d1Addr d) (mwLen d) a with
    | none => none
    | some (b, fail) =>
      let s := writeLines (rgBase v) (b.length / 64) s (mwOff d / 64) b
      match fail with
      | some w => some (complete s .cmd i key stDMA_ERROR w 0)
      | none => some (complete s .cmd i key stOK 0 0)

def memWrite (i : Nat) (s : State) : State := runHead .cmd i 0x40 (opMemWrite i) s

def execMemWrite (ring : Nat) (s : State) : Out := .next (memWrite ring s)

/-- MEM_READ: the lines before the first that is POISONED. -/
def opMemRead (i : Nat) : DescOp := fun s d key a =>
  match mwCheck s i false d with
  | .error st => some (complete s .cmd i key st 0 0)
  | .ok v =>
    let r := readLines s (rgBase v) (mwLen d / 64) (mwOff d / 64)
    let s := doneReads s (rgBase v) (mwOff d / 64) (mwLen d / 64)
    let o := hostOut s .cmd i (d1Addr d) r.1 a
    match o.2, r.2 with
    | some w, _ => some (complete o.1 .cmd i key stDMA_ERROR w 0)
    | none, some n => some (complete o.1 .cmd i key stMEM_POISONED (64 * n) 0)
    | none, none => some (complete o.1 .cmd i key stOK 0 0)

def memRead (i : Nat) (s : State) : State := runHead .cmd i 0x41 (opMemRead i) s

def execMemRead (ring : Nat) (s : State) : Out := .next (memRead ring s)

/-! ### DEBUG_READ: R347 -/

/-- A byte of an element's accumulator record: an integer in 8 bytes, a floating-point value in the accumulator format,
A of R196 in the first 40 bytes of an exact one, each little-endian (R212, log entry 35). -/
def accByte (k1 : Word) (a : Acc) (at' : Nat) : Option Byte :=
  match a with
  | .none => none
  | .i n => (leBytes 8 (enc 64 n))[at']?
  | .x v => (leBytes 40 (enc 320 v.sum))[at']?
  | .f v =>
    if aExact k1 then none
    else if isIntF (aIn k1) then (leBytes 8 (enc 64 (intOf v)))[at']?
    else (leBytes (accBytes k1 false) (encF (accFmt k1) v))[at']?

/-- What a window holds at a byte of line L of the slots its plan claims on a crucible: a contribution, its output, its
accumulator (R225). -/
def winByte (x : Ctx) (e : Word × Word × Word × Word) (w : WinRun) (line at' : Nat) : List Byte :=
  let k1 := ctxArith x
  let m := (line - wnIn e) / max 1 (wnLines e)
  let a := 256 * (line - wnAcc e) + at'
  let size := accBytes k1 (aExact k1)
  [if wnKind e = 0 ∧ wnIn e ≤ line ∧ m < wnMembers e then
      ((tget ([] : List Byte) w.contribs (wnFirst e + m))[256 * ((line - wnIn e) % max 1 (wnLines e)) + at']?)
    else none,
   if wnOut e ≤ line then w.outBytes[256 * (line - wnOut e) + at']? else none,
   if wnAcc e ≤ line ∧ !isCombine x then accByte k1 (nth .none w.c.acc (a / size)) (a % size) else none].filterMap id

/-- A byte of crucible memory that the manual places: a free slot's 0 (R214), and a window's contributions, output and
accumulator (R225) where one of them alone lies there, an open window before a closed one whose lines it has taken over.
The rest of a slot in use has no stated layout (log entry 35). -/
def cruByte (s : State) (a : Nat) : Option Byte :=
  let g := a / 65536
  if (cruSlot s g).use = 0 then some 0
  else
    (s.plan.plans.find? fun p => (allSlots p.2).contains g).bind fun p =>
      let line := 256 * (planSlots p.2 (g / 512)).idxOf g + a % 65536 / 256
      let at_ (open_ : Bool) : List Byte := p.2.win.flatMap fun w =>
        if wnCru (window4 p.2 w.1) = g / 512 ∧ (!open_ ∨ w.2.st = 1) then
          winByte (ctxOf s p.1) (window4 p.2 w.1) w.2 line (a % 256)
        else []
      match at_ true, at_ false with
      | [b], _ => some b
      | [], [b] => some b
      | _, _ => none

/-- Bytes of crucible memory; those without a stated content are free values (log entry 35). -/
def cruBytes (s : State) (off n : Nat) : State × List Byte :=
  let v := Config.freeNat s.freeCtr
  (takeFree s, (List.range n).map fun i => (cruByte s (off + i)).getD (BitVec.ofNat 8 (v / 256 ^ i % 256)))

/-- Bytes of plan memory: the words of sequencer n from n × 2 MiB, each of 32 B. -/
def planBytes (s : State) (off n : Nat) : List Byte :=
  sliceB ((List.range (n / 32 + 2)).flatMap fun i => leBytes 32 (tget (0 : BitVec 256) s.plan.memory (off / 32 + i)).toNat)
    (off % 32) n

/-- Words with an uncorrectable error read as all ones. -/
def spoil (bad : List Nat) (b : List Byte) : List Byte :=
  bad.foldl (fun b w => putBytes b (8 * w) (List.replicate 8 0xFF)) b

def opDebugRead (i : Nat) (badWords : List Nat) : DescOp := fun s d key a =>
  let space := fld (nth 0 d 2) 63 56
  let off := mwOff d
  let n := mwLen d
  let size := if space = 1 then 2 ^ 31 else 2 ^ 27
  if !resOk [cmdMask, ones, mask 63 56, ones, mask 31 0] d || (space != 1 && space != 2) then
    some (complete s .cmd i key stBAD_OP 0 0)
  else
    match pfOnly s i [cmdMask, ones, mask 63 56, ones, mask 31 0]
      (d1Addr d % 8 != 0 || off % 64 != 0 || n % 64 != 0 || n == 0 || decide (2 ^ 26 < n) || decide (size < off + n)) d with
    | some st => some (complete s .cmd i key st 0 0)
    | none =>
      if space = 1 ∧ !hasCrucibles s then some (complete s .cmd i key stUNIT_ABSENT 0 0)
      else
        let bad := (badWords.filter fun w => decide (w < n / 8)).dedup
        let r := if space = 1 then cruBytes s off n else (s, planBytes s off n)
        let o := hostOut r.1 .cmd i (d1Addr d) (spoil bad r.2) a
        match o.2 with
        | some w => some (complete o.1 .cmd i key stDMA_ERROR w 0)
        | none => some (complete o.1 .cmd i key stOK bad.length 0)

def debugRead (i : Nat) (badWords : List Nat) (s : State) : State := runHead .cmd i 0x50 (opDebugRead i badWords) s

def execDebugRead (ring : Nat) (badWords : List Nat) (s : State) : Out := .next (debugRead ring badWords s)

/-! ### The host's answer: R333, R356 -/

/-- Run the descriptor at the front of a ring whose operation uses a host buffer. -/
def runBuffered (k : RingKind) (i : Nat) (s : State) : State :=
  match firstDesc s k i with
  | none => s
  | some d =>
    match k, dOp d with
    | .tdma, 1 => tdmaWrite i s
    | .tdma, 2 => tdmaRead i s
    | .pload, 1 => planLoad i s
    | .cmd, 1 => if i = 0 then tdmaWrite 64 s else s
    | .cmd, 2 => if i = 0 then tdmaRead 64 s else s
    | .cmd, 0x20 => ctxSetup i s
    | .cmd, 0x21 => ctxRead i s
    | .cmd, 0x24 => ctxStats i s
    | .cmd, 0x30 => sendFrame i s
    | .cmd, 0x40 => memWrite i s
    | .cmd, 0x41 => memRead i s
    | .cmd, 0x50 => debugRead i [] s
    | _, _ => s

/-- The buffer that a descriptor reads: its address and bytes. -/
def bufferRead (k : RingKind) (d : List Word) : Option (Nat × Nat) :=
  match k, dOp d with
  | .tdma, 1 | .cmd, 1 => if tdInline d then none else some (tdAddr d, entryBytes (tdTable d) * tdCount d)
  | .pload, 1 => some ((nth 0 d 1).toNat, fld (nth 0 d 2) 31 0)
  | .cmd, 0x20 => some ((nth 0 d 1).toNat, 128)
  | .cmd, 0x30 => some (d1Addr d, (sfFrame d).length)
  | .cmd, 0x40 => some (d1Addr d, mwLen d)
  | _, _ => none

/-- The host has answered for the buffer of a ring's first fetched descriptor, to reads that carry the requester ID
of the ring's function (R330): the answer waits for the descriptor's own row, and a refusal ends the command at once. -/
def hostBufferAccess (k : RingKind) (i : Nat) (a : HostAccess) (s : State) : State :=
  match firstDesc s k i with
  | none => s
  | some d =>
    let s := match bufferRead k d with
      | some (addr, n) => emitAll s (dmaReads (descOwner s k i) addr (reachable s k i addr n))
      | none => s
    let s := modRing s k i fun r => { r with staged := some a }
    if a.failAt.isSome then runBuffered k i s else s

def execHostBufferAccess (k : RingKind) (ring : Nat) (answer : HostAccess) (s : State) : Out :=
  .next (hostBufferAccess k ring answer s)

end Sys2Proof.Machine
end

