-- ==== Sys2Proof/Machine/Fences.lean ====
section
/-! DEFINITION. Commands of chapter 12 on fences and the FENCE_N and WAKE_N pins: R368 to R375. -/
namespace Sys2Proof.Machine

/-- The driver writes FENCED 1: a link already fenced keeps its SOURCE, and WANTED clears (R371, R373). -/
def linkFenceSet (f : Func) (l : Nat) (s : State) : State :=
  if !mayWrite s f then s
  else if (link s l).fenced then modLink s l fun k => { k with wanted := false }
  else fenceLink s l 3 (recentFences s).length

def execLinkFenceSet (f : Func) (l : Nat) (s : State) : Out := .next (linkFenceSet f l s)

/-- The driver writes FENCED 0: the fence lifts, triggers count afresh, RESUME goes out (R368, R373). -/
def linkFenceClear (f : Func) (l : Nat) (s : State) : State :=
  if !mayWrite s f then s
  else if !(link s l).fenced then modLink s l fun k => { k with wanted := false }
  else
    let s := modLink s l fun k => { k with
      fenced := false, source := 0, wanted := false, downs := [], deadSince := k.deadSince.map fun _ => s.now }
    let s := raiseEvent s 0x003 (partLink l) l 0
    if s.hlt.moduleFenced then s else forEach (upLanes s l) s fun s q => sendLinkctl s q lcRESUME

def execLinkFenceClear (f : Func) (l : Nat) (s : State) : Out := .next (linkFenceClear f l s)

/-- A link has stayed without any lane UP for DEAD_HOLD since its last counted down (R370). -/
def deadHoldExpiry (l : Nat) (s : State) : State :=
  let h := rf s oFENCE_CFG 23 12
  if h ≠ 0 ∧ !linkUp s l ∧ (link s l).deadSince.isSome then
    let s := awaitOpt s (link s l).deadSince (h * secT)
    autoFence (modLink s l fun k => { k with deadSince := none }) l 2
  else s

def execDeadHoldExpiry (l : Nat) (s : State) : Out := .next (deadHoldExpiry l s)

/-! ### The module fence: R372, R374, R375 -/

/-- Input pins are taken while the always-on domain runs (R374, R407). -/
def pinsLive (s : State) : Bool := s.pwr.powered && !s.pwr.aonReset

/-- The module fence may come into force: the module is READY, and ACTIVE or on its way down; one that is in force
stays so in the lower states (R372, R422). -/
def mayFence (s : State) : Bool :=
  moduleReadyNow s && (s.hlt.moduleFenced || s.pwr.state == 0 || s.pwr.state == 4)

/-- The module fence follows FENCE_N and FENCE_UNSTABLE once the module is READY, and from PARKED and RETAIN on reaching
ACTIVE (R372, R422). -/
def followModuleFence (s : State) : State :=
  let want := (s.hlt.fenceN || s.hlt.fenceUnstable) && mayFence s
  if want == s.hlt.moduleFenced then s
  else
    let own := s.lnk.links.filter fun e => !e.2.fenced
    let s := { s with hlt := { s.hlt with moduleFenced := want } }
    let s := raiseEvent s 0x005 0x7F (b2n want + 2 * b2n (want && s.hlt.fenceUnstable)) 0
    if want then forEach (own.map (·.1)) s fenceEffect
    else forEach (own.map (·.1)) s fun s l => forEach (upLanes s l) s fun s q => sendLinkctl s q lcRESUME

/-- Two transitions in the same direction within 100 µs latch FENCE_UNSTABLE (R374). -/
def latchUnstable (s : State) (last : Option Nat) : State :=
  if last.isSome && !dueOpt s last (100 * usT) && !s.hlt.fenceUnstable then
    raiseEvent { s with hlt := { s.hlt with fenceUnstable := true } } 0x006 0x7F 0 0
  else s

def fenceNAssert (s : State) : State :=
  if !pinsLive s || s.hlt.fenceN then s
  else
    let last := s.hlt.fenceAssertAt
    let s := { s with hlt := { s.hlt with fenceN := true, fenceAssertAt := some s.now, fenceHeld := false } }
    followModuleFence (latchUnstable s last)

def execFenceNAssert (s : State) : Out := .next (fenceNAssert s)

def fenceNDeassert (s : State) : State :=
  if !pinsLive s || !s.hlt.fenceN then s
  else
    let last := s.hlt.fenceDeassertAt
    let s := { s with hlt := { s.hlt with fenceN := false, fenceDeassertAt := some s.now, fenceHeld := false } }
    followModuleFence (latchUnstable s last)

def execFenceNDeassert (s : State) : Out := .next (fenceNDeassert s)

/-- FENCE_N asserted for more than 10 s: FENCE_HELD once per assertion (R374). -/
def fenceNHoldExpiry (s : State) : State :=
  if s.hlt.fenceN && !s.hlt.fenceHeld && s.hlt.fenceAssertAt.isSome then
    let s := awaitOpt s s.hlt.fenceAssertAt (10 * secT + 1)
    raiseEvent { s with hlt := { s.hlt with fenceHeld := true } } 0x007 0x7F 0 0
  else s

def execFenceNHoldExpiry (s : State) : Out := .next (fenceNHoldExpiry s)

/-- A write of 1 clears FENCE_UNSTABLE; the fence stays by level (R375). -/
def fenceUnstableClear (f : Func) (s : State) : State :=
  if mayWrite s f then followModuleFence { s with hlt := { s.hlt with fenceUnstable := false } } else s

def execFenceUnstableClear (f : Func) (s : State) : Out := .next (fenceUnstableClear f s)

/-! ### WAKE_N: R374, R375, R419 -/

/-- A start runs: no wake has an effect (R446). -/
def startRuns (s : State) : Bool :=
  s.boot.modState == 0 && (s.pwr.state == 0 || (s.pwr.state == 5 && s.pwr.wakeFrom == 3))

/-- An assertion while not masked is one wake, and masks the pin; during a start it is none (R375, R446). -/
def wakeNAssert (s : State) : State :=
  if !pinsLive s || s.hlt.wakeN then s
  else
    let s := { s with hlt := { s.hlt with wakeN := true } }
    if s.hlt.wakeMasked || !wakeEnabled s 4 || startRuns s then s
    else wake { s with hlt := { s.hlt with wakeMasked := true, wakeAt := some s.now } } 4

def execWakeNAssert (s : State) : Out := .next (wakeNAssert s)

/-- Still asserted 1 s after the wake: WAKE_HELD. -/
def wakeNHoldExpiry (s : State) : State :=
  if s.hlt.wakeN && s.hlt.wakeAt.isSome then
    let s := awaitOpt s s.hlt.wakeAt secT
    raiseEvent { s with hlt := { s.hlt with wakeAt := none } } 0x008 0x7F 0 0
  else s

def execWakeNHoldExpiry (s : State) : Out := .next (wakeNHoldExpiry s)

/-- WAKE_REARM arms WAKE_N once the pin is seen deasserted after the write (R375). -/
def armIfReleased (s : State) : State :=
  if s.hlt.wakeRearm && !s.hlt.wakeN then { s with hlt := { s.hlt with wakeRearm := false, wakeMasked := false } }
  else s

def wakeRearm (f : Func) (s : State) : State :=
  if mayWrite s f then armIfReleased { s with hlt := { s.hlt with wakeRearm := true } } else s

def execWakeRearm (f : Func) (s : State) : Out := .next (wakeRearm f s)

def wakeNDeassert (s : State) : State :=
  if !pinsLive s then s
  else armIfReleased { s with hlt := { s.hlt with wakeN := false, wakeAt := none } }

def execWakeNDeassert (s : State) : Out := .next (wakeNDeassert s)

end Sys2Proof.Machine
end

