-- ==== Sys2Proof/Machine/Thermal.lean ====
section
/-! DEFINITION. Thermal protection (R378 to R382) and the refresh of hot stacks (R294). -/
namespace Sys2Proof.Machine

/-- Number of a sensor set, as UNIT and TRIP_SRC of the manual count them from 0. -/
def setNo : SensorSet → Nat
  | .die => 0 | .stack => 1 | .engine => 2

def therm (s : State) (set : SensorSet) (u : Nat) : Therm := tget {} s.hlt.therm (64 * setNo set + u)
def setTherm (s : State) (set : SensorSet) (u : Nat) (t : Therm) : State :=
  { s with hlt := { s.hlt with therm := tset {} s.hlt.therm (64 * setNo set + u) t } }

/-- Thresholds in 1/16 °C (R378): warn, throttle or limit, trip. -/
def warnAt (s : State) (set : SensorSet) : Int :=
  16 * (match set with | .stack => rf s oTHERM_CFG 55 48 | _ => rf s oTHERM_CFG 63 56 : Nat)

def limitAt : SensorSet → Option Int
  | .die => some (100 * 16) | .stack => some (92 * 16) | .engine => none

def tripAt : SensorSet → Int
  | .stack => 95 * 16 | _ => 105 * 16

/-- Sensors of a set that are excluded: of a die in its own order, of a stack among the stacks, of an engine as
R51 finds them (R382). -/
def excludedOf (s : State) (set : SensorSet) (u : Nat) (r : List (BitVec 16)) : List Bool :=
  match set with
  | .die => (List.range r.length).map (sensorBad r)
  | .stack =>
    let pre := if u = 0 then [] else (therm s .stack (u - 1)).readings.take 1
    let post := (therm s .stack (u + 1)).readings.take 1
    [sensorBad (pre ++ r ++ post) pre.length]
  | .engine => (engine s u).faulty

/-- The readings that count. -/
def validOf (set : SensorSet) (r : List (BitVec 16)) (bad : List Bool) : List Int :=
  let l := (r.zip (bad ++ List.replicate r.length false)).filterMap fun e => if e.2 then none else some (sx 16 e.1.toNat)
  if set = .stack ∧ l = [] then [93 * 16] else l

def topOf : List Int → Option Int
  | [] => none
  | a :: l => some (l.foldl max a)

/-- The dies and stacks that throttle or limit traffic (R379, R380, R382, R413). -/
def refreshLimits (s : State) : State :=
  let hot (set : SensorSet) (u : Nat) : Bool := (therm s set u).limit || (therm s set u).latched || s.pwr.capping
  { s with hlt := { s.hlt with
    throttled := (List.range 4).filter (hot .die)
    limited := if hasStacks s then (List.range 20).filter (hot .stack) else [] } }

/-- THERM_ALERT_N follows the conditions of R378; each assertion raises an in-band interrupt (R409). -/
def noteAlert (s : State) : State :=
  let on := s.hlt.therm.any fun e => e.2.warn || e.2.limit || e.2.latched
  if on == s.hlt.alert then s
  else
    let s := { s with hlt := { s.hlt with alert := on } }
    if on then emit s .ibi else s

/-- UNIT of a thermal event. -/
def thermUnit (set : SensorSet) (u : Nat) (x : Int) : Nat := unitWord 0 u (setNo set) (BitVec.ofNat 16 (enc 16 x))

/-- A trip threshold is reached: the lasers go dark and the module enters STANDBY (R381). -/
def thermalTrip (s : State) (set : SensorSet) (u : Nat) (x : Int) : State :=
  let s := { s with
             hlt := { s.hlt with tripLatch := true, tripSrc := setNo set + 1, tripUnit := thermUnit set u x }
             pwr := { s.pwr with exitCause := 4 } }
  enterStandby s

/-- The warn and limit conditions of a set after a sample whose highest reading is x. -/
def judgeSet (s : State) (set : SensorSet) (u : Nat) (x : Int) : State :=
  let t := therm s set u
  let low (since : Option Nat) (thr : Int) : Option Nat := if x ≤ thr - 48 then some (since.getD s.now) else none
  let setWarn := !t.warn && decide (warnAt s set ≤ x)
  let lim := limitAt set
  let setLim := match lim with | some y => !t.limit && decide (y ≤ x) | none => false
  let s := setTherm s set u { t with
    warn := t.warn || setWarn, limit := t.limit || setLim
    warnLow := low t.warnLow (warnAt s set), limitLow := lim.bind fun y => low t.limitLow y }
  let s := if setWarn then raiseEvent s 0x010 0x7F (thermUnit set u x) 1 else s
  if setLim && set == .die then raiseEvent s 0x011 0x7F (thermUnit set u x) 1 else s

/-- MEM_HOT: a stack passes 85 °C; its refresh is normal again after 1 s at 83 °C or less (R294). -/
def judgeHot (s : State) (k : Nat) (x : Int) : State :=
  let t := stk s k
  let c := (x / 16).toNat
  let hot := !t.hot && decide (85 * 16 < x)
  let s := modStk s k fun t => { t with
    temp := c, hot := t.hot || hot
    coolSince := if x ≤ 83 * 16 then some (t.coolSince.getD s.now) else none }
  if hot then raiseEvent s 0x708 0x7F k (0x100 + c) else s

/-- A die with more than four sensors excluded throttles until the next reset (R382). -/
def latchDie (s : State) (d : Nat) (bad : List Bool) (x : Int) : State :=
  let t := therm s .die d
  if t.latched || decide ((bad.filter id).length ≤ 4) then s
  else
    let s := setTherm s .die d { t with latched := true }
    if t.limit then s else raiseEvent s 0x011 0x7F (thermUnit .die d x) 1

/-- Sensors of a unit of a set (R378). -/
def sensorCount : SensorSet → Nat → Nat
  | .die, _ => 16
  | .stack, _ => 1
  | .engine, _ => 4

/-- Units of a set: 4 dies, 20 stacks where the module has them, 34 engines (R378). -/
def unitThere (s : State) (set : SensorSet) (u : Nat) : Bool :=
  match set with
  | .die => decide (u < 4)
  | .stack => decide (u < 20) && hasStacks s
  | .engine => decide (u < 34)

/-- A sample is recorded; a die or stack sensor newly excluded raises SENSOR_FAULT (R382). -/
def takeReadings (s : State) (set : SensorSet) (u : Nat) (r : List (BitVec 16)) (bad : List Bool) : State :=
  let t := therm s set u
  let s := if set == .engine then s
    else forEach (List.range r.length) s fun s i =>
      if nth false bad i && !nth false t.excluded i then
        raiseEvent s 0x013 0x7F (unitWord i u (setNo set) (nth 0 r i)) 0
      else s
  setTherm s set u { t with readings := r, excluded := bad }

/-- The conditions of a set whose highest valid reading is x. -/
def judgeTop (s : State) (set : SensorSet) (u : Nat) (bad : List Bool) (x : Int) : State :=
  let s := judgeSet s set u x
  match set with
  | .die => latchDie s u bad x
  | .stack => judgeHot s u x
  | .engine => s

/-- The same, and the trip outside STANDBY; with no valid reading a die may still latch (R381, R382). -/
def judgeSample (s : State) (set : SensorSet) (u : Nat) (bad : List Bool) (top : Option Int) : State :=
  match top with
  | none => if set == .die then latchDie s u bad 0 else s
  | some x =>
    let s := judgeTop s set u bad x
    if tripAt set ≤ x ∧ s.pwr.state ≠ 3 then thermalTrip s set u x else s

/-- The 10 µs sample of a set of sensors. -/
def thermalSample (set : SensorSet) (u : Nat) (readings : List (BitVec 16)) (s : State) : State :=
  if !pinsLive s || !unitThere s set u then s
  else
    let r := readings.take (sensorCount set u)
    let bad := excludedOf s set u r
    let s := judgeSample (takeReadings s set u r bad) set u bad (topOf (validOf set r bad))
    noteHealth (noteAlert (refreshLimits s))

def execThermalSample (set : SensorSet) (unit : Nat) (readings : List (BitVec 16)) (s : State) : Out :=
  .next (thermalSample set unit readings s)

/-- Every sensor of a set has read at least 3 K below a threshold for 1 ms (R378). -/
def thermalClear (set : SensorSet) (u : Nat) (s : State) : State :=
  let t := therm s set u
  let x := (topOf (validOf set t.readings t.excluded)).getD 0
  let s := awaitOpt s ((if t.warn then t.warnLow.toList else []) ++ (if t.limit then t.limitLow.toList else [])).min? msT
  let offWarn := t.warn && dueOpt s t.warnLow msT
  let offLim := t.limit && dueOpt s t.limitLow msT
  let s := setTherm s set u { t with warn := t.warn && !offWarn, limit := t.limit && !offLim }
  let s := if offLim && set == .die && !t.latched then raiseEvent s 0x011 0x7F (thermUnit set u x) 0 else s
  let s := if offWarn then raiseEvent s 0x010 0x7F (thermUnit set u x) 0 else s
  noteAlert (refreshLimits s)

def execThermalClearExpiry (set : SensorSet) (unit : Nat) (s : State) : Out := .next (thermalClear set unit s)

end Sys2Proof.Machine
end

