-- ==== Sys2Proof/Machine/Power.lean ====
section
/-! DEFINITION. The 50 V input, trips and power states (R411 to R424). -/
namespace Sys2Proof.Machine

/-! ### The input: R411 to R414 -/

/-- PWR_GOOD asserts: the module starts, or leaves STANDBY (R411). -/
def pwrGoodAssert (s : State) : State :=
  if !pinsLive s || s.pwr.pwrGood then s
  else
    let s := { s with pwr := { s.pwr with pwrGood := true } }
    if s.boot.zeroAt.isNone then beginStart { s with pwr := { s.pwr with state := 0 } } else wake s 6

def execPwrGoodAssert (s : State) : Out := .next (pwrGoodAssert s)

/-- The rails go off, unless they are off already. -/
def standbyNow (s : State) : State := if s.pwr.state = 3 then s else enterStandby s

/-- PWR_GOOD deasserts: dark within 1 µs, rails off, STANDBY (R411). -/
def pwrGoodDeassert (s : State) : State :=
  if !pinsLive s || !s.pwr.pwrGood then s
  else
    let s := { s with pwr := { s.pwr with pwrGood := false } }
    standbyNow s

def execPwrGoodDeassert (s : State) : Out := .next (pwrGoodDeassert s)

/-- PWR_FAULT latches the first trip (R414, R424). -/
def latchTrip (s : State) (cause rail vin : Nat) : State :=
  if bit (getR s oPWR_FAULT) 63 then s
  else putR s oPWR_FAULT (mkWord [at_ 63 1, at_ 60 cause, at_ 56 (rail % 16), at_ 40 (vin % 2 ^ 16)])

/-- A trip: dark, rails off, STANDBY, no wake until VIN has been within 44 V to 58 V for 1 s (R414). -/
def powerTrip (s : State) (cause rail vin : Nat) : State :=
  if !pinsLive s then s
  else
    let s := latchTrip s cause rail vin
    standbyNow { s with pwr := { s.pwr with vinOk := false, tripAt := some s.now, exitCause := 5 } }

/-- VIN below 42.00 V or above 60.00 V for 20 µs; VIN in 10 mV units (R412). -/
def vinTrip (vin : Nat) (s : State) : State :=
  if vin < 4200 then powerTrip s 1 0 vin else if 6000 < vin then powerTrip s 2 0 vin else s

def execVinTrip (vin : Nat) (s : State) : Out := .next (vinTrip vin s)

/-- The input current stayed at ILIM for 5 ms (R413). -/
def ilimTrip (vin : Nat) (s : State) : State := powerTrip s 3 0 vin

def execIlimTrip (vin : Nat) (s : State) : Out := .next (ilimTrip vin s)

/-- A current above 120 A opens the input (R413). -/
def overcurrentTrip (vin : Nat) (s : State) : State := powerTrip s 3 0 vin

def execOvercurrentTrip (vin : Nat) (s : State) : Out := .next (overcurrentTrip vin s)

/-- A rail outside ±5 % for 10 µs, or over its current limit (R415). -/
def railFault (rail vin : Nat) (s : State) : State := powerTrip s 4 rail vin

def execRailFault (rail vin : Nat) (s : State) : Out := .next (railFault rail vin s)

/-- VIN has been within 44 V to 58 V for 1 s since the trip (R414). -/
def vinStable (s : State) : State :=
  if !pinsLive s || s.pwr.vinOk then s
  else
    let s := awaitOpt s s.pwr.tripAt secT
    { s with pwr := { s.pwr with vinOk := true } }

def execVinStable (s : State) : Out := .next (vinStable s)

/-- The 1 ms averages of the input: VIN and IIN in 10 mV and 10 mA, PIN in 0.1 W, energy drawn in mJ. The input
is at ILIM where it draws 3,450 W; above CAP every die and stack throttles (R412, R413, R424). -/
def powerCapSample (vin iin pin energy : Nat) (s : State) : State :=
  if !pinsLive s then s
  else
    let p := s.pwr
    let cap := 10 * rf s oPWR_CFG 63 52
    let capped := p.capping || decide (cap < pin)
    let outside := decide (vin < 4400) || decide (5800 < vin)
    let s := { s with pwr := { p with
               vin := vin, iin := iin, pin := pin, energy := (p.energy + energy) % 2 ^ 64
               uvWarn := decide (vin < 4400), ilim := decide (34500000 ≤ vin * iin)
               capping := capped && p.state != 3
               capBelowSince := if pin < cap - 1000 then some (p.capBelowSince.getD s.now) else none
               tripAt := if !p.vinOk && outside then some s.now else p.tripAt } }
    refreshLimits s

def execPowerCapSample (vin iin pin energy : Nat) (s : State) : Out := .next (powerCapSample vin iin pin energy s)

/-- The average has stayed below CAP − 100 W for 10 ms (R413). -/
def cappingClear (s : State) : State :=
  if s.pwr.capping && s.pwr.capBelowSince.isSome then
    let s := awaitOpt s s.pwr.capBelowSince (10 * msT)
    refreshLimits { s with pwr := { s.pwr with capping := false } }
  else s

def execCappingClearExpiry (s : State) : Out := .next (cappingClear s)

/-! ### Requests: R417, R418, R422 -/

def planInState (s : State) (l : List Nat) : Bool := s.plan.plans.any fun p => l.contains p.2.state

def reqResult (s : State) (r : Nat) : State := { s with pwr := { s.pwr with reqResult := r } }

/-- LINKCTL on every lane that exchanges ordered sets. -/
def linkctlAll (s : State) (op : Nat) : State :=
  forEach ((s.lnk.lanes.filter fun e => decide (2 ≤ e.2.state) && decide (e.2.state ≤ 4)).map (·.1)) s fun s q =>
    sendLinkctl s q op

/-- A request for a lower state: 1 PARKED, 2 RETAIN, 3 STANDBY. From PARKED and RETAIN the steps of R418 that
lead to PARKED are done already. -/
def lowerPower (t : Nat) (s : State) : State :=
  let st := s.pwr.state
  if st = 4 ∨ st = 5 then reqResult s 3
  else if st = 3 then s
  else if t ≤ st then reqResult s 2
  else if planInState s (if t = 1 then [4] else [3, 4]) then reqResult s 1
  else
    let s := { s with pwr := { s.pwr with
               state := 4, target := t, reqResult := 0, enterAt := some s.now, drainAt := none
               parkPoint := if st = 0 then none else some s.now } }
    if st = 0 then linkctlAll s lcQUIESCE else if st = 1 then abortCopies s else s

def pwrReq (t : Nat) (f : Func) (s : State) : State := if mayWrite s f then lowerPower t s else s

/-- TARGET ACTIVE is a PCIE wake (R419, R424). While the module enters or wakes the request is BUSY and TARGET stays
(R422); as a wake it is latched during entry (log entry 89). -/
def pwrReqActive (f : Func) (s : State) : State :=
  if !mayWrite s f then s
  else
    let busy := s.pwr.state == 4 || s.pwr.state == 5
    wake (if busy then reqResult s 3 else reqResult { s with pwr := { s.pwr with target := 0 } } 0) 1

def execPwrReqActive (f : Func) (s : State) : Out := .next (pwrReqActive f s)

def pwrReqParked (f : Func) (s : State) : State := pwrReq 1 f s

def execPwrReqParked (f : Func) (s : State) : Out := .next (pwrReqParked f s)

def pwrReqRetain (f : Func) (s : State) : State := pwrReq 2 f s

def execPwrReqRetain (f : Func) (s : State) : Out := .next (pwrReqRetain f s)

def pwrReqStandby (f : Func) (s : State) : State := pwrReq 3 f s

def execPwrReqStandby (f : Func) (s : State) : Out := .next (pwrReqStandby f s)

/-- REQUEST 0x01 of the sideband (R409, R417). -/
def i3cWake (s : State) : State := if pinsLive s then wake s 5 else s

def execI3cRequestWake (s : State) : Out := .next (i3cWake s)

/-- REQUEST 0x03 of the sideband (R409). -/
def i3cStandby (s : State) : State := if pinsLive s then lowerPower 3 s else s

def execI3cRequestStandby (s : State) : Out := .next (i3cStandby s)

/-! ### Entry to a lower state: R418 -/

/-- The module enters a lower state and has not drained yet. -/
def draining (s : State) : Bool := s.pwr.state == 4 && s.pwr.parkPoint.isNone && s.pwr.drainAt.isNone

def riserEmpty (s : State) : Bool := s.sw.queue.isEmpty && s.sw.mcq.isEmpty && s.sw.selfIn.isEmpty

/-- The riser is empty: LINKCTL DISABLE, then HEARTBEATs with TX_STATE DISABLED. -/
def parkDrainDone (s : State) : State :=
  if draining s && riserEmpty s then
    let s := linkctlAll s lcDISABLE
    let lanes := tmap ({} : Lane) s.lnk.lanes fun _ x =>
      if 2 ≤ x.state ∧ x.state ≤ 4 then { x with txDisabled := true } else x
    { s with pwr := { s.pwr with drainAt := some s.now }, lnk := { s.lnk with lanes := lanes } }
  else s

def execParkDrainDone (s : State) : Out := .next (parkDrainDone s)

/-- 1.125 × AGE_LIMIT after acceptance every frame still held goes to slag. -/
def parkDrainLimit (s : State) : State :=
  if draining s then
    let s := awaitOpt s s.pwr.enterAt (rf s oAGE_CFG 16 0 * usT * 9 / 8)
    let s := forEach s.sw.queue s fun s q => slagCount (takeOut s q) q.outLink q.f.tc
    forEach s.sw.mcq s fun s m =>
      let s := { s with sw := { s.sw with mcq := s.sw.mcq.filter fun x => decide (x.q.id ≠ m.q.id) } }
      let s := if m.q.place = .landing then freeCredit s m.q.inLink m.q.f.tc (inCells m.q) else s
      forEach m.members s fun s l => slagCount s l m.q.f.tc
  else s

def execParkDrainLimit (s : State) : Out := .next (parkDrainLimit s)

/-- A wake that was latched during entry acts at once (R422). -/
def latchedWake (src : Nat) (s : State) : State := if src = 0 then s else wake s src

/-- Every lane that is not retired or in a circuit reads DISABLED, and its link is down. -/
def disableLanes (s : State) : State :=
  let lanes : Tab Lane := (upTo 4160).map fun q =>
    let x := lane s q
    (q, if x.state = 5 ∨ x.state = 7 then { x with txDisabled := false }
        else { clearLane x with state := 8, txDisabled := false })
  let s := { s with lnk := { s.lnk with lanes := lanes } }
  forEach (upTo 2050) s fun s l => refreshLink (modLink s l fun k => { k with margin := none }) l 7 false

/-- The lanes whose receive fibre is dark (R419). -/
def darkLanes (s : State) : List Nat := (upTo 4160).filter fun q => (lane s q).los

/-- The receive fibres that are dark at entry are remembered (R419). -/
def noteDark (s : State) : State := { s with pwr := { s.pwr with darkAtEntry := darkLanes s } }

/-- The lanes are DISABLED: PARKED is reached, or the PARKED point of a deeper entry, which ends copies (R291, R418). -/
def parkReached (src : Nat) (s : State) : State :=
  if s.pwr.target = 1 then
    latchedWake src (parkTime { s with pwr := { s.pwr with state := 1, enterAt := none, drainAt := none, wakePending := 0 } })
  else abortCopies { s with pwr := { s.pwr with parkPoint := some s.now } }

/-- 10 µs of DISABLED heartbeats have passed: standby bias, lanes DISABLED, quadrant clocks gated. -/
def parkDisableDone (s : State) : State :=
  if s.pwr.state == 4 && s.pwr.parkPoint.isNone && s.pwr.drainAt.isSome then
    parkReached s.pwr.wakePending (disableLanes (noteDark (awaitOpt s s.pwr.drainAt (10 * usT))))
  else s

def execParkDisableDone (s : State) : Out := .next (parkDisableDone s)

/-- RETAIN keeps tables, context records, plan memory and admitted plans, counters and firmware state; the riser
and the crucible slots read zero at exit, and dynamic reductions end with what they held: N advances (R256, R417, R421). Circuits, swaps and
calibrations end with the light (R71, R415), and PPS_OUT is low (R407). -/
def enterRetain (s : State) : State :=
  let s := dropTime s
  let engines := tmap ({} : Engine) s.opt.engines fun _ e =>
    { e with
      state := if e.state = 3 then 3 else 0, enAt := if e.state = 3 then e.enAt else none, calRunning := false
      calChannel := 255, calBorrow := none, calPhase := 0, calLane := 0x1FFF, calSaved := [] }
  let slots := s.cru.slots.filterMap fun e =>
    if e.2.use = 1 ∨ e.2.retired then some (e.1, { e.2 with use := if e.2.use = 1 then 1 else 0, ue := false }) else none
  let ctxs := tmap ({} : Ctx) s.coll.ctxs fun _ x => if x.dyn then nextInvocation x else x
  let plans := tmap ({} : Plan) s.plan.plans fun _ p => { p with win := [] }
  { s with
    opt := { s.opt with
      engines := engines, sprues := [], swaps := [], fadeQueue := []
      lasers := tmap {} s.opt.lasers darkChan, drops := tmap {} s.opt.drops darkChan }
    lnk := { s.lnk with lanes := tmap {} s.lnk.lanes fun _ x => if x.state = 5 then { clearLane x with state := 8 } else x }
    cru := { s.cru with slots := slots }
    coll := { s.coll with ctxs := ctxs }
    plan := { s.plan with plans := plans }
    sw := { s.sw with queue := [], mcq := [], selfIn := [], runner := [], spilling := [], deepFull := [] }
    pwr := { s.pwr with
      state := 2, ppsOut := false, enterAt := none, drainAt := none, parkPoint := none, wakePending := 0 } }

/-- The rails are down: RETAIN about 20 ms and STANDBY about 50 ms after the PARKED point. -/
def lowPowerEntryDone (s : State) : State :=
  if s.pwr.state == 4 && s.pwr.parkPoint.isSome then
    let src := s.pwr.wakePending
    let s := awaitOpt s s.pwr.parkPoint (if s.pwr.target = 2 then 20 * msT else 50 * msT)
    latchedWake src (if s.pwr.target = 2 then enterRetain s else enterStandby s)
  else s

def execLowPowerEntryDone (s : State) : Out := .next (lowPowerEntryDone s)

/-! ### Wakes: R419 to R421 -/

/-- The next pour time of a plan ARMED or RUNNING. -/
def nextPourTime (s : State) : Option Nat := ((List.range 64).filterMap fun n => (nextTarget s n).map (·.1)).min?

/-- The earliest LAUNCH_TIME held. -/
def nextLaunch (s : State) : Option Nat :=
  ((List.range 4).flatMap fun d => ((launchStore s d).filter fun l => !l.release).map (·.time)).min?

/-- In PARKED the module wakes WAKE_LEAD before the next pour time, and with WAKE_EN bit 2 before the earliest
launch time (R245, R419). -/
def wakeTimer (s : State) : State :=
  if s.pwr.state != 1 || !s.tim.inForce then s
  else
    let launch := if bit (getR s oPWR_CFG) 2 then nextLaunch s else none
    match ((nextPourTime s).toList ++ launch.toList).min? with
    | none => s
    | some t => wake (awaitNt s (t - rf s oPLAN_CFG 25 16 * 1000)) 3

def execWakeTimer (s : State) : Out := .next (wakeTimer s)

def becomeActive (s : State) : State :=
  { s with pwr := { s.pwr with state := 0, target := 0, wakeAt := none, darkAtEntry := [] } }

/-- 50 µs after the wake from PARKED: lanes lock again, with no margin check where they had passed it (R420). -/
def wakeParkedDone (s : State) : State :=
  if s.pwr.state == 5 && s.pwr.wakeFrom == 1 then
    let s := becomeActive (awaitOpt s s.pwr.wakeAt (50 * usT))
    let s := forEach ((s.lnk.lanes.filter fun e => e.2.state == 8).map (·.1)) s fun s q =>
      if linkEnabled s (linkOf q) then
        let st := if !(lane s q).los && engineLit s (engineOfLane q) then 1 else 0
        refreshLink (modLane s q fun x => { clearLane x with state := st, wakeDirect := !x.needFull }) (linkOf q) 0 false
      else s
    followModuleFence s
  else s

def execWakeParkedDone (s : State) : Out := .next (wakeParkedDone s)

/-- 900 ms after the wake from RETAIN the module is ACTIVE (R421), rotations that waited start (R290), and a module
fence that waited comes into force (R422). -/
def wakeRetainDone (s : State) : State :=
  if s.pwr.state == 5 && s.pwr.wakeFrom == 2 then
    followModuleFence (rotAll (becomeActive (awaitOpt s s.pwr.wakeAt (900 * msT))))
  else s

def execWakeRetainDone (s : State) : Out := .next (wakeRetainDone s)

/-- The host takes the PCIe link out of L1: a PCIE wake in RETAIN (R419). -/
def pcieL1Exit (s : State) : State := if s.pwr.state = 2 then wake s 1 else s

def execPcieL1Exit (s : State) : Out := .next (pcieL1Exit s)

/-! ### PERST_N: R432 -/

/-- PERST_N asserts: outside STANDBY the host interface is reset alone. -/
def perstAssert (s : State) : State :=
  if !pinsLive s || s.hlt.perstN then s
  else
    let s := { s with hlt := { s.hlt with perstN := true } }
    if s.pwr.state = 3 then s else hostifReset s

def execPerstNAssert (s : State) : Out := .next (perstAssert s)

/-- PERST_N releases: in STANDBY a PCIE wake. -/
def perstRelease (s : State) : State :=
  if !pinsLive s || !s.hlt.perstN then s
  else
    let s := { s with hlt := { s.hlt with perstN := false } }
    if s.pwr.state = 3 then wake s 1 else s

def execPerstNRelease (s : State) : Out := .next (perstRelease s)

end Sys2Proof.Machine
end

