-- ==== Sys2Proof/Machine/Startup.lean ====
section
/-! DEFINITION. Clocks, resets and the start-up up to trained memory (R412, R425 to R445). -/
namespace Sys2Proof.Machine

/-! ### The always-on domain: R407, R412, R431, R433 -/

/-- VIN enters its range: a power-on reset, with the strap pins as the carrier drives them. -/
def powerOn (bl2 selfHost : Bool) (bootSrc : Nat) (s : State) : State :=
  let s := powerOnReset s
  { s with boot := { s.boot with pinBl2 := bl2, pinSelfHost := selfHost, pinBootSrc := bootSrc % 4 } }

def execPowerOn (bl2 selfHost : Bool) (bootSrc : Nat) (s : State) : Out := .next (powerOn bl2 selfHost bootSrc s)

/-- VIN falls below 36 V: the always-on domain stops, and all that is not fused or in flash is gone. -/
def alwaysOnStop (s : State) : State :=
  let s := powerOnReset s
  { s with pwr := { s.pwr with powered := false, state := 3 } }

def execAlwaysOnDomainStop (s : State) : Out := .next (alwaysOnStop s)

/-- 20 ms after VIN entered its range the inputs are taken: with PWR_GOOD the module starts, without it the
module is in STANDBY (R407, R411). -/
def aonResetEnd (pwrGood fenceN wakeN perstN : Bool) (s : State) : State :=
  if !s.pwr.powered || !s.pwr.aonReset then s
  else
    let s := await s s.pwr.aonSince (20 * msT)
    let s := { s with
               pwr := { s.pwr with aonReset := false, pwrGood := pwrGood, state := if pwrGood then 0 else 3 }
               hlt := { s.hlt with fenceN := fenceN, wakeN := wakeN, perstN := perstN } }
    if pwrGood then beginStart s else s

def execAonResetEnd (pwrGood fenceN wakeN perstN : Bool) (s : State) : Out :=
  .next (aonResetEnd pwrGood fenceN wakeN perstN s)

/-! ### RESET_CTRL: R431, R447 -/

/-- A write of RESET_CTRL by the PF or the self-hosted driver: 1 warm, 2 cold, 0 ignored. -/
def resetWanted (s : State) (f : Func) (v : Word) : Nat :=
  if !mayReach s f || f == .fw || fld v 63 56 != 0x5A then 0
  else match bit v 1, bit v 0 with
    | true, false => 2
    | false, true => 1
    | _, _ => 0

def coldResetReq (f : Func) (v : Word) (s : State) : State := if resetWanted s f v = 2 then coldReset s else s

def execColdReset (f : Func) (v : Word) (s : State) : Out := .next (coldResetReq f v s)

def warmResetReq (f : Func) (v : Word) (s : State) : State := if resetWanted s f v = 1 then warmReset s 2 else s

def execWarmReset (f : Func) (v : Word) (s : State) : Out := .next (warmResetReq f v s)

/-! ### PLLs and crossings: R425, R428, R430 -/

/-- Domains whose clock comes from a PLL. -/
def hasPll (k : Nat) : Bool := [3, 4, 5, 6, 7, 8, 9, 10, 11, 13, 14, 15, 17, 18].contains k

/-- The power state lets a domain's clock run (R425), and the rails that feed it are up. -/
def domainOn (s : State) (k : Nat) : Bool :=
  let st := if k = 15 ∧ s.pwr.railUpTo = 0 ∨ k ≠ 15 ∧ s.pwr.railUpTo < 11 then 3 else s.pwr.state
  let active := st == 0 || st == 4 || st == 5
  if k = 1 ∨ k = 2 then true
  else if k = 16 then false
  else if k = 15 then st != 3
  else if k = 13 ∨ k = 17 then active || st == 1 || st == 2
  else if k = 3 ∨ k = 8 ∨ k = 9 ∨ k = 18 then active || st == 1
  else if k = 12 then active && s.lnk.lanes.any fun e => decide (1 ≤ e.2.state) && decide (e.2.state ≤ 4)
  else active

def setPll (s : State) (k : Nat) (v : Option Nat) : State :=
  { s with boot := { s.boot with pllLost := tset none s.boot.pllLost k v } }

def pllLockLost (k : Nat) (s : State) : State :=
  if s.pwr.powered && hasPll k && domainOn s k && !pllLost s k then setPll s k (some s.now) else s

def execPllLockLost (k : Nat) (s : State) : Out := .next (pllLockLost k s)

def pllRelocked (k : Nat) (s : State) : State := setPll s k none

def execPllRelocked (k : Nat) (s : State) : Out := .next (pllRelocked k s)

/-- 10 ms without lock: a warm reset with cause CLOCK_LOSS. -/
def pllRelockTimeout (k : Nat) (s : State) : State :=
  if pllLost s k then warmReset (awaitOpt s (tget none s.boot.pllLost k) (10 * msT)) 7 else s

def execPllRelockTimeout (k : Nat) (s : State) : Out := .next (pllRelockTimeout k s)

/-- A crossing has waited 64 cycles of its near clock: CDC_TIMEOUT, and CDC_LOG latches the first; a far domain
that the power manager has stopped, domain 12 on idle lanes and domain 16 are no timeouts. -/
def crossingWait (near far : Nat) (s : State) : State :=
  if !s.pwr.powered || !domainOn s near || !domainOn s far then s
  else
    let s := raiseEvent s 0x009 0x7F (at_ 8 near + far) 0
    if bit (getR s oCDC_LOG) 63 then s
    else putR s oCDC_LOG (mkWord [at_ 63 1, at_ 56 near, at_ 48 far, nt32 s])

def execCrossingWaitExpiry (near far : Nat) (s : State) : Out := .next (crossingWait near far s)

/-! ### The pattern flash: R434 to R440 -/

/-- A start is in the stage that MOD_STATUS.STAGE names. -/
def inStage (s : State) (n : Nat) : Bool :=
  s.pwr.powered && s.pwr.pwrGood && s.pwr.state != 3 && s.boot.zeroAt.isSome && s.boot.modState == 0
    && s.boot.stage == n

def setStage (s : State) (n : Nat) : State := { s with boot := { s.boot with stage := n } }

def liveEntries (j : List JournalSlot) : List Word := (j.filter (·.live)).map (·.entry)

/-- The journal of the copy in use; with the defaults copy A's, or B's where A's holds no live entry (R439). -/
def journalInUse (b : Boot) : List JournalSlot :=
  if b.patCopy = 0 then b.journalA
  else if b.patCopy = 1 then b.journalB
  else if liveEntries b.journalA = [] then b.journalB else b.journalA

def noteJournal (s : State) : State :=
  let j := journalInUse s.boot
  { s with boot := { s.boot with
      journalEntries := (liveEntries j).length, journalErr := j.any fun x => !x.live } }

def extendMeas (s : State) (i : Nat) (d : BitVec 384) : State :=
  { s with boot := { s.boot with
      meas := tset 0 s.boot.meas i (sha384Extend (tget 0 s.boot.meas i) d) } }

/-- The copy in use is known: its journal is read and measurement 1 extended (R437, R441). -/
def patternChosen (s : State) (d : BitVec 384) : State := setStage (extendMeas (noteJournal s) 1 d) 1

/-- A pattern copy has been read: A is tried first, then B, then the defaults of ROM (R437, R440). -/
def patternCopyRead (copy : Nat) (image : PatternImage) (journal : List (Word × Word)) (s : State) : State :=
  let want := if s.boot.aRes = 15 then 0 else 1
  if !inStage s 0 || copy != want then s
  else
    let res := patResult s.boot.serial image
    let b := if copy = 0 then { s.boot with aRes := res, journalA := readJournal journal }
      else { s.boot with bRes := res, journalB := readJournal journal }
    if res = 0 then
      patternChosen { s with boot := { b with store := some image, patCopy := copy } } (patDigest image)
    else if copy = 0 then { s with boot := b }
    else patternChosen { s with boot := { b with patDefaulted := true, patCopy := 2 } } Config.romDigest

def execPatternCopyRead (copy : Nat) (image : PatternImage) (journal : List (Word × Word)) (s : State) : Out :=
  .next (patternCopyRead copy image journal s)

/-- A journal with fewer than 256 free slots of its 4,096. -/
def needsCompaction (b : Boot) : Bool := decide (3840 < b.journalA.length) || decide (3840 < b.journalB.length)

/-- Both journals hold their live entries alone again. -/
def journalCompacted (s : State) : State :=
  if inStage s 1 && needsCompaction s.boot then
    { s with boot := { s.boot with
        journalA := s.boot.journalA.filter (·.live), journalB := s.boot.journalB.filter (·.live)
        journalFull := false } }
  else s

def execJournalCompactionDone (s : State) : Out := .next (journalCompacted s)

/-! ### Rails, the main reset and the straps: R415, R433, R441 -/

/-- The nominal voltage of a rail in mV (R415). -/
def railMv (rail : Nat) : Nat := nth 0 [800, 6000, 800, 720, 720, 720, 720, 720, 1050, 500, 1800, 3300] rail

/-- A voltage lies within ±3 % of a rail's. -/
def railHolds (rail mv : Nat) : Bool := decide (97 * railMv rail ≤ 100 * mv) && decide (100 * mv ≤ 103 * railMv rail)

/-- A rail has held within ±3 % for 100 µs: rails 1 to 11 come up in index order. -/
def railUp (rail mv : Nat) (s : State) : State :=
  if inStage s 1 && !needsCompaction s.boot && rail == s.pwr.railUpTo + 1 && decide (rail ≤ 11) && railHolds rail mv then
    { s with pwr := { s.pwr with rails := tset 0 s.pwr.rails rail mv, railUpTo := rail } }
  else s

def execRailUp (rail mv : Nat) (s : State) : Out := .next (railUp rail mv s)

/-- A journal entry of KIND 0 to 3 (R62, R438): a listed laser is not lit, and its lane starts on the spare. -/
def applyOpt (s : State) (e : Word) : State :=
  let n := fld e 59 54
  let k := 256 * n + fld e 53 46
  let serves := fld e 39 35
  let spare : Chan := { state := 2, lane := laneOfKey s (256 * n + 34 * (k % 256 / 34) + serves)
                        colour := fld e 45 40, serves := serves }
  match fld e 62 60 with
  | 0 => setChan s .tx k { state := 8, lane := 0x1FFF }
  | 1 => setChan s .tx k spare
  | 2 => setChan s .rx k { state := 8, lane := 0x1FFF }
  | 3 => setChan s .rx k spare
  | _ => s

/-- PLLs lock, the main reset is released with every main register at its reset value, the straps are sampled,
and the boot ROM starts; BOOT_SRC 2 tries no flash copy (R433). -/
def mainRelease (s : State) : State :=
  if !inStage s 1 || needsCompaction s.boot || s.pwr.railUpTo != 11 then s
  else
    let b := s.boot
    let s := noteJournal { s with
      regs := keepSticky s b.pinBl2
      boot := { b with strapBl2 := b.pinBl2, strapSelfHost := b.pinSelfHost, strapBootSrc := b.pinBootSrc
                       mainUp := true, stage := 2
                       fwState := if b.pinBootSrc = 2 then .failed else .booting
                       modState := if b.pinBootSrc = 2 then 2 else 0 } }
    let s := { s with
               opt := { s.opt with chill := [] }
               sw := { s.sw with reserve := rf s oDEEP_CFG 8 0 } }
    forEach (liveEntries (journalInUse s.boot)) s applyOpt

def execMainResetRelease (s : State) : Out := .next (mainRelease s)

/-! ### Firmware: R361, R433, R441 -/

/-- The flash copies the boot ROM tries, in order (R433). -/
def copyOrder (s : State) : List Nat :=
  match s.boot.strapBootSrc with
  | 1 => [1, 0]
  | 2 => []
  | _ => [0, 1]

/-- Firmware runs: measurement 0 extended, a trip reported, every LASER_EN set (R44, R362, R381, R441). -/
def bootFirmware (s : State) (i : FwImage) (copy : Nat) (st : FwState) : State :=
  let s := extendMeas s 0 (fwDigest i)
  let s := { s with boot := { s.boot with
             fwState := st, fwCopy := copy, fwSvn := fwSvnOf i, fwVersion := fwVersionOf i
             keySlot := (i.keySlot.getD 0).val
             modState := 0, stage := 3
             selfHostFallback := s.boot.strapSelfHost && s.boot.strapBootSrc == 2 } }
  let s := if s.boot.lastCause = 4 ∧ s.hlt.tripLatch then raiseEvent s 0x012 0x7F s.hlt.tripUnit 0 else s
  forEach (List.range 34) s fun s n => beginBringup (putR s (oENGINE n) (getR s (oENGINE n) ||| 1)) n

/-- What a flash copy holds: an image that FW_STAGE wrote there, else the one that the read gave (R363). -/
def flashImage (s : State) (copy : Nat) (i : FwImage) : FwImage :=
  ((s.boot.staged.find? fun e => e.1 == 2 * fwKind i + copy).map (·.2)).getD i

/-- A firmware copy has been read and checked; where neither is accepted firmware has FAILED. -/
def firmwareRead (s : State) (copy : Nat) (i : FwImage) : State :=
  if !inStage s 2 || s.boot.fwState != .booting || (copyOrder s)[s.boot.firmwareTried]? != some copy then s
  else if imageVerdict s 1 i = .accepted then bootFirmware s i copy .running
  else
    let n := s.boot.firmwareTried + 1
    let failed := n == (copyOrder s).length
    { s with boot := { s.boot with
        firmwareTried := n, fwState := if failed then .failed else .booting, modState := if failed then 2 else 0 } }


/-- A self-hosted driver copy has been read and checked; where neither is accepted the strap is set aside. -/
def selfHostRead (s : State) (copy : Nat) (i : FwImage) : State :=
  if !fwRuns s || !selfHosted s || (copyOrder s)[s.boot.selfHostTried]? != some copy then s
  else if imageVerdict s 2 i = .accepted then
    extendMeas { s with boot := { s.boot with selfHostTried := 2 } } 2 (fwDigest i)
  else
    let n := s.boot.selfHostTried + 1
    { s with boot := { s.boot with selfHostTried := n, selfHostFallback := n == (copyOrder s).length } }

def firmwareAccepted (copy : Nat) (image : FwImage) (s : State) : State :=
  let i := flashImage s copy image
  if fwKind image = 2 then selfHostRead s copy i else firmwareRead s copy i

def execFirmwareAccepted (copy : Nat) (image : FwImage) (s : State) : Out := .next (firmwareAccepted copy image s)

/-! ### FABRIC_POS: R18, R19 -/

/-- The lane that a channel carries follows the position (R40). -/
def relane (s : State) (k : Nat) (c : Chan) : Chan :=
  if c.lane = 0x1FFF then c
  else
    let x := k % 256 % 34
    let base := 256 * (k / 256) + 34 * (k % 256 / 34)
    { c with lane := if x < 32 then laneOfKey s k else if c.serves < 32 then laneOfKey s (base + c.serves) else c.lane }

/-- FABRIC_POS takes a value: lanes and spares follow it, and every POSITION received so far is compared anew: lanes
beyond it are in POSITION again (R19, R26, R84). -/
def putFabricPos (s : State) (v : Word) : State :=
  let s := writeReg s oFABRIC_POS v
  let lanes := tmap ({} : Lane) s.lnk.lanes fun _ x =>
    if x.state = 2 ∨ x.state = 3 then
      { x with state := 2, posSeen := false, lastPosSent := 0, quickAt := none, quickSpare := false }
    else x
  let s := { s with
    lnk := { links := tmap {} s.lnk.links fun _ k => { k with margin := none }, lanes := lanes }
    opt := { s.opt with
             lasers := tmap {} s.opt.lasers (relane s), drops := tmap {} s.opt.drops (relane s) } }
  forEach (upTo 2050) s fun s l => positionAdvance (refreshLink s l 9 false) l

/-- Firmware writes FABRIC_POS from the POSITION record, where the image has one (R441). -/
def putPosition (o : Option Word) (s : State) : State :=
  match o with
  | some w => putFabricPos s w
  | none => s

/-- SRAM reads zeros, tables are invalid, and firmware writes FABRIC_POS from the POSITION record. -/
def sramZeroDone (s : State) : State :=
  if !inStage s 3 || !fwRuns s then s
  else
    let s := { s with boot := { s.boot with sramZero := true, stage := if hasStacks s then 4 else 7 } }
    putPosition (s.boot.store.bind patPosition) s

def execSramZeroDone (s : State) : Out := .next (sramZeroDone s)

/-! ### Stacked memory at start: R284, R289, R302, R304, R445 -/

/-- The stack's spare takes over what a failed channel held. -/
def spareTakes (s : State) (k l : Nat) : State :=
  let y := (stk s k).spare
  let s := setMap s l { mapOf s l with stack := k, ch := y }
  let s := modMemCh s k y fun c => { c with state := 0, logical := l }
  modStk s k fun t => { t with spare := noSpare }

/-- A channel that the retirement list gives as FAILED or retired, before training (R284, R302). -/
def listedChannel (s : State) (e : Word) : State :=
  let k := fld e 34 30; let h := fld e 29 24
  let c := memCh s k h
  if c.state ≠ 0 ∧ c.state ≠ 1 then s
  else
    let gone (s : State) : State :=
      modStk (modMemCh s k h fun c => { c with state := 6, logical := 0x3FF }) k fun t => { t with failed := t.failed + 1 }
    if h = (stk s k).spare then modStk (gone s) k fun t => { t with spare := noSpare }
    else if fld e 62 60 = 4 ∧ (stk s k).spare ≠ noSpare then spareTakes (gone s) k c.logical
    else
      markRetired s k h c.logical

/-- A channel fails training or verify (R445). -/
def startFailure (s : State) (e : Nat × Nat) : State :=
  let (k, h) := e
  let c := memCh s k h
  if c.state ≠ 0 ∧ c.state ≠ 1 then s
  else if h = (stk s k).spare then
    noteHealth (modStk (failChannel s k h) k fun t => { t with spare := noSpare })
  else if (stk s k).spare = noSpare then retireLogical s k h
  else noteHealth (spareTakes (failChannel s k h) k c.logical)

/-- The channel map is built: R284 with the retirement list, then what training found. -/
def memTrainDone (failed : List (Nat × Nat)) (s : State) : State :=
  if !inStage s 4 then s
  else
    let listed := (liveEntries (journalInUse s.boot)).filter fun e => fld e 62 60 == 4 || fld e 62 60 == 5
    let s := noteHealth (forEach listed s listedChannel)
    let s := forEach failed s startFailure
    let chans := (upTo 660).foldl (fun t i =>
      if (stk s (i / 33)).temp = 0 then t
      else tset {} t i { memCh s (i / 33) (i % 33) with trainTemp := (stk s (i / 33)).temp }) s.mem.chans
    setStage { s with mem := { s.mem with chans := chans } } 5

def execMemTrainDone (failed : List (Nat × Nat)) (s : State) : Out := .next (memTrainDone failed s)

/-- Every line is written with zeros and valid check (R304). -/
def memZeroDone (s : State) : State :=
  if inStage s 5 then
    setStage { s with mem := { s.mem with lines := [] }, boot := { s.boot with memZero := true } } 6
  else s

def execMemZeroDone (s : State) : Out := .next (memZeroDone s)

end Sys2Proof.Machine
end

