-- ==== Sys2Proof/Machine/Mailbox.lean ====
section
/-! DEFINITION. The firmware mailbox of R363. -/
namespace Sys2Proof.Machine

def mbOK : Nat := 0
def mbBAD_REQUEST : Nat := 1
def mbBAD_IMAGE : Nat := 2
def mbBAD_SIGNATURE : Nat := 3
def mbROLLBACK : Nat := 4
def mbNOT_NOW : Nat := 5
def mbFLASH_ERROR : Nat := 6
def mbDMA_ERROR : Nat := 7

/-- Word i of the request. -/
def mboxReq (s : State) (i : Nat) : Word := getR s (oMBOX_REQ + 8 * i)

/-- Firmware answers: response words from 0 on, DONE and STATUS, BUSY clear. -/
def mboxAnswer (s : State) (status : Nat) (resp : List Word) : State :=
  let words := (List.range resp.length).foldl (fun t i => tset 0 t i (nth 0 resp i)) s.hif.mboxResp
  { s with hif := { s.hif with mboxBusy := false, mboxDone := true, mboxStatus := status, mboxResp := words } }

/-- A request that waits with a message number and firmware that can answer (R361, R444). -/
def mboxWaits (s : State) (msg : Nat) : Bool :=
  hifUp s && s.hif.mboxBusy && fld (mboxReq s 0) 63 56 == msg && s.boot.fwState != .booting

/-- A message that firmware answers only while it runs: NOT_NOW where it has FAILED (R361). -/
def mboxRun (msg : Nat) (s : State) (act : State → State) : State :=
  if !mboxWaits s msg then s else if fwRuns s then act s else mboxAnswer s mbNOT_NOW []

def getInfo (s : State) : State :=
  if mboxWaits s 1 then
    let b := s.boot
    mboxAnswer s mbOK [mkWord [at_ 32 b.fwVersion.toNat, b.fwSvn.toNat],
      mkWord [at_ 32 b.minSvn.toNat, at_ 8 b.fwCopy, at_ 4 (b.revoked % 16), b.keySlot % 16]]
  else s

def execGetInfo (s : State) : Out := .next (getInfo s)

/-- Word w of measurement i, byte 8w in bits [7:0]: the digest's first byte is its most significant. -/
def measWord (s : State) (i w : Nat) : Word :=
  wordAt (digestBytes (tget 0 s.boot.meas i)) w

def getMeasurement (s : State) : State :=
  if mboxWaits s 2 then
    let i := fld (mboxReq s 1) 1 0
    if i = 3 then mboxAnswer s mbBAD_REQUEST []
    else mboxAnswer s mbOK ((List.range 6).map (measWord s i))
  else s

def execGetMeasurement (s : State) : Out := .next (getMeasurement s)

/-- The status of an image that is not accepted. -/
def verdictStatus : ImageVerdict → Nat
  | .accepted => mbOK
  | .badImage => mbBAD_IMAGE
  | .badSignature => mbBAD_SIGNATURE
  | .rollback => mbROLLBACK

/-- The flash copy not booted from; A where firmware came from the host. -/
def otherCopy (s : State) : Nat := if s.boot.fwCopy = 0 then 1 else 0

/-- The image that a request names: as many bytes of what the host gave as W2 says; none where the access fails, which
one beyond the self-host region does (R359, R363). -/
def namedImage (s : State) (i : Option FwImage) : Option FwImage :=
  let n := fld (mboxReq s 2) 31 0
  if selfHosted s && decide (2 ^ 27 < (mboxReq s 1).toNat + n) then none
  else i.map fun i => { i with bytes := i.bytes.take n }

/-- Firmware reads an image from the HOST_ADDR of a request (R363). -/
def readsImage (s : State) : State :=
  emitAll s (dmaReads (mgr s) (mboxReq s 1).toNat (fld (mboxReq s 2) 31 0))

/-- What the check of R361 answers for an image that a request names: one whose body passes its length is bad. -/
def namedVerdict (s : State) (kind : Nat) (i : FwImage) : ImageVerdict :=
  if fld (mboxReq s 2) 31 0 < 256 + fwField i 16 4 then .badImage else imageVerdict s kind i

/-- FW_STAGE: the image is read from the host, checked and written to the other flash copy. -/
def fwStage (image : Option FwImage) (flashOk : Bool) (s : State) : State :=
  mboxRun 3 s fun s =>
    let s := readsImage s
    match namedImage s image with
    | none => mboxAnswer s mbDMA_ERROR []
    | some i =>
      let v := namedVerdict s (if fwKind i = 2 then 2 else 1) i
      if v ≠ .accepted then mboxAnswer s (verdictStatus v) []
      else if !flashOk then mboxAnswer s mbFLASH_ERROR []
      else
        let key := 2 * fwKind i + otherCopy s
        let rest := s.boot.staged.filter fun e => e.1 != key
        mboxAnswer { s with boot := { s.boot with staged := rest ++ [(key, i)] } } mbOK []

def execFwStage (image : Option FwImage) (flashOk : Bool) (s : State) : Out := .next (fwStage image flashOk s)

/-- FW_RECOVER: only where firmware has FAILED; the image from the host boots, and the start goes on. -/
def fwRecover (image : Option FwImage) (s : State) : State :=
  if !mboxWaits s 4 then s
  else if s.boot.fwState ≠ .failed then mboxAnswer s mbNOT_NOW []
  else
    let s := readsImage s
    match namedImage s image with
    | none => mboxAnswer s mbDMA_ERROR []
    | some i =>
      let v := namedVerdict s 1 i
      if v ≠ .accepted then mboxAnswer s (verdictStatus v) []
      else mboxAnswer (bootFirmware s i 2 .recovery) mbOK []

def execFwRecover (image : Option FwImage) (s : State) : Out := .next (fwRecover image s)

/-- SVN_COMMIT: MIN_SVN rises to the SVN of the running firmware. -/
def svnCommit (s : State) : State :=
  mboxRun 5 s fun s =>
    let m := if s.boot.minSvn < s.boot.fwSvn then s.boot.fwSvn else s.boot.minSvn
    mboxAnswer { s with boot := { s.boot with minSvn := m } } mbOK [mkWord [m.toNat]]

def execSvnCommit (s : State) : Out := .next (svnCommit s)

/-- KEY_REVOKE: refused for the slot of the running image. -/
def keyRevoke (s : State) : State :=
  mboxRun 6 s fun s =>
    let k := fld (mboxReq s 1) 1 0
    if k = s.boot.keySlot then mboxAnswer s mbBAD_REQUEST []
    else mboxAnswer { s with boot := { s.boot with revoked := s.boot.revoked ||| 2 ^ k } } mbOK []

def execKeyRevoke (s : State) : Out := .next (keyRevoke s)

/-- A message number of no row: firmware answers BAD_REQUEST when it takes the request (log entry 42). -/
def mboxUnknown (s : State) : Bool := !([1, 2, 3, 4, 5, 6].contains (fld (mboxReq s 0) 63 56))

/-- A write of FW_MBOX_CTRL: ignored with a LENGTH outside 8 to 1,024; DONE is cleared by a 1, and GO starts a
request unless BUSY reads 1 (R363, R366). -/
def mboxCtrlWrite (v : Word) (s : State) : State :=
  if !inR v 10 0 8 1024 then s
  else
    let s := putR s oMBOX_CTRL (BitVec.ofNat 64 (fld v 10 0))
    let s := if bit v 61 then { s with hif := { s.hif with mboxDone := false } } else s
    if !bit v 63 || s.hif.mboxBusy then s
    else
      let s := { s with hif := { s.hif with mboxBusy := true, mboxDone := false } }
      if mboxUnknown s && s.boot.fwState != .booting then mboxAnswer s mbBAD_REQUEST [] else s

end Sys2Proof.Machine
end

