-- ==== Sys2Proof/Machine/Registers.lean ====
section
/-! DEFINITION. Writes of BAR0 (R10 to R15, R20, R332) and of the registers with a row of their own; the last two
steps of a start (R441, R442), which apply REG_INIT. -/
namespace Sys2Proof.Machine

/-! ### GLOBAL: R15, R19, R20, R447 -/

def resetCtrlWrite (f : Func) (v : Word) (s : State) : State :=
  match resetWanted s f v with
  | 1 => warmReset s 2
  | 2 => coldReset s
  | _ => s

/-- FABRIC_POS: a write that sets VALID with a PLANE beyond the fabric's, or that changes a field while a link is
neither DOWN nor DISABLED, is ignored as a whole (R20). -/
def fabricPos (v : Word) (s : State) : State :=
  let i := regInfo s.variant s.boot.strapBl2 oFABRIC_POS
  let old := getR s oFABRIC_POS
  let new : Word := BitVec.ofNat 64 (applyWrite i (lockedAt s oFABRIC_POS) old.toNat v.toNat)
  let busy := s.lnk.links.any fun e => e.2.state != 0 && e.2.state != 4
  if new = old ∨ (bit new 16 ∧ fld new 23 21 < fld new 2 0) ∨ busy then s else putFabricPos s v

def fabricPosWrite (f : Func) (v : Word) (s : State) : State := if mayReach s f then fabricPos v s else s

def execFabricPosWrite (f : Func) (v : Word) (s : State) : Out := .next (fabricPosWrite f v s)

/-- A 1 written to GLOBAL_LOCK or TBL_LOCK (R15). -/
def blockLock (f : Func) (tbl : Bool) (s : State) : State :=
  if tbl then if mayWriteMain s f then writeReg s oTBL_LOCK 1 else s
  else if mayReach s f then writeReg s oLOCK 1 else s

def execBlockLockSet (f : Func) (tbl : Bool) (s : State) : Out := .next (blockLock f tbl s)

def writeGlobal (f : Func) (off : Nat) (v : Word) (s : State) : State :=
  if off = 0x40 then resetCtrlWrite f v s
  else if off = oFABRIC_POS then fabricPos v s
  else writeReg s off v

/-! ### POWER and CLOCK, TIME: R329, R424, R448 -/

/-- PWR_CTRL: GO 0 and reserved targets are ignored. -/
def pwrCtrlWrite (f : Func) (v : Word) (s : State) : State :=
  if !bit v 8 then s
  else match fld v 2 0 with
    | 0 => pwrReqActive f s
    | 1 => pwrReqParked f s
    | 2 => pwrReqRetain f s
    | 3 => pwrReqStandby f s
    | _ => s

/-- PWR_FAULT: VALID written 0 clears the register; with VALID 1 its fields are written like any RWS field (R13, R424). -/
def writePower (f : Func) (off : Nat) (v : Word) (s : State) : State :=
  if off = 0x100000 then pwrCtrlWrite f v s
  else if off = oPWR_FAULT then if bit v 63 then writeReg s oPWR_FAULT v else putR s oPWR_FAULT 0
  else writeReg s off v

def writeTime (f : Func) (off : Nat) (v : Word) (s : State) : State :=
  if off = 0x200000 then
    let s := if bit v 2 then timeSwitch f s else s
    timeReacq f (bit v 0) (bit v 1) s
  else if off = oDOM_CFG 0 then domCfgWrite f 0 v s
  else if off = oDOM_CFG 1 then domCfgWrite f 1 v s
  else writeReg s off v

/-! ### HOSTIF: R332, R340, R342, R366 -/

/-- Word k of a function's MSI-X table; a pending vector that is unmasked is sent (R331, log entry 7). -/
def msixWrite (f : Func) (k : Nat) (v : Word) (s : State) : State :=
  let n := msixBase f + k / 2
  let w : Word := if k % 2 = 1 then BitVec.ofNat 64 (v.toNat % 2 ^ 33) else v
  let s := setMsixWord s (2 * n + k % 2) w
  if k % 2 = 1 && !bit w 32 && bit (tget 0 s.hif.pba (n / 64)) (n % 64) then emit (setPba s n false) (.msix f (k / 2))
  else s

/-- RING_BASE, RING_CFG and RING_ASSIGN of a ring, by the offset within its 32 bytes. -/
def ringRegWrite (f : Func) (k : RingKind) (i o : Nat) (v : Word) (s : State) : State :=
  match o with
  | 0x00 => ringBaseWrite f k i v s
  | 0x08 => ringCfgWrite f k i v s
  | 0x18 => match k with
    | .cmd => ringAssignWrite f i v s
    | _ => s
  | _ => s

def writeHif (f : Func) (off : Nat) (v : Word) (s : State) : State :=
  if off = oMBOX_CTRL then mboxCtrlWrite v s
  else if 0x450000 ≤ off ∧ off < 0x450400 then writeReg s off v
  else if s.boot.fwState = .failed then s
  else if 0x410000 ≤ off ∧ off < 0x412000 then ringRegWrite f .cmd ((off - 0x410000) / 32) (off % 32) v s
  else if 0x420000 ≤ off ∧ off < 0x422000 then ringRegWrite f .cq ((off - 0x420000) / 32) (off % 32) v s
  else if 0x430000 ≤ off ∧ off < 0x430200 then ringRegWrite f .eq ((off - 0x430000) / 32) (off % 32) v s
  else if 0x431000 ≤ off ∧ off < 0x431800 then ringRegWrite f .tdma ((off - 0x431000) / 32) (off % 32) v s
  else if 0x432000 ≤ off ∧ off < 0x432080 then ringRegWrite f .pload ((off - 0x432000) / 32) (off % 32) v s
  else if 0x440000 ≤ off ∧ off < 0x441000 then msixWrite .pf ((off - 0x440000) / 8) v s
  else s

/-! ### OPTICS, LINK and SWITCH: R73, R111, R135, R149 -/

def writeOptics (f : Func) (off : Nat) (v : Word) (s : State) : State :=
  let n := (off - oENGINE 0) / 0x10000
  if n < 34 ∧ off = oENGINE n then if bit v 0 then laserEnSet f n v s else laserEnClear f n v s
  else writeReg s off v

/-- CM_CFG: where CM_THRESH changes, the time that Q has been beyond it starts anew (R103, R145). -/
def cmCfgWrite (v : Word) (s : State) : State :=
  let t := writeReg s oCM_CFG v
  if rf t oCM_CFG 15 0 = rf s oCM_CFG 15 0 then t
  else forEach (s.lnk.links.map (·.1)) t fun s l =>
    noteQ (modLink s l fun k => { k with highSince := none, lowSince := none }) l

def writeLink (f : Func) (off : Nat) (v : Word) (s : State) : State :=
  let n := (off - oLINK_CFG 0) / 0x20
  if off = oCM_CFG then cmCfgWrite v s
  else if n < 2050 ∧ off = oLINK_CFG n then if bit v 0 then linkEnable f n v s else linkDisable f n v s
  else writeReg s off v

/-- The most cell times of a frame that any group or input has reserved (R135). -/
def resvPeak (s : State) : Nat :=
  let count (p : Resv → Nat) (g : Nat) : Nat := (s.sw.resv.filter fun r => p r == g).length
  s.sw.resv.foldl (fun m r => max m (max (count (·.inGroup) r.inGroup) (count (·.outGroup) r.outGroup))) 0

/-- Module-wide registers appear in every die's page; RESV_MAX is not taken below what is reserved. -/
def writeSwitch (off : Nat) (v : Word) (s : State) : State :=
  let o := (off - oSW_CTRL) % 0x200000
  if o < 0x1000 then
    if oSW_CTRL + o = oGATE_CFG ∧ fld v 9 0 < resvPeak s then s else writeReg s (oSW_CTRL + o) v
  else writeReg s off v

/-! ### TABLES, CRUCIBLE and PLAN, MEMORY: R33, R182, R213, R218, R242, R251, R310 -/

/-- TBL_CFG: a window that has been open longer than the new limit raises RECAST_LONG at once (R33). -/
def tblCfg (v : Word) (s : State) : State := forEach (List.range 65) (writeReg s oTBL_CFG v) recastLong

def tblCfgWrite (f : Func) (v : Word) (s : State) : State := if mayWriteMain s f then tblCfg v s else s

def execTblCfgWrite (f : Func) (v : Word) (s : State) : Out := .next (tblCfgWrite f v s)

def writeTables (off : Nat) (v : Word) (s : State) : State :=
  if off = oTBL_CFG then tblCfg v s
  else if off = oTBL_SEED then if s.tbl.em.isEmpty then writeReg s off v else s
  else writeReg s off v

/-- Slots that a move of the pool's boundary crosses are in use (R213). -/
def poolBlocked (s : State) (new : Nat) : Bool :=
  let old := dynSlots s
  s.cru.slots.any fun e =>
    e.2.use != 0 && decide (512 - max old new ≤ e.1 % 512) && decide (e.1 % 512 < 512 - min old new)

def writePlan (off : Nat) (v : Word) (s : State) : State :=
  if off = oCRU_POOL then if poolBlocked s (min 512 (fld v 9 0)) then s else writeReg s off v
  else if off = oPLAN_CFG then if fld v 9 0 < bwUsed s then s else writeReg s off v
  else if 0x2110000 ≤ off ∧ off < 0x2118000 then
    if bit v 0 then modPlan s ((off - 0x2110000) / 8) fun p => { p with sprueFailed := false } else s
  else writeReg s off v

/-- A write of MEM_ROT_REQ (R290). -/
def memRotReqWrite (f : Func) (v : Word) (s : State) : State := if mayWriteIn s f 9 then memRotReq v s else s

def execMemRotReqWrite (f : Func) (v : Word) (s : State) : Out := .next (memRotReqWrite f v s)

def writeMem (off : Nat) (v : Word) (s : State) : State :=
  if off = 0x3200010 then memRotReq v s
  else if off = oMEM_ROT_CFG then rotAll (writeReg s off v)
  else writeReg s off v

/-! ### HEALTH and EVENTS: R375, R381, R384 -/

/-- PIN_STATUS: FENCE_UNSTABLE is W1C, WAKE_REARM re-arms WAKE_N. -/
def pinStatusWrite (f : Func) (v : Word) (s : State) : State :=
  let s := if bit v 4 then fenceUnstableClear f s else s
  if bit v 7 then wakeRearm f s else s

/-- THERM_STATUS has two RWS fields: TRIP_LATCH written 0 clears TRIP_SRC too (R13, R384). -/
def writeHealth (f : Func) (off : Nat) (v : Word) (s : State) : State :=
  let n := (off - 0x3801000) / 8
  if off = 0x3800018 then pinStatusWrite f v s
  else if off = 0x3800028 then
    { s with hlt := { s.hlt with tripLatch := bit v 2, tripSrc := if bit v 2 then fld v 15 12 else 0 } }
  else if n < 2050 ∧ off = 0x3801000 + 8 * n then if bit v 0 then linkFenceSet f n s else linkFenceClear f n s
  else writeReg s off v

/-! ### BAR0: R10, R11, R332, R415, R417 -/

/-- Blocks on the HIF rail: they answer in RETAIN too. -/
def onHifRail (off : Nat) : Bool :=
  decide (off < 0x200000) || (decide (0x400000 ≤ off) && decide (off < 0x800000))
    || (decide (0x3800000 ≤ off) && decide (off < 0x3C00000))

/-- What a FAILED module still takes (R361): GLOBAL and the mailbox. -/
def offeredFailed (off : Nat) : Bool := decide (off < 0x100000) || (decide (0x400000 ≤ off) && decide (off < 0x800000))

/-- A 64-bit write to the BAR0 of the PF, or of who stands for it. -/
def writePf (f : Func) (off : Nat) (v : Word) (s : State) : State :=
  if !mayReach s f || (s.boot.fwState == .failed && !offeredFailed off) || (!onHifRail off && !mainAlive s) || !crosses s off then s
  else if off < 0x100000 then writeGlobal f off v s
  else if off < 0x200000 then writePower f off v s
  else if off < 0x400000 then writeTime f off v s
  else if off < 0x800000 then writeHif f off v s
  else if off < 0xC00000 then writeOptics f off v s
  else if off < 0x1000000 then writeLink f off v s
  else if off < 0x1800000 then writeSwitch off v s
  else if off < 0x2000000 then writeTables off v s
  else if off < 0x2800000 then writePlan off v s
  else if off < 0x3000000 then writeReg s off v
  else if off < 0x3800000 then writeMem off v s
  else if off < 0x3C00000 then writeHealth f off v s
  else writeReg s off v

/-- A 64-bit write to the BAR0 of VF n: the registers of its rings and its MSI-X table (R332). -/
def writeVf (n off : Nat) (v : Word) (s : State) : State :=
  if !barUp s (.vf n) || s.boot.fwState == .failed || !s.hif.vfs.contains n then s
  else if off = 0x1400 ∨ off = 0x1408 then ringRegWrite (.vf n) .tdma n (off % 32) v s
  else if 0x1000 ≤ off ∧ off < 0x1400 then
    let o := off % 0x100
    match slotIndex s n ((off - 0x1000) / 0x100), o / 0x20, o % 0x20 with
    | none, _, _ => s
    | some i, 0, x => if x < 0x10 then ringRegWrite (.vf n) .cmd i x v s else s
    | some i, 1, x => ringRegWrite (.vf n) .cq i x v s
    | some i, 2, x => if i < 16 then ringRegWrite (.vf n) .eq i x v s else s
    | _, _, _ => s
  else if 0x2000 ≤ off ∧ off < 0x2040 then msixWrite (.vf n) ((off - 0x2000) / 8) v s
  else s

/-- A write of BAR0: an access of another width or alignment has no effect (R11). -/
def registerWrite (f : Func) (off bytes : Nat) (v : Word) (s : State) : State :=
  if bytes ≠ 8 ∨ off % 8 ≠ 0 then s
  else match f with
    | .vf n => writeVf n off v s
    | _ => writePf f off v s

def execRegisterWrite (f : Func) (off bytes : Nat) (v : Word) (s : State) : Out :=
  .next (registerWrite f off bytes v s)

/-! ### The end of a start: R441, R442, R445 -/

/-- REG_INIT: firmware writes the pairs in order, as the PF would (R436). -/
def regInit (s : State) : State :=
  let s := match s.boot.store with
    | some p => (patRegInit p).foldl (fun (s : State) (e : Nat × Word) => registerWrite .fw e.1 8 e.2 s) s
    | none => s
  { s with boot := { s.boot with regInitDone := true } }

/-- Every line has been read back; channels that failed are replaced or retired, and REG_INIT is applied. -/
def memVerifyDone (failed : List (Nat × Nat)) (s : State) : State :=
  if !inStage s 6 then s
  else
    let s := forEach failed s startFailure
    regInit { s with boot := { s.boot with memVerified := true, stage := 7 } }

def execMemVerifyDone (failed : List (Nat × Nat)) (s : State) : Out := .next (memVerifyDone failed s)

/-- The conditions of READY that are left at the last stage: every engine READY or FAULT (R442). -/
def enginesDone (s : State) : Bool := (List.range 34).all fun n => (engine s n).state == 2 || (engine s n).state == 3

def readyNow (s : State) : Bool :=
  inStage s 7 && fwRuns s && s.boot.sramZero && (!hasStacks s || (s.boot.memZero && s.boot.memVerified))

/-- The module is READY: READY_MS, the module fence, and the margin tests of lanes that wait in POSITION; with the ROM
defaults every engine starts its first calibration pass (R440). A -M
module, which has no memory stage, applies REG_INIT here (log entry 45). -/
def moduleReady (s : State) : State :=
  if !readyNow s then s
  else
    let s := if s.boot.regInitDone then s else regInit s
    if !enginesDone s || !inStage s 7 then s
    else
      let ms := since s (s.boot.zeroAt.getD s.now) / msT
      let s := { s with boot := { s.boot with modState := 1, stage := 8, readyMs := min 0xFFFF ms } }
      let s := if s.pwr.state = 5 then becomeActive s else s
      let s := forEach (upTo 2050) s positionAdvance
      let s := if s.boot.patDefaulted then
          forEach ((List.range 34).filter fun n => mayPass s n) s beginPass
        else s
      noteHealth (followModuleFence s)

def execModuleReady (s : State) : Out := .next (moduleReady s)

end Sys2Proof.Machine
end

