-- ==== Sys2Proof/Machine/Ingress.lean ====
section
/-! DEFINITION. Frames that arrive (R31, R92 to R105, R158, R161, R170): header checks, source and location checks,
consumption at SELF_EID, forwarding. -/
namespace Sys2Proof.Machine

/-! ### Header checks: R93, R105 -/

/-- A header as the link's protocol spells it, in its BL3 form; the payload is what LENGTH says (R92, R107). -/
def readFrame (bl2 : Bool) (hdr : List Word) (payload : List Byte) : Frame :=
  let f := if bl2 then bl2Dec hdr [] else bl3Dec hdr []
  { f with payload := sliceB payload 0 (min 4096 f.length) }

def hcrcOk (bl2 : Bool) (hdr : List Word) : Bool := if bl2 then bl2CrcOk hdr else bl3CrcOk hdr

/-- A header check fails on a good block: the block is fetched again; a second failure kills the lane (R105). The causes
of LANE_DEAD that the spec lists name no such death: the lane retry has failed, and it is cause 3, RETRY_EXHAUSTED (DESIGN
CHOICE, log entry 67). -/
def hcrcFailed (s : State) (q : Nat) : State :=
  let s := bump s (cLink (linkOf q) 8)
  if (lane s q).hcrcBad then noteHealth (laneDie s q 3 true false)
  else sendRetry (modLane s q fun x => { x with hcrcBad := true }) q 1

/-- RECEIVED of a link's class takes a frame's cells, or the frame is an overrun: past the CREDIT that the spine has
sent, which starts at the grant (R100, R102). -/
def takeCells (s : State) (q : Nat) (f : Frame) (cells : Nat) : Option State :=
  let l := linkOf q
  let k := link s l
  let got := tget 0 k.received f.tc
  let sent := tget 0 k.creditSent f.tc
  let room := (sent + 2 ^ 24 - got) % 2 ^ 24
  if 2 ^ 23 ≤ room ∨ room < cells then none
  else some (setLink s l { k with received := tset 0 k.received f.tc ((got + cells) % 2 ^ 24) })

def overrun (s : State) (q : Nat) (f : Frame) : State :=
  let l := linkOf q
  sendResync (raiseEvent s 0x206 (partLink l) (l + at_ 16 f.tc) (tget 0 (link s l).received f.tc)) q f.tc

/-- A frame is dropped with no answer: its cells are freed (R100, R119). -/
def dropFrame (s : State) (q : QFrame) : State := freeCredit s q.inLink q.f.tc (inCells q)

/-- A frame of a type or class that is not accepted; one of the spine's own has no ingress link to count it at. -/
def badType (s : State) (q : QFrame) : State :=
  refuse (if q.inLink = 0xFFF then s else bump s (cLink q.inLink 9)) q nkBAD_TYPE 0

def undefinedEid (e : Nat) : Bool := e == 0 || e == 0xFFFFFF

/-! ### The location check: R169, R170 -/

/-- LINK, MOVES and LEARNED of an EID's location entry, and LINK and SPRAY_MASK of its route entry, follow it. -/
def learn (s : State) (eid l : Nat) : State :=
  let w := tget (0 : Word) s.tbl.route eid
  let w := setFld (setFld w 42 32 l) 50 43 (2 ^ (l % 8))
  let v := (tget (0 : BitVec 32) s.tbl.loc eid).toNat
  let v := at_ 31 1 + at_ 30 (b2n (v.testBit 30)) + at_ 29 1 + at_ 16 l + min 0xFFFF (v % 2 ^ 16 + 1)
  { s with tbl := { s.tbl with
    route := tset 0 s.tbl.route eid w, loc := tset 0 s.tbl.loc eid (BitVec.ofNat 32 v) } }

/-- LOCATION_VIOLATION once per EID per second; its counter counts every frame. -/
def locationViolation (s : State) (eid part recorded l : Nat) : State :=
  let last := tget 0 s.tbl.violAt eid
  if last ≠ 0 ∧ s.now + 1 < last + secT then countEvent s 0x401
  else
    raiseEvent { s with tbl := { s.tbl with violAt := tset 0 s.tbl.violAt eid (s.now + 1) } } 0x401 part eid
      (at_ 16 recorded + l)

/-- A location mismatch on leaf link l: learned, deferred, or a violation and then none. With no valid
location entry the recorded link that LOCATION_VIOLATION carries is the LINK of the route entry (DESIGN CHOICE, log
entry 69). -/
def locationCheck (s : State) (eid l : Nat) (route : Word) : State × Bool :=
  let part := rtPart route
  let loc := locOf s eid
  let static := loc.testBit 31 && loc.testBit 30
  if static || !(window s part).isOpen then
    (locationViolation s eid part (if loc.testBit 31 then loc / 2 ^ 16 % 2048 else rtLink route) l, false)
  else if (window s part).lock || !bit (getR s oTBL_CFG) 0 then (bump s (cMod 1), true)
  else (learn (bump s (cMod 0)) eid l, true)

/-! ### What becomes of a frame: R95, R114, R158, R161, R168 -/

/-- A MGMT frame addressed to SELF_EID: an IPv6 packet goes through the trie, anything else to the cores (R168). -/
def mgmtFrame (q : QFrame) (s : State) : State :=
  let s := dropFrame s q
  if leAt q.f.payload 0 1 / 16 = 6 then routePacket s q.die q.f.payload else emit s (.packet none q.f.payload)

/-- An EID of CTX_RING in force: a lateral neighbour's SELF_EID. -/
def ringEid (s : State) (e : Nat) : Bool :=
  (bit (getR s oCTX_RING) 49 && rf s oCTX_RING 47 24 == e) || (bit (getR s oCTX_RING) 48 && rf s oCTX_RING 23 0 == e)

/-- A frame addressed to SELF_EID from a source in partition p (R95, R105). A lateral neighbour's partial comes as the
COLL_RESULT of its SEND and is taken as its contribution (R267, log entry 78). -/
def consume (q : QFrame) (p : Nat) (s : State) : State :=
  let t := q.f.type
  if t = tMGMT then mgmtFrame q s
  else if t = tCONTRIB ∨ t = tCOMBINE ∨ (t = tRESULT ∧ ringEid s q.f.src) then contribution q s
  else if t = tPUT ∨ t = tGET ∨ t = tATOMIC then memRequest q p s
  else badType s q

/-- A frame addressed to SELF_EID is consumed once it has arrived whole (R117). -/
def selfFrame (q : QFrame) (p : Nat) (s : State) : State :=
  if q.rx = 0 then consume q p s else modLane s q.inLane fun x => { x with rxPend := some (q, p) }

/-- A multicast frame from a source in partition p (R161). -/
def multicast (q : QFrame) (p : Nat) (s : State) : State :=
  let e := mcastOf s (q.f.dest % 2 ^ 16)
  if !mcValid e || !reaches s p (mcOwner e) then answer q (s, nkUNREACHABLE)
  else mcEnter s q (mcMembers s e)

/-- Steps 2 to 7 of R158. -/
def lookup (q : QFrame) (s : State) : State :=
  let l := q.inLink
  let src := routeOf s q.f.src
  let leaf := decide (l < 2048)
  if !rtValid src || (leaf && rtPart src != l / 32 && rtPart src != 64) then
    let who := if rtValid src then rtPart src else 0x7F
    dropFrame (raiseEvent s 0x20C (partEid s q.f.src) l (at_ 24 who + q.f.src)) q
  else
    let mismatch := leaf && !(sprayOf src).contains l
    let r := if mismatch then locationCheck s q.f.src l src else (s, true)
    let q := { q with store := q.store || mismatch }
    if !r.2 then dropFrame r.1 q
    else if !q.f.mc && selfEid r.1 == some q.f.dest then selfFrame q (rtPart src) r.1
    else if q.f.mc then multicast q (rtPart src) r.1
    else answer q (routeFrame r.1 q (rtPart src) leaf)

/-- The checks of R105 on a frame whose header is good. -/
def checkFrame (q : QFrame) (s : State) : State :=
  let f := q.f
  if f.tc = 0 ∧ f.type = tLINKCTL ∧ f.ver = 3 then dropFrame s q
  else if f.ver ≠ 3 ∨ !typeOk f.type f.tc then badType s q
  else if 4096 < f.length then refuse (bump s (cLink q.inLink 10)) q nkBAD_LENGTH 0
  else if f.mc ∧ f.dest / 2 ^ 16 ≠ 1 then refuse (bump s (cLink q.inLink 11)) q nkBAD_ADDRESS 0
  else if undefinedEid f.src ∨ undefinedEid f.dest then
    dropFrame (raiseEvent s 0x20B (partEid s f.src) q.inLink (at_ 24 f.src + f.dest)) q
  else if f.detour ∧ q.inLink < 2048 then
    lookup { q with f := { f with detour := false } } (bump s (cLink q.inLink 7))
  else lookup q s

/-- A frame as it enters on a lane; `part` while later cells of it are still to come (R114, R117). -/
def inFrame (s : State) (q : Nat) (f : Frame) (part : Bool) : State × QFrame :=
  let l := linkOf q
  let i := freshId s
  (i.1, {
    id := i.2, f := f, inGroup := groupOfLane q, inLink := l, inLane := q, inBl2 := (link s l).bl2, die := dieOfLane q
    born := s.now, arriveNs := nt32 s, store := !bit (getR s oSW_CTRL) 0, rx := if part then i.2 else 0 })

/-- The frame's cells found their credits, or overran them (R102). -/
def arriveIn (s : State) (fr : QFrame) : Option State → State
  | none => overrun s fr.inLane fr.f
  | some s =>
    let l := fr.inLink
    let s := bumpN (bump s (cLink l 0)) (cLink l 2) (inCells fr)
    if fenced s l then dropFrame (bump s (cLink l 16)) fr else checkFrame fr s

/-- A frame whose header check holds arrives on an UP lane: the tap of every such frame, then credits, counters and the
fence (R102, R105, R143, R368). -/
def arrive (s : State) (q : Nat) (f : Frame) (part : Bool) : State :=
  let i := inFrame s q f part
  let s := tapFrame i.1 i.2.die i.2 f false i.2.inBl2
  arriveIn s i.2 (takeCells s q f (inCells i.2))

/-- A frame arrives on a lane (R87, R93). -/
def frameReceive (q : Nat) (hdr : List Word) (payload : List Byte) (s : State) : State :=
  let bl2 := (link s (linkOf q)).bl2
  let f := readFrame bl2 hdr payload
  if (lane s q).state ≠ 4 then bumpN s (cLane q 6) (cellsOf bl2 f.length)
  else if !hcrcOk bl2 hdr then hcrcFailed s q
  else arrive (modLane s q fun x => { x with hcrcBad := false }) q f false

def execFrameReceive (lane : Nat) (hdr : List Word) (payload : List Byte) (s : State) : Out :=
  .next (frameReceive lane hdr payload s)

/-- A frame of a type the row names, addressed to the spine; any other is left to FRAME_RECEIVE. -/
def forSelf (s : State) (t q : Nat) (hdr : List Word) : Bool :=
  let f := readFrame (link s (linkOf q)).bl2 hdr []
  f.type == t && !f.mc && selfEid s == some f.dest

def selfReceive (t q : Nat) (hdr : List Word) (payload : List Byte) (s : State) : State :=
  if forSelf s t q hdr then frameReceive q hdr payload s else s

/-- A contribution with the ECC errors that the crucible finds as it takes it (R215). -/
def cruReceive (t q : Nat) (hdr : List Word) (p : CruPayload) (s : State) : State :=
  if forSelf s t q hdr then frameReceive q hdr p.bytes (arrivalEcc s p.ecc) else s

def execCollContribReceive (lane : Nat) (hdr : List Word) (payload : CruPayload) (s : State) : Out :=
  .next (cruReceive tCONTRIB lane hdr payload s)

def execCollCombineReceive (lane : Nat) (hdr : List Word) (payload : CruPayload) (s : State) : Out :=
  .next (cruReceive tCOMBINE lane hdr payload s)

def execMemPutReceive (lane : Nat) (hdr : List Word) (payload : List Byte) (s : State) : Out :=
  .next (selfReceive tPUT lane hdr payload s)

def execMemGetReceive (lane : Nat) (hdr : List Word) (payload : List Byte) (s : State) : Out :=
  .next (selfReceive tGET lane hdr payload s)

def execMemAtomicReceive (lane : Nat) (hdr : List Word) (payload : List Byte) (s : State) : Out :=
  .next (selfReceive tATOMIC lane hdr payload s)

end Sys2Proof.Machine
end

