-- ==== Sys2Proof/Machine/Blocks.lean ====
section
/-! DEFINITION. Blocks that arrive on a lane (R77 to R80, R84 to R90). -/
namespace Sys2Proof.Machine

/-! ### The header of R77 -/

def hSeq (h : BitVec 40) : Nat := h.toNat / 2 ^ 28
def hAck (h : BitVec 40) : Nat := h.toNat / 2 ^ 16 % 4096
def hNoseq (h : BitVec 40) : Bool := h.toNat.testBit 9

/-- Cell slot i holds a control cell. -/
def hCtl (h : BitVec 40) (i : Nat) : Bool := h.toNat.testBit (15 - i)

/-- HCRC8 matches (R77). -/
def hcrcGood (h : BitVec 40) : Bool := hcrc8 h.toNat == h.toNat % 256

def dataCells (h : BitVec 40) (cells : List (List Byte)) : List (List Byte) :=
  ((List.range 5).filter fun i => !hCtl h i).map fun i => sliceB (nth [] cells i) 0 256

/-! ### Ordered sets: R80, R105 -/

/-- One ordered set with a good CRC, on the colour that data are taken from. -/
def takeOs (s : State) (q type : Nat) (b : BitVec 104) : State :=
  match type with
  | 0x01 => heartbeatReceive q b s
  | 0x02 => creditReceive q false b s
  | 0x03 => creditReceive q true b s
  | 0x04 => creditResync q b s
  | 0x05 => retryReceive q b s
  | 0x10 => positionReceive q b s
  | 0x11 => marginReport q b s
  | 0x12 => match bf b 103 96 with
    | 1 => linkctlQuiesce q b s
    | 2 => linkctlResume q b s
    | 3 => linkctlDisable q b s
    | _ => osIllegal s q
  | 0x20 => swRequestReceive q b s
  | 0x21 => swReadyReceive q b s
  | 0x22 => swMarkReceive q false b s
  | 0x23 => swDoneReceive q b s
  | 0x24 => swNakReceive q b s
  | 0x30 => timeSyncReceive q b s
  | 0x31 => timeDelayReqReceive q b s
  | 0x32 => timeDelayRespReceive q b s
  | 0x33 => timeAnnounceReceive q b s
  | _ => osIllegal s q

/-- The sixteen ordered sets of a control cell, in slot order. -/
def takeCell (q : Nat) (s : State) (cell : List Byte) : State :=
  forEach (List.range 16) s fun s i =>
    match osDec (sliceB cell (16 * i) 16) with
    | none => s
    | some none => osIllegal s q
    | some (some (t, b)) => takeOs s q t b

/-! ### Frames from data cells: R79 -/

/-- Cells of the frame that starts with a data cell. -/
def cellCount (bl2 : Bool) (cell : List Byte) : Nat :=
  cellsOf bl2 (readFrame bl2 (wordsOf cell 4) []).length

/-- Every frame that starts in these cells passes its header check; n cells of the present frame remain. -/
def headersOk (bl2 : Bool) : Nat → List (List Byte) → Bool
  | _, [] => true
  | 0, c :: rest =>
    hcrcOk bl2 (wordsOf c 4) && headersOk bl2 (cellCount bl2 c - 1) rest
  | n + 1, _ :: rest => headersOk bl2 n rest

/-- One more cell of a frame that is still arriving; with the last it is whole. -/
def growFrame (id : Nat) (last : Bool) (cell : List Byte) (f : QFrame) : QFrame :=
  if f.rx = id then
    { f with
      rx := if last then 0 else id
      f := { f.f with payload := f.f.payload ++ cell.take (f.f.length - f.f.payload.length) } }
  else f

/-- The first cell of a frame: its header is read and the frame enters, with what has come of its payload (R115,
R117). -/
def firstCell (q : Nat) (s : State) (cell : List Byte) : State :=
  let bl2 := (link s (linkOf q)).bl2
  let n := cellCount bl2 cell
  let body := cell.drop (hdrBytes bl2)
  let f := readFrame bl2 (wordsOf cell 4) body
  let s := modLane s q fun x => { x with
    rx := if n = 1 then [] else [cell], rxRemain := n - 1, rxId := if n = 1 then 0 else s.sw.nextId, rxPend := none }
  arrive s q { f with payload := f.payload.take body.length } (n != 1)

/-- A further cell of the arriving frame: it goes where the frame stands, and a frame for the spine itself is consumed
with its last cell. -/
def nextCell (q : Nat) (s : State) (cell : List Byte) : State :=
  let x := lane s q
  let last := x.rxRemain == 1
  let grow := growFrame x.rxId last cell
  let s := { s with sw := { s.sw with
    queue := s.sw.queue.map grow, mcq := s.sw.mcq.map fun m => { m with q := grow m.q } } }
  if !last then modLane s q fun x => { x with rx := x.rx ++ [cell], rxRemain := x.rxRemain - 1 }
  else
    let s := modLane s q fun x => { x with rx := [], rxRemain := 0, rxId := 0, rxPend := none }
    match x.rxPend with
    | none => s
    | some (f, p) =>
      let bytes := (x.rx ++ [cell]).flatten
      consume { f with rx := 0, f := readFrame f.inBl2 (wordsOf bytes 4) (bytes.drop (hdrBytes f.inBl2)) } p s

/-- A data cell of the lane's frame stream (R79, R87). -/
def takeData (q : Nat) (s : State) (cell : List Byte) : State :=
  if (lane s q).state ≠ 4 then bump s (cLane q 6)
  else if (lane s q).rxRemain = 0 then firstCell q s cell
  else nextCell q s cell

/-! ### Lock, acknowledgement and sequence: R78, R84, R87, R89, R90 -/

/-- FEC counters of a block (R393). -/
def fecCount (s : State) (q : Nat) (b : RxBlock) : State :=
  bumpN (bumpN (bumpN s (cLane q 0) b.bits) (cLane q 1) b.symbols) (cLane q 2) b.undecoded

/-- Both optical channels of a lane are locked (R84). -/
def channelsLocked (s : State) (q : Nat) : Bool :=
  let ok (d : Dir) : Bool :=
    let c := chan s d (laneKey s d q)
    !c.lostLock && c.state != 0 && c.state != 1
  ok .tx && ok .rx

/-- Eight good blocks in a row lock the lane, four that are not good lose the lock; a lane whose optical channels are
locked leaves LOCKING with block lock, one that loses it in POSITION is LOCKING again (R67, R78, R84). -/
def lockStep (s : State) (q : Nat) (good : Bool) : State :=
  let x := lane s q
  let g := if good then min 8 (x.good + 1) else 0
  let b := if good then 0 else min 4 (x.bad + 1)
  let locked := if 8 ≤ g then true else if 4 ≤ b then false else x.blockLock
  let s := setLane s q { x with good := g, bad := b, blockLock := locked }
  if locked && x.state == 1 && channelsLocked s q then laneToPosition s q
  else if !locked && x.state == 2 then refreshLink (putLaneState s q 1) (linkOf q) 0 false
  else s

/-- ACK_SEQ passes the blocks before it; a replay that stood at one of them goes on with the first still held (R89). -/
def ackBlocks (s : State) (q ack : Nat) : State :=
  modLane s q fun x =>
    match x.held.head? with
    | none => x
    | some b =>
      let n := (ack + 4096 - b.seq) % 4096
      if n ≤ x.held.length then
        let held := x.held.drop n
        { x with
          held := held
          replay := x.replay.bind fun r => if held.any fun k => k.seq == r then some r else held.head?.map (·.seq) }
      else x

/-- A block that is not good on an UP lane: it is discarded and asked for again (R90). While a RETRY is outstanding no
other is sent for a further block that is not good: the spec does not say (DESIGN CHOICE, log entry 68). -/
def badBlock (s : State) (q : Nat) : State :=
  let x := lane s q
  if x.state == 4 && !x.awaiting then sendRetry s q 1 else s

/-- A good sequenced block: taken where it is the one expected, else discarded (R90). -/
def takeBlock (s : State) (q seq : Nat) (data : List (List Byte)) : State :=
  let x := lane s q
  if x.state ≠ 4 then bumpN s (cLane q 6) data.length
  else if seq ≠ x.expect then s
  else if !headersOk (link s (linkOf q)).bl2 x.rxRemain data then hcrcFailed s q
  else
    let s := setLane s q { x with expect := (x.expect + 1) % 4096, awaiting := false, attempt := 0, hcrcBad := false }
    forEach data s (takeData q)

/-- A good block on the colour that data are taken from: the acknowledgement, its ordered sets, its data cells. -/
def takeGood (s : State) (q : Nat) (hdr : BitVec 40) (cells : List (List Byte)) : State :=
  let s := if (lane s q).state = 4 then ackBlocks s q (hAck hdr) else s
  let ctl := ((List.range 5).filter (hCtl hdr)).map fun i => sliceB (nth [] cells i) 0 256
  let s := forEach ctl s (takeCell q)
  let s := trySwitch q s
  let data := dataCells hdr cells
  if hNoseq hdr then bumpN s (cLane q 6) (if (lane s q).state = 4 then 0 else data.length)
  else takeBlock s q (hSeq hdr) data

/-- The SW_MARKs of a good block on the colour that a receive swap moves to: its other sets are those of the old
colour (R83). -/
def marksOf (s : State) (q : Nat) (hdr : BitVec 40) (cells : List (List Byte)) : State :=
  forEach ((List.range 5).filter (hCtl hdr)) s fun s i =>
    forEach (List.range 16) s fun s j =>
      match osDec (sliceB (sliceB (nth [] cells i) 0 256) (16 * j) 16) with
      | some (some (0x22, b)) => swMarkReceive q true b s
      | _ => s

/-- A receive swap of the lane is in its duplicate interval, onto the channel with this code. -/
def newColourOf (s : State) (q ch : Nat) : Bool :=
  match swapOf s .rx q with
  | some w => (w.phase == 3 || w.phase == 4) && chanCode w.spare == ch
  | none => false

/-- A block arrives on a channel of a lane of a lit engine (R52, R74 to R90): 0 the working channel, 1 S0, 2 S1. The
lane's own channel feeds it; the colour of a swap gives its MARKs, and a spare under test its errors. -/
def blockReceive (q ch : Nat) (levels : List Nat) (s : State) : State :=
  if !engineLit s (engineOfLane q) then s
  else
    let b := readBlock levels
    let good := b.block.filter fun x => hcrcGood x.1
    let s := countMargin s q ch b.bits b.undecoded
    if ch = chanCode (laneKey s .rx q) then
      let s := lockStep (fecCount s q b) q good.isSome
      match good with
      | none => badBlock s q
      | some (hdr, cells) => takeGood s q hdr cells
    else match good with
      | some (hdr, cells) => if newColourOf s q ch then marksOf s q hdr cells else s
      | none => s

def execBlockReceive (lane ch : Nat) (a b c d : List Nat) (s : State) : Out :=
  .next (blockReceive lane ch (a ++ b ++ c ++ d) s)

end Sys2Proof.Machine
end

