-- ==== Sys2Proof/Machine/Gate.lean ====
section
/-! DEFINITION. Commands of chapter 04: admission retries, the deep riser, the gate's matching, multicast
copies, slag, saturation, and blocks leaving on a lane (chapter 03). -/
namespace Sys2Proof.Machine

/-! ### Admission and the deep riser: R120, R124 to R126 -/

/-- Offer one held frame that has not begun to leave again; `stuck` lists the (link, class) pairs that stay blocked. -/
def retryOne (d : Nat) (r : State × List (Nat × Nat)) (q : QFrame) : State × List (Nat × Nat) :=
  let (s, stuck) := r
  let pair := (q.inLink, q.f.tc)
  if q.die ≠ d ∨ q.place ≠ .landing ∨ 0 < q.sentCells ∨ stuck.contains pair then r
  else
    let put (s : State) (p : Place) (sp : Bool) : State :=
      { s with sw := { s.sw with
        queue := s.sw.queue.map fun x =>
          if x.id = q.id then { x with place := p, spilled := x.spilled || sp, store := x.store || sp } else x
        spilling := if sp && !s.sw.spilling.contains (voqOf q) then s.sw.spilling ++ [voqOf q] else s.sw.spilling } }
    match admission s q with
    | .to .deep =>
      (put (bump (freeCredit (deepMove s (qCells q)) q.inLink q.f.tc (inCells q)) (cLink q.outLink 19)) .deep true, stuck)
    | .to p => (put (freeCredit s q.inLink q.f.tc (inCells q)) p false, stuck)
    | _ => (if q.f.tc ≥ 4 then deepFullNote s d else s, stuck ++ [pair])

/-- The multicast frames that wait in the landing reserve are offered too. -/
def retryMc (d : Nat) (s : State) (m : McFrame) : State :=
  if m.q.die = d ∧ m.q.place = .landing ∧ qCells m.q ≤ poolFree s d then
    let s := freeCredit s m.q.inLink m.q.f.tc (inCells m.q)
    { s with sw := { s.sw with
      mcq := s.sw.mcq.map fun x => if x.q.id = m.q.id then { x with q := { x.q with place := .pool } } else x } }
  else s

/-- Room has appeared: frames held in a die's landing reserve are offered for admission again, per link
and class in arrival order (R126). -/
def frameAdmitRetry (d : Nat) (s : State) : State :=
  let s := (s.sw.queue.foldl (retryOne d) (s, [])).1
  deepFullEnd (forEach s.sw.mcq s (retryMc d)) d

def execFrameAdmitRetry (die : Nat) (s : State) : Out := .next (frameAdmitRetry die s)

/-- The oldest frame of a die in the deep riser, once it is there whole, is read back into the pool within the
bandwidth share, or found poisoned and discarded (R123 to R125). -/
def spillPrefetch (d : Nat) (poisoned : Bool) (s : State) : State :=
  match s.sw.queue.find? fun q => q.die == d && q.place == .deep with
  | none => s
  | some q =>
    if q.rx ≠ 0 ∨ !deepBwLeft s (qCells q) then s
    else if poisoned then bump (takeOut (deepMove s (qCells q)) q) (cLink q.outLink 15)
    else if poolFree s d < qCells q then s
    else
      let s := deepMove s (qCells q)
      let s := { s with sw := { s.sw with
        queue := s.sw.queue.map fun x => if x.id = q.id then { x with place := .prefetched } else x } }
      if s.sw.queue.any fun x => x.place == .deep && voqOf x == voqOf q then s
      else { s with sw := { s.sw with spilling := s.sw.spilling.filter fun v => decide (v ≠ voqOf q) } }

def execSpillPrefetch (die : Nat) (poisoned : Bool) (s : State) : Out := .next (spillPrefetch die poisoned s)

/-! ### Cells on their way out: R79, R94, R100, R110 -/

/-- The frames that leave on the wire for a queued frame: more than one only for a long result toward BL2. -/
def wireFrames (s : State) (q : QFrame) : List Frame :=
  if (link s q.outLink).bl2 then
    match toBl2 q.f q.originated with
    | none => []
    | some g =>
      if q.originated && (q.f.type == tRESULT || q.f.type == tCMPL) then resultBl2 q.f g else [g]
  else [q.f]

/-- The cells of a queued frame as they leave. -/
def wireCells (s : State) (q : QFrame) : List BufCell :=
  let bl2 := (link s q.outLink).bl2
  ((wireFrames s q).map fun f =>
    let cs := frameCellBytes bl2 f
    (List.range cs.length).map fun i =>
      { first := i == 0, last := i + 1 == cs.length, bytes := nth [] cs i,
        q := if i = 0 then some { q with f := f } else none : BufCell }).flatten

def wireCount (s : State) (q : QFrame) : Nat := (wireCells s q).length

/-- Compared modulo 2^24, SENT plus the frame's cells does not pass the last CREDIT (R100). -/
def creditOk (s : State) (q : QFrame) : Bool :=
  let k := link s q.outLink
  decide ((tget 0 k.limit q.f.tc + 2 ^ 24 - (tget 0 k.sent q.f.tc + wireCount s q) % 2 ^ 24) % 2 ^ 24 < 2 ^ 23)

/-- Egress lane buffers hold 16 KiB: 64 cells (R117). -/
def bufRoom (s : State) (q : Nat) : Bool := decide ((lane s q).buf.length < 64)

/-- The lane serves a frame: UP and not quiesced, its link not fenced; a begun frame may finish while its
lane is being taken by a circuit (R70, R368). -/
def laneServes (s : State) (q : QFrame) : Bool :=
  if q.sentCells > 0 then laneUp s q.outLane || (lane s q.outLane).state == 5
  else laneUp s q.outLane && !(lane s q.outLane).quiesced && !fenced s q.outLink

/-- The next cell of a frame is in the spine: a frame cut through may leave while its later cells still arrive, one
stored and forwarded may not (R117). -/
def cellHere (s : State) (q : QFrame) : Bool :=
  q.rx == 0 || (!q.store &&
    decide (256 * (q.sentCells + 1) ≤ hdrBytes (link s q.outLink).bl2 + q.f.payload.length))

/-- No frame has begun and not ended on a lane: its cells follow each other there (R79, R117). -/
def laneBetween (s : State) (q : Nat) : Bool := !(s.sw.queue.any fun x => x.outLane == q && decide (0 < x.sentCells))

/-- A queue head that may send a cell (R117, R129, R368). -/
def eligibleHead (s : State) (q : QFrame) : Bool :=
  q.place != .deep && bufRoom s q.outLane && laneServes s q && cellHere s q
    && (decide (0 < q.sentCells) || (creditOk s q && laneBetween s q.outLane))

/-- What a frame's cell owes its ingress link as it leaves from the landing reserve: one cell each, the last whatever is
left (R119). -/
def owedBy (q : QFrame) (i n : Nat) : Option (Nat × Nat × Nat) :=
  if q.place ≠ .landing then none
  else some (q.inLink, q.f.tc, if i + 1 < n then (if i < inCells q then 1 else 0) else inCells q - i)

/-- Move one cell of a frame into its egress lane buffer (R128): the first takes the frame's credit, the
last takes the frame out of the riser. -/
def sendCell (s : State) (q : QFrame) : State :=
  let cells := wireCells s q
  let s := if q.sentCells = 0 then
      modLink s q.outLink fun k =>
        { k with sent := tset 0 k.sent q.f.tc ((tget 0 k.sent q.f.tc + cells.length) % 2 ^ 24) }
    else s
  let cell := { nth {} cells q.sentCells with owes := owedBy q q.sentCells cells.length }
  let s := modLane s q.outLane fun l => { l with buf := l.buf ++ [cell] }
  if q.sentCells + 1 ≥ cells.length then takeOut s { q with sentCells := inCells q }
  else
    { s with sw := { s.sw with
      queue := s.sw.queue.map fun x => if x.id = q.id then { x with sentCells := x.sentCells + 1 } else x } }

/-! ### Requests: R129 -/

/-- The port group a frame leaves by (R113). -/
def outGroup (q : QFrame) : Nat := if q.outLink < 2048 then q.outLink / 8 else groupOfLane q.outLane

def isRunner (q : QFrame) : Bool :=
  match q.place with
  | .runner _ => true
  | _ => false

/-- The queue heads the gate can serve, in queue order. -/
def heads (s : State) : List QFrame :=
  (s.sw.queue.foldl (fun (r : List QFrame × List (Nat × Nat × Nat × Nat)) q =>
    if isRunner q || r.2.contains (voqOf q) then r
    else (if eligibleHead s q then r.1 ++ [q] else r.1, r.2 ++ [voqOf q])) ([], [])).1

def classPrio (tc : Nat) : Nat := if tc = 1 then 0 else if tc = 6 then 1 else 2

/-- A request: input, output, priority. -/
structure Req where
  i : Nat := 0
  o : Nat := 0
  p : Nat := 0
deriving DecidableEq, Repr

/-- One request per pair with an eligible head; a starved one has priority 0. -/
def requests (s : State) (hs : List QFrame) : List Req :=
  hs.foldl (fun r q =>
    let o := outGroup q
    let starved := decide (rf s oGATE_CFG 63 48 ≤ tget 0 s.sw.waits (512 * q.inGroup + o))
    let p := if starved then 0 else classPrio q.f.tc
    if r.any fun x => x.i == q.inGroup && x.o == o then
      r.map fun x => if x.i == q.inGroup && x.o == o then { x with p := min x.p p } else x
    else r ++ [{ i := q.inGroup, o := o, p := p }]) []

/-! ### Matching: R128, R130, R131 -/

/-- The candidate of best priority, and among those the first at or after the pointer. -/
def pickFrom (ptr n : Nat) (key : Req → Nat) (l : List Req) : Option Req :=
  l.foldl (fun b x =>
    match b with
    | none => some x
    | some y =>
      let rank (z : Req) := z.p * n + (key z + n - ptr) % n
      if rank x < rank y then some x else some y) none

/-- Pairs made so far whose input lies on one die and output on another. -/
def d2d (m : List (Nat × Nat)) (a b : Nat) : Nat :=
  (m.filter fun x => dieOfGroup x.1 == a && dieOfGroup x.2 == b).length

/-- The limit of matches from one die to another in a cell time is reached (R131). -/
def d2dFull (s : State) (m : List (Nat × Nat)) (i o : Nat) : Bool :=
  dieOfGroup i != dieOfGroup o && decide (rf s oGATE_CFG 36 32 ≤ d2d m (dieOfGroup i) (dieOfGroup o))

/-- One request, grant and accept iteration; the first also moves the pointers. Where the limit of R131 is reached the
accept that comes later in the order of the grants is not made: the spec does not say which gives way (DESIGN CHOICE,
log entry 64). -/
def iteration (first : Bool) (rs : List Req) (r : State × List (Nat × Nat)) : State × List (Nat × Nat) :=
  let (s, m) := r
  let openReq := rs.filter fun x => !(m.any fun p => p.1 == x.i || p.2 == x.o)
  let outs := openReq.foldl (fun l x => addNew l x.o) []
  let grants := outs.filterMap fun o =>
    pickFrom (tget 0 s.sw.grantPtr o) 264 Req.i (openReq.filter fun x => x.o == o)
  let ins := grants.foldl (fun l x => addNew l x.i) []
  ins.foldl (fun r i =>
    let (s, m) := r
    match pickFrom (tget 0 s.sw.acceptPtr i) 260 Req.o (grants.filter fun x => x.i == i) with
    | none => r
    | some g =>
      if d2dFull s m g.i g.o then r
      else
        let s := if first then
            { s with sw := { s.sw with
              grantPtr := tset 0 s.sw.grantPtr g.o ((g.i + 1) % 264)
              acceptPtr := tset 0 s.sw.acceptPtr g.i ((g.o + 1) % 260) } }
          else s
        (s, m ++ [(g.i, g.o)])) (s, m)

/-! ### Scheduled slots: R133, R134 -/

/-- Cell times of 0.8 ns since NT's zero, and since LT's. -/
def ntCells (s : State) : Nat := (ntFine s * 5 / (4 * 2 ^ 48)).toNat
def ltCells (s : State) : Nat := (s.now - s.sw.ltZero) / 96

/-- Follow the change of the slot count from LT to NT and back: the frame in progress is completed, and the
next begins at NT's first frame boundary. -/
def followSlots (s : State) : State :=
  if !s.tim.inForce then { s with sw := { s.sw with slotNt := false, slotEnd := none, slotWait := none } }
  else if s.sw.slotNt then s
  else match s.sw.slotEnd with
    | none => { s with sw := { s.sw with slotEnd := some ((ltCells s / 1024 + 1) * 1024) } }
    | some e =>
      if ltCells s < e then s
      else match s.sw.slotWait with
        | none => { s with sw := { s.sw with slotWait := some (ntCells s / 1024) } }
        | some w => if w < ntCells s / 1024 then { s with sw := { s.sw with slotNt := true } } else s

/-- The cell time within the slot frame, none between the LT frame and NT's first frame. -/
def slotNow (s : State) : Option Nat :=
  if s.sw.slotNt then some (ntCells s % 1024)
  else if s.sw.slotWait.isSome then none else some (ltCells s % 1024)

/-- The oldest sendable cell of a reservation's context from its input toward its group (R134): of the frames at the
head of their queue, for those of one queue leave in arrival order (R138). -/
def resvFrame (s : State) (v : Resv) : Option QFrame :=
  (heads s).find? fun q => q.inGroup == v.inGroup && outGroup q == v.outGroup
    && (q.f.tc == 4 || q.f.tc == 5 || q.f.tc == 6) && q.f.ctx == v.ctx

/-- A throttled die's part of the gate begins no matching in one cell time of four (R379, log entry 22). -/
def idleDie (s : State) (d : Nat) : Bool := s.hlt.throttled.contains d && s.sw.beat == 0

/-- A reservation is put off to the next matching (R379). -/
def putOff (s : State) (v : Resv) : State := { s with sw := { s.sw with resvLate := s.sw.resvLate ++ [v] } }

/-- Fix the reserved pairs of the cell time before the first iteration, and send their cells. One whose die is idle, or
whose input or output a reservation put off has taken, is served at the next matching (R379). A reservation past the
limit of R131 for its pair of dies is not served in this cell time: R131 and R134 do not say which gives way (DESIGN
CHOICE, log entry 64). -/
def serveResv (r : State × List (Nat × Nat)) (v : Resv) : State × List (Nat × Nat) :=
  let (s, m) := r
  let taken := m.any fun p => p.1 == v.inGroup || p.2 == v.outGroup
  if taken || idleDie s (dieOfGroup v.inGroup) || idleDie s (dieOfGroup v.outGroup) then (putOff s v, m)
  else if d2dFull s m v.inGroup v.outGroup then (if s.hlt.throttled.isEmpty then s else putOff s v, m)
  else match resvFrame s v with
    | some q => (bump (sendCell s q) (cDie (dieOfGroup v.inGroup) 6), m ++ [(v.inGroup, v.outGroup)])
    | none => (bump s (cDie (dieOfGroup v.inGroup) 7), m)

/-! ### What a matched input sends: R132 -/

def weightOf (s : State) (tc : Nat) : Nat := rf s oCLASS_WEIGHT (8 * tc + 7) (8 * tc)

/-- The DRR classes in their round. -/
def drrClasses : List Nat := [2, 3, 4, 5, 7]

/-- The round of a link goes on to its next class: one with no frame waiting at the link loses its deficit. -/
def drrAdvance (s : State) (l i d : Nat) : State :=
  let c := nth 2 drrClasses i
  let d := if s.sw.queue.any fun q => q.outLink == l && q.f.tc == c then d else 0
  { s with sw := { s.sw with
    deficit := tset 0 s.sw.deficit (8 * l + c) d, drrNext := tset 0 s.sw.drrNext l ((i + 1) % 5)
    drrFresh := tset false s.sw.drrFresh l false } }

/-- Deficit round robin at a link among the heads that may leave now: the class served and its bookkeeping (R132). A
class gets one quantum in its turn, and the turn passes on when its deficit does not cover its next frame, or when none
of its frames is among the heads (log entry 65). -/
def drrPick (l : Nat) (hs : List QFrame) : Nat → State → State × Option QFrame
  | 0, s => (s, none)
  | n + 1, s =>
    let i := tget 0 s.sw.drrNext l % 5
    let c := nth 2 drrClasses i
    let key := 8 * l + c
    let d := tget 0 s.sw.deficit key
    match hs.find? fun q => q.f.tc == c with
    | none => drrPick l hs n (drrAdvance s l i d)
    | some q =>
      let need := 256 * wireCount s q
      let d := if tget false s.sw.drrFresh l then d else d + 256 * weightOf s c
      if need ≤ d then
        ({ s with sw := { s.sw with
          deficit := tset 0 s.sw.deficit key (d - need), drrFresh := tset false s.sw.drrFresh l true } }, some q)
      else drrPick l hs n (drrAdvance s l i d)

/-- The frame that a link starts among heads that may leave now: TC1 first, TC6 next, the rest by deficit round robin
(R132). -/
def linkPick (s : State) (l : Nat) (hs : List QFrame) : State × Option QFrame :=
  let best := (hs.map fun q => classPrio q.f.tc).foldl min 3
  if best < 2 then (s, hs.find? fun q => classPrio q.f.tc == best) else drrPick l hs 400 s

/-- A matched pair moves one cell: of the frame in progress, else of a new frame by class, link and queue. -/
def servePair (s : State) (p : Nat × Nat) : State :=
  let hs := (heads s).filter fun q => q.inGroup == p.1 && outGroup q == p.2
  match hs.find? fun q => decide (0 < q.sentCells) with
  | some q => sendCell s q
  | none =>
    let best := (hs.map fun q => classPrio q.f.tc).foldl min 3
    let bestHs := hs.filter fun q => classPrio q.f.tc == best
    let ptr := tget 0 s.sw.rrLink p.2
    let links := bestHs.foldl (fun l q => addNew l q.outLink) []
    match minBy (fun l => (l + 4096 - ptr) % 4096) links with
    | none => s
    | some l =>
      let s := { s with sw := { s.sw with rrLink := tset 0 s.sw.rrLink p.2 (l + 1) } }
      let r := linkPick s l (bestHs.filter fun q => q.outLink == l)
      match r.2 with
      | some q => sendCell r.1 q
      | none => r.1

/-- The references of a link that may send a cell: the first of each class (R139). -/
def runnerHeads (s : State) (l : Nat) : List QFrame :=
  ((s.sw.queue.filter fun q => isRunner q && q.outLink == l).foldl (fun (r : List QFrame × List Nat) q =>
    if r.2.contains q.f.tc then r
    else (if eligibleHead s q then r.1 ++ [q] else r.1, r.2 ++ [q.f.tc])) ([], [])).1

/-- The references of stored multicast cells leave outside the gate, one cell per link, by the link's class order
(R132, R139, R140). -/
def serveRunners (s : State) : State :=
  let links := (s.sw.queue.filter isRunner).foldl (fun l q => addNew l q.outLink) []
  forEach links s fun s l =>
    let hs := runnerHeads s l
    match hs.find? fun q => decide (0 < q.sentCells) with
    | some q => sendCell s q
    | none =>
      let r := linkPick s l hs
      match r.2 with
      | some q => sendCell r.1 q
      | none => r.1

/-! ### Slag: R141, R142 -/

/-- The frame's age has reached AGE_LIMIT (R141). -/
def aged (s : State) (q : QFrame) : Bool := due s q.born (rf s oAGE_CFG 16 0 * usT)

/-- The queue a frame is first out of: its virtual output queue, or its link's copies. -/
def lineOf (q : QFrame) : Nat × Nat × Nat × Nat :=
  if isRunner q then (4, 0, q.outLink, q.f.tc) else voqOf q

/-- Queue heads that have not begun to leave and are too old go to slag; each new head is tested too. -/
def slagQueue (s : State) : State :=
  (s.sw.queue.foldl (fun (r : State × List (Nat × Nat × Nat × Nat)) q =>
    if r.2.contains (lineOf q) then r
    else if q.sentCells = 0 && aged r.1 q then (slagCount (takeOut r.1 q) q.outLink q.f.tc, r.2)
    else (r.1, r.2 ++ [lineOf q])) (s, [])).1

/-- A multicast frame that still waits is discarded whole, counted for each member link (log entry 21). -/
def slagMc (s : State) (m : McFrame) : State :=
  if !aged s m.q then s
  else
    let s := { s with sw := { s.sw with mcq := s.sw.mcq.filter fun x => decide (x.q.id ≠ m.q.id) } }
    let s := if m.q.place = .landing then freeCredit s m.q.inLink m.q.f.tc (inCells m.q) else s
    forEach m.members s fun s l => slagCount s l m.q.f.tc

/-- When the oldest frame held reaches AGE_LIMIT. -/
def oldestBorn (s : State) : Option Nat :=
  ((s.sw.queue.filter fun q => q.sentCells == 0).map (·.born) ++ s.sw.mcq.map (·.q.born)).min?

/-- Every queue head is tested, as it comes up and by the sweep (R141). -/
def slagHeads (s : State) : State :=
  if bit (getR s oSW_CTRL) 3 then forEach s.sw.mcq (slagQueue s) slagMc else s

def slagSweep (s : State) : State :=
  if bit (getR s oSW_CTRL) 3 then slagHeads (awaitOpt s (oldestBorn s) (rf s oAGE_CFG 16 0 * usT)) else s

def execSlagSweep (s : State) : Out := .next (slagSweep s)

/-! ### One cell time -/

/-- Frames of the spine's own that are addressed to SELF_EID, in partition 64, are consumed on their die (R95, R114; log
entry 66). -/
def takeSelf (s : State) : State :=
  forEach s.sw.selfIn { s with sw := { s.sw with selfIn := [] } } fun s q => consume q 64 s

/-- The cell times that requests have waited: one that was matched, or that lapsed, starts anew (R129). -/
def noteWaits (s : State) (rs : List Req) (m : List (Nat × Nat)) : State :=
  let old := s.sw.waits
  { s with sw := { s.sw with waits := rs.foldl (fun t x =>
      let key := 512 * x.i + x.o
      tset 0 t key (if m.contains (x.i, x.o) then 0 else tget 0 old key + 1)) [] } }

/-- The reservations of the cell time, those put off first (R134, R379). -/
def resvNow (s : State) : List Resv :=
  s.sw.resvLate ++ match slotNow s with
    | none => []
    | some k => s.sw.resv.filter fun v => v.slot == k

/-- The cell time counts, and what was put off is taken up. -/
def beginCell (s : State) : State :=
  { s with sw := { s.sw with beat := (s.sw.beat + 1) % 4, resvLate := [] } }

/-- A request that takes part: no part of a throttled die's matching in its idle cell time (R379). -/
def takesPart (s : State) (x : Req) : Bool := !idleDie s (dieOfGroup x.i) && !idleDie s (dieOfGroup x.o)

/-- One cell time of the gate (R127 to R134): heads that came up are tested for their age first (R141). -/
def gateMatch (s : State) : State :=
  let s := slagHeads (followSlots (takeSelf s))
  let r := (resvNow s).foldl serveResv (beginCell s, [])
  let reserved := r.2
  let all := requests r.1 (heads r.1)
  let rs := all.filter (takesPart r.1)
  let r := iteration false rs (iteration false rs (iteration true rs r))
  let s := forEach (r.2.drop reserved.length) r.1 servePair
  let s := forEach r.2 s fun s p => bump s (cDie (dieOfGroup p.1) 5)
  serveRunners (noteWaits s all r.2)

def execGateMatch (s : State) : Out := .next (gateMatch s)

/-! ### Multicast: R139, R140 -/

/-- Cells that a die's runner holds. -/
def runnerUsed (s : State) (d : Nat) : Nat :=
  (s.sw.runner.filter fun r => r.die == d).foldl (fun n r => n + r.cells) 0

/-- The die that holds the copy for a member link: a lateral link's by the lane its half gives. -/
def copyDie (s : State) (q : QFrame) (l : Nat) : Nat :=
  if l < 2048 then l / 512 else dieOfLane (chooseLane s l q.hashed q.f.entropy)

/-- The member links that take a copy: not the arrival leaf link, no lateral link for a frame that
arrived on one, and none down or fenced. -/
def copyLinks (s : State) (m : McFrame) : List Nat :=
  m.members.filter fun l => l != m.q.inLink && !(isLateral m.q.inLink && isLateral l) && eligible s l

/-- A copy in the egress queue of a member link, referring to the stored cells (R139). -/
def placeCopy (m : McFrame) (sid : Nat) (s : State) (l : Nat) : State :=
  let q0 := linkQ s l
  let f := { m.q.f with detour := m.q.f.detour && !isLateral l }
  let r := markCm s l f
  let i := freshId r.1
  let q := { m.q with
    id := i.2, f := if r.2 then { f with cm := true } else f, outLink := l
    outLane := chooseLane s l m.q.hashed m.q.f.entropy, die := copyDie s m.q l, place := .runner sid
    cmSet := m.q.cmSet || r.2, qAtEnq := q0 / 1024 }
  pushFrame i.1 q

/-- A copy that has no BL2 form is refused: a forwarded frame's source is answered (R108, R110). -/
def copyFits (s : State) (q : QFrame) (l : Nat) : Bool := (bl2Cause s q l).isNone

def refuseCopy (q : QFrame) (s : State) (l : Nat) : State :=
  match bl2Cause s q l with
  | none => s
  | some c => if q.originated then bump s (cLink l 22) else sendNack s q c 0

/-- The heads of a die's multicast queues: one for each ingress group and class (R139). -/
def mcHeads (s : State) (d : Nat) : List McFrame :=
  ((s.sw.mcq.filter fun m => m.q.die == d).foldl (fun (r : List McFrame × List (Nat × Nat)) m =>
    if r.2.contains (m.q.inGroup, m.q.f.tc) then r else (r.1 ++ [m], r.2 ++ [(m.q.inGroup, m.q.f.tc)])) ([], [])).1

/-- A die's runner takes a copy: within its limit, and with room in the pool; the cells that the frame's own slice holds
for its last copy serve as that copy (R122). -/
def runnerRoom (s : State) (m : McFrame) (e : Nat) (last : Bool) : Bool :=
  let c := qCells m.q
  decide ((runnerUsed s e + c) * 256 ≤ rf s oRISER_CFG 39 32 * poolCells s e)
    && (decide (c ≤ poolFree s e) || (last && e == m.q.die && inPool m.q))

/-- One die's runner stores a multicast frame and refers to it in the egress queue of each of its member links (R139). -/
def storeCopy (m : McFrame) (links : List Nat) (s : State) (e : Nat) : State :=
  let i := freshId s
  let store : RunnerStore := { id := i.2, die := e, cells := qCells m.q, tc := m.q.f.tc, refs := links.length }
  let s := { i.1 with sw := { i.1.sw with runner := i.1.sw.runner ++ [store] } }
  forEach links s (placeCopy { m with q := { m.q with group := some (m.q.f.dest % 2 ^ 16) } } i.2)

/-- A multicast frame keeps waiting for its remaining members, or leaves its queue. -/
def mcKeep (s : State) (m : McFrame) (rest : List Nat) : State :=
  if rest.isEmpty then
    let s := if m.q.place = .landing then freeCredit s m.q.inLink m.q.f.tc (inCells m.q) else s
    { s with sw := { s.sw with mcq := s.sw.mcq.filter fun x => decide (x.q.id ≠ m.q.id) } }
  else
    { s with sw := { s.sw with
      mcq := s.sw.mcq.map fun x => if x.q.id = m.q.id then { x with members := rest } else x } }

/-- One copy goes to each die's runner that can take it; the members of the other dies wait (R122, R139, R140). -/
def replicate (s : State) (m : McFrame) : State :=
  let want := copyLinks s m
  let fit := want.filter (copyFits s m.q)
  let dies := (List.range 4).filter fun e => fit.any fun l => copyDie s m.q l == e
  let others := dies.filter fun e => e != m.q.die && runnerRoom s m e false
  let own := dies.filter fun e => e == m.q.die && runnerRoom s m e (others.length + 1 == dies.length)
  let now := others ++ own
  let mine (e : Nat) : List Nat := fit.filter fun l => copyDie s m.q l == e
  let lost := m.members.filter fun l => l != m.q.inLink && !(isLateral m.q.inLink && isLateral l) && !eligible s l
  let rest := fit.filter fun l => !now.contains (copyDie s m.q l)
  let s := mcKeep s m rest
  let s := forEach lost s fun s l => mcCopyLost s (m.q.f.dest % 2 ^ 16) l
  let s := forEach (want.filter fun l => !fit.contains l) s (refuseCopy m.q)
  now.foldl (fun s e => storeCopy m (mine e) s e) s

/-- The heads of a die's multicast queues are copied to the runners; a queue whose runners are at their limit or
without room waits, the others go on (R122, R139). -/
def runnerReplicate (d : Nat) (s : State) : State :=
  let s := slagHeads s
  forEach (mcHeads s d) s replicate

def execRunnerReplicate (die : Nat) (s : State) : Out := .next (runnerReplicate die s)

/-! ### Saturation: R145 -/

def satHoldExpiry (l : Nat) (s : State) : State :=
  let k := link s l
  if !k.sat && k.highSince.isSome
      && decide (4 * (rf s oCM_CFG 15 0 * 1024) < linkQ s l) then
    let s := awaitOpt s k.highSince (rf s oSAT_CFG 13 0 * usT)
    raiseEvent (modLink s l fun k => { k with sat := true }) 0x301 (partLink l) l (linkQ s l / 1024)
  else s

def execSatHoldExpiry (l : Nat) (s : State) : Out := .next (satHoldExpiry l s)

def satRearmExpiry (l : Nat) (s : State) : State :=
  let k := link s l
  if k.sat && k.lowSince.isSome
      && decide (linkQ s l < rf s oCM_CFG 15 0 * 1024) then
    modLink (awaitOpt s k.lowSince (rf s oSAT_CFG 13 0 * usT)) l fun k => { k with sat := false }
  else s

def execSatRearmExpiry (l : Nat) (s : State) : Out := .next (satRearmExpiry l s)

/-- Frames queued for a failed lane or link are moved or answered (R147). -/
def queuedFrameMove (l : Nat) (s : State) : State := moveQueued s l

def execQueuedFrameMove (l : Nat) (s : State) : Out := .next (queuedFrameMove l s)

/-! ### Blocks on a transmit lane: R76 to R80, R86, R89 -/

/-- The header word of a block (R77). -/
def blockHdr (seq ack map : Nat) (replay noseq : Bool) : BitVec 40 :=
  let h := at_ 28 seq + at_ 16 ack + at_ 11 map + at_ 10 (b2n replay) + at_ 9 (b2n noseq)
  BitVec.ofNat 40 (h + hcrc8 h)

/-- A control cell of up to 16 ordered sets, the rest NULL (R79, R80). -/
def controlCell (l : List (Nat × BitVec 104)) : List Byte :=
  sliceB ((l.take 16).map fun o => osBytes o.1 o.2).flatten 0 256

/-- CELL_MAP: bit [15] of the header for slot 0, set for a control cell. -/
def cellMap (ctl : List Bool) : Nat :=
  ((List.range 5).map fun i => if nth true ctl i then 2 ^ (4 - i) else 0).foldl (· + ·) 0

/-- The same blocks go out on both colours during a duplicate interval (R60, R83). -/
def duplicating (s : State) (q : Nat) : Bool :=
  match swapOf s .tx q with
  | some w => w.phase == 3 || w.phase == 4
  | none => false

/-- A first cell leaves: the frame is sent, counted, tapped and sampled (R30, R143, R392, R395). -/
def firstCellOut (s : State) (q : Nat) (c : BufCell) : State :=
  match c.q with
  | none => s
  | some x =>
    let l := linkOf q
    let bl2 := (link s l).bl2
    let s := bump s (cLink l 1)
    let s := if x.f.detour && !isLateral l then bump s (cLink l 6) else s
    let s := emit s (.frame l q bl2 x.f)
    let s := sampleFrame s (dieOfLane q) x x.f
    tapFrame s (dieOfLane q) x x.f true bl2

/-- Every 64 frames of a duplicate interval an SW_MARK names the block whose slot 0 begins a frame (R60, R83). -/
def markBlock (s : State) (q seq frames : Nat) (slot0 : Bool) : State :=
  match swapOf s .tx q with
  | none => s
  | some w =>
    if !duplicating s q then s
    else if slot0 && decide (64 ≤ w.sinceMark + frames) then
      let s := setSwap s .tx q { w with mark := (w.mark + 1) % 2 ^ 16, sinceMark := 0, marks := addNew w.marks w.mark }
      sendOs s q osSW_MARK (mkBody [at_ 88 w.mark, at_ 76 seq])
    else setSwap s .tx q { w with sinceMark := w.sinceMark + frames }

/-- A block leaves on a lane (R74, R76). -/
def emitBlock (s : State) (q : Nat) (hdr : BitVec 40) (cells : List (List Byte)) : State :=
  emit s (.block q (duplicating s q) hdr cells (blockLevels hdr cells))

/-- The ordered sets that leave with the next block, and the state without them. -/
def popSets (s : State) (q : Nat) : State × List (Nat × BitVec 104) :=
  let r := stampSets s q
  (modLane r.1 q fun x => { x with osOut := x.osOut.drop 16 }, r.2)

/-- Cells of test pattern, and the register of the pattern after them (R86). -/
def prbsCells : Nat → Nat → Nat × List (List Byte)
  | 0, v => (v, [])
  | n + 1, v =>
    let c := prbsCell v
    let r := prbsCells n c.1
    (r.1, c.2 :: r.2)

/-- A block without a sequence number: control cells alone, or in MARGIN one control cell and four of test pattern
(R77, R86, R89). -/
def sendNoseq (s : State) (q : Nat) (prbs : Bool) : State :=
  let x := lane s q
  let r := popSets s q
  let t := if prbs then prbsCells 4 x.prbs else (x.prbs, List.replicate 4 (List.replicate 256 0))
  emitBlock (modLane r.1 q fun x => { x with prbs := t.1 }) q (blockHdr 0 x.expect (if prbs then 16 else 31) false true)
    (controlCell r.2 :: t.2)

/-- A held block again, with the ordered sets of now (R80, R89). -/
def sendReplay (s : State) (q : Nat) (b : Block) : State :=
  let x := lane s q
  let r := if nth false b.ctl 4 then popSets s q else (s, [])
  let cells := (List.range 5).map fun i =>
    if nth false b.ctl i then (if i = 4 then controlCell r.2 else List.replicate 256 0) else nth [] b.cells i
  let later := x.held.dropWhile fun k => k.seq != b.seq
  let nxt := (later.drop 1).head?.map (·.seq)
  let s := bump (modLane r.1 q fun x => { x with replay := nxt }) (cLane q 4)
  emitBlock s q (blockHdr b.seq x.expect (cellMap b.ctl) true false) cells

/-- A sequenced block: data cells of the lane buffer, with a control cell last where ordered sets wait. A cell that was
held in the landing reserve frees its credit as it leaves (R119). -/
def sendData (s : State) (q : Nat) : State :=
  let x := lane s q
  let n := if x.osOut.isEmpty then 5 else 4
  let data := x.buf.take n
  let s := modLane s q fun x => { x with buf := x.buf.drop n }
  let s := markBlock s q x.nextSeq (data.filter (·.first)).length ((data.head?.map (·.first)).getD false)
  let r := if data.length < 5 then popSets s q else (s, [])
  let ctl := (List.range 5).map fun i => decide (data.length ≤ i)
  let cells := (List.range 5).map fun i =>
    if i < data.length then (nth {} data i).bytes else if i = 4 then controlCell r.2 else List.replicate 256 0
  let b : Block := { seq := x.nextSeq, cells := cells, ctl := ctl }
  let s := modLane r.1 q fun x => { x with nextSeq := (x.nextSeq + 1) % 4096, held := x.held ++ [b] }
  let s := bumpN s (cLink (linkOf q) 3) data.length
  let s := forEach data s freeOwed
  let s := forEach (data.filter (·.first)) s fun s c => firstCellOut s q c
  emitBlock s q (blockHdr x.nextSeq x.expect (cellMap ctl) false false) cells

/-- At a block boundary of a lit transmit lane one block is sent (R86, R89). The laser of a retired lane is dark, and of
one that a circuit holds 10 µs after its set time (R67, R70). -/
def blockTransmit (q : Nat) (s : State) : State :=
  let x := lane s q
  if !engineLit s (engineOfLane q) || x.state == 7 || (x.state == 5 && sprueHas s .tx (workKey s q)) then s
  else if x.state = 3 then sendNoseq s q true
  else if x.state = 4 || x.state = 5 then
    match x.replay.bind fun n => x.held.find? fun b => b.seq == n with
    | some b => sendReplay s q b
    | none => if x.held.length ≥ 32 || x.buf.isEmpty then sendNoseq s q false else sendData s q
  else sendNoseq s q false

def execBlockTransmit (q : Nat) (s : State) : Out := .next (blockTransmit q s)

end Sys2Proof.Machine
end

