-- ==== Sys2Proof/Machine/Dispatch.lean ====
section
/-! DEFINITION. One arm per row of spec/opcode_table.json: each calls the one meaning of its command. -/
namespace Sys2Proof.Machine

def exec (i : Instr) (s : State) : Host.Outcome State Fault Refusal :=
  match i with
  | .registerWrite f off bytes v => Sys2Proof.Machine.execRegisterWrite f off bytes v s
  | .blockLockSet f tbl => Sys2Proof.Machine.execBlockLockSet f tbl s
  | .fabricPosWrite f v => Sys2Proof.Machine.execFabricPosWrite f v s
  | .frameReceive lane hdr payload => Sys2Proof.Machine.execFrameReceive lane hdr payload s
  | .linkBringupRetry link => Sys2Proof.Machine.execLinkBringupRetry link s
  | .recastOpen ring => Sys2Proof.Machine.execRecastOpen ring s
  | .recastClose ring => Sys2Proof.Machine.execRecastClose ring s
  | .recastCloseTakesEffect p => Sys2Proof.Machine.execRecastCloseTakesEffect p s
  | .recastLimitExpiry p => Sys2Proof.Machine.execRecastLimitExpiry p s
  | .tblCfgWrite f v => Sys2Proof.Machine.execTblCfgWrite f v s
  | .laserEnSet f n v => Sys2Proof.Machine.execLaserEnSet f n v s
  | .laserEnClear f n v => Sys2Proof.Machine.execLaserEnClear f n v s
  | .oeBringupDone n => Sys2Proof.Machine.execOeBringupDone n s
  | .oeBringupTimeout n cause => Sys2Proof.Machine.execOeBringupTimeout n cause s
  | .oeBringupRetry n => Sys2Proof.Machine.execOeBringupRetry n s
  | .optSensorSample n readings => Sys2Proof.Machine.execOptSensorSample n readings s
  | .ditherLockLoss n t d => Sys2Proof.Machine.execDitherLockLoss n t d s
  | .lockReacquired n t d => Sys2Proof.Machine.execLockReacquired n t d s
  | .marginTestStart link => Sys2Proof.Machine.execMarginTestStart link s
  | .marginPowerStep link => Sys2Proof.Machine.execMarginPowerStep link s
  | .marginWindowOpen link => Sys2Proof.Machine.execMarginWindowOpen link s
  | .marginWindowClose link counts => Sys2Proof.Machine.execMarginWindowClose link counts s
  | .marginReportWaitExpiry link => Sys2Proof.Machine.execMarginReportWaitExpiry link s
  | .marginRetry link => Sys2Proof.Machine.execMarginRetry link s
  | .quickCheckWindowClose lane counts => Sys2Proof.Machine.execQuickCheckWindowClose lane counts s
  | .laserFadeSample n fades => Sys2Proof.Machine.execLaserFadeSample n fades s
  | .spareLocked lane => Sys2Proof.Machine.execSpareLocked lane s
  | .swRequestReceive lane body => Sys2Proof.Machine.execSwRequestReceive lane body s
  | .spareDropLocked lane => Sys2Proof.Machine.execSpareDropLocked lane s
  | .swReadyReceive lane body => Sys2Proof.Machine.execSwReadyReceive lane body s
  | .duplicateIntervalEnd lane => Sys2Proof.Machine.execDuplicateIntervalEnd lane s
  | .swMarkReceive lane newColour body => Sys2Proof.Machine.execSwMarkReceive lane newColour body s
  | .swDoneReceive lane body => Sys2Proof.Machine.execSwDoneReceive lane body s
  | .fadedLaserDark lane => Sys2Proof.Machine.execFadedLaserDark lane s
  | .swNakReceive lane body => Sys2Proof.Machine.execSwNakReceive lane body s
  | .swapReadyTimeout lane => Sys2Proof.Machine.execSwapReadyTimeout lane s
  | .swapDoneTimeout lane => Sys2Proof.Machine.execSwapDoneTimeout lane s
  | .swapRetry lane => Sys2Proof.Machine.execSwapRetry lane s
  | .journalAppend okB okA => Sys2Proof.Machine.execJournalAppend okB okA s
  | .calPassStart n => Sys2Proof.Machine.execCalPassStart n s
  | .calSlotStart n => Sys2Proof.Machine.execCalSlotStart n s
  | .calSweepDone n rows => Sys2Proof.Machine.execCalSweepDone n rows s
  | .sprueSet ctx claim => Sys2Proof.Machine.execSprueSet ctx claim s
  | .sprueThrough n k => Sys2Proof.Machine.execSprueThrough n k s
  | .sprueRelease n k => Sys2Proof.Machine.execSprueRelease n k s
  | .sprueReleaseDone n k => Sys2Proof.Machine.execSprueReleaseDone n k s
  | .blockReceive lane ch a b c d => Sys2Proof.Machine.execBlockReceive lane ch a b c d s
  | .heartbeatSend lane => Sys2Proof.Machine.execHeartbeatSend lane s
  | .heartbeatReceive lane body => Sys2Proof.Machine.execHeartbeatReceive lane body s
  | .heartbeatTimeout lane => Sys2Proof.Machine.execHeartbeatTimeout lane s
  | .positionSend lane => Sys2Proof.Machine.execPositionSend lane s
  | .positionReceive lane body => Sys2Proof.Machine.execPositionReceive lane body s
  | .creditReceive lane hi body => Sys2Proof.Machine.execCreditReceive lane hi body s
  | .creditResyncReceive lane body => Sys2Proof.Machine.execCreditResyncReceive lane body s
  | .retryReceive lane body => Sys2Proof.Machine.execRetryReceive lane body s
  | .retryTimeout lane => Sys2Proof.Machine.execRetryTimeout lane s
  | .marginReportReceive lane body => Sys2Proof.Machine.execMarginReportReceive lane body s
  | .linkctlQuiesceReceive lane body => Sys2Proof.Machine.execLinkctlQuiesceReceive lane body s
  | .linkctlResumeReceive lane body => Sys2Proof.Machine.execLinkctlResumeReceive lane body s
  | .linkctlDisableReceive lane body => Sys2Proof.Machine.execLinkctlDisableReceive lane body s
  | .lossOfLight lane => Sys2Proof.Machine.execLossOfLight lane s
  | .lightPresent lane => Sys2Proof.Machine.execLightPresent lane s
  | .linkEnable f link v => Sys2Proof.Machine.execLinkEnable f link v s
  | .linkDisable f link v => Sys2Proof.Machine.execLinkDisable f link v s
  | .frameAdmitRetry die => Sys2Proof.Machine.execFrameAdmitRetry die s
  | .spillPrefetch die poisoned => Sys2Proof.Machine.execSpillPrefetch die poisoned s
  | .gateMatch => Sys2Proof.Machine.execGateMatch s
  | .runnerReplicate die => Sys2Proof.Machine.execRunnerReplicate die s
  | .slagSweep => Sys2Proof.Machine.execSlagSweep s
  | .satHoldExpiry link => Sys2Proof.Machine.execSatHoldExpiry link s
  | .satRearmExpiry link => Sys2Proof.Machine.execSatRearmExpiry link s
  | .queuedFrameMove link => Sys2Proof.Machine.execQueuedFrameMove link s
  | .tdmaWrite ring => Sys2Proof.Machine.execTdmaWrite ring s
  | .tdmaRead ring => Sys2Proof.Machine.execTdmaRead ring s
  | .emInsert ring => Sys2Proof.Machine.execEmInsert ring s
  | .emDelete ring => Sys2Proof.Machine.execEmDelete ring s
  | .tdmaLock ring => Sys2Proof.Machine.execTdmaLock ring s
  | .tdmaUnlock ring => Sys2Proof.Machine.execTdmaUnlock ring s
  | .tdmaPurge ring => Sys2Proof.Machine.execTdmaPurge ring s
  | .purgeComplete ring => Sys2Proof.Machine.execPurgeComplete ring s
  | .mgmtEthReceive port packet => Sys2Proof.Machine.execMgmtEthReceive port packet s
  | .collContribReceive lane hdr payload => Sys2Proof.Machine.execCollContribReceive lane hdr payload s
  | .collCombineReceive lane hdr payload => Sys2Proof.Machine.execCollCombineReceive lane hdr payload s
  | .slotScrubDone cru slot => Sys2Proof.Machine.execSlotScrubDone cru slot s
  | .planLoad ring => Sys2Proof.Machine.execPlanLoad ring s
  | .planUnload ring => Sys2Proof.Machine.execPlanUnload ring s
  | .planUnloadDone ctx => Sys2Proof.Machine.execPlanUnloadDone ctx s
  | .planArm ring => Sys2Proof.Machine.execPlanArm ring s
  | .planDisarm ring => Sys2Proof.Machine.execPlanDisarm ring s
  | .planDisarmDone ctx => Sys2Proof.Machine.execPlanDisarmDone ctx s
  | .pourComparatorLoad seq => Sys2Proof.Machine.execPourComparatorLoad seq s
  | .runStart ctx => Sys2Proof.Machine.execRunStart ctx s
  | .pourTime seq => Sys2Proof.Machine.execPourTime seq s
  | .phaseStart seq => Sys2Proof.Machine.execPhaseStart seq s
  | .phaseDeadline ctx phase => Sys2Proof.Machine.execPhaseDeadline ctx phase s
  | .waitBoundExpiry ctx phase => Sys2Proof.Machine.execWaitBoundExpiry ctx phase s
  | .wordIssue seq planEcc slotUe => Sys2Proof.Machine.execWordIssue seq planEcc slotUe s
  | .memDataArrive seq => Sys2Proof.Machine.execMemDataArrive seq s
  | .frameLaunch die => Sys2Proof.Machine.execFrameLaunch die s
  | .ctxSetup ring => Sys2Proof.Machine.execCtxSetup ring s
  | .ctxRead ring => Sys2Proof.Machine.execCtxRead ring s
  | .ctxExclude ring => Sys2Proof.Machine.execCtxExclude ring s
  | .ctxInclude ring => Sys2Proof.Machine.execCtxInclude ring s
  | .ctxStats ring => Sys2Proof.Machine.execCtxStats ring s
  | .ctxTeardown ring => Sys2Proof.Machine.execCtxTeardown ring s
  | .ctxScrubDone ctx => Sys2Proof.Machine.execCtxScrubDone ctx s
  | .dynTimeoutExpiry ctx => Sys2Proof.Machine.execDynTimeoutExpiry ctx s
  | .rotPassStart stack => Sys2Proof.Machine.execRotPassStart stack s
  | .memRotReqWrite f v => Sys2Proof.Machine.execMemRotReqWrite f v s
  | .rotCopyDone stack => Sys2Proof.Machine.execRotCopyDone stack s
  | .rotSwitch stack => Sys2Proof.Machine.execRotSwitch stack s
  | .rotTrainDone stack ok => Sys2Proof.Machine.execRotTrainDone stack ok s
  | .rotTestDone stack ok => Sys2Proof.Machine.execRotTestDone stack ok s
  | .memTransfer stack ch line write user tries => Sys2Proof.Machine.execMemTransfer stack ch line write user tries s
  | .pageRetirementDone stack ch => Sys2Proof.Machine.execPageRetirementDone stack ch s
  | .patrolPassStart => Sys2Proof.Machine.execPatrolPassStart s
  | .memHotClearExpiry stack => Sys2Proof.Machine.execMemHotClearExpiry stack s
  | .rebuildComplete l => Sys2Proof.Machine.execRebuildComplete l s
  | .regionScrubDone => Sys2Proof.Machine.execRegionScrubDone s
  | .memPutReceive lane hdr payload => Sys2Proof.Machine.execMemPutReceive lane hdr payload s
  | .memGetReceive lane hdr payload => Sys2Proof.Machine.execMemGetReceive lane hdr payload s
  | .memAtomicReceive lane hdr payload => Sys2Proof.Machine.execMemAtomicReceive lane hdr payload s
  | .fabricMemDone => Sys2Proof.Machine.execFabricMemDone s
  | .timeSyncSend link dom => Sys2Proof.Machine.execTimeSyncSend link dom s
  | .timeAnnounceSend link dom => Sys2Proof.Machine.execTimeAnnounceSend link dom s
  | .timeSyncReceive lane body => Sys2Proof.Machine.execTimeSyncReceive lane body s
  | .timeDelayReqReceive lane body => Sys2Proof.Machine.execTimeDelayReqReceive lane body s
  | .timeDelayRespReceive lane body => Sys2Proof.Machine.execTimeDelayRespReceive lane body s
  | .timeAnnounceReceive lane body => Sys2Proof.Machine.execTimeAnnounceReceive lane body s
  | .timeExchangeTimeout dom => Sys2Proof.Machine.execTimeExchangeTimeout dom s
  | .timeMasterLost dom => Sys2Proof.Machine.execTimeMasterLost dom s
  | .ppsEdge => Sys2Proof.Machine.execPpsEdge s
  | .ppsNoEdgeTimeout => Sys2Proof.Machine.execPpsNoEdgeTimeout s
  | .ppsOutRise => Sys2Proof.Machine.execPpsOutRise s
  | .ppsOutFall => Sys2Proof.Machine.execPpsOutFall s
  | .timeSwitch f => Sys2Proof.Machine.execTimeSwitch f s
  | .timeReacq f ta tb => Sys2Proof.Machine.execTimeReacq f ta tb s
  | .timeDomainDisable f dom v => Sys2Proof.Machine.execTimeDomainDisable f dom v s
  | .timeNowRead f => Sys2Proof.Machine.execTimeNowRead f s
  | .cmdTail f page v => Sys2Proof.Machine.execCmdTail f page v s
  | .cqHead f page v => Sys2Proof.Machine.execCqHead f page v s
  | .cqArm f page => Sys2Proof.Machine.execCqArm f page s
  | .eqHead f page v => Sys2Proof.Machine.execEqHead f page v s
  | .eqArm f page => Sys2Proof.Machine.execEqArm f page s
  | .tdmaTail f page v => Sys2Proof.Machine.execTdmaTail f page v s
  | .ploadTail f page v => Sys2Proof.Machine.execPloadTail f page v s
  | .doorbellStray f page off bytes v => Sys2Proof.Machine.execDoorbellStray f page off bytes v s
  | .descriptorFetch k ring answer => Sys2Proof.Machine.execDescriptorFetch k ring answer s
  | .hostBufferAccess k ring answer => Sys2Proof.Machine.execHostBufferAccess k ring answer s
  | .coalUsExpiry k ring => Sys2Proof.Machine.execCoalUsExpiry k ring s
  | .ringEnable f k ring v => Sys2Proof.Machine.execRingEnable f k ring v s
  | .ringDisable f k ring v => Sys2Proof.Machine.execRingDisable f k ring v s
  | .ringDrained k ring => Sys2Proof.Machine.execRingDrained k ring s
  | .ringAssignWrite f ring v => Sys2Proof.Machine.execRingAssignWrite f ring v s
  | .sendFrame ring => Sys2Proof.Machine.execSendFrame ring s
  | .telemetryBuf ring => Sys2Proof.Machine.execTelemetryBuf ring s
  | .telemetryBufTimeout die => Sys2Proof.Machine.execTelemetryBufTimeout die s
  | .memWrite ring => Sys2Proof.Machine.execMemWrite ring s
  | .memRead ring => Sys2Proof.Machine.execMemRead ring s
  | .debugRead ring badWords => Sys2Proof.Machine.execDebugRead ring badWords s
  | .nop ring => Sys2Proof.Machine.execNop ring s
  | .getInfo => Sys2Proof.Machine.execGetInfo s
  | .getMeasurement => Sys2Proof.Machine.execGetMeasurement s
  | .fwStage image flashOk => Sys2Proof.Machine.execFwStage image flashOk s
  | .fwRecover image => Sys2Proof.Machine.execFwRecover image s
  | .svnCommit => Sys2Proof.Machine.execSvnCommit s
  | .keyRevoke => Sys2Proof.Machine.execKeyRevoke s
  | .vfFlr n => Sys2Proof.Machine.execVfFlr n s
  | .pfFlr => Sys2Proof.Machine.execPfFlr s
  | .pcieLinkDown => Sys2Proof.Machine.execPcieLinkDown s
  | .vfEnable n => Sys2Proof.Machine.execVfEnable n s
  | .vfDisable n => Sys2Proof.Machine.execVfDisable n s
  | .linkFenceSet f link => Sys2Proof.Machine.execLinkFenceSet f link s
  | .linkFenceClear f link => Sys2Proof.Machine.execLinkFenceClear f link s
  | .deadHoldExpiry link => Sys2Proof.Machine.execDeadHoldExpiry link s
  | .fenceNAssert => Sys2Proof.Machine.execFenceNAssert s
  | .fenceNDeassert => Sys2Proof.Machine.execFenceNDeassert s
  | .fenceNHoldExpiry => Sys2Proof.Machine.execFenceNHoldExpiry s
  | .fenceUnstableClear f => Sys2Proof.Machine.execFenceUnstableClear f s
  | .wakeNAssert => Sys2Proof.Machine.execWakeNAssert s
  | .wakeNHoldExpiry => Sys2Proof.Machine.execWakeNHoldExpiry s
  | .wakeRearm f => Sys2Proof.Machine.execWakeRearm f s
  | .perstNAssert => Sys2Proof.Machine.execPerstNAssert s
  | .perstNRelease => Sys2Proof.Machine.execPerstNRelease s
  | .thermalSample set unit readings => Sys2Proof.Machine.execThermalSample set unit readings s
  | .thermalClearExpiry set unit => Sys2Proof.Machine.execThermalClearExpiry set unit s
  | .counterRead f index => Sys2Proof.Machine.execCounterRead f index s
  | .sampleDataRead f die => Sys2Proof.Machine.execSampleDataRead f die s
  | .pwrGoodAssert => Sys2Proof.Machine.execPwrGoodAssert s
  | .pwrGoodDeassert => Sys2Proof.Machine.execPwrGoodDeassert s
  | .vinTrip vin => Sys2Proof.Machine.execVinTrip vin s
  | .ilimTrip vin => Sys2Proof.Machine.execIlimTrip vin s
  | .overcurrentTrip vin => Sys2Proof.Machine.execOvercurrentTrip vin s
  | .railFault rail vin => Sys2Proof.Machine.execRailFault rail vin s
  | .vinStable => Sys2Proof.Machine.execVinStable s
  | .powerCapSample vin iin pin energy => Sys2Proof.Machine.execPowerCapSample vin iin pin energy s
  | .cappingClearExpiry => Sys2Proof.Machine.execCappingClearExpiry s
  | .pwrReqActive f => Sys2Proof.Machine.execPwrReqActive f s
  | .pwrReqParked f => Sys2Proof.Machine.execPwrReqParked f s
  | .pwrReqRetain f => Sys2Proof.Machine.execPwrReqRetain f s
  | .pwrReqStandby f => Sys2Proof.Machine.execPwrReqStandby f s
  | .i3cRequestWake => Sys2Proof.Machine.execI3cRequestWake s
  | .i3cRequestStandby => Sys2Proof.Machine.execI3cRequestStandby s
  | .parkDrainDone => Sys2Proof.Machine.execParkDrainDone s
  | .parkDrainLimit => Sys2Proof.Machine.execParkDrainLimit s
  | .parkDisableDone => Sys2Proof.Machine.execParkDisableDone s
  | .lowPowerEntryDone => Sys2Proof.Machine.execLowPowerEntryDone s
  | .wakeTimer => Sys2Proof.Machine.execWakeTimer s
  | .wakeParkedDone => Sys2Proof.Machine.execWakeParkedDone s
  | .wakeRetainDone => Sys2Proof.Machine.execWakeRetainDone s
  | .powerOn bl2 selfHost bootSrc => Sys2Proof.Machine.execPowerOn bl2 selfHost bootSrc s
  | .coldReset f v => Sys2Proof.Machine.execColdReset f v s
  | .warmReset f v => Sys2Proof.Machine.execWarmReset f v s
  | .pllLockLost k => Sys2Proof.Machine.execPllLockLost k s
  | .pllRelockTimeout k => Sys2Proof.Machine.execPllRelockTimeout k s
  | .crossingWaitExpiry near far => Sys2Proof.Machine.execCrossingWaitExpiry near far s
  | .patternCopyRead copy image journal => Sys2Proof.Machine.execPatternCopyRead copy image journal s
  | .journalCompactionDone => Sys2Proof.Machine.execJournalCompactionDone s
  | .railUp rail mv => Sys2Proof.Machine.execRailUp rail mv s
  | .mainResetRelease => Sys2Proof.Machine.execMainResetRelease s
  | .firmwareAccepted copy image => Sys2Proof.Machine.execFirmwareAccepted copy image s
  | .sramZeroDone => Sys2Proof.Machine.execSramZeroDone s
  | .memTrainDone failed => Sys2Proof.Machine.execMemTrainDone failed s
  | .memZeroDone => Sys2Proof.Machine.execMemZeroDone s
  | .memVerifyDone failed => Sys2Proof.Machine.execMemVerifyDone failed s
  | .moduleReady => Sys2Proof.Machine.execModuleReady s
  | .blockTransmit lane => Sys2Proof.Machine.execBlockTransmit lane s
  | .alwaysOnDomainStop => Sys2Proof.Machine.execAlwaysOnDomainStop s
  | .aonResetEnd pwrGood fenceN wakeN perstN => Sys2Proof.Machine.execAonResetEnd pwrGood fenceN wakeN perstN s
  | .pcieL1Exit => Sys2Proof.Machine.execPcieL1Exit s
  | .pllRelocked k => Sys2Proof.Machine.execPllRelocked k s
  | .timeAnnounceExpiry link dom => Sys2Proof.Machine.execTimeAnnounceExpiry link dom s
  | .wakeNDeassert => Sys2Proof.Machine.execWakeNDeassert s

end Sys2Proof.Machine
end

