-- ==== Sys2Proof/Machine/Step.lean ====
section
/-! DEFINITION. One step: the oldest waiting command takes effect; with none waiting, time passes. -/
namespace Sys2Proof.Machine

/-- With no command waiting, one unit of time passes (1/120 ns, log entry 2), and phases whose units have
become idle end (R228), and channels of the stacked memory move what waits for them (R292). -/
def tick (s : State) : State := serveChannels (endPhasesDue { s with now := s.now + 1 })

/-- Take the command at the front of the queue and run it on the state with the rest; an empty queue
lets one unit of time pass. -/
def step (s : State) : Host.Outcome State Fault Refusal :=
  match s.pending with
  | [] => .next (tick s)
  | c :: rest => exec c { s with pending := rest }

/-- Put the command that a word spells at the front of the queue; a word that spells none changes
nothing. -/
def State.withFetchWord (s : State) (nbits w : Nat) : State :=
  match decodeTableWord nbits w with
  | some c => { s with pending := c :: s.pending }
  | none => s

end Sys2Proof.Machine
end

