-- ==== Sys2Proof/Machine/RegRead.lean ====
section
/-! DEFINITION. What BAR0 reads (R8, R10 to R12, R332): every register as a view of the state. The three reads
that change the state (TIME_NOW_LO, CNT_VALUE, SMP_DATA) are commands of their own; here stands their value. -/
namespace Sys2Proof.Machine

/-- The sum of fields of a register. -/
def rd (l : List Nat) : Word := mkWord l

/-! ### GLOBAL: R9, R19, R72, R217, R309, R447 -/

def capUnits (v : Variant) : Word :=
  rd [at_ 40 0x20, at_ 32 (if v = .c then 0 else 0x40), at_ 24 (if v = .m then 0 else 0x14), at_ 16 0x22, at_ 8 4,
    at_ 4 (b2n (v != .m && v != .c)), at_ 3 (b2n (v != .c)), at_ 2 (b2n (v != .m)), at_ 1 (b2n (v != .b)), 1]

def capOptics (v : Variant) : Word :=
  rd [at_ 40 (if v = .b then 0 else 0x10), at_ 32 2, at_ 24 2, at_ 16 0x40, 0x1144]

def capMemory (v : Variant) : Word :=
  if v = .m then 0 else rd [at_ 40 0x14, at_ 32 0x21, at_ 24 1, at_ 12 0x200, 0x400]

def capCompute (v : Variant) : Word :=
  if v = .c then 0
  else rd [at_ 54 0x200, at_ 48 (if v = .m then 0 else 0xF), at_ 40 0xFF, 0x00071F1F]

def variantCode : Variant → Nat
  | .x => 0x58 | .b => 0x42 | .m => 0x4D | .c => 0x43

def readGlobal (s : State) (off : Nat) : Word :=
  let b := s.boot
  match off with
  | 0x00 => rd [at_ 48 0x2048, at_ 40 (variantCode s.variant), at_ 32 (b.stepping % 256)]
  | 0x08 => b.serial
  | 0x10 => capUnits s.variant
  | 0x18 => capOptics s.variant
  | 0x20 => capMemory s.variant
  | 0x28 => capCompute s.variant
  | 0x30 => rd [at_ 60 b.modState, at_ 56 b.stage, at_ 24 b.readyMs, b2n b.selfHostFallback]
  | 0x38 => rd [at_ 63 (b2n b.patDefaulted), at_ 60 b.patCopy, at_ 56 b.aRes, at_ 52 b.bRes,
      at_ 27 b.journalEntries, at_ 26 (b2n b.journalFull), at_ 25 (b2n b.journalErr)]
  | 0x48 => rd [at_ 48 b.warmCount, b.lastCause]
  | 0x50 => rd [at_ 3 (b2n b.strapSelfHost), at_ 1 b.strapBootSrc, b2n b.strapBl2]
  | _ => getR s off

/-! ### POWER and CLOCK: R415, R424, R425, R430, R448 -/

/-- The state of rail r: VSRAM in retention and the rails that RETAIN takes down, by R415. -/
def railState (s : State) (r : Nat) : Nat :=
  if r = 0 then 1
  else if s.pwr.state = 3 then
    if bit (getR s oPWR_FAULT) 63 && rf s oPWR_FAULT 62 60 == 4 && rf s oPWR_FAULT 59 56 == r then 3 else 0
  else if s.pwr.state = 2 then
    if r = 2 then 2 else if r = 1 ∨ r = 3 ∨ r = 8 ∨ r = 10 then 1 else 0
  else b2n (decide (r ≤ s.pwr.railUpTo))

/-- What a rail's converter measures: a rail that is off reads 0, else the reading is open (log entry 47). -/
def railWord (s : State) (r : Nat) : Word :=
  let st := railState s r
  if st = 0 ∨ st = 3 then rd [st]
  else rd [at_ 48 (Config.railReading r 0 s.now % 2 ^ 16), at_ 32 (Config.railReading r 1 s.now % 2 ^ 16),
    at_ 16 (Config.railReading r 2 s.now % 2 ^ 16), st]

/-- The nominal frequency of a clock domain in kHz (R425, R379); that of domain 11 is open (log entry 47). -/
def domainKhz (s : State) (k : Nat) : Nat :=
  match k with
  | 1 => 32
  | 2 => 25000
  | 3 => 1000000
  | 4 | 5 | 6 | 7 => if s.hlt.throttled.contains (k - 4) then 1200000 else 1600000
  | 8 => 2800000
  | 9 => 1600000
  | 10 => 4000000
  | 11 => Config.oeTxKhz % 2 ^ 24
  | 13 => 1000000
  | 14 => 390625
  | 15 => 200000
  | 17 => 100000
  | 18 => 250000
  | _ => 0

/-- CLK_STATUS.STATE: in PARKED the quadrant and die-to-die clocks are gated. -/
def clockState (s : State) (k : Nat) : Nat :=
  if pllLost s k then 4
  else if s.pwr.state = 1 ∧ (k = 10 ∨ (4 ≤ k ∧ k ≤ 7)) then 1
  else if !domainOn s k then 0
  else if 4 ≤ k ∧ k ≤ 7 ∧ s.hlt.throttled.contains (k - 4) then 3
  else 2

def clockWord (s : State) (k : Nat) : Word :=
  let st := clockState s k
  rd [at_ 16 (if st = 2 ∨ st = 3 then domainKhz s k else 0), st]

def readPower (s : State) (off : Nat) : Word :=
  let p := s.pwr
  let k := (off - 0x101000) / 8
  let r := (off - 0x100100) / 8
  if off = 0x100000 then 0
  else if off = 0x100010 then
    rd [at_ 61 p.state, at_ 58 p.target, at_ 54 p.lastWake, at_ 50 p.reqResult, at_ 3 (b2n p.capping),
      at_ 2 (b2n p.uvWarn), at_ 1 (b2n p.ilim), b2n p.pwrGood]
  else if off = 0x100018 then rd [at_ 48 (p.vin % 2 ^ 16), at_ 32 (p.iin % 2 ^ 16), at_ 16 (p.pin % 2 ^ 16)]
  else if off = 0x100020 then BitVec.ofNat 64 p.energy
  else if 0x100100 ≤ off ∧ off < 0x100160 then railWord s r
  else if 0x101008 ≤ off ∧ off ≤ 0x101090 then clockWord s k
  else getR s off

/-! ### TIME: R311 to R314, R329 -/

/-- Two's complement 2⁻¹⁶ ns of a value in 2⁻⁴⁸ ns. -/
def ns16 (x : Int) : Word := BitVec.ofNat 64 (enc 64 (x / 2 ^ 32))

def abOffset (s : State) : Int :=
  if (dom s 0).state = 0 ∨ (dom s 1).state = 0 then 0 else domValue s 0 - domValue s 1

def readDom (s : State) (k o : Nat) : Word :=
  let d := dom (reselect s k) k
  match o with
  | 0x08 => rd [at_ 56 d.gmClass, at_ 48 d.gmPriority, at_ 32 (min 0xFFFF (d.pathDelay / 131072)), at_ 16 d.upstream,
      at_ 3 (b2n d.stepNeeded), d.state]
  | 0x10 => rd [enc 40 d.rate]
  | 0x18 => ns16 d.offset
  | 0x20 => BitVec.ofNat 64 d.gm
  | _ => getR s (oDOM_CFG k + o)

def readTime (s : State) (off : Nat) : Word :=
  match off with
  | 0x200000 => rd [at_ 10 (b2n ((dom s s.tim.sel).state == 3 || (s.tim.inForce && s.tim.free.isSome))), at_ 9 (b2n s.tim.inForce), at_ 8 s.tim.sel]
  | 0x200010 => timeNowLo s
  | 0x200018 => rd [s.tim.nowHi]
  | 0x200020 => ns16 (abOffset s)
  | 0x200028 => ns16 s.tim.d
  | _ =>
    if 0x200100 ≤ off ∧ off < 0x200140 then readDom s 0 (off - 0x200100)
    else if 0x200140 ≤ off ∧ off < 0x200180 then readDom s 1 (off - 0x200140)
    else getR s off

/-! ### HOSTIF: R331, R332, R339, R366 -/

def fwStateNo : FwState → Nat
  | .booting => 0 | .running => 1 | .failed => 2 | .recovery => 3

def ringStatus (s : State) (k : RingKind) (i : Nat) : Word :=
  let r := ring s k i
  rd [at_ 40 r.head, at_ 16 r.tail, at_ 12 r.lost, at_ 8 r.fault, r.state]

/-- A register of a ring's 32 bytes; RING_CFG as it takes effect. -/
def readRing (s : State) (k : RingKind) (i o : Nat) : Word :=
  match o with
  | 0x00 => getR s (ringOff k i)
  | 0x08 => ringCfg s k i
  | 0x10 => ringStatus s k i
  | 0x18 => match k with
    | .cmd => getR s (ringOff k i + 0x18)
    | _ => 0
  | _ => 0

def hifStatus (s : State) : Word :=
  rd [at_ 48 s.hif.epoch, at_ 40 s.hif.vfs.length, at_ 33 (fwStateNo s.boot.fwState), at_ 32 (b2n s.boot.strapSelfHost),
    at_ 30 s.boot.fwCopy]

/-- The pending bits of vectors 64w to 64w + 63 of the PF. -/
def pbaWord (s : State) (w : Nat) : Word := tget 0 s.hif.pba w

def readHif (s : State) (off : Nat) : Word :=
  let h := s.hif
  if off = 0x400000 then hifStatus s
  else if off = oMBOX_CTRL then
    getR s off ||| rd [at_ 62 (b2n h.mboxBusy), at_ 61 (b2n h.mboxDone), at_ 48 h.mboxStatus]
  else if 0x400100 ≤ off ∧ off < 0x4001C0 then
    let w := (off - 0x400100) % 0x40 / 8
    if w < 6 then measWord s ((off - 0x400100) / 0x40) w else 0
  else if 0x410000 ≤ off ∧ off < 0x412000 then readRing s .cmd ((off - 0x410000) / 32) (off % 32)
  else if 0x420000 ≤ off ∧ off < 0x422000 then readRing s .cq ((off - 0x420000) / 32) (off % 32)
  else if 0x430000 ≤ off ∧ off < 0x430200 then readRing s .eq ((off - 0x430000) / 32) (off % 32)
  else if 0x431000 ≤ off ∧ off < 0x431800 then readRing s .tdma ((off - 0x431000) / 32) (off % 32)
  else if 0x432000 ≤ off ∧ off < 0x432080 then readRing s .pload ((off - 0x432000) / 32) (off % 32)
  else if 0x440000 ≤ off ∧ off < 0x441000 then msixWord s ((off - 0x440000) / 8)
  else if 0x441000 ≤ off ∧ off < 0x441020 then pbaWord s ((off - 0x441000) / 8)
  else if 0x450400 ≤ off ∧ off < 0x450800 then tget 0 h.mboxResp ((off - 0x450400) / 8)
  else getR s off

/-! ### OPTICS: R39, R44, R73 -/

/-- The working and spare channel keys of fibre f of engine n. -/
def fibreKeys (n f : Nat) : List Nat := (List.range 34).map fun x => 256 * n + 34 * f + x

def engineKeys (n : Nat) : List Nat := (List.range (engineChans n)).map fun t => 256 * n + t

def freeSpares (s : State) (d : Dir) (l : List Nat) : Nat :=
  (l.filter fun k => decide (32 ≤ k % 256 % 34) && spareFree (chan s d k)).length

/-- Circuits of an engine in SETTING, THROUGH or RELEASING. -/
def activeSprues (s : State) (n : Nat) : List Sprue :=
  ((List.range 16).map fun i => tget ({} : Sprue) s.opt.sprues (16 * n + i)).filter fun e => decide (2 ≤ e.state)

/-- Some fibre of the engine has no free spare on one of its sides. -/
def engineExhausted (s : State) (n : Nat) : Bool :=
  (List.range (engineChans n / 34)).any fun f =>
    let k := 256 * n + 34 * f
    fibreSpent s.opt.lasers k || fibreSpent s.opt.drops k

def oeStatus (s : State) (n : Nat) : Word :=
  let e := engine s n
  rd [at_ 40 (freeSpares s .tx (engineKeys n)), at_ 32 (freeSpares s .rx (engineKeys n)),
    at_ 24 ((engineLanes n).filter fun q => laneRetired (lane s q)).length, at_ 16 (activeSprues s n).length,
    at_ 8 (e.calChannel % 256), at_ 3 (b2n (engineExhausted s n)), at_ 2 (b2n (interlock s || !bit (getR s (oENGINE n)) 0)), e.state]

/-- A faulty sensor reads 0x8000 (R48, R73). -/
def oeTemp (s : State) (n : Nat) : Word :=
  let e := engine s n
  rd ((List.range 4).map fun i =>
    at_ (16 * i) (if nth false e.faulty i then 0x8000 else (nth 0 e.temps i).toNat))

def fibreStatus (s : State) (n f : Nat) (d : Dir) : Word :=
  let ks := fibreKeys n f
  let side := match d with | .tx => 0 | .rx => 4
  let cs := ks.map fun k => (k % 256 % 34, chan s d k)
  let held := (activeSprues s n).filter fun e => (match d with | .tx => e.txFibre | .rx => e.rxFibre) == f
  rd [at_ 16 held.length,
    at_ 13 (b2n (tget false s.opt.calSuspended (8 * n + side + f))),
    at_ 10 (cs.filter fun c => decide (32 ≤ c.1) && carries c.2).length,
    at_ 8 (freeSpares s d ks),
    (cs.filter fun c => decide (c.1 < 32) && c.2.state == 8).length]

/-- LASER_STATUS or DROP_STATUS: a channel of a dark engine reads DARK, one that a circuit has SPRUED, one that lost
lock LOCKING; a channel that is retired or failed its test carries no lane. -/
def chanStatus (s : State) (n t : Nat) (d : Dir) : Word :=
  let k := 256 * n + t
  let c := chan s d k
  let gone := c.state == 8 || c.state == 9
  let st := if gone then c.state
    else if !engineLit s n then 0 else if sprueHas s d k then 7 else if c.lostLock then 1 else c.state
  rd [at_ 51 (if gone then 0x1FFF else c.lane), at_ 40 (match d with | .tx => c.fade % 256 | .rx => 0),
    at_ 32 (c.colour % 64), at_ 8 (if gone then 0xFF else c.serves % 256), st]

/-- SPRUE_STATE: a circuit that an admitted plan claims reads CLAIMED before its set time. -/
def sprueState (s : State) (n i : Nat) : Word :=
  let e := if (sprue s n i).state = 0 then claimedSprue s n i else sprue s n i
  rd [at_ 48 e.ctx, at_ 32 (e.colour % 64), at_ 26 (e.txFibre % 4), at_ 24 (e.rxFibre % 4), e.state]

/-- The chill entry that CHILL_ADDR selects; one that addresses no entry reads 0. -/
def chillData (s : State) (n : Nat) : Word :=
  let key := rf s (oCHILL_ADDR n) 23 3
  if (chillIndex n key).isSome then chillAt s n key else 0

def readOptics (s : State) (off : Nat) : Word :=
  let n := (off - 0x800000) / 0x10000
  let o := off % 0x10000
  let fibres := engineChans n / 34
  if 0xA20000 ≤ off then getR s off
  else if o = 8 then oeStatus s n
  else if o = 0x10 then oeTemp s n
  else if 0x100 ≤ o ∧ o < 0x100 + 8 * fibres then fibreStatus s n ((o - 0x100) / 8) .tx
  else if 0x120 ≤ o ∧ o < 0x120 + 8 * fibres then fibreStatus s n ((o - 0x120) / 8) .rx
  else if 0x1000 ≤ o ∧ o < 0x1000 + 8 * engineChans n then chanStatus s n ((o - 0x1000) / 8) .tx
  else if 0x2000 ≤ o ∧ o < 0x2000 + 8 * engineChans n then chanStatus s n ((o - 0x2000) / 8) .rx
  else if 0x3000 ≤ o ∧ o < 0x3080 ∧ n < 32 then sprueState s n ((o - 0x3000) / 8)
  else if o = 0x4008 then chillData s n
  else getR s off

/-! ### LINK: R81, R84, R111 -/

def linkStatus (s : State) (l : Nat) : Word :=
  let k := link s l
  rd [at_ 32 k.cause, at_ 16 (upLanes s l).length, at_ 8 (b2n (linkBl2Cfg s l)),
    linkStateOf s l]

def laneStatus (s : State) (q : Nat) : Word :=
  let x := lane s q
  rd [at_ 48 (b2n x.los), at_ 40 (linkLane q), at_ 32 (min 32 x.held.length), at_ 16 (x.expect % 4096),
    at_ 8 (min 8 x.attempt), x.state]

def readLink (s : State) (off : Nat) : Word :=
  let l := (off - 0xC10000) / 0x20
  if off = 0xC00000 then rd [b2n s.boot.strapBl2]
  else if 0xC10000 ≤ off ∧ l < 2050 then
    match off % 0x20 with
    | 0x08 => linkStatus s l
    | 0x10 => BitVec.ofNat 64 (link s l).partner
    | _ => getR s off
  else if 0xC40000 ≤ off ∧ off < 0xC40000 + 8 * 4160 then laneStatus s ((off - 0xC40000) / 8)
  else getR s off

/-! ### SWITCH: R103, R118 to R126, R133, R149, R150 -/

def mib (cells : Nat) : Nat := cells / 4096

/-- Cells of the landing reserve of a die that arriving frames hold (R118, R119, R139). -/
def landingUsed (s : State) (d : Nat) : Nat :=
  (s.sw.queue.filter fun q => q.place == .landing && q.die == d).foldl (fun n q => n + (qCells q - q.sentCells))
    ((s.sw.mcq.filter fun m => m.q.place == .landing && m.q.die == d).foldl (fun n m => n + qCells m.q) 0)

def dieDeep (s : State) (d : Nat) : Nat :=
  (s.sw.queue.filter fun q => q.place == .deep && q.die == d).foldl (fun n q => n + qCells q) 0

def dieStatus (s : State) (d : Nat) : Word :=
  rd [at_ 40 (mib (dieDeep s d)), at_ 20 (mib (poolFree s d) % 4096), at_ 8 (mib (poolUsed s d + landingUsed s d) % 4096),
    at_ 1 (b2n (tget false s.sw.deepFull d)), b2n (s.sw.spilling.any fun v => v.1 == d)]

/-- FRAME counts slot frames of NT, or of LT before NT is in force; SLOT reads 0 while the first frame of NT is
awaited. -/
def gateStatus (s : State) (d : Nat) : Word :=
  let frame := if s.sw.slotNt then ntCells s / 1024 else ltCells s / 1024
  rd [at_ 48 (s.sw.resv.filter fun r => dieOfGroup r.outGroup == d).length, at_ 32 ((slotNow s).getD 0),
    frame % 2 ^ 32]

def qstat (s : State) (l : Nat) : Word :=
  rd [at_ 63 (b2n (link s l).sat), at_ 62 (b2n (s.sw.spilling.any fun v => v.2.2.1 == l)),
    at_ 24 (min 0xFFFFFF (linkQ s l / 1024)), min 0xFFFFFF (deepQ s l / 1024)]

def readSwitch (s : State) (off : Nat) : Word :=
  let d := (off - 0x1000000) / 0x200000
  let o := (off - 0x1000000) % 0x200000
  if o < 0x1000 then getR s (oSW_CTRL + o)
  else if o = 0x1000 then dieStatus s d
  else if o = 0x1008 then gateStatus s d
  else if 0x10000 ≤ o ∧ o ≤ 0x11000 then
    let i := (o - 0x10000) / 8
    qstat s (if i < 512 then 512 * d + i else if d < 2 then 2048 else 2049)
  else getR s off

/-! ### TABLES: R166, R177, R182 -/

/-- Trie nodes of a level that hold an entry: a node is free while every entry of it is 0 (log entry 48). -/
def nodesUsed (s : State) (level : Nat) : Nat :=
  ((s.tbl.lpmNode.filter fun e => e.1 / 2 ^ 29 == level).map fun e => e.1 % 2 ^ 29 / 256).foldl addNew [] |>.length

def lpmFree (s : State) : Nat := (List.range 6).foldl (fun m i => min m (21120 - nodesUsed s (i + 1))) 21120

def tblStatus (s : State) : Word :=
  rd [at_ 41 (emUsed s), at_ 15 (ceilDiv (shadowUse s.tbl.shadow) 1024), lpmFree s]

def partStatus (s : State) (p : Nat) : Word :=
  let w := window s p
  rd [at_ 63 (b2n w.isOpen), at_ 62 (b2n w.lock), at_ 61 (b2n (s.tbl.purges.any fun e => e.2.part == p)),
    at_ 60 (b2n w.long), at_ 32 (s.tbl.route.filter fun e => rtValid e.2 && rtPart e.2 == p).length,
    at_ 15 (ceilDiv (shadowUse (s.tbl.shadow.filter fun b => b.part == p)) 1024)]

def readTables (s : State) (off : Nat) : Word :=
  if off = 0x1800018 then tblStatus s
  else if 0x1801000 ≤ off ∧ off < 0x1801000 + 8 * 65 then partStatus s ((off - 0x1801000) / 8)
  else getR s off

/-! ### CRUCIBLE and PLAN: R212 to R215, R218, R251 -/

def slotCount (s : State) (cu : Nat) (p : Slot → Bool) : Nat :=
  (s.cru.slots.filter fun e => e.1 / 512 == cu && p e.2).length

/-- FAULT while a slot's uncorrectable error awaits the slot's release; ACTIVE while a slot is in use. -/
def cruStatus (s : State) (cu : Nat) : Word :=
  if !hasCrucibles s then 0
  else
    let st := if 0 < slotCount s cu (·.ue) then 2
      else if 0 < slotCount s cu (fun v => v.use == 1 || v.use == 2) then 1 else 0
    rd [at_ 40 (slotCount s cu (·.retired)), at_ 30 (poolSlots s cu).length,
      at_ 20 (slotCount s cu fun v => v.use == 1), at_ 10 (slotCount s cu fun v => v.use == 3), st]

def spruesUsed (s : State) : Nat :=
  sumOf ((heldPlans s).map fun e => (e.2.claims.filter fun c => claimKind c == clSPRUE).length)

def planAdmit (s : State) : Word :=
  rd [at_ 54 (bwUsed s), at_ 37 (phasesUsed s), at_ 20 (windowsUsed s), at_ 10 (spruesUsed s)]

def launchStatus (s : State) (d : Nat) : Word :=
  let l := launchStore s d
  rd [at_ 32 l.length, ((l.filter fun x => !x.release).map (·.time)).min?.getD 0 % 2 ^ 32]

/-- The lowest phase not yet ended in the present run, which between runs is the next one (R231, R251). -/
def planPhase (p : Plan) : Nat :=
  if !p.running && p.state != 3 then 0xFFF
  else ((List.range p.phases.length).find? fun k => !p.phaseEnded.contains k).getD 0xFFF

/-- PLAN_CTX_STATUS: STATE is LOADING while a PLAN_LOAD fetches its image for the context (R244, R251). -/
def planCtxStatus (s : State) (c : Nat) : Word :=
  let p := planOf s c
  let (st, ring) := match loadingRing s c with
    | some i => (1, i)
    | none => (p.state, p.ring)
  rd [at_ 32 p.planId, at_ 28 st, at_ 16 (planPhase p), at_ 14 ring, at_ 8 p.lastRun, b2n p.sprueFailed]

def planCuStatus (s : State) (n : Nat) : Word :=
  let q := tget ({} : Seqr) s.plan.seqs n
  rd [at_ 63 (b2n q.busy), at_ 51 (if q.busy then q.ctx else 0), at_ 39 (if q.busy then q.phase else 0), at_ 23 q.last]

def readPlan (s : State) (off : Nat) : Word :=
  if 0x2010000 ≤ off ∧ off < 0x2010200 then cruStatus s ((off - 0x2010000) / 8)
  else if off = 0x2100008 then planAdmit s
  else if 0x2100020 ≤ off ∧ off < 0x2100040 then launchStatus s ((off - 0x2100020) / 8)
  else if 0x2110000 ≤ off ∧ off < 0x2118000 then planCtxStatus s ((off - 0x2110000) / 8)
  else if 0x2120000 ≤ off ∧ off < 0x2120200 then planCuStatus s ((off - 0x2120000) / 8)
  else getR s off

/-! ### CONTEXTS: R255, R259, R276 to R281 -/

/-- 1 a dynamic invocation, 2 a plan run. -/
def ctxRunning (s : State) (c : Nat) : Nat :=
  if (ctxOf s c).dyn then 1 else if (planOf s c).running then 2 else 0

def ctxStatus (s : State) (c : Nat) : Word :=
  let x := ctxOf s c
  let run := ctxRunning s c
  let st := if x.state = 1 ∧ run ≠ 0 then 2 else x.state
  rd [at_ 60 st, at_ 53 (ctxPart x), at_ 51 run, at_ 44 x.excluded.length,
    at_ 32 (min 4095 (openChunks x).length), x.n % 2 ^ 32]

def readContexts (s : State) (off : Nat) : Word :=
  if 0x2810000 ≤ off ∧ off < 0x2818000 then ctxStatus s ((off - 0x2810000) / 8)
  else if 0x2820000 ≤ off ∧ off < 0x2828000 then BitVec.ofNat 64 ((ctxOf s ((off - 0x2820000) / 8)).hash % 2 ^ 32)
  else if 0x2830000 ≤ off ∧ off < 0x2838000 then ctxArrivalWord s ((off - 0x2830000) / 8)
  else getR s off

/-! ### MEMORY: R284 to R302, R310 -/

def retiredChans (s : State) (p : Nat → Bool) : Nat :=
  (s.mem.map.filter fun e => e.2.retired && p e.1).length

def stackStatus (s : State) (k : Nat) : Word :=
  let x := stk s k
  let r := rot s k
  rd [at_ 56 (x.temp % 256), at_ 55 (b2n x.hot), at_ 54 (b2n (x.spare == noSpare)), at_ 48 x.spare, at_ 42 r.src,
    at_ 39 r.phase, at_ 38 (b2n r.repair), at_ 32 x.failed, at_ 26 (retiredChans s fun l => l % 20 == k), r.copyLine]

def chStatus (s : State) (k h : Nat) : Word :=
  let c := memCh s k h
  rd [at_ 60 c.state, at_ 50 c.logical, at_ 32 c.repairRows, at_ 16 (min 0xFFFF c.ce), min 0xFFFF c.retries]

/-- A retired channel awaits its rebuild: a RECAST_OPEN, or its relief block (R301, R310). -/
def rebuildAwaited (s : State) : Bool := !s.mem.pendingRebuild.isEmpty || s.mem.relief.any fun r => !r.ready

/-- REGION_TOP is a granule number that [63:33] holds whole (R285). -/
def memStatus (s : State) : Word :=
  let retired := retiredChans s fun _ => true
  let spent := s.mem.stks.any fun e => e.2.spare == noSpare
  rd [at_ 33 (regionTop s), at_ 24 (s.mem.rebuilds % 32), at_ 16 (min 0xFF retired), at_ 8 (rotating s),
    at_ 2 (b2n s.mem.reliefFull), at_ 1 (b2n (rebuildAwaited s)), b2n (spent || 0 < retired)]

def chMap (s : State) (l : Nat) : Word :=
  let e := mapOf s l
  rd [at_ 63 1, at_ 62 (b2n e.retired), at_ 61 (b2n e.rebuilt), at_ 8 e.stack, e.ch]

def readMem (s : State) (off : Nat) : Word :=
  let o := off % 0x10000
  if !hasStacks s then 0
  else if off < 0x3140000 then
    let k := (off - 0x3000000) / 0x10000
    if o = 0 then stackStatus s k else if 0x100 ≤ o ∧ o < 0x208 then chStatus s k ((o - 0x100) / 8) else 0
  else if off = 0x3200018 then memStatus s
  else if 0x3210000 ≤ off ∧ off < 0x3210000 + 8 * 640 then chMap s ((off - 0x3210000) / 8)
  else getR s off

/-! ### HEALTH and EVENTS: R370 to R382, R384 -/

def healthCounts (s : State) : Word :=
  let spares := sumOf ((List.range 34).map fun n => freeSpares s .tx (engineKeys n))
  rd [at_ 51 ((upTo 4160).filter (laneUp s)).length,
    at_ 38 ((upTo 4160).filter fun q => laneRetired (lane s q)).length, at_ 29 spares,
    at_ 19 (retiredChans s fun _ => true), at_ 3 (s.cru.slots.filter fun e => e.2.retired).length]

def linkFence (s : State) (l : Nat) : Word :=
  let k := link s l
  rd [at_ 8 (min 255 (recentDowns s l).length), at_ 2 k.source, at_ 1 (b2n k.wanted), b2n k.fenced]

def pinStatus (s : State) : Word :=
  let h := s.hlt
  rd [at_ 6 (b2n h.wakeMasked), at_ 5 (b2n h.fenceHeld), at_ 4 (b2n h.fenceUnstable), at_ 3 (b2n h.moduleFenced),
    at_ 2 (b2n h.fenceN), at_ 1 (b2n h.wakeN), b2n h.perstN]

/-- The highest valid reading of some sets in whole °C; 0 before the first sample. -/
def topTemp (s : State) (set : SensorSet) (us : List Nat) : Nat :=
  let l := us.flatMap fun u => let t := therm s set u; if t.readings.isEmpty then [] else validOf set t.readings t.excluded
  match topOf l with
  | some x => enc 8 (x / 16)
  | none => 0

def thermStatus (s : State) : Word :=
  let h := s.hlt
  rd [at_ 56 (topTemp s .die [3]), at_ 48 (topTemp s .die [2]), at_ 40 (topTemp s .die [1]), at_ 32 (topTemp s .die [0]),
    at_ 24 (topTemp s .stack (List.range 20)), at_ 16 (topTemp s .engine (List.range 34)), at_ 12 h.tripSrc,
    sumOf (h.throttled.map fun d => at_ (8 + d) 1), at_ 3 (b2n (!h.limited.isEmpty)), at_ 2 (b2n h.tripLatch),
    at_ 1 (b2n (h.therm.any fun e => e.2.warn)), b2n h.alert]

def readHealth (s : State) (off : Nat) : Word :=
  match off with
  | 0x3800000 => BitVec.ofNat 64 (healthWord s (healthBits s))
  | 0x3800008 => healthCounts s
  | 0x3800018 => pinStatus s
  | 0x3800028 => thermStatus s
  | _ =>
    if 0x3801000 ≤ off ∧ off < 0x3801000 + 8 * 2050 then linkFence s ((off - 0x3801000) / 8) else getR s off

/-! ### COUNTERS: R385 to R387, R400 -/

def readCounters (s : State) (f : Func) (off : Nat) : Word :=
  let i := (off - 0x3C00000) / 16
  let d := (off - 0x3FF0100) / 0x20
  if i < 258048 then
    let v := counterValue s i
    if off % 16 = 0 then BitVec.ofNat 64 v else rd [at_ 32 (nt32 s), v % 2 ^ 32]
  else if off = 0x3FF0000 then tget 0 s.cnt.last (lastSlot f)
  else if 0x3FF0100 ≤ off ∧ d < 4 then
    match off % 0x20 with
    | 0x10 => rd [(smp s d).recs.length]
    | 0x18 => sampleWordAt s d
    | _ => getR s off
  else getR s off

/-! ### BAR0: R10, R11, R332 -/

/-- What the PF, the self-hosted driver or firmware reads. -/
def readPf (s : State) (f : Func) (off : Nat) : Word :=
  if !barUp s f then BitVec.ofNat 64 ones
  else if !onHifRail off && !mainAlive s then 0
  else if !crosses s off then BitVec.ofNat 64 ones
  else if off < 0x100000 then readGlobal s off
  else if off < 0x200000 then readPower s off
  else if off < 0x400000 then readTime s off
  else if off < 0x800000 then readHif s off
  else if off < 0xC00000 then readOptics s off
  else if off < 0x1000000 then readLink s off
  else if off < 0x1800000 then readSwitch s off
  else if off < 0x2000000 then readTables s off
  else if off < 0x2800000 then readPlan s off
  else if off < 0x3000000 then readContexts s off
  else if off < 0x3800000 then readMem s off
  else if off < 0x3C00000 then readHealth s off
  else readCounters s f off

/-- The BAR0 of VF n: the capabilities, the rings of its slots, its MSI-X and PART_STATUS of partition n. -/
def readVf (s : State) (n off : Nat) : Word :=
  if !barUp s (.vf n) || !s.hif.vfs.contains n then BitVec.ofNat 64 ones
  else if 0x10 ≤ off ∧ off ≤ 0x28 then readGlobal s off
  else if 0x1000 ≤ off ∧ off < 0x1400 then
    let o := off % 0x100
    match slotIndex s n ((off - 0x1000) / 0x100), o / 0x20 with
    | none, _ => 0
    | some i, 0 => if o % 0x20 < 0x18 then readRing s .cmd i (o % 0x20) else 0
    | some i, 1 => readRing s .cq i (o % 0x20)
    | some i, 2 => if i < 16 then readRing s .eq i (o % 0x20) else 0
    | _, _ => 0
  else if 0x1400 ≤ off ∧ off < 0x1418 then readRing s .tdma n (off % 0x20)
  else if 0x2000 ≤ off ∧ off < 0x2040 then msixWord s (2 * msixBase (.vf n) + (off - 0x2000) / 8)
  else if off = 0x3000 then
    let v := msixBase (.vf n)
    BitVec.ofNat 64 ((tget (0 : Word) s.hif.pba (v / 64)).toNat / 2 ^ (v % 64) % 16)
  else if off = 0x4000 then if mainAlive s then partStatus s n else 0
  else 0

/-- A read of BAR0: of any other width or alignment it returns all ones (R11). -/
def readReg (s : State) (f : Func) (off bytes : Nat) : Word :=
  if bytes ≠ 8 ∨ off % 8 ≠ 0 then BitVec.ofNat 64 ones
  else match f with
    | .vf n => readVf s n off
    | _ => readPf s f off

end Sys2Proof.Machine
end

