-- ==== Sys2Proof/Safety.lean ====
section
/-! DEFINITION. What counts as a sound state, in the terms claims use: the register file and the stacked
memory in their canonical forms, reserved register bits at their reset values, a legal EPOCH. -/
namespace Sys2Proof.Machine

/-- The register file is canonical, and the reserved bits of every register read as R12 says. -/
def regsWf (s : State) : Bool :=
  tabWf (fun off => regReset s.variant s.boot.strapBl2 off) s.regs &&
  s.regs.all fun e => decide (regClip (regInfo s.variant s.boot.strapBl2 e.1) e.2.toNat = e.2.toNat)

/-- Stacked memory lists its lines in rising order, and none that holds what an unlisted line reads as. -/
def linesWf (s : State) : Bool := tabWf (lineDef s) s.mem.lines

/-- EPOCH counts from 1 to 0xFFFF (R365). -/
def epochOk (s : State) : Bool := decide (1 ≤ s.hif.epoch) && decide (s.hif.epoch ≤ 0xFFFF)

/-- What every command keeps. -/
def Sound (s : State) : Prop := regsWf s = true ∧ linesWf s = true ∧ epochOk s = true

/-! ### The parts of State that a command may write -/

/-- The parts of State, one per chapter of the manual; `clock` is State.now, `free` counts the free values. -/
inductive Part where
  | free | regs | out | boot | pwr | opt | lnk | sw | tbl | cru | plan | coll | mem | tim | hif | hlt | cnt | clock
deriving DecidableEq, Repr

/-- A part reads the same in two states. -/
def Part.same (p : Part) (s t : State) : Prop :=
  match p with
  | .free => t.freeCtr = s.freeCtr
  | .regs => t.regs = s.regs
  | .out => t.out = s.out
  | .boot => t.boot = s.boot
  | .pwr => t.pwr = s.pwr
  | .opt => t.opt = s.opt
  | .lnk => t.lnk = s.lnk
  | .sw => t.sw = s.sw
  | .tbl => t.tbl = s.tbl
  | .cru => t.cru = s.cru
  | .plan => t.plan = s.plan
  | .coll => t.coll = s.coll
  | .mem => t.mem = s.mem
  | .tim => t.tim = s.tim
  | .hif => t.hif = s.hif
  | .hlt => t.hlt = s.hlt
  | .cnt => t.cnt = s.cnt
  | .clock => t.now = s.now

/-- At most the listed parts differ; the variant and the waiting commands never do, and time never runs back. -/
def OnlyChanges (l : List Part) (s t : State) : Prop :=
  t.pending = s.pending ∧ t.variant = s.variant ∧ s.now ≤ t.now ∧ ∀ p, p ∉ l → p.same s t

/-- Every part of State. -/
def allParts : List Part :=
  [.free, .regs, .out, .boot, .pwr, .opt, .lnk, .sw, .tbl, .cru, .plan, .coll, .mem, .tim, .hif, .hlt, .cnt, .clock]

/-- The parts that a command may write: what it does not list, the command leaves as it was. -/
def partsOf : Instr → List Part
  | .registerWrite _ _ _ _ | .lightPresent _ | .cmdTail _ _ _ | .cqHead _ _ _ | .cqArm _ _ | .eqHead _ _ _
    | .eqArm _ _ | .tdmaTail _ _ _ | .ploadTail _ _ _ | .doorbellStray _ _ _ _ _ | .wakeNAssert | .perstNRelease
    | .thermalSample _ _ _ | .pwrGoodAssert | .pwrGoodDeassert | .vinTrip _ | .ilimTrip _ | .overcurrentTrip _
    | .railFault _ _ | .pwrReqActive _ | .i3cRequestWake | .parkDisableDone | .lowPowerEntryDone | .wakeTimer
    | .powerOn _ _ _ | .coldReset _ _ | .warmReset _ _ | .pllRelockTimeout _ | .memVerifyDone _ | .moduleReady
    | .alwaysOnDomainStop | .pcieL1Exit =>
    allParts
  | .blockLockSet _ _ | .ringAssignWrite _ _ _ =>
    [.regs]
  | .fabricPosWrite _ _ | .laserEnSet _ _ _ | .laserEnClear _ _ _ | .linkEnable _ _ _ =>
    [.free, .regs, .out, .opt, .lnk, .sw, .hif, .hlt, .cnt]
  | .frameReceive _ _ _ | .collContribReceive _ _ _ | .collCombineReceive _ _ _ | .memPutReceive _ _ _
    | .memGetReceive _ _ _ | .memAtomicReceive _ _ _ =>
    [.free, .regs, .out, .boot, .opt, .lnk, .sw, .tbl, .cru, .plan, .coll, .mem, .hif, .hlt, .cnt]
  | .linkBringupRetry _ | .marginReportWaitExpiry _ | .deadHoldExpiry _ =>
    [.free, .out, .lnk, .sw, .hif, .hlt, .cnt, .clock]
  | .recastOpen _ | .emDelete _ | .purgeComplete _ =>
    [.out, .tbl, .mem, .hif, .cnt]
  | .recastClose _ | .recastCloseTakesEffect _ | .tdmaWrite _ | .tdmaLock _ | .tdmaUnlock _ | .tdmaPurge _ =>
    [.out, .tbl, .hif, .cnt]
  | .recastLimitExpiry _ =>
    [.out, .tbl, .hif, .cnt, .clock]
  | .tblCfgWrite _ _ =>
    [.regs, .out, .tbl, .hif, .cnt]
  | .oeBringupDone _ | .optSensorSample _ _ =>
    [.free, .out, .opt, .lnk, .sw, .hif, .hlt, .cnt]
  | .oeBringupTimeout _ _ | .oeBringupRetry _ | .marginRetry _ | .sprueReleaseDone _ _ =>
    [.free, .out, .opt, .lnk, .sw, .hif, .hlt, .cnt, .clock]
  | .ditherLockLoss _ _ _ | .laserFadeSample _ _ | .retryReceive _ _ | .marginReportReceive _ _ | .lossOfLight _ =>
    [.free, .out, .boot, .opt, .lnk, .sw, .hif, .hlt, .cnt]
  | .lockReacquired _ _ _ | .calSweepDone _ _ =>
    [.opt]
  | .marginTestStart _ =>
    [.opt, .lnk]
  | .marginPowerStep _ =>
    [.free, .out, .boot, .lnk, .sw, .hif, .hlt, .cnt, .clock]
  | .marginWindowOpen _ | .satRearmExpiry _ =>
    [.lnk, .clock]
  | .marginWindowClose _ _ | .quickCheckWindowClose _ _ | .heartbeatTimeout _ | .retryTimeout _ =>
    [.free, .out, .boot, .opt, .lnk, .sw, .hif, .hlt, .cnt, .clock]
  | .spareLocked _ =>
    [.out, .opt, .lnk, .clock]
  | .swRequestReceive _ _ =>
    [.out, .opt, .lnk, .hif, .cnt]
  | .spareDropLocked _ =>
    [.out, .boot, .opt, .lnk, .hif, .cnt]
  | .swReadyReceive _ _ =>
    [.opt, .cnt]
  | .duplicateIntervalEnd _ | .calPassStart _ | .sprueThrough _ _ | .sprueRelease _ _ =>
    [.opt, .clock]
  | .swMarkReceive _ _ _ =>
    [.out, .boot, .opt, .lnk, .hif, .hlt, .cnt]
  | .swDoneReceive _ _ | .swNakReceive _ _ | .calSlotStart _ =>
    [.out, .opt, .hif, .cnt]
  | .fadedLaserDark _ =>
    [.out, .boot, .opt, .hif, .hlt, .cnt, .clock]
  | .swapReadyTimeout _ | .swapDoneTimeout _ | .swapRetry _ =>
    [.out, .opt, .hif, .cnt, .clock]
  | .journalAppend _ _ | .pllLockLost _ | .patternCopyRead _ _ _ | .journalCompactionDone | .pllRelocked _ =>
    [.boot]
  | .sprueSet _ _ =>
    [.free, .out, .opt, .lnk, .sw, .plan, .hif, .hlt, .cnt, .clock]
  | .blockReceive _ _ _ _ _ _ =>
    [.free, .regs, .out, .boot, .opt, .lnk, .sw, .tbl, .cru, .plan, .coll, .mem, .tim, .hif, .hlt, .cnt]
  | .heartbeatSend _ | .positionSend _ =>
    [.out, .lnk, .clock]
  | .heartbeatReceive _ _ | .positionReceive _ _ | .linkctlDisableReceive _ _ | .fenceNAssert | .fenceNDeassert
    | .fenceUnstableClear _ =>
    [.free, .out, .lnk, .sw, .hif, .hlt, .cnt]
  | .creditReceive _ _ _ | .creditResyncReceive _ _ | .linkctlQuiesceReceive _ _ | .linkctlResumeReceive _ _ =>
    [.lnk, .cnt]
  | .linkDisable _ _ _ =>
    [.free, .regs, .out, .lnk, .sw, .hif, .hlt, .cnt]
  | .frameAdmitRetry _ =>
    [.out, .lnk, .sw, .hif, .cnt]
  | .spillPrefetch _ _ =>
    [.lnk, .sw, .cnt]
  | .gateMatch =>
    [.free, .regs, .out, .lnk, .sw, .cru, .plan, .coll, .mem, .hif, .hlt, .cnt]
  | .runnerReplicate _ | .queuedFrameMove _ | .mgmtEthReceive _ _ | .linkFenceSet _ _ =>
    [.free, .out, .lnk, .sw, .hif, .cnt]
  | .slagSweep | .parkDrainLimit =>
    [.out, .lnk, .sw, .hif, .cnt, .clock]
  | .satHoldExpiry _ =>
    [.out, .lnk, .hif, .cnt, .clock]
  | .tdmaRead _ | .ctxRead _ | .ctxStats _ | .descriptorFetch _ _ _ | .ringDrained _ _ | .telemetryBuf _ | .nop _ =>
    [.out, .hif, .cnt]
  | .emInsert _ =>
    [.free, .out, .tbl, .mem, .hif, .cnt]
  | .slotScrubDone _ _ =>
    [.cru, .clock]
  | .planLoad _ =>
    [.out, .opt, .sw, .cru, .plan, .coll, .hif, .cnt]
  | .planUnload _ =>
    [.free, .out, .opt, .lnk, .sw, .cru, .plan, .coll, .hif, .hlt, .cnt]
  | .planUnloadDone _ =>
    [.out, .sw, .plan, .coll, .hif, .cnt]
  | .planArm _ | .planDisarm _ | .planDisarmDone _ =>
    [.out, .plan, .hif, .cnt]
  | .pourComparatorLoad _ | .runStart _ | .pourTime _ =>
    [.plan, .clock]
  | .phaseStart _ | .phaseDeadline _ _ | .waitBoundExpiry _ _ =>
    [.free, .out, .lnk, .sw, .plan, .coll, .hif, .cnt, .clock]
  | .wordIssue _ _ _ =>
    [.free, .regs, .out, .lnk, .sw, .cru, .plan, .coll, .mem, .hif, .cnt, .clock]
  | .memDataArrive _ =>
    [.plan, .mem, .cnt]
  | .frameLaunch _ =>
    [.free, .out, .lnk, .sw, .plan, .hif, .cnt, .clock]
  | .ctxSetup _ | .ctxInclude _ | .ctxScrubDone _ =>
    [.out, .coll, .hif, .cnt]
  | .ctxExclude _ =>
    [.free, .out, .lnk, .sw, .cru, .plan, .coll, .mem, .hif, .hlt, .cnt]
  | .ctxTeardown _ =>
    [.free, .out, .lnk, .sw, .cru, .plan, .coll, .hif, .hlt, .cnt]
  | .dynTimeoutExpiry _ =>
    [.free, .out, .lnk, .sw, .cru, .coll, .hif, .hlt, .cnt, .clock]
  | .rotPassStart _ =>
    [.out, .boot, .mem, .hif, .hlt, .cnt, .clock]
  | .memRotReqWrite _ _ | .rotTrainDone _ _ | .rotTestDone _ _ | .pageRetirementDone _ _ | .memTrainDone _ =>
    [.out, .boot, .mem, .hif, .hlt, .cnt]
  | .rotCopyDone _ =>
    [.mem]
  | .rotSwitch _ =>
    [.free, .regs, .out, .boot, .mem, .hif, .hlt, .cnt]
  | .memTransfer _ _ _ _ _ _ =>
    [.free, .regs, .out, .boot, .mem, .hif, .hlt, .cnt, .clock]
  | .patrolPassStart =>
    [.mem, .clock]
  | .memHotClearExpiry _ =>
    [.out, .mem, .hif, .cnt, .clock]
  | .rebuildComplete _ | .memWrite _ | .memRead _ =>
    [.out, .mem, .hif, .cnt]
  | .regionScrubDone =>
    [.mem, .cnt]
  | .fabricMemDone =>
    [.free, .out, .lnk, .sw, .mem, .hif, .cnt]
  | .timeSyncSend _ _ =>
    [.lnk, .tim]
  | .timeAnnounceSend _ _ =>
    [.out, .lnk, .tim]
  | .timeSyncReceive _ _ =>
    [.lnk, .tim, .cnt]
  | .timeDelayReqReceive _ _ =>
    [.out, .lnk, .cnt]
  | .timeDelayRespReceive _ _ =>
    [.free, .out, .lnk, .sw, .plan, .coll, .tim, .hif, .cnt]
  | .timeAnnounceReceive _ _ =>
    [.tim, .cnt]
  | .timeExchangeTimeout _ =>
    [.tim, .cnt, .clock]
  | .timeMasterLost _ | .ppsNoEdgeTimeout =>
    [.out, .tim, .hif, .cnt, .clock]
  | .ppsEdge =>
    [.free, .regs, .out, .lnk, .sw, .plan, .coll, .tim, .hif, .cnt]
  | .ppsOutRise | .ppsOutFall =>
    [.pwr, .tim, .clock]
  | .timeSwitch _ | .timeReacq _ _ _ =>
    [.out, .tim, .hif, .cnt]
  | .timeDomainDisable _ _ _ =>
    [.regs, .out, .tim, .hif, .cnt]
  | .timeNowRead _ =>
    [.out, .tim]
  | .hostBufferAccess _ _ _ =>
    [.free, .out, .opt, .lnk, .sw, .tbl, .cru, .plan, .coll, .mem, .hif, .cnt]
  | .coalUsExpiry _ _ | .telemetryBufTimeout _ =>
    [.out, .hif, .cnt, .clock]
  | .ringEnable _ _ _ _ | .ringDisable _ _ _ _ =>
    [.regs, .hif]
  | .sendFrame _ =>
    [.free, .out, .lnk, .sw, .plan, .hif, .cnt]
  | .debugRead _ _ =>
    [.free, .out, .hif, .cnt]
  | .getInfo | .getMeasurement =>
    [.hif]
  | .fwStage _ _ =>
    [.out, .boot, .hif]
  | .fwRecover _ | .firmwareAccepted _ _ | .sramZeroDone =>
    [.free, .regs, .out, .boot, .opt, .lnk, .sw, .hif, .hlt, .cnt]
  | .svnCommit | .keyRevoke =>
    [.boot, .hif]
  | .vfFlr _ | .pfFlr | .pcieLinkDown | .vfEnable _ | .vfDisable _ =>
    [.regs, .plan, .hif]
  | .linkFenceClear _ _ =>
    [.out, .lnk, .hif, .cnt]
  | .fenceNHoldExpiry | .wakeNHoldExpiry | .thermalClearExpiry _ _ =>
    [.out, .hif, .hlt, .cnt, .clock]
  | .wakeRearm _ | .wakeNDeassert =>
    [.hlt]
  | .perstNAssert =>
    [.regs, .plan, .hif, .hlt]
  | .counterRead _ _ | .sampleDataRead _ _ =>
    [.out, .cnt]
  | .vinStable =>
    [.pwr, .clock]
  | .powerCapSample _ _ _ _ =>
    [.pwr, .hlt]
  | .cappingClearExpiry =>
    [.pwr, .hlt, .clock]
  | .pwrReqParked _ | .pwrReqRetain _ | .pwrReqStandby _ | .i3cRequestStandby =>
    [.out, .pwr, .lnk, .mem, .hif, .cnt]
  | .parkDrainDone =>
    [.out, .pwr, .lnk]
  | .wakeParkedDone =>
    [.free, .out, .pwr, .lnk, .sw, .hif, .hlt, .cnt, .clock]
  | .wakeRetainDone =>
    [.free, .out, .boot, .pwr, .lnk, .sw, .mem, .hif, .hlt, .cnt, .clock]
  | .crossingWaitExpiry _ _ =>
    [.regs, .out, .hif, .cnt]
  | .railUp _ _ =>
    [.pwr]
  | .mainResetRelease =>
    [.regs, .boot, .opt, .sw]
  | .memZeroDone =>
    [.boot, .mem]
  | .blockTransmit _ =>
    [.free, .out, .opt, .lnk, .sw, .tim, .hif, .cnt]
  | .aonResetEnd _ _ _ _ =>
    [.boot, .pwr, .hlt, .clock]
  | .timeAnnounceExpiry _ _ =>
    [.tim, .clock]

/-- What an event writes besides its counter: the event rings of the host interface and their DMA. -/
def eventParts : List Part := [.out, .hif, .cnt]

/-! ### Power, resets and trips, as claims speak of them -/

/-- The main and HIF logic is off: every laser dark, the rails off, and of what the module held only what STANDBY
keeps (R414, R417). -/
def MainOff (s t : State) : Prop :=
  t.pwr.state = 3 ∧ t.pwr.rails = [] ∧ t.opt = {} ∧ t.lnk = {} ∧ t.tbl = {} ∧ t.cru = {} ∧ t.plan = {} ∧
    t.coll = {} ∧ t.tim = {} ∧ t.mem.lines = [] ∧
    t.pwr.energy = s.pwr.energy ∧ t.boot.store = s.boot.store ∧ t.hif.epoch = s.hif.epoch

/-- A power trip of R414 has acted: STANDBY, no wake until VIN is stable, and PWR_FAULT holds the first trip. -/
def Tripped (s t : State) (cause rail vin : Nat) : Prop :=
  t.pwr.state = 3 ∧ t.pwr.vinOk = false ∧ t.pwr.exitCause = 5 ∧
    getR t oPWR_FAULT = (if bit (getR s oPWR_FAULT) 63 then getR s oPWR_FAULT
      else mkWord [at_ 63 1, at_ 60 cause, at_ 56 (rail % 16), at_ 40 (vin % 2 ^ 16)]) ∧
    (s.pwr.state ≠ 3 → MainOff s t)

/-- The module is WAKING from a state since a time, for a wake source of LAST_WAKE (R419, R424). -/
def WakingFrom (t : State) (src from_ at_ : Nat) : Prop :=
  t.pwr.state = 5 ∧ t.pwr.lastWake = src ∧ t.pwr.wakeFrom = from_ ∧ t.pwr.wakeAt = some at_

/-- A warm reset with its cause has acted (R431, R388, R15, R365): what it clears and what survives it. -/
def WarmReset (s t : State) (cause : Nat) : Prop :=
  t.boot.lastCause = cause ∧ t.boot.warmCount = min 0xFFFF (s.boot.warmCount + 1) ∧
    t.hif.epoch = nextEpoch s.hif.epoch ∧ t.pwr.energy = s.pwr.energy ∧ t.boot.store = s.boot.store ∧
    t.boot.meas = s.boot.meas ∧ bit (getR t oLOCK) 0 = false ∧ bit (getR t oTBL_LOCK) 0 = false ∧
    t.opt = {} ∧ t.lnk = {} ∧ t.tbl = {} ∧ t.cru = {} ∧ t.plan = {} ∧ t.coll = {} ∧ t.tim = {} ∧ t.cnt = {} ∧
    t.mem.lines = [] ∧ t.boot.modState = 0 ∧ t.boot.fwState = .booting

/-! ### Descriptors, completions and interrupts, as claims speak of them -/

/-- The completion ring of a ring is enabled and has room. -/
def CqReady (s : State) (k : RingKind) (i : Nat) : Prop :=
  ringOn s .cq (cqOf s k i) = true ∧ ringFull s .cq (cqOf s k i) = false

/-- A started descriptor with this run key can write its completion at once (R338, R339). -/
def MayComplete (s : State) (k : RingKind) (i key : Nat) : Prop :=
  i < ringCount k ∧ (k = .cmd ∨ k = .tdma ∨ k = .pload) ∧ (ring s k i).mute = false ∧
    key / 2 ^ 32 = (ring s k i).gen ∧ (ring s k i).heldBack = [] ∧ CqReady s k i

/-- A descriptor, alone in its ring, is of an operation and may start, and can complete at once (R338). -/
def DescReady (s : State) (k : RingKind) (i : Nat) (d : List Word) (op : Nat) : Prop :=
  (ring s k i).fetched = [d] ∧ dOp d = op ∧ mayStart s k i d = true ∧ MayComplete s k i (runKey s k i d)

/-- One completion entry lies in the completion ring of a ring, at its TAIL, with the layout of R350; NT is
that of the state after. -/
def EntryWritten (s t : State) (k : RingKind) (i tag st detail count : Nat) : Prop :=
  let c := cqOf s k i
  let tail := (ring s .cq c).tail
  (ring t .cq c).tail = (tail + 1) % 2 ^ 24 ∧
    Output.dma (ringOwner s .cq c) (ringBase s .cq c + 32 * (tail % ringSize s .cq c))
      (bytesOfWords [mkWord [at_ 32 (tag % 2 ^ 32), at_ 24 st, at_ 20 (complKind k), at_ 12 i], BitVec.ofNat 64 detail,
        mkWord [at_ 32 (count % 2 ^ 32), nt32 t],
        BitVec.ofNat 64 (at_ 63 (phaseBit s .cq c tail) + (ring s k i).head)]) ∈ t.out

/-- The one descriptor of a ring has completed with a status, a DETAIL and a COUNT (R338, R339, R350). -/
def Completed (s t : State) (k : RingKind) (i : Nat) (d : List Word) (st detail count : Nat) : Prop :=
  (ring t k i).fetched = [] ∧ (ring t k i).running.length = (ring s k i).running.length ∧
    EntryWritten s t k i (dTag d) st detail count

/-- The one descriptor of a ring has started and waits for its effect: no completion is written yet. -/
def Started (s t : State) (k : RingKind) (i : Nat) (d : List Word) : Prop :=
  (ring t k i).fetched = [] ∧ (ring t k i).running = (ring s k i).running ++ [runKey s k i d] ∧
    (ring t .cq (cqOf s k i)).tail = (ring s .cq (cqOf s k i)).tail

/-- A ring's vector has been raised once since its arm: sent, or pending while it is masked (R331, R340). -/
def Interrupted (s t : State) (k : RingKind) (i : Nat) : Prop :=
  let f := ringOwner s k i
  let v := fld (ringCfg s k i) 46 38
  let n := msixBase f + v
  (ring t k i).armed = false ∧
    cntGet t (cRing (ringCnt k i) 2) = (cntGet s (cRing (ringCnt k i) 2) + 1) % 2 ^ 64 ∧
    (bit (msixWord s (2 * n + 1)) 32 = false → t.out = s.out ++ [.msix f v]) ∧
    (bit (msixWord s (2 * n + 1)) 32 = true → t.out = s.out ∧ bit (tget 0 t.hif.pba (n / 64)) (n % 64) = true)

/-- The whole of a buffer lies where the function of a ring's descriptors may reach: the cores' region is 128 MiB (R359). -/
def InReach (s : State) (k : RingKind) (i addr n : Nat) : Prop := descOwner s k i ≠ .core ∨ addr + n ≤ 2 ^ 27

/-- The host has answered for the buffer of a ring's first fetched descriptor: the n bytes at its address (R333). -/
def HostGave (s : State) (k : RingKind) (i addr n : Nat) (data : List Byte) : Prop :=
  InReach s k i addr n ∧
    ∃ a, (ring s k i).staged = some a ∧ a.failAt = none ∧ n ≤ a.data.length ∧ data = a.data.take n

/-- No access of the host that is answered already has failed. -/
def HostTakes (s : State) (k : RingKind) (i addr n : Nat) : Prop :=
  InReach s k i addr n ∧ ∀ a, (ring s k i).staged = some a → a.failAt = none

/-- A register write by its access codes has acted on one register and on no other (R12, R13). -/
def RegWritten (s t : State) (off : Nat) (v : Word) : Prop :=
  let i := regInfo s.variant s.boot.strapBl2 off
  let new : Word := BitVec.ofNat 64 (applyWrite i (lockedAt s off) (getR s off).toNat v.toNat)
  ∀ o, getR t o =
    if o = off ∧ rangeOk off new = true then BitVec.ofNat 64 (regClip i new.toNat) else getR s o

end Sys2Proof.Machine
end

