-- ==== Sys2Proof/Certificates/Slice0/Obligations.lean ====
section
/-! DEFINITION. The statements for the provers. -/
open Sys2Proof Sys2Proof.Machine

/-- With a command waiting, a step runs the front command on the state with the queue's rest. Model's choices it rests
on: log entry 49. -/
def Obligations.StepRunsFrontCommand : Prop :=
  ∀ (c : Instr) (rest : List Instr) (s : State),
    step { s with pending := c :: rest } = exec c { s with pending := rest }

/-! ### Power, trips and wakes: chapter 14 -/

/-- R411 to R415: a trip by VIN, by current or by a rail darkens the module, puts it into STANDBY and latches its
cause; VIN between the trip limits trips nothing. PWR_GOOD asserted first starts the module, asserted again it leaves
STANDBY by a warm reset of cause PWR_GOOD; deasserted it darkens the module in STANDBY; VIN stable for 1 s lets wakes
act again. Model's choices it rests on: log entries 10 and 39. Completes: ilimTrip, overcurrentTrip, pwrGoodAssert,
pwrGoodDeassert, railFault, vinStable, vinTrip. -/
def Obligations.PowerTripsAndPwrGood : Prop :=
  ∀ s : State, pinsLive s = true →
    (Sound s →
      (∀ vin, vin < 4200 → ∃ t, exec (.vinTrip vin) s = .next t ∧ Tripped s t 1 0 vin) ∧
      (∀ vin, 6000 < vin → ∃ t, exec (.vinTrip vin) s = .next t ∧ Tripped s t 2 0 vin) ∧
      (∀ vin, 4200 ≤ vin → vin ≤ 6000 → exec (.vinTrip vin) s = .next s) ∧
      (∀ vin, ∃ t, exec (.ilimTrip vin) s = .next t ∧ Tripped s t 3 0 vin) ∧
      (∀ vin, ∃ t, exec (.overcurrentTrip vin) s = .next t ∧ Tripped s t 3 0 vin) ∧
      (∀ rail vin, ∃ t, exec (.railFault rail vin) s = .next t ∧ Tripped s t 4 rail vin)) ∧
    (s.pwr.pwrGood = false → s.boot.zeroAt = none →
      ∃ t, exec .pwrGoodAssert s = .next t ∧ t.pwr.pwrGood = true ∧ t.pwr.state = 0 ∧
        t.boot.zeroAt = some s.now ∧ t.boot.modState = 0 ∧
        t.boot.stage = (if s.boot.store.isSome then 1 else 0)) ∧
    (s.pwr.pwrGood = false → s.boot.zeroAt.isSome = true → s.pwr.state = 3 → s.pwr.vinOk = true →
      s.pwr.exitCause = 3 → (s.hlt.tripLatch = true → sensorsCool s = true) →
      ∃ t, exec .pwrGoodAssert s = .next t ∧ t.pwr.pwrGood = true ∧ WakingFrom t 6 3 s.now ∧ WarmReset s t 6) ∧
    (s.pwr.pwrGood = true →
      ∃ t, exec .pwrGoodDeassert s = .next t ∧ t.pwr.pwrGood = false ∧ t.pwr.state = 3 ∧
        (s.pwr.state ≠ 3 → MainOff s t)) ∧
    (s.pwr.vinOk = false →
      ∃ t, exec .vinStable s = .next t ∧ t.pwr = { s.pwr with vinOk := true } ∧ OnlyChanges [.pwr, .clock] s t ∧
        ∀ a, s.pwr.tripAt = some a → t.now = max s.now (a + secT))

/-- R417, R422: a request for a lower state is taken from a higher one while no plan forbids it, refused with
PLAN_ACTIVE while one does, and answered BUSY while the module enters or wakes. Completes: pwrReqParked, pwrReqRetain,
pwrReqStandby, i3cRequestStandby. -/
def Obligations.PowerRequestTakenOrRefused : Prop :=
  ∀ (s : State) (c : Instr) (k : Nat),
    ((∃ f, mayWrite s f = true ∧
        ((c = .pwrReqParked f ∧ k = 1) ∨ (c = .pwrReqRetain f ∧ k = 2) ∨ (c = .pwrReqStandby f ∧ k = 3))) ∨
      (pinsLive s = true ∧ c = .i3cRequestStandby ∧ k = 3)) →
    (s.pwr.state < k → planInState s (if k = 1 then [4] else [3, 4]) = false →
      ∃ t, exec c s = .next t ∧ t.pwr.state = 4 ∧ t.pwr.target = k ∧ t.pwr.reqResult = 0 ∧
        t.pwr.enterAt = some s.now ∧ t.tbl = s.tbl ∧ t.plan = s.plan ∧ t.coll = s.coll ∧ t.regs = s.regs) ∧
    (s.pwr.state < k → planInState s (if k = 1 then [4] else [3, 4]) = true →
      exec c s = .next { s with pwr := { s.pwr with reqResult := 1 } }) ∧
    (s.pwr.state = 4 ∨ s.pwr.state = 5 → exec c s = .next { s with pwr := { s.pwr with reqResult := 3 } })

/-- R419: each wake source that is enabled takes the module out of the states it acts in, and LAST_WAKE names it; a
WAKE_N assertion masks the pin (R375). Completes: i3cRequestWake, pcieL1Exit, perstNRelease, pwrReqActive,
wakeNAssert, wakeTimer. -/
def Obligations.WakeSourcesAct : Prop :=
  ∀ s : State,
    (∀ f, mayWrite s f = true → s.pwr.state = 1 ∨ s.pwr.state = 2 → wakeEnabled s 1 = true →
      ∃ t, exec (.pwrReqActive f) s = .next t ∧ WakingFrom t 1 s.pwr.state s.now ∧ t.pwr.reqResult = 0) ∧
    (pinsLive s = true → s.pwr.state = 1 ∨ s.pwr.state = 2 →
      ∃ t, exec .i3cRequestWake s = .next t ∧ WakingFrom t 5 s.pwr.state s.now) ∧
    (s.pwr.state = 2 → wakeEnabled s 1 = true →
      ∃ t, exec .pcieL1Exit s = .next t ∧ WakingFrom t 1 2 s.now) ∧
    (pinsLive s = true → s.hlt.wakeN = false → s.hlt.wakeMasked = false → wakeEnabled s 4 = true →
      s.pwr.state = 1 ∨ s.pwr.state = 2 →
      ∃ t, exec .wakeNAssert s = .next t ∧ WakingFrom t 4 s.pwr.state s.now ∧ t.hlt.wakeMasked = true ∧
        t.hlt.wakeN = true) ∧
    (s.pwr.state = 1 → s.tim.inForce = true → (nextPourTime s).isSome = true →
      ∃ t, exec .wakeTimer s = .next t ∧ WakingFrom t 3 1 t.now) ∧
    (pinsLive s = true → s.hlt.perstN = true → s.pwr.state = 3 → wakeEnabled s 1 = true → wakeAllowed s = true →
      ∃ t, exec .perstNRelease s = .next t ∧ t.hlt.perstN = false ∧ WakingFrom t 1 3 s.now ∧
        WarmReset s t s.pwr.exitCause)

/-- No stack has a rotation or a repair waiting to start. -/
def NothingWaits (s : State) : Prop :=
  ∀ j, (rot s j).repairs = [] ∧ (rot s j).requests = [] ∧ (rot s j).pass = []

/-- R418: entry to a lower state. The drained module sends DISABLED heartbeats; 1.125 × AGE_LIMIT after acceptance
nothing is held any more; after 10 µs the lanes read DISABLED; then PARKED, RETAIN or STANDBY is reached. R420, R421:
50 µs after a wake from PARKED and 900 ms after one from RETAIN the module is ACTIVE; from PARKED the lanes that find
light on a lit engine lock again, and from RETAIN a module fence that FENCE_N had asked for is in force (R422).
Model's choices it rests on: log entries 39 and 40. Completes: lowPowerEntryDone, parkDisableDone, parkDrainDone,
parkDrainLimit, wakeParkedDone, wakeRetainDone. -/
def Obligations.LowPowerEntryAndWakeSteps : Prop :=
  ∀ s : State,
    (draining s = true → riserEmpty s = true →
      ∃ t, exec .parkDrainDone s = .next t ∧ t.pwr.drainAt = some s.now ∧
        ∀ q, 2 ≤ (lane s q).state → (lane s q).state ≤ 4 →
          (lane t q).txDisabled = true ∧ (lane t q).state = (lane s q).state) ∧
    (draining s = true →
      ∃ t, exec .parkDrainLimit s = .next t ∧ t.sw.queue = [] ∧ t.sw.mcq = [] ∧
        ∀ a, s.pwr.enterAt = some a → t.now = max s.now (a + rf s oAGE_CFG 16 0 * usT * 9 / 8)) ∧
    (∀ d, s.pwr.state = 4 → s.pwr.parkPoint = none → s.pwr.drainAt = some d → s.pwr.wakePending = 0 →
      ∃ t, exec .parkDisableDone s = .next t ∧ t.now = max s.now (d + 10 * usT) ∧
        (∀ q, q < 4160 → (lane t q).state =
          if (lane s q).state = 5 ∨ (lane s q).state = 7 then (lane s q).state else 8) ∧
        (s.pwr.target = 1 → t.pwr.state = 1) ∧
        (s.pwr.target ≠ 1 → t.pwr.state = 4 ∧ t.pwr.parkPoint = some t.now)) ∧
    (∀ p, s.pwr.state = 4 → s.pwr.parkPoint = some p → s.pwr.wakePending = 0 →
      ∃ t, exec .lowPowerEntryDone s = .next t ∧
        (s.pwr.target = 2 → t.pwr.state = 2 ∧ t.pwr.ppsOut = false ∧ t.sw.queue = [] ∧ t.sw.selfIn = [] ∧ t.tbl = s.tbl ∧
          (∀ c, (planOf s c).state ≠ 0 → planOf t c = { planOf s c with win := [] }) ∧
          (∀ c, c ≠ cMod 4 → cntGet t c = cntGet s c)) ∧
        (s.pwr.target ≠ 2 → MainOff s t)) ∧
    (∀ w : Nat, s.pwr.state = 5 → s.pwr.wakeAt = some w →
      (s.pwr.wakeFrom = 1 →
        ∃ t, exec .wakeParkedDone s = .next t ∧ t.pwr.state = 0 ∧ t.now = max s.now (w + 50 * usT) ∧
          ∀ q, (lane s q).state = 8 → linkEnabled s (linkOf q) = true → (lane s q).los = false →
            engineLit s (engineOfLane q) = true → (lane t q).state = 1) ∧
      (s.pwr.wakeFrom = 2 →
        ∃ t, exec .wakeRetainDone s = .next t ∧ t.pwr.state = 0 ∧ t.now = max s.now (w + 900 * msT) ∧
          t.opt = s.opt ∧ t.tbl = s.tbl ∧ t.plan = s.plan ∧
          (NothingWaits s →
            t.hlt.moduleFenced = ((s.hlt.fenceN || s.hlt.fenceUnstable) && moduleReadyNow s) ∧
            (s.hlt.moduleFenced = ((s.hlt.fenceN || s.hlt.fenceUnstable) && moduleReadyNow s) →
              OnlyChanges [.pwr, .clock] s t))))

/-- R412, R413, R424: a sample of the input is reported and its energy added; above CAP every die throttles and every
stack limits its traffic, until the average has stayed below CAP − 100 W for 10 ms. Model's choices it rests on: log
entries 37 and 39. Completes: cappingClearExpiry, powerCapSample. -/
def Obligations.PowerCapThrottles : Prop :=
  ∀ s : State,
    (∀ vin iin pin energy, pinsLive s = true →
      ∃ t, exec (.powerCapSample vin iin pin energy) s = .next t ∧ t.pwr.vin = vin ∧ t.pwr.iin = iin ∧
        t.pwr.pin = pin ∧ t.pwr.energy = (s.pwr.energy + energy) % 2 ^ 64 ∧ t.pwr.uvWarn = decide (vin < 4400) ∧
        OnlyChanges [.pwr, .hlt] s t ∧
        (10 * rf s oPWR_CFG 63 52 < pin → s.pwr.state ≠ 3 →
          t.pwr.capping = true ∧ t.hlt.throttled = [0, 1, 2, 3] ∧
            (hasStacks s = true → t.hlt.limited = List.range 20))) ∧
    (∀ c, s.pwr.capping = true → s.pwr.capBelowSince = some c →
      ∃ t, exec .cappingClearExpiry s = .next t ∧ t.pwr.capping = false ∧ t.now = max s.now (c + 10 * msT) ∧
        OnlyChanges [.pwr, .hlt, .clock] s t ∧
        ∀ d, d < 4 → (d ∈ t.hlt.throttled ↔ (therm s .die d).limit = true ∨ (therm s .die d).latched = true))

/-! ### Resets, clocks and start-up: chapter 15 -/

/-- R407, R412, R431: power-on leaves every register at its reset value and only the flash and the page repairs; below
36 V the always-on domain stops; 20 ms after power-on the pins are taken and PWR_GOOD starts the module. Model's
choices it rests on: log entries 1, 11 and 39. Completes: alwaysOnDomainStop, aonResetEnd, powerOn. -/
def Obligations.PowerOnAndAonReset : Prop :=
  ∀ s : State,
    (∀ bl2 self src,
      ∃ t, exec (.powerOn bl2 self src) s = .next t ∧ (∀ off, getR t off = regReset s.variant false off) ∧
        t.pwr.powered = true ∧ t.pwr.aonReset = true ∧ t.pwr.energy = 0 ∧ t.boot.warmCount = 0 ∧
        t.boot.lastCause = 0 ∧ t.boot.store = none ∧ t.boot.meas = [] ∧ t.hif = {} ∧ t.cnt = {} ∧ t.tbl = {} ∧
        t.opt = {} ∧ t.boot.journalA = s.boot.journalA ∧ t.boot.journalB = s.boot.journalB ∧
        t.boot.pinBl2 = bl2 ∧ t.boot.pinSelfHost = self ∧ t.boot.pinBootSrc = src % 4) ∧
    (∃ t, exec .alwaysOnDomainStop s = .next t ∧ t.pwr.powered = false ∧ t.opt = {} ∧ t.pwr.energy = 0 ∧
      t.boot.store = none ∧ t.boot.journalA = s.boot.journalA) ∧
    (∀ good fence wakePin perst, s.pwr.powered = true → s.pwr.aonReset = true →
      ∃ t, exec (.aonResetEnd good fence wakePin perst) s = .next t ∧ t.pwr.aonReset = false ∧
        t.now = max s.now (s.pwr.aonSince + 20 * msT) ∧ t.pwr.pwrGood = good ∧ t.hlt.fenceN = fence ∧
        t.hlt.wakeN = wakePin ∧ t.hlt.perstN = perst ∧
        (good = true → t.pwr.state = 0 ∧ t.boot.zeroAt = some t.now ∧ t.boot.modState = 0) ∧
        (good = false → t.pwr.state = 3))

/-- R431, R447, R430, R432: RESET_CTRL with its key resets warm or cold, and any other value has no effect; 10 ms
without a PLL's lock is a warm reset of cause CLOCK_LOSS; PERST_N outside STANDBY resets the host interface alone, and
its registers unless the module is self-hosted. Model's choices it rests on: log entries 10, 41 and 90. Completes:
coldReset, perstNAssert, pllRelockTimeout, warmReset. -/
def Obligations.ResetsClearAndKeep : Prop :=
  ∀ s : State,
    (∀ f v, resetWanted s f v = 1 → ∃ t, exec (.warmReset f v) s = .next t ∧ WarmReset s t 2) ∧
    (∀ f v, resetWanted s f v = 2 →
      ∃ t, exec (.coldReset f v) s = .next t ∧ (∀ off, getR t off = regReset s.variant s.boot.strapBl2 off) ∧
        t.boot.lastCause = 1 ∧ t.boot.warmCount = s.boot.warmCount ∧ t.hif.epoch = nextEpoch s.hif.epoch ∧
        t.pwr.energy = s.pwr.energy ∧ t.boot.store = none ∧ t.boot.meas = [] ∧ t.cnt = {} ∧ t.tbl = {} ∧
        t.opt = {} ∧ t.tim = {} ∧ t.plan = {} ∧ t.coll = {} ∧ t.hlt.tripLatch = false) ∧
    (∀ f v, resetWanted s f v = 0 →
      exec (.warmReset f v) s = .next s ∧ exec (.coldReset f v) s = .next s) ∧
    (∀ f v, fld v 63 56 ≠ 0x5A ∨ bit v 1 = bit v 0 → resetWanted s f v = 0) ∧
    (∀ k, pllLost s k = true → ∃ t, exec (.pllRelockTimeout k) s = .next t ∧ WarmReset s t 7) ∧
    (pinsLive s = true → s.hlt.perstN = false → s.pwr.state ≠ 3 →
      ∃ t, exec .perstNAssert s = .next t ∧ t.hlt.perstN = true ∧ t.hif.epoch = nextEpoch s.hif.epoch ∧
        t.hif.vfs = [] ∧ t.tbl = s.tbl ∧ t.coll = s.coll ∧ t.mem = s.mem ∧ t.tim = s.tim ∧ t.lnk = s.lnk ∧
        t.sw = s.sw ∧ t.opt = s.opt ∧ t.cnt = s.cnt ∧
        (selfHosted s = false → t.hif.msix = [] ∧ t.hif.pba = [] ∧ t.hif.mboxBusy = false ∧
          ∀ off, 0x400000 ≤ off → off < 0x800000 → getR t off = regReset s.variant s.boot.strapBl2 off))

/-- R428, R430: a PLL that loses lock is LOST until it locks again, and 10 ms without lock is a warm reset of cause
CLOCK_LOSS; a crossing that times out raises CDC_TIMEOUT, and CDC_LOG latches the first occurrence. Model's choices it
rests on: log entries 10 and 39. Completes: crossingWaitExpiry, pllLockLost, pllRelockTimeout, pllRelocked. -/
def Obligations.PllAndCrossingReported : Prop :=
  ∀ s : State,
    (∀ k, s.pwr.powered = true → hasPll k = true → domainOn s k = true → pllLost s k = false →
      ∃ t, exec (.pllLockLost k) s = .next t ∧ pllLost t k = true ∧ (∀ j, j ≠ k → pllLost t j = pllLost s j) ∧
        OnlyChanges [.boot] s t) ∧
    (∀ k, ∃ t, exec (.pllRelocked k) s = .next t ∧ pllLost t k = false ∧
      (∀ j, j ≠ k → pllLost t j = pllLost s j) ∧ OnlyChanges [.boot] s t) ∧
    (∀ k a, tget none s.boot.pllLost k = some a →
      ∃ t, exec (.pllRelockTimeout k) s = .next t ∧ WarmReset s t 7 ∧ t.now = max s.now (a + 10 * msT)) ∧
    (∀ k, pllLost s k = false → exec (.pllRelockTimeout k) s = .next s) ∧
    (∀ near far, near < 19 → far < 19 → s.pwr.powered = true → domainOn s near = true → domainOn s far = true →
      ∃ t, exec (.crossingWaitExpiry near far) s = .next t ∧ cntGet t 0x009 = (cntGet s 0x009 + 1) % 2 ^ 64 ∧
        getR t oCDC_LOG = (if bit (getR s oCDC_LOG) 63 then getR s oCDC_LOG
          else mkWord [at_ 63 1, at_ 56 near, at_ 48 far, nt32 s]) ∧ OnlyChanges (.regs :: eventParts) s t) ∧
    (∀ near far, domainOn s far = false → exec (.crossingWaitExpiry near far) s = .next s)

/-- R433, R435, R437, R439, R441: copy A, then copy B, then the ROM defaults, a copy being accepted by its header, its
serial number, its check word and its records; a full journal is compacted; the rails come up in index order; then the
main reset is released and the straps are sampled. Model's choices it rests on: log entries 6, 10 and 16. Completes:
journalCompactionDone, mainResetRelease, patternCopyRead, railUp. -/
def Obligations.PatternRailsAndStraps : Prop :=
  ∀ s : State,
    (∀ image j, inStage s 0 = true → s.boot.aRes = 15 → patResult s.boot.serial image = 0 →
      ∃ t, exec (.patternCopyRead 0 image j) s = .next t ∧ t.boot.store = some image ∧ t.boot.patCopy = 0 ∧
        t.boot.aRes = 0 ∧ t.boot.stage = 1 ∧ t.boot.journalA = readJournal j ∧
        tget 0 t.boot.meas 1 = sha384Extend (tget 0 s.boot.meas 1) (patDigest image)) ∧
    (∀ image j, inStage s 0 = true → s.boot.aRes = 15 → patResult s.boot.serial image ≠ 0 →
      ∃ t, exec (.patternCopyRead 0 image j) s = .next t ∧ t.boot.aRes = patResult s.boot.serial image ∧
        t.boot.stage = s.boot.stage ∧ t.boot.store = s.boot.store) ∧
    (∀ image j, inStage s 0 = true → s.boot.aRes ≠ 15 →
      ∃ t, exec (.patternCopyRead 1 image j) s = .next t ∧ t.boot.bRes = patResult s.boot.serial image ∧
        t.boot.stage = 1 ∧
        (patResult s.boot.serial image = 0 → t.boot.store = some image ∧ t.boot.patCopy = 1) ∧
        (patResult s.boot.serial image ≠ 0 → t.boot.patDefaulted = true ∧ t.boot.patCopy = 2 ∧
          tget 0 t.boot.meas 1 = sha384Extend (tget 0 s.boot.meas 1) Config.romDigest)) ∧
    (∀ serial p, patResult serial p = 0 ↔ p.spiError = false ∧ leAt p.bytes 0 4 = 0x50415454 ∧
      leAt p.bytes 4 2 = 1 ∧ leAt p.bytes 16 8 = serial.toNat ∧ lengthOk p = true ∧
      leAt p.bytes (64 + patLength p) 4 = crc32c (patBody p) ∧ recordsOk p = true) ∧
    (inStage s 1 = true → needsCompaction s.boot = true →
      ∃ t, exec .journalCompactionDone s = .next t ∧ t.boot.journalA = s.boot.journalA.filter (·.live) ∧
        t.boot.journalB = s.boot.journalB.filter (·.live) ∧ t.boot.journalFull = false ∧ OnlyChanges [.boot] s t) ∧
    (∀ rail mv, inStage s 1 = true → needsCompaction s.boot = false → rail = s.pwr.railUpTo + 1 → rail ≤ 11 →
      railHolds rail mv = true →
      ∃ t, exec (.railUp rail mv) s = .next t ∧ t.pwr.railUpTo = rail ∧ tget 0 t.pwr.rails rail = mv ∧
        OnlyChanges [.pwr] s t) ∧
    (∀ rail mv, rail ≠ s.pwr.railUpTo + 1 ∨ railHolds rail mv = false → exec (.railUp rail mv) s = .next s) ∧
    (inStage s 1 = true → needsCompaction s.boot = false → s.pwr.railUpTo = 11 →
      ∃ t, exec .mainResetRelease s = .next t ∧ t.boot.mainUp = true ∧ t.boot.stage = 2 ∧
        t.boot.strapBl2 = s.boot.pinBl2 ∧ t.boot.strapSelfHost = s.boot.pinSelfHost ∧
        t.boot.strapBootSrc = s.boot.pinBootSrc ∧
        t.boot.fwState = (if s.boot.pinBootSrc = 2 then .failed else .booting))

/-- R433, R360 to R362, R441, R442: the boot ROM tries the copies in the strapped order; an accepted image runs and
extends measurement 0, and when none is accepted firmware has FAILED. The stages of a start follow one another, and
READY comes once every engine is READY or FAULT; with the ROM defaults the engines that may calibrate start their
first pass (R440). Model's choices it rests on: log entries 16 and 40. Completes: firmwareAccepted, memTrainDone,
memVerifyDone, memZeroDone, moduleReady, sramZeroDone. -/
def Obligations.FirmwareAndStagesToReady : Prop :=
  ∀ s : State,
    (∀ copy image, fwKind image ≠ 2 → inStage s 2 = true → s.boot.fwState = .booting →
      (copyOrder s)[s.boot.firmwareTried]? = some copy →
      imageVerdict s 1 (flashImage s copy image) = .accepted →
      ∃ t, exec (.firmwareAccepted copy image) s = .next t ∧ t.boot.fwState = .running ∧ t.boot.fwCopy = copy ∧
        t.boot.fwSvn = fwSvnOf (flashImage s copy image) ∧ t.boot.stage = 3 ∧
        tget 0 t.boot.meas 0 = sha384Extend (tget 0 s.boot.meas 0) (fwDigest (flashImage s copy image))) ∧
    (∀ copy image, fwKind image ≠ 2 → inStage s 2 = true → s.boot.fwState = .booting →
      (copyOrder s)[s.boot.firmwareTried]? = some copy →
      imageVerdict s 1 (flashImage s copy image) ≠ .accepted →
      ∃ t, exec (.firmwareAccepted copy image) s = .next t ∧ OnlyChanges [.boot] s t ∧
        t.boot.fwState = (if s.boot.firmwareTried + 1 = (copyOrder s).length then .failed else .booting)) ∧
    (inStage s 3 = true → fwRuns s = true →
      ∃ t, exec .sramZeroDone s = .next t ∧ t.boot.sramZero = true ∧
        t.boot.stage = (if hasStacks s then 4 else 7)) ∧
    (∀ failed, inStage s 4 = true → ∃ t, exec (.memTrainDone failed) s = .next t ∧ t.boot.stage = 5) ∧
    (inStage s 5 = true → ∃ t, exec .memZeroDone s = .next t ∧ t.mem.lines = [] ∧ t.boot.memZero = true ∧
      t.boot.stage = 6 ∧ OnlyChanges [.mem, .boot] s t) ∧
    (∀ failed, inStage s 6 = true →
      ∃ t, exec (.memVerifyDone failed) s = .next t ∧ t.boot.regInitDone = true ∧
        ((∀ p, s.boot.store = some p → patRegInit p = []) → t.boot.memVerified = true ∧ t.boot.stage = 7)) ∧
    (readyNow s = true → s.boot.regInitDone = true → enginesDone s = true →
      ∃ t, exec .moduleReady s = .next t ∧ t.boot.modState = 1 ∧ t.boot.stage = 8 ∧
        (s.boot.patDefaulted = true → ∀ n, n < 34 → mayPass s n = true →
          (engine t n).calRunning = true ∧ (engine t n).calNext = 0))

/-! ### Fences, pins and heat: chapter 12 -/

/-- R368, R370, R371, R373: the driver fences with SOURCE DRIVER, keeps the SOURCE of a fence that stands, and lifts a
fence so that its triggers count afresh; a link dead for DEAD_HOLD is fenced within the budget, and only marked WANTED
beyond it. Model's choices it rests on: log entry 39. Completes: deadHoldExpiry, linkFenceClear, linkFenceSet. -/
def Obligations.LinkFencesSetLiftedAndBudgeted : Prop :=
  ∀ (s : State) (l : Nat),
    (∀ f, mayWrite s f = true → (link s l).fenced = false →
      ∃ t, exec (.linkFenceSet f l) s = .next t ∧ (link t l).fenced = true ∧ (link t l).source = 3 ∧
        (link t l).wanted = false ∧ (link t l).state = (link s l).state) ∧
    (∀ f, mayWrite s f = true → (link s l).fenced = true →
      ∃ t, exec (.linkFenceSet f l) s = .next t ∧ link t l = { link s l with wanted := false } ∧
        OnlyChanges [.lnk] s t) ∧
    (∀ f, mayWrite s f = true → (link s l).fenced = true →
      ∃ t, exec (.linkFenceClear f l) s = .next t ∧ (link t l).fenced = false ∧ (link t l).source = 0 ∧
        (link t l).wanted = false ∧ (link t l).downs = [] ∧ cntGet t 0x003 = (cntGet s 0x003 + 1) % 2 ^ 64) ∧
    (∀ d, rf s oFENCE_CFG 23 12 ≠ 0 → linkUp s l = false → (link s l).deadSince = some d →
      bit (getR s oFENCE_CFG) 0 = true → (link s l).fenced = false →
      ∃ t, exec (.deadHoldExpiry l) s = .next t ∧ t.now = max s.now (d + rf s oFENCE_CFG 23 12 * secT) ∧
        (if (recentFences (await s d (rf s oFENCE_CFG 23 12 * secT))).length < rf s oFENCE_CFG 63 56 then
          (link t l).fenced = true ∧ (link t l).source = 2
        else (link t l).fenced = false ∧ (link t l).wanted = true ∧
          cntGet t 0x004 = (cntGet s 0x004 + 1) % 2 ^ 64))

/-- R372, R374, R375: FENCE_N and FENCE_UNSTABLE fence a READY module that is ACTIVE or about to leave ACTIVE; a fast
second assertion latches FENCE_UNSTABLE, which a write clears; 10 s asserted raises FENCE_HELD; WAKE_N stays masked
until re-armed and seen deasserted, and raises WAKE_HELD after 1 s. Completes: fenceNAssert, fenceNDeassert,
fenceNHoldExpiry, fenceUnstableClear, wakeNDeassert, wakeNHoldExpiry, wakeRearm. -/
def Obligations.FenceAndWakePins : Prop :=
  ∀ s : State,
    (pinsLive s = true → s.hlt.fenceN = false → moduleReadyNow s = true →
      s.pwr.state = 0 ∨ s.pwr.state = 4 →
      ∃ t, exec .fenceNAssert s = .next t ∧ t.hlt.fenceN = true ∧ t.hlt.moduleFenced = true ∧
        t.hlt.fenceAssertAt = some s.now ∧
        (∀ a, s.hlt.fenceAssertAt = some a → s.now < a + 100 * usT → t.hlt.fenceUnstable = true)) ∧
    (pinsLive s = true → s.hlt.fenceN = true →
      ∃ t, exec .fenceNDeassert s = .next t ∧ t.hlt.fenceN = false ∧
        t.hlt.moduleFenced = (t.hlt.fenceUnstable && mayFence s)) ∧
    (∀ a, s.hlt.fenceN = true → s.hlt.fenceHeld = false → s.hlt.fenceAssertAt = some a →
      ∃ t, exec .fenceNHoldExpiry s = .next t ∧ t.hlt = { s.hlt with fenceHeld := true } ∧
        cntGet t 0x007 = (cntGet s 0x007 + 1) % 2 ^ 64 ∧ a + 10 * secT < t.now) ∧
    (∀ f, mayWrite s f = true →
      ∃ t, exec (.fenceUnstableClear f) s = .next t ∧ t.hlt.fenceUnstable = false ∧
        t.hlt.moduleFenced = (s.hlt.fenceN && mayFence s)) ∧
    (∀ a, s.hlt.wakeN = true → s.hlt.wakeAt = some a →
      ∃ t, exec .wakeNHoldExpiry s = .next t ∧ t.hlt = { s.hlt with wakeAt := none } ∧
        cntGet t 0x008 = (cntGet s 0x008 + 1) % 2 ^ 64 ∧ a + secT ≤ t.now) ∧
    (∀ f, mayWrite s f = true →
      ∃ t, exec (.wakeRearm f) s = .next t ∧ OnlyChanges [.hlt] s t ∧
        (s.hlt.wakeN = false → t.hlt.wakeMasked = false) ∧
        (s.hlt.wakeN = true → t.hlt.wakeRearm = true ∧ t.hlt.wakeMasked = s.hlt.wakeMasked)) ∧
    (pinsLive s = true →
      ∃ t, exec .wakeNDeassert s = .next t ∧ OnlyChanges [.hlt] s t ∧ t.hlt.wakeN = false ∧
        t.hlt.wakeMasked = (s.hlt.wakeMasked && !s.hlt.wakeRearm))

/-- The sample of a set as R382 leaves it: the readings that count, and the highest of them. -/
def sampleTop (s : State) (set : SensorSet) (u : Nat) (r : List (BitVec 16)) : Option Int :=
  let r := r.take (sensorCount set u)
  topOf (validOf set r (excludedOf s set u r))

/-- R378, R381: a sample at the trip threshold outside STANDBY trips the module; below it, a set's warn and limit
conditions are set at their thresholds and are not cleared by a sample. A set's warn condition ends once every sensor
of it has stayed 3 K below for 1 ms. Model's choices it rests on: log entries 14 and 39. Completes:
thermalClearExpiry, thermalSample. -/
def Obligations.ThermalSamplesJudged : Prop :=
  ∀ (s : State) (set : SensorSet) (u : Nat),
    (∀ r x, pinsLive s = true → unitThere s set u = true → sampleTop s set u r = some x →
      ∃ t, exec (.thermalSample set u r) s = .next t ∧
        (tripAt set ≤ x → s.pwr.state ≠ 3 →
          MainOff s t ∧ t.hlt.tripLatch = true ∧ t.hlt.tripSrc = setNo set + 1 ∧ t.pwr.exitCause = 4) ∧
        (x < tripAt set ∨ s.pwr.state = 3 →
          t.pwr = s.pwr ∧ (therm t set u).readings = r.take (sensorCount set u) ∧
          (therm t set u).warn = ((therm s set u).warn || decide (warnAt s set ≤ x)) ∧
          ((therm t set u).warn = true → t.hlt.alert = true) ∧
          (∀ y, limitAt set = some y → (therm t set u).limit = ((therm s set u).limit || decide (y ≤ x))))) ∧
    (∀ w, (therm s set u).warn = true → (therm s set u).limit = false → (therm s set u).warnLow = some w →
      ∃ t, exec (.thermalClearExpiry set u) s = .next t ∧ t.now = max s.now (w + msT) ∧
        (therm t set u).warn = false ∧ cntGet t 0x010 = (cntGet s 0x010 + 1) % 2 ^ 64)

/-! ### Counters, samples and the mailbox: chapters 11 and 13 -/

/-- R385, R387, R399: a read of CNT_VALUE returns the counter and latches its index and stamp for its requester; a
read of SMP_DATA moves the read position, and the fourth frees the record. VFs reach neither, and in RETAIN both read
0 (R417). Model's choices it rests on: log entries 3 and 10. Completes: counterRead, sampleDataRead. -/
def Obligations.CounterAndSampleReads : Prop :=
  ∀ s : State,
    (∀ f i, mayReadMain s f = true →
      ∃ t, exec (.counterRead f i) s = .next t ∧ t.out = s.out ++ [.readData f (BitVec.ofNat 64 (counterValue s i))] ∧
        tget 0 t.cnt.last (lastSlot f) = mkWord [at_ 32 (nt32 s), i % 2 ^ 18] ∧
        (∀ g, lastSlot g ≠ lastSlot f → tget 0 t.cnt.last (lastSlot g) = tget 0 s.cnt.last (lastSlot g)) ∧
        t.cnt.values = s.cnt.values ∧ OnlyChanges [.cnt, .out] s t) ∧
    (∀ f d, mayReadMain s f = true →
      ∃ t, exec (.sampleDataRead f d) s = .next t ∧ t.out = s.out ++ [.readData f (sampleWordAt s d)] ∧
        (∀ r rest, (smp s d).recs = r :: rest → (smp s d).pos < 3 →
          (smp t d).recs = r :: rest ∧ (smp t d).pos = (smp s d).pos + 1) ∧
        (∀ r rest, (smp s d).recs = r :: rest → (smp s d).pos = 3 → (smp t d).recs = rest ∧ (smp t d).pos = 0) ∧
        ((smp s d).recs = [] → smp t d = smp s d) ∧ OnlyChanges [.cnt, .out] s t) ∧
    (∀ f c, readReaches s f = true → mainAlive s = false →
      (∃ i, c = .counterRead f i) ∨ (∃ d, c = .sampleDataRead f d) →
      exec c s = .next { s with out := s.out ++ [.readData f 0] }) ∧
    (∀ n i d, exec (.counterRead (.vf n) i) s = .next s ∧ exec (.sampleDataRead (.vf n) d) s = .next s)

/-- The mailbox has answered a request with a status (R363). -/
def Answered (t : State) (status : Nat) : Prop :=
  t.hif.mboxBusy = false ∧ t.hif.mboxDone = true ∧ t.hif.mboxStatus = status

/-- R361 to R363: firmware answers each mailbox message that waits: information and measurements; an image is staged
only when accepted; recovery boots only a FAILED module; MIN_SVN rises to the running SVN; the running key is never
revoked. Model's choices it rests on: log entries 5 and 36. Completes: fwRecover, fwStage, getInfo, getMeasurement,
keyRevoke, svnCommit. -/
def Obligations.MailboxAnswers : Prop :=
  ∀ s : State,
    (mboxWaits s 1 = true →
      ∃ t, exec .getInfo s = .next t ∧ Answered t 0 ∧ OnlyChanges [.hif] s t ∧
        tget 0 t.hif.mboxResp 0 = mkWord [at_ 32 s.boot.fwVersion.toNat, s.boot.fwSvn.toNat] ∧
        tget 0 t.hif.mboxResp 1 =
          mkWord [at_ 32 s.boot.minSvn.toNat, at_ 8 s.boot.fwCopy, at_ 4 (s.boot.revoked % 16), s.boot.keySlot % 16]) ∧
    (mboxWaits s 2 = true →
      ∃ t, exec .getMeasurement s = .next t ∧ OnlyChanges [.hif] s t ∧
        (fld (mboxReq s 1) 1 0 = 3 → Answered t 1) ∧
        (fld (mboxReq s 1) 1 0 ≠ 3 → Answered t 0 ∧ ∀ i, i < 6 → tget 0 t.hif.mboxResp i =
          measWord s (fld (mboxReq s 1) 1 0) i)) ∧
    (∀ image i ok, mboxWaits s 3 = true → fwRuns s = true → namedImage s image = some i →
      ∃ t, exec (.fwStage image ok) s = .next t ∧
        t.out = s.out ++ dmaReads (mgr s) (mboxReq s 1).toNat (fld (mboxReq s 2) 31 0) ∧
        (namedVerdict s (if fwKind i = 2 then 2 else 1) i = .accepted → ok = true →
          Answered t 0 ∧ (2 * fwKind i + otherCopy s, i) ∈ t.boot.staged) ∧
        (namedVerdict s (if fwKind i = 2 then 2 else 1) i = .accepted → ok = false →
          Answered t 6 ∧ t.boot = s.boot) ∧
        (namedVerdict s (if fwKind i = 2 then 2 else 1) i ≠ .accepted →
          Answered t (verdictStatus (namedVerdict s (if fwKind i = 2 then 2 else 1) i)) ∧ t.boot = s.boot)) ∧
    (∀ image ok, mboxWaits s 3 = true → fwRuns s = true → namedImage s image = none →
      ∃ t, exec (.fwStage image ok) s = .next t ∧ Answered t 7 ∧ t.boot = s.boot) ∧
    (∀ image i, mboxWaits s 4 = true → s.boot.fwState = .failed → namedImage s image = some i →
      namedVerdict s 1 i = .accepted →
      ∃ t, exec (.fwRecover image) s = .next t ∧ Answered t 0 ∧ t.boot.fwState = .recovery ∧
        t.boot.fwSvn = fwSvnOf i ∧
        tget 0 t.boot.meas 0 = sha384Extend (tget 0 s.boot.meas 0) (fwDigest i)) ∧
    (∀ i, namedVerdict s 1 i = .rollback ↔ 256 + fwField i 16 4 ≤ fld (mboxReq s 2) 31 0 ∧
      imageVerdict s 1 i = .rollback) ∧
    (mboxWaits s 5 = true → fwRuns s = true →
      ∃ t, exec .svnCommit s = .next t ∧ Answered t 0 ∧ s.boot.minSvn ≤ t.boot.minSvn ∧
        s.boot.fwSvn ≤ t.boot.minSvn ∧ (s.boot.fwSvn ≤ s.boot.minSvn → t.boot.minSvn = s.boot.minSvn)) ∧
    (mboxWaits s 6 = true → fwRuns s = true →
      ∃ t, exec .keyRevoke s = .next t ∧
        (fld (mboxReq s 1) 1 0 = s.boot.keySlot → Answered t 1 ∧ t.boot.revoked = s.boot.revoked) ∧
        (fld (mboxReq s 1) 1 0 ≠ s.boot.keySlot →
          Answered t 0 ∧ t.boot.revoked.testBit (fld (mboxReq s 1) 1 0) = true))

/-! ### Rings, doorbells and commands: chapter 11 -/

/-- R336, R337: a doorbell of a ring that the writer owns and that is enabled sets TAIL; a TAIL beyond the ring's size
is an OVERRUN that stops the ring. Any other doorbell, and any BAR2 write that is none, is counted and ignored.
Completes: doorbellStray, cmdTail, tdmaTail, ploadTail. -/
def Obligations.DoorbellsActOnOwnedRings : Prop :=
  ∀ (s : State) (f : Func) (page : Nat) (v : Word), barUp s f = true →
    (∀ k i c, (c, k) ∈ [(Instr.cmdTail f page v, RingKind.cmd), (.tdmaTail f page v, .tdma),
        (.ploadTail f page v, .pload)] →
      bellRing (wake s 1) f k page = some i →
      ((fld v 23 0 + 2 ^ 24 - (ring (wake s 1) k i).head) % 2 ^ 24 ≤ ringSize (wake s 1) k i →
        ∃ t, exec c s = .next t ∧ ring t k i = { ring (wake s 1) k i with tail := fld v 23 0 } ∧
          (∀ k' j, ringKey k' j ≠ ringKey k i → ring t k' j = ring (wake s 1) k' j) ∧
          OnlyChanges [.hif] (wake s 1) t) ∧
      (ringSize (wake s 1) k i < (fld v 23 0 + 2 ^ 24 - (ring (wake s 1) k i).head) % 2 ^ 24 →
        (ring (wake s 1) k i).fault = 0 →
        ∃ t, exec c s = .next t ∧ ring t k i = { ring (wake s 1) k i with state := 3, fault := 1 } ∧
          cntGet t 0x901 = (cntGet (wake s 1) 0x901 + 1) % 2 ^ 64)) ∧
    (∀ k c, (c, k) ∈ [(Instr.cmdTail f page v, RingKind.cmd), (.tdmaTail f page v, .tdma),
        (.ploadTail f page v, .pload), (.cqHead f page v, .cq), (.eqHead f page v, .eq), (.cqArm f page, .cq),
        (.eqArm f page, .eq)] →
      bellRing (wake s 1) f k page = none → exec c s = .next (bump (wake s 1) (cMod 3))) ∧
    (∀ off bytes, bytes ≠ 4 ∧ bytes ≠ 8 ∨ off % 8 ≠ 0 ∨ 0x30 < off →
      exec (.doorbellStray f page off bytes v) s = .next (bump (wake s 1) (cMod 3))) ∧
    (∀ off bytes c, bytes = 4 ∨ bytes = 8 → (off, c) ∈ [(0x00, Instr.cmdTail f page v), (0x08, .cqHead f page v),
        (0x10, .cqArm f page), (0x18, .eqHead f page v), (0x20, .eqArm f page), (0x28, .tdmaTail f page v),
        (0x30, .ploadTail f page v)] →
      exec (.doorbellStray f page off bytes v) s = exec c s)

/-- R335, R339, R340: HEAD of a completion or event ring returns its entries; an arm raises the vector at once where
new entries are due, and else arms the ring; COAL_US after the first new entry an armed ring's vector is raised.
Model's choices it rests on: log entries 3, 7 and 39. Completes: coalUsExpiry, cqHead, eqHead, cqArm, eqArm. -/
def Obligations.HeadsAndArmsOfEntryRings : Prop :=
  ∀ s : State,
    (∀ f page v i, barUp s f = true → bellRing (wake s 1) f .cq page = some i →
      ∃ t, exec (.cqHead f page v) s = .next t ∧ (ring t .cq i).head = fld v 23 0) ∧
    (∀ f page v i, barUp s f = true → bellRing (wake s 1) f .eq page = some i →
      ∃ t, exec (.eqHead f page v) s = .next t ∧ (ring t .eq i).head = fld v 23 0 ∧
        (ring t .eq i).tail = (ring (wake s 1) .eq i).tail ∧
        (ring t .eq i).newAt.length =
          min (ringHeld { ring (wake s 1) .eq i with head := fld v 23 0 }) (ring (wake s 1) .eq i).newAt.length ∧
        OnlyChanges [.hif] (wake s 1) t) ∧
    (∀ f page k i c, barUp s f = true → (c, k) ∈ [(Instr.cqArm f page, RingKind.cq), (.eqArm f page, .eq)] →
      bellRing (wake s 1) f k page = some i →
      ∃ t, exec c s = .next t ∧ OnlyChanges [.hif, .out, .cnt] (wake s 1) t ∧
        (irqDue (modRing (wake s 1) k i fun r => { r with armed := true }) k i = true →
          Interrupted (wake s 1) t k i) ∧
        (irqDue (modRing (wake s 1) k i fun r => { r with armed := true }) k i = false →
          ring t k i = { ring (wake s 1) k i with armed := true } ∧ t.out = (wake s 1).out ∧
            t.cnt = (wake s 1).cnt)) ∧
    (∀ k i a rest, k = .cq ∨ k = .eq → (ring s k i).armed = true → (ring s k i).newAt = a :: rest →
      ∃ t, exec (.coalUsExpiry k i) s = .next t ∧ t.now = max s.now (a + fld (ringCfg s k i) 29 20 * usT) ∧
        Interrupted s t k i ∧ OnlyChanges [.hif, .out, .cnt, .clock] s t)

/-- R330, R338, R356: reads carry the function that owns the ring, in pieces of at most 4,096 B; a read takes
descriptors from HEAD on; a read that fails, or lies outside the self-host region, stops the ring with FETCH_ERROR. A
host's answer for a buffer waits with the descriptor, and an access that fails ends a MEM_WRITE with DMA_ERROR and its
address. Model's choices it rests on: log entries 3, 17 and 18. Completes: descriptorFetch, hostBufferAccess. -/
def Obligations.DescriptorsAndBuffersFetched : Prop :=
  ∀ (s : State) (k : RingKind) (i : Nat), i < ringCount k → k = .cmd ∨ k = .tdma ∨ k = .pload →
    (∀ w, (ring s k i).state = 1 → fetchCount s k i ≠ 0 →
      reachable s k i (ringBase s k i + 64 * ((ring s k i).head % ringSize s k i)) (64 * fetchCount s k i) =
        64 * fetchCount s k i →
      (∀ d, ((ring s k i).fetched ++ fetchedWords s.hif.fetchSeq w (fetchCount s k i)).head? = some d →
        opKnown k i (dOp d) = true) →
      ∃ t, exec (.descriptorFetch k i (some w)) s = .next t ∧
        ring t k i = { ring s k i with
          head := ((ring s k i).head + fetchCount s k i) % 2 ^ 24
          fetched := (ring s k i).fetched ++ fetchedWords s.hif.fetchSeq w (fetchCount s k i) } ∧
        cntGet t (cRing (ringCnt k i) 0) = (cntGet s (cRing (ringCnt k i) 0) + fetchCount s k i) % 2 ^ 64 ∧
        t.out = s.out ++ dmaReads (ringOwner s k i)
          (ringBase s k i + 64 * ((ring s k i).head % ringSize s k i)) (64 * fetchCount s k i) ∧
        OnlyChanges [.hif, .cnt, .out] s t) ∧
    (∀ w, (ring s k i).state = 1 → fetchCount s k i ≠ 0 →
      w = none ∨ reachable s k i (ringBase s k i + 64 * ((ring s k i).head % ringSize s k i))
        (64 * fetchCount s k i) < 64 * fetchCount s k i →
      ∃ t, exec (.descriptorFetch k i w) s = .next t ∧ ring t k i = { ring s k i with state := 3, fault := 2 } ∧
        cntGet t 0x901 = (cntGet s 0x901 + 1) % 2 ^ 64) ∧
    (∀ a d, firstDesc s k i = some d → a.failAt = none →
      ∃ t, exec (.hostBufferAccess k i a) s = .next t ∧ ring t k i = { ring s k i with staged := some a } ∧
        t.out = s.out ++ (match bufferRead k d with
          | some (addr, n) => dmaReads (descOwner s k i) addr (reachable s k i addr n)
          | none => []) ∧
        OnlyChanges [.hif, .out] s t) ∧
    (∀ a d v w, k = .cmd → DescReady s .cmd i d 0x40 → mwCheck s i true d = .ok v →
      reachable s .cmd i (d1Addr d) (mwLen d) ≠ 0 → a.failAt = some w →
      ∃ t, exec (.hostBufferAccess .cmd i a) s = .next t ∧ Completed s t .cmd i d stDMA_ERROR w.toNat 0)

/-- R340 to R342, R354: ENABLE 1 starts a ring with HEAD and TAIL 0, ENABLE 0 drains or stops it, and a drained ring
reads DISABLED; what R341 refuses leaves everything. RING_ASSIGN is taken while the rings of its index are idle and
the slot is not another ring's. Model's choices it rests on: log entry 10. Completes: ringAssignWrite, ringDisable,
ringDrained, ringEnable. -/
def Obligations.RingsEnabledDisabledAssigned : Prop :=
  ∀ (s : State) (f : Func) (k : RingKind) (i : Nat) (v : Word),
    (∀ en c, (c, en) ∈ [(Instr.ringEnable f k i v, 1), (.ringDisable f k i v, 0)] →
      (ringWriter s f k i && cfgRange s k i (cfgNext s k i (setFld v 8 8 en)) &&
          !cfgIgnored s k i (cfgNext s k i (setFld v 8 8 en))) = false →
      exec c s = .next s) ∧
    (ringWriter s f k i = true → cfgRange s k i (cfgNext s k i (setFld v 8 8 1)) = true →
      cfgIgnored s k i (cfgNext s k i (setFld v 8 8 1)) = false → bit (getR s (ringOff k i + 8)) 8 = false →
      bit (cfgNext s k i (setFld v 8 8 1)) 8 = true →
      ∃ t, exec (.ringEnable f k i v) s = .next t ∧
        getR t (ringOff k i + 8) = BitVec.ofNat 64 (regClip (regInfo s.variant s.boot.strapBl2 (ringOff k i + 8))
          (cfgNext s k i (setFld v 8 8 1)).toNat) ∧
        (ring t k i).state = (if (ring s k i).heldBack = [] then 1 else 4) ∧ (ring t k i).head = 0 ∧
        (ring t k i).tail = 0 ∧ (ring t k i).fault = 0 ∧ (ring t k i).lost = 0 ∧ (ring t k i).armed = false ∧
        (ring t k i).mute = false ∧ OnlyChanges [.regs, .hif] s t) ∧
    (ringWriter s f k i = true → cfgRange s k i (cfgNext s k i (setFld v 8 8 0)) = true →
      cfgIgnored s k i (cfgNext s k i (setFld v 8 8 0)) = false → bit (getR s (ringOff k i + 8)) 8 = true →
      bit (cfgNext s k i (setFld v 8 8 0)) 8 = false →
      ∃ t, exec (.ringDisable f k i v) s = .next t ∧
        ring t k i = { ring s k i with
          state := if k ≠ .cq ∧ k ≠ .eq ∧ outstanding (ring s k i) = true then 2 else 0 } ∧
        OnlyChanges [.regs, .hif] s t) ∧
    (ringLive s k i = true → bit (getR s (ringOff k i + 8)) 8 = false → outstanding (ring s k i) = false →
      ∃ t, exec (.ringDrained k i) s = .next t ∧ ring t k i = { ring s k i with state := 0, runAs := none } ∧
        OnlyChanges [.hif] s t) ∧
    (mayWrite s f = true → ringLive s .cmd i = false → ringLive s .cq i = false →
      (i < 16 → ringLive s .eq i = false) →
      bit v 15 = false ∨ (i ≠ 0 ∧ ∀ q, slotIndex s (fld v 13 8) (fld v 1 0) = some q → q = i) →
      ∃ t, exec (.ringAssignWrite f i v) s = .next t ∧ RegWritten s t (oCMD i + 0x18) v ∧
        OnlyChanges [.regs] s t)

/-- A ring is DISABLED, or DISABLING while what it had fetched runs on, and completes nothing to its owner any more.
-/
def RingMuted (s t : State) (k : RingKind) (i : Nat) : Prop :=
  (ring t k i).fetched = (ring s k i).fetched ∧ (ring t k i).heldBack = [] ∧
    (k ≠ .cmd → (ring t k i).running = (ring s k i).running) ∧
    (∀ x, x ∈ (ring t k i).running → x ∈ (ring s k i).running) ∧
    (ring t k i).state = (if outstanding (ring t k i) then 2 else 0) ∧
    (ring s k i ≠ {} → (ring t k i).mute = true ∧ bit (getR t (ringOff k i + 8)) 8 = false ∧
      descOwner t k i = descOwner s k i ∧
      (k = .cmd → (∀ x, x ∈ t.hif.telem → x.ring ≠ i) ∧ ∀ die x, x ∈ launchStore t die → die < 4 → x.ring ≠ i))

/-- R342, R356, R365: a function reset disables the function's rings, which then write no completion while what they
had fetched runs on, but for frames in the launch stores and telemetry buffers, which end; a reset of the PF and the
loss of its link disable every ring but the cores', disable the VFs and advance EPOCH. Enabling and disabling a VF
moves its table-DMA ring. Model's choices it rests on: log entry 32. Completes: vfDisable, vfEnable, vfFlr, pfFlr,
pcieLinkDown. -/
def Obligations.FunctionResetsDisableRings : Prop :=
  ∀ s : State,
    (∀ n, s.hif.vfs.contains n = true →
      ∃ t, exec (.vfFlr n) s = .next t ∧ t.hif.vfs = s.hif.vfs ∧ t.tbl = s.tbl ∧ t.coll = s.coll ∧
        t.hif.epoch = s.hif.epoch ∧
        ∀ k i, i < ringCount k → ringOwner s k i = .vf n → RingMuted s t k i) ∧
    (∀ n, s.hif.vfs.contains n = false →
      ∃ t, exec (.vfEnable n) s = .next t ∧ t.hif.vfs = n :: s.hif.vfs ∧
        ringOwner t .tdma n = .vf n ∧ t.tbl = s.tbl ∧
        (ringLive s .tdma n = false → ring t .tdma n = ring s .tdma n) ∧
        (ringLive s .tdma n = true → (ring t .tdma n).mute = true ∧ descOwner t .tdma n = descOwner s .tdma n ∧
          (ring t .tdma n).fetched = (ring s .tdma n).fetched ∧
          (ring t .tdma n).running = (ring s .tdma n).running ∧
          ((ring s .tdma n).fetched = [] → (ring s .tdma n).running = [] → (ring t .tdma n).state = 0))) ∧
    (∀ n, ∃ t, exec (.vfDisable n) s = .next t ∧ t.hif.vfs.contains n = false ∧
      (∀ m, m ≠ n → t.hif.vfs.contains m = s.hif.vfs.contains m) ∧ ringOwner t .tdma n = mgr s ∧ t.tbl = s.tbl) ∧
    (∀ c, c = .pfFlr ∨ c = .pcieLinkDown →
      ∃ t, exec c s = .next t ∧ t.hif.epoch = nextEpoch s.hif.epoch ∧ t.hif.vfs = [] ∧ t.tbl = s.tbl ∧
        t.coll = s.coll ∧ t.mem = s.mem ∧ t.lnk = s.lnk ∧ t.tim = s.tim ∧
        ∀ k i, i < ringCount k → ringOwner s k i ≠ .core → RingMuted s t k i)

/-- R344, R345, R348: NOP completes OK; a SEND_FRAME to enter the riser now does so when its header, its partition and
its destination allow, and completes with the reason where they do not; one with a launch time is held. A telemetry
buffer is posted, and 1 ms after its first record it completes with the records written. Model's choices it rests on:
log entries 3, 18 and 39. Completes: nop, sendFrame, telemetryBuf, telemetryBufTimeout. -/
def Obligations.NopSendFrameTelemetry : Prop :=
  ∀ (s : State) (i : Nat) (d : List Word),
    (DescReady s .cmd i d 0x60 →
      ∃ t, exec (.nop i) s = .next t ∧ Completed s t .cmd i d ((firstCheck [ones] d).getD stOK) 0 0) ∧
    (∀ st, DescReady s .cmd i d 0x30 → sfCheck s i d = some st →
      ∃ t, exec (.sendFrame i) s = .next t ∧ Completed s t .cmd i d st 0 0) ∧
    (∀ p, DescReady s .cmd i d 0x30 → sfCheck s i d = none →
      ((sfFrame d).length = 0 ∧ p = []) ∨ HostGave s .cmd i (d1Addr d) (sfFrame d).length p →
      let die := fld (ringCfg s .cmd i) 19 18
      (nth 0 d 3 = 0 →
        (selfEid s = none ∨ destOk s (dPart d) (sfFrame d) = false →
          ∃ t, exec (.sendFrame i) s = .next t ∧ Completed s t .cmd i d stUNREACHABLE 0 0) ∧
        (∀ self, selfEid s = some self → destOk s (dPart d) (sfFrame d) = true →
          ∃ t, exec (.sendFrame i) s = .next t ∧
            if (originate (popDesc s .cmd i d) die { sfFrame d with payload := p, src := self }).2 = 0 then
              Completed s t .cmd i d stOK (nt32 s) 0
            else Completed s t .cmd i d stUNREACHABLE 0 0)) ∧
      (nth 0 d 3 ≠ 0 → (launchStore s die).length < 1024 →
        (s.tim.inForce = true → (nth 0 d 3).toNat < ntNs s →
          ∀ self, selfEid s = some self → destOk s (dPart d) (sfFrame d) = true →
          (originate (bump (popDesc s .cmd i d) (cDie die 8)) die { sfFrame d with payload := p, src := self }).2 = 0 →
          ∃ t, exec (.sendFrame i) s = .next t ∧ Completed s t .cmd i d stLATE_LAUNCH (nt32 s) 0) ∧
        (s.tim.inForce = false ∨ ntNs s ≤ (nth 0 d 3).toNat →
          ∃ t l, exec (.sendFrame i) s = .next t ∧ Started s t .cmd i d ∧
            launchStore t die = launchStore s die ++ [l] ∧ l.f = { sfFrame d with payload := p } ∧
            l.time = (nth 0 d 3).toNat ∧ l.ring = i ∧ l.release = decide ((nth 0 d 3).toNat = ones) ∧
            l.late = false))) ∧
    (DescReady s .cmd i d 0x30 → sfCheck s i d = none → nth 0 d 3 ≠ 0 →
      1024 ≤ (launchStore s (fld (ringCfg s .cmd i) 19 18)).length →
      ∃ t, exec (.sendFrame i) s = .next t ∧ Completed s t .cmd i d stLAUNCH_FULL 0 0) ∧
    (DescReady s .cmd i d 0x31 → ringVf s .cmd i = none → resOk [cmdMask, ones, mask 35 34 + mask 31 0] d = true →
      dPart d ≤ 64 → d1Addr d % 64 = 0 → fld (nth 0 d 2) 31 0 ≠ 0 → fld (nth 0 d 2) 31 0 ≤ 65536 →
      ∃ t, exec (.telemetryBuf i) s = .next t ∧ Started s t .cmd i d ∧
        t.hif.telem = s.hif.telem ++
          [{ die := fld (nth 0 d 2) 35 34, addr := d1Addr d, records := fld (nth 0 d 2) 31 0, ring := i,
             tag := runKey s .cmd i d }]) ∧
    (∀ die x a, s.hif.telem.find? (fun t => t.die == die) = some x → x.firstAt = some a →
      MayComplete s .cmd x.ring x.tag →
      ∃ t, exec (.telemetryBufTimeout die) s = .next t ∧ t.now = max s.now (a + msT) ∧
        t.hif.telem = s.hif.telem.erase x ∧ EntryWritten s t .cmd x.ring x.tag stOK 0 x.filled)

/-- R346, R347: MEM_WRITE puts whole lines into its region and MEM_READ brings them to the host, up to the first that
is POISONED; DEBUG_READ brings plan memory and crucible memory. Each completes, and what its checks name is its
status. Model's choices it rests on: log entries 3, 18, 35 and 38. Completes: debugRead, memRead, memWrite. -/
def Obligations.MemoryCommandsMoveLines : Prop :=
  ∀ (s : State) (i : Nat) (d : List Word),
    (∀ v p, DescReady s .cmd i d 0x40 → mwCheck s i true d = .ok v → HostGave s .cmd i (d1Addr d) (mwLen d) p →
      (∀ l, (tget ({} : MapEntry) s.mem.map l).retired = false) →
      ∃ t, exec (.memWrite i) s = .next t ∧ Completed s t .cmd i d stOK 0 0 ∧
        ∀ key, lineAt t key =
          if 4 * rgBase v + mwOff d / 64 ≤ key ∧ key < 4 * rgBase v + mwOff d / 64 + mwLen d / 64 then
            .data (bytesLine (p.drop (64 * (key - (4 * rgBase v + mwOff d / 64)))))
          else lineAt s key) ∧
    (∀ st, DescReady s .cmd i d 0x40 → mwCheck s i true d = .error st →
      ∃ t, exec (.memWrite i) s = .next t ∧ Completed s t .cmd i d st 0 0 ∧ t.mem = s.mem) ∧
    (∀ st, DescReady s .cmd i d 0x41 → mwCheck s i false d = .error st →
      ∃ t, exec (.memRead i) s = .next t ∧ Completed s t .cmd i d st 0 0 ∧ t.mem = s.mem) ∧
    (∀ v b bad, DescReady s .cmd i d 0x41 → mwCheck s i false d = .ok v →
      HostTakes s .cmd i (d1Addr d) (mwLen d) →
      readLines s (rgBase v) (mwLen d / 64) (mwOff d / 64) = (b, bad) →
      ∃ t, exec (.memRead i) s = .next t ∧ t.mem.lines = s.mem.lines ∧
        (∀ o, o ∈ dmaWrites (descOwner s .cmd i) (d1Addr d) b → o ∈ t.out) ∧
        (bad = none → Completed s t .cmd i d stOK 0 0) ∧
        (∀ n, bad = some n → Completed s t .cmd i d stMEM_POISONED (64 * n) 0)) ∧
    (∀ bad, DescReady s .cmd i d 0x50 → HostTakes s .cmd i (d1Addr d) (mwLen d) → ringVf s .cmd i = none →
      resOk [cmdMask, ones, mask 63 56, ones, mask 31 0] d = true → dPart d ≤ 64 → d1Addr d % 8 = 0 →
      mwOff d % 64 = 0 → mwLen d % 64 = 0 → mwLen d ≠ 0 → mwLen d ≤ 2 ^ 26 →
      (fld (nth 0 d 2) 63 56 = 2 → mwOff d + mwLen d ≤ 2 ^ 27 →
        ∃ t, exec (.debugRead i bad) s = .next t ∧
          Completed s t .cmd i d stOK (bad.filter fun w => decide (w < mwLen d / 8)).dedup.length 0 ∧
          ∀ o, o ∈ dmaWrites (descOwner s .cmd i) (d1Addr d)
            (spoil (bad.filter fun w => decide (w < mwLen d / 8)).dedup (planBytes s (mwOff d) (mwLen d))) → o ∈ t.out) ∧
      (fld (nth 0 d 2) 63 56 = 1 → mwOff d + mwLen d ≤ 2 ^ 31 →
        ∃ t, exec (.debugRead i bad) s = .next t ∧
          (hasCrucibles s = false → Completed s t .cmd i d stUNIT_ABSENT 0 0) ∧
          (hasCrucibles s = true →
            Completed s t .cmd i d stOK (bad.filter fun w => decide (w < mwLen d / 8)).dedup.length 0)))

/-! ### Registers, tables and table DMA: chapters 00, 01 and 05 -/

/-- R11 to R15, R332: a write of another width or alignment, or of a VF outside its own registers, has no effect; a
register takes a write by its access codes, unless a range is broken; one that cannot cross into its block's clock
domain times out and is discarded (R428); GLOBAL_LOCK and TBL_LOCK take a 1. Model's choices it rests on: log entry
10. Completes: blockLockSet, registerWrite. -/
def Obligations.RegistersTakeWritesByAccessCode : Prop :=
  ∀ (s : State) (f : Func) (v : Word),
    (∀ off bytes, bytes ≠ 8 ∨ off % 8 ≠ 0 → exec (.registerWrite f off bytes v) s = .next s) ∧
    (∀ n off, off < 0x1000 ∨ 0x2040 ≤ off → exec (.registerWrite (.vf n) off 8 v) s = .next s) ∧
    (∀ off, mayReach s f = false → (∀ n, f ≠ .vf n) → exec (.registerWrite f off 8 v) s = .next s) ∧
    (∀ off, mayWriteMain s f = true → crosses s off = true →
      off ∈ [oPWR_CFG, oCDC_LOG, oTIME_CFG, oPPS_CFG, oPPS_TOD, oFADE_CFG, oCAL_CFG, oSELF_EID, oCREDIT_CFG,
        oCTX_CFG, oCTX_RING, oMISMATCH0, oMEM_CFG, oMEM_UE_LOG, oFENCE_CFG, oTHERM_CFG] →
      ∃ t, exec (.registerWrite f off 8 v) s = .next t ∧ RegWritten s t off v ∧ OnlyChanges [.regs] s t) ∧
    (∀ off, crosses s off = false → (∀ n, f ≠ .vf n) → exec (.registerWrite f off 8 v) s = .next s) ∧
    (∀ off k, blockDomain off = some k → crosses s off = !pllLost s k) ∧
    (mayWriteMain s f = true →
      ∃ t, exec (.registerWrite f oCM_CFG 8 v) s = .next t ∧ RegWritten s t oCM_CFG v ∧ OnlyChanges [.regs, .lnk] s t ∧
        (rf t oCM_CFG 15 0 = rf s oCM_CFG 15 0 → t.lnk = s.lnk) ∧ ∀ q, lane t q = lane s q) ∧
    (mayReach s f = true →
      ∃ t, exec (.blockLockSet f false) s = .next t ∧ RegWritten s t oLOCK 1 ∧ bit (getR t oLOCK) 0 = true ∧
        OnlyChanges [.regs] s t) ∧
    (mayWriteMain s f = true →
      ∃ t, exec (.blockLockSet f true) s = .next t ∧ RegWritten s t oTBL_LOCK 1 ∧ bit (getR t oTBL_LOCK) 0 = true ∧
        OnlyChanges [.regs] s t)

/-- R15, R19, R20, R33: FABRIC_POS takes a value while it is not locked, the PLANE lies in the fabric and every link
is DOWN or DISABLED; else it keeps its value. TBL_CFG takes a value, and marks the windows that are open longer than
its limit. Model's choices it rests on: log entry 10. Completes: fabricPosWrite, tblCfgWrite. -/
def Obligations.FabricPosAndTblCfgWritten : Prop :=
  ∀ (s : State) (f : Func) (v : Word),
    let i := regInfo s.variant s.boot.strapBl2 oFABRIC_POS
    let new : Word := BitVec.ofNat 64 (applyWrite i false (getR s oFABRIC_POS).toNat v.toNat)
    (bit (getR s oLOCK) 0 = true → exec (.fabricPosWrite f v) s = .next s) ∧
    (bit new 16 = true → fld new 23 21 < fld new 2 0 → bit (getR s oLOCK) 0 = false →
      exec (.fabricPosWrite f v) s = .next s) ∧
    (∀ l, (link s l).state ≠ 0 → (link s l).state ≠ 4 → exec (.fabricPosWrite f v) s = .next s) ∧
    (mayReach s f = true → bit (getR s oLOCK) 0 = false → new ≠ getR s oFABRIC_POS →
      (bit new 16 = true → fld new 2 0 ≤ fld new 23 21) →
      (∀ e, e ∈ s.lnk.links → e.2.state = 0 ∨ e.2.state = 4) →
      ∃ t, exec (.fabricPosWrite f v) s = .next t ∧
        getR t oFABRIC_POS = BitVec.ofNat 64 (regClip i new.toNat) ∧
        (∀ o, o ≠ oFABRIC_POS → getR t o = getR s o) ∧ t.tbl = s.tbl ∧ t.mem = s.mem) ∧
    (mayWriteMain s f = true →
      ∃ t, exec (.tblCfgWrite f v) s = .next t ∧ RegWritten s t oTBL_CFG v ∧
        ∀ p, p < 65 → (window t p).isOpen = (window s p).isOpen ∧
          (window t p).long = ((window s p).long ||
            ((window s p).isOpen && decide ((window s p).openedAt + rf t oTBL_CFG 63 52 * secT < s.now))))

/-- R33: a window opens unless a plan is admitted for its partition; a close waits for the table DMA fetched before
it, and then closes the window, or completes LOCK_HELD while LOCK is set; an opening longer than RECAST_LIMIT is
reported once. Model's choices it rests on: log entries 3, 18 and 39. Completes: recastClose, recastCloseTakesEffect,
recastLimitExpiry, recastOpen. -/
def Obligations.RecastWindowsOpenAndClose : Prop :=
  ∀ (s : State) (i : Nat) (d : List Word),
    (∀ st, firstCheck [cmdMask] d = some st →
      (DescReady s .cmd i d 0x10 → ∃ t, exec (.recastOpen i) s = .next t ∧ Completed s t .cmd i d st 0 0) ∧
      (DescReady s .cmd i d 0x11 → ∃ t, exec (.recastClose i) s = .next t ∧ Completed s t .cmd i d st 0 0)) ∧
    (DescReady s .cmd i d 0x10 → firstCheck [cmdMask] d = none → foreignPart s .cmd i (dPart d) = false →
      (planActive s (dPart d) = true →
        ∃ t, exec (.recastOpen i) s = .next t ∧ Completed s t .cmd i d stPARTITION_ACTIVE 0 0 ∧ t.tbl = s.tbl) ∧
      (planActive s (dPart d) = false →
        ∃ t, exec (.recastOpen i) s = .next t ∧ Completed s t .cmd i d stOK 0 0 ∧
          (window t (dPart d)).isOpen = true ∧
          (window t (dPart d)).openedAt =
            (if (window s (dPart d)).isOpen then (window s (dPart d)).openedAt else s.now))) ∧
    (DescReady s .cmd i d 0x11 → firstCheck [cmdMask] d = none → foreignPart s .cmd i (dPart d) = false →
      ∃ t, exec (.recastClose i) s = .next t ∧ Started s t .cmd i d ∧
        window t (dPart d) = { window s (dPart d) with
          closing := (window s (dPart d)).closing ++ [(i, runKey s .cmd i d, (nth 0 d 8).toNat)] }) ∧
    (∀ c op st, (c, op) ∈ [(Instr.recastOpen i, 0x10), (.recastClose i, 0x11)] → st = stWRONG_PARTITION →
      DescReady s .cmd i d op → firstCheck [cmdMask] d = none → foreignPart s .cmd i (dPart d) = true →
      ∃ t, exec c s = .next t ∧ Completed s t .cmd i d st 0 0 ∧ t.tbl = s.tbl) ∧
    (∀ p c, (window s p).closing.find? (fun c => !earlierDma s p c.2.2) = some c → MayComplete s .cmd c.1 c.2.1 →
      ∃ t, exec (.recastCloseTakesEffect p) s = .next t ∧
        (window t p).closing = (window s p).closing.erase c ∧
        ((window s p).isOpen = true → (window s p).lock = true →
          (window t p).isOpen = true ∧ EntryWritten s t .cmd c.1 c.2.1 stLOCK_HELD 0 0) ∧
        ((window s p).isOpen = false ∨ (window s p).lock = false →
          (window t p).isOpen = false ∧ EntryWritten s t .cmd c.1 c.2.1 stOK 0 0)) ∧
    (∀ p, (window s p).isOpen = true → (window s p).long = false →
      ∃ t, exec (.recastLimitExpiry p) s = .next t ∧
        t.now = max s.now ((window s p).openedAt + (rf s oTBL_CFG 63 52 * secT + 1)) ∧
        (window t p).long = true ∧ cntGet t 0x402 = (cntGet s 0x402 + 1) % 2 ^ 64)

/-- R172 to R178: every check of a table-DMA descriptor ends it with its status; a WRITE stores entries in order up to
the first that fails and answers how many it stored; a valid ROUTE entry of the ring's own partition is stored as
written; a READ brings the entries of the active bank to the host. Model's choices it rests on: log entries 3 and 18.
Completes: tdmaRead, tdmaWrite. -/
def Obligations.TableDmaWritesAndReads : Prop :=
  ∀ (s : State) (r : Nat) (k : RingKind) (i : Nat) (d : List Word), tdmaRing r = (k, i) → r ≤ 64 →
    (∀ c op st, (c, op) ∈ [(Instr.tdmaWrite r, 1), (.tdmaRead r, 2), (.emInsert r, 3), (.emDelete r, 4),
        (.tdmaLock r, 5), (.tdmaUnlock r, 6), (.tdmaPurge r, 7)] →
      DescReady s k i d op → tdCheck s r d = some st →
      ∃ t, exec c s = .next t ∧ Completed s t k i d st 0 0 ∧ t.tbl = s.tbl) ∧
    (∀ b, DescReady s k i d 1 → tdCheck s r d = none →
      (if tdInline d then b = bytesOfWords (d.drop 4)
        else HostGave s k i (tdAddr d) (entryBytes (tdTable d) * tdCount d) b) →
      ∃ t, exec (.tdmaWrite r) s = .next t ∧
        (∀ w, writeEntries (pieces (entryBytes (tdTable d)) (tdCount d) b) (popDesc s k i d) r (tdTable d) (tdIndex d) 0
            = w →
          t.tbl = w.1.tbl ∧ Completed s t k i d w.2.1 0 w.2.2)) ∧
    (DescReady s k i d 1 → tdCheck s r d = none → tdInline d = true → tdTable d = tbROUTE → d.length = 9 →
      (window s r).lock = false →
      (rtValid (tget 0 s.tbl.route (tdIndex d)) = true → rtPart (tget 0 s.tbl.route (tdIndex d)) = r) →
      (rtValid (nth 0 d 4) = true → rtPart (nth 0 d 4) = r ∧ routeOk (nth 0 d 4) = true) →
      ∃ t, exec (.tdmaWrite r) s = .next t ∧ Completed s t k i d stOK 0 1 ∧
        (∀ e, tget 0 t.tbl.route e = if e = tdIndex d then nth 0 d 4 else tget 0 s.tbl.route e) ∧
        cntGet t (cMod 8) = (cntGet s (cMod 8) + 1) % 2 ^ 64) ∧
    (DescReady s k i d 2 → tdCheck s r d = none →
      HostTakes s k i (tdAddr d) (entryBytes (tdTable d) * tdCount d) →
      ∃ t, exec (.tdmaRead r) s = .next t ∧ Completed s t k i d stOK 0 0 ∧ t.tbl = s.tbl ∧
        ∀ o, o ∈ dmaWrites (descOwner s k i) (tdAddr d)
          ((List.range (tdCount d)).map fun j => readEntry s (tdTable d) (tdIndex d + j)).flatten → o ∈ t.out)

/-- R164, R165, R304: EM_INSERT stores an entry of its own partition in its slot, or in a free candidate; EM_DELETE
clears the slot, scrubs the granules of a region, and answers NOT_FOUND for a key that is not present. Model's choices
it rests on: log entries 3, 8 and 18. Completes: emDelete, emInsert. -/
def Obligations.ExactMatchInsertedAndDeleted : Prop :=
  ∀ (s : State) (r : Nat) (k : RingKind) (i : Nat) (d : List Word), tdmaRing r = (k, i) → r ≤ 64 →
    tdCheck s r d = none →
    (DescReady s k i d 3 → fld (nth 0 d 4) 63 56 = 1 → hasStacks s = false →
      ∃ t, exec (.emInsert r) s = .next t ∧ Completed s t k i d stUNIT_ABSENT 0 0 ∧ t.tbl = s.tbl) ∧
    (DescReady s k i d 3 → fld (nth 0 d 4) 63 56 ≠ 1 ∨ hasStacks s = true →
      (fld (nth 0 d 4) 55 49 ≠ r →
        ∃ t, exec (.emInsert r) s = .next t ∧ Completed s t k i d stWRONG_PARTITION 0 0 ∧ t.tbl = s.tbl) ∧
      (fld (nth 0 d 4) 55 49 = r →
        emFormatOk (emInline d) r = false ∨ (fld (nth 0 d 4) 63 56 = 1 ∧
          regionOk s (emVal (emInline d)) (emFind s (nth 0 d 4) (nth 0 d 5)) = false) →
        ∃ t, exec (.emInsert r) s = .next t ∧ Completed s t k i d stBAD_ENTRY 0 0 ∧ t.tbl = s.tbl) ∧
      (∀ slot, fld (nth 0 d 4) 55 49 = r → emFormatOk (emInline d) r = true →
        (fld (nth 0 d 4) 63 56 = 1 → regionOk s (emVal (emInline d)) (emFind s (nth 0 d 4) (nth 0 d 5)) = true ∧
          ∀ j, emFind s (nth 0 d 4) (nth 0 d 5) = some j → regionBusy s (emVal (emSlot s j)) = false) →
        (window s r).lock = false →
        emFind s (nth 0 d 4) (nth 0 d 5) = some slot ∨ (emFind s (nth 0 d 4) (nth 0 d 5) = none ∧
          (emCands s (nth 0 d 4) (nth 0 d 5)).find? (fun j => !emValid (emSlot s j)) = some slot) →
        ∃ t, exec (.emInsert r) s = .next t ∧ Completed s t k i d stOK 0 1 ∧
          (∀ j, emSlot t j = if j = slot then emInline d else emSlot s j) ∧ t.tbl.route = s.tbl.route)) ∧
    (DescReady s k i d 4 →
      (fld (nth 0 d 4) 55 49 ≠ r →
        ∃ t, exec (.emDelete r) s = .next t ∧ Completed s t k i d stWRONG_PARTITION 0 0 ∧ t.tbl = s.tbl) ∧
      (fld (nth 0 d 4) 55 49 = r → emFind s (nth 0 d 4) (nth 0 d 5) = none →
        ∃ t, exec (.emDelete r) s = .next t ∧ Completed s t k i d stNOT_FOUND 0 0 ∧ t.tbl = s.tbl) ∧
      (∀ slot, fld (nth 0 d 4) 55 49 = r → emFind s (nth 0 d 4) (nth 0 d 5) = some slot →
        (fld (nth 0 d 4) 63 56 = 1 → regionBusy s (emVal (emSlot s slot)) = false) → (window s r).lock = false →
        ∃ t, exec (.emDelete r) s = .next t ∧ Completed s t k i d stOK 0 1 ∧
          (∀ j, emSlot t j = if j = slot then {} else emSlot s j) ∧
          (fld (nth 0 d 4) 63 56 = 1 → t.mem.scrubbing = s.mem.scrubbing ++
            [(rgBase (emVal (emSlot s slot)), rgSize (emVal (emSlot s slot)))])))

/-- R174, R177 to R179: LOCK keeps the view, UNLOCK releases the partition's before-images; PURGE runs in the
background, and when it completes no valid route of its partition is left, its COUNT telling how many entries went.
Model's choices it rests on: log entries 3, 18, 23 and 28. Completes: purgeComplete, tdmaLock, tdmaPurge, tdmaUnlock.
-/
def Obligations.LocksAndPurges : Prop :=
  ∀ (s : State) (r : Nat) (k : RingKind) (i : Nat) (d : List Word), tdmaRing r = (k, i) → r ≤ 64 →
    (DescReady s k i d 5 → tdCheck s r d = none →
      ∃ t, exec (.tdmaLock r) s = .next t ∧ Completed s t k i d stOK 0 0 ∧
        window t r = { window s r with lock := true } ∧ t.tbl.shadow = s.tbl.shadow) ∧
    (DescReady s k i d 6 → tdCheck s r d = none →
      ∃ t, exec (.tdmaUnlock r) s = .next t ∧ Completed s t k i d stOK 0 0 ∧
        window t r = { window s r with lock := false } ∧
        t.tbl.shadow = s.tbl.shadow.filter fun b => b.part != r) ∧
    (DescReady s k i d 7 → tdCheck s r d = none →
      ∃ t, exec (.tdmaPurge r) s = .next t ∧ Started s t k i d ∧ t.tbl.route = s.tbl.route ∧
        tget ({} : Purge) t.tbl.purges r =
          { part := r, table := tdTable d, ring := r + 1, tag := runKey s k i d }) ∧
    (∀ p w, tget ({} : Purge) s.tbl.purges r = p → p.ring ≠ 0 → purgeBusy s p.part (purgeTables p.table) = false →
      MayComplete s k i p.tag → (ring s k i).fetched = [] → purgeAll p.part (purgeTables p.table) s 0 = w →
      ∃ t, exec (.purgeComplete r) s = .next t ∧ tget ({} : Purge) t.tbl.purges r = {} ∧
        EntryWritten s t k i p.tag (if w.2.2 then stSHADOW_FULL else stOK) 0 w.2.1 ∧
        (p.table = tbROUTE → (window s p.part).lock = false →
          ∀ e, rtValid (tget 0 t.tbl.route e) = true → rtPart (tget 0 t.tbl.route e) ≠ p.part))

/-- The trie's result for the upper half of an IPv6 packet's destination address (R167, R168). -/
def trieWord (s : State) (pkt : List Byte) : Word :=
  match lpmWalk s ((sliceB pkt 24 8).foldl (fun a b => a * 256 + b.toNat) 0) with
  | some i => lpmResultAt s i
  | none => 0

/-- R168: an ACTIVE module routes an IPv6 packet by the trie: to the fabric, a management port or the cores, its hop
limit one less; no result, or a dropping one, is counted; a hop limit that ends goes to the cores. Model's choices it
rests on: log entries 10 and 29. Completes: mgmtEthReceive. -/
def Obligations.ManagementPacketsRouted : Prop :=
  ∀ (s : State) (port : Nat) (pkt : List Byte),
    let out := putBytes pkt 7 [BitVec.ofNat 8 (leAt pkt 7 1 - 1)]
    let w := trieWord s out
    (s.pwr.state ≠ 0 ∨ fwRuns s = false → exec (.mgmtEthReceive port pkt) s = .next s) ∧
    (s.pwr.state = 0 → fwRuns s = true → leAt pkt 0 1 / 16 ≠ 6 ∨ leAt pkt 7 1 ≤ 1 →
      exec (.mgmtEthReceive port pkt) s = .next { s with out := s.out ++ [.packet none pkt] }) ∧
    (s.pwr.state = 0 → fwRuns s = true → leAt pkt 0 1 / 16 = 6 → 1 < leAt pkt 7 1 →
      (∀ n, n < 2 → bit w 63 = true → fld w 62 60 = 2 + n →
        exec (.mgmtEthReceive port pkt) s = .next { s with out := s.out ++ [.packet (some n) out] }) ∧
      (bit w 63 = true → fld w 62 60 = 4 →
        exec (.mgmtEthReceive port pkt) s = .next { s with out := s.out ++ [.packet none out] }) ∧
      (bit w 63 = false ∨ fld w 62 60 = 0 ∨ 4 < fld w 62 60 →
        exec (.mgmtEthReceive port pkt) s = .next (bump s (cMod 2))) ∧
      (bit w 63 = true → fld w 62 60 = 1 → selfEid s = none ∨ 4096 < out.length →
        exec (.mgmtEthReceive port pkt) s = .next s) ∧
      (∀ self, bit w 63 = true → fld w 62 60 = 1 → selfEid s = some self → out.length ≤ 4096 →
        exec (.mgmtEthReceive port pkt) s = .next (originate s 0
          { dest := fld w 23 0, src := self, type := tMGMT, tc := 1, length := out.length, payload := out }).1))

/-! ### Lanes and links: chapter 03 -/

/-- A lane that dies (R85, R88): its state after, its death counted, LANE_DEAD raised once. -/
def LaneDied (s t : State) (q restart : Nat) : Prop :=
  (lane t q).state = (if fadeHopeless s q then 7 else restart) ∧
    cntGet t (cLane q 7) = (cntGet s (cLane q 7) + 1) % 2 ^ 64 ∧ cntGet t 0x204 = (cntGet s 0x204 + 1) % 2 ^ 64

/-- R84, R85: light starts the locking of a DOWN lane of a lit engine, and its loss ends it, or kills a lane in MARGIN
or UP; a heartbeat is sent with the lane's state, is recorded when it is received, and its absence for 50 µs kills the
lane; LINKCTL stops and resumes spine traffic, and a DISABLED partner takes the link's lanes down. Model's choices it
rests on: log entries 3 and 39. Completes: heartbeatReceive, heartbeatSend, heartbeatTimeout, lightPresent,
linkctlDisableReceive, lossOfLight, linkctlQuiesceReceive, linkctlResumeReceive. -/
def Obligations.LightHeartbeatsAndLinkctl : Prop :=
  ∀ (s : State) (q : Nat) (b : BitVec 104), q < 4160 →
    (∃ t, exec (.lightPresent q) s = .next t ∧
      (s.pwr.state ≠ 1 → s.pwr.state ≠ 2 →
        lane t q = { lane s q with
          los := false
          state := if (lane s q).state = 0 ∧ engineLit s (engineOfLane q) = true then 1 else (lane s q).state } ∧
        ∀ j, j ≠ q → lane t j = lane s j) ∧
      (s.pwr.state = 1 ∨ s.pwr.state = 2 → s.pwr.darkAtEntry.contains q = true → wakeEnabled s 2 = true →
        WakingFrom t 2 s.pwr.state s.now)) ∧
    (∃ t, exec (.lossOfLight q) s = .next t ∧ (lane t q).los = true ∧
      ((lane s q).state = 1 ∨ (lane s q).state = 2 → (lane t q).state = 0) ∧
      ((lane s q).state = 3 ∨ (lane s q).state = 4 → LaneDied s t q 0) ∧
      ((lane s q).state = 0 ∨ 4 < (lane s q).state → lane t q = { lane s q with los := true } ∧
        OnlyChanges [.lnk] s t)) ∧
    (∀ x, txState (lane s q) = some x →
      ∃ t, exec (.heartbeatSend q) s = .next t ∧
        t.now = (if (lane s q).lastHbSent = 0 then s.now else max s.now ((lane s q).lastHbSent + usT)) ∧
        (lane t q).lastHbSent = t.now ∧ OnlyChanges [.lnk, .out, .clock] s t ∧
        t.out = s.out ++ .os q osHEARTBEAT (mkBody [at_ 99 (linkLane q), at_ 96 x, at_ 84 (lane s q).expect]) ::
          (if linkUpState (link s (linkOf q)).state then
            [.os q osCREDIT_LO (creditBody s (linkOf q) 0), .os q osCREDIT_HI (creditBody s (linkOf q) 4)] else [])) ∧
    (laneHears (lane s q) = true → bf b 98 96 ≠ 4 →
      ∃ t, exec (.heartbeatReceive q b) s = .next t ∧ (lane t q).lastHb = s.now ∧
        ((lane s q).state ≠ 2 → (link s (linkOf q)).partnerDisabled = false → OnlyChanges [.lnk] s t ∧
          lane t q = { lane s q with lastHb := s.now, partnerTx := bf b 98 96 })) ∧
    (∀ c, (c = .heartbeatReceive q b ∧ laneHears (lane s q) = true ∧ bf b 98 96 = 4) ∨
        (c = .linkctlDisableReceive q b ∧ linkctlLegal s q = true) →
      (link s (linkOf q)).partnerDisabled = false →
      ∃ t, exec c s = .next t ∧ (link t (linkOf q)).partnerDisabled = true ∧
        ∀ j, j ∈ lanesOf (linkOf q) → (lane s j).state = 3 ∨ (lane s j).state = 4 → (lane t j).state = 2) ∧
    ((lane s q).state = 3 ∨ (lane s q).state = 4 →
      ∃ t, exec (.heartbeatTimeout q) s = .next t ∧ t.now = max s.now ((lane s q).lastHb + 50 * usT) ∧
        LaneDied s t q 1) ∧
    (∀ c on, (c, on) ∈ [(Instr.linkctlQuiesceReceive q b, true), (.linkctlResumeReceive q b, false)] →
      (linkctlLegal s q = true →
        ∃ t, exec c s = .next t ∧ OnlyChanges [.lnk] s t ∧ lane t q = { lane s q with quiesced := on }) ∧
      (linkctlLegal s q = false → exec c s = .next (bump s (cLane q 5)))) ∧
    (linkctlLegal s q = false → exec (.linkctlDisableReceive q b) s = .next (bump s (cLane q 5)))

/-- R26, R81, R84: POSITION is sent every 10 µs; one that names another place or protocol holds the link down for its
retry with its cause, one that matches is taken, and after 1 s bring-up is tried again. Model's choices it rests on:
log entries 3, 10 and 39. Completes: linkBringupRetry, positionReceive, positionSend. -/
def Obligations.PositionsExchanged : Prop :=
  ∀ (s : State) (q l : Nat) (b : BitVec 104), q < 4160 → l = linkOf q →
    ((lane s q).state = 2 →
      ∃ t, exec (.positionSend q) s = .next t ∧ OnlyChanges [.lnk, .out, .clock] s t ∧
        t.now = (if (lane s q).lastPosSent = 0 then s.now else max s.now ((lane s q).lastPosSent + 10 * usT)) ∧
        t.out = s.out ++ [.os q osPOSITION (mkBody [at_ 102 2, at_ 100 (if linkBl2Cfg s l then 2 else 3),
          at_ 97 (rf s oFABRIC_POS 2 0), at_ 80 (rf s oFABRIC_POS 13 8), at_ 75 (linkLane q)])]) ∧
    ((lane s q).state ≠ 2 → exec (.positionSend q) s = .next s) ∧
    ((lane s q).state = 3 ∨ ((lane s q).state = 2 ∧ (link s l).retryAt.isSome = true) →
      ∃ t, exec (.positionReceive q b) s = .next t ∧ OnlyChanges [.lnk] s t ∧
        link t l = { link s l with partner := partnerWord b } ∧ ∀ j, lane t j = lane s j) ∧
    ((lane s q).state ≠ 2 → (lane s q).state ≠ 3 → exec (.positionReceive q b) s = .next (bump s (cLane q 5))) ∧
    ((lane s q).state = 2 → (link s l).retryAt = none → posValid s = false →
      ∃ t, exec (.positionReceive q b) s = .next t ∧ OnlyChanges [.lnk] s t ∧
        link t l = { link s l with partner := partnerWord b, cause := 9 }) ∧
    ((lane s q).state = 2 → (link s l).retryAt = none → posValid s = true →
      (isLateral l = true → onePlane s = false) →
      (posOf q b ≠ expectedPos s q →
        ∃ t, exec (.positionReceive q b) s = .next t ∧ (link t l).retryAt = some s.now ∧ (link t l).cause = 4 ∧
          cntGet t 0x207 = (cntGet s 0x207 + 1) % 2 ^ 64 ∧ (lane t q).state = 2) ∧
      (posOf q b = expectedPos s q → bf b 101 100 ≠ (if linkBl2Cfg s l then 2 else 3) →
        ∃ t, exec (.positionReceive q b) s = .next t ∧ (link t l).retryAt = some s.now ∧ (link t l).cause = 5 ∧
          cntGet t 0x208 = (cntGet s 0x208 + 1) % 2 ^ 64 ∧ (lane t q).state = 2) ∧
      (posOf q b = expectedPos s q → bf b 101 100 = (if linkBl2Cfg s l then 2 else 3) →
        ∃ t, exec (.positionReceive q b) s = .next t ∧ (lane t q).posSeen = true)) ∧
    (∀ a, (link s l).retryAt = some a → (link s l).margin = none → lanesIn s l 3 = 0 →
      ∃ t, exec (.linkBringupRetry l) s = .next t ∧ t.now = max s.now (a + secT) ∧ (link t l).retryAt = none)

/-- R89, R90, R100, R102: credits received on either lane of a link that is up are the limits of their classes, a
resynchronisation sets SENT as well; RETRY of a held block replays from it, of any other kills the lane; a RETRY
without its block is sent again after 4 µs, and the lane dies after the eighth. Model's choices it rests on: log
entries 3, 10 and 39. Completes: creditReceive, creditResyncReceive, retryReceive, retryTimeout. -/
def Obligations.CreditsAndRetries : Prop :=
  ∀ (s : State) (q : Nat) (b : BitVec 104), q < 4160 →
    (∀ c, c = .creditResyncReceive q b ∨ c = .retryReceive q b → (lane s q).state ≠ 4 →
      exec c s = .next (bump s (cLane q 5))) ∧
    (∀ hi, linkUpState (link s (linkOf q)).state = false →
      exec (.creditReceive q hi b) s = .next (bump s (cLane q 5))) ∧
    (∀ hi, linkUpState (link s (linkOf q)).state = true →
      ∃ t, exec (.creditReceive q hi b) s = .next t ∧ OnlyChanges [.lnk] s t ∧
        ∀ k, tget 0 (link t (linkOf q)).limit k =
          if hi = false ∧ k < 4 then bf b (95 - 24 * k) (72 - 24 * k)
          else if hi = true ∧ 4 ≤ k ∧ k < 8 then bf b (95 - 24 * (k - 4)) (72 - 24 * (k - 4))
          else tget 0 (link s (linkOf q)).limit k) ∧
    ((lane s q).state = 4 →
      (∃ t, exec (.creditResyncReceive q b) s = .next t ∧ OnlyChanges [.lnk] s t ∧
        ∀ k, tget 0 (link t (linkOf q)).sent k =
            (if k = bf b 103 101 then bf b 100 77 else tget 0 (link s (linkOf q)).sent k) ∧
          tget 0 (link t (linkOf q)).limit k =
            (if k = bf b 103 101 then bf b 76 53 else tget 0 (link s (linkOf q)).limit k)) ∧
      (((lane s q).held.any fun k => k.seq == bf b 103 92) = true →
        ∃ t, exec (.retryReceive q b) s = .next t ∧ OnlyChanges [.lnk] s t ∧
          lane t q = { lane s q with replay := some (bf b 103 92) }) ∧
      (((lane s q).held.any fun k => k.seq == bf b 103 92) = false →
        (bf b 103 92 = (lane s q).nextSeq → exec (.retryReceive q b) s = .next s) ∧
        (bf b 103 92 ≠ (lane s q).nextSeq →
          ∃ t, exec (.retryReceive q b) s = .next t ∧ (lane t q).state = (if fadeHopeless s q then 7 else 1) ∧
            cntGet t 0x205 = (cntGet s 0x205 + 1) % 2 ^ 64)) ∧
      ((lane s q).awaiting = true → (lane s q).attempt < 8 →
        ∃ t, exec (.retryTimeout q) s = .next t ∧ t.now = max s.now ((lane s q).retryAt + 4 * usT) ∧
          (lane t q).attempt = (lane s q).attempt + 1 ∧ (lane t q).awaiting = true ∧ (lane t q).retryAt = t.now ∧
          t.out = s.out ++ [.os q osRETRY (mkBody [at_ 92 (lane s q).expect, at_ 88 ((lane s q).attempt + 1)])]) ∧
      ((lane s q).awaiting = true → 8 ≤ (lane s q).attempt →
        ∃ t, exec (.retryTimeout q) s = .next t ∧ t.now = max s.now ((lane s q).retryAt + 4 * usT) ∧
          LaneDied s t q 1))

/-- R84, R105, R111: ENABLE 0 takes the link's lanes to DISABLED and the link with them, ENABLE 1 lets them lock again
where they find light on a lit engine; a write that would change BL2 while ENABLE reads 1 is ignored as a whole.
Model's choices it rests on: log entry 10. Completes: linkDisable, linkEnable. -/
def Obligations.LinksEnabledAndDisabled : Prop :=
  ∀ (s : State) (f : Func) (l : Nat) (v : Word),
    (∀ c, c = .linkEnable f l v ∨ c = .linkDisable f l v → mayWriteMain s f = false ∨ linkCfgIgnored s l v = true →
      exec c s = .next s) ∧
    (mayWriteMain s f = true → linkCfgIgnored s l v = false → l < 2050 →
      (∃ t, exec (.linkDisable f l v) s = .next t ∧ linkEnabled t l = false ∧ (link t l).state = 4 ∧
        (link t l).cause = 7 ∧ (link t l).margin = none ∧ (link t l).retryAt = none ∧
        ∀ q, q ∈ lanesOf l → (lane t q).state =
          if (lane s q).state = 5 ∨ (lane s q).state = 7 then (lane s q).state else 8) ∧
      (∃ t, exec (.linkEnable f l v) s = .next t ∧ linkEnabled t l = true ∧
        (linkEnabled s l = true → OnlyChanges [.regs] s t) ∧
        (linkEnabled s l = false → (link t l).retryAt = none ∧
          ∀ q, q ∈ lanesOf l → (lane s q).state = 8 → (lane t q).state =
            if (lane s q).los = false ∧ engineLit s (engineOfLane q) = true then 1 else 0)))

/-- R52 to R57: a margin test starts once every lane of the link waits in MARGIN, steps the power after 1 ms, opens
its window, closes it after 10 ms and reports its counts; a test that every channel has passed restores power and
brings the lanes UP; without reports it is retried. The quick check of a recovered lane decides alone, and where it
fails the spares are tested. Model's choices it rests on: log entries 3, 16, 39 and 55. Completes: marginPowerStep,
marginReportReceive, marginReportWaitExpiry, marginRetry, marginTestStart, marginWindowClose, marginWindowOpen,
quickCheckWindowClose. -/
def Obligations.MarginTestsRun : Prop :=
  ∀ (s : State) (l : Nat),
    ((link s l).margin = none → (link s l).retryAt = none → marginReady s l = true →
      ∃ t m, exec (.marginTestStart l) s = .next t ∧ OnlyChanges [.opt, .lnk] s t ∧ (link t l).margin = some m ∧
        m.startAt = s.now ∧ m.round = 1 ∧ m.phase = 0) ∧
    (∀ m, (link s l).margin = some m →
      (m.phase = 0 → ∃ t, exec (.marginPowerStep l) s = .next t ∧ t.now = max s.now (m.startAt + msT) ∧
        (link t l).margin = some { m with phase := 1 } ∧ OnlyChanges [.lnk, .clock] s t) ∧
      (m.phase = 5 → ∃ t, exec (.marginPowerStep l) s = .next t ∧ t.now = max s.now (m.windowAt + msT) ∧
        (link t l).margin = none ∧
        (linkMayRise s l = true → ∀ q, q ∈ lanesOf l → (lane s q).state = 3 → (lane s q).needFull = true →
          (lane t q).state = 4) ∧
        (linkMayRise s l = false → t.lnk.lanes = s.lnk.lanes)) ∧
      (m.phase = 1 ∨ m.phase = 4 → ∃ t, exec (.marginWindowOpen l) s = .next t ∧
        t.now = max s.now (m.startAt + (2 + 13 * (m.round - 1)) * msT) ∧
        (link t l).margin = some { m with phase := 2, windowAt := t.now } ∧ OnlyChanges [.lnk, .clock] s t) ∧
      (∀ counts own, m.phase = 2 → own = addCounts m.own counts → ∃ t, exec (.marginWindowClose l counts) s = .next t ∧
        t.now = max s.now (m.windowAt + 10 * msT) ∧
        (∀ p, 2 * p + 1 ∈ m.testing →
          let q := laneAt l p
          let n := errorsOf (tget 0 own (marginKey p (chanCode (laneKey s .rx q))))
          Output.os q osMARGIN_REPORT (mkBody [at_ 99 (linkLane q), at_ 97 (chanCode (laneKey s .rx q)),
            at_ 95 (m.round % 4), at_ 94 0, at_ 93 (b2n (decide (n ≤ 255000))), at_ 69 (min 0xFFFFFF n)]) ∈ t.out) ∧
        (reportsIn s l { m with phase := 3, own := own } = false →
          (link t l).margin = some { m with phase := 3, own := own }) ∧
        (reportsIn s l { m with phase := 3, own := own } = true → lanesIn s l 3 ≠ 0 →
          (∀ x, x ∈ m.testing → (testResult s l { m with own := own } x).2 = true) →
          (link t l).margin = some { m with phase := 5, own := own, windowAt := t.now, testing := [] })) ∧
      (m.phase = 3 → ∃ t, exec (.marginReportWaitExpiry l) s = .next t ∧ t.now = max s.now (m.startAt + 100 * msT) ∧
        (link t l).margin = none ∧ (link t l).retryAt = some t.now ∧
        cntGet t 0x109 = (cntGet s 0x109 + 1) % 2 ^ 64)) ∧
    (∀ a, (link s l).retryAt = some a → (link s l).margin = none →
      marginReady (modLink s l fun k => { k with retryAt := none }) l = true →
      ∃ t m, exec (.marginRetry l) s = .next t ∧ t.now = max s.now (a + secT) ∧ (link t l).retryAt = none ∧
        (link t l).margin = some m ∧ m.startAt = t.now ∧ m.round = 1) ∧
    (∀ q counts a n, q < 4160 → (lane s q).state = 3 → (lane s q).quickAt = some a → (lane s q).quickSpare = false →
      (lane s q).quickOwn = none →
      n = errorsOf (tget 0 (addCounts (lane s q).quickErr counts) (chanCode (laneKey s .rx q))) →
      ∃ t, exec (.quickCheckWindowClose q counts) s = .next t ∧ t.now = max s.now (a + msT) ∧
        ((lane s q).quickPartner = none → (lane t q).state = 3 ∧ (lane t q).quickOwn = some (decide (n ≤ 25500))) ∧
        (∀ p, (lane s q).quickPartner = some p → p = false ∨ 25500 < n →
          (lane t q).state = 3 ∧ (lane t q).quickSpare = true ∧ (lane t q).quickAt = some t.now) ∧
        ((lane s q).quickPartner = some true → n ≤ 25500 → linkMayRise s (linkOf q) = true →
          linkUpState (link s (linkOf q)).state = true → (lane t q).state = 4)) ∧
    (∀ q b, (lane s q).state ≠ 3 → exec (.marginReportReceive q b) s = .next (bump s (cLane q 5))) ∧
    (∀ q b, q < 4160 → (lane s q).state = 3 → bf b 94 94 = 1 → bf b 98 97 = chanCode (laneKey s .tx q) →
      ∃ t, exec (.marginReportReceive q b) s = .next t ∧
        ((lane s q).quickOwn = none → (lane t q).state = 3 ∧ (lane t q).quickPartner = some (bf b 93 93 == 1)) ∧
        (∀ p, (lane s q).quickOwn = some p → p = false ∨ bf b 93 93 ≠ 1 →
          (lane t q).state = 3 ∧ (lane t q).quickSpare = true ∧ (lane t q).quickAt = some s.now) ∧
        ((lane s q).quickOwn = some true → bf b 93 93 = 1 → (lane s q).quickAt.isSome = true →
          linkMayRise s (linkOf q) = true → linkUpState (link s (linkOf q)).state = true → (lane t q).state = 4)) ∧
    (∀ q b, (lane s q).state = 3 → bf b 94 94 = 1 → bf b 98 97 ≠ chanCode (laneKey s .tx q) →
      ∃ t, exec (.marginReportReceive q b) s = .next t ∧ OnlyChanges [.opt] s t) ∧
    (∀ q b m, (lane s q).state = 3 → bf b 94 94 ≠ 1 → linkOf q = l → (link s l).margin = some m → m.phase ≠ 3 →
      bf b 96 95 = m.round →
      ∃ t, exec (.marginReportReceive q b) s = .next t ∧ OnlyChanges [.lnk] s t ∧
        (link t l).margin = some { m with
          partner := tset 0 m.partner (marginKey (bf b 103 99) (bf b 98 97))
            (bf b 92 69 + at_ 24 (bf b 93 93) + at_ 25 1) })

/-- A good block off the line: both code words decode and the header check matches (R78). -/
def goodBlock (levels : List Nat) : Option (BitVec 40 × List (List Byte)) :=
  (readBlock levels).block.filter fun x => hcrcGood x.1

/-- The last thing sent is a block on a lane, at its PAM4 levels (R74, R76). -/
def BlockOut (s t : State) (q : Nat) (hdr : BitVec 40) (cells : List (List Byte)) : Prop :=
  t.out.getLast? = some (.block q (duplicating s q) hdr cells (blockLevels hdr cells))

/-- R74 to R80, R84, R86, R87, R89, R90: a lane that may send sends one block: test pattern in MARGIN, a held block of
a replay, up to five cells of its frames, or ordered sets alone. A block is good when both code words decode and its
header check matches; eight good ones in a row lock the lane, four that are not good lose the lock. A block that
arrives is taken in sequence, its data cells are counted on a lane that is not UP, and it is asked for again when it
is not good. Model's choices it rests on: log entries 3, 10, 16, 50 and 68. Completes: blockReceive, blockTransmit. -/
def Obligations.BlocksSentAndTaken : Prop :=
  ∀ (s : State) (q : Nat), q < 4160 →
    (engineLit s (engineOfLane q) = false ∨ (lane s q).state = 7 ∨
        ((lane s q).state = 5 ∧ sprueHas s .tx (workKey s q) = true) → exec (.blockTransmit q) s = .next s) ∧
    (engineLit s (engineOfLane q) = true → (lane s q).state ≠ 4 → (lane s q).state ≠ 5 → (lane s q).state ≠ 7 →
      ∃ t, exec (.blockTransmit q) s = .next t ∧ OnlyChanges [.lnk, .out, .tim] s t ∧
        lane t q = { lane s q with osOut := (lane s q).osOut.drop 16, prbs := (lane t q).prbs } ∧
        ((lane s q).state = 3 → (lane t q).prbs = (prbsCells 4 (lane s q).prbs).1 ∧
          BlockOut s t q (blockHdr 0 (lane s q).expect 16 false true)
            (controlCell (stampSets s q).2 :: (prbsCells 4 (lane s q).prbs).2)) ∧
        ((lane s q).state ≠ 3 → (lane t q).prbs = (lane s q).prbs ∧
          BlockOut s t q (blockHdr 0 (lane s q).expect 31 false true)
            (controlCell (stampSets s q).2 :: List.replicate 4 (List.replicate 256 0)))) ∧
    (engineLit s (engineOfLane q) = true → (lane s q).state = 4 →
      (∀ n k, (lane s q).replay = some n → (lane s q).held.find? (fun x => x.seq == n) = some k →
        ∃ t cells, exec (.blockTransmit q) s = .next t ∧
          BlockOut s t q (blockHdr k.seq (lane s q).expect (cellMap k.ctl) true false) cells ∧
          (∀ i, i < 5 → nth false k.ctl i = false → nth [] cells i = nth [] k.cells i) ∧
          (lane t q).held = (lane s q).held ∧ (lane t q).nextSeq = (lane s q).nextSeq) ∧
      ((lane s q).replay = none → (lane s q).held.length < 32 → (lane s q).buf ≠ [] →
        ∃ t k, exec (.blockTransmit q) s = .next t ∧
          (lane t q).nextSeq = ((lane s q).nextSeq + 1) % 4096 ∧
          (lane t q).buf = (lane s q).buf.drop (if (lane s q).osOut = [] then 5 else 4) ∧
          (lane t q).held = (lane s q).held ++ [k] ∧ k.seq = (lane s q).nextSeq ∧
          BlockOut s t q (blockHdr k.seq (lane s q).expect (cellMap k.ctl) false false) k.cells ∧
          cntGet t (cLink (linkOf q) 3) = (cntGet s (cLink (linkOf q) 3) +
            ((lane s q).buf.take (if (lane s q).osOut = [] then 5 else 4)).length) % 2 ^ 64)) ∧
    (∀ ch a b c d v, v = a ++ b ++ c ++ d →
      (engineLit s (engineOfLane q) = false → exec (.blockReceive q ch a b c d) s = .next s) ∧
      ((goodBlock v).isSome = true ↔ (rsDecode rsLane (lineSyms 544 v)).isSome = true ∧
        (rsDecode rsLane (lineSyms 544 (v.drop 2720))).isSome = true ∧
        ∀ x, (readBlock v).block = some x → hcrc8 x.1.toNat = x.1.toNat % 256) ∧
      (engineLit s (engineOfLane q) = true → ch = chanCode (laneKey s .rx q) →
        (goodBlock v = none → (lane s q).state = 4 → (lane s q).awaiting = false →
          ∃ t, exec (.blockReceive q ch a b c d) s = .next t ∧ (lane t q).awaiting = true ∧
            (lane t q).expect = (lane s q).expect ∧
            t.out = s.out ++ [.os q osRETRY (mkBody [at_ 92 (lane s q).expect, at_ 88 1])] ∧
            cntGet t (cLane q 2) = (cntGet s (cLane q 2) + (readBlock v).undecoded) % 2 ^ 64) ∧
        (goodBlock v = none →
          ∃ t, exec (.blockReceive q ch a b c d) s = .next t ∧ (lane t q).good = 0 ∧
            (lane t q).blockLock = ((lane s q).blockLock && decide ((lane s q).bad < 3)) ∧
            (lane t q).bad = min 4 ((lane s q).bad + 1)) ∧
        (∀ hdr cells, goodBlock v = some (hdr, cells) → (∀ i, i < 5 → hCtl hdr i = false) →
          (hNoseq hdr = true →
            ∃ t, exec (.blockReceive q ch a b c d) s = .next t ∧ (lane t q).bad = 0 ∧
              (lane t q).blockLock = ((lane s q).blockLock || decide (7 ≤ (lane s q).good)) ∧
              (lane t q).good = min 8 ((lane s q).good + 1) ∧
              ((lane s q).state = 1 → 7 ≤ (lane s q).good → channelsLocked s q = true → (lane t q).state = 2)) ∧
          ((lane s q).state ≠ 4 →
            ∃ t, exec (.blockReceive q ch a b c d) s = .next t ∧
              cntGet t (cLane q 6) = (cntGet s (cLane q 6) + 5) % 2 ^ 64) ∧
          ((lane s q).state = 4 → hNoseq hdr = false → hSeq hdr ≠ (lane s q).expect → swapOf s .rx q = none →
            ∃ t, exec (.blockReceive q ch a b c d) s = .next t ∧ OnlyChanges [.lnk, .cnt] s t ∧
              (lane t q).expect = (lane s q).expect) ∧
          ((lane s q).state = 4 → hNoseq hdr = false → hSeq hdr = (lane s q).expect →
            headersOk (link s (linkOf q)).bl2 (lane s q).rxRemain (dataCells hdr cells) = true →
            ∃ t, exec (.blockReceive q ch a b c d) s = .next t ∧
              (lane t q).expect = ((lane s q).expect + 1) % 4096 ∧ (lane t q).awaiting = false ∧
              (lane t q).attempt = 0))))

/-- R87, R93, R102, R105, R368: a frame on a lane that is not UP only counts its cells; one whose header check fails
is fetched again; one with credits is counted, and on a fenced link dropped; an undefined type or version is refused.
Model's choices it rests on: log entries 3 and 13. Completes: frameReceive. -/
def Obligations.FramesArrive : Prop :=
  ∀ (s : State) (q l : Nat) (hdr : List Word) (payload : List Byte) (f : Frame), q < 4160 → l = linkOf q →
    f = readFrame (link s l).bl2 hdr payload →
    ((lane s q).state ≠ 4 →
      exec (.frameReceive q hdr payload) s = .next (bumpN s (cLane q 6) (cellsOf (link s l).bl2 f.length))) ∧
    ((lane s q).state = 4 → hcrcOk (link s l).bl2 hdr = false →
      ∃ t, exec (.frameReceive q hdr payload) s = .next t ∧
        cntGet t (cLink l 8) = (cntGet s (cLink l 8) + 1) % 2 ^ 64 ∧
        ((lane s q).hcrcBad = false → (lane t q).hcrcBad = true ∧ (lane t q).awaiting = true ∧
          t.out = s.out ++ [.os q osRETRY (mkBody [at_ 92 (lane s q).expect, at_ 88 1])]) ∧
        ((lane s q).hcrcBad = true → LaneDied s t q 1)) ∧
    (∀ k, (lane s q).state = 4 → hcrcOk (link s l).bl2 hdr = true →
      takeCells s q f (cellsOf (link s l).bl2 f.length) = some k →
      ∃ t, exec (.frameReceive q hdr payload) s = .next t ∧ (lane t q).hcrcBad = false ∧
        cntGet t (cLink l 0) = (cntGet s (cLink l 0) + 1) % 2 ^ 64 ∧
        cntGet t (cLink l 2) = (cntGet s (cLink l 2) + cellsOf (link s l).bl2 f.length) % 2 ^ 64 ∧
        tget 0 (link t l).received f.tc =
          (tget 0 (link s l).received f.tc + cellsOf (link s l).bl2 f.length) % 2 ^ 24 ∧
        (fenced s l = true → cntGet t (cLink l 16) = (cntGet s (cLink l 16) + 1) % 2 ^ 64 ∧ t.sw.queue = s.sw.queue) ∧
        (fenced s l = false → ¬ (f.tc = 0 ∧ f.type = tLINKCTL ∧ f.ver = 3) → f.ver ≠ 3 ∨ typeOk f.type f.tc = false →
          cntGet t (cLink l 9) = (cntGet s (cLink l 9) + 1) % 2 ^ 64)) ∧
    ((lane s q).state = 4 → hcrcOk (link s l).bl2 hdr = true →
      takeCells s q f (cellsOf (link s l).bl2 f.length) = none →
      ∃ t, exec (.frameReceive q hdr payload) s = .next t ∧
        cntGet t 0x206 = (cntGet s 0x206 + 1) % 2 ^ 64 ∧ t.sw.queue = s.sw.queue ∧
        tget 0 (link t l).received f.tc = tget 0 (link s l).received f.tc)

/-! ### Optics: chapter 02 -/

/-- An engine has gone dark (R44, R45, R71): its lanes are DOWN but for those retired or disabled, its circuits are
ended, and no channel of it is left in the hands of a calibration, a swap or a circuit. -/
def EngineDark (s t : State) (n : Nat) : Prop :=
  (∀ q, q ∈ engineLanes n → (lane t q).state =
    if (lane s q).state = 7 ∨ (lane s q).state = 8 then (lane s q).state else 0) ∧
    (∀ i, i < 16 → (sprue t n i).state < 2) ∧ (engine t n).calRunning = false ∧
    (engine t n).calChannel = 255 ∧
    ∀ d k, k / 256 = n → (storedChan t d k).state ∈ [0, 2, 5, 8, 9]

/-- The DOWN lanes of an engine that have light lock (R84). -/
def EngineLocks (s t : State) (n : Nat) : Prop :=
  ∀ q, q ∈ engineLanes n → (lane t q).state =
    if (lane s q).state = 0 ∧ (lane s q).los = false then 1 else (lane s q).state

/-- R43 to R51, R73, R84: LASER_EN starts and ends an engine; its bring-up ends READY, or in FAULT after a second and
is tried again after 60 s; a sample of its four sensors gives its channels their readings, and takes it to FAULT when
every sensor is bad; a laser or drop that has lost its lock kills the lane it carries and keeps its trim until it has
locked again. Model's choices it rests on: log entries 10, 14, 39, 43, 51, 57 and 58. Completes: ditherLockLoss,
laserEnClear, laserEnSet, lockReacquired, oeBringupDone, oeBringupRetry, oeBringupTimeout, optSensorSample. -/
def Obligations.EnginesLightAndFault : Prop :=
  ∀ (s : State) (n : Nat), n < 34 →
    (∀ f v, mayWriteIn s f 18 = false →
      exec (.laserEnSet f n v) s = .next s ∧ exec (.laserEnClear f n v) s = .next s) ∧
    (∀ f v, mayWriteIn s f 18 = true →
      (∃ t, exec (.laserEnSet f n v) s = .next t ∧ bit (getR t (oENGINE n)) 0 = true ∧
        (bit (getR s (oENGINE n)) 0 = true ∨ interlock s = true → engine t n = engine s n ∧ t.lnk = s.lnk) ∧
        (bit (getR s (oENGINE n)) 0 = false → interlock s = false →
          engine t n = { engine s n with state := 1, enAt := some s.now, faultAt := none } ∧ EngineLocks s t n)) ∧
      (∃ t, exec (.laserEnClear f n v) s = .next t ∧ bit (getR t (oENGINE n)) 0 = false ∧
        (bit (getR s (oENGINE n)) 0 = true → (engine t n).state = 0 ∧ EngineDark s t n ∧
          ∀ l, l ∈ engineLinks n → (link t l).state = 4 ∨ (link t l).cause = 7))) ∧
    ((engine s n).state = 1 →
      (∃ t, exec (.oeBringupDone n) s = .next t ∧ engine t n = { engine s n with state := 2 } ∧ EngineLocks s t n) ∧
      (∀ cause a, (engine s n).enAt = some a →
        ∃ t, exec (.oeBringupTimeout n cause) s = .next t ∧ t.now = max s.now (a + secT) ∧ (engine t n).state = 3 ∧
          (engine t n).faultAt = some t.now ∧ EngineDark s t n ∧
          cntGet t 0x10E = (cntGet s 0x10E + 1) % 2 ^ 64)) ∧
    (∀ a, (engine s n).state = 3 → bit (getR s (oENGINE n)) 0 = true → (engine s n).faultAt = some a →
      ∃ t, exec (.oeBringupRetry n) s = .next t ∧ t.now = max s.now (a + 60 * secT) ∧ (engine t n).state = 1 ∧
        (engine t n).enAt = some t.now ∧ EngineLocks s t n) ∧
    (∀ readings r, r = readings.take 4 → (engine s n).faulty.length = 4 →
      ∃ t, exec (.optSensorSample n readings) s = .next t ∧
        (∀ i, i < r.length → nth false (engine t n).faulty i = sensorBad r i ∧
          nth 0 (engine t n).applied i = followed r ((List.range r.length).map (sensorBad r)) i) ∧
        (r ≠ [] → (∀ i, i < r.length → sensorBad r i = true) → (engine s n).state = 1 ∨ (engine s n).state = 2 →
          (engine t n).state = 3 ∧ EngineDark s t n) ∧
        ((∃ i, i < r.length ∧ sensorBad r i = false) → (engine t n).state = (engine s n).state ∧
          t.lnk = s.lnk)) ∧
    (∀ x d, (chan s d (256 * n + x)).lostLock = false → (chan s d (256 * n + x)).state ∉ [0, 8, 9] →
      ∃ t, exec (.ditherLockLoss n x d) s = .next t ∧ (chan t d (256 * n + x)).lostLock = true ∧
        (chan t d (256 * n + x)).trim = trimOf s d (256 * n + x) ∧
        (carries (chan s d (256 * n + x)) = false → OnlyChanges [.opt] s t) ∧
        (carries (chan s d (256 * n + x)) = true → (lane s (chan s d (256 * n + x)).lane).state = 4 →
          (lane t (chan s d (256 * n + x)).lane).state = 1 ∨ (lane t (chan s d (256 * n + x)).lane).state = 7)) ∧
    (∀ x d, (chan s d (256 * n + x)).lostLock = true →
      ∃ t, exec (.lockReacquired n x d) s = .next t ∧ OnlyChanges [.opt] s t ∧
        (chan t d (256 * n + x)).lostLock = false ∧ (chan t d (256 * n + x)).trim = 0)

/-- R58, R60, R67, R68: a laser whose fade crosses SWAP begins a swap onto a usable spare; the spare locks and REQUEST
goes out, READY starts the duplicate interval of 3 ms, DONE puts the lane on the spare, and the old laser goes dark
and is retired; a refusal or a missing READY is tried again after 1 s. A lane that a circuit holds is left alone. In
MARGIN a READY changes nothing and a NAK is recorded. Model's choices it rests on: log entries 3, 15, 20, 39 and 52.
Completes: duplicateIntervalEnd, fadedLaserDark, laserFadeSample, spareLocked, swDoneReceive, swNakReceive,
swReadyReceive, swapDoneTimeout, swapReadyTimeout, swapRetry. -/
def Obligations.TransmitSwapsRun : Prop :=
  ∀ (s : State) (q : Nat), q < 4160 →
    (∀ n x fade k, k = 256 * n + x → carries (chan s .tx k) = true → (chan s .tx k).lane = q →
      (lane s q).state ≠ 5 →
      ∃ t, exec (.laserFadeSample n [(x, fade)]) s = .next t ∧ (chan t .tx k).fade = min 255 fade ∧
        (chan t .tx k).noticed = decide (rf s oFADE_CFG 7 0 ≤ fade) ∧
        (rf s oFADE_CFG 15 8 ≤ fade → (chan s .tx k).crossed = false → bit (getR s (oENGINE (k / 256))) 2 = true →
          laneKey s .tx q = k → fibreSwapping s k = false → swapOf s .tx q = none →
          ∀ sp c, usableSpare s .tx q = some sp → standInColour s .tx q = some c →
          swapOf t .tx q = some { phase := 1, old := k, spare := sp, colour := c, reason := 0, startAt := s.now })) ∧
    (∀ b, (lane s q).state ≠ 4 → exec (.swDoneReceive q b) s = .next (bump s (cLane q 5)) ∧
      ((lane s q).state ≠ 3 → exec (.swReadyReceive q b) s = .next (bump s (cLane q 5)) ∧
        exec (.swNakReceive q b) s = .next (bump s (cLane q 5))) ∧
      ((lane s q).state = 3 → exec (.swReadyReceive q b) s = .next s ∧
        ∃ t, exec (.swNakReceive q b) s = .next t ∧ t.opt = s.opt ∧ t.lnk = s.lnk ∧
          cntGet t 0x104 = (cntGet s 0x104 + 1) % 2 ^ 64)) ∧
    (∀ w, swapOf s .tx q = some w →
      (w.phase = 1 → ∃ t, exec (.spareLocked q) s = .next t ∧ t.now = max s.now (w.startAt + msT) ∧
        swapOf t .tx q = some { w with phase := 2, reqAt := t.now } ∧
        t.out = s.out ++ [.os q osSW_REQUEST (mkBody [at_ 99 (linkLane q), at_ 93 w.colour, at_ 91 w.reason])]) ∧
      (∀ b, (lane s q).state = 4 → w.phase = 2 → bf b 98 93 = w.colour →
        ∃ t, exec (.swReadyReceive q b) s = .next t ∧ OnlyChanges [.opt] s t ∧
          swapOf t .tx q = some { w with phase := 3, readyAt := s.now } ∧ (chan t .tx w.spare).state = 3) ∧
      (w.phase = 3 → swapOf s .rx q = none →
        ∃ t, exec (.duplicateIntervalEnd q) s = .next t ∧ t.now = max s.now (w.readyAt + 3 * msT) ∧
          swapOf t .tx q = some { w with phase := 4 }) ∧
      (∀ b, (lane s q).state = 4 → w.phase = 4 → w.marks.contains (bf b 98 83) = true →
        ∃ t, exec (.swDoneReceive q b) s = .next t ∧
          swapOf t .tx q = some { w with phase := 5, doneAt := s.now } ∧
          (chan t .tx w.spare).state = (if w.reason = 1 then 6 else 2) ∧
          cntGet t 0x102 = (cntGet s 0x102 + 1) % 2 ^ 64) ∧
      (w.phase = 5 → s.opt.fadeQueue = [] →
        ∃ t, exec (.fadedLaserDark q) s = .next t ∧ t.now = max s.now (w.doneAt + msT / 10) ∧ swapOf t .tx q = none ∧
          (w.reason = 1 → (chan t .tx w.old).state = 4 ∧ (engine t (w.old / 256)).calPhase = 2 ∧
            (engine t (w.old / 256)).calBorrow = some w.spare ∧ t.boot = s.boot) ∧
          (w.reason = 3 → (chan t .tx w.old).state = 5 ∧ (engine t (w.old / 256)).calChannel = 255 ∧ t.boot = s.boot) ∧
          (w.reason ≠ 1 → w.reason ≠ 3 → (chan t .tx w.old).state = 8 ∧
            t.boot = (journalChan (journalChan s 0 w.old 0 0) 1 w.spare w.colour (colourOfLane s q)).boot)) ∧
      (∀ b, (lane s q).state = 4 → w.phase = 2 → s.opt.fadeQueue = [] →
        ∃ t, exec (.swNakReceive q b) s = .next t ∧
          swapOf t .tx q = some { w with phase := 6, startAt := s.now } ∧
          (chan t .tx w.spare).state = (if w.reason = 3 then 4 else 5) ∧
          (w.colour < 32 → bf b 98 96 = 2 → tget false t.opt.farBad q = true) ∧
          cntGet t 0x104 = (cntGet s 0x104 + 1) % 2 ^ 64) ∧
      (w.phase = 2 → s.opt.fadeQueue = [] →
        ∃ t, exec (.swapReadyTimeout q) s = .next t ∧ t.now = max s.now (w.reqAt + 5 * msT) ∧
          swapOf t .tx q = some { w with phase := 6, startAt := t.now } ∧
          (chan t .tx w.spare).state = (if w.reason = 3 then 4 else 5) ∧
          cntGet t 0x103 = (cntGet s 0x103 + 1) % 2 ^ 64) ∧
      (w.phase = 3 ∨ w.phase = 4 → w.noDone = false →
        ∃ t, exec (.swapDoneTimeout q) s = .next t ∧ t.now = max s.now (w.readyAt + 10 * msT) ∧
          swapOf t .tx q = some { w with noDone := true } ∧ cntGet t 0x103 = (cntGet s 0x103 + 1) % 2 ^ 64) ∧
      (w.phase = 6 → w.reason = 3 →
        ∃ t x, exec (.swapRetry q) s = .next t ∧ t.now = max s.now (w.startAt + secT) ∧ swapOf t .tx q = some x ∧
          x.phase = (if laneUp s q then 1 else 6) ∧ x.spare = w.spare ∧ x.colour = w.colour ∧ x.reason = 3 ∧
          x.startAt = t.now) ∧
      (∀ sp c, w.phase = 6 → w.reason ≠ 3 → usableSpare s .tx q = some sp → standInColour s .tx q = some c →
        (w.reason = 0 → (lane s q).state ≠ 5 ∧ bit (getR s (oENGINE (laneKey s .tx q / 256))) 2 = true ∧
          fibreSwapping s (laneKey s .tx q) = false) →
        ∃ t x, exec (.swapRetry q) s = .next t ∧ t.now = max s.now (w.startAt + secT) ∧ swapOf t .tx q = some x ∧
          x.phase = 1 ∧ x.spare = sp ∧ x.colour = c ∧ x.reason = w.reason ∧ x.startAt = t.now))

/-- R53, R61, R62, R81, R83, R439: a REQUEST on a lane that is UP, or in MARGIN for a repair, tunes a free spare drop,
or is refused with its cause; the locked drop answers READY; the first MARK that both colours have shown once 3 ms
have passed names the block at which the receiver moves to the new colour, and there it answers DONE. A journal entry
is programmed into both copies, again where it does not read back, unless a copy is full. Model's choices it rests on:
log entries 3, 39 and 46. Completes: duplicateIntervalEnd, journalAppend, spareDropLocked, swMarkReceive,
swRequestReceive. -/
def Obligations.ReceiveSwapsAndJournal : Prop :=
  ∀ (s : State) (q : Nat) (b : BitVec 104), q < 4160 →
    (∀ cause, ((lane s q).state = 5 ∧ cause = 1) ∨
        (((lane s q).state = 4 ∨ ((lane s q).state = 3 ∧ bf b 92 91 = 2)) ∧
          (((swapOf s .rx q).isSome = true ∧ cause = 3) ∨
            (swapOf s .rx q = none ∧ (32 ≤ bf b 98 93 ∨ (chan s .rx (workKey s q)).state ≠ 5) ∧
              (spareKeys (workKey s q)).any (fun k => spareFree (chan s .rx k)) = false ∧ cause = 2))) →
      ∃ t, exec (.swRequestReceive q b) s = .next t ∧ cntGet t 0x104 = (cntGet s 0x104 + 1) % 2 ^ 64 ∧
        Output.os q osSW_NAK (mkBody [at_ 99 (linkLane q), at_ 96 cause]) ∈ t.out ∧ t.opt = s.opt) ∧
    ((lane s q).state ≠ 4 → (lane s q).state ≠ 5 → ¬ ((lane s q).state = 3 ∧ bf b 92 91 = 2) →
      exec (.swRequestReceive q b) s = .next (bump s (cLane q 5))) ∧
    (∀ k, (lane s q).state = 4 ∨ ((lane s q).state = 3 ∧ bf b 92 91 = 2) → swapOf s .rx q = none →
      (bf b 98 93 < 32 ∧ (chan s .rx (workKey s q)).state = 5 ∧ k = workKey s q) ∨
        ((32 ≤ bf b 98 93 ∨ (chan s .rx (workKey s q)).state ≠ 5) ∧
          freeSpare s .rx (workKey s q) = some k) →
      ∃ t, exec (.swRequestReceive q b) s = .next t ∧ OnlyChanges [.opt] s t ∧ (chan t .rx k).state = 1 ∧
        swapOf t .rx q = some
          { phase := 1, old := laneKey s .rx q, spare := k, colour := bf b 98 93, reason := bf b 92 91,
            startAt := s.now }) ∧
    (∀ w, swapOf s .rx q = some w →
      (w.phase = 1 → (lane s q).state = 3 → w.spare ≠ w.old →
        ∃ t, exec (.spareDropLocked q) s = .next t ∧ swapOf t .rx q = none ∧ (chan t .rx w.spare).state = 2 ∧
          (chan t .rx w.old).state = 5 ∧
          Output.os q osSW_READY (mkBody [at_ 99 (linkLane q), at_ 93 w.colour]) ∈ t.out) ∧
      (w.phase = 1 → (lane s q).state ≠ 3 → ∃ t, exec (.spareDropLocked q) s = .next t ∧
        swapOf t .rx q = some { w with phase := 3, readyAt := s.now } ∧ (chan t .rx w.spare).state = 3 ∧
        t.out = s.out ++ [.os q osSW_READY (mkBody [at_ 99 (linkLane q), at_ 93 w.colour])]) ∧
      (w.phase = 3 → swapOf s .tx q = none →
        ∃ t, exec (.duplicateIntervalEnd q) s = .next t ∧ t.now = max s.now (w.readyAt + 3 * msT) ∧
          swapOf t .rx q = some { w with phase := 4 }) ∧
      (w.phase = 3 ∨ w.phase = 4 → (lane s q).state = 4 → ∀ new,
        (w.switchAt.isSome = true → exec (.swMarkReceive q new b) s = .next s) ∧
        (w.switchAt = none → ∀ w' both far,
          w' = (if new then { w with marks := addNew w.marks (bf b 103 88) }
            else { w with oldMarks := addNew w.oldMarks (bf b 103 88) }) →
          both = (due s w.readyAt (3 * msT) &&
            (if new then w.oldMarks.contains (bf b 103 88) else w.marks.contains (bf b 103 88))) →
          far = decide (2048 ≤ ((lane s q).expect + 4096 - bf b 87 76) % 4096) →
          (both = false → ∃ t, exec (.swMarkReceive q new b) s = .next t ∧ OnlyChanges [.opt] s t ∧
            swapOf t .rx q = some w') ∧
          (both = true → far = true → ∃ t, exec (.swMarkReceive q new b) s = .next t ∧ OnlyChanges [.opt] s t ∧
            swapOf t .rx q = some { w' with switchAt := some (bf b 87 76, bf b 103 88) }) ∧
          (both = true → far = false → w.spare ≠ w.old →
            ∃ t, exec (.swMarkReceive q new b) s = .next t ∧ swapOf t .rx q = none ∧ (chan t .rx w.spare).state = 2 ∧
              (chan t .rx w.old).state = 5 ∧ cntGet t 0x102 = (cntGet s 0x102 + 1) % 2 ^ 64 ∧
              Output.os q osSW_DONE (mkBody [at_ 99 (linkLane q), at_ 83 (bf b 103 88)]) ∈ t.out)))) ∧
    (∀ new, (lane s q).state ≠ 4 → exec (.swMarkReceive q new b) s = .next (bump s (cLane q 5))) ∧
    (∀ okB okA e rest, s.boot.journalHeld = e :: rest →
      let full := 4096 < s.boot.journalB.length + (if okB then 1 else 2) ∨
        4096 < s.boot.journalA.length + (if okA then 1 else 2)
      ∃ t, exec (.journalAppend okB okA) s = .next t ∧ OnlyChanges [.boot] s t ∧
        (full → t.boot = { s.boot with journalFull := true }) ∧
        (¬ full → t.boot.journalHeld = rest ∧ t.boot.journalEntries = s.boot.journalEntries + 1 ∧
          (t.boot.journalB.filter (·.live)).map (·.entry) = (s.boot.journalB.filter (·.live)).map (·.entry) ++ [e] ∧
          (t.boot.journalA.filter (·.live)).map (·.entry) = (s.boot.journalA.filter (·.live)).map (·.entry) ++ [e] ∧
          t.boot.journalErr = (s.boot.journalErr || !okB || !okA)))

/-- R63 to R66: a pass starts every INTERVAL and visits the channels in index order; one that may not be visited is
passed over, a laser that carries an UP lane is swapped out first, or passed over where its fibre has no spare for it,
any other is swept where it is; the sweep rewrites chill rows, whose reserved bits read 0, and the lane swaps back.
Model's choices it rests on: log entry 39. Completes: calPassStart, calSlotStart, calSweepDone. -/
def Obligations.CalibrationRuns : Prop :=
  ∀ (s : State) (n : Nat),
    ((engine s n).state = 2 → bit (getR s (oENGINE n)) 1 = true → (engine s n).calRunning = false →
      ∃ t, exec (.calPassStart n) s = .next t ∧ OnlyChanges [.opt, .clock] s t ∧
        (∀ a, (engine s n).calPassAt = some a → t.now = max s.now (a + rf s oCAL_CFG 31 0 * secT)) ∧
        engine t n = { engine s n with calPassAt := some t.now, calRunning := true, calNext := 0 } ∧
        ∀ f, f < 4 → tget false t.opt.calSuspended (8 * n + f) = false) ∧
    (∀ d k, (engine s n).state = 2 → (engine s n).calRunning = true → (engine s n).calChannel = 255 →
      bit (getR s (oENGINE n)) 1 = true → d = (if (engine s n).calNext < engineChans n then .tx else .rx) →
      k = 256 * n + (engine s n).calNext % engineChans n →
      ((chan s d k).state = 7 ∨ (chan s d k).state = 8 ∨ (chan s d k).state = 9 ∨ (chan s d k).lostLock = true →
        ∃ t, exec (.calSlotStart n) s = .next t ∧ OnlyChanges [.opt] s t ∧
          (engine t n).calNext = (engine s n).calNext + 1 ∧ (engine t n).calChannel = 255) ∧
      (¬ ((chan s d k).state = 7 ∨ (chan s d k).state = 8 ∨ (chan s d k).state = 9 ∨ (chan s d k).lostLock = true) →
        (¬ (d = .tx ∧ carries (chan s d k) = true ∧ laneUp s (chan s d k).lane = true) →
          ∃ t, exec (.calSlotStart n) s = .next t ∧ OnlyChanges [.opt] s t ∧ (engine t n).calPhase = 2 ∧
            (engine t n).calChannel = (engine s n).calNext % engineChans n ∧ (engine t n).calDir = d) ∧
        (d = .tx → carries (chan s d k) = true → laneUp s (chan s d k).lane = true →
          swapOf s .tx (chan s d k).lane = none → fibreSwapping s k = false →
          usableSpare s .tx (chan s d k).lane = none →
          ∃ t, exec (.calSlotStart n) s = .next t ∧ (engine t n).calNext = (engine s n).calNext + 1 ∧
            (engine t n).calChannel = 255 ∧ cntGet t 0x10A = (cntGet s 0x10A + 1) % 2 ^ 64) ∧
        (∀ sp c, d = .tx → carries (chan s d k) = true → laneUp s (chan s d k).lane = true →
          swapOf s .tx (chan s d k).lane = none → fibreSwapping s k = false →
          usableSpare s .tx (chan s d k).lane = some sp → standInColour s .tx (chan s d k).lane = some c →
          ∃ t w, exec (.calSlotStart n) s = .next t ∧ OnlyChanges [.opt] s t ∧ (engine t n).calPhase = 1 ∧
            swapOf t .tx (chan s d k).lane = some w ∧ w.phase = 1 ∧ w.spare = sp ∧ w.colour = c ∧ w.reason = 1))) ∧
    (∀ key v, (engine s n).calChannel ≠ 255 → (engine s n).calPhase = 2 → key % 64 < 51 →
      key / 64 / 64 = chillKey s (engine s n).calDir (256 * n + (engine s n).calChannel) 0 / 64 / 64 →
      ∃ t, exec (.calSweepDone n [(key, v)]) s = .next t ∧ OnlyChanges [.opt] s t ∧
        chillAt t n key = v &&& chillMask key ∧
        ((engine s n).calBorrow = none → (engine t n).calChannel = 255 ∧
          (engine t n).calNext = (engine s n).calNext + 1) ∧
        (∀ br, (engine s n).calBorrow = some br → (engine t n).calPhase = 3 ∧
          ∃ w, swapOf t .tx (engine s n).calLane = some w ∧
            w.phase = (if laneUp s (engine s n).calLane then 1 else 6) ∧ w.reason = 3 ∧
            w.colour = (chan s .tx (256 * n + (engine s n).calChannel)).colour ∧
            w.spare = 256 * n + (engine s n).calChannel))

/-- R69 to R71, R241, R248: at its set time a claimed circuit takes its two lanes, or fails; 40 µs later light passes
through; it is released at its time unless it persists, and 1 ms later the lanes are back: UP where they were UP and
have light and lock, DISABLED with their link, else locking anew or DOWN for want of light. Model's choices it rests
on: log entries 10, 39 and 59. Completes: sprueRelease, sprueReleaseDone, sprueSet, sprueThrough. -/
def Obligations.SpruesSetAndReleased : Prop :=
  ∀ s : State,
    (∀ ctx claim c n i e, (planOf s ctx).claims[claim]? = some c → claimKind c = 5 → sprueClaim c ctx = (n, i, e) →
      sprue s n i = e ∨ (sprue s n i).state = 0 → (planOf s ctx).sprueActed.contains claim = false →
      s.tim.inForce = true →
      (planOf s ctx).running = true ∨
        (bit c.1 36 = true ∧ ((planOf s ctx).state = 3 ∨ (planOf s ctx).state = 4)) →
      let due := (if bit c.1 36 then (planOf s ctx).base else (planOf s ctx).runBase) + fld c.2 63 32
      ∃ t, exec (.sprueSet ctx claim) s = .next t ∧ t.now = (awaitNt s due).now ∧
        (planOf t ctx).sprueActed = (planOf s ctx).sprueActed ++ [claim] ∧
        (sprueValid s n i e = true → (sprue t n i).state = 2 ∧ (sprue t n i).setAt = t.now ∧
          (lane t (sprueLanes s n e).1).state = 5 ∧ (lane t (sprueLanes s n e).2).state = 5) ∧
        (sprueValid s n i e = false → (planOf t ctx).sprueFailed = true ∧ sprue t n i = sprue s n i ∧
          cntGet t 0x506 = (cntGet s 0x506 + 1) % 2 ^ 64)) ∧
    (∀ n i, (sprue s n i).state = 2 →
      ∃ t, exec (.sprueThrough n i) s = .next t ∧ OnlyChanges [.opt, .clock] s t ∧
        t.now = max s.now ((sprue s n i).setAt + 40 * usT) ∧ sprue t n i = { sprue s n i with state := 3 } ∧
        (chan t .rx (256 * n + 34 * (sprue s n i).rxFibre + (sprue s n i).colour)).state = 7 ∧
        (chan t .tx (256 * n + 34 * (sprue s n i).txFibre + (sprue s n i).colour)).state = 7) ∧
    (∀ n i, (sprue s n i).state = 2 ∨ (sprue s n i).state = 3 →
      (sprueHolder s n i = none ∨ (planOf s (sprue s n i).ctx).state < 2 ∨ 5 < (planOf s (sprue s n i).ctx).state →
        ∃ t, exec (.sprueRelease n i) s = .next t ∧ OnlyChanges [.opt] s t ∧
          sprue t n i = { sprue s n i with state := 4, releaseAt := some s.now }) ∧
      (∀ c, sprueHolder s n i = some c → 2 ≤ (planOf s (sprue s n i).ctx).state →
        (planOf s (sprue s n i).ctx).state ≤ 5 →
        (bit c.1 36 = true → exec (.sprueRelease n i) s = .next s) ∧
        (bit c.1 36 = false →
          ∃ t, exec (.sprueRelease n i) s = .next t ∧ OnlyChanges [.opt, .clock] s t ∧
            t.now = (awaitNt s ((planOf s (sprue s n i).ctx).runBase + fld c.2 31 0)).now ∧
            sprue t n i = { sprue s n i with state := 4, releaseAt := some t.now }))) ∧
    (∀ n i a, (sprue s n i).state = 4 → (sprue s n i).releaseAt = some a →
      ∃ t, exec (.sprueReleaseDone n i) s = .next t ∧ t.now = max s.now (a + msT) ∧
        sprue t n i = claimedSprue s n i ∧
        ∀ q, q = (sprueLanes s n (sprue s n i)).1 ∨ q = (sprueLanes s n (sprue s n i)).2 →
          (lane s q).state = 5 →
          (linkEnabled s (linkOf q) = false → (lane t q).state = 8) ∧
          (linkEnabled s (linkOf q) = true → (lane s q).los = true → (lane t q).state = 0) ∧
          (linkEnabled s (linkOf q) = true → (lane s q).los = false →
            ((lane t q).state = 1 ∨ ((lane t q).state = 4 ∧ (lane s q).sprueFrom = 4))))

/-! ### The switch core: chapter 04 -/

/-- R119, R120, R123 to R126: a frame held in the landing reserve is admitted once there is room, its credits freed
with it, and DEEP_FULL ends once the die holds no frame of TC4 to TC7 there; the oldest frame of the deep riser is
read back into the pool within the bandwidth share, or is lost and counted where it is poisoned. Model's choices it
rests on: log entries 10 and 53. Completes: frameAdmitRetry, spillPrefetch. -/
def Obligations.HeldFramesAdmitted : Prop :=
  ∀ (s : State) (d : Nat),
    (∃ t, exec (.frameAdmitRetry d) s = .next t ∧ (deepHeld t d = false → tget false t.sw.deepFull d = false)) ∧
    (∀ q pre rest, s.sw.queue = pre ++ q :: rest → s.sw.mcq = [] → q.die = d → q.place = .landing → q.sentCells = 0 →
      (∀ x, x ∈ pre ++ rest → x.id ≠ q.id ∧ ¬ (x.die = d ∧ x.place = .landing)) →
      (admission s q = .to .pool →
        ∃ t, exec (.frameAdmitRetry d) s = .next t ∧ t.sw.queue = pre ++ { q with place := .pool } :: rest ∧
          (q.inLink ≠ 0xFFF → tget 0 (link t q.inLink).credit q.f.tc =
            (tget 0 (link s q.inLink).credit q.f.tc + inCells q) % 2 ^ 24)) ∧
      (admission s q = .to .deep →
        ∃ t, exec (.frameAdmitRetry d) s = .next t ∧
          t.sw.queue = pre ++ { q with place := .deep, spilled := true, store := true } :: rest ∧
          spilling t (voqOf q) = true ∧
          cntGet t (cLink q.outLink 19) = (cntGet s (cLink q.outLink 19) + 1) % 2 ^ 64) ∧
      (admission s q = .hold ∨ admission s q = .drop →
        ∃ t, exec (.frameAdmitRetry d) s = .next t ∧ t.sw.queue = s.sw.queue ∧ t.lnk = s.lnk)) ∧
    (∀ p, s.sw.queue.find? (fun q => q.die == d && q.place == .deep) = none →
      exec (.spillPrefetch d p) s = .next s) ∧
    (∀ q, s.sw.queue.find? (fun q => q.die == d && q.place == .deep) = some q →
      (q.rx ≠ 0 ∨ deepBwLeft s (qCells q) = false → ∀ p, exec (.spillPrefetch d p) s = .next s) ∧
      (q.rx = 0 → deepBwLeft s (qCells q) = true →
      (∃ t, exec (.spillPrefetch d true) s = .next t ∧ t.sw.queue = s.sw.queue.filter (fun x => decide (x.id ≠ q.id)) ∧
        cntGet t (cLink q.outLink 15) = (cntGet s (cLink q.outLink 15) + 1) % 2 ^ 64) ∧
      (poolFree s d < qCells q → exec (.spillPrefetch d false) s = .next s) ∧
      (qCells q ≤ poolFree s d →
        ∃ t, exec (.spillPrefetch d false) s = .next t ∧ OnlyChanges [.sw] s t ∧
          t.sw.queue = s.sw.queue.map fun x => if x.id = q.id then { x with place := .prefetched } else x)))

/-- Nothing in the riser has come to AGE_LIMIT before it began to leave, or slag is off (R141). -/
def NoneAged (s : State) : Prop :=
  bit (getR s oSW_CTRL) 3 = true →
    (∀ q, q ∈ s.sw.queue → q.sentCells = 0 → aged s q = false) ∧ ∀ m, m ∈ s.sw.mcq → aged s m.q = false

/-- R113, R117, R119, R127 to R132, R139, R140: in a cell time the one frame that may be sent moves its next cell into
its lane's buffer, the first taking the frame's credit and the last taking it out of the riser; a throttled die's part
of the gate stands still one cell time in four (R379); a multicast frame with one member link is stored by the runner
and queued there, or waits where the runner has no room. Model's choices it rests on: log entries 10, 22 and 65.
Completes: gateMatch, runnerReplicate. -/
def Obligations.GateAndRunnersMoveCells : Prop :=
  ∀ s : State,
    (∀ q, s.sw.queue = [q] → s.sw.resv = [] → s.sw.resvLate = [] → s.sw.selfIn = [] → NoneAged s →
      s.hlt.throttled = [] ∨ (s.sw.beat + 1) % 4 ≠ 0 → eligibleHead s q = true → isRunner q = false → 1 ≤ q.f.tc → q.f.tc ≤ 7 →
      dieOfGroup q.inGroup = dieOfGroup (outGroup q) ∨ 1 ≤ rf s oGATE_CFG 36 32 →
      wireCount s q ≤ weightOf s q.f.tc →
      ∃ t, exec .gateMatch s = .next t ∧
        (lane t q.outLane).buf = (lane s q.outLane).buf ++
          [{ nth {} (wireCells s q) q.sentCells with owes := owedBy q q.sentCells (wireCount s q) }] ∧
        cntGet t (cDie (dieOfGroup q.inGroup) 5) = (cntGet s (cDie (dieOfGroup q.inGroup) 5) + 1) % 2 ^ 64 ∧
        t.sw.queue = (if q.sentCells + 1 < wireCount s q then [{ q with sentCells := q.sentCells + 1 }] else []) ∧
        (q.sentCells = 0 → tget 0 (link t q.outLink).sent q.f.tc =
          (tget 0 (link s q.outLink).sent q.f.tc + wireCount s q) % 2 ^ 24)) ∧
    (∀ q, s.sw.queue = [q] → s.sw.resv = [] → s.sw.resvLate = [] → s.sw.selfIn = [] → NoneAged s → isRunner q = false →
      (s.sw.beat + 1) % 4 = 0 →
      s.hlt.throttled.contains (dieOfGroup q.inGroup) = true ∨ s.hlt.throttled.contains (dieOfGroup (outGroup q)) = true →
      ∃ t, exec .gateMatch s = .next t ∧ OnlyChanges [.sw] s t ∧ t.sw.queue = [q]) ∧
    (s.sw.queue = [] → s.sw.resv = [] → s.sw.resvLate = [] → s.sw.selfIn = [] → NoneAged s →
      ∃ t, exec .gateMatch s = .next t ∧ OnlyChanges [.sw] s t ∧ t.sw.queue = []) ∧
    (∀ d m l e, s.sw.mcq.filter (fun m => m.q.die == d) = [m] → (∀ x, x ∈ s.sw.mcq → x.q.id = m.q.id → x = m) →
      NoneAged s → m.members = [l] → l < 2048 → e = l / 512 →
      l ≠ m.q.inLink → eligible s l = true → copyFits s m.q l = true →
      ((rf s oRISER_CFG 39 32 * poolCells s e < (runnerUsed s e + qCells m.q) * 256 →
        exec (.runnerReplicate d) s = .next s) ∧
      ((runnerUsed s e + qCells m.q) * 256 ≤ rf s oRISER_CFG 39 32 * poolCells s e →
          (qCells m.q ≤ poolFree s e ∨ (e = d ∧ inPool m.q = true)) →
        ∃ t x, exec (.runnerReplicate d) s = .next t ∧
          t.sw.mcq = s.sw.mcq.filter (fun x => decide (x.q.id ≠ m.q.id)) ∧ t.sw.queue = s.sw.queue ++ [x] ∧
          x.outLink = l ∧ x.die = e ∧ x.place = .runner s.sw.nextId ∧ x.f.dest = m.q.f.dest ∧
          x.f.payload = m.q.f.payload ∧
          t.sw.runner = s.sw.runner ++
            [{ id := s.sw.nextId, die := e, cells := qCells m.q, tc := m.q.f.tc, refs := 1 }])))

/-- R141, R142, R145, R147: a frame that reaches AGE_LIMIT before it has begun to leave goes to slag, unless slag is
off; a link congested for SAT_HOLD is reported once, and armed again after as long below its threshold; a frame on a
lane that is down takes another lane of its link, and a multicast copy to a link that is down is lost and counted.
Model's choices it rests on: log entries 10, 21, 39 and 61. Completes: queuedFrameMove, satHoldExpiry, satRearmExpiry,
slagSweep. -/
def Obligations.SlagSaturationAndMoves : Prop :=
  ∀ s : State,
    (bit (getR s oSW_CTRL) 3 = false → exec .slagSweep s = .next s) ∧
    (∀ q, bit (getR s oSW_CTRL) 3 = true → s.sw.queue = [q] → s.sw.mcq = [] → q.sentCells = 0 → q.outLink < 2050 →
      q.f.tc < 8 →
      ∃ t, exec .slagSweep s = .next t ∧ t.now = max s.now (q.born + rf s oAGE_CFG 16 0 * usT) ∧ t.sw.queue = [] ∧
        cntGet t (cLink q.outLink (24 + q.f.tc)) = (cntGet s (cLink q.outLink (24 + q.f.tc)) + 1) % 2 ^ 64 ∧
        cntGet t 0x302 = (cntGet s 0x302 + 1) % 2 ^ 64) ∧
    (∀ l a, (link s l).sat = false → (link s l).highSince = some a → 4 * (rf s oCM_CFG 15 0 * 1024) < linkQ s l →
      ∃ t, exec (.satHoldExpiry l) s = .next t ∧ t.now = max s.now (a + rf s oSAT_CFG 13 0 * usT) ∧
        (link t l).sat = true ∧ cntGet t 0x301 = (cntGet s 0x301 + 1) % 2 ^ 64 ∧ t.sw = s.sw) ∧
    (∀ l a, (link s l).sat = true → (link s l).lowSince = some a → linkQ s l < rf s oCM_CFG 15 0 * 1024 →
      ∃ t, exec (.satRearmExpiry l) s = .next t ∧ t.now = max s.now (a + rf s oSAT_CFG 13 0 * usT) ∧
        link t l = { link s l with sat := false } ∧ OnlyChanges [.lnk, .clock] s t) ∧
    (∀ l, (∀ x, x ∈ s.sw.queue → x.outLink = l → x.sentCells = 0 → laneUp s x.outLane = true ∧ fenced s l = false) →
      exec (.queuedFrameMove l) s = .next s) ∧
    (∀ q, s.sw.queue = [q] → q.sentCells = 0 → laneUp s q.outLane = false ∨ fenced s q.outLink = true →
      (eligible s q.outLink = true →
        ∃ t, exec (.queuedFrameMove q.outLink) s = .next t ∧ OnlyChanges [.sw] s t ∧
          t.sw.queue = [{ q with outLane := chooseLane s q.outLink q.hashed q.f.entropy }]) ∧
      (∀ g, eligible s q.outLink = false → q.group = some g → q.outLink < 2050 →
        ∃ t, exec (.queuedFrameMove q.outLink) s = .next t ∧ t.sw.queue = [] ∧
          cntGet t (cLink q.outLink 14) = (cntGet s (cLink q.outLink 14) + 1) % 2 ^ 64))

/-! ### Pour plans: chapters 06 and 07 -/

/-- A scrub ends with its slot free (R214). A plan image with every check passed is admitted with all it claims, and
one that is refused changes nothing (R239, R241, R243, R244); a plan is armed, disarmed and unloaded, with the status
R244 names. Model's choices it rests on: log entries 3, 10, 18 and 39. Completes: planArm, planDisarm, planDisarmDone,
planLoad, planUnload, planUnloadDone, slotScrubDone. -/
def Obligations.PlansLoadedArmedUnloaded : Prop :=
  ∀ (s : State) (i : Nat) (d : List Word),
    (∀ cru slot, (cruSlot s (512 * cru + slot)).use = 3 →
      ∃ t, exec (.slotScrubDone cru slot) s = .next t ∧
        t.now = max s.now ((cruSlot s (512 * cru + slot)).since + 128 * coreT s (cru / 16)) ∧
        cruSlot t (512 * cru + slot) = { cruSlot s (512 * cru + slot) with use := 0, owner := 0, since := 0 } ∧
        (∀ g, g ≠ 512 * cru + slot → cruSlot t g = cruSlot s g) ∧ OnlyChanges [.cru, .clock] s t) ∧
    (∀ cru slot, (cruSlot s (512 * cru + slot)).use ≠ 3 → exec (.slotScrubDone cru slot) s = .next s) ∧
    (DescReady s .pload i d 1 → resOk pMasks d = false →
      ∃ t, exec (.planLoad i) s = .next t ∧ Completed s t .pload i d stBAD_OP 0 0 ∧ t.plan = s.plan) ∧
    (DescReady s .pload i d 1 → resOk pMasks d = true → d1Addr d % 64 ≠ 0 →
      ∃ t, exec (.planLoad i) s = .next t ∧ Completed s t .pload i d stBAD_RANGE 0 0 ∧ t.plan = s.plan) ∧
    (∀ b, DescReady s .pload i d 1 → resOk pMasks d = true → d1Addr d % 64 = 0 → pFirst s i d = none →
      ((planOf s (pdCtx d)).state ≠ 0 →
        ∃ t, exec (.planLoad i) s = .next t ∧ Completed s t .pload i d stPLAN_BUSY 0 0 ∧ t.plan = s.plan) ∧
      ((planOf s (pdCtx d)).state = 0 → HostGave s .pload i (d1Addr d) (fld (nth 0 d 2) 31 0) b →
        (ctxUp (ctxOf s (pdCtx d)) = true → (window s (ctxPart (ctxOf s (pdCtx d)))).isOpen = true →
          ∃ t, exec (.planLoad i) s = .next t ∧ Completed s t .pload i d stPARTITION_RECAST 0 0 ∧ t.plan = s.plan) ∧
        (ctxUp (ctxOf s (pdCtx d)) = false ∨ (window s (ctxPart (ctxOf s (pdCtx d)))).isOpen = false →
          (parseImage b = none →
            ∃ t, exec (.planLoad i) s = .next t ∧
              Completed s t .pload i d stADMIT_REFUSED (admitDetail (1, noClaim, 0, 0)) 0 ∧ t.plan = s.plan) ∧
          (∀ m r, parseImage b = some m → refusal s (pdCtx d) m = some r →
            ∃ t, exec (.planLoad i) s = .next t ∧
              Completed s t .pload i d (if r.1 = 4 then stUNIT_ABSENT else stADMIT_REFUSED) (admitDetail r) 0 ∧
              t.plan = s.plan ∧ t.sw = s.sw ∧ t.cru = s.cru ∧ t.opt = s.opt) ∧
          (∀ m, parseImage b = some m → refusal s (pdCtx d) m = none →
            ∃ t, exec (.planLoad i) s = .next t ∧ Completed s t .pload i d stOK 0 0 ∧
              planOf t (pdCtx d) = { imPlan m i with sprueFailed := (planOf s (pdCtx d)).sprueFailed } ∧
              (∀ g, g ∈ allSlots (imPlan m i) → (cruSlot t g).use = 1 ∧ (cruSlot t g).owner = pdCtx d) ∧
              (∀ g, g ∉ allSlots (imPlan m i) → cruSlot t g = cruSlot s g) ∧
              t.sw.resv = s.sw.resv ++ m.claims.flatMap (gateResv (pdCtx d)))))) ∧
    (DescReady s .pload i d 3 →
      ∃ t, exec (.planArm i) s = .next t ∧
        Completed s t .pload i d ((pFirst s i d).getD (armStatus s (planOf s (pdCtx d)) d)) 0 0 ∧
        ((pFirst s i d).getD (armStatus s (planOf s (pdCtx d)) d) ≠ stOK → t.plan = s.plan) ∧
        ((pFirst s i d).getD (armStatus s (planOf s (pdCtx d)) d) = stOK →
          planOf t (pdCtx d) = { planOf s (pdCtx d) with
            state := 3, base := (nth 0 d 3).toNat, period := fld (nth 0 d 4) 31 0, runs := fld (nth 0 d 5) 63 32,
            runNo := 0, sprueActed := [], disarming := none })) ∧
    (DescReady s .pload i d 4 →
      (∀ st, pFirst s i d = some st →
        ∃ t, exec (.planDisarm i) s = .next t ∧ Completed s t .pload i d st 0 0 ∧ t.plan = s.plan) ∧
      (pFirst s i d = none →
        ((planOf s (pdCtx d)).state = 0 →
          ∃ t, exec (.planDisarm i) s = .next t ∧ Completed s t .pload i d stNO_PLAN 0 0 ∧ t.plan = s.plan) ∧
        ((planOf s (pdCtx d)).state ≠ 0 → (planOf s (pdCtx d)).running = false →
          ∃ t, exec (.planDisarm i) s = .next t ∧ Completed s t .pload i d stOK 0 0 ∧
            planOf t (pdCtx d) = { planOf s (pdCtx d) with
              state := if (planOf s (pdCtx d)).state = 3 then 2 else (planOf s (pdCtx d)).state }) ∧
        ((planOf s (pdCtx d)).state ≠ 0 → (planOf s (pdCtx d)).running = true →
          ∃ t, exec (.planDisarm i) s = .next t ∧ Started s t .pload i d ∧
            planOf t (pdCtx d) =
              { planOf s (pdCtx d) with disarming := some (i, runKey s .pload i d) }))) ∧
    (∀ c j key, (planOf s c).disarming = some (j, key) → (planOf s c).running = false →
      MayComplete s .pload j key → (ring s .pload j).fetched = [] →
      ∃ t, exec (.planDisarmDone c) s = .next t ∧ planOf t c = { planOf s c with disarming := none } ∧
        EntryWritten s t .pload j key stOK 0 0) ∧
    (DescReady s .pload i d 2 →
      (∀ st, pFirst s i d = some st →
        ∃ t, exec (.planUnload i) s = .next t ∧ Completed s t .pload i d st 0 0 ∧ t.plan = s.plan) ∧
      (pFirst s i d = none → (planOf s (pdCtx d)).state = 0 →
        ∃ t, exec (.planUnload i) s = .next t ∧ Completed s t .pload i d stNO_PLAN 0 0 ∧ t.plan = s.plan) ∧
      (pFirst s i d = none → (planOf s (pdCtx d)).state ≠ 0 →
        ∃ t, exec (.planUnload i) s = .next t ∧ Started s t .pload i d ∧ (planOf t (pdCtx d)).state = 6 ∧
          (planOf t (pdCtx d)).running = false ∧
          (planOf t (pdCtx d)).unloading = some (i, runKey s .pload i d) ∧
          ∀ g, g ∈ allSlots (planOf s (pdCtx d)) → (cruSlot t g).use = 3)) ∧
    (∀ c j key, (planOf s c).state = 6 → (planOf s c).unloading = some (j, key) →
      (∀ g, g ∈ allSlots (planOf s c) → (cruSlot s g).use ≠ 3) → MayComplete s .pload j key →
      (ring s .pload j).fetched = [] →
      ∃ t, exec (.planUnloadDone c) s = .next t ∧ planOf t c = { sprueFailed := (planOf s c).sprueFailed } ∧
        t.sw.resv = s.sw.resv.filter (fun v => decide (v.ctx ≠ c)) ∧ EntryWritten s t .pload j key stOK 0 0)

/-- The run of a plan has been abandoned with LATE, and its context's next invocation is due (R237). -/
def RunLate (s t : State) (c : Nat) : Prop :=
  (planOf t c).running = false ∧ (planOf t c).lastRun = 4 ∧ (planOf t c).runNo = (planOf s c).runNo + 1 ∧
    (planOf t c).state = (if (planOf s c).disarming.isSome = true ∨
      ((planOf s c).runs ≠ 0 ∧ (planOf s c).runs ≤ (planOf s c).runNo + 1) then 2 else 3) ∧
    (ctxOf t c).n = ((ctxOf s c).n + 1) % 2 ^ 32

/-- A phase of the run may start whatever is missing: each missing member is excluded from it (R237, R238). -/
def RunExcludes (s t : State) (c k : Nat) : Prop :=
  (k, t.now) ∈ (planOf t c).forced ∧ (planOf t c).running = true ∧ ctxOf t c = ctxOf s c ∧
    ∀ i, i ∈ phInputs (phase (planOf s c) k) →
      winMissing (ctxOf s c) (window4 (planOf s c) i) (win (planOf t c) i) = []

/-- R230, R232, R235 to R237, R245, R256: a run starts at its base, once no dynamic invocation of its context is in
progress, with its windows reset but for the output lines and state buffers that are a window's own; the comparator
holds the low bits of the next pour time and marks it as come, the ready phase with the earliest pour time starts (log
entry 33) with its slip reported, and at the deadline, and at the end of a wait, the late path of the phase acts.
Model's choices it rests on: log entries 3, 10, 39 and 75. Completes: phaseDeadline, phaseStart, pourComparatorLoad,
pourTime, runStart, waitBoundExpiry. -/
def Obligations.RunsAndPhasesStart : Prop :=
  ∀ (s : State) (c n k : Nat),
    ((planOf s c).state = 3 → s.tim.inForce = true → (ctxOf s c).dyn = false →
      ∃ t, exec (.runStart c) s = .next t ∧ t.now = (awaitNt s (baseOf (planOf s c))).now ∧
        OnlyChanges [.plan, .clock] s t ∧ (planOf t c).state = 4 ∧ (planOf t c).running = true ∧
        (planOf t c).runBase = baseOf (planOf s c) ∧ (planOf t c).poured = [] ∧ (planOf t c).started = [] ∧
        (planOf t c).missed = [] ∧ (planOf t c).seqEnded = [] ∧
        ∀ i, (win (planOf t c) i).c = {} ∧ (win (planOf t c) i).contribs = [] ∧
          (i < (planOf s c).windows.length →
            (win (planOf t c) i).st = if wnPreopen (window4 (planOf s c) i) = true then 1 else 0) ∧
          (i < (planOf s c).windows.length → soleWin s c i = true →
            (win (planOf t c) i).outBytes = (win (planOf s c) i).outBytes ∧
            (win (planOf t c) i).state = (win (planOf s c) i).state)) ∧
    ((planOf s c).state ≠ 3 ∨ s.tim.inForce = false ∨ (ctxOf s c).dyn = true → exec (.runStart c) s = .next s) ∧
    (∀ a, nextTarget s n = some (a, c, k) → s.tim.inForce = true →
      ∃ t, exec (.pourComparatorLoad n) s = .next t ∧ t.now = (awaitNt s (a - 1999999999)).now ∧
        seqr t n = { seqr s n with comparator := some (a % 2 ^ 32), target := (c, k) } ∧
        OnlyChanges [.plan, .clock] s t ∧ t.plan.plans = s.plan.plans) ∧
    (∀ v, (seqr s n).comparator = some v → (seqr s n).target = (c, k) → s.tim.inForce = true →
      (planOf s c).running = true →
      ∃ t, exec (.pourTime n) s = .next t ∧
        t.now = (if (v + 2 ^ 32 - nt32 s) % 2 ^ 32 ≤ 2 ^ 31 then
          (awaitNt s (ntNs s + (v + 2 ^ 32 - nt32 s) % 2 ^ 32)).now else s.now) ∧
        planOf t c = { planOf s c with poured := addNew (planOf s c).poured k } ∧
        seqr t n = { seqr s n with comparator := none } ∧ OnlyChanges [.plan, .clock] s t) ∧
    ((seqr s n).comparator = none → exec (.pourTime n) s = .next s) ∧
    ((∀ m, (seqr s m).endAt = none) → (seqr s n).busy = false → n < 64 →
      (readyPhases s n = [] → exec (.phaseStart n) s = .next s) ∧
      (∀ p, (c, k, p) ∈ readyPhases s n → (∀ x, x ∈ readyPhases s n → x ≠ (c, k, p) → p < x.2.2) →
        ∃ t, exec (.phaseStart n) s = .next t ∧ k ∈ (planOf t c).started ∧ (seqr t n).busy = true ∧
          (seqr t n).ctx = c ∧ (seqr t n).phase = k ∧ (seqr t n).startAt = s.now ∧
          (seqr t n).nextAddr = phFirst (phase (planOf s c) k) ∧
          (seqr t n).nextAt = s.now + pwDelta (planWord s n (phFirst (phase (planOf s c) k))) * cycT s n ∧
          cntGet t (cSeq n 2) = (cntGet s (cSeq n 2) + 1) % 2 ^ 64 ∧
          (rf s oPLAN_CFG 63 48 * 1000 < slipNs s (planOf s c) k →
            cntGet t 0x503 = (cntGet s 0x503 + 1) % 2 ^ 64) ∧
          (slipNs s (planOf s c) k ≤ rf s oPLAN_CFG 63 48 * 1000 → t.hif = s.hif ∧ t.out = s.out))) ∧
    (phaseWaits s c k = true → (planOf s c).missed.contains k = false → inputsReady s (planOf s c) k = false →
      ∃ t, exec (.phaseDeadline c k) s = .next t ∧ t.now = (awaitNt s (deadNs (planOf s c) k)).now ∧
        (phLate (phase (planOf s c) k) = 0 → RunLate s t c) ∧
        (phLate (phase (planOf s c) k) = 1 → RunExcludes s t c k) ∧
        (2 ≤ phLate (phase (planOf s c) k) → k ∈ (planOf t c).waiting ∧ (planOf t c).running = true) ∧
        (1 ≤ phLate (phase (planOf s c) k) → k ∈ (planOf t c).missed ∧
          ∀ i, i ∈ phInputs (phase (planOf s c) k) → (win (planOf t c) i).late = true)) ∧
    (phaseWaits s c k = true → (planOf s c).waiting.contains k = true → inputsReady s (planOf s c) k = false →
      ∃ t, exec (.waitBoundExpiry c k) s = .next t ∧ t.now = (awaitNt s (boundNs (planOf s c) k)).now ∧
        (phLate (phase (planOf s c) k) = 2 → RunLate s t c) ∧
        (phLate (phase (planOf s c) k) ≠ 2 → RunExcludes s t c k)) ∧
    (phaseWaits s c k = false →
      exec (.phaseDeadline c k) s = .next s ∧ exec (.waitBoundExpiry c k) s = .next s)

/-- R228, R229, R234, R246, R247: a pour word issues at its cycle, once its data and the riser let it: its units are
occupied, each acts, and the next word is due DELTA cycles later; a word in breach of the contract stops its plan and
is recorded. Data of a load fill the output lines or the state buffer of its window, or poison its chunk. Model's
choices it rests on: log entries 10, 34 and 39. Completes: memDataArrive, wordIssue. -/
def Obligations.WordsIssueAndDataArrive : Prop :=
  ∀ (s : State) (n : Nat) (ecc : Bool) (l : List EccError),
    ((seqr s n).busy = false ∨ (seqr s n).endAt.isSome = true → exec (.wordIssue n ecc l) s = .next s) ∧
    (∀ q w, seqr s n = q → planWord s n q.nextAddr = w → q.busy = true → q.endAt = none → q.blocked = false → n < 64 →
      (∀ m, (seqr s m).endAt = none) →
      (ecc = false → waitsData q w = true →
        ∃ t, exec (.wordIssue n ecc l) s = .next t ∧ t.now = max s.now q.nextAt ∧ OnlyChanges [.clock] s t) ∧
      (ecc = false → waitsData q w = false → sendTaken (await s q.nextAt 0) n q.ctx w = false →
        ∃ t, exec (.wordIssue n ecc l) s = .next t ∧ t.now = max s.now q.nextAt ∧
          seqr t n = { q with blocked := true } ∧ OnlyChanges [.plan, .clock] s t) ∧
      (ecc = true ∨ (waitsData q w = false ∧ sendTaken (await s q.nextAt 0) n q.ctx w = true) →
        (∀ b, wordBreach (await s q.nextAt 0) n q.ctx q.phase q.nextAt w ecc = some b →
          ∃ t, exec (.wordIssue n ecc l) s = .next t ∧ (planOf t q.ctx).state = 5 ∧
            (planOf t q.ctx).running = false ∧ (planOf t q.ctx).lastRun = 5 ∧
            (planOf t q.ctx).win = (planOf s q.ctx).win ∧
            cntGet t 0x504 = (cntGet s 0x504 + 1) % 2 ^ 64 ∧
            (q.ctx < 4096 → q.phase < 4096 → q.nextAddr < 65536 →
              getR t (oPLAN_CU_FAULT n) =
                mkWord [at_ 63 1, at_ 60 b.1, at_ 48 q.ctx, at_ 36 q.phase, at_ 20 q.nextAddr, at_ 16 b.2])) ∧
        (wordBreach (await s q.nextAt 0) n q.ctx q.phase q.nextAt w ecc = none → l = [] → pwEn w 4 = false →
          ∃ t, exec (.wordIssue n ecc l) s = .next t ∧ t.now = max s.now q.nextAt ∧
            cntGet t (cSeq n 1) = (cntGet s (cSeq n 1) + 1) % 2 ^ 64 ∧
            (pwEn w 5 = false →
              (seqr t n).nextAddr = q.nextAddr + 1 ∧ (seqr t n).last = q.nextAddr ∧ (seqr t n).endAt = none ∧
              (seqr t n).nextAt = q.nextAt + pwDelta (planWord s n (q.nextAddr + 1)) * cycT s n) ∧
            (pwEn w 5 = true → (seqr t n).last = q.nextAddr ∧ (seqr t n).nextAddr = q.nextAddr ∧
              ((seqr t n).endAt.isSome = true ∨ (seqr t n).busy = false)) ∧
            (pwEn w 0 = true → (∀ u, 0 < u → u < 6 → pwEn w u = false) →
              (win (planOf t q.ctx) (recvWin w)).st = (if recvOp w = 1 then 1 else 2)) ∧
            (pwEn w 1 = true → accOp w = 1 → (∀ u, u ≠ 1 → u < 6 → pwEn w u = false) →
              win (planOf t q.ctx) (accWin w) =
                accSpanAdd (ctxOf s q.ctx) (window4 (planOf s q.ctx) (accWin w)) (win (planOf s q.ctx) (accWin w))
                  (accMember w) (accSpan w)) ∧
            (pwEn w 2 = true → (∀ u, u ≠ 2 → u < 6 → pwEn w u = false) →
              (win (planOf t q.ctx) (cvtWin w)).outFmt =
                some (if cvtStage w = 0 then aOut (ctxArith (ctxOf s q.ctx)) else cvtFmt w)) ∧
            (pwEn w 3 = true → memOp w = 1 → (∀ u, u ≠ 3 → u < 6 → pwEn w u = false) →
              ∃ m, (seqr t n).memWait = (seqr s n).memWait ++ [m] ∧ m.ctx = q.ctx ∧ m.win = memWin w ∧ m.op = 1 ∧
                m.claim = memClaim w ∧ m.off = memOff w)))) ∧
    ((seqr s n).memWait = [] → exec (.memDataArrive n) s = .next s) ∧
    (∀ m rest, (seqr s n).memWait = m :: rest → m.sample = none → (seqr s n).busy = false →
      ∃ t, exec (.memDataArrive n) s = .next t ∧ seqr t n = { seqr s n with memWait := rest } ∧
        (m.op = 1 → ∀ b o, claimPlace s (planOf s m.ctx) m.claim m.off = some (b, o) →
          (∀ x, (readBytes s b o (outSize (window4 (planOf s m.ctx) m.win) (win (planOf s m.ctx) m.win))).2 = some x →
            win (planOf t m.ctx) m.win = { win (planOf s m.ctx) m.win with
              outBytes := putBytes (win (planOf s m.ctx) m.win).outBytes 0 x }) ∧
          ((readBytes s b o (outSize (window4 (planOf s m.ctx) m.win) (win (planOf s m.ctx) m.win))).2 = none →
            (win (planOf t m.ctx) m.win).c.poison = max (win (planOf s m.ctx) m.win).c.poison csPOISONED)) ∧
        (m.op ≠ 1 → winGeo s m.ctx m.win = none →
          (win (planOf t m.ctx) m.win).c.poison = max (win (planOf s m.ctx) m.win).c.poison csSTATE_RANGE) ∧
        (m.op ≠ 1 → ∀ b offs, winGeo s m.ctx m.win = some (b, offs) →
          (∀ x, (readPlanes s b (wnElems (window4 (planOf s m.ctx) m.win)) offs).2 = some x →
            win (planOf t m.ctx) m.win = { win (planOf s m.ctx) m.win with
              state := planeElems (wnElems (window4 (planOf s m.ctx) m.win)) x }) ∧
          ((readPlanes s b (wnElems (window4 (planOf s m.ctx) m.win)) offs).2 = none →
            (win (planOf t m.ctx) m.win).c.poison = max (win (planOf s m.ctx) m.win).c.poison csPOISONED)))

/-- R249, R345: the held frame with the earliest launch time enters the riser when NT reaches it, and its descriptor
completes with NT, or with UNREACHABLE where no way out is open to it. Model's choices it rests on: log entries 3, 10
and 39. Completes: frameLaunch. -/
def Obligations.HeldFramesLaunched : Prop :=
  ∀ (s : State) (d : Nat),
    (earliest ((launchStore s d).filter (launchDue s)) = none → exec (.frameLaunch d) s = .next s) ∧
    (∀ l s1 s2, earliest ((launchStore s d).filter (launchDue s)) = some l → MayComplete s .cmd l.ring l.tag →
      s1 = awaitNt s l.time → s2 = bump (setLaunch s1 d ((launchStore s d).erase l)) (cDie d 8) → d < 4 →
      ∃ t, exec (.frameLaunch d) s = .next t ∧ t.now = s1.now ∧ launchStore t d = (launchStore s d).erase l ∧
        cntGet t (cDie d 8) = (cntGet s (cDie d 8) + 1) % 2 ^ 64 ∧
        (selfEid s1 = none ∨ destOk s1 l.part l.f = false → EntryWritten s t .cmd l.ring l.tag stUNREACHABLE 0 0) ∧
        (∀ self, selfEid s1 = some self → destOk s1 l.part l.f = true →
          ((originate s2 d { l.f with src := self }).2 = 0 →
            EntryWritten s t .cmd l.ring l.tag (if l.late = true then stLATE_LAUNCH else stOK) (nt32 t) 0) ∧
          ((originate s2 d { l.f with src := self }).2 ≠ 0 →
            EntryWritten s t .cmd l.ring l.tag stUNREACHABLE 0 0)))

/-! ### Collective contexts: chapter 08 -/

/-- R193, R253 to R255, R276, R278, R349: each context command completes with the status that its checks name; a
record that passes them is taken, a context is read, its statistics are read, members are excluded and included, and
it is torn down and scrubbed. Model's choices it rests on: log entries 3, 10 and 18. Completes: ctxExclude,
ctxInclude, ctxRead, ctxScrubDone, ctxSetup, ctxStats, ctxTeardown. -/
def Obligations.ContextCommandsAct : Prop :=
  ∀ (s : State) (i : Nat) (d : List Word),
    (DescReady s .cmd i d 0x20 →
      (∀ st, ctxFirst s i (ctxMasks ones 0 0) (d1Addr d % 8 != 0) d = some st →
        ∃ t, exec (.ctxSetup i) s = .next t ∧ Completed s t .cmd i d st 0 0 ∧ t.coll = s.coll) ∧
      (ctxFirst s i (ctxMasks ones 0 0) (d1Addr d % 8 != 0) d = none →
        (ctxBusy s (dCtx d) = true →
          ∃ t, exec (.ctxSetup i) s = .next t ∧ Completed s t .cmd i d stCONTEXT_BUSY 0 0 ∧ t.coll = s.coll) ∧
        (∀ p r x old st, ctxBusy s (dCtx d) = false → HostGave s .cmd i (d1Addr d) 128 p →
          r = wordsOf p 16 → x = ({ record := r } : Ctx) → old = ctxOf s (dCtx d) →
          st = (if arithOk (ctxArith x) (ctxCombine x) = false then stBAD_ARITH
            else if recordOk r = false then stBAD_RECORD
            else if ctxPart x ≠ dPart d ∨ (old.state = 1 ∧ foreignPart s .cmd i (ctxPart old) = true) then
              stWRONG_PARTITION
            else if (hasStacks s = false ∧ isUpdate (aOp (ctxArith x)) = true) ∨
                (hasCrucibles s = false ∧ (ctxArith x ≠ 0 ∨ ctxKind x ≠ 2)) then stUNIT_ABSENT
            else if 1048576 < statsUsed s (dCtx d) + statsNeed x then stSTATS_FULL
            else stOK) →
          ∃ t, exec (.ctxSetup i) s = .next t ∧ Completed s t .cmd i d st 0 0 ∧
            (st ≠ stOK → t.coll = s.coll) ∧
            (st = stOK → (ctxOf t (dCtx d)).record = r ∧ (ctxOf t (dCtx d)).state = 1 ∧
              (ctxOf t (dCtx d)).n = (if old.state = 1 then old.n else 0) ∧
              (ctxOf t (dCtx d)).excluded = (if old.state = 1 then old.excluded else []) ∧
              ∀ c, c ≠ dCtx d → ctxOf t c = ctxOf s c)))) ∧
    (DescReady s .cmd i d 0x21 →
      (∀ st, ctxBoth s i (ctxMasks ones 0 0) (d1Addr d % 8 != 0) d = some st →
        ∃ t, exec (.ctxRead i) s = .next t ∧ Completed s t .cmd i d st 0 0 ∧ t.coll = s.coll) ∧
      (ctxBoth s i (ctxMasks ones 0 0) (d1Addr d % 8 != 0) d = none → HostTakes s .cmd i (d1Addr d) 152 →
        ∃ t, exec (.ctxRead i) s = .next t ∧ Completed s t .cmd i d stOK 0 0 ∧ t.coll = s.coll ∧
          ∀ o, o ∈ dmaWrites (descOwner s .cmd i) (d1Addr d)
            (bytesOfWords ((List.range 16).map (cK (ctxOf s (dCtx d))) ++
              [ctxStatusWord s (dCtx d), ctxHashWord s (dCtx d), ctxArrivalWord s (dCtx d)])) → o ∈ t.out)) ∧
    (∀ first count, DescReady s .cmd i d 0x24 → first = fld (nth 0 d 2) 19 0 → count = fld (nth 0 d 3) 19 0 →
      (∀ st, ctxBoth s i (ctxMasks ones (mask 19 0) (mask 19 0)) (d1Addr d % 8 != 0 || count == 0) d = some st →
        ∃ t, exec (.ctxStats i) s = .next t ∧ Completed s t .cmd i d st 0 0) ∧
      (ctxBoth s i (ctxMasks ones (mask 19 0) (mask 19 0)) (d1Addr d % 8 != 0 || count == 0) d = none →
        (ctxMembers (ctxOf s (dCtx d)) < first + count →
          ∃ t, exec (.ctxStats i) s = .next t ∧ Completed s t .cmd i d stBAD_RANGE 0 0) ∧
        (first + count ≤ ctxMembers (ctxOf s (dCtx d)) → ctxStatsEn (ctxOf s (dCtx d)) = false →
          ∃ t, exec (.ctxStats i) s = .next t ∧ Completed s t .cmd i d stNO_STATS 0 0) ∧
        (first + count ≤ ctxMembers (ctxOf s (dCtx d)) → ctxStatsEn (ctxOf s (dCtx d)) = true →
          HostTakes s .cmd i (d1Addr d) (8 * count) →
          ∃ t, exec (.ctxStats i) s = .next t ∧ Completed s t .cmd i d stOK 0 0 ∧
            ∀ o, o ∈ dmaWrites (descOwner s .cmd i) (d1Addr d)
              (bytesOfWords ((List.range count).map fun j =>
                statWord (tget {} (ctxOf s (dCtx d)).stats (first + j)))) → o ∈ t.out))) ∧
    (∀ x slot st, DescReady s .cmd i d 0x22 → x = ctxOf s (dCtx d) → slot = fld (nth 0 d 2) 19 0 →
      st = (ctxBoth s i (ctxMasks 0 (mask 19 0) 0) false d).getD
        (if ctxMembers x ≤ slot then stBAD_RANGE
         else if x.excluded.contains slot = false ∧ 64 ≤ x.excluded.length then stEXCLUDE_FULL else stOK) →
      (st ≠ stOK → ∃ t, exec (.ctxExclude i) s = .next t ∧ Completed s t .cmd i d st 0 0 ∧ t.coll = s.coll) ∧
      (st = stOK → ∃ t, exec (.ctxExclude i) s = .next t ∧ Completed s t .cmd i d stOK 0 0 ∧
        (ctxOf t (dCtx d)).excluded.contains slot = true ∧
        (openChunks x = [] → ctxOf t (dCtx d) =
          { x with excluded := addNew x.excluded slot, including := remNat x.including slot }))) ∧
    (∀ x slot st, DescReady s .cmd i d 0x23 → x = ctxOf s (dCtx d) → slot = fld (nth 0 d 2) 19 0 →
      st = (ctxBoth s i (ctxMasks 0 (mask 19 0) 0) false d).getD
        (if x.excluded.contains slot = true then stOK else stNOT_FOUND) →
      ∃ t, exec (.ctxInclude i) s = .next t ∧ Completed s t .cmd i d st 0 0 ∧
        (st ≠ stOK → t.coll = s.coll) ∧
        (st = stOK → ctxOf t (dCtx d) =
          if x.dyn = true ∨ (planOf s (dCtx d)).running = true then { x with including := addNew x.including slot }
          else { x with excluded := remNat x.excluded slot })) ∧
    (DescReady s .cmd i d 0x25 →
      (∀ st, ctxBoth s i (ctxMasks 0 0 0) false d = some st →
        ∃ t, exec (.ctxTeardown i) s = .next t ∧ Completed s t .cmd i d st 0 0 ∧ t.coll = s.coll) ∧
      (ctxBoth s i (ctxMasks 0 0 0) false d = none →
        ((planOf s (dCtx d)).state ≠ 0 →
          ∃ t, exec (.ctxTeardown i) s = .next t ∧ Completed s t .cmd i d stPLAN_BUSY 0 0 ∧ t.coll = s.coll) ∧
        ((planOf s (dCtx d)).state = 0 →
          ∃ t, exec (.ctxTeardown i) s = .next t ∧
            ctxOf t (dCtx d) = { state := 3, teardown := some (i, runKey s .cmd i d) } ∧
            heldFor t (dCtx d) = none ∧ (heldFor s (dCtx d) = none → Started s t .cmd i d)))) ∧
    (∀ c, (ctxOf s c).state = 3 → ctxScrubbing s c = false →
      ((ctxOf s c).teardown = none →
        ∃ t, exec (.ctxScrubDone c) s = .next t ∧ ctxOf t c = {} ∧ OnlyChanges [.coll] s t) ∧
      (∀ j key, (ctxOf s c).teardown = some (j, key) → MayComplete s .cmd j key → (ring s .cmd j).fetched = [] →
        ∃ t, exec (.ctxScrubDone c) s = .next t ∧ ctxOf t c = {} ∧ EntryWritten s t .cmd j key stOK 0 0)) ∧
    (∀ c, (ctxOf s c).state ≠ 3 ∨ ctxScrubbing s c = true → exec (.ctxScrubDone c) s = .next s)

/-- A frame of a type, addressed to the spine, passes every check before those of its type, on a lane of a link: it
takes its credits and comes from a source in a partition whose route names the link (R93, R102, R105, R158). -/
def ReachesSpine (s : State) (q type part : Nat) (hdr : List Word) (f : Frame) : Prop :=
  q < 4160 ∧ (lane s q).state = 4 ∧ hcrcOk (link s (linkOf q)).bl2 hdr = true ∧
    (takeCells s q f (cellsOf (link s (linkOf q)).bl2 f.length)).isSome = true ∧ fenced s (linkOf q) = false ∧
    f.type = type ∧ f.ver = 3 ∧ typeOk f.type f.tc = true ∧ f.length ≤ 4096 ∧ f.mc = false ∧
    selfEid s = some f.dest ∧ undefinedEid f.src = false ∧ undefinedEid f.dest = false ∧ f.detour = false ∧
    rtValid (routeOf s f.src) = true ∧ rtPart (routeOf s f.src) = part ∧
    (linkOf q < 2048 → (part = linkOf q / 32 ∨ part = 64) ∧ (sprayOf (routeOf s f.src)).contains (linkOf q) = true)

/-- R215, R231, R257, R261 to R263, R270 to R272: a contribution addressed to the spine passes the checks of R263 in
order. One that passes is counted and received by its chunk or window; one that a check refuses is counted for its
cause and leaves the context as it was. ECC errors that the crucible finds as it takes one come first: a single-bit
error is counted, a double-bit one marks its slot, raises CRU_ECC_UE and poisons the dynamic chunk that holds the
slot. A dynamic invocation without a contribution for DYN_TIMEOUT ends. Model's choices it rests on: log entries 10,
39 and 77. Completes: dynTimeoutExpiry, collContribReceive, collCombineReceive. -/
def Obligations.ContributionsReceived : Prop :=
  ∀ (s : State) (q type : Nat) (hdr : List Word) (payload : List Byte) (f : Frame) (e : Instr),
    f = readFrame (link s (linkOf q)).bl2 hdr payload →
    (type = tCONTRIB ∧ e = .collContribReceive q hdr ⟨payload, []⟩) ∨
      (type = tCOMBINE ∧ e = .collCombineReceive q hdr ⟨payload, []⟩) →
    (∀ l, f.type = type → f.mc = false → selfEid s = some f.dest →
      (type = tCONTRIB → exec (.collContribReceive q hdr ⟨payload, l⟩) s = exec e (arrivalEcc s l)) ∧
      (type = tCOMBINE → exec (.collCombineReceive q hdr ⟨payload, l⟩) s = exec e (arrivalEcc s l))) ∧
    (∀ x : EccError, hasCrucibles s = true →
      (x.double = false → arrivalEcc s [x] = bump s (cSeq x.cru 5)) ∧
      (x.double = true → (cruSlot (arrivalEcc s [x]) (512 * x.cru + x.slot)).ue = true ∧
        cntGet (arrivalEcc s [x]) 0x501 = (cntGet s 0x501 + 1) % 2 ^ 64 ∧
        ∀ c k, (cruSlot s (512 * x.cru + x.slot)).use = 2 → (cruSlot s (512 * x.cru + x.slot)).owner = c →
          k ∈ openChunks (ctxOf s c) → (ctxChunk (ctxOf s c) k).slots.contains (512 * x.cru + x.slot) = true →
          csPOISONED ≤ (ctxChunk (ctxOf (arrivalEcc s [x]) c) k).poison)) ∧
    (f.type ≠ type ∨ f.mc = true ∨ selfEid s ≠ some f.dest → exec e s = .next s) ∧
    (∀ part, ReachesSpine s q type part hdr f →
      (ctxUp (ctxOf s f.ctx) = false →
        ∃ t, exec e s = .next t ∧ cntGet t (cCtx f.ctx 15) = (cntGet s (cCtx f.ctx 15) + 1) % 2 ^ 64 ∧
          t.coll = s.coll ∧ t.plan = s.plan) ∧
      (∀ m, ctxUp (ctxOf s f.ctx) = true → memberOf s (ctxPart (ctxOf s f.ctx)) f.ctx f.src = some m →
        m < ctxMembers (ctxOf s f.ctx) →
        ((ctxOf s f.ctx).excluded.contains m = true →
          ∃ t, exec e s = .next t ∧ cntGet t (cCtx f.ctx 13) = (cntGet s (cCtx f.ctx 13) + 1) % 2 ^ 64 ∧
            cntGet t 0x602 = (cntGet s 0x602 + 1) % 2 ^ 64 ∧ t.plan = s.plan ∧
            (ctxOf t f.ctx).excluded = (ctxOf s f.ctx).excluded ∧ (ctxOf t f.ctx).chunks = (ctxOf s f.ctx).chunks) ∧
        ((ctxOf s f.ctx).excluded.contains m = false → f.tc = ctxTc (ctxOf s f.ctx) →
          (type = tCOMBINE ↔ isCombine (ctxOf s f.ctx) = true) → hasCrucibles s = true →
          (link s (linkOf q)).bl2 = false →
          (∀ cause back, (if planned s f.ctx = true then planPlace s f.ctx m f.chunk else dynPlace s f.ctx m f.chunk) =
              .error (cause, back) →
            ∃ t, exec e s = .next t ∧
              cntGet t (cCtx f.ctx (causeCnt cause)) = (cntGet s (cCtx f.ctx (causeCnt cause)) + 1) % 2 ^ 64 ∧
              t.coll = s.coll ∧ t.plan = s.plan) ∧
          (∀ k, planned s f.ctx = false → dynPlace s f.ctx m f.chunk = .ok k →
            (f.dhash ≠ (ctxOf s f.ctx).hash →
              ∃ t, exec e s = .next t ∧ cntGet t (cCtx f.ctx 3) = (cntGet s (cCtx f.ctx 3) + 1) % 2 ^ 64 ∧
                cntGet t 0x601 = (cntGet s 0x601 + 1) % 2 ^ 64 ∧ bit (getR t oMISMATCH0) 63 = true) ∧
            (∀ segs, f.dhash = (ctxOf s f.ctx).hash → checkForm s f.ctx m k false f = .ok segs →
              ∃ t, exec e s = .next t ∧ cntGet t (cCtx f.ctx 0) = (cntGet s (cCtx f.ctx 0) + 1) % 2 ^ 64 ∧
                ((ctxOf t f.ctx).n = (ctxOf s f.ctx).n →
                  (ctxChunk (ctxOf t f.ctx) k).received.contains m = true ∧
                  tget 0 (ctxOf t f.ctx).arrivals m = s.now + 1 ∧
                  (chunkOpen (ctxChunk (ctxOf s f.ctx) k) = false → (ctxOf t f.ctx).dyn = true)))) ∧
          (∀ i segs, planned s f.ctx = true → planPlace s f.ctx m f.chunk = .ok i →
            f.dhash = (ctxOf s f.ctx).hash → checkForm s f.ctx m i true f = .ok segs →
            ∃ t, exec e s = .next t ∧ cntGet t (cCtx f.ctx 0) = (cntGet s (cCtx f.ctx 0) + 1) % 2 ^ 64 ∧
              (win (planOf t f.ctx) i).c.received.contains m = true ∧
              tget 0 (ctxOf t f.ctx).arrivals m = s.now + 1)))) ∧
    (∀ c, ctxUp (ctxOf s c) = true → (ctxOf s c).dyn = true →
      ∃ t, exec (.dynTimeoutExpiry c) s = .next t ∧
        t.now = max s.now ((ctxOf s c).lastTaken + rf s oCTX_CFG 63 47 * usT) ∧
        (ctxOf t c).dyn = false ∧ (ctxOf t c).chunks = [] ∧ (ctxOf t c).n = ((ctxOf s c).n + 1) % 2 ^ 32 ∧
        ∀ k g, k ∈ openChunks (ctxOf s c) → g ∈ (ctxChunk (ctxOf s c) k).slots → (cruSlot t g).use = 3) ∧
    (∀ c, ctxUp (ctxOf s c) = false ∨ (ctxOf s c).dyn = false → exec (.dynTimeoutExpiry c) s = .next s)

/-! ### Stacked memory: chapter 09 -/

/-- A rotation of a MAPPED channel of a stack onto its spare has begun its copy (R286). -/
def RotationBegun (s t : State) (k : Nat) : Prop :=
  (rot t k).phase = 1 ∧ (rot t k).dst = (stk s k).spare ∧ (memCh s k (rot t k).src).state = 0 ∧
    (memCh t k (rot t k).src).state = 2 ∧ (memCh t k (rot t k).dst).state = 3

/-- A channel has failed its training or its test: it is FAILED, its stack has no spare, and the event tells (R289).
-/
def RotationFailed (s t : State) (k : Nat) : Prop :=
  (rot t k).phase = 0 ∧ (memCh t k (rot s k).src).state = 6 ∧ (stk t k).spare = noSpare ∧
    cntGet t 0x703 = (cntGet s 0x703 + 1) % 2 ^ 64

/-- R286 to R291, R310: a pass or a request starts a rotation where the stack is idle and has a spare, and waits where
it is not; a rotation copies, switches the map entry once the writes issued have completed, trains and tests the
channel it left, which is then the spare, or FAILED. Model's choices it rests on: log entries 10 and 39. Completes:
memRotReqWrite, rotCopyDone, rotPassStart, rotSwitch, rotTestDone, rotTrainDone. -/
def Obligations.ChannelsRotate : Prop :=
  ∀ (s : State) (k : Nat), k < 20 →
    (hasStacks s = true → moduleReadyNow s = true → stacksRun s = true → bit (getR s oMEM_ROT_CFG) 0 = true →
      ∃ t, exec (.rotPassStart k) s = .next t ∧ (rot t k).lastPass = some t.now ∧
        t.now = (match (rot s k).lastPass with
          | some a => max s.now (a + rf s oMEM_ROT_CFG 63 44 * secT)
          | none => s.now) ∧
        ((rot s k).phase ≠ 0 → OnlyChanges [.mem, .clock] s t ∧ rot t k = { rot s k with
          pass := (List.range 33).filter (fun h => (memCh s k h).state == 0), lastPass := some t.now }) ∧
        ((rot s k).phase = 0 → (rot s k).repairs = [] → (rot s k).requests = [] → (stk s k).spare < 33 →
          (memCh s k (stk s k).spare).state ≠ 0 → rotating s < rf s oMEM_ROT_CFG 36 32 →
          (∃ h, h < 33 ∧ (memCh s k h).state = 0) → RotationBegun s t k)) ∧
    (hasStacks s = false ∨ moduleReadyNow s = false ∨ stacksRun s = false ∨ bit (getR s oMEM_ROT_CFG) 0 = false →
      exec (.rotPassStart k) s = .next s) ∧
    (∀ f v h, mayWriteIn s f 9 = true → hasStacks s = true → bit v 63 = true → fld v 12 8 = k → fld v 5 0 = h →
      h < 33 → (memCh s k h).state = 0 →
      ((rot s k).phase ≠ 0 ∨ stacksRun s = false → ∃ t, exec (.memRotReqWrite f v) s = .next t ∧ OnlyChanges [.mem] s t ∧
        rot t k = { rot s k with requests := addNew (rot s k).requests h }) ∧
      ((rot s k).phase = 0 → stacksRun s = true → (rot s k).repairs = [] → (rot s k).requests = [] →
        (stk s k).spare < 33 → (memCh s k (stk s k).spare).state ≠ 0 → rotating s < rf s oMEM_ROT_CFG 36 32 →
        ∃ t, exec (.memRotReqWrite f v) s = .next t ∧ RotationBegun s t k ∧ (rot t k).src = h)) ∧
    ((rot s k).phase = 1 → ∃ t, exec (.rotCopyDone k) s = .next t ∧ OnlyChanges [.mem] s t ∧
      rot t k = { rot s k with phase := 2, copyLine := 8388608 } ∧ t.mem.lines = s.mem.lines) ∧
    ((rot s k).phase ≠ 1 → exec (.rotCopyDone k) s = .next s) ∧
    (∀ u l, (rot s k).phase = 2 → u = finishWrites k (rot s k).dst (finishWrites k (rot s k).src s) →
      (rot u k).phase = 2 → (rot u k).src < 33 → (rot u k).dst < 33 → (rot u k).src ≠ (rot u k).dst →
      l = (memCh u k (rot u k).src).logical → l < 640 →
      ∃ t, exec (.rotSwitch k) s = .next t ∧ OnlyChanges [.mem] u t ∧ (rot t k).phase = 3 ∧
        mapOf t l = { mapOf u l with ch := (rot u k).dst, moved := true } ∧ (stk t k).spare = (rot u k).src ∧
        (memCh t k (rot u k).dst).state = 0 ∧ (memCh t k (rot u k).dst).logical = l ∧
        (memCh t k (rot u k).dst).rdq = (memCh u k (rot u k).dst).rdq ++ (memCh u k (rot u k).src).rdq ∧
        (memCh t k (rot u k).src).state = 4 ∧ (memCh t k (rot u k).src).rdq = [] ∧
        ((memCh s k (rot s k).src).wrq = [] → (memCh s k (rot s k).dst).wrq = [] →
          OnlyChanges [.mem] s u ∧ rot u k = rot s k ∧ u.mem.lines = s.mem.lines ∧ u.mem.map = s.mem.map) ∧
        ∀ key, lineAt t key = if ∃ n, n ∈ (rot u k).poisonY ∧ key = 4 * (640 * (n / 4) + l) + n % 4 then .poison
          else lineAt u key) ∧
    ((rot s k).phase ≠ 2 → exec (.rotSwitch k) s = .next s) ∧
    ((rot s k).phase = 3 → (rot s k).src < 33 →
      (∃ t, exec (.rotTrainDone k true) s = .next t ∧ OnlyChanges [.mem] s t ∧ (rot t k).phase = 4 ∧
        (memCh t k (rot s k).src).state = 5) ∧
      (NothingWaits s → ∃ t, exec (.rotTrainDone k false) s = .next t ∧ RotationFailed s t k)) ∧
    ((rot s k).phase = 4 → (rot s k).src < 33 → NothingWaits s →
      (∃ t, exec (.rotTestDone k true) s = .next t ∧ OnlyChanges [.mem] s t ∧ (rot t k).phase = 0 ∧
        (memCh t k (rot s k).src).state = 1) ∧
      (∃ t, exec (.rotTestDone k false) s = .next t ∧ RotationFailed s t k)) ∧
    (∀ ok, ((rot s k).phase ≠ 3 → exec (.rotTrainDone k ok) s = .next s) ∧
      ((rot s k).phase ≠ 4 → exec (.rotTestDone k ok) s = .next s))

/-- R292, R294 to R301, R304, R380: a transfer on a channel whose bus is free is moved at once and counted, or waits
while its stack limits its traffic and a quarter of the channel's time has been given, its error check judged by the
code of R296, and its fourth parity error declares the channel faulty; a page is retired to a redundant row, a patrol
pass starts once the one before has read every line, and clears the trackers, a cooled stack leaves HOT, a rebuilt
channel is redirected, and a range given up reads as zeros. Model's choices it rests on: log entries 4, 10, 16, 25,
39, 79 and 80. Completes: memHotClearExpiry, memTransfer, pageRetirementDone, patrolPassStart, rebuildComplete,
regionScrubDone. -/
def Obligations.TransfersJudgedAndRepaired : Prop :=
  ∀ (s : State) (k h line : Nat), k < 20 → h < 33 →
    (∀ user key, hasStacks s = true → stacksRun s = true → (memCh s k h).state = 0 → (memCh s k h).rdq = [] →
      (memCh s k h).wrq = [] → (memCh s k h).freeAt ≤ s.now → line < 8388608 → user ≠ .copy →
      (s.hlt.limited.contains k = false ∨ userRank user < 3 ∨ (memCh s k h).quarterAt ≤ s.now) →
      key = 4 * (640 * (line / 4) + (memCh s k h).logical) + line % 4 →
      (∀ e, ∃ t, exec (.memTransfer k h line true user [{ parityError := false, errors := e }]) s = .next t ∧
        OnlyChanges [.mem, .cnt] s t ∧ t.mem.lines = s.mem.lines ∧
        cntGet t (cChan k h 1) = (cntGet s (cChan k h 1) + 1) % 2 ^ 64) ∧
      (∀ e, ∃ t, exec (.memTransfer k h line false user [{ parityError := false, errors := e }]) s = .next t ∧
        cntGet t (cChan k h 0) = (cntGet s (cChan k h 0) + 1) % 2 ^ 64 ∧
        (lineVerdict (lineAt s key) e = .poison →
          cntGet t (cChan k h 5) = (cntGet s (cChan k h 5) + 1) % 2 ^ 64 ∧ t.mem.lines = s.mem.lines) ∧
        (lineVerdict (lineAt s key) e = .good → OnlyChanges [.mem, .cnt] s t ∧ t.mem.lines = s.mem.lines) ∧
        (∀ n, lineVerdict (lineAt s key) e = .corrected n →
          cntGet t (cChan k h 3) = (cntGet s (cChan k h 3) + 1) % 2 ^ 64 ∧
          (memCh t k h).ce = min 0xFFFF ((memCh s k h).ce + 1)) ∧
        (lineVerdict (lineAt s key) e = .bad → lineAt t key = .poison ∧
          cntGet t 0x702 = (cntGet s 0x702 + 1) % 2 ^ 64 ∧ bit (getR t oMEM_UE_LOG) 63 = true ∧
          ∀ o, o ≠ key → lineAt t o = lineAt s o)) ∧
      (∀ e, ¬ (((rot s k).phase = 1 ∨ (rot s k).phase = 2) ∧ (rot s k).dst = h) →
        ∃ t, exec (.memTransfer k h line false user (List.replicate 4 { parityError := true, errors := e })) s =
            .next t ∧
          cntGet t (cChan k h 4) = (cntGet s (cChan k h 4) + 3) % 2 ^ 64 ∧
          cntGet t 0x701 = (cntGet s 0x701 + 1) % 2 ^ 64 ∧
          (user = .plan ∨ user = .update ∨ user = .fabric → t.mem.readFailed.contains key = true))) ∧
    (∀ user e, hasStacks s = true → stacksRun s = true → (memCh s k h).state = 0 → (memCh s k h).rdq = [] →
      (memCh s k h).wrq = [] → (memCh s k h).freeAt ≤ s.now → line < 8388608 → user ≠ .copy →
      s.hlt.limited.contains k = true → 3 ≤ userRank user → s.now < (memCh s k h).quarterAt →
      ∃ t, exec (.memTransfer k h line false user [{ parityError := false, errors := e }]) s = .next t ∧
        OnlyChanges [.mem] s t ∧ t.mem.lines = s.mem.lines ∧ (memCh t k h).freeAt = (memCh s k h).quarterAt ∧
        (memCh t k h).rdq = [{ user := user, line := line, tries := [{ parityError := false, errors := e }] }]) ∧
    (∀ v e, (∀ x, x ∈ e → x % 65536 = 0) →
      lineVerdict (.data v) e = .good ∧ lineVerdict .poison e = .poison) ∧
    (∀ write user tries, hasStacks s = false → exec (.memTransfer k h line write user tries) s = .next s) ∧
    (∀ p a, (memCh s k h).retiring = some (p, a) →
      ∃ t, exec (.pageRetirementDone k h) s = .next t ∧ (memCh t k h).repairRows = (memCh s k h).repairRows - 1 ∧
        tget 0 (memCh t k h).rowsUsed (bankOf p) = tget 0 (memCh s k h).rowsUsed (bankOf p) + 1 ∧
        (∀ x, x ∈ (memCh t k h).pages → x.1 ≠ p) ∧
        cntGet t (cChan k h 6) = (cntGet s (cChan k h 6) + 1) % 2 ^ 64) ∧
    ((memCh s k h).retiring = none → exec (.pageRetirementDone k h) s = .next s) ∧
    (hasStacks s = true → moduleReadyNow s = true → stacksRun s = true → bit (getR s oMEM_CFG) 0 = true →
      (patrolDone s = false → exec .patrolPassStart s = .next s) ∧
      (patrolDone s = true →
      ∃ t, exec .patrolPassStart s = .next t ∧ OnlyChanges [.mem, .clock] s t ∧ t.mem.patrolAt = some t.now ∧
        t.mem.patrol = [] ∧
        t.now = (match s.mem.patrolAt with
          | some a => max s.now (a + rf s oMEM_CFG 63 44 * secT)
          | none => s.now) ∧
        ∀ k h, (memCh t k h).pages = [])) ∧
    (∀ a, (stk s k).hot = true → (stk s k).coolSince = some a →
      ∃ t, exec (.memHotClearExpiry k) s = .next t ∧ t.now = max s.now (a + secT) ∧
        stk t k = { stk s k with hot := false, coolSince := none } ∧
        cntGet t 0x708 = (cntGet s 0x708 + 1) % 2 ^ 64) ∧
    ((stk s k).hot = false ∨ (stk s k).coolSince = none → exec (.memHotClearExpiry k) s = .next s) ∧
    (∀ l r, r ∈ s.mem.relief → r.logical = l → r.ready = false → deepUsed s ≤ deepSize s →
      ∃ t, exec (.rebuildComplete l) s = .next t ∧ (mapOf t l).rebuilt = true ∧
        t.mem.rebuilds = s.mem.rebuilds + 1 ∧ (∀ x, x ∈ t.mem.relief → x.logical = l → x.ready = true) ∧
        cntGet t 0x707 = (cntGet s 0x707 + 1) % 2 ^ 64) ∧
    (∀ l, (∀ r, r ∈ s.mem.relief → r.logical = l → r.ready = true) → exec (.rebuildComplete l) s = .next s) ∧
    (s.mem.scrubbing = [] → exec .regionScrubDone s = .next s) ∧
    (∀ g n rest, s.mem.scrubbing = (g, n) :: rest → (∀ l, (tget ({} : MapEntry) s.mem.map l).retired = false) →
      g + n ≤ reliefBase s →
      ∃ t, exec .regionScrubDone s = .next t ∧ OnlyChanges [.mem] s t ∧ t.mem.scrubbing = rest ∧
        ∀ key, lineAt t key = if g ≤ key / 4 ∧ key / 4 < g + n then .data 0 else lineAt s key)

/-- R305 to R308: a fabric memory request is accepted for its region, or refused with memory as it was; an accepted
PUT writes its lines, a GET writes none, and an ATOMIC replaces its word; one whose read is POISONED writes nothing,
and of two requests of one source to one line the earlier completes first. Model's choices it rests on: log entries 4
and 10. Completes: fabricMemDone, memPutReceive, memGetReceive, memAtomicReceive. -/
def Obligations.FabricMemoryServed : Prop :=
  ∀ s : State,
    (∀ (q type : Nat) (hdr : List Word) (payload : List Byte) (f : Frame) (e : Instr),
      f = readFrame (link s (linkOf q)).bl2 hdr payload →
      (type = tPUT ∧ e = .memPutReceive q hdr payload) ∨ (type = tGET ∧ e = .memGetReceive q hdr payload) ∨
        (type = tATOMIC ∧ e = .memAtomicReceive q hdr payload) →
      (f.type ≠ type ∨ f.mc = true ∨ selfEid s ≠ some f.dest → exec e s = .next s) ∧
      (∀ part, ReachesSpine s q type part hdr f →
        (∀ c, memCheck s { f := f, inBl2 := (link s (linkOf q)).bl2 } part = .error c →
          ∃ t, exec e s = .next t ∧ t.mem = s.mem) ∧
        (∀ v, memCheck s { f := f, inBl2 := (link s (linkOf q)).bl2 } part = .ok v →
          ∃ t r, exec e s = .next t ∧ t.mem = { s.mem with reqs := s.mem.reqs ++ [r] } ∧ r.base = rgBase v ∧
            r.rid = rgId v ∧ r.q.f = f))) ∧
    (s.mem.reqs = [] → exec .fabricMemDone s = .next s) ∧
    (∀ r, s.mem.reqs = [r] → (∀ l, (tget ({} : MapEntry) s.mem.map l).retired = false) →
      (r.q.f.type = tPUT →
        ∃ t, exec .fabricMemDone s = .next t ∧ t.mem.reqs = [] ∧
          ∀ key, lineAt t key =
            if 4 * r.base + r.q.f.chunk ≤ key ∧ key < 4 * r.base + r.q.f.chunk + memLen r.q.f / 64 then
              .data (bytesLine (r.q.f.payload.drop (64 * (key - (4 * r.base + r.q.f.chunk)))))
            else lineAt s key) ∧
      (r.q.f.type = tGET → ∃ t, exec .fabricMemDone s = .next t ∧ t.mem.reqs = [] ∧ t.mem.lines = s.mem.lines) ∧
      (∀ b, r.q.f.type = tATOMIC → readLines s r.base 1 r.q.f.chunk = (b, none) →
        ∃ t, exec .fabricMemDone s = .next t ∧ t.mem.reqs = [] ∧
          ∀ key, lineAt t key =
            if key = 4 * r.base + r.q.f.chunk then
              .data (bytesLine (putBytes b (8 * (r.q.f.aux % 8)) (leBytes 8 (atomicOp (r.q.f.aux / 2 ^ 24 % 256)
                (leAt b (8 * (r.q.f.aux % 8)) 8) (leAt r.q.f.payload 0 8) (leAt r.q.f.payload 8 8)))))
            else lineAt s key) ∧
      (∀ b n, r.q.f.type = tATOMIC → readLines s r.base 1 r.q.f.chunk = (b, some n) →
        ∃ t, exec .fabricMemDone s = .next t ∧ t.mem.reqs = [] ∧ t.mem.lines = s.mem.lines)) ∧
    (∀ a b, s.mem.reqs = [a, b] → sameLine a b = true →
      ∃ t, exec .fabricMemDone s = .next t ∧ t.mem.reqs = [b])

/-! ### Network time: chapter 10 -/

/-- The choice of a grandmaster as state t has made it (R317, R321): a domain that is UNACQUIRED, or that follows the
best grandmaster already, follows the best link to it; any other keeps its grandmaster and measures the best. -/
def FollowsBest (s t : State) (k : Nat) : Prop :=
  match bestCand t k with
  | none => (dom t k).upstream = 0xFFF ∧ (dom t k).measuring = false
  | some e =>
    if e.2.identity = (dom s k).gm ∨ (dom s k).state = 0 then
      (dom t k).upstream = e.1 ∧ (dom t k).gm = e.2.identity
    else
      (dom t k).gm = (dom s k).gm ∧ (dom t k).measuring = !(dom s k).stepNeeded ∧
        ((dom s k).stepNeeded = false → (dom t k).probe = e.1)

/-- R82, R105, R311, R317 to R321, R329: a read of TIME_NOW_LO latches the seconds, and returns 0 in RETAIN (R417) and
all ones while the PLL of the TIME domain has lost lock (R428); a master link sends TIME_SYNC and TIME_ANNOUNCE at
their intervals, the first stamped as its block leaves, and answers a request with its time; a slave link's announce
makes it a candidate and its silence removes it, its TIME_SYNC starts an exchange and keeps its grandmaster heard, and
the answer gives the path delay and the offset, or is dropped and counted; on a lane that is not UP they are illegal.
Model's choices it rests on: log entries 3, 4, 10, 39, 81 and 83. Completes: timeAnnounceExpiry, timeAnnounceReceive,
timeAnnounceSend, timeDelayReqReceive, timeDelayRespReceive, timeExchangeTimeout, timeNowRead, timeSyncReceive,
timeSyncSend. -/
def Obligations.TimeExchanged : Prop :=
  ∀ (s : State) (q l k : Nat) (b : BitVec 104),
    (∀ f, mayReadMain s f = true →
      (pllLost s 3 = false → ∃ t, exec (.timeNowRead f) s = .next t ∧ OnlyChanges [.out, .tim] s t ∧
        t.out = s.out ++ [.readData f (timeNowLo s)] ∧ t.tim = { s.tim with nowHi := ntSeconds s }) ∧
      (pllLost s 3 = true →
        exec (.timeNowRead f) s = .next { s with out := s.out ++ [.readData f (BitVec.allOnes 64)] })) ∧
    (∀ f, readReaches s f = true → mainAlive s = false →
      exec (.timeNowRead f) s = .next { s with out := s.out ++ [.readData f 0] }) ∧
    (∀ f, readReaches s f = false → exec (.timeNowRead f) s = .next s) ∧
    (∀ u rest, k < 2 → masterPort s k l = true → upLanes s l = u :: rest →
      (sentDue s (tget 0 s.tim.syncAt (2 * l + k)) (syncT s) = true →
        ∃ t, exec (.timeSyncSend l k) s = .next t ∧ OnlyChanges [.lnk, .tim] s t ∧
          (lane t u).osOut = (lane s u).osOut ++
            [(osTIME_SYNC, timeBody k (tget 0 s.tim.syncSeq (2 * l + k)) 0)] ∧
          tget 0 t.tim.syncAt (2 * l + k) = s.now + 1 ∧
          tget 0 t.tim.syncSeq (2 * l + k) = (tget 0 s.tim.syncSeq (2 * l + k) + 1) % 128 ∧
          t.tim.doms = s.tim.doms) ∧
      (sentDue s (tget 0 s.tim.syncAt (2 * l + k)) (syncT s) = false → exec (.timeSyncSend l k) s = .next s) ∧
      (sentDue s (tget 0 s.tim.annAt (2 * l + k)) (8 * syncT s) = true →
        ∃ t, exec (.timeAnnounceSend l k) s = .next t ∧ OnlyChanges [.out, .lnk, .tim] s t ∧
          t.out = s.out ++ [.os u osTIME_ANNOUNCE (mkBody [at_ 103 k, at_ 96 (tget 0 s.tim.syncSeq (2 * l + k)),
            at_ 88 (announced s k).1, at_ 80 (announced s k).2.1, at_ 16 ((announced s k).2.2 % 2 ^ 64)])] ∧
          tget 0 t.tim.annAt (2 * l + k) = s.now + 1 ∧ t.tim.doms = s.tim.doms) ∧
      (sentDue s (tget 0 s.tim.annAt (2 * l + k)) (8 * syncT s) = false →
        exec (.timeAnnounceSend l k) s = .next s)) ∧
    (masterPort s k l = false →
      exec (.timeSyncSend l k) s = .next s ∧ exec (.timeAnnounceSend l k) s = .next s) ∧
    (∀ o, (lane s q).osOut = [o] → o.1 = osTIME_SYNC ∨ o.1 = osTIME_DELAY_REQ →
      (stampSets s q).2 = [(o.1, timeBody (osDom o.2) (osSeq o.2) (stampNow s (osDom o.2)))]) ∧
    (laneUp s q = false → ∀ c,
      c ∈ [Instr.timeDelayReqReceive q b, .timeAnnounceReceive q b, .timeSyncReceive q b, .timeDelayRespReceive q b] →
      exec c s = .next (bump s (cLane q 5))) ∧
    (k = osDom b → l = linkOf q → laneUp s q = true →
      (masterPort s k l = true →
        ∃ t, exec (.timeDelayReqReceive q b) s = .next t ∧ OnlyChanges [.out, .lnk] s t ∧
          t.out = s.out ++ [.os q osTIME_DELAY_RESP (timeBody k (osSeq b) (stampNow s k))]) ∧
      (masterPort s k l = false → exec (.timeDelayReqReceive q b) s = .next s) ∧
      (slavePort s k l = false →
        exec (.timeAnnounceReceive q b) s = .next s ∧ exec (.timeSyncReceive q b) s = .next s ∧
        exec (.timeDelayRespReceive q b) s = .next s) ∧
      (slavePort s k l = true →
        (∃ t, exec (.timeAnnounceReceive q b) s = .next t ∧ OnlyChanges [.tim] s t ∧
          tget noCand (dom t k).cands l =
            { at_ := s.now, priority := bf b 95 88, cls := bf b 87 80, identity := bf b 79 16,
              delay := (tget noCand (dom s k).cands l).delay } ∧
          FollowsBest s t k ∧ (dom t k).state = (dom s k).state) ∧
        (∀ e, (dom (reselect s k) k).cands.find? (fun e => e.1 == l) = some e →
          (e.2.identity = (dom (reselect s k) k).gm →
            ∃ t, exec (.timeSyncReceive q b) s = .next t ∧ (dom t k).lastSync = s.now) ∧
          (candOk s k l e.2 = true →
            (dom s k).state ≠ 0 ∨ (dom (reselect s k) k).acqAt.isSome = true ∨
              (dom (reselect s k) k).upstream = l →
            ∃ t, exec (.timeSyncReceive q b) s = .next t ∧ OnlyChanges [.lnk, .tim] s t ∧
              (lane t q).osOut = (lane s q).osOut ++ [(osTIME_DELAY_REQ, timeBody k (osSeq b) 0)] ∧
              (osSeq b, tsDec (bf b 95 0), stampNow t k, stampNow t k, l, s.now) ∈ (dom t k).exch ∧
              (∀ x, x ∈ (dom s k).exch → x ∈ (dom t k).exch) ∧ (dom t k).state = (dom s k).state)) ∧
        ((∀ x, x ∈ (dom s k).exch → x.2.2.2.2.1 ≠ l) → exec (.timeDelayRespReceive q b) s = .next s) ∧
        (∀ x, (dom s k).exch.find? (isExch l (osSeq b)) = none →
          (dom s k).exch.find? (fun x => x.2.2.2.2.1 == l) = some x →
          ∃ t, exec (.timeDelayRespReceive q b) s = .next t ∧ OnlyChanges [.tim, .cnt] s t ∧
            (dom t k).exch = (dom s k).exch.filter (fun y => !isExch l x.1 y) ∧
            cntGet t (cMod 4) = (cntGet s (cMod 4) + 1) % 2 ^ 64) ∧
        (∀ seq t1 t2 t3 j a e, (dom s k).exch.find? (isExch l (osSeq b)) = some (seq, t1, t2, t3, j, a) →
          e = exchangeOf t1 t2 t3 (tsDec (bf b 95 0)) (sx 16 (rf s (oTIME_ASYM l) 15 0) * 2 ^ 12) →
          (due s a (msT + 1) = true ∨ e.1 < 0 ∨ 2 * 65535 * 65536 < e.1 →
            ∃ t, exec (.timeDelayRespReceive q b) s = .next t ∧ OnlyChanges [.tim, .cnt] s t ∧
              (dom t k).exch = (dom s k).exch.filter (fun x => !isExch l seq x) ∧
              cntGet t (cMod 4) = (cntGet s (cMod 4) + 1) % 2 ^ 64) ∧
          (due s a (msT + 1) = false → 0 ≤ e.1 → e.1 ≤ 2 * 65535 * 65536 →
            ∃ t, exec (.timeDelayRespReceive q b) s = .next t ∧ (∀ x, x ∈ (dom t k).exch → isExch l seq x = false) ∧
              ((dom s k).cands.any (fun c => c.1 == l) = true →
                (tget noCand (dom t k).cands l).delay = e.1.toNat) ∧
              ((dom t k).upstream = l → (dom t k).offset = e.2 * 2 ^ 31 / 2 ^ 32))))) ∧
    ((dom s k).exch = [] → exec (.timeExchangeTimeout k) s = .next s) ∧
    (k < 2 → ∃ t, exec (.timeExchangeTimeout k) s = .next t ∧
      ∀ x, x ∈ (dom t k).exch → x ∈ (dom s k).exch ∧ due t x.2.2.2.2.2 msT = false) ∧
    (∀ x, k < 2 → (dom s k).exch = [x] →
      ∃ t, exec (.timeExchangeTimeout k) s = .next t ∧ t.now = max s.now (x.2.2.2.2.2 + msT) ∧
        dom t k = { dom s k with exch := [] } ∧ cntGet t (cMod 4) = (cntGet s (cMod 4) + 1) % 2 ^ 64) ∧
    (∀ e, k < 2 → (dom s k).cands.find? (fun e => e.1 == l) = some e →
      ∃ t, exec (.timeAnnounceExpiry l k) s = .next t ∧ OnlyChanges [.tim, .clock] s t ∧
        t.now = max s.now (e.2.at_ + 8 * syncT s) ∧
        (dom t k).cands = tset noCand (dom s k).cands l { e.2 with lapsed := true } ∧ FollowsBest s t k) ∧
    ((dom s k).cands.find? (fun e => e.1 == l) = none → exec (.timeAnnounceExpiry l k) s = .next s)

/-- R313 to R315, R321 to R325, R407: NT keeps its value when it moves to the other domain and when a domain is
returned to UNACQUIRED, from which REACQ starts its provisional count; a domain that hears nothing is in HOLDOVER; an
edge of PPS, which PARKED and lower states ignore, steps a domain with its time of day, drives it, or is dropped as a
stray; PPS_OUT rises at a whole second and falls after its width. Model's choices it rests on: log entries 4, 10, 39,
84 and 85. Completes: ppsEdge, ppsNoEdgeTimeout, ppsOutFall, ppsOutRise, timeDomainDisable, timeMasterLost, timeReacq,
timeSwitch. -/
def Obligations.TimeSwitchedAndPulsed : Prop :=
  ∀ (s : State) (f : Func) (k : Nat),
    (mayWriteIn s f 3 = true → s.tim.inForce = true → (dom s (1 - s.tim.sel)).state = 2 →
      ∃ t, exec (.timeSwitch f) s = .next t ∧ t.tim.sel = 1 - s.tim.sel ∧ ntFine t = ntFine s ∧
        t.tim.doms = s.tim.doms ∧ cntGet t 0x801 = (cntGet s 0x801 + 1) % 2 ^ 64) ∧
    (mayWriteIn s f 3 = false ∨ s.tim.inForce = false ∨ (dom s (1 - s.tim.sel)).state ≠ 2 →
      exec (.timeSwitch f) s = .next s) ∧
    (∀ ta tb, mayWriteIn s f 3 = true → (ta || tb) = true →
      ∃ t, exec (.timeReacq f ta tb) s = .next t ∧ ntFine t = ntFine s ∧ t.tim.inForce = s.tim.inForce ∧
        (ta = true → (dom t 0).state = 0 ∧ (dom t 0).exch = [] ∧
          (dom t 0).acqAt = (if domEn s 0 = true ∧ domPps s 0 = false then some (perNow s) else none) ∧
          (dom t 0).cands = (dom s 0).cands) ∧
        (tb = true → (dom t 1).state = 0 ∧ (dom t 1).exch = [] ∧
          (dom t 1).acqAt = (if domEn s 1 = true ∧ domPps s 1 = false then some (perNow s) else none) ∧
          (dom t 1).cands = (dom s 1).cands) ∧
        (ta = false → dom t 0 = dom s 0) ∧ (tb = false → dom t 1 = dom s 1)) ∧
    (∀ v, k < 2 →
      (mayWriteIn s f 3 = true → ¬ (fld v 2 1 = 1 ∧ domPps s (1 - k) = true) →
        ∃ t, exec (.timeDomainDisable f k v) s = .next t ∧ RegWritten s t (oDOM_CFG k) (setFld v 0 0 0) ∧
          (domEn s k = true → domEn t k = false → (dom t k).state = 0 ∧ (dom t k).upstream = 0xFFF)) ∧
      (mayWriteIn s f 3 = false ∨ (fld v 2 1 = 1 ∧ domPps s (1 - k) = true) →
        exec (.timeDomainDisable f k v) s = .next s)) ∧
    (k < 2 → domPps s k = false → (dom s k).state = 1 ∨ (dom s k).state = 2 →
      ∃ t, exec (.timeMasterLost k) s = .next t ∧ t.now = max s.now ((dom s k).lastSync + 3 * syncT s) ∧
        (dom t k).state = 3 ∧
        ((dom s (1 - k)).state ≠ 2 → t.tim.sel = s.tim.sel ∧ cntGet t 0x802 = (cntGet s 0x802 + 1) % 2 ^ 64) ∧
        ((dom s (1 - k)).state = 2 → s.tim.inForce = true → s.tim.sel = k →
          t.tim.sel = 1 - k ∧ cntGet t 0x801 = (cntGet s 0x801 + 1) % 2 ^ 64)) ∧
    (domPps s k = true ∨ ((dom s k).state ≠ 1 ∧ (dom s k).state ≠ 2) → exec (.timeMasterLost k) s = .next s) ∧
    (ppsDom s = none → exec .ppsEdge s = .next s ∧ exec .ppsNoEdgeTimeout s = .next s) ∧
    (∀ e, ppsDom s = some k → e = ppsError s (domValue s k - 1000 * (2 ^ 48 + (dom s k).rate)) →
      (bit (getR s oPPS_CFG) 40 = false ∨ ppsTaken s = false → exec .ppsEdge s = .next s) ∧
      (bit (getR s oPPS_CFG) 40 = true → ppsTaken s = true →
        ((dom s k).state = 0 → bit (getR s oPPS_TOD) 63 = false → exec .ppsEdge s = .next s) ∧
        ((dom s k).state = 0 → bit (getR s oPPS_TOD) 63 = true →
          ∃ t, exec .ppsEdge s = .next t ∧ (dom t k).state = 1 ∧ (dom t k).lastEdge = some s.now ∧
            (dom t k).base = ((rf s oPPS_TOD 47 0 : Int) * 1000000000 + ppsDelay s + 1000) * 2 ^ 48 ∧
            (dom t k).per = perNow s ∧ bit (getR t oPPS_TOD) 63 = false ∧ t.tim.inForce = true) ∧
        ((dom s k).state ≠ 0 → e.natAbs ≤ 50000 * 2 ^ 48 →
          ∃ t, exec .ppsEdge s = .next t ∧ (dom t k).lastEdge = some s.now ∧ (dom t k).offset = e / 2 ^ 32) ∧
        ((dom s k).state ≠ 0 → 50000 * 2 ^ 48 < e.natAbs →
          ∃ t, exec .ppsEdge s = .next t ∧ OnlyChanges [.cnt] s t ∧
            cntGet t (cMod 5) = (cntGet s (cMod 5) + 1) % 2 ^ 64)) ∧
      ((dom s k).state = 1 ∨ (dom s k).state = 2 →
        ∃ t, exec .ppsNoEdgeTimeout s = .next t ∧ (dom t k).state = 3 ∧
          t.now = (match (dom s k).lastEdge with
            | some a => max s.now (a + 3 * secT)
            | none => s.now) ∧
          cntGet t 0x804 = (cntGet s 0x804 + 1) % 2 ^ 64) ∧
      ((dom s k).state ≠ 1 → (dom s k).state ≠ 2 →
        exec .ppsNoEdgeTimeout s = .next s)) ∧
    (bit (getR s oPPS_CFG) 41 = true → s.tim.inForce = true → s.pwr.ppsOut = false →
      ∃ t, exec .ppsOutRise s = .next t ∧ t.pwr = { s.pwr with ppsOut := true } ∧ t.tim.ppsHigh = some t.now ∧
        t.now = (awaitNt s (ceilDiv (ntWhole s).toNat 1000000000 * 1000000000)).now ∧ OnlyChanges [.pwr, .tim, .clock] s t) ∧
    (bit (getR s oPPS_CFG) 41 = false ∨ s.tim.inForce = false ∨ s.pwr.ppsOut = true →
      exec .ppsOutRise s = .next s) ∧
    (∀ a, s.pwr.ppsOut = true → s.tim.ppsHigh = some a →
      ∃ t, exec .ppsOutFall s = .next t ∧ t.now = max s.now (a + rf s oPPS_CFG 39 32 * msT) ∧
        t.pwr = { s.pwr with ppsOut := false } ∧ t.tim = { s.tim with ppsHigh := none } ∧
        OnlyChanges [.pwr, .tim, .clock] s t) ∧
    (s.pwr.ppsOut = false ∨ s.tim.ppsHigh = none → exec .ppsOutFall s = .next s)

/-! ### The whole machine -/

/-- Every command, in every state, ends in a next state, and writes no part of the machine but those its row of
`partsOf` names: registers, counters, memory, queues and every other part stay as they were, the waiting commands too.
-/
def Obligations.EveryCommandKeepsItsFrame : Prop :=
  ∀ (c : Instr) (s : State), ∃ t, exec c s = .next t ∧ OnlyChanges (partsOf c) s t

/-- R12, R301, R304, R365: a step keeps a sound state sound: the register file canonical with the reserved bits of
every register at their reset values, stacked memory canonical over what its lines read as unwritten, and EPOCH legal.
-/
def Obligations.SoundKeptByEveryStep : Prop :=
  ∀ s t : State, Sound s → step s = .next t → Sound t

/-- What reset leaves, by the rules that give it: the state is sound, every register reads its reset value (R12), no
ring runs (R341), EPOCH is 1 (R365), every context is FREE (R280) and holds no plan (R243), NT is not in force (R314),
a memory line reads as zeros below the relief blocks (R301, R304), and no command waits. Model's choices it rests on:
log entries 11 and 12. -/
def Obligations.ResetHoldsWhatTheSpecGives : Prop :=
  Sound State.reset ∧ (∀ off, getR State.reset off = regReset State.reset.variant false off) ∧
    (∀ k i, (ring State.reset k i).state = 0) ∧ State.reset.hif.epoch = 1 ∧
    (∀ c, (ctxOf State.reset c).state = 0 ∧ (planOf State.reset c).state = 0) ∧
    State.reset.tim.inForce = false ∧ (∀ k, (dom State.reset k).state = 0) ∧
    (∀ key, key < 4 * totalGranules → lineAt State.reset key = .data 0) ∧
    (∀ q, (lane State.reset q).state = 0) ∧ State.reset.pending = []

/-- Log entry 9 (the model's choice, no rule of the spec): with no command waiting, a step lets one unit of time pass,
1/120 ns, and where no sequencer has a phase to end and no memory channel a request waiting nothing else changes. -/
def Obligations.IdleStepLetsTimePass : Prop :=
  ∀ s : State, s.pending = [] →
    (∃ t, step s = .next t ∧ t.now = s.now + 1 ∧ t.pending = []) ∧
    ((∀ n, (seqr s n).endAt = none) → (∀ k h, (memCh s k h).rdq = [] ∧ (memCh s k h).wrq = []) →
      step s = .next { s with now := s.now + 1 })
end

