-- ==== Sys2Proof/Laws/Table.lean ====
section
/-! SUPPORT. Sparse tables: a read after a write, and writes keep the canonical form. -/
/- Proofs of this file are elaborated one after another: side by side, their waiting threads' stacks
together pass the memory limit of the check. -/
set_option Elab.async false
namespace Sys2Proof.Machine

@[simp] theorem tget_nil {α : Type} (d : α) (k : Nat) : tget d [] k = d := rfl

theorem tget_cons {α : Type} (d : α) (k' : Nat) (v : α) (r : Tab α) (k : Nat) :
    tget d ((k', v) :: r) k = if k' = k then v else tget d r k := rfl

/-- The canonical form in one step: the head is no default, the rest is canonical and lies above it. -/
theorem tabWf_cons {α : Type} [DecidableEq α] (d : Nat → α) (k : Nat) (v : α) (r : Tab α) :
    tabWf d ((k, v) :: r) = true ↔ v ≠ d k ∧ (∀ e ∈ r, k < e.1) ∧ tabWf d r = true := by
  induction r generalizing k v with
  | nil => simp [tabWf]
  | cons e r ih =>
    obtain ⟨k', v'⟩ := e
    have key : tabWf d ((k, v) :: (k', v') :: r) = true ↔
        v ≠ d k ∧ k < k' ∧ tabWf d ((k', v') :: r) = true := by
      simp [tabWf, and_assoc]
    rw [key, ih k' v']
    constructor
    · rintro ⟨h1, h2, h3, h4, h5⟩
      refine ⟨h1, ?_, h3, h4, h5⟩
      intro e he
      rcases List.mem_cons.1 he with rfl | he
      · exact h2
      · exact lt_trans h2 (h4 e he)
    · rintro ⟨h1, h2, h3, h4, h5⟩
      exact ⟨h1, h2 (k', v') (List.mem_cons_self ..), h3, h4, h5⟩

@[simp] theorem tabWf_nil {α : Type} [DecidableEq α] (d : Nat → α) : tabWf d [] = true := rfl

/-- What a write leaves in the list: its own entry, and entries that stood there. -/
theorem mem_tset {α : Type} [DecidableEq α] (d : α) (t : Tab α) (k : Nat) (v : α) (e : Nat × α)
    (h : e ∈ tset d t k v) : e = (k, v) ∨ e ∈ t := by
  induction t with
  | nil => simp only [tset] at h; split at h <;> simp_all
  | cons a r ih =>
    obtain ⟨k', v'⟩ := a
    simp only [tset] at h
    split at h
    · rcases List.mem_cons.1 h with rfl | h
      · simp
      · rcases ih h with h | h <;> simp [h]
    · split at h
      · exact Or.inr (List.mem_filter.1 h).1
      · rcases List.mem_cons.1 h with h | h
        · exact Or.inl h
        · exact Or.inr (List.mem_filter.1 h).1

/-- Dropping entries keeps the canonical form. -/
theorem filter_wf {α : Type} [DecidableEq α] (d : Nat → α) (p : Nat × α → Bool) (t : Tab α)
    (h : tabWf d t = true) : tabWf d (t.filter p) = true := by
  induction t with
  | nil => rfl
  | cons a r ih =>
    obtain ⟨k, v⟩ := a
    obtain ⟨h1, h2, h3⟩ := (tabWf_cons d k v r).1 h
    rw [List.filter_cons]
    split
    · exact (tabWf_cons ..).2 ⟨h1, fun e he => h2 e (List.mem_filter.1 he).1, ih h3⟩
    · exact ih h3

/-- A write keeps the canonical form. -/
theorem tset_wf {α : Type} [DecidableEq α] (d : Nat → α) (t : Tab α) (k : Nat) (v : α)
    (h : tabWf d t = true) : tabWf d (tset (d k) t k v) = true := by
  induction t with
  | nil => simp only [tset]; split <;> simp_all [tabWf]
  | cons a r ih =>
    obtain ⟨k', v'⟩ := a
    obtain ⟨h1, h2, h3⟩ := (tabWf_cons d k' v' r).1 h
    simp only [tset]
    split
    · rename_i hk
      refine (tabWf_cons ..).2 ⟨h1, ?_, ih h3⟩
      intro e he
      rcases mem_tset _ _ _ _ _ he with rfl | he
      · exact hk
      · exact h2 e he
    · split
      · exact filter_wf d _ _ h
      · rename_i hk hv
        refine (tabWf_cons ..).2 ⟨hv, ?_, filter_wf d _ _ h⟩
        intro e he
        obtain ⟨he, hne⟩ := List.mem_filter.1 he
        have hle : k ≤ e.1 := by
          rcases List.mem_cons.1 he with rfl | he
          · exact Nat.le_of_not_lt hk
          · exact le_of_lt (lt_of_le_of_lt (Nat.le_of_not_lt hk) (h2 e he))
        exact lt_of_le_of_ne hle fun e' => (of_decide_eq_true hne) e'.symm

/-- The canonical form depends only on the defaults of the listed keys. -/
theorem tabWf_congr {α : Type} [DecidableEq α] (d d' : Nat → α) (t : Tab α) (h : tabWf d t = true)
    (hd : ∀ e ∈ t, d' e.1 = d e.1) : tabWf d' t = true := by
  induction t with
  | nil => rfl
  | cons a r ih =>
    obtain ⟨k, v⟩ := a
    obtain ⟨h1, h2, h3⟩ := (tabWf_cons d k v r).1 h
    refine (tabWf_cons ..).2 ⟨?_, h2, ih h3 fun e he => hd e (List.mem_cons_of_mem _ he)⟩
    rw [hd (k, v) (List.mem_cons_self ..)]
    exact h1

/-- A key that no entry has reads the default. -/
theorem tget_none {α : Type} (d : α) (t : Tab α) (k : Nat) (h : ∀ e ∈ t, e.1 ≠ k) : tget d t k = d := by
  induction t with
  | nil => rfl
  | cons a r ih =>
    rw [tget_cons, if_neg (h a (List.mem_cons_self ..))]
    exact ih fun e he => h e (List.mem_cons_of_mem _ he)

theorem tget_tdrop_same {α : Type} (d : α) (t : Tab α) (k : Nat) : tget d (tdrop t k) k = d :=
  tget_none d _ k fun _ he => of_decide_eq_true (List.mem_filter.1 he).2

theorem tget_tdrop_other {α : Type} (d : α) (t : Tab α) (k j : Nat) (hj : j ≠ k) : tget d (tdrop t k) j = tget d t j := by
  induction t with
  | nil => rfl
  | cons a r ih =>
    obtain ⟨k', v⟩ := a
    unfold tdrop at ih ⊢
    rw [List.filter_cons]
    by_cases h : k' = k
    · rw [if_neg (by simp [h]), ih, tget_cons, if_neg (by omega)]
    · rw [if_pos (by simp [h]), tget_cons, tget_cons, ih]

/-- A read after a write to the same key gives the value written. -/
@[simp] theorem tget_tset_same {α : Type} [DecidableEq α] (d : α) (t : Tab α) (k : Nat) (v : α) :
    tget d (tset d t k v) k = v := by
  induction t with
  | nil =>
    simp only [tset]
    split
    · simp_all
    · simp [tget_cons]
  | cons a r ih =>
    obtain ⟨k', v'⟩ := a
    simp only [tset]
    split
    · rw [tget_cons, if_neg (by omega), ih]
    · split
      · rename_i hv
        rw [tget_tdrop_same, hv]
      · simp [tget_cons]

/-- A write leaves every other key alone. -/
theorem tget_tset_other {α : Type} [DecidableEq α] (d : α) (t : Tab α) (k : Nat) (v : α) (j : Nat) (x : α)
    (hj : j ≠ k) : tget x (tset d t k v) j = tget x t j := by
  induction t with
  | nil =>
    simp only [tset]
    split
    · rfl
    · rw [tget_cons, if_neg (fun e => hj e.symm)]
  | cons a r ih =>
    obtain ⟨k', v'⟩ := a
    simp only [tset]
    split
    · rw [tget_cons, tget_cons, ih]
    · split
      · exact tget_tdrop_other _ _ _ _ hj
      · rw [tget_cons, if_neg (fun e => hj e.symm), tget_tdrop_other _ _ _ _ hj]

/-- The numbers below n are those that upTo lists. -/
@[simp] theorem mem_upTo (n x : Nat) : x ∈ upTo n ↔ x < n := by
  simp only [upTo, List.mem_filter, List.mem_flatMap, List.mem_map, List.mem_range, decide_eq_true_eq]
  constructor
  · exact fun h => h.2
  · exact fun h => ⟨⟨x / 64, by omega, x % 64, by omega, by omega⟩, h⟩

end Sys2Proof.Machine
end

