-- ==== Sys2Proof/Laws/Frame.lean ====
section
/-! SUPPORT. What an operation can do, said once: `Fr m s t` says that t comes from s by an operation that
writes at most the parts of State in the mask m, takes no command, keeps the variant, lets no time run back
and keeps a sound state sound. The lemmas below compose such facts along the text of an operation. -/
/- Proofs of this file are elaborated one after another: side by side, their waiting threads' stacks
together pass the memory limit of the check. -/
set_option Elab.async false
namespace Sys2Proof.Machine

/-- The parts of State are numbered freeCtr 0, regs 1, out 2, boot 3, pwr 4, opt 5, lnk 6, sw 7, tbl 8, cru 9,
plan 10, coll 11, mem 12, tim 13, hif 14, hlt 15, cnt 16, now 17. -/
structure Fr (m : Nat) (s t : State) : Prop where
  pending : t.pending = s.pending
  variant : t.variant = s.variant
  later : s.now ≤ t.now
  sound : Sound s → Sound t
  freeCtr : m.testBit 0 = false → t.freeCtr = s.freeCtr
  regs : m.testBit 1 = false → t.regs = s.regs
  out : m.testBit 2 = false → t.out = s.out
  boot : m.testBit 3 = false → t.boot = s.boot
  pwr : m.testBit 4 = false → t.pwr = s.pwr
  opt : m.testBit 5 = false → t.opt = s.opt
  lnk : m.testBit 6 = false → t.lnk = s.lnk
  sw : m.testBit 7 = false → t.sw = s.sw
  tbl : m.testBit 8 = false → t.tbl = s.tbl
  cru : m.testBit 9 = false → t.cru = s.cru
  plan : m.testBit 10 = false → t.plan = s.plan
  coll : m.testBit 11 = false → t.coll = s.coll
  mem : m.testBit 12 = false → t.mem = s.mem
  tim : m.testBit 13 = false → t.tim = s.tim
  hif : m.testBit 14 = false → t.hif = s.hif
  hlt : m.testBit 15 = false → t.hlt = s.hlt
  cnt : m.testBit 16 = false → t.cnt = s.cnt
  now : m.testBit 17 = false → t.now = s.now

theorem Fr.refl (m : Nat) (s : State) : Fr m s s := by constructor <;> intros <;> first | rfl | assumption

theorem sub_bit {m n k : Nat} (h : Nat.land m n = m) (hn : n.testBit k = false) : m.testBit k = false := by
  have e : (m &&& n).testBit k = m.testBit k := congrArg (fun x => x.testBit k) h
  rw [Nat.testBit_and, hn, Bool.and_false] at e
  exact e.symm

/-- One more operation: what it writes lies within the mask. -/
theorem Fr.step {m n : Nat} {s x y : State} (h : Fr m x y) (ih : Fr n s x)
    (hm : Nat.land m n = m := by decide) : Fr n s y where
  pending := h.pending.trans ih.pending
  variant := h.variant.trans ih.variant
  later := le_trans ih.later h.later
  sound k := h.sound (ih.sound k)
  freeCtr k := (h.freeCtr (sub_bit hm k)).trans (ih.freeCtr k)
  regs k := (h.regs (sub_bit hm k)).trans (ih.regs k)
  out k := (h.out (sub_bit hm k)).trans (ih.out k)
  boot k := (h.boot (sub_bit hm k)).trans (ih.boot k)
  pwr k := (h.pwr (sub_bit hm k)).trans (ih.pwr k)
  opt k := (h.opt (sub_bit hm k)).trans (ih.opt k)
  lnk k := (h.lnk (sub_bit hm k)).trans (ih.lnk k)
  sw k := (h.sw (sub_bit hm k)).trans (ih.sw k)
  tbl k := (h.tbl (sub_bit hm k)).trans (ih.tbl k)
  cru k := (h.cru (sub_bit hm k)).trans (ih.cru k)
  plan k := (h.plan (sub_bit hm k)).trans (ih.plan k)
  coll k := (h.coll (sub_bit hm k)).trans (ih.coll k)
  mem k := (h.mem (sub_bit hm k)).trans (ih.mem k)
  tim k := (h.tim (sub_bit hm k)).trans (ih.tim k)
  hif k := (h.hif (sub_bit hm k)).trans (ih.hif k)
  hlt k := (h.hlt (sub_bit hm k)).trans (ih.hlt k)
  cnt k := (h.cnt (sub_bit hm k)).trans (ih.cnt k)
  now k := (h.now (sub_bit hm k)).trans (ih.now k)

theorem Fr.mono {m n : Nat} {x y : State} (h : Fr m x y) (hm : Nat.land m n = m := by decide) : Fr n x y :=
  h.step (Fr.refl n x) hm

theorem Fr.ite {m : Nat} {s a b : State} {c : Prop} [Decidable c] (ha : Fr m s a) (hb : Fr m s b) :
    Fr m s (if c then a else b) := by split <;> assumption

theorem Fr.foldl {α : Type} {m : Nat} {s x : State} (l : List α) (f : State → α → State)
    (hf : ∀ y a, Fr m y (f y a)) (ih : Fr m s x) : Fr m s (l.foldl f x) := by
  induction l generalizing x with
  | nil => exact ih
  | cons a l h => exact h ((hf x a).step ih (Nat.and_self m))

theorem Fr.forEach {α : Type} {m : Nat} {s x : State} (l : List α) (f : State → α → State)
    (hf : ∀ y a, Fr m y (f y a)) (ih : Fr m s x) : Fr m s (forEach l x f) := Fr.foldl l f hf ih

/-- A fold over a state and something beside it. -/
theorem Fr.foldl1 {α β : Type} {m : Nat} {s : State} {x : State × β} (l : List α) (f : State × β → α → State × β)
    (hf : ∀ y a, Fr m y.1 (f y a).1) (ih : Fr m s x.1) : Fr m s (l.foldl f x).1 := by
  induction l generalizing x with
  | nil => exact ih
  | cons a l h => exact h ((hf x a).step ih (Nat.and_self m))

/-- A record update that leaves the registers, the lines of memory, the straps and EPOCH alone. -/
theorem Fr.upd {m : Nat} {s x : State} {nw fc : Nat} {rg : Tab Word} {ou : List Output} {bo : Boot} {pw : Pwr}
    {op : Opt} {ln : Lnk} {sw : Sw} {tb : Tbl} {cr : Cru} {pl : PlanSt} {co : Coll} {me : Mem} {ti : Tim} {hi : Hif}
    {hl : Hlt} {cn : Cnt} (ih : Fr m s x) (hrg : rg = x.regs := by rfl)
    (hbl : bo.strapBl2 = x.boot.strapBl2 := by rfl)
    (hli : me.lines = x.mem.lines := by rfl) (hre : me.relief.map (·.rows) = x.mem.relief.map (·.rows) := by rfl)
    (hep : hi.epoch = x.hif.epoch := by rfl) (hnw : x.now ≤ nw := by exact le_refl _)
    (h0 : m.testBit 0 = true ∨ fc = x.freeCtr
      := by first | exact Or.inr rfl | exact Or.inl (by decide))
    (h2 : m.testBit 2 = true ∨ ou = x.out
      := by first | exact Or.inr rfl | exact Or.inl (by decide))
    (h3 : m.testBit 3 = true ∨ bo = x.boot
      := by first | exact Or.inr rfl | exact Or.inl (by decide))
    (h4 : m.testBit 4 = true ∨ pw = x.pwr
      := by first | exact Or.inr rfl | exact Or.inl (by decide))
    (h5 : m.testBit 5 = true ∨ op = x.opt
      := by first | exact Or.inr rfl | exact Or.inl (by decide))
    (h6 : m.testBit 6 = true ∨ ln = x.lnk
      := by first | exact Or.inr rfl | exact Or.inl (by decide))
    (h7 : m.testBit 7 = true ∨ sw = x.sw
      := by first | exact Or.inr rfl | exact Or.inl (by decide))
    (h8 : m.testBit 8 = true ∨ tb = x.tbl
      := by first | exact Or.inr rfl | exact Or.inl (by decide))
    (h9 : m.testBit 9 = true ∨ cr = x.cru
      := by first | exact Or.inr rfl | exact Or.inl (by decide))
    (h10 : m.testBit 10 = true ∨ pl = x.plan
      := by first | exact Or.inr rfl | exact Or.inl (by decide))
    (h11 : m.testBit 11 = true ∨ co = x.coll
      := by first | exact Or.inr rfl | exact Or.inl (by decide))
    (h12 : m.testBit 12 = true ∨ me = x.mem
      := by first | exact Or.inr rfl | exact Or.inl (by decide))
    (h13 : m.testBit 13 = true ∨ ti = x.tim
      := by first | exact Or.inr rfl | exact Or.inl (by decide))
    (h14 : m.testBit 14 = true ∨ hi = x.hif
      := by first | exact Or.inr rfl | exact Or.inl (by decide))
    (h15 : m.testBit 15 = true ∨ hl = x.hlt
      := by first | exact Or.inr rfl | exact Or.inl (by decide))
    (h16 : m.testBit 16 = true ∨ cn = x.cnt
      := by first | exact Or.inr rfl | exact Or.inl (by decide))
    (h17 : m.testBit 17 = true ∨ nw = x.now
      := by first | exact Or.inr rfl | exact Or.inl (by decide)) :
    Fr m s ⟨x.pending, nw, fc, x.variant, rg, ou, bo, pw, op, ln, sw, tb, cr, pl, co, me, ti, hi, hl, cn⟩ := by
  have or2 : ∀ {k : Nat} {p : Prop}, m.testBit k = true ∨ p → m.testBit k = false → p :=
    fun h k => h.resolve_left (by simp [k])
  subst hrg
  refine Fr.step (m := m) (x := x) ?_ ih (Nat.and_self m)
  have rows : ∀ (l l' : List Relief), l.map (·.rows) = l'.map (·.rows) →
      l.foldl (fun n r => n + r.rows) 0 = l'.foldl (fun n r => n + r.rows) 0 := by
    intro l l' h
    have e : ∀ (l : List Relief) (n : Nat), l.foldl (fun n r => n + r.rows) n = (l.map (·.rows)).foldl (· + ·) n := by
      intro l
      induction l with
      | nil => intro n; rfl
      | cons a l ih => intro n; exact ih _
    rw [e, e, h]
  exact {
    pending := rfl, variant := rfl, later := hnw
    sound := by
      rintro ⟨h1, h2, h3⟩
      refine ⟨?_, ?_, ?_⟩
      · simpa only [regsWf, hbl] using h1
      · have e : lineDef ⟨x.pending, nw, fc, x.variant, x.regs, ou, bo, pw, op, ln, sw, tb, cr, pl, co, me, ti, hi, hl, cn⟩
            = lineDef x := by
          funext k
          have e : reliefRows ⟨x.pending, nw, fc, x.variant, x.regs, ou, bo, pw, op, ln, sw, tb, cr, pl, co, me, ti, hi, hl, cn⟩
              = reliefRows x := rows _ _ hre
          unfold lineDef reliefBase
          rw [e]
        simp only [linesWf, e, hli]
        exact h2
      · simpa only [epochOk, hep] using h3
    freeCtr := or2 h0, regs := fun _ => rfl, out := or2 h2, boot := or2 h3, pwr := or2 h4, opt := or2 h5
    lnk := or2 h6, sw := or2 h7, tbl := or2 h8, cru := or2 h9, plan := or2 h10, coll := or2 h11, mem := or2 h12
    tim := or2 h13, hif := or2 h14, hlt := or2 h15, cnt := or2 h16, now := or2 h17 }

/-! One record update of one part of the state. -/

theorem Fr.put_freeCtr {m : Nat} {s x : State} (v : Nat) (ih : Fr m s x)
    (h : m.testBit 0 = true := by decide) : Fr m s { x with freeCtr := v } := Fr.upd ih (h0 := .inl h)

theorem Fr.put_out {m : Nat} {s x : State} (v : List Output) (ih : Fr m s x)
    (h : m.testBit 2 = true := by decide) : Fr m s { x with out := v } := Fr.upd ih (h2 := .inl h)

theorem Fr.put_boot {m : Nat} {s x : State} (v : Boot) (ih : Fr m s x)
    (hb : v.strapBl2 = x.boot.strapBl2 := by rfl)
    (h : m.testBit 3 = true := by decide) : Fr m s { x with boot := v } := Fr.upd ih (h3 := .inl h) (hbl := hb)

theorem Fr.put_pwr {m : Nat} {s x : State} (v : Pwr) (ih : Fr m s x)
    (h : m.testBit 4 = true := by decide) : Fr m s { x with pwr := v } := Fr.upd ih (h4 := .inl h)

theorem Fr.put_opt {m : Nat} {s x : State} (v : Opt) (ih : Fr m s x)
    (h : m.testBit 5 = true := by decide) : Fr m s { x with opt := v } := Fr.upd ih (h5 := .inl h)

theorem Fr.put_lnk {m : Nat} {s x : State} (v : Lnk) (ih : Fr m s x)
    (h : m.testBit 6 = true := by decide) : Fr m s { x with lnk := v } := Fr.upd ih (h6 := .inl h)

theorem Fr.put_sw {m : Nat} {s x : State} (v : Sw) (ih : Fr m s x)
    (h : m.testBit 7 = true := by decide) : Fr m s { x with sw := v } := Fr.upd ih (h7 := .inl h)

theorem Fr.put_tbl {m : Nat} {s x : State} (v : Tbl) (ih : Fr m s x)
    (h : m.testBit 8 = true := by decide) : Fr m s { x with tbl := v } := Fr.upd ih (h8 := .inl h)

theorem Fr.put_cru {m : Nat} {s x : State} (v : Cru) (ih : Fr m s x)
    (h : m.testBit 9 = true := by decide) : Fr m s { x with cru := v } := Fr.upd ih (h9 := .inl h)

theorem Fr.put_plan {m : Nat} {s x : State} (v : PlanSt) (ih : Fr m s x)
    (h : m.testBit 10 = true := by decide) : Fr m s { x with plan := v } := Fr.upd ih (h10 := .inl h)

theorem Fr.put_coll {m : Nat} {s x : State} (v : Coll) (ih : Fr m s x)
    (h : m.testBit 11 = true := by decide) : Fr m s { x with coll := v } := Fr.upd ih (h11 := .inl h)

theorem Fr.put_mem {m : Nat} {s x : State} (v : Mem) (ih : Fr m s x)
    (hl : v.lines = x.mem.lines := by rfl) (hr : v.relief.map (·.rows) = x.mem.relief.map (·.rows) := by rfl)
    (h : m.testBit 12 = true := by decide) : Fr m s { x with mem := v } := Fr.upd ih (h12 := .inl h) (hli := hl) (hre := hr)

theorem Fr.put_tim {m : Nat} {s x : State} (v : Tim) (ih : Fr m s x)
    (h : m.testBit 13 = true := by decide) : Fr m s { x with tim := v } := Fr.upd ih (h13 := .inl h)

theorem Fr.put_hif {m : Nat} {s x : State} (v : Hif) (ih : Fr m s x)
    (he : v.epoch = x.hif.epoch := by rfl)
    (h : m.testBit 14 = true := by decide) : Fr m s { x with hif := v } := Fr.upd ih (h14 := .inl h) (hep := he)

theorem Fr.put_hlt {m : Nat} {s x : State} (v : Hlt) (ih : Fr m s x)
    (h : m.testBit 15 = true := by decide) : Fr m s { x with hlt := v } := Fr.upd ih (h15 := .inl h)

theorem Fr.put_cnt {m : Nat} {s x : State} (v : Cnt) (ih : Fr m s x)
    (h : m.testBit 16 = true := by decide) : Fr m s { x with cnt := v } := Fr.upd ih (h16 := .inl h)

theorem Fr.put_now {m : Nat} {s x : State} (v : Nat) (ih : Fr m s x) (hv : x.now ≤ v)
    (h : m.testBit 17 = true := by decide) : Fr m s { x with now := v } := Fr.upd ih (hnw := hv) (h17 := .inl h)

/-! Operations that answer more than a state, or none. -/

theorem Fr.ite1 {β : Type} {m : Nat} {s : State} {a b : State × β} {c : Prop} [Decidable c] (ha : Fr m s a.1)
    (hb : Fr m s b.1) : Fr m s (if c then a else b).1 := by split <;> assumption

/-- An operation that may answer none: what it answers comes from s. -/
def FrO (m : Nat) (s : State) (o : Option State) : Prop := ∀ t, o = some t → Fr m s t

theorem FrO.none {m : Nat} {s : State} : FrO m s none := fun _ h => nomatch h
theorem FrO.some {m : Nat} {s t : State} (h : Fr m s t) : FrO m s (some t) := fun _ e => by cases e; exact h
theorem FrO.ite {m : Nat} {s : State} {a b : Option State} {c : Prop} [Decidable c] (ha : FrO m s a) (hb : FrO m s b) :
    FrO m s (if c then a else b) := by split <;> assumption
theorem FrO.mono {m n : Nat} {s : State} {o : Option State} (h : FrO m s o)
    (hm : Nat.land m n = m := by decide) : FrO n s o :=
  fun t e => (h t e).mono hm

end Sys2Proof.Machine
end

