-- ==== Sys2Proof/Laws/RegFile.lean ====
section
/-! SUPPORT. The register file (R12 to R15): a store keeps it canonical and its reserved bits at their reset
values; what a read finds after a store. -/
/- Proofs of this file are elaborated one after another: side by side, their waiting threads' stacks
together pass the memory limit of the check. -/
set_option Elab.async false
namespace Sys2Proof.Machine

theorem reset_ite {c : Prop} [Decidable c] {a b : RegInfo} (ha : a.reset < 2 ^ 64) (hb : b.reset < 2 ^ 64) :
    (if c then a else b).reset < 2 ^ 64 := by split <;> assumption

/-- Every reset value fits its 64 bits. -/
theorem regInfo_reset_lt (v : Variant) (b : Bool) (off : Nat) : (regInfo v b off).reset < 2 ^ 64 := by
  have ring : ∀ k p o, p < 256 → (regInfoRing k p o).reset < 2 ^ 64 := by
    intro k p o hp
    unfold regInfoRing
    refine reset_ite (by decide) (reset_ite ?_ (reset_ite (by decide) (by decide)))
    split
    · simp only [at_, Nat.shiftLeft_eq]
      omega
    all_goals decide
  unfold regInfo
  repeat' with_reducible refine reset_ite ?_ ?_
  · unfold regInfoLow
    repeat' with_reducible refine reset_ite ?_ ?_
    all_goals decide
  · unfold regInfoHif
    refine reset_ite (by decide) ?_
    split
    · exact ring _ _ _ (by omega)
    split
    · exact ring _ _ _ (by omega)
    split
    · exact ring _ _ _ (by omega)
    split
    · exact ring _ _ _ (by omega)
    split
    · exact ring _ _ _ (by omega)
    exact reset_ite (by decide) (by decide)
  · unfold regInfoOpt
    repeat' with_reducible refine reset_ite ?_ ?_
    all_goals decide
  · unfold regInfoSwitch
    repeat' with_reducible refine reset_ite ?_ ?_
    all_goals decide
  · unfold regInfoHigh
    repeat' with_reducible refine reset_ite ?_ ?_
    all_goals decide
  · unfold regInfoHealth
    repeat' with_reducible refine reset_ite ?_ ?_
    all_goals decide

/-- The straps do not change which bits survive a warm reset. -/
theorem regInfo_rws (v : Variant) (b b' : Bool) (off : Nat) : (regInfo v b off).rws = (regInfo v b' off).rws := by
  unfold regInfo
  split
  · rfl
  · split
    · rfl
    · split
      · unfold regInfoOpt
        repeat' split
        all_goals rfl
      · rfl

theorem ones_testBit (k : Nat) : ones.testBit k = decide (k < 64) := Nat.testBit_two_pow_sub_one 64 k

theorem testBit_ofNat64 (x k : Nat) : (BitVec.ofNat 64 x).toNat.testBit k = (decide (k < 64) && x.testBit k) := by
  rw [BitVec.toNat_ofNat, Nat.testBit_mod_two_pow]

theorem lt64_testBit {x k : Nat} (h : x < 2 ^ 64) (hk : ¬ k < 64) : x.testBit k = false :=
  Nat.testBit_lt_two_pow (lt_of_lt_of_le h (Nat.pow_le_pow_right (by norm_num) (Nat.le_of_not_lt hk)))

theorem regClip_testBit (i : RegInfo) (v k : Nat) :
    (regClip i v).testBit k = ((i.reset.testBit k && (ones.testBit k != (regBits i).testBit k))
      || (v.testBit k && (regBits i).testBit k)) := by
  simp only [regClip, Nat.testBit_or, Nat.testBit_and, Nat.testBit_xor]

/-- A clipped value stays as it is when it is clipped again, also once it is held in 64 bits. -/
theorem regClip_stored (i : RegInfo) (h : i.reset < 2 ^ 64) (v : Nat) :
    regClip i (BitVec.ofNat 64 (regClip i v)).toNat = (BitVec.ofNat 64 (regClip i v)).toNat := by
  apply Nat.eq_of_testBit_eq
  intro k
  rw [regClip_testBit, testBit_ofNat64, regClip_testBit, ones_testBit]
  by_cases hk : k < 64
  · simp only [hk, decide_true]
    cases i.reset.testBit k <;> cases (regBits i).testBit k <;> cases v.testBit k <;> rfl
  · simp [hk, lt64_testBit h hk]

/-- A value that keeps the reserved bits of the reset value is a clipped one. -/
theorem regClip_sticky (i : RegInfo) (w e : Nat) (h : i.reset < 2 ^ 64)
    (hw : ∀ k, w.testBit k = true → (regBits i).testBit k = true) :
    regClip i (BitVec.ofNat 64 ((i.reset &&& (ones ^^^ w)) ||| (e &&& w))).toNat
      = (BitVec.ofNat 64 ((i.reset &&& (ones ^^^ w)) ||| (e &&& w))).toNat := by
  apply Nat.eq_of_testBit_eq
  intro k
  simp only [regClip_testBit, testBit_ofNat64, Nat.testBit_or, Nat.testBit_and, Nat.testBit_xor, ones_testBit]
  by_cases hk : k < 64
  · have := hw k
    simp only [hk, decide_true]
    revert this
    cases i.reset.testBit k <;> cases (regBits i).testBit k <;> cases w.testBit k <;> cases e.testBit k <;> simp
  · simp [hk, lt64_testBit h hk]

theorem rws_bits (i : RegInfo) (k : Nat) (h : i.rws.testBit k = true) : (regBits i).testBit k = true := by
  simp [regBits, h]

/-- The register part of a sound state, over its own arguments. -/
def fileWf (v : Variant) (b : Bool) (r : Tab Word) : Bool :=
  tabWf (fun off => regReset v b off) r
    && r.all fun e => decide (regClip (regInfo v b e.1) e.2.toNat = e.2.toNat)

theorem regsWf_eq (s : State) : regsWf s = fileWf s.variant s.boot.strapBl2 s.regs := rfl

theorem fileWf_tset {v : Variant} {b : Bool} {r : Tab Word} {off : Nat} {w : Word} (h : fileWf v b r = true)
    (hw : regClip (regInfo v b off) w.toNat = w.toNat) : fileWf v b (tset (regReset v b off) r off w) = true := by
  simp only [fileWf, Bool.and_eq_true, List.all_eq_true, decide_eq_true_eq] at h ⊢
  refine ⟨tset_wf (fun off => regReset v b off) r off w h.1, ?_⟩
  intro e he
  rcases mem_tset _ _ _ _ _ he with rfl | he
  · exact hw
  · exact h.2 e he

/-- What a warm reset keeps is a register file of the straps then sampled. -/
theorem keepSticky_wf (s : State) (b : Bool) : fileWf s.variant b (keepSticky s b) = true := by
  have key : ∀ (l : Tab Word) (t : Tab Word), fileWf s.variant b t = true →
      fileWf s.variant b (l.foldl (fun t e =>
        tset (regReset s.variant b e.1) t e.1 (BitVec.ofNat 64
          (((regReset s.variant b e.1).toNat &&& (ones ^^^ (regInfo s.variant s.boot.strapBl2 e.1).rws))
            ||| (e.2.toNat &&& (regInfo s.variant s.boot.strapBl2 e.1).rws)))) t) = true := by
    intro l
    induction l with
    | nil => intro t h; exact h
    | cons e l ih =>
      intro t h
      refine ih _ (fileWf_tset h ?_)
      have hr : (regReset s.variant b e.1).toNat = (regInfo s.variant b e.1).reset := by
        rw [regReset, BitVec.toNat_ofNat, Nat.mod_eq_of_lt (regInfo_reset_lt ..)]
      rw [hr, regInfo_rws s.variant s.boot.strapBl2 b]
      exact regClip_sticky _ _ _ (regInfo_reset_lt ..) (rws_bits _)
  exact key s.regs [] rfl

theorem Sound.of_regs {s t : State} (h : Sound s) (hr : fileWf t.variant t.boot.strapBl2 t.regs = true)
    (hm : t.mem = s.mem) (hh : t.hif = s.hif) : Sound t := by
  obtain ⟨_, h2, h3⟩ := h
  refine ⟨hr, ?_, ?_⟩
  · have : lineDef t = lineDef s := by
      funext k
      have e : reliefBase t = reliefBase s := by unfold reliefBase reliefRows; rw [hm]
      unfold lineDef
      rw [e]
    simp only [linesWf, this, hm]
    exact h2
  · simp only [epochOk, hh]
    exact h3

/-- A register's store writes the register file alone. -/
theorem putR_fr (s : State) (off : Nat) (v : Word) : Fr 2 s (putR s off v) := by
  constructor
  case sound =>
    intro h
    refine h.of_regs ?_ rfl rfl
    exact fileWf_tset (v := s.variant) (b := s.boot.strapBl2) h.1 (regClip_stored _ (regInfo_reset_lt ..) _)
  case later => exact le_refl _
  case regs => intro h; exact absurd h (by decide)
  all_goals first | rfl | (intro _; rfl)


/-- A read after a store finds the value with its reserved bits at their reset values (R12). -/
theorem getR_putR (s : State) (off : Nat) (v : Word) :
    getR (putR s off v) off = BitVec.ofNat 64 (regClip (regInfo s.variant s.boot.strapBl2 off) v.toNat) :=
  tget_tset_same _ _ _ _

/-- A store leaves every other register alone. -/
theorem getR_putR_other (s : State) (off off' : Nat) (v : Word) (hne : off' ≠ off) :
    getR (putR s off v) off' = getR s off' :=
  tget_tset_other _ _ _ _ _ _ hne

end Sys2Proof.Machine
end

