-- ==== Sys2Proof/Laws/FrBase.lean ====
section
/-! SUPPORT. What each operation of shared operations, registers, rings, resets, tables and memory lines can do, by Laws/Frame.lean. -/
/- Proofs of this file are elaborated one after another: side by side, their waiting threads' stacks
together pass the memory limit of the check. -/
set_option Elab.async false
namespace Sys2Proof.Machine

theorem await_fr (s : State) (t : Nat) (d : Nat) : Fr 131072 s (await s t d) := by
  unfold await
  try dsimp only
  repeat' first
    | with_reducible apply Fr.refl
    | with_reducible apply Fr.ite
    | (with_reducible apply Fr.put_now _ ?_ (by first | exact le_max_left _ _ | exact Nat.le_add_right _ _); first | with_reducible apply Fr.refl | with_reducible apply Fr.ite | split)
    | split
    | dsimp only

theorem awaitOpt_fr (s : State) (t : Option Nat) (d : Nat) : Fr 131072 s (awaitOpt s t d) := by
  unfold awaitOpt
  try dsimp only
  repeat' first
    | with_reducible apply Fr.refl
    | with_reducible apply Fr.ite
    | with_reducible apply Fr.step (await_fr _ _ _) ?_
    | split
    | dsimp only

theorem awaitNt_fr (s : State) (t : Nat) : Fr 131072 s (awaitNt s t) := by
  unfold awaitNt
  try dsimp only
  repeat' first
    | with_reducible apply Fr.refl
    | with_reducible apply Fr.ite
    | with_reducible apply Fr.step (await_fr _ _ _) ?_
    | split
    | dsimp only

theorem takeFree_fr (s : State) : Fr 1 s (takeFree s) := by
  unfold takeFree
  try dsimp only
  repeat' first
    | with_reducible apply Fr.refl
    | with_reducible apply Fr.ite
    | (with_reducible apply Fr.put_freeCtr _ ?_; first | with_reducible apply Fr.refl | with_reducible apply Fr.ite | split)
    | split
    | dsimp only

theorem emit_fr (s : State) (o : Output) : Fr 4 s (emit s o) := by
  unfold emit
  try dsimp only
  repeat' first
    | with_reducible apply Fr.refl
    | with_reducible apply Fr.ite
    | (with_reducible apply Fr.put_out _ ?_; first | with_reducible apply Fr.refl | with_reducible apply Fr.ite | split)
    | split
    | dsimp only

theorem emitAll_fr (s : State) (l : List Output) : Fr 4 s (emitAll s l) := by
  unfold emitAll
  try dsimp only
  repeat' first
    | with_reducible apply Fr.refl
    | with_reducible apply Fr.ite
    | (with_reducible apply Fr.put_out _ ?_; first | with_reducible apply Fr.refl | with_reducible apply Fr.ite | split)
    | split
    | dsimp only

theorem setLink_fr (s : State) (l : Nat) (v : Link) : Fr 64 s (setLink s l v) := by
  unfold setLink
  try dsimp only
  repeat' first
    | with_reducible apply Fr.refl
    | with_reducible apply Fr.ite
    | (with_reducible apply Fr.put_lnk _ ?_; first | with_reducible apply Fr.refl | with_reducible apply Fr.ite | split)
    | split
    | dsimp only

theorem setLane_fr (s : State) (q : Nat) (v : Lane) : Fr 64 s (setLane s q v) := by
  unfold setLane
  try dsimp only
  repeat' first
    | with_reducible apply Fr.refl
    | with_reducible apply Fr.ite
    | (with_reducible apply Fr.put_lnk _ ?_; first | with_reducible apply Fr.refl | with_reducible apply Fr.ite | split)
    | split
    | dsimp only

theorem modLink_fr (s : State) (l : Nat) (f : Link → Link) : Fr 64 s (modLink s l f) := by
  unfold modLink
  try dsimp only
  repeat' first
    | with_reducible apply Fr.refl
    | with_reducible apply Fr.ite
    | with_reducible apply Fr.step (setLink_fr _ _ _) ?_
    | split
    | dsimp only

theorem modLane_fr (s : State) (q : Nat) (f : Lane → Lane) : Fr 64 s (modLane s q f) := by
  unfold modLane
  try dsimp only
  repeat' first
    | with_reducible apply Fr.refl
    | with_reducible apply Fr.ite
    | with_reducible apply Fr.step (setLane_fr _ _ _) ?_
    | split
    | dsimp only

theorem setRf_fr (s : State) (off : Nat) (hi : Nat) (lo : Nat) (v : Nat) : Fr 2 s (setRf s off hi lo v) := by
  unfold setRf
  try dsimp only
  repeat' first
    | with_reducible apply Fr.refl
    | with_reducible apply Fr.ite
    | with_reducible apply Fr.step (putR_fr _ _ _) ?_
    | split
    | dsimp only

theorem writeReg_fr (s : State) (off : Nat) (v : Word) : Fr 2 s (writeReg s off v) := by
  unfold writeReg
  try dsimp only
  repeat' first
    | with_reducible apply Fr.refl
    | with_reducible apply Fr.ite
    | with_reducible apply Fr.step (putR_fr _ _ _) ?_
    | split
    | dsimp only

theorem bumpN_fr (s : State) (i : Nat) (n : Nat) : Fr 65536 s (bumpN s i n) := by
  unfold bumpN
  try dsimp only
  repeat' first
    | with_reducible apply Fr.refl
    | with_reducible apply Fr.ite
    | (with_reducible apply Fr.put_cnt _ ?_; first | with_reducible apply Fr.refl | with_reducible apply Fr.ite | split)
    | split
    | dsimp only

theorem bump_fr (s : State) (i : Nat) : Fr 65536 s (bump s i) := by
  unfold bump
  try dsimp only
  repeat' first
    | with_reducible apply Fr.refl
    | with_reducible apply Fr.ite
    | with_reducible apply Fr.step (bumpN_fr _ _ _) ?_
    | split
    | dsimp only

theorem setRing_fr (s : State) (k : RingKind) (i : Nat) (r : Ring) : Fr 16384 s (setRing s k i r) := by
  unfold setRing
  try dsimp only
  repeat' first
    | with_reducible apply Fr.refl
    | with_reducible apply Fr.ite
    | (with_reducible apply Fr.put_hif _ ?_; first | with_reducible apply Fr.refl | with_reducible apply Fr.ite | split)
    | split
    | dsimp only

theorem modRing_fr (s : State) (k : RingKind) (i : Nat) (f : Ring → Ring) : Fr 16384 s (modRing s k i f) := by
  unfold modRing
  try dsimp only
  repeat' first
    | with_reducible apply Fr.refl
    | with_reducible apply Fr.ite
    | with_reducible apply Fr.step (setRing_fr _ _ _ _) ?_
    | split
    | dsimp only

theorem setMsixWord_fr (s : State) (k : Nat) (v : Word) : Fr 16384 s (setMsixWord s k v) := by
  unfold setMsixWord
  try dsimp only
  repeat' first
    | with_reducible apply Fr.refl
    | with_reducible apply Fr.ite
    | (with_reducible apply Fr.put_hif _ ?_; first | with_reducible apply Fr.refl | with_reducible apply Fr.ite | split)
    | split
    | dsimp only

theorem setPba_fr (s : State) (k : Nat) (b : Bool) : Fr 16384 s (setPba s k b) := by
  unfold setPba
  try dsimp only
  repeat' first
    | with_reducible apply Fr.refl
    | with_reducible apply Fr.ite
    | (with_reducible apply Fr.put_hif _ ?_; first | with_reducible apply Fr.refl | with_reducible apply Fr.ite | split)
    | split
    | dsimp only

theorem raiseMsix_fr (s : State) (f : Func) (v : Nat) : Fr 16388 s (raiseMsix s f v) := by
  unfold raiseMsix
  try dsimp only
  repeat' first
    | with_reducible apply Fr.refl
    | with_reducible apply Fr.ite
    | with_reducible apply Fr.step (setPba_fr _ _ _) ?_
    | with_reducible apply Fr.step (emit_fr _ _) ?_
    | split
    | dsimp only

theorem irqCheck_fr (s : State) (k : RingKind) (i : Nat) : Fr 81924 s (irqCheck s k i) := by
  unfold irqCheck
  try dsimp only
  repeat' first
    | with_reducible apply Fr.refl
    | with_reducible apply Fr.ite
    | with_reducible apply Fr.step (modRing_fr _ _ _ _) ?_
    | with_reducible apply Fr.step (bump_fr _ _) ?_
    | with_reducible apply Fr.step (raiseMsix_fr _ _ _) ?_
    | split
    | dsimp only

theorem writeEntry_fr (s : State) (k : RingKind) (i : Nat) (w0 : Word) (w1 : Word) (w2 : Word) (w3 : Nat) : Fr 81924 s (writeEntry s k i w0 w1 w2 w3) := by
  unfold writeEntry
  try dsimp only
  repeat' first
    | with_reducible apply Fr.refl
    | with_reducible apply Fr.ite
    | with_reducible apply Fr.step (emit_fr _ _) ?_
    | with_reducible apply Fr.step (setRing_fr _ _ _ _) ?_
    | with_reducible apply Fr.step (bump_fr _ _) ?_
    | with_reducible apply Fr.step (irqCheck_fr _ _ _) ?_
    | split
    | dsimp only

theorem eventToRing_fr (s : State) (code : Nat) (part : Nat) (a0 : Nat) (a1 : Nat) (e : Nat) : Fr 81924 s (eventToRing s code part a0 a1 e) := by
  unfold eventToRing
  try dsimp only
  repeat' first
    | with_reducible apply Fr.refl
    | with_reducible apply Fr.ite
    | with_reducible apply Fr.step (modRing_fr _ _ _ _) ?_
    | with_reducible apply Fr.step (writeEntry_fr _ _ _ _ _ _ _) ?_
    | split
    | dsimp only

theorem raiseEvent_fr (s : State) (code : Nat) (part : Nat) (a0 : Nat) (a1 : Nat) : Fr 81924 s (raiseEvent s code part a0 a1) := by
  unfold raiseEvent
  try dsimp only
  repeat' first
    | with_reducible apply Fr.refl
    | with_reducible apply Fr.ite
    | with_reducible apply Fr.forEach _ _ (fun y a => ?_) ?_
    | with_reducible apply Fr.step (bump_fr _ _) ?_
    | with_reducible apply Fr.step (eventToRing_fr _ _ _ _ _ _) ?_
    | (with_reducible apply Fr.put_hif _ ?_; first | with_reducible apply Fr.refl | with_reducible apply Fr.ite | with_reducible apply Fr.forEach _ _ (fun y a => ?_) ?_ | with_reducible apply Fr.step (bump_fr _ _) ?_ | with_reducible apply Fr.step (eventToRing_fr _ _ _ _ _ _) ?_ | split)
    | split
    | dsimp only

theorem countEvent_fr (s : State) (code : Nat) : Fr 65536 s (countEvent s code) := by
  unfold countEvent
  try dsimp only
  repeat' first
    | with_reducible apply Fr.refl
    | with_reducible apply Fr.ite
    | with_reducible apply Fr.step (bump_fr _ _) ?_
    | split
    | dsimp only

theorem writeCompletion_fr (s : State) (k : RingKind) (i : Nat) (c : Nat × Nat × Nat × Nat) : Fr 81924 s (writeCompletion s k i c) := by
  unfold writeCompletion
  try dsimp only
  repeat' first
    | with_reducible apply Fr.refl
    | with_reducible apply Fr.ite
    | with_reducible apply Fr.step (writeEntry_fr _ _ _ _ _ _ _) ?_
    | split
    | dsimp only

theorem complete_fr (s : State) (k : RingKind) (i : Nat) (tag : Nat) (status : Nat) (detail : Nat) (count : Nat) : Fr 81924 s (complete s k i tag status detail count) := by
  unfold complete
  try dsimp only
  repeat' first
    | with_reducible apply Fr.refl
    | with_reducible apply Fr.ite
    | with_reducible apply Fr.step (setRing_fr _ _ _ _) ?_
    | with_reducible apply Fr.step (bump_fr _ _) ?_
    | with_reducible apply Fr.step (modRing_fr _ _ _ _) ?_
    | with_reducible apply Fr.step (writeCompletion_fr _ _ _ _) ?_
    | split
    | dsimp only

theorem releaseHeld_fr (k : RingKind) (i n : Nat) (s : State) : Fr 81924 s (releaseHeld k i n s) := by
  induction n generalizing s with
  | zero => exact Fr.refl _ _
  | succ n ih =>
    unfold releaseHeld
    try dsimp only
    repeat' first
      | with_reducible apply Fr.refl
      | with_reducible apply Fr.ite
      | with_reducible apply Fr.step (ih _) ?_
      | with_reducible apply Fr.step (modRing_fr _ _ _ _) ?_
      | with_reducible apply Fr.step (writeCompletion_fr _ _ _ _) ?_
      | split

theorem unstallProducers_fr (s : State) (cq : Nat) : Fr 81924 s (unstallProducers s cq) := by
  unfold unstallProducers
  try dsimp only
  repeat' first
    | with_reducible apply Fr.refl
    | with_reducible apply Fr.ite
    | with_reducible apply Fr.forEach _ _ (fun y a => ?_) ?_
    | with_reducible apply Fr.step (releaseHeld_fr _ _ _ _) ?_
    | (split <;> try (rename_i h; have e := congrArg Prod.fst h; dsimp only at e; subst e))
    | dsimp only

/-- A change of every part at once. -/
theorem Fr.all {s t : State} (hp : t.pending = s.pending) (hv : t.variant = s.variant) (hn : s.now ≤ t.now)
    (hs : Sound s → Sound t) : Fr 262143 s t := by
  constructor
  case pending => exact hp
  case variant => exact hv
  case later => exact hn
  case sound => exact hs
  all_goals (intro h; exact absurd h (by decide))

theorem advanceEpoch_fr (s : State) : Fr 16384 s (advanceEpoch s) := by
  have e : ∀ x, 1 ≤ x → x ≤ 0xFFFF → 1 ≤ nextEpoch x ∧ nextEpoch x ≤ 0xFFFF := by
    intro x h1 h2
    unfold nextEpoch
    split <;> omega
  constructor
  case later => exact le_refl _
  case sound =>
    rintro ⟨h1, h2, h3⟩
    simp only [epochOk, Bool.and_eq_true, decide_eq_true_eq] at h3
    refine ⟨h1, h2, ?_⟩
    simp only [epochOk, Bool.and_eq_true, decide_eq_true_eq]
    exact e _ h3.1 h3.2
  case hif => intro h; exact absurd h (by decide)
  all_goals first | rfl | (intro _; rfl)

theorem clearMain_fr (s : State) : Fr 262143 s (clearMain s) :=
  Fr.all rfl rfl (le_refl _) fun h => ⟨keepSticky_wf s s.boot.strapBl2, rfl, h.2.2⟩

theorem enterStandby_fr (s : State) : Fr 262143 s (enterStandby s) := by
  unfold enterStandby
  try dsimp only
  repeat' first
    | with_reducible apply Fr.refl
    | with_reducible apply Fr.ite
    | with_reducible apply Fr.step (clearMain_fr _) ?_
    | (with_reducible apply Fr.put_pwr _ ?_; first | with_reducible apply Fr.refl | with_reducible apply Fr.ite | with_reducible apply Fr.step (clearMain_fr _) ?_ | split)
    | split
    | dsimp only

theorem beginStart_fr (s : State) : Fr 8 s (beginStart s) := by
  unfold beginStart
  refine Fr.put_boot _ (Fr.refl _ _) ?_
  dsimp only
  split <;> rfl

theorem warmReset_fr (s : State) (cause : Nat) : Fr 262143 s (warmReset s cause) := by
  unfold warmReset
  try dsimp only
  repeat' first
    | with_reducible apply Fr.refl
    | with_reducible apply Fr.ite
    | with_reducible apply Fr.step (clearMain_fr _) ?_
    | with_reducible apply Fr.step (advanceEpoch_fr _) ?_
    | with_reducible apply Fr.step (beginStart_fr _) ?_
    | (with_reducible apply Fr.upd ?_; first | with_reducible apply Fr.refl | with_reducible apply Fr.ite | with_reducible apply Fr.step (clearMain_fr _) ?_ | with_reducible apply Fr.step (advanceEpoch_fr _) ?_ | with_reducible apply Fr.step (beginStart_fr _) ?_ | split)
    | split
    | dsimp only

theorem coldReset_fr (s : State) : Fr 262143 s (coldReset s) :=
  Fr.all rfl rfl (le_refl _) fun h => ⟨rfl, rfl, ((advanceEpoch_fr s).sound h).2.2⟩

theorem powerOnReset_fr (s : State) : Fr 262143 s (powerOnReset s) :=
  Fr.all rfl rfl (le_refl _) fun _ => ⟨rfl, rfl, rfl⟩

theorem leaveStandby_fr (s : State) (src : Nat) : Fr 262143 s (leaveStandby s src) := by
  unfold leaveStandby
  try dsimp only
  repeat' first
    | with_reducible apply Fr.refl
    | with_reducible apply Fr.ite
    | with_reducible apply Fr.step (warmReset_fr _ _) ?_
    | (with_reducible apply Fr.put_pwr _ ?_; first | with_reducible apply Fr.refl | with_reducible apply Fr.ite | with_reducible apply Fr.step (warmReset_fr _ _) ?_ | split)
    | split
    | dsimp only

theorem leaveRetain_fr (s : State) (src : Nat) : Fr 112 s (leaveRetain s src) := by
  unfold leaveRetain
  try dsimp only
  repeat' first
    | with_reducible apply Fr.refl
    | with_reducible apply Fr.ite
    | with_reducible apply Fr.foldl _ _ (fun y a => ?_) ?_
    | with_reducible apply Fr.foldl1 _ _ (fun y a => ?_) ?_
    | (with_reducible apply Fr.upd ?_; first | with_reducible apply Fr.refl | with_reducible apply Fr.ite | with_reducible apply Fr.foldl _ _ (fun y a => ?_) ?_ | with_reducible apply Fr.foldl1 _ _ (fun y a => ?_) ?_ | split)
    | split
    | dsimp only

theorem wake_fr (s : State) (src : Nat) : Fr 262143 s (wake s src) := by
  unfold wake
  try dsimp only
  repeat' first
    | with_reducible apply Fr.refl
    | with_reducible apply Fr.ite
    | with_reducible apply Fr.step (leaveRetain_fr _ _) ?_
    | with_reducible apply Fr.step (leaveStandby_fr _ _) ?_
    | (with_reducible apply Fr.put_pwr _ ?_; first | with_reducible apply Fr.refl | with_reducible apply Fr.ite | with_reducible apply Fr.step (leaveRetain_fr _ _) ?_ | with_reducible apply Fr.step (leaveStandby_fr _ _) ?_ | split)
    | split
    | dsimp only

theorem queueOs_fr (s : State) (q : Nat) (type : Nat) (body : BitVec 104) : Fr 64 s (queueOs s q type body) := by
  unfold queueOs
  try dsimp only
  repeat' first
    | with_reducible apply Fr.refl
    | with_reducible apply Fr.ite
    | with_reducible apply Fr.step (modLane_fr _ _ _) ?_
    | split
    | dsimp only

theorem sendOs_fr (s : State) (q : Nat) (type : Nat) (body : BitVec 104) : Fr 68 s (sendOs s q type body) := by
  unfold sendOs
  try dsimp only
  repeat' first
    | with_reducible apply Fr.refl
    | with_reducible apply Fr.ite
    | with_reducible apply Fr.step (emit_fr _ _) ?_
    | with_reducible apply Fr.step (queueOs_fr _ _ _ _) ?_
    | split
    | dsimp only

theorem setWindow_fr (s : State) (p : Nat) (w : Window) : Fr 256 s (setWindow s p w) := by
  unfold setWindow
  try dsimp only
  repeat' first
    | with_reducible apply Fr.refl
    | with_reducible apply Fr.ite
    | (with_reducible apply Fr.put_tbl _ ?_; first | with_reducible apply Fr.refl | with_reducible apply Fr.ite | split)
    | split
    | dsimp only

theorem recastLong_fr (s : State) (p : Nat) : Fr 82180 s (recastLong s p) := by
  unfold recastLong
  try dsimp only
  repeat' first
    | with_reducible apply Fr.refl
    | with_reducible apply Fr.ite
    | with_reducible apply Fr.step (raiseEvent_fr _ _ _ _ _) ?_
    | with_reducible apply Fr.step (setWindow_fr _ _ _) ?_
    | split
    | dsimp only

theorem saveBefore_fr (s : State) (part : Nat) (table : Nat) (index : Nat) (value : Nat) : ∀ t, saveBefore s part table index value = some t → Fr 256 s t := by
  show FrO 256 s (saveBefore s part table index value)
  unfold saveBefore
  try dsimp only
  repeat' first
    | with_reducible apply Fr.refl
    | with_reducible apply FrO.none
    | with_reducible apply FrO.some
    | with_reducible apply FrO.ite
    | with_reducible apply Fr.ite
    | (with_reducible apply Fr.put_tbl _ ?_; first | with_reducible apply Fr.refl | with_reducible apply FrO.none | with_reducible apply FrO.some | with_reducible apply FrO.ite | with_reducible apply Fr.ite)

theorem setEm_fr (s : State) (i : Nat) (e : EmEntry) : Fr 256 s (setEm s i e) := by
  unfold setEm
  try dsimp only
  repeat' first
    | with_reducible apply Fr.refl
    | with_reducible apply Fr.ite
    | (with_reducible apply Fr.put_tbl _ ?_; first | with_reducible apply Fr.refl | with_reducible apply Fr.ite | split)
    | split
    | dsimp only

theorem emChain_fr (n : Nat) (s : State) (fr : List (Nat × List Nat)) (seen : List Nat) :
    Fr 1 s (emChain n s fr seen).1 := by
  induction n generalizing s fr seen with
  | zero => exact Fr.refl _ _
  | succ n ih =>
    unfold emChain
    split
    · exact Fr.refl _ _
    · dsimp only
      split
      · exact Fr.step (ih _ _ _) (takeFree_fr s)
      · exact Fr.step (takeFree_fr _) (takeFree_fr s)

theorem emMoves_fr (l : List Nat) (s : State) : Fr 65792 s (emMoves l s) := by
  induction l generalizing s with
  | nil => exact Fr.refl _ _
  | cons a l ih =>
    cases l with
    | nil => exact Fr.refl _ _
    | cons b r =>
      unfold emMoves
      exact Fr.step (ih _) (Fr.step (bump_fr _ _) (Fr.step (setEm_fr _ _ _) (Fr.mono (setEm_fr _ _ _))))

theorem emPlace_fr (s : State) (e : EmEntry) : Fr 65793 s (emPlace s e).1 := by
  unfold emPlace
  try dsimp only
  repeat' first
    | with_reducible apply Fr.refl
    | with_reducible apply Fr.ite
    | with_reducible apply Fr.ite1
    | with_reducible apply Fr.step (setEm_fr _ _ _) ?_
    | with_reducible apply Fr.step (emChain_fr _ _ _ _) ?_
    | with_reducible apply Fr.step (emMoves_fr _ _) ?_
    | (split <;> try (rename_i h; have e := congrArg Prod.fst h; dsimp only at e; subst e))
    | dsimp only

theorem saveThen_fr (s : State) (part table index value : Nat) (f : State → State) (hf : ∀ y, Fr 256 y (f y)) :
    Fr 256 s (saveThen s part table index value f).1 := by
  unfold saveThen
  split
  · exact Fr.refl _ _
  · exact Fr.step (hf _) (saveBefore_fr _ _ _ _ _ _ (by assumption))

theorem writeTable_fr (s : State) (part : Nat) (table : Nat) (index : Nat) (b : List Byte) : Fr 256 s (writeTable s part table index b).1 := by
  unfold writeTable
  try dsimp only
  repeat' first
    | with_reducible apply Fr.refl
    | with_reducible apply Fr.ite
    | with_reducible apply Fr.ite1
    | with_reducible apply Fr.mono (saveThen_fr _ _ _ _ _ _ (fun y => Fr.put_tbl _ (Fr.refl _ _)))
    | (with_reducible apply Fr.put_tbl _ ?_; first | with_reducible apply Fr.refl | with_reducible apply Fr.ite | with_reducible apply Fr.ite1 | with_reducible apply Fr.mono (saveThen_fr _ _ _ _ _ _ (fun y => Fr.put_tbl _ (Fr.refl _ _))) | (split <;> try (rename_i h; have e := congrArg Prod.fst h; dsimp only at e; subst e)))
    | (split <;> try (rename_i h; have e := congrArg Prod.fst h; dsimp only at e; subst e))
    | dsimp only

theorem writeEntries_fr (l : List (List Byte)) (s : State) (a b c d : Nat) :
    Fr 65792 s (writeEntries l s a b c d).1 := by
  induction l generalizing s c d with
  | nil => exact Fr.refl _ _
  | cons x l ih =>
    unfold writeEntries
    try dsimp only
    repeat' first
      | with_reducible apply Fr.refl
      | with_reducible apply Fr.ite1
      | with_reducible apply Fr.step (ih _ _ _) ?_
      | with_reducible apply Fr.step (bump_fr _ _) ?_
      | with_reducible apply Fr.step (writeTable_fr _ _ _ _ _) ?_
      | (split <;> try (rename_i h; have e := congrArg Prod.fst h; dsimp only at e; subst e))

theorem setMap_fr (s : State) (l : Nat) (e : MapEntry) : Fr 4096 s (setMap s l e) := by
  unfold setMap
  try dsimp only
  repeat' first
    | with_reducible apply Fr.refl
    | with_reducible apply Fr.ite
    | (with_reducible apply Fr.put_mem _ ?_; first | with_reducible apply Fr.refl | with_reducible apply Fr.ite | split)
    | split
    | dsimp only

theorem setMemCh_fr (s : State) (k : Nat) (h : Nat) (c : MemCh) : Fr 4096 s (setMemCh s k h c) := by
  unfold setMemCh
  try dsimp only
  repeat' first
    | with_reducible apply Fr.refl
    | with_reducible apply Fr.ite
    | (with_reducible apply Fr.put_mem _ ?_; first | with_reducible apply Fr.refl | with_reducible apply Fr.ite | split)
    | split
    | dsimp only

theorem modMemCh_fr (s : State) (k : Nat) (h : Nat) (f : MemCh → MemCh) : Fr 4096 s (modMemCh s k h f) := by
  unfold modMemCh
  try dsimp only
  repeat' first
    | with_reducible apply Fr.refl
    | with_reducible apply Fr.ite
    | with_reducible apply Fr.step (setMemCh_fr _ _ _ _) ?_
    | split
    | dsimp only

theorem modStk_fr (s : State) (k : Nat) (f : Stack → Stack) : Fr 4096 s (modStk s k f) := by
  unfold modStk
  try dsimp only
  repeat' first
    | with_reducible apply Fr.refl
    | with_reducible apply Fr.ite
    | (with_reducible apply Fr.put_mem _ ?_; first | with_reducible apply Fr.refl | with_reducible apply Fr.ite | split)
    | split
    | dsimp only

theorem setRot_fr (s : State) (k : Nat) (r : Rot) : Fr 4096 s (setRot s k r) := by
  unfold setRot
  try dsimp only
  repeat' first
    | with_reducible apply Fr.refl
    | with_reducible apply Fr.ite
    | (with_reducible apply Fr.put_mem _ ?_; first | with_reducible apply Fr.refl | with_reducible apply Fr.ite | split)
    | split
    | dsimp only

theorem modRot_fr (s : State) (k : Nat) (f : Rot → Rot) : Fr 4096 s (modRot s k f) := by
  unfold modRot
  try dsimp only
  repeat' first
    | with_reducible apply Fr.refl
    | with_reducible apply Fr.ite
    | with_reducible apply Fr.step (setRot_fr _ _ _) ?_
    | split
    | dsimp only

theorem putLine_fr (s : State) (key : Nat) (v : Line) : Fr 4096 s (putLine s key v) := by
  constructor
  case later => exact le_refl _
  case sound =>
    rintro ⟨h1, h2, h3⟩
    exact ⟨h1, tset_wf (lineDef s) s.mem.lines key v h2, h3⟩
  case mem => intro h; exact absurd h (by decide)
  all_goals first | rfl | (intro _; rfl)

theorem noteWritten_fr (s : State) (p : Nat) (i : Nat) : Fr 4096 s (noteWritten s p i) := by
  unfold noteWritten
  try dsimp only
  repeat' first
    | with_reducible apply Fr.refl
    | with_reducible apply Fr.ite
    | with_reducible apply Fr.step (setRot_fr _ _ _) ?_
    | split
    | dsimp only

theorem noteZeroed_fr (s : State) (g n : Nat) : Fr 4096 s (noteZeroed s g n) := Fr.put_mem _ (Fr.refl _ _)

theorem writeLine_fr (s : State) (g : Nat) (i : Nat) (v : Line) : Fr 69632 s (writeLine s g i v) := by
  unfold writeLine
  try dsimp only
  repeat' first
    | with_reducible apply Fr.refl
    | with_reducible apply Fr.ite
    | with_reducible apply Fr.step (bump_fr _ _) ?_
    | with_reducible apply Fr.step (putLine_fr _ _ _) ?_
    | with_reducible apply Fr.step (noteWritten_fr _ _ _) ?_
    | (with_reducible apply Fr.put_mem _ ?_; first | with_reducible apply Fr.refl | with_reducible apply Fr.ite | with_reducible apply Fr.step (bump_fr _ _) ?_ | with_reducible apply Fr.step (putLine_fr _ _ _) ?_ | with_reducible apply Fr.step (noteWritten_fr _ _ _) ?_ | split)
    | split
    | dsimp only

theorem doneReads_fr (s : State) (base : Nat) (l0 : Nat) (n : Nat) : Fr 4096 s (doneReads s base l0 n) := by
  unfold doneReads
  try dsimp only
  repeat' first
    | with_reducible apply Fr.refl
    | with_reducible apply Fr.ite
    | (with_reducible apply Fr.put_mem _ ?_; first | with_reducible apply Fr.refl | with_reducible apply Fr.ite | split)
    | split
    | dsimp only

theorem setRegionLine_fr (s : State) (base : Nat) (n : Nat) (v : Line) : Fr 69632 s (setRegionLine s base n v) := by
  unfold setRegionLine
  try dsimp only
  repeat' first
    | with_reducible apply Fr.refl
    | with_reducible apply Fr.ite
    | with_reducible apply Fr.step (writeLine_fr _ _ _ _) ?_
    | split
    | dsimp only

theorem writeLines_fr (base n : Nat) (s : State) (k : Nat) (b : List Byte) :
    Fr 69632 s (writeLines base n s k b) := by
  induction n generalizing s k b with
  | zero => exact Fr.refl _ _
  | succ n ih =>
    unfold writeLines
    exact Fr.step (ih _ _ _) (setRegionLine_fr _ _ _ _)

theorem scrubRanges_fr (s : State) (l : List (Nat × Nat)) : Fr 4096 s (scrubRanges s l) := by
  unfold scrubRanges
  try dsimp only
  repeat' first
    | with_reducible apply Fr.refl
    | with_reducible apply Fr.ite
    | (with_reducible apply Fr.put_mem _ ?_; first | with_reducible apply Fr.refl | with_reducible apply Fr.ite | split)
    | split
    | dsimp only

end Sys2Proof.Machine
end

