-- ==== Sys2Proof/Laws/FrLink.lean ====
section
/-! SUPPORT. What each operation of the riser, lanes, swaps and links can do, by Laws/Frame.lean. -/
/- Proofs of this file are elaborated one after another: side by side, their waiting threads' stacks
together pass the memory limit of the check. -/
set_option Elab.async false
namespace Sys2Proof.Machine

theorem deepMove_fr (s : State) (cells : Nat) : Fr 128 s (deepMove s cells) := by
  unfold deepMove
  try dsimp only
  repeat' first
    | with_reducible apply Fr.refl
    | with_reducible apply Fr.ite
    | (with_reducible apply Fr.put_sw _ ?_; first | with_reducible apply Fr.refl | with_reducible apply Fr.ite | split)
    | split
    | dsimp only

theorem freeCredit_fr (s : State) (l : Nat) (tc : Nat) (n : Nat) : Fr 64 s (freeCredit s l tc n) := by
  unfold freeCredit
  try dsimp only
  repeat' first
    | with_reducible apply Fr.refl
    | with_reducible apply Fr.ite
    | with_reducible apply Fr.step (modLink_fr _ _ _) ?_
    | split
    | dsimp only

theorem nextMark_fr (s : State) (l : Nat) : Fr 65 s (nextMark s l).1 := by
  unfold nextMark
  try dsimp only
  repeat' first
    | with_reducible apply Fr.refl
    | with_reducible apply Fr.ite
    | with_reducible apply Fr.ite1
    | with_reducible apply Fr.step (takeFree_fr _) ?_
    | with_reducible apply Fr.step (modLink_fr _ _ _) ?_
    | (split <;> try (rename_i h; have e := congrArg Prod.fst h; dsimp only at e; subst e))
    | dsimp only

theorem markCm_fr (s : State) (l : Nat) (f : Frame) : Fr 65601 s (markCm s l f).1 := by
  unfold markCm
  try dsimp only
  repeat' first
    | with_reducible apply Fr.refl
    | with_reducible apply Fr.ite
    | with_reducible apply Fr.ite1
    | with_reducible apply Fr.step (bump_fr _ _) ?_
    | with_reducible apply Fr.step (nextMark_fr _ _) ?_
    | (split <;> try (rename_i h; have e := congrArg Prod.fst h; dsimp only at e; subst e))
    | dsimp only

theorem noteQ_fr (s : State) (l : Nat) : Fr 64 s (noteQ s l) := by
  unfold noteQ
  try dsimp only
  repeat' first
    | with_reducible apply Fr.refl
    | with_reducible apply Fr.ite
    | with_reducible apply Fr.step (modLink_fr _ _ _) ?_
    | split
    | dsimp only

theorem deepFullEnd_fr (s : State) (d : Nat) : Fr 128 s (deepFullEnd s d) := by
  unfold deepFullEnd
  try dsimp only
  repeat' first
    | with_reducible apply Fr.refl
    | with_reducible apply Fr.ite
    | (with_reducible apply Fr.put_sw _ ?_; first | with_reducible apply Fr.refl | with_reducible apply Fr.ite | split)
    | split
    | dsimp only

theorem deepFullNote_fr (s : State) (d : Nat) : Fr 82052 s (deepFullNote s d) := by
  unfold deepFullNote
  try dsimp only
  repeat' first
    | with_reducible apply Fr.refl
    | with_reducible apply Fr.ite
    | with_reducible apply Fr.step (raiseEvent_fr _ _ _ _ _) ?_
    | (with_reducible apply Fr.put_sw _ ?_; first | with_reducible apply Fr.refl | with_reducible apply Fr.ite | with_reducible apply Fr.step (raiseEvent_fr _ _ _ _ _) ?_ | split)
    | split
    | dsimp only

theorem pushFrame_fr (s : State) (q : QFrame) : Fr 192 s (pushFrame s q) := by
  unfold pushFrame
  try dsimp only
  repeat' first
    | with_reducible apply Fr.refl
    | with_reducible apply Fr.ite
    | with_reducible apply Fr.step (noteQ_fr _ _) ?_
    | (with_reducible apply Fr.put_sw _ ?_; first | with_reducible apply Fr.refl | with_reducible apply Fr.ite | with_reducible apply Fr.step (noteQ_fr _ _) ?_ | split)
    | split
    | dsimp only

theorem putFrame_fr (s : State) (q : QFrame) : Fr 82116 s (putFrame s q) := by
  unfold putFrame
  try dsimp only
  repeat' first
    | with_reducible apply Fr.refl
    | with_reducible apply Fr.ite
    | with_reducible apply Fr.step (pushFrame_fr _ _) ?_
    | with_reducible apply Fr.step (freeCredit_fr _ _ _ _) ?_
    | with_reducible apply Fr.step (deepMove_fr _ _) ?_
    | with_reducible apply Fr.step (bump_fr _ _) ?_
    | with_reducible apply Fr.step (deepFullNote_fr _ _) ?_
    | split
    | dsimp only

theorem freshId_fr (s : State) : Fr 128 s (freshId s).1 := by
  unfold freshId
  try dsimp only
  repeat' first
    | with_reducible apply Fr.refl
    | with_reducible apply Fr.ite
    | with_reducible apply Fr.ite1
    | (with_reducible apply Fr.put_sw _ ?_; first | with_reducible apply Fr.refl | with_reducible apply Fr.ite | with_reducible apply Fr.ite1 | (split <;> try (rename_i h; have e := congrArg Prod.fst h; dsimp only at e; subst e)))
    | (split <;> try (rename_i h; have e := congrArg Prod.fst h; dsimp only at e; subst e))
    | dsimp only

theorem placeOn_fr (s : State) (q : QFrame) (l : Nat) : Fr 82117 s (placeOn s q l).1 := by
  unfold placeOn
  try dsimp only
  repeat' first
    | with_reducible apply Fr.refl
    | with_reducible apply Fr.ite
    | with_reducible apply Fr.ite1
    | with_reducible apply Fr.step (bump_fr _ _) ?_
    | with_reducible apply Fr.step (markCm_fr _ _ _) ?_
    | with_reducible apply Fr.step (putFrame_fr _ _) ?_
    | (split <;> try (rename_i h; have e := congrArg Prod.fst h; dsimp only at e; subst e))
    | dsimp only

theorem deliverCore_fr (s : State) (q : QFrame) : Fr 82117 s (deliverCore s q).1 := by
  unfold deliverCore
  try dsimp only
  repeat' first
    | with_reducible apply Fr.refl
    | with_reducible apply Fr.ite
    | with_reducible apply Fr.ite1
    | with_reducible apply Fr.step (placeOn_fr _ _ _) ?_
    | with_reducible apply Fr.step (bump_fr _ _) ?_
    | with_reducible apply Fr.step (raiseEvent_fr _ _ _ _ _) ?_
    | (split <;> try (rename_i h; have e := congrArg Prod.fst h; dsimp only at e; subst e))
    | dsimp only

theorem routeFrame_fr (s : State) (q : QFrame) (p : Nat) (useFlow : Bool) : Fr 82117 s (routeFrame s q p useFlow).1 := by
  unfold routeFrame
  try dsimp only
  repeat' first
    | with_reducible apply Fr.refl
    | with_reducible apply Fr.ite
    | with_reducible apply Fr.ite1
    | with_reducible apply Fr.step (bump_fr _ _) ?_
    | with_reducible apply Fr.step (deliverCore_fr _ _) ?_
    | (split <;> try (rename_i h; have e := congrArg Prod.fst h; dsimp only at e; subst e))
    | dsimp only

theorem ownFrame_fr (s : State) (die : Nat) (f : Frame) : Fr 128 s (ownFrame s die f).1 := by
  unfold ownFrame
  try dsimp only
  repeat' first
    | with_reducible apply Fr.refl
    | with_reducible apply Fr.ite
    | with_reducible apply Fr.ite1
    | with_reducible apply Fr.step (freshId_fr _) ?_
    | (split <;> try (rename_i h; have e := congrArg Prod.fst h; dsimp only at e; subst e))
    | dsimp only

theorem mcEnter_fr (s : State) (q : QFrame) (members : List Nat) : Fr 65728 s (mcEnter s q members) := by
  unfold mcEnter
  try dsimp only
  repeat' first
    | with_reducible apply Fr.refl
    | with_reducible apply Fr.ite
    | with_reducible apply Fr.step (freeCredit_fr _ _ _ _) ?_
    | with_reducible apply Fr.step (bump_fr _ _) ?_
    | (with_reducible apply Fr.put_sw _ ?_; first | with_reducible apply Fr.refl | with_reducible apply Fr.ite | with_reducible apply Fr.step (freeCredit_fr _ _ _ _) ?_ | with_reducible apply Fr.step (bump_fr _ _) ?_ | split)
    | split
    | dsimp only

theorem ringSend_fr (s : State) (q : QFrame) (l : Nat) : Fr 82117 s (ringSend s q l).1 := by
  unfold ringSend
  try dsimp only
  repeat' first
    | with_reducible apply Fr.refl
    | with_reducible apply Fr.ite
    | with_reducible apply Fr.ite1
    | with_reducible apply Fr.step (bump_fr _ _) ?_
    | with_reducible apply Fr.step (placeOn_fr _ _ _) ?_
    | (split <;> try (rename_i h; have e := congrArg Prod.fst h; dsimp only at e; subst e))
    | dsimp only

theorem originate_fr (s : State) (die : Nat) (f : Frame) : Fr 82117 s (originate s die f).1 := by
  unfold originate
  try dsimp only
  repeat' first
    | with_reducible apply Fr.refl
    | with_reducible apply Fr.ite
    | with_reducible apply Fr.ite1
    | with_reducible apply Fr.step (ownFrame_fr _ _ _) ?_
    | with_reducible apply Fr.step (mcEnter_fr _ _ _) ?_
    | with_reducible apply Fr.step (ringSend_fr _ _ _) ?_
    | with_reducible apply Fr.step (routeFrame_fr _ _ _ _) ?_
    | (with_reducible apply Fr.put_sw _ ?_; first | with_reducible apply Fr.refl | with_reducible apply Fr.ite | with_reducible apply Fr.ite1 | with_reducible apply Fr.step (ownFrame_fr _ _ _) ?_ | with_reducible apply Fr.step (mcEnter_fr _ _ _) ?_ | with_reducible apply Fr.step (ringSend_fr _ _ _) ?_ | with_reducible apply Fr.step (routeFrame_fr _ _ _ _) ?_ | (split <;> try (rename_i h; have e := congrArg Prod.fst h; dsimp only at e; subst e)))
    | (split <;> try (rename_i h; have e := congrArg Prod.fst h; dsimp only at e; subst e))
    | dsimp only

theorem sendNack_fr (s : State) (q : QFrame) (cause : Nat) (backoff : Nat) : Fr 82117 s (sendNack s q cause backoff) := by
  unfold sendNack
  try dsimp only
  repeat' first
    | with_reducible apply Fr.refl
    | with_reducible apply Fr.ite
    | with_reducible apply Fr.step (bump_fr _ _) ?_
    | with_reducible apply Fr.step (originate_fr _ _ _) ?_
    | (split <;> try (rename_i h; have e := congrArg Prod.fst h; dsimp only at e; subst e))
    | dsimp only

theorem refuse_fr (s : State) (q : QFrame) (cause : Nat) (backoff : Nat) : Fr 82117 s (refuse s q cause backoff) := by
  unfold refuse
  try dsimp only
  repeat' first
    | with_reducible apply Fr.refl
    | with_reducible apply Fr.ite
    | with_reducible apply Fr.step (sendNack_fr _ _ _ _) ?_
    | with_reducible apply Fr.step (freeCredit_fr _ _ _ _) ?_
    | split
    | dsimp only

theorem answer_fr (q : QFrame) (r : State × Nat) : Fr 82117 r.1 (answer q r) := by
  unfold answer
  try dsimp only
  repeat' first
    | with_reducible apply Fr.refl
    | with_reducible apply Fr.ite
    | with_reducible apply Fr.step (bump_fr _ _) ?_
    | with_reducible apply Fr.step (refuse_fr _ _ _ _) ?_
    | split
    | dsimp only

theorem dropRef_fr (s : State) (id : Nat) : Fr 128 s (dropRef s id) := by
  unfold dropRef
  try dsimp only
  repeat' first
    | with_reducible apply Fr.refl
    | with_reducible apply Fr.ite
    | (with_reducible apply Fr.put_sw _ ?_; first | with_reducible apply Fr.refl | with_reducible apply Fr.ite | split)
    | split
    | dsimp only

theorem liftFrame_fr (s : State) (q : QFrame) : Fr 192 s (liftFrame s q) := by
  unfold liftFrame
  try dsimp only
  repeat' first
    | with_reducible apply Fr.refl
    | with_reducible apply Fr.ite
    | with_reducible apply Fr.step (deepFullEnd_fr _ _) ?_
    | with_reducible apply Fr.step (noteQ_fr _ _) ?_
    | (with_reducible apply Fr.put_sw _ ?_; first | with_reducible apply Fr.refl | with_reducible apply Fr.ite | with_reducible apply Fr.step (deepFullEnd_fr _ _) ?_ | with_reducible apply Fr.step (noteQ_fr _ _) ?_ | split)
    | split
    | dsimp only

theorem freePlace_fr (s : State) (q : QFrame) : Fr 192 s (freePlace s q) := by
  unfold freePlace
  try dsimp only
  repeat' first
    | with_reducible apply Fr.refl
    | with_reducible apply Fr.ite
    | with_reducible apply Fr.step (freeCredit_fr _ _ _ _) ?_
    | with_reducible apply Fr.step (dropRef_fr _ _) ?_
    | split
    | dsimp only

theorem takeOut_fr (s : State) (q : QFrame) : Fr 192 s (takeOut s q) := by
  unfold takeOut
  try dsimp only
  repeat' first
    | with_reducible apply Fr.refl
    | with_reducible apply Fr.ite
    | with_reducible apply Fr.step (freePlace_fr _ _) ?_
    | with_reducible apply Fr.step (liftFrame_fr _ _) ?_
    | split
    | dsimp only

theorem slagCount_fr (s : State) (l : Nat) (tc : Nat) : Fr 81988 s (slagCount s l tc) := by
  unfold slagCount
  try dsimp only
  repeat' first
    | with_reducible apply Fr.refl
    | with_reducible apply Fr.ite
    | with_reducible apply Fr.step (bump_fr _ _) ?_
    | with_reducible apply Fr.step (modLink_fr _ _ _) ?_
    | with_reducible apply Fr.step (countEvent_fr _ _) ?_
    | with_reducible apply Fr.step (setLink_fr _ _ _) ?_
    | with_reducible apply Fr.step (raiseEvent_fr _ _ _ _ _) ?_
    | split
    | dsimp only

theorem answerQueued_fr (s : State) (q : QFrame) (cause : Nat) : Fr 82117 s (answerQueued s q cause) := by
  unfold answerQueued
  try dsimp only
  repeat' first
    | with_reducible apply Fr.refl
    | with_reducible apply Fr.ite
    | with_reducible apply Fr.step (bump_fr _ _) ?_
    | with_reducible apply Fr.step (sendNack_fr _ _ _ _) ?_
    | split
    | dsimp only

theorem mcCopyLost_fr (s : State) (group : Nat) (l : Nat) : Fr 81988 s (mcCopyLost s group l) := by
  unfold mcCopyLost
  try dsimp only
  repeat' first
    | with_reducible apply Fr.refl
    | with_reducible apply Fr.ite
    | with_reducible apply Fr.step (bump_fr _ _) ?_
    | with_reducible apply Fr.step (countEvent_fr _ _) ?_
    | with_reducible apply Fr.step (modLink_fr _ _ _) ?_
    | with_reducible apply Fr.step (raiseEvent_fr _ _ _ _ _) ?_
    | split
    | dsimp only

theorem reLane_fr (s : State) (q : QFrame) : Fr 128 s (reLane s q) := by
  unfold reLane
  try dsimp only
  repeat' first
    | with_reducible apply Fr.refl
    | with_reducible apply Fr.ite
    | (with_reducible apply Fr.put_sw _ ?_; first | with_reducible apply Fr.refl | with_reducible apply Fr.ite | split)
    | split
    | dsimp only

theorem moveFrame_fr (s : State) (q : QFrame) : Fr 82117 s (moveFrame s q) := by
  unfold moveFrame
  try dsimp only
  repeat' first
    | with_reducible apply Fr.refl
    | with_reducible apply Fr.ite
    | with_reducible apply Fr.step (reLane_fr _ _) ?_
    | with_reducible apply Fr.step (mcCopyLost_fr _ _ _) ?_
    | with_reducible apply Fr.step (takeOut_fr _ _) ?_
    | with_reducible apply Fr.step (answerQueued_fr _ _ _) ?_
    | with_reducible apply Fr.step (deliverCore_fr _ _) ?_
    | with_reducible apply Fr.step (liftFrame_fr _ _) ?_
    | with_reducible apply Fr.step (freePlace_fr _ _) ?_
    | (split <;> try (rename_i h; have e := congrArg Prod.fst h; dsimp only at e; subst e))
    | dsimp only

theorem moveQueued_fr (s : State) (l : Nat) : Fr 82117 s (moveQueued s l) := by
  unfold moveQueued
  try dsimp only
  repeat' first
    | with_reducible apply Fr.refl
    | with_reducible apply Fr.ite
    | with_reducible apply Fr.forEach _ _ (fun y a => ?_) ?_
    | with_reducible apply Fr.step (moveFrame_fr _ _) ?_
    | split
    | dsimp only

theorem setEngine_fr (s : State) (n : Nat) (e : Engine) : Fr 32 s (setEngine s n e) := by
  unfold setEngine
  try dsimp only
  repeat' first
    | with_reducible apply Fr.refl
    | with_reducible apply Fr.ite
    | (with_reducible apply Fr.put_opt _ ?_; first | with_reducible apply Fr.refl | with_reducible apply Fr.ite | split)
    | split
    | dsimp only

theorem modEngine_fr (s : State) (n : Nat) (f : Engine → Engine) : Fr 32 s (modEngine s n f) := by
  unfold modEngine
  try dsimp only
  repeat' first
    | with_reducible apply Fr.refl
    | with_reducible apply Fr.ite
    | with_reducible apply Fr.step (setEngine_fr _ _ _) ?_
    | split
    | dsimp only

theorem setChan_fr (s : State) (d : Dir) (k : Nat) (c : Chan) : Fr 32 s (setChan s d k c) := by
  unfold setChan
  try dsimp only
  repeat' first
    | with_reducible apply Fr.refl
    | with_reducible apply Fr.ite
    | (with_reducible apply Fr.put_opt _ ?_; first | with_reducible apply Fr.refl | with_reducible apply Fr.ite | split)
    | split
    | dsimp only

theorem modChan_fr (s : State) (d : Dir) (k : Nat) (f : Chan → Chan) : Fr 32 s (modChan s d k f) := by
  unfold modChan
  try dsimp only
  repeat' first
    | with_reducible apply Fr.refl
    | with_reducible apply Fr.ite
    | with_reducible apply Fr.step (setChan_fr _ _ _ _) ?_
    | split
    | dsimp only

theorem noteHealth_fr (s : State) : Fr 114692 s (noteHealth s) := by
  unfold noteHealth
  try dsimp only
  repeat' first
    | with_reducible apply Fr.refl
    | with_reducible apply Fr.ite
    | with_reducible apply Fr.step (raiseEvent_fr _ _ _ _ _) ?_
    | (with_reducible apply Fr.put_hlt _ ?_; first | with_reducible apply Fr.refl | with_reducible apply Fr.ite | with_reducible apply Fr.step (raiseEvent_fr _ _ _ _ _) ?_ | split)
    | split
    | dsimp only

theorem journalNote_fr (s : State) (w : Word) : Fr 8 s (journalNote s w) := by
  unfold journalNote
  try dsimp only
  repeat' first
    | with_reducible apply Fr.refl
    | with_reducible apply Fr.ite
    | (with_reducible apply Fr.put_boot _ ?_ (by first | rfl | (split <;> rfl) | (dsimp only; split <;> rfl)); first | with_reducible apply Fr.refl | with_reducible apply Fr.ite | split)
    | split
    | dsimp only

theorem journalChan_fr (s : State) (kind : Nat) (k : Nat) (colour : Nat) (serves : Nat) : Fr 8 s (journalChan s kind k colour serves) := by
  unfold journalChan
  try dsimp only
  repeat' first
    | with_reducible apply Fr.refl
    | with_reducible apply Fr.ite
    | with_reducible apply Fr.step (journalNote_fr _ _) ?_
    | split
    | dsimp only

theorem sendLinkctl_fr (s : State) (q : Nat) (op : Nat) : Fr 68 s (sendLinkctl s q op) := by
  unfold sendLinkctl
  try dsimp only
  repeat' first
    | with_reducible apply Fr.refl
    | with_reducible apply Fr.ite
    | with_reducible apply Fr.step (sendOs_fr _ _ _ _) ?_
    | split
    | dsimp only

theorem fenceEffect_fr (s : State) (l : Nat) : Fr 82117 s (fenceEffect s l) := by
  unfold fenceEffect
  try dsimp only
  repeat' first
    | with_reducible apply Fr.refl
    | with_reducible apply Fr.ite
    | with_reducible apply Fr.forEach _ _ (fun y a => ?_) ?_
    | with_reducible apply Fr.step (moveQueued_fr _ _) ?_
    | with_reducible apply Fr.step (sendLinkctl_fr _ _ _) ?_
    | split
    | dsimp only

theorem fenceLink_fr (s : State) (l : Nat) (src : Nat) (n : Nat) : Fr 82117 s (fenceLink s l src n) := by
  unfold fenceLink
  try dsimp only
  repeat' first
    | with_reducible apply Fr.refl
    | with_reducible apply Fr.ite
    | with_reducible apply Fr.step (modLink_fr _ _ _) ?_
    | with_reducible apply Fr.step (raiseEvent_fr _ _ _ _ _) ?_
    | with_reducible apply Fr.step (fenceEffect_fr _ _) ?_
    | split
    | dsimp only

theorem autoFence_fr (s : State) (l : Nat) (src : Nat) : Fr 114885 s (autoFence s l src) := by
  unfold autoFence
  try dsimp only
  repeat' first
    | with_reducible apply Fr.refl
    | with_reducible apply Fr.ite
    | with_reducible apply Fr.step (fenceLink_fr _ _ _ _) ?_
    | with_reducible apply Fr.step (raiseEvent_fr _ _ _ _ _) ?_
    | with_reducible apply Fr.step (modLink_fr _ _ _) ?_
    | (with_reducible apply Fr.put_hlt _ ?_; first | with_reducible apply Fr.refl | with_reducible apply Fr.ite | with_reducible apply Fr.step (fenceLink_fr _ _ _ _) ?_ | with_reducible apply Fr.step (raiseEvent_fr _ _ _ _ _) ?_ | with_reducible apply Fr.step (modLink_fr _ _ _) ?_ | split)
    | split
    | dsimp only

theorem countDown_fr (s : State) (l : Nat) : Fr 114885 s (countDown s l) := by
  unfold countDown
  try dsimp only
  repeat' first
    | with_reducible apply Fr.refl
    | with_reducible apply Fr.ite
    | with_reducible apply Fr.step (modLink_fr _ _ _) ?_
    | with_reducible apply Fr.step (autoFence_fr _ _ _) ?_
    | split
    | dsimp only

theorem startCredits_fr (s : State) (l : Nat) : Fr 64 s (startCredits s l) := by
  unfold startCredits
  try dsimp only
  repeat' first
    | with_reducible apply Fr.refl
    | with_reducible apply Fr.ite
    | with_reducible apply Fr.step (modLink_fr _ _ _) ?_
    | split
    | dsimp only

theorem refreshLink_fr (s : State) (l : Nat) (cause : Nat) (counts : Bool) : Fr 114885 s (refreshLink s l cause counts) := by
  unfold refreshLink
  try dsimp only
  repeat' first
    | with_reducible apply Fr.refl
    | with_reducible apply Fr.ite
    | with_reducible apply Fr.step (startCredits_fr _ _) ?_
    | with_reducible apply Fr.step (modLink_fr _ _ _) ?_
    | with_reducible apply Fr.step (raiseEvent_fr _ _ _ _ _) ?_
    | with_reducible apply Fr.step (countDown_fr _ _) ?_
    | split
    | dsimp only

theorem putLaneState_fr (s : State) (q : Nat) (st : Nat) : Fr 64 s (putLaneState s q st) := by
  unfold putLaneState
  try dsimp only
  repeat' first
    | with_reducible apply Fr.refl
    | with_reducible apply Fr.ite
    | with_reducible apply Fr.step (modLane_fr _ _ _) ?_
    | split
    | dsimp only

theorem lanesToUp_fr (s : State) (l : Nat) (qs : List Nat) : Fr 114885 s (lanesToUp s l qs) := by
  unfold lanesToUp
  try dsimp only
  repeat' first
    | with_reducible apply Fr.refl
    | with_reducible apply Fr.ite
    | with_reducible apply Fr.forEach _ _ (fun y a => ?_) ?_
    | with_reducible apply Fr.step (modLane_fr _ _ _) ?_
    | with_reducible apply Fr.step (refreshLink_fr _ _ _ _) ?_
    | with_reducible apply Fr.step (sendLinkctl_fr _ _ _) ?_
    | split
    | dsimp only

theorem laneToUp_fr (s : State) (q : Nat) : Fr 114885 s (laneToUp s q) := by
  unfold laneToUp
  try dsimp only
  repeat' first
    | with_reducible apply Fr.refl
    | with_reducible apply Fr.ite
    | with_reducible apply Fr.step (lanesToUp_fr _ _ _) ?_
    | split
    | dsimp only

theorem loseStarted_fr (s : State) (q : Nat) : Fr 192 s (loseStarted s q) := by
  unfold loseStarted
  try dsimp only
  repeat' first
    | with_reducible apply Fr.refl
    | with_reducible apply Fr.ite
    | with_reducible apply Fr.forEach _ _ (fun y a => ?_) ?_
    | with_reducible apply Fr.step (takeOut_fr _ _) ?_
    | split
    | dsimp only

theorem freeOwed_fr (s : State) (c : BufCell) : Fr 64 s (freeOwed s c) := by
  unfold freeOwed
  try dsimp only
  repeat' first
    | with_reducible apply Fr.refl
    | with_reducible apply Fr.ite
    | with_reducible apply Fr.step (freeCredit_fr _ _ _ _) ?_
    | split
    | dsimp only

theorem loseArriving_fr (s : State) (q : Nat) : Fr 193 s (loseArriving s q) := by
  unfold loseArriving
  try dsimp only
  repeat' first
    | with_reducible apply Fr.refl
    | with_reducible apply Fr.ite
    | with_reducible apply Fr.forEach _ _ (fun y a => ?_) ?_
    | with_reducible apply Fr.step (freeCredit_fr _ _ _ _) ?_
    | with_reducible apply Fr.step (takeOut_fr _ _) ?_
    | with_reducible apply Fr.step (freePlace_fr _ _) ?_
    | with_reducible apply Fr.step (takeFree_fr _) ?_
    | (with_reducible apply Fr.put_sw _ ?_; first | with_reducible apply Fr.refl | with_reducible apply Fr.ite | with_reducible apply Fr.forEach _ _ (fun y a => ?_) ?_ | with_reducible apply Fr.step (freeCredit_fr _ _ _ _) ?_ | with_reducible apply Fr.step (takeOut_fr _ _) ?_ | with_reducible apply Fr.step (freePlace_fr _ _) ?_ | with_reducible apply Fr.step (takeFree_fr _) ?_ | split)
    | split
    | dsimp only

theorem laneToDown_fr (s : State) (q : Nat) (st : Nat) : Fr 193 s (laneToDown s q st) := by
  unfold laneToDown
  try dsimp only
  repeat' first
    | with_reducible apply Fr.refl
    | with_reducible apply Fr.ite
    | with_reducible apply Fr.forEach _ _ (fun y a => ?_) ?_
    | with_reducible apply Fr.step (loseArriving_fr _ _) ?_
    | with_reducible apply Fr.step (freeOwed_fr _ _) ?_
    | with_reducible apply Fr.step (loseStarted_fr _ _) ?_
    | with_reducible apply Fr.step (modLane_fr _ _ _) ?_
    | split
    | dsimp only

theorem setSwap_fr (s : State) (d : Dir) (q : Nat) (w : Swap) : Fr 32 s (setSwap s d q w) := by
  unfold setSwap
  try dsimp only
  repeat' first
    | with_reducible apply Fr.refl
    | with_reducible apply Fr.ite
    | (with_reducible apply Fr.put_opt _ ?_; first | with_reducible apply Fr.refl | with_reducible apply Fr.ite | split)
    | split
    | dsimp only

theorem dropSwap_fr (s : State) (d : Dir) (q : Nat) : Fr 32 s (dropSwap s d q) := by
  unfold dropSwap
  try dsimp only
  repeat' first
    | with_reducible apply Fr.refl
    | with_reducible apply Fr.ite
    | with_reducible apply Fr.step (modChan_fr _ _ _ _) ?_
    | with_reducible apply Fr.step (setSwap_fr _ _ _ _) ?_
    | split
    | dsimp only

theorem startSwap_fr (s : State) (q : Nat) (spare : Nat) (colour : Nat) (reason : Nat) : Fr 32 s (startSwap s q spare colour reason) := by
  unfold startSwap
  try dsimp only
  repeat' first
    | with_reducible apply Fr.refl
    | with_reducible apply Fr.ite
    | with_reducible apply Fr.step (modChan_fr _ _ _ _) ?_
    | with_reducible apply Fr.step (setSwap_fr _ _ _ _) ?_
    | split
    | dsimp only

theorem calSlotEnd_fr (s : State) (n : Nat) : Fr 32 s (calSlotEnd s n) := by
  unfold calSlotEnd
  try dsimp only
  repeat' first
    | with_reducible apply Fr.refl
    | with_reducible apply Fr.ite
    | with_reducible apply Fr.step (modChan_fr _ _ _ _) ?_
    | with_reducible apply Fr.step (modEngine_fr _ _ _) ?_
    | split
    | dsimp only

theorem swapBack_fr (s : State) (q : Nat) (k : Nat) (colour : Nat) : Fr 32 s (swapBack s q k colour) := by
  unfold swapBack
  try dsimp only
  repeat' first
    | with_reducible apply Fr.refl
    | with_reducible apply Fr.ite
    | with_reducible apply Fr.step (startSwap_fr _ _ _ _ _) ?_
    | with_reducible apply Fr.step (setSwap_fr _ _ _ _) ?_
    | split
    | dsimp only

theorem calAbort_fr (s : State) (n : Nat) (cause : Nat) : Fr 81956 s (calAbort s n cause) := by
  unfold calAbort
  try dsimp only
  repeat' first
    | with_reducible apply Fr.refl
    | with_reducible apply Fr.ite
    | with_reducible apply Fr.step (raiseEvent_fr _ _ _ _ _) ?_
    | with_reducible apply Fr.step (swapBack_fr _ _ _ _) ?_
    | with_reducible apply Fr.step (modEngine_fr _ _ _) ?_
    | with_reducible apply Fr.step (calSlotEnd_fr _ _) ?_
    | split
    | dsimp only

theorem calLeave_fr (s : State) (q : Nat) : Fr 32 s (calLeave s q) := by
  unfold calLeave
  try dsimp only
  repeat' first
    | with_reducible apply Fr.refl
    | with_reducible apply Fr.ite
    | with_reducible apply Fr.step (dropSwap_fr _ _ _) ?_
    | with_reducible apply Fr.step (modChan_fr _ _ _ _) ?_
    | with_reducible apply Fr.step (calSlotEnd_fr _ _) ?_
    | split
    | dsimp only

theorem noteExhausted_fr (s : State) (d : Dir) (k : Nat) : Fr 81956 s (noteExhausted s d k) := by
  unfold noteExhausted
  try dsimp only
  repeat' first
    | with_reducible apply Fr.refl
    | with_reducible apply Fr.ite
    | with_reducible apply Fr.step (countEvent_fr _ _) ?_
    | with_reducible apply Fr.step (raiseEvent_fr _ _ _ _ _) ?_
    | (with_reducible apply Fr.put_opt _ ?_; first | with_reducible apply Fr.refl | with_reducible apply Fr.ite | with_reducible apply Fr.step (countEvent_fr _ _) ?_ | with_reducible apply Fr.step (raiseEvent_fr _ _ _ _ _) ?_ | split)
    | split
    | dsimp only

theorem queueFade_fr (s : State) (q : Nat) (fade : Nat) : Fr 32 s (queueFade s q fade) := by
  unfold queueFade
  try dsimp only
  repeat' first
    | with_reducible apply Fr.refl
    | with_reducible apply Fr.ite
    | (with_reducible apply Fr.put_opt _ ?_; first | with_reducible apply Fr.refl | with_reducible apply Fr.ite | split)
    | split
    | dsimp only

theorem fadeGo_fr (s : State) (q fade : Nat) : Fr 81956 s (fadeGo s q fade) := by
  have go : ∀ y t : State, (match usableSpare y .tx q, standInColour y .tx q with
      | some sp, some c => some (startSwap y q sp c 0)
      | _, _ => none) = some t → Fr 81956 y t := by
    intro y t h
    split at h
    · cases h; exact Fr.mono (startSwap_fr _ _ _ _ _)
    · cases h
  unfold fadeGo
  dsimp only
  split
  · exact go _ _ (by assumption)
  · refine Fr.ite (Fr.mono (noteExhausted_fr _ _ _)) ?_
    split
    · exact Fr.step (go _ _ (by assumption)) (Fr.mono (calAbort_fr _ _ _))
    · exact Fr.ite (Fr.step (queueFade_fr _ _ _) (Fr.mono (calAbort_fr _ _ _)))
        (Fr.step (noteExhausted_fr _ _ _) (Fr.mono (calAbort_fr _ _ _)))

theorem fadeSwap_fr (s : State) (q : Nat) (fade : Nat) : Fr 81956 s (fadeSwap s q fade) := by
  unfold fadeSwap
  try dsimp only
  repeat' first
    | with_reducible apply Fr.refl
    | with_reducible apply Fr.ite
    | with_reducible apply Fr.step (raiseEvent_fr _ _ _ _ _) ?_
    | with_reducible apply Fr.step (queueFade_fr _ _ _) ?_
    | with_reducible apply Fr.step (fadeGo_fr _ _ _) ?_
    | split
    | dsimp only

theorem nextFade_fr (s : State) (k : Nat) : Fr 81956 s (nextFade s k) := by
  unfold nextFade
  try dsimp only
  repeat' first
    | with_reducible apply Fr.refl
    | with_reducible apply Fr.ite
    | with_reducible apply Fr.step (fadeGo_fr _ _ _) ?_
    | (with_reducible apply Fr.put_opt _ ?_; first | with_reducible apply Fr.refl | with_reducible apply Fr.ite | with_reducible apply Fr.step (fadeGo_fr _ _ _) ?_ | split)
    | split
    | dsimp only

theorem finishSwap_fr (s : State) (q : Nat) (w : Swap) : Fr 40 s (finishSwap s q w) := by
  unfold finishSwap
  try dsimp only
  repeat' first
    | with_reducible apply Fr.refl
    | with_reducible apply Fr.ite
    | with_reducible apply Fr.step (setSwap_fr _ _ _ _) ?_
    | with_reducible apply Fr.step (modEngine_fr _ _ _) ?_
    | with_reducible apply Fr.step (modChan_fr _ _ _ _) ?_
    | with_reducible apply Fr.step (calSlotEnd_fr _ _) ?_
    | with_reducible apply Fr.step (journalChan_fr _ _ _ _ _) ?_
    | split
    | dsimp only

theorem swapBackOff_fr (s : State) (q : Nat) (w : Swap) : Fr 81956 s (swapBackOff s q w) := by
  unfold swapBackOff
  try dsimp only
  repeat' first
    | with_reducible apply Fr.refl
    | with_reducible apply Fr.ite
    | with_reducible apply Fr.step (setSwap_fr _ _ _ _) ?_
    | with_reducible apply Fr.step (modChan_fr _ _ _ _) ?_
    | with_reducible apply Fr.step (nextFade_fr _ _) ?_
    | split
    | dsimp only

theorem txSwapDeath_fr (s : State) (q : Nat) : Fr 81964 s (txSwapDeath s q) := by
  unfold txSwapDeath
  try dsimp only
  repeat' first
    | with_reducible apply Fr.refl
    | with_reducible apply Fr.ite
    | with_reducible apply Fr.step (raiseEvent_fr _ _ _ _ _) ?_
    | with_reducible apply Fr.step (finishSwap_fr _ _ _) ?_
    | with_reducible apply Fr.step (modChan_fr _ _ _ _) ?_
    | with_reducible apply Fr.step (setSwap_fr _ _ _ _) ?_
    | with_reducible apply Fr.step (calSlotEnd_fr _ _) ?_
    | split
    | dsimp only

theorem drop2_fr (s : State) (q : Nat) (w : Swap) : Fr 40 s (drop2 s q w) := by
  unfold drop2
  try dsimp only
  repeat' first
    | with_reducible apply Fr.refl
    | with_reducible apply Fr.ite
    | with_reducible apply Fr.step (modChan_fr _ _ _ _) ?_
    | with_reducible apply Fr.step (setSwap_fr _ _ _ _) ?_
    | with_reducible apply Fr.step (journalChan_fr _ _ _ _ _) ?_
    | split
    | dsimp only

theorem rxSwapDeath_fr (s : State) (q : Nat) : Fr 40 s (rxSwapDeath s q) := by
  unfold rxSwapDeath
  try dsimp only
  repeat' first
    | with_reducible apply Fr.refl
    | with_reducible apply Fr.ite
    | with_reducible apply Fr.step (drop2_fr _ _ _) ?_
    | with_reducible apply Fr.step (modChan_fr _ _ _ _) ?_
    | with_reducible apply Fr.step (setSwap_fr _ _ _ _) ?_
    | split
    | dsimp only

theorem swapDeath_fr (s : State) (q : Nat) : Fr 81964 s (swapDeath s q) := by
  unfold swapDeath
  try dsimp only
  repeat' first
    | with_reducible apply Fr.refl
    | with_reducible apply Fr.ite
    | with_reducible apply Fr.step (rxSwapDeath_fr _ _) ?_
    | with_reducible apply Fr.step (txSwapDeath_fr _ _) ?_
    | split
    | dsimp only

theorem retireLane_fr (s : State) (q : Nat) (d : Dir) (cause : Nat) (journal : Bool) : Fr 114925 s (retireLane s q d cause journal) := by
  unfold retireLane
  try dsimp only
  repeat' first
    | with_reducible apply Fr.refl
    | with_reducible apply Fr.ite
    | with_reducible apply Fr.step (dropSwap_fr _ _ _) ?_
    | with_reducible apply Fr.step (calLeave_fr _ _) ?_
    | with_reducible apply Fr.step (modChan_fr _ _ _ _) ?_
    | with_reducible apply Fr.step (journalChan_fr _ _ _ _ _) ?_
    | with_reducible apply Fr.step (modLane_fr _ _ _) ?_
    | with_reducible apply Fr.step (laneToDown_fr _ _ _) ?_
    | with_reducible apply Fr.step (raiseEvent_fr _ _ _ _ _) ?_
    | with_reducible apply Fr.step (refreshLink_fr _ _ _ _) ?_
    | (with_reducible apply Fr.put_opt _ ?_; first | with_reducible apply Fr.refl | with_reducible apply Fr.ite | with_reducible apply Fr.step (dropSwap_fr _ _ _) ?_ | with_reducible apply Fr.step (calLeave_fr _ _) ?_ | with_reducible apply Fr.step (modChan_fr _ _ _ _) ?_ | with_reducible apply Fr.step (journalChan_fr _ _ _ _ _) ?_ | with_reducible apply Fr.step (modLane_fr _ _ _) ?_ | with_reducible apply Fr.step (laneToDown_fr _ _ _) ?_ | with_reducible apply Fr.step (raiseEvent_fr _ _ _ _ _) ?_ | with_reducible apply Fr.step (refreshLink_fr _ _ _ _) ?_ | split)
    | split
    | dsimp only

theorem sendResync_fr (s : State) (q : Nat) (tc : Nat) : Fr 68 s (sendResync s q tc) := by
  unfold sendResync
  try dsimp only
  repeat' first
    | with_reducible apply Fr.refl
    | with_reducible apply Fr.ite
    | with_reducible apply Fr.step (modLink_fr _ _ _) ?_
    | with_reducible apply Fr.step (sendOs_fr _ _ _ _) ?_
    | split
    | dsimp only

theorem laneDie_fr (s : State) (q : Nat) (cause : Nat) (ev : Bool) (dark : Bool) : Fr 114925 s (laneDie s q cause ev dark) := by
  unfold laneDie
  try dsimp only
  repeat' first
    | with_reducible apply Fr.refl
    | with_reducible apply Fr.ite
    | with_reducible apply Fr.forEach _ _ (fun y a => ?_) ?_
    | with_reducible apply Fr.step (bump_fr _ _) ?_
    | with_reducible apply Fr.step (raiseEvent_fr _ _ _ _ _) ?_
    | with_reducible apply Fr.step (swapDeath_fr _ _) ?_
    | with_reducible apply Fr.step (retireLane_fr _ _ _ _ _) ?_
    | with_reducible apply Fr.step (modLane_fr _ _ _) ?_
    | with_reducible apply Fr.step (laneToDown_fr _ _ _) ?_
    | with_reducible apply Fr.step (refreshLink_fr _ _ _ _) ?_
    | with_reducible apply Fr.step (modLink_fr _ _ _) ?_
    | with_reducible apply Fr.step (nextFade_fr _ _) ?_
    | with_reducible apply Fr.step (sendResync_fr _ _ _) ?_
    | split
    | dsimp only

theorem osIllegal_fr (s : State) (q : Nat) : Fr 65536 s (osIllegal s q) := by
  unfold osIllegal
  try dsimp only
  repeat' first
    | with_reducible apply Fr.refl
    | with_reducible apply Fr.ite
    | with_reducible apply Fr.step (bump_fr _ _) ?_
    | split
    | dsimp only

theorem journalMove_fr (s : State) (mv : Nat × Nat × Nat × Nat) : Fr 8 s (journalMove s mv) := by
  unfold journalMove
  try dsimp only
  repeat' first
    | with_reducible apply Fr.refl
    | with_reducible apply Fr.ite
    | with_reducible apply Fr.step (journalChan_fr _ _ _ _ _) ?_
    | (split <;> try (rename_i h; have e := congrArg Prod.fst h; dsimp only at e; subst e))
    | dsimp only

theorem noteMove_fr (s : State) (d : Dir) (q : Nat) (old : Nat) (spare : Nat) (col : Nat) : Fr 81996 s (noteMove s d q old spare col) := by
  unfold noteMove
  try dsimp only
  repeat' first
    | with_reducible apply Fr.refl
    | with_reducible apply Fr.ite
    | with_reducible apply Fr.step (modLink_fr _ _ _) ?_
    | with_reducible apply Fr.step (journalMove_fr _ _) ?_
    | with_reducible apply Fr.step (raiseEvent_fr _ _ _ _ _) ?_
    | split
    | dsimp only

theorem moveToSpare_fr (s : State) (q : Nat) (spare : Nat) : Fr 82028 s (moveToSpare s q spare) := by
  unfold moveToSpare
  try dsimp only
  repeat' first
    | with_reducible apply Fr.refl
    | with_reducible apply Fr.ite
    | with_reducible apply Fr.step (modChan_fr _ _ _ _) ?_
    | with_reducible apply Fr.step (noteMove_fr _ _ _ _ _ _) ?_
    | with_reducible apply Fr.step (sendOs_fr _ _ _ _) ?_
    | split
    | dsimp only

theorem markSpare_fr (s : State) (d : Dir) (k : Nat) (ok : Bool) : Fr 32 s (markSpare s d k ok) := by
  unfold markSpare
  try dsimp only
  repeat' first
    | with_reducible apply Fr.refl
    | with_reducible apply Fr.ite
    | with_reducible apply Fr.step (modChan_fr _ _ _ _) ?_
    | split
    | dsimp only

theorem judgeSpares_fr (s : State) (l : Nat) (m : Margin) : Fr 32 s (judgeSpares s l m) := by
  unfold judgeSpares
  try dsimp only
  repeat' first
    | with_reducible apply Fr.refl
    | with_reducible apply Fr.ite
    | with_reducible apply Fr.forEach _ _ (fun y a => ?_) ?_
    | with_reducible apply Fr.foldl _ _ (fun y a => ?_) ?_
    | with_reducible apply Fr.foldl1 _ _ (fun y a => ?_) ?_
    | with_reducible apply Fr.step (markSpare_fr _ _ _ _) ?_
    | split
    | dsimp only

theorem judgeTest_fr (l : Nat) (m : Margin) (r : State × List Nat × List (Nat × Dir)) (t : Nat) : Fr 82028 r.1 (judgeTest l m r t).1 := by
  unfold judgeTest
  try dsimp only
  repeat' first
    | with_reducible apply Fr.refl
    | with_reducible apply Fr.ite
    | with_reducible apply Fr.ite1
    | with_reducible apply Fr.step (raiseEvent_fr _ _ _ _ _) ?_
    | with_reducible apply Fr.step (moveToSpare_fr _ _ _) ?_
    | (split <;> try (rename_i h; have e := congrArg Prod.fst h; dsimp only at e; subst e))
    | dsimp only

theorem undoMove_fr (s : State) (d : Dir) (q : Nat) : Fr 32 s (undoMove s d q) := by
  unfold undoMove
  try dsimp only
  repeat' first
    | with_reducible apply Fr.refl
    | with_reducible apply Fr.ite
    | with_reducible apply Fr.step (modChan_fr _ _ _ _) ?_
    | split
    | dsimp only

theorem marginJudge_fr (s : State) (l : Nat) (m : Margin) : Fr 114925 s (marginJudge s l m) := by
  unfold marginJudge
  try dsimp only
  repeat' first
    | with_reducible apply Fr.refl
    | with_reducible apply Fr.ite
    | with_reducible apply Fr.forEach _ _ (fun y a => ?_) ?_
    | with_reducible apply Fr.foldl _ _ (fun y a => ?_) ?_
    | with_reducible apply Fr.foldl1 _ _ (fun y a => ?_) ?_
    | with_reducible apply Fr.step (judgeSpares_fr _ _ _) ?_
    | with_reducible apply Fr.step (judgeTest_fr _ _ _ _) ?_
    | with_reducible apply Fr.step (retireLane_fr _ _ _ _ _) ?_
    | with_reducible apply Fr.step (undoMove_fr _ _ _) ?_
    | with_reducible apply Fr.step (modLink_fr _ _ _) ?_
    | with_reducible apply Fr.step (raiseEvent_fr _ _ _ _ _) ?_
    | (split <;> try (rename_i h; have e := congrArg Prod.fst h; dsimp only at e; subst e))
    | dsimp only

theorem sendReport_fr (s : State) (q : Nat) (ch : Nat) (round : Nat) (errors : Nat) (limit : Nat) (quick : Bool) : Fr 68 s (sendReport s q ch round errors limit quick) := by
  unfold sendReport
  try dsimp only
  repeat' first
    | with_reducible apply Fr.refl
    | with_reducible apply Fr.ite
    | with_reducible apply Fr.step (sendOs_fr _ _ _ _) ?_
    | split
    | dsimp only

theorem spareColours_fr (s : State) (q : Nat) : Fr 32 s (spareColours s q) := by
  unfold spareColours
  try dsimp only
  repeat' first
    | with_reducible apply Fr.refl
    | with_reducible apply Fr.ite
    | with_reducible apply Fr.forEach _ _ (fun y a => ?_) ?_
    | with_reducible apply Fr.step (modChan_fr _ _ _ _) ?_
    | split
    | dsimp only

theorem marginBegin_fr (s : State) (l : Nat) : Fr 96 s (marginBegin s l) := by
  unfold marginBegin
  try dsimp only
  repeat' first
    | with_reducible apply Fr.refl
    | with_reducible apply Fr.ite
    | with_reducible apply Fr.forEach _ _ (fun y a => ?_) ?_
    | with_reducible apply Fr.step (spareColours_fr _ _) ?_
    | with_reducible apply Fr.step (modLink_fr _ _ _) ?_
    | split
    | dsimp only

theorem marginTestStart_fr (l : Nat) (s : State) : Fr 96 s (marginTestStart l s) := by
  unfold marginTestStart
  try dsimp only
  repeat' first
    | with_reducible apply Fr.refl
    | with_reducible apply Fr.ite
    | with_reducible apply Fr.step (marginBegin_fr _ _) ?_
    | split
    | dsimp only

theorem marginPowerStep_fr (l : Nat) (s : State) : Fr 245965 s (marginPowerStep l s) := by
  unfold marginPowerStep
  try dsimp only
  repeat' first
    | with_reducible apply Fr.refl
    | with_reducible apply Fr.ite
    | with_reducible apply Fr.forEach _ _ (fun y a => ?_) ?_
    | with_reducible apply Fr.step (modLink_fr _ _ _) ?_
    | with_reducible apply Fr.step (await_fr _ _ _) ?_
    | with_reducible apply Fr.step (journalMove_fr _ _) ?_
    | with_reducible apply Fr.step (noteHealth_fr _) ?_
    | with_reducible apply Fr.step (lanesToUp_fr _ _ _) ?_
    | split
    | dsimp only

theorem marginWindowOpen_fr (l : Nat) (s : State) : Fr 131136 s (marginWindowOpen l s) := by
  unfold marginWindowOpen
  try dsimp only
  repeat' first
    | with_reducible apply Fr.refl
    | with_reducible apply Fr.ite
    | with_reducible apply Fr.step (await_fr _ _ _) ?_
    | with_reducible apply Fr.step (modLink_fr _ _ _) ?_
    | split
    | dsimp only

theorem marginWindowClose_fr (l : Nat) (counts : Tab (Nat × Nat)) (s : State) : Fr 245997 s (marginWindowClose l counts s) := by
  unfold marginWindowClose
  try dsimp only
  repeat' first
    | with_reducible apply Fr.refl
    | with_reducible apply Fr.ite
    | with_reducible apply Fr.forEach _ _ (fun y a => ?_) ?_
    | with_reducible apply Fr.step (await_fr _ _ _) ?_
    | with_reducible apply Fr.step (modLink_fr _ _ _) ?_
    | with_reducible apply Fr.step (sendReport_fr _ _ _ _ _ _ _) ?_
    | with_reducible apply Fr.step (noteHealth_fr _) ?_
    | with_reducible apply Fr.step (marginJudge_fr _ _ _) ?_
    | split
    | dsimp only

theorem marginReportWaitExpiry_fr (l : Nat) (s : State) : Fr 245957 s (marginReportWaitExpiry l s) := by
  unfold marginReportWaitExpiry
  try dsimp only
  repeat' first
    | with_reducible apply Fr.refl
    | with_reducible apply Fr.ite
    | with_reducible apply Fr.step (await_fr _ _ _) ?_
    | with_reducible apply Fr.step (modLink_fr _ _ _) ?_
    | with_reducible apply Fr.step (raiseEvent_fr _ _ _ _ _) ?_
    | with_reducible apply Fr.step (refreshLink_fr _ _ _ _) ?_
    | split
    | dsimp only

theorem marginRetry_fr (l : Nat) (s : State) : Fr 245989 s (marginRetry l s) := by
  unfold marginRetry
  try dsimp only
  repeat' first
    | with_reducible apply Fr.refl
    | with_reducible apply Fr.ite
    | with_reducible apply Fr.step (modLink_fr _ _ _) ?_
    | with_reducible apply Fr.step (awaitOpt_fr _ _ _) ?_
    | with_reducible apply Fr.step (marginBegin_fr _ _) ?_
    | with_reducible apply Fr.step (refreshLink_fr _ _ _ _) ?_
    | split
    | dsimp only

theorem quickBegin_fr (s : State) (q : Nat) : Fr 64 s (quickBegin s q) := by
  unfold quickBegin
  try dsimp only
  repeat' first
    | with_reducible apply Fr.refl
    | with_reducible apply Fr.ite
    | with_reducible apply Fr.step (modLane_fr _ _ _) ?_
    | split
    | dsimp only

theorem quickRaise_fr (s : State) (l : Nat) : Fr 114885 s (quickRaise s l) := by
  unfold quickRaise
  try dsimp only
  repeat' first
    | with_reducible apply Fr.refl
    | with_reducible apply Fr.ite
    | with_reducible apply Fr.step (lanesToUp_fr _ _ _) ?_
    | split
    | dsimp only

theorem quickJudge_fr (s : State) (q : Nat) : Fr 114917 s (quickJudge s q) := by
  unfold quickJudge
  try dsimp only
  repeat' first
    | with_reducible apply Fr.refl
    | with_reducible apply Fr.ite
    | with_reducible apply Fr.step (modLane_fr _ _ _) ?_
    | with_reducible apply Fr.step (spareColours_fr _ _) ?_
    | with_reducible apply Fr.step (quickRaise_fr _ _) ?_
    | split
    | dsimp only

theorem quickSpareJudge_fr (s : State) (q : Nat) : Fr 114925 s (quickSpareJudge s q) := by
  unfold quickSpareJudge
  try dsimp only
  repeat' first
    | with_reducible apply Fr.refl
    | with_reducible apply Fr.ite
    | with_reducible apply Fr.forEach _ _ (fun y a => ?_) ?_
    | with_reducible apply Fr.step (markSpare_fr _ _ _ _) ?_
    | with_reducible apply Fr.step (sendReport_fr _ _ _ _ _ _ _) ?_
    | with_reducible apply Fr.step (moveToSpare_fr _ _ _) ?_
    | with_reducible apply Fr.step (quickBegin_fr _ _) ?_
    | with_reducible apply Fr.step (refreshLink_fr _ _ _ _) ?_
    | with_reducible apply Fr.step (laneToDown_fr _ _ _) ?_
    | split
    | dsimp only

theorem quickCheckWindowClose_fr (q : Nat) (counts : Tab (Nat × Nat)) (s : State) : Fr 245997 s (quickCheckWindowClose q counts s) := by
  unfold quickCheckWindowClose
  try dsimp only
  repeat' first
    | with_reducible apply Fr.refl
    | with_reducible apply Fr.ite
    | with_reducible apply Fr.step (modLane_fr _ _ _) ?_
    | with_reducible apply Fr.step (noteHealth_fr _) ?_
    | with_reducible apply Fr.step (quickSpareJudge_fr _ _) ?_
    | with_reducible apply Fr.step (awaitOpt_fr _ _ _) ?_
    | with_reducible apply Fr.step (sendReport_fr _ _ _ _ _ _ _) ?_
    | with_reducible apply Fr.step (quickJudge_fr _ _) ?_
    | split
    | dsimp only

theorem countMargin_fr (s : State) (q : Nat) (ch : Nat) (bits : Nat) (undecoded : Nat) : Fr 64 s (countMargin s q ch bits undecoded) := by
  unfold countMargin
  try dsimp only
  repeat' first
    | with_reducible apply Fr.refl
    | with_reducible apply Fr.ite
    | with_reducible apply Fr.step (modLane_fr _ _ _) ?_
    | with_reducible apply Fr.step (modLink_fr _ _ _) ?_
    | split
    | dsimp only

theorem marginReport_fr (q : Nat) (b : BitVec 104) (s : State) : Fr 114925 s (marginReport q b s) := by
  unfold marginReport
  try dsimp only
  repeat' first
    | with_reducible apply Fr.refl
    | with_reducible apply Fr.ite
    | with_reducible apply Fr.forEach _ _ (fun y a => ?_) ?_
    | with_reducible apply Fr.step (osIllegal_fr _ _) ?_
    | with_reducible apply Fr.step (quickJudge_fr _ _) ?_
    | with_reducible apply Fr.step (modLane_fr _ _ _) ?_
    | with_reducible apply Fr.step (markSpare_fr _ _ _ _) ?_
    | with_reducible apply Fr.step (modLink_fr _ _ _) ?_
    | with_reducible apply Fr.step (noteHealth_fr _) ?_
    | with_reducible apply Fr.step (marginJudge_fr _ _ _) ?_
    | split
    | dsimp only

theorem positionAdvance_fr (s : State) (l : Nat) : Fr 114885 s (positionAdvance s l) := by
  unfold positionAdvance
  try dsimp only
  repeat' first
    | with_reducible apply Fr.refl
    | with_reducible apply Fr.ite
    | with_reducible apply Fr.forEach _ _ (fun y a => ?_) ?_
    | with_reducible apply Fr.step (lanesToUp_fr _ _ _) ?_
    | with_reducible apply Fr.step (quickBegin_fr _ _) ?_
    | with_reducible apply Fr.step (modLane_fr _ _ _) ?_
    | with_reducible apply Fr.step (refreshLink_fr _ _ _ _) ?_
    | split
    | dsimp only

theorem laneToPosition_fr (s : State) (q : Nat) : Fr 114885 s (laneToPosition s q) := by
  unfold laneToPosition
  try dsimp only
  repeat' first
    | with_reducible apply Fr.refl
    | with_reducible apply Fr.ite
    | with_reducible apply Fr.step (refreshLink_fr _ _ _ _) ?_
    | with_reducible apply Fr.step (modLane_fr _ _ _) ?_
    | split
    | dsimp only

theorem holdDown_fr (s : State) (l : Nat) (cause : Nat) : Fr 114885 s (holdDown s l cause) := by
  unfold holdDown
  try dsimp only
  repeat' first
    | with_reducible apply Fr.refl
    | with_reducible apply Fr.ite
    | with_reducible apply Fr.forEach _ _ (fun y a => ?_) ?_
    | with_reducible apply Fr.step (modLane_fr _ _ _) ?_
    | with_reducible apply Fr.step (refreshLink_fr _ _ _ _) ?_
    | with_reducible apply Fr.step (modLink_fr _ _ _) ?_
    | split
    | dsimp only

theorem positionReceive_fr (q : Nat) (b : BitVec 104) (s : State) : Fr 114885 s (positionReceive q b s) := by
  unfold positionReceive
  try dsimp only
  repeat' first
    | with_reducible apply Fr.refl
    | with_reducible apply Fr.ite
    | with_reducible apply Fr.step (osIllegal_fr _ _) ?_
    | with_reducible apply Fr.step (modLink_fr _ _ _) ?_
    | with_reducible apply Fr.step (raiseEvent_fr _ _ _ _ _) ?_
    | with_reducible apply Fr.step (holdDown_fr _ _ _) ?_
    | with_reducible apply Fr.step (positionAdvance_fr _ _) ?_
    | with_reducible apply Fr.step (modLane_fr _ _ _) ?_
    | split
    | dsimp only

theorem linkBringupRetry_fr (l : Nat) (s : State) : Fr 245957 s (linkBringupRetry l s) := by
  unfold linkBringupRetry
  try dsimp only
  repeat' first
    | with_reducible apply Fr.refl
    | with_reducible apply Fr.ite
    | with_reducible apply Fr.step (awaitOpt_fr _ _ _) ?_
    | with_reducible apply Fr.step (refreshLink_fr _ _ _ _) ?_
    | with_reducible apply Fr.step (modLink_fr _ _ _) ?_
    | split
    | dsimp only

theorem positionSend_fr (q : Nat) (s : State) : Fr 131140 s (positionSend q s) := by
  unfold positionSend
  try dsimp only
  repeat' first
    | with_reducible apply Fr.refl
    | with_reducible apply Fr.ite
    | with_reducible apply Fr.step (await_fr _ _ _) ?_
    | with_reducible apply Fr.step (modLane_fr _ _ _) ?_
    | with_reducible apply Fr.step (sendOs_fr _ _ _ _) ?_
    | split
    | dsimp only

theorem heartbeatSend_fr (q : Nat) (s : State) : Fr 131140 s (heartbeatSend q s) := by
  unfold heartbeatSend
  try dsimp only
  repeat' first
    | with_reducible apply Fr.refl
    | with_reducible apply Fr.ite
    | with_reducible apply Fr.step (await_fr _ _ _) ?_
    | with_reducible apply Fr.step (modLane_fr _ _ _) ?_
    | with_reducible apply Fr.step (sendOs_fr _ _ _ _) ?_
    | with_reducible apply Fr.step (modLink_fr _ _ _) ?_
    | split
    | dsimp only

theorem partnerDisable_fr (s : State) (l : Nat) : Fr 114885 s (partnerDisable s l) := by
  unfold partnerDisable
  try dsimp only
  repeat' first
    | with_reducible apply Fr.refl
    | with_reducible apply Fr.ite
    | with_reducible apply Fr.forEach _ _ (fun y a => ?_) ?_
    | with_reducible apply Fr.step (modLink_fr _ _ _) ?_
    | with_reducible apply Fr.step (modLane_fr _ _ _) ?_
    | with_reducible apply Fr.step (laneToDown_fr _ _ _) ?_
    | with_reducible apply Fr.step (refreshLink_fr _ _ _ _) ?_
    | split
    | dsimp only

theorem heartbeatReceive_fr (q : Nat) (b : BitVec 104) (s : State) : Fr 114885 s (heartbeatReceive q b s) := by
  unfold heartbeatReceive
  try dsimp only
  repeat' first
    | with_reducible apply Fr.refl
    | with_reducible apply Fr.ite
    | with_reducible apply Fr.step (modLane_fr _ _ _) ?_
    | with_reducible apply Fr.step (partnerDisable_fr _ _) ?_
    | with_reducible apply Fr.step (refreshLink_fr _ _ _ _) ?_
    | with_reducible apply Fr.step (modLink_fr _ _ _) ?_
    | with_reducible apply Fr.step (positionAdvance_fr _ _) ?_
    | split
    | dsimp only

theorem heartbeatTimeout_fr (q : Nat) (s : State) : Fr 245997 s (heartbeatTimeout q s) := by
  unfold heartbeatTimeout
  try dsimp only
  repeat' first
    | with_reducible apply Fr.refl
    | with_reducible apply Fr.ite
    | with_reducible apply Fr.step (noteHealth_fr _) ?_
    | with_reducible apply Fr.step (laneDie_fr _ _ _ _ _) ?_
    | with_reducible apply Fr.step (await_fr _ _ _) ?_
    | split
    | dsimp only

theorem creditReceive_fr (q : Nat) (hi : Bool) (b : BitVec 104) (s : State) : Fr 65600 s (creditReceive q hi b s) := by
  unfold creditReceive
  try dsimp only
  repeat' first
    | with_reducible apply Fr.refl
    | with_reducible apply Fr.ite
    | with_reducible apply Fr.forEach _ _ (fun y a => ?_) ?_
    | with_reducible apply Fr.step (osIllegal_fr _ _) ?_
    | with_reducible apply Fr.step (modLink_fr _ _ _) ?_
    | split
    | dsimp only

theorem creditResync_fr (q : Nat) (b : BitVec 104) (s : State) : Fr 65600 s (creditResync q b s) := by
  unfold creditResync
  try dsimp only
  repeat' first
    | with_reducible apply Fr.refl
    | with_reducible apply Fr.ite
    | with_reducible apply Fr.step (osIllegal_fr _ _) ?_
    | with_reducible apply Fr.step (modLink_fr _ _ _) ?_
    | split
    | dsimp only

theorem sendRetry_fr (s : State) (q : Nat) (attempt : Nat) : Fr 65604 s (sendRetry s q attempt) := by
  unfold sendRetry
  try dsimp only
  repeat' first
    | with_reducible apply Fr.refl
    | with_reducible apply Fr.ite
    | with_reducible apply Fr.step (modLane_fr _ _ _) ?_
    | with_reducible apply Fr.step (bump_fr _ _) ?_
    | with_reducible apply Fr.step (sendOs_fr _ _ _ _) ?_
    | split
    | dsimp only

theorem retryReceive_fr (q : Nat) (b : BitVec 104) (s : State) : Fr 114925 s (retryReceive q b s) := by
  unfold retryReceive
  try dsimp only
  repeat' first
    | with_reducible apply Fr.refl
    | with_reducible apply Fr.ite
    | with_reducible apply Fr.step (osIllegal_fr _ _) ?_
    | with_reducible apply Fr.step (modLane_fr _ _ _) ?_
    | with_reducible apply Fr.step (noteHealth_fr _) ?_
    | with_reducible apply Fr.step (laneDie_fr _ _ _ _ _) ?_
    | with_reducible apply Fr.step (raiseEvent_fr _ _ _ _ _) ?_
    | split
    | dsimp only

theorem retryTimeout_fr (q : Nat) (s : State) : Fr 245997 s (retryTimeout q s) := by
  unfold retryTimeout
  try dsimp only
  repeat' first
    | with_reducible apply Fr.refl
    | with_reducible apply Fr.ite
    | with_reducible apply Fr.step (await_fr _ _ _) ?_
    | with_reducible apply Fr.step (sendRetry_fr _ _ _) ?_
    | with_reducible apply Fr.step (noteHealth_fr _) ?_
    | with_reducible apply Fr.step (laneDie_fr _ _ _ _ _) ?_
    | split
    | dsimp only

theorem linkctlQuiesce_fr (q : Nat) (_b : BitVec 104) (s : State) : Fr 65600 s (linkctlQuiesce q _b s) := by
  unfold linkctlQuiesce
  try dsimp only
  repeat' first
    | with_reducible apply Fr.refl
    | with_reducible apply Fr.ite
    | with_reducible apply Fr.step (modLane_fr _ _ _) ?_
    | with_reducible apply Fr.step (osIllegal_fr _ _) ?_
    | split
    | dsimp only

theorem linkctlResume_fr (q : Nat) (_b : BitVec 104) (s : State) : Fr 65600 s (linkctlResume q _b s) := by
  unfold linkctlResume
  try dsimp only
  repeat' first
    | with_reducible apply Fr.refl
    | with_reducible apply Fr.ite
    | with_reducible apply Fr.step (modLane_fr _ _ _) ?_
    | with_reducible apply Fr.step (osIllegal_fr _ _) ?_
    | split
    | dsimp only

theorem linkctlDisable_fr (q : Nat) (_b : BitVec 104) (s : State) : Fr 114885 s (linkctlDisable q _b s) := by
  unfold linkctlDisable
  try dsimp only
  repeat' first
    | with_reducible apply Fr.refl
    | with_reducible apply Fr.ite
    | with_reducible apply Fr.step (partnerDisable_fr _ _) ?_
    | with_reducible apply Fr.step (osIllegal_fr _ _) ?_
    | split
    | dsimp only

theorem lossOfLight_fr (q : Nat) (s : State) : Fr 114925 s (lossOfLight q s) := by
  unfold lossOfLight
  try dsimp only
  repeat' first
    | with_reducible apply Fr.refl
    | with_reducible apply Fr.ite
    | with_reducible apply Fr.step (modLane_fr _ _ _) ?_
    | with_reducible apply Fr.step (noteHealth_fr _) ?_
    | with_reducible apply Fr.step (laneDie_fr _ _ _ _ _) ?_
    | with_reducible apply Fr.step (refreshLink_fr _ _ _ _) ?_
    | with_reducible apply Fr.step (laneToDown_fr _ _ _) ?_
    | split
    | dsimp only

theorem lightPresent_fr (q : Nat) (s : State) : Fr 262143 s (lightPresent q s) := by
  unfold lightPresent
  try dsimp only
  repeat' first
    | with_reducible apply Fr.refl
    | with_reducible apply Fr.ite
    | with_reducible apply Fr.step (modLane_fr _ _ _) ?_
    | with_reducible apply Fr.step (wake_fr _ _) ?_
    | with_reducible apply Fr.step (refreshLink_fr _ _ _ _) ?_
    | with_reducible apply Fr.step (putLaneState_fr _ _ _) ?_
    | split
    | dsimp only

theorem restartLane_fr (s : State) (q : Nat) : Fr 64 s (restartLane s q) := by
  unfold restartLane
  try dsimp only
  repeat' first
    | with_reducible apply Fr.refl
    | with_reducible apply Fr.ite
    | with_reducible apply Fr.step (modLane_fr _ _ _) ?_
    | split
    | dsimp only

theorem linkEnable_fr (f : Func) (l : Nat) (v : Word) (s : State) : Fr 114919 s (linkEnable f l v s) := by
  unfold linkEnable
  try dsimp only
  repeat' first
    | with_reducible apply Fr.refl
    | with_reducible apply Fr.ite
    | with_reducible apply Fr.forEach _ _ (fun y a => ?_) ?_
    | with_reducible apply Fr.step (writeReg_fr _ _ _) ?_
    | with_reducible apply Fr.step (restartLane_fr _ _) ?_
    | with_reducible apply Fr.step (modChan_fr _ _ _ _) ?_
    | with_reducible apply Fr.step (modLane_fr _ _ _) ?_
    | with_reducible apply Fr.step (noteHealth_fr _) ?_
    | with_reducible apply Fr.step (refreshLink_fr _ _ _ _) ?_
    | with_reducible apply Fr.step (modLink_fr _ _ _) ?_
    | split
    | dsimp only

theorem linkDisable_fr (f : Func) (l : Nat) (v : Word) (s : State) : Fr 114887 s (linkDisable f l v s) := by
  unfold linkDisable
  try dsimp only
  repeat' first
    | with_reducible apply Fr.refl
    | with_reducible apply Fr.ite
    | with_reducible apply Fr.forEach _ _ (fun y a => ?_) ?_
    | with_reducible apply Fr.step (writeReg_fr _ _ _) ?_
    | with_reducible apply Fr.step (laneToDown_fr _ _ _) ?_
    | with_reducible apply Fr.step (sendLinkctl_fr _ _ _) ?_
    | with_reducible apply Fr.step (modLink_fr _ _ _) ?_
    | with_reducible apply Fr.step (refreshLink_fr _ _ _ _) ?_
    | split
    | dsimp only

end Sys2Proof.Machine
end

