-- ==== Sys2Proof/Laws/FrOptics.lean ====
section
/-! SUPPORT. What each operation of optics, fences and sampling can do, by Laws/Frame.lean. -/
/- Proofs of this file are elaborated one after another: side by side, their waiting threads' stacks
together pass the memory limit of the check. -/
set_option Elab.async false
namespace Sys2Proof.Machine

theorem endSprues_fr (s : State) (n : Nat) : Fr 32 s (endSprues s n) := by
  unfold endSprues
  try dsimp only
  repeat' first
    | with_reducible apply Fr.refl
    | with_reducible apply Fr.ite
    | with_reducible apply Fr.forEach _ _ (fun y a => ?_) ?_
    | (with_reducible apply Fr.put_opt _ ?_; first | with_reducible apply Fr.refl | with_reducible apply Fr.ite | with_reducible apply Fr.forEach _ _ (fun y a => ?_) ?_ | split)
    | split
    | dsimp only

theorem darkenEngine_fr (s : State) (n : Nat) (cause : Nat) (counts : Bool) : Fr 114917 s (darkenEngine s n cause counts) := by
  unfold darkenEngine
  try dsimp only
  repeat' first
    | with_reducible apply Fr.refl
    | with_reducible apply Fr.ite
    | with_reducible apply Fr.forEach _ _ (fun y a => ?_) ?_
    | with_reducible apply Fr.step (endSprues_fr _ _) ?_
    | with_reducible apply Fr.step (dropSwap_fr _ _ _) ?_
    | with_reducible apply Fr.step (modLane_fr _ _ _) ?_
    | with_reducible apply Fr.step (laneToDown_fr _ _ _) ?_
    | with_reducible apply Fr.step (modEngine_fr _ _ _) ?_
    | with_reducible apply Fr.step (modLink_fr _ _ _) ?_
    | with_reducible apply Fr.step (refreshLink_fr _ _ _ _) ?_
    | (with_reducible apply Fr.put_opt _ ?_; first | with_reducible apply Fr.refl | with_reducible apply Fr.ite | with_reducible apply Fr.forEach _ _ (fun y a => ?_) ?_ | with_reducible apply Fr.step (endSprues_fr _ _) ?_ | with_reducible apply Fr.step (dropSwap_fr _ _ _) ?_ | with_reducible apply Fr.step (modLane_fr _ _ _) ?_ | with_reducible apply Fr.step (laneToDown_fr _ _ _) ?_ | with_reducible apply Fr.step (modEngine_fr _ _ _) ?_ | with_reducible apply Fr.step (modLink_fr _ _ _) ?_ | with_reducible apply Fr.step (refreshLink_fr _ _ _ _) ?_ | split)
    | split
    | dsimp only

theorem lockEngine_fr (s : State) (n : Nat) : Fr 114885 s (lockEngine s n) := by
  unfold lockEngine
  try dsimp only
  repeat' first
    | with_reducible apply Fr.refl
    | with_reducible apply Fr.ite
    | with_reducible apply Fr.forEach _ _ (fun y a => ?_) ?_
    | with_reducible apply Fr.step (putLaneState_fr _ _ _) ?_
    | with_reducible apply Fr.step (refreshLink_fr _ _ _ _) ?_
    | split
    | dsimp only

theorem beginBringup_fr (s : State) (n : Nat) : Fr 114917 s (beginBringup s n) := by
  unfold beginBringup
  try dsimp only
  repeat' first
    | with_reducible apply Fr.refl
    | with_reducible apply Fr.ite
    | with_reducible apply Fr.step (lockEngine_fr _ _) ?_
    | with_reducible apply Fr.step (modEngine_fr _ _ _) ?_
    | split
    | dsimp only

theorem setSprue_fr (s : State) (n : Nat) (i : Nat) (e : Sprue) : Fr 32 s (setSprue s n i e) := by
  unfold setSprue
  try dsimp only
  repeat' first
    | with_reducible apply Fr.refl
    | with_reducible apply Fr.ite
    | (with_reducible apply Fr.put_opt _ ?_; first | with_reducible apply Fr.refl | with_reducible apply Fr.ite | split)
    | split
    | dsimp only

theorem releaseSprue_fr (s : State) (n : Nat) (i : Nat) : Fr 32 s (releaseSprue s n i) := by
  unfold releaseSprue
  try dsimp only
  repeat' first
    | with_reducible apply Fr.refl
    | with_reducible apply Fr.ite
    | with_reducible apply Fr.step (setSprue_fr _ _ _ _) ?_
    | split
    | dsimp only

theorem sprueEnWritten_fr (s : State) (n : Nat) : Fr 32 s (sprueEnWritten s n) := by
  unfold sprueEnWritten
  try dsimp only
  repeat' first
    | with_reducible apply Fr.refl
    | with_reducible apply Fr.ite
    | with_reducible apply Fr.forEach _ _ (fun y a => ?_) ?_
    | with_reducible apply Fr.step (releaseSprue_fr _ _ _) ?_
    | split
    | dsimp only

theorem laserEnSet_fr (f : Func) (n : Nat) (v : Word) (s : State) : Fr 114919 s (laserEnSet f n v s) := by
  unfold laserEnSet
  try dsimp only
  repeat' first
    | with_reducible apply Fr.refl
    | with_reducible apply Fr.ite
    | with_reducible apply Fr.step (sprueEnWritten_fr _ _) ?_
    | with_reducible apply Fr.step (writeReg_fr _ _ _) ?_
    | with_reducible apply Fr.step (beginBringup_fr _ _) ?_
    | split
    | dsimp only

theorem laserEnClear_fr (f : Func) (n : Nat) (v : Word) (s : State) : Fr 114919 s (laserEnClear f n v s) := by
  unfold laserEnClear
  try dsimp only
  repeat' first
    | with_reducible apply Fr.refl
    | with_reducible apply Fr.ite
    | with_reducible apply Fr.step (sprueEnWritten_fr _ _) ?_
    | with_reducible apply Fr.step (writeReg_fr _ _ _) ?_
    | with_reducible apply Fr.step (darkenEngine_fr _ _ _ _) ?_
    | with_reducible apply Fr.step (modEngine_fr _ _ _) ?_
    | split
    | dsimp only

theorem oeBringupDone_fr (n : Nat) (s : State) : Fr 114917 s (oeBringupDone n s) := by
  unfold oeBringupDone
  try dsimp only
  repeat' first
    | with_reducible apply Fr.refl
    | with_reducible apply Fr.ite
    | with_reducible apply Fr.step (lockEngine_fr _ _) ?_
    | with_reducible apply Fr.step (modEngine_fr _ _ _) ?_
    | split
    | dsimp only

theorem oeFault_fr (s : State) (n : Nat) (cause : Nat) : Fr 114917 s (oeFault s n cause) := by
  unfold oeFault
  try dsimp only
  repeat' first
    | with_reducible apply Fr.refl
    | with_reducible apply Fr.ite
    | with_reducible apply Fr.step (modEngine_fr _ _ _) ?_
    | with_reducible apply Fr.step (raiseEvent_fr _ _ _ _ _) ?_
    | with_reducible apply Fr.step (darkenEngine_fr _ _ _ _) ?_
    | split
    | dsimp only

theorem oeBringupTimeout_fr (n : Nat) (cause : Nat) (s : State) : Fr 245989 s (oeBringupTimeout n cause s) := by
  unfold oeBringupTimeout
  try dsimp only
  repeat' first
    | with_reducible apply Fr.refl
    | with_reducible apply Fr.ite
    | with_reducible apply Fr.step (noteHealth_fr _) ?_
    | with_reducible apply Fr.step (oeFault_fr _ _ _) ?_
    | with_reducible apply Fr.step (awaitOpt_fr _ _ _) ?_
    | split
    | dsimp only

theorem oeBringupRetry_fr (n : Nat) (s : State) : Fr 245989 s (oeBringupRetry n s) := by
  unfold oeBringupRetry
  try dsimp only
  repeat' first
    | with_reducible apply Fr.refl
    | with_reducible apply Fr.ite
    | with_reducible apply Fr.step (beginBringup_fr _ _) ?_
    | with_reducible apply Fr.step (awaitOpt_fr _ _ _) ?_
    | split
    | dsimp only

theorem senseOne_fr (n : Nat) (r : List (BitVec 16)) (s : State) (i : Nat) : Fr 81956 s (senseOne n r s i) := by
  unfold senseOne
  try dsimp only
  repeat' first
    | with_reducible apply Fr.refl
    | with_reducible apply Fr.ite
    | with_reducible apply Fr.step (raiseEvent_fr _ _ _ _ _) ?_
    | with_reducible apply Fr.step (modEngine_fr _ _ _) ?_
    | split
    | dsimp only

theorem optSensorSample_fr (n : Nat) (readings : List (BitVec 16)) (s : State) : Fr 114917 s (optSensorSample n readings s) := by
  unfold optSensorSample
  try dsimp only
  repeat' first
    | with_reducible apply Fr.refl
    | with_reducible apply Fr.ite
    | with_reducible apply Fr.forEach _ _ (fun y a => ?_) ?_
    | with_reducible apply Fr.step (senseOne_fr _ _ _ _) ?_
    | with_reducible apply Fr.step (modEngine_fr _ _ _) ?_
    | with_reducible apply Fr.step (takeFree_fr _) ?_
    | with_reducible apply Fr.step (oeFault_fr _ _ _) ?_
    | with_reducible apply Fr.step (noteHealth_fr _) ?_
    | split
    | dsimp only

theorem ditherLockLoss_fr (n : Nat) (t : Nat) (d : Dir) (s : State) : Fr 114925 s (ditherLockLoss n t d s) := by
  unfold ditherLockLoss
  try dsimp only
  repeat' first
    | with_reducible apply Fr.refl
    | with_reducible apply Fr.ite
    | with_reducible apply Fr.step (modChan_fr _ _ _ _) ?_
    | with_reducible apply Fr.step (noteHealth_fr _) ?_
    | with_reducible apply Fr.step (laneDie_fr _ _ _ _ _) ?_
    | split
    | dsimp only

theorem lockReacquired_fr (n : Nat) (t : Nat) (d : Dir) (s : State) : Fr 32 s (lockReacquired n t d s) := by
  unfold lockReacquired
  try dsimp only
  repeat' first
    | with_reducible apply Fr.refl
    | with_reducible apply Fr.ite
    | with_reducible apply Fr.step (modChan_fr _ _ _ _) ?_
    | split
    | dsimp only

theorem fadeOne_fr (n : Nat) (s : State) (p : Nat × Nat) : Fr 114925 s (fadeOne n s p) := by
  unfold fadeOne
  try dsimp only
  repeat' first
    | with_reducible apply Fr.refl
    | with_reducible apply Fr.ite
    | with_reducible apply Fr.step (modChan_fr _ _ _ _) ?_
    | with_reducible apply Fr.step (raiseEvent_fr _ _ _ _ _) ?_
    | with_reducible apply Fr.step (fadeSwap_fr _ _ _) ?_
    | with_reducible apply Fr.step (retireLane_fr _ _ _ _ _) ?_
    | split
    | dsimp only

theorem laserFadeSample_fr (n : Nat) (fades : List (Nat × Nat)) (s : State) : Fr 114925 s (laserFadeSample n fades s) := by
  unfold laserFadeSample
  try dsimp only
  repeat' first
    | with_reducible apply Fr.refl
    | with_reducible apply Fr.ite
    | with_reducible apply Fr.forEach _ _ (fun y a => ?_) ?_
    | with_reducible apply Fr.step (noteHealth_fr _) ?_
    | with_reducible apply Fr.step (fadeOne_fr _ _ _) ?_
    | split
    | dsimp only

theorem spareLocked_fr (q : Nat) (s : State) : Fr 131172 s (spareLocked q s) := by
  unfold spareLocked
  try dsimp only
  repeat' first
    | with_reducible apply Fr.refl
    | with_reducible apply Fr.ite
    | with_reducible apply Fr.step (await_fr _ _ _) ?_
    | with_reducible apply Fr.step (setSwap_fr _ _ _ _) ?_
    | with_reducible apply Fr.step (sendOs_fr _ _ _ _) ?_
    | split
    | dsimp only

theorem swReadyReceive_fr (q : Nat) (b : BitVec 104) (s : State) : Fr 65568 s (swReadyReceive q b s) := by
  unfold swReadyReceive
  try dsimp only
  repeat' first
    | with_reducible apply Fr.refl
    | with_reducible apply Fr.ite
    | with_reducible apply Fr.step (osIllegal_fr _ _) ?_
    | with_reducible apply Fr.step (modChan_fr _ _ _ _) ?_
    | with_reducible apply Fr.step (setSwap_fr _ _ _ _) ?_
    | split
    | dsimp only

theorem duplicateIntervalEnd_fr (q : Nat) (s : State) : Fr 131104 s (duplicateIntervalEnd q s) := by
  unfold duplicateIntervalEnd
  try dsimp only
  repeat' first
    | with_reducible apply Fr.refl
    | with_reducible apply Fr.ite
    | with_reducible apply Fr.step (setSwap_fr _ _ _ _) ?_
    | with_reducible apply Fr.step (await_fr _ _ _) ?_
    | split
    | dsimp only

theorem swDoneReceive_fr (q : Nat) (b : BitVec 104) (s : State) : Fr 81956 s (swDoneReceive q b s) := by
  unfold swDoneReceive
  try dsimp only
  repeat' first
    | with_reducible apply Fr.refl
    | with_reducible apply Fr.ite
    | with_reducible apply Fr.step (osIllegal_fr _ _) ?_
    | with_reducible apply Fr.step (setSwap_fr _ _ _ _) ?_
    | with_reducible apply Fr.step (modChan_fr _ _ _ _) ?_
    | with_reducible apply Fr.step (raiseEvent_fr _ _ _ _ _) ?_
    | split
    | dsimp only

theorem fadedLaserDark_fr (q : Nat) (s : State) : Fr 245804 s (fadedLaserDark q s) := by
  unfold fadedLaserDark
  try dsimp only
  repeat' first
    | with_reducible apply Fr.refl
    | with_reducible apply Fr.ite
    | with_reducible apply Fr.step (noteHealth_fr _) ?_
    | with_reducible apply Fr.step (nextFade_fr _ _) ?_
    | with_reducible apply Fr.step (finishSwap_fr _ _ _) ?_
    | with_reducible apply Fr.step (await_fr _ _ _) ?_
    | split
    | dsimp only

theorem swNakReceive_fr (q : Nat) (b : BitVec 104) (s : State) : Fr 81956 s (swNakReceive q b s) := by
  unfold swNakReceive
  try dsimp only
  repeat' first
    | with_reducible apply Fr.refl
    | with_reducible apply Fr.ite
    | with_reducible apply Fr.step (raiseEvent_fr _ _ _ _ _) ?_
    | with_reducible apply Fr.step (osIllegal_fr _ _) ?_
    | with_reducible apply Fr.step (swapBackOff_fr _ _ _) ?_
    | (with_reducible apply Fr.put_opt _ ?_; first | with_reducible apply Fr.refl | with_reducible apply Fr.ite | with_reducible apply Fr.step (raiseEvent_fr _ _ _ _ _) ?_ | with_reducible apply Fr.step (osIllegal_fr _ _) ?_ | with_reducible apply Fr.step (swapBackOff_fr _ _ _) ?_ | split)
    | split
    | dsimp only

theorem swapReadyTimeout_fr (q : Nat) (s : State) : Fr 213028 s (swapReadyTimeout q s) := by
  unfold swapReadyTimeout
  try dsimp only
  repeat' first
    | with_reducible apply Fr.refl
    | with_reducible apply Fr.ite
    | with_reducible apply Fr.step (await_fr _ _ _) ?_
    | with_reducible apply Fr.step (swapBackOff_fr _ _ _) ?_
    | with_reducible apply Fr.step (raiseEvent_fr _ _ _ _ _) ?_
    | split
    | dsimp only

theorem swapDoneTimeout_fr (q : Nat) (s : State) : Fr 213028 s (swapDoneTimeout q s) := by
  unfold swapDoneTimeout
  try dsimp only
  repeat' first
    | with_reducible apply Fr.refl
    | with_reducible apply Fr.ite
    | with_reducible apply Fr.step (await_fr _ _ _) ?_
    | with_reducible apply Fr.step (raiseEvent_fr _ _ _ _ _) ?_
    | with_reducible apply Fr.step (setSwap_fr _ _ _ _) ?_
    | split
    | dsimp only

theorem swapRetry_fr (q : Nat) (s : State) : Fr 213028 s (swapRetry q s) := by
  unfold swapRetry
  try dsimp only
  repeat' first
    | with_reducible apply Fr.refl
    | with_reducible apply Fr.ite
    | with_reducible apply Fr.step (await_fr _ _ _) ?_
    | with_reducible apply Fr.step (setSwap_fr _ _ _ _) ?_
    | with_reducible apply Fr.step (fadeSwap_fr _ _ _) ?_
    | with_reducible apply Fr.step (swapBack_fr _ _ _ _) ?_
    | with_reducible apply Fr.step (startSwap_fr _ _ _ _ _) ?_
    | with_reducible apply Fr.step (calSlotEnd_fr _ _) ?_
    | split
    | dsimp only

theorem sendNak_fr (s : State) (q : Nat) (cause : Nat) : Fr 81988 s (sendNak s q cause) := by
  unfold sendNak
  try dsimp only
  repeat' first
    | with_reducible apply Fr.refl
    | with_reducible apply Fr.ite
    | with_reducible apply Fr.step (sendOs_fr _ _ _ _) ?_
    | with_reducible apply Fr.step (raiseEvent_fr _ _ _ _ _) ?_
    | split
    | dsimp only

theorem swRequestReceive_fr (q : Nat) (b : BitVec 104) (s : State) : Fr 82020 s (swRequestReceive q b s) := by
  unfold swRequestReceive
  try dsimp only
  repeat' first
    | with_reducible apply Fr.refl
    | with_reducible apply Fr.ite
    | with_reducible apply Fr.step (sendNak_fr _ _ _) ?_
    | with_reducible apply Fr.step (osIllegal_fr _ _) ?_
    | with_reducible apply Fr.step (modChan_fr _ _ _ _) ?_
    | with_reducible apply Fr.step (setSwap_fr _ _ _ _) ?_
    | with_reducible apply Fr.step (calAbort_fr _ _ _) ?_
    | split
    | dsimp only

theorem spareDropLocked_fr (q : Nat) (s : State) : Fr 82028 s (spareDropLocked q s) := by
  unfold spareDropLocked
  try dsimp only
  repeat' first
    | with_reducible apply Fr.refl
    | with_reducible apply Fr.ite
    | with_reducible apply Fr.step (modChan_fr _ _ _ _) ?_
    | with_reducible apply Fr.step (setSwap_fr _ _ _ _) ?_
    | with_reducible apply Fr.step (noteMove_fr _ _ _ _ _ _) ?_
    | with_reducible apply Fr.step (sendOs_fr _ _ _ _) ?_
    | split
    | dsimp only

theorem switchDrop_fr (s : State) (q : Nat) (mark : Nat) (w : Swap) : Fr 82028 s (switchDrop s q mark w) := by
  unfold switchDrop
  try dsimp only
  repeat' first
    | with_reducible apply Fr.refl
    | with_reducible apply Fr.ite
    | with_reducible apply Fr.step (drop2_fr _ _ _) ?_
    | with_reducible apply Fr.step (sendOs_fr _ _ _ _) ?_
    | with_reducible apply Fr.step (raiseEvent_fr _ _ _ _ _) ?_
    | split
    | dsimp only

theorem trySwitch_fr (q : Nat) (s : State) : Fr 114796 s (trySwitch q s) := by
  unfold trySwitch
  try dsimp only
  repeat' first
    | with_reducible apply Fr.refl
    | with_reducible apply Fr.ite
    | with_reducible apply Fr.step (noteHealth_fr _) ?_
    | with_reducible apply Fr.step (switchDrop_fr _ _ _ _) ?_
    | split
    | dsimp only

theorem swMarkReceive_fr (q : Nat) (newColour : Bool) (b : BitVec 104) (s : State) : Fr 114796 s (swMarkReceive q newColour b s) := by
  unfold swMarkReceive
  try dsimp only
  repeat' first
    | with_reducible apply Fr.refl
    | with_reducible apply Fr.ite
    | with_reducible apply Fr.step (osIllegal_fr _ _) ?_
    | with_reducible apply Fr.step (trySwitch_fr _ _) ?_
    | with_reducible apply Fr.step (setSwap_fr _ _ _ _) ?_
    | split
    | dsimp only

theorem journalAppend_fr (okB : Bool) (okA : Bool) (s : State) : Fr 8 s (journalAppend okB okA s) := by
  unfold journalAppend
  try dsimp only
  repeat' first
    | with_reducible apply Fr.refl
    | with_reducible apply Fr.ite
    | (with_reducible apply Fr.put_boot _ ?_ (by first | rfl | (split <;> rfl) | (dsimp only; split <;> rfl)); first | with_reducible apply Fr.refl | with_reducible apply Fr.ite | split)
    | split
    | dsimp only

theorem beginPass_fr (s : State) (n : Nat) : Fr 32 s (beginPass s n) := by
  unfold beginPass
  try dsimp only
  repeat' first
    | with_reducible apply Fr.refl
    | with_reducible apply Fr.ite
    | with_reducible apply Fr.forEach _ _ (fun y a => ?_) ?_
    | with_reducible apply Fr.step (modEngine_fr _ _ _) ?_
    | (with_reducible apply Fr.put_opt _ ?_; first | with_reducible apply Fr.refl | with_reducible apply Fr.ite | with_reducible apply Fr.forEach _ _ (fun y a => ?_) ?_ | with_reducible apply Fr.step (modEngine_fr _ _ _) ?_ | split)
    | split
    | dsimp only

theorem calPassStart_fr (n : Nat) (s : State) : Fr 131104 s (calPassStart n s) := by
  unfold calPassStart
  try dsimp only
  repeat' first
    | with_reducible apply Fr.refl
    | with_reducible apply Fr.ite
    | with_reducible apply Fr.step (beginPass_fr _ _) ?_
    | with_reducible apply Fr.step (awaitOpt_fr _ _ _) ?_
    | split
    | dsimp only

theorem noteSuspended_fr (s : State) (k : Nat) : Fr 81956 s (noteSuspended s k) := by
  unfold noteSuspended
  try dsimp only
  repeat' first
    | with_reducible apply Fr.refl
    | with_reducible apply Fr.ite
    | with_reducible apply Fr.step (countEvent_fr _ _) ?_
    | with_reducible apply Fr.step (raiseEvent_fr _ _ _ _ _) ?_
    | (with_reducible apply Fr.put_opt _ ?_; first | with_reducible apply Fr.refl | with_reducible apply Fr.ite | with_reducible apply Fr.step (countEvent_fr _ _) ?_ | with_reducible apply Fr.step (raiseEvent_fr _ _ _ _ _) ?_ | split)
    | split
    | dsimp only

theorem calSlotStart_fr (n : Nat) (s : State) : Fr 81956 s (calSlotStart n s) := by
  unfold calSlotStart
  try dsimp only
  repeat' first
    | with_reducible apply Fr.refl
    | with_reducible apply Fr.ite
    | with_reducible apply Fr.step (modEngine_fr _ _ _) ?_
    | with_reducible apply Fr.step (calSlotEnd_fr _ _) ?_
    | with_reducible apply Fr.step (startSwap_fr _ _ _ _ _) ?_
    | with_reducible apply Fr.step (noteSuspended_fr _ _) ?_
    | with_reducible apply Fr.step (modChan_fr _ _ _ _) ?_
    | split
    | dsimp only

theorem calSweepDone_fr (n : Nat) (rows : List (Nat × Word)) (s : State) : Fr 32 s (calSweepDone n rows s) := by
  unfold calSweepDone
  try dsimp only
  repeat' first
    | with_reducible apply Fr.refl
    | with_reducible apply Fr.ite
    | with_reducible apply Fr.foldl _ _ (fun y a => ?_) ?_
    | with_reducible apply Fr.foldl1 _ _ (fun y a => ?_) ?_
    | with_reducible apply Fr.step (calSlotEnd_fr _ _) ?_
    | with_reducible apply Fr.step (modEngine_fr _ _ _) ?_
    | with_reducible apply Fr.step (swapBack_fr _ _ _ _) ?_
    | (with_reducible apply Fr.put_opt _ ?_; first | with_reducible apply Fr.refl | with_reducible apply Fr.ite | with_reducible apply Fr.foldl _ _ (fun y a => ?_) ?_ | with_reducible apply Fr.foldl1 _ _ (fun y a => ?_) ?_ | with_reducible apply Fr.step (calSlotEnd_fr _ _) ?_ | with_reducible apply Fr.step (modEngine_fr _ _ _) ?_ | with_reducible apply Fr.step (swapBack_fr _ _ _ _) ?_ | split)
    | split
    | dsimp only

theorem setPlan_fr (s : State) (c : Nat) (p : Plan) : Fr 1024 s (setPlan s c p) := by
  unfold setPlan
  try dsimp only
  repeat' first
    | with_reducible apply Fr.refl
    | with_reducible apply Fr.ite
    | (with_reducible apply Fr.put_plan _ ?_; first | with_reducible apply Fr.refl | with_reducible apply Fr.ite | split)
    | split
    | dsimp only

theorem modPlan_fr (s : State) (c : Nat) (f : Plan → Plan) : Fr 1024 s (modPlan s c f) := by
  unfold modPlan
  try dsimp only
  repeat' first
    | with_reducible apply Fr.refl
    | with_reducible apply Fr.ite
    | with_reducible apply Fr.step (setPlan_fr _ _ _) ?_
    | split
    | dsimp only

theorem holdLane_fr (s : State) (q : Nat) : Fr 114917 s (holdLane s q) := by
  unfold holdLane
  try dsimp only
  repeat' first
    | with_reducible apply Fr.refl
    | with_reducible apply Fr.ite
    | with_reducible apply Fr.step (sendLinkctl_fr _ _ _) ?_
    | with_reducible apply Fr.step (dropSwap_fr _ _ _) ?_
    | with_reducible apply Fr.step (calLeave_fr _ _) ?_
    | with_reducible apply Fr.step (modLane_fr _ _ _) ?_
    | with_reducible apply Fr.step (refreshLink_fr _ _ _ _) ?_
    | split
    | dsimp only

theorem sprueSet_fr (ctx : Nat) (claim : Nat) (s : State) : Fr 247013 s (sprueSet ctx claim s) := by
  unfold sprueSet
  try dsimp only
  repeat' first
    | with_reducible apply Fr.refl
    | with_reducible apply Fr.ite
    | with_reducible apply Fr.step (awaitNt_fr _ _) ?_
    | with_reducible apply Fr.step (modPlan_fr _ _ _) ?_
    | with_reducible apply Fr.step (holdLane_fr _ _) ?_
    | with_reducible apply Fr.step (setSprue_fr _ _ _ _) ?_
    | with_reducible apply Fr.step (raiseEvent_fr _ _ _ _ _) ?_
    | (split <;> try (rename_i h; have e := congrArg Prod.fst h; dsimp only at e; subst e))
    | dsimp only

theorem sprueThrough_fr (n : Nat) (i : Nat) (s : State) : Fr 131104 s (sprueThrough n i s) := by
  unfold sprueThrough
  try dsimp only
  repeat' first
    | with_reducible apply Fr.refl
    | with_reducible apply Fr.ite
    | with_reducible apply Fr.step (await_fr _ _ _) ?_
    | with_reducible apply Fr.step (modChan_fr _ _ _ _) ?_
    | with_reducible apply Fr.step (setSprue_fr _ _ _ _) ?_
    | split
    | dsimp only

theorem sprueRelease_fr (n : Nat) (i : Nat) (s : State) : Fr 131104 s (sprueRelease n i s) := by
  unfold sprueRelease
  try dsimp only
  repeat' first
    | with_reducible apply Fr.refl
    | with_reducible apply Fr.ite
    | with_reducible apply Fr.step (releaseSprue_fr _ _ _) ?_
    | with_reducible apply Fr.step (awaitNt_fr _ _) ?_
    | split
    | dsimp only

theorem freeLane_fr (s : State) (q : Nat) : Fr 114885 s (freeLane s q) := by
  unfold freeLane
  try dsimp only
  repeat' first
    | with_reducible apply Fr.refl
    | with_reducible apply Fr.ite
    | with_reducible apply Fr.step (laneToDown_fr _ _ _) ?_
    | with_reducible apply Fr.step (sendLinkctl_fr _ _ _) ?_
    | with_reducible apply Fr.step (laneToUp_fr _ _) ?_
    | with_reducible apply Fr.step (refreshLink_fr _ _ _ _) ?_
    | split
    | dsimp only

theorem sprueReleaseDone_fr (n : Nat) (i : Nat) (s : State) : Fr 245989 s (sprueReleaseDone n i s) := by
  unfold sprueReleaseDone
  try dsimp only
  repeat' first
    | with_reducible apply Fr.refl
    | with_reducible apply Fr.ite
    | with_reducible apply Fr.step (awaitOpt_fr _ _ _) ?_
    | with_reducible apply Fr.step (modChan_fr _ _ _ _) ?_
    | with_reducible apply Fr.step (freeLane_fr _ _) ?_
    | with_reducible apply Fr.step (setSprue_fr _ _ _ _) ?_
    | split
    | dsimp only

theorem linkFenceSet_fr (f : Func) (l : Nat) (s : State) : Fr 82117 s (linkFenceSet f l s) := by
  unfold linkFenceSet
  try dsimp only
  repeat' first
    | with_reducible apply Fr.refl
    | with_reducible apply Fr.ite
    | with_reducible apply Fr.step (modLink_fr _ _ _) ?_
    | with_reducible apply Fr.step (fenceLink_fr _ _ _ _) ?_
    | split
    | dsimp only

theorem linkFenceClear_fr (f : Func) (l : Nat) (s : State) : Fr 81988 s (linkFenceClear f l s) := by
  unfold linkFenceClear
  try dsimp only
  repeat' first
    | with_reducible apply Fr.refl
    | with_reducible apply Fr.ite
    | with_reducible apply Fr.forEach _ _ (fun y a => ?_) ?_
    | with_reducible apply Fr.step (modLink_fr _ _ _) ?_
    | with_reducible apply Fr.step (raiseEvent_fr _ _ _ _ _) ?_
    | with_reducible apply Fr.step (sendLinkctl_fr _ _ _) ?_
    | split
    | dsimp only

theorem deadHoldExpiry_fr (l : Nat) (s : State) : Fr 245957 s (deadHoldExpiry l s) := by
  unfold deadHoldExpiry
  try dsimp only
  repeat' first
    | with_reducible apply Fr.refl
    | with_reducible apply Fr.ite
    | with_reducible apply Fr.step (awaitOpt_fr _ _ _) ?_
    | with_reducible apply Fr.step (autoFence_fr _ _ _) ?_
    | with_reducible apply Fr.step (modLink_fr _ _ _) ?_
    | split
    | dsimp only

theorem followModuleFence_fr (s : State) : Fr 114885 s (followModuleFence s) := by
  unfold followModuleFence
  try dsimp only
  repeat' first
    | with_reducible apply Fr.refl
    | with_reducible apply Fr.ite
    | with_reducible apply Fr.forEach _ _ (fun y a => ?_) ?_
    | with_reducible apply Fr.step (raiseEvent_fr _ _ _ _ _) ?_
    | with_reducible apply Fr.step (fenceEffect_fr _ _) ?_
    | with_reducible apply Fr.step (sendLinkctl_fr _ _ _) ?_
    | (with_reducible apply Fr.put_hlt _ ?_; first | with_reducible apply Fr.refl | with_reducible apply Fr.ite | with_reducible apply Fr.forEach _ _ (fun y a => ?_) ?_ | with_reducible apply Fr.step (raiseEvent_fr _ _ _ _ _) ?_ | with_reducible apply Fr.step (fenceEffect_fr _ _) ?_ | with_reducible apply Fr.step (sendLinkctl_fr _ _ _) ?_ | split)
    | split
    | dsimp only

theorem latchUnstable_fr (s : State) (last : Option Nat) : Fr 114692 s (latchUnstable s last) := by
  unfold latchUnstable
  try dsimp only
  repeat' first
    | with_reducible apply Fr.refl
    | with_reducible apply Fr.ite
    | with_reducible apply Fr.step (raiseEvent_fr _ _ _ _ _) ?_
    | (with_reducible apply Fr.put_hlt _ ?_; first | with_reducible apply Fr.refl | with_reducible apply Fr.ite | with_reducible apply Fr.step (raiseEvent_fr _ _ _ _ _) ?_ | split)
    | split
    | dsimp only

theorem fenceNAssert_fr (s : State) : Fr 114885 s (fenceNAssert s) := by
  unfold fenceNAssert
  try dsimp only
  repeat' first
    | with_reducible apply Fr.refl
    | with_reducible apply Fr.ite
    | with_reducible apply Fr.step (followModuleFence_fr _) ?_
    | with_reducible apply Fr.step (latchUnstable_fr _ _) ?_
    | (with_reducible apply Fr.put_hlt _ ?_; first | with_reducible apply Fr.refl | with_reducible apply Fr.ite | with_reducible apply Fr.step (followModuleFence_fr _) ?_ | with_reducible apply Fr.step (latchUnstable_fr _ _) ?_ | split)
    | split
    | dsimp only

theorem fenceNDeassert_fr (s : State) : Fr 114885 s (fenceNDeassert s) := by
  unfold fenceNDeassert
  try dsimp only
  repeat' first
    | with_reducible apply Fr.refl
    | with_reducible apply Fr.ite
    | with_reducible apply Fr.step (followModuleFence_fr _) ?_
    | with_reducible apply Fr.step (latchUnstable_fr _ _) ?_
    | (with_reducible apply Fr.put_hlt _ ?_; first | with_reducible apply Fr.refl | with_reducible apply Fr.ite | with_reducible apply Fr.step (followModuleFence_fr _) ?_ | with_reducible apply Fr.step (latchUnstable_fr _ _) ?_ | split)
    | split
    | dsimp only

theorem fenceNHoldExpiry_fr (s : State) : Fr 245764 s (fenceNHoldExpiry s) := by
  unfold fenceNHoldExpiry
  try dsimp only
  repeat' first
    | with_reducible apply Fr.refl
    | with_reducible apply Fr.ite
    | with_reducible apply Fr.step (awaitOpt_fr _ _ _) ?_
    | with_reducible apply Fr.step (raiseEvent_fr _ _ _ _ _) ?_
    | (with_reducible apply Fr.put_hlt _ ?_; first | with_reducible apply Fr.refl | with_reducible apply Fr.ite | with_reducible apply Fr.step (awaitOpt_fr _ _ _) ?_ | with_reducible apply Fr.step (raiseEvent_fr _ _ _ _ _) ?_ | split)
    | split
    | dsimp only

theorem fenceUnstableClear_fr (f : Func) (s : State) : Fr 114885 s (fenceUnstableClear f s) := by
  unfold fenceUnstableClear
  try dsimp only
  repeat' first
    | with_reducible apply Fr.refl
    | with_reducible apply Fr.ite
    | with_reducible apply Fr.step (followModuleFence_fr _) ?_
    | (with_reducible apply Fr.put_hlt _ ?_; first | with_reducible apply Fr.refl | with_reducible apply Fr.ite | with_reducible apply Fr.step (followModuleFence_fr _) ?_ | split)
    | split
    | dsimp only

theorem wakeNAssert_fr (s : State) : Fr 262143 s (wakeNAssert s) := by
  unfold wakeNAssert
  try dsimp only
  repeat' first
    | with_reducible apply Fr.refl
    | with_reducible apply Fr.ite
    | with_reducible apply Fr.step (wake_fr _ _) ?_
    | (with_reducible apply Fr.put_hlt _ ?_; first | with_reducible apply Fr.refl | with_reducible apply Fr.ite | with_reducible apply Fr.step (wake_fr _ _) ?_ | split)
    | split
    | dsimp only

theorem wakeNHoldExpiry_fr (s : State) : Fr 245764 s (wakeNHoldExpiry s) := by
  unfold wakeNHoldExpiry
  try dsimp only
  repeat' first
    | with_reducible apply Fr.refl
    | with_reducible apply Fr.ite
    | with_reducible apply Fr.step (awaitOpt_fr _ _ _) ?_
    | with_reducible apply Fr.step (raiseEvent_fr _ _ _ _ _) ?_
    | (with_reducible apply Fr.put_hlt _ ?_; first | with_reducible apply Fr.refl | with_reducible apply Fr.ite | with_reducible apply Fr.step (awaitOpt_fr _ _ _) ?_ | with_reducible apply Fr.step (raiseEvent_fr _ _ _ _ _) ?_ | split)
    | split
    | dsimp only

theorem armIfReleased_fr (s : State) : Fr 32768 s (armIfReleased s) := by
  unfold armIfReleased
  try dsimp only
  repeat' first
    | with_reducible apply Fr.refl
    | with_reducible apply Fr.ite
    | (with_reducible apply Fr.put_hlt _ ?_; first | with_reducible apply Fr.refl | with_reducible apply Fr.ite | split)
    | split
    | dsimp only

theorem wakeRearm_fr (f : Func) (s : State) : Fr 32768 s (wakeRearm f s) := by
  unfold wakeRearm
  try dsimp only
  repeat' first
    | with_reducible apply Fr.refl
    | with_reducible apply Fr.ite
    | with_reducible apply Fr.step (armIfReleased_fr _) ?_
    | (with_reducible apply Fr.put_hlt _ ?_; first | with_reducible apply Fr.refl | with_reducible apply Fr.ite | with_reducible apply Fr.step (armIfReleased_fr _) ?_ | split)
    | split
    | dsimp only

theorem wakeNDeassert_fr (s : State) : Fr 32768 s (wakeNDeassert s) := by
  unfold wakeNDeassert
  try dsimp only
  repeat' first
    | with_reducible apply Fr.refl
    | with_reducible apply Fr.ite
    | with_reducible apply Fr.step (armIfReleased_fr _) ?_
    | (with_reducible apply Fr.put_hlt _ ?_; first | with_reducible apply Fr.refl | with_reducible apply Fr.ite | with_reducible apply Fr.step (armIfReleased_fr _) ?_ | split)
    | split
    | dsimp only

theorem setSmp_fr (s : State) (d : Nat) (x : Smp) : Fr 65536 s (setSmp s d x) := by
  unfold setSmp
  try dsimp only
  repeat' first
    | with_reducible apply Fr.refl
    | with_reducible apply Fr.ite
    | (with_reducible apply Fr.put_cnt _ ?_; first | with_reducible apply Fr.refl | with_reducible apply Fr.ite | split)
    | split
    | dsimp only

theorem sampleRecord_fr (s : State) (d : Nat) (ctr : Nat) (rec4 : List Word) : Fr 65536 s (sampleRecord s d ctr rec4) := by
  unfold sampleRecord
  try dsimp only
  repeat' first
    | with_reducible apply Fr.refl
    | with_reducible apply Fr.ite
    | with_reducible apply Fr.step (bump_fr _ _) ?_
    | with_reducible apply Fr.step (setSmp_fr _ _ _) ?_
    | split
    | dsimp only

theorem sampleFrame_fr (s : State) (d : Nat) (q : QFrame) (f : Frame) : Fr 65536 s (sampleFrame s d q f) := by
  unfold sampleFrame
  try dsimp only
  repeat' first
    | with_reducible apply Fr.refl
    | with_reducible apply Fr.ite
    | with_reducible apply Fr.step (setSmp_fr _ _ _) ?_
    | with_reducible apply Fr.step (sampleRecord_fr _ _ _ _) ?_
    | split
    | dsimp only

theorem sampleWord_fr (s : State) (d : Nat) (ctx : Nat) : Fr 65536 s (sampleWord s d ctx).1 := by
  unfold sampleWord
  try dsimp only
  repeat' first
    | with_reducible apply Fr.refl
    | with_reducible apply Fr.ite
    | with_reducible apply Fr.ite1
    | with_reducible apply Fr.step (setSmp_fr _ _ _) ?_
    | (split <;> try (rename_i h; have e := congrArg Prod.fst h; dsimp only at e; subst e))
    | dsimp only

theorem completeTelem_fr (s : State) (t : Telem) : Fr 81924 s (completeTelem s t) := by
  unfold completeTelem
  try dsimp only
  repeat' first
    | with_reducible apply Fr.refl
    | with_reducible apply Fr.ite
    | with_reducible apply Fr.step (complete_fr _ _ _ _ _ _ _) ?_
    | (with_reducible apply Fr.put_hif _ ?_; first | with_reducible apply Fr.refl | with_reducible apply Fr.ite | with_reducible apply Fr.step (complete_fr _ _ _ _ _ _ _) ?_ | split)
    | split
    | dsimp only

theorem storeTap_fr (s : State) (d : Nat) (data : List Byte) : Fr 81924 s (storeTap s d data) := by
  unfold storeTap
  try dsimp only
  repeat' first
    | with_reducible apply Fr.refl
    | with_reducible apply Fr.ite
    | with_reducible apply Fr.step (bump_fr _ _) ?_
    | with_reducible apply Fr.step (emit_fr _ _) ?_
    | with_reducible apply Fr.step (completeTelem_fr _ _) ?_
    | (with_reducible apply Fr.put_hif _ ?_; first | with_reducible apply Fr.refl | with_reducible apply Fr.ite | with_reducible apply Fr.step (bump_fr _ _) ?_ | with_reducible apply Fr.step (emit_fr _ _) ?_ | with_reducible apply Fr.step (completeTelem_fr _ _) ?_ | split)
    | split
    | dsimp only

theorem tapRecord_fr (s : State) (d : Nat) (data : List Byte) : Fr 82052 s (tapRecord s d data) := by
  unfold tapRecord
  try dsimp only
  repeat' first
    | with_reducible apply Fr.refl
    | with_reducible apply Fr.ite
    | with_reducible apply Fr.forEach _ _ (fun y a => ?_) ?_
    | with_reducible apply Fr.step (storeTap_fr _ _ _) ?_
    | with_reducible apply Fr.step (bump_fr _ _) ?_
    | (with_reducible apply Fr.put_sw _ ?_; first | with_reducible apply Fr.refl | with_reducible apply Fr.ite | with_reducible apply Fr.forEach _ _ (fun y a => ?_) ?_ | with_reducible apply Fr.step (storeTap_fr _ _ _) ?_ | with_reducible apply Fr.step (bump_fr _ _) ?_ | split)
    | split
    | dsimp only

theorem tapFrame_fr (s : State) (d : Nat) (q : QFrame) (f : Frame) (egress : Bool) (bl2 : Bool) : Fr 82053 s (tapFrame s d q f egress bl2) := by
  unfold tapFrame
  try dsimp only
  repeat' first
    | with_reducible apply Fr.refl
    | with_reducible apply Fr.ite
    | with_reducible apply Fr.step (takeFree_fr _) ?_
    | with_reducible apply Fr.step (tapRecord_fr _ _ _) ?_
    | (with_reducible apply Fr.put_sw _ ?_; first | with_reducible apply Fr.refl | with_reducible apply Fr.ite | with_reducible apply Fr.step (takeFree_fr _) ?_ | with_reducible apply Fr.step (tapRecord_fr _ _ _) ?_ | split)
    | split
    | dsimp only

end Sys2Proof.Machine
end

