-- ==== Sys2Proof/Laws/FrMem.lean ====
section
/-! SUPPORT. What each operation of stacked memory, descriptors and table DMA can do, by Laws/Frame.lean. -/
/- Proofs of this file are elaborated one after another: side by side, their waiting threads' stacks
together pass the memory limit of the check. -/
set_option Elab.async false
namespace Sys2Proof.Machine

/-- An update of memory that drops lines and keeps the relief blocks. -/
theorem Fr.put_filter {m : Nat} {s x : State} (v : Mem) (p : Nat × Line → Bool) (ih : Fr m s x)
    (hl : v.lines = x.mem.lines.filter p) (hr : v.relief.map (·.rows) = x.mem.relief.map (·.rows) := by rfl)
    (h : m.testBit 12 = true := by decide) : Fr m s { x with mem := v } := by
  have a : Fr 4096 x { x with mem := { x.mem with lines := x.mem.lines.filter p } } := by
    constructor
    case later => exact le_refl _
    case sound => exact fun hs => ⟨hs.1, filter_wf (lineDef x) p _ hs.2.1, hs.2.2⟩
    case mem => exact fun k => absurd k (by decide)
    all_goals first | rfl | (intro _; rfl)
  have hm : Nat.land 4096 m = 4096 := by
    apply Nat.eq_of_testBit_eq
    intro i
    show (4096 &&& m).testBit i = _
    rw [Nat.testBit_and]
    by_cases hi : i = 12
    · subst hi; rw [h]; rfl
    · have : (4096 : Nat).testBit i = false := by
        have := Nat.testBit_two_pow_of_ne (n := 12) (m := i) (fun e => hi e.symm)
        simpa using this
      rw [this]; rfl
  exact Fr.put_mem (x := { x with mem := { x.mem with lines := x.mem.lines.filter p } }) v (a.step ih hm) hl hr h

theorem journalCh_fr (s : State) (kind : Nat) (k : Nat) (h : Nat) (l : Nat) : Fr 8 s (journalCh s kind k h l) := by
  unfold journalCh
  try dsimp only
  repeat' first
    | with_reducible apply Fr.refl
    | with_reducible apply Fr.ite
    | with_reducible apply Fr.step (journalNote_fr _ _) ?_
    | split
    | dsimp only

theorem failChannel_fr (s : State) (k : Nat) (h : Nat) : Fr 118796 s (failChannel s k h) := by
  unfold failChannel
  try dsimp only
  repeat' first
    | with_reducible apply Fr.refl
    | with_reducible apply Fr.ite
    | with_reducible apply Fr.step (modMemCh_fr _ _ _ _) ?_
    | with_reducible apply Fr.step (modStk_fr _ _ _) ?_
    | with_reducible apply Fr.step (noteHealth_fr _) ?_
    | with_reducible apply Fr.step (journalCh_fr _ _ _ _ _) ?_
    | with_reducible apply Fr.step (raiseEvent_fr _ _ _ _ _) ?_
    | split
    | dsimp only

theorem markRetired_fr (s : State) (k h l : Nat) : Fr 4096 s (markRetired s k h l) := by
  unfold markRetired
  refine Fr.put_filter _ (fun e => decide (e.1 / 4 % 640 ≠ l)) ?_ rfl
  exact Fr.step (setMemCh_fr _ _ _ _) (Fr.step (setMap_fr _ _ _) (Fr.refl _ _))

theorem retireLogical_fr (s : State) (k : Nat) (h : Nat) : Fr 118796 s (retireLogical s k h) := by
  unfold retireLogical
  try dsimp only
  repeat' first
    | with_reducible apply Fr.refl
    | with_reducible apply Fr.ite
    | with_reducible apply Fr.step (markRetired_fr _ _ _ _) ?_
    | with_reducible apply Fr.step (noteHealth_fr _) ?_
    | with_reducible apply Fr.step (journalCh_fr _ _ _ _ _) ?_
    | with_reducible apply Fr.step (raiseEvent_fr _ _ _ _ _) ?_
    | split
    | dsimp only

theorem startRot_fr (s : State) (k : Nat) (x : Nat) (repair : Bool) : Fr 4096 s (startRot s k x repair) := by
  unfold startRot
  try dsimp only
  repeat' first
    | with_reducible apply Fr.refl
    | with_reducible apply Fr.ite
    | with_reducible apply Fr.step (modMemCh_fr _ _ _ _) ?_
    | with_reducible apply Fr.step (modRot_fr _ _ _) ?_
    | split
    | dsimp only

theorem rotNext_fr (s : State) (k : Nat) : Fr 118796 s (rotNext s k) := by
  unfold rotNext
  try dsimp only
  repeat' first
    | with_reducible apply Fr.refl
    | with_reducible apply Fr.ite
    | with_reducible apply Fr.forEach _ _ (fun y a => ?_) ?_
    | with_reducible apply Fr.step (setRot_fr _ _ _) ?_
    | with_reducible apply Fr.step (retireLogical_fr _ _ _) ?_
    | with_reducible apply Fr.step (startRot_fr _ _ _ _) ?_
    | split
    | dsimp only

theorem rotAll_fr (s : State) : Fr 118796 s (rotAll s) := by
  unfold rotAll
  try dsimp only
  repeat' first
    | with_reducible apply Fr.refl
    | with_reducible apply Fr.ite
    | with_reducible apply Fr.forEach _ _ (fun y a => ?_) ?_
    | with_reducible apply Fr.step (rotNext_fr _ _) ?_
    | split
    | dsimp only

theorem endRot_fr (s : State) (k : Nat) : Fr 4096 s (endRot s k) := by
  unfold endRot
  try dsimp only
  repeat' first
    | with_reducible apply Fr.refl
    | with_reducible apply Fr.ite
    | with_reducible apply Fr.step (modRot_fr _ _ _) ?_
    | split
    | dsimp only

theorem abortRot_fr (s : State) (k : Nat) (cause : Nat) : Fr 86020 s (abortRot s k cause) := by
  unfold abortRot
  try dsimp only
  repeat' first
    | with_reducible apply Fr.refl
    | with_reducible apply Fr.ite
    | with_reducible apply Fr.step (modMemCh_fr _ _ _ _) ?_
    | with_reducible apply Fr.step (raiseEvent_fr _ _ _ _ _) ?_
    | with_reducible apply Fr.step (endRot_fr _ _) ?_
    | split
    | dsimp only

theorem abortCopies_fr (s : State) : Fr 86020 s (abortCopies s) := by
  unfold abortCopies
  try dsimp only
  repeat' first
    | with_reducible apply Fr.refl
    | with_reducible apply Fr.ite
    | with_reducible apply Fr.forEach _ _ (fun y a => ?_) ?_
    | with_reducible apply Fr.step (abortRot_fr _ _ _) ?_
    | split
    | dsimp only

theorem repairChannel_fr (s : State) (k : Nat) (h : Nat) : Fr 118796 s (repairChannel s k h) := by
  unfold repairChannel
  try dsimp only
  repeat' first
    | with_reducible apply Fr.refl
    | with_reducible apply Fr.ite
    | with_reducible apply Fr.step (retireLogical_fr _ _ _) ?_
    | with_reducible apply Fr.step (startRot_fr _ _ _ _) ?_
    | with_reducible apply Fr.step (abortRot_fr _ _ _) ?_
    | with_reducible apply Fr.step (setRot_fr _ _ _) ?_
    | split
    | dsimp only

theorem declareFaulty_fr (s : State) (k : Nat) (h : Nat) : Fr 118796 s (declareFaulty s k h) := by
  unfold declareFaulty
  try dsimp only
  repeat' first
    | with_reducible apply Fr.refl
    | with_reducible apply Fr.ite
    | with_reducible apply Fr.step (modMemCh_fr _ _ _ _) ?_
    | with_reducible apply Fr.step (modStk_fr _ _ _) ?_
    | with_reducible apply Fr.step (endRot_fr _ _) ?_
    | with_reducible apply Fr.step (rotAll_fr _) ?_
    | with_reducible apply Fr.step (failChannel_fr _ _ _) ?_
    | with_reducible apply Fr.step (raiseEvent_fr _ _ _ _ _) ?_
    | with_reducible apply Fr.step (setRot_fr _ _ _) ?_
    | with_reducible apply Fr.step (repairChannel_fr _ _ _) ?_
    | split
    | dsimp only

theorem rotPassStart_fr (k : Nat) (s : State) : Fr 249868 s (rotPassStart k s) := by
  unfold rotPassStart
  try dsimp only
  repeat' first
    | with_reducible apply Fr.refl
    | with_reducible apply Fr.ite
    | with_reducible apply Fr.step (awaitOpt_fr _ _ _) ?_
    | with_reducible apply Fr.step (rotNext_fr _ _) ?_
    | with_reducible apply Fr.step (setRot_fr _ _ _) ?_
    | split
    | dsimp only

theorem memRotReq_fr (v : Word) (s : State) : Fr 118796 s (memRotReq v s) := by
  unfold memRotReq
  try dsimp only
  repeat' first
    | with_reducible apply Fr.refl
    | with_reducible apply Fr.ite
    | with_reducible apply Fr.step (rotNext_fr _ _) ?_
    | with_reducible apply Fr.step (modRot_fr _ _ _) ?_
    | split
    | dsimp only

theorem rotCopyDone_fr (k : Nat) (s : State) : Fr 4096 s (rotCopyDone k s) := by
  unfold rotCopyDone
  try dsimp only
  repeat' first
    | with_reducible apply Fr.refl
    | with_reducible apply Fr.ite
    | with_reducible apply Fr.step (setRot_fr _ _ _) ?_
    | split
    | dsimp only

theorem rotFail_fr (s : State) (k : Nat) : Fr 118796 s (rotFail s k) := by
  unfold rotFail
  try dsimp only
  repeat' first
    | with_reducible apply Fr.refl
    | with_reducible apply Fr.ite
    | with_reducible apply Fr.step (modStk_fr _ _ _) ?_
    | with_reducible apply Fr.step (rotAll_fr _) ?_
    | with_reducible apply Fr.step (failChannel_fr _ _ _) ?_
    | with_reducible apply Fr.step (endRot_fr _ _) ?_
    | split
    | dsimp only

theorem rotTrainDone_fr (k : Nat) (ok : Bool) (s : State) : Fr 118796 s (rotTrainDone k ok s) := by
  unfold rotTrainDone
  try dsimp only
  repeat' first
    | with_reducible apply Fr.refl
    | with_reducible apply Fr.ite
    | with_reducible apply Fr.step (rotFail_fr _ _) ?_
    | with_reducible apply Fr.step (modMemCh_fr _ _ _ _) ?_
    | with_reducible apply Fr.step (setRot_fr _ _ _) ?_
    | split
    | dsimp only

theorem rotTestDone_fr (k : Nat) (ok : Bool) (s : State) : Fr 118796 s (rotTestDone k ok s) := by
  unfold rotTestDone
  try dsimp only
  repeat' first
    | with_reducible apply Fr.refl
    | with_reducible apply Fr.ite
    | with_reducible apply Fr.step (rotFail_fr _ _) ?_
    | with_reducible apply Fr.step (modMemCh_fr _ _ _ _) ?_
    | with_reducible apply Fr.step (rotAll_fr _) ?_
    | with_reducible apply Fr.step (endRot_fr _ _) ?_
    | split
    | dsimp only

theorem trackPage_fr (s : State) (k : Nat) (h : Nat) (page : Nat) : Fr 4097 s (trackPage s k h page) := by
  unfold trackPage
  try dsimp only
  repeat' first
    | with_reducible apply Fr.refl
    | with_reducible apply Fr.ite
    | with_reducible apply Fr.foldl _ _ (fun y a => ?_) ?_
    | with_reducible apply Fr.foldl1 _ _ (fun y a => ?_) ?_
    | with_reducible apply Fr.step (setMemCh_fr _ _ _ _) ?_
    | with_reducible apply Fr.step (takeFree_fr _) ?_
    | split
    | dsimp only

theorem judgePages_fr (s : State) (k : Nat) (h : Nat) : Fr 118796 s (judgePages s k h) := by
  unfold judgePages
  try dsimp only
  repeat' first
    | with_reducible apply Fr.refl
    | with_reducible apply Fr.ite
    | with_reducible apply Fr.step (setMemCh_fr _ _ _ _) ?_
    | with_reducible apply Fr.step (repairChannel_fr _ _ _) ?_
    | split
    | dsimp only

theorem uncorrectable_fr (s : State) (k : Nat) (h : Nat) (line : Nat) (key : Nat) : Fr 86022 s (uncorrectable s k h line key) := by
  unfold uncorrectable
  try dsimp only
  repeat' first
    | with_reducible apply Fr.refl
    | with_reducible apply Fr.ite
    | with_reducible apply Fr.step (putLine_fr _ _ _) ?_
    | with_reducible apply Fr.step (putR_fr _ _ _) ?_
    | with_reducible apply Fr.step (raiseEvent_fr _ _ _ _ _) ?_
    | split
    | dsimp only

theorem countMove_fr (s : State) (k : Nat) (h : Nat) (write : Bool) : Fr 69632 s (countMove s k h write) := by
  unfold countMove
  try dsimp only
  repeat' first
    | with_reducible apply Fr.refl
    | with_reducible apply Fr.ite
    | with_reducible apply Fr.step (bump_fr _ _) ?_
    | with_reducible apply Fr.step (setMemCh_fr _ _ _ _) ?_
    | split
    | dsimp only

theorem judgeRead_fr (s : State) (k : Nat) (h : Nat) (line : Nat) (key : Nat) (errors : List Nat) : Fr 118799 s (judgeRead s k h line key errors) := by
  unfold judgeRead
  try dsimp only
  repeat' first
    | with_reducible apply Fr.refl
    | with_reducible apply Fr.ite
    | with_reducible apply Fr.step (bump_fr _ _) ?_
    | with_reducible apply Fr.step (modMemCh_fr _ _ _ _) ?_
    | with_reducible apply Fr.step (judgePages_fr _ _ _) ?_
    | with_reducible apply Fr.step (trackPage_fr _ _ _ _) ?_
    | with_reducible apply Fr.step (uncorrectable_fr _ _ _ _ _) ?_
    | split
    | dsimp only

theorem transferFails_fr (s : State) (k : Nat) (h : Nat) (line : Nat) (key : Nat) (write : Bool) (user : MemUser) : Fr 118796 s (transferFails s k h line key write user) := by
  unfold transferFails
  try dsimp only
  repeat' first
    | with_reducible apply Fr.refl
    | with_reducible apply Fr.ite
    | with_reducible apply Fr.step (declareFaulty_fr _ _ _) ?_
    | with_reducible apply Fr.step (setRot_fr _ _ _) ?_
    | (with_reducible apply Fr.put_mem _ ?_; first | with_reducible apply Fr.refl | with_reducible apply Fr.ite | with_reducible apply Fr.step (declareFaulty_fr _ _ _) ?_ | with_reducible apply Fr.step (setRot_fr _ _ _) ?_ | split)
    | split
    | dsimp only

theorem noteRead_fr (s : State) (k : Nat) (h : Nat) (line : Nat) (user : MemUser) : Fr 4096 s (noteRead s k h line user) := by
  unfold noteRead
  try dsimp only
  repeat' first
    | with_reducible apply Fr.refl
    | with_reducible apply Fr.ite
    | with_reducible apply Fr.step (setRot_fr _ _ _) ?_
    | (with_reducible apply Fr.put_mem _ ?_; first | with_reducible apply Fr.refl | with_reducible apply Fr.ite | with_reducible apply Fr.step (setRot_fr _ _ _) ?_ | split)
    | split
    | dsimp only

theorem moveLine_fr (s : State) (k : Nat) (h : Nat) (write : Bool) (x : MemXfer) : Fr 118799 s (moveLine s k h write x) := by
  unfold moveLine
  try dsimp only
  repeat' first
    | with_reducible apply Fr.refl
    | with_reducible apply Fr.ite
    | with_reducible apply Fr.step (bumpN_fr _ _ _) ?_
    | with_reducible apply Fr.step (modMemCh_fr _ _ _ _) ?_
    | with_reducible apply Fr.step (transferFails_fr _ _ _ _ _ _ _) ?_
    | with_reducible apply Fr.step (countMove_fr _ _ _ _) ?_
    | with_reducible apply Fr.step (judgeRead_fr _ _ _ _ _ _) ?_
    | with_reducible apply Fr.step (noteRead_fr _ _ _ _ _) ?_
    | split
    | dsimp only

theorem pickOne_fr (s : State) (l : List Nat) : Fr 1 s (pickOne s l).1 := by
  unfold pickOne
  try dsimp only
  repeat' first
    | with_reducible apply Fr.refl
    | with_reducible apply Fr.ite
    | with_reducible apply Fr.ite1
    | with_reducible apply Fr.step (takeFree_fr _) ?_
    | (split <;> try (rename_i h; have e := congrArg Prod.fst h; dsimp only at e; subst e))
    | dsimp only

theorem serveNext_fr (s : State) (k : Nat) (h : Nat) : Fr 118799 s (serveNext s k h) := by
  unfold serveNext
  try dsimp only
  repeat' first
    | with_reducible apply Fr.refl
    | with_reducible apply Fr.ite
    | with_reducible apply Fr.step (modMemCh_fr _ _ _ _) ?_
    | with_reducible apply Fr.step (pickOne_fr _ _) ?_
    | with_reducible apply Fr.step (moveLine_fr _ _ _ _ _) ?_
    | (split <;> try (rename_i h; have e := congrArg Prod.fst h; dsimp only at e; subst e))
    | dsimp only

theorem serveDue_fr (k h n : Nat) (s : State) : Fr 118799 s (serveDue k h n s) := by
  induction n generalizing s with
  | zero => exact Fr.refl _ _
  | succ n ih => exact Fr.ite (Fr.refl _ _) (Fr.step (ih _) (serveNext_fr _ _ _))

theorem serveChannels_fr (s : State) : Fr 118799 s (serveChannels s) := by
  unfold serveChannels
  try dsimp only
  repeat' first
    | with_reducible apply Fr.refl
    | with_reducible apply Fr.ite
    | with_reducible apply Fr.forEach _ _ (fun y a => ?_) ?_
    | with_reducible apply Fr.step (serveDue_fr _ _ _ _) ?_
    | split
    | dsimp only

theorem makeRoom_fr (k h : Nat) (write : Bool) (n : Nat) (s : State) : Fr 249871 s (makeRoom k h write n s) := by
  induction n generalizing s with
  | zero => exact Fr.refl _ _
  | succ n ih =>
    exact Fr.ite (Fr.refl _ _) (Fr.step (ih _) (Fr.step (serveNext_fr _ _ _) (Fr.mono (await_fr _ _ _))))

theorem mirrorEnters_fr (s : State) (k : Nat) (h : Nat) (line : Nat) (user : MemUser) : FrO 4096 s (mirrorEnters s k h line user) := by
  unfold mirrorEnters
  try dsimp only
  repeat' first
    | with_reducible apply Fr.refl
    | with_reducible apply FrO.none
    | with_reducible apply FrO.some
    | with_reducible apply FrO.ite
    | with_reducible apply Fr.ite
    | with_reducible apply Fr.step (setRot_fr _ _ _) ?_
    | split
    | dsimp only

theorem memTransfer_fr (k : Nat) (h : Nat) (line : Nat) (write : Bool) (user : MemUser) (tries : List TransferResult) (s : State) : Fr 249871 s (memTransfer k h line write user tries s) := by
  unfold memTransfer
  try dsimp only
  repeat' first
    | with_reducible apply Fr.refl
    | with_reducible apply Fr.ite
    | refine Fr.step (mirrorEnters_fr _ _ _ _ _ _ (by assumption)) ?_
    | with_reducible apply Fr.step (makeRoom_fr _ _ _ _ _) ?_
    | with_reducible apply Fr.step (serveDue_fr _ _ _ _) ?_
    | with_reducible apply Fr.step (modMemCh_fr _ _ _ _) ?_
    | split
    | dsimp only

theorem finishWrites_fr (k : Nat) (h : Nat) (s : State) : Fr 118799 s (finishWrites k h s) := by
  unfold finishWrites
  try dsimp only
  repeat' first
    | with_reducible apply Fr.refl
    | with_reducible apply Fr.ite
    | with_reducible apply Fr.forEach _ _ (fun y a => ?_) ?_
    | with_reducible apply Fr.step (modMemCh_fr _ _ _ _) ?_
    | with_reducible apply Fr.step (moveLine_fr _ _ _ _ _) ?_
    | split
    | dsimp only

theorem rotSwitch_fr (k : Nat) (s : State) : Fr 118799 s (rotSwitch k s) := by
  unfold rotSwitch
  try dsimp only
  repeat' first
    | with_reducible apply Fr.refl
    | with_reducible apply Fr.ite
    | with_reducible apply Fr.forEach _ _ (fun y a => ?_) ?_
    | with_reducible apply Fr.step (finishWrites_fr _ _ _) ?_
    | with_reducible apply Fr.step (setMap_fr _ _ _) ?_
    | with_reducible apply Fr.step (putLine_fr _ _ _) ?_
    | with_reducible apply Fr.step (modMemCh_fr _ _ _ _) ?_
    | with_reducible apply Fr.step (modStk_fr _ _ _) ?_
    | with_reducible apply Fr.step (setRot_fr _ _ _) ?_
    | split
    | dsimp only

theorem pageRetirementDone_fr (k : Nat) (h : Nat) (s : State) : Fr 118796 s (pageRetirementDone k h s) := by
  unfold pageRetirementDone
  try dsimp only
  repeat' first
    | with_reducible apply Fr.refl
    | with_reducible apply Fr.ite
    | with_reducible apply Fr.step (setMemCh_fr _ _ _ _) ?_
    | with_reducible apply Fr.step (judgePages_fr _ _ _) ?_
    | with_reducible apply Fr.step (bump_fr _ _) ?_
    | split
    | dsimp only

theorem patrolPassStart_fr (s : State) : Fr 135168 s (patrolPassStart s) := by
  unfold patrolPassStart
  try dsimp only
  repeat' first
    | with_reducible apply Fr.refl
    | with_reducible apply Fr.ite
    | with_reducible apply Fr.step (awaitOpt_fr _ _ _) ?_
    | (with_reducible apply Fr.put_mem _ ?_; first | with_reducible apply Fr.refl | with_reducible apply Fr.ite | with_reducible apply Fr.step (awaitOpt_fr _ _ _) ?_ | split)
    | split
    | dsimp only

theorem memHotClear_fr (k : Nat) (s : State) : Fr 217092 s (memHotClear k s) := by
  unfold memHotClear
  try dsimp only
  repeat' first
    | with_reducible apply Fr.refl
    | with_reducible apply Fr.ite
    | with_reducible apply Fr.step (awaitOpt_fr _ _ _) ?_
    | with_reducible apply Fr.step (raiseEvent_fr _ _ _ _ _) ?_
    | with_reducible apply Fr.step (modStk_fr _ _ _) ?_
    | split
    | dsimp only

theorem startRebuild_fr (s : State) (l : Nat) : Fr 86020 s (startRebuild s l) := by
  unfold startRebuild
  dsimp only
  split
  · exact Fr.mono (raiseEvent_fr _ _ _ _ _)
  · constructor
    case later => exact le_refl _
    case mem => exact fun k => absurd k (by decide)
    case sound =>
      rintro ⟨h1, h2, h3⟩
      refine ⟨h1, ?_, h3⟩
      refine tabWf_congr (lineDef s) _ _ (filter_wf (lineDef s) _ _ h2) ?_
      intro e he
      have hp := (List.mem_filter.1 he).2
      rw [Bool.or_eq_true, decide_eq_true_eq, decide_eq_true_eq] at hp
      unfold lineDef
      have hb : reliefBase { s with mem := { s.mem with
          relief := s.mem.relief ++ [⟨reliefBase s - 640 * nextReliefRows s, nextReliefRows s, l, liveChans s, false⟩]
          pendingRebuild := remNat s.mem.pendingRebuild l
          scrubbing := s.mem.scrubbing.flatMap fun x =>
            rangeLess x.1 x.2 (reliefBase s - 640 * nextReliefRows s) (640 * nextReliefRows s)
          lines := s.mem.lines.filter fun e => decide (e.1 / 4 < reliefBase s - 640 * nextReliefRows s) ||
            decide (reliefBase s ≤ e.1 / 4) } } = reliefBase s - 640 * nextReliefRows s := by
        unfold reliefBase reliefRows
        dsimp only
        rw [List.foldl_append]
        simp only [List.foldl_cons, List.foldl_nil]
        omega
      rw [hb]
      have := Nat.sub_le (reliefBase s) (640 * nextReliefRows s)
      rcases hp with hp | hp
      · rw [if_neg (by omega), if_neg (by omega)]
      · rw [if_pos (by omega), if_pos hp]
    all_goals first | rfl | (intro _; rfl)

theorem startRebuilds_fr (s : State) : Fr 86020 s (startRebuilds s) := by
  unfold startRebuilds
  try dsimp only
  repeat' first
    | with_reducible apply Fr.refl
    | with_reducible apply Fr.ite
    | with_reducible apply Fr.forEach _ _ (fun y a => ?_) ?_
    | with_reducible apply Fr.step (startRebuild_fr _ _) ?_
    | split
    | dsimp only

theorem rebuildComplete_fr (l : Nat) (s : State) : Fr 86020 s (rebuildComplete l s) := by
  unfold rebuildComplete
  dsimp only
  split
  · refine Fr.step (raiseEvent_fr _ _ _ _ _) ?_
    refine Fr.put_mem _ (Fr.mono (setMap_fr _ _ _)) rfl ?_
    dsimp only
    rw [List.map_map]
    apply List.map_congr_left
    intro r _
    show (if r.logical = l then _ else _ : Relief).rows = _
    split <;> rfl
  · exact Fr.refl _ _

theorem zeroGranule_fr (s : State) (g : Nat) : Fr 69632 s (zeroGranule s g) := by
  unfold zeroGranule
  try dsimp only
  repeat' first
    | with_reducible apply Fr.refl
    | with_reducible apply Fr.ite
    | with_reducible apply Fr.forEach _ _ (fun y a => ?_) ?_
    | with_reducible apply Fr.step (writeLine_fr _ _ _ _) ?_
    | split
    | dsimp only

theorem zeroRange_fr (s : State) (g n : Nat) : Fr 69632 s (zeroRange s g n) := by
  unfold zeroRange
  dsimp only
  have h : Fr 69632 s (noteZeroed { s with mem := { s.mem with
      lines := s.mem.lines.filter fun e => !inRange g n (e.1 / 4)
      readFailed := s.mem.readFailed.filter fun k => !inRange g n (k / 4) } } g n) :=
    Fr.step (noteZeroed_fr _ _ _) (Fr.put_filter _ _ (Fr.refl _ _) rfl)
  split
  · exact h
  · exact Fr.forEach _ _ (fun y a => Fr.mono (zeroGranule_fr _ _)) h

theorem regionScrubDone_fr (s : State) : Fr 69632 s (regionScrubDone s) := by
  unfold regionScrubDone
  try dsimp only
  repeat' first
    | with_reducible apply Fr.refl
    | with_reducible apply Fr.ite
    | with_reducible apply Fr.step (zeroRange_fr _ _ _) ?_
    | (with_reducible apply Fr.put_mem _ ?_; first | with_reducible apply Fr.refl | with_reducible apply Fr.ite | with_reducible apply Fr.step (zeroRange_fr _ _ _) ?_ | split)
    | split
    | dsimp only

theorem memRequest_fr (q : QFrame) (p : Nat) (s : State) : Fr 86213 s (memRequest q p s) := by
  unfold memRequest
  try dsimp only
  repeat' first
    | with_reducible apply Fr.refl
    | with_reducible apply Fr.ite
    | with_reducible apply Fr.step (refuse_fr _ _ _ _) ?_
    | with_reducible apply Fr.step (freeCredit_fr _ _ _ _) ?_
    | (with_reducible apply Fr.put_mem _ ?_; first | with_reducible apply Fr.refl | with_reducible apply Fr.ite | with_reducible apply Fr.step (refuse_fr _ _ _ _) ?_ | with_reducible apply Fr.step (freeCredit_fr _ _ _ _) ?_ | split)
    | split
    | dsimp only

theorem memResp_fr (s : State) (q : QFrame) (payload : List Byte) : Fr 82117 s (memResp s q payload) := by
  unfold memResp
  try dsimp only
  repeat' first
    | with_reducible apply Fr.refl
    | with_reducible apply Fr.ite
    | with_reducible apply Fr.step (originate_fr _ _ _) ?_
    | (split <;> try (rename_i h; have e := congrArg Prod.fst h; dsimp only at e; subst e))
    | dsimp only

theorem serveMem_fr (s : State) (r : MemReq) : Fr 86213 s (serveMem s r) := by
  unfold serveMem
  try dsimp only
  repeat' first
    | with_reducible apply Fr.refl
    | with_reducible apply Fr.ite
    | with_reducible apply Fr.step (memResp_fr _ _ _) ?_
    | with_reducible apply Fr.step (writeLines_fr _ _ _ _ _) ?_
    | with_reducible apply Fr.step (doneReads_fr _ _ _ _) ?_
    | with_reducible apply Fr.step (sendNack_fr _ _ _ _) ?_
    | with_reducible apply Fr.step (setRegionLine_fr _ _ _ _) ?_
    | split
    | dsimp only

theorem fabricMemDone_fr (s : State) : Fr 86213 s (fabricMemDone s) := by
  unfold fabricMemDone
  try dsimp only
  repeat' first
    | with_reducible apply Fr.refl
    | with_reducible apply Fr.ite
    | with_reducible apply Fr.step (takeFree_fr _) ?_
    | with_reducible apply Fr.step (serveMem_fr _ _) ?_
    | (with_reducible apply Fr.put_mem _ ?_; first | with_reducible apply Fr.refl | with_reducible apply Fr.ite | with_reducible apply Fr.step (takeFree_fr _) ?_ | with_reducible apply Fr.step (serveMem_fr _ _) ?_ | split)
    | split
    | dsimp only

theorem popDesc_fr (s : State) (k : RingKind) (i : Nat) (d : List Word) : Fr 16384 s (popDesc s k i d) := by
  unfold popDesc
  try dsimp only
  repeat' first
    | with_reducible apply Fr.refl
    | with_reducible apply Fr.ite
    | with_reducible apply Fr.step (modRing_fr _ _ _ _) ?_
    | split
    | dsimp only

theorem sweepLoop_fr (k : RingKind) (i n : Nat) (s : State) : Fr 81924 s (sweepLoop k i n s) := by
  induction n generalizing s with
  | zero => exact Fr.refl _ _
  | succ n ih =>
    unfold sweepLoop
    split
    · exact Fr.refl _ _
    · split
      · exact Fr.refl _ _
      · exact Fr.step (ih _) (Fr.step (complete_fr _ _ _ _ _ _ _) (Fr.mono (popDesc_fr _ _ _ _)))

theorem sweepBad_fr (s : State) (k : RingKind) (i : Nat) : Fr 81924 s (sweepBad s k i) := by
  unfold sweepBad
  try dsimp only
  repeat' first
    | with_reducible apply Fr.refl
    | with_reducible apply Fr.ite
    | with_reducible apply Fr.step (sweepLoop_fr _ _ _ _) ?_
    | split
    | dsimp only

theorem runHead_fr (k : RingKind) (i op : Nat) (f : DescOp) (s : State) {m n : Nat}
    (hf : ∀ s d key a, FrO m s (f s d key a)) (hm : Nat.land m n = m := by decide)
    (hn : Nat.land 81924 n = 81924 := by decide) : Fr n s (runHead k i op f s) := by
  unfold runHead
  split
  · exact Fr.refl _ _
  · split
    · exact Fr.refl _ _
    · split
      · exact Fr.refl _ _
      · rename_i h
        exact Fr.step (sweepBad_fr _ _ _) (Fr.step (hf _ _ _ _ _ h) (Fr.mono (n := n) (Fr.mono (n := 81924) (popDesc_fr _ _ _ _)) hn) hm) hn

theorem hostOut_fr (s : State) (k : RingKind) (i : Nat) (addr : Nat) (data : List Byte) (a : Option HostAccess) : Fr 4 s (hostOut s k i addr data a).1 := by
  unfold hostOut
  try dsimp only
  repeat' first
    | with_reducible apply Fr.refl
    | with_reducible apply Fr.ite
    | with_reducible apply Fr.ite1
    | with_reducible apply Fr.step (emitAll_fr _ _) ?_
    | (split <;> try (rename_i h; have e := congrArg Prod.fst h; dsimp only at e; subst e))
    | dsimp only

theorem opNop_fr (i : Nat) (s : State) (x1 : List Word) (x2 : Nat) (x3 : Option HostAccess) : FrO 81924 s (opNop i s x1 x2 x3) := by
  unfold opNop
  try dsimp only
  repeat' first
    | with_reducible apply Fr.refl
    | with_reducible apply FrO.none
    | with_reducible apply FrO.some
    | with_reducible apply FrO.ite
    | with_reducible apply Fr.ite
    | with_reducible apply Fr.step (complete_fr _ _ _ _ _ _ _) ?_
    | split
    | dsimp only

theorem nop_fr (i : Nat) (s : State) : Fr 81924 s (nop i s) :=
  runHead_fr _ _ _ _ _ (opNop_fr i)

theorem opRecastOpen_fr (i : Nat) (s : State) (x1 : List Word) (x2 : Nat) (x3 : Option HostAccess) : FrO 86276 s (opRecastOpen i s x1 x2 x3) := by
  unfold opRecastOpen
  try dsimp only
  repeat' first
    | with_reducible apply Fr.refl
    | with_reducible apply FrO.none
    | with_reducible apply FrO.some
    | with_reducible apply FrO.ite
    | with_reducible apply Fr.ite
    | with_reducible apply Fr.step (complete_fr _ _ _ _ _ _ _) ?_
    | with_reducible apply Fr.step (setWindow_fr _ _ _) ?_
    | with_reducible apply Fr.step (startRebuilds_fr _) ?_
    | split
    | dsimp only

theorem recastOpen_fr (i : Nat) (s : State) : Fr 86276 s (recastOpen i s) :=
  runHead_fr _ _ _ _ _ (opRecastOpen_fr i)

theorem opRecastClose_fr (i : Nat) (s : State) (x1 : List Word) (x2 : Nat) (x3 : Option HostAccess) : FrO 82180 s (opRecastClose i s x1 x2 x3) := by
  unfold opRecastClose
  try dsimp only
  repeat' first
    | with_reducible apply Fr.refl
    | with_reducible apply FrO.none
    | with_reducible apply FrO.some
    | with_reducible apply FrO.ite
    | with_reducible apply Fr.ite
    | with_reducible apply Fr.step (complete_fr _ _ _ _ _ _ _) ?_
    | with_reducible apply Fr.step (setWindow_fr _ _ _) ?_
    | split
    | dsimp only

theorem recastClose_fr (i : Nat) (s : State) : Fr 82180 s (recastClose i s) :=
  runHead_fr _ _ _ _ _ (opRecastClose_fr i)

theorem closeTakesEffect_fr (p : Nat) (s : State) : Fr 82180 s (closeTakesEffect p s) := by
  unfold closeTakesEffect
  try dsimp only
  repeat' first
    | with_reducible apply Fr.refl
    | with_reducible apply Fr.ite
    | with_reducible apply Fr.step (complete_fr _ _ _ _ _ _ _) ?_
    | with_reducible apply Fr.step (setWindow_fr _ _ _) ?_
    | split
    | dsimp only

theorem recastExpiry_fr (p : Nat) (s : State) : Fr 213252 s (recastExpiry p s) := by
  unfold recastExpiry
  try dsimp only
  repeat' first
    | with_reducible apply Fr.refl
    | with_reducible apply Fr.ite
    | with_reducible apply Fr.step (recastLong_fr _ _) ?_
    | with_reducible apply Fr.step (await_fr _ _ _) ?_
    | split
    | dsimp only

theorem runTdma_fr (r op : Nat) (f : DescOp) (s : State) {m n : Nat}
    (hf : ∀ s d key a, FrO m s (f s d key a)) (hm : Nat.land m n = m := by decide)
    (hn : Nat.land 81924 n = 81924 := by decide) : Fr n s (runTdma r op f s) := by
  unfold runTdma
  split
  refine runHead_fr _ _ _ _ _ (m := n) (fun s d key a => ?_) (Nat.and_self n) hn
  try dsimp only
  split
  · exact FrO.some (Fr.step (complete_fr _ _ _ _ _ _ _) (Fr.refl n _) (by exact hn))
  · exact fun t h => (hf _ _ _ _ t h).step (Fr.refl n _) hm

theorem tdDone_fr (r : Nat) (s : State) (key : Nat) (status : Nat) (detail : Nat) (count : Nat) : Fr 81924 s (tdDone r s key status detail count) := by
  unfold tdDone
  try dsimp only
  repeat' first
    | with_reducible apply Fr.refl
    | with_reducible apply Fr.ite
    | with_reducible apply Fr.step (complete_fr _ _ _ _ _ _ _) ?_
    | (split <;> try (rename_i h; have e := congrArg Prod.fst h; dsimp only at e; subst e))
    | dsimp only

theorem opTdmaWrite_fr (r : Nat) (s : State) (x1 : List Word) (x2 : Nat) (x3 : Option HostAccess) : FrO 82180 s (opTdmaWrite r s x1 x2 x3) := by
  unfold opTdmaWrite
  try dsimp only
  repeat' first
    | with_reducible apply Fr.refl
    | with_reducible apply FrO.none
    | with_reducible apply FrO.some
    | with_reducible apply FrO.ite
    | with_reducible apply Fr.ite
    | with_reducible apply Fr.step (writeEntries_fr _ _ _ _ _ _) ?_
    | with_reducible apply Fr.step (tdDone_fr _ _ _ _ _ _) ?_
    | (split <;> try (rename_i h; have e := congrArg Prod.fst h; dsimp only at e; subst e))
    | dsimp only

theorem tdmaWrite_fr (r : Nat) (s : State) : Fr 82180 s (tdmaWrite r s) :=
  runTdma_fr _ _ _ _ (opTdmaWrite_fr r)

theorem opTdmaRead_fr (r : Nat) (s : State) (x1 : List Word) (x2 : Nat) (x3 : Option HostAccess) : FrO 81924 s (opTdmaRead r s x1 x2 x3) := by
  unfold opTdmaRead
  try dsimp only
  repeat' first
    | with_reducible apply Fr.refl
    | with_reducible apply FrO.none
    | with_reducible apply FrO.some
    | with_reducible apply FrO.ite
    | with_reducible apply Fr.ite
    | with_reducible apply Fr.step (hostOut_fr _ _ _ _ _ _) ?_
    | with_reducible apply Fr.step (tdDone_fr _ _ _ _ _ _) ?_
    | (split <;> try (rename_i h; have e := congrArg Prod.fst h; dsimp only at e; subst e))
    | dsimp only

theorem tdmaRead_fr (r : Nat) (s : State) : Fr 81924 s (tdmaRead r s) :=
  runTdma_fr _ _ _ _ (opTdmaRead_fr r)

theorem emReplace_fr (s : State) (i : Nat) (e : EmEntry) : Fr 4352 s (emReplace s i e) := by
  unfold emReplace
  try dsimp only
  repeat' first
    | with_reducible apply Fr.refl
    | with_reducible apply Fr.ite
    | with_reducible apply Fr.step (setEm_fr _ _ _) ?_
    | with_reducible apply Fr.step (scrubRanges_fr _ _) ?_
    | split
    | dsimp only

theorem emPut_fr (s : State) (part : Nat) (e : EmEntry) : Fr 69889 s (emPut s part e).1 := by
  unfold emPut
  try dsimp only
  repeat' first
    | with_reducible apply Fr.refl
    | with_reducible apply Fr.ite
    | with_reducible apply Fr.ite1
    | refine Fr.step (saveBefore_fr _ _ _ _ _ _ (by assumption)) ?_
    | with_reducible apply Fr.step (emReplace_fr _ _ _) ?_
    | with_reducible apply Fr.step (emPlace_fr _ _) ?_
    | (with_reducible apply Fr.put_freeCtr _ ?_; first | with_reducible apply Fr.refl | with_reducible apply Fr.ite | with_reducible apply Fr.ite1 | refine Fr.step (saveBefore_fr _ _ _ _ _ _ (by assumption)) ?_ | with_reducible apply Fr.step (emReplace_fr _ _ _) ?_ | with_reducible apply Fr.step (emPlace_fr _ _) ?_ | (split <;> try (rename_i h; have e := congrArg Prod.fst h; dsimp only at e; subst e)))
    | (split <;> try (rename_i h; have e := congrArg Prod.fst h; dsimp only at e; subst e))
    | dsimp only

theorem opEmInsert_fr (r : Nat) (s : State) (x1 : List Word) (x2 : Nat) (x3 : Option HostAccess) : FrO 86277 s (opEmInsert r s x1 x2 x3) := by
  unfold opEmInsert
  try dsimp only
  repeat' first
    | with_reducible apply Fr.refl
    | with_reducible apply FrO.none
    | with_reducible apply FrO.some
    | with_reducible apply FrO.ite
    | with_reducible apply Fr.ite
    | with_reducible apply Fr.step (tdDone_fr _ _ _ _ _ _) ?_
    | with_reducible apply Fr.step (emPut_fr _ _ _) ?_
    | with_reducible apply Fr.step (bump_fr _ _) ?_
    | (split <;> try (rename_i h; have e := congrArg Prod.fst h; dsimp only at e; subst e))
    | dsimp only

theorem emInsert_fr (r : Nat) (s : State) : Fr 86277 s (emInsert r s) :=
  runTdma_fr _ _ _ _ (opEmInsert_fr r)

theorem emClear_fr (s : State) (i : Nat) : Fr 4352 s (emClear s i) := by
  unfold emClear
  try dsimp only
  repeat' first
    | with_reducible apply Fr.refl
    | with_reducible apply Fr.ite
    | with_reducible apply Fr.step (setEm_fr _ _ _) ?_
    | with_reducible apply Fr.step (scrubRanges_fr _ _) ?_
    | split
    | dsimp only

theorem opEmDelete_fr (r : Nat) (s : State) (x1 : List Word) (x2 : Nat) (x3 : Option HostAccess) : FrO 86276 s (opEmDelete r s x1 x2 x3) := by
  unfold opEmDelete
  try dsimp only
  repeat' first
    | with_reducible apply Fr.refl
    | with_reducible apply FrO.none
    | with_reducible apply FrO.some
    | with_reducible apply FrO.ite
    | with_reducible apply Fr.ite
    | with_reducible apply Fr.step (tdDone_fr _ _ _ _ _ _) ?_
    | refine Fr.step (saveBefore_fr _ _ _ _ _ _ (by assumption)) ?_
    | with_reducible exact FrO.mono (saveBefore_fr _ _ _ _ _)
    | with_reducible apply Fr.step (bump_fr _ _) ?_
    | with_reducible apply Fr.step (emClear_fr _ _) ?_
    | split
    | dsimp only

theorem emDelete_fr (r : Nat) (s : State) : Fr 86276 s (emDelete r s) :=
  runTdma_fr _ _ _ _ (opEmDelete_fr r)

theorem opTdmaLock_fr (r : Nat) (s : State) (x1 : List Word) (x2 : Nat) (x3 : Option HostAccess) : FrO 82180 s (opTdmaLock r s x1 x2 x3) := by
  unfold opTdmaLock
  try dsimp only
  repeat' first
    | with_reducible apply Fr.refl
    | with_reducible apply FrO.none
    | with_reducible apply FrO.some
    | with_reducible apply FrO.ite
    | with_reducible apply Fr.ite
    | with_reducible apply Fr.step (tdDone_fr _ _ _ _ _ _) ?_
    | with_reducible apply Fr.step (setWindow_fr _ _ _) ?_
    | split
    | dsimp only

theorem tdmaLock_fr (r : Nat) (s : State) : Fr 82180 s (tdmaLock r s) :=
  runTdma_fr _ _ _ _ (opTdmaLock_fr r)

theorem unlockPart_fr (s : State) (p : Nat) : Fr 256 s (unlockPart s p) := by
  unfold unlockPart
  try dsimp only
  repeat' first
    | with_reducible apply Fr.refl
    | with_reducible apply Fr.ite
    | with_reducible apply Fr.step (setWindow_fr _ _ _) ?_
    | (with_reducible apply Fr.put_tbl _ ?_; first | with_reducible apply Fr.refl | with_reducible apply Fr.ite | with_reducible apply Fr.step (setWindow_fr _ _ _) ?_ | split)
    | split
    | dsimp only

theorem opTdmaUnlock_fr (r : Nat) (s : State) (x1 : List Word) (x2 : Nat) (x3 : Option HostAccess) : FrO 82180 s (opTdmaUnlock r s x1 x2 x3) := by
  unfold opTdmaUnlock
  try dsimp only
  repeat' first
    | with_reducible apply Fr.refl
    | with_reducible apply FrO.none
    | with_reducible apply FrO.some
    | with_reducible apply FrO.ite
    | with_reducible apply Fr.ite
    | with_reducible apply Fr.step (tdDone_fr _ _ _ _ _ _) ?_
    | with_reducible apply Fr.step (unlockPart_fr _ _) ?_
    | split
    | dsimp only

theorem tdmaUnlock_fr (r : Nat) (s : State) : Fr 82180 s (tdmaUnlock r s) :=
  runTdma_fr _ _ _ _ (opTdmaUnlock_fr r)

theorem opTdmaPurge_fr (r : Nat) (s : State) (x1 : List Word) (x2 : Nat) (x3 : Option HostAccess) : FrO 256 s (opTdmaPurge r s x1 x2 x3) := by
  unfold opTdmaPurge
  try dsimp only
  repeat' first
    | with_reducible apply Fr.refl
    | with_reducible apply FrO.none
    | with_reducible apply FrO.some
    | with_reducible apply FrO.ite
    | with_reducible apply Fr.ite
    | (with_reducible apply Fr.put_tbl _ ?_; first | with_reducible apply Fr.refl | with_reducible apply FrO.none | with_reducible apply FrO.some | with_reducible apply FrO.ite | with_reducible apply Fr.ite | split)
    | split
    | dsimp only

theorem tdmaPurge_fr (r : Nat) (s : State) : Fr 82180 s (tdmaPurge r s) :=
  runTdma_fr _ _ _ _ (opTdmaPurge_fr r)

theorem invalidate_fr (s : State) (table : Nat) (index : Nat) : Fr 4352 s (invalidate s table index) := by
  unfold invalidate
  try dsimp only
  repeat' first
    | with_reducible apply Fr.refl
    | with_reducible apply Fr.ite
    | with_reducible apply Fr.step (emClear_fr _ _) ?_
    | (with_reducible apply Fr.put_tbl _ ?_; first | with_reducible apply Fr.refl | with_reducible apply Fr.ite | with_reducible apply Fr.step (emClear_fr _ _) ?_ | split)
    | split
    | dsimp only

theorem purgeEntries_fr (part table : Nat) (l : List (Nat × Nat)) (s : State) (n : Nat) :
    Fr 4352 s (purgeEntries part table l s n).1 := by
  induction l generalizing s n with
  | nil => exact Fr.refl _ _
  | cons e l ih =>
    unfold purgeEntries
    split
    · exact Fr.refl _ _
    · exact Fr.step (ih _ _) (Fr.step (invalidate_fr _ _ _) (Fr.mono (saveBefore_fr _ _ _ _ _ _ (by assumption))))

theorem purgeAll_fr (part : Nat) (l : List Nat) (s : State) (n : Nat) : Fr 4352 s (purgeAll part l s n).1 := by
  induction l generalizing s n with
  | nil => exact Fr.refl _ _
  | cons e l ih =>
    unfold purgeAll
    dsimp only
    split
    · exact Fr.mono (purgeEntries_fr _ _ _ _ _)
    · exact Fr.step (ih _ _) (Fr.mono (purgeEntries_fr _ _ _ _ _))

theorem purgeComplete_fr (r : Nat) (s : State) : Fr 86276 s (purgeComplete r s) := by
  unfold purgeComplete
  try dsimp only
  repeat' first
    | with_reducible apply Fr.refl
    | with_reducible apply Fr.ite
    | with_reducible apply Fr.step (purgeAll_fr _ _ _ _) ?_
    | with_reducible apply Fr.step (tdDone_fr _ _ _ _ _ _) ?_
    | with_reducible apply Fr.step (sweepBad_fr _ _ _) ?_
    | (with_reducible apply Fr.put_tbl _ ?_; first | with_reducible apply Fr.refl | with_reducible apply Fr.ite | with_reducible apply Fr.step (purgeAll_fr _ _ _ _) ?_ | with_reducible apply Fr.step (tdDone_fr _ _ _ _ _ _) ?_ | with_reducible apply Fr.step (sweepBad_fr _ _ _) ?_ | (split <;> try (rename_i h; have e := congrArg Prod.fst h; dsimp only at e; subst e)))
    | (split <;> try (rename_i h; have e := congrArg Prod.fst h; dsimp only at e; subst e))
    | dsimp only

theorem routePacket_fr (s : State) (die : Nat) (pkt : List Byte) : Fr 82117 s (routePacket s die pkt) := by
  unfold routePacket
  try dsimp only
  repeat' first
    | with_reducible apply Fr.refl
    | with_reducible apply Fr.ite
    | with_reducible apply Fr.foldl _ _ (fun y a => ?_) ?_
    | with_reducible apply Fr.foldl1 _ _ (fun y a => ?_) ?_
    | with_reducible apply Fr.step (emit_fr _ _) ?_
    | with_reducible apply Fr.step (originate_fr _ _ _) ?_
    | with_reducible apply Fr.step (bump_fr _ _) ?_
    | (split <;> try (rename_i h; have e := congrArg Prod.fst h; dsimp only at e; subst e))
    | dsimp only

theorem mgmtEth_fr (_port : Nat) (pkt : List Byte) (s : State) : Fr 82117 s (mgmtEth _port pkt s) := by
  unfold mgmtEth
  try dsimp only
  repeat' first
    | with_reducible apply Fr.refl
    | with_reducible apply Fr.ite
    | with_reducible apply Fr.step (routePacket_fr _ _ _) ?_
    | with_reducible apply Fr.step (emit_fr _ _) ?_
    | split
    | dsimp only

end Sys2Proof.Machine
end

