-- ==== Sys2Proof/Laws/FrColl.lean ====
section
/-! SUPPORT. What each operation of collectives, launches and plan runs can do, by Laws/Frame.lean. -/
/- Proofs of this file are elaborated one after another: side by side, their waiting threads' stacks
together pass the memory limit of the check. -/
set_option Elab.async false
namespace Sys2Proof.Machine

theorem setCruSlot_fr (s : State) (g : Nat) (v : Slot) : Fr 512 s (setCruSlot s g v) := by
  unfold setCruSlot
  try dsimp only
  repeat' first
    | with_reducible apply Fr.refl
    | with_reducible apply Fr.ite
    | (with_reducible apply Fr.put_cru _ ?_; first | with_reducible apply Fr.refl | with_reducible apply Fr.ite | split)
    | split
    | dsimp only

theorem releaseSlot_fr (s : State) (g : Nat) : Fr 512 s (releaseSlot s g) := by
  unfold releaseSlot
  try dsimp only
  repeat' first
    | with_reducible apply Fr.refl
    | with_reducible apply Fr.ite
    | with_reducible apply Fr.step (setCruSlot_fr _ _ _) ?_
    | split
    | dsimp only

theorem releaseSlots_fr (s : State) (l : List Nat) : Fr 115204 s (releaseSlots s l) := by
  unfold releaseSlots
  try dsimp only
  repeat' first
    | with_reducible apply Fr.refl
    | with_reducible apply Fr.ite
    | with_reducible apply Fr.forEach _ _ (fun y a => ?_) ?_
    | with_reducible apply Fr.step (noteHealth_fr _) ?_
    | with_reducible apply Fr.step (releaseSlot_fr _ _) ?_
    | split
    | dsimp only

theorem slotScrubDone_fr (cru : Nat) (slot : Nat) (s : State) : Fr 131584 s (slotScrubDone cru slot s) := by
  unfold slotScrubDone
  try dsimp only
  repeat' first
    | with_reducible apply Fr.refl
    | with_reducible apply Fr.ite
    | with_reducible apply Fr.step (setCruSlot_fr _ _ _) ?_
    | with_reducible apply Fr.step (await_fr _ _ _) ?_
    | split
    | dsimp only

theorem setCtx_fr (s : State) (c : Nat) (x : Ctx) : Fr 2048 s (setCtx s c x) := by
  unfold setCtx
  try dsimp only
  repeat' first
    | with_reducible apply Fr.refl
    | with_reducible apply Fr.ite
    | (with_reducible apply Fr.put_coll _ ?_; first | with_reducible apply Fr.refl | with_reducible apply Fr.ite | split)
    | split
    | dsimp only

theorem modCtx_fr (s : State) (c : Nat) (f : Ctx → Ctx) : Fr 2048 s (modCtx s c f) := by
  unfold modCtx
  try dsimp only
  repeat' first
    | with_reducible apply Fr.refl
    | with_reducible apply Fr.ite
    | with_reducible apply Fr.step (setCtx_fr _ _ _) ?_
    | split
    | dsimp only

theorem rehash_fr (s : State) (c : Nat) : Fr 2048 s (rehash s c) := by
  unfold rehash
  try dsimp only
  repeat' first
    | with_reducible apply Fr.refl
    | with_reducible apply Fr.ite
    | with_reducible apply Fr.step (modCtx_fr _ _ _) ?_
    | split
    | dsimp only

theorem collFrame_fr (s : State) (c : Nat) (die : Nat) (mc : Bool) (dest : Nat) (chunk : Nat) (ce : Bool) (f : Frame) : Fr 84165 s (collFrame s c die mc dest chunk ce f).1 := by
  unfold collFrame
  try dsimp only
  repeat' first
    | with_reducible apply Fr.refl
    | with_reducible apply Fr.ite
    | with_reducible apply Fr.ite1
    | with_reducible apply Fr.step (bump_fr _ _) ?_
    | with_reducible apply Fr.step (originate_fr _ _ _) ?_
    | with_reducible apply Fr.step (setCtx_fr _ _ _) ?_
    | (split <;> try (rename_i h; have e := congrArg Prod.fst h; dsimp only at e; subst e))
    | dsimp only

theorem sendResult_fr (s : State) (c : Nat) (die : Nat) (mc : Bool) (dest : Nat) (chunk : Nat) (ce : Bool) (l : List Frame) : Fr 84165 s (sendResult s c die mc dest chunk ce l) := by
  unfold sendResult
  try dsimp only
  repeat' first
    | with_reducible apply Fr.refl
    | with_reducible apply Fr.ite
    | with_reducible apply Fr.forEach _ _ (fun y a => ?_) ?_
    | with_reducible apply Fr.step (collFrame_fr _ _ _ _ _ _ _ _) ?_
    | with_reducible apply Fr.step (bump_fr _ _) ?_
    | (split <;> try (rename_i h; have e := congrArg Prod.fst h; dsimp only at e; subst e))
    | dsimp only

theorem chunkCompletes_fr (s : State) (c : Nat) (die : Nat) (chunk : Nat) (mc : Bool) (dest : Nat) (one : CmplSum) : Fr 84165 s (chunkCompletes s c die chunk mc dest one) := by
  unfold chunkCompletes
  try dsimp only
  repeat' first
    | with_reducible apply Fr.refl
    | with_reducible apply Fr.ite
    | with_reducible apply Fr.step (setCtx_fr _ _ _) ?_
    | with_reducible apply Fr.step (collFrame_fr _ _ _ _ _ _ _ _) ?_
    | (split <;> try (rename_i h; have e := congrArg Prod.fst h; dsimp only at e; subst e))
    | dsimp only

theorem arrived_fr (s : State) (c : Nat) (m : Nat) : Fr 2048 s (arrived s c m) := by
  unfold arrived
  try dsimp only
  repeat' first
    | with_reducible apply Fr.refl
    | with_reducible apply Fr.ite
    | with_reducible apply Fr.step (modCtx_fr _ _ _) ?_
    | split
    | dsimp only

theorem missedMembers_fr (s : State) (c : Nat) (l : List Nat) : Fr 2048 s (missedMembers s c l) := by
  unfold missedMembers
  try dsimp only
  repeat' first
    | with_reducible apply Fr.refl
    | with_reducible apply Fr.ite
    | with_reducible apply Fr.foldl _ _ (fun y a => ?_) ?_
    | with_reducible apply Fr.foldl1 _ _ (fun y a => ?_) ?_
    | with_reducible apply Fr.step (modCtx_fr _ _ _) ?_
    | split
    | dsimp only

theorem noteSuspects_fr (s : State) (c : Nat) (slow : Nat) : Fr 83972 s (noteSuspects s c slow) := by
  unfold noteSuspects
  try dsimp only
  repeat' first
    | with_reducible apply Fr.refl
    | with_reducible apply Fr.ite
    | with_reducible apply Fr.forEach _ _ (fun y a => ?_) ?_
    | with_reducible apply Fr.foldl _ _ (fun y a => ?_) ?_
    | with_reducible apply Fr.foldl1 _ _ (fun y a => ?_) ?_
    | with_reducible apply Fr.step (setCtx_fr _ _ _) ?_
    | with_reducible apply Fr.step (raiseEvent_fr _ _ _ _ _) ?_
    | split
    | dsimp only

theorem noteArrivals_fr (s : State) (c : Nat) : Fr 83972 s (noteArrivals s c) := by
  unfold noteArrivals
  try dsimp only
  repeat' first
    | with_reducible apply Fr.refl
    | with_reducible apply Fr.ite
    | with_reducible apply Fr.step (setCtx_fr _ _ _) ?_
    | with_reducible apply Fr.step (noteSuspects_fr _ _ _) ?_
    | split
    | dsimp only

theorem endInvocation_fr (s : State) (c : Nat) (early : Option (Nat × Nat × Nat)) : Fr 84165 s (endInvocation s c early) := by
  unfold endInvocation
  try dsimp only
  repeat' first
    | with_reducible apply Fr.refl
    | with_reducible apply Fr.ite
    | with_reducible apply Fr.step (collFrame_fr _ _ _ _ _ _ _ _) ?_
    | with_reducible apply Fr.step (noteArrivals_fr _ _) ?_
    | with_reducible apply Fr.step (modCtx_fr _ _ _) ?_
    | (split <;> try (rename_i h; have e := congrArg Prod.fst h; dsimp only at e; subst e))
    | dsimp only

theorem readBytes_fr (s : State) (base : Nat) (off : Nat) (n : Nat) : Fr 4096 s (readBytes s base off n).1 := by
  unfold readBytes
  try dsimp only
  repeat' first
    | with_reducible apply Fr.refl
    | with_reducible apply Fr.ite
    | with_reducible apply Fr.ite1
    | with_reducible apply Fr.step (doneReads_fr _ _ _ _) ?_
    | (split <;> try (rename_i h; have e := congrArg Prod.fst h; dsimp only at e; subst e))
    | dsimp only

theorem writeBytes_fr (s : State) (base : Nat) (off : Nat) (data : List Byte) : Fr 69632 s (writeBytes s base off data) := by
  unfold writeBytes
  try dsimp only
  repeat' first
    | with_reducible apply Fr.refl
    | with_reducible apply Fr.ite
    | with_reducible apply Fr.forEach _ _ (fun y a => ?_) ?_
    | with_reducible apply Fr.step (setRegionLine_fr _ _ _ _) ?_
    | split
    | dsimp only

theorem readPlanes_fr (s : State) (base n : Nat) (l : List Nat) : Fr 4096 s (readPlanes s base n l).1 := by
  induction l generalizing s with
  | nil => exact Fr.refl _ _
  | cons o l ih => exact Fr.step (ih _) (Fr.mono (readBytes_fr _ _ _ _))

theorem writePlanes_fr (s : State) (base : Nat) (offs : List Nat) (l : List (Nat × Nat × Nat)) : Fr 69632 s (writePlanes s base offs l) := by
  unfold writePlanes
  try dsimp only
  repeat' first
    | with_reducible apply Fr.refl
    | with_reducible apply Fr.ite
    | with_reducible apply Fr.forEach _ _ (fun y a => ?_) ?_
    | with_reducible apply Fr.step (writeBytes_fr _ _ _ _) ?_
    | split
    | dsimp only

theorem advanceOnce_fr (s : State) (c : Nat) : Fr 2048 s (advanceOnce s c) := by
  unfold advanceOnce
  try dsimp only
  repeat' first
    | with_reducible apply Fr.refl
    | with_reducible apply Fr.ite
    | with_reducible apply Fr.step (modCtx_fr _ _ _) ?_
    | split
    | dsimp only

theorem setChunk_fr (s : State) (c : Nat) (k : Nat) (v : Chunk) : Fr 2048 s (setChunk s c k v) := by
  unfold setChunk
  try dsimp only
  repeat' first
    | with_reducible apply Fr.refl
    | with_reducible apply Fr.ite
    | with_reducible apply Fr.step (modCtx_fr _ _ _) ?_
    | split
    | dsimp only

theorem modChunk_fr (s : State) (c : Nat) (k : Nat) (f : Chunk → Chunk) : Fr 2048 s (modChunk s c k f) := by
  unfold modChunk
  try dsimp only
  repeat' first
    | with_reducible apply Fr.refl
    | with_reducible apply Fr.ite
    | with_reducible apply Fr.step (setChunk_fr _ _ _ _) ?_
    | split
    | dsimp only

theorem startChunk_fr (s : State) (c : Nat) (k : Nat) : Fr 2560 s (startChunk s c k) := by
  unfold startChunk
  try dsimp only
  repeat' first
    | with_reducible apply Fr.refl
    | with_reducible apply Fr.ite
    | with_reducible apply Fr.forEach _ _ (fun y a => ?_) ?_
    | with_reducible apply Fr.step (setCruSlot_fr _ _ _) ?_
    | with_reducible apply Fr.step (modChunk_fr _ _ _ _) ?_
    | with_reducible apply Fr.step (modCtx_fr _ _ _) ?_
    | split
    | dsimp only

theorem updateChunk_fr (s : State) (c : Nat) (e0 : Nat) (vals : List FVal) : Fr 71680 s (updateChunk s c e0 vals).1 := by
  unfold updateChunk
  try dsimp only
  repeat' first
    | with_reducible apply Fr.refl
    | with_reducible apply Fr.ite
    | with_reducible apply Fr.ite1
    | with_reducible apply Fr.step (advanceOnce_fr _ _) ?_
    | with_reducible apply Fr.step (readPlanes_fr _ _ _ _) ?_
    | with_reducible apply Fr.step (writePlanes_fr _ _ _ _) ?_
    | (split <;> try (rename_i h; have e := congrArg Prod.fst h; dsimp only at e; subst e))
    | dsimp only

theorem chunkOutput_fr (s : State) (c : Nat) (k : Nat) (v : Chunk) : Fr 71680 s (chunkOutput s c k v).1 := by
  unfold chunkOutput
  try dsimp only
  repeat' first
    | with_reducible apply Fr.refl
    | with_reducible apply Fr.ite
    | with_reducible apply Fr.ite1
    | with_reducible apply Fr.step (updateChunk_fr _ _ _ _) ?_
    | (split <;> try (rename_i h; have e := congrArg Prod.fst h; dsimp only at e; subst e))
    | dsimp only

theorem completeChunk_fr (s : State) (c : Nat) (k : Nat) : Fr 121541 s (completeChunk s c k) := by
  unfold completeChunk
  try dsimp only
  repeat' first
    | with_reducible apply Fr.refl
    | with_reducible apply Fr.ite
    | with_reducible apply Fr.step (chunkOutput_fr _ _ _ _) ?_
    | with_reducible apply Fr.step (sendResult_fr _ _ _ _ _ _ _ _) ?_
    | with_reducible apply Fr.step (chunkCompletes_fr _ _ _ _ _ _ _) ?_
    | with_reducible apply Fr.step (missedMembers_fr _ _ _) ?_
    | with_reducible apply Fr.step (releaseSlots_fr _ _) ?_
    | with_reducible apply Fr.step (setChunk_fr _ _ _ _) ?_
    | with_reducible apply Fr.step (endInvocation_fr _ _ _) ?_
    | (split <;> try (rename_i h; have e := congrArg Prod.fst h; dsimp only at e; subst e))
    | dsimp only

theorem checkChunk_fr (s : State) (c : Nat) (k : Nat) : Fr 121541 s (checkChunk s c k) := by
  unfold checkChunk
  try dsimp only
  repeat' first
    | with_reducible apply Fr.refl
    | with_reducible apply Fr.ite
    | with_reducible apply Fr.step (completeChunk_fr _ _ _) ?_
    | split
    | dsimp only

theorem endDynamic_fr (s : State) (c : Nat) (status : Nat) (eid : Nat) : Fr 117445 s (endDynamic s c status eid) := by
  unfold endDynamic
  try dsimp only
  repeat' first
    | with_reducible apply Fr.refl
    | with_reducible apply Fr.ite
    | with_reducible apply Fr.step (releaseSlots_fr _ _) ?_
    | with_reducible apply Fr.step (endInvocation_fr _ _ _) ?_
    | split
    | dsimp only

theorem dynTimeoutExpiry_fr (c : Nat) (s : State) : Fr 248517 s (dynTimeoutExpiry c s) := by
  unfold dynTimeoutExpiry
  try dsimp only
  repeat' first
    | with_reducible apply Fr.refl
    | with_reducible apply Fr.ite
    | with_reducible apply Fr.step (await_fr _ _ _) ?_
    | with_reducible apply Fr.step (missedMembers_fr _ _ _) ?_
    | with_reducible apply Fr.step (endDynamic_fr _ _ _ _) ?_
    | split
    | dsimp only

theorem setWin_fr (s : State) (c : Nat) (i : Nat) (w : WinRun) : Fr 1024 s (setWin s c i w) := by
  unfold setWin
  try dsimp only
  repeat' first
    | with_reducible apply Fr.refl
    | with_reducible apply Fr.ite
    | with_reducible apply Fr.step (modPlan_fr _ _ _) ?_
    | split
    | dsimp only

theorem modWin_fr (s : State) (c : Nat) (i : Nat) (f : WinRun → WinRun) : Fr 1024 s (modWin s c i f) := by
  unfold modWin
  try dsimp only
  repeat' first
    | with_reducible apply Fr.refl
    | with_reducible apply Fr.ite
    | with_reducible apply Fr.step (setWin_fr _ _ _ _) ?_
    | split
    | dsimp only

theorem noteDone_fr (s : State) (c : Nat) : Fr 1024 s (noteDone s c) := by
  unfold noteDone
  try dsimp only
  repeat' first
    | with_reducible apply Fr.refl
    | with_reducible apply Fr.ite
    | with_reducible apply Fr.forEach _ _ (fun y a => ?_) ?_
    | with_reducible apply Fr.step (setWin_fr _ _ _ _) ?_
    | split
    | dsimp only

theorem setLaunch_fr (s : State) (d : Nat) (l : List Launch) : Fr 1024 s (setLaunch s d l) := by
  unfold setLaunch
  try dsimp only
  repeat' first
    | with_reducible apply Fr.refl
    | with_reducible apply Fr.ite
    | (with_reducible apply Fr.put_plan _ ?_; first | with_reducible apply Fr.refl | with_reducible apply Fr.ite | split)
    | split
    | dsimp only

theorem enterRiser_fr (s : State) (d : Nat) (l : Launch) : Fr 82117 s (enterRiser s d l) := by
  unfold enterRiser
  try dsimp only
  repeat' first
    | with_reducible apply Fr.refl
    | with_reducible apply Fr.ite
    | with_reducible apply Fr.step (complete_fr _ _ _ _ _ _ _) ?_
    | with_reducible apply Fr.step (originate_fr _ _ _) ?_
    | (split <;> try (rename_i h; have e := congrArg Prod.fst h; dsimp only at e; subst e))
    | dsimp only

theorem frameLaunch_fr (d : Nat) (s : State) : Fr 214213 s (frameLaunch d s) := by
  unfold frameLaunch
  try dsimp only
  repeat' first
    | with_reducible apply Fr.refl
    | with_reducible apply Fr.ite
    | with_reducible apply Fr.step (awaitNt_fr _ _) ?_
    | with_reducible apply Fr.step (enterRiser_fr _ _ _) ?_
    | with_reducible apply Fr.step (bump_fr _ _) ?_
    | with_reducible apply Fr.step (setLaunch_fr _ _ _) ?_
    | split
    | dsimp only

theorem releaseHeldFrame_fr (s : State) (c : Nat) : Fr 83141 s (releaseHeldFrame s c) := by
  unfold releaseHeldFrame
  try dsimp only
  repeat' first
    | with_reducible apply Fr.refl
    | with_reducible apply Fr.ite
    | with_reducible apply Fr.step (bump_fr _ _) ?_
    | with_reducible apply Fr.step (enterRiser_fr _ _ _) ?_
    | with_reducible apply Fr.step (setLaunch_fr _ _ _) ?_
    | split
    | dsimp only

theorem discardHeld_fr (s : State) (c : Nat) : Fr 82948 s (discardHeld s c) := by
  unfold discardHeld
  try dsimp only
  repeat' first
    | with_reducible apply Fr.refl
    | with_reducible apply Fr.ite
    | with_reducible apply Fr.forEach _ _ (fun y a => ?_) ?_
    | with_reducible apply Fr.step (setLaunch_fr _ _ _) ?_
    | with_reducible apply Fr.step (complete_fr _ _ _ _ _ _ _) ?_
    | split
    | dsimp only

theorem setupRecord_fr (s : State) (i : Nat) (d : List Word) (r : List Word) : Fr 2048 s (setupRecord s i d r).1 := by
  unfold setupRecord
  try dsimp only
  repeat' first
    | with_reducible apply Fr.refl
    | with_reducible apply Fr.ite
    | with_reducible apply Fr.ite1
    | with_reducible apply Fr.step (setCtx_fr _ _ _) ?_
    | with_reducible apply Fr.step (rehash_fr _ _) ?_
    | (split <;> try (rename_i h; have e := congrArg Prod.fst h; dsimp only at e; subst e))
    | dsimp only

theorem opCtxSetup_fr (i : Nat) (s : State) (x1 : List Word) (x2 : Nat) (x3 : Option HostAccess) : FrO 83972 s (opCtxSetup i s x1 x2 x3) := by
  unfold opCtxSetup
  try dsimp only
  repeat' first
    | with_reducible apply Fr.refl
    | with_reducible apply FrO.none
    | with_reducible apply FrO.some
    | with_reducible apply FrO.ite
    | with_reducible apply Fr.ite
    | with_reducible apply Fr.step (complete_fr _ _ _ _ _ _ _) ?_
    | with_reducible apply Fr.step (setupRecord_fr _ _ _ _) ?_
    | (split <;> try (rename_i h; have e := congrArg Prod.fst h; dsimp only at e; subst e))
    | dsimp only

theorem ctxSetup_fr (i : Nat) (s : State) : Fr 83972 s (ctxSetup i s) :=
  runHead_fr _ _ _ _ _ (opCtxSetup_fr i)

theorem copyOut_fr (s : State) (i : Nat) (key : Nat) (addr : Nat) (count : Nat) (data : List Byte) (a : Option HostAccess) : Fr 81924 s (copyOut s i key addr count data a) := by
  unfold copyOut
  try dsimp only
  repeat' first
    | with_reducible apply Fr.refl
    | with_reducible apply Fr.ite
    | with_reducible apply Fr.step (hostOut_fr _ _ _ _ _ _) ?_
    | with_reducible apply Fr.step (complete_fr _ _ _ _ _ _ _) ?_
    | (split <;> try (rename_i h; have e := congrArg Prod.fst h; dsimp only at e; subst e))
    | dsimp only

theorem opCtxRead_fr (i : Nat) (s : State) (x1 : List Word) (x2 : Nat) (x3 : Option HostAccess) : FrO 81924 s (opCtxRead i s x1 x2 x3) := by
  unfold opCtxRead
  try dsimp only
  repeat' first
    | with_reducible apply Fr.refl
    | with_reducible apply FrO.none
    | with_reducible apply FrO.some
    | with_reducible apply FrO.ite
    | with_reducible apply Fr.ite
    | with_reducible apply Fr.step (complete_fr _ _ _ _ _ _ _) ?_
    | with_reducible apply Fr.step (copyOut_fr _ _ _ _ _ _ _) ?_
    | split
    | dsimp only

theorem ctxRead_fr (i : Nat) (s : State) : Fr 81924 s (ctxRead i s) :=
  runHead_fr _ _ _ _ _ (opCtxRead_fr i)

theorem opCtxStats_fr (i : Nat) (s : State) (x1 : List Word) (x2 : Nat) (x3 : Option HostAccess) : FrO 81924 s (opCtxStats i s x1 x2 x3) := by
  unfold opCtxStats
  try dsimp only
  repeat' first
    | with_reducible apply Fr.refl
    | with_reducible apply FrO.none
    | with_reducible apply FrO.some
    | with_reducible apply FrO.ite
    | with_reducible apply Fr.ite
    | with_reducible apply Fr.step (complete_fr _ _ _ _ _ _ _) ?_
    | with_reducible apply Fr.step (copyOut_fr _ _ _ _ _ _ _) ?_
    | split
    | dsimp only

theorem ctxStats_fr (i : Nat) (s : State) : Fr 81924 s (ctxStats i s) :=
  runHead_fr _ _ _ _ _ (opCtxStats_fr i)

theorem excludeSlot_fr (s : State) (c : Nat) (slot : Nat) : Fr 122565 s (excludeSlot s c slot) := by
  unfold excludeSlot
  try dsimp only
  repeat' first
    | with_reducible apply Fr.refl
    | with_reducible apply Fr.ite
    | with_reducible apply Fr.forEach _ _ (fun y a => ?_) ?_
    | with_reducible apply Fr.step (modCtx_fr _ _ _) ?_
    | with_reducible apply Fr.step (noteDone_fr _ _) ?_
    | with_reducible apply Fr.step (checkChunk_fr _ _ _) ?_
    | split
    | dsimp only

theorem opCtxExclude_fr (i : Nat) (s : State) (x1 : List Word) (x2 : Nat) (x3 : Option HostAccess) : FrO 122565 s (opCtxExclude i s x1 x2 x3) := by
  unfold opCtxExclude
  try dsimp only
  repeat' first
    | with_reducible apply Fr.refl
    | with_reducible apply FrO.none
    | with_reducible apply FrO.some
    | with_reducible apply FrO.ite
    | with_reducible apply Fr.ite
    | with_reducible apply Fr.step (complete_fr _ _ _ _ _ _ _) ?_
    | with_reducible apply Fr.step (excludeSlot_fr _ _ _) ?_
    | split
    | dsimp only

theorem ctxExclude_fr (i : Nat) (s : State) : Fr 122565 s (ctxExclude i s) :=
  runHead_fr _ _ _ _ _ (opCtxExclude_fr i)

theorem includeSlot_fr (s : State) (c : Nat) (slot : Nat) : Fr 2048 s (includeSlot s c slot) := by
  unfold includeSlot
  try dsimp only
  repeat' first
    | with_reducible apply Fr.refl
    | with_reducible apply Fr.ite
    | with_reducible apply Fr.step (modCtx_fr _ _ _) ?_
    | split
    | dsimp only

theorem opCtxInclude_fr (i : Nat) (s : State) (x1 : List Word) (x2 : Nat) (x3 : Option HostAccess) : FrO 83972 s (opCtxInclude i s x1 x2 x3) := by
  unfold opCtxInclude
  try dsimp only
  repeat' first
    | with_reducible apply Fr.refl
    | with_reducible apply FrO.none
    | with_reducible apply FrO.some
    | with_reducible apply FrO.ite
    | with_reducible apply Fr.ite
    | with_reducible apply Fr.step (complete_fr _ _ _ _ _ _ _) ?_
    | with_reducible apply Fr.step (includeSlot_fr _ _ _) ?_
    | split
    | dsimp only

theorem ctxInclude_fr (i : Nat) (s : State) : Fr 83972 s (ctxInclude i s) :=
  runHead_fr _ _ _ _ _ (opCtxInclude_fr i)

theorem tearDown_fr (s : State) (i : Nat) (key : Nat) (c : Nat) : Fr 118469 s (tearDown s i key c) := by
  unfold tearDown
  try dsimp only
  repeat' first
    | with_reducible apply Fr.refl
    | with_reducible apply Fr.ite
    | with_reducible apply Fr.step (endDynamic_fr _ _ _ _) ?_
    | with_reducible apply Fr.step (discardHeld_fr _ _) ?_
    | with_reducible apply Fr.step (setCtx_fr _ _ _) ?_
    | split
    | dsimp only

theorem opCtxTeardown_fr (i : Nat) (s : State) (x1 : List Word) (x2 : Nat) (x3 : Option HostAccess) : FrO 118469 s (opCtxTeardown i s x1 x2 x3) := by
  unfold opCtxTeardown
  try dsimp only
  repeat' first
    | with_reducible apply Fr.refl
    | with_reducible apply FrO.none
    | with_reducible apply FrO.some
    | with_reducible apply FrO.ite
    | with_reducible apply Fr.ite
    | with_reducible apply Fr.step (complete_fr _ _ _ _ _ _ _) ?_
    | with_reducible apply Fr.step (tearDown_fr _ _ _ _) ?_
    | split
    | dsimp only

theorem ctxTeardown_fr (i : Nat) (s : State) : Fr 118469 s (ctxTeardown i s) :=
  runHead_fr _ _ _ _ _ (opCtxTeardown_fr i)

theorem ctxScrubDone_fr (c : Nat) (s : State) : Fr 83972 s (ctxScrubDone c s) := by
  unfold ctxScrubDone
  try dsimp only
  repeat' first
    | with_reducible apply Fr.refl
    | with_reducible apply Fr.ite
    | with_reducible apply Fr.step (setCtx_fr _ _ _) ?_
    | with_reducible apply Fr.step (sweepBad_fr _ _ _) ?_
    | with_reducible apply Fr.step (complete_fr _ _ _ _ _ _ _) ?_
    | split
    | dsimp only

theorem setSeqr_fr (s : State) (n : Nat) (q : Seqr) : Fr 1024 s (setSeqr s n q) := by
  unfold setSeqr
  try dsimp only
  repeat' first
    | with_reducible apply Fr.refl
    | with_reducible apply Fr.ite
    | (with_reducible apply Fr.put_plan _ ?_; first | with_reducible apply Fr.refl | with_reducible apply Fr.ite | split)
    | split
    | dsimp only

theorem modSeqr_fr (s : State) (n : Nat) (f : Seqr → Seqr) : Fr 1024 s (modSeqr s n f) := by
  unfold modSeqr
  try dsimp only
  repeat' first
    | with_reducible apply Fr.refl
    | with_reducible apply Fr.ite
    | with_reducible apply Fr.step (setSeqr_fr _ _ _) ?_
    | split
    | dsimp only

theorem stopSeqs_fr (s : State) (c : Nat) : Fr 1024 s (stopSeqs s c) := by
  unfold stopSeqs
  try dsimp only
  repeat' first
    | with_reducible apply Fr.refl
    | with_reducible apply Fr.ite
    | with_reducible apply Fr.forEach _ _ (fun y a => ?_) ?_
    | with_reducible apply Fr.step (setSeqr_fr _ _ _) ?_
    | split
    | dsimp only

theorem cutRun_fr (s : State) (c : Nat) (status : Nat) (lastRun : Nat) (eid : Nat) : Fr 85189 s (cutRun s c status lastRun eid) := by
  unfold cutRun
  try dsimp only
  repeat' first
    | with_reducible apply Fr.refl
    | with_reducible apply Fr.ite
    | with_reducible apply Fr.step (stopSeqs_fr _ _) ?_
    | with_reducible apply Fr.step (missedMembers_fr _ _ _) ?_
    | with_reducible apply Fr.step (endInvocation_fr _ _ _) ?_
    | with_reducible apply Fr.step (modPlan_fr _ _ _) ?_
    | split
    | dsimp only

theorem abandonRun_fr (s : State) (c : Nat) (status : Nat) (eid : Nat) : Fr 85189 s (abandonRun s c status eid) := by
  unfold abandonRun
  try dsimp only
  repeat' first
    | with_reducible apply Fr.refl
    | with_reducible apply Fr.ite
    | with_reducible apply Fr.step (modPlan_fr _ _ _) ?_
    | with_reducible apply Fr.step (cutRun_fr _ _ _ _ _) ?_
    | split
    | dsimp only

theorem nextRun_fr (s : State) (c : Nat) : Fr 1024 s (nextRun s c) := by
  unfold nextRun
  try dsimp only
  repeat' first
    | with_reducible apply Fr.refl
    | with_reducible apply Fr.ite
    | with_reducible apply Fr.step (modPlan_fr _ _ _) ?_
    | split
    | dsimp only

theorem endRun_fr (s : State) (c : Nat) : Fr 85189 s (endRun s c) := by
  unfold endRun
  try dsimp only
  repeat' first
    | with_reducible apply Fr.refl
    | with_reducible apply Fr.ite
    | with_reducible apply Fr.step (missedMembers_fr _ _ _) ?_
    | with_reducible apply Fr.step (endInvocation_fr _ _ _) ?_
    | with_reducible apply Fr.step (nextRun_fr _ _) ?_
    | with_reducible apply Fr.step (modPlan_fr _ _ _) ?_
    | split
    | dsimp only

theorem timeStepPlans_fr (s : State) : Fr 85189 s (timeStepPlans s) := by
  unfold timeStepPlans
  try dsimp only
  repeat' first
    | with_reducible apply Fr.refl
    | with_reducible apply Fr.ite
    | with_reducible apply Fr.forEach _ _ (fun y a => ?_) ?_
    | with_reducible apply Fr.step (abandonRun_fr _ _ _ _) ?_
    | with_reducible apply Fr.step (modPlan_fr _ _ _) ?_
    | with_reducible apply Fr.step (raiseEvent_fr _ _ _ _ _) ?_
    | split
    | dsimp only

theorem runStart_fr (c : Nat) (s : State) : Fr 132096 s (runStart c s) := by
  unfold runStart
  try dsimp only
  repeat' first
    | with_reducible apply Fr.refl
    | with_reducible apply Fr.ite
    | with_reducible apply Fr.step (awaitNt_fr _ _) ?_
    | with_reducible apply Fr.step (noteDone_fr _ _) ?_
    | with_reducible apply Fr.step (setPlan_fr _ _ _) ?_
    | split
    | dsimp only

theorem pourComparatorLoad_fr (n : Nat) (s : State) : Fr 132096 s (pourComparatorLoad n s) := by
  unfold pourComparatorLoad
  try dsimp only
  repeat' first
    | with_reducible apply Fr.refl
    | with_reducible apply Fr.ite
    | with_reducible apply Fr.step (awaitNt_fr _ _) ?_
    | with_reducible apply Fr.step (modSeqr_fr _ _ _) ?_
    | split
    | dsimp only

theorem pourTime_fr (n : Nat) (s : State) : Fr 132096 s (pourTime n s) := by
  unfold pourTime
  try dsimp only
  repeat' first
    | with_reducible apply Fr.refl
    | with_reducible apply Fr.ite
    | with_reducible apply Fr.step (awaitNt_fr _ _) ?_
    | with_reducible apply Fr.step (setSeqr_fr _ _ _) ?_
    | with_reducible apply Fr.step (modPlan_fr _ _ _) ?_
    | (split <;> try (rename_i h; have e := congrArg Prod.fst h; dsimp only at e; subst e))
    | dsimp only

theorem endPhase_fr (s : State) (n : Nat) (op : Nat) : Fr 85189 s (endPhase s n op) := by
  unfold endPhase
  try dsimp only
  repeat' first
    | with_reducible apply Fr.refl
    | with_reducible apply Fr.ite
    | with_reducible apply Fr.step (setSeqr_fr _ _ _) ?_
    | with_reducible apply Fr.step (modPlan_fr _ _ _) ?_
    | with_reducible apply Fr.step (bump_fr _ _) ?_
    | with_reducible apply Fr.step (endRun_fr _ _) ?_
    | split
    | dsimp only

theorem endPhasesDue_fr (s : State) : Fr 85189 s (endPhasesDue s) := by
  unfold endPhasesDue
  try dsimp only
  repeat' first
    | with_reducible apply Fr.refl
    | with_reducible apply Fr.ite
    | with_reducible apply Fr.forEach _ _ (fun y a => ?_) ?_
    | with_reducible apply Fr.step (endPhase_fr _ _ _) ?_
    | split
    | dsimp only

theorem beginPhase_fr (s : State) (n : Nat) (c : Nat) (k : Nat) : Fr 82948 s (beginPhase s n c k) := by
  unfold beginPhase
  try dsimp only
  repeat' first
    | with_reducible apply Fr.refl
    | with_reducible apply Fr.ite
    | with_reducible apply Fr.step (setSeqr_fr _ _ _) ?_
    | with_reducible apply Fr.step (bump_fr _ _) ?_
    | with_reducible apply Fr.step (modPlan_fr _ _ _) ?_
    | with_reducible apply Fr.step (raiseEvent_fr _ _ _ _ _) ?_
    | split
    | dsimp only

theorem phaseStart_fr (n : Nat) (s : State) : Fr 216261 s (phaseStart n s) := by
  unfold phaseStart
  try dsimp only
  repeat' first
    | with_reducible apply Fr.refl
    | with_reducible apply Fr.ite
    | with_reducible apply Fr.foldl _ _ (fun y a => ?_) ?_
    | with_reducible apply Fr.foldl1 _ _ (fun y a => ?_) ?_
    | with_reducible apply Fr.step (endPhasesDue_fr _) ?_
    | with_reducible apply Fr.step (awaitOpt_fr _ _ _) ?_
    | with_reducible apply Fr.step (beginPhase_fr _ _ _ _) ?_
    | split
    | dsimp only

theorem lateWindow_fr (s : State) (c : Nat) (k : Nat) (i : Nat) : Fr 82948 s (lateWindow s c k i) := by
  unfold lateWindow
  try dsimp only
  repeat' first
    | with_reducible apply Fr.refl
    | with_reducible apply Fr.ite
    | with_reducible apply Fr.step (setWin_fr _ _ _ _) ?_
    | with_reducible apply Fr.step (raiseEvent_fr _ _ _ _ _) ?_
    | split
    | dsimp only

theorem lateError_fr (s : State) (c : Nat) : Fr 85189 s (lateError s c) := by
  unfold lateError
  try dsimp only
  repeat' first
    | with_reducible apply Fr.refl
    | with_reducible apply Fr.ite
    | with_reducible apply Fr.step (nextRun_fr _ _) ?_
    | with_reducible apply Fr.step (abandonRun_fr _ _ _ _) ?_
    | split
    | dsimp only

theorem lateExclude_fr (s : State) (c : Nat) (k : Nat) : Fr 1024 s (lateExclude s c k) := by
  unfold lateExclude
  try dsimp only
  repeat' first
    | with_reducible apply Fr.refl
    | with_reducible apply Fr.ite
    | with_reducible apply Fr.forEach _ _ (fun y a => ?_) ?_
    | with_reducible apply Fr.foldl _ _ (fun y a => ?_) ?_
    | with_reducible apply Fr.foldl1 _ _ (fun y a => ?_) ?_
    | with_reducible apply Fr.step (modWin_fr _ _ _ _) ?_
    | with_reducible apply Fr.step (noteDone_fr _ _) ?_
    | with_reducible apply Fr.step (modPlan_fr _ _ _) ?_
    | split
    | dsimp only

theorem phaseDeadline_fr (c : Nat) (k : Nat) (s : State) : Fr 216261 s (phaseDeadline c k s) := by
  unfold phaseDeadline
  try dsimp only
  repeat' first
    | with_reducible apply Fr.refl
    | with_reducible apply Fr.ite
    | with_reducible apply Fr.forEach _ _ (fun y a => ?_) ?_
    | with_reducible apply Fr.step (awaitNt_fr _ _) ?_
    | with_reducible apply Fr.step (lateWindow_fr _ _ _ _) ?_
    | with_reducible apply Fr.step (modPlan_fr _ _ _) ?_
    | with_reducible apply Fr.step (lateError_fr _ _) ?_
    | with_reducible apply Fr.step (lateExclude_fr _ _ _) ?_
    | split
    | dsimp only

theorem waitBoundExpiry_fr (c : Nat) (k : Nat) (s : State) : Fr 216261 s (waitBoundExpiry c k s) := by
  unfold waitBoundExpiry
  try dsimp only
  repeat' first
    | with_reducible apply Fr.refl
    | with_reducible apply Fr.ite
    | with_reducible apply Fr.step (awaitNt_fr _ _) ?_
    | with_reducible apply Fr.step (lateError_fr _ _) ?_
    | with_reducible apply Fr.step (lateExclude_fr _ _ _) ?_
    | split
    | dsimp only

theorem freeBytes_fr (s : State) (n : Nat) : Fr 1 s (freeBytes s n).1 := by
  unfold freeBytes
  try dsimp only
  repeat' first
    | with_reducible apply Fr.refl
    | with_reducible apply Fr.ite
    | with_reducible apply Fr.ite1
    | with_reducible apply Fr.step (takeFree_fr _) ?_
    | (split <;> try (rename_i h; have e := congrArg Prod.fst h; dsimp only at e; subst e))
    | dsimp only

theorem keptBytes_fr (s : State) (x : Ctx) (e : Word × Word × Word × Word) (b : List Byte) : Fr 1 s (keptBytes s x e b).1 := by
  unfold keptBytes
  try dsimp only
  repeat' first
    | with_reducible apply Fr.refl
    | with_reducible apply Fr.ite
    | with_reducible apply Fr.ite1
    | with_reducible apply Fr.step (freeBytes_fr _ _) ?_
    | (split <;> try (rename_i h; have e := congrArg Prod.fst h; dsimp only at e; subst e))
    | dsimp only

theorem unplaced_fr (s : State) (c : Nat) (i : Nat) (n : Nat) : Fr 1 s (unplaced s c i n).1 := by
  unfold unplaced
  try dsimp only
  repeat' first
    | with_reducible apply Fr.refl
    | with_reducible apply Fr.ite
    | with_reducible apply Fr.ite1
    | with_reducible apply Fr.step (freeBytes_fr _ _) ?_
    | (split <;> try (rename_i h; have e := congrArg Prod.fst h; dsimp only at e; subst e))
    | dsimp only

theorem outLines_fr (s : State) (c : Nat) (i : Nat) : Fr 1 s (outLines s c i).1 := by
  unfold outLines
  try dsimp only
  repeat' first
    | with_reducible apply Fr.refl
    | with_reducible apply Fr.ite
    | with_reducible apply Fr.ite1
    | with_reducible apply Fr.step (unplaced_fr _ _ _ _) ?_
    | (split <;> try (rename_i h; have e := congrArg Prod.fst h; dsimp only at e; subst e))
    | dsimp only

theorem stateBuf_fr (s : State) (c : Nat) (i : Nat) : Fr 1 s (stateBuf s c i).1 := by
  unfold stateBuf
  try dsimp only
  repeat' first
    | with_reducible apply Fr.refl
    | with_reducible apply Fr.ite
    | with_reducible apply Fr.ite1
    | with_reducible apply Fr.step (unplaced_fr _ _ _ _) ?_
    | (split <;> try (rename_i h; have e := congrArg Prod.fst h; dsimp only at e; subst e))
    | dsimp only

theorem accUpdate_fr (s : State) (c : Nat) (i : Nat) : Fr 3073 s (accUpdate s c i) := by
  unfold accUpdate
  try dsimp only
  repeat' first
    | with_reducible apply Fr.refl
    | with_reducible apply Fr.ite
    | with_reducible apply Fr.step (advanceOnce_fr _ _) ?_
    | with_reducible apply Fr.step (stateBuf_fr _ _ _) ?_
    | with_reducible apply Fr.step (setWin_fr _ _ _ _) ?_
    | (split <;> try (rename_i h; have e := congrArg Prod.fst h; dsimp only at e; subst e))
    | dsimp only

theorem convertWin_fr (s : State) (c : Nat) (i : Nat) (stage : Nat) (fmt : Nat) (mode : Nat) : Fr 1025 s (convertWin s c i stage fmt mode) := by
  unfold convertWin
  try dsimp only
  repeat' first
    | with_reducible apply Fr.refl
    | with_reducible apply Fr.ite
    | with_reducible apply Fr.step (freeBytes_fr _ _) ?_
    | with_reducible apply Fr.step (setWin_fr _ _ _ _) ?_
    | (split <;> try (rename_i h; have e := congrArg Prod.fst h; dsimp only at e; subst e))
    | dsimp only

theorem stateRange_fr (s : State) (c : Nat) (i : Nat) : Fr 1024 s (stateRange s c i) := by
  unfold stateRange
  try dsimp only
  repeat' first
    | with_reducible apply Fr.refl
    | with_reducible apply Fr.ite
    | with_reducible apply Fr.step (modWin_fr _ _ _ _) ?_
    | split
    | dsimp only

theorem memStore_fr (s : State) (c : Nat) (i : Nat) (claim : Nat) (off : Nat) : Fr 69633 s (memStore s c i claim off) := by
  unfold memStore
  try dsimp only
  repeat' first
    | with_reducible apply Fr.refl
    | with_reducible apply Fr.ite
    | with_reducible apply Fr.step (outLines_fr _ _ _) ?_
    | with_reducible apply Fr.step (writeBytes_fr _ _ _ _) ?_
    | (split <;> try (rename_i h; have e := congrArg Prod.fst h; dsimp only at e; subst e))
    | dsimp only

theorem memStoreState_fr (s : State) (c : Nat) (i : Nat) : Fr 70657 s (memStoreState s c i) := by
  unfold memStoreState
  try dsimp only
  repeat' first
    | with_reducible apply Fr.refl
    | with_reducible apply Fr.ite
    | with_reducible apply Fr.step (stateRange_fr _ _ _) ?_
    | with_reducible apply Fr.step (stateBuf_fr _ _ _) ?_
    | with_reducible apply Fr.step (writePlanes_fr _ _ _ _) ?_
    | (split <;> try (rename_i h; have e := congrArg Prod.fst h; dsimp only at e; subst e))
    | dsimp only

theorem loadArrives_fr (s : State) (m : MemWait) : Fr 5120 s (loadArrives s m) := by
  unfold loadArrives
  try dsimp only
  repeat' first
    | with_reducible apply Fr.refl
    | with_reducible apply Fr.ite
    | with_reducible apply Fr.step (readBytes_fr _ _ _ _) ?_
    | with_reducible apply Fr.step (modWin_fr _ _ _ _) ?_
    | (split <;> try (rename_i h; have e := congrArg Prod.fst h; dsimp only at e; subst e))
    | dsimp only

theorem stateArrives_fr (s : State) (m : MemWait) : Fr 5120 s (stateArrives s m) := by
  unfold stateArrives
  try dsimp only
  repeat' first
    | with_reducible apply Fr.refl
    | with_reducible apply Fr.ite
    | with_reducible apply Fr.step (stateRange_fr _ _ _) ?_
    | with_reducible apply Fr.step (readPlanes_fr _ _ _ _) ?_
    | with_reducible apply Fr.step (modWin_fr _ _ _ _) ?_
    | (split <;> try (rename_i h; have e := congrArg Prod.fst h; dsimp only at e; subst e))
    | dsimp only

theorem sendLocal_fr (s : State) (c : Nat) (i : Nat) (j : Nat) : Fr 1025 s (sendLocal s c i j) := by
  unfold sendLocal
  try dsimp only
  repeat' first
    | with_reducible apply Fr.refl
    | with_reducible apply Fr.ite
    | with_reducible apply Fr.step (outLines_fr _ _ _) ?_
    | with_reducible apply Fr.step (keptBytes_fr _ _ _ _) ?_
    | with_reducible apply Fr.step (noteDone_fr _ _) ?_
    | with_reducible apply Fr.step (setWin_fr _ _ _ _) ?_
    | (split <;> try (rename_i h; have e := congrArg Prod.fst h; dsimp only at e; subst e))
    | dsimp only

theorem sendSlot_fr (s : State) (n : Nat) (c : Nat) (w : BitVec 256) : Fr 85189 s (sendSlot s n c w) := by
  unfold sendSlot
  try dsimp only
  repeat' first
    | with_reducible apply Fr.refl
    | with_reducible apply Fr.ite
    | with_reducible apply Fr.step (releaseHeldFrame_fr _ _) ?_
    | with_reducible apply Fr.step (sendLocal_fr _ _ _ _) ?_
    | with_reducible apply Fr.step (outLines_fr _ _ _) ?_
    | with_reducible apply Fr.step (sendResult_fr _ _ _ _ _ _ _ _) ?_
    | with_reducible apply Fr.step (chunkCompletes_fr _ _ _ _ _ _ _) ?_
    | (split <;> try (rename_i h; have e := congrArg Prod.fst h; dsimp only at e; subst e))
    | dsimp only

theorem planContract_fr (s : State) (n : Nat) (kind : Nat) (unit : Nat) : Fr 85191 s (planContract s n kind unit) := by
  unfold planContract
  try dsimp only
  repeat' first
    | with_reducible apply Fr.refl
    | with_reducible apply Fr.ite
    | with_reducible apply Fr.step (putR_fr _ _ _) ?_
    | with_reducible apply Fr.step (raiseEvent_fr _ _ _ _ _) ?_
    | with_reducible apply Fr.step (cutRun_fr _ _ _ _ _) ?_
    | with_reducible apply Fr.step (modPlan_fr _ _ _) ?_
    | split
    | dsimp only

theorem poisonSlot_fr (s : State) (g : Nat) (reads : Nat → Nat → Bool) : Fr 3072 s (poisonSlot s g reads) := by
  unfold poisonSlot
  try dsimp only
  repeat' first
    | with_reducible apply Fr.refl
    | with_reducible apply Fr.ite
    | with_reducible apply Fr.forEach _ _ (fun y a => ?_) ?_
    | with_reducible apply Fr.step (modChunk_fr _ _ _ _) ?_
    | with_reducible apply Fr.step (modWin_fr _ _ _ _) ?_
    | split
    | dsimp only

theorem slotEcc_fr (reads : Nat → Nat → Bool) (s : State) (e : EccError) : Fr 85508 s (slotEcc reads s e) := by
  unfold slotEcc
  try dsimp only
  repeat' first
    | with_reducible apply Fr.refl
    | with_reducible apply Fr.ite
    | with_reducible apply Fr.step (bump_fr _ _) ?_
    | with_reducible apply Fr.step (setCruSlot_fr _ _ _) ?_
    | with_reducible apply Fr.step (poisonSlot_fr _ _ _) ?_
    | with_reducible apply Fr.step (raiseEvent_fr _ _ _ _ _) ?_
    | split
    | dsimp only

theorem arrivalEcc_fr (s : State) (l : List EccError) : Fr 85508 s (arrivalEcc s l) := by
  unfold arrivalEcc
  try dsimp only
  repeat' first
    | with_reducible apply Fr.refl
    | with_reducible apply Fr.ite
    | with_reducible apply Fr.forEach _ _ (fun y a => ?_) ?_
    | with_reducible apply Fr.step (slotEcc_fr _ _ _) ?_
    | split
    | dsimp only

theorem wordEcc_fr (s : State) (c : Nat) (w : BitVec 256) (l : List EccError) : Fr 85508 s (wordEcc s c w l) := by
  unfold wordEcc
  try dsimp only
  repeat' first
    | with_reducible apply Fr.refl
    | with_reducible apply Fr.ite
    | with_reducible apply Fr.forEach _ _ (fun y a => ?_) ?_
    | with_reducible apply Fr.step (slotEcc_fr _ _ _) ?_
    | split
    | dsimp only

theorem wordActs_fr (s : State) (n : Nat) (c : Nat) (t : Nat) (w : BitVec 256) (sample : Option (List Word)) : Fr 89285 s (wordActs s n c t w sample) := by
  unfold wordActs
  try dsimp only
  repeat' first
    | with_reducible apply Fr.refl
    | with_reducible apply Fr.ite
    | with_reducible apply Fr.forEach _ _ (fun y a => ?_) ?_
    | with_reducible apply Fr.step (modWin_fr _ _ _ _) ?_
    | with_reducible apply Fr.step (accUpdate_fr _ _ _) ?_
    | with_reducible apply Fr.step (convertWin_fr _ _ _ _ _ _) ?_
    | with_reducible apply Fr.step (modSeqr_fr _ _ _) ?_
    | with_reducible apply Fr.step (memStore_fr _ _ _ _ _) ?_
    | with_reducible apply Fr.step (stateRange_fr _ _ _) ?_
    | with_reducible apply Fr.step (memStoreState_fr _ _ _) ?_
    | with_reducible apply Fr.step (sendSlot_fr _ _ _ _) ?_
    | split
    | dsimp only

theorem issueWord_fr (s : State) (n : Nat) (t : Nat) (w : BitVec 256) (ecc : List EccError) : Fr 89797 s (issueWord s n t w ecc) := by
  unfold issueWord
  try dsimp only
  repeat' first
    | with_reducible apply Fr.refl
    | with_reducible apply Fr.ite
    | with_reducible apply Fr.step (sampleWord_fr _ _ _) ?_
    | with_reducible apply Fr.step (sampleRecord_fr _ _ _ _) ?_
    | with_reducible apply Fr.step (bump_fr _ _) ?_
    | with_reducible apply Fr.step (bumpN_fr _ _ _) ?_
    | with_reducible apply Fr.step (wordEcc_fr _ _ _ _) ?_
    | with_reducible apply Fr.step (wordActs_fr _ _ _ _ _ _) ?_
    | with_reducible apply Fr.step (modSeqr_fr _ _ _) ?_
    | (split <;> try (rename_i h; have e := congrArg Prod.fst h; dsimp only at e; subst e))
    | dsimp only

theorem stallNow_fr (s : State) (n : Nat) : Fr 66560 s (stallNow s n) := by
  unfold stallNow
  try dsimp only
  repeat' first
    | with_reducible apply Fr.refl
    | with_reducible apply Fr.ite
    | with_reducible apply Fr.step (bumpN_fr _ _ _) ?_
    | with_reducible apply Fr.step (setSeqr_fr _ _ _) ?_
    | split
    | dsimp only

theorem wordIssue_fr (n : Nat) (planEcc : Bool) (ecc : List EccError) (s : State) : Fr 220871 s (wordIssue n planEcc ecc s) := by
  unfold wordIssue
  try dsimp only
  repeat' first
    | with_reducible apply Fr.refl
    | with_reducible apply Fr.ite
    | with_reducible apply Fr.step (await_fr _ _ _) ?_
    | with_reducible apply Fr.step (setSeqr_fr _ _ _) ?_
    | with_reducible apply Fr.step (stallNow_fr _ _) ?_
    | with_reducible apply Fr.step (planContract_fr _ _ _ _) ?_
    | with_reducible apply Fr.step (endPhasesDue_fr _) ?_
    | with_reducible apply Fr.step (issueWord_fr _ _ _ _ _) ?_
    | split
    | dsimp only

theorem memDataArrive_fr (n : Nat) (s : State) : Fr 70656 s (memDataArrive n s) := by
  unfold memDataArrive
  try dsimp only
  repeat' first
    | with_reducible apply Fr.refl
    | with_reducible apply Fr.ite
    | with_reducible apply Fr.step (setSeqr_fr _ _ _) ?_
    | with_reducible apply Fr.step (loadArrives_fr _ _) ?_
    | with_reducible apply Fr.step (stateArrives_fr _ _) ?_
    | with_reducible apply Fr.step (sampleRecord_fr _ _ _ _) ?_
    | with_reducible apply Fr.step (stallNow_fr _ _) ?_
    | split
    | dsimp only

end Sys2Proof.Machine
end

