-- ==== Sys2Proof/Laws/FrPlan.lean ====
section
/-! SUPPORT. What each operation of plan load and contributions can do, by Laws/Frame.lean. -/
/- Proofs of this file are elaborated one after another: side by side, their waiting threads' stacks
together pass the memory limit of the check. -/
set_option Elab.async false
namespace Sys2Proof.Machine

theorem admitPlan_fr (s : State) (ctx : Nat) (ring : Nat) (m : Image) : Fr 3744 s (admitPlan s ctx ring m) := by
  unfold admitPlan
  try dsimp only
  repeat' first
    | with_reducible apply Fr.refl
    | with_reducible apply Fr.ite
    | with_reducible apply Fr.forEach _ _ (fun y a => ?_) ?_
    | with_reducible apply Fr.foldl _ _ (fun y a => ?_) ?_
    | with_reducible apply Fr.foldl1 _ _ (fun y a => ?_) ?_
    | with_reducible apply Fr.step (setPlan_fr _ _ _) ?_
    | with_reducible apply Fr.step (setCruSlot_fr _ _ _) ?_
    | with_reducible apply Fr.step (setSprue_fr _ _ _ _) ?_
    | with_reducible apply Fr.step (rehash_fr _ _) ?_
    | (with_reducible apply Fr.upd ?_; first | with_reducible apply Fr.refl | with_reducible apply Fr.ite | with_reducible apply Fr.forEach _ _ (fun y a => ?_) ?_ | with_reducible apply Fr.foldl _ _ (fun y a => ?_) ?_ | with_reducible apply Fr.foldl1 _ _ (fun y a => ?_) ?_ | with_reducible apply Fr.step (setPlan_fr _ _ _) ?_ | with_reducible apply Fr.step (setCruSlot_fr _ _ _) ?_ | with_reducible apply Fr.step (setSprue_fr _ _ _ _) ?_ | with_reducible apply Fr.step (rehash_fr _ _) ?_ | (split <;> try (rename_i h; have e := congrArg Prod.fst h; dsimp only at e; subst e)))
    | (split <;> try (rename_i h; have e := congrArg Prod.fst h; dsimp only at e; subst e))
    | dsimp only

theorem loadImage_fr (s : State) (i : Nat) (key : Nat) (ctx : Nat) (b : List Byte) : Fr 85668 s (loadImage s i key ctx b) := by
  unfold loadImage
  try dsimp only
  repeat' first
    | with_reducible apply Fr.refl
    | with_reducible apply Fr.ite
    | with_reducible apply Fr.step (complete_fr _ _ _ _ _ _ _) ?_
    | with_reducible apply Fr.step (admitPlan_fr _ _ _ _) ?_
    | split
    | dsimp only

theorem opPlanLoad_fr (i : Nat) (s : State) (x1 : List Word) (x2 : Nat) (x3 : Option HostAccess) : FrO 85668 s (opPlanLoad i s x1 x2 x3) := by
  unfold opPlanLoad
  try dsimp only
  repeat' first
    | with_reducible apply Fr.refl
    | with_reducible apply FrO.none
    | with_reducible apply FrO.some
    | with_reducible apply FrO.ite
    | with_reducible apply Fr.ite
    | with_reducible apply Fr.step (complete_fr _ _ _ _ _ _ _) ?_
    | with_reducible apply Fr.step (loadImage_fr _ _ _ _ _) ?_
    | split
    | dsimp only

theorem planLoad_fr (i : Nat) (s : State) : Fr 85668 s (planLoad i s) :=
  runHead_fr _ _ _ _ _ (opPlanLoad_fr i)

theorem startUnload_fr (s : State) (i : Nat) (key : Nat) (c : Nat) : Fr 118501 s (startUnload s i key c) := by
  unfold startUnload
  try dsimp only
  repeat' first
    | with_reducible apply Fr.refl
    | with_reducible apply Fr.ite
    | with_reducible apply Fr.forEach _ _ (fun y a => ?_) ?_
    | with_reducible apply Fr.step (abandonRun_fr _ _ _ _) ?_
    | with_reducible apply Fr.step (setSprue_fr _ _ _ _) ?_
    | with_reducible apply Fr.step (releaseSprue_fr _ _ _) ?_
    | with_reducible apply Fr.step (modPlan_fr _ _ _) ?_
    | with_reducible apply Fr.step (releaseSlots_fr _ _) ?_
    | (split <;> try (rename_i h; have e := congrArg Prod.fst h; dsimp only at e; subst e))
    | dsimp only

theorem opPlanUnload_fr (i : Nat) (s : State) (x1 : List Word) (x2 : Nat) (x3 : Option HostAccess) : FrO 118501 s (opPlanUnload i s x1 x2 x3) := by
  unfold opPlanUnload
  try dsimp only
  repeat' first
    | with_reducible apply Fr.refl
    | with_reducible apply FrO.none
    | with_reducible apply FrO.some
    | with_reducible apply FrO.ite
    | with_reducible apply Fr.ite
    | with_reducible apply Fr.step (complete_fr _ _ _ _ _ _ _) ?_
    | with_reducible apply Fr.step (startUnload_fr _ _ _ _) ?_
    | split
    | dsimp only

theorem planUnload_fr (i : Nat) (s : State) : Fr 118501 s (planUnload i s) :=
  runHead_fr _ _ _ _ _ (opPlanUnload_fr i)

theorem planUnloadDone_fr (c : Nat) (s : State) : Fr 85124 s (planUnloadDone c s) := by
  unfold planUnloadDone
  try dsimp only
  repeat' first
    | with_reducible apply Fr.refl
    | with_reducible apply Fr.ite
    | with_reducible apply Fr.step (rehash_fr _ _) ?_
    | with_reducible apply Fr.step (setPlan_fr _ _ _) ?_
    | with_reducible apply Fr.step (sweepBad_fr _ _ _) ?_
    | with_reducible apply Fr.step (complete_fr _ _ _ _ _ _ _) ?_
    | (with_reducible apply Fr.put_sw _ ?_; first | with_reducible apply Fr.refl | with_reducible apply Fr.ite | with_reducible apply Fr.step (rehash_fr _ _) ?_ | with_reducible apply Fr.step (setPlan_fr _ _ _) ?_ | with_reducible apply Fr.step (sweepBad_fr _ _ _) ?_ | with_reducible apply Fr.step (complete_fr _ _ _ _ _ _ _) ?_ | split)
    | split
    | dsimp only

theorem opPlanArm_fr (i : Nat) (s : State) (x1 : List Word) (x2 : Nat) (x3 : Option HostAccess) : FrO 82948 s (opPlanArm i s x1 x2 x3) := by
  unfold opPlanArm
  try dsimp only
  repeat' first
    | with_reducible apply Fr.refl
    | with_reducible apply FrO.none
    | with_reducible apply FrO.some
    | with_reducible apply FrO.ite
    | with_reducible apply Fr.ite
    | with_reducible apply Fr.step (setPlan_fr _ _ _) ?_
    | with_reducible apply Fr.step (complete_fr _ _ _ _ _ _ _) ?_
    | split
    | dsimp only

theorem planArm_fr (i : Nat) (s : State) : Fr 82948 s (planArm i s) :=
  runHead_fr _ _ _ _ _ (opPlanArm_fr i)

theorem opPlanDisarm_fr (i : Nat) (s : State) (x1 : List Word) (x2 : Nat) (x3 : Option HostAccess) : FrO 82948 s (opPlanDisarm i s x1 x2 x3) := by
  unfold opPlanDisarm
  try dsimp only
  repeat' first
    | with_reducible apply Fr.refl
    | with_reducible apply FrO.none
    | with_reducible apply FrO.some
    | with_reducible apply FrO.ite
    | with_reducible apply Fr.ite
    | with_reducible apply Fr.step (complete_fr _ _ _ _ _ _ _) ?_
    | with_reducible apply Fr.step (setPlan_fr _ _ _) ?_
    | split
    | dsimp only

theorem planDisarm_fr (i : Nat) (s : State) : Fr 82948 s (planDisarm i s) :=
  runHead_fr _ _ _ _ _ (opPlanDisarm_fr i)

theorem planDisarmDone_fr (c : Nat) (s : State) : Fr 82948 s (planDisarmDone c s) := by
  unfold planDisarmDone
  try dsimp only
  repeat' first
    | with_reducible apply Fr.refl
    | with_reducible apply Fr.ite
    | with_reducible apply Fr.step (sweepBad_fr _ _ _) ?_
    | with_reducible apply Fr.step (complete_fr _ _ _ _ _ _ _) ?_
    | with_reducible apply Fr.step (setPlan_fr _ _ _) ?_
    | split
    | dsimp only

theorem refuseContrib_fr (s : State) (q : QFrame) (cause : Nat) (backoff : Nat) : Fr 82117 s (refuseContrib s q cause backoff) := by
  unfold refuseContrib
  try dsimp only
  repeat' first
    | with_reducible apply Fr.refl
    | with_reducible apply Fr.ite
    | with_reducible apply Fr.step (refuse_fr _ _ _ _) ?_
    | with_reducible apply Fr.step (bump_fr _ _) ?_
    | split
    | dsimp only

theorem noteMismatch_fr (s : State) (c : Nat) (f : Frame) (expected : Nat) : Fr 83974 s (noteMismatch s c f expected) := by
  unfold noteMismatch
  try dsimp only
  repeat' first
    | with_reducible apply Fr.refl
    | with_reducible apply Fr.ite
    | with_reducible apply Fr.step (putR_fr _ _ _) ?_
    | with_reducible apply Fr.step (countEvent_fr _ _) ?_
    | with_reducible apply Fr.step (raiseEvent_fr _ _ _ _ _) ?_
    | with_reducible apply Fr.step (setCtx_fr _ _ _) ?_
    | split
    | dsimp only

theorem noteTaken_fr (s : State) (q : QFrame) (c : Nat) (member : Nat) : Fr 67584 s (noteTaken s q c member) := by
  unfold noteTaken
  try dsimp only
  repeat' first
    | with_reducible apply Fr.refl
    | with_reducible apply Fr.ite
    | with_reducible apply Fr.step (bump_fr _ _) ?_
    | with_reducible apply Fr.step (arrived_fr _ _ _) ?_
    | split
    | dsimp only

theorem takeDyn_fr (s : State) (q : QFrame) (c : Nat) (member : Nat) (k : Nat) (t : Taking) (segs : Option (List Seg)) : Fr 121541 s (takeDyn s q c member k t segs) := by
  unfold takeDyn
  try dsimp only
  repeat' first
    | with_reducible apply Fr.refl
    | with_reducible apply Fr.ite
    | with_reducible apply Fr.step (startChunk_fr _ _ _) ?_
    | with_reducible apply Fr.step (modChunk_fr _ _ _ _) ?_
    | with_reducible apply Fr.step (modCtx_fr _ _ _) ?_
    | with_reducible apply Fr.step (checkChunk_fr _ _ _) ?_
    | split
    | dsimp only

theorem takeWin_fr (s : State) (q : QFrame) (c : Nat) (member : Nat) (i : Nat) (t : Taking) (segs : Option (List Seg)) : Fr 66561 s (takeWin s q c member i t segs) := by
  unfold takeWin
  try dsimp only
  repeat' first
    | with_reducible apply Fr.refl
    | with_reducible apply Fr.ite
    | with_reducible apply Fr.step (keptBytes_fr _ _ _ _) ?_
    | with_reducible apply Fr.step (modWin_fr _ _ _ _) ?_
    | with_reducible apply Fr.step (bumpN_fr _ _ _) ?_
    | with_reducible apply Fr.step (noteDone_fr _ _) ?_
    | (split <;> try (rename_i h; have e := congrArg Prod.fst h; dsimp only at e; subst e))
    | dsimp only

theorem takeContrib_fr (s : State) (q : QFrame) (c : Nat) (member : Nat) (at' : Nat) (planned_ : Bool) : Fr 122567 s (takeContrib s q c member at' planned_) := by
  unfold takeContrib
  try dsimp only
  repeat' first
    | with_reducible apply Fr.refl
    | with_reducible apply Fr.ite
    | with_reducible apply Fr.step (takeWin_fr _ _ _ _ _ _ _) ?_
    | with_reducible apply Fr.step (takeDyn_fr _ _ _ _ _ _ _) ?_
    | with_reducible apply Fr.step (noteMismatch_fr _ _ _ _) ?_
    | with_reducible apply Fr.step (refuseContrib_fr _ _ _ _) ?_
    | with_reducible apply Fr.step (noteTaken_fr _ _ _ _) ?_
    | with_reducible apply Fr.step (freeCredit_fr _ _ _ _) ?_
    | split
    | dsimp only

theorem excludedEvent_fr (s : State) (c : Nat) (member : Nat) (eid : Nat) : Fr 83972 s (excludedEvent s c member eid) := by
  unfold excludedEvent
  try dsimp only
  repeat' first
    | with_reducible apply Fr.refl
    | with_reducible apply Fr.ite
    | with_reducible apply Fr.step (countEvent_fr _ _) ?_
    | with_reducible apply Fr.step (raiseEvent_fr _ _ _ _ _) ?_
    | with_reducible apply Fr.step (setCtx_fr _ _ _) ?_
    | split
    | dsimp only

theorem contribution_fr (q : QFrame) (s : State) : Fr 122567 s (contribution q s) := by
  unfold contribution
  try dsimp only
  repeat' first
    | with_reducible apply Fr.refl
    | with_reducible apply Fr.ite
    | with_reducible apply Fr.step (refuseContrib_fr _ _ _ _) ?_
    | with_reducible apply Fr.step (excludedEvent_fr _ _ _ _) ?_
    | with_reducible apply Fr.step (takeContrib_fr _ _ _ _ _ _) ?_
    | split
    | dsimp only

end Sys2Proof.Machine
end

