-- ==== Sys2Proof/Laws/FrHost.lean ====
section
/-! SUPPORT. What each operation of time, rings and host commands can do, by Laws/Frame.lean. -/
/- Proofs of this file are elaborated one after another: side by side, their waiting threads' stacks
together pass the memory limit of the check. -/
set_option Elab.async false
namespace Sys2Proof.Machine

theorem setDom_fr (s : State) (k : Nat) (d : Dom) : Fr 8192 s (setDom s k d) := by
  unfold setDom
  try dsimp only
  repeat' first
    | with_reducible apply Fr.refl
    | with_reducible apply Fr.ite
    | (with_reducible apply Fr.put_tim _ ?_; first | with_reducible apply Fr.refl | with_reducible apply Fr.ite | split)
    | split
    | dsimp only

theorem modDom_fr (s : State) (k : Nat) (f : Dom → Dom) : Fr 8192 s (modDom s k f) := by
  unfold modDom
  try dsimp only
  repeat' first
    | with_reducible apply Fr.refl
    | with_reducible apply Fr.ite
    | with_reducible apply Fr.step (setDom_fr _ _ _) ?_
    | split
    | dsimp only

theorem trend_fr (s : State) : Fr 1 s (trend s).1 := by
  unfold trend
  try dsimp only
  repeat' first
    | with_reducible apply Fr.refl
    | with_reducible apply Fr.ite
    | with_reducible apply Fr.ite1
    | with_reducible apply Fr.step (takeFree_fr _) ?_
    | (split <;> try (rename_i h; have e := congrArg Prod.fst h; dsimp only at e; subst e))
    | dsimp only

theorem drifts_fr (s : State) (slew : Int) : Fr 1 s (drifts s slew).1 := by
  unfold drifts
  try dsimp only
  repeat' first
    | with_reducible apply Fr.refl
    | with_reducible apply Fr.ite
    | with_reducible apply Fr.ite1
    | with_reducible apply Fr.step (takeFree_fr _) ?_
    | (split <;> try (rename_i h; have e := congrArg Prod.fst h; dsimp only at e; subst e))
    | dsimp only

theorem rebase_fr (s : State) (k : Nat) (drift : Int) (rate : Int) : Fr 8192 s (rebase s k drift rate) := by
  unfold rebase
  try dsimp only
  repeat' first
    | with_reducible apply Fr.refl
    | with_reducible apply Fr.ite
    | with_reducible apply Fr.step (modDom_fr _ _ _) ?_
    | split
    | dsimp only

theorem servo_fr (s : State) (k : Nat) (off : Int) : Fr 8193 s (servo s k off) := by
  unfold servo
  try dsimp only
  repeat' first
    | with_reducible apply Fr.refl
    | with_reducible apply Fr.ite
    | with_reducible apply Fr.step (drifts_fr _ _) ?_
    | with_reducible apply Fr.step (rebase_fr _ _ _ _) ?_
    | (split <;> try (rename_i h; have e := congrArg Prod.fst h; dsimp only at e; subst e))
    | dsimp only

theorem switchNt_fr (s : State) (k : Nat) (cause : Nat) : Fr 90116 s (switchNt s k cause) := by
  unfold switchNt
  try dsimp only
  repeat' first
    | with_reducible apply Fr.refl
    | with_reducible apply Fr.ite
    | with_reducible apply Fr.step (raiseEvent_fr _ _ _ _ _) ?_
    | (with_reducible apply Fr.put_tim _ ?_; first | with_reducible apply Fr.refl | with_reducible apply Fr.ite | with_reducible apply Fr.step (raiseEvent_fr _ _ _ _ _) ?_ | split)
    | split
    | dsimp only

theorem settleNt_fr (s : State) : Fr 90116 s (settleNt s) := by
  unfold settleNt
  try dsimp only
  repeat' first
    | with_reducible apply Fr.refl
    | with_reducible apply Fr.ite
    | with_reducible apply Fr.step (switchNt_fr _ _ _) ?_
    | split
    | dsimp only

theorem stepDom_fr (s : State) (k : Nat) (v : Int) (rate : Int) : Fr 93381 s (stepDom s k v rate) := by
  unfold stepDom
  try dsimp only
  repeat' first
    | with_reducible apply Fr.refl
    | with_reducible apply Fr.ite
    | with_reducible apply Fr.step (modDom_fr _ _ _) ?_
    | with_reducible apply Fr.step (timeStepPlans_fr _) ?_
    | (with_reducible apply Fr.put_tim _ ?_; first | with_reducible apply Fr.refl | with_reducible apply Fr.ite | with_reducible apply Fr.step (modDom_fr _ _ _) ?_ | with_reducible apply Fr.step (timeStepPlans_fr _) ?_ | split)
    | split
    | dsimp only

theorem giveUpExch_fr (s : State) (ks : List Nat) : Fr 65536 s (giveUpExch s ks) := by
  unfold giveUpExch
  try dsimp only
  repeat' first
    | with_reducible apply Fr.refl
    | with_reducible apply Fr.ite
    | with_reducible apply Fr.foldl _ _ (fun y a => ?_) ?_
    | with_reducible apply Fr.foldl1 _ _ (fun y a => ?_) ?_
    | with_reducible apply Fr.step (bumpN_fr _ _ _) ?_
    | split
    | dsimp only

theorem unacquire_fr (s : State) (ks : List Nat) : Fr 90116 s (unacquire s ks) := by
  unfold unacquire
  try dsimp only
  repeat' first
    | with_reducible apply Fr.refl
    | with_reducible apply Fr.ite
    | with_reducible apply Fr.forEach _ _ (fun y a => ?_) ?_
    | with_reducible apply Fr.step (giveUpExch_fr _ _) ?_
    | with_reducible apply Fr.step (setDom_fr _ _ _) ?_
    | with_reducible apply Fr.step (settleNt_fr _) ?_
    | (with_reducible apply Fr.put_tim _ ?_; first | with_reducible apply Fr.refl | with_reducible apply Fr.ite | with_reducible apply Fr.forEach _ _ (fun y a => ?_) ?_ | with_reducible apply Fr.step (giveUpExch_fr _ _) ?_ | with_reducible apply Fr.step (setDom_fr _ _ _) ?_ | with_reducible apply Fr.step (settleNt_fr _) ?_ | split)
    | split
    | dsimp only

theorem holdDom_fr (s : State) (k : Nat) : Fr 8192 s (holdDom s k) := by
  unfold holdDom
  try dsimp only
  repeat' first
    | with_reducible apply Fr.refl
    | with_reducible apply Fr.ite
    | with_reducible apply Fr.step (modDom_fr _ _ _) ?_
    | split
    | dsimp only

theorem enterHoldover_fr (s : State) (k : Nat) (cause : Nat) : Fr 90116 s (enterHoldover s k cause) := by
  unfold enterHoldover
  try dsimp only
  repeat' first
    | with_reducible apply Fr.refl
    | with_reducible apply Fr.ite
    | with_reducible apply Fr.step (settleNt_fr _) ?_
    | with_reducible apply Fr.step (holdDom_fr _ _) ?_
    | with_reducible apply Fr.step (raiseEvent_fr _ _ _ _ _) ?_
    | split
    | dsimp only

theorem parkTime_fr (s : State) : Fr 90116 s (parkTime s) := by
  unfold parkTime
  try dsimp only
  repeat' first
    | with_reducible apply Fr.refl
    | with_reducible apply Fr.ite
    | with_reducible apply Fr.forEach _ _ (fun y a => ?_) ?_
    | with_reducible apply Fr.step (holdDom_fr _ _) ?_
    | with_reducible apply Fr.step (raiseEvent_fr _ _ _ _ _) ?_
    | split
    | dsimp only

theorem dropTime_fr (s : State) : Fr 73728 s (dropTime s) := by
  unfold dropTime
  try dsimp only
  repeat' first
    | with_reducible apply Fr.refl
    | with_reducible apply Fr.ite
    | with_reducible apply Fr.step (giveUpExch_fr _ _) ?_
    | (with_reducible apply Fr.put_tim _ ?_; first | with_reducible apply Fr.refl | with_reducible apply Fr.ite | with_reducible apply Fr.step (giveUpExch_fr _ _) ?_ | split)
    | split
    | dsimp only

theorem reselect_fr (s : State) (k : Nat) : Fr 8192 s (reselect s k) := by
  unfold reselect
  try dsimp only
  repeat' first
    | with_reducible apply Fr.refl
    | with_reducible apply Fr.ite
    | with_reducible apply Fr.step (setDom_fr _ _ _) ?_
    | split
    | dsimp only

theorem stampOne_fr (q : Nat) (r : State × List (Nat × BitVec 104)) (o : Nat × BitVec 104) : Fr 8196 r.1 (stampOne q r o).1 := by
  unfold stampOne
  try dsimp only
  repeat' first
    | with_reducible apply Fr.refl
    | with_reducible apply Fr.ite
    | with_reducible apply Fr.ite1
    | with_reducible apply Fr.step (modDom_fr _ _ _) ?_
    | with_reducible apply Fr.step (emit_fr _ _) ?_
    | (split <;> try (rename_i h; have e := congrArg Prod.fst h; dsimp only at e; subst e))
    | dsimp only

theorem stampSets_fr (s : State) (q : Nat) : Fr 8196 s (stampSets s q).1 := by
  unfold stampSets
  try dsimp only
  repeat' first
    | with_reducible apply Fr.refl
    | with_reducible apply Fr.ite
    | with_reducible apply Fr.ite1
    | with_reducible apply Fr.foldl _ _ (fun y a => ?_) ?_
    | with_reducible apply Fr.foldl1 _ _ (fun y a => ?_) ?_
    | with_reducible apply Fr.step (stampOne_fr _ _ _) ?_
    | (split <;> try (rename_i h; have e := congrArg Prod.fst h; dsimp only at e; subst e))
    | dsimp only

theorem nextSeqOf_fr (s : State) (l : Nat) (k : Nat) : Fr 8192 s (nextSeqOf s l k).1 := by
  unfold nextSeqOf
  try dsimp only
  repeat' first
    | with_reducible apply Fr.refl
    | with_reducible apply Fr.ite
    | with_reducible apply Fr.ite1
    | (with_reducible apply Fr.put_tim _ ?_; first | with_reducible apply Fr.refl | with_reducible apply Fr.ite | with_reducible apply Fr.ite1 | (split <;> try (rename_i h; have e := congrArg Prod.fst h; dsimp only at e; subst e)))
    | (split <;> try (rename_i h; have e := congrArg Prod.fst h; dsimp only at e; subst e))
    | dsimp only

theorem timeSyncSend_fr (l : Nat) (k : Nat) (s : State) : Fr 8256 s (timeSyncSend l k s) := by
  unfold timeSyncSend
  try dsimp only
  repeat' first
    | with_reducible apply Fr.refl
    | with_reducible apply Fr.ite
    | with_reducible apply Fr.step (nextSeqOf_fr _ _ _) ?_
    | with_reducible apply Fr.step (queueOs_fr _ _ _ _) ?_
    | (with_reducible apply Fr.put_tim _ ?_; first | with_reducible apply Fr.refl | with_reducible apply Fr.ite | with_reducible apply Fr.step (nextSeqOf_fr _ _ _) ?_ | with_reducible apply Fr.step (queueOs_fr _ _ _ _) ?_ | (split <;> try (rename_i h; have e := congrArg Prod.fst h; dsimp only at e; subst e)))
    | (split <;> try (rename_i h; have e := congrArg Prod.fst h; dsimp only at e; subst e))
    | dsimp only

theorem timeAnnounceSend_fr (l : Nat) (k : Nat) (s : State) : Fr 8260 s (timeAnnounceSend l k s) := by
  unfold timeAnnounceSend
  try dsimp only
  repeat' first
    | with_reducible apply Fr.refl
    | with_reducible apply Fr.ite
    | with_reducible apply Fr.step (nextSeqOf_fr _ _ _) ?_
    | with_reducible apply Fr.step (sendOs_fr _ _ _ _) ?_
    | (with_reducible apply Fr.put_tim _ ?_; first | with_reducible apply Fr.refl | with_reducible apply Fr.ite | with_reducible apply Fr.step (nextSeqOf_fr _ _ _) ?_ | with_reducible apply Fr.step (sendOs_fr _ _ _ _) ?_ | (split <;> try (rename_i h; have e := congrArg Prod.fst h; dsimp only at e; subst e)))
    | (split <;> try (rename_i h; have e := congrArg Prod.fst h; dsimp only at e; subst e))
    | dsimp only

theorem timeDelayReqReceive_fr (q : Nat) (b : BitVec 104) (s : State) : Fr 65604 s (timeDelayReqReceive q b s) := by
  unfold timeDelayReqReceive
  try dsimp only
  repeat' first
    | with_reducible apply Fr.refl
    | with_reducible apply Fr.ite
    | with_reducible apply Fr.step (osIllegal_fr _ _) ?_
    | with_reducible apply Fr.step (sendOs_fr _ _ _ _) ?_
    | split
    | dsimp only

theorem timeAnnounceReceive_fr (q : Nat) (b : BitVec 104) (s : State) : Fr 73728 s (timeAnnounceReceive q b s) := by
  unfold timeAnnounceReceive
  try dsimp only
  repeat' first
    | with_reducible apply Fr.refl
    | with_reducible apply Fr.ite
    | with_reducible apply Fr.step (osIllegal_fr _ _) ?_
    | with_reducible apply Fr.step (modDom_fr _ _ _) ?_
    | with_reducible apply Fr.step (reselect_fr _ _) ?_
    | split
    | dsimp only

theorem timeAnnounceExpiry_fr (l : Nat) (k : Nat) (s : State) : Fr 139264 s (timeAnnounceExpiry l k s) := by
  unfold timeAnnounceExpiry
  try dsimp only
  repeat' first
    | with_reducible apply Fr.refl
    | with_reducible apply Fr.ite
    | with_reducible apply Fr.step (await_fr _ _ _) ?_
    | with_reducible apply Fr.step (reselect_fr _ _) ?_
    | with_reducible apply Fr.step (setDom_fr _ _ _) ?_
    | split
    | dsimp only

theorem timeSyncReceive_fr (q : Nat) (b : BitVec 104) (s : State) : Fr 73792 s (timeSyncReceive q b s) := by
  unfold timeSyncReceive
  try dsimp only
  repeat' first
    | with_reducible apply Fr.refl
    | with_reducible apply Fr.ite
    | with_reducible apply Fr.step (osIllegal_fr _ _) ?_
    | with_reducible apply Fr.step (reselect_fr _ _) ?_
    | with_reducible apply Fr.step (modDom_fr _ _ _) ?_
    | with_reducible apply Fr.step (queueOs_fr _ _ _ _) ?_
    | split
    | dsimp only

theorem followOffset_fr (s : State) (k : Nat) (off : Int) : Fr 90117 s (followOffset s k off) := by
  unfold followOffset
  try dsimp only
  repeat' first
    | with_reducible apply Fr.refl
    | with_reducible apply Fr.ite
    | with_reducible apply Fr.step (settleNt_fr _) ?_
    | with_reducible apply Fr.step (modDom_fr _ _ _) ?_
    | with_reducible apply Fr.step (servo_fr _ _ _) ?_
    | split
    | dsimp only

theorem measureOffset_fr (s : State) (k : Nat) (off : Int) : Fr 90117 s (measureOffset s k off) := by
  unfold measureOffset
  try dsimp only
  repeat' first
    | with_reducible apply Fr.refl
    | with_reducible apply Fr.ite
    | with_reducible apply Fr.step (followOffset_fr _ _ _) ?_
    | with_reducible apply Fr.step (setDom_fr _ _ _) ?_
    | with_reducible apply Fr.step (settleNt_fr _) ?_
    | with_reducible apply Fr.step (modDom_fr _ _ _) ?_
    | with_reducible apply Fr.step (holdDom_fr _ _) ?_
    | with_reducible apply Fr.step (raiseEvent_fr _ _ _ _ _) ?_
    | split
    | dsimp only

theorem noteOffset_fr (s : State) (k : Nat) (off : Int) : Fr 8192 s (noteOffset s k off) := by
  unfold noteOffset
  try dsimp only
  repeat' first
    | with_reducible apply Fr.refl
    | with_reducible apply Fr.ite
    | with_reducible apply Fr.step (modDom_fr _ _ _) ?_
    | split
    | dsimp only

theorem noteDelay_fr (s : State) (k : Nat) (l : Nat) (delay : Nat) : Fr 8192 s (noteDelay s k l delay) := by
  unfold noteDelay
  try dsimp only
  repeat' first
    | with_reducible apply Fr.refl
    | with_reducible apply Fr.ite
    | with_reducible apply Fr.step (modDom_fr _ _ _) ?_
    | split
    | dsimp only

theorem takeOffset_fr (s : State) (k : Nat) (off : Int) : Fr 93381 s (takeOffset s k off) := by
  unfold takeOffset
  try dsimp only
  repeat' first
    | with_reducible apply Fr.refl
    | with_reducible apply Fr.ite
    | with_reducible apply Fr.step (noteOffset_fr _ _ _) ?_
    | with_reducible apply Fr.step (modDom_fr _ _ _) ?_
    | with_reducible apply Fr.step (trend_fr _) ?_
    | with_reducible apply Fr.step (stepDom_fr _ _ _ _) ?_
    | with_reducible apply Fr.step (measureOffset_fr _ _ _) ?_
    | with_reducible apply Fr.step (followOffset_fr _ _ _) ?_
    | (split <;> try (rename_i h; have e := congrArg Prod.fst h; dsimp only at e; subst e))
    | dsimp only

theorem endExch_fr (s : State) (k : Nat) (l : Nat) (seq : Nat) : Fr 8192 s (endExch s k l seq) := by
  unfold endExch
  try dsimp only
  repeat' first
    | with_reducible apply Fr.refl
    | with_reducible apply Fr.ite
    | with_reducible apply Fr.step (modDom_fr _ _ _) ?_
    | split
    | dsimp only

theorem dropExch_fr (s : State) (k : Nat) (l : Nat) (seq : Nat) : Fr 73728 s (dropExch s k l seq) := by
  unfold dropExch
  try dsimp only
  repeat' first
    | with_reducible apply Fr.refl
    | with_reducible apply Fr.ite
    | with_reducible apply Fr.step (bump_fr _ _) ?_
    | with_reducible apply Fr.step (endExch_fr _ _ _ _) ?_
    | split
    | dsimp only

theorem timeDelayRespReceive_fr (q : Nat) (b : BitVec 104) (s : State) : Fr 93381 s (timeDelayRespReceive q b s) := by
  unfold timeDelayRespReceive
  try dsimp only
  repeat' first
    | with_reducible apply Fr.refl
    | with_reducible apply Fr.ite
    | with_reducible apply Fr.step (osIllegal_fr _ _) ?_
    | with_reducible apply Fr.step (dropExch_fr _ _ _ _) ?_
    | with_reducible apply Fr.step (noteDelay_fr _ _ _ _) ?_
    | with_reducible apply Fr.step (endExch_fr _ _ _ _) ?_
    | with_reducible apply Fr.step (reselect_fr _ _) ?_
    | with_reducible apply Fr.step (measureOffset_fr _ _ _) ?_
    | with_reducible apply Fr.step (noteOffset_fr _ _ _) ?_
    | with_reducible apply Fr.step (takeOffset_fr _ _ _) ?_
    | split
    | dsimp only

theorem timeExchangeTimeout_fr (k : Nat) (s : State) : Fr 204800 s (timeExchangeTimeout k s) := by
  unfold timeExchangeTimeout
  try dsimp only
  repeat' first
    | with_reducible apply Fr.refl
    | with_reducible apply Fr.ite
    | with_reducible apply Fr.forEach _ _ (fun y a => ?_) ?_
    | with_reducible apply Fr.step (awaitOpt_fr _ _ _) ?_
    | with_reducible apply Fr.step (dropExch_fr _ _ _ _) ?_
    | split
    | dsimp only

theorem timeMasterLost_fr (k : Nat) (s : State) : Fr 221188 s (timeMasterLost k s) := by
  unfold timeMasterLost
  try dsimp only
  repeat' first
    | with_reducible apply Fr.refl
    | with_reducible apply Fr.ite
    | with_reducible apply Fr.step (enterHoldover_fr _ _ _) ?_
    | with_reducible apply Fr.step (await_fr _ _ _) ?_
    | split
    | dsimp only

theorem timeSwitch_fr (f : Func) (s : State) : Fr 90116 s (timeSwitch f s) := by
  unfold timeSwitch
  try dsimp only
  repeat' first
    | with_reducible apply Fr.refl
    | with_reducible apply Fr.ite
    | with_reducible apply Fr.step (switchNt_fr _ _ _) ?_
    | split
    | dsimp only

theorem acquire_fr (s : State) (k : Nat) : Fr 8192 s (acquire s k) := by
  unfold acquire
  try dsimp only
  repeat' first
    | with_reducible apply Fr.refl
    | with_reducible apply Fr.ite
    | with_reducible apply Fr.step (reselect_fr _ _) ?_
    | with_reducible apply Fr.step (modDom_fr _ _ _) ?_
    | split
    | dsimp only

theorem timeReacq_fr (f : Func) (ta : Bool) (tb : Bool) (s : State) : Fr 90116 s (timeReacq f ta tb s) := by
  unfold timeReacq
  try dsimp only
  repeat' first
    | with_reducible apply Fr.refl
    | with_reducible apply Fr.ite
    | with_reducible apply Fr.forEach _ _ (fun y a => ?_) ?_
    | with_reducible apply Fr.step (unacquire_fr _ _) ?_
    | with_reducible apply Fr.step (acquire_fr _ _) ?_
    | split
    | dsimp only

theorem domCfgWrite_fr (f : Func) (k : Nat) (v : Word) (s : State) : Fr 90118 s (domCfgWrite f k v s) := by
  unfold domCfgWrite
  try dsimp only
  repeat' first
    | with_reducible apply Fr.refl
    | with_reducible apply Fr.ite
    | with_reducible apply Fr.step (writeReg_fr _ _ _) ?_
    | with_reducible apply Fr.step (unacquire_fr _ _) ?_
    | with_reducible apply Fr.step (acquire_fr _ _) ?_
    | with_reducible apply Fr.step (reselect_fr _ _) ?_
    | with_reducible apply Fr.step (modDom_fr _ _ _) ?_
    | split
    | dsimp only

theorem timeDomainDisable_fr (f : Func) (k : Nat) (v : Word) (s : State) : Fr 90118 s (timeDomainDisable f k v s) := by
  unfold timeDomainDisable
  try dsimp only
  repeat' first
    | with_reducible apply Fr.refl
    | with_reducible apply Fr.ite
    | with_reducible apply Fr.step (domCfgWrite_fr _ _ _ _) ?_
    | split
    | dsimp only

theorem timeNowRead_fr (f : Func) (s : State) : Fr 8196 s (timeNowRead f s) := by
  unfold timeNowRead
  try dsimp only
  repeat' first
    | with_reducible apply Fr.refl
    | with_reducible apply Fr.ite
    | with_reducible apply Fr.step (emit_fr _ _) ?_
    | (with_reducible apply Fr.put_tim _ ?_; first | with_reducible apply Fr.refl | with_reducible apply Fr.ite | with_reducible apply Fr.step (emit_fr _ _) ?_ | split)
    | split
    | dsimp only

theorem ppsAccept_fr (s : State) (k : Nat) (e : Int) : Fr 90117 s (ppsAccept s k e) := by
  unfold ppsAccept
  try dsimp only
  repeat' first
    | with_reducible apply Fr.refl
    | with_reducible apply Fr.ite
    | with_reducible apply Fr.step (modDom_fr _ _ _) ?_
    | with_reducible apply Fr.step (measureOffset_fr _ _ _) ?_
    | with_reducible apply Fr.step (followOffset_fr _ _ _) ?_
    | split
    | dsimp only

theorem ppsEdge_fr (s : State) : Fr 93383 s (ppsEdge s) := by
  unfold ppsEdge
  try dsimp only
  repeat' first
    | with_reducible apply Fr.refl
    | with_reducible apply Fr.ite
    | with_reducible apply Fr.step (trend_fr _) ?_
    | with_reducible apply Fr.step (setRf_fr _ _ _ _ _) ?_
    | with_reducible apply Fr.step (modDom_fr _ _ _) ?_
    | with_reducible apply Fr.step (stepDom_fr _ _ _ _) ?_
    | with_reducible apply Fr.step (ppsAccept_fr _ _ _) ?_
    | with_reducible apply Fr.step (bump_fr _ _) ?_
    | (split <;> try (rename_i h; have e := congrArg Prod.fst h; dsimp only at e; subst e))
    | dsimp only

theorem ppsNoEdgeTimeout_fr (s : State) : Fr 221188 s (ppsNoEdgeTimeout s) := by
  unfold ppsNoEdgeTimeout
  try dsimp only
  repeat' first
    | with_reducible apply Fr.refl
    | with_reducible apply Fr.ite
    | with_reducible apply Fr.step (awaitOpt_fr _ _ _) ?_
    | with_reducible apply Fr.step (raiseEvent_fr _ _ _ _ _) ?_
    | with_reducible apply Fr.step (settleNt_fr _) ?_
    | with_reducible apply Fr.step (holdDom_fr _ _) ?_
    | split
    | dsimp only

theorem ppsOutRise_fr (s : State) : Fr 139280 s (ppsOutRise s) := by
  unfold ppsOutRise
  try dsimp only
  repeat' first
    | with_reducible apply Fr.refl
    | with_reducible apply Fr.ite
    | with_reducible apply Fr.step (awaitNt_fr _ _) ?_
    | (with_reducible apply Fr.upd ?_; first | with_reducible apply Fr.refl | with_reducible apply Fr.ite | with_reducible apply Fr.step (awaitNt_fr _ _) ?_ | split)
    | split
    | dsimp only

theorem ppsOutFall_fr (s : State) : Fr 139280 s (ppsOutFall s) := by
  unfold ppsOutFall
  try dsimp only
  repeat' first
    | with_reducible apply Fr.refl
    | with_reducible apply Fr.ite
    | with_reducible apply Fr.step (awaitOpt_fr _ _ _) ?_
    | (with_reducible apply Fr.upd ?_; first | with_reducible apply Fr.refl | with_reducible apply Fr.ite | with_reducible apply Fr.step (awaitOpt_fr _ _ _) ?_ | split)
    | split
    | dsimp only

theorem bell_fr (f : Func) (k : RingKind) (page : Nat) (act : Nat → State → State) (s : State) {m n : Nat}
    (hf : ∀ i y, Fr m y (act i y)) (hm : Nat.land m n = m := by decide)
    (hn : Nat.land 262143 n = 262143 := by decide) : Fr n s (bell f k page act s) := by
  unfold bell
  dsimp only
  split
  · exact Fr.refl _ _
  · split
    · exact Fr.mono (n := n) (Fr.step (m := 262143) (n := 262143) (Fr.mono (bump_fr _ _)) (Fr.mono (wake_fr _ _)) (by decide)) hn
    · exact Fr.step (hf _ _) (Fr.mono (n := n) (Fr.mono (n := 262143) (wake_fr _ _)) hn) hm

theorem faultRing_fr (s : State) (k : RingKind) (i : Nat) (cause : Nat) : Fr 81924 s (faultRing s k i cause) := by
  unfold faultRing
  try dsimp only
  repeat' first
    | with_reducible apply Fr.refl
    | with_reducible apply Fr.ite
    | with_reducible apply Fr.step (modRing_fr _ _ _ _) ?_
    | with_reducible apply Fr.step (raiseEvent_fr _ _ _ _ _) ?_
    | split
    | dsimp only

theorem tailWrite_fr (k : RingKind) (v : Word) (i : Nat) (s : State) : Fr 81924 s (tailWrite k v i s) := by
  unfold tailWrite
  try dsimp only
  repeat' first
    | with_reducible apply Fr.refl
    | with_reducible apply Fr.ite
    | with_reducible apply Fr.step (faultRing_fr _ _ _ _) ?_
    | with_reducible apply Fr.step (setRing_fr _ _ _ _) ?_
    | split
    | dsimp only

theorem headWrite_fr (k : RingKind) (v : Word) (i : Nat) (s : State) : Fr 81924 s (headWrite k v i s) := by
  unfold headWrite
  try dsimp only
  repeat' first
    | with_reducible apply Fr.refl
    | with_reducible apply Fr.ite
    | with_reducible apply Fr.forEach _ _ (fun y a => ?_) ?_
    | with_reducible apply Fr.step (setRing_fr _ _ _ _) ?_
    | with_reducible apply Fr.step (unstallProducers_fr _ _) ?_
    | with_reducible apply Fr.step (sweepBad_fr _ _ _) ?_
    | split
    | dsimp only

theorem armRing_fr (k : RingKind) (i : Nat) (s : State) : Fr 81924 s (armRing k i s) := by
  unfold armRing
  try dsimp only
  repeat' first
    | with_reducible apply Fr.refl
    | with_reducible apply Fr.ite
    | with_reducible apply Fr.step (irqCheck_fr _ _ _) ?_
    | with_reducible apply Fr.step (modRing_fr _ _ _ _) ?_
    | split
    | dsimp only

theorem doorbellWrite_fr (f : Func) (page : Nat) (off : Nat) (bytes : Nat) (v : Word) (s : State) : Fr 262143 s (doorbellWrite f page off bytes v s) := by
  unfold doorbellWrite
  try dsimp only
  repeat' first
    | with_reducible apply Fr.refl
    | with_reducible apply Fr.ite
    | with_reducible apply Fr.step (bump_fr _ _) ?_
    | with_reducible apply Fr.step (wake_fr _ _) ?_
    | with_reducible apply bell_fr _ _ _ _ _ (fun i y => ?_) (Nat.and_self _)
    | with_reducible apply Fr.step (tailWrite_fr _ _ _ _) ?_
    | with_reducible apply Fr.step (headWrite_fr _ _ _ _) ?_
    | with_reducible apply Fr.step (armRing_fr _ _ _) ?_
    | split
    | dsimp only

theorem descriptorFetch_fr (k : RingKind) (i : Nat) (answer : Option (List Word)) (s : State) : Fr 81924 s (descriptorFetch k i answer s) := by
  unfold descriptorFetch
  try dsimp only
  repeat' first
    | with_reducible apply Fr.refl
    | with_reducible apply Fr.ite
    | with_reducible apply Fr.step (faultRing_fr _ _ _ _) ?_
    | with_reducible apply Fr.step (emitAll_fr _ _) ?_
    | with_reducible apply Fr.step (setRing_fr _ _ _ _) ?_
    | with_reducible apply Fr.step (bumpN_fr _ _ _) ?_
    | with_reducible apply Fr.step (sweepBad_fr _ _ _) ?_
    | (with_reducible apply Fr.put_hif _ ?_; first | with_reducible apply Fr.refl | with_reducible apply Fr.ite | with_reducible apply Fr.step (faultRing_fr _ _ _ _) ?_ | with_reducible apply Fr.step (emitAll_fr _ _) ?_ | with_reducible apply Fr.step (setRing_fr _ _ _ _) ?_ | with_reducible apply Fr.step (bumpN_fr _ _ _) ?_ | with_reducible apply Fr.step (sweepBad_fr _ _ _) ?_ | split)
    | split
    | dsimp only

theorem coalUsExpiry_fr (k : RingKind) (i : Nat) (s : State) : Fr 212996 s (coalUsExpiry k i s) := by
  unfold coalUsExpiry
  try dsimp only
  repeat' first
    | with_reducible apply Fr.refl
    | with_reducible apply Fr.ite
    | with_reducible apply Fr.step (irqCheck_fr _ _ _) ?_
    | with_reducible apply Fr.step (awaitOpt_fr _ _ _) ?_
    | split
    | dsimp only

theorem startRing_fr (s : State) (k : RingKind) (i : Nat) : Fr 16384 s (startRing s k i) := by
  unfold startRing
  try dsimp only
  repeat' first
    | with_reducible apply Fr.refl
    | with_reducible apply Fr.ite
    | with_reducible apply Fr.step (modRing_fr _ _ _ _) ?_
    | split
    | dsimp only

theorem stopRing_fr (s : State) (k : RingKind) (i : Nat) : Fr 16384 s (stopRing s k i) := by
  unfold stopRing
  try dsimp only
  repeat' first
    | with_reducible apply Fr.refl
    | with_reducible apply Fr.ite
    | with_reducible apply Fr.step (modRing_fr _ _ _ _) ?_
    | split
    | dsimp only

theorem ringCfgWrite_fr (f : Func) (k : RingKind) (i : Nat) (v : Word) (s : State) : Fr 16386 s (ringCfgWrite f k i v s) := by
  unfold ringCfgWrite
  try dsimp only
  repeat' first
    | with_reducible apply Fr.refl
    | with_reducible apply Fr.ite
    | with_reducible apply Fr.step (putR_fr _ _ _) ?_
    | with_reducible apply Fr.step (startRing_fr _ _ _) ?_
    | with_reducible apply Fr.step (stopRing_fr _ _ _) ?_
    | split
    | dsimp only

theorem ringEnable_fr (f : Func) (k : RingKind) (i : Nat) (v : Word) (s : State) : Fr 16386 s (ringEnable f k i v s) := by
  unfold ringEnable
  try dsimp only
  repeat' first
    | with_reducible apply Fr.refl
    | with_reducible apply Fr.ite
    | with_reducible apply Fr.step (ringCfgWrite_fr _ _ _ _ _) ?_
    | split
    | dsimp only

theorem ringDisable_fr (f : Func) (k : RingKind) (i : Nat) (v : Word) (s : State) : Fr 16386 s (ringDisable f k i v s) := by
  unfold ringDisable
  try dsimp only
  repeat' first
    | with_reducible apply Fr.refl
    | with_reducible apply Fr.ite
    | with_reducible apply Fr.step (ringCfgWrite_fr _ _ _ _ _) ?_
    | split
    | dsimp only

theorem ringDrained_fr (k : RingKind) (i : Nat) (s : State) : Fr 81924 s (ringDrained k i s) := by
  unfold ringDrained
  try dsimp only
  repeat' first
    | with_reducible apply Fr.refl
    | with_reducible apply Fr.ite
    | with_reducible apply Fr.step (sweepBad_fr _ _ _) ?_
    | with_reducible apply Fr.step (modRing_fr _ _ _ _) ?_
    | split
    | dsimp only

theorem ringBaseWrite_fr (f : Func) (k : RingKind) (i : Nat) (v : Word) (s : State) : Fr 2 s (ringBaseWrite f k i v s) := by
  unfold ringBaseWrite
  try dsimp only
  repeat' first
    | with_reducible apply Fr.refl
    | with_reducible apply Fr.ite
    | with_reducible apply Fr.step (writeReg_fr _ _ _) ?_
    | split
    | dsimp only

theorem ringAssignWrite_fr (f : Func) (p : Nat) (v : Word) (s : State) : Fr 2 s (ringAssignWrite f p v s) := by
  unfold ringAssignWrite
  try dsimp only
  repeat' first
    | with_reducible apply Fr.refl
    | with_reducible apply Fr.ite
    | with_reducible apply Fr.step (writeReg_fr _ _ _) ?_
    | split
    | dsimp only

theorem dropLaunches_fr (s : State) (i : Nat) : Fr 1024 s (dropLaunches s i) := by
  unfold dropLaunches
  try dsimp only
  repeat' first
    | with_reducible apply Fr.refl
    | with_reducible apply Fr.ite
    | with_reducible apply Fr.forEach _ _ (fun y a => ?_) ?_
    | with_reducible apply Fr.step (setLaunch_fr _ _ _) ?_
    | split
    | dsimp only

theorem muteRing_fr (s : State) (k : RingKind) (i : Nat) : Fr 17410 s (muteRing s k i) := by
  unfold muteRing
  try dsimp only
  repeat' first
    | with_reducible apply Fr.refl
    | with_reducible apply Fr.ite
    | with_reducible apply Fr.step (putR_fr _ _ _) ?_
    | with_reducible apply Fr.step (modRing_fr _ _ _ _) ?_
    | with_reducible apply Fr.step (dropLaunches_fr _ _) ?_
    | (with_reducible apply Fr.put_hif _ ?_; first | with_reducible apply Fr.refl | with_reducible apply Fr.ite | with_reducible apply Fr.step (putR_fr _ _ _) ?_ | with_reducible apply Fr.step (modRing_fr _ _ _ _) ?_ | with_reducible apply Fr.step (dropLaunches_fr _ _) ?_ | split)
    | split
    | dsimp only

theorem muteRings_fr (s : State) (p : Func → Bool) : Fr 17410 s (muteRings s p) := by
  unfold muteRings
  try dsimp only
  repeat' first
    | with_reducible apply Fr.refl
    | with_reducible apply Fr.ite
    | with_reducible apply Fr.forEach _ _ (fun y a => ?_) ?_
    | with_reducible apply Fr.step (muteRing_fr _ _ _) ?_
    | split
    | dsimp only

theorem vfFlr_fr (n : Nat) (s : State) : Fr 17410 s (vfFlr n s) := by
  unfold vfFlr
  try dsimp only
  repeat' first
    | with_reducible apply Fr.refl
    | with_reducible apply Fr.ite
    | with_reducible apply Fr.step (muteRings_fr _ _) ?_
    | split
    | dsimp only

theorem vfEnable_fr (n : Nat) (s : State) : Fr 17410 s (vfEnable n s) := by
  unfold vfEnable
  try dsimp only
  repeat' first
    | with_reducible apply Fr.refl
    | with_reducible apply Fr.ite
    | with_reducible apply Fr.step (muteRing_fr _ _ _) ?_
    | (with_reducible apply Fr.put_hif _ ?_; first | with_reducible apply Fr.refl | with_reducible apply Fr.ite | with_reducible apply Fr.step (muteRing_fr _ _ _) ?_ | split)
    | split
    | dsimp only

theorem vfDisable_fr (n : Nat) (s : State) : Fr 17410 s (vfDisable n s) := by
  unfold vfDisable
  try dsimp only
  repeat' first
    | with_reducible apply Fr.refl
    | with_reducible apply Fr.ite
    | with_reducible apply Fr.step (vfFlr_fr _ _) ?_
    | (with_reducible apply Fr.put_hif _ ?_; first | with_reducible apply Fr.refl | with_reducible apply Fr.ite | with_reducible apply Fr.step (vfFlr_fr _ _) ?_ | split)
    | split
    | dsimp only

theorem hostReset_fr (s : State) : Fr 17410 s (hostReset s) := by
  unfold hostReset
  try dsimp only
  repeat' first
    | with_reducible apply Fr.refl
    | with_reducible apply Fr.ite
    | with_reducible apply Fr.step (muteRings_fr _ _) ?_
    | with_reducible apply Fr.step (advanceEpoch_fr _) ?_
    | (with_reducible apply Fr.put_hif _ ?_; first | with_reducible apply Fr.refl | with_reducible apply Fr.ite | with_reducible apply Fr.step (muteRings_fr _ _) ?_ | with_reducible apply Fr.step (advanceEpoch_fr _) ?_ | split)
    | split
    | dsimp only

theorem hostifReset_fr (s : State) : Fr 17410 s (hostifReset s) := by
  unfold hostifReset
  try dsimp only
  repeat' first
    | with_reducible apply Fr.refl
    | with_reducible apply Fr.ite
    | with_reducible apply Fr.forEach _ _ (fun y a => ?_) ?_
    | with_reducible apply Fr.step (hostReset_fr _) ?_
    | with_reducible apply Fr.step (putR_fr _ _ _) ?_
    | (with_reducible apply Fr.put_hif _ ?_; first | with_reducible apply Fr.refl | with_reducible apply Fr.ite | with_reducible apply Fr.forEach _ _ (fun y a => ?_) ?_ | with_reducible apply Fr.step (hostReset_fr _) ?_ | with_reducible apply Fr.step (putR_fr _ _ _) ?_ | split)
    | split
    | dsimp only

theorem pcieLinkDown_fr (s : State) : Fr 17410 s (pcieLinkDown s) := by
  unfold pcieLinkDown
  try dsimp only
  repeat' first
    | with_reducible apply Fr.refl
    | with_reducible apply Fr.ite
    | with_reducible apply Fr.step (hostReset_fr _) ?_
    | split
    | dsimp only

theorem launchFrame_fr (s : State) (i : Nat) (key : Nat) (d : List Word) (payload : List Byte) : Fr 83141 s (launchFrame s i key d payload) := by
  unfold launchFrame
  try dsimp only
  repeat' first
    | with_reducible apply Fr.refl
    | with_reducible apply Fr.ite
    | with_reducible apply Fr.step (enterRiser_fr _ _ _) ?_
    | with_reducible apply Fr.step (bump_fr _ _) ?_
    | with_reducible apply Fr.step (setLaunch_fr _ _ _) ?_
    | split
    | dsimp only

theorem opSendFrame_fr (i : Nat) (s : State) (x1 : List Word) (x2 : Nat) (x3 : Option HostAccess) : FrO 83141 s (opSendFrame i s x1 x2 x3) := by
  unfold opSendFrame
  try dsimp only
  repeat' first
    | with_reducible apply Fr.refl
    | with_reducible apply FrO.none
    | with_reducible apply FrO.some
    | with_reducible apply FrO.ite
    | with_reducible apply Fr.ite
    | with_reducible apply Fr.step (complete_fr _ _ _ _ _ _ _) ?_
    | with_reducible apply Fr.step (launchFrame_fr _ _ _ _ _) ?_
    | split
    | dsimp only

theorem sendFrame_fr (i : Nat) (s : State) : Fr 83141 s (sendFrame i s) :=
  runHead_fr _ _ _ _ _ (opSendFrame_fr i)

theorem opTelemetryBuf_fr (i : Nat) (s : State) (x1 : List Word) (x2 : Nat) (x3 : Option HostAccess) : FrO 81924 s (opTelemetryBuf i s x1 x2 x3) := by
  unfold opTelemetryBuf
  try dsimp only
  repeat' first
    | with_reducible apply Fr.refl
    | with_reducible apply FrO.none
    | with_reducible apply FrO.some
    | with_reducible apply FrO.ite
    | with_reducible apply Fr.ite
    | with_reducible apply Fr.step (complete_fr _ _ _ _ _ _ _) ?_
    | (with_reducible apply Fr.put_hif _ ?_; first | with_reducible apply Fr.refl | with_reducible apply FrO.none | with_reducible apply FrO.some | with_reducible apply FrO.ite | with_reducible apply Fr.ite | with_reducible apply Fr.step (complete_fr _ _ _ _ _ _ _) ?_ | split)
    | split
    | dsimp only

theorem telemetryBuf_fr (i : Nat) (s : State) : Fr 81924 s (telemetryBuf i s) :=
  runHead_fr _ _ _ _ _ (opTelemetryBuf_fr i)

theorem telemetryBufTimeout_fr (d : Nat) (s : State) : Fr 212996 s (telemetryBufTimeout d s) := by
  unfold telemetryBufTimeout
  try dsimp only
  repeat' first
    | with_reducible apply Fr.refl
    | with_reducible apply Fr.ite
    | with_reducible apply Fr.step (completeTelem_fr _ _) ?_
    | with_reducible apply Fr.step (awaitOpt_fr _ _ _) ?_
    | split
    | dsimp only

theorem opMemWrite_fr (i : Nat) (s : State) (x1 : List Word) (x2 : Nat) (x3 : Option HostAccess) : FrO 86020 s (opMemWrite i s x1 x2 x3) := by
  unfold opMemWrite
  try dsimp only
  repeat' first
    | with_reducible apply Fr.refl
    | with_reducible apply FrO.none
    | with_reducible apply FrO.some
    | with_reducible apply FrO.ite
    | with_reducible apply Fr.ite
    | with_reducible apply Fr.step (complete_fr _ _ _ _ _ _ _) ?_
    | with_reducible apply Fr.step (writeLines_fr _ _ _ _ _) ?_
    | split
    | dsimp only

theorem memWrite_fr (i : Nat) (s : State) : Fr 86020 s (memWrite i s) :=
  runHead_fr _ _ _ _ _ (opMemWrite_fr i)

theorem opMemRead_fr (i : Nat) (s : State) (x1 : List Word) (x2 : Nat) (x3 : Option HostAccess) : FrO 86020 s (opMemRead i s x1 x2 x3) := by
  unfold opMemRead
  try dsimp only
  repeat' first
    | with_reducible apply Fr.refl
    | with_reducible apply FrO.none
    | with_reducible apply FrO.some
    | with_reducible apply FrO.ite
    | with_reducible apply Fr.ite
    | with_reducible apply Fr.step (complete_fr _ _ _ _ _ _ _) ?_
    | with_reducible apply Fr.step (doneReads_fr _ _ _ _) ?_
    | with_reducible apply Fr.step (hostOut_fr _ _ _ _ _ _) ?_
    | (split <;> try (rename_i h; have e := congrArg Prod.fst h; dsimp only at e; subst e))
    | dsimp only

theorem memRead_fr (i : Nat) (s : State) : Fr 86020 s (memRead i s) :=
  runHead_fr _ _ _ _ _ (opMemRead_fr i)

theorem cruBytes_fr (s : State) (off : Nat) (n : Nat) : Fr 1 s (cruBytes s off n).1 := by
  unfold cruBytes
  try dsimp only
  repeat' first
    | with_reducible apply Fr.refl
    | with_reducible apply Fr.ite
    | with_reducible apply Fr.ite1
    | with_reducible apply Fr.step (takeFree_fr _) ?_
    | (split <;> try (rename_i h; have e := congrArg Prod.fst h; dsimp only at e; subst e))
    | dsimp only

theorem opDebugRead_fr (i : Nat) (badWords : List Nat) (s : State) (x1 : List Word) (x2 : Nat) (x3 : Option HostAccess) : FrO 81925 s (opDebugRead i badWords s x1 x2 x3) := by
  unfold opDebugRead
  try dsimp only
  repeat' first
    | with_reducible apply Fr.refl
    | with_reducible apply FrO.none
    | with_reducible apply FrO.some
    | with_reducible apply FrO.ite
    | with_reducible apply Fr.ite
    | with_reducible apply Fr.step (complete_fr _ _ _ _ _ _ _) ?_
    | with_reducible apply Fr.step (cruBytes_fr _ _ _) ?_
    | with_reducible apply Fr.step (hostOut_fr _ _ _ _ _ _) ?_
    | (split <;> try (rename_i h; have e := congrArg Prod.fst h; dsimp only at e; subst e))
    | dsimp only

theorem debugRead_fr (i : Nat) (badWords : List Nat) (s : State) : Fr 81925 s (debugRead i badWords s) :=
  runHead_fr _ _ _ _ _ (opDebugRead_fr i badWords)

theorem runBuffered_fr (k : RingKind) (i : Nat) (s : State) : Fr 90085 s (runBuffered k i s) := by
  unfold runBuffered
  try dsimp only
  repeat' first
    | with_reducible apply Fr.refl
    | with_reducible apply Fr.ite
    | with_reducible apply Fr.step (tdmaWrite_fr _ _) ?_
    | with_reducible apply Fr.step (tdmaRead_fr _ _) ?_
    | with_reducible apply Fr.step (planLoad_fr _ _) ?_
    | with_reducible apply Fr.step (ctxSetup_fr _ _) ?_
    | with_reducible apply Fr.step (ctxRead_fr _ _) ?_
    | with_reducible apply Fr.step (ctxStats_fr _ _) ?_
    | with_reducible apply Fr.step (sendFrame_fr _ _) ?_
    | with_reducible apply Fr.step (memWrite_fr _ _) ?_
    | with_reducible apply Fr.step (memRead_fr _ _) ?_
    | with_reducible apply Fr.step (debugRead_fr _ _ _) ?_
    | split
    | dsimp only

theorem hostBufferAccess_fr (k : RingKind) (i : Nat) (a : HostAccess) (s : State) : Fr 90085 s (hostBufferAccess k i a s) := by
  unfold hostBufferAccess
  try dsimp only
  repeat' first
    | with_reducible apply Fr.refl
    | with_reducible apply Fr.ite
    | with_reducible apply Fr.step (emitAll_fr _ _) ?_
    | with_reducible apply Fr.step (modRing_fr _ _ _ _) ?_
    | with_reducible apply Fr.step (runBuffered_fr _ _ _) ?_
    | split
    | dsimp only

end Sys2Proof.Machine
end

