-- ==== Sys2Proof/Laws/FrPower.lean ====
section
/-! SUPPORT. What each operation of thermal, power, start-up, mailbox and registers can do, by Laws/Frame.lean. -/
/- Proofs of this file are elaborated one after another: side by side, their waiting threads' stacks
together pass the memory limit of the check. -/
set_option Elab.async false
namespace Sys2Proof.Machine

theorem counterRead_fr (f : Func) (i : Nat) (s : State) : Fr 65540 s (counterRead f i s) := by
  unfold counterRead
  try dsimp only
  repeat' first
    | with_reducible apply Fr.refl
    | with_reducible apply Fr.ite
    | with_reducible apply Fr.step (emit_fr _ _) ?_
    | (with_reducible apply Fr.put_cnt _ ?_; first | with_reducible apply Fr.refl | with_reducible apply Fr.ite | with_reducible apply Fr.step (emit_fr _ _) ?_ | split)
    | split
    | dsimp only

theorem sampleDataRead_fr (f : Func) (d : Nat) (s : State) : Fr 65540 s (sampleDataRead f d s) := by
  unfold sampleDataRead
  try dsimp only
  repeat' first
    | with_reducible apply Fr.refl
    | with_reducible apply Fr.ite
    | with_reducible apply Fr.step (setSmp_fr _ _ _) ?_
    | with_reducible apply Fr.step (emit_fr _ _) ?_
    | split
    | dsimp only

theorem setTherm_fr (s : State) (set : SensorSet) (u : Nat) (t : Therm) : Fr 32768 s (setTherm s set u t) := by
  unfold setTherm
  try dsimp only
  repeat' first
    | with_reducible apply Fr.refl
    | with_reducible apply Fr.ite
    | (with_reducible apply Fr.put_hlt _ ?_; first | with_reducible apply Fr.refl | with_reducible apply Fr.ite | split)
    | split
    | dsimp only

theorem refreshLimits_fr (s : State) : Fr 32768 s (refreshLimits s) := by
  unfold refreshLimits
  try dsimp only
  repeat' first
    | with_reducible apply Fr.refl
    | with_reducible apply Fr.ite
    | (with_reducible apply Fr.put_hlt _ ?_; first | with_reducible apply Fr.refl | with_reducible apply Fr.ite | split)
    | split
    | dsimp only

theorem noteAlert_fr (s : State) : Fr 32772 s (noteAlert s) := by
  unfold noteAlert
  try dsimp only
  repeat' first
    | with_reducible apply Fr.refl
    | with_reducible apply Fr.ite
    | with_reducible apply Fr.step (emit_fr _ _) ?_
    | (with_reducible apply Fr.put_hlt _ ?_; first | with_reducible apply Fr.refl | with_reducible apply Fr.ite | with_reducible apply Fr.step (emit_fr _ _) ?_ | split)
    | split
    | dsimp only

theorem thermalTrip_fr (s : State) (set : SensorSet) (u : Nat) (x : Int) : Fr 262143 s (thermalTrip s set u x) := by
  unfold thermalTrip
  try dsimp only
  repeat' first
    | with_reducible apply Fr.refl
    | with_reducible apply Fr.ite
    | with_reducible apply Fr.step (enterStandby_fr _) ?_
    | (with_reducible apply Fr.upd ?_; first | with_reducible apply Fr.refl | with_reducible apply Fr.ite | with_reducible apply Fr.step (enterStandby_fr _) ?_ | split)
    | split
    | dsimp only

theorem judgeSet_fr (s : State) (set : SensorSet) (u : Nat) (x : Int) : Fr 114692 s (judgeSet s set u x) := by
  unfold judgeSet
  try dsimp only
  repeat' first
    | with_reducible apply Fr.refl
    | with_reducible apply Fr.ite
    | with_reducible apply Fr.step (setTherm_fr _ _ _ _) ?_
    | with_reducible apply Fr.step (raiseEvent_fr _ _ _ _ _) ?_
    | split
    | dsimp only

theorem judgeHot_fr (s : State) (k : Nat) (x : Int) : Fr 86020 s (judgeHot s k x) := by
  unfold judgeHot
  try dsimp only
  repeat' first
    | with_reducible apply Fr.refl
    | with_reducible apply Fr.ite
    | with_reducible apply Fr.step (modStk_fr _ _ _) ?_
    | with_reducible apply Fr.step (raiseEvent_fr _ _ _ _ _) ?_
    | split
    | dsimp only

theorem latchDie_fr (s : State) (d : Nat) (bad : List Bool) (x : Int) : Fr 114692 s (latchDie s d bad x) := by
  unfold latchDie
  try dsimp only
  repeat' first
    | with_reducible apply Fr.refl
    | with_reducible apply Fr.ite
    | with_reducible apply Fr.step (setTherm_fr _ _ _ _) ?_
    | with_reducible apply Fr.step (raiseEvent_fr _ _ _ _ _) ?_
    | split
    | dsimp only

theorem takeReadings_fr (s : State) (set : SensorSet) (u : Nat) (r : List (BitVec 16)) (bad : List Bool) : Fr 114692 s (takeReadings s set u r bad) := by
  unfold takeReadings
  try dsimp only
  repeat' first
    | with_reducible apply Fr.refl
    | with_reducible apply Fr.ite
    | with_reducible apply Fr.forEach _ _ (fun y a => ?_) ?_
    | with_reducible apply Fr.step (raiseEvent_fr _ _ _ _ _) ?_
    | with_reducible apply Fr.step (setTherm_fr _ _ _ _) ?_
    | split
    | dsimp only

theorem judgeTop_fr (s : State) (set : SensorSet) (u : Nat) (bad : List Bool) (x : Int) : Fr 118788 s (judgeTop s set u bad x) := by
  unfold judgeTop
  try dsimp only
  repeat' first
    | with_reducible apply Fr.refl
    | with_reducible apply Fr.ite
    | with_reducible apply Fr.step (judgeSet_fr _ _ _ _) ?_
    | with_reducible apply Fr.step (latchDie_fr _ _ _ _) ?_
    | with_reducible apply Fr.step (judgeHot_fr _ _ _) ?_
    | split
    | dsimp only

theorem judgeSample_fr (s : State) (set : SensorSet) (u : Nat) (bad : List Bool) (top : Option Int) : Fr 262143 s (judgeSample s set u bad top) := by
  unfold judgeSample
  try dsimp only
  repeat' first
    | with_reducible apply Fr.refl
    | with_reducible apply Fr.ite
    | with_reducible apply Fr.step (latchDie_fr _ _ _ _) ?_
    | with_reducible apply Fr.step (judgeTop_fr _ _ _ _ _) ?_
    | with_reducible apply Fr.step (thermalTrip_fr _ _ _ _) ?_
    | split
    | dsimp only

theorem thermalSample_fr (set : SensorSet) (u : Nat) (readings : List (BitVec 16)) (s : State) : Fr 262143 s (thermalSample set u readings s) := by
  unfold thermalSample
  try dsimp only
  repeat' first
    | with_reducible apply Fr.refl
    | with_reducible apply Fr.ite
    | with_reducible apply Fr.step (judgeSample_fr _ _ _ _ _) ?_
    | with_reducible apply Fr.step (takeReadings_fr _ _ _ _ _) ?_
    | with_reducible apply Fr.step (noteHealth_fr _) ?_
    | with_reducible apply Fr.step (noteAlert_fr _) ?_
    | with_reducible apply Fr.step (refreshLimits_fr _) ?_
    | split
    | dsimp only

theorem thermalClear_fr (set : SensorSet) (u : Nat) (s : State) : Fr 245764 s (thermalClear set u s) := by
  unfold thermalClear
  try dsimp only
  repeat' first
    | with_reducible apply Fr.refl
    | with_reducible apply Fr.ite
    | with_reducible apply Fr.step (awaitOpt_fr _ _ _) ?_
    | with_reducible apply Fr.step (setTherm_fr _ _ _ _) ?_
    | with_reducible apply Fr.step (raiseEvent_fr _ _ _ _ _) ?_
    | with_reducible apply Fr.step (noteAlert_fr _) ?_
    | with_reducible apply Fr.step (refreshLimits_fr _) ?_
    | split
    | dsimp only

theorem pwrGoodAssert_fr (s : State) : Fr 262143 s (pwrGoodAssert s) := by
  unfold pwrGoodAssert
  try dsimp only
  repeat' first
    | with_reducible apply Fr.refl
    | with_reducible apply Fr.ite
    | with_reducible apply Fr.step (beginStart_fr _) ?_
    | with_reducible apply Fr.step (wake_fr _ _) ?_
    | (with_reducible apply Fr.put_pwr _ ?_; first | with_reducible apply Fr.refl | with_reducible apply Fr.ite | with_reducible apply Fr.step (beginStart_fr _) ?_ | with_reducible apply Fr.step (wake_fr _ _) ?_ | split)
    | split
    | dsimp only

theorem standbyNow_fr (s : State) : Fr 262143 s (standbyNow s) := by
  unfold standbyNow
  try dsimp only
  repeat' first
    | with_reducible apply Fr.refl
    | with_reducible apply Fr.ite
    | with_reducible apply Fr.step (enterStandby_fr _) ?_
    | split
    | dsimp only

theorem pwrGoodDeassert_fr (s : State) : Fr 262143 s (pwrGoodDeassert s) := by
  unfold pwrGoodDeassert
  try dsimp only
  repeat' first
    | with_reducible apply Fr.refl
    | with_reducible apply Fr.ite
    | with_reducible apply Fr.step (standbyNow_fr _) ?_
    | (with_reducible apply Fr.put_pwr _ ?_; first | with_reducible apply Fr.refl | with_reducible apply Fr.ite | with_reducible apply Fr.step (standbyNow_fr _) ?_ | split)
    | split
    | dsimp only

theorem latchTrip_fr (s : State) (cause : Nat) (rail : Nat) (vin : Nat) : Fr 2 s (latchTrip s cause rail vin) := by
  unfold latchTrip
  try dsimp only
  repeat' first
    | with_reducible apply Fr.refl
    | with_reducible apply Fr.ite
    | with_reducible apply Fr.step (putR_fr _ _ _) ?_
    | split
    | dsimp only

theorem powerTrip_fr (s : State) (cause : Nat) (rail : Nat) (vin : Nat) : Fr 262143 s (powerTrip s cause rail vin) := by
  unfold powerTrip
  try dsimp only
  repeat' first
    | with_reducible apply Fr.refl
    | with_reducible apply Fr.ite
    | with_reducible apply Fr.step (latchTrip_fr _ _ _ _) ?_
    | with_reducible apply Fr.step (standbyNow_fr _) ?_
    | (with_reducible apply Fr.put_pwr _ ?_; first | with_reducible apply Fr.refl | with_reducible apply Fr.ite | with_reducible apply Fr.step (latchTrip_fr _ _ _ _) ?_ | with_reducible apply Fr.step (standbyNow_fr _) ?_ | split)
    | split
    | dsimp only

theorem vinTrip_fr (vin : Nat) (s : State) : Fr 262143 s (vinTrip vin s) := by
  unfold vinTrip
  try dsimp only
  repeat' first
    | with_reducible apply Fr.refl
    | with_reducible apply Fr.ite
    | with_reducible apply Fr.step (powerTrip_fr _ _ _ _) ?_
    | split
    | dsimp only

theorem ilimTrip_fr (vin : Nat) (s : State) : Fr 262143 s (ilimTrip vin s) := by
  unfold ilimTrip
  try dsimp only
  repeat' first
    | with_reducible apply Fr.refl
    | with_reducible apply Fr.ite
    | with_reducible apply Fr.step (powerTrip_fr _ _ _ _) ?_
    | split
    | dsimp only

theorem overcurrentTrip_fr (vin : Nat) (s : State) : Fr 262143 s (overcurrentTrip vin s) := by
  unfold overcurrentTrip
  try dsimp only
  repeat' first
    | with_reducible apply Fr.refl
    | with_reducible apply Fr.ite
    | with_reducible apply Fr.step (powerTrip_fr _ _ _ _) ?_
    | split
    | dsimp only

theorem railFault_fr (rail : Nat) (vin : Nat) (s : State) : Fr 262143 s (railFault rail vin s) := by
  unfold railFault
  try dsimp only
  repeat' first
    | with_reducible apply Fr.refl
    | with_reducible apply Fr.ite
    | with_reducible apply Fr.step (powerTrip_fr _ _ _ _) ?_
    | split
    | dsimp only

theorem vinStable_fr (s : State) : Fr 131088 s (vinStable s) := by
  unfold vinStable
  try dsimp only
  repeat' first
    | with_reducible apply Fr.refl
    | with_reducible apply Fr.ite
    | with_reducible apply Fr.step (awaitOpt_fr _ _ _) ?_
    | (with_reducible apply Fr.put_pwr _ ?_; first | with_reducible apply Fr.refl | with_reducible apply Fr.ite | with_reducible apply Fr.step (awaitOpt_fr _ _ _) ?_ | split)
    | split
    | dsimp only

theorem powerCapSample_fr (vin : Nat) (iin : Nat) (pin : Nat) (energy : Nat) (s : State) : Fr 32784 s (powerCapSample vin iin pin energy s) := by
  unfold powerCapSample
  try dsimp only
  repeat' first
    | with_reducible apply Fr.refl
    | with_reducible apply Fr.ite
    | with_reducible apply Fr.step (refreshLimits_fr _) ?_
    | (with_reducible apply Fr.put_pwr _ ?_; first | with_reducible apply Fr.refl | with_reducible apply Fr.ite | with_reducible apply Fr.step (refreshLimits_fr _) ?_ | split)
    | split
    | dsimp only

theorem cappingClear_fr (s : State) : Fr 163856 s (cappingClear s) := by
  unfold cappingClear
  try dsimp only
  repeat' first
    | with_reducible apply Fr.refl
    | with_reducible apply Fr.ite
    | with_reducible apply Fr.step (awaitOpt_fr _ _ _) ?_
    | with_reducible apply Fr.step (refreshLimits_fr _) ?_
    | (with_reducible apply Fr.put_pwr _ ?_; first | with_reducible apply Fr.refl | with_reducible apply Fr.ite | with_reducible apply Fr.step (awaitOpt_fr _ _ _) ?_ | with_reducible apply Fr.step (refreshLimits_fr _) ?_ | split)
    | split
    | dsimp only

theorem reqResult_fr (s : State) (r : Nat) : Fr 16 s (reqResult s r) := by
  unfold reqResult
  try dsimp only
  repeat' first
    | with_reducible apply Fr.refl
    | with_reducible apply Fr.ite
    | (with_reducible apply Fr.put_pwr _ ?_; first | with_reducible apply Fr.refl | with_reducible apply Fr.ite | split)
    | split
    | dsimp only

theorem linkctlAll_fr (s : State) (op : Nat) : Fr 68 s (linkctlAll s op) := by
  unfold linkctlAll
  try dsimp only
  repeat' first
    | with_reducible apply Fr.refl
    | with_reducible apply Fr.ite
    | with_reducible apply Fr.forEach _ _ (fun y a => ?_) ?_
    | with_reducible apply Fr.step (sendLinkctl_fr _ _ _) ?_
    | split
    | dsimp only

theorem lowerPower_fr (t : Nat) (s : State) : Fr 86100 s (lowerPower t s) := by
  unfold lowerPower
  try dsimp only
  repeat' first
    | with_reducible apply Fr.refl
    | with_reducible apply Fr.ite
    | with_reducible apply Fr.step (reqResult_fr _ _) ?_
    | with_reducible apply Fr.step (linkctlAll_fr _ _) ?_
    | with_reducible apply Fr.step (abortCopies_fr _) ?_
    | (with_reducible apply Fr.put_pwr _ ?_; first | with_reducible apply Fr.refl | with_reducible apply Fr.ite | with_reducible apply Fr.step (reqResult_fr _ _) ?_ | with_reducible apply Fr.step (linkctlAll_fr _ _) ?_ | with_reducible apply Fr.step (abortCopies_fr _) ?_ | split)
    | split
    | dsimp only

theorem pwrReq_fr (t : Nat) (f : Func) (s : State) : Fr 86100 s (pwrReq t f s) := by
  unfold pwrReq
  try dsimp only
  repeat' first
    | with_reducible apply Fr.refl
    | with_reducible apply Fr.ite
    | with_reducible apply Fr.step (lowerPower_fr _ _) ?_
    | split
    | dsimp only

theorem pwrReqActive_fr (f : Func) (s : State) : Fr 262143 s (pwrReqActive f s) := by
  unfold pwrReqActive
  try dsimp only
  repeat' first
    | with_reducible apply Fr.refl
    | with_reducible apply Fr.ite
    | with_reducible apply Fr.step (wake_fr _ _) ?_
    | with_reducible apply Fr.step (reqResult_fr _ _) ?_
    | (with_reducible apply Fr.put_pwr _ ?_; first | with_reducible apply Fr.refl | with_reducible apply Fr.ite | with_reducible apply Fr.step (wake_fr _ _) ?_ | with_reducible apply Fr.step (reqResult_fr _ _) ?_ | split)
    | split
    | dsimp only

theorem pwrReqParked_fr (f : Func) (s : State) : Fr 86100 s (pwrReqParked f s) := by
  unfold pwrReqParked
  try dsimp only
  repeat' first
    | with_reducible apply Fr.refl
    | with_reducible apply Fr.ite
    | with_reducible apply Fr.step (pwrReq_fr _ _ _) ?_
    | split
    | dsimp only

theorem pwrReqRetain_fr (f : Func) (s : State) : Fr 86100 s (pwrReqRetain f s) := by
  unfold pwrReqRetain
  try dsimp only
  repeat' first
    | with_reducible apply Fr.refl
    | with_reducible apply Fr.ite
    | with_reducible apply Fr.step (pwrReq_fr _ _ _) ?_
    | split
    | dsimp only

theorem pwrReqStandby_fr (f : Func) (s : State) : Fr 86100 s (pwrReqStandby f s) := by
  unfold pwrReqStandby
  try dsimp only
  repeat' first
    | with_reducible apply Fr.refl
    | with_reducible apply Fr.ite
    | with_reducible apply Fr.step (pwrReq_fr _ _ _) ?_
    | split
    | dsimp only

theorem i3cWake_fr (s : State) : Fr 262143 s (i3cWake s) := by
  unfold i3cWake
  try dsimp only
  repeat' first
    | with_reducible apply Fr.refl
    | with_reducible apply Fr.ite
    | with_reducible apply Fr.step (wake_fr _ _) ?_
    | split
    | dsimp only

theorem i3cStandby_fr (s : State) : Fr 86100 s (i3cStandby s) := by
  unfold i3cStandby
  try dsimp only
  repeat' first
    | with_reducible apply Fr.refl
    | with_reducible apply Fr.ite
    | with_reducible apply Fr.step (lowerPower_fr _ _) ?_
    | split
    | dsimp only

theorem parkDrainDone_fr (s : State) : Fr 84 s (parkDrainDone s) := by
  unfold parkDrainDone
  try dsimp only
  repeat' first
    | with_reducible apply Fr.refl
    | with_reducible apply Fr.ite
    | with_reducible apply Fr.step (linkctlAll_fr _ _) ?_
    | (with_reducible apply Fr.upd ?_; first | with_reducible apply Fr.refl | with_reducible apply Fr.ite | with_reducible apply Fr.step (linkctlAll_fr _ _) ?_ | split)
    | split
    | dsimp only

theorem parkDrainLimit_fr (s : State) : Fr 213188 s (parkDrainLimit s) := by
  unfold parkDrainLimit
  try dsimp only
  repeat' first
    | with_reducible apply Fr.refl
    | with_reducible apply Fr.ite
    | with_reducible apply Fr.forEach _ _ (fun y a => ?_) ?_
    | with_reducible apply Fr.step (awaitOpt_fr _ _ _) ?_
    | with_reducible apply Fr.step (slagCount_fr _ _ _) ?_
    | with_reducible apply Fr.step (takeOut_fr _ _) ?_
    | with_reducible apply Fr.step (freeCredit_fr _ _ _ _) ?_
    | (with_reducible apply Fr.put_sw _ ?_; first | with_reducible apply Fr.refl | with_reducible apply Fr.ite | with_reducible apply Fr.forEach _ _ (fun y a => ?_) ?_ | with_reducible apply Fr.step (awaitOpt_fr _ _ _) ?_ | with_reducible apply Fr.step (slagCount_fr _ _ _) ?_ | with_reducible apply Fr.step (takeOut_fr _ _) ?_ | with_reducible apply Fr.step (freeCredit_fr _ _ _ _) ?_ | split)
    | split
    | dsimp only

theorem latchedWake_fr (src : Nat) (s : State) : Fr 262143 s (latchedWake src s) := by
  unfold latchedWake
  try dsimp only
  repeat' first
    | with_reducible apply Fr.refl
    | with_reducible apply Fr.ite
    | with_reducible apply Fr.step (wake_fr _ _) ?_
    | split
    | dsimp only

theorem disableLanes_fr (s : State) : Fr 114885 s (disableLanes s) := by
  unfold disableLanes
  try dsimp only
  repeat' first
    | with_reducible apply Fr.refl
    | with_reducible apply Fr.ite
    | with_reducible apply Fr.forEach _ _ (fun y a => ?_) ?_
    | with_reducible apply Fr.step (refreshLink_fr _ _ _ _) ?_
    | with_reducible apply Fr.step (modLink_fr _ _ _) ?_
    | (with_reducible apply Fr.put_lnk _ ?_; first | with_reducible apply Fr.refl | with_reducible apply Fr.ite | with_reducible apply Fr.forEach _ _ (fun y a => ?_) ?_ | with_reducible apply Fr.step (refreshLink_fr _ _ _ _) ?_ | with_reducible apply Fr.step (modLink_fr _ _ _) ?_ | split)
    | split
    | dsimp only

theorem noteDark_fr (s : State) : Fr 16 s (noteDark s) := by
  unfold noteDark
  try dsimp only
  repeat' first
    | with_reducible apply Fr.refl
    | with_reducible apply Fr.ite
    | (with_reducible apply Fr.put_pwr _ ?_; first | with_reducible apply Fr.refl | with_reducible apply Fr.ite | split)
    | split
    | dsimp only

theorem parkReached_fr (src : Nat) (s : State) : Fr 262143 s (parkReached src s) := by
  unfold parkReached
  try dsimp only
  repeat' first
    | with_reducible apply Fr.refl
    | with_reducible apply Fr.ite
    | with_reducible apply Fr.step (latchedWake_fr _ _) ?_
    | with_reducible apply Fr.step (parkTime_fr _) ?_
    | with_reducible apply Fr.step (abortCopies_fr _) ?_
    | (with_reducible apply Fr.put_pwr _ ?_; first | with_reducible apply Fr.refl | with_reducible apply Fr.ite | with_reducible apply Fr.step (latchedWake_fr _ _) ?_ | with_reducible apply Fr.step (parkTime_fr _) ?_ | with_reducible apply Fr.step (abortCopies_fr _) ?_ | split)
    | split
    | dsimp only

theorem parkDisableDone_fr (s : State) : Fr 262143 s (parkDisableDone s) := by
  unfold parkDisableDone
  try dsimp only
  repeat' first
    | with_reducible apply Fr.refl
    | with_reducible apply Fr.ite
    | with_reducible apply Fr.step (parkReached_fr _ _) ?_
    | with_reducible apply Fr.step (disableLanes_fr _) ?_
    | with_reducible apply Fr.step (noteDark_fr _) ?_
    | with_reducible apply Fr.step (awaitOpt_fr _ _ _) ?_
    | split
    | dsimp only

theorem enterRetain_fr (s : State) : Fr 77552 s (enterRetain s) := by
  unfold enterRetain
  try dsimp only
  repeat' first
    | with_reducible apply Fr.refl
    | with_reducible apply Fr.ite
    | with_reducible apply Fr.step (dropTime_fr _) ?_
    | (with_reducible apply Fr.upd ?_; first | with_reducible apply Fr.refl | with_reducible apply Fr.ite | with_reducible apply Fr.step (dropTime_fr _) ?_ | split)
    | split
    | dsimp only

theorem lowPowerEntryDone_fr (s : State) : Fr 262143 s (lowPowerEntryDone s) := by
  unfold lowPowerEntryDone
  try dsimp only
  repeat' first
    | with_reducible apply Fr.refl
    | with_reducible apply Fr.ite
    | with_reducible apply Fr.step (awaitOpt_fr _ _ _) ?_
    | with_reducible apply Fr.step (latchedWake_fr _ _) ?_
    | with_reducible apply Fr.step (enterRetain_fr _) ?_
    | with_reducible apply Fr.step (enterStandby_fr _) ?_
    | split
    | dsimp only

theorem wakeTimer_fr (s : State) : Fr 262143 s (wakeTimer s) := by
  unfold wakeTimer
  try dsimp only
  repeat' first
    | with_reducible apply Fr.refl
    | with_reducible apply Fr.ite
    | with_reducible apply Fr.step (wake_fr _ _) ?_
    | with_reducible apply Fr.step (awaitNt_fr _ _) ?_
    | split
    | dsimp only

theorem becomeActive_fr (s : State) : Fr 16 s (becomeActive s) := by
  unfold becomeActive
  try dsimp only
  repeat' first
    | with_reducible apply Fr.refl
    | with_reducible apply Fr.ite
    | (with_reducible apply Fr.put_pwr _ ?_; first | with_reducible apply Fr.refl | with_reducible apply Fr.ite | split)
    | split
    | dsimp only

theorem wakeParkedDone_fr (s : State) : Fr 245973 s (wakeParkedDone s) := by
  unfold wakeParkedDone
  try dsimp only
  repeat' first
    | with_reducible apply Fr.refl
    | with_reducible apply Fr.ite
    | with_reducible apply Fr.forEach _ _ (fun y a => ?_) ?_
    | with_reducible apply Fr.step (becomeActive_fr _) ?_
    | with_reducible apply Fr.step (awaitOpt_fr _ _ _) ?_
    | with_reducible apply Fr.step (refreshLink_fr _ _ _ _) ?_
    | with_reducible apply Fr.step (modLane_fr _ _ _) ?_
    | with_reducible apply Fr.step (followModuleFence_fr _) ?_
    | split
    | dsimp only

theorem wakeRetainDone_fr (s : State) : Fr 250077 s (wakeRetainDone s) := by
  unfold wakeRetainDone
  try dsimp only
  repeat' first
    | with_reducible apply Fr.refl
    | with_reducible apply Fr.ite
    | with_reducible apply Fr.step (followModuleFence_fr _) ?_
    | with_reducible apply Fr.step (rotAll_fr _) ?_
    | with_reducible apply Fr.step (becomeActive_fr _) ?_
    | with_reducible apply Fr.step (awaitOpt_fr _ _ _) ?_
    | split
    | dsimp only

theorem pcieL1Exit_fr (s : State) : Fr 262143 s (pcieL1Exit s) := by
  unfold pcieL1Exit
  try dsimp only
  repeat' first
    | with_reducible apply Fr.refl
    | with_reducible apply Fr.ite
    | with_reducible apply Fr.step (wake_fr _ _) ?_
    | split
    | dsimp only

theorem perstAssert_fr (s : State) : Fr 50178 s (perstAssert s) := by
  unfold perstAssert
  try dsimp only
  repeat' first
    | with_reducible apply Fr.refl
    | with_reducible apply Fr.ite
    | with_reducible apply Fr.step (hostifReset_fr _) ?_
    | (with_reducible apply Fr.put_hlt _ ?_; first | with_reducible apply Fr.refl | with_reducible apply Fr.ite | with_reducible apply Fr.step (hostifReset_fr _) ?_ | split)
    | split
    | dsimp only

theorem perstRelease_fr (s : State) : Fr 262143 s (perstRelease s) := by
  unfold perstRelease
  try dsimp only
  repeat' first
    | with_reducible apply Fr.refl
    | with_reducible apply Fr.ite
    | with_reducible apply Fr.step (wake_fr _ _) ?_
    | (with_reducible apply Fr.put_hlt _ ?_; first | with_reducible apply Fr.refl | with_reducible apply Fr.ite | with_reducible apply Fr.step (wake_fr _ _) ?_ | split)
    | split
    | dsimp only

theorem powerOn_fr (bl2 : Bool) (selfHost : Bool) (bootSrc : Nat) (s : State) : Fr 262143 s (powerOn bl2 selfHost bootSrc s) := by
  unfold powerOn
  try dsimp only
  repeat' first
    | with_reducible apply Fr.refl
    | with_reducible apply Fr.ite
    | with_reducible apply Fr.step (powerOnReset_fr _) ?_
    | (with_reducible apply Fr.put_boot _ ?_ (by first | rfl | (split <;> rfl) | (dsimp only; split <;> rfl)); first | with_reducible apply Fr.refl | with_reducible apply Fr.ite | with_reducible apply Fr.step (powerOnReset_fr _) ?_ | split)
    | split
    | dsimp only

theorem alwaysOnStop_fr (s : State) : Fr 262143 s (alwaysOnStop s) := by
  unfold alwaysOnStop
  try dsimp only
  repeat' first
    | with_reducible apply Fr.refl
    | with_reducible apply Fr.ite
    | with_reducible apply Fr.step (powerOnReset_fr _) ?_
    | (with_reducible apply Fr.put_pwr _ ?_; first | with_reducible apply Fr.refl | with_reducible apply Fr.ite | with_reducible apply Fr.step (powerOnReset_fr _) ?_ | split)
    | split
    | dsimp only

theorem aonResetEnd_fr (pwrGood : Bool) (fenceN : Bool) (wakeN : Bool) (perstN : Bool) (s : State) : Fr 163864 s (aonResetEnd pwrGood fenceN wakeN perstN s) := by
  unfold aonResetEnd
  try dsimp only
  repeat' first
    | with_reducible apply Fr.refl
    | with_reducible apply Fr.ite
    | with_reducible apply Fr.step (await_fr _ _ _) ?_
    | with_reducible apply Fr.step (beginStart_fr _) ?_
    | (with_reducible apply Fr.upd ?_; first | with_reducible apply Fr.refl | with_reducible apply Fr.ite | with_reducible apply Fr.step (await_fr _ _ _) ?_ | with_reducible apply Fr.step (beginStart_fr _) ?_ | split)
    | split
    | dsimp only

theorem coldResetReq_fr (f : Func) (v : Word) (s : State) : Fr 262143 s (coldResetReq f v s) := by
  unfold coldResetReq
  try dsimp only
  repeat' first
    | with_reducible apply Fr.refl
    | with_reducible apply Fr.ite
    | with_reducible apply Fr.step (coldReset_fr _) ?_
    | split
    | dsimp only

theorem warmResetReq_fr (f : Func) (v : Word) (s : State) : Fr 262143 s (warmResetReq f v s) := by
  unfold warmResetReq
  try dsimp only
  repeat' first
    | with_reducible apply Fr.refl
    | with_reducible apply Fr.ite
    | with_reducible apply Fr.step (warmReset_fr _ _) ?_
    | split
    | dsimp only

theorem setPll_fr (s : State) (k : Nat) (v : Option Nat) : Fr 8 s (setPll s k v) := by
  unfold setPll
  try dsimp only
  repeat' first
    | with_reducible apply Fr.refl
    | with_reducible apply Fr.ite
    | (with_reducible apply Fr.put_boot _ ?_ (by first | rfl | (split <;> rfl) | (dsimp only; split <;> rfl)); first | with_reducible apply Fr.refl | with_reducible apply Fr.ite | split)
    | split
    | dsimp only

theorem pllLockLost_fr (k : Nat) (s : State) : Fr 8 s (pllLockLost k s) := by
  unfold pllLockLost
  try dsimp only
  repeat' first
    | with_reducible apply Fr.refl
    | with_reducible apply Fr.ite
    | with_reducible apply Fr.step (setPll_fr _ _ _) ?_
    | split
    | dsimp only

theorem pllRelocked_fr (k : Nat) (s : State) : Fr 8 s (pllRelocked k s) := by
  unfold pllRelocked
  try dsimp only
  repeat' first
    | with_reducible apply Fr.refl
    | with_reducible apply Fr.ite
    | with_reducible apply Fr.step (setPll_fr _ _ _) ?_
    | split
    | dsimp only

theorem pllRelockTimeout_fr (k : Nat) (s : State) : Fr 262143 s (pllRelockTimeout k s) := by
  unfold pllRelockTimeout
  try dsimp only
  repeat' first
    | with_reducible apply Fr.refl
    | with_reducible apply Fr.ite
    | with_reducible apply Fr.step (warmReset_fr _ _) ?_
    | with_reducible apply Fr.step (awaitOpt_fr _ _ _) ?_
    | split
    | dsimp only

theorem crossingWait_fr (near : Nat) (far : Nat) (s : State) : Fr 81926 s (crossingWait near far s) := by
  unfold crossingWait
  try dsimp only
  repeat' first
    | with_reducible apply Fr.refl
    | with_reducible apply Fr.ite
    | with_reducible apply Fr.step (raiseEvent_fr _ _ _ _ _) ?_
    | with_reducible apply Fr.step (putR_fr _ _ _) ?_
    | split
    | dsimp only

theorem setStage_fr (s : State) (n : Nat) : Fr 8 s (setStage s n) := by
  unfold setStage
  try dsimp only
  repeat' first
    | with_reducible apply Fr.refl
    | with_reducible apply Fr.ite
    | (with_reducible apply Fr.put_boot _ ?_ (by first | rfl | (split <;> rfl) | (dsimp only; split <;> rfl)); first | with_reducible apply Fr.refl | with_reducible apply Fr.ite | split)
    | split
    | dsimp only

theorem noteJournal_fr (s : State) : Fr 8 s (noteJournal s) := by
  unfold noteJournal
  try dsimp only
  repeat' first
    | with_reducible apply Fr.refl
    | with_reducible apply Fr.ite
    | (with_reducible apply Fr.put_boot _ ?_ (by first | rfl | (split <;> rfl) | (dsimp only; split <;> rfl)); first | with_reducible apply Fr.refl | with_reducible apply Fr.ite | split)
    | split
    | dsimp only

theorem extendMeas_fr (s : State) (i : Nat) (d : BitVec 384) : Fr 8 s (extendMeas s i d) := by
  unfold extendMeas
  try dsimp only
  repeat' first
    | with_reducible apply Fr.refl
    | with_reducible apply Fr.ite
    | (with_reducible apply Fr.put_boot _ ?_ (by first | rfl | (split <;> rfl) | (dsimp only; split <;> rfl)); first | with_reducible apply Fr.refl | with_reducible apply Fr.ite | split)
    | split
    | dsimp only

theorem patternChosen_fr (s : State) (d : BitVec 384) : Fr 8 s (patternChosen s d) := by
  unfold patternChosen
  try dsimp only
  repeat' first
    | with_reducible apply Fr.refl
    | with_reducible apply Fr.ite
    | with_reducible apply Fr.step (setStage_fr _ _) ?_
    | with_reducible apply Fr.step (extendMeas_fr _ _ _) ?_
    | with_reducible apply Fr.step (noteJournal_fr _) ?_
    | split
    | dsimp only

theorem patternCopyRead_fr (copy : Nat) (image : PatternImage) (journal : List (Word × Word)) (s : State) :
    Fr 8 s (patternCopyRead copy image journal s) := by
  unfold patternCopyRead
  refine Fr.ite (Fr.refl _ _) ?_
  refine Fr.ite ?_ (Fr.ite ?_ ?_)
  · refine Fr.step (patternChosen_fr _ _) (Fr.put_boot _ (Fr.refl _ _) ?_)
    dsimp only; split <;> rfl
  · refine Fr.put_boot _ (Fr.refl _ _) ?_
    split <;> rfl
  · refine Fr.step (patternChosen_fr _ _) (Fr.put_boot _ (Fr.refl _ _) ?_)
    dsimp only; split <;> rfl

theorem journalCompacted_fr (s : State) : Fr 8 s (journalCompacted s) := by
  unfold journalCompacted
  try dsimp only
  repeat' first
    | with_reducible apply Fr.refl
    | with_reducible apply Fr.ite
    | (with_reducible apply Fr.put_boot _ ?_ (by first | rfl | (split <;> rfl) | (dsimp only; split <;> rfl)); first | with_reducible apply Fr.refl | with_reducible apply Fr.ite | split)
    | split
    | dsimp only

theorem railUp_fr (rail : Nat) (mv : Nat) (s : State) : Fr 16 s (railUp rail mv s) := by
  unfold railUp
  try dsimp only
  repeat' first
    | with_reducible apply Fr.refl
    | with_reducible apply Fr.ite
    | (with_reducible apply Fr.put_pwr _ ?_; first | with_reducible apply Fr.refl | with_reducible apply Fr.ite | split)
    | split
    | dsimp only

theorem applyOpt_fr (s : State) (e : Word) : Fr 32 s (applyOpt s e) := by
  unfold applyOpt
  try dsimp only
  repeat' first
    | with_reducible apply Fr.refl
    | with_reducible apply Fr.ite
    | with_reducible apply Fr.step (setChan_fr _ _ _ _) ?_
    | split
    | dsimp only

theorem mainRelease_fr (s : State) : Fr 170 s (mainRelease s) := by
  have a : ∀ b : Boot, b.strapBl2 = s.boot.pinBl2 →
      Fr 170 s { s with regs := keepSticky s s.boot.pinBl2, boot := b } := by
    intro b hb
    constructor
    case later => exact le_refl _
    case sound => exact fun h => ⟨by show fileWf s.variant b.strapBl2 _ = true; rw [hb]; exact keepSticky_wf s _, h.2.1, h.2.2⟩
    case regs => exact fun k => absurd k (by decide)
    case boot => exact fun k => absurd k (by decide)
    all_goals first | rfl | (intro _; rfl)
  unfold mainRelease
  refine Fr.ite (Fr.refl _ _) ?_
  refine Fr.forEach _ _ (fun y e => Fr.mono (applyOpt_fr y e)) ?_
  refine Fr.upd ?_
  refine Fr.step (noteJournal_fr _) ?_
  exact a _ rfl

theorem bootFirmware_fr (s : State) (i : FwImage) (copy : Nat) (st : FwState) : Fr 114927 s (bootFirmware s i copy st) := by
  unfold bootFirmware
  try dsimp only
  repeat' first
    | with_reducible apply Fr.refl
    | with_reducible apply Fr.ite
    | with_reducible apply Fr.forEach _ _ (fun y a => ?_) ?_
    | with_reducible apply Fr.step (extendMeas_fr _ _ _) ?_
    | with_reducible apply Fr.step (raiseEvent_fr _ _ _ _ _) ?_
    | with_reducible apply Fr.step (beginBringup_fr _ _) ?_
    | with_reducible apply Fr.step (putR_fr _ _ _) ?_
    | (with_reducible apply Fr.put_boot _ ?_ (by first | rfl | (split <;> rfl) | (dsimp only; split <;> rfl)); first | with_reducible apply Fr.refl | with_reducible apply Fr.ite | with_reducible apply Fr.forEach _ _ (fun y a => ?_) ?_ | with_reducible apply Fr.step (extendMeas_fr _ _ _) ?_ | with_reducible apply Fr.step (raiseEvent_fr _ _ _ _ _) ?_ | with_reducible apply Fr.step (beginBringup_fr _ _) ?_ | with_reducible apply Fr.step (putR_fr _ _ _) ?_ | split)
    | split
    | dsimp only

theorem firmwareRead_fr (s : State) (copy : Nat) (i : FwImage) : Fr 114927 s (firmwareRead s copy i) := by
  unfold firmwareRead
  refine Fr.ite (Fr.refl _ _) ?_
  refine Fr.ite (Fr.mono (bootFirmware_fr _ _ _ _)) ?_
  exact Fr.put_boot _ (Fr.refl _ _)

theorem selfHostRead_fr (s : State) (copy : Nat) (i : FwImage) : Fr 8 s (selfHostRead s copy i) := by
  unfold selfHostRead
  try dsimp only
  repeat' first
    | with_reducible apply Fr.refl
    | with_reducible apply Fr.ite
    | with_reducible apply Fr.step (extendMeas_fr _ _ _) ?_
    | (with_reducible apply Fr.put_boot _ ?_ (by first | rfl | (split <;> rfl) | (dsimp only; split <;> rfl)); first | with_reducible apply Fr.refl | with_reducible apply Fr.ite | with_reducible apply Fr.step (extendMeas_fr _ _ _) ?_ | split)
    | split
    | dsimp only

theorem firmwareAccepted_fr (copy : Nat) (image : FwImage) (s : State) : Fr 114927 s (firmwareAccepted copy image s) := by
  unfold firmwareAccepted
  try dsimp only
  repeat' first
    | with_reducible apply Fr.refl
    | with_reducible apply Fr.ite
    | with_reducible apply Fr.step (selfHostRead_fr _ _ _) ?_
    | with_reducible apply Fr.step (firmwareRead_fr _ _ _) ?_
    | split
    | dsimp only

theorem putFabricPos_fr (s : State) (v : Word) : Fr 114919 s (putFabricPos s v) := by
  unfold putFabricPos
  try dsimp only
  repeat' first
    | with_reducible apply Fr.refl
    | with_reducible apply Fr.ite
    | with_reducible apply Fr.forEach _ _ (fun y a => ?_) ?_
    | with_reducible apply Fr.step (writeReg_fr _ _ _) ?_
    | with_reducible apply Fr.step (positionAdvance_fr _ _) ?_
    | with_reducible apply Fr.step (refreshLink_fr _ _ _ _) ?_
    | (with_reducible apply Fr.upd ?_; first | with_reducible apply Fr.refl | with_reducible apply Fr.ite | with_reducible apply Fr.forEach _ _ (fun y a => ?_) ?_ | with_reducible apply Fr.step (writeReg_fr _ _ _) ?_ | with_reducible apply Fr.step (positionAdvance_fr _ _) ?_ | with_reducible apply Fr.step (refreshLink_fr _ _ _ _) ?_ | split)
    | split
    | dsimp only

theorem putPosition_fr (o : Option Word) (s : State) : Fr 114919 s (putPosition o s) := by
  unfold putPosition
  try dsimp only
  repeat' first
    | with_reducible apply Fr.refl
    | with_reducible apply Fr.ite
    | with_reducible apply Fr.step (putFabricPos_fr _ _) ?_
    | split
    | dsimp only

theorem sramZeroDone_fr (s : State) : Fr 114927 s (sramZeroDone s) := by
  unfold sramZeroDone
  refine Fr.ite (Fr.refl _ _) (Fr.step (putPosition_fr _ _) ?_)
  exact Fr.put_boot _ (Fr.refl _ _)

theorem spareTakes_fr (s : State) (k : Nat) (l : Nat) : Fr 4096 s (spareTakes s k l) := by
  unfold spareTakes
  try dsimp only
  repeat' first
    | with_reducible apply Fr.refl
    | with_reducible apply Fr.ite
    | with_reducible apply Fr.step (setMap_fr _ _ _) ?_
    | with_reducible apply Fr.step (modMemCh_fr _ _ _ _) ?_
    | with_reducible apply Fr.step (modStk_fr _ _ _) ?_
    | split
    | dsimp only

theorem listedChannel_fr (s : State) (e : Word) : Fr 4096 s (listedChannel s e) := by
  unfold listedChannel
  try dsimp only
  repeat' first
    | with_reducible apply Fr.refl
    | with_reducible apply Fr.ite
    | with_reducible apply Fr.step (modStk_fr _ _ _) ?_
    | with_reducible apply Fr.step (modMemCh_fr _ _ _ _) ?_
    | with_reducible apply Fr.step (spareTakes_fr _ _ _) ?_
    | with_reducible apply Fr.step (markRetired_fr _ _ _ _) ?_
    | split
    | dsimp only

theorem startFailure_fr (s : State) (e : Nat × Nat) : Fr 118796 s (startFailure s e) := by
  unfold startFailure
  try dsimp only
  repeat' first
    | with_reducible apply Fr.refl
    | with_reducible apply Fr.ite
    | with_reducible apply Fr.step (noteHealth_fr _) ?_
    | with_reducible apply Fr.step (modStk_fr _ _ _) ?_
    | with_reducible apply Fr.step (failChannel_fr _ _ _) ?_
    | with_reducible apply Fr.step (retireLogical_fr _ _ _) ?_
    | with_reducible apply Fr.step (spareTakes_fr _ _ _) ?_
    | (split <;> try (rename_i h; have e := congrArg Prod.fst h; dsimp only at e; subst e))
    | dsimp only

theorem memTrainDone_fr (failed : List (Nat × Nat)) (s : State) : Fr 118796 s (memTrainDone failed s) := by
  unfold memTrainDone
  try dsimp only
  repeat' first
    | with_reducible apply Fr.refl
    | with_reducible apply Fr.ite
    | with_reducible apply Fr.forEach _ _ (fun y a => ?_) ?_
    | with_reducible apply Fr.foldl _ _ (fun y a => ?_) ?_
    | with_reducible apply Fr.foldl1 _ _ (fun y a => ?_) ?_
    | with_reducible apply Fr.step (noteHealth_fr _) ?_
    | with_reducible apply Fr.step (listedChannel_fr _ _) ?_
    | with_reducible apply Fr.step (startFailure_fr _ _) ?_
    | with_reducible apply Fr.step (setStage_fr _ _) ?_
    | (with_reducible apply Fr.put_mem _ ?_; first | with_reducible apply Fr.refl | with_reducible apply Fr.ite | with_reducible apply Fr.forEach _ _ (fun y a => ?_) ?_ | with_reducible apply Fr.foldl _ _ (fun y a => ?_) ?_ | with_reducible apply Fr.foldl1 _ _ (fun y a => ?_) ?_ | with_reducible apply Fr.step (noteHealth_fr _) ?_ | with_reducible apply Fr.step (listedChannel_fr _ _) ?_ | with_reducible apply Fr.step (startFailure_fr _ _) ?_ | with_reducible apply Fr.step (setStage_fr _ _) ?_ | split)
    | split
    | dsimp only

theorem memZeroDone_fr (s : State) : Fr 4104 s (memZeroDone s) := by
  unfold memZeroDone
  refine Fr.ite ?_ (Fr.refl _ _)
  refine Fr.step (setStage_fr _ _) ?_
  constructor
  case later => exact le_refl _
  case sound => exact fun h => ⟨h.1, rfl, h.2.2⟩
  case mem => exact fun k => absurd k (by decide)
  case boot => exact fun k => absurd k (by decide)
  all_goals first | rfl | (intro _; rfl)

theorem mboxAnswer_fr (s : State) (status : Nat) (resp : List Word) : Fr 16384 s (mboxAnswer s status resp) := by
  unfold mboxAnswer
  try dsimp only
  repeat' first
    | with_reducible apply Fr.refl
    | with_reducible apply Fr.ite
    | with_reducible apply Fr.foldl _ _ (fun y a => ?_) ?_
    | with_reducible apply Fr.foldl1 _ _ (fun y a => ?_) ?_
    | (with_reducible apply Fr.put_hif _ ?_; first | with_reducible apply Fr.refl | with_reducible apply Fr.ite | with_reducible apply Fr.foldl _ _ (fun y a => ?_) ?_ | with_reducible apply Fr.foldl1 _ _ (fun y a => ?_) ?_ | split)
    | split
    | dsimp only

theorem mboxRun_fr (msg : Nat) (s : State) (act : State → State) {m n : Nat}
    (hf : ∀ y, Fr m y (act y)) (hm : Nat.land m n = m := by decide)
    (hn : Nat.land 16384 n = 16384 := by decide) : Fr n s (mboxRun msg s act) := by
  unfold mboxRun
  split
  · exact Fr.refl _ _
  · split
    · exact (hf _).mono hm
    · exact (mboxAnswer_fr _ _ _).mono hn

theorem getInfo_fr (s : State) : Fr 16384 s (getInfo s) := by
  unfold getInfo
  try dsimp only
  repeat' first
    | with_reducible apply Fr.refl
    | with_reducible apply Fr.ite
    | with_reducible apply Fr.step (mboxAnswer_fr _ _ _) ?_
    | split
    | dsimp only

theorem getMeasurement_fr (s : State) : Fr 16384 s (getMeasurement s) := by
  unfold getMeasurement
  try dsimp only
  repeat' first
    | with_reducible apply Fr.refl
    | with_reducible apply Fr.ite
    | with_reducible apply Fr.step (mboxAnswer_fr _ _ _) ?_
    | split
    | dsimp only

theorem readsImage_fr (s : State) : Fr 4 s (readsImage s) := by
  unfold readsImage
  try dsimp only
  repeat' first
    | with_reducible apply Fr.refl
    | with_reducible apply Fr.ite
    | with_reducible apply Fr.step (emitAll_fr _ _) ?_
    | split
    | dsimp only

theorem fwStage_fr (image : Option FwImage) (flashOk : Bool) (s : State) : Fr 16396 s (fwStage image flashOk s) := by
  unfold fwStage
  try dsimp only
  repeat' first
    | with_reducible apply Fr.refl
    | with_reducible apply Fr.ite
    | with_reducible apply mboxRun_fr _ _ _ (fun y => ?_) (Nat.and_self _)
    | with_reducible apply Fr.step (readsImage_fr _) ?_
    | with_reducible apply Fr.step (mboxAnswer_fr _ _ _) ?_
    | (with_reducible apply Fr.put_boot _ ?_ (by first | rfl | (split <;> rfl) | (dsimp only; split <;> rfl)); first | with_reducible apply Fr.refl | with_reducible apply Fr.ite | with_reducible apply mboxRun_fr _ _ _ (fun y => ?_) (Nat.and_self _) | with_reducible apply Fr.step (readsImage_fr _) ?_ | with_reducible apply Fr.step (mboxAnswer_fr _ _ _) ?_ | split)
    | split
    | dsimp only

theorem fwRecover_fr (image : Option FwImage) (s : State) : Fr 114927 s (fwRecover image s) := by
  unfold fwRecover
  try dsimp only
  repeat' first
    | with_reducible apply Fr.refl
    | with_reducible apply Fr.ite
    | with_reducible apply Fr.step (mboxAnswer_fr _ _ _) ?_
    | with_reducible apply Fr.step (readsImage_fr _) ?_
    | with_reducible apply Fr.step (bootFirmware_fr _ _ _ _) ?_
    | split
    | dsimp only

theorem svnCommit_fr (s : State) : Fr 16392 s (svnCommit s) := by
  unfold svnCommit
  try dsimp only
  repeat' first
    | with_reducible apply Fr.refl
    | with_reducible apply Fr.ite
    | with_reducible apply mboxRun_fr _ _ _ (fun y => ?_) (Nat.and_self _)
    | with_reducible apply Fr.step (mboxAnswer_fr _ _ _) ?_
    | (with_reducible apply Fr.put_boot _ ?_ (by first | rfl | (split <;> rfl) | (dsimp only; split <;> rfl)); first | with_reducible apply Fr.refl | with_reducible apply Fr.ite | with_reducible apply mboxRun_fr _ _ _ (fun y => ?_) (Nat.and_self _) | with_reducible apply Fr.step (mboxAnswer_fr _ _ _) ?_ | split)
    | split
    | dsimp only

theorem keyRevoke_fr (s : State) : Fr 16392 s (keyRevoke s) := by
  unfold keyRevoke
  try dsimp only
  repeat' first
    | with_reducible apply Fr.refl
    | with_reducible apply Fr.ite
    | with_reducible apply mboxRun_fr _ _ _ (fun y => ?_) (Nat.and_self _)
    | with_reducible apply Fr.step (mboxAnswer_fr _ _ _) ?_
    | (with_reducible apply Fr.put_boot _ ?_ (by first | rfl | (split <;> rfl) | (dsimp only; split <;> rfl)); first | with_reducible apply Fr.refl | with_reducible apply Fr.ite | with_reducible apply mboxRun_fr _ _ _ (fun y => ?_) (Nat.and_self _) | with_reducible apply Fr.step (mboxAnswer_fr _ _ _) ?_ | split)
    | split
    | dsimp only

theorem mboxCtrlWrite_fr (v : Word) (s : State) : Fr 16386 s (mboxCtrlWrite v s) := by
  unfold mboxCtrlWrite
  try dsimp only
  repeat' first
    | with_reducible apply Fr.refl
    | with_reducible apply Fr.ite
    | with_reducible apply Fr.step (putR_fr _ _ _) ?_
    | with_reducible apply Fr.step (mboxAnswer_fr _ _ _) ?_
    | (with_reducible apply Fr.put_hif _ ?_; first | with_reducible apply Fr.refl | with_reducible apply Fr.ite | with_reducible apply Fr.step (putR_fr _ _ _) ?_ | with_reducible apply Fr.step (mboxAnswer_fr _ _ _) ?_ | split)
    | split
    | dsimp only

theorem resetCtrlWrite_fr (f : Func) (v : Word) (s : State) : Fr 262143 s (resetCtrlWrite f v s) := by
  unfold resetCtrlWrite
  try dsimp only
  repeat' first
    | with_reducible apply Fr.refl
    | with_reducible apply Fr.ite
    | with_reducible apply Fr.step (warmReset_fr _ _) ?_
    | with_reducible apply Fr.step (coldReset_fr _) ?_
    | split
    | dsimp only

theorem fabricPos_fr (v : Word) (s : State) : Fr 114919 s (fabricPos v s) := by
  unfold fabricPos
  try dsimp only
  repeat' first
    | with_reducible apply Fr.refl
    | with_reducible apply Fr.ite
    | with_reducible apply Fr.step (putFabricPos_fr _ _) ?_
    | split
    | dsimp only

theorem fabricPosWrite_fr (f : Func) (v : Word) (s : State) : Fr 114919 s (fabricPosWrite f v s) := by
  unfold fabricPosWrite
  try dsimp only
  repeat' first
    | with_reducible apply Fr.refl
    | with_reducible apply Fr.ite
    | with_reducible apply Fr.step (fabricPos_fr _ _) ?_
    | split
    | dsimp only

theorem blockLock_fr (f : Func) (tbl : Bool) (s : State) : Fr 2 s (blockLock f tbl s) := by
  unfold blockLock
  try dsimp only
  repeat' first
    | with_reducible apply Fr.refl
    | with_reducible apply Fr.ite
    | with_reducible apply Fr.step (writeReg_fr _ _ _) ?_
    | split
    | dsimp only

theorem writeGlobal_fr (f : Func) (off : Nat) (v : Word) (s : State) : Fr 262143 s (writeGlobal f off v s) := by
  unfold writeGlobal
  try dsimp only
  repeat' first
    | with_reducible apply Fr.refl
    | with_reducible apply Fr.ite
    | with_reducible apply Fr.step (resetCtrlWrite_fr _ _ _) ?_
    | with_reducible apply Fr.step (fabricPos_fr _ _) ?_
    | with_reducible apply Fr.step (writeReg_fr _ _ _) ?_
    | split
    | dsimp only

theorem pwrCtrlWrite_fr (f : Func) (v : Word) (s : State) : Fr 262143 s (pwrCtrlWrite f v s) := by
  unfold pwrCtrlWrite
  try dsimp only
  repeat' first
    | with_reducible apply Fr.refl
    | with_reducible apply Fr.ite
    | with_reducible apply Fr.step (pwrReqActive_fr _ _) ?_
    | with_reducible apply Fr.step (pwrReqParked_fr _ _) ?_
    | with_reducible apply Fr.step (pwrReqRetain_fr _ _) ?_
    | with_reducible apply Fr.step (pwrReqStandby_fr _ _) ?_
    | split
    | dsimp only

theorem writePower_fr (f : Func) (off : Nat) (v : Word) (s : State) : Fr 262143 s (writePower f off v s) := by
  unfold writePower
  try dsimp only
  repeat' first
    | with_reducible apply Fr.refl
    | with_reducible apply Fr.ite
    | with_reducible apply Fr.step (pwrCtrlWrite_fr _ _ _) ?_
    | with_reducible apply Fr.step (writeReg_fr _ _ _) ?_
    | with_reducible apply Fr.step (putR_fr _ _ _) ?_
    | split
    | dsimp only

theorem writeTime_fr (f : Func) (off : Nat) (v : Word) (s : State) : Fr 90118 s (writeTime f off v s) := by
  unfold writeTime
  try dsimp only
  repeat' first
    | with_reducible apply Fr.refl
    | with_reducible apply Fr.ite
    | with_reducible apply Fr.step (timeSwitch_fr _ _) ?_
    | with_reducible apply Fr.step (timeReacq_fr _ _ _ _) ?_
    | with_reducible apply Fr.step (domCfgWrite_fr _ _ _ _) ?_
    | with_reducible apply Fr.step (writeReg_fr _ _ _) ?_
    | split
    | dsimp only

theorem msixWrite_fr (f : Func) (k : Nat) (v : Word) (s : State) : Fr 16388 s (msixWrite f k v s) := by
  unfold msixWrite
  try dsimp only
  repeat' first
    | with_reducible apply Fr.refl
    | with_reducible apply Fr.ite
    | with_reducible apply Fr.step (setMsixWord_fr _ _ _) ?_
    | with_reducible apply Fr.step (emit_fr _ _) ?_
    | with_reducible apply Fr.step (setPba_fr _ _ _) ?_
    | split
    | dsimp only

theorem ringRegWrite_fr (f : Func) (k : RingKind) (i : Nat) (o : Nat) (v : Word) (s : State) : Fr 16386 s (ringRegWrite f k i o v s) := by
  unfold ringRegWrite
  try dsimp only
  repeat' first
    | with_reducible apply Fr.refl
    | with_reducible apply Fr.ite
    | with_reducible apply Fr.step (ringBaseWrite_fr _ _ _ _ _) ?_
    | with_reducible apply Fr.step (ringCfgWrite_fr _ _ _ _ _) ?_
    | with_reducible apply Fr.step (ringAssignWrite_fr _ _ _ _) ?_
    | split
    | dsimp only

theorem writeHif_fr (f : Func) (off : Nat) (v : Word) (s : State) : Fr 16390 s (writeHif f off v s) := by
  unfold writeHif
  try dsimp only
  repeat' first
    | with_reducible apply Fr.refl
    | with_reducible apply Fr.ite
    | with_reducible apply Fr.step (mboxCtrlWrite_fr _ _) ?_
    | with_reducible apply Fr.step (writeReg_fr _ _ _) ?_
    | with_reducible apply Fr.step (ringRegWrite_fr _ _ _ _ _ _) ?_
    | with_reducible apply Fr.step (msixWrite_fr _ _ _ _) ?_
    | split
    | dsimp only

theorem writeOptics_fr (f : Func) (off : Nat) (v : Word) (s : State) : Fr 114919 s (writeOptics f off v s) := by
  unfold writeOptics
  try dsimp only
  repeat' first
    | with_reducible apply Fr.refl
    | with_reducible apply Fr.ite
    | with_reducible apply Fr.step (laserEnSet_fr _ _ _ _) ?_
    | with_reducible apply Fr.step (laserEnClear_fr _ _ _ _) ?_
    | with_reducible apply Fr.step (writeReg_fr _ _ _) ?_
    | split
    | dsimp only

theorem cmCfgWrite_fr (v : Word) (s : State) : Fr 66 s (cmCfgWrite v s) := by
  unfold cmCfgWrite
  try dsimp only
  repeat' first
    | with_reducible apply Fr.refl
    | with_reducible apply Fr.ite
    | with_reducible apply Fr.forEach _ _ (fun y a => ?_) ?_
    | with_reducible apply Fr.step (writeReg_fr _ _ _) ?_
    | with_reducible apply Fr.step (noteQ_fr _ _) ?_
    | with_reducible apply Fr.step (modLink_fr _ _ _) ?_
    | split
    | dsimp only

theorem writeLink_fr (f : Func) (off : Nat) (v : Word) (s : State) : Fr 114919 s (writeLink f off v s) := by
  unfold writeLink
  try dsimp only
  repeat' first
    | with_reducible apply Fr.refl
    | with_reducible apply Fr.ite
    | with_reducible apply Fr.step (cmCfgWrite_fr _ _) ?_
    | with_reducible apply Fr.step (linkEnable_fr _ _ _ _) ?_
    | with_reducible apply Fr.step (linkDisable_fr _ _ _ _) ?_
    | with_reducible apply Fr.step (writeReg_fr _ _ _) ?_
    | split
    | dsimp only

theorem writeSwitch_fr (off : Nat) (v : Word) (s : State) : Fr 2 s (writeSwitch off v s) := by
  unfold writeSwitch
  try dsimp only
  repeat' first
    | with_reducible apply Fr.refl
    | with_reducible apply Fr.ite
    | with_reducible apply Fr.step (writeReg_fr _ _ _) ?_
    | split
    | dsimp only

theorem tblCfg_fr (v : Word) (s : State) : Fr 82182 s (tblCfg v s) := by
  unfold tblCfg
  try dsimp only
  repeat' first
    | with_reducible apply Fr.refl
    | with_reducible apply Fr.ite
    | with_reducible apply Fr.forEach _ _ (fun y a => ?_) ?_
    | with_reducible apply Fr.step (writeReg_fr _ _ _) ?_
    | with_reducible apply Fr.step (recastLong_fr _ _) ?_
    | split
    | dsimp only

theorem tblCfgWrite_fr (f : Func) (v : Word) (s : State) : Fr 82182 s (tblCfgWrite f v s) := by
  unfold tblCfgWrite
  try dsimp only
  repeat' first
    | with_reducible apply Fr.refl
    | with_reducible apply Fr.ite
    | with_reducible apply Fr.step (tblCfg_fr _ _) ?_
    | split
    | dsimp only

theorem writeTables_fr (off : Nat) (v : Word) (s : State) : Fr 82182 s (writeTables off v s) := by
  unfold writeTables
  try dsimp only
  repeat' first
    | with_reducible apply Fr.refl
    | with_reducible apply Fr.ite
    | with_reducible apply Fr.step (tblCfg_fr _ _) ?_
    | with_reducible apply Fr.step (writeReg_fr _ _ _) ?_
    | split
    | dsimp only

theorem writePlan_fr (off : Nat) (v : Word) (s : State) : Fr 1026 s (writePlan off v s) := by
  unfold writePlan
  try dsimp only
  repeat' first
    | with_reducible apply Fr.refl
    | with_reducible apply Fr.ite
    | with_reducible apply Fr.step (writeReg_fr _ _ _) ?_
    | with_reducible apply Fr.step (modPlan_fr _ _ _) ?_
    | split
    | dsimp only

theorem memRotReqWrite_fr (f : Func) (v : Word) (s : State) : Fr 118796 s (memRotReqWrite f v s) := by
  unfold memRotReqWrite
  try dsimp only
  repeat' first
    | with_reducible apply Fr.refl
    | with_reducible apply Fr.ite
    | with_reducible apply Fr.step (memRotReq_fr _ _) ?_
    | split
    | dsimp only

theorem writeMem_fr (off : Nat) (v : Word) (s : State) : Fr 118798 s (writeMem off v s) := by
  unfold writeMem
  try dsimp only
  repeat' first
    | with_reducible apply Fr.refl
    | with_reducible apply Fr.ite
    | with_reducible apply Fr.step (memRotReq_fr _ _) ?_
    | with_reducible apply Fr.step (rotAll_fr _) ?_
    | with_reducible apply Fr.step (writeReg_fr _ _ _) ?_
    | split
    | dsimp only

theorem pinStatusWrite_fr (f : Func) (v : Word) (s : State) : Fr 114885 s (pinStatusWrite f v s) := by
  unfold pinStatusWrite
  try dsimp only
  repeat' first
    | with_reducible apply Fr.refl
    | with_reducible apply Fr.ite
    | with_reducible apply Fr.step (fenceUnstableClear_fr _ _) ?_
    | with_reducible apply Fr.step (wakeRearm_fr _ _) ?_
    | split
    | dsimp only

theorem writeHealth_fr (f : Func) (off : Nat) (v : Word) (s : State) : Fr 114887 s (writeHealth f off v s) := by
  unfold writeHealth
  try dsimp only
  repeat' first
    | with_reducible apply Fr.refl
    | with_reducible apply Fr.ite
    | with_reducible apply Fr.step (pinStatusWrite_fr _ _ _) ?_
    | with_reducible apply Fr.step (linkFenceSet_fr _ _ _) ?_
    | with_reducible apply Fr.step (linkFenceClear_fr _ _ _) ?_
    | with_reducible apply Fr.step (writeReg_fr _ _ _) ?_
    | (with_reducible apply Fr.put_hlt _ ?_; first | with_reducible apply Fr.refl | with_reducible apply Fr.ite | with_reducible apply Fr.step (pinStatusWrite_fr _ _ _) ?_ | with_reducible apply Fr.step (linkFenceSet_fr _ _ _) ?_ | with_reducible apply Fr.step (linkFenceClear_fr _ _ _) ?_ | with_reducible apply Fr.step (writeReg_fr _ _ _) ?_ | split)
    | split
    | dsimp only

theorem writePf_fr (f : Func) (off : Nat) (v : Word) (s : State) : Fr 262143 s (writePf f off v s) := by
  unfold writePf
  try dsimp only
  repeat' first
    | with_reducible apply Fr.refl
    | with_reducible apply Fr.ite
    | with_reducible apply Fr.step (writeGlobal_fr _ _ _ _) ?_
    | with_reducible apply Fr.step (writePower_fr _ _ _ _) ?_
    | with_reducible apply Fr.step (writeTime_fr _ _ _ _) ?_
    | with_reducible apply Fr.step (writeHif_fr _ _ _ _) ?_
    | with_reducible apply Fr.step (writeOptics_fr _ _ _ _) ?_
    | with_reducible apply Fr.step (writeLink_fr _ _ _ _) ?_
    | with_reducible apply Fr.step (writeSwitch_fr _ _ _) ?_
    | with_reducible apply Fr.step (writeTables_fr _ _ _) ?_
    | with_reducible apply Fr.step (writePlan_fr _ _ _) ?_
    | with_reducible apply Fr.step (writeReg_fr _ _ _) ?_
    | with_reducible apply Fr.step (writeMem_fr _ _ _) ?_
    | with_reducible apply Fr.step (writeHealth_fr _ _ _ _) ?_
    | split
    | dsimp only

theorem writeVf_fr (n : Nat) (off : Nat) (v : Word) (s : State) : Fr 16390 s (writeVf n off v s) := by
  unfold writeVf
  try dsimp only
  repeat' first
    | with_reducible apply Fr.refl
    | with_reducible apply Fr.ite
    | with_reducible apply Fr.step (ringRegWrite_fr _ _ _ _ _ _) ?_
    | with_reducible apply Fr.step (msixWrite_fr _ _ _ _) ?_
    | split
    | dsimp only

theorem registerWrite_fr (f : Func) (off : Nat) (bytes : Nat) (v : Word) (s : State) : Fr 262143 s (registerWrite f off bytes v s) := by
  unfold registerWrite
  try dsimp only
  repeat' first
    | with_reducible apply Fr.refl
    | with_reducible apply Fr.ite
    | with_reducible apply Fr.step (writeVf_fr _ _ _ _) ?_
    | with_reducible apply Fr.step (writePf_fr _ _ _ _) ?_
    | split
    | dsimp only

theorem regInit_fr (s : State) : Fr 262143 s (regInit s) := by
  unfold regInit
  try dsimp only
  repeat' first
    | with_reducible apply Fr.refl
    | with_reducible apply Fr.ite
    | with_reducible apply Fr.foldl _ _ (fun y a => ?_) ?_
    | with_reducible apply Fr.foldl1 _ _ (fun y a => ?_) ?_
    | with_reducible apply Fr.step (registerWrite_fr _ _ _ _ _) ?_
    | (with_reducible apply Fr.put_boot _ ?_ (by first | rfl | (split <;> rfl) | (dsimp only; split <;> rfl)); first | with_reducible apply Fr.refl | with_reducible apply Fr.ite | with_reducible apply Fr.foldl _ _ (fun y a => ?_) ?_ | with_reducible apply Fr.foldl1 _ _ (fun y a => ?_) ?_ | with_reducible apply Fr.step (registerWrite_fr _ _ _ _ _) ?_ | split)
    | split
    | dsimp only

theorem memVerifyDone_fr (failed : List (Nat × Nat)) (s : State) : Fr 262143 s (memVerifyDone failed s) := by
  unfold memVerifyDone
  try dsimp only
  repeat' first
    | with_reducible apply Fr.refl
    | with_reducible apply Fr.ite
    | with_reducible apply Fr.forEach _ _ (fun y a => ?_) ?_
    | with_reducible apply Fr.step (startFailure_fr _ _) ?_
    | with_reducible apply Fr.step (regInit_fr _) ?_
    | (with_reducible apply Fr.put_boot _ ?_ (by first | rfl | (split <;> rfl) | (dsimp only; split <;> rfl)); first | with_reducible apply Fr.refl | with_reducible apply Fr.ite | with_reducible apply Fr.forEach _ _ (fun y a => ?_) ?_ | with_reducible apply Fr.step (startFailure_fr _ _) ?_ | with_reducible apply Fr.step (regInit_fr _) ?_ | split)
    | split
    | dsimp only

theorem moduleReady_fr (s : State) : Fr 262143 s (moduleReady s) := by
  unfold moduleReady
  refine Fr.ite (Fr.refl _ _) ?_
  have h : Fr 262143 s (if s.boot.regInitDone then s else regInit s) := Fr.ite (Fr.refl _ _) (Fr.mono (regInit_fr _))
  generalize (if s.boot.regInitDone then s else regInit s) = x at h ⊢
  refine Fr.ite h ?_
  refine Fr.step (noteHealth_fr _) ?_
  refine Fr.step (followModuleFence_fr _) ?_
  have h2 := Fr.put_boot { x.boot with modState := 1, stage := 8, readyMs := min 0xFFFF (since x (x.boot.zeroAt.getD x.now) / msT) } h
  have h3 := fun x h => Fr.forEach (m := 262143) (s := s) (x := x) (upTo 2050) positionAdvance (fun y e => Fr.mono (positionAdvance_fr y e)) h
  exact Fr.ite (Fr.forEach _ _ (fun y e => Fr.mono (beginPass_fr _ _)) (h3 _ (Fr.ite (Fr.step (becomeActive_fr _) h2) h2))) (h3 _ (Fr.ite (Fr.step (becomeActive_fr _) h2) h2))

end Sys2Proof.Machine
end

