-- ==== Sys2Proof/Laws/FrBlocks.lean ====
section
/-! SUPPORT. What each operation of frames and blocks received can do, by Laws/Frame.lean. -/
/- Proofs of this file are elaborated one after another: side by side, their waiting threads' stacks
together pass the memory limit of the check. -/
set_option Elab.async false
namespace Sys2Proof.Machine

theorem hcrcFailed_fr (s : State) (q : Nat) : Fr 114925 s (hcrcFailed s q) := by
  unfold hcrcFailed
  try dsimp only
  repeat' first
    | with_reducible apply Fr.refl
    | with_reducible apply Fr.ite
    | with_reducible apply Fr.step (bump_fr _ _) ?_
    | with_reducible apply Fr.step (noteHealth_fr _) ?_
    | with_reducible apply Fr.step (laneDie_fr _ _ _ _ _) ?_
    | with_reducible apply Fr.step (sendRetry_fr _ _ _) ?_
    | with_reducible apply Fr.step (modLane_fr _ _ _) ?_
    | split
    | dsimp only

theorem takeCells_fr (s : State) (q : Nat) (f : Frame) (cells : Nat) : ∀ t, takeCells s q f cells = some t → Fr 64 s t := by
  show FrO 64 s (takeCells s q f cells)
  unfold takeCells
  try dsimp only
  repeat' first
    | with_reducible apply Fr.refl
    | with_reducible apply FrO.none
    | with_reducible apply FrO.some
    | with_reducible apply FrO.ite
    | with_reducible apply Fr.ite
    | with_reducible apply Fr.step (setLink_fr _ _ _) ?_

theorem overrun_fr (s : State) (q : Nat) (f : Frame) : Fr 81988 s (overrun s q f) := by
  unfold overrun
  try dsimp only
  repeat' first
    | with_reducible apply Fr.refl
    | with_reducible apply Fr.ite
    | with_reducible apply Fr.step (sendResync_fr _ _ _) ?_
    | with_reducible apply Fr.step (raiseEvent_fr _ _ _ _ _) ?_
    | split
    | dsimp only

theorem dropFrame_fr (s : State) (q : QFrame) : Fr 64 s (dropFrame s q) := by
  unfold dropFrame
  try dsimp only
  repeat' first
    | with_reducible apply Fr.refl
    | with_reducible apply Fr.ite
    | with_reducible apply Fr.step (freeCredit_fr _ _ _ _) ?_
    | split
    | dsimp only

theorem badType_fr (s : State) (q : QFrame) : Fr 82117 s (badType s q) := by
  unfold badType
  try dsimp only
  repeat' first
    | with_reducible apply Fr.refl
    | with_reducible apply Fr.ite
    | with_reducible apply Fr.step (refuse_fr _ _ _ _) ?_
    | with_reducible apply Fr.step (bump_fr _ _) ?_
    | split
    | dsimp only

theorem learn_fr (s : State) (eid : Nat) (l : Nat) : Fr 256 s (learn s eid l) := by
  unfold learn
  try dsimp only
  repeat' first
    | with_reducible apply Fr.refl
    | with_reducible apply Fr.ite
    | (with_reducible apply Fr.put_tbl _ ?_; first | with_reducible apply Fr.refl | with_reducible apply Fr.ite | split)
    | split
    | dsimp only

theorem locationViolation_fr (s : State) (eid : Nat) (part : Nat) (recorded : Nat) (l : Nat) : Fr 82180 s (locationViolation s eid part recorded l) := by
  unfold locationViolation
  try dsimp only
  repeat' first
    | with_reducible apply Fr.refl
    | with_reducible apply Fr.ite
    | with_reducible apply Fr.step (countEvent_fr _ _) ?_
    | with_reducible apply Fr.step (raiseEvent_fr _ _ _ _ _) ?_
    | (with_reducible apply Fr.put_tbl _ ?_; first | with_reducible apply Fr.refl | with_reducible apply Fr.ite | with_reducible apply Fr.step (countEvent_fr _ _) ?_ | with_reducible apply Fr.step (raiseEvent_fr _ _ _ _ _) ?_ | split)
    | split
    | dsimp only

theorem locationCheck_fr (s : State) (eid : Nat) (l : Nat) (route : Word) : Fr 82180 s (locationCheck s eid l route).1 := by
  unfold locationCheck
  try dsimp only
  repeat' first
    | with_reducible apply Fr.refl
    | with_reducible apply Fr.ite
    | with_reducible apply Fr.ite1
    | with_reducible apply Fr.step (locationViolation_fr _ _ _ _ _) ?_
    | with_reducible apply Fr.step (bump_fr _ _) ?_
    | with_reducible apply Fr.step (learn_fr _ _ _) ?_
    | (split <;> try (rename_i h; have e := congrArg Prod.fst h; dsimp only at e; subst e))
    | dsimp only

theorem mgmtFrame_fr (q : QFrame) (s : State) : Fr 82117 s (mgmtFrame q s) := by
  unfold mgmtFrame
  try dsimp only
  repeat' first
    | with_reducible apply Fr.refl
    | with_reducible apply Fr.ite
    | with_reducible apply Fr.step (dropFrame_fr _ _) ?_
    | with_reducible apply Fr.step (routePacket_fr _ _ _) ?_
    | with_reducible apply Fr.step (emit_fr _ _) ?_
    | split
    | dsimp only

theorem consume_fr (q : QFrame) (p : Nat) (s : State) : Fr 122567 s (consume q p s) := by
  unfold consume
  try dsimp only
  repeat' first
    | with_reducible apply Fr.refl
    | with_reducible apply Fr.ite
    | with_reducible apply Fr.step (mgmtFrame_fr _ _) ?_
    | with_reducible apply Fr.step (contribution_fr _ _) ?_
    | with_reducible apply Fr.step (memRequest_fr _ _ _) ?_
    | with_reducible apply Fr.step (badType_fr _ _) ?_
    | split
    | dsimp only

theorem selfFrame_fr (q : QFrame) (p : Nat) (s : State) : Fr 122567 s (selfFrame q p s) := by
  unfold selfFrame
  try dsimp only
  repeat' first
    | with_reducible apply Fr.refl
    | with_reducible apply Fr.ite
    | with_reducible apply Fr.step (consume_fr _ _ _) ?_
    | with_reducible apply Fr.step (modLane_fr _ _ _) ?_
    | split
    | dsimp only

theorem multicast_fr (q : QFrame) (p : Nat) (s : State) : Fr 82117 s (multicast q p s) := by
  unfold multicast
  try dsimp only
  repeat' first
    | with_reducible apply Fr.refl
    | with_reducible apply Fr.ite
    | with_reducible apply Fr.step (answer_fr _ _) ?_
    | with_reducible apply Fr.step (mcEnter_fr _ _ _) ?_
    | split
    | dsimp only

theorem lookup_fr (q : QFrame) (s : State) : Fr 122823 s (lookup q s) := by
  unfold lookup
  try dsimp only
  repeat' first
    | with_reducible apply Fr.refl
    | with_reducible apply Fr.ite
    | with_reducible apply Fr.step (dropFrame_fr _ _) ?_
    | with_reducible apply Fr.step (raiseEvent_fr _ _ _ _ _) ?_
    | with_reducible apply Fr.step (locationCheck_fr _ _ _ _) ?_
    | with_reducible apply Fr.step (selfFrame_fr _ _ _) ?_
    | with_reducible apply Fr.step (multicast_fr _ _ _) ?_
    | with_reducible apply Fr.step (answer_fr _ _) ?_
    | with_reducible apply Fr.step (routeFrame_fr _ _ _ _) ?_
    | (split <;> try (rename_i h; have e := congrArg Prod.fst h; dsimp only at e; subst e))
    | dsimp only

theorem checkFrame_fr (q : QFrame) (s : State) : Fr 122823 s (checkFrame q s) := by
  unfold checkFrame
  try dsimp only
  repeat' first
    | with_reducible apply Fr.refl
    | with_reducible apply Fr.ite
    | with_reducible apply Fr.step (dropFrame_fr _ _) ?_
    | with_reducible apply Fr.step (badType_fr _ _) ?_
    | with_reducible apply Fr.step (refuse_fr _ _ _ _) ?_
    | with_reducible apply Fr.step (bump_fr _ _) ?_
    | with_reducible apply Fr.step (raiseEvent_fr _ _ _ _ _) ?_
    | with_reducible apply Fr.step (lookup_fr _ _) ?_
    | split
    | dsimp only

theorem inFrame_fr (s : State) (q : Nat) (f : Frame) (part : Bool) : Fr 128 s (inFrame s q f part).1 := by
  unfold inFrame
  try dsimp only
  repeat' first
    | with_reducible apply Fr.refl
    | with_reducible apply Fr.ite
    | with_reducible apply Fr.ite1
    | with_reducible apply Fr.step (freshId_fr _) ?_
    | (split <;> try (rename_i h; have e := congrArg Prod.fst h; dsimp only at e; subst e))
    | dsimp only

theorem arriveIn_fr {m : Nat} (s : State) (fr : QFrame) (o : Option State) (hm : Nat.land 122823 m = 122823 := by decide)
    (h : ∀ t, o = some t → Fr m s t) : Fr m s (arriveIn s fr o) := by
  cases o with
  | none => exact Fr.mono (Fr.mono (n := 122823) (overrun_fr _ _ _)) hm
  | some t =>
    have h := h t rfl
    unfold arriveIn
    have a : Fr 122823 t (bumpN (bump t (cLink fr.inLink 0)) (cLink fr.inLink 2) (inCells fr)) :=
      Fr.step (bumpN_fr _ _ _) (Fr.mono (bump_fr _ _))
    refine Fr.step ?_ h hm
    exact Fr.ite (Fr.step (dropFrame_fr _ _) (Fr.step (bump_fr _ _) a)) (Fr.step (checkFrame_fr _ _) a)

theorem arrive_fr (s : State) (q : Nat) (f : Frame) (part : Bool) : Fr 122823 s (arrive s q f part) := by
  unfold arrive
  dsimp only
  refine Fr.step (m := 122823) (arriveIn_fr _ _ _ (by decide) fun t h => Fr.mono (takeCells_fr _ _ _ _ t h)) ?_ (by decide)
  exact Fr.step (tapFrame_fr _ _ _ _ _ _) (Fr.mono (inFrame_fr _ _ _ _))

theorem frameReceive_fr (q : Nat) (hdr : List Word) (payload : List Byte) (s : State) : Fr 122863 s (frameReceive q hdr payload s) := by
  unfold frameReceive
  try dsimp only
  repeat' first
    | with_reducible apply Fr.refl
    | with_reducible apply Fr.ite
    | with_reducible apply Fr.step (bumpN_fr _ _ _) ?_
    | with_reducible apply Fr.step (hcrcFailed_fr _ _) ?_
    | with_reducible apply Fr.step (arrive_fr _ _ _ _) ?_
    | with_reducible apply Fr.step (modLane_fr _ _ _) ?_
    | split
    | dsimp only

theorem selfReceive_fr (t : Nat) (q : Nat) (hdr : List Word) (payload : List Byte) (s : State) : Fr 122863 s (selfReceive t q hdr payload s) := by
  unfold selfReceive
  try dsimp only
  repeat' first
    | with_reducible apply Fr.refl
    | with_reducible apply Fr.ite
    | with_reducible apply Fr.step (frameReceive_fr _ _ _ _) ?_
    | split
    | dsimp only

theorem cruReceive_fr (t : Nat) (q : Nat) (hdr : List Word) (p : CruPayload) (s : State) : Fr 122863 s (cruReceive t q hdr p s) := by
  unfold cruReceive
  try dsimp only
  repeat' first
    | with_reducible apply Fr.refl
    | with_reducible apply Fr.ite
    | with_reducible apply Fr.step (frameReceive_fr _ _ _ _) ?_
    | with_reducible apply Fr.step (arrivalEcc_fr _ _) ?_
    | split
    | dsimp only

theorem takeOs_fr (s : State) (q : Nat) (type : Nat) (b : BitVec 104) : Fr 126189 s (takeOs s q type b) := by
  unfold takeOs
  try dsimp only
  repeat' first
    | with_reducible apply Fr.refl
    | with_reducible apply Fr.ite
    | with_reducible apply Fr.step (heartbeatReceive_fr _ _ _) ?_
    | with_reducible apply Fr.step (creditReceive_fr _ _ _ _) ?_
    | with_reducible apply Fr.step (creditResync_fr _ _ _) ?_
    | with_reducible apply Fr.step (retryReceive_fr _ _ _) ?_
    | with_reducible apply Fr.step (positionReceive_fr _ _ _) ?_
    | with_reducible apply Fr.step (marginReport_fr _ _ _) ?_
    | with_reducible apply Fr.step (linkctlQuiesce_fr _ _ _) ?_
    | with_reducible apply Fr.step (linkctlResume_fr _ _ _) ?_
    | with_reducible apply Fr.step (linkctlDisable_fr _ _ _) ?_
    | with_reducible apply Fr.step (osIllegal_fr _ _) ?_
    | with_reducible apply Fr.step (swRequestReceive_fr _ _ _) ?_
    | with_reducible apply Fr.step (swReadyReceive_fr _ _ _) ?_
    | with_reducible apply Fr.step (swMarkReceive_fr _ _ _ _) ?_
    | with_reducible apply Fr.step (swDoneReceive_fr _ _ _) ?_
    | with_reducible apply Fr.step (swNakReceive_fr _ _ _) ?_
    | with_reducible apply Fr.step (timeSyncReceive_fr _ _ _) ?_
    | with_reducible apply Fr.step (timeDelayReqReceive_fr _ _ _) ?_
    | with_reducible apply Fr.step (timeDelayRespReceive_fr _ _ _) ?_
    | with_reducible apply Fr.step (timeAnnounceReceive_fr _ _ _) ?_
    | split
    | dsimp only

theorem takeCell_fr (q : Nat) (s : State) (cell : List Byte) : Fr 126189 s (takeCell q s cell) := by
  unfold takeCell
  try dsimp only
  repeat' first
    | with_reducible apply Fr.refl
    | with_reducible apply Fr.ite
    | with_reducible apply Fr.forEach _ _ (fun y a => ?_) ?_
    | with_reducible apply Fr.step (osIllegal_fr _ _) ?_
    | with_reducible apply Fr.step (takeOs_fr _ _ _ _) ?_
    | split
    | dsimp only

theorem firstCell_fr (q : Nat) (s : State) (cell : List Byte) : Fr 122823 s (firstCell q s cell) := by
  unfold firstCell
  try dsimp only
  repeat' first
    | with_reducible apply Fr.refl
    | with_reducible apply Fr.ite
    | with_reducible apply Fr.step (modLane_fr _ _ _) ?_
    | with_reducible apply Fr.step (arrive_fr _ _ _ _) ?_
    | split
    | dsimp only

theorem nextCell_fr (q : Nat) (s : State) (cell : List Byte) : Fr 122567 s (nextCell q s cell) := by
  unfold nextCell
  try dsimp only
  repeat' first
    | with_reducible apply Fr.refl
    | with_reducible apply Fr.ite
    | with_reducible apply Fr.step (modLane_fr _ _ _) ?_
    | with_reducible apply Fr.step (consume_fr _ _ _) ?_
    | (with_reducible apply Fr.put_sw _ ?_; first | with_reducible apply Fr.refl | with_reducible apply Fr.ite | with_reducible apply Fr.step (modLane_fr _ _ _) ?_ | with_reducible apply Fr.step (consume_fr _ _ _) ?_ | split)
    | split
    | dsimp only

theorem takeData_fr (q : Nat) (s : State) (cell : List Byte) : Fr 122823 s (takeData q s cell) := by
  unfold takeData
  try dsimp only
  repeat' first
    | with_reducible apply Fr.refl
    | with_reducible apply Fr.ite
    | with_reducible apply Fr.step (bump_fr _ _) ?_
    | with_reducible apply Fr.step (firstCell_fr _ _ _) ?_
    | with_reducible apply Fr.step (nextCell_fr _ _ _) ?_
    | split
    | dsimp only

theorem fecCount_fr (s : State) (q : Nat) (b : RxBlock) : Fr 65536 s (fecCount s q b) := by
  unfold fecCount
  try dsimp only
  repeat' first
    | with_reducible apply Fr.refl
    | with_reducible apply Fr.ite
    | with_reducible apply Fr.step (bumpN_fr _ _ _) ?_
    | split
    | dsimp only

theorem lockStep_fr (s : State) (q : Nat) (good : Bool) : Fr 114885 s (lockStep s q good) := by
  unfold lockStep
  try dsimp only
  repeat' first
    | with_reducible apply Fr.refl
    | with_reducible apply Fr.ite
    | with_reducible apply Fr.step (setLane_fr _ _ _) ?_
    | with_reducible apply Fr.step (laneToPosition_fr _ _) ?_
    | with_reducible apply Fr.step (refreshLink_fr _ _ _ _) ?_
    | with_reducible apply Fr.step (putLaneState_fr _ _ _) ?_
    | split
    | dsimp only

theorem ackBlocks_fr (s : State) (q : Nat) (ack : Nat) : Fr 64 s (ackBlocks s q ack) := by
  unfold ackBlocks
  try dsimp only
  repeat' first
    | with_reducible apply Fr.refl
    | with_reducible apply Fr.ite
    | with_reducible apply Fr.step (modLane_fr _ _ _) ?_
    | split
    | dsimp only

theorem badBlock_fr (s : State) (q : Nat) : Fr 65604 s (badBlock s q) := by
  unfold badBlock
  try dsimp only
  repeat' first
    | with_reducible apply Fr.refl
    | with_reducible apply Fr.ite
    | with_reducible apply Fr.step (sendRetry_fr _ _ _) ?_
    | split
    | dsimp only

theorem takeBlock_fr (s : State) (q : Nat) (seq : Nat) (data : List (List Byte)) : Fr 122863 s (takeBlock s q seq data) := by
  unfold takeBlock
  try dsimp only
  repeat' first
    | with_reducible apply Fr.refl
    | with_reducible apply Fr.ite
    | with_reducible apply Fr.forEach _ _ (fun y a => ?_) ?_
    | with_reducible apply Fr.step (bumpN_fr _ _ _) ?_
    | with_reducible apply Fr.step (hcrcFailed_fr _ _) ?_
    | with_reducible apply Fr.step (setLane_fr _ _ _) ?_
    | with_reducible apply Fr.step (takeData_fr _ _ _) ?_
    | split
    | dsimp only

theorem takeGood_fr (s : State) (q : Nat) (hdr : BitVec 40) (cells : List (List Byte)) : Fr 131055 s (takeGood s q hdr cells) := by
  unfold takeGood
  try dsimp only
  repeat' first
    | with_reducible apply Fr.refl
    | with_reducible apply Fr.ite
    | with_reducible apply Fr.forEach _ _ (fun y a => ?_) ?_
    | with_reducible apply Fr.step (ackBlocks_fr _ _ _) ?_
    | with_reducible apply Fr.step (takeCell_fr _ _ _) ?_
    | with_reducible apply Fr.step (trySwitch_fr _ _) ?_
    | with_reducible apply Fr.step (bumpN_fr _ _ _) ?_
    | with_reducible apply Fr.step (takeBlock_fr _ _ _ _) ?_
    | split
    | dsimp only

theorem marksOf_fr (s : State) (q : Nat) (hdr : BitVec 40) (cells : List (List Byte)) : Fr 114796 s (marksOf s q hdr cells) := by
  unfold marksOf
  try dsimp only
  repeat' first
    | with_reducible apply Fr.refl
    | with_reducible apply Fr.ite
    | with_reducible apply Fr.forEach _ _ (fun y a => ?_) ?_
    | with_reducible apply Fr.step (swMarkReceive_fr _ _ _ _) ?_
    | split
    | dsimp only

theorem blockReceive_fr (q : Nat) (ch : Nat) (levels : List Nat) (s : State) : Fr 131055 s (blockReceive q ch levels s) := by
  unfold blockReceive
  try dsimp only
  repeat' first
    | with_reducible apply Fr.refl
    | with_reducible apply Fr.ite
    | with_reducible apply Fr.step (countMargin_fr _ _ _ _ _) ?_
    | with_reducible apply Fr.step (lockStep_fr _ _ _) ?_
    | with_reducible apply Fr.step (fecCount_fr _ _ _) ?_
    | with_reducible apply Fr.step (badBlock_fr _ _) ?_
    | with_reducible apply Fr.step (takeGood_fr _ _ _ _) ?_
    | with_reducible apply Fr.step (marksOf_fr _ _ _ _) ?_
    | split
    | dsimp only

end Sys2Proof.Machine
end

