-- ==== Sys2Proof/Laws/State.lean ====
section
/-! SUPPORT. One lemma per field per update of State: what the named updates and the shared operations leave
alone, and what a read of the unit that was written finds. -/
/- Proofs of this file are elaborated one after another: side by side, their waiting threads' stacks
together pass the memory limit of the check. -/
set_option Elab.async false
namespace Sys2Proof.Machine

@[simp] theorem takeFree_pending (s : State) : (takeFree s).pending = s.pending := rfl
@[simp] theorem takeFree_variant (s : State) : (takeFree s).variant = s.variant := rfl
@[simp] theorem takeFree_regs (s : State) : (takeFree s).regs = s.regs := rfl
@[simp] theorem takeFree_out (s : State) : (takeFree s).out = s.out := rfl
@[simp] theorem takeFree_boot (s : State) : (takeFree s).boot = s.boot := rfl
@[simp] theorem takeFree_pwr (s : State) : (takeFree s).pwr = s.pwr := rfl
@[simp] theorem takeFree_opt (s : State) : (takeFree s).opt = s.opt := rfl
@[simp] theorem takeFree_lnk (s : State) : (takeFree s).lnk = s.lnk := rfl
@[simp] theorem takeFree_sw (s : State) : (takeFree s).sw = s.sw := rfl
@[simp] theorem takeFree_tbl (s : State) : (takeFree s).tbl = s.tbl := rfl
@[simp] theorem takeFree_cru (s : State) : (takeFree s).cru = s.cru := rfl
@[simp] theorem takeFree_plan (s : State) : (takeFree s).plan = s.plan := rfl
@[simp] theorem takeFree_coll (s : State) : (takeFree s).coll = s.coll := rfl
@[simp] theorem takeFree_mem (s : State) : (takeFree s).mem = s.mem := rfl
@[simp] theorem takeFree_tim (s : State) : (takeFree s).tim = s.tim := rfl
@[simp] theorem takeFree_hif (s : State) : (takeFree s).hif = s.hif := rfl
@[simp] theorem takeFree_hlt (s : State) : (takeFree s).hlt = s.hlt := rfl
@[simp] theorem takeFree_cnt (s : State) : (takeFree s).cnt = s.cnt := rfl
@[simp] theorem takeFree_now (s : State) : (takeFree s).now = s.now := rfl
@[simp] theorem emit_pending (s : State) (o : Output) : (emit s o).pending = s.pending := rfl
@[simp] theorem emit_variant (s : State) (o : Output) : (emit s o).variant = s.variant := rfl
@[simp] theorem emit_freeCtr (s : State) (o : Output) : (emit s o).freeCtr = s.freeCtr := rfl
@[simp] theorem emit_regs (s : State) (o : Output) : (emit s o).regs = s.regs := rfl
@[simp] theorem emit_boot (s : State) (o : Output) : (emit s o).boot = s.boot := rfl
@[simp] theorem emit_pwr (s : State) (o : Output) : (emit s o).pwr = s.pwr := rfl
@[simp] theorem emit_opt (s : State) (o : Output) : (emit s o).opt = s.opt := rfl
@[simp] theorem emit_lnk (s : State) (o : Output) : (emit s o).lnk = s.lnk := rfl
@[simp] theorem emit_sw (s : State) (o : Output) : (emit s o).sw = s.sw := rfl
@[simp] theorem emit_tbl (s : State) (o : Output) : (emit s o).tbl = s.tbl := rfl
@[simp] theorem emit_cru (s : State) (o : Output) : (emit s o).cru = s.cru := rfl
@[simp] theorem emit_plan (s : State) (o : Output) : (emit s o).plan = s.plan := rfl
@[simp] theorem emit_coll (s : State) (o : Output) : (emit s o).coll = s.coll := rfl
@[simp] theorem emit_mem (s : State) (o : Output) : (emit s o).mem = s.mem := rfl
@[simp] theorem emit_tim (s : State) (o : Output) : (emit s o).tim = s.tim := rfl
@[simp] theorem emit_hif (s : State) (o : Output) : (emit s o).hif = s.hif := rfl
@[simp] theorem emit_hlt (s : State) (o : Output) : (emit s o).hlt = s.hlt := rfl
@[simp] theorem emit_cnt (s : State) (o : Output) : (emit s o).cnt = s.cnt := rfl
@[simp] theorem emit_now (s : State) (o : Output) : (emit s o).now = s.now := rfl
@[simp] theorem await_pending (s : State) (t : Nat) (d : Nat) : (await s t d).pending = s.pending := rfl
@[simp] theorem await_variant (s : State) (t : Nat) (d : Nat) : (await s t d).variant = s.variant := rfl
@[simp] theorem await_freeCtr (s : State) (t : Nat) (d : Nat) : (await s t d).freeCtr = s.freeCtr := rfl
@[simp] theorem await_regs (s : State) (t : Nat) (d : Nat) : (await s t d).regs = s.regs := rfl
@[simp] theorem await_out (s : State) (t : Nat) (d : Nat) : (await s t d).out = s.out := rfl
@[simp] theorem await_boot (s : State) (t : Nat) (d : Nat) : (await s t d).boot = s.boot := rfl
@[simp] theorem await_pwr (s : State) (t : Nat) (d : Nat) : (await s t d).pwr = s.pwr := rfl
@[simp] theorem await_opt (s : State) (t : Nat) (d : Nat) : (await s t d).opt = s.opt := rfl
@[simp] theorem await_lnk (s : State) (t : Nat) (d : Nat) : (await s t d).lnk = s.lnk := rfl
@[simp] theorem await_sw (s : State) (t : Nat) (d : Nat) : (await s t d).sw = s.sw := rfl
@[simp] theorem await_tbl (s : State) (t : Nat) (d : Nat) : (await s t d).tbl = s.tbl := rfl
@[simp] theorem await_cru (s : State) (t : Nat) (d : Nat) : (await s t d).cru = s.cru := rfl
@[simp] theorem await_plan (s : State) (t : Nat) (d : Nat) : (await s t d).plan = s.plan := rfl
@[simp] theorem await_coll (s : State) (t : Nat) (d : Nat) : (await s t d).coll = s.coll := rfl
@[simp] theorem await_mem (s : State) (t : Nat) (d : Nat) : (await s t d).mem = s.mem := rfl
@[simp] theorem await_tim (s : State) (t : Nat) (d : Nat) : (await s t d).tim = s.tim := rfl
@[simp] theorem await_hif (s : State) (t : Nat) (d : Nat) : (await s t d).hif = s.hif := rfl
@[simp] theorem await_hlt (s : State) (t : Nat) (d : Nat) : (await s t d).hlt = s.hlt := rfl
@[simp] theorem await_cnt (s : State) (t : Nat) (d : Nat) : (await s t d).cnt = s.cnt := rfl
@[simp] theorem setLink_pending (s : State) (l : Nat) (v : Link) : (setLink s l v).pending = s.pending := rfl
@[simp] theorem setLink_variant (s : State) (l : Nat) (v : Link) : (setLink s l v).variant = s.variant := rfl
@[simp] theorem setLink_freeCtr (s : State) (l : Nat) (v : Link) : (setLink s l v).freeCtr = s.freeCtr := rfl
@[simp] theorem setLink_regs (s : State) (l : Nat) (v : Link) : (setLink s l v).regs = s.regs := rfl
@[simp] theorem setLink_out (s : State) (l : Nat) (v : Link) : (setLink s l v).out = s.out := rfl
@[simp] theorem setLink_boot (s : State) (l : Nat) (v : Link) : (setLink s l v).boot = s.boot := rfl
@[simp] theorem setLink_pwr (s : State) (l : Nat) (v : Link) : (setLink s l v).pwr = s.pwr := rfl
@[simp] theorem setLink_opt (s : State) (l : Nat) (v : Link) : (setLink s l v).opt = s.opt := rfl
@[simp] theorem setLink_sw (s : State) (l : Nat) (v : Link) : (setLink s l v).sw = s.sw := rfl
@[simp] theorem setLink_tbl (s : State) (l : Nat) (v : Link) : (setLink s l v).tbl = s.tbl := rfl
@[simp] theorem setLink_cru (s : State) (l : Nat) (v : Link) : (setLink s l v).cru = s.cru := rfl
@[simp] theorem setLink_plan (s : State) (l : Nat) (v : Link) : (setLink s l v).plan = s.plan := rfl
@[simp] theorem setLink_coll (s : State) (l : Nat) (v : Link) : (setLink s l v).coll = s.coll := rfl
@[simp] theorem setLink_mem (s : State) (l : Nat) (v : Link) : (setLink s l v).mem = s.mem := rfl
@[simp] theorem setLink_tim (s : State) (l : Nat) (v : Link) : (setLink s l v).tim = s.tim := rfl
@[simp] theorem setLink_hif (s : State) (l : Nat) (v : Link) : (setLink s l v).hif = s.hif := rfl
@[simp] theorem setLink_hlt (s : State) (l : Nat) (v : Link) : (setLink s l v).hlt = s.hlt := rfl
@[simp] theorem setLink_cnt (s : State) (l : Nat) (v : Link) : (setLink s l v).cnt = s.cnt := rfl
@[simp] theorem setLink_now (s : State) (l : Nat) (v : Link) : (setLink s l v).now = s.now := rfl
@[simp] theorem modLink_pending (s : State) (l : Nat) (f : Link → Link) : (modLink s l f).pending = s.pending := rfl
@[simp] theorem modLink_variant (s : State) (l : Nat) (f : Link → Link) : (modLink s l f).variant = s.variant := rfl
@[simp] theorem modLink_freeCtr (s : State) (l : Nat) (f : Link → Link) : (modLink s l f).freeCtr = s.freeCtr := rfl
@[simp] theorem modLink_regs (s : State) (l : Nat) (f : Link → Link) : (modLink s l f).regs = s.regs := rfl
@[simp] theorem modLink_out (s : State) (l : Nat) (f : Link → Link) : (modLink s l f).out = s.out := rfl
@[simp] theorem modLink_boot (s : State) (l : Nat) (f : Link → Link) : (modLink s l f).boot = s.boot := rfl
@[simp] theorem modLink_pwr (s : State) (l : Nat) (f : Link → Link) : (modLink s l f).pwr = s.pwr := rfl
@[simp] theorem modLink_opt (s : State) (l : Nat) (f : Link → Link) : (modLink s l f).opt = s.opt := rfl
@[simp] theorem modLink_sw (s : State) (l : Nat) (f : Link → Link) : (modLink s l f).sw = s.sw := rfl
@[simp] theorem modLink_tbl (s : State) (l : Nat) (f : Link → Link) : (modLink s l f).tbl = s.tbl := rfl
@[simp] theorem modLink_cru (s : State) (l : Nat) (f : Link → Link) : (modLink s l f).cru = s.cru := rfl
@[simp] theorem modLink_plan (s : State) (l : Nat) (f : Link → Link) : (modLink s l f).plan = s.plan := rfl
@[simp] theorem modLink_coll (s : State) (l : Nat) (f : Link → Link) : (modLink s l f).coll = s.coll := rfl
@[simp] theorem modLink_mem (s : State) (l : Nat) (f : Link → Link) : (modLink s l f).mem = s.mem := rfl
@[simp] theorem modLink_tim (s : State) (l : Nat) (f : Link → Link) : (modLink s l f).tim = s.tim := rfl
@[simp] theorem modLink_hif (s : State) (l : Nat) (f : Link → Link) : (modLink s l f).hif = s.hif := rfl
@[simp] theorem modLink_hlt (s : State) (l : Nat) (f : Link → Link) : (modLink s l f).hlt = s.hlt := rfl
@[simp] theorem modLink_cnt (s : State) (l : Nat) (f : Link → Link) : (modLink s l f).cnt = s.cnt := rfl
@[simp] theorem modLink_now (s : State) (l : Nat) (f : Link → Link) : (modLink s l f).now = s.now := rfl
@[simp] theorem setLane_pending (s : State) (q : Nat) (v : Lane) : (setLane s q v).pending = s.pending := rfl
@[simp] theorem setLane_variant (s : State) (q : Nat) (v : Lane) : (setLane s q v).variant = s.variant := rfl
@[simp] theorem setLane_freeCtr (s : State) (q : Nat) (v : Lane) : (setLane s q v).freeCtr = s.freeCtr := rfl
@[simp] theorem setLane_regs (s : State) (q : Nat) (v : Lane) : (setLane s q v).regs = s.regs := rfl
@[simp] theorem setLane_out (s : State) (q : Nat) (v : Lane) : (setLane s q v).out = s.out := rfl
@[simp] theorem setLane_boot (s : State) (q : Nat) (v : Lane) : (setLane s q v).boot = s.boot := rfl
@[simp] theorem setLane_pwr (s : State) (q : Nat) (v : Lane) : (setLane s q v).pwr = s.pwr := rfl
@[simp] theorem setLane_opt (s : State) (q : Nat) (v : Lane) : (setLane s q v).opt = s.opt := rfl
@[simp] theorem setLane_sw (s : State) (q : Nat) (v : Lane) : (setLane s q v).sw = s.sw := rfl
@[simp] theorem setLane_tbl (s : State) (q : Nat) (v : Lane) : (setLane s q v).tbl = s.tbl := rfl
@[simp] theorem setLane_cru (s : State) (q : Nat) (v : Lane) : (setLane s q v).cru = s.cru := rfl
@[simp] theorem setLane_plan (s : State) (q : Nat) (v : Lane) : (setLane s q v).plan = s.plan := rfl
@[simp] theorem setLane_coll (s : State) (q : Nat) (v : Lane) : (setLane s q v).coll = s.coll := rfl
@[simp] theorem setLane_mem (s : State) (q : Nat) (v : Lane) : (setLane s q v).mem = s.mem := rfl
@[simp] theorem setLane_tim (s : State) (q : Nat) (v : Lane) : (setLane s q v).tim = s.tim := rfl
@[simp] theorem setLane_hif (s : State) (q : Nat) (v : Lane) : (setLane s q v).hif = s.hif := rfl
@[simp] theorem setLane_hlt (s : State) (q : Nat) (v : Lane) : (setLane s q v).hlt = s.hlt := rfl
@[simp] theorem setLane_cnt (s : State) (q : Nat) (v : Lane) : (setLane s q v).cnt = s.cnt := rfl
@[simp] theorem setLane_now (s : State) (q : Nat) (v : Lane) : (setLane s q v).now = s.now := rfl
@[simp] theorem modLane_pending (s : State) (q : Nat) (f : Lane → Lane) : (modLane s q f).pending = s.pending := rfl
@[simp] theorem modLane_variant (s : State) (q : Nat) (f : Lane → Lane) : (modLane s q f).variant = s.variant := rfl
@[simp] theorem modLane_freeCtr (s : State) (q : Nat) (f : Lane → Lane) : (modLane s q f).freeCtr = s.freeCtr := rfl
@[simp] theorem modLane_regs (s : State) (q : Nat) (f : Lane → Lane) : (modLane s q f).regs = s.regs := rfl
@[simp] theorem modLane_out (s : State) (q : Nat) (f : Lane → Lane) : (modLane s q f).out = s.out := rfl
@[simp] theorem modLane_boot (s : State) (q : Nat) (f : Lane → Lane) : (modLane s q f).boot = s.boot := rfl
@[simp] theorem modLane_pwr (s : State) (q : Nat) (f : Lane → Lane) : (modLane s q f).pwr = s.pwr := rfl
@[simp] theorem modLane_opt (s : State) (q : Nat) (f : Lane → Lane) : (modLane s q f).opt = s.opt := rfl
@[simp] theorem modLane_sw (s : State) (q : Nat) (f : Lane → Lane) : (modLane s q f).sw = s.sw := rfl
@[simp] theorem modLane_tbl (s : State) (q : Nat) (f : Lane → Lane) : (modLane s q f).tbl = s.tbl := rfl
@[simp] theorem modLane_cru (s : State) (q : Nat) (f : Lane → Lane) : (modLane s q f).cru = s.cru := rfl
@[simp] theorem modLane_plan (s : State) (q : Nat) (f : Lane → Lane) : (modLane s q f).plan = s.plan := rfl
@[simp] theorem modLane_coll (s : State) (q : Nat) (f : Lane → Lane) : (modLane s q f).coll = s.coll := rfl
@[simp] theorem modLane_mem (s : State) (q : Nat) (f : Lane → Lane) : (modLane s q f).mem = s.mem := rfl
@[simp] theorem modLane_tim (s : State) (q : Nat) (f : Lane → Lane) : (modLane s q f).tim = s.tim := rfl
@[simp] theorem modLane_hif (s : State) (q : Nat) (f : Lane → Lane) : (modLane s q f).hif = s.hif := rfl
@[simp] theorem modLane_hlt (s : State) (q : Nat) (f : Lane → Lane) : (modLane s q f).hlt = s.hlt := rfl
@[simp] theorem modLane_cnt (s : State) (q : Nat) (f : Lane → Lane) : (modLane s q f).cnt = s.cnt := rfl
@[simp] theorem modLane_now (s : State) (q : Nat) (f : Lane → Lane) : (modLane s q f).now = s.now := rfl
@[simp] theorem setRing_pending (s : State) (k : RingKind) (i : Nat) (r : Ring) : (setRing s k i r).pending = s.pending := rfl
@[simp] theorem setRing_variant (s : State) (k : RingKind) (i : Nat) (r : Ring) : (setRing s k i r).variant = s.variant := rfl
@[simp] theorem setRing_freeCtr (s : State) (k : RingKind) (i : Nat) (r : Ring) : (setRing s k i r).freeCtr = s.freeCtr := rfl
@[simp] theorem setRing_regs (s : State) (k : RingKind) (i : Nat) (r : Ring) : (setRing s k i r).regs = s.regs := rfl
@[simp] theorem setRing_out (s : State) (k : RingKind) (i : Nat) (r : Ring) : (setRing s k i r).out = s.out := rfl
@[simp] theorem setRing_boot (s : State) (k : RingKind) (i : Nat) (r : Ring) : (setRing s k i r).boot = s.boot := rfl
@[simp] theorem setRing_pwr (s : State) (k : RingKind) (i : Nat) (r : Ring) : (setRing s k i r).pwr = s.pwr := rfl
@[simp] theorem setRing_opt (s : State) (k : RingKind) (i : Nat) (r : Ring) : (setRing s k i r).opt = s.opt := rfl
@[simp] theorem setRing_lnk (s : State) (k : RingKind) (i : Nat) (r : Ring) : (setRing s k i r).lnk = s.lnk := rfl
@[simp] theorem setRing_sw (s : State) (k : RingKind) (i : Nat) (r : Ring) : (setRing s k i r).sw = s.sw := rfl
@[simp] theorem setRing_tbl (s : State) (k : RingKind) (i : Nat) (r : Ring) : (setRing s k i r).tbl = s.tbl := rfl
@[simp] theorem setRing_cru (s : State) (k : RingKind) (i : Nat) (r : Ring) : (setRing s k i r).cru = s.cru := rfl
@[simp] theorem setRing_plan (s : State) (k : RingKind) (i : Nat) (r : Ring) : (setRing s k i r).plan = s.plan := rfl
@[simp] theorem setRing_coll (s : State) (k : RingKind) (i : Nat) (r : Ring) : (setRing s k i r).coll = s.coll := rfl
@[simp] theorem setRing_mem (s : State) (k : RingKind) (i : Nat) (r : Ring) : (setRing s k i r).mem = s.mem := rfl
@[simp] theorem setRing_tim (s : State) (k : RingKind) (i : Nat) (r : Ring) : (setRing s k i r).tim = s.tim := rfl
@[simp] theorem setRing_hlt (s : State) (k : RingKind) (i : Nat) (r : Ring) : (setRing s k i r).hlt = s.hlt := rfl
@[simp] theorem setRing_cnt (s : State) (k : RingKind) (i : Nat) (r : Ring) : (setRing s k i r).cnt = s.cnt := rfl
@[simp] theorem setRing_now (s : State) (k : RingKind) (i : Nat) (r : Ring) : (setRing s k i r).now = s.now := rfl
@[simp] theorem modRing_pending (s : State) (k : RingKind) (i : Nat) (f : Ring → Ring) : (modRing s k i f).pending = s.pending := rfl
@[simp] theorem modRing_variant (s : State) (k : RingKind) (i : Nat) (f : Ring → Ring) : (modRing s k i f).variant = s.variant := rfl
@[simp] theorem modRing_freeCtr (s : State) (k : RingKind) (i : Nat) (f : Ring → Ring) : (modRing s k i f).freeCtr = s.freeCtr := rfl
@[simp] theorem modRing_regs (s : State) (k : RingKind) (i : Nat) (f : Ring → Ring) : (modRing s k i f).regs = s.regs := rfl
@[simp] theorem modRing_out (s : State) (k : RingKind) (i : Nat) (f : Ring → Ring) : (modRing s k i f).out = s.out := rfl
@[simp] theorem modRing_boot (s : State) (k : RingKind) (i : Nat) (f : Ring → Ring) : (modRing s k i f).boot = s.boot := rfl
@[simp] theorem modRing_pwr (s : State) (k : RingKind) (i : Nat) (f : Ring → Ring) : (modRing s k i f).pwr = s.pwr := rfl
@[simp] theorem modRing_opt (s : State) (k : RingKind) (i : Nat) (f : Ring → Ring) : (modRing s k i f).opt = s.opt := rfl
@[simp] theorem modRing_lnk (s : State) (k : RingKind) (i : Nat) (f : Ring → Ring) : (modRing s k i f).lnk = s.lnk := rfl
@[simp] theorem modRing_sw (s : State) (k : RingKind) (i : Nat) (f : Ring → Ring) : (modRing s k i f).sw = s.sw := rfl
@[simp] theorem modRing_tbl (s : State) (k : RingKind) (i : Nat) (f : Ring → Ring) : (modRing s k i f).tbl = s.tbl := rfl
@[simp] theorem modRing_cru (s : State) (k : RingKind) (i : Nat) (f : Ring → Ring) : (modRing s k i f).cru = s.cru := rfl
@[simp] theorem modRing_plan (s : State) (k : RingKind) (i : Nat) (f : Ring → Ring) : (modRing s k i f).plan = s.plan := rfl
@[simp] theorem modRing_coll (s : State) (k : RingKind) (i : Nat) (f : Ring → Ring) : (modRing s k i f).coll = s.coll := rfl
@[simp] theorem modRing_mem (s : State) (k : RingKind) (i : Nat) (f : Ring → Ring) : (modRing s k i f).mem = s.mem := rfl
@[simp] theorem modRing_tim (s : State) (k : RingKind) (i : Nat) (f : Ring → Ring) : (modRing s k i f).tim = s.tim := rfl
@[simp] theorem modRing_hlt (s : State) (k : RingKind) (i : Nat) (f : Ring → Ring) : (modRing s k i f).hlt = s.hlt := rfl
@[simp] theorem modRing_cnt (s : State) (k : RingKind) (i : Nat) (f : Ring → Ring) : (modRing s k i f).cnt = s.cnt := rfl
@[simp] theorem modRing_now (s : State) (k : RingKind) (i : Nat) (f : Ring → Ring) : (modRing s k i f).now = s.now := rfl
@[simp] theorem setMsixWord_pending (s : State) (k : Nat) (v : Word) : (setMsixWord s k v).pending = s.pending := rfl
@[simp] theorem setMsixWord_variant (s : State) (k : Nat) (v : Word) : (setMsixWord s k v).variant = s.variant := rfl
@[simp] theorem setMsixWord_freeCtr (s : State) (k : Nat) (v : Word) : (setMsixWord s k v).freeCtr = s.freeCtr := rfl
@[simp] theorem setMsixWord_regs (s : State) (k : Nat) (v : Word) : (setMsixWord s k v).regs = s.regs := rfl
@[simp] theorem setMsixWord_out (s : State) (k : Nat) (v : Word) : (setMsixWord s k v).out = s.out := rfl
@[simp] theorem setMsixWord_boot (s : State) (k : Nat) (v : Word) : (setMsixWord s k v).boot = s.boot := rfl
@[simp] theorem setMsixWord_pwr (s : State) (k : Nat) (v : Word) : (setMsixWord s k v).pwr = s.pwr := rfl
@[simp] theorem setMsixWord_opt (s : State) (k : Nat) (v : Word) : (setMsixWord s k v).opt = s.opt := rfl
@[simp] theorem setMsixWord_lnk (s : State) (k : Nat) (v : Word) : (setMsixWord s k v).lnk = s.lnk := rfl
@[simp] theorem setMsixWord_sw (s : State) (k : Nat) (v : Word) : (setMsixWord s k v).sw = s.sw := rfl
@[simp] theorem setMsixWord_tbl (s : State) (k : Nat) (v : Word) : (setMsixWord s k v).tbl = s.tbl := rfl
@[simp] theorem setMsixWord_cru (s : State) (k : Nat) (v : Word) : (setMsixWord s k v).cru = s.cru := rfl
@[simp] theorem setMsixWord_plan (s : State) (k : Nat) (v : Word) : (setMsixWord s k v).plan = s.plan := rfl
@[simp] theorem setMsixWord_coll (s : State) (k : Nat) (v : Word) : (setMsixWord s k v).coll = s.coll := rfl
@[simp] theorem setMsixWord_mem (s : State) (k : Nat) (v : Word) : (setMsixWord s k v).mem = s.mem := rfl
@[simp] theorem setMsixWord_tim (s : State) (k : Nat) (v : Word) : (setMsixWord s k v).tim = s.tim := rfl
@[simp] theorem setMsixWord_hlt (s : State) (k : Nat) (v : Word) : (setMsixWord s k v).hlt = s.hlt := rfl
@[simp] theorem setMsixWord_cnt (s : State) (k : Nat) (v : Word) : (setMsixWord s k v).cnt = s.cnt := rfl
@[simp] theorem setMsixWord_now (s : State) (k : Nat) (v : Word) : (setMsixWord s k v).now = s.now := rfl
@[simp] theorem setPba_pending (s : State) (k : Nat) (b : Bool) : (setPba s k b).pending = s.pending := rfl
@[simp] theorem setPba_variant (s : State) (k : Nat) (b : Bool) : (setPba s k b).variant = s.variant := rfl
@[simp] theorem setPba_freeCtr (s : State) (k : Nat) (b : Bool) : (setPba s k b).freeCtr = s.freeCtr := rfl
@[simp] theorem setPba_regs (s : State) (k : Nat) (b : Bool) : (setPba s k b).regs = s.regs := rfl
@[simp] theorem setPba_out (s : State) (k : Nat) (b : Bool) : (setPba s k b).out = s.out := rfl
@[simp] theorem setPba_boot (s : State) (k : Nat) (b : Bool) : (setPba s k b).boot = s.boot := rfl
@[simp] theorem setPba_pwr (s : State) (k : Nat) (b : Bool) : (setPba s k b).pwr = s.pwr := rfl
@[simp] theorem setPba_opt (s : State) (k : Nat) (b : Bool) : (setPba s k b).opt = s.opt := rfl
@[simp] theorem setPba_lnk (s : State) (k : Nat) (b : Bool) : (setPba s k b).lnk = s.lnk := rfl
@[simp] theorem setPba_sw (s : State) (k : Nat) (b : Bool) : (setPba s k b).sw = s.sw := rfl
@[simp] theorem setPba_tbl (s : State) (k : Nat) (b : Bool) : (setPba s k b).tbl = s.tbl := rfl
@[simp] theorem setPba_cru (s : State) (k : Nat) (b : Bool) : (setPba s k b).cru = s.cru := rfl
@[simp] theorem setPba_plan (s : State) (k : Nat) (b : Bool) : (setPba s k b).plan = s.plan := rfl
@[simp] theorem setPba_coll (s : State) (k : Nat) (b : Bool) : (setPba s k b).coll = s.coll := rfl
@[simp] theorem setPba_mem (s : State) (k : Nat) (b : Bool) : (setPba s k b).mem = s.mem := rfl
@[simp] theorem setPba_tim (s : State) (k : Nat) (b : Bool) : (setPba s k b).tim = s.tim := rfl
@[simp] theorem setPba_hlt (s : State) (k : Nat) (b : Bool) : (setPba s k b).hlt = s.hlt := rfl
@[simp] theorem setPba_cnt (s : State) (k : Nat) (b : Bool) : (setPba s k b).cnt = s.cnt := rfl
@[simp] theorem setPba_now (s : State) (k : Nat) (b : Bool) : (setPba s k b).now = s.now := rfl
@[simp] theorem bumpN_pending (s : State) (i : Nat) (n : Nat) : (bumpN s i n).pending = s.pending := rfl
@[simp] theorem bumpN_variant (s : State) (i : Nat) (n : Nat) : (bumpN s i n).variant = s.variant := rfl
@[simp] theorem bumpN_freeCtr (s : State) (i : Nat) (n : Nat) : (bumpN s i n).freeCtr = s.freeCtr := rfl
@[simp] theorem bumpN_regs (s : State) (i : Nat) (n : Nat) : (bumpN s i n).regs = s.regs := rfl
@[simp] theorem bumpN_out (s : State) (i : Nat) (n : Nat) : (bumpN s i n).out = s.out := rfl
@[simp] theorem bumpN_boot (s : State) (i : Nat) (n : Nat) : (bumpN s i n).boot = s.boot := rfl
@[simp] theorem bumpN_pwr (s : State) (i : Nat) (n : Nat) : (bumpN s i n).pwr = s.pwr := rfl
@[simp] theorem bumpN_opt (s : State) (i : Nat) (n : Nat) : (bumpN s i n).opt = s.opt := rfl
@[simp] theorem bumpN_lnk (s : State) (i : Nat) (n : Nat) : (bumpN s i n).lnk = s.lnk := rfl
@[simp] theorem bumpN_sw (s : State) (i : Nat) (n : Nat) : (bumpN s i n).sw = s.sw := rfl
@[simp] theorem bumpN_tbl (s : State) (i : Nat) (n : Nat) : (bumpN s i n).tbl = s.tbl := rfl
@[simp] theorem bumpN_cru (s : State) (i : Nat) (n : Nat) : (bumpN s i n).cru = s.cru := rfl
@[simp] theorem bumpN_plan (s : State) (i : Nat) (n : Nat) : (bumpN s i n).plan = s.plan := rfl
@[simp] theorem bumpN_coll (s : State) (i : Nat) (n : Nat) : (bumpN s i n).coll = s.coll := rfl
@[simp] theorem bumpN_mem (s : State) (i : Nat) (n : Nat) : (bumpN s i n).mem = s.mem := rfl
@[simp] theorem bumpN_tim (s : State) (i : Nat) (n : Nat) : (bumpN s i n).tim = s.tim := rfl
@[simp] theorem bumpN_hif (s : State) (i : Nat) (n : Nat) : (bumpN s i n).hif = s.hif := rfl
@[simp] theorem bumpN_hlt (s : State) (i : Nat) (n : Nat) : (bumpN s i n).hlt = s.hlt := rfl
@[simp] theorem bumpN_now (s : State) (i : Nat) (n : Nat) : (bumpN s i n).now = s.now := rfl
@[simp] theorem bump_pending (s : State) (i : Nat) : (bump s i).pending = s.pending := rfl
@[simp] theorem bump_variant (s : State) (i : Nat) : (bump s i).variant = s.variant := rfl
@[simp] theorem bump_freeCtr (s : State) (i : Nat) : (bump s i).freeCtr = s.freeCtr := rfl
@[simp] theorem bump_regs (s : State) (i : Nat) : (bump s i).regs = s.regs := rfl
@[simp] theorem bump_out (s : State) (i : Nat) : (bump s i).out = s.out := rfl
@[simp] theorem bump_boot (s : State) (i : Nat) : (bump s i).boot = s.boot := rfl
@[simp] theorem bump_pwr (s : State) (i : Nat) : (bump s i).pwr = s.pwr := rfl
@[simp] theorem bump_opt (s : State) (i : Nat) : (bump s i).opt = s.opt := rfl
@[simp] theorem bump_lnk (s : State) (i : Nat) : (bump s i).lnk = s.lnk := rfl
@[simp] theorem bump_sw (s : State) (i : Nat) : (bump s i).sw = s.sw := rfl
@[simp] theorem bump_tbl (s : State) (i : Nat) : (bump s i).tbl = s.tbl := rfl
@[simp] theorem bump_cru (s : State) (i : Nat) : (bump s i).cru = s.cru := rfl
@[simp] theorem bump_plan (s : State) (i : Nat) : (bump s i).plan = s.plan := rfl
@[simp] theorem bump_coll (s : State) (i : Nat) : (bump s i).coll = s.coll := rfl
@[simp] theorem bump_mem (s : State) (i : Nat) : (bump s i).mem = s.mem := rfl
@[simp] theorem bump_tim (s : State) (i : Nat) : (bump s i).tim = s.tim := rfl
@[simp] theorem bump_hif (s : State) (i : Nat) : (bump s i).hif = s.hif := rfl
@[simp] theorem bump_hlt (s : State) (i : Nat) : (bump s i).hlt = s.hlt := rfl
@[simp] theorem bump_now (s : State) (i : Nat) : (bump s i).now = s.now := rfl
@[simp] theorem countEvent_pending (s : State) (code : Nat) : (countEvent s code).pending = s.pending := rfl
@[simp] theorem countEvent_variant (s : State) (code : Nat) : (countEvent s code).variant = s.variant := rfl
@[simp] theorem countEvent_freeCtr (s : State) (code : Nat) : (countEvent s code).freeCtr = s.freeCtr := rfl
@[simp] theorem countEvent_regs (s : State) (code : Nat) : (countEvent s code).regs = s.regs := rfl
@[simp] theorem countEvent_out (s : State) (code : Nat) : (countEvent s code).out = s.out := rfl
@[simp] theorem countEvent_boot (s : State) (code : Nat) : (countEvent s code).boot = s.boot := rfl
@[simp] theorem countEvent_pwr (s : State) (code : Nat) : (countEvent s code).pwr = s.pwr := rfl
@[simp] theorem countEvent_opt (s : State) (code : Nat) : (countEvent s code).opt = s.opt := rfl
@[simp] theorem countEvent_lnk (s : State) (code : Nat) : (countEvent s code).lnk = s.lnk := rfl
@[simp] theorem countEvent_sw (s : State) (code : Nat) : (countEvent s code).sw = s.sw := rfl
@[simp] theorem countEvent_tbl (s : State) (code : Nat) : (countEvent s code).tbl = s.tbl := rfl
@[simp] theorem countEvent_cru (s : State) (code : Nat) : (countEvent s code).cru = s.cru := rfl
@[simp] theorem countEvent_plan (s : State) (code : Nat) : (countEvent s code).plan = s.plan := rfl
@[simp] theorem countEvent_coll (s : State) (code : Nat) : (countEvent s code).coll = s.coll := rfl
@[simp] theorem countEvent_mem (s : State) (code : Nat) : (countEvent s code).mem = s.mem := rfl
@[simp] theorem countEvent_tim (s : State) (code : Nat) : (countEvent s code).tim = s.tim := rfl
@[simp] theorem countEvent_hif (s : State) (code : Nat) : (countEvent s code).hif = s.hif := rfl
@[simp] theorem countEvent_hlt (s : State) (code : Nat) : (countEvent s code).hlt = s.hlt := rfl
@[simp] theorem countEvent_now (s : State) (code : Nat) : (countEvent s code).now = s.now := rfl
@[simp] theorem setChan_pending (s : State) (d : Dir) (k : Nat) (c : Chan) : (setChan s d k c).pending = s.pending := by cases d <;> rfl
@[simp] theorem setChan_variant (s : State) (d : Dir) (k : Nat) (c : Chan) : (setChan s d k c).variant = s.variant := by cases d <;> rfl
@[simp] theorem setChan_freeCtr (s : State) (d : Dir) (k : Nat) (c : Chan) : (setChan s d k c).freeCtr = s.freeCtr := by cases d <;> rfl
@[simp] theorem setChan_regs (s : State) (d : Dir) (k : Nat) (c : Chan) : (setChan s d k c).regs = s.regs := by cases d <;> rfl
@[simp] theorem setChan_out (s : State) (d : Dir) (k : Nat) (c : Chan) : (setChan s d k c).out = s.out := by cases d <;> rfl
@[simp] theorem setChan_boot (s : State) (d : Dir) (k : Nat) (c : Chan) : (setChan s d k c).boot = s.boot := by cases d <;> rfl
@[simp] theorem setChan_pwr (s : State) (d : Dir) (k : Nat) (c : Chan) : (setChan s d k c).pwr = s.pwr := by cases d <;> rfl
@[simp] theorem setChan_lnk (s : State) (d : Dir) (k : Nat) (c : Chan) : (setChan s d k c).lnk = s.lnk := by cases d <;> rfl
@[simp] theorem setChan_sw (s : State) (d : Dir) (k : Nat) (c : Chan) : (setChan s d k c).sw = s.sw := by cases d <;> rfl
@[simp] theorem setChan_tbl (s : State) (d : Dir) (k : Nat) (c : Chan) : (setChan s d k c).tbl = s.tbl := by cases d <;> rfl
@[simp] theorem setChan_cru (s : State) (d : Dir) (k : Nat) (c : Chan) : (setChan s d k c).cru = s.cru := by cases d <;> rfl
@[simp] theorem setChan_plan (s : State) (d : Dir) (k : Nat) (c : Chan) : (setChan s d k c).plan = s.plan := by cases d <;> rfl
@[simp] theorem setChan_coll (s : State) (d : Dir) (k : Nat) (c : Chan) : (setChan s d k c).coll = s.coll := by cases d <;> rfl
@[simp] theorem setChan_mem (s : State) (d : Dir) (k : Nat) (c : Chan) : (setChan s d k c).mem = s.mem := by cases d <;> rfl
@[simp] theorem setChan_tim (s : State) (d : Dir) (k : Nat) (c : Chan) : (setChan s d k c).tim = s.tim := by cases d <;> rfl
@[simp] theorem setChan_hif (s : State) (d : Dir) (k : Nat) (c : Chan) : (setChan s d k c).hif = s.hif := by cases d <;> rfl
@[simp] theorem setChan_hlt (s : State) (d : Dir) (k : Nat) (c : Chan) : (setChan s d k c).hlt = s.hlt := by cases d <;> rfl
@[simp] theorem setChan_cnt (s : State) (d : Dir) (k : Nat) (c : Chan) : (setChan s d k c).cnt = s.cnt := by cases d <;> rfl
@[simp] theorem setChan_now (s : State) (d : Dir) (k : Nat) (c : Chan) : (setChan s d k c).now = s.now := by cases d <;> rfl
@[simp] theorem modChan_pending (s : State) (d : Dir) (k : Nat) (f : Chan → Chan) : (modChan s d k f).pending = s.pending := by cases d <;> rfl
@[simp] theorem modChan_variant (s : State) (d : Dir) (k : Nat) (f : Chan → Chan) : (modChan s d k f).variant = s.variant := by cases d <;> rfl
@[simp] theorem modChan_freeCtr (s : State) (d : Dir) (k : Nat) (f : Chan → Chan) : (modChan s d k f).freeCtr = s.freeCtr := by cases d <;> rfl
@[simp] theorem modChan_regs (s : State) (d : Dir) (k : Nat) (f : Chan → Chan) : (modChan s d k f).regs = s.regs := by cases d <;> rfl
@[simp] theorem modChan_out (s : State) (d : Dir) (k : Nat) (f : Chan → Chan) : (modChan s d k f).out = s.out := by cases d <;> rfl
@[simp] theorem modChan_boot (s : State) (d : Dir) (k : Nat) (f : Chan → Chan) : (modChan s d k f).boot = s.boot := by cases d <;> rfl
@[simp] theorem modChan_pwr (s : State) (d : Dir) (k : Nat) (f : Chan → Chan) : (modChan s d k f).pwr = s.pwr := by cases d <;> rfl
@[simp] theorem modChan_lnk (s : State) (d : Dir) (k : Nat) (f : Chan → Chan) : (modChan s d k f).lnk = s.lnk := by cases d <;> rfl
@[simp] theorem modChan_sw (s : State) (d : Dir) (k : Nat) (f : Chan → Chan) : (modChan s d k f).sw = s.sw := by cases d <;> rfl
@[simp] theorem modChan_tbl (s : State) (d : Dir) (k : Nat) (f : Chan → Chan) : (modChan s d k f).tbl = s.tbl := by cases d <;> rfl
@[simp] theorem modChan_cru (s : State) (d : Dir) (k : Nat) (f : Chan → Chan) : (modChan s d k f).cru = s.cru := by cases d <;> rfl
@[simp] theorem modChan_plan (s : State) (d : Dir) (k : Nat) (f : Chan → Chan) : (modChan s d k f).plan = s.plan := by cases d <;> rfl
@[simp] theorem modChan_coll (s : State) (d : Dir) (k : Nat) (f : Chan → Chan) : (modChan s d k f).coll = s.coll := by cases d <;> rfl
@[simp] theorem modChan_mem (s : State) (d : Dir) (k : Nat) (f : Chan → Chan) : (modChan s d k f).mem = s.mem := by cases d <;> rfl
@[simp] theorem modChan_tim (s : State) (d : Dir) (k : Nat) (f : Chan → Chan) : (modChan s d k f).tim = s.tim := by cases d <;> rfl
@[simp] theorem modChan_hif (s : State) (d : Dir) (k : Nat) (f : Chan → Chan) : (modChan s d k f).hif = s.hif := by cases d <;> rfl
@[simp] theorem modChan_hlt (s : State) (d : Dir) (k : Nat) (f : Chan → Chan) : (modChan s d k f).hlt = s.hlt := by cases d <;> rfl
@[simp] theorem modChan_cnt (s : State) (d : Dir) (k : Nat) (f : Chan → Chan) : (modChan s d k f).cnt = s.cnt := by cases d <;> rfl
@[simp] theorem modChan_now (s : State) (d : Dir) (k : Nat) (f : Chan → Chan) : (modChan s d k f).now = s.now := by cases d <;> rfl
@[simp] theorem journalNote_pending (s : State) (w : Word) : (journalNote s w).pending = s.pending := rfl
@[simp] theorem journalNote_variant (s : State) (w : Word) : (journalNote s w).variant = s.variant := rfl
@[simp] theorem journalNote_freeCtr (s : State) (w : Word) : (journalNote s w).freeCtr = s.freeCtr := rfl
@[simp] theorem journalNote_regs (s : State) (w : Word) : (journalNote s w).regs = s.regs := rfl
@[simp] theorem journalNote_out (s : State) (w : Word) : (journalNote s w).out = s.out := rfl
@[simp] theorem journalNote_pwr (s : State) (w : Word) : (journalNote s w).pwr = s.pwr := rfl
@[simp] theorem journalNote_opt (s : State) (w : Word) : (journalNote s w).opt = s.opt := rfl
@[simp] theorem journalNote_lnk (s : State) (w : Word) : (journalNote s w).lnk = s.lnk := rfl
@[simp] theorem journalNote_sw (s : State) (w : Word) : (journalNote s w).sw = s.sw := rfl
@[simp] theorem journalNote_tbl (s : State) (w : Word) : (journalNote s w).tbl = s.tbl := rfl
@[simp] theorem journalNote_cru (s : State) (w : Word) : (journalNote s w).cru = s.cru := rfl
@[simp] theorem journalNote_plan (s : State) (w : Word) : (journalNote s w).plan = s.plan := rfl
@[simp] theorem journalNote_coll (s : State) (w : Word) : (journalNote s w).coll = s.coll := rfl
@[simp] theorem journalNote_mem (s : State) (w : Word) : (journalNote s w).mem = s.mem := rfl
@[simp] theorem journalNote_tim (s : State) (w : Word) : (journalNote s w).tim = s.tim := rfl
@[simp] theorem journalNote_hif (s : State) (w : Word) : (journalNote s w).hif = s.hif := rfl
@[simp] theorem journalNote_hlt (s : State) (w : Word) : (journalNote s w).hlt = s.hlt := rfl
@[simp] theorem journalNote_cnt (s : State) (w : Word) : (journalNote s w).cnt = s.cnt := rfl
@[simp] theorem journalNote_now (s : State) (w : Word) : (journalNote s w).now = s.now := rfl
@[simp] theorem journalChan_pending (s : State) (kind : Nat) (k : Nat) (colour : Nat) (serves : Nat) : (journalChan s kind k colour serves).pending = s.pending := rfl
@[simp] theorem journalChan_variant (s : State) (kind : Nat) (k : Nat) (colour : Nat) (serves : Nat) : (journalChan s kind k colour serves).variant = s.variant := rfl
@[simp] theorem journalChan_freeCtr (s : State) (kind : Nat) (k : Nat) (colour : Nat) (serves : Nat) : (journalChan s kind k colour serves).freeCtr = s.freeCtr := rfl
@[simp] theorem journalChan_regs (s : State) (kind : Nat) (k : Nat) (colour : Nat) (serves : Nat) : (journalChan s kind k colour serves).regs = s.regs := rfl
@[simp] theorem journalChan_out (s : State) (kind : Nat) (k : Nat) (colour : Nat) (serves : Nat) : (journalChan s kind k colour serves).out = s.out := rfl
@[simp] theorem journalChan_pwr (s : State) (kind : Nat) (k : Nat) (colour : Nat) (serves : Nat) : (journalChan s kind k colour serves).pwr = s.pwr := rfl
@[simp] theorem journalChan_opt (s : State) (kind : Nat) (k : Nat) (colour : Nat) (serves : Nat) : (journalChan s kind k colour serves).opt = s.opt := rfl
@[simp] theorem journalChan_lnk (s : State) (kind : Nat) (k : Nat) (colour : Nat) (serves : Nat) : (journalChan s kind k colour serves).lnk = s.lnk := rfl
@[simp] theorem journalChan_sw (s : State) (kind : Nat) (k : Nat) (colour : Nat) (serves : Nat) : (journalChan s kind k colour serves).sw = s.sw := rfl
@[simp] theorem journalChan_tbl (s : State) (kind : Nat) (k : Nat) (colour : Nat) (serves : Nat) : (journalChan s kind k colour serves).tbl = s.tbl := rfl
@[simp] theorem journalChan_cru (s : State) (kind : Nat) (k : Nat) (colour : Nat) (serves : Nat) : (journalChan s kind k colour serves).cru = s.cru := rfl
@[simp] theorem journalChan_plan (s : State) (kind : Nat) (k : Nat) (colour : Nat) (serves : Nat) : (journalChan s kind k colour serves).plan = s.plan := rfl
@[simp] theorem journalChan_coll (s : State) (kind : Nat) (k : Nat) (colour : Nat) (serves : Nat) : (journalChan s kind k colour serves).coll = s.coll := rfl
@[simp] theorem journalChan_mem (s : State) (kind : Nat) (k : Nat) (colour : Nat) (serves : Nat) : (journalChan s kind k colour serves).mem = s.mem := rfl
@[simp] theorem journalChan_tim (s : State) (kind : Nat) (k : Nat) (colour : Nat) (serves : Nat) : (journalChan s kind k colour serves).tim = s.tim := rfl
@[simp] theorem journalChan_hif (s : State) (kind : Nat) (k : Nat) (colour : Nat) (serves : Nat) : (journalChan s kind k colour serves).hif = s.hif := rfl
@[simp] theorem journalChan_hlt (s : State) (kind : Nat) (k : Nat) (colour : Nat) (serves : Nat) : (journalChan s kind k colour serves).hlt = s.hlt := rfl
@[simp] theorem journalChan_cnt (s : State) (kind : Nat) (k : Nat) (colour : Nat) (serves : Nat) : (journalChan s kind k colour serves).cnt = s.cnt := rfl
@[simp] theorem journalChan_now (s : State) (kind : Nat) (k : Nat) (colour : Nat) (serves : Nat) : (journalChan s kind k colour serves).now = s.now := rfl
@[simp] theorem setSwap_pending (s : State) (d : Dir) (q : Nat) (w : Swap) : (setSwap s d q w).pending = s.pending := by cases d <;> rfl
@[simp] theorem setSwap_variant (s : State) (d : Dir) (q : Nat) (w : Swap) : (setSwap s d q w).variant = s.variant := by cases d <;> rfl
@[simp] theorem setSwap_freeCtr (s : State) (d : Dir) (q : Nat) (w : Swap) : (setSwap s d q w).freeCtr = s.freeCtr := by cases d <;> rfl
@[simp] theorem setSwap_regs (s : State) (d : Dir) (q : Nat) (w : Swap) : (setSwap s d q w).regs = s.regs := by cases d <;> rfl
@[simp] theorem setSwap_out (s : State) (d : Dir) (q : Nat) (w : Swap) : (setSwap s d q w).out = s.out := by cases d <;> rfl
@[simp] theorem setSwap_boot (s : State) (d : Dir) (q : Nat) (w : Swap) : (setSwap s d q w).boot = s.boot := by cases d <;> rfl
@[simp] theorem setSwap_pwr (s : State) (d : Dir) (q : Nat) (w : Swap) : (setSwap s d q w).pwr = s.pwr := by cases d <;> rfl
@[simp] theorem setSwap_lnk (s : State) (d : Dir) (q : Nat) (w : Swap) : (setSwap s d q w).lnk = s.lnk := by cases d <;> rfl
@[simp] theorem setSwap_sw (s : State) (d : Dir) (q : Nat) (w : Swap) : (setSwap s d q w).sw = s.sw := by cases d <;> rfl
@[simp] theorem setSwap_tbl (s : State) (d : Dir) (q : Nat) (w : Swap) : (setSwap s d q w).tbl = s.tbl := by cases d <;> rfl
@[simp] theorem setSwap_cru (s : State) (d : Dir) (q : Nat) (w : Swap) : (setSwap s d q w).cru = s.cru := by cases d <;> rfl
@[simp] theorem setSwap_plan (s : State) (d : Dir) (q : Nat) (w : Swap) : (setSwap s d q w).plan = s.plan := by cases d <;> rfl
@[simp] theorem setSwap_coll (s : State) (d : Dir) (q : Nat) (w : Swap) : (setSwap s d q w).coll = s.coll := by cases d <;> rfl
@[simp] theorem setSwap_mem (s : State) (d : Dir) (q : Nat) (w : Swap) : (setSwap s d q w).mem = s.mem := by cases d <;> rfl
@[simp] theorem setSwap_tim (s : State) (d : Dir) (q : Nat) (w : Swap) : (setSwap s d q w).tim = s.tim := by cases d <;> rfl
@[simp] theorem setSwap_hif (s : State) (d : Dir) (q : Nat) (w : Swap) : (setSwap s d q w).hif = s.hif := by cases d <;> rfl
@[simp] theorem setSwap_hlt (s : State) (d : Dir) (q : Nat) (w : Swap) : (setSwap s d q w).hlt = s.hlt := by cases d <;> rfl
@[simp] theorem setSwap_cnt (s : State) (d : Dir) (q : Nat) (w : Swap) : (setSwap s d q w).cnt = s.cnt := by cases d <;> rfl
@[simp] theorem setSwap_now (s : State) (d : Dir) (q : Nat) (w : Swap) : (setSwap s d q w).now = s.now := by cases d <;> rfl
@[simp] theorem setEngine_pending (s : State) (n : Nat) (e : Engine) : (setEngine s n e).pending = s.pending := rfl
@[simp] theorem setEngine_variant (s : State) (n : Nat) (e : Engine) : (setEngine s n e).variant = s.variant := rfl
@[simp] theorem setEngine_freeCtr (s : State) (n : Nat) (e : Engine) : (setEngine s n e).freeCtr = s.freeCtr := rfl
@[simp] theorem setEngine_regs (s : State) (n : Nat) (e : Engine) : (setEngine s n e).regs = s.regs := rfl
@[simp] theorem setEngine_out (s : State) (n : Nat) (e : Engine) : (setEngine s n e).out = s.out := rfl
@[simp] theorem setEngine_boot (s : State) (n : Nat) (e : Engine) : (setEngine s n e).boot = s.boot := rfl
@[simp] theorem setEngine_pwr (s : State) (n : Nat) (e : Engine) : (setEngine s n e).pwr = s.pwr := rfl
@[simp] theorem setEngine_lnk (s : State) (n : Nat) (e : Engine) : (setEngine s n e).lnk = s.lnk := rfl
@[simp] theorem setEngine_sw (s : State) (n : Nat) (e : Engine) : (setEngine s n e).sw = s.sw := rfl
@[simp] theorem setEngine_tbl (s : State) (n : Nat) (e : Engine) : (setEngine s n e).tbl = s.tbl := rfl
@[simp] theorem setEngine_cru (s : State) (n : Nat) (e : Engine) : (setEngine s n e).cru = s.cru := rfl
@[simp] theorem setEngine_plan (s : State) (n : Nat) (e : Engine) : (setEngine s n e).plan = s.plan := rfl
@[simp] theorem setEngine_coll (s : State) (n : Nat) (e : Engine) : (setEngine s n e).coll = s.coll := rfl
@[simp] theorem setEngine_mem (s : State) (n : Nat) (e : Engine) : (setEngine s n e).mem = s.mem := rfl
@[simp] theorem setEngine_tim (s : State) (n : Nat) (e : Engine) : (setEngine s n e).tim = s.tim := rfl
@[simp] theorem setEngine_hif (s : State) (n : Nat) (e : Engine) : (setEngine s n e).hif = s.hif := rfl
@[simp] theorem setEngine_hlt (s : State) (n : Nat) (e : Engine) : (setEngine s n e).hlt = s.hlt := rfl
@[simp] theorem setEngine_cnt (s : State) (n : Nat) (e : Engine) : (setEngine s n e).cnt = s.cnt := rfl
@[simp] theorem setEngine_now (s : State) (n : Nat) (e : Engine) : (setEngine s n e).now = s.now := rfl
@[simp] theorem modEngine_pending (s : State) (n : Nat) (f : Engine → Engine) : (modEngine s n f).pending = s.pending := rfl
@[simp] theorem modEngine_variant (s : State) (n : Nat) (f : Engine → Engine) : (modEngine s n f).variant = s.variant := rfl
@[simp] theorem modEngine_freeCtr (s : State) (n : Nat) (f : Engine → Engine) : (modEngine s n f).freeCtr = s.freeCtr := rfl
@[simp] theorem modEngine_regs (s : State) (n : Nat) (f : Engine → Engine) : (modEngine s n f).regs = s.regs := rfl
@[simp] theorem modEngine_out (s : State) (n : Nat) (f : Engine → Engine) : (modEngine s n f).out = s.out := rfl
@[simp] theorem modEngine_boot (s : State) (n : Nat) (f : Engine → Engine) : (modEngine s n f).boot = s.boot := rfl
@[simp] theorem modEngine_pwr (s : State) (n : Nat) (f : Engine → Engine) : (modEngine s n f).pwr = s.pwr := rfl
@[simp] theorem modEngine_lnk (s : State) (n : Nat) (f : Engine → Engine) : (modEngine s n f).lnk = s.lnk := rfl
@[simp] theorem modEngine_sw (s : State) (n : Nat) (f : Engine → Engine) : (modEngine s n f).sw = s.sw := rfl
@[simp] theorem modEngine_tbl (s : State) (n : Nat) (f : Engine → Engine) : (modEngine s n f).tbl = s.tbl := rfl
@[simp] theorem modEngine_cru (s : State) (n : Nat) (f : Engine → Engine) : (modEngine s n f).cru = s.cru := rfl
@[simp] theorem modEngine_plan (s : State) (n : Nat) (f : Engine → Engine) : (modEngine s n f).plan = s.plan := rfl
@[simp] theorem modEngine_coll (s : State) (n : Nat) (f : Engine → Engine) : (modEngine s n f).coll = s.coll := rfl
@[simp] theorem modEngine_mem (s : State) (n : Nat) (f : Engine → Engine) : (modEngine s n f).mem = s.mem := rfl
@[simp] theorem modEngine_tim (s : State) (n : Nat) (f : Engine → Engine) : (modEngine s n f).tim = s.tim := rfl
@[simp] theorem modEngine_hif (s : State) (n : Nat) (f : Engine → Engine) : (modEngine s n f).hif = s.hif := rfl
@[simp] theorem modEngine_hlt (s : State) (n : Nat) (f : Engine → Engine) : (modEngine s n f).hlt = s.hlt := rfl
@[simp] theorem modEngine_cnt (s : State) (n : Nat) (f : Engine → Engine) : (modEngine s n f).cnt = s.cnt := rfl
@[simp] theorem modEngine_now (s : State) (n : Nat) (f : Engine → Engine) : (modEngine s n f).now = s.now := rfl
@[simp] theorem setSprue_pending (s : State) (n : Nat) (i : Nat) (e : Sprue) : (setSprue s n i e).pending = s.pending := rfl
@[simp] theorem setSprue_variant (s : State) (n : Nat) (i : Nat) (e : Sprue) : (setSprue s n i e).variant = s.variant := rfl
@[simp] theorem setSprue_freeCtr (s : State) (n : Nat) (i : Nat) (e : Sprue) : (setSprue s n i e).freeCtr = s.freeCtr := rfl
@[simp] theorem setSprue_regs (s : State) (n : Nat) (i : Nat) (e : Sprue) : (setSprue s n i e).regs = s.regs := rfl
@[simp] theorem setSprue_out (s : State) (n : Nat) (i : Nat) (e : Sprue) : (setSprue s n i e).out = s.out := rfl
@[simp] theorem setSprue_boot (s : State) (n : Nat) (i : Nat) (e : Sprue) : (setSprue s n i e).boot = s.boot := rfl
@[simp] theorem setSprue_pwr (s : State) (n : Nat) (i : Nat) (e : Sprue) : (setSprue s n i e).pwr = s.pwr := rfl
@[simp] theorem setSprue_lnk (s : State) (n : Nat) (i : Nat) (e : Sprue) : (setSprue s n i e).lnk = s.lnk := rfl
@[simp] theorem setSprue_sw (s : State) (n : Nat) (i : Nat) (e : Sprue) : (setSprue s n i e).sw = s.sw := rfl
@[simp] theorem setSprue_tbl (s : State) (n : Nat) (i : Nat) (e : Sprue) : (setSprue s n i e).tbl = s.tbl := rfl
@[simp] theorem setSprue_cru (s : State) (n : Nat) (i : Nat) (e : Sprue) : (setSprue s n i e).cru = s.cru := rfl
@[simp] theorem setSprue_plan (s : State) (n : Nat) (i : Nat) (e : Sprue) : (setSprue s n i e).plan = s.plan := rfl
@[simp] theorem setSprue_coll (s : State) (n : Nat) (i : Nat) (e : Sprue) : (setSprue s n i e).coll = s.coll := rfl
@[simp] theorem setSprue_mem (s : State) (n : Nat) (i : Nat) (e : Sprue) : (setSprue s n i e).mem = s.mem := rfl
@[simp] theorem setSprue_tim (s : State) (n : Nat) (i : Nat) (e : Sprue) : (setSprue s n i e).tim = s.tim := rfl
@[simp] theorem setSprue_hif (s : State) (n : Nat) (i : Nat) (e : Sprue) : (setSprue s n i e).hif = s.hif := rfl
@[simp] theorem setSprue_hlt (s : State) (n : Nat) (i : Nat) (e : Sprue) : (setSprue s n i e).hlt = s.hlt := rfl
@[simp] theorem setSprue_cnt (s : State) (n : Nat) (i : Nat) (e : Sprue) : (setSprue s n i e).cnt = s.cnt := rfl
@[simp] theorem setSprue_now (s : State) (n : Nat) (i : Nat) (e : Sprue) : (setSprue s n i e).now = s.now := rfl
@[simp] theorem setPlan_pending (s : State) (c : Nat) (p : Plan) : (setPlan s c p).pending = s.pending := rfl
@[simp] theorem setPlan_variant (s : State) (c : Nat) (p : Plan) : (setPlan s c p).variant = s.variant := rfl
@[simp] theorem setPlan_freeCtr (s : State) (c : Nat) (p : Plan) : (setPlan s c p).freeCtr = s.freeCtr := rfl
@[simp] theorem setPlan_regs (s : State) (c : Nat) (p : Plan) : (setPlan s c p).regs = s.regs := rfl
@[simp] theorem setPlan_out (s : State) (c : Nat) (p : Plan) : (setPlan s c p).out = s.out := rfl
@[simp] theorem setPlan_boot (s : State) (c : Nat) (p : Plan) : (setPlan s c p).boot = s.boot := rfl
@[simp] theorem setPlan_pwr (s : State) (c : Nat) (p : Plan) : (setPlan s c p).pwr = s.pwr := rfl
@[simp] theorem setPlan_opt (s : State) (c : Nat) (p : Plan) : (setPlan s c p).opt = s.opt := rfl
@[simp] theorem setPlan_lnk (s : State) (c : Nat) (p : Plan) : (setPlan s c p).lnk = s.lnk := rfl
@[simp] theorem setPlan_sw (s : State) (c : Nat) (p : Plan) : (setPlan s c p).sw = s.sw := rfl
@[simp] theorem setPlan_tbl (s : State) (c : Nat) (p : Plan) : (setPlan s c p).tbl = s.tbl := rfl
@[simp] theorem setPlan_cru (s : State) (c : Nat) (p : Plan) : (setPlan s c p).cru = s.cru := rfl
@[simp] theorem setPlan_coll (s : State) (c : Nat) (p : Plan) : (setPlan s c p).coll = s.coll := rfl
@[simp] theorem setPlan_mem (s : State) (c : Nat) (p : Plan) : (setPlan s c p).mem = s.mem := rfl
@[simp] theorem setPlan_tim (s : State) (c : Nat) (p : Plan) : (setPlan s c p).tim = s.tim := rfl
@[simp] theorem setPlan_hif (s : State) (c : Nat) (p : Plan) : (setPlan s c p).hif = s.hif := rfl
@[simp] theorem setPlan_hlt (s : State) (c : Nat) (p : Plan) : (setPlan s c p).hlt = s.hlt := rfl
@[simp] theorem setPlan_cnt (s : State) (c : Nat) (p : Plan) : (setPlan s c p).cnt = s.cnt := rfl
@[simp] theorem setPlan_now (s : State) (c : Nat) (p : Plan) : (setPlan s c p).now = s.now := rfl
@[simp] theorem modPlan_pending (s : State) (c : Nat) (f : Plan → Plan) : (modPlan s c f).pending = s.pending := rfl
@[simp] theorem modPlan_variant (s : State) (c : Nat) (f : Plan → Plan) : (modPlan s c f).variant = s.variant := rfl
@[simp] theorem modPlan_freeCtr (s : State) (c : Nat) (f : Plan → Plan) : (modPlan s c f).freeCtr = s.freeCtr := rfl
@[simp] theorem modPlan_regs (s : State) (c : Nat) (f : Plan → Plan) : (modPlan s c f).regs = s.regs := rfl
@[simp] theorem modPlan_out (s : State) (c : Nat) (f : Plan → Plan) : (modPlan s c f).out = s.out := rfl
@[simp] theorem modPlan_boot (s : State) (c : Nat) (f : Plan → Plan) : (modPlan s c f).boot = s.boot := rfl
@[simp] theorem modPlan_pwr (s : State) (c : Nat) (f : Plan → Plan) : (modPlan s c f).pwr = s.pwr := rfl
@[simp] theorem modPlan_opt (s : State) (c : Nat) (f : Plan → Plan) : (modPlan s c f).opt = s.opt := rfl
@[simp] theorem modPlan_lnk (s : State) (c : Nat) (f : Plan → Plan) : (modPlan s c f).lnk = s.lnk := rfl
@[simp] theorem modPlan_sw (s : State) (c : Nat) (f : Plan → Plan) : (modPlan s c f).sw = s.sw := rfl
@[simp] theorem modPlan_tbl (s : State) (c : Nat) (f : Plan → Plan) : (modPlan s c f).tbl = s.tbl := rfl
@[simp] theorem modPlan_cru (s : State) (c : Nat) (f : Plan → Plan) : (modPlan s c f).cru = s.cru := rfl
@[simp] theorem modPlan_coll (s : State) (c : Nat) (f : Plan → Plan) : (modPlan s c f).coll = s.coll := rfl
@[simp] theorem modPlan_mem (s : State) (c : Nat) (f : Plan → Plan) : (modPlan s c f).mem = s.mem := rfl
@[simp] theorem modPlan_tim (s : State) (c : Nat) (f : Plan → Plan) : (modPlan s c f).tim = s.tim := rfl
@[simp] theorem modPlan_hif (s : State) (c : Nat) (f : Plan → Plan) : (modPlan s c f).hif = s.hif := rfl
@[simp] theorem modPlan_hlt (s : State) (c : Nat) (f : Plan → Plan) : (modPlan s c f).hlt = s.hlt := rfl
@[simp] theorem modPlan_cnt (s : State) (c : Nat) (f : Plan → Plan) : (modPlan s c f).cnt = s.cnt := rfl
@[simp] theorem modPlan_now (s : State) (c : Nat) (f : Plan → Plan) : (modPlan s c f).now = s.now := rfl
@[simp] theorem setWin_pending (s : State) (c : Nat) (i : Nat) (w : WinRun) : (setWin s c i w).pending = s.pending := rfl
@[simp] theorem setWin_variant (s : State) (c : Nat) (i : Nat) (w : WinRun) : (setWin s c i w).variant = s.variant := rfl
@[simp] theorem setWin_freeCtr (s : State) (c : Nat) (i : Nat) (w : WinRun) : (setWin s c i w).freeCtr = s.freeCtr := rfl
@[simp] theorem setWin_regs (s : State) (c : Nat) (i : Nat) (w : WinRun) : (setWin s c i w).regs = s.regs := rfl
@[simp] theorem setWin_out (s : State) (c : Nat) (i : Nat) (w : WinRun) : (setWin s c i w).out = s.out := rfl
@[simp] theorem setWin_boot (s : State) (c : Nat) (i : Nat) (w : WinRun) : (setWin s c i w).boot = s.boot := rfl
@[simp] theorem setWin_pwr (s : State) (c : Nat) (i : Nat) (w : WinRun) : (setWin s c i w).pwr = s.pwr := rfl
@[simp] theorem setWin_opt (s : State) (c : Nat) (i : Nat) (w : WinRun) : (setWin s c i w).opt = s.opt := rfl
@[simp] theorem setWin_lnk (s : State) (c : Nat) (i : Nat) (w : WinRun) : (setWin s c i w).lnk = s.lnk := rfl
@[simp] theorem setWin_sw (s : State) (c : Nat) (i : Nat) (w : WinRun) : (setWin s c i w).sw = s.sw := rfl
@[simp] theorem setWin_tbl (s : State) (c : Nat) (i : Nat) (w : WinRun) : (setWin s c i w).tbl = s.tbl := rfl
@[simp] theorem setWin_cru (s : State) (c : Nat) (i : Nat) (w : WinRun) : (setWin s c i w).cru = s.cru := rfl
@[simp] theorem setWin_coll (s : State) (c : Nat) (i : Nat) (w : WinRun) : (setWin s c i w).coll = s.coll := rfl
@[simp] theorem setWin_mem (s : State) (c : Nat) (i : Nat) (w : WinRun) : (setWin s c i w).mem = s.mem := rfl
@[simp] theorem setWin_tim (s : State) (c : Nat) (i : Nat) (w : WinRun) : (setWin s c i w).tim = s.tim := rfl
@[simp] theorem setWin_hif (s : State) (c : Nat) (i : Nat) (w : WinRun) : (setWin s c i w).hif = s.hif := rfl
@[simp] theorem setWin_hlt (s : State) (c : Nat) (i : Nat) (w : WinRun) : (setWin s c i w).hlt = s.hlt := rfl
@[simp] theorem setWin_cnt (s : State) (c : Nat) (i : Nat) (w : WinRun) : (setWin s c i w).cnt = s.cnt := rfl
@[simp] theorem setWin_now (s : State) (c : Nat) (i : Nat) (w : WinRun) : (setWin s c i w).now = s.now := rfl
@[simp] theorem modWin_pending (s : State) (c : Nat) (i : Nat) (f : WinRun → WinRun) : (modWin s c i f).pending = s.pending := rfl
@[simp] theorem modWin_variant (s : State) (c : Nat) (i : Nat) (f : WinRun → WinRun) : (modWin s c i f).variant = s.variant := rfl
@[simp] theorem modWin_freeCtr (s : State) (c : Nat) (i : Nat) (f : WinRun → WinRun) : (modWin s c i f).freeCtr = s.freeCtr := rfl
@[simp] theorem modWin_regs (s : State) (c : Nat) (i : Nat) (f : WinRun → WinRun) : (modWin s c i f).regs = s.regs := rfl
@[simp] theorem modWin_out (s : State) (c : Nat) (i : Nat) (f : WinRun → WinRun) : (modWin s c i f).out = s.out := rfl
@[simp] theorem modWin_boot (s : State) (c : Nat) (i : Nat) (f : WinRun → WinRun) : (modWin s c i f).boot = s.boot := rfl
@[simp] theorem modWin_pwr (s : State) (c : Nat) (i : Nat) (f : WinRun → WinRun) : (modWin s c i f).pwr = s.pwr := rfl
@[simp] theorem modWin_opt (s : State) (c : Nat) (i : Nat) (f : WinRun → WinRun) : (modWin s c i f).opt = s.opt := rfl
@[simp] theorem modWin_lnk (s : State) (c : Nat) (i : Nat) (f : WinRun → WinRun) : (modWin s c i f).lnk = s.lnk := rfl
@[simp] theorem modWin_sw (s : State) (c : Nat) (i : Nat) (f : WinRun → WinRun) : (modWin s c i f).sw = s.sw := rfl
@[simp] theorem modWin_tbl (s : State) (c : Nat) (i : Nat) (f : WinRun → WinRun) : (modWin s c i f).tbl = s.tbl := rfl
@[simp] theorem modWin_cru (s : State) (c : Nat) (i : Nat) (f : WinRun → WinRun) : (modWin s c i f).cru = s.cru := rfl
@[simp] theorem modWin_coll (s : State) (c : Nat) (i : Nat) (f : WinRun → WinRun) : (modWin s c i f).coll = s.coll := rfl
@[simp] theorem modWin_mem (s : State) (c : Nat) (i : Nat) (f : WinRun → WinRun) : (modWin s c i f).mem = s.mem := rfl
@[simp] theorem modWin_tim (s : State) (c : Nat) (i : Nat) (f : WinRun → WinRun) : (modWin s c i f).tim = s.tim := rfl
@[simp] theorem modWin_hif (s : State) (c : Nat) (i : Nat) (f : WinRun → WinRun) : (modWin s c i f).hif = s.hif := rfl
@[simp] theorem modWin_hlt (s : State) (c : Nat) (i : Nat) (f : WinRun → WinRun) : (modWin s c i f).hlt = s.hlt := rfl
@[simp] theorem modWin_cnt (s : State) (c : Nat) (i : Nat) (f : WinRun → WinRun) : (modWin s c i f).cnt = s.cnt := rfl
@[simp] theorem modWin_now (s : State) (c : Nat) (i : Nat) (f : WinRun → WinRun) : (modWin s c i f).now = s.now := rfl
@[simp] theorem setSeqr_pending (s : State) (n : Nat) (q : Seqr) : (setSeqr s n q).pending = s.pending := rfl
@[simp] theorem setSeqr_variant (s : State) (n : Nat) (q : Seqr) : (setSeqr s n q).variant = s.variant := rfl
@[simp] theorem setSeqr_freeCtr (s : State) (n : Nat) (q : Seqr) : (setSeqr s n q).freeCtr = s.freeCtr := rfl
@[simp] theorem setSeqr_regs (s : State) (n : Nat) (q : Seqr) : (setSeqr s n q).regs = s.regs := rfl
@[simp] theorem setSeqr_out (s : State) (n : Nat) (q : Seqr) : (setSeqr s n q).out = s.out := rfl
@[simp] theorem setSeqr_boot (s : State) (n : Nat) (q : Seqr) : (setSeqr s n q).boot = s.boot := rfl
@[simp] theorem setSeqr_pwr (s : State) (n : Nat) (q : Seqr) : (setSeqr s n q).pwr = s.pwr := rfl
@[simp] theorem setSeqr_opt (s : State) (n : Nat) (q : Seqr) : (setSeqr s n q).opt = s.opt := rfl
@[simp] theorem setSeqr_lnk (s : State) (n : Nat) (q : Seqr) : (setSeqr s n q).lnk = s.lnk := rfl
@[simp] theorem setSeqr_sw (s : State) (n : Nat) (q : Seqr) : (setSeqr s n q).sw = s.sw := rfl
@[simp] theorem setSeqr_tbl (s : State) (n : Nat) (q : Seqr) : (setSeqr s n q).tbl = s.tbl := rfl
@[simp] theorem setSeqr_cru (s : State) (n : Nat) (q : Seqr) : (setSeqr s n q).cru = s.cru := rfl
@[simp] theorem setSeqr_coll (s : State) (n : Nat) (q : Seqr) : (setSeqr s n q).coll = s.coll := rfl
@[simp] theorem setSeqr_mem (s : State) (n : Nat) (q : Seqr) : (setSeqr s n q).mem = s.mem := rfl
@[simp] theorem setSeqr_tim (s : State) (n : Nat) (q : Seqr) : (setSeqr s n q).tim = s.tim := rfl
@[simp] theorem setSeqr_hif (s : State) (n : Nat) (q : Seqr) : (setSeqr s n q).hif = s.hif := rfl
@[simp] theorem setSeqr_hlt (s : State) (n : Nat) (q : Seqr) : (setSeqr s n q).hlt = s.hlt := rfl
@[simp] theorem setSeqr_cnt (s : State) (n : Nat) (q : Seqr) : (setSeqr s n q).cnt = s.cnt := rfl
@[simp] theorem setSeqr_now (s : State) (n : Nat) (q : Seqr) : (setSeqr s n q).now = s.now := rfl
@[simp] theorem modSeqr_pending (s : State) (n : Nat) (f : Seqr → Seqr) : (modSeqr s n f).pending = s.pending := rfl
@[simp] theorem modSeqr_variant (s : State) (n : Nat) (f : Seqr → Seqr) : (modSeqr s n f).variant = s.variant := rfl
@[simp] theorem modSeqr_freeCtr (s : State) (n : Nat) (f : Seqr → Seqr) : (modSeqr s n f).freeCtr = s.freeCtr := rfl
@[simp] theorem modSeqr_regs (s : State) (n : Nat) (f : Seqr → Seqr) : (modSeqr s n f).regs = s.regs := rfl
@[simp] theorem modSeqr_out (s : State) (n : Nat) (f : Seqr → Seqr) : (modSeqr s n f).out = s.out := rfl
@[simp] theorem modSeqr_boot (s : State) (n : Nat) (f : Seqr → Seqr) : (modSeqr s n f).boot = s.boot := rfl
@[simp] theorem modSeqr_pwr (s : State) (n : Nat) (f : Seqr → Seqr) : (modSeqr s n f).pwr = s.pwr := rfl
@[simp] theorem modSeqr_opt (s : State) (n : Nat) (f : Seqr → Seqr) : (modSeqr s n f).opt = s.opt := rfl
@[simp] theorem modSeqr_lnk (s : State) (n : Nat) (f : Seqr → Seqr) : (modSeqr s n f).lnk = s.lnk := rfl
@[simp] theorem modSeqr_sw (s : State) (n : Nat) (f : Seqr → Seqr) : (modSeqr s n f).sw = s.sw := rfl
@[simp] theorem modSeqr_tbl (s : State) (n : Nat) (f : Seqr → Seqr) : (modSeqr s n f).tbl = s.tbl := rfl
@[simp] theorem modSeqr_cru (s : State) (n : Nat) (f : Seqr → Seqr) : (modSeqr s n f).cru = s.cru := rfl
@[simp] theorem modSeqr_coll (s : State) (n : Nat) (f : Seqr → Seqr) : (modSeqr s n f).coll = s.coll := rfl
@[simp] theorem modSeqr_mem (s : State) (n : Nat) (f : Seqr → Seqr) : (modSeqr s n f).mem = s.mem := rfl
@[simp] theorem modSeqr_tim (s : State) (n : Nat) (f : Seqr → Seqr) : (modSeqr s n f).tim = s.tim := rfl
@[simp] theorem modSeqr_hif (s : State) (n : Nat) (f : Seqr → Seqr) : (modSeqr s n f).hif = s.hif := rfl
@[simp] theorem modSeqr_hlt (s : State) (n : Nat) (f : Seqr → Seqr) : (modSeqr s n f).hlt = s.hlt := rfl
@[simp] theorem modSeqr_cnt (s : State) (n : Nat) (f : Seqr → Seqr) : (modSeqr s n f).cnt = s.cnt := rfl
@[simp] theorem modSeqr_now (s : State) (n : Nat) (f : Seqr → Seqr) : (modSeqr s n f).now = s.now := rfl
@[simp] theorem setLaunch_pending (s : State) (d : Nat) (l : List Launch) : (setLaunch s d l).pending = s.pending := rfl
@[simp] theorem setLaunch_variant (s : State) (d : Nat) (l : List Launch) : (setLaunch s d l).variant = s.variant := rfl
@[simp] theorem setLaunch_freeCtr (s : State) (d : Nat) (l : List Launch) : (setLaunch s d l).freeCtr = s.freeCtr := rfl
@[simp] theorem setLaunch_regs (s : State) (d : Nat) (l : List Launch) : (setLaunch s d l).regs = s.regs := rfl
@[simp] theorem setLaunch_out (s : State) (d : Nat) (l : List Launch) : (setLaunch s d l).out = s.out := rfl
@[simp] theorem setLaunch_boot (s : State) (d : Nat) (l : List Launch) : (setLaunch s d l).boot = s.boot := rfl
@[simp] theorem setLaunch_pwr (s : State) (d : Nat) (l : List Launch) : (setLaunch s d l).pwr = s.pwr := rfl
@[simp] theorem setLaunch_opt (s : State) (d : Nat) (l : List Launch) : (setLaunch s d l).opt = s.opt := rfl
@[simp] theorem setLaunch_lnk (s : State) (d : Nat) (l : List Launch) : (setLaunch s d l).lnk = s.lnk := rfl
@[simp] theorem setLaunch_sw (s : State) (d : Nat) (l : List Launch) : (setLaunch s d l).sw = s.sw := rfl
@[simp] theorem setLaunch_tbl (s : State) (d : Nat) (l : List Launch) : (setLaunch s d l).tbl = s.tbl := rfl
@[simp] theorem setLaunch_cru (s : State) (d : Nat) (l : List Launch) : (setLaunch s d l).cru = s.cru := rfl
@[simp] theorem setLaunch_coll (s : State) (d : Nat) (l : List Launch) : (setLaunch s d l).coll = s.coll := rfl
@[simp] theorem setLaunch_mem (s : State) (d : Nat) (l : List Launch) : (setLaunch s d l).mem = s.mem := rfl
@[simp] theorem setLaunch_tim (s : State) (d : Nat) (l : List Launch) : (setLaunch s d l).tim = s.tim := rfl
@[simp] theorem setLaunch_hif (s : State) (d : Nat) (l : List Launch) : (setLaunch s d l).hif = s.hif := rfl
@[simp] theorem setLaunch_hlt (s : State) (d : Nat) (l : List Launch) : (setLaunch s d l).hlt = s.hlt := rfl
@[simp] theorem setLaunch_cnt (s : State) (d : Nat) (l : List Launch) : (setLaunch s d l).cnt = s.cnt := rfl
@[simp] theorem setLaunch_now (s : State) (d : Nat) (l : List Launch) : (setLaunch s d l).now = s.now := rfl
@[simp] theorem setCruSlot_pending (s : State) (g : Nat) (v : Slot) : (setCruSlot s g v).pending = s.pending := rfl
@[simp] theorem setCruSlot_variant (s : State) (g : Nat) (v : Slot) : (setCruSlot s g v).variant = s.variant := rfl
@[simp] theorem setCruSlot_freeCtr (s : State) (g : Nat) (v : Slot) : (setCruSlot s g v).freeCtr = s.freeCtr := rfl
@[simp] theorem setCruSlot_regs (s : State) (g : Nat) (v : Slot) : (setCruSlot s g v).regs = s.regs := rfl
@[simp] theorem setCruSlot_out (s : State) (g : Nat) (v : Slot) : (setCruSlot s g v).out = s.out := rfl
@[simp] theorem setCruSlot_boot (s : State) (g : Nat) (v : Slot) : (setCruSlot s g v).boot = s.boot := rfl
@[simp] theorem setCruSlot_pwr (s : State) (g : Nat) (v : Slot) : (setCruSlot s g v).pwr = s.pwr := rfl
@[simp] theorem setCruSlot_opt (s : State) (g : Nat) (v : Slot) : (setCruSlot s g v).opt = s.opt := rfl
@[simp] theorem setCruSlot_lnk (s : State) (g : Nat) (v : Slot) : (setCruSlot s g v).lnk = s.lnk := rfl
@[simp] theorem setCruSlot_sw (s : State) (g : Nat) (v : Slot) : (setCruSlot s g v).sw = s.sw := rfl
@[simp] theorem setCruSlot_tbl (s : State) (g : Nat) (v : Slot) : (setCruSlot s g v).tbl = s.tbl := rfl
@[simp] theorem setCruSlot_plan (s : State) (g : Nat) (v : Slot) : (setCruSlot s g v).plan = s.plan := rfl
@[simp] theorem setCruSlot_coll (s : State) (g : Nat) (v : Slot) : (setCruSlot s g v).coll = s.coll := rfl
@[simp] theorem setCruSlot_mem (s : State) (g : Nat) (v : Slot) : (setCruSlot s g v).mem = s.mem := rfl
@[simp] theorem setCruSlot_tim (s : State) (g : Nat) (v : Slot) : (setCruSlot s g v).tim = s.tim := rfl
@[simp] theorem setCruSlot_hif (s : State) (g : Nat) (v : Slot) : (setCruSlot s g v).hif = s.hif := rfl
@[simp] theorem setCruSlot_hlt (s : State) (g : Nat) (v : Slot) : (setCruSlot s g v).hlt = s.hlt := rfl
@[simp] theorem setCruSlot_cnt (s : State) (g : Nat) (v : Slot) : (setCruSlot s g v).cnt = s.cnt := rfl
@[simp] theorem setCruSlot_now (s : State) (g : Nat) (v : Slot) : (setCruSlot s g v).now = s.now := rfl
@[simp] theorem setCtx_pending (s : State) (c : Nat) (x : Ctx) : (setCtx s c x).pending = s.pending := rfl
@[simp] theorem setCtx_variant (s : State) (c : Nat) (x : Ctx) : (setCtx s c x).variant = s.variant := rfl
@[simp] theorem setCtx_freeCtr (s : State) (c : Nat) (x : Ctx) : (setCtx s c x).freeCtr = s.freeCtr := rfl
@[simp] theorem setCtx_regs (s : State) (c : Nat) (x : Ctx) : (setCtx s c x).regs = s.regs := rfl
@[simp] theorem setCtx_out (s : State) (c : Nat) (x : Ctx) : (setCtx s c x).out = s.out := rfl
@[simp] theorem setCtx_boot (s : State) (c : Nat) (x : Ctx) : (setCtx s c x).boot = s.boot := rfl
@[simp] theorem setCtx_pwr (s : State) (c : Nat) (x : Ctx) : (setCtx s c x).pwr = s.pwr := rfl
@[simp] theorem setCtx_opt (s : State) (c : Nat) (x : Ctx) : (setCtx s c x).opt = s.opt := rfl
@[simp] theorem setCtx_lnk (s : State) (c : Nat) (x : Ctx) : (setCtx s c x).lnk = s.lnk := rfl
@[simp] theorem setCtx_sw (s : State) (c : Nat) (x : Ctx) : (setCtx s c x).sw = s.sw := rfl
@[simp] theorem setCtx_tbl (s : State) (c : Nat) (x : Ctx) : (setCtx s c x).tbl = s.tbl := rfl
@[simp] theorem setCtx_cru (s : State) (c : Nat) (x : Ctx) : (setCtx s c x).cru = s.cru := rfl
@[simp] theorem setCtx_plan (s : State) (c : Nat) (x : Ctx) : (setCtx s c x).plan = s.plan := rfl
@[simp] theorem setCtx_mem (s : State) (c : Nat) (x : Ctx) : (setCtx s c x).mem = s.mem := rfl
@[simp] theorem setCtx_tim (s : State) (c : Nat) (x : Ctx) : (setCtx s c x).tim = s.tim := rfl
@[simp] theorem setCtx_hif (s : State) (c : Nat) (x : Ctx) : (setCtx s c x).hif = s.hif := rfl
@[simp] theorem setCtx_hlt (s : State) (c : Nat) (x : Ctx) : (setCtx s c x).hlt = s.hlt := rfl
@[simp] theorem setCtx_cnt (s : State) (c : Nat) (x : Ctx) : (setCtx s c x).cnt = s.cnt := rfl
@[simp] theorem setCtx_now (s : State) (c : Nat) (x : Ctx) : (setCtx s c x).now = s.now := rfl
@[simp] theorem modCtx_pending (s : State) (c : Nat) (f : Ctx → Ctx) : (modCtx s c f).pending = s.pending := rfl
@[simp] theorem modCtx_variant (s : State) (c : Nat) (f : Ctx → Ctx) : (modCtx s c f).variant = s.variant := rfl
@[simp] theorem modCtx_freeCtr (s : State) (c : Nat) (f : Ctx → Ctx) : (modCtx s c f).freeCtr = s.freeCtr := rfl
@[simp] theorem modCtx_regs (s : State) (c : Nat) (f : Ctx → Ctx) : (modCtx s c f).regs = s.regs := rfl
@[simp] theorem modCtx_out (s : State) (c : Nat) (f : Ctx → Ctx) : (modCtx s c f).out = s.out := rfl
@[simp] theorem modCtx_boot (s : State) (c : Nat) (f : Ctx → Ctx) : (modCtx s c f).boot = s.boot := rfl
@[simp] theorem modCtx_pwr (s : State) (c : Nat) (f : Ctx → Ctx) : (modCtx s c f).pwr = s.pwr := rfl
@[simp] theorem modCtx_opt (s : State) (c : Nat) (f : Ctx → Ctx) : (modCtx s c f).opt = s.opt := rfl
@[simp] theorem modCtx_lnk (s : State) (c : Nat) (f : Ctx → Ctx) : (modCtx s c f).lnk = s.lnk := rfl
@[simp] theorem modCtx_sw (s : State) (c : Nat) (f : Ctx → Ctx) : (modCtx s c f).sw = s.sw := rfl
@[simp] theorem modCtx_tbl (s : State) (c : Nat) (f : Ctx → Ctx) : (modCtx s c f).tbl = s.tbl := rfl
@[simp] theorem modCtx_cru (s : State) (c : Nat) (f : Ctx → Ctx) : (modCtx s c f).cru = s.cru := rfl
@[simp] theorem modCtx_plan (s : State) (c : Nat) (f : Ctx → Ctx) : (modCtx s c f).plan = s.plan := rfl
@[simp] theorem modCtx_mem (s : State) (c : Nat) (f : Ctx → Ctx) : (modCtx s c f).mem = s.mem := rfl
@[simp] theorem modCtx_tim (s : State) (c : Nat) (f : Ctx → Ctx) : (modCtx s c f).tim = s.tim := rfl
@[simp] theorem modCtx_hif (s : State) (c : Nat) (f : Ctx → Ctx) : (modCtx s c f).hif = s.hif := rfl
@[simp] theorem modCtx_hlt (s : State) (c : Nat) (f : Ctx → Ctx) : (modCtx s c f).hlt = s.hlt := rfl
@[simp] theorem modCtx_cnt (s : State) (c : Nat) (f : Ctx → Ctx) : (modCtx s c f).cnt = s.cnt := rfl
@[simp] theorem modCtx_now (s : State) (c : Nat) (f : Ctx → Ctx) : (modCtx s c f).now = s.now := rfl
@[simp] theorem setChunk_pending (s : State) (c : Nat) (k : Nat) (v : Chunk) : (setChunk s c k v).pending = s.pending := rfl
@[simp] theorem setChunk_variant (s : State) (c : Nat) (k : Nat) (v : Chunk) : (setChunk s c k v).variant = s.variant := rfl
@[simp] theorem setChunk_freeCtr (s : State) (c : Nat) (k : Nat) (v : Chunk) : (setChunk s c k v).freeCtr = s.freeCtr := rfl
@[simp] theorem setChunk_regs (s : State) (c : Nat) (k : Nat) (v : Chunk) : (setChunk s c k v).regs = s.regs := rfl
@[simp] theorem setChunk_out (s : State) (c : Nat) (k : Nat) (v : Chunk) : (setChunk s c k v).out = s.out := rfl
@[simp] theorem setChunk_boot (s : State) (c : Nat) (k : Nat) (v : Chunk) : (setChunk s c k v).boot = s.boot := rfl
@[simp] theorem setChunk_pwr (s : State) (c : Nat) (k : Nat) (v : Chunk) : (setChunk s c k v).pwr = s.pwr := rfl
@[simp] theorem setChunk_opt (s : State) (c : Nat) (k : Nat) (v : Chunk) : (setChunk s c k v).opt = s.opt := rfl
@[simp] theorem setChunk_lnk (s : State) (c : Nat) (k : Nat) (v : Chunk) : (setChunk s c k v).lnk = s.lnk := rfl
@[simp] theorem setChunk_sw (s : State) (c : Nat) (k : Nat) (v : Chunk) : (setChunk s c k v).sw = s.sw := rfl
@[simp] theorem setChunk_tbl (s : State) (c : Nat) (k : Nat) (v : Chunk) : (setChunk s c k v).tbl = s.tbl := rfl
@[simp] theorem setChunk_cru (s : State) (c : Nat) (k : Nat) (v : Chunk) : (setChunk s c k v).cru = s.cru := rfl
@[simp] theorem setChunk_plan (s : State) (c : Nat) (k : Nat) (v : Chunk) : (setChunk s c k v).plan = s.plan := rfl
@[simp] theorem setChunk_mem (s : State) (c : Nat) (k : Nat) (v : Chunk) : (setChunk s c k v).mem = s.mem := rfl
@[simp] theorem setChunk_tim (s : State) (c : Nat) (k : Nat) (v : Chunk) : (setChunk s c k v).tim = s.tim := rfl
@[simp] theorem setChunk_hif (s : State) (c : Nat) (k : Nat) (v : Chunk) : (setChunk s c k v).hif = s.hif := rfl
@[simp] theorem setChunk_hlt (s : State) (c : Nat) (k : Nat) (v : Chunk) : (setChunk s c k v).hlt = s.hlt := rfl
@[simp] theorem setChunk_cnt (s : State) (c : Nat) (k : Nat) (v : Chunk) : (setChunk s c k v).cnt = s.cnt := rfl
@[simp] theorem setChunk_now (s : State) (c : Nat) (k : Nat) (v : Chunk) : (setChunk s c k v).now = s.now := rfl
@[simp] theorem modChunk_pending (s : State) (c : Nat) (k : Nat) (f : Chunk → Chunk) : (modChunk s c k f).pending = s.pending := rfl
@[simp] theorem modChunk_variant (s : State) (c : Nat) (k : Nat) (f : Chunk → Chunk) : (modChunk s c k f).variant = s.variant := rfl
@[simp] theorem modChunk_freeCtr (s : State) (c : Nat) (k : Nat) (f : Chunk → Chunk) : (modChunk s c k f).freeCtr = s.freeCtr := rfl
@[simp] theorem modChunk_regs (s : State) (c : Nat) (k : Nat) (f : Chunk → Chunk) : (modChunk s c k f).regs = s.regs := rfl
@[simp] theorem modChunk_out (s : State) (c : Nat) (k : Nat) (f : Chunk → Chunk) : (modChunk s c k f).out = s.out := rfl
@[simp] theorem modChunk_boot (s : State) (c : Nat) (k : Nat) (f : Chunk → Chunk) : (modChunk s c k f).boot = s.boot := rfl
@[simp] theorem modChunk_pwr (s : State) (c : Nat) (k : Nat) (f : Chunk → Chunk) : (modChunk s c k f).pwr = s.pwr := rfl
@[simp] theorem modChunk_opt (s : State) (c : Nat) (k : Nat) (f : Chunk → Chunk) : (modChunk s c k f).opt = s.opt := rfl
@[simp] theorem modChunk_lnk (s : State) (c : Nat) (k : Nat) (f : Chunk → Chunk) : (modChunk s c k f).lnk = s.lnk := rfl
@[simp] theorem modChunk_sw (s : State) (c : Nat) (k : Nat) (f : Chunk → Chunk) : (modChunk s c k f).sw = s.sw := rfl
@[simp] theorem modChunk_tbl (s : State) (c : Nat) (k : Nat) (f : Chunk → Chunk) : (modChunk s c k f).tbl = s.tbl := rfl
@[simp] theorem modChunk_cru (s : State) (c : Nat) (k : Nat) (f : Chunk → Chunk) : (modChunk s c k f).cru = s.cru := rfl
@[simp] theorem modChunk_plan (s : State) (c : Nat) (k : Nat) (f : Chunk → Chunk) : (modChunk s c k f).plan = s.plan := rfl
@[simp] theorem modChunk_mem (s : State) (c : Nat) (k : Nat) (f : Chunk → Chunk) : (modChunk s c k f).mem = s.mem := rfl
@[simp] theorem modChunk_tim (s : State) (c : Nat) (k : Nat) (f : Chunk → Chunk) : (modChunk s c k f).tim = s.tim := rfl
@[simp] theorem modChunk_hif (s : State) (c : Nat) (k : Nat) (f : Chunk → Chunk) : (modChunk s c k f).hif = s.hif := rfl
@[simp] theorem modChunk_hlt (s : State) (c : Nat) (k : Nat) (f : Chunk → Chunk) : (modChunk s c k f).hlt = s.hlt := rfl
@[simp] theorem modChunk_cnt (s : State) (c : Nat) (k : Nat) (f : Chunk → Chunk) : (modChunk s c k f).cnt = s.cnt := rfl
@[simp] theorem modChunk_now (s : State) (c : Nat) (k : Nat) (f : Chunk → Chunk) : (modChunk s c k f).now = s.now := rfl
@[simp] theorem setMap_pending (s : State) (l : Nat) (e : MapEntry) : (setMap s l e).pending = s.pending := rfl
@[simp] theorem setMap_variant (s : State) (l : Nat) (e : MapEntry) : (setMap s l e).variant = s.variant := rfl
@[simp] theorem setMap_freeCtr (s : State) (l : Nat) (e : MapEntry) : (setMap s l e).freeCtr = s.freeCtr := rfl
@[simp] theorem setMap_regs (s : State) (l : Nat) (e : MapEntry) : (setMap s l e).regs = s.regs := rfl
@[simp] theorem setMap_out (s : State) (l : Nat) (e : MapEntry) : (setMap s l e).out = s.out := rfl
@[simp] theorem setMap_boot (s : State) (l : Nat) (e : MapEntry) : (setMap s l e).boot = s.boot := rfl
@[simp] theorem setMap_pwr (s : State) (l : Nat) (e : MapEntry) : (setMap s l e).pwr = s.pwr := rfl
@[simp] theorem setMap_opt (s : State) (l : Nat) (e : MapEntry) : (setMap s l e).opt = s.opt := rfl
@[simp] theorem setMap_lnk (s : State) (l : Nat) (e : MapEntry) : (setMap s l e).lnk = s.lnk := rfl
@[simp] theorem setMap_sw (s : State) (l : Nat) (e : MapEntry) : (setMap s l e).sw = s.sw := rfl
@[simp] theorem setMap_tbl (s : State) (l : Nat) (e : MapEntry) : (setMap s l e).tbl = s.tbl := rfl
@[simp] theorem setMap_cru (s : State) (l : Nat) (e : MapEntry) : (setMap s l e).cru = s.cru := rfl
@[simp] theorem setMap_plan (s : State) (l : Nat) (e : MapEntry) : (setMap s l e).plan = s.plan := rfl
@[simp] theorem setMap_coll (s : State) (l : Nat) (e : MapEntry) : (setMap s l e).coll = s.coll := rfl
@[simp] theorem setMap_tim (s : State) (l : Nat) (e : MapEntry) : (setMap s l e).tim = s.tim := rfl
@[simp] theorem setMap_hif (s : State) (l : Nat) (e : MapEntry) : (setMap s l e).hif = s.hif := rfl
@[simp] theorem setMap_hlt (s : State) (l : Nat) (e : MapEntry) : (setMap s l e).hlt = s.hlt := rfl
@[simp] theorem setMap_cnt (s : State) (l : Nat) (e : MapEntry) : (setMap s l e).cnt = s.cnt := rfl
@[simp] theorem setMap_now (s : State) (l : Nat) (e : MapEntry) : (setMap s l e).now = s.now := rfl
@[simp] theorem setMemCh_pending (s : State) (k : Nat) (h : Nat) (c : MemCh) : (setMemCh s k h c).pending = s.pending := rfl
@[simp] theorem setMemCh_variant (s : State) (k : Nat) (h : Nat) (c : MemCh) : (setMemCh s k h c).variant = s.variant := rfl
@[simp] theorem setMemCh_freeCtr (s : State) (k : Nat) (h : Nat) (c : MemCh) : (setMemCh s k h c).freeCtr = s.freeCtr := rfl
@[simp] theorem setMemCh_regs (s : State) (k : Nat) (h : Nat) (c : MemCh) : (setMemCh s k h c).regs = s.regs := rfl
@[simp] theorem setMemCh_out (s : State) (k : Nat) (h : Nat) (c : MemCh) : (setMemCh s k h c).out = s.out := rfl
@[simp] theorem setMemCh_boot (s : State) (k : Nat) (h : Nat) (c : MemCh) : (setMemCh s k h c).boot = s.boot := rfl
@[simp] theorem setMemCh_pwr (s : State) (k : Nat) (h : Nat) (c : MemCh) : (setMemCh s k h c).pwr = s.pwr := rfl
@[simp] theorem setMemCh_opt (s : State) (k : Nat) (h : Nat) (c : MemCh) : (setMemCh s k h c).opt = s.opt := rfl
@[simp] theorem setMemCh_lnk (s : State) (k : Nat) (h : Nat) (c : MemCh) : (setMemCh s k h c).lnk = s.lnk := rfl
@[simp] theorem setMemCh_sw (s : State) (k : Nat) (h : Nat) (c : MemCh) : (setMemCh s k h c).sw = s.sw := rfl
@[simp] theorem setMemCh_tbl (s : State) (k : Nat) (h : Nat) (c : MemCh) : (setMemCh s k h c).tbl = s.tbl := rfl
@[simp] theorem setMemCh_cru (s : State) (k : Nat) (h : Nat) (c : MemCh) : (setMemCh s k h c).cru = s.cru := rfl
@[simp] theorem setMemCh_plan (s : State) (k : Nat) (h : Nat) (c : MemCh) : (setMemCh s k h c).plan = s.plan := rfl
@[simp] theorem setMemCh_coll (s : State) (k : Nat) (h : Nat) (c : MemCh) : (setMemCh s k h c).coll = s.coll := rfl
@[simp] theorem setMemCh_tim (s : State) (k : Nat) (h : Nat) (c : MemCh) : (setMemCh s k h c).tim = s.tim := rfl
@[simp] theorem setMemCh_hif (s : State) (k : Nat) (h : Nat) (c : MemCh) : (setMemCh s k h c).hif = s.hif := rfl
@[simp] theorem setMemCh_hlt (s : State) (k : Nat) (h : Nat) (c : MemCh) : (setMemCh s k h c).hlt = s.hlt := rfl
@[simp] theorem setMemCh_cnt (s : State) (k : Nat) (h : Nat) (c : MemCh) : (setMemCh s k h c).cnt = s.cnt := rfl
@[simp] theorem setMemCh_now (s : State) (k : Nat) (h : Nat) (c : MemCh) : (setMemCh s k h c).now = s.now := rfl
@[simp] theorem modMemCh_pending (s : State) (k : Nat) (h : Nat) (f : MemCh → MemCh) : (modMemCh s k h f).pending = s.pending := rfl
@[simp] theorem modMemCh_variant (s : State) (k : Nat) (h : Nat) (f : MemCh → MemCh) : (modMemCh s k h f).variant = s.variant := rfl
@[simp] theorem modMemCh_freeCtr (s : State) (k : Nat) (h : Nat) (f : MemCh → MemCh) : (modMemCh s k h f).freeCtr = s.freeCtr := rfl
@[simp] theorem modMemCh_regs (s : State) (k : Nat) (h : Nat) (f : MemCh → MemCh) : (modMemCh s k h f).regs = s.regs := rfl
@[simp] theorem modMemCh_out (s : State) (k : Nat) (h : Nat) (f : MemCh → MemCh) : (modMemCh s k h f).out = s.out := rfl
@[simp] theorem modMemCh_boot (s : State) (k : Nat) (h : Nat) (f : MemCh → MemCh) : (modMemCh s k h f).boot = s.boot := rfl
@[simp] theorem modMemCh_pwr (s : State) (k : Nat) (h : Nat) (f : MemCh → MemCh) : (modMemCh s k h f).pwr = s.pwr := rfl
@[simp] theorem modMemCh_opt (s : State) (k : Nat) (h : Nat) (f : MemCh → MemCh) : (modMemCh s k h f).opt = s.opt := rfl
@[simp] theorem modMemCh_lnk (s : State) (k : Nat) (h : Nat) (f : MemCh → MemCh) : (modMemCh s k h f).lnk = s.lnk := rfl
@[simp] theorem modMemCh_sw (s : State) (k : Nat) (h : Nat) (f : MemCh → MemCh) : (modMemCh s k h f).sw = s.sw := rfl
@[simp] theorem modMemCh_tbl (s : State) (k : Nat) (h : Nat) (f : MemCh → MemCh) : (modMemCh s k h f).tbl = s.tbl := rfl
@[simp] theorem modMemCh_cru (s : State) (k : Nat) (h : Nat) (f : MemCh → MemCh) : (modMemCh s k h f).cru = s.cru := rfl
@[simp] theorem modMemCh_plan (s : State) (k : Nat) (h : Nat) (f : MemCh → MemCh) : (modMemCh s k h f).plan = s.plan := rfl
@[simp] theorem modMemCh_coll (s : State) (k : Nat) (h : Nat) (f : MemCh → MemCh) : (modMemCh s k h f).coll = s.coll := rfl
@[simp] theorem modMemCh_tim (s : State) (k : Nat) (h : Nat) (f : MemCh → MemCh) : (modMemCh s k h f).tim = s.tim := rfl
@[simp] theorem modMemCh_hif (s : State) (k : Nat) (h : Nat) (f : MemCh → MemCh) : (modMemCh s k h f).hif = s.hif := rfl
@[simp] theorem modMemCh_hlt (s : State) (k : Nat) (h : Nat) (f : MemCh → MemCh) : (modMemCh s k h f).hlt = s.hlt := rfl
@[simp] theorem modMemCh_cnt (s : State) (k : Nat) (h : Nat) (f : MemCh → MemCh) : (modMemCh s k h f).cnt = s.cnt := rfl
@[simp] theorem modMemCh_now (s : State) (k : Nat) (h : Nat) (f : MemCh → MemCh) : (modMemCh s k h f).now = s.now := rfl
@[simp] theorem modStk_pending (s : State) (k : Nat) (f : Stack → Stack) : (modStk s k f).pending = s.pending := rfl
@[simp] theorem modStk_variant (s : State) (k : Nat) (f : Stack → Stack) : (modStk s k f).variant = s.variant := rfl
@[simp] theorem modStk_freeCtr (s : State) (k : Nat) (f : Stack → Stack) : (modStk s k f).freeCtr = s.freeCtr := rfl
@[simp] theorem modStk_regs (s : State) (k : Nat) (f : Stack → Stack) : (modStk s k f).regs = s.regs := rfl
@[simp] theorem modStk_out (s : State) (k : Nat) (f : Stack → Stack) : (modStk s k f).out = s.out := rfl
@[simp] theorem modStk_boot (s : State) (k : Nat) (f : Stack → Stack) : (modStk s k f).boot = s.boot := rfl
@[simp] theorem modStk_pwr (s : State) (k : Nat) (f : Stack → Stack) : (modStk s k f).pwr = s.pwr := rfl
@[simp] theorem modStk_opt (s : State) (k : Nat) (f : Stack → Stack) : (modStk s k f).opt = s.opt := rfl
@[simp] theorem modStk_lnk (s : State) (k : Nat) (f : Stack → Stack) : (modStk s k f).lnk = s.lnk := rfl
@[simp] theorem modStk_sw (s : State) (k : Nat) (f : Stack → Stack) : (modStk s k f).sw = s.sw := rfl
@[simp] theorem modStk_tbl (s : State) (k : Nat) (f : Stack → Stack) : (modStk s k f).tbl = s.tbl := rfl
@[simp] theorem modStk_cru (s : State) (k : Nat) (f : Stack → Stack) : (modStk s k f).cru = s.cru := rfl
@[simp] theorem modStk_plan (s : State) (k : Nat) (f : Stack → Stack) : (modStk s k f).plan = s.plan := rfl
@[simp] theorem modStk_coll (s : State) (k : Nat) (f : Stack → Stack) : (modStk s k f).coll = s.coll := rfl
@[simp] theorem modStk_tim (s : State) (k : Nat) (f : Stack → Stack) : (modStk s k f).tim = s.tim := rfl
@[simp] theorem modStk_hif (s : State) (k : Nat) (f : Stack → Stack) : (modStk s k f).hif = s.hif := rfl
@[simp] theorem modStk_hlt (s : State) (k : Nat) (f : Stack → Stack) : (modStk s k f).hlt = s.hlt := rfl
@[simp] theorem modStk_cnt (s : State) (k : Nat) (f : Stack → Stack) : (modStk s k f).cnt = s.cnt := rfl
@[simp] theorem modStk_now (s : State) (k : Nat) (f : Stack → Stack) : (modStk s k f).now = s.now := rfl
@[simp] theorem setRot_pending (s : State) (k : Nat) (r : Rot) : (setRot s k r).pending = s.pending := rfl
@[simp] theorem setRot_variant (s : State) (k : Nat) (r : Rot) : (setRot s k r).variant = s.variant := rfl
@[simp] theorem setRot_freeCtr (s : State) (k : Nat) (r : Rot) : (setRot s k r).freeCtr = s.freeCtr := rfl
@[simp] theorem setRot_regs (s : State) (k : Nat) (r : Rot) : (setRot s k r).regs = s.regs := rfl
@[simp] theorem setRot_out (s : State) (k : Nat) (r : Rot) : (setRot s k r).out = s.out := rfl
@[simp] theorem setRot_boot (s : State) (k : Nat) (r : Rot) : (setRot s k r).boot = s.boot := rfl
@[simp] theorem setRot_pwr (s : State) (k : Nat) (r : Rot) : (setRot s k r).pwr = s.pwr := rfl
@[simp] theorem setRot_opt (s : State) (k : Nat) (r : Rot) : (setRot s k r).opt = s.opt := rfl
@[simp] theorem setRot_lnk (s : State) (k : Nat) (r : Rot) : (setRot s k r).lnk = s.lnk := rfl
@[simp] theorem setRot_sw (s : State) (k : Nat) (r : Rot) : (setRot s k r).sw = s.sw := rfl
@[simp] theorem setRot_tbl (s : State) (k : Nat) (r : Rot) : (setRot s k r).tbl = s.tbl := rfl
@[simp] theorem setRot_cru (s : State) (k : Nat) (r : Rot) : (setRot s k r).cru = s.cru := rfl
@[simp] theorem setRot_plan (s : State) (k : Nat) (r : Rot) : (setRot s k r).plan = s.plan := rfl
@[simp] theorem setRot_coll (s : State) (k : Nat) (r : Rot) : (setRot s k r).coll = s.coll := rfl
@[simp] theorem setRot_tim (s : State) (k : Nat) (r : Rot) : (setRot s k r).tim = s.tim := rfl
@[simp] theorem setRot_hif (s : State) (k : Nat) (r : Rot) : (setRot s k r).hif = s.hif := rfl
@[simp] theorem setRot_hlt (s : State) (k : Nat) (r : Rot) : (setRot s k r).hlt = s.hlt := rfl
@[simp] theorem setRot_cnt (s : State) (k : Nat) (r : Rot) : (setRot s k r).cnt = s.cnt := rfl
@[simp] theorem setRot_now (s : State) (k : Nat) (r : Rot) : (setRot s k r).now = s.now := rfl
@[simp] theorem modRot_pending (s : State) (k : Nat) (f : Rot → Rot) : (modRot s k f).pending = s.pending := rfl
@[simp] theorem modRot_variant (s : State) (k : Nat) (f : Rot → Rot) : (modRot s k f).variant = s.variant := rfl
@[simp] theorem modRot_freeCtr (s : State) (k : Nat) (f : Rot → Rot) : (modRot s k f).freeCtr = s.freeCtr := rfl
@[simp] theorem modRot_regs (s : State) (k : Nat) (f : Rot → Rot) : (modRot s k f).regs = s.regs := rfl
@[simp] theorem modRot_out (s : State) (k : Nat) (f : Rot → Rot) : (modRot s k f).out = s.out := rfl
@[simp] theorem modRot_boot (s : State) (k : Nat) (f : Rot → Rot) : (modRot s k f).boot = s.boot := rfl
@[simp] theorem modRot_pwr (s : State) (k : Nat) (f : Rot → Rot) : (modRot s k f).pwr = s.pwr := rfl
@[simp] theorem modRot_opt (s : State) (k : Nat) (f : Rot → Rot) : (modRot s k f).opt = s.opt := rfl
@[simp] theorem modRot_lnk (s : State) (k : Nat) (f : Rot → Rot) : (modRot s k f).lnk = s.lnk := rfl
@[simp] theorem modRot_sw (s : State) (k : Nat) (f : Rot → Rot) : (modRot s k f).sw = s.sw := rfl
@[simp] theorem modRot_tbl (s : State) (k : Nat) (f : Rot → Rot) : (modRot s k f).tbl = s.tbl := rfl
@[simp] theorem modRot_cru (s : State) (k : Nat) (f : Rot → Rot) : (modRot s k f).cru = s.cru := rfl
@[simp] theorem modRot_plan (s : State) (k : Nat) (f : Rot → Rot) : (modRot s k f).plan = s.plan := rfl
@[simp] theorem modRot_coll (s : State) (k : Nat) (f : Rot → Rot) : (modRot s k f).coll = s.coll := rfl
@[simp] theorem modRot_tim (s : State) (k : Nat) (f : Rot → Rot) : (modRot s k f).tim = s.tim := rfl
@[simp] theorem modRot_hif (s : State) (k : Nat) (f : Rot → Rot) : (modRot s k f).hif = s.hif := rfl
@[simp] theorem modRot_hlt (s : State) (k : Nat) (f : Rot → Rot) : (modRot s k f).hlt = s.hlt := rfl
@[simp] theorem modRot_cnt (s : State) (k : Nat) (f : Rot → Rot) : (modRot s k f).cnt = s.cnt := rfl
@[simp] theorem modRot_now (s : State) (k : Nat) (f : Rot → Rot) : (modRot s k f).now = s.now := rfl
@[simp] theorem putLine_pending (s : State) (key : Nat) (v : Line) : (putLine s key v).pending = s.pending := rfl
@[simp] theorem putLine_variant (s : State) (key : Nat) (v : Line) : (putLine s key v).variant = s.variant := rfl
@[simp] theorem putLine_freeCtr (s : State) (key : Nat) (v : Line) : (putLine s key v).freeCtr = s.freeCtr := rfl
@[simp] theorem putLine_regs (s : State) (key : Nat) (v : Line) : (putLine s key v).regs = s.regs := rfl
@[simp] theorem putLine_out (s : State) (key : Nat) (v : Line) : (putLine s key v).out = s.out := rfl
@[simp] theorem putLine_boot (s : State) (key : Nat) (v : Line) : (putLine s key v).boot = s.boot := rfl
@[simp] theorem putLine_pwr (s : State) (key : Nat) (v : Line) : (putLine s key v).pwr = s.pwr := rfl
@[simp] theorem putLine_opt (s : State) (key : Nat) (v : Line) : (putLine s key v).opt = s.opt := rfl
@[simp] theorem putLine_lnk (s : State) (key : Nat) (v : Line) : (putLine s key v).lnk = s.lnk := rfl
@[simp] theorem putLine_sw (s : State) (key : Nat) (v : Line) : (putLine s key v).sw = s.sw := rfl
@[simp] theorem putLine_tbl (s : State) (key : Nat) (v : Line) : (putLine s key v).tbl = s.tbl := rfl
@[simp] theorem putLine_cru (s : State) (key : Nat) (v : Line) : (putLine s key v).cru = s.cru := rfl
@[simp] theorem putLine_plan (s : State) (key : Nat) (v : Line) : (putLine s key v).plan = s.plan := rfl
@[simp] theorem putLine_coll (s : State) (key : Nat) (v : Line) : (putLine s key v).coll = s.coll := rfl
@[simp] theorem putLine_tim (s : State) (key : Nat) (v : Line) : (putLine s key v).tim = s.tim := rfl
@[simp] theorem putLine_hif (s : State) (key : Nat) (v : Line) : (putLine s key v).hif = s.hif := rfl
@[simp] theorem putLine_hlt (s : State) (key : Nat) (v : Line) : (putLine s key v).hlt = s.hlt := rfl
@[simp] theorem putLine_cnt (s : State) (key : Nat) (v : Line) : (putLine s key v).cnt = s.cnt := rfl
@[simp] theorem putLine_now (s : State) (key : Nat) (v : Line) : (putLine s key v).now = s.now := rfl
@[simp] theorem emitAll_pending (s : State) (l : List Output) : (emitAll s l).pending = s.pending := rfl
@[simp] theorem emitAll_variant (s : State) (l : List Output) : (emitAll s l).variant = s.variant := rfl
@[simp] theorem emitAll_freeCtr (s : State) (l : List Output) : (emitAll s l).freeCtr = s.freeCtr := rfl
@[simp] theorem emitAll_regs (s : State) (l : List Output) : (emitAll s l).regs = s.regs := rfl
@[simp] theorem emitAll_boot (s : State) (l : List Output) : (emitAll s l).boot = s.boot := rfl
@[simp] theorem emitAll_pwr (s : State) (l : List Output) : (emitAll s l).pwr = s.pwr := rfl
@[simp] theorem emitAll_opt (s : State) (l : List Output) : (emitAll s l).opt = s.opt := rfl
@[simp] theorem emitAll_lnk (s : State) (l : List Output) : (emitAll s l).lnk = s.lnk := rfl
@[simp] theorem emitAll_sw (s : State) (l : List Output) : (emitAll s l).sw = s.sw := rfl
@[simp] theorem emitAll_tbl (s : State) (l : List Output) : (emitAll s l).tbl = s.tbl := rfl
@[simp] theorem emitAll_cru (s : State) (l : List Output) : (emitAll s l).cru = s.cru := rfl
@[simp] theorem emitAll_plan (s : State) (l : List Output) : (emitAll s l).plan = s.plan := rfl
@[simp] theorem emitAll_coll (s : State) (l : List Output) : (emitAll s l).coll = s.coll := rfl
@[simp] theorem emitAll_mem (s : State) (l : List Output) : (emitAll s l).mem = s.mem := rfl
@[simp] theorem emitAll_tim (s : State) (l : List Output) : (emitAll s l).tim = s.tim := rfl
@[simp] theorem emitAll_hif (s : State) (l : List Output) : (emitAll s l).hif = s.hif := rfl
@[simp] theorem emitAll_hlt (s : State) (l : List Output) : (emitAll s l).hlt = s.hlt := rfl
@[simp] theorem emitAll_cnt (s : State) (l : List Output) : (emitAll s l).cnt = s.cnt := rfl
@[simp] theorem emitAll_now (s : State) (l : List Output) : (emitAll s l).now = s.now := rfl
@[simp] theorem doneReads_pending (s : State) (g l0 : Nat) (n : Nat) : (doneReads s g l0 n).pending = s.pending := rfl
@[simp] theorem doneReads_variant (s : State) (g l0 : Nat) (n : Nat) : (doneReads s g l0 n).variant = s.variant := rfl
@[simp] theorem doneReads_freeCtr (s : State) (g l0 : Nat) (n : Nat) : (doneReads s g l0 n).freeCtr = s.freeCtr := rfl
@[simp] theorem doneReads_regs (s : State) (g l0 : Nat) (n : Nat) : (doneReads s g l0 n).regs = s.regs := rfl
@[simp] theorem doneReads_out (s : State) (g l0 : Nat) (n : Nat) : (doneReads s g l0 n).out = s.out := rfl
@[simp] theorem doneReads_boot (s : State) (g l0 : Nat) (n : Nat) : (doneReads s g l0 n).boot = s.boot := rfl
@[simp] theorem doneReads_pwr (s : State) (g l0 : Nat) (n : Nat) : (doneReads s g l0 n).pwr = s.pwr := rfl
@[simp] theorem doneReads_opt (s : State) (g l0 : Nat) (n : Nat) : (doneReads s g l0 n).opt = s.opt := rfl
@[simp] theorem doneReads_lnk (s : State) (g l0 : Nat) (n : Nat) : (doneReads s g l0 n).lnk = s.lnk := rfl
@[simp] theorem doneReads_sw (s : State) (g l0 : Nat) (n : Nat) : (doneReads s g l0 n).sw = s.sw := rfl
@[simp] theorem doneReads_tbl (s : State) (g l0 : Nat) (n : Nat) : (doneReads s g l0 n).tbl = s.tbl := rfl
@[simp] theorem doneReads_cru (s : State) (g l0 : Nat) (n : Nat) : (doneReads s g l0 n).cru = s.cru := rfl
@[simp] theorem doneReads_plan (s : State) (g l0 : Nat) (n : Nat) : (doneReads s g l0 n).plan = s.plan := rfl
@[simp] theorem doneReads_coll (s : State) (g l0 : Nat) (n : Nat) : (doneReads s g l0 n).coll = s.coll := rfl
@[simp] theorem doneReads_tim (s : State) (g l0 : Nat) (n : Nat) : (doneReads s g l0 n).tim = s.tim := rfl
@[simp] theorem doneReads_hif (s : State) (g l0 : Nat) (n : Nat) : (doneReads s g l0 n).hif = s.hif := rfl
@[simp] theorem doneReads_hlt (s : State) (g l0 : Nat) (n : Nat) : (doneReads s g l0 n).hlt = s.hlt := rfl
@[simp] theorem doneReads_cnt (s : State) (g l0 : Nat) (n : Nat) : (doneReads s g l0 n).cnt = s.cnt := rfl
@[simp] theorem doneReads_now (s : State) (g l0 : Nat) (n : Nat) : (doneReads s g l0 n).now = s.now := rfl
@[simp] theorem setWindow_pending (s : State) (p : Nat) (w : Window) : (setWindow s p w).pending = s.pending := rfl
@[simp] theorem setWindow_variant (s : State) (p : Nat) (w : Window) : (setWindow s p w).variant = s.variant := rfl
@[simp] theorem setWindow_freeCtr (s : State) (p : Nat) (w : Window) : (setWindow s p w).freeCtr = s.freeCtr := rfl
@[simp] theorem setWindow_regs (s : State) (p : Nat) (w : Window) : (setWindow s p w).regs = s.regs := rfl
@[simp] theorem setWindow_out (s : State) (p : Nat) (w : Window) : (setWindow s p w).out = s.out := rfl
@[simp] theorem setWindow_boot (s : State) (p : Nat) (w : Window) : (setWindow s p w).boot = s.boot := rfl
@[simp] theorem setWindow_pwr (s : State) (p : Nat) (w : Window) : (setWindow s p w).pwr = s.pwr := rfl
@[simp] theorem setWindow_opt (s : State) (p : Nat) (w : Window) : (setWindow s p w).opt = s.opt := rfl
@[simp] theorem setWindow_lnk (s : State) (p : Nat) (w : Window) : (setWindow s p w).lnk = s.lnk := rfl
@[simp] theorem setWindow_sw (s : State) (p : Nat) (w : Window) : (setWindow s p w).sw = s.sw := rfl
@[simp] theorem setWindow_cru (s : State) (p : Nat) (w : Window) : (setWindow s p w).cru = s.cru := rfl
@[simp] theorem setWindow_plan (s : State) (p : Nat) (w : Window) : (setWindow s p w).plan = s.plan := rfl
@[simp] theorem setWindow_coll (s : State) (p : Nat) (w : Window) : (setWindow s p w).coll = s.coll := rfl
@[simp] theorem setWindow_mem (s : State) (p : Nat) (w : Window) : (setWindow s p w).mem = s.mem := rfl
@[simp] theorem setWindow_tim (s : State) (p : Nat) (w : Window) : (setWindow s p w).tim = s.tim := rfl
@[simp] theorem setWindow_hif (s : State) (p : Nat) (w : Window) : (setWindow s p w).hif = s.hif := rfl
@[simp] theorem setWindow_hlt (s : State) (p : Nat) (w : Window) : (setWindow s p w).hlt = s.hlt := rfl
@[simp] theorem setWindow_cnt (s : State) (p : Nat) (w : Window) : (setWindow s p w).cnt = s.cnt := rfl
@[simp] theorem setWindow_now (s : State) (p : Nat) (w : Window) : (setWindow s p w).now = s.now := rfl
@[simp] theorem setEm_pending (s : State) (i : Nat) (e : EmEntry) : (setEm s i e).pending = s.pending := rfl
@[simp] theorem setEm_variant (s : State) (i : Nat) (e : EmEntry) : (setEm s i e).variant = s.variant := rfl
@[simp] theorem setEm_freeCtr (s : State) (i : Nat) (e : EmEntry) : (setEm s i e).freeCtr = s.freeCtr := rfl
@[simp] theorem setEm_regs (s : State) (i : Nat) (e : EmEntry) : (setEm s i e).regs = s.regs := rfl
@[simp] theorem setEm_out (s : State) (i : Nat) (e : EmEntry) : (setEm s i e).out = s.out := rfl
@[simp] theorem setEm_boot (s : State) (i : Nat) (e : EmEntry) : (setEm s i e).boot = s.boot := rfl
@[simp] theorem setEm_pwr (s : State) (i : Nat) (e : EmEntry) : (setEm s i e).pwr = s.pwr := rfl
@[simp] theorem setEm_opt (s : State) (i : Nat) (e : EmEntry) : (setEm s i e).opt = s.opt := rfl
@[simp] theorem setEm_lnk (s : State) (i : Nat) (e : EmEntry) : (setEm s i e).lnk = s.lnk := rfl
@[simp] theorem setEm_sw (s : State) (i : Nat) (e : EmEntry) : (setEm s i e).sw = s.sw := rfl
@[simp] theorem setEm_cru (s : State) (i : Nat) (e : EmEntry) : (setEm s i e).cru = s.cru := rfl
@[simp] theorem setEm_plan (s : State) (i : Nat) (e : EmEntry) : (setEm s i e).plan = s.plan := rfl
@[simp] theorem setEm_coll (s : State) (i : Nat) (e : EmEntry) : (setEm s i e).coll = s.coll := rfl
@[simp] theorem setEm_mem (s : State) (i : Nat) (e : EmEntry) : (setEm s i e).mem = s.mem := rfl
@[simp] theorem setEm_tim (s : State) (i : Nat) (e : EmEntry) : (setEm s i e).tim = s.tim := rfl
@[simp] theorem setEm_hif (s : State) (i : Nat) (e : EmEntry) : (setEm s i e).hif = s.hif := rfl
@[simp] theorem setEm_hlt (s : State) (i : Nat) (e : EmEntry) : (setEm s i e).hlt = s.hlt := rfl
@[simp] theorem setEm_cnt (s : State) (i : Nat) (e : EmEntry) : (setEm s i e).cnt = s.cnt := rfl
@[simp] theorem setEm_now (s : State) (i : Nat) (e : EmEntry) : (setEm s i e).now = s.now := rfl
@[simp] theorem setSmp_pending (s : State) (d : Nat) (x : Smp) : (setSmp s d x).pending = s.pending := rfl
@[simp] theorem setSmp_variant (s : State) (d : Nat) (x : Smp) : (setSmp s d x).variant = s.variant := rfl
@[simp] theorem setSmp_freeCtr (s : State) (d : Nat) (x : Smp) : (setSmp s d x).freeCtr = s.freeCtr := rfl
@[simp] theorem setSmp_regs (s : State) (d : Nat) (x : Smp) : (setSmp s d x).regs = s.regs := rfl
@[simp] theorem setSmp_out (s : State) (d : Nat) (x : Smp) : (setSmp s d x).out = s.out := rfl
@[simp] theorem setSmp_boot (s : State) (d : Nat) (x : Smp) : (setSmp s d x).boot = s.boot := rfl
@[simp] theorem setSmp_pwr (s : State) (d : Nat) (x : Smp) : (setSmp s d x).pwr = s.pwr := rfl
@[simp] theorem setSmp_opt (s : State) (d : Nat) (x : Smp) : (setSmp s d x).opt = s.opt := rfl
@[simp] theorem setSmp_lnk (s : State) (d : Nat) (x : Smp) : (setSmp s d x).lnk = s.lnk := rfl
@[simp] theorem setSmp_sw (s : State) (d : Nat) (x : Smp) : (setSmp s d x).sw = s.sw := rfl
@[simp] theorem setSmp_tbl (s : State) (d : Nat) (x : Smp) : (setSmp s d x).tbl = s.tbl := rfl
@[simp] theorem setSmp_cru (s : State) (d : Nat) (x : Smp) : (setSmp s d x).cru = s.cru := rfl
@[simp] theorem setSmp_plan (s : State) (d : Nat) (x : Smp) : (setSmp s d x).plan = s.plan := rfl
@[simp] theorem setSmp_coll (s : State) (d : Nat) (x : Smp) : (setSmp s d x).coll = s.coll := rfl
@[simp] theorem setSmp_mem (s : State) (d : Nat) (x : Smp) : (setSmp s d x).mem = s.mem := rfl
@[simp] theorem setSmp_tim (s : State) (d : Nat) (x : Smp) : (setSmp s d x).tim = s.tim := rfl
@[simp] theorem setSmp_hif (s : State) (d : Nat) (x : Smp) : (setSmp s d x).hif = s.hif := rfl
@[simp] theorem setSmp_hlt (s : State) (d : Nat) (x : Smp) : (setSmp s d x).hlt = s.hlt := rfl
@[simp] theorem setSmp_now (s : State) (d : Nat) (x : Smp) : (setSmp s d x).now = s.now := rfl
@[simp] theorem setTherm_pending (s : State) (set : SensorSet) (u : Nat) (t : Therm) : (setTherm s set u t).pending = s.pending := rfl
@[simp] theorem setTherm_variant (s : State) (set : SensorSet) (u : Nat) (t : Therm) : (setTherm s set u t).variant = s.variant := rfl
@[simp] theorem setTherm_freeCtr (s : State) (set : SensorSet) (u : Nat) (t : Therm) : (setTherm s set u t).freeCtr = s.freeCtr := rfl
@[simp] theorem setTherm_regs (s : State) (set : SensorSet) (u : Nat) (t : Therm) : (setTherm s set u t).regs = s.regs := rfl
@[simp] theorem setTherm_out (s : State) (set : SensorSet) (u : Nat) (t : Therm) : (setTherm s set u t).out = s.out := rfl
@[simp] theorem setTherm_boot (s : State) (set : SensorSet) (u : Nat) (t : Therm) : (setTherm s set u t).boot = s.boot := rfl
@[simp] theorem setTherm_pwr (s : State) (set : SensorSet) (u : Nat) (t : Therm) : (setTherm s set u t).pwr = s.pwr := rfl
@[simp] theorem setTherm_opt (s : State) (set : SensorSet) (u : Nat) (t : Therm) : (setTherm s set u t).opt = s.opt := rfl
@[simp] theorem setTherm_lnk (s : State) (set : SensorSet) (u : Nat) (t : Therm) : (setTherm s set u t).lnk = s.lnk := rfl
@[simp] theorem setTherm_sw (s : State) (set : SensorSet) (u : Nat) (t : Therm) : (setTherm s set u t).sw = s.sw := rfl
@[simp] theorem setTherm_tbl (s : State) (set : SensorSet) (u : Nat) (t : Therm) : (setTherm s set u t).tbl = s.tbl := rfl
@[simp] theorem setTherm_cru (s : State) (set : SensorSet) (u : Nat) (t : Therm) : (setTherm s set u t).cru = s.cru := rfl
@[simp] theorem setTherm_plan (s : State) (set : SensorSet) (u : Nat) (t : Therm) : (setTherm s set u t).plan = s.plan := rfl
@[simp] theorem setTherm_coll (s : State) (set : SensorSet) (u : Nat) (t : Therm) : (setTherm s set u t).coll = s.coll := rfl
@[simp] theorem setTherm_mem (s : State) (set : SensorSet) (u : Nat) (t : Therm) : (setTherm s set u t).mem = s.mem := rfl
@[simp] theorem setTherm_tim (s : State) (set : SensorSet) (u : Nat) (t : Therm) : (setTherm s set u t).tim = s.tim := rfl
@[simp] theorem setTherm_hif (s : State) (set : SensorSet) (u : Nat) (t : Therm) : (setTherm s set u t).hif = s.hif := rfl
@[simp] theorem setTherm_cnt (s : State) (set : SensorSet) (u : Nat) (t : Therm) : (setTherm s set u t).cnt = s.cnt := rfl
@[simp] theorem setTherm_now (s : State) (set : SensorSet) (u : Nat) (t : Therm) : (setTherm s set u t).now = s.now := rfl
@[simp] theorem setDom_pending (s : State) (k : Nat) (d : Dom) : (setDom s k d).pending = s.pending := rfl
@[simp] theorem setDom_variant (s : State) (k : Nat) (d : Dom) : (setDom s k d).variant = s.variant := rfl
@[simp] theorem setDom_freeCtr (s : State) (k : Nat) (d : Dom) : (setDom s k d).freeCtr = s.freeCtr := rfl
@[simp] theorem setDom_regs (s : State) (k : Nat) (d : Dom) : (setDom s k d).regs = s.regs := rfl
@[simp] theorem setDom_out (s : State) (k : Nat) (d : Dom) : (setDom s k d).out = s.out := rfl
@[simp] theorem setDom_boot (s : State) (k : Nat) (d : Dom) : (setDom s k d).boot = s.boot := rfl
@[simp] theorem setDom_pwr (s : State) (k : Nat) (d : Dom) : (setDom s k d).pwr = s.pwr := rfl
@[simp] theorem setDom_opt (s : State) (k : Nat) (d : Dom) : (setDom s k d).opt = s.opt := rfl
@[simp] theorem setDom_lnk (s : State) (k : Nat) (d : Dom) : (setDom s k d).lnk = s.lnk := rfl
@[simp] theorem setDom_sw (s : State) (k : Nat) (d : Dom) : (setDom s k d).sw = s.sw := rfl
@[simp] theorem setDom_tbl (s : State) (k : Nat) (d : Dom) : (setDom s k d).tbl = s.tbl := rfl
@[simp] theorem setDom_cru (s : State) (k : Nat) (d : Dom) : (setDom s k d).cru = s.cru := rfl
@[simp] theorem setDom_plan (s : State) (k : Nat) (d : Dom) : (setDom s k d).plan = s.plan := rfl
@[simp] theorem setDom_coll (s : State) (k : Nat) (d : Dom) : (setDom s k d).coll = s.coll := rfl
@[simp] theorem setDom_mem (s : State) (k : Nat) (d : Dom) : (setDom s k d).mem = s.mem := rfl
@[simp] theorem setDom_hif (s : State) (k : Nat) (d : Dom) : (setDom s k d).hif = s.hif := rfl
@[simp] theorem setDom_hlt (s : State) (k : Nat) (d : Dom) : (setDom s k d).hlt = s.hlt := rfl
@[simp] theorem setDom_cnt (s : State) (k : Nat) (d : Dom) : (setDom s k d).cnt = s.cnt := rfl
@[simp] theorem setDom_now (s : State) (k : Nat) (d : Dom) : (setDom s k d).now = s.now := rfl
@[simp] theorem modDom_pending (s : State) (k : Nat) (f : Dom → Dom) : (modDom s k f).pending = s.pending := rfl
@[simp] theorem modDom_variant (s : State) (k : Nat) (f : Dom → Dom) : (modDom s k f).variant = s.variant := rfl
@[simp] theorem modDom_freeCtr (s : State) (k : Nat) (f : Dom → Dom) : (modDom s k f).freeCtr = s.freeCtr := rfl
@[simp] theorem modDom_regs (s : State) (k : Nat) (f : Dom → Dom) : (modDom s k f).regs = s.regs := rfl
@[simp] theorem modDom_out (s : State) (k : Nat) (f : Dom → Dom) : (modDom s k f).out = s.out := rfl
@[simp] theorem modDom_boot (s : State) (k : Nat) (f : Dom → Dom) : (modDom s k f).boot = s.boot := rfl
@[simp] theorem modDom_pwr (s : State) (k : Nat) (f : Dom → Dom) : (modDom s k f).pwr = s.pwr := rfl
@[simp] theorem modDom_opt (s : State) (k : Nat) (f : Dom → Dom) : (modDom s k f).opt = s.opt := rfl
@[simp] theorem modDom_lnk (s : State) (k : Nat) (f : Dom → Dom) : (modDom s k f).lnk = s.lnk := rfl
@[simp] theorem modDom_sw (s : State) (k : Nat) (f : Dom → Dom) : (modDom s k f).sw = s.sw := rfl
@[simp] theorem modDom_tbl (s : State) (k : Nat) (f : Dom → Dom) : (modDom s k f).tbl = s.tbl := rfl
@[simp] theorem modDom_cru (s : State) (k : Nat) (f : Dom → Dom) : (modDom s k f).cru = s.cru := rfl
@[simp] theorem modDom_plan (s : State) (k : Nat) (f : Dom → Dom) : (modDom s k f).plan = s.plan := rfl
@[simp] theorem modDom_coll (s : State) (k : Nat) (f : Dom → Dom) : (modDom s k f).coll = s.coll := rfl
@[simp] theorem modDom_mem (s : State) (k : Nat) (f : Dom → Dom) : (modDom s k f).mem = s.mem := rfl
@[simp] theorem modDom_hif (s : State) (k : Nat) (f : Dom → Dom) : (modDom s k f).hif = s.hif := rfl
@[simp] theorem modDom_hlt (s : State) (k : Nat) (f : Dom → Dom) : (modDom s k f).hlt = s.hlt := rfl
@[simp] theorem modDom_cnt (s : State) (k : Nat) (f : Dom → Dom) : (modDom s k f).cnt = s.cnt := rfl
@[simp] theorem modDom_now (s : State) (k : Nat) (f : Dom → Dom) : (modDom s k f).now = s.now := rfl
@[simp] theorem putR_pending (s : State) (off : Nat) (v : Word) : (putR s off v).pending = s.pending := rfl
@[simp] theorem putR_variant (s : State) (off : Nat) (v : Word) : (putR s off v).variant = s.variant := rfl
@[simp] theorem putR_freeCtr (s : State) (off : Nat) (v : Word) : (putR s off v).freeCtr = s.freeCtr := rfl
@[simp] theorem putR_out (s : State) (off : Nat) (v : Word) : (putR s off v).out = s.out := rfl
@[simp] theorem putR_boot (s : State) (off : Nat) (v : Word) : (putR s off v).boot = s.boot := rfl
@[simp] theorem putR_pwr (s : State) (off : Nat) (v : Word) : (putR s off v).pwr = s.pwr := rfl
@[simp] theorem putR_opt (s : State) (off : Nat) (v : Word) : (putR s off v).opt = s.opt := rfl
@[simp] theorem putR_lnk (s : State) (off : Nat) (v : Word) : (putR s off v).lnk = s.lnk := rfl
@[simp] theorem putR_sw (s : State) (off : Nat) (v : Word) : (putR s off v).sw = s.sw := rfl
@[simp] theorem putR_tbl (s : State) (off : Nat) (v : Word) : (putR s off v).tbl = s.tbl := rfl
@[simp] theorem putR_cru (s : State) (off : Nat) (v : Word) : (putR s off v).cru = s.cru := rfl
@[simp] theorem putR_plan (s : State) (off : Nat) (v : Word) : (putR s off v).plan = s.plan := rfl
@[simp] theorem putR_coll (s : State) (off : Nat) (v : Word) : (putR s off v).coll = s.coll := rfl
@[simp] theorem putR_mem (s : State) (off : Nat) (v : Word) : (putR s off v).mem = s.mem := rfl
@[simp] theorem putR_tim (s : State) (off : Nat) (v : Word) : (putR s off v).tim = s.tim := rfl
@[simp] theorem putR_hif (s : State) (off : Nat) (v : Word) : (putR s off v).hif = s.hif := rfl
@[simp] theorem putR_hlt (s : State) (off : Nat) (v : Word) : (putR s off v).hlt = s.hlt := rfl
@[simp] theorem putR_cnt (s : State) (off : Nat) (v : Word) : (putR s off v).cnt = s.cnt := rfl
@[simp] theorem putR_now (s : State) (off : Nat) (v : Word) : (putR s off v).now = s.now := rfl
@[simp] theorem setRf_pending (s : State) (off : Nat) (hi : Nat) (lo : Nat) (v : Nat) : (setRf s off hi lo v).pending = s.pending := rfl
@[simp] theorem setRf_variant (s : State) (off : Nat) (hi : Nat) (lo : Nat) (v : Nat) : (setRf s off hi lo v).variant = s.variant := rfl
@[simp] theorem setRf_freeCtr (s : State) (off : Nat) (hi : Nat) (lo : Nat) (v : Nat) : (setRf s off hi lo v).freeCtr = s.freeCtr := rfl
@[simp] theorem setRf_out (s : State) (off : Nat) (hi : Nat) (lo : Nat) (v : Nat) : (setRf s off hi lo v).out = s.out := rfl
@[simp] theorem setRf_boot (s : State) (off : Nat) (hi : Nat) (lo : Nat) (v : Nat) : (setRf s off hi lo v).boot = s.boot := rfl
@[simp] theorem setRf_pwr (s : State) (off : Nat) (hi : Nat) (lo : Nat) (v : Nat) : (setRf s off hi lo v).pwr = s.pwr := rfl
@[simp] theorem setRf_opt (s : State) (off : Nat) (hi : Nat) (lo : Nat) (v : Nat) : (setRf s off hi lo v).opt = s.opt := rfl
@[simp] theorem setRf_lnk (s : State) (off : Nat) (hi : Nat) (lo : Nat) (v : Nat) : (setRf s off hi lo v).lnk = s.lnk := rfl
@[simp] theorem setRf_sw (s : State) (off : Nat) (hi : Nat) (lo : Nat) (v : Nat) : (setRf s off hi lo v).sw = s.sw := rfl
@[simp] theorem setRf_tbl (s : State) (off : Nat) (hi : Nat) (lo : Nat) (v : Nat) : (setRf s off hi lo v).tbl = s.tbl := rfl
@[simp] theorem setRf_cru (s : State) (off : Nat) (hi : Nat) (lo : Nat) (v : Nat) : (setRf s off hi lo v).cru = s.cru := rfl
@[simp] theorem setRf_plan (s : State) (off : Nat) (hi : Nat) (lo : Nat) (v : Nat) : (setRf s off hi lo v).plan = s.plan := rfl
@[simp] theorem setRf_coll (s : State) (off : Nat) (hi : Nat) (lo : Nat) (v : Nat) : (setRf s off hi lo v).coll = s.coll := rfl
@[simp] theorem setRf_mem (s : State) (off : Nat) (hi : Nat) (lo : Nat) (v : Nat) : (setRf s off hi lo v).mem = s.mem := rfl
@[simp] theorem setRf_tim (s : State) (off : Nat) (hi : Nat) (lo : Nat) (v : Nat) : (setRf s off hi lo v).tim = s.tim := rfl
@[simp] theorem setRf_hif (s : State) (off : Nat) (hi : Nat) (lo : Nat) (v : Nat) : (setRf s off hi lo v).hif = s.hif := rfl
@[simp] theorem setRf_hlt (s : State) (off : Nat) (hi : Nat) (lo : Nat) (v : Nat) : (setRf s off hi lo v).hlt = s.hlt := rfl
@[simp] theorem setRf_cnt (s : State) (off : Nat) (hi : Nat) (lo : Nat) (v : Nat) : (setRf s off hi lo v).cnt = s.cnt := rfl
@[simp] theorem setRf_now (s : State) (off : Nat) (hi : Nat) (lo : Nat) (v : Nat) : (setRf s off hi lo v).now = s.now := rfl
@[simp] theorem advanceEpoch_pending (s : State) : (advanceEpoch s).pending = s.pending := rfl
@[simp] theorem advanceEpoch_variant (s : State) : (advanceEpoch s).variant = s.variant := rfl
@[simp] theorem advanceEpoch_freeCtr (s : State) : (advanceEpoch s).freeCtr = s.freeCtr := rfl
@[simp] theorem advanceEpoch_regs (s : State) : (advanceEpoch s).regs = s.regs := rfl
@[simp] theorem advanceEpoch_out (s : State) : (advanceEpoch s).out = s.out := rfl
@[simp] theorem advanceEpoch_boot (s : State) : (advanceEpoch s).boot = s.boot := rfl
@[simp] theorem advanceEpoch_pwr (s : State) : (advanceEpoch s).pwr = s.pwr := rfl
@[simp] theorem advanceEpoch_opt (s : State) : (advanceEpoch s).opt = s.opt := rfl
@[simp] theorem advanceEpoch_lnk (s : State) : (advanceEpoch s).lnk = s.lnk := rfl
@[simp] theorem advanceEpoch_sw (s : State) : (advanceEpoch s).sw = s.sw := rfl
@[simp] theorem advanceEpoch_tbl (s : State) : (advanceEpoch s).tbl = s.tbl := rfl
@[simp] theorem advanceEpoch_cru (s : State) : (advanceEpoch s).cru = s.cru := rfl
@[simp] theorem advanceEpoch_plan (s : State) : (advanceEpoch s).plan = s.plan := rfl
@[simp] theorem advanceEpoch_coll (s : State) : (advanceEpoch s).coll = s.coll := rfl
@[simp] theorem advanceEpoch_mem (s : State) : (advanceEpoch s).mem = s.mem := rfl
@[simp] theorem advanceEpoch_tim (s : State) : (advanceEpoch s).tim = s.tim := rfl
@[simp] theorem advanceEpoch_hlt (s : State) : (advanceEpoch s).hlt = s.hlt := rfl
@[simp] theorem advanceEpoch_cnt (s : State) : (advanceEpoch s).cnt = s.cnt := rfl
@[simp] theorem advanceEpoch_now (s : State) : (advanceEpoch s).now = s.now := rfl
@[simp] theorem reqResult_pending (s : State) (r : Nat) : (reqResult s r).pending = s.pending := rfl
@[simp] theorem reqResult_variant (s : State) (r : Nat) : (reqResult s r).variant = s.variant := rfl
@[simp] theorem reqResult_freeCtr (s : State) (r : Nat) : (reqResult s r).freeCtr = s.freeCtr := rfl
@[simp] theorem reqResult_regs (s : State) (r : Nat) : (reqResult s r).regs = s.regs := rfl
@[simp] theorem reqResult_out (s : State) (r : Nat) : (reqResult s r).out = s.out := rfl
@[simp] theorem reqResult_boot (s : State) (r : Nat) : (reqResult s r).boot = s.boot := rfl
@[simp] theorem reqResult_opt (s : State) (r : Nat) : (reqResult s r).opt = s.opt := rfl
@[simp] theorem reqResult_lnk (s : State) (r : Nat) : (reqResult s r).lnk = s.lnk := rfl
@[simp] theorem reqResult_sw (s : State) (r : Nat) : (reqResult s r).sw = s.sw := rfl
@[simp] theorem reqResult_tbl (s : State) (r : Nat) : (reqResult s r).tbl = s.tbl := rfl
@[simp] theorem reqResult_cru (s : State) (r : Nat) : (reqResult s r).cru = s.cru := rfl
@[simp] theorem reqResult_plan (s : State) (r : Nat) : (reqResult s r).plan = s.plan := rfl
@[simp] theorem reqResult_coll (s : State) (r : Nat) : (reqResult s r).coll = s.coll := rfl
@[simp] theorem reqResult_mem (s : State) (r : Nat) : (reqResult s r).mem = s.mem := rfl
@[simp] theorem reqResult_tim (s : State) (r : Nat) : (reqResult s r).tim = s.tim := rfl
@[simp] theorem reqResult_hif (s : State) (r : Nat) : (reqResult s r).hif = s.hif := rfl
@[simp] theorem reqResult_hlt (s : State) (r : Nat) : (reqResult s r).hlt = s.hlt := rfl
@[simp] theorem reqResult_cnt (s : State) (r : Nat) : (reqResult s r).cnt = s.cnt := rfl
@[simp] theorem reqResult_now (s : State) (r : Nat) : (reqResult s r).now = s.now := rfl
@[simp] theorem becomeActive_pending (s : State) : (becomeActive s).pending = s.pending := rfl
@[simp] theorem becomeActive_variant (s : State) : (becomeActive s).variant = s.variant := rfl
@[simp] theorem becomeActive_freeCtr (s : State) : (becomeActive s).freeCtr = s.freeCtr := rfl
@[simp] theorem becomeActive_regs (s : State) : (becomeActive s).regs = s.regs := rfl
@[simp] theorem becomeActive_out (s : State) : (becomeActive s).out = s.out := rfl
@[simp] theorem becomeActive_boot (s : State) : (becomeActive s).boot = s.boot := rfl
@[simp] theorem becomeActive_opt (s : State) : (becomeActive s).opt = s.opt := rfl
@[simp] theorem becomeActive_lnk (s : State) : (becomeActive s).lnk = s.lnk := rfl
@[simp] theorem becomeActive_sw (s : State) : (becomeActive s).sw = s.sw := rfl
@[simp] theorem becomeActive_tbl (s : State) : (becomeActive s).tbl = s.tbl := rfl
@[simp] theorem becomeActive_cru (s : State) : (becomeActive s).cru = s.cru := rfl
@[simp] theorem becomeActive_plan (s : State) : (becomeActive s).plan = s.plan := rfl
@[simp] theorem becomeActive_coll (s : State) : (becomeActive s).coll = s.coll := rfl
@[simp] theorem becomeActive_mem (s : State) : (becomeActive s).mem = s.mem := rfl
@[simp] theorem becomeActive_tim (s : State) : (becomeActive s).tim = s.tim := rfl
@[simp] theorem becomeActive_hif (s : State) : (becomeActive s).hif = s.hif := rfl
@[simp] theorem becomeActive_hlt (s : State) : (becomeActive s).hlt = s.hlt := rfl
@[simp] theorem becomeActive_cnt (s : State) : (becomeActive s).cnt = s.cnt := rfl
@[simp] theorem becomeActive_now (s : State) : (becomeActive s).now = s.now := rfl
@[simp] theorem setStage_pending (s : State) (n : Nat) : (setStage s n).pending = s.pending := rfl
@[simp] theorem setStage_variant (s : State) (n : Nat) : (setStage s n).variant = s.variant := rfl
@[simp] theorem setStage_freeCtr (s : State) (n : Nat) : (setStage s n).freeCtr = s.freeCtr := rfl
@[simp] theorem setStage_regs (s : State) (n : Nat) : (setStage s n).regs = s.regs := rfl
@[simp] theorem setStage_out (s : State) (n : Nat) : (setStage s n).out = s.out := rfl
@[simp] theorem setStage_pwr (s : State) (n : Nat) : (setStage s n).pwr = s.pwr := rfl
@[simp] theorem setStage_opt (s : State) (n : Nat) : (setStage s n).opt = s.opt := rfl
@[simp] theorem setStage_lnk (s : State) (n : Nat) : (setStage s n).lnk = s.lnk := rfl
@[simp] theorem setStage_sw (s : State) (n : Nat) : (setStage s n).sw = s.sw := rfl
@[simp] theorem setStage_tbl (s : State) (n : Nat) : (setStage s n).tbl = s.tbl := rfl
@[simp] theorem setStage_cru (s : State) (n : Nat) : (setStage s n).cru = s.cru := rfl
@[simp] theorem setStage_plan (s : State) (n : Nat) : (setStage s n).plan = s.plan := rfl
@[simp] theorem setStage_coll (s : State) (n : Nat) : (setStage s n).coll = s.coll := rfl
@[simp] theorem setStage_mem (s : State) (n : Nat) : (setStage s n).mem = s.mem := rfl
@[simp] theorem setStage_tim (s : State) (n : Nat) : (setStage s n).tim = s.tim := rfl
@[simp] theorem setStage_hif (s : State) (n : Nat) : (setStage s n).hif = s.hif := rfl
@[simp] theorem setStage_hlt (s : State) (n : Nat) : (setStage s n).hlt = s.hlt := rfl
@[simp] theorem setStage_cnt (s : State) (n : Nat) : (setStage s n).cnt = s.cnt := rfl
@[simp] theorem setStage_now (s : State) (n : Nat) : (setStage s n).now = s.now := rfl
@[simp] theorem extendMeas_pending (s : State) (i : Nat) (d : BitVec 384) : (extendMeas s i d).pending = s.pending := rfl
@[simp] theorem extendMeas_variant (s : State) (i : Nat) (d : BitVec 384) : (extendMeas s i d).variant = s.variant := rfl
@[simp] theorem extendMeas_freeCtr (s : State) (i : Nat) (d : BitVec 384) : (extendMeas s i d).freeCtr = s.freeCtr := rfl
@[simp] theorem extendMeas_regs (s : State) (i : Nat) (d : BitVec 384) : (extendMeas s i d).regs = s.regs := rfl
@[simp] theorem extendMeas_out (s : State) (i : Nat) (d : BitVec 384) : (extendMeas s i d).out = s.out := rfl
@[simp] theorem extendMeas_pwr (s : State) (i : Nat) (d : BitVec 384) : (extendMeas s i d).pwr = s.pwr := rfl
@[simp] theorem extendMeas_opt (s : State) (i : Nat) (d : BitVec 384) : (extendMeas s i d).opt = s.opt := rfl
@[simp] theorem extendMeas_lnk (s : State) (i : Nat) (d : BitVec 384) : (extendMeas s i d).lnk = s.lnk := rfl
@[simp] theorem extendMeas_sw (s : State) (i : Nat) (d : BitVec 384) : (extendMeas s i d).sw = s.sw := rfl
@[simp] theorem extendMeas_tbl (s : State) (i : Nat) (d : BitVec 384) : (extendMeas s i d).tbl = s.tbl := rfl
@[simp] theorem extendMeas_cru (s : State) (i : Nat) (d : BitVec 384) : (extendMeas s i d).cru = s.cru := rfl
@[simp] theorem extendMeas_plan (s : State) (i : Nat) (d : BitVec 384) : (extendMeas s i d).plan = s.plan := rfl
@[simp] theorem extendMeas_coll (s : State) (i : Nat) (d : BitVec 384) : (extendMeas s i d).coll = s.coll := rfl
@[simp] theorem extendMeas_mem (s : State) (i : Nat) (d : BitVec 384) : (extendMeas s i d).mem = s.mem := rfl
@[simp] theorem extendMeas_tim (s : State) (i : Nat) (d : BitVec 384) : (extendMeas s i d).tim = s.tim := rfl
@[simp] theorem extendMeas_hif (s : State) (i : Nat) (d : BitVec 384) : (extendMeas s i d).hif = s.hif := rfl
@[simp] theorem extendMeas_hlt (s : State) (i : Nat) (d : BitVec 384) : (extendMeas s i d).hlt = s.hlt := rfl
@[simp] theorem extendMeas_cnt (s : State) (i : Nat) (d : BitVec 384) : (extendMeas s i d).cnt = s.cnt := rfl
@[simp] theorem extendMeas_now (s : State) (i : Nat) (d : BitVec 384) : (extendMeas s i d).now = s.now := rfl
@[simp] theorem mboxAnswer_pending (s : State) (status : Nat) (resp : List Word) : (mboxAnswer s status resp).pending = s.pending := rfl
@[simp] theorem mboxAnswer_variant (s : State) (status : Nat) (resp : List Word) : (mboxAnswer s status resp).variant = s.variant := rfl
@[simp] theorem mboxAnswer_freeCtr (s : State) (status : Nat) (resp : List Word) : (mboxAnswer s status resp).freeCtr = s.freeCtr := rfl
@[simp] theorem mboxAnswer_regs (s : State) (status : Nat) (resp : List Word) : (mboxAnswer s status resp).regs = s.regs := rfl
@[simp] theorem mboxAnswer_out (s : State) (status : Nat) (resp : List Word) : (mboxAnswer s status resp).out = s.out := rfl
@[simp] theorem mboxAnswer_boot (s : State) (status : Nat) (resp : List Word) : (mboxAnswer s status resp).boot = s.boot := rfl
@[simp] theorem mboxAnswer_pwr (s : State) (status : Nat) (resp : List Word) : (mboxAnswer s status resp).pwr = s.pwr := rfl
@[simp] theorem mboxAnswer_opt (s : State) (status : Nat) (resp : List Word) : (mboxAnswer s status resp).opt = s.opt := rfl
@[simp] theorem mboxAnswer_lnk (s : State) (status : Nat) (resp : List Word) : (mboxAnswer s status resp).lnk = s.lnk := rfl
@[simp] theorem mboxAnswer_sw (s : State) (status : Nat) (resp : List Word) : (mboxAnswer s status resp).sw = s.sw := rfl
@[simp] theorem mboxAnswer_tbl (s : State) (status : Nat) (resp : List Word) : (mboxAnswer s status resp).tbl = s.tbl := rfl
@[simp] theorem mboxAnswer_cru (s : State) (status : Nat) (resp : List Word) : (mboxAnswer s status resp).cru = s.cru := rfl
@[simp] theorem mboxAnswer_plan (s : State) (status : Nat) (resp : List Word) : (mboxAnswer s status resp).plan = s.plan := rfl
@[simp] theorem mboxAnswer_coll (s : State) (status : Nat) (resp : List Word) : (mboxAnswer s status resp).coll = s.coll := rfl
@[simp] theorem mboxAnswer_mem (s : State) (status : Nat) (resp : List Word) : (mboxAnswer s status resp).mem = s.mem := rfl
@[simp] theorem mboxAnswer_tim (s : State) (status : Nat) (resp : List Word) : (mboxAnswer s status resp).tim = s.tim := rfl
@[simp] theorem mboxAnswer_hlt (s : State) (status : Nat) (resp : List Word) : (mboxAnswer s status resp).hlt = s.hlt := rfl
@[simp] theorem mboxAnswer_cnt (s : State) (status : Nat) (resp : List Word) : (mboxAnswer s status resp).cnt = s.cnt := rfl
@[simp] theorem mboxAnswer_now (s : State) (status : Nat) (resp : List Word) : (mboxAnswer s status resp).now = s.now := rfl
@[simp] theorem refreshLimits_pending (s : State) : (refreshLimits s).pending = s.pending := rfl
@[simp] theorem refreshLimits_variant (s : State) : (refreshLimits s).variant = s.variant := rfl
@[simp] theorem refreshLimits_freeCtr (s : State) : (refreshLimits s).freeCtr = s.freeCtr := rfl
@[simp] theorem refreshLimits_regs (s : State) : (refreshLimits s).regs = s.regs := rfl
@[simp] theorem refreshLimits_out (s : State) : (refreshLimits s).out = s.out := rfl
@[simp] theorem refreshLimits_boot (s : State) : (refreshLimits s).boot = s.boot := rfl
@[simp] theorem refreshLimits_pwr (s : State) : (refreshLimits s).pwr = s.pwr := rfl
@[simp] theorem refreshLimits_opt (s : State) : (refreshLimits s).opt = s.opt := rfl
@[simp] theorem refreshLimits_lnk (s : State) : (refreshLimits s).lnk = s.lnk := rfl
@[simp] theorem refreshLimits_sw (s : State) : (refreshLimits s).sw = s.sw := rfl
@[simp] theorem refreshLimits_tbl (s : State) : (refreshLimits s).tbl = s.tbl := rfl
@[simp] theorem refreshLimits_cru (s : State) : (refreshLimits s).cru = s.cru := rfl
@[simp] theorem refreshLimits_plan (s : State) : (refreshLimits s).plan = s.plan := rfl
@[simp] theorem refreshLimits_coll (s : State) : (refreshLimits s).coll = s.coll := rfl
@[simp] theorem refreshLimits_mem (s : State) : (refreshLimits s).mem = s.mem := rfl
@[simp] theorem refreshLimits_tim (s : State) : (refreshLimits s).tim = s.tim := rfl
@[simp] theorem refreshLimits_hif (s : State) : (refreshLimits s).hif = s.hif := rfl
@[simp] theorem refreshLimits_cnt (s : State) : (refreshLimits s).cnt = s.cnt := rfl
@[simp] theorem refreshLimits_now (s : State) : (refreshLimits s).now = s.now := rfl
@[simp] theorem awaitOpt_pending (s : State) (t : Option Nat) (d : Nat) : (awaitOpt s t d).pending = s.pending := (awaitOpt_fr _ _ _).pending
@[simp] theorem awaitOpt_variant (s : State) (t : Option Nat) (d : Nat) : (awaitOpt s t d).variant = s.variant := (awaitOpt_fr _ _ _).variant
@[simp] theorem awaitOpt_freeCtr (s : State) (t : Option Nat) (d : Nat) : (awaitOpt s t d).freeCtr = s.freeCtr := (awaitOpt_fr _ _ _).freeCtr rfl
@[simp] theorem awaitOpt_regs (s : State) (t : Option Nat) (d : Nat) : (awaitOpt s t d).regs = s.regs := (awaitOpt_fr _ _ _).regs rfl
@[simp] theorem awaitOpt_out (s : State) (t : Option Nat) (d : Nat) : (awaitOpt s t d).out = s.out := (awaitOpt_fr _ _ _).out rfl
@[simp] theorem awaitOpt_boot (s : State) (t : Option Nat) (d : Nat) : (awaitOpt s t d).boot = s.boot := (awaitOpt_fr _ _ _).boot rfl
@[simp] theorem awaitOpt_pwr (s : State) (t : Option Nat) (d : Nat) : (awaitOpt s t d).pwr = s.pwr := (awaitOpt_fr _ _ _).pwr rfl
@[simp] theorem awaitOpt_opt (s : State) (t : Option Nat) (d : Nat) : (awaitOpt s t d).opt = s.opt := (awaitOpt_fr _ _ _).opt rfl
@[simp] theorem awaitOpt_lnk (s : State) (t : Option Nat) (d : Nat) : (awaitOpt s t d).lnk = s.lnk := (awaitOpt_fr _ _ _).lnk rfl
@[simp] theorem awaitOpt_sw (s : State) (t : Option Nat) (d : Nat) : (awaitOpt s t d).sw = s.sw := (awaitOpt_fr _ _ _).sw rfl
@[simp] theorem awaitOpt_tbl (s : State) (t : Option Nat) (d : Nat) : (awaitOpt s t d).tbl = s.tbl := (awaitOpt_fr _ _ _).tbl rfl
@[simp] theorem awaitOpt_cru (s : State) (t : Option Nat) (d : Nat) : (awaitOpt s t d).cru = s.cru := (awaitOpt_fr _ _ _).cru rfl
@[simp] theorem awaitOpt_plan (s : State) (t : Option Nat) (d : Nat) : (awaitOpt s t d).plan = s.plan := (awaitOpt_fr _ _ _).plan rfl
@[simp] theorem awaitOpt_coll (s : State) (t : Option Nat) (d : Nat) : (awaitOpt s t d).coll = s.coll := (awaitOpt_fr _ _ _).coll rfl
@[simp] theorem awaitOpt_mem (s : State) (t : Option Nat) (d : Nat) : (awaitOpt s t d).mem = s.mem := (awaitOpt_fr _ _ _).mem rfl
@[simp] theorem awaitOpt_tim (s : State) (t : Option Nat) (d : Nat) : (awaitOpt s t d).tim = s.tim := (awaitOpt_fr _ _ _).tim rfl
@[simp] theorem awaitOpt_hif (s : State) (t : Option Nat) (d : Nat) : (awaitOpt s t d).hif = s.hif := (awaitOpt_fr _ _ _).hif rfl
@[simp] theorem awaitOpt_hlt (s : State) (t : Option Nat) (d : Nat) : (awaitOpt s t d).hlt = s.hlt := (awaitOpt_fr _ _ _).hlt rfl
@[simp] theorem awaitOpt_cnt (s : State) (t : Option Nat) (d : Nat) : (awaitOpt s t d).cnt = s.cnt := (awaitOpt_fr _ _ _).cnt rfl
@[simp] theorem awaitNt_pending (s : State) (t : Nat) : (awaitNt s t).pending = s.pending := (awaitNt_fr _ _).pending
@[simp] theorem awaitNt_variant (s : State) (t : Nat) : (awaitNt s t).variant = s.variant := (awaitNt_fr _ _).variant
@[simp] theorem awaitNt_freeCtr (s : State) (t : Nat) : (awaitNt s t).freeCtr = s.freeCtr := (awaitNt_fr _ _).freeCtr rfl
@[simp] theorem awaitNt_regs (s : State) (t : Nat) : (awaitNt s t).regs = s.regs := (awaitNt_fr _ _).regs rfl
@[simp] theorem awaitNt_out (s : State) (t : Nat) : (awaitNt s t).out = s.out := (awaitNt_fr _ _).out rfl
@[simp] theorem awaitNt_boot (s : State) (t : Nat) : (awaitNt s t).boot = s.boot := (awaitNt_fr _ _).boot rfl
@[simp] theorem awaitNt_pwr (s : State) (t : Nat) : (awaitNt s t).pwr = s.pwr := (awaitNt_fr _ _).pwr rfl
@[simp] theorem awaitNt_opt (s : State) (t : Nat) : (awaitNt s t).opt = s.opt := (awaitNt_fr _ _).opt rfl
@[simp] theorem awaitNt_lnk (s : State) (t : Nat) : (awaitNt s t).lnk = s.lnk := (awaitNt_fr _ _).lnk rfl
@[simp] theorem awaitNt_sw (s : State) (t : Nat) : (awaitNt s t).sw = s.sw := (awaitNt_fr _ _).sw rfl
@[simp] theorem awaitNt_tbl (s : State) (t : Nat) : (awaitNt s t).tbl = s.tbl := (awaitNt_fr _ _).tbl rfl
@[simp] theorem awaitNt_cru (s : State) (t : Nat) : (awaitNt s t).cru = s.cru := (awaitNt_fr _ _).cru rfl
@[simp] theorem awaitNt_plan (s : State) (t : Nat) : (awaitNt s t).plan = s.plan := (awaitNt_fr _ _).plan rfl
@[simp] theorem awaitNt_coll (s : State) (t : Nat) : (awaitNt s t).coll = s.coll := (awaitNt_fr _ _).coll rfl
@[simp] theorem awaitNt_mem (s : State) (t : Nat) : (awaitNt s t).mem = s.mem := (awaitNt_fr _ _).mem rfl
@[simp] theorem awaitNt_tim (s : State) (t : Nat) : (awaitNt s t).tim = s.tim := (awaitNt_fr _ _).tim rfl
@[simp] theorem awaitNt_hif (s : State) (t : Nat) : (awaitNt s t).hif = s.hif := (awaitNt_fr _ _).hif rfl
@[simp] theorem awaitNt_hlt (s : State) (t : Nat) : (awaitNt s t).hlt = s.hlt := (awaitNt_fr _ _).hlt rfl
@[simp] theorem awaitNt_cnt (s : State) (t : Nat) : (awaitNt s t).cnt = s.cnt := (awaitNt_fr _ _).cnt rfl
@[simp] theorem writeReg_pending (s : State) (off : Nat) (v : Word) : (writeReg s off v).pending = s.pending := (writeReg_fr _ _ _).pending
@[simp] theorem writeReg_variant (s : State) (off : Nat) (v : Word) : (writeReg s off v).variant = s.variant := (writeReg_fr _ _ _).variant
@[simp] theorem writeReg_freeCtr (s : State) (off : Nat) (v : Word) : (writeReg s off v).freeCtr = s.freeCtr := (writeReg_fr _ _ _).freeCtr rfl
@[simp] theorem writeReg_out (s : State) (off : Nat) (v : Word) : (writeReg s off v).out = s.out := (writeReg_fr _ _ _).out rfl
@[simp] theorem writeReg_boot (s : State) (off : Nat) (v : Word) : (writeReg s off v).boot = s.boot := (writeReg_fr _ _ _).boot rfl
@[simp] theorem writeReg_pwr (s : State) (off : Nat) (v : Word) : (writeReg s off v).pwr = s.pwr := (writeReg_fr _ _ _).pwr rfl
@[simp] theorem writeReg_opt (s : State) (off : Nat) (v : Word) : (writeReg s off v).opt = s.opt := (writeReg_fr _ _ _).opt rfl
@[simp] theorem writeReg_lnk (s : State) (off : Nat) (v : Word) : (writeReg s off v).lnk = s.lnk := (writeReg_fr _ _ _).lnk rfl
@[simp] theorem writeReg_sw (s : State) (off : Nat) (v : Word) : (writeReg s off v).sw = s.sw := (writeReg_fr _ _ _).sw rfl
@[simp] theorem writeReg_tbl (s : State) (off : Nat) (v : Word) : (writeReg s off v).tbl = s.tbl := (writeReg_fr _ _ _).tbl rfl
@[simp] theorem writeReg_cru (s : State) (off : Nat) (v : Word) : (writeReg s off v).cru = s.cru := (writeReg_fr _ _ _).cru rfl
@[simp] theorem writeReg_plan (s : State) (off : Nat) (v : Word) : (writeReg s off v).plan = s.plan := (writeReg_fr _ _ _).plan rfl
@[simp] theorem writeReg_coll (s : State) (off : Nat) (v : Word) : (writeReg s off v).coll = s.coll := (writeReg_fr _ _ _).coll rfl
@[simp] theorem writeReg_mem (s : State) (off : Nat) (v : Word) : (writeReg s off v).mem = s.mem := (writeReg_fr _ _ _).mem rfl
@[simp] theorem writeReg_tim (s : State) (off : Nat) (v : Word) : (writeReg s off v).tim = s.tim := (writeReg_fr _ _ _).tim rfl
@[simp] theorem writeReg_hif (s : State) (off : Nat) (v : Word) : (writeReg s off v).hif = s.hif := (writeReg_fr _ _ _).hif rfl
@[simp] theorem writeReg_hlt (s : State) (off : Nat) (v : Word) : (writeReg s off v).hlt = s.hlt := (writeReg_fr _ _ _).hlt rfl
@[simp] theorem writeReg_cnt (s : State) (off : Nat) (v : Word) : (writeReg s off v).cnt = s.cnt := (writeReg_fr _ _ _).cnt rfl
@[simp] theorem writeReg_now (s : State) (off : Nat) (v : Word) : (writeReg s off v).now = s.now := (writeReg_fr _ _ _).now rfl
@[simp] theorem raiseEvent_pending (s : State) (code : Nat) (part : Nat) (a0 : Nat) (a1 : Nat) : (raiseEvent s code part a0 a1).pending = s.pending := (raiseEvent_fr _ _ _ _ _).pending
@[simp] theorem raiseEvent_variant (s : State) (code : Nat) (part : Nat) (a0 : Nat) (a1 : Nat) : (raiseEvent s code part a0 a1).variant = s.variant := (raiseEvent_fr _ _ _ _ _).variant
@[simp] theorem raiseEvent_freeCtr (s : State) (code : Nat) (part : Nat) (a0 : Nat) (a1 : Nat) : (raiseEvent s code part a0 a1).freeCtr = s.freeCtr := (raiseEvent_fr _ _ _ _ _).freeCtr rfl
@[simp] theorem raiseEvent_regs (s : State) (code : Nat) (part : Nat) (a0 : Nat) (a1 : Nat) : (raiseEvent s code part a0 a1).regs = s.regs := (raiseEvent_fr _ _ _ _ _).regs rfl
@[simp] theorem raiseEvent_boot (s : State) (code : Nat) (part : Nat) (a0 : Nat) (a1 : Nat) : (raiseEvent s code part a0 a1).boot = s.boot := (raiseEvent_fr _ _ _ _ _).boot rfl
@[simp] theorem raiseEvent_pwr (s : State) (code : Nat) (part : Nat) (a0 : Nat) (a1 : Nat) : (raiseEvent s code part a0 a1).pwr = s.pwr := (raiseEvent_fr _ _ _ _ _).pwr rfl
@[simp] theorem raiseEvent_opt (s : State) (code : Nat) (part : Nat) (a0 : Nat) (a1 : Nat) : (raiseEvent s code part a0 a1).opt = s.opt := (raiseEvent_fr _ _ _ _ _).opt rfl
@[simp] theorem raiseEvent_lnk (s : State) (code : Nat) (part : Nat) (a0 : Nat) (a1 : Nat) : (raiseEvent s code part a0 a1).lnk = s.lnk := (raiseEvent_fr _ _ _ _ _).lnk rfl
@[simp] theorem raiseEvent_sw (s : State) (code : Nat) (part : Nat) (a0 : Nat) (a1 : Nat) : (raiseEvent s code part a0 a1).sw = s.sw := (raiseEvent_fr _ _ _ _ _).sw rfl
@[simp] theorem raiseEvent_tbl (s : State) (code : Nat) (part : Nat) (a0 : Nat) (a1 : Nat) : (raiseEvent s code part a0 a1).tbl = s.tbl := (raiseEvent_fr _ _ _ _ _).tbl rfl
@[simp] theorem raiseEvent_cru (s : State) (code : Nat) (part : Nat) (a0 : Nat) (a1 : Nat) : (raiseEvent s code part a0 a1).cru = s.cru := (raiseEvent_fr _ _ _ _ _).cru rfl
@[simp] theorem raiseEvent_plan (s : State) (code : Nat) (part : Nat) (a0 : Nat) (a1 : Nat) : (raiseEvent s code part a0 a1).plan = s.plan := (raiseEvent_fr _ _ _ _ _).plan rfl
@[simp] theorem raiseEvent_coll (s : State) (code : Nat) (part : Nat) (a0 : Nat) (a1 : Nat) : (raiseEvent s code part a0 a1).coll = s.coll := (raiseEvent_fr _ _ _ _ _).coll rfl
@[simp] theorem raiseEvent_mem (s : State) (code : Nat) (part : Nat) (a0 : Nat) (a1 : Nat) : (raiseEvent s code part a0 a1).mem = s.mem := (raiseEvent_fr _ _ _ _ _).mem rfl
@[simp] theorem raiseEvent_tim (s : State) (code : Nat) (part : Nat) (a0 : Nat) (a1 : Nat) : (raiseEvent s code part a0 a1).tim = s.tim := (raiseEvent_fr _ _ _ _ _).tim rfl
@[simp] theorem raiseEvent_hlt (s : State) (code : Nat) (part : Nat) (a0 : Nat) (a1 : Nat) : (raiseEvent s code part a0 a1).hlt = s.hlt := (raiseEvent_fr _ _ _ _ _).hlt rfl
@[simp] theorem raiseEvent_now (s : State) (code : Nat) (part : Nat) (a0 : Nat) (a1 : Nat) : (raiseEvent s code part a0 a1).now = s.now := (raiseEvent_fr _ _ _ _ _).now rfl
@[simp] theorem noteHealth_pending (s : State) : (noteHealth s).pending = s.pending := (noteHealth_fr _).pending
@[simp] theorem noteHealth_variant (s : State) : (noteHealth s).variant = s.variant := (noteHealth_fr _).variant
@[simp] theorem noteHealth_freeCtr (s : State) : (noteHealth s).freeCtr = s.freeCtr := (noteHealth_fr _).freeCtr rfl
@[simp] theorem noteHealth_regs (s : State) : (noteHealth s).regs = s.regs := (noteHealth_fr _).regs rfl
@[simp] theorem noteHealth_boot (s : State) : (noteHealth s).boot = s.boot := (noteHealth_fr _).boot rfl
@[simp] theorem noteHealth_pwr (s : State) : (noteHealth s).pwr = s.pwr := (noteHealth_fr _).pwr rfl
@[simp] theorem noteHealth_opt (s : State) : (noteHealth s).opt = s.opt := (noteHealth_fr _).opt rfl
@[simp] theorem noteHealth_lnk (s : State) : (noteHealth s).lnk = s.lnk := (noteHealth_fr _).lnk rfl
@[simp] theorem noteHealth_sw (s : State) : (noteHealth s).sw = s.sw := (noteHealth_fr _).sw rfl
@[simp] theorem noteHealth_tbl (s : State) : (noteHealth s).tbl = s.tbl := (noteHealth_fr _).tbl rfl
@[simp] theorem noteHealth_cru (s : State) : (noteHealth s).cru = s.cru := (noteHealth_fr _).cru rfl
@[simp] theorem noteHealth_plan (s : State) : (noteHealth s).plan = s.plan := (noteHealth_fr _).plan rfl
@[simp] theorem noteHealth_coll (s : State) : (noteHealth s).coll = s.coll := (noteHealth_fr _).coll rfl
@[simp] theorem noteHealth_mem (s : State) : (noteHealth s).mem = s.mem := (noteHealth_fr _).mem rfl
@[simp] theorem noteHealth_tim (s : State) : (noteHealth s).tim = s.tim := (noteHealth_fr _).tim rfl
@[simp] theorem noteHealth_now (s : State) : (noteHealth s).now = s.now := (noteHealth_fr _).now rfl
@[simp] theorem irqCheck_pending (s : State) (k : RingKind) (i : Nat) : (irqCheck s k i).pending = s.pending := (irqCheck_fr _ _ _).pending
@[simp] theorem irqCheck_variant (s : State) (k : RingKind) (i : Nat) : (irqCheck s k i).variant = s.variant := (irqCheck_fr _ _ _).variant
@[simp] theorem irqCheck_freeCtr (s : State) (k : RingKind) (i : Nat) : (irqCheck s k i).freeCtr = s.freeCtr := (irqCheck_fr _ _ _).freeCtr rfl
@[simp] theorem irqCheck_regs (s : State) (k : RingKind) (i : Nat) : (irqCheck s k i).regs = s.regs := (irqCheck_fr _ _ _).regs rfl
@[simp] theorem irqCheck_boot (s : State) (k : RingKind) (i : Nat) : (irqCheck s k i).boot = s.boot := (irqCheck_fr _ _ _).boot rfl
@[simp] theorem irqCheck_pwr (s : State) (k : RingKind) (i : Nat) : (irqCheck s k i).pwr = s.pwr := (irqCheck_fr _ _ _).pwr rfl
@[simp] theorem irqCheck_opt (s : State) (k : RingKind) (i : Nat) : (irqCheck s k i).opt = s.opt := (irqCheck_fr _ _ _).opt rfl
@[simp] theorem irqCheck_lnk (s : State) (k : RingKind) (i : Nat) : (irqCheck s k i).lnk = s.lnk := (irqCheck_fr _ _ _).lnk rfl
@[simp] theorem irqCheck_sw (s : State) (k : RingKind) (i : Nat) : (irqCheck s k i).sw = s.sw := (irqCheck_fr _ _ _).sw rfl
@[simp] theorem irqCheck_tbl (s : State) (k : RingKind) (i : Nat) : (irqCheck s k i).tbl = s.tbl := (irqCheck_fr _ _ _).tbl rfl
@[simp] theorem irqCheck_cru (s : State) (k : RingKind) (i : Nat) : (irqCheck s k i).cru = s.cru := (irqCheck_fr _ _ _).cru rfl
@[simp] theorem irqCheck_plan (s : State) (k : RingKind) (i : Nat) : (irqCheck s k i).plan = s.plan := (irqCheck_fr _ _ _).plan rfl
@[simp] theorem irqCheck_coll (s : State) (k : RingKind) (i : Nat) : (irqCheck s k i).coll = s.coll := (irqCheck_fr _ _ _).coll rfl
@[simp] theorem irqCheck_mem (s : State) (k : RingKind) (i : Nat) : (irqCheck s k i).mem = s.mem := (irqCheck_fr _ _ _).mem rfl
@[simp] theorem irqCheck_tim (s : State) (k : RingKind) (i : Nat) : (irqCheck s k i).tim = s.tim := (irqCheck_fr _ _ _).tim rfl
@[simp] theorem irqCheck_hlt (s : State) (k : RingKind) (i : Nat) : (irqCheck s k i).hlt = s.hlt := (irqCheck_fr _ _ _).hlt rfl
@[simp] theorem irqCheck_now (s : State) (k : RingKind) (i : Nat) : (irqCheck s k i).now = s.now := (irqCheck_fr _ _ _).now rfl
@[simp] theorem writeEntry_pending (s : State) (k : RingKind) (i : Nat) (w0 : Word) (w1 : Word) (w2 : Word) (w3 : Nat) : (writeEntry s k i w0 w1 w2 w3).pending = s.pending := (writeEntry_fr _ _ _ _ _ _ _).pending
@[simp] theorem writeEntry_variant (s : State) (k : RingKind) (i : Nat) (w0 : Word) (w1 : Word) (w2 : Word) (w3 : Nat) : (writeEntry s k i w0 w1 w2 w3).variant = s.variant := (writeEntry_fr _ _ _ _ _ _ _).variant
@[simp] theorem writeEntry_freeCtr (s : State) (k : RingKind) (i : Nat) (w0 : Word) (w1 : Word) (w2 : Word) (w3 : Nat) : (writeEntry s k i w0 w1 w2 w3).freeCtr = s.freeCtr := (writeEntry_fr _ _ _ _ _ _ _).freeCtr rfl
@[simp] theorem writeEntry_regs (s : State) (k : RingKind) (i : Nat) (w0 : Word) (w1 : Word) (w2 : Word) (w3 : Nat) : (writeEntry s k i w0 w1 w2 w3).regs = s.regs := (writeEntry_fr _ _ _ _ _ _ _).regs rfl
@[simp] theorem writeEntry_boot (s : State) (k : RingKind) (i : Nat) (w0 : Word) (w1 : Word) (w2 : Word) (w3 : Nat) : (writeEntry s k i w0 w1 w2 w3).boot = s.boot := (writeEntry_fr _ _ _ _ _ _ _).boot rfl
@[simp] theorem writeEntry_pwr (s : State) (k : RingKind) (i : Nat) (w0 : Word) (w1 : Word) (w2 : Word) (w3 : Nat) : (writeEntry s k i w0 w1 w2 w3).pwr = s.pwr := (writeEntry_fr _ _ _ _ _ _ _).pwr rfl
@[simp] theorem writeEntry_opt (s : State) (k : RingKind) (i : Nat) (w0 : Word) (w1 : Word) (w2 : Word) (w3 : Nat) : (writeEntry s k i w0 w1 w2 w3).opt = s.opt := (writeEntry_fr _ _ _ _ _ _ _).opt rfl
@[simp] theorem writeEntry_lnk (s : State) (k : RingKind) (i : Nat) (w0 : Word) (w1 : Word) (w2 : Word) (w3 : Nat) : (writeEntry s k i w0 w1 w2 w3).lnk = s.lnk := (writeEntry_fr _ _ _ _ _ _ _).lnk rfl
@[simp] theorem writeEntry_sw (s : State) (k : RingKind) (i : Nat) (w0 : Word) (w1 : Word) (w2 : Word) (w3 : Nat) : (writeEntry s k i w0 w1 w2 w3).sw = s.sw := (writeEntry_fr _ _ _ _ _ _ _).sw rfl
@[simp] theorem writeEntry_tbl (s : State) (k : RingKind) (i : Nat) (w0 : Word) (w1 : Word) (w2 : Word) (w3 : Nat) : (writeEntry s k i w0 w1 w2 w3).tbl = s.tbl := (writeEntry_fr _ _ _ _ _ _ _).tbl rfl
@[simp] theorem writeEntry_cru (s : State) (k : RingKind) (i : Nat) (w0 : Word) (w1 : Word) (w2 : Word) (w3 : Nat) : (writeEntry s k i w0 w1 w2 w3).cru = s.cru := (writeEntry_fr _ _ _ _ _ _ _).cru rfl
@[simp] theorem writeEntry_plan (s : State) (k : RingKind) (i : Nat) (w0 : Word) (w1 : Word) (w2 : Word) (w3 : Nat) : (writeEntry s k i w0 w1 w2 w3).plan = s.plan := (writeEntry_fr _ _ _ _ _ _ _).plan rfl
@[simp] theorem writeEntry_coll (s : State) (k : RingKind) (i : Nat) (w0 : Word) (w1 : Word) (w2 : Word) (w3 : Nat) : (writeEntry s k i w0 w1 w2 w3).coll = s.coll := (writeEntry_fr _ _ _ _ _ _ _).coll rfl
@[simp] theorem writeEntry_mem (s : State) (k : RingKind) (i : Nat) (w0 : Word) (w1 : Word) (w2 : Word) (w3 : Nat) : (writeEntry s k i w0 w1 w2 w3).mem = s.mem := (writeEntry_fr _ _ _ _ _ _ _).mem rfl
@[simp] theorem writeEntry_tim (s : State) (k : RingKind) (i : Nat) (w0 : Word) (w1 : Word) (w2 : Word) (w3 : Nat) : (writeEntry s k i w0 w1 w2 w3).tim = s.tim := (writeEntry_fr _ _ _ _ _ _ _).tim rfl
@[simp] theorem writeEntry_hlt (s : State) (k : RingKind) (i : Nat) (w0 : Word) (w1 : Word) (w2 : Word) (w3 : Nat) : (writeEntry s k i w0 w1 w2 w3).hlt = s.hlt := (writeEntry_fr _ _ _ _ _ _ _).hlt rfl
@[simp] theorem writeEntry_now (s : State) (k : RingKind) (i : Nat) (w0 : Word) (w1 : Word) (w2 : Word) (w3 : Nat) : (writeEntry s k i w0 w1 w2 w3).now = s.now := (writeEntry_fr _ _ _ _ _ _ _).now rfl
@[simp] theorem complete_pending (s : State) (k : RingKind) (i : Nat) (tag : Nat) (status : Nat) (detail : Nat) (count : Nat) : (complete s k i tag status detail count).pending = s.pending := (complete_fr _ _ _ _ _ _ _).pending
@[simp] theorem complete_variant (s : State) (k : RingKind) (i : Nat) (tag : Nat) (status : Nat) (detail : Nat) (count : Nat) : (complete s k i tag status detail count).variant = s.variant := (complete_fr _ _ _ _ _ _ _).variant
@[simp] theorem complete_freeCtr (s : State) (k : RingKind) (i : Nat) (tag : Nat) (status : Nat) (detail : Nat) (count : Nat) : (complete s k i tag status detail count).freeCtr = s.freeCtr := (complete_fr _ _ _ _ _ _ _).freeCtr rfl
@[simp] theorem complete_regs (s : State) (k : RingKind) (i : Nat) (tag : Nat) (status : Nat) (detail : Nat) (count : Nat) : (complete s k i tag status detail count).regs = s.regs := (complete_fr _ _ _ _ _ _ _).regs rfl
@[simp] theorem complete_boot (s : State) (k : RingKind) (i : Nat) (tag : Nat) (status : Nat) (detail : Nat) (count : Nat) : (complete s k i tag status detail count).boot = s.boot := (complete_fr _ _ _ _ _ _ _).boot rfl
@[simp] theorem complete_pwr (s : State) (k : RingKind) (i : Nat) (tag : Nat) (status : Nat) (detail : Nat) (count : Nat) : (complete s k i tag status detail count).pwr = s.pwr := (complete_fr _ _ _ _ _ _ _).pwr rfl
@[simp] theorem complete_opt (s : State) (k : RingKind) (i : Nat) (tag : Nat) (status : Nat) (detail : Nat) (count : Nat) : (complete s k i tag status detail count).opt = s.opt := (complete_fr _ _ _ _ _ _ _).opt rfl
@[simp] theorem complete_lnk (s : State) (k : RingKind) (i : Nat) (tag : Nat) (status : Nat) (detail : Nat) (count : Nat) : (complete s k i tag status detail count).lnk = s.lnk := (complete_fr _ _ _ _ _ _ _).lnk rfl
@[simp] theorem complete_sw (s : State) (k : RingKind) (i : Nat) (tag : Nat) (status : Nat) (detail : Nat) (count : Nat) : (complete s k i tag status detail count).sw = s.sw := (complete_fr _ _ _ _ _ _ _).sw rfl
@[simp] theorem complete_tbl (s : State) (k : RingKind) (i : Nat) (tag : Nat) (status : Nat) (detail : Nat) (count : Nat) : (complete s k i tag status detail count).tbl = s.tbl := (complete_fr _ _ _ _ _ _ _).tbl rfl
@[simp] theorem complete_cru (s : State) (k : RingKind) (i : Nat) (tag : Nat) (status : Nat) (detail : Nat) (count : Nat) : (complete s k i tag status detail count).cru = s.cru := (complete_fr _ _ _ _ _ _ _).cru rfl
@[simp] theorem complete_plan (s : State) (k : RingKind) (i : Nat) (tag : Nat) (status : Nat) (detail : Nat) (count : Nat) : (complete s k i tag status detail count).plan = s.plan := (complete_fr _ _ _ _ _ _ _).plan rfl
@[simp] theorem complete_coll (s : State) (k : RingKind) (i : Nat) (tag : Nat) (status : Nat) (detail : Nat) (count : Nat) : (complete s k i tag status detail count).coll = s.coll := (complete_fr _ _ _ _ _ _ _).coll rfl
@[simp] theorem complete_mem (s : State) (k : RingKind) (i : Nat) (tag : Nat) (status : Nat) (detail : Nat) (count : Nat) : (complete s k i tag status detail count).mem = s.mem := (complete_fr _ _ _ _ _ _ _).mem rfl
@[simp] theorem complete_tim (s : State) (k : RingKind) (i : Nat) (tag : Nat) (status : Nat) (detail : Nat) (count : Nat) : (complete s k i tag status detail count).tim = s.tim := (complete_fr _ _ _ _ _ _ _).tim rfl
@[simp] theorem complete_hlt (s : State) (k : RingKind) (i : Nat) (tag : Nat) (status : Nat) (detail : Nat) (count : Nat) : (complete s k i tag status detail count).hlt = s.hlt := (complete_fr _ _ _ _ _ _ _).hlt rfl
@[simp] theorem complete_now (s : State) (k : RingKind) (i : Nat) (tag : Nat) (status : Nat) (detail : Nat) (count : Nat) : (complete s k i tag status detail count).now = s.now := (complete_fr _ _ _ _ _ _ _).now rfl
@[simp] theorem sweepBad_pending (s : State) (k : RingKind) (i : Nat) : (sweepBad s k i).pending = s.pending := (sweepBad_fr _ _ _).pending
@[simp] theorem sweepBad_variant (s : State) (k : RingKind) (i : Nat) : (sweepBad s k i).variant = s.variant := (sweepBad_fr _ _ _).variant
@[simp] theorem sweepBad_freeCtr (s : State) (k : RingKind) (i : Nat) : (sweepBad s k i).freeCtr = s.freeCtr := (sweepBad_fr _ _ _).freeCtr rfl
@[simp] theorem sweepBad_regs (s : State) (k : RingKind) (i : Nat) : (sweepBad s k i).regs = s.regs := (sweepBad_fr _ _ _).regs rfl
@[simp] theorem sweepBad_boot (s : State) (k : RingKind) (i : Nat) : (sweepBad s k i).boot = s.boot := (sweepBad_fr _ _ _).boot rfl
@[simp] theorem sweepBad_pwr (s : State) (k : RingKind) (i : Nat) : (sweepBad s k i).pwr = s.pwr := (sweepBad_fr _ _ _).pwr rfl
@[simp] theorem sweepBad_opt (s : State) (k : RingKind) (i : Nat) : (sweepBad s k i).opt = s.opt := (sweepBad_fr _ _ _).opt rfl
@[simp] theorem sweepBad_lnk (s : State) (k : RingKind) (i : Nat) : (sweepBad s k i).lnk = s.lnk := (sweepBad_fr _ _ _).lnk rfl
@[simp] theorem sweepBad_sw (s : State) (k : RingKind) (i : Nat) : (sweepBad s k i).sw = s.sw := (sweepBad_fr _ _ _).sw rfl
@[simp] theorem sweepBad_tbl (s : State) (k : RingKind) (i : Nat) : (sweepBad s k i).tbl = s.tbl := (sweepBad_fr _ _ _).tbl rfl
@[simp] theorem sweepBad_cru (s : State) (k : RingKind) (i : Nat) : (sweepBad s k i).cru = s.cru := (sweepBad_fr _ _ _).cru rfl
@[simp] theorem sweepBad_plan (s : State) (k : RingKind) (i : Nat) : (sweepBad s k i).plan = s.plan := (sweepBad_fr _ _ _).plan rfl
@[simp] theorem sweepBad_coll (s : State) (k : RingKind) (i : Nat) : (sweepBad s k i).coll = s.coll := (sweepBad_fr _ _ _).coll rfl
@[simp] theorem sweepBad_mem (s : State) (k : RingKind) (i : Nat) : (sweepBad s k i).mem = s.mem := (sweepBad_fr _ _ _).mem rfl
@[simp] theorem sweepBad_tim (s : State) (k : RingKind) (i : Nat) : (sweepBad s k i).tim = s.tim := (sweepBad_fr _ _ _).tim rfl
@[simp] theorem sweepBad_hlt (s : State) (k : RingKind) (i : Nat) : (sweepBad s k i).hlt = s.hlt := (sweepBad_fr _ _ _).hlt rfl
@[simp] theorem sweepBad_now (s : State) (k : RingKind) (i : Nat) : (sweepBad s k i).now = s.now := (sweepBad_fr _ _ _).now rfl
@[simp] theorem tdDone_pending (r : Nat) (s : State) (key : Nat) (status : Nat) (detail : Nat) (count : Nat) : (tdDone r s key status detail count).pending = s.pending := (tdDone_fr _ _ _ _ _ _).pending
@[simp] theorem tdDone_variant (r : Nat) (s : State) (key : Nat) (status : Nat) (detail : Nat) (count : Nat) : (tdDone r s key status detail count).variant = s.variant := (tdDone_fr _ _ _ _ _ _).variant
@[simp] theorem tdDone_freeCtr (r : Nat) (s : State) (key : Nat) (status : Nat) (detail : Nat) (count : Nat) : (tdDone r s key status detail count).freeCtr = s.freeCtr := (tdDone_fr _ _ _ _ _ _).freeCtr rfl
@[simp] theorem tdDone_regs (r : Nat) (s : State) (key : Nat) (status : Nat) (detail : Nat) (count : Nat) : (tdDone r s key status detail count).regs = s.regs := (tdDone_fr _ _ _ _ _ _).regs rfl
@[simp] theorem tdDone_boot (r : Nat) (s : State) (key : Nat) (status : Nat) (detail : Nat) (count : Nat) : (tdDone r s key status detail count).boot = s.boot := (tdDone_fr _ _ _ _ _ _).boot rfl
@[simp] theorem tdDone_pwr (r : Nat) (s : State) (key : Nat) (status : Nat) (detail : Nat) (count : Nat) : (tdDone r s key status detail count).pwr = s.pwr := (tdDone_fr _ _ _ _ _ _).pwr rfl
@[simp] theorem tdDone_opt (r : Nat) (s : State) (key : Nat) (status : Nat) (detail : Nat) (count : Nat) : (tdDone r s key status detail count).opt = s.opt := (tdDone_fr _ _ _ _ _ _).opt rfl
@[simp] theorem tdDone_lnk (r : Nat) (s : State) (key : Nat) (status : Nat) (detail : Nat) (count : Nat) : (tdDone r s key status detail count).lnk = s.lnk := (tdDone_fr _ _ _ _ _ _).lnk rfl
@[simp] theorem tdDone_sw (r : Nat) (s : State) (key : Nat) (status : Nat) (detail : Nat) (count : Nat) : (tdDone r s key status detail count).sw = s.sw := (tdDone_fr _ _ _ _ _ _).sw rfl
@[simp] theorem tdDone_tbl (r : Nat) (s : State) (key : Nat) (status : Nat) (detail : Nat) (count : Nat) : (tdDone r s key status detail count).tbl = s.tbl := (tdDone_fr _ _ _ _ _ _).tbl rfl
@[simp] theorem tdDone_cru (r : Nat) (s : State) (key : Nat) (status : Nat) (detail : Nat) (count : Nat) : (tdDone r s key status detail count).cru = s.cru := (tdDone_fr _ _ _ _ _ _).cru rfl
@[simp] theorem tdDone_plan (r : Nat) (s : State) (key : Nat) (status : Nat) (detail : Nat) (count : Nat) : (tdDone r s key status detail count).plan = s.plan := (tdDone_fr _ _ _ _ _ _).plan rfl
@[simp] theorem tdDone_coll (r : Nat) (s : State) (key : Nat) (status : Nat) (detail : Nat) (count : Nat) : (tdDone r s key status detail count).coll = s.coll := (tdDone_fr _ _ _ _ _ _).coll rfl
@[simp] theorem tdDone_mem (r : Nat) (s : State) (key : Nat) (status : Nat) (detail : Nat) (count : Nat) : (tdDone r s key status detail count).mem = s.mem := (tdDone_fr _ _ _ _ _ _).mem rfl
@[simp] theorem tdDone_tim (r : Nat) (s : State) (key : Nat) (status : Nat) (detail : Nat) (count : Nat) : (tdDone r s key status detail count).tim = s.tim := (tdDone_fr _ _ _ _ _ _).tim rfl
@[simp] theorem tdDone_hlt (r : Nat) (s : State) (key : Nat) (status : Nat) (detail : Nat) (count : Nat) : (tdDone r s key status detail count).hlt = s.hlt := (tdDone_fr _ _ _ _ _ _).hlt rfl
@[simp] theorem tdDone_now (r : Nat) (s : State) (key : Nat) (status : Nat) (detail : Nat) (count : Nat) : (tdDone r s key status detail count).now = s.now := (tdDone_fr _ _ _ _ _ _).now rfl
@[simp] theorem sendOs_pending (s : State) (q : Nat) (type : Nat) (body : BitVec 104) : (sendOs s q type body).pending = s.pending := (sendOs_fr _ _ _ _).pending
@[simp] theorem sendOs_variant (s : State) (q : Nat) (type : Nat) (body : BitVec 104) : (sendOs s q type body).variant = s.variant := (sendOs_fr _ _ _ _).variant
@[simp] theorem sendOs_freeCtr (s : State) (q : Nat) (type : Nat) (body : BitVec 104) : (sendOs s q type body).freeCtr = s.freeCtr := (sendOs_fr _ _ _ _).freeCtr rfl
@[simp] theorem sendOs_regs (s : State) (q : Nat) (type : Nat) (body : BitVec 104) : (sendOs s q type body).regs = s.regs := (sendOs_fr _ _ _ _).regs rfl
@[simp] theorem sendOs_boot (s : State) (q : Nat) (type : Nat) (body : BitVec 104) : (sendOs s q type body).boot = s.boot := (sendOs_fr _ _ _ _).boot rfl
@[simp] theorem sendOs_pwr (s : State) (q : Nat) (type : Nat) (body : BitVec 104) : (sendOs s q type body).pwr = s.pwr := (sendOs_fr _ _ _ _).pwr rfl
@[simp] theorem sendOs_opt (s : State) (q : Nat) (type : Nat) (body : BitVec 104) : (sendOs s q type body).opt = s.opt := (sendOs_fr _ _ _ _).opt rfl
@[simp] theorem sendOs_sw (s : State) (q : Nat) (type : Nat) (body : BitVec 104) : (sendOs s q type body).sw = s.sw := (sendOs_fr _ _ _ _).sw rfl
@[simp] theorem sendOs_tbl (s : State) (q : Nat) (type : Nat) (body : BitVec 104) : (sendOs s q type body).tbl = s.tbl := (sendOs_fr _ _ _ _).tbl rfl
@[simp] theorem sendOs_cru (s : State) (q : Nat) (type : Nat) (body : BitVec 104) : (sendOs s q type body).cru = s.cru := (sendOs_fr _ _ _ _).cru rfl
@[simp] theorem sendOs_plan (s : State) (q : Nat) (type : Nat) (body : BitVec 104) : (sendOs s q type body).plan = s.plan := (sendOs_fr _ _ _ _).plan rfl
@[simp] theorem sendOs_coll (s : State) (q : Nat) (type : Nat) (body : BitVec 104) : (sendOs s q type body).coll = s.coll := (sendOs_fr _ _ _ _).coll rfl
@[simp] theorem sendOs_mem (s : State) (q : Nat) (type : Nat) (body : BitVec 104) : (sendOs s q type body).mem = s.mem := (sendOs_fr _ _ _ _).mem rfl
@[simp] theorem sendOs_tim (s : State) (q : Nat) (type : Nat) (body : BitVec 104) : (sendOs s q type body).tim = s.tim := (sendOs_fr _ _ _ _).tim rfl
@[simp] theorem sendOs_hif (s : State) (q : Nat) (type : Nat) (body : BitVec 104) : (sendOs s q type body).hif = s.hif := (sendOs_fr _ _ _ _).hif rfl
@[simp] theorem sendOs_hlt (s : State) (q : Nat) (type : Nat) (body : BitVec 104) : (sendOs s q type body).hlt = s.hlt := (sendOs_fr _ _ _ _).hlt rfl
@[simp] theorem sendOs_cnt (s : State) (q : Nat) (type : Nat) (body : BitVec 104) : (sendOs s q type body).cnt = s.cnt := (sendOs_fr _ _ _ _).cnt rfl
@[simp] theorem sendOs_now (s : State) (q : Nat) (type : Nat) (body : BitVec 104) : (sendOs s q type body).now = s.now := (sendOs_fr _ _ _ _).now rfl
@[simp] theorem sendLinkctl_pending (s : State) (q : Nat) (op : Nat) : (sendLinkctl s q op).pending = s.pending := (sendLinkctl_fr _ _ _).pending
@[simp] theorem sendLinkctl_variant (s : State) (q : Nat) (op : Nat) : (sendLinkctl s q op).variant = s.variant := (sendLinkctl_fr _ _ _).variant
@[simp] theorem sendLinkctl_freeCtr (s : State) (q : Nat) (op : Nat) : (sendLinkctl s q op).freeCtr = s.freeCtr := (sendLinkctl_fr _ _ _).freeCtr rfl
@[simp] theorem sendLinkctl_regs (s : State) (q : Nat) (op : Nat) : (sendLinkctl s q op).regs = s.regs := (sendLinkctl_fr _ _ _).regs rfl
@[simp] theorem sendLinkctl_boot (s : State) (q : Nat) (op : Nat) : (sendLinkctl s q op).boot = s.boot := (sendLinkctl_fr _ _ _).boot rfl
@[simp] theorem sendLinkctl_pwr (s : State) (q : Nat) (op : Nat) : (sendLinkctl s q op).pwr = s.pwr := (sendLinkctl_fr _ _ _).pwr rfl
@[simp] theorem sendLinkctl_opt (s : State) (q : Nat) (op : Nat) : (sendLinkctl s q op).opt = s.opt := (sendLinkctl_fr _ _ _).opt rfl
@[simp] theorem sendLinkctl_sw (s : State) (q : Nat) (op : Nat) : (sendLinkctl s q op).sw = s.sw := (sendLinkctl_fr _ _ _).sw rfl
@[simp] theorem sendLinkctl_tbl (s : State) (q : Nat) (op : Nat) : (sendLinkctl s q op).tbl = s.tbl := (sendLinkctl_fr _ _ _).tbl rfl
@[simp] theorem sendLinkctl_cru (s : State) (q : Nat) (op : Nat) : (sendLinkctl s q op).cru = s.cru := (sendLinkctl_fr _ _ _).cru rfl
@[simp] theorem sendLinkctl_plan (s : State) (q : Nat) (op : Nat) : (sendLinkctl s q op).plan = s.plan := (sendLinkctl_fr _ _ _).plan rfl
@[simp] theorem sendLinkctl_coll (s : State) (q : Nat) (op : Nat) : (sendLinkctl s q op).coll = s.coll := (sendLinkctl_fr _ _ _).coll rfl
@[simp] theorem sendLinkctl_mem (s : State) (q : Nat) (op : Nat) : (sendLinkctl s q op).mem = s.mem := (sendLinkctl_fr _ _ _).mem rfl
@[simp] theorem sendLinkctl_tim (s : State) (q : Nat) (op : Nat) : (sendLinkctl s q op).tim = s.tim := (sendLinkctl_fr _ _ _).tim rfl
@[simp] theorem sendLinkctl_hif (s : State) (q : Nat) (op : Nat) : (sendLinkctl s q op).hif = s.hif := (sendLinkctl_fr _ _ _).hif rfl
@[simp] theorem sendLinkctl_hlt (s : State) (q : Nat) (op : Nat) : (sendLinkctl s q op).hlt = s.hlt := (sendLinkctl_fr _ _ _).hlt rfl
@[simp] theorem sendLinkctl_cnt (s : State) (q : Nat) (op : Nat) : (sendLinkctl s q op).cnt = s.cnt := (sendLinkctl_fr _ _ _).cnt rfl
@[simp] theorem sendLinkctl_now (s : State) (q : Nat) (op : Nat) : (sendLinkctl s q op).now = s.now := (sendLinkctl_fr _ _ _).now rfl
@[simp] theorem freeCredit_pending (s : State) (l : Nat) (tc : Nat) (n : Nat) : (freeCredit s l tc n).pending = s.pending := (freeCredit_fr _ _ _ _).pending
@[simp] theorem freeCredit_variant (s : State) (l : Nat) (tc : Nat) (n : Nat) : (freeCredit s l tc n).variant = s.variant := (freeCredit_fr _ _ _ _).variant
@[simp] theorem freeCredit_freeCtr (s : State) (l : Nat) (tc : Nat) (n : Nat) : (freeCredit s l tc n).freeCtr = s.freeCtr := (freeCredit_fr _ _ _ _).freeCtr rfl
@[simp] theorem freeCredit_regs (s : State) (l : Nat) (tc : Nat) (n : Nat) : (freeCredit s l tc n).regs = s.regs := (freeCredit_fr _ _ _ _).regs rfl
@[simp] theorem freeCredit_out (s : State) (l : Nat) (tc : Nat) (n : Nat) : (freeCredit s l tc n).out = s.out := (freeCredit_fr _ _ _ _).out rfl
@[simp] theorem freeCredit_boot (s : State) (l : Nat) (tc : Nat) (n : Nat) : (freeCredit s l tc n).boot = s.boot := (freeCredit_fr _ _ _ _).boot rfl
@[simp] theorem freeCredit_pwr (s : State) (l : Nat) (tc : Nat) (n : Nat) : (freeCredit s l tc n).pwr = s.pwr := (freeCredit_fr _ _ _ _).pwr rfl
@[simp] theorem freeCredit_opt (s : State) (l : Nat) (tc : Nat) (n : Nat) : (freeCredit s l tc n).opt = s.opt := (freeCredit_fr _ _ _ _).opt rfl
@[simp] theorem freeCredit_sw (s : State) (l : Nat) (tc : Nat) (n : Nat) : (freeCredit s l tc n).sw = s.sw := (freeCredit_fr _ _ _ _).sw rfl
@[simp] theorem freeCredit_tbl (s : State) (l : Nat) (tc : Nat) (n : Nat) : (freeCredit s l tc n).tbl = s.tbl := (freeCredit_fr _ _ _ _).tbl rfl
@[simp] theorem freeCredit_cru (s : State) (l : Nat) (tc : Nat) (n : Nat) : (freeCredit s l tc n).cru = s.cru := (freeCredit_fr _ _ _ _).cru rfl
@[simp] theorem freeCredit_plan (s : State) (l : Nat) (tc : Nat) (n : Nat) : (freeCredit s l tc n).plan = s.plan := (freeCredit_fr _ _ _ _).plan rfl
@[simp] theorem freeCredit_coll (s : State) (l : Nat) (tc : Nat) (n : Nat) : (freeCredit s l tc n).coll = s.coll := (freeCredit_fr _ _ _ _).coll rfl
@[simp] theorem freeCredit_mem (s : State) (l : Nat) (tc : Nat) (n : Nat) : (freeCredit s l tc n).mem = s.mem := (freeCredit_fr _ _ _ _).mem rfl
@[simp] theorem freeCredit_tim (s : State) (l : Nat) (tc : Nat) (n : Nat) : (freeCredit s l tc n).tim = s.tim := (freeCredit_fr _ _ _ _).tim rfl
@[simp] theorem freeCredit_hif (s : State) (l : Nat) (tc : Nat) (n : Nat) : (freeCredit s l tc n).hif = s.hif := (freeCredit_fr _ _ _ _).hif rfl
@[simp] theorem freeCredit_hlt (s : State) (l : Nat) (tc : Nat) (n : Nat) : (freeCredit s l tc n).hlt = s.hlt := (freeCredit_fr _ _ _ _).hlt rfl
@[simp] theorem freeCredit_cnt (s : State) (l : Nat) (tc : Nat) (n : Nat) : (freeCredit s l tc n).cnt = s.cnt := (freeCredit_fr _ _ _ _).cnt rfl
@[simp] theorem freeCredit_now (s : State) (l : Nat) (tc : Nat) (n : Nat) : (freeCredit s l tc n).now = s.now := (freeCredit_fr _ _ _ _).now rfl
@[simp] theorem takeOut_pending (s : State) (q : QFrame) : (takeOut s q).pending = s.pending := (takeOut_fr _ _).pending
@[simp] theorem takeOut_variant (s : State) (q : QFrame) : (takeOut s q).variant = s.variant := (takeOut_fr _ _).variant
@[simp] theorem takeOut_freeCtr (s : State) (q : QFrame) : (takeOut s q).freeCtr = s.freeCtr := (takeOut_fr _ _).freeCtr rfl
@[simp] theorem takeOut_regs (s : State) (q : QFrame) : (takeOut s q).regs = s.regs := (takeOut_fr _ _).regs rfl
@[simp] theorem takeOut_out (s : State) (q : QFrame) : (takeOut s q).out = s.out := (takeOut_fr _ _).out rfl
@[simp] theorem takeOut_boot (s : State) (q : QFrame) : (takeOut s q).boot = s.boot := (takeOut_fr _ _).boot rfl
@[simp] theorem takeOut_pwr (s : State) (q : QFrame) : (takeOut s q).pwr = s.pwr := (takeOut_fr _ _).pwr rfl
@[simp] theorem takeOut_opt (s : State) (q : QFrame) : (takeOut s q).opt = s.opt := (takeOut_fr _ _).opt rfl
@[simp] theorem takeOut_tbl (s : State) (q : QFrame) : (takeOut s q).tbl = s.tbl := (takeOut_fr _ _).tbl rfl
@[simp] theorem takeOut_cru (s : State) (q : QFrame) : (takeOut s q).cru = s.cru := (takeOut_fr _ _).cru rfl
@[simp] theorem takeOut_plan (s : State) (q : QFrame) : (takeOut s q).plan = s.plan := (takeOut_fr _ _).plan rfl
@[simp] theorem takeOut_coll (s : State) (q : QFrame) : (takeOut s q).coll = s.coll := (takeOut_fr _ _).coll rfl
@[simp] theorem takeOut_mem (s : State) (q : QFrame) : (takeOut s q).mem = s.mem := (takeOut_fr _ _).mem rfl
@[simp] theorem takeOut_tim (s : State) (q : QFrame) : (takeOut s q).tim = s.tim := (takeOut_fr _ _).tim rfl
@[simp] theorem takeOut_hif (s : State) (q : QFrame) : (takeOut s q).hif = s.hif := (takeOut_fr _ _).hif rfl
@[simp] theorem takeOut_hlt (s : State) (q : QFrame) : (takeOut s q).hlt = s.hlt := (takeOut_fr _ _).hlt rfl
@[simp] theorem takeOut_cnt (s : State) (q : QFrame) : (takeOut s q).cnt = s.cnt := (takeOut_fr _ _).cnt rfl
@[simp] theorem takeOut_now (s : State) (q : QFrame) : (takeOut s q).now = s.now := (takeOut_fr _ _).now rfl
@[simp] theorem loseStarted_pending (s : State) (q : Nat) : (loseStarted s q).pending = s.pending := (loseStarted_fr _ _).pending
@[simp] theorem loseStarted_variant (s : State) (q : Nat) : (loseStarted s q).variant = s.variant := (loseStarted_fr _ _).variant
@[simp] theorem loseStarted_freeCtr (s : State) (q : Nat) : (loseStarted s q).freeCtr = s.freeCtr := (loseStarted_fr _ _).freeCtr rfl
@[simp] theorem loseStarted_regs (s : State) (q : Nat) : (loseStarted s q).regs = s.regs := (loseStarted_fr _ _).regs rfl
@[simp] theorem loseStarted_out (s : State) (q : Nat) : (loseStarted s q).out = s.out := (loseStarted_fr _ _).out rfl
@[simp] theorem loseStarted_boot (s : State) (q : Nat) : (loseStarted s q).boot = s.boot := (loseStarted_fr _ _).boot rfl
@[simp] theorem loseStarted_pwr (s : State) (q : Nat) : (loseStarted s q).pwr = s.pwr := (loseStarted_fr _ _).pwr rfl
@[simp] theorem loseStarted_opt (s : State) (q : Nat) : (loseStarted s q).opt = s.opt := (loseStarted_fr _ _).opt rfl
@[simp] theorem loseStarted_tbl (s : State) (q : Nat) : (loseStarted s q).tbl = s.tbl := (loseStarted_fr _ _).tbl rfl
@[simp] theorem loseStarted_cru (s : State) (q : Nat) : (loseStarted s q).cru = s.cru := (loseStarted_fr _ _).cru rfl
@[simp] theorem loseStarted_plan (s : State) (q : Nat) : (loseStarted s q).plan = s.plan := (loseStarted_fr _ _).plan rfl
@[simp] theorem loseStarted_coll (s : State) (q : Nat) : (loseStarted s q).coll = s.coll := (loseStarted_fr _ _).coll rfl
@[simp] theorem loseStarted_mem (s : State) (q : Nat) : (loseStarted s q).mem = s.mem := (loseStarted_fr _ _).mem rfl
@[simp] theorem loseStarted_tim (s : State) (q : Nat) : (loseStarted s q).tim = s.tim := (loseStarted_fr _ _).tim rfl
@[simp] theorem loseStarted_hif (s : State) (q : Nat) : (loseStarted s q).hif = s.hif := (loseStarted_fr _ _).hif rfl
@[simp] theorem loseStarted_hlt (s : State) (q : Nat) : (loseStarted s q).hlt = s.hlt := (loseStarted_fr _ _).hlt rfl
@[simp] theorem loseStarted_cnt (s : State) (q : Nat) : (loseStarted s q).cnt = s.cnt := (loseStarted_fr _ _).cnt rfl
@[simp] theorem loseStarted_now (s : State) (q : Nat) : (loseStarted s q).now = s.now := (loseStarted_fr _ _).now rfl
@[simp] theorem laneToDown_pending (s : State) (q : Nat) (st : Nat) : (laneToDown s q st).pending = s.pending := (laneToDown_fr _ _ _).pending
@[simp] theorem laneToDown_variant (s : State) (q : Nat) (st : Nat) : (laneToDown s q st).variant = s.variant := (laneToDown_fr _ _ _).variant
@[simp] theorem laneToDown_regs (s : State) (q : Nat) (st : Nat) : (laneToDown s q st).regs = s.regs := (laneToDown_fr _ _ _).regs rfl
@[simp] theorem laneToDown_out (s : State) (q : Nat) (st : Nat) : (laneToDown s q st).out = s.out := (laneToDown_fr _ _ _).out rfl
@[simp] theorem laneToDown_boot (s : State) (q : Nat) (st : Nat) : (laneToDown s q st).boot = s.boot := (laneToDown_fr _ _ _).boot rfl
@[simp] theorem laneToDown_pwr (s : State) (q : Nat) (st : Nat) : (laneToDown s q st).pwr = s.pwr := (laneToDown_fr _ _ _).pwr rfl
@[simp] theorem laneToDown_opt (s : State) (q : Nat) (st : Nat) : (laneToDown s q st).opt = s.opt := (laneToDown_fr _ _ _).opt rfl
@[simp] theorem laneToDown_tbl (s : State) (q : Nat) (st : Nat) : (laneToDown s q st).tbl = s.tbl := (laneToDown_fr _ _ _).tbl rfl
@[simp] theorem laneToDown_cru (s : State) (q : Nat) (st : Nat) : (laneToDown s q st).cru = s.cru := (laneToDown_fr _ _ _).cru rfl
@[simp] theorem laneToDown_plan (s : State) (q : Nat) (st : Nat) : (laneToDown s q st).plan = s.plan := (laneToDown_fr _ _ _).plan rfl
@[simp] theorem laneToDown_coll (s : State) (q : Nat) (st : Nat) : (laneToDown s q st).coll = s.coll := (laneToDown_fr _ _ _).coll rfl
@[simp] theorem laneToDown_mem (s : State) (q : Nat) (st : Nat) : (laneToDown s q st).mem = s.mem := (laneToDown_fr _ _ _).mem rfl
@[simp] theorem laneToDown_tim (s : State) (q : Nat) (st : Nat) : (laneToDown s q st).tim = s.tim := (laneToDown_fr _ _ _).tim rfl
@[simp] theorem laneToDown_hif (s : State) (q : Nat) (st : Nat) : (laneToDown s q st).hif = s.hif := (laneToDown_fr _ _ _).hif rfl
@[simp] theorem laneToDown_hlt (s : State) (q : Nat) (st : Nat) : (laneToDown s q st).hlt = s.hlt := (laneToDown_fr _ _ _).hlt rfl
@[simp] theorem laneToDown_cnt (s : State) (q : Nat) (st : Nat) : (laneToDown s q st).cnt = s.cnt := (laneToDown_fr _ _ _).cnt rfl
@[simp] theorem laneToDown_now (s : State) (q : Nat) (st : Nat) : (laneToDown s q st).now = s.now := (laneToDown_fr _ _ _).now rfl
@[simp] theorem refreshLink_pending (s : State) (l : Nat) (cause : Nat) (counts : Bool) : (refreshLink s l cause counts).pending = s.pending := (refreshLink_fr _ _ _ _).pending
@[simp] theorem refreshLink_variant (s : State) (l : Nat) (cause : Nat) (counts : Bool) : (refreshLink s l cause counts).variant = s.variant := (refreshLink_fr _ _ _ _).variant
@[simp] theorem refreshLink_regs (s : State) (l : Nat) (cause : Nat) (counts : Bool) : (refreshLink s l cause counts).regs = s.regs := (refreshLink_fr _ _ _ _).regs rfl
@[simp] theorem refreshLink_boot (s : State) (l : Nat) (cause : Nat) (counts : Bool) : (refreshLink s l cause counts).boot = s.boot := (refreshLink_fr _ _ _ _).boot rfl
@[simp] theorem refreshLink_pwr (s : State) (l : Nat) (cause : Nat) (counts : Bool) : (refreshLink s l cause counts).pwr = s.pwr := (refreshLink_fr _ _ _ _).pwr rfl
@[simp] theorem refreshLink_opt (s : State) (l : Nat) (cause : Nat) (counts : Bool) : (refreshLink s l cause counts).opt = s.opt := (refreshLink_fr _ _ _ _).opt rfl
@[simp] theorem refreshLink_tbl (s : State) (l : Nat) (cause : Nat) (counts : Bool) : (refreshLink s l cause counts).tbl = s.tbl := (refreshLink_fr _ _ _ _).tbl rfl
@[simp] theorem refreshLink_cru (s : State) (l : Nat) (cause : Nat) (counts : Bool) : (refreshLink s l cause counts).cru = s.cru := (refreshLink_fr _ _ _ _).cru rfl
@[simp] theorem refreshLink_plan (s : State) (l : Nat) (cause : Nat) (counts : Bool) : (refreshLink s l cause counts).plan = s.plan := (refreshLink_fr _ _ _ _).plan rfl
@[simp] theorem refreshLink_coll (s : State) (l : Nat) (cause : Nat) (counts : Bool) : (refreshLink s l cause counts).coll = s.coll := (refreshLink_fr _ _ _ _).coll rfl
@[simp] theorem refreshLink_mem (s : State) (l : Nat) (cause : Nat) (counts : Bool) : (refreshLink s l cause counts).mem = s.mem := (refreshLink_fr _ _ _ _).mem rfl
@[simp] theorem refreshLink_tim (s : State) (l : Nat) (cause : Nat) (counts : Bool) : (refreshLink s l cause counts).tim = s.tim := (refreshLink_fr _ _ _ _).tim rfl
@[simp] theorem refreshLink_now (s : State) (l : Nat) (cause : Nat) (counts : Bool) : (refreshLink s l cause counts).now = s.now := (refreshLink_fr _ _ _ _).now rfl
@[simp] theorem laneToUp_pending (s : State) (q : Nat) : (laneToUp s q).pending = s.pending := (laneToUp_fr _ _).pending
@[simp] theorem laneToUp_variant (s : State) (q : Nat) : (laneToUp s q).variant = s.variant := (laneToUp_fr _ _).variant
@[simp] theorem laneToUp_regs (s : State) (q : Nat) : (laneToUp s q).regs = s.regs := (laneToUp_fr _ _).regs rfl
@[simp] theorem laneToUp_boot (s : State) (q : Nat) : (laneToUp s q).boot = s.boot := (laneToUp_fr _ _).boot rfl
@[simp] theorem laneToUp_pwr (s : State) (q : Nat) : (laneToUp s q).pwr = s.pwr := (laneToUp_fr _ _).pwr rfl
@[simp] theorem laneToUp_opt (s : State) (q : Nat) : (laneToUp s q).opt = s.opt := (laneToUp_fr _ _).opt rfl
@[simp] theorem laneToUp_tbl (s : State) (q : Nat) : (laneToUp s q).tbl = s.tbl := (laneToUp_fr _ _).tbl rfl
@[simp] theorem laneToUp_cru (s : State) (q : Nat) : (laneToUp s q).cru = s.cru := (laneToUp_fr _ _).cru rfl
@[simp] theorem laneToUp_plan (s : State) (q : Nat) : (laneToUp s q).plan = s.plan := (laneToUp_fr _ _).plan rfl
@[simp] theorem laneToUp_coll (s : State) (q : Nat) : (laneToUp s q).coll = s.coll := (laneToUp_fr _ _).coll rfl
@[simp] theorem laneToUp_mem (s : State) (q : Nat) : (laneToUp s q).mem = s.mem := (laneToUp_fr _ _).mem rfl
@[simp] theorem laneToUp_tim (s : State) (q : Nat) : (laneToUp s q).tim = s.tim := (laneToUp_fr _ _).tim rfl
@[simp] theorem laneToUp_now (s : State) (q : Nat) : (laneToUp s q).now = s.now := (laneToUp_fr _ _).now rfl
@[simp] theorem refuse_pending (s : State) (q : QFrame) (cause : Nat) (backoff : Nat) : (refuse s q cause backoff).pending = s.pending := (refuse_fr _ _ _ _).pending
@[simp] theorem refuse_variant (s : State) (q : QFrame) (cause : Nat) (backoff : Nat) : (refuse s q cause backoff).variant = s.variant := (refuse_fr _ _ _ _).variant
@[simp] theorem refuse_regs (s : State) (q : QFrame) (cause : Nat) (backoff : Nat) : (refuse s q cause backoff).regs = s.regs := (refuse_fr _ _ _ _).regs rfl
@[simp] theorem refuse_boot (s : State) (q : QFrame) (cause : Nat) (backoff : Nat) : (refuse s q cause backoff).boot = s.boot := (refuse_fr _ _ _ _).boot rfl
@[simp] theorem refuse_pwr (s : State) (q : QFrame) (cause : Nat) (backoff : Nat) : (refuse s q cause backoff).pwr = s.pwr := (refuse_fr _ _ _ _).pwr rfl
@[simp] theorem refuse_opt (s : State) (q : QFrame) (cause : Nat) (backoff : Nat) : (refuse s q cause backoff).opt = s.opt := (refuse_fr _ _ _ _).opt rfl
@[simp] theorem refuse_tbl (s : State) (q : QFrame) (cause : Nat) (backoff : Nat) : (refuse s q cause backoff).tbl = s.tbl := (refuse_fr _ _ _ _).tbl rfl
@[simp] theorem refuse_cru (s : State) (q : QFrame) (cause : Nat) (backoff : Nat) : (refuse s q cause backoff).cru = s.cru := (refuse_fr _ _ _ _).cru rfl
@[simp] theorem refuse_plan (s : State) (q : QFrame) (cause : Nat) (backoff : Nat) : (refuse s q cause backoff).plan = s.plan := (refuse_fr _ _ _ _).plan rfl
@[simp] theorem refuse_coll (s : State) (q : QFrame) (cause : Nat) (backoff : Nat) : (refuse s q cause backoff).coll = s.coll := (refuse_fr _ _ _ _).coll rfl
@[simp] theorem refuse_mem (s : State) (q : QFrame) (cause : Nat) (backoff : Nat) : (refuse s q cause backoff).mem = s.mem := (refuse_fr _ _ _ _).mem rfl
@[simp] theorem refuse_tim (s : State) (q : QFrame) (cause : Nat) (backoff : Nat) : (refuse s q cause backoff).tim = s.tim := (refuse_fr _ _ _ _).tim rfl
@[simp] theorem refuse_hlt (s : State) (q : QFrame) (cause : Nat) (backoff : Nat) : (refuse s q cause backoff).hlt = s.hlt := (refuse_fr _ _ _ _).hlt rfl
@[simp] theorem refuse_now (s : State) (q : QFrame) (cause : Nat) (backoff : Nat) : (refuse s q cause backoff).now = s.now := (refuse_fr _ _ _ _).now rfl
@[simp] theorem sendNack_pending (s : State) (q : QFrame) (cause : Nat) (backoff : Nat) : (sendNack s q cause backoff).pending = s.pending := (sendNack_fr _ _ _ _).pending
@[simp] theorem sendNack_variant (s : State) (q : QFrame) (cause : Nat) (backoff : Nat) : (sendNack s q cause backoff).variant = s.variant := (sendNack_fr _ _ _ _).variant
@[simp] theorem sendNack_regs (s : State) (q : QFrame) (cause : Nat) (backoff : Nat) : (sendNack s q cause backoff).regs = s.regs := (sendNack_fr _ _ _ _).regs rfl
@[simp] theorem sendNack_boot (s : State) (q : QFrame) (cause : Nat) (backoff : Nat) : (sendNack s q cause backoff).boot = s.boot := (sendNack_fr _ _ _ _).boot rfl
@[simp] theorem sendNack_pwr (s : State) (q : QFrame) (cause : Nat) (backoff : Nat) : (sendNack s q cause backoff).pwr = s.pwr := (sendNack_fr _ _ _ _).pwr rfl
@[simp] theorem sendNack_opt (s : State) (q : QFrame) (cause : Nat) (backoff : Nat) : (sendNack s q cause backoff).opt = s.opt := (sendNack_fr _ _ _ _).opt rfl
@[simp] theorem sendNack_tbl (s : State) (q : QFrame) (cause : Nat) (backoff : Nat) : (sendNack s q cause backoff).tbl = s.tbl := (sendNack_fr _ _ _ _).tbl rfl
@[simp] theorem sendNack_cru (s : State) (q : QFrame) (cause : Nat) (backoff : Nat) : (sendNack s q cause backoff).cru = s.cru := (sendNack_fr _ _ _ _).cru rfl
@[simp] theorem sendNack_plan (s : State) (q : QFrame) (cause : Nat) (backoff : Nat) : (sendNack s q cause backoff).plan = s.plan := (sendNack_fr _ _ _ _).plan rfl
@[simp] theorem sendNack_coll (s : State) (q : QFrame) (cause : Nat) (backoff : Nat) : (sendNack s q cause backoff).coll = s.coll := (sendNack_fr _ _ _ _).coll rfl
@[simp] theorem sendNack_mem (s : State) (q : QFrame) (cause : Nat) (backoff : Nat) : (sendNack s q cause backoff).mem = s.mem := (sendNack_fr _ _ _ _).mem rfl
@[simp] theorem sendNack_tim (s : State) (q : QFrame) (cause : Nat) (backoff : Nat) : (sendNack s q cause backoff).tim = s.tim := (sendNack_fr _ _ _ _).tim rfl
@[simp] theorem sendNack_hlt (s : State) (q : QFrame) (cause : Nat) (backoff : Nat) : (sendNack s q cause backoff).hlt = s.hlt := (sendNack_fr _ _ _ _).hlt rfl
@[simp] theorem sendNack_now (s : State) (q : QFrame) (cause : Nat) (backoff : Nat) : (sendNack s q cause backoff).now = s.now := (sendNack_fr _ _ _ _).now rfl
@[simp] theorem slagCount_pending (s : State) (l : Nat) (tc : Nat) : (slagCount s l tc).pending = s.pending := (slagCount_fr _ _ _).pending
@[simp] theorem slagCount_variant (s : State) (l : Nat) (tc : Nat) : (slagCount s l tc).variant = s.variant := (slagCount_fr _ _ _).variant
@[simp] theorem slagCount_freeCtr (s : State) (l : Nat) (tc : Nat) : (slagCount s l tc).freeCtr = s.freeCtr := (slagCount_fr _ _ _).freeCtr rfl
@[simp] theorem slagCount_regs (s : State) (l : Nat) (tc : Nat) : (slagCount s l tc).regs = s.regs := (slagCount_fr _ _ _).regs rfl
@[simp] theorem slagCount_boot (s : State) (l : Nat) (tc : Nat) : (slagCount s l tc).boot = s.boot := (slagCount_fr _ _ _).boot rfl
@[simp] theorem slagCount_pwr (s : State) (l : Nat) (tc : Nat) : (slagCount s l tc).pwr = s.pwr := (slagCount_fr _ _ _).pwr rfl
@[simp] theorem slagCount_opt (s : State) (l : Nat) (tc : Nat) : (slagCount s l tc).opt = s.opt := (slagCount_fr _ _ _).opt rfl
@[simp] theorem slagCount_sw (s : State) (l : Nat) (tc : Nat) : (slagCount s l tc).sw = s.sw := (slagCount_fr _ _ _).sw rfl
@[simp] theorem slagCount_tbl (s : State) (l : Nat) (tc : Nat) : (slagCount s l tc).tbl = s.tbl := (slagCount_fr _ _ _).tbl rfl
@[simp] theorem slagCount_cru (s : State) (l : Nat) (tc : Nat) : (slagCount s l tc).cru = s.cru := (slagCount_fr _ _ _).cru rfl
@[simp] theorem slagCount_plan (s : State) (l : Nat) (tc : Nat) : (slagCount s l tc).plan = s.plan := (slagCount_fr _ _ _).plan rfl
@[simp] theorem slagCount_coll (s : State) (l : Nat) (tc : Nat) : (slagCount s l tc).coll = s.coll := (slagCount_fr _ _ _).coll rfl
@[simp] theorem slagCount_mem (s : State) (l : Nat) (tc : Nat) : (slagCount s l tc).mem = s.mem := (slagCount_fr _ _ _).mem rfl
@[simp] theorem slagCount_tim (s : State) (l : Nat) (tc : Nat) : (slagCount s l tc).tim = s.tim := (slagCount_fr _ _ _).tim rfl
@[simp] theorem slagCount_hlt (s : State) (l : Nat) (tc : Nat) : (slagCount s l tc).hlt = s.hlt := (slagCount_fr _ _ _).hlt rfl
@[simp] theorem slagCount_now (s : State) (l : Nat) (tc : Nat) : (slagCount s l tc).now = s.now := (slagCount_fr _ _ _).now rfl
@[simp] theorem settleNt_pending (s : State) : (settleNt s).pending = s.pending := (settleNt_fr _).pending
@[simp] theorem settleNt_variant (s : State) : (settleNt s).variant = s.variant := (settleNt_fr _).variant
@[simp] theorem settleNt_freeCtr (s : State) : (settleNt s).freeCtr = s.freeCtr := (settleNt_fr _).freeCtr rfl
@[simp] theorem settleNt_regs (s : State) : (settleNt s).regs = s.regs := (settleNt_fr _).regs rfl
@[simp] theorem settleNt_boot (s : State) : (settleNt s).boot = s.boot := (settleNt_fr _).boot rfl
@[simp] theorem settleNt_pwr (s : State) : (settleNt s).pwr = s.pwr := (settleNt_fr _).pwr rfl
@[simp] theorem settleNt_opt (s : State) : (settleNt s).opt = s.opt := (settleNt_fr _).opt rfl
@[simp] theorem settleNt_lnk (s : State) : (settleNt s).lnk = s.lnk := (settleNt_fr _).lnk rfl
@[simp] theorem settleNt_sw (s : State) : (settleNt s).sw = s.sw := (settleNt_fr _).sw rfl
@[simp] theorem settleNt_tbl (s : State) : (settleNt s).tbl = s.tbl := (settleNt_fr _).tbl rfl
@[simp] theorem settleNt_cru (s : State) : (settleNt s).cru = s.cru := (settleNt_fr _).cru rfl
@[simp] theorem settleNt_plan (s : State) : (settleNt s).plan = s.plan := (settleNt_fr _).plan rfl
@[simp] theorem settleNt_coll (s : State) : (settleNt s).coll = s.coll := (settleNt_fr _).coll rfl
@[simp] theorem settleNt_mem (s : State) : (settleNt s).mem = s.mem := (settleNt_fr _).mem rfl
@[simp] theorem settleNt_hlt (s : State) : (settleNt s).hlt = s.hlt := (settleNt_fr _).hlt rfl
@[simp] theorem settleNt_now (s : State) : (settleNt s).now = s.now := (settleNt_fr _).now rfl

/-! A read after a write of the same unit. -/

@[simp] theorem link_setLink (s : State) (l : Nat) (v : Link) : link (setLink s l v) l = v := tget_tset_same ..
@[simp] theorem lane_setLane (s : State) (q : Nat) (v : Lane) : lane (setLane s q v) q = v := tget_tset_same ..
@[simp] theorem ring_setRing (s : State) (k : RingKind) (i : Nat) (r : Ring) : ring (setRing s k i r) k i = r := tget_tset_same ..
@[simp] theorem engine_setEngine (s : State) (n : Nat) (e : Engine) : engine (setEngine s n e) n = e := tget_tset_same ..
@[simp] theorem planOf_setPlan (s : State) (c : Nat) (p : Plan) : planOf (setPlan s c p) c = p := tget_tset_same ..
@[simp] theorem seqr_setSeqr (s : State) (n : Nat) (q : Seqr) : seqr (setSeqr s n q) n = q := tget_tset_same ..
@[simp] theorem ctxOf_setCtx (s : State) (c : Nat) (x : Ctx) : ctxOf (setCtx s c x) c = x := tget_tset_same ..
@[simp] theorem rot_setRot (s : State) (k : Nat) (r : Rot) : rot (setRot s k r) k = r := tget_tset_same ..
@[simp] theorem window_setWindow (s : State) (p : Nat) (w : Window) : window (setWindow s p w) p = w := tget_tset_same ..
@[simp] theorem emSlot_setEm (s : State) (i : Nat) (e : EmEntry) : emSlot (setEm s i e) i = e := tget_tset_same ..
@[simp] theorem smp_setSmp (s : State) (d : Nat) (x : Smp) : smp (setSmp s d x) d = x := tget_tset_same ..
@[simp] theorem dom_setDom (s : State) (k : Nat) (d : Dom) : dom (setDom s k d) k = d := tget_tset_same ..
@[simp] theorem cruSlot_setCruSlot (s : State) (g : Nat) (v : Slot) : cruSlot (setCruSlot s g v) g = v := tget_tset_same ..
@[simp] theorem therm_setTherm (s : State) (set : SensorSet) (u : Nat) (t : Therm) : therm (setTherm s set u t) set u = t := tget_tset_same ..
@[simp] theorem launchStore_setLaunch (s : State) (d : Nat) (l : List Launch) : launchStore (setLaunch s d l) d = l := tget_tset_same ..
@[simp] theorem link_modLink (s : State) (l : Nat) (f : Link → Link) : link (modLink s l f) l = f (link s l) := tget_tset_same ..
@[simp] theorem lane_modLane (s : State) (q : Nat) (f : Lane → Lane) : lane (modLane s q f) q = f (lane s q) := tget_tset_same ..
@[simp] theorem ring_modRing (s : State) (k : RingKind) (i : Nat) (f : Ring → Ring) : ring (modRing s k i f) k i = f (ring s k i) := tget_tset_same ..
@[simp] theorem engine_modEngine (s : State) (n : Nat) (f : Engine → Engine) : engine (modEngine s n f) n = f (engine s n) := tget_tset_same ..
@[simp] theorem planOf_modPlan (s : State) (c : Nat) (f : Plan → Plan) : planOf (modPlan s c f) c = f (planOf s c) := tget_tset_same ..
@[simp] theorem seqr_modSeqr (s : State) (n : Nat) (f : Seqr → Seqr) : seqr (modSeqr s n f) n = f (seqr s n) := tget_tset_same ..
@[simp] theorem ctxOf_modCtx (s : State) (c : Nat) (f : Ctx → Ctx) : ctxOf (modCtx s c f) c = f (ctxOf s c) := tget_tset_same ..
@[simp] theorem rot_modRot (s : State) (k : Nat) (f : Rot → Rot) : rot (modRot s k f) k = f (rot s k) := tget_tset_same ..
@[simp] theorem dom_modDom (s : State) (k : Nat) (f : Dom → Dom) : dom (modDom s k f) k = f (dom s k) := tget_tset_same ..
@[simp] theorem stk_modStk (s : State) (k : Nat) (f : Stack → Stack) : stk (modStk s k f) k = f (stk s k) := tget_tset_same ..

end Sys2Proof.Machine
end

