-- ==== Sys2Proof/Laws/Events.lean ====
section
/-! SUPPORT. What an event, an entry of a ring and a change of HEALTH_STATUS leave of the counters and of the
health state. -/
/- Proofs of this file are elaborated one after another: side by side, their waiting threads' stacks
together pass the memory limit of the check. -/
set_option Elab.async false
namespace Sys2Proof.Machine

theorem cntGet_bumpN (s : State) (i n k : Nat) :
    cntGet (bumpN s i n) k = if k = i then (cntGet s i + n) % 2 ^ 64 else cntGet s k := by
  unfold bumpN cntGet
  split
  · next h => subst h; exact tget_tset_same ..
  · next h => exact tget_tset_other _ _ _ _ _ _ h

theorem cntGet_bump (s : State) (i k : Nat) :
    cntGet (bump s i) k = if k = i then (cntGet s i + 1) % 2 ^ 64 else cntGet s k := cntGet_bumpN s i 1 k

theorem cntGet_congr {s t : State} (h : t.cnt = s.cnt) (k : Nat) : cntGet t k = cntGet s k := by
  unfold cntGet; rw [h]

/-- The counters of rings lie above every other counter that an entry could meet. -/
theorem irqCheck_cnt (s : State) (k : RingKind) (i j : Nat) (hj : j < 0x34000) :
    cntGet (irqCheck s k i) j = cntGet s j := by
  unfold irqCheck
  split
  · dsimp only
    rw [cntGet_congr ((raiseMsix_fr _ _ _).cnt rfl), cntGet_bump, if_neg (by unfold cRing; omega)]
    rfl
  · rfl

theorem writeEntry_cnt (s : State) (k : RingKind) (i : Nat) (w0 w1 w2 : Word) (w3 j : Nat) (hj : j < 0x34000) :
    cntGet (writeEntry s k i w0 w1 w2 w3) j = cntGet s j := by
  unfold writeEntry
  dsimp only
  rw [irqCheck_cnt _ _ _ _ hj, cntGet_bump, if_neg (by unfold cRing; omega)]
  rfl

theorem eventToRing_cnt (s : State) (code part a0 a1 e j : Nat) (hj : j < 0x34000) :
    cntGet (eventToRing s code part a0 a1 e) j = cntGet s j := by
  unfold eventToRing
  split
  · rfl
  split
  · rfl
  · exact writeEntry_cnt _ _ _ _ _ _ _ _ hj

theorem forEach_cnt {α : Type} (l : List α) (s : State) (f : State → α → State) (j : Nat)
    (h : ∀ y a, cntGet (f y a) j = cntGet y j) : cntGet (forEach l s f) j = cntGet s j := by
  unfold forEach
  induction l generalizing s with
  | nil => rfl
  | cons a l ih => exact (ih _).trans (h s a)

/-- An event is counted once under its code; no other counter below those of the rings moves. -/
theorem raiseEvent_cnt (s : State) (code part a0 a1 j : Nat) (hj : j < 0x34000) :
    cntGet (raiseEvent s code part a0 a1) j = if j = code then (cntGet s code + 1) % 2 ^ 64 else cntGet s j := by
  unfold raiseEvent
  dsimp only
  rw [← cntGet_bump]
  split
  · rfl
  · rw [forEach_cnt _ _ _ _ fun y a => eventToRing_cnt y code part a0 a1 a j hj]
    rfl

/-- A change of HEALTH_STATUS moves no counter but that of DEGRADED. -/
theorem noteHealth_cnt (s : State) (j : Nat) (hj : j < 0x34000) (h1 : j ≠ 1) :
    cntGet (noteHealth s) j = cntGet s j := by
  unfold noteHealth
  dsimp only
  split
  · rfl
  · rw [raiseEvent_cnt _ _ _ _ _ _ hj, if_neg h1]
    rfl

/-- It records what it reported and changes nothing else of the health state. -/
theorem noteHealth_hlt (s : State) : (noteHealth s).hlt = { s.hlt with reported := healthBits s } := by
  unfold noteHealth
  dsimp only
  split
  · next h => rw [h]
  · rw [(raiseEvent_fr _ _ _ _ _).hlt rfl]

/-- A register reads alike in states that agree on the register file, the variant and the straps. -/
theorem getR_congr {s t : State} (hr : t.regs = s.regs) (hv : t.variant = s.variant)
    (hb : t.boot.strapBl2 = s.boot.strapBl2) (off : Nat) : getR t off = getR s off := by
  unfold getR; rw [hr, hv, hb]

theorem Fr.getR {m : Nat} {s t : State} (h : Fr m s t) (off : Nat) (h1 : m.testBit 1 = false := by rfl)
    (h3 : m.testBit 3 = false := by rfl) : getR t off = Machine.getR s off :=
  getR_congr (h.regs h1) h.variant (by rw [h.boot h3]) off

end Sys2Proof.Machine
end

