-- ==== Sys2Proof/Laws/FrGate.lean ====
section
/-! SUPPORT. What each operation of the gate can do, by Laws/Frame.lean. -/
/- Proofs of this file are elaborated one after another: side by side, their waiting threads' stacks
together pass the memory limit of the check. -/
set_option Elab.async false
namespace Sys2Proof.Machine

theorem retryOne_fr (d : Nat) (r : State × List (Nat × Nat)) (q : QFrame) : Fr 82116 r.1 (retryOne d r q).1 := by
  unfold retryOne
  try dsimp only
  repeat' first
    | with_reducible apply Fr.refl
    | with_reducible apply Fr.ite
    | with_reducible apply Fr.ite1
    | with_reducible apply Fr.step (bump_fr _ _) ?_
    | with_reducible apply Fr.step (freeCredit_fr _ _ _ _) ?_
    | with_reducible apply Fr.step (deepMove_fr _ _) ?_
    | with_reducible apply Fr.step (deepFullNote_fr _ _) ?_
    | (with_reducible apply Fr.put_sw _ ?_; first | with_reducible apply Fr.refl | with_reducible apply Fr.ite | with_reducible apply Fr.ite1 | with_reducible apply Fr.step (bump_fr _ _) ?_ | with_reducible apply Fr.step (freeCredit_fr _ _ _ _) ?_ | with_reducible apply Fr.step (deepMove_fr _ _) ?_ | with_reducible apply Fr.step (deepFullNote_fr _ _) ?_ | (split <;> try (rename_i h; have e := congrArg Prod.fst h; dsimp only at e; subst e)))
    | (split <;> try (rename_i h; have e := congrArg Prod.fst h; dsimp only at e; subst e))
    | dsimp only

theorem retryMc_fr (d : Nat) (s : State) (m : McFrame) : Fr 192 s (retryMc d s m) := by
  unfold retryMc
  try dsimp only
  repeat' first
    | with_reducible apply Fr.refl
    | with_reducible apply Fr.ite
    | with_reducible apply Fr.step (freeCredit_fr _ _ _ _) ?_
    | (with_reducible apply Fr.put_sw _ ?_; first | with_reducible apply Fr.refl | with_reducible apply Fr.ite | with_reducible apply Fr.step (freeCredit_fr _ _ _ _) ?_ | split)
    | split
    | dsimp only

theorem frameAdmitRetry_fr (d : Nat) (s : State) : Fr 82116 s (frameAdmitRetry d s) := by
  unfold frameAdmitRetry
  try dsimp only
  repeat' first
    | with_reducible apply Fr.refl
    | with_reducible apply Fr.ite
    | with_reducible apply Fr.forEach _ _ (fun y a => ?_) ?_
    | with_reducible apply Fr.foldl _ _ (fun y a => ?_) ?_
    | with_reducible apply Fr.foldl1 _ _ (fun y a => ?_) ?_
    | with_reducible apply Fr.step (retryOne_fr _ _ _) ?_
    | with_reducible apply Fr.step (deepFullEnd_fr _ _) ?_
    | with_reducible apply Fr.step (retryMc_fr _ _ _) ?_
    | (split <;> try (rename_i h; have e := congrArg Prod.fst h; dsimp only at e; subst e))
    | dsimp only

theorem spillPrefetch_fr (d : Nat) (poisoned : Bool) (s : State) : Fr 65728 s (spillPrefetch d poisoned s) := by
  unfold spillPrefetch
  try dsimp only
  repeat' first
    | with_reducible apply Fr.refl
    | with_reducible apply Fr.ite
    | with_reducible apply Fr.step (bump_fr _ _) ?_
    | with_reducible apply Fr.step (takeOut_fr _ _) ?_
    | with_reducible apply Fr.step (deepMove_fr _ _) ?_
    | (with_reducible apply Fr.put_sw _ ?_; first | with_reducible apply Fr.refl | with_reducible apply Fr.ite | with_reducible apply Fr.step (bump_fr _ _) ?_ | with_reducible apply Fr.step (takeOut_fr _ _) ?_ | with_reducible apply Fr.step (deepMove_fr _ _) ?_ | split)
    | split
    | dsimp only

theorem sendCell_fr (s : State) (q : QFrame) : Fr 192 s (sendCell s q) := by
  unfold sendCell
  try dsimp only
  repeat' first
    | with_reducible apply Fr.refl
    | with_reducible apply Fr.ite
    | with_reducible apply Fr.step (modLink_fr _ _ _) ?_
    | with_reducible apply Fr.step (modLane_fr _ _ _) ?_
    | with_reducible apply Fr.step (takeOut_fr _ _) ?_
    | (with_reducible apply Fr.put_sw _ ?_; first | with_reducible apply Fr.refl | with_reducible apply Fr.ite | with_reducible apply Fr.step (modLink_fr _ _ _) ?_ | with_reducible apply Fr.step (modLane_fr _ _ _) ?_ | with_reducible apply Fr.step (takeOut_fr _ _) ?_ | split)
    | split
    | dsimp only

theorem iteration_fr (first : Bool) (rs : List Req) (r : State × List (Nat × Nat)) : Fr 128 r.1 (iteration first rs r).1 := by
  unfold iteration
  try dsimp only
  repeat' first
    | with_reducible apply Fr.refl
    | with_reducible apply Fr.ite
    | with_reducible apply Fr.ite1
    | with_reducible apply Fr.foldl _ _ (fun y a => ?_) ?_
    | with_reducible apply Fr.foldl1 _ _ (fun y a => ?_) ?_
    | (with_reducible apply Fr.put_sw _ ?_; first | with_reducible apply Fr.refl | with_reducible apply Fr.ite | with_reducible apply Fr.ite1 | with_reducible apply Fr.foldl _ _ (fun y a => ?_) ?_ | with_reducible apply Fr.foldl1 _ _ (fun y a => ?_) ?_ | (split <;> try (rename_i h; have e := congrArg Prod.fst h; dsimp only at e; subst e)))
    | (split <;> try (rename_i h; have e := congrArg Prod.fst h; dsimp only at e; subst e))
    | dsimp only

theorem followSlots_fr (s : State) : Fr 128 s (followSlots s) := by
  unfold followSlots
  try dsimp only
  repeat' first
    | with_reducible apply Fr.refl
    | with_reducible apply Fr.ite
    | (with_reducible apply Fr.put_sw _ ?_; first | with_reducible apply Fr.refl | with_reducible apply Fr.ite | split)
    | split
    | dsimp only

theorem putOff_fr (s : State) (v : Resv) : Fr 128 s (putOff s v) := by
  unfold putOff
  try dsimp only
  repeat' first
    | with_reducible apply Fr.refl
    | with_reducible apply Fr.ite
    | (with_reducible apply Fr.put_sw _ ?_; first | with_reducible apply Fr.refl | with_reducible apply Fr.ite | split)
    | split
    | dsimp only

theorem serveResv_fr (r : State × List (Nat × Nat)) (v : Resv) : Fr 65728 r.1 (serveResv r v).1 := by
  unfold serveResv
  try dsimp only
  repeat' first
    | with_reducible apply Fr.refl
    | with_reducible apply Fr.ite
    | with_reducible apply Fr.ite1
    | with_reducible apply Fr.step (putOff_fr _ _) ?_
    | with_reducible apply Fr.step (bump_fr _ _) ?_
    | with_reducible apply Fr.step (sendCell_fr _ _) ?_
    | (split <;> try (rename_i h; have e := congrArg Prod.fst h; dsimp only at e; subst e))
    | dsimp only

theorem drrAdvance_fr (s : State) (l : Nat) (i : Nat) (d : Nat) : Fr 128 s (drrAdvance s l i d) := by
  unfold drrAdvance
  try dsimp only
  repeat' first
    | with_reducible apply Fr.refl
    | with_reducible apply Fr.ite
    | (with_reducible apply Fr.put_sw _ ?_; first | with_reducible apply Fr.refl | with_reducible apply Fr.ite | split)
    | split
    | dsimp only

theorem drrPick_fr (l : Nat) (hs : List QFrame) (n : Nat) (s : State) : Fr 128 s (drrPick l hs n s).1 := by
  induction n generalizing s with
  | zero => exact Fr.refl _ _
  | succ n ih =>
    unfold drrPick
    try dsimp only
    repeat' first
      | with_reducible apply Fr.refl
      | with_reducible apply Fr.ite1
      | with_reducible apply Fr.ite
      | with_reducible apply Fr.step (ih _) ?_
      | with_reducible apply Fr.step (drrAdvance_fr _ _ _ _) ?_
      | (with_reducible apply Fr.put_sw _ ?_; first | with_reducible apply Fr.refl | with_reducible apply Fr.ite | with_reducible apply Fr.step (drrAdvance_fr _ _ _ _) ?_)
      | split

theorem linkPick_fr (s : State) (l : Nat) (hs : List QFrame) : Fr 128 s (linkPick s l hs).1 := by
  unfold linkPick
  try dsimp only
  repeat' first
    | with_reducible apply Fr.refl
    | with_reducible apply Fr.ite
    | with_reducible apply Fr.ite1
    | with_reducible apply Fr.foldl _ _ (fun y a => ?_) ?_
    | with_reducible apply Fr.foldl1 _ _ (fun y a => ?_) ?_
    | with_reducible apply Fr.step (drrPick_fr _ _ _ _) ?_
    | (split <;> try (rename_i h; have e := congrArg Prod.fst h; dsimp only at e; subst e))
    | dsimp only

theorem servePair_fr (s : State) (p : Nat × Nat) : Fr 192 s (servePair s p) := by
  unfold servePair
  try dsimp only
  repeat' first
    | with_reducible apply Fr.refl
    | with_reducible apply Fr.ite
    | with_reducible apply Fr.foldl _ _ (fun y a => ?_) ?_
    | with_reducible apply Fr.foldl1 _ _ (fun y a => ?_) ?_
    | with_reducible apply Fr.step (sendCell_fr _ _) ?_
    | with_reducible apply Fr.step (linkPick_fr _ _ _) ?_
    | (with_reducible apply Fr.put_sw _ ?_; first | with_reducible apply Fr.refl | with_reducible apply Fr.ite | with_reducible apply Fr.foldl _ _ (fun y a => ?_) ?_ | with_reducible apply Fr.foldl1 _ _ (fun y a => ?_) ?_ | with_reducible apply Fr.step (sendCell_fr _ _) ?_ | with_reducible apply Fr.step (linkPick_fr _ _ _) ?_ | (split <;> try (rename_i h; have e := congrArg Prod.fst h; dsimp only at e; subst e)))
    | (split <;> try (rename_i h; have e := congrArg Prod.fst h; dsimp only at e; subst e))
    | dsimp only

theorem serveRunners_fr (s : State) : Fr 192 s (serveRunners s) := by
  unfold serveRunners
  try dsimp only
  repeat' first
    | with_reducible apply Fr.refl
    | with_reducible apply Fr.ite
    | with_reducible apply Fr.forEach _ _ (fun y a => ?_) ?_
    | with_reducible apply Fr.foldl _ _ (fun y a => ?_) ?_
    | with_reducible apply Fr.foldl1 _ _ (fun y a => ?_) ?_
    | with_reducible apply Fr.step (sendCell_fr _ _) ?_
    | with_reducible apply Fr.step (linkPick_fr _ _ _) ?_
    | (split <;> try (rename_i h; have e := congrArg Prod.fst h; dsimp only at e; subst e))
    | dsimp only

theorem slagQueue_fr (s : State) : Fr 82116 s (slagQueue s) := by
  unfold slagQueue
  try dsimp only
  repeat' first
    | with_reducible apply Fr.refl
    | with_reducible apply Fr.ite
    | with_reducible apply Fr.foldl _ _ (fun y a => ?_) ?_
    | with_reducible apply Fr.foldl1 _ _ (fun y a => ?_) ?_
    | with_reducible apply Fr.step (slagCount_fr _ _ _) ?_
    | with_reducible apply Fr.step (takeOut_fr _ _) ?_
    | split
    | dsimp only

theorem slagMc_fr (s : State) (m : McFrame) : Fr 82116 s (slagMc s m) := by
  unfold slagMc
  try dsimp only
  repeat' first
    | with_reducible apply Fr.refl
    | with_reducible apply Fr.ite
    | with_reducible apply Fr.forEach _ _ (fun y a => ?_) ?_
    | with_reducible apply Fr.step (freeCredit_fr _ _ _ _) ?_
    | with_reducible apply Fr.step (slagCount_fr _ _ _) ?_
    | (with_reducible apply Fr.put_sw _ ?_; first | with_reducible apply Fr.refl | with_reducible apply Fr.ite | with_reducible apply Fr.forEach _ _ (fun y a => ?_) ?_ | with_reducible apply Fr.step (freeCredit_fr _ _ _ _) ?_ | with_reducible apply Fr.step (slagCount_fr _ _ _) ?_ | split)
    | split
    | dsimp only

theorem slagHeads_fr (s : State) : Fr 82116 s (slagHeads s) := by
  unfold slagHeads
  try dsimp only
  repeat' first
    | with_reducible apply Fr.refl
    | with_reducible apply Fr.ite
    | with_reducible apply Fr.forEach _ _ (fun y a => ?_) ?_
    | with_reducible apply Fr.step (slagQueue_fr _) ?_
    | with_reducible apply Fr.step (slagMc_fr _ _) ?_
    | split
    | dsimp only

theorem slagSweep_fr (s : State) : Fr 213188 s (slagSweep s) := by
  unfold slagSweep
  try dsimp only
  repeat' first
    | with_reducible apply Fr.refl
    | with_reducible apply Fr.ite
    | with_reducible apply Fr.step (slagHeads_fr _) ?_
    | with_reducible apply Fr.step (awaitOpt_fr _ _ _) ?_
    | split
    | dsimp only

theorem takeSelf_fr (s : State) : Fr 122567 s (takeSelf s) := by
  unfold takeSelf
  try dsimp only
  repeat' first
    | with_reducible apply Fr.refl
    | with_reducible apply Fr.ite
    | with_reducible apply Fr.forEach _ _ (fun y a => ?_) ?_
    | with_reducible apply Fr.step (consume_fr _ _ _) ?_
    | (with_reducible apply Fr.put_sw _ ?_; first | with_reducible apply Fr.refl | with_reducible apply Fr.ite | with_reducible apply Fr.forEach _ _ (fun y a => ?_) ?_ | with_reducible apply Fr.step (consume_fr _ _ _) ?_ | split)
    | split
    | dsimp only

theorem noteWaits_fr (s : State) (rs : List Req) (m : List (Nat × Nat)) : Fr 128 s (noteWaits s rs m) := by
  unfold noteWaits
  try dsimp only
  repeat' first
    | with_reducible apply Fr.refl
    | with_reducible apply Fr.ite
    | with_reducible apply Fr.foldl _ _ (fun y a => ?_) ?_
    | with_reducible apply Fr.foldl1 _ _ (fun y a => ?_) ?_
    | (with_reducible apply Fr.put_sw _ ?_; first | with_reducible apply Fr.refl | with_reducible apply Fr.ite | with_reducible apply Fr.foldl _ _ (fun y a => ?_) ?_ | with_reducible apply Fr.foldl1 _ _ (fun y a => ?_) ?_ | split)
    | split
    | dsimp only

theorem beginCell_fr (s : State) : Fr 128 s (beginCell s) := by
  unfold beginCell
  try dsimp only
  repeat' first
    | with_reducible apply Fr.refl
    | with_reducible apply Fr.ite
    | (with_reducible apply Fr.put_sw _ ?_; first | with_reducible apply Fr.refl | with_reducible apply Fr.ite | split)
    | split
    | dsimp only

theorem gateMatch_fr (s : State) : Fr 122567 s (gateMatch s) := by
  unfold gateMatch
  try dsimp only
  repeat' first
    | with_reducible apply Fr.refl
    | with_reducible apply Fr.ite
    | with_reducible apply Fr.forEach _ _ (fun y a => ?_) ?_
    | with_reducible apply Fr.foldl _ _ (fun y a => ?_) ?_
    | with_reducible apply Fr.foldl1 _ _ (fun y a => ?_) ?_
    | with_reducible apply Fr.step (slagHeads_fr _) ?_
    | with_reducible apply Fr.step (followSlots_fr _) ?_
    | with_reducible apply Fr.step (takeSelf_fr _) ?_
    | with_reducible apply Fr.step (serveResv_fr _ _) ?_
    | with_reducible apply Fr.step (beginCell_fr _) ?_
    | with_reducible apply Fr.step (iteration_fr _ _ _) ?_
    | with_reducible apply Fr.step (servePair_fr _ _) ?_
    | with_reducible apply Fr.step (bump_fr _ _) ?_
    | with_reducible apply Fr.step (serveRunners_fr _) ?_
    | with_reducible apply Fr.step (noteWaits_fr _ _ _) ?_
    | (split <;> try (rename_i h; have e := congrArg Prod.fst h; dsimp only at e; subst e))
    | dsimp only

theorem placeCopy_fr (m : McFrame) (sid : Nat) (s : State) (l : Nat) : Fr 65729 s (placeCopy m sid s l) := by
  unfold placeCopy
  try dsimp only
  repeat' first
    | with_reducible apply Fr.refl
    | with_reducible apply Fr.ite
    | with_reducible apply Fr.step (markCm_fr _ _ _) ?_
    | with_reducible apply Fr.step (freshId_fr _) ?_
    | with_reducible apply Fr.step (pushFrame_fr _ _) ?_
    | (split <;> try (rename_i h; have e := congrArg Prod.fst h; dsimp only at e; subst e))
    | dsimp only

theorem refuseCopy_fr (q : QFrame) (s : State) (l : Nat) : Fr 82117 s (refuseCopy q s l) := by
  unfold refuseCopy
  try dsimp only
  repeat' first
    | with_reducible apply Fr.refl
    | with_reducible apply Fr.ite
    | with_reducible apply Fr.step (bump_fr _ _) ?_
    | with_reducible apply Fr.step (sendNack_fr _ _ _ _) ?_
    | split
    | dsimp only

theorem storeCopy_fr (m : McFrame) (links : List Nat) (s : State) (e : Nat) : Fr 65729 s (storeCopy m links s e) := by
  unfold storeCopy
  try dsimp only
  repeat' first
    | with_reducible apply Fr.refl
    | with_reducible apply Fr.ite
    | with_reducible apply Fr.forEach _ _ (fun y a => ?_) ?_
    | with_reducible apply Fr.step (freshId_fr _) ?_
    | with_reducible apply Fr.step (placeCopy_fr _ _ _ _) ?_
    | (with_reducible apply Fr.put_sw _ ?_; first | with_reducible apply Fr.refl | with_reducible apply Fr.ite | with_reducible apply Fr.forEach _ _ (fun y a => ?_) ?_ | with_reducible apply Fr.step (freshId_fr _) ?_ | with_reducible apply Fr.step (placeCopy_fr _ _ _ _) ?_ | (split <;> try (rename_i h; have e := congrArg Prod.fst h; dsimp only at e; subst e)))
    | (split <;> try (rename_i h; have e := congrArg Prod.fst h; dsimp only at e; subst e))
    | dsimp only

theorem mcKeep_fr (s : State) (m : McFrame) (rest : List Nat) : Fr 192 s (mcKeep s m rest) := by
  unfold mcKeep
  try dsimp only
  repeat' first
    | with_reducible apply Fr.refl
    | with_reducible apply Fr.ite
    | with_reducible apply Fr.step (freeCredit_fr _ _ _ _) ?_
    | (with_reducible apply Fr.put_sw _ ?_; first | with_reducible apply Fr.refl | with_reducible apply Fr.ite | with_reducible apply Fr.step (freeCredit_fr _ _ _ _) ?_ | split)
    | split
    | dsimp only

theorem replicate_fr (s : State) (m : McFrame) : Fr 82117 s (replicate s m) := by
  unfold replicate
  try dsimp only
  repeat' first
    | with_reducible apply Fr.refl
    | with_reducible apply Fr.ite
    | with_reducible apply Fr.forEach _ _ (fun y a => ?_) ?_
    | with_reducible apply Fr.foldl _ _ (fun y a => ?_) ?_
    | with_reducible apply Fr.foldl1 _ _ (fun y a => ?_) ?_
    | with_reducible apply Fr.step (mcKeep_fr _ _ _) ?_
    | with_reducible apply Fr.step (mcCopyLost_fr _ _ _) ?_
    | with_reducible apply Fr.step (refuseCopy_fr _ _ _) ?_
    | with_reducible apply Fr.step (storeCopy_fr _ _ _ _) ?_
    | split
    | dsimp only

theorem runnerReplicate_fr (d : Nat) (s : State) : Fr 82117 s (runnerReplicate d s) := by
  unfold runnerReplicate
  try dsimp only
  repeat' first
    | with_reducible apply Fr.refl
    | with_reducible apply Fr.ite
    | with_reducible apply Fr.forEach _ _ (fun y a => ?_) ?_
    | with_reducible apply Fr.step (slagHeads_fr _) ?_
    | with_reducible apply Fr.step (replicate_fr _ _) ?_
    | split
    | dsimp only

theorem satHoldExpiry_fr (l : Nat) (s : State) : Fr 213060 s (satHoldExpiry l s) := by
  unfold satHoldExpiry
  try dsimp only
  repeat' first
    | with_reducible apply Fr.refl
    | with_reducible apply Fr.ite
    | with_reducible apply Fr.step (awaitOpt_fr _ _ _) ?_
    | with_reducible apply Fr.step (raiseEvent_fr _ _ _ _ _) ?_
    | with_reducible apply Fr.step (modLink_fr _ _ _) ?_
    | split
    | dsimp only

theorem satRearmExpiry_fr (l : Nat) (s : State) : Fr 131136 s (satRearmExpiry l s) := by
  unfold satRearmExpiry
  try dsimp only
  repeat' first
    | with_reducible apply Fr.refl
    | with_reducible apply Fr.ite
    | with_reducible apply Fr.step (modLink_fr _ _ _) ?_
    | with_reducible apply Fr.step (awaitOpt_fr _ _ _) ?_
    | split
    | dsimp only

theorem queuedFrameMove_fr (l : Nat) (s : State) : Fr 82117 s (queuedFrameMove l s) := by
  unfold queuedFrameMove
  try dsimp only
  repeat' first
    | with_reducible apply Fr.refl
    | with_reducible apply Fr.ite
    | with_reducible apply Fr.step (moveQueued_fr _ _) ?_
    | split
    | dsimp only

theorem firstCellOut_fr (s : State) (q : Nat) (c : BufCell) : Fr 82053 s (firstCellOut s q c) := by
  unfold firstCellOut
  try dsimp only
  repeat' first
    | with_reducible apply Fr.refl
    | with_reducible apply Fr.ite
    | with_reducible apply Fr.step (bump_fr _ _) ?_
    | with_reducible apply Fr.step (emit_fr _ _) ?_
    | with_reducible apply Fr.step (sampleFrame_fr _ _ _ _) ?_
    | with_reducible apply Fr.step (tapFrame_fr _ _ _ _ _ _) ?_
    | split
    | dsimp only

theorem markBlock_fr (s : State) (q : Nat) (seq : Nat) (frames : Nat) (slot0 : Bool) : Fr 100 s (markBlock s q seq frames slot0) := by
  unfold markBlock
  try dsimp only
  repeat' first
    | with_reducible apply Fr.refl
    | with_reducible apply Fr.ite
    | with_reducible apply Fr.step (setSwap_fr _ _ _ _) ?_
    | with_reducible apply Fr.step (sendOs_fr _ _ _ _) ?_
    | split
    | dsimp only

theorem emitBlock_fr (s : State) (q : Nat) (hdr : BitVec 40) (cells : List (List Byte)) : Fr 4 s (emitBlock s q hdr cells) := by
  unfold emitBlock
  try dsimp only
  repeat' first
    | with_reducible apply Fr.refl
    | with_reducible apply Fr.ite
    | with_reducible apply Fr.step (emit_fr _ _) ?_
    | split
    | dsimp only

theorem popSets_fr (s : State) (q : Nat) : Fr 8260 s (popSets s q).1 := by
  unfold popSets
  try dsimp only
  repeat' first
    | with_reducible apply Fr.refl
    | with_reducible apply Fr.ite
    | with_reducible apply Fr.ite1
    | with_reducible apply Fr.step (stampSets_fr _ _) ?_
    | with_reducible apply Fr.step (modLane_fr _ _ _) ?_
    | (split <;> try (rename_i h; have e := congrArg Prod.fst h; dsimp only at e; subst e))
    | dsimp only

theorem sendNoseq_fr (s : State) (q : Nat) (prbs : Bool) : Fr 8260 s (sendNoseq s q prbs) := by
  unfold sendNoseq
  try dsimp only
  repeat' first
    | with_reducible apply Fr.refl
    | with_reducible apply Fr.ite
    | with_reducible apply Fr.step (popSets_fr _ _) ?_
    | with_reducible apply Fr.step (emitBlock_fr _ _ _ _) ?_
    | with_reducible apply Fr.step (modLane_fr _ _ _) ?_
    | (split <;> try (rename_i h; have e := congrArg Prod.fst h; dsimp only at e; subst e))
    | dsimp only

theorem sendReplay_fr (s : State) (q : Nat) (b : Block) : Fr 73796 s (sendReplay s q b) := by
  unfold sendReplay
  try dsimp only
  repeat' first
    | with_reducible apply Fr.refl
    | with_reducible apply Fr.ite
    | with_reducible apply Fr.step (popSets_fr _ _) ?_
    | with_reducible apply Fr.step (bump_fr _ _) ?_
    | with_reducible apply Fr.step (modLane_fr _ _ _) ?_
    | with_reducible apply Fr.step (emitBlock_fr _ _ _ _) ?_
    | (split <;> try (rename_i h; have e := congrArg Prod.fst h; dsimp only at e; subst e))
    | dsimp only

theorem sendData_fr (s : State) (q : Nat) : Fr 90341 s (sendData s q) := by
  unfold sendData
  try dsimp only
  repeat' first
    | with_reducible apply Fr.refl
    | with_reducible apply Fr.ite
    | with_reducible apply Fr.forEach _ _ (fun y a => ?_) ?_
    | with_reducible apply Fr.step (modLane_fr _ _ _) ?_
    | with_reducible apply Fr.step (markBlock_fr _ _ _ _ _) ?_
    | with_reducible apply Fr.step (popSets_fr _ _) ?_
    | with_reducible apply Fr.step (bumpN_fr _ _ _) ?_
    | with_reducible apply Fr.step (freeOwed_fr _ _) ?_
    | with_reducible apply Fr.step (firstCellOut_fr _ _ _) ?_
    | with_reducible apply Fr.step (emitBlock_fr _ _ _ _) ?_
    | (split <;> try (rename_i h; have e := congrArg Prod.fst h; dsimp only at e; subst e))
    | dsimp only

theorem blockTransmit_fr (q : Nat) (s : State) : Fr 90341 s (blockTransmit q s) := by
  unfold blockTransmit
  try dsimp only
  repeat' first
    | with_reducible apply Fr.refl
    | with_reducible apply Fr.ite
    | with_reducible apply Fr.step (sendNoseq_fr _ _ _) ?_
    | with_reducible apply Fr.step (sendReplay_fr _ _ _) ?_
    | with_reducible apply Fr.step (sendData_fr _ _) ?_
    | split
    | dsimp only

end Sys2Proof.Machine
end

