-- ==== Sys2Proof/Laws/FrExec.lean ====
section
/-! SUPPORT. What each command can do, said once: the parts of State it may write. -/
/- Proofs of this file are elaborated one after another: side by side, their waiting threads' stacks
together pass the memory limit of the check. -/
set_option Elab.async false
namespace Sys2Proof.Machine

theorem registerWrite_exec_fr (f : Func) (off : Nat) (bytes : Nat) (v : Word) (s z : State) (h : exec (.registerWrite f off bytes v) s = .next z) : Fr 262143 s z :=
  Host.Outcome.next.inj h ▸ registerWrite_fr _ _ _ _ _

theorem blockLockSet_exec_fr (f : Func) (tbl : Bool) (s z : State) (h : exec (.blockLockSet f tbl) s = .next z) : Fr 2 s z :=
  Host.Outcome.next.inj h ▸ blockLock_fr _ _ _

theorem fabricPosWrite_exec_fr (f : Func) (v : Word) (s z : State) (h : exec (.fabricPosWrite f v) s = .next z) : Fr 114919 s z :=
  Host.Outcome.next.inj h ▸ fabricPosWrite_fr _ _ _

theorem frameReceive_exec_fr (lane : Nat) (hdr : List Word) (payload : List Byte) (s z : State) (h : exec (.frameReceive lane hdr payload) s = .next z) : Fr 122863 s z :=
  Host.Outcome.next.inj h ▸ frameReceive_fr _ _ _ _

theorem linkBringupRetry_exec_fr (l : Nat) (s z : State) (h : exec (.linkBringupRetry l) s = .next z) : Fr 245957 s z :=
  Host.Outcome.next.inj h ▸ linkBringupRetry_fr _ _

theorem recastOpen_exec_fr (ring : Nat) (s z : State) (h : exec (.recastOpen ring) s = .next z) : Fr 86276 s z :=
  Host.Outcome.next.inj h ▸ recastOpen_fr _ _

theorem recastClose_exec_fr (ring : Nat) (s z : State) (h : exec (.recastClose ring) s = .next z) : Fr 82180 s z :=
  Host.Outcome.next.inj h ▸ recastClose_fr _ _

theorem recastCloseTakesEffect_exec_fr (p : Nat) (s z : State) (h : exec (.recastCloseTakesEffect p) s = .next z) : Fr 82180 s z :=
  Host.Outcome.next.inj h ▸ closeTakesEffect_fr _ _

theorem recastLimitExpiry_exec_fr (p : Nat) (s z : State) (h : exec (.recastLimitExpiry p) s = .next z) : Fr 213252 s z :=
  Host.Outcome.next.inj h ▸ recastExpiry_fr _ _

theorem tblCfgWrite_exec_fr (f : Func) (v : Word) (s z : State) (h : exec (.tblCfgWrite f v) s = .next z) : Fr 82182 s z :=
  Host.Outcome.next.inj h ▸ tblCfgWrite_fr _ _ _

theorem laserEnSet_exec_fr (f : Func) (n : Nat) (v : Word) (s z : State) (h : exec (.laserEnSet f n v) s = .next z) : Fr 114919 s z :=
  Host.Outcome.next.inj h ▸ laserEnSet_fr _ _ _ _

theorem laserEnClear_exec_fr (f : Func) (n : Nat) (v : Word) (s z : State) (h : exec (.laserEnClear f n v) s = .next z) : Fr 114919 s z :=
  Host.Outcome.next.inj h ▸ laserEnClear_fr _ _ _ _

theorem oeBringupDone_exec_fr (n : Nat) (s z : State) (h : exec (.oeBringupDone n) s = .next z) : Fr 114917 s z :=
  Host.Outcome.next.inj h ▸ oeBringupDone_fr _ _

theorem oeBringupTimeout_exec_fr (n : Nat) (cause : Nat) (s z : State) (h : exec (.oeBringupTimeout n cause) s = .next z) : Fr 245989 s z :=
  Host.Outcome.next.inj h ▸ oeBringupTimeout_fr _ _ _

theorem oeBringupRetry_exec_fr (n : Nat) (s z : State) (h : exec (.oeBringupRetry n) s = .next z) : Fr 245989 s z :=
  Host.Outcome.next.inj h ▸ oeBringupRetry_fr _ _

theorem optSensorSample_exec_fr (n : Nat) (r : List (BitVec 16)) (s z : State) (h : exec (.optSensorSample n r) s = .next z) : Fr 114917 s z :=
  Host.Outcome.next.inj h ▸ optSensorSample_fr _ _ _

theorem ditherLockLoss_exec_fr (n : Nat) (t : Nat) (d : Dir) (s z : State) (h : exec (.ditherLockLoss n t d) s = .next z) : Fr 114925 s z :=
  Host.Outcome.next.inj h ▸ ditherLockLoss_fr _ _ _ _

theorem lockReacquired_exec_fr (n : Nat) (t : Nat) (d : Dir) (s z : State) (h : exec (.lockReacquired n t d) s = .next z) : Fr 32 s z :=
  Host.Outcome.next.inj h ▸ lockReacquired_fr _ _ _ _

theorem marginTestStart_exec_fr (l : Nat) (s z : State) (h : exec (.marginTestStart l) s = .next z) : Fr 96 s z :=
  Host.Outcome.next.inj h ▸ marginTestStart_fr _ _

theorem marginPowerStep_exec_fr (l : Nat) (s z : State) (h : exec (.marginPowerStep l) s = .next z) : Fr 245965 s z :=
  Host.Outcome.next.inj h ▸ marginPowerStep_fr _ _

theorem marginWindowOpen_exec_fr (l : Nat) (s z : State) (h : exec (.marginWindowOpen l) s = .next z) : Fr 131136 s z :=
  Host.Outcome.next.inj h ▸ marginWindowOpen_fr _ _

theorem marginWindowClose_exec_fr (l : Nat) (counts : Tab (Nat × Nat)) (s z : State) (h : exec (.marginWindowClose l counts) s = .next z) : Fr 245997 s z :=
  Host.Outcome.next.inj h ▸ marginWindowClose_fr _ _ _

theorem marginReportWaitExpiry_exec_fr (l : Nat) (s z : State) (h : exec (.marginReportWaitExpiry l) s = .next z) : Fr 245957 s z :=
  Host.Outcome.next.inj h ▸ marginReportWaitExpiry_fr _ _

theorem marginRetry_exec_fr (l : Nat) (s z : State) (h : exec (.marginRetry l) s = .next z) : Fr 245989 s z :=
  Host.Outcome.next.inj h ▸ marginRetry_fr _ _

theorem quickCheckWindowClose_exec_fr (q : Nat) (counts : Tab (Nat × Nat)) (s z : State) (h : exec (.quickCheckWindowClose q counts) s = .next z) : Fr 245997 s z :=
  Host.Outcome.next.inj h ▸ quickCheckWindowClose_fr _ _ _

theorem laserFadeSample_exec_fr (n : Nat) (fades : List (Nat × Nat)) (s z : State) (h : exec (.laserFadeSample n fades) s = .next z) : Fr 114925 s z :=
  Host.Outcome.next.inj h ▸ laserFadeSample_fr _ _ _

theorem spareLocked_exec_fr (q : Nat) (s z : State) (h : exec (.spareLocked q) s = .next z) : Fr 131172 s z :=
  Host.Outcome.next.inj h ▸ spareLocked_fr _ _

theorem swRequestReceive_exec_fr (q : Nat) (b : BitVec 104) (s z : State) (h : exec (.swRequestReceive q b) s = .next z) : Fr 82020 s z :=
  Host.Outcome.next.inj h ▸ swRequestReceive_fr _ _ _

theorem spareDropLocked_exec_fr (q : Nat) (s z : State) (h : exec (.spareDropLocked q) s = .next z) : Fr 82028 s z :=
  Host.Outcome.next.inj h ▸ spareDropLocked_fr _ _

theorem swReadyReceive_exec_fr (q : Nat) (b : BitVec 104) (s z : State) (h : exec (.swReadyReceive q b) s = .next z) : Fr 65568 s z :=
  Host.Outcome.next.inj h ▸ swReadyReceive_fr _ _ _

theorem duplicateIntervalEnd_exec_fr (q : Nat) (s z : State) (h : exec (.duplicateIntervalEnd q) s = .next z) : Fr 131104 s z :=
  Host.Outcome.next.inj h ▸ duplicateIntervalEnd_fr _ _

theorem swMarkReceive_exec_fr (q : Nat) (newColour : Bool) (b : BitVec 104) (s z : State) (h : exec (.swMarkReceive q newColour b) s = .next z) : Fr 114796 s z :=
  Host.Outcome.next.inj h ▸ swMarkReceive_fr _ _ _ _

theorem swDoneReceive_exec_fr (q : Nat) (b : BitVec 104) (s z : State) (h : exec (.swDoneReceive q b) s = .next z) : Fr 81956 s z :=
  Host.Outcome.next.inj h ▸ swDoneReceive_fr _ _ _

theorem fadedLaserDark_exec_fr (q : Nat) (s z : State) (h : exec (.fadedLaserDark q) s = .next z) : Fr 245804 s z :=
  Host.Outcome.next.inj h ▸ fadedLaserDark_fr _ _

theorem swNakReceive_exec_fr (q : Nat) (b : BitVec 104) (s z : State) (h : exec (.swNakReceive q b) s = .next z) : Fr 81956 s z :=
  Host.Outcome.next.inj h ▸ swNakReceive_fr _ _ _

theorem swapReadyTimeout_exec_fr (q : Nat) (s z : State) (h : exec (.swapReadyTimeout q) s = .next z) : Fr 213028 s z :=
  Host.Outcome.next.inj h ▸ swapReadyTimeout_fr _ _

theorem swapDoneTimeout_exec_fr (q : Nat) (s z : State) (h : exec (.swapDoneTimeout q) s = .next z) : Fr 213028 s z :=
  Host.Outcome.next.inj h ▸ swapDoneTimeout_fr _ _

theorem swapRetry_exec_fr (q : Nat) (s z : State) (h : exec (.swapRetry q) s = .next z) : Fr 213028 s z :=
  Host.Outcome.next.inj h ▸ swapRetry_fr _ _

theorem journalAppend_exec_fr (okB : Bool) (okA : Bool) (s z : State) (h : exec (.journalAppend okB okA) s = .next z) : Fr 8 s z :=
  Host.Outcome.next.inj h ▸ journalAppend_fr _ _ _

theorem calPassStart_exec_fr (n : Nat) (s z : State) (h : exec (.calPassStart n) s = .next z) : Fr 131104 s z :=
  Host.Outcome.next.inj h ▸ calPassStart_fr _ _

theorem calSlotStart_exec_fr (n : Nat) (s z : State) (h : exec (.calSlotStart n) s = .next z) : Fr 81956 s z :=
  Host.Outcome.next.inj h ▸ calSlotStart_fr _ _

theorem calSweepDone_exec_fr (n : Nat) (rows : List (Nat × Word)) (s z : State) (h : exec (.calSweepDone n rows) s = .next z) : Fr 32 s z :=
  Host.Outcome.next.inj h ▸ calSweepDone_fr _ _ _

theorem sprueSet_exec_fr (ctx : Nat) (claim : Nat) (s z : State) (h : exec (.sprueSet ctx claim) s = .next z) : Fr 247013 s z :=
  Host.Outcome.next.inj h ▸ sprueSet_fr _ _ _

theorem sprueThrough_exec_fr (n : Nat) (i : Nat) (s z : State) (h : exec (.sprueThrough n i) s = .next z) : Fr 131104 s z :=
  Host.Outcome.next.inj h ▸ sprueThrough_fr _ _ _

theorem sprueRelease_exec_fr (n : Nat) (i : Nat) (s z : State) (h : exec (.sprueRelease n i) s = .next z) : Fr 131104 s z :=
  Host.Outcome.next.inj h ▸ sprueRelease_fr _ _ _

theorem sprueReleaseDone_exec_fr (n : Nat) (i : Nat) (s z : State) (h : exec (.sprueReleaseDone n i) s = .next z) : Fr 245989 s z :=
  Host.Outcome.next.inj h ▸ sprueReleaseDone_fr _ _ _

theorem blockReceive_exec_fr (lane : Nat) (ch : Nat) (a : List Nat) (b : List Nat) (c : List Nat) (d : List Nat) (s z : State) (h : exec (.blockReceive lane ch a b c d) s = .next z) : Fr 131055 s z :=
  Host.Outcome.next.inj h ▸ blockReceive_fr _ _ _ _

theorem heartbeatSend_exec_fr (q : Nat) (s z : State) (h : exec (.heartbeatSend q) s = .next z) : Fr 131140 s z :=
  Host.Outcome.next.inj h ▸ heartbeatSend_fr _ _

theorem heartbeatReceive_exec_fr (q : Nat) (b : BitVec 104) (s z : State) (h : exec (.heartbeatReceive q b) s = .next z) : Fr 114885 s z :=
  Host.Outcome.next.inj h ▸ heartbeatReceive_fr _ _ _

theorem heartbeatTimeout_exec_fr (q : Nat) (s z : State) (h : exec (.heartbeatTimeout q) s = .next z) : Fr 245997 s z :=
  Host.Outcome.next.inj h ▸ heartbeatTimeout_fr _ _

theorem positionSend_exec_fr (q : Nat) (s z : State) (h : exec (.positionSend q) s = .next z) : Fr 131140 s z :=
  Host.Outcome.next.inj h ▸ positionSend_fr _ _

theorem positionReceive_exec_fr (q : Nat) (b : BitVec 104) (s z : State) (h : exec (.positionReceive q b) s = .next z) : Fr 114885 s z :=
  Host.Outcome.next.inj h ▸ positionReceive_fr _ _ _

theorem creditReceive_exec_fr (q : Nat) (hi : Bool) (b : BitVec 104) (s z : State) (h : exec (.creditReceive q hi b) s = .next z) : Fr 65600 s z :=
  Host.Outcome.next.inj h ▸ creditReceive_fr _ _ _ _

theorem creditResyncReceive_exec_fr (q : Nat) (b : BitVec 104) (s z : State) (h : exec (.creditResyncReceive q b) s = .next z) : Fr 65600 s z :=
  Host.Outcome.next.inj h ▸ creditResync_fr _ _ _

theorem retryReceive_exec_fr (q : Nat) (b : BitVec 104) (s z : State) (h : exec (.retryReceive q b) s = .next z) : Fr 114925 s z :=
  Host.Outcome.next.inj h ▸ retryReceive_fr _ _ _

theorem retryTimeout_exec_fr (q : Nat) (s z : State) (h : exec (.retryTimeout q) s = .next z) : Fr 245997 s z :=
  Host.Outcome.next.inj h ▸ retryTimeout_fr _ _

theorem marginReportReceive_exec_fr (q : Nat) (b : BitVec 104) (s z : State) (h : exec (.marginReportReceive q b) s = .next z) : Fr 114925 s z :=
  Host.Outcome.next.inj h ▸ marginReport_fr _ _ _

theorem linkctlQuiesceReceive_exec_fr (q : Nat) (b : BitVec 104) (s z : State) (h : exec (.linkctlQuiesceReceive q b) s = .next z) : Fr 65600 s z :=
  Host.Outcome.next.inj h ▸ linkctlQuiesce_fr _ _ _

theorem linkctlResumeReceive_exec_fr (q : Nat) (b : BitVec 104) (s z : State) (h : exec (.linkctlResumeReceive q b) s = .next z) : Fr 65600 s z :=
  Host.Outcome.next.inj h ▸ linkctlResume_fr _ _ _

theorem linkctlDisableReceive_exec_fr (q : Nat) (b : BitVec 104) (s z : State) (h : exec (.linkctlDisableReceive q b) s = .next z) : Fr 114885 s z :=
  Host.Outcome.next.inj h ▸ linkctlDisable_fr _ _ _

theorem lossOfLight_exec_fr (q : Nat) (s z : State) (h : exec (.lossOfLight q) s = .next z) : Fr 114925 s z :=
  Host.Outcome.next.inj h ▸ lossOfLight_fr _ _

theorem lightPresent_exec_fr (q : Nat) (s z : State) (h : exec (.lightPresent q) s = .next z) : Fr 262143 s z :=
  Host.Outcome.next.inj h ▸ lightPresent_fr _ _

theorem linkEnable_exec_fr (f : Func) (l : Nat) (v : Word) (s z : State) (h : exec (.linkEnable f l v) s = .next z) : Fr 114919 s z :=
  Host.Outcome.next.inj h ▸ linkEnable_fr _ _ _ _

theorem linkDisable_exec_fr (f : Func) (l : Nat) (v : Word) (s z : State) (h : exec (.linkDisable f l v) s = .next z) : Fr 114887 s z :=
  Host.Outcome.next.inj h ▸ linkDisable_fr _ _ _ _

theorem frameAdmitRetry_exec_fr (die : Nat) (s z : State) (h : exec (.frameAdmitRetry die) s = .next z) : Fr 82116 s z :=
  Host.Outcome.next.inj h ▸ frameAdmitRetry_fr _ _

theorem spillPrefetch_exec_fr (die : Nat) (poisoned : Bool) (s z : State) (h : exec (.spillPrefetch die poisoned) s = .next z) : Fr 65728 s z :=
  Host.Outcome.next.inj h ▸ spillPrefetch_fr _ _ _

theorem gateMatch_exec_fr (s z : State) (h : exec (.gateMatch) s = .next z) : Fr 122567 s z :=
  Host.Outcome.next.inj h ▸ gateMatch_fr _

theorem runnerReplicate_exec_fr (die : Nat) (s z : State) (h : exec (.runnerReplicate die) s = .next z) : Fr 82117 s z :=
  Host.Outcome.next.inj h ▸ runnerReplicate_fr _ _

theorem slagSweep_exec_fr (s z : State) (h : exec (.slagSweep) s = .next z) : Fr 213188 s z :=
  Host.Outcome.next.inj h ▸ slagSweep_fr _

theorem satHoldExpiry_exec_fr (l : Nat) (s z : State) (h : exec (.satHoldExpiry l) s = .next z) : Fr 213060 s z :=
  Host.Outcome.next.inj h ▸ satHoldExpiry_fr _ _

theorem satRearmExpiry_exec_fr (l : Nat) (s z : State) (h : exec (.satRearmExpiry l) s = .next z) : Fr 131136 s z :=
  Host.Outcome.next.inj h ▸ satRearmExpiry_fr _ _

theorem queuedFrameMove_exec_fr (l : Nat) (s z : State) (h : exec (.queuedFrameMove l) s = .next z) : Fr 82117 s z :=
  Host.Outcome.next.inj h ▸ queuedFrameMove_fr _ _

theorem tdmaWrite_exec_fr (ring : Nat) (s z : State) (h : exec (.tdmaWrite ring) s = .next z) : Fr 82180 s z :=
  Host.Outcome.next.inj h ▸ tdmaWrite_fr _ _

theorem tdmaRead_exec_fr (ring : Nat) (s z : State) (h : exec (.tdmaRead ring) s = .next z) : Fr 81924 s z :=
  Host.Outcome.next.inj h ▸ tdmaRead_fr _ _

theorem emInsert_exec_fr (ring : Nat) (s z : State) (h : exec (.emInsert ring) s = .next z) : Fr 86277 s z :=
  Host.Outcome.next.inj h ▸ emInsert_fr _ _

theorem emDelete_exec_fr (ring : Nat) (s z : State) (h : exec (.emDelete ring) s = .next z) : Fr 86276 s z :=
  Host.Outcome.next.inj h ▸ emDelete_fr _ _

theorem tdmaLock_exec_fr (ring : Nat) (s z : State) (h : exec (.tdmaLock ring) s = .next z) : Fr 82180 s z :=
  Host.Outcome.next.inj h ▸ tdmaLock_fr _ _

theorem tdmaUnlock_exec_fr (ring : Nat) (s z : State) (h : exec (.tdmaUnlock ring) s = .next z) : Fr 82180 s z :=
  Host.Outcome.next.inj h ▸ tdmaUnlock_fr _ _

theorem tdmaPurge_exec_fr (ring : Nat) (s z : State) (h : exec (.tdmaPurge ring) s = .next z) : Fr 82180 s z :=
  Host.Outcome.next.inj h ▸ tdmaPurge_fr _ _

theorem purgeComplete_exec_fr (ring : Nat) (s z : State) (h : exec (.purgeComplete ring) s = .next z) : Fr 86276 s z :=
  Host.Outcome.next.inj h ▸ purgeComplete_fr _ _

theorem mgmtEthReceive_exec_fr (port : Nat) (packet : List Byte) (s z : State) (h : exec (.mgmtEthReceive port packet) s = .next z) : Fr 82117 s z :=
  Host.Outcome.next.inj h ▸ mgmtEth_fr _ _ _

theorem collContribReceive_exec_fr (lane : Nat) (hdr : List Word) (payload : CruPayload) (s z : State) (h : exec (.collContribReceive lane hdr payload) s = .next z) : Fr 122863 s z :=
  Host.Outcome.next.inj h ▸ cruReceive_fr _ _ _ _ _

theorem collCombineReceive_exec_fr (lane : Nat) (hdr : List Word) (payload : CruPayload) (s z : State) (h : exec (.collCombineReceive lane hdr payload) s = .next z) : Fr 122863 s z :=
  Host.Outcome.next.inj h ▸ cruReceive_fr _ _ _ _ _

theorem slotScrubDone_exec_fr (cru : Nat) (slot : Nat) (s z : State) (h : exec (.slotScrubDone cru slot) s = .next z) : Fr 131584 s z :=
  Host.Outcome.next.inj h ▸ slotScrubDone_fr _ _ _

theorem planLoad_exec_fr (ring : Nat) (s z : State) (h : exec (.planLoad ring) s = .next z) : Fr 85668 s z :=
  Host.Outcome.next.inj h ▸ planLoad_fr _ _

theorem planUnload_exec_fr (ring : Nat) (s z : State) (h : exec (.planUnload ring) s = .next z) : Fr 118501 s z :=
  Host.Outcome.next.inj h ▸ planUnload_fr _ _

theorem planUnloadDone_exec_fr (ctx : Nat) (s z : State) (h : exec (.planUnloadDone ctx) s = .next z) : Fr 85124 s z :=
  Host.Outcome.next.inj h ▸ planUnloadDone_fr _ _

theorem planArm_exec_fr (ring : Nat) (s z : State) (h : exec (.planArm ring) s = .next z) : Fr 82948 s z :=
  Host.Outcome.next.inj h ▸ planArm_fr _ _

theorem planDisarm_exec_fr (ring : Nat) (s z : State) (h : exec (.planDisarm ring) s = .next z) : Fr 82948 s z :=
  Host.Outcome.next.inj h ▸ planDisarm_fr _ _

theorem planDisarmDone_exec_fr (ctx : Nat) (s z : State) (h : exec (.planDisarmDone ctx) s = .next z) : Fr 82948 s z :=
  Host.Outcome.next.inj h ▸ planDisarmDone_fr _ _

theorem pourComparatorLoad_exec_fr (seq : Nat) (s z : State) (h : exec (.pourComparatorLoad seq) s = .next z) : Fr 132096 s z :=
  Host.Outcome.next.inj h ▸ pourComparatorLoad_fr _ _

theorem runStart_exec_fr (ctx : Nat) (s z : State) (h : exec (.runStart ctx) s = .next z) : Fr 132096 s z :=
  Host.Outcome.next.inj h ▸ runStart_fr _ _

theorem pourTime_exec_fr (seq : Nat) (s z : State) (h : exec (.pourTime seq) s = .next z) : Fr 132096 s z :=
  Host.Outcome.next.inj h ▸ pourTime_fr _ _

theorem phaseStart_exec_fr (seq : Nat) (s z : State) (h : exec (.phaseStart seq) s = .next z) : Fr 216261 s z :=
  Host.Outcome.next.inj h ▸ phaseStart_fr _ _

theorem phaseDeadline_exec_fr (ctx : Nat) (phase : Nat) (s z : State) (h : exec (.phaseDeadline ctx phase) s = .next z) : Fr 216261 s z :=
  Host.Outcome.next.inj h ▸ phaseDeadline_fr _ _ _

theorem waitBoundExpiry_exec_fr (ctx : Nat) (phase : Nat) (s z : State) (h : exec (.waitBoundExpiry ctx phase) s = .next z) : Fr 216261 s z :=
  Host.Outcome.next.inj h ▸ waitBoundExpiry_fr _ _ _

theorem wordIssue_exec_fr (seq : Nat) (planEcc : Bool) (ecc : List EccError) (s z : State) (h : exec (.wordIssue seq planEcc ecc) s = .next z) : Fr 220871 s z :=
  Host.Outcome.next.inj h ▸ wordIssue_fr _ _ _ _

theorem memDataArrive_exec_fr (seq : Nat) (s z : State) (h : exec (.memDataArrive seq) s = .next z) : Fr 70656 s z :=
  Host.Outcome.next.inj h ▸ memDataArrive_fr _ _

theorem frameLaunch_exec_fr (die : Nat) (s z : State) (h : exec (.frameLaunch die) s = .next z) : Fr 214213 s z :=
  Host.Outcome.next.inj h ▸ frameLaunch_fr _ _

theorem ctxSetup_exec_fr (ring : Nat) (s z : State) (h : exec (.ctxSetup ring) s = .next z) : Fr 83972 s z :=
  Host.Outcome.next.inj h ▸ ctxSetup_fr _ _

theorem ctxRead_exec_fr (ring : Nat) (s z : State) (h : exec (.ctxRead ring) s = .next z) : Fr 81924 s z :=
  Host.Outcome.next.inj h ▸ ctxRead_fr _ _

theorem ctxExclude_exec_fr (ring : Nat) (s z : State) (h : exec (.ctxExclude ring) s = .next z) : Fr 122565 s z :=
  Host.Outcome.next.inj h ▸ ctxExclude_fr _ _

theorem ctxInclude_exec_fr (ring : Nat) (s z : State) (h : exec (.ctxInclude ring) s = .next z) : Fr 83972 s z :=
  Host.Outcome.next.inj h ▸ ctxInclude_fr _ _

theorem ctxStats_exec_fr (ring : Nat) (s z : State) (h : exec (.ctxStats ring) s = .next z) : Fr 81924 s z :=
  Host.Outcome.next.inj h ▸ ctxStats_fr _ _

theorem ctxTeardown_exec_fr (ring : Nat) (s z : State) (h : exec (.ctxTeardown ring) s = .next z) : Fr 118469 s z :=
  Host.Outcome.next.inj h ▸ ctxTeardown_fr _ _

theorem ctxScrubDone_exec_fr (ctx : Nat) (s z : State) (h : exec (.ctxScrubDone ctx) s = .next z) : Fr 83972 s z :=
  Host.Outcome.next.inj h ▸ ctxScrubDone_fr _ _

theorem dynTimeoutExpiry_exec_fr (ctx : Nat) (s z : State) (h : exec (.dynTimeoutExpiry ctx) s = .next z) : Fr 248517 s z :=
  Host.Outcome.next.inj h ▸ dynTimeoutExpiry_fr _ _

theorem rotPassStart_exec_fr (stack : Nat) (s z : State) (h : exec (.rotPassStart stack) s = .next z) : Fr 249868 s z :=
  Host.Outcome.next.inj h ▸ rotPassStart_fr _ _

theorem memRotReqWrite_exec_fr (f : Func) (v : Word) (s z : State) (h : exec (.memRotReqWrite f v) s = .next z) : Fr 118796 s z :=
  Host.Outcome.next.inj h ▸ memRotReqWrite_fr _ _ _

theorem rotCopyDone_exec_fr (stack : Nat) (s z : State) (h : exec (.rotCopyDone stack) s = .next z) : Fr 4096 s z :=
  Host.Outcome.next.inj h ▸ rotCopyDone_fr _ _

theorem rotSwitch_exec_fr (stack : Nat) (s z : State) (h : exec (.rotSwitch stack) s = .next z) : Fr 118799 s z :=
  Host.Outcome.next.inj h ▸ rotSwitch_fr _ _

theorem rotTrainDone_exec_fr (stack : Nat) (ok : Bool) (s z : State) (h : exec (.rotTrainDone stack ok) s = .next z) : Fr 118796 s z :=
  Host.Outcome.next.inj h ▸ rotTrainDone_fr _ _ _

theorem rotTestDone_exec_fr (stack : Nat) (ok : Bool) (s z : State) (h : exec (.rotTestDone stack ok) s = .next z) : Fr 118796 s z :=
  Host.Outcome.next.inj h ▸ rotTestDone_fr _ _ _

theorem memTransfer_exec_fr (stack : Nat) (ch : Nat) (line : Nat) (write : Bool) (user : MemUser) (tries : List TransferResult) (s z : State) (h : exec (.memTransfer stack ch line write user tries) s = .next z) : Fr 249871 s z :=
  Host.Outcome.next.inj h ▸ memTransfer_fr _ _ _ _ _ _ _

theorem pageRetirementDone_exec_fr (stack : Nat) (ch : Nat) (s z : State) (h : exec (.pageRetirementDone stack ch) s = .next z) : Fr 118796 s z :=
  Host.Outcome.next.inj h ▸ pageRetirementDone_fr _ _ _

theorem patrolPassStart_exec_fr (s z : State) (h : exec (.patrolPassStart) s = .next z) : Fr 135168 s z :=
  Host.Outcome.next.inj h ▸ patrolPassStart_fr _

theorem memHotClearExpiry_exec_fr (stack : Nat) (s z : State) (h : exec (.memHotClearExpiry stack) s = .next z) : Fr 217092 s z :=
  Host.Outcome.next.inj h ▸ memHotClear_fr _ _

theorem rebuildComplete_exec_fr (l : Nat) (s z : State) (h : exec (.rebuildComplete l) s = .next z) : Fr 86020 s z :=
  Host.Outcome.next.inj h ▸ rebuildComplete_fr _ _

theorem regionScrubDone_exec_fr (s z : State) (h : exec (.regionScrubDone) s = .next z) : Fr 69632 s z :=
  Host.Outcome.next.inj h ▸ regionScrubDone_fr _

theorem memPutReceive_exec_fr (lane : Nat) (hdr : List Word) (payload : List Byte) (s z : State) (h : exec (.memPutReceive lane hdr payload) s = .next z) : Fr 122863 s z :=
  Host.Outcome.next.inj h ▸ selfReceive_fr _ _ _ _ _

theorem memGetReceive_exec_fr (lane : Nat) (hdr : List Word) (payload : List Byte) (s z : State) (h : exec (.memGetReceive lane hdr payload) s = .next z) : Fr 122863 s z :=
  Host.Outcome.next.inj h ▸ selfReceive_fr _ _ _ _ _

theorem memAtomicReceive_exec_fr (lane : Nat) (hdr : List Word) (payload : List Byte) (s z : State) (h : exec (.memAtomicReceive lane hdr payload) s = .next z) : Fr 122863 s z :=
  Host.Outcome.next.inj h ▸ selfReceive_fr _ _ _ _ _

theorem fabricMemDone_exec_fr (s z : State) (h : exec (.fabricMemDone) s = .next z) : Fr 86213 s z :=
  Host.Outcome.next.inj h ▸ fabricMemDone_fr _

theorem timeSyncSend_exec_fr (link : Nat) (dom : Nat) (s z : State) (h : exec (.timeSyncSend link dom) s = .next z) : Fr 8256 s z :=
  Host.Outcome.next.inj h ▸ timeSyncSend_fr _ _ _

theorem timeAnnounceSend_exec_fr (link : Nat) (dom : Nat) (s z : State) (h : exec (.timeAnnounceSend link dom) s = .next z) : Fr 8260 s z :=
  Host.Outcome.next.inj h ▸ timeAnnounceSend_fr _ _ _

theorem timeSyncReceive_exec_fr (lane : Nat) (body : BitVec 104) (s z : State) (h : exec (.timeSyncReceive lane body) s = .next z) : Fr 73792 s z :=
  Host.Outcome.next.inj h ▸ timeSyncReceive_fr _ _ _

theorem timeDelayReqReceive_exec_fr (lane : Nat) (body : BitVec 104) (s z : State) (h : exec (.timeDelayReqReceive lane body) s = .next z) : Fr 65604 s z :=
  Host.Outcome.next.inj h ▸ timeDelayReqReceive_fr _ _ _

theorem timeDelayRespReceive_exec_fr (lane : Nat) (body : BitVec 104) (s z : State) (h : exec (.timeDelayRespReceive lane body) s = .next z) : Fr 93381 s z :=
  Host.Outcome.next.inj h ▸ timeDelayRespReceive_fr _ _ _

theorem timeAnnounceReceive_exec_fr (lane : Nat) (body : BitVec 104) (s z : State) (h : exec (.timeAnnounceReceive lane body) s = .next z) : Fr 73728 s z :=
  Host.Outcome.next.inj h ▸ timeAnnounceReceive_fr _ _ _

theorem timeExchangeTimeout_exec_fr (dom : Nat) (s z : State) (h : exec (.timeExchangeTimeout dom) s = .next z) : Fr 204800 s z :=
  Host.Outcome.next.inj h ▸ timeExchangeTimeout_fr _ _

theorem timeMasterLost_exec_fr (dom : Nat) (s z : State) (h : exec (.timeMasterLost dom) s = .next z) : Fr 221188 s z :=
  Host.Outcome.next.inj h ▸ timeMasterLost_fr _ _

theorem ppsEdge_exec_fr (s z : State) (h : exec (.ppsEdge) s = .next z) : Fr 93383 s z :=
  Host.Outcome.next.inj h ▸ ppsEdge_fr _

theorem ppsNoEdgeTimeout_exec_fr (s z : State) (h : exec (.ppsNoEdgeTimeout) s = .next z) : Fr 221188 s z :=
  Host.Outcome.next.inj h ▸ ppsNoEdgeTimeout_fr _

theorem ppsOutRise_exec_fr (s z : State) (h : exec (.ppsOutRise) s = .next z) : Fr 139280 s z :=
  Host.Outcome.next.inj h ▸ ppsOutRise_fr _

theorem ppsOutFall_exec_fr (s z : State) (h : exec (.ppsOutFall) s = .next z) : Fr 139280 s z :=
  Host.Outcome.next.inj h ▸ ppsOutFall_fr _

theorem timeSwitch_exec_fr (f : Func) (s z : State) (h : exec (.timeSwitch f) s = .next z) : Fr 90116 s z :=
  Host.Outcome.next.inj h ▸ timeSwitch_fr _ _

theorem timeReacq_exec_fr (f : Func) (ta : Bool) (tb : Bool) (s z : State) (h : exec (.timeReacq f ta tb) s = .next z) : Fr 90116 s z :=
  Host.Outcome.next.inj h ▸ timeReacq_fr _ _ _ _

theorem timeDomainDisable_exec_fr (f : Func) (dom : Nat) (v : Word) (s z : State) (h : exec (.timeDomainDisable f dom v) s = .next z) : Fr 90118 s z :=
  Host.Outcome.next.inj h ▸ timeDomainDisable_fr _ _ _ _

theorem timeNowRead_exec_fr (f : Func) (s z : State) (h : exec (.timeNowRead f) s = .next z) : Fr 8196 s z :=
  Host.Outcome.next.inj h ▸ timeNowRead_fr _ _

theorem cmdTail_exec_fr (f : Func) (page : Nat) (v : Word) (s z : State) (h : exec (.cmdTail f page v) s = .next z) : Fr 262143 s z :=
  Host.Outcome.next.inj h ▸ bell_fr _ _ _ _ _ (tailWrite_fr _ _)

theorem cqHead_exec_fr (f : Func) (page : Nat) (v : Word) (s z : State) (h : exec (.cqHead f page v) s = .next z) : Fr 262143 s z :=
  Host.Outcome.next.inj h ▸ bell_fr _ _ _ _ _ (headWrite_fr _ _)

theorem cqArm_exec_fr (f : Func) (page : Nat) (s z : State) (h : exec (.cqArm f page) s = .next z) : Fr 262143 s z :=
  Host.Outcome.next.inj h ▸ bell_fr _ _ _ _ _ (armRing_fr _)

theorem eqHead_exec_fr (f : Func) (page : Nat) (v : Word) (s z : State) (h : exec (.eqHead f page v) s = .next z) : Fr 262143 s z :=
  Host.Outcome.next.inj h ▸ bell_fr _ _ _ _ _ (headWrite_fr _ _)

theorem eqArm_exec_fr (f : Func) (page : Nat) (s z : State) (h : exec (.eqArm f page) s = .next z) : Fr 262143 s z :=
  Host.Outcome.next.inj h ▸ bell_fr _ _ _ _ _ (armRing_fr _)

theorem tdmaTail_exec_fr (f : Func) (page : Nat) (v : Word) (s z : State) (h : exec (.tdmaTail f page v) s = .next z) : Fr 262143 s z :=
  Host.Outcome.next.inj h ▸ bell_fr _ _ _ _ _ (tailWrite_fr _ _)

theorem ploadTail_exec_fr (f : Func) (page : Nat) (v : Word) (s z : State) (h : exec (.ploadTail f page v) s = .next z) : Fr 262143 s z :=
  Host.Outcome.next.inj h ▸ bell_fr _ _ _ _ _ (tailWrite_fr _ _)

theorem doorbellStray_exec_fr (f : Func) (page : Nat) (off : Nat) (bytes : Nat) (v : Word) (s z : State) (h : exec (.doorbellStray f page off bytes v) s = .next z) : Fr 262143 s z :=
  Host.Outcome.next.inj h ▸ doorbellWrite_fr _ _ _ _ _ _

theorem descriptorFetch_exec_fr (k : RingKind) (ring : Nat) (answer : Option (List Word)) (s z : State) (h : exec (.descriptorFetch k ring answer) s = .next z) : Fr 81924 s z :=
  Host.Outcome.next.inj h ▸ descriptorFetch_fr _ _ _ _

theorem hostBufferAccess_exec_fr (k : RingKind) (ring : Nat) (answer : HostAccess) (s z : State) (h : exec (.hostBufferAccess k ring answer) s = .next z) : Fr 90085 s z :=
  Host.Outcome.next.inj h ▸ hostBufferAccess_fr _ _ _ _

theorem coalUsExpiry_exec_fr (k : RingKind) (ring : Nat) (s z : State) (h : exec (.coalUsExpiry k ring) s = .next z) : Fr 212996 s z :=
  Host.Outcome.next.inj h ▸ coalUsExpiry_fr _ _ _

theorem ringEnable_exec_fr (f : Func) (k : RingKind) (ring : Nat) (v : Word) (s z : State) (h : exec (.ringEnable f k ring v) s = .next z) : Fr 16386 s z :=
  Host.Outcome.next.inj h ▸ ringEnable_fr _ _ _ _ _

theorem ringDisable_exec_fr (f : Func) (k : RingKind) (ring : Nat) (v : Word) (s z : State) (h : exec (.ringDisable f k ring v) s = .next z) : Fr 16386 s z :=
  Host.Outcome.next.inj h ▸ ringDisable_fr _ _ _ _ _

theorem ringDrained_exec_fr (k : RingKind) (ring : Nat) (s z : State) (h : exec (.ringDrained k ring) s = .next z) : Fr 81924 s z :=
  Host.Outcome.next.inj h ▸ ringDrained_fr _ _ _

theorem ringAssignWrite_exec_fr (f : Func) (ring : Nat) (v : Word) (s z : State) (h : exec (.ringAssignWrite f ring v) s = .next z) : Fr 2 s z :=
  Host.Outcome.next.inj h ▸ ringAssignWrite_fr _ _ _ _

theorem sendFrame_exec_fr (ring : Nat) (s z : State) (h : exec (.sendFrame ring) s = .next z) : Fr 83141 s z :=
  Host.Outcome.next.inj h ▸ sendFrame_fr _ _

theorem telemetryBuf_exec_fr (ring : Nat) (s z : State) (h : exec (.telemetryBuf ring) s = .next z) : Fr 81924 s z :=
  Host.Outcome.next.inj h ▸ telemetryBuf_fr _ _

theorem telemetryBufTimeout_exec_fr (die : Nat) (s z : State) (h : exec (.telemetryBufTimeout die) s = .next z) : Fr 212996 s z :=
  Host.Outcome.next.inj h ▸ telemetryBufTimeout_fr _ _

theorem memWrite_exec_fr (ring : Nat) (s z : State) (h : exec (.memWrite ring) s = .next z) : Fr 86020 s z :=
  Host.Outcome.next.inj h ▸ memWrite_fr _ _

theorem memRead_exec_fr (ring : Nat) (s z : State) (h : exec (.memRead ring) s = .next z) : Fr 86020 s z :=
  Host.Outcome.next.inj h ▸ memRead_fr _ _

theorem debugRead_exec_fr (ring : Nat) (badWords : List Nat) (s z : State) (h : exec (.debugRead ring badWords) s = .next z) : Fr 81925 s z :=
  Host.Outcome.next.inj h ▸ debugRead_fr _ _ _

theorem nop_exec_fr (ring : Nat) (s z : State) (h : exec (.nop ring) s = .next z) : Fr 81924 s z :=
  Host.Outcome.next.inj h ▸ nop_fr _ _

theorem getInfo_exec_fr (s z : State) (h : exec (.getInfo) s = .next z) : Fr 16384 s z :=
  Host.Outcome.next.inj h ▸ getInfo_fr _

theorem getMeasurement_exec_fr (s z : State) (h : exec (.getMeasurement) s = .next z) : Fr 16384 s z :=
  Host.Outcome.next.inj h ▸ getMeasurement_fr _

theorem fwStage_exec_fr (image : Option FwImage) (flashOk : Bool) (s z : State) (h : exec (.fwStage image flashOk) s = .next z) : Fr 16396 s z :=
  Host.Outcome.next.inj h ▸ fwStage_fr _ _ _

theorem fwRecover_exec_fr (image : Option FwImage) (s z : State) (h : exec (.fwRecover image) s = .next z) : Fr 114927 s z :=
  Host.Outcome.next.inj h ▸ fwRecover_fr _ _

theorem svnCommit_exec_fr (s z : State) (h : exec (.svnCommit) s = .next z) : Fr 16392 s z :=
  Host.Outcome.next.inj h ▸ svnCommit_fr _

theorem keyRevoke_exec_fr (s z : State) (h : exec (.keyRevoke) s = .next z) : Fr 16392 s z :=
  Host.Outcome.next.inj h ▸ keyRevoke_fr _

theorem vfFlr_exec_fr (n : Nat) (s z : State) (h : exec (.vfFlr n) s = .next z) : Fr 17410 s z :=
  Host.Outcome.next.inj h ▸ vfFlr_fr _ _

theorem pfFlr_exec_fr (s z : State) (h : exec (.pfFlr) s = .next z) : Fr 17410 s z :=
  Host.Outcome.next.inj h ▸ hostReset_fr _

theorem pcieLinkDown_exec_fr (s z : State) (h : exec (.pcieLinkDown) s = .next z) : Fr 17410 s z :=
  Host.Outcome.next.inj h ▸ pcieLinkDown_fr _

theorem vfEnable_exec_fr (n : Nat) (s z : State) (h : exec (.vfEnable n) s = .next z) : Fr 17410 s z :=
  Host.Outcome.next.inj h ▸ vfEnable_fr _ _

theorem vfDisable_exec_fr (n : Nat) (s z : State) (h : exec (.vfDisable n) s = .next z) : Fr 17410 s z :=
  Host.Outcome.next.inj h ▸ vfDisable_fr _ _

theorem linkFenceSet_exec_fr (f : Func) (l : Nat) (s z : State) (h : exec (.linkFenceSet f l) s = .next z) : Fr 82117 s z :=
  Host.Outcome.next.inj h ▸ linkFenceSet_fr _ _ _

theorem linkFenceClear_exec_fr (f : Func) (l : Nat) (s z : State) (h : exec (.linkFenceClear f l) s = .next z) : Fr 81988 s z :=
  Host.Outcome.next.inj h ▸ linkFenceClear_fr _ _ _

theorem deadHoldExpiry_exec_fr (l : Nat) (s z : State) (h : exec (.deadHoldExpiry l) s = .next z) : Fr 245957 s z :=
  Host.Outcome.next.inj h ▸ deadHoldExpiry_fr _ _

theorem fenceNAssert_exec_fr (s z : State) (h : exec (.fenceNAssert) s = .next z) : Fr 114885 s z :=
  Host.Outcome.next.inj h ▸ fenceNAssert_fr _

theorem fenceNDeassert_exec_fr (s z : State) (h : exec (.fenceNDeassert) s = .next z) : Fr 114885 s z :=
  Host.Outcome.next.inj h ▸ fenceNDeassert_fr _

theorem fenceNHoldExpiry_exec_fr (s z : State) (h : exec (.fenceNHoldExpiry) s = .next z) : Fr 245764 s z :=
  Host.Outcome.next.inj h ▸ fenceNHoldExpiry_fr _

theorem fenceUnstableClear_exec_fr (f : Func) (s z : State) (h : exec (.fenceUnstableClear f) s = .next z) : Fr 114885 s z :=
  Host.Outcome.next.inj h ▸ fenceUnstableClear_fr _ _

theorem wakeNAssert_exec_fr (s z : State) (h : exec (.wakeNAssert) s = .next z) : Fr 262143 s z :=
  Host.Outcome.next.inj h ▸ wakeNAssert_fr _

theorem wakeNHoldExpiry_exec_fr (s z : State) (h : exec (.wakeNHoldExpiry) s = .next z) : Fr 245764 s z :=
  Host.Outcome.next.inj h ▸ wakeNHoldExpiry_fr _

theorem wakeRearm_exec_fr (f : Func) (s z : State) (h : exec (.wakeRearm f) s = .next z) : Fr 32768 s z :=
  Host.Outcome.next.inj h ▸ wakeRearm_fr _ _

theorem perstNAssert_exec_fr (s z : State) (h : exec (.perstNAssert) s = .next z) : Fr 50178 s z :=
  Host.Outcome.next.inj h ▸ perstAssert_fr _

theorem perstNRelease_exec_fr (s z : State) (h : exec (.perstNRelease) s = .next z) : Fr 262143 s z :=
  Host.Outcome.next.inj h ▸ perstRelease_fr _

theorem thermalSample_exec_fr (set : SensorSet) (unit : Nat) (readings : List (BitVec 16)) (s z : State) (h : exec (.thermalSample set unit readings) s = .next z) : Fr 262143 s z :=
  Host.Outcome.next.inj h ▸ thermalSample_fr _ _ _ _

theorem thermalClearExpiry_exec_fr (set : SensorSet) (unit : Nat) (s z : State) (h : exec (.thermalClearExpiry set unit) s = .next z) : Fr 245764 s z :=
  Host.Outcome.next.inj h ▸ thermalClear_fr _ _ _

theorem counterRead_exec_fr (f : Func) (index : Nat) (s z : State) (h : exec (.counterRead f index) s = .next z) : Fr 65540 s z :=
  Host.Outcome.next.inj h ▸ counterRead_fr _ _ _

theorem sampleDataRead_exec_fr (f : Func) (die : Nat) (s z : State) (h : exec (.sampleDataRead f die) s = .next z) : Fr 65540 s z :=
  Host.Outcome.next.inj h ▸ sampleDataRead_fr _ _ _

theorem pwrGoodAssert_exec_fr (s z : State) (h : exec (.pwrGoodAssert) s = .next z) : Fr 262143 s z :=
  Host.Outcome.next.inj h ▸ pwrGoodAssert_fr _

theorem pwrGoodDeassert_exec_fr (s z : State) (h : exec (.pwrGoodDeassert) s = .next z) : Fr 262143 s z :=
  Host.Outcome.next.inj h ▸ pwrGoodDeassert_fr _

theorem vinTrip_exec_fr (vin : Nat) (s z : State) (h : exec (.vinTrip vin) s = .next z) : Fr 262143 s z :=
  Host.Outcome.next.inj h ▸ vinTrip_fr _ _

theorem ilimTrip_exec_fr (vin : Nat) (s z : State) (h : exec (.ilimTrip vin) s = .next z) : Fr 262143 s z :=
  Host.Outcome.next.inj h ▸ ilimTrip_fr _ _

theorem overcurrentTrip_exec_fr (vin : Nat) (s z : State) (h : exec (.overcurrentTrip vin) s = .next z) : Fr 262143 s z :=
  Host.Outcome.next.inj h ▸ overcurrentTrip_fr _ _

theorem railFault_exec_fr (rail : Nat) (vin : Nat) (s z : State) (h : exec (.railFault rail vin) s = .next z) : Fr 262143 s z :=
  Host.Outcome.next.inj h ▸ railFault_fr _ _ _

theorem vinStable_exec_fr (s z : State) (h : exec (.vinStable) s = .next z) : Fr 131088 s z :=
  Host.Outcome.next.inj h ▸ vinStable_fr _

theorem powerCapSample_exec_fr (vin : Nat) (iin : Nat) (pin : Nat) (energy : Nat) (s z : State) (h : exec (.powerCapSample vin iin pin energy) s = .next z) : Fr 32784 s z :=
  Host.Outcome.next.inj h ▸ powerCapSample_fr _ _ _ _ _

theorem cappingClearExpiry_exec_fr (s z : State) (h : exec (.cappingClearExpiry) s = .next z) : Fr 163856 s z :=
  Host.Outcome.next.inj h ▸ cappingClear_fr _

theorem pwrReqActive_exec_fr (f : Func) (s z : State) (h : exec (.pwrReqActive f) s = .next z) : Fr 262143 s z :=
  Host.Outcome.next.inj h ▸ pwrReqActive_fr _ _

theorem pwrReqParked_exec_fr (f : Func) (s z : State) (h : exec (.pwrReqParked f) s = .next z) : Fr 86100 s z :=
  Host.Outcome.next.inj h ▸ pwrReqParked_fr _ _

theorem pwrReqRetain_exec_fr (f : Func) (s z : State) (h : exec (.pwrReqRetain f) s = .next z) : Fr 86100 s z :=
  Host.Outcome.next.inj h ▸ pwrReqRetain_fr _ _

theorem pwrReqStandby_exec_fr (f : Func) (s z : State) (h : exec (.pwrReqStandby f) s = .next z) : Fr 86100 s z :=
  Host.Outcome.next.inj h ▸ pwrReqStandby_fr _ _

theorem i3cRequestWake_exec_fr (s z : State) (h : exec (.i3cRequestWake) s = .next z) : Fr 262143 s z :=
  Host.Outcome.next.inj h ▸ i3cWake_fr _

theorem i3cRequestStandby_exec_fr (s z : State) (h : exec (.i3cRequestStandby) s = .next z) : Fr 86100 s z :=
  Host.Outcome.next.inj h ▸ i3cStandby_fr _

theorem parkDrainDone_exec_fr (s z : State) (h : exec (.parkDrainDone) s = .next z) : Fr 84 s z :=
  Host.Outcome.next.inj h ▸ parkDrainDone_fr _

theorem parkDrainLimit_exec_fr (s z : State) (h : exec (.parkDrainLimit) s = .next z) : Fr 213188 s z :=
  Host.Outcome.next.inj h ▸ parkDrainLimit_fr _

theorem parkDisableDone_exec_fr (s z : State) (h : exec (.parkDisableDone) s = .next z) : Fr 262143 s z :=
  Host.Outcome.next.inj h ▸ parkDisableDone_fr _

theorem lowPowerEntryDone_exec_fr (s z : State) (h : exec (.lowPowerEntryDone) s = .next z) : Fr 262143 s z :=
  Host.Outcome.next.inj h ▸ lowPowerEntryDone_fr _

theorem wakeTimer_exec_fr (s z : State) (h : exec (.wakeTimer) s = .next z) : Fr 262143 s z :=
  Host.Outcome.next.inj h ▸ wakeTimer_fr _

theorem wakeParkedDone_exec_fr (s z : State) (h : exec (.wakeParkedDone) s = .next z) : Fr 245973 s z :=
  Host.Outcome.next.inj h ▸ wakeParkedDone_fr _

theorem wakeRetainDone_exec_fr (s z : State) (h : exec (.wakeRetainDone) s = .next z) : Fr 250077 s z :=
  Host.Outcome.next.inj h ▸ wakeRetainDone_fr _

theorem powerOn_exec_fr (bl2 : Bool) (selfHost : Bool) (bootSrc : Nat) (s z : State) (h : exec (.powerOn bl2 selfHost bootSrc) s = .next z) : Fr 262143 s z :=
  Host.Outcome.next.inj h ▸ powerOn_fr _ _ _ _

theorem coldReset_exec_fr (f : Func) (v : Word) (s z : State) (h : exec (.coldReset f v) s = .next z) : Fr 262143 s z :=
  Host.Outcome.next.inj h ▸ coldResetReq_fr _ _ _

theorem warmReset_exec_fr (f : Func) (v : Word) (s z : State) (h : exec (.warmReset f v) s = .next z) : Fr 262143 s z :=
  Host.Outcome.next.inj h ▸ warmResetReq_fr _ _ _

theorem pllLockLost_exec_fr (k : Nat) (s z : State) (h : exec (.pllLockLost k) s = .next z) : Fr 8 s z :=
  Host.Outcome.next.inj h ▸ pllLockLost_fr _ _

theorem pllRelockTimeout_exec_fr (k : Nat) (s z : State) (h : exec (.pllRelockTimeout k) s = .next z) : Fr 262143 s z :=
  Host.Outcome.next.inj h ▸ pllRelockTimeout_fr _ _

theorem crossingWaitExpiry_exec_fr (near : Nat) (far : Nat) (s z : State) (h : exec (.crossingWaitExpiry near far) s = .next z) : Fr 81926 s z :=
  Host.Outcome.next.inj h ▸ crossingWait_fr _ _ _

theorem patternCopyRead_exec_fr (copy : Nat) (image : PatternImage) (journal : List (Word × Word)) (s z : State) (h : exec (.patternCopyRead copy image journal) s = .next z) : Fr 8 s z :=
  Host.Outcome.next.inj h ▸ patternCopyRead_fr _ _ _ _

theorem journalCompactionDone_exec_fr (s z : State) (h : exec (.journalCompactionDone) s = .next z) : Fr 8 s z :=
  Host.Outcome.next.inj h ▸ journalCompacted_fr _

theorem railUp_exec_fr (rail : Nat) (mv : Nat) (s z : State) (h : exec (.railUp rail mv) s = .next z) : Fr 16 s z :=
  Host.Outcome.next.inj h ▸ railUp_fr _ _ _

theorem mainResetRelease_exec_fr (s z : State) (h : exec (.mainResetRelease) s = .next z) : Fr 170 s z :=
  Host.Outcome.next.inj h ▸ mainRelease_fr _

theorem firmwareAccepted_exec_fr (copy : Nat) (image : FwImage) (s z : State) (h : exec (.firmwareAccepted copy image) s = .next z) : Fr 114927 s z :=
  Host.Outcome.next.inj h ▸ firmwareAccepted_fr _ _ _

theorem sramZeroDone_exec_fr (s z : State) (h : exec (.sramZeroDone) s = .next z) : Fr 114927 s z :=
  Host.Outcome.next.inj h ▸ sramZeroDone_fr _

theorem memTrainDone_exec_fr (failed : List (Nat × Nat)) (s z : State) (h : exec (.memTrainDone failed) s = .next z) : Fr 118796 s z :=
  Host.Outcome.next.inj h ▸ memTrainDone_fr _ _

theorem memZeroDone_exec_fr (s z : State) (h : exec (.memZeroDone) s = .next z) : Fr 4104 s z :=
  Host.Outcome.next.inj h ▸ memZeroDone_fr _

theorem memVerifyDone_exec_fr (failed : List (Nat × Nat)) (s z : State) (h : exec (.memVerifyDone failed) s = .next z) : Fr 262143 s z :=
  Host.Outcome.next.inj h ▸ memVerifyDone_fr _ _

theorem moduleReady_exec_fr (s z : State) (h : exec (.moduleReady) s = .next z) : Fr 262143 s z :=
  Host.Outcome.next.inj h ▸ moduleReady_fr _

theorem blockTransmit_exec_fr (q : Nat) (s z : State) (h : exec (.blockTransmit q) s = .next z) : Fr 90341 s z :=
  Host.Outcome.next.inj h ▸ blockTransmit_fr _ _

theorem alwaysOnDomainStop_exec_fr (s z : State) (h : exec (.alwaysOnDomainStop) s = .next z) : Fr 262143 s z :=
  Host.Outcome.next.inj h ▸ alwaysOnStop_fr _

theorem aonResetEnd_exec_fr (pwrGood : Bool) (fenceN : Bool) (wakeN : Bool) (perstN : Bool) (s z : State) (h : exec (.aonResetEnd pwrGood fenceN wakeN perstN) s = .next z) : Fr 163864 s z :=
  Host.Outcome.next.inj h ▸ aonResetEnd_fr _ _ _ _ _

theorem pcieL1Exit_exec_fr (s z : State) (h : exec (.pcieL1Exit) s = .next z) : Fr 262143 s z :=
  Host.Outcome.next.inj h ▸ pcieL1Exit_fr _

theorem pllRelocked_exec_fr (k : Nat) (s z : State) (h : exec (.pllRelocked k) s = .next z) : Fr 8 s z :=
  Host.Outcome.next.inj h ▸ pllRelocked_fr _ _

theorem timeAnnounceExpiry_exec_fr (link : Nat) (dom : Nat) (s z : State) (h : exec (.timeAnnounceExpiry link dom) s = .next z) : Fr 139264 s z :=
  Host.Outcome.next.inj h ▸ timeAnnounceExpiry_fr _ _ _

theorem wakeNDeassert_exec_fr (s z : State) (h : exec (.wakeNDeassert) s = .next z) : Fr 32768 s z :=
  Host.Outcome.next.inj h ▸ wakeNDeassert_fr _

theorem tick_fr (s : State) : Fr 253135 s (tick s) :=
  Fr.step (serveChannels_fr _) (Fr.step (endPhasesDue_fr _) (Fr.put_now _ (Fr.refl _ _) (Nat.le_succ _)))

end Sys2Proof.Machine
end

