-- ==== Sys2Proof/Laws/Lanes.lean ====
section
/-! SUPPORT. What the riser, the fences and a change of a link's state leave of the lanes and links: no lane
but its outgoing ordered sets, and of a link (`Kl false`) its queue counts alone or (`Kl true`) its state, credits
and fence too. -/
/- Proofs of this file are elaborated one after another: side by side, their waiting threads' stacks
together pass the memory limit of the check. -/
set_option Elab.async false
namespace Sys2Proof.Machine

/-- Fields of a link that credits, marking and slag leave alone; with `up` also its state and its fence. -/
structure LinkKept (up : Bool) (a b : Link) : Prop where
  margin : b.margin = a.margin
  retryAt : b.retryAt = a.retryAt
  partnerDisabled : b.partnerDisabled = a.partnerDisabled
  sat : b.sat = a.sat
  state : up = false → b.state = a.state
  cause : up = false → b.cause = a.cause
  partner : up = false → b.partner = a.partner
  fenced : up = false → b.fenced = a.fenced
  source : up = false → b.source = a.source
  wanted : up = false → b.wanted = a.wanted
  downs : up = false → b.downs = a.downs
  deadSince : up = false → b.deadSince = a.deadSince
  bl2 : up = false → b.bl2 = a.bl2
  limit : up = false → b.limit = a.limit
  received : up = false → b.received = a.received
  granted : up = false → b.granted = a.granted

theorem LinkKept.refl (up : Bool) (a : Link) : LinkKept up a a := by constructor <;> intros <;> rfl

theorem LinkKept.trans {up : Bool} {a b c : Link} (h : LinkKept up a b) (g : LinkKept up b c) : LinkKept up a c where
  margin := g.margin.trans h.margin
  retryAt := g.retryAt.trans h.retryAt
  partnerDisabled := g.partnerDisabled.trans h.partnerDisabled
  sat := g.sat.trans h.sat
  state k := (g.state k).trans (h.state k)
  cause k := (g.cause k).trans (h.cause k)
  partner k := (g.partner k).trans (h.partner k)
  fenced k := (g.fenced k).trans (h.fenced k)
  source k := (g.source k).trans (h.source k)
  wanted k := (g.wanted k).trans (h.wanted k)
  downs k := (g.downs k).trans (h.downs k)
  deadSince k := (g.deadSince k).trans (h.deadSince k)
  bl2 k := (g.bl2 k).trans (h.bl2 k)
  limit k := (g.limit k).trans (h.limit k)
  received k := (g.received k).trans (h.received k)
  granted k := (g.granted k).trans (h.granted k)

structure Kl (up : Bool) (s t : State) : Prop where
  lanes : ∀ q, lane t q = { lane s q with osOut := (lane t q).osOut }
  links : ∀ l, LinkKept up (link s l) (link t l)

theorem Kl.refl (up : Bool) (s : State) : Kl up s s := ⟨fun _ => rfl, fun _ => LinkKept.refl _ _⟩

theorem Kl.step {up : Bool} {s x y : State} (h : Kl up x y) (ih : Kl up s x) : Kl up s y where
  lanes q := by rw [h.lanes q, ih.lanes q]
  links l := (ih.links l).trans (h.links l)

theorem Kl.loose {up : Bool} {s t : State} (h : Kl false s t) : Kl up s t where
  lanes := h.lanes
  links l := { margin := (h.links l).margin, retryAt := (h.links l).retryAt, sat := (h.links l).sat
               partnerDisabled := (h.links l).partnerDisabled, state := fun _ => (h.links l).state rfl
               cause := fun _ => (h.links l).cause rfl, partner := fun _ => (h.links l).partner rfl
               fenced := fun _ => (h.links l).fenced rfl, source := fun _ => (h.links l).source rfl
               wanted := fun _ => (h.links l).wanted rfl, downs := fun _ => (h.links l).downs rfl
               deadSince := fun _ => (h.links l).deadSince rfl, bl2 := fun _ => (h.links l).bl2 rfl
               limit := fun _ => (h.links l).limit rfl, received := fun _ => (h.links l).received rfl
               granted := fun _ => (h.links l).granted rfl }

theorem Kl.of_lnk {up : Bool} {s t : State} (h : t.lnk = s.lnk) : Kl up s t where
  lanes q := by have e : lane t q = lane s q := by unfold lane; rw [h]
                rw [e]
  links l := by have e : link t l = link s l := by unfold link; rw [h]
                rw [e]; exact LinkKept.refl _ _

theorem Kl.of {up : Bool} {m : Nat} {s t : State} (h : Fr m s t) (hm : m.testBit 6 = false := by decide) : Kl up s t :=
  Kl.of_lnk (h.lnk hm)

theorem Kl.ite {up : Bool} {s a b : State} {c : Prop} [Decidable c] (ha : Kl up s a) (hb : Kl up s b) :
    Kl up s (if c then a else b) := by split <;> assumption

theorem Kl.ite1 {β : Type} {up : Bool} {s : State} {a b : State × β} {c : Prop} [Decidable c] (ha : Kl up s a.1)
    (hb : Kl up s b.1) : Kl up s (if c then a else b).1 := by split <;> assumption

theorem Kl.foldl {α : Type} {up : Bool} {s x : State} (l : List α) (f : State → α → State)
    (hf : ∀ y a, Kl up y (f y a)) (ih : Kl up s x) : Kl up s (l.foldl f x) := by
  induction l generalizing x with
  | nil => exact ih
  | cons a l h => exact h ((hf x a).step ih)

theorem Kl.forEach {α : Type} {up : Bool} {s x : State} (l : List α) (f : State → α → State)
    (hf : ∀ y a, Kl up y (f y a)) (ih : Kl up s x) : Kl up s (forEach l x f) := Kl.foldl l f hf ih

theorem Kl.foldl1 {α β : Type} {up : Bool} {s : State} {x : State × β} (l : List α) (f : State × β → α → State × β)
    (hf : ∀ y a, Kl up y.1 (f y a).1) (ih : Kl up s x.1) : Kl up s (l.foldl f x).1 := by
  induction l generalizing x with
  | nil => exact ih
  | cons a l h => exact h ((hf x a).step ih)

/-- A record update that leaves lanes and links alone. -/
theorem Kl.upd {up : Bool} {s x : State} {nw fc : Nat} {rg : Tab Word} {ou : List Output} {bo : Boot} {pw : Pwr}
    {op : Opt} {sw : Sw} {tb : Tbl} {cr : Cru} {pl : PlanSt} {co : Coll} {me : Mem} {ti : Tim} {hi : Hif}
    {hl : Hlt} {cn : Cnt} (ih : Kl up s x) :
    Kl up s ⟨x.pending, nw, fc, x.variant, rg, ou, bo, pw, op, x.lnk, sw, tb, cr, pl, co, me, ti, hi, hl, cn⟩ :=
  Kl.step (x := x) (Kl.of_lnk rfl) ih

theorem Kl.link {up : Bool} {s x : State} (l : Nat) (f : Link → Link) (hf : ∀ k, LinkKept up k (f k)) (ih : Kl up s x) :
    Kl up s (modLink x l f) := by
  refine Kl.step (x := x) ⟨fun q => rfl, fun j => ?_⟩ ih
  by_cases h : j = l
  · subst h
    rw [show Machine.link (modLink x j f) j = f (Machine.link x j) from tget_tset_same ..]
    exact hf (Machine.link x j)
  · rw [show Machine.link (modLink x l f) j = Machine.link x j from tget_tset_other _ _ _ _ _ _ h]
    exact LinkKept.refl _ _

theorem sendOs_kl (s : State) (q type : Nat) (body : BitVec 104) : Kl false s (sendOs s q type body) := by
  refine ⟨fun j => ?_, fun l => LinkKept.refl _ _⟩
  have e : lane (sendOs s q type body) j = lane (modLane s q fun l => { l with osOut := l.osOut ++ [(type, body)] }) j := rfl
  rw [e]
  by_cases h : j = q
  · subst h
    rw [show lane (modLane s j _) j = _ from tget_tset_same ..]
  · rw [show lane (modLane s q _) j = lane s j from tget_tset_other _ _ _ _ _ _ h]

theorem freeCredit_kl (s : State) (l tc n : Nat) : Kl false s (freeCredit s l tc n) := by
  unfold freeCredit
  split
  · exact Kl.refl _ _
  · exact Kl.link _ _ (fun k => by constructor <;> intros <;> rfl) (Kl.refl _ _)

theorem nextMark_kl (s : State) (l : Nat) : Kl false s (nextMark s l).1 := by
  unfold nextMark
  dsimp only
  refine Kl.link _ _ (fun k => by constructor <;> intros <;> rfl) ?_
  split
  · exact Kl.of (takeFree_fr _)
  · exact Kl.refl _ _

theorem noteQ_kl (s : State) (l : Nat) : Kl false s (noteQ s l) := by
  unfold noteQ
  exact Kl.link _ _ (fun k => by constructor <;> intros <;> rfl) (Kl.refl _ _)

theorem startCredits_kl (s : State) (l : Nat) : Kl true s (startCredits s l) := by
  unfold startCredits
  exact Kl.link _ _ (fun k => by constructor <;> first | rfl | (intro h; exact nomatch h)) (Kl.refl _ _)

theorem markCm_kl (s : State) (l : Nat) (f : Frame) : Kl false s (markCm s l f).1 := by
  unfold markCm
  try dsimp only
  repeat' first
    | with_reducible apply Kl.refl
    | with_reducible apply Kl.ite
    | with_reducible apply Kl.step (Kl.of (bump_fr _ _)) ?_
    | with_reducible apply Kl.step (nextMark_kl _ _) ?_
    | with_reducible apply Kl.ite1
    | (split <;> try (rename_i h; have e := congrArg Prod.fst h; dsimp only at e; subst e))
    | dsimp only

theorem pushFrame_kl (s : State) (q : QFrame) : Kl false s (pushFrame s q) := by
  unfold pushFrame
  try dsimp only
  repeat' first
    | with_reducible apply Kl.refl
    | with_reducible apply Kl.ite
    | (with_reducible apply Kl.upd ?_; first | with_reducible apply Kl.refl | with_reducible apply Kl.ite | with_reducible apply Kl.step (noteQ_kl _ _) ?_)
    | with_reducible apply Kl.step (noteQ_kl _ _) ?_

theorem putFrame_kl (s : State) (q : QFrame) : Kl false s (putFrame s q) := by
  unfold putFrame
  try dsimp only
  repeat' first
    | with_reducible apply Kl.refl
    | with_reducible apply Kl.ite
    | with_reducible apply Kl.step (pushFrame_kl _ _) ?_
    | with_reducible apply Kl.step (freeCredit_kl _ _ _ _) ?_
    | with_reducible apply Kl.step (Kl.of (bump_fr _ _)) ?_
    | with_reducible apply Kl.step (Kl.of (deepFullNote_fr _ _)) ?_
    | with_reducible apply Kl.step (Kl.of (deepMove_fr _ _)) ?_
    | split

theorem placeOn_kl (s : State) (q : QFrame) (l : Nat) : Kl false s (placeOn s q l).1 := by
  unfold placeOn
  try dsimp only
  repeat' first
    | with_reducible apply Kl.refl
    | with_reducible apply Kl.ite
    | with_reducible apply Kl.step (Kl.of (bump_fr _ _)) ?_
    | with_reducible apply Kl.step (markCm_kl _ _ _) ?_
    | with_reducible apply Kl.step (putFrame_kl _ _) ?_
    | with_reducible apply Kl.ite1
    | (split <;> try (rename_i h; have e := congrArg Prod.fst h; dsimp only at e; subst e))
    | dsimp only

theorem deliverCore_kl (s : State) (q : QFrame) : Kl false s (deliverCore s q).1 := by
  unfold deliverCore
  try dsimp only
  repeat' first
    | with_reducible apply Kl.refl
    | with_reducible apply Kl.ite
    | with_reducible apply Kl.step (placeOn_kl _ _ _) ?_
    | with_reducible apply Kl.step (Kl.of (bump_fr _ _)) ?_
    | with_reducible apply Kl.step (Kl.of (raiseEvent_fr _ _ _ _ _)) ?_
    | with_reducible apply Kl.ite1
    | (split <;> try (rename_i h; have e := congrArg Prod.fst h; dsimp only at e; subst e))
    | dsimp only

theorem routeFrame_kl (s : State) (q : QFrame) (p : Nat) (useFlow : Bool) : Kl false s (routeFrame s q p useFlow).1 := by
  unfold routeFrame
  try dsimp only
  repeat' first
    | with_reducible apply Kl.refl
    | with_reducible apply Kl.ite
    | with_reducible apply Kl.step (Kl.of (bump_fr _ _)) ?_
    | with_reducible apply Kl.step (deliverCore_kl _ _) ?_
    | with_reducible apply Kl.ite1
    | (split <;> try (rename_i h; have e := congrArg Prod.fst h; dsimp only at e; subst e))
    | dsimp only

theorem mcEnter_kl (s : State) (q : QFrame) (members : List Nat) : Kl false s (mcEnter s q members) := by
  unfold mcEnter
  try dsimp only
  repeat' first
    | with_reducible apply Kl.refl
    | with_reducible apply Kl.ite
    | (with_reducible apply Kl.upd ?_; first | with_reducible apply Kl.refl | with_reducible apply Kl.ite | with_reducible apply Kl.step (freeCredit_kl _ _ _ _) ?_ | with_reducible apply Kl.step (Kl.of (bump_fr _ _)) ?_)
    | with_reducible apply Kl.step (freeCredit_kl _ _ _ _) ?_
    | with_reducible apply Kl.step (Kl.of (bump_fr _ _)) ?_

theorem ringSend_kl (s : State) (q : QFrame) (l : Nat) : Kl false s (ringSend s q l).1 := by
  unfold ringSend
  try dsimp only
  repeat' first
    | with_reducible apply Kl.refl
    | with_reducible apply Kl.ite
    | with_reducible apply Kl.step (Kl.of (bump_fr _ _)) ?_
    | with_reducible apply Kl.step (placeOn_kl _ _ _) ?_
    | with_reducible apply Kl.ite1
    | (split <;> try (rename_i h; have e := congrArg Prod.fst h; dsimp only at e; subst e))
    | dsimp only

theorem originate_kl (s : State) (die : Nat) (f : Frame) : Kl false s (originate s die f).1 := by
  unfold originate
  try dsimp only
  repeat' first
    | with_reducible apply Kl.refl
    | with_reducible apply Kl.ite
    | with_reducible apply Kl.step (Kl.of (ownFrame_fr _ _ _)) ?_
    | (with_reducible apply Kl.upd ?_; with_reducible apply Kl.step (Kl.of (ownFrame_fr _ _ _)) ?_)
    | with_reducible apply Kl.step (mcEnter_kl _ _ _) ?_
    | with_reducible apply Kl.step (ringSend_kl _ _ _) ?_
    | with_reducible apply Kl.step (routeFrame_kl _ _ _ _) ?_
    | with_reducible apply Kl.ite1
    | (split <;> try (rename_i h; have e := congrArg Prod.fst h; dsimp only at e; subst e))
    | dsimp only

theorem sendNack_kl (s : State) (q : QFrame) (cause : Nat) (backoff : Nat) : Kl false s (sendNack s q cause backoff) := by
  unfold sendNack
  try dsimp only
  repeat' first
    | with_reducible apply Kl.refl
    | with_reducible apply Kl.ite
    | with_reducible apply Kl.step (Kl.of (bump_fr _ _)) ?_
    | with_reducible apply Kl.step (originate_kl _ _ _) ?_
    | with_reducible apply Kl.ite1
    | (split <;> try (rename_i h; have e := congrArg Prod.fst h; dsimp only at e; subst e))
    | dsimp only

theorem liftFrame_kl (s : State) (q : QFrame) : Kl false s (liftFrame s q) := by
  unfold liftFrame
  try dsimp only
  repeat' first
    | with_reducible apply Kl.refl
    | with_reducible apply Kl.ite
    | (with_reducible apply Kl.upd ?_; first | with_reducible apply Kl.refl | with_reducible apply Kl.ite | with_reducible apply Kl.step (noteQ_kl _ _) ?_)
    | with_reducible apply Kl.step (noteQ_kl _ _) ?_
    | with_reducible apply Kl.step (Kl.of (deepFullEnd_fr _ _)) ?_

theorem freePlace_kl (s : State) (q : QFrame) : Kl false s (freePlace s q) := by
  unfold freePlace
  try dsimp only
  repeat' first
    | with_reducible apply Kl.refl
    | with_reducible apply Kl.step (freeCredit_kl _ _ _ _) ?_
    | with_reducible apply Kl.step (Kl.of (dropRef_fr _ _)) ?_
    | split

theorem takeOut_kl (s : State) (q : QFrame) : Kl false s (takeOut s q) := by
  unfold takeOut
  try dsimp only
  repeat' first
    | with_reducible apply Kl.refl
    | with_reducible apply Kl.step (freePlace_kl _ _) ?_
    | with_reducible apply Kl.step (liftFrame_kl _ _) ?_

theorem slagCount_kl (s : State) (l tc : Nat) : Kl false s (slagCount s l tc) := by
  unfold slagCount
  dsimp only
  have h : Kl false s (modLink (bump s (cLink l (24 + tc))) l fun k => { k with slagged := k.slagged + 1 }) :=
    Kl.link _ _ (fun k => by constructor <;> intros <;> rfl) (Kl.of (bump_fr _ _))
  refine Kl.ite (Kl.step (Kl.of (countEvent_fr _ _)) h) (Kl.step (Kl.of (raiseEvent_fr _ _ _ _ _)) ?_)
  exact Kl.step (Kl.link l (fun k => { k with slagAt := some (modLink (bump s (cLink l (24 + tc))) l fun k => { k with slagged := k.slagged + 1 }).now, slagged := 0 })
    (fun k => by constructor <;> intros <;> rfl) (Kl.refl _ _)) h

theorem answerQueued_kl (s : State) (q : QFrame) (cause : Nat) : Kl false s (answerQueued s q cause) := by
  unfold answerQueued
  try dsimp only
  repeat' first
    | with_reducible apply Kl.refl
    | with_reducible apply Kl.ite
    | with_reducible apply Kl.step (Kl.of (bump_fr _ _)) ?_
    | with_reducible apply Kl.step (sendNack_kl _ _ _ _) ?_

theorem mcCopyLost_kl (s : State) (group : Nat) (l : Nat) : Kl false s (mcCopyLost s group l) := by
  unfold mcCopyLost
  try dsimp only
  repeat' first
    | with_reducible apply Kl.refl
    | with_reducible apply Kl.ite
    | with_reducible apply Kl.step (Kl.of (bump_fr _ _)) ?_
    | with_reducible apply Kl.step (Kl.of (countEvent_fr _ _)) ?_
    | (with_reducible apply Kl.link _ _ (fun k => by constructor <;> intros <;> first | rfl | contradiction) ?_)
    | with_reducible apply Kl.step (Kl.of (raiseEvent_fr _ _ _ _ _)) ?_

theorem moveFrame_kl (s : State) (q : QFrame) : Kl false s (moveFrame s q) := by
  unfold moveFrame
  try dsimp only
  repeat' first
    | with_reducible apply Kl.refl
    | with_reducible apply Kl.ite
    | with_reducible apply Kl.step (Kl.of (reLane_fr _ _)) ?_
    | with_reducible apply Kl.step (mcCopyLost_kl _ _ _) ?_
    | with_reducible apply Kl.step (takeOut_kl _ _) ?_
    | with_reducible apply Kl.step (answerQueued_kl _ _ _) ?_
    | with_reducible apply Kl.step (deliverCore_kl _ _) ?_
    | with_reducible apply Kl.step (liftFrame_kl _ _) ?_
    | with_reducible apply Kl.step (freePlace_kl _ _) ?_
    | with_reducible apply Kl.ite1
    | (split <;> try (rename_i h; have e := congrArg Prod.fst h; dsimp only at e; subst e))
    | dsimp only

theorem moveQueued_kl (s : State) (l : Nat) : Kl false s (moveQueued s l) := by
  unfold moveQueued
  try dsimp only
  repeat' first
    | with_reducible apply Kl.refl
    | with_reducible apply Kl.forEach _ _ (fun y a => ?_) ?_
    | with_reducible apply Kl.step (moveFrame_kl _ _) ?_
    | dsimp only

theorem sendLinkctl_kl (s : State) (q : Nat) (op : Nat) : Kl false s (sendLinkctl s q op) := by
  unfold sendLinkctl
  try dsimp only
  repeat' first
    | with_reducible apply Kl.refl
    | with_reducible apply Kl.step (sendOs_kl _ _ _ _) ?_

theorem fenceEffect_kl (s : State) (l : Nat) : Kl false s (fenceEffect s l) := by
  unfold fenceEffect
  try dsimp only
  repeat' first
    | with_reducible apply Kl.refl
    | with_reducible apply Kl.forEach _ _ (fun y a => ?_) ?_
    | with_reducible apply Kl.step (moveQueued_kl _ _) ?_
    | with_reducible apply Kl.step (sendLinkctl_kl _ _ _) ?_
    | dsimp only

theorem fenceLink_kl (s : State) (l : Nat) (src : Nat) (n : Nat) : Kl true s (fenceLink s l src n) := by
  unfold fenceLink
  try dsimp only
  repeat' first
    | with_reducible apply Kl.refl
    | (with_reducible apply Kl.link _ _ (fun k => by constructor <;> intros <;> first | rfl | contradiction) ?_)
    | with_reducible apply Kl.step (Kl.of (raiseEvent_fr _ _ _ _ _)) ?_
    | with_reducible apply Kl.step (Kl.loose (fenceEffect_kl _ _)) ?_

theorem autoFence_kl (s : State) (l : Nat) (src : Nat) : Kl true s (autoFence s l src) := by
  unfold autoFence
  try dsimp only
  repeat' first
    | with_reducible apply Kl.refl
    | with_reducible apply Kl.ite
    | (with_reducible apply Kl.upd ?_; first | with_reducible apply Kl.refl | with_reducible apply Kl.ite | with_reducible apply Kl.step (fenceLink_kl _ _ _ _) ?_ | with_reducible apply Kl.step (Kl.of (raiseEvent_fr _ _ _ _ _)) ?_ | (with_reducible apply Kl.link _ _ (fun k => by constructor <;> intros <;> first | rfl | contradiction) ?_))
    | with_reducible apply Kl.step (fenceLink_kl _ _ _ _) ?_
    | with_reducible apply Kl.step (Kl.of (raiseEvent_fr _ _ _ _ _)) ?_
    | (with_reducible apply Kl.link _ _ (fun k => by constructor <;> intros <;> first | rfl | contradiction) ?_)

theorem countDown_kl (s : State) (l : Nat) : Kl true s (countDown s l) := by
  unfold countDown
  try dsimp only
  repeat' first
    | with_reducible apply Kl.refl
    | with_reducible apply Kl.ite
    | (with_reducible apply Kl.link _ _ (fun k => by constructor <;> intros <;> first | rfl | contradiction) ?_)
    | with_reducible apply Kl.step (autoFence_kl _ _ _) ?_

theorem refreshLink_kl (s : State) (l : Nat) (cause : Nat) (counts : Bool) : Kl true s (refreshLink s l cause counts) := by
  unfold refreshLink
  try dsimp only
  repeat' first
    | with_reducible apply Kl.refl
    | with_reducible apply Kl.ite
    | with_reducible apply Kl.step (startCredits_kl _ _) ?_
    | (with_reducible apply Kl.link _ _ (fun k => by constructor <;> intros <;> first | rfl | contradiction) ?_)
    | with_reducible apply Kl.step (Kl.of (raiseEvent_fr _ _ _ _ _)) ?_
    | with_reducible apply Kl.step (countDown_kl _ _) ?_

theorem loseStarted_kl (s : State) (q : Nat) : Kl false s (loseStarted s q) := by
  unfold loseStarted
  try dsimp only
  repeat' first
    | with_reducible apply Kl.refl
    | with_reducible apply Kl.forEach _ _ (fun y a => ?_) ?_
    | with_reducible apply Kl.step (takeOut_kl _ _) ?_
    | dsimp only

theorem sendResync_kl (s : State) (q : Nat) (tc : Nat) : Kl false s (sendResync s q tc) := by
  unfold sendResync
  try dsimp only
  repeat' first
    | with_reducible apply Kl.refl
    | with_reducible apply Kl.step (sendOs_kl _ _ _ _) ?_
    | (with_reducible apply Kl.link _ _ (fun k => by constructor <;> intros <;> rfl) ?_)

theorem followModuleFence_kl (s : State) : Kl false s (followModuleFence s) := by
  unfold followModuleFence
  try dsimp only
  repeat' first
    | with_reducible apply Kl.refl
    | with_reducible apply Kl.ite
    | with_reducible apply Kl.forEach _ _ (fun y a => ?_) ?_
    | (with_reducible apply Kl.upd ?_; first | with_reducible apply Kl.refl | with_reducible apply Kl.ite | with_reducible apply Kl.forEach _ _ (fun y a => ?_) ?_ | with_reducible apply Kl.step (Kl.of (raiseEvent_fr _ _ _ _ _)) ?_ | with_reducible apply Kl.step (fenceEffect_kl _ _) ?_ | with_reducible apply Kl.step (sendLinkctl_kl _ _ _) ?_)
    | with_reducible apply Kl.step (Kl.of (raiseEvent_fr _ _ _ _ _)) ?_
    | with_reducible apply Kl.step (fenceEffect_kl _ _) ?_
    | with_reducible apply Kl.step (sendLinkctl_kl _ _ _) ?_
    | dsimp only

theorem linkctlAll_kl (s : State) (op : Nat) : Kl false s (linkctlAll s op) := by
  unfold linkctlAll
  try dsimp only
  repeat' first
    | with_reducible apply Kl.refl
    | with_reducible apply Kl.forEach _ _ (fun y a => ?_) ?_
    | with_reducible apply Kl.step (sendLinkctl_kl _ _ _) ?_
    | dsimp only

end Sys2Proof.Machine
end

