-- ==== Sys2Proof/Machine/Module.lean ====
section
/-! DEFINITION. The module as its surroundings see it: BARs and core addresses (R331, R357, R359), connectors, pins and
pads (R401 to R408), the I3C window (R409), flash, pattern records and ROM defaults (R410, R434, R436, R440), the power
and coolant figures (R412, R415 to R417, R423), crossings (R427), the bounds of a start (R443, R444), and the latencies
and shares that the manual gives as figures (R115, R116, R293, R294, R379). No command's effect reads these. -/
namespace Sys2Proof.Machine

/-! ### BARs, vectors and cores: R331, R337, R357, R359 -/

/-- Bytes of BAR0 and BAR2 of a function, and its MSI-X vectors; the cores and firmware stand where the PF does. -/
def barBytes : Func → Nat × Nat
  | .vf _ => (64 * 2 ^ 10, 16 * 2 ^ 10)
  | _ => (64 * 2 ^ 20, 2 ^ 20)

def msixVectors : Func → Nat
  | .vf _ => 4
  | _ => 256

/-- A read of BAR2 returns 0 (R337). -/
def readBar2 : Word := 0

/-- Where the self-hosted driver's cores find BAR0 and BAR2 (R359). -/
def coreBar0 (off : Nat) : Nat := 0x1000000000 + off
def coreBar2 (off : Nat) : Nat := 0x1004000000 + off

/-- The cores that run firmware, and those that run the self-hosted driver and take its MSI-X messages (R357, R359). -/
def firmwareCores (s : State) : List Nat := if selfHosted s then List.range 24 else List.range 32
def driverCores (s : State) : List Nat := if selfHosted s then (List.range 8).map (· + 24) else []

/-- Configuration requests of the host are answered with Request Retry Status (R444). -/
def configRetry (s : State) : Bool := s.boot.fwState == .booting

/-- The PCIe controller is out of reset: PERST_N released and the HIF rail, number 3, up (R444). -/
def pcieUp (s : State) : Bool := s.pwr.powered && !s.hlt.perstN && railState s 3 == 1

/-! ### Outline, connectors and removal: R401 to R404 -/

/-- Millimetres of the outline, grams dry, lands, newtons of clamp load (R401). -/
def outlineMm : Nat × Nat × Nat := (160, 150, 21)
def dryGrams : Nat := 2400
def clampNewton : Nat := 2600

/-- The long edge an engine's connector lies on, true for edge A, and its place from the blade end (R401). -/
def connectorPlace (n : Nat) : Bool × Nat :=
  if n < 16 then (true, n) else if n < 32 then (false, n - 16) else if n = 32 then (true, 16) else (false, 16)

/-- The position of a fibre in its engine's connector: transmit fibres from 1, receive fibres from 5; the others of a
lateral engine are empty (R403). -/
def fibrePosition (n : Nat) (d : Dir) (f : Nat) : Option Nat :=
  if engineFibres n ≤ f then none
  else match d with
    | .tx => some (1 + f)
    | .rx => some (5 + f)

/-- Losses in 0.1 dB: of a mated pair, and of each colour from connector to connector (R403). -/
def matedLoss : Nat := 5
def pathLoss : Nat := 80

/-- The integrator may take the module out (R402), or unmate an engine's connector (R404). -/
def mayRemove (s : State) : Bool := !s.pwr.pwrGood
def mayUnmate (s : State) (n : Nat) : Bool := !s.pwr.pwrGood || !engineLit s n

/-! ### Pins: R405 to R407 -/

inductive PinDomain where
  | none | aon | hif | main
deriving DecidableEq, Repr

structure PinRow where
  name : String
  count : Nat
  domain : PinDomain
deriving DecidableEq, Repr

/-- The lands of R405; VIN and RTN are blades. -/
def lands : List PinRow :=
  [⟨"VSENSE", 2, .aon⟩, ⟨"GND", 1985, .none⟩, ⟨"PCIE", 64, .hif⟩, ⟨"PCIE_REFCLK", 2, .hif⟩, ⟨"PERST_N", 1, .aon⟩,
    ⟨"ETH", 8, .main⟩, ⟨"ETH_REFCLK", 2, .main⟩, ⟨"WAKE_N, FENCE_N", 2, .aon⟩, ⟨"PWR_GOOD", 1, .aon⟩] ++
  [⟨"PPS_IN", 1, .main⟩, ⟨"PPS_OUT", 1, .aon⟩, ⟨"THERM_ALERT_N", 1, .aon⟩, ⟨"MOD_PRESENT_N", 1, .none⟩,
    ⟨"I3C", 2, .aon⟩, ⟨"SPI", 6, .aon⟩, ⟨"JTAG", 5, .aon⟩, ⟨"straps", 4, .aon⟩, ⟨"RSVD_NC", 28, .none⟩]

/-- µA that an unpowered module draws at most on an input, and volts in 0.01 V up to which it does (R406). -/
def leakMicroamp : Nat := 10
def leakVolts : Nat := 198
def leakAlertVolts : Nat := 360

/-- The columns of R407. -/
inductive PadCond where
  | unpowered | aonReset | standby | mainReset | retain | parked | active
deriving DecidableEq, Repr

/-- The column that holds now; while it wakes the module is as in the state it wakes from. -/
def padCond (s : State) : PadCond :=
  let p := s.pwr
  if !p.powered then .unpowered
  else if p.aonReset then .aonReset
  else if p.state = 3 then .standby
  else if !s.boot.mainUp then .mainReset
  else if p.state = 2 ∨ (p.state = 5 ∧ p.wakeFrom = 2) then .retain
  else if p.state = 1 ∨ (p.state = 5 ∧ p.wakeFrom = 1) then .parked
  else .active

/-- The rows of R407. -/
inductive PadGroup where
  | optical | pcie | ethernet | ppsOut | thermAlert | i3c | spi | tdo | aonIn | ppsIn | straps
deriving DecidableEq, Repr

/-- What a pad does: `byRule` is a level that the rule named in the row gives. -/
inductive PadState where
  | dark | standbyBias | byRule | absent | linkL1 | linkL0 | highZ | low | released | driven | idleHigh | shiftOnly
  | tolerant | ignored | filtered | sampledOnce
deriving DecidableEq, Repr

/-- The table of R407; the module fence changes nothing in it. -/
def padState (g : PadGroup) (c : PadCond) : PadState :=
  match g, c with
  | .optical, .active => .byRule
  | .optical, .parked => .standbyBias
  | .optical, _ => .dark
  | .pcie, .retain => .linkL1
  | .pcie, .parked | .pcie, .active => .linkL0
  | .pcie, _ => .absent
  | .ethernet, .active => .driven
  | .ethernet, _ => .highZ
  | .ppsOut, .unpowered | .ppsOut, .aonReset => .highZ
  | .ppsOut, .parked | .ppsOut, .active => .byRule
  | .ppsOut, _ => .low
  | .thermAlert, .unpowered | .thermAlert, .aonReset => .released
  | .thermAlert, _ => .byRule
  | .i3c, .unpowered | .i3c, .aonReset => .highZ
  | .i3c, _ => .driven
  | .spi, .unpowered | .spi, .aonReset => .highZ
  | .spi, _ => .idleHigh
  | .tdo, .unpowered | .tdo, .aonReset => .highZ
  | .tdo, _ => .shiftOnly
  | .aonIn, .unpowered => .tolerant
  | .aonIn, .aonReset => .ignored
  | .aonIn, _ => .filtered
  | .ppsIn, .unpowered => .tolerant
  | .ppsIn, .active => .byRule
  | .ppsIn, _ => .ignored
  | .straps, .unpowered => .tolerant
  | .straps, .mainReset => .sampledOnce
  | .straps, _ => .ignored

/-- The level of PPS_OUT; none where the pad drives nothing (R325, R407). -/
def ppsOutPad (s : State) : Option Bool :=
  match padState .ppsOut (padCond s) with
  | .highZ => none
  | .low => some false
  | _ => some s.pwr.ppsOut

/-- THERM_ALERT_N is asserted (R378, R407). -/
def alertPad (s : State) : Bool := padState .thermAlert (padCond s) == .byRule && s.hlt.alert

/-- MOD_PRESENT_N is joined to GND and reads low, powered or not (R405). -/
def presentPad : Bool := false

/-! ### Management Ethernet: R408, R440 -/

/-- The management ports are up (R407, R408). -/
def ethUp (s : State) : Bool := s.pwr.state == 0 && fwRuns s

/-- The word of the ETHERNET record for a port: its MAC and its RS-FEC setting (R436). -/
def ethWord (p : PatternImage) (port : Nat) : Word := wordAt (recordData p 0x0003) port

/-- The MAC of a port: the image's, or that of the ROM defaults (R408, R440). -/
def ethMac (s : State) (port : Nat) : Nat :=
  match s.boot.store with
  | some p => fld (ethWord p port) 47 0
  | none => 0x020000000000 + (2 * s.boot.serial.toNat + port) % 2 ^ 40

/-- RS-FEC of a port: as the image sets it, on with the ROM defaults (R408, R440). -/
def ethFec (s : State) (port : Nat) : Bool :=
  match s.boot.store with
  | some p => bit (ethWord p port) 48
  | none => true

def ethMaxFrame : Nat := 9216

/-! ### I3C: R409 -/

def i3cStatic : Nat := 0x3A

/-- The target answers: powered and out of the AON reset. -/
def i3cAnswers (s : State) : Bool := pinsLive s

/-- A word of the window. CAP_UNITS and HEALTH_STATUS lie on the HIF rail and read 0 without it; the power manager, the
sensors and the pins are on the always-on rail (R409, R415, log entry 91). -/
def i3cRead (s : State) (off : Nat) : Word :=
  match off with
  | 0x00 => if hifUp s then readGlobal s 0x10 else 0
  | 0x08 => readPower s 0x100010
  | 0x10 => readPower s 0x100018
  | 0x18 => readPower s oPWR_FAULT
  | 0x20 => readHealth s 0x3800028
  | 0x28 => if hifUp s then readHealth s 0x3800000 else 0
  | 0x30 => readHealth s 0x3800018
  | _ => 0

/-! ### Flash, records and ROM defaults: R410, R434, R436, R439, R440 -/

def mebi : Nat := 2 ^ 20

/-- The regions of the flash: address and size; pattern copies A and B, firmware A and B, self-hosted driver A and B. -/
def flashRegions : List (Nat × Nat) :=
  [(0x00000000, 32 * mebi), (0x02000000, 32 * mebi), (0x04000000, 48 * mebi), (0x07000000, 48 * mebi),
    (0x0A000000, 48 * mebi), (0x0D000000, 48 * mebi)]

/-- Where a pattern region's journal begins, its bytes, and its slots. -/
def journalOffset : Nat := 0x01FF0000
def journalBytes : Nat := 65536
def journalSlots : Nat := journalBytes / 16

/-- IDENTITY: the variant's code, and the factory date in days since 2000-01-01 (R436). -/
def patVariant (p : PatternImage) : Nat := fld (wordAt (recordData p 0x0001) 0) 7 0
def patDate (p : PatternImage) : Nat := fld (wordAt (recordData p 0x0001) 0) 31 8

/-- The calibrated power of a laser in 0.01 dBm: the image's, +2.00 dBm with the ROM defaults (R436, R440). -/
def laserPower (s : State) (n ch : Nat) : Int :=
  match s.boot.store with
  | some p => sx 16 (leAt (recordData p 0x0010) (trimBase n + 2 * ch) 2)
  | none => 200

/-- The training seeds of a physical channel; none with the ROM defaults (R436, R440). -/
def trainingSeed (s : State) (k h : Nat) : Option (List Byte) :=
  s.boot.store.map fun p => sliceB (recordData p 0x0020) (8192 * (33 * k + h)) 8192

/-! ### Power and coolant: R412, R415 to R417, R423 -/

/-- A rail: nominal mV, load in W at 3,150 W, and what RETAIN makes of it (0 off, 1 on, 2 retention). -/
structure RailRow where
  name : String
  mv : Nat
  watts : Nat
  retain : Nat
deriving DecidableEq, Repr

/-- The rails of R415 in index order; the four quadrants are rails 4 to 7. -/
def railRows : List RailRow :=
  [⟨"VAON", railMv 0, 2, 1⟩, ⟨"VBUS", railMv 1, 3084, 1⟩, ⟨"VSRAM", railMv 2, 180, 2⟩, ⟨"VCORE_HIF", railMv 3, 28, 1⟩,
    ⟨"VCORE_Q0", railMv 4, 190, 0⟩, ⟨"VCORE_Q1", railMv 5, 190, 0⟩, ⟨"VCORE_Q2", railMv 6, 190, 0⟩,
    ⟨"VCORE_Q3", railMv 7, 190, 0⟩, ⟨"VDRAM", railMv 8, 600, 1⟩, ⟨"VDRAMQ", railMv 9, 200, 0⟩,
    ⟨"VOPT18", railMv 10, 530, 1⟩, ⟨"VOPT33", railMv 11, 700, 0⟩]

/-- VSRAM in retention, in mV. -/
def sramRetentionMv : Nat := 600

/-- The power budget of R416 in W: optics, switch core, die-to-die links, crucibles, stacks, cores, PCIe, conversion
loss; their sum is the thermal design power. -/
def powerBudget : List Nat := [1230, 615, 95, 150, 800, 80, 30, 150]
def thermalDesignWatts : Nat := 3150

/-- The least and most W of a power state (R417): ACTIVE, PARKED, RETAIN, STANDBY. -/
def stateWatts : List (Nat × Nat) := [(900, 3150), (420, 420), (140, 140), (18, 18)]

/-- The input of R412 in 10 mV: operating range, trips, absolute maximum, and where the always-on domain starts and
stops. -/
def vinRange : Nat × Nat := (4400, 5800)
def vinTrips : Nat × Nat := (4200, 6000)
def vinMaximum : Nat := 7200
def vinAlwaysOn : Nat × Nat := (4000, 3600)

/-- The coolant at the inlet (R423): °C least and most, K above the dew point, 0.1 L/min, kPa of drop, kPa, µm. -/
def coolantInlet : Nat × Nat := (15, 45)
def coolantDewMargin : Nat := 2
def coolantFlow : Nat := 40
def coolantDrop : Nat := 35
def coolantPressure : Nat := 500
def coolantFilter : Nat := 50

/-- K above the inlet at most, at 4.0 L/min: the hottest die, stack and engine. -/
def coolantRise : SensorSet → Nat
  | .die => 42 | .stack => 36 | .engine => 40

/-! ### Clocks and crossings: R426, R427 -/

/-- An event stream crosses a domain boundary as a Gray-coded count, whose neighbours differ in one bit (R427). -/
def grayCount (n : Nat) : Nat := n ^^^ (n / 2)

/-- What the far side adds at a sample of a count of w bits. -/
def crossed (w old new : Nat) : Nat := (new + 2 ^ w - old % 2 ^ w) % 2 ^ w

/-! ### The bounds of a start: R443, R444 -/

/-- The most time of each stage of a start in 10 ms: pattern, journal compaction, rails and PLLs, firmware, SRAM, memory
training, zeroing, verify. -/
def stageMost : List Nat := [540, 930, 3, 210, 10, 120, 590, 580]

/-- READY or FW_FAILED comes within 30 s of zero, and FW_STATE leaves BOOTING within 16.9 s; in ms. -/
def startMostMs : Nat := 30000
def bootingMostMs : Nat := 16900

/-! ### Latencies and shares: R115, R116, R293, R294, R379 -/

/-- The most ns from connector to connector of a frame that cuts through, by its two dies (R115, R116, R379). -/
def cutThroughNs (s : State) (dIn dOut : Nat) : Nat :=
  (if dIn = dOut then 450 else 620) + (if s.hlt.throttled.contains dIn || s.hlt.throttled.contains dOut then 50 else 0)

/-- Refresh takes 3.9 % of a channel's time, and 7.8 % of a hot stack's, in 0.1 % (R294). -/
def refreshShare (s : State) (k : Nat) : Nat := if (stk s k).hot then 78 else 39

/-- The shares of a channel's peak that R293 gives for planning, in %: sequential reads, sequential writes, a 1:1 mix,
random reads, the worst bank conflict. -/
def planningShares : List Nat := [94, 92, 85, 61, 38]

end Sys2Proof.Machine
end

