-- ==== Sys2Proof/WellFormed.lean ====
section
/-! DEFINITION. Which operands a command may carry: lane, link, engine, ring, page, stack, context,
sequencer, die and domain numbers of the part (R2, R38, R39, R334, R446), ordered-set bodies being of
fixed width by type. -/
namespace Sys2Proof

/-- 4,096 leaf lanes and 64 lateral lanes (R16, R38). -/
def laneOk (q : Nat) : Bool := decide (q < 4160)
/-- 2,048 leaf links and two lateral links (R16). -/
def linkOk (l : Nat) : Bool := decide (l < 2050)
/-- 34 optical engines (R38). -/
def engineOk (n : Nat) : Bool := decide (n < 34)
def dieOk (d : Nat) : Bool := decide (d < 4)
def stackOk (k : Nat) : Bool := decide (k < 20)
def chanOk (h : Nat) : Bool := decide (h < 33)
def ctxOk (c : Nat) : Bool := decide (c < 4096)
def seqOk (n : Nat) : Bool := decide (n < 64)
def domOk (k : Nat) : Bool := decide (k < 2)
/-- Clock domains 1 to 18 (R425). -/
def domNoOk (k : Nat) : Bool := decide (1 ≤ k) && decide (k ≤ 18)
def vfOk (n : Nat) : Bool := decide (n < 64)
def partNoOk (p : Nat) : Bool := decide (p < 65)

/-- Rings of each kind (R334). -/
def ringOk (k : RingKind) (r : Nat) : Bool :=
  match k with
  | .cmd | .cq => decide (r < 256)
  | .eq => decide (r < 16)
  | .tdma => decide (r < 64)
  | .pload => decide (r < 4)

def funcOk : Func → Bool
  | .vf n => vfOk n
  | _ => true

/-- Sensors are numbered within their set (R378): 4 dies, 20 stacks, 34 engines. -/
def sensorOk (set : SensorSet) (unit : Nat) : Bool :=
  match set with
  | .die => decide (unit < 4)
  | .stack => stackOk unit
  | .engine => engineOk unit

/-- A write of 1 to 8 bytes; what its width and alignment allow is the machine's to judge (R11, R337). -/
def accessOk (bytes : Nat) : Bool := decide (1 ≤ bytes) && decide (bytes ≤ 8)

def eccOk (e : EccError) : Bool := decide (e.cru < 64) && decide (e.slot < 512)

/-- The operands of a command are units the part has. -/
def Instr.wf : Instr → Bool
  | .registerWrite f off bytes _ => funcOk f && accessOk bytes && decide (off < 2 ^ 26)
  | .doorbellStray f page off bytes _ => funcOk f && decide (page < 256) && accessOk bytes && decide (off < 4096)
  | .blockReceive q ch a b c d => laneOk q && decide (ch < 3) && [a, b, c, d].all fun l => decide (l.length = 1360)
  | .collContribReceive q h p | .collCombineReceive q h p =>
    laneOk q && decide (h.length = 2 ∨ h.length = 4) && p.ecc.all eccOk
  | .frameReceive q h _ | .memPutReceive q h _
  | .memGetReceive q h _ | .memAtomicReceive q h _ => laneOk q && decide (h.length = 2 ∨ h.length = 4)
  | .linkBringupRetry l | .marginTestStart l | .marginPowerStep l | .marginWindowOpen l
  | .marginWindowClose l _ | .marginReportWaitExpiry l | .marginRetry l | .satHoldExpiry l
  | .satRearmExpiry l | .queuedFrameMove l | .deadHoldExpiry l => linkOk l
  | .linkEnable f l _ | .linkDisable f l _ | .linkFenceSet f l | .linkFenceClear f l => funcOk f && linkOk l
  | .tdmaWrite r | .tdmaRead r | .emInsert r | .emDelete r | .tdmaLock r | .tdmaUnlock r | .tdmaPurge r
  | .purgeComplete r => decide (r < 65)
  | .planLoad r | .planUnload r | .planArm r | .planDisarm r => ringOk .pload r
  | .recastOpen r | .recastClose r | .ctxSetup r | .ctxRead r | .ctxExclude r | .ctxInclude r | .ctxStats r | .ctxTeardown r | .sendFrame r
  | .telemetryBuf r | .memWrite r | .memRead r | .debugRead r _ | .nop r => ringOk .cmd r
  | .recastCloseTakesEffect p | .recastLimitExpiry p => partNoOk p
  | .laserEnSet f n _ | .laserEnClear f n _ => funcOk f && engineOk n
  | .oeBringupDone n | .oeBringupTimeout n _ | .oeBringupRetry n | .optSensorSample n _
  | .ditherLockLoss n _ _ | .lockReacquired n _ _ | .laserFadeSample n _ | .calPassStart n | .calSlotStart n
  | .calSweepDone n _ | .sprueThrough n _ | .sprueRelease n _ | .sprueReleaseDone n _ => engineOk n
  | .quickCheckWindowClose q _ | .spareLocked q | .swRequestReceive q _ | .spareDropLocked q
  | .swReadyReceive q _ | .duplicateIntervalEnd q | .swMarkReceive q _ _ | .swDoneReceive q _
  | .fadedLaserDark q | .swNakReceive q _ | .swapReadyTimeout q | .swapDoneTimeout q | .swapRetry q
  | .heartbeatSend q | .heartbeatReceive q _ | .heartbeatTimeout q
  | .positionSend q | .positionReceive q _ | .creditReceive q _ _ | .creditResyncReceive q _
  | .retryReceive q _ | .retryTimeout q | .marginReportReceive q _ | .linkctlQuiesceReceive q _
  | .linkctlResumeReceive q _ | .linkctlDisableReceive q _ | .lossOfLight q | .lightPresent q
  | .timeSyncReceive q _ | .timeDelayReqReceive q _ | .timeDelayRespReceive q _
  | .timeAnnounceReceive q _ | .blockTransmit q => laneOk q
  | .sprueSet c _ | .runStart c | .planUnloadDone c | .planDisarmDone c | .phaseDeadline c _
  | .waitBoundExpiry c _ | .ctxScrubDone c | .dynTimeoutExpiry c => ctxOk c
  | .frameAdmitRetry d | .spillPrefetch d _ | .runnerReplicate d | .frameLaunch d
  | .telemetryBufTimeout d => dieOk d
  | .sampleDataRead f d => funcOk f && dieOk d
  | .pourComparatorLoad n | .pourTime n | .phaseStart n | .memDataArrive n => seqOk n
  | .wordIssue n _ ecc => seqOk n && ecc.all eccOk
  | .slotScrubDone c i => decide (c < 64) && decide (i < 512)
  | .rotPassStart k | .rotCopyDone k | .rotSwitch k | .rotTrainDone k _ | .rotTestDone k _
  | .memHotClearExpiry k => stackOk k
  | .memTransfer k h _ _ _ _ => stackOk k && chanOk h
  | .pageRetirementDone k h => stackOk k && chanOk h
  | .timeSyncSend l k | .timeAnnounceSend l k | .timeAnnounceExpiry l k => linkOk l && domOk k
  | .timeExchangeTimeout k | .timeMasterLost k => domOk k
  | .timeDomainDisable f k _ => funcOk f && domOk k
  | .cmdTail f _ _ | .cqHead f _ _ | .cqArm f _ | .eqHead f _ _ | .eqArm f _ | .tdmaTail f _ _
  | .ploadTail f _ _ => funcOk f
  | .descriptorFetch k r _ | .hostBufferAccess k r _ | .ringDrained k r =>
    ringOk k r && k != .cq && k != .eq
  | .coalUsExpiry k r => ringOk k r && (k == .cq || k == .eq)
  | .ringEnable f k r _ | .ringDisable f k r _ => funcOk f && ringOk k r
  | .ringAssignWrite f r _ => funcOk f && ringOk .cmd r
  | .vfFlr n | .vfEnable n | .vfDisable n => vfOk n
  | .thermalSample set u _ | .thermalClearExpiry set u => sensorOk set u
  | .counterRead f _ | .fenceUnstableClear f | .wakeRearm f | .timeSwitch f | .timeReacq f _ _
  | .timeNowRead f | .blockLockSet f _ | .fabricPosWrite f _ | .tblCfgWrite f _ | .memRotReqWrite f _
  | .pwrReqActive f | .pwrReqParked f | .pwrReqRetain f | .pwrReqStandby f | .coldReset f _
  | .warmReset f _ => funcOk f
  | .railFault r _ => decide (r < 12)
  | .rebuildComplete l => decide (l < 640)
  | .crossingWaitExpiry a b => domNoOk a && domNoOk b
  | .patternCopyRead c _ _ => decide (c < 2)
  | .railUp r _ => decide (r < 12)
  | .pllLockLost k | .pllRelockTimeout k | .pllRelocked k => domNoOk k
  | .journalAppend _ _ | .gateMatch | .slagSweep | .mgmtEthReceive _ _ | .patrolPassStart
  | .regionScrubDone | .fabricMemDone | .ppsEdge | .ppsNoEdgeTimeout | .ppsOutRise | .ppsOutFall | .getInfo
  | .getMeasurement | .fwStage _ _ | .fwRecover _ | .svnCommit | .keyRevoke | .pfFlr | .pcieLinkDown
  | .fenceNAssert | .fenceNDeassert | .fenceNHoldExpiry | .wakeNAssert | .wakeNHoldExpiry | .perstNAssert
  | .perstNRelease | .pwrGoodAssert | .pwrGoodDeassert | .vinStable | .powerCapSample _ _ _ _
  | .cappingClearExpiry | .i3cRequestWake | .i3cRequestStandby | .parkDrainDone | .parkDrainLimit
  | .parkDisableDone | .lowPowerEntryDone | .wakeTimer | .wakeParkedDone | .wakeRetainDone
  | .vinTrip _ | .ilimTrip _ | .overcurrentTrip _ | .powerOn _ _ _ | .journalCompactionDone | .mainResetRelease
  | .firmwareAccepted _ _ | .sramZeroDone | .memTrainDone _ | .memZeroDone | .memVerifyDone _
  | .moduleReady | .alwaysOnDomainStop | .aonResetEnd _ _ _ _ | .pcieL1Exit
  | .wakeNDeassert => true

end Sys2Proof
end

