-- ==== Sys2Proof/Tests/Slice0.lean ====
section
/-! SUPPORT. The model's own tests: the smoke test of WellFormed, a few single steps with results taken from the spec,
and for each statement of Obligations.lean states that meet the hypotheses of its clauses. -/
/- Elaborated one after another, as in Laws/: side by side, the threads' stacks pass the memory limit of the check. -/
set_option Elab.async false
namespace Sys2Proof.Tests
open Sys2Proof Sys2Proof.Machine

theorem test_wf_lane_refused : (Instr.heartbeatSend 4160).wf = false := by decide
theorem test_wf_link_refused : (Instr.marginRetry 2050).wf = false := by decide
theorem test_wf_engine_refused : (Instr.oeBringupDone 34).wf = false := by decide
theorem test_wf_access_refused : (Instr.registerWrite .pf 2 9 0).wf = false := by decide
theorem test_wf_vf_refused : (Instr.cqArm (.vf 64) 0).wf = false := by decide
theorem test_wf_offset_refused : (Instr.registerWrite .pf (2 ^ 26) 8 0).wf = false := by decide
theorem test_wf_page_refused : (Instr.doorbellStray .pf 256 0 4 0).wf = false := by decide
theorem test_wf_header_refused : (Instr.frameReceive 5 [0] []).wf = false := by decide
theorem test_wf_rings_refused :
    (Instr.tdmaWrite 65).wf = false ∧ (Instr.planLoad 4).wf = false ∧ (Instr.recastOpen 256).wf = false ∧
      (Instr.ringDrained .eq 0).wf = false ∧ (Instr.coalUsExpiry .cmd 0).wf = false ∧
      (Instr.ringEnable .pf .eq 16 0).wf = false := by decide
theorem test_wf_units_refused :
    (Instr.recastLimitExpiry 65).wf = false ∧ (Instr.runStart 4096).wf = false ∧ (Instr.frameLaunch 4).wf = false ∧
      (Instr.phaseStart 64).wf = false ∧ (Instr.slotScrubDone 64 0).wf = false ∧ (Instr.slotScrubDone 0 512).wf = false ∧
      (Instr.rotSwitch 20).wf = false ∧ (Instr.pageRetirementDone 0 33).wf = false ∧
      (Instr.timeSyncSend 0 2).wf = false ∧ (Instr.rebuildComplete 640).wf = false ∧
      (Instr.pllLockLost 0).wf = false ∧ (Instr.pllLockLost 19).wf = false := by decide
theorem test_wf_sets_refused :
    (Instr.thermalClearExpiry .die 4).wf = false ∧ (Instr.thermalClearExpiry .stack 20).wf = false ∧
      (Instr.thermalClearExpiry .engine 34).wf = false ∧ (Instr.railUp 12 0).wf = false ∧
      (Instr.patternCopyRead 2 ⟨false, []⟩ []).wf = false := by decide
theorem test_wf_heartbeat : (Instr.heartbeatSend 4159).wf = true := by decide

/-! ### Small states -/

/-- A module that runs: powered, PWR_GOOD, READY, firmware running, as the PF finds it. -/
def up : State :=
  { pwr := { aonReset := false, pwrGood := true, railUpTo := 11 },
    boot := { zeroAt := some 0, modState := 1, stage := 8, fwState := .running, mainUp := true, sramZero := true,
              memZero := true, memVerified := true, regInitDone := true } }

def withPwr (f : Pwr → Pwr) : State := { up with pwr := f up.pwr }
def withBoot (f : Boot → Boot) : State := { up with boot := f up.boot }
def withHlt (f : Hlt → Hlt) : State := { up with hlt := f up.hlt }
def withHif (f : Hif → Hif) : State := { up with hif := f up.hif }
def withTim (f : Tim → Tim) : State := { up with tim := f up.tim }
def withMem (f : Mem → Mem) : State := { up with mem := f up.mem }
def withLane (q : Nat) (x : Lane) : State := setLane up q x
def withLink (l : Nat) (x : Link) : State := setLink up l x
/-- A start that has reached a stage. -/
def starting (n : Nat) : State :=
  withBoot fun b => { b with modState := 0, stage := n, fwState := if n ≤ 2 then .booting else .running }

/-! ### Witnesses: power, resets, start-up -/

theorem wit_PowerTripsAndPwrGood :
    (pinsLive up = true ∧ Sound up ∧ up.pwr.state ≠ 3) ∧
    (4200 ≤ 4200 ∧ 4200 ≤ 6000 ∧ 6000 < 6001 ∧ 4199 < 4200) ∧
    (pinsLive { State.reset with pwr := { aonReset := false } } = true ∧ State.reset.boot.zeroAt = none) ∧
    (∃ s : State, pinsLive s = true ∧ s.pwr.pwrGood = false ∧ s.boot.zeroAt.isSome = true ∧ s.pwr.state = 3 ∧
      s.pwr.vinOk = true ∧ s.pwr.exitCause = 3 ∧ s.hlt.tripLatch = true ∧ sensorsCool s = true) ∧
    (∃ s : State, pinsLive s = true ∧ s.pwr.vinOk = false ∧ s.pwr.tripAt = some 5) := by
  refine ⟨by unfold Sound; decide, by decide, by decide,
    ⟨{ up with pwr := { aonReset := false, state := 3 }, hlt := { tripLatch := true } }, by decide⟩,
    ⟨withPwr fun p => { p with vinOk := false, tripAt := some 5 }, by decide⟩⟩

theorem wit_PowerRequestTakenOrRefused :
    (mayWrite up .pf = true ∧ up.pwr.state < 1 ∧ planInState up [4] = false ∧ planInState up [3, 4] = false) ∧
    (planInState (setPlan up 3 { state := 4 }) [4] = true ∧ mayWrite (setPlan up 3 { state := 4 }) .pf = true) ∧
    (mayWrite (withPwr fun p => { p with state := 4 }) .pf = true ∧
      pinsLive (withPwr fun p => { p with state := 5 }) = true) := by decide

/-- A plan ARMED whose first phase has its pour time to come, with NT in force, and the module PARKED. -/
def parkedArmed : State :=
  { setPlan (withPwr fun p => { p with state := 1 }) 3 { state := 3, phases := [(0, 0, 0)], base := 9000000000 } with
    tim := { inForce := true } }

theorem wit_WakeSourcesAct :
    (mayWrite (withPwr fun p => { p with state := 1 }) .pf = true ∧
      wakeEnabled (withPwr fun p => { p with state := 1 }) 1 = true) ∧
    (pinsLive (withPwr fun p => { p with state := 2 }) = true ∧
      (withPwr fun p => { p with state := 2 }).hlt.wakeN = false ∧
      (withPwr fun p => { p with state := 2 }).hlt.wakeMasked = false ∧
      wakeEnabled (putR (withPwr fun p => { p with state := 2 }) oPWR_CFG 0xF) 4 = true) ∧
    (parkedArmed.pwr.state = 1 ∧ (nextPourTime parkedArmed).isSome = true) ∧
    (∃ s : State, pinsLive s = true ∧ s.hlt.perstN = true ∧ s.pwr.state = 3 ∧ wakeEnabled s 1 = true ∧
      wakeAllowed s = true) := by
  refine ⟨by decide, by decide, by decide,
    ⟨{ up with pwr := { up.pwr with state := 3 }, hlt := { perstN := true } }, by decide⟩⟩

theorem wit_LowPowerEntryAndWakeSteps :
    (draining (withPwr fun p => { p with state := 4, enterAt := some 7 }) = true ∧
      riserEmpty (withPwr fun p => { p with state := 4, enterAt := some 7 }) = true) ∧
    (∃ s : State, s.pwr.state = 4 ∧ s.pwr.parkPoint = none ∧ s.pwr.drainAt = some 9 ∧ s.pwr.wakePending = 0 ∧
      s.pwr.target = 1) ∧
    (∃ s : State, s.pwr.state = 4 ∧ s.pwr.parkPoint = some 9 ∧ s.pwr.wakePending = 0 ∧ s.pwr.target = 2) ∧
    (∃ s : State, s.pwr.state = 5 ∧ s.pwr.wakeAt = some 9 ∧ s.pwr.wakeFrom = 1 ∧ (lane s 5).state = 8 ∧
      linkEnabled s (linkOf 5) = true ∧ (lane s 5).los = false ∧ engineLit s (engineOfLane 5) = true) ∧
    (∃ s : State, s.pwr.state = 5 ∧ s.pwr.wakeAt = some 9 ∧ s.pwr.wakeFrom = 2 ∧ NothingWaits s ∧
      s.hlt.moduleFenced = ((s.hlt.fenceN || s.hlt.fenceUnstable) && moduleReadyNow s)) := by
  refine ⟨by decide, ⟨withPwr fun p => { p with state := 4, drainAt := some 9, target := 1 }, by decide⟩,
    ⟨withPwr fun p => { p with state := 4, parkPoint := some 9, target := 2 }, by decide⟩,
    ⟨{ setEngine (putR (putR (withLane 5 { state := 8, los := false }) (oLINK_CFG (linkOf 5)) 1) (oENGINE (engineOfLane 5)) 1)
        (engineOfLane 5) { state := 2 } with pwr := { state := 5, wakeAt := some 9, wakeFrom := 1 } }, by decide⟩,
    ⟨withPwr fun p => { p with state := 5, wakeAt := some 9, wakeFrom := 2 }, rfl, rfl, rfl,
      fun _ => ⟨rfl, rfl, rfl⟩, rfl⟩⟩

theorem wit_PowerCapThrottles :
    pinsLive up = true ∧ 10 * rf up oPWR_CFG 63 52 < 2 ^ 16 ∧ up.pwr.state ≠ 3 ∧ hasStacks up = true ∧
    (withPwr fun p => { p with capping := true, capBelowSince := some 4 }).pwr.capBelowSince = some 4 := by decide

theorem wit_PowerOnAndAonReset : State.reset.pwr.powered = true ∧ State.reset.pwr.aonReset = true := by decide

theorem wit_ResetsClearAndKeep :
    resetWanted up .pf (mkWord [at_ 56 0x5A, 1]) = 1 ∧ resetWanted up .pf (mkWord [at_ 56 0x5A, 2]) = 2 ∧
    resetWanted up .pf (mkWord [at_ 56 0x5A, 3]) = 0 ∧
    pllLost (withBoot fun b => { b with pllLost := [(3, some 1)] }) 3 = true ∧
    (pinsLive up = true ∧ up.hlt.perstN = false ∧ up.pwr.state ≠ 3 ∧ selfHosted up = false) := by decide

theorem wit_PllAndCrossingReported :
    hasPll 3 = true ∧ domainOn up 3 = true ∧ pllLost up 3 = false ∧ up.pwr.powered = true ∧
    domainOn up 1 = true ∧ domainOn up 18 = true ∧ domainOn up 16 = false ∧
    tget none (withBoot fun b => { b with pllLost := [(3, some 1)] }).boot.pllLost 3 = some 1 := by decide

/-- A pattern image for serial number 0 whose body holds the four required records, empty (R435, R436). -/
def smallPattern : PatternImage :=
  let b := leBytes 8 1 ++ leBytes 8 3 ++ leBytes 8 0x10 ++ leBytes 8 0x20
  { spiError := false,
    bytes := leBytes 4 0x50415454 ++ leBytes 4 1 ++ leBytes 8 32 ++ leBytes 48 0 ++ b ++ leBytes 4 (crc32c b) }

/-- R435, R437: the checks in their order. -/
theorem test_pattern_checks :
    patResult 0 smallPattern = 0 ∧ patResult 1 smallPattern = 5 ∧ patResult 0 { smallPattern with spiError := true } = 7 ∧
    patResult 0 { smallPattern with bytes := smallPattern.bytes.set 65 1 } = 4 ∧ patResult 0 ⟨false, []⟩ = 1 := by
  decide +kernel

theorem wit_PatternRailsAndStraps :
    (patResult (starting 0).boot.serial smallPattern = 0 ∧ patResult (starting 0).boot.serial ⟨false, []⟩ ≠ 0) ∧
    (inStage (starting 0) 0 = true ∧ (starting 0).boot.aRes = 15) ∧
    (∃ s : State, inStage s 0 = true ∧ s.boot.aRes ≠ 15) ∧
    (∃ s : State, inStage s 1 = true ∧ needsCompaction s.boot = true) ∧
    (∃ s : State, inStage s 1 = true ∧ needsCompaction s.boot = false ∧ s.pwr.railUpTo = 0 ∧
      railHolds 1 5820 = true ∧ railHolds 1 6180 = true ∧ railHolds 1 6181 = false) ∧
    (∃ s : State, inStage s 1 = true ∧ needsCompaction s.boot = false ∧ s.pwr.railUpTo = 11) := by
  refine ⟨by decide +kernel, by decide, ⟨{ starting 0 with boot := { (starting 0).boot with aRes := 3 } }, by decide⟩,
    ⟨{ starting 1 with boot := { (starting 1).boot with journalA := List.replicate 3841 { entry := 0, live := true } } }, ?_, ?_⟩,
    ⟨{ starting 1 with pwr := { up.pwr with railUpTo := 0 } }, by decide⟩,
    ⟨{ starting 1 with pwr := { up.pwr with railUpTo := 11 } }, by decide⟩⟩
  · decide
  · unfold needsCompaction; rw [Bool.or_eq_true]; left; show decide (3840 < (List.replicate 3841 _).length) = true
    rw [List.length_replicate]; rfl

/-- An image that every check of R361 accepts. -/
def goodImage : FwImage := {
  bytes := leBytes 4 0x5746494B ++ leBytes 2 1 ++ leBytes 2 1 ++ leBytes 4 1, keySlot := some 0, signed := true }

theorem wit_FirmwareAndStagesToReady :
    (fwKind goodImage ≠ 2 ∧ inStage (starting 2) 2 = true ∧ (starting 2).boot.fwState = .booting ∧
      (copyOrder (starting 2))[(starting 2).boot.firmwareTried]? = some 0 ∧
      imageVerdict (starting 2) 1 (flashImage (starting 2) 0 goodImage) = .accepted ∧
      imageVerdict (starting 2) 1 (flashImage (starting 2) 0 { goodImage with bytes := [] }) ≠ .accepted) ∧
    (inStage (starting 3) 3 = true ∧ fwRuns (starting 3) = true) ∧
    (inStage (starting 4) 4 = true ∧ inStage (starting 5) 5 = true ∧ inStage (starting 6) 6 = true) ∧
    (∃ s : State, readyNow s = true ∧ s.boot.regInitDone = true ∧ enginesDone s = true ∧
      s.boot.patDefaulted = true ∧ mayPass s 0 = true) := by
  refine ⟨by decide, by decide, by decide,
    ⟨putR { starting 7 with
        opt := { engines := (List.range 34).map fun n => (n, { state := 2 }) }
        boot := { (starting 7).boot with patDefaulted := true } } (oENGINE 0) 3, by decide⟩⟩

/-- R430: a PLL without lock for 10 ms is a warm reset of cause CLOCK_LOSS, 7. -/
theorem test_clock_loss :
    (pllRelockTimeout 3 (withBoot fun b => { b with pllLost := [(3, some 1)] })).boot.lastCause = 7 ∧
    (pllRelockTimeout 3 (withBoot fun b => { b with pllLost := [(3, some 1)] })).now = 1 + 10 * 120000 * 1000 := by
  decide +kernel

/-! ### Witnesses: fences, heat, counters, the mailbox -/

theorem wit_LinkFencesSetLiftedAndBudgeted :
    (mayWrite up .pf = true ∧ (link up 7).fenced = false) ∧
    (mayWrite (withLink 7 { fenced := true, source := 2 }) .pf = true ∧
      (link (withLink 7 { fenced := true, source := 2 }) 7).fenced = true) ∧
    (∃ s : State, rf s oFENCE_CFG 23 12 ≠ 0 ∧ linkUp s 7 = false ∧ (link s 7).deadSince = some 3 ∧
      bit (getR s oFENCE_CFG) 0 = true ∧ (link s 7).fenced = false ∧
      (recentFences (await s 3 (rf s oFENCE_CFG 23 12 * secT))).length < rf s oFENCE_CFG 63 56) := by
  refine ⟨by decide, by decide,
    ⟨setRf (setRf (withLink 7 { deadSince := some 3 }) oFENCE_CFG 23 12 60) oFENCE_CFG 0 0 1, by decide⟩⟩

theorem wit_FenceAndWakePins :
    (pinsLive up = true ∧ up.hlt.fenceN = false ∧ moduleReadyNow up = true ∧ up.pwr.state = 0) ∧
    (pinsLive (withHlt fun h => { h with fenceN := true, fenceAssertAt := some 1 }) = true ∧
      (withHlt fun h => { h with fenceN := true, fenceAssertAt := some 1 }).hlt.fenceHeld = false) ∧
    (mayWrite up .pf = true ∧ up.hlt.wakeN = false) ∧
    (withHlt fun h => { h with wakeN := true, wakeAt := some 1 }).hlt.wakeAt = some 1 := by decide

/-- Sixteen readings of a die, all alike. -/
def dieReads (t : BitVec 16) : List (BitVec 16) := List.replicate 16 t

theorem wit_ThermalSamplesJudged :
    (pinsLive up = true ∧ sampleTop up .die 0 (dieReads (105 * 16)) = some (105 * 16) ∧ tripAt .die ≤ 105 * 16 ∧
      up.pwr.state ≠ 3 ∧ unitThere up .die 0 = true ∧ unitThere up .stack 19 = true ∧ unitThere up .engine 33 = true) ∧
    (sampleTop up .die 0 (dieReads (105 * 16 - 1)) = some (105 * 16 - 1) ∧ (105 * 16 - 1 : Int) < tripAt .die) ∧
    (∃ s : State, (therm s .die 0).warn = true ∧ (therm s .die 0).limit = false ∧
      (therm s .die 0).warnLow = some 3) := by
  refine ⟨by decide, by decide,
    ⟨withHlt fun h => { h with therm := [(64 * setNo .die + 0, { warn := true, warnLow := some 3 })] }, by decide⟩⟩

/-- A sample buffer of die 0 with one record. -/
def oneRecord (pos : Nat) : State :=
  { up with cnt := { up.cnt with smp := [(0, { pos := pos, recs := [[1, 2, 3, 4]] })] } }

theorem wit_CounterAndSampleReads :
    mayReadMain up .pf = true ∧
    (readReaches (withPwr fun p => { p with state := 2 }) .pf = true ∧
      mainAlive (withPwr fun p => { p with state := 2 }) = false) ∧ (smp (oneRecord 2) 0).recs = [[1, 2, 3, 4]] ∧ (smp (oneRecord 2) 0).pos < 3 ∧
    (smp (oneRecord 3) 0).pos = 3 ∧ (smp up 0).recs = [] ∧ lastSlot .fw ≠ lastSlot .pf := by decide

/-- A mailbox request with a message number and an argument. -/
def asks (msg arg : Nat) (fw : FwState) : State :=
  putR (putR { up with hif := { mboxBusy := true }, boot := { up.boot with fwState := fw, keySlot := 2, fwSvn := 3 } }
    oMBOX_REQ (mkWord [at_ 56 msg])) (oMBOX_REQ + 8) (mkWord [arg])

/-- The same, with an image of 300 B named. -/
def asksLen (msg : Nat) (fw : FwState) : State := putR (asks msg 0 fw) (oMBOX_REQ + 16) (mkWord [300])

theorem wit_MailboxAnswers :
    mboxWaits (asks 1 0 .running) 1 = true ∧
    (mboxWaits (asks 2 3 .running) 2 = true ∧ fld (mboxReq (asks 2 3 .running) 1) 1 0 = 3 ∧
      fld (mboxReq (asks 2 2 .running) 1) 1 0 ≠ 3) ∧
    (mboxWaits (asksLen 3 .running) 3 = true ∧ fwRuns (asksLen 3 .running) = true ∧
      namedImage (asksLen 3 .running) (some goodImage) = some goodImage ∧ namedImage up none = none ∧
      namedVerdict (asksLen 3 .running) 1 goodImage = .accepted ∧ namedVerdict (asks 3 0 .running) 1 goodImage = .badImage ∧
      namedVerdict { asksLen 3 .running with boot := { (asksLen 3 .running).boot with minSvn := 2 } } 1 goodImage = .rollback) ∧
    (mboxWaits (asksLen 4 .failed) 4 = true ∧ (asksLen 4 .failed).boot.fwState = .failed ∧
      namedVerdict (asksLen 4 .failed) 1 goodImage = .accepted) ∧
    (mboxWaits (asks 5 0 .running) 5 = true ∧ mboxWaits (asks 6 2 .running) 6 = true ∧
      fld (mboxReq (asks 6 2 .running) 1) 1 0 = (asks 6 2 .running).boot.keySlot ∧
      fld (mboxReq (asks 6 1 .running) 1) 1 0 ≠ (asks 6 1 .running).boot.keySlot) := by decide

/-! ### Witnesses: rings, doorbells and commands -/

/-- A ring enabled for the PF: the register's ENABLE and SIZE 16, and the ring as it then stands. -/
def withRing (s : State) (k : RingKind) (i : Nat) (r : Ring) : State :=
  setRing (putR s (ringOff k i + 8) (setFld (setFld (getR s (ringOff k i + 8)) 8 8 1) 4 0 4)) k i r

/-- A descriptor waits in a ring, whose completion ring 0 has room. -/
def withDesc (s : State) (k : RingKind) (i : Nat) (d : List Word) : State :=
  withRing (withRing s .cq 0 { state := 1 }) k i { state := 1, head := 1, fetched := [d] }

/-- The same, with the host's answer for its buffer. -/
def withData (s : State) (k : RingKind) (i : Nat) (d : List Word) (b : List Byte) : State :=
  modRing (withDesc s k i d) k i fun r => { r with staged := some { failAt := none, data := b } }

theorem wit_DoorbellsActOnOwnedRings :
    (barUp up .pf = true ∧ bellRing (wake (withRing up .cmd 0 { state := 1 }) 1) .pf .cmd 0 = some 0 ∧
      ((16 : Nat) + 2 ^ 24 - (ring (wake (withRing up .cmd 0 { state := 1 }) 1) .cmd 0).head) % 2 ^ 24 ≤
        ringSize (wake (withRing up .cmd 0 { state := 1 }) 1) .cmd 0 ∧
      (ring (wake (withRing up .cmd 0 { state := 1 }) 1) .cmd 0).fault = 0) ∧
    (bellRing (wake up 1) .pf .cmd 0 = none ∧ bellRing (wake up 1) .pf .cq 0 = none) := by decide

theorem wit_HeadsAndArmsOfEntryRings :
    (bellRing (wake (withRing up .cq 0 { state := 1 }) 1) .pf .cq 0 = some 0 ∧
      bellRing (wake (withRing up .eq 0 { state := 1 }) 1) .pf .eq 0 = some 0) ∧
    (irqDue (modRing (wake (withRing up .cq 0 { state := 1, newAt := [0] }) 1) .cq 0 fun r =>
        { r with armed := true }) .cq 0 = true ∧
      irqDue (modRing (wake (withRing up .cq 0 { state := 1 }) 1) .cq 0 fun r => { r with armed := true }) .cq 0 =
        false) ∧
    ((ring (withRing up .cq 0 { armed := true, newAt := [5] }) .cq 0).armed = true ∧
      (ring (withRing up .cq 0 { armed := true, newAt := [5] }) .cq 0).newAt = 5 :: []) := by decide

/-- A NOP, and a MEM_WRITE of one line. -/
def nopD : List Word := [mkWord [at_ 56 0x60]]
def memD (op : Nat) : List Word := [mkWord [at_ 56 op, at_ 49 5], 0, 9, 0, 64]

/-- An exact-match entry in the first slot that its key may take. -/
def withEm (s : State) (e : EmEntry) : State :=
  { s with tbl := { s.tbl with em := tset {} s.tbl.em (nth 0 (emCands s e.e0 e.e1) 0) e } }

/-- Region key 9 of partition 5: 1 MiB from granule 0, every right, REGION 7. -/
def withRegion (s : State) : State :=
  withEm s { e0 := emKey0 1 5 0, e1 := 9, e2 := 4096, e3 := mkWord [at_ 56 15, at_ 40 7, at_ 15 1] }

theorem wit_DescriptorsAndBuffersFetched :
    (∃ s w, (ring s .cmd 0).state = 1 ∧ fetchCount s .cmd 0 ≠ 0 ∧
      reachable s .cmd 0 (ringBase s .cmd 0 + 64 * ((ring s .cmd 0).head % ringSize s .cmd 0))
        (64 * fetchCount s .cmd 0) = 64 * fetchCount s .cmd 0 ∧
      ((ring s .cmd 0).fetched ++ fetchedWords s.hif.fetchSeq w (fetchCount s .cmd 0)).head? = some nopD) ∧
    opKnown .cmd 0 (dOp nopD) = true ∧
    firstDesc (withDesc up .cmd 0 nopD) .cmd 0 = some nopD ∧
    (DescReady (withDesc (withRegion up) .cmd 0 (memD 0x40)) .cmd 0 (memD 0x40) 0x40 ∧
      (∃ v, mwCheck (withDesc (withRegion up) .cmd 0 (memD 0x40)) 0 true (memD 0x40) = .ok v) ∧
      reachable up .cmd 0 (d1Addr (memD 0x40)) (mwLen (memD 0x40)) ≠ 0) := by
  refine ⟨⟨withRing up .cmd 0 { state := 1, tail := 1, fetched := [nopD] }, [], by decide⟩, by decide, by decide,
    by unfold DescReady MayComplete CqReady; decide +kernel, ⟨(4096, mkWord [at_ 56 15, at_ 40 7, at_ 15 1]), by decide +kernel⟩,
    by decide⟩

theorem wit_RingsEnabledDisabledAssigned :
    (∃ s v, ringWriter s .pf .cmd 0 = true ∧ cfgRange s .cmd 0 (cfgNext s .cmd 0 (setFld v 8 8 1)) = true ∧
      cfgIgnored s .cmd 0 (cfgNext s .cmd 0 (setFld v 8 8 1)) = false ∧ bit (getR s (ringOff .cmd 0 + 8)) 8 = false ∧
      bit (cfgNext s .cmd 0 (setFld v 8 8 1)) 8 = true) ∧
    (∃ s v, ringWriter s .pf .cmd 0 = true ∧ cfgRange s .cmd 0 (cfgNext s .cmd 0 (setFld v 8 8 0)) = true ∧
      cfgIgnored s .cmd 0 (cfgNext s .cmd 0 (setFld v 8 8 0)) = false ∧ bit (getR s (ringOff .cmd 0 + 8)) 8 = true ∧
      bit (cfgNext s .cmd 0 (setFld v 8 8 0)) 8 = false) ∧
    (ringWriter up (.vf 1) .cmd 0 && cfgRange up .cmd 0 (cfgNext up .cmd 0 (setFld 4 8 8 1)) &&
      !cfgIgnored up .cmd 0 (cfgNext up .cmd 0 (setFld 4 8 8 1))) = false ∧
    (∃ s, ringLive s .cmd 0 = true ∧ bit (getR s (ringOff .cmd 0 + 8)) 8 = false ∧
      outstanding (ring s .cmd 0) = false) ∧
    (mayWrite up .pf = true ∧ ringLive up .cmd 1 = false ∧ ringLive up .cq 1 = false ∧ ringLive up .eq 1 = false ∧
      bit (0 : Word) 15 = false) := by
  refine ⟨⟨withRing up .cq 0 { state := 1 }, 4, by decide⟩, ⟨withRing up .cmd 0 { state := 1 }, 4, by decide⟩,
    by decide, ⟨setRing up .cmd 0 { state := 2 }, by decide⟩, by decide⟩

theorem wit_FunctionResetsDisableRings :
    (withHif fun h => { h with vfs := [3] }).hif.vfs.contains 3 = true ∧ up.hif.vfs.contains 3 = false ∧
    ringOwner (withHif fun h => { h with vfs := [3] }) .tdma 3 = .vf 3 ∧ ringOwner up .cmd 0 ≠ .core ∧
    ring (withRing up .cmd 0 { state := 1 }) .cmd 0 ≠ {} ∧
    (ringLive (withRing up .tdma 3 { state := 1 }) .tdma 3 = true ∧ ringLive up .tdma 3 = false) := by decide

/-- R356: a descriptor fetched before an FLR runs on as its VF's, and completes nothing. -/
theorem test_flr_runs_on :
    let t := vfFlr 3 (withRing (withHif fun h => { h with vfs := [3] }) .tdma 3 { state := 1, fetched := [[1]] })
    (ring t .tdma 3).state = 2 ∧ (ring t .tdma 3).mute = true ∧ descOwner t .tdma 3 = .vf 3 ∧
      (ring t .tdma 3).fetched = [[1]] := by decide

/-- A SEND_FRAME of a bare frame in TC 2 of partition 5 to an EID, with a launch time. -/
def sendD (dest launch : Nat) : List Word :=
  [mkWord [at_ 56 0x30, at_ 49 5], 0, 0, BitVec.ofNat 64 launch] ++
    bl3Hdr { dest := dest, src := 0, type := tDATA, tc := 2, ver := 3 }

theorem wit_NopSendFrameTelemetry :
    DescReady (withDesc up .cmd 0 nopD) .cmd 0 nopD 0x60 ∧
    (DescReady (withDesc up .cmd 0 (sendD 7 0)) .cmd 0 (sendD 7 0) 0x30 ∧
      sfCheck (withDesc up .cmd 0 (sendD 7 0)) 0 (sendD 7 0) = none ∧ (sfFrame (sendD 7 0)).length = 0) ∧
    selfEid (withDesc up .cmd 0 (sendD 7 0)) = none := by
  refine ⟨by unfold DescReady MayComplete CqReady; decide +kernel, ?_, by decide⟩
  unfold DescReady MayComplete CqReady; decide +kernel

theorem wit_MemoryCommandsMoveLines :
    (HostGave (withData (withRegion up) .cmd 0 (memD 0x40) (List.replicate 64 1)) .cmd 0 (d1Addr (memD 0x40))
        (mwLen (memD 0x40)) (List.replicate 64 1) ∧
      DescReady (withData (withRegion up) .cmd 0 (memD 0x40) (List.replicate 64 1)) .cmd 0 (memD 0x40) 0x40) ∧
    (mwCheck (withDesc up .cmd 0 (memD 0x40)) 0 true (memD 0x40) = .error stNO_REGION) ∧
    (DescReady (withDesc (withRegion up) .cmd 0 (memD 0x41)) .cmd 0 (memD 0x41) 0x41 ∧
      HostTakes (withDesc (withRegion up) .cmd 0 (memD 0x41)) .cmd 0 (d1Addr (memD 0x41)) (mwLen (memD 0x41)) ∧
      (readLines (withDesc (withRegion up) .cmd 0 (memD 0x41)) 0 1 0).2 = none) ∧
    (∃ d, DescReady (withDesc up .cmd 0 d) .cmd 0 d 0x50 ∧ resOk [cmdMask, ones, mask 63 56, ones, mask 31 0] d = true ∧
      mwLen d = 64 ∧ fld (nth 0 d 2) 63 56 = 2 ∧ mwOff d + mwLen d ≤ 2 ^ 27) ∧
    (∃ d, DescReady (withDesc up .cmd 0 d) .cmd 0 d 0x50 ∧ resOk [cmdMask, ones, mask 63 56, ones, mask 31 0] d = true ∧
      mwLen d = 64 ∧ fld (nth 0 d 2) 63 56 = 1 ∧ mwOff d + mwLen d ≤ 2 ^ 31) := by
  refine ⟨⟨⟨by unfold InReach; decide, ⟨{ failAt := none, data := List.replicate 64 1 }, by decide⟩⟩, ?_⟩, by decide,
    ⟨?_, ⟨by unfold InReach; decide, fun a h => nomatch (show none = some a from h)⟩, by decide⟩,
    ⟨[mkWord [at_ 56 0x50], 0, mkWord [at_ 56 2], 0, 64], ?_, by decide⟩,
    ⟨[mkWord [at_ 56 0x50], 0, mkWord [at_ 56 1], 0, 64], ?_, by decide⟩⟩ <;>
  · unfold DescReady MayComplete CqReady; decide +kernel

/-! ### Witnesses: registers, tables and table DMA -/

theorem wit_RegistersTakeWritesByAccessCode :
    mayWriteMain up .pf = true ∧ crosses up oPWR_CFG = true ∧
    (let s := withBoot fun b => { b with pllLost := [(3, some 1)] }
     crosses s oTIME_CFG = false ∧ crosses s oPWR_CFG = true ∧ blockDomain oTIME_CFG = some 3) ∧ mayReach up .pf = true ∧ mayReach up .core = false ∧
    ((4 : Nat) ≠ 8 ∧ (0x0FF8 : Nat) < 0x1000 ∧ (0x2040 : Nat) ≤ 0x2040) := by decide

/-- A PLANE beyond the fabric's planes, one that lies in it, and a FABRIC_POS under lock. -/
def posNew (v : Word) : Word :=
  BitVec.ofNat 64 (applyWrite (regInfo up.variant false oFABRIC_POS) false (getR up oFABRIC_POS).toNat v.toNat)

theorem wit_FabricPosAndTblCfgWritten :
    bit (getR (putR up oLOCK 1) oLOCK) 0 = true ∧
    (bit (posNew 0x10001) 16 = true ∧ fld (posNew 0x10001) 23 21 < fld (posNew 0x10001) 2 0 ∧
      bit (getR up oLOCK) 0 = false) ∧
    (link (withLink 3 { state := 2 }) 3).state = 2 ∧
    (posNew 0x210001 ≠ getR up oFABRIC_POS ∧ fld (posNew 0x210001) 2 0 ≤ fld (posNew 0x210001) 23 21 ∧
      up.lnk.links = []) := by decide

/-- A recast command for partition 5. -/
def recastD (op : Nat) : List Word := [mkWord [at_ 56 op, at_ 49 5]]
/-- The window of partition 5. -/
def withWindow (w : Window) : State := { up with tbl := { up.tbl with windows := tset {} up.tbl.windows 5 w } }

theorem wit_RecastWindowsOpenAndClose :
    firstCheck [cmdMask] [mkWord [at_ 56 0x10, at_ 49 65]] = some stBAD_RANGE ∧
    (DescReady (withDesc up .cmd 0 (recastD 0x10)) .cmd 0 (recastD 0x10) 0x10 ∧
      firstCheck [cmdMask] (recastD 0x10) = none ∧ foreignPart up .cmd 0 5 = false ∧ planActive up 5 = false ∧
      planActive (setPlan up 3 { state := 2, part := 5 }) 5 = true) ∧
    DescReady (withDesc up .cmd 0 (recastD 0x11)) .cmd 0 (recastD 0x11) 0x11 ∧
    ((window (withWindow { isOpen := true, closing := [(0, 7, 1)] }) 5).closing.find?
        (fun c => !earlierDma (withWindow { isOpen := true, closing := [(0, 7, 1)] }) 5 c.2.2) = some (0, 7, 1) ∧
      MayComplete (withRing (withRing (withWindow { isOpen := true, closing := [(0, 7, 1)] }) .cq 0 { state := 1 }) .cmd 0
        { state := 1 }) .cmd 0 7) ∧
    ((window (withWindow { isOpen := true }) 5).isOpen = true ∧ (window (withWindow { isOpen := true }) 5).long = false) := by
  unfold DescReady MayComplete CqReady; decide +kernel

/-- A table-DMA descriptor of partition 5 for one entry, inline. -/
def tdD (op table index : Nat) (rest : List Word) : List Word :=
  [mkWord [at_ 56 op, at_ 49 5, at_ 48 1], mkWord [at_ 56 table, index], 1, 0] ++ rest
/-- A valid route entry of partition 5. -/
def routeWord : Word := mkWord [at_ 63 1, at_ 54 5, at_ 43 1, at_ 32 160]
def openWin : State := withWindow { isOpen := true }

theorem wit_TableDmaWritesAndReads :
    tdmaRing 5 = (.tdma, 5) ∧
    (DescReady (withDesc up .tdma 5 (tdD 1 tbROUTE 9 [])) .tdma 5 (tdD 1 tbROUTE 9 []) 1 ∧
      tdCheck up 5 (tdD 1 tbROUTE 9 []) = some stWINDOW_CLOSED) ∧
    (DescReady (withDesc openWin .tdma 5 (tdD 1 tbROUTE 9 [routeWord, 0, 0, 0, 0])) .tdma 5
        (tdD 1 tbROUTE 9 [routeWord, 0, 0, 0, 0]) 1 ∧
      tdCheck openWin 5 (tdD 1 tbROUTE 9 [routeWord, 0, 0, 0, 0]) = none ∧ (window openWin 5).lock = false ∧
      rtValid routeWord = true ∧ rtPart routeWord = 5 ∧ routeOk routeWord = true) ∧
    (∃ d, DescReady (withDesc up .tdma 5 d) .tdma 5 d 2 ∧ tdCheck up 5 d = none) := by
  refine ⟨by decide, ?_, ?_, ⟨[mkWord [at_ 56 2, at_ 49 5], mkWord [at_ 56 tbROUTE, 9], 1, 0], ?_⟩⟩ <;>
    (unfold DescReady MayComplete CqReady; decide +kernel)

/-- An exact-match descriptor of partition 5 for the region of `withRegion`. -/
def emD (op : Nat) : List Word :=
  [mkWord [at_ 56 op, at_ 49 5, at_ 48 1], mkWord [at_ 56 tbEXACT], 1, 0, emKey0 1 5 0, 9, 4096,
    mkWord [at_ 56 15, at_ 40 7, at_ 15 1], 0]

theorem wit_ExactMatchInsertedAndDeleted :
    (tdCheck openWin 5 (emD 3) = none ∧ DescReady (withDesc openWin .tdma 5 (emD 3)) .tdma 5 (emD 3) 3 ∧
      fld (nth 0 (emD 3) 4) 55 49 = 5 ∧ fld (nth 0 (emD 3) 4) 63 56 = 1 ∧ emFormatOk (emInline (emD 3)) 5 = true ∧
      regionOk openWin (emVal (emInline (emD 3))) none = true ∧
      emFind openWin (nth 0 (emD 3) 4) (nth 0 (emD 3) 5) = none ∧
      ((emCands openWin (nth 0 (emD 3) 4) (nth 0 (emD 3) 5)).find? fun j => !emValid (emSlot openWin j)).isSome = true) ∧
    (tdCheck (withRegion openWin) 5 (emD 4) = none ∧
      DescReady (withDesc (withRegion openWin) .tdma 5 (emD 4)) .tdma 5 (emD 4) 4 ∧
      (emFind (withRegion openWin) (nth 0 (emD 4) 4) (nth 0 (emD 4) 5)).isSome = true ∧
      emFind openWin (nth 0 (emD 4) 4) (nth 0 (emD 4) 5) = none) := by
  unfold DescReady MayComplete CqReady; decide +kernel

/-- A purge of partition 5's routes that runs. -/
def purging5 : State :=
  { withRing (withRing up .cq 0 { state := 1 }) .tdma 5 { state := 1 } with
    tbl := { up.tbl with purges := [(5, { part := 5, table := tbROUTE, ring := 6, tag := 1 })] } }

theorem wit_LocksAndPurges :
    (tdCheck openWin 5 [mkWord [at_ 56 5, at_ 49 5]] = none ∧ tdCheck openWin 5 [mkWord [at_ 56 6, at_ 49 5]] = none ∧
      tdCheck openWin 5 [mkWord [at_ 56 7, at_ 49 5], mkWord [at_ 56 tbROUTE]] = none ∧
      DescReady (withDesc openWin .tdma 5 [mkWord [at_ 56 5, at_ 49 5]]) .tdma 5 [mkWord [at_ 56 5, at_ 49 5]] 5) ∧
    ((tget ({} : Purge) purging5.tbl.purges 5).ring ≠ 0 ∧ purgeBusy purging5 5 (purgeTables tbROUTE) = false ∧
      MayComplete purging5 .tdma 5 1 ∧ (ring purging5 .tdma 5).fetched = [] ∧ (window purging5 5).lock = false) := by
  unfold DescReady MayComplete CqReady; decide +kernel

/-- An IPv6 packet with a hop limit. -/
def pkt6 (hop : Byte) : List Byte := 0x60 :: List.replicate 6 0 ++ hop :: List.replicate 32 0

theorem wit_ManagementPacketsRouted :
    up.pwr.state = 0 ∧ fwRuns up = true ∧ leAt (pkt6 2) 0 1 / 16 = 6 ∧ 1 < leAt (pkt6 2) 7 1 ∧ leAt (pkt6 1) 7 1 ≤ 1 ∧
    bit (trieWord up (putBytes (pkt6 2) 7 [1])) 63 = false := by decide +kernel

/-! ### Witnesses: lanes and links -/

theorem wit_LightHeartbeatsAndLinkctl :
    (∃ s : State, s.pwr.state = 1 ∧ s.pwr.darkAtEntry.contains 5 = true ∧ wakeEnabled s 2 = true) ∧
    ((lane (withLane 5 { state := 4 }) 5).state = 4 ∧ txState (lane (withLane 5 { state := 4 }) 5) = some 4 ∨
      (txState (lane (withLane 5 { state := 4 }) 5)).isSome = true) ∧
    (laneHears (lane (withLane 5 { state := 4 }) 5) = true ∧
      (link (withLane 5 { state := 4 }) (linkOf 5)).partnerDisabled = false ∧ bf (mkBody [at_ 96 4]) 98 96 = 4 ∧
      bf (mkBody [at_ 96 3]) 98 96 ≠ 4) ∧
    linkctlLegal (withLane 5 { state := 4 }) 5 = true ∧ linkctlLegal up 5 = false := by
  refine ⟨⟨putR { up with pwr := { up.pwr with state := 1, darkAtEntry := [5] } } oPWR_CFG 0xF, by decide⟩, by decide,
    by decide, by decide, by decide⟩

/-- A lane in POSITION with a placed fabric of two planes. -/
def posLane : State := putR (withLane 5 { state := 2 }) oFABRIC_POS 0x210000

theorem wit_PositionsExchanged :
    ((lane posLane 5).state = 2 ∧ (link posLane (linkOf 5)).retryAt = none ∧ posValid posLane = true ∧
      isLateral (linkOf 5) = false ∧ posOf 5 (mkBody [at_ 102 3]) ≠ expectedPos posLane 5 ∧
      posOf 5 (mkBody [expectedPos posLane 5, at_ 100 3]) = expectedPos posLane 5 ∧
      bf (mkBody [expectedPos posLane 5, at_ 100 3]) 101 100 = (if linkBl2Cfg posLane (linkOf 5) then 2 else 3) ∧
      bf (mkBody [expectedPos posLane 5, at_ 100 2]) 101 100 ≠ (if linkBl2Cfg posLane (linkOf 5) then 2 else 3)) ∧
    posValid (withLane 5 { state := 2 }) = false ∧
    ((link (withLink 2 { retryAt := some 8 }) 2).retryAt = some 8 ∧ lanesIn (withLink 2 { retryAt := some 8 }) 2 3 = 0 ∧
      (link (withLink 2 { retryAt := some 8 }) 2).margin = none) := by
  decide

theorem wit_CreditsAndRetries :
    (lane (withLane 5 { state := 4, held := [{ seq := 9 }] }) 5).state = 4 ∧
    (linkUpState (link (withLink 2 { state := 3 }) (linkOf 5)).state = true ∧
      linkUpState (link up (linkOf 5)).state = false) ∧
    ((lane (withLane 5 { state := 4, held := [{ seq := 9 }] }) 5).held.any fun k => k.seq == bf (mkBody [at_ 92 9]) 103 92) =
      true ∧
    (bf (mkBody [at_ 92 0]) 103 92 = (lane (withLane 5 { state := 4 }) 5).nextSeq ∧
      bf (mkBody [at_ 92 1]) 103 92 ≠ (lane (withLane 5 { state := 4 }) 5).nextSeq) ∧
    ((lane (withLane 5 { state := 4, awaiting := true, attempt := 7 }) 5).attempt < 8 ∧
      8 ≤ (lane (withLane 5 { state := 4, awaiting := true, attempt := 8 }) 5).attempt) := by decide

theorem wit_LinksEnabledAndDisabled :
    mayWriteMain up .pf = true ∧ linkCfgIgnored up 2 1 = false ∧ (2 : Nat) < 2050 ∧ mayWriteMain up .core = false := by
  decide

/-- A link with a margin test in a phase, its lanes in MARGIN. -/
def testing (ph : Nat) : State :=
  setLane (setLane (withLink 2 { margin := some { phase := ph, round := 1, testing := [] } }) 4
    { state := 3, needFull := true }) 5 { state := 3, needFull := true }

/-- The same with a placed fabric, link 2 enabled. -/
def risen (s : State) : State := putR (putR s (oLINK_CFG 2) 1) oFABRIC_POS 0x210000

theorem wit_MarginTestsRun :
    (∃ s, (link s 2).margin = none ∧ (link s 2).retryAt = none ∧ marginReady s 2 = true) ∧
    (∃ s, (link s 2).margin = none ∧ (link s 2).retryAt = some 4 ∧
      marginReady (modLink s 2 fun k => { k with retryAt := none }) 2 = true) ∧
    ((link (testing 2) 2).margin = some { phase := 2, round := 1, testing := [] } ∧
      reportsIn (testing 2) 2 { phase := 3, round := 1, testing := [] } = true ∧ lanesIn (testing 2) 2 3 ≠ 0) ∧
    ((link (testing 5) 2).margin = some { phase := 5, round := 1, testing := [] } ∧
      linkMayRise (risen (testing 5)) 2 = true ∧ linkMayRise (testing 5) 2 = false ∧ (lane (testing 5) 5).needFull = true) ∧
    (∃ s a, (lane s 5).state = 3 ∧ (lane s 5).quickAt = some a ∧ (lane s 5).quickSpare = false ∧
      (lane s 5).quickOwn = none ∧ (lane s 5).quickPartner = some true ∧ linkMayRise s (linkOf 5) = true ∧
      linkUpState (link s (linkOf 5)).state = true ∧
      errorsOf (tget 0 (addCounts (lane s 5).quickErr [(chanCode (laneKey s .rx 5), 25500, 0)]) (chanCode (laneKey s .rx 5))) ≤ 25500 ∧
      bf (mkBody [at_ 94 1, at_ 97 (chanCode (laneKey s .tx 5))]) 98 97 = chanCode (laneKey s .tx 5)) ∧
    ((lane (testing 2) 5).state = 3 ∧ bf (mkBody [at_ 94 1]) 94 94 = 1 ∧ bf (mkBody [at_ 95 1]) 94 94 ≠ 1 ∧
      bf (mkBody [at_ 95 1]) 96 95 = 1 ∧ linkOf 5 = 2 ∧ (lane up 5).state ≠ 3 ∧
      bf (mkBody [at_ 94 1, at_ 97 3]) 98 97 ≠ chanCode (laneKey (testing 2) .tx 5)) := by
  refine ⟨⟨risen (setLink (testing 0) 2 {}), by decide⟩, ⟨risen (setLink (testing 0) 2 { retryAt := some 4 }), by decide⟩, by decide,
    by decide, ⟨risen (setLane (withLink 2 { state := 2 }) 5 { state := 3, quickAt := some 1, quickPartner := some true }), 1,
      by decide⟩, by decide⟩

/-- A lane of a lit engine. -/
def litLane (x : Lane) : State := setEngine (withLane 5 x) 0 { state := 2 }
/-- A header word of five data cells, without a sequence number and with 7; cells of zeros; and the levels of a block
of them, the check symbols of its first code word given. -/
def hdrNoseq : BitVec 40 := blockHdr 0 0 0 false true
def hdrSeq : BitVec 40 := blockHdr 7 0 0 false false
def zeroCells : List (List Byte) := List.replicate 5 (List.replicate 256 0)
def lineOf (h : BitVec 40) (checks : List Nat) : List Nat :=
  ((digits 10 4 h.toNat).map symLevels).flatten ++ List.replicate 2550 0 ++ (checks.map symLevels).flatten ++
    List.replicate 2720 0
def lineNoseq : List Nat := lineOf hdrNoseq [995, 902, 590, 169, 566, 600, 79, 580, 187, 486, 517, 839, 24, 446, 98, 411,
  107, 84, 169, 66, 935, 451, 101, 21, 565, 972, 45, 500, 795, 899]
def lineSeq : List Nat := lineOf hdrSeq [949, 724, 885, 836, 600, 234, 897, 26, 897, 785, 645, 693, 804, 374, 980, 804,
  299, 299, 541, 218, 464, 904, 82, 242, 475, 285, 725, 377, 924, 261]

theorem wit_block_noseq : goodBlock lineNoseq = some (hdrNoseq, zeroCells) := by decide +kernel
theorem wit_block_seq : goodBlock lineSeq = some (hdrSeq, zeroCells) := by decide +kernel
theorem wit_block_bad : goodBlock [] = none := by decide +kernel

theorem wit_BlocksSentAndTaken :
    (engineLit (litLane { state := 3 }) (engineOfLane 5) = true ∧ (lane (litLane { state := 3 }) 5).state = 3 ∧
      engineLit up (engineOfLane 5) = false ∧ (lane (litLane { state := 7 }) 5).state = 7 ∧
      (∃ s, (lane s 5).state = 5 ∧ sprueHas s .tx (workKey s 5) = true)) ∧
    ((lane (litLane { state := 4, held := [{ seq := 3 }], replay := some 3 }) 5).held.find? (fun x => x.seq == 3) =
      some { seq := 3 }) ∧
    ((lane (litLane { state := 4, buf := [{}] }) 5).replay = none ∧
      (lane (litLane { state := 4, buf := [{}] }) 5).held.length < 32 ∧
      (lane (litLane { state := 4, buf := [{}] }) 5).buf ≠ []) ∧
    (hNoseq hdrNoseq = true ∧ hNoseq hdrSeq = false ∧ hSeq hdrSeq = 7 ∧ (∀ i, i < 5 → hCtl hdrSeq i = false) ∧
      (∀ i, i < 5 → hCtl hdrNoseq i = false) ∧
      headersOk (link (litLane { state := 4, expect := 7, rxRemain := 5 }) (linkOf 5)).bl2 5 (dataCells hdrSeq zeroCells) =
        true ∧
      channelsLocked (setChan (setChan up .tx (workKey up 5) { state := 2, lane := 5 }) .rx (workKey up 5)
        { state := 2, lane := 5 }) 5 = true) := by
  refine ⟨⟨by decide, by decide, by decide, by decide,
    ⟨setSprue (withLane 5 { state := 5 }) 0 1 { ctx := 3, state := 3, txFibre := workKey up 5 / 34, colour := workKey up 5 % 34 },
      by decide +kernel⟩⟩, by decide +kernel, by decide +kernel, by decide +kernel⟩

/-- R78: the eighth good block in a row locks the lane, the fourth that is not good in a row loses the lock. -/
theorem test_block_lock :
    (lane (blockReceive 5 0 lineNoseq (litLane { state := 3, good := 7 })) 5).blockLock = true ∧
    (lane (blockReceive 5 0 [] (litLane { state := 3, bad := 3, blockLock := true })) 5).blockLock = false := by
  decide +kernel

/-- A frame for EID 9 from EID 8 in a class. -/
def frame0 (type tc : Nat) : Frame := { dest := 9, src := 8, type := type, tc := tc, ver := 3 }

theorem wit_FramesArrive :
    ((lane (withLane 5 { state := 4 }) 5).state = 4 ∧ hcrcOk false (bl3Hdr (frame0 tDATA 2)) = true ∧
      hcrcOk false [1, 0, 0, 0] = false) ∧
    (takeCells (setLink (withLane 5 { state := 4 }) 2 { creditSent := [(2, 100)] }) 5 (frame0 tDATA 2) 1).isSome = true ∧
    takeCells (withLane 5 { state := 4 }) 5 (frame0 tDATA 2) 1 = none ∧
    (fenced (withLink 2 { fenced := true }) 2 = true ∧ fenced up 2 = false ∧ typeOk 0x77 2 = false) := by decide +kernel

/-! ### Witnesses: optics -/

/-- Engine 0 in a state, its LASER_EN and calibration and swap enables set. -/
def eng (e : Engine) : State := setEngine (putR up (oENGINE 0) 0xF) 0 e

theorem wit_EnginesLightAndFault :
    (mayWriteIn up .pf 18 = true ∧ mayWriteIn up .core 18 = false ∧ bit (getR up (oENGINE 0)) 0 = false ∧
      interlock up = false ∧ bit (getR (eng {}) (oENGINE 0)) 0 = true) ∧
    ((engine (eng { state := 1, enAt := some 1 }) 0).state = 1 ∧
      (engine (eng { state := 1, enAt := some 1 }) 0).enAt = some 1) ∧
    ((engine (eng { state := 3, faultAt := some 1 }) 0).faultAt = some 1 ∧
      bit (getR (eng { state := 3, faultAt := some 1 }) (oENGINE 0)) 0 = true) ∧
    ((engine up 0).faulty.length = 4 ∧ (∀ i, i < 4 → sensorBad (List.replicate 4 0x7FFF) i = true) ∧
      sensorBad [16, 16, 16, 16] 0 = false ∧ (engine (eng { state := 2 }) 0).state = 2) ∧
    (∃ s, (chan s .tx 3).lostLock = false ∧ (chan s .tx 3).state ∉ [0, 8, 9] ∧ carries (chan s .tx 3) = true ∧
      (lane s (chan s .tx 3).lane).state = 4) ∧
    (∃ s, (chan s .tx 3).lostLock = false ∧ (chan s .tx 3).state ∉ [0, 8, 9] ∧ carries (chan s .tx 3) = false) ∧
    (∃ s, (chan s .tx 3).lostLock = true) := by
  refine ⟨by decide, by decide, by decide, by decide, ⟨setChan (withLane 5 { state := 4 }) .tx 3 { state := 2, lane := 5 }, by decide⟩,
    ⟨setChan up .tx 3 { state := 5 }, by decide⟩,
    ⟨setChan up .tx 3 { state := 2, lostLock := true }, by decide⟩⟩

/-- Lane 0 in service on its laser and drop, UP, with two tested spares on each side, its engine enabled. -/
def swapLane : State :=
  let s := setLane (eng { state := 2 }) 0 { state := 4 }
  let s := setChan s .tx (workKey s 0) { state := 2, lane := 0 }
  let s := setChan s .rx (workKey s 0) { state := 2, lane := 0 }
  (spareKeys (workKey s 0)).foldl (fun s k =>
    setChan (setChan s .tx k { state := 5, tested := true }) .rx k { state := 5, tested := true }) s

/-- The same with a swap of lane 0 in progress. -/
def swapIn (d : Dir) (w : Swap) : State := setSwap swapLane d 0 w

theorem wit_TransmitSwapsRun :
    (carries (chan swapLane .tx (workKey swapLane 0)) = true ∧ (chan swapLane .tx (workKey swapLane 0)).lane = 0 ∧
      workKey swapLane 0 = 256 * 0 + workKey swapLane 0 % 256 ∧
      rf swapLane oFADE_CFG 15 8 ≤ 255 ∧ (chan swapLane .tx (workKey swapLane 0)).crossed = false ∧
      bit (getR swapLane (oENGINE 0)) 2 = true ∧ laneKey swapLane .tx 0 = workKey swapLane 0 ∧
      fibreSwapping swapLane (workKey swapLane 0) = false ∧ swapOf swapLane .tx 0 = none ∧
      (usableSpare swapLane .tx 0).isSome = true ∧ (standInColour swapLane .tx 0).isSome = true) ∧
    ((lane up 0).state ≠ 4 ∧ (lane up 0).state ≠ 3 ∧ (lane swapLane 0).state ≠ 5 ∧ (lane (withLane 0 { state := 3 }) 0).state = 3) ∧
    (swapOf (swapIn .tx { phase := 2, colour := 33 }) .tx 0 = some { phase := 2, colour := 33 } ∧
      (lane (swapIn .tx { phase := 2, colour := 33 }) 0).state = 4 ∧ bf (mkBody [at_ 93 33]) 98 93 = 33 ∧
      swapOf (swapIn .tx { phase := 2 }) .rx 0 = none ∧ (swapIn .tx { phase := 5 }).opt.fadeQueue = []) ∧
    (({ phase := 4, marks := [7] } : Swap).marks.contains (bf (mkBody [at_ 83 7]) 98 83) = true) ∧
    ((usableSpare (swapIn .tx { phase := 6, reason := 0 }) .tx 0).isSome = true ∧
      (standInColour (swapIn .tx { phase := 6, reason := 0 }) .tx 0).isSome = true ∧
      fibreSwapping (swapIn .tx { phase := 6, reason := 0 }) (workKey swapLane 0) = false ∧
      laneUp (swapIn .tx { phase := 6, reason := 3 }) 0 = true ∧
      bit (getR (swapIn .tx { phase := 6, reason := 0 }) (oENGINE (laneKey swapLane .tx 0 / 256))) 2 = true) := by decide +kernel

/-- No spare drop of lane 0's fibre is free. -/
def noSpare : State :=
  (spareKeys (workKey swapLane 0)).foldl (fun s k => setChan s .rx k { state := 2, lane := 7 }) swapLane

theorem wit_ReceiveSwapsAndJournal :
    ((lane (withLane 0 { state := 5 }) 0).state = 5 ∧
      ((swapOf (swapIn .rx { phase := 1 }) .rx 0).isSome = true ∧ (lane (swapIn .rx { phase := 1 }) 0).state = 4) ∧
      ((lane noSpare 0).state = 4 ∧ swapOf noSpare .rx 0 = none ∧
        (spareKeys (workKey noSpare 0)).any (fun k => spareFree (chan noSpare .rx k)) = false) ∧
      ((lane (withLane 0 { state := 3 }) 0).state = 3 ∧ bf (mkBody [at_ 91 2]) 92 91 = 2 ∧ (lane up 0).state = 0)) ∧
    (swapOf swapLane .rx 0 = none ∧ 32 ≤ bf (mkBody [at_ 93 33]) 98 93 ∧
      (freeSpare swapLane .rx (workKey swapLane 0)).isSome = true) ∧
    (bf (mkBody [at_ 93 3]) 98 93 < 32 ∧
      (chan (setChan swapLane .rx (workKey swapLane 0) { state := 5 }) .rx (workKey swapLane 0)).state = 5) ∧
    (due (swapIn .rx { phase := 4, spare := 32 }) 0 (3 * msT) = false ∧
      due { swapIn .rx { phase := 4, spare := 32, oldMarks := [7] } with now := 3 * msT } 0 (3 * msT) = true ∧
      [7].contains (bf (mkBody [at_ 88 7]) 103 88) = true ∧ (32 : Nat) ≠ 0 ∧
      2048 ≤ ((lane swapLane 0).expect + 4096 - bf (mkBody [at_ 76 9]) 87 76) % 4096 ∧
      ¬ 2048 ≤ ((lane swapLane 0).expect + 4096 - bf (mkBody [at_ 76 0]) 87 76) % 4096 ∧
      ({ phase := 4, switchAt := some (9, 7) } : Swap).switchAt.isSome = true) ∧
    (∃ s : State, s.boot.journalHeld = [5] ∧
      ¬ (4096 < s.boot.journalB.length + 2 ∨ 4096 < s.boot.journalA.length + 2)) := by
  refine ⟨by decide +kernel, by decide +kernel, by decide +kernel, by decide +kernel,
    ⟨withBoot fun b => { b with journalHeld := [5] }, by decide⟩⟩

theorem wit_CalibrationRuns :
    ((engine (eng { state := 2, calPassAt := some 4 }) 0).state = 2 ∧
      bit (getR (eng { state := 2, calPassAt := some 4 }) (oENGINE 0)) 1 = true ∧
      (engine (eng { state := 2, calPassAt := some 4 }) 0).calRunning = false) ∧
    ((engine (eng { state := 2, calRunning := true, calChannel := 255 }) 0).calNext < engineChans 0 ∧
      (chan (setChan (eng { state := 2, calRunning := true, calChannel := 255 }) .tx 0 { state := 8 }) .tx 0).state = 8 ∧
      ¬ ((chan swapLane .tx 0).state = 7 ∨ (chan swapLane .tx 0).state = 8 ∨ (chan swapLane .tx 0).state = 9 ∨
        (chan swapLane .tx 0).lostLock = true) ∧
      laneUp swapLane (chan swapLane .tx (workKey swapLane 0)).lane = true ∧
      (swapOf swapLane .tx 0 = none ∧ fibreSwapping swapLane (workKey swapLane 0) = false ∧
        (usableSpare swapLane .tx 0).isSome = true ∧ (standInColour swapLane .tx 0).isSome = true) ∧
      (let s := (spareKeys (workKey swapLane 0)).foldl (fun s k => setChan s .tx k { state := 2, lane := 7 }) swapLane
       usableSpare s .tx 0 = none ∧ (chan s .tx (workKey s 0)).lane = 0)) ∧
    (∃ key, key % 64 < 51 ∧ key / 64 / 64 = chillKey (eng { calChannel := 3, calPhase := 2 }) .tx (256 * 0 + 3) 0 / 64 / 64) ∧
    ((engine (eng { calChannel := 3, calPhase := 2, calBorrow := some 32 }) 0).calBorrow = some 32 ∧
      (engine (eng { calChannel := 3, calPhase := 2 }) 0).calBorrow = none ∧
      (engine (eng { calChannel := 3, calPhase := 2 }) 0).calChannel ≠ 255) := by
  refine ⟨by decide, by decide +kernel,
    ⟨chillKey (eng { calChannel := 3, calPhase := 2 }) .tx (256 * 0 + 3) 0, by decide +kernel⟩, by decide⟩

/-- A SPRUE claim of engine 0, circuit 1, from fibre 2 to fibre 0, colour 4, that may persist. -/
def sprueC (persist : Nat) : Word × Word := (mkWord [at_ 56 5, at_ 46 1, at_ 44 2, at_ 37 4, at_ 36 persist], at_ 32 7 + 9)
def sprueState (persist : Nat) : State :=
  { setPlan (eng { state := 2 }) 3 { state := 4, running := true, claims := [sprueC persist] } with
    tim := { inForce := true } }

theorem wit_SpruesSetAndReleased :
    ((planOf (sprueState 0) 3).claims[0]? = some (sprueC 0) ∧ claimKind (sprueC 0) = 5 ∧
      (sprueClaim (sprueC 0) 3).1 = 0 ∧ (sprueClaim (sprueC 0) 3).2.1 = 1 ∧ (sprue (sprueState 0) 0 1).state = 0 ∧
      (planOf (sprueState 0) 3).sprueActed.contains 0 = false ∧ (planOf (sprueState 0) 3).running = true ∧
      bit (sprueC 1).1 36 = true) ∧
    (sprueValid (sprueState 0) 0 1 (sprueClaim (sprueC 0) 3).2.2 = true ∧
      sprueValid (sprueState 0) 0 16 (sprueClaim (sprueC 0) 3).2.2 = false) ∧
    ((sprue (setSprue (sprueState 0) 0 1 { ctx := 3, state := 2 }) 0 1).state = 2 ∧
      sprueHolder (setSprue (sprueState 0) 0 1 { ctx := 3, state := 2 }) 0 1 = some (sprueC 0) ∧
      (planOf (sprueState 0) 3).state = 4 ∧ bit (sprueC 0).1 36 = false ∧
      sprueHolder (setSprue up 0 1 { ctx := 3, state := 2 }) 0 1 = none) ∧
    (let e : Sprue := { state := 4, releaseAt := some 6 }
     (sprue (setSprue up 0 1 e) 0 1).releaseAt = some 6 ∧
      (let q := (sprueLanes up 0 e).1
       (lane (withLane q { state := 5, sprueFrom := 4, los := false }) q).state = 5 ∧
        linkEnabled (putR up (oLINK_CFG (linkOf q)) 1) (linkOf q) = true ∧
        linkEnabled (putR up (oLINK_CFG (linkOf q)) 0) (linkOf q) = false)) := by decide +kernel

/-! ### Witnesses: the switch core -/

/-- Link 2 with lane 5 UP. -/
def upLink : State := setLane up 5 { state := 4 }
/-- A frame that came in by link 0 and leaves by link 2, lane 5. -/
def qf (id : Nat) (p : Place) (tc : Nat) : QFrame :=
  { id := id, f := frame0 tDATA tc, inGroup := 0, inLink := 0, outLink := 2, outLane := 5, place := p }
def queued (s : State) (l : List QFrame) : State := { s with sw := { s.sw with queue := l } }

theorem wit_HeldFramesAdmitted :
    ((queued up [qf 1 .landing 1]).sw.queue = [] ++ qf 1 .landing 1 :: [] ∧ (queued up []).sw.mcq = [] ∧
      admission (queued up [qf 1 .landing 1]) (qf 1 .landing 1) = .to .pool) ∧
    admission (queued up [qf 1 .landing 4]) (qf 1 .landing 4) = .to .pool ∧
    (admission (queued up []) { qf 1 .landing 2 with f := { (frame0 tDATA 2) with length := 4096 }, outLink := 2 } =
        .to .pool ∨
      admission (queued up []) { qf 1 .landing 2 with f := { (frame0 tDATA 2) with length := 4096 }, outLink := 2 } = .drop) ∧
    (up.sw.queue.find? (fun q => q.die == 0 && q.place == .deep) = none) ∧
    ((queued up [qf 1 .deep 1]).sw.queue.find? (fun q => q.die == 0 && q.place == .deep) = some (qf 1 .deep 1) ∧
      (qf 1 .deep 1).rx = 0 ∧ deepBwLeft (queued up [qf 1 .deep 1]) (qCells (qf 1 .deep 1)) = true ∧
      qCells (qf 1 .deep 1) ≤ poolFree (queued up [qf 1 .deep 1]) 0) ∧
    (deepHeld (queued up []) 0 = false ∧ deepHeld (queued up [qf 1 .landing 5]) 0 = true) := by decide +kernel

theorem wit_GateAndRunnersMoveCells :
    (∃ s q, s.sw.queue = [q] ∧ s.sw.resv = [] ∧ s.sw.resvLate = [] ∧ s.sw.selfIn = [] ∧ NoneAged s ∧
      s.hlt.throttled = [] ∧ eligibleHead s q = true ∧ isRunner q = false ∧ 1 ≤ q.f.tc ∧ q.f.tc ≤ 7 ∧
      dieOfGroup q.inGroup = dieOfGroup (outGroup q) ∧ wireCount s q ≤ weightOf s q.f.tc) ∧
    (∃ s q, s.sw.queue = [q] ∧ s.sw.resv = [] ∧ s.sw.resvLate = [] ∧ s.sw.selfIn = [] ∧ NoneAged s ∧ isRunner q = false ∧
      (s.sw.beat + 1) % 4 = 0 ∧ s.hlt.throttled.contains (dieOfGroup q.inGroup) = true) ∧
    (up.sw.queue = [] ∧ up.sw.resv = [] ∧ up.sw.resvLate = [] ∧ up.sw.selfIn = [] ∧ NoneAged up) ∧
    (∃ s m, s.sw.mcq.filter (fun m => m.q.die == 0) = [m] ∧ s.sw.mcq = [m] ∧ NoneAged s ∧ m.members = [2] ∧ (2 : Nat) ≠ m.q.inLink ∧
      eligible s 2 = true ∧ copyFits s m.q 2 = true ∧
      (runnerUsed s 0 + qCells m.q) * 256 ≤ rf s oRISER_CFG 39 32 * poolCells s 0 ∧ qCells m.q ≤ poolFree s 0) := by
  refine ⟨⟨queued (setLink (setEngine upLink 0 { state := 2 }) 2 { limit := [(2, 100)] }) [qf 1 .pool 2], qf 1 .pool 2,
      by unfold NoneAged; decide +kernel⟩,
    ⟨(fun s : State => { s with sw := { s.sw with beat := 3 }, hlt := { s.hlt with throttled := [0, 1, 2, 3] } })
        (queued upLink [qf 1 .pool 2]), qf 1 .pool 2, by unfold NoneAged; decide +kernel⟩,
    by unfold NoneAged; decide +kernel,
    ⟨{ upLink with sw := { upLink.sw with mcq := [{ q := qf 1 .pool 2, members := [2] }] } },
      { q := qf 1 .pool 2, members := [2] }, by unfold NoneAged; decide +kernel⟩⟩

theorem wit_SlagSaturationAndMoves :
    (bit (getR (putR up oSW_CTRL 0) oSW_CTRL) 3 = false ∧ bit (getR (putR up oSW_CTRL 0xF) oSW_CTRL) 3 = true ∧
      (qf 1 .pool 2).sentCells = 0) ∧
    (∃ s : State, (link s 2).sat = false ∧ (link s 2).highSince = some 3 ∧
      4 * (rf s oCM_CFG 15 0 * 1024) < linkQ s 2) ∧
    (∃ s : State, (link s 2).sat = true ∧ (link s 2).lowSince = some 3 ∧ linkQ s 2 < rf s oCM_CFG 15 0 * 1024) ∧
    (laneUp up 5 = false ∧ eligible upLink 2 = true ∧ eligible up 2 = false) := by
  refine ⟨by decide, ⟨queued (putR (withLink 2 { highSince := some 3 }) oCM_CFG 0) [qf 1 .pool 2], by decide +kernel⟩,
    ⟨withLink 2 { sat := true, lowSince := some 3 }, by decide⟩, by decide⟩

/-! ### Witnesses: plans and contexts -/

/-- The record of a context of 4 members, TC 4: a SUM of one chunk of 8 elements. -/
def recordOf (part kind k1 : Nat) : List Word :=
  [mkWord [at_ 57 part, at_ 54 4, at_ 52 kind, at_ 28 4], mkWord [k1], 0, 0, mkWord [at_ 32 8], 8, 0, mkWord [at_ 51 1],
   0, 0, 0, 0, 0, 0, 0, 0]
def ctx5 (kind : Nat) : Ctx := { state := 1, record := recordOf 5 kind 0 }
def withCtx (s : State) (c : Nat) (x : Ctx) : State := { s with coll := { ctxs := tset {} s.coll.ctxs c x } }
def withPlan (s : State) (c : Nat) (p : Plan) : State :=
  { s with plan := { s.plan with plans := tset {} s.plan.plans c p } }
def withSeqr (s : State) (n : Nat) (q : Seqr) : State :=
  { s with plan := { s.plan with seqs := tset {} s.plan.seqs n q } }
def withWord (s : State) (n a : Nat) (w : BitVec 256) : State :=
  { s with plan := { s.plan with memory := tset 0 s.plan.memory (65536 * n + a) w } }

/-- A pour word that ends the run of phase 0 on its sequencer. -/
def lastWord : BitVec 256 := quadWord [0, 0, 0, mkWord [at_ 42 1, at_ 28 2]]
/-- The image of a plan of one claim, one phase and one word, for context 3 of partition 5. -/
def imageWords (crc : Nat) : List Word :=
  [mkWord [at_ 32 0x504F5552, at_ 16 1], mkWord [at_ 20 3, at_ 13 5], mkWord [at_ 48 1, at_ 32 1], mkWord [at_ 32 1],
   0, 0, 0, mkWord [crc], mkWord [at_ 56 1, at_ 17 1], 0, 0, 0, 0, 0, 0, 0, 0, mkWord [at_ 42 1, at_ 28 2]]
def planImage : List Byte := bytesOfWords (imageWords 1607750181)
/-- PLAN_ descriptors of context 3. -/
def planD (op : Nat) : List Word := [mkWord [at_ 56 op, at_ 44 3], 0, 144, 0x7FFFFFFF, 0, mkWord [at_ 32 1]]
def planD0 (op : Nat) : List Word := [mkWord [at_ 56 op, at_ 44 3]]
def loads : State := withCtx (withData up .pload 0 (planD0 1) planImage) 3 (ctx5 0)


theorem image_head : (bytesOfWords ((imageWords 0).take 9)).foldl crc32cByte 0xFFFFFFFF = 3567083240 := by decide +kernel
theorem image_tail : (bytesOfWords ((imageWords 0).drop 9)).foldl crc32cByte 3567083240 = 2687217114 := by decide +kernel
theorem image_crc : crc32c (bytesOfWords (imageWords 0)) = 1607750181 := by
  have h : bytesOfWords (imageWords 0) =
      bytesOfWords ((imageWords 0).take 9) ++ bytesOfWords ((imageWords 0).drop 9) := by decide +kernel
  rw [crc32c, h, List.foldl_append, image_head, image_tail]
  decide
theorem image_parsed : ∃ m, parseImage planImage = some m ∧ refusal loads 3 m = none ∧
    (refusal up 3 m).isSome = true := by
  have hw : wordsOf planImage (planImage.length / 8) = imageWords 1607750181 := by decide +kernel
  have h2 : bytesOfWords ((imageWords 1607750181).take 7 ++ [setFld (nth 0 (imageWords 1607750181) 7) 31 0 0] ++
    (imageWords 1607750181).drop 8) = bytesOfWords (imageWords 0) := by decide +kernel
  unfold parseImage
  dsimp only
  rw [hw]
  exact ⟨_, if_neg (by rw [h2, image_crc]; decide +kernel), by decide +kernel⟩

def armed (r : Bool) : Plan :=
  { state := if r then 4 else 3, running := r, ring := 0, part := 5, runSpan := 100, runs := 1,
    claims := [(mkWord [at_ 56 1, at_ 17 1], 0), (mkWord [at_ 56 2, at_ 17 1], 0)], phases := [(0, mkWord [at_ 32 5], 0)] }

theorem wit_PlansLoadedArmedUnloaded :
    (cruSlot { up with cru := { up.cru with slots := [(513, { use := 3, owner := 4, since := 7 })] } } 513).use = 3 ∧
    (cruSlot up 513).use ≠ 3 ∧
    (DescReady (withDesc up .pload 0 (planD 1)) .pload 0 (planD 1) 1 ∧ resOk pMasks (planD 1) = true ∧
      d1Addr (planD 1) % 64 = 0 ∧ pFirst (withDesc up .pload 0 (planD 1)) 0 (planD 1) = none ∧
      resOk pMasks [0, 0, 0, 0, 0, 0, 1] = false ∧ (planOf (withPlan up 3 (armed false)) 3).state ≠ 0) ∧
    (DescReady loads .pload 0 (planD0 1) 1 ∧ (planOf loads (pdCtx (planD0 1))).state = 0 ∧
      (window loads (ctxPart (ctxOf loads 3))).isOpen = false ∧ parseImage [] = none ∧
      (∃ m, parseImage planImage = some m ∧ refusal loads 3 m = none ∧ (refusal up 3 m).isSome = true)) ∧
    (DescReady (withDesc up .pload 0 (planD 3)) .pload 0 (planD 3) 3 ∧
      (pFirst up 0 (planD 3)).getD (armStatus up (planOf up 3) (planD 3)) ≠ stOK ∧
      (let s := { withPlan up 3 { armed false with state := 2 } with tim := { up.tim with inForce := true } }
       (pFirst s 0 (planD 3)).getD (armStatus s (planOf s 3) (planD 3)) = stOK)) ∧
    (DescReady (withDesc up .pload 0 (planD 4)) .pload 0 (planD 4) 4 ∧
      pFirst (withPlan up 3 (armed true)) 1 (planD 4) = some stWRONG_RING ∧
      pFirst (withPlan up 3 (armed true)) 0 (planD0 4) = none ∧ pFirst (withPlan up 3 (armed false)) 0 (planD0 4) = none) ∧
    (∃ s, (planOf s 3).disarming = some (0, 9) ∧ (planOf s 3).running = false ∧ MayComplete s .pload 0 9 ∧
      (ring s .pload 0).fetched = []) ∧
    DescReady (withDesc up .pload 0 (planD0 2)) .pload 0 (planD0 2) 2 ∧
    (∃ s, (planOf s 3).state = 6 ∧ (planOf s 3).unloading = some (0, 9) ∧
      (∀ g, g ∈ allSlots (planOf s 3) → (cruSlot s g).use ≠ 3) ∧ MayComplete s .pload 0 9 ∧
      (ring s .pload 0).fetched = []) := by
  refine ⟨by decide, by decide, ?_, ?_, ?_, ?_,
    ⟨withPlan (withRing (withRing up .cq 0 { state := 1 }) .pload 0 { state := 1 }) 3
      { armed false with disarming := some (0, 9) }, ?_⟩, ?_,
    ⟨withPlan (withRing (withRing up .cq 0 { state := 1 }) .pload 0 { state := 1 }) 3
      { armed false with state := 6, unloading := some (0, 9) }, ?_⟩⟩
  · unfold DescReady MayComplete CqReady; decide +kernel
  · refine ⟨by unfold DescReady MayComplete CqReady; decide +kernel, by decide +kernel, by decide +kernel,
      by decide +kernel, image_parsed⟩
  · unfold DescReady MayComplete CqReady; decide +kernel
  · unfold DescReady MayComplete CqReady; decide +kernel
  · unfold MayComplete CqReady; decide +kernel
  · unfold DescReady MayComplete CqReady; decide +kernel
  · unfold MayComplete CqReady; decide +kernel

/-- A plan of one phase on sequencer 0, of `late` LATE, that awaits a contribution of member 0 to window 0. -/
def awaiting (late : Nat) : Plan :=
  { armed true with phases := [(mkWord [at_ 15 late, at_ 17 1], mkWord [at_ 32 5], 0)],
                    windows := [(0, mkWord [at_ 24 1], 0, 0)] }
def timed (s : State) : State := { s with tim := { s.tim with inForce := true } }

theorem wit_RunsAndPhasesStart :
    ((planOf (timed (withPlan up 3 (armed false))) 3).state = 3 ∧ (planOf up 3).state ≠ 3 ∧
      nextTarget (timed (withPlan up 3 (armed true))) 0 = some (5, 3, 0) ∧
      (ctxOf up 3).dyn = false ∧ (ctxOf (withCtx up 3 { dyn := true }) 3).dyn = true ∧
      soleWin (withPlan up 3 (awaiting 0)) 3 0 = true) ∧
    (let s := withSeqr (timed (withPlan up 3 (armed true))) 0 { comparator := some 5, target := (3, 0) }
     (seqr s 0).comparator = some 5 ∧ (seqr s 0).target = (3, 0) ∧ (planOf s 3).running = true) ∧
    (let s := withPlan up 3 { armed true with poured := [0] }
     s.plan.seqs = [] ∧ (seqr s 0).busy = false ∧ readyPhases s 0 = [(3, 0, 5)] ∧ readyPhases up 0 = []) ∧
    (∀ l, l < 4 →
      (let s := timed (withPlan up 3 (awaiting l))
       phaseWaits s 3 0 = true ∧ (planOf s 3).missed.contains 0 = false ∧ inputsReady s (planOf s 3) 0 = false ∧
         phLate (phase (planOf s 3) 0) = l)) ∧
    (let s := timed (withPlan up 3 { awaiting 2 with waiting := [0], missed := [0] })
     phaseWaits s 3 0 = true ∧ (planOf s 3).waiting.contains 0 = true ∧ inputsReady s (planOf s 3) 0 = false) ∧
    phaseWaits up 3 0 = false := by decide +kernel

/-- Sequencer 0 runs phase 0 of context 3, whose next word is given. -/
def issuing (q : Seqr) (w : BitVec 256) : State :=
  withWord (withSeqr (withPlan up 3 (armed true)) 0 { q with busy := true, ctx := 3 }) 0 0 w
/-- A word with one unit enabled, its slot's fields given as bits of the word. -/
def unitWord (u : Nat) (fields : List Nat) : BitVec 256 := BitVec.ofNat 256 (fields.foldl (· + ·) (2 ^ (239 - u)))

theorem wit_WordsIssueAndDataArrive :
    (seqr up 0).busy = false ∧
    (let q := seqr (issuing { memWait := [{ ctx := 3, op := 1 }] } (unitWord 4 [])) 0
     q.busy = true ∧ q.endAt = none ∧ q.blocked = false ∧ waitsData q (unitWord 4 []) = true ∧
       waitsData q lastWord = false) ∧
    (let s := { issuing {} (unitWord 4 []) with tbl := { up.tbl with route := [(0, mkWord [at_ 63 1])] } }
     (selfEid s).isNone = true ∧ sendTaken s 0 3 (unitWord 4 []) = true) ∧
    (wordBreach (issuing { busyUntil := [0, 0, 0, 0, 0, 9] } lastWord) 0 3 0 0 lastWord false = some (1, 5) ∧
      wordBreach (issuing {} lastWord) 0 3 0 0 lastWord true = some (4, 0)) ∧
    (wordBreach (issuing {} lastWord) 0 3 0 0 lastWord false = none ∧ pwEn lastWord 4 = false ∧ pwEn lastWord 5 = true ∧
      sendTaken (issuing {} lastWord) 0 3 lastWord = true) ∧
    (∀ i, i < 4 →
      let w := nth 0 [unitWord 0 [at_ 188 1], unitWord 1 [at_ 172 1], unitWord 2 [], unitWord 3 [at_ 92 1]] i
      pwEn w 4 = false ∧ pwEn w 5 = false ∧ waitsData {} w = false ∧
        wordBreach (issuing {} w) 0 3 0 0 w false = none) ∧
    (let q := seqr (withSeqr up 0 { memWait := [{ ctx := 3, op := 1 }] }) 0
     q.memWait = { ctx := 3, op := 1 } :: [] ∧ q.busy = false ∧ (seqr up 0).memWait = []) ∧
    (∃ s v, claimPlace s (planOf s 3) 0 2 = some v) ∧ winGeo up 3 0 = none := by
  refine ⟨by decide, by decide +kernel, by decide +kernel, by decide +kernel, by decide +kernel, by decide +kernel, by decide,
    ⟨withPlan (withRegion up) 3 { armed true with claims := [(mkWord [at_ 56 3, 9], 0)] }, (0, 512), by decide +kernel⟩,
    by decide⟩

/-- EIDs 8 and 9 are routed to link 2, lane 5, as members of a partition; SELF_EID is one of them. -/
def fabricUp (s : State) (part self : Nat) : State :=
  let r := mkWord [at_ 63 1, at_ 54 part, at_ 45 1, at_ 32 2]
  setLane (setLink (putR { s with tbl := { s.tbl with route := [(8, r), (9, r)] } } oSELF_EID (mkWord [at_ 24 1, self])) 2
    { creditSent := [(2, 100), (4, 100)], limit := [(2, 100), (4, 100)] }) 5 { state := 4 }

def launching (s : State) : State :=
  let r := withRing (withRing (timed s) .cq 0 { state := 1 }) .cmd 0 { state := 1 }
  { r with plan := { r.plan with launch := [(0, [{ f := frame0 tDATA 2, part := 5 }])] } }

theorem wit_HeldFramesLaunched :
    earliest ((launchStore up 0).filter (launchDue up)) = none ∧
    (earliest ((launchStore (launching up) 0).filter (launchDue (launching up))) =
        some { f := frame0 tDATA 2, part := 5 } ∧ MayComplete (launching up) .cmd 0 0 ∧
      selfEid (awaitNt (launching up) 0) = none) ∧
    (let s := awaitNt (launching (fabricUp up 5 8)) 0
     selfEid s = some 8 ∧ destOk s 5 (frame0 tDATA 2) = true ∧ destOk s 6 (frame0 tDATA 2) = false) ∧
    (let s := awaitNt (launching (fabricUp up 5 8)) 0
     (originate s 0 { frame0 tDATA 2 with src := 8 }).2 = 0 ∧
       (originate (setLane s 5 {}) 0 { frame0 tDATA 2 with src := 8 }).2 ≠ 0) := by
  refine ⟨by decide, ?_, by decide +kernel, by decide +kernel⟩
  unfold MayComplete CqReady; decide +kernel

/-- A context command on context 3 in partition 5. -/
def ctxD (op : Nat) : List Word := [mkWord [at_ 56 op, at_ 49 5, at_ 36 3], 0, 0, 8]
def ctxD0 (op : Nat) : List Word := [mkWord [at_ 56 op, at_ 49 5, at_ 36 3]]
def withCtxD (op : Nat) (c : Ctx) : State := withCtx (withDesc up .cmd 0 (ctxD0 op)) 3 c

theorem wit_ContextCommandsAct :
    (let s := withCtx (withData up .cmd 0 (ctxD0 0x20) (bytesOfWords (recordOf 5 0 0))) 3 {}
     DescReady s .cmd 0 (ctxD0 0x20) 0x20 ∧
       ctxFirst s 0 (ctxMasks ones 0 0) (d1Addr (ctxD0 0x20) % 8 != 0) (ctxD0 0x20) = none ∧ ctxBusy s 3 = false ∧
       HostGave s .cmd 0 (d1Addr (ctxD0 0x20)) 128 (bytesOfWords (recordOf 5 0 0)) ∧
       wordsOf (bytesOfWords (recordOf 5 0 0)) 16 = recordOf 5 0 0 ∧ arithOk 0 0 = true ∧
       recordOk (recordOf 5 0 0) = true ∧ hasCrucibles s = true ∧ statsUsed s 3 + statsNeed (ctx5 0) ≤ 1048576) ∧
    (ctxFirst up 0 (ctxMasks ones 0 0) true (ctxD0 0x20) = some stBAD_RANGE ∧
      ctxBusy (withCtx up 3 { ctx5 0 with dyn := true }) 3 = true) ∧
    (∀ op, op < 6 → DescReady (withCtxD (0x20 + op) (ctx5 0)) .cmd 0 (ctxD0 (0x20 + op)) (0x20 + op) ∧
      ctxBoth (withCtxD (0x20 + op) (ctx5 0)) 0 (ctxMasks ones 0 0) false (ctxD0 (0x20 + op)) = none ∧
      ctxBoth (withCtxD (0x20 + op) {}) 0 (ctxMasks ones 0 0) false (ctxD0 (0x20 + op)) = some stNO_CONTEXT) ∧
    (HostTakes (withCtxD 0x21 (ctx5 0)) .cmd 0 0 152 ∧ HostTakes (withCtxD 0x24 (ctx5 0)) .cmd 0 0 (8 * 4)) ∧
    (ctxBoth (withCtx up 3 (ctx5 0)) 0 (ctxMasks ones (mask 19 0) (mask 19 0)) false
        [mkWord [at_ 56 0x24, at_ 49 5, at_ 36 3], 0, 0, 4] = none ∧ ctxMembers (ctx5 0) < 0 + 5 ∧
      0 + 4 ≤ ctxMembers (ctx5 0) ∧ ctxStatsEn (ctx5 0) = false ∧
      ctxStatsEn { record := [mkWord [at_ 51 1]] } = true) ∧
    (openChunks (ctx5 0) = [] ∧ ({ ctx5 0 with excluded := [0] } : Ctx).excluded.contains 0 = true ∧
      heldFor (withCtx up 3 (ctx5 0)) 3 = none ∧ (planOf up 3).state = 0 ∧
      (planOf (withPlan up 3 (armed false)) 3).state ≠ 0) ∧
    ((ctxOf (withCtx up 3 { state := 3 }) 3).state = 3 ∧ ctxScrubbing (withCtx up 3 { state := 3 }) 3 = false ∧
      (ctxOf up 3).state ≠ 3 ∧ MayComplete (launching (withCtx up 3 { state := 3, teardown := some (0, 9) })) .cmd 0 9) := by
  refine ⟨⟨?_, by decide +kernel, by decide +kernel,
      ⟨by unfold InReach; decide, ⟨{ failAt := none, data := bytesOfWords (recordOf 5 0 0) }, by decide +kernel⟩⟩,
      by decide +kernel, by decide +kernel, by decide +kernel, by decide +kernel, by decide +kernel⟩,
    by decide +kernel, ?_, ?_, by decide +kernel, by decide +kernel, ?_⟩
  · unfold DescReady MayComplete CqReady; decide +kernel
  · unfold DescReady MayComplete CqReady; decide +kernel
  · exact ⟨⟨by unfold InReach; exact .inl (by decide), fun a h => nomatch (show none = some a from h)⟩,
      ⟨by unfold InReach; exact .inl (by decide), fun a h => nomatch (show none = some a from h)⟩⟩
  · unfold MayComplete CqReady; decide +kernel

/-- A contribution of member 1, EID 8, to context 3, and the module that its frame reaches as EID 9. -/
def contribF (type tc len chunk : Nat) : Frame :=
  { dest := 9, src := 8, type := type, tc := tc, ver := 3, ctx := 3, length := len, chunk := chunk }
def bound (s : State) : State :=
  withEm (fabricUp s 0 9) { e0 := emKey0 2 0 0, e1 := mkWord [at_ 32 3, 8], e2 := 1, e3 := mkWord [at_ 15 1] }
def collecting (c : Ctx) : State := withCtx (bound up) 3 c
def ctx0 : Ctx := { state := 1, record := recordOf 0 0 0 }
/-- COMBINE of 1 token a chunk, rows of 8 elements. -/
def ctxCmb : Ctx := { ctx0 with record := (recordOf 0 0 0).set 1 (mkWord [at_ 56 8]) }
def collected : State :=
  withPlan (collecting ctx0) 3 { awaiting 0 with win := [(0, { st := 1 })], windows := [(0, mkWord [at_ 24 4], 0, mkWord [at_ 32 8])] }

/-- A frame as its header spells it. -/
def readF (type tc len chunk : Nat) : Frame := readFrame false (bl3Hdr (contribF type tc len chunk)) []

theorem wit_ContributionsReceived :
    ((readF tDATA 4 32 0).type ≠ tCONTRIB) ∧
    ReachesSpine (collecting ctx0) 5 tCONTRIB 0 (bl3Hdr (contribF tCONTRIB 4 32 0)) (readF tCONTRIB 4 32 0) ∧
    ReachesSpine (collecting ctxCmb) 5 tCOMBINE 0 (bl3Hdr (contribF tCOMBINE 4 32 0)) (readF tCOMBINE 4 32 0) ∧
    (ctxUp (ctxOf (bound up) 3) = false ∧ ctxUp (ctxOf (collecting ctx0) 3) = true ∧
      memberOf (collecting ctx0) 0 3 8 = some 1 ∧ (1 : Nat) < ctxMembers ctx0 ∧
      (ctxOf (collecting { ctx0 with excluded := [1] }) 3).excluded.contains 1 = true) ∧
    (isCombine ctxCmb = true ∧ isCombine ctx0 = false ∧ hasCrucibles (collecting ctx0) = true ∧
      (link (collecting ctx0) (linkOf 5)).bl2 = false ∧ (readF tCONTRIB 4 32 0).tc = ctxTc ctx0) ∧
    (dynPlace (collecting ctx0) 3 1 5 = .error (nkBAD_CHUNK, 0) ∧ dynPlace (collecting ctx0) 3 1 0 = .ok 0 ∧
      (readF tCONTRIB 4 32 0).dhash = ctx0.hash ∧ (readF tCONTRIB 4 32 0).dhash ≠ ({ ctx0 with hash := 7 } : Ctx).hash ∧
      checkForm (collecting ctx0) 3 1 0 false (readF tCONTRIB 4 32 0) = .ok none ∧
      chunkOpen (ctxChunk ctx0 0) = false) ∧
    (planned collected 3 = true ∧ planned (collecting ctx0) 3 = false ∧
      planPlace (withPlan collected 3 { armed false with state := 5 }) 3 1 0 = .error (nkPLAN_STOPPED, 0) ∧
      planPlace collected 3 1 0 = .ok 0 ∧ checkForm collected 3 1 0 true (readF tCONTRIB 4 32 0) = .ok none) ∧
    (let s := collecting { ctx0 with dyn := true }
     ctxUp (ctxOf s 3) = true ∧ (ctxOf s 3).dyn = true ∧ (ctxOf up 3).dyn = false) ∧
    (let s := { withCtx up 3 { ctx0 with chunks := [(0, { slots := [513] })] } with
       cru := { up.cru with slots := [(513, { use := 2, owner := 3 })] } }
     hasCrucibles s = true ∧ (cruSlot s (512 * 1 + 1)).use = 2 ∧ (cruSlot s (512 * 1 + 1)).owner = 3 ∧
       openChunks (ctxOf s 3) = [0] ∧ (ctxChunk (ctxOf s 3) 0).slots.contains (512 * 1 + 1) = true) := by
  refine ⟨by decide +kernel, ?_, ?_, by decide +kernel, by decide +kernel, by decide +kernel, by decide +kernel, by decide, by decide +kernel⟩ <;>
  · unfold ReachesSpine; decide +kernel

/-! ### Witnesses: stacked memory -/

/-- Stack 2 with a rotation in a phase, of channel 4 to the spare. -/
def rotated (r : Rot) : State := setRot up 2 r
def poisoned : State := withMem fun m => { m with lines := [(328, .poison)] }

theorem wit_ChannelsRotate :
    (let s := putR up oMEM_ROT_CFG (mkWord [at_ 32 2, 1])
     hasStacks s = true ∧ moduleReadyNow s = true ∧ stacksRun s = true ∧ bit (getR s oMEM_ROT_CFG) 0 = true ∧
       (rot s 2).phase = 0 ∧ (rot s 2).repairs = [] ∧ (rot s 2).requests = [] ∧ (stk s 2).spare < 33 ∧
       (memCh s 2 (stk s 2).spare).state ≠ 0 ∧ rotating s < rf s oMEM_ROT_CFG 36 32 ∧ (memCh s 2 0).state = 0) ∧
    bit (getR (putR up oMEM_ROT_CFG 0) oMEM_ROT_CFG) 0 = false ∧
    (mayWriteIn up .pf 9 = true ∧ bit (mkWord [at_ 63 1, at_ 8 2, 4]) 63 = true ∧
      fld (mkWord [at_ 63 1, at_ 8 2, 4]) 12 8 = 2 ∧ fld (mkWord [at_ 63 1, at_ 8 2, 4]) 5 0 = 4 ∧
      (memCh up 2 4).state = 0) ∧
    (rot (rotated { phase := 1, src := 4, dst := 32 }) 2).phase = 1 ∧
    (let s := rotated { phase := 2, src := 4, dst := 32 }
     let u := finishWrites 2 (rot s 2).dst (finishWrites 2 (rot s 2).src s)
     (rot u 2).phase = 2 ∧ (rot u 2).src < 33 ∧ (memCh u 2 (rot u 2).src).logical = 82 ∧
       (memCh s 2 4).wrq = [] ∧ (memCh s 2 32).wrq = [] ∧ (rot s 2).phase = 2 ∧ (rot s 2).src < 33 ∧ (rot s 2).dst < 33 ∧ (rot s 2).src ≠ (rot s 2).dst ∧
       (memCh s 2 (rot s 2).src).logical = 82) ∧
    (let s := rotated { phase := 3, src := 4, dst := 32 }
     (rot s 2).phase = 3 ∧ (rot s 2).phase ≠ 1 ∧ (rot s 2).phase ≠ 2 ∧ (rot s 2).phase ≠ 4 ∧ (rot s 2).src < 33) ∧
    (rot (rotated { phase := 4, src := 4, dst := 32 }) 2).phase = 4 ∧
    NothingWaits (rotated { phase := 3, src := 4, dst := 32 }) ∧
    NothingWaits (rotated { phase := 4, src := 4, dst := 32 }) := by
  refine ⟨by decide, by decide, by decide, by decide, by decide, by decide, by decide, ?_, ?_⟩ <;>
  · intro j
    by_cases h : j = 2
    · subst h; decide
    · simp [rotated, setRot, rot, tset, tget, up, Ne.symm h]

theorem wit_TransfersJudgedAndRepaired :
    (hasStacks up = true ∧ stacksRun up = true ∧ (memCh up 2 4).state = 0 ∧ (memCh up 2 4).rdq = [] ∧
      (memCh up 2 4).wrq = [] ∧ (memCh up 2 4).freeAt ≤ up.now ∧ (memCh up 2 4).logical = 82 ∧ lineAt up 328 ≠ .poison ∧
      lineAt poisoned 328 = .poison ∧ up.hlt.limited.contains 2 = false ∧ 4 * (640 * (0 / 4) + 82) + 0 % 4 = 328) ∧
    ¬ (((rot up 2).phase = 1 ∨ (rot up 2).phase = 2) ∧ (rot up 2).dst = 4) ∧
    (let s := { setMemCh up 2 4 { logical := 82, quarterAt := 7 } with hlt := { up.hlt with limited := [2] } }
     (memCh s 2 4).state = 0 ∧ (memCh s 2 4).freeAt ≤ s.now ∧ s.hlt.limited.contains 2 = true ∧ 3 ≤ userRank .fabric ∧
       s.now < (memCh s 2 4).quarterAt) ∧
    hasStacks { up with variant := .m } = false ∧
    ((memCh (setMemCh up 2 4 { logical := 82, retiring := some (6, 3) }) 2 4).retiring = some (6, 3) ∧
      (memCh up 2 4).retiring = none) ∧
    (bit (getR (putR up oMEM_CFG 1) oMEM_CFG) 0 = true ∧ moduleReadyNow up = true ∧
      patrolDone (putR up oMEM_CFG 1) = true ∧
      patrolDone { putR up oMEM_CFG 1 with mem := { up.mem with patrolAt := some 1 } } = false) ∧
    (lineVerdict (.data 0) [] = .good ∧ lineVerdict .poison [] = .poison ∧ lineVerdict (.data 0) [7] = .corrected 1 ∧
      lineVerdict (.data 0) [0, 5, 0, 0xFFFF] = .corrected 2 ∧ lineVerdict (.data 0) [1, 2, 3] = .bad) ∧
    (let s := withMem fun m => { m with stks := [(2, { hot := true, coolSince := some 9 })] }
     (stk s 2).hot = true ∧ (stk s 2).coolSince = some 9 ∧ (stk up 2).hot = false) ∧
    (let s := withMem fun m => { m with relief := [{ logical := 82, rows := 1 }] }
     ({ logical := 82, rows := 1 } : Relief) ∈ s.mem.relief ∧ deepUsed s ≤ deepSize s ∧ up.mem.relief = []) ∧
    (let s := withMem fun m => { m with scrubbing := [(5, 2)] }
     s.mem.scrubbing = (5, 2) :: [] ∧ s.mem.map = [] ∧ 5 + 2 ≤ reliefBase s ∧ up.mem.scrubbing = []) := by
  decide +kernel

/-- Fabric requests of EID 8, a member of partition 0, for the region of key 9, 1 MiB from granule 0. -/
def memF (type aux len : Nat) : Frame :=
  { dest := 9, src := 8, type := type, tc := (nth 0 (classesOf type) 0), ver := 3, length := len, dhash := 9, aux := aux }
def readM (type aux len : Nat) : Frame := readFrame false (bl3Hdr (memF type aux len)) []
def asked (e : Nat) : Frame := nth {} [readM tPUT 0 64, readM tGET 64 0, readM tATOMIC (2 ^ 24) 16] e
def credited : State := setLink (fabricUp up 0 9) 2 { creditSent := (List.range 8).map (fun i => (i, 100)) }
def served : State :=
  withEm credited { e0 := emKey0 1 0 0, e1 := 9, e2 := 4096, e3 := mkWord [at_ 56 15, at_ 40 7, at_ 15 1] }
def requested (l : List MemReq) : State := withMem fun m => { m with reqs := l }
def putReq : MemReq := { q := { f := { (memF tPUT 0 64) with payload := List.replicate 64 1 } } }

theorem wit_FabricMemoryServed :
    (ReachesSpine served 5 tPUT 0 (bl3Hdr (memF tPUT 0 64)) (readM tPUT 0 64) ∧
      ReachesSpine served 5 tGET 0 (bl3Hdr (memF tGET 64 0)) (readM tGET 64 0) ∧
      ReachesSpine served 5 tATOMIC 0 (bl3Hdr (memF tATOMIC (2 ^ 24) 16)) (readM tATOMIC (2 ^ 24) 16)) ∧
    (∀ e, e < 3 → (memCheck served { f := asked e, inBl2 := (link served 2).bl2 } 0).toOption.isSome = true ∧
      (memCheck credited { f := asked e, inBl2 := false } 0).toOption = none) ∧
    ((requested [putReq]).mem.reqs = [putReq] ∧ (requested [putReq]).mem.map = [] ∧ putReq.q.f.type = tPUT ∧
      up.mem.reqs = []) ∧
    ((readLines up 0 1 0).2 = none ∧ (readLines (withMem fun m => { m with lines := [(0, .poison)] }) 0 1 0).2 = some 0) ∧
    ((requested [putReq, putReq]).mem.reqs = [putReq, putReq] ∧ sameLine putReq putReq = true) := by
  refine ⟨⟨?_, ?_, ?_⟩, by decide +kernel, by decide +kernel, by decide +kernel, by decide +kernel⟩ <;>
  · unfold ReachesSpine; decide +kernel

/-! ### Witnesses: network time -/

def withDom (s : State) (k : Nat) (d : Dom) : State := { s with tim := { s.tim with doms := tset {} s.tim.doms k d } }
/-- Link 2 with lane 5 UP; domain 0 is enabled, and takes time by links 0 to 2047 where `slave`. -/
def timePort (slave : Bool) (d : Dom) : State :=
  withDom (putR upLink (oDOM_CFG 0) (if slave then 0x9 else 0x31)) 0 d
/-- An announce of link 2 has been taken. -/
def heard : Dom := { cands := [(2, { identity := 7 })], upstream := 2 }

/-- An exchange with link 2 awaits its answer. -/
def exchanging : State := timePort true { heard with exch := [(3, 0, 65536, 65536, 2, 0)] }

theorem wit_TimeExchanged :
    (mayReadMain up .pf = true ∧ pllLost up 3 = false ∧ readReaches up (.vf 3) = false ∧
      pllLost (withBoot fun b => { b with pllLost := [(3, some 1)] }) 3 = true ∧
      readReaches (withPwr fun p => { p with state := 2 }) .pf = true ∧
      mainAlive (withPwr fun p => { p with state := 2 }) = false) ∧
    (masterPort (timePort false { state := 2 }) 0 2 = true ∧ upLanes (timePort false { state := 2 }) 2 = 5 :: [] ∧
      sentDue (timePort false { state := 2 }) (tget 0 (timePort false { state := 2 }).tim.syncAt 4) 9 = true ∧
      sentDue (timePort false { state := 2 }) 1 9 = false ∧ masterPort up 0 2 = false) ∧
    (let s := setLane up 5 { state := 4, osOut := [(osTIME_SYNC, 0)] }
     (lane s 5).osOut = [(osTIME_SYNC, 0)]) ∧
    (linkOf 5 = 2 ∧ osDom (mkBody [at_ 96 3]) = 0 ∧ laneUp (timePort true heard) 5 = true ∧ laneUp up 5 = false ∧
      slavePort (timePort true heard) 0 2 = true ∧ slavePort up 0 2 = false) ∧
    ((dom (reselect (timePort true heard) 0) 0).cands.find? (fun e => e.1 == 2) = some (2, { identity := 7 }) ∧
      candOk (timePort true heard) 0 2 { identity := 7 } = true ∧
      (dom (reselect (timePort true heard) 0) 0).upstream = 2 ∧ (dom (reselect (timePort true heard) 0) 0).gm = 7) ∧
    ((dom exchanging 0).exch.find? (fun x => x.2.2.2.2.1 == 2) = some (3, 0, 65536, 65536, 2, 0) ∧
      (dom exchanging 0).exch = [(3, 0, 65536, 65536, 2, 0)] ∧
      (dom exchanging 0).exch.find? (isExch 2 (osSeq (mkBody [at_ 96 4]))) = none ∧
      (dom exchanging 0).exch.find? (isExch 2 (osSeq (mkBody [at_ 96 3, 131072]))) =
        some (3, 0, 65536, 65536, 2, 0)) ∧
    (osSeq (mkBody [at_ 96 3, 131072]) = 3 ∧ osSeq (mkBody [at_ 96 4]) ≠ 3 ∧ due exchanging 0 (msT + 1) = false ∧
       0 ≤ (exchangeOf 0 65536 65536 (tsDec (bf (mkBody [at_ 96 3, 131072]) 95 0)) 0).1 ∧
       (exchangeOf 0 65536 65536 (tsDec (bf (mkBody [at_ 96 3, 131072]) 95 0)) 0).1 ≤ 2 * 65535 * 65536 ∧
       (dom exchanging 0).cands.any (fun c => c.1 == 2) = true) ∧
    (dom up 0).exch = [] ∧ (dom up 0).cands.find? (fun e => e.1 == 2) = none := by
  refine ⟨by decide, by decide, by decide, by decide, by decide, ⟨rfl, rfl, rfl, rfl⟩, by decide, by decide⟩

def pps (s : State) (v : Nat) : State := putR (putR s (oDOM_CFG 0) 3) oPPS_CFG v

theorem wit_TimeSwitchedAndPulsed :
    (let s := timed (withDom up 1 { state := 2 })
     mayWriteIn s .pf 3 = true ∧ s.tim.inForce = true ∧ (dom s (1 - s.tim.sel)).state = 2 ∧ up.tim.inForce = false) ∧
    (¬ (fld (3 : Word) 2 1 = 1 ∧ domPps up 1 = true) ∧
      (fld (3 : Word) 2 1 = 1 ∧ domPps (putR up (oDOM_CFG 1) 3) 1 = true) ∧ domEn (putR up (oDOM_CFG 0) 1) 0 = true) ∧
    (domPps (timePort true { state := 2 }) 0 = false ∧ (dom (timePort true { state := 2 }) 0).state = 2 ∧
      (dom (timePort true { state := 2 }) 1).state ≠ 2 ∧
      (let s := timed (withDom (timePort true { state := 1 }) 1 { state := 2 })
       (dom s 1).state = 2 ∧ s.tim.inForce = true ∧ s.tim.sel = 0)) ∧
    (ppsDom up = none ∧ ppsDom (pps up 0) = some 0 ∧ bit (getR (pps up 0) oPPS_CFG) 40 = false ∧
      ppsTaken (withPwr fun p => { p with state := 1 }) = false) ∧
    (bit (getR (pps up (2 ^ 40)) oPPS_CFG) 40 = true ∧ ppsTaken (pps up (2 ^ 40)) = true ∧ (dom (pps up (2 ^ 40)) 0).state = 0 ∧
      bit (getR (pps up (2 ^ 40)) oPPS_TOD) 63 = false ∧
      bit (getR (putR (pps up (2 ^ 40)) oPPS_TOD (mkWord [at_ 63 1, 100])) oPPS_TOD) 63 = true) ∧
    (let s := pps (withDom up 0 { state := 2, lastEdge := some 4 }) (2 ^ 40)
     (dom s 0).state = 2 ∧ (dom s 0).lastEdge = some 4 ∧
       (ppsError s (domValue s 0 - 1000 * (2 ^ 48 + (dom s 0).rate))).natAbs ≤ 50000 * 2 ^ 48) ∧
    (let s := pps (withDom up 0 { state := 2, base := 400000000 * 2 ^ 48 }) (2 ^ 40)
     (dom s 0).state ≠ 0 ∧
       50000 * 2 ^ 48 < (ppsError s (domValue s 0 - 1000 * (2 ^ 48 + (dom s 0).rate))).natAbs) ∧
    (bit (getR (pps (timed up) (2 ^ 41)) oPPS_CFG) 41 = true ∧ (timed up).pwr.ppsOut = false) ∧
    (let s := { withPwr (fun p => { p with ppsOut := true }) with tim := { up.tim with ppsHigh := some 4 } }
     s.pwr.ppsOut = true ∧ s.tim.ppsHigh = some 4) := by
  refine ⟨by decide, by decide, by decide, by decide, by decide, by decide, by decide, by decide, by decide⟩

/-! ### Witnesses: every command, the invariant and the idle step -/

theorem wit_SoundKeptByEveryStep : Sound up ∧ ∃ t, step up = .next t := by
  refine ⟨?_, ⟨_, rfl⟩⟩
  unfold Sound; decide

theorem wit_IdleStepLetsTimePass : up.pending = [] ∧ (∀ n, (seqr up n).endAt = none) ∧
    ∀ k h, (memCh up k h).rdq = [] ∧ (memCh up k h).wrq = [] :=
  ⟨rfl, fun _ => rfl, fun _ h => by unfold memCh; simp only [tget, up]; split <;> [split; skip] <;> exact ⟨rfl, rfl⟩⟩

/-! ### Single steps and values of the spec's worked examples -/

/-- Chapter 01: leaf link 1,000 of spine 45 of plane 3 runs on C27, its lane A on OE15 fibre 2, channel 34 × 2 + 27 of
chapter 02; and chapter 13: TX_CELLS of that link is counter 36,099. -/
theorem test_link_1000 :
    engineOfLane 2000 = 15 ∧ linkOf 2001 = 1000 ∧ cLink 1000 3 = 36099 := by decide

/-- Chapter 03: the header words of the COLL_CONTRIB example. -/
theorem test_header_words :
    ((bl3Hdr { dest := 0x40, src := 0x12345, type := tCONTRIB, tc := 4, seq := 0x0102, ctx := 0x123, ver := 3,
               length := 0x1000, entropy := 0xBEEF, chunk := 7, dhash := 0x5A3C91E7 }).take 3) =
      [0x0000400123451080, 0x01021237000BEEF0, 0x000000075A3C91E7] := by decide +kernel

/-- Chapter 06: 256 + 1 + 1 − 256 of BF16 values, in the format itself, in FP32 and exactly. -/
def sumOf4 (k1 : Word) (exact : Bool) : Nat :=
  encF 1 (roundTo 1 false none (accVal k1 (([0x4380, 0x3F80, 0x3F80, 0xC380].foldl
    (fun a v => (accAdd k1 exact a (decF 1 v)).1) .none))).1).1
theorem test_sum_of_four :
    sumOf4 (mkWord [at_ 51 1, at_ 46 1]) false = 0x4000 ∧ sumOf4 (mkWord [at_ 51 1, at_ 46 1]) true = 0x4000 ∧
      sumOf4 (mkWord [at_ 51 1, at_ 46 1, at_ 44 1]) false = 0 := by decide +kernel

/-- Chapter 06: one AdamW step of a weight 2.0 with gradient 0.5 gives 0x3FFFDE94. -/
theorem test_adamw_step :
    (updateElem 18 (advanceBlock [0, mkWord [at_ 32 0x3A83126F, 0x3F800000], mkWord [at_ 32 0x3F666666, 0x3F7FBE77],
        mkWord [at_ 32 0x322BCC77, 0x3C23D70A], mkWord [at_ 32 0x3F800000, 0x3F800000]]) 0x40000000 0 0
      (.fin false 1 (-1)) 0).1.1 = 0x3FFFDE94 := by decide +kernel

/-- Chapter 09: module granule 17,777,219 lies at n = 27,776 of logical channel 579, on channel 28 of S19, in bank 1 of
bank group 2 of layer 1. -/
theorem test_granule_place :
    17777219 / 640 = 27776 ∧ mapOf up (17777219 % 640) = { stack := 19, ch := 28 } ∧
      bankOf (27776 / 8) = 32 * 1 + 8 * 2 + 1 := by decide

/-- R296: a poisoned line shows the marker, a line of data does not, and two wrong symbols are corrected. -/
theorem test_line_code :
    isMarker (lineSyms36 .poison) = true ∧ isMarker (lineSyms36 (.data 5)) = false ∧
    (rsDecode rsLine (xorSyms 36 (lineCode 5) [0, 9, 0, 0, 1])).map (·.symbols) = some 2 := by decide +kernel

/-- Chapter 11: RECAST_OPEN of partition 20, which holds a plan, completes with PARTITION_ACTIVE, 0x06. -/
theorem test_recast_refused :
    let s := withPlan (withCtx (withRing (withRing up .cq 37 { state := 1 }) .cmd 37
      { state := 1, head := 1, fetched := [[0x1028000000000001]] }) 3 { ctx5 0 with record := recordOf 20 0 0 }) 3
      { armed false with part := 20 }
    (recastOpen 37 s).out.any (fun o => match o with
      | .dma _ _ b => leAt b 0 8 == 0x0000000106025000
      | _ => false) = true := by decide +kernel

/-- R405, R416, R443: the lands are the 2,116 that chapter 14 counts, the budget sums to 3,150 W, and the stages of a start
fit its 30 s. -/
theorem test_module_sums :
    (lands.map (·.count)).foldl (· + ·) 0 = 2116 ∧ powerBudget.foldl (· + ·) 0 = thermalDesignWatts ∧
      10 * stageMost.foldl (· + ·) 0 ≤ startMostMs := by decide

/-- R407: in PARKED the lasers are at standby bias and the management ports float; RETAIN holds PPS_OUT low. -/
theorem test_pads :
    padState .optical (padCond (withPwr fun p => { p with state := 1 })) = .standbyBias ∧
      padState .ethernet (padCond (withPwr fun p => { p with state := 1 })) = .highZ ∧
      ppsOutPad (withPwr fun p => { p with state := 2, ppsOut := true }) = some false := by decide

/-- R379: of four cell times of a throttled die one begins no matching, and a reservation that falls in it comes next. -/
theorem test_throttled_beat :
    let s := { up with sw := { up.sw with beat := 3, resvLate := [{ ctx := 1, slot := 0, inGroup := 0, outGroup := 1 }] },
                       hlt := { up.hlt with throttled := [0] } }
    (gateMatch s).sw.resvLate.length = 1 ∧ (gateMatch (gateMatch s)).sw.resvLate = [] := by decide +kernel
end Sys2Proof.Tests
end

/-! ### Counters that a frame on its way out leaves alone

The riser, the fences, NACKs and events move many counters, among them ones of other links than the one at hand.
`Steady` names those that none of them moves, and `Ck` says that an operation leaves every steady counter as it was. -/

namespace Sys2Proof.Machine

set_option Elab.async false

/-- LANE_DEAD, of each link RX_FRAMES (0), RX_CELLS (2), HCRC (8) and BAD_TYPE (9), and of each lane its deaths (7):
the counters that only the arrival of a frame or the death of a lane moves (R392, R393). -/
def Steady (j : Nat) : Prop :=
  j = 0x204 ∨
    (0x1000 ≤ j ∧ j < 0x12000 ∧ (j % 32 = 0 ∨ j % 32 = 2 ∨ j % 32 = 8 ∨ j % 32 = 9)) ∨
    (0x12000 ≤ j ∧ j < 0x20000 ∧ j % 8 = 7)

theorem Steady.lt {j : Nat} (h : Steady j) : j < 0x34000 := by unfold Steady at h; omega
theorem Steady.ge {j : Nat} (h : Steady j) : 0x204 ≤ j := by unfold Steady at h; omega

/-- The counters of a link that are not steady. -/
theorem not_steady_cLink (l k : Nat) (hk : k ∈ [4, 5, 12, 13, 14, 17, 18, 19, 20, 21, 22]) : ¬ Steady (cLink l k) := by
  unfold Steady cLink
  simp only [List.mem_cons, List.not_mem_nil, or_false] at hk
  omega

theorem not_steady_of_ge {j : Nat} (h : 0x20000 ≤ j) : ¬ Steady j := by unfold Steady; omega

/-- Every steady counter is as it was. -/
def Ck (s t : State) : Prop := ∀ j, Steady j → cntGet t j = cntGet s j

theorem Ck.refl (s : State) : Ck s s := fun _ _ => rfl

theorem Ck.trans {s x t : State} (h : Ck s x) (g : Ck x t) : Ck s t := fun j k => (g j k).trans (h j k)

/-- An operation that writes no counter. -/
theorem Ck.of {m : Nat} {s t : State} (h : Fr m s t) (hm : m.testBit 16 = false := by rfl) : Ck s t :=
  fun j _ => cntGet_congr (h.cnt hm) j

theorem Ck.of_cnt {s t : State} (h : t.cnt = s.cnt) : Ck s t := fun j _ => cntGet_congr h j

/-- An operation that runs after an update of no counter. -/
theorem Ck.after {s x t : State} (h : Ck x t) (e : x.cnt = s.cnt) : Ck s t := (Ck.of_cnt e).trans h

theorem Ck.ite {s a b : State} {c : Prop} [Decidable c] (ha : Ck s a) (hb : Ck s b) : Ck s (if c then a else b) := by
  split <;> assumption

theorem Ck.forEach {α : Type} (l : List α) (s : State) (f : State → α → State) (h : ∀ y a, Ck y (f y a)) :
    Ck s (forEach l s f) := fun j k => forEach_cnt l s f j fun y a => h y a j k

theorem bump_ck (s : State) {i : Nat} (h : ¬ Steady i) : Ck s (bump s i) := fun j k => by
  rw [cntGet_bump, if_neg (fun e : j = i => h (e ▸ k))]

theorem bump_cLink_ck (s : State) (l k : Nat) (hk : k ∈ [4, 5, 12, 13, 14, 17, 18, 19, 20, 21, 22] := by decide) :
    Ck s (bump s (cLink l k)) := bump_ck s (not_steady_cLink l k hk)

theorem raiseEvent_ck (s : State) (code part a0 a1 : Nat) (h : ¬ Steady code := by unfold Steady; decide) :
    Ck s (raiseEvent s code part a0 a1) := fun j k => by
  rw [raiseEvent_cnt _ _ _ _ _ _ k.lt, if_neg (fun e : j = code => h (e ▸ k))]

theorem noteHealth_ck (s : State) : Ck s (noteHealth s) :=
  fun j k => noteHealth_cnt s j k.lt (by have := k.ge; omega)

/-! ### The riser -/

theorem deepFullNote_ck (s : State) (d : Nat) : Ck s (deepFullNote s d) := by
  unfold deepFullNote
  split
  · exact Ck.refl s
  · exact (raiseEvent_ck _ _ _ _ _).after rfl

theorem markCm_ck (s : State) (l : Nat) (f : Frame) : Ck s (markCm s l f).1 := by
  unfold markCm
  dsimp only
  split
  · exact Ck.refl s
  split
  · exact Ck.refl s
  split
  · exact bump_cLink_ck s l 4
  split
  · exact (Ck.of (nextMark_fr s l)).trans (bump_cLink_ck _ l 4)
  · exact Ck.of (nextMark_fr s l)

/-- Only TC2 and TC3 are dropped for want of room (R120). -/
theorem tc_of_admission_drop {s : State} {q : QFrame} (h : admission s q = .drop) : q.f.tc = 2 ∨ q.f.tc = 3 := by
  unfold admission at h
  dsimp only at h
  split at h
  · split at h <;> exact nomatch h
  split at h
  · assumption
  split at h
  · exact nomatch h
  · split at h <;> exact nomatch h

theorem putFrame_ck (s : State) (q : QFrame) : Ck s (putFrame s q) := by
  have push (x : State) (y : QFrame) : Ck x (pushFrame x y) := Ck.of (pushFrame_fr x y)
  have free : Ck s (freeCredit s q.inLink q.f.tc (inCells q)) := Ck.of (freeCredit_fr ..)
  unfold putFrame
  split
  · exact push s q
  split
  · have deep := (Ck.of (deepMove_fr s (qCells q))).trans (Ck.of (freeCredit_fr _ q.inLink q.f.tc (inCells q)))
    exact (deep.trans (bump_cLink_ck _ q.outLink 19)).trans (push _ _)
  · exact free.trans (push _ _)
  · next h =>
    refine free.trans (bump_cLink_ck _ _ _ ?_)
    rcases tc_of_admission_drop h with e | e <;> rw [e] <;> decide
  · dsimp only
    split
    · exact (deepFullNote_ck s q.die).trans (push _ _)
    · exact push _ _

theorem placeOn_ck (s : State) (q : QFrame) (l : Nat) : Ck s (placeOn s q l).1 := by
  unfold placeOn
  split
  · dsimp only
    split
    · exact bump_cLink_ck s l 22
    · exact Ck.refl s
  · exact (markCm_ck s l q.f).trans (putFrame_ck _ _)

theorem deliverCore_ck (s : State) (q : QFrame) : Ck s (deliverCore s q).1 := by
  unfold deliverCore
  split
  · exact placeOn_ck s q _
  split
  · dsimp only
    split
    · exact bump_cLink_ck s q.primary 17
    · exact Ck.refl s
  split
  · exact raiseEvent_ck _ _ _ _ _
  split
  · exact (bump_cLink_ck s q.primary 5).trans (placeOn_ck _ _ _)
  · exact raiseEvent_ck _ _ _ _ _

theorem routeFrame_ck (s : State) (q : QFrame) (p : Nat) (useFlow : Bool) : Ck s (routeFrame s q p useFlow).1 := by
  unfold routeFrame
  dsimp only
  split
  · exact Ck.refl s
  split
  · exact Ck.refl s
  split
  · split
    · dsimp only
      split
      · exact Ck.refl s
      · exact bump_cLink_ck s q.inLink 18
    · exact deliverCore_ck s _
  · exact deliverCore_ck s _

theorem mcEnter_ck (s : State) (q : QFrame) (members : List Nat) : Ck s (mcEnter s q members) := by
  have free : Ck s (freeCredit s q.inLink q.f.tc (inCells q)) := Ck.of (freeCredit_fr ..)
  unfold mcEnter
  dsimp only
  split
  · exact free.trans (Ck.of_cnt rfl)
  split
  · next h =>
    split
    · exact free
    · refine free.trans (bump_cLink_ck _ _ _ ?_)
      rcases h with e | e <;> rw [e] <;> decide
  · exact Ck.of_cnt rfl

/-- A ring neighbour's link is a lateral one. -/
theorem ringLink_lateral {s : State} {f : Frame} {l : Nat} (h : ringLink s f = some l) : l = 2048 ∨ l = 2049 := by
  unfold ringLink at h
  dsimp only at h
  split at h
  · exact nomatch h
  split at h
  · exact Or.inl (Option.some.inj h).symm
  split at h
  · exact Or.inr (Option.some.inj h).symm
  · exact nomatch h

theorem ringSend_ck (s : State) (q : QFrame) (l : Nat) (hl : l = 2048 ∨ l = 2049) : Ck s (ringSend s q l).1 := by
  have ctx (k : Nat) : ¬ Steady (cCtx k 4) := not_steady_of_ge (by unfold cCtx; omega)
  unfold ringSend
  split
  · exact bump_ck s (ctx _)
  split
  · refine bump_ck s ?_
    split
    · exact ctx _
    · rcases hl with rfl | rfl <;> unfold Steady cLink <;> decide
  · exact placeOn_ck s _ l

theorem originate_ck (s : State) (die : Nat) (f : Frame) : Ck s (originate s die f).1 := by
  have own : Ck s (ownFrame s die f).1 := Ck.of (ownFrame_fr s die f)
  unfold originate
  dsimp only
  split
  · split
    · exact own.trans (mcEnter_ck _ _ _)
    · exact own
  split
  · exact own
  split
  · next h => exact own.trans (ringSend_ck _ _ _ (ringLink_lateral h))
  · exact own.trans (routeFrame_ck _ _ _ _)

theorem sendNack_ck (s : State) (q : QFrame) (cause backoff : Nat) : Ck s (sendNack s q cause backoff) := by
  have lost : Ck s (if q.inLink = 0xFFF then s else bump s (cLink q.inLink 13)) := by
    split
    · exact Ck.refl s
    · exact bump_cLink_ck s q.inLink 13
  unfold sendNack
  dsimp only
  split
  · exact lost
  split
  · exact lost
  · have nack : ¬ Steady (cNack cause) := not_steady_of_ge (by unfold cNack; omega)
    exact (bump_ck s nack).trans (originate_ck _ _ _)

theorem refuse_ck (s : State) (q : QFrame) (cause backoff : Nat) : Ck s (refuse s q cause backoff) :=
  (Ck.of (freeCredit_fr _ _ _ _)).trans (sendNack_ck _ _ _ _)

/-! ### Frames moved off a link, and fences -/

theorem answerQueued_ck (s : State) (q : QFrame) (cause : Nat) : Ck s (answerQueued s q cause) := by
  unfold answerQueued
  split
  · exact Ck.refl s
  dsimp only
  split
  · exact (bump_cLink_ck s q.inLink 12).trans (sendNack_ck _ _ _ _)
  · exact sendNack_ck _ _ _ _

theorem mcCopyLost_ck (s : State) (group l : Nat) : Ck s (mcCopyLost s group l) := by
  have b := bump_cLink_ck s l 14
  unfold mcCopyLost
  dsimp only
  split
  · exact b
  split
  · exact b.trans (bump_ck _ (by unfold Steady; decide))
  · exact b.trans ((raiseEvent_ck _ _ _ _ _).after rfl)

theorem moveFrame_ck (s : State) (q : QFrame) : Ck s (moveFrame s q) := by
  unfold moveFrame
  split
  · exact Ck.of (reLane_fr s q)
  split
  · exact (Ck.of (takeOut_fr s q)).trans (mcCopyLost_ck _ _ _)
  split
  · exact (Ck.of (takeOut_fr s q)).trans (answerQueued_ck _ _ _)
  dsimp only
  have back := (Ck.of (liftFrame_fr s q)).trans (deliverCore_ck (liftFrame s q)
    { q with f := { q.f with detour := q.f.detour && !q.detourSent }, detourSent := false })
  split
  · exact back
  · exact (back.trans (Ck.of (freePlace_fr _ q))).trans (answerQueued_ck _ _ _)

theorem moveQueued_ck (s : State) (l : Nat) : Ck s (moveQueued s l) := Ck.forEach _ _ _ moveFrame_ck

theorem fenceEffect_ck (s : State) (l : Nat) : Ck s (fenceEffect s l) :=
  (Ck.forEach _ _ _ fun y a => Ck.of (sendLinkctl_fr y a lcQUIESCE)).trans (moveQueued_ck _ l)

theorem fenceLink_ck (s : State) (l src n : Nat) : Ck s (fenceLink s l src n) := by
  refine Ck.trans ?_ (fenceEffect_ck _ l)
  exact (raiseEvent_ck _ _ _ _ _).after rfl

theorem autoFence_ck (s : State) (l src : Nat) : Ck s (autoFence s l src) := by
  unfold autoFence
  split
  · exact Ck.refl s
  dsimp only
  split
  · exact (fenceLink_ck _ _ _ _).after rfl
  · exact (raiseEvent_ck _ _ _ _ _).after rfl

theorem countDown_ck (s : State) (l : Nat) : Ck s (countDown s l) := by
  unfold countDown
  dsimp only
  split
  · exact (autoFence_ck _ _ _).after rfl
  · exact Ck.of_cnt rfl

end Sys2Proof.Machine

/-! ### The death of a lane: R85, R88 -/

namespace Sys2Proof.Machine

set_option Elab.async false

/-- A change of a link's state moves its own events' counters; only a down that counts for R370 can move others. -/
theorem refreshLink_cnt (s : State) (l cause : Nat) (counts : Bool) (j : Nat) (h1 : 0x203 < j) (h2 : j < 0x34000)
    (down : counts = true → ∀ x, cntGet (countDown x l) j = cntGet x j) :
    cntGet (refreshLink s l cause counts) j = cntGet s j := by
  have event (x : State) (code n : Nat) (hc : code ≤ 0x203) :
      cntGet (raiseEvent x code (partLink l) n 0) j = cntGet x j := by
    rw [raiseEvent_cnt _ _ _ _ _ _ h2, if_neg (by omega)]
  unfold refreshLink
  dsimp only
  set x := modLink (if (linkUpState (linkStateOf s l) && !linkUpState (link s l).state) = true then startCredits s l else s)
    l fun k => { k with state := linkStateOf s l } with hx
  have e : cntGet x j = cntGet s j := by rw [hx]; split <;> rfl
  clear_value x
  rw [← e]
  split
  · split
    · next h =>
      have hc : counts = true := by cases counts <;> simp_all
      exact (down hc _).trans (event _ 0x201 _ (by decide))
    · exact event _ 0x201 _ (by decide)
  split
  · split
    · exact (event _ 0x203 _ (by decide)).trans (event _ 0x202 _ (by decide))
    · exact event _ 0x202 _ (by decide)
  split
  · exact event _ 0x203 _ (by decide)
  split <;> rfl

theorem refreshLink_ck (s : State) (l cause : Nat) (counts : Bool) : Ck s (refreshLink s l cause counts) :=
  fun j k => refreshLink_cnt s l cause counts j (by have := k.ge; omega) k.lt fun _ x => countDown_ck x l j k

theorem txSwapDeath_ck (s : State) (q : Nat) : Ck s (txSwapDeath s q) := by
  unfold txSwapDeath
  split
  · exact Ck.refl s
  split
  · exact ((raiseEvent_ck _ _ _ _ _).trans (Ck.of (modChan_fr _ _ _ _))).trans (Ck.of (finishSwap_fr _ _ _))
  split
  · exact Ck.of (finishSwap_fr s q _)
  split
  · exact Ck.refl s
  split
  · exact (Ck.of (modChan_fr s _ _ _)).trans (Ck.of (setSwap_fr _ _ _ _))
  · have idle (w : Swap) := (Ck.of (setSwap_fr s .tx q {})).trans (Ck.of (modChan_fr _ .tx w.spare idleChan))
    dsimp only
    split
    · exact (idle _).trans (Ck.of (calSlotEnd_fr _ _))
    · exact idle _

theorem swapDeath_ck (s : State) (q : Nat) : Ck s (swapDeath s q) :=
  (txSwapDeath_ck s q).trans (Ck.of (rxSwapDeath_fr _ q))

theorem retireLane_ck (s : State) (q : Nat) (d : Dir) (cause : Nat) (journal : Bool) :
    Ck s (retireLane s q d cause journal) := by
  unfold retireLane
  dsimp only
  refine Ck.trans ?_ (refreshLink_ck _ _ _ _)
  refine Ck.trans (x := laneToDown _ q 7) ?_ ((raiseEvent_ck _ _ _ _ _).after rfl)
  refine Ck.trans ?_ (Ck.of (laneToDown_fr _ _ _))
  have left : Ck s (dropSwap (dropSwap (calLeave s q) .tx q) .rx q) :=
    ((Ck.of (calLeave_fr s q)).trans (Ck.of (dropSwap_fr _ _ _))).trans (Ck.of (dropSwap_fr _ _ _))
  have dark := left.trans (Ck.of (modChan_fr (dropSwap (dropSwap (calLeave s q) .tx q) .rx q) .tx
    (laneKey (dropSwap (dropSwap (calLeave s q) .tx q) .rx q) .tx q) fun c => { c with state := 8 }))
  split
  · exact dark.trans (Ck.of (journalChan_fr _ _ _ _ _))
  · exact dark

theorem noteExhausted_ck (s : State) (d : Dir) (k : Nat) : Ck s (noteExhausted s d k) := by
  unfold noteExhausted
  refine Ck.ite ?_ ?_
  · exact bump_ck s (i := 0x106) (by unfold Steady; decide)
  · exact (raiseEvent_ck _ 0x106 _ _ _).after rfl

theorem calAbort_ck (s : State) (n cause : Nat) : Ck s (calAbort s n cause) := by
  have aborted (part a0 : Nat) : Ck s (raiseEvent s 0x10B part a0 cause) := raiseEvent_ck _ _ _ _ _
  unfold calAbort
  dsimp only
  split
  · exact Ck.refl s
  split
  · exact ((aborted _ _).trans (Ck.of (modEngine_fr _ _ _))).trans (Ck.of (swapBack_fr _ _ _ _))
  · exact (aborted _ _).trans (Ck.of (calSlotEnd_fr _ _))

theorem fadeGo_ck (s : State) (q fade : Nat) : Ck s (fadeGo s q fade) := by
  have started {x t : State} (h : (match usableSpare x .tx q, standInColour x .tx q with
      | some sp, some c => some (startSwap x q sp c 0)
      | _, _ => none) = some t) : Ck x t := by
    split at h
    · exact Option.some.inj h ▸ Ck.of (startSwap_fr x q _ _ 0)
    · exact nomatch h
  unfold fadeGo
  dsimp only
  split
  · next h => exact started h
  split
  · exact noteExhausted_ck s _ _
  refine (calAbort_ck s (laneKey s .tx q / 256) 1).trans ?_
  split
  · next h => exact started h
  split
  · exact Ck.of (queueFade_fr _ q fade)
  · exact noteExhausted_ck _ _ _

theorem nextFade_ck (s : State) (k : Nat) : Ck s (nextFade s k) := by
  unfold nextFade
  split
  · exact Ck.refl s
  split
  · exact Ck.refl s
  dsimp only
  split
  · exact Ck.of_cnt rfl
  · exact (fadeGo_ck _ _ _).after rfl

/-- The steps of a lane's death between its event and the fades that wait: its swaps end, it goes down or is retired,
and its link follows (R67, R68, R88). -/
def laneLeaves (s : State) (q cause : Nat) (dark : Bool) : State :=
  if fadeHopeless s q then retireLane (swapDeath s q) q .tx cause true
  else refreshLink (modLink (modLane (laneToDown (swapDeath s q) q (if dark then 0 else 1)) q
    fun x => { x with needFull := false }) (linkOf q) (marginWithout q)) (linkOf q) cause true

/-- CREDIT_RESYNC of every class on the first lane that a link has left (R102). -/
def resyncLeft (s : State) (l : Nat) : State :=
  match upLanes s l with
  | [] => s
  | u :: _ => forEach (List.range 8) s fun s t => sendResync s u t

/-- The lane's death counted and LANE_DEAD raised (R85, R393). -/
def deathNoted (s : State) (q cause : Nat) : State :=
  raiseEvent (bump s (cLane q 7)) 0x204 (partLane q) (q + at_ 16 cause) 0

theorem laneDie_of_up {s : State} {q : Nat} (h : (lane s q).state = 3 ∨ (lane s q).state = 4) (cause : Nat) (dark : Bool) :
    laneDie s q cause true dark =
      resyncLeft (nextFade (laneLeaves (deathNoted s q cause) q cause dark) (laneKey s .tx q)) (linkOf q) := by
  have up : (!((lane s q).state == 3 || (lane s q).state == 4)) = false := by rcases h with h | h <;> simp [h]
  unfold laneDie
  rw [up]
  rfl

theorem laneLeaves_ck (s : State) (q cause : Nat) (dark : Bool) : Ck s (laneLeaves s q cause dark) := by
  unfold laneLeaves
  split
  · exact (swapDeath_ck s q).trans (retireLane_ck _ q .tx cause true)
  · refine Ck.trans (x := laneToDown (swapDeath s q) q (if dark then 0 else 1)) ?_
      ((refreshLink_ck _ _ _ _).after (by rw [modLink_cnt, modLane_cnt]))
    exact (swapDeath_ck s q).trans (Ck.of (laneToDown_fr _ _ _))

theorem resyncLeft_ck (s : State) (l : Nat) : Ck s (resyncLeft s l) := by
  unfold resyncLeft
  split
  · exact Ck.refl s
  · exact Ck.forEach _ _ _ fun y t => Ck.of (sendResync_fr y _ t)

/-- Of the steady counters, a death moves the lane's own and LANE_DEAD's. -/
theorem laneDie_ck {s : State} {q : Nat} (h : (lane s q).state = 3 ∨ (lane s q).state = 4) (cause : Nat) (dark : Bool) :
    Ck (deathNoted s q cause) (laneDie s q cause true dark) := by
  rw [laneDie_of_up h]
  exact ((laneLeaves_ck _ q cause dark).trans (nextFade_ck _ _)).trans (resyncLeft_ck _ _)

theorem deathNoted_cnt (s : State) (q cause j : Nat) (hq : q < 4160) (hj : Steady j) :
    cntGet (deathNoted s q cause) j =
      if j = 0x204 ∨ j = cLane q 7 then (cntGet s j + 1) % 2 ^ 64 else cntGet s j := by
  have apart : (0x204 : Nat) ≠ cLane q 7 := by unfold cLane; omega
  unfold deathNoted
  rw [raiseEvent_cnt _ _ _ _ _ _ hj.lt]
  by_cases e : j = 0x204
  · rw [if_pos e, if_pos (Or.inl e), e, cntGet_bump, if_neg apart]
  · rw [if_neg e, cntGet_bump]
    by_cases g : j = cLane q 7
    · rw [if_pos g, if_pos (Or.inr g), g]
    · rw [if_neg g, if_neg (by simp [e, g])]

/-! The lane that dies. -/

theorem lane_congr {s t : State} (h : t.lnk = s.lnk) (q : Nat) : lane t q = lane s q := by unfold lane; rw [h]
theorem link_congr {s t : State} (h : t.lnk = s.lnk) (l : Nat) : link t l = link s l := by unfold link; rw [h]

@[simp] theorem lane_modLink (s : State) (l : Nat) (f : Link → Link) (q : Nat) : lane (modLink s l f) q = lane s q := rfl
@[simp] theorem link_setLane (s : State) (q : Nat) (v : Lane) (l : Nat) : link (setLane s q v) l = link s l := rfl
@[simp] theorem link_modLane (s : State) (q : Nat) (f : Lane → Lane) (l : Nat) : link (modLane s q f) l = link s l := rfl

theorem Fr.lane {m : Nat} {s t : State} (h : Fr m s t) (q : Nat) (h6 : m.testBit 6 = false := by rfl) :
    Machine.lane t q = Machine.lane s q := lane_congr (h.lnk h6) q

theorem Fr.link {m : Nat} {s t : State} (h : Fr m s t) (l : Nat) (h6 : m.testBit 6 = false := by rfl) :
    Machine.link t l = Machine.link s l := link_congr (h.lnk h6) l

/-- Where lanes and links are kept, every lane's state is. -/
theorem Kl.lane_state {up : Bool} {s t : State} (h : Kl up s t) (q : Nat) : (lane t q).state = (lane s q).state := by
  rw [h.lanes q]

/-- A lane that leaves service is in the state it is sent to, whatever of it else changes then. -/
theorem laneToDown_state (s : State) (q st : Nat) {f : Lane → Lane} (hf : ∀ x, (f x).state = x.state)
    {t : State} (ht : t.lnk = (modLane (laneToDown s q st) q f).lnk) : (lane t q).state = st := by
  rw [lane_congr ht, lane_modLane, hf]
  unfold laneToDown
  dsimp only
  rw [(loseStarted_kl _ q).lane_state, lane_modLane]

theorem retireLane_state (s : State) (q : Nat) (d : Dir) (cause : Nat) (journal : Bool) :
    (lane (retireLane s q d cause journal) q).state = 7 := by
  unfold retireLane
  dsimp only
  rw [(refreshLink_kl _ _ _ _).lane_state, (raiseEvent_fr _ _ _ _ _).lane]
  exact laneToDown_state _ q 7 (f := fun l => { l with marginRetired := !journal }) (fun _ => rfl) rfl

theorem laneLeaves_state (s : State) (q cause : Nat) (dark : Bool) :
    (lane (laneLeaves s q cause dark) q).state = if fadeHopeless s q then 7 else if dark then 0 else 1 := by
  unfold laneLeaves
  split
  · exact retireLane_state _ _ _ _ _
  · rw [(refreshLink_kl _ _ _ _).lane_state, lane_modLink]
    exact laneToDown_state _ q _ (f := fun x => { x with needFull := false }) (fun _ => rfl) rfl

theorem resyncLeft_kl (s : State) (l : Nat) : Kl false s (resyncLeft s l) := by
  unfold resyncLeft
  split
  · exact Kl.refl _ s
  · exact Kl.forEach _ _ (fun y t => sendResync_kl y _ t) (Kl.refl _ s)

/-- An event changes the output, the host interface and the counters alone. -/
theorem raiseEvent_eq (s : State) (code part a0 a1 : Nat) :
    raiseEvent s code part a0 a1 = { s with
      out := (raiseEvent s code part a0 a1).out, hif := (raiseEvent s code part a0 a1).hif
      cnt := (raiseEvent s code part a0 a1).cnt } := by
  have h := raiseEvent_fr s code part a0 a1
  have now := raiseEvent_now s code part a0 a1
  cases e : raiseEvent s code part a0 a1
  rw [e] at h now
  simp only [State.mk.injEq, true_and, and_true]
  exact ⟨h.pending, now, h.freeCtr rfl, h.variant, h.regs rfl, h.boot rfl, h.pwr rfl, h.opt rfl, h.lnk rfl, h.sw rfl,
    h.tbl rfl, h.cru rfl, h.plan rfl, h.coll rfl, h.mem rfl, h.tim rfl, h.hlt rfl⟩

/-- Whether a fade is hopeless (R67) is read from none of these. -/
theorem fadeHopeless_put (s : State) (o : List Output) (h : Hif) (c : Cnt) (q : Nat) :
    fadeHopeless { s with out := o, hif := h, cnt := c } q = fadeHopeless s q := rfl

theorem fadeHopeless_deathNoted (s : State) (q cause : Nat) :
    fadeHopeless (deathNoted s q cause) q = fadeHopeless s q := by
  unfold deathNoted
  rw [raiseEvent_eq, fadeHopeless_put]
  exact fadeHopeless_put s s.out s.hif _ q

theorem laneDie_state {s : State} {q : Nat} (h : (lane s q).state = 3 ∨ (lane s q).state = 4) (cause : Nat) (dark : Bool) :
    (lane (laneDie s q cause true dark) q).state = if fadeHopeless s q then 7 else if dark then 0 else 1 := by
  rw [laneDie_of_up h, (resyncLeft_kl _ _).lane_state, (nextFade_fr _ _).lane, laneLeaves_state, fadeHopeless_deathNoted]

/-- R85, R88: what a death comes to. -/
theorem laneDied_of_laneDie {s : State} {q : Nat} (hq : q < 4160) (h : (lane s q).state = 3 ∨ (lane s q).state = 4)
    (cause : Nat) (dark : Bool) : LaneDied s (laneDie s q cause true dark) q (if dark then 0 else 1) := by
  have own : Steady (cLane q 7) := by unfold Steady cLane; omega
  have dead : Steady 0x204 := Or.inl rfl
  refine ⟨laneDie_state h cause dark, ?_, ?_⟩
  · rw [laneDie_ck h cause dark _ own, deathNoted_cnt _ _ _ _ hq own, if_pos (Or.inr rfl)]
  · rw [laneDie_ck h cause dark _ dead, deathNoted_cnt _ _ _ _ hq dead, if_pos (Or.inl rfl)]

end Sys2Proof.Machine

/-! ### What a frame that has arrived leaves alone: R95, R105, R158, R263, R306

Wherever an arrived frame goes, into the riser, to the cores, to a collective, to stacked memory or back as a NACK, it
leaves RX_FRAMES and RX_CELLS, the lanes and what the links have received alone (`Ak`); a frame that is still to come
whole is remembered by its own lane only. -/

namespace Sys2Proof.Machine

set_option Elab.async false

/-- RX_FRAMES and RX_CELLS of the links (R392). -/
def Carried (j : Nat) : Prop := 0x1000 ≤ j ∧ j < 0x12000 ∧ (j % 32 = 0 ∨ j % 32 = 2)

theorem Carried.steady {j : Nat} (h : Carried j) : Steady j := by unfold Carried at h; unfold Steady; omega

/-- Every lane but for its outgoing ordered sets, every link's credits received, and the carried counters are kept. -/
structure Ak (s t : State) : Prop where
  kl : Kl false s t
  cnt : ∀ j, Carried j → cntGet t j = cntGet s j

theorem Ak.refl (s : State) : Ak s s := ⟨Kl.refl _ s, fun _ _ => rfl⟩

theorem Ak.trans {s x t : State} (h : Ak s x) (g : Ak x t) : Ak s t :=
  ⟨g.kl.step h.kl, fun j k => (g.cnt j k).trans (h.cnt j k)⟩

theorem Ak.mk' {s t : State} (h : Kl false s t) (g : Ck s t) : Ak s t := ⟨h, fun j k => g j k.steady⟩

/-- An operation that runs after an update of neither. -/
theorem Ak.after {s x t : State} (h : Ak x t) (hl : x.lnk = s.lnk) (hc : x.cnt = s.cnt) : Ak s t :=
  Ak.trans (.mk' (.of_lnk hl) (.of_cnt hc)) h

/-- An operation that writes neither a link, nor a lane, nor a counter. -/
theorem Ak.of {m : Nat} {s t : State} (h : Fr m s t) (h6 : m.testBit 6 = false := by rfl)
    (h16 : m.testBit 16 = false := by rfl) : Ak s t := .mk' (.of h h6) (.of h h16)

/-- An operation that writes neither a link nor a lane, and no steady counter. -/
theorem Ak.of_ck {m : Nat} {s t : State} (h : Fr m s t) (g : Ck s t) (h6 : m.testBit 6 = false := by rfl) : Ak s t :=
  .mk' (.of h h6) g

theorem Ak.ite {s a b : State} {c : Prop} [Decidable c] (ha : Ak s a) (hb : Ak s b) : Ak s (if c then a else b) := by
  split <;> assumption

theorem Ak.ite1 {β : Type} {s : State} {a b : State × β} {c : Prop} [Decidable c] (ha : Ak s a.1) (hb : Ak s b.1) :
    Ak s (if c then a else b).1 := by split <;> assumption

theorem Ak.forEach {α : Type} (l : List α) (s : State) (f : State → α → State) (h : ∀ y a, Ak y (f y a)) :
    Ak s (forEach l s f) := by
  unfold Machine.forEach
  induction l generalizing s with
  | nil => exact Ak.refl s
  | cons a l ih => exact (h s a).trans (ih _)

theorem bump_ak (s : State) {i : Nat} (h : ¬ Carried i) : Ak s (bump s i) :=
  ⟨Kl.of (bump_fr s i), fun j k => by rw [cntGet_bump, if_neg (fun e : j = i => h (e ▸ k))]⟩

theorem bump_ge_ak (s : State) {i : Nat} (h : 0x12000 ≤ i) : Ak s (bump s i) :=
  bump_ak s (by unfold Carried; omega)

/-- The counters of a link that an arrived frame may move. -/
theorem bump_cLink_ak (s : State) (l k : Nat) (hk : k ∈ [7, 9, 10, 11, 12, 16] := by decide) :
    Ak s (bump s (cLink l k)) := bump_ak s (by
  unfold Carried cLink
  simp only [List.mem_cons, List.not_mem_nil, or_false] at hk
  omega)

theorem event_ak (s : State) (code part a0 a1 : Nat) (h : ¬ Steady code := by unfold Steady; decide) :
    Ak s (raiseEvent s code part a0 a1) := .of_ck (raiseEvent_fr _ _ _ _ _) (raiseEvent_ck _ _ _ _ _ h)

theorem freeCredit_ak (s : State) (l tc n : Nat) : Ak s (freeCredit s l tc n) :=
  .mk' (freeCredit_kl ..) (.of (freeCredit_fr ..))

theorem routeFrame_ak (s : State) (q : QFrame) (p : Nat) (useFlow : Bool) : Ak s (routeFrame s q p useFlow).1 :=
  .mk' (routeFrame_kl ..) (routeFrame_ck _ _ _ _)

theorem mcEnter_ak (s : State) (q : QFrame) (members : List Nat) : Ak s (mcEnter s q members) :=
  .mk' (mcEnter_kl ..) (mcEnter_ck _ _ _)

theorem originate_ak (s : State) (die : Nat) (f : Frame) : Ak s (originate s die f).1 :=
  .mk' (originate_kl ..) (originate_ck _ _ _)

theorem dropFrame_ak (s : State) (q : QFrame) : Ak s (dropFrame s q) := freeCredit_ak ..

theorem refuse_ak (s : State) (q : QFrame) (cause backoff : Nat) : Ak s (refuse s q cause backoff) :=
  (freeCredit_ak ..).trans (.mk' (sendNack_kl ..) (sendNack_ck _ _ _ _))

theorem badType_ak (s : State) (q : QFrame) : Ak s (badType s q) := by
  unfold badType
  split
  · exact refuse_ak ..
  · exact (bump_cLink_ak s q.inLink 9).trans (refuse_ak ..)

theorem answer_ak (q : QFrame) (r : State × Nat) : Ak r.1 (answer q r) := by
  unfold answer
  split
  · exact Ak.refl _
  dsimp only
  split
  · exact (bump_cLink_ak _ q.inLink 12).trans (refuse_ak ..)
  · exact refuse_ak ..

/-! #### Management packets -/

theorem routePacket_ak (s : State) (die : Nat) (pkt : List Byte) : Ak s (routePacket s die pkt) := by
  have out (o : Output) : Ak s (emit s o) := .of (emit_fr s o)
  unfold routePacket
  dsimp only
  refine Ak.ite (out _) (Ak.ite ?_ (Ak.ite (out _) (Ak.ite (out _) (bump_ge_ak s (by unfold cMod; decide)))))
  split
  · exact Ak.refl s
  · exact Ak.ite (Ak.refl s) (originate_ak _ die _)

theorem mgmtFrame_ak (q : QFrame) (s : State) : Ak s (mgmtFrame q s) := by
  unfold mgmtFrame
  dsimp only
  split
  · exact (dropFrame_ak s q).trans (routePacket_ak ..)
  · exact (dropFrame_ak s q).trans (.of (emit_fr _ _))

/-! #### Collectives -/

theorem refuseContrib_ak (s : State) (q : QFrame) (cause backoff : Nat) : Ak s (refuseContrib s q cause backoff) := by
  unfold refuseContrib
  split
  · exact (bump_ge_ak s (by unfold cCtx; omega)).trans (refuse_ak ..)
  · exact refuse_ak ..

theorem excludedEvent_ak (s : State) (c member eid : Nat) : Ak s (excludedEvent s c member eid) := by
  unfold excludedEvent
  dsimp only
  split
  · exact bump_ak s (i := 0x602) (by unfold Carried; decide)
  · exact (Ak.of (setCtx_fr s c _)).trans (event_ak _ 0x602 _ _ _)

theorem noteMismatch_ak (s : State) (c : Nat) (f : Frame) (expected : Nat) : Ak s (noteMismatch s c f expected) := by
  have logs (x : State) (a b : Word) : Ak x (putR (putR x oMISMATCH0 a) oMISMATCH1 b) :=
    (Ak.of (putR_fr x _ a)).trans (.of (putR_fr _ _ b))
  unfold noteMismatch
  dsimp only
  set x := if bit (getR s oMISMATCH0) 63 = true then s else _ with hx
  have latched : Ak s x := by
    rw [hx]
    split
    · exact Ak.refl s
    · exact logs s _ _
  clear_value x
  refine latched.trans ?_
  split
  · exact bump_ak x (i := 0x601) (by unfold Carried; decide)
  · exact (Ak.of (setCtx_fr x c _)).trans (event_ak _ 0x601 _ _ _)

theorem noteTaken_ak (s : State) (q : QFrame) (c member : Nat) : Ak s (noteTaken s q c member) := by
  have ctx (x : State) (k : Nat) : Ak x (bump x (cCtx c k)) := bump_ge_ak x (by unfold cCtx; omega)
  unfold noteTaken
  dsimp only
  split
  · exact ((ctx s 0).trans (ctx _ 2)).trans (.of (arrived_fr _ _ _))
  · exact (ctx s 0).trans (.of (arrived_fr _ _ _))

/-- Lines of stacked memory are written without any counter but RETIRED_WRITE. -/
theorem writeLine_ak (s : State) (g i : Nat) (v : Line) : Ak s (writeLine s g i v) := by
  refine .of_ck (writeLine_fr s g i v) ?_
  unfold writeLine
  split
  · exact bump_ck s (not_steady_of_ge (by unfold cMod; decide))
  · next p _ =>
    have put := (Ck.of (noteWritten_fr s p i)).trans (Ck.of (putLine_fr _ (4 * p + i) v))
    exact put.trans (.of_cnt rfl)

theorem writePlanes_ak (s : State) (base : Nat) (offs : List Nat) (l : List (Nat × Nat × Nat)) :
    Ak s (writePlanes s base offs l) :=
  Ak.forEach _ _ _ fun y _ => Ak.forEach _ y _ fun z _ => writeLine_ak z _ _ _

theorem updateChunk_ak (s : State) (c e0 : Nat) (vals : List FVal) : Ak s (updateChunk s c e0 vals).1 := by
  have once : Ak s (advanceOnce s c) := .of (advanceOnce_fr s c)
  unfold updateChunk
  dsimp only
  split
  · exact once
  · have read (b n : Nat) (l : List Nat) := once.trans (.of (readPlanes_fr (advanceOnce s c) b n l))
    split
    · exact read _ _ _
    · exact (read _ _ _).trans (writePlanes_ak ..)

theorem chunkOutput_ak (s : State) (c k : Nat) (v : Chunk) : Ak s (chunkOutput s c k v).1 := by
  have update (b : Bool) (e0 : Nat) (vals : List FVal) :
      Ak s (if b then updateChunk s c e0 vals else (s, vals, 0, 0)).1 := by
    cases b
    · exact Ak.refl s
    · exact updateChunk_ak ..
  unfold chunkOutput
  exact Ak.ite1 (Ak.refl s) (Ak.ite1 (update _ _ _) (update _ _ _))

theorem collFrame_ak (s : State) (c die : Nat) (mc : Bool) (dest chunk : Nat) (ce : Bool) (f : Frame) :
    Ak s (collFrame s c die mc dest chunk ce f).1 := by
  unfold collFrame
  split
  · exact bump_ge_ak s (by unfold cMod; decide)
  · exact (Ak.of (setCtx_fr s c _)).trans (originate_ak ..)

theorem sendResult_ak (s : State) (c die : Nat) (mc : Bool) (dest chunk : Nat) (ce : Bool) (l : List Frame) :
    Ak s (sendResult s c die mc dest chunk ce l) := by
  refine Ak.forEach l s _ fun y f => ?_
  dsimp only
  split
  · exact (collFrame_ak ..).trans (bump_ge_ak _ (by unfold cCtx; omega))
  · exact collFrame_ak ..

theorem chunkCompletes_ak (s : State) (c die chunk : Nat) (mc : Bool) (dest : Nat) (one : CmplSum) :
    Ak s (chunkCompletes s c die chunk mc dest one) := by
  have counted := Ak.of (setCtx_fr s c { ctxOf s c with sum := addChunk (ctxOf s c).sum chunk one })
  unfold chunkCompletes
  dsimp only
  split
  · exact counted
  · exact counted.trans (collFrame_ak ..)

theorem noteArrivals_ak (s : State) (c : Nat) : Ak s (noteArrivals s c) := by
  have suspects (y : State) (m : Nat) : Ak y (noteSuspects y c m) :=
    (Ak.of (setCtx_fr y c _)).trans (Ak.forEach _ _ _ fun z _ => event_ak z 0x603 _ _ _)
  unfold noteArrivals
  dsimp only
  split
  · exact Ak.refl s
  split
  · exact (Ak.of (setCtx_fr s c _)).trans (suspects _ _)
  · exact Ak.of (setCtx_fr s c _)

theorem endInvocation_ak (s : State) (c : Nat) (early : Option (Nat × Nat × Nat)) : Ak s (endInvocation s c early) := by
  unfold endInvocation
  dsimp only
  refine Ak.trans (Ak.trans ?_ (noteArrivals_ak _ c)) (.of (modCtx_fr _ c _))
  split
  · exact collFrame_ak ..
  split
  · exact collFrame_ak ..
  · exact Ak.refl s

theorem releaseSlots_ak (s : State) (l : List Nat) : Ak s (releaseSlots s l) :=
  (Ak.forEach _ _ _ fun y g => Ak.of (releaseSlot_fr y g)).trans (.of_ck (noteHealth_fr _) (noteHealth_ck _))

theorem completeChunk_ak (s : State) (c k : Nat) : Ak s (completeChunk s c k) := by
  unfold completeChunk
  dsimp only
  set x := setChunk _ c k _ with hx
  have done : Ak s x := by
    rw [hx]
    refine Ak.trans (Ak.trans ?_ (releaseSlots_ak ..)) (.of (setChunk_fr ..))
    refine Ak.trans (Ak.trans ?_ (.of (missedMembers_fr ..))) (chunkCompletes_ak ..)
    exact (chunkOutput_ak ..).trans (sendResult_ak ..)
  split
  · exact done.trans (endInvocation_ak ..)
  · exact done

theorem takeDyn_ak (s : State) (q : QFrame) (c member k : Nat) (t : Taking) (segs : Option (List Seg)) :
    Ak s (takeDyn s q c member k t segs) := by
  have check (y : State) : Ak y (checkChunk y c k) := by
    unfold checkChunk
    dsimp only
    split
    · exact completeChunk_ak ..
    · exact Ak.refl y
  refine Ak.trans ?_ (check _)
  exact ((Ak.of (startChunk_fr s c k)).trans (.of (modChunk_fr _ c k _))).trans (.of (modCtx_fr _ c _))

theorem takeWin_ak (s : State) (q : QFrame) (c member i : Nat) (t : Taking) (segs : Option (List Seg)) :
    Ak s (takeWin s q c member i t segs) := by
  have counted (y : State) (n : Nat) (w : Word × Word × Word × Word) : Ak y (bumpN y (cSeq (wnCru w) 4) n) :=
    ⟨Kl.of (bumpN_fr ..), fun j h => by rw [cntGet_bumpN, if_neg (by unfold Carried at h; unfold cSeq; omega)]⟩
  have kept (b : Bool) (x : Ctx) (w : Word × Word × Word × Word) :
      Ak s (if b then keptBytes s x w q.f.payload else (s, [])).1 := by
    cases b
    · exact Ak.refl s
    · exact .of (keptBytes_fr ..)
  unfold takeWin
  dsimp only
  refine Ak.trans ?_ (.of (noteDone_fr _ c))
  split
  · exact Ak.trans (kept _ _ _) (.of (modWin_fr _ c i _))
  · exact Ak.trans (Ak.trans (kept _ _ _) (.of (modWin_fr _ c i _))) (counted _ _ _)

theorem takeContrib_ak (s : State) (q : QFrame) (c member at' : Nat) (planned_ : Bool) :
    Ak s (takeContrib s q c member at' planned_) := by
  have take (y : State) (t : Taking) (segs : Option (List Seg)) :
      Ak y (if planned_ = true then takeWin y q c member at' t segs else takeDyn y q c member at' t segs) :=
    Ak.ite (takeWin_ak ..) (takeDyn_ak ..)
  unfold takeContrib
  dsimp only
  split
  · exact ((refuseContrib_ak ..).trans (noteMismatch_ak ..)).trans (take _ _ _)
  split
  · exact refuseContrib_ak ..
  · exact ((freeCredit_ak ..).trans (noteTaken_ak ..)).trans (take _ _ _)

/-- The checks of R263 refuse a contribution, or it is taken. -/
theorem contribution_ak (q : QFrame) (s : State) : Ak s (contribution q s) := by
  have refused (cause backoff : Nat) : Ak s (refuseContrib s q cause backoff) := refuseContrib_ak ..
  unfold contribution
  dsimp only
  refine Ak.ite (refused _ _) ?_
  split
  · exact refused _ _
  refine Ak.ite (refused _ _) (Ak.ite ((refused _ _).trans (excludedEvent_ak ..)) ?_)
  refine Ak.ite (refused _ _) (Ak.ite (refused _ _) (Ak.ite (refused _ _) ?_))
  split
  · exact refused _ _
  · exact takeContrib_ak ..

/-! #### Stacked memory, and the frame's way from its header on -/

theorem memRequest_ak (q : QFrame) (p : Nat) (s : State) : Ak s (memRequest q p s) := by
  unfold memRequest
  split
  · exact refuse_ak ..
  · exact (freeCredit_ak ..).trans (.mk' (.of_lnk rfl) (.of_cnt rfl))

theorem consume_ak (q : QFrame) (p : Nat) (s : State) : Ak s (consume q p s) := by
  unfold consume
  exact Ak.ite (mgmtFrame_ak q s) (Ak.ite (contribution_ak q s) (Ak.ite (memRequest_ak q p s) (badType_ak s q)))

theorem multicast_ak (q : QFrame) (p : Nat) (s : State) : Ak s (multicast q p s) := by
  unfold multicast
  exact Ak.ite (answer_ak q (s, nkUNREACHABLE)) (mcEnter_ak ..)

theorem locationCheck_ak (s : State) (eid l : Nat) (route : Word) : Ak s (locationCheck s eid l route).1 := by
  have violation (part recorded : Nat) : Ak s (locationViolation s eid part recorded l) := by
    unfold locationViolation
    dsimp only
    split
    · exact bump_ak s (i := 0x401) (by unfold Carried; decide)
    · exact (event_ak _ 0x401 _ _ _).after rfl rfl
  have noted (k : Nat) : Ak s (bump s (cMod k)) := bump_ge_ak s (by unfold cMod; omega)
  unfold locationCheck
  exact Ak.ite1 (violation _ _) (Ak.ite1 (noted 1) ((noted 0).trans (.of (learn_fr ..))))

end Sys2Proof.Machine

/-! ### A frame arrives: R93, R102, R105, R143, R368 -/

namespace Sys2Proof.Machine

set_option Elab.async false

/-- As `Ak`, and a lane may remember a frame for the spine that is still to come whole (R117). -/
structure Av (s t : State) : Prop where
  lanes : ∀ q, lane t q = { lane s q with osOut := (lane t q).osOut, rxPend := (lane t q).rxPend }
  links : ∀ l, LinkKept false (link s l) (link t l)
  cnt : ∀ j, Carried j → cntGet t j = cntGet s j

theorem Ak.av {s t : State} (h : Ak s t) : Av s t where
  lanes q := by rw [h.kl.lanes q]
  links := h.kl.links
  cnt := h.cnt

theorem Av.trans {s x t : State} (h : Av s x) (g : Av x t) : Av s t where
  lanes q := by rw [g.lanes q, h.lanes q]
  links l := (h.links l).trans (g.links l)
  cnt j k := (g.cnt j k).trans (h.cnt j k)

theorem Av.ite {s a b : State} {c : Prop} [Decidable c] (ha : Av s a) (hb : Av s b) : Av s (if c then a else b) := by
  split <;> assumption

theorem selfFrame_av (q : QFrame) (p : Nat) (s : State) : Av s (selfFrame q p s) := by
  unfold selfFrame
  refine Av.ite (consume_ak q p s).av ⟨fun j => ?_, fun l => LinkKept.refl _ _, fun _ _ => rfl⟩
  by_cases h : j = q.inLane
  · rw [h, lane_modLane]
  · rw [show lane (modLane s q.inLane _) j = lane s j from tget_tset_other _ _ _ _ _ _ h]

theorem lookup_av (q : QFrame) (s : State) : Av s (lookup q s) := by
  unfold lookup
  dsimp only
  split
  · exact ((event_ak s 0x20C _ _ _).trans (dropFrame_ak ..)).av
  set r := if (decide (q.inLink < 2048) && !(sprayOf (routeOf s q.f.src)).contains q.inLink) = true then
    locationCheck s q.f.src q.inLink (routeOf s q.f.src) else (s, true) with hr
  have checked : Ak s r.1 := by rw [hr]; exact Ak.ite1 (locationCheck_ak ..) (Ak.refl s)
  clear_value r
  refine Av.ite (checked.trans (dropFrame_ak ..)).av (Av.ite ?_ (Av.ite ?_ ?_))
  · exact checked.av.trans (selfFrame_av ..)
  · exact (checked.trans (multicast_ak ..)).av
  · exact ((checked.trans (routeFrame_ak ..)).trans (answer_ak ..)).av

theorem checkFrame_av (q : QFrame) (s : State) : Av s (checkFrame q s) := by
  have counted (k : Nat) (hk : k ∈ [7, 9, 10, 11, 12, 16] := by decide) : Ak s (bump s (cLink q.inLink k)) :=
    bump_cLink_ak s q.inLink k hk
  unfold checkFrame
  dsimp only
  refine Av.ite (dropFrame_ak s q).av (Av.ite (badType_ak s q).av (Av.ite ?_ (Av.ite ?_ (Av.ite ?_ (Av.ite ?_ ?_)))))
  · exact ((counted 10).trans (refuse_ak ..)).av
  · exact ((counted 11).trans (refuse_ak ..)).av
  · exact ((event_ak s 0x20B _ _ _).trans (dropFrame_ak ..)).av
  · exact (counted 7).av.trans (lookup_av ..)
  · exact lookup_av q s

/-- A frame of a type or class that is not accepted is counted at its link (R105). -/
theorem badType_cnt (s : State) (q : QFrame) (h : q.inLink < 2050) :
    cntGet (badType s q) (cLink q.inLink 9) = (cntGet s (cLink q.inLink 9) + 1) % 2 ^ 64 := by
  have steady : Steady (cLink q.inLink 9) := by unfold Steady cLink; omega
  unfold badType
  rw [if_neg (by omega), refuse_ck _ _ _ _ _ steady, cntGet_bump, if_pos rfl]

/-! #### The tap: R143, R144 -/

theorem complete_cnt (s : State) (k : RingKind) (i tag status detail count j : Nat) (hj : j < 0x34000) :
    cntGet (complete s k i tag status detail count) j = cntGet s j := by
  have ring (x : State) (n : Nat) : cntGet (bump x (cRing n 1)) j = cntGet x j := by
    rw [cntGet_bump, if_neg (by unfold cRing; omega)]
  unfold complete
  dsimp only
  split
  · rfl
  split
  · split
    · exact ring (setRing s k i _) _
    · rfl
  · exact writeEntry_cnt _ _ _ _ _ _ _ _ hj

theorem storeTap_cnt (s : State) (d : Nat) (data : List Byte) (j : Nat) (hj : j < 0x34000) :
    cntGet (storeTap s d data) j = cntGet s j := by
  have die (x : State) (k : Nat) : cntGet (bump x (cDie d k)) j = cntGet x j := by
    rw [cntGet_bump, if_neg (by unfold cDie; omega)]
  unfold storeTap
  split
  · exact die s 1
  dsimp only
  split
  · exact (complete_cnt _ _ _ _ _ _ _ j hj).trans (die _ 0)
  · exact die _ 0

theorem tapRecord_cnt (s : State) (d : Nat) (data : List Byte) (j : Nat) (hj : j < 0x34000) :
    cntGet (tapRecord s d data) j = cntGet s j := by
  unfold tapRecord
  dsimp only
  split
  · exact forEach_cnt _ _ _ _ fun y r => storeTap_cnt y d r j hj
  split
  · rfl
  · rw [cntGet_bump, if_neg (by unfold cDie; omega)]

/-- A frame that passes the tap leaves its record, or only the counts of the tap are kept. -/
theorem tapFrame_cases {P : State → Prop} (s : State) (d : Nat) (q : QFrame) (f : Frame) (egress bl2 : Bool)
    (keep : ∀ x, x.cnt = s.cnt → x.sw.queue = s.sw.queue → P x)
    (record : ∀ x data, x.cnt = s.cnt → x.sw.queue = s.sw.queue → P (tapRecord x d data)) :
    P (tapFrame s d q f egress bl2) := by
  unfold tapFrame
  dsimp only
  split
  · exact keep s rfl rfl
  set x := if (bit (getR s (oTAP_CFG d)) 62 && (tget ({} : TapDie) s.sw.tap d).gap == 0) = true then takeFree s else s
    with hx
  have hc : x.cnt = s.cnt := by rw [hx]; split <;> rfl
  have hq : x.sw.queue = s.sw.queue := by rw [hx]; split <;> rfl
  clear_value x
  generalize (if (bit (getR s (oTAP_CFG d)) 62 && _) = true then _ else _) = gap
  split
  · exact keep _ hc hq
  · exact record _ _ hc hq

/-- The tap moves no counter but its own and those of rings. -/
theorem tapFrame_cnt (s : State) (d : Nat) (q : QFrame) (f : Frame) (egress bl2 : Bool) (j : Nat) (hj : j < 0x34000) :
    cntGet (tapFrame s d q f egress bl2) j = cntGet s j :=
  tapFrame_cases s d q f egress bl2 (fun _ hc _ => cntGet_congr hc j)
    fun x data hc _ => (tapRecord_cnt x d data j hj).trans (cntGet_congr hc j)

theorem storeTaps_sw (l : List (List Byte)) (s : State) (d : Nat) :
    (forEach l s fun s r => storeTap s d r).sw = s.sw := by
  unfold forEach
  induction l generalizing s with
  | nil => rfl
  | cons r l ih => exact (ih _).trans ((storeTap_fr s d r).sw rfl)

theorem tapRecord_queue (s : State) (d : Nat) (data : List Byte) : (tapRecord s d data).sw.queue = s.sw.queue := by
  unfold tapRecord
  dsimp only
  split
  · rw [storeTaps_sw]
  split <;> rfl

/-- The tap puts no frame into a queue. -/
theorem tapFrame_queue (s : State) (d : Nat) (q : QFrame) (f : Frame) (egress bl2 : Bool) :
    (tapFrame s d q f egress bl2).sw.queue = s.sw.queue :=
  tapFrame_cases s d q f egress bl2 (fun _ _ hq => hq) fun x data _ hq => (tapRecord_queue x d data).trans hq

/-! #### Credits: R100, R102 -/

/-- RECEIVED of a class after n more cells. -/
def credited (k : Link) (tc n : Nat) : Link :=
  { k with received := tset 0 k.received tc ((tget 0 k.received tc + n) % 2 ^ 24) }

/-- The partner's credit covers n more cells of a class. -/
def covered (k : Link) (tc n : Nat) : Bool :=
  let room := (tget 0 k.creditSent tc + 2 ^ 24 - tget 0 k.received tc) % 2 ^ 24
  !decide (2 ^ 23 ≤ room ∨ room < n)

theorem takeCells_eq (s : State) (q : Nat) (f : Frame) (n : Nat) :
    takeCells s q f n = if covered (link s (linkOf q)) f.tc n then
      some (setLink s (linkOf q) (credited (link s (linkOf q)) f.tc n)) else none := by
  unfold takeCells covered credited
  dsimp only
  split <;> simp_all

/-! #### The arrival -/

/-- The frame as it has entered, with what the tap has taken of it. -/
def entered (s : State) (q : Nat) (f : Frame) (part : Bool) : State × QFrame :=
  let i := inFrame s q f part
  (tapFrame i.1 i.2.die i.2 f false i.2.inBl2, i.2)

theorem arrive_eq (s : State) (q : Nat) (f : Frame) (part : Bool) :
    arrive s q f part = arriveIn (entered s q f part).1 (entered s q f part).2
      (takeCells (entered s q f part).1 q f (inCells (entered s q f part).2)) := rfl

theorem entered_fr (s : State) (q : Nat) (f : Frame) (part : Bool) : Fr 82053 s (entered s q f part).1 :=
  (tapFrame_fr _ _ _ _ _ _).step ((inFrame_fr s q f part).mono)

theorem entered_cnt (s : State) (q : Nat) (f : Frame) (part : Bool) (j : Nat) (hj : j < 0x34000) :
    cntGet (entered s q f part).1 j = cntGet s j := tapFrame_cnt _ _ _ _ _ _ j hj

theorem entered_queue (s : State) (q : Nat) (f : Frame) (part : Bool) :
    (entered s q f part).1.sw.queue = s.sw.queue := tapFrame_queue _ _ _ _ _ _

/-- A frame that finds its credits is counted, its link's RECEIVED rises, and it is checked, or dropped at a fence. -/
def admitted (s : State) (fr : QFrame) : State :=
  bumpN (bump (setLink s fr.inLink (credited (link s fr.inLink) fr.f.tc (inCells fr))) (cLink fr.inLink 0))
    (cLink fr.inLink 2) (inCells fr)

theorem arrive_of_covered {s : State} {q : Nat} {f : Frame} (part : Bool)
    (h : covered (link s (linkOf q)) f.tc (cellsOf (link s (linkOf q)).bl2 f.length) = true) :
    let e := entered s q f part
    arrive s q f part = if fenced (admitted e.1 e.2) (linkOf q) then
        dropFrame (bump (admitted e.1 e.2) (cLink (linkOf q) 16)) e.2
      else checkFrame e.2 (admitted e.1 e.2) := by
  have hl : link (entered s q f part).1 (linkOf q) = link s (linkOf q) := (entered_fr s q f part).link _
  intro e
  rw [arrive_eq, takeCells_eq, if_pos (by rw [hl]; exact h)]
  rfl

theorem arrive_of_not_covered {s : State} {q : Nat} {f : Frame} (part : Bool)
    (h : covered (link s (linkOf q)) f.tc (cellsOf (link s (linkOf q)).bl2 f.length) = false) :
    arrive s q f part = overrun (entered s q f part).1 q f := by
  have hl : link (entered s q f part).1 (linkOf q) = link s (linkOf q) := (entered_fr s q f part).link _
  rw [arrive_eq, takeCells_eq, if_neg (by rw [hl]; exact ne_true_of_eq_false h)]
  rfl

end Sys2Proof.Machine

/-! ### O37: frames arrive -/

namespace Sys2Proof.Machine

set_option Elab.async false

/-- A RETRY asks for the block that is expected (R81, R90). -/
theorem sendRetry_out (s : State) (q attempt : Nat) : (sendRetry s q attempt).out =
    s.out ++ [.os q osRETRY (mkBody [at_ 92 (lane s q).expect, at_ 88 attempt])] := by
  unfold sendRetry
  dsimp only
  rw [lane_modLane]
  rfl

theorem sendRetry_lane (s : State) (q attempt : Nat) : lane (sendRetry s q attempt) q = { lane s q with
    awaiting := true, attempt := attempt, retryAt := s.now, osOut := (lane (sendRetry s q attempt) q).osOut } := by
  have h : Kl false (modLane s q fun x => { x with awaiting := true, attempt := attempt, retryAt := s.now })
      (sendRetry s q attempt) := (Kl.of (bump_fr _ _)).step (sendOs_kl _ _ _ _)
  rw [h.lanes q, lane_modLane]

theorem sendRetry_cnt (s : State) (q attempt j : Nat) (hj : j ≠ cLane q 3) :
    cntGet (sendRetry s q attempt) j = cntGet s j := by
  unfold sendRetry
  dsimp only
  rw [cntGet_bump, if_neg hj]
  rfl

/-- R105: the first header check that fails on an UP lane is counted and the block asked for again; the second is the
lane's death. -/
theorem hcrcFailed_spec {s : State} {q : Nat} (hq : q < 4160) (up : (lane s q).state = 4) :
    cntGet (hcrcFailed s q) (cLink (linkOf q) 8) = (cntGet s (cLink (linkOf q) 8) + 1) % 2 ^ 64 ∧
    ((lane s q).hcrcBad = false → (lane (hcrcFailed s q) q).hcrcBad = true ∧ (lane (hcrcFailed s q) q).awaiting = true ∧
      (hcrcFailed s q).out = s.out ++ [.os q osRETRY (mkBody [at_ 92 (lane s q).expect, at_ 88 1])]) ∧
    ((lane s q).hcrcBad = true → LaneDied s (hcrcFailed s q) q 1) := by
  have hl : linkOf q < 2050 := by unfold linkOf; split <;> omega
  have counted : cntGet (bump s (cLink (linkOf q) 8)) (cLink (linkOf q) 8) =
      (cntGet s (cLink (linkOf q) 8) + 1) % 2 ^ 64 := by rw [cntGet_bump, if_pos rfl]
  unfold hcrcFailed
  dsimp only
  split
  · next bad =>
    have bad : (lane s q).hcrcBad = true := bad
    have upB : (lane (bump s (cLink (linkOf q) 8)) q).state = 3 ∨ (lane (bump s (cLink (linkOf q) 8)) q).state = 4 :=
      Or.inr up
    have died := laneDied_of_laneDie hq upB 3 false
    refine ⟨?_, fun h => absurd (bad.symm.trans h) (by decide), fun _ => ?_⟩
    · have steady : Steady (cLink (linkOf q) 8) := by unfold Steady cLink; omega
      rw [noteHealth_ck _ _ steady, laneDie_ck upB 3 false _ steady, deathNoted_cnt _ _ _ _ hq steady,
        if_neg (by unfold cLink cLane; omega), counted]
    · obtain ⟨hstate, hlane, hdead⟩ := died
      have own : Steady (cLane q 7) := by unfold Steady cLane; omega
      refine ⟨?_, ?_, ?_⟩
      · rw [(noteHealth_fr _).lane]
        exact hstate
      · rw [noteHealth_ck _ _ own, hlane, cntGet_bump, if_neg (by unfold cLink cLane; omega)]
      · rw [noteHealth_ck _ _ (Or.inl rfl), hdead, cntGet_bump, if_neg (by unfold cLink; omega)]
  · next bad =>
    have bad : ¬ (lane s q).hcrcBad = true := bad
    refine ⟨?_, fun _ => ⟨?_, ?_, ?_⟩, fun h => absurd h bad⟩
    · rw [sendRetry_cnt _ _ _ _ (by unfold cLink cLane; omega)]
      exact counted
    · rw [sendRetry_lane, lane_modLane]
    · rw [sendRetry_lane]
    · rw [sendRetry_out, lane_modLane]
      rfl

theorem covered_of_takeCells {s : State} {q n : Nat} {f : Frame} {k : State} (h : takeCells s q f n = some k) :
    covered (link s (linkOf q)) f.tc n = true := by
  rw [takeCells_eq] at h
  by_contra c
  rw [if_neg c] at h
  exact nomatch h

theorem not_covered_of_takeCells {s : State} {q n : Nat} {f : Frame} (h : takeCells s q f n = none) :
    covered (link s (linkOf q)) f.tc n = false := by
  rw [takeCells_eq] at h
  by_contra c
  rw [if_pos (by simpa using c)] at h
  exact nomatch h

/-- A frame that is no LINKCTL frame and not of an accepted version, type and class is refused (R105). -/
theorem checkFrame_of_badType {q : QFrame} (s : State) (notCtl : ¬ (q.f.tc = 0 ∧ q.f.type = tLINKCTL ∧ q.f.ver = 3))
    (bad : q.f.ver ≠ 3 ∨ typeOk q.f.type q.f.tc = false) : checkFrame q s = badType s q := by
  unfold checkFrame
  dsimp only
  rw [if_neg notCtl, if_pos (by simpa using bad)]

/-- A frame within its credits goes on from where it was counted (R102, R105, R368). -/
theorem arrive_av {s : State} {q : Nat} {f : Frame} (part : Bool)
    (h : covered (link s (linkOf q)) f.tc (cellsOf (link s (linkOf q)).bl2 f.length) = true) :
    Av (admitted (entered s q f part).1 (entered s q f part).2) (arrive s q f part) := by
  rw [arrive_of_covered part h]
  exact Av.ite ((bump_cLink_ak _ _ 16).trans (dropFrame_ak ..)).av (checkFrame_av _ _)

/-- What a frame within its credits has been counted as. -/
theorem admitted_spec (s : State) (q : Nat) (f : Frame) (part : Bool) (hq : q < 4160) :
    let t := admitted (entered s q f part).1 (entered s q f part).2
    let n := cellsOf (link s (linkOf q)).bl2 f.length
    cntGet t (cLink (linkOf q) 0) = (cntGet s (cLink (linkOf q) 0) + 1) % 2 ^ 64 ∧
      cntGet t (cLink (linkOf q) 2) = (cntGet s (cLink (linkOf q) 2) + n) % 2 ^ 64 ∧
      (∀ k, k < 32 → k ≠ 0 → k ≠ 2 → cntGet t (cLink (linkOf q) k) = cntGet s (cLink (linkOf q) k)) ∧
      tget 0 (link t (linkOf q)).received f.tc = (tget 0 (link s (linkOf q)).received f.tc + n) % 2 ^ 24 ∧
      fenced t (linkOf q) = fenced s (linkOf q) ∧ t.sw.queue = s.sw.queue ∧ lane t q = lane s q := by
  intro t n
  have fr := entered_fr s q f part
  have hl : link (entered s q f part).1 (linkOf q) = link s (linkOf q) := fr.link _
  have hn : inCells (entered s q f part).2 = n := rfl
  have hin : (entered s q f part).2.inLink = linkOf q := rfl
  have low (k : Nat) (hk : k < 32) : cLink (linkOf q) k < 0x34000 := by unfold cLink linkOf; split <;> omega
  have hlink : link t (linkOf q) = credited (link s (linkOf q)) f.tc n := by
    rw [← hl]
    exact link_setLink ..
  have cnt (j : Nat) : cntGet t j = cntGet (bumpN (bump (entered s q f part).1 (cLink (linkOf q) 0))
      (cLink (linkOf q) 2) n) j := rfl
  have apart : cLink (linkOf q) 0 ≠ cLink (linkOf q) 2 := by unfold cLink; omega
  refine ⟨?_, ?_, fun k hk h0 h2 => ?_, ?_, ?_, ?_, ?_⟩
  · rw [cnt, cntGet_bumpN, if_neg apart, cntGet_bump, if_pos rfl, entered_cnt _ _ _ _ _ (low 0 (by decide))]
  · rw [cnt, cntGet_bumpN, if_pos rfl, cntGet_bump, if_neg apart.symm, entered_cnt _ _ _ _ _ (low 2 (by decide))]
  · rw [cnt, cntGet_bumpN, if_neg (by unfold cLink; omega), cntGet_bump, if_neg (by unfold cLink; omega),
      entered_cnt _ _ _ _ _ (low k hk)]
  · rw [hlink]
    exact tget_tset_same ..
  · unfold fenced
    rw [hlink, show t.hlt = s.hlt from fr.hlt rfl]
    rfl
  · exact entered_queue s q f part
  · exact fr.lane q

/-- A frame beyond its credits raises its event and a resync, and goes nowhere (R102). -/
theorem overrun_spec (s : State) (q : Nat) (f : Frame) :
    cntGet (overrun s q f) 0x206 = (cntGet s 0x206 + 1) % 2 ^ 64 ∧ (overrun s q f).sw = s.sw ∧ Kl false s (overrun s q f) := by
  unfold overrun
  refine ⟨?_, ?_, (sendResync_kl _ _ _).step (Kl.of (raiseEvent_fr _ _ _ _ _))⟩
  · dsimp only
    rw [cntGet_congr ((sendResync_fr _ _ _).cnt rfl), raiseEvent_cnt _ _ _ _ _ _ (by decide), if_pos rfl]
  · exact ((sendResync_fr _ _ _).sw rfl).trans ((raiseEvent_fr _ _ _ _ _).sw rfl)

/-- What becomes of the counts, the link and the lane of a frame within its credits; a fence drops it, and what is not
accepted is counted (R102, R105, R368). -/
theorem arrive_covered_spec {s : State} {q : Nat} {f : Frame} (part : Bool) (hq : q < 4160)
    (h : covered (link s (linkOf q)) f.tc (cellsOf (link s (linkOf q)).bl2 f.length) = true) :
    let t := arrive s q f part
    let n := cellsOf (link s (linkOf q)).bl2 f.length
    (lane t q).hcrcBad = (lane s q).hcrcBad ∧
      cntGet t (cLink (linkOf q) 0) = (cntGet s (cLink (linkOf q) 0) + 1) % 2 ^ 64 ∧
      cntGet t (cLink (linkOf q) 2) = (cntGet s (cLink (linkOf q) 2) + n) % 2 ^ 64 ∧
      tget 0 (link t (linkOf q)).received f.tc = (tget 0 (link s (linkOf q)).received f.tc + n) % 2 ^ 24 ∧
      (fenced s (linkOf q) = true → cntGet t (cLink (linkOf q) 16) = (cntGet s (cLink (linkOf q) 16) + 1) % 2 ^ 64 ∧
        t.sw.queue = s.sw.queue) ∧
      (fenced s (linkOf q) = false → ¬ (f.tc = 0 ∧ f.type = tLINKCTL ∧ f.ver = 3) →
        f.ver ≠ 3 ∨ typeOk f.type f.tc = false →
        cntGet t (cLink (linkOf q) 9) = (cntGet s (cLink (linkOf q) 9) + 1) % 2 ^ 64) := by
  intro t n
  have hl : linkOf q < 2050 := by unfold linkOf; split <;> omega
  obtain ⟨hframes, hcells, hothers, hreceived, hfence, hqueue, hlane⟩ := admitted_spec s q f part hq
  have av := arrive_av part h
  have carried (k : Nat) (hk : k = 0 ∨ k = 2) : Carried (cLink (linkOf q) k) := by unfold Carried cLink; omega
  refine ⟨?_, ?_, ?_, ?_, fun fen => ?_, fun fen notCtl bad => ?_⟩
  · rw [av.lanes q, hlane]
  · rw [av.cnt _ (carried 0 (.inl rfl)), hframes]
  · rw [av.cnt _ (carried 2 (.inr rfl)), hcells]
  · rw [(av.links _).received rfl, hreceived]
  · have ht : t = _ := (arrive_of_covered part h).trans (if_pos (hfence.trans fen))
    rw [ht]
    refine ⟨?_, (congrArg Sw.queue ((dropFrame_fr _ _).sw rfl)).trans hqueue⟩
    rw [cntGet_congr ((dropFrame_fr _ _).cnt rfl), cntGet_bump, if_pos rfl,
      hothers 16 (by decide) (by decide) (by decide)]
  · have ht : t = _ := (arrive_of_covered part h).trans (if_neg (by rw [hfence]; exact ne_true_of_eq_false fen))
    rw [ht, checkFrame_of_badType _ notCtl bad]
    refine (badType_cnt _ (entered s q f part).2 hl).trans ?_
    rw [show (entered s q f part).2.inLink = linkOf q from rfl, hothers 9 (by decide) (by decide) (by decide)]

/-- A frame beyond its credits raises its event and a resync, and goes nowhere (R102). -/
theorem arrive_not_covered_spec {s : State} {q : Nat} {f : Frame} (part : Bool)
    (h : covered (link s (linkOf q)) f.tc (cellsOf (link s (linkOf q)).bl2 f.length) = false) :
    let t := arrive s q f part
    cntGet t 0x206 = (cntGet s 0x206 + 1) % 2 ^ 64 ∧ t.sw.queue = s.sw.queue ∧ Kl false s t := by
  obtain ⟨hevent, hsw, hkept⟩ := overrun_spec (entered s q f part).1 q f
  rw [arrive_of_not_covered part h]
  refine ⟨?_, ?_, hkept.step (.of (entered_fr s q f part))⟩
  · rw [hevent, entered_cnt _ _ _ _ _ (by decide)]
  · rw [hsw]
    exact entered_queue s q f part

theorem frameReceive_not_up {s : State} {q : Nat} (h : (lane s q).state ≠ 4) (hdr : List Word) (payload : List Byte) :
    frameReceive q hdr payload s = bumpN s (cLane q 6)
      (cellsOf (link s (linkOf q)).bl2 (readFrame (link s (linkOf q)).bl2 hdr payload).length) := if_pos h

theorem frameReceive_bad {s : State} {q : Nat} {hdr : List Word} (up : (lane s q).state = 4)
    (h : hcrcOk (link s (linkOf q)).bl2 hdr = false) (payload : List Byte) :
    frameReceive q hdr payload s = hcrcFailed s q := by
  unfold frameReceive
  dsimp only
  rw [if_neg (by simp [up]), if_pos (by simp [h])]

theorem frameReceive_good {s : State} {q : Nat} {hdr : List Word} (up : (lane s q).state = 4)
    (h : hcrcOk (link s (linkOf q)).bl2 hdr = true) (payload : List Byte) :
    frameReceive q hdr payload s = arrive (modLane s q fun x => { x with hcrcBad := false }) q
      (readFrame (link s (linkOf q)).bl2 hdr payload) false := by
  unfold frameReceive
  dsimp only
  rw [if_neg (by simp [up]), if_neg (by simp [h])]

/-- Settles O37: a failed header check is `hcrcFailed_spec`; a frame within its credits is counted, and nothing on its
further way moves those counts, its link's RECEIVED or its lane (`arrive_covered_spec`); one beyond them is
`arrive_not_covered_spec`. -/
theorem framesArrive : Obligations.FramesArrive := by
  unfold Obligations.FramesArrive
  rintro s q l hdr payload f hq rfl rfl
  refine ⟨fun h => ?_, fun up bad => ?_, fun k up good h => ?_, fun up good h => ?_⟩
  · exact congrArg Host.Outcome.next (frameReceive_not_up h hdr payload)
  · exact ⟨_, congrArg Host.Outcome.next (frameReceive_bad up bad payload), hcrcFailed_spec hq up⟩
  · obtain ⟨hbad, hrest⟩ := arrive_covered_spec (s := modLane s q fun x => { x with hcrcBad := false }) false hq
      (covered_of_takeCells h :)
    exact ⟨_, congrArg Host.Outcome.next (frameReceive_good up good payload), hbad.trans (by rw [lane_modLane]), hrest⟩
  · obtain ⟨hevent, hqueue, hkept⟩ := arrive_not_covered_spec (s := modLane s q fun x => { x with hcrcBad := false })
      false (not_covered_of_takeCells h :)
    refine ⟨_, congrArg Host.Outcome.next (frameReceive_good up good payload), hevent, hqueue, ?_⟩
    rw [(hkept.links _).received rfl]
    rfl

end Sys2Proof.Machine

/-! ### Blocks sent: R60, R76 to R80, R83, R86, R89 -/

namespace Sys2Proof.Machine

set_option Elab.async false

/-- The place of a part of State in the masks of `Fr`. -/
def Part.place : Part → Nat
  | .free => 0 | .regs => 1 | .out => 2 | .boot => 3 | .pwr => 4 | .opt => 5 | .lnk => 6 | .sw => 7 | .tbl => 8
  | .cru => 9 | .plan => 10 | .coll => 11 | .mem => 12 | .tim => 13 | .hif => 14 | .hlt => 15 | .cnt => 16 | .clock => 17

theorem Fr.same {m : Nat} {s t : State} (h : Fr m s t) (p : Part) (hp : m.testBit p.place = false) : p.same s t := by
  cases p with
  | free => exact h.freeCtr hp
  | regs => exact h.regs hp
  | out => exact h.out hp
  | boot => exact h.boot hp
  | pwr => exact h.pwr hp
  | opt => exact h.opt hp
  | lnk => exact h.lnk hp
  | sw => exact h.sw hp
  | tbl => exact h.tbl hp
  | cru => exact h.cru hp
  | plan => exact h.plan hp
  | coll => exact h.coll hp
  | mem => exact h.mem hp
  | tim => exact h.tim hp
  | hif => exact h.hif hp
  | hlt => exact h.hlt hp
  | cnt => exact h.cnt hp
  | clock => exact h.now hp

/-- The mask of an operation as the list of parts that it may write. -/
theorem Fr.onlyChanges {m : Nat} {s t : State} (h : Fr m s t) (l : List Part)
    (hl : ∀ p ∈ allParts, p ∉ l → m.testBit p.place = false := by decide) : OnlyChanges l s t :=
  ⟨h.pending, h.variant, h.later, fun p hp => h.same p (hl p (by cases p <;> decide) hp)⟩

/-! #### Blocks on the line -/

theorem duplicating_congr {s t : State} (h : t.opt = s.opt) (q : Nat) : duplicating t q = duplicating s q := by
  unfold duplicating swapOf; rw [h]

theorem emitBlock_blockOut {s x : State} {q : Nat} (hdr : BitVec 40) (cells : List (List Byte))
    (h : duplicating x q = duplicating s q) : BlockOut s (emitBlock x q hdr cells) q hdr cells := by
  have e : (emitBlock x q hdr cells).out = x.out ++ [.block q (duplicating x q) hdr cells (blockLevels hdr cells)] := rfl
  unfold BlockOut
  rw [e, List.getLast?_concat, h]

@[simp] theorem emitBlock_lnk (s : State) (q : Nat) (hdr : BitVec 40) (cells : List (List Byte)) :
    (emitBlock s q hdr cells).lnk = s.lnk := rfl

theorem popSets_lane (s : State) (q : Nat) :
    lane (popSets s q).1 q = { lane s q with osOut := (lane s q).osOut.drop 16 } := by
  unfold popSets
  dsimp only
  rw [lane_modLane, (stampSets_fr s q).lane]

theorem popSets_kl (s : State) (q : Nat) : Kl false s (popSets s q).1 := by
  refine Kl.step (x := (stampSets s q).1) ⟨fun j => ?_, fun _ => LinkKept.refl _ _⟩ (.of (stampSets_fr s q))
  unfold popSets
  dsimp only
  by_cases h : j = q
  · rw [h, lane_modLane]
  · rw [show lane (modLane (stampSets s q).1 q _) j = lane (stampSets s q).1 j from tget_tset_other _ _ _ _ _ _ h]

/-! #### A block without a sequence number -/

theorem sendNoseq_lane (s : State) (q : Nat) (prbs : Bool) : lane (sendNoseq s q prbs) q = { lane s q with
    osOut := (lane s q).osOut.drop 16
    prbs := if prbs then (prbsCells 4 (lane s q).prbs).1 else (lane s q).prbs } := by
  unfold sendNoseq
  dsimp only
  rw [lane_congr (emitBlock_lnk _ _ _ _), lane_modLane, popSets_lane]
  cases prbs <;> rfl

theorem sendNoseq_blockOut (s : State) (q : Nat) (prbs : Bool) :
    BlockOut s (sendNoseq s q prbs) q (blockHdr 0 (lane s q).expect (if prbs then 16 else 31) false true)
      (controlCell (stampSets s q).2 ::
        if prbs then (prbsCells 4 (lane s q).prbs).2 else List.replicate 4 (List.replicate 256 0)) := by
  have h : BlockOut s (sendNoseq s q prbs) q _ _ :=
    emitBlock_blockOut _ _ (duplicating_congr ((popSets_fr s q).opt rfl) q)
  cases prbs <;> exact h

/-! #### A held block again -/

theorem sendReplay_lane (s : State) (q : Nat) (b : Block) :
    (lane (sendReplay s q b) q).held = (lane s q).held ∧ (lane (sendReplay s q b) q).nextSeq = (lane s q).nextSeq := by
  have sets : Kl false s (if nth false b.ctl 4 then popSets s q else (s, [])).1 :=
    Kl.ite1 (popSets_kl s q) (Kl.refl _ s)
  unfold sendReplay
  dsimp only
  rw [lane_congr (emitBlock_lnk _ _ _ _), lane_congr (bump_lnk _ _), lane_modLane]
  dsimp only
  rw [sets.lanes q]
  exact ⟨rfl, rfl⟩

theorem nth_map_range {α : Type} (d : α) (f : Nat → α) (n i : Nat) (h : i < n) : nth d ((List.range n).map f) i = f i := by
  unfold nth
  simp [h]

/-- The data cells of a replayed block are those it was held with (R89). -/
theorem sendReplay_blockOut (s : State) (q : Nat) (b : Block) :
    ∃ cells, BlockOut s (sendReplay s q b) q (blockHdr b.seq (lane s q).expect (cellMap b.ctl) true false) cells ∧
      ∀ i, i < 5 → nth false b.ctl i = false → nth [] cells i = nth [] b.cells i := by
  have sets : (if nth false b.ctl 4 then popSets s q else (s, [])).1.opt = s.opt := by
    split
    · exact (popSets_fr s q).opt rfl
    · rfl
  refine ⟨_, emitBlock_blockOut _ _ (duplicating_congr sets q), fun i hi hc => ?_⟩
  rw [nth_map_range _ _ _ _ hi, if_neg (ne_true_of_eq_false hc)]

/-! #### A sequenced block -/

/-- A MARK changes no swap's phase. -/
theorem duplicating_markBlock (s : State) (q seq frames : Nat) (slot0 : Bool) :
    duplicating (markBlock s q seq frames slot0) q = duplicating s q := by
  unfold markBlock
  split
  · rfl
  next w hw =>
  have phase : w.phase ≠ 0 ∧ duplicating s q = (w.phase == 3 || w.phase == 4) := by
    refine ⟨?_, by unfold duplicating; rw [hw]⟩
    unfold swapOf at hw
    dsimp only at hw
    split at hw
    · exact nomatch hw
    · exact Option.some.inj hw ▸ ‹_›
  have put (x : State) (v : Swap) (hv : v.phase = w.phase) (hx : x.opt = (setSwap s .tx q v).opt) :
      duplicating x q = duplicating s q := by
    rw [duplicating_congr hx, phase.2]
    unfold duplicating swapOf setSwap
    dsimp only
    rw [tget_tset_same, if_neg (by rw [hv]; exact phase.1)]
    dsimp only
    rw [hv]
  split
  · rfl
  dsimp only
  split
  · exact put _ { w with mark := (w.mark + 1) % 2 ^ 16, sinceMark := 0, marks := addNew w.marks w.mark } rfl rfl
  · exact put _ { w with sinceMark := w.sinceMark + frames } rfl rfl

theorem markBlock_kl (s : State) (q seq frames : Nat) (slot0 : Bool) : Kl false s (markBlock s q seq frames slot0) := by
  unfold markBlock
  split
  · exact Kl.refl _ s
  split
  · exact Kl.refl _ s
  dsimp only
  split
  · exact (sendOs_kl _ _ _ _).step (.of (setSwap_fr _ _ _ _))
  · exact .of (setSwap_fr _ _ _ _)

theorem freeOwed_kl (s : State) (c : BufCell) : Kl false s (freeOwed s c) := by
  unfold freeOwed
  split
  · exact Kl.refl _ s
  · exact freeCredit_kl _ _ _ _

theorem sampleFrame_cnt (s : State) (d : Nat) (q : QFrame) (f : Frame) (j : Nat) (hj : j < 0x34000) :
    cntGet (sampleFrame s d q f) j = cntGet s j := by
  have record (x : State) (r : List Word) : cntGet (sampleRecord x d 3 r) j = cntGet x j := by
    unfold sampleRecord
    dsimp only
    split <;> rw [cntGet_bump, if_neg (by unfold cDie; omega)]
    rfl
  unfold sampleFrame
  dsimp only
  split
  · rfl
  split
  · rfl
  · exact (record _ _).trans rfl

/-- A first cell that leaves moves TX_FRAMES (1) and DETOUR_OUT (6) of its link, and counters of the die. -/
theorem firstCellOut_cnt (s : State) (q : Nat) (c : BufCell) (j : Nat) (hj : j < 0x34000)
    (h1 : j ≠ cLink (linkOf q) 1) (h6 : j ≠ cLink (linkOf q) 6) : cntGet (firstCellOut s q c) j = cntGet s j := by
  unfold firstCellOut
  split
  · rfl
  dsimp only
  rw [tapFrame_cnt _ _ _ _ _ _ _ hj, sampleFrame_cnt _ _ _ _ _ hj, cntGet_congr (emit_cnt _ _)]
  split
  · rw [cntGet_bump, if_neg h6, cntGet_bump, if_neg h1]
  · rw [cntGet_bump, if_neg h1]

/-- The cells that a sequenced block takes from the lane buffer. -/
def dataTaken (x : Lane) : List BufCell := x.buf.take (if x.osOut.isEmpty then 5 else 4)

/-- A sequenced block as it is sent and held, with the ordered sets that go with it (R79, R89). -/
def dataBlock (x : Lane) (sets : List (Nat × BitVec 104)) : Block where
  seq := x.nextSeq
  cells := (List.range 5).map fun i =>
    if i < (dataTaken x).length then (nth {} (dataTaken x) i).bytes
    else if i = 4 then controlCell sets else List.replicate 256 0
  ctl := (List.range 5).map fun i => decide ((dataTaken x).length ≤ i)

/-- Before its block is held: the cells have left the buffer, a MARK may have been sent. -/
def dataMarked (s : State) (q : Nat) : State :=
  let x := lane s q
  markBlock (modLane s q fun x => { x with buf := x.buf.drop (if (lane s q).osOut.isEmpty then 5 else 4) }) q x.nextSeq
    ((dataTaken x).filter (·.first)).length (((dataTaken x).head?.map (·.first)).getD false)

/-- The ordered sets that go with a sequenced block: those that wait, where a cell is left for them. -/
def dataSets (s : State) (q : Nat) : State × List (Nat × BitVec 104) :=
  if (dataTaken (lane s q)).length < 5 then popSets (dataMarked s q) q else (dataMarked s q, [])

/-- The block is held and counted. -/
def dataHeld (s : State) (q : Nat) : State :=
  bumpN (modLane (dataSets s q).1 q fun x => { x with
      nextSeq := (x.nextSeq + 1) % 4096, held := x.held ++ [dataBlock (lane s q) (dataSets s q).2] })
    (cLink (linkOf q) 3) (dataTaken (lane s q)).length

/-- Its cells free their credits, and its first cells are counted, sampled and tapped. -/
def dataLeft (s : State) (q : Nat) : State :=
  forEach ((dataTaken (lane s q)).filter (·.first)) (forEach (dataTaken (lane s q)) (dataHeld s q) freeOwed)
    fun s c => firstCellOut s q c

theorem sendData_eq (s : State) (q : Nat) :
    sendData s q = emitBlock (dataLeft s q) q (blockHdr (lane s q).nextSeq (lane s q).expect
      (cellMap (dataBlock (lane s q) (dataSets s q).2).ctl) false false) (dataBlock (lane s q) (dataSets s q).2).cells :=
  rfl

theorem dataMarked_kl (s : State) (q : Nat) : Kl false (modLane s q fun x =>
    { x with buf := x.buf.drop (if (lane s q).osOut.isEmpty then 5 else 4) }) (dataMarked s q) := markBlock_kl _ _ _ _ _

theorem dataSets_kl (s : State) (q : Nat) : Kl false (dataMarked s q) (dataSets s q).1 :=
  Kl.ite1 (popSets_kl _ q) (Kl.refl _ _)

theorem dataLeft_kl (s : State) (q : Nat) : Kl false (dataHeld s q) (dataLeft s q) :=
  Kl.forEach _ _ (fun y c => .of (firstCellOut_fr y q c)) (Kl.forEach _ _ freeOwed_kl (Kl.refl _ _))

/-- The lane after its block: the next sequence number, the cells gone from the buffer, the block held (R89). -/
theorem sendData_lane (s : State) (q : Nat) : lane (sendData s q) q = { lane s q with
    nextSeq := ((lane s q).nextSeq + 1) % 4096
    buf := (lane s q).buf.drop (if (lane s q).osOut.isEmpty then 5 else 4)
    held := (lane s q).held ++ [dataBlock (lane s q) (dataSets s q).2]
    osOut := (lane (sendData s q) q).osOut } := by
  have held : lane (dataHeld s q) q = { lane (dataSets s q).1 q with
      nextSeq := ((lane (dataSets s q).1 q).nextSeq + 1) % 4096
      held := (lane (dataSets s q).1 q).held ++ [dataBlock (lane s q) (dataSets s q).2] } := by
    unfold dataHeld
    rw [lane_congr (bumpN_lnk _ _ _), lane_modLane]
  rw [sendData_eq, lane_congr (emitBlock_lnk _ _ _ _), (dataLeft_kl s q).lanes q, held, (dataSets_kl s q).lanes q,
    (dataMarked_kl s q).lanes q, lane_modLane]

theorem dataLeft_duplicating (s : State) (q : Nat) : duplicating (dataLeft s q) q = duplicating s q := by
  have left : Fr 82117 (dataHeld s q) (dataLeft s q) :=
    Fr.forEach _ _ (fun y c => (firstCellOut_fr y q c).mono)
      (Fr.forEach _ _ (fun y c => (freeOwed_fr y c).mono) (Fr.refl _ _))
  have sets : (dataSets s q).1.opt = (dataMarked s q).opt := by
    unfold dataSets
    split
    · exact (popSets_fr _ q).opt rfl
    · rfl
  rw [duplicating_congr (left.opt rfl), duplicating_congr (t := dataHeld s q) sets]
  exact duplicating_markBlock _ _ _ _ _

theorem sendData_blockOut (s : State) (q : Nat) : BlockOut s (sendData s q) q
    (blockHdr (lane s q).nextSeq (lane s q).expect (cellMap (dataBlock (lane s q) (dataSets s q).2).ctl) false false)
    (dataBlock (lane s q) (dataSets s q).2).cells := by
  rw [sendData_eq]
  exact emitBlock_blockOut _ _ (dataLeft_duplicating s q)

/-- TX_DATA_CELLS (3) of the link rises by the cells sent (R392). -/
theorem sendData_cnt (s : State) (q : Nat) (hq : q < 4160) : cntGet (sendData s q) (cLink (linkOf q) 3) =
    (cntGet s (cLink (linkOf q) 3) + (dataTaken (lane s q)).length) % 2 ^ 64 := by
  have low : cLink (linkOf q) 3 < 0x34000 := by unfold cLink linkOf; split <;> omega
  have first (y : State) (c : BufCell) : cntGet (firstCellOut y q c) (cLink (linkOf q) 3) = cntGet y (cLink (linkOf q) 3) :=
    firstCellOut_cnt y q c _ low (by unfold cLink; omega) (by unfold cLink; omega)
  have sets : (dataSets s q).1.cnt = s.cnt := by
    have marked : (dataMarked s q).cnt = s.cnt := (markBlock_fr _ _ _ _ _).cnt rfl
    unfold dataSets
    split
    · exact ((popSets_fr _ q).cnt rfl).trans marked
    · exact marked
  calc cntGet (sendData s q) (cLink (linkOf q) 3)
    _ = cntGet (dataLeft s q) (cLink (linkOf q) 3) := by rw [sendData_eq]; rfl
    _ = cntGet (dataHeld s q) (cLink (linkOf q) 3) := by
      unfold dataLeft
      rw [forEach_cnt _ _ _ _ first, forEach_cnt _ _ _ _ fun y c => cntGet_congr ((freeOwed_fr y c).cnt rfl) _]
    _ = _ := by
      unfold dataHeld
      rw [cntGet_bumpN, if_pos rfl, cntGet_congr (modLane_cnt _ _ _), cntGet_congr sets]

/-! #### What a lane sends -/

theorem blockTransmit_silent {s : State} {q : Nat} (h : engineLit s (engineOfLane q) = false ∨ (lane s q).state = 7 ∨
    ((lane s q).state = 5 ∧ sprueHas s .tx (workKey s q) = true)) : blockTransmit q s = s := by
  unfold blockTransmit
  dsimp only
  rw [if_pos]
  rcases h with h | h | ⟨h, hs⟩
  · simp [h]
  · simp [h]
  · simp [h, hs]

theorem blockTransmit_idle {s : State} {q : Nat} (lit : engineLit s (engineOfLane q) = true) (h4 : (lane s q).state ≠ 4)
    (h5 : (lane s q).state ≠ 5) (h7 : (lane s q).state ≠ 7) :
    blockTransmit q s = sendNoseq s q (decide ((lane s q).state = 3)) := by
  unfold blockTransmit
  dsimp only
  rw [if_neg (by simp [lit, h5, h7])]
  split
  · next h => rw [decide_eq_true h]
  · next h => rw [if_neg (by simp [h4, h5]), decide_eq_false h]

theorem blockTransmit_up {s : State} {q : Nat} (lit : engineLit s (engineOfLane q) = true) (up : (lane s q).state = 4) :
    blockTransmit q s = match (lane s q).replay.bind fun n => (lane s q).held.find? fun b => b.seq == n with
      | some b => sendReplay s q b
      | none => if (lane s q).held.length ≥ 32 || (lane s q).buf.isEmpty then sendNoseq s q false else sendData s q := by
  unfold blockTransmit
  dsimp only
  exact (if_neg (by simp [lit, up])).trans ((if_neg (by simp [up])).trans (if_pos (by simp [up])))

end Sys2Proof.Machine

/-! ### Blocks that arrive: R74 to R80, R84, R87, R89, R90 -/

namespace Sys2Proof.Machine

set_option Elab.async false

/-! #### The code words and the header check: R77, R78 -/

theorem readBlock_isSome (v : List Nat) : (readBlock v).block.isSome = true ↔
    (rsDecode rsLane (lineSyms 544 v)).isSome = true ∧ (rsDecode rsLane (lineSyms 544 (v.drop 2720))).isSome = true := by
  unfold readBlock
  generalize rsDecode rsLane (lineSyms 544 v) = a
  generalize rsDecode rsLane (lineSyms 544 (v.drop 2720)) = b
  cases a with
  | none => exact ⟨nofun, fun h => nomatch h.1⟩
  | some x =>
    cases b with
    | none => exact ⟨nofun, fun h => nomatch h.2⟩
    | some y => exact ⟨fun _ => ⟨rfl, rfl⟩, fun _ => rfl⟩

/-- A block is good when both its code words decode and its header check matches (R78). -/
theorem goodBlock_isSome (v : List Nat) : (goodBlock v).isSome = true ↔
    (rsDecode rsLane (lineSyms 544 v)).isSome = true ∧ (rsDecode rsLane (lineSyms 544 (v.drop 2720))).isSome = true ∧
      ∀ x, (readBlock v).block = some x → hcrc8 x.1.toNat = x.1.toNat % 256 := by
  rw [← and_assoc, ← readBlock_isSome]
  unfold goodBlock hcrcGood
  cases (readBlock v).block with
  | none => simp
  | some x => simp [Option.filter]

/-! #### Block lock: R67, R78, R84 -/

/-- The counts of good and bad blocks and the lock of a lane after one more block. -/
def lockCounted (x : Lane) (good : Bool) : Lane :=
  let g := if good then min 8 (x.good + 1) else 0
  let b := if good then 0 else min 4 (x.bad + 1)
  { x with good := g, bad := b, blockLock := if 8 ≤ g then true else if 4 ≤ b then false else x.blockLock }

/-- The lane with them, as it enters POSITION with its lock or LOCKING without. -/
def lockFollowed (s : State) (q : Nat) (good : Bool) : Lane :=
  let x := lockCounted (lane s q) good
  if x.blockLock && x.state == 1 && channelsLocked s q then { x with state := 2, posSeen := false, lastPosSent := 0 }
  else if !x.blockLock && x.state == 2 then { x with state := 1 }
  else x

theorem lockCounted_good (x : Lane) : lockCounted x true = { x with
    good := min 8 (x.good + 1), bad := 0, blockLock := x.blockLock || decide (7 ≤ x.good) } := by
  have h : 8 ≤ min 8 (x.good + 1) ↔ 7 ≤ x.good := by omega
  unfold lockCounted
  by_cases g : 7 ≤ x.good <;> simp [h, g]

theorem lockCounted_bad (x : Lane) : lockCounted x false = { x with
    good := 0, bad := min 4 (x.bad + 1), blockLock := x.blockLock && decide (x.bad < 3) } := by
  have h : 4 ≤ min 4 (x.bad + 1) ↔ ¬ x.bad < 3 := by omega
  unfold lockCounted
  by_cases g : x.bad < 3 <;> simp [h, g]

theorem lockStep_eq (s : State) (q : Nat) (good : Bool) : lockStep s q good =
    let x := lockCounted (lane s q) good
    let t := setLane s q x
    if x.blockLock && x.state == 1 && channelsLocked s q then laneToPosition t q
    else if !x.blockLock && x.state == 2 then refreshLink (putLaneState t q 1) (linkOf q) 0 false
    else t := rfl

theorem lockStep_lane (s : State) (q : Nat) (good : Bool) : lane (lockStep s q good) q =
    { lockFollowed s q good with osOut := (lane (lockStep s q good) q).osOut } := by
  rw [lockStep_eq]
  unfold lockFollowed
  dsimp only
  split
  · unfold laneToPosition
    rw [(refreshLink_kl _ _ _ _).lanes q, lane_modLane, lane_setLane]
  split
  · unfold putLaneState
    rw [(refreshLink_kl _ _ _ _).lanes q, lane_modLane, lane_setLane]
  · rw [lane_setLane]

/-- On an UP lane nothing follows the lock. -/
theorem lockStep_up {s : State} {q : Nat} (up : (lane s q).state = 4) (good : Bool) :
    lockStep s q good = setLane s q (lockCounted (lane s q) good) := by
  have h : (lockCounted (lane s q) good).state = 4 := up
  rw [lockStep_eq]
  dsimp only
  rw [if_neg (by simp [h]), if_neg (by simp [h])]

theorem lockFollowed_not_up {s : State} {q : Nat} (h : (lane s q).state ≠ 4) (good : Bool) :
    (lockFollowed s q good).state ≠ 4 := by
  unfold lockFollowed
  dsimp only
  split
  · exact (by decide : (2 : Nat) ≠ 4)
  split
  · exact (by decide : (1 : Nat) ≠ 4)
  · exact h

/-- What follows the lock leaves the lock and its counts as they are. -/
theorem lockFollowed_counts (s : State) (q : Nat) (good : Bool) :
    (lockFollowed s q good).good = (lockCounted (lane s q) good).good ∧
      (lockFollowed s q good).bad = (lockCounted (lane s q) good).bad ∧
      (lockFollowed s q good).blockLock = (lockCounted (lane s q) good).blockLock := by
  unfold lockFollowed
  dsimp only
  split
  · exact ⟨rfl, rfl, rfl⟩
  split <;> exact ⟨rfl, rfl, rfl⟩

/-- The eighth good block takes a lane whose channels are locked from LOCKING to POSITION (R84). -/
theorem lockFollowed_locked {s : State} {q : Nat} (h1 : (lane s q).state = 1) (h7 : 7 ≤ (lane s q).good)
    (hc : channelsLocked s q = true) : (lockFollowed s q true).state = 2 := by
  unfold lockFollowed
  rw [lockCounted_good]
  dsimp only
  rw [if_pos (by simp [h1, h7, hc])]

theorem lockStep_cnt (s : State) (q : Nat) (good : Bool) (j : Nat) (h1 : 0x203 < j) (h2 : j < 0x34000) :
    cntGet (lockStep s q good) j = cntGet s j := by
  have link (x : State) (l : Nat) : cntGet (refreshLink x l 0 false) j = cntGet x j :=
    refreshLink_cnt x l 0 false j h1 h2 nofun
  rw [lockStep_eq]
  dsimp only
  split
  · exact link _ _
  split
  · exact link _ _
  · rfl

/-! #### A block is counted: R52, R393 -/

/-- The state in which a block's lock is judged: its errors counted for the margin and for FEC. -/
def counted (s : State) (q ch : Nat) (v : List Nat) : State :=
  fecCount (countMargin s q ch (readBlock v).bits (readBlock v).undecoded) q (readBlock v)

theorem counted_fr (s : State) (q ch : Nat) (v : List Nat) : Fr 65600 s (counted s q ch v) :=
  (fecCount_fr _ _ _).step ((countMargin_fr s q ch _ _).mono)

theorem countMargin_lane (s : State) (q ch bits undecoded : Nat) : lane (countMargin s q ch bits undecoded) q =
    { lane s q with quickErr := (lane (countMargin s q ch bits undecoded) q).quickErr } := by
  unfold countMargin
  dsimp only
  split
  · rfl
  split
  · rw [lane_modLane]
  · rw [lane_modLink]

theorem counted_lane (s : State) (q ch : Nat) (v : List Nat) : lane (counted s q ch v) q =
    { lane s q with quickErr := (lane (counted s q ch v) q).quickErr } := by
  unfold counted
  generalize readBlock v = b
  rw [(fecCount_fr _ q b).lane]
  exact countMargin_lane s q ch b.bits b.undecoded

theorem countMargin_bl2 (s : State) (q ch bits undecoded l : Nat) :
    (link (countMargin s q ch bits undecoded) l).bl2 = (link s l).bl2 := by
  unfold countMargin
  dsimp only
  split
  · rfl
  split
  · rw [link_modLane]
  · by_cases h : l = linkOf q
    · rw [h, link_modLink]
    · rw [show link (modLink s (linkOf q) _) l = link s l from tget_tset_other _ _ _ _ _ _ h]

theorem counted_bl2 (s : State) (q ch : Nat) (v : List Nat) (l : Nat) :
    (link (counted s q ch v) l).bl2 = (link s l).bl2 := by
  unfold counted
  generalize readBlock v = b
  rw [(fecCount_fr _ q b).link]
  exact countMargin_bl2 s q ch b.bits b.undecoded l

theorem counted_cnt (s : State) (q ch : Nat) (v : List Nat) :
    cntGet (counted s q ch v) (cLane q 2) = (cntGet s (cLane q 2) + (readBlock v).undecoded) % 2 ^ 64 ∧
      cntGet (counted s q ch v) (cLane q 6) = cntGet s (cLane q 6) := by
  have margin (j : Nat) : cntGet (countMargin s q ch (readBlock v).bits (readBlock v).undecoded) j = cntGet s j :=
    cntGet_congr ((countMargin_fr s q ch _ _).cnt rfl) j
  have apart (a b : Nat) (h : a ≠ b) : cLane q a ≠ cLane q b := by unfold cLane; omega
  unfold counted fecCount
  refine ⟨?_, ?_⟩
  · rw [cntGet_bumpN, if_pos rfl, cntGet_bumpN, if_neg (apart 2 1 (by decide)), cntGet_bumpN,
      if_neg (apart 2 0 (by decide)), margin]
  · rw [cntGet_bumpN, if_neg (apart 6 2 (by decide)), cntGet_bumpN, if_neg (apart 6 1 (by decide)), cntGet_bumpN,
      if_neg (apart 6 0 (by decide)), margin]

/-- The channels of a lane, and what a swap makes of them, do not depend on the counts. -/
theorem countMargin_laneKey (s : State) (q ch bits undecoded : Nat) (d : Dir) :
    laneKey (countMargin s q ch bits undecoded) d q = laneKey s d q := by
  unfold countMargin
  dsimp only
  split
  · rfl
  split <;> rfl

theorem countMargin_channelsLocked (s : State) (q ch bits undecoded : Nat) :
    channelsLocked (countMargin s q ch bits undecoded) q = channelsLocked s q := by
  unfold countMargin
  dsimp only
  split
  · rfl
  split <;> rfl

theorem bumpN_channelsLocked (s : State) (i n q : Nat) : channelsLocked (bumpN s i n) q = channelsLocked s q := rfl

theorem counted_channelsLocked (s : State) (q ch : Nat) (v : List Nat) :
    channelsLocked (counted s q ch v) q = channelsLocked s q := by
  unfold counted
  generalize readBlock v = b
  unfold fecCount
  rw [bumpN_channelsLocked, bumpN_channelsLocked, bumpN_channelsLocked, countMargin_channelsLocked]

theorem blockReceive_dark {s : State} {q : Nat} (h : engineLit s (engineOfLane q) = false) (ch : Nat) (v : List Nat) :
    blockReceive q ch v s = s := by
  unfold blockReceive
  rw [if_pos (by simp [h])]

/-- A block that is not good, on the channel that the lane's data are taken from. -/
theorem blockReceive_bad {s : State} {q ch : Nat} {v : List Nat} (lit : engineLit s (engineOfLane q) = true)
    (own : ch = chanCode (laneKey s .rx q)) (h : goodBlock v = none) :
    blockReceive q ch v s = badBlock (lockStep (counted s q ch v) q false) q := by
  unfold goodBlock at h
  unfold blockReceive counted
  generalize readBlock v = b at h ⊢
  dsimp only
  rw [if_neg (by simp [lit]), if_pos (by rw [countMargin_laneKey]; exact own), h]
  rfl

/-- A good block, on that channel. -/
theorem blockReceive_good {s : State} {q ch : Nat} {v : List Nat} {hdr : BitVec 40} {cells : List (List Byte)}
    (lit : engineLit s (engineOfLane q) = true) (own : ch = chanCode (laneKey s .rx q))
    (h : goodBlock v = some (hdr, cells)) :
    blockReceive q ch v s = takeGood (lockStep (counted s q ch v) q true) q hdr cells := by
  unfold goodBlock at h
  unfold blockReceive counted
  generalize readBlock v = b at h ⊢
  dsimp only
  rw [if_neg (by simp [lit]), if_pos (by rw [countMargin_laneKey]; exact own), h]
  rfl

end Sys2Proof.Machine

/-! ### O36: blocks sent and taken -/

namespace Sys2Proof.Machine

set_option Elab.async false

/-! #### A block that is not good -/

/-- What a block that is not good leaves of the lock (R78); on an UP lane it may be asked for again (R90). -/
theorem badBlock_lock (s : State) (q : Nat) :
    (lane (badBlock s q) q).good = (lane s q).good ∧ (lane (badBlock s q) q).bad = (lane s q).bad ∧
      (lane (badBlock s q) q).blockLock = (lane s q).blockLock := by
  unfold badBlock
  dsimp only
  split
  · rw [sendRetry_lane]
    exact ⟨rfl, rfl, rfl⟩
  · exact ⟨rfl, rfl, rfl⟩

theorem badBlock_asks {s : State} {q : Nat} (up : (lane s q).state = 4) (idle : (lane s q).awaiting = false) :
    badBlock s q = sendRetry s q 1 := by
  unfold badBlock
  dsimp only
  rw [if_pos (by simp [up, idle])]

/-! #### A good block without control cells -/

/-- After the acknowledgement of a block, and a switchover that falls on it (R83, R89). -/
def acked (s : State) (q : Nat) (hdr : BitVec 40) : State :=
  trySwitch q (if (lane s q).state = 4 then ackBlocks s q (hAck hdr) else s)

theorem dataCells_length {hdr : BitVec 40} (h : ∀ i, i < 5 → hCtl hdr i = false) (cells : List (List Byte)) :
    (dataCells hdr cells).length = 5 := by
  have all : (List.range 5).filter (fun i => !hCtl hdr i) = List.range 5 :=
    List.filter_eq_self.2 fun i hi => by simp [h i (List.mem_range.1 hi)]
  unfold dataCells
  rw [List.length_map, all, List.length_range]

/-- Without control cells a good block is its acknowledgement and its data cells. -/
theorem takeGood_data {hdr : BitVec 40} (h : ∀ i, i < 5 → hCtl hdr i = false) (s : State) (q : Nat)
    (cells : List (List Byte)) : takeGood s q hdr cells = if hNoseq hdr then
        bumpN (acked s q hdr) (cLane q 6) (if (lane (acked s q hdr) q).state = 4 then 0 else (dataCells hdr cells).length)
      else takeBlock (acked s q hdr) q (hSeq hdr) (dataCells hdr cells) := by
  have none : (List.range 5).filter (hCtl hdr) = [] :=
    List.filter_eq_nil_iff.2 fun i hi => by simp [h i (List.mem_range.1 hi)]
  unfold takeGood
  dsimp only
  rw [none]
  rfl

theorem trySwitch_none {s : State} {q : Nat} (h : swapOf s .rx q = none) : trySwitch q s = s := by
  unfold trySwitch
  rw [h]

theorem trySwitch_kl (s : State) (q : Nat) : Kl false s (trySwitch q s) := by
  have drop (w : Swap) (m : Nat) : Kl false s (switchDrop s q m w) := by
    unfold switchDrop
    exact (Kl.of (raiseEvent_fr _ _ _ _ _)).step ((sendOs_kl _ _ _ _).step (.of (drop2_fr s q w)))
  unfold trySwitch
  split
  · exact Kl.refl _ s
  split
  · exact Kl.refl _ s
  split
  · exact (Kl.of (noteHealth_fr _)).step (drop _ _)
  · exact Kl.refl _ s

theorem trySwitch_cnt (s : State) (q j : Nat) (h1 : 0x203 < j) (h2 : j < 0x34000) :
    cntGet (trySwitch q s) j = cntGet s j := by
  have drop (w : Swap) (m : Nat) : cntGet (switchDrop s q m w) j = cntGet s j := by
    unfold switchDrop
    dsimp only
    rw [raiseEvent_cnt _ _ _ _ _ _ h2, if_neg (by omega), cntGet_congr ((sendOs_fr _ _ _ _).cnt rfl),
      cntGet_congr ((drop2_fr s q w).cnt rfl)]
  unfold trySwitch
  split
  · rfl
  split
  · rfl
  split
  · rw [noteHealth_cnt _ _ h2 (by omega), drop]
  · rfl

theorem ackBlocks_lane (s : State) (q ack : Nat) : lane (ackBlocks s q ack) q = { lane s q with
    held := (lane (ackBlocks s q ack) q).held, replay := (lane (ackBlocks s q ack) q).replay } := by
  unfold ackBlocks
  rw [lane_modLane]
  split
  · rfl
  · dsimp only
    split <;> rfl

/-- An acknowledgement moves the replay buffer alone, a switchover the ordered sets that wait. -/
theorem acked_lane (s : State) (q : Nat) (hdr : BitVec 40) : lane (acked s q hdr) q = { lane s q with
    held := (lane (acked s q hdr) q).held, replay := (lane (acked s q hdr) q).replay
    osOut := (lane (acked s q hdr) q).osOut } := by
  unfold acked
  rw [(trySwitch_kl _ q).lanes q]
  split
  · rw [ackBlocks_lane]
  · rfl

theorem acked_link (s : State) (q : Nat) (hdr : BitVec 40) (l : Nat) : (link (acked s q hdr) l).bl2 = (link s l).bl2 := by
  unfold acked
  rw [((trySwitch_kl _ q).links l).bl2 rfl]
  split
  · rfl
  · rfl

theorem acked_cnt (s : State) (q : Nat) (hdr : BitVec 40) (j : Nat) (h1 : 0x203 < j) (h2 : j < 0x34000) :
    cntGet (acked s q hdr) j = cntGet s j := by
  unfold acked
  rw [trySwitch_cnt _ _ _ h1 h2]
  split
  · exact cntGet_congr ((ackBlocks_fr _ _ _).cnt rfl) j
  · rfl

theorem takeBlock_not_up {s : State} {q : Nat} (down : (lane s q).state ≠ 4) (seq : Nat) (data : List (List Byte)) :
    takeBlock s q seq data = bumpN s (cLane q 6) data.length := by
  unfold takeBlock
  exact if_pos down

/-- Data cells on a lane that is not UP are counted, whether or not their block has a sequence number (R87). -/
theorem takeGood_not_up {hdr : BitVec 40} (h : ∀ i, i < 5 → hCtl hdr i = false) {s : State} {q : Nat}
    (down : (lane s q).state ≠ 4) (cells : List (List Byte)) :
    takeGood s q hdr cells = bumpN (acked s q hdr) (cLane q 6) 5 := by
  have down' : (lane (acked s q hdr) q).state ≠ 4 := by rw [acked_lane]; exact down
  rw [takeGood_data h, takeBlock_not_up down', dataCells_length h, if_neg down', ite_self]

/-! #### Data cells: R79, R115, R117 -/

theorem admitted_lane (s : State) (fr : QFrame) (j : Nat) : lane (admitted s fr) j = lane s j := rfl

theorem Kl.lane_av {up : Bool} {s t : State} (h : Kl up s t) (j : Nat) : lane t j =
    { lane s j with osOut := (lane t j).osOut, rxPend := (lane t j).rxPend } := by
  have e := h.lanes j
  generalize lane t j = y at e ⊢
  rw [e]

theorem arrive_lane (s : State) (q : Nat) (f : Frame) (part : Bool) (j : Nat) : lane (arrive s q f part) j =
    { lane s j with osOut := (lane (arrive s q f part) j).osOut, rxPend := (lane (arrive s q f part) j).rxPend } := by
  cases h : covered (link s (linkOf q)) f.tc (cellsOf (link s (linkOf q)).bl2 f.length) with
  | true =>
    have e := (arrive_av part h).lanes j
    rwa [admitted_lane, (entered_fr s q f part).lane j] at e
  | false => exact (arrive_not_covered_spec part h).2.2.lane_av j

/-- What no data cell moves: the sequence number expected and the block asked for. -/
def SeqKept (q : Nat) (s t : State) : Prop :=
  (lane t q).expect = (lane s q).expect ∧ (lane t q).awaiting = (lane s q).awaiting ∧
    (lane t q).attempt = (lane s q).attempt

theorem SeqKept.trans {q : Nat} {s x t : State} (h : SeqKept q s x) (g : SeqKept q x t) : SeqKept q s t :=
  ⟨g.1.trans h.1, g.2.1.trans h.2.1, g.2.2.trans h.2.2⟩

theorem Kl.seqKept {up : Bool} {s t : State} (h : Kl up s t) (q : Nat) : SeqKept q s t := by
  unfold SeqKept
  rw [h.lanes q]
  exact ⟨rfl, rfl, rfl⟩

theorem seqKept_modLane {s x : State} (hx : x.lnk = s.lnk) (q : Nat) (f : Lane → Lane)
    (hf : ∀ k, (f k).expect = k.expect ∧ (f k).awaiting = k.awaiting ∧ (f k).attempt = k.attempt) :
    SeqKept q s (modLane x q f) := by
  unfold SeqKept
  rw [lane_modLane, lane_congr hx]
  exact hf _

theorem arrive_seqKept (s : State) (q : Nat) (f : Frame) (part : Bool) : SeqKept q s (arrive s q f part) := by
  unfold SeqKept
  rw [arrive_lane]
  exact ⟨rfl, rfl, rfl⟩

theorem firstCell_seqKept (q : Nat) (s : State) (cell : List Byte) : SeqKept q s (firstCell q s cell) := by
  unfold firstCell
  dsimp only
  refine SeqKept.trans ?_ (arrive_seqKept _ q _ _)
  exact seqKept_modLane rfl q _ fun _ => ⟨rfl, rfl, rfl⟩

theorem nextCell_seqKept (q : Nat) (s : State) (cell : List Byte) : SeqKept q s (nextCell q s cell) := by
  unfold nextCell
  dsimp only
  split
  · exact seqKept_modLane rfl q _ fun _ => ⟨rfl, rfl, rfl⟩
  split
  · exact seqKept_modLane rfl q _ fun _ => ⟨rfl, rfl, rfl⟩
  · refine SeqKept.trans ?_ ((consume_ak _ _ _).kl.seqKept q)
    exact seqKept_modLane rfl q _ fun _ => ⟨rfl, rfl, rfl⟩

theorem takeData_seqKept (q : Nat) (s : State) (cell : List Byte) : SeqKept q s (takeData q s cell) := by
  unfold takeData
  split
  · exact ⟨rfl, rfl, rfl⟩
  split
  · exact firstCell_seqKept q s cell
  · exact nextCell_seqKept q s cell

theorem forEach_takeData_seqKept (q : Nat) (s : State) (data : List (List Byte)) : SeqKept q s (forEach data s (takeData q)) := by
  unfold forEach
  induction data generalizing s with
  | nil => exact ⟨rfl, rfl, rfl⟩
  | cons cell rest ih => exact (takeData_seqKept q s cell).trans (ih _)

/-- The block that is expected, its frames' headers good, is taken: the next one is expected (R90). -/
theorem takeBlock_expected {s : State} {q seq : Nat} {data : List (List Byte)} (up : (lane s q).state = 4)
    (hseq : seq = (lane s q).expect) (ok : headersOk (link s (linkOf q)).bl2 (lane s q).rxRemain data = true) :
    (lane (takeBlock s q seq data) q).expect = ((lane s q).expect + 1) % 4096 ∧
      (lane (takeBlock s q seq data) q).awaiting = false ∧ (lane (takeBlock s q seq data) q).attempt = 0 := by
  unfold takeBlock
  dsimp only
  rw [if_neg (by simp [up]), if_neg (by simp [hseq]), if_neg (by simp [ok])]
  obtain ⟨hexpect, hawaiting, hattempt⟩ := forEach_takeData_seqKept q (setLane s q { lane s q with
    expect := ((lane s q).expect + 1) % 4096, awaiting := false, attempt := 0, hcrcBad := false }) data
  rw [lane_setLane] at hexpect hawaiting hattempt
  exact ⟨hexpect, hawaiting, hattempt⟩

/-- A block that is not the one expected is discarded (R90). -/
theorem takeBlock_other {s : State} {q seq : Nat} (up : (lane s q).state = 4) (hseq : seq ≠ (lane s q).expect)
    (data : List (List Byte)) : takeBlock s q seq data = s := by
  unfold takeBlock
  dsimp only
  rw [if_neg (by simp [up]), if_pos hseq]

/-! #### The lane's way through lock and acknowledgement -/

/-- The lane as its lock has been judged, but for what waits to be sent and the counts of its quick check. -/
theorem judged_lane (s : State) (q ch : Nat) (v : List Nat) (good : Bool) :
    let t := lockStep (counted s q ch v) q good
    (lane t q).good = (lockCounted (lane s q) good).good ∧ (lane t q).bad = (lockCounted (lane s q) good).bad ∧
      (lane t q).blockLock = (lockCounted (lane s q) good).blockLock ∧
      ((lane s q).state ≠ 4 → (lane t q).state ≠ 4) ∧
      (good = true → (lane s q).state = 1 → 7 ≤ (lane s q).good → channelsLocked s q = true → (lane t q).state = 2) := by
  intro t
  obtain ⟨hgood, hbad, hlock⟩ := lockFollowed_counts (counted s q ch v) q good
  have start : lockCounted (lane (counted s q ch v) q) good =
      { lockCounted (lane s q) good with quickErr := (lane (counted s q ch v) q).quickErr } := by
    rw [counted_lane]
    rfl
  have hstate : (lane (counted s q ch v) q).state = (lane s q).state := by rw [counted_lane]
  have hrun : (lane (counted s q ch v) q).good = (lane s q).good := by rw [counted_lane]
  rw [start] at hgood hbad hlock
  rw [lockStep_lane]
  refine ⟨hgood, hbad, hlock, fun h => lockFollowed_not_up (by rw [hstate]; exact h) good, ?_⟩
  rintro rfl h1 h7 hc
  exact lockFollowed_locked (hstate.trans h1) (by rw [hrun]; exact h7) (by rw [counted_channelsLocked]; exact hc)

/-- On an UP lane only the counts of the lock are written. -/
theorem judged_up {s : State} {q : Nat} (up : (lane s q).state = 4) (ch : Nat) (v : List Nat) (good : Bool) :
    lockStep (counted s q ch v) q good = setLane (counted s q ch v) q (lockCounted (lane (counted s q ch v) q) good) :=
  lockStep_up (by rw [counted_lane]; exact up) good

theorem judged_up_lane {s : State} {q : Nat} (up : (lane s q).state = 4) (ch : Nat) (v : List Nat) (good : Bool) :
    let t := lockStep (counted s q ch v) q good
    (lane t q).state = 4 ∧ (lane t q).expect = (lane s q).expect ∧ (lane t q).awaiting = (lane s q).awaiting ∧
      (lane t q).rxRemain = (lane s q).rxRemain := by
  intro t
  have ht : lane t q = lockCounted (lane (counted s q ch v) q) good := by
    rw [show t = _ from judged_up up ch v good, lane_setLane]
  rw [ht, counted_lane]
  exact ⟨up, rfl, rfl, rfl⟩

theorem judged_up_fr {s : State} {q : Nat} (up : (lane s q).state = 4) (ch : Nat) (v : List Nat) (good : Bool) :
    Fr 65600 s (lockStep (counted s q ch v) q good) := by
  rw [judged_up up]
  exact (setLane_fr _ _ _).step (counted_fr s q ch v)

theorem judged_cnt {s : State} {q : Nat} (hq : q < 4160) (ch : Nat) (v : List Nat) (good : Bool) :
    let t := lockStep (counted s q ch v) q good
    cntGet t (cLane q 2) = (cntGet s (cLane q 2) + (readBlock v).undecoded) % 2 ^ 64 ∧
      cntGet t (cLane q 6) = cntGet s (cLane q 6) := by
  have range (k : Nat) (hk : k < 8) : 0x203 < cLane q k ∧ cLane q k < 0x34000 := by unfold cLane; omega
  obtain ⟨hfec, hdata⟩ := counted_cnt s q ch v
  intro t
  rw [lockStep_cnt _ _ _ _ (range 2 (by decide)).1 (range 2 (by decide)).2,
    lockStep_cnt _ _ _ _ (range 6 (by decide)).1 (range 6 (by decide)).2]
  exact ⟨hfec, hdata⟩

end Sys2Proof.Machine

namespace Sys2Proof.Machine

set_option Elab.async false

/-! #### The clauses of O36 -/

/-- A lane that is not UP, and may send, sends a block without a sequence number (R86, R89). -/
theorem blockTransmit_idle_spec {s : State} {q : Nat} (lit : engineLit s (engineOfLane q) = true)
    (h4 : (lane s q).state ≠ 4) (h5 : (lane s q).state ≠ 5) (h7 : (lane s q).state ≠ 7) :
    let t := blockTransmit q s
    OnlyChanges [.lnk, .out, .tim] s t ∧
      lane t q = { lane s q with osOut := (lane s q).osOut.drop 16, prbs := (lane t q).prbs } ∧
      ((lane s q).state = 3 → (lane t q).prbs = (prbsCells 4 (lane s q).prbs).1 ∧
        BlockOut s t q (blockHdr 0 (lane s q).expect 16 false true)
          (controlCell (stampSets s q).2 :: (prbsCells 4 (lane s q).prbs).2)) ∧
      ((lane s q).state ≠ 3 → (lane t q).prbs = (lane s q).prbs ∧
        BlockOut s t q (blockHdr 0 (lane s q).expect 31 false true)
          (controlCell (stampSets s q).2 :: List.replicate 4 (List.replicate 256 0))) := by
  intro t
  have ht : t = sendNoseq s q (decide ((lane s q).state = 3)) := blockTransmit_idle lit h4 h5 h7
  have out := sendNoseq_blockOut s q (decide ((lane s q).state = 3))
  rw [ht, sendNoseq_lane]
  refine ⟨(sendNoseq_fr s q _).onlyChanges _, rfl, fun h3 => ?_, fun h3 => ?_⟩
  · simp only [decide_eq_true h3, if_true] at out ⊢
    exact ⟨trivial, out⟩
  · simp only [decide_eq_false h3, Bool.false_eq_true, if_false] at out ⊢
    exact ⟨trivial, out⟩

/-- An UP lane sends a held block of its replay again (R89). -/
theorem blockTransmit_replay_spec {s : State} {q n : Nat} {k : Block} (lit : engineLit s (engineOfLane q) = true)
    (up : (lane s q).state = 4) (hn : (lane s q).replay = some n)
    (hk : (lane s q).held.find? (fun x => x.seq == n) = some k) :
    ∃ cells, BlockOut s (blockTransmit q s) q (blockHdr k.seq (lane s q).expect (cellMap k.ctl) true false) cells ∧
      (∀ i, i < 5 → nth false k.ctl i = false → nth [] cells i = nth [] k.cells i) ∧
      (lane (blockTransmit q s) q).held = (lane s q).held ∧ (lane (blockTransmit q s) q).nextSeq = (lane s q).nextSeq := by
  have ht : blockTransmit q s = sendReplay s q k := by
    rw [blockTransmit_up lit up, hn, Option.bind_some, hk]
  obtain ⟨cells, hout, hcells⟩ := sendReplay_blockOut s q k
  rw [ht]
  exact ⟨cells, hout, hcells, sendReplay_lane s q k⟩

/-- Otherwise it sends cells of its buffer, while the replay buffer has room (R79, R89). -/
theorem blockTransmit_data_spec {s : State} {q : Nat} (hq : q < 4160) (lit : engineLit s (engineOfLane q) = true)
    (up : (lane s q).state = 4) (hn : (lane s q).replay = none) (room : (lane s q).held.length < 32)
    (hbuf : (lane s q).buf ≠ []) :
    let t := blockTransmit q s
    let n := if (lane s q).osOut = [] then 5 else 4
    ∃ k, (lane t q).nextSeq = ((lane s q).nextSeq + 1) % 4096 ∧ (lane t q).buf = (lane s q).buf.drop n ∧
      (lane t q).held = (lane s q).held ++ [k] ∧ k.seq = (lane s q).nextSeq ∧
      BlockOut s t q (blockHdr k.seq (lane s q).expect (cellMap k.ctl) false false) k.cells ∧
      cntGet t (cLink (linkOf q) 3) =
        (cntGet s (cLink (linkOf q) 3) + ((lane s q).buf.take n).length) % 2 ^ 64 := by
  intro t n
  have ht : t = sendData s q := by
    refine (blockTransmit_up lit up).trans ?_
    rw [hn]
    exact if_neg (by simp [hbuf, room])
  have hn : n = if (lane s q).osOut.isEmpty then 5 else 4 := by
    simp only [n, List.isEmpty_iff]
  have hlane := sendData_lane s q
  refine ⟨dataBlock (lane s q) (dataSets s q).2, ?_⟩
  rw [ht, hlane, hn]
  exact ⟨rfl, rfl, rfl, rfl, sendData_blockOut s q, sendData_cnt s q hq⟩

/-- A block that is not good on an UP lane is asked for again, once (R90). -/
theorem blockReceive_bad_up_spec {s : State} {q ch : Nat} {v : List Nat} (hq : q < 4160)
    (lit : engineLit s (engineOfLane q) = true) (own : ch = chanCode (laneKey s .rx q)) (h : goodBlock v = none)
    (up : (lane s q).state = 4) (idle : (lane s q).awaiting = false) :
    let t := blockReceive q ch v s
    (lane t q).awaiting = true ∧ (lane t q).expect = (lane s q).expect ∧
      t.out = s.out ++ [.os q osRETRY (mkBody [at_ 92 (lane s q).expect, at_ 88 1])] ∧
      cntGet t (cLane q 2) = (cntGet s (cLane q 2) + (readBlock v).undecoded) % 2 ^ 64 := by
  intro t
  obtain ⟨hstate, hexpect, hawaiting, -⟩ := judged_up_lane up ch v false
  have ht : t = sendRetry (lockStep (counted s q ch v) q false) q 1 :=
    (blockReceive_bad lit own h).trans (badBlock_asks hstate (hawaiting.trans idle))
  rw [ht]
  refine ⟨?_, ?_, ?_, ?_⟩
  · rw [sendRetry_lane]
  · rw [sendRetry_lane]
    exact hexpect
  · rw [sendRetry_out, hexpect, (judged_up_fr up ch v false).out rfl]
  · rw [sendRetry_cnt _ _ _ _ (by unfold cLane; omega), (judged_cnt hq ch v false).1]

/-- The fourth block in a row that is not good loses the lock (R78). -/
theorem blockReceive_bad_spec {s : State} {q ch : Nat} {v : List Nat} (lit : engineLit s (engineOfLane q) = true)
    (own : ch = chanCode (laneKey s .rx q)) (h : goodBlock v = none) :
    let t := blockReceive q ch v s
    (lane t q).good = 0 ∧ (lane t q).blockLock = ((lane s q).blockLock && decide ((lane s q).bad < 3)) ∧
      (lane t q).bad = min 4 ((lane s q).bad + 1) := by
  intro t
  have ht : t = badBlock (lockStep (counted s q ch v) q false) q := blockReceive_bad lit own h
  obtain ⟨kgood, kbad, klock⟩ := badBlock_lock (lockStep (counted s q ch v) q false) q
  obtain ⟨hgood, hbad, hlock, -⟩ := judged_lane s q ch v false
  rw [ht, kgood, kbad, klock, hgood, hbad, hlock, lockCounted_bad]
  exact ⟨rfl, rfl, rfl⟩

/-- The eighth good block in a row locks the lane (R78). -/
theorem blockReceive_noseq_spec {s : State} {q ch : Nat} {v : List Nat} {hdr : BitVec 40} {cells : List (List Byte)}
    (lit : engineLit s (engineOfLane q) = true) (own : ch = chanCode (laneKey s .rx q))
    (h : goodBlock v = some (hdr, cells)) (data : ∀ i, i < 5 → hCtl hdr i = false) (noseq : hNoseq hdr = true) :
    let t := blockReceive q ch v s
    (lane t q).bad = 0 ∧ (lane t q).blockLock = ((lane s q).blockLock || decide (7 ≤ (lane s q).good)) ∧
      (lane t q).good = min 8 ((lane s q).good + 1) ∧
      ((lane s q).state = 1 → 7 ≤ (lane s q).good → channelsLocked s q = true → (lane t q).state = 2) := by
  intro t
  have ht : lane t q = lane (acked (lockStep (counted s q ch v) q true) q hdr) q := by
    rw [show t = _ from blockReceive_good lit own h, takeGood_data data, if_pos noseq, lane_congr (bumpN_lnk _ _ _)]
  obtain ⟨hgood, hbad, hlock, -, hstate⟩ := judged_lane s q ch v true
  rw [lockCounted_good] at hgood hbad hlock
  rw [ht, acked_lane]
  exact ⟨hbad, hlock, hgood, hstate rfl⟩

/-- The five data cells of a good block on a lane that is not UP are counted (R87). -/
theorem blockReceive_not_up_spec {s : State} {q ch : Nat} {v : List Nat} {hdr : BitVec 40} {cells : List (List Byte)}
    (hq : q < 4160) (lit : engineLit s (engineOfLane q) = true) (own : ch = chanCode (laneKey s .rx q))
    (h : goodBlock v = some (hdr, cells)) (data : ∀ i, i < 5 → hCtl hdr i = false) (down : (lane s q).state ≠ 4) :
    cntGet (blockReceive q ch v s) (cLane q 6) = (cntGet s (cLane q 6) + 5) % 2 ^ 64 := by
  obtain ⟨-, -, -, hdown, -⟩ := judged_lane s q ch v true
  have range : 0x203 < cLane q 6 ∧ cLane q 6 < 0x34000 := by unfold cLane; omega
  rw [blockReceive_good lit own h, takeGood_not_up data (hdown down), cntGet_bumpN, if_pos rfl,
    acked_cnt _ _ _ _ range.1 range.2, (judged_cnt hq ch v true).2]

/-- A block out of its sequence is discarded: only its lane and counters differ (R90). -/
theorem blockReceive_other_spec {s : State} {q ch : Nat} {v : List Nat} {hdr : BitVec 40} {cells : List (List Byte)}
    (lit : engineLit s (engineOfLane q) = true) (own : ch = chanCode (laneKey s .rx q))
    (h : goodBlock v = some (hdr, cells)) (data : ∀ i, i < 5 → hCtl hdr i = false) (up : (lane s q).state = 4)
    (seq : hNoseq hdr = false) (other : hSeq hdr ≠ (lane s q).expect) (noSwap : swapOf s .rx q = none) :
    OnlyChanges [.lnk, .cnt] s (blockReceive q ch v s) ∧
      (lane (blockReceive q ch v s) q).expect = (lane s q).expect := by
  obtain ⟨hstate, hexpect, -, -⟩ := judged_up_lane up ch v true
  have judged := judged_up_fr up ch v true
  set x := lockStep (counted s q ch v) q true
  have ackedX : acked x q hdr = ackBlocks x q (hAck hdr) := by
    have opt : (ackBlocks x q (hAck hdr)).opt = s.opt := ((ackBlocks_fr _ _ _).opt rfl).trans (judged.opt rfl)
    unfold acked
    rw [if_pos hstate]
    refine trySwitch_none ?_
    unfold swapOf at noSwap ⊢
    rw [opt]
    exact noSwap
  have aState : (lane (acked x q hdr) q).state = 4 := by rw [acked_lane]; exact hstate
  have aExpect : (lane (acked x q hdr) q).expect = (lane s q).expect := by rw [acked_lane]; exact hexpect
  have ht : blockReceive q ch v s = acked x q hdr := by
    rw [blockReceive_good lit own h, takeGood_data data, if_neg (ne_true_of_eq_false seq),
      takeBlock_other aState (by rw [aExpect]; exact other)]
  rw [ht]
  refine ⟨?_, aExpect⟩
  rw [ackedX]
  exact ((ackBlocks_fr x q (hAck hdr)).step judged).onlyChanges _

/-- The block that is expected is taken, and the next one expected (R90). -/
theorem blockReceive_expected_spec {s : State} {q ch : Nat} {v : List Nat} {hdr : BitVec 40} {cells : List (List Byte)}
    (lit : engineLit s (engineOfLane q) = true) (own : ch = chanCode (laneKey s .rx q))
    (h : goodBlock v = some (hdr, cells)) (data : ∀ i, i < 5 → hCtl hdr i = false) (up : (lane s q).state = 4)
    (seq : hNoseq hdr = false) (hseq : hSeq hdr = (lane s q).expect)
    (ok : headersOk (link s (linkOf q)).bl2 (lane s q).rxRemain (dataCells hdr cells) = true) :
    let t := blockReceive q ch v s
    (lane t q).expect = ((lane s q).expect + 1) % 4096 ∧ (lane t q).awaiting = false ∧ (lane t q).attempt = 0 := by
  intro t
  obtain ⟨hstate, hexpect, -, hremain⟩ := judged_up_lane up ch v true
  have hlink : (link (lockStep (counted s q ch v) q true) (linkOf q)).bl2 = (link s (linkOf q)).bl2 := by
    rw [judged_up up, link_setLane]
    exact counted_bl2 s q ch v _
  set x := lockStep (counted s q ch v) q true
  have aState : (lane (acked x q hdr) q).state = 4 := by rw [acked_lane]; exact hstate
  have aExpect : (lane (acked x q hdr) q).expect = (lane s q).expect := by rw [acked_lane]; exact hexpect
  have aRemain : (lane (acked x q hdr) q).rxRemain = (lane s q).rxRemain := by rw [acked_lane]; exact hremain
  have ht : t = takeBlock (acked x q hdr) q (hSeq hdr) (dataCells hdr cells) := by
    refine (blockReceive_good lit own h).trans ?_
    rw [takeGood_data data, if_neg (ne_true_of_eq_false seq)]
  rw [ht, ← aExpect]
  exact takeBlock_expected aState (hseq.trans aExpect.symm) (by rw [acked_link, aRemain, hlink]; exact ok)

/-- Settles O36, clause by clause: what a lane sends (`blockTransmit_silent` and the three after it), what makes a block
good (`goodBlock_isSome`), and what a block that arrives does to lock, counts and sequence (`blockReceive_bad_up_spec` to
`blockReceive_expected_spec`). -/
theorem blocksSentAndTaken : Obligations.BlocksSentAndTaken := by
  unfold Obligations.BlocksSentAndTaken
  intro s q hq
  refine ⟨fun h => congrArg Host.Outcome.next (blockTransmit_silent h), fun lit h4 h5 h7 => ?_, fun lit up => ⟨?_, ?_⟩, ?_⟩
  · exact ⟨_, rfl, blockTransmit_idle_spec lit h4 h5 h7⟩
  · intro n k hn hk
    obtain ⟨cells, hout⟩ := blockTransmit_replay_spec lit up hn hk
    exact ⟨_, cells, rfl, hout⟩
  · intro hn room hbuf
    obtain ⟨k, hout⟩ := blockTransmit_data_spec hq lit up hn room hbuf
    exact ⟨_, k, rfl, hout⟩
  rintro ch a b c d v rfl
  refine ⟨fun dark => congrArg Host.Outcome.next (blockReceive_dark dark ch _), goodBlock_isSome _, fun lit own =>
    ⟨fun bad up idle => ?_, fun bad => ?_, fun hdr cells good data => ⟨fun noseq => ?_, fun down => ?_,
      fun up seq other noSwap => ?_, fun up seq hseq ok => ?_⟩⟩⟩
  · exact ⟨_, rfl, blockReceive_bad_up_spec hq lit own bad up idle⟩
  · exact ⟨_, rfl, blockReceive_bad_spec lit own bad⟩
  · exact ⟨_, rfl, blockReceive_noseq_spec lit own good data noseq⟩
  · exact ⟨_, rfl, blockReceive_not_up_spec hq lit own good data down⟩
  · exact ⟨_, rfl, blockReceive_other_spec lit own good data up seq other noSwap⟩
  · exact ⟨_, rfl, blockReceive_expected_spec lit own good data up seq hseq ok⟩

end Sys2Proof.Machine

/-! #### A warm reset, as `WarmReset` speaks of it -/

namespace Sys2Proof.Machine

set_option Elab.async false

/-- What a warm reset keeps of one stored register: its sticky bits over its reset value (R13). -/
def keepEntry (s : State) (b : Bool) (t : Tab Word) (e : Nat × Word) : Tab Word :=
  let sticky := (regInfo s.variant s.boot.strapBl2 e.1).rws
  let d := regReset s.variant b e.1
  tset d t e.1 (BitVec.ofNat 64 ((d.toNat &&& (ones ^^^ sticky)) ||| (e.2.toNat &&& sticky)))

theorem keepSticky_eq (s : State) (b : Bool) : keepSticky s b = s.regs.foldl (keepEntry s b) [] := rfl

/-- A register without sticky fields stays at its reset value, whichever entry comes next. -/
theorem tget_keepEntry {s : State} {b : Bool} {off : Nat} (h : (regInfo s.variant s.boot.strapBl2 off).rws = 0)
    (e : Nat × Word) {t : Tab Word} (ht : tget (regReset s.variant b off) t off = regReset s.variant b off) :
    tget (regReset s.variant b off) (keepEntry s b t e) off = regReset s.variant b off := by
  unfold keepEntry
  dsimp only
  by_cases he : e.1 = off
  · rw [he, tget_tset_same, h, Nat.xor_zero, Nat.and_zero, Nat.or_zero, ones,
      Nat.and_two_pow_sub_one_of_lt_two_pow (BitVec.isLt _), BitVec.ofNat_toNat, BitVec.setWidth_eq]
  · rw [tget_tset_other _ _ _ _ _ _ (Ne.symm he), ht]

/-- A reset returns every register without sticky fields to its reset value (R13, R431). -/
theorem tget_keepSticky {s : State} {b : Bool} {off : Nat} (h : (regInfo s.variant s.boot.strapBl2 off).rws = 0) :
    tget (regReset s.variant b off) (keepSticky s b) off = regReset s.variant b off := by
  have keeps (l t : Tab Word) (ht : tget (regReset s.variant b off) t off = regReset s.variant b off) :
      tget (regReset s.variant b off) (l.foldl (keepEntry s b) t) off = regReset s.variant b off := by
    induction l generalizing t with
    | nil => exact ht
    | cons e l ih => exact ih _ (tget_keepEntry h e ht)
  rw [keepSticky_eq]
  exact keeps s.regs [] rfl

/-- The blocks are unlocked after a reset (R15): LOCK is not sticky and resets to 0. -/
theorem bit_keepSticky_lock (s : State) (b : Bool) :
    bit (tget (regReset s.variant b oLOCK) (keepSticky s b) oLOCK) 0 = false ∧
      bit (tget (regReset s.variant b oTBL_LOCK) (keepSticky s b) oTBL_LOCK) 0 = false := by
  have lock : regInfo s.variant b oLOCK = { w1s := 1 } := rfl
  have tbl : regInfo s.variant b oTBL_LOCK = { w1s := 1 } := rfl
  rw [tget_keepSticky rfl, tget_keepSticky rfl, regReset, regReset, lock, tbl]
  decide

/-- The start of a start-up leaves of the boot state what it does not name. -/
theorem beginStart_boot (s : State) : (beginStart s).boot.lastCause = s.boot.lastCause ∧
    (beginStart s).boot.warmCount = s.boot.warmCount ∧ (beginStart s).boot.store = s.boot.store ∧
    (beginStart s).boot.meas = s.boot.meas ∧ (beginStart s).boot.fwState = s.boot.fwState ∧
    (beginStart s).boot.strapBl2 = s.boot.strapBl2 := by
  unfold beginStart
  split <;> exact ⟨rfl, rfl, rfl, rfl, rfl, rfl⟩

theorem restartPower_energy (p : Pwr) : (restartPower p).energy = p.energy := by
  unfold restartPower
  split <;> rfl

/-- What a warm reset clears and what survives it (R431). -/
theorem warmReset_spec (s : State) (cause : Nat) : WarmReset s (warmReset s cause) cause := by
  obtain ⟨hcause, hcount, hstore, hmeas, hfw, hstrap⟩ := beginStart_boot (let x := advanceEpoch (clearMain s)
    { x with
      boot := { x.boot with lastCause := cause, warmCount := min 0xFFFF (x.boot.warmCount + 1) }
      pwr := restartPower x.pwr })
  have reg (off : Nat) : getR (warmReset s cause) off =
      tget (regReset s.variant s.boot.strapBl2 off) (keepSticky s s.boot.strapBl2) off :=
    congrArg (fun b => tget (regReset s.variant b off) (keepSticky s s.boot.strapBl2) off) hstrap
  obtain ⟨hlock, htbl⟩ := bit_keepSticky_lock s s.boot.strapBl2
  exact ⟨hcause, hcount, rfl, restartPower_energy _, hstore, hmeas, by rw [reg, hlock], by rw [reg, htbl],
    rfl, rfl, rfl, rfl, rfl, rfl, rfl, rfl, rfl, rfl, hfw⟩

end Sys2Proof.Machine

/-! #### The word that CDC_LOG latches -/

namespace Sys2Proof.Machine

set_option Elab.async false

/-- Two fields side by side, each within its own mask, lie within the two masks side by side. -/
theorem append_and_append {a b m n k : Nat} (hb : b < 2 ^ k) (hn : n < 2 ^ k) (ha : a &&& m = a) (hbn : b &&& n = b) :
    (a <<< k + b) &&& (m <<< k + n) = a <<< k + b := by
  rw [Nat.shiftLeft_add_eq_or_of_lt hb, Nat.shiftLeft_add_eq_or_of_lt hn]
  apply Nat.eq_of_testBit_eq
  intro i
  by_cases hi : k ≤ i
  · have low {x : Nat} (h : x < 2 ^ k) : x.testBit i = false :=
      Nat.testBit_lt_two_pow (lt_of_lt_of_le h (Nat.pow_le_pow_right (by decide) hi))
    have high : (a.testBit (i - k) && m.testBit (i - k)) = a.testBit (i - k) := by rw [← Nat.testBit_and, ha]
    simpa [hi, low hb, low hn] using high
  · have low : (b.testBit i && n.testBit i) = b.testBit i := by rw [← Nat.testBit_and, hbn]
    simpa [hi] using low

/-- NT reads the same where the time and the TIME block do. -/
theorem Fr.nt32 {m : Nat} {s t : State} (h : Fr m s t) (h13 : m.testBit 13 = false := by rfl)
    (h17 : m.testBit 17 = false := by rfl) : nt32 t = Machine.nt32 s :=
  calc Machine.nt32 t
    _ = Machine.nt32 { s with tim := t.tim, now := t.now } := rfl
    _ = Machine.nt32 s := by rw [h.tim h13, h.now h17]

theorem nt32_lt (s : State) : nt32 s < 2 ^ 32 := Nat.mod_lt _ (by decide)

/-- A store to a register of reset value 0 keeps a value that lies within the register's fields. -/
theorem getR_putR_within {s : State} {off : Nat} {v : Word} (h0 : (regInfo s.variant s.boot.strapBl2 off).reset = 0)
    (hv : v.toNat &&& regBits (regInfo s.variant s.boot.strapBl2 off) = v.toNat) : getR (putR s off v) off = v := by
  rw [getR_putR, regClip, h0, hv, Nat.zero_and, Nat.zero_or, BitVec.ofNat_toNat, BitVec.setWidth_eq]

/-- VALID, NEAR, FAR and NT side by side, as CDC_LOG holds them (R428). -/
theorem cdcWord_toNat {near far n : Nat} (hnear : near < 32) (hfar : far < 32) (hn : n < 2 ^ 32) :
    (mkWord [at_ 63 1, at_ 56 near, at_ 48 far, n]).toNat = ((1 <<< 7 + near) <<< 8 + far) <<< 48 + n := by
  simp only [mkWord, at_, List.foldl_cons, List.foldl_nil, BitVec.toNat_ofNat, Nat.shiftLeft_eq]
  omega

/-- The fields of CDC_LOG are wide enough for every pair of domains of R425, so that none of the word is lost. -/
theorem cdcWord_within {near far n : Nat} (hnear : near < 32) (hfar : far < 32) (hn : n < 2 ^ 32) (v : Variant)
    (b : Bool) :
    (mkWord [at_ 63 1, at_ 56 near, at_ 48 far, n]).toNat &&& regBits (regInfo v b oCDC_LOG) =
      (mkWord [at_ 63 1, at_ 56 near, at_ 48 far, n]).toNat := by
  have bits : regBits (regInfo v b oCDC_LOG) = ((1 <<< 7 + (2 ^ 5 - 1)) <<< 8 + (2 ^ 5 - 1)) <<< 48 + (2 ^ 32 - 1) := by
    have info : regInfo v b oCDC_LOG =
        { w1c := mask 63 63, hw := mask 63 63 + mask 60 56 + mask 52 48 + mask 31 0 } := rfl
    rw [info]
    decide
  have own {x k : Nat} (h : x < 2 ^ k) : x &&& (2 ^ k - 1) = x := Nat.and_two_pow_sub_one_of_lt_two_pow h
  rw [cdcWord_toNat hnear hfar hn, bits]
  have hi := append_and_append (k := 7) (a := 1) (m := 1) (by omega) (by decide) rfl (own (k := 5) hnear)
  have mid := append_and_append (k := 8) (by omega) (by decide) hi (own (k := 5) hfar)
  exact append_and_append (by omega) (by decide) mid (own hn)

end Sys2Proof.Machine

/-! #### The clauses of O9 -/

namespace Sys2Proof.Machine

set_option Elab.async false

theorem pllLost_setPll_same (s : State) (k : Nat) (v : Option Nat) : pllLost (setPll s k v) k = v.isSome :=
  congrArg Option.isSome (tget_tset_same ..)

theorem pllLost_setPll_other (s : State) (k : Nat) (v : Option Nat) {j : Nat} (h : j ≠ k) :
    pllLost (setPll s k v) j = pllLost s j := congrArg Option.isSome (tget_tset_other _ _ _ _ _ _ h)

theorem pllLockLost_locked {k : Nat} {s : State} (powered : s.pwr.powered = true) (pll : hasPll k = true)
    (on : domainOn s k = true) (locked : pllLost s k = false) : pllLockLost k s = setPll s k (some s.now) :=
  if_pos (by rw [powered, pll, on, locked]; rfl)

/-- The reset falls 10 ms after the loss of lock (R430, log entry 39). -/
theorem pllRelockTimeout_lost {k a : Nat} {s : State} (h : tget none s.boot.pllLost k = some a) :
    pllRelockTimeout k s = warmReset (await s a (10 * msT)) 7 := by
  have lost : pllLost s k = true := congrArg Option.isSome h
  rw [pllRelockTimeout, if_pos lost, h]
  rfl

theorem pllRelockTimeout_locked {k : Nat} {s : State} (h : pllLost s k = false) : pllRelockTimeout k s = s :=
  if_neg (ne_true_of_eq_false h)

/-- The state in which a crossing has raised CDC_TIMEOUT, before CDC_LOG looks at it. -/
def cdcRaised (s : State) (near far : Nat) : State := raiseEvent s 0x009 0x7F (at_ 8 near + far) 0

/-- A far domain that the power manager has stopped is no timeout (R428). -/
theorem crossingWait_stopped {s : State} {far : Nat} (near : Nat) (h : domainOn s far = false) :
    crossingWait near far s = s := if_pos (by rw [h]; simp)

/-- The event leaves CDC_LOG and the time alone, so what the log latches is read before it. -/
theorem crossingWait_eq {s : State} {near far : Nat} (powered : s.pwr.powered = true)
    (hnear : domainOn s near = true) (hfar : domainOn s far = true) : crossingWait near far s =
      if bit (getR s oCDC_LOG) 63 then cdcRaised s near far
      else putR (cdcRaised s near far) oCDC_LOG (mkWord [at_ 63 1, at_ 56 near, at_ 48 far, nt32 s]) := by
  have reg : getR (cdcRaised s near far) oCDC_LOG = getR s oCDC_LOG := (raiseEvent_fr ..).getR _
  have time : nt32 (cdcRaised s near far) = nt32 s := (raiseEvent_fr ..).nt32
  rw [crossingWait, if_neg (by rw [powered, hnear, hfar]; decide)]
  dsimp only
  rw [← cdcRaised, reg, time]

/-- CDC_TIMEOUT is counted whether or not CDC_LOG still has room for the crossing (R391). -/
theorem crossingWait_cnt {s : State} {near far : Nat} (powered : s.pwr.powered = true)
    (hnear : domainOn s near = true) (hfar : domainOn s far = true) :
    cntGet (crossingWait near far s) 0x009 = (cntGet s 0x009 + 1) % 2 ^ 64 := by
  have event : cntGet (cdcRaised s near far) 0x009 = (cntGet s 0x009 + 1) % 2 ^ 64 :=
    raiseEvent_cnt _ _ _ _ _ _ (by decide)
  rw [crossingWait_eq powered hnear hfar]
  split <;> exact event

/-- CDC_LOG keeps the first crossing that timed out (R428). -/
theorem crossingWait_cdcLog {s : State} {near far : Nat} (nearLt : near < 19) (farLt : far < 19)
    (powered : s.pwr.powered = true) (hnear : domainOn s near = true) (hfar : domainOn s far = true) :
    getR (crossingWait near far s) oCDC_LOG = (if bit (getR s oCDC_LOG) 63 then getR s oCDC_LOG
      else mkWord [at_ 63 1, at_ 56 near, at_ 48 far, nt32 s]) := by
  rw [crossingWait_eq powered hnear hfar]
  split
  · exact (raiseEvent_fr ..).getR _
  · exact getR_putR_within rfl (cdcWord_within (by omega) (by omega) (nt32_lt s) _ _)

/-- Settles O9: the PLL clauses are reads after a write of the table of lost PLLs and `warmReset_spec` at the moment the
10 ms end; the crossing clauses are `crossingWait_cnt` and `crossingWait_cdcLog`. -/
theorem pllAndCrossingReported : Obligations.PllAndCrossingReported := by
  unfold Obligations.PllAndCrossingReported
  intro s
  refine ⟨fun k powered pll on locked => ?_, fun k => ?_, fun k a lost => ?_, fun k locked => ?_,
    fun near far nearLt farLt powered hnear hfar => ?_, fun near far stopped => ?_⟩
  · refine ⟨_, rfl, ?_, ?_, (pllLockLost_fr k s).onlyChanges _⟩
    · rw [pllLockLost_locked powered pll on locked, pllLost_setPll_same]
      rfl
    · intro j hj
      rw [pllLockLost_locked powered pll on locked, pllLost_setPll_other _ _ _ hj]
  · exact ⟨_, rfl, pllLost_setPll_same s k none, fun j hj => pllLost_setPll_other s k none hj,
      (pllRelocked_fr k s).onlyChanges _⟩
  · exact ⟨_, congrArg Host.Outcome.next (pllRelockTimeout_lost lost), warmReset_spec (await s a (10 * msT)) 7, rfl⟩
  · exact congrArg Host.Outcome.next (pllRelockTimeout_locked locked)
  · exact ⟨_, rfl, crossingWait_cnt powered hnear hfar, crossingWait_cdcLog nearLt farLt powered hnear hfar,
      (crossingWait_fr near far s).onlyChanges _⟩
  · exact congrArg Host.Outcome.next (crossingWait_stopped near stopped)

end Sys2Proof.Machine

/-! ### What every command leaves: the frame of a step and the invariant (O1, O57 to O60) -/

namespace Sys2Proof.Machine

set_option Elab.async false

/-- The mask of `Fr` that a list of parts spells. -/
def maskOf (l : List Part) : Nat := l.foldr (fun p m => 2 ^ p.place ||| m) 0

theorem Part.place_inj {p q : Part} (h : p.place = q.place) : p = q := by
  revert h; cases p <;> cases q <;> decide

theorem maskOf_testBit {l : List Part} {p : Part} (h : p ∉ l) : (maskOf l).testBit p.place = false := by
  induction l with
  | nil => exact Nat.zero_testBit _
  | cons q l ih =>
    obtain ⟨hq, hl⟩ := List.ne_and_not_mem_of_not_mem_cons h
    have apart : ¬ q.place = p.place := fun e => hq (Part.place_inj e.symm)
    rw [show maskOf (q :: l) = 2 ^ q.place ||| maskOf l from rfl, Nat.testBit_or, ih hl, Nat.testBit_two_pow]
    simp [apart]

theorem Fr.onParts {m : Nat} {s t : State} {l : List Part} (h : Fr m s t)
    (hm : Nat.land m (maskOf l) = m := by (rw [partsOf]; decide)) : Fr (maskOf l) s t := h.mono hm

/-- A command writes at most the parts of its row of `partsOf`, and keeps a sound state sound. -/
theorem exec_fr : ∀ (c : Instr) (s t : State), exec c s = .next t → Fr (maskOf (partsOf c)) s t
  | .registerWrite .., s, t, h => (registerWrite_exec_fr _ _ _ _ s t h).onParts
  | .blockLockSet .., s, t, h => (blockLockSet_exec_fr _ _ s t h).onParts
  | .fabricPosWrite .., s, t, h => (fabricPosWrite_exec_fr _ _ s t h).onParts
  | .frameReceive .., s, t, h => (frameReceive_exec_fr _ _ _ s t h).onParts
  | .linkBringupRetry .., s, t, h => (linkBringupRetry_exec_fr _ s t h).onParts
  | .recastOpen .., s, t, h => (recastOpen_exec_fr _ s t h).onParts
  | .recastClose .., s, t, h => (recastClose_exec_fr _ s t h).onParts
  | .recastCloseTakesEffect .., s, t, h => (recastCloseTakesEffect_exec_fr _ s t h).onParts
  | .recastLimitExpiry .., s, t, h => (recastLimitExpiry_exec_fr _ s t h).onParts
  | .tblCfgWrite .., s, t, h => (tblCfgWrite_exec_fr _ _ s t h).onParts
  | .laserEnSet .., s, t, h => (laserEnSet_exec_fr _ _ _ s t h).onParts
  | .laserEnClear .., s, t, h => (laserEnClear_exec_fr _ _ _ s t h).onParts
  | .oeBringupDone .., s, t, h => (oeBringupDone_exec_fr _ s t h).onParts
  | .oeBringupTimeout .., s, t, h => (oeBringupTimeout_exec_fr _ _ s t h).onParts
  | .oeBringupRetry .., s, t, h => (oeBringupRetry_exec_fr _ s t h).onParts
  | .optSensorSample .., s, t, h => (optSensorSample_exec_fr _ _ s t h).onParts
  | .ditherLockLoss .., s, t, h => (ditherLockLoss_exec_fr _ _ _ s t h).onParts
  | .lockReacquired .., s, t, h => (lockReacquired_exec_fr _ _ _ s t h).onParts
  | .marginTestStart .., s, t, h => (marginTestStart_exec_fr _ s t h).onParts
  | .marginPowerStep .., s, t, h => (marginPowerStep_exec_fr _ s t h).onParts
  | .marginWindowOpen .., s, t, h => (marginWindowOpen_exec_fr _ s t h).onParts
  | .marginWindowClose .., s, t, h => (marginWindowClose_exec_fr _ _ s t h).onParts
  | .marginReportWaitExpiry .., s, t, h => (marginReportWaitExpiry_exec_fr _ s t h).onParts
  | .marginRetry .., s, t, h => (marginRetry_exec_fr _ s t h).onParts
  | .quickCheckWindowClose .., s, t, h => (quickCheckWindowClose_exec_fr _ _ s t h).onParts
  | .laserFadeSample .., s, t, h => (laserFadeSample_exec_fr _ _ s t h).onParts
  | .spareLocked .., s, t, h => (spareLocked_exec_fr _ s t h).onParts
  | .swRequestReceive .., s, t, h => (swRequestReceive_exec_fr _ _ s t h).onParts
  | .spareDropLocked .., s, t, h => (spareDropLocked_exec_fr _ s t h).onParts
  | .swReadyReceive .., s, t, h => (swReadyReceive_exec_fr _ _ s t h).onParts
  | .duplicateIntervalEnd .., s, t, h => (duplicateIntervalEnd_exec_fr _ s t h).onParts
  | .swMarkReceive .., s, t, h => (swMarkReceive_exec_fr _ _ _ s t h).onParts
  | .swDoneReceive .., s, t, h => (swDoneReceive_exec_fr _ _ s t h).onParts
  | .fadedLaserDark .., s, t, h => (fadedLaserDark_exec_fr _ s t h).onParts
  | .swNakReceive .., s, t, h => (swNakReceive_exec_fr _ _ s t h).onParts
  | .swapReadyTimeout .., s, t, h => (swapReadyTimeout_exec_fr _ s t h).onParts
  | .swapDoneTimeout .., s, t, h => (swapDoneTimeout_exec_fr _ s t h).onParts
  | .swapRetry .., s, t, h => (swapRetry_exec_fr _ s t h).onParts
  | .journalAppend .., s, t, h => (journalAppend_exec_fr _ _ s t h).onParts
  | .calPassStart .., s, t, h => (calPassStart_exec_fr _ s t h).onParts
  | .calSlotStart .., s, t, h => (calSlotStart_exec_fr _ s t h).onParts
  | .calSweepDone .., s, t, h => (calSweepDone_exec_fr _ _ s t h).onParts
  | .sprueSet .., s, t, h => (sprueSet_exec_fr _ _ s t h).onParts
  | .sprueThrough .., s, t, h => (sprueThrough_exec_fr _ _ s t h).onParts
  | .sprueRelease .., s, t, h => (sprueRelease_exec_fr _ _ s t h).onParts
  | .sprueReleaseDone .., s, t, h => (sprueReleaseDone_exec_fr _ _ s t h).onParts
  | .blockReceive .., s, t, h => (blockReceive_exec_fr _ _ _ _ _ _ s t h).onParts
  | .heartbeatSend .., s, t, h => (heartbeatSend_exec_fr _ s t h).onParts
  | .heartbeatReceive .., s, t, h => (heartbeatReceive_exec_fr _ _ s t h).onParts
  | .heartbeatTimeout .., s, t, h => (heartbeatTimeout_exec_fr _ s t h).onParts
  | .positionSend .., s, t, h => (positionSend_exec_fr _ s t h).onParts
  | .positionReceive .., s, t, h => (positionReceive_exec_fr _ _ s t h).onParts
  | .creditReceive .., s, t, h => (creditReceive_exec_fr _ _ _ s t h).onParts
  | .creditResyncReceive .., s, t, h => (creditResyncReceive_exec_fr _ _ s t h).onParts
  | .retryReceive .., s, t, h => (retryReceive_exec_fr _ _ s t h).onParts
  | .retryTimeout .., s, t, h => (retryTimeout_exec_fr _ s t h).onParts
  | .marginReportReceive .., s, t, h => (marginReportReceive_exec_fr _ _ s t h).onParts
  | .linkctlQuiesceReceive .., s, t, h => (linkctlQuiesceReceive_exec_fr _ _ s t h).onParts
  | .linkctlResumeReceive .., s, t, h => (linkctlResumeReceive_exec_fr _ _ s t h).onParts
  | .linkctlDisableReceive .., s, t, h => (linkctlDisableReceive_exec_fr _ _ s t h).onParts
  | .lossOfLight .., s, t, h => (lossOfLight_exec_fr _ s t h).onParts
  | .lightPresent .., s, t, h => (lightPresent_exec_fr _ s t h).onParts
  | .linkEnable .., s, t, h => (linkEnable_exec_fr _ _ _ s t h).onParts
  | .linkDisable .., s, t, h => (linkDisable_exec_fr _ _ _ s t h).onParts
  | .frameAdmitRetry .., s, t, h => (frameAdmitRetry_exec_fr _ s t h).onParts
  | .spillPrefetch .., s, t, h => (spillPrefetch_exec_fr _ _ s t h).onParts
  | .gateMatch, s, t, h => (gateMatch_exec_fr s t h).onParts
  | .runnerReplicate .., s, t, h => (runnerReplicate_exec_fr _ s t h).onParts
  | .slagSweep, s, t, h => (slagSweep_exec_fr s t h).onParts
  | .satHoldExpiry .., s, t, h => (satHoldExpiry_exec_fr _ s t h).onParts
  | .satRearmExpiry .., s, t, h => (satRearmExpiry_exec_fr _ s t h).onParts
  | .queuedFrameMove .., s, t, h => (queuedFrameMove_exec_fr _ s t h).onParts
  | .tdmaWrite .., s, t, h => (tdmaWrite_exec_fr _ s t h).onParts
  | .tdmaRead .., s, t, h => (tdmaRead_exec_fr _ s t h).onParts
  | .emInsert .., s, t, h => (emInsert_exec_fr _ s t h).onParts
  | .emDelete .., s, t, h => (emDelete_exec_fr _ s t h).onParts
  | .tdmaLock .., s, t, h => (tdmaLock_exec_fr _ s t h).onParts
  | .tdmaUnlock .., s, t, h => (tdmaUnlock_exec_fr _ s t h).onParts
  | .tdmaPurge .., s, t, h => (tdmaPurge_exec_fr _ s t h).onParts
  | .purgeComplete .., s, t, h => (purgeComplete_exec_fr _ s t h).onParts
  | .mgmtEthReceive .., s, t, h => (mgmtEthReceive_exec_fr _ _ s t h).onParts
  | .collContribReceive .., s, t, h => (collContribReceive_exec_fr _ _ _ s t h).onParts
  | .collCombineReceive .., s, t, h => (collCombineReceive_exec_fr _ _ _ s t h).onParts
  | .slotScrubDone .., s, t, h => (slotScrubDone_exec_fr _ _ s t h).onParts
  | .planLoad .., s, t, h => (planLoad_exec_fr _ s t h).onParts
  | .planUnload .., s, t, h => (planUnload_exec_fr _ s t h).onParts
  | .planUnloadDone .., s, t, h => (planUnloadDone_exec_fr _ s t h).onParts
  | .planArm .., s, t, h => (planArm_exec_fr _ s t h).onParts
  | .planDisarm .., s, t, h => (planDisarm_exec_fr _ s t h).onParts
  | .planDisarmDone .., s, t, h => (planDisarmDone_exec_fr _ s t h).onParts
  | .pourComparatorLoad .., s, t, h => (pourComparatorLoad_exec_fr _ s t h).onParts
  | .runStart .., s, t, h => (runStart_exec_fr _ s t h).onParts
  | .pourTime .., s, t, h => (pourTime_exec_fr _ s t h).onParts
  | .phaseStart .., s, t, h => (phaseStart_exec_fr _ s t h).onParts
  | .phaseDeadline .., s, t, h => (phaseDeadline_exec_fr _ _ s t h).onParts
  | .waitBoundExpiry .., s, t, h => (waitBoundExpiry_exec_fr _ _ s t h).onParts
  | .wordIssue .., s, t, h => (wordIssue_exec_fr _ _ _ s t h).onParts
  | .memDataArrive .., s, t, h => (memDataArrive_exec_fr _ s t h).onParts
  | .frameLaunch .., s, t, h => (frameLaunch_exec_fr _ s t h).onParts
  | .ctxSetup .., s, t, h => (ctxSetup_exec_fr _ s t h).onParts
  | .ctxRead .., s, t, h => (ctxRead_exec_fr _ s t h).onParts
  | .ctxExclude .., s, t, h => (ctxExclude_exec_fr _ s t h).onParts
  | .ctxInclude .., s, t, h => (ctxInclude_exec_fr _ s t h).onParts
  | .ctxStats .., s, t, h => (ctxStats_exec_fr _ s t h).onParts
  | .ctxTeardown .., s, t, h => (ctxTeardown_exec_fr _ s t h).onParts
  | .ctxScrubDone .., s, t, h => (ctxScrubDone_exec_fr _ s t h).onParts
  | .dynTimeoutExpiry .., s, t, h => (dynTimeoutExpiry_exec_fr _ s t h).onParts
  | .rotPassStart .., s, t, h => (rotPassStart_exec_fr _ s t h).onParts
  | .memRotReqWrite .., s, t, h => (memRotReqWrite_exec_fr _ _ s t h).onParts
  | .rotCopyDone .., s, t, h => (rotCopyDone_exec_fr _ s t h).onParts
  | .rotSwitch .., s, t, h => (rotSwitch_exec_fr _ s t h).onParts
  | .rotTrainDone .., s, t, h => (rotTrainDone_exec_fr _ _ s t h).onParts
  | .rotTestDone .., s, t, h => (rotTestDone_exec_fr _ _ s t h).onParts
  | .memTransfer .., s, t, h => (memTransfer_exec_fr _ _ _ _ _ _ s t h).onParts
  | .pageRetirementDone .., s, t, h => (pageRetirementDone_exec_fr _ _ s t h).onParts
  | .patrolPassStart, s, t, h => (patrolPassStart_exec_fr s t h).onParts
  | .memHotClearExpiry .., s, t, h => (memHotClearExpiry_exec_fr _ s t h).onParts
  | .rebuildComplete .., s, t, h => (rebuildComplete_exec_fr _ s t h).onParts
  | .regionScrubDone, s, t, h => (regionScrubDone_exec_fr s t h).onParts
  | .memPutReceive .., s, t, h => (memPutReceive_exec_fr _ _ _ s t h).onParts
  | .memGetReceive .., s, t, h => (memGetReceive_exec_fr _ _ _ s t h).onParts
  | .memAtomicReceive .., s, t, h => (memAtomicReceive_exec_fr _ _ _ s t h).onParts
  | .fabricMemDone, s, t, h => (fabricMemDone_exec_fr s t h).onParts
  | .timeSyncSend .., s, t, h => (timeSyncSend_exec_fr _ _ s t h).onParts
  | .timeAnnounceSend .., s, t, h => (timeAnnounceSend_exec_fr _ _ s t h).onParts
  | .timeSyncReceive .., s, t, h => (timeSyncReceive_exec_fr _ _ s t h).onParts
  | .timeDelayReqReceive .., s, t, h => (timeDelayReqReceive_exec_fr _ _ s t h).onParts
  | .timeDelayRespReceive .., s, t, h => (timeDelayRespReceive_exec_fr _ _ s t h).onParts
  | .timeAnnounceReceive .., s, t, h => (timeAnnounceReceive_exec_fr _ _ s t h).onParts
  | .timeExchangeTimeout .., s, t, h => (timeExchangeTimeout_exec_fr _ s t h).onParts
  | .timeMasterLost .., s, t, h => (timeMasterLost_exec_fr _ s t h).onParts
  | .ppsEdge, s, t, h => (ppsEdge_exec_fr s t h).onParts
  | .ppsNoEdgeTimeout, s, t, h => (ppsNoEdgeTimeout_exec_fr s t h).onParts
  | .ppsOutRise, s, t, h => (ppsOutRise_exec_fr s t h).onParts
  | .ppsOutFall, s, t, h => (ppsOutFall_exec_fr s t h).onParts
  | .timeSwitch .., s, t, h => (timeSwitch_exec_fr _ s t h).onParts
  | .timeReacq .., s, t, h => (timeReacq_exec_fr _ _ _ s t h).onParts
  | .timeDomainDisable .., s, t, h => (timeDomainDisable_exec_fr _ _ _ s t h).onParts
  | .timeNowRead .., s, t, h => (timeNowRead_exec_fr _ s t h).onParts
  | .cmdTail .., s, t, h => (cmdTail_exec_fr _ _ _ s t h).onParts
  | .cqHead .., s, t, h => (cqHead_exec_fr _ _ _ s t h).onParts
  | .cqArm .., s, t, h => (cqArm_exec_fr _ _ s t h).onParts
  | .eqHead .., s, t, h => (eqHead_exec_fr _ _ _ s t h).onParts
  | .eqArm .., s, t, h => (eqArm_exec_fr _ _ s t h).onParts
  | .tdmaTail .., s, t, h => (tdmaTail_exec_fr _ _ _ s t h).onParts
  | .ploadTail .., s, t, h => (ploadTail_exec_fr _ _ _ s t h).onParts
  | .doorbellStray .., s, t, h => (doorbellStray_exec_fr _ _ _ _ _ s t h).onParts
  | .descriptorFetch .., s, t, h => (descriptorFetch_exec_fr _ _ _ s t h).onParts
  | .hostBufferAccess .., s, t, h => (hostBufferAccess_exec_fr _ _ _ s t h).onParts
  | .coalUsExpiry .., s, t, h => (coalUsExpiry_exec_fr _ _ s t h).onParts
  | .ringEnable .., s, t, h => (ringEnable_exec_fr _ _ _ _ s t h).onParts
  | .ringDisable .., s, t, h => (ringDisable_exec_fr _ _ _ _ s t h).onParts
  | .ringDrained .., s, t, h => (ringDrained_exec_fr _ _ s t h).onParts
  | .ringAssignWrite .., s, t, h => (ringAssignWrite_exec_fr _ _ _ s t h).onParts
  | .sendFrame .., s, t, h => (sendFrame_exec_fr _ s t h).onParts
  | .telemetryBuf .., s, t, h => (telemetryBuf_exec_fr _ s t h).onParts
  | .telemetryBufTimeout .., s, t, h => (telemetryBufTimeout_exec_fr _ s t h).onParts
  | .memWrite .., s, t, h => (memWrite_exec_fr _ s t h).onParts
  | .memRead .., s, t, h => (memRead_exec_fr _ s t h).onParts
  | .debugRead .., s, t, h => (debugRead_exec_fr _ _ s t h).onParts
  | .nop .., s, t, h => (nop_exec_fr _ s t h).onParts
  | .getInfo, s, t, h => (getInfo_exec_fr s t h).onParts
  | .getMeasurement, s, t, h => (getMeasurement_exec_fr s t h).onParts
  | .fwStage .., s, t, h => (fwStage_exec_fr _ _ s t h).onParts
  | .fwRecover .., s, t, h => (fwRecover_exec_fr _ s t h).onParts
  | .svnCommit, s, t, h => (svnCommit_exec_fr s t h).onParts
  | .keyRevoke, s, t, h => (keyRevoke_exec_fr s t h).onParts
  | .vfFlr .., s, t, h => (vfFlr_exec_fr _ s t h).onParts
  | .pfFlr, s, t, h => (pfFlr_exec_fr s t h).onParts
  | .pcieLinkDown, s, t, h => (pcieLinkDown_exec_fr s t h).onParts
  | .vfEnable .., s, t, h => (vfEnable_exec_fr _ s t h).onParts
  | .vfDisable .., s, t, h => (vfDisable_exec_fr _ s t h).onParts
  | .linkFenceSet .., s, t, h => (linkFenceSet_exec_fr _ _ s t h).onParts
  | .linkFenceClear .., s, t, h => (linkFenceClear_exec_fr _ _ s t h).onParts
  | .deadHoldExpiry .., s, t, h => (deadHoldExpiry_exec_fr _ s t h).onParts
  | .fenceNAssert, s, t, h => (fenceNAssert_exec_fr s t h).onParts
  | .fenceNDeassert, s, t, h => (fenceNDeassert_exec_fr s t h).onParts
  | .fenceNHoldExpiry, s, t, h => (fenceNHoldExpiry_exec_fr s t h).onParts
  | .fenceUnstableClear .., s, t, h => (fenceUnstableClear_exec_fr _ s t h).onParts
  | .wakeNAssert, s, t, h => (wakeNAssert_exec_fr s t h).onParts
  | .wakeNHoldExpiry, s, t, h => (wakeNHoldExpiry_exec_fr s t h).onParts
  | .wakeRearm .., s, t, h => (wakeRearm_exec_fr _ s t h).onParts
  | .perstNAssert, s, t, h => (perstNAssert_exec_fr s t h).onParts
  | .perstNRelease, s, t, h => (perstNRelease_exec_fr s t h).onParts
  | .thermalSample .., s, t, h => (thermalSample_exec_fr _ _ _ s t h).onParts
  | .thermalClearExpiry .., s, t, h => (thermalClearExpiry_exec_fr _ _ s t h).onParts
  | .counterRead .., s, t, h => (counterRead_exec_fr _ _ s t h).onParts
  | .sampleDataRead .., s, t, h => (sampleDataRead_exec_fr _ _ s t h).onParts
  | .pwrGoodAssert, s, t, h => (pwrGoodAssert_exec_fr s t h).onParts
  | .pwrGoodDeassert, s, t, h => (pwrGoodDeassert_exec_fr s t h).onParts
  | .vinTrip .., s, t, h => (vinTrip_exec_fr _ s t h).onParts
  | .ilimTrip .., s, t, h => (ilimTrip_exec_fr _ s t h).onParts
  | .overcurrentTrip .., s, t, h => (overcurrentTrip_exec_fr _ s t h).onParts
  | .railFault .., s, t, h => (railFault_exec_fr _ _ s t h).onParts
  | .vinStable, s, t, h => (vinStable_exec_fr s t h).onParts
  | .powerCapSample .., s, t, h => (powerCapSample_exec_fr _ _ _ _ s t h).onParts
  | .cappingClearExpiry, s, t, h => (cappingClearExpiry_exec_fr s t h).onParts
  | .pwrReqActive .., s, t, h => (pwrReqActive_exec_fr _ s t h).onParts
  | .pwrReqParked .., s, t, h => (pwrReqParked_exec_fr _ s t h).onParts
  | .pwrReqRetain .., s, t, h => (pwrReqRetain_exec_fr _ s t h).onParts
  | .pwrReqStandby .., s, t, h => (pwrReqStandby_exec_fr _ s t h).onParts
  | .i3cRequestWake, s, t, h => (i3cRequestWake_exec_fr s t h).onParts
  | .i3cRequestStandby, s, t, h => (i3cRequestStandby_exec_fr s t h).onParts
  | .parkDrainDone, s, t, h => (parkDrainDone_exec_fr s t h).onParts
  | .parkDrainLimit, s, t, h => (parkDrainLimit_exec_fr s t h).onParts
  | .parkDisableDone, s, t, h => (parkDisableDone_exec_fr s t h).onParts
  | .lowPowerEntryDone, s, t, h => (lowPowerEntryDone_exec_fr s t h).onParts
  | .wakeTimer, s, t, h => (wakeTimer_exec_fr s t h).onParts
  | .wakeParkedDone, s, t, h => (wakeParkedDone_exec_fr s t h).onParts
  | .wakeRetainDone, s, t, h => (wakeRetainDone_exec_fr s t h).onParts
  | .powerOn .., s, t, h => (powerOn_exec_fr _ _ _ s t h).onParts
  | .coldReset .., s, t, h => (coldReset_exec_fr _ _ s t h).onParts
  | .warmReset .., s, t, h => (warmReset_exec_fr _ _ s t h).onParts
  | .pllLockLost .., s, t, h => (pllLockLost_exec_fr _ s t h).onParts
  | .pllRelockTimeout .., s, t, h => (pllRelockTimeout_exec_fr _ s t h).onParts
  | .crossingWaitExpiry .., s, t, h => (crossingWaitExpiry_exec_fr _ _ s t h).onParts
  | .patternCopyRead .., s, t, h => (patternCopyRead_exec_fr _ _ _ s t h).onParts
  | .journalCompactionDone, s, t, h => (journalCompactionDone_exec_fr s t h).onParts
  | .railUp .., s, t, h => (railUp_exec_fr _ _ s t h).onParts
  | .mainResetRelease, s, t, h => (mainResetRelease_exec_fr s t h).onParts
  | .firmwareAccepted .., s, t, h => (firmwareAccepted_exec_fr _ _ s t h).onParts
  | .sramZeroDone, s, t, h => (sramZeroDone_exec_fr s t h).onParts
  | .memTrainDone .., s, t, h => (memTrainDone_exec_fr _ s t h).onParts
  | .memZeroDone, s, t, h => (memZeroDone_exec_fr s t h).onParts
  | .memVerifyDone .., s, t, h => (memVerifyDone_exec_fr _ s t h).onParts
  | .moduleReady, s, t, h => (moduleReady_exec_fr s t h).onParts
  | .blockTransmit .., s, t, h => (blockTransmit_exec_fr _ s t h).onParts
  | .alwaysOnDomainStop, s, t, h => (alwaysOnDomainStop_exec_fr s t h).onParts
  | .aonResetEnd .., s, t, h => (aonResetEnd_exec_fr _ _ _ _ s t h).onParts
  | .pcieL1Exit, s, t, h => (pcieL1Exit_exec_fr s t h).onParts
  | .pllRelocked .., s, t, h => (pllRelocked_exec_fr _ s t h).onParts
  | .timeAnnounceExpiry .., s, t, h => (timeAnnounceExpiry_exec_fr _ _ s t h).onParts
  | .wakeNDeassert, s, t, h => (wakeNDeassert_exec_fr s t h).onParts

theorem exec_next (c : Instr) (s : State) : ∃ t, exec c s = .next t := by
  cases c <;> exact ⟨_, rfl⟩

/-- Settles O57: the frame of each command is its mask in `exec_fr`. -/
theorem everyCommandKeepsItsFrame : Obligations.EveryCommandKeepsItsFrame := by
  unfold Obligations.EveryCommandKeepsItsFrame
  intro c s
  obtain ⟨t, h⟩ := exec_next c s
  have fr := exec_fr c s t h
  exact ⟨t, h, fr.pending, fr.variant, fr.later, fun p hp => fr.same p (maskOf_testBit hp)⟩

/-- Soundness does not look at the waiting commands. -/
theorem Sound.of_queue {s : State} (h : Sound s) (l : List Instr) : Sound { s with pending := l } := h

theorem step_of_empty {s : State} (h : s.pending = []) : step s = .next (tick s) := by
  unfold step; rw [h]

theorem step_of_cons {s : State} {c : Instr} {rest : List Instr} (h : s.pending = c :: rest) :
    step s = exec c { s with pending := rest } := by
  unfold step; rw [h]

/-- Settles O58: an idle step is the tick, any other the front command on the state with the queue's rest; both keep
a sound state sound (`tick_fr`, `exec_fr`). -/
theorem soundKeptByEveryStep : Obligations.SoundKeptByEveryStep := by
  unfold Obligations.SoundKeptByEveryStep
  intro s t sound h
  cases queue : s.pending with
  | nil =>
    rw [step_of_empty queue] at h
    exact Host.Outcome.next.inj h ▸ (tick_fr s).sound sound
  | cons c rest =>
    rw [step_of_cons queue] at h
    exact (exec_fr c _ t h).sound (sound.of_queue rest)

/-- Settles O1. -/
theorem stepRunsFrontCommand : Obligations.StepRunsFrontCommand := by
  unfold Obligations.StepRunsFrontCommand
  intro c rest s
  exact step_of_cons rfl

/-! #### The idle step -/

theorem forEach_eq_self {α : Type} (l : List α) (s : State) (f : State → α → State) (h : ∀ a, f s a = s) :
    forEach l s f = s := by
  unfold forEach
  induction l with
  | nil => rfl
  | cons a l ih => rw [List.foldl_cons, h a, ih]

theorem endPhasesDue_of_none {s : State} (h : ∀ n, (seqr s n).endAt = none) : endPhasesDue s = s :=
  forEach_eq_self _ _ _ fun n => by rw [h n]

theorem serveDue_of_empty {s : State} {k h : Nat} (idle : (memCh s k h).rdq = [] ∧ (memCh s k h).wrq = []) :
    ∀ n, serveDue k h n s = s
  | 0 => rfl
  | n + 1 => by
    unfold serveDue
    dsimp only
    rw [idle.1, idle.2]
    rfl

theorem serveChannels_of_empty {s : State} (h : ∀ k h, (memCh s k h).rdq = [] ∧ (memCh s k h).wrq = []) :
    serveChannels s = s := forEach_eq_self _ _ _ fun _ => serveDue_of_empty (h _ _) _

/-- Settles O60: the tick moves time by one, phases and channels write neither it nor the queue (`tick_fr`), and where
none has anything due they do nothing. -/
theorem idleStepLetsTimePass : Obligations.IdleStepLetsTimePass := by
  unfold Obligations.IdleStepLetsTimePass
  intro s queue
  rw [step_of_empty queue]
  refine ⟨⟨_, rfl, ?_, ?_⟩, fun phases channels => congrArg Host.Outcome.next ?_⟩
  · exact ((serveChannels_fr _).now rfl).trans ((endPhasesDue_fr _).now rfl)
  · exact (tick_fr s).pending.trans queue
  · have phases' : endPhasesDue { s with now := s.now + 1 } = { s with now := s.now + 1 } := endPhasesDue_of_none phases
    unfold tick
    rw [phases']
    exact serveChannels_of_empty channels

/-! #### Reset -/

/-- Settles O59. -/
theorem resetHoldsWhatTheSpecGives : Obligations.ResetHoldsWhatTheSpecGives := by
  unfold Obligations.ResetHoldsWhatTheSpecGives
  have sound : Sound State.reset := by unfold Sound; decide
  refine ⟨sound, fun _ => rfl, fun _ _ => rfl, rfl, fun _ => ⟨rfl, rfl⟩, rfl, fun _ => rfl, fun key hkey => ?_,
    fun _ => rfl, rfl⟩
  have below : ¬ totalGranules ≤ key / 4 := by omega
  exact if_neg below

/-! #### Reads of counters and samples: R385, R387, R399 -/

theorem readReaches_of_main {s : State} {f : Func} (h : mayReadMain s f = true) :
    readReaches s f = true ∧ mainAlive s = true := Bool.and_eq_true_iff.1 h

theorem counterRead_main {s : State} {f : Func} (h : mayReadMain s f = true) (i : Nat) : counterRead f i s =
    emit { s with cnt := { s.cnt with
        last := tset 0 s.cnt.last (lastSlot f) (mkWord [at_ 32 (nt32 s), i % 2 ^ 18]) } }
      (.readData f (BitVec.ofNat 64 (counterValue s i))) := by
  obtain ⟨reaches, alive⟩ := readReaches_of_main h
  unfold counterRead
  rw [reaches, alive]
  rfl

theorem counterRead_dark {s : State} {f : Func} (h : readReaches s f = true) (dark : mainAlive s = false) (i : Nat) :
    counterRead f i s = emit s (.readData f 0) := by
  unfold counterRead
  rw [h, dark]
  rfl

theorem counterRead_unreached {s : State} {f : Func} (h : readReaches s f = false) (i : Nat) :
    counterRead f i s = s := by
  unfold counterRead
  rw [h]
  rfl

/-- What a read of SMP_DATA leaves in its die's buffer (R399). -/
def sampleMoved (s : State) (d : Nat) : State :=
  match (smp s d).recs with
  | [] => s
  | _ :: rest =>
    if (smp s d).pos = 3 then setSmp s d { smp s d with pos := 0, recs := rest }
    else setSmp s d { smp s d with pos := (smp s d).pos + 1 }

theorem sampleDataRead_main {s : State} {f : Func} (h : mayReadMain s f = true) (d : Nat) :
    sampleDataRead f d s = emit (sampleMoved s d) (.readData f (sampleWordAt s d)) := by
  obtain ⟨reaches, alive⟩ := readReaches_of_main h
  unfold sampleDataRead
  rw [reaches, alive]
  rfl

theorem sampleDataRead_dark {s : State} {f : Func} (h : readReaches s f = true) (dark : mainAlive s = false) (d : Nat) :
    sampleDataRead f d s = emit s (.readData f 0) := by
  unfold sampleDataRead
  rw [h, dark]
  rfl

theorem sampleDataRead_unreached {s : State} {f : Func} (h : readReaches s f = false) (d : Nat) :
    sampleDataRead f d s = s := by
  unfold sampleDataRead
  rw [h]
  rfl

theorem sampleMoved_empty {s : State} {d : Nat} (h : (smp s d).recs = []) : sampleMoved s d = s := by
  unfold sampleMoved; rw [h]

theorem sampleMoved_word {s : State} {d : Nat} {r : List Word} {rest : List (List Word)}
    (h : (smp s d).recs = r :: rest) (early : (smp s d).pos < 3) :
    sampleMoved s d = setSmp s d { smp s d with pos := (smp s d).pos + 1 } := by
  unfold sampleMoved; rw [h]
  exact if_neg (by omega)

theorem sampleMoved_last {s : State} {d : Nat} {r : List Word} {rest : List (List Word)}
    (h : (smp s d).recs = r :: rest) (last : (smp s d).pos = 3) :
    sampleMoved s d = setSmp s d { smp s d with pos := 0, recs := rest } := by
  unfold sampleMoved; rw [h]
  exact if_pos last

theorem smp_emit (s : State) (o : Output) (d : Nat) : smp (emit s o) d = smp s d := rfl

theorem sampleMoved_out (s : State) (d : Nat) : (sampleMoved s d).out = s.out := by
  unfold sampleMoved
  split
  · rfl
  · split <;> rfl

/-- Settles O15: each clause is the equation of its branch of the read. -/
theorem counterAndSampleReads : Obligations.CounterAndSampleReads := by
  unfold Obligations.CounterAndSampleReads
  refine fun s => ⟨fun f i h => ?_, fun f d h => ?_, fun f c reaches dark which => ?_, fun n i d => ⟨?_, ?_⟩⟩
  · refine ⟨_, congrArg Host.Outcome.next (counterRead_main h i), rfl, tget_tset_same .., fun g hg => ?_, rfl,
      ?_⟩
    · exact tget_tset_other _ _ _ _ _ _ hg
    · rw [← counterRead_main h i]
      exact (counterRead_fr f i s).onlyChanges _
  · refine ⟨_, congrArg Host.Outcome.next (sampleDataRead_main h d), ?_, fun r rest hrecs early => ?_,
      fun r rest hrecs last => ?_, fun hrecs => ?_, ?_⟩
    · rw [← sampleMoved_out s d]
      rfl
    · rw [smp_emit, sampleMoved_word hrecs early, smp_setSmp]
      exact ⟨hrecs, rfl⟩
    · rw [smp_emit, sampleMoved_last hrecs last, smp_setSmp]
      exact ⟨rfl, rfl⟩
    · rw [smp_emit, sampleMoved_empty hrecs]
    · rw [← sampleDataRead_main h d]
      exact (sampleDataRead_fr f d s).onlyChanges _
  · rcases which with ⟨i, rfl⟩ | ⟨d, rfl⟩
    · exact congrArg Host.Outcome.next (counterRead_dark reaches dark i)
    · exact congrArg Host.Outcome.next (sampleDataRead_dark reaches dark d)
  · exact congrArg Host.Outcome.next (counterRead_unreached rfl i)
  · exact congrArg Host.Outcome.next (sampleDataRead_unreached rfl d)

end Sys2Proof.Machine

/-! ### What a reset keeps of the register file: R12, R13, R431 -/

namespace Sys2Proof.Machine

set_option Elab.async false

/-- What a warm reset keeps of a register's value: its sticky bits over the reset value (R13). -/
def keptWord (s : State) (b : Bool) (off : Nat) (w : Word) : Word :=
  let sticky := (regInfo s.variant s.boot.strapBl2 off).rws
  BitVec.ofNat 64 (((regReset s.variant b off).toNat &&& (ones ^^^ sticky)) ||| (w.toNat &&& sticky))

theorem keptWord_reset (s : State) (b : Bool) (off : Nat) :
    keptWord s b off (regReset s.variant b off) = regReset s.variant b off := by
  apply BitVec.eq_of_toNat_eq
  apply Nat.eq_of_testBit_eq
  intro i
  unfold keptWord
  simp only [testBit_ofNat64, Nat.testBit_or, Nat.testBit_and, Nat.testBit_xor, ones_testBit]
  by_cases hi : i < 64
  · cases (regInfo s.variant s.boot.strapBl2 off).rws.testBit i <;> simp [hi]
  · simp [hi, lt64_testBit (BitVec.isLt _) hi]

theorem keepEntry_same (s : State) (b : Bool) (t : Tab Word) (off : Nat) (w : Word) :
    tget (regReset s.variant b off) (keepEntry s b t (off, w)) off = keptWord s b off w := tget_tset_same ..

theorem keepEntry_other {s : State} {b : Bool} {off : Nat} (t : Tab Word) {e : Nat × Word} (h : e.1 ≠ off) :
    tget (regReset s.variant b off) (keepEntry s b t e) off = tget (regReset s.variant b off) t off :=
  tget_tset_other _ _ _ _ _ _ (Ne.symm h)

theorem foldl_keepEntry_other {s : State} {b : Bool} {off : Nat} {l : Tab Word} (t : Tab Word)
    (h : ∀ e ∈ l, e.1 ≠ off) :
    tget (regReset s.variant b off) (l.foldl (keepEntry s b) t) off = tget (regReset s.variant b off) t off := by
  induction l generalizing t with
  | nil => rfl
  | cons e l ih =>
    exact (ih _ fun x hx => h x (List.mem_cons_of_mem _ hx)).trans (keepEntry_other t (h e List.mem_cons_self))

theorem foldl_keepEntry {s : State} {b : Bool} {off : Nat} {d : Nat → Word} {l : Tab Word} {t : Tab Word}
    (rising : tabWf d l = true)
    (ht : tget (regReset s.variant b off) t off = regReset s.variant b off) :
    tget (regReset s.variant b off) (l.foldl (keepEntry s b) t) off =
      keptWord s b off (tget (regReset s.variant b off) l off) := by
  induction l generalizing t with
  | nil => exact ht.trans (keptWord_reset s b off).symm
  | cons e l ih =>
    obtain ⟨k, w⟩ := e
    obtain ⟨_, above, rest⟩ := (tabWf_cons d k w l).1 rising
    rw [tget_cons, List.foldl_cons]
    by_cases here : k = off
    · subst here
      rw [if_pos rfl, foldl_keepEntry_other _ fun e he => (above e he).ne', keepEntry_same]
    · rw [if_neg here]
      exact ih rest ((keepEntry_other t here).trans ht)

/-- A register after the reset of a canonical register file. -/
theorem getR_keepSticky {s : State} (sound : Sound s) (off : Nat) :
    tget (regReset s.variant s.boot.strapBl2 off) (keepSticky s s.boot.strapBl2) off =
      keptWord s s.boot.strapBl2 off (getR s off) := by
  have rising := (Bool.and_eq_true_iff.1 sound.1).1
  rw [keepSticky_eq]
  exact foldl_keepEntry rising rfl

theorem tget_eq_or_mem {α : Type} (d : α) (t : Tab α) (k : Nat) : tget d t k = d ∨ (k, tget d t k) ∈ t := by
  induction t with
  | nil => exact .inl rfl
  | cons e t ih =>
    obtain ⟨k', v⟩ := e
    rw [tget_cons]
    split
    · next here => exact .inr (here ▸ List.mem_cons_self)
    · exact ih.imp id (List.mem_cons_of_mem _)

/-- A sound register file holds every register with its reserved bits at their reset values (R12). -/
theorem regClip_getR {s : State} (sound : Sound s) (off : Nat) :
    regClip (regInfo s.variant s.boot.strapBl2 off) (getR s off).toNat = (getR s off).toNat := by
  have held := List.all_eq_true.1 (Bool.and_eq_true_iff.1 sound.1).2
  rcases tget_eq_or_mem (regReset s.variant s.boot.strapBl2 off) s.regs off with fresh | listed
  · have small := regInfo_reset_lt s.variant s.boot.strapBl2 off
    have value : (getR s off).toNat = (regInfo s.variant s.boot.strapBl2 off).reset := by
      rw [show getR s off = regReset s.variant s.boot.strapBl2 off from fresh, regReset, BitVec.toNat_ofNat,
        Nat.mod_eq_of_lt small]
    rw [value]
    apply Nat.eq_of_testBit_eq
    intro i
    rw [regClip, Nat.testBit_or, Nat.testBit_and, Nat.testBit_and, Nat.testBit_xor, ones_testBit]
    by_cases hi : i < 64
    · cases (regBits (regInfo s.variant s.boot.strapBl2 off)).testBit i <;> simp [hi]
    · simp [lt64_testBit small hi]
  · exact of_decide_eq_true (held _ listed)

/-! ### Power trips and PWR_GOOD: R411 to R415 -/

theorem shiftLeft_and_mask {a w : Nat} (k : Nat) (h : a < 2 ^ w) : a <<< k &&& (2 ^ w - 1) <<< k = a <<< k := by
  rw [← Nat.shiftLeft_and_distrib, Nat.and_two_pow_sub_one_of_lt_two_pow h]

/-- The word that PWR_FAULT latches of a trip (R414, R424). -/
def tripWord (cause rail vin : Nat) : Word :=
  mkWord [at_ 63 1, at_ 60 cause, at_ 56 (rail % 16), at_ 40 (vin % 2 ^ 16)]

theorem tripFields_toNat {cause r v : Nat} (hcause : cause < 8) (hr : r < 16) (hv : v < 65536) :
    (mkWord [at_ 63 1, at_ 60 cause, at_ 56 r, at_ 40 v]).toNat =
      (((1 <<< 3 + cause) <<< 4 + r) <<< 16 + v) <<< 40 := by
  have small : (((1 <<< 3 + cause) <<< 4 + r) <<< 16 + v) < 2 ^ 24 := by
    rw [Nat.shiftLeft_eq, Nat.shiftLeft_eq, Nat.shiftLeft_eq]
    omega
  have sum : (0 + 1 <<< 63 + cause <<< 60 + r <<< 56 + v <<< 40) =
      (((1 <<< 3 + cause) <<< 4 + r) <<< 16 + v) * 2 ^ 40 := by
    simp only [Nat.shiftLeft_eq]
    ring
  rw [mkWord, BitVec.toNat_ofNat, Nat.shiftLeft_eq _ 40, ← sum]
  refine Nat.mod_eq_of_lt ?_
  rw [List.foldl_cons, List.foldl_cons, List.foldl_cons, List.foldl_cons, List.foldl_nil, at_, at_, at_, at_, sum]
  calc _ < 2 ^ 24 * 2 ^ 40 := Nat.mul_lt_mul_of_pos_right small (by decide)
    _ = 2 ^ 64 := by norm_num
theorem pwrFault_info (v : Variant) (b : Bool) : regInfo v b oPWR_FAULT = { rws := mask 63 40 } := rfl

theorem tripWord_within {cause : Nat} (h : cause < 8) (rail vin : Nat) :
    (tripWord cause rail vin).toNat &&& mask 63 40 = (tripWord cause rail vin).toNat := by
  have wide : mask 63 40 = (2 ^ 24 - 1) <<< 40 := by decide
  have hr : rail % 16 < 16 := Nat.mod_lt _ (by decide)
  have hv : vin % 2 ^ 16 < 65536 := Nat.mod_lt _ (by decide)
  rw [tripWord, tripFields_toNat h hr hv, wide]
  refine shiftLeft_and_mask 40 ?_
  rw [Nat.shiftLeft_eq, Nat.shiftLeft_eq, Nat.shiftLeft_eq]
  omega

/-- PWR_FAULT keeps the first trip (R414). -/
theorem latchTrip_pwrFault {cause : Nat} (h : cause < 8) (s : State) (rail vin : Nat) :
    getR (latchTrip s cause rail vin) oPWR_FAULT =
      if bit (getR s oPWR_FAULT) 63 then getR s oPWR_FAULT else tripWord cause rail vin := by
  have bits : regBits (regInfo s.variant s.boot.strapBl2 oPWR_FAULT) = mask 63 40 := by rw [pwrFault_info]; decide
  unfold latchTrip
  split
  · rfl
  · exact getR_putR_within (by rw [pwrFault_info]) (by rw [bits]; exact tripWord_within h rail vin)

/-- PWR_FAULT is all sticky: STANDBY keeps it. -/
theorem enterStandby_pwrFault {s : State} (sound : Sound s) : getR (enterStandby s) oPWR_FAULT = getR s oPWR_FAULT := by
  have clip := regClip_getR sound oPWR_FAULT
  have bits : regBits ({ rws := mask 63 40 } : RegInfo) = mask 63 40 := by decide
  rw [pwrFault_info, regClip, bits, Nat.zero_and, Nat.zero_or] at clip
  refine (getR_keepSticky sound oPWR_FAULT).trans ?_
  rw [keptWord, regReset, pwrFault_info]
  dsimp only
  have zero : (BitVec.ofNat 64 0).toNat &&& (ones ^^^ mask 63 40) = 0 := Nat.zero_and _
  rw [clip, zero, Nat.zero_or, BitVec.ofNat_toNat, BitVec.setWidth_eq]

theorem enterStandby_mainOff (s : State) : MainOff s (enterStandby s) :=
  ⟨rfl, rfl, rfl, rfl, rfl, rfl, rfl, rfl, rfl, rfl, rfl, rfl, rfl⟩

theorem standbyNow_mainOff {s : State} (h : s.pwr.state ≠ 3) : MainOff s (standbyNow s) := by
  unfold standbyNow
  rw [if_neg h]
  exact enterStandby_mainOff s

theorem standbyNow_pwrFault {s : State} (sound : Sound s) : getR (standbyNow s) oPWR_FAULT = getR s oPWR_FAULT := by
  unfold standbyNow
  split
  · rfl
  · exact enterStandby_pwrFault sound

/-- STANDBY keeps what tells when it may be left and why (R414, R431). -/
theorem standbyNow_pwr (s : State) : (standbyNow s).pwr.state = 3 ∧ (standbyNow s).pwr.vinOk = s.pwr.vinOk ∧
    (standbyNow s).pwr.exitCause = s.pwr.exitCause ∧ (standbyNow s).pwr.pwrGood = s.pwr.pwrGood := by
  unfold standbyNow
  split
  · next off => exact ⟨off, rfl, rfl, rfl⟩
  · exact ⟨rfl, rfl, rfl, rfl⟩

/-- The state in which a trip has been latched and STANDBY is still to come (R414). -/
def tripping (s : State) (cause rail vin : Nat) : State :=
  let x := latchTrip s cause rail vin
  { x with pwr := { x.pwr with vinOk := false, tripAt := some x.now, exitCause := 5 } }

theorem powerTrip_eq {s : State} (live : pinsLive s = true) (cause rail vin : Nat) :
    powerTrip s cause rail vin = standbyNow (tripping s cause rail vin) := by
  unfold powerTrip
  rw [live]
  rfl

theorem powerTrip_spec {s : State} (live : pinsLive s = true) (sound : Sound s) {cause : Nat} (h : cause < 8)
    (rail vin : Nat) : Tripped s (powerTrip s cause rail vin) cause rail vin := by
  have fr := latchTrip_fr s cause rail vin
  have hpwr : (latchTrip s cause rail vin).pwr = s.pwr := fr.pwr rfl
  have hboot : (latchTrip s cause rail vin).boot = s.boot := fr.boot rfl
  have hhif : (latchTrip s cause rail vin).hif = s.hif := fr.hif rfl
  have sound' : Sound (tripping s cause rail vin) := fr.sound sound
  obtain ⟨hstate, hvin, hcause, _⟩ := standbyNow_pwr (tripping s cause rail vin)
  rw [powerTrip_eq live]
  refine ⟨hstate, hvin, hcause, ?_, fun on => ?_⟩
  · exact (standbyNow_pwrFault sound').trans (latchTrip_pwrFault h s rail vin)
  · have off := standbyNow_mainOff (s := tripping s cause rail vin) (by rw [← hpwr] at on; exact on)
    unfold MainOff at off ⊢
    rw [← hpwr, ← hboot, ← hhif]
    exact off

theorem pwrGoodAssert_eq {s : State} (live : pinsLive s = true) (low : s.pwr.pwrGood = false) :
    pwrGoodAssert s = if s.boot.zeroAt.isNone then
        beginStart { s with pwr := { s.pwr with pwrGood := true, state := 0 } }
      else wake { s with pwr := { s.pwr with pwrGood := true } } 6 := by
  unfold pwrGoodAssert
  rw [live, low]
  rfl

theorem pwrGoodDeassert_eq {s : State} (live : pinsLive s = true) (high : s.pwr.pwrGood = true) :
    pwrGoodDeassert s = standbyNow { s with pwr := { s.pwr with pwrGood := false } } := by
  unfold pwrGoodDeassert
  rw [live, high]
  rfl

theorem beginStart_stage (s : State) : (beginStart s).boot.stage = if s.boot.store.isSome then 1 else 0 := by
  unfold beginStart
  by_cases h : s.boot.store.isSome = true
  · rw [if_pos h]
  · rw [if_neg h]

/-- The reset does not look at what else the power manager holds. -/
theorem WarmReset.with_pwr {s t : State} {cause : Nat} (h : WarmReset s t cause) {p : Pwr}
    (energy : p.energy = t.pwr.energy) : WarmReset s { t with pwr := p } cause := by
  obtain ⟨hcause, hcount, hepoch, henergy, rest⟩ := h
  exact ⟨hcause, hcount, hepoch, energy.trans henergy, rest⟩

/-- Leaving STANDBY is a warm reset whose cause is what led into it, or PWR_GOOD (R431). -/
theorem leaveStandby_spec (s : State) (src : Nat) : WakingFrom (leaveStandby s src) src 3 s.now ∧
    WarmReset s (leaveStandby s src) (if src = 6 ∧ s.pwr.exitCause = 3 then 6 else s.pwr.exitCause) :=
  ⟨⟨rfl, rfl, rfl, rfl⟩, (warmReset_spec s _).with_pwr rfl⟩

theorem restartPower_pwrGood (p : Pwr) : (restartPower p).pwrGood = p.pwrGood := by
  unfold restartPower
  split <;> rfl

/-- In STANDBY an admitted source other than LIGHT and TIMER leaves it (R419). -/
theorem wake_standby {s : State} {src : Nat} (standby : s.pwr.state = 3) (enabled : wakeEnabled s src = true)
    (allowed : wakeAllowed s = true) (h : src ≠ 2 ∧ src ≠ 3) : wake s src = leaveStandby s src := by
  unfold wake
  rw [enabled, standby, allowed]
  simp [h]

theorem awaitOpt_some (s : State) (a d : Nat) : awaitOpt s (some a) d = await s a d := rfl

theorem vinStable_eq {s : State} (live : pinsLive s = true) (unstable : s.pwr.vinOk = false) :
    vinStable s = { awaitOpt s s.pwr.tripAt secT with pwr := { s.pwr with vinOk := true } } := by
  unfold vinStable
  rw [live, unstable]
  cases s.pwr.tripAt <;> rfl

/-- Settles O2: every trip is `powerTrip_spec`; PWR_GOOD begins a start, leaves STANDBY (`leaveStandby_spec`) or enters
it (`standbyNow_mainOff`). -/
theorem powerTripsAndPwrGood : Obligations.PowerTripsAndPwrGood := by
  unfold Obligations.PowerTripsAndPwrGood
  intro s live
  refine ⟨fun sound => ⟨fun vin low => ?_, fun vin high => ?_, fun vin low high => ?_, fun vin => ?_, fun vin => ?_,
    fun rail vin => ?_⟩, fun low fresh => ?_, fun low begun standby vin cause cool => ?_, fun high => ?_, fun vin => ?_⟩
  · exact ⟨_, congrArg Host.Outcome.next (if_pos low), powerTrip_spec live sound (by decide) 0 vin⟩
  · have notLow : ¬ vin < 4200 := by omega
    exact ⟨_, congrArg Host.Outcome.next ((if_neg notLow).trans (if_pos high)),
      powerTrip_spec live sound (by decide) 0 vin⟩
  · exact congrArg Host.Outcome.next ((if_neg (by omega)).trans (if_neg (by omega)))
  · exact ⟨_, rfl, powerTrip_spec live sound (by decide) 0 vin⟩
  · exact ⟨_, rfl, powerTrip_spec live sound (by decide) 0 vin⟩
  · exact ⟨_, rfl, powerTrip_spec live sound (by decide) rail vin⟩
  · refine ⟨_, congrArg Host.Outcome.next ((pwrGoodAssert_eq live low).trans (if_pos (by rw [fresh]; rfl))), rfl, rfl,
      ?_, ?_, beginStart_stage _⟩ <;> rfl
  · have allowed : wakeAllowed { s with pwr := { s.pwr with pwrGood := true } } = true := by
      show (true && s.pwr.vinOk && (!s.hlt.tripLatch || sensorsCool s)) = true
      rw [vin]
      cases latch : s.hlt.tripLatch
      · rfl
      · rw [cool latch]
        rfl
    have woken := wake_standby (s := { s with pwr := { s.pwr with pwrGood := true } }) (src := 6) standby rfl allowed
      (by decide)
    obtain ⟨waking, reset⟩ := leaveStandby_spec { s with pwr := { s.pwr with pwrGood := true } } 6
    have started : ¬ s.boot.zeroAt.isNone = true := by
      rw [Option.isNone_iff_eq_none]
      exact Option.isSome_iff_ne_none.1 begun
    refine ⟨_, congrArg Host.Outcome.next (((pwrGoodAssert_eq live low).trans (if_neg started)).trans woken), ?_,
      waking, ?_⟩
    · exact restartPower_pwrGood _
    · rw [if_pos ⟨rfl, cause⟩] at reset
      exact reset
  · obtain ⟨hstate, _, _, hgood⟩ := standbyNow_pwr { s with pwr := { s.pwr with pwrGood := false } }
    exact ⟨_, congrArg Host.Outcome.next (pwrGoodDeassert_eq live high), hgood, hstate, fun on =>
      standbyNow_mainOff (s := { s with pwr := { s.pwr with pwrGood := false } }) on⟩
  · refine ⟨_, congrArg Host.Outcome.next (vinStable_eq live vin), rfl, ?_, fun a trip => ?_⟩
    · rw [← vinStable_eq live vin]
      exact (vinStable_fr s).onlyChanges _
    · rw [trip]
      rfl

/-! ### Requests for a lower power state: R417, R422 -/

/-- The power manager as a request for a lower state is taken (R418). -/
def lowerBegun (s : State) (k : Nat) : State :=
  { s with pwr := { s.pwr with
      state := 4, target := k, reqResult := 0, enterAt := some s.now, drainAt := none
      parkPoint := if s.pwr.state = 0 then none else some s.now } }

theorem lowerPower_taken {s : State} {k : Nat} (hk : k ≤ 3) (below : s.pwr.state < k)
    (free : planInState s (if k = 1 then [4] else [3, 4]) = false) : Fr 86084 (lowerBegun s k) (lowerPower k s) := by
  have taken : lowerPower k s = if s.pwr.state = 0 then linkctlAll (lowerBegun s k) lcQUIESCE
      else if s.pwr.state = 1 then abortCopies (lowerBegun s k) else lowerBegun s k := by
    unfold lowerPower
    dsimp only
    rw [if_neg (by omega), if_neg (by omega), if_neg (by omega), free]
    rfl
  rw [taken]
  exact .ite (linkctlAll_fr _ _).mono (.ite (abortCopies_fr _).mono (.refl _ _))

theorem lowerPower_refused {s : State} {k : Nat} (hk : k ≤ 3) (below : s.pwr.state < k)
    (plan : planInState s (if k = 1 then [4] else [3, 4]) = true) : lowerPower k s = reqResult s 1 := by
  unfold lowerPower
  dsimp only
  rw [if_neg (by omega), if_neg (by omega), if_neg (by omega), if_pos plan]

theorem lowerPower_busy {s : State} (k : Nat) (h : s.pwr.state = 4 ∨ s.pwr.state = 5) :
    lowerPower k s = reqResult s 3 := if_pos h

theorem pwrReq_allowed {s : State} {f : Func} (k : Nat) (h : mayWrite s f = true) : pwrReq k f s = lowerPower k s :=
  if_pos h

/-- Settles O3: each command is `lowerPower` with its target. -/
theorem powerRequestTakenOrRefused : Obligations.PowerRequestTakenOrRefused := by
  unfold Obligations.PowerRequestTakenOrRefused
  intro s c k which
  have asks : exec c s = .next (lowerPower k s) ∧ k ≤ 3 := by
    rcases which with ⟨f, may, ⟨rfl, rfl⟩ | ⟨rfl, rfl⟩ | ⟨rfl, rfl⟩⟩ | ⟨live, rfl, rfl⟩
    · exact ⟨congrArg Host.Outcome.next (pwrReq_allowed 1 may), by decide⟩
    · exact ⟨congrArg Host.Outcome.next (pwrReq_allowed 2 may), by decide⟩
    · exact ⟨congrArg Host.Outcome.next (pwrReq_allowed 3 may), by decide⟩
    · exact ⟨congrArg Host.Outcome.next (if_pos live), by decide⟩
  obtain ⟨asks, hk⟩ := asks
  refine ⟨fun below free => ?_, fun below plan => ?_, fun busy => ?_⟩
  · have fr := lowerPower_taken hk below free
    have hpwr : (lowerPower k s).pwr = (lowerBegun s k).pwr := fr.pwr rfl
    refine ⟨_, asks, ?_, ?_, ?_, ?_, fr.tbl rfl, fr.plan rfl, fr.coll rfl, fr.regs rfl⟩ <;> rw [hpwr] <;> rfl
  · rw [asks, lowerPower_refused hk below plan]
    rfl
  · rw [asks, lowerPower_busy k busy]
    rfl

/-! ### Wakes: R419 -/

/-- In PARKED and RETAIN an admitted source other than PWR_GOOD, and in RETAIN than TIMER, wakes the module. -/
theorem wake_low {s : State} {src : Nat} (low : s.pwr.state = 1 ∨ s.pwr.state = 2 ∧ src ≠ 3)
    (enabled : wakeEnabled s src = true) (h : src ≠ 6) :
    (wake s src).pwr = { s.pwr with state := 5, wakeFrom := s.pwr.state, wakeAt := some s.now, lastWake := src } ∧
      (wake s src).hlt = s.hlt ∧ (wake s src).now = s.now := by
  unfold wake
  rw [enabled]
  rcases low with low | ⟨low, timer⟩
  · rw [low]
    simp [h]
  · rw [low]
    simp [h, timer, leaveRetain]

theorem wakingFrom_of_low {s : State} {src : Nat} (low : s.pwr.state = 1 ∨ s.pwr.state = 2 ∧ src ≠ 3)
    (enabled : wakeEnabled s src = true) (h : src ≠ 6) : WakingFrom (wake s src) src s.pwr.state s.now := by
  unfold WakingFrom
  rw [(wake_low low enabled h).1]
  exact ⟨rfl, rfl, rfl, rfl⟩

theorem pwrReqActive_low {s : State} {f : Func} (may : mayWrite s f = true) (low : s.pwr.state = 1 ∨ s.pwr.state = 2) :
    pwrReqActive f s = wake (reqResult { s with pwr := { s.pwr with target := 0 } } 0) 1 := by
  unfold pwrReqActive
  rw [may]
  rcases low with low | low <;> rw [low] <;> rfl

theorem startRuns_low {s : State} (low : s.pwr.state = 1 ∨ s.pwr.state = 2) : startRuns s = false := by
  unfold startRuns
  rcases low with low | low <;> rw [low] <;> cases s.boot.modState == 0 <;> rfl

theorem wakeNAssert_low {s : State} (live : pinsLive s = true) (pin : s.hlt.wakeN = false)
    (mask : s.hlt.wakeMasked = false) (enabled : wakeEnabled s 4 = true) (low : s.pwr.state = 1 ∨ s.pwr.state = 2) :
    wakeNAssert s = wake { s with hlt := { s.hlt with wakeN := true, wakeMasked := true, wakeAt := some s.now } } 4 := by
  have idle : (s.hlt.wakeMasked || !wakeEnabled s 4 || startRuns s) = false := by
    rw [mask, enabled, startRuns_low low]
    rfl
  unfold wakeNAssert
  rw [live, pin]
  exact if_neg (ne_true_of_eq_false idle)

theorem wakeTimer_due {s : State} (parked : s.pwr.state = 1) (time : s.tim.inForce = true)
    (pour : (nextPourTime s).isSome = true) : ∃ n, wakeTimer s = wake (awaitNt s n) 3 := by
  obtain ⟨p, hp⟩ := Option.isSome_iff_exists.1 pour
  unfold wakeTimer
  rw [parked, time, hp]
  dsimp only [bne_self_eq_false, Bool.not_true, Bool.or_self]
  split
  · next none => simp at none
  · exact ⟨_, rfl⟩

theorem perstRelease_standby {s : State} (live : pinsLive s = true) (pin : s.hlt.perstN = true)
    (standby : s.pwr.state = 3) : perstRelease s = wake { s with hlt := { s.hlt with perstN := false } } 1 := by
  unfold perstRelease
  rw [live, pin]
  exact if_pos standby

/-- Settles O4: each source acts through `wake`. -/
theorem wakeSourcesAct : Obligations.WakeSourcesAct := by
  unfold Obligations.WakeSourcesAct
  intro s
  refine ⟨fun f may low enabled => ?_, fun live low => ?_, fun retain enabled => ?_,
    fun live pin mask enabled low => ?_, fun parked time pour => ?_, fun live pin standby enabled allowed => ?_⟩
  · let x := reqResult { s with pwr := { s.pwr with target := 0 } } 0
    have low' : x.pwr.state = 1 ∨ x.pwr.state = 2 ∧ 1 ≠ 3 := low.imp id fun h => ⟨h, by decide⟩
    refine ⟨_, congrArg Host.Outcome.next (pwrReqActive_low may low),
      wakingFrom_of_low (s := x) low' enabled (by decide), ?_⟩
    exact congrArg Pwr.reqResult (wake_low (s := x) low' enabled (by decide)).1
  · exact ⟨_, congrArg Host.Outcome.next (if_pos live),
      wakingFrom_of_low (low.imp id fun h => ⟨h, by decide⟩) rfl (by decide)⟩
  · have waking := wakingFrom_of_low (s := s) (src := 1) (.inr ⟨retain, by decide⟩) enabled (by decide)
    rw [retain] at waking
    exact ⟨_, congrArg Host.Outcome.next (if_pos retain), waking⟩
  · let x : State := { s with hlt := { s.hlt with wakeN := true, wakeMasked := true, wakeAt := some s.now } }
    have low' : x.pwr.state = 1 ∨ x.pwr.state = 2 ∧ 4 ≠ 3 := low.imp id fun h => ⟨h, by decide⟩
    have kept := (wake_low (s := x) low' enabled (by decide)).2.1
    refine ⟨_, congrArg Host.Outcome.next (wakeNAssert_low live pin mask enabled low),
      wakingFrom_of_low (s := x) low' enabled (by decide), ?_, ?_⟩ <;> rw [kept]
  · obtain ⟨n, due⟩ := wakeTimer_due parked time pour
    have parked' : (awaitNt s n).pwr.state = 1 := by rw [awaitNt_pwr, parked]
    obtain ⟨hpwr, _, hnow⟩ := wake_low (src := 3) (.inl parked') rfl (by decide)
    refine ⟨_, congrArg Host.Outcome.next due, ?_⟩
    unfold WakingFrom
    rw [hpwr, hnow]
    exact ⟨rfl, rfl, parked', rfl⟩
  · let x : State := { s with hlt := { s.hlt with perstN := false } }
    have woken := wake_standby (s := x) (src := 1) standby enabled allowed (by decide)
    obtain ⟨waking, reset⟩ := leaveStandby_spec x 1
    exact ⟨_, congrArg Host.Outcome.next ((perstRelease_standby live pin standby).trans woken), rfl, waking, reset⟩

/-! ### The power cap: R412, R413, R424 -/

theorem refreshLimits_throttled (s : State) (d : Nat) (hd : d < 4) : d ∈ (refreshLimits s).hlt.throttled ↔
    (therm s .die d).limit = true ∨ (therm s .die d).latched = true ∨ s.pwr.capping = true := by
  unfold refreshLimits
  simp [hd, or_assoc]

/-- While the module caps, every die throttles and every stack limits its traffic (R413). -/
theorem refreshLimits_capping {s : State} (h : s.pwr.capping = true) : (refreshLimits s).hlt.throttled = [0, 1, 2, 3] ∧
    (hasStacks s = true → (refreshLimits s).hlt.limited = List.range 20) := by
  unfold refreshLimits
  simp only [h, Bool.or_true, List.filter_true]
  exact ⟨rfl, fun there => if_pos there⟩

/-- The input's figures after a sample, before dies and stacks follow them (R412, R413). -/
def sampled (s : State) (vin iin pin energy : Nat) : State :=
  let p := s.pwr
  let cap := 10 * rf s oPWR_CFG 63 52
  { s with pwr := { p with
      vin := vin, iin := iin, pin := pin, energy := (p.energy + energy) % 2 ^ 64
      uvWarn := decide (vin < 4400), ilim := decide (34500000 ≤ vin * iin)
      capping := (p.capping || decide (cap < pin)) && p.state != 3
      capBelowSince := if pin < cap - 1000 then some (p.capBelowSince.getD s.now) else none
      tripAt := if !p.vinOk && (decide (vin < 4400) || decide (5800 < vin)) then some s.now else p.tripAt } }

theorem powerCapSample_eq {s : State} (live : pinsLive s = true) (vin iin pin energy : Nat) :
    powerCapSample vin iin pin energy s = refreshLimits (sampled s vin iin pin energy) := by
  unfold powerCapSample
  rw [live]
  rfl

theorem cappingClear_eq {s : State} {c : Nat} (capping : s.pwr.capping = true) (low : s.pwr.capBelowSince = some c) :
    cappingClear s =
      refreshLimits { await s c (10 * msT) with pwr := { s.pwr with capping := false } } := by
  unfold cappingClear
  rw [capping, low]
  rfl

/-- Settles O6: dies and stacks follow the cap by `refreshLimits_capping` and `refreshLimits_throttled`. -/
theorem powerCapThrottles : Obligations.PowerCapThrottles := by
  unfold Obligations.PowerCapThrottles
  refine fun s => ⟨fun vin iin pin energy live => ?_, fun c capping low => ?_⟩
  · refine ⟨_, congrArg Host.Outcome.next (powerCapSample_eq live vin iin pin energy), rfl, rfl, rfl, rfl, rfl, ?_,
      fun above on => ?_⟩
    · rw [← powerCapSample_eq live]
      exact (powerCapSample_fr vin iin pin energy s).onlyChanges _
    · have caps : (sampled s vin iin pin energy).pwr.capping = true := by
        show ((s.pwr.capping || decide (10 * rf s oPWR_CFG 63 52 < pin)) && s.pwr.state != 3) = true
        rw [decide_eq_true above, Bool.or_true, Bool.true_and]
        exact bne_iff_ne.2 on
      exact ⟨caps, refreshLimits_capping caps⟩
  · refine ⟨_, congrArg Host.Outcome.next (cappingClear_eq capping low), rfl, rfl, ?_, fun d hd => ?_⟩
    · rw [← cappingClear_eq capping low]
      exact (cappingClear_fr s).onlyChanges _
    · rw [refreshLimits_throttled _ d hd]
      exact or_congr Iff.rfl (or_iff_left Bool.false_ne_true)

end Sys2Proof.Machine

/-! ### Power-on and the start: R407, R412, R431 to R445 -/

namespace Sys2Proof.Machine

set_option Elab.async false

/-- The inputs as they are taken at the end of the always-on reset (R407). -/
def inputsTaken (s : State) (good fence wakePin perst : Bool) : State :=
  let x := await s s.pwr.aonSince (20 * msT)
  { x with
    pwr := { x.pwr with aonReset := false, pwrGood := good, state := if good then 0 else 3 }
    hlt := { x.hlt with fenceN := fence, wakeN := wakePin, perstN := perst } }

theorem aonResetEnd_eq {s : State} (powered : s.pwr.powered = true) (reset : s.pwr.aonReset = true)
    (good fence wakePin perst : Bool) : aonResetEnd good fence wakePin perst s =
      if good then beginStart (inputsTaken s good fence wakePin perst)
      else inputsTaken s good fence wakePin perst := by
  unfold aonResetEnd
  rw [powered, reset]
  rfl

/-- Settles O7: power-on and the stop leave a state whose fields are written out; the inputs are those of
`inputsTaken`. -/
theorem powerOnAndAonReset : Obligations.PowerOnAndAonReset := by
  unfold Obligations.PowerOnAndAonReset
  refine fun s => ⟨fun bl2 self src => ?_, ?_, fun good fence wakePin perst powered reset => ?_⟩
  · exact ⟨_, rfl, fun _ => rfl, rfl, rfl, rfl, rfl, rfl, rfl, rfl, rfl, rfl, rfl, rfl, rfl, rfl, rfl, rfl, rfl⟩
  · exact ⟨_, rfl, rfl, rfl, rfl, rfl, rfl⟩
  · refine ⟨_, congrArg Host.Outcome.next (aonResetEnd_eq powered reset good fence wakePin perst), ?_⟩
    cases good
    · exact ⟨rfl, rfl, rfl, rfl, rfl, rfl, fun h => absurd h Bool.false_ne_true, fun _ => rfl⟩
    · exact ⟨rfl, rfl, rfl, rfl, rfl, rfl, fun _ => ⟨rfl, rfl, rfl⟩, fun h => absurd h.symm Bool.false_ne_true⟩

/-! #### The pattern copies, the rails and the straps -/

/-- A copy is accepted by its header, its serial number, its check word and its records (R437). -/
theorem patResult_ok (serial : Word) (p : PatternImage) : patResult serial p = 0 ↔ p.spiError = false ∧
    leAt p.bytes 0 4 = 0x50415454 ∧ leAt p.bytes 4 2 = 1 ∧ leAt p.bytes 16 8 = serial.toNat ∧ lengthOk p = true ∧
      leAt p.bytes (64 + patLength p) 4 = crc32c (patBody p) ∧ recordsOk p = true := by
  have refusal {c : Prop} [Decidable c] {n x : Nat} (hn : n ≠ 0) : (if c then n else x) = 0 ↔ ¬ c ∧ x = 0 := by
    split <;> simp_all
  unfold patResult
  rw [refusal (by decide), refusal (by decide), refusal (by decide), refusal (by decide), refusal (by decide),
    refusal (by decide), refusal (by decide)]
  simp only [Bool.not_eq_true, not_not, Bool.not_eq_eq_eq_not, Bool.not_true, Bool.not_false, Bool.not_eq_false, patField, and_true]

/-- The boot state once a copy has been read: A where it is the one wanted, else B (R437). -/
def copyRead (s : State) (copy : Nat) (image : PatternImage) (j : List (Word × Word)) : Boot :=
  if copy = 0 then { s.boot with aRes := patResult s.boot.serial image, journalA := readJournal j }
  else { s.boot with bRes := patResult s.boot.serial image, journalB := readJournal j }

theorem patternCopyRead_ok {s : State} {copy : Nat} {image : PatternImage} (stage : inStage s 0 = true)
    (wanted : copy = if s.boot.aRes = 15 then 0 else 1) (ok : patResult s.boot.serial image = 0)
    (j : List (Word × Word)) : patternCopyRead copy image j s = patternChosen { s with
      boot := { copyRead s copy image j with store := some image, patCopy := copy } } (patDigest image) := by
  unfold patternCopyRead
  dsimp only
  rw [stage, ← wanted, if_neg (by simp), if_pos ok]
  rfl

theorem patternCopyRead_bad {s : State} {copy : Nat} {image : PatternImage} (stage : inStage s 0 = true)
    (wanted : copy = if s.boot.aRes = 15 then 0 else 1) (bad : patResult s.boot.serial image ≠ 0)
    (j : List (Word × Word)) : patternCopyRead copy image j s = if copy = 0 then
        { s with boot := copyRead s copy image j }
      else patternChosen { s with boot := { copyRead s copy image j with patDefaulted := true, patCopy := 2 } }
        Config.romDigest := by
  unfold patternCopyRead
  dsimp only
  rw [stage, ← wanted, if_neg (by simp), if_neg bad]
  rfl

theorem journalCompacted_full {s : State} (stage : inStage s 1 = true) (full : needsCompaction s.boot = true) :
    journalCompacted s = { s with boot := { s.boot with
      journalA := s.boot.journalA.filter (·.live), journalB := s.boot.journalB.filter (·.live)
      journalFull := false } } := if_pos (by rw [stage, full]; rfl)

theorem railUp_next {s : State} {rail mv : Nat} (stage : inStage s 1 = true) (room : needsCompaction s.boot = false)
    (next : rail = s.pwr.railUpTo + 1) (last : rail ≤ 11) (holds : railHolds rail mv = true) : railUp rail mv s =
      { s with pwr := { s.pwr with rails := tset 0 s.pwr.rails rail mv, railUpTo := rail } } :=
  if_pos (by rw [stage, room, holds]; simp [← next, last])

theorem railUp_other {s : State} {rail mv : Nat} (h : rail ≠ s.pwr.railUpTo + 1 ∨ railHolds rail mv = false) :
    railUp rail mv s = s := by
  refine if_neg fun c => ?_
  simp only [Bool.and_eq_true, beq_iff_eq] at c
  obtain ⟨⟨⟨_, next⟩, _⟩, holds⟩ := c
  rcases h with h | h
  · exact h next
  · exact Bool.false_ne_true (h.symm.trans holds)

/-- The boot state as the straps are sampled and the main reset is released (R433, R441). -/
def strapsSampled (b : Boot) : Boot :=
  { b with
    strapBl2 := b.pinBl2, strapSelfHost := b.pinSelfHost, strapBootSrc := b.pinBootSrc, mainUp := true, stage := 2
    fwState := if b.pinBootSrc = 2 then .failed else .booting, modState := if b.pinBootSrc = 2 then 2 else 0 }

theorem mainRelease_boot {s : State} (stage : inStage s 1 = true) (room : needsCompaction s.boot = false)
    (rails : s.pwr.railUpTo = 11) : ∃ n e, (mainRelease s).boot =
      { strapsSampled s.boot with journalEntries := n, journalErr := e } := by
  unfold mainRelease
  rw [if_neg (by rw [stage, room, rails]; decide)]
  dsimp only
  exact ⟨_, _, (Fr.forEach _ _ (fun y a => applyOpt_fr y a) (.refl 32 _)).boot rfl⟩

/-- Settles O10: each clause is the equation of its command in its stage. -/
theorem patternRailsAndStraps : Obligations.PatternRailsAndStraps := by
  unfold Obligations.PatternRailsAndStraps
  refine fun s => ⟨fun image j stage first ok => ?_, fun image j stage first bad => ?_, fun image j stage later => ?_,
    patResult_ok, fun stage full => ?_, fun rail mv stage room next last holds => ?_, fun rail mv h => ?_,
    fun stage room rails => ?_⟩
  · exact ⟨_, congrArg Host.Outcome.next (patternCopyRead_ok stage (if_pos first).symm ok j), rfl, rfl, ok, rfl, rfl,
      tget_tset_same ..⟩
  · exact ⟨_, congrArg Host.Outcome.next (patternCopyRead_bad stage (if_pos first).symm bad j), rfl, rfl, rfl⟩
  · by_cases ok : patResult s.boot.serial image = 0
    · exact ⟨_, congrArg Host.Outcome.next (patternCopyRead_ok stage (if_neg later).symm ok j), rfl, rfl,
        fun _ => ⟨rfl, rfl⟩, fun bad => absurd ok bad⟩
    · exact ⟨_, congrArg Host.Outcome.next (patternCopyRead_bad stage (if_neg later).symm ok j), rfl, rfl,
        fun h => absurd h ok, fun _ => ⟨rfl, rfl, tget_tset_same ..⟩⟩
  · refine ⟨_, congrArg Host.Outcome.next (journalCompacted_full stage full), rfl, rfl, rfl, ?_⟩
    rw [← journalCompacted_full stage full]
    exact (journalCompacted_fr s).onlyChanges _
  · refine ⟨_, congrArg Host.Outcome.next (railUp_next stage room next last holds), rfl, tget_tset_same .., ?_⟩
    rw [← railUp_next stage room next last holds]
    exact (railUp_fr rail mv s).onlyChanges _
  · exact congrArg Host.Outcome.next (railUp_other h)
  · obtain ⟨n, e, hboot⟩ := mainRelease_boot stage room rails
    refine ⟨_, rfl, ?_, ?_, ?_, ?_, ?_, ?_⟩ <;> rw [hboot] <;> rfl

/-! #### Firmware and the stages to READY -/

/-- The boot state as firmware begins to run from an image (R361, R362). -/
def fwBooted (b : Boot) (i : FwImage) (copy : Nat) (st : FwState) : Boot :=
  { b with
    meas := tset 0 b.meas 0 (sha384Extend (tget 0 b.meas 0) (fwDigest i))
    fwState := st, fwCopy := copy, fwSvn := fwSvnOf i, fwVersion := fwVersionOf i, keySlot := (i.keySlot.getD 0).val
    modState := 0, stage := 3, selfHostFallback := b.strapSelfHost && b.strapBootSrc == 2 }

/-- The event of a trip and the engines' bring-up leave the boot state alone. -/
theorem bootFirmware_boot (s : State) (i : FwImage) (copy : Nat) (st : FwState) :
    (bootFirmware s i copy st).boot = fwBooted s.boot i copy st := by
  have lit (x : State) : (forEach (List.range 34) x fun s n =>
      beginBringup (putR s (oENGINE n) (getR s (oENGINE n) ||| 1)) n).boot = x.boot :=
    (Fr.forEach (m := 114919) _ _ (fun y n => (beginBringup_fr _ n).step (putR_fr y _ _).mono) (.refl _ x)).boot rfl
  unfold bootFirmware
  refine (lit _).trans ?_
  split
  · exact (raiseEvent_fr _ _ _ _ _).boot rfl
  · rfl

/-! ### The mailbox: R361 to R363 -/

theorem tget_foldl_tset (l : List Word) (t : Tab Word) {n i : Nat} (h : i < n) :
    tget 0 ((List.range n).foldl (fun t i => tset 0 t i (nth 0 l i)) t) i = nth 0 l i := by
  induction n with
  | zero => omega
  | succ n ih =>
    rw [List.range_succ, List.foldl_append, List.foldl_cons, List.foldl_nil]
    by_cases last : i = n
    · rw [last, tget_tset_same]
    · rw [tget_tset_other _ _ _ _ _ _ last, ih (by omega)]

theorem mboxAnswer_answered (s : State) (status : Nat) (resp : List Word) :
    Answered (mboxAnswer s status resp) status := ⟨rfl, rfl, rfl⟩

theorem mboxAnswer_resp (s : State) (status : Nat) {resp : List Word} {i : Nat} (h : i < resp.length) :
    tget 0 (mboxAnswer s status resp).hif.mboxResp i = nth 0 resp i := tget_foldl_tset resp _ h

theorem mboxRun_running {msg : Nat} {s : State} (waits : mboxWaits s msg = true) (runs : fwRuns s = true)
    (act : State → State) : mboxRun msg s act = act s := by
  unfold mboxRun
  rw [waits, runs]
  rfl

/-- What FW_STAGE does with an image that the host gave (R363). -/
theorem fwStage_named {s : State} {image : Option FwImage} {i : FwImage} (waits : mboxWaits s 3 = true)
    (runs : fwRuns s = true) (named : namedImage s image = some i) (ok : Bool) : fwStage image ok s =
      let v := namedVerdict s (if fwKind i = 2 then 2 else 1) i
      let x := readsImage s
      let key := 2 * fwKind i + otherCopy s
      if v ≠ .accepted then mboxAnswer x (verdictStatus v) []
      else if !ok then mboxAnswer x mbFLASH_ERROR []
      else mboxAnswer { x with boot := { x.boot with
        staged := (x.boot.staged.filter fun e => e.1 != key) ++ [(key, i)] } } mbOK [] := by
  have named' : namedImage (readsImage s) image = some i := named
  unfold fwStage
  rw [mboxRun_running waits runs]
  dsimp only
  rw [named']
  rfl

theorem fwStage_unread {s : State} {image : Option FwImage} (waits : mboxWaits s 3 = true) (runs : fwRuns s = true)
    (named : namedImage s image = none) (ok : Bool) :
    fwStage image ok s = mboxAnswer (readsImage s) mbDMA_ERROR [] := by
  have named' : namedImage (readsImage s) image = none := named
  unfold fwStage
  rw [mboxRun_running waits runs]
  dsimp only
  rw [named']

theorem fwRecover_accepted {s : State} {image : Option FwImage} {i : FwImage} (waits : mboxWaits s 4 = true)
    (failed : s.boot.fwState = .failed) (named : namedImage s image = some i)
    (accepted : namedVerdict s 1 i = .accepted) :
    fwRecover image s = mboxAnswer (bootFirmware (readsImage s) i 2 .recovery) mbOK [] := by
  have named' : namedImage (readsImage s) image = some i := named
  have accepted' : namedVerdict (readsImage s) 1 i = .accepted := accepted
  unfold fwRecover
  rw [waits, if_neg (by decide), if_neg (by simp [failed])]
  dsimp only
  rw [named']
  dsimp only
  rw [accepted']
  exact if_neg (by simp)

theorem namedVerdict_rollback (s : State) (i : FwImage) : namedVerdict s 1 i = .rollback ↔
    256 + fwField i 16 4 ≤ fld (mboxReq s 2) 31 0 ∧ imageVerdict s 1 i = .rollback := by
  unfold namedVerdict
  by_cases short : fld (mboxReq s 2) 31 0 < 256 + fwField i 16 4
  · rw [if_pos short]
    exact iff_of_false (by decide) fun h => absurd h.1 (by omega)
  · rw [if_neg short, and_iff_right (by omega)]

theorem keyRevoke_own {s : State} (waits : mboxWaits s 6 = true) (runs : fwRuns s = true)
    (own : fld (mboxReq s 1) 1 0 = s.boot.keySlot) : keyRevoke s = mboxAnswer s mbBAD_REQUEST [] :=
  (mboxRun_running waits runs _).trans (if_pos own)

theorem keyRevoke_other {s : State} (waits : mboxWaits s 6 = true) (runs : fwRuns s = true)
    (other : fld (mboxReq s 1) 1 0 ≠ s.boot.keySlot) : keyRevoke s = mboxAnswer { s with
      boot := { s.boot with revoked := s.boot.revoked ||| 2 ^ fld (mboxReq s 1) 1 0 } } mbOK [] :=
  (mboxRun_running waits runs _).trans (if_neg other)

/-- MIN_SVN after SVN_COMMIT: the higher of itself and the running SVN (R361). -/
def raisedSvn (b : Boot) : BitVec 32 := if b.minSvn < b.fwSvn then b.fwSvn else b.minSvn

theorem svnCommit_eq {s : State} (waits : mboxWaits s 5 = true) (runs : fwRuns s = true) : svnCommit s =
    mboxAnswer { s with boot := { s.boot with minSvn := raisedSvn s.boot } } mbOK
      [mkWord [(raisedSvn s.boot).toNat]] := mboxRun_running waits runs _

theorem raisedSvn_spec (b : Boot) : b.minSvn ≤ raisedSvn b ∧ b.fwSvn ≤ raisedSvn b ∧
    (b.fwSvn ≤ b.minSvn → raisedSvn b = b.minSvn) := by
  unfold raisedSvn
  split
  · next below => exact ⟨BitVec.le_of_lt below, BitVec.le_refl _, fun h => absurd below (BitVec.not_lt.2 h)⟩
  · next above => exact ⟨BitVec.le_refl _, BitVec.not_lt.1 above, fun _ => rfl⟩

theorem testBit_or_two_pow (n k : Nat) : (n ||| 2 ^ k).testBit k = true := by
  rw [Nat.testBit_or, Nat.testBit_two_pow_self, Bool.or_true]

/-- Settles O16: each message's branch is an equation, and every answer `mboxAnswer`. -/
theorem mailboxAnswers : Obligations.MailboxAnswers := by
  unfold Obligations.MailboxAnswers
  refine fun s => ⟨fun waits => ?_, fun waits => ?_, fun image i ok waits runs named => ?_,
    fun image ok waits runs named => ?_, fun image i waits failed named accepted => ?_, namedVerdict_rollback s,
    fun waits runs => ?_, fun waits runs => ?_⟩
  · have e : getInfo s = mboxAnswer s mbOK _ := if_pos waits
    refine ⟨_, congrArg Host.Outcome.next e, mboxAnswer_answered _ _ _, ?_, mboxAnswer_resp _ _ (by simp),
      mboxAnswer_resp _ _ (by simp)⟩
    rw [← e]
    exact (getInfo_fr s).onlyChanges _
  · have e : getMeasurement s = _ := if_pos waits
    refine ⟨_, rfl, (getMeasurement_fr s).onlyChanges _, fun bad => ?_, fun good => ?_⟩
    · rw [e, if_pos bad]
      exact mboxAnswer_answered _ _ _
    · rw [e, if_neg good]
      refine ⟨mboxAnswer_answered _ _ _, fun n hn => ?_⟩
      rw [mboxAnswer_resp _ _ (by simpa using hn)]
      exact nth_map_range _ _ _ _ hn
  · have e := fwStage_named waits runs named ok
    refine ⟨_, congrArg Host.Outcome.next e, ?_, fun accepted good => ?_, fun accepted bad => ?_, fun refused => ?_⟩
    · dsimp only
      by_cases accepted : namedVerdict s (if fwKind i = 2 then 2 else 1) i = .accepted
      · rw [if_neg (not_not.2 accepted)]
        cases ok <;> rfl
      · rw [if_pos accepted]
        rfl
    · dsimp only
      rw [if_neg (by simp [accepted]), if_neg (by simp [good])]
      exact ⟨mboxAnswer_answered _ _ _, List.mem_append_right _ List.mem_cons_self⟩
    · dsimp only
      rw [if_neg (by simp [accepted]), if_pos (by simp [bad])]
      exact ⟨mboxAnswer_answered _ _ _, rfl⟩
    · dsimp only
      rw [if_pos refused]
      exact ⟨mboxAnswer_answered _ _ _, rfl⟩
  · have e := fwStage_unread waits runs named ok
    exact ⟨_, congrArg Host.Outcome.next e, mboxAnswer_answered _ _ _, mboxAnswer_boot _ _ _⟩
  · have boot := (mboxAnswer_boot (bootFirmware (readsImage s) i 2 .recovery) mbOK []).trans
      (bootFirmware_boot _ _ _ _)
    refine ⟨_, congrArg Host.Outcome.next (fwRecover_accepted waits failed named accepted),
      mboxAnswer_answered _ _ _, ?_⟩
    rw [boot]
    exact ⟨rfl, rfl, tget_tset_same ..⟩
  · exact ⟨_, congrArg Host.Outcome.next (svnCommit_eq waits runs), mboxAnswer_answered _ _ _, raisedSvn_spec s.boot⟩
  · refine ⟨_, rfl, fun own => ?_, fun other => ?_⟩
    · rw [keyRevoke_own waits runs own]
      exact ⟨mboxAnswer_answered _ _ _, rfl⟩
    · rw [keyRevoke_other waits runs other]
      refine ⟨mboxAnswer_answered _ _ _, ?_⟩
      rw [mboxAnswer_boot]
      exact testBit_or_two_pow s.boot.revoked (fld (mboxReq s 1) 1 0)

end Sys2Proof.Machine

/-! ### Firmware and the stages to READY: R361, R441, R442, R445 -/

namespace Sys2Proof.Machine

set_option Elab.async false

/-- What an operation keeps of the state, a fold of it keeps. -/
theorem forEach_keeps {α β : Type} (g : State → β) (f : State → α → State) (hf : ∀ y a, g (f y a) = g y)
    (l : List α) (s : State) : g (forEach l s f) = g s := by
  induction l generalizing s with
  | nil => rfl
  | cons a l ih => exact (ih (f s a)).trans (hf s a)

theorem firmwareRead_next {s : State} {copy : Nat} {i : FwImage} (stage : inStage s 2 = true)
    (booting : s.boot.fwState = .booting) (tries : (copyOrder s)[s.boot.firmwareTried]? = some copy) :
    firmwareRead s copy i = if imageVerdict s 1 i = .accepted then bootFirmware s i copy .running
      else { s with boot := { s.boot with
        firmwareTried := s.boot.firmwareTried + 1
        fwState := if s.boot.firmwareTried + 1 == (copyOrder s).length then .failed else .booting
        modState := if s.boot.firmwareTried + 1 == (copyOrder s).length then 2 else 0 } } := by
  unfold firmwareRead
  exact if_neg (by simp [stage, booting, tries])

theorem journalCh_store (s : State) (kind k h l : Nat) : (journalCh s kind k h l).boot.store = s.boot.store := rfl

theorem spareTakes_boot (s : State) (k l : Nat) : (spareTakes s k l).boot = s.boot := (spareTakes_fr s k l).boot rfl

theorem markRetired_boot (s : State) (k h l : Nat) : (markRetired s k h l).boot = s.boot :=
  (markRetired_fr s k h l).boot rfl

theorem failChannel_store (s : State) (k h : Nat) : (failChannel s k h).boot.store = s.boot.store := by
  unfold failChannel
  rw [noteHealth_boot, journalCh_store, raiseEvent_boot, modStk_boot, modMemCh_boot]

theorem retireLogical_store (s : State) (k h : Nat) : (retireLogical s k h).boot.store = s.boot.store := by
  unfold retireLogical
  dsimp only
  split
  · rfl
  · rw [noteHealth_boot, journalCh_store, raiseEvent_boot, markRetired_boot]

/-- A channel that fails at start leaves the pattern store alone: it writes the journal. -/
theorem startFailure_store (s : State) (e : Nat × Nat) : (startFailure s e).boot.store = s.boot.store := by
  unfold startFailure
  dsimp only
  split
  · rfl
  · split
    · rw [noteHealth_boot, modStk_boot, failChannel_store]
    · split
      · exact retireLogical_store ..
      · rw [noteHealth_boot, spareTakes_boot, failChannel_store]

theorem regInit_done (s : State) : (regInit s).boot.regInitDone = true := rfl

theorem regInit_none {s : State} (h : ∀ p, s.boot.store = some p → patRegInit p = []) :
    regInit s = { s with boot := { s.boot with regInitDone := true } } := by
  unfold regInit
  cases store : s.boot.store with
  | none => rfl
  | some p =>
    dsimp only
    rw [h p store]
    rfl

/-- Every line has been read back, and the channels that failed are out of use (R445). -/
def linesVerified (failed : List (Nat × Nat)) (s : State) : State :=
  let s := forEach failed s startFailure
  { s with boot := { s.boot with memVerified := true, stage := 7 } }

theorem memVerifyDone_eq {s : State} (stage : inStage s 6 = true) (failed : List (Nat × Nat)) :
    memVerifyDone failed s = regInit (linesVerified failed s) :=
  if_neg (by rw [stage]; decide)

/-- A pass of an engine begins at its first channel; the other engines are left alone. -/
theorem beginPass_engine (s : State) (n m : Nat) : engine (beginPass s n) m =
    if m = n then { engine s n with calPassAt := some s.now, calRunning := true, calNext := 0 } else engine s m := by
  unfold beginPass
  refine (forEach_keeps (engine · m) _ ?_ _ _).trans ?_
  · exact fun _ _ => rfl
  split
  · next h => rw [h, engine_modEngine]
  · next h => exact tget_tset_other _ _ _ _ _ _ h

/-- A pass begins on every engine of a list. -/
theorem forEach_beginPass_engine {l : List Nat} {n : Nat} (s : State) (h : n ∈ l) :
    (engine (forEach l s beginPass) n).calRunning = true ∧ (engine (forEach l s beginPass) n).calNext = 0 := by
  have kept (l : List Nat) (x : State) (hx : (engine x n).calRunning = true ∧ (engine x n).calNext = 0) :
      (engine (forEach l x beginPass) n).calRunning = true ∧ (engine (forEach l x beginPass) n).calNext = 0 := by
    induction l generalizing x with
    | nil => exact hx
    | cons a l ih =>
      refine ih _ ?_
      rw [beginPass_engine]
      split
      · exact ⟨rfl, rfl⟩
      · exact hx
  induction l generalizing s with
  | nil => exact absurd h List.not_mem_nil
  | cons a l ih =>
    rcases List.mem_cons.1 h with rfl | h
    · refine kept l _ ?_
      rw [beginPass_engine, if_pos rfl]
      exact ⟨rfl, rfl⟩
    · exact ih _ h

/-- The start comes to its end: READY, its time, and the lanes that wait (R442). -/
def readyBegun (s : State) : State :=
  let ms := since s (s.boot.zeroAt.getD s.now) / msT
  let s := { s with boot := { s.boot with modState := 1, stage := 8, readyMs := min 0xFFFF ms } }
  let s := if s.pwr.state = 5 then becomeActive s else s
  forEach (upTo 2050) s positionAdvance

/-- What READY changes before the passes begin: no engine, no register. -/
theorem readyBegun_fr (s : State) : Fr 114909 s (readyBegun s) := by
  refine Fr.forEach (m := 114909) _ _ (fun y l => (positionAdvance_fr y l).mono) ?_
  refine Fr.ite ((becomeActive_fr _).step (n := 114909) (Fr.put_boot _ (Fr.refl _ _))) (Fr.put_boot _ (Fr.refl _ _))

theorem readyBegun_boot (s : State) :
    (readyBegun s).boot = { s.boot with
      modState := 1, stage := 8, readyMs := min 0xFFFF (since s (s.boot.zeroAt.getD s.now) / msT) } := by
  refine ((Fr.forEach (m := 114885) _ _ (fun y l => positionAdvance_fr y l) (Fr.refl _ _)).boot rfl).trans ?_
  split <;> rfl

theorem moduleReady_eq {s : State} (ready : readyNow s = true) (inited : s.boot.regInitDone = true)
    (engines : enginesDone s = true) : moduleReady s = noteHealth (followModuleFence
      (if (readyBegun s).boot.patDefaulted then
        forEach ((List.range 34).filter fun n => mayPass (readyBegun s) n) (readyBegun s) beginPass
      else readyBegun s)) := by
  have stage : inStage s 7 = true := by
    unfold readyNow at ready
    simp only [Bool.and_eq_true] at ready
    exact ready.1.1.1
  unfold moduleReady
  rw [if_neg (by rw [ready]; decide), if_pos inited]
  dsimp only
  rw [if_neg (by rw [engines, stage]; decide)]
  unfold readyBegun
  with_reducible rfl

/-- Whether an engine may start a pass is read from the optics and the registers. -/
theorem mayPass_congr {s t : State} (opt : t.opt = s.opt) (regs : ∀ off, getR t off = getR s off) (n : Nat) :
    mayPass t n = mayPass s n := by
  unfold mayPass engine
  rw [opt, regs]

/-- Settles O11: firmware by `bootFirmware_boot`, the memory stages by their equations, READY by `moduleReady_eq`. -/
theorem firmwareAndStagesToReady : Obligations.FirmwareAndStagesToReady := by
  unfold Obligations.FirmwareAndStagesToReady
  refine fun s => ⟨fun copy image kind stage booting tries ok => ?_, fun copy image kind stage booting tries bad => ?_,
    fun stage runs => ?_, fun failed stage => ?_, fun stage => ?_, fun failed stage => ?_, fun ready inited done => ?_⟩
  · have e : firmwareAccepted copy image s = bootFirmware s (flashImage s copy image) copy .running :=
      (if_neg kind).trans ((firmwareRead_next stage booting tries).trans (if_pos ok))
    refine ⟨_, congrArg Host.Outcome.next e, ?_⟩
    rw [bootFirmware_boot]
    exact ⟨rfl, rfl, rfl, rfl, tget_tset_same ..⟩
  · have e := (if_neg kind : firmwareAccepted copy image s = _).trans
      ((firmwareRead_next (i := flashImage s copy image) stage booting tries).trans (if_neg bad))
    refine ⟨_, congrArg Host.Outcome.next e, ?_, ?_⟩
    · exact (Fr.put_boot (m := 8) _ (Fr.refl 8 s)).onlyChanges _
    · simp only [beq_iff_eq]
  · have e : sramZeroDone s = putPosition (s.boot.store.bind patPosition)
        { s with boot := { s.boot with sramZero := true, stage := if hasStacks s then 4 else 7 } } :=
      if_neg (by rw [stage, runs]; decide)
    refine ⟨_, congrArg Host.Outcome.next e, ?_⟩
    rw [(putPosition_fr _ _).boot rfl]
    exact ⟨rfl, rfl⟩
  · have e : memTrainDone failed s = setStage _ 5 := if_neg (by rw [stage]; decide)
    exact ⟨_, congrArg Host.Outcome.next e, rfl⟩
  · refine ⟨_, congrArg Host.Outcome.next (if_pos stage), rfl, rfl, rfl, ?_⟩
    rw [← show memZeroDone s = _ from if_pos stage]
    exact (memZeroDone_fr s).onlyChanges _
  · refine ⟨_, congrArg Host.Outcome.next (memVerifyDone_eq stage failed), regInit_done _, fun nothing => ?_⟩
    have store : (linesVerified failed s).boot.store = s.boot.store :=
      forEach_keeps (·.boot.store) startFailure startFailure_store failed s
    rw [regInit_none fun p hp => nothing p (store.symm.trans hp)]
    exact ⟨rfl, rfl⟩
  · have e := moduleReady_eq ready inited done
    refine ⟨_, congrArg Host.Outcome.next e, ?_⟩
    have kept (x : State) : Fr 114885 x (noteHealth (followModuleFence x)) :=
      (noteHealth_fr _).step (followModuleFence_fr x)
    rw [(kept _).boot rfl]
    have passes (l : List Nat) (x : State) : (forEach l x beginPass).boot = x.boot :=
      (Fr.forEach (m := 32) l beginPass beginPass_fr (Fr.refl _ x)).boot rfl
    refine ⟨?_, ?_, fun defaulted n hn may => ?_⟩
    · split
      · rw [passes, readyBegun_boot]
      · rw [readyBegun_boot]
    · split
      · rw [passes, readyBegun_boot]
      · rw [readyBegun_boot]
    · have begun := readyBegun_fr s
      have may' : mayPass (readyBegun s) n = true :=
        (mayPass_congr (begun.opt rfl) (fun off =>
          getR_congr (begun.regs rfl) begun.variant (by rw [readyBegun_boot]) off) n).trans may
      have defaulted' : (readyBegun s).boot.patDefaulted = true := by rw [readyBegun_boot]; exact defaulted
      have begins := forEach_beginPass_engine
        (l := (List.range 34).filter fun n => mayPass (readyBegun s) n) (readyBegun s) (List.mem_filter.2 ⟨List.mem_range.2 hn, may'⟩)
      rw [if_pos defaulted']
      unfold engine at begins ⊢
      rw [(kept _).opt rfl]
      exact begins

end Sys2Proof.Machine

/-! ### Fences and input pins: R368 to R375 -/

namespace Sys2Proof.Machine

set_option Elab.async false

@[simp] theorem link_raiseEvent (s : State) (code part a0 a1 l : Nat) :
    link (raiseEvent s code part a0 a1) l = link s l := by
  unfold link
  rw [raiseEvent_lnk]

/-- A fence of a link takes its SOURCE and leaves the link's state. -/
theorem fenceLink_link (s : State) (l src n : Nat) :
    (link (fenceLink s l src n) l).fenced = true ∧ (link (fenceLink s l src n) l).source = src ∧
      (link (fenceLink s l src n) l).wanted = false ∧ (link (fenceLink s l src n) l).state = (link s l).state := by
  have kept := (fenceEffect_kl (raiseEvent (modLink s l fun k => { k with fenced := true, source := src, wanted := false })
    0x002 (partLink l) (l + at_ 12 src) (min 255 n)) l).links l
  rw [link_raiseEvent, link_modLink] at kept
  exact ⟨kept.fenced rfl, kept.source rfl, kept.wanted rfl, kept.state rfl⟩

/-- A trigger of R370 on a link that is not fenced: a fence within the budget, beyond it WANTED (R371). -/
theorem autoFence_free {s : State} {l : Nat} (on : bit (getR s oFENCE_CFG) 0 = true) (free : (link s l).fenced = false)
    (src : Nat) : autoFence s l src =
      if (recentFences s).length < rf s oFENCE_CFG 63 56 then
        fenceLink { s with hlt := { s.hlt with autoFences := recentFences s ++ [s.now] } } l src
          ((recentFences s).length + 1)
      else raiseEvent (modLink s l fun k => { k with wanted := true }) 0x004 (partLink l) (l + at_ 12 src) 0 := by
  unfold autoFence
  rw [on, free]
  rfl

theorem linkFenceSet_free {s : State} {l : Nat} {f : Func} (may : mayWrite s f = true)
    (free : (link s l).fenced = false) : linkFenceSet f l s = fenceLink s l 3 (recentFences s).length := by
  unfold linkFenceSet
  rw [may, free]
  rfl

theorem linkFenceSet_fenced {s : State} {l : Nat} {f : Func} (may : mayWrite s f = true)
    (fenced : (link s l).fenced = true) : linkFenceSet f l s = modLink s l fun k => { k with wanted := false } := by
  unfold linkFenceSet
  rw [may, fenced]
  rfl

/-- A link whose fence lifts, and its event, before RESUME goes out (R368, R373). -/
def fenceLifted (s : State) (l : Nat) : State :=
  raiseEvent (modLink s l fun k => { k with
    fenced := false, source := 0, wanted := false, downs := [], deadSince := k.deadSince.map fun _ => s.now })
    0x003 (partLink l) l 0

theorem linkFenceClear_fenced {s : State} {l : Nat} {f : Func} (may : mayWrite s f = true)
    (fenced : (link s l).fenced = true) : linkFenceClear f l s =
      if s.hlt.moduleFenced then fenceLifted s l
      else forEach (upLanes (fenceLifted s l) l) (fenceLifted s l) fun s q => sendLinkctl s q lcRESUME := by
  have hlt : (fenceLifted s l).hlt = s.hlt := raiseEvent_hlt ..
  unfold linkFenceClear
  rw [may, fenced]
  rw [← hlt]
  rfl

/-- RESUME on a link's lanes leaves the links and every counter. -/
theorem linkFenceClear_kept {s : State} {l : Nat} {f : Func} (may : mayWrite s f = true)
    (fenced : (link s l).fenced = true) : Kl false (fenceLifted s l) (linkFenceClear f l s) ∧
      ∀ j, cntGet (linkFenceClear f l s) j = cntGet (fenceLifted s l) j := by
  rw [linkFenceClear_fenced may fenced]
  split
  · exact ⟨Kl.refl _ _, fun _ => rfl⟩
  · exact ⟨Kl.forEach _ _ (fun y q => sendLinkctl_kl y q _) (Kl.refl _ _), fun j =>
      forEach_cnt _ _ _ j fun y q => cntGet_congr ((sendLinkctl_fr y q _).cnt rfl) j⟩

/-- A link's DEAD_HOLD has passed, and it is not timed again (R370). -/
def deadHeld (s : State) (l d : Nat) : State :=
  modLink (await s d (rf s oFENCE_CFG 23 12 * secT)) l fun k => { k with deadSince := none }

theorem deadHoldExpiry_dead {s : State} {l d : Nat} (hold : rf s oFENCE_CFG 23 12 ≠ 0) (down : linkUp s l = false)
    (since : (link s l).deadSince = some d) : deadHoldExpiry l s = autoFence (deadHeld s l d) l 2 := by
  unfold deadHoldExpiry
  dsimp only
  rw [if_pos ⟨hold, by rw [down, since]; exact ⟨rfl, rfl⟩⟩, since]
  rfl

theorem recentFences_deadHeld (s : State) (l d : Nat) :
    recentFences (deadHeld s l d) = recentFences (await s d (rf s oFENCE_CFG 23 12 * secT)) := rfl

/-- Settles O12: the fence is `fenceLink_link`, its lifting `linkFenceClear_kept`, the budget `autoFence_free`. -/
theorem linkFencesSetLiftedAndBudgeted : Obligations.LinkFencesSetLiftedAndBudgeted := by
  unfold Obligations.LinkFencesSetLiftedAndBudgeted
  refine fun s l => ⟨fun f may free => ?_, fun f may fenced => ?_, fun f may fenced => ?_,
    fun d hold down since on free => ?_⟩
  · exact ⟨_, congrArg Host.Outcome.next (linkFenceSet_free may free), fenceLink_link ..⟩
  · exact ⟨_, congrArg Host.Outcome.next (linkFenceSet_fenced may fenced), link_modLink ..,
      (modLink_fr s l _).onlyChanges _⟩
  · obtain ⟨links, counters⟩ := linkFenceClear_kept may fenced
    have kept := links.links l
    unfold fenceLifted at kept
    rw [link_raiseEvent, link_modLink] at kept
    refine ⟨_, rfl, kept.fenced rfl, kept.source rfl, kept.wanted rfl, kept.downs rfl, ?_⟩
    rw [counters]
    exact raiseEvent_cnt _ _ _ _ _ _ (by decide)
  · have e := (deadHoldExpiry_dead hold down since).trans (autoFence_free (s := deadHeld s l d) (l := l) on
      (by unfold deadHeld; rw [link_modLink]; exact free) 2)
    refine ⟨_, congrArg Host.Outcome.next e, ?_⟩
    rw [recentFences_deadHeld, show rf (deadHeld s l d) oFENCE_CFG 63 56 = rf s oFENCE_CFG 63 56 from rfl]
    split
    · obtain ⟨hfenced, hsource, _⟩ := fenceLink_link { deadHeld s l d with hlt := { (deadHeld s l d).hlt with
        autoFences := recentFences (await s d (rf s oFENCE_CFG 23 12 * secT)) ++ [(deadHeld s l d).now] } } l 2
        ((recentFences (await s d (rf s oFENCE_CFG 23 12 * secT))).length + 1)
      exact ⟨(fenceLink_fr _ _ _ _).now rfl, hfenced, hsource⟩
    · refine ⟨raiseEvent_now .., ?_⟩
      unfold deadHeld
      rw [link_raiseEvent, link_modLink, link_modLink]
      exact ⟨free, rfl, raiseEvent_cnt _ _ _ _ _ _ (by decide)⟩

/-! #### The module fence and the pins -/

/-- The module fence follows the pins and the latch where it may, and nothing else of the health state moves. -/
theorem followModuleFence_hlt (s : State) : (followModuleFence s).hlt =
    { s.hlt with moduleFenced := (s.hlt.fenceN || s.hlt.fenceUnstable) && mayFence s } := by
  have quiet (l : List Nat) (x : State) (f : State → Nat → State) (hf : ∀ y a, Fr 82117 y (f y a)) :
      (forEach l x f).hlt = x.hlt := (Fr.forEach l f hf (Fr.refl 82117 x)).hlt rfl
  unfold followModuleFence
  dsimp only
  split
  · next same => rw [beq_iff_eq.1 same]
  · split
    · rw [quiet _ _ _ fenceEffect_fr, raiseEvent_hlt]
    · rw [quiet _ _ _ fun y l => Fr.forEach _ _ (fun z q => (sendLinkctl_fr z q _).mono) (Fr.refl _ y), raiseEvent_hlt]

theorem latchUnstable_hlt (s : State) (last : Option Nat) : (latchUnstable s last).hlt =
    { s.hlt with fenceUnstable := s.hlt.fenceUnstable || (last.isSome && !dueOpt s last (100 * usT)) } := by
  unfold latchUnstable
  split
  · next fast =>
    simp only [Bool.and_eq_true] at fast
    obtain ⟨⟨some, soon⟩, _⟩ := fast
    rw [raiseEvent_hlt, some, soon, Bool.true_and, Bool.or_true]
  · next slow =>
    cases latched : s.hlt.fenceUnstable with
    | true => rw [Bool.true_or, ← latched]
    | false =>
      rw [latched, Bool.not_false, Bool.and_true, Bool.not_eq_true] at slow
      rw [slow, Bool.or_false, ← latched]

/-- Whether the module fence may be in force is read from the power state, READY and the fence itself. -/
theorem mayFence_congr {s t : State} (boot : t.boot = s.boot) (pwr : t.pwr = s.pwr)
    (fence : t.hlt.moduleFenced = s.hlt.moduleFenced) : mayFence t = mayFence s := by
  unfold mayFence moduleReadyNow
  rw [boot, pwr, fence]

theorem mayFence_latchUnstable (s : State) (last : Option Nat) : mayFence (latchUnstable s last) = mayFence s :=
  mayFence_congr ((latchUnstable_fr s last).boot rfl) ((latchUnstable_fr s last).pwr rfl)
    (by rw [latchUnstable_hlt])

/-- The health state after an edge of FENCE_N: the edge taken, the latch judged, the module fence following (R374). -/
theorem fenceEdge_hlt (s : State) (h : Hlt) (last : Option Nat) (same : h.moduleFenced = s.hlt.moduleFenced) :
    (followModuleFence (latchUnstable { s with hlt := h } last)).hlt =
      { h with
        fenceUnstable := h.fenceUnstable || (last.isSome && !dueOpt s last (100 * usT))
        moduleFenced := (h.fenceN || (h.fenceUnstable || (last.isSome && !dueOpt s last (100 * usT)))) && mayFence s } := by
  have due : dueOpt { s with hlt := h } last (100 * usT) = dueOpt s last (100 * usT) := rfl
  rw [followModuleFence_hlt, mayFence_latchUnstable, latchUnstable_hlt, due,
    mayFence_congr (s := s) (t := { s with hlt := h }) rfl rfl same]

/-- WAKE_N once armed and seen deasserted is no longer masked (R375). -/
theorem armIfReleased_hlt (s : State) : (armIfReleased s).hlt.wakeN = s.hlt.wakeN ∧
    (armIfReleased s).hlt.wakeMasked = (s.hlt.wakeMasked && !(s.hlt.wakeRearm && !s.hlt.wakeN)) ∧
    (armIfReleased s).hlt.wakeRearm = (s.hlt.wakeRearm && s.hlt.wakeN) := by
  unfold armIfReleased
  cases arm : s.hlt.wakeRearm <;> cases low : s.hlt.wakeN <;> simp [arm, low]

/-- Settles O13: FENCE_N's edges are `fenceEdge_hlt`, WAKE_N's `armIfReleased_hlt`. -/
theorem fenceAndWakePins : Obligations.FenceAndWakePins := by
  unfold Obligations.FenceAndWakePins
  refine fun s => ⟨fun live high ready on => ?_, fun live low => ?_, fun a low held since => ?_, fun f may => ?_,
    fun a low since => ?_, fun f may => ?_, fun live => ?_⟩
  · have e : fenceNAssert s = followModuleFence (latchUnstable { s with hlt := { s.hlt with
        fenceN := true, fenceAssertAt := some s.now, fenceHeld := false } } s.hlt.fenceAssertAt) :=
      if_neg (by rw [live, high]; decide)
    have hlt := fenceEdge_hlt s { s.hlt with fenceN := true, fenceAssertAt := some s.now, fenceHeld := false }
      s.hlt.fenceAssertAt rfl
    refine ⟨_, congrArg Host.Outcome.next e, ?_⟩
    rw [hlt]
    refine ⟨rfl, ?_, rfl, fun a last soon => ?_⟩
    · show mayFence s = true
      unfold mayFence
      rw [ready]
      rcases on with on | on <;> rw [on] <;> simp
    · dsimp only
      rw [last, show dueOpt s (some a) (100 * usT) = false from decide_eq_false (by omega)]
      exact Bool.or_true _
  · have e : fenceNDeassert s = followModuleFence (latchUnstable { s with hlt := { s.hlt with
        fenceN := false, fenceDeassertAt := some s.now, fenceHeld := false } } s.hlt.fenceDeassertAt) :=
      if_neg (by rw [live, low]; decide)
    have hlt := fenceEdge_hlt s { s.hlt with fenceN := false, fenceDeassertAt := some s.now, fenceHeld := false }
      s.hlt.fenceDeassertAt rfl
    refine ⟨_, congrArg Host.Outcome.next e, ?_⟩
    rw [hlt]
    exact ⟨rfl, rfl⟩
  · have e : fenceNHoldExpiry s = raiseEvent { await s a (10 * secT + 1) with
        hlt := { s.hlt with fenceHeld := true } } 0x007 0x7F 0 0 := by
      unfold fenceNHoldExpiry
      rw [low, held, since]
      rfl
    refine ⟨_, congrArg Host.Outcome.next e, raiseEvent_hlt .., raiseEvent_cnt _ _ _ _ _ _ (by decide), ?_⟩
    rw [raiseEvent_now]
    exact lt_of_lt_of_le (by omega) (le_max_right s.now (a + (10 * secT + 1)))
  · have e : fenceUnstableClear f s = followModuleFence { s with hlt := { s.hlt with fenceUnstable := false } } :=
      if_pos may
    refine ⟨_, congrArg Host.Outcome.next e, ?_⟩
    rw [followModuleFence_hlt, mayFence_congr (s := s) (t := { s with hlt := _ }) rfl rfl rfl]
    exact ⟨rfl, congrArg (· && mayFence s) (Bool.or_false _)⟩
  · have e : wakeNHoldExpiry s = raiseEvent { await s a secT with hlt := { s.hlt with wakeAt := none } } 0x008 0x7F 0 0 := by
      unfold wakeNHoldExpiry
      rw [low, since]
      rfl
    refine ⟨_, congrArg Host.Outcome.next e, raiseEvent_hlt .., raiseEvent_cnt _ _ _ _ _ _ (by decide), ?_⟩
    rw [raiseEvent_now]
    exact le_max_right s.now (a + secT)
  · have e : wakeRearm f s = armIfReleased { s with hlt := { s.hlt with wakeRearm := true } } := if_pos may
    obtain ⟨_, masked, rearm⟩ := armIfReleased_hlt { s with hlt := { s.hlt with wakeRearm := true } }
    refine ⟨_, rfl, (wakeRearm_fr f s).onlyChanges _, fun high => ?_, fun low => ?_⟩
    · rw [e, masked]
      dsimp only
      rw [high]
      exact Bool.and_false _
    · rw [e, masked, rearm]
      dsimp only
      rw [low]
      exact ⟨rfl, Bool.and_true _⟩
  · have e : wakeNDeassert s = armIfReleased { s with hlt := { s.hlt with wakeN := false, wakeAt := none } } :=
      if_neg (by rw [live]; decide)
    obtain ⟨low, masked, _⟩ := armIfReleased_hlt { s with hlt := { s.hlt with wakeN := false, wakeAt := none } }
    refine ⟨_, rfl, (wakeNDeassert_fr s).onlyChanges _, ?_, ?_⟩
    · rw [e, low]
    · rw [e, masked]
      dsimp only
      rw [Bool.not_false, Bool.and_true]

end Sys2Proof.Machine

/-! ### What an event leaves of the host interface -/

namespace Sys2Proof.Machine

set_option Elab.async false

/-- Of the host interface only the rings, the pending bits and the events' number move. -/
def RingsMove (s t : State) : Prop :=
  t.hif = { s.hif with rings := t.hif.rings, pba := t.hif.pba, eventSeq := t.hif.eventSeq }

theorem RingsMove.refl (s : State) : RingsMove s s := rfl

theorem RingsMove.trans {s x t : State} (h : RingsMove s x) (g : RingsMove x t) : RingsMove s t := by
  unfold RingsMove at *
  rw [g, h]

theorem RingsMove.of {m : Nat} {s t : State} (h : Fr m s t) (hm : m.testBit 14 = false := by rfl) : RingsMove s t := by
  unfold RingsMove
  rw [h.hif hm]

theorem RingsMove.forEach {α : Type} (l : List α) (s : State) (f : State → α → State) (h : ∀ y a, RingsMove y (f y a)) :
    RingsMove s (forEach l s f) := by
  induction l generalizing s with
  | nil => exact .refl s
  | cons a l ih => exact (h s a).trans (ih (f s a))

theorem raiseMsix_rings (s : State) (f : Func) (v : Nat) : RingsMove s (raiseMsix s f v) := by
  unfold raiseMsix
  dsimp only
  split <;> rfl

theorem irqCheck_rings (s : State) (k : RingKind) (i : Nat) : RingsMove s (irqCheck s k i) := by
  unfold irqCheck
  split
  · have armed : RingsMove s (bump (modRing s k i fun r => { r with armed := false }) (cRing (ringCnt k i) 2)) := rfl
    exact armed.trans (raiseMsix_rings _ _ _)
  · exact .refl s

theorem writeEntry_rings (s : State) (k : RingKind) (i : Nat) (w0 w1 w2 : Word) (w3 : Nat) :
    RingsMove s (writeEntry s k i w0 w1 w2 w3) := by
  refine RingsMove.trans ?_ (irqCheck_rings _ _ _)
  rfl

theorem raiseEvent_rings (s : State) (code part a0 a1 : Nat) : RingsMove s (raiseEvent s code part a0 a1) := by
  have toRing (y : State) (e : Nat) : RingsMove y (eventToRing y code part a0 a1 e) := by
    unfold eventToRing
    split
    · exact .refl y
    split
    · rfl
    · exact writeEntry_rings _ _ _ _ _ _ _
  unfold raiseEvent
  dsimp only
  split
  · rfl
  · refine RingsMove.trans ?_ (RingsMove.forEach _ _ _ fun y e => toRing y e)
    rfl

theorem noteHealth_rings (s : State) : RingsMove s (noteHealth s) := by
  unfold noteHealth
  dsimp only
  split
  · exact .refl s
  · refine RingsMove.trans ?_ (raiseEvent_rings _ _ _ _ _)
    rfl

theorem RingsMove.epoch {s t : State} (h : RingsMove s t) : t.hif.epoch = s.hif.epoch := by rw [h]

theorem RingsMove.vfs {s t : State} (h : RingsMove s t) : t.hif.vfs = s.hif.vfs := by rw [h]

end Sys2Proof.Machine

/-! ### Thermal protection: R378 to R382 -/

namespace Sys2Proof.Machine

set_option Elab.async false

@[simp] theorem therm_raiseEvent (s : State) (code part a0 a1 : Nat) (set : SensorSet) (u : Nat) :
    therm (raiseEvent s code part a0 a1) set u = therm s set u := by
  unfold therm
  rw [raiseEvent_hlt]

/-- A sample is recorded in its set, whose conditions stand as they were. -/
theorem takeReadings_therm (s : State) (set : SensorSet) (u : Nat) (r : List (BitVec 16)) (bad : List Bool) :
    therm (takeReadings s set u r bad) set u = { therm s set u with readings := r, excluded := bad } :=
  therm_setTherm ..

theorem judgeSet_therm (s : State) (set : SensorSet) (u : Nat) (x : Int) :
    (therm (judgeSet s set u x) set u).readings = (therm s set u).readings ∧
    (therm (judgeSet s set u x) set u).warn = ((therm s set u).warn || decide (warnAt s set ≤ x)) ∧
    ∀ y, limitAt set = some y →
      (therm (judgeSet s set u x) set u).limit = ((therm s set u).limit || decide (y ≤ x)) := by
  have absorbed (a b : Bool) : (a || (!a && b)) = (a || b) := by cases a <;> rfl
  have kept (c d : Bool) (y : State) (a b : Nat) :
      therm (if d then raiseEvent (if c then raiseEvent y 0x010 0x7F a b else y) 0x011 0x7F a b
        else (if c then raiseEvent y 0x010 0x7F a b else y)) set u = therm y set u := by
    split <;> split <;> simp only [therm_raiseEvent]
  unfold judgeSet
  dsimp only
  rw [kept, therm_setTherm]
  refine ⟨rfl, absorbed _ _, fun y hy => ?_⟩
  rw [hy]
  exact absorbed _ _

theorem judgeHot_therm (s : State) (k : Nat) (x : Int) (set : SensorSet) (u : Nat) :
    therm (judgeHot s k x) set u = therm s set u := by
  unfold therm
  rw [(judgeHot_fr s k x).hlt rfl]

/-- A die that throttles until its reset keeps its readings and conditions. -/
theorem latchDie_therm (s : State) (d : Nat) (bad : List Bool) (x : Int) :
    ∃ on, therm (latchDie s d bad x) .die d = { therm s .die d with latched := on } := by
  unfold latchDie
  dsimp only
  split
  · exact ⟨_, rfl⟩
  · split
    · exact ⟨true, therm_setTherm ..⟩
    · exact ⟨true, (therm_raiseEvent ..).trans (therm_setTherm ..)⟩

theorem judgeTop_therm (s : State) (set : SensorSet) (u : Nat) (bad : List Bool) (x : Int) :
    ∃ on, therm (judgeTop s set u bad x) set u = { therm (judgeSet s set u x) set u with latched := on } := by
  cases set with
  | die => exact latchDie_therm _ u bad x
  | stack => exact ⟨_, judgeHot_therm _ u x .stack u⟩
  | engine => exact ⟨_, rfl⟩

/-- THERM_ALERT_N is asserted while any set is warned, limited or latched (R409). -/
theorem noteAlert_hlt (s : State) : (noteAlert s).hlt =
    { s.hlt with alert := s.hlt.therm.any fun e => e.2.warn || e.2.limit || e.2.latched } := by
  unfold noteAlert
  dsimp only
  split
  · next same => rw [beq_iff_eq.1 same]
  · split
    · next on => simp only [emit, on]
    · next off => rfl

theorem noteAlert_warned {s : State} {set : SensorSet} {u : Nat} (h : (therm s set u).warn = true) :
    (noteAlert s).hlt.alert = true := by
  rw [noteAlert_hlt]
  rcases tget_eq_or_mem ({} : Therm) s.hlt.therm (64 * setNo set + u) with none | there
  · rw [show therm s set u = {} from none] at h
    exact absurd h Bool.false_ne_true
  · exact List.any_eq_true.2 ⟨_, there, by rw [show (tget ({} : Therm) s.hlt.therm _).warn = true from h]; rfl⟩

/-- What follows each sample: the limits, the alert and HEALTH_STATUS. -/
def thermNoted (s : State) : State := noteHealth (noteAlert (refreshLimits s))

theorem thermNoted_fr (s : State) : Fr 114692 s (thermNoted s) :=
  (noteHealth_fr _).step ((noteAlert_fr _).step (refreshLimits_fr s).mono)

theorem thermNoted_epoch (s : State) : (thermNoted s).hif.epoch = s.hif.epoch := by
  have quiet : Fr 32772 s (noteAlert (refreshLimits s)) := (noteAlert_fr _).step (refreshLimits_fr s).mono
  unfold thermNoted
  rw [(noteHealth_rings _).epoch, quiet.hif rfl]

theorem thermNoted_hlt (s : State) : (thermNoted s).hlt.therm = s.hlt.therm ∧
    (thermNoted s).hlt.tripLatch = s.hlt.tripLatch ∧ (thermNoted s).hlt.tripSrc = s.hlt.tripSrc ∧
    (thermNoted s).hlt.alert = (noteAlert (refreshLimits s)).hlt.alert := by
  unfold thermNoted
  rw [noteHealth_hlt, noteAlert_hlt]
  exact ⟨rfl, rfl, rfl, rfl⟩

theorem thermNoted_therm (s : State) (set : SensorSet) (u : Nat) : therm (thermNoted s) set u = therm s set u := by
  unfold therm
  rw [(thermNoted_hlt s).1]

theorem thermNoted_warned {s : State} {set : SensorSet} {u : Nat} (h : (therm (thermNoted s) set u).warn = true) :
    (thermNoted s).hlt.alert = true := by
  rw [(thermNoted_hlt s).2.2.2]
  rw [thermNoted_therm] at h
  exact noteAlert_warned (s := refreshLimits s) h

/-- The state in which a sample's highest valid reading has been judged. -/
def judged (s : State) (set : SensorSet) (u : Nat) (r : List (BitVec 16)) (x : Int) : State :=
  let r := r.take (sensorCount set u)
  judgeTop (takeReadings s set u r (excludedOf s set u r)) set u (excludedOf s set u r) x

theorem judged_fr (s : State) (set : SensorSet) (u : Nat) (r : List (BitVec 16)) (x : Int) :
    Fr 118788 s (judged s set u r x) := (judgeTop_fr _ _ _ _ _).step (takeReadings_fr _ _ _ _ _).mono

theorem judgeSample_some (s : State) (set : SensorSet) (u : Nat) (bad : List Bool) (x : Int) :
    judgeSample s set u bad (some x) = if tripAt set ≤ x ∧ (judgeTop s set u bad x).pwr.state ≠ 3 then
      thermalTrip (judgeTop s set u bad x) set u x else judgeTop s set u bad x := rfl

/-- An event raised on a condition moves the rings alone. -/
theorem raiseIf_rings (s : State) (c : Bool) (code part a0 a1 : Nat) :
    RingsMove s (if c then raiseEvent s code part a0 a1 else s) := by
  split
  · exact raiseEvent_rings ..
  · exact .refl s

theorem takeReadings_rings (s : State) (set : SensorSet) (u : Nat) (r : List (BitVec 16)) (bad : List Bool) :
    RingsMove s (takeReadings s set u r bad) := by
  have faults (x : State) : RingsMove s x → RingsMove s (setTherm x set u { therm s set u with
    readings := r, excluded := bad }) := fun h => h.trans rfl
  unfold takeReadings
  refine faults _ ?_
  split
  · exact .refl s
  · exact RingsMove.forEach _ _ _ fun y i => raiseIf_rings y _ _ _ _ _

theorem judgeTop_rings (s : State) (set : SensorSet) (u : Nat) (bad : List Bool) (x : Int) :
    RingsMove s (judgeTop s set u bad x) := by
  have conditions : RingsMove s (judgeSet s set u x) := by
    unfold judgeSet
    dsimp only
    refine RingsMove.trans ?_ (raiseIf_rings _ _ _ _ _ _)
    refine RingsMove.trans ?_ (raiseIf_rings _ _ _ _ _ _)
    rfl
  have latch (y : State) : RingsMove y (latchDie y u bad x) := by
    unfold latchDie
    dsimp only
    split
    · exact .refl y
    · split
      · rfl
      · refine RingsMove.trans ?_ (raiseEvent_rings _ _ _ _ _)
        rfl
  have hot (y : State) : RingsMove y (judgeHot y u x) := by
    unfold judgeHot
    dsimp only
    refine RingsMove.trans ?_ (raiseIf_rings _ _ _ _ _ _)
    rfl
  cases set with
  | die => exact conditions.trans (latch _)
  | stack => exact conditions.trans (hot _)
  | engine => exact conditions

theorem judged_epoch (s : State) (set : SensorSet) (u : Nat) (r : List (BitVec 16)) (x : Int) :
    (judged s set u r x).hif.epoch = s.hif.epoch :=
  ((takeReadings_rings _ _ _ _ _).trans (judgeTop_rings _ _ _ _ _)).epoch

theorem judged_therm (s : State) (set : SensorSet) (u : Nat) (r : List (BitVec 16)) (x : Int) :
    (therm (judged s set u r x) set u).readings = r.take (sensorCount set u) ∧
    (therm (judged s set u r x) set u).warn = ((therm s set u).warn || decide (warnAt s set ≤ x)) ∧
    ∀ y, limitAt set = some y →
      (therm (judged s set u r x) set u).limit = ((therm s set u).limit || decide (y ≤ x)) := by
  obtain ⟨on, top⟩ := judgeTop_therm (takeReadings s set u (r.take (sensorCount set u))
    (excludedOf s set u (r.take (sensorCount set u)))) set u (excludedOf s set u (r.take (sensorCount set u))) x
  obtain ⟨readings, warn, limit⟩ := judgeSet_therm (takeReadings s set u (r.take (sensorCount set u))
    (excludedOf s set u (r.take (sensorCount set u)))) set u x
  have taken := takeReadings_therm s set u (r.take (sensorCount set u)) (excludedOf s set u (r.take (sensorCount set u)))
  unfold judged
  rw [top]
  rw [taken] at readings warn limit
  refine ⟨readings, ?_, limit⟩
  rw [show warnAt (takeReadings s set u _ _) set = warnAt s set from ?_] at warn
  · exact warn
  · unfold warnAt rf
    rw [(takeReadings_fr s set u _ _).getR]

theorem thermalSample_eq {s : State} {set : SensorSet} {u : Nat} {r : List (BitVec 16)} {x : Int}
    (live : pinsLive s = true) (there : unitThere s set u = true) (top : sampleTop s set u r = some x) :
    thermalSample set u r s = thermNoted (if tripAt set ≤ x ∧ s.pwr.state ≠ 3 then
      thermalTrip (judged s set u r x) set u x else judged s set u r x) := by
  have pwr : (judged s set u r x).pwr = s.pwr := (judged_fr s set u r x).pwr rfl
  rw [← pwr]
  unfold sampleTop at top
  unfold thermalSample judged thermNoted
  dsimp only at top ⊢
  rw [live, there, top, judgeSample_some, if_neg (by decide)]

/-- A trip darkens what the sample's state still had (R381). -/
theorem thermalTrip_mainOff (s : State) (set : SensorSet) (u : Nat) (x : Int) : MainOff s (thermalTrip s set u x) ∧
    (thermalTrip s set u x).hlt.tripLatch = true ∧ (thermalTrip s set u x).hlt.tripSrc = setNo set + 1 ∧
    (thermalTrip s set u x).pwr.exitCause = 4 :=
  ⟨⟨rfl, rfl, rfl, rfl, rfl, rfl, rfl, rfl, rfl, rfl, rfl, rfl, rfl⟩, rfl, rfl, rfl⟩

/-- What darkens the module stays so through what changes neither the power state nor what STANDBY lost. -/
theorem MainOff.kept {s x y t : State} (off : MainOff x y) (before : Fr 118788 s x) (epoch : x.hif.epoch = s.hif.epoch)
    (after : Fr 114692 y t) (epoch' : t.hif.epoch = y.hif.epoch) : MainOff s t := by
  obtain ⟨state, rails, opt, lnk, tbl, cru, plan, coll, tim, lines, energy, store, epochs⟩ := off
  unfold MainOff
  rw [after.pwr rfl, after.opt rfl, after.lnk rfl, after.tbl rfl, after.cru rfl, after.plan rfl, after.coll rfl,
    after.tim rfl, after.mem rfl, after.boot rfl, epoch', energy, store, epochs, before.pwr rfl, before.boot rfl, epoch]
  exact ⟨state, rails, opt, lnk, tbl, cru, plan, coll, tim, lines, rfl, rfl, rfl⟩

/-- The moment at which a set's warn condition may end, and what then ends (R378). -/
theorem thermalClear_warned {s : State} {set : SensorSet} {u w : Nat} (warn : (therm s set u).warn = true)
    (limit : (therm s set u).limit = false) (low : (therm s set u).warnLow = some w) : thermalClear set u s =
      noteAlert (refreshLimits (raiseEvent (setTherm (await s w msT) set u { therm s set u with warn := false, limit := false })
        0x010 0x7F (thermUnit set u ((topOf (validOf set (therm s set u).readings (therm s set u).excluded)).getD 0)) 0)) := by
  have past : dueOpt (await s w msT) (some w) msT = true := decide_eq_true (le_max_right s.now (w + msT))
  have moment : awaitOpt s (([w] ++ []).min?) msT = await s w msT := rfl
  unfold thermalClear
  dsimp only
  rw [warn, limit, low]
  simp only [if_true, Bool.false_eq_true, if_false, Option.toList_some, moment, past, Bool.true_and, Bool.not_true,
    Bool.and_false, Bool.false_and]

/-- Settles O14: the conditions are `judged_therm`, the trip `thermalTrip_mainOff`. -/
theorem thermalSamplesJudged : Obligations.ThermalSamplesJudged := by
  unfold Obligations.ThermalSamplesJudged
  refine fun s set u => ⟨fun r x live there top => ?_, fun w warn limit low => ?_⟩
  · refine ⟨_, congrArg Host.Outcome.next (thermalSample_eq live there top), fun hot on => ?_, fun cool => ?_⟩
    · rw [if_pos ⟨hot, on⟩]
      obtain ⟨off, latch, src, cause⟩ := thermalTrip_mainOff (judged s set u r x) set u x
      obtain ⟨_, latched, source, _⟩ := thermNoted_hlt (thermalTrip (judged s set u r x) set u x)
      have after := thermNoted_fr (thermalTrip (judged s set u r x) set u x)
      refine ⟨off.kept (judged_fr ..) (judged_epoch ..) after (thermNoted_epoch _), latched.trans latch,
        source.trans src, ?_⟩
      rw [after.pwr rfl, cause]
    · rw [if_neg fun h => cool.elim (fun c => absurd h.1 (not_le.2 c)) h.2]
      obtain ⟨readings, warns, limits⟩ := judged_therm s set u r x
      refine ⟨?_, ?_, ?_, thermNoted_warned, fun y hy => ?_⟩
      · rw [(thermNoted_fr _).pwr rfl, (judged_fr s set u r x).pwr rfl]
      · rw [thermNoted_therm, readings]
      · rw [thermNoted_therm, warns]
      · rw [thermNoted_therm, limits y hy]
  · have quiet (x : State) : Fr 32772 x (noteAlert (refreshLimits x)) := (noteAlert_fr _).step (refreshLimits_fr x).mono
    have sets (x : State) : therm (noteAlert (refreshLimits x)) set u = therm x set u := by
      unfold therm
      rw [noteAlert_hlt]
      rfl
    refine ⟨_, congrArg Host.Outcome.next (thermalClear_warned warn limit low), ?_, ?_, ?_⟩
    · rw [(quiet _).now rfl, raiseEvent_now]
      rfl
    · rw [sets, therm_raiseEvent, therm_setTherm]
    · rw [cntGet_congr ((quiet _).cnt rfl)]
      exact raiseEvent_cnt _ _ _ _ _ _ (by decide)

end Sys2Proof.Machine

/-! ### Entry to a lower power state, and wakes: R417 to R422 -/

namespace Sys2Proof.Machine

set_option Elab.async false

/-! #### Tables built by a map -/

/-- A table of every key of a list under a function. -/
theorem tget_keys {α : Type} [DecidableEq α] (d : α) (f : Nat → α) (l : List Nat) {q : Nat} (h : q ∈ l) :
    tget d (l.map fun k => (k, f k)) q = f q := by
  induction l with
  | nil => exact absurd h List.not_mem_nil
  | cons a l ih =>
    rw [List.map_cons, tget_cons]
    split
    · next e => rw [e]
    · next e => exact ih ((List.mem_cons.1 h).resolve_left fun g => e g.symm)

/-- A mapped table at a key whose own entry the map does not make the default. -/
theorem tget_tmap_of_ne {α : Type} [DecidableEq α] (d : α) (f : Nat → α → α) (t : Tab α) (k : Nat)
    (stored : tget d t k ≠ d) (kept : f k (tget d t k) ≠ d) : tget d (tmap d t f) k = f k (tget d t k) := by
  unfold tmap
  induction t with
  | nil => exact absurd rfl stored
  | cons e t ih =>
    obtain ⟨j, v⟩ := e
    rw [tget_cons] at stored kept ⊢
    rw [List.map_cons, List.filter_cons]
    by_cases h : j = k
    · rw [if_pos h] at stored kept ⊢
      subst h
      rw [if_pos (decide_eq_true kept), tget_cons, if_pos rfl]
    · rw [if_neg h] at stored kept ⊢
      split
      · rw [tget_cons, if_neg h]
        exact ih stored kept
      · exact ih stored kept

/-! #### Draining -/

/-- A lane that exchanges ordered sets sends DISABLED from now on (R418). -/
def sendsDisabled (x : Lane) : Lane := if 2 ≤ x.state ∧ x.state ≤ 4 then { x with txDisabled := true } else x

theorem sendsDisabled_state (x : Lane) : (sendsDisabled x).state = x.state := by
  unfold sendsDisabled
  split <;> rfl

theorem parkDrainDone_eq {s : State} (drains : draining s = true) (empty : riserEmpty s = true) : parkDrainDone s =
    { linkctlAll s lcDISABLE with
      pwr := { (linkctlAll s lcDISABLE).pwr with drainAt := some (linkctlAll s lcDISABLE).now }
      lnk := { (linkctlAll s lcDISABLE).lnk with
        lanes := tmap ({} : Lane) (linkctlAll s lcDISABLE).lnk.lanes fun _ x => sendsDisabled x } } := by
  unfold parkDrainDone
  rw [drains, empty]
  rfl

theorem liftFrame_queue (s : State) (q : QFrame) :
    (liftFrame s q).sw.queue = s.sw.queue.filter fun x => decide (x.id ≠ q.id) := by
  unfold liftFrame deepFullEnd noteQ
  dsimp only
  split <;> split <;> (try split) <;> rfl

theorem freePlace_queue (s : State) (q : QFrame) : (freePlace s q).sw.queue = s.sw.queue := by
  unfold freePlace
  split
  · rw [(freeCredit_fr _ _ _ _).sw rfl]
  · rfl
  · rfl

/-- A frame taken out of the riser leaves no frame of its number in the queue. -/
theorem takeOut_queue (s : State) (q : QFrame) :
    (takeOut s q).sw.queue = s.sw.queue.filter fun x => decide (x.id ≠ q.id) :=
  (freePlace_queue _ q).trans (liftFrame_queue s q)

/-- Once every frame of a list has been taken out, no frame of the list is left. -/
theorem forEach_takeOut_queue (l : List QFrame) (s : State) :
    (forEach l s fun s q => slagCount (takeOut s q) q.outLink q.f.tc).sw.queue =
      s.sw.queue.filter fun x => decide (∀ q ∈ l, x.id ≠ q.id) := by
  induction l generalizing s with
  | nil => exact (List.filter_eq_self.2 fun _ _ => decide_eq_true fun _ h => absurd h List.not_mem_nil).symm
  | cons q l ih =>
    refine (ih _).trans ?_
    rw [slagCount_sw, takeOut_queue, List.filter_filter]
    refine List.filter_congr fun x _ => ?_
    simp only [List.mem_cons, forall_eq_or_imp, ← Bool.decide_and, Bool.decide_and, Bool.and_comm]

/-- A multicast frame held goes to slag, for each link that it still had to leave on (R418). -/
def drainMc (s : State) (m : McFrame) : State :=
  let s := { s with sw := { s.sw with mcq := s.sw.mcq.filter fun x => decide (x.q.id ≠ m.q.id) } }
  let s := if m.q.place = .landing then freeCredit s m.q.inLink m.q.f.tc (inCells m.q) else s
  forEach m.members s fun s l => slagCount s l m.q.f.tc

theorem drainMc_sw (s : State) (m : McFrame) :
    (drainMc s m).sw = { s.sw with mcq := s.sw.mcq.filter fun x => decide (x.q.id ≠ m.q.id) } := by
  unfold drainMc
  dsimp only
  rw [forEach_keeps (·.sw) _ (fun y l => slagCount_sw y l _)]
  split
  · rw [(freeCredit_fr _ _ _ _).sw rfl]
  · rfl

theorem forEach_drainMc_mcq (l : List McFrame) (s : State) :
    (forEach l s drainMc).sw.mcq = s.sw.mcq.filter fun x => decide (∀ m ∈ l, x.q.id ≠ m.q.id) := by
  induction l generalizing s with
  | nil => exact (List.filter_eq_self.2 fun _ _ => decide_eq_true fun _ h => absurd h List.not_mem_nil).symm
  | cons m l ih =>
    refine (ih _).trans ?_
    rw [drainMc_sw, List.filter_filter]
    refine List.filter_congr fun x _ => ?_
    simp only [List.mem_cons, forall_eq_or_imp, ← Bool.decide_and, Bool.decide_and, Bool.and_comm]

/-- What is left of a list without the numbers that occur in it. -/
theorem filter_own_ids {α : Type} (id : α → Nat) (l : List α) : (l.filter fun x => decide (∀ q ∈ l, id x ≠ id q)) = [] :=
  List.filter_eq_nil_iff.2 fun x hx h => of_decide_eq_true h x hx rfl

/-- The riser after every queued frame has gone to slag. -/
def drainQueue (s : State) : State := forEach s.sw.queue s fun s q => slagCount (takeOut s q) q.outLink q.f.tc

theorem parkDrainLimit_eq {s : State} (drains : draining s = true) : parkDrainLimit s =
    forEach (drainQueue (awaitOpt s s.pwr.enterAt (rf s oAGE_CFG 16 0 * usT * 9 / 8))).sw.mcq
      (drainQueue (awaitOpt s s.pwr.enterAt (rf s oAGE_CFG 16 0 * usT * 9 / 8))) drainMc := if_pos drains

theorem drainQueue_queue (s : State) : (drainQueue s).sw.queue = [] :=
  (forEach_takeOut_queue _ _).trans (filter_own_ids _ _)

theorem drainQueue_now (s : State) : (drainQueue s).now = s.now :=
  forEach_keeps (·.now) _ (fun y q => (slagCount_now _ _ _).trans ((takeOut_fr y q).now rfl)) _ _

theorem drainMc_now (s : State) (m : McFrame) : (drainMc s m).now = s.now := by
  unfold drainMc
  dsimp only
  rw [forEach_keeps (·.now) _ (fun y l => slagCount_now y l _)]
  split
  · rw [(freeCredit_fr _ _ _ _).now rfl]
  · rfl

theorem drainMc_all (l : List McFrame) (s : State) : (forEach l s drainMc).sw.queue = s.sw.queue ∧
    (forEach l s drainMc).now = s.now :=
  ⟨forEach_keeps (·.sw.queue) _ (fun y m => by rw [drainMc_sw]) _ _, forEach_keeps (·.now) _ drainMc_now _ _⟩

/-! #### The lanes at entry -/

theorem linkctlAll_lane (s : State) (op q : Nat) : lane (linkctlAll s op) q =
    { lane s q with osOut := (lane (linkctlAll s op) q).osOut } := (linkctlAll_kl s op).lanes q

theorem parkDrainDone_lane {s : State} (drains : draining s = true) (empty : riserEmpty s = true) {q : Nat}
    (low : 2 ≤ (lane s q).state) (high : (lane s q).state ≤ 4) :
    (lane (parkDrainDone s) q).txDisabled = true ∧ (lane (parkDrainDone s) q).state = (lane s q).state := by
  have state : (lane (linkctlAll s lcDISABLE) q).state = (lane s q).state := (linkctlAll_kl s _).lane_state q
  have exchanges : 2 ≤ (lane (linkctlAll s lcDISABLE) q).state ∧ (lane (linkctlAll s lcDISABLE) q).state ≤ 4 := by
    rw [state]
    exact ⟨low, high⟩
  have mapped : lane (parkDrainDone s) q = { lane (linkctlAll s lcDISABLE) q with txDisabled := true } := by
    rw [parkDrainDone_eq drains empty]
    refine (tget_tmap_of_ne ({} : Lane) (fun _ x => sendsDisabled x) _ q (fun none => ?_) (fun none => ?_)).trans
      (if_pos exchanges)
    · have zero : (lane (linkctlAll s lcDISABLE) q).state = 0 := congrArg Lane.state none
      omega
    · have zero : (lane (linkctlAll s lcDISABLE) q).state = 0 :=
        (sendsDisabled_state _).symm.trans (congrArg Lane.state none)
      omega
  rw [mapped]
  exact ⟨rfl, state⟩

/-- What a lane is at entry: retired and in a circuit it stays, else DISABLED (R418). -/
def laneDisabled (x : Lane) : Lane :=
  if x.state = 5 ∨ x.state = 7 then { x with txDisabled := false }
  else { clearLane x with state := 8, txDisabled := false }

theorem disabledLanes_state (s : State) {l : List Nat} {q : Nat} (hq : q ∈ l) :
    (lane { s with lnk := { s.lnk with lanes := l.map fun k => (k, laneDisabled (lane s k)) } } q).state =
      if (lane s q).state = 5 ∨ (lane s q).state = 7 then (lane s q).state else 8 := by
  refine (congrArg Lane.state (tget_keys ({} : Lane) (fun k => laneDisabled (lane s k)) l hq)).trans ?_
  unfold laneDisabled
  split <;> rfl

/-- A lane at entry: retired and in a circuit it stays, else it reads DISABLED (R418). -/
theorem disableLanes_state (s : State) {q : Nat} (hq : q < 4160) : (lane (disableLanes s) q).state =
    if (lane s q).state = 5 ∨ (lane s q).state = 7 then (lane s q).state else 8 := by
  have there := (mem_upTo 4160 q).2 hq
  unfold disableLanes
  generalize upTo 4160 = l at there ⊢
  generalize upTo 2050 = links
  refine (forEach_keeps (fun x => (lane x q).state) _ (fun y l => ?_) _ _).trans ?_
  · exact (refreshLink_kl _ l 7 false).lane_state q
  · exact disabledLanes_state s there

theorem parkReached_spec (s : State) : (parkReached 0 s).lnk = s.lnk ∧ (parkReached 0 s).now = s.now ∧
    (s.pwr.target = 1 → (parkReached 0 s).pwr.state = 1) ∧
    (s.pwr.target ≠ 1 → (parkReached 0 s).pwr.state = s.pwr.state ∧ (parkReached 0 s).pwr.parkPoint = some s.now) := by
  unfold parkReached
  split
  · next deep =>
    refine ⟨(parkTime_fr _).lnk rfl, (parkTime_fr _).now rfl, fun _ => congrArg Pwr.state ((parkTime_fr _).pwr rfl),
      fun h => absurd deep h⟩
  · next deep =>
    refine ⟨(abortCopies_fr _).lnk rfl, (abortCopies_fr _).now rfl, fun h => absurd h deep, fun _ => ?_⟩
    rw [(abortCopies_fr _).pwr rfl]
    exact ⟨rfl, rfl⟩

/-- The state in which 10 µs of DISABLED heartbeats have passed. -/
def lanesOff (s : State) (d : Nat) : State := disableLanes (noteDark (await s d (10 * usT)))

theorem parkDisableDone_eq {s : State} {d : Nat} (enters : s.pwr.state = 4) (first : s.pwr.parkPoint = none)
    (drained : s.pwr.drainAt = some d) (quiet : s.pwr.wakePending = 0) :
    parkDisableDone s = parkReached 0 (lanesOff s d) := by
  unfold parkDisableDone
  rw [enters, first, drained, quiet]
  refine (if_pos rfl).trans ?_
  rw [awaitOpt_some]
  rfl

theorem lanesOff_pwr (s : State) (d : Nat) : (lanesOff s d).pwr.state = s.pwr.state ∧
    (lanesOff s d).pwr.target = s.pwr.target ∧ (lanesOff s d).now = max s.now (d + 10 * usT) := by
  have fr := disableLanes_fr (noteDark (await s d (10 * usT)))
  unfold lanesOff
  rw [fr.pwr rfl, fr.now rfl]
  exact ⟨rfl, rfl, rfl⟩

/-! #### RETAIN and STANDBY -/

theorem lowPowerEntryDone_eq {s : State} {p : Nat} (enters : s.pwr.state = 4) (point : s.pwr.parkPoint = some p)
    (quiet : s.pwr.wakePending = 0) : lowPowerEntryDone s =
      if s.pwr.target = 2 then enterRetain (await s p (20 * msT)) else enterStandby (await s p (50 * msT)) := by
  unfold lowPowerEntryDone
  rw [enters, point, quiet]
  by_cases retain : s.pwr.target = 2
  · simp only [retain, if_true]
    exact if_pos retain
  · simp only [retain, if_false]
    exact if_neg retain

theorem enterRetain_plan (s : State) {c : Nat} (held : (planOf s c).state ≠ 0) :
    planOf (enterRetain s) c = { planOf s c with win := [] } := by
  exact tget_tmap_of_ne ({} : Plan) (fun _ p => { p with win := [] }) _ c
    (fun none => held (congrArg Plan.state none)) fun none => held (congrArg Plan.state none)

theorem enterRetain_cnt (s : State) {c : Nat} (other : c ≠ cMod 4) : cntGet (enterRetain s) c = cntGet s c := by
  have e : cntGet (enterRetain s) c = cntGet (giveUpExch s [0, 1]) c := rfl
  rw [e]
  unfold giveUpExch
  rw [cntGet_bumpN, if_neg other]

/-! #### The wakes -/

theorem rotNext_idle {s : State} {k : Nat} (repairs : (rot s k).repairs = []) (requests : (rot s k).requests = [])
    (pass : (rot s k).pass = []) : rotNext s k = s := by
  have none : nextRot s k = none := by
    unfold nextRot
    rw [requests, pass]
    dsimp only [List.find?_nil, List.filter_nil, List.head?_nil]
    split <;> rfl
  unfold rotNext
  dsimp only
  rw [repairs, none]
  dsimp only
  split
  · rfl
  · split <;> rfl

theorem rotAll_idle {s : State} (idle : NothingWaits s) : rotAll s = s := by
  unfold rotAll
  refine forEach_eq_self _ _ _ fun k => ?_
  obtain ⟨repairs, requests, pass⟩ := idle k
  exact rotNext_idle repairs requests pass

/-- A lane that the wake from PARKED finds DISABLED locks anew where it has light (R420). -/
def relocked (s : State) (q : Nat) : State :=
  if linkEnabled s (linkOf q) then
    refreshLink (modLane s q fun x => { clearLane x with
      state := if !(lane s q).los && engineLit s (engineOfLane q) then 1 else 0, wakeDirect := !x.needFull }) (linkOf q) 0 false
  else s

theorem relocked_fr (s : State) (q : Nat) : Fr 114885 s (relocked s q) := by
  unfold relocked
  split
  · exact (refreshLink_fr _ _ _ _).step (modLane_fr _ _ _).mono
  · exact Fr.refl _ _

/-- A lane with light, whose link is enabled and whose engine is lit. -/
def MayLock (s : State) (q : Nat) : Prop :=
  (lane s q).los = false ∧ linkEnabled s (linkOf q) = true ∧ engineLit s (engineOfLane q) = true

theorem relocked_mayLock {s : State} {q : Nat} (p : Nat) (may : MayLock s q) : MayLock (relocked s p) q ∧
    (lane (relocked s p) q).state = if p = q then 1 else (lane s q).state := by
  obtain ⟨light, enabled, lit⟩ := may
  have fr := relocked_fr s p
  have enabled' : linkEnabled (relocked s p) (linkOf q) = true := by
    unfold linkEnabled at enabled ⊢
    rwa [fr.getR]
  have lit' : engineLit (relocked s p) (engineOfLane q) = true := by
    unfold engineLit engine at lit ⊢
    rwa [fr.opt rfl]
  by_cases h : p = q
  · subst h
    have kept := (refreshLink_kl (modLane s p fun x => { clearLane x with
      state := if !(lane s p).los && engineLit s (engineOfLane p) then 1 else 0, wakeDirect := !x.needFull })
      (linkOf p) 0 false).lanes p
    rw [show refreshLink _ (linkOf p) 0 false = relocked s p from (if_pos enabled).symm, lane_modLane] at kept
    refine ⟨⟨?_, enabled', lit'⟩, ?_⟩
    · rw [kept]
      exact light
    · rw [kept, if_pos rfl, light, lit]
      rfl
  · have other : (lane (relocked s p) q).los = (lane s q).los ∧ (lane (relocked s p) q).state = (lane s q).state := by
      unfold relocked
      split
      · rw [(refreshLink_kl _ (linkOf p) 0 false).lanes q,
          show lane (modLane s p _) q = lane s q from tget_tset_other _ _ _ _ _ _ (Ne.symm h)]
        exact ⟨rfl, rfl⟩
      · exact ⟨rfl, rfl⟩
    exact ⟨⟨other.1.trans light, enabled', lit'⟩, by rw [if_neg h, other.2]⟩

/-- Once every lane of a list has been taken up, one of them that may lock is LOCKING. -/
theorem forEach_relocked {l : List Nat} {q : Nat} (s : State) (may : MayLock s q)
    (h : q ∈ l ∨ (lane s q).state = 1) : (lane (forEach l s relocked) q).state = 1 := by
  induction l generalizing s with
  | nil => exact h.resolve_left List.not_mem_nil
  | cons p l ih =>
    obtain ⟨may', state⟩ := relocked_mayLock p may
    refine ih (relocked s p) may' ?_
    by_cases e : p = q
    · exact .inr (state.trans (if_pos e))
    · rw [if_neg e] at state
      rw [state]
      exact h.imp_left fun there => (List.mem_cons.1 there).resolve_left fun g => e g.symm

/-- The lanes that a wake from PARKED finds DISABLED (R420). -/
def disabledKeys (s : State) : List Nat := (s.lnk.lanes.filter fun e => e.2.state == 8).map (·.1)

theorem mem_disabledKeys {s : State} {q : Nat} (h : (lane s q).state = 8) : q ∈ disabledKeys s := by
  have there : (q, lane s q) ∈ s.lnk.lanes :=
    (tget_eq_or_mem ({} : Lane) s.lnk.lanes q).resolve_left fun none => by
      rw [show lane s q = {} from none] at h
      exact absurd h (by decide)
  exact List.mem_map.2 ⟨_, List.mem_filter.2 ⟨there, beq_iff_eq.2 h⟩, rfl⟩

/-- The state as a wake brings the module to ACTIVE. -/
def activeAt (s : State) (w d : Nat) : State := becomeActive (await s w d)

theorem wakeParkedDone_eq {s : State} {w : Nat} (waking : s.pwr.state = 5) (at_ : s.pwr.wakeAt = some w)
    (parked : s.pwr.wakeFrom = 1) : wakeParkedDone s = followModuleFence
      (forEach (disabledKeys s) (activeAt s w (50 * usT)) relocked) := by
  unfold wakeParkedDone
  rw [waking, parked, at_]
  exact if_pos rfl

theorem wakeRetainDone_eq {s : State} {w : Nat} (waking : s.pwr.state = 5) (at_ : s.pwr.wakeAt = some w)
    (retained : s.pwr.wakeFrom = 2) :
    wakeRetainDone s = followModuleFence (rotAll (activeAt s w (900 * msT))) := by
  unfold wakeRetainDone
  rw [waking, retained, at_]
  exact if_pos rfl

/-- A module fence that stands as the pins and the latch ask is left alone. -/
theorem followModuleFence_same {s : State}
    (h : s.hlt.moduleFenced = ((s.hlt.fenceN || s.hlt.fenceUnstable) && mayFence s)) : followModuleFence s = s :=
  if_pos (beq_iff_eq.2 h.symm)

/-- In ACTIVE the module fence may be in force once the module is READY (R372). -/
theorem mayFence_active {s : State} (active : s.pwr.state = 0) : mayFence s = moduleReadyNow s := by
  unfold mayFence
  rw [active]
  exact (congrArg _ (by rw [Bool.or_assoc]; exact Bool.or_true _)).trans (Bool.and_true _)

/-- Settles O5: the riser by `drainQueue_queue` and `forEach_drainMc_mcq`, the lanes by `disableLanes_state` and
`forEach_relocked`, the fence by `followModuleFence_hlt`. -/
theorem lowPowerEntryAndWakeSteps : Obligations.LowPowerEntryAndWakeSteps := by
  unfold Obligations.LowPowerEntryAndWakeSteps
  refine fun s => ⟨fun drains empty => ?_, fun drains => ?_, fun d enters first drained quiet => ?_,
    fun p enters point quiet => ?_, fun w waking at_ => ⟨fun parked => ?_, fun retained => ?_⟩⟩
  · refine ⟨_, rfl, ?_, fun q low high => parkDrainDone_lane drains empty low high⟩
    rw [parkDrainDone_eq drains empty]
    exact congrArg some ((linkctlAll_fr s _).now rfl)
  · obtain ⟨queue, now⟩ := drainMc_all (drainQueue (awaitOpt s s.pwr.enterAt (rf s oAGE_CFG 16 0 * usT * 9 / 8))).sw.mcq
      (drainQueue (awaitOpt s s.pwr.enterAt (rf s oAGE_CFG 16 0 * usT * 9 / 8)))
    refine ⟨_, congrArg Host.Outcome.next (parkDrainLimit_eq drains), ?_, ?_, fun a accepted => ?_⟩
    · rw [queue, drainQueue_queue]
    · exact (forEach_drainMc_mcq _ _).trans (filter_own_ids (fun m : McFrame => m.q.id) _)
    · rw [now, drainQueue_now, accepted]
      rfl
  · obtain ⟨lnk, now, deep, deeper⟩ := parkReached_spec (lanesOff s d)
    obtain ⟨state, target, moment⟩ := lanesOff_pwr s d
    refine ⟨_, congrArg Host.Outcome.next (parkDisableDone_eq enters first drained quiet), now.trans moment,
      fun q hq => ?_, fun parked => deep (target.trans parked), fun lower => ?_⟩
    · rw [lane_congr lnk]
      exact disableLanes_state _ hq
    · obtain ⟨still, point⟩ := deeper (by rw [target]; exact lower)
      exact ⟨still.trans (state.trans enters), point.trans (congrArg some now.symm)⟩
  · refine ⟨_, congrArg Host.Outcome.next (lowPowerEntryDone_eq enters point quiet), fun retain => ?_, fun standby => ?_⟩
    · rw [if_pos retain]
      exact ⟨rfl, rfl, rfl, rfl, rfl, fun c held => enterRetain_plan (await s p (20 * msT)) held,
        fun c other => enterRetain_cnt (await s p (20 * msT)) other⟩
    · rw [if_neg standby]
      exact enterStandby_mainOff (await s p (50 * msT))
  · have fr : Fr 114885 (activeAt s w (50 * usT)) (wakeParkedDone s) := by
      rw [wakeParkedDone_eq waking at_ parked]
      exact (followModuleFence_fr _).step (Fr.forEach _ _ relocked_fr (Fr.refl _ _))
    refine ⟨_, rfl, by rw [fr.pwr rfl]; rfl, fr.now rfl, fun q disabled enabled light lit => ?_⟩
    rw [wakeParkedDone_eq waking at_ parked, (followModuleFence_kl _).lane_state q]
    exact forEach_relocked _ ⟨light, enabled, lit⟩ (.inl (mem_disabledKeys disabled))
  · have fr : Fr 118989 (activeAt s w (900 * msT)) (wakeRetainDone s) := by
      rw [wakeRetainDone_eq waking at_ retained]
      exact (followModuleFence_fr _).step (rotAll_fr _).mono
    refine ⟨_, rfl, by rw [fr.pwr rfl]; rfl, fr.now rfl, fr.opt rfl, fr.tbl rfl, fr.plan rfl, fun idle => ?_⟩
    have e : wakeRetainDone s = followModuleFence (activeAt s w (900 * msT)) := by
      rw [wakeRetainDone_eq waking at_ retained, rotAll_idle (s := activeAt s w (900 * msT)) idle]
    have may : mayFence (activeAt s w (900 * msT)) = moduleReadyNow s := mayFence_active rfl
    rw [e]
    refine ⟨?_, fun same => ?_⟩
    · rw [followModuleFence_hlt, may]
      rfl
    · rw [followModuleFence_same (s := activeAt s w (900 * msT)) (by rw [may]; exact same)]
      exact ((becomeActive_fr _).step (n := 131088) (await_fr s w _).mono).onlyChanges _

end Sys2Proof.Machine

/-! ### Rings, their interrupts and their completions: R335 to R340 -/

namespace Sys2Proof.Machine

set_option Elab.async false

/-! #### One ring and the others -/

theorem ringKey_inj {k k' : RingKind} {i j : Nat} (hi : i < 256) (hj : j < 256) :
    ringKey k i = ringKey k' j ↔ k = k' ∧ i = j := by
  unfold ringKey
  constructor
  · intro h
    have kinds : kindNo k = kindNo k' := by omega
    refine ⟨?_, by omega⟩
    revert kinds
    cases k <;> cases k' <;> simp [kindNo]
  · rintro ⟨rfl, rfl⟩
    rfl

theorem ringCount_le (k : RingKind) : ringCount k ≤ 256 := by cases k <;> decide

theorem ring_setRing_other (s : State) {k k' : RingKind} {i j : Nat} (r : Ring) (h : ringKey k' j ≠ ringKey k i) :
    ring (setRing s k i r) k' j = ring s k' j := tget_tset_other _ _ _ _ _ _ h

theorem ring_modRing_other (s : State) {k k' : RingKind} {i j : Nat} (f : Ring → Ring) (h : ringKey k' j ≠ ringKey k i) :
    ring (modRing s k i f) k' j = ring s k' j := ring_setRing_other s _ h

theorem ring_congr {s t : State} (h : t.hif = s.hif) (k : RingKind) (i : Nat) : ring t k i = ring s k i := by
  unfold ring
  rw [h]

theorem Fr.ring {m : Nat} {s t : State} (h : Fr m s t) (k : RingKind) (i : Nat) (hm : m.testBit 14 = false := by rfl) :
    Machine.ring t k i = Machine.ring s k i := ring_congr (h.hif hm) k i

/-- Who owns a ring is read from the VFs, the assignments and the straps. -/
theorem ringOwner_congr {s t : State} (vfs : t.hif.vfs = s.hif.vfs) (regs : t.regs = s.regs)
    (variant : t.variant = s.variant) (boot : t.boot = s.boot) (k : RingKind) (i : Nat) :
    ringOwner t k i = ringOwner s k i := by
  unfold ringOwner mgr selfHosted getR
  rw [vfs, regs, variant, boot]

/-- What states agree on that read a ring's registers and owner alike. -/
structure RegsAlike (s t : State) : Prop where
  vfs : t.hif.vfs = s.hif.vfs
  regs : t.regs = s.regs
  variant : t.variant = s.variant
  boot : t.boot = s.boot

theorem RegsAlike.refl (s : State) : RegsAlike s s := ⟨rfl, rfl, rfl, rfl⟩

theorem RegsAlike.trans {s x t : State} (h : RegsAlike s x) (g : RegsAlike x t) : RegsAlike s t :=
  ⟨g.vfs.trans h.vfs, g.regs.trans h.regs, g.variant.trans h.variant, g.boot.trans h.boot⟩

theorem RegsAlike.of {m : Nat} {s t : State} (h : Fr m s t) (rings : RingsMove s t)
    (hm : m.testBit 1 = false ∧ m.testBit 3 = false := by decide) : RegsAlike s t :=
  ⟨rings.vfs, h.regs hm.1, h.variant, h.boot hm.2⟩

namespace RegsAlike

variable {s t : State} (h : RegsAlike s t)
include h

theorem getR (off : Nat) : Machine.getR t off = Machine.getR s off :=
  getR_congr h.regs h.variant (by rw [h.boot]) off

theorem owner (k : RingKind) (i : Nat) : ringOwner t k i = ringOwner s k i :=
  ringOwner_congr h.vfs h.regs h.variant h.boot k i

theorem cfg (k : RingKind) (i : Nat) : ringCfg t k i = ringCfg s k i := by
  unfold ringCfg
  rw [h.owner, h.getR]

theorem cqOf (k : RingKind) (i : Nat) : Machine.cqOf t k i = Machine.cqOf s k i := by
  unfold Machine.cqOf
  rw [h.cfg]

theorem size (k : RingKind) (i : Nat) : ringSize t k i = ringSize s k i := by
  unfold ringSize
  rw [h.cfg]

theorem base (k : RingKind) (i : Nat) : ringBase t k i = ringBase s k i := by
  unfold ringBase
  rw [h.getR]

theorem phase (k : RingKind) (i n : Nat) : phaseBit t k i n = phaseBit s k i n := by
  unfold phaseBit
  rw [h.size]

end RegsAlike

/-! #### Events and the rings -/

/-- The keys of the event rings. -/
def EventKey (κ : Nat) : Prop := 512 ≤ κ ∧ κ < 528

theorem not_eventKey {k : RingKind} {i : Nat} (hk : k ≠ .eq) (hi : i < 256) : ¬ EventKey (ringKey k i) := by
  unfold EventKey ringKey
  cases k
  case eq => exact absurd rfl hk
  all_goals
    simp only [kindNo]
    omega

@[simp] theorem ring_bump (s : State) (n : Nat) (k : RingKind) (i : Nat) : ring (bump s n) k i = ring s k i := rfl

theorem raiseMsix_ring (s : State) (f : Func) (v : Nat) (k : RingKind) (i : Nat) :
    ring (raiseMsix s f v) k i = ring s k i := by
  unfold raiseMsix
  dsimp only
  split <;> rfl

/-- An interrupt check disarms its ring and leaves the others. -/
theorem irqCheck_ring (s : State) (k : RingKind) (i : Nat) :
    (ring (irqCheck s k i) k i = { ring s k i with armed := (ring (irqCheck s k i) k i).armed }) ∧
      ∀ k' j, ringKey k' j ≠ ringKey k i → ring (irqCheck s k i) k' j = ring s k' j := by
  unfold irqCheck
  split
  · dsimp only
    refine ⟨?_, fun k' j other => ?_⟩
    · rw [raiseMsix_ring, ring_bump, ring_modRing]
    · rw [raiseMsix_ring, ring_bump, ring_modRing_other _ _ other]
  · exact ⟨rfl, fun _ _ _ => rfl⟩

/-- An entry moves the TAIL of its ring; the other rings are left alone. -/
theorem writeEntry_ring (s : State) (k : RingKind) (i : Nat) (w0 w1 w2 : Word) (w3 : Nat) :
    (ring (writeEntry s k i w0 w1 w2 w3) k i = { ring s k i with
      tail := ((ring s k i).tail + 1) % 2 ^ 24, newAt := (ring s k i).newAt ++ [s.now]
      armed := (ring (writeEntry s k i w0 w1 w2 w3) k i).armed }) ∧
      ∀ k' j, ringKey k' j ≠ ringKey k i → ring (writeEntry s k i w0 w1 w2 w3) k' j = ring s k' j := by
  obtain ⟨own, others⟩ := irqCheck_ring (bump (setRing (emit s (.dma (ringOwner s k i)
    (ringBase s k i + 32 * ((ring s k i).tail % ringSize s k i))
    (bytesOfWords [w0, w1, w2, BitVec.ofNat 64 (at_ 63 (phaseBit s k i (ring s k i).tail) + w3)]))) k i
    { ring s k i with tail := ((ring s k i).tail + 1) % 2 ^ 24, newAt := (ring s k i).newAt ++ [s.now] })
    (cRing (ringCnt k i) 0)) k i
  refine ⟨own.trans ?_, fun k' j other => (others k' j other).trans ?_⟩
  · rw [ring_bump, ring_setRing]
    rfl
  · rw [ring_bump, ring_setRing_other _ _ other]
    rfl

theorem eventToRing_ring (s : State) (code part a0 a1 e : Nat) {k : RingKind} {i : Nat}
    (other : ringKey k i ≠ ringKey .eq e) : ring (eventToRing s code part a0 a1 e) k i = ring s k i := by
  unfold eventToRing
  split
  · rfl
  split
  · exact ring_modRing_other _ _ other
  · exact (writeEntry_ring _ _ _ _ _ _ _).2 _ _ other

/-- An event writes event rings alone. -/
theorem raiseEvent_ring (s : State) (code part a0 a1 : Nat) {k : RingKind} {i : Nat} (other : ¬ EventKey (ringKey k i)) :
    ring (raiseEvent s code part a0 a1) k i = ring s k i := by
  unfold raiseEvent
  dsimp only
  split
  · rfl
  · unfold forEach
    have all (l : List Nat) (x : State) (h : ∀ e ∈ l, e < 16) :
        ring (l.foldl (fun s e => eventToRing s code part a0 a1 e) x) k i = ring x k i := by
      induction l generalizing x with
      | nil => rfl
      | cons e l ih =>
        refine (ih _ fun a ha => h a (List.mem_cons_of_mem _ ha)).trans (eventToRing_ring _ _ _ _ _ _ fun same => ?_)
        have small := h e List.mem_cons_self
        refine other ?_
        rw [same]
        unfold EventKey ringKey
        simp only [kindNo]
        omega
    exact all _ _ fun e he => List.mem_range.1 he

theorem noteHealth_ring (s : State) {k : RingKind} {i : Nat} (other : ¬ EventKey (ringKey k i)) :
    ring (noteHealth s) k i = ring s k i := by
  unfold noteHealth
  dsimp only
  split
  · rfl
  · exact raiseEvent_ring _ _ _ _ _ other

/-- A ring of a producer or a completion ring in FAULT, by its cause (R337, R356). -/
theorem faultRing_spec (s : State) {k : RingKind} {i : Nat} (cause : Nat) (hk : k ≠ .eq) (hi : i < 256) :
    ring (faultRing s k i cause) k i = { ring s k i with state := 3, fault := cause } ∧
      cntGet (faultRing s k i cause) 0x901 = (cntGet s 0x901 + 1) % 2 ^ 64 := by
  unfold faultRing
  dsimp only
  rw [raiseEvent_ring _ _ _ _ _ (not_eventKey hk hi), ring_modRing]
  exact ⟨rfl, raiseEvent_cnt _ _ _ _ _ _ (by decide)⟩

/-! #### Interrupts -/

theorem bit_setPba (s : State) (n : Nat) : bit (tget 0 (setPba s n true).hif.pba (n / 64)) (n % 64) = true := by
  unfold setPba bit
  dsimp only
  rw [tget_tset_same, if_pos rfl, BitVec.toNat_or, Nat.testBit_or, BitVec.toNat_ofNat, Nat.testBit_mod_two_pow,
    Nat.testBit_two_pow_self, decide_eq_true (Nat.mod_lt n (by decide)), Bool.and_true, Bool.or_true]

/-- An interrupt that is due is raised once (R340). -/
theorem irqCheck_due {s : State} {k : RingKind} {i : Nat} (due : irqDue s k i = true) :
    Interrupted s (irqCheck s k i) k i := by
  have e : irqCheck s k i = raiseMsix (bump (modRing s k i fun r => { r with armed := false }) (cRing (ringCnt k i) 2))
      (ringOwner s k i) (fld (ringCfg s k i) 46 38) := if_pos due
  rw [e]
  unfold Interrupted
  dsimp only
  have word : ∀ n, msixWord (bump (modRing s k i fun r => { r with armed := false }) (cRing (ringCnt k i) 2)) n =
      msixWord s n := fun _ => rfl
  have disarmed : ring (bump (modRing s k i fun r => { r with armed := false }) (cRing (ringCnt k i) 2)) k i =
      { ring s k i with armed := false } := by rw [ring_bump, ring_modRing]
  refine ⟨by rw [raiseMsix_ring, disarmed], ?_, fun unmasked => ?_, fun masked => ?_⟩
  · rw [cntGet_congr ((raiseMsix_fr _ _ _).cnt rfl), cntGet_bump, if_pos rfl]
    rfl
  · unfold raiseMsix
    dsimp only
    rw [if_neg (by rw [word, unmasked]; decide)]
    rfl
  · unfold raiseMsix
    dsimp only
    rw [if_pos (by rw [word]; exact masked)]
    exact ⟨rfl, bit_setPba _ _⟩

/-! #### Completions -/

/-- A ring whose descriptors are completed: a command, table-DMA or plan-load ring. -/
def Producer (k : RingKind) : Prop := k = .cmd ∨ k = .tdma ∨ k = .pload

theorem Producer.ne_eq {k : RingKind} (h : Producer k) : k ≠ .eq := by rcases h with rfl | rfl | rfl <;> decide
theorem Producer.ne_cq {k : RingKind} (h : Producer k) : k ≠ .cq := by rcases h with rfl | rfl | rfl <;> decide

theorem cqOf_lt (s : State) (k : RingKind) (i : Nat) : cqOf s k i < 256 := by
  unfold cqOf fld
  exact Nat.mod_lt _ (by decide)

theorem cqOf_apart {k : RingKind} {i : Nat} (hk : k ≠ .cq) (hi : i < 256) (s : State) (j : Nat) (k' : RingKind) :
    ringKey .cq (cqOf s k' j) ≠ ringKey k i := fun same =>
  hk (((ringKey_inj (cqOf_lt ..) hi).1 same).1).symm

/-- What a completion reads of a state but the time: the registers, the owners, and every ring that is no event
ring's. -/
structure ComplAlike (s t : State) : Prop extends RegsAlike s t where
  rings : ∀ k i, ¬ EventKey (ringKey k i) → ring t k i = ring s k i

theorem ComplAlike.refl (s : State) : ComplAlike s s := ⟨RegsAlike.refl s, fun _ _ _ => rfl⟩

theorem ComplAlike.trans {s x t : State} (h : ComplAlike s x) (g : ComplAlike x t) : ComplAlike s t :=
  ⟨h.toRegsAlike.trans g.toRegsAlike, fun k i e => (g.rings k i e).trans (h.rings k i e)⟩

/-- An operation that writes neither registers, start-up state nor host interface. -/
theorem ComplAlike.of {m : Nat} {s t : State} (h : Fr m s t)
    (hm : m.testBit 1 = false ∧ m.testBit 3 = false ∧ m.testBit 14 = false := by decide) : ComplAlike s t :=
  ⟨RegsAlike.of h (RingsMove.of h hm.2.2) ⟨hm.1, hm.2.1⟩, fun k i _ => h.ring k i hm.2.2⟩

theorem raiseEvent_alike (s : State) (code part a0 a1 : Nat) : ComplAlike s (raiseEvent s code part a0 a1) :=
  ⟨RegsAlike.of (raiseEvent_fr ..) (raiseEvent_rings ..), fun _ _ e => raiseEvent_ring _ _ _ _ _ e⟩

theorem noteHealth_alike (s : State) : ComplAlike s (noteHealth s) :=
  ⟨RegsAlike.of (noteHealth_fr _) (noteHealth_rings _), fun _ _ e => noteHealth_ring _ e⟩

theorem ComplAlike.ite {s a b : State} {c : Prop} [Decidable c] (ha : ComplAlike s a) (hb : ComplAlike s b) :
    ComplAlike s (if c then a else b) := by split <;> assumption

theorem ComplAlike.forEach {α : Type} (l : List α) (s : State) (f : State → α → State) (h : ∀ y a, ComplAlike y (f y a)) :
    ComplAlike s (forEach l s f) := by
  induction l generalizing s with
  | nil => exact .refl s
  | cons a l ih => exact (h s a).trans (ih (f s a))

/-- A state that differs in what neither registers, start-up state nor host interface hold. -/
theorem ComplAlike.of_eq {s t : State} (hif : t.hif = s.hif) (regs : t.regs = s.regs) (variant : t.variant = s.variant)
    (boot : t.boot = s.boot) : ComplAlike s t :=
  ⟨⟨by rw [hif], regs, variant, boot⟩, fun k i _ => ring_congr hif k i⟩

theorem MayComplete.alike {s t : State} {k : RingKind} {i key : Nat} (h : MayComplete s k i key) (a : ComplAlike s t) :
    MayComplete t k i key := by
  obtain ⟨hi, hk, mute, gen, held, on, room⟩ := h
  have hi' : i < 256 := lt_of_lt_of_le hi (ringCount_le k)
  have own := a.rings k i (not_eventKey (Producer.ne_eq hk) hi')
  have cq := a.rings .cq (cqOf s k i) (not_eventKey (by decide) (cqOf_lt ..))
  refine ⟨hi, hk, by rw [own, mute], by rw [own, gen], by rw [own, held], ?_, ?_⟩
  · unfold ringOn at on ⊢
    rw [a.cqOf, cq, on]
  · unfold ringFull at room ⊢
    rw [a.cqOf, cq, a.size, room]

/-- What an interrupt check sends comes after what was sent. -/
theorem irqCheck_out (s : State) (k : RingKind) (i : Nat) : ∃ l, (irqCheck s k i).out = s.out ++ l := by
  unfold irqCheck
  split
  · unfold raiseMsix
    dsimp only
    split
    · exact ⟨[], (List.append_nil _).symm⟩
    · exact ⟨_, rfl⟩
  · exact ⟨[], (List.append_nil _).symm⟩

/-- An entry is sent to its place in the ring, and nothing that was sent is taken back. -/
theorem writeEntry_out (s : State) (k : RingKind) (i : Nat) (w0 w1 w2 : Word) (w3 : Nat) :
    ∃ l, (writeEntry s k i w0 w1 w2 w3).out = s.out ++ .dma (ringOwner s k i)
      (ringBase s k i + 32 * ((ring s k i).tail % ringSize s k i))
      (bytesOfWords [w0, w1, w2, BitVec.ofNat 64 (at_ 63 (phaseBit s k i (ring s k i).tail) + w3)]) :: l := by
  unfold writeEntry
  obtain ⟨l, sent⟩ := irqCheck_out (bump (setRing (emit s (.dma (ringOwner s k i)
    (ringBase s k i + 32 * ((ring s k i).tail % ringSize s k i))
    (bytesOfWords [w0, w1, w2, BitVec.ofNat 64 (at_ 63 (phaseBit s k i (ring s k i).tail) + w3)]))) k i
    { ring s k i with tail := ((ring s k i).tail + 1) % 2 ^ 24, newAt := (ring s k i).newAt ++ [s.now] })
    (cRing (ringCnt k i) 0)) k i
  exact ⟨l, sent.trans (List.append_assoc _ [_] l)⟩

/-- A started descriptor's run key has ended. -/
def keyEnded (s : State) (k : RingKind) (i key : Nat) : State :=
  setRing s k i { ring s k i with running := (ring s k i).running.erase key }

theorem keyEnded_alike (s : State) (k : RingKind) (i key : Nat) : RegsAlike s (keyEnded s k i key) :=
  ⟨rfl, rfl, rfl, rfl⟩

theorem complete_cases (s : State) (k : RingKind) (i key st detail count : Nat) :
    complete s k i key st detail count =
      let x := keyEnded s k i key
      if (ring s k i).mute || key / 2 ^ 32 != (ring s k i).gen || !ringOn x .cq (cqOf x k i) then x
      else if !(ring s k i).heldBack.isEmpty || ringFull x .cq (cqOf x k i) then
        modRing (if (ring s k i).heldBack.isEmpty then bump x (cRing (ringCnt k i) 1) else x) k i fun r => { r with
          heldBack := r.heldBack ++ [(key, st, detail, count)], state := 4 }
      else writeCompletion x k i (key, st, detail, count) := rfl

theorem complete_eq {s : State} {k : RingKind} {i key : Nat} (may : MayComplete s k i key) (st detail count : Nat) :
    complete s k i key st detail count = writeEntry (keyEnded s k i key) .cq (cqOf s k i)
      (mkWord [at_ 32 (key % 2 ^ 32), at_ 24 st, at_ 20 (complKind k), at_ 12 i]) (BitVec.ofNat 64 detail)
      (mkWord [at_ 32 (count % 2 ^ 32), nt32 s]) (ring s k i).head := by
  obtain ⟨hi, hk, mute, gen, held, on, room⟩ := may
  have hi' : i < 256 := lt_of_lt_of_le hi (ringCount_le k)
  have alike := keyEnded_alike s k i key
  have cq : ring (keyEnded s k i key) .cq (cqOf s k i) = ring s .cq (cqOf s k i) :=
    ring_setRing_other _ _ (cqOf_apart (Producer.ne_cq hk) hi' s i k)
  have own : ring (keyEnded s k i key) k i = { ring s k i with running := (ring s k i).running.erase key } :=
    ring_setRing ..
  have on' : ringOn (keyEnded s k i key) .cq (cqOf s k i) = true := by
    unfold ringOn at on ⊢
    rw [cq, on]
  have room' : ringFull (keyEnded s k i key) .cq (cqOf s k i) = false := by
    unfold ringFull at room ⊢
    rw [alike.size, cq, room]
  have e : complete s k i key st detail count = writeCompletion (keyEnded s k i key) k i (key, st, detail, count) := by
    rw [complete_cases]
    dsimp only
    rw [alike.cqOf, mute, gen, on', held, room']
    simp
  rw [e]
  unfold writeCompletion
  rw [alike.cqOf, own]
  rfl

/-- The completion that a ring may write is written, and its run key ends. -/
theorem complete_written {s : State} {k : RingKind} {i key : Nat} (may : MayComplete s k i key) (st detail count : Nat) :
    EntryWritten s (complete s k i key st detail count) k i key st detail count ∧
      ring (complete s k i key st detail count) k i = { ring s k i with running := (ring s k i).running.erase key } := by
  have hk := may.2.1
  have hi : i < 256 := lt_of_lt_of_le may.1 (ringCount_le k)
  have apart := cqOf_apart (Producer.ne_cq hk) hi s i k
  have alike := keyEnded_alike s k i key
  have cq : ring (keyEnded s k i key) .cq (cqOf s k i) = ring s .cq (cqOf s k i) := ring_setRing_other _ _ apart
  have time : nt32 (complete s k i key st detail count) = nt32 s := (complete_fr _ _ _ _ _ _ _).nt32
  obtain ⟨own, others⟩ := writeEntry_ring (keyEnded s k i key) .cq (cqOf s k i)
    (mkWord [at_ 32 (key % 2 ^ 32), at_ 24 st, at_ 20 (complKind k), at_ 12 i]) (BitVec.ofNat 64 detail)
    (mkWord [at_ 32 (count % 2 ^ 32), nt32 s]) (ring s k i).head
  obtain ⟨l, sent⟩ := writeEntry_out (keyEnded s k i key) .cq (cqOf s k i)
    (mkWord [at_ 32 (key % 2 ^ 32), at_ 24 st, at_ 20 (complKind k), at_ 12 i]) (BitVec.ofNat 64 detail)
    (mkWord [at_ 32 (count % 2 ^ 32), nt32 s]) (ring s k i).head
  rw [← complete_eq may, cq] at own
  rw [← complete_eq may, alike.owner, alike.base, alike.size, alike.phase, cq] at sent
  refine ⟨⟨by rw [own], ?_⟩, ?_⟩
  · rw [sent, time]
    exact List.mem_append_right _ List.mem_cons_self
  · rw [complete_eq may]
    exact (others k i apart.symm).trans (ring_setRing ..)

/-! #### Operations that a descriptor starts -/

theorem sweepBad_of_empty {s : State} {k : RingKind} {i : Nat} (h : (ring s k i).fetched = []) : sweepBad s k i = s := by
  unfold sweepBad
  rw [h]
  rfl

theorem popDesc_ring (s : State) (k : RingKind) (i : Nat) (d : List Word) : ring (popDesc s k i d) k i =
    { ring s k i with
      fetched := (ring s k i).fetched.drop 1, staged := none, running := (ring s k i).running ++ [runKey s k i d] } :=
  ring_modRing ..

theorem popDesc_ring_other (s : State) {k k' : RingKind} {i j : Nat} (d : List Word) (h : ringKey k' j ≠ ringKey k i) :
    ring (popDesc s k i d) k' j = ring s k' j := ring_modRing_other s _ h

theorem popDesc_alike (s : State) (k : RingKind) (i : Nat) (d : List Word) : RegsAlike s (popDesc s k i d) :=
  ⟨rfl, rfl, rfl, rfl⟩

theorem runKey_tag (s : State) (k : RingKind) (i : Nat) (d : List Word) : runKey s k i d % 2 ^ 32 = dTag d % 2 ^ 32 := by
  unfold runKey
  omega

theorem DescReady.may {s : State} {k : RingKind} {i : Nat} {d : List Word} {op : Nat} (h : DescReady s k i d op) :
    MayComplete (popDesc s k i d) k i (runKey s k i d) := by
  obtain ⟨_, _, _, hi, hk, mute, gen, held, on, room⟩ := h
  have hi' : i < 256 := lt_of_lt_of_le hi (ringCount_le k)
  have alike := popDesc_alike s k i d
  have cq : ring (popDesc s k i d) .cq (cqOf s k i) = ring s .cq (cqOf s k i) :=
    popDesc_ring_other s d (cqOf_apart (Producer.ne_cq hk) hi' s i k)
  refine ⟨hi, hk, by rw [popDesc_ring, mute], by rw [popDesc_ring, gen], by rw [popDesc_ring, held], ?_, ?_⟩
  · unfold ringOn at on ⊢
    rw [alike.cqOf, cq, on]
  · unfold ringFull at room ⊢
    rw [alike.cqOf, cq, alike.size, room]

/-- An operation whose effect leaves what a completion reads completes its descriptor, with no other waiting. -/
theorem DescReady.completed {s x : State} {k : RingKind} {i : Nat} {d : List Word} {op : Nat} (h : DescReady s k i d op)
    (a : ComplAlike (popDesc s k i d) x) (st detail count : Nat) :
    Completed s (sweepBad (complete x k i (runKey s k i d) st detail count) k i) k i d st detail count := by
  have may := h.may.alike a
  obtain ⟨waits, _, _, hi, hk, _⟩ := h
  have hi' : i < 256 := lt_of_lt_of_le hi (ringCount_le k)
  have apart := cqOf_apart (Producer.ne_cq hk) hi' s i k
  have alike := (popDesc_alike s k i d).trans a.toRegsAlike
  have own : ring x k i = _ := (a.rings k i (not_eventKey (Producer.ne_eq hk) hi')).trans (popDesc_ring ..)
  have cq : ring x .cq (cqOf s k i) = ring s .cq (cqOf s k i) :=
    (a.rings .cq (cqOf s k i) (not_eventKey (by decide) (cqOf_lt ..))).trans (popDesc_ring_other s d apart)
  obtain ⟨⟨tail, sent⟩, own'⟩ := complete_written may st detail count
  have none : (ring (complete x k i (runKey s k i d) st detail count) k i).fetched = [] := by
    rw [own', own, waits]
    rfl
  rw [sweepBad_of_empty none]
  refine ⟨none, ?_, ?_, ?_⟩
  · rw [own', own]
    dsimp only
    rw [List.length_erase_of_mem (List.mem_append_right _ List.mem_cons_self), List.length_append]
    rfl
  · rw [alike.cqOf, cq] at tail
    exact tail
  · rw [alike.cqOf, alike.owner, alike.base, alike.size, alike.phase, cq, own, runKey_tag] at sent
    exact sent

/-- A descriptor of an operation, alone in its ring, is given to the operation. -/
theorem DescReady.run {s t : State} {k : RingKind} {i : Nat} {d : List Word} {op : Nat} (h : DescReady s k i d op)
    (f : DescOp) (e : f (popDesc s k i d) d (runKey s k i d) (ring s k i).staged = some t) :
    runHead k i op f s = sweepBad t k i := by
  obtain ⟨waits, isOp, starts, _⟩ := h
  unfold runHead firstDesc
  rw [waits, List.head?_cons]
  dsimp only
  rw [isOp, starts, e]
  simp

/-- The descriptor's operation has taken effect without completing it: it is started (R338). -/
theorem DescReady.started {s x : State} {k : RingKind} {i : Nat} {d : List Word} {op : Nat} (h : DescReady s k i d op)
    (a : ComplAlike (popDesc s k i d) x) : Started s (sweepBad x k i) k i d := by
  obtain ⟨waits, _, _, hi, hk, _⟩ := h
  have hi' : i < 256 := lt_of_lt_of_le hi (ringCount_le k)
  have own : ring x k i = _ := (a.rings k i (not_eventKey (Producer.ne_eq hk) hi')).trans (popDesc_ring ..)
  have none : (ring x k i).fetched = [] := by
    rw [own, waits]
    rfl
  rw [sweepBad_of_empty none]
  refine ⟨none, by rw [own], ?_⟩
  rw [a.rings .cq _ (not_eventKey (by decide) (cqOf_lt ..)),
    popDesc_ring_other s d (cqOf_apart (Producer.ne_cq hk) hi' s i k)]

end Sys2Proof.Machine

/-! ### Doorbells and interrupts: R336, R337, R339, R340 -/

namespace Sys2Proof.Machine

set_option Elab.async false

theorem bell_up {s : State} {f : Func} (up : barUp s f = true) (k : RingKind) (page : Nat) (act : Nat → State → State) :
    bell f k page act s = match bellRing (wake s 1) f k page with
      | none => bump (wake s 1) (cMod 3)
      | some i => act i (wake s 1) := if_neg (by rw [up]; decide)

theorem bell_none {s : State} {f : Func} {k : RingKind} {page : Nat} (up : barUp s f = true)
    (no : bellRing (wake s 1) f k page = none) (act : Nat → State → State) :
    bell f k page act s = bump (wake s 1) (cMod 3) := by
  rw [bell_up up, no]

theorem bell_some {s : State} {f : Func} {k : RingKind} {page i : Nat} (up : barUp s f = true)
    (rings : bellRing (wake s 1) f k page = some i) (act : Nat → State → State) :
    bell f k page act s = act i (wake s 1) := by
  rw [bell_up up, rings]

/-- A doorbell acts on a ring that exists. -/
theorem bellRing_lt {s : State} {f : Func} {k : RingKind} {page i : Nat} (h : bellRing s f k page = some i) :
    i < ringCount k := by
  unfold bellRing at h
  split at h
  · exact absurd h (by simp)
  · split at h
    · next ok =>
      simp only [Bool.and_eq_true, decide_eq_true_eq] at ok
      exact Option.some.inj h ▸ ok.1.1
    · exact absurd h (by simp)

theorem tailWrite_within {s : State} {k : RingKind} {v : Word} {i : Nat}
    (fits : (fld v 23 0 + 2 ^ 24 - (ring s k i).head) % 2 ^ 24 ≤ ringSize s k i) :
    tailWrite k v i s = setRing s k i { ring s k i with tail := fld v 23 0 } := if_neg (not_lt.2 fits)

theorem tailWrite_overrun {s : State} {k : RingKind} {v : Word} {i : Nat}
    (excess : ringSize s k i < (fld v 23 0 + 2 ^ 24 - (ring s k i).head) % 2 ^ 24) (sound : (ring s k i).fault = 0) :
    tailWrite k v i s = faultRing s k i 1 := (if_pos excess).trans (if_pos sound)

/-- A BAR2 write that is no doorbell (R336, R337). -/
theorem doorbellWrite_stray {s : State} {f : Func} {page off bytes : Nat} {v : Word} (up : barUp s f = true)
    (stray : bytes ≠ 4 ∧ bytes ≠ 8 ∨ off % 8 ≠ 0 ∨ 0x30 < off) :
    doorbellWrite f page off bytes v s = bump (wake s 1) (cMod 3) := by
  unfold doorbellWrite
  simp only [up, if_true]
  split
  · rfl
  · next shape =>
    simp only [Bool.not_not, Bool.not_eq_eq_eq_not, Bool.not_true, Bool.not_false, Bool.not_eq_true,
      Bool.and_eq_false_imp, Bool.or_eq_true, beq_iff_eq] at shape
    split
    any_goals rfl
    all_goals omega

/-- Settles O17: a doorbell is `bell_some` or `bell_none`, TAIL `tailWrite_within` or `tailWrite_overrun`. -/
theorem doorbellsActOnOwnedRings : Obligations.DoorbellsActOnOwnedRings := by
  unfold Obligations.DoorbellsActOnOwnedRings
  intro s f page v up
  refine ⟨fun k i c hc rings => ?_, fun k c hc no => ?_, fun off bytes stray => ?_, fun off bytes c hb hc => ?_⟩
  · have e : exec c s = .next (tailWrite k v i (wake s 1)) ∧ Producer k := by
      simp only [List.mem_cons, Prod.mk.injEq, List.not_mem_nil, or_false] at hc
      rcases hc with ⟨rfl, rfl⟩ | ⟨rfl, rfl⟩ | ⟨rfl, rfl⟩
      · exact ⟨congrArg Host.Outcome.next (bell_some up rings _), .inl rfl⟩
      · exact ⟨congrArg Host.Outcome.next (bell_some up rings _), .inr (.inl rfl)⟩
      · exact ⟨congrArg Host.Outcome.next (bell_some up rings _), .inr (.inr rfl)⟩
    obtain ⟨run, producer⟩ := e
    have small : i < 256 := lt_of_lt_of_le (bellRing_lt rings) (ringCount_le k)
    refine ⟨fun fits => ⟨_, run.trans (congrArg Host.Outcome.next (tailWrite_within fits)), ring_setRing .., ?_,
      (setRing_fr _ _ _ _).onlyChanges _⟩, fun excess sound => ⟨_, run.trans (congrArg Host.Outcome.next
      (tailWrite_overrun excess sound)), faultRing_spec _ 1 producer.ne_eq small⟩⟩
    exact fun k' j other => ring_setRing_other _ _ other
  · simp only [List.mem_cons, Prod.mk.injEq, List.not_mem_nil, or_false] at hc
    rcases hc with ⟨rfl, rfl⟩ | ⟨rfl, rfl⟩ | ⟨rfl, rfl⟩ | ⟨rfl, rfl⟩ | ⟨rfl, rfl⟩ | ⟨rfl, rfl⟩ | ⟨rfl, rfl⟩ <;>
      exact congrArg Host.Outcome.next (bell_none up no _)
  · exact congrArg Host.Outcome.next (doorbellWrite_stray up stray)
  · simp only [List.mem_cons, Prod.mk.injEq, List.not_mem_nil, or_false] at hc
    have shape (off : Nat) (h8 : off % 8 = 0) : ¬ (!((bytes == 4 || bytes == 8) && off % bytes == 0)) = true := by
      rcases hb with rfl | rfl
      · simp
        omega
      · simp [h8]
    rcases hc with ⟨rfl, rfl⟩ | ⟨rfl, rfl⟩ | ⟨rfl, rfl⟩ | ⟨rfl, rfl⟩ | ⟨rfl, rfl⟩ | ⟨rfl, rfl⟩ | ⟨rfl, rfl⟩ <;>
      exact congrArg Host.Outcome.next (if_neg (shape _ (by decide)))

/-! #### HEAD of the entry rings -/

/-- Every ring keeps its HEAD. -/
def HeadsKept (s t : State) : Prop := ∀ k i, (ring t k i).head = (ring s k i).head

theorem HeadsKept.refl (s : State) : HeadsKept s s := fun _ _ => rfl

theorem HeadsKept.trans {s x t : State} (h : HeadsKept s x) (g : HeadsKept x t) : HeadsKept s t :=
  fun k i => (g k i).trans (h k i)

theorem HeadsKept.forEach {α : Type} (l : List α) (s : State) (f : State → α → State) (h : ∀ y a, HeadsKept y (f y a)) :
    HeadsKept s (forEach l s f) := by
  induction l generalizing s with
  | nil => exact .refl s
  | cons a l ih => exact (h s a).trans (ih (f s a))

/-- A change of one ring that keeps its HEAD. -/
theorem HeadsKept.setRing (s : State) (k : RingKind) (i : Nat) {r : Ring} (h : r.head = (ring s k i).head) :
    HeadsKept s (setRing s k i r) := fun k' j => by
  by_cases same : ringKey k' j = ringKey k i
  · unfold ring Machine.setRing at *
    rw [same]
    dsimp only
    rw [tget_tset_same, h]
  · rw [ring_setRing_other _ _ same]

theorem writeEntry_heads (s : State) (k : RingKind) (i : Nat) (w0 w1 w2 : Word) (w3 : Nat) :
    HeadsKept s (writeEntry s k i w0 w1 w2 w3) := fun k' j => by
  obtain ⟨own, others⟩ := writeEntry_ring s k i w0 w1 w2 w3
  by_cases same : ringKey k' j = ringKey k i
  · unfold ring at own ⊢
    rw [same, own]
  · rw [others k' j same]

theorem complete_heads (s : State) (k : RingKind) (i key st detail count : Nat) :
    HeadsKept s (complete s k i key st detail count) := by
  have ended : HeadsKept s (keyEnded s k i key) := HeadsKept.setRing s k i rfl
  rw [complete_cases]
  dsimp only
  split
  · exact ended
  split
  · split
    · exact ended.trans (HeadsKept.setRing (bump (keyEnded s k i key) _) k i rfl)
    · exact ended.trans (HeadsKept.setRing _ k i rfl)
  · exact ended.trans (writeEntry_heads _ _ _ _ _ _ _)

theorem sweepLoop_heads (k : RingKind) (i n : Nat) (s : State) : HeadsKept s (sweepLoop k i n s) := by
  induction n generalizing s with
  | zero => exact .refl s
  | succ n ih =>
    unfold sweepLoop
    split
    · exact .refl s
    · split
      · exact .refl s
      · next d _ _ =>
        have popped : HeadsKept s (popDesc s k i d) := HeadsKept.setRing s k i rfl
        exact (popped.trans (complete_heads _ _ _ _ _ _ _)).trans (ih _)

theorem releaseHeld_heads (k : RingKind) (i n : Nat) (s : State) : HeadsKept s (releaseHeld k i n s) := by
  induction n generalizing s with
  | zero => exact .refl s
  | succ n ih =>
    unfold releaseHeld
    split
    · exact .refl s
    · dsimp only
      split
      · exact .refl s
      · next c rest _ _ =>
        have written : HeadsKept s (modRing (writeCompletion s k i c) k i fun r => { r with heldBack := rest }) :=
          (writeEntry_heads _ _ _ _ _ _ _).trans (HeadsKept.setRing _ k i rfl)
        refine HeadsKept.trans ?_ (ih _)
        split
        · exact written.trans (HeadsKept.setRing _ k i rfl)
        · exact written

theorem unstallProducers_heads (s : State) (cq : Nat) : HeadsKept s (unstallProducers s cq) := by
  refine HeadsKept.forEach _ _ _ fun y key => ?_
  dsimp only
  split
  · exact .refl y
  · exact .refl y
  · split
    · exact releaseHeld_heads _ _ _ _
    · exact .refl y

theorem headWrite_event (s : State) (v : Word) (i : Nat) : headWrite .eq v i s = setRing s .eq i { ring s .eq i with
    head := fld v 23 0
    newAt := (ring s .eq i).newAt.drop ((ring s .eq i).newAt.length -
      min (((ring s .eq i).tail + 2 ^ 24 - fld v 23 0) % 2 ^ 24) (ring s .eq i).newAt.length) } := rfl

/-- HEAD of a ring that the spine writes is what the driver wrote. -/
theorem headWrite_head (s : State) (k : RingKind) (v : Word) (i : Nat) :
    (ring (headWrite k v i s) k i).head = fld v 23 0 := by
  unfold headWrite
  dsimp only
  split
  · have swept (x : State) (l : List (RingKind × Nat)) : HeadsKept x (forEach l x fun s p =>
        if cqOf s p.1 p.2 = i then sweepBad s p.1 p.2 else s) := HeadsKept.forEach _ _ _ fun y p => by
      split
      · exact sweepLoop_heads _ _ _ _
      · exact .refl y
    rw [swept _ _ .cq i, unstallProducers_heads _ _ .cq i, ring_setRing]
  · rw [ring_setRing]

/-- An arm, as an interrupt check of the armed ring. -/
theorem armRing_spec (s : State) (k : RingKind) (i : Nat) :
    (irqDue (modRing s k i fun r => { r with armed := true }) k i = true → Interrupted s (armRing k i s) k i) ∧
      (irqDue (modRing s k i fun r => { r with armed := true }) k i = false →
        armRing k i s = modRing s k i fun r => { r with armed := true }) :=
  ⟨fun due => irqCheck_due (s := modRing s k i fun r => { r with armed := true }) due,
    fun quiet => if_neg (by rw [quiet]; decide)⟩

theorem irqDue_coalesced {s : State} {k : RingKind} {i a : Nat} {rest : List Nat} (armed : (ring s k i).armed = true)
    (entries : (ring s k i).newAt = a :: rest) :
    irqDue (await s a (fld (ringCfg s k i) 29 20 * usT)) k i = true := by
  have past : due (await s a (fld (ringCfg s k i) 29 20 * usT)) a (fld (ringCfg s k i) 29 20 * usT) = true :=
    decide_eq_true (le_max_right _ _)
  unfold irqDue
  dsimp only
  rw [show ring (await s a (fld (ringCfg s k i) 29 20 * usT)) k i = ring s k i from rfl, entries]
  dsimp only
  rw [armed, show ringCfg (await s a (fld (ringCfg s k i) 29 20 * usT)) k i = ringCfg s k i from rfl, past]
  simp

/-- Settles O18: HEAD is `headWrite_head`, an interrupt that is due `irqCheck_due`. -/
theorem headsAndArmsOfEntryRings : Obligations.HeadsAndArmsOfEntryRings := by
  unfold Obligations.HeadsAndArmsOfEntryRings
  refine fun s => ⟨fun f page v i up rings => ?_, fun f page v i up rings => ?_, fun f page k i c up hc rings => ?_,
    fun k i a rest _ armed entries => ?_⟩
  · exact ⟨_, congrArg Host.Outcome.next (bell_some up rings _), headWrite_head _ _ _ _⟩
  · refine ⟨_, congrArg Host.Outcome.next (bell_some up rings _), headWrite_head _ _ _ _, ?_, ?_, ?_⟩
    · rw [headWrite_event, ring_setRing]
    · rw [headWrite_event, ring_setRing]
      dsimp only
      rw [List.length_drop]
      unfold ringHeld
      dsimp only
      omega
    · exact (setRing_fr _ _ _ _).onlyChanges _
  · have e : exec c s = .next (armRing k i (wake s 1)) := by
      simp only [List.mem_cons, Prod.mk.injEq, List.not_mem_nil, or_false] at hc
      rcases hc with ⟨rfl, rfl⟩ | ⟨rfl, rfl⟩ <;> exact congrArg Host.Outcome.next (bell_some up rings _)
    obtain ⟨raised, armed⟩ := armRing_spec (wake s 1) k i
    refine ⟨_, e, (armRing_fr k i _).onlyChanges _, raised, fun quiet => ?_⟩
    rw [armed quiet]
    exact ⟨ring_modRing .., rfl, rfl⟩
  · have e : coalUsExpiry k i s = irqCheck (await s a (fld (ringCfg s k i) 29 20 * usT)) k i := by
      unfold coalUsExpiry
      dsimp only
      rw [armed, entries]
      rfl
    have raised := irqCheck_due (irqDue_coalesced armed entries)
    refine ⟨_, congrArg Host.Outcome.next e, (irqCheck_fr _ _ _).now rfl, raised, ?_⟩
    rw [← e]
    exact (coalUsExpiry_fr k i s).onlyChanges _

end Sys2Proof.Machine

/-! ### Rings enabled, disabled and muted: R341, R342, R356, R365 -/

namespace Sys2Proof.Machine

set_option Elab.async false

/-! #### RING_CFG and RING_ASSIGN -/

theorem ringCfgWrite_refused {s : State} {f : Func} {k : RingKind} {i : Nat} {v : Word}
    (refused : (ringWriter s f k i && cfgRange s k i (cfgNext s k i v) && !cfgIgnored s k i (cfgNext s k i v)) = false) :
    ringCfgWrite f k i v s = s := by
  refine if_pos ?_
  revert refused
  cases ringWriter s f k i <;> cases cfgRange s k i (cfgNext s k i v) <;> cases cfgIgnored s k i (cfgNext s k i v) <;> decide

/-- A write of RING_CFG that R341 lets through. -/
theorem ringCfgWrite_taken {s : State} {f : Func} {k : RingKind} {i : Nat} {v : Word} (may : ringWriter s f k i = true)
    (range : cfgRange s k i (cfgNext s k i v) = true) (free : cfgIgnored s k i (cfgNext s k i v) = false) :
    ringCfgWrite f k i v s =
      if bit (cfgNext s k i v) 8 && !bit (getR s (ringOff k i + 8)) 8 then
        startRing (putR s (ringOff k i + 8) (cfgNext s k i v)) k i
      else if bit (getR s (ringOff k i + 8)) 8 && !bit (cfgNext s k i v) 8 then
        stopRing (putR s (ringOff k i + 8) (cfgNext s k i v)) k i
      else putR s (ringOff k i + 8) (cfgNext s k i v) := if_neg (by rw [may, range, free]; decide)

theorem forgetMuted_kept (r : Ring) : (forgetMuted r).mute = false ∧ (forgetMuted r).heldBack = r.heldBack := by
  unfold forgetMuted
  split
  · exact ⟨rfl, rfl⟩
  · next loud => exact ⟨Bool.eq_false_iff.2 loud, rfl⟩

/-- A ring as it starts: HEAD and TAIL 0, STALLED where completions are held back (R341). -/
theorem startRing_ring (s : State) (k : RingKind) (i : Nat) :
    (ring (startRing s k i) k i).state = (if (ring s k i).heldBack = [] then 1 else 4) ∧
    (ring (startRing s k i) k i).head = 0 ∧ (ring (startRing s k i) k i).tail = 0 ∧
    (ring (startRing s k i) k i).fault = 0 ∧ (ring (startRing s k i) k i).lost = 0 ∧
    (ring (startRing s k i) k i).armed = false ∧ (ring (startRing s k i) k i).mute = false := by
  unfold startRing
  rw [ring_modRing]
  refine ⟨?_, rfl, rfl, rfl, rfl, rfl, (forgetMuted_kept _).1⟩
  dsimp only
  cases (ring s k i).heldBack <;> rfl

theorem stopRing_ring (s : State) (k : RingKind) (i : Nat) : ring (stopRing s k i) k i = { ring s k i with
    state := if k ≠ .cq ∧ k ≠ .eq ∧ outstanding (ring s k i) = true then 2 else 0 } := by
  unfold stopRing
  rw [ring_modRing]
  cases k <;> simp

theorem ring_putR (s : State) (off : Nat) (v : Word) (k : RingKind) (i : Nat) : ring (putR s off v) k i = ring s k i := rfl

/-- A register write that keeps the ranges acts by the access codes on its register alone. -/
theorem writeReg_written (s : State) (off : Nat) (v : Word) : RegWritten s (writeReg s off v) off v := by
  unfold RegWritten writeReg
  dsimp only
  intro o
  by_cases range : rangeOk off (BitVec.ofNat 64 (applyWrite (regInfo s.variant s.boot.strapBl2 off) (lockedAt s off)
      (getR s off).toNat v.toNat)) = true
  · rw [if_pos range]
    by_cases own : o = off
    · rw [if_pos ⟨own, range⟩, own, getR_putR]
    · rw [if_neg fun h => own h.1, getR_putR_other _ _ _ _ own]
  · rw [if_neg range, if_neg fun h => range h.2]

theorem ringAssignWrite_taken {s : State} {f : Func} {i : Nat} {v : Word} (may : mayWrite s f = true)
    (cmd : ringLive s .cmd i = false) (cq : ringLive s .cq i = false) (eq : i < 16 → ringLive s .eq i = false)
    (free : bit v 15 = false ∨ (i ≠ 0 ∧ ∀ q, slotIndex s (fld v 13 8) (fld v 1 0) = some q → q = i)) :
    ringAssignWrite f i v s = writeReg s (oCMD i + 0x18) v := by
  have event : (decide (i < 16) && ringLive s .eq i) = false := by
    by_cases h : i < 16
    · rw [eq h, Bool.and_false]
    · rw [decide_eq_false h, Bool.false_and]
  unfold ringAssignWrite
  dsimp only
  rw [may, cmd, cq, event, if_neg ?_]
  rcases free with unused | ⟨nonzero, same⟩
  · simp [unused]
  · cases slot : slotIndex s (fld v 13 8) (fld v 1 0) with
    | none => simp [nonzero]
    | some q => simp [nonzero, same q slot]

/-- Settles O20: ENABLE by `startRing_ring` and `stopRing_ring`, RING_ASSIGN by `writeReg_written`. -/
theorem ringsEnabledDisabledAssigned : Obligations.RingsEnabledDisabledAssigned := by
  unfold Obligations.RingsEnabledDisabledAssigned
  refine fun s f k i v => ⟨fun en c hc refused => ?_, fun may range free low high => ?_, fun may range free high low => ?_,
    fun live low done => ?_, fun may cmd cq eq free => ?_⟩
  · simp only [List.mem_cons, Prod.mk.injEq, List.not_mem_nil, or_false] at hc
    rcases hc with ⟨rfl, rfl⟩ | ⟨rfl, rfl⟩ <;> exact congrArg Host.Outcome.next (ringCfgWrite_refused refused)
  · have e : ringEnable f k i v s = startRing (putR s (ringOff k i + 8) (cfgNext s k i (setFld v 8 8 1))) k i :=
      (ringCfgWrite_taken may range free).trans (if_pos (by rw [high, low]; rfl))
    obtain ⟨state, head, tail, fault, lost, armed, mute⟩ :=
      startRing_ring (putR s (ringOff k i + 8) (cfgNext s k i (setFld v 8 8 1))) k i
    refine ⟨_, congrArg Host.Outcome.next e, ((startRing_fr _ _ _).getR _).trans (getR_putR _ _ _), state, head, tail, fault, lost, armed, mute, ?_⟩
    exact ((startRing_fr _ _ _).step (n := 16386) (putR_fr _ _ _).mono).onlyChanges _
  · have e : ringDisable f k i v s = stopRing (putR s (ringOff k i + 8) (cfgNext s k i (setFld v 8 8 0))) k i :=
      (ringCfgWrite_taken may range free).trans ((if_neg (by rw [high, low]; decide)).trans (if_pos (by rw [high, low]; rfl)))
    refine ⟨_, congrArg Host.Outcome.next e, stopRing_ring _ _ _, ?_⟩
    exact ((stopRing_fr _ _ _).step (n := 16386) (putR_fr _ _ _).mono).onlyChanges _
  · have empty : (ring s k i).fetched = [] := by
      unfold outstanding at done
      simp only [Bool.or_eq_false_iff, Bool.not_eq_false', List.isEmpty_iff] at done
      exact done.1.1
    have e : ringDrained k i s = modRing s k i fun r => { r with state := 0, runAs := none } := by
      unfold ringDrained
      rw [sweepBad_of_empty empty]
      exact if_pos (by rw [live, low, done]; rfl)
    exact ⟨_, congrArg Host.Outcome.next e, ring_modRing .., (modRing_fr _ _ _ _).onlyChanges _⟩
  · have e := ringAssignWrite_taken may cmd cq eq free
    exact ⟨_, congrArg Host.Outcome.next e, writeReg_written _ _ _, (writeReg_fr _ _ _).onlyChanges _⟩

/-! #### Muted rings -/

/-- The reset value of a ring's RING_CFG has ENABLE 0. -/
theorem ringCfg_reset (v : Variant) (b : Bool) {k : RingKind} {i : Nat} (h : i < ringCount k) :
    (regInfo v b (ringOff k i + 8)).reset.testBit 8 = false := by
  have group (kind p : Nat) : (regInfoRing kind p 8).reset.testBit 8 = false := by
    have low (n : Nat) : (n * 512 + 4).testBit 8 = false := by
      rw [Nat.testBit_eq_decide_div_mod_eq]
      exact decide_eq_false (by omega)
    unfold regInfoRing
    rw [if_neg (by decide), if_pos rfl]
    split
    · simp only [at_, Nat.shiftLeft_eq]
      rw [show p * 2 ^ 56 + p % 4 * 2 ^ 18 + 4 = (p * 2 ^ 47 + p % 4 * 2 ^ 9) * 512 + 4 by ring]
      exact low _
    · decide
    · decide
    · decide
  have hif (off : Nat) (low : ¬ off < 0x400000) (high : off < 0x800000) : regInfo v b off = regInfoHif off :=
    (if_neg low).trans (if_pos high)
  have info : ∃ kind p, regInfo v b (ringOff k i + 8) = regInfoRing kind p 8 := by
    have bounds : 0x410000 ≤ ringOff k i ∧ ringOff k i < 0x433000 ∧ ringOff k i % 0x20 = 0 := by
      cases k <;> simp only [ringCount] at h <;> simp only [ringOff, oCMD, oCQ, oEQ, oTDMA, oPLOAD] <;> omega
    have place : (ringOff k i + 8) % 0x20 = 8 := by omega
    rw [hif _ (by omega) (by omega)]
    unfold regInfoHif
    simp only [oMBOX_CTRL, place]
    split_ifs
    any_goals exact ⟨_, _, rfl⟩
    all_goals
      exfalso
      cases k <;> simp only [ringCount] at h <;> simp only [ringOff, oCMD, oCQ, oEQ, oTDMA, oPLOAD] at * <;> omega
  obtain ⟨kind, p, e⟩ := info
  rw [e]
  exact group kind p

theorem setFld_bit8 (w : Word) : (setFld w 8 8 0).toNat.testBit 8 = false := by
  unfold setFld fld
  rw [BitVec.toNat_ofNat, Nat.testBit_eq_decide_div_mod_eq]
  refine decide_eq_false ?_
  have h := w.isLt
  simp only [Nat.shiftRight_eq_div_pow]
  omega

/-- A register whose ENABLE a mute has cleared reads 0 there, if its reset value does. -/
theorem bit8_putR_cleared {s : State} {off : Nat} (reset : (regInfo s.variant s.boot.strapBl2 off).reset.testBit 8 = false) :
    bit (getR (putR s off (setFld (getR s off) 8 8 0)) off) 8 = false := by
  unfold bit
  rw [getR_putR, BitVec.toNat_ofNat, Nat.testBit_mod_two_pow, regClip, Nat.testBit_or, Nat.testBit_and, Nat.testBit_and,
    reset, setFld_bit8]
  rfl

/-- The launch stores after the launches of a ring have been dropped. -/
theorem dropLaunches_store (s : State) (i : Nat) {die : Nat} {x : Launch} (h : x ∈ launchStore (dropLaunches s i) die) :
    x ∈ launchStore s die ∧ (die < 4 → x.ring ≠ i) := by
  have all (l : List Nat) (y : State) (hx : x ∈ launchStore (forEach l y fun s d =>
      setLaunch s d ((launchStore s d).filter fun l => l.ring != i)) die) :
      x ∈ launchStore y die ∧ (die ∈ l → x.ring ≠ i) := by
    induction l generalizing y with
    | nil => exact ⟨hx, fun h => absurd h List.not_mem_nil⟩
    | cons d l ih =>
      obtain ⟨there, gone⟩ := ih _ hx
      by_cases e : d = die
      · rw [e, launchStore_setLaunch] at there
        obtain ⟨there, other⟩ := List.mem_filter.1 there
        exact ⟨there, fun _ => bne_iff_ne.1 other⟩
      · rw [show launchStore (setLaunch y d ((launchStore y d).filter fun l => l.ring != i)) die = launchStore y die from
          tget_tset_other _ _ _ _ _ _ (Ne.symm e)] at there
        exact ⟨there, fun h => gone ((List.mem_cons.1 h).resolve_left (Ne.symm e))⟩
  obtain ⟨there, gone⟩ := all _ s h
  exact ⟨there, fun low => gone (List.mem_range.2 low)⟩

/-- The descriptors that a mute of a ring ends: those of a command ring in the stores and buffers. -/
def muteEnds (s : State) (k : RingKind) (i : Nat) : List Nat :=
  match k with
  | .cmd => endedKeys s i
  | _ => []

/-- A mute acts on its ring alone, and on its register alone. -/
theorem muteRing_ring (s : State) (k : RingKind) (i : Nat) :
    ring (muteRing s k i) k i = mutedRing (ringOwner s k i) (muteEnds s k i) (ring s k i) ∧
      (∀ k' j, ringKey k' j ≠ ringKey k i → ring (muteRing s k i) k' j = ring s k' j) ∧
      (muteRing s k i).regs = (putR s (ringOff k i + 8) (setFld (getR s (ringOff k i + 8)) 8 8 0)).regs ∧
      (muteRing s k i).hif.vfs = s.hif.vfs := by
  unfold muteRing muteEnds
  have regs (x : State) : (dropLaunches x i).regs = x.regs := (dropLaunches_fr x i).regs rfl
  have hif (x : State) : (dropLaunches x i).hif = x.hif := (dropLaunches_fr x i).hif rfl
  cases k <;> dsimp only
  case cmd =>
    refine ⟨?_, fun k' j other => ?_, regs _, by rw [hif]; rfl⟩
    · exact (ring_congr (hif _) _ _).trans (ring_modRing ..)
    · exact (ring_congr (hif _) _ _).trans (ring_modRing_other _ _ other)
  all_goals exact ⟨ring_modRing .., fun k' j other => ring_modRing_other _ _ other, rfl, rfl⟩

/-- The stores and buffers after a mute: nothing new, and nothing of a command ring that was muted. -/
theorem muteRing_waits (s : State) (k : RingKind) (i : Nat) :
    (∀ x ∈ (muteRing s k i).hif.telem, x ∈ s.hif.telem ∧ (k = .cmd → x.ring ≠ i)) ∧
      ∀ die, ∀ x ∈ launchStore (muteRing s k i) die, x ∈ launchStore s die ∧ (k = .cmd → die < 4 → x.ring ≠ i) := by
  unfold muteRing
  cases k <;> dsimp only
  case cmd =>
    refine ⟨fun x hx => ?_, fun die x hx => ?_⟩
    · rw [(dropLaunches_fr _ i).hif rfl] at hx
      obtain ⟨there, other⟩ := List.mem_filter.1 hx
      exact ⟨there, fun _ => bne_iff_ne.1 other⟩
    · obtain ⟨there, gone⟩ := dropLaunches_store _ i hx
      exact ⟨there, fun _ => gone⟩
  all_goals exact ⟨fun x hx => ⟨hx, fun h => absurd h (by decide)⟩, fun die x hx => ⟨hx, fun h => absurd h (by decide)⟩⟩

/-- A mute clears an ENABLE bit and no owner's field. -/
theorem muteRing_owner (s : State) (k : RingKind) (i : Nat) (k' : RingKind) (j : Nat) :
    ringOwner (muteRing s k i) k' j = ringOwner s k' j := by
  obtain ⟨_, _, regs, vfs⟩ := muteRing_ring s k i
  have fr := muteRing_fr s k i
  have assign : getR (muteRing s k i) (oCMD j + 0x18) = getR s (oCMD j + 0x18) := by
    refine (getR_congr regs fr.variant (by rw [fr.boot rfl]; rfl) _).trans (getR_putR_other _ _ _ _ ?_)
    cases k <;> simp only [ringOff, oCMD, oCQ, oEQ, oTDMA, oPLOAD] <;> omega
  unfold ringOwner mgr selfHosted
  rw [assign, vfs, fr.boot rfl]

/-- ENABLE of a ring that exists reads 0 once any mute has cleared it. -/
theorem muteRing_bit8 (s : State) (k : RingKind) (i : Nat) {off : Nat}
    (reset : (regInfo s.variant s.boot.strapBl2 off).reset.testBit 8 = false)
    (h : off = ringOff k i + 8 ∨ bit (getR s off) 8 = false) : bit (getR (muteRing s k i) off) 8 = false := by
  obtain ⟨_, _, regs, _⟩ := muteRing_ring s k i
  have fr := muteRing_fr s k i
  rw [getR_congr (s := putR s (ringOff k i + 8) (setFld (getR s (ringOff k i + 8)) 8 8 0)) regs fr.variant
    (by rw [fr.boot rfl]; rfl)]
  by_cases own : off = ringOff k i + 8
  · subst own
    exact bit8_putR_cleared reset
  · rw [getR_putR_other _ _ _ _ own]
    exact h.resolve_left own

/-- What the mutes that have acted on a ring have left of it. -/
structure MutedIn (s t : State) (k : RingKind) (i : Nat) : Prop where
  fetched : (ring t k i).fetched = (ring s k i).fetched
  others : k ≠ .cmd → (ring t k i).running = (ring s k i).running
  running : ∀ x ∈ (ring t k i).running, x ∈ (ring s k i).running
  runAs : (ring t k i).runAs = some (descOwner s k i)
  heldBack : (ring t k i).heldBack = []
  state : (ring t k i).state = if outstanding (ring t k i) then 2 else 0
  mute : (ring t k i).mute = true
  low : bit (getR t (ringOff k i + 8)) 8 = false
  telem : k = .cmd → ∀ x ∈ t.hif.telem, x.ring ≠ i
  launches : k = .cmd → ∀ die x, x ∈ launchStore t die → die < 4 → x.ring ≠ i

/-- A ring that no mute, or only mutes, have acted on. -/
def Untouched (s x : State) (k : RingKind) (i : Nat) : Prop := ring x k i = ring s k i ∨ MutedIn s x k i

theorem muteRing_own {s x : State} {k : RingKind} {i : Nat} (hi : i < ringCount k) (h : Untouched s x k i)
    (owner : ringOwner x k i = ringOwner s k i) : MutedIn s (muteRing x k i) k i := by
  have before : (ring x k i).fetched = (ring s k i).fetched ∧ (k ≠ .cmd → (ring x k i).running = (ring s k i).running) ∧
      (∀ y ∈ (ring x k i).running, y ∈ (ring s k i).running) ∧ descOwner x k i = descOwner s k i := by
    rcases h with same | muted
    · unfold descOwner
      rw [same, owner]
      exact ⟨rfl, fun _ => rfl, fun _ h => h, rfl⟩
    · refine ⟨muted.fetched, muted.others, muted.running, ?_⟩
      rw [descOwner, muted.runAs]
      rfl
  obtain ⟨fetched, others, running, desc⟩ := before
  obtain ⟨own, _, _, _⟩ := muteRing_ring x k i
  obtain ⟨telem, launches⟩ := muteRing_waits x k i
  have low := muteRing_bit8 x k i (ringCfg_reset x.variant x.boot.strapBl2 hi) (.inl rfl)
  refine ⟨?_, fun other => ?_, fun y hy => ?_, ?_, ?_, ?_, ?_, low, fun cmd y hy => (telem y hy).2 cmd,
    fun cmd die y hy => (launches die y hy).2 cmd⟩ <;> rw [own] at *
  · exact fetched
  · rw [← others other]
    show (ring x k i).running.filter _ = _
    refine List.filter_eq_self.2 fun y _ => ?_
    unfold muteEnds
    cases k
    case cmd => exact absurd rfl other
    all_goals rfl
  · exact running y (List.mem_of_mem_filter hy)
  · exact congrArg some desc
  · rfl
  · rfl
  · rfl

theorem muteRing_other {s x : State} {k k' : RingKind} {i j : Nat} (hi : i < ringCount k)
    (other : ringKey k i ≠ ringKey k' j) (h : MutedIn s x k i) : MutedIn s (muteRing x k' j) k i := by
  obtain ⟨_, kept, _, _⟩ := muteRing_ring x k' j
  obtain ⟨telem, launches⟩ := muteRing_waits x k' j
  have same := kept k i other
  have low := muteRing_bit8 x k' j (ringCfg_reset x.variant x.boot.strapBl2 hi) (.inr h.low)
  refine ⟨?_, ?_, ?_, ?_, ?_, ?_, ?_, low, fun cmd y hy => h.telem cmd y (telem y hy).1,
    fun cmd die y hy => h.launches cmd die y (launches die y hy).1⟩ <;> rw [same]
  · exact h.fetched
  · exact h.others
  · exact h.running
  · exact h.runAs
  · exact h.heldBack
  · exact h.state
  · exact h.mute

/-- One step of `muteRings`. -/
def muteIf (p : Func → Bool) (s : State) (e : RingKind × Nat) : State :=
  if p (ringOwner s e.1 e.2) then muteRing s e.1 e.2 else s

theorem forEach_cons {α : Type} (a : α) (l : List α) (s : State) (f : State → α → State) :
    forEach (a :: l) s f = forEach l (f s a) f := rfl

/-- Mutes of a list of rings by their owners: the owners stand, a ring of such an owner is muted, and every ring is
untouched or muted. -/
theorem forEach_mute {s x : State} {p : Func → Bool} {k : RingKind} {i : Nat} (hi : i < ringCount k)
    (l : List (RingKind × Nat)) (small : ∀ e ∈ l, e.2 < 256) (owner : ∀ k j, ringOwner x k j = ringOwner s k j)
    (h : Untouched s x k i) : Untouched s (forEach l x (muteIf p)) k i ∧
      (p (ringOwner s k i) = true → (k, i) ∈ l ∨ MutedIn s x k i → MutedIn s (forEach l x (muteIf p)) k i) := by
  induction l generalizing x with
  | nil => exact ⟨h, fun _ there => there.resolve_left List.not_mem_nil⟩
  | cons e l ih =>
    have rest := fun e he => small e (List.mem_cons_of_mem _ he)
    have ek := small e List.mem_cons_self
    have ik : i < 256 := lt_of_lt_of_le hi (ringCount_le k)
    rw [forEach_cons]
    by_cases mutes : p (ringOwner x e.1 e.2) = true
    · rw [show muteIf p x e = muteRing x e.1 e.2 from if_pos mutes]
      have owner' (k : RingKind) (j : Nat) : ringOwner (muteRing x e.1 e.2) k j = ringOwner s k j :=
        (muteRing_owner _ _ _ _ _).trans (owner k j)
      by_cases own : ringKey k i = ringKey e.1 e.2
      · obtain ⟨rfl, rfl⟩ := (ringKey_inj ik ek).1 own
        have muted := muteRing_own hi h (owner e.1 e.2)
        obtain ⟨touched, done⟩ := ih rest owner' (.inr muted)
        exact ⟨touched, fun acts _ => done acts (.inr muted)⟩
      · have touched : Untouched s (muteRing x e.1 e.2) k i :=
          h.imp (fun same => ((muteRing_ring x e.1 e.2).2.1 k i own).trans same) (muteRing_other hi own)
        obtain ⟨touched, done⟩ := ih rest owner' touched
        refine ⟨touched, fun acts there => done acts ?_⟩
        refine there.imp (fun there => (List.mem_cons.1 there).resolve_left fun same => own ?_) (muteRing_other hi own)
        rw [← same]
    · rw [show muteIf p x e = x from if_neg mutes]
      obtain ⟨touched, done⟩ := ih rest owner h
      refine ⟨touched, fun acts there => done acts ?_⟩
      refine there.imp_left fun there => (List.mem_cons.1 there).resolve_left fun same => mutes ?_
      rw [← same]
      exact (congrArg p (owner k i)).trans acts

theorem muteRings_eq (s : State) (p : Func → Bool) :
    muteRings s p = forEach (s.hif.rings.map fun e => keyRing e.1) s (muteIf p) := rfl

theorem keyRing_ringKey {k : RingKind} {i : Nat} (hi : i < 256) : keyRing (ringKey k i) = (k, i) := by
  have index : ringKey k i % 256 = i := by
    unfold ringKey
    omega
  have kind : ringKey k i / 256 = kindNo k := by
    unfold ringKey
    omega
  unfold keyRing
  rw [index, kind]
  cases k <;> rfl

/-- A ring whose owner a function reset names is muted, or has never been set up. -/
theorem muteRings_ring {s : State} {p : Func → Bool} {k : RingKind} {i : Nat} (hi : i < ringCount k)
    (acts : p (ringOwner s k i) = true) :
    MutedIn s (muteRings s p) k i ∨ (ring s k i = {} ∧ ring (muteRings s p) k i = {}) := by
  have ik : i < 256 := lt_of_lt_of_le hi (ringCount_le k)
  obtain ⟨touched, done⟩ := forEach_mute (s := s) (x := s) (p := p) hi (s.hif.rings.map fun e => keyRing e.1)
    (fun e he => by
      obtain ⟨⟨κ, r⟩, _, rfl⟩ := List.mem_map.1 he
      exact Nat.mod_lt _ (by decide)) (fun _ _ => rfl) (.inl rfl)
  rw [← muteRings_eq] at touched done
  rcases tget_eq_or_mem ({} : Ring) s.hif.rings (ringKey k i) with none | there
  · rcases touched with same | muted
    · exact .inr ⟨none, same.trans none⟩
    · exact .inl muted
  · exact .inl (done acts (.inl (List.mem_map.2 ⟨_, there, keyRing_ringKey ik⟩)))

theorem muteRings_hif (s : State) (p : Func → Bool) : (muteRings s p).hif.vfs = s.hif.vfs ∧
    (muteRings s p).hif.epoch = s.hif.epoch := by
  have step (y : State) (k : RingKind) (i : Nat) : (muteRing y k i).hif.vfs = y.hif.vfs ∧
      (muteRing y k i).hif.epoch = y.hif.epoch := by
    refine ⟨(muteRing_ring y k i).2.2.2, ?_⟩
    unfold muteRing
    cases k <;> dsimp only
    case cmd => rw [(dropLaunches_fr _ i).hif rfl]; rfl
    all_goals rfl
  rw [muteRings_eq]
  refine ⟨forEach_keeps (·.hif.vfs) _ (fun y e => ?_) _ _, forEach_keeps (·.hif.epoch) _ (fun y e => ?_) _ _⟩ <;>
    unfold muteIf <;> split
  · exact (step y e.1 e.2).1
  · rfl
  · exact (step y e.1 e.2).2
  · rfl

/-- What mutes have left of a ring stands in every state that holds the ring, its ENABLE and the stores as they are. -/
theorem MutedIn.ringMuted {s x t : State} {k : RingKind} {i : Nat} (h : MutedIn s x k i)
    (same : ring t k i = ring x k i) (cfg : getR t (ringOff k i + 8) = getR x (ringOff k i + 8))
    (telem : t.hif.telem = x.hif.telem) (plan : t.plan = x.plan) : RingMuted s t k i := by
  unfold RingMuted descOwner launchStore
  rw [same, cfg, telem, plan]
  refine ⟨h.fetched, h.heldBack, h.others, h.running, h.state, fun _ => ⟨h.mute, h.low, ?_, fun cmd =>
    ⟨h.telem cmd, fun die x hx low => h.launches cmd die x hx low⟩⟩⟩
  rw [h.runAs]
  rfl

theorem ringMuted_unused {s t : State} {k : RingKind} {i : Nat} (before : ring s k i = {}) (after : ring t k i = {}) :
    RingMuted s t k i := by
  unfold RingMuted
  rw [before, after]
  exact ⟨rfl, rfl, fun _ => rfl, fun _ h => h, rfl, fun h => absurd rfl h⟩

/-- The reset of the PF's functions: VFs gone, EPOCH advanced, every ring but the cores' muted (R356, R365). -/
theorem hostReset_spec (s : State) : (hostReset s).hif.epoch = nextEpoch s.hif.epoch ∧ (hostReset s).hif.vfs = [] ∧
    ∀ k i, i < ringCount k → ringOwner s k i ≠ .core → RingMuted s (hostReset s) k i := by
  refine ⟨congrArg nextEpoch (muteRings_hif s _).2, rfl, fun k i hi owner => ?_⟩
  rcases muteRings_ring (p := fun f => f != .core) hi (bne_iff_ne.2 owner) with muted | ⟨before, after⟩
  · exact muted.ringMuted (t := hostReset s) rfl rfl rfl rfl
  · exact ringMuted_unused (t := hostReset s) before after

theorem vfEnable_live {s : State} {n : Nat} (off : s.hif.vfs.contains n = false) : vfEnable n s =
    { (if ringLive s .tdma n then muteRing s .tdma n else s) with
      hif := { (if ringLive s .tdma n then muteRing s .tdma n else s).hif with
        vfs := n :: (if ringLive s .tdma n then muteRing s .tdma n else s).hif.vfs } } := by
  unfold vfEnable
  rw [off]
  rfl

/-- A table-DMA ring that was live as its VF came is muted (R342). -/
theorem vfEnable_ring {s : State} {n : Nat} (off : s.hif.vfs.contains n = false) (live : ringLive s .tdma n = true) :
    ring (vfEnable n s) .tdma n = mutedRing (ringOwner s .tdma n) [] (ring s .tdma n) := by
  rw [vfEnable_live off, live]
  exact (muteRing_ring s .tdma n).1

/-- A muted ring with nothing to run reads DISABLED. -/
theorem mutedRing_idle (f : Func) {r : Ring} (none : r.fetched = []) (idle : r.running = []) :
    (mutedRing f [] r).state = 0 := by
  unfold mutedRing outstanding
  dsimp only
  rw [none, idle]
  rfl

theorem remNat_contains (l : List Nat) (n m : Nat) : (remNat l n).contains m = (l.contains m && decide (m ≠ n)) := by
  rw [Bool.eq_iff_iff]
  simp [remNat, List.mem_filter]

theorem vfFlr_hif (n : Nat) (s : State) : (vfFlr n s).hif.vfs = s.hif.vfs ∧ (vfFlr n s).hif.epoch = s.hif.epoch := by
  unfold vfFlr
  split
  · exact muteRings_hif s _
  · exact ⟨rfl, rfl⟩

/-- Settles O21: the rings are `muteRings_ring`, the reset of the PF `hostReset_spec`, a new owner `muteRing_ring`. -/
theorem functionResetsDisableRings : Obligations.FunctionResetsDisableRings := by
  unfold Obligations.FunctionResetsDisableRings
  refine fun s => ⟨fun n on => ?_, fun n off => ?_, fun n => ?_, fun c hc => ?_⟩
  · have e : vfFlr n s = muteRings s fun f => f == .vf n := if_pos on
    refine ⟨_, rfl, (vfFlr_hif n s).1, (vfFlr_fr n s).tbl rfl, (vfFlr_fr n s).coll rfl, (vfFlr_hif n s).2,
      fun k i hi owner => ?_⟩
    rw [e]
    rcases muteRings_ring (p := fun f => f == .vf n) hi (beq_iff_eq.2 owner) with muted | ⟨before, after⟩
    · exact muted.ringMuted rfl rfl rfl rfl
    · exact ringMuted_unused before after
  · have fr := vfEnable_fr n s
    refine ⟨_, congrArg Host.Outcome.next (vfEnable_live off), ?_, if_pos ?_, ?_, fun dead => ?_, fun live => ?_⟩
    · split
      · exact congrArg (n :: ·) (muteRing_ring s .tdma n).2.2.2
      · rfl
    · simp
    · rw [← vfEnable_live off]
      exact fr.tbl rfl
    · rw [dead]
      rfl
    · rw [← vfEnable_live off]
      have all (l : List Nat) : (l.filter fun t => !([] : List Nat).contains t) = l := List.filter_eq_self.2 fun _ _ => rfl
      have run : (mutedRing (ringOwner s .tdma n) [] (ring s .tdma n)).running = (ring s .tdma n).running := all _
      unfold descOwner
      rw [vfEnable_ring off live, run]
      exact ⟨rfl, rfl, rfl, rfl, mutedRing_idle _⟩
  · refine ⟨_, rfl, ?_, fun m other => ?_, ?_, (vfDisable_fr n s).tbl rfl⟩
    · unfold vfDisable
      dsimp only
      rw [remNat_contains, decide_eq_false (not_not.2 rfl), Bool.and_false]
    · unfold vfDisable
      dsimp only
      rw [remNat_contains, decide_eq_true other, Bool.and_true, (vfFlr_hif n s).1]
    · have gone : (vfDisable n s).hif.vfs.contains n = false := by
        unfold vfDisable
        dsimp only
        rw [remNat_contains, decide_eq_false (not_not.2 rfl), Bool.and_false]
      have owner : ringOwner (vfDisable n s) .tdma n = mgr (vfDisable n s) := if_neg (by rw [gone]; decide)
      rw [owner]
      unfold mgr selfHosted
      rw [(vfDisable_fr n s).boot rfl]
  · obtain ⟨epoch, vfs, rings⟩ := hostReset_spec s
    have fr := hostReset_fr s
    have e : exec c s = .next (hostReset s) := by rcases hc with rfl | rfl <;> rfl
    exact ⟨_, e, epoch, vfs, fr.tbl rfl, fr.coll rfl, fr.mem rfl, fr.lnk rfl, fr.tim rfl, rings⟩

end Sys2Proof.Machine

/-! ### The resets of the module and of the host interface: R430 to R432, R447 -/

namespace Sys2Proof.Machine

set_option Elab.async false

theorem coldReset_spec (s : State) : (∀ off, getR (coldReset s) off = regReset s.variant s.boot.strapBl2 off) ∧
    (coldReset s).boot.lastCause = 1 ∧ (coldReset s).boot.warmCount = s.boot.warmCount ∧
    (coldReset s).hif.epoch = nextEpoch s.hif.epoch ∧ (coldReset s).pwr.energy = s.pwr.energy ∧
    (coldReset s).boot.store = none ∧ (coldReset s).boot.meas = [] :=
  ⟨fun _ => rfl, rfl, rfl, rfl, restartPower_energy _, rfl, rfl⟩

/-- A register's reset value is what a store of it leaves. -/
theorem getR_putR_reset (s : State) (off : Nat) :
    getR (putR s off (regReset s.variant s.boot.strapBl2 off)) off = regReset s.variant s.boot.strapBl2 off := by
  have clip (i : RegInfo) (h : i.reset < 2 ^ 64) : regClip i (BitVec.ofNat 64 i.reset).toNat = i.reset := by
    rw [BitVec.toNat_ofNat, Nat.mod_eq_of_lt h]
    apply Nat.eq_of_testBit_eq
    intro k
    rw [regClip_testBit, ones_testBit]
    by_cases low : k < 64
    · cases i.reset.testBit k <;> cases (regBits i).testBit k <;> simp [low]
    · rw [Nat.testBit_lt_two_pow (lt_of_lt_of_le h (Nat.pow_le_pow_right (by decide) (Nat.not_lt.1 low)))]
      rfl
  rw [getR_putR]
  exact congrArg _ (clip _ (regInfo_reset_lt ..))

/-- The registers of a list return to their reset values. -/
theorem forEach_putR_reset (l : List Nat) (s : State) (off : Nat) :
    getR (forEach l s fun s o => putR s o (regReset s.variant s.boot.strapBl2 o)) off =
      if off ∈ l then regReset s.variant s.boot.strapBl2 off else getR s off := by
  induction l generalizing s with
  | nil => rfl
  | cons o l ih =>
    rw [forEach_cons, ih]
    by_cases there : off ∈ l
    · rw [if_pos there, if_pos (List.mem_cons_of_mem _ there)]
      rfl
    · rw [if_neg there]
      by_cases own : off = o
      · rw [if_pos (by rw [own]; exact List.mem_cons_self), own]
        exact getR_putR_reset s o
      · rw [if_neg fun h => there ((List.mem_cons.1 h).resolve_left own)]
        exact getR_putR_other _ _ _ _ own

/-- The registers of the host interface block that hold anything (R366). -/
def hifKeys (s : State) : List Nat :=
  (s.regs.map (·.1)).filter fun o => decide (0x400000 ≤ o) && decide (o < 0x800000)

/-- The registers of the host interface block return to their reset values. -/
theorem hifRegs_reset {s : State} {off : Nat} (low : 0x400000 ≤ off) (high : off < 0x800000) :
    getR (forEach (hifKeys s) s fun s o => putR s o (regReset s.variant s.boot.strapBl2 o)) off =
      regReset s.variant s.boot.strapBl2 off := by
  rw [forEach_putR_reset]
  split
  · rfl
  · next absent =>
    rcases tget_eq_or_mem (regReset s.variant s.boot.strapBl2 off) s.regs off with none | there
    · exact none
    · refine absurd (List.mem_filter.2 ⟨List.mem_map.2 ⟨_, there, rfl⟩, ?_⟩) absent
      rw [decide_eq_true low, decide_eq_true high]
      rfl

theorem hostifReset_self {s : State} (own : selfHosted s = false) : hostifReset s =
    { (forEach (hifKeys (hostReset s)) (hostReset s) fun s o => putR s o (regReset s.variant s.boot.strapBl2 o)) with
      hif := { (forEach (hifKeys (hostReset s)) (hostReset s) fun s o =>
          putR s o (regReset s.variant s.boot.strapBl2 o)).hif with
        msix := [], pba := [], mboxBusy := false, mboxDone := false, mboxStatus := 0, mboxResp := [] } } := by
  have own' : selfHosted (hostReset s) = false := by
    unfold selfHosted at own ⊢
    rwa [(hostReset_fr s).boot rfl]
  exact if_neg (by rw [own']; decide)

theorem hostifReset_hif (s : State) : (hostifReset s).hif.epoch = nextEpoch s.hif.epoch ∧ (hostifReset s).hif.vfs = [] := by
  obtain ⟨epoch, vfs, _⟩ := hostReset_spec s
  have regs (l : List Nat) (x : State) :
      (forEach l x fun s o => putR s o (regReset s.variant s.boot.strapBl2 o)).hif = x.hif := by
    refine forEach_keeps (·.hif) _ ?_ l x
    exact fun _ _ => rfl
  unfold hostifReset
  dsimp only
  split
  · exact ⟨epoch, vfs⟩
  · exact ⟨(congrArg Hif.epoch (regs _ _)).trans epoch, (congrArg Hif.vfs (regs _ _)).trans vfs⟩

/-- Settles O8: the module's resets are `warmReset_spec` and `coldReset_spec`, the host interface's `hostReset_spec` with
`hifRegs_reset`. -/
theorem resetsClearAndKeep : Obligations.ResetsClearAndKeep := by
  unfold Obligations.ResetsClearAndKeep
  refine fun s => ⟨fun f v wanted => ?_, fun f v wanted => ?_, fun f v none => ⟨?_, ?_⟩, fun f v unkeyed => ?_,
    fun k lost => ?_, fun live released on => ?_⟩
  · exact ⟨_, congrArg Host.Outcome.next (if_pos wanted), warmReset_spec s 2⟩
  · obtain ⟨regs, cause, count, epoch, energy, store, meas⟩ := coldReset_spec s
    exact ⟨_, congrArg Host.Outcome.next (if_pos wanted), regs, cause, count, epoch, energy, store, meas, rfl, rfl, rfl,
      rfl, rfl, rfl, rfl⟩
  · exact congrArg Host.Outcome.next (if_neg (by rw [none]; decide))
  · exact congrArg Host.Outcome.next (if_neg (by rw [none]; decide))
  · unfold resetWanted
    rcases unkeyed with key | both
    · rw [if_pos (by simp [key])]
    · split
      · rfl
      · rw [both]
        cases bit v 0 <;> rfl
  · refine ⟨_, congrArg Host.Outcome.next (if_pos lost), ?_⟩
    obtain ⟨a, ha⟩ := Option.isSome_iff_exists.1 lost
    rw [ha]
    exact warmReset_spec (await s a (10 * msT)) 7
  · have e : perstAssert s = hostifReset { s with hlt := { s.hlt with perstN := true } } :=
      (if_neg (by rw [live, released]; decide)).trans (if_neg on)
    have fr := hostifReset_fr { s with hlt := { s.hlt with perstN := true } }
    obtain ⟨epoch, vfs⟩ := hostifReset_hif { s with hlt := { s.hlt with perstN := true } }
    refine ⟨_, congrArg Host.Outcome.next e, by rw [fr.hlt rfl], epoch, vfs, fr.tbl rfl, fr.coll rfl, fr.mem rfl,
      fr.tim rfl, fr.lnk rfl, fr.sw rfl, fr.opt rfl, fr.cnt rfl, fun own => ?_⟩
    have variant : (hostReset { s with hlt := { s.hlt with perstN := true } }).variant = s.variant := (hostReset_fr _).variant
    have boot : (hostReset { s with hlt := { s.hlt with perstN := true } }).boot = s.boot := (hostReset_fr _).boot rfl
    rw [hostifReset_self (s := { s with hlt := { s.hlt with perstN := true } }) own]
    refine ⟨rfl, rfl, rfl, fun off low high => ?_⟩
    refine (hifRegs_reset low high).trans ?_
    rw [variant, boot]

end Sys2Proof.Machine

/-! ### Descriptors, their buffers and the host's answers: R330, R333, R338, R356 -/

namespace Sys2Proof.Machine

set_option Elab.async false

/-! #### What a ring's queue does not touch -/

/-- States that differ in what was sent and in the queues of the rings: each ring keeps the function it runs as. -/
def QueuesOnly (s t : State) : Prop :=
  ∃ sent rings, t = { s with out := sent, hif := { s.hif with rings := rings } } ∧
    ∀ k i, (ring t k i).runAs = (ring s k i).runAs

theorem QueuesOnly.trans {s x t : State} (h : QueuesOnly s x) (g : QueuesOnly x t) : QueuesOnly s t := by
  obtain ⟨o, r, rfl, same⟩ := h
  obtain ⟨o', r', rfl, same'⟩ := g
  exact ⟨o', r', rfl, fun k i => (same' k i).trans (same k i)⟩

/-- A change of one ring that keeps the function it runs as. -/
theorem QueuesOnly.setRing (s : State) (k : RingKind) (i : Nat) {r : Ring} (h : r.runAs = (ring s k i).runAs) :
    QueuesOnly s (setRing s k i r) := by
  refine ⟨s.out, tset {} s.hif.rings (ringKey k i) r, rfl, fun k' j => ?_⟩
  by_cases same : ringKey k' j = ringKey k i
  · unfold ring Machine.setRing at *
    rw [same]
    dsimp only
    rw [tget_tset_same, h]
  · rw [ring_setRing_other _ _ same]

theorem QueuesOnly.emitAll (s : State) (l : List Output) : QueuesOnly s (emitAll s l) :=
  ⟨s.out ++ l, s.hif.rings, rfl, fun _ _ => rfl⟩

theorem popDesc_queues (s : State) (k : RingKind) (i : Nat) (d : List Word) : QueuesOnly s (popDesc s k i d) :=
  QueuesOnly.setRing s k i rfl

namespace QueuesOnly

variable {s t : State} (h : QueuesOnly s t)
include h

theorem regsAlike : RegsAlike s t := by
  obtain ⟨o, r, rfl, _⟩ := h
  exact ⟨rfl, rfl, rfl, rfl⟩

theorem descOwner (k : RingKind) (i : Nat) : Machine.descOwner t k i = Machine.descOwner s k i := by
  have owner := h.regsAlike.owner k i
  obtain ⟨o, r, rfl, same⟩ := h
  unfold Machine.descOwner
  rw [same, owner]

theorem reachable (k : RingKind) (i addr n : Nat) : Machine.reachable t k i addr n = Machine.reachable s k i addr n := by
  unfold Machine.reachable
  rw [h.descOwner]

theorem hostIn (k : RingKind) (i addr n : Nat) (a : Option HostAccess) :
    Machine.hostIn t k i addr n a = Machine.hostIn s k i addr n a := by
  unfold Machine.hostIn
  rw [h.reachable]

theorem ringVf (k : RingKind) (i : Nat) : Machine.ringVf t k i = Machine.ringVf s k i := by
  unfold Machine.ringVf
  rw [h.descOwner]

theorem foreignPart (k : RingKind) (i part : Nat) :
    Machine.foreignPart t k i part = Machine.foreignPart s k i part := by
  unfold Machine.foreignPart
  rw [h.ringVf]

theorem mwCheck (i : Nat) (write : Bool) (d : List Word) : Machine.mwCheck t i write d = Machine.mwCheck s i write d := by
  have foreign := h.foreignPart .cmd i (dPart d)
  unfold Machine.mwCheck
  rw [foreign]
  obtain ⟨o, r, rfl, _⟩ := h
  rfl

end QueuesOnly

/-! #### The host's answer for a buffer -/

/-- The reads that a descriptor's buffer takes. -/
def bufferReads (s : State) (k : RingKind) (i : Nat) (d : List Word) : List Output :=
  match bufferRead k d with
  | some (addr, n) => dmaReads (descOwner s k i) addr (reachable s k i addr n)
  | none => []

/-- The host's answer waits with the first descriptor. -/
def stagedAt (s : State) (k : RingKind) (i : Nat) (a : HostAccess) (sent : List Output) : State :=
  modRing (emitAll s sent) k i fun r => { r with staged := some a }

theorem emitAll_nil (s : State) : emitAll s [] = s := by
  unfold emitAll
  rw [List.append_nil]

theorem hostBufferAccess_eq {s : State} {k : RingKind} {i : Nat} {d : List Word} (h : firstDesc s k i = some d)
    (a : HostAccess) : hostBufferAccess k i a s =
      if a.failAt.isSome then runBuffered k i (stagedAt s k i a (bufferReads s k i d))
      else stagedAt s k i a (bufferReads s k i d) := by
  unfold hostBufferAccess bufferReads
  rw [h]
  dsimp only
  cases bufferRead k d with
  | none =>
    dsimp only
    unfold stagedAt
    rw [emitAll_nil]
  | some b => rfl

theorem stagedAt_ring (s : State) (k : RingKind) (i : Nat) (a : HostAccess) (sent : List Output) :
    ring (stagedAt s k i a sent) k i = { ring s k i with staged := some a } := ring_modRing ..

theorem stagedAt_ring_other (s : State) {k k' : RingKind} {i j : Nat} (a : HostAccess) (sent : List Output)
    (h : ringKey k' j ≠ ringKey k i) : ring (stagedAt s k i a sent) k' j = ring s k' j :=
  ring_modRing_other (emitAll s sent) _ h

theorem stagedAt_queues (s : State) (k : RingKind) (i : Nat) (a : HostAccess) (sent : List Output) :
    QueuesOnly s (stagedAt s k i a sent) :=
  (QueuesOnly.emitAll s sent).trans (QueuesOnly.setRing _ k i rfl)

theorem stagedAt_cq {s : State} {k : RingKind} {i : Nat} {d : List Word} {op : Nat} (h : DescReady s k i d op)
    (a : HostAccess) (sent : List Output) :
    ring (stagedAt s k i a sent) .cq (cqOf s k i) = ring s .cq (cqOf s k i) := by
  obtain ⟨_, _, _, hi, hk, _⟩ := h
  exact stagedAt_ring_other s a sent (cqOf_apart (Producer.ne_cq hk) (lt_of_lt_of_le hi (ringCount_le k)) s i k)

/-- The descriptor may still start once the host has answered. -/
theorem DescReady.stagedAt {s : State} {k : RingKind} {i : Nat} {d : List Word} {op : Nat} (h : DescReady s k i d op)
    (a : HostAccess) (sent : List Output) : DescReady (stagedAt s k i a sent) k i d op := by
  have alike := (stagedAt_queues s k i a sent).regsAlike
  have cq := stagedAt_cq h a sent
  have own := stagedAt_ring s k i a sent
  obtain ⟨waits, isOp, starts, hi, hk, mute, gen, held, on, room⟩ := h
  refine ⟨by rw [own]; exact waits, isOp, ?_, hi, hk, by rw [own, mute], ?_, by rw [own, held], ?_, ?_⟩
  · rw [← starts]
    unfold mayStart
    rw [own]
    rfl
  · unfold runKey at gen ⊢
    rw [own]
    exact gen
  · unfold ringOn at on ⊢
    rw [alike.cqOf, cq, on]
  · unfold ringFull at room ⊢
    rw [alike.cqOf, alike.size, cq, room]

/-- What completes after the host's answer has completed. -/
theorem Completed.of_stagedAt {s t : State} {k : RingKind} {i : Nat} {d : List Word} {op st detail count : Nat}
    {a : HostAccess} {sent : List Output} (h : DescReady s k i d op)
    (done : Completed (stagedAt s k i a sent) t k i d st detail count) : Completed s t k i d st detail count := by
  have alike := (stagedAt_queues s k i a sent).regsAlike
  obtain ⟨none, started, tail, entry⟩ := done
  rw [stagedAt_ring] at started
  refine ⟨none, started, ?_, ?_⟩
  · rw [alike.cqOf, stagedAt_cq h] at tail
    exact tail
  · rw [alike.cqOf, alike.owner, alike.base, alike.size, alike.phase, stagedAt_cq h, stagedAt_ring] at entry
    exact entry

theorem runBuffered_memWrite {s : State} {i : Nat} {d : List Word} (h : firstDesc s .cmd i = some d)
    (op : dOp d = 0x40) : runBuffered .cmd i s = memWrite i s := by
  unfold runBuffered
  rw [h]
  dsimp only
  rw [op]
  rfl

theorem hostIn_failed {s : State} {k : RingKind} {i addr n : Nat} {a : HostAccess} {w : Word}
    (some_ : reachable s k i addr n ≠ 0) (fails : a.failAt = some w) :
    hostIn s k i addr n (some a) =
      some (a.data.take (min (reachable s k i addr n) (w.toNat - addr)), some w.toNat) := by
  unfold hostIn
  dsimp only
  rw [if_neg fun h => some_ h.1, fails]

/-! #### MEM_WRITE -/

theorem DescReady.first {s : State} {k : RingKind} {i : Nat} {d : List Word} {op : Nat} (h : DescReady s k i d op) :
    firstDesc s k i = some d := by
  unfold firstDesc
  rw [h.1, List.head?_cons]

/-- The lines of a MEM_WRITE go to memory, and it completes. -/
theorem memWrite_given {s : State} {i : Nat} {d : List Word} {v : Word × Word} {b : List Byte} {fail : Option Nat}
    (h : DescReady s .cmd i d 0x40) (ok : mwCheck s i true d = .ok v)
    (given : hostIn s .cmd i (d1Addr d) (mwLen d) (ring s .cmd i).staged = some (b, fail)) :
    memWrite i s = sweepBad (complete (writeLines (rgBase v) (b.length / 64) (popDesc s .cmd i d) (mwOff d / 64) b)
      .cmd i (runKey s .cmd i d) (if fail.isSome then stDMA_ERROR else stOK) (fail.getD 0) 0) .cmd i := by
  have popped := popDesc_queues s .cmd i d
  refine h.run (opMemWrite i) ?_
  unfold opMemWrite
  rw [popped.mwCheck, ok]
  dsimp only
  rw [popped.hostIn, given]
  cases fail <;> rfl

theorem memWrite_completed {s : State} {i : Nat} {d : List Word} {v : Word × Word} {b : List Byte} {fail : Option Nat}
    (h : DescReady s .cmd i d 0x40) (ok : mwCheck s i true d = .ok v)
    (given : hostIn s .cmd i (d1Addr d) (mwLen d) (ring s .cmd i).staged = some (b, fail)) :
    Completed s (memWrite i s) .cmd i d (if fail.isSome then stDMA_ERROR else stOK) (fail.getD 0) 0 := by
  rw [memWrite_given h ok given]
  exact h.completed (.of (writeLines_fr ..)) _ _ _

/-! #### Descriptor fetch -/

/-- A descriptor that its ring permits is not swept away. -/
theorem sweepBad_of_known {s : State} {k : RingKind} {i : Nat}
    (known : ∀ d, firstDesc s k i = some d → opKnown k i (dOp d) = true) : sweepBad s k i = s := by
  unfold sweepBad
  cases n : (ring s k i).fetched.length with
  | zero => rfl
  | succ n =>
    unfold sweepLoop
    split
    · rfl
    · next d first => exact if_pos (by rw [known d first]; rfl)

/-- A ring once a read has taken its descriptors. -/
def fetchedRing (s : State) (k : RingKind) (i : Nat) (w : List Word) : Ring :=
  { ring s k i with
    head := ((ring s k i).head + fetchCount s k i) % 2 ^ 24
    fetched := (ring s k i).fetched ++ fetchedWords s.hif.fetchSeq w (fetchCount s k i) }

/-- The state in which a read of descriptors has been taken. -/
def fetchedState (s : State) (k : RingKind) (i : Nat) (w : List Word) : State :=
  let addr := ringBase s k i + 64 * ((ring s k i).head % ringSize s k i)
  let x := setRing (emitAll s (dmaReads (ringOwner s k i) addr (64 * fetchCount s k i))) k i (fetchedRing s k i w)
  let y := bumpN x (cRing (ringCnt k i) 0) (fetchCount s k i)
  { y with hif := { y.hif with fetchSeq := y.hif.fetchSeq + fetchCount s k i } }

theorem ring_bumpN_fetchSeq (s : State) (c n m : Nat) (k : RingKind) (i : Nat) :
    ring { bumpN s c n with hif := { (bumpN s c n).hif with fetchSeq := m } } k i = ring s k i := rfl

theorem fetchedState_ring (s : State) (k : RingKind) (i : Nat) (w : List Word) :
    ring (fetchedState s k i w) k i = fetchedRing s k i w := by
  unfold fetchedState
  dsimp only
  rw [ring_bumpN_fetchSeq, ring_setRing]

theorem descriptorFetch_given {s : State} {k : RingKind} {i : Nat} (runs : (ring s k i).state = 1)
    (some_ : fetchCount s k i ≠ 0)
    (whole : reachable s k i (ringBase s k i + 64 * ((ring s k i).head % ringSize s k i)) (64 * fetchCount s k i) =
      64 * fetchCount s k i) (w : List Word) :
    descriptorFetch k i (some w) s = sweepBad (fetchedState s k i w) k i := by
  unfold descriptorFetch
  dsimp only
  rw [if_neg (by rw [runs]; simp [some_]), if_neg (by rw [whole]; exact lt_irrefl _)]
  rfl

theorem descriptorFetch_failed {s : State} {k : RingKind} {i : Nat} {w : Option (List Word)}
    (runs : (ring s k i).state = 1) (some_ : fetchCount s k i ≠ 0)
    (fails : w = none ∨ reachable s k i (ringBase s k i + 64 * ((ring s k i).head % ringSize s k i))
      (64 * fetchCount s k i) < 64 * fetchCount s k i) :
    ∃ l, descriptorFetch k i w s = faultRing (emitAll s l) k i 2 := by
  unfold descriptorFetch
  dsimp only
  rw [if_neg (by rw [runs]; simp [some_])]
  split
  · exact ⟨[], by rw [emitAll_nil]⟩
  · next whole =>
    obtain rfl : w = none := fails.resolve_right whole
    exact ⟨_, rfl⟩

/-- Settles O19: a read is `descriptorFetch_given` or `descriptorFetch_failed`, an answer `hostBufferAccess_eq`. -/
theorem descriptorsAndBuffersFetched : Obligations.DescriptorsAndBuffersFetched := by
  unfold Obligations.DescriptorsAndBuffersFetched
  refine fun s k i hi hk => ⟨fun w runs some_ whole known => ?_, fun w runs some_ fails => ?_, fun a d first sound => ?_,
    fun a d v w hcmd ready ok some_ fails => ?_⟩
  · have own := fetchedState_ring s k i w
    have e : descriptorFetch k i (some w) s = fetchedState s k i w :=
      (descriptorFetch_given runs some_ whole w).trans (sweepBad_of_known fun d first => by
        unfold firstDesc at first
        rw [own] at first
        exact known d first)
    refine ⟨_, congrArg Host.Outcome.next e, own, ?_, rfl, ?_⟩
    · refine (cntGet_bumpN s _ _ _).trans (if_pos rfl)
    · rw [← e]
      exact (descriptorFetch_fr k i (some w) s).onlyChanges _
  · obtain ⟨l, e⟩ := descriptorFetch_failed runs some_ fails
    exact ⟨_, congrArg Host.Outcome.next e, faultRing_spec (emitAll s l) 2 (Producer.ne_eq hk)
      (lt_of_lt_of_le hi (ringCount_le k))⟩
  · have e : hostBufferAccess k i a s = stagedAt s k i a (bufferReads s k i d) := by
      rw [hostBufferAccess_eq first, sound]
      rfl
    refine ⟨_, congrArg Host.Outcome.next e, stagedAt_ring .., rfl, ?_⟩
    exact (Fr.step (modRing_fr _ _ _ _) (Fr.mono (emitAll_fr s _)) : Fr 16388 s _).onlyChanges _
  · subst hcmd
    have ready' := ready.stagedAt a (bufferReads s .cmd i d)
    have queues := stagedAt_queues s .cmd i a (bufferReads s .cmd i d)
    have e : hostBufferAccess .cmd i a s = memWrite i (stagedAt s .cmd i a (bufferReads s .cmd i d)) := by
      rw [hostBufferAccess_eq ready.first, fails]
      exact runBuffered_memWrite ready'.first ready.2.1
    refine ⟨_, congrArg Host.Outcome.next e, Completed.of_stagedAt (a := a) (sent := bufferReads s .cmd i d) ready ?_⟩
    have given := hostIn_failed some_ fails
    refine memWrite_completed ready' ((queues.mwCheck ..).trans ok) (fail := some w.toNat) (b := a.data.take
      (min (reachable s .cmd i (d1Addr d) (mwLen d)) (w.toNat - d1Addr d))) ?_
    rw [queues.hostIn, stagedAt_ring]
    exact given

end Sys2Proof.Machine

/-! ### Command descriptors: R249, R250, R344, R345, R348 -/

namespace Sys2Proof.Machine

set_option Elab.async false

/-! #### A frame on its way into the riser leaves what a completion reads -/

theorem deepFullNote_alike (s : State) (d : Nat) : ComplAlike s (deepFullNote s d) := by
  unfold deepFullNote
  split
  · exact .refl s
  · have noted (x : Sw) : ComplAlike s { s with sw := x } := .of_eq rfl rfl rfl rfl
    exact (noted _).trans (raiseEvent_alike _ _ _ _ _)

theorem putFrame_alike (s : State) (q : QFrame) : ComplAlike s (putFrame s q) := by
  unfold putFrame
  split
  · exact .of (pushFrame_fr _ _)
  split
  · exact (ComplAlike.of (deepMove_fr _ _)).trans <| (ComplAlike.of (freeCredit_fr _ _ _ _)).trans <|
      (ComplAlike.of (bump_fr _ _)).trans (.of (pushFrame_fr _ _))
  · exact (ComplAlike.of (freeCredit_fr _ _ _ _)).trans (.of (pushFrame_fr _ _))
  · exact (ComplAlike.of (freeCredit_fr _ _ _ _)).trans (.of (bump_fr _ _))
  · exact (ComplAlike.ite (deepFullNote_alike _ _) (.refl s)).trans (.of (pushFrame_fr _ _))

theorem placeOn_alike (s : State) (q : QFrame) (l : Nat) : ComplAlike s (placeOn s q l).1 := by
  unfold placeOn
  split
  · exact .ite (.of (bump_fr _ _)) (.refl s)
  · exact (ComplAlike.of (markCm_fr s l q.f)).trans (putFrame_alike _ _)

theorem deliverCore_alike (s : State) (q : QFrame) : ComplAlike s (deliverCore s q).1 := by
  unfold deliverCore
  split
  · exact placeOn_alike _ _ _
  split
  · exact .ite (.of (bump_fr _ _)) (.refl s)
  split
  · exact raiseEvent_alike _ _ _ _ _
  split
  · exact (ComplAlike.of (bump_fr _ _)).trans (placeOn_alike _ _ _)
  · exact raiseEvent_alike _ _ _ _ _

theorem routeFrame_alike (s : State) (q : QFrame) (p : Nat) (flows : Bool) :
    ComplAlike s (routeFrame s q p flows).1 := by
  unfold routeFrame
  dsimp only
  split
  · exact .refl s
  split
  · exact .refl s
  split
  · split
    · exact .ite (.refl s) (.of (bump_fr _ _))
    · exact deliverCore_alike _ _
  · exact deliverCore_alike _ _

theorem ringSend_alike (s : State) (q : QFrame) (l : Nat) : ComplAlike s (ringSend s q l).1 := by
  unfold ringSend
  split
  · exact .of (bump_fr _ _)
  split
  · exact .of (bump_fr _ _)
  · exact placeOn_alike _ _ _

theorem originate_alike (s : State) (die : Nat) (f : Frame) : ComplAlike s (originate s die f).1 := by
  have own := ComplAlike.of (ownFrame_fr s die f)
  unfold originate
  dsimp only
  split
  · split
    · exact own.trans (.of (mcEnter_fr _ _ _))
    · exact own
  split
  · exact own.trans (.of_eq rfl rfl rfl rfl)
  split
  · exact own.trans (ringSend_alike _ _ _)
  · exact own.trans (routeFrame_alike _ _ _ _)

/-! #### Completions, seen from a state that reads alike -/

/-- An entry written after what a completion does not read. -/
theorem EntryWritten.of_alike {s x t : State} {k : RingKind} {i tag st detail count : Nat} (a : ComplAlike s x)
    (hk : k ≠ .eq) (hi : i < 256) (h : EntryWritten x t k i tag st detail count) :
    EntryWritten s t k i tag st detail count := by
  obtain ⟨tail, entry⟩ := h
  rw [a.cqOf, a.rings .cq _ (not_eventKey (by decide) (cqOf_lt ..))] at tail entry
  rw [a.owner, a.base, a.size, a.phase, a.rings k i (not_eventKey hk hi)] at entry
  exact ⟨tail, entry⟩

/-- A completion that may be written is written after what it does not read. -/
theorem MayComplete.written {s x : State} {k : RingKind} {i key : Nat} (h : MayComplete s k i key)
    (a : ComplAlike s x) (st detail count : Nat) :
    EntryWritten s (complete x k i key st detail count) k i key st detail count :=
  (complete_written (h.alike a) st detail count).1.of_alike a (Producer.ne_eq h.2.1)
    (lt_of_lt_of_le h.1 (ringCount_le k))

theorem setRing_rings (s : State) (k : RingKind) (i : Nat) (r : Ring) : RingsMove s (setRing s k i r) := rfl

theorem complete_rings (s : State) (k : RingKind) (i key st detail count : Nat) :
    RingsMove s (complete s k i key st detail count) := by
  have ended : RingsMove s (keyEnded s k i key) := rfl
  rw [complete_cases]
  dsimp only
  split
  · exact ended
  split
  · split
    · exact ended.trans rfl
    · exact ended.trans rfl
  · exact ended.trans (writeEntry_rings _ _ _ _ _ _ _)

/-! #### SEND_FRAME -/

theorem QueuesOnly.sfCheck {s t : State} (h : QueuesOnly s t) (i : Nat) (d : List Word) :
    Machine.sfCheck t i d = Machine.sfCheck s i d := by
  have foreign := h.foreignPart .cmd i (dPart d)
  have vf := h.ringVf .cmd i
  unfold Machine.sfCheck Machine.foreignColl
  rw [foreign, vf]
  obtain ⟨o, r, rfl, _⟩ := h
  rfl

/-- A buffer that the host gave whole is what its descriptor reads. -/
theorem HostGave.hostIn {s : State} {k : RingKind} {i addr n : Nat} {p : List Byte} (h : HostGave s k i addr n p) :
    Machine.hostIn s k i addr n (ring s k i).staged = some (p, none) := by
  obtain ⟨reach, a, staged, sound, whole, rfl⟩ := h
  have m : reachable s k i addr n = n := by
    unfold reachable InReach at *
    split
    · next core =>
      have fits := reach.resolve_left (absurd core)
      omega
    · rfl
  unfold Machine.hostIn
  rw [m, staged]
  dsimp only
  rw [if_neg (by omega), sound]
  dsimp only
  rw [if_neg (by omega), if_neg (lt_irrefl _)]

/-- The entry of a launch store that a SEND_FRAME makes. -/
def launchOf (s : State) (i : Nat) (d : List Word) (p : List Byte) : Launch :=
  let t := (nth 0 d 3).toNat
  { f := { sfFrame d with payload := p }, time := t, release := t == ones, ring := i, tag := runKey s .cmd i d
    part := dPart d, order := (nth 0 d 8).toNat
    late := t != 0 && t != ones && s.tim.inForce && decide (t < ntNs s) }

/-- A SEND_FRAME whose frame has been read launches it. -/
theorem sendFrame_given {s : State} {i : Nat} {d : List Word} {p : List Byte} (h : DescReady s .cmd i d 0x30)
    (ok : sfCheck s i d = none)
    (given : ((sfFrame d).length = 0 ∧ p = []) ∨ HostGave s .cmd i (d1Addr d) (sfFrame d).length p)
    (room : nth 0 d 3 = 0 ∨ (launchStore s (fld (ringCfg s .cmd i) 19 18)).length < 1024) :
    sendFrame i s = sweepBad (launchFrame (popDesc s .cmd i d) i (runKey s .cmd i d) d p) .cmd i := by
  have popped := popDesc_queues s .cmd i d
  have got : (if (sfFrame d).length = 0 then some ([], none)
      else hostIn s .cmd i (d1Addr d) (sfFrame d).length (ring s .cmd i).staged) = some (p, none) := by
    rcases given with ⟨none, rfl⟩ | gave
    · exact if_pos none
    · split
      · next zero =>
        obtain ⟨_, a, _, _, _, rfl⟩ := gave
        rw [zero, List.take_zero]
      · exact gave.hostIn
  refine h.run (opSendFrame i) ?_
  unfold opSendFrame
  rw [popped.sfCheck, ok]
  dsimp only
  rw [popped.hostIn, got, if_neg fun full => room.elim (absurd · full.1) (not_lt.2 full.2)]

theorem sendFrame_refused {s : State} {i st : Nat} {d : List Word} (h : DescReady s .cmd i d 0x30)
    (bad : sfCheck s i d = some st) : Completed s (sendFrame i s) .cmd i d st 0 0 := by
  have popped := popDesc_queues s .cmd i d
  have e : sendFrame i s = sweepBad (complete (popDesc s .cmd i d) .cmd i (runKey s .cmd i d) st 0 0) .cmd i := by
    refine h.run (opSendFrame i) ?_
    unfold opSendFrame
    rw [popped.sfCheck, bad]
  rw [e]
  exact h.completed (.refl _) _ _ _

theorem sendFrame_full {s : State} {i : Nat} {d : List Word} (h : DescReady s .cmd i d 0x30)
    (ok : sfCheck s i d = none) (timed : nth 0 d 3 ≠ 0)
    (full : 1024 ≤ (launchStore s (fld (ringCfg s .cmd i) 19 18)).length) :
    Completed s (sendFrame i s) .cmd i d stLAUNCH_FULL 0 0 := by
  have popped := popDesc_queues s .cmd i d
  have e : sendFrame i s =
      sweepBad (complete (popDesc s .cmd i d) .cmd i (runKey s .cmd i d) stLAUNCH_FULL 0 0) .cmd i := by
    refine h.run (opSendFrame i) ?_
    unfold opSendFrame
    rw [popped.sfCheck, ok]
    exact if_pos ⟨timed, full⟩
  rw [e]
  exact h.completed (.refl _) _ _ _

/-- What becomes of a frame that is to enter the riser: refused, or routed on its way (R345). -/
theorem enterRiser_refused {s : State} {d : Nat} {l : Launch} (no : selfEid s = none ∨ destOk s l.part l.f = false) :
    enterRiser s d l = complete s .cmd l.ring l.tag stUNREACHABLE 0 0 := by
  unfold enterRiser
  dsimp only
  split
  · rfl
  · next self known =>
    exact if_pos (by rw [no.resolve_left fun none => by simp [none] at known]; rfl)

theorem enterRiser_routed {s : State} {d self : Nat} {l : Launch} (known : selfEid s = some self)
    (ok : destOk s l.part l.f = true) :
    enterRiser s d l = if (originate s d { l.f with src := self }).2 = 0 then
        complete (originate s d { l.f with src := self }).1 .cmd l.ring l.tag
          (if l.late then stLATE_LAUNCH else stOK) (nt32 s) 0
      else complete (originate s d { l.f with src := self }).1 .cmd l.ring l.tag stUNREACHABLE 0 0 := by
  unfold enterRiser
  dsimp only
  rw [known]
  dsimp only
  rw [ok]
  rfl

theorem launchFrame_now {s : State} {i : Nat} {d : List Word} (p : List Byte) (now : nth 0 d 3 = 0) :
    launchFrame (popDesc s .cmd i d) i (runKey s .cmd i d) d p =
      enterRiser (popDesc s .cmd i d) (fld (ringCfg s .cmd i) 19 18) (launchOf s i d p) :=
  if_pos (by rw [now]; rfl)

theorem launchFrame_late {s : State} {i : Nat} {d : List Word} {p : List Byte} (timed : nth 0 d 3 ≠ 0)
    (late : (launchOf s i d p).late = true) :
    launchFrame (popDesc s .cmd i d) i (runKey s .cmd i d) d p =
      enterRiser (bump (popDesc s .cmd i d) (cDie (fld (ringCfg s .cmd i) 19 18) 8))
        (fld (ringCfg s .cmd i) 19 18) (launchOf s i d p) :=
  (if_neg fun zero => timed (BitVec.eq_of_toNat_eq zero)).trans (if_pos late)

theorem launchFrame_held {s : State} {i : Nat} {d : List Word} {p : List Byte} (timed : nth 0 d 3 ≠ 0)
    (early : (launchOf s i d p).late = false) :
    launchFrame (popDesc s .cmd i d) i (runKey s .cmd i d) d p =
      setLaunch (popDesc s .cmd i d) (fld (ringCfg s .cmd i) 19 18)
        (launchStore s (fld (ringCfg s .cmd i) 19 18) ++ [launchOf s i d p]) :=
  (if_neg fun zero => timed (BitVec.eq_of_toNat_eq zero)).trans (if_neg fun late : (launchOf s i d p).late = true => Bool.false_ne_true (early.symm.trans late))

theorem ntNs_lt (s : State) : ntNs s < 2 ^ 64 := by
  unfold ntNs enc
  omega

theorem launchOf_late {s : State} {i : Nat} {d : List Word} (p : List Byte) (timed : nth 0 d 3 ≠ 0)
    (inForce : s.tim.inForce = true) (past : (nth 0 d 3).toNat < ntNs s) : (launchOf s i d p).late = true := by
  have bound := ntNs_lt s
  have zero : (nth 0 d 3).toNat ≠ 0 := fun zero => timed (BitVec.eq_of_toNat_eq zero)
  have all : (nth 0 d 3).toNat ≠ ones := fun all => by
    rw [all] at past
    unfold ones at past
    omega
  unfold launchOf
  dsimp only
  rw [inForce, bne_iff_ne.2 zero, bne_iff_ne.2 all, decide_eq_true past]
  rfl

theorem launchOf_early {s : State} {i : Nat} {d : List Word} (p : List Byte)
    (ahead : s.tim.inForce = false ∨ ntNs s ≤ (nth 0 d 3).toNat) : (launchOf s i d p).late = false := by
  unfold launchOf
  dsimp only
  rcases ahead with off | ahead
  · rw [off, Bool.and_false, Bool.false_and]
  · rw [decide_eq_false (not_lt.2 ahead), Bool.and_false]

/-- A frame routed into the riser now completes its descriptor by what became of it. -/
theorem launch_routed {s x : State} {i self : Nat} {d : List Word} {p : List Byte} (h : DescReady s .cmd i d 0x30)
    (a : ComplAlike (popDesc s .cmd i d) x) (time : nt32 x = nt32 s) (known : selfEid x = some self)
    (ok : destOk x (dPart d) (sfFrame d) = true) (die : Nat) :
    if (originate x die { sfFrame d with payload := p, src := self }).2 = 0 then
      Completed s (sweepBad (enterRiser x die (launchOf s i d p)) .cmd i) .cmd i d
        (if (launchOf s i d p).late then stLATE_LAUNCH else stOK) (nt32 s) 0
    else Completed s (sweepBad (enterRiser x die (launchOf s i d p)) .cmd i) .cmd i d stUNREACHABLE 0 0 := by
  have routed : enterRiser x die (launchOf s i d p) = _ := enterRiser_routed known ok
  have alike := a.trans (originate_alike x die { sfFrame d with payload := p, src := self })
  rw [routed, time]
  split
  · next entered =>
    rw [if_pos (show (originate x die { (launchOf s i d p).f with src := self }).2 = 0 from entered)]
    exact h.completed alike _ _ _
  · next out =>
    rw [if_neg (show ¬ (originate x die { (launchOf s i d p).f with src := self }).2 = 0 from out)]
    exact h.completed alike _ _ _

/-! #### Telemetry buffers -/

theorem QueuesOnly.pfOnly {s t : State} (h : QueuesOnly s t) (i : Nat) (masks : List Nat) (bad : Bool) (d : List Word) :
    Machine.pfOnly t i masks bad d = Machine.pfOnly s i masks bad d := by
  unfold Machine.pfOnly
  rw [h.ringVf]

theorem firstCheck_none {masks : List Nat} {d : List Word} (ok : resOk masks d = true) (part : dPart d ≤ 64) :
    firstCheck masks d = none := by
  unfold firstCheck
  rw [ok, if_neg (by decide), if_neg (not_lt.2 part)]

theorem pfOnly_none {s : State} {i : Nat} {masks : List Nat} {d : List Word} (ok : resOk masks d = true)
    (part : dPart d ≤ 64) (pf : ringVf s .cmd i = none) : pfOnly s i masks false d = none := by
  unfold pfOnly
  rw [firstCheck_none ok part, pf]
  rfl

/-- The buffer that a TELEMETRY_BUF posts. -/
def telemOf (s : State) (i : Nat) (d : List Word) : Telem :=
  { die := fld (nth 0 d 2) 35 34, addr := d1Addr d, records := fld (nth 0 d 2) 31 0, ring := i
    tag := runKey s .cmd i d }

theorem telemetryBuf_posted {s : State} {i : Nat} {d : List Word} (h : DescReady s .cmd i d 0x31)
    (pf : ringVf s .cmd i = none) (ok : resOk [cmdMask, ones, mask 35 34 + mask 31 0] d = true) (part : dPart d ≤ 64)
    (align : d1Addr d % 64 = 0) (some_ : fld (nth 0 d 2) 31 0 ≠ 0) (fits : fld (nth 0 d 2) 31 0 ≤ 65536) :
    telemetryBuf i s = sweepBad { popDesc s .cmd i d with
      hif := { (popDesc s .cmd i d).hif with telem := s.hif.telem ++ [telemOf s i d] } } .cmd i := by
  refine h.run (opTelemetryBuf i) ?_
  have good : (d1Addr d % 64 != 0 || fld (nth 0 d 2) 31 0 == 0 || decide (65536 < fld (nth 0 d 2) 31 0)) = false := by
    simp only [align, bne_self_eq_false, Bool.false_or, Bool.or_eq_false_iff, beq_eq_false_iff_ne, ne_eq, some_,
      not_false_eq_true, decide_eq_false_iff_not, not_lt, fits, and_self]
  unfold opTelemetryBuf
  dsimp only
  rw [(popDesc_queues s .cmd i d).pfOnly, good, pfOnly_none ok part pf]
  rfl

/-- A state in which a telemetry buffer came or went. -/
theorem telem_alike (s : State) (l : List Telem) : ComplAlike s { s with hif := { s.hif with telem := l } } :=
  ⟨⟨rfl, rfl, rfl, rfl⟩, fun _ _ _ => rfl⟩

theorem telemetryBufTimeout_filled {s : State} {die a : Nat} {x : Telem}
    (posted : s.hif.telem.find? (fun t => t.die == die) = some x) (filled : x.firstAt = some a) :
    telemetryBufTimeout die s = completeTelem (await s a msT) x := by
  unfold telemetryBufTimeout
  rw [posted]
  dsimp only
  rw [filled]
  rfl

/-- Settles O22: a SEND_FRAME is `sendFrame_refused`, `sendFrame_full` or `sendFrame_given`, and then `launch_routed`
or held. -/
theorem nopSendFrameTelemetry : Obligations.NopSendFrameTelemetry := by
  unfold Obligations.NopSendFrameTelemetry
  refine fun s i d => ⟨fun h => ?_, fun st h bad => ?_, fun p h ok given => ⟨fun now => ⟨fun no => ?_,
    fun self known dest => ?_⟩, fun timed room => ⟨fun inForce past self known dest entered => ?_, fun ahead => ?_⟩⟩,
    fun h ok timed full => ?_, fun h pf ok part align some_ fits => ?_, fun die x a posted filled may => ?_⟩
  · exact ⟨_, congrArg Host.Outcome.next (h.run (opNop i) rfl), h.completed (.refl _) _ _ _⟩
  · exact ⟨_, rfl, sendFrame_refused h bad⟩
  · have e := sendFrame_given h ok given (.inl now)
    rw [launchFrame_now p now, enterRiser_refused no] at e
    exact ⟨_, congrArg Host.Outcome.next e, h.completed (.refl _) _ _ _⟩
  · have e := sendFrame_given h ok given (.inl now)
    rw [launchFrame_now p now] at e
    have done := launch_routed (p := p) h (.refl _) rfl known dest (fld (ringCfg s .cmd i) 19 18)
    have punctual : (launchOf s i d p).late = false := by
      unfold launchOf
      rw [now]
      rfl
    rw [punctual] at done
    exact ⟨_, congrArg Host.Outcome.next e, done⟩
  · have e := sendFrame_given h ok given (.inr room)
    have late := launchOf_late p timed inForce past (i := i)
    rw [launchFrame_late timed late] at e
    have done := launch_routed (p := p) h (.of (bump_fr _ (cDie (fld (ringCfg s .cmd i) 19 18) 8))) rfl known dest
      (fld (ringCfg s .cmd i) 19 18)
    rw [if_pos entered, late] at done
    exact ⟨_, congrArg Host.Outcome.next e, done⟩
  · have e := sendFrame_given h ok given (.inr room)
    have early := launchOf_early p ahead (i := i)
    rw [launchFrame_held timed early] at e
    have started := h.started (.of (setLaunch_fr (popDesc s .cmd i d) (fld (ringCfg s .cmd i) 19 18)
      (launchStore s (fld (ringCfg s .cmd i) 19 18) ++ [launchOf s i d p])))
    refine ⟨_, launchOf s i d p, congrArg Host.Outcome.next e, started, ?_, rfl, rfl, rfl, ?_, early⟩
    · have same := (sweepBad_fr (setLaunch (popDesc s .cmd i d) (fld (ringCfg s .cmd i) 19 18)
        (launchStore s (fld (ringCfg s .cmd i) 19 18) ++ [launchOf s i d p])) .cmd i).plan rfl
      unfold launchStore at same ⊢
      rw [same]
      exact launchStore_setLaunch _ _ _
    · exact (Bool.beq_eq_decide_eq _ _)
  · exact ⟨_, rfl, sendFrame_full h ok timed full⟩
  · have e := telemetryBuf_posted h pf ok part align some_ fits
    have alike := telem_alike (popDesc s .cmd i d) (s.hif.telem ++ [telemOf s i d])
    have none : (ring { popDesc s .cmd i d with
        hif := { (popDesc s .cmd i d).hif with telem := s.hif.telem ++ [telemOf s i d] } } .cmd i).fetched = [] := by
      refine (congrArg Ring.fetched (popDesc_ring s .cmd i d)).trans ?_
      rw [h.1]
      rfl
    refine ⟨_, congrArg Host.Outcome.next e, h.started alike, ?_⟩
    rw [sweepBad_of_empty none]
    rfl
  · have e := telemetryBufTimeout_filled posted filled
    have alike := (ComplAlike.of (await_fr s a msT)).trans (telem_alike (await s a msT) (s.hif.telem.erase x))
    refine ⟨_, congrArg Host.Outcome.next e, ?_, ?_, may.written alike _ _ _⟩
    · exact (complete_fr _ _ _ _ _ _ _).now rfl
    · have rings := complete_rings { await s a msT with hif := { s.hif with telem := s.hif.telem.erase x } } .cmd x.ring
        x.tag stOK 0 x.filled
      exact congrArg (·.telem) rings

end Sys2Proof.Machine

/-! ### Memory commands: R346, R347 -/

namespace Sys2Proof.Machine

set_option Elab.async false

/-! #### Lines of a region that no retirement touches -/

/-- A granule of a channel in service lies where its address says. -/
theorem place_unretired {s : State} (live : ∀ l, (tget ({} : MapEntry) s.mem.map l).retired = false) (g : Nat) :
    place s g = some g := by
  unfold place placeOf
  dsimp only
  rw [live]
  rfl

theorem noteWritten_lines (s : State) (p i : Nat) : (noteWritten s p i).mem.lines = s.mem.lines := by
  unfold noteWritten
  dsimp only
  split <;> rfl

theorem noteWritten_relief (s : State) (p i : Nat) : (noteWritten s p i).mem.relief = s.mem.relief := by
  unfold noteWritten
  dsimp only
  split <;> rfl

theorem noteWritten_map (s : State) (p i : Nat) : (noteWritten s p i).mem.map = s.mem.map := by
  unfold noteWritten
  dsimp only
  split <;> rfl

theorem lineAt_congr {s t : State} (lines : t.mem.lines = s.mem.lines) (relief : t.mem.relief = s.mem.relief)
    (key : Nat) : lineAt t key = lineAt s key := by
  unfold lineAt lineDef reliefBase reliefRows
  rw [lines, relief]

theorem lineAt_putLine (s : State) (key : Nat) (v : Line) (key' : Nat) :
    lineAt (putLine s key v) key' = if key' = key then v else lineAt s key' := by
  have dflt : lineDef (putLine s key v) key' = lineDef s key' := rfl
  unfold lineAt
  rw [dflt]
  unfold putLine
  split
  · next same =>
    subst same
    exact tget_tset_same ..
  · next other => exact tget_tset_other _ _ _ _ _ _ other

/-- What a write of a region's line leaves: the line, every other line, and the channel map. -/
theorem setRegionLine_live {s : State} (live : ∀ l, (tget ({} : MapEntry) s.mem.map l).retired = false)
    (base n : Nat) (v : Line) :
    (setRegionLine s base n v).mem.map = s.mem.map ∧
      ∀ key, lineAt (setRegionLine s base n v) key = if key = 4 * base + n then v else lineAt s key := by
  unfold setRegionLine writeLine
  rw [place_unretired live]
  refine ⟨noteWritten_map _ _ _, fun key => ?_⟩
  refine (lineAt_congr (s := putLine (noteWritten s (base + n / 4) (n % 4)) (4 * (base + n / 4) + n % 4) v)
    rfl rfl key).trans ?_
  rw [lineAt_putLine, lineAt_congr (noteWritten_lines ..) (noteWritten_relief ..)]
  have here : 4 * (base + n / 4) + n % 4 = 4 * base + n := by omega
  rw [here]

/-- Whole lines written from a line of a region on. -/
theorem lineAt_writeLines (base c : Nat) {s : State}
    (live : ∀ l, (tget ({} : MapEntry) s.mem.map l).retired = false) (n : Nat) (b : List Byte) (key : Nat) :
    lineAt (writeLines base c s n b) key =
      if 4 * base + n ≤ key ∧ key < 4 * base + n + c then
        .data (bytesLine (b.drop (64 * (key - (4 * base + n)))))
      else lineAt s key := by
  induction c generalizing s n b with
  | zero =>
    unfold writeLines
    rw [if_neg (by omega)]
  | succ c ih =>
    obtain ⟨map, line⟩ := setRegionLine_live live base n (.data (bytesLine b))
    unfold writeLines
    rw [ih (by rw [map]; exact live), line]
    rcases Nat.lt_trichotomy key (4 * base + n) with before | here | after
    · rw [if_neg (by omega), if_neg (by omega), if_neg (by omega)]
    · rw [if_neg (by omega), if_pos here, if_pos (by omega), here, Nat.sub_self, Nat.mul_zero, List.drop_zero]
    · rw [if_neg (show ¬ key = 4 * base + n by omega), List.drop_drop]
      by_cases last : key < 4 * base + n + (c + 1)
      · rw [if_pos (by omega), if_pos (by omega)]
        have step : 64 + 64 * (key - (4 * base + (n + 1))) = 64 * (key - (4 * base + n)) := by omega
        rw [step]
      · rw [if_neg (by omega), if_neg (by omega)]

theorem leBytes_length (n v : Nat) : (leBytes n v).length = n := by
  induction n generalizing v with
  | zero => rfl
  | succ n ih => rw [leBytes, List.length_cons, ih]

theorem readLines_length (s : State) (base c n : Nat) : (readLines s base c n).1.length ≤ 64 * c := by
  induction c generalizing n with
  | zero => exact le_refl 0
  | succ c ih =>
    have rest := ih (n + 1)
    unfold readLines
    split
    · exact Nat.zero_le _
    · dsimp only
      rw [List.length_append]
      unfold lineBytes
      rw [leBytes_length]
      omega

/-! #### What completes after data went to the host -/

/-- The host has what a descriptor sent once it has completed. -/
theorem DescReady.sent {s x : State} {k : RingKind} {i : Nat} {d : List Word} {op : Nat} (h : DescReady s k i d op)
    (a : ComplAlike (popDesc s k i d) x) (st detail count : Nat) {o : Output} (sent : o ∈ x.out) :
    o ∈ (sweepBad (complete x k i (runKey s k i d) st detail count) k i).out := by
  obtain ⟨none, -, -⟩ := h.completed a st detail count
  have may := h.may.alike a
  have still : (ring (complete x k i (runKey s k i d) st detail count) k i).fetched = [] := by
    rw [(complete_written may st detail count).2, a.rings k i (not_eventKey (Producer.ne_eq may.2.1)
      (lt_of_lt_of_le may.1 (ringCount_le k))), popDesc_ring, h.1]
    rfl
  rw [sweepBad_of_empty still, complete_eq may]
  obtain ⟨l, written⟩ := writeEntry_out (keyEnded x k i (runKey s k i d)) .cq (cqOf x k i)
    (mkWord [at_ 32 (runKey s k i d % 2 ^ 32), at_ 24 st, at_ 20 (complKind k), at_ 12 i]) (BitVec.ofNat 64 detail)
    (mkWord [at_ 32 (count % 2 ^ 32), nt32 x]) (ring x k i).head
  rw [written]
  exact List.mem_append_left _ sent

/-- A buffer that the host takes is written whole, by a state with the same owner of the ring. -/
theorem hostOut_whole {s x : State} {k : RingKind} {i addr n : Nat} {data : List Byte} (takes : HostTakes s k i addr n)
    (fits : data.length ≤ n) (owner : descOwner x k i = descOwner s k i) :
    hostOut x k i addr data (ring s k i).staged = (emitAll x (dmaWrites (descOwner s k i) addr data), none) := by
  obtain ⟨reach, sound⟩ := takes
  have m : ¬ reachable x k i addr data.length < data.length := by
    unfold reachable InReach at *
    rw [owner]
    split
    · next core =>
      have inside := reach.resolve_left (absurd core)
      omega
    · exact lt_irrefl _
  have fail : ((ring s k i).staged.bind fun a => a.failAt) = none := by
    cases staged : (ring s k i).staged with
    | none => rfl
    | some a => exact sound a staged
  unfold hostOut
  dsimp only
  rw [fail, owner]
  dsimp only
  rw [if_neg m]

theorem placeOf_congr {s t : State} (mem : t.mem = s.mem) (n g : Nat) : placeOf t n g = placeOf s n g := by
  induction n generalizing g with
  | zero => rfl
  | succ n ih =>
    unfold placeOf
    rw [mem]
    simp only [ih]

theorem regionLine_congr {s t : State} (mem : t.mem = s.mem) (base n : Nat) : regionLine t base n = regionLine s base n := by
  unfold regionLine readLine place
  rw [placeOf_congr mem, mem]
  split
  · rfl
  · rw [lineAt_congr (s := s) (t := t) (by rw [mem]) (by rw [mem])]

theorem readLines_congr {s t : State} (mem : t.mem = s.mem) (base c n : Nat) :
    readLines t base c n = readLines s base c n := by
  induction c generalizing n with
  | zero => rfl
  | succ c ih =>
    unfold readLines
    rw [regionLine_congr mem, ih]

/-! #### MEM_WRITE and MEM_READ -/

theorem completed_mem (s : State) (k : RingKind) (i key st detail count : Nat) :
    (sweepBad (complete s k i key st detail count) k i).mem = s.mem :=
  ((sweepBad_fr _ _ _).mem rfl).trans ((complete_fr _ _ _ _ _ _ _).mem rfl)

theorem HostGave.length {s : State} {k : RingKind} {i addr n : Nat} {p : List Byte} (h : HostGave s k i addr n p) :
    p.length = n := by
  obtain ⟨_, a, _, _, whole, rfl⟩ := h
  rw [List.length_take]
  omega

theorem memWrite_refused {s : State} {i st : Nat} {d : List Word} (h : DescReady s .cmd i d 0x40)
    (bad : mwCheck s i true d = .error st) :
    memWrite i s = sweepBad (complete (popDesc s .cmd i d) .cmd i (runKey s .cmd i d) st 0 0) .cmd i := by
  refine h.run (opMemWrite i) ?_
  unfold opMemWrite
  rw [(popDesc_queues s .cmd i d).mwCheck, bad]

theorem memRead_refused {s : State} {i st : Nat} {d : List Word} (h : DescReady s .cmd i d 0x41)
    (bad : mwCheck s i false d = .error st) :
    memRead i s = sweepBad (complete (popDesc s .cmd i d) .cmd i (runKey s .cmd i d) st 0 0) .cmd i := by
  refine h.run (opMemRead i) ?_
  unfold opMemRead
  rw [(popDesc_queues s .cmd i d).mwCheck, bad]

/-- What a MEM_READ has sent, before it completes. -/
def readSent (s : State) (i : Nat) (d : List Word) (base : Nat) (b : List Byte) : State :=
  emitAll (doneReads (popDesc s .cmd i d) base (mwOff d / 64) (mwLen d / 64))
    (dmaWrites (descOwner s .cmd i) (d1Addr d) b)

theorem mwCheck_len {s : State} {i : Nat} {write : Bool} {d : List Word} {v : Word × Word}
    (ok : mwCheck s i write d = .ok v) : mwLen d % 64 = 0 := by
  unfold mwCheck at ok
  split at ok
  · exact absurd ok (by simp)
  split at ok
  · exact absurd ok (by simp)
  · omega

theorem memRead_taken {s : State} {i : Nat} {d : List Word} {v : Word × Word} {b : List Byte} {bad : Option Nat}
    (h : DescReady s .cmd i d 0x41) (ok : mwCheck s i false d = .ok v)
    (takes : HostTakes s .cmd i (d1Addr d) (mwLen d))
    (read : readLines s (rgBase v) (mwLen d / 64) (mwOff d / 64) = (b, bad)) :
    memRead i s = sweepBad (complete (readSent s i d (rgBase v) b) .cmd i (runKey s .cmd i d)
      (if bad.isSome then stMEM_POISONED else stOK) (64 * bad.getD 0) 0) .cmd i := by
  have fits : b.length ≤ mwLen d := by
    have long := readLines_length s (rgBase v) (mwLen d / 64) (mwOff d / 64)
    rw [read] at long
    have whole := Nat.mul_div_le (mwLen d) 64
    exact le_trans long whole
  have popped := popDesc_queues s .cmd i d
  have read' : readLines (popDesc s .cmd i d) (rgBase v) (mwLen d / 64) (mwOff d / 64) = (b, bad) :=
    (readLines_congr (s := s) (t := popDesc s .cmd i d) rfl _ _ _).trans read
  have out : hostOut (doneReads (popDesc s .cmd i d) (rgBase v) (mwOff d / 64) (mwLen d / 64)) .cmd i (d1Addr d) b
      (ring s .cmd i).staged = (readSent s i d (rgBase v) b, none) :=
    hostOut_whole takes fits (popped.descOwner .cmd i)
  refine h.run (opMemRead i) ?_
  unfold opMemRead
  rw [popped.mwCheck, ok]
  dsimp only
  rw [read', out]
  cases bad <;> rfl

theorem readSent_alike (s : State) (i : Nat) (d : List Word) (base : Nat) (b : List Byte) :
    ComplAlike (popDesc s .cmd i d) (readSent s i d base b) :=
  (ComplAlike.of (doneReads_fr _ _ _ _)).trans (.of (emitAll_fr _ _))

/-! #### DEBUG_READ -/

theorem putBytes_length {l : List Byte} {off : Nat} {data : List Byte} (fits : off + data.length ≤ l.length) :
    (putBytes l off data).length = l.length := by
  unfold putBytes
  dsimp only
  simp only [List.length_append, List.length_take, List.length_replicate, List.length_drop]
  omega

/-- Words that read as all ones leave the size of what was read. -/
theorem spoil_length {bad : List Nat} {b : List Byte} (inside : ∀ w ∈ bad, 8 * w + 8 ≤ b.length) :
    (spoil bad b).length = b.length := by
  unfold spoil
  induction bad generalizing b with
  | nil => rfl
  | cons w bad ih =>
    have one : (putBytes b (8 * w) (List.replicate 8 0xFF)).length = b.length :=
      putBytes_length (inside w List.mem_cons_self)
    rw [List.foldl_cons, ih (by rw [one]; exact fun v hv => inside v (List.mem_cons_of_mem _ hv)), one]

theorem sliceB_length (l : List Byte) (off n : Nat) : (sliceB l off n).length = n := by
  unfold sliceB
  dsimp only
  rw [List.length_append, List.length_replicate, List.length_take]
  omega

/-- The words of a DEBUG_READ that have an uncorrectable error. -/
def badOf (d : List Word) (bad : List Nat) : List Nat := (bad.filter fun w => decide (w < mwLen d / 8)).dedup

theorem spoiled_length {d : List Word} (bad : List Nat) {b : List Byte} (len : b.length = mwLen d) :
    (spoil (badOf d bad) b).length = mwLen d := by
  refine (spoil_length fun w hw => ?_).trans len
  have inside := List.mem_filter.1 (List.mem_dedup.1 hw)
  have less := of_decide_eq_true inside.2
  omega

/-- What a DEBUG_READ brings of the memory of its space, and the state it leaves. -/
def debugData (s : State) (d : List Word) : State × List Byte :=
  if fld (nth 0 d 2) 63 56 = 1 then cruBytes s (mwOff d) (mwLen d) else (s, planBytes s (mwOff d) (mwLen d))

theorem debugData_alike (s : State) (d : List Word) : ComplAlike s (debugData s d).1 := by
  unfold debugData
  split
  · exact .of (takeFree_fr s)
  · exact .refl s

theorem debugData_length (s : State) (d : List Word) : (debugData s d).2.length = mwLen d := by
  unfold debugData
  split
  · unfold cruBytes
    dsimp only
    rw [List.length_map, List.length_range]
  · exact sliceB_length _ _ _

/-- What a DEBUG_READ needs of its descriptor, whose space is `size` bytes long. -/
structure DebugFits (s : State) (i : Nat) (d : List Word) (size : Nat) : Prop where
  pf : ringVf s .cmd i = none
  res : resOk [cmdMask, ones, mask 63 56, ones, mask 31 0] d = true
  part : dPart d ≤ 64
  addr : d1Addr d % 8 = 0
  off : mwOff d % 64 = 0
  len : mwLen d % 64 = 0
  some_ : mwLen d ≠ 0
  most : mwLen d ≤ 2 ^ 26
  inside : mwOff d + mwLen d ≤ size

/-- The range check of a DEBUG_READ passes. -/
theorem DebugFits.range {s : State} {i : Nat} {d : List Word} {size : Nat} (h : DebugFits s i d size) :
    (d1Addr d % 8 != 0 || mwOff d % 64 != 0 || mwLen d % 64 != 0 || mwLen d == 0 || decide (2 ^ 26 < mwLen d)
      || decide (size < mwOff d + mwLen d)) = false := by
  rw [h.addr, h.off, h.len, decide_eq_false (not_lt.2 h.most), decide_eq_false (not_lt.2 h.inside),
    beq_eq_false_iff_ne.2 h.some_]
  rfl

theorem debugRead_taken {s : State} {i : Nat} {d : List Word} (bad : List Nat) (h : DescReady s .cmd i d 0x50)
    (takes : HostTakes s .cmd i (d1Addr d) (mwLen d))
    (fits : DebugFits s i d (if fld (nth 0 d 2) 63 56 = 1 then 2 ^ 31 else 2 ^ 27))
    (space : fld (nth 0 d 2) 63 56 = 1 ∧ hasCrucibles s = true ∨ fld (nth 0 d 2) 63 56 = 2) :
    debugRead i bad s = sweepBad (complete (emitAll (debugData (popDesc s .cmd i d) d).1
        (dmaWrites (descOwner s .cmd i) (d1Addr d) (spoil (badOf d bad) (debugData (popDesc s .cmd i d) d).2)))
      .cmd i (runKey s .cmd i d) stOK (badOf d bad).length 0) .cmd i := by
  have popped := popDesc_queues s .cmd i d
  have owner : descOwner (debugData (popDesc s .cmd i d) d).1 .cmd i = descOwner s .cmd i := by
    refine Eq.trans ?_ (popped.descOwner .cmd i)
    unfold debugData
    split <;> rfl
  have out := hostOut_whole takes (spoiled_length bad (debugData_length (popDesc s .cmd i d) d)).le owner
  have known : (fld (nth 0 d 2) 63 56 != 1 && fld (nth 0 d 2) 63 56 != 2) = false := by
    rcases space with ⟨one, _⟩ | two
    · rw [one]
      rfl
    · rw [two]
      rfl
  have present : ¬ (fld (nth 0 d 2) 63 56 = 1 ∧ (!hasCrucibles (popDesc s .cmd i d)) = true) := by
    rintro ⟨one, absent⟩
    rcases space with ⟨_, here⟩ | two
    · rw [show hasCrucibles (popDesc s .cmd i d) = hasCrucibles s from rfl, here] at absent
      exact absurd absent (by decide)
    · rw [two] at one
      exact absurd one (by decide)
  refine h.run (opDebugRead i bad) ?_
  unfold opDebugRead
  dsimp only
  rw [fits.res, known, popped.pfOnly, fits.range, pfOnly_none fits.res fits.part fits.pf]
  dsimp only
  rw [if_neg (by decide), if_neg present]
  unfold debugData badOf at out
  rw [out]
  rfl

theorem debugRead_absent {s : State} {i : Nat} {d : List Word} (bad : List Nat) (h : DescReady s .cmd i d 0x50)
    (fits : DebugFits s i d (2 ^ 31)) (space : fld (nth 0 d 2) 63 56 = 1) (absent : hasCrucibles s = false) :
    debugRead i bad s =
      sweepBad (complete (popDesc s .cmd i d) .cmd i (runKey s .cmd i d) stUNIT_ABSENT 0 0) .cmd i := by
  refine h.run (opDebugRead i bad) ?_
  unfold opDebugRead
  dsimp only
  rw [space, fits.res, (popDesc_queues s .cmd i d).pfOnly, if_pos rfl, fits.range, pfOnly_none fits.res fits.part fits.pf]
  dsimp only
  rw [if_neg (by decide), if_pos ⟨rfl, by rw [show hasCrucibles (popDesc s .cmd i d) = hasCrucibles s from rfl, absent]; rfl⟩]

/-- Settles O23: MEM_WRITE is `memWrite_given` and `lineAt_writeLines`, MEM_READ `memRead_taken`, DEBUG_READ
`debugRead_taken`. -/
theorem memoryCommandsMoveLines : Obligations.MemoryCommandsMoveLines := by
  unfold Obligations.MemoryCommandsMoveLines
  refine fun s i d => ⟨fun v p h ok gave live => ?_, fun st h bad => ?_, fun st h bad => ?_,
    fun v b bad h ok takes read => ?_, fun bad h takes pf res part addr off len some_ most => ⟨fun space inside => ?_,
    fun space inside => ?_⟩⟩
  · have e := memWrite_given h ok gave.hostIn
    have done : Completed s (memWrite i s) .cmd i d stOK 0 0 := memWrite_completed (fail := none) h ok gave.hostIn
    refine ⟨memWrite i s, rfl, done, fun key => ?_⟩
    rw [e]
    have same := completed_mem (writeLines (rgBase v) (p.length / 64) (popDesc s .cmd i d) (mwOff d / 64) p) .cmd i
      (runKey s .cmd i d) stOK 0 0
    refine (lineAt_congr (congrArg Mem.lines same) (congrArg Mem.relief same) key).trans ?_
    rw [gave.length]
    exact lineAt_writeLines (rgBase v) (mwLen d / 64) (s := popDesc s .cmd i d) live (mwOff d / 64) p key
  · have e := memWrite_refused h bad
    refine ⟨_, congrArg Host.Outcome.next e, h.completed (.refl _) _ _ _, ?_⟩
    exact completed_mem _ _ _ _ _ _ _
  · have e := memRead_refused h bad
    refine ⟨_, congrArg Host.Outcome.next e, h.completed (.refl _) _ _ _, ?_⟩
    exact completed_mem _ _ _ _ _ _ _
  · have e := memRead_taken h ok takes read
    have alike := readSent_alike s i d (rgBase v) b
    refine ⟨_, congrArg Host.Outcome.next e, ?_, fun o sent => ?_, fun none => ?_, fun n poisoned => ?_⟩
    · exact (congrArg Mem.lines (completed_mem (readSent s i d (rgBase v) b) .cmd i _ _ _ _)).trans rfl
    · exact h.sent alike _ _ _ (List.mem_append_right _ sent)
    · subst none
      exact h.completed alike _ _ _
    · subst poisoned
      exact h.completed alike _ _ _
  · have fits : DebugFits s i d (if fld (nth 0 d 2) 63 56 = 1 then 2 ^ 31 else 2 ^ 27) :=
      ⟨pf, res, part, addr, off, len, some_, most, by rw [space]; exact inside⟩
    have e := debugRead_taken bad h takes fits (.inr space)
    have alike := (debugData_alike (popDesc s .cmd i d) d).trans (.of (emitAll_fr _
      (dmaWrites (descOwner s .cmd i) (d1Addr d) (spoil (badOf d bad) (debugData (popDesc s .cmd i d) d).2))))
    have data : (debugData (popDesc s .cmd i d) d).2 = planBytes s (mwOff d) (mwLen d) :=
      congrArg Prod.snd (if_neg (by rw [space]; decide))
    refine ⟨_, congrArg Host.Outcome.next e, h.completed alike _ _ _, fun o sent => ?_⟩
    refine h.sent alike _ _ _ (List.mem_append_right _ ?_)
    rw [data]
    exact sent
  · have fits : DebugFits s i d (2 ^ 31) := ⟨pf, res, part, addr, off, len, some_, most, inside⟩
    cases there : hasCrucibles s with
    | false =>
      have e := debugRead_absent bad h fits space there
      exact ⟨_, congrArg Host.Outcome.next e, fun _ => h.completed (.refl _) _ _ _, fun no => by simp at no⟩
    | true =>
      have e := debugRead_taken bad h takes (by rw [if_pos space]; exact fits) (.inl ⟨space, there⟩)
      have alike := (debugData_alike (popDesc s .cmd i d) d).trans (.of (emitAll_fr _
        (dmaWrites (descOwner s .cmd i) (d1Addr d) (spoil (badOf d bad) (debugData (popDesc s .cmd i d) d).2))))
      exact ⟨_, congrArg Host.Outcome.next e, fun no => by simp at no, fun _ => h.completed alike _ _ _⟩

end Sys2Proof.Machine

/-! ### Registers and the tables' configuration: R11 to R20, R33, R332 -/

namespace Sys2Proof.Machine

set_option Elab.async false

/-! #### BAR0 writes -/

theorem mayReach_not_vf {s : State} {f : Func} (may : mayReach s f = true) (n : Nat) : f ≠ .vf n := by
  rintro rfl
  unfold mayReach at may
  simp at may

theorem mayWriteMain_reach {s : State} {f : Func} (may : mayWriteMain s f = true) :
    mayReach s f = true ∧ (s.boot.fwState == .failed) = false ∧ mainAlive s = true := by
  unfold mayWriteMain mayWrite at may
  simp only [Bool.and_eq_true, bne_iff_ne] at may
  exact ⟨may.1.1, beq_eq_false_iff_ne.2 may.1.2, may.2⟩

/-- An aligned 64-bit write of one who is no VF is a write of the PF's BAR0. -/
theorem registerWrite_pf {f : Func} {off : Nat} (aligned : off % 8 = 0) (notVf : ∀ n, f ≠ .vf n) (v : Word) (s : State) :
    registerWrite f off 8 v s = writePf f off v s := by
  unfold registerWrite
  rw [if_neg (by omega)]
  split
  · next n => exact absurd rfl (notVf n)
  · rfl

/-- A write that no check of BAR0 keeps out. -/
theorem writePf_guard {s : State} {f : Func} {off : Nat} (may : mayWriteMain s f = true) (cross : crosses s off = true) :
    ¬ (!mayReach s f || (s.boot.fwState == .failed && !offeredFailed off) || (!onHifRail off && !mainAlive s) ||
      !crosses s off) = true := by
  obtain ⟨reach, sound, alive⟩ := mayWriteMain_reach may
  rw [reach, sound, alive, cross]
  simp

theorem writePf_closed {s : State} {f : Func} {off : Nat} (v : Word)
    (closed : mayReach s f = false ∨ crosses s off = false) : writePf f off v s = s := by
  unfold writePf
  rcases closed with no | no <;> simp [no]

/-- The registers with a row of O24 that take a write by their access codes alone. -/
def plainRegs : List Nat :=
  [oPWR_CFG, oCDC_LOG, oTIME_CFG, oPPS_CFG, oPPS_TOD, oFADE_CFG, oCAL_CFG, oSELF_EID, oCREDIT_CFG, oCTX_CFG, oCTX_RING,
    oMISMATCH0, oMEM_CFG, oMEM_UE_LOG, oFENCE_CFG, oTHERM_CFG]

theorem plainRegs_aligned {off : Nat} (plain : off ∈ plainRegs) : off % 8 = 0 := by
  revert off
  decide

theorem writePf_plain {s : State} {f : Func} {off : Nat} (may : mayWriteMain s f = true) (cross : crosses s off = true)
    (plain : off ∈ plainRegs) (v : Word) : writePf f off v s = writeReg s off v := by
  refine (if_neg (writePf_guard may cross)).trans ?_
  unfold plainRegs at plain
  simp only [List.mem_cons, List.not_mem_nil, or_false] at plain
  rcases plain with rfl | rfl | rfl | rfl | rfl | rfl | rfl | rfl | rfl | rfl | rfl | rfl | rfl | rfl | rfl | rfl <;> rfl

/-- A VF's BAR0 holds nothing but its rings and its MSI-X table (R332). -/
theorem writeVf_outside {n off : Nat} (out : off < 0x1000 ∨ 0x2040 ≤ off) (v : Word) (s : State) :
    writeVf n off v s = s := by
  unfold writeVf
  split
  · rfl
  · rw [if_neg (by omega), if_neg (by omega), if_neg (by omega)]

theorem writePf_cmCfg {s : State} {f : Func} (may : mayWriteMain s f = true) (v : Word) :
    writePf f oCM_CFG v s = cmCfgWrite v s := (if_neg (writePf_guard may rfl)).trans rfl

theorem noteQ_lane (s : State) (l q : Nat) : lane (noteQ s l) q = lane s q := by
  unfold noteQ
  dsimp only
  repeat' split
  all_goals rfl

/-- CM_CFG takes its value; the queues' times start anew where CM_THRESH has changed, and no lane moves. -/
theorem cmCfgWrite_spec (s : State) (v : Word) : RegWritten s (cmCfgWrite v s) oCM_CFG v ∧
    (rf (cmCfgWrite v s) oCM_CFG 15 0 = rf s oCM_CFG 15 0 → (cmCfgWrite v s).lnk = s.lnk) ∧
    ∀ q, lane (cmCfgWrite v s) q = lane s q := by
  have restarted (l : List Nat) : Fr 64 (writeReg s oCM_CFG v) (forEach l (writeReg s oCM_CFG v) fun s l =>
      noteQ (modLink s l fun k => { k with highSince := none, lowSince := none }) l) :=
    Fr.forEach (m := 64) _ _ (fun y l => Fr.step (noteQ_fr _ _) (modLink_fr _ _ _)) (Fr.refl _ _)
  have regs (off : Nat) : getR (cmCfgWrite v s) off = getR (writeReg s oCM_CFG v) off := by
    unfold cmCfgWrite
    dsimp only
    split
    · rfl
    · exact (restarted _).getR off
  refine ⟨fun o => ?_, fun same => ?_, fun q => ?_⟩
  · rw [regs]
    exact writeReg_written s oCM_CFG v o
  · unfold rf at same
    rw [regs] at same
    have e : cmCfgWrite v s = writeReg s oCM_CFG v := if_pos same
    rw [e]
    exact (writeReg_fr _ _ _).lnk rfl
  · have own : lane (writeReg s oCM_CFG v) q = lane s q := (writeReg_fr _ _ _).lane q
    unfold cmCfgWrite
    dsimp only
    split
    · exact own
    · refine (forEach_keeps (fun s => lane s q) _ ?_ _ _).trans own
      intro y l
      exact noteQ_lane _ _ _

/-- A block's LOCK bit takes a 1 (R15). -/
theorem writeReg_lock (s : State) {off : Nat} (lock : off = oLOCK ∨ off = oTBL_LOCK) :
    bit (getR (writeReg s off 1) off) 0 = true := by
  have info : regInfo s.variant s.boot.strapBl2 off = { w1s := 1 } := by
    rcases lock with rfl | rfl <;> rfl
  have range (w : Word) : rangeOk off w = true := by
    rcases lock with rfl | rfl <;> rfl
  have written := writeReg_written s off 1 off
  rw [if_pos ⟨rfl, range _⟩, info] at written
  rw [written]
  generalize (getR s off).toNat = old
  unfold bit applyWrite regClip regBits
  simp [Nat.testBit_or, Nat.testBit_and]

/-- Settles O24: a register takes a write by `writePf_plain` and `writeReg_written`. -/
theorem registersTakeWritesByAccessCode : Obligations.RegistersTakeWritesByAccessCode := by
  unfold Obligations.RegistersTakeWritesByAccessCode
  refine fun s f v => ⟨fun off bytes bad => ?_, fun n off out => ?_, fun off no notVf => ?_, fun off may cross plain => ?_,
    fun off no notVf => ?_, fun off k domain => ?_, fun may => ?_, fun may => ?_, fun may => ?_⟩
  · exact congrArg Host.Outcome.next (if_pos bad)
  · refine congrArg Host.Outcome.next ?_
    unfold registerWrite
    split
    · rfl
    · exact writeVf_outside out v s
  · refine congrArg Host.Outcome.next ?_
    by_cases aligned : off % 8 = 0
    · exact (registerWrite_pf aligned notVf v s).trans (writePf_closed v (.inl no))
    · exact if_pos (.inr aligned)
  · have e := (registerWrite_pf (plainRegs_aligned plain)
      (fun n => mayReach_not_vf (mayWriteMain_reach may).1 n) v s).trans (writePf_plain may cross plain v)
    exact ⟨_, congrArg Host.Outcome.next e, writeReg_written s off v, (writeReg_fr s off v).onlyChanges _⟩
  · refine congrArg Host.Outcome.next ?_
    by_cases aligned : off % 8 = 0
    · exact (registerWrite_pf aligned notVf v s).trans (writePf_closed v (.inr no))
    · exact if_pos (.inr aligned)
  · unfold crosses
    rw [domain]
  · have e := (registerWrite_pf (off := oCM_CFG) rfl (fun n => mayReach_not_vf (mayWriteMain_reach may).1 n) v s).trans
      (writePf_cmCfg may v)
    obtain ⟨written, kept, lanes⟩ := cmCfgWrite_spec s v
    exact ⟨_, congrArg Host.Outcome.next e, written, (cmCfgWrite_fr v s).onlyChanges _, kept, lanes⟩
  · have e : blockLock f false s = writeReg s oLOCK 1 := if_pos may
    exact ⟨_, congrArg Host.Outcome.next e, writeReg_written s oLOCK 1, writeReg_lock s (.inl rfl),
      (writeReg_fr s oLOCK 1).onlyChanges _⟩
  · have e : blockLock f true s = writeReg s oTBL_LOCK 1 := if_pos may
    exact ⟨_, congrArg Host.Outcome.next e, writeReg_written s oTBL_LOCK 1, writeReg_lock s (.inr rfl),
      (writeReg_fr s oTBL_LOCK 1).onlyChanges _⟩

end Sys2Proof.Machine

/-! ### FABRIC_POS, TBL_CFG and the recast windows: R19, R20, R33 -/

namespace Sys2Proof.Machine

set_option Elab.async false

/-! #### FABRIC_POS -/

/-- What a write leaves of FABRIC_POS, while GLOBAL_LOCK is set or not. -/
def posNext (s : State) (locked : Bool) (v : Word) : Word :=
  BitVec.ofNat 64 (applyWrite (regInfo s.variant s.boot.strapBl2 oFABRIC_POS) locked (getR s oFABRIC_POS).toNat v.toNat)

theorem fabricPos_eq (s : State) (v : Word) : fabricPos v s =
    if posNext s (bit (getR s oLOCK) 0) v = getR s oFABRIC_POS ∨
        (bit (posNext s (bit (getR s oLOCK) 0) v) 16 ∧
          fld (posNext s (bit (getR s oLOCK) 0) v) 23 21 < fld (posNext s (bit (getR s oLOCK) 0) v) 2 0) ∨
        (s.lnk.links.any fun e => e.2.state != 0 && e.2.state != 4) = true
    then s else putFabricPos s v := rfl

/-- The lock keeps every field of FABRIC_POS. -/
theorem posNext_locked (s : State) (v : Word) : posNext s true v = getR s oFABRIC_POS := by
  have info : regInfo s.variant s.boot.strapBl2 oFABRIC_POS =
      { reset := 0xE00000, rwk := mask 23 21 + mask 16 16 + mask 13 8 + mask 2 0 } := rfl
  unfold posNext
  rw [info]
  refine BitVec.eq_of_toNat_eq ?_
  have low : (getR s oFABRIC_POS).toNat &&& ones = (getR s oFABRIC_POS).toNat := by
    unfold ones
    rw [Nat.and_two_pow_sub_one_eq_mod, Nat.mod_eq_of_lt (BitVec.isLt _)]
  have same : applyWrite { reset := 0xE00000, rwk := mask 23 21 + mask 16 16 + mask 13 8 + mask 2 0 } true
      (getR s oFABRIC_POS).toNat v.toNat = (getR s oFABRIC_POS).toNat := by
    unfold applyWrite
    simp [low]
  rw [same, BitVec.toNat_ofNat, Nat.mod_eq_of_lt (BitVec.isLt _)]

theorem fabricPos_kept {s : State} {v : Word}
    (kept : posNext s (bit (getR s oLOCK) 0) v = getR s oFABRIC_POS ∨
      (bit (posNext s (bit (getR s oLOCK) 0) v) 16 = true ∧
        fld (posNext s (bit (getR s oLOCK) 0) v) 23 21 < fld (posNext s (bit (getR s oLOCK) 0) v) 2 0) ∨
      (s.lnk.links.any fun e => e.2.state != 0 && e.2.state != 4) = true) (f : Func) :
    fabricPosWrite f v s = s := by
  unfold fabricPosWrite
  rw [fabricPos_eq, if_pos kept, ite_self]

/-- A link that is neither DOWN nor DISABLED keeps FABRIC_POS. -/
theorem linkUp_busy {s : State} {l : Nat} (up : (link s l).state ≠ 0) (enabled : (link s l).state ≠ 4) :
    (s.lnk.links.any fun e => e.2.state != 0 && e.2.state != 4) = true := by
  unfold link at up enabled
  rcases tget_eq_or_mem {} s.lnk.links l with dflt | mem
  · rw [dflt] at up
    exact absurd rfl up
  · refine List.any_eq_true.2 ⟨_, mem, ?_⟩
    simp [up, enabled]

/-- FABRIC_POS takes the value of an unlocked write, and no other register does. -/
theorem putFabricPos_regs {s : State} (unlocked : bit (getR s oLOCK) 0 = false) (v : Word) :
    getR (putFabricPos s v) oFABRIC_POS =
        BitVec.ofNat 64 (regClip (regInfo s.variant s.boot.strapBl2 oFABRIC_POS) (posNext s false v).toNat) ∧
      ∀ o, o ≠ oFABRIC_POS → getR (putFabricPos s v) o = getR s o := by
  have after (off : Nat) : getR (putFabricPos s v) off = getR (writeReg s oFABRIC_POS v) off := by
    unfold putFabricPos
    refine (Fr.forEach (m := 114885) _ _ (fun y l => Fr.step (positionAdvance_fr _ _) (refreshLink_fr _ _ _ _))
      (Fr.refl _ _)).getR off
  have written := writeReg_written s oFABRIC_POS v
  unfold RegWritten at written
  have lock : lockedAt s oFABRIC_POS = bit (getR s oLOCK) 0 := rfl
  rw [lock, unlocked] at written
  refine ⟨?_, fun o other => ?_⟩
  · rw [after, written, if_pos ⟨rfl, rfl⟩]
    rfl
  · rw [after, written, if_neg fun h => other h.1]

/-! #### Windows that have been open too long -/

theorem window_setWindow_other (s : State) {p q : Nat} (w : Window) (other : q ≠ p) :
    window (setWindow s p w) q = window s q := tget_tset_other _ _ _ _ _ _ other

theorem window_congr {s t : State} (h : t.tbl = s.tbl) (p : Nat) : window t p = window s p := by
  unfold window
  rw [h]

/-- A window as RECAST_LONG marks it. -/
def notedLong (s : State) (p : Nat) : Window :=
  { window s p with long := (window s p).long ||
      ((window s p).isOpen && decide ((window s p).openedAt + rf s oTBL_CFG 63 52 * secT < s.now)) }

theorem recastLong_due {s : State} {p : Nat} (due : ((window s p).isOpen && !(window s p).long &&
      decide ((window s p).openedAt + rf s oTBL_CFG 63 52 * secT < s.now)) = true) :
    recastLong s p = raiseEvent (setWindow s p { window s p with long := true }) 0x402 p
      (since s (window s p).openedAt / secT) 0 := if_pos due

theorem recastLong_window (s : State) (p q : Nat) :
    window (recastLong s p) q = if q = p then notedLong s p else window s q := by
  by_cases due : ((window s p).isOpen && !(window s p).long &&
      decide ((window s p).openedAt + rf s oTBL_CFG 63 52 * secT < s.now)) = true
  · rw [recastLong_due due, window_congr (raiseEvent_tbl ..)]
    split
    · next same =>
      subst same
      rw [window_setWindow]
      unfold notedLong
      simp only [Bool.and_eq_true, Bool.not_eq_true', decide_eq_true_eq] at due
      simp [due]
    · next other => exact window_setWindow_other _ _ other
  · have e : recastLong s p = s := if_neg due
    rw [e]
    split
    · next same =>
      subst same
      unfold notedLong
      have marked : ((window s q).long || ((window s q).isOpen &&
          decide ((window s q).openedAt + rf s oTBL_CFG 63 52 * secT < s.now))) = (window s q).long := by
        generalize decide ((window s q).openedAt + rf s oTBL_CFG 63 52 * secT < s.now) = past at due ⊢
        generalize (window s q).isOpen = open_ at due ⊢
        generalize (window s q).long = long at due ⊢
        revert due
        cases open_ <;> cases long <;> cases past <;> decide
      rw [marked]
    · rfl

theorem recastLong_limit (s : State) (p : Nat) :
    rf (recastLong s p) oTBL_CFG 63 52 = rf s oTBL_CFG 63 52 ∧ (recastLong s p).now = s.now := by
  unfold rf
  exact ⟨by rw [(recastLong_fr s p).getR], (recastLong_fr s p).now rfl⟩

/-- The windows of a list are marked, the others left. -/
theorem forEach_recastLong_window (l : List Nat) (distinct : l.Nodup) (s : State) (q : Nat) :
    window (forEach l s recastLong) q = if q ∈ l then notedLong s q else window s q := by
  induction l generalizing s with
  | nil => rfl
  | cons p l ih =>
    obtain ⟨limit, now⟩ := recastLong_limit s p
    obtain ⟨fresh, distinct⟩ := List.nodup_cons.1 distinct
    have noted (q : Nat) (other : q ≠ p) : notedLong (recastLong s p) q = notedLong s q := by
      unfold notedLong
      rw [recastLong_window, if_neg other, limit, now]
    rw [forEach_cons, ih distinct, recastLong_window]
    by_cases here : q = p
    · subst here
      rw [if_neg fresh, if_pos rfl, if_pos List.mem_cons_self]
    · rw [if_neg here]
      by_cases later : q ∈ l
      · rw [if_pos later, if_pos (List.mem_cons_of_mem _ later), noted q here]
      · rw [if_neg later, if_neg (by simp [here, later])]

/-- Settles O25: FABRIC_POS is `fabricPos_kept` or `putFabricPos_regs`, the windows `forEach_recastLong_window`. -/
theorem fabricPosAndTblCfgWritten : Obligations.FabricPosAndTblCfgWritten := by
  unfold Obligations.FabricPosAndTblCfgWritten
  refine fun s f v => ⟨fun locked => ?_, fun valid beyond unlocked => ?_, fun l up enabled => ?_,
    fun may unlocked changes inside down => ?_, fun may => ?_⟩
  · exact congrArg Host.Outcome.next (fabricPos_kept (.inl (by rw [locked]; exact posNext_locked s v)) f)
  · exact congrArg Host.Outcome.next (fabricPos_kept (.inr (.inl (by rw [unlocked]; exact ⟨valid, beyond⟩))) f)
  · exact congrArg Host.Outcome.next (fabricPos_kept (.inr (.inr (linkUp_busy up enabled))) f)
  · have quiet : ¬ (s.lnk.links.any fun e => e.2.state != 0 && e.2.state != 4) = true := fun busy => by
      obtain ⟨e, mem, busy⟩ := List.any_eq_true.1 busy
      rcases down e mem with zero | four
      · simp [zero] at busy
      · simp [four] at busy
    have e : fabricPosWrite f v s = putFabricPos s v := by
      refine (if_pos may).trans ((fabricPos_eq s v).trans (if_neg ?_))
      rw [unlocked]
      rintro (same | ⟨valid, beyond⟩ | busy)
      · exact changes same
      · exact absurd (inside valid) (not_le.2 beyond)
      · exact quiet busy
    obtain ⟨own, others⟩ := putFabricPos_regs unlocked v
    exact ⟨_, congrArg Host.Outcome.next e, own, others, (putFabricPos_fr s v).tbl rfl, (putFabricPos_fr s v).mem rfl⟩
  · have e : tblCfgWrite f v s = forEach (List.range 65) (writeReg s oTBL_CFG v) recastLong := if_pos may
    have noted := Fr.forEach (m := 82180) (List.range 65) recastLong (fun y p => recastLong_fr y p)
      (Fr.refl _ (writeReg s oTBL_CFG v))
    have same (p : Nat) : window (writeReg s oTBL_CFG v) p = window s p :=
      window_congr ((writeReg_fr s oTBL_CFG v).tbl rfl) p
    refine ⟨_, congrArg Host.Outcome.next e, fun o => ?_, fun p hp => ?_⟩
    · rw [noted.getR]
      exact writeReg_written s oTBL_CFG v o
    · rw [forEach_recastLong_window _ List.nodup_range, if_pos (List.mem_range.2 hp)]
      unfold notedLong
      rw [same]
      refine ⟨rfl, ?_⟩
      unfold rf
      rw [noted.getR, (writeReg_fr s oTBL_CFG v).now rfl]

end Sys2Proof.Machine

/-! ### Recast windows: R33 -/

namespace Sys2Proof.Machine

set_option Elab.async false

theorem startRebuild_alike (s : State) (l : Nat) : ComplAlike s (startRebuild s l) := by
  unfold startRebuild
  dsimp only
  split
  · exact raiseEvent_alike _ _ _ _ _
  · exact .of_eq rfl rfl rfl rfl

theorem startRebuilds_alike (s : State) : ComplAlike s (startRebuilds s) := .forEach _ _ _ startRebuild_alike

/-- A descriptor that a check of its operation ends completes with its status, and nothing else changes. -/
theorem DescReady.refused {s : State} {k : RingKind} {i : Nat} {d : List Word} {op st : Nat} (h : DescReady s k i d op)
    {f : DescOp} (e : f (popDesc s k i d) d (runKey s k i d) (ring s k i).staged =
      some (complete (popDesc s k i d) k i (runKey s k i d) st 0 0)) :
    Completed s (runHead k i op f s) k i d st 0 0 ∧ (runHead k i op f s).tbl = s.tbl ∧
      (runHead k i op f s).mem = s.mem ∧ (runHead k i op f s).coll = s.coll ∧ (runHead k i op f s).plan = s.plan := by
  have quiet : Fr 81924 (popDesc s k i d)
      (sweepBad (complete (popDesc s k i d) k i (runKey s k i d) st 0 0) k i) :=
    Fr.step (sweepBad_fr _ _ _) (complete_fr _ _ _ _ _ _ _)
  rw [h.run f e]
  exact ⟨h.completed (.refl _) _ _ _, quiet.tbl rfl, quiet.mem rfl, quiet.coll rfl, quiet.plan rfl⟩

theorem opRecastOpen_bad {i st : Nat} {d : List Word} (bad : firstCheck [cmdMask] d = some st) (s : State) (key : Nat)
    (a : Option HostAccess) : opRecastOpen i s d key a = some (complete s .cmd i key st 0 0) := by
  unfold opRecastOpen
  rw [bad]

theorem opRecastClose_bad {i st : Nat} {d : List Word} (bad : firstCheck [cmdMask] d = some st) (s : State) (key : Nat)
    (a : Option HostAccess) : opRecastClose i s d key a = some (complete s .cmd i key st 0 0) := by
  unfold opRecastClose
  rw [bad]

theorem opRecastOpen_foreign {i : Nat} {d : List Word} (ok : firstCheck [cmdMask] d = none) {s : State}
    (foreign : foreignPart s .cmd i (dPart d) = true) (key : Nat) (a : Option HostAccess) :
    opRecastOpen i s d key a = some (complete s .cmd i key stWRONG_PARTITION 0 0) := by
  unfold opRecastOpen
  rw [ok]
  exact if_pos foreign

theorem opRecastClose_foreign {i : Nat} {d : List Word} (ok : firstCheck [cmdMask] d = none) {s : State}
    (foreign : foreignPart s .cmd i (dPart d) = true) (key : Nat) (a : Option HostAccess) :
    opRecastClose i s d key a = some (complete s .cmd i key stWRONG_PARTITION 0 0) := by
  unfold opRecastClose
  rw [ok]
  exact if_pos foreign

theorem opRecastOpen_active {i : Nat} {d : List Word} (ok : firstCheck [cmdMask] d = none) {s : State}
    (own : foreignPart s .cmd i (dPart d) = false) (active : planActive s (dPart d) = true) (key : Nat)
    (a : Option HostAccess) : opRecastOpen i s d key a = some (complete s .cmd i key stPARTITION_ACTIVE 0 0) := by
  unfold opRecastOpen
  rw [ok]
  dsimp only
  rw [own, active]
  rfl

/-- The state with a partition's window open. -/
def windowOpened (s : State) (p : Nat) : State :=
  if (window s p).isOpen then s
  else setWindow s p { window s p with isOpen := true, openedAt := s.now, long := false }

theorem windowOpened_fr (s : State) (p : Nat) : Fr 256 s (windowOpened s p) := Fr.ite (Fr.refl _ s) (setWindow_fr s p _)

theorem windowOpened_window (s : State) (p : Nat) : (window (windowOpened s p) p).isOpen = true ∧
    (window (windowOpened s p) p).openedAt = (if (window s p).isOpen then (window s p).openedAt else s.now) := by
  unfold windowOpened
  split
  · next is_ => exact ⟨is_, rfl⟩
  · rw [window_setWindow]
    exact ⟨rfl, rfl⟩

theorem opRecastOpen_opens {i : Nat} {d : List Word} (ok : firstCheck [cmdMask] d = none) {s : State}
    (own : foreignPart s .cmd i (dPart d) = false) (idle : planActive s (dPart d) = false) (key : Nat)
    (a : Option HostAccess) :
    opRecastOpen i s d key a = some (complete (startRebuilds (windowOpened s (dPart d))) .cmd i key stOK 0 0) := by
  unfold opRecastOpen
  rw [ok]
  dsimp only
  rw [own, idle]
  rfl

/-- The entry of a RECAST_CLOSE among those that wait for earlier table DMA. -/
def closeWaits (s : State) (i : Nat) (d : List Word) : Window :=
  { window s (dPart d) with
    closing := (window s (dPart d)).closing ++ [(i, runKey s .cmd i d, (nth 0 d 8).toNat)] }

theorem recastClose_waits {s : State} {i : Nat} {d : List Word} (h : DescReady s .cmd i d 0x11)
    (ok : firstCheck [cmdMask] d = none) (own : foreignPart s .cmd i (dPart d) = false) :
    recastClose i s = sweepBad (setWindow (popDesc s .cmd i d) (dPart d) (closeWaits s i d)) .cmd i := by
  have popped := (popDesc_queues s .cmd i d).foreignPart .cmd i (dPart d)
  refine h.run (opRecastClose i) ?_
  unfold opRecastClose
  rw [ok]
  dsimp only
  rw [popped, own]
  rfl

theorem closeTakesEffect_held {s : State} {p : Nat} {c : Nat × Nat × Nat}
    (due : (window s p).closing.find? (fun c => !earlierDma s p c.2.2) = some c) (isOpen : (window s p).isOpen = true)
    (lock : (window s p).lock = true) : closeTakesEffect p s =
      complete (setWindow s p { window s p with closing := (window s p).closing.erase c }) .cmd c.1 c.2.1 stLOCK_HELD
        0 0 := by
  unfold closeTakesEffect
  dsimp only
  rw [due]
  dsimp only
  rw [isOpen, lock]
  rfl

theorem closeTakesEffect_closes {s : State} {p : Nat} {c : Nat × Nat × Nat}
    (due : (window s p).closing.find? (fun c => !earlierDma s p c.2.2) = some c)
    (free : (window s p).isOpen = false ∨ (window s p).lock = false) : closeTakesEffect p s =
      complete (setWindow s p { window s p with
        closing := (window s p).closing.erase c, isOpen := false, long := false }) .cmd c.1 c.2.1 stOK 0 0 := by
  unfold closeTakesEffect
  dsimp only
  rw [due]
  exact if_neg (by rcases free with no | no <;> simp [no])

theorem recastLong_late {s : State} {p lim : Nat} (isOpen : (window s p).isOpen = true)
    (fresh : (window s p).long = false) (limit : rf s oTBL_CFG 63 52 * secT = lim) :
    (recastLong (await s (window s p).openedAt (lim + 1)) p).now = max s.now ((window s p).openedAt + (lim + 1)) ∧
      (window (recastLong (await s (window s p).openedAt (lim + 1)) p) p).long = true ∧
      cntGet (recastLong (await s (window s p).openedAt (lim + 1)) p) 0x402 = (cntGet s 0x402 + 1) % 2 ^ 64 := by
  have past : (window s p).openedAt + lim < (await s (window s p).openedAt (lim + 1)).now :=
    lt_of_lt_of_le (Nat.add_lt_add_left (Nat.lt_succ_self lim) _) (le_max_right _ _)
  have same : window (await s (window s p).openedAt (lim + 1)) p = window s p := rfl
  have limit' : rf (await s (window s p).openedAt (lim + 1)) oTBL_CFG 63 52 * secT = lim := limit
  have due := recastLong_due (s := await s (window s p).openedAt (lim + 1)) (p := p) (by
    rw [same, limit', isOpen, fresh, decide_eq_true past]
    rfl)
  refine ⟨(recastLong_limit _ _).2, ?_, ?_⟩
  · rw [due, window_congr (raiseEvent_tbl ..), window_setWindow]
  · rw [due, raiseEvent_cnt _ _ _ _ _ _ (by decide), if_pos rfl]
    rfl

theorem recastExpiry_spec {s : State} {p : Nat} (isOpen : (window s p).isOpen = true)
    (fresh : (window s p).long = false) :
    (recastExpiry p s).now = max s.now ((window s p).openedAt + (rf s oTBL_CFG 63 52 * secT + 1)) ∧
      (window (recastExpiry p s) p).long = true ∧ cntGet (recastExpiry p s) 0x402 = (cntGet s 0x402 + 1) % 2 ^ 64 := by
  have e : recastExpiry p s = recastLong (await s (window s p).openedAt (rf s oTBL_CFG 63 52 * secT + 1)) p :=
    if_pos (by rw [isOpen, fresh]; rfl)
  rw [e]
  exact recastLong_late isOpen fresh rfl

/-- Settles O26: a descriptor's checks are `DescReady.refused`, an opening `opRecastOpen_opens`, a close
`recastClose_waits` and then `closeTakesEffect_held` or `closeTakesEffect_closes`. -/
theorem recastWindowsOpenAndClose : Obligations.RecastWindowsOpenAndClose := by
  unfold Obligations.RecastWindowsOpenAndClose
  refine fun s i d => ⟨fun st bad => ⟨fun h => ?_, fun h => ?_⟩, fun h ok own => ⟨fun active => ?_, fun idle => ?_⟩,
    fun h ok own => ?_, fun c op st hc hst h ok foreign => ?_, fun p c due may => ?_, fun p isOpen fresh => ?_⟩
  · exact ⟨_, rfl, (h.refused (opRecastOpen_bad bad ..)).1⟩
  · exact ⟨_, rfl, (h.refused (opRecastClose_bad bad ..)).1⟩
  · obtain ⟨done, tbl, -⟩ := h.refused (opRecastOpen_active ok
      (((popDesc_queues s .cmd i d).foreignPart .cmd i (dPart d)).trans own) active _ _)
    exact ⟨_, rfl, done, tbl⟩
  · have e := h.run (opRecastOpen i) (opRecastOpen_opens ok
      (((popDesc_queues s .cmd i d).foreignPart .cmd i (dPart d)).trans own) idle _ _)
    have opened := windowOpened_window (popDesc s .cmd i d) (dPart d)
    have alike := (ComplAlike.of (windowOpened_fr (popDesc s .cmd i d) (dPart d))).trans (startRebuilds_alike _)
    have same : (sweepBad (complete (startRebuilds (windowOpened (popDesc s .cmd i d) (dPart d))) .cmd i
        (runKey s .cmd i d) stOK 0 0) .cmd i).tbl = (windowOpened (popDesc s .cmd i d) (dPart d)).tbl :=
      (Fr.step (n := 86020) (sweepBad_fr _ _ _) (Fr.step (complete_fr _ _ _ _ _ _ _) (startRebuilds_fr _))).tbl rfl
    refine ⟨_, congrArg Host.Outcome.next e, h.completed alike _ _ _, ?_⟩
    rw [window_congr same]
    exact opened
  · have e := recastClose_waits h ok own
    have alike := ComplAlike.of (setWindow_fr (popDesc s .cmd i d) (dPart d) (closeWaits s i d))
    refine ⟨_, congrArg Host.Outcome.next e, h.started alike, ?_⟩
    rw [window_congr ((sweepBad_fr _ _ _).tbl rfl), window_setWindow]
    rfl
  · subst hst
    have foreign' := ((popDesc_queues s .cmd i d).foreignPart .cmd i (dPart d)).trans foreign
    simp only [List.mem_cons, Prod.mk.injEq, List.not_mem_nil, or_false] at hc
    rcases hc with ⟨rfl, rfl⟩ | ⟨rfl, rfl⟩
    · obtain ⟨done, tbl, -⟩ := h.refused (opRecastOpen_foreign ok foreign' _ _)
      exact ⟨_, rfl, done, tbl⟩
    · obtain ⟨done, tbl, -⟩ := h.refused (opRecastClose_foreign ok foreign' _ _)
      exact ⟨_, rfl, done, tbl⟩
  · by_cases held : (window s p).isOpen = true ∧ (window s p).lock = true
    · have e := closeTakesEffect_held due held.1 held.2
      have after : window (closeTakesEffect p s) p =
          { window s p with closing := (window s p).closing.erase c } := by
        rw [e, window_congr ((complete_fr _ _ _ _ _ _ _).tbl rfl), window_setWindow]
      refine ⟨_, rfl, by rw [after], fun _ _ => ⟨by rw [after]; exact held.1, ?_⟩, fun free => ?_⟩
      · rw [e]
        exact may.written (.of (setWindow_fr _ _ _)) _ _ _
      · rcases free with no | no
        · rw [no] at held
          exact absurd held.1 (by decide)
        · rw [no] at held
          exact absurd held.2 (by decide)
    · have free : (window s p).isOpen = false ∨ (window s p).lock = false := by
        simpa [Decidable.or_iff_not_imp_left] using held
      have e := closeTakesEffect_closes due free
      have after : window (closeTakesEffect p s) p = { window s p with
          closing := (window s p).closing.erase c, isOpen := false, long := false } := by
        rw [e, window_congr ((complete_fr _ _ _ _ _ _ _).tbl rfl), window_setWindow]
      refine ⟨_, rfl, by rw [after], fun isOpen lock => absurd ⟨isOpen, lock⟩ held, fun _ => ⟨by rw [after], ?_⟩⟩
      rw [e]
      exact may.written (.of (setWindow_fr _ _ _)) _ _ _
  · obtain ⟨now, marked, counted⟩ := recastExpiry_spec isOpen fresh
    exact ⟨_, rfl, now, marked, counted⟩

end Sys2Proof.Machine

/-! ### Table DMA: R172 to R178 -/

namespace Sys2Proof.Machine

set_option Elab.async false

/-! #### A table-DMA operation on its ring -/

/-- A table-DMA operation with the checks that go before it. -/
def tdOp (r : Nat) (f : DescOp) : DescOp := fun s d key a =>
  match tdCheck s r d with
  | some st => some (complete s (tdmaRing r).1 (tdmaRing r).2 key st 0 0)
  | none => f s d key a

theorem runTdma_eq {r i : Nat} {k : RingKind} (on : tdmaRing r = (k, i)) (op : Nat) (f : DescOp) (s : State) :
    runTdma r op f s = runHead k i op (tdOp r f) s := by
  unfold runTdma tdOp
  rw [on] <;> rfl

theorem tdDone_eq {r i : Nat} {k : RingKind} (on : tdmaRing r = (k, i)) (s : State) (key status detail count : Nat) :
    tdDone r s key status detail count = complete s k i key status detail count := by
  unfold tdDone
  rw [on]

theorem tdCheck_popDesc (s : State) (k : RingKind) (i r : Nat) (d : List Word) :
    tdCheck (popDesc s k i d) r d = tdCheck s r d := rfl

section
variable {s : State} {r i op : Nat} {k : RingKind} {d : List Word} (on : tdmaRing r = (k, i))
  (h : DescReady s k i d op)
include on h

/-- A descriptor that a check before its operation ends. -/
theorem runTdma_refused {st : Nat} (bad : tdCheck s r d = some st) (f : DescOp) :
    Completed s (runTdma r op f s) k i d st 0 0 ∧ (runTdma r op f s).tbl = s.tbl := by
  rw [runTdma_eq on]
  have refused := h.refused (f := tdOp r f) (st := st) (by
    unfold tdOp
    rw [tdCheck_popDesc, bad, on])
  exact ⟨refused.1, refused.2.1⟩

/-- A descriptor that passes them is given to its operation. -/
theorem runTdma_run {f : DescOp} {t : State} (ok : tdCheck s r d = none)
    (e : f (popDesc s k i d) d (runKey s k i d) (ring s k i).staged = some t) :
    runTdma r op f s = sweepBad t k i := by
  rw [runTdma_eq on]
  refine h.run (tdOp r f) ?_
  unfold tdOp
  rw [tdCheck_popDesc, ok]
  exact e

/-- An operation that ends with a status of its own, having changed nothing. -/
theorem runTdma_ended {f : DescOp} {st : Nat} (ok : tdCheck s r d = none)
    (e : f (popDesc s k i d) d (runKey s k i d) (ring s k i).staged =
      some (tdDone r (popDesc s k i d) (runKey s k i d) st 0 0)) :
    Completed s (runTdma r op f s) k i d st 0 0 ∧ (runTdma r op f s).tbl = s.tbl := by
  rw [runTdma_run on h ok e, tdDone_eq on]
  exact ⟨h.completed (.refl _) _ _ _,
    ((sweepBad_fr _ _ _).tbl rfl).trans ((complete_fr _ _ _ _ _ _ _).tbl rfl)⟩

end

/-! #### Counters above those of the rings -/

/-- A completion that may be written counts on its completion ring alone. -/
theorem MayComplete.counts {s : State} {k : RingKind} {i key : Nat} (h : MayComplete s k i key) (st detail count : Nat)
    {j : Nat} (hj : 0x39000 ≤ j) : cntGet (complete s k i key st detail count) j = cntGet s j := by
  have small := cqOf_lt s k i
  have ringCounter (n : Nat) (hn : n < 4) : j ≠ cRing (ringCnt .cq (cqOf s k i)) n := by
    unfold cRing ringCnt
    dsimp only
    omega
  have entry (x : State) : cntGet (irqCheck x .cq (cqOf s k i)) j = cntGet x j := by
    unfold irqCheck
    split
    · dsimp only
      rw [cntGet_congr ((raiseMsix_fr _ _ _).cnt rfl), cntGet_bump, if_neg (ringCounter 2 (by decide))]
      rfl
    · rfl
  rw [complete_eq h]
  unfold writeEntry
  dsimp only
  rw [entry, cntGet_bump, if_neg (ringCounter 0 (by decide))]
  rfl

/-- A completed descriptor leaves what its operation had counted. -/
theorem DescReady.counts {s x : State} {k : RingKind} {i : Nat} {d : List Word} {op : Nat} (h : DescReady s k i d op)
    (a : ComplAlike (popDesc s k i d) x) (st detail count : Nat) {j : Nat} (hj : 0x39000 ≤ j) :
    cntGet (sweepBad (complete x k i (runKey s k i d) st detail count) k i) j = cntGet x j := by
  have may := h.may.alike a
  have still : (ring (complete x k i (runKey s k i d) st detail count) k i).fetched = [] := by
    rw [(complete_written may st detail count).2, a.rings k i (not_eventKey (Producer.ne_eq may.2.1)
      (lt_of_lt_of_le may.1 (ringCount_le k))), popDesc_ring, h.1]
    rfl
  rw [sweepBad_of_empty still, may.counts st detail count hj]

theorem completed_tbl (s : State) (k : RingKind) (i key st detail count : Nat) :
    (sweepBad (complete s k i key st detail count) k i).tbl = s.tbl :=
  ((sweepBad_fr _ _ _).tbl rfl).trans ((complete_fr _ _ _ _ _ _ _).tbl rfl)

/-! #### WRITE -/

/-- A WRITE whose entries lie before it stores them and completes (R175). -/
theorem tdmaWrite_given {s : State} {r i : Nat} {k : RingKind} {d : List Word} {b : List Byte}
    {w : State × Nat × Nat} (on : tdmaRing r = (k, i)) (h : DescReady s k i d 1) (ok : tdCheck s r d = none)
    (given : if tdInline d then b = bytesOfWords (d.drop 4)
      else HostGave s k i (tdAddr d) (entryBytes (tdTable d) * tdCount d) b)
    (stored : writeEntries (pieces (entryBytes (tdTable d)) (tdCount d) b) (popDesc s k i d) r (tdTable d) (tdIndex d)
      0 = w) :
    tdmaWrite r s = sweepBad (complete w.1 k i (runKey s k i d) w.2.1 0 w.2.2) k i := by
  have popped := popDesc_queues s k i d
  have got : (if tdInline d then some (bytesOfWords (d.drop 4), none)
      else hostIn s k i (tdAddr d) (entryBytes (tdTable d) * tdCount d) (ring s k i).staged) =
      some (b, (none : Option Nat)) := by
    split at given
    · next inline => rw [given, if_pos inline]
    · next host => rw [if_neg host, given.hostIn]
  refine runTdma_run on h ok ?_
  unfold opTdmaWrite
  rw [on]
  dsimp only
  rw [popped.hostIn, got]
  dsimp only
  rw [stored]
  split
  · next fine => rw [tdDone_eq on, fine]
  · rw [tdDone_eq on]

theorem leNat_leBytes (n v : Nat) : leNat (leBytes n v) = v % 256 ^ n := by
  induction n generalizing v with
  | zero => simp [leBytes, leNat, Nat.mod_one]
  | succ n ih =>
    have byte : v % 256 % 2 ^ 8 = v % 256 := by omega
    rw [leBytes, leNat, ih, BitVec.toNat_ofNat, byte, pow_succ', Nat.mod_mul]

theorem sliceB_whole (l : List Byte) : sliceB l 0 l.length = l := by
  unfold sliceB
  dsimp only
  rw [List.drop_zero, List.take_length, Nat.sub_self, List.replicate_zero, List.append_nil]

/-- The word at the head of a word's own bytes. -/
theorem wordAt_leBytes (w : Word) : wordAt (leBytes 8 w.toNat) 0 = w := by
  have whole := sliceB_whole (leBytes 8 w.toNat)
  rw [leBytes_length] at whole
  unfold wordAt leAt
  rw [Nat.mul_zero, whole, leNat_leBytes]
  refine BitVec.eq_of_toNat_eq ?_
  have bound := w.isLt
  rw [BitVec.toNat_ofNat]
  omega

/-- The one entry of an inline descriptor whose entry is a word. -/
theorem pieces_inline {d : List Word} (len : 4 < d.length) :
    pieces 8 1 (bytesOfWords (d.drop 4)) = [leBytes 8 (nth 0 d 4).toNat] := by
  have split_ : d.drop 4 = nth 0 d 4 :: d.drop 5 := by
    unfold nth
    rw [List.drop_eq_getElem_cons len, List.getD_eq_getElem _ _ len]
  rw [split_, bytesOfWords]
  unfold pieces
  have long := leBytes_length 8 (nth 0 d 4).toNat
  rw [List.length_append, long, if_neg (by omega)]
  unfold pieces
  rw [List.take_append_of_le_length (le_of_eq long.symm), List.take_of_length_le (le_of_eq long)]

/-- An inline WRITE has one entry (R175). -/
theorem tdCount_inline {s : State} {r : Nat} {d : List Word} (ok : tdCheck s r d = none) (inline : tdInline d = true)
    (op : dOp d = 1) : tdCount d = 1 := by
  have good : tdBadOp d = false := by
    unfold tdCheck at ok
    cases bad : tdBadOp d with
    | false => rfl
    | true =>
      rw [bad] at ok
      exact absurd ok (by simp)
  unfold tdBadOp at good
  simp only [op, inline, Bool.or_eq_false_iff, Bool.and_eq_false_imp, Bool.true_and, decide_eq_true_eq] at good
  have one := good.2 (by decide)
  simpa using one.1

theorem saveBefore_unlocked {s : State} {part : Nat} (free : (window s part).lock = false) (table index value : Nat) :
    saveBefore s part table index value = some s := if_pos (by rw [free]; rfl)

/-- A route entry of a partition's own, with its format kept, is stored as written. -/
theorem writeTable_route {s : State} {part index : Nat} {w : Word} (free : (window s part).lock = false)
    (owned : rtValid (tget 0 s.tbl.route index) = true → rtPart (tget 0 s.tbl.route index) = part)
    (good : rtValid w = true → rtPart w = part ∧ routeOk w = true) :
    writeTable s part tbROUTE index (leBytes 8 w.toNat) =
      ({ s with tbl := { s.tbl with route := tset 0 s.tbl.route index w } }, stOK) := by
  have old : (rtValid (tget 0 s.tbl.route index) && rtPart (tget 0 s.tbl.route index) != part) = false := by
    cases valid : rtValid (tget 0 s.tbl.route index) with
    | false => rfl
    | true => rw [Bool.true_and, bne_eq_false_iff_eq, owned valid]
  have new : (rtValid w && rtPart w != part) = false ∧ (rtValid w && !routeOk w) = false := by
    cases valid : rtValid w with
    | false => exact ⟨rfl, rfl⟩
    | true => simp [good valid]
  unfold writeTable
  dsimp only
  rw [wordAt_leBytes, if_pos rfl, old, new.1, new.2]
  unfold saveThen
  rw [saveBefore_unlocked free]
  rfl

/-! #### READ -/

theorem bytesOfWords_length (l : List Word) : (bytesOfWords l).length = 8 * l.length := by
  induction l with
  | nil => rfl
  | cons w l ih =>
    rw [bytesOfWords, List.length_append, leBytes_length, ih, List.length_cons]
    omega

/-- An entry of a table of R173 has its table's size. -/
theorem readEntry_length (s : State) {table : Nat} (low : 1 ≤ table) (high : table ≤ 7) (index : Nat) :
    (readEntry s table index).length = entryBytes table := by
  obtain rfl | rfl | rfl | rfl | rfl | rfl | rfl :
      table = 1 ∨ table = 2 ∨ table = 3 ∨ table = 4 ∨ table = 5 ∨ table = 6 ∨ table = 7 := by omega
  · exact leBytes_length 8 _
  · exact bytesOfWords_length _
  · exact leBytes_length 8 _
  · exact leBytes_length 8 _
  · change (leBytes 256 _ ++ leBytes 8 _ ++ List.replicate 760 0).length = 1024
    rw [List.length_append, List.length_append, leBytes_length, leBytes_length, List.length_replicate]
  · exact leBytes_length 4 _
  · exact leBytes_length 16 _

theorem readEntries_length (s : State) {table : Nat} (low : 1 ≤ table) (high : table ≤ 7) (index n : Nat) :
    ((List.range n).map fun j => readEntry s table (index + j)).flatten.length = entryBytes table * n := by
  rw [List.length_flatten, List.map_map]
  have each : (List.length ∘ fun j => readEntry s table (index + j)) = fun _ => entryBytes table := by
    funext j
    exact readEntry_length s low high _
  rw [each, List.map_const', List.length_range, List.sum_replicate, smul_eq_mul, Nat.mul_comm]

theorem tdTable_read {s : State} {r : Nat} {d : List Word} (ok : tdCheck s r d = none) (op : dOp d = 2) :
    1 ≤ tdTable d ∧ tdTable d ≤ 7 := by
  have good : tdBadOp d = false := by
    unfold tdCheck at ok
    cases bad : tdBadOp d with
    | false => rfl
    | true =>
      rw [bad] at ok
      exact absurd ok (by simp)
  unfold tdBadOp at good
  simp only [op, Bool.or_eq_false_iff] at good
  have range := good.1.1.1.2
  simpa using range

theorem tdmaRead_taken {s : State} {r i : Nat} {k : RingKind} {d : List Word} (on : tdmaRing r = (k, i))
    (h : DescReady s k i d 2) (ok : tdCheck s r d = none)
    (takes : HostTakes s k i (tdAddr d) (entryBytes (tdTable d) * tdCount d)) :
    tdmaRead r s = sweepBad (complete (emitAll (popDesc s k i d) (dmaWrites (descOwner s k i) (tdAddr d)
      ((List.range (tdCount d)).map fun j => readEntry s (tdTable d) (tdIndex d + j)).flatten)) k i (runKey s k i d)
      stOK 0 0) k i := by
  obtain ⟨low, high⟩ := tdTable_read ok h.2.1
  have out := hostOut_whole (x := popDesc s k i d) takes
    (readEntries_length s low high (tdIndex d) (tdCount d)).le ((popDesc_queues s k i d).descOwner k i)
  refine runTdma_run on h ok ?_
  unfold opTdmaRead
  rw [on]
  dsimp only
  have same : (fun j => readEntry (popDesc s k i d) (tdTable d) (tdIndex d + j)) =
      fun j => readEntry s (tdTable d) (tdIndex d + j) := rfl
  rw [same, out, tdDone_eq on]

/-- Settles O27: checks are `runTdma_refused`, a WRITE `tdmaWrite_given`, a READ `tdmaRead_taken`. -/
theorem tableDmaWritesAndReads : Obligations.TableDmaWritesAndReads := by
  unfold Obligations.TableDmaWritesAndReads
  refine fun s r k i d on hr => ⟨fun c op st hc h bad => ?_, fun b h ok given => ?_,
    fun h ok inline table len free owned good => ?_, fun h ok takes => ?_⟩
  · simp only [List.mem_cons, Prod.mk.injEq, List.not_mem_nil, or_false] at hc
    rcases hc with ⟨rfl, rfl⟩ | ⟨rfl, rfl⟩ | ⟨rfl, rfl⟩ | ⟨rfl, rfl⟩ | ⟨rfl, rfl⟩ | ⟨rfl, rfl⟩ | ⟨rfl, rfl⟩ <;>
      exact ⟨_, rfl, runTdma_refused on h bad _⟩
  · refine ⟨_, rfl, fun w stored => ?_⟩
    have e := tdmaWrite_given on h ok given stored
    have alike : ComplAlike (popDesc s k i d) w.1 := by
      rw [← stored]
      exact .of (writeEntries_fr _ _ _ _ _ _)
    rw [e]
    exact ⟨completed_tbl _ _ _ _ _ _ _, h.completed alike _ _ _⟩
  · have count := tdCount_inline ok inline h.2.1
    have stored := writeTable_route (s := popDesc s k i d) (index := tdIndex d) (w := nth 0 d 4) free owned good
    have entries : writeEntries (pieces (entryBytes (tdTable d)) (tdCount d) (bytesOfWords (d.drop 4)))
        (popDesc s k i d) r (tdTable d) (tdIndex d) 0 =
        (bump { popDesc s k i d with tbl := { s.tbl with route := tset 0 s.tbl.route (tdIndex d) (nth 0 d 4) } } (cMod 8),
          stOK, 1) := by
      rw [count, table]
      refine (congrArg (fun l => writeEntries l (popDesc s k i d) r tbROUTE (tdIndex d) 0)
        (pieces_inline (by omega))).trans ?_
      unfold writeEntries
      dsimp only
      rw [stored]
      rfl
    have e := tdmaWrite_given on h ok (by rw [inline]; rfl) entries
    have alike : ComplAlike (popDesc s k i d)
        (bump { popDesc s k i d with tbl := { s.tbl with route := tset 0 s.tbl.route (tdIndex d) (nth 0 d 4) } }
          (cMod 8)) := .of_eq rfl rfl rfl rfl
    refine ⟨_, congrArg Host.Outcome.next e, h.completed alike _ _ _, fun x => ?_, ?_⟩
    · rw [completed_tbl]
      split
      · next here =>
        subst here
        exact tget_tset_same ..
      · next other => exact tget_tset_other _ _ _ _ _ _ other
    · rw [h.counts alike _ _ _ (by decide), cntGet_bump, if_pos rfl]
      rfl
  · have e := tdmaRead_taken on h ok takes
    have alike := ComplAlike.of (emitAll_fr (popDesc s k i d) (dmaWrites (descOwner s k i) (tdAddr d)
      ((List.range (tdCount d)).map fun j => readEntry s (tdTable d) (tdIndex d + j)).flatten))
    exact ⟨_, congrArg Host.Outcome.next e, h.completed alike _ _ _, completed_tbl _ _ _ _ _ _ _,
      fun o sent => h.sent alike _ _ _ (List.mem_append_right _ sent)⟩

end Sys2Proof.Machine

/-! ### The exact-match engine, LOCK, UNLOCK and PURGE: R164, R165, R174, R177 to R179 -/

namespace Sys2Proof.Machine

set_option Elab.async false

/-! #### Exact-match entries -/

theorem emSlot_congr {s t : State} (h : t.tbl = s.tbl) (j : Nat) : emSlot t j = emSlot s j := by
  unfold emSlot
  rw [h]

theorem emSlot_setEm_ite (s : State) (i : Nat) (e : EmEntry) (j : Nat) :
    emSlot (setEm s i e) j = if j = i then e else emSlot s j := by
  split
  · next same =>
    subst same
    exact tget_tset_same ..
  · next other => exact tget_tset_other _ _ _ _ _ _ other

theorem emReplace_tbl (s : State) (i : Nat) (e : EmEntry) : (emReplace s i e).tbl = (setEm s i e).tbl := by
  unfold emReplace
  dsimp only
  split <;> rfl

theorem emClear_tbl (s : State) (i : Nat) : (emClear s i).tbl = (setEm s i {}).tbl := by
  unfold emClear
  dsimp only
  split <;> rfl

/-- A deleted region's granules wait for their scrub (R304). -/
theorem emClear_scrubs {s : State} {i : Nat} (region : fld (emSlot s i).e0 63 56 = 1) :
    (emClear s i).mem.scrubbing =
      s.mem.scrubbing ++ [(rgBase (emVal (emSlot s i)), rgSize (emVal (emSlot s i)))] :=
  congrArg (fun t : State => t.mem.scrubbing) (if_pos region)

/-- The slot of a key holds the key. -/
theorem emFind_key {s : State} {e0 e1 : Word} {slot : Nat} (found : emFind s e0 e1 = some slot) :
    (emSlot s slot).e0 = e0 := by
  have holds := List.find?_some found
  simp only [Bool.and_eq_true, beq_iff_eq] at holds
  exact holds.1.2

/-- An insert with room in its slot or in a free candidate, its view unlocked (R164). -/
theorem emPut_stores {s : State} {r slot : Nat} {e : EmEntry} (free : (window s r).lock = false)
    (place : emFind s e.e0 e.e1 = some slot ∨ (emFind s e.e0 e.e1 = none ∧
      (emCands s e.e0 e.e1).find? (fun j => !emValid (emSlot s j)) = some slot)) :
    (emPut s r e).2 = stOK ∧ (emPut s r e).1.tbl = (setEm s slot e).tbl := by
  unfold emPut
  dsimp only
  rw [saveBefore_unlocked free]
  rcases place with found | ⟨absent, room⟩
  · rw [found]
    exact ⟨rfl, emReplace_tbl s slot e⟩
  · rw [absent]
    have placed : emPlace s e = (setEm s slot e, true) := by
      unfold emPlace
      dsimp only
      rw [room]
    dsimp only
    rw [placed]
    exact ⟨rfl, rfl⟩

section
variable {s : State} {r i : Nat} {k : RingKind} {d : List Word} (on : tdmaRing r = (k, i))
  (ok : tdCheck s r d = none)
include on ok

theorem emInsert_absent (h : DescReady s k i d 3) (region : fld (nth 0 d 4) 63 56 = 1) (no : hasStacks s = false) :
    Completed s (emInsert r s) k i d stUNIT_ABSENT 0 0 ∧ (emInsert r s).tbl = s.tbl := by
  have absent : (!hasStacks (popDesc s k i d)) = true := by
    rw [show hasStacks (popDesc s k i d) = hasStacks s from rfl, no]
    rfl
  exact runTdma_ended on h ok (if_pos ⟨region, absent⟩)

end

/-- The unit that an insert needs is present. -/
theorem insert_present {s : State} {k : RingKind} {i : Nat} {d : List Word} (unit : fld (nth 0 d 4) 63 56 ≠ 1 ∨ hasStacks s = true) :
    ¬ (fld (emInline d).e0 63 56 = 1 ∧ (!hasStacks (popDesc s k i d)) = true) := by
  rw [show hasStacks (popDesc s k i d) = hasStacks s from rfl]
  rintro ⟨region, no⟩
  rcases unit with other | here
  · exact other region
  · simp [here] at no

section
variable {s : State} {r i : Nat} {k : RingKind} {d : List Word} (on : tdmaRing r = (k, i))
  (ok : tdCheck s r d = none)
include on ok

theorem emInsert_foreign (h : DescReady s k i d 3) (unit : fld (nth 0 d 4) 63 56 ≠ 1 ∨ hasStacks s = true)
    (foreign : fld (nth 0 d 4) 55 49 ≠ r) :
    Completed s (emInsert r s) k i d stWRONG_PARTITION 0 0 ∧ (emInsert r s).tbl = s.tbl := by
  exact runTdma_ended on h ok ((if_neg (insert_present unit)).trans (if_pos foreign))

theorem emInsert_bad (h : DescReady s k i d 3) (unit : fld (nth 0 d 4) 63 56 ≠ 1 ∨ hasStacks s = true)
    (own : fld (nth 0 d 4) 55 49 = r) (bad : emFormatOk (emInline d) r = false ∨ (fld (nth 0 d 4) 63 56 = 1 ∧
      regionOk s (emVal (emInline d)) (emFind s (nth 0 d 4) (nth 0 d 5)) = false)) :
    Completed s (emInsert r s) k i d stBAD_ENTRY 0 0 ∧ (emInsert r s).tbl = s.tbl := by
  have wrong : (!emFormatOk (emInline d) r || (fld (emInline d).e0 63 56 == 1 &&
      !regionOk (popDesc s k i d) (emVal (emInline d)) (emFind (popDesc s k i d) (emInline d).e0 (emInline d).e1))) =
      true := by
    rcases bad with format | ⟨region, range⟩
    · rw [format]
      rfl
    · have range' : regionOk (popDesc s k i d) (emVal (emInline d))
          (emFind (popDesc s k i d) (emInline d).e0 (emInline d).e1) = false := range
      rw [range', show fld (emInline d).e0 63 56 = 1 from region]
      simp
  exact runTdma_ended on h ok ((if_neg (insert_present unit)).trans ((if_neg (not_not.2 own)).trans (if_pos wrong)))

/-- An insert that passes its checks stores its entry and completes. -/
theorem emInsert_stored {slot : Nat} (h : DescReady s k i d 3)
    (unit : fld (nth 0 d 4) 63 56 ≠ 1 ∨ hasStacks s = true) (own : fld (nth 0 d 4) 55 49 = r)
    (format : emFormatOk (emInline d) r = true)
    (region : fld (nth 0 d 4) 63 56 = 1 →
      regionOk s (emVal (emInline d)) (emFind s (nth 0 d 4) (nth 0 d 5)) = true ∧
        ∀ j, emFind s (nth 0 d 4) (nth 0 d 5) = some j → regionBusy s (emVal (emSlot s j)) = false)
    (free : (window s r).lock = false)
    (place : emFind s (nth 0 d 4) (nth 0 d 5) = some slot ∨ (emFind s (nth 0 d 4) (nth 0 d 5) = none ∧
      (emCands s (nth 0 d 4) (nth 0 d 5)).find? (fun j => !emValid (emSlot s j)) = some slot)) :
    emInsert r s = sweepBad (complete (bump (emPut (popDesc s k i d) r (emInline d)).1 (cMod 8)) k i
      (runKey s k i d) stOK 0 1) k i ∧
      (emPut (popDesc s k i d) r (emInline d)).1.tbl = (setEm (popDesc s k i d) slot (emInline d)).tbl := by
  obtain ⟨stored, tbl⟩ := emPut_stores (s := popDesc s k i d) (r := r) (e := emInline d) free place
  have right : ¬ (!emFormatOk (emInline d) r || (fld (emInline d).e0 63 56 == 1 &&
      !regionOk (popDesc s k i d) (emVal (emInline d)) (emFind (popDesc s k i d) (emInline d).e0 (emInline d).e1))) =
      true := by
    rw [format]
    simp only [Bool.not_true, Bool.false_or, Bool.and_eq_true, beq_iff_eq, not_and, Bool.not_eq_true]
    intro isRegion
    have range : regionOk (popDesc s k i d) (emVal (emInline d))
      (emFind (popDesc s k i d) (emInline d).e0 (emInline d).e1) = true := (region isRegion).1
    rw [range]
    rfl
  have idle : ¬ (fld (emInline d).e0 63 56 == 1 && (emFind (popDesc s k i d) (emInline d).e0 (emInline d).e1).any
      fun j => regionBusy (popDesc s k i d) (emVal (emSlot (popDesc s k i d) j))) = true := by
    simp only [Bool.and_eq_true, beq_iff_eq, not_and, Bool.not_eq_true]
    intro isRegion
    cases found : emFind (popDesc s k i d) (emInline d).e0 (emInline d).e1 with
    | none => rfl
    | some j => exact (region isRegion).2 j found
  have own' : ¬ fld (emInline d).e0 55 49 ≠ r := not_not.2 own
  refine ⟨runTdma_run on h ok ?_, tbl⟩
  unfold opEmInsert
  dsimp only
  rw [if_neg (insert_present unit), if_neg own', if_neg right, if_neg idle, if_pos stored, tdDone_eq on]

theorem emDelete_foreign (h : DescReady s k i d 4) (foreign : fld (nth 0 d 4) 55 49 ≠ r) :
    Completed s (emDelete r s) k i d stWRONG_PARTITION 0 0 ∧ (emDelete r s).tbl = s.tbl :=
  runTdma_ended on h ok (if_pos foreign)

theorem emDelete_unknown (h : DescReady s k i d 4) (own : fld (nth 0 d 4) 55 49 = r)
    (absent : emFind s (nth 0 d 4) (nth 0 d 5) = none) :
    Completed s (emDelete r s) k i d stNOT_FOUND 0 0 ∧ (emDelete r s).tbl = s.tbl := by
  have absent' : emFind (popDesc s k i d) (nth 0 d 4) (nth 0 d 5) = none := absent
  refine runTdma_ended on h ok ?_
  unfold opEmDelete
  dsimp only
  rw [if_neg (not_not.2 own), absent']

theorem emDelete_cleared {slot : Nat} (h : DescReady s k i d 4) (own : fld (nth 0 d 4) 55 49 = r)
    (found : emFind s (nth 0 d 4) (nth 0 d 5) = some slot)
    (idle : fld (nth 0 d 4) 63 56 = 1 → regionBusy s (emVal (emSlot s slot)) = false)
    (free : (window s r).lock = false) :
    emDelete r s = sweepBad (complete (bump (emClear (popDesc s k i d) slot) (cMod 8)) k i (runKey s k i d) stOK 0 1)
      k i := by
  have found' : emFind (popDesc s k i d) (nth 0 d 4) (nth 0 d 5) = some slot := found
  have idle' : ¬ (fld (nth 0 d 4) 63 56 = 1 ∧
      regionBusy (popDesc s k i d) (emVal (emSlot (popDesc s k i d) slot)) = true) := by
    rintro ⟨region, busy⟩
    have quiet : regionBusy (popDesc s k i d) (emVal (emSlot (popDesc s k i d) slot)) = false := idle region
    rw [quiet] at busy
    exact absurd busy (by decide)
  refine runTdma_run on h ok ?_
  unfold opEmDelete
  dsimp only
  rw [if_neg (not_not.2 own), found']
  dsimp only
  rw [if_neg idle', saveBefore_unlocked (s := popDesc s k i d) free]
  exact congrArg some (tdDone_eq on _ _ _ _ _)

end

/-- Settles O28: an insert is `emInsert_stored`, a delete `emDelete_cleared`. -/
theorem exactMatchInsertedAndDeleted : Obligations.ExactMatchInsertedAndDeleted := by
  unfold Obligations.ExactMatchInsertedAndDeleted
  refine fun s r k i d on hr ok => ⟨fun h region no => ⟨_, rfl, emInsert_absent on ok h region no⟩,
    fun h unit => ⟨fun foreign => ⟨_, rfl, emInsert_foreign on ok h unit foreign⟩,
      fun own bad => ⟨_, rfl, emInsert_bad on ok h unit own bad⟩, fun slot own format region free place => ?_⟩,
    fun h => ⟨fun foreign => ⟨_, rfl, emDelete_foreign on ok h foreign⟩,
      fun own absent => ⟨_, rfl, emDelete_unknown on ok h own absent⟩, fun slot own found idle free => ?_⟩⟩
  · obtain ⟨e, tbl⟩ := emInsert_stored on ok h unit own format region free place
    have alike : ComplAlike (popDesc s k i d) (bump (emPut (popDesc s k i d) r (emInline d)).1 (cMod 8)) :=
      (ComplAlike.of (emPut_fr _ _ _)).trans (.of (bump_fr _ _))
    have after := (completed_tbl (bump (emPut (popDesc s k i d) r (emInline d)).1 (cMod 8)) k i (runKey s k i d) stOK
      0 1).trans tbl
    refine ⟨_, congrArg Host.Outcome.next e, h.completed alike _ _ _, fun j => ?_, ?_⟩
    · rw [emSlot_congr after, emSlot_setEm_ite]
      rfl
    · exact (congrArg Tbl.route after).trans rfl
  · have e := emDelete_cleared on ok h own found idle free
    have alike : ComplAlike (popDesc s k i d) (bump (emClear (popDesc s k i d) slot) (cMod 8)) :=
      (ComplAlike.of (emClear_fr _ _)).trans (.of (bump_fr _ _))
    have after := (completed_tbl (bump (emClear (popDesc s k i d) slot) (cMod 8)) k i (runKey s k i d) stOK
      0 1).trans (emClear_tbl (popDesc s k i d) slot)
    refine ⟨_, congrArg Host.Outcome.next e, h.completed alike _ _ _, fun j => ?_, fun region => ?_⟩
    · rw [emSlot_congr after, emSlot_setEm_ite]
      rfl
    · rw [completed_mem]
      exact emClear_scrubs (s := popDesc s k i d) ((congrArg (fld · 63 56) (emFind_key found)).trans region)

/-! #### LOCK and UNLOCK -/

section
variable {s : State} {r i : Nat} {k : RingKind} {d : List Word} (on : tdmaRing r = (k, i))
  (ok : tdCheck s r d = none)
include on ok

theorem tdmaLock_eq (h : DescReady s k i d 5) : tdmaLock r s =
    sweepBad (complete (setWindow (popDesc s k i d) r { window s r with lock := true }) k i (runKey s k i d) stOK 0 0)
      k i :=
  runTdma_run on h ok (congrArg some (tdDone_eq on _ _ _ _ _))

theorem tdmaUnlock_eq (h : DescReady s k i d 6) : tdmaUnlock r s =
    sweepBad (complete (unlockPart (popDesc s k i d) r) k i (runKey s k i d) stOK 0 0) k i :=
  runTdma_run on h ok (congrArg some (tdDone_eq on _ _ _ _ _))

/-- The state in which a PURGE has begun. -/
def purgeBegun (s : State) (r key : Nat) (d : List Word) : State :=
  { s with tbl := { s.tbl with
    purges := tset {} s.tbl.purges r { part := r, table := tdTable d, ring := r + 1, tag := key } } }

theorem tdmaPurge_eq (h : DescReady s k i d 7) : tdmaPurge r s =
    sweepBad (purgeBegun (popDesc s k i d) r (runKey s k i d) d) k i :=
  runTdma_run on h ok rfl

end

theorem unlockPart_spec (s : State) (r : Nat) : window (unlockPart s r) r = { window s r with lock := false } ∧
    (unlockPart s r).tbl.shadow = s.tbl.shadow.filter fun b => b.part != r :=
  ⟨window_setWindow s r _, rfl⟩

/-! #### PURGE -/

/-- Without a LOCK every listed route entry goes. -/
theorem purgeEntries_routes {part : Nat} (l : List (Nat × Nat)) {s : State} (free : (window s part).lock = false)
    (n : Nat) (e : Nat) :
    tget 0 (purgeEntries part tbROUTE l s n).1.tbl.route e =
      if e ∈ l.map (·.1) then 0 else tget 0 s.tbl.route e := by
  induction l generalizing s n with
  | nil => rfl
  | cons x l ih =>
    have gone : ∀ e, tget 0 (invalidate s tbROUTE x.1).tbl.route e = if e = x.1 then 0 else tget 0 s.tbl.route e := by
      intro e
      have route : (invalidate s tbROUTE x.1).tbl.route = tset 0 s.tbl.route x.1 0 := rfl
      rw [route]
      split
      · next here =>
        subst here
        exact tget_tset_same ..
      · next other => exact tget_tset_other _ _ _ _ _ _ other
    have unlocked : (window (invalidate s tbROUTE x.1) part).lock = false := free
    unfold purgeEntries
    rw [saveBefore_unlocked free]
    dsimp only
    rw [ih unlocked, gone, List.map_cons]
    by_cases here : e = x.1
    · rw [if_pos here, ite_self, if_pos (by rw [here]; exact List.mem_cons_self)]
    · rw [if_neg here]
      by_cases later : e ∈ l.map (·.1)
      · rw [if_pos later, if_pos (List.mem_cons_of_mem _ later)]
      · rw [if_neg later, if_neg fun mem => (List.mem_cons.1 mem).elim here later]

theorem rtValid_zero : rtValid (0 : Word) = false := by decide

/-- After a PURGE of the route table, without a LOCK, the partition has no valid route (R174). -/
theorem purge_leaves_no_route {s : State} {part : Nat} (free : (window s part).lock = false) (e : Nat)
    (valid : rtValid (tget 0 (purgeAll part (purgeTables tbROUTE) s 0).1.tbl.route e) = true) :
    rtPart (tget 0 (purgeAll part (purgeTables tbROUTE) s 0).1.tbl.route e) ≠ part := by
  have only : (purgeAll part (purgeTables tbROUTE) s 0).1 =
      (purgeEntries part tbROUTE (ownedEntries s part tbROUTE) s 0).1 := by
    have one : purgeTables tbROUTE = [tbROUTE] := rfl
    rw [one]
    unfold purgeAll
    dsimp only
    split <;> rfl
  rw [only, purgeEntries_routes _ free] at valid ⊢
  split at valid
  · rw [rtValid_zero] at valid
    exact absurd valid (by decide)
  · next out =>
    rw [if_neg out]
    intro owned
    rcases tget_eq_or_mem 0 s.tbl.route e with dflt | mem
    · rw [dflt, rtValid_zero] at valid
      exact absurd valid (by decide)
    · refine out (List.mem_map.2 ⟨(e, (tget 0 s.tbl.route e).toNat), ?_, rfl⟩)
      refine List.mem_map.2 ⟨(e, tget 0 s.tbl.route e), List.mem_filter.2 ⟨mem, ?_⟩, rfl⟩
      dsimp only
      rw [valid, owned]
      simp

/-- The state in which a PURGE has invalidated what it could, before it completes. -/
def purged (s : State) (r : Nat) : State :=
  let p := tget ({} : Purge) s.tbl.purges r
  let w := purgeAll p.part (purgeTables p.table) s 0
  { w.1 with tbl := { w.1.tbl with purges := tset {} w.1.tbl.purges r {} } }

theorem purged_fr (s : State) (r : Nat) : Fr 4352 s (purged s r) := Fr.put_tbl _ (purgeAll_fr _ _ _ _)

theorem purgeComplete_eq {s : State} {r i : Nat} {k : RingKind} (on : tdmaRing r = (k, i))
    (runs : (tget ({} : Purge) s.tbl.purges r).ring ≠ 0)
    (idle : purgeBusy s (tget ({} : Purge) s.tbl.purges r).part (purgeTables (tget ({} : Purge) s.tbl.purges r).table) =
      false) :
    purgeComplete r s = sweepBad (complete (purged s r) k i (tget ({} : Purge) s.tbl.purges r).tag
      (if (purgeAll (tget ({} : Purge) s.tbl.purges r).part (purgeTables (tget ({} : Purge) s.tbl.purges r).table) s
        0).2.2 then stSHADOW_FULL else stOK) 0
      (purgeAll (tget ({} : Purge) s.tbl.purges r).part (purgeTables (tget ({} : Purge) s.tbl.purges r).table) s
        0).2.1) k i := by
  unfold purgeComplete
  dsimp only
  rw [if_neg (by rw [idle]; simp [runs]), tdDone_eq on, on]
  rfl

/-- Settles O29: the three operations are their equations, the end of a PURGE `purge_leaves_no_route`. -/
theorem locksAndPurges : Obligations.LocksAndPurges := by
  unfold Obligations.LocksAndPurges
  refine fun s r k i d on hr => ⟨fun h ok => ?_, fun h ok => ?_, fun h ok => ?_,
    fun p w hp runs idle may alone hw => ?_⟩
  · have e := tdmaLock_eq on ok h
    have alike := ComplAlike.of (setWindow_fr (popDesc s k i d) r { window s r with lock := true })
    refine ⟨_, congrArg Host.Outcome.next e, h.completed alike _ _ _, ?_, ?_⟩
    · rw [window_congr (completed_tbl ..), window_setWindow]
    · rw [completed_tbl]
      rfl
  · have e := tdmaUnlock_eq on ok h
    obtain ⟨unlocked, released⟩ := unlockPart_spec (popDesc s k i d) r
    have alike := ComplAlike.of (unlockPart_fr (popDesc s k i d) r)
    refine ⟨_, congrArg Host.Outcome.next e, h.completed alike _ _ _, ?_, ?_⟩
    · rw [window_congr (completed_tbl ..), unlocked]
      rfl
    · rw [completed_tbl, released]
      rfl
  · have e := tdmaPurge_eq on ok h
    have alike : ComplAlike (popDesc s k i d) (purgeBegun (popDesc s k i d) r (runKey s k i d) d) :=
      .of_eq rfl rfl rfl rfl
    have same : (sweepBad (purgeBegun (popDesc s k i d) r (runKey s k i d) d) k i).tbl =
      (purgeBegun (popDesc s k i d) r (runKey s k i d) d).tbl := (sweepBad_fr _ _ _).tbl rfl
    refine ⟨_, congrArg Host.Outcome.next e, h.started alike, ?_, ?_⟩
    · rw [same]
      rfl
    · rw [same]
      exact tget_tset_same ..
  · subst hp
    have e := purgeComplete_eq on runs idle
    have alike := ComplAlike.of (purged_fr s r)
    have may' := may.alike alike
    have hi : i < 256 := lt_of_lt_of_le may.1 (ringCount_le k)
    have still (st detail count : Nat) :
        (ring (complete (purged s r) k i (tget ({} : Purge) s.tbl.purges r).tag st detail count) k i).fetched = [] := by
      rw [(complete_written may' st detail count).2, alike.rings k i (not_eventKey (Producer.ne_eq may.2.1) hi)]
      exact alone
    rw [hw, sweepBad_of_empty (still _ _ _)] at e
    have same : (complete (purged s r) k i (tget ({} : Purge) s.tbl.purges r).tag
      (if w.2.2 then stSHADOW_FULL else stOK) 0 w.2.1).tbl = (purged s r).tbl := (complete_fr _ _ _ _ _ _ _).tbl rfl
    refine ⟨_, congrArg Host.Outcome.next e, ?_, may.written alike _ _ _, fun route free e valid => ?_⟩
    · rw [same]
      exact tget_tset_same ..
    · have routes : (purged s r).tbl.route =
          (purgeAll (tget ({} : Purge) s.tbl.purges r).part (purgeTables tbROUTE) s 0).1.tbl.route := by
        rw [← route]
        rfl
      rw [same, routes] at valid ⊢
      exact purge_leaves_no_route free e valid

end Sys2Proof.Machine

/-! ### Management packets: R168 -/

namespace Sys2Proof.Machine

set_option Elab.async false

/-- The packet with its hop limit one less. -/
def hopped (pkt : List Byte) : List Byte := putBytes pkt 7 [BitVec.ofNat 8 (leAt pkt 7 1 - 1)]

/-- The frame that carries a routed packet. -/
def packetFrame (w : Word) (self : Nat) (pkt : List Byte) : Frame :=
  { dest := fld w 23 0, src := self, type := tMGMT, tc := 1, length := pkt.length, payload := pkt }

/-- What an action of the trie's result does with a packet. -/
def routeAct (s : State) (w : Word) (pkt : List Byte) (act : Nat) : State :=
  if act = 1 then
    match selfEid s with
    | none => s
    | some self => if 4096 < pkt.length then s else (originate s 0 (packetFrame w self pkt)).1
  else if act = 2 ∨ act = 3 then emit s (.packet (some (act - 2)) pkt)
  else if act = 4 then emit s (.packet none pkt)
  else bump s (cMod 2)

theorem routePacket_eq (s : State) (pkt : List Byte) : routePacket s 0 pkt =
    if leAt pkt 7 1 ≤ 1 then emit s (.packet none pkt)
    else routeAct s (trieWord s (hopped pkt)) (hopped pkt)
      (if bit (trieWord s (hopped pkt)) 63 then fld (trieWord s (hopped pkt)) 62 60 else 0) := rfl

theorem mgmtEth_ready {s : State} (active : s.pwr.state = 0) (runs : fwRuns s = true) (port : Nat) (pkt : List Byte) :
    mgmtEth port pkt s = if leAt pkt 0 1 / 16 = 6 then routePacket s 0 pkt else emit s (.packet none pkt) :=
  if_neg (by simp [active, runs])

/-- An IPv6 packet whose hop limit goes on is routed by the trie's result. -/
theorem mgmtEth_routed {s : State} (active : s.pwr.state = 0) (runs : fwRuns s = true) (port : Nat) {pkt : List Byte}
    (v6 : leAt pkt 0 1 / 16 = 6) (hops : 1 < leAt pkt 7 1) :
    mgmtEth port pkt s = routeAct s (trieWord s (hopped pkt)) (hopped pkt)
      (if bit (trieWord s (hopped pkt)) 63 then fld (trieWord s (hopped pkt)) 62 60 else 0) := by
  rw [mgmtEth_ready active runs, if_pos v6, routePacket_eq, if_neg (not_le.2 hops)]

/-- Settles O30: `mgmtEth_routed`, and the action of the result. -/
theorem managementPacketsRouted : Obligations.ManagementPacketsRouted := by
  unfold Obligations.ManagementPacketsRouted
  refine fun s port pkt => ⟨fun down => ?_, fun active runs other => ?_, fun active runs v6 hops => ?_⟩
  · exact congrArg Host.Outcome.next (if_pos down)
  · refine congrArg Host.Outcome.next ((mgmtEth_ready active runs port pkt).trans ?_)
    split
    · next v6 => exact if_pos (other.resolve_left (absurd v6))
    · rfl
  · have e := mgmtEth_routed active runs port v6 hops
    refine ⟨fun n small valid act => ?_, fun valid act => ?_, fun drops => ?_, fun valid act no => ?_,
      fun self valid act known fits => ?_⟩
    · refine congrArg Host.Outcome.next (e.trans ?_)
      unfold hopped
      rw [if_pos valid, act]
      unfold routeAct
      rw [if_neg (by omega), if_pos (by omega), Nat.add_sub_cancel_left]
      rfl
    · refine congrArg Host.Outcome.next (e.trans ?_)
      unfold hopped
      rw [if_pos valid, act]
      rfl
    · refine congrArg Host.Outcome.next (e.trans ?_)
      unfold hopped
      have act : ∀ a, a = 0 ∨ 4 < a → routeAct s
          (trieWord s (putBytes pkt 7 [BitVec.ofNat 8 (leAt pkt 7 1 - 1)]))
          (putBytes pkt 7 [BitVec.ofNat 8 (leAt pkt 7 1 - 1)]) a = bump s (cMod 2) := fun a ha => by
        unfold routeAct
        rw [if_neg (by omega), if_neg (by omega), if_neg (by omega)]
      refine act _ ?_
      rcases drops with invalid | zero | reserved
      · exact .inl (if_neg (by rw [invalid]; decide))
      · split
        · exact .inl zero
        · exact .inl rfl
      · split
        · exact .inr reserved
        · exact .inl rfl
    · refine congrArg Host.Outcome.next (e.trans ?_)
      unfold hopped
      rw [if_pos valid, act]
      unfold routeAct
      rw [if_pos rfl]
      split
      · rfl
      · next self known => exact if_pos (no.resolve_left fun none => by simp [none] at known)
    · refine congrArg Host.Outcome.next (e.trans ?_)
      unfold hopped
      rw [if_pos valid, act]
      unfold routeAct
      rw [if_pos rfl, known]
      exact if_neg (not_lt.2 fits)

end Sys2Proof.Machine

/-! ### Lanes that leave service and lanes that rise: R84, R88 -/

namespace Sys2Proof.Machine

set_option Elab.async false

/-! #### Links, whatever becomes of their lanes -/

/-- Every link is kept, but for its credits and, where `up` says so, for what a change of its state touches. -/
def Lk (up : Bool) (s t : State) : Prop := ∀ l, LinkKept up (link s l) (link t l)

theorem Lk.refl (up : Bool) (s : State) : Lk up s s := fun _ => LinkKept.refl _ _

theorem Lk.trans {up : Bool} {s x t : State} (h : Lk up s x) (g : Lk up x t) : Lk up s t := fun l => (h l).trans (g l)

theorem Kl.lk {up : Bool} {s t : State} (h : Kl up s t) : Lk up s t := h.links

theorem Lk.loose {up : Bool} {s t : State} (h : Lk false s t) : Lk up s t := fun l =>
  { margin := (h l).margin, retryAt := (h l).retryAt, sat := (h l).sat, partnerDisabled := (h l).partnerDisabled
    state := fun _ => (h l).state rfl, cause := fun _ => (h l).cause rfl, partner := fun _ => (h l).partner rfl
    fenced := fun _ => (h l).fenced rfl, source := fun _ => (h l).source rfl, wanted := fun _ => (h l).wanted rfl
    downs := fun _ => (h l).downs rfl, deadSince := fun _ => (h l).deadSince rfl, bl2 := fun _ => (h l).bl2 rfl
    limit := fun _ => (h l).limit rfl, received := fun _ => (h l).received rfl
    granted := fun _ => (h l).granted rfl }

theorem Lk.forEach {up : Bool} {α : Type} (l : List α) (s : State) (f : State → α → State) (h : ∀ y a, Lk up y (f y a)) :
    Lk up s (forEach l s f) := by
  induction l generalizing s with
  | nil => exact .refl up s
  | cons a l ih => exact (h s a).trans (ih (f s a))

theorem modLane_lk (up : Bool) (s : State) (q : Nat) (f : Lane → Lane) : Lk up s (modLane s q f) :=
  fun _ => LinkKept.refl _ _

/-! #### A lane that goes down -/

theorem lane_modLane_ite (s : State) (q : Nat) (f : Lane → Lane) (j : Nat) :
    lane (modLane s q f) j = if j = q then f (lane s j) else lane s j := by
  split
  · next same =>
    subst same
    exact tget_tset_same ..
  · next other => exact tget_tset_other _ _ _ _ _ _ other

theorem loseArriving_kl (s : State) (q : Nat) : Kl false s (loseArriving s q) := by
  have freed : Kl false s (match (lane s q).rxPend with
      | none => s
      | some (f, _) => freeCredit s f.inLink f.f.tc (inCells f)) := by
    split
    · exact Kl.refl _ s
    · exact freeCredit_kl _ _ _ _
  unfold loseArriving
  dsimp only
  split
  · exact freed
  · refine Kl.upd ?_
    refine Kl.step (Kl.of (takeFree_fr _)) ?_
    refine Kl.forEach _ _ (fun y m => freePlace_kl y m.q) ?_
    exact Kl.forEach _ _ (fun y f => takeOut_kl y f) freed

/-- A lane that leaves service is cleared, and no other moves. -/
theorem laneToDown_lane (s : State) (q st j : Nat) : ∃ sent, lane (laneToDown s q st) j =
    { (if j = q then { clearLane (lane s j) with state := st } else lane s j) with osOut := sent } := by
  have arrived : Kl false s (forEach (lane s q).buf (loseArriving s q) freeOwed) :=
    Kl.forEach _ _ (fun y c => freeOwed_kl y c) (loseArriving_kl s q)
  have left := (loseStarted_kl (modLane (forEach (lane s q).buf (loseArriving s q) freeOwed) q fun l =>
    { clearLane l with state := st }) q).lanes j
  refine ⟨(lane (laneToDown s q st) j).osOut, ?_⟩
  unfold laneToDown
  dsimp only
  rw [left, lane_modLane_ite, arrived.lanes j]
  split <;> rfl

theorem laneToDown_lk (s : State) (q st : Nat) : Lk false s (laneToDown s q st) := by
  have arrived : Kl false s (forEach (lane s q).buf (loseArriving s q) freeOwed) :=
    Kl.forEach _ _ (fun y c => freeOwed_kl y c) (loseArriving_kl s q)
  exact arrived.lk.trans ((modLane_lk _ _ _ _).trans (loseStarted_kl _ q).lk)

/-- What a lane that goes down keeps: neither its light nor what stands for other tests. -/
theorem laneToDown_los (s : State) (q st j : Nat) : (lane (laneToDown s q st) j).los = (lane s j).los := by
  obtain ⟨sent, e⟩ := laneToDown_lane s q st j
  rw [e]
  split <;> rfl

theorem laneToDown_own (s : State) (q st : Nat) : (lane (laneToDown s q st) q).state = st := by
  obtain ⟨sent, e⟩ := laneToDown_lane s q st q
  rw [e, if_pos rfl]

theorem laneToDown_other (s : State) {q j : Nat} (st : Nat) (other : j ≠ q) :
    (lane (laneToDown s q st) j).state = (lane s j).state := by
  obtain ⟨sent, e⟩ := laneToDown_lane s q st j
  rw [e, if_neg other]

/-! #### A link whose lanes have changed, no down of it counted -/

/-- Without a down to count, a link's new state writes events and the link alone. -/
theorem refreshLink_lane (s : State) (l cause q : Nat) : lane (refreshLink s l cause false) q = lane s q := by
  have event (x : State) (code n : Nat) : lane (raiseEvent x code (partLink l) n 0) q = lane x q :=
    (raiseEvent_fr _ _ _ _ _).lane q
  unfold refreshLink
  dsimp only
  set x := modLink (if (linkUpState (linkStateOf s l) && !linkUpState (link s l).state) = true then startCredits s l else s)
    l fun k => { k with state := linkStateOf s l } with hx
  have e : lane x q = lane s q := by rw [hx]; split <;> rfl
  clear_value x
  rw [← e]
  split
  · exact event _ _ _
  split
  · split
    · exact (event _ _ _).trans (event _ _ _)
    · exact event _ _ _
  split
  · exact event _ _ _
  split <;> rfl

/-- A counted down leaves the state of every link. -/
theorem countDown_linkState (s : State) (l j : Nat) : (link (countDown s l) j).state = (link s j).state := by
  have changed (x : State) (f : Link → Link) (hf : ∀ k, (f k).state = k.state) :
      (link (modLink x l f) j).state = (link x j).state := by
    by_cases here : j = l
    · subst here
      rw [link_modLink, hf]
    · rw [show link (modLink x l f) j = link x j from tget_tset_other _ _ _ _ _ _ here]
  have fenced (x : State) (src n : Nat) : (link (fenceLink x l src n) j).state = (link x j).state := by
    unfold fenceLink
    dsimp only
    rw [(((fenceEffect_kl _ l).links j).state rfl), (raiseEvent_fr _ _ _ _ _).link]
    exact changed x (fun k => { k with fenced := true, source := src, wanted := false }) fun _ => rfl
  have auto (x : State) : (link (autoFence x l 1) j).state = (link x j).state := by
    unfold autoFence
    split
    · rfl
    dsimp only
    split
    · exact fenced _ _ _
    · rw [(raiseEvent_fr _ _ _ _ _).link]
      exact changed x (fun k => { k with wanted := true }) fun _ => rfl
  have counted := changed s
    (fun k => { k with downs := recentDowns s l ++ [s.now], deadSince := some s.now }) fun _ => rfl
  unfold countDown
  dsimp only
  split
  · exact (auto _).trans counted
  · exact counted

/-- A link's state follows its lanes. -/
theorem refreshLink_state (s : State) (l cause : Nat) (counts : Bool) :
    (link (refreshLink s l cause counts) l).state = linkStateOf s l := by
  have event (x : State) (code n : Nat) : (link (raiseEvent x code (partLink l) n 0) l).state = (link x l).state := by
    rw [(raiseEvent_fr _ _ _ _ _).link]
  unfold refreshLink
  dsimp only
  set x := modLink (if (linkUpState (linkStateOf s l) && !linkUpState (link s l).state) = true then startCredits s l else s)
    l fun k => { k with state := linkStateOf s l } with hx
  have e : (link x l).state = linkStateOf s l := by rw [hx, link_modLink]
  clear_value x
  rw [← e]
  split
  · split
    · rw [countDown_linkState, event, link_modLink]
    · rw [event, link_modLink]
  split
  · split
    · rw [event, event]
    · rw [event]
  split
  · rw [event]
  split
  · rw [link_modLink]
  · rfl

/-! #### Lanes that rise -/

/-- How a lane rises: its light and its POSITION stand, and its heartbeat is what it was or is heard now. -/
structure Advanced (now : Nat) (a b : Lane) : Prop where
  lastHb : b.lastHb = a.lastHb ∨ b.lastHb = now
  posSeen : b.posSeen = a.posSeen
  los : b.los = a.los

theorem Advanced.refl (now : Nat) (a : Lane) : Advanced now a a := ⟨.inl rfl, rfl, rfl⟩

theorem Advanced.trans {now : Nat} {a b c : Lane} (h : Advanced now a b) (g : Advanced now b c) : Advanced now a c where
  lastHb := by
    rcases g.lastHb with e | e
    · rw [e]
      exact h.lastHb
    · exact .inr e
  posSeen := g.posSeen.trans h.posSeen
  los := g.los.trans h.los

/-- Every lane has risen or stands, and no time has passed. -/
structure Rises (s t : State) : Prop where
  now : t.now = s.now
  lanes : ∀ q, Advanced s.now (lane s q) (lane t q)

theorem Rises.refl (s : State) : Rises s s := ⟨rfl, fun _ => Advanced.refl _ _⟩

theorem Rises.trans {s x t : State} (h : Rises s x) (g : Rises x t) : Rises s t where
  now := g.now.trans h.now
  lanes q := by
    have later := g.lanes q
    rw [h.now] at later
    exact (h.lanes q).trans later

theorem Rises.of_kl {up : Bool} {s t : State} (h : Kl up s t) (now : t.now = s.now) : Rises s t where
  now := now
  lanes q := by
    rw [h.lanes q]
    exact ⟨.inl rfl, rfl, rfl⟩

theorem Rises.modLane (s : State) (q : Nat) (f : Lane → Lane) (hf : ∀ x, Advanced s.now x (f x)) :
    Rises s (modLane s q f) where
  now := rfl
  lanes j := by
    rw [lane_modLane_ite]
    split
    · exact hf _
    · exact Advanced.refl _ _

theorem Rises.forEach {α : Type} (l : List α) (s : State) (f : State → α → State) (h : ∀ y a, Rises y (f y a)) :
    Rises s (forEach l s f) := by
  induction l generalizing s with
  | nil => exact .refl s
  | cons a l ih => exact (h s a).trans (ih (f s a))

theorem Rises.ite {s a b : State} {c : Prop} [Decidable c] (ha : Rises s a) (hb : Rises s b) :
    Rises s (if c then a else b) := by split <;> assumption

theorem refreshLink_rises (s : State) (l cause : Nat) (counts : Bool) : Rises s (refreshLink s l cause counts) :=
  .of_kl (refreshLink_kl _ _ _ _) (refreshLink_now _ _ _ _)

theorem lanesToUp_rises (s : State) (l : Nat) (qs : List Nat) : Rises s (lanesToUp s l qs) := by
  unfold lanesToUp
  split
  · exact .refl s
  · dsimp only
    refine Rises.trans ?_ (Rises.ite (.forEach _ _ _ fun y q => .of_kl (sendLinkctl_kl y q _)
      ((sendLinkctl_fr y q _).now rfl)) (.refl _))
    refine Rises.trans (.forEach _ _ _ fun y q => ?_) (refreshLink_rises _ _ _ _)
    exact Rises.modLane y q _ fun x => ⟨.inr rfl, rfl, rfl⟩

/-- The lanes that come up directly from a wake, once every lane of the link has its POSITION. -/
def directUp (s : State) (l : Nat) : State :=
  if posOnAll s l && (posWaiting s l).all fun q => (lane s q).wakeDirect || (lane s q).needFull then
    lanesToUp s l ((posWaiting s l).filter fun q => (lane s q).wakeDirect)
  else s

/-- The lanes that go to their margin tests, alone or with every lane of the link. -/
def testsBegun (s : State) (l : Nat) : State :=
  let y := forEach ((posWaiting s l).filter fun q => !(lane s q).needFull && !(lane s q).wakeDirect) s fun s q =>
    quickBegin (modLane s q fun x => { x with state := 3, lastHb := s.now }) q
  if posOnAll y l then
    forEach ((posWaiting y l).filter fun q => (lane y q).needFull) y fun s q =>
      modLane s q fun x => { x with state := 3, lastHb := s.now }
  else y

theorem positionAdvance_eq (s : State) (l : Nat) : positionAdvance s l = if !linkMayRise s l then s else
    if !moduleReadyNow (directUp s l) then directUp s l else refreshLink (testsBegun (directUp s l) l) l 0 false := rfl

theorem directUp_rises (s : State) (l : Nat) : Rises s (directUp s l) := .ite (lanesToUp_rises s l _) (.refl s)

theorem quickBegin_rises (s : State) (q : Nat) : Rises s (quickBegin s q) := by
  unfold quickBegin
  exact Rises.modLane s q _ fun x => ⟨.inl rfl, rfl, rfl⟩

theorem testsBegun_rises (s : State) (l : Nat) : Rises s (testsBegun s l) := by
  have alone : Rises s (forEach ((posWaiting s l).filter fun q => !(lane s q).needFull && !(lane s q).wakeDirect) s
      fun s q => quickBegin (modLane s q fun x => { x with state := 3, lastHb := s.now }) q) :=
    .forEach _ _ _ fun y q => (Rises.modLane y q (fun x => { x with state := 3, lastHb := y.now })
      fun x => ⟨.inr rfl, rfl, rfl⟩).trans
      (quickBegin_rises _ q)
  exact alone.trans (.ite (.forEach _ _ _ fun y q => Rises.modLane y q _ fun x => ⟨.inr rfl, rfl, rfl⟩) (.refl _))

theorem positionAdvance_rises (s : State) (l : Nat) : Rises s (positionAdvance s l) := by
  rw [positionAdvance_eq]
  have tested := (testsBegun_rises (directUp s l) l).trans (refreshLink_rises _ l 0 false)
  exact .ite (.refl s) (.ite (directUp_rises s l) ((directUp_rises s l).trans tested))

/-! #### A lane that dies -/

/-- The lane's death counted, without LANE_DEAD (R89). -/
theorem laneDie_silent {s : State} {q : Nat} (h : (lane s q).state = 3 ∨ (lane s q).state = 4) (cause : Nat) (dark : Bool) :
    laneDie s q cause false dark =
      resyncLeft (nextFade (laneLeaves (bump s (cLane q 7)) q cause dark) (laneKey s .tx q)) (linkOf q) := by
  have up : (!((lane s q).state == 3 || (lane s q).state == 4)) = false := by rcases h with h | h <;> simp [h]
  unfold laneDie
  rw [up]
  rfl

theorem leaves_los {s t : State} {q st : Nat} {f : Lane → Lane} (hf : ∀ x, (f x).los = x.los)
    (ht : t.lnk = (modLane (laneToDown s q st) q f).lnk) (j : Nat) : (lane t j).los = (lane s j).los := by
  rw [lane_congr ht, lane_modLane_ite]
  split
  · rw [hf, laneToDown_los]
  · rw [laneToDown_los]

theorem retireLane_los (s : State) (q : Nat) (d : Dir) (cause : Nat) (journal : Bool) (j : Nat) :
    (lane (retireLane s q d cause journal) j).los = (lane s j).los := by
  have left : lane (dropSwap (dropSwap (calLeave s q) .tx q) .rx q) j = lane s j := by
    rw [(dropSwap_fr _ _ _).lane, (dropSwap_fr _ _ _).lane, (calLeave_fr _ _).lane]
  have dark := ((modChan_fr (dropSwap (dropSwap (calLeave s q) .tx q) .rx q) .tx
    (laneKey (dropSwap (dropSwap (calLeave s q) .tx q) .rx q) .tx q) fun c => { c with state := 8 }).lane j).trans left
  unfold retireLane
  dsimp only
  rw [(refreshLink_kl _ _ _ _).lanes j]
  dsimp only
  rw [(raiseEvent_fr _ _ _ _ _).lane]
  refine (leaves_los (f := fun l => { l with marginRetired := !journal }) (fun _ => rfl) rfl j).trans ?_
  split
  · rw [(journalChan_fr _ _ _ _ _).lane, dark]
  · rw [dark]

theorem laneLeaves_los (s : State) (q cause : Nat) (dark : Bool) (j : Nat) :
    (lane (laneLeaves s q cause dark) j).los = (lane s j).los := by
  have swap : lane (swapDeath s q) j = lane s j := (swapDeath_fr s q).lane j
  unfold laneLeaves
  split
  · rw [retireLane_los, swap]
  · rw [(refreshLink_kl _ _ _ _).lanes j]
    dsimp only
    rw [lane_modLink]
    refine (leaves_los (f := fun x => { x with needFull := false }) (fun _ => rfl) rfl j).trans ?_
    rw [swap]

theorem laneDie_los {s : State} {q : Nat} (h : (lane s q).state = 3 ∨ (lane s q).state = 4) (cause : Nat) (dark : Bool)
    (j : Nat) : (lane (laneDie s q cause true dark) j).los = (lane s j).los := by
  rw [laneDie_of_up h, (resyncLeft_kl _ _).lanes j]
  dsimp only
  rw [(nextFade_fr _ _).lane, laneLeaves_los]
  unfold deathNoted
  rw [(raiseEvent_fr _ _ _ _ _).lane]
  rfl

theorem noteHealth_lane (s : State) (q : Nat) : lane (noteHealth s) q = lane s q := (noteHealth_fr s).lane q

/-- DEGRADED is apart from what a death comes to. -/
theorem LaneDied.noteHealth {s t : State} {q restart : Nat} (hq : q < 4160) (h : LaneDied s t q restart) :
    LaneDied s (noteHealth t) q restart := by
  obtain ⟨state, own, dead⟩ := h
  refine ⟨by rw [noteHealth_lane, state], ?_, ?_⟩
  · rw [noteHealth_cnt _ _ (by unfold cLane; omega) (by unfold cLane; omega), own]
  · rw [noteHealth_cnt _ _ (by decide) (by decide), dead]

/-! #### The light of a lane -/

/-- The lane's light is on or off. -/
def lit (s : State) (q : Nat) (los : Bool) : State := modLane s q fun x => { x with los := los }

theorem lit_lane (s : State) (q : Nat) (los : Bool) (j : Nat) :
    lane (lit s q los) j = if j = q then { lane s j with los := los } else lane s j := lane_modLane_ite _ _ _ _

theorem lossOfLight_dies {s : State} {q : Nat} (h : (lane s q).state = 3 ∨ (lane s q).state = 4) :
    lossOfLight q s = noteHealth (laneDie (lit s q true) q 1 true true) := by
  have state : (lane (lit s q true) q).state = (lane s q).state := by rw [lit_lane, if_pos rfl]
  unfold lossOfLight
  dsimp only
  rw [show modLane s q _ = lit s q true from rfl, state]
  exact if_pos (by rcases h with h | h <;> simp [h])

theorem lossOfLight_ends {s : State} {q : Nat} (h : (lane s q).state = 1 ∨ (lane s q).state = 2) :
    lossOfLight q s = refreshLink (laneToDown (lit s q true) q 0) (linkOf q) 1 true := by
  have state : (lane (lit s q true) q).state = (lane s q).state := by rw [lit_lane, if_pos rfl]
  unfold lossOfLight
  dsimp only
  rw [show modLane s q _ = lit s q true from rfl, state]
  exact (if_neg (by rcases h with h | h <;> simp [h])).trans (if_pos (by rcases h with h | h <;> simp [h]))

theorem lossOfLight_only {s : State} {q : Nat} (h : (lane s q).state = 0 ∨ 4 < (lane s q).state) :
    lossOfLight q s = lit s q true := by
  have state : (lane (lit s q true) q).state = (lane s q).state := by rw [lit_lane, if_pos rfl]
  unfold lossOfLight
  dsimp only
  rw [show modLane s q _ = lit s q true from rfl, state]
  refine (if_neg ?_).trans (if_neg ?_)
  · simp only [Bool.or_eq_true, beq_iff_eq]
    omega
  · simp only [Bool.or_eq_true, beq_iff_eq]
    omega

/-- Light on a fibre while no wake comes of it. -/
theorem lightPresent_lane {s : State} {q : Nat} (awake : s.pwr.state ≠ 1 ∧ s.pwr.state ≠ 2) (j : Nat) :
    lane (lightPresent q s) j = if j = q then { lane s q with
        los := false
        state := if (lane s q).state = 0 ∧ engineLit s (engineOfLane q) = true then 1 else (lane s q).state }
      else lane s j := by
  have quiet : ((lit s q false).pwr.state == 1 || (lit s q false).pwr.state == 2) = false := by
    simp [lit, awake.1, awake.2]
  have state : (lane (lit s q false) q).state = (lane s q).state := by rw [lit_lane, if_pos rfl]
  have engine : engineLit (lit s q false) (engineOfLane q) = engineLit s (engineOfLane q) := rfl
  have e : lightPresent q s = if (lane s q).state = 0 ∧ engineLit s (engineOfLane q) = true then
      refreshLink (putLaneState (lit s q false) q 1) (linkOf q) 0 false else lit s q false := by
    unfold lightPresent
    dsimp only
    rw [show modLane s q _ = lit s q false from rfl, quiet, Bool.false_and]
    rw [show (if false = true then wake (lit s q false) 2 else lit s q false) = lit s q false from rfl, state, engine]
    simp only [Bool.and_eq_true, beq_iff_eq]
  rw [e]
  split
  · rw [refreshLink_lane]
    unfold putLaneState
    rw [lane_modLane_ite, lit_lane]
    split
    · next here =>
      subst here
      rfl
    · rfl
  · rw [lit_lane]
    split
    · next here =>
      subst here
      rfl
    · rfl

end Sys2Proof.Machine

/-! ### Light, heartbeats and LINKCTL: R84, R85, R105 -/

namespace Sys2Proof.Machine

set_option Elab.async false

theorem forEach_reaches {α : Type} (P : α → State → Prop) (f : State → α → State) (own : ∀ y a, P a (f y a))
    (keep : ∀ y a b, P b y → P b (f y a)) (l : List α) (s : State) : ∀ b ∈ l, P b (forEach l s f) := by
  have kept (l : List α) (y : State) (b : α) (h : P b y) : P b (forEach l y f) := by
    induction l generalizing y with
    | nil => exact h
    | cons a l ih => exact ih _ (keep y a b h)
  induction l generalizing s with
  | nil => exact fun b h => absurd h List.not_mem_nil
  | cons a l ih =>
    intro b h
    rcases List.mem_cons.1 h with rfl | h
    · exact kept l _ b (own s b)
    · exact ih _ b h

/-- Light on a fibre that was dark as the module entered a low state wakes it (R419). -/
theorem lightPresent_wakes {s : State} {q : Nat} (low : s.pwr.state = 1 ∨ s.pwr.state = 2)
    (dark : s.pwr.darkAtEntry.contains q = true) (enabled : wakeEnabled s 2 = true) :
    WakingFrom (lightPresent q s) 2 s.pwr.state s.now := by
  have due : ((lit s q false).pwr.state == 1 || (lit s q false).pwr.state == 2) &&
      (lit s q false).pwr.darkAtEntry.contains q := by
    rw [show (lit s q false).pwr = s.pwr from rfl, dark, Bool.and_true]
    rcases low with h | h <;> simp [h]
  have woken := (wake_low (s := lit s q false) (src := 2) (low.imp_right fun h => ⟨h, by decide⟩) enabled (by decide)).1
  have pwr : (lightPresent q s).pwr = (wake (lit s q false) 2).pwr := by
    unfold lightPresent
    dsimp only
    rw [show modLane s q _ = lit s q false from rfl]
    rw [if_pos due]
    generalize wake (lit s q false) 2 = y
    split
    · exact (refreshLink_fr _ _ _ _).pwr rfl
    · rfl
  unfold WakingFrom
  rw [pwr, woken]
  exact ⟨rfl, rfl, rfl, rfl⟩

theorem lossOfLight_los (s : State) (q : Nat) : (lane (lossOfLight q s) q).los = true := by
  have dark : (lane (lit s q true) q).los = true := by rw [lit_lane, if_pos rfl]
  have state : (lane (lit s q true) q).state = (lane s q).state := by rw [lit_lane, if_pos rfl]
  by_cases up : (lane s q).state = 3 ∨ (lane s q).state = 4
  · rw [lossOfLight_dies up, noteHealth_lane, laneDie_los (by rw [state]; exact up), dark]
  by_cases locking : (lane s q).state = 1 ∨ (lane s q).state = 2
  · rw [lossOfLight_ends locking, (refreshLink_kl _ _ _ _).lanes, laneToDown_los, dark]
  · rw [lossOfLight_only (by omega), dark]

theorem lossOfLight_died {s : State} {q : Nat} (hq : q < 4160) (h : (lane s q).state = 3 ∨ (lane s q).state = 4) :
    LaneDied s (lossOfLight q s) q 0 := by
  have state : (lane (lit s q true) q).state = (lane s q).state := by rw [lit_lane, if_pos rfl]
  have died := LaneDied.noteHealth hq (laneDied_of_laneDie hq (by rw [state]; exact h) 1 true)
  rw [lossOfLight_dies h]
  exact died

/-- A partner's DISABLED: the link is marked, and its lanes in MARGIN and UP go to POSITION. -/
theorem partnerDisable_spec {s : State} {l : Nat} (enabled : (link s l).partnerDisabled = false) :
    (link (partnerDisable s l) l).partnerDisabled = true ∧
      ∀ j, j ∈ lanesOf l → (lane s j).state = 3 ∨ (lane s j).state = 4 → (lane (partnerDisable s l) j).state = 2 := by
  set marked := modLink s l fun k =>
    { k with partnerDisabled := true, margin := none, cause := if k.state = 4 then k.cause else 8 } with hm
  set f : State → Nat → State := fun y q => modLane (laneToDown y q 2) q fun x => { x with needFull := true, blockLock := true } with hf
  set qs := (lanesOf l).filter fun q => (lane s q).state == 3 || (lane s q).state == 4 with hqs
  have e : partnerDisable s l = refreshLink (forEach qs marked f) l 8 true := by
    unfold partnerDisable
    rw [enabled]
    rfl
  rw [e]
  constructor
  · have kept : Lk false marked (forEach qs marked f) :=
      Lk.forEach _ _ _ fun y q => (laneToDown_lk y q 2).trans (modLane_lk _ _ _ _)
    rw [((refreshLink_kl _ _ _ _).lk l).partnerDisabled, (kept l).partnerDisabled, hm, link_modLink]
  · intro j hj up
    rw [(refreshLink_kl _ _ _ _).lane_state]
    refine forEach_reaches (fun j y => (lane y j).state = 2) f (fun y q => ?_) (fun y q j h => ?_) qs marked j ?_
    · exact laneToDown_state y q 2 (f := fun x => { x with needFull := true, blockLock := true }) (fun _ => rfl) rfl
    · by_cases same : j = q
      · subst same
        exact laneToDown_state y j 2 (f := fun x => { x with needFull := true, blockLock := true }) (fun _ => rfl) rfl
      · rw [hf]
        dsimp only
        rw [lane_modLane_ite, if_neg same, laneToDown_other _ _ same, h]
    · rw [hqs, List.mem_filter]
      exact ⟨hj, by rcases up with h | h <;> simp [h]⟩

/-- The heartbeat is recorded on its lane. -/
def heard (s : State) (q t : Nat) : State := modLane s q fun x => { x with lastHb := s.now, partnerTx := t }

theorem heartbeatReceive_disables {s : State} {q : Nat} {b : BitVec 104} (hears : laneHears (lane s q) = true)
    (disabled : bf b 98 96 = 4) : heartbeatReceive q b s = partnerDisable (heard s q 4) (linkOf q) := by
  unfold heartbeatReceive
  dsimp only
  rw [hears, disabled]
  rfl

theorem modLink_rises (s : State) (l : Nat) (f : Link → Link) : Rises s (modLink s l f) :=
  ⟨rfl, fun _ => Advanced.refl _ _⟩

/-- A heartbeat of an enabled partner: its lane may rise, and nothing else of any lane moves. -/
theorem heartbeatReceive_rises {s : State} {q : Nat} {b : BitVec 104} (hears : laneHears (lane s q) = true)
    (enabled : bf b 98 96 ≠ 4) : Rises (heard s q (bf b 98 96)) (heartbeatReceive q b s) := by
  have relinked : Rises (heard s q (bf b 98 96)) (if (link (heard s q (bf b 98 96)) (linkOf q)).partnerDisabled then
      refreshLink (modLink (heard s q (bf b 98 96)) (linkOf q) fun k => { k with partnerDisabled := false }) (linkOf q) 0 false
      else heard s q (bf b 98 96)) := by
    split
    · exact (modLink_rises _ _ _).trans (refreshLink_rises _ _ _ _)
    · exact Rises.refl _
  unfold heartbeatReceive
  dsimp only
  rw [hears, Bool.not_true]
  rw [show (if false = true then s else _) = _ from if_neg (by decide), if_neg enabled]
  rw [show modLane s q _ = heard s q (bf b 98 96) from rfl]
  revert relinked
  generalize (if (link (heard s q (bf b 98 96)) (linkOf q)).partnerDisabled then
    refreshLink (modLink (heard s q (bf b 98 96)) (linkOf q) fun k => { k with partnerDisabled := false }) (linkOf q) 0 false
    else heard s q (bf b 98 96)) = y
  intro relinked
  split
  · exact relinked.trans ((Rises.modLane y q (fun x => { x with wakeDirect := true }) fun x => ⟨.inl rfl, rfl, rfl⟩).trans
      (positionAdvance_rises _ _))
  · exact relinked

theorem heartbeatReceive_recorded {s : State} {q : Nat} {b : BitVec 104} (hears : laneHears (lane s q) = true)
    (enabled : bf b 98 96 ≠ 4) : (lane (heartbeatReceive q b s) q).lastHb = s.now := by
  have e : (lane (heard s q (bf b 98 96)) q).lastHb = s.now := by
    unfold heard
    rw [lane_modLane]
  rcases ((heartbeatReceive_rises hears enabled).lanes q).lastHb with h | h
  · rw [h, e]
  · exact h

theorem heartbeatReceive_only {s : State} {q : Nat} {b : BitVec 104} (hears : laneHears (lane s q) = true)
    (enabled : bf b 98 96 ≠ 4) (settled : (lane s q).state ≠ 2) (linked : (link s (linkOf q)).partnerDisabled = false) :
    heartbeatReceive q b s = heard s q (bf b 98 96) := by
  have known : (link (heard s q (bf b 98 96)) (linkOf q)).partnerDisabled = false := linked
  unfold heartbeatReceive
  dsimp only
  rw [hears, Bool.not_true]
  rw [show (if false = true then s else _) = _ from if_neg (by decide), if_neg enabled]
  rw [show modLane s q _ = heard s q (bf b 98 96) from rfl, known]
  rw [beq_eq_false_iff_ne.2 settled]
  rfl

theorem heartbeatTimeout_died {s : State} {q : Nat} (hq : q < 4160) (h : (lane s q).state = 3 ∨ (lane s q).state = 4) :
    (heartbeatTimeout q s).now = max s.now ((lane s q).lastHb + 50 * usT) ∧ LaneDied s (heartbeatTimeout q s) q 1 := by
  have e : heartbeatTimeout q s = noteHealth (laneDie (await s (lane s q).lastHb (50 * usT)) q 2 true false) := by
    unfold heartbeatTimeout
    exact if_pos (by rcases h with h | h <;> simp [h])
  rw [e]
  have died := LaneDied.noteHealth hq
    (laneDied_of_laneDie (s := await s (lane s q).lastHb (50 * usT)) hq h 2 false)
  refine ⟨?_, died⟩
  rw [noteHealth_now, (laneDie_fr _ _ _ _ _).now rfl]
  rfl

/-! #### A heartbeat sent -/

/-- The lane's heartbeat goes out now. -/
def beaten (s : State) (q : Nat) : State :=
  let s := if (lane s q).lastHbSent = 0 then s else await s (lane s q).lastHbSent usT
  modLane s q fun x => { x with lastHbSent := s.now }

theorem beaten_now (s : State) (q : Nat) :
    (beaten s q).now = if (lane s q).lastHbSent = 0 then s.now else max s.now ((lane s q).lastHbSent + usT) := by
  unfold beaten
  dsimp only
  split <;> rfl

theorem beaten_out (s : State) (q : Nat) : (beaten s q).out = s.out := by
  unfold beaten
  dsimp only
  split <;> rfl

theorem beaten_link (s : State) (q l : Nat) : link (beaten s q) l = link s l := by
  unfold beaten
  dsimp only
  split <;> rfl

theorem beaten_sent (s : State) (q : Nat) : (lane (beaten s q) q).lastHbSent = (beaten s q).now := by
  unfold beaten
  dsimp only
  rw [lane_modLane]
  rfl

theorem sendOs_out (s : State) (q type : Nat) (body : BitVec 104) :
    (sendOs s q type body).out = s.out ++ [.os q type body] := rfl

theorem sendOs_link (s : State) (q type : Nat) (body : BitVec 104) (l : Nat) :
    link (sendOs s q type body) l = link s l := rfl

theorem sendOs_sent (s : State) (q type : Nat) (body : BitVec 104) (j : Nat) :
    (lane (sendOs s q type body) j).lastHbSent = (lane s j).lastHbSent := by
  rw [lane_congr (t := sendOs s q type body) (s := queueOs s q type body) rfl]
  unfold queueOs
  rw [lane_modLane_ite]
  split <;> rfl

/-- HEARTBEAT and, on a link that is up, its credits (R81, R100). -/
def beatSent (s : State) (q x expect : Nat) : State :=
  let s := sendOs s q osHEARTBEAT (mkBody [at_ 99 (linkLane q), at_ 96 x, at_ 84 expect])
  if linkUpState (link s (linkOf q)).state then
    let s := modLink s (linkOf q) fun k => { k with creditSent := k.credit }
    sendOs (sendOs s q osCREDIT_LO (creditBody s (linkOf q) 0)) q osCREDIT_HI (creditBody s (linkOf q) 4)
  else s

theorem heartbeatSend_eq {s : State} {q x : Nat} (h : txState (lane s q) = some x) :
    heartbeatSend q s = beatSent (beaten s q) q x (lane s q).expect := by
  unfold heartbeatSend
  dsimp only
  rw [h]
  rfl

theorem beatSent_now (s : State) (q x expect : Nat) : (beatSent s q x expect).now = s.now := by
  unfold beatSent
  dsimp only
  split
  · rw [sendOs_now, sendOs_now, modLink_now, sendOs_now]
  · rw [sendOs_now]

theorem beatSent_sent (s : State) (q x expect : Nat) :
    (lane (beatSent s q x expect) q).lastHbSent = (lane s q).lastHbSent := by
  unfold beatSent
  dsimp only
  split
  · rw [sendOs_sent, sendOs_sent, lane_modLink, sendOs_sent]
  · rw [sendOs_sent]

theorem creditBody_congr {s t : State} {l : Nat} (h : (link t l).credit = (link s l).credit) (base : Nat) :
    creditBody t l base = creditBody s l base := by
  unfold creditBody
  rw [h]

theorem beatSent_out (s : State) (q x expect : Nat) : (beatSent s q x expect).out = s.out ++
    .os q osHEARTBEAT (mkBody [at_ 99 (linkLane q), at_ 96 x, at_ 84 expect]) ::
      (if linkUpState (link s (linkOf q)).state then
        [.os q osCREDIT_LO (creditBody s (linkOf q) 0), .os q osCREDIT_HI (creditBody s (linkOf q) 4)] else []) := by
  unfold beatSent
  dsimp only
  rw [sendOs_link]
  split
  · have kept (y : State) : (link (modLink y (linkOf q) fun k => { k with creditSent := k.credit }) (linkOf q)).credit =
        (link y (linkOf q)).credit := by rw [link_modLink]
    rw [sendOs_out, sendOs_out, creditBody_congr (kept _), creditBody_congr (kept _)]
    rw [modLink_out, sendOs_out]
    simp only [List.append_assoc, List.cons_append, List.nil_append]
    rw [creditBody_congr (s := s) (congrArg Link.credit (sendOs_link s q _ _ _)),
      creditBody_congr (s := s) (congrArg Link.credit (sendOs_link s q _ _ _))]
  · rw [sendOs_out]

/-- Settles O31: light by `lit`, a death by `laneDied_of_laneDie`, heartbeats by their recorded states and DISABLED by
`partnerDisable_spec`. -/
theorem lightHeartbeatsAndLinkctl : Obligations.LightHeartbeatsAndLinkctl := by
  unfold Obligations.LightHeartbeatsAndLinkctl
  intro s q b hq
  refine ⟨⟨_, rfl, ?_, ?_⟩, ⟨_, rfl, lossOfLight_los s q, ?_, lossOfLight_died hq, ?_⟩, ?_, ?_, ?_, ?_, ?_, ?_⟩
  · intro h1 h2
    refine ⟨?_, fun j other => ?_⟩
    · rw [lightPresent_lane ⟨h1, h2⟩, if_pos rfl]
    · rw [lightPresent_lane ⟨h1, h2⟩, if_neg other]
  · exact lightPresent_wakes
  · intro locking
    rw [lossOfLight_ends locking, (refreshLink_kl _ _ _ _).lane_state, laneToDown_own]
  · intro still
    rw [lossOfLight_only still]
    refine ⟨by rw [lit_lane, if_pos rfl], ?_⟩
    exact (modLane_fr s q fun x => { x with los := true }).onlyChanges _
  · intro x sends
    refine ⟨_, rfl, ?_, ?_, (heartbeatSend_fr q s).onlyChanges _, ?_⟩
    · rw [heartbeatSend_eq sends, beatSent_now, beaten_now]
    · rw [heartbeatSend_eq sends, beatSent_sent, beatSent_now, beaten_sent]
    · rw [heartbeatSend_eq sends, beatSent_out, beaten_out, beaten_link, creditBody_congr (congrArg Link.credit
        (beaten_link s q _)), creditBody_congr (congrArg Link.credit (beaten_link s q _))]
  · intro hears enabled
    refine ⟨_, rfl, heartbeatReceive_recorded hears enabled, fun settled linked => ?_⟩
    rw [heartbeatReceive_only hears enabled settled linked]
    refine ⟨(modLane_fr s q fun x => { x with lastHb := s.now, partnerTx := bf b 98 96 }).onlyChanges _, ?_⟩
    unfold heard
    rw [lane_modLane]
  · rintro c (⟨rfl, hears, disabled⟩ | ⟨rfl, legal⟩) linked
    · have kept (j : Nat) : (lane (heard s q 4) j).state = (lane s j).state := by
        unfold heard
        rw [lane_modLane_ite]
        split <;> rfl
      obtain ⟨marked, down⟩ := partnerDisable_spec (s := heard s q 4) (l := linkOf q) linked
      refine ⟨_, congrArg Host.Outcome.next (heartbeatReceive_disables hears disabled), marked, fun j hj up => ?_⟩
      exact down j hj (by rw [kept]; exact up)
    · obtain ⟨marked, down⟩ := partnerDisable_spec (s := s) (l := linkOf q) linked
      exact ⟨_, congrArg Host.Outcome.next (if_pos legal), marked, down⟩
  · intro up
    obtain ⟨now, died⟩ := heartbeatTimeout_died hq up
    exact ⟨_, rfl, now, died⟩
  · intro c on listed
    simp only [List.mem_cons, Prod.mk.injEq, List.not_mem_nil, or_false] at listed
    rcases listed with ⟨rfl, rfl⟩ | ⟨rfl, rfl⟩
    · refine ⟨fun legal => ⟨_, congrArg Host.Outcome.next (if_pos legal), ?_, lane_modLane ..⟩, fun illegal => ?_⟩
      · exact (modLane_fr s q fun x => { x with quiesced := true }).onlyChanges _
      · exact congrArg Host.Outcome.next (if_neg (by rw [illegal]; decide))
    · refine ⟨fun legal => ⟨_, congrArg Host.Outcome.next (if_pos legal), ?_, lane_modLane ..⟩, fun illegal => ?_⟩
      · exact (modLane_fr s q fun x => { x with quiesced := false }).onlyChanges _
      · exact congrArg Host.Outcome.next (if_neg (by rw [illegal]; decide))
  · intro illegal
    exact congrArg Host.Outcome.next (if_neg (by rw [illegal]; decide))

end Sys2Proof.Machine

/-! ### POSITION: R26, R81, R84 -/

namespace Sys2Proof.Machine

set_option Elab.async false

/-- Without a down to count, a link goes down for the cause given, unless its place is not valid. -/
theorem refreshLink_cause {s : State} {l cause : Nat} (valid : posValid s = true) (given : (link s l).cause = cause) :
    (link (refreshLink s l cause false) l).cause = cause := by
  have event (x : State) (code n : Nat) : (link (raiseEvent x code (partLink l) n 0) l).cause = (link x l).cause := by
    rw [(raiseEvent_fr _ _ _ _ _).link]
  unfold refreshLink
  dsimp only
  set x := modLink (if (linkUpState (linkStateOf s l) && !linkUpState (link s l).state) = true then startCredits s l else s)
    l fun k => { k with state := linkStateOf s l } with hx
  have started : (link (if (linkUpState (linkStateOf s l) && !linkUpState (link s l).state) = true then
      startCredits s l else s) l).cause = cause := by
    split
    · unfold startCredits
      dsimp only
      rw [link_modLink, given]
    · exact given
  have kept : (link x l).cause = cause := by rw [hx, link_modLink, started]
  have placed : posValid x = true := by
    rw [← valid, hx]
    split <;> rfl
  clear_value x
  rw [placed, Bool.false_and]
  split
  · rw [show (if false = true then _ else _) = _ from if_neg (by decide), event, link_modLink]
  split
  · split
    · rw [event, event, kept]
    · rw [event, kept]
  split
  · rw [event, kept]
  · rw [Bool.not_true, Bool.and_false]
    exact kept

/-- The partner's place is recorded. -/
def partnerNoted (s : State) (l : Nat) (b : BitVec 104) : State := modLink s l fun k => { k with partner := partnerWord b }

theorem partnerNoted_link (s : State) (l : Nat) (b : BitVec 104) :
    link (partnerNoted s l b) l = { link s l with partner := partnerWord b } := link_modLink ..

/-- A link held down: its retry waits from now with its cause, and its lanes are in the states they were in. -/
theorem holdDown_spec {s : State} {l cause : Nat} (valid : posValid s = true) :
    (link (holdDown s l cause) l).retryAt = some s.now ∧ (link (holdDown s l cause) l).cause = cause ∧
      (∀ q, (lane (holdDown s l cause) q).state = (lane s q).state) ∧
      ∀ j, 0x203 < j → j < 0x34000 → cntGet (holdDown s l cause) j = cntGet s j := by
  have kept : Fr 64 s (forEach ((lanesOf l).filter fun q => (lane s q).state == 2) s fun s q =>
      modLane s q fun x => { x with posSeen := false }) :=
    Fr.forEach (m := 64) _ _ (fun y q => modLane_fr y q _) (Fr.refl _ _)
  have states (q : Nat) := forEach_keeps (fun y => (lane y q).state)
    (fun s q => modLane s q fun x => { x with posSeen := false })
    (fun y a => by rw [lane_modLane_ite]; split <;> rfl) ((lanesOf l).filter fun q => (lane s q).state == 2) s
  unfold holdDown
  dsimp only
  revert kept states
  generalize (forEach ((lanesOf l).filter fun q => (lane s q).state == 2) s fun s q =>
    modLane s q fun x => { x with posSeen := false }) = y
  intro kept states
  have now : y.now = s.now := kept.now rfl
  have placed : posValid (modLink y l fun k => { k with retryAt := some y.now, cause := cause }) = true := by
    rw [← valid]
    unfold posValid
    rw [show getR (modLink y l _) = getR y from rfl, show getR y = getR s from funext fun o => kept.getR o]
  refine ⟨?_, ?_, fun q => ?_, fun j low high => ?_⟩
  · rw [((refreshLink_kl _ _ _ _).lk l).retryAt, link_modLink, now]
  · exact refreshLink_cause placed (by rw [link_modLink])
  · rw [(refreshLink_kl _ _ _ _).lane_state, lane_modLink, states q]
  · rw [refreshLink_cnt _ _ _ _ _ low high (fun h => absurd h (by decide))]
    unfold cntGet
    rw [modLink_cnt, kept.cnt rfl]

theorem positionReceive_illegal {s : State} {q : Nat} {b : BitVec 104} (h2 : (lane s q).state ≠ 2) (h3 : (lane s q).state ≠ 3) :
    positionReceive q b s = bump s (cLane q 5) := by
  unfold positionReceive
  exact if_pos (by simp [h2, h3])

/-- While its link awaits a retry or its lane is tested, a POSITION is recorded alone. -/
theorem positionReceive_noted {s : State} {q : Nat} {b : BitVec 104}
    (h : (lane s q).state = 3 ∨ (lane s q).state = 2 ∧ (link s (linkOf q)).retryAt.isSome = true) :
    positionReceive q b s = partnerNoted s (linkOf q) b := by
  have retry : (link (partnerNoted s (linkOf q) b) (linkOf q)).retryAt = (link s (linkOf q)).retryAt := by
    rw [partnerNoted_link]
  unfold positionReceive
  dsimp only
  rw [show modLink s (linkOf q) _ = partnerNoted s (linkOf q) b from rfl, retry]
  refine (if_neg ?_).trans (if_pos ?_)
  · rcases h with h | ⟨h, _⟩ <;> simp [h]
  · rcases h with h | ⟨h, g⟩
    · simp [h]
    · simp [g]

/-- What becomes of a POSITION in POSITION state with no retry awaited. -/
theorem positionReceive_judged {s : State} {q : Nat} {b : BitVec 104} (waits : (lane s q).state = 2)
    (free : (link s (linkOf q)).retryAt = none) : positionReceive q b s =
      let n := partnerNoted s (linkOf q) b
      if !posValid s then modLink n (linkOf q) fun k => { k with cause := 9 }
      else if isLateral (linkOf q) && onePlane s then n
      else if posOf q b ≠ expectedPos s q then
        raiseEvent (holdDown n (linkOf q) 4) 0x207 (partLink (linkOf q)) (linkOf q) (partnerWord b)
      else if bf b 101 100 ≠ (if linkBl2Cfg s (linkOf q) then 2 else 3) then
        raiseEvent (holdDown n (linkOf q) 5) 0x208 (partLink (linkOf q)) (linkOf q) (partnerWord b)
      else positionAdvance (modLane n q fun x => { x with posSeen := true }) (linkOf q) := by
  have retry : (link (partnerNoted s (linkOf q) b) (linkOf q)).retryAt = none := by rw [partnerNoted_link, free]
  unfold positionReceive
  dsimp only
  rw [show modLink s (linkOf q) _ = partnerNoted s (linkOf q) b from rfl, retry, waits]
  rfl

theorem positionReceive_matched {s : State} {q : Nat} {b : BitVec 104} :
    (lane (positionAdvance (modLane (partnerNoted s (linkOf q) b) q fun x => { x with posSeen := true }) (linkOf q)) q).posSeen
      = true := by
  rw [((positionAdvance_rises _ _).lanes q).posSeen, lane_modLane]

/-- A mismatch: the link is held down for its cause and the event counted. -/
theorem mismatch_spec {s : State} {q l cause code : Nat} {b : BitVec 104} (valid : posValid s = true)
    (low : 0x203 < code) (high : code < 0x34000) (waits : (lane s q).state = 2) :
    let t := raiseEvent (holdDown (partnerNoted s l b) l cause) code (partLink l) l (partnerWord b)
    (link t l).retryAt = some s.now ∧ (link t l).cause = cause ∧
      cntGet t code = (cntGet s code + 1) % 2 ^ 64 ∧ (lane t q).state = 2 := by
  obtain ⟨retry, causes, states, counts⟩ := holdDown_spec (s := partnerNoted s l b) (l := l) (cause := cause) valid
  dsimp only
  rw [(raiseEvent_fr _ _ _ _ _).link, (raiseEvent_fr _ _ _ _ _).lane, raiseEvent_cnt _ _ _ _ _ _ high, if_pos rfl,
    counts code low high, states q]
  exact ⟨retry, causes, rfl, waits⟩

theorem linkBringupRetry_due {s : State} {l a : Nat} (waits : (link s l).retryAt = some a)
    (untested : (link s l).margin = none) (idle : lanesIn s l 3 = 0) :
    (linkBringupRetry l s).now = max s.now (a + secT) ∧ (link (linkBringupRetry l s) l).retryAt = none := by
  have e : linkBringupRetry l s =
      refreshLink (modLink (await s a secT) l fun k => { k with retryAt := none }) l 0 false := by
    unfold linkBringupRetry
    rw [waits, untested, idle]
    rfl
  rw [e, refreshLink_now, ((refreshLink_kl _ _ _ _).lk l).retryAt, link_modLink]
  exact ⟨rfl, rfl⟩

theorem positionSend_spec {s : State} {q : Nat} (waits : (lane s q).state = 2) :
    (positionSend q s).now = (if (lane s q).lastPosSent = 0 then s.now
        else max s.now ((lane s q).lastPosSent + 10 * usT)) ∧
      (positionSend q s).out = s.out ++ [.os q osPOSITION (mkBody [at_ 102 2,
        at_ 100 (if linkBl2Cfg s (linkOf q) then 2 else 3), at_ 97 (rf s oFABRIC_POS 2 0),
        at_ 80 (rf s oFABRIC_POS 13 8), at_ 75 (linkLane q)])] := by
  unfold positionSend
  dsimp only
  rw [if_pos (by rw [waits]; rfl)]
  generalize 10 * usT = d
  split
  · exact ⟨rfl, rfl⟩
  · exact ⟨rfl, rfl⟩

/-- Settles O32: a POSITION is judged in order, a mismatch by `holdDown_spec`, a match by `positionAdvance_rises`. -/
theorem positionsExchanged : Obligations.PositionsExchanged := by
  unfold Obligations.PositionsExchanged
  rintro s q l b hq rfl
  refine ⟨fun waits => ?_, fun other => ?_, fun noted => ?_, fun h2 h3 => ?_, fun waits free invalid => ?_,
    fun waits free valid lateral => ?_, fun a waits untested idle => ?_⟩
  · obtain ⟨now, out⟩ := positionSend_spec waits
    exact ⟨_, rfl, (positionSend_fr q s).onlyChanges _, now, out⟩
  · exact congrArg Host.Outcome.next (if_neg (by simp [other]))
  · refine ⟨_, congrArg Host.Outcome.next (positionReceive_noted noted), ?_, partnerNoted_link _ _ _, fun j => rfl⟩
    exact (modLink_fr s (linkOf q) fun k => { k with partner := partnerWord b }).onlyChanges _
  · exact congrArg Host.Outcome.next (positionReceive_illegal h2 h3)
  · have e := (positionReceive_judged (b := b) waits free).trans (if_pos (by rw [invalid]; rfl))
    refine ⟨_, congrArg Host.Outcome.next e, ?_, by rw [link_modLink, partnerNoted_link]⟩
    have noted : Fr 64 s (partnerNoted s (linkOf q) b) := modLink_fr _ _ _
    have marked : Fr 64 s (modLink (partnerNoted s (linkOf q) b) (linkOf q) fun k => { k with cause := 9 }) :=
      Fr.step (n := 64) (modLink_fr _ _ _) noted
    exact marked.onlyChanges _
  · have placed : (isLateral (linkOf q) && onePlane s) ≠ true := by
      intro h
      obtain ⟨side, plane⟩ := Bool.and_eq_true_iff.1 h
      rw [lateral side] at plane
      exact absurd plane (by decide)
    have e := ((positionReceive_judged (b := b) waits free).trans (if_neg (by rw [valid]; decide))).trans (if_neg placed)
    refine ⟨fun wrong => ?_, fun right proto => ?_, fun right proto => ?_⟩
    · exact ⟨_, congrArg Host.Outcome.next (e.trans (if_pos wrong)), mismatch_spec valid (by decide) (by decide) waits⟩
    · exact ⟨_, congrArg Host.Outcome.next ((e.trans (if_neg (not_not.2 right))).trans (if_pos proto)),
        mismatch_spec valid (by decide) (by decide) waits⟩
    · exact ⟨_, congrArg Host.Outcome.next ((e.trans (if_neg (not_not.2 right))).trans (if_neg (not_not.2 proto))),
        positionReceive_matched⟩
  · obtain ⟨now, cleared⟩ := linkBringupRetry_due waits untested idle
    exact ⟨_, rfl, now, cleared⟩

end Sys2Proof.Machine

/-! ### What the death of a lane passes through

A death counts a down, which may fence its link and move the frames queued for it. `Across s t` says that t comes of s by
the primitives of that: events of its kinds, ordered sets, counters, and all that neither counts nor sends. What holds
across each primitive then holds across a death: that no other event is counted (`Qk`), that the output only grows
(`Og`). -/

namespace Sys2Proof.Machine

set_option Elab.async false

/-- The events of fences, NACKs, swaps, the riser and the states of links, which a death may raise, and DEGRADED. -/
def deathEvents : List Nat :=
  [0x001, 0x002, 0x004, 0x103, 0x106, 0x107, 0x10B, 0x201, 0x202, 0x203, 0x204, 0x209, 0x20A, 0x303, 0x304]

/-- A relation that holds across every primitive of a death. -/
structure Passes (R : State → State → Prop) : Prop where
  trans : ∀ {s x t}, R s x → R x t → R s t
  kept : ∀ {s t : State}, t.cnt = s.cnt → t.out = s.out → R s t
  sends : ∀ s q type body, R s (sendOs s q type body)
  counts : ∀ s i, 0x1000 ≤ i ∨ i = 0x106 ∨ i = 0x304 → R s (bump s i)
  raises : ∀ s code part a0 a1, code ∈ deathEvents → R s (raiseEvent s code part a0 a1)

/-- By the primitives of a death. -/
def Across (s t : State) : Prop := ∀ R, Passes R → R s t

theorem Across.kept {s t : State} (h : t.cnt = s.cnt) (o : t.out = s.out) : Across s t := fun _ p => p.kept h o

theorem Across.refl (s : State) : Across s s := .kept rfl rfl

theorem Across.trans {s x t : State} (h : Across s x) (g : Across x t) : Across s t := fun R p => p.trans (h R p) (g R p)

theorem Across.of {m : Nat} {s t : State} (h : Fr m s t) (hm : m.testBit 16 = false := by rfl)
    (ho : m.testBit 2 = false := by rfl) : Across s t := .kept (h.cnt hm) (h.out ho)

/-- An operation that runs after an update that neither counts nor sends. -/
theorem Across.after {s x t : State} (h : Across x t) (e : x.cnt = s.cnt) (o : x.out = s.out) : Across s t :=
  (Across.kept e o).trans h

theorem Across.ite {s a b : State} {c : Prop} [Decidable c] (ha : Across s a) (hb : Across s b) :
    Across s (if c then a else b) := by split <;> assumption

theorem Across.forEach {α : Type} (l : List α) (s : State) (f : State → α → State) (h : ∀ y a, Across y (f y a)) :
    Across s (forEach l s f) := by
  induction l generalizing s with
  | nil => exact .refl s
  | cons a l ih => exact (h s a).trans (ih (f s a))

theorem bump_across (s : State) {i : Nat} (h : 0x1000 ≤ i ∨ i = 0x106 ∨ i = 0x304) : Across s (bump s i) :=
  fun _ p => p.counts s i h

theorem bump_cLink_across (s : State) (l k : Nat) : Across s (bump s (cLink l k)) :=
  bump_across s (.inl (by unfold cLink; omega))

theorem raiseEvent_across (s : State) (code part a0 a1 : Nat) (h : code ∈ deathEvents := by decide) :
    Across s (raiseEvent s code part a0 a1) := fun _ p => p.raises s code part a0 a1 h

theorem sendOs_across (s : State) (q type : Nat) (body : BitVec 104) : Across s (sendOs s q type body) :=
  fun _ p => p.sends s q type body

theorem sendLinkctl_across (s : State) (q op : Nat) : Across s (sendLinkctl s q op) := sendOs_across s q _ _

theorem sendResync_across (s : State) (q tc : Nat) : Across s (sendResync s q tc) := by
  unfold sendResync
  exact (sendOs_across _ q _ _).after rfl rfl

/-! #### The riser -/

theorem putFrame_across (s : State) (q : QFrame) : Across s (putFrame s q) := by
  have push (x : State) (y : QFrame) : Across x (pushFrame x y) := Across.of (pushFrame_fr x y)
  have free (x : State) : Across x (freeCredit x q.inLink q.f.tc (inCells q)) := Across.of (freeCredit_fr ..)
  have full (d : Nat) : Across s (deepFullNote s d) := by
    unfold deepFullNote
    exact Across.ite (.refl s) ((raiseEvent_across _ _ _ _ _).after rfl rfl)
  unfold putFrame
  split
  · exact push s q
  split
  · exact (((Across.of (deepMove_fr s (qCells q))).trans (free _)).trans (bump_cLink_across _ _ _)).trans (push _ _)
  · exact (free s).trans (push _ _)
  · exact (free s).trans (bump_cLink_across _ _ _)
  · exact (Across.ite (full _) (.refl s)).trans (push _ _)

theorem markCm_across (s : State) (l : Nat) (f : Frame) : Across s (markCm s l f).1 := by
  have next : Across s (nextMark s l).1 := Across.of (nextMark_fr s l)
  unfold markCm
  dsimp only
  split
  · exact .refl s
  split
  · exact .refl s
  split
  · exact bump_cLink_across s l 4
  split
  · exact next.trans (bump_cLink_across _ l 4)
  · exact next

theorem placeOn_across (s : State) (q : QFrame) (l : Nat) : Across s (placeOn s q l).1 := by
  unfold placeOn
  split
  · exact Across.ite (bump_cLink_across s l 22) (.refl s)
  · exact (markCm_across s l q.f).trans (putFrame_across _ _)

theorem deliverCore_across (s : State) (q : QFrame) : Across s (deliverCore s q).1 := by
  unfold deliverCore
  split
  · exact placeOn_across s q _
  split
  · exact Across.ite (bump_cLink_across s _ 17) (.refl s)
  split
  · exact raiseEvent_across _ _ _ _ _
  split
  · exact (bump_cLink_across s q.primary 5).trans (placeOn_across _ _ _)
  · exact raiseEvent_across _ _ _ _ _

theorem routeFrame_across (s : State) (q : QFrame) (p : Nat) (useFlow : Bool) : Across s (routeFrame s q p useFlow).1 := by
  unfold routeFrame
  dsimp only
  split
  · exact .refl s
  split
  · exact .refl s
  split
  · split
    · exact Across.ite (.refl s) (bump_cLink_across s q.inLink 18)
    · exact deliverCore_across s _
  · exact deliverCore_across s _

theorem mcEnter_across (s : State) (q : QFrame) (members : List Nat) : Across s (mcEnter s q members) := by
  have free : Across s (freeCredit s q.inLink q.f.tc (inCells q)) := Across.of (freeCredit_fr ..)
  unfold mcEnter
  dsimp only
  split
  · exact free.trans ((Across.refl _).after rfl rfl)
  split
  · exact free.trans (Across.ite (.refl _) (bump_cLink_across _ _ _))
  · exact (Across.refl _).after rfl rfl

theorem ringSend_across (s : State) (q : QFrame) (l : Nat) : Across s (ringSend s q l).1 := by
  have ctx (k : Nat) : 0x1000 ≤ cCtx k 4 := by unfold cCtx; omega
  unfold ringSend
  split
  · exact bump_across s (.inl (ctx _))
  split
  · refine bump_across s (.inl ?_)
    split
    · exact ctx _
    · unfold cLink
      omega
  · exact placeOn_across s _ l

theorem originate_across (s : State) (die : Nat) (f : Frame) : Across s (originate s die f).1 := by
  have own : Across s (ownFrame s die f).1 := Across.of (ownFrame_fr s die f)
  unfold originate
  dsimp only
  split
  · split
    · exact own.trans (mcEnter_across _ _ _)
    · exact own
  split
  · exact own.trans (.kept rfl rfl)
  split
  · exact own.trans (ringSend_across _ _ _)
  · exact own.trans (routeFrame_across _ _ _ _)

theorem sendNack_across (s : State) (q : QFrame) (cause backoff : Nat) : Across s (sendNack s q cause backoff) := by
  have lost : Across s (if q.inLink = 0xFFF then s else bump s (cLink q.inLink 13)) :=
    Across.ite (.refl s) (bump_cLink_across s _ 13)
  unfold sendNack
  dsimp only
  split
  · exact lost
  split
  · exact lost
  · exact (bump_across s (.inl (by unfold cNack; omega))).trans (originate_across _ _ _)

/-! #### Frames moved off a link, and fences -/

theorem answerQueued_across (s : State) (q : QFrame) (cause : Nat) : Across s (answerQueued s q cause) := by
  unfold answerQueued
  refine Across.ite (.refl s) ?_
  exact (Across.ite (bump_cLink_across s q.inLink 12) (.refl s)).trans (sendNack_across _ _ _ _)

theorem mcCopyLost_across (s : State) (group l : Nat) : Across s (mcCopyLost s group l) := by
  unfold mcCopyLost
  refine (bump_cLink_across s l 14).trans (Across.ite (.refl _) (Across.ite (bump_across _ (.inr (.inr rfl))) ?_))
  exact (raiseEvent_across _ _ _ _ _).after rfl rfl

theorem moveFrame_across (s : State) (q : QFrame) : Across s (moveFrame s q) := by
  unfold moveFrame
  split
  · exact Across.of (reLane_fr s q)
  split
  · exact (Across.of (takeOut_fr s q)).trans (mcCopyLost_across _ _ _)
  split
  · exact (Across.of (takeOut_fr s q)).trans (answerQueued_across _ _ _)
  dsimp only
  have back := (Across.of (liftFrame_fr s q)).trans (deliverCore_across (liftFrame s q)
    { q with f := { q.f with detour := q.f.detour && !q.detourSent }, detourSent := false })
  exact Across.ite back ((back.trans (Across.of (freePlace_fr _ q))).trans (answerQueued_across _ _ _))

theorem fenceEffect_across (s : State) (l : Nat) : Across s (fenceEffect s l) :=
  (Across.forEach _ _ _ fun y a => sendLinkctl_across y a lcQUIESCE).trans (Across.forEach _ _ _ moveFrame_across)

theorem fenceLink_across (s : State) (l src n : Nat) : Across s (fenceLink s l src n) := by
  refine Across.trans ?_ (fenceEffect_across _ l)
  exact (raiseEvent_across _ _ _ _ _).after rfl rfl

theorem countDown_across (s : State) (l : Nat) : Across s (countDown s l) := by
  have auto (x : State) : Across x (autoFence x l 1) := by
    unfold autoFence
    refine Across.ite (.refl x) (Across.ite ((fenceLink_across _ _ _ _).after rfl rfl) ((raiseEvent_across _ _ _ _ _).after rfl rfl))
  unfold countDown
  exact Across.ite ((auto _).after rfl rfl) ((Across.refl _).after rfl rfl)

theorem refreshLink_across (s : State) (l cause : Nat) (counts : Bool) : Across s (refreshLink s l cause counts) := by
  have event (x : State) (code part a0 a1 : Nat) (h : code ∈ deathEvents) : Across x (raiseEvent x code part a0 a1) :=
    raiseEvent_across x code part a0 a1 h
  have o1 : 0x201 ∈ deathEvents := by decide
  have o2 : 0x202 ∈ deathEvents := by decide
  have o3 : 0x203 ∈ deathEvents := by decide
  unfold refreshLink
  dsimp only
  set x := modLink (if (linkUpState (linkStateOf s l) && !linkUpState (link s l).state) = true then startCredits s l else s)
    l fun k => { k with state := linkStateOf s l } with hx
  have e : x.cnt = s.cnt := by rw [hx]; split <;> rfl
  have o : x.out = s.out := by rw [hx]; split <;> rfl
  clear_value x
  refine Across.after ?_ e o
  split
  · have down := (event (modLink x l fun k => { k with cause := cause, partner := k.partner / 2 * 2 }) 0x201
      (partLink l) (l + at_ 16 cause) 0 o1).after (s := x) rfl rfl
    exact Across.ite (down.trans (countDown_across _ l)) down
  split
  · exact (event _ _ _ _ _ o2).trans (Across.ite (event _ _ _ _ _ o3) (.refl _))
  split
  · exact event _ _ _ _ _ o3
  · exact Across.ite ((Across.refl _).after rfl rfl) (.refl _)

/-! #### The death of a lane -/

theorem swapDeath_across (s : State) (q : Nat) : Across s (swapDeath s q) := by
  have transmit : Across s (txSwapDeath s q) := by
    unfold txSwapDeath
    split
    · exact .refl s
    split
    · exact ((raiseEvent_across _ _ _ _ _).trans (Across.of (modChan_fr _ _ _ _))).trans (Across.of (finishSwap_fr _ _ _))
    split
    · exact Across.of (finishSwap_fr s q _)
    split
    · exact .refl s
    split
    · exact (Across.of (modChan_fr s _ _ _)).trans (Across.of (setSwap_fr _ _ _ _))
    · have idle (w : Swap) := (Across.of (setSwap_fr s .tx q {})).trans (Across.of (modChan_fr _ .tx w.spare idleChan))
      exact Across.ite ((idle _).trans (Across.of (calSlotEnd_fr _ _))) (idle _)
  exact transmit.trans (Across.of (rxSwapDeath_fr _ q))

theorem retireLane_across (s : State) (q : Nat) (d : Dir) (cause : Nat) (journal : Bool) :
    Across s (retireLane s q d cause journal) := by
  unfold retireLane
  dsimp only
  refine Across.trans ?_ (refreshLink_across _ _ _ _)
  refine Across.trans (x := laneToDown _ q 7) ?_ ((raiseEvent_across _ 0x107 _ _ _).after rfl rfl)
  refine Across.trans ?_ (Across.of (laneToDown_fr _ _ _))
  have left : Across s (dropSwap (dropSwap (calLeave s q) .tx q) .rx q) :=
    ((Across.of (calLeave_fr s q)).trans (Across.of (dropSwap_fr _ _ _))).trans (Across.of (dropSwap_fr _ _ _))
  have dark := left.trans (Across.of (modChan_fr (dropSwap (dropSwap (calLeave s q) .tx q) .rx q) .tx
    (laneKey (dropSwap (dropSwap (calLeave s q) .tx q) .rx q) .tx q) fun c => { c with state := 8 }))
  exact Across.ite (dark.trans (Across.of (journalChan_fr _ _ _ _ _))) dark

theorem calAbort_across (s : State) (n cause : Nat) : Across s (calAbort s n cause) := by
  have aborted (part a0 : Nat) : Across s (raiseEvent s 0x10B part a0 cause) := raiseEvent_across _ _ _ _ _
  unfold calAbort
  dsimp only
  split
  · exact .refl s
  split
  · exact ((aborted _ _).trans (Across.of (modEngine_fr _ _ _))).trans (Across.of (swapBack_fr _ _ _ _))
  · exact (aborted _ _).trans (Across.of (calSlotEnd_fr _ _))

theorem fadeGo_across (s : State) (q fade : Nat) : Across s (fadeGo s q fade) := by
  have exhausted (x : State) (d : Dir) (k : Nat) : Across x (noteExhausted x d k) := by
    unfold noteExhausted
    exact Across.ite (bump_across x (.inr (.inl rfl))) ((raiseEvent_across _ 0x106 _ _ _).after rfl rfl)
  have started {x t : State} (h : (match usableSpare x .tx q, standInColour x .tx q with
      | some sp, some c => some (startSwap x q sp c 0)
      | _, _ => none) = some t) : Across x t := by
    split at h
    · exact Option.some.inj h ▸ Across.of (startSwap_fr x q _ _ 0)
    · exact nomatch h
  unfold fadeGo
  dsimp only
  split
  · next h => exact started h
  split
  · exact exhausted s _ _
  refine (calAbort_across s (laneKey s .tx q / 256) 1).trans ?_
  split
  · next h => exact started h
  · exact Across.ite (Across.of (queueFade_fr _ q fade)) (exhausted _ _ _)

theorem nextFade_across (s : State) (k : Nat) : Across s (nextFade s k) := by
  unfold nextFade
  split
  · exact .refl s
  split
  · exact .refl s
  · exact Across.ite ((Across.refl _).after rfl rfl) ((fadeGo_across _ _ _).after rfl rfl)

theorem laneLeaves_across (s : State) (q cause : Nat) (dark : Bool) : Across s (laneLeaves s q cause dark) := by
  unfold laneLeaves
  split
  · exact (swapDeath_across s q).trans (retireLane_across _ q .tx cause true)
  · refine Across.trans (x := laneToDown (swapDeath s q) q (if dark then 0 else 1)) ?_
      ((refreshLink_across _ _ _ _).after (by rw [modLink_cnt, modLane_cnt]) (by rw [modLink_out, modLane_out]))
    exact (swapDeath_across s q).trans (Across.of (laneToDown_fr _ _ _))

theorem resyncLeft_across (s : State) (l : Nat) : Across s (resyncLeft s l) := by
  unfold resyncLeft
  split
  · exact .refl s
  · exact Across.forEach _ _ _ fun y t => sendResync_across y _ t

theorem laneDie_across (s : State) (q cause : Nat) (ev dark : Bool) : Across s (laneDie s q cause ev dark) := by
  by_cases up : (lane s q).state = 3 ∨ (lane s q).state = 4
  · have dead (x : State) : Across x (resyncLeft (nextFade (laneLeaves x q cause dark) (laneKey s .tx q)) (linkOf q)) :=
      ((laneLeaves_across _ _ _ _).trans (nextFade_across _ _)).trans (resyncLeft_across _ _)
    have counted : Across s (bump s (cLane q 7)) := bump_across s (.inl (by unfold cLane; omega))
    cases ev with
    | false =>
      rw [laneDie_silent up]
      exact counted.trans (dead _)
    | true =>
      rw [laneDie_of_up up]
      refine Across.trans ?_ (dead _)
      unfold deathNoted
      exact counted.trans (raiseEvent_across _ _ _ _ _)
  · unfold laneDie
    rw [if_pos (by simpa using up)]
    exact .refl s

theorem noteHealth_across (s : State) : Across s (noteHealth s) := by
  unfold noteHealth
  exact Across.ite (.refl s) ((raiseEvent_across _ _ _ _ _).after rfl rfl)

/-! #### Events that a death does not raise -/

/-- An event of another kind than those of a death. -/
def QuietEvent (j : Nat) : Prop := j < 0x1000 ∧ j ∉ deathEvents

theorem QuietEvent.lt {j : Nat} (h : QuietEvent j) : j < 0x34000 := by have := h.1; omega

theorem QuietEvent.ne_one {j : Nat} (h : QuietEvent j) : j ≠ 1 := by
  rintro rfl
  exact h.2 (by decide)

/-- Every quiet event's counter is as it was. -/
def Qk (s t : State) : Prop := ∀ j, QuietEvent j → cntGet t j = cntGet s j

theorem passes_qk : Passes Qk where
  trans h g j k := (g j k).trans (h j k)
  kept e _ j _ := cntGet_congr e j
  sends s q type body j _ := cntGet_congr ((sendOs_fr s q type body).cnt rfl) j
  counts s i h j k := by
    have apart : j ≠ i := by
      rintro rfl
      obtain ⟨low, out⟩ := k
      rcases h with h | rfl | rfl
      · omega
      · exact out (by decide)
      · exact out (by decide)
    rw [cntGet_bump, if_neg apart]
  raises s code part a0 a1 loud j k := by
    rw [raiseEvent_cnt _ _ _ _ _ _ k.lt, if_neg (fun e : j = code => k.2 (e ▸ loud))]

theorem Across.qk {s t : State} (h : Across s t) : Qk s t := h Qk passes_qk

/-! #### The output only grows -/

/-- The output has only grown. -/
def Og (s t : State) : Prop := s.out <+: t.out

theorem eventToRing_og (s : State) (code part a0 a1 e : Nat) : Og s (eventToRing s code part a0 a1 e) := by
  unfold eventToRing
  split
  · exact List.prefix_rfl
  split
  · exact List.prefix_rfl
  · obtain ⟨l, sent⟩ := writeEntry_out s .eq e (mkWord [at_ 52 code, at_ 41 part, nt32 s]) (BitVec.ofNat 64 a0)
      (BitVec.ofNat 64 a1) (s.hif.eventSeq % 2 ^ 32)
    exact ⟨_, sent.symm⟩

theorem raiseEvent_og (s : State) (code part a0 a1 : Nat) : Og s (raiseEvent s code part a0 a1) := by
  have written (l : List Nat) (y : State) : Og y (forEach l y fun s e => eventToRing s code part a0 a1 e) := by
    induction l generalizing y with
    | nil => exact List.prefix_rfl
    | cons e l ih => exact (eventToRing_og y code part a0 a1 e).trans (ih _)
  unfold raiseEvent
  dsimp only
  split
  · exact List.prefix_rfl
  · exact written (List.range 16) { bump s code with
      hif := { (bump s code).hif with eventSeq := ((bump s code).hif.eventSeq + 1) % 2 ^ 32 } }

theorem passes_og : Passes Og where
  trans h g := List.IsPrefix.trans h g
  kept _ e := by
    unfold Og
    rw [e]
  sends s q type body := List.prefix_append _ _
  counts s i _ := List.prefix_rfl
  raises s code part a0 a1 _ := raiseEvent_og s code part a0 a1

theorem Across.og {s t : State} (h : Across s t) : Og s t := h Og passes_og

end Sys2Proof.Machine

/-! ### Credits and retries: R89, R90, R100, R102 -/

namespace Sys2Proof.Machine

set_option Elab.async false

/-- The credit limits of the classes from `base` on are taken from an ordered set. -/
def limitsTaken (s : State) (l base : Nat) (v : Nat → Nat) (ts : List Nat) : State :=
  forEach ts s fun s t => modLink s l fun k => { k with limit := tset 0 k.limit (base + t) (v t) }

theorem limitsTaken_limit (s : State) (l base : Nat) (v : Nat → Nat) (ts : List Nat) (k : Nat) :
    tget 0 (link (limitsTaken s l base v ts) l).limit k =
      if base ≤ k ∧ k - base ∈ ts then v (k - base) else tget 0 (link s l).limit k := by
  induction ts generalizing s with
  | nil => simp [limitsTaken, forEach]
  | cons t ts ih =>
    have step : limitsTaken s l base v (t :: ts) =
      limitsTaken (modLink s l fun k => { k with limit := tset 0 k.limit (base + t) (v t) }) l base v ts := rfl
    rw [step, ih, link_modLink]
    by_cases later : base ≤ k ∧ k - base ∈ ts
    · rw [if_pos later, if_pos ⟨later.1, List.mem_cons_of_mem _ later.2⟩]
    rw [if_neg later]
    by_cases here : k = base + t
    · subst here
      rw [tget_tset_same, if_pos ⟨Nat.le_add_right _ _, by simp⟩, Nat.add_sub_cancel_left]
    · rw [tget_tset_other _ _ _ _ _ _ here, if_neg]
      rintro ⟨low, mem⟩
      rcases List.mem_cons.1 mem with e | e
      · omega
      · exact later ⟨low, e⟩

theorem limitsTaken_fr (s : State) (l base : Nat) (v : Nat → Nat) (ts : List Nat) : Fr 64 s (limitsTaken s l base v ts) :=
  Fr.forEach (m := 64) ts _ (fun y t => modLink_fr y l _) (Fr.refl _ _)

theorem creditReceive_up {s : State} {q : Nat} {hi : Bool} {b : BitVec 104}
    (up : linkUpState (link s (linkOf q)).state = true) : creditReceive q hi b s =
      limitsTaken s (linkOf q) (if hi then 4 else 0) (fun t => bf b (95 - 24 * t) (72 - 24 * t)) (List.range 4) := by
  unfold creditReceive
  rw [up]
  rfl

/-- RETRY of a block that is not held and not the next: its event, and the lane's death without LANE_DEAD. -/
theorem retryReceive_dies {s : State} {q : Nat} {b : BitVec 104} (up : (lane s q).state = 4)
    (lost : ((lane s q).held.any fun k => k.seq == bf b 103 92) = false) (past : bf b 103 92 ≠ (lane s q).nextSeq) :
    retryReceive q b s =
      noteHealth (laneDie (raiseEvent s 0x205 (partLane q) q (bf b 103 92)) q 3 false false) := by
  unfold retryReceive
  exact ((if_neg (by simp [up])).trans (if_neg (by rw [lost]; decide))).trans (if_neg past)

theorem fadeHopeless_noted (s : State) (code part a0 a1 i q : Nat) :
    fadeHopeless (bump (raiseEvent s code part a0 a1) i) q = fadeHopeless s q := by
  rw [raiseEvent_eq]
  exact fadeHopeless_put s _ _ _ q

/-- A death without LANE_DEAD after an event: the lane's new state and the event's counter. -/
theorem silentDeath_spec {s : State} {q cause code part a0 a1 : Nat} (up : (lane s q).state = 4) (quiet : QuietEvent code) :
    let t := noteHealth (laneDie (raiseEvent s code part a0 a1) q cause false false)
    (lane t q).state = (if fadeHopeless s q then 7 else 1) ∧ cntGet t code = (cntGet s code + 1) % 2 ^ 64 := by
  have rose : (lane (raiseEvent s code part a0 a1) q).state = 4 := by rw [(raiseEvent_fr _ _ _ _ _).lane, up]
  have died := ((laneDie_across (raiseEvent s code part a0 a1) q cause false false).trans (noteHealth_across _)).qk
  dsimp only
  constructor
  · rw [laneDie_silent (.inr rose), noteHealth_lane, (resyncLeft_kl _ _).lane_state, (nextFade_fr _ _).lane, laneLeaves_state, fadeHopeless_noted]
    rfl
  · rw [died _ quiet, raiseEvent_cnt _ _ _ _ _ _ quiet.lt, if_pos rfl]

theorem retryTimeout_again {s : State} {q : Nat} (up : (lane s q).state = 4) (waits : (lane s q).awaiting = true)
    (few : (lane s q).attempt < 8) : retryTimeout q s =
      sendRetry (await s (lane s q).retryAt (4 * usT)) q ((lane s q).attempt + 1) := by
  unfold retryTimeout
  dsimp only
  rw [up, waits]
  exact (if_pos rfl).trans (if_pos few)

theorem retryTimeout_last {s : State} {q : Nat} (up : (lane s q).state = 4) (waits : (lane s q).awaiting = true)
    (many : 8 ≤ (lane s q).attempt) : retryTimeout q s =
      noteHealth (laneDie (await s (lane s q).retryAt (4 * usT)) q 3 true false) := by
  unfold retryTimeout
  dsimp only
  rw [up, waits]
  exact (if_pos rfl).trans (if_neg (Nat.not_lt.2 many))

theorem sendRetry_spec (s : State) (q attempt : Nat) :
    (sendRetry s q attempt).now = s.now ∧ (lane (sendRetry s q attempt) q).attempt = attempt ∧
      (lane (sendRetry s q attempt) q).awaiting = true ∧ (lane (sendRetry s q attempt) q).retryAt = s.now ∧
      (sendRetry s q attempt).out = s.out ++ [.os q osRETRY (mkBody [at_ 92 (lane s q).expect, at_ 88 attempt])] := by
  set asked := modLane s q fun x => { x with awaiting := true, attempt := attempt, retryAt := s.now } with ha
  have own : lane asked q = { lane s q with awaiting := true, attempt := attempt, retryAt := s.now } := lane_modLane ..
  set body := mkBody [at_ 92 (lane asked q).expect, at_ 88 attempt] with hb
  have sent : lane (sendRetry s q attempt) q = { lane asked q with osOut := (lane asked q).osOut ++ [(osRETRY, body)] } := by
    rw [show lane (sendRetry s q attempt) q = lane (queueOs asked q osRETRY body) q from rfl]
    exact lane_modLane ..
  have out : (sendRetry s q attempt).out = s.out ++ [.os q osRETRY body] := rfl
  rw [sent, out, hb, own]
  exact ⟨rfl, rfl, rfl, rfl, rfl⟩

/-- Settles O33: credits by `limitsTaken_limit`, a lost block by `silentDeath_spec`, attempts by `sendRetry_spec`. -/
theorem creditsAndRetries : Obligations.CreditsAndRetries := by
  unfold Obligations.CreditsAndRetries
  intro s q b hq
  refine ⟨?_, fun hi down => ?_, fun hi up => ?_, fun up => ⟨?_, fun held => ?_, fun lost => ⟨fun next => ?_, fun past => ?_⟩,
    fun waits few => ?_, fun waits many => ?_⟩⟩
  · rintro c (rfl | rfl) other
    · exact congrArg Host.Outcome.next (if_pos (by simp [other]))
    · exact congrArg Host.Outcome.next (if_pos (by simp [other]))
  · exact congrArg Host.Outcome.next (if_pos (by rw [down]; rfl))
  · refine ⟨_, congrArg Host.Outcome.next (creditReceive_up up), (limitsTaken_fr _ _ _ _ _).onlyChanges _, fun k => ?_⟩
    rw [limitsTaken_limit]
    cases hi <;> simp only [Bool.false_eq_true, if_false, if_true, List.mem_range, Nat.zero_le, true_and, Nat.sub_zero,
      reduceCtorEq, false_and]
    refine if_congr ?_ rfl rfl
    omega
  · refine ⟨_, congrArg Host.Outcome.next (if_neg (by simp [up])), ?_, fun k => ?_⟩
    · exact (modLink_fr s (linkOf q) fun k => { k with
        sent := tset 0 k.sent (bf b 103 101) (bf b 100 77), limit := tset 0 k.limit (bf b 103 101) (bf b 76 53) }).onlyChanges _
    · rw [link_modLink]
      by_cases here : k = bf b 103 101
      · subst here
        rw [if_pos rfl, if_pos rfl]
        exact ⟨tget_tset_same .., tget_tset_same ..⟩
      · rw [if_neg here, if_neg here]
        exact ⟨tget_tset_other _ _ _ _ _ _ here, tget_tset_other _ _ _ _ _ _ here⟩
  · refine ⟨_, congrArg Host.Outcome.next ((if_neg (by simp [up])).trans (if_pos held)), ?_, lane_modLane ..⟩
    exact (modLane_fr s q fun x => { x with replay := some (bf b 103 92) }).onlyChanges _
  · exact congrArg Host.Outcome.next (((if_neg (by simp [up])).trans (if_neg (by rw [lost]; decide))).trans (if_pos next))
  · exact ⟨_, congrArg Host.Outcome.next (retryReceive_dies up lost past), silentDeath_spec up ⟨by decide, by decide⟩⟩
  · obtain ⟨now, attempt, awaiting, at_, out⟩ :=
      sendRetry_spec (await s (lane s q).retryAt (4 * usT)) q ((lane s q).attempt + 1)
    exact ⟨_, congrArg Host.Outcome.next (retryTimeout_again up waits few), now, attempt, awaiting, at_.trans now.symm, out⟩
  · refine ⟨_, congrArg Host.Outcome.next (retryTimeout_last up waits many), ?_, ?_⟩
    · rw [noteHealth_now, (laneDie_fr _ _ _ _ _).now rfl]
      rfl
    · exact LaneDied.noteHealth hq (laneDied_of_laneDie (s := await s (lane s q).retryAt (4 * usT)) hq (.inr up) 3 false)

end Sys2Proof.Machine

/-! ### LINK_CFG.ENABLE: R84, R105, R111 -/

namespace Sys2Proof.Machine

set_option Elab.async false

/-- A loop reaches at each of its elements what the step for it reaches and no other step undoes, under an invariant. -/
theorem forEach_settles {α : Type} {J P : State → Prop} {f : State → α → State} {q : α} (inv : ∀ y a, J y → J (f y a))
    (own : ∀ y, J y → P (f y q)) (keep : ∀ y a, P y → P (f y a)) {l : List α} {s : State} (start : J s)
    (mem : q ∈ l) : P (forEach l s f) := by
  have kept (l : List α) (y : State) (h : P y) : P (forEach l y f) := by
    induction l generalizing y with
    | nil => exact h
    | cons a l ih => exact ih _ (keep y a h)
  induction l generalizing s with
  | nil => exact absurd mem List.not_mem_nil
  | cons a l ih =>
    rcases List.mem_cons.1 mem with rfl | later
    · exact kept l _ (own s start)
    · exact ih (inv s a start) later

/-! #### The register -/

theorem linkCfg_range {l : Nat} (hl : l < 2050) (w : Word) : rangeOk (oLINK_CFG l) w = true := by
  have apart : ∀ o, o < 0xC10000 ∨ 0xC20040 ≤ o → (oLINK_CFG l = o) = False := by
    intro o out
    unfold oLINK_CFG
    simp only [eq_iff_iff, iff_false]
    omega
  simp (disch := decide) only [rangeOk, apart, or_self, if_false]

theorem linkCfg_info {l : Nat} (hl : l < 2050) (v : Variant) (bl2 : Bool) :
    regInfo v bl2 (oLINK_CFG l) = if bl2 then { reset := 3, rw := 1 } else { reset := 1, rw := 3 } := by
  have apart : ∀ o, o < 0xC10000 ∨ 0xC20040 ≤ o → (oLINK_CFG l = o) = False := by
    intro o out
    unfold oLINK_CFG
    simp only [eq_iff_iff, iff_false]
    omega
  have low : ¬ oLINK_CFG l < 0x800000 := by unfold oLINK_CFG; omega
  have optics : ¬ (0x800000 ≤ oLINK_CFG l ∧ oLINK_CFG l < 0x800000 + 34 * 0x10000) := by unfold oLINK_CFG; omega
  have own : 0xC10000 ≤ oLINK_CFG l ∧ oLINK_CFG l < 0xC10000 + 0x20 * 2050 ∧ oLINK_CFG l % 0x20 = 0 := by
    unfold oLINK_CFG; omega
  unfold regInfo
  rw [if_neg (by omega), if_neg low, if_pos (by omega)]
  unfold regInfoOpt
  simp (disch := decide) only [if_neg optics, apart, if_false, if_pos own]

/-- ENABLE reads what is written to it. -/
theorem linkEnabled_writeReg {s : State} {l : Nat} (hl : l < 2050) (v : Word) :
    linkEnabled (writeReg s (oLINK_CFG l) v) l = bit v 0 := by
  have written := writeReg_written s (oLINK_CFG l) v (oLINK_CFG l)
  rw [if_pos ⟨rfl, linkCfg_range hl _⟩, linkCfg_info hl] at written
  unfold linkEnabled
  rw [written]
  generalize (getR s (oLINK_CFG l)).toNat = old
  cases s.boot.strapBl2 <;> cases lockedAt s (oLINK_CFG l) <;>
    simp [bit, applyWrite, regClip, regBits, Nat.testBit_or, Nat.testBit_and, ones]

/-! #### ENABLE 0 -/

/-- A lane of a disabled link goes down, unless it is held by a circuit or retired. -/
def laneShut (s : State) (q : Nat) : State :=
  if (lane s q).state = 5 ∨ (lane s q).state = 7 ∨ (lane s q).state = 8 then s
  else
    let s := laneToDown s q 8
    if engineLit s (engineOfLane q) then sendLinkctl s q lcDISABLE else s

/-- The state in which ENABLE 0 leaves a lane. -/
def disabledState (st : Nat) : Nat := if st = 5 ∨ st = 7 then st else 8

theorem disabledState_idem (st : Nat) : disabledState (disabledState st) = disabledState st := by
  unfold disabledState
  split <;> simp_all

theorem laneShut_own (s : State) (q : Nat) : (lane (laneShut s q) q).state = disabledState (lane s q).state := by
  unfold laneShut disabledState
  by_cases held : (lane s q).state = 5 ∨ (lane s q).state = 7
  · rw [if_pos (by omega), if_pos held]
  rw [if_neg held]
  by_cases down : (lane s q).state = 8
  · rw [if_pos (by omega), down]
  rw [if_neg (by omega)]
  dsimp only
  split
  · rw [(sendLinkctl_kl _ _ _).lane_state, laneToDown_own]
  · exact laneToDown_own s q 8

theorem laneShut_other (s : State) {q j : Nat} (other : j ≠ q) :
    (lane (laneShut s q) j).state = (lane s j).state := by
  unfold laneShut
  split
  · rfl
  dsimp only
  split
  · rw [(sendLinkctl_kl _ _ _).lane_state, laneToDown_other _ _ other]
  · exact laneToDown_other s 8 other

theorem laneShut_fr (s : State) (q : Nat) : Fr 197 s (laneShut s q) := by
  unfold laneShut
  refine Fr.ite (Fr.refl _ _) ?_
  have down : Fr 197 s (laneToDown s q 8) := Fr.mono (m := 193) (laneToDown_fr s q 8)
  exact Fr.ite (Fr.step (sendLinkctl_fr _ _ _) down) down

/-- Every lane of a link that is disabled is in its state for that. -/
theorem lanesShut_state (s : State) (l : Nat) {q : Nat} (hq : q ∈ lanesOf l) :
    (lane (forEach (lanesOf l) s laneShut) q).state = disabledState (lane s q).state := by
  refine forEach_settles (J := fun y => disabledState (lane y q).state = disabledState (lane s q).state)
    (P := fun y => (lane y q).state = disabledState (lane s q).state) (fun y a h => ?_) (fun y h => ?_) (fun y a h => ?_)
    rfl hq
  · by_cases same : q = a
    · subst same
      rw [laneShut_own, disabledState_idem, h]
    · rw [laneShut_other _ same, h]
  · rw [laneShut_own, h]
  · by_cases same : q = a
    · subst same
      rw [laneShut_own, h, disabledState_idem]
    · rw [laneShut_other _ same, h]

/-- The link of an unconfigured ENABLE 0, before its state follows its lanes. -/
def linkTakenDown (s : State) (l : Nat) (v : Word) : State :=
  modLink (forEach (lanesOf l) (writeReg s (oLINK_CFG l) (v &&& ~~~1)) laneShut) l
    fun k => { k with margin := none, retryAt := none }

theorem linkDisable_eq {s : State} {f : Func} {l : Nat} {v : Word} (may : mayWriteMain s f = true)
    (taken : linkCfgIgnored s l v = false) : linkDisable f l v s =
      modLink (refreshLink (linkTakenDown s l v) l 7 false) l fun k => { k with cause := 7 } := by
  unfold linkDisable
  rw [may, taken]
  rfl

theorem bit_clear_zero (v : Word) : bit (v &&& ~~~1) 0 = false := by
  simp [bit]

theorem linkTakenDown_disabled {s : State} {l : Nat} (hl : l < 2050) (v : Word) :
    linkEnabled (linkTakenDown s l v) l = false := by
  have kept : Fr 197 (writeReg s (oLINK_CFG l) (v &&& ~~~1)) (linkTakenDown s l v) :=
    Fr.step (modLink_fr _ _ _) (Fr.forEach (m := 197) _ _ laneShut_fr (Fr.refl _ _))
  unfold linkEnabled
  rw [kept.getR]
  exact (linkEnabled_writeReg hl _).trans (bit_clear_zero v)

theorem linkTakenDown_lane (s : State) (l : Nat) (v : Word) {q : Nat} (hq : q ∈ lanesOf l) :
    (lane (linkTakenDown s l v) q).state = disabledState (lane s q).state := by
  unfold linkTakenDown
  rw [lane_modLink, lanesShut_state _ _ hq, (writeReg_fr _ _ _).lane]

theorem linkDisable_spec {s : State} {f : Func} {l : Nat} {v : Word} (may : mayWriteMain s f = true)
    (taken : linkCfgIgnored s l v = false) (hl : l < 2050) :
    let t := linkDisable f l v s
    linkEnabled t l = false ∧ (link t l).state = 4 ∧ (link t l).cause = 7 ∧ (link t l).margin = none ∧
      (link t l).retryAt = none ∧ ∀ q, q ∈ lanesOf l → (lane t q).state = disabledState (lane s q).state := by
  have down := linkTakenDown_disabled (s := s) hl v
  have own := (refreshLink_kl (linkTakenDown s l v) l 7 false).lk l
  have kept : Fr 114885 (linkTakenDown s l v)
      (modLink (refreshLink (linkTakenDown s l v) l 7 false) l fun k => { k with cause := 7 }) :=
    Fr.step (modLink_fr _ _ _) (refreshLink_fr _ _ _ _)
  dsimp only
  rw [linkDisable_eq may taken]
  refine ⟨?_, ?_, ?_, ?_, ?_, fun q hq => ?_⟩
  · unfold linkEnabled at down ⊢
    rw [kept.getR, down]
  · rw [link_modLink]
    dsimp only
    rw [refreshLink_state]
    unfold linkStateOf
    rw [down]
    rfl
  · rw [link_modLink]
  · rw [link_modLink]
    dsimp only
    rw [own.margin]
    unfold linkTakenDown
    rw [link_modLink]
  · rw [link_modLink]
    dsimp only
    rw [own.retryAt]
    unfold linkTakenDown
    rw [link_modLink]
  · rw [lane_modLink, (refreshLink_kl _ _ _ _).lane_state, linkTakenDown_lane _ _ _ hq]

/-! #### ENABLE 1 -/

/-- A lane of a link that is enabled: a DISABLED lane starts again, one that a test retired is tested again. -/
def laneReopened (s : State) (q : Nat) : State :=
  if (lane s q).state = 8 then restartLane s q
  else if (lane s q).state = 7 && (lane s q).marginRetired then
    let mine := (workKey s q :: spareKeys (workKey s q)).filter fun k =>
      (chan s .tx k).state == 8 && (chan s .tx k).lane == q
    let s := forEach mine s fun s k => modChan s .tx k fun c => { c with state := 2 }
    modLane s q fun x => { clearLane x with state := 1, needFull := true, marginRetired := false }
  else s

/-- A channel's change leaves lanes and engines. -/
theorem chansBack_kept (s : State) (ks : List Nat) :
    (forEach ks s fun s k => modChan s .tx k fun c => { c with state := 2 }).lnk = s.lnk ∧
      ∀ n, engine (forEach ks s fun s k => modChan s .tx k fun c => { c with state := 2 }) n = engine s n :=
  ⟨forEach_keeps (fun y => y.lnk) (fun s k => modChan s .tx k fun c => { c with state := 2 }) (fun _ _ => rfl) ks s,
    fun n => forEach_keeps (fun y => engine y n) (fun s k => modChan s .tx k fun c => { c with state := 2 })
      (fun _ _ => rfl) ks s⟩

theorem laneReopened_engine (s : State) (q n : Nat) : engine (laneReopened s q) n = engine s n := by
  unfold laneReopened
  split
  · rfl
  split
  · exact (chansBack_kept s _).2 n
  · rfl

theorem laneReopened_other (s : State) {q j : Nat} (other : j ≠ q) : lane (laneReopened s q) j = lane s j := by
  unfold laneReopened
  split
  · unfold restartLane
    dsimp only
    rw [lane_modLane_ite, if_neg other]
  split
  · dsimp only
    rw [lane_modLane_ite, if_neg other]
    exact lane_congr (chansBack_kept s _).1 j
  · rfl

theorem laneReopened_restarts {s : State} {q : Nat} (h : (lane s q).state = 8) :
    (lane (laneReopened s q) q).state = if (lane s q).los = false ∧ engineLit s (engineOfLane q) = true then 1 else 0 := by
  unfold laneReopened
  rw [if_pos h]
  unfold restartLane
  dsimp only
  rw [lane_modLane]
  cases (lane s q).los <;> cases engineLit s (engineOfLane q) <;> rfl

theorem laneReopened_idle {s : State} {q : Nat} (h8 : (lane s q).state ≠ 8) (h7 : (lane s q).state ≠ 7) :
    laneReopened s q = s := by
  unfold laneReopened
  rw [if_neg h8, if_neg (by simp [h7])]

/-- Every lane of the link that was DISABLED locks again, or waits for light. -/
theorem lanesReopened_state {s : State} {l q : Nat} (hq : q ∈ lanesOf l) (disabled : (lane s q).state = 8) :
    (lane (forEach (lanesOf l) s laneReopened) q).state =
      if (lane s q).los = false ∧ engineLit s (engineOfLane q) = true then 1 else 0 := by
  set target := (if (lane s q).los = false ∧ engineLit s (engineOfLane q) = true then 1 else 0) with ht
  have small : target ≠ 8 ∧ target ≠ 7 := by
    rw [ht]
    split <;> decide
  have lit (y : State) (a : Nat) : engineLit (laneReopened y a) (engineOfLane q) = engineLit y (engineOfLane q) := by
    unfold engineLit
    rw [laneReopened_engine]
  have keep (y : State) (a : Nat) (h : (lane y q).state = target) : (lane (laneReopened y a) q).state = target := by
    by_cases same : q = a
    · subst same
      rw [laneReopened_idle (by rw [h]; exact small.1) (by rw [h]; exact small.2), h]
    · rw [laneReopened_other _ same, h]
  have own (y : State) (h : (lane y q).state = 8) (los : (lane y q).los = (lane s q).los)
      (same : engineLit y (engineOfLane q) = engineLit s (engineOfLane q)) : (lane (laneReopened y q) q).state = target := by
    rw [laneReopened_restarts h, los, same]
  refine forEach_settles (J := fun y => (lane y q).state = target ∨ ((lane y q).state = 8 ∧
    (lane y q).los = (lane s q).los ∧ engineLit y (engineOfLane q) = engineLit s (engineOfLane q)))
    (P := fun y => (lane y q).state = target) (fun y a h => ?_) (fun y h => ?_) keep (.inr ⟨disabled, rfl, rfl⟩) hq
  · rcases h with h | ⟨h, los, same⟩
    · exact .inl (keep y a h)
    · by_cases here : q = a
      · subst here
        exact .inl (own y h los same)
      · refine .inr ⟨?_, ?_, (lit y a).trans same⟩
        · rw [laneReopened_other _ here, h]
        · rw [laneReopened_other _ here, los]
  · rcases h with h | ⟨h, los, same⟩
    · exact keep y q h
    · exact own y h los same

theorem linkEnable_again {s : State} {f : Func} {l : Nat} {v : Word} (may : mayWriteMain s f = true)
    (taken : linkCfgIgnored s l v = false) (was : linkEnabled s l = true) :
    linkEnable f l v s = writeReg s (oLINK_CFG l) (v ||| 1) := by
  unfold linkEnable
  rw [may, taken, was]
  rfl

/-- The link of an ENABLE 1, before its state follows its lanes. -/
def linkTakenUp (s : State) (l : Nat) (v : Word) : State :=
  modLink (forEach (lanesOf l) (writeReg s (oLINK_CFG l) (v ||| 1)) laneReopened) l fun k => { k with retryAt := none }

theorem linkEnable_eq {s : State} {f : Func} {l : Nat} {v : Word} (may : mayWriteMain s f = true)
    (taken : linkCfgIgnored s l v = false) (was : linkEnabled s l = false) :
    linkEnable f l v s = noteHealth (refreshLink (linkTakenUp s l v) l 0 false) := by
  unfold linkEnable
  rw [may, taken, was]
  exact (if_neg (by decide)).trans (if_neg (by decide))

theorem bit_set_zero (v : Word) : bit (v ||| 1) 0 = true := by
  simp [bit, Nat.testBit_or]

theorem laneReopened_fr (s : State) (q : Nat) : Fr 96 s (laneReopened s q) := by
  unfold laneReopened
  refine Fr.ite (Fr.mono (m := 64) (restartLane_fr s q)) (Fr.ite ?_ (Fr.refl _ _))
  exact Fr.step (modLane_fr _ _ _) (Fr.forEach (m := 96) _ _ (fun y k => Fr.mono (m := 32) (modChan_fr y .tx k _))
    (Fr.refl _ _))

theorem linkTakenUp_enabled {s : State} {l : Nat} (hl : l < 2050) (v : Word) :
    linkEnabled (linkTakenUp s l v) l = true := by
  have kept : Fr 96 (writeReg s (oLINK_CFG l) (v ||| 1)) (linkTakenUp s l v) :=
    Fr.step (modLink_fr _ _ _) (Fr.forEach (m := 96) _ _ laneReopened_fr (Fr.refl _ _))
  unfold linkEnabled
  rw [kept.getR]
  exact (linkEnabled_writeReg hl _).trans (bit_set_zero v)

theorem linkTakenUp_lane {s : State} {l q : Nat} (v : Word) (hq : q ∈ lanesOf l) (disabled : (lane s q).state = 8) :
    (lane (linkTakenUp s l v) q).state =
      if (lane s q).los = false ∧ engineLit s (engineOfLane q) = true then 1 else 0 := by
  have wrote := (writeReg_fr s (oLINK_CFG l) (v ||| 1)).lane q
  have engines : engineLit (writeReg s (oLINK_CFG l) (v ||| 1)) = engineLit s := by
    funext n
    unfold engineLit engine
    rw [writeReg_opt]
  unfold linkTakenUp
  rw [lane_modLink, lanesReopened_state hq (by rw [wrote, disabled]), wrote, engines]

theorem linkEnable_spec {s : State} {f : Func} {l : Nat} {v : Word} (may : mayWriteMain s f = true)
    (taken : linkCfgIgnored s l v = false) (hl : l < 2050) (was : linkEnabled s l = false) :
    let t := linkEnable f l v s
    linkEnabled t l = true ∧ (link t l).retryAt = none ∧ ∀ q, q ∈ lanesOf l → (lane s q).state = 8 →
      (lane t q).state = if (lane s q).los = false ∧ engineLit s (engineOfLane q) = true then 1 else 0 := by
  have up := linkTakenUp_enabled (s := s) hl v
  have kept : Fr 114885 (linkTakenUp s l v) (noteHealth (refreshLink (linkTakenUp s l v) l 0 false)) :=
    Fr.step (noteHealth_fr _) (refreshLink_fr _ _ _ _)
  dsimp only
  rw [linkEnable_eq may taken was]
  refine ⟨?_, ?_, fun q hq disabled => ?_⟩
  · unfold linkEnabled at up ⊢
    rw [kept.getR, up]
  · rw [(noteHealth_fr _).link, ((refreshLink_kl _ _ _ _).lk l).retryAt]
    unfold linkTakenUp
    rw [link_modLink]
  · rw [noteHealth_lane, (refreshLink_kl _ _ _ _).lane_state, linkTakenUp_lane v hq disabled]

/-- Settles O34: each lane of the link is settled by `lanesShut_state` and `lanesReopened_state`. -/
theorem linksEnabledAndDisabled : Obligations.LinksEnabledAndDisabled := by
  unfold Obligations.LinksEnabledAndDisabled
  intro s f l v
  refine ⟨?_, fun may taken hl => ⟨⟨_, rfl, linkDisable_spec may taken hl⟩, ?_⟩⟩
  · rintro c (rfl | rfl) barred
    · exact congrArg Host.Outcome.next (if_pos (by rcases barred with h | h <;> simp [h]))
    · exact congrArg Host.Outcome.next (if_pos (by rcases barred with h | h <;> simp [h]))
  · by_cases was : linkEnabled s l = true
    · refine ⟨_, congrArg Host.Outcome.next (linkEnable_again may taken was), ?_, fun _ => ?_, fun h => ?_⟩
      · exact (linkEnabled_writeReg hl _).trans (bit_set_zero v)
      · exact (writeReg_fr s (oLINK_CFG l) (v ||| 1)).onlyChanges _
      · rw [was] at h
        exact absurd h (by decide)
    · obtain ⟨enabled, retry, lanes⟩ := linkEnable_spec may taken hl (Bool.eq_false_iff.2 was)
      exact ⟨_, rfl, enabled, fun h => absurd h was, fun _ => ⟨retry, lanes⟩⟩

end Sys2Proof.Machine

/-! ### Channels and the lanes they carry: R40, R54, R60 -/

namespace Sys2Proof.Machine

set_option Elab.async false

theorem mem_lanesOf {q : Nat} (hq : q < 4160) : q ∈ lanesOf (linkOf q) := by
  unfold lanesOf linkOf
  by_cases spine : q < 4096
  · rw [if_pos spine, if_pos (by omega)]
    simp only [List.mem_cons, List.not_mem_nil, or_false]
    omega
  · rw [if_neg spine, if_neg (by omega)]
    refine List.mem_map.2 ⟨(q - 4096) % 32, List.mem_range.2 (Nat.mod_lt _ (by decide)), ?_⟩
    omega

theorem workKey_congr {s t : State} (pos : getR t oFABRIC_POS = getR s oFABRIC_POS) (q : Nat) :
    workKey t q = workKey s q := by
  unfold workKey colourOfLane posJ rf
  rw [pos]

theorem laneOfKey_congr {s t : State} (pos : getR t oFABRIC_POS = getR s oFABRIC_POS) (k : Nat) :
    laneOfKey t k = laneOfKey s k := by
  unfold laneOfKey posJ rf
  rw [pos]

theorem chan_congr {s t : State} (opt : t.opt = s.opt) (pos : getR t oFABRIC_POS = getR s oFABRIC_POS) (d : Dir) (k : Nat) :
    chan t d k = chan s d k := by
  unfold chan storedChan nominalChan
  rw [opt, laneOfKey_congr pos]

theorem laneKey_congr {s t : State} (opt : t.opt = s.opt) (pos : getR t oFABRIC_POS = getR s oFABRIC_POS) (d : Dir)
    (q : Nat) : laneKey t d q = laneKey s d q := by
  have e : chan t = chan s := funext fun d => funext fun k => chan_congr opt pos d k
  unfold laneKey
  rw [workKey_congr pos, e]

theorem Fr.chan {m : Nat} {s t : State} (h : Fr m s t) (d : Dir) (k : Nat) (h5 : m.testBit 5 = false := by rfl)
    (h1 : m.testBit 1 = false := by rfl) (h3 : m.testBit 3 = false := by rfl) : Machine.chan t d k = Machine.chan s d k :=
  chan_congr (h.opt h5) (h.getR _ h1 h3) d k

theorem Fr.laneKey {m : Nat} {s t : State} (h : Fr m s t) (d : Dir) (q : Nat) (h5 : m.testBit 5 = false := by rfl)
    (h1 : m.testBit 1 = false := by rfl) (h3 : m.testBit 3 = false := by rfl) :
    Machine.laneKey t d q = Machine.laneKey s d q := laneKey_congr (h.opt h5) (h.getR _ h1 h3) d q

/-! #### A channel that changes -/

theorem chan_modChan_same (s : State) (d : Dir) (k : Nat) (f : Chan → Chan) (h : (f (chan s d k)).state ≠ 0) :
    chan (modChan s d k f) d k = f (chan s d k) := by
  have stored : storedChan (modChan s d k f) d k = f (chan s d k) := by
    unfold storedChan modChan setChan
    cases d <;> exact tget_tset_same ..
  rw [show chan (modChan s d k f) d k = if (storedChan (modChan s d k f) d k).state = 0 then
    nominalChan (modChan s d k f) k (storedChan (modChan s d k f) d k) else storedChan (modChan s d k f) d k from rfl,
    stored, if_neg h]

theorem chan_modChan_other (s : State) (d : Dir) (k : Nat) (f : Chan → Chan) {d' : Dir} {k' : Nat} (h : ¬ (d' = d ∧ k' = k)) :
    chan (modChan s d k f) d' k' = chan s d' k' := by
  have stored : storedChan (modChan s d k f) d' k' = storedChan s d' k' := by
    unfold storedChan modChan setChan
    cases d <;> cases d'
    · exact tget_tset_other _ _ _ _ _ _ fun e => h ⟨rfl, e⟩
    · rfl
    · rfl
    · exact tget_tset_other _ _ _ _ _ _ fun e => h ⟨rfl, e⟩
  have nominal (c : Chan) : nominalChan (modChan s d k f) k' c = nominalChan s k' c := by
    unfold nominalChan modChan setChan
    cases d <;> rfl
  unfold chan
  dsimp only
  rw [stored, nominal]

theorem getR_modChan (s : State) (d : Dir) (k : Nat) (f : Chan → Chan) (o : Nat) : getR (modChan s d k f) o = getR s o :=
  (modChan_fr s d k f).getR o

/-- Whether a channel carries a lane. -/
def carriesLane (s : State) (d : Dir) (k q : Nat) : Bool := (chan s d k).lane == q && carries (chan s d k)

theorem laneKey_of_carries {s t : State} (pos : getR t oFABRIC_POS = getR s oFABRIC_POS) {d : Dir} {q : Nat}
    (h : ∀ k, carriesLane t d k q = carriesLane s d k q) : laneKey t d q = laneKey s d q := by
  have e : (fun k => carriesLane t d k q) = fun k => carriesLane s d k q := funext h
  rw [show laneKey t d q = ((spareKeys (workKey t q)).find? fun k => carriesLane t d k q).getD (workKey t q) from rfl,
    show laneKey s d q = ((spareKeys (workKey s q)).find? fun k => carriesLane s d k q).getD (workKey s q) from rfl,
    workKey_congr pos, e]

/-- A spare's own change, from idle to tested or failed, moves no lane. -/
theorem markSpare_laneKey (s : State) (d : Dir) (k : Nat) (ok : Bool) (d' : Dir) (q : Nat) :
    laneKey (markSpare s d k ok) d' q = laneKey s d' q := by
  unfold markSpare
  by_cases idle : (chan s d k).state = 5
  · rw [if_neg (by simp [idle])]
    refine laneKey_of_carries (getR_modChan _ _ _ _ _) fun k' => ?_
    by_cases here : d' = d ∧ k' = k
    · obtain ⟨rfl, rfl⟩ := here
      unfold carriesLane
      rw [chan_modChan_same _ _ _ _ (by split <;> simp [idle])]
      cases ok <;> simp [carries, idle]
    · unfold carriesLane
      rw [chan_modChan_other _ _ _ _ here]
  · rw [if_pos (by simp [idle])]

end Sys2Proof.Machine

/-! ### Margin tests: R52 to R57 -/

namespace Sys2Proof.Machine

set_option Elab.async false

/-! #### Lanes that come up -/

/-- Lanes that come up, before their link follows. -/
def lanesRaised (s : State) (qs : List Nat) : State :=
  forEach qs s fun s q => modLane s q fun x =>
    { x with
      state := 4, lastHb := s.now, quickAt := none, quickOwn := none, quickPartner := none, quickErr := [],
      quickSpare := false, needFull := false, wakeDirect := false, hcrcBad := false }

theorem lanesToUp_stay {s : State} {l : Nat} (down : linkMayRise s l = false) (qs : List Nat) : lanesToUp s l qs = s := by
  unfold lanesToUp
  exact if_pos (by rw [down]; rfl)

theorem lanesToUp_raised {s : State} {l : Nat} {qs : List Nat} (may : linkMayRise s l = true) (some : qs ≠ []) :
    Kl true (lanesRaised s qs) (lanesToUp s l qs) := by
  have up : Kl true (lanesRaised s qs) (refreshLink (lanesRaised s qs) l 0 false) := refreshLink_kl _ _ _ _
  have sent (y : State) : Kl true y (forEach qs y fun s q => sendLinkctl s q lcQUIESCE) :=
    Kl.forEach _ _ (fun y q => (sendLinkctl_kl y q _).loose) (Kl.refl _ _)
  have e : lanesToUp s l qs = if fenced (refreshLink (lanesRaised s qs) l 0 false) l then
      forEach qs (refreshLink (lanesRaised s qs) l 0 false) fun s q => sendLinkctl s q lcQUIESCE
      else refreshLink (lanesRaised s qs) l 0 false := by
    unfold lanesToUp
    exact if_neg (by simp [may, some])
  rw [e]
  split
  · exact (sent _).step up
  · exact up

theorem lanesToUp_kl (s : State) (l : Nat) (qs : List Nat) :
    lanesToUp s l qs = s ∨ Kl true (lanesRaised s qs) (lanesToUp s l qs) := by
  by_cases may : linkMayRise s l = true
  · by_cases some : qs = []
    · left
      unfold lanesToUp
      exact if_pos (by simp [some])
    · exact .inr (lanesToUp_raised may some)
  · exact .inl (lanesToUp_stay (Bool.eq_false_iff.2 may) qs)

theorem lanesRaised_other {s : State} {qs : List Nat} {q : Nat} (h : q ∉ qs) : lane (lanesRaised s qs) q = lane s q := by
  unfold lanesRaised
  induction qs generalizing s with
  | nil => rfl
  | cons a qs ih =>
    rw [List.mem_cons, not_or] at h
    obtain ⟨here, later⟩ := h
    exact (ih later).trans (tget_tset_other _ _ _ _ _ _ here)

theorem lanesRaised_own {s : State} {qs : List Nat} {q : Nat} (h : q ∈ qs) : (lane (lanesRaised s qs) q).state = 4 := by
  unfold lanesRaised
  refine forEach_reaches (fun q y => (lane y q).state = 4) _ (fun y a => ?_) (fun y a b h => ?_) qs s q h
  · rw [lane_modLane]
  · rw [lane_modLane_ite]
    split
    · rfl
    · exact h

theorem lanesRaised_link (s : State) (qs : List Nat) (l : Nat) : link (lanesRaised s qs) l = link s l :=
  forEach_keeps (fun y => link y l) (fun s q => modLane s q fun x =>
    { x with
      state := 4, lastHb := s.now, quickAt := none, quickOwn := none, quickPartner := none, quickErr := [],
      quickSpare := false, needFull := false, wakeDirect := false, hcrcBad := false }) (fun _ _ => rfl) qs s

/-- Lanes that do not come up are as they were, but for what they have sent. -/
theorem lanesToUp_other {s : State} {l : Nat} {qs : List Nat} {q : Nat} (h : q ∉ qs) :
    lane (lanesToUp s l qs) q = { lane s q with osOut := (lane (lanesToUp s l qs) q).osOut } := by
  rcases lanesToUp_kl s l qs with e | kept
  · rw [e]
  · rw [kept.lanes q, lanesRaised_other h]

theorem lanesToUp_link (s : State) (l : Nat) (qs : List Nat) (j : Nat) :
    LinkKept true (link s j) (link (lanesToUp s l qs) j) := by
  rcases lanesToUp_kl s l qs with e | kept
  · rw [e]
    exact LinkKept.refl _ _
  · have h := kept.links j
    rwa [lanesRaised_link] at h

theorem lanesToUp_up {s : State} {l : Nat} {qs : List Nat} {q : Nat} (may : linkMayRise s l = true) (h : q ∈ qs) :
    (lane (lanesToUp s l qs) q).state = 4 := by
  rw [(lanesToUp_raised may (List.ne_nil_of_mem h)).lane_state, lanesRaised_own h]

/-! #### A test that starts, and its steps -/

theorem marginBegin_spec (s : State) (l : Nat) :
    (∃ m, (link (marginBegin s l) l).margin = some m ∧ m.startAt = s.now ∧ m.round = 1 ∧ m.phase = 0) ∧
      (link (marginBegin s l) l).retryAt = (link s l).retryAt := by
  set places := (List.range (lanesOf l).length).filter fun p =>
    (lane s (laneAt l p)).state == 3 && (lane s (laneAt l p)).needFull with hp
  set y := forEach places s fun s p => spareColours s (laneAt l p) with hy
  have kept : Fr 32 s y := Fr.forEach (m := 32) places _ (fun y p => spareColours_fr y _) (Fr.refl _ _)
  have e : marginBegin s l = modLink y l fun k => { k with margin := some {
      startAt := y.now, testing := (places.map fun p => [2 * p, 2 * p + 1]).flatten } } := rfl
  rw [e, link_modLink]
  refine ⟨⟨_, rfl, kept.now rfl, rfl, rfl⟩, ?_⟩
  dsimp only
  rw [kept.link]

theorem linkMayRise_congr {s t : State} {l : Nat} (regs : getR t = getR s) (retry : (link t l).retryAt = (link s l).retryAt)
    (partner : (link t l).partnerDisabled = (link s l).partnerDisabled) : linkMayRise t l = linkMayRise s l := by
  unfold linkMayRise posValid linkEnabled onePlane rf
  rw [regs, retry, partner]

/-- The lanes of a link whose test has passed. -/
def passedLanes (s : State) (l : Nat) : List Nat :=
  (lanesOf l).filter fun q => (lane s q).state == 3 && (lane s q).needFull

/-- A passed test before its lanes come up: power is restored and the channels moved to are journalled. -/
def powerRestored (s : State) (l : Nat) (m : Margin) : State :=
  let s := modLink (await s m.windowAt msT) l fun k => { k with margin := none }
  forEach (m.moves.filter fun mv => (passedLanes s l).contains (mv.1 / 2)) s journalMove

theorem marginPowerStep_restores {s : State} {l : Nat} {m : Margin} (h : (link s l).margin = some m) (passed : m.phase = 5) :
    marginPowerStep l s = noteHealth (lanesToUp (powerRestored s l m) l (passedLanes s l)) := by
  unfold marginPowerStep
  rw [h]
  dsimp only
  rw [if_neg (by rw [passed]; decide), if_pos passed]
  rfl

theorem journalMove_regs (s : State) (mv : Nat × Nat × Nat × Nat) : getR (journalMove s mv) = getR s := by
  have noted (x : State) (kind k colour serves : Nat) : getR (journalChan x kind k colour serves) = getR x := rfl
  unfold journalMove
  dsimp only
  split
  · split
    · exact noted _ _ _ _ _
    · rfl
  · split
    · split
      · exact (noted _ _ _ _ _).trans (noted _ _ _ _ _)
      · exact noted _ _ _ _ _
    · split
      · exact noted _ _ _ _ _
      · rfl

theorem powerRestored_now (s : State) (l : Nat) (m : Margin) :
    (powerRestored s l m).now = max s.now (m.windowAt + msT) := by
  unfold powerRestored
  exact ((Fr.forEach (m := 8) _ _ (fun y mv => journalMove_fr y mv) (Fr.refl _ _)).now rfl).trans rfl

theorem powerRestored_lnk (s : State) (l : Nat) (m : Margin) :
    (powerRestored s l m).lnk = (modLink s l fun k => { k with margin := none }).lnk := by
  unfold powerRestored
  exact ((Fr.forEach (m := 8) _ _ (fun y mv => journalMove_fr y mv) (Fr.refl _ _)).lnk rfl).trans rfl

theorem marginPowerStep_restored {s : State} {l : Nat} {m : Margin} (h : (link s l).margin = some m) (passed : m.phase = 5) :
    let t := marginPowerStep l s
    t.now = max s.now (m.windowAt + msT) ∧ (link t l).margin = none ∧
      (linkMayRise s l = true → ∀ q, q ∈ lanesOf l → (lane s q).state = 3 → (lane s q).needFull = true →
        (lane t q).state = 4) ∧
      (linkMayRise s l = false → t.lnk.lanes = s.lnk.lanes) := by
  have links : link (powerRestored s l m) l = { link s l with margin := none } := by
    rw [link_congr (powerRestored_lnk s l m), link_modLink]
  have regs : getR (powerRestored s l m) = getR s := by
    unfold powerRestored
    exact (forEach_keeps getR journalMove journalMove_regs _ _).trans rfl
  have may : linkMayRise (powerRestored s l m) l = linkMayRise s l :=
    linkMayRise_congr regs (by rw [links]) (by rw [links])
  dsimp only
  rw [marginPowerStep_restores h passed]
  refine ⟨?_, ?_, fun rise q hq testing full => ?_, fun down => ?_⟩
  · rw [noteHealth_now, (lanesToUp_fr _ _ _).now rfl, powerRestored_now]
  · rw [(noteHealth_fr _).link, (lanesToUp_link _ _ _ _).margin, links]
  · rw [noteHealth_lane]
    refine lanesToUp_up (by rw [may, rise]) (List.mem_filter.2 ⟨hq, ?_⟩)
    rw [testing, full]
    rfl
  · rw [lanesToUp_stay (by rw [may, down]), (noteHealth_fr _).lnk rfl, powerRestored_lnk]
    rfl

theorem marginWindowOpen_spec {s : State} {l : Nat} {m : Margin} (h : (link s l).margin = some m)
    (due : m.phase = 1 ∨ m.phase = 4) : marginWindowOpen l s =
      modLink (await s m.startAt ((2 + 13 * (m.round - 1)) * msT)) l fun k => { k with margin := some { m with
        phase := 2, windowAt := max s.now (m.startAt + (2 + 13 * (m.round - 1)) * msT) } } := by
  unfold marginWindowOpen
  rw [h]
  exact if_pos due

theorem marginReportWaitExpiry_spec {s : State} {l : Nat} {m : Margin} (h : (link s l).margin = some m)
    (waits : m.phase = 3) :
    let t := marginReportWaitExpiry l s
    t.now = max s.now (m.startAt + 100 * msT) ∧ (link t l).margin = none ∧ (link t l).retryAt = some t.now ∧
      cntGet t 0x109 = (cntGet s 0x109 + 1) % 2 ^ 64 := by
  set n := max s.now (m.startAt + 100 * msT) with hn
  set y := modLink (await s m.startAt (100 * msT)) l fun k =>
    { k with margin := none, retryAt := some n, cause := 6 } with hy
  have e : marginReportWaitExpiry l s = raiseEvent (refreshLink y l 6 false) 0x109 (partLink l) l 0 := by
    unfold marginReportWaitExpiry
    rw [h]
    exact if_pos waits
  have own := (refreshLink_kl y l 6 false).links l
  have quiet : QuietEvent 0x109 := ⟨by decide, by decide⟩
  have now : (marginReportWaitExpiry l s).now = n := by
    rw [e, raiseEvent_now, refreshLink_now]
    rfl
  dsimp only
  rw [now, e, (raiseEvent_fr _ _ _ _ _).link, raiseEvent_cnt _ _ _ _ _ _ quiet.lt, if_pos rfl,
    (refreshLink_across y l 6 false).qk _ quiet, own.margin, own.retryAt, hy, link_modLink]
  exact ⟨rfl, rfl, rfl, rfl⟩

theorem marginRetry_spec {s : State} {l a : Nat} (waits : (link s l).retryAt = some a) (untested : (link s l).margin = none)
    (ready : marginReady (modLink s l fun k => { k with retryAt := none }) l = true) :
    let t := marginRetry l s
    t.now = max s.now (a + secT) ∧ (link t l).retryAt = none ∧
      ∃ m, (link t l).margin = some m ∧ m.startAt = t.now ∧ m.round = 1 := by
  set y := modLink (await s a secT) l fun k => { k with retryAt := none } with hy
  have e : marginRetry l s = marginBegin (refreshLink y l 0 false) l := by
    unfold marginRetry
    rw [waits, untested]
    exact if_pos ready
  obtain ⟨⟨m, own, start, round, -⟩, retry⟩ := marginBegin_spec (refreshLink y l 0 false) l
  have now : (marginRetry l s).now = (refreshLink y l 0 false).now := by rw [e, (marginBegin_fr _ _).now rfl]
  dsimp only
  rw [now]
  refine ⟨?_, ?_, m, by rw [e, own], start, round⟩
  · rw [refreshLink_now]
    rfl
  · rw [e, retry, ((refreshLink_kl y l 0 false).links l).retryAt, hy, link_modLink]

end Sys2Proof.Machine

/-! ### Counts and quick checks: R53, R55 to R57 -/

namespace Sys2Proof.Machine

set_option Elab.async false

/-! #### The window closes -/

/-- What is reported of one test of a round: the own counts where it is of the receive direction. -/
def reportTest (l : Nat) (m : Margin) (s : State) (t : Nat) : State :=
  if t % 2 = 0 then s
  else
    let q := laneAt l (t / 2)
    let code := chanCode (laneKey s .rx q)
    let s := sendReport s q code m.round (errorsOf (tget 0 m.own (marginKey (t / 2) code))) 255000 false
    if m.round ≠ 1 then s
    else forEach ([1, 2].filter fun c => c != code) s fun s c =>
      sendReport s q c 1 (errorsOf (tget 0 m.own (marginKey (t / 2) c))) 255000 false

theorem sendReport_across (s : State) (q ch round errors limit : Nat) (quick : Bool) :
    Across s (sendReport s q ch round errors limit quick) := sendOs_across s q _ _

theorem reportTest_across (l : Nat) (m : Margin) (s : State) (t : Nat) : Across s (reportTest l m s t) := by
  have sent (y : State) (q : Nat) (cs : List Nat) : Across y (forEach cs y fun s c =>
      sendReport s q c 1 (errorsOf (tget 0 m.own (marginKey (t / 2) c))) 255000 false) :=
    Across.forEach _ _ _ fun y c => sendReport_across y _ _ _ _ _ _
  unfold reportTest
  exact Across.ite (.refl s) ((sendReport_across _ _ _ _ _ _ _).trans (Across.ite (.refl _) (sent _ _ _)))

theorem reportTest_fr (l : Nat) (m : Margin) (s : State) (t : Nat) : Fr 68 s (reportTest l m s t) := by
  have sent (y : State) (q : Nat) (cs : List Nat) : Fr 68 y (forEach cs y fun s c =>
      sendReport s q c 1 (errorsOf (tget 0 m.own (marginKey (t / 2) c))) 255000 false) :=
    Fr.forEach (m := 68) _ _ (fun y c => sendReport_fr y _ _ _ _ _ _) (Fr.refl _ _)
  have first := sendReport_fr s (laneAt l (t / 2)) (chanCode (laneKey s .rx (laneAt l (t / 2)))) m.round
    (errorsOf (tget 0 m.own (marginKey (t / 2) (chanCode (laneKey s .rx (laneAt l (t / 2))))))) 255000 false
  unfold reportTest
  exact Fr.ite (Fr.refl _ _) (Fr.ite first ((sent _ _ _).step first))

theorem sendReport_kl (s : State) (q ch round errors limit : Nat) (quick : Bool) :
    Kl false s (sendReport s q ch round errors limit quick) := sendOs_kl s q _ _

theorem reportTest_kl (l : Nat) (m : Margin) (s : State) (t : Nat) : Kl false s (reportTest l m s t) := by
  have sent (y x : State) (q : Nat) (cs : List Nat) (h : Kl false y x) : Kl false y (forEach cs x fun s c =>
      sendReport s q c 1 (errorsOf (tget 0 m.own (marginKey (t / 2) c))) 255000 false) :=
    Kl.forEach _ _ (fun y c => sendReport_kl y _ _ _ _ _ _) h
  unfold reportTest
  exact Kl.ite (Kl.refl _ s) (Kl.ite (sendReport_kl _ _ _ _ _ _ _) (sent _ _ _ _ (sendReport_kl _ _ _ _ _ _ _)))

/-- The report of the receive channel of a place. -/
def ownReport (s : State) (l : Nat) (m : Margin) (p : Nat) : Output :=
  let q := laneAt l p
  let n := errorsOf (tget 0 m.own (marginKey p (chanCode (laneKey s .rx q))))
  .os q osMARGIN_REPORT (mkBody [at_ 99 (linkLane q), at_ 97 (chanCode (laneKey s .rx q)),
    at_ 95 (m.round % 4), at_ 94 0, at_ 93 (b2n (decide (n ≤ 255000))), at_ 69 (min 0xFFFFFF n)])

theorem reportTest_sends (l : Nat) (m : Margin) (s : State) (p : Nat) :
    ownReport s l m p ∈ (reportTest l m s (2 * p + 1)).out := by
  have half : (2 * p + 1) / 2 = p := by omega
  have odd : ¬ (2 * p + 1) % 2 = 0 := by omega
  set q := laneAt l p with hq
  set x := sendReport s q (chanCode (laneKey s .rx q)) m.round
    (errorsOf (tget 0 m.own (marginKey p (chanCode (laneKey s .rx q))))) 255000 false with hx
  have first : ownReport s l m p ∈ x.out := by
    rw [hx]
    exact List.mem_append_right _ List.mem_cons_self
  unfold reportTest
  rw [if_neg odd, half]
  dsimp only
  split
  · exact first
  · have more : Across x (forEach ([1, 2].filter fun c => c != chanCode (laneKey s .rx q)) x fun s c =>
        sendReport s q c 1 (errorsOf (tget 0 m.own (marginKey p c))) 255000 false) :=
      Across.forEach _ _ _ fun y c => sendReport_across y _ _ _ _ _ _
    exact more.og.subset first

/-- The counts of a window that closes, and what each test of the round reports of them. -/
def windowClosed (s : State) (l : Nat) (m : Margin) : State :=
  modLink (await s m.windowAt (10 * msT)) l fun k => { k with margin := some m }

def windowReported (s : State) (l : Nat) (m : Margin) : State :=
  forEach m.testing (windowClosed s l m) (reportTest l m)

theorem marginWindowClose_eq {s : State} {l : Nat} {m : Margin} {counts : Tab (Nat × Nat)}
    (h : (link s l).margin = some m) (isOpen : m.phase = 2) : marginWindowClose l counts s =
      let n := { m with phase := 3, own := addCounts m.own counts }
      noteHealth (if reportsIn (windowReported s l n) l n then marginJudge (windowReported s l n) l n
        else windowReported s l n) := by
  unfold marginWindowClose
  rw [h]
  exact if_pos isOpen

theorem windowReported_fr (s : State) (l : Nat) (m : Margin) : Fr 68 (windowClosed s l m) (windowReported s l m) :=
  Fr.forEach (m := 68) _ _ (reportTest_fr l m) (Fr.refl _ _)

theorem windowReported_kl (s : State) (l : Nat) (m : Margin) : Kl false (windowClosed s l m) (windowReported s l m) :=
  Kl.forEach _ _ (reportTest_kl l m) (Kl.refl _ _)

theorem windowReported_laneKey (s : State) (l : Nat) (m : Margin) (d : Dir) (q : Nat) :
    laneKey (windowReported s l m) d q = laneKey s d q := by
  rw [(windowReported_fr s l m).laneKey]
  exact laneKey_congr rfl rfl d q

theorem windowReported_link (s : State) (l : Nat) (m : Margin) : (link (windowReported s l m) l).margin = some m := by
  rw [((windowReported_kl s l m).links l).margin]
  unfold windowClosed
  rw [link_modLink]

theorem windowReported_state (s : State) (l : Nat) (m : Margin) (q : Nat) :
    (lane (windowReported s l m) q).state = (lane s q).state := by
  rw [(windowReported_kl s l m).lane_state]
  rfl

theorem windowReported_now (s : State) (l : Nat) (m : Margin) :
    (windowReported s l m).now = max s.now (m.windowAt + 10 * msT) := by
  rw [(windowReported_fr s l m).now rfl]
  rfl

theorem windowReported_sends {s : State} {l : Nat} {m : Margin} {p : Nat} (h : 2 * p + 1 ∈ m.testing) :
    ownReport s l m p ∈ (windowReported s l m).out := by
  have keyed {y z : State} (e : laneKey y .rx (laneAt l p) = laneKey z .rx (laneAt l p)) :
      ownReport y l m p = ownReport z l m p := by
    unfold ownReport
    dsimp only
    rw [e]
  have start : laneKey (windowClosed s l m) .rx (laneAt l p) = laneKey s .rx (laneAt l p) := laneKey_congr rfl rfl _ _
  refine forEach_settles (q := 2 * p + 1) (f := reportTest l m)
    (J := fun y => laneKey y .rx (laneAt l p) = laneKey s .rx (laneAt l p))
    (P := fun y => ownReport s l m p ∈ y.out) (fun y a h => ?_) (fun y h => ?_) (fun y a h => ?_) start h
  · exact ((reportTest_fr l m y a).laneKey _ _).trans h
  · rw [← keyed h]
    exact reportTest_sends l m y p
  · exact (reportTest_across l m y a).og.subset h

theorem reportsIn_congr {s t : State} {l : Nat} {m : Margin} (h : ∀ q, laneKey t .tx q = laneKey s .tx q) :
    reportsIn t l m = reportsIn s l m := by
  unfold reportsIn
  rw [show laneKey t .tx = laneKey s .tx from funext h]

/-! #### A round is judged -/

theorem Og.refl (s : State) : Og s s := List.prefix_rfl

theorem Og.trans {s x t : State} (h : Og s x) (g : Og x t) : Og s t := List.IsPrefix.trans h g

theorem Og.of {m : Nat} {s t : State} (h : Fr m s t) (ho : m.testBit 2 = false := by rfl) : Og s t := by
  unfold Og
  rw [h.out ho]

theorem Og.of_out {s t : State} (h : t.out = s.out) : Og s t := by
  unfold Og
  rw [h]

theorem Og.forEach {α : Type} (l : List α) (s : State) (f : State → α → State) (h : ∀ y a, Og y (f y a)) :
    Og s (forEach l s f) := by
  induction l generalizing s with
  | nil => exact .refl s
  | cons a l ih => exact (h s a).trans (ih (f s a))

theorem noteMove_og (s : State) (d : Dir) (q old spare col : Nat) : Og s (noteMove s d q old spare col) := by
  unfold noteMove
  refine Og.trans ?_ (raiseEvent_og _ _ _ _ _)
  split
  · exact Og.of (modLink_fr _ _ _)
  · exact Og.of (journalMove_fr _ _)

theorem moveToSpare_og (s : State) (q spare : Nat) : Og s (moveToSpare s q spare) := by
  unfold moveToSpare
  exact Og.trans ((Og.of (modChan_fr _ _ _ _)).trans (Og.of (modChan_fr _ _ _ _)))
    ((noteMove_og _ _ _ _ _ _).trans (sendOs_across _ _ _ _).og)

theorem judgeTest_og (l : Nat) (m : Margin) (r : State × List Nat × List (Nat × Dir)) (t : Nat) :
    Og r.1 (judgeTest l m r t).1 := by
  obtain ⟨s, again, dead⟩ := r
  unfold judgeTest
  dsimp only
  split
  · exact .refl s
  split
  · dsimp only
    split
    · exact (raiseEvent_og s _ _ _ _).trans (moveToSpare_og _ _ _)
    · exact raiseEvent_og s _ _ _ _
  · exact raiseEvent_og s _ _ _ _

/-- What the tests of a round come to: the state, the tests of the next round and the lanes to retire. -/
def roundJudged (s : State) (l : Nat) (m : Margin) : State × List Nat × List (Nat × Dir) :=
  m.testing.foldl (judgeTest l m) ((if m.round = 1 then judgeSpares s l m else s), [], [])

/-- The lanes that a round gives up are retired. -/
def roundRetired (r : State × List Nat × List (Nat × Dir)) : State :=
  forEach r.2.2 r.1 fun s x => retireLane (undoMove (undoMove s .tx x.1) .rx x.1) x.1 x.2 6 false

/-- The next round is set up, or full power is to come back. -/
def roundEnded (s : State) (l : Nat) (m : Margin) (again : List Nat) : State :=
  let moves := ((link s l).margin.map (·.moves)).getD []
  if !again.isEmpty then
    modLink s l fun k => { k with margin := some { m with
      round := m.round + 1, phase := 4, testing := again, own := [], partner := [], moves := moves } }
  else if lanesIn s l 3 = 0 then
    raiseEvent (modLink s l fun k => { k with margin := none, cause := 6 }) 0x201 (partLink l) (l + at_ 16 6) 0
  else modLink s l fun k => { k with margin := some { m with
    phase := 5, windowAt := s.now, testing := [], moves := moves } }

theorem marginJudge_eq (s : State) (l : Nat) (m : Margin) : marginJudge s l m =
    let r := roundJudged s l m
    roundEnded (roundRetired r) l m (r.2.1.filter fun t => !(r.2.2.any fun x => x.1 == laneAt l (t / 2))) := rfl

theorem roundEnded_og (s : State) (l : Nat) (m : Margin) (again : List Nat) : Og s (roundEnded s l m again) := by
  have judged (f : Link → Link) : Og s (modLink s l f) := Og.of (modLink_fr _ _ _)
  unfold roundEnded
  dsimp only
  split
  · exact judged _
  split
  · exact (judged _).trans (raiseEvent_og _ _ _ _ _)
  · exact judged _

theorem marginJudge_og (s : State) (l : Nat) (m : Margin) : Og s (marginJudge s l m) := by
  have judged (ts : List Nat) (r : State × List Nat × List (Nat × Dir)) : Og r.1 (ts.foldl (judgeTest l m) r).1 := by
    induction ts generalizing r with
    | nil => exact .refl _
    | cons t ts ih => exact (judgeTest_og l m r t).trans (ih _)
  have undone (x : State) (d : Dir) (q : Nat) : Og x (undoMove x d q) := Og.of (undoMove_fr x d q)
  have retired (r : State × List Nat × List (Nat × Dir)) : Og r.1 (roundRetired r) :=
    Og.forEach _ _ _ fun y a => ((undone y _ _).trans (undone _ _ _)).trans (retireLane_across _ _ _ _ _).og
  have spares : Og s (if m.round = 1 then judgeSpares s l m else s) := by
    split
    · exact Og.of (judgeSpares_fr s l m)
    · exact .refl s
  have tests : Og s (roundJudged s l m).1 := spares.trans (judged m.testing ((if m.round = 1 then judgeSpares s l m else s), [], []))
  rw [marginJudge_eq]
  exact (tests.trans (retired _)).trans (roundEnded_og _ _ _ _)

/-- A round in which every test has passed: full power is to come back. -/
theorem marginJudge_passed {s : State} {l : Nat} {m : Margin} (own : (link s l).margin = some m)
    (passed : ∀ x, x ∈ m.testing → (testResult s l m x).2 = true) (left : lanesIn s l 3 ≠ 0) :
    (link (marginJudge s l m) l).margin = some { m with phase := 5, windowAt := s.now, testing := [] } := by
  set y := (if m.round = 1 then judgeSpares s l m else s) with hy
  have kept : Fr 32 s y := by
    rw [hy]
    exact Fr.ite (judgeSpares_fr s l m) (Fr.refl _ _)
  have keys (d : Dir) (q : Nat) : laneKey y d q = laneKey s d q := by
    rw [hy]
    split
    · unfold judgeSpares
      refine forEach_keeps (fun x => laneKey x d q) _ (fun x p => ?_) _ s
      refine forEach_keeps (fun x => laneKey x d q) _ (fun x k => ?_) _ x
      dsimp only
      split
      · exact markSpare_laneKey _ _ _ _ _ _
      · rw [markSpare_laneKey, markSpare_laneKey]
    · rfl
  have result (x : Nat) : testResult y l m x = testResult s l m x := by
    unfold testResult
    rw [show laneKey y = laneKey s from funext fun d => funext fun q => keys d q]
  have first (t : Nat) (h : (testResult s l m t).2 = true) : judgeTest l m (y, [], []) t = (y, [], []) := by
    unfold judgeTest
    dsimp only
    rw [result, h]
    rfl
  have none (ts : List Nat) (h : ∀ x ∈ ts, (testResult s l m x).2 = true) :
      ts.foldl (judgeTest l m) (y, [], []) = (y, [], []) := by
    induction ts with
    | nil => rfl
    | cons t ts ih =>
      rw [List.foldl_cons, first t (h t List.mem_cons_self)]
      exact ih fun x hx => h x (List.mem_cons_of_mem _ hx)
  have lanes : lanesIn y l 3 = lanesIn s l 3 := by
    unfold lanesIn
    rw [show lane y = lane s from funext fun q => kept.lane q]
  have e : marginJudge s l m = roundEnded y l m [] := by
    rw [marginJudge_eq, show roundJudged s l m = (y, [], []) from none m.testing passed]
    rfl
  have f : roundEnded y l m [] = modLink y l fun k => { k with margin := some { m with
      phase := 5, windowAt := y.now, testing := [], moves := ((link y l).margin.map (·.moves)).getD [] } } := by
    unfold roundEnded
    exact (if_neg (by decide)).trans (if_neg (by rw [lanes]; exact left))
  rw [e, f, link_modLink, kept.link, kept.now rfl, own]
  rfl

end Sys2Proof.Machine

/-! ### Quick checks: R57, R88 -/

namespace Sys2Proof.Machine

set_option Elab.async false

/-- The quick check waits for the result of either end. -/
theorem quickJudge_waits {s : State} {q : Nat} (h : (lane s q).quickOwn = none ∨ (lane s q).quickPartner = none) :
    quickJudge s q = s := by
  unfold quickJudge
  split
  · next own partner =>
    rcases h with h | h
    · rw [h] at own
      exact nomatch own
    · rw [h] at partner
      exact nomatch partner
  · rfl

/-- A lane that has not passed its quick check is left as it is, but for what it has sent. -/
theorem quickRaise_other {s : State} {l q : Nat} (h : quickPassed (lane s q) = false) :
    lane (quickRaise s l) q = { lane s q with osOut := (lane (quickRaise s l) q).osOut } := by
  have out : q ∉ (lanesOf l).filter fun q => quickPassed (lane s q) := by
    intro mem
    rw [(List.mem_filter.1 mem).2] at h
    exact absurd h (by decide)
  have e : quickRaise s l = s ∨ quickRaise s l = lanesToUp s l ((lanesOf l).filter fun q => quickPassed (lane s q)) := by
    unfold quickRaise
    dsimp only
    split
    · exact .inl rfl
    · exact .inr rfl
  rcases e with e | e
  · rw [e]
  · rw [e]
    exact lanesToUp_other out

/-- A failed quick check tests the spares of the fibre. -/
theorem quickJudge_failed {s : State} {q : Nat} {a b : Bool} (own : (lane s q).quickOwn = some a)
    (partner : (lane s q).quickPartner = some b) (failed : (a && b) = false) :
    let x := lane (quickJudge s q) q
    x.state = (lane s q).state ∧ x.quickSpare = true ∧ x.quickAt = some s.now := by
  set z := modLane (spareColours s q) q fun x => { x with quickAt := some s.now, quickErr := [], quickSpare := true } with hz
  have colours : lane (spareColours s q) q = lane s q := (spareColours_fr s q).lane q
  have own' : lane z q = { lane s q with quickAt := some s.now, quickErr := [], quickSpare := true } := by
    rw [hz, lane_modLane, colours]
  have e : quickJudge s q = quickRaise z (linkOf q) := by
    unfold quickJudge
    rw [own, partner]
    dsimp only
    rw [failed]
    rfl
  have notPassed : quickPassed (lane z q) = false := by
    unfold quickPassed
    rw [own']
    dsimp only
    rw [own, partner]
    cases a <;> cases b <;> simp_all
  dsimp only
  rw [e, quickRaise_other notPassed, own']
  exact ⟨rfl, rfl, rfl⟩

/-- A passed quick check on a link that is up raises its lane. -/
theorem quickJudge_passed {s : State} {q : Nat} (hq : q < 4160) (testing : (lane s q).state = 3)
    (isOpen : (lane s q).quickAt.isSome = true) (own : (lane s q).quickOwn = some true)
    (partner : (lane s q).quickPartner = some true) (may : linkMayRise s (linkOf q) = true)
    (up : linkUpState (link s (linkOf q)).state = true) : (lane (quickJudge s q) q).state = 4 := by
  have e : quickJudge s q = lanesToUp s (linkOf q) ((lanesOf (linkOf q)).filter fun q => quickPassed (lane s q)) := by
    have judged : quickJudge s q = quickRaise s (linkOf q) := by
      unfold quickJudge
      rw [own, partner]
      rfl
    rw [judged]
    unfold quickRaise
    exact if_neg (by rw [up]; simp)
  rw [e]
  refine lanesToUp_up may (List.mem_filter.2 ⟨mem_lanesOf hq, ?_⟩)
  unfold quickPassed
  rw [testing, isOpen, own, partner]
  rfl

/-! #### The window of a quick check closes -/

/-- The errors that the lane's own end counted. -/
def ownErrors (s : State) (q : Nat) (counts : Tab (Nat × Nat)) : Nat :=
  errorsOf (tget 0 (addCounts (lane s q).quickErr counts) (chanCode (laneKey s .rx q)))

/-- The window has closed: the counts are taken, reported and judged at this end. -/
def quickClosed (s : State) (q a : Nat) (counts : Tab (Nat × Nat)) : State :=
  let n := ownErrors s q counts
  let s := modLane s q fun x => { x with quickErr := if x.quickAt.isSome then addCounts x.quickErr counts else x.quickErr }
  let s := await s a msT
  modLane (sendReport s q (chanCode (laneKey s .rx q)) 0 n 25500 true) q
    fun l => { l with quickOwn := some (decide (n ≤ 25500)) }

theorem quickCheckWindowClose_eq {s : State} {q a : Nat} (counts : Tab (Nat × Nat)) (testing : (lane s q).state = 3)
    (isOpen : (lane s q).quickAt = some a) (first : (lane s q).quickSpare = false) (unknown : (lane s q).quickOwn = none) :
    quickCheckWindowClose q counts s = quickJudge (quickClosed s q a counts) q := by
  set y := modLane s q fun x => { x with
    quickErr := if x.quickAt.isSome then addCounts x.quickErr counts else x.quickErr } with hy
  have own : lane y q = { lane s q with quickErr := addCounts (lane s q).quickErr counts } := by
    rw [hy, lane_modLane, if_pos (by rw [isOpen]; rfl)]
  have keys (x : State) (opt : x.opt = s.opt) (regs : getR x oFABRIC_POS = getR s oFABRIC_POS) :
      laneKey x .rx q = laneKey s .rx q := laneKey_congr opt regs _ _
  have counted : quickCount (lane y q) (chanCode (laneKey s .rx q)) = ownErrors s q counts := by
    rw [own]
    rfl
  unfold quickCheckWindowClose
  dsimp only
  rw [← hy]
  refine (if_neg ?_).trans ((if_pos ?_).trans ?_)
  · rw [own]
    simp [first]
  · rw [own]
    simp [testing, isOpen, unknown]
  · rw [show (lane y q).quickAt = some a by rw [own, isOpen]]
    rw [show awaitOpt y (some a) msT = await y a msT from rfl, keys (await y a msT) rfl rfl, counted]
    unfold quickClosed
    dsimp only
    rw [← hy, keys (await y a msT) rfl rfl]

theorem quickClosed_now (s : State) (q a : Nat) (counts : Tab (Nat × Nat)) :
    (quickClosed s q a counts).now = max s.now (a + msT) := by
  unfold quickClosed
  dsimp only
  rw [modLane_now, (sendReport_fr _ _ _ _ _ _ _).now rfl]
  rfl

theorem quickClosed_lane (s : State) (q a : Nat) (counts : Tab (Nat × Nat)) :
    let x := lane (quickClosed s q a counts) q
    x.state = (lane s q).state ∧ x.quickAt = (lane s q).quickAt ∧ x.quickPartner = (lane s q).quickPartner ∧
      x.quickOwn = some (decide (ownErrors s q counts ≤ 25500)) := by
  unfold quickClosed
  dsimp only
  rw [lane_modLane, (sendReport_kl _ _ _ _ _ _ _).lanes q]
  rw [show lane (await (modLane s q _) a msT) q = lane (modLane s q _) q from rfl, lane_modLane]
  exact ⟨rfl, rfl, rfl, rfl⟩

theorem quickClosed_may (s : State) (q a : Nat) (counts : Tab (Nat × Nat)) (l : Nat) :
    linkMayRise (quickClosed s q a counts) l = linkMayRise s l ∧
      (link (quickClosed s q a counts) l).state = (link s l).state := by
  set n := ownErrors s q counts
  set y := await (modLane s q fun x => { x with
    quickErr := if x.quickAt.isSome then addCounts x.quickErr counts else x.quickErr }) a msT with hy
  have kept : LinkKept false (link y l) (link (quickClosed s q a counts) l) :=
    ((sendReport_kl y q (chanCode (laneKey y .rx q)) 0 n 25500 true).links l)
  have regs : getR (quickClosed s q a counts) = getR s := by
    funext o
    exact ((sendReport_fr y q (chanCode (laneKey y .rx q)) 0 n 25500 true).getR o).trans rfl
  exact ⟨linkMayRise_congr regs kept.retryAt kept.partnerDisabled, kept.state rfl⟩

theorem quickCheckWindowClose_now {s : State} {q a : Nat} (counts : Tab (Nat × Nat)) (testing : (lane s q).state = 3)
    (isOpen : (lane s q).quickAt = some a) (first : (lane s q).quickSpare = false) (unknown : (lane s q).quickOwn = none) :
    (quickCheckWindowClose q counts s).now = max s.now (a + msT) := by
  rw [quickCheckWindowClose_eq counts testing isOpen first unknown, (quickJudge_fr _ _).now rfl, quickClosed_now]

/-! #### What the partner reports of a quick check -/

/-- The partner's result of the lane's transmit channel. -/
def partnerJudged (s : State) (q : Nat) (ok : Bool) : State := modLane s q fun l => { l with quickPartner := some ok }

theorem marginReport_quick {s : State} {q : Nat} {b : BitVec 104} (testing : (lane s q).state = 3) (quick : bf b 94 94 = 1)
    (own : bf b 98 97 = chanCode (laneKey s .tx q)) :
    marginReport q b s = quickJudge (partnerJudged s q (bf b 93 93 == 1)) q := by
  unfold marginReport
  refine (if_neg ?_).trans ((if_pos quick).trans (if_pos own))
  simp [testing]

theorem marginReport_spare {s : State} {q : Nat} {b : BitVec 104} (testing : (lane s q).state = 3) (quick : bf b 94 94 = 1)
    (other : bf b 98 97 ≠ chanCode (laneKey s .tx q)) : Fr 32 s (marginReport q b s) := by
  have e : marginReport q b s = forEach ((spareKeys (laneKey s .tx q)).filter fun x => chanCode x == bf b 98 97) s
      fun s x => markSpare s .tx x (bf b 93 93 == 1) := by
    unfold marginReport
    refine (if_neg ?_).trans ((if_pos quick).trans (if_neg other))
    simp [testing]
  rw [e]
  exact Fr.forEach (m := 32) _ _ (fun y x => markSpare_fr y _ _ _) (Fr.refl _ _)

theorem marginReport_counts {s : State} {q : Nat} {b : BitVec 104} {m : Margin} (testing : (lane s q).state = 3)
    (full : bf b 94 94 ≠ 1) (h : (link s (linkOf q)).margin = some m) (early : m.phase ≠ 3) (round : bf b 96 95 = m.round) :
    marginReport q b s = modLink s (linkOf q) fun k => { k with margin := some { m with
      partner := tset 0 m.partner (marginKey (bf b 103 99) (bf b 98 97))
        (bf b 92 69 + at_ 24 (bf b 93 93) + at_ 25 1) } } := by
  unfold marginReport
  refine (if_neg (by simp [testing])).trans ((if_neg full).trans ?_)
  dsimp only
  rw [h]
  exact (if_neg (not_not.2 round)).trans (if_neg (by simp [early]))

/-! #### The obligation -/

theorem marginWindowClose_spec {s : State} {l : Nat} {m : Margin} {counts : Tab (Nat × Nat)}
    (h : (link s l).margin = some m) (isOpen : m.phase = 2) :
    let n := { m with phase := 3, own := addCounts m.own counts }
    let t := marginWindowClose l counts s
    t.now = max s.now (m.windowAt + 10 * msT) ∧ (∀ p, 2 * p + 1 ∈ m.testing → ownReport s l n p ∈ t.out) ∧
      (reportsIn s l n = false → (link t l).margin = some n) ∧
      (reportsIn s l n = true → lanesIn s l 3 ≠ 0 → (∀ x, x ∈ m.testing → (testResult s l n x).2 = true) →
        (link t l).margin = some { n with phase := 5, windowAt := t.now, testing := [] }) := by
  intro n
  set z := windowReported s l n with hz
  have keys (d : Dir) (q : Nat) : laneKey z d q = laneKey s d q := windowReported_laneKey s l n d q
  have reports : reportsIn z l n = reportsIn s l n := reportsIn_congr (keys .tx)
  have now : z.now = max s.now (m.windowAt + 10 * msT) := windowReported_now s l n
  have done : (marginWindowClose l counts s).now = z.now := by
    rw [marginWindowClose_eq h isOpen, noteHealth_now]
    split
    · exact (marginJudge_fr _ _ _).now rfl
    · rfl
  have grown : Og z (marginWindowClose l counts s) := by
    rw [marginWindowClose_eq h isOpen]
    refine Og.trans ?_ (noteHealth_across _).og
    split
    · exact marginJudge_og _ _ _
    · exact .refl _
  refine ⟨done.trans now, fun p hp => grown.subset (windowReported_sends hp), fun missing => ?_, fun all left passed => ?_⟩
  · rw [marginWindowClose_eq h isOpen, (noteHealth_fr _).link]
    rw [if_neg (by rw [← hz, reports, missing]; decide)]
    exact windowReported_link s l n
  · have results (x : Nat) : testResult z l n x = testResult s l n x := by
      unfold testResult
      rw [show laneKey z = laneKey s from funext fun d => funext fun q => keys d q]
    have lanes : lanesIn z l 3 = lanesIn s l 3 := by
      unfold lanesIn
      rw [show (fun q => (lane z q).state == 3) = fun q => (lane s q).state == 3 from
        funext fun q => by rw [windowReported_state]]
    rw [done, marginWindowClose_eq h isOpen, (noteHealth_fr _).link]
    rw [if_pos (by rw [← hz, reports, all])]
    exact marginJudge_passed (windowReported_link s l n) (fun x hx => by rw [results]; exact passed x hx)
      (by rw [lanes]; exact left)

theorem quickCheckWindowClose_spec {s : State} {q a n : Nat} {counts : Tab (Nat × Nat)} (hq : q < 4160)
    (testing : (lane s q).state = 3) (isOpen : (lane s q).quickAt = some a) (first : (lane s q).quickSpare = false)
    (unknown : (lane s q).quickOwn = none) (errors : n = ownErrors s q counts) :
    let t := quickCheckWindowClose q counts s
    t.now = max s.now (a + msT) ∧
      ((lane s q).quickPartner = none → (lane t q).state = 3 ∧ (lane t q).quickOwn = some (decide (n ≤ 25500))) ∧
      (∀ p, (lane s q).quickPartner = some p → p = false ∨ 25500 < n →
        (lane t q).state = 3 ∧ (lane t q).quickSpare = true ∧ (lane t q).quickAt = some t.now) ∧
      ((lane s q).quickPartner = some true → n ≤ 25500 → linkMayRise s (linkOf q) = true →
        linkUpState (link s (linkOf q)).state = true → (lane t q).state = 4) := by
  have now := quickCheckWindowClose_now counts testing isOpen first unknown
  have e := quickCheckWindowClose_eq counts testing isOpen first unknown
  obtain ⟨state, at_, partner, own⟩ := quickClosed_lane s q a counts
  rw [← errors] at own
  obtain ⟨rise, up⟩ := quickClosed_may s q a counts (linkOf q)
  refine ⟨now, fun waits => ?_, fun p known failed => ?_, fun known good may linked => ?_⟩
  · rw [e, quickJudge_waits (.inr (by rw [partner, waits]))]
    exact ⟨state.trans testing, own⟩
  · have both : (decide (n ≤ 25500) && p) = false := by
      rcases failed with rfl | many
      · exact Bool.and_false _
      · rw [decide_eq_false (Nat.not_le.2 many), Bool.false_and]
    obtain ⟨state', spare, at'⟩ := quickJudge_failed own (partner.trans known) both
    rw [now, e]
    exact ⟨state'.trans (state.trans testing), spare, at'.trans (congrArg some (quickClosed_now s q a counts))⟩
  · rw [e]
    exact quickJudge_passed hq (state.trans testing) (by rw [at_, isOpen]; rfl) (by rw [own, decide_eq_true good])
      (partner.trans known) (rise.trans may) (by rw [up, linked])

theorem marginReport_quick_spec {s : State} {q : Nat} {b : BitVec 104} (hq : q < 4160) (testing : (lane s q).state = 3)
    (quick : bf b 94 94 = 1) (working : bf b 98 97 = chanCode (laneKey s .tx q)) :
    let t := marginReport q b s
    ((lane s q).quickOwn = none → (lane t q).state = 3 ∧ (lane t q).quickPartner = some (bf b 93 93 == 1)) ∧
      (∀ p, (lane s q).quickOwn = some p → p = false ∨ bf b 93 93 ≠ 1 →
        (lane t q).state = 3 ∧ (lane t q).quickSpare = true ∧ (lane t q).quickAt = some s.now) ∧
      ((lane s q).quickOwn = some true → bf b 93 93 = 1 → (lane s q).quickAt.isSome = true →
        linkMayRise s (linkOf q) = true → linkUpState (link s (linkOf q)).state = true → (lane t q).state = 4) := by
  set y := partnerJudged s q (bf b 93 93 == 1) with hy
  have own : lane y q = { lane s q with quickPartner := some (bf b 93 93 == 1) } := lane_modLane ..
  dsimp only
  rw [marginReport_quick testing quick working, ← hy]
  refine ⟨fun waits => ?_, fun p known failed => ?_, fun known good isOpen may linked => ?_⟩
  · rw [quickJudge_waits (.inl (by rw [own, waits])), own]
    exact ⟨testing, rfl⟩
  · have both : (p && (bf b 93 93 == 1)) = false := by
      rcases failed with rfl | bad
      · exact Bool.false_and _
      · rw [beq_eq_false_iff_ne.2 bad, Bool.and_false]
    obtain ⟨state, spare, at_⟩ := quickJudge_failed (s := y) (q := q) (by rw [own, known]) (by rw [own]) both
    exact ⟨by rw [state, own, testing], spare, at_⟩
  · refine quickJudge_passed hq (by rw [own, testing]) (by rw [own, isOpen]) (by rw [own, known]) ?_ may linked
    rw [own, good]
    rfl

/-- Settles O35: the steps of a test by their equations, a closed window by `marginWindowClose_spec`, a quick check by
`quickJudge_waits`, `quickJudge_failed` and `quickJudge_passed`. -/
theorem marginTestsRun : Obligations.MarginTestsRun := by
  unfold Obligations.MarginTestsRun
  intro s l
  refine ⟨fun untested free ready => ?_, fun m h => ⟨fun start => ?_, fun passed => ?_, fun set => ?_,
    fun counts own isOpen e => ?_, fun waits => ?_⟩, fun a waits untested ready => ?_,
    fun q counts a n hq testing isOpen first unknown errors => ?_, fun q b other => ?_,
    fun q b hq testing quick working => ?_, fun q b testing quick other => ?_,
    fun q b m testing full own h early round => ?_⟩
  · have e : marginTestStart l s = marginBegin s l := by
      unfold marginTestStart
      exact if_pos (by rw [untested, ready]; rfl)
    obtain ⟨⟨m, own, start, round, phase⟩, -⟩ := marginBegin_spec s l
    exact ⟨_, m, congrArg Host.Outcome.next e, (marginBegin_fr s l).onlyChanges _, own, start, round, phase⟩
  · have e : marginPowerStep l s = modLink (await s m.startAt msT) l fun k => { k with margin := some { m with phase := 1 } } := by
      unfold marginPowerStep
      rw [h]
      exact if_pos start
    refine ⟨_, congrArg Host.Outcome.next e, rfl, by rw [link_modLink], ?_⟩
    have kept : Fr 131136 s (modLink (await s m.startAt msT) l fun k => { k with margin := some { m with phase := 1 } }) :=
      Fr.step (modLink_fr _ _ _) (Fr.mono (await_fr s m.startAt msT))
    exact kept.onlyChanges _
  · exact ⟨_, rfl, marginPowerStep_restored h passed⟩
  · refine ⟨_, congrArg Host.Outcome.next (marginWindowOpen_spec h set), rfl, by rw [link_modLink]; rfl, ?_⟩
    rw [← marginWindowOpen_spec h set]
    exact (marginWindowOpen_fr l s).onlyChanges _
  · subst e
    obtain ⟨now, sent, missing, all⟩ := marginWindowClose_spec (counts := counts) h isOpen
    exact ⟨_, rfl, now, sent, missing, all⟩
  · exact ⟨_, rfl, marginReportWaitExpiry_spec h waits⟩
  · obtain ⟨now, retry, m, own, start, round⟩ := marginRetry_spec waits untested ready
    exact ⟨_, m, rfl, now, retry, own, start, round⟩
  · exact ⟨_, rfl, quickCheckWindowClose_spec hq testing isOpen first unknown errors⟩
  · refine congrArg Host.Outcome.next ?_
    unfold marginReport
    exact if_pos (by simp [other])
  · exact ⟨_, rfl, marginReport_quick_spec hq testing quick working⟩
  · exact ⟨_, rfl, (marginReport_spare testing quick other).onlyChanges _⟩
  · subst own
    refine ⟨_, congrArg Host.Outcome.next (marginReport_counts testing full h early round), ?_, by rw [link_modLink]⟩
    exact (modLink_fr s (linkOf q) _).onlyChanges _

end Sys2Proof.Machine

/-! ### Engines: R43 to R51, R73 -/

namespace Sys2Proof.Machine

set_option Elab.async false

/-! #### The register -/

theorem engineCfg_apart {n : Nat} (hn : n < 34) (o : Nat) (out : o < 0x800000 ∨ 0xA20000 ≤ o) : (oENGINE n = o) = False := by
  unfold oENGINE
  simp only [eq_iff_iff, iff_false]
  omega

theorem engineCfg_range {n : Nat} (hn : n < 34) (w : Word) : rangeOk (oENGINE n) w = true := by
  have apart := engineCfg_apart hn
  simp (disch := decide) only [rangeOk, apart, or_self, if_false]

theorem engineCfg_info {n : Nat} (hn : n < 34) (v : Variant) (bl2 : Bool) : regInfo v bl2 (oENGINE n) =
    if v = .b then { reset := 6, rw := mask 2 0 } else { reset := 0xE, rw := mask 3 0 } := by
  have low : ¬ oENGINE n < 0x800000 := by unfold oENGINE; omega
  have high : oENGINE n < 0x1000000 := by unfold oENGINE; omega
  have own : 0x800000 ≤ oENGINE n ∧ oENGINE n < 0x800000 + 34 * 0x10000 := by unfold oENGINE; omega
  have first : oENGINE n % 0x10000 = 0 := by unfold oENGINE; omega
  unfold regInfo
  rw [if_neg (by omega), if_neg low, if_pos high]
  unfold regInfoOpt
  rw [if_pos own]
  dsimp only
  rw [if_pos first]

/-- LASER_EN reads what is written to it. -/
theorem laserEn_writeReg {s : State} {n : Nat} (hn : n < 34) (v : Word) :
    bit (getR (writeReg s (oENGINE n) v) (oENGINE n)) 0 = bit v 0 := by
  have written := writeReg_written s (oENGINE n) v (oENGINE n)
  rw [if_pos ⟨rfl, engineCfg_range hn _⟩, engineCfg_info hn] at written
  rw [written]
  generalize (getR s (oENGINE n)).toNat = old
  by_cases b : s.variant = .b <;> cases lockedAt s (oENGINE n) <;>
    simp [b, bit, applyWrite, regClip, regBits, Nat.testBit_or, Nat.testBit_and, ones, mask]

/-! #### Light -/

/-- A loop that changes each lane's view by one idempotent function changes it so, however often it meets the lane. -/
theorem forEach_lanes {β : Type} (view : Lane → β) {g : β → β} (idem : ∀ b, g (g b) = g b) {f : State → Nat → State}
    (own : ∀ y q, view (lane (f y q) q) = g (view (lane y q)))
    (other : ∀ y a q, q ≠ a → view (lane (f y a) q) = view (lane y q)) {l : List Nat} {q : Nat} (mem : q ∈ l) (s : State) :
    view (lane (forEach l s f) q) = g (view (lane s q)) := by
  refine forEach_settles (J := fun y => g (view (lane y q)) = g (view (lane s q)))
    (P := fun y => view (lane y q) = g (view (lane s q))) (fun y a h => ?_) (fun y h => ?_) (fun y a h => ?_) rfl mem
  · by_cases same : q = a
    · subst same
      rw [own, idem, h]
    · rw [other y a q same, h]
  · rw [own, h]
  · by_cases same : q = a
    · subst same
      rw [own, h, idem]
    · rw [other y a q same, h]

/-- A lane's light and state as its engine lights. -/
def litView (x : Bool × Nat) : Bool × Nat := (x.1, if x.2 = 0 ∧ x.1 = false then 1 else x.2)

/-- The DOWN lanes with light lock, and their links follow. -/
theorem lockEngine_locks (s : State) (n : Nat) : EngineLocks s (lockEngine s n) n := by
  set f : State → Nat → State := fun s q => if (lane s q).state == 0 && !(lane s q).los then putLaneState s q 1 else s with hf
  have own (y : State) (q : Nat) : ((lane (f y q) q).los, (lane (f y q) q).state) =
      litView ((lane y q).los, (lane y q).state) := by
    rw [hf]
    unfold litView
    dsimp only
    by_cases dark : (lane y q).state = 0 ∧ (lane y q).los = false
    · rw [if_pos (by simp [dark]), if_pos dark]
      unfold putLaneState
      rw [lane_modLane]
    · rw [if_neg (by simpa using dark), if_neg dark]
  have other (y : State) (a q : Nat) (h : q ≠ a) : lane (f y a) q = lane y q := by
    rw [hf]
    dsimp only
    split
    · exact tget_tset_other _ _ _ _ _ _ h
    · rfl
  have idem (b : Bool × Nat) : litView (litView b) = litView b := by
    obtain ⟨los, st⟩ := b
    unfold litView
    dsimp only
    split <;> simp_all
  intro q hq
  have links (y : State) : (lane (forEach (engineLinks n) y fun s l => refreshLink s l 0 false) q).state = (lane y q).state :=
    forEach_keeps (fun y => (lane y q).state) _ (fun y l => (refreshLink_kl _ _ _ _).lane_state q) _ y
  unfold lockEngine
  rw [links]
  exact congrArg Prod.snd (forEach_lanes (fun x => (x.los, x.state)) idem own
    (fun y a q h => by rw [other y a q h]) hq s)

theorem lockEngine_engine (s : State) (n m : Nat) : engine (lockEngine s n) m = engine s m := by
  unfold engine
  rw [(lockEngine_fr s n).opt rfl]

theorem EngineLocks.congr {s y t : State} {n : Nat} (h : EngineLocks y t n) (lanes : ∀ q, lane y q = lane s q) :
    EngineLocks s t n := fun q hq => by
  rw [← lanes q]
  exact h q hq

/-! #### An engine goes dark -/

/-- A circuit of an engine ends. -/
def endSprue (n : Nat) (s : State) (i : Nat) : State :=
  if (sprue s n i).state < 2 then s
  else { s with opt := { s.opt with
    sprues := tset {} s.opt.sprues (16 * n + i) { sprue s n i with state := 1, releaseAt := none } } }

theorem endSprues_eq (s : State) (n : Nat) : endSprues s n = forEach (List.range 16) s (endSprue n) := rfl

theorem endSprue_own (n : Nat) (s : State) (i : Nat) : (sprue (endSprue n s i) n i).state < 2 := by
  unfold endSprue
  split
  · assumption
  · unfold sprue
    rw [tget_tset_same]
    exact Nat.one_lt_two

theorem endSprue_other (n : Nat) (s : State) {a i : Nat} (h : i ≠ a) : sprue (endSprue n s a) n i = sprue s n i := by
  unfold endSprue
  split
  · rfl
  · exact tget_tset_other _ _ _ _ _ _ (by omega)

theorem endSprue_engines (n : Nat) (s : State) (i : Nat) : (endSprue n s i).opt.engines = s.opt.engines := by
  unfold endSprue
  split <;> rfl

theorem endSprues_dark (s : State) (n i : Nat) (hi : i < 16) : (sprue (endSprues s n) n i).state < 2 := by
  rw [endSprues_eq]
  refine forEach_reaches (fun i y => (sprue y n i).state < 2) (endSprue n) (endSprue_own n) (fun y a b h => ?_)
    (List.range 16) s i (List.mem_range.2 hi)
  by_cases same : b = a
  · rw [same]
    exact endSprue_own n y a
  · rw [endSprue_other n y same]
    exact h

/-- A table whose entries were all changed holds defaults and changed entries. -/
theorem tget_tmap {α : Type} [DecidableEq α] (d : α) (t : Tab α) (f : Nat → α → α) (k : Nat) :
    tget d (tmap d t f) k = d ∨ ∃ v, tget d (tmap d t f) k = f k v := by
  unfold tmap
  induction t with
  | nil => exact .inl rfl
  | cons e t ih =>
    rw [List.map_cons, List.filter_cons]
    split
    · rw [tget_cons]
      split
      · next same => exact .inr ⟨e.2, by rw [← same]⟩
      · exact ih
    · exact ih

theorem darkChan_state (k : Nat) (c : Chan) : (darkChan k c).state ∈ [0, 2, 5, 8, 9] := by
  unfold darkChan
  split
  · next h => rcases h with h | h | h | h <;> simp [h]
  split
  · simp
  · simp [idleChan]

theorem darkSide_state (n k : Nat) (t : Tab Chan) (own : k / 256 = n) :
    (tget ({} : Chan) (darkSide n t) k).state ∈ [0, 2, 5, 8, 9] := by
  rcases tget_tmap ({} : Chan) t (fun k c => if k / 256 = n then darkChan k c else c) k with h | ⟨v, h⟩
  · rw [show darkSide n t = tmap {} t fun k c => if k / 256 = n then darkChan k c else c from rfl, h]
    decide
  · rw [show darkSide n t = tmap {} t fun k c => if k / 256 = n then darkChan k c else c from rfl, h, if_pos own]
    exact darkChan_state k v

theorem dropSwap_kept (s : State) (d : Dir) (q : Nat) : (dropSwap s d q).opt.sprues = s.opt.sprues ∧
    (dropSwap s d q).opt.engines = s.opt.engines := by
  unfold dropSwap
  split
  · exact ⟨rfl, rfl⟩
  · cases d <;> exact ⟨rfl, rfl⟩

/-- A lane of an engine that goes dark. -/
def darkLane (s : State) (q : Nat) : State :=
  if (lane s q).state = 7 ∨ (lane s q).state = 8 ∨ (lane s q).state = 0 then s
  else modLane (laneToDown (dropSwap (dropSwap s .tx q) .rx q) q 0) q fun x => { x with needFull := true }

/-- The state in which the dark leaves a lane. -/
def darkState (st : Nat) : Nat := if st = 7 ∨ st = 8 then st else 0

theorem darkState_idem (st : Nat) : darkState (darkState st) = darkState st := by
  unfold darkState
  split <;> simp_all

theorem darkLane_down {s : State} {q : Nat} (h : ¬ ((lane s q).state = 7 ∨ (lane s q).state = 8 ∨ (lane s q).state = 0)) :
    darkLane s q = modLane (laneToDown (dropSwap (dropSwap s .tx q) .rx q) q 0) q fun x => { x with needFull := true } :=
  if_neg h

theorem darkLane_own (s : State) (q : Nat) : (lane (darkLane s q) q).state = darkState (lane s q).state := by
  unfold darkState
  by_cases still : (lane s q).state = 7 ∨ (lane s q).state = 8 ∨ (lane s q).state = 0
  · rw [show darkLane s q = s from if_pos still]
    split
    · rfl
    · omega
  · rw [darkLane_down still, if_neg (by omega)]
    exact laneToDown_state _ q 0 (f := fun x => { x with needFull := true }) (fun _ => rfl) rfl

theorem darkLane_other (s : State) (a q : Nat) (h : q ≠ a) : (lane (darkLane s a) q).state = (lane s q).state := by
  by_cases still : (lane s a).state = 7 ∨ (lane s a).state = 8 ∨ (lane s a).state = 0
  · rw [show darkLane s a = s from if_pos still]
  · rw [darkLane_down still, lane_modLane_ite, if_neg h, laneToDown_other _ _ h, (dropSwap_fr _ _ _).lane,
      (dropSwap_fr _ _ _).lane]

theorem darkLane_opt (s : State) (q : Nat) : (darkLane s q).opt.sprues = s.opt.sprues ∧
    (darkLane s q).opt.engines = s.opt.engines := by
  by_cases still : (lane s q).state = 7 ∨ (lane s q).state = 8 ∨ (lane s q).state = 0
  · rw [show darkLane s q = s from if_pos still]
    exact ⟨rfl, rfl⟩
  · obtain ⟨s1, e1⟩ := dropSwap_kept s .tx q
    obtain ⟨s2, e2⟩ := dropSwap_kept (dropSwap s .tx q) .rx q
    rw [darkLane_down still, modLane_opt, (laneToDown_fr _ _ _).opt rfl]
    exact ⟨s2.trans s1, e2.trans e1⟩

theorem darkLane_across (s : State) (q : Nat) : Across s (darkLane s q) := by
  unfold darkLane
  refine Across.ite (.refl s) ?_
  exact (((Across.of (dropSwap_fr s .tx q)).trans (.of (dropSwap_fr _ .rx q))).trans (.of (laneToDown_fr _ q 0))).trans
    (.of (modLane_fr _ _ _))

/-- An engine's calibration has ended. -/
def calEnded (e : Engine) : Engine := { e with
  calRunning := false, calChannel := 255, calBorrow := none, calPhase := 0, calLane := 0x1FFF, calSaved := [] }

/-- A link of an engine that goes dark. -/
def darkLink (cause : Nat) (counts : Bool) (s : State) (l : Nat) : State :=
  let s := refreshLink (modLink s l fun k => { k with margin := none }) l cause counts
  if (link s l).state = 4 then s else modLink s l fun k => { k with cause := cause }

/-- An engine gone dark, before its links follow. -/
def engineDarkened (s : State) (n : Nat) : State :=
  let s := modEngine (forEach (engineLanes n) (endSprues s n) darkLane) n calEnded
  { s with opt := { s.opt with lasers := darkSide n s.opt.lasers, drops := darkSide n s.opt.drops } }

theorem darkenEngine_eq (s : State) (n cause : Nat) (counts : Bool) :
    darkenEngine s n cause counts = forEach (engineLinks n) (engineDarkened s n) (darkLink cause counts) := rfl

theorem darkLink_kl (cause : Nat) (counts : Bool) (s : State) (l q : Nat) :
    (lane (darkLink cause counts s l) q).state = (lane s q).state := by
  have follows : (lane (refreshLink (modLink s l fun k => { k with margin := none }) l cause counts) q).state =
      (lane s q).state := (refreshLink_kl _ _ _ _).lane_state q
  unfold darkLink
  dsimp only
  split <;> exact follows

theorem darkLink_opt (cause : Nat) (counts : Bool) (s : State) (l : Nat) : (darkLink cause counts s l).opt = s.opt := by
  have follows : (refreshLink (modLink s l fun k => { k with margin := none }) l cause counts).opt = s.opt :=
    (refreshLink_fr _ _ _ _).opt rfl
  unfold darkLink
  dsimp only
  split <;> exact follows

theorem darkLink_across (cause : Nat) (counts : Bool) (s : State) (l : Nat) : Across s (darkLink cause counts s l) := by
  have follows : Across s (refreshLink (modLink s l fun k => { k with margin := none }) l cause counts) :=
    (refreshLink_across _ _ _ _).after rfl rfl
  unfold darkLink
  dsimp only
  split
  · exact follows
  · exact follows.trans (.kept rfl rfl)

theorem engineDarkened_kept (s : State) (n : Nat) :
    engine (engineDarkened s n) n = calEnded (engine s n) ∧
      ∀ i, sprue (engineDarkened s n) n i = sprue (endSprues s n) n i := by
  have engines (y : State) : (forEach (engineLanes n) y darkLane).opt.engines = y.opt.engines :=
    forEach_keeps (fun y => y.opt.engines) darkLane (fun y q => (darkLane_opt y q).2) _ y
  have sprues (y : State) : (forEach (engineLanes n) y darkLane).opt.sprues = y.opt.sprues :=
    forEach_keeps (fun y => y.opt.sprues) darkLane (fun y q => (darkLane_opt y q).1) _ y
  have first : (endSprues s n).opt.engines = s.opt.engines := by
    rw [endSprues_eq]
    exact forEach_keeps (fun y => y.opt.engines) (endSprue n) (endSprue_engines n) (List.range 16) s
  constructor
  · rw [show engine (engineDarkened s n) n = engine (modEngine (forEach (engineLanes n) (endSprues s n) darkLane) n calEnded) n
      from rfl, engine_modEngine]
    unfold engine
    rw [engines, first]
  · intro i
    unfold sprue
    rw [show (engineDarkened s n).opt.sprues = (forEach (engineLanes n) (endSprues s n) darkLane).opt.sprues from rfl, sprues]

theorem darkenEngine_dark (s : State) (n cause : Nat) (counts : Bool) :
    EngineDark s (darkenEngine s n cause counts) n ∧
      engine (darkenEngine s n cause counts) n = calEnded (engine s n) := by
  obtain ⟨engines, sprues⟩ := engineDarkened_kept s n
  have opt : (darkenEngine s n cause counts).opt = (engineDarkened s n).opt :=
    forEach_keeps (fun y => y.opt) _ (darkLink_opt cause counts) _ _
  have same : engine (darkenEngine s n cause counts) n = calEnded (engine s n) := by
    unfold engine at engines ⊢
    rw [opt, engines]
  refine ⟨⟨fun q hq => ?_, fun i hi => ?_, by rw [same]; rfl, by rw [same]; rfl, fun d k own => ?_⟩, same⟩
  · have links : (lane (darkenEngine s n cause counts) q).state = (lane (engineDarkened s n) q).state :=
      forEach_keeps (fun y => (lane y q).state) _ (fun y l => darkLink_kl cause counts y l q) _ _
    have start : lane (endSprues s n) q = lane s q := (endSprues_fr s n).lane q
    rw [links, ← start]
    exact forEach_lanes (fun x => x.state) darkState_idem darkLane_own darkLane_other hq (endSprues s n)
  · have e : sprue (darkenEngine s n cause counts) n i = sprue (endSprues s n) n i := by
      rw [← sprues i]
      unfold sprue
      rw [opt]
    rw [e]
    exact endSprues_dark s n i hi
  · have e : storedChan (darkenEngine s n cause counts) d k = storedChan (engineDarkened s n) d k := by
      unfold storedChan
      rw [opt]
    rw [e]
    cases d
    · exact darkSide_state n k _ own
    · exact darkSide_state n k _ own

theorem darkenEngine_across (s : State) (n cause : Nat) (counts : Bool) : Across s (darkenEngine s n cause counts) := by
  have dark : Across s (engineDarkened s n) :=
    ((Across.of (endSprues_fr s n)).trans (.forEach _ _ _ darkLane_across)).trans (.kept rfl rfl)
  rw [darkenEngine_eq]
  exact dark.trans (.forEach _ _ _ (darkLink_across cause counts))

/-- Without a down to count, a link's new state leaves every other link. -/
theorem refreshLink_other (s : State) (l cause : Nat) {j : Nat} (other : j ≠ l) :
    link (refreshLink s l cause false) j = link s j := by
  have event (x : State) (code n : Nat) : link (raiseEvent x code (partLink l) n 0) j = link x j :=
    (raiseEvent_fr _ _ _ _ _).link j
  have changed (x : State) (f : Link → Link) : link (modLink x l f) j = link x j := tget_tset_other _ _ _ _ _ _ other
  unfold refreshLink
  dsimp only
  set x := modLink (if (linkUpState (linkStateOf s l) && !linkUpState (link s l).state) = true then startCredits s l else s)
    l fun k => { k with state := linkStateOf s l } with hx
  have e : link x j = link s j := by
    rw [hx, changed]
    split
    · unfold startCredits
      exact changed _ _
    · rfl
  clear_value x
  rw [← e]
  split
  · exact (event _ _ _).trans (changed _ _)
  split
  · split
    · exact (event _ _ _).trans (event _ _ _)
    · exact event _ _ _
  split
  · exact event _ _ _
  split
  · exact changed _ _
  · rfl

/-- Each link of an engine put out is DISABLED or down for the cause. -/
theorem darkenEngine_links (s : State) (n cause l : Nat) (hl : l ∈ engineLinks n) :
    (link (darkenEngine s n cause false) l).state = 4 ∨ (link (darkenEngine s n cause false) l).cause = cause := by
  have own (y : State) (l : Nat) : (link (darkLink cause false y l) l).state = 4 ∨
      (link (darkLink cause false y l) l).cause = cause := by
    unfold darkLink
    dsimp only
    split
    · next down => exact .inl down
    · rw [link_modLink]
      exact .inr rfl
  have other (y : State) {a l : Nat} (h : l ≠ a) : link (darkLink cause false y a) l = link y l := by
    have follows : link (refreshLink (modLink y a fun k => { k with margin := none }) a cause false) l = link y l :=
      (refreshLink_other _ _ _ h).trans (tget_tset_other _ _ _ _ _ _ h)
    unfold darkLink
    dsimp only
    split
    · exact follows
    · exact (tget_tset_other _ _ _ _ _ _ h).trans follows
  rw [darkenEngine_eq]
  refine forEach_reaches (fun l y => (link y l).state = 4 ∨ (link y l).cause = cause) _ own (fun y a l h => ?_) _ _ l hl
  by_cases same : l = a
  · rw [same]
    exact own y a
  · rw [other y same]
    exact h

end Sys2Proof.Machine

/-! ### What the channels read: R49, R58 -/

namespace Sys2Proof.Machine

set_option Elab.async false

/-- What a channel keeps when it changes hands: its lock and trim, its fade and whether that was noticed. -/
def readings (c : Chan) : Bool × Int × Nat × Bool := (c.lostLock, c.trim, c.fade, c.noticed)

/-- Every channel keeps its readings. -/
def ReadingsKept (s t : State) : Prop := ∀ d k, readings (storedChan t d k) = readings (storedChan s d k)

theorem ReadingsKept.refl (s : State) : ReadingsKept s s := fun _ _ => rfl

theorem ReadingsKept.trans {s x t : State} (h : ReadingsKept s x) (g : ReadingsKept x t) : ReadingsKept s t := fun d k =>
  (g d k).trans (h d k)

theorem ReadingsKept.of_opt {s t : State} (lasers : t.opt.lasers = s.opt.lasers) (drops : t.opt.drops = s.opt.drops) :
    ReadingsKept s t := fun d k => by
  unfold storedChan
  cases d
  · rw [lasers]
  · rw [drops]

theorem ReadingsKept.of {m : Nat} {s t : State} (h : Fr m s t) (hm : m.testBit 5 = false := by rfl) : ReadingsKept s t :=
  .of_opt (by rw [h.opt hm]) (by rw [h.opt hm])

theorem ReadingsKept.ite {s a b : State} {c : Prop} [Decidable c] (ha : ReadingsKept s a) (hb : ReadingsKept s b) :
    ReadingsKept s (if c then a else b) := by split <;> assumption

theorem ReadingsKept.forEach {α : Type} (l : List α) (s : State) (f : State → α → State) (h : ∀ y a, ReadingsKept y (f y a)) :
    ReadingsKept s (forEach l s f) := by
  induction l generalizing s with
  | nil => exact .refl s
  | cons a l ih => exact (h s a).trans (ih (f s a))

/-- A channel's readings are the ones recorded for it, whatever its engine's state. -/
theorem chan_readings (s : State) (d : Dir) (k : Nat) : readings (chan s d k) = readings (storedChan s d k) := by
  have nominal (c : Chan) : readings (nominalChan s k c) = readings c := by
    unfold nominalChan
    dsimp only
    split
    · split <;> rfl
    · split
      · split <;> rfl
      · rfl
  unfold chan
  dsimp only
  split
  · exact nominal _
  · rfl

theorem ReadingsKept.chan {s t : State} (h : ReadingsKept s t) (d : Dir) (k : Nat) :
    readings (Machine.chan t d k) = readings (Machine.chan s d k) := by
  rw [chan_readings, h, chan_readings]

theorem storedChan_modChan_same (s : State) (d : Dir) (k : Nat) (f : Chan → Chan) :
    storedChan (modChan s d k f) d k = f (chan s d k) := by
  unfold storedChan modChan setChan
  cases d <;> exact tget_tset_same ..

theorem storedChan_modChan_other (s : State) (d : Dir) (k : Nat) (f : Chan → Chan) {d' : Dir} {k' : Nat}
    (h : ¬ (d' = d ∧ k' = k)) : storedChan (modChan s d k f) d' k' = storedChan s d' k' := by
  unfold storedChan modChan setChan
  cases d <;> cases d'
  · exact tget_tset_other _ _ _ _ _ _ fun e => h ⟨rfl, e⟩
  · rfl
  · rfl
  · exact tget_tset_other _ _ _ _ _ _ fun e => h ⟨rfl, e⟩

theorem modChan_readings (s : State) (d : Dir) (k : Nat) {f : Chan → Chan}
    (hf : ∀ c, readings (f c) = readings c := by intro c; rfl) : ReadingsKept s (modChan s d k f) := fun d' k' => by
  by_cases here : d' = d ∧ k' = k
  · obtain ⟨rfl, rfl⟩ := here
    rw [storedChan_modChan_same, hf, chan_readings]
  · rw [storedChan_modChan_other _ _ _ _ here]

theorem setSwap_readings (s : State) (d : Dir) (q : Nat) (w : Swap) : ReadingsKept s (setSwap s d q w) := .of_opt rfl rfl

theorem modEngine_readings (s : State) (n : Nat) (f : Engine → Engine) : ReadingsKept s (modEngine s n f) := .of_opt rfl rfl

theorem idleChan_readings (c : Chan) : readings (idleChan c) = readings c := rfl

theorem dropSwap_readings (s : State) (d : Dir) (q : Nat) : ReadingsKept s (dropSwap s d q) := by
  unfold dropSwap
  split
  · exact .refl s
  · exact (setSwap_readings s d q {}).trans (modChan_readings _ _ _ fun c => by split <;> rfl)

theorem calSlotEnd_readings (s : State) (n : Nat) : ReadingsKept s (calSlotEnd s n) := by
  unfold calSlotEnd
  exact (ReadingsKept.ite (modChan_readings s _ _) (.refl s)).trans (modEngine_readings _ _ _)

theorem calLeave_readings (s : State) (q : Nat) : ReadingsKept s (calLeave s q) := by
  unfold calLeave
  dsimp only
  split
  · exact .refl s
  refine (dropSwap_readings s .tx q).trans (ReadingsKept.trans ?_ (calSlotEnd_readings _ _))
  split
  · exact modChan_readings _ _ _ fun c => by split <;> rfl
  · exact .refl _

theorem finishSwap_readings (s : State) (q : Nat) (w : Swap) : ReadingsKept s (finishSwap s q w) := by
  have free := setSwap_readings s .tx q {}
  unfold finishSwap
  refine ReadingsKept.ite ?_ (ReadingsKept.ite ?_ ?_)
  · exact (free.trans (modChan_readings _ _ _)).trans (modEngine_readings _ _ _)
  · exact (free.trans (modChan_readings _ _ _ idleChan_readings)).trans (calSlotEnd_readings _ _)
  · exact (free.trans (modChan_readings _ _ _)).trans (.of_opt rfl rfl)

theorem startSwap_readings (s : State) (q spare colour reason : Nat) : ReadingsKept s (startSwap s q spare colour reason) := by
  unfold startSwap
  exact (modChan_readings s .tx spare).trans (setSwap_readings _ _ _ _)

theorem swapBack_readings (s : State) (q k colour : Nat) : ReadingsKept s (swapBack s q k colour) := by
  unfold swapBack
  exact .ite (startSwap_readings _ _ _ _ _) (setSwap_readings _ _ _ _)

theorem calAbort_readings (s : State) (n cause : Nat) : ReadingsKept s (calAbort s n cause) := by
  have noted (part a0 : Nat) : ReadingsKept s (raiseEvent s 0x10B part a0 cause) := .of (raiseEvent_fr _ _ _ _ _)
  unfold calAbort
  dsimp only
  split
  · exact .refl s
  split
  · exact ((noted _ _).trans (modEngine_readings _ _ _)).trans (swapBack_readings _ _ _ _)
  · exact (noted _ _).trans (calSlotEnd_readings _ _)

theorem noteExhausted_readings (s : State) (d : Dir) (k : Nat) : ReadingsKept s (noteExhausted s d k) := by
  unfold noteExhausted
  exact .ite (.of_opt rfl rfl) (.of_opt (by rw [raiseEvent_opt]) (by rw [raiseEvent_opt]))

theorem fadeGo_readings (s : State) (q fade : Nat) : ReadingsKept s (fadeGo s q fade) := by
  have started {x t : State} (h : (match usableSpare x .tx q, standInColour x .tx q with
      | some sp, some c => some (startSwap x q sp c 0)
      | _, _ => none) = some t) : ReadingsKept x t := by
    split at h
    · exact Option.some.inj h ▸ startSwap_readings x q _ _ 0
    · exact nomatch h
  unfold fadeGo
  dsimp only
  split
  · next h => exact started h
  split
  · exact noteExhausted_readings s _ _
  refine (calAbort_readings s (laneKey s .tx q / 256) 1).trans ?_
  split
  · next h => exact started h
  · exact .ite (.of_opt rfl rfl) (noteExhausted_readings _ _ _)

theorem nextFade_readings (s : State) (k : Nat) : ReadingsKept s (nextFade s k) := by
  unfold nextFade
  split
  · exact .refl s
  split
  · exact .refl s
  · exact .ite (.of_opt rfl rfl) (ReadingsKept.trans (.of_opt rfl rfl) (fadeGo_readings _ _ _))

theorem swapDeath_readings (s : State) (q : Nat) : ReadingsKept s (swapDeath s q) := by
  have receive (y : State) : ReadingsKept y (rxSwapDeath y q) := by
    unfold rxSwapDeath
    split
    · exact .refl y
    · refine .ite ?_ ((setSwap_readings _ _ _ _).trans (modChan_readings _ _ _ idleChan_readings))
      unfold drop2
      have moved (w : Swap) (c : Nat) := ((setSwap_readings y .rx q {}).trans (modChan_readings _ .rx w.old idleChan_readings)).trans
        (modChan_readings _ .rx w.spare (f := fun x => { x with state := 2, lane := q, serves := c }))
      exact .ite ((moved _ _).trans (.of_opt rfl rfl)) (moved _ _)
  refine ReadingsKept.trans ?_ (receive _)
  unfold txSwapDeath
  split
  · exact .refl s
  split
  · exact ((ReadingsKept.of (raiseEvent_fr _ _ _ _ _)).trans (modChan_readings _ _ _)).trans
      (finishSwap_readings _ _ _)
  split
  · exact finishSwap_readings s q _
  split
  · exact .refl s
  split
  · exact (modChan_readings s _ _).trans (setSwap_readings _ _ _ _)
  · have idle (w : Swap) := (setSwap_readings s .tx q {}).trans (modChan_readings _ .tx w.spare idleChan_readings)
    exact .ite ((idle _).trans (calSlotEnd_readings _ _)) (idle _)

theorem retireLane_readings (s : State) (q : Nat) (d : Dir) (cause : Nat) (journal : Bool) :
    ReadingsKept s (retireLane s q d cause journal) := by
  have left : ReadingsKept s (dropSwap (dropSwap (calLeave s q) .tx q) .rx q) :=
    ((calLeave_readings s q).trans (dropSwap_readings _ _ _)).trans (dropSwap_readings _ _ _)
  have dark := left.trans (modChan_readings (dropSwap (dropSwap (calLeave s q) .tx q) .rx q) .tx
    (laneKey (dropSwap (dropSwap (calLeave s q) .tx q) .rx q) .tx q) (f := fun c => { c with state := 8 })
   )
  unfold retireLane
  dsimp only
  refine ReadingsKept.trans ?_ (.of (refreshLink_fr _ _ _ _))
  refine ReadingsKept.trans ?_ (.of (raiseEvent_fr _ _ _ _ _))
  refine ReadingsKept.trans (x := laneToDown _ q 7) ?_ (.of_opt rfl rfl)
  refine ReadingsKept.trans ?_ (.of (laneToDown_fr _ _ _))
  exact .ite (dark.trans (.of_opt rfl rfl)) dark

theorem laneLeaves_readings (s : State) (q cause : Nat) (dark : Bool) : ReadingsKept s (laneLeaves s q cause dark) := by
  unfold laneLeaves
  split
  · exact (swapDeath_readings s q).trans (retireLane_readings _ q .tx cause true)
  · have down : ReadingsKept s (laneToDown (swapDeath s q) q (if dark then 0 else 1)) :=
      (swapDeath_readings s q).trans (.of (laneToDown_fr _ _ _))
    have left := (down.trans (.of (modLane_fr _ q fun x => { x with needFull := false }))).trans
      (.of (modLink_fr _ (linkOf q) (marginWithout q)))
    exact left.trans (.of (refreshLink_fr _ _ _ _))

theorem resyncLeft_readings (s : State) (l : Nat) : ReadingsKept s (resyncLeft s l) := by
  unfold resyncLeft
  split
  · exact .refl _
  · exact .forEach _ _ _ fun y t => .of (sendResync_fr y _ t)

/-- The death of a lane leaves every channel's readings. -/
theorem laneDie_readings (s : State) (q cause : Nat) (dark : Bool) : ReadingsKept s (laneDie s q cause true dark) := by
  by_cases up : (lane s q).state = 3 ∨ (lane s q).state = 4
  · have noted : ReadingsKept s (deathNoted s q cause) := by
      unfold deathNoted
      exact ReadingsKept.trans (x := bump s (cLane q 7)) (.of_opt rfl rfl) (.of (raiseEvent_fr _ _ _ _ _))
    rw [laneDie_of_up up]
    exact ((noted.trans (laneLeaves_readings _ _ _ _)).trans (nextFade_readings _ _)).trans (resyncLeft_readings _ _)
  · unfold laneDie
    rw [if_pos (by simpa using up)]
    exact .refl s

end Sys2Proof.Machine

/-! ### Engines on and off, their sensors and their locks: R43 to R51 -/

namespace Sys2Proof.Machine

set_option Elab.async false

/-! #### LASER_EN -/

theorem sprueEnWritten_opt (s : State) (n : Nat) : (sprueEnWritten s n).opt.engines = s.opt.engines := by
  have one (y : State) (i : Nat) : (releaseSprue y n i).opt.engines = y.opt.engines := by
    unfold releaseSprue
    dsimp only
    split <;> rfl
  unfold sprueEnWritten
  split
  · rfl
  · exact forEach_keeps (fun y => y.opt.engines) (fun y i => releaseSprue y n i) one (List.range 16) s

/-- OE_CTRL written, its circuits released where SPRUE_EN is 0. -/
def engineWritten (s : State) (n : Nat) (v : Word) : State := sprueEnWritten (writeReg s (oENGINE n) v) n

theorem engineWritten_fr (s : State) (n : Nat) (v : Word) : Fr 34 s (engineWritten s n v) :=
  Fr.step (sprueEnWritten_fr _ _) (Fr.mono (writeReg_fr s (oENGINE n) v))

theorem engineWritten_engine (s : State) (n : Nat) (v : Word) (m : Nat) : engine (engineWritten s n v) m = engine s m := by
  unfold engine engineWritten
  rw [sprueEnWritten_opt, writeReg_opt]

theorem engineWritten_bit {s : State} {n : Nat} (hn : n < 34) (v : Word) :
    bit (getR (engineWritten s n v) (oENGINE n)) 0 = bit v 0 := by
  unfold engineWritten
  rw [(sprueEnWritten_fr _ _).getR, laserEn_writeReg hn]

theorem engineWritten_interlock (s : State) (n : Nat) (v : Word) : interlock (engineWritten s n v) = interlock s := by
  unfold interlock
  rw [(engineWritten_fr s n v).pwr rfl, (engineWritten_fr s n v).boot rfl]

theorem laserEnSet_eq {s : State} {f : Func} {n : Nat} {v : Word} (may : mayWriteIn s f 18 = true) :
    laserEnSet f n v s = if bit (getR s (oENGINE n)) 0 || interlock s then engineWritten s n (v ||| 1)
      else beginBringup (engineWritten s n (v ||| 1)) n := by
  unfold laserEnSet
  rw [may]
  refine (if_neg (by decide)).trans ?_
  dsimp only
  rw [show sprueEnWritten (writeReg s (oENGINE n) (v ||| 1)) n = engineWritten s n (v ||| 1) from rfl,
    engineWritten_interlock]

theorem laserEnClear_eq {s : State} {f : Func} {n : Nat} {v : Word} (may : mayWriteIn s f 18 = true) :
    laserEnClear f n v s = if !bit (getR s (oENGINE n)) 0 then engineWritten s n (v &&& ~~~1)
      else darkenEngine (modEngine (engineWritten s n (v &&& ~~~1)) n fun e =>
        { e with state := 0, enAt := none, faultAt := none }) n 7 false := by
  unfold laserEnClear
  rw [may]
  exact if_neg (by decide)

/-- The engine in bring-up. -/
def bringupBegun (s : State) (n : Nat) : State :=
  modEngine s n fun e => { e with state := 1, enAt := some s.now, faultAt := none }

theorem beginBringup_spec (s : State) (n : Nat) :
    engine (beginBringup s n) n = { engine s n with state := 1, enAt := some s.now, faultAt := none } ∧
      EngineLocks s (beginBringup s n) n := by
  have e : beginBringup s n = lockEngine (bringupBegun s n) n := rfl
  rw [e]
  refine ⟨?_, EngineLocks.congr (lockEngine_locks (bringupBegun s n) n) fun q => rfl⟩
  rw [lockEngine_engine]
  exact engine_modEngine ..

theorem laserEnSet_spec {s : State} {f : Func} {n : Nat} {v : Word} (hn : n < 34) (may : mayWriteIn s f 18 = true) :
    let t := laserEnSet f n v s
    bit (getR t (oENGINE n)) 0 = true ∧
      (bit (getR s (oENGINE n)) 0 = true ∨ interlock s = true → engine t n = engine s n ∧ t.lnk = s.lnk) ∧
      (bit (getR s (oENGINE n)) 0 = false → interlock s = false →
        engine t n = { engine s n with state := 1, enAt := some s.now, faultAt := none } ∧ EngineLocks s t n) := by
  have on : bit (getR (engineWritten s n (v ||| 1)) (oENGINE n)) 0 = true := by
    rw [engineWritten_bit hn, bit_set_zero]
  have lanes (q : Nat) : lane (engineWritten s n (v ||| 1)) q = lane s q := (engineWritten_fr _ _ _).lane q
  obtain ⟨engines, locks⟩ := beginBringup_spec (engineWritten s n (v ||| 1)) n
  rw [engineWritten_engine, (engineWritten_fr _ _ _).now rfl] at engines
  dsimp only
  rw [laserEnSet_eq may]
  by_cases still : (bit (getR s (oENGINE n)) 0 || interlock s) = true
  · rw [if_pos still]
    refine ⟨on, fun _ => ⟨engineWritten_engine _ _ _ _, (engineWritten_fr _ _ _).lnk rfl⟩, fun off free => ?_⟩
    rw [off, free] at still
    exact absurd still (by decide)
  · rw [if_neg still]
    refine ⟨?_, fun held => ?_, fun _ _ => ⟨engines, EngineLocks.congr locks lanes⟩⟩
    · rw [(beginBringup_fr _ _).getR, on]
    · exact absurd (by rcases held with h | h <;> simp [h]) still

theorem laserEnClear_spec {s : State} {f : Func} {n : Nat} {v : Word} (hn : n < 34) (may : mayWriteIn s f 18 = true) :
    let t := laserEnClear f n v s
    bit (getR t (oENGINE n)) 0 = false ∧
      (bit (getR s (oENGINE n)) 0 = true → (engine t n).state = 0 ∧ EngineDark s t n ∧
        ∀ l, l ∈ engineLinks n → (link t l).state = 4 ∨ (link t l).cause = 7) := by
  have off : bit (getR (engineWritten s n (v &&& ~~~1)) (oENGINE n)) 0 = false := by
    rw [engineWritten_bit hn, bit_clear_zero]
  set y := modEngine (engineWritten s n (v &&& ~~~1)) n fun e => { e with state := 0, enAt := none, faultAt := none } with hy
  have lanes (q : Nat) : lane y q = lane s q := (engineWritten_fr s n (v &&& ~~~1)).lane q
  dsimp only
  rw [laserEnClear_eq may]
  by_cases was : bit (getR s (oENGINE n)) 0 = true
  · rw [if_neg (by rw [was]; decide), ← hy]
    obtain ⟨⟨down, sprues, running, channel, chans⟩, engines⟩ := darkenEngine_dark y n 7 false
    refine ⟨?_, fun _ => ⟨?_, ⟨fun q hq => ?_, sprues, running, channel, chans⟩, fun l hl => darkenEngine_links y n 7 l hl⟩⟩
    · rw [(darkenEngine_fr _ _ _ _).getR]
      exact off
    · rw [engines, hy, engine_modEngine]
      rfl
    · rw [← lanes q]
      exact down q hq
  · rw [if_pos (by simpa using was)]
    exact ⟨off, fun h => absurd h was⟩

/-! #### Bring-up -/

theorem oeFault_spec (s : State) (n cause : Nat) :
    engine (oeFault s n cause) n = calEnded { engine s n with state := 3, faultAt := some s.now, enAt := none } ∧
      EngineDark s (oeFault s n cause) n ∧
      cntGet (oeFault s n cause) 0x10E = (cntGet s 0x10E + 1) % 2 ^ 64 := by
  set y := raiseEvent (modEngine s n fun e => { e with state := 3, faultAt := some s.now, enAt := none }) 0x10E 0x7F
    (at_ 24 n) cause with hy
  have e : oeFault s n cause = darkenEngine y n 1 true := rfl
  have quiet : QuietEvent 0x10E := ⟨by decide, by decide⟩
  have lanes (q : Nat) : lane y q = lane s q := (raiseEvent_fr _ _ _ _ _).lane q
  have own : engine y n = { engine s n with state := 3, faultAt := some s.now, enAt := none } := by
    unfold engine
    rw [hy, raiseEvent_opt]
    exact engine_modEngine ..
  obtain ⟨⟨down, sprues, running, channel, chans⟩, engines⟩ := darkenEngine_dark y n 1 true
  rw [e, engines, own, (darkenEngine_across y n 1 true).qk _ quiet, hy, raiseEvent_cnt _ _ _ _ _ _ quiet.lt, if_pos rfl]
  refine ⟨rfl, ⟨fun q hq => ?_, sprues, running, channel, chans⟩, rfl⟩
  rw [← lanes q]
  exact down q hq

theorem EngineDark.noteHealth {s t : State} {n : Nat} (h : EngineDark s t n) : EngineDark s (Machine.noteHealth t) n := by
  have opt : (Machine.noteHealth t).opt = t.opt := (noteHealth_fr t).opt rfl
  obtain ⟨down, sprues, running, channel, chans⟩ := h
  unfold EngineDark sprue engine storedChan at *
  rw [opt]
  exact ⟨fun q hq => by rw [noteHealth_lane]; exact down q hq, sprues, running, channel, chans⟩

theorem engine_noteHealth (s : State) (n : Nat) : engine (noteHealth s) n = engine s n := by
  unfold engine
  rw [(noteHealth_fr s).opt rfl]

theorem oeBringupTimeout_spec {s : State} {n cause a : Nat} (trying : (engine s n).state = 1)
    (began : (engine s n).enAt = some a) :
    let t := oeBringupTimeout n cause s
    t.now = max s.now (a + secT) ∧ (engine t n).state = 3 ∧ (engine t n).faultAt = some t.now ∧ EngineDark s t n ∧
      cntGet t 0x10E = (cntGet s 0x10E + 1) % 2 ^ 64 := by
  have e : oeBringupTimeout n cause s = noteHealth (oeFault (await s a secT) n cause) := by
    unfold oeBringupTimeout
    rw [if_pos trying, began]
    rfl
  obtain ⟨engines, dark, counted⟩ := oeFault_spec (await s a secT) n cause
  have now : (oeBringupTimeout n cause s).now = max s.now (a + secT) := by
    rw [e, noteHealth_now, (oeFault_fr _ _ _).now rfl]
    rfl
  dsimp only
  rw [now, e, engine_noteHealth, engines, noteHealth_cnt _ _ (by decide) (by decide), counted]
  exact ⟨rfl, rfl, rfl, EngineDark.noteHealth dark, rfl⟩

theorem oeBringupRetry_spec {s : State} {n a : Nat} (failed : (engine s n).state = 3)
    (on : bit (getR s (oENGINE n)) 0 = true) (since : (engine s n).faultAt = some a) :
    let t := oeBringupRetry n s
    t.now = max s.now (a + 60 * secT) ∧ (engine t n).state = 1 ∧ (engine t n).enAt = some t.now ∧ EngineLocks s t n := by
  have e : oeBringupRetry n s = beginBringup (await s a (60 * secT)) n := by
    unfold oeBringupRetry
    rw [if_pos ⟨failed, on⟩, since]
    rfl
  obtain ⟨engines, locks⟩ := beginBringup_spec (await s a (60 * secT)) n
  have now : (oeBringupRetry n s).now = max s.now (a + 60 * secT) := by
    rw [e, (beginBringup_fr _ _).now rfl]
    rfl
  dsimp only
  rw [now, e, engines]
  exact ⟨rfl, rfl, rfl, EngineLocks.congr locks fun q => rfl⟩

/-! #### Sensors -/

theorem setNth_length {α : Type} (l : List α) (i : Nat) (v : α) : (setNth l i v).length = l.length := by
  induction l generalizing i with
  | nil => rfl
  | cons x l ih =>
    cases i with
    | zero => rfl
    | succ i => simp only [setNth, List.length_cons, ih]

theorem nth_setNth {α : Type} (d : α) (l : List α) (i j : Nat) (v : α) :
    nth d (setNth l i v) j = if j = i ∧ i < l.length then v else nth d l j := by
  induction l generalizing i j with
  | nil => simp [setNth]
  | cons x l ih =>
    cases i with
    | zero =>
      cases j with
      | zero => simp [setNth, nth]
      | succ j => simp [setNth, nth]
    | succ i =>
      cases j with
      | zero => simp [setNth, nth]
      | succ j => simpa [setNth, nth] using ih i j

/-- The slew event of a sensor, where a reading within the last millisecond lies 5 K off and no slew was known. -/
def slewEvent (n i : Nat) (known : Bool) (x : Int) (s : State) : Option Int → State
  | some p => if known then s else raiseEvent s 0x10C 0x7F (at_ 24 n + i) (enc 16 (x - p))
  | none => s

/-- The events that one sensor's part of a sample raises. -/
def senseEvents (n : Nat) (r : List (BitVec 16)) (s : State) (i : Nat) : State :=
  let e := engine s n
  let x := sx 16 (nth 0 r i).toNat
  let s := if sensorBad r i && !nth false e.faulty i then raiseEvent s 0x013 0x7F (unitWord i n 2 (nth 0 r i)) 0 else s
  let past := (e.history.filter fun h => decide (s.now ≤ h.1 + msT)).map fun h => sx 16 (nth 0 h.2 i).toNat
  let s := slewEvent n i (nth false e.slewing i) x s (past.find? fun p => decide (80 < (x - p).natAbs))
  if (decide (x < 160) || decide (1760 < x)) && !nth false e.outRange i then
    raiseEvent s 0x10D 0x7F (at_ 24 n + i) (enc 16 x) else s

theorem slewEvent_fr (n i : Nat) (known : Bool) (x : Int) (s : State) (o : Option Int) :
    Fr 81924 s (slewEvent n i known x s o) := by
  cases o with
  | none => exact Fr.refl _ _
  | some p => exact Fr.ite (Fr.refl _ _) (raiseEvent_fr _ _ _ _ _)

theorem senseEvents_fr (n : Nat) (r : List (BitVec 16)) (s : State) (i : Nat) : Fr 81924 s (senseEvents n r s i) := by
  have event (c : Bool) (x : State) (h : Fr 81924 s x) (code part a0 a1 : Nat) :
      Fr 81924 s (if c then raiseEvent x code part a0 a1 else x) :=
    Fr.ite (Fr.step (raiseEvent_fr _ _ _ _ _) h) h
  unfold senseEvents
  exact event _ _ (Fr.step (slewEvent_fr _ _ _ _ _ _) (event _ s (Fr.refl _ _) _ _ _ _)) _ _ _ _

theorem senseOne_eq (n : Nat) (r : List (BitVec 16)) (s : State) (i : Nat) :
    ∃ slew out, senseOne n r s i = modEngine (senseEvents n r s i) n fun e => { e with
      temps := setNth e.temps i (if sensorBad r i then 0x8000 else nth 0 r i)
      faulty := setNth e.faulty i (sensorBad r i), slewing := setNth e.slewing i slew, outRange := setNth e.outRange i out } := by
  exact ⟨_, _, rfl⟩

/-- One sensor's part of a sample: its own fault, and nothing of the lanes or of the engine's state. -/
theorem senseOne_spec (n : Nat) (r : List (BitVec 16)) (s : State) (i : Nat) :
    (engine (senseOne n r s i) n).faulty = setNth (engine s n).faulty i (sensorBad r i) ∧
      (engine (senseOne n r s i) n).state = (engine s n).state ∧
      (engine (senseOne n r s i) n).applied = (engine s n).applied ∧ (senseOne n r s i).lnk = s.lnk := by
  obtain ⟨slew, out, e⟩ := senseOne_eq n r s i
  have own : engine (senseEvents n r s i) n = engine s n := by
    unfold engine
    rw [(senseEvents_fr n r s i).opt rfl]
  rw [e, engine_modEngine, own]
  exact ⟨rfl, rfl, rfl, (senseEvents_fr n r s i).lnk rfl⟩

/-- Every sensor has been judged. -/
def sensed (n : Nat) (r : List (BitVec 16)) (s : State) : State := forEach (List.range r.length) s (senseOne n r)

theorem sensed_spec (n : Nat) (r : List (BitVec 16)) (s : State) :
    (engine (sensed n r s) n).state = (engine s n).state ∧ (sensed n r s).lnk = s.lnk :=
  ⟨forEach_keeps (fun y => (engine y n).state) (senseOne n r) (fun y i => (senseOne_spec n r y i).2.1) _ s,
    forEach_keeps (fun y => y.lnk) (senseOne n r) (fun y i => (senseOne_spec n r y i).2.2.2) _ s⟩

theorem sensed_faulty {n : Nat} {r : List (BitVec 16)} {s : State} (four : (engine s n).faulty.length = 4)
    (short : r.length ≤ 4) {i : Nat} (hi : i < r.length) : nth false (engine (sensed n r s) n).faulty i = sensorBad r i := by
  have own (y : State) (a : Nat) : (engine (senseOne n r y a) n).faulty = setNth (engine y n).faulty a (sensorBad r a) :=
    (senseOne_spec n r y a).1
  refine (forEach_settles (q := i) (f := senseOne n r) (J := fun y => (engine y n).faulty.length = 4)
    (P := fun y => (engine y n).faulty.length = 4 ∧ nth false (engine y n).faulty i = sensorBad r i) (fun y a h => ?_)
    (fun y h => ?_) (fun y a h => ?_) four (List.mem_range.2 hi)).2
  · rw [own, setNth_length, h]
  · rw [own, setNth_length, nth_setNth, if_pos ⟨rfl, by omega⟩]
    exact ⟨h, rfl⟩
  · obtain ⟨len, h⟩ := h
    rw [own, setNth_length, nth_setNth]
    refine ⟨len, ?_⟩
    split
    · next same => rw [← same.1]
    · exact h

/-- The readings that the channels follow, with the sample in the engine's history. -/
def sampleApplied (n : Nat) (r : List (BitVec 16)) (s : State) : State :=
  modEngine (takeFree s) n fun e => { e with
    trimAt := s.freeCtr
    applied := (List.range 4).map fun i => if i < r.length then followed r ((List.range r.length).map (sensorBad r)) i
      else nth 0 e.applied i
    history := (s.now, r) :: e.history.filter fun h => decide (s.now ≤ h.1 + msT) }

theorem optSensorSample_eq (n : Nat) (readings : List (BitVec 16)) (s : State) : optSensorSample n readings s =
    let r := readings.take 4
    let bad := (List.range r.length).map (sensorBad r)
    let y := sampleApplied n r (sensed n r s)
    noteHealth (if !bad.isEmpty && bad.all id && ((engine y n).state == 1 || (engine y n).state == 2) then oeFault y n 4
      else y) := rfl

theorem optSensorSample_spec {s : State} {n : Nat} {readings r : List (BitVec 16)} (taken : r = readings.take 4)
    (four : (engine s n).faulty.length = 4) :
    let t := optSensorSample n readings s
    (∀ i, i < r.length → nth false (engine t n).faulty i = sensorBad r i ∧
      nth 0 (engine t n).applied i = followed r ((List.range r.length).map (sensorBad r)) i) ∧
    (r ≠ [] → (∀ i, i < r.length → sensorBad r i = true) → (engine s n).state = 1 ∨ (engine s n).state = 2 →
      (engine t n).state = 3 ∧ EngineDark s t n) ∧
    ((∃ i, i < r.length ∧ sensorBad r i = false) → (engine t n).state = (engine s n).state ∧ t.lnk = s.lnk) := by
  have short : r.length ≤ 4 := by
    rw [taken]
    exact List.length_take_le ..
  set y := sampleApplied n r (sensed n r s) with hy
  set bad := (List.range r.length).map (sensorBad r) with hb
  obtain ⟨state, lnk⟩ := sensed_spec n r s
  have own : (engine y n).state = (engine s n).state ∧ (engine y n).faulty = (engine (sensed n r s) n).faulty ∧
      (engine y n).applied = (List.range 4).map fun i => if i < r.length then followed r bad i
        else nth 0 (engine (sensed n r s) n).applied i := by
    rw [hy]
    unfold sampleApplied
    rw [engine_modEngine]
    exact ⟨state, rfl, rfl⟩
  obtain ⟨state', faulty, applied⟩ := own
  have ylnk : y.lnk = s.lnk := lnk
  have e : optSensorSample n readings s = noteHealth (if !bad.isEmpty && bad.all id &&
      ((engine y n).state == 1 || (engine y n).state == 2) then oeFault y n 4 else y) := by
    rw [optSensorSample_eq, ← taken]
  obtain ⟨faulted, dark, -⟩ := oeFault_spec y n 4
  have readings' (x : Engine) (hf : x.faulty = (engine y n).faulty) (ha : x.applied = (engine y n).applied) (i : Nat)
      (hi : i < r.length) : nth false x.faulty i = sensorBad r i ∧ nth 0 x.applied i = followed r bad i := by
    rw [hf, ha, faulty, applied]
    refine ⟨sensed_faulty four short hi, ?_⟩
    have four' : i < 4 := by omega
    simp [nth, List.getD, List.getElem?_map, List.getElem?_range four', hi]
  dsimp only
  rw [e]
  refine ⟨fun i hi => ?_, fun some all lit => ?_, fun ⟨i, hi, good⟩ => ?_⟩
  · rw [engine_noteHealth]
    split
    · exact readings' _ (by rw [faulted]; rfl) (by rw [faulted]; rfl) i hi
    · exact readings' _ rfl rfl i hi
  · have all' : bad.all id = true := by
      rw [hb, List.all_map, List.all_eq_true]
      exact fun i hi => all i (List.mem_range.1 hi)
    have some' : bad.isEmpty = false := by
      rw [hb, List.isEmpty_eq_false_iff]
      simpa using some
    have lit' : ((engine y n).state == 1 || (engine y n).state == 2) = true := by
      rw [state']
      rcases lit with h | h <;> simp [h]
    rw [if_pos (by rw [all', some', lit']; rfl), engine_noteHealth, faulted]
    refine ⟨rfl, EngineDark.noteHealth ?_⟩
    obtain ⟨down, rest⟩ := dark
    refine ⟨fun q hq => ?_, rest⟩
    rw [← lane_congr ylnk]
    exact down q hq
  · have notAll : bad.all id = false := by
      rw [hb, List.all_map, List.all_eq_false]
      exact ⟨i, List.mem_range.2 hi, by simp [good]⟩
    rw [if_neg (by rw [notAll]; simp), engine_noteHealth, (noteHealth_fr _).lnk rfl]
    exact ⟨state', ylnk⟩

/-! #### Dither lock -/

theorem ditherLockLoss_eq {s : State} {n x : Nat} {d : Dir} (locked : (chan s d (256 * n + x)).lostLock = false)
    (lit : (chan s d (256 * n + x)).state ∉ [0, 8, 9]) : ditherLockLoss n x d s =
      let k := 256 * n + x
      let y := modChan s d k fun c => { c with lostLock := true, trim := trimOf s d k }
      if carries (chan s d k) then noteHealth (laneDie y (chan s d k).lane 1 true false) else y := by
  unfold ditherLockLoss
  refine if_neg ?_
  simp only [List.mem_cons, List.not_mem_nil, or_false, not_or] at lit
  simp [locked, lit]

theorem ditherLockLoss_spec {s : State} {n x : Nat} {d : Dir} (locked : (chan s d (256 * n + x)).lostLock = false)
    (lit : (chan s d (256 * n + x)).state ∉ [0, 8, 9]) :
    let k := 256 * n + x
    let t := ditherLockLoss n x d s
    (chan t d k).lostLock = true ∧ (chan t d k).trim = trimOf s d k ∧
      (carries (chan s d k) = false → OnlyChanges [.opt] s t) ∧
      (carries (chan s d k) = true → (lane s (chan s d k).lane).state = 4 →
        (lane t (chan s d k).lane).state = 1 ∨ (lane t (chan s d k).lane).state = 7) := by
  intro k t
  set y := modChan s d k fun c => { c with lostLock := true, trim := trimOf s d k } with hy
  have e : t = if carries (chan s d k) then noteHealth (laneDie y (chan s d k).lane 1 true false) else y :=
    ditherLockLoss_eq locked lit
  have kept : ReadingsKept y t := by
    rw [e]
    exact .ite ((laneDie_readings _ _ _ _).trans (.of (noteHealth_fr _))) (.refl _)
  have read : readings (chan t d k) = readings (storedChan y d k) := (kept.chan d k).trans (chan_readings y d k)
  have own : (storedChan y d k).lostLock = true ∧ (storedChan y d k).trim = trimOf s d k := by
    rw [hy, storedChan_modChan_same]
    exact ⟨rfl, rfl⟩
  refine ⟨?_, ?_, fun idle => ?_, fun carried up => ?_⟩
  · exact (congrArg Prod.fst read).trans own.1
  · exact (congrArg (fun x => x.2.1) read).trans own.2
  · rw [e, if_neg (by rw [idle]; decide)]
    exact (modChan_fr s d k _).onlyChanges _
  · have up' : (lane y (chan s d k).lane).state = 4 := by
      rw [(modChan_fr s d k _).lane, up]
    rw [e, if_pos carried, noteHealth_lane, laneDie_state (.inr up')]
    split
    · exact .inr rfl
    · exact .inl rfl

theorem lockReacquired_spec {s : State} {n x : Nat} {d : Dir} (lost : (chan s d (256 * n + x)).lostLock = true) :
    let k := 256 * n + x
    let t := lockReacquired n x d s
    OnlyChanges [.opt] s t ∧ (chan t d k).lostLock = false ∧ (chan t d k).trim = 0 := by
  intro k t
  have e : t = modChan s d k fun c => { c with lostLock := false, trim := 0 } := if_pos lost
  have read := chan_readings t d k
  rw [e, storedChan_modChan_same] at read
  rw [e]
  exact ⟨(modChan_fr s d k _).onlyChanges _, congrArg Prod.fst read, congrArg (fun x => x.2.1) read⟩

/-- Settles O38: an engine lights by `lockEngine_locks` and goes dark by `darkenEngine_dark`; a channel that has lost its
lock keeps it lost through the death of its lane by `laneDie_readings`. -/
theorem enginesLightAndFault : Obligations.EnginesLightAndFault := by
  unfold Obligations.EnginesLightAndFault
  intro s n hn
  refine ⟨fun f v barred => ⟨?_, ?_⟩, fun f v may => ⟨⟨_, rfl, laserEnSet_spec hn may⟩, ⟨_, rfl, laserEnClear_spec hn may⟩⟩,
    fun trying => ⟨?_, fun cause a began => ⟨_, rfl, oeBringupTimeout_spec trying began⟩⟩,
    fun a failed on since => ⟨_, rfl, oeBringupRetry_spec failed on since⟩,
    fun readings r taken four => ⟨_, rfl, optSensorSample_spec taken four⟩,
    fun x d locked lit => ⟨_, rfl, ditherLockLoss_spec locked lit⟩, fun x d lost => ⟨_, rfl, lockReacquired_spec lost⟩⟩
  · exact congrArg Host.Outcome.next (if_pos (by rw [barred]; rfl))
  · exact congrArg Host.Outcome.next (if_pos (by rw [barred]; rfl))
  · have e : oeBringupDone n s = lockEngine (modEngine s n fun e => { e with state := 2 }) n := if_pos trying
    refine ⟨_, congrArg Host.Outcome.next e, ?_, EngineLocks.congr (lockEngine_locks _ n) fun q => rfl⟩
    rw [lockEngine_engine]
    exact engine_modEngine ..

end Sys2Proof.Machine

/-! ### Swaps and the spares they take: R59, R60, R68 -/

namespace Sys2Proof.Machine

set_option Elab.async false

/-! #### The swap recorded for a lane -/

theorem swapKey_inj {d d' : Dir} {q q' : Nat} (h : swapKey d q = swapKey d' q') : d = d' ∧ q = q' := by
  unfold swapKey at h
  cases d <;> cases d' <;> simp_all <;> omega

theorem swapOf_congr {s t : State} (h : t.opt.swaps = s.opt.swaps) (d : Dir) (q : Nat) : swapOf t d q = swapOf s d q := by
  unfold swapOf
  rw [h]

theorem swapOf_setSwap_same (s : State) (d : Dir) (q : Nat) (w : Swap) :
    swapOf (setSwap s d q w) d q = if w.phase = 0 then none else some w := by
  unfold swapOf setSwap
  dsimp only
  rw [tget_tset_same]

theorem swapOf_setSwap_some (s : State) (d : Dir) (q : Nat) {w : Swap} (h : w.phase ≠ 0) :
    swapOf (setSwap s d q w) d q = some w := by
  rw [swapOf_setSwap_same, if_neg h]

theorem swapOf_setSwap_none (s : State) (d : Dir) (q : Nat) : swapOf (setSwap s d q {}) d q = none := by
  rw [swapOf_setSwap_same]
  rfl

theorem swapOf_setSwap_other (s : State) (d : Dir) (q : Nat) (w : Swap) {d' : Dir} {q' : Nat} (h : ¬ (d' = d ∧ q' = q)) :
    swapOf (setSwap s d q w) d' q' = swapOf s d' q' := by
  unfold swapOf setSwap
  dsimp only
  rw [tget_tset_other _ _ _ _ _ _ fun e => h (swapKey_inj e)]

theorem modChan_swaps (s : State) (d : Dir) (k : Nat) (f : Chan → Chan) : (modChan s d k f).opt.swaps = s.opt.swaps := by
  cases d <;> rfl

theorem swapOf_modChan (s : State) (d : Dir) (k : Nat) (f : Chan → Chan) (d' : Dir) (q : Nat) :
    swapOf (modChan s d k f) d' q = swapOf s d' q := swapOf_congr (modChan_swaps s d k f) d' q

theorem swapOf_pos {s : State} {d : Dir} {q : Nat} {w : Swap} (h : swapOf s d q = some w) : w.phase ≠ 0 := by
  unfold swapOf at h
  dsimp only at h
  split at h
  · exact nomatch h
  · next live => exact Option.some.inj h ▸ live

theorem chan_setSwap (s : State) (d : Dir) (q : Nat) (w : Swap) (d' : Dir) (k : Nat) :
    chan (setSwap s d q w) d' k = chan s d' k := rfl

/-! #### What the choice of a spare reads -/

/-- What of a channel makes it a spare or the channel of a lane. -/
def spareView (c : Chan) : Nat × Nat × Nat × Bool × Bool := (c.state, c.lane, c.colour, c.tested, c.lostLock)

/-- The channels, the engines, the drops at the far end and the registers are alike for the choice of a spare. -/
structure SparesAlike (s t : State) : Prop where
  view : ∀ d k, spareView (chan t d k) = spareView (chan s d k)
  engines : t.opt.engines = s.opt.engines
  farBad : t.opt.farBad = s.opt.farBad
  reg : ∀ o, getR t o = getR s o

theorem SparesAlike.refl (s : State) : SparesAlike s s := ⟨fun _ _ => rfl, rfl, rfl, fun _ => rfl⟩

theorem SparesAlike.trans {s x t : State} (h : SparesAlike s x) (g : SparesAlike x t) : SparesAlike s t :=
  ⟨fun d k => (g.view d k).trans (h.view d k), g.engines.trans h.engines, g.farBad.trans h.farBad,
    fun o => (g.reg o).trans (h.reg o)⟩

theorem SparesAlike.of {m : Nat} {s t : State} (h : Fr m s t) (h5 : m.testBit 5 = false := by rfl)
    (h1 : m.testBit 1 = false := by rfl) (h3 : m.testBit 3 = false := by rfl) : SparesAlike s t :=
  ⟨fun d k => by rw [h.chan d k h5 h1 h3], by rw [h.opt h5], by rw [h.opt h5], fun o => h.getR o h1 h3⟩

theorem SparesAlike.ite {s a b : State} {c : Prop} [Decidable c] (ha : SparesAlike s a) (hb : SparesAlike s b) :
    SparesAlike s (if c then a else b) := by split <;> assumption

theorem setSwap_spares (s : State) (d : Dir) (q : Nat) (w : Swap) : SparesAlike s (setSwap s d q w) :=
  ⟨fun _ _ => rfl, rfl, rfl, fun o => (setSwap_fr s d q w).getR o⟩

theorem modChan_spares (s : State) (d : Dir) (k : Nat) (f : Chan → Chan) (live : (chan s d k).state ≠ 0)
    (hf : ∀ c, spareView (f c) = spareView c) : SparesAlike s (modChan s d k f) := by
  refine ⟨fun d' k' => ?_, by cases d <;> rfl, by cases d <;> rfl, getR_modChan s d k f⟩
  by_cases here : d' = d ∧ k' = k
  · obtain ⟨rfl, rfl⟩ := here
    have state : (f (chan s d' k')).state = (chan s d' k').state := congrArg Prod.fst (hf _)
    rw [chan_modChan_same _ _ _ _ (by rwa [state]), hf]
  · rw [chan_modChan_other _ _ _ _ here]

theorem carries_view {c c' : Chan} (h : spareView c = spareView c') : carries c = carries c' := by
  simp only [spareView, Prod.mk.injEq] at h
  unfold carries
  rw [h.1]

theorem SparesAlike.laneKey {s t : State} (h : SparesAlike s t) (d : Dir) (q : Nat) :
    Machine.laneKey t d q = Machine.laneKey s d q := by
  refine laneKey_of_carries (h.reg _) fun k => ?_
  have same := h.view d k
  unfold carriesLane
  rw [carries_view same]
  simp only [spareView, Prod.mk.injEq] at same
  rw [same.2.1]

theorem SparesAlike.standInColour {s t : State} (h : SparesAlike s t) (d : Dir) (q : Nat) :
    Machine.standInColour t d q = Machine.standInColour s d q := by
  have colour (k : Nat) : (chan t d k).colour = (chan s d k).colour := congrArg (·.2.2.1) (h.view d k)
  have state (k : Nat) : (chan t d k).state = (chan s d k).state := congrArg (·.1) (h.view d k)
  unfold Machine.standInColour
  dsimp only
  rw [h.laneKey, workKey_congr (h.reg _), h.farBad, colour, state]
  rw [show colourOfLane t q = colourOfLane s q by unfold colourOfLane posJ rf; rw [h.reg]]

theorem SparesAlike.usableSpare {s t : State} (h : SparesAlike s t) (d : Dir) (q : Nat) :
    Machine.usableSpare t d q = Machine.usableSpare s d q := by
  have free (k : Nat) : spareFree (chan t d k) = spareFree (chan s d k) := by
    have same := h.view d k
    simp only [spareView, Prod.mk.injEq] at same
    obtain ⟨state, lane, -, tested, lost⟩ := same
    unfold spareFree
    rw [state, lane, tested, lost]
  have held (k : Nat) : calHeld t d k = calHeld s d k := by
    unfold calHeld engine
    rw [h.engines]
  unfold Machine.usableSpare freeSpare
  rw [h.standInColour, h.laneKey]
  simp only [free, held]

/-- A swap that ends keeps no fibre busy that was free. -/
theorem fibreSwapping_setSwap_none {s : State} {k : Nat} (idle : fibreSwapping s k = false) (d : Dir) (q : Nat) :
    fibreSwapping (setSwap s d q {}) k = false := by
  unfold fibreSwapping at *
  refine List.any_eq_false.2 fun e member => ?_
  rcases mem_tset _ _ _ _ _ member with rfl | old
  · simp
  · exact List.any_eq_false.1 idle e old

/-! #### A swap that starts -/

theorem swapOf_startSwap (s : State) (q spare colour reason : Nat) : swapOf (startSwap s q spare colour reason) .tx q =
    some { phase := 1, old := laneKey s .tx q, spare := spare, colour := colour, reason := reason, startAt := s.now } := by
  unfold startSwap
  dsimp only
  rw [swapOf_setSwap_some _ _ _ (by simp), modChan_now]

/-- A lane that a swap can serve: no circuit holds it, its engine swaps, none runs for it or on its fibre. -/
structure SwapMayStart (s : State) (q : Nat) : Prop where
  free : (lane s q).state ≠ 5
  allowed : bit (getR s (oENGINE (laneKey s .tx q / 256))) 2 = true
  none : swapOf s .tx q = none
  fibre : fibreSwapping s (laneKey s .tx q) = false

theorem fadeSwap_starts {s : State} {q fade sp c : Nat} (may : SwapMayStart s q) (spare : usableSpare s .tx q = some sp)
    (colour : standInColour s .tx q = some c) : fadeSwap s q fade = startSwap s q sp c 0 := by
  unfold fadeSwap
  dsimp only
  rw [if_neg may.free, may.allowed, if_neg (by simp), may.none]
  dsimp only
  rw [if_neg (by simp [may.fibre])]
  unfold fadeGo
  dsimp only
  rw [spare, colour]

theorem fadeSwap_readings (s : State) (q fade : Nat) : ReadingsKept s (fadeSwap s q fade) := by
  have queued : ReadingsKept s (queueFade s q fade) := .of_opt rfl rfl
  unfold fadeSwap
  dsimp only
  refine .ite (.refl s) (.ite (.of (raiseEvent_fr _ _ _ _ _)) ?_)
  split
  · exact .ite (.refl s) queued
  · exact .ite queued (fadeGo_readings s q fade)

/-! #### One laser's fade: R58 -/

/-- A laser's fade recorded, and noticed where it is above NOTICE. -/
def fadeNoticed (s : State) (k q fade : Nat) : State :=
  let c := chan s .tx k
  let s := modChan s .tx k fun c => { c with fade := min 255 fade }
  let noticed := decide (rf s oFADE_CFG 7 0 ≤ fade)
  let s := if noticed && !c.noticed then raiseEvent s 0x101 (partLane q) (chwOf .tx k q) (min 255 fade) else s
  if noticed != c.noticed then modChan s .tx k fun c => { c with noticed := noticed } else s

/-- The same, with SWAP crossed or not. -/
def fadeTaken (s : State) (k q fade : Nat) : State :=
  let cross := decide (rf (fadeNoticed s k q fade) oFADE_CFG 15 8 ≤ fade)
  if cross != (chan s .tx k).crossed then modChan (fadeNoticed s k q fade) .tx k fun c => { c with crossed := cross }
  else fadeNoticed s k q fade

/-- The swap that a fade which crosses SWAP asks for. -/
def fadeServed (s : State) (k q fade : Nat) : State :=
  if decide (rf (fadeNoticed s k q fade) oFADE_CFG 15 8 ≤ fade) && !(chan s .tx k).crossed then
    fadeSwap (fadeTaken s k q fade) q fade
  else fadeTaken s k q fade

/-- A fade above RETIRE retires the lane whose laser has no swap and no spare. -/
def fadeRetires (s : State) (n k q fade : Nat) : Bool :=
  rf s oFADE_CFG 23 16 ≤ fade &&
    (!bit (getR s (oENGINE n)) 2 || ((usableSpare s .tx q).isNone && !calOnFibre s k)) && (swapOf s .tx q).isNone &&
    (chan s .tx k).state == 2

theorem fadeOne_eq {s : State} {n x fade k q : Nat} (key : k = 256 * n + x) (own : carries (chan s .tx k) = true)
    (carried : (chan s .tx k).lane = q) (free : (lane s q).state ≠ 5) : fadeOne n s (x, fade) =
    if fadeRetires (fadeServed s k q fade) n k q fade then retireLane (fadeServed s k q fade) q .tx 1 true
    else fadeServed s k q fade := by
  subst key carried
  unfold fadeOne
  dsimp only
  rw [if_neg (by simp [own, free])]
  rfl

theorem carries_live {c : Chan} (h : carries c = true) : c.state ≠ 0 := by
  intro dark
  simp [carries, dark] at h

theorem fadeNoticed_fr (s : State) (k q fade : Nat) : Fr 81956 s (fadeNoticed s k q fade) := by
  have taken : Fr 81956 s (modChan s .tx k fun c => { c with fade := min 255 fade }) := .step (modChan_fr _ _ _ _) (.refl _ _)
  unfold fadeNoticed
  dsimp only
  refine Fr.ite (.step (modChan_fr _ _ _ _) ?_) ?_
  all_goals exact Fr.ite (.step (raiseEvent_fr _ _ _ _ _) taken) taken

theorem fadeTaken_fr (s : State) (k q fade : Nat) : Fr 81956 s (fadeTaken s k q fade) := by
  unfold fadeTaken
  exact Fr.ite (.step (modChan_fr _ _ _ _) (fadeNoticed_fr s k q fade)) (fadeNoticed_fr s k q fade)

/-- The fade and its notice are recorded at the channel, which stays what it was to its lane; no swap moves. -/
theorem fadeNoticed_spec {s : State} {k : Nat} (q fade : Nat) (own : carries (chan s .tx k) = true) :
    (chan (fadeNoticed s k q fade) .tx k).fade = min 255 fade ∧
    (chan (fadeNoticed s k q fade) .tx k).noticed = decide (rf s oFADE_CFG 7 0 ≤ fade) ∧
    SparesAlike s (fadeNoticed s k q fade) ∧ (fadeNoticed s k q fade).opt.swaps = s.opt.swaps := by
  have live : (chan s .tx k).state ≠ 0 := carries_live own
  let y : State := modChan s .tx k fun c => { c with fade := min 255 fade }
  have first : chan y .tx k = { chan s .tx k with fade := min 255 fade } := chan_modChan_same _ _ _ _ live
  have alike : SparesAlike s y := modChan_spares s .tx k _ live fun _ => rfl
  have limit : rf y oFADE_CFG 7 0 = rf s oFADE_CFG 7 0 := by unfold rf; rw [alike.reg]
  let z : State := if decide (rf y oFADE_CFG 7 0 ≤ fade) && !(chan s .tx k).noticed then
    raiseEvent y 0x101 (partLane q) (chwOf .tx k q) (min 255 fade) else y
  have told : Fr 81924 y z := Fr.ite (raiseEvent_fr _ _ _ _ _) (.refl _ _)
  have same : chan z .tx k = chan y .tx k := told.chan .tx k
  have alike' : SparesAlike s z := alike.trans (.of told)
  have swaps : z.opt.swaps = s.opt.swaps := (congrArg (·.swaps) (told.opt rfl)).trans (modChan_swaps _ _ _ _)
  have whole : fadeNoticed s k q fade = if decide (rf y oFADE_CFG 7 0 ≤ fade) != (chan s .tx k).noticed then
      modChan z .tx k fun c => { c with noticed := decide (rf y oFADE_CFG 7 0 ≤ fade) } else z := rfl
  have lives : (chan z .tx k).state ≠ 0 := by rw [same, first]; exact live
  rw [whole]
  split
  · rw [chan_modChan_same _ _ _ _ lives, same, first, limit]
    exact ⟨rfl, rfl, alike'.trans (modChan_spares _ _ _ _ lives fun _ => rfl), (modChan_swaps _ _ _ _).trans swaps⟩
  · next unchanged =>
    rw [same, first, ← limit]
    refine ⟨rfl, ?_, alike', swaps⟩
    simpa using (bne_iff_ne.not_left.1 unchanged).symm

theorem fadeTaken_spec {s : State} {k : Nat} (q fade : Nat) (own : carries (chan s .tx k) = true) :
    (chan (fadeTaken s k q fade) .tx k).fade = min 255 fade ∧
    (chan (fadeTaken s k q fade) .tx k).noticed = decide (rf s oFADE_CFG 7 0 ≤ fade) ∧
    SparesAlike s (fadeTaken s k q fade) ∧ (fadeTaken s k q fade).opt.swaps = s.opt.swaps := by
  obtain ⟨recorded, noticed, alike, swaps⟩ := fadeNoticed_spec (s := s) q fade own
  unfold fadeTaken
  dsimp only
  split
  · have live : (chan (fadeNoticed s k q fade) .tx k).state ≠ 0 := by
      have state : (chan (fadeNoticed s k q fade) .tx k).state = (chan s .tx k).state := congrArg Prod.fst (alike.view .tx k)
      exact state ▸ carries_live own
    rw [chan_modChan_same _ _ _ _ live]
    exact ⟨recorded, noticed, alike.trans (modChan_spares _ _ _ _ live fun _ => rfl), (modChan_swaps _ _ _ _).trans swaps⟩
  · exact ⟨recorded, noticed, alike, swaps⟩

theorem fadeServed_readings (s : State) (k q fade : Nat) : ReadingsKept (fadeTaken s k q fade) (fadeServed s k q fade) := by
  unfold fadeServed
  exact .ite (fadeSwap_readings _ _ _) (.refl _)

/-- A fade that crosses SWAP starts the swap of a lane that may have one onto its usable spare. -/
theorem fadeServed_starts {s : State} {k q fade sp c : Nat} (own : carries (chan s .tx k) = true)
    (crosses : rf s oFADE_CFG 15 8 ≤ fade) (fresh : (chan s .tx k).crossed = false) (may : SwapMayStart s q)
    (key : laneKey s .tx q = k) (spare : usableSpare s .tx q = some sp) (colour : standInColour s .tx q = some c) :
    swapOf (fadeServed s k q fade) .tx q =
      some { phase := 1, old := k, spare := sp, colour := c, reason := 0, startAt := s.now } := by
  obtain ⟨-, -, alike, -⟩ := fadeNoticed_spec (s := s) q fade own
  obtain ⟨-, -, alike', swaps⟩ := fadeTaken_spec (s := s) q fade own
  have frame := fadeTaken_fr s k q fade
  have may' : SwapMayStart (fadeTaken s k q fade) q := by
    refine ⟨?_, ?_, ?_, ?_⟩
    · rw [frame.lane]; exact may.free
    · rw [alike'.laneKey, alike'.reg]; exact may.allowed
    · rw [swapOf_congr swaps]; exact may.none
    · rw [alike'.laneKey]; unfold fibreSwapping; rw [swaps]; exact may.fibre
  have limit : rf (fadeNoticed s k q fade) oFADE_CFG 15 8 = rf s oFADE_CFG 15 8 := by unfold rf; rw [alike.reg]
  unfold fadeServed
  rw [limit, if_pos (by simp [crosses, fresh]), fadeSwap_starts may' ((alike'.usableSpare .tx q).trans spare)
    ((alike'.standInColour .tx q).trans colour), swapOf_startSwap, alike'.laneKey, key, frame.now rfl]

end Sys2Proof.Machine

/-! ### O39: transmit swaps run -/

namespace Sys2Proof.Machine

set_option Elab.async false

theorem Fr.swapOf {m : Nat} {s t : State} (h : Fr m s t) (d : Dir) (q : Nat) (h5 : m.testBit 5 = false := by rfl) :
    Machine.swapOf t d q = Machine.swapOf s d q := swapOf_congr (by rw [h.opt h5]) d q

theorem laserFadeSample_single (n x fade : Nat) (s : State) :
    laserFadeSample n [(x, fade)] s = noteHealth (fadeOne n s (x, fade)) := by
  unfold laserFadeSample
  rw [List.mergeSort_singleton]
  rfl

theorem laserFadeSample_spec {s : State} {n x fade k q : Nat} (key : k = 256 * n + x) (own : carries (chan s .tx k) = true)
    (carried : (chan s .tx k).lane = q) (free : (lane s q).state ≠ 5) :
    (chan (laserFadeSample n [(x, fade)] s) .tx k).fade = min 255 fade ∧
    (chan (laserFadeSample n [(x, fade)] s) .tx k).noticed = decide (rf s oFADE_CFG 7 0 ≤ fade) ∧
    (rf s oFADE_CFG 15 8 ≤ fade → (chan s .tx k).crossed = false → bit (getR s (oENGINE (k / 256))) 2 = true →
      laneKey s .tx q = k → fibreSwapping s k = false → swapOf s .tx q = none →
      ∀ sp c, usableSpare s .tx q = some sp → standInColour s .tx q = some c →
        swapOf (laserFadeSample n [(x, fade)] s) .tx q =
          some { phase := 1, old := k, spare := sp, colour := c, reason := 0, startAt := s.now }) := by
  obtain ⟨recorded, noticed, -, -⟩ := fadeTaken_spec (s := s) q fade own
  have kept : readings (chan (laserFadeSample n [(x, fade)] s) .tx k) = readings (chan (fadeTaken s k q fade) .tx k) := by
    refine ReadingsKept.chan ?_ .tx k
    rw [laserFadeSample_single, fadeOne_eq key own carried free]
    refine ReadingsKept.trans ?_ (.of (noteHealth_fr _))
    exact (fadeServed_readings s k q fade).trans (.ite (retireLane_readings _ _ _ _ _) (.refl _))
  simp only [readings, Prod.mk.injEq] at kept
  obtain ⟨-, -, keptFade, keptNotice⟩ := kept
  refine ⟨keptFade.trans recorded, keptNotice.trans noticed, fun crosses fresh allowed home fibre idle sp c spare colour => ?_⟩
  have started := fadeServed_starts own crosses fresh ⟨free, by rwa [home], idle, by rwa [home]⟩ home spare colour
  have stays : fadeRetires (fadeServed s k q fade) n k q fade = false := by
    unfold fadeRetires
    rw [started]
    simp
  rw [laserFadeSample_single, fadeOne_eq key own carried free, stays, if_neg (by simp)]
  exact ((noteHealth_fr _).swapOf ..).trans started

/-! #### The ordered sets of a swap on a lane that is not UP: R53, R81 -/

theorem osIllegal_eq (s : State) (q : Nat) : osIllegal s q = bump s (cLane q 5) := rfl

/-! #### The steps of a swap: R60, R64, R68 -/

section Steps

variable {s : State} {q : Nat} {w : Swap} (running : swapOf s .tx q = some w)
include running

theorem spareLocked_eq (tuning : w.phase = 1) : spareLocked q s =
    sendOs (setSwap (await s w.startAt msT) .tx q { w with phase := 2, reqAt := max s.now (w.startAt + msT) }) q osSW_REQUEST
      (mkBody [at_ 99 (linkLane q), at_ 93 w.colour, at_ 91 w.reason]) := by
  unfold spareLocked
  rw [running]
  dsimp only
  rw [if_pos tuning]
  rfl

theorem swReadyReceive_eq {b : BitVec 104} (up : (lane s q).state = 4) (asked : w.phase = 2)
    (colour : bf b 98 93 = w.colour) : swReadyReceive q b s =
    modChan (setSwap s .tx q { w with phase := 3, readyAt := s.now }) .tx w.spare fun c => { c with state := 3 } := by
  unfold swReadyReceive
  rw [if_neg (by simp [up]), if_neg (by simp [up]), running]
  exact if_pos ⟨asked, colour⟩

theorem duplicateIntervalEnd_eq (both : w.phase = 3) (alone : swapOf s .rx q = none) :
    duplicateIntervalEnd q s = setSwap (await s w.readyAt (3 * msT)) .tx q { w with phase := 4 } := by
  have other (t : Nat) (v : Swap) : swapOf (setSwap (await s t (3 * msT)) .tx q v) .rx q = none := by
    rw [swapOf_setSwap_other _ _ _ _ (by simp)]
    exact alone
  unfold duplicateIntervalEnd
  dsimp only
  rw [running]
  dsimp only
  rw [if_pos both, other]

theorem swDoneReceive_eq {b : BitVec 104} (up : (lane s q).state = 4) (marked : w.phase = 4)
    (named : w.marks.contains (bf b 98 83) = true) : swDoneReceive q b s =
    raiseEvent (modChan (setSwap s .tx q { w with phase := 5, doneAt := s.now }) .tx w.spare fun c =>
      { c with state := if w.reason = 1 then 6 else 2 }) 0x102 (partLane q) (chwOf .tx w.old q)
      (chwOf .tx w.spare q + at_ 32 w.reason) := by
  unfold swDoneReceive
  rw [if_neg (by simp [up]), running]
  exact if_pos ⟨marked, named⟩

theorem swapDoneTimeout_eq (both : w.phase = 3 ∨ w.phase = 4) (first : w.noDone = false) : swapDoneTimeout q s =
    raiseEvent (setSwap (await s w.readyAt (10 * msT)) .tx q { w with noDone := true }) 0x103 (partLane q)
      (chwOf .tx w.old q) 2 := by
  unfold swapDoneTimeout
  rw [running]
  dsimp only
  rw [if_pos ⟨both, by simp [first]⟩]

end Steps

/-- The spare a swap gives back: to the calibration that swept it, or idle. -/
def backedOff (w : Swap) (c : Chan) : Chan := if w.reason = 3 then { c with state := 4, lane := 0x1FFF } else idleChan c

theorem nextFade_none {s : State} (h : s.opt.fadeQueue = []) (k : Nat) : nextFade s k = s := by
  unfold nextFade largestFade
  rw [h]
  simp

theorem modChan_fadeQueue (s : State) (d : Dir) (k : Nat) (f : Chan → Chan) :
    (modChan s d k f).opt.fadeQueue = s.opt.fadeQueue := by cases d <;> rfl

theorem modChan_farBad (s : State) (d : Dir) (k : Nat) (f : Chan → Chan) :
    (modChan s d k f).opt.farBad = s.opt.farBad := by cases d <;> rfl

/-- A swap given up before the switchover, with no other fade waiting. -/
theorem swapBackOff_spec {s : State} {q : Nat} {w : Swap} (quiet : s.opt.fadeQueue = []) :
    swapOf (swapBackOff s q w) .tx q = some { w with phase := 6, startAt := s.now } ∧
    (chan (swapBackOff s q w) .tx w.spare).state = (if w.reason = 3 then 4 else 5) ∧
    (swapBackOff s q w).opt.farBad = s.opt.farBad ∧ (swapBackOff s q w).cnt = s.cnt ∧
    (swapBackOff s q w).now = s.now := by
  have state (c : Chan) : (backedOff w c).state = if w.reason = 3 then 4 else 5 := by unfold backedOff; split <;> rfl
  have whole : swapBackOff s q w =
      setSwap (modChan s .tx w.spare (backedOff w)) .tx q { w with phase := 6, startAt := s.now } := by
    refine (show swapBackOff s q w = nextFade (setSwap (modChan s .tx w.spare (backedOff w)) .tx q
      { w with phase := 6, startAt := s.now }) w.old from rfl).trans (nextFade_none ?_ _)
    exact quiet
  rw [whole]
  refine ⟨swapOf_setSwap_some _ _ _ (by simp), ?_, rfl, rfl, rfl⟩
  rw [chan_setSwap, chan_modChan_same _ _ _ _ (by rw [state]; split <;> simp), state]

theorem swNakReceive_spec {s : State} {q : Nat} {w : Swap} {b : BitVec 104} (running : swapOf s .tx q = some w)
    (up : (lane s q).state = 4) (asked : w.phase = 2) (quiet : s.opt.fadeQueue = []) :
    swapOf (swNakReceive q b s) .tx q = some { w with phase := 6, startAt := s.now } ∧
    (chan (swNakReceive q b s) .tx w.spare).state = (if w.reason = 3 then 4 else 5) ∧
    (w.colour < 32 → bf b 98 96 = 2 → tget false (swNakReceive q b s).opt.farBad q = true) ∧
    cntGet (swNakReceive q b s) 0x104 = (cntGet s 0x104 + 1) % 2 ^ 64 := by
  let y : State := if w.colour < 32 && bf b 98 96 == 2 then
    { s with opt := { s.opt with farBad := tset false s.opt.farBad q true } } else s
  let z : State := raiseEvent y 0x104 (partLane q) (chwOf .tx w.old q) (bf b 98 96)
  have whole : swNakReceive q b s = swapBackOff z q w := by
    unfold swNakReceive
    rw [if_neg (by simp [up]), if_neg (by simp [up]), running]
    exact if_pos asked
  have noted : Fr 32 s y := Fr.ite (.put_opt _ (.refl _ _)) (.refl _ _)
  have told : Fr 81924 y z := raiseEvent_fr _ _ _ _ _
  have queue : z.opt.fadeQueue = [] := by
    rw [raiseEvent_opt]
    exact (apply_ite (fun t : State => t.opt.fadeQueue) _ _ _).trans (by simp [quiet])
  obtain ⟨swap, spare, far, counts, -⟩ := swapBackOff_spec (q := q) (w := w) queue
  rw [whole]
  refine ⟨swap.trans ?_, spare, fun working refused => ?_, ?_⟩
  · rw [told.now rfl, noted.now rfl]
  · rw [far, raiseEvent_opt, show y = { s with opt := { s.opt with farBad := tset false s.opt.farBad q true } } from
      if_pos (by simp [working, refused])]
    exact tget_tset_same ..
  · rw [cntGet_congr counts, raiseEvent_cnt _ _ _ _ _ _ (by decide), if_pos rfl, cntGet_congr (noted.cnt rfl)]

theorem swapReadyTimeout_spec {s : State} {q : Nat} {w : Swap} (running : swapOf s .tx q = some w)
    (asked : w.phase = 2) (quiet : s.opt.fadeQueue = []) :
    (swapReadyTimeout q s).now = max s.now (w.reqAt + 5 * msT) ∧
    swapOf (swapReadyTimeout q s) .tx q = some { w with phase := 6, startAt := (swapReadyTimeout q s).now } ∧
    (chan (swapReadyTimeout q s) .tx w.spare).state = (if w.reason = 3 then 4 else 5) ∧
    cntGet (swapReadyTimeout q s) 0x103 = (cntGet s 0x103 + 1) % 2 ^ 64 := by
  let z : State := raiseEvent (await s w.reqAt (5 * msT)) 0x103 (partLane q) (chwOf .tx w.old q) 1
  have whole : swapReadyTimeout q s = swapBackOff z q w := by
    unfold swapReadyTimeout
    rw [running]
    exact if_pos asked
  have told : Fr 81924 (await s w.reqAt (5 * msT)) z := raiseEvent_fr _ _ _ _ _
  obtain ⟨swap, spare, -, counts, now⟩ := swapBackOff_spec (s := z) (q := q) (w := w)
    ((congrArg (·.fadeQueue) (told.opt rfl)).trans quiet)
  rw [whole]
  refine ⟨now.trans (told.now rfl), by rw [now]; exact swap, spare, ?_⟩
  rw [cntGet_congr counts, raiseEvent_cnt _ _ _ _ _ _ (by decide), if_pos rfl]
  rfl

/-! #### The laser given up: R60, R62, R64 -/

/-- An engine's own state is all that a channel takes of it. -/
theorem modEngine_chan {s : State} {n : Nat} {g : Engine → Engine} (h : ∀ e, (g e).state = e.state) (d : Dir) (k : Nat) :
    chan (modEngine s n g) d k = chan s d k := by
  have state : (tget ({} : Engine) (modEngine s n g).opt.engines (k / 256)).state =
      (tget ({} : Engine) s.opt.engines (k / 256)).state := by
    by_cases here : k / 256 = n
    · rw [here]
      exact (congrArg Engine.state (tget_tset_same ..)).trans (h _)
    · exact congrArg Engine.state (tget_tset_other _ _ _ _ _ _ here)
  unfold chan nominalChan
  rw [state]
  rfl

theorem colourOfLane_congr {s t : State} (pos : getR t oFABRIC_POS = getR s oFABRIC_POS) (q : Nat) :
    colourOfLane t q = colourOfLane s q := by
  unfold colourOfLane posJ rf
  rw [pos]

theorem chan_of_stored {s : State} {d : Dir} {k : Nat} (own : (storedChan s d k).state ≠ 0) :
    chan s d k = storedChan s d k := if_neg own

/-- The end of a calibration slot leaves the engine without a channel, and every channel that was not swept. -/
theorem calSlotEnd_spec (s : State) (n : Nat) :
    (engine (calSlotEnd s n) n).calChannel = 255 ∧ (calSlotEnd s n).opt.swaps = s.opt.swaps ∧
    (calSlotEnd s n).opt.fadeQueue = s.opt.fadeQueue ∧
    (calSlotEnd s n).boot = s.boot ∧
    (∀ d k, (chan s d k).state ≠ 4 → chan (calSlotEnd s n) d k = chan s d k) := by
  let e : Engine := engine s n
  let swept (s : State) : State := modChan s e.calDir (256 * n + e.calChannel) fun c =>
    { c with state := if (256 * n + e.calChannel) % 256 % 34 < 32 then 0 else 5 }
  let y : State := if e.calChannel != 255 && (chan s e.calDir (256 * n + e.calChannel)).state == 4 then swept s else s
  let closed (x : Engine) : Engine := { x with
    calChannel := 255, calBorrow := none, calSaved := [], calPhase := 0, calLane := 0x1FFF, calNext := x.calNext + 1
    calRunning := decide (x.calNext + 1 < 2 * (if n < 32 then 136 else 34)) }
  have whole : calSlotEnd s n = modEngine y n closed := rfl
  have frame : Fr 32 s y := Fr.ite (modChan_fr _ _ _ _) (.refl _ _)
  have swaps : y.opt.swaps = s.opt.swaps := by
    refine (apply_ite (fun t : State => t.opt.swaps) _ _ _).trans ?_
    rw [modChan_swaps]
    exact ite_self _
  have queue : y.opt.fadeQueue = s.opt.fadeQueue := by
    refine (apply_ite (fun t : State => t.opt.fadeQueue) _ _ _).trans ?_
    rw [modChan_fadeQueue]
    exact ite_self _
  rw [whole]
  refine ⟨by rw [engine_modEngine], swaps, queue, frame.boot rfl, fun d k idle => ?_⟩
  rw [modEngine_chan (by intro x; rfl)]
  dsimp only [y]
  split
  · next was =>
    refine chan_modChan_other _ _ _ _ fun here => idle ?_
    obtain ⟨rfl, rfl⟩ := here
    exact (by simpa using was : _ ∧ _).2
  · rfl

/-- The end of a transmit swap, by what the swap was for. -/
theorem finishSwap_spec (s : State) (q : Nat) (w : Swap) :
    swapOf (finishSwap s q w) .tx q = none ∧ (finishSwap s q w).opt.fadeQueue = s.opt.fadeQueue ∧
    (w.reason = 1 → (chan (finishSwap s q w) .tx w.old).state = 4 ∧ (engine (finishSwap s q w) (w.old / 256)).calPhase = 2 ∧
      (engine (finishSwap s q w) (w.old / 256)).calBorrow = some w.spare ∧ (finishSwap s q w).boot = s.boot) ∧
    (w.reason = 3 → (chan (finishSwap s q w) .tx w.old).state = 5 ∧
      (engine (finishSwap s q w) (w.old / 256)).calChannel = 255 ∧ (finishSwap s q w).boot = s.boot) ∧
    (w.reason ≠ 1 → w.reason ≠ 3 → (chan (finishSwap s q w) .tx w.old).state = 8 ∧
      (finishSwap s q w).boot = (journalChan (journalChan s 0 w.old 0 0) 1 w.spare w.colour (colourOfLane s q)).boot) := by
  by_cases calibrates : w.reason = 1
  · let f (c : Chan) : Chan := { c with state := 4, lane := 0x1FFF }
    let y : State := modChan (setSwap s .tx q {}) .tx w.old f
    let g (e : Engine) : Engine := { e with calPhase := 2, calBorrow := some w.spare }
    have whole : finishSwap s q w = modEngine y (w.old / 256) g := by
      unfold finishSwap
      exact if_pos calibrates
    rw [whole]
    refine ⟨?_, modChan_fadeQueue .., fun _ => ⟨?_, ?_, ?_, ?_⟩, fun three => by omega, fun other => absurd calibrates other⟩
    · exact (swapOf_modChan _ _ _ _ _ _).trans (swapOf_setSwap_none _ _ _)
    · rw [modEngine_chan (g := g) (by intro e; rfl), chan_modChan_same _ _ _ _ (by simp [f])]
    · rw [engine_modEngine]
    · rw [engine_modEngine]
    · exact (modChan_boot ..).trans (setSwap_boot ..)
  by_cases back : w.reason = 3
  · have whole : finishSwap s q w = calSlotEnd (modChan (setSwap s .tx q {}) .tx w.old idleChan) (w.old / 256) := by
      unfold finishSwap
      dsimp only
      rw [if_neg calibrates, if_pos back]
    have dark : chan (modChan (setSwap s .tx q {}) .tx w.old idleChan) .tx w.old = idleChan (chan s .tx w.old) :=
      chan_modChan_same _ _ _ _ (by simp [idleChan])
    obtain ⟨closed, swaps, queue, boot, kept⟩ := calSlotEnd_spec (modChan (setSwap s .tx q {}) .tx w.old idleChan) (w.old / 256)
    rw [whole]
    refine ⟨?_, queue.trans (modChan_fadeQueue ..), fun one => absurd one calibrates, fun _ => ⟨?_, closed, ?_⟩,
      fun _ other => absurd back other⟩
    · rw [swapOf_congr swaps, swapOf_modChan, swapOf_setSwap_none]
    · rw [kept _ _ (by rw [dark]; simp [idleChan]), dark]
      rfl
    · exact boot.trans ((modChan_boot ..).trans (setSwap_boot ..))
  · let f (c : Chan) : Chan := { c with state := 8, lane := 0x1FFF, serves := 0xFF }
    let y : State := modChan (setSwap s .tx q {}) .tx w.old f
    have frame : Fr 32 s y := .step (modChan_fr _ _ _ _) (.step (setSwap_fr _ _ _ _) (.refl _ _))
    have whole : finishSwap s q w = journalChan (journalChan y 0 w.old 0 0) 1 w.spare w.colour (colourOfLane s q) := by
      rw [← colourOfLane_congr (frame.getR oFABRIC_POS)]
      unfold finishSwap
      dsimp only
      rw [if_neg calibrates, if_neg back]
    rw [whole]
    refine ⟨?_, modChan_fadeQueue .., fun one => absurd one calibrates, fun three => absurd three back, fun _ _ => ⟨?_, ?_⟩⟩
    · exact (swapOf_modChan _ _ _ _ _ _).trans (swapOf_setSwap_none _ _ _)
    · have stored : storedChan (journalChan (journalChan y 0 w.old 0 0) 1 w.spare w.colour (colourOfLane s q)) .tx w.old =
          f (chan (setSwap s .tx q {}) .tx w.old) := storedChan_modChan_same (setSwap s .tx q {}) .tx w.old f
      rw [chan_of_stored (by rw [stored]; simp [f]), stored]
    · rfl

theorem fadedLaserDark_eq {s : State} {q : Nat} {w : Swap} (running : swapOf s .tx q = some w) (done : w.phase = 5)
    (quiet : s.opt.fadeQueue = []) :
    fadedLaserDark q s = noteHealth (finishSwap (await s w.doneAt (msT / 10)) q w) := by
  unfold fadedLaserDark
  rw [running]
  dsimp only
  rw [if_pos done, nextFade_none]
  exact (finishSwap_spec _ q w).2.1.trans quiet

/-! #### A swap tried again: R68 -/

/-- A swap back from calibration starts where its lane is UP, and else waits. -/
theorem swapBack_spec (s : State) (q k colour : Nat) : ∃ x, swapOf (swapBack s q k colour) .tx q = some x ∧
    x.phase = (if laneUp s q then 1 else 6) ∧ x.spare = k ∧ x.colour = colour ∧ x.reason = 3 ∧ x.startAt = s.now := by
  unfold swapBack
  split
  · exact ⟨_, swapOf_startSwap _ _ _ _ _, rfl, rfl, rfl, rfl, rfl⟩
  · exact ⟨_, swapOf_setSwap_some _ _ _ (by simp), rfl, rfl, rfl, rfl, rfl⟩

/-- The state in which an aborted swap is tried again. -/
def retried (s : State) (q : Nat) (w : Swap) : State := setSwap (await s w.startAt secT) .tx q {}

theorem swapRetry_back {s : State} {q : Nat} {w : Swap} (running : swapOf s .tx q = some w) (aborted : w.phase = 6)
    (back : w.reason = 3) : swapRetry q s = swapBack (retried s q w) q w.spare w.colour := by
  unfold swapRetry
  rw [running]
  dsimp only
  rw [if_pos aborted, if_neg (by omega), if_pos back]
  rfl

theorem retried_spares (s : State) (q : Nat) (w : Swap) : SparesAlike s (retried s q w) :=
  (SparesAlike.of (await_fr s w.startAt secT)).trans (setSwap_spares _ _ _ _)

theorem swapRetry_starts {s : State} {q : Nat} {w : Swap} {sp c : Nat} (running : swapOf s .tx q = some w)
    (aborted : w.phase = 6) (forward : w.reason ≠ 3) (spare : usableSpare s .tx q = some sp)
    (colour : standInColour s .tx q = some c) (may : w.reason = 0 → (lane s q).state ≠ 5 ∧
      bit (getR s (oENGINE (laneKey s .tx q / 256))) 2 = true ∧ fibreSwapping s (laneKey s .tx q) = false) :
    swapRetry q s = startSwap (retried s q w) q sp c w.reason := by
  have alike := retried_spares s q w
  have spare' := (alike.usableSpare .tx q).trans spare
  have colour' := (alike.standInColour .tx q).trans colour
  unfold swapRetry
  rw [running]
  dsimp only
  rw [if_pos aborted]
  by_cases fade : w.reason = 0
  · obtain ⟨free, allowed, fibre⟩ := may fade
    have ready : SwapMayStart (retried s q w) q := by
      refine ⟨free, ?_, swapOf_setSwap_none _ _ _, ?_⟩
      · rw [alike.laneKey, alike.reg]
        exact allowed
      · rw [alike.laneKey]
        exact fibreSwapping_setSwap_none (s := await s w.startAt secT) fibre .tx q
    rw [if_pos fade, fade]
    exact fadeSwap_starts ready spare' colour'
  · rw [if_neg fade, if_neg forward]
    unfold retried at spare' colour'
    rw [spare', colour']
    rfl

/-- Settles O39: each step of a transmit swap is the step its equation gives, the fade sample by `laserFadeSample_spec`. -/
theorem transmitSwapsRun : Obligations.TransmitSwapsRun := by
  unfold Obligations.TransmitSwapsRun
  intro s q _
  refine ⟨fun n x fade k key own carried free => ?_, fun b notUp => ⟨?_, fun elsewhere => ⟨?_, ?_⟩, fun margin => ⟨?_, ?_⟩⟩,
    fun w running => ⟨fun tuning => ?_, fun b up asked colour => ?_, fun both alone => ?_, fun b up marked named => ?_,
      fun done quiet => ?_, fun b up asked quiet => ?_, fun asked quiet => ?_, fun both first => ?_, fun aborted back => ?_,
      fun sp c aborted forward spare colour may => ?_⟩⟩
  · obtain ⟨recorded, noticed, starts⟩ := laserFadeSample_spec (fade := fade) key own carried free
    exact ⟨_, rfl, recorded, noticed, starts⟩
  · exact congrArg Host.Outcome.next (if_pos (by simp [notUp]))
  · refine congrArg Host.Outcome.next ?_
    unfold swReadyReceive
    rw [if_neg (by simp [elsewhere]), if_pos (by simp [notUp]), osIllegal_eq]
  · refine congrArg Host.Outcome.next ?_
    unfold swNakReceive
    rw [if_neg (by simp [elsewhere]), if_pos (by simp [notUp]), osIllegal_eq]
  · exact congrArg Host.Outcome.next (if_pos (by simp [margin]))
  · refine ⟨_, congrArg Host.Outcome.next (if_pos (by simp [margin])), raiseEvent_opt .., raiseEvent_lnk .., ?_⟩
    rw [raiseEvent_cnt _ _ _ _ _ _ (by decide), if_pos rfl]
  · refine ⟨_, congrArg Host.Outcome.next (spareLocked_eq running tuning), sendOs_now .., ?_, rfl⟩
    rw [(sendOs_fr _ _ _ _).swapOf, swapOf_setSwap_some _ _ _ (by simp), sendOs_now]
    rfl
  · refine ⟨_, congrArg Host.Outcome.next (swReadyReceive_eq running up asked colour), ?_, ?_, ?_⟩
    · exact (Fr.step (n := 32) (modChan_fr _ _ _ _) (setSwap_fr _ _ _ _)).onlyChanges _
    · rw [swapOf_modChan, swapOf_setSwap_some _ _ _ (by simp)]
    · rw [chan_modChan_same _ _ _ _ (by simp)]
  · refine ⟨_, congrArg Host.Outcome.next (duplicateIntervalEnd_eq running both alone), rfl, ?_⟩
    rw [swapOf_setSwap_some _ _ _ (by simp)]
  · have lit : (if w.reason = 1 then 6 else 2) ≠ 0 := by split <;> simp
    refine ⟨_, congrArg Host.Outcome.next (swDoneReceive_eq running up marked named), ?_, ?_, ?_⟩
    · rw [(raiseEvent_fr _ _ _ _ _).swapOf, swapOf_modChan, swapOf_setSwap_some _ _ _ (by simp)]
    · rw [(raiseEvent_fr _ _ _ _ _).chan, chan_modChan_same _ _ _ _ lit]
    · rw [raiseEvent_cnt _ _ _ _ _ _ (by decide), if_pos rfl]
      rfl
  · obtain ⟨ended, -, calibrates, back, retires⟩ := finishSwap_spec (await s w.doneAt (msT / 10)) q w
    have told := noteHealth_fr (finishSwap (await s w.doneAt (msT / 10)) q w)
    refine ⟨_, congrArg Host.Outcome.next (fadedLaserDark_eq running done quiet), ?_, ?_, fun one => ?_, fun three => ?_,
      fun one three => ?_⟩
    · exact (told.now rfl).trans ((finishSwap_fr _ _ _).now rfl)
    · rw [told.swapOf, ended]
    · rw [told.chan, engine_noteHealth, told.boot rfl]
      exact calibrates one
    · rw [told.chan, engine_noteHealth, told.boot rfl]
      exact back three
    · rw [told.chan, told.boot rfl]
      exact retires one three
  · obtain ⟨swap, spare, far, counted⟩ := swNakReceive_spec (b := b) running up asked quiet
    exact ⟨_, rfl, swap, spare, far, counted⟩
  · obtain ⟨now, swap, spare, counted⟩ := swapReadyTimeout_spec running asked quiet
    exact ⟨_, rfl, now, swap, spare, counted⟩
  · refine ⟨_, congrArg Host.Outcome.next (swapDoneTimeout_eq running both first), ?_, ?_, ?_⟩
    · rw [(raiseEvent_fr _ _ _ _ _).now rfl]
      rfl
    · rw [(raiseEvent_fr _ _ _ _ _).swapOf]
      have live : w.phase ≠ 0 := swapOf_pos running
      exact swapOf_setSwap_some _ _ _ (w := { w with noDone := true }) live
    · rw [raiseEvent_cnt _ _ _ _ _ _ (by decide), if_pos rfl]
      rfl
  · obtain ⟨x, swap, phase, spare, colour, reason, start⟩ := swapBack_spec (retried s q w) q w.spare w.colour
    have now : (swapBack (retried s q w) q w.spare w.colour).now = max s.now (w.startAt + secT) :=
      (swapBack_fr _ _ _ _).now rfl
    exact ⟨_, x, congrArg Host.Outcome.next (swapRetry_back running aborted back), now, swap, phase, spare, colour, reason,
      start.trans now.symm⟩
  · have now : (startSwap (retried s q w) q sp c w.reason).now = max s.now (w.startAt + secT) :=
      (startSwap_fr _ _ _ _ _).now rfl
    exact ⟨_, _, congrArg Host.Outcome.next (swapRetry_starts running aborted forward spare colour may), now,
      swapOf_startSwap _ _ _ _ _, rfl, rfl, rfl, rfl, now.symm⟩

end Sys2Proof.Machine

/-! ### O40: receive swaps and the journal -/

namespace Sys2Proof.Machine

set_option Elab.async false

theorem mem_sendOs (s : State) (q type : Nat) (body : BitVec 104) : Output.os q type body ∈ (sendOs s q type body).out := by
  rw [sendOs_out]
  simp

/-! #### A REQUEST refused: R61, R81 -/

theorem sendNak_spec (s : State) (q cause : Nat) : cntGet (sendNak s q cause) 0x104 = (cntGet s 0x104 + 1) % 2 ^ 64 ∧
    Output.os q osSW_NAK (mkBody [at_ 99 (linkLane q), at_ 96 cause]) ∈ (sendNak s q cause).out ∧
    (sendNak s q cause).opt = s.opt := by
  unfold sendNak
  refine ⟨?_, (raiseEvent_og _ _ _ _ _).subset (mem_sendOs _ _ _ _), ?_⟩
  · rw [raiseEvent_cnt _ _ _ _ _ _ (by decide), if_pos rfl]
    rfl
  · rw [raiseEvent_opt, sendOs_opt]

/-- A lane that takes a REQUEST: UP, or in MARGIN for the partner's repair. -/
def takesRequest (s : State) (q : Nat) (b : BitVec 104) : Prop :=
  (lane s q).state = 4 ∨ ((lane s q).state = 3 ∧ bf b 92 91 = 2)

/-- The drop that a REQUEST names or finds starts to tune. -/
def dropTunes (s : State) (q : Nat) (b : BitVec 104) (k : Nat) : State :=
  let old := laneKey s .rx q
  let s := modChan s .rx k fun c => { c with state := 1, lane := q, colour := bf b 98 93, serves := colourOfLane s q }
  setSwap s .rx q { phase := 1, old := old, spare := k, colour := bf b 98 93, reason := bf b 92 91, startAt := s.now }

theorem swRequestReceive_sprued {s : State} {q : Nat} (b : BitVec 104) (held : (lane s q).state = 5) :
    swRequestReceive q b s = sendNak s q 1 := by
  unfold swRequestReceive
  dsimp only
  rw [if_pos held]

theorem swRequestReceive_illegal {s : State} {q : Nat} {b : BitVec 104} (notUp : (lane s q).state ≠ 4)
    (free : (lane s q).state ≠ 5) (other : ¬ ((lane s q).state = 3 ∧ bf b 92 91 = 2)) :
    swRequestReceive q b s = bump s (cLane q 5) := by
  unfold swRequestReceive
  dsimp only
  rw [if_neg free, if_pos (by simp only [ne_eq, notUp, not_false_eq_true, decide_true, Bool.true_and, Bool.not_eq_true']; simpa using other)]
  rfl

section Request

variable {s : State} {q : Nat} {b : BitVec 104} (takes : takesRequest s q b)
include takes

theorem takesRequest.cases : ((lane s q).state = 5) = False ∧
    ((lane s q).state ≠ 4 && !((lane s q).state == 3 && bf b 92 91 == 2)) = false := by
  rcases takes with up | ⟨margin, repair⟩
  · simp [up]
  · simp [margin, repair]

theorem swRequestReceive_busy (runs : (swapOf s .rx q).isSome = true) : swRequestReceive q b s = sendNak s q 3 := by
  obtain ⟨free, legal⟩ := takes.cases
  unfold swRequestReceive
  dsimp only
  rw [if_neg (by simp [free]), if_neg (by simpa using legal), if_pos runs]

omit takes in
/-- A REQUEST that cannot take the fixed drop. -/
theorem wide_request (wide : 32 ≤ bf b 98 93 ∨ (chan s .rx (workKey s q)).state ≠ 5) :
    (decide (bf b 98 93 < 32) && (chan s .rx (workKey s q)).state == 5) = false := by
  rcases wide with high | used
  · rw [decide_eq_false (by omega), Bool.false_and]
  · rw [beq_eq_false_iff_ne.2 used, Bool.and_false]

theorem swRequestReceive_fixed (idle : swapOf s .rx q = none) (low : bf b 98 93 < 32)
    (spare : (chan s .rx (workKey s q)).state = 5) : swRequestReceive q b s = dropTunes s q b (workKey s q) := by
  obtain ⟨free, legal⟩ := takes.cases
  unfold swRequestReceive
  dsimp only
  rw [if_neg (by simp [free]), if_neg (by simpa using legal), if_neg (by simp [idle]), if_pos (by simp [low, spare])]
  rfl

theorem swRequestReceive_spare {k : Nat} (idle : swapOf s .rx q = none)
    (wide : 32 ≤ bf b 98 93 ∨ (chan s .rx (workKey s q)).state ≠ 5) (spare : freeSpare s .rx (workKey s q) = some k) :
    swRequestReceive q b s = dropTunes s q b k := by
  obtain ⟨free, legal⟩ := takes.cases
  unfold swRequestReceive
  dsimp only
  rw [if_neg (by simp [free]), if_neg (by simpa using legal), if_neg (by simp [idle]),
    wide_request wide, if_neg (by simp), spare, if_neg (by simp), spare]
  rfl

theorem swRequestReceive_none (idle : swapOf s .rx q = none)
    (wide : 32 ≤ bf b 98 93 ∨ (chan s .rx (workKey s q)).state ≠ 5)
    (taken : (spareKeys (workKey s q)).any (fun k => spareFree (chan s .rx k)) = false) :
    swRequestReceive q b s = sendNak s q 2 := by
  obtain ⟨free, legal⟩ := takes.cases
  have gone (k : Nat) (member : k ∈ spareKeys (workKey s q)) : spareFree (chan s .rx k) = false := by
    simpa using List.any_eq_false.1 taken k member
  have nothing : freeSpare s .rx (workKey s q) = none :=
    List.find?_eq_none.2 fun k member => by simp [gone k member]
  have unheld : ((spareKeys (workKey s q)).any fun k => calHeld s .rx k && spareFree (chan s .rx k)) = false :=
    List.any_eq_false.2 fun k member => by simp [gone k member]
  unfold swRequestReceive
  dsimp only
  rw [if_neg (by simp [free]), if_neg (by simpa using legal), if_neg (by simp [idle]),
    wide_request wide, if_neg (by simp), unheld, if_neg (by simp), nothing]

end Request

theorem dropTunes_spec (s : State) (q : Nat) (b : BitVec 104) (k : Nat) :
    OnlyChanges [.opt] s (dropTunes s q b k) ∧ (chan (dropTunes s q b k) .rx k).state = 1 ∧
    swapOf (dropTunes s q b k) .rx q = some
      { phase := 1, old := laneKey s .rx q, spare := k, colour := bf b 98 93, reason := bf b 92 91, startAt := s.now } := by
  unfold dropTunes
  refine ⟨(Fr.step (n := 32) (setSwap_fr _ _ _ _) (modChan_fr _ _ _ _)).onlyChanges _, ?_, ?_⟩
  · rw [chan_setSwap, chan_modChan_same _ _ _ _ (by simp)]
  · rw [swapOf_setSwap_some _ _ _ (by simp), modChan_now]

/-! #### The drop has locked: R53, R61 -/

/-- In MARGIN the lane is on the new drop at once. -/
def dropTakenInMargin (s : State) (q : Nat) (w : Swap) : State :=
  noteMove (modChan (modChan (setSwap s .rx q {}) .rx w.old idleChan) .rx w.spare fun c => { c with state := 2 }) .rx q w.old
    w.spare w.colour

theorem spareDropLocked_margin {s : State} {q : Nat} {w : Swap} (running : swapOf s .rx q = some w) (tuning : w.phase = 1)
    (margin : (lane s q).state = 3) : spareDropLocked q s =
    sendOs (dropTakenInMargin s q w) q osSW_READY (mkBody [at_ 99 (linkLane q), at_ 93 w.colour]) := by
  unfold spareDropLocked
  rw [running]
  dsimp only
  rw [if_neg (by simp [tuning]), if_pos margin]
  rfl

theorem spareDropLocked_up {s : State} {q : Nat} {w : Swap} (running : swapOf s .rx q = some w) (tuning : w.phase = 1)
    (up : (lane s q).state ≠ 3) : spareDropLocked q s =
    sendOs (modChan (setSwap s .rx q { w with phase := 3, readyAt := s.now }) .rx w.spare fun c => { c with state := 3 }) q
      osSW_READY (mkBody [at_ 99 (linkLane q), at_ 93 w.colour]) := by
  unfold spareDropLocked
  rw [running]
  dsimp only
  rw [if_neg (by simp [tuning]), if_neg up]

/-- A channel with a state of its own reads the same after a step that leaves the optics. -/
theorem chan_state_of_opt {s t : State} {d : Dir} {k n : Nat} (opt : t.opt = s.opt) (own : (storedChan s d k).state = n)
    (live : n ≠ 0) : (chan t d k).state = n := by
  have stored : storedChan t d k = storedChan s d k := by unfold storedChan; rw [opt]
  rw [chan_of_stored (by rw [stored, own]; exact live), stored, own]

/-- A drop given up and the one that takes its lane. -/
theorem dropMoved_spec (s : State) (q : Nat) (w : Swap) {f : Chan → Chan} (serves : ∀ c, (f c).state = 2)
    (apart : w.spare ≠ w.old) :
    swapOf (modChan (modChan (setSwap s .rx q {}) .rx w.old idleChan) .rx w.spare f) .rx q = none ∧
    (storedChan (modChan (modChan (setSwap s .rx q {}) .rx w.old idleChan) .rx w.spare f) .rx w.spare).state = 2 ∧
    (storedChan (modChan (modChan (setSwap s .rx q {}) .rx w.old idleChan) .rx w.spare f) .rx w.old).state = 5 := by
  refine ⟨?_, ?_, ?_⟩
  · rw [swapOf_modChan, swapOf_modChan, swapOf_setSwap_none]
  · rw [storedChan_modChan_same, serves]
  · rw [storedChan_modChan_other _ _ _ _ (by simp [apart.symm]), storedChan_modChan_same]
    rfl

/-! #### The switchover: R61, R83 -/

theorem duplicateIntervalEnd_rx {s : State} {q : Nat} {w : Swap} (running : swapOf s .rx q = some w) (both : w.phase = 3)
    (alone : swapOf s .tx q = none) :
    duplicateIntervalEnd q s = setSwap (await s w.readyAt (3 * msT)) .rx q { w with phase := 4 } := by
  unfold duplicateIntervalEnd
  dsimp only
  rw [alone]
  dsimp only
  rw [running]
  exact if_pos both

theorem contains_addNew (l : List Nat) (n : Nat) : (addNew l n).contains n = true := by
  unfold addNew
  split
  · assumption
  · simp

/-- A swap with one more MARK seen on one of its colours. -/
def markSeen (new : Bool) (w : Swap) (m : Nat) : Swap :=
  if new then { w with marks := addNew w.marks m } else { w with oldMarks := addNew w.oldMarks m }

/-- Whether a MARK, seen now on one colour, has been seen on both once 3 ms have passed. -/
def markOnBoth (s : State) (new : Bool) (w : Swap) (m : Nat) : Bool :=
  due s w.readyAt (3 * msT) && (if new then w.oldMarks.contains m else w.marks.contains m)

theorem markSeen_both (s : State) (new : Bool) (w : Swap) (m : Nat) :
    (due s (markSeen new w m).readyAt (3 * msT) && (markSeen new w m).marks.contains m && (markSeen new w m).oldMarks.contains m) =
    markOnBoth s new w m := by
  unfold markSeen markOnBoth
  cases new
  · simp only [Bool.false_eq_true, if_false, contains_addNew, Bool.and_true]
  · simp only [if_true, contains_addNew, Bool.and_true]

/-- The state in which a MARK has been recorded. -/
def markTaken (s : State) (q : Nat) (new : Bool) (b : BitVec 104) (w : Swap) : State :=
  setSwap s .rx q { markSeen new w (bf b 103 88) with
    switchAt := if markOnBoth s new w (bf b 103 88) then some (bf b 87 76, bf b 103 88) else none }

section Mark

variable {s : State} {q : Nat} {w : Swap} {b : BitVec 104} (running : swapOf s .rx q = some w)
  (both : w.phase = 3 ∨ w.phase = 4) (up : (lane s q).state = 4)
include running both up

theorem swMarkReceive_switching (new : Bool) (named : w.switchAt.isSome = true) : swMarkReceive q new b s = s := by
  unfold swMarkReceive
  rw [if_neg (by simp [up]), running]
  exact if_pos (.inr named)

theorem swMarkReceive_eq (new : Bool) (unnamed : w.switchAt = none) :
    swMarkReceive q new b s = trySwitch q (markTaken s q new b w) := by
  unfold swMarkReceive
  rw [if_neg (by simp [up]), running]
  dsimp only
  rw [if_neg (by simp [unnamed]; omega)]
  unfold markTaken
  rw [← markSeen_both]
  rfl

omit up in
theorem markTaken_swap (new : Bool) : swapOf (markTaken s q new b w) .rx q = some { markSeen new w (bf b 103 88) with
    switchAt := if markOnBoth s new w (bf b 103 88) then some (bf b 87 76, bf b 103 88) else none } := by
  refine swapOf_setSwap_some _ _ _ ?_
  have phase : (markSeen new w (bf b 103 88)).phase = w.phase := by unfold markSeen; cases new <;> rfl
  rw [show ({ markSeen new w (bf b 103 88) with switchAt := _ } : Swap).phase = w.phase from phase]
  omega

end Mark

theorem markSeen_unnamed {w : Swap} (new : Bool) (m : Nat) (unnamed : w.switchAt = none) :
    { markSeen new w m with switchAt := none } = markSeen new w m := by
  unfold markSeen
  rw [← unnamed]
  cases new <;> rfl

theorem markTaken_only (s : State) (q : Nat) (new : Bool) (b : BitVec 104) (w : Swap) :
    OnlyChanges [.opt] s (markTaken s q new b w) := (setSwap_fr _ _ _ _).onlyChanges _

theorem markSeen_ends (new : Bool) (w : Swap) (m : Nat) :
    (markSeen new w m).spare = w.spare ∧ (markSeen new w m).old = w.old := by
  unfold markSeen
  cases new <;> exact ⟨rfl, rfl⟩

/-- Recording a MARK that does not name the switch changes nothing else. -/
theorem trySwitch_unnamed {s : State} {q : Nat} {w : Swap} (running : swapOf s .rx q = some w) (unnamed : w.switchAt = none) :
    trySwitch q s = s := by
  unfold trySwitch
  rw [running]
  dsimp only
  rw [unnamed]

theorem trySwitch_named {s : State} {q n m : Nat} {w : Swap} (running : swapOf s .rx q = some w)
    (named : w.switchAt = some (n, m)) : trySwitch q s =
    if ((lane s q).expect + 4096 - n) % 4096 < 2048 then noteHealth (switchDrop s q m w) else s := by
  unfold trySwitch
  rw [running]
  dsimp only
  rw [named]

theorem drop2_spec (s : State) (q : Nat) (w : Swap) (apart : w.spare ≠ w.old) :
    swapOf (drop2 s q w) .rx q = none ∧ (storedChan (drop2 s q w) .rx w.spare).state = 2 ∧
    (storedChan (drop2 s q w) .rx w.old).state = 5 := by
  have moved := dropMoved_spec s q w (f := fun c => { c with
    state := 2, lane := q, serves := colourOfLane (modChan (setSwap s .rx q {}) .rx w.old idleChan) q })
    (by intro c; rfl) apart
  unfold drop2
  dsimp only
  split
  · exact moved
  · exact moved

/-- At the switch the lane is on the new drop, and DONE names the MARK. -/
theorem switchDrop_spec (s : State) (q m : Nat) (w : Swap) (apart : w.spare ≠ w.old) :
    swapOf (noteHealth (switchDrop s q m w)) .rx q = none ∧
    (chan (noteHealth (switchDrop s q m w)) .rx w.spare).state = 2 ∧
    (chan (noteHealth (switchDrop s q m w)) .rx w.old).state = 5 ∧
    cntGet (noteHealth (switchDrop s q m w)) 0x102 = (cntGet s 0x102 + 1) % 2 ^ 64 ∧
    Output.os q osSW_DONE (mkBody [at_ 99 (linkLane q), at_ 83 m]) ∈ (noteHealth (switchDrop s q m w)).out := by
  obtain ⟨ended, spare, old⟩ := drop2_spec s q w apart
  have opt : (noteHealth (switchDrop s q m w)).opt = (drop2 s q w).opt := by
    unfold switchDrop
    rw [noteHealth_opt, raiseEvent_opt, sendOs_opt]
  refine ⟨(swapOf_congr (by rw [opt]) _ _).trans ended, chan_state_of_opt opt spare (by decide),
    chan_state_of_opt opt old (by decide), ?_, ?_⟩
  · rw [noteHealth_cnt _ _ (by decide) (by decide)]
    unfold switchDrop
    dsimp only
    rw [raiseEvent_cnt _ _ _ _ _ _ (by decide), if_pos rfl, cntGet_congr (sendOs_cnt ..), cntGet_congr ((drop2_fr _ _ _).cnt rfl)]
  · exact (noteHealth_across _).og.subset ((raiseEvent_og _ _ _ _ _).subset (mem_sendOs _ _ _ _))

/-! #### The journal: R439 -/

theorem program_length (j : List JournalSlot) (e : Word) (ok : Bool) :
    (program j e ok).length = j.length + (if ok then 1 else 2) := by
  unfold program
  cases ok <;> simp

theorem program_live (j : List JournalSlot) (e : Word) (ok : Bool) :
    ((program j e ok).filter (·.live)).map (·.entry) = (j.filter (·.live)).map (·.entry) ++ [e] := by
  unfold program
  cases ok <;> simp

theorem journalAppend_spec {s : State} (okB okA : Bool) {e : Word} {rest : List Word} (held : s.boot.journalHeld = e :: rest) :
    OnlyChanges [.boot] s (journalAppend okB okA s) ∧
    ((4096 < s.boot.journalB.length + (if okB then 1 else 2) ∨ 4096 < s.boot.journalA.length + (if okA then 1 else 2)) →
      (journalAppend okB okA s).boot = { s.boot with journalFull := true }) ∧
    (¬ (4096 < s.boot.journalB.length + (if okB then 1 else 2) ∨ 4096 < s.boot.journalA.length + (if okA then 1 else 2)) →
      (journalAppend okB okA s).boot = { s.boot with
          journalB := program s.boot.journalB e okB, journalA := program s.boot.journalA e okA, journalHeld := rest
          journalEntries := s.boot.journalEntries + 1, journalErr := s.boot.journalErr || !okB || !okA }) := by
  refine ⟨(journalAppend_fr _ _ _).onlyChanges _, fun full => ?_, fun room => ?_⟩
  · unfold journalAppend
    rw [held]
    dsimp only
    rw [if_pos (by simpa [program_length] using full)]
  · unfold journalAppend
    rw [held]
    dsimp only
    rw [if_neg (by simpa [program_length, not_or] using room)]

/-- Settles O40: a REQUEST by its four answers, the locked drop by the lane's state, a MARK by whether it names the switch
and whether the receiver has come to it, the journal by whether a copy is full. -/
theorem receiveSwapsAndJournal : Obligations.ReceiveSwapsAndJournal := by
  unfold Obligations.ReceiveSwapsAndJournal
  intro s q b _
  refine ⟨fun cause why => ?_, fun notUp free other => ?_, fun k takes idle found => ?_, fun w running => ⟨fun tuning margin apart => ?_,
    fun tuning up => ?_, fun both alone => ?_, fun both up new => ⟨fun named => ?_, fun unnamed w' all far seen onBoth ahead =>
      ⟨fun missing => ?_, fun complete later => ?_, fun complete here apart => ?_⟩⟩⟩, fun new notUp => ?_,
    fun okB okA e rest held => ?_⟩
  · obtain ⟨counted, sent, opt⟩ := sendNak_spec s q cause
    refine ⟨_, congrArg Host.Outcome.next ?_, counted, sent, opt⟩
    rcases why with ⟨held, rfl⟩ | ⟨takes, ⟨runs, rfl⟩ | ⟨idle, wide, taken, rfl⟩⟩
    · exact swRequestReceive_sprued b held
    · exact swRequestReceive_busy takes runs
    · exact swRequestReceive_none takes idle wide taken
  · exact congrArg Host.Outcome.next (swRequestReceive_illegal notUp free other)
  · obtain ⟨only, tuned, swap⟩ := dropTunes_spec s q b k
    refine ⟨_, congrArg Host.Outcome.next ?_, only, tuned, swap⟩
    rcases found with ⟨low, spare, rfl⟩ | ⟨wide, spare⟩
    · exact swRequestReceive_fixed takes idle low spare
    · exact swRequestReceive_spare takes idle wide spare
  · obtain ⟨ended, spare, old⟩ := dropMoved_spec s q w (f := fun c => { c with state := 2 }) (by intro c; rfl) apart
    have opt : (sendOs (dropTakenInMargin s q w) q osSW_READY (mkBody [at_ 99 (linkLane q), at_ 93 w.colour])).opt = _ :=
      (sendOs_opt ..).trans ((noteMove_fr _ _ _ _ _ _).opt rfl)
    exact ⟨_, congrArg Host.Outcome.next (spareDropLocked_margin running tuning margin),
      (swapOf_congr (by rw [opt]) _ _).trans ended, chan_state_of_opt opt spare (by decide),
      chan_state_of_opt opt old (by decide), mem_sendOs _ _ _ _⟩
  · refine ⟨_, congrArg Host.Outcome.next (spareDropLocked_up running tuning up), ?_, ?_, ?_⟩
    · rw [(sendOs_fr _ _ _ _).swapOf, swapOf_modChan, swapOf_setSwap_some _ _ _ (by simp)]
    · rw [(sendOs_fr _ _ _ _).chan, chan_modChan_same _ _ _ _ (by simp)]
    · rw [sendOs_out, modChan_out, setSwap_out]
  · refine ⟨_, congrArg Host.Outcome.next (duplicateIntervalEnd_rx running both alone), rfl, ?_⟩
    rw [swapOf_setSwap_some _ _ _ (by simp)]
  · exact congrArg Host.Outcome.next (swMarkReceive_switching running both up new named)
  · subst seen onBoth
    have swap := markTaken_swap (b := b) running both new
    rw [show markOnBoth s new w (bf b 103 88) = false from missing] at swap
    refine ⟨_, congrArg Host.Outcome.next ((swMarkReceive_eq running both up new unnamed).trans (trySwitch_unnamed swap rfl)),
      markTaken_only _ _ _ _ _, swap.trans ?_⟩
    exact congrArg some (markSeen_unnamed new _ unnamed)
  · subst seen onBoth ahead
    have swap := markTaken_swap (b := b) running both new
    rw [show markOnBoth s new w (bf b 103 88) = true from complete] at swap
    have past := of_decide_eq_true later
    have stays : trySwitch q (markTaken s q new b w) = markTaken s q new b w :=
      (trySwitch_named swap rfl).trans (if_neg (not_lt.2 past))
    exact ⟨_, congrArg Host.Outcome.next ((swMarkReceive_eq running both up new unnamed).trans stays),
      markTaken_only _ _ _ _ _, swap⟩
  · subst seen onBoth ahead
    have swap := markTaken_swap (b := b) running both new
    rw [show markOnBoth s new w (bf b 103 88) = true from complete] at swap
    have past := not_le.1 (of_decide_eq_false here)
    have switches := (trySwitch_named swap rfl).trans (if_pos past)
    obtain ⟨spare, old⟩ := markSeen_ends new w (bf b 103 88)
    have switched := switchDrop_spec (markTaken s q new b w) q (bf b 103 88) { markSeen new w (bf b 103 88) with
      switchAt := some (bf b 87 76, bf b 103 88) } (by rw [spare, old]; exact apart)
    rw [spare, old] at switched
    exact ⟨_, congrArg Host.Outcome.next ((swMarkReceive_eq running both up new unnamed).trans switches), switched⟩
  · exact congrArg Host.Outcome.next (if_pos (by simp [notUp]))
  · obtain ⟨only, full, room⟩ := journalAppend_spec okB okA held
    refine ⟨_, rfl, only, full, fun free => ?_⟩
    rw [room free]
    exact ⟨rfl, rfl, program_live _ _ _, program_live _ _ _, rfl⟩

end Sys2Proof.Machine

/-! ### O41: calibration runs -/

namespace Sys2Proof.Machine

set_option Elab.async false

theorem modChan_engine (s : State) (d : Dir) (k : Nat) (f : Chan → Chan) (n : Nat) :
    engine (modChan s d k f) n = engine s n := by cases d <;> rfl

theorem startSwap_engine (s : State) (q spare colour reason n : Nat) :
    engine (startSwap s q spare colour reason) n = engine s n := by
  unfold startSwap
  rfl

theorem swapBack_engine (s : State) (q k colour n : Nat) : engine (swapBack s q k colour) n = engine s n := by
  unfold swapBack
  split
  · exact startSwap_engine s q k colour 3 n
  · rfl

/-- An engine whose calibration slot has ended: it goes on to the next channel, or its pass is over. -/
def slotClosed (n : Nat) (e : Engine) : Engine := { e with
  calChannel := 255, calBorrow := none, calSaved := [], calPhase := 0, calLane := 0x1FFF, calNext := e.calNext + 1
  calRunning := decide (e.calNext + 1 < 2 * (if n < 32 then 136 else 34)) }

theorem calSlotEnd_engine (s : State) (n : Nat) : engine (calSlotEnd s n) n = slotClosed n (engine s n) := by
  unfold calSlotEnd
  refine (engine_modEngine ..).trans (congrArg (slotClosed n) ?_)
  split
  · exact modChan_engine ..
  · rfl

/-! #### A pass starts: R63 -/

theorem calPassStart_spec {s : State} {n : Nat} (ready : (engine s n).state = 2) (enabled : bit (getR s (oENGINE n)) 1 = true)
    (idle : (engine s n).calRunning = false) :
    (∀ a, (engine s n).calPassAt = some a → (calPassStart n s).now = max s.now (a + rf s oCAL_CFG 31 0 * secT)) ∧
    engine (calPassStart n s) n =
      { engine s n with calPassAt := some (calPassStart n s).now, calRunning := true, calNext := 0 } ∧
    ∀ f, f < 4 → tget false (calPassStart n s).opt.calSuspended (8 * n + f) = false := by
  let y : State := awaitOpt s (engine s n).calPassAt (rf s oCAL_CFG 31 0 * secT)
  have whole : calPassStart n s = beginPass y n := by
    unfold calPassStart
    rw [if_pos (by simp [mayPass, ready, enabled, idle])]
  have now : (beginPass y n).now = y.now := (beginPass_fr y n).now rfl
  rw [whole]
  refine ⟨fun a at_ => ?_, ?_, fun f small => ?_⟩
  · rw [now, show y = awaitOpt s (some a) (rf s oCAL_CFG 31 0 * secT) by rw [← at_], awaitOpt_some]
    rfl
  · rw [beginPass_engine, if_pos rfl, now]
    have same : engine y n = engine s n := by unfold engine; rw [awaitOpt_opt]
    rw [same]
  · unfold beginPass
    dsimp only
    refine forEach_reaches (fun f (t : State) => tget false t.opt.calSuspended (8 * n + f) = false) _
      (fun y f => tget_tset_same ..) (fun y a b kept => ?_) (List.range 4) _ f (List.mem_range.2 small)
    by_cases here : b = a
    · rw [here]
      exact tget_tset_same ..
    · exact (tget_tset_other _ _ _ _ _ _ (by omega)).trans kept

/-! #### The sequencer visits a channel: R63 to R66 -/

/-- The sequencer of engine `n` is free to visit its next channel, `k` of direction `d`. -/
structure SlotDue (s : State) (n : Nat) (d : Dir) (k : Nat) : Prop where
  ready : (engine s n).state = 2
  runs : (engine s n).calRunning = true
  free : (engine s n).calChannel = 255
  enabled : bit (getR s (oENGINE n)) 1 = true
  dir : d = if (engine s n).calNext < engineChans n then .tx else .rx
  key : k = 256 * n + (engine s n).calNext % engineChans n

/-- A channel that the sequencer passes over. -/
def passedOver (c : Chan) : Prop := c.state = 7 ∨ c.state = 8 ∨ c.state = 9 ∨ c.lostLock = true

/-- A visit of a channel by the sequencer. -/
def visited (s : State) (n t : Nat) (d : Dir) (phase q : Nat) : State :=
  modEngine s n fun e => { e with
    calChannel := t, calDir := d, calPhase := phase, calBorrow := none, calSaved := []
    calLane := q }

theorem visited_engine (s : State) (n t : Nat) (d : Dir) (phase q : Nat) :
    (engine (visited s n t d phase q) n).calPhase = phase ∧ (engine (visited s n t d phase q) n).calDir = d ∧
    (engine (visited s n t d phase q) n).calChannel = t := by
  unfold visited
  rw [engine_modEngine]
  exact ⟨rfl, rfl, rfl⟩

section Slot

variable {s : State} {n k : Nat} {d : Dir} (slot : SlotDue s n d k)
include slot

/-- What the sequencer does with the channel that is due, by its cases. -/
theorem calSlotStart_eq : calSlotStart n s =
    (let c := chan s d k
    if c.state = 8 ∨ c.state = 9 ∨ c.state = 7 ∨ c.lostLock then calSlotEnd s n
    else if d == .tx && carries c && laneUp s c.lane then
      if (swapOf s .tx c.lane).isSome || fibreSwapping s k then s
      else match usableSpare s .tx c.lane, standInColour s .tx c.lane with
        | some sp, some col => startSwap (visited s n ((engine s n).calNext % engineChans n) d 1 c.lane) c.lane sp col 1
        | _, _ => calSlotEnd (noteSuspended s k) n
    else if d == .tx && c.state == 5 then visited (modChan s d k fun c => { c with state := 4 }) n ((engine s n).calNext % engineChans n) d 2 0x1FFF
    else visited s n ((engine s n).calNext % engineChans n) d 2 0x1FFF) := by
  obtain ⟨ready, runs, free, enabled, rfl, rfl⟩ := slot
  unfold calSlotStart
  dsimp only
  rw [if_neg (by simp [ready, runs, free, enabled])] <;> rfl

theorem calSlotStart_passed (over_ : passedOver (chan s d k)) : calSlotStart n s = calSlotEnd s n := by
  rw [calSlotStart_eq slot]
  refine if_pos ?_
  unfold passedOver at over_
  tauto

theorem calSlotStart_inPlace (visits : ¬ passedOver (chan s d k))
    (away : ¬ (d = .tx ∧ carries (chan s d k) = true ∧ laneUp s (chan s d k).lane = true)) :
    calSlotStart n s = if d == .tx && (chan s d k).state == 5 then
      visited (modChan s d k fun c => { c with state := 4 }) n ((engine s n).calNext % engineChans n) d 2 0x1FFF else visited s n ((engine s n).calNext % engineChans n) d 2 0x1FFF := by
  rw [calSlotStart_eq slot]
  dsimp only
  rw [if_neg (by unfold passedOver at visits; tauto), if_neg (by simpa [and_assoc] using away)]

theorem calSlotStart_carried (visits : ¬ passedOver (chan s d k)) (transmit : d = .tx)
    (carried : carries (chan s d k) = true) (up : laneUp s (chan s d k).lane = true)
    (idle : swapOf s .tx (chan s d k).lane = none) (fibre : fibreSwapping s k = false) :
    calSlotStart n s = match usableSpare s .tx (chan s d k).lane, standInColour s .tx (chan s d k).lane with
      | some sp, some col => startSwap (visited s n ((engine s n).calNext % engineChans n) d 1 (chan s d k).lane) (chan s d k).lane sp col 1
      | _, _ => calSlotEnd (noteSuspended s k) n := by
  rw [calSlotStart_eq slot]
  dsimp only
  rw [if_neg (by unfold passedOver at visits; tauto), if_pos (by simp [transmit, carried, up] <;> simp_all),
    if_neg (by simp [idle, fibre])]

end Slot

theorem noteSuspended_cnt (s : State) (k : Nat) : cntGet (noteSuspended s k) 0x10A = (cntGet s 0x10A + 1) % 2 ^ 64 := by
  unfold noteSuspended
  dsimp only
  split
  · exact (cntGet_bump s 0x10A 0x10A).trans (if_pos rfl)
  · rw [raiseEvent_cnt _ _ _ _ _ _ (by decide), if_pos rfl]
    rfl

theorem noteSuspended_engine (s : State) (k n : Nat) : engine (noteSuspended s k) n = engine s n := by
  unfold noteSuspended engine
  dsimp only
  split
  · rfl
  · rw [raiseEvent_opt]

/-! #### The sweep ends: R64, R65 -/

/-- The state with one chill row rewritten. -/
def chillWritten (s : State) (n key : Nat) (v : Word) : State :=
  { s with opt := { s.opt with chill := tset (chillDef s (2 ^ 21 * n + key)) s.opt.chill (2 ^ 21 * n + key) v } }

theorem chillAt_written {s t : State} {n key : Nat} {v : Word} (boot : t.boot = s.boot)
    (chill : t.opt.chill = (chillWritten s n key v).opt.chill) : chillAt t n key = v &&& chillMask key := by
  have default_ : chillDef t (2 ^ 21 * n + key) = chillDef s (2 ^ 21 * n + key) := by unfold chillDef; rw [boot]
  unfold chillAt
  rw [default_, chill]
  exact congrArg (· &&& chillMask key) (tget_tset_same ..)

/-- The sequencer's sweep of a channel is over, and the row belongs to the channel. -/
structure SweepOf (s : State) (n key : Nat) : Prop where
  busy : (engine s n).calChannel ≠ 255
  sweeps : (engine s n).calPhase = 2
  row : key % 64 < 51
  own : key / 64 / 64 = chillKey s (engine s n).calDir (256 * n + (engine s n).calChannel) 0 / 64 / 64

/-- The slot of a borrowed spare, with the row kept that the sweep has replaced. -/
def sweptBorrowed (s : State) (n key : Nat) (v : Word) : State :=
  modEngine (chillWritten s n key v) n fun e => { e with
    calPhase := 3, calSaved := [(2 ^ 21 * n + key, chillAt s n key)] }

section Sweep

variable {s : State} {n key : Nat} (sweep : SweepOf s n key) (v : Word)
include sweep

theorem SweepOf.mine : ([(key, v)].filter fun r => r.1 / 64 / 64 ==
    chillKey s (engine s n).calDir (256 * n + (engine s n).calChannel) 0 / 64 / 64 && decide (r.1 % 64 < 51)) =
    [(key, v)] := by
  rw [List.filter_cons_of_pos (by simp [sweep.row, sweep.own]), List.filter_nil]

theorem calSweepDone_inPlace (alone : (engine s n).calBorrow = none) :
    calSweepDone n [(key, v)] s = calSlotEnd (chillWritten s n key v) n := by
  unfold calSweepDone
  dsimp only
  rw [if_neg (by simp [sweep.busy, sweep.sweeps]), sweep.mine, alone]
  rfl

theorem calSweepDone_borrowed {br : Nat} (borrowed : (engine s n).calBorrow = some br) :
    calSweepDone n [(key, v)] s = swapBack (sweptBorrowed s n key v) (engine s n).calLane
      (256 * n + (engine s n).calChannel) (chan s .tx (256 * n + (engine s n).calChannel)).colour := by
  have same : chan (sweptBorrowed s n key v) .tx (256 * n + (engine s n).calChannel) =
      chan s .tx (256 * n + (engine s n).calChannel) := modEngine_chan (s := chillWritten s n key v) (by intro e; rfl) _ _
  unfold calSweepDone
  dsimp only
  rw [if_neg (by simp [sweep.busy, sweep.sweeps]), sweep.mine, borrowed, ← same]
  rfl

end Sweep

theorem calSlotEnd_chill (s : State) (n : Nat) : (calSlotEnd s n).opt.chill = s.opt.chill := by
  have kept (d : Dir) (k : Nat) (f : Chan → Chan) : (modChan s d k f).opt.chill = s.opt.chill := by cases d <;> rfl
  unfold calSlotEnd
  refine (show (modEngine _ n _).opt.chill = _ from rfl).trans ((apply_ite (fun t : State => t.opt.chill) _ _ _).trans ?_)
  rw [kept]
  exact ite_self _

theorem swapBack_chill (s : State) (q k colour : Nat) : (swapBack s q k colour).opt.chill = s.opt.chill := by
  unfold swapBack
  split
  · unfold startSwap
    rfl
  · rfl

/-- Settles O41: the pass by its engine's record, a slot by the channel's state and its carried lane, a sweep by whether a
spare is borrowed. -/
theorem calibrationRuns : Obligations.CalibrationRuns := by
  unfold Obligations.CalibrationRuns
  intro s n
  refine ⟨fun ready enabled idle => ?_, fun d k ready runs free enabled dir key => ⟨fun passed => ?_, fun visits => ⟨fun away => ?_,
    fun transmit carried up idle fibre lacking => ?_, fun sp c transmit carried up idle fibre spare colour => ?_⟩⟩,
    fun key v busy sweeps row own => ?_⟩
  · obtain ⟨now, began, anew⟩ := calPassStart_spec ready enabled idle
    exact ⟨_, rfl, (calPassStart_fr _ _).onlyChanges _, now, began, anew⟩
  · have slot : SlotDue s n d k := ⟨ready, runs, free, enabled, dir, key⟩
    refine ⟨_, congrArg Host.Outcome.next (calSlotStart_passed slot passed), (calSlotEnd_fr _ _).onlyChanges _, ?_, ?_⟩
    · rw [calSlotEnd_engine]
      rfl
    · rw [calSlotEnd_engine]
      rfl
  · have slot : SlotDue s n d k := ⟨ready, runs, free, enabled, dir, key⟩
    refine ⟨_, congrArg Host.Outcome.next (calSlotStart_inPlace slot visits away), ?_, ?_⟩
    · refine (show Fr 32 s _ from ?_).onlyChanges _
      exact .ite (.step (modEngine_fr _ _ _) (modChan_fr _ _ _ _)) (modEngine_fr _ _ _)
    · split
      · obtain ⟨phase, side, at_⟩ := visited_engine (modChan s d k fun c => { c with state := 4 }) n
          ((engine s n).calNext % engineChans n) d 2 0x1FFF
        exact ⟨phase, at_, side⟩
      · obtain ⟨phase, side, at_⟩ := visited_engine s n ((engine s n).calNext % engineChans n) d 2 0x1FFF
        exact ⟨phase, at_, side⟩
  · have slot : SlotDue s n d k := ⟨ready, runs, free, enabled, dir, key⟩
    refine ⟨_, congrArg Host.Outcome.next ((calSlotStart_carried slot visits transmit carried up idle fibre).trans
      (by rw [lacking])), ?_, ?_, ?_⟩
    · rw [calSlotEnd_engine, noteSuspended_engine]
      rfl
    · rw [calSlotEnd_engine]
      rfl
    · rw [cntGet_congr ((calSlotEnd_fr _ _).cnt rfl), noteSuspended_cnt]
  · have slot : SlotDue s n d k := ⟨ready, runs, free, enabled, dir, key⟩
    refine ⟨_, _, congrArg Host.Outcome.next ((calSlotStart_carried slot visits transmit carried up idle fibre).trans
      (by rw [spare, colour])), ?_, ?_, swapOf_startSwap _ _ _ _ _, rfl, rfl, rfl, rfl⟩
    · exact (Fr.step (n := 32) (startSwap_fr _ _ _ _ _) (modEngine_fr _ _ _)).onlyChanges _
    · rw [startSwap_engine]
      exact (visited_engine _ _ _ _ _ _).1
  · have sweep : SweepOf s n key := ⟨busy, sweeps, row, own⟩
    refine ⟨_, rfl, (calSweepDone_fr _ _ _).onlyChanges _, chillAt_written ((calSweepDone_fr _ _ _).boot rfl) ?_, fun alone => ?_,
      fun br borrowed => ?_⟩
    · cases borrow : (engine s n).calBorrow with
      | none => rw [calSweepDone_inPlace sweep v borrow, calSlotEnd_chill]
      | some br =>
        rw [calSweepDone_borrowed sweep v borrow, swapBack_chill]
        rfl
    · rw [calSweepDone_inPlace sweep v alone, calSlotEnd_engine]
      exact ⟨rfl, rfl⟩
    · obtain ⟨w, swap, phase, spare, colour, reason, -⟩ := swapBack_spec (sweptBorrowed s n key v) (engine s n).calLane
        (256 * n + (engine s n).calChannel) (chan s .tx (256 * n + (engine s n).calChannel)).colour
      rw [calSweepDone_borrowed sweep v borrowed, swapBack_engine]
      refine ⟨?_, w, swap, phase, reason, colour, spare⟩
      unfold sweptBorrowed
      rw [engine_modEngine]

end Sys2Proof.Machine

/-! ### O42: sprues set and released -/

namespace Sys2Proof.Machine

set_option Elab.async false

theorem sprue_setSprue (s : State) (n i : Nat) (e : Sprue) : sprue (setSprue s n i e) n i = e := tget_tset_same ..

theorem Fr.sprue {m : Nat} {s t : State} (h : Fr m s t) (n i : Nat) (h5 : m.testBit 5 = false := by rfl) :
    Machine.sprue t n i = Machine.sprue s n i := by
  unfold Machine.sprue
  rw [h.opt h5]

theorem Fr.planOf {m : Nat} {s t : State} (h : Fr m s t) (c : Nat) (h10 : m.testBit 10 = false := by rfl) :
    Machine.planOf t c = Machine.planOf s c := by
  unfold Machine.planOf
  rw [h.plan h10]

/-! #### A lane that is as it was but for what it sends -/

/-- A lane is as it was, but for the ordered sets that wait on it. -/
def LaneKept (s t : State) (q : Nat) : Prop := lane t q = { lane s q with osOut := (lane t q).osOut }

theorem LaneKept.of_eq {s t : State} {q : Nat} (h : lane t q = lane s q) : LaneKept s t q := by
  unfold LaneKept
  rw [h]

theorem LaneKept.trans {s x t : State} {q : Nat} (h : LaneKept s x q) (g : LaneKept x t q) : LaneKept s t q := by
  unfold LaneKept at *
  rw [g, h]

theorem LaneKept.state {s t : State} {q : Nat} (h : LaneKept s t q) : (lane t q).state = (lane s q).state := by
  have e : lane t q = { lane s q with osOut := (lane t q).osOut } := h
  rw [e]

theorem LaneKept.los {s t : State} {q : Nat} (h : LaneKept s t q) : (lane t q).los = (lane s q).los := by
  have e : lane t q = { lane s q with osOut := (lane t q).osOut } := h
  rw [e]

theorem LaneKept.sprueFrom {s t : State} {q : Nat} (h : LaneKept s t q) : (lane t q).sprueFrom = (lane s q).sprueFrom := by
  have e : lane t q = { lane s q with osOut := (lane t q).osOut } := h
  rw [e]

theorem laneToDown_kept (s : State) {q j : Nat} (st : Nat) (other : j ≠ q) : LaneKept s (laneToDown s q st) j := by
  obtain ⟨sent, e⟩ := laneToDown_lane s q st j
  rw [if_neg other] at e
  unfold LaneKept
  rw [e]

theorem sendLinkctl_kept (s : State) (q op j : Nat) : LaneKept s (sendLinkctl s q op) j := (sendLinkctl_kl s q op).lanes j

/-! #### A lane taken by a circuit: R70, R71 -/

/-- The lane has been told off its traffic, and its swaps and calibration have ended. -/
def laneCleared (s : State) (q : Nat) : State :=
  dropSwap (dropSwap (calLeave
    (if (lane s q).state == 4 || (lane s q).state == 3 then sendLinkctl s q lcQUIESCE else s) q) .tx q) .rx q

theorem laneCleared_kept (s : State) (q j : Nat) : LaneKept s (laneCleared s q) j := by
  have told : LaneKept s (if (lane s q).state == 4 || (lane s q).state == 3 then sendLinkctl s q lcQUIESCE else s) j := by
    split
    · exact sendLinkctl_kept _ _ _ _
    · exact .of_eq rfl
  unfold laneCleared
  refine told.trans (.of_eq (Fr.lane (m := 32) ?_ j))
  exact .step (dropSwap_fr _ _ _) (.step (dropSwap_fr _ _ _) (calLeave_fr _ _))

theorem holdLane_lane (s : State) (q j : Nat) : lane (holdLane s q) j =
    if j = q then { lane (laneCleared s q) j with
      state := 5, sprueFrom := (lane (laneCleared s q) j).state, quickAt := none, quickSpare := false }
    else lane (laneCleared s q) j := by
  refine (show lane (holdLane s q) j = lane (refreshLink (modLane (laneCleared s q) q fun x =>
    { x with state := 5, sprueFrom := x.state, quickAt := none, quickSpare := false }) (linkOf q) 0 false) j from rfl).trans ?_
  rw [refreshLink_lane, lane_modLane_ite]

theorem holdLane_own (s : State) (q : Nat) : (lane (holdLane s q) q).state = 5 := by
  rw [holdLane_lane, if_pos rfl]

theorem holdLane_stays {s : State} {q j : Nat} (held : (lane s j).state = 5) : (lane (holdLane s q) j).state = 5 := by
  rw [holdLane_lane]
  split
  · rfl
  · rw [(laneCleared_kept s q j).state, held]

/-! #### A circuit set: R69, R70, R248 -/

theorem sprueValid_congr {m : Nat} {s t : State} (h : Fr m s t) (n i : Nat) (e : Sprue) (h1 : m.testBit 1 = false := by rfl)
    (h3 : m.testBit 3 = false := by rfl) (h5 : m.testBit 5 = false := by rfl) (h6 : m.testBit 6 = false := by rfl) :
    sprueValid t n i e = sprueValid s n i e := by
  have reg (o : Nat) : getR t o = getR s o := h.getR o h1 h3
  have lanes : sprueLanes t n e = sprueLanes s n e := by
    unfold sprueLanes
    rw [laneOfKey_congr (reg _), laneOfKey_congr (reg _)]
  have chans : chan t = chan s := funext fun d => funext fun k => h.chan d k h5 h1 h3
  have laneEq : lane t = lane s := funext fun q => h.lane q h6
  unfold sprueValid hasSprue
  rw [lanes, chans, laneEq, reg, h.variant]

/-- The moment a claimed circuit is set: its plan has acted on the claim. -/
def sprueMoment (s : State) (ctx claim due : Nat) : State :=
  modPlan (awaitNt s due) ctx fun p => { p with sprueActed := p.sprueActed ++ [claim] }

/-- A circuit with its two lanes taken. -/
def sprueHeld (s : State) (n i : Nat) (e : Sprue) : State :=
  let y := holdLane (holdLane s (sprueLanes s n e).1) (sprueLanes s n e).2
  setSprue y n i { e with state := 2, setAt := y.now, releaseAt := none }

/-- A claim that is due: its circuit is free or claimed, its plan is at the moment of the claim. -/
structure ClaimDue (s : State) (ctx claim : Nat) (c : Word × Word) (n i : Nat) (e : Sprue) : Prop where
  names : (planOf s ctx).claims[claim]? = some c
  kind : claimKind c = 5
  circuit : sprueClaim c ctx = (n, i, e)
  free : sprue s n i = e ∨ (sprue s n i).state = 0
  fresh : (planOf s ctx).sprueActed.contains claim = false
  timed : s.tim.inForce = true
  runs : (planOf s ctx).running = true ∨ (bit c.1 36 = true ∧ ((planOf s ctx).state = 3 ∨ (planOf s ctx).state = 4))

/-- The moment at which a claim's circuit is to be set. -/
def claimTime (s : State) (ctx : Nat) (c : Word × Word) : Nat :=
  (if bit c.1 36 then (planOf s ctx).base else (planOf s ctx).runBase) + fld c.2 63 32

theorem sprueSet_eq {s : State} {ctx claim : Nat} {c : Word × Word} {n i : Nat} {e : Sprue} (h : ClaimDue s ctx claim c n i e) :
    sprueSet ctx claim s =
      if sprueValid (sprueMoment s ctx claim (claimTime s ctx c)) n i e then
        sprueHeld (sprueMoment s ctx claim (claimTime s ctx c)) n i e
      else raiseEvent (modPlan (sprueMoment s ctx claim (claimTime s ctx c)) ctx fun p => { p with sprueFailed := true }) 0x506
        (planOf s ctx).part (at_ 52 ctx) (at_ 4 n + i) := by
  obtain ⟨names, kind, circuit, free, fresh, timed, runs⟩ := h
  have claimed : e.state = 1 ∧ e.ctx = ctx := by
    unfold sprueClaim at circuit
    simp only [Prod.mk.injEq] at circuit
    obtain ⟨-, -, rfl⟩ := circuit
    exact ⟨rfl, rfl⟩
  have taken : (if (sprue s n i).state = 0 then e else sprue s n i) = e := by
    rcases free with here | none_
    · split
      · rfl
      · exact here
    · exact if_pos none_
  unfold sprueSet
  dsimp only
  rw [names]
  dsimp only
  rw [circuit]
  dsimp only
  have absent : claim ∉ (planOf s ctx).sprueActed := by simpa using fresh
  rw [taken, if_neg (by
    rcases runs with running | ⟨first, armed | running⟩
    · simp [kind, claimed.1, claimed.2, absent, timed, running]
    · simp [kind, claimed.1, claimed.2, absent, timed, first, armed]
    · simp [kind, claimed.1, claimed.2, absent, timed, first, running])]
  rfl

theorem sprueMoment_fr (s : State) (ctx claim due : Nat) : Fr 132096 s (sprueMoment s ctx claim due) :=
  .step (modPlan_fr _ _ _) (.step (awaitNt_fr _ _) (.refl _ _))

theorem sprueMoment_acted (s : State) (ctx claim due : Nat) :
    (planOf (sprueMoment s ctx claim due) ctx).sprueActed = (planOf s ctx).sprueActed ++ [claim] := by
  unfold sprueMoment
  rw [planOf_modPlan, (awaitNt_fr s due).planOf]

theorem sprueHeld_fr (s : State) (n i : Nat) (e : Sprue) : Fr 114917 s (sprueHeld s n i e) :=
  .step (setSprue_fr _ _ _ _) (.step (holdLane_fr _ _) (holdLane_fr _ _))

theorem sprueHeld_spec (s : State) (n i : Nat) (e : Sprue) :
    (sprue (sprueHeld s n i e) n i).state = 2 ∧ (sprue (sprueHeld s n i e) n i).setAt = (sprueHeld s n i e).now ∧
    (lane (sprueHeld s n i e) (sprueLanes s n e).1).state = 5 ∧ (lane (sprueHeld s n i e) (sprueLanes s n e).2).state = 5 := by
  generalize whole : holdLane (holdLane s (sprueLanes s n e).1) (sprueLanes s n e).2 = y
  have held : sprueHeld s n i e = setSprue y n i { e with state := 2, setAt := y.now, releaseAt := none } := by
    rw [← whole]
    rfl
  have lanes (q : Nat) : lane (setSprue y n i { e with state := 2, setAt := y.now, releaseAt := none }) q = lane y q := rfl
  rw [held, sprue_setSprue, lanes, lanes, ← whole]
  exact ⟨rfl, rfl, holdLane_stays (holdLane_own _ _), holdLane_own _ _⟩

theorem sprueSet_spec {s : State} {ctx claim : Nat} {c : Word × Word} {n i : Nat} {e : Sprue} (h : ClaimDue s ctx claim c n i e) :
    (sprueSet ctx claim s).now = (awaitNt s (claimTime s ctx c)).now ∧
    (planOf (sprueSet ctx claim s) ctx).sprueActed = (planOf s ctx).sprueActed ++ [claim] ∧
    (sprueValid s n i e = true → (sprue (sprueSet ctx claim s) n i).state = 2 ∧
      (sprue (sprueSet ctx claim s) n i).setAt = (sprueSet ctx claim s).now ∧
      (lane (sprueSet ctx claim s) (sprueLanes s n e).1).state = 5 ∧
      (lane (sprueSet ctx claim s) (sprueLanes s n e).2).state = 5) ∧
    (sprueValid s n i e = false → (planOf (sprueSet ctx claim s) ctx).sprueFailed = true ∧
      sprue (sprueSet ctx claim s) n i = sprue s n i ∧
      cntGet (sprueSet ctx claim s) 0x506 = (cntGet s 0x506 + 1) % 2 ^ 64) := by
  let y : State := sprueMoment s ctx claim (claimTime s ctx c)
  have moment : Fr 132096 s y := sprueMoment_fr _ _ _ _
  have lanes : sprueLanes y n e = sprueLanes s n e := by
    unfold sprueLanes
    rw [laneOfKey_congr (moment.getR _), laneOfKey_congr (moment.getR _)]
  rw [sprueSet_eq h, sprueValid_congr moment]
  by_cases valid : sprueValid s n i e = true
  · have held := sprueHeld_fr y n i e
    have spec := sprueHeld_spec y n i e
    rw [lanes] at spec
    rw [if_pos valid]
    refine ⟨held.now rfl, ?_, fun _ => spec, fun invalid => absurd (valid.symm.trans invalid) (by decide)⟩
    rw [held.planOf, sprueMoment_acted]
  · let z : State := modPlan y ctx fun p => { p with sprueFailed := true }
    have told : Fr 81924 z (raiseEvent z 0x506 (planOf s ctx).part (at_ 52 ctx) (at_ 4 n + i)) := raiseEvent_fr _ _ _ _ _
    rw [if_neg valid]
    refine ⟨told.now rfl, ?_, fun isValid => absurd isValid valid, fun _ => ⟨?_, ?_, ?_⟩⟩
    · rw [told.planOf, planOf_modPlan, sprueMoment_acted]
    · rw [told.planOf, planOf_modPlan]
    · rw [told.sprue]
      exact moment.sprue n i
    · rw [raiseEvent_cnt _ _ _ _ _ _ (by decide), if_pos rfl]
      exact congrArg (fun x => (x + 1) % 2 ^ 64) (cntGet_congr (t := z) (moment.cnt rfl) _)

/-! #### A circuit through, and released: R70, R241 -/

theorem sprueThrough_spec {s : State} {n i : Nat} (set_ : (sprue s n i).state = 2) :
    (sprueThrough n i s).now = max s.now ((sprue s n i).setAt + 40 * usT) ∧
    sprue (sprueThrough n i s) n i = { sprue s n i with state := 3 } ∧
    (chan (sprueThrough n i s) .rx (256 * n + 34 * (sprue s n i).rxFibre + (sprue s n i).colour)).state = 7 ∧
    (chan (sprueThrough n i s) .tx (256 * n + 34 * (sprue s n i).txFibre + (sprue s n i).colour)).state = 7 := by
  let e := sprue s n i
  let y : State := modChan (await s e.setAt (40 * usT)) .rx (256 * n + 34 * e.rxFibre + e.colour) fun c => { c with state := 7 }
  let z : State := modChan y .tx (256 * n + 34 * e.txFibre + e.colour) fun c => { c with state := 7 }
  have whole : sprueThrough n i s = setSprue z n i { e with state := 3 } := by
    unfold sprueThrough
    exact if_pos set_
  have view (d : Dir) (k : Nat) : chan (setSprue z n i { e with state := 3 }) d k = chan z d k := rfl
  rw [whole]
  refine ⟨rfl, sprue_setSprue _ _ _ _, ?_, ?_⟩
  · rw [view, chan_modChan_other _ _ _ _ (by simp), chan_modChan_same _ _ _ _ (by simp)]
  · rw [view, chan_modChan_same _ _ _ _ (by simp)]

theorem releaseSprue_spec {s : State} {n i : Nat} (held : (sprue s n i).state = 2 ∨ (sprue s n i).state = 3) :
    sprue (releaseSprue s n i) n i = { sprue s n i with state := 4, releaseAt := some s.now } ∧
    (releaseSprue s n i).now = s.now := by
  unfold releaseSprue
  dsimp only
  rw [if_pos held]
  exact ⟨sprue_setSprue _ _ _ _, rfl⟩

end Sys2Proof.Machine

/-! #### The lanes of a released circuit return: R70, R84 -/

namespace Sys2Proof.Machine

set_option Elab.async false

/-- Where a lane that a circuit gives back may find itself. -/
def LaneFreed (s t : State) (q : Nat) : Prop :=
  (linkEnabled s (linkOf q) = false → (lane t q).state = 8) ∧
  (linkEnabled s (linkOf q) = true → (lane s q).los = true → (lane t q).state = 0) ∧
  (linkEnabled s (linkOf q) = true → (lane s q).los = false →
    ((lane t q).state = 1 ∨ ((lane t q).state = 4 ∧ (lane s q).sprueFrom = 4)))

/-- The state to which a lane is released, by its link, its light and what it was. -/
theorem releasedState_cases (s : State) (q : Nat) :
    (linkEnabled s (linkOf q) = false → releasedState s q = 8) ∧
    (linkEnabled s (linkOf q) = true → (lane s q).los = true → releasedState s q = 0) ∧
    (linkEnabled s (linkOf q) = true → (lane s q).los = false →
      releasedState s q = 1 ∨ (releasedState s q = 4 ∧ (lane s q).sprueFrom = 4)) := by
  unfold releasedState
  dsimp only
  refine ⟨fun off => ?_, fun on dark => ?_, fun on light => ?_⟩
  · rw [off]
    rfl
  · rw [on, dark]
    rfl
  · rw [on, light]
    by_cases was : (lane s q).sprueFrom = 4
    · by_cases rises : ((lane s q).sprueFrom == 4 && !(chan s .tx (laneKey s .tx q)).lostLock &&
        !(chan s .rx (laneKey s .rx q)).lostLock && linkMayRise s (linkOf q)) = true
      · right
        rw [rises]
        exact ⟨rfl, was⟩
      · left
        rw [Bool.not_eq_true] at rises
        rw [rises]
        rfl
    · left
      rw [beq_eq_false_iff_ne.2 was]
      rfl

theorem freeLane_other (s : State) {q j : Nat} (other : j ≠ q) : LaneKept s (freeLane s q) j := by
  have down (st : Nat) : LaneKept s (laneToDown s q st) j := laneToDown_kept s st other
  unfold freeLane
  dsimp only
  split
  · split
    · have up : LaneKept (laneToDown s q 1) (laneToUp (laneToDown s q 1) q) j := lanesToUp_other (by simpa using other)
      exact ((down 1).trans up).trans (sendLinkctl_kept _ _ _ _)
    · exact (down _).trans (.of_eq (refreshLink_lane _ _ _ _))
  · exact .of_eq rfl

theorem freeLane_own {s : State} {q : Nat} (held : (lane s q).state = 5) :
    (lane (freeLane s q) q).state = releasedState s q ∨ releasedState s q = 4 ∧ (lane (freeLane s q) q).state = 1 := by
  unfold freeLane
  dsimp only
  rw [if_pos held]
  by_cases up : releasedState s q = 4
  · rw [if_pos up, if_pos up, (sendLinkctl_kept _ _ _ _).state]
    cases may : linkMayRise (laneToDown s q 1) (linkOf q) with
    | true =>
      left
      exact (lanesToUp_up may (List.mem_singleton_self q)).trans up.symm
    | false =>
      right
      unfold laneToUp
      rw [lanesToUp_stay may, laneToDown_own]
      exact ⟨up, rfl⟩
  · left
    rw [if_neg up, if_neg up, refreshLink_lane, laneToDown_own]

theorem freeLane_freed {s : State} {q : Nat} (held : (lane s q).state = 5) : LaneFreed s (freeLane s q) q := by
  obtain ⟨off, dark, light⟩ := releasedState_cases s q
  have own := freeLane_own held
  refine ⟨fun h => ?_, fun h d => ?_, fun h d => ?_⟩
  · have st := off h
    omega
  · have st := dark h d
    omega
  · rcases light h d with st | ⟨st, was⟩
    · left
      omega
    · rw [was]
      omega

/-- A lane that a circuit does not hold is not released. -/
theorem freeLane_free {s : State} {q : Nat} (free : (lane s q).state ≠ 5) : freeLane s q = s := by
  unfold freeLane
  exact if_neg free

theorem LaneFreed.free {s t : State} {q : Nat} (h : LaneFreed s t q) : (lane t q).state ≠ 5 := by
  obtain ⟨off, dark, light⟩ := h
  cases on : linkEnabled s (linkOf q) with
  | false => rw [off on]; decide
  | true =>
    cases los : (lane s q).los with
    | true => rw [dark on los]; decide
    | false => rcases light on los with e | ⟨e, -⟩ <;> rw [e] <;> decide

theorem LaneFreed.congr {s x t y : State} {q : Nat} (h : LaneFreed x y q) (cfg : linkEnabled x (linkOf q) = linkEnabled s (linkOf q))
    (start : LaneKept s x q) (after : LaneKept y t q) : LaneFreed s t q := by
  unfold LaneFreed at *
  rwa [after.state, ← cfg, ← start.los, ← start.sprueFrom]

theorem linkEnabled_congr {s t : State} (h : ∀ o, getR t o = getR s o) (l : Nat) : linkEnabled t l = linkEnabled s l := by
  unfold linkEnabled
  rw [h]

/-- Both lanes of a circuit are released, whichever is the first. -/
theorem freeLanes_freed (s : State) (a b : Nat) {q : Nat} (own : q = a ∨ q = b) (held : (lane s q).state = 5) :
    LaneFreed s (freeLane (freeLane s a) b) q := by
  by_cases first : q = a
  · subst first
    have freed := freeLane_freed held
    by_cases both : q = b
    · subst both
      rwa [freeLane_free freed.free]
    · exact freed.congr rfl (.of_eq rfl) (freeLane_other _ both)
  · have last : q = b := own.resolve_left first
    subst last
    have kept := freeLane_other s first
    have freed : LaneFreed (freeLane s a) (freeLane (freeLane s a) q) q := freeLane_freed (kept.state.trans held)
    exact freed.congr (linkEnabled_congr (fun o => (freeLane_fr s a).getR o) _) kept (.of_eq rfl)

/-- A channel that a circuit has held returns to its engine. -/
def chanBack (n : Nat) (e : Sprue) (d : Dir) (f : Nat) (s : State) : State :=
  modChan s d (256 * n + 34 * f + e.colour) fun c => if c.state = 7 then { c with state := 0 } else c

/-- The circuit's time is over and its two channels are back. -/
def chansBack (s : State) (n i : Nat) : State :=
  chanBack n (sprue s n i) .tx (sprue s n i).txFibre (chanBack n (sprue s n i) .rx (sprue s n i).rxFibre
    (awaitOpt s (sprue s n i).releaseAt msT))

theorem chanBack_fr (n : Nat) (e : Sprue) (d : Dir) (f : Nat) (s : State) : Fr 32 s (chanBack n e d f s) := modChan_fr _ _ _ _

theorem chansBack_fr (s : State) (n i : Nat) : Fr 131104 s (chansBack s n i) :=
  .step (chanBack_fr _ _ _ _ _) (.step (chanBack_fr _ _ _ _ _) (.step (awaitOpt_fr _ _ _) (.refl _ _)))

theorem sprueReleaseDone_spec {s : State} {n i a : Nat} (going : (sprue s n i).state = 4)
    (begun : (sprue s n i).releaseAt = some a) :
    (sprueReleaseDone n i s).now = max s.now (a + msT) ∧ sprue (sprueReleaseDone n i s) n i = claimedSprue s n i ∧
    ∀ q, q = (sprueLanes s n (sprue s n i)).1 ∨ q = (sprueLanes s n (sprue s n i)).2 → (lane s q).state = 5 →
      LaneFreed s (sprueReleaseDone n i s) q := by
  have back := chansBack_fr s n i
  generalize lanes : sprueLanes s n (sprue s n i) = p
  let y : State := freeLane (freeLane (chansBack s n i) p.1) p.2
  have freed : Fr 114885 (chansBack s n i) y := .step (freeLane_fr _ _) (freeLane_fr _ _)
  have named : sprueLanes (awaitOpt s (sprue s n i).releaseAt msT) n (sprue s n i) = p := by
    rw [← lanes]
    unfold sprueLanes
    rw [laneOfKey_congr ((awaitOpt_fr _ _ _).getR _), laneOfKey_congr ((awaitOpt_fr _ _ _).getR _)]
  have whole : sprueReleaseDone n i s = setSprue y n i (claimedSprue y n i) := by
    unfold sprueReleaseDone
    dsimp only
    rw [if_pos going, named]
    rfl
  rw [whole]
  refine ⟨?_, ?_, fun q own held => ?_⟩
  · refine (freed.now rfl).trans ?_
    unfold chansBack
    rw [begun, awaitOpt_some]
    rfl
  · rw [sprue_setSprue]
    unfold claimedSprue
    rw [freed.plan rfl, back.plan rfl]
  · have both := freeLanes_freed (chansBack s n i) p.1 p.2 own ((congrArg Lane.state (back.lane q)).trans held)
    exact both.congr (linkEnabled_congr (fun o => back.getR o) _) (.of_eq (back.lane q)) (.of_eq rfl)

/-! ### O42: sprues set and released -/

theorem sprueRelease_eq {s : State} {n i : Nat} (gone : sprueHolder s n i = none ∨ (planOf s (sprue s n i).ctx).state < 2 ∨
    5 < (planOf s (sprue s n i).ctx).state) : sprueRelease n i s = releaseSprue s n i := by
  unfold sprueRelease
  dsimp only
  split
  · rfl
  · next c holder =>
    rw [if_neg]
    rcases gone with absent | early | late
    · exact nomatch holder.symm.trans absent
    · simp [early]
    · simp [late]

theorem sprueRelease_held {s : State} {n i : Nat} {c : Word × Word} (holder : sprueHolder s n i = some c)
    (from_ : 2 ≤ (planOf s (sprue s n i).ctx).state) (upto : (planOf s (sprue s n i).ctx).state ≤ 5) :
    sprueRelease n i s = if bit c.1 36 then s
      else releaseSprue (awaitNt s ((planOf s (sprue s n i).ctx).runBase + fld c.2 31 0)) n i := by
  unfold sprueRelease
  dsimp only
  rw [holder]
  dsimp only
  rw [if_pos (by simp [from_, upto])]

/-- Settles O42: the set by `sprueSet_spec`, the release by who holds the circuit, the return of the lanes by
`sprueReleaseDone_spec`. -/
theorem spruesSetAndReleased : Obligations.SpruesSetAndReleased := by
  unfold Obligations.SpruesSetAndReleased
  intro s
  refine ⟨fun ctx claim c n i e names kind circuit free fresh timed runs => ?_, fun n i set_ => ?_,
    fun n i held => ⟨fun gone => ?_, fun c holder from_ upto => ⟨fun persists => ?_, fun ends => ?_⟩⟩,
    fun n i a going begun => ?_⟩
  · exact ⟨_, rfl, sprueSet_spec ⟨names, kind, circuit, free, fresh, timed, runs⟩⟩
  · obtain ⟨now, circuit, drop, laser⟩ := sprueThrough_spec set_
    exact ⟨_, rfl, (sprueThrough_fr _ _ _).onlyChanges _, now, circuit, drop, laser⟩
  · exact ⟨_, congrArg Host.Outcome.next (sprueRelease_eq gone), (releaseSprue_fr _ _ _).onlyChanges _,
      (releaseSprue_spec held).1⟩
  · exact congrArg Host.Outcome.next ((sprueRelease_held holder from_ upto).trans (if_pos persists))
  · have whole := (sprueRelease_held holder from_ upto).trans (if_neg (by simp [ends]))
    have moment := awaitNt_fr s ((planOf s (sprue s n i).ctx).runBase + fld c.2 31 0)
    have same := moment.sprue n i
    obtain ⟨released, now⟩ := releaseSprue_spec (n := n) (i := i) (by rw [same]; exact held)
    refine ⟨_, congrArg Host.Outcome.next whole, ?_, now, ?_⟩
    · exact (Fr.step (n := 131104) (releaseSprue_fr _ _ _) (.step moment (.refl _ _))).onlyChanges _
    · rw [released, same, now]
  · exact ⟨_, rfl, sprueReleaseDone_spec going begun⟩

end Sys2Proof.Machine

/-! ### O43: held frames admitted -/

namespace Sys2Proof.Machine

set_option Elab.async false

/-! #### Held frames offered again: R120, R126 -/

theorem retryOne_skips {d : Nat} {x : QFrame} (away : ¬ (x.die = d ∧ x.place = .landing)) (r : State × List (Nat × Nat)) :
    retryOne d r x = r := by
  unfold retryOne
  dsimp only
  exact if_pos (by tauto)

theorem foldl_retryOne_skips {d : Nat} {l : List QFrame} (away : ∀ x ∈ l, ¬ (x.die = d ∧ x.place = .landing))
    (r : State × List (Nat × Nat)) : l.foldl (retryOne d) r = r := by
  induction l with
  | nil => rfl
  | cons x l ih =>
    rw [List.foldl_cons, retryOne_skips (away x List.mem_cons_self)]
    exact ih fun y member => away y (List.mem_cons_of_mem _ member)

/-- A frame of the landing reserve put where admission sends it. -/
def admitTo (s : State) (q : QFrame) (p : Place) (spills : Bool) : State :=
  { s with sw := { s.sw with
    queue := s.sw.queue.map fun x =>
      if x.id = q.id then { x with place := p, spilled := x.spilled || spills, store := x.store || spills } else x
    spilling := if spills && !s.sw.spilling.contains (voqOf q) then s.sw.spilling ++ [voqOf q] else s.sw.spilling } }

theorem admitTo_queue {s : State} {q : QFrame} {pre rest : List QFrame} (queue : s.sw.queue = pre ++ q :: rest)
    (alone : ∀ x ∈ pre ++ rest, x.id ≠ q.id) (p : Place) (spills : Bool) : (admitTo s q p spills).sw.queue =
    pre ++ { q with place := p, spilled := q.spilled || spills, store := q.store || spills } :: rest := by
  have same (l : List QFrame) (sub : ∀ x ∈ l, x ∈ pre ++ rest) : (l.map fun x => if x.id = q.id then
      { x with place := p, spilled := x.spilled || spills, store := x.store || spills } else x) = l := by
    refine (List.map_congr_left fun x member => if_neg (alone x (sub x member))).trans ?_
    exact List.map_id _
  unfold admitTo
  dsimp only
  rw [queue, List.map_append, List.map_cons, if_pos rfl, same pre fun x m => List.mem_append_left _ m,
    same rest fun x m => List.mem_append_right _ m]

theorem admitTo_fr (s : State) (q : QFrame) (p : Place) (spills : Bool) : Fr 128 s (admitTo s q p spills) :=
  .put_sw _ (.refl _ _)

theorem admitTo_spilling (s : State) (q : QFrame) (p : Place) : spilling (admitTo s q p true) (voqOf q) = true := by
  unfold spilling admitTo
  dsimp only
  cases known : s.sw.spilling.contains (voqOf q) with
  | true => simpa using known
  | false => simp

/-- What the offer makes of the state, by where admission sends the frame. -/
def offered (s : State) (q : QFrame) : State :=
  match admission s q with
  | .to .deep =>
    admitTo (bump (freeCredit (deepMove s (qCells q)) q.inLink q.f.tc (inCells q)) (cLink q.outLink 19)) q .deep true
  | .to p => admitTo (freeCredit s q.inLink q.f.tc (inCells q)) q p false
  | _ => if q.f.tc ≥ 4 then deepFullNote s q.die else s

theorem retryOne_offers {s : State} {d : Nat} {q : QFrame} (die : q.die = d) (landing : q.place = .landing)
    (whole : q.sentCells = 0) : (retryOne d (s, []) q).1 = offered s q := by
  unfold retryOne offered
  dsimp only
  rw [if_neg (by simp [die, landing, whole]), ← die]
  generalize admission s q = a
  rcases a with p | _ | _
  · cases p <;> rfl
  · rfl
  · rfl

theorem deepFullEnd_queue (s : State) (d : Nat) : (deepFullEnd s d).sw.queue = s.sw.queue ∧
    (deepFullEnd s d).sw.spilling = s.sw.spilling := by
  unfold deepFullEnd
  split <;> exact ⟨rfl, rfl⟩

/-- DEEP_FULL has ended where no frame of the die is held. -/
theorem deepFullEnd_ends (s : State) (d : Nat) (none_ : deepHeld (deepFullEnd s d) d = false) :
    tget false (deepFullEnd s d).sw.deepFull d = false := by
  unfold deepFullEnd at *
  split at none_
  · next held => exact absurd (held.symm.trans none_) (by decide)
  · next free =>
    rw [if_neg free]
    exact tget_tset_same ..

theorem offered_mcq (s : State) (q : QFrame) : (offered s q).sw.mcq = s.sw.mcq := by
  have credit (y : State) : (freeCredit y q.inLink q.f.tc (inCells q)).sw = y.sw := (freeCredit_fr ..).sw rfl
  have noted (y : State) : (deepFullNote y q.die).sw.mcq = y.sw.mcq := by
    unfold deepFullNote
    split
    · rfl
    · rw [raiseEvent_sw]
  unfold offered
  split
  · exact congrArg (·.mcq) (credit (deepMove s (qCells q)))
  · exact congrArg (·.mcq) (credit s)
  · split
    · exact noted s
    · rfl

/-- The only frame that the die's landing reserve holds is the only one offered. -/
theorem frameAdmitRetry_eq {s : State} {d : Nat} {q : QFrame} {pre rest : List QFrame} (queue : s.sw.queue = pre ++ q :: rest)
    (alone : s.sw.mcq = []) (die : q.die = d) (landing : q.place = .landing) (whole : q.sentCells = 0)
    (away : ∀ x ∈ pre ++ rest, ¬ (x.die = d ∧ x.place = .landing)) :
    frameAdmitRetry d s = deepFullEnd (offered s q) d := by
  have offers : (s.sw.queue.foldl (retryOne d) (s, [])).1 = offered s q := by
    rw [queue, List.foldl_append, List.foldl_cons, foldl_retryOne_skips fun x m => away x (List.mem_append_left _ m),
      foldl_retryOne_skips fun x m => away x (List.mem_append_right _ m), retryOne_offers die landing whole]
  have none_ : (offered s q).sw.mcq = [] := (offered_mcq s q).trans alone
  unfold frameAdmitRetry
  dsimp only
  rw [offers, none_]
  rfl

theorem offered_pool {s : State} {q : QFrame} (pool : admission s q = .to .pool) :
    offered s q = admitTo (freeCredit s q.inLink q.f.tc (inCells q)) q .pool false := by
  unfold offered
  rw [pool]

theorem offered_deep {s : State} {q : QFrame} (deep : admission s q = .to .deep) : offered s q =
    admitTo (bump (freeCredit (deepMove s (qCells q)) q.inLink q.f.tc (inCells q)) (cLink q.outLink 19)) q .deep true := by
  unfold offered
  rw [deep]

theorem offered_hold {s : State} {q : QFrame} (held : admission s q = .hold ∨ admission s q = .drop) :
    offered s q = if q.f.tc ≥ 4 then deepFullNote s q.die else s := by
  unfold offered
  rcases held with e | e <;> rw [e]

theorem deepFullNote_spec (s : State) (d : Nat) : (deepFullNote s d).sw.queue = s.sw.queue ∧ (deepFullNote s d).lnk = s.lnk := by
  unfold deepFullNote
  split
  · exact ⟨rfl, rfl⟩
  · exact ⟨by rw [raiseEvent_sw], by rw [raiseEvent_lnk]⟩

theorem freeCredit_credit (s : State) {l : Nat} (tc n : Nat) (known : l ≠ 0xFFF) :
    tget 0 (link (freeCredit s l tc n) l).credit tc = (tget 0 (link s l).credit tc + n) % 2 ^ 24 := by
  unfold freeCredit
  rw [if_neg known, link_modLink, tget_tset_same]

/-! #### The deep riser read back: R123 to R125 -/

/-- A frame of the deep riser in the pool again. -/
def prefetched (s : State) (q : QFrame) : State :=
  { deepMove s (qCells q) with sw := { (deepMove s (qCells q)).sw with
    queue := s.sw.queue.map fun x => if x.id = q.id then { x with place := .prefetched } else x } }

section Prefetch

variable {s : State} {d : Nat} {q : QFrame}
  (oldest : s.sw.queue.find? (fun q => q.die == d && q.place == .deep) = some q)
include oldest

theorem spillPrefetch_waits (unready : q.rx ≠ 0 ∨ deepBwLeft s (qCells q) = false) (p : Bool) : spillPrefetch d p s = s := by
  unfold spillPrefetch
  rw [oldest]
  exact if_pos (by simpa using unready)

variable (ready : q.rx = 0) (share : deepBwLeft s (qCells q) = true)
include ready share

theorem spillPrefetch_poisoned : spillPrefetch d true s =
    bump (takeOut (deepMove s (qCells q)) q) (cLink q.outLink 15) := by
  unfold spillPrefetch
  rw [oldest]
  dsimp only
  rw [if_neg (by simp [ready, share]), if_pos rfl]

theorem spillPrefetch_full (full : poolFree s d < qCells q) : spillPrefetch d false s = s := by
  unfold spillPrefetch
  rw [oldest]
  dsimp only
  rw [if_neg (by simp [ready, share]), if_neg (by decide), if_pos full]

theorem spillPrefetch_reads (room : qCells q ≤ poolFree s d) : OnlyChanges [.sw] s (spillPrefetch d false s) ∧
    (spillPrefetch d false s).sw.queue =
      s.sw.queue.map fun x => if x.id = q.id then { x with place := .prefetched } else x := by
  have read : Fr 128 s (prefetched s q) := .put_sw _ (.step (deepMove_fr _ _) (.refl _ _))
  have whole : spillPrefetch d false s =
      if (prefetched s q).sw.queue.any fun x => x.place == .deep && voqOf x == voqOf q then prefetched s q
      else { prefetched s q with sw := { (prefetched s q).sw with
        spilling := (prefetched s q).sw.spilling.filter fun v => decide (v ≠ voqOf q) } } := by
    unfold spillPrefetch
    rw [oldest]
    dsimp only
    rw [if_neg (by simp [ready, share]), if_neg (by decide), if_neg (by omega)]
    rfl
  rw [whole]
  refine ⟨(show Fr 128 s _ from .ite read (.put_sw _ read)).onlyChanges _, ?_⟩
  split <;> rfl

end Prefetch

/-- Settles O43: an offer by where admission sends the one held frame, a prefetch by the checks of R123 to R125. -/
theorem heldFramesAdmitted : Obligations.HeldFramesAdmitted := by
  unfold Obligations.HeldFramesAdmitted
  intro s d
  refine ⟨⟨_, rfl, deepFullEnd_ends _ d⟩, fun q pre rest queue alone die landing whole others => ?_, fun p none_ => ?_,
    fun q oldest => ⟨fun unready p => ?_, fun ready share => ⟨?_, fun full => ?_, fun room => ?_⟩⟩⟩
  · have unlike (x : QFrame) (m : x ∈ pre ++ rest) : x.id ≠ q.id := (others x m).1
    have e := frameAdmitRetry_eq queue alone die landing whole fun x m => (others x m).2
    refine ⟨fun pool => ⟨_, congrArg Host.Outcome.next e, ?_, fun known => ?_⟩, fun deep => ⟨_, congrArg Host.Outcome.next e, ?_, ?_, ?_⟩,
      fun held => ⟨_, congrArg Host.Outcome.next e, ?_, ?_⟩⟩
    · rw [(deepFullEnd_queue _ d).1, offered_pool pool, admitTo_queue (by rw [(freeCredit_fr ..).sw rfl]; exact queue) unlike,
        Bool.or_false, Bool.or_false]
    · rw [link_congr ((deepFullEnd_fr _ d).lnk rfl), offered_pool pool, link_congr ((admitTo_fr _ _ _ _).lnk rfl)]
      exact freeCredit_credit s _ _ known
    · have still : (bump (freeCredit (deepMove s (qCells q)) q.inLink q.f.tc (inCells q)) (cLink q.outLink 19)).sw.queue =
          pre ++ q :: rest := (congrArg (·.queue) ((freeCredit_fr (deepMove s (qCells q)) _ _ _).sw rfl)).trans queue
      rw [(deepFullEnd_queue _ d).1, offered_deep deep, admitTo_queue still unlike, Bool.or_true, Bool.or_true]
    · unfold spilling
      rw [(deepFullEnd_queue _ d).2, offered_deep deep]
      exact admitTo_spilling _ _ _
    · rw [cntGet_congr ((deepFullEnd_fr _ d).cnt rfl), offered_deep deep, cntGet_congr ((admitTo_fr _ _ _ _).cnt rfl),
        cntGet_bump, if_pos rfl, cntGet_congr ((freeCredit_fr ..).cnt rfl)]
      rfl
    · rw [(deepFullEnd_queue _ d).1, offered_hold held]
      split
      · exact (deepFullNote_spec _ _).1
      · rfl
    · rw [(deepFullEnd_fr _ d).lnk rfl, offered_hold held]
      split
      · exact (deepFullNote_spec _ _).2
      · rfl
  · refine congrArg Host.Outcome.next ?_
    unfold spillPrefetch
    rw [none_]
  · exact congrArg Host.Outcome.next (spillPrefetch_waits oldest unready p)
  · refine ⟨_, congrArg Host.Outcome.next (spillPrefetch_poisoned oldest ready share), ?_, ?_⟩
    · exact takeOut_queue _ _
    · rw [cntGet_bump, if_pos rfl, cntGet_congr ((takeOut_fr _ _).cnt rfl)]
      rfl
  · exact congrArg Host.Outcome.next (spillPrefetch_full oldest ready share full)
  · obtain ⟨only, queue⟩ := spillPrefetch_reads oldest ready share room
    exact ⟨_, rfl, only, queue⟩

end Sys2Proof.Machine

/-! ### One cell time of the gate: R127 to R132, R141, R379 -/

namespace Sys2Proof.Machine

set_option Elab.async false

/-! #### Nothing is aged -/

theorem aged_congr {s t : State} (now : t.now = s.now) (reg : ∀ o, getR t o = getR s o) (q : QFrame) : aged t q = aged s q := by
  unfold aged due rf
  rw [now, reg]

theorem slagQueue_none {s : State} (young : ∀ q ∈ s.sw.queue, q.sentCells = 0 → aged s q = false) : slagQueue s = s := by
  have stays (l : List QFrame) (young : ∀ q ∈ l, q.sentCells = 0 → aged s q = false) (v : List (Nat × Nat × Nat × Nat)) :
      (l.foldl (fun (r : State × List (Nat × Nat × Nat × Nat)) q =>
        if r.2.contains (lineOf q) then r
        else if q.sentCells = 0 && aged r.1 q then (slagCount (takeOut r.1 q) q.outLink q.f.tc, r.2)
        else (r.1, r.2 ++ [lineOf q])) (s, v)).1 = s := by
    induction l generalizing v with
    | nil => rfl
    | cons q l ih =>
      have others := ih fun x m => young x (List.mem_cons_of_mem _ m)
      have kept : (decide (q.sentCells = 0) && aged s q) = false := by
        by_cases whole : q.sentCells = 0
        · rw [young q List.mem_cons_self whole, Bool.and_false]
        · rw [decide_eq_false whole, Bool.false_and]
      rw [List.foldl_cons]
      dsimp only
      rw [kept]
      split
      · exact others v
      · exact others _
  exact stays s.sw.queue young []

/-- A loop whose steps do nothing to a state leaves it. -/
theorem forEach_stays {α : Type} {l : List α} {s : State} {f : State → α → State} (h : ∀ a ∈ l, f s a = s) :
    forEach l s f = s := by
  induction l with
  | nil => rfl
  | cons a l ih =>
    rw [forEach_cons, h a List.mem_cons_self]
    exact ih fun b m => h b (List.mem_cons_of_mem _ m)

theorem slagHeads_none {s : State} (young : NoneAged s) : slagHeads s = s := by
  unfold slagHeads
  by_cases slags : bit (getR s oSW_CTRL) 3 = true
  · obtain ⟨queue, multicast⟩ := young slags
    rw [if_pos slags, slagQueue_none queue]
    refine forEach_stays fun m member => ?_
    unfold slagMc
    rw [multicast m member]
    rfl
  · exact if_neg slags

theorem NoneAged.congr {s t : State} (young : NoneAged s) (now : t.now = s.now) (reg : ∀ o, getR t o = getR s o)
    (queue : t.sw.queue = s.sw.queue) (mcq : t.sw.mcq = s.sw.mcq) : NoneAged t := by
  intro slags
  rw [reg] at slags
  obtain ⟨unicast, multicast⟩ := young slags
  rw [queue, mcq]
  exact ⟨fun q m whole => (aged_congr now reg q).trans (unicast q m whole), fun m member =>
    (aged_congr now reg _).trans (multicast m member)⟩

/-! #### The cell time begins -/

theorem takeSelf_none {s : State} (none_ : s.sw.selfIn = []) : takeSelf s = s := by
  unfold takeSelf
  rw [none_]
  refine (show _ = { s with sw := { s.sw with selfIn := [] } } from rfl).trans ?_
  rw [← none_]

theorem followSlots_eq (s : State) : ∃ a b c,
    followSlots s = { s with sw := { s.sw with slotNt := a, slotEnd := b, slotWait := c } } := by
  unfold followSlots
  split
  · exact ⟨_, _, _, rfl⟩
  split
  · exact ⟨_, _, _, rfl⟩
  split
  · exact ⟨_, _, _, rfl⟩
  split
  · exact ⟨_, _, _, rfl⟩
  split
  · exact ⟨_, _, _, rfl⟩
  · split <;> exact ⟨_, _, _, rfl⟩

/-- The gate's state at the start of a cell time. -/
def cellBegun (s : State) : State := beginCell (followSlots s)

/-- What a cell time finds where no slot is reserved and nothing is aged or addressed to the spine. -/
structure PlainCell (s : State) : Prop where
  resv : s.sw.resv = []
  late : s.sw.resvLate = []
  self : s.sw.selfIn = []
  young : NoneAged s

/-- The gate has kept the frames and all but the switch core: only what it keeps for itself has moved. -/
structure GateKept (s t : State) : Prop where
  frame : Fr 128 s t
  queue : t.sw.queue = s.sw.queue

theorem GateKept.refl (s : State) : GateKept s s := ⟨.refl _ _, rfl⟩

theorem GateKept.trans {s x t : State} (h : GateKept s x) (g : GateKept x t) : GateKept s t :=
  ⟨.step g.frame h.frame, g.queue.trans h.queue⟩

theorem cellBegun_kept (s : State) : GateKept s (cellBegun s) := by
  obtain ⟨a, b, c, e⟩ := followSlots_eq s
  unfold cellBegun beginCell
  rw [e]
  exact ⟨.put_sw _ (.put_sw _ (.refl _ _)), rfl⟩

theorem cellBegun_beat (s : State) : (cellBegun s).sw.beat = (s.sw.beat + 1) % 4 := by
  obtain ⟨a, b, c, e⟩ := followSlots_eq s
  unfold cellBegun beginCell
  rw [e]

/-- The gate's matching: its iterations over the requests that take part. -/
def matched (s : State) : State × List (Nat × Nat) :=
  let rs := (requests s (heads s)).filter (takesPart s)
  iteration false rs (iteration false rs (iteration true rs (s, [])))

theorem gateMatch_plain {s : State} (plain : PlainCell s) : gateMatch s =
    serveRunners (noteWaits
      (forEach (matched (cellBegun s)).2 (forEach (matched (cellBegun s)).2 (matched (cellBegun s)).1 servePair)
        fun s p => bump s (cDie (dieOfGroup p.1) 5))
      (requests (cellBegun s) (heads (cellBegun s))) (matched (cellBegun s)).2) := by
  obtain ⟨resv, late, self, young⟩ := plain
  obtain ⟨a, b, c, e⟩ := followSlots_eq s
  have still : NoneAged (followSlots s) := by
    rw [e]
    exact NoneAged.congr young rfl (fun o => rfl) rfl rfl
  have none_ : resvNow (followSlots s) = [] := by
    unfold resvNow
    rw [e]
    dsimp only
    rw [late, resv]
    split <;> rfl
  unfold gateMatch
  dsimp only
  rw [takeSelf_none self, slagHeads_none still, none_]
  rfl

/-! #### The heads and their requests -/

theorem heads_none {s : State} (empty : s.sw.queue = []) : heads s = [] := by
  unfold heads
  rw [empty]
  rfl

theorem heads_single {s : State} {q : QFrame} (queue : s.sw.queue = [q]) (unicast : isRunner q = false) :
    heads s = if eligibleHead s q then [q] else [] := by
  unfold heads
  rw [queue]
  simp [unicast]

theorem requests_single (s : State) (q : QFrame) : ∃ p, requests s [q] = [{ i := q.inGroup, o := outGroup q, p := p }] :=
  ⟨_, rfl⟩

theorem iteration_nil (first : Bool) (r : State × List (Nat × Nat)) : iteration first [] r = r := rfl

/-- A request whose pair is made asks no more. -/
theorem iteration_taken (first : Bool) (x : Req) (s : State) : iteration first [x] (s, [(x.i, x.o)]) = (s, [(x.i, x.o)]) := by
  unfold iteration
  simp

/-- The pointers of a pair after its match. -/
def pointersMoved (s : State) (i o : Nat) : State :=
  { s with sw := { s.sw with
    grantPtr := tset 0 s.sw.grantPtr o ((i + 1) % 264), acceptPtr := tset 0 s.sw.acceptPtr i ((o + 1) % 260) } }

theorem iteration_single (x : Req) (s : State) (within : d2dFull s [] x.i x.o = false) :
    iteration true [x] (s, []) = (pointersMoved s x.i x.o, [(x.i, x.o)]) := by
  unfold iteration
  simp [pickFrom, addNew, within, pointersMoved]

theorem matched_none {s : State} (idle : ((requests s (heads s)).filter (takesPart s)) = []) : matched s = (s, []) := by
  unfold matched
  rw [idle]
  rfl

theorem matched_single {s : State} {q : QFrame} (head : heads s = [q])
    (awake : idleDie s (dieOfGroup q.inGroup) = false ∧ idleDie s (dieOfGroup (outGroup q)) = false)
    (within : d2dFull s [] q.inGroup (outGroup q) = false) :
    matched s = (pointersMoved s q.inGroup (outGroup q), [(q.inGroup, outGroup q)]) := by
  obtain ⟨p, one⟩ := requests_single s q
  unfold matched
  rw [head, one, List.filter_cons_of_pos (by simp [takesPart, awake.1, awake.2]), List.filter_nil]
  dsimp only
  rw [iteration_single _ _ within, iteration_taken, iteration_taken]

theorem serveRunners_none {s : State} (none_ : s.sw.queue.filter isRunner = []) : serveRunners s = s := by
  unfold serveRunners
  rw [none_]
  rfl

theorem noteWaits_kept (s : State) (rs : List Req) (m : List (Nat × Nat)) : GateKept s (noteWaits s rs m) :=
  ⟨.put_sw _ (.refl _ _), rfl⟩

/-- A cell time in which no request takes part moves nothing. -/
theorem gateMatch_idle {s : State} (plain : PlainCell s) (unicast : s.sw.queue.filter isRunner = [])
    (idle : ((requests (cellBegun s) (heads (cellBegun s))).filter (takesPart (cellBegun s))) = []) :
    GateKept s (gateMatch s) := by
  have kept := (cellBegun_kept s).trans (noteWaits_kept (cellBegun s) (requests (cellBegun s) (heads (cellBegun s))) [])
  rw [gateMatch_plain plain, matched_none idle]
  refine (serveRunners_none ?_).symm ▸ kept
  exact (congrArg _ kept.queue).trans unicast

end Sys2Proof.Machine

/-! #### The frame that a matched pair sends: R117, R119, R127, R132 -/

namespace Sys2Proof.Machine

set_option Elab.async false

/-! ##### What a frame's cells depend on -/

theorem wireCells_congr {s t : State} (lnk : t.lnk = s.lnk) (q : QFrame) : wireCells t q = wireCells s q := by
  unfold wireCells wireFrames
  rw [link_congr lnk]

theorem GateKept.wireCells {s t : State} (h : GateKept s t) (q : QFrame) : Machine.wireCells t q = Machine.wireCells s q :=
  wireCells_congr (h.frame.lnk rfl) q

theorem GateKept.wireCount {s t : State} (h : GateKept s t) (q : QFrame) : Machine.wireCount t q = Machine.wireCount s q := by
  unfold Machine.wireCount
  rw [h.wireCells]

theorem GateKept.eligibleHead {s t : State} (h : GateKept s t) (q : QFrame) :
    Machine.eligibleHead t q = Machine.eligibleHead s q := by
  have lanes (j : Nat) : lane t j = lane s j := h.frame.lane j
  have links (l : Nat) : link t l = link s l := link_congr (h.frame.lnk rfl) l
  unfold Machine.eligibleHead bufRoom laneServes laneUp fenced cellHere creditOk laneBetween
  simp only [lanes, links, h.wireCount, h.queue, h.frame.hlt rfl]

theorem GateKept.weightOf {s t : State} (h : GateKept s t) (tc : Nat) : Machine.weightOf t tc = Machine.weightOf s tc := by
  unfold Machine.weightOf rf
  rw [h.frame.getR]

/-! ##### Deficit round robin with one frame: R132 -/

theorem drrAdvance_kept (s : State) (l i d : Nat) : GateKept s (drrAdvance s l i d) := ⟨.put_sw _ (.refl _ _), rfl⟩

/-- A class is served in its turn, with `d` left of its quantum. -/
def drrServed (s : State) (l c d : Nat) : State :=
  { s with sw := { s.sw with
    deficit := tset 0 s.sw.deficit (8 * l + c) d, drrFresh := tset false s.sw.drrFresh l true } }

theorem drrServed_kept (s : State) (l c d : Nat) : GateKept s (drrServed s l c d) := ⟨.put_sw _ (.refl _ _), rfl⟩

/-- The class at the head of a link's round. -/
def drrAt (s : State) (l : Nat) : Nat := tget 0 s.sw.drrNext l % 5

theorem drrAdvance_next (s : State) (l i d : Nat) : drrAt (drrAdvance s l i d) l = (i + 1) % 5 := by
  unfold drrAt drrAdvance
  dsimp only
  rw [tget_tset_same, Nat.mod_mod]

theorem drrAdvance_fresh (s : State) (l i d : Nat) : tget false (drrAdvance s l i d).sw.drrFresh l = false := tget_tset_same ..

section Round

variable {l : Nat} {q : QFrame}

/-- At the frame's class, a round that has not had its quantum serves it. -/
theorem drrPick_serves {s : State} (n : Nat) (turn : nth 2 drrClasses (drrAt s l) = q.f.tc)
    (fresh : tget false s.sw.drrFresh l = false) (small : wireCount s q ≤ weightOf s q.f.tc) :
    ∃ y, GateKept s y ∧ drrPick l [q] (n + 1) s = (y, some q) := by
  have covered : 256 * wireCount s q ≤ tget 0 s.sw.deficit (8 * l + q.f.tc) + 256 * weightOf s q.f.tc := by omega
  have found : ([q].find? fun x => x.f.tc == q.f.tc) = some q := List.find?_cons_of_pos (by simp)
  rw [drrPick]
  dsimp only
  rw [show tget 0 s.sw.drrNext l % 5 = drrAt s l from rfl, turn, found]
  dsimp only
  rw [fresh, if_neg (c := (false = true)) (by decide), if_pos covered]
  exact ⟨drrServed s l q.f.tc _, drrServed_kept _ _ _ _, rfl⟩

/-- Where the round is at another class, or has spent its quantum, it goes on. -/
theorem drrPick_advances {s : State} (n : Nat) : (∃ y, GateKept s y ∧ drrPick l [q] (n + 1) s = (y, some q)) ∨
    ∃ d, drrPick l [q] (n + 1) s = drrPick l [q] n (drrAdvance s l (drrAt s l) d) := by
  rw [drrPick]
  dsimp only
  rw [show tget 0 s.sw.drrNext l % 5 = drrAt s l from rfl]
  by_cases turn : q.f.tc = nth 2 drrClasses (drrAt s l)
  · rw [show ([q].find? fun x => x.f.tc == nth 2 drrClasses (drrAt s l)) = some q from
      List.find?_cons_of_pos (by simp [turn])]
    dsimp only
    by_cases covered : 256 * wireCount s q ≤ (if tget false s.sw.drrFresh l = true then
        tget 0 s.sw.deficit (8 * l + nth 2 drrClasses (drrAt s l)) else
        tget 0 s.sw.deficit (8 * l + nth 2 drrClasses (drrAt s l)) + 256 * weightOf s (nth 2 drrClasses (drrAt s l)))
    · left
      rw [if_pos covered]
      exact ⟨drrServed s l _ _, drrServed_kept _ _ _ _, rfl⟩
    · right
      rw [if_neg covered]
      exact ⟨_, rfl⟩
  · rw [show ([q].find? fun x => x.f.tc == nth 2 drrClasses (drrAt s l)) = none from by simp [turn]]
    exact .inr ⟨_, rfl⟩

/-- Once it has moved on, the round comes to the frame's class within `k` classes and serves it. -/
theorem drrPick_reaches {s : State} (i k n : Nat) (turn : nth 2 drrClasses i = q.f.tc) (low : i < 5)
    (fresh : tget false s.sw.drrFresh l = false) (small : wireCount s q ≤ weightOf s q.f.tc)
    (ahead : (drrAt s l + k) % 5 = i) : ∃ y, GateKept s y ∧ drrPick l [q] (n + k + 1) s = (y, some q) := by
  induction k generalizing s with
  | zero =>
    have at_ : drrAt s l = i := by
      have bound : drrAt s l < 5 := Nat.mod_lt _ (by decide)
      omega
    exact drrPick_serves n (by rw [at_]; exact turn) fresh small
  | succ k ih =>
    rcases drrPick_advances (q := q) (l := l) (s := s) (n + k + 1) with done | ⟨d, goes⟩
    · exact done
    · have kept := drrAdvance_kept s l (drrAt s l) d
      obtain ⟨y, later, served⟩ := ih (s := drrAdvance s l (drrAt s l) d) (drrAdvance_fresh _ _ _ _)
        (by rw [kept.wireCount, kept.weightOf]; exact small) (by rw [drrAdvance_next]; omega)
      exact ⟨y, kept.trans later, goes.trans served⟩

theorem drrPick_single {s : State} (class_ : q.f.tc ∈ drrClasses) (small : wireCount s q ≤ weightOf s q.f.tc) :
    ∃ y, GateKept s y ∧ drrPick l [q] 400 s = (y, some q) := by
  obtain ⟨i, low, turn⟩ : ∃ i, i < 5 ∧ nth 2 drrClasses i = q.f.tc := by
    simp only [drrClasses, List.mem_cons, List.not_mem_nil, or_false] at class_
    rcases class_ with e | e | e | e | e <;> rw [e]
    exacts [⟨0, by decide, rfl⟩, ⟨1, by decide, rfl⟩, ⟨2, by decide, rfl⟩, ⟨3, by decide, rfl⟩, ⟨4, by decide, rfl⟩]
  rcases drrPick_advances (q := q) (l := l) (s := s) 399 with done | ⟨d, goes⟩
  · exact done
  · have kept := drrAdvance_kept s l (drrAt s l) d
    have bound : drrAt (drrAdvance s l (drrAt s l) d) l < 5 := Nat.mod_lt _ (by decide)
    generalize place : drrAt (drrAdvance s l (drrAt s l) d) l = j at bound
    have count : 398 - (i + 5 - j) % 5 + (i + 5 - j) % 5 + 1 = 399 := by omega
    obtain ⟨y, later, served⟩ := drrPick_reaches (s := drrAdvance s l (drrAt s l) d) (l := l) (q := q) i ((i + 5 - j) % 5)
      (398 - (i + 5 - j) % 5) turn low (drrAdvance_fresh _ _ _ _) (by rw [kept.wireCount, kept.weightOf]; exact small)
      (by rw [place]; omega)
    rw [count] at served
    exact ⟨y, kept.trans later, goes.trans served⟩

end Round

theorem linkPick_single {s : State} (l : Nat) {q : QFrame} (low : 1 ≤ q.f.tc) (high : q.f.tc ≤ 7)
    (small : wireCount s q ≤ weightOf s q.f.tc) : ∃ y, GateKept s y ∧ linkPick s l [q] = (y, some q) := by
  have best : (([q].map fun x => classPrio x.f.tc).foldl min 3) = classPrio q.f.tc := by
    have le : classPrio q.f.tc ≤ 3 := by unfold classPrio; split <;> (try split) <;> decide
    exact min_eq_right le
  unfold linkPick
  dsimp only
  rw [best]
  by_cases first : classPrio q.f.tc < 2
  · rw [if_pos first, List.find?_cons_of_pos (by simp)]
    exact ⟨s, .refl s, rfl⟩
  · rw [if_neg first]
    refine drrPick_single ?_ small
    have others : q.f.tc ≠ 1 ∧ q.f.tc ≠ 6 := by
      constructor <;> intro e <;> rw [e] at first <;> exact first (by decide)
    simp only [drrClasses, List.mem_cons, List.not_mem_nil, or_false]
    omega

/-- The pair of the one frame that may be sent sends its cell. -/
theorem servePair_single {s : State} {q : QFrame} (head : heads s = [q]) (low : 1 ≤ q.f.tc) (high : q.f.tc ≤ 7)
    (small : wireCount s q ≤ weightOf s q.f.tc) :
    ∃ y, GateKept s y ∧ servePair s (q.inGroup, outGroup q) = sendCell y q := by
  unfold servePair
  rw [head]
  dsimp only
  rw [List.filter_cons_of_pos (by simp), List.filter_nil]
  by_cases begun : 0 < q.sentCells
  · rw [List.find?_cons_of_pos (by simp [begun])]
    exact ⟨s, .refl s, rfl⟩
  · have turned : GateKept s { s with sw := { s.sw with rrLink := tset 0 s.sw.rrLink (outGroup q) (q.outLink + 1) } } :=
      ⟨.put_sw _ (.refl _ _), rfl⟩
    obtain ⟨y, kept, picked⟩ := linkPick_single q.outLink low high (s := { s with sw := { s.sw with
      rrLink := tset 0 s.sw.rrLink (outGroup q) (q.outLink + 1) } }) (q := q)
      (by rw [turned.wireCount, turned.weightOf]; exact small)
    have best : (([q].map fun x => classPrio x.f.tc).foldl min 3) = classPrio q.f.tc := by
      have le : classPrio q.f.tc ≤ 3 := by unfold classPrio; split <;> (try split) <;> decide
      exact min_eq_right le
    rw [List.find?_cons_of_neg (by simp [begun]), List.find?_nil]
    dsimp only
    rw [best, List.filter_cons_of_pos (by simp), List.filter_nil]
    refine ⟨y, turned.trans kept, ?_⟩
    have alone : ([q].filter fun x => x.outLink == q.outLink) = [q] := List.filter_cons_of_pos (by simp)
    simp only [List.foldl_cons, List.foldl_nil, addNew, List.contains_nil, Bool.false_eq_true, if_false, List.nil_append, minBy,
      alone, picked]

end Sys2Proof.Machine

/-! #### A cell sent, and a cell time with one frame -/

namespace Sys2Proof.Machine

set_option Elab.async false

/-- The credit that a frame's first cell takes for all of it (R100). -/
def creditTaken (s : State) (q : QFrame) : State :=
  if q.sentCells = 0 then
    modLink s q.outLink fun k =>
      { k with sent := tset 0 k.sent q.f.tc ((tget 0 k.sent q.f.tc + wireCount s q) % 2 ^ 24) }
  else s

/-- The frame's next cell. -/
def cellOf (s : State) (q : QFrame) : BufCell :=
  { nth {} (wireCells s q) q.sentCells with owes := owedBy q q.sentCells (wireCount s q) }

/-- The cell in its lane's buffer. -/
def cellQueued (s : State) (q : QFrame) : State :=
  modLane (creditTaken s q) q.outLane fun l => { l with buf := l.buf ++ [cellOf s q] }

theorem sendCell_eq (s : State) (q : QFrame) : sendCell s q =
    if q.sentCells + 1 ≥ wireCount s q then takeOut (cellQueued s q) { q with sentCells := inCells q }
    else { cellQueued s q with sw := { (cellQueued s q).sw with
      queue := (cellQueued s q).sw.queue.map fun x => if x.id = q.id then { x with sentCells := x.sentCells + 1 } else x } } := rfl

theorem creditTaken_fr (s : State) (q : QFrame) : Fr 64 s (creditTaken s q) := .ite (modLink_fr _ _ _) (.refl _ _)

theorem cellQueued_fr (s : State) (q : QFrame) : Fr 64 s (cellQueued s q) := .step (modLane_fr _ _ _) (creditTaken_fr s q)

theorem creditTaken_lane (s : State) (q : QFrame) (j : Nat) : lane (creditTaken s q) j = lane s j := by
  unfold creditTaken
  split <;> rfl

theorem cellQueued_link (s : State) (q : QFrame) (l : Nat) : link (cellQueued s q) l = link (creditTaken s q) l := rfl

theorem creditTaken_sent {s : State} {q : QFrame} (first : q.sentCells = 0) :
    tget 0 (link (creditTaken s q) q.outLink).sent q.f.tc =
      (tget 0 (link s q.outLink).sent q.f.tc + wireCount s q) % 2 ^ 24 := by
  unfold creditTaken
  rw [if_pos first, link_modLink, tget_tset_same]

theorem modLink_sent (s : State) (j : Nat) (f : Link → Link) (hf : ∀ k, (f k).sent = k.sent) (l : Nat) :
    (link (modLink s j f) l).sent = (link s l).sent := by
  by_cases here : l = j
  · subst here
    rw [link_modLink, hf]
  · exact congrArg Link.sent (tget_tset_other _ _ _ _ _ _ here)

theorem liftFrame_sent (s : State) (q : QFrame) (l : Nat) : (link (liftFrame s q) l).sent = (link s l).sent := by
  have kept (y : State) (h : Fr 128 s y) : (link (noteQ y q.outLink) l).sent = (link s l).sent :=
    (modLink_sent _ _ _ (by intro k; rfl) l).trans (congrArg Link.sent (link_congr (h.lnk rfl) l))
  unfold liftFrame
  dsimp only
  refine kept _ (.ite (.step (deepFullEnd_fr _ _) ?_) ?_)
  all_goals exact .ite (.put_sw _ (.put_sw _ (.refl _ _))) (.put_sw _ (.refl _ _))

/-- A frame that leaves the riser gives none of its link's credit back. -/
theorem takeOut_sent (s : State) (q : QFrame) (l : Nat) : (link (takeOut s q) l).sent = (link s l).sent := by
  unfold takeOut freePlace
  split
  · unfold freeCredit
    split
    · exact liftFrame_sent _ _ _
    · exact (modLink_sent _ _ _ (by intro k; rfl) l).trans (liftFrame_sent _ _ _)
  · exact liftFrame_sent _ _ _
  · exact liftFrame_sent _ _ _

theorem sendCell_spec {s : State} {q : QFrame} (queue : s.sw.queue = [q]) :
    (lane (sendCell s q) q.outLane).buf = (lane s q.outLane).buf ++ [cellOf s q] ∧
    (sendCell s q).sw.queue = (if q.sentCells + 1 < wireCount s q then [{ q with sentCells := q.sentCells + 1 }] else []) ∧
    (q.sentCells = 0 → tget 0 (link (sendCell s q) q.outLink).sent q.f.tc =
      (tget 0 (link s q.outLink).sent q.f.tc + wireCount s q) % 2 ^ 24) := by
  have held : (cellQueued s q).sw.queue = [q] := (congrArg (·.queue) ((cellQueued_fr s q).sw rfl)).trans queue
  have buffer : (lane (cellQueued s q) q.outLane).buf = (lane s q.outLane).buf ++ [cellOf s q] := by
    unfold cellQueued
    rw [lane_modLane, creditTaken_lane]
  rw [sendCell_eq]
  by_cases last : q.sentCells + 1 ≥ wireCount s q
  · rw [if_pos last, if_neg (by omega)]
    refine ⟨?_, ?_, fun first => ?_⟩
    · rw [(takeOut_kl _ _).lanes q.outLane]
      exact buffer
    · rw [takeOut_queue, held]
      simp
    · rw [takeOut_sent, cellQueued_link, creditTaken_sent first]
  · rw [if_neg last, if_pos (by omega)]
    refine ⟨buffer, ?_, fun first => ?_⟩
    · dsimp only
      rw [held]
      simp
    · exact creditTaken_sent first

/-! #### One frame, or none -/

/-- The one frame waiting in the riser, with nothing else for the cell time to do. -/
structure LoneFrame (s : State) (q : QFrame) : Prop where
  queue : s.sw.queue = [q]
  plain : PlainCell s
  unicast : isRunner q = false

theorem LoneFrame.begun {s : State} {q : QFrame} (h : LoneFrame s q) : (cellBegun s).sw.queue = [q] :=
  (cellBegun_kept s).queue.trans h.queue

/-- The frame that a cell time's head may send. -/
theorem gateMatch_sends {s : State} {q : QFrame} (lone : LoneFrame s q) (able : eligibleHead s q = true)
    (awake : s.hlt.throttled = [] ∨ (s.sw.beat + 1) % 4 ≠ 0) (low : 1 ≤ q.f.tc) (high : q.f.tc ≤ 7)
    (near : dieOfGroup q.inGroup = dieOfGroup (outGroup q) ∨ 1 ≤ rf s oGATE_CFG 36 32)
    (small : wireCount s q ≤ weightOf s q.f.tc) : ∃ y rs, GateKept s y ∧
      gateMatch s = noteWaits (bump (sendCell y q) (cDie (dieOfGroup q.inGroup) 5)) rs [(q.inGroup, outGroup q)] := by
  have kept := cellBegun_kept s
  have head : heads (cellBegun s) = [q] := by
    rw [heads_single lone.begun lone.unicast, kept.eligibleHead, able, if_pos rfl]
  have awake' (d : Nat) : idleDie (cellBegun s) d = false := by
    unfold idleDie
    rw [kept.frame.hlt rfl, cellBegun_beat]
    rcases awake with none_ | odd
    · rw [none_]
      rfl
    · rw [beq_eq_false_iff_ne.2 odd, Bool.and_false]
  have within : d2dFull (cellBegun s) [] q.inGroup (outGroup q) = false := by
    unfold d2dFull rf
    rw [kept.frame.getR]
    rcases near with same | most
    · simp [same]
    · unfold rf at most
      rw [show d2d [] (dieOfGroup q.inGroup) (dieOfGroup (outGroup q)) = 0 from rfl,
        decide_eq_false (p := fld (getR s oGATE_CFG) 36 32 ≤ 0) (by omega), Bool.and_false]
  have moved : GateKept (cellBegun s) (pointersMoved (cellBegun s) q.inGroup (outGroup q)) :=
    ⟨.put_sw _ (.refl _ _), rfl⟩
  have head' : heads (pointersMoved (cellBegun s) q.inGroup (outGroup q)) = [q] := by
    rw [heads_single (moved.queue.trans lone.begun) lone.unicast, moved.eligibleHead, kept.eligibleHead, able, if_pos rfl]
  obtain ⟨y, later, sends⟩ := servePair_single head' low high
    (by rw [moved.wireCount, kept.wireCount, moved.weightOf, kept.weightOf]; exact small)
  have all := (kept.trans moved).trans later
  refine ⟨y, requests (cellBegun s) (heads (cellBegun s)), all, ?_⟩
  rw [gateMatch_plain lone.plain, matched_single head ⟨awake' _, awake' _⟩ within]
  dsimp only
  rw [forEach_cons, forEach_cons, sends]
  refine serveRunners_none ?_
  have left := (sendCell_spec (all.queue.trans lone.queue)).2.1
  refine (congrArg (List.filter isRunner) left).trans ?_
  split
  · exact List.filter_eq_nil_iff.2 fun x m => by
      rw [List.mem_singleton.1 m]
      exact (by simpa [isRunner] using lone.unicast)
  · rfl

/-- A throttled die's part stands still: the frame asks for nothing. -/
theorem gateMatch_still {s : State} {q : QFrame} (lone : LoneFrame s q) (fourth : (s.sw.beat + 1) % 4 = 0)
    (throttled : s.hlt.throttled.contains (dieOfGroup q.inGroup) = true ∨
      s.hlt.throttled.contains (dieOfGroup (outGroup q)) = true) : GateKept s (gateMatch s) := by
  have kept := cellBegun_kept s
  refine gateMatch_idle lone.plain ?_ ?_
  · rw [lone.queue, List.filter_cons_of_neg (by simp [lone.unicast]), List.filter_nil]
  · have idle (d : Nat) (h : s.hlt.throttled.contains d = true) : idleDie (cellBegun s) d = true := by
      unfold idleDie
      rw [kept.frame.hlt rfl, cellBegun_beat, h, fourth]
      rfl
    rw [heads_single lone.begun lone.unicast]
    split
    · obtain ⟨p, one⟩ := requests_single (cellBegun s) q
      rw [one, List.filter_cons_of_neg, List.filter_nil]
      unfold takesPart
      rcases throttled with h | h
      · rw [idle _ h]
        simp
      · rw [idle _ h]
        simp
    · rfl

theorem gateMatch_empty {s : State} (empty : s.sw.queue = []) (plain : PlainCell s) : GateKept s (gateMatch s) := by
  refine gateMatch_idle plain (by rw [empty]; rfl) ?_
  rw [heads_none ((cellBegun_kept s).queue.trans empty)]
  rfl

end Sys2Proof.Machine

/-! #### A multicast frame copied to a runner: R122, R139 -/

namespace Sys2Proof.Machine

set_option Elab.async false

theorem mcHeads_single {s : State} {d : Nat} {m : McFrame} (alone : s.sw.mcq.filter (fun m => m.q.die == d) = [m]) :
    mcHeads s d = [m] := by
  unfold mcHeads
  rw [alone]
  rfl

/-- A multicast frame of one member link, which takes its copy on die `e`. -/
structure LoneMember (s : State) (m : McFrame) (l e : Nat) : Prop where
  members : m.members = [l]
  leaf : l < 2048
  die : e = l / 512
  away : l ≠ m.q.inLink
  open_ : eligible s l = true
  fits : copyFits s m.q l = true

/-- The die whose runner takes the copy now, if it can. -/
def takers (s : State) (m : McFrame) (e : Nat) : List Nat :=
  let others := [e].filter fun x => x != m.q.die && runnerRoom s m x false
  others ++ [e].filter fun x => x == m.q.die && runnerRoom s m x (others.length + 1 == 1)

section Member

variable {s : State} {m : McFrame} {l e : Nat} (one : LoneMember s m l e)
include one

theorem LoneMember.wants : copyLinks s m = [l] := by
  unfold copyLinks
  have flat : isLateral l = false := by
    unfold isLateral
    exact decide_eq_false (by have h := one.leaf; omega)
  rw [one.members, List.filter_cons_of_pos (by simp [one.away, one.open_, flat]), List.filter_nil]

theorem LoneMember.copyDie : Machine.copyDie s m.q l = e := by
  unfold Machine.copyDie
  rw [if_pos one.leaf, one.die]

theorem LoneMember.dies : ((List.range 4).filter fun x => [l].any fun l => Machine.copyDie s m.q l == x) = [e] := by
  have low : e < 4 := by
    have leaf := one.leaf
    have die := one.die
    omega
  simp only [List.any_cons, List.any_nil, Bool.or_false, one.copyDie]
  clear one
  interval_cases e <;> rfl

theorem replicate_single : replicate s m =
    (takers s m e).foldl (fun t x => storeCopy m ([l].filter fun l => Machine.copyDie s m.q l == x) t x)
      (mcKeep s m ([l].filter fun l => !(takers s m e).contains (Machine.copyDie s m.q l))) := by
  have fit : [l].filter (copyFits s m.q) = [l] := by rw [List.filter_cons_of_pos (by simp [one.fits]), List.filter_nil]
  have lost : (m.members.filter fun l => l != m.q.inLink && !(isLateral m.q.inLink && isLateral l) && !eligible s l) = [] := by
    rw [one.members, List.filter_cons_of_neg (by simp [one.open_]), List.filter_nil]
  have refused : ([l].filter fun x => !([l].contains x)) = [] := by
    rw [List.filter_cons_of_neg (by simp), List.filter_nil]
  unfold replicate
  dsimp only
  rw [one.wants, fit, lost, refused, one.dies]
  rfl

theorem takers_full (full : rf s oRISER_CFG 39 32 * poolCells s e < (runnerUsed s e + qCells m.q) * 256) : takers s m e = [] := by
  have closed (last : Bool) : runnerRoom s m e last = false := by
    unfold runnerRoom
    dsimp only
    rw [decide_eq_false (by omega), Bool.false_and]
  unfold takers
  dsimp only
  rw [List.filter_cons_of_neg (by simp [closed]), List.filter_nil, List.filter_cons_of_neg (by simp [closed]), List.filter_nil]
  rfl

theorem takers_room (limit : (runnerUsed s e + qCells m.q) * 256 ≤ rf s oRISER_CFG 39 32 * poolCells s e)
    (room : qCells m.q ≤ poolFree s e ∨ (e = m.q.die ∧ inPool m.q = true)) : takers s m e = [e] := by
  unfold takers
  dsimp only
  by_cases own : e = m.q.die
  · have taken : runnerRoom s m e true = true := by
      unfold runnerRoom
      rcases room with free | ⟨-, pooled⟩
      · simp [limit, free]
      · simp [limit, own.symm, pooled]
    rw [List.filter_cons_of_neg (by simp [own]), List.filter_nil, List.filter_cons_of_pos, List.filter_nil]
    · rfl
    · rw [beq_iff_eq.2 own]
      exact taken
  · have free : qCells m.q ≤ poolFree s e := room.resolve_right fun h => own h.1
    have taken : runnerRoom s m e false = true := by
      unfold runnerRoom
      simp [limit, free]
    rw [List.filter_cons_of_pos (by simp [own, taken]), List.filter_nil, List.filter_cons_of_neg (by simp [own]),
      List.filter_nil]
    rfl

/-- Where the runner is at its limit the frame goes on waiting. -/
theorem replicate_waits (unique : ∀ x ∈ s.sw.mcq, x.q.id = m.q.id → x = m)
    (full : rf s oRISER_CFG 39 32 * poolCells s e < (runnerUsed s e + qCells m.q) * 256) : replicate s m = s := by
  have same : (s.sw.mcq.map fun x => if x.q.id = m.q.id then { x with members := [l] } else x) = s.sw.mcq := by
    refine (List.map_congr_left fun x member => ?_).trans (List.map_id _)
    split
    · next is =>
      rw [unique x member is, ← one.members]
      rfl
    · rfl
  rw [replicate_single one, takers_full one full, List.filter_cons_of_pos (by simp), List.filter_nil]
  unfold mcKeep
  rw [if_neg (by simp), same]
  rfl

end Member

/-- The frame has left its multicast queue. -/
def mcLeft (s : State) (m : McFrame) : State :=
  let y := if m.q.place = .landing then freeCredit s m.q.inLink m.q.f.tc (inCells m.q) else s
  { y with sw := { y.sw with mcq := y.sw.mcq.filter fun x => decide (x.q.id ≠ m.q.id) } }

theorem mcLeft_sw (s : State) (m : McFrame) :
    (mcLeft s m).sw = { s.sw with mcq := s.sw.mcq.filter fun x => decide (x.q.id ≠ m.q.id) } := by
  have same : (if m.q.place = .landing then freeCredit s m.q.inLink m.q.f.tc (inCells m.q) else s).sw = s.sw := by
    split
    · exact (freeCredit_fr ..).sw rfl
    · rfl
  unfold mcLeft
  dsimp only
  rw [same]

/-- The cells of one copy are stored on a die. -/
def copyStored (s : State) (m : McFrame) (e : Nat) : State :=
  { s with sw := { s.sw with
    nextId := s.sw.nextId + 1
    runner := s.sw.runner ++ [{ id := s.sw.nextId, die := e, cells := qCells m.q, tc := m.q.f.tc, refs := 1 }] } }

theorem storeCopy_single (m : McFrame) (l e : Nat) (s : State) : storeCopy m [l] s e =
    placeCopy { m with q := { m.q with group := some (m.q.f.dest % 2 ^ 16) } } s.sw.nextId (copyStored s m e) l := rfl

/-- A copy waits in its link's queue, referring to the stored cells. -/
theorem placeCopy_spec (m : McFrame) (sid : Nat) (s : State) {l : Nat} (leaf : l < 2048) : ∃ x,
    (placeCopy m sid s l).sw.queue = s.sw.queue ++ [x] ∧ (placeCopy m sid s l).sw.mcq = s.sw.mcq ∧
    (placeCopy m sid s l).sw.runner = s.sw.runner ∧ x.outLink = l ∧ x.die = l / 512 ∧ x.place = .runner sid ∧
    x.f.dest = m.q.f.dest ∧ x.f.payload = m.q.f.payload := by
  have marked (f : Frame) : (markCm s l f).1.sw = s.sw := (markCm_fr s l f).sw rfl
  have noted (y : State) : (noteQ y l).sw = y.sw := (noteQ_fr y l).sw rfl
  have flat (y : State) (q : QFrame) : copyDie y q l = l / 512 := if_pos leaf
  unfold placeCopy pushFrame freshId
  dsimp only
  rw [noted]
  dsimp only
  rw [marked]
  refine ⟨_, rfl, rfl, rfl, rfl, flat _ _, rfl, ?_, ?_⟩
  all_goals
    dsimp only
    split <;> rfl

/-- Where the runner has room the copy is stored and queued, and the frame is gone. -/
theorem replicate_copies {s : State} {m : McFrame} {l e : Nat} (one : LoneMember s m l e)
    (limit : (runnerUsed s e + qCells m.q) * 256 ≤ rf s oRISER_CFG 39 32 * poolCells s e)
    (room : qCells m.q ≤ poolFree s e ∨ (e = m.q.die ∧ inPool m.q = true)) :
    ∃ x, (replicate s m).sw.mcq = s.sw.mcq.filter (fun x => decide (x.q.id ≠ m.q.id)) ∧
      (replicate s m).sw.queue = s.sw.queue ++ [x] ∧ x.outLink = l ∧ x.die = e ∧ x.place = .runner s.sw.nextId ∧
      x.f.dest = m.q.f.dest ∧ x.f.payload = m.q.f.payload ∧ (replicate s m).sw.runner = s.sw.runner ++
        [{ id := s.sw.nextId, die := e, cells := qCells m.q, tc := m.q.f.tc, refs := 1 }] := by
  have kept : mcKeep s m [] = mcLeft s m := rfl
  have mine : ([l].filter fun l => copyDie s m.q l == e) = [l] := by
    rw [List.filter_cons_of_pos (by simp [one.copyDie]), List.filter_nil]
  have whole : replicate s m = placeCopy { m with q := { m.q with group := some (m.q.f.dest % 2 ^ 16) } }
      (mcLeft s m).sw.nextId (copyStored (mcLeft s m) m e) l := by
    rw [replicate_single one, takers_room one limit room, List.filter_cons_of_neg (by simp [one.copyDie]), List.filter_nil, kept,
      List.foldl_cons, List.foldl_nil, mine, storeCopy_single]
  obtain ⟨x, queue, mcq, runner, link_, die, place, dest, payload⟩ := placeCopy_spec
    { m with q := { m.q with group := some (m.q.f.dest % 2 ^ 16) } } (mcLeft s m).sw.nextId (copyStored (mcLeft s m) m e)
    one.leaf
  rw [whole]
  rw [mcLeft_sw] at place
  refine ⟨x, mcq.trans ?_, queue.trans ?_, link_, die.trans one.die.symm, place, dest, payload, runner.trans ?_⟩
  all_goals
    unfold copyStored
    dsimp only
    rw [mcLeft_sw]

theorem runnerReplicate_single {s : State} {d : Nat} {m : McFrame} (young : NoneAged s)
    (alone : s.sw.mcq.filter (fun m => m.q.die == d) = [m]) : runnerReplicate d s = replicate s m := by
  unfold runnerReplicate
  dsimp only
  rw [slagHeads_none young, mcHeads_single alone]
  rfl

/-- Settles O44: the sent cell by `gateMatch_sends` and `sendCell_spec`, the idle cell times by `gateMatch_idle`, the copy by
whether the runner has room. -/
theorem gateAndRunnersMoveCells : Obligations.GateAndRunnersMoveCells := by
  unfold Obligations.GateAndRunnersMoveCells
  intro s
  refine ⟨fun q queue resv late self young awake able unicast low high near small => ?_,
    fun q queue resv late self young unicast fourth throttled => ?_, fun queue resv late self young => ?_,
    fun d m l e alone unique young members leaf die away open_ fits => ⟨fun full => ?_, fun limit room => ?_⟩⟩
  · have lone : LoneFrame s q := ⟨queue, ⟨resv, late, self, young⟩, unicast⟩
    obtain ⟨y, rs, kept, sends⟩ := gateMatch_sends lone able awake low high near small
    obtain ⟨buffer, left, sent⟩ := sendCell_spec (kept.queue.trans queue)
    have count : cntGet (sendCell y q) (cDie (dieOfGroup q.inGroup) 5) = cntGet s (cDie (dieOfGroup q.inGroup) 5) :=
      (cntGet_congr ((sendCell_fr y q).cnt rfl) _).trans (cntGet_congr (kept.frame.cnt rfl) _)
    have cell : cellOf y q = cellOf s q := by
      unfold cellOf
      rw [kept.wireCells, kept.wireCount]
    refine ⟨_, congrArg Host.Outcome.next sends, ?_, ?_, ?_, fun first => ?_⟩
    · rw [(noteWaits_kept _ _ _).frame.lane]
      refine buffer.trans ?_
      rw [kept.frame.lane, cell]
      rfl
    · rw [cntGet_congr ((noteWaits_kept _ _ _).frame.cnt rfl), cntGet_bump, if_pos rfl, count]
    · rw [(noteWaits_kept _ _ _).queue]
      refine left.trans ?_
      rw [kept.wireCount]
    · rw [link_congr ((noteWaits_kept _ _ _).frame.lnk rfl)]
      refine (sent first).trans ?_
      rw [link_congr (kept.frame.lnk rfl), kept.wireCount]
  · have kept := gateMatch_still ⟨queue, ⟨resv, late, self, young⟩, unicast⟩ fourth throttled
    exact ⟨_, rfl, kept.frame.onlyChanges _, kept.queue.trans queue⟩
  · have kept := gateMatch_empty queue ⟨resv, late, self, young⟩
    exact ⟨_, rfl, kept.frame.onlyChanges _, kept.queue.trans queue⟩
  · refine congrArg Host.Outcome.next ?_
    rw [runnerReplicate_single young alone]
    exact replicate_waits ⟨members, leaf, die, away, open_, fits⟩ unique full
  · have own : m.q.die = d := by
      have member : m ∈ s.sw.mcq.filter (fun m => m.q.die == d) := by rw [alone]; exact List.mem_singleton_self m
      simpa using (List.mem_filter.1 member).2
    obtain ⟨x, mcq, queue, out, at_, place, dest, payload, runner⟩ := replicate_copies
      ⟨members, leaf, die, away, open_, fits⟩ limit (by rw [own]; exact room)
    exact ⟨_, x, congrArg Host.Outcome.next (runnerReplicate_single young alone), mcq, queue, out, at_, place, dest, payload, runner⟩

end Sys2Proof.Machine

/-! ### O45: slag, saturation and moves -/

namespace Sys2Proof.Machine

set_option Elab.async false

/-! #### Slag: R141, R142 -/

theorem cLink_range {l n : Nat} (hl : l < 2050) (hn : n < 32) : cLink l n < 0x34000 ∧ 0x400 ≤ cLink l n := by
  unfold cLink
  omega

/-- A frame in slag is counted on its link, and as SLAG. -/
theorem slagCount_cnt (s : State) {l tc : Nat} (hl : l < 2050) (htc : tc < 8) :
    cntGet (slagCount s l tc) (cLink l (24 + tc)) = (cntGet s (cLink l (24 + tc)) + 1) % 2 ^ 64 ∧
    cntGet (slagCount s l tc) 0x302 = (cntGet s 0x302 + 1) % 2 ^ 64 := by
  obtain ⟨high, low⟩ := cLink_range hl (n := 24 + tc) (by omega)
  have own : cntGet (bump s (cLink l (24 + tc))) (cLink l (24 + tc)) = (cntGet s (cLink l (24 + tc)) + 1) % 2 ^ 64 := by
    rw [cntGet_bump, if_pos rfl]
  have other : cntGet (bump s (cLink l (24 + tc))) 0x302 = cntGet s 0x302 := by
    rw [cntGet_bump, if_neg (by omega)]
  unfold slagCount
  dsimp only
  split
  · refine ⟨?_, ?_⟩
    · refine (cntGet_bump _ _ _).trans ((if_neg (by omega)).trans ?_)
      exact own
    · refine (cntGet_bump _ _ _).trans ((if_pos rfl).trans ?_)
      rw [← other]
      rfl
  · refine ⟨?_, ?_⟩
    · rw [raiseEvent_cnt _ _ _ _ _ _ high, if_neg (by omega)]
      exact own
    · rw [raiseEvent_cnt _ _ _ _ _ _ (by decide), if_pos rfl, ← other]
      rfl

theorem oldestBorn_single {s : State} {q : QFrame} (queue : s.sw.queue = [q]) (multicast : s.sw.mcq = []) (whole : q.sentCells = 0) :
    oldestBorn s = some q.born := by
  unfold oldestBorn
  rw [queue, multicast, List.filter_cons_of_pos (by simp [whole]), List.filter_nil]
  rfl

theorem slagQueue_single {s : State} {q : QFrame} (queue : s.sw.queue = [q]) (old : aged s q = true) (whole : q.sentCells = 0) :
    slagQueue s = slagCount (takeOut s q) q.outLink q.f.tc := by
  unfold slagQueue
  rw [queue]
  simp [whole, old]

/-- The one frame that waits comes to AGE_LIMIT and goes to slag. -/
theorem slagSweep_single {s : State} {q : QFrame} (slags : bit (getR s oSW_CTRL) 3 = true) (queue : s.sw.queue = [q])
    (multicast : s.sw.mcq = []) (whole : q.sentCells = 0) : slagSweep s =
    slagCount (takeOut (await s q.born (rf s oAGE_CFG 16 0 * usT)) q) q.outLink q.f.tc := by
  have due_ : aged (await s q.born (rf s oAGE_CFG 16 0 * usT)) q = true := decide_eq_true (le_max_right _ _)
  unfold slagSweep
  rw [if_pos slags, oldestBorn_single queue multicast whole, awaitOpt_some]
  unfold slagHeads
  rw [show getR (await s q.born (rf s oAGE_CFG 16 0 * usT)) oSW_CTRL = getR s oSW_CTRL from rfl, if_pos slags,
    show (await s q.born (rf s oAGE_CFG 16 0 * usT)).sw.mcq = [] from multicast,
    slagQueue_single (s := await s q.born (rf s oAGE_CFG 16 0 * usT)) queue due_ whole]
  rfl

/-! #### Saturation: R145 -/

theorem satHoldExpiry_eq {s : State} {l a : Nat} (quiet : (link s l).sat = false) (since : (link s l).highSince = some a)
    (high : 4 * (rf s oCM_CFG 15 0 * 1024) < linkQ s l) : satHoldExpiry l s =
    raiseEvent (modLink (await s a (rf s oSAT_CFG 13 0 * usT)) l fun k => { k with sat := true }) 0x301 (partLink l) l
      (linkQ (await s a (rf s oSAT_CFG 13 0 * usT)) l / 1024) := by
  unfold satHoldExpiry
  dsimp only
  rw [if_pos (by simp [quiet, since, high]), since]
  rfl

theorem satRearmExpiry_eq {s : State} {l a : Nat} (sat : (link s l).sat = true) (since : (link s l).lowSince = some a)
    (low : linkQ s l < rf s oCM_CFG 15 0 * 1024) : satRearmExpiry l s =
    modLink (await s a (rf s oSAT_CFG 13 0 * usT)) l fun k => { k with sat := false } := by
  unfold satRearmExpiry
  dsimp only
  rw [if_pos (by simp [sat, since, low]), since]
  rfl

/-! #### Frames that cannot stay: R147 -/

theorem moveQueued_none {s : State} {l : Nat}
    (stay : ∀ x ∈ s.sw.queue, x.outLink = l → x.sentCells = 0 → laneUp s x.outLane = true ∧ fenced s l = false) :
    moveQueued s l = s := by
  have none_ : (s.sw.queue.filter fun q => q.outLink == l && q.sentCells == 0 && (!laneUp s q.outLane || fenced s l)) = [] := by
    refine List.filter_eq_nil_iff.2 fun x member stuck => ?_
    simp only [Bool.and_eq_true, beq_iff_eq, Bool.or_eq_true, Bool.not_eq_true'] at stuck
    obtain ⟨⟨out, whole⟩, down | shut⟩ := stuck
    · exact absurd (down.symm.trans (stay x member out whole).1) (by decide)
    · exact absurd (shut.symm.trans (stay x member out whole).2) (by decide)
  unfold moveQueued
  dsimp only
  rw [none_]
  rfl

theorem moveQueued_single {s : State} {q : QFrame} (queue : s.sw.queue = [q]) (whole : q.sentCells = 0)
    (stuck : laneUp s q.outLane = false ∨ fenced s q.outLink = true) : moveQueued s q.outLink = moveFrame s q := by
  unfold moveQueued
  dsimp only
  rw [queue, List.filter_cons_of_pos (by rcases stuck with h | h <;> simp [whole, h]), List.filter_nil]
  rfl

theorem mcCopyLost_spec (s : State) (g : Nat) {l : Nat} (hl : l < 2050) : (mcCopyLost s g l).sw = s.sw ∧
    cntGet (mcCopyLost s g l) (cLink l 14) = (cntGet s (cLink l 14) + 1) % 2 ^ 64 := by
  obtain ⟨high, low⟩ := cLink_range hl (n := 14) (by decide)
  have own : cntGet (bump s (cLink l 14)) (cLink l 14) = (cntGet s (cLink l 14) + 1) % 2 ^ 64 := by
    rw [cntGet_bump, if_pos rfl]
  refine ⟨(mcCopyLost_fr _ _ _).sw rfl, ?_⟩
  unfold mcCopyLost
  dsimp only
  split
  · exact own
  split
  · exact (cntGet_bump _ _ _).trans ((if_neg (by omega)).trans own)
  · rw [raiseEvent_cnt _ _ _ _ _ _ high, if_neg (by omega)]
    exact own

/-- Settles O45: the sweep of the one frame, the two timers of saturation, a frame that stays, takes another lane or is lost. -/
theorem slagSaturationAndMoves : Obligations.SlagSaturationAndMoves := by
  unfold Obligations.SlagSaturationAndMoves
  intro s
  refine ⟨fun off => ?_, fun q slags queue multicast whole hl htc => ?_, fun l a quiet since high => ?_, fun l a sat since low => ?_,
    fun l stay => congrArg Host.Outcome.next (moveQueued_none stay), fun q queue whole stuck => ⟨fun open_ => ?_,
      fun g shut group hl => ?_⟩⟩
  · exact congrArg Host.Outcome.next (if_neg (by simp [off]))
  · obtain ⟨own, slag⟩ := slagCount_cnt (takeOut (await s q.born (rf s oAGE_CFG 16 0 * usT)) q) hl htc
    have out := takeOut_fr (await s q.born (rf s oAGE_CFG 16 0 * usT)) q
    have counted := slagCount_fr (takeOut (await s q.born (rf s oAGE_CFG 16 0 * usT)) q) q.outLink q.f.tc
    refine ⟨_, congrArg Host.Outcome.next (slagSweep_single slags queue multicast whole), ?_, ?_, ?_, ?_⟩
    · exact (counted.now rfl).trans (out.now rfl)
    · rw [counted.sw rfl, takeOut_queue, await_sw, queue]
      simp
    · rw [own, cntGet_congr (out.cnt rfl)]
      rfl
    · rw [slag, cntGet_congr (out.cnt rfl)]
      rfl
  · refine ⟨_, congrArg Host.Outcome.next (satHoldExpiry_eq quiet since high), ?_, ?_, ?_, ?_⟩
    · exact (raiseEvent_fr _ _ _ _ _).now rfl
    · rw [link_congr (raiseEvent_lnk ..), link_modLink]
    · rw [raiseEvent_cnt _ _ _ _ _ _ (by decide), if_pos rfl]
      rfl
    · rw [raiseEvent_sw]
      rfl
  · refine ⟨_, congrArg Host.Outcome.next (satRearmExpiry_eq sat since low), rfl, ?_, ?_⟩
    · rw [link_modLink]
      rfl
    · exact (Fr.step (n := 131136) (modLink_fr _ _ _) (.step (await_fr _ _ _) (.refl _ _))).onlyChanges _
  · have e := (moveQueued_single queue whole stuck).trans (if_pos open_)
    refine ⟨_, congrArg Host.Outcome.next e, ?_, ?_⟩
    · exact (show Fr 128 s _ from .put_sw _ (.refl _ _)).onlyChanges _
    · unfold reLane
      dsimp only
      rw [queue]
      simp
  · have e : moveQueued s q.outLink = mcCopyLost (takeOut s q) g q.outLink := by
      rw [moveQueued_single queue whole stuck]
      unfold moveFrame
      rw [if_neg (by simp [shut]), group]
    obtain ⟨sw, counted⟩ := mcCopyLost_spec (takeOut s q) g hl
    refine ⟨_, congrArg Host.Outcome.next e, ?_, ?_⟩
    · rw [sw, takeOut_queue, queue]
      simp
    · rw [counted, cntGet_congr ((takeOut_fr _ _).cnt rfl)]

end Sys2Proof.Machine

/-! ### What an invocation's end leaves of rings and registers: R256, R273 to R279 -/

namespace Sys2Proof.Machine

set_option Elab.async false

theorem collFrame_alike (s : State) (c die : Nat) (mc : Bool) (dest chunk : Nat) (ce : Bool) (f : Frame) :
    ComplAlike s (collFrame s c die mc dest chunk ce f).1 := by
  unfold collFrame
  split
  · exact .of (bump_fr _ _)
  · exact (ComplAlike.of (setCtx_fr _ _ _)).trans (originate_alike _ _ _)

theorem noteSuspects_alike (s : State) (c slow : Nat) : ComplAlike s (noteSuspects s c slow) := by
  unfold noteSuspects
  exact (ComplAlike.of (setCtx_fr _ _ _)).trans (.forEach _ _ _ fun _ _ => raiseEvent_alike _ _ _ _ _)

theorem noteArrivals_alike (s : State) (c : Nat) : ComplAlike s (noteArrivals s c) := by
  unfold noteArrivals
  dsimp only
  split
  · exact .refl s
  · exact .ite ((ComplAlike.of (setCtx_fr _ _ _)).trans (noteSuspects_alike _ _ _)) (.of (setCtx_fr _ _ _))

theorem endInvocation_alike (s : State) (c : Nat) (early : Option (Nat × Nat × Nat)) : ComplAlike s (endInvocation s c early) := by
  unfold endInvocation
  dsimp only
  refine ComplAlike.trans ?_ ((noteArrivals_alike _ c).trans (.of (modCtx_fr _ _ _)))
  split
  · exact collFrame_alike _ _ _ _ _ _ _ _
  · exact .ite (collFrame_alike _ _ _ _ _ _ _ _) (.refl s)

theorem cutRun_alike (s : State) (c status lastRun eid : Nat) : ComplAlike s (cutRun s c status lastRun eid) := by
  unfold cutRun
  exact (((ComplAlike.of (stopSeqs_fr s c)).trans (.of (missedMembers_fr _ _ _))).trans (endInvocation_alike _ _ _)).trans
    (.of (modPlan_fr _ _ _))

theorem abandonRun_alike (s : State) (c status eid : Nat) : ComplAlike s (abandonRun s c status eid) := by
  unfold abandonRun
  exact .ite ((cutRun_alike _ _ _ _ _).trans (.of (modPlan_fr _ _ _))) (.refl s)

/-! #### The plans while a run is cut short -/

theorem stopSeqs_plans (s : State) (c : Nat) : (stopSeqs s c).plan.plans = s.plan.plans := by
  unfold stopSeqs
  refine forEach_keeps (fun y : State => y.plan.plans) _ ?_ _ _
  exact fun _ _ => rfl

theorem planOf_congr {s t : State} (h : t.plan.plans = s.plan.plans) (c : Nat) : planOf t c = planOf s c := by
  unfold planOf
  rw [h]

/-- A run that is cut short ends in its plan, whose image stays. -/
theorem cutRun_plan (s : State) (c status lastRun eid : Nat) :
    planOf (cutRun s c status lastRun eid) c = { planOf s c with running := false, lastRun := lastRun } := by
  unfold cutRun
  rw [planOf_modPlan, (endInvocation_fr _ _ _).planOf, (missedMembers_fr _ _ _).planOf, planOf_congr (stopSeqs_plans s c)]

/-- A plan whose run has been abandoned: nothing runs, the image and what waits for its end stay. -/
theorem abandonRun_plan (s : State) (c status eid : Nat) : (planOf (abandonRun s c status eid) c).running = false ∧
    (planOf (abandonRun s c status eid) c).claims = (planOf s c).claims := by
  unfold abandonRun
  split
  · rw [planOf_modPlan, cutRun_plan]
    exact ⟨rfl, rfl⟩
  · next idle => exact ⟨by simpa using idle, rfl⟩

end Sys2Proof.Machine

/-! ### O46: plans loaded, armed and unloaded -/

namespace Sys2Proof.Machine

set_option Elab.async false

/-! #### Slots: R214, R241, R244 -/

theorem cruSlot_setCruSlot_same (s : State) (g : Nat) (v : Slot) : cruSlot (setCruSlot s g v) g = v := tget_tset_same ..

theorem cruSlot_setCruSlot_other (s : State) {g h : Nat} (v : Slot) (other : h ≠ g) :
    cruSlot (setCruSlot s g v) h = cruSlot s h := tget_tset_other _ _ _ _ _ _ other

theorem cruSlot_congr {s t : State} (h : t.cru = s.cru) (g : Nat) : cruSlot t g = cruSlot s g := by
  unfold cruSlot
  rw [h]

/-- Slots written one after the other: each of the list holds what was written to it. -/
theorem forEach_setCruSlot {l : List Nat} {f : State → Nat → Slot} (P : Slot → Prop) (own : ∀ s g, P (f s g)) (s : State) :
    (∀ g ∈ l, P (cruSlot (forEach l s fun s g => setCruSlot s g (f s g)) g)) ∧
    (∀ g, g ∉ l → cruSlot (forEach l s fun s g => setCruSlot s g (f s g)) g = cruSlot s g) := by
  refine ⟨?_, fun g absent => ?_⟩
  · refine forEach_reaches (fun g y => P (cruSlot y g)) _ (fun y g => ?_) (fun y g h kept => ?_) l s
    · rw [cruSlot_setCruSlot_same]
      exact own y g
    · by_cases here : h = g
      · rw [here, cruSlot_setCruSlot_same]
        exact own y g
      · rw [cruSlot_setCruSlot_other _ _ here]
        exact kept
  · induction l generalizing s with
    | nil => rfl
    | cons a l ih =>
      rw [List.mem_cons, not_or] at absent
      rw [forEach_cons, ih _ absent.2, cruSlot_setCruSlot_other _ _ absent.1]

theorem slotScrubDone_spec {s : State} {cru slot : Nat} (scrubs : (cruSlot s (512 * cru + slot)).use = 3) :
    (slotScrubDone cru slot s).now = max s.now ((cruSlot s (512 * cru + slot)).since + 128 * coreT s (cru / 16)) ∧
    cruSlot (slotScrubDone cru slot s) (512 * cru + slot) =
      { cruSlot s (512 * cru + slot) with use := 0, owner := 0, since := 0 } ∧
    ∀ g, g ≠ 512 * cru + slot → cruSlot (slotScrubDone cru slot s) g = cruSlot s g := by
  unfold slotScrubDone
  dsimp only
  rw [if_pos scrubs]
  exact ⟨rfl, cruSlot_setCruSlot_same _ _ _, fun g other => cruSlot_setCruSlot_other _ _ other⟩

/-! #### What a plan-load descriptor finds: R243, R244 -/

theorem popDesc_eq (s : State) (k : RingKind) (i : Nat) (d : List Word) :
    ∃ h, popDesc s k i d = { s with hif := h } := ⟨_, rfl⟩

theorem pFirst_popDesc (s : State) (k : RingKind) (j : Nat) (e : List Word) (i : Nat) (d : List Word) :
    pFirst (popDesc s k j e) i d = pFirst s i d := by
  obtain ⟨h, eq⟩ := popDesc_eq s k j e
  rw [eq]
  rfl

theorem armStatus_popDesc (s : State) (k : RingKind) (j : Nat) (e : List Word) (p : Plan) (d : List Word) :
    armStatus (popDesc s k j e) p d = armStatus s p d := by
  obtain ⟨h, eq⟩ := popDesc_eq s k j e
  rw [eq]
  rfl

theorem refusal_popDesc (s : State) (k : RingKind) (j : Nat) (e : List Word) (c : Nat) (m : Image) :
    refusal (popDesc s k j e) c m = refusal s c m := by
  obtain ⟨h, eq⟩ := popDesc_eq s k j e
  rw [eq]
  rfl

theorem planOf_popDesc (s : State) (k : RingKind) (j : Nat) (e : List Word) (c : Nat) :
    planOf (popDesc s k j e) c = planOf s c := (popDesc_fr s k j e).planOf c

/-! #### Completions of a ring's one descriptor -/

/-- The state after a descriptor that completes at once. -/
def completedAt (x : State) (i key st detail : Nat) : State :=
  sweepBad (complete x .pload i key st detail 0) .pload i

theorem completedAt_fr (x : State) (i key st detail : Nat) : Fr 81924 x (completedAt x i key st detail) :=
  .step (sweepBad_fr _ _ _) (complete_fr _ _ _ _ _ _ _)

section Load

variable {s : State} {i : Nat} {d : List Word} (ready : DescReady s .pload i d 1)
include ready

theorem planLoad_badOp (bad : resOk pMasks d = false) :
    planLoad i s = completedAt (popDesc s .pload i d) i (runKey s .pload i d) stBAD_OP 0 := by
  refine ready.run (opPlanLoad i) ?_
  unfold opPlanLoad
  dsimp only
  rw [if_pos (by simp [bad])]

variable (formed : resOk pMasks d = true)
include formed

theorem planLoad_badRange (odd : d1Addr d % 64 ≠ 0) :
    planLoad i s = completedAt (popDesc s .pload i d) i (runKey s .pload i d) stBAD_RANGE 0 := by
  refine ready.run (opPlanLoad i) ?_
  unfold opPlanLoad
  dsimp only
  rw [if_neg (by simp [formed]), if_pos (by exact odd)]

variable (aligned : d1Addr d % 64 = 0) (own : pFirst s i d = none)
include aligned own

theorem planLoad_busy (held : (planOf s (pdCtx d)).state ≠ 0) :
    planLoad i s = completedAt (popDesc s .pload i d) i (runKey s .pload i d) stPLAN_BUSY 0 := by
  refine ready.run (opPlanLoad i) ?_
  unfold opPlanLoad
  dsimp only
  rw [if_neg (by simp [formed]), if_neg (by simpa [d1Addr] using aligned), pFirst_popDesc, own]
  dsimp only
  rw [planOf_popDesc, if_pos held]

/-- The image has been read: it is judged. -/
theorem planLoad_reads {b : List Byte} (free : (planOf s (pdCtx d)).state = 0)
    (gave : HostGave s .pload i (d1Addr d) (fld (nth 0 d 2) 31 0) b) :
    planLoad i s = sweepBad (loadImage (popDesc s .pload i d) i (runKey s .pload i d) (pdCtx d) b) .pload i := by
  have given : hostIn (popDesc s .pload i d) .pload i (d1Addr d) (fld (nth 0 d 2) 31 0) (ring s .pload i).staged =
      some (b, none) := ((popDesc_queues s .pload i d).hostIn ..).trans gave.hostIn
  refine ready.run (opPlanLoad i) ?_
  unfold opPlanLoad
  dsimp only
  rw [if_neg (by simp [formed]), if_neg (by simpa [d1Addr] using aligned), pFirst_popDesc, own]
  dsimp only
  rw [planOf_popDesc, if_neg (by simp [free]), show (nth 0 d 1).toNat = d1Addr d from rfl, given]

end Load

theorem loadImage_popDesc_open (s : State) (i : Nat) (d : List Word) (c : Nat) :
    (ctxUp (ctxOf (popDesc s .pload i d) c) && (window (popDesc s .pload i d) (ctxPart (ctxOf (popDesc s .pload i d) c))).isOpen) =
    (ctxUp (ctxOf s c) && (window s (ctxPart (ctxOf s c))).isOpen) := rfl

/-- The image's answer, where no recast window of its partition is open. -/
theorem loadImage_judged {s : State} {i key c : Nat} {b : List Byte}
    (shut : (ctxUp (ctxOf s c) && (window s (ctxPart (ctxOf s c))).isOpen) = false) :
    (parseImage b = none → loadImage s i key c b = complete s .pload i key stADMIT_REFUSED (admitDetail (1, noClaim, 0, 0)) 0) ∧
    (∀ m r, parseImage b = some m → refusal s c m = some r → loadImage s i key c b =
      complete s .pload i key (if r.1 = 4 then stUNIT_ABSENT else stADMIT_REFUSED) (admitDetail r) 0) ∧
    (∀ m, parseImage b = some m → refusal s c m = none →
      loadImage s i key c b = complete (admitPlan s c i m) .pload i key stOK 0 0) := by
  unfold loadImage
  dsimp only
  rw [shut, if_neg (by decide)]
  refine ⟨fun bad => ?_, fun m r read refused => ?_, fun m read passes => ?_⟩
  · rw [bad]
    rfl
  · rw [read]
    dsimp only
    rw [refused]
  · rw [read]
    dsimp only
    rw [passes]

/-! #### Admission: R241 -/

/-- The plan and its words are in plan memory. -/
def planStored (s : State) (c ring : Nat) (m : Image) : State :=
  let mem := (imWords m).foldl (fun t w => tset 0 t (65536 * w.1 + w.2.1) w.2.2) s.plan.memory
  setPlan { s with plan := { s.plan with memory := mem } } c
    { imPlan m ring with sprueFailed := (planOf s c).sprueFailed }

/-- Its slots are in use. -/
def slotsClaimed (s : State) (c : Nat) (l : List Nat) : State :=
  forEach l s fun s g => setCruSlot s g { cruSlot s g with use := 1, owner := c, since := s.now }

/-- Its reservations of the gate stand. -/
def gateClaimed (s : State) (c : Nat) (m : Image) : State :=
  { s with sw := { s.sw with resv := s.sw.resv ++ m.claims.flatMap (gateResv c) } }

/-- Its circuits are claimed. -/
def spruesClaimed (s : State) (c : Nat) (m : Image) : State :=
  forEach (m.claims.filter fun c => claimKind c == clSPRUE) s fun s x =>
    let (n, i, e) := sprueClaim x c
    if (sprue s n i).state = 0 then setSprue s n i e else s

theorem admitPlan_eq (s : State) (c ring : Nat) (m : Image) : admitPlan s c ring m =
    rehash (spruesClaimed (gateClaimed (slotsClaimed (planStored s c ring m) c (allSlots (imPlan m ring))) c m) c m) c := rfl

theorem planStored_fr (s : State) (c ring : Nat) (m : Image) : Fr 1024 s (planStored s c ring m) :=
  .step (setPlan_fr _ _ _) (.put_plan _ (.refl _ _))

theorem slotsClaimed_fr (s : State) (c : Nat) (l : List Nat) : Fr 512 s (slotsClaimed s c l) :=
  Fr.forEach (m := 512) l _ (fun _ _ => setCruSlot_fr _ _ _) (.refl _ _)

theorem gateClaimed_fr (s : State) (c : Nat) (m : Image) : Fr 128 s (gateClaimed s c m) := .put_sw _ (.refl _ _)

theorem spruesClaimed_fr (s : State) (c : Nat) (m : Image) : Fr 32 s (spruesClaimed s c m) :=
  Fr.forEach (m := 32) _ _ (fun _ _ => .ite (setSprue_fr _ _ _ _) (.refl _ _)) (.refl _ _)

theorem admitPlan_spec (s : State) (c ring : Nat) (m : Image) :
    planOf (admitPlan s c ring m) c = { imPlan m ring with sprueFailed := (planOf s c).sprueFailed } ∧
    (∀ g, g ∈ allSlots (imPlan m ring) → (cruSlot (admitPlan s c ring m) g).use = 1 ∧
      (cruSlot (admitPlan s c ring m) g).owner = c) ∧
    (∀ g, g ∉ allSlots (imPlan m ring) → cruSlot (admitPlan s c ring m) g = cruSlot s g) ∧
    (admitPlan s c ring m).sw.resv = s.sw.resv ++ m.claims.flatMap (gateResv c) := by
  have stored := planStored_fr s c ring m
  have slots := slotsClaimed_fr (planStored s c ring m) c (allSlots (imPlan m ring))
  generalize hy : slotsClaimed (planStored s c ring m) c (allSlots (imPlan m ring)) = y at slots
  have sprues := spruesClaimed_fr (gateClaimed y c m) c m
  have hashed := rehash_fr (spruesClaimed (gateClaimed y c m) c m) c
  have cru : (admitPlan s c ring m).cru = y.cru := by
    rw [admitPlan_eq, hy, hashed.cru rfl, sprues.cru rfl, (gateClaimed_fr y c m).cru rfl]
  have claimed := forEach_setCruSlot (l := allSlots (imPlan m ring))
    (f := fun s g => { cruSlot s g with use := 1, owner := c, since := s.now }) (fun v => v.use = 1 ∧ v.owner = c)
    (fun _ _ => ⟨rfl, rfl⟩) (planStored s c ring m)
  rw [show (forEach (allSlots (imPlan m ring)) (planStored s c ring m) fun s g =>
    setCruSlot s g { cruSlot s g with use := 1, owner := c, since := s.now }) = y from hy] at claimed
  refine ⟨?_, fun g member => ?_, fun g absent => ?_, ?_⟩
  · rw [admitPlan_eq, hy, hashed.planOf, sprues.planOf, (gateClaimed_fr y c m).planOf, slots.planOf]
    exact tget_tset_same ..
  · rw [cruSlot_congr cru]
    exact claimed.1 g member
  · rw [cruSlot_congr cru, claimed.2 g absent, cruSlot_congr (stored.cru rfl)]
  · rw [admitPlan_eq, hy, hashed.sw rfl, sprues.sw rfl]
    unfold gateClaimed
    dsimp only
    rw [slots.sw rfl, stored.sw rfl]

theorem admitPlan_alike (s : State) (c ring : Nat) (m : Image) : ComplAlike s (admitPlan s c ring m) := .of (admitPlan_fr s c ring m)

end Sys2Proof.Machine

/-! #### PLAN_ARM, PLAN_DISARM and PLAN_UNLOAD: R244 -/

namespace Sys2Proof.Machine

set_option Elab.async false

/-- A plan armed by a descriptor. -/
def armedPlan (p : Plan) (d : List Word) : Plan :=
  { p with
    state := 3, base := (nth 0 d 3).toNat, period := fld (nth 0 d 4) 31 0, runs := fld (nth 0 d 5) 63 32, runNo := 0,
    sprueActed := [], disarming := none }

section Desc

variable {s : State} {i : Nat} {d : List Word}

theorem planArm_eq (ready : DescReady s .pload i d 3) : planArm i s =
    completedAt (if (pFirst s i d).getD (armStatus s (planOf s (pdCtx d)) d) = stOK then
        setPlan (popDesc s .pload i d) (pdCtx d) (armedPlan (planOf s (pdCtx d)) d)
      else popDesc s .pload i d) i (runKey s .pload i d)
      ((pFirst s i d).getD (armStatus s (planOf s (pdCtx d)) d)) 0 := by
  refine ready.run (opPlanArm i) ?_
  unfold opPlanArm
  dsimp only
  rw [pFirst_popDesc, planOf_popDesc, armStatus_popDesc]
  rfl

theorem planDisarm_first {st : Nat} (ready : DescReady s .pload i d 4) (first : pFirst s i d = some st) :
    planDisarm i s = completedAt (popDesc s .pload i d) i (runKey s .pload i d) st 0 := by
  refine ready.run (opPlanDisarm i) ?_
  unfold opPlanDisarm
  dsimp only
  rw [pFirst_popDesc, first]

theorem planDisarm_none (ready : DescReady s .pload i d 4) (own : pFirst s i d = none)
    (empty : (planOf s (pdCtx d)).state = 0) :
    planDisarm i s = completedAt (popDesc s .pload i d) i (runKey s .pload i d) stNO_PLAN 0 := by
  refine ready.run (opPlanDisarm i) ?_
  unfold opPlanDisarm
  dsimp only
  rw [pFirst_popDesc, own]
  dsimp only
  rw [planOf_popDesc, if_pos empty]

theorem planDisarm_idle (ready : DescReady s .pload i d 4) (own : pFirst s i d = none)
    (held : (planOf s (pdCtx d)).state ≠ 0) (idle : (planOf s (pdCtx d)).running = false) : planDisarm i s =
    completedAt (if (planOf s (pdCtx d)).state = 3 then
        setPlan (popDesc s .pload i d) (pdCtx d) { planOf s (pdCtx d) with state := 2 }
      else popDesc s .pload i d) i (runKey s .pload i d) stOK 0 := by
  refine ready.run (opPlanDisarm i) ?_
  unfold opPlanDisarm
  dsimp only
  rw [pFirst_popDesc, own]
  dsimp only
  rw [planOf_popDesc, if_neg held, idle, if_neg (by decide)]

theorem planDisarm_runs (ready : DescReady s .pload i d 4) (own : pFirst s i d = none)
    (held : (planOf s (pdCtx d)).state ≠ 0) (runs : (planOf s (pdCtx d)).running = true) : planDisarm i s =
    sweepBad (setPlan (popDesc s .pload i d) (pdCtx d)
      { planOf s (pdCtx d) with disarming := some (i, runKey s .pload i d) }) .pload i := by
  refine ready.run (opPlanDisarm i) ?_
  unfold opPlanDisarm
  dsimp only
  rw [pFirst_popDesc, own]
  dsimp only
  rw [planOf_popDesc, if_neg held, if_pos runs]

theorem planUnload_first {st : Nat} (ready : DescReady s .pload i d 2) (first : pFirst s i d = some st) :
    planUnload i s = completedAt (popDesc s .pload i d) i (runKey s .pload i d) st 0 := by
  refine ready.run (opPlanUnload i) ?_
  unfold opPlanUnload
  dsimp only
  rw [pFirst_popDesc, first]

theorem planUnload_none (ready : DescReady s .pload i d 2) (own : pFirst s i d = none)
    (empty : (planOf s (pdCtx d)).state = 0) :
    planUnload i s = completedAt (popDesc s .pload i d) i (runKey s .pload i d) stNO_PLAN 0 := by
  refine ready.run (opPlanUnload i) ?_
  unfold opPlanUnload
  dsimp only
  rw [pFirst_popDesc, own]
  dsimp only
  rw [planOf_popDesc, if_pos empty]

theorem planUnload_starts (ready : DescReady s .pload i d 2) (own : pFirst s i d = none)
    (held : (planOf s (pdCtx d)).state ≠ 0) : planUnload i s =
    sweepBad (startUnload (popDesc s .pload i d) i (runKey s .pload i d) (pdCtx d)) .pload i := by
  refine ready.run (opPlanUnload i) ?_
  unfold opPlanUnload
  dsimp only
  rw [pFirst_popDesc, own]
  dsimp only
  rw [planOf_popDesc, if_neg held]

end Desc

/-! ##### The unload that has started -/

/-- The circuits of a plan that is unloaded go. -/
def spruesFreed (s : State) (c : Nat) : State :=
  forEach ((planOf s c).claims.filter fun x => claimKind x == clSPRUE) s fun s x =>
    let (n, k, _) := sprueClaim x c
    if (sprue s n k).ctx ≠ c then s
    else if (sprue s n k).state = 1 then setSprue s n k {} else releaseSprue s n k

/-- The plan is UNLOADING. -/
def unloading (s : State) (i key c : Nat) : State :=
  modPlan (spruesFreed (abandonRun s c csABANDONED 0) c) c fun p => { p with state := 6, unloading := some (i, key) }

theorem startUnload_eq (s : State) (i key c : Nat) : startUnload s i key c =
    releaseSlots (unloading s i key c) (allSlots (planOf (abandonRun s c csABANDONED 0) c)) := rfl

theorem spruesFreed_fr (s : State) (c : Nat) : Fr 32 s (spruesFreed s c) :=
  Fr.forEach (m := 32) _ _ (fun _ _ => .ite (.refl _ _) (.ite (setSprue_fr _ _ _ _) (releaseSprue_fr _ _ _))) (.refl _ _)

theorem releaseSlots_use (s : State) (l : List Nat) : ∀ g ∈ l, (cruSlot (releaseSlots s l) g).use = 3 := by
  have scrubs := (forEach_setCruSlot (l := l) (f := fun s g => { cruSlot s g with
    use := 3, since := s.now, retired := (cruSlot s g).retired || (cruSlot s g).ue }) (fun v => v.use = 3) (fun _ _ => rfl) s).1
  intro g member
  unfold releaseSlots
  rw [cruSlot_congr (noteHealth_cru _)]
  exact scrubs g member

theorem startUnload_alike (s : State) (i key c : Nat) : ComplAlike s (startUnload s i key c) := by
  have slots (y : State) (l : List Nat) : ComplAlike y (releaseSlots y l) :=
    (ComplAlike.forEach l y releaseSlot fun _ _ => .of (releaseSlot_fr _ _)).trans (noteHealth_alike _)
  rw [startUnload_eq]
  exact (((abandonRun_alike s c _ _).trans (.of (spruesFreed_fr _ c))).trans (.of (modPlan_fr _ _ _))).trans (slots _ _)

theorem startUnload_spec (s : State) (i key c : Nat) : (planOf (startUnload s i key c) c).state = 6 ∧
    (planOf (startUnload s i key c) c).running = false ∧ (planOf (startUnload s i key c) c).unloading = some (i, key) ∧
    ∀ g, g ∈ allSlots (planOf s c) → (cruSlot (startUnload s i key c) g).use = 3 := by
  obtain ⟨idle, claims⟩ := abandonRun_plan s c csABANDONED 0
  have plan : planOf (startUnload s i key c) c =
      { planOf (abandonRun s c csABANDONED 0) c with state := 6, unloading := some (i, key) } := by
    rw [startUnload_eq, (releaseSlots_fr _ _).planOf]
    unfold unloading
    rw [planOf_modPlan, (spruesFreed_fr _ _).planOf]
  rw [plan]
  refine ⟨rfl, idle, rfl, fun g member => ?_⟩
  rw [startUnload_eq]
  refine releaseSlots_use _ _ g ?_
  have same : allSlots (planOf (abandonRun s c csABANDONED 0) c) = allSlots (planOf s c) := by
    unfold allSlots planSlots
    rw [claims]
  rw [same]
  exact member

/-! ##### What waits for a run or a scrub to end -/

theorem planDisarmDone_eq {s : State} {c j key : Nat} (asked : (planOf s c).disarming = some (j, key))
    (idle : (planOf s c).running = false) :
    planDisarmDone c s = completedAt (setPlan s c { planOf s c with disarming := none }) j key stOK 0 := by
  unfold planDisarmDone
  dsimp only
  rw [asked]
  dsimp only
  rw [idle, if_neg (by decide)]
  rfl

/-- The plan is gone with its reservations. -/
def planGone (s : State) (c : Nat) : State :=
  rehash (setPlan { s with sw := { s.sw with
    resv := s.sw.resv.filter fun v => decide (v.ctx ≠ c)
    resvLate := s.sw.resvLate.filter fun v => decide (v.ctx ≠ c) } } c { sprueFailed := (planOf s c).sprueFailed }) c

theorem planUnloadDone_eq {s : State} {c j key : Nat} (unloads : (planOf s c).state = 6)
    (asked : (planOf s c).unloading = some (j, key)) (scrubbed : ∀ g, g ∈ allSlots (planOf s c) → (cruSlot s g).use ≠ 3) :
    planUnloadDone c s = completedAt (planGone s c) j key stOK 0 := by
  unfold planUnloadDone
  dsimp only
  rw [if_pos ⟨unloads, List.all_eq_true.2 fun g m => bne_iff_ne.2 (scrubbed g m)⟩, asked]
  rfl

theorem planGone_fr (s : State) (c : Nat) : Fr 3200 s (planGone s c) :=
  .step (rehash_fr _ _) (.step (setPlan_fr _ _ _) (.put_sw _ (.refl _ _)))

theorem planGone_plan (s : State) (c : Nat) : planOf (planGone s c) c = { sprueFailed := (planOf s c).sprueFailed } := by
  unfold planGone
  rw [(rehash_fr _ _).planOf]
  exact tget_tset_same ..

theorem planGone_resv (s : State) (c : Nat) : (planGone s c).sw.resv = s.sw.resv.filter (fun v => decide (v.ctx ≠ c)) := by
  unfold planGone
  rw [(rehash_fr _ _).sw rfl, (setPlan_fr _ _ _).sw rfl]

/-- A completion of a ring with nothing fetched is written as it stands. -/
theorem completedAt_written {s x : State} {j key : Nat} (may : MayComplete s .pload j key) (a : ComplAlike s x)
    (empty : (ring s .pload j).fetched = []) (st detail : Nat) :
    EntryWritten s (completedAt x j key st detail) .pload j key st detail 0 := by
  have still : (ring (complete x .pload j key st detail 0) .pload j).fetched = [] := by
    rw [(complete_written (may.alike a) st detail 0).2, a.rings .pload j (not_eventKey (Producer.ne_eq may.2.1)
      (lt_of_lt_of_le may.1 (ringCount_le _))), empty]
  unfold completedAt
  rw [sweepBad_of_empty still]
  exact may.written a st detail 0

/-- A descriptor that only completes writes no plan, no reservation, no slot and no circuit. -/
theorem popped_completedAt_fr (s : State) (i : Nat) (d : List Word) (key st detail : Nat) :
    Fr 81924 s (completedAt (popDesc s .pload i d) i key st detail) :=
  .step (completedAt_fr _ _ _ _ _) ((popDesc_fr s .pload i d).mono (by decide))

/-- What a started arm, disarm or unload changes of a plan, its completion leaves. -/
theorem completedAt_planOf (x : State) (i key st detail c : Nat) : planOf (completedAt x i key st detail) c = planOf x c :=
  (completedAt_fr x i key st detail).planOf c

/-- What PLAN_LOAD answers for an image that was read, where no recast window of its partition is open. -/
theorem planLoad_judges {s : State} {i : Nat} {d : List Word} {b : List Byte} (ready : DescReady s .pload i d 1)
    (formed : resOk pMasks d = true) (aligned : d1Addr d % 64 = 0) (own : pFirst s i d = none)
    (free : (planOf s (pdCtx d)).state = 0) (gave : HostGave s .pload i (d1Addr d) (fld (nth 0 d 2) 31 0) b)
    (shut : (ctxUp (ctxOf s (pdCtx d)) && (window s (ctxPart (ctxOf s (pdCtx d)))).isOpen) = false) :
    (parseImage b = none → planLoad i s = completedAt (popDesc s .pload i d) i (runKey s .pload i d) stADMIT_REFUSED
      (admitDetail (1, noClaim, 0, 0))) ∧
    (∀ m r, parseImage b = some m → refusal s (pdCtx d) m = some r → planLoad i s =
      completedAt (popDesc s .pload i d) i (runKey s .pload i d) (if r.1 = 4 then stUNIT_ABSENT else stADMIT_REFUSED)
        (admitDetail r)) ∧
    (∀ m, parseImage b = some m → refusal s (pdCtx d) m = none → planLoad i s =
      completedAt (admitPlan (popDesc s .pload i d) (pdCtx d) i m) i (runKey s .pload i d) stOK 0) := by
  obtain ⟨unread, refused, passes⟩ := loadImage_judged (i := i) (key := runKey s .pload i d) (b := b)
    ((loadImage_popDesc_open s i d (pdCtx d)).trans shut)
  rw [planLoad_reads ready formed aligned own free gave]
  refine ⟨fun bad => ?_, fun m r read why => ?_, fun m read fine => ?_⟩
  · rw [unread bad]
    rfl
  · rw [refused m r read ((refusal_popDesc ..).trans why)]
    rfl
  · rw [passes m read ((refusal_popDesc ..).trans fine)]
    rfl

/-- A recast window of the image's partition stands in the way. -/
theorem planLoad_recast {s : State} {i : Nat} {d : List Word} {b : List Byte} (ready : DescReady s .pload i d 1)
    (formed : resOk pMasks d = true) (aligned : d1Addr d % 64 = 0) (own : pFirst s i d = none)
    (free : (planOf s (pdCtx d)).state = 0) (gave : HostGave s .pload i (d1Addr d) (fld (nth 0 d 2) 31 0) b)
    (recast : (ctxUp (ctxOf s (pdCtx d)) && (window s (ctxPart (ctxOf s (pdCtx d)))).isOpen) = true) :
    planLoad i s = completedAt (popDesc s .pload i d) i (runKey s .pload i d) stPARTITION_RECAST 0 := by
  rw [planLoad_reads ready formed aligned own free gave]
  unfold loadImage
  dsimp only
  rw [if_pos (by rw [loadImage_popDesc_open, recast])]
  rfl

/-- Settles O46: the scrub by its slot, a load by the checks of R239 and R243 in their order, an arm, disarm and unload by the
status that R244 names. -/
theorem plansLoadedArmedUnloaded : Obligations.PlansLoadedArmedUnloaded := by
  unfold Obligations.PlansLoadedArmedUnloaded
  intro s i d
  refine ⟨fun cru slot scrubs => ?_, fun cru slot other => congrArg Host.Outcome.next (if_neg other), fun ready bad => ?_,
    fun ready formed odd => ?_, fun b ready formed aligned own => ⟨fun held => ?_, fun free gave => ⟨fun up window_ => ?_,
      fun shut => ⟨fun unread => ?_, fun m r read refused => ?_, fun m read passes => ?_⟩⟩⟩, fun ready => ?_, fun ready => ⟨fun st first => ?_,
      fun own => ⟨fun empty => ?_, fun held idle => ?_, fun held runs => ?_⟩⟩, fun c j key asked idle may empty => ?_,
    fun ready => ⟨fun st first => ?_, fun own empty => ?_, fun own held => ?_⟩, fun c j key unloads asked scrubbed may empty => ?_⟩
  · obtain ⟨now, slot_, others⟩ := slotScrubDone_spec scrubs
    exact ⟨_, rfl, now, slot_, others, (slotScrubDone_fr _ _ _).onlyChanges _⟩
  · exact ⟨_, congrArg Host.Outcome.next (planLoad_badOp ready bad), ready.completed (.refl _) _ _ _, (completedAt_fr _ _ _ _ _).plan rfl⟩
  · exact ⟨_, congrArg Host.Outcome.next (planLoad_badRange ready formed odd), ready.completed (.refl _) _ _ _,
      (completedAt_fr _ _ _ _ _).plan rfl⟩
  · exact ⟨_, congrArg Host.Outcome.next (planLoad_busy ready formed aligned own held), ready.completed (.refl _) _ _ _,
      (completedAt_fr _ _ _ _ _).plan rfl⟩
  · exact ⟨_, congrArg Host.Outcome.next (planLoad_recast ready formed aligned own free gave (by rw [up, window_]; rfl)),
      ready.completed (.refl _) _ _ _, (popped_completedAt_fr ..).plan rfl⟩
  · exact ⟨_, congrArg Host.Outcome.next ((planLoad_judges ready formed aligned own free gave (Bool.and_eq_false_iff.2 shut)).1 unread),
      ready.completed (.refl _) _ _ _, (popped_completedAt_fr ..).plan rfl⟩
  · have fr := popped_completedAt_fr s i d (runKey s .pload i d) (if r.1 = 4 then stUNIT_ABSENT else stADMIT_REFUSED)
      (admitDetail r)
    exact ⟨_, congrArg Host.Outcome.next ((planLoad_judges ready formed aligned own free gave (Bool.and_eq_false_iff.2 shut)).2.1 m r read
      refused), ready.completed (.refl _) _ _ _, fr.plan rfl, fr.sw rfl, fr.cru rfl, fr.opt rfl⟩
  · obtain ⟨plan, slots, others, resv⟩ := admitPlan_spec (popDesc s .pload i d) (pdCtx d) i m
    have fr := completedAt_fr (admitPlan (popDesc s .pload i d) (pdCtx d) i m) i (runKey s .pload i d) stOK 0
    refine ⟨_, congrArg Host.Outcome.next ((planLoad_judges ready formed aligned own free gave (Bool.and_eq_false_iff.2 shut)).2.2 m read
      passes), ready.completed (admitPlan_alike _ _ _ _) _ _ _, ?_, fun g member => ?_, fun g absent => ?_, ?_⟩
    · rw [completedAt_planOf, plan, planOf_popDesc]
    · rw [cruSlot_congr (fr.cru rfl)]
      exact slots g member
    · rw [cruSlot_congr (fr.cru rfl), others g absent]
      rfl
    · rw [fr.sw rfl, resv]
      rfl
  · refine ⟨_, congrArg Host.Outcome.next (planArm_eq ready), ready.completed ?_ _ _ _, fun refused => ?_, fun fine => ?_⟩
    · exact .ite (.of (setPlan_fr _ _ _)) (.refl _)
    · rw [if_neg refused]
      exact (popped_completedAt_fr ..).plan rfl
    · rw [if_pos fine, completedAt_planOf, planOf_setPlan]
      rfl
  · exact ⟨_, congrArg Host.Outcome.next (planDisarm_first ready first), ready.completed (.refl _) _ _ _,
      (popped_completedAt_fr ..).plan rfl⟩
  · exact ⟨_, congrArg Host.Outcome.next (planDisarm_none ready own empty), ready.completed (.refl _) _ _ _,
      (popped_completedAt_fr ..).plan rfl⟩
  · refine ⟨_, congrArg Host.Outcome.next (planDisarm_idle ready own held idle), ready.completed ?_ _ _ _, ?_⟩
    · exact .ite (.of (setPlan_fr _ _ _)) (.refl _)
    · rw [completedAt_planOf]
      by_cases armed : (planOf s (pdCtx d)).state = 3
      · rw [if_pos armed, planOf_setPlan, if_pos armed]
      · rw [if_neg armed, planOf_popDesc, if_neg armed]
  · refine ⟨_, congrArg Host.Outcome.next (planDisarm_runs ready own held runs), ready.started (.of (setPlan_fr _ _ _)), ?_⟩
    rw [(sweepBad_fr _ _ _).planOf, planOf_setPlan]
  · refine ⟨_, congrArg Host.Outcome.next (planDisarmDone_eq asked idle), ?_,
      completedAt_written may (.of (setPlan_fr _ _ _)) empty _ _⟩
    rw [completedAt_planOf, planOf_setPlan]
  · exact ⟨_, congrArg Host.Outcome.next (planUnload_first ready first), ready.completed (.refl _) _ _ _,
      (popped_completedAt_fr ..).plan rfl⟩
  · exact ⟨_, congrArg Host.Outcome.next (planUnload_none ready own empty), ready.completed (.refl _) _ _ _,
      (popped_completedAt_fr ..).plan rfl⟩
  · obtain ⟨state, idle, asked, slots⟩ := startUnload_spec (popDesc s .pload i d) i (runKey s .pload i d) (pdCtx d)
    have swept := sweepBad_fr (startUnload (popDesc s .pload i d) i (runKey s .pload i d) (pdCtx d)) .pload i
    refine ⟨_, congrArg Host.Outcome.next (planUnload_starts ready own held), ready.started (startUnload_alike _ _ _ _), ?_, ?_, ?_,
      fun g member => ?_⟩
    · rw [swept.planOf, state]
    · rw [swept.planOf, idle]
    · rw [swept.planOf, asked]
    · rw [cruSlot_congr (swept.cru rfl)]
      exact slots g (by rwa [planOf_popDesc])
  · refine ⟨_, congrArg Host.Outcome.next (planUnloadDone_eq unloads asked scrubbed), ?_, ?_,
      completedAt_written may (.of (planGone_fr _ _)) empty _ _⟩
    · rw [completedAt_planOf, planGone_plan]
    · rw [(completedAt_fr ..).sw rfl, planGone_resv]

end Sys2Proof.Machine

/-! ### O47: runs and phases -/

namespace Sys2Proof.Machine

set_option Elab.async false

/-! #### Windows of a run: R225, R230 -/

theorem win_tset_same (p : Plan) (i : Nat) (w : WinRun) : win { p with win := tset {} p.win i w } i = w := tget_tset_same ..

theorem win_tset_other (p : Plan) {i j : Nat} (w : WinRun) (other : j ≠ i) :
    win { p with win := tset {} p.win i w } j = win p j := tget_tset_other _ _ _ _ _ _ other

theorem planOf_setWin (s : State) (c i : Nat) (w : WinRun) :
    planOf (setWin s c i w) c = { planOf s c with win := tset {} (planOf s c).win i w } := planOf_modPlan ..

/-- Only the windows of a plan's run move, each by a relation. -/
def WinsMove (R : WinRun → WinRun → Prop) (p q : Plan) : Prop :=
  q = { p with win := q.win } ∧ ∀ i, R (win p i) (win q i)

namespace WinsMove

variable {R : WinRun → WinRun → Prop} {p q r : Plan}

theorem refl (same : ∀ v, R v v) (p : Plan) : WinsMove R p p := ⟨rfl, fun _ => same _⟩

theorem of_eq (same : ∀ v, R v v) (h : q = p) : WinsMove R p q := h ▸ refl same p

theorem trans (chain : ∀ u v w, R u v → R v w → R u w) (h : WinsMove R p q) (g : WinsMove R q r) : WinsMove R p r := by
  obtain ⟨hp, hw⟩ := h
  obtain ⟨gp, gw⟩ := g
  refine ⟨?_, fun i => chain _ _ _ (hw i) (gw i)⟩
  rw [hp] at gp
  exact gp

theorem setWin (same : ∀ v, R v v) {s : State} {c i : Nat} {w : WinRun} (h : R (win (planOf s c) i) w) :
    WinsMove R (planOf s c) (planOf (setWin s c i w) c) := by
  rw [planOf_setWin]
  refine ⟨rfl, fun j => ?_⟩
  by_cases here : j = i
  · rw [here, win_tset_same]
    exact h
  · rw [win_tset_other _ _ here]
    exact same _

theorem forEach {α : Type} (same : ∀ v, R v v) (chain : ∀ u v w, R u v → R v w → R u w) {c : Nat} {f : State → α → State}
    (moves : ∀ y a, WinsMove R (planOf y c) (planOf (f y a) c)) (l : List α) (s : State) :
    WinsMove R (planOf s c) (planOf (Machine.forEach l s f) c) := by
  induction l generalizing s with
  | nil => exact refl same _
  | cons a l ih => exact trans chain (moves s a) (ih (f s a))

end WinsMove

/-- The moment at which a window became complete is noted, and nothing else of it. -/
def DoneNoted (v w : WinRun) : Prop := w = { v with doneAt := w.doneAt }

theorem noteDone_noted (s : State) (c : Nat) : WinsMove DoneNoted (planOf s c) (planOf (noteDone s c) c) := by
  have same (v : WinRun) : DoneNoted v v := rfl
  have chain (u v w : WinRun) (h : DoneNoted u v) (g : DoneNoted v w) : DoneNoted u w := by
    unfold DoneNoted at *
    rw [h] at g
    exact g
  unfold noteDone
  split
  · exact .refl same _
  · refine .forEach same chain (fun y i => ?_) _ s
    dsimp only
    split
    · exact .setWin same rfl
    · exact .refl same _

/-! #### The start of a run: R230, R236, R256 -/

theorem awaitNt_eq (s : State) (t : Nat) : ∃ m, awaitNt s t = { s with now := m } := by
  unfold awaitNt
  dsimp only
  split <;> split
  · exact ⟨s.now, rfl⟩
  · exact ⟨_, rfl⟩
  · exact ⟨s.now, rfl⟩
  · exact ⟨_, rfl⟩

theorem freshWins_awaitNt (s : State) (t c : Nat) : freshWins (awaitNt s t) c = freshWins s c := by
  obtain ⟨m, e⟩ := awaitNt_eq s t
  rw [e]
  rfl

theorem planOf_awaitNt (s : State) (t c : Nat) : planOf (awaitNt s t) c = planOf s c := (awaitNt_fr s t).planOf c

/-- A table filled over a range of indices. -/
theorem tget_foldl_range {α : Type} (d : α) [DecidableEq α] (f : Nat → α) (t : Tab α) (n i : Nat) :
    tget d ((List.range n).foldl (fun t i => tset d t i (f i)) t) i = if i < n then f i else tget d t i := by
  induction n with
  | zero => rfl
  | succ n ih =>
    rw [List.range_succ, List.foldl_append, List.foldl_cons, List.foldl_nil]
    by_cases last : i = n
    · rw [last, tget_tset_same, if_pos n.lt_succ_self]
    · rw [tget_tset_other _ _ _ _ _ _ last, ih]
      congr 1
      exact propext (by omega)

/-- The fresh windows are those of the plan. -/
theorem freshWins_win (s : State) (c i : Nat) :
    tget {} (freshWins s c) i = if i < (planOf s c).windows.length then freshWin s c i else {} :=
  tget_foldl_range {} (freshWin s c) [] (planOf s c).windows.length i

/-- A plan whose run starts. -/
def startedPlan (s : State) (c : Nat) : Plan :=
  { clearRun (planOf s c) with
    state := 4, running := true, runBase := baseOf (planOf s c), win := freshWins s c,
    sprueActed := (planOf s c).sprueActed.filter fun i => bit (nth (0, 0) (planOf s c).claims i).1 36 }

theorem runStart_eq {s : State} {c : Nat} (armed : (planOf s c).state = 3) (time : s.tim.inForce = true)
    (idle : (ctxOf s c).dyn = false) :
    runStart c s = noteDone (setPlan (awaitNt s (baseOf (planOf s c))) c (startedPlan s c)) c := by
  unfold runStart
  dsimp only
  rw [if_pos (by simp [armed, time, idle]), freshWins_awaitNt]
  rfl

theorem runStart_plan {s : State} {c : Nat} (armed : (planOf s c).state = 3) (time : s.tim.inForce = true)
    (idle : (ctxOf s c).dyn = false) : WinsMove DoneNoted (startedPlan s c) (planOf (runStart c s) c) := by
  have noted := noteDone_noted (setPlan (awaitNt s (baseOf (planOf s c))) c (startedPlan s c)) c
  rw [planOf_setPlan, ← runStart_eq armed time idle] at noted
  exact noted

/-! #### Pour times: R245, R327 -/

theorem pourComparatorLoad_eq {s : State} {n a c k : Nat} (next : nextTarget s n = some (a, c, k)) (time : s.tim.inForce = true) :
    pourComparatorLoad n s = modSeqr (awaitNt s (a - 1999999999)) n fun q =>
      { q with comparator := some (a % 2 ^ 32), target := (c, k) } := by
  unfold pourComparatorLoad
  rw [next]
  dsimp only
  rw [if_pos time]

/-- The moment of a comparator's match. -/
def matchState (s : State) (v : Nat) : State :=
  if (v + 2 ^ 32 - nt32 s) % 2 ^ 32 ≤ 2 ^ 31 then awaitNt s (ntNs s + (v + 2 ^ 32 - nt32 s) % 2 ^ 32) else s

theorem matchState_fr (s : State) (v : Nat) : Fr 131072 s (matchState s v) := .ite (awaitNt_fr _ _) (.refl _ _)

theorem pourTime_eq {s : State} {n v c k : Nat} (holds : (seqr s n).comparator = some v) (target : (seqr s n).target = (c, k))
    (time : s.tim.inForce = true) (runs : (planOf s c).running = true) :
    pourTime n s = setSeqr (modPlan (matchState s v) c fun p => { p with poured := addNew p.poured k }) n
      { seqr s n with comparator := none } := by
  unfold pourTime
  dsimp only
  rw [holds]
  dsimp only
  obtain rfl : (seqr s n).target.1 = c := by rw [target]
  obtain rfl : (seqr s n).target.2 = k := by rw [target]
  rw [if_pos (by simp [time, runs])]
  rfl

theorem planOf_setSeqr (s : State) (n : Nat) (q : Seqr) (c : Nat) : planOf (setSeqr s n q) c = planOf s c := rfl

/-! #### Phase starts: R232, R233, R235 -/

theorem phaseStart_idle {s : State} {n : Nat} (ended : ∀ m, (seqr s m).endAt = none) (idle : (seqr s n).busy = false) :
    phaseStart n s = match readyPhases s n with
      | [] => s
      | e :: r => beginPhase s n (r.foldl (fun b x => if x.2.2 < b.2.2 then x else b) e).1
          (r.foldl (fun b x => if x.2.2 < b.2.2 then x else b) e).2.1 := by
  unfold phaseStart
  dsimp only
  rw [ended n, Option.map_none, awaitOpt, endPhasesDue_of_none ended, idle, if_neg (by decide)] <;> rfl

/-- The least of a list by pour time. -/
theorem foldl_least {α : Type} (f : α → Nat) (l : List α) (b m : α) (low : ∀ x ∈ b :: l, x ≠ m → f m < f x) (member : m ∈ b :: l) :
    l.foldl (fun b x => if f x < f b then x else b) b = m := by
  induction l generalizing b with
  | nil => exact (List.mem_singleton.1 member).symm
  | cons a l ih =>
    rw [List.foldl_cons]
    refine ih _ (fun x hx => low x ?_) ?_
    · split at hx
      · exact List.mem_cons_of_mem _ hx
      · simp only [List.mem_cons] at hx ⊢
        tauto
    · by_cases first : b = m
      · have : (if f a < f b then a else b) = m := by
          split
          · next less =>
            by_contra other
            rw [first] at less
            have := low a (by simp) other
            omega
          · exact first
        simp [this]
      · rcases List.mem_cons.1 member with h | h
        · exact absurd h.symm first
        · rcases List.mem_cons.1 h with h | h
          · rw [if_pos (by subst h; exact low b (by simp) first), h]
            exact List.mem_cons_self
          · exact List.mem_cons_of_mem _ h

theorem phaseStart_none {s : State} {n : Nat} (ended : ∀ m, (seqr s m).endAt = none) (idle : (seqr s n).busy = false)
    (none_ : readyPhases s n = []) : phaseStart n s = s := by
  rw [phaseStart_idle ended idle, none_]

theorem phaseStart_first {s : State} {n c k p : Nat} (ended : ∀ m, (seqr s m).endAt = none) (idle : (seqr s n).busy = false)
    (ready : (c, k, p) ∈ readyPhases s n) (first : ∀ x, x ∈ readyPhases s n → x ≠ (c, k, p) → p < x.2.2) :
    phaseStart n s = beginPhase s n c k := by
  rw [phaseStart_idle ended idle]
  cases found : readyPhases s n with
  | nil =>
    rw [found] at ready
    exact absurd ready List.not_mem_nil
  | cons e r =>
    rw [found] at ready first
    dsimp only
    rw [foldl_least (fun x : Nat × Nat × Nat => x.2.2) r e (c, k, p) first ready]

/-- The sequencer runs the phase. -/
def begunSeqr (s : State) (n c k : Nat) : Seqr :=
  { seqr s n with
    busy := true, ctx := c, phase := k, startAt := s.now, phaseNs := nt32 s, nextAddr := phFirst (phase (planOf s c) k),
    nextAt := s.now + pwDelta (planWord s n (phFirst (phase (planOf s c) k))) * cycT s n,
    declared := pwDelta (planWord s n (phFirst (phase (planOf s c) k))), endAt := none, stall := 0, blocked := false }

/-- The phase has begun, before its slip is judged. -/
def begunState (s : State) (n c k : Nat) : State :=
  bump (modPlan (setSeqr s n (begunSeqr s n c k)) c fun p => { p with started := addNew p.started k }) (cSeq n 2)

theorem begunState_fr (s : State) (n c k : Nat) : Fr 66560 s (begunState s n c k) :=
  .step (bump_fr _ _) (.step (modPlan_fr _ _ _) (.step (setSeqr_fr _ _ _) (.refl _ _)))

theorem beginPhase_eq (s : State) (n c k : Nat) : beginPhase s n c k =
    if rf s oPLAN_CFG 63 48 * 1000 < slipNs s (planOf s c) k then
      raiseEvent (begunState s n c k) 0x503 (planOf s c).part (at_ 52 c + at_ 40 k) (slipNs s (planOf s c) k)
    else begunState s n c k := rfl

theorem begunState_seqr (s : State) (n c k : Nat) : seqr (begunState s n c k) n = begunSeqr s n c k := seqr_setSeqr ..

theorem begunState_started (s : State) (n c k : Nat) : k ∈ (planOf (begunState s n c k) c).started := by
  unfold begunState
  rw [(bump_fr _ _).planOf, planOf_modPlan]
  simpa using contains_addNew (planOf (setSeqr s n (begunSeqr s n c k)) c).started k

theorem begunState_cnt (s : State) (n c k j : Nat) : cntGet (begunState s n c k) j =
    if j = cSeq n 2 then (cntGet s (cSeq n 2) + 1) % 2 ^ 64 else cntGet s j := by
  unfold begunState
  rw [cntGet_bump]
  rfl

/-- A phase that starts: on its sequencer, counted, and its slip reported beyond the bound. -/
theorem beginPhase_spec {s : State} {n c k : Nat} (dies : n < 64) : k ∈ (planOf (beginPhase s n c k) c).started ∧
    seqr (beginPhase s n c k) n = begunSeqr s n c k ∧
    cntGet (beginPhase s n c k) (cSeq n 2) = (cntGet s (cSeq n 2) + 1) % 2 ^ 64 ∧
    (rf s oPLAN_CFG 63 48 * 1000 < slipNs s (planOf s c) k →
      cntGet (beginPhase s n c k) 0x503 = (cntGet s 0x503 + 1) % 2 ^ 64) ∧
    (slipNs s (planOf s c) k ≤ rf s oPLAN_CFG 63 48 * 1000 →
      (beginPhase s n c k).hif = s.hif ∧ (beginPhase s n c k).out = s.out) := by
  have apart : cSeq n 2 ≠ 0x503 := by unfold cSeq; omega
  rw [beginPhase_eq]
  by_cases slips : rf s oPLAN_CFG 63 48 * 1000 < slipNs s (planOf s c) k
  · rw [if_pos slips]
    have raised := raiseEvent_fr (begunState s n c k) 0x503 (planOf s c).part (at_ 52 c + at_ 40 k) (slipNs s (planOf s c) k)
    refine ⟨?_, ?_, ?_, fun _ => ?_, fun within => by omega⟩
    · rw [raised.planOf]
      exact begunState_started ..
    · unfold seqr
      rw [raised.plan rfl]
      exact begunState_seqr ..
    · rw [raiseEvent_cnt _ _ _ _ _ _ (by unfold cSeq; omega), if_neg apart, begunState_cnt, if_pos rfl]
    · rw [raiseEvent_cnt _ _ _ _ _ _ (by decide), if_pos rfl, begunState_cnt, if_neg apart.symm]
  · rw [if_neg slips]
    exact ⟨begunState_started .., begunState_seqr .., by rw [begunState_cnt, if_pos rfl], fun over_ => absurd over_ slips,
      fun _ => ⟨(begunState_fr ..).hif rfl, (begunState_fr ..).out rfl⟩⟩

end Sys2Proof.Machine

/-! #### Late paths: R237, R238 -/

namespace Sys2Proof.Machine

set_option Elab.async false

/-- A window marked LATE, and nothing else of it. -/
def MarkedLate (v w : WinRun) : Prop :=
  w = { v with late := w.late, lateLow := w.lateLow } ∧ (v.late = true → w.late = true)

theorem MarkedLate.refl (v : WinRun) : MarkedLate v v := ⟨rfl, id⟩

theorem MarkedLate.chain (u v w : WinRun) (h : MarkedLate u v) (g : MarkedLate v w) : MarkedLate u w := by
  obtain ⟨hw, hl⟩ := h
  obtain ⟨gw, gl⟩ := g
  refine ⟨?_, gl ∘ hl⟩
  rw [hw] at gw
  exact gw

theorem lateWindow_spec (s : State) (c k i : Nat) :
    WinsMove MarkedLate (planOf s c) (planOf (lateWindow s c k i) c) ∧
    (win (planOf (lateWindow s c k i) c) i).late = true := by
  unfold lateWindow
  dsimp only
  split
  · refine ⟨.setWin .refl ⟨rfl, fun _ => rfl⟩, ?_⟩
    rw [planOf_setWin, win_tset_same]
  · rw [(raiseEvent_fr _ _ _ _ _).planOf]
    refine ⟨.setWin .refl ⟨rfl, fun _ => rfl⟩, ?_⟩
    rw [planOf_setWin, win_tset_same]

theorem lateWindows_move (s : State) (c k : Nat) (l : List Nat) :
    WinsMove MarkedLate (planOf s c) (planOf (forEach l s fun s i => lateWindow s c k i) c) :=
  .forEach .refl MarkedLate.chain (fun y i => (lateWindow_spec y c k i).1) l s

theorem lateWindows_late (s : State) (c k : Nat) (l : List Nat) :
    ∀ i ∈ l, (win (planOf (forEach l s fun s i => lateWindow s c k i) c) i).late = true :=
  forEach_reaches (fun i y => (win (planOf y c) i).late = true) _ (fun y i => (lateWindow_spec y c k i).2)
    (fun y i j late => (((lateWindow_spec y c k i).1).2 j).2 late) l s

/-- The deadline of a phase has marked its input windows. -/
def deadlineSeen (s : State) (c k : Nat) : State :=
  modPlan (forEach (phInputs (phase (planOf s c) k)) (awaitNt s (deadNs (planOf s c) k)) fun s i => lateWindow s c k i) c
    fun p => { p with missed := addNew p.missed k }

theorem deadlineSeen_fr (s : State) (c k : Nat) : Fr 214020 s (deadlineSeen s c k) :=
  .step (modPlan_fr _ _ _) (Fr.forEach (m := 214020) _ _ (fun _ _ => (lateWindow_fr _ _ _ _).mono)
    (.step (awaitNt_fr _ _) (.refl _ _)))

theorem deadlineSeen_now (s : State) (c k : Nat) : (deadlineSeen s c k).now = (awaitNt s (deadNs (planOf s c) k)).now :=
  (show Fr 82948 (awaitNt s (deadNs (planOf s c) k)) (deadlineSeen s c k) from .step (modPlan_fr _ _ _)
    (Fr.forEach (m := 82948) _ _ (fun _ _ => lateWindow_fr _ _ _ _) (.refl _ _))).now rfl

/-- What the deadline leaves of the plan. -/
theorem deadlineSeen_plan (s : State) (c k : Nat) :
    WinsMove MarkedLate { planOf s c with missed := addNew (planOf s c).missed k } (planOf (deadlineSeen s c k) c) := by
  have moved := lateWindows_move (awaitNt s (deadNs (planOf s c) k)) c k (phInputs (phase (planOf s c) k))
  rw [planOf_awaitNt] at moved
  obtain ⟨rest, wins⟩ := moved
  unfold deadlineSeen
  rw [planOf_modPlan]
  exact ⟨by rw [rest], wins⟩

theorem deadlineSeen_late (s : State) (c k : Nat) :
    ∀ i ∈ phInputs (phase (planOf s c) k), (win (planOf (deadlineSeen s c k) c) i).late = true := by
  intro i member
  unfold deadlineSeen
  rw [planOf_modPlan]
  exact lateWindows_late _ c k _ i member

theorem phaseDeadline_eq {s : State} {c k : Nat} (waits : phaseWaits s c k = true) (fresh : (planOf s c).missed.contains k = false)
    (missing : inputsReady s (planOf s c) k = false) : phaseDeadline c k s =
    if phLate (phase (planOf s c) k) = 0 then lateError (deadlineSeen s c k) c
    else if phLate (phase (planOf s c) k) = 1 then lateExclude (deadlineSeen s c k) c k
    else modPlan (deadlineSeen s c k) c fun p => { p with waiting := addNew p.waiting k } := by
  unfold phaseDeadline
  dsimp only
  rw [if_pos (by simp [waits, missing]; simpa using fresh)]
  rfl

/-! ##### ERROR -/

theorem stopSeqs_coll (s : State) (c : Nat) : (stopSeqs s c).coll = s.coll := (stopSeqs_fr s c).coll rfl

theorem ctxOf_congr {s t : State} (h : t.coll = s.coll) (c : Nat) : ctxOf t c = ctxOf s c := by
  unfold ctxOf
  rw [h]

theorem collFrame_n (s : State) (c die : Nat) (mc : Bool) (dest chunk : Nat) (ce : Bool) (f : Frame) :
    (ctxOf (collFrame s c die mc dest chunk ce f).1 c).n = (ctxOf s c).n := by
  unfold collFrame
  split
  · exact congrArg Ctx.n (ctxOf_congr ((bump_fr _ _).coll rfl) c)
  · dsimp only
    rw [ctxOf_congr ((originate_fr _ _ _).coll rfl)]
    rw [ctxOf_setCtx]

theorem noteSuspects_n (s : State) (c slow : Nat) : (ctxOf (noteSuspects s c slow) c).n = (ctxOf s c).n := by
  unfold noteSuspects
  dsimp only
  rw [ctxOf_congr ((Fr.forEach (m := 81924) _ _ (fun _ _ => raiseEvent_fr _ _ _ _ _) (.refl _ _)).coll rfl)]
  rw [ctxOf_setCtx]

theorem noteArrivals_n (s : State) (c : Nat) : (ctxOf (noteArrivals s c) c).n = (ctxOf s c).n := by
  unfold noteArrivals
  dsimp only
  split
  · rfl
  · split
    · rw [noteSuspects_n]
      rw [ctxOf_setCtx]
    · rw [ctxOf_setCtx]

theorem endInvocation_n (s : State) (c : Nat) (early : Option (Nat × Nat × Nat)) :
    (ctxOf (endInvocation s c early) c).n = ((ctxOf s c).n + 1) % 2 ^ 32 := by
  have next (y : State) : (ctxOf (modCtx y c nextInvocation) c).n = ((ctxOf y c).n + 1) % 2 ^ 32 := by
    rw [ctxOf_modCtx]
    rfl
  unfold endInvocation
  dsimp only
  rw [next, noteArrivals_n]
  split
  · rw [collFrame_n]
  · split
    · rw [collFrame_n]
    · rfl

theorem cutRun_n (s : State) (c status lastRun eid : Nat) :
    (ctxOf (cutRun s c status lastRun eid) c).n = ((ctxOf s c).n + 1) % 2 ^ 32 := by
  unfold cutRun
  dsimp only
  rw [ctxOf_congr ((modPlan_fr _ _ _).coll rfl), endInvocation_n]
  unfold missedMembers
  rw [ctxOf_modCtx]
  dsimp only
  rw [ctxOf_congr (stopSeqs_coll s c)]

theorem planOf_nextRun (s : State) (c : Nat) : planOf (nextRun s c) c = { planOf s c with
    runNo := (planOf s c).runNo + 1
    state := if (planOf s c).disarming.isSome = true ∨
      ((planOf s c).runs ≠ 0 ∧ (planOf s c).runs ≤ (planOf s c).runNo + 1) then 2 else 3 } := by
  unfold nextRun
  rw [planOf_modPlan]
  dsimp only
  split
  · next last =>
    rw [if_pos (by simpa using last)]
  · next more =>
    rw [if_neg (by simpa using more)]

/-- A run that is abandoned for its lateness is counted, and the next one waits. -/
theorem lateError_spec {s : State} {c : Nat} (runs : (planOf s c).running = true) : RunLate s (lateError s c) c := by
  unfold lateError abandonRun
  dsimp only
  rw [if_pos runs]
  have ctx (y : State) (f : Plan → Plan) : ctxOf (nextRun (modPlan y c f) c) c = ctxOf y c :=
    ctxOf_congr (((nextRun_fr _ _).coll rfl).trans ((modPlan_fr _ _ _).coll rfl)) c
  unfold RunLate
  rw [ctx, cutRun_n]
  rw [planOf_nextRun, planOf_modPlan, cutRun_plan]
  exact ⟨rfl, rfl, rfl, rfl, rfl⟩

end Sys2Proof.Machine

/-! ##### EXCLUDE -/

namespace Sys2Proof.Machine

set_option Elab.async false

theorem addNew_subset (l : List Nat) (n : Nat) : l ⊆ addNew l n := by
  intro m member
  unfold addNew
  split
  · exact member
  · exact List.mem_append_left _ member

theorem mem_foldl_addNew {m : Nat} (l : List Nat) (acc : List Nat) : m ∈ l.foldl addNew acc ↔ m ∈ acc ∨ m ∈ l := by
  induction l generalizing acc with
  | nil => simp
  | cons a l ih =>
    have one : m ∈ addNew acc a ↔ m ∈ acc ∨ m = a := by
      unfold addNew
      split
      · next h =>
        constructor
        · exact .inl
        · rintro (h' | rfl)
          · exact h'
          · simpa using h
      · simp
    rw [List.foldl_cons, ih, one, List.mem_cons, or_assoc]

/-- Further members of a window excluded, and nothing else of it. -/
def ExcludedMore (v w : WinRun) : Prop :=
  w = { v with forced := w.forced, c := { v.c with excluded := w.c.excluded } } ∧ v.c.excluded ⊆ w.c.excluded

theorem ExcludedMore.refl (v : WinRun) : ExcludedMore v v := ⟨rfl, List.Subset.refl _⟩

theorem ExcludedMore.chain (u v w : WinRun) (h : ExcludedMore u v) (g : ExcludedMore v w) : ExcludedMore u w := by
  obtain ⟨hw, hl⟩ := h
  obtain ⟨gw, gl⟩ := g
  refine ⟨?_, List.Subset.trans hl gl⟩
  rw [hw] at gw
  exact gw

/-- Members neither received nor excluded: by the record and the exclusions of the window alone. -/
theorem mem_winMissing {x : Ctx} {e : Word × Word × Word × Word} {w : WinRun} {m : Nat} : m ∈ winMissing x e w ↔
    (wnFirst e ≤ m ∧ m < wnFirst e + wnMembers e) ∧ m ∉ w.c.received ∧ m ∉ w.c.excluded ∧
      (wnLocal e = false → m ∉ x.excluded) := by
  have range : m ∈ (List.range (wnMembers e)).map (fun i => wnFirst e + i) ↔ wnFirst e ≤ m ∧ m < wnFirst e + wnMembers e := by
    rw [List.mem_map]
    constructor
    · rintro ⟨i, hi, rfl⟩
      rw [List.mem_range] at hi
      omega
    · intro h
      exact ⟨m - wnFirst e, List.mem_range.2 (by omega), by omega⟩
  unfold winMissing winExcluded
  rw [List.mem_filter, range]
  refine and_congr_right fun ⟨low, high⟩ => ?_
  by_cases own : wnLocal e = true
  · simp [own, low, high]
    tauto
  · have own' : wnLocal e = false := by simpa using own
    simp [own', mem_foldl_addNew, low, high]
    tauto

theorem winMissing_excludedMore {x : Ctx} {e : Word × Word × Word × Word} {v w : WinRun} (more : ExcludedMore v w)
    (none_ : winMissing x e v = []) : winMissing x e w = [] := by
  obtain ⟨rest, excluded⟩ := more
  have received : w.c.received = v.c.received := by rw [rest]
  refine List.eq_nil_iff_forall_not_mem.2 fun m member => ?_
  obtain ⟨within, away, kept, allowed⟩ := mem_winMissing.1 member
  exact List.eq_nil_iff_forall_not_mem.1 none_ m
    (mem_winMissing.2 ⟨within, by rwa [received] at away, fun h => kept (excluded h), allowed⟩)

/-- A window whose missing members are excluded. -/
def excludedWin (x : Ctx) (e : Word × Word × Word × Word) (w : WinRun) : WinRun :=
  { w with forced := w.forced || (isCombine x && wnKind e == 2), c := { w.c with excluded := (winMissing x e w).foldl addNew w.c.excluded } }

theorem excludedWin_more (x : Ctx) (e : Word × Word × Word × Word) (w : WinRun) : ExcludedMore w (excludedWin x e w) :=
  ⟨rfl, fun _ h => (mem_foldl_addNew _ _).2 (.inl h)⟩

theorem excludedWin_missing (x : Ctx) (e : Word × Word × Word × Word) (w : WinRun) : winMissing x e (excludedWin x e w) = [] := by
  refine List.eq_nil_iff_forall_not_mem.2 fun m member => ?_
  obtain ⟨within, away, kept, allowed⟩ := mem_winMissing.1 member
  refine kept ((mem_foldl_addNew _ _).2 (.inr (mem_winMissing.2 ⟨within, away, fun h => ?_, allowed⟩)))
  exact kept ((mem_foldl_addNew _ _).2 (.inl h))

/-- The missing members of a window of the run are excluded. -/
def excludeAt (c : Nat) (s : State) (i : Nat) : State :=
  setWin s c i (excludedWin (ctxOf s c) (window4 (planOf s c) i) (win (planOf s c) i))

/-- The missing members of all input windows of a phase are excluded. -/
def excluded (s : State) (c k : Nat) : State := forEach (phInputs (phase (planOf s c) k)) s (excludeAt c)

theorem lateExclude_eq (s : State) (c k : Nat) : lateExclude s c k =
    noteDone (modPlan (excluded s c k) c fun p => { p with forced := p.forced ++ [(k, (excluded s c k).now)] }) c := rfl

theorem excludeAt_move (c : Nat) (s : State) (i : Nat) : WinsMove ExcludedMore (planOf s c) (planOf (excludeAt c s i) c) :=
  .setWin .refl (excludedWin_more _ _ _)

theorem excludeAt_fr (c : Nat) (s : State) (i : Nat) : Fr 1024 s (excludeAt c s i) := setWin_fr _ _ _ _

theorem excluded_fr (s : State) (c k : Nat) : Fr 1024 s (excluded s c k) :=
  Fr.forEach (m := 1024) _ _ (excludeAt_fr c) (.refl _ _)

theorem excluded_move (s : State) (c k : Nat) : WinsMove ExcludedMore (planOf s c) (planOf (excluded s c k) c) :=
  .forEach .refl ExcludedMore.chain (excludeAt_move c) _ s

theorem excludeAt_window (c : Nat) (s : State) (i j : Nat) : window4 (planOf (excludeAt c s i) c) j = window4 (planOf s c) j := by
  obtain ⟨rest, -⟩ := excludeAt_move c s i
  rw [rest]
  rfl

theorem excluded_missing (s : State) (c k : Nat) : ∀ i ∈ phInputs (phase (planOf s c) k),
    winMissing (ctxOf s c) (window4 (planOf s c) i) (win (planOf (excluded s c k) c) i) = [] := by
  intro i member
  have empty := forEach_reaches (fun i y => winMissing (ctxOf y c) (window4 (planOf y c) i) (win (planOf y c) i) = [])
    (excludeAt c) (fun y i => ?_) (fun y i j none_ => ?_) (phInputs (phase (planOf s c) k)) s i member
  · obtain ⟨rest, -⟩ := excluded_move s c k
    have windows : window4 (planOf (excluded s c k) c) i = window4 (planOf s c) i := by
      rw [rest]
      rfl
    have ctx : ctxOf (excluded s c k) c = ctxOf s c := ctxOf_congr ((excluded_fr s c k).coll rfl) c
    rw [← windows, ← ctx]
    exact empty
  · rw [ctxOf_congr ((excludeAt_fr c y i).coll rfl), excludeAt_window]
    unfold excludeAt
    rw [planOf_setWin, win_tset_same]
    exact excludedWin_missing _ _ _
  · rw [ctxOf_congr ((excludeAt_fr c y i).coll rfl), excludeAt_window]
    exact winMissing_excludedMore ((excludeAt_move c y i).2 j) none_

/-- The moment at which a window became complete says nothing of what it lacks. -/
theorem winMissing_noted {x : Ctx} {e : Word × Word × Word × Word} {v w : WinRun} (noted : DoneNoted v w) :
    winMissing x e w = winMissing x e v := by
  unfold DoneNoted at noted
  rw [noted]
  rfl

theorem lateExclude_move (s : State) (c k : Nat) : ∃ p, WinsMove ExcludedMore (planOf s c) p ∧ p = planOf (excluded s c k) c ∧
    WinsMove DoneNoted { p with forced := p.forced ++ [(k, s.now)] } (planOf (lateExclude s c k) c) := by
  refine ⟨_, excluded_move s c k, rfl, ?_⟩
  have noted := noteDone_noted (modPlan (excluded s c k) c fun p => { p with forced := p.forced ++ [(k, (excluded s c k).now)] }) c
  rw [planOf_modPlan, ← lateExclude_eq, (excluded_fr s c k).now rfl] at noted
  exact noted

theorem lateExclude_spec {s : State} {c k : Nat} (runs : (planOf s c).running = true) : RunExcludes s (lateExclude s c k) c k := by
  obtain ⟨p, ⟨rest, -⟩, own, ⟨done, wins⟩⟩ := lateExclude_move s c k
  have fr := lateExclude_fr s c k
  refine ⟨?_, ?_, ctxOf_congr (fr.coll rfl) c, fun i member => ?_⟩
  · rw [done, fr.now rfl]
    exact List.mem_append_right _ List.mem_cons_self
  · rw [done]
    exact (show p.running = _ from congrArg Plan.running rest).trans runs
  · rw [winMissing_noted (wins i), show win { p with forced := p.forced ++ [(k, s.now)] } i = win p i from rfl, own]
    exact excluded_missing s c k i member

/-- What EXCLUDE leaves of the plan besides the windows' exclusions. -/
theorem lateExclude_keeps (s : State) (c k : Nat) : (planOf (lateExclude s c k) c).missed = (planOf s c).missed ∧
    ∀ i, (win (planOf (lateExclude s c k) c) i).late = (win (planOf s c) i).late := by
  obtain ⟨p, ⟨rest, excluded_⟩, own, ⟨done, wins⟩⟩ := lateExclude_move s c k
  refine ⟨?_, fun i => ?_⟩
  · rw [done]
    have missed := congrArg Plan.missed rest
    exact missed
  · rw [wins i, show win { p with forced := p.forced ++ [(k, s.now)] } i = win p i from rfl]
    have late := congrArg WinRun.late (excluded_ i).1
    exact late

theorem MarkedLate.missing {x : Ctx} {e : Word × Word × Word × Word} {v w : WinRun} (late : MarkedLate v w) :
    winMissing x e w = winMissing x e v := by
  obtain ⟨rest, -⟩ := late
  rw [rest]
  rfl

/-! ##### The deadline and the end of a wait -/

theorem deadlineSeen_running {s : State} {c k : Nat} (runs : (planOf s c).running = true) :
    (planOf (deadlineSeen s c k) c).running = true := by
  obtain ⟨rest, -⟩ := deadlineSeen_plan s c k
  rw [rest]
  exact runs

theorem deadlineSeen_missed (s : State) (c k : Nat) : k ∈ (planOf (deadlineSeen s c k) c).missed := by
  obtain ⟨rest, -⟩ := deadlineSeen_plan s c k
  rw [rest]
  simpa using contains_addNew (planOf s c).missed k

theorem phaseWaits_runs {s : State} {c k : Nat} (waits : phaseWaits s c k = true) : (planOf s c).running = true := by
  unfold phaseWaits at waits
  simp only [Bool.and_eq_true] at waits
  exact waits.1.1.1.1.1

/-- The late path sees the plan as it was before the deadline marked its windows. -/
theorem RunLate.of_deadline {s t : State} {c k : Nat} (late : RunLate (deadlineSeen s c k) t c) : RunLate s t c := by
  obtain ⟨rest, -⟩ := deadlineSeen_plan s c k
  have ctx : ctxOf (deadlineSeen s c k) c = ctxOf s c := ctxOf_congr ((deadlineSeen_fr s c k).coll rfl) c
  unfold RunLate at *
  rw [ctx, rest] at late
  exact late

theorem RunExcludes.of_deadline {s t : State} {c k : Nat} (excludes : RunExcludes (deadlineSeen s c k) t c k) :
    RunExcludes s t c k := by
  obtain ⟨rest, -⟩ := deadlineSeen_plan s c k
  have ctx : ctxOf (deadlineSeen s c k) c = ctxOf s c := ctxOf_congr ((deadlineSeen_fr s c k).coll rfl) c
  unfold RunExcludes at *
  rw [ctx, rest] at excludes
  exact excludes

/-- What follows the deadline lets no time pass. -/
theorem phaseDeadline_now {s : State} {c k : Nat} (waits : phaseWaits s c k = true)
    (fresh : (planOf s c).missed.contains k = false) (missing : inputsReady s (planOf s c) k = false) :
    (phaseDeadline c k s).now = (awaitNt s (deadNs (planOf s c) k)).now := by
  rw [← deadlineSeen_now, phaseDeadline_eq waits fresh missing]
  exact (show Fr 85189 (deadlineSeen s c k) _ from .ite (lateError_fr _ _) (.ite (.step (lateExclude_fr _ _ _) (.refl _ _))
    (.step (modPlan_fr _ _ _) (.refl _ _)))).now rfl

theorem waitBoundExpiry_eq {s : State} {c k : Nat} (waits : phaseWaits s c k = true)
    (waiting : (planOf s c).waiting.contains k = true) (missing : inputsReady s (planOf s c) k = false) : waitBoundExpiry c k s =
    if phLate (phase (planOf s c) k) = 2 then lateError (awaitNt s (boundNs (planOf s c) k)) c
    else lateExclude (awaitNt s (boundNs (planOf s c) k)) c k := by
  unfold waitBoundExpiry
  dsimp only
  rw [if_pos (by simp [waits, missing]; simpa using waiting)]

theorem waitBoundExpiry_now {s : State} {c k : Nat} (waits : phaseWaits s c k = true)
    (waiting : (planOf s c).waiting.contains k = true) (missing : inputsReady s (planOf s c) k = false) :
    (waitBoundExpiry c k s).now = (awaitNt s (boundNs (planOf s c) k)).now := by
  rw [waitBoundExpiry_eq waits waiting missing]
  exact (show Fr 85189 (awaitNt s (boundNs (planOf s c) k)) _ from .ite (lateError_fr _ _)
    (.step (lateExclude_fr _ _ _) (.refl _ _))).now rfl

theorem RunLate.of_await {s t : State} {c m : Nat} (late : RunLate (awaitNt s m) t c) : RunLate s t c := by
  have ctx : ctxOf (awaitNt s m) c = ctxOf s c := ctxOf_congr ((awaitNt_fr s m).coll rfl) c
  unfold RunLate at *
  rwa [ctx, planOf_awaitNt] at late

theorem RunExcludes.of_await {s t : State} {c k m : Nat} (excludes : RunExcludes (awaitNt s m) t c k) : RunExcludes s t c k := by
  have ctx : ctxOf (awaitNt s m) c = ctxOf s c := ctxOf_congr ((awaitNt_fr s m).coll rfl) c
  unfold RunExcludes at *
  rwa [ctx, planOf_awaitNt] at excludes

theorem phaseDeadline_stays {s : State} {c k : Nat} (off : phaseWaits s c k = false) :
    phaseDeadline c k s = s ∧ waitBoundExpiry c k s = s := by
  unfold phaseDeadline waitBoundExpiry
  dsimp only
  rw [off]
  exact ⟨if_neg (by simp), if_neg (by simp)⟩

/-- The windows of a run that has started. -/
theorem runStart_win {s : State} {c : Nat} (armed : (planOf s c).state = 3) (time : s.tim.inForce = true)
    (idle : (ctxOf s c).dyn = false) (i : Nat) : (win (planOf (runStart c s) c) i).c = {} ∧
    (win (planOf (runStart c s) c) i).contribs = [] ∧
    (i < (planOf s c).windows.length → (win (planOf (runStart c s) c) i).st = if wnPreopen (window4 (planOf s c) i) = true then 1 else 0) ∧
    (i < (planOf s c).windows.length → soleWin s c i = true →
      (win (planOf (runStart c s) c) i).outBytes = (win (planOf s c) i).outBytes ∧
      (win (planOf (runStart c s) c) i).state = (win (planOf s c) i).state) := by
  obtain ⟨-, wins⟩ := runStart_plan armed time idle
  rw [wins i, show win (startedPlan s c) i = tget {} (freshWins s c) i from rfl, freshWins_win]
  by_cases within : i < (planOf s c).windows.length
  · rw [if_pos within]
    unfold freshWin
    dsimp only
    by_cases sole : soleWin s c i = true
    · rw [if_pos sole]
      exact ⟨rfl, rfl, fun _ => rfl, fun _ _ => ⟨rfl, rfl⟩⟩
    · rw [if_neg sole]
      exact ⟨rfl, rfl, fun _ => rfl, fun _ h => absurd h sole⟩
  · rw [if_neg within]
    exact ⟨rfl, rfl, fun h => absurd h within, fun h => absurd h within⟩

theorem runStart_fields {s : State} {c : Nat} (armed : (planOf s c).state = 3) (time : s.tim.inForce = true)
    (idle : (ctxOf s c).dyn = false) : (planOf (runStart c s) c).state = 4 ∧ (planOf (runStart c s) c).running = true ∧
    (planOf (runStart c s) c).runBase = baseOf (planOf s c) ∧ (planOf (runStart c s) c).poured = [] ∧
    (planOf (runStart c s) c).started = [] ∧ (planOf (runStart c s) c).missed = [] ∧ (planOf (runStart c s) c).seqEnded = [] := by
  obtain ⟨rest, -⟩ := runStart_plan armed time idle
  rw [rest]
  exact ⟨rfl, rfl, rfl, rfl, rfl, rfl, rfl⟩

theorem runStart_stays {s : State} {c : Nat} (off : (planOf s c).state ≠ 3 ∨ s.tim.inForce = false ∨ (ctxOf s c).dyn = true) :
    runStart c s = s := by
  unfold runStart
  dsimp only
  rw [if_neg]
  simp only [Bool.and_eq_true, beq_iff_eq, Bool.not_eq_true']
  rintro ⟨⟨armed, time⟩, idle⟩
  simp [armed, time, idle] at off

theorem pourComparatorLoad_spec {s : State} {n a c k : Nat} (next : nextTarget s n = some (a, c, k)) (time : s.tim.inForce = true) :
    (pourComparatorLoad n s).now = (awaitNt s (a - 1999999999)).now ∧
    seqr (pourComparatorLoad n s) n = { seqr s n with comparator := some (a % 2 ^ 32), target := (c, k) } ∧
    Fr 132096 s (pourComparatorLoad n s) ∧ (pourComparatorLoad n s).plan.plans = s.plan.plans := by
  have fr := pourComparatorLoad_fr n s
  rw [pourComparatorLoad_eq next time] at fr ⊢
  refine ⟨rfl, ?_, fr, ?_⟩
  · rw [seqr_modSeqr]
    unfold seqr
    rw [(awaitNt_fr s _).plan rfl]
  · obtain ⟨m, e⟩ := awaitNt_eq s (a - 1999999999)
    rw [e]
    rfl

theorem matchState_now (s : State) (v : Nat) : (matchState s v).now =
    if (v + 2 ^ 32 - nt32 s) % 2 ^ 32 ≤ 2 ^ 31 then (awaitNt s (ntNs s + (v + 2 ^ 32 - nt32 s) % 2 ^ 32)).now else s.now :=
  apply_ite State.now _ _ _

theorem pourTime_spec {s : State} {n v c k : Nat} (holds : (seqr s n).comparator = some v) (target : (seqr s n).target = (c, k))
    (time : s.tim.inForce = true) (runs : (planOf s c).running = true) :
    (pourTime n s).now = (if (v + 2 ^ 32 - nt32 s) % 2 ^ 32 ≤ 2 ^ 31 then
      (awaitNt s (ntNs s + (v + 2 ^ 32 - nt32 s) % 2 ^ 32)).now else s.now) ∧
    planOf (pourTime n s) c = { planOf s c with poured := addNew (planOf s c).poured k } ∧
    seqr (pourTime n s) n = { seqr s n with comparator := none } ∧ Fr 132096 s (pourTime n s) := by
  have fr := pourTime_fr n s
  have same := (matchState_fr s v).planOf c
  have now := matchState_now s v
  rw [pourTime_eq holds target time runs] at fr ⊢
  generalize matchState s v = x at *
  refine ⟨?_, ?_, seqr_setSeqr _ _ _, fr⟩
  · rw [(setSeqr_fr _ _ _).now rfl, (modPlan_fr _ _ _).now rfl, now]
  · rw [planOf_setSeqr, planOf_modPlan, same]

/-- Settles O47: a run starts with fresh windows, the comparator marks pour times as come, the first of the ready phases starts, and
each late path acts as its code says. -/
theorem runsAndPhasesStart : Obligations.RunsAndPhasesStart := by
  unfold Obligations.RunsAndPhasesStart
  intro s c n k
  refine ⟨fun armed time idle => ?_, fun off => congrArg Host.Outcome.next (runStart_stays off), fun a next time => ?_,
    fun v holds target time runs => ?_, fun none_ => ?_, fun ended idle dies => ⟨fun none_ => congrArg Host.Outcome.next (phaseStart_none ended idle none_),
      fun p ready first => ?_⟩, fun waits fresh missing => ?_, fun waits waiting missing => ?_, fun off =>
    ⟨congrArg Host.Outcome.next (phaseDeadline_stays off).1, congrArg Host.Outcome.next (phaseDeadline_stays off).2⟩⟩
  · obtain ⟨state, running, base, poured, started, missed, ended⟩ := runStart_fields armed time idle
    refine ⟨_, rfl, ?_, (runStart_fr c s).onlyChanges _, state, running, base, poured, started, missed, ended,
      runStart_win armed time idle⟩
    rw [runStart_eq armed time idle, (noteDone_fr _ _).now rfl, (setPlan_fr _ _ _).now rfl]
  · obtain ⟨now, sequencer, fr, plans⟩ := pourComparatorLoad_spec next time
    exact ⟨_, rfl, now, sequencer, fr.onlyChanges _, plans⟩
  · obtain ⟨now, plan, sequencer, fr⟩ := pourTime_spec holds target time runs
    exact ⟨_, rfl, now, plan, sequencer, fr.onlyChanges _⟩
  · refine congrArg Host.Outcome.next ?_
    unfold pourTime
    dsimp only
    rw [none_]
  · obtain ⟨started, begun, counted, slips, within⟩ := beginPhase_spec (s := s) (c := c) (k := k) dies
    refine ⟨_, congrArg Host.Outcome.next (phaseStart_first ended idle ready first), started, ?_, ?_, ?_, ?_, ?_, ?_, counted, slips, within⟩
    all_goals rw [begun]; rfl
  · have runs := deadlineSeen_running (k := k) (phaseWaits_runs waits)
    have eq := phaseDeadline_eq waits fresh missing
    refine ⟨_, rfl, phaseDeadline_now waits fresh missing, fun errs => ?_, fun excludes => ?_, fun holds => ?_, fun on => ?_⟩
    · rw [eq, if_pos errs]
      exact RunLate.of_deadline (lateError_spec runs)
    · rw [eq, if_neg (by omega), if_pos excludes]
      exact RunExcludes.of_deadline (lateExclude_spec runs)
    · rw [eq, if_neg (by omega), if_neg (by omega), planOf_modPlan]
      exact ⟨by simpa using contains_addNew (planOf (deadlineSeen s c k) c).waiting k, runs⟩
    · rw [eq, if_neg (by omega)]
      by_cases excludes : phLate (phase (planOf s c) k) = 1
      · obtain ⟨missed, late⟩ := lateExclude_keeps (deadlineSeen s c k) c k
        rw [if_pos excludes, missed]
        exact ⟨deadlineSeen_missed s c k, fun i member => (late i).trans (deadlineSeen_late s c k i member)⟩
      · rw [if_neg excludes, planOf_modPlan]
        exact ⟨deadlineSeen_missed s c k, deadlineSeen_late s c k⟩
  · have runs : (planOf (awaitNt s (boundNs (planOf s c) k)) c).running = true := by
      rw [planOf_awaitNt]
      exact phaseWaits_runs waits
    have eq := waitBoundExpiry_eq waits waiting missing
    refine ⟨_, rfl, waitBoundExpiry_now waits waiting missing, fun errs => ?_, fun excludes => ?_⟩
    · rw [eq, if_pos errs]
      exact RunLate.of_await (lateError_spec runs)
    · rw [eq, if_neg excludes]
      exact RunExcludes.of_await (lateExclude_spec runs)

end Sys2Proof.Machine

/-! ### O48: pour words and their data -/

namespace Sys2Proof.Machine

set_option Elab.async false

/-! #### Counters on the way into the riser: R120, R156, R168, R266, R267 -/

/-! The counters of rings lie between those of links, contexts and sequencers and those of dies. -/

theorem irqCheck_cnt_above (s : State) (k : RingKind) (i : Nat) {j : Nat} (ring : ringCnt k i < 4096) (high : 0x38000 ≤ j) :
    cntGet (irqCheck s k i) j = cntGet s j := by
  unfold irqCheck
  split
  · dsimp only
    rw [cntGet_congr ((raiseMsix_fr _ _ _).cnt rfl), cntGet_bump, if_neg (by unfold cRing; omega)]
    rfl
  · rfl

theorem writeEntry_cnt_above (s : State) (k : RingKind) (i : Nat) (w0 w1 w2 : Word) (w3 : Nat) {j : Nat} (ring : ringCnt k i < 4096)
    (high : 0x38000 ≤ j) : cntGet (writeEntry s k i w0 w1 w2 w3) j = cntGet s j := by
  unfold writeEntry
  dsimp only
  rw [irqCheck_cnt_above _ _ _ ring high, cntGet_bump, if_neg (by unfold cRing; omega)]
  rfl

theorem raiseEvent_cnt_above (s : State) (code part a0 a1 : Nat) {j : Nat} (high : 0x38000 ≤ j) (other : j ≠ code) :
    cntGet (raiseEvent s code part a0 a1) j = cntGet s j := by
  have ring (e : Nat) (member : e ∈ List.range 16) (y : State) : cntGet (eventToRing y code part a0 a1 e) j = cntGet y j := by
    rw [List.mem_range] at member
    unfold eventToRing
    split
    · rfl
    · split
      · rfl
      · exact writeEntry_cnt_above _ _ _ _ _ _ _ (show 512 + e < 4096 by omega) high
  have rings (l : List Nat) (within : l ⊆ List.range 16) (y : State) :
      cntGet (forEach l y fun s e => eventToRing s code part a0 a1 e) j = cntGet y j := by
    induction l generalizing y with
    | nil => rfl
    | cons e l ih =>
      rw [forEach_cons, ih (fun a h => within (List.mem_cons_of_mem _ h)), ring e (within List.mem_cons_self)]
  have counted : cntGet (bump s code) j = cntGet s j := by
    rw [cntGet_bump, if_neg other]
  unfold raiseEvent
  dsimp only
  split
  · exact counted
  · rw [rings _ (List.Subset.refl _)]
    exact counted

/-- A counter that no frame of the spine's own moves on its way into the riser. -/
structure OffRiser (j : Nat) : Prop where
  apart : j < 0x34000 ∨ (0x38000 ≤ j ∧ j < 0x39000)
  links : ∀ l k, l < 2050 → k ∈ [4, 5, 13, 17, 18, 19, 20, 21, 22, 23] → j ≠ cLink l k
  ctxs : ∀ c, j ≠ cCtx c 4
  events : j ≠ 0x303 ∧ j ≠ 0x20A ∧ j ≠ 0x209

theorem offRiser_contract : OffRiser 0x504 where
  apart := by decide
  links l k _ _ := by unfold cLink; omega
  ctxs c := by unfold cCtx; omega
  events := by decide

theorem offRiser_words {n : Nat} (small : n < 64) : OffRiser (cSeq n 1) where
  apart := by unfold cSeq; omega
  links l k near member := by
    unfold cLink cSeq
    simp only [List.mem_cons, List.not_mem_nil, or_false] at member
    omega
  ctxs c := by unfold cCtx cSeq; omega
  events := by unfold cSeq; omega

theorem freeCredit_cntGet (s : State) (l tc n j : Nat) : cntGet (freeCredit s l tc n) j = cntGet s j :=
  cntGet_congr ((freeCredit_fr s l tc n).cnt rfl) j

theorem pushFrame_cntGet (s : State) (q : QFrame) (j : Nat) : cntGet (pushFrame s q) j = cntGet s j :=
  cntGet_congr ((pushFrame_fr s q).cnt rfl) j

/-- FRAMES_LAUNCHED of a die. -/
theorem offRiser_launched {d : Nat} (small : d < 4) : OffRiser (cDie d 8) where
  apart := by unfold cDie; omega
  links l k near member := by
    unfold cLink cDie
    simp only [List.mem_cons, List.not_mem_nil, or_false] at member
    omega
  ctxs c := by unfold cCtx cDie; omega
  events := by unfold cDie; omega

theorem minBy_mem {f : Nat → Nat} {l : List Nat} {x : Nat} (least : minBy f l = some x) : x ∈ l := by
  induction l generalizing x with
  | nil => exact nomatch least
  | cons y l ih =>
    unfold minBy at least
    split at least
    · exact Option.some.inj least ▸ List.mem_cons_self
    · next z found =>
      split at least
      · exact List.mem_cons_of_mem _ (ih (Option.some.inj least ▸ found))
      · exact Option.some.inj least ▸ List.mem_cons_self

/-- A frame leaves on a link of its spray set, or on a lateral one (R28, R136). -/
theorem chooseLink_near {s : State} {q : QFrame} {l : Nat} (near : ∀ l ∈ q.spray, l < 2050) (chosen : chooseLink s q = some l) :
    l < 2050 := by
  refine near l ?_
  unfold chooseLink at chosen
  dsimp only at chosen
  split at chosen
  · split at chosen
    · exact nomatch chosen
    · next some_ =>
      have within := Nat.mod_lt (q.f.entropy / 4 % 8) (List.length_pos_iff.mpr fun none_ => some_ (List.isEmpty_iff.mpr none_))
      rw [← Option.some.inj chosen, nth, List.getD_eq_getElem _ _ within]
      exact List.mem_of_mem_filter (List.getElem_mem within)
  · exact List.mem_of_mem_filter (minBy_mem chosen)

theorem detourLink_near {s : State} {q : QFrame} {l : Nat} (chosen : detourLink s q = some l) : l < 2050 := by
  unfold detourLink at chosen
  dsimp only at chosen
  split at chosen
  · exact nomatch chosen
  · generalize first_ : (if q.policy = 1 then 2048 else if q.policy = 2 then 2049 else 2048 + q.f.entropy % 2) = first at chosen
    have small : first < 2050 := by
      rw [← first_]
      split
      · decide
      · split
        · decide
        · omega
    split at chosen
    · exact Option.some.inj chosen ▸ small
    · have other : (if first = 2048 then 2049 else 2048) < 2050 := by split <;> decide
      generalize (if first = 2048 then 2049 else 2048) = second at chosen other
      split at chosen
      · exact Option.some.inj chosen ▸ other
      · exact nomatch chosen

theorem rtLink_lt (w : Word) : rtLink w < 2048 := by
  unfold rtLink fld
  omega

theorem sprayOf_lt {w : Word} {l : Nat} (member : l ∈ sprayOf w) : l < 2048 := by
  have small := rtLink_lt w
  unfold sprayOf at member
  obtain ⟨i, within, rfl⟩ := List.mem_map.mp member
  have := List.mem_range.mp (List.mem_of_mem_filter within)
  omega

theorem mcEnter_cntGet (s : State) {q : QFrame} (own : q.inLink = 0xFFF) (members : List Nat) (j : Nat) :
    cntGet (mcEnter s q members) j = cntGet s j := by
  unfold mcEnter
  dsimp only
  split
  · exact freeCredit_cntGet s _ _ _ _
  · split
    · exact freeCredit_cntGet s _ _ _ _
    · rfl

section Riser

variable {j : Nat} (off : OffRiser j)
include off

theorem OffRiser.bump_link (s : State) {l k : Nat} (near : l < 2050) (member : k ∈ [4, 5, 13, 17, 18, 19, 20, 21, 22, 23]) :
    cntGet (bump s (cLink l k)) j = cntGet s j := by
  rw [cntGet_bump, if_neg (off.links l k near member)]

theorem OffRiser.event (s : State) {code : Nat} (part a0 a1 : Nat) (other : j ≠ code) :
    cntGet (raiseEvent s code part a0 a1) j = cntGet s j := by
  rcases off.apart with low | ⟨high, -⟩
  · rw [raiseEvent_cnt _ _ _ _ _ _ low, if_neg other]
  · exact raiseEvent_cnt_above s code part a0 a1 high other

theorem deepFullNote_cntGet (s : State) (d : Nat) : cntGet (deepFullNote s d) j = cntGet s j := by
  unfold deepFullNote
  split
  · rfl
  · exact off.event _ _ _ _ off.events.1

theorem markCm_cntGet (s : State) {l : Nat} (near : l < 2050) (f : Frame) : cntGet (markCm s l f).1 j = cntGet s j := by
  have marked (y : State) : cntGet (bump y (cLink l 4)) j = cntGet y j := off.bump_link y near (by simp)
  have next : cntGet (nextMark s l).1 j = cntGet s j := cntGet_congr ((nextMark_fr s l).cnt rfl) j
  unfold markCm
  dsimp only
  split
  · rfl
  · split
    · rfl
    · split
      · exact marked s
      · split
        · exact (marked _).trans next
        · exact next

theorem putFrame_cntGet (s : State) {q : QFrame} (near : q.outLink < 2050) : cntGet (putFrame s q) j = cntGet s j := by
  unfold putFrame
  split
  · exact pushFrame_cntGet s q j
  · dsimp only
    split
    · rw [pushFrame_cntGet, off.bump_link _ near (by simp), freeCredit_cntGet]
      exact cntGet_congr ((deepMove_fr s _).cnt rfl) j
    · rw [pushFrame_cntGet, freeCredit_cntGet]
    · next dropped =>
      rw [off.bump_link _ near (by rcases tc_of_admission_drop dropped with h | h <;> simp [h]), freeCredit_cntGet]
    · rw [pushFrame_cntGet]
      split
      · exact deepFullNote_cntGet off _ _
      · rfl

theorem placeOn_cntGet (s : State) (q : QFrame) {l : Nat} (near : l < 2050) : cntGet (placeOn s q l).1 j = cntGet s j := by
  unfold placeOn
  split
  · dsimp only
    split
    · exact off.bump_link _ near (by simp)
    · rfl
  · exact (putFrame_cntGet off _ near).trans (markCm_cntGet off _ near _)

theorem deliverCore_cntGet (s : State) {q : QFrame} (near : q.primary < 2050) (sprayed : ∀ l ∈ q.spray, l < 2050) :
    cntGet (deliverCore s q).1 j = cntGet s j := by
  unfold deliverCore
  split
  · next chosen => exact placeOn_cntGet off _ _ (chooseLink_near sprayed chosen)
  · split
    · dsimp only
      split
      · exact off.bump_link _ near (by simp)
      · rfl
    · split
      · exact off.event _ _ _ _ off.events.2.1
      · split
        · next chosen => exact (placeOn_cntGet off _ _ (detourLink_near chosen)).trans (off.bump_link _ near (by simp))
        · exact off.event _ _ _ _ off.events.2.2

theorem routed_cntGet (s : State) (q : QFrame) (w : Word) : cntGet (deliverCore s (withRoute q w)).1 j = cntGet s j :=
  deliverCore_cntGet off s (Nat.lt_trans (rtLink_lt w) (by decide)) fun _ member => Nat.lt_trans (sprayOf_lt member) (by decide)

theorem routeFrame_cntGet (s : State) {q : QFrame} (own : q.inLink = 0xFFF) (p : Nat) (useFlow : Bool) :
    cntGet (routeFrame s q p useFlow).1 j = cntGet s j := by
  unfold routeFrame
  dsimp only
  split
  · rfl
  · split
    · rfl
    · split
      · split
        · rfl
        · exact routed_cntGet off _ _ _
      · exact routed_cntGet off _ _ _

theorem ringSend_cntGet (s : State) (q : QFrame) {l : Nat} (near : l < 2050) : cntGet (ringSend s q l).1 j = cntGet s j := by
  unfold ringSend
  split
  · dsimp only
    rw [cntGet_bump, if_neg (off.ctxs _)]
  · split
    · dsimp only
      split
      · rw [cntGet_bump, if_neg (off.ctxs _)]
      · exact off.bump_link _ near (by simp)
    · exact placeOn_cntGet off _ _ near

theorem originate_cntGet (s : State) (die : Nat) (f : Frame) : cntGet (originate s die f).1 j = cntGet s j := by
  have own : cntGet (ownFrame s die f).1 j = cntGet s j := rfl
  unfold originate
  dsimp only
  split
  · split
    · exact (mcEnter_cntGet _ rfl _ _).trans own
    · exact own
  · split
    · exact own
    · split
      · next lateral =>
        exact (ringSend_cntGet off _ _ (by rcases ringLink_lateral lateral with h | h <;> omega)).trans own
      · exact (routeFrame_cntGet off _ rfl _ _).trans own

/-! #### Counters as an invocation ends: R256, R273 to R279 -/

theorem collFrame_cntGet (s : State) (c die : Nat) (mc : Bool) (dest chunk : Nat) (ce : Bool) (f : Frame) :
    cntGet (collFrame s c die mc dest chunk ce f).1 j = cntGet s j := by
  unfold collFrame
  split
  · rw [cntGet_bump, if_neg]
    have := off.apart
    unfold cMod
    omega
  · exact originate_cntGet off _ _ _

variable (calm : j ≠ 0x603)
include calm

theorem noteArrivals_cntGet (s : State) (c : Nat) : cntGet (noteArrivals s c) j = cntGet s j := by
  unfold noteArrivals
  dsimp only
  split
  · rfl
  · split
    · unfold noteSuspects
      dsimp only
      rw [forEach_cnt _ _ _ _ fun y m => off.event y _ _ _ calm]
      rfl
    · rfl

theorem endInvocation_cntGet (s : State) (c : Nat) (early : Option (Nat × Nat × Nat)) :
    cntGet (endInvocation s c early) j = cntGet s j := by
  unfold endInvocation
  dsimp only
  rw [cntGet_congr ((modCtx_fr _ _ _).cnt rfl), noteArrivals_cntGet off calm]
  split
  · exact collFrame_cntGet off ..
  · split
    · exact collFrame_cntGet off ..
    · rfl

theorem cutRun_cntGet (s : State) (c status lastRun eid : Nat) : cntGet (cutRun s c status lastRun eid) j = cntGet s j := by
  unfold cutRun
  dsimp only
  rw [cntGet_congr ((modPlan_fr _ _ _).cnt rfl), endInvocation_cntGet off calm, cntGet_congr ((missedMembers_fr _ _ _).cnt rfl),
    cntGet_congr ((stopSeqs_fr _ _).cnt rfl)]

theorem endRun_cntGet (s : State) (c : Nat) : cntGet (endRun s c) j = cntGet s j := by
  unfold endRun
  dsimp only
  rw [cntGet_congr ((nextRun_fr _ _).cnt rfl), cntGet_congr ((modPlan_fr _ _ _).cnt rfl), endInvocation_cntGet off calm,
    cntGet_congr ((missedMembers_fr _ _ _).cnt rfl)]

end Riser

end Sys2Proof.Machine

/-! #### What the units of a word do: R228 -/

namespace Sys2Proof.Machine

set_option Elab.async false

/-- What the units of a word leave: plan memory, the sequencers but for the data they wait for, and the counters below the rings'. -/
structure Acts (s t : State) : Prop where
  memory : t.plan.memory = s.plan.memory
  seqrs : ∀ m, seqr t m = { seqr s m with memWait := (seqr t m).memWait }
  counts : ∀ j, j < 0x34000 → cntGet t j = cntGet s j

namespace Acts

variable {s t u : State}

theorem refl (s : State) : Acts s s := ⟨rfl, fun _ => rfl, fun _ _ => rfl⟩

theorem trans (h : Acts s t) (g : Acts t u) : Acts s u where
  memory := g.memory.trans h.memory
  seqrs m := by
    have own := g.seqrs m
    rw [h.seqrs m] at own
    exact own
  counts j low := (g.counts j low).trans (h.counts j low)

theorem ite {p : Prop} [Decidable p] (h : Acts s t) (g : Acts s u) : Acts s (if p then t else u) := by
  split
  · exact h
  · exact g

theorem of {m : Nat} (h : Fr m s t) (plan : m.testBit 10 = false := by rfl) (cnt : m.testBit 16 = false := by rfl) : Acts s t where
  memory := by rw [h.plan plan]
  seqrs n := by
    unfold seqr
    rw [h.plan plan]
  counts j _ := cntGet_congr (h.cnt cnt) j

theorem setWin (s : State) (c i : Nat) (w : WinRun) : Acts s (setWin s c i w) := ⟨rfl, fun _ => rfl, fun _ _ => rfl⟩

theorem modWin (s : State) (c i : Nat) (f : WinRun → WinRun) : Acts s (modWin s c i f) := ⟨rfl, fun _ => rfl, fun _ _ => rfl⟩

theorem forEach {α : Type} (l : List α) (f : State → α → State) (acts : ∀ y a, Acts y (f y a)) (s : State) :
    Acts s (Machine.forEach l s f) := by
  induction l generalizing s with
  | nil => exact refl s
  | cons a l ih => exact (acts s a).trans (ih (f s a))

theorem writeBytes (s : State) (base off : Nat) (data : List Byte) : Acts s (writeBytes s base off data) := by
  refine forEach _ _ (fun y i => ⟨?_, fun m => ?_, fun j low => ?_⟩) s
  · rw [(setRegionLine_fr ..).plan rfl]
  · unfold seqr
    rw [(setRegionLine_fr ..).plan rfl]
  · unfold setRegionLine writeLine
    split
    · rw [cntGet_bump, if_neg (by unfold cMod; omega)]
    · exact cntGet_congr ((noteWritten_fr y _ _).cnt rfl) j

theorem waits (s : State) (n : Nat) (m : MemWait) : Acts s (modSeqr s n fun q => { q with memWait := q.memWait ++ [m] }) where
  memory := rfl
  seqrs k := by
    by_cases here : k = n
    · rw [here, seqr_modSeqr]
    · rw [show seqr (modSeqr s n fun q => { q with memWait := q.memWait ++ [m] }) k = seqr s k from
        tget_tset_other _ _ _ _ _ _ here]
  counts _ _ := rfl

end Acts

theorem accUpdate_acts (s : State) (c i : Nat) : Acts s (accUpdate s c i) := by
  unfold accUpdate
  dsimp only
  split
  · exact .refl s
  · exact ((Acts.of (advanceOnce_fr s c)).trans (.of (stateBuf_fr _ c i))).trans (.setWin _ _ _ _)

theorem convertWin_acts (s : State) (c i stage fmt mode : Nat) : Acts s (convertWin s c i stage fmt mode) :=
  (Acts.ite (.refl s) (.of (freeBytes_fr s _))).trans (.setWin _ _ _ _)

theorem memStore_acts (s : State) (c i claim off : Nat) : Acts s (memStore s c i claim off) := by
  unfold memStore
  dsimp only
  split
  · exact .refl s
  · exact (Acts.of (outLines_fr s c i)).trans (.writeBytes _ _ _ _)

theorem memStoreState_acts (s : State) (c i : Nat) : Acts s (memStoreState s c i) := by
  unfold memStoreState
  dsimp only
  split
  · exact .modWin _ _ _ _
  · split
    · exact .refl s
    · exact (Acts.of (stateBuf_fr s c i)).trans (.forEach _ _ (fun y k => .writeBytes y _ _ _) _)

/-! ##### The slots of a word, in turn -/

/-- RECV. -/
def recvSlot (c : Nat) (w : BitVec 256) (s : State) : State :=
  if pwEn w 0 then modWin s c (recvWin w) fun v => { v with st := if recvOp w = 1 then 1 else 2 } else s

/-- ACC. -/
def accSlot (c : Nat) (w : BitVec 256) (s : State) : State :=
  if !pwEn w 1 then s
  else if accOp w = 1 then
    modWin s c (accWin w) fun v => accSpanAdd (ctxOf s c) (window4 (planOf s c) (accWin w)) v (accMember w) (accSpan w)
  else if accOp w = 2 then modWin s c (accWin w) fun v => accCombine (ctxOf s c) (window4 (planOf s c) (accWin w)) v
  else accUpdate s c (accWin w)

/-- CVT. -/
def cvtSlot (c : Nat) (w : BitVec 256) (s : State) : State :=
  if pwEn w 2 then convertWin s c (cvtWin w) (cvtStage w) (cvtFmt w) (cvtMode w) else s

/-- A load of a word waits for its data. -/
def loadWait (c t : Nat) (w : BitVec 256) (sample : Option (List Word)) : MemWait :=
  { ctx := c, win := memWin w, op := memOp w, claim := memClaim w, off := memOff w, issued := t, sample := sample }

/-- MEM. -/
def memSlot (n c t : Nat) (w : BitVec 256) (sample : Option (List Word)) (s : State) : State :=
  if !pwEn w 3 then s
  else if memOp w = 1 then modSeqr s n fun q => { q with memWait := q.memWait ++ [loadWait c t w sample] }
  else if memOp w = 2 then memStore s c (memWin w) (memClaim w) (memOff w)
  else if memOp w = 3 then
    if (winGeo s c (memWin w)).isNone then stateRange s c (memWin w)
    else modSeqr s n fun q => { q with memWait := q.memWait ++ [loadWait c t w sample] }
  else memStoreState s c (memWin w)

/-- SYNC. -/
def syncSlot (n c : Nat) (w : BitVec 256) (s : State) : State :=
  if pwEn w 5 && syncOp w == 2 then
    forEach (winIds (planOf s c)) s fun s i =>
      if wnCru (window4 (planOf s c) i) = n ∧ (win (planOf s c) i).st = 1 then modWin s c i fun v => { v with st := 2 }
      else s
  else s

theorem wordActs_eq (s : State) (n c t : Nat) {w : BitVec 256} (sample : Option (List Word)) (quiet : pwEn w 4 = false) :
    wordActs s n c t w sample = syncSlot n c w (memSlot n c t w sample (cvtSlot c w (accSlot c w (recvSlot c w s)))) := by
  have sent (y : State) : (if pwEn w 4 = true then sendSlot y n c w else y) = y := if_neg (by simp [quiet])
  unfold wordActs
  dsimp only
  rw [sent]
  rfl

theorem syncSlot_acts (n c : Nat) (w : BitVec 256) (s : State) : Acts s (syncSlot n c w s) :=
  .ite (.forEach _ _ (fun _ _ => .ite (.modWin _ _ _ _) (.refl _)) _) (.refl _)

theorem memSlot_acts (n c t : Nat) (w : BitVec 256) (sample : Option (List Word)) (s : State) : Acts s (memSlot n c t w sample s) :=
  .ite (.refl _) (.ite (.waits _ _ _) (.ite (memStore_acts _ _ _ _ _)
    (.ite (.ite (.modWin _ _ _ _) (.waits _ _ _)) (memStoreState_acts _ _ _))))

theorem cvtSlot_acts (c : Nat) (w : BitVec 256) (s : State) : Acts s (cvtSlot c w s) :=
  .ite (convertWin_acts _ _ _ _ _ _) (.refl _)

theorem accSlot_acts (c : Nat) (w : BitVec 256) (s : State) : Acts s (accSlot c w s) :=
  .ite (.refl _) (.ite (.modWin _ _ _ _) (.ite (.modWin _ _ _ _) (accUpdate_acts _ _ _)))

theorem recvSlot_acts (c : Nat) (w : BitVec 256) (s : State) : Acts s (recvSlot c w s) :=
  .ite (.modWin _ _ _ _) (.refl _)

/-- A word without a SEND. -/
theorem wordActs_acts (s : State) (n c t : Nat) {w : BitVec 256} (sample : Option (List Word)) (quiet : pwEn w 4 = false) :
    Acts s (wordActs s n c t w sample) := by
  rw [wordActs_eq s n c t sample quiet]
  exact ((((recvSlot_acts c w s).trans (accSlot_acts c w _)).trans (cvtSlot_acts c w _)).trans (memSlot_acts n c t w sample _)).trans
    (syncSlot_acts n c w _)

/-! ##### Words of one unit -/

section One

variable (s : State) (n c t : Nat) {w : BitVec 256} (sample : Option (List Word))

theorem wordActs_recv (on : pwEn w 0 = true) (alone : ∀ u, 0 < u → u < 6 → pwEn w u = false) :
    wordActs s n c t w sample = modWin s c (recvWin w) fun v => { v with st := if recvOp w = 1 then 1 else 2 } := by
  unfold wordActs
  simp [on, alone 1, alone 2, alone 3, alone 4, alone 5]

theorem wordActs_acc (on : pwEn w 1 = true) (adds : accOp w = 1) (alone : ∀ u, u ≠ 1 → u < 6 → pwEn w u = false) :
    wordActs s n c t w sample = modWin s c (accWin w) fun v =>
      accSpanAdd (ctxOf s c) (window4 (planOf s c) (accWin w)) v (accMember w) (accSpan w) := by
  unfold wordActs
  simp [on, adds, alone 0, alone 2, alone 3, alone 4, alone 5]

theorem wordActs_cvt (on : pwEn w 2 = true) (alone : ∀ u, u ≠ 2 → u < 6 → pwEn w u = false) :
    wordActs s n c t w sample = convertWin s c (cvtWin w) (cvtStage w) (cvtFmt w) (cvtMode w) := by
  unfold wordActs
  simp [on, alone 0, alone 1, alone 3, alone 4, alone 5]

theorem wordActs_load (on : pwEn w 3 = true) (loads : memOp w = 1) (alone : ∀ u, u ≠ 3 → u < 6 → pwEn w u = false) :
    wordActs s n c t w sample = modSeqr s n fun q => { q with memWait := q.memWait ++ [loadWait c t w sample] } := by
  unfold wordActs loadWait
  simp [on, loads, alone 0, alone 1, alone 2, alone 4, alone 5]

end One

theorem convertWin_fmt (s : State) (c i stage fmt mode : Nat) : (win (planOf (convertWin s c i stage fmt mode) c) i).outFmt =
    some (if stage = 0 then aOut (ctxArith (ctxOf s c)) else fmt) := by
  unfold convertWin
  dsimp only
  rw [planOf_setWin, win_tset_same]

/-! #### The issue of a word: R233, R234, R395 -/

/-- A word starts a load whose data the sequencer will wait for. -/
def startsLoad (s : State) (n : Nat) (w : BitVec 256) : Bool :=
  pwEn w 3 && (memOp w == 1 || (memOp w == 3 && (winGeo s (seqr s n).ctx (memWin w)).isSome))

/-- The record of a word that issues, as R396 has it. -/
def issueRecord (s : State) (n t : Nat) (w : BitVec 256) : List Word :=
  wordRecord s n (seqr s n).ctx (seqr s n).phase t (seqr s n) w

/-- The sampler has seen the word. -/
def sampledWord (s : State) (n t : Nat) (w : BitVec 256) : State :=
  if (sampleWord s (seqDie n) (seqr s n).ctx).2 && !startsLoad s n w then
    sampleRecord (sampleWord s (seqDie n) (seqr s n).ctx).1 (seqDie n) 2 (issueRecord s n t w)
  else (sampleWord s (seqDie n) (seqr s n).ctx).1

/-- The word is counted. -/
def countedWord (s : State) (n t : Nat) (w : BitVec 256) : State :=
  if hasCrucibles (bump (sampledWord s n t w) (cSeq n 1)) then
    bumpN (bump (sampledWord s n t w) (cSeq n 1)) (cSeq n 3)
      ((if pwEn w 1 then nth 0 (wordCycles s (seqr s n).ctx w) 1 else 0) + (if pwEn w 2 then nth 0 (wordCycles s (seqr s n).ctx w) 2 else 0))
  else bump (sampledWord s n t w) (cSeq n 1)

/-- The record that a load of the word carries until its data arrive. -/
def loadSample (s : State) (n t : Nat) (w : BitVec 256) : Option (List Word) :=
  if (sampleWord s (seqDie n) (seqr s n).ctx).2 && startsLoad s n w then some (issueRecord s n t w) else none

/-- The slots of the word have acted. -/
def actedWord (s : State) (n t : Nat) (w : BitVec 256) : State :=
  wordActs (countedWord s n t w) n (seqr s n).ctx t w (loadSample s n t w)

/-- The ends of occupancy after a word. -/
def occupied (s : State) (n t : Nat) (w : BitVec 256) : List Nat :=
  (List.range 6).map fun u =>
    if pwEn w u then t + nth 0 (wordCycles s (seqr s n).ctx w) u * cycT (actedWord s n t w) n
    else nth 0 (seqr (actedWord s n t w) n).busyUntil u

theorem issueWord_eq (s : State) (n t : Nat) (w : BitVec 256) : issueWord s n t w [] =
    (let y := modSeqr (actedWord s n t w) n fun r =>
        { r with last := (seqr s n).nextAddr, busyUntil := occupied s n t w, blocked := false }
     if pwEn w 5 then modSeqr y n fun r => { r with endAt := some (syncOp w, maxList (occupied s n t w)) }
     else modSeqr y n fun r => { r with
       nextAddr := (seqr s n).nextAddr + 1
       nextAt := t + pwDelta (planWord (actedWord s n t w) n ((seqr s n).nextAddr + 1)) * cycT y n
       declared := (seqr s n).declared + pwDelta (planWord (actedWord s n t w) n ((seqr s n).nextAddr + 1)) }) := rfl

theorem sampleWord_cntGet (s : State) (d ctx j : Nat) : cntGet (sampleWord s d ctx).1 j = cntGet s j := by
  unfold sampleWord
  dsimp only
  split
  · rfl
  · split <;> rfl

theorem sampleRecord_cntGet (s : State) (d ctr : Nat) (r : List Word) {j : Nat} (low : j < 0x34000) :
    cntGet (sampleRecord s d ctr r) j = cntGet s j := by
  unfold sampleRecord
  dsimp only
  split
  · rw [cntGet_bump, if_neg (by unfold cDie; omega)]
  · rw [cntGet_bump, if_neg (by unfold cDie; omega)]
    rfl

theorem sampledWord_fr (s : State) (n t : Nat) (w : BitVec 256) : Fr 65536 s (sampledWord s n t w) :=
  .ite (.step (sampleRecord_fr _ _ _ _) (sampleWord_fr _ _ _)) (sampleWord_fr _ _ _)

theorem countedWord_fr (s : State) (n t : Nat) (w : BitVec 256) : Fr 65536 s (countedWord s n t w) :=
  .ite (.step (bumpN_fr _ _ _) (.step (bump_fr _ _) (sampledWord_fr _ _ _ _))) (.step (bump_fr _ _) (sampledWord_fr _ _ _ _))

theorem countedWord_words (s : State) (n t : Nat) (w : BitVec 256) (small : n < 64) :
    cntGet (countedWord s n t w) (cSeq n 1) = (cntGet s (cSeq n 1) + 1) % 2 ^ 64 := by
  have low : cSeq n 1 < 0x34000 := by unfold cSeq; omega
  have sampled : cntGet (sampledWord s n t w) (cSeq n 1) = cntGet s (cSeq n 1) := by
    unfold sampledWord
    split
    · rw [sampleRecord_cntGet _ _ _ _ low, sampleWord_cntGet]
    · rw [sampleWord_cntGet]
  have counted : cntGet (bump (sampledWord s n t w) (cSeq n 1)) (cSeq n 1) = (cntGet s (cSeq n 1) + 1) % 2 ^ 64 := by
    rw [cntGet_bump, if_pos rfl, sampled]
  unfold countedWord
  split
  · rw [cntGet_bumpN, if_neg (by unfold cSeq; omega), counted]
  · exact counted

theorem actedWord_fr (s : State) (n t : Nat) (w : BitVec 256) : Fr 89285 s (actedWord s n t w) :=
  .step (wordActs_fr _ _ _ _ _ _) ((countedWord_fr s n t w).mono)

theorem actedWord_words (s : State) (n t : Nat) {w : BitVec 256} (small : n < 64) (quiet : pwEn w 4 = false) :
    cntGet (actedWord s n t w) (cSeq n 1) = (cntGet s (cSeq n 1) + 1) % 2 ^ 64 := by
  unfold actedWord
  rw [(wordActs_acts _ n _ t _ quiet).counts _ (by unfold cSeq; omega), countedWord_words s n t w small]

theorem actedWord_seqr (s : State) (n t m : Nat) {w : BitVec 256} (quiet : pwEn w 4 = false) :
    seqr (actedWord s n t w) m = { seqr s m with memWait := (seqr (actedWord s n t w) m).memWait } := by
  have acts := (wordActs_acts (countedWord s n t w) n (seqr s n).ctx t (loadSample s n t w) quiet).seqrs m
  have counted : seqr (countedWord s n t w) m = seqr s m := by
    unfold seqr
    rw [(countedWord_fr s n t w).plan rfl]
  rw [counted] at acts
  exact acts

theorem actedWord_planWord (s : State) (n t m a : Nat) {w : BitVec 256} (quiet : pwEn w 4 = false) :
    planWord (actedWord s n t w) m a = planWord s m a := by
  unfold planWord actedWord
  rw [(wordActs_acts _ n _ t _ quiet).memory, (countedWord_fr s n t w).plan rfl]

end Sys2Proof.Machine

/-! ##### The sequencer after a word -/

namespace Sys2Proof.Machine

set_option Elab.async false

theorem seqr_modSeqr_other (s : State) {n m : Nat} (f : Seqr → Seqr) (other : m ≠ n) : seqr (modSeqr s n f) m = seqr s m :=
  tget_tset_other _ _ _ _ _ _ other

theorem issueWord_plans (s : State) (n t : Nat) (w : BitVec 256) :
    (issueWord s n t w []).plan.plans = (actedWord s n t w).plan.plans := by
  rw [issueWord_eq]
  dsimp only
  split <;> rfl

theorem issueWord_words (s : State) (n t : Nat) {w : BitVec 256} (small : n < 64) (quiet : pwEn w 4 = false) :
    cntGet (issueWord s n t w []) (cSeq n 1) = (cntGet s (cSeq n 1) + 1) % 2 ^ 64 := by
  rw [← actedWord_words s n t small quiet, issueWord_eq]
  dsimp only
  split <;> rfl

theorem issueWord_other (s : State) {n m : Nat} (t : Nat) {w : BitVec 256} (quiet : pwEn w 4 = false) (other : m ≠ n) :
    (seqr (issueWord s n t w []) m).endAt = (seqr s m).endAt := by
  have acted := congrArg Seqr.endAt (actedWord_seqr s n t m quiet)
  rw [issueWord_eq]
  dsimp only
  split
  · rw [seqr_modSeqr_other _ _ other, seqr_modSeqr_other _ _ other]
    exact acted
  · rw [seqr_modSeqr_other _ _ other, seqr_modSeqr_other _ _ other]
    exact acted

/-- A word that does not end its phase. -/
theorem issueWord_goes (s : State) (n t : Nat) {w : BitVec 256} (quiet : pwEn w 4 = false) (goes : pwEn w 5 = false) :
    (seqr (issueWord s n t w []) n).nextAddr = (seqr s n).nextAddr + 1 ∧
    (seqr (issueWord s n t w []) n).last = (seqr s n).nextAddr ∧
    (seqr (issueWord s n t w []) n).endAt = (seqr s n).endAt ∧
    (seqr (issueWord s n t w []) n).nextAt = t + pwDelta (planWord s n ((seqr s n).nextAddr + 1)) * cycT s n ∧
    (seqr (issueWord s n t w []) n).memWait = (seqr (actedWord s n t w) n).memWait := by
  have acted := congrArg Seqr.endAt (actedWord_seqr s n t n quiet)
  have cycle (y : Seqr → Seqr) : cycT (modSeqr (actedWord s n t w) n y) n = cycT s n := by
    unfold cycT coreT
    rw [(modSeqr_fr _ _ _).hlt rfl, (actedWord_fr s n t w).hlt rfl]
  rw [issueWord_eq]
  dsimp only
  rw [if_neg (by simp [goes]), seqr_modSeqr, cycle, actedWord_planWord s n t n _ quiet]
  dsimp only
  rw [seqr_modSeqr]
  exact ⟨rfl, rfl, acted, rfl, rfl⟩

/-- A word that ends its phase. -/
theorem issueWord_ends (s : State) (n t : Nat) {w : BitVec 256} (quiet : pwEn w 4 = false) (ends : pwEn w 5 = true) :
    (seqr (issueWord s n t w []) n).nextAddr = (seqr s n).nextAddr ∧
    (seqr (issueWord s n t w []) n).last = (seqr s n).nextAddr ∧
    (seqr (issueWord s n t w []) n).endAt.isSome = true := by
  have acted := congrArg Seqr.nextAddr (actedWord_seqr s n t n quiet)
  rw [issueWord_eq]
  dsimp only
  rw [if_pos ends, seqr_modSeqr]
  dsimp only
  rw [seqr_modSeqr]
  exact ⟨acted, rfl, rfl⟩

/-! ##### Phases that end with the word: R228 -/

theorem endRun_seqs (s : State) (c : Nat) : (endRun s c).plan.seqs = s.plan.seqs := by
  unfold endRun
  show (endInvocation _ _ _).plan.seqs = _
  rw [(endInvocation_fr _ _ _).plan rfl]
  rfl

theorem endPhase_seqs (s : State) (n op : Nat) : (endPhase s n op).plan.seqs =
    (setSeqr s n { seqr s n with busy := false, endAt := none }).plan.seqs := by
  unfold endPhase
  dsimp only
  split
  · split
    · rw [endRun_seqs]
      rfl
    · rfl
  · rfl

theorem endPhase_words (s : State) (m op : Nat) {n : Nat} (small : n < 64) :
    cntGet (endPhase s m op) (cSeq n 1) = cntGet s (cSeq n 1) := by
  unfold endPhase
  dsimp only
  have counted (y : State) : cntGet (bump y (cSeq m 6)) (cSeq n 1) = cntGet y (cSeq n 1) := by
    rw [cntGet_bump, if_neg (by unfold cSeq; omega)]
  split
  · split
    · rw [endRun_cntGet (offRiser_words small) (by unfold cSeq; omega), counted]
      rfl
    · rw [counted]
      rfl
  · rfl

/-- Where only one sequencer may have a phase to end, its place in the plan's memory stays. -/
def OneEnds (n a b : Nat) (y : State) : Prop :=
  (∀ m, m ≠ n → (seqr y m).endAt = none) ∧ (seqr y n).last = a ∧ (seqr y n).nextAddr = b ∧
    ((seqr y n).endAt.isSome = true ∨ (seqr y n).busy = false)

theorem OneEnds.endPhase {n a b op : Nat} {y : State} (h : OneEnds n a b y) : OneEnds n a b (endPhase y n op) := by
  obtain ⟨others, last, next, -⟩ := h
  have own (m : Nat) : seqr (Machine.endPhase y n op) m = seqr (setSeqr y n { seqr y n with busy := false, endAt := none }) m := by
    unfold seqr
    rw [endPhase_seqs]
    rfl
  refine ⟨fun m other => ?_, ?_, ?_, .inr ?_⟩
  · rw [own]
    exact (congrArg Seqr.endAt (tget_tset_other _ _ _ _ _ _ other)).trans (others m other)
  all_goals rw [own, seqr_setSeqr]
  · exact last
  · exact next

theorem endPhasesDue_oneEnds {n a b : Nat} {s : State} (h : OneEnds n a b s) : OneEnds n a b (endPhasesDue s) := by
  have each (l : List Nat) (y : State) (h : OneEnds n a b y) : OneEnds n a b (forEach l y fun s n =>
      match (seqr s n).endAt with
      | some (op, t) => if t ≤ s.now then endPhase s n op else s
      | none => s) := by
    induction l generalizing y with
    | nil => exact h
    | cons m l ih =>
      rw [forEach_cons]
      refine ih _ ?_
      split
      · next op t ends =>
        split
        · by_cases here : m = n
          · rw [here]
            exact h.endPhase
          · rw [h.1 m here] at ends
            contradiction
        · exact h
      · exact h
  exact each _ s h

theorem endPhasesDue_words (s : State) {n : Nat} (small : n < 64) :
    cntGet (endPhasesDue s) (cSeq n 1) = cntGet s (cSeq n 1) := by
  unfold endPhasesDue
  refine forEach_cnt _ _ _ _ fun y m => ?_
  split
  · split
    · exact endPhase_words _ _ _ small
    · rfl
  · rfl

end Sys2Proof.Machine

/-! ##### The next word of a sequencer: R233, R234, R246 -/

namespace Sys2Proof.Machine

set_option Elab.async false

section Word

variable {s : State} {n : Nat} {ecc : Bool} {l : List EccError}

theorem wordIssue_stays (off : (seqr s n).busy = false ∨ (seqr s n).endAt.isSome = true) : wordIssue n ecc l s = s := by
  unfold wordIssue
  dsimp only
  rw [if_pos (by simpa using off)]

variable {w : BitVec 256} (at_ : planWord s n (seqr s n).nextAddr = w) (busy : (seqr s n).busy = true)
  (runs : (seqr s n).endAt = none) (free : (seqr s n).blocked = false)
include at_ busy runs free

/-- The word is judged at its cycle. -/
theorem wordIssue_eq : wordIssue n ecc l s =
    if !ecc && waitsData (seqr s n) w then await s (seqr s n).nextAt 0
    else if !ecc && !sendTaken (await s (seqr s n).nextAt 0) n (seqr s n).ctx w then
      setSeqr (await s (seqr s n).nextAt 0) n { seqr s n with blocked := true }
    else match wordBreach (await s (seqr s n).nextAt 0) n (seqr s n).ctx (seqr s n).phase (seqr s n).nextAt w ecc with
      | some b => planContract (await s (seqr s n).nextAt 0) n b.1 b.2
      | none => endPhasesDue (issueWord (await s (seqr s n).nextAt 0) n (seqr s n).nextAt w l) := by
  unfold wordIssue
  dsimp only
  rw [if_neg (by simp [busy, runs]), show planWord (await s (seqr s n).nextAt 0) n (seqr s n).nextAddr = w from at_, free,
    if_neg (show ¬(false = true) by decide)] <;> rfl

theorem wordIssue_waits (sound : ecc = false) (waits : waitsData (seqr s n) w = true) :
    wordIssue n ecc l s = await s (seqr s n).nextAt 0 := by
  rw [wordIssue_eq at_ busy runs free, if_pos (by simp [sound, waits])]

theorem wordIssue_blocked (sound : ecc = false) (comes : waitsData (seqr s n) w = false)
    (full : sendTaken (await s (seqr s n).nextAt 0) n (seqr s n).ctx w = false) :
    wordIssue n ecc l s = setSeqr (await s (seqr s n).nextAt 0) n { seqr s n with blocked := true } := by
  rw [wordIssue_eq at_ busy runs free, if_neg (by simp [comes]), if_pos (by simp [sound, full])]

variable (goes : ecc = true ∨ (waitsData (seqr s n) w = false ∧ sendTaken (await s (seqr s n).nextAt 0) n (seqr s n).ctx w = true))
include goes

theorem wordIssue_breach {b : Nat × Nat}
    (breach : wordBreach (await s (seqr s n).nextAt 0) n (seqr s n).ctx (seqr s n).phase (seqr s n).nextAt w ecc = some b) :
    wordIssue n ecc l s = planContract (await s (seqr s n).nextAt 0) n b.1 b.2 := by
  rw [wordIssue_eq at_ busy runs free, if_neg (by rcases goes with h | ⟨h, -⟩ <;> simp [h]),
    if_neg (by rcases goes with h | ⟨-, h⟩ <;> simp [h]), breach]

theorem wordIssue_issues
    (fine : wordBreach (await s (seqr s n).nextAt 0) n (seqr s n).ctx (seqr s n).phase (seqr s n).nextAt w ecc = none) :
    wordIssue n ecc l s = endPhasesDue (issueWord (await s (seqr s n).nextAt 0) n (seqr s n).nextAt w l) := by
  rw [wordIssue_eq at_ busy runs free, if_neg (by rcases goes with h | ⟨h, -⟩ <;> simp [h]),
    if_neg (by rcases goes with h | ⟨-, h⟩ <;> simp [h]), fine]

end Word

/-! ##### A breach of the contract: R247, R251 -/

/-- What PLAN_CU_FAULT holds of a breach. -/
def faultWord (s : State) (n kind unit : Nat) : Word :=
  mkWord [at_ 63 1, at_ 60 kind, at_ 48 (seqr s n).ctx, at_ 36 (seqr s n).phase, at_ 20 (seqr s n).nextAddr, at_ 16 unit]

theorem faultWord_aligned (s : State) (n kind unit : Nat) : (faultWord s n kind unit).toNat % 2 ^ 16 = 0 := by
  unfold faultWord mkWord at_
  simp only [List.foldl_cons, List.foldl_nil, Nat.shiftLeft_eq, BitVec.toNat_ofNat]
  omega

theorem regInfo_planFault (v : Variant) (bl2 : Bool) {n : Nat} (small : n < 64) :
    regInfo v bl2 (oPLAN_CU_FAULT n) = { w1c := mask 63 63, hw := mask 63 16 } := by
  have high : ¬(oPLAN_CU_FAULT n < 0x1800000) ∧ oPLAN_CU_FAULT n < 0x3800000 := by unfold oPLAN_CU_FAULT; omega
  unfold regInfo
  rw [if_neg (by omega), if_neg (by omega), if_neg (by omega), if_neg (by omega), if_pos high.2]
  unfold regInfoHigh
  unfold oPLAN_CU_FAULT oTBL_CFG oTBL_SEED oTBL_LOCK oCRU_POOL oPLAN_CFG
  rw [if_neg (by omega), if_neg (by omega), if_neg (by omega), if_neg (by omega), if_neg (by omega), if_pos (by omega)]

theorem planFault_holds (s : State) {n : Nat} (small : n < 64) {v : Word} (aligned : v.toNat % 2 ^ 16 = 0) :
    getR (putR s (oPLAN_CU_FAULT n) v) (oPLAN_CU_FAULT n) = v := by
  have info := regInfo_planFault s.variant s.boot.strapBl2 small
  refine getR_putR_within (by rw [info]) ?_
  rw [info, show regBits { w1c := mask 63 63, hw := mask 63 16 } = 2 ^ 64 - 2 ^ 16 from rfl]
  have shifted : v.toNat = (v.toNat / 2 ^ 16) <<< 16 := by
    rw [Nat.shiftLeft_eq]
    omega
  have within : v.toNat / 2 ^ 16 < 2 ^ 48 := by
    have := v.isLt
    omega
  rw [shifted, show 2 ^ 64 - 2 ^ 16 = (2 ^ 48 - 1) <<< 16 from rfl, ← Nat.shiftLeft_and_distrib, Nat.and_two_pow_sub_one_eq_mod,
    Nat.mod_eq_of_lt within]

theorem planContract_spec (s : State) {n : Nat} (small : n < 64) (kind unit : Nat) :
    (planOf (planContract s n kind unit) (seqr s n).ctx).state = 5 ∧
    (planOf (planContract s n kind unit) (seqr s n).ctx).running = false ∧
    (planOf (planContract s n kind unit) (seqr s n).ctx).lastRun = 5 ∧
    (planOf (planContract s n kind unit) (seqr s n).ctx).win = (planOf s (seqr s n).ctx).win ∧
    cntGet (planContract s n kind unit) 0x504 = (cntGet s 0x504 + 1) % 2 ^ 64 ∧
    getR (planContract s n kind unit) (oPLAN_CU_FAULT n) = faultWord s n kind unit := by
  have eq : planContract s n kind unit = modPlan (cutRun (raiseEvent (putR s (oPLAN_CU_FAULT n) (faultWord s n kind unit)) 0x504
      (planOf s (seqr s n).ctx).part (at_ 52 (seqr s n).ctx + n) (faultWord s n kind unit).toNat) (seqr s n).ctx csPLAN_CONTRACT 5 0)
      (seqr s n).ctx fun p => { p with state := 5 } := rfl
  rw [eq, planOf_modPlan, cutRun_plan, (raiseEvent_fr _ _ _ _ _).planOf, (putR_fr _ _ _).planOf]
  refine ⟨rfl, rfl, rfl, rfl, ?_, ?_⟩
  · rw [cntGet_congr ((modPlan_fr _ _ _).cnt rfl), cutRun_cntGet offRiser_contract (by decide), raiseEvent_cnt _ _ _ _ _ _ (by decide),
      if_pos rfl]
    rfl
  · rw [(modPlan_fr _ _ _).getR, (cutRun_fr _ _ _ _ _).getR, (raiseEvent_fr _ _ _ _ _).getR]
    exact planFault_holds s small (faultWord_aligned s n kind unit)

end Sys2Proof.Machine

/-! ##### Data of a load: R207, R228, R242, R297 -/

namespace Sys2Proof.Machine

set_option Elab.async false

/-! What memory gives depends on memory alone. -/

theorem readBytes_congr {s t : State} (mem : t.mem = s.mem) (base off n : Nat) :
    (readBytes t base off n).2 = (readBytes s base off n).2 ∧
    (readBytes t base off n).1.mem = (readBytes s base off n).1.mem := by
  unfold readBytes doneReads place
  dsimp only
  rw [readLines_congr mem, mem]
  simp only [placeOf_congr mem, and_self]

theorem readPlanes_congr {s t : State} (mem : t.mem = s.mem) (base n : Nat) (offs : List Nat) :
    (readPlanes t base n offs).2 = (readPlanes s base n offs).2 := by
  induction offs generalizing s t with
  | nil => rfl
  | cons o r ih =>
    obtain ⟨given, after⟩ := readBytes_congr mem base o (4 * n)
    unfold readPlanes
    dsimp only
    rw [given, ih after]

theorem win_modWin (s : State) (c i : Nat) (f : WinRun → WinRun) :
    win (planOf (modWin s c i f) c) i = f (win (planOf s c) i) := by
  unfold modWin
  rw [planOf_setWin, win_tset_same]

theorem stateRange_poison (s : State) (c i : Nat) :
    (win (planOf (stateRange s c i) c) i).c.poison = max (win (planOf s c) i).c.poison csSTATE_RANGE := by
  unfold stateRange
  rw [win_modWin]
  rfl

/-- The data of a load are in its window's output lines, or the chunk is poisoned. -/
theorem loadArrives_spec {s : State} {m : MemWait} {b o : Nat}
    (place_ : claimPlace s (planOf s m.ctx) m.claim m.off = some (b, o)) :
    (∀ x, (readBytes s b o (outSize (window4 (planOf s m.ctx) m.win) (win (planOf s m.ctx) m.win))).2 = some x →
      win (planOf (loadArrives s m) m.ctx) m.win = { win (planOf s m.ctx) m.win with
        outBytes := putBytes (win (planOf s m.ctx) m.win).outBytes 0 x }) ∧
    ((readBytes s b o (outSize (window4 (planOf s m.ctx) m.win) (win (planOf s m.ctx) m.win))).2 = none →
      (win (planOf (loadArrives s m) m.ctx) m.win).c.poison = max (win (planOf s m.ctx) m.win).c.poison csPOISONED) := by
  unfold loadArrives
  dsimp only
  rw [place_]
  dsimp only
  rw [win_modWin, (readBytes_fr _ _ _ _).planOf]
  refine ⟨fun x given => ?_, fun lost => ?_⟩
  · rw [given]
  · rw [lost]
    rfl

/-- The data of a load of state are in its window's state buffer, or the chunk is poisoned. -/
theorem stateArrives_spec {s : State} {m : MemWait} {b : Nat} {offs : List Nat}
    (place_ : winGeo s m.ctx m.win = some (b, offs)) :
    (∀ x, (readPlanes s b (wnElems (window4 (planOf s m.ctx) m.win)) offs).2 = some x →
      win (planOf (stateArrives s m) m.ctx) m.win = { win (planOf s m.ctx) m.win with
        state := planeElems (wnElems (window4 (planOf s m.ctx) m.win)) x }) ∧
    ((readPlanes s b (wnElems (window4 (planOf s m.ctx) m.win)) offs).2 = none →
      (win (planOf (stateArrives s m) m.ctx) m.win).c.poison = max (win (planOf s m.ctx) m.win).c.poison csPOISONED) := by
  unfold stateArrives
  dsimp only
  rw [place_]
  dsimp only
  rw [win_modWin, (readPlanes_fr _ _ _ _).planOf]
  refine ⟨fun x given => ?_, fun lost => ?_⟩
  · rw [given]
  · rw [lost]
    rfl

theorem stateArrives_range {s : State} {m : MemWait} (nowhere : winGeo s m.ctx m.win = none) :
    (win (planOf (stateArrives s m) m.ctx) m.win).c.poison = max (win (planOf s m.ctx) m.win).c.poison csSTATE_RANGE := by
  unfold stateArrives
  dsimp only
  rw [nowhere]
  exact stateRange_poison ..

theorem loadArrives_seqs (s : State) (m : MemWait) : (loadArrives s m).plan.seqs = s.plan.seqs := by
  unfold loadArrives
  dsimp only
  split
  · rfl
  · show (readBytes _ _ _ _).1.plan.seqs = _
    rw [(readBytes_fr _ _ _ _).plan rfl]

theorem stateArrives_seqs (s : State) (m : MemWait) : (stateArrives s m).plan.seqs = s.plan.seqs := by
  unfold stateArrives
  dsimp only
  split
  · rfl
  · show (readPlanes _ _ _ _).1.plan.seqs = _
    rw [(readPlanes_fr _ _ _ _).plan rfl]

/-- The first of the loads a sequencer waits for is no longer awaited. -/
def loadTaken (s : State) (n : Nat) (rest : List MemWait) : State := setSeqr s n { seqr s n with memWait := rest }

theorem memDataArrive_eq {s : State} {n : Nat} {m : MemWait} {rest : List MemWait} (waits : (seqr s n).memWait = m :: rest)
    (plain : m.sample = none) (idle : (seqr s n).busy = false) : memDataArrive n s =
    if m.op = 1 then loadArrives (loadTaken s n rest) m else stateArrives (loadTaken s n rest) m := by
  unfold memDataArrive
  dsimp only
  rw [waits]
  dsimp only
  rw [plain]
  dsimp only
  rw [if_neg (by simp [idle])]
  rfl

theorem memDataArrive_none {s : State} {n : Nat} (none_ : (seqr s n).memWait = []) : memDataArrive n s = s := by
  unfold memDataArrive
  dsimp only
  rw [none_]

theorem memDataArrive_seqr {s : State} {n : Nat} {m : MemWait} {rest : List MemWait} (waits : (seqr s n).memWait = m :: rest)
    (plain : m.sample = none) (idle : (seqr s n).busy = false) :
    seqr (memDataArrive n s) n = { seqr s n with memWait := rest } := by
  have kept : (memDataArrive n s).plan.seqs = (loadTaken s n rest).plan.seqs := by
    rw [memDataArrive_eq waits plain idle]
    split
    · exact loadArrives_seqs _ _
    · exact stateArrives_seqs _ _
  unfold seqr at *
  rw [kept]
  exact seqr_setSeqr s n _

/-! ##### What one unit's word leaves -/

/-- A word that issues, without a SEND and without ECC errors. -/
theorem issued_spec {s : State} {n t : Nat} {w : BitVec 256} (small : n < 64) (ended : ∀ m, (seqr s m).endAt = none)
    (quiet : pwEn w 4 = false) :
    (endPhasesDue (issueWord s n t w [])).now = s.now ∧
    cntGet (endPhasesDue (issueWord s n t w [])) (cSeq n 1) = (cntGet s (cSeq n 1) + 1) % 2 ^ 64 ∧
    (pwEn w 5 = false → endPhasesDue (issueWord s n t w []) = issueWord s n t w []) ∧
    (pwEn w 5 = true → OneEnds n (seqr s n).nextAddr (seqr s n).nextAddr (endPhasesDue (issueWord s n t w []))) := by
  have others (m : Nat) (other : m ≠ n) : (seqr (issueWord s n t w []) m).endAt = none :=
    (issueWord_other s t quiet other).trans (ended m)
  refine ⟨?_, ?_, fun goes => endPhasesDue_of_none fun m => ?_, fun ends => ?_⟩
  · rw [(endPhasesDue_fr _).now rfl, (issueWord_fr _ _ _ _ _).now rfl]
  · rw [endPhasesDue_words _ small, issueWord_words s n t small quiet]
  · by_cases here : m = n
    · obtain ⟨-, -, open_, -⟩ := issueWord_goes s n t quiet goes
      rw [here, open_, ended]
    · exact others m here
  · obtain ⟨next, last, closed⟩ := issueWord_ends s n t quiet ends
    exact endPhasesDue_oneEnds ⟨others, last, next, .inl closed⟩

theorem issueWord_planOf (s : State) (n t c : Nat) (w : BitVec 256) :
    planOf (issueWord s n t w []) c = planOf (actedWord s n t w) c := planOf_congr (issueWord_plans s n t w) c

theorem countedWord_planOf (s : State) (n t c : Nat) (w : BitVec 256) : planOf (countedWord s n t w) c = planOf s c :=
  (countedWord_fr s n t w).planOf c

theorem countedWord_ctxOf (s : State) (n t c : Nat) (w : BitVec 256) : ctxOf (countedWord s n t w) c = ctxOf s c :=
  ctxOf_congr ((countedWord_fr s n t w).coll rfl) c

section One

variable (s : State) (n t : Nat) {w : BitVec 256}

theorem actedWord_recv (on : pwEn w 0 = true) (alone : ∀ u, 0 < u → u < 6 → pwEn w u = false) :
    (win (planOf (actedWord s n t w) (seqr s n).ctx) (recvWin w)).st = if recvOp w = 1 then 1 else 2 := by
  unfold actedWord
  rw [wordActs_recv _ _ _ _ _ on alone, win_modWin]

theorem actedWord_acc (on : pwEn w 1 = true) (adds : accOp w = 1) (alone : ∀ u, u ≠ 1 → u < 6 → pwEn w u = false) :
    win (planOf (actedWord s n t w) (seqr s n).ctx) (accWin w) =
      accSpanAdd (ctxOf s (seqr s n).ctx) (window4 (planOf s (seqr s n).ctx) (accWin w))
        (win (planOf s (seqr s n).ctx) (accWin w)) (accMember w) (accSpan w) := by
  unfold actedWord
  rw [wordActs_acc _ _ _ _ _ on adds alone, win_modWin, countedWord_planOf, countedWord_ctxOf]

theorem actedWord_cvt (on : pwEn w 2 = true) (alone : ∀ u, u ≠ 2 → u < 6 → pwEn w u = false) :
    (win (planOf (actedWord s n t w) (seqr s n).ctx) (cvtWin w)).outFmt =
      some (if cvtStage w = 0 then aOut (ctxArith (ctxOf s (seqr s n).ctx)) else cvtFmt w) := by
  unfold actedWord
  rw [wordActs_cvt _ _ _ _ _ on alone, convertWin_fmt, countedWord_ctxOf]

theorem actedWord_load (on : pwEn w 3 = true) (loads : memOp w = 1) (alone : ∀ u, u ≠ 3 → u < 6 → pwEn w u = false) :
    (seqr (actedWord s n t w) n).memWait = (seqr s n).memWait ++ [loadWait (seqr s n).ctx t w (loadSample s n t w)] := by
  unfold actedWord
  rw [wordActs_load _ _ _ _ _ on loads alone, seqr_modSeqr]
  dsimp only
  unfold seqr
  rw [(countedWord_fr s n t w).plan rfl]

end One

/-- Settles O48: a word waits, is judged, issues and acts at its cycle; data of loads enter their window or poison it. -/
theorem wordsIssueAndDataArrive : Obligations.WordsIssueAndDataArrive := by
  unfold Obligations.WordsIssueAndDataArrive
  intro s n ecc l
  refine ⟨fun off => congrArg Host.Outcome.next (wordIssue_stays off), ?_, fun none_ => congrArg Host.Outcome.next (memDataArrive_none none_), ?_⟩
  · rintro _ w rfl word busy runs free small ended
    refine ⟨fun sound waits => ?_, fun sound comes full => ?_, fun goes => ⟨fun b breach => ?_, fun fine plain quiet => ?_⟩⟩
    · exact ⟨_, congrArg Host.Outcome.next (wordIssue_waits word busy runs free sound waits), rfl, (await_fr _ _ _).onlyChanges _⟩
    · exact ⟨_, congrArg Host.Outcome.next (wordIssue_blocked word busy runs free sound comes full), rfl, seqr_setSeqr _ _ _,
        (show Fr 132096 s _ from .step (setSeqr_fr _ _ _) (.step (await_fr _ _ _) (.refl _ _))).onlyChanges _⟩
    · obtain ⟨state, idle, last, wins, counted, fault⟩ := planContract_spec (await s (seqr s n).nextAt 0) small b.1 b.2
      exact ⟨_, congrArg Host.Outcome.next (wordIssue_breach word busy runs free goes breach), state, idle, last, wins, counted,
        fun _ _ _ => fault⟩
    · subst plain
      have x := issued_spec (s := await s (seqr s n).nextAt 0) (t := (seqr s n).nextAt) small ended quiet
      obtain ⟨now, counted, goes_, ends⟩ := x
      have win_ (alone : pwEn w 5 = false) (c : Nat) : planOf (endPhasesDue (issueWord (await s (seqr s n).nextAt 0) n (seqr s n).nextAt w []))
          c = planOf (actedWord (await s (seqr s n).nextAt 0) n (seqr s n).nextAt w) c := by
        rw [goes_ alone, issueWord_planOf]
      refine ⟨_, congrArg Host.Outcome.next (wordIssue_issues word busy runs free goes fine), now, counted, fun on => ?_, fun off => ?_,
        fun on alone => ?_, fun on adds alone => ?_, fun on alone => ?_, fun on loads alone => ?_⟩
      · obtain ⟨next, last, open_, due, -⟩ := issueWord_goes (await s (seqr s n).nextAt 0) n (seqr s n).nextAt quiet on
        rw [goes_ on]
        exact ⟨next, last, open_.trans (ended n), due⟩
      · obtain ⟨-, last, next, closed⟩ := ends off
        exact ⟨last, next, closed⟩
      · rw [win_ (alone 5 (by decide) (by decide))]
        exact actedWord_recv _ n _ on alone
      · rw [win_ (alone 5 (by decide) (by decide))]
        exact actedWord_acc _ n _ on adds alone
      · rw [win_ (alone 5 (by decide) (by decide))]
        exact actedWord_cvt _ n _ on alone
      · have on5 := alone 5 (by decide) (by decide)
        obtain ⟨-, -, -, -, waits⟩ := issueWord_goes (await s (seqr s n).nextAt 0) n (seqr s n).nextAt quiet on5
        refine ⟨loadWait (seqr s n).ctx (seqr s n).nextAt w (loadSample (await s (seqr s n).nextAt 0) n (seqr s n).nextAt w), ?_,
          rfl, rfl, loads, rfl, rfl⟩
        rw [goes_ on5, waits]
        exact actedWord_load _ n _ on loads alone
  · intro m rest waits plain idle
    have eq := memDataArrive_eq waits plain idle
    refine ⟨_, rfl, memDataArrive_seqr waits plain idle, fun load b o place_ => ?_, fun state nowhere => ?_, fun state b offs place_ => ?_⟩
    · obtain ⟨given, lost⟩ := loadArrives_spec (s := loadTaken s n rest) (m := m) (b := b) (o := o) place_
      rw [(readBytes_congr (s := s) (t := loadTaken s n rest) rfl _ _ _).1] at given lost
      rw [eq, if_pos load]
      exact ⟨given, lost⟩
    · rw [eq, if_neg state]
      exact stateArrives_range (s := loadTaken s n rest) nowhere
    · obtain ⟨given, lost⟩ := stateArrives_spec (s := loadTaken s n rest) (m := m) (b := b) (offs := offs) place_
      rw [readPlanes_congr (s := s) (t := loadTaken s n rest) rfl] at given lost
      rw [eq, if_neg state]
      exact ⟨given, lost⟩

end Sys2Proof.Machine

/-! ### O49: frames held for their launch time -/

namespace Sys2Proof.Machine

set_option Elab.async false

theorem complete_cnt_above {s : State} {i key : Nat} (st detail count : Nat) {j : Nat} (ring : i < 256) (high : 0x38000 ≤ j) :
    cntGet (complete s .cmd i key st detail count) j = cntGet s j := by
  have held (y : State) : cntGet (bump y (cRing (ringCnt .cmd i) 1)) j = cntGet y j := by
    rw [cntGet_bump, if_neg (by show j ≠ 0x34000 + 4 * i + 1; omega)]
  unfold complete
  dsimp only
  split
  · rfl
  · split
    · split
      · exact held _
      · rfl
    · have written (y : State) (e : Nat × Nat × Nat × Nat) : cntGet (writeCompletion y .cmd i e) j = cntGet y j := by
        refine writeEntry_cnt_above _ _ _ _ _ _ _ ?_ high
        have := cqOf_lt y .cmd i
        show 256 + cqOf y .cmd i < 4096
        omega
      exact written _ _

/-- The frame has left the launch store. -/
def launched (s : State) (d : Nat) (l : Launch) : State :=
  bump (setLaunch (awaitNt s l.time) d ((launchStore s d).erase l)) (cDie d 8)

theorem launched_fr (s : State) (d : Nat) (l : Launch) : Fr 197632 s (launched s d l) :=
  .step (bump_fr _ _) (.step (setLaunch_fr _ _ _) (.step (awaitNt_fr _ _) (.refl _ _)))

theorem launched_store (s : State) (d : Nat) (l : Launch) : launchStore (launched s d l) d = (launchStore s d).erase l :=
  launchStore_setLaunch _ _ _

theorem launched_cnt (s : State) (d : Nat) (l : Launch) :
    cntGet (launched s d l) (cDie d 8) = (cntGet s (cDie d 8) + 1) % 2 ^ 64 := by
  unfold launched
  rw [cntGet_bump, if_pos rfl, cntGet_congr ((setLaunch_fr _ _ _).cnt rfl), cntGet_congr ((awaitNt_fr _ _).cnt rfl)]

theorem frameLaunch_eq {s : State} {d : Nat} {l : Launch} (first : earliest ((launchStore s d).filter (launchDue s)) = some l) :
    frameLaunch d s = enterRiser (launched s d l) d l := by
  unfold frameLaunch
  rw [first]
  show enterRiser (bump (setLaunch (awaitNt s l.time) d ((launchStore (awaitNt s l.time) d).erase l)) (cDie d 8)) d l = _
  unfold launchStore
  rw [(awaitNt_fr s l.time).plan rfl]
  rfl

/-- A frame that enters the riser, or may not: what it leaves. -/
theorem enterRiser_keeps {s : State} {d : Nat} {l : Launch} (small : d < 4) (ring : l.ring < 256) :
    (enterRiser s d l).now = s.now ∧ (enterRiser s d l).plan = s.plan ∧
    cntGet (enterRiser s d l) (cDie d 8) = cntGet s (cDie d 8) := by
  have fr := enterRiser_fr s d l
  have done (y : State) (st detail : Nat) :
      cntGet (complete y .cmd l.ring l.tag st detail 0) (cDie d 8) = cntGet y (cDie d 8) :=
    complete_cnt_above _ _ _ ring (by unfold cDie; omega)
  have sent (f : Frame) : cntGet (originate s d f).1 (cDie d 8) = cntGet s (cDie d 8) :=
    originate_cntGet (offRiser_launched small) s d f
  refine ⟨fr.now rfl, fr.plan rfl, ?_⟩
  unfold enterRiser
  dsimp only
  split
  · exact done ..
  · split
    · exact done ..
    · split
      · rw [done, sent]
      · rw [done, sent]

theorem enterRiser_shut {s : State} {d : Nat} {l : Launch} (shut : selfEid s = none ∨ destOk s l.part l.f = false) :
    enterRiser s d l = complete s .cmd l.ring l.tag stUNREACHABLE 0 0 := by
  unfold enterRiser
  dsimp only
  split
  · rfl
  · next self known =>
    rcases shut with h | h
    · rw [h] at known
      contradiction
    · rw [if_pos (by simp [h])]

theorem enterRiser_sent {s : State} {d self : Nat} {l : Launch} (known : selfEid s = some self) (dest : destOk s l.part l.f = true) :
    enterRiser s d l = if (originate s d { l.f with src := self }).2 = 0 then
      complete (originate s d { l.f with src := self }).1 .cmd l.ring l.tag (if l.late then stLATE_LAUNCH else stOK) (nt32 s) 0
    else complete (originate s d { l.f with src := self }).1 .cmd l.ring l.tag stUNREACHABLE 0 0 := by
  unfold enterRiser
  dsimp only
  rw [known]
  dsimp only
  rw [if_neg (by simp [dest])]

/-- Settles O49: the earliest frame leaves the store, is counted, and its descriptor completes by what became of it. -/
theorem heldFramesLaunched : Obligations.HeldFramesLaunched := by
  unfold Obligations.HeldFramesLaunched
  intro s d
  refine ⟨fun none_ => ?_, ?_⟩
  · refine congrArg Host.Outcome.next ?_
    unfold frameLaunch
    rw [none_]
  · rintro l _ _ first may rfl gone small
    obtain rfl : _ = launched s d l := gone
    obtain ⟨now, plan, counted⟩ := enterRiser_keeps (s := launched s d l) (d := d) (l := l) small may.1
    have alike : ComplAlike s (launched s d l) := .of (launched_fr s d l)
    have stamp : nt32 (enterRiser (launched s d l) d l) = nt32 (launched s d l) := (enterRiser_fr _ d l).nt32
    refine ⟨_, congrArg Host.Outcome.next (frameLaunch_eq first), now, ?_, ?_, fun shut => ?_, fun self known dest => ⟨fun sent => ?_,
      fun refused => ?_⟩⟩
    · rw [← launched_store]
      unfold launchStore
      rw [plan]
    · rw [counted, launched_cnt]
    · rw [enterRiser_shut (s := launched s d l) shut]
      exact may.written alike _ _ _
    · have eq := enterRiser_sent (s := launched s d l) (d := d) known dest
      rw [if_pos sent] at eq
      rw [stamp, eq]
      exact may.written (alike.trans (originate_alike _ _ _)) _ _ _
    · rw [enterRiser_sent (s := launched s d l) known dest, if_neg refused]
      exact may.written (alike.trans (originate_alike _ _ _)) _ _ _

end Sys2Proof.Machine

/-! ### Chunks of a dynamic reduction: R262, R270 to R276 -/

namespace Sys2Proof.Machine

set_option Elab.async false

/-! #### What completing a chunk leaves of its context -/

/-- What frames, reports and records of an invocation leave of its context. -/
def ctxHeld (x : Ctx) : Nat × List Nat × List Nat × Tab Chunk × Tab Nat × Bool :=
  (x.n, x.excluded, x.including, x.chunks, x.arrivals, x.dyn)

theorem ctxHeld_of {s t : State} {m : Nat} (h : Fr m s t) (c : Nat) (coll : m.testBit 11 = false := by rfl) :
    ctxHeld (ctxOf t c) = ctxHeld (ctxOf s c) := by
  rw [ctxOf_congr (h.coll coll)]

theorem ctxHeld_setCtx {s : State} {c : Nat} {x : Ctx} (same : ctxHeld x = ctxHeld (ctxOf s c)) :
    ctxHeld (ctxOf (setCtx s c x) c) = ctxHeld (ctxOf s c) := by
  rw [ctxOf_setCtx, same]

theorem collFrame_held (s : State) (c die : Nat) (mc : Bool) (dest chunk : Nat) (ce : Bool) (f : Frame) :
    ctxHeld (ctxOf (collFrame s c die mc dest chunk ce f).1 c) = ctxHeld (ctxOf s c) := by
  unfold collFrame
  split
  · exact ctxHeld_of (bump_fr _ _) c
  · exact (ctxHeld_of (originate_fr _ _ _) c).trans (ctxHeld_setCtx rfl)

theorem sendResult_held (s : State) (c die : Nat) (mc : Bool) (dest chunk : Nat) (ce : Bool) (l : List Frame) :
    ctxHeld (ctxOf (sendResult s c die mc dest chunk ce l) c) = ctxHeld (ctxOf s c) := by
  refine forEach_keeps (fun y => ctxHeld (ctxOf y c)) _ (fun y f => ?_) l s
  dsimp only
  split
  · exact (ctxHeld_of (bump_fr _ _) c).trans (collFrame_held ..)
  · exact collFrame_held ..

theorem noteSuspects_held (s : State) (c slow : Nat) : ctxHeld (ctxOf (noteSuspects s c slow) c) = ctxHeld (ctxOf s c) := by
  unfold noteSuspects
  dsimp only
  rw [ctxHeld_of (Fr.forEach (m := 81924) _ _ (fun _ _ => raiseEvent_fr _ _ _ _ _) (.refl _ _)) c, ctxOf_setCtx]
  rfl

theorem noteArrivals_held (s : State) (c : Nat) : ctxHeld (ctxOf (noteArrivals s c) c) = ctxHeld (ctxOf s c) := by
  unfold noteArrivals
  dsimp only
  split
  · rfl
  · split
    · rw [noteSuspects_held, ctxOf_setCtx]
      rfl
    · rw [ctxOf_setCtx]
      rfl

theorem missedMembers_held (s : State) (c : Nat) (l : List Nat) :
    ctxHeld (ctxOf (missedMembers s c l) c) = ctxHeld (ctxOf s c) := ctxHeld_setCtx rfl

theorem chunkCompletes_held (s : State) (c die chunk : Nat) (mc : Bool) (dest : Nat) (one : CmplSum) :
    ctxHeld (ctxOf (chunkCompletes s c die chunk mc dest one) c) = ctxHeld (ctxOf s c) := by
  unfold chunkCompletes
  dsimp only
  split
  · exact ctxHeld_setCtx rfl
  · exact (collFrame_held ..).trans (ctxHeld_setCtx rfl)

theorem advanceOnce_held (s : State) (c : Nat) : ctxHeld (ctxOf (advanceOnce s c) c) = ctxHeld (ctxOf s c) := by
  unfold advanceOnce
  rw [ctxOf_modCtx]
  split <;> rfl

theorem updateChunk_held (s : State) (c e0 : Nat) (vals : List FVal) :
    ctxHeld (ctxOf (updateChunk s c e0 vals).1 c) = ctxHeld (ctxOf s c) := by
  unfold updateChunk
  dsimp only
  split
  · exact advanceOnce_held s c
  · split
    · exact (ctxHeld_of (readPlanes_fr _ _ _ _) c).trans (advanceOnce_held s c)
    · exact ((ctxHeld_of (writePlanes_fr _ _ _ _) c).trans (ctxHeld_of (readPlanes_fr _ _ _ _) c)).trans (advanceOnce_held s c)

theorem chunkOutput_held (s : State) (c k : Nat) (v : Chunk) :
    ctxHeld (ctxOf (chunkOutput s c k v).1 c) = ctxHeld (ctxOf s c) := by
  unfold chunkOutput
  dsimp only
  split
  · rfl
  · split
    · split
      · exact updateChunk_held ..
      · exact updateChunk_held ..
    · split
      · rfl
      · rfl

/-- What an invocation's end leaves of its context. -/
theorem endInvocation_held (s : State) (c : Nat) (early : Option (Nat × Nat × Nat)) :
    ∃ x, ctxHeld x = ctxHeld (ctxOf s c) ∧ ctxOf (endInvocation s c early) c = nextInvocation x := by
  have ended (y : State) (h : ctxHeld (ctxOf y c) = ctxHeld (ctxOf s c)) : ∃ x, ctxHeld x = ctxHeld (ctxOf s c) ∧
      ctxOf (modCtx (noteArrivals y c) c nextInvocation) c = nextInvocation x :=
    ⟨_, (noteArrivals_held y c).trans h, ctxOf_modCtx ..⟩
  unfold endInvocation
  dsimp only
  refine ended _ ?_
  split
  · exact collFrame_held ..
  · split
    · exact collFrame_held ..
    · rfl

/-! #### A chunk that completes -/

/-- The chunk's result and completion are sent, and its slots released. -/
def chunkReported (s : State) (c k : Nat) : State :=
  let x := ctxOf s c
  let v := ctxChunk x k
  let o := chunkOutput s c k v
  let s := o.1
  let die := chunkCu x k / 16
  let miss := chunkMissing x v
  let status := max o.2.2.2 (if miss.isEmpty then 0 else csPARTIAL)
  let s := sendResult s c die (ctxKind x == 0) (if ctxKind x = 0 then ctxResultGroup x else ctxRoot x) k v.cmSeen
    (resultFrames (aOut (ctxArith x)) (o.2.2.2 != 0) o.2.2.1 o.2.1)
  let one : CmplSum :=
    { best := status, flags := o.2.2.1, excluded := miss, cm := v.cmSeen,
      eid := if status = csMISMATCH then v.mmEid
        else if status = csPARTIAL then memberEid s c ((minList miss).getD 0) else 0,
      expected := if status = csMISMATCH then v.mmExpected else 0,
      received := if status = csMISMATCH then v.mmReceived else 0 }
  releaseSlots (chunkCompletes (missedMembers s c miss) c die k true (ctxCmplGroup x) one) v.slots

/-- The chunk is done. -/
def chunkDone (s : State) (c k : Nat) : State :=
  setChunk (chunkReported s c k) c k { received := (ctxChunk (ctxOf s c) k).received, done := true }

theorem completeChunk_eq (s : State) (c k : Nat) : completeChunk s c k =
    if (ctxOf (chunkDone s c k) c).sum.count = ctxChunks (ctxOf s c) then endInvocation (chunkDone s c k) c none
    else chunkDone s c k := by
  unfold completeChunk chunkDone chunkReported
  dsimp only

theorem chunkReported_held (s : State) (c k : Nat) : ctxHeld (ctxOf (chunkReported s c k) c) = ctxHeld (ctxOf s c) := by
  unfold chunkReported
  dsimp only
  rw [ctxHeld_of (releaseSlots_fr _ _), chunkCompletes_held, missedMembers_held, sendResult_held, chunkOutput_held]

theorem chunkDone_ctx (s : State) (c k : Nat) : ∃ x, ctxHeld x = ctxHeld (ctxOf s c) ∧ ctxOf (chunkDone s c k) c =
    { x with chunks := tset {} x.chunks k { received := (ctxChunk (ctxOf s c) k).received, done := true } } := by
  refine ⟨_, chunkReported_held s c k, ?_⟩
  unfold chunkDone setChunk
  rw [ctxOf_modCtx]

theorem nextInvocation_chunks (x : Ctx) (l : Tab Chunk) : nextInvocation { x with chunks := l } = nextInvocation x := rfl

theorem ctxHeld_chunks {x y z : Ctx} {l : Tab Chunk} (h : ctxHeld y = ctxHeld { x with chunks := l }) (g : ctxHeld x = ctxHeld z) :
    ctxHeld { y with chunks := x.chunks } = ctxHeld z := by
  rw [← g]
  simp only [ctxHeld, Prod.mk.injEq] at h ⊢
  tauto

/-- A completed chunk leaves its context, or ends its invocation. -/
theorem completeChunk_ctx (s : State) (c k : Nat) : ∃ x, ctxHeld x = ctxHeld (ctxOf s c) ∧
    (ctxOf (completeChunk s c k) c =
      { x with chunks := tset {} x.chunks k { received := (ctxChunk (ctxOf s c) k).received, done := true } } ∨
    ctxOf (completeChunk s c k) c = nextInvocation x) := by
  obtain ⟨x, held, done⟩ := chunkDone_ctx s c k
  rw [completeChunk_eq]
  split
  · obtain ⟨y, held', ended⟩ := endInvocation_held (chunkDone s c k) c none
    rw [done] at held'
    exact ⟨{ y with chunks := x.chunks }, ctxHeld_chunks held' held, .inr (ended.trans (nextInvocation_chunks y x.chunks).symm)⟩
  · exact ⟨x, held, .inl done⟩

/-! #### Rings and registers while a chunk completes -/

theorem releaseSlots_alike (s : State) (l : List Nat) : ComplAlike s (releaseSlots s l) :=
  (ComplAlike.forEach l s releaseSlot fun _ _ => .of (releaseSlot_fr _ _)).trans (noteHealth_alike _)

theorem sendResult_alike (s : State) (c die : Nat) (mc : Bool) (dest chunk : Nat) (ce : Bool) (l : List Frame) :
    ComplAlike s (sendResult s c die mc dest chunk ce l) :=
  .forEach l s _ fun y f => .ite ((collFrame_alike y c die mc dest chunk ce f).trans (.of (bump_fr _ _))) (collFrame_alike ..)

theorem chunkCompletes_alike (s : State) (c die chunk : Nat) (mc : Bool) (dest : Nat) (one : CmplSum) :
    ComplAlike s (chunkCompletes s c die chunk mc dest one) :=
  .ite (.of (setCtx_fr _ _ _)) ((ComplAlike.of (setCtx_fr _ _ _)).trans (collFrame_alike ..))

theorem chunkDone_alike (s : State) (c k : Nat) : ComplAlike s (chunkDone s c k) := by
  refine ComplAlike.trans ?_ (.of (setChunk_fr _ _ _ _))
  unfold chunkReported
  dsimp only
  exact ((((ComplAlike.of (chunkOutput_fr ..)).trans (sendResult_alike ..)).trans (.of (missedMembers_fr ..))).trans
    (chunkCompletes_alike ..)).trans (releaseSlots_alike ..)

theorem completeChunk_alike (s : State) (c k : Nat) : ComplAlike s (completeChunk s c k) := by
  rw [completeChunk_eq]
  exact .ite ((chunkDone_alike s c k).trans (endInvocation_alike ..)) (chunkDone_alike s c k)

theorem checkChunk_alike (s : State) (c k : Nat) : ComplAlike s (checkChunk s c k) :=
  .ite (completeChunk_alike s c k) (.refl s)

theorem endDynamic_alike (s : State) (c status eid : Nat) : ComplAlike s (endDynamic s c status eid) := by
  unfold endDynamic
  exact (releaseSlots_alike ..).trans (endInvocation_alike ..)

end Sys2Proof.Machine

/-! ### O50: commands on contexts -/

namespace Sys2Proof.Machine

set_option Elab.async false

/-! #### What a command's own queue does not touch -/

namespace QueuesOnly

variable {s t : State} (h : QueuesOnly s t)
include h

theorem ctxFirst (i : Nat) (masks : List Nat) (bad : Bool) (d : List Word) :
    Machine.ctxFirst t i masks bad d = Machine.ctxFirst s i masks bad d := by
  unfold Machine.ctxFirst
  rw [h.foreignPart]

theorem ctxBoth (i : Nat) (masks : List Nat) (bad : Bool) (d : List Word) :
    Machine.ctxBoth t i masks bad d = Machine.ctxBoth s i masks bad d := by
  unfold Machine.ctxBoth
  rw [h.ctxFirst]
  obtain ⟨o, r, rfl, -⟩ := h
  rfl

end QueuesOnly

/-- The state after a command of a command ring that completes at once. -/
def commandEnded (x : State) (i key st : Nat) : State := sweepBad (complete x .cmd i key st 0 0) .cmd i

theorem commandEnded_fr (x : State) (i key st : Nat) : Fr 81924 x (commandEnded x i key st) :=
  .step (sweepBad_fr _ _ _) (complete_fr _ _ _ _ _ _ _)

/-- A command that only completes leaves the contexts. -/
theorem commandRefused_coll (s : State) (i : Nat) (d : List Word) (key st : Nat) :
    (commandEnded (popDesc s .cmd i d) i key st).coll = s.coll := (commandEnded_fr _ i key st).coll rfl

theorem commandEnded_ctxOf (x : State) (i key st c : Nat) : ctxOf (commandEnded x i key st) c = ctxOf x c :=
  ctxOf_congr ((commandEnded_fr x i key st).coll rfl) c

/-! #### CTX_SETUP: R193, R253, R254, R278 -/

/-- What the checks of a record answer. -/
def setupStatus (s : State) (i : Nat) (d r : List Word) : Nat :=
  if arithOk (ctxArith { record := r }) (ctxCombine { record := r }) = false then stBAD_ARITH
  else if recordOk r = false then stBAD_RECORD
  else if ctxPart { record := r } ≠ dPart d ∨
      ((ctxOf s (dCtx d)).state = 1 ∧ foreignPart s .cmd i (ctxPart (ctxOf s (dCtx d))) = true) then stWRONG_PARTITION
  else if (hasStacks s = false ∧ isUpdate (aOp (ctxArith { record := r })) = true) ∨
      (hasCrucibles s = false ∧ (ctxArith { record := r } ≠ 0 ∨ ctxKind { record := r } ≠ 2)) then stUNIT_ABSENT
  else if 1048576 < statsUsed s (dCtx d) + statsNeed { record := r } then stSTATS_FULL
  else stOK

/-- A context with the record it was given. -/
def recordTaken (old : Ctx) (r : List Word) : Ctx :=
  if old.state = 1 then
    { old with record := r, stats := if ctxMembers old = ctxMembers { record := r } then old.stats else [] }
  else { state := 1, record := r }

theorem setupRecord_eq (s : State) (i : Nat) (d r : List Word) : setupRecord s i d r =
    (if setupStatus s i d r = stOK then rehash (setCtx s (dCtx d) (recordTaken (ctxOf s (dCtx d)) r)) (dCtx d) else s,
      setupStatus s i d r) := by
  unfold setupRecord setupStatus
  dsimp only
  by_cases arith : arithOk (ctxArith { record := r }) (ctxCombine { record := r }) = false
  · rw [if_pos (by simp [arith]), if_pos arith, if_neg (by decide)]
  rw [if_neg (by simpa using arith), if_neg arith]
  by_cases formed : recordOk r = false
  · rw [if_pos (by simp [formed]), if_pos formed, if_neg (by decide)]
  rw [if_neg (by simpa using formed), if_neg formed]
  by_cases foreign : ctxPart { record := r } ≠ dPart d ∨
      ((ctxOf s (dCtx d)).state = 1 ∧ foreignPart s .cmd i (ctxPart (ctxOf s (dCtx d))) = true)
  · rw [if_pos foreign, if_pos foreign, if_neg (by decide)]
  rw [if_neg foreign, if_neg foreign]
  by_cases absent : (hasStacks s = false ∧ isUpdate (aOp (ctxArith { record := r })) = true) ∨
      (hasCrucibles s = false ∧ (ctxArith { record := r } ≠ 0 ∨ ctxKind { record := r } ≠ 2))
  · rw [if_pos (by simpa using absent), if_pos absent, if_neg (by decide)]
  rw [if_neg (by simpa using absent), if_neg absent]
  by_cases full : 1048576 < statsUsed s (dCtx d) + statsNeed { record := r }
  · rw [if_pos full, if_pos full, if_neg (by decide)]
  rw [if_neg full, if_neg full, if_pos rfl]
  unfold recordTaken
  split <;> rfl

theorem setupStatus_popDesc (s : State) (i j : Nat) (e d r : List Word) :
    setupStatus (popDesc s .cmd j e) i d r = setupStatus s i d r := by
  unfold setupStatus
  rw [(popDesc_queues s .cmd j e).foreignPart]
  rfl

theorem rehash_ctxOf (s : State) (c : Nat) : ∃ h, ctxOf (rehash s c) c = { ctxOf s c with hash := h } := by
  unfold rehash
  split
  · exact ⟨_, ctxOf_modCtx ..⟩
  · exact ⟨(ctxOf s c).hash, rfl⟩

theorem ctxOf_setCtx_other (s : State) {c k : Nat} (x : Ctx) (other : k ≠ c) : ctxOf (setCtx s c x) k = ctxOf s k :=
  tget_tset_other _ _ _ _ _ _ other

theorem rehash_ctxOf_other (s : State) {c k : Nat} (other : k ≠ c) : ctxOf (rehash s c) k = ctxOf s k := by
  unfold rehash
  split
  · exact ctxOf_setCtx_other _ _ other
  · rfl

theorem recordTaken_spec (s : State) (c : Nat) (r : List Word) :
    let t := rehash (setCtx s c (recordTaken (ctxOf s c) r)) c
    (ctxOf t c).record = r ∧ (ctxOf t c).state = 1 ∧ (ctxOf t c).n = (if (ctxOf s c).state = 1 then (ctxOf s c).n else 0) ∧
      (ctxOf t c).excluded = (if (ctxOf s c).state = 1 then (ctxOf s c).excluded else []) ∧
      ∀ k, k ≠ c → ctxOf t k = ctxOf s k := by
  intro t
  obtain ⟨h, own⟩ := rehash_ctxOf (setCtx s c (recordTaken (ctxOf s c) r)) c
  rw [ctxOf_setCtx] at own
  rw [show ctxOf t c = _ from own]
  refine ⟨?_, ?_, ?_, ?_, fun k other => (rehash_ctxOf_other _ other).trans (ctxOf_setCtx_other _ _ other)⟩
  all_goals
    unfold recordTaken
    by_cases up : (ctxOf s c).state = 1
    · simp [up]
    · simp [up]

section Setup

variable {s : State} {i : Nat} {d : List Word} (ready : DescReady s .cmd i d 0x20)
include ready

theorem ctxSetup_first {st : Nat} (first : ctxFirst s i (ctxMasks ones 0 0) (d1Addr d % 8 != 0) d = some st) :
    ctxSetup i s = commandEnded (popDesc s .cmd i d) i (runKey s .cmd i d) st := by
  refine ready.run (opCtxSetup i) ?_
  unfold opCtxSetup
  dsimp only
  rw [(popDesc_queues s .cmd i d).ctxFirst, show (nth 0 d 1).toNat = d1Addr d from rfl, first]

variable (own : ctxFirst s i (ctxMasks ones 0 0) (d1Addr d % 8 != 0) d = none)
include own

theorem ctxSetup_busy (busy : ctxBusy s (dCtx d) = true) :
    ctxSetup i s = commandEnded (popDesc s .cmd i d) i (runKey s .cmd i d) stCONTEXT_BUSY := by
  refine ready.run (opCtxSetup i) ?_
  unfold opCtxSetup
  dsimp only
  rw [(popDesc_queues s .cmd i d).ctxFirst, show (nth 0 d 1).toNat = d1Addr d from rfl, own]
  dsimp only
  rw [if_pos (by exact busy)]

theorem ctxSetup_judged {p : List Byte} (free : ctxBusy s (dCtx d) = false) (gave : HostGave s .cmd i (d1Addr d) 128 p) :
    ctxSetup i s = commandEnded (setupRecord (popDesc s .cmd i d) i d (wordsOf p 16)).1 i (runKey s .cmd i d)
      (setupStatus s i d (wordsOf p 16)) := by
  have given := ((popDesc_queues s .cmd i d).hostIn .cmd i (d1Addr d) 128 (ring s .cmd i).staged).trans gave.hostIn
  have status : (setupRecord (popDesc s .cmd i d) i d (wordsOf p 16)).2 = setupStatus s i d (wordsOf p 16) := by
    rw [setupRecord_eq, setupStatus_popDesc]
  refine ready.run (opCtxSetup i) ?_
  unfold opCtxSetup
  dsimp only
  rw [(popDesc_queues s .cmd i d).ctxFirst, show (nth 0 d 1).toNat = d1Addr d from rfl, own]
  dsimp only
  rw [if_neg (by rw [show ctxBusy (popDesc s .cmd i d) (dCtx d) = ctxBusy s (dCtx d) from rfl, free]; decide), given]
  dsimp only
  rw [status]

end Setup

/-! #### CTX_READ and CTX_STATS: R278 -/

/-- The bytes of CTX_READ. -/
def readBytesOf (s : State) (c : Nat) : List Byte :=
  bytesOfWords ((List.range 16).map (cK (ctxOf s c)) ++ [ctxStatusWord s c, ctxHashWord s c, ctxArrivalWord s c])

/-- The bytes of CTX_STATS. -/
def statsBytes (s : State) (c first count : Nat) : List Byte :=
  bytesOfWords ((List.range count).map fun j => statWord (tget {} (ctxOf s c).stats (first + j)))

/-- Bytes that a command copied to the host. -/
def copied (s : State) (i : Nat) (d : List Word) (data : List Byte) : State :=
  emitAll (popDesc s .cmd i d) (dmaWrites (descOwner s .cmd i) (d1Addr d) data)

theorem copyOut_eq {s : State} {i n key : Nat} {d : List Word} {data : List Byte} (takes : HostTakes s .cmd i (d1Addr d) n)
    (fits : data.length ≤ n) : copyOut (popDesc s .cmd i d) i key (d1Addr d) 0 data (ring s .cmd i).staged =
      complete (copied s i d data) .cmd i key stOK 0 0 := by
  unfold copyOut
  rw [hostOut_whole takes fits ((popDesc_queues s .cmd i d).descOwner .cmd i)]
  rfl

theorem copied_alike (s : State) (i : Nat) (d : List Word) (data : List Byte) :
    ComplAlike (popDesc s .cmd i d) (copied s i d data) := .of (emitAll_fr _ _)

theorem ctxRead_first {s : State} {i st : Nat} {d : List Word} (ready : DescReady s .cmd i d 0x21)
    (first : ctxBoth s i (ctxMasks ones 0 0) (d1Addr d % 8 != 0) d = some st) :
    ctxRead i s = commandEnded (popDesc s .cmd i d) i (runKey s .cmd i d) st := by
  refine ready.run (opCtxRead i) ?_
  unfold opCtxRead
  dsimp only
  rw [(popDesc_queues s .cmd i d).ctxBoth, show (nth 0 d 1).toNat = d1Addr d from rfl, first]

theorem ctxRead_copies {s : State} {i : Nat} {d : List Word} (ready : DescReady s .cmd i d 0x21)
    (own : ctxBoth s i (ctxMasks ones 0 0) (d1Addr d % 8 != 0) d = none) (takes : HostTakes s .cmd i (d1Addr d) 152) :
    ctxRead i s = commandEnded (copied s i d (readBytesOf s (dCtx d))) i (runKey s .cmd i d) stOK := by
  have fits : (readBytesOf s (dCtx d)).length ≤ 152 := by
    unfold readBytesOf
    rw [bytesOfWords_length]
    simp
  refine ready.run (opCtxRead i) ?_
  unfold opCtxRead
  dsimp only
  rw [(popDesc_queues s .cmd i d).ctxBoth, show (nth 0 d 1).toNat = d1Addr d from rfl, own]
  dsimp only
  exact congrArg some (copyOut_eq takes fits)

section Stats

variable {s : State} {i : Nat} {d : List Word} (ready : DescReady s .cmd i d 0x24)
include ready

theorem ctxStats_first {st : Nat} (first : ctxBoth s i (ctxMasks ones (mask 19 0) (mask 19 0))
    (d1Addr d % 8 != 0 || fld (nth 0 d 3) 19 0 == 0) d = some st) :
    ctxStats i s = commandEnded (popDesc s .cmd i d) i (runKey s .cmd i d) st := by
  refine ready.run (opCtxStats i) ?_
  unfold opCtxStats
  dsimp only
  rw [(popDesc_queues s .cmd i d).ctxBoth, show (nth 0 d 1).toNat = d1Addr d from rfl, first]

variable (own : ctxBoth s i (ctxMasks ones (mask 19 0) (mask 19 0)) (d1Addr d % 8 != 0 || fld (nth 0 d 3) 19 0 == 0) d = none)
include own

theorem ctxStats_eq : ctxStats i s =
    sweepBad (if ctxMembers (ctxOf s (dCtx d)) < fld (nth 0 d 2) 19 0 + fld (nth 0 d 3) 19 0 then
        complete (popDesc s .cmd i d) .cmd i (runKey s .cmd i d) stBAD_RANGE 0 0
      else if !ctxStatsEn (ctxOf s (dCtx d)) then complete (popDesc s .cmd i d) .cmd i (runKey s .cmd i d) stNO_STATS 0 0
      else copyOut (popDesc s .cmd i d) i (runKey s .cmd i d) (d1Addr d) 0
        (statsBytes s (dCtx d) (fld (nth 0 d 2) 19 0) (fld (nth 0 d 3) 19 0)) (ring s .cmd i).staged) .cmd i := by
  refine ready.run (opCtxStats i) ?_
  unfold opCtxStats
  dsimp only
  rw [(popDesc_queues s .cmd i d).ctxBoth, show (nth 0 d 1).toNat = d1Addr d from rfl, own]
  dsimp only
  rw [show ctxOf (popDesc s .cmd i d) (dCtx d) = ctxOf s (dCtx d) from rfl]
  split
  · rfl
  · split <;> rfl

theorem ctxStats_copies (within : ¬ ctxMembers (ctxOf s (dCtx d)) < fld (nth 0 d 2) 19 0 + fld (nth 0 d 3) 19 0)
    (kept : ctxStatsEn (ctxOf s (dCtx d)) = true) (takes : HostTakes s .cmd i (d1Addr d) (8 * fld (nth 0 d 3) 19 0)) :
    ctxStats i s = commandEnded (copied s i d (statsBytes s (dCtx d) (fld (nth 0 d 2) 19 0) (fld (nth 0 d 3) 19 0))) i
      (runKey s .cmd i d) stOK := by
  have fits : (statsBytes s (dCtx d) (fld (nth 0 d 2) 19 0) (fld (nth 0 d 3) 19 0)).length ≤ 8 * fld (nth 0 d 3) 19 0 := by
    unfold statsBytes
    rw [bytesOfWords_length]
    simp
  rw [ctxStats_eq ready own, if_neg within, if_neg (by simp [kept]), copyOut_eq takes fits]
  rfl

end Stats

/-! #### CTX_EXCLUDE and CTX_INCLUDE: R276 -/

/-- What the checks of CTX_EXCLUDE answer. -/
def excludeStatus (s : State) (i : Nat) (d : List Word) : Nat :=
  (ctxBoth s i (ctxMasks 0 (mask 19 0) 0) false d).getD
    (if ctxMembers (ctxOf s (dCtx d)) ≤ fld (nth 0 d 2) 19 0 then stBAD_RANGE
     else if (ctxOf s (dCtx d)).excluded.contains (fld (nth 0 d 2) 19 0) = false ∧ 64 ≤ (ctxOf s (dCtx d)).excluded.length then
       stEXCLUDE_FULL else stOK)

/-- What the checks of CTX_INCLUDE answer. -/
def includeStatus (s : State) (i : Nat) (d : List Word) : Nat :=
  (ctxBoth s i (ctxMasks 0 (mask 19 0) 0) false d).getD
    (if (ctxOf s (dCtx d)).excluded.contains (fld (nth 0 d 2) 19 0) = true then stOK else stNOT_FOUND)

theorem ctxExclude_eq {s : State} {i : Nat} {d : List Word} (ready : DescReady s .cmd i d 0x22) : ctxExclude i s =
    commandEnded (if excludeStatus s i d = stOK then excludeSlot (popDesc s .cmd i d) (dCtx d) (fld (nth 0 d 2) 19 0)
      else popDesc s .cmd i d) i (runKey s .cmd i d) (excludeStatus s i d) := by
  refine ready.run (opCtxExclude i) ?_
  unfold opCtxExclude excludeStatus
  dsimp only
  rw [(popDesc_queues s .cmd i d).ctxBoth, show ctxOf (popDesc s .cmd i d) (dCtx d) = ctxOf s (dCtx d) from rfl]
  simp only [Bool.and_eq_true, Bool.not_eq_true', decide_eq_true_eq]

theorem ctxInclude_eq {s : State} {i : Nat} {d : List Word} (ready : DescReady s .cmd i d 0x23) : ctxInclude i s =
    commandEnded (if includeStatus s i d = stOK then includeSlot (popDesc s .cmd i d) (dCtx d) (fld (nth 0 d 2) 19 0)
      else popDesc s .cmd i d) i (runKey s .cmd i d) (includeStatus s i d) := by
  refine ready.run (opCtxInclude i) ?_
  unfold opCtxInclude includeStatus
  dsimp only
  rw [(popDesc_queues s .cmd i d).ctxBoth]
  rfl

theorem includeSlot_ctx (s : State) (c slot : Nat) : ctxOf (includeSlot s c slot) c =
    if (ctxOf s c).dyn = true ∨ (planOf s c).running = true then { ctxOf s c with including := addNew (ctxOf s c).including slot }
    else { ctxOf s c with excluded := remNat (ctxOf s c).excluded slot } := by
  unfold includeSlot
  by_cases busy : (ctxOf s c).dyn = true ∨ (planOf s c).running = true
  · rw [if_pos (by simpa using busy), if_pos busy, ctxOf_modCtx]
  · rw [if_neg (by simpa using busy), if_neg busy, ctxOf_modCtx]

/-- A slot is excluded, and no inclusion of it is due. -/
def SlotOut (c slot : Nat) (s : State) : Prop := slot ∈ (ctxOf s c).excluded ∧ slot ∉ (ctxOf s c).including

theorem checkChunk_slotOut {c slot : Nat} {s : State} (k : Nat) (out : SlotOut c slot s) : SlotOut c slot (checkChunk s c k) := by
  unfold checkChunk
  dsimp only
  split
  · obtain ⟨x, held, after⟩ := completeChunk_ctx s c k
    obtain ⟨excluded, away⟩ := out
    simp only [ctxHeld, Prod.mk.injEq] at held
    obtain ⟨-, sameEx, sameIn, -⟩ := held
    rw [← sameEx] at excluded
    rw [← sameIn] at away
    unfold SlotOut
    rcases after with after | after
    · rw [after]
      exact ⟨excluded, away⟩
    · rw [after]
      exact ⟨List.mem_filter.2 ⟨excluded, by simpa using away⟩, List.not_mem_nil⟩
  · exact out

/-- The context with its slot excluded. -/
def slotExcluded (x : Ctx) (slot : Nat) : Ctx :=
  { x with excluded := addNew x.excluded slot, including := remNat x.including slot }

/-- The slot is excluded, before the chunks that waited for it are judged. -/
def slotMarked (s : State) (c slot : Nat) : State := noteDone (modCtx s c fun x => slotExcluded x slot) c

theorem slotMarked_ctx (s : State) (c slot : Nat) : ctxOf (slotMarked s c slot) c = slotExcluded (ctxOf s c) slot := by
  unfold slotMarked
  rw [ctxOf_congr ((noteDone_fr _ _).coll rfl), ctxOf_modCtx]

theorem excludeSlot_eq (s : State) (c slot : Nat) : excludeSlot s c slot =
    forEach (openChunks (slotExcluded (ctxOf s c) slot)) (slotMarked s c slot) fun s k => checkChunk s c k := by
  rw [← slotMarked_ctx]
  rfl

theorem slotMarked_alike (s : State) (c slot : Nat) : ComplAlike s (slotMarked s c slot) :=
  (ComplAlike.of (modCtx_fr _ _ _)).trans (.of (noteDone_fr _ _))

theorem excludeSlot_alike (s : State) (c slot : Nat) : ComplAlike s (excludeSlot s c slot) := by
  rw [excludeSlot_eq]
  exact (slotMarked_alike s c slot).trans (.forEach _ _ _ fun y k => checkChunk_alike y c k)

theorem slotMarked_out (s : State) (c slot : Nat) : SlotOut c slot (slotMarked s c slot) := by
  unfold SlotOut
  rw [slotMarked_ctx]
  exact ⟨by simpa [slotExcluded] using contains_addNew (ctxOf s c).excluded slot, by simp [slotExcluded, remNat]⟩

theorem excludeSlot_out (s : State) (c slot : Nat) : SlotOut c slot (excludeSlot s c slot) := by
  rw [excludeSlot_eq]
  have each (l : List Nat) (y : State) (out : SlotOut c slot y) : SlotOut c slot (forEach l y fun s k => checkChunk s c k) := by
    induction l generalizing y with
    | nil => exact out
    | cons k l ih => exact ih _ (checkChunk_slotOut k out)
  exact each _ _ (slotMarked_out s c slot)

theorem excludeSlot_idle {s : State} {c slot : Nat} (none_ : openChunks (ctxOf s c) = []) :
    ctxOf (excludeSlot s c slot) c = slotExcluded (ctxOf s c) slot := by
  rw [excludeSlot_eq, show openChunks (slotExcluded (ctxOf s c) slot) = [] from none_]
  exact slotMarked_ctx s c slot

end Sys2Proof.Machine

/-! #### CTX_TEARDOWN: R255, R345 -/

namespace Sys2Proof.Machine

set_option Elab.async false

theorem minList_mem {l : List Nat} {m : Nat} (h : minList l = some m) : m ∈ l := by
  have least (r : List Nat) (x : Nat) : r.foldl min x = x ∨ r.foldl min x ∈ r := by
    induction r generalizing x with
    | nil => exact .inl rfl
    | cons a r ih =>
      rw [List.foldl_cons]
      rcases ih (min x a) with same | member
      · rw [same]
        rcases min_choice x a with e | e
        · exact .inl e
        · exact .inr (by rw [e]; exact List.mem_cons_self)
      · exact .inr (List.mem_cons_of_mem _ member)
  cases l with
  | nil => exact absurd h (by simp [minList])
  | cons x r =>
    obtain rfl : r.foldl min x = m := by simpa [minList] using h
    rcases least r x with same | member
    · rw [same]
      exact List.mem_cons_self
    · exact List.mem_cons_of_mem _ member

/-- The frames of a die held for SEND RELEASE of a context. -/
def heldOn (s : State) (c d : Nat) : List Launch := (launchStore s d).filter fun l => l.release && l.f.ctx == c

theorem heldFor_congr {s t : State} (plan : t.plan = s.plan) (c : Nat) : heldFor t c = heldFor s c := by
  unfold heldFor launchStore
  rw [plan]

theorem heldFor_none_iff {s : State} {c : Nat} : heldFor s c = none ↔ ∀ d < 4, heldOn s c d = [] := by
  have all : heldFor s c = none ↔ (List.range 4).flatMap (fun d => (heldOn s c d).map fun l => (d, l)) = [] := by
    unfold heldFor
    dsimp only
    rw [show ((List.range 4).flatMap fun d => ((launchStore s d).filter fun l => l.release && l.f.ctx == c).map fun l => (d, l)) =
      (List.range 4).flatMap (fun d => (heldOn s c d).map fun l => (d, l)) from rfl]
    generalize (List.range 4).flatMap (fun d => (heldOn s c d).map fun l => (d, l)) = all
    cases found : minList (all.map fun e => e.2.order) with
    | none =>
      cases all with
      | nil => simp
      | cons e r => simp [minList] at found
    | some o =>
      obtain ⟨e, member, order⟩ := List.mem_map.1 (minList_mem found)
      constructor
      · intro nothing
        rw [Option.bind_some, List.find?_eq_none] at nothing
        exact absurd (beq_iff_eq.2 order) (nothing e member)
      · rintro rfl
        exact absurd member List.not_mem_nil
  rw [all, List.flatMap_eq_nil_iff]
  simp only [List.mem_range, List.map_eq_nil_iff]

/-- The frames of a die held for a context are discarded. -/
def discardOn (c : Nat) (s : State) (d : Nat) : State :=
  forEach (heldOn s c d) (setLaunch s d ((launchStore s d).filter fun l => !(l.release && l.f.ctx == c))) fun s l =>
    complete s .cmd l.ring l.tag stDISCARDED 0 0

theorem discardHeld_eq (s : State) (c : Nat) : discardHeld s c = forEach (List.range 4) s (discardOn c) := rfl

theorem discardOn_store (c : Nat) (s : State) (d e : Nat) : launchStore (discardOn c s d) e =
    if e = d then (launchStore s d).filter fun l => !(l.release && l.f.ctx == c) else launchStore s e := by
  have completed (y : State) (l : List Launch) :
      launchStore (forEach l y fun s l => complete s .cmd l.ring l.tag stDISCARDED 0 0) e = launchStore y e :=
    forEach_keeps (fun y => launchStore y e) _ (fun y l => by
      unfold launchStore
      rw [(complete_fr _ _ _ _ _ _ _).plan rfl]) l y
  unfold discardOn
  rw [completed]
  by_cases here : e = d
  · rw [if_pos here, here]
    exact launchStore_setLaunch ..
  · rw [if_neg here]
    exact tget_tset_other _ _ _ _ _ _ here

theorem discardOn_held (c : Nat) (s : State) (d e : Nat) : heldOn (discardOn c s d) c e = if e = d then [] else heldOn s c e := by
  unfold heldOn
  rw [discardOn_store]
  by_cases here : e = d
  · rw [if_pos here, if_pos here, List.filter_filter]
    refine List.filter_eq_nil_iff.2 fun l _ => ?_
    cases h : (l.release && l.f.ctx == c) <;> simp [h]
  · rw [if_neg here, if_neg here]

theorem discardHeld_none (s : State) (c : Nat) : heldFor (discardHeld s c) c = none := by
  rw [heldFor_none_iff, discardHeld_eq]
  intro d small
  refine forEach_reaches (fun d y => heldOn y c d = []) (discardOn c) (fun y d => ?_) (fun y d e none_ => ?_) (List.range 4) s d
    (List.mem_range.2 small)
  · rw [discardOn_held, if_pos rfl]
  · rw [discardOn_held, none_, ite_self]

/-- Where no frame is held for the context, the rings stay. -/
theorem discardHeld_alike {s : State} {c : Nat} (none_ : heldFor s c = none) : ComplAlike s (discardHeld s c) := by
  rw [heldFor_none_iff] at none_
  have each (l : List Nat) (within : l ⊆ List.range 4) (y : State) (free : ∀ d < 4, heldOn y c d = []) :
      ComplAlike y (forEach l y (discardOn c)) := by
    induction l generalizing y with
    | nil => exact .refl y
    | cons d l ih =>
      have own : heldOn y c d = [] := free d (List.mem_range.1 (within List.mem_cons_self))
      have step : ComplAlike y (discardOn c y d) := by
        unfold discardOn
        rw [own]
        exact .of (setLaunch_fr _ _ _)
      refine step.trans (ih (fun e h => within (List.mem_cons_of_mem _ h)) _ fun e small => ?_)
      rw [discardOn_held, free e small, ite_self]
  exact each _ (List.Subset.refl _) s none_

/-- An invocation in progress has ended. -/
def invocationEnded (s : State) (c : Nat) : State := if (ctxOf s c).dyn then endDynamic s c csTORN_DOWN 0 else s

theorem invocationEnded_held (s : State) (c : Nat) : heldFor (invocationEnded s c) c = heldFor s c := by
  have plan : (invocationEnded s c).plan = s.plan :=
    (show Fr 117445 s (invocationEnded s c) from .ite (endDynamic_fr _ _ _ _) (.refl _ _)).plan rfl
  unfold heldFor launchStore
  rw [plan]

theorem invocationEnded_alike (s : State) (c : Nat) : ComplAlike s (invocationEnded s c) := by
  unfold invocationEnded
  exact .ite (endDynamic_alike ..) (.refl s)

theorem tearDown_eq (s : State) (i key c : Nat) : tearDown s i key c =
    setCtx (discardHeld (invocationEnded s c) c) c { state := 3, teardown := some (i, key) } := rfl

theorem tearDown_spec (s : State) (i key c : Nat) : ctxOf (tearDown s i key c) c = { state := 3, teardown := some (i, key) } ∧
    heldFor (tearDown s i key c) c = none ∧ (heldFor s c = none → ComplAlike s (tearDown s i key c)) := by
  rw [tearDown_eq]
  refine ⟨ctxOf_setCtx .., (heldFor_congr ((setCtx_fr _ _ _).plan rfl) c).trans (discardHeld_none _ c), fun none_ => ?_⟩
  exact ((invocationEnded_alike s c).trans (discardHeld_alike ((invocationEnded_held s c).trans none_))).trans (.of (setCtx_fr _ _ _))

section Teardown

variable {s : State} {i : Nat} {d : List Word} (ready : DescReady s .cmd i d 0x25)
include ready

theorem ctxTeardown_first {st : Nat} (first : ctxBoth s i (ctxMasks 0 0 0) false d = some st) :
    ctxTeardown i s = commandEnded (popDesc s .cmd i d) i (runKey s .cmd i d) st := by
  refine ready.run (opCtxTeardown i) ?_
  unfold opCtxTeardown
  dsimp only
  rw [(popDesc_queues s .cmd i d).ctxBoth, first]

variable (own : ctxBoth s i (ctxMasks 0 0 0) false d = none)
include own

theorem ctxTeardown_busy (held : (planOf s (dCtx d)).state ≠ 0) :
    ctxTeardown i s = commandEnded (popDesc s .cmd i d) i (runKey s .cmd i d) stPLAN_BUSY := by
  refine ready.run (opCtxTeardown i) ?_
  unfold opCtxTeardown
  dsimp only
  rw [(popDesc_queues s .cmd i d).ctxBoth, own]
  dsimp only
  rw [planOf_popDesc, if_pos held]

theorem ctxTeardown_starts (free : (planOf s (dCtx d)).state = 0) :
    ctxTeardown i s = sweepBad (tearDown (popDesc s .cmd i d) i (runKey s .cmd i d) (dCtx d)) .cmd i := by
  refine ready.run (opCtxTeardown i) ?_
  unfold opCtxTeardown
  dsimp only
  rw [(popDesc_queues s .cmd i d).ctxBoth, own]
  dsimp only
  rw [planOf_popDesc, if_neg (by simp [free])]

end Teardown

/-! #### The end of a scrub: R255 -/

theorem ctxScrubDone_silent {s : State} {c : Nat} (scrubs : (ctxOf s c).state = 3) (clean : ctxScrubbing s c = false)
    (none_ : (ctxOf s c).teardown = none) : ctxScrubDone c s = setCtx s c {} := by
  unfold ctxScrubDone
  dsimp only
  rw [if_pos ⟨scrubs, by simp [clean]⟩, none_]

theorem ctxScrubDone_asked {s : State} {c i key : Nat} (scrubs : (ctxOf s c).state = 3) (clean : ctxScrubbing s c = false)
    (asked : (ctxOf s c).teardown = some (i, key)) : ctxScrubDone c s = commandEnded (setCtx s c {}) i key stOK := by
  unfold ctxScrubDone
  dsimp only
  rw [if_pos ⟨scrubs, by simp [clean]⟩, asked]
  rfl

theorem ctxScrubDone_stays {s : State} {c : Nat} (off : (ctxOf s c).state ≠ 3 ∨ ctxScrubbing s c = true) : ctxScrubDone c s = s := by
  unfold ctxScrubDone
  dsimp only
  rw [if_neg]
  rintro ⟨scrubs, clean⟩
  simp [scrubs] at off
  simp [off] at clean

/-- A completion of a command ring with nothing fetched is written as it stands. -/
theorem commandEnded_written {s x : State} {j key : Nat} (may : MayComplete s .cmd j key) (a : ComplAlike s x)
    (empty : (ring s .cmd j).fetched = []) (st : Nat) : EntryWritten s (commandEnded x j key st) .cmd j key st 0 0 := by
  have still : (ring (complete x .cmd j key st 0 0) .cmd j).fetched = [] := by
    rw [(complete_written (may.alike a) st 0 0).2, a.rings .cmd j (not_eventKey (Producer.ne_eq may.2.1)
      (lt_of_lt_of_le may.1 (ringCount_le _))), empty]
  unfold commandEnded
  rw [sweepBad_of_empty still]
  exact may.written a st 0 0

/-- Settles O50: each context command completes with the status of its checks, and does what they let it do. -/
theorem contextCommandsAct : Obligations.ContextCommandsAct := by
  unfold Obligations.ContextCommandsAct
  intro s i d
  refine ⟨fun ready => ⟨fun st first => ?_, fun own => ⟨fun busy => ?_, ?_⟩⟩, fun ready => ⟨fun st first => ?_, fun own takes => ?_⟩,
    ?_, ?_, ?_, fun ready => ⟨fun st first => ?_, fun own => ⟨fun held => ?_, fun free => ?_⟩⟩,
    fun c scrubs clean => ⟨fun none_ => ?_, fun j key asked may empty => ?_⟩, fun c off => congrArg Host.Outcome.next (ctxScrubDone_stays off)⟩
  · exact ⟨_, congrArg Host.Outcome.next (ctxSetup_first ready first), ready.completed (.refl _) _ _ _, commandRefused_coll ..⟩
  · exact ⟨_, congrArg Host.Outcome.next (ctxSetup_busy ready own busy), ready.completed (.refl _) _ _ _, commandRefused_coll ..⟩
  · rintro p _ _ _ st free gave rfl rfl rfl status
    obtain rfl : st = setupStatus s i d (wordsOf p 16) := status
    have eq := ctxSetup_judged ready own free gave
    rw [setupRecord_eq, setupStatus_popDesc] at eq
    refine ⟨_, congrArg Host.Outcome.next eq, ready.completed ?_ _ _ _, fun refused => ?_, fun taken => ?_⟩
    · exact .ite ((ComplAlike.of (setCtx_fr _ _ _)).trans (.of (rehash_fr _ _))) (.refl _)
    · rw [if_neg refused]
      exact commandRefused_coll ..
    · rw [if_pos taken]
      simp only [commandEnded_ctxOf]
      exact recordTaken_spec (popDesc s .cmd i d) (dCtx d) (wordsOf p 16)
  · exact ⟨_, congrArg Host.Outcome.next (ctxRead_first ready first), ready.completed (.refl _) _ _ _, commandRefused_coll ..⟩
  · have alike := copied_alike s i d (readBytesOf s (dCtx d))
    refine ⟨_, congrArg Host.Outcome.next (ctxRead_copies ready own takes), ready.completed alike _ _ _, ?_, fun o member =>
      ready.sent alike _ _ _ (List.mem_append_right _ member)⟩
    exact (commandEnded_fr _ _ _ _).coll rfl
  · rintro _ _ ready rfl rfl
    refine ⟨fun st first => ?_, fun own => ⟨fun beyond => ?_, fun within off => ?_, fun within kept takes => ?_⟩⟩
    · exact ⟨_, congrArg Host.Outcome.next (ctxStats_first ready first), ready.completed (.refl _) _ _ _⟩
    · have eq := ctxStats_eq ready own
      rw [if_pos beyond] at eq
      exact ⟨_, congrArg Host.Outcome.next eq, ready.completed (.refl _) _ _ _⟩
    · have eq := ctxStats_eq ready own
      rw [if_neg (by omega), if_pos (by simp [off])] at eq
      exact ⟨_, congrArg Host.Outcome.next eq, ready.completed (.refl _) _ _ _⟩
    · have alike := copied_alike s i d (statsBytes s (dCtx d) (fld (nth 0 d 2) 19 0) (fld (nth 0 d 3) 19 0))
      exact ⟨_, congrArg Host.Outcome.next (ctxStats_copies ready own (by omega) kept takes), ready.completed alike _ _ _,
        fun o member => ready.sent alike _ _ _ (List.mem_append_right _ member)⟩
  · rintro _ _ st ready rfl rfl status
    obtain rfl : st = excludeStatus s i d := status
    have eq := ctxExclude_eq ready
    refine ⟨fun refused => ?_, fun taken => ?_⟩
    · rw [if_neg refused] at eq
      exact ⟨_, congrArg Host.Outcome.next eq, ready.completed (.refl _) _ _ _, commandRefused_coll ..⟩
    · rw [taken, if_pos rfl] at eq
      refine ⟨_, congrArg Host.Outcome.next eq, ready.completed (excludeSlot_alike ..) _ _ _, ?_, fun none_ => ?_⟩
      · rw [commandEnded_ctxOf]
        simpa using (excludeSlot_out (popDesc s .cmd i d) (dCtx d) (fld (nth 0 d 2) 19 0)).1
      · rw [commandEnded_ctxOf]
        exact excludeSlot_idle (s := popDesc s .cmd i d) none_
  · rintro _ _ st ready rfl rfl status
    obtain rfl : st = includeStatus s i d := status
    have eq := ctxInclude_eq ready
    refine ⟨_, congrArg Host.Outcome.next eq, ready.completed ?_ _ _ _, fun refused => ?_, fun taken => ?_⟩
    · exact .ite (.ite (.of (modCtx_fr _ _ _)) (.of (modCtx_fr _ _ _))) (.refl _)
    · rw [if_neg refused]
      exact commandRefused_coll ..
    · rw [if_pos taken, commandEnded_ctxOf]
      exact includeSlot_ctx (popDesc s .cmd i d) (dCtx d) (fld (nth 0 d 2) 19 0)
  · exact ⟨_, congrArg Host.Outcome.next (ctxTeardown_first ready first), ready.completed (.refl _) _ _ _, commandRefused_coll ..⟩
  · exact ⟨_, congrArg Host.Outcome.next (ctxTeardown_busy ready own held), ready.completed (.refl _) _ _ _, commandRefused_coll ..⟩
  · obtain ⟨gone, none_, alike⟩ := tearDown_spec (popDesc s .cmd i d) i (runKey s .cmd i d) (dCtx d)
    have swept := sweepBad_fr (tearDown (popDesc s .cmd i d) i (runKey s .cmd i d) (dCtx d)) .cmd i
    refine ⟨_, congrArg Host.Outcome.next (ctxTeardown_starts ready own free), ?_, ?_, fun free => ready.started (alike free)⟩
    · rw [ctxOf_congr (swept.coll rfl), gone]
    · rw [heldFor_congr (swept.plan rfl), none_]
  · exact ⟨_, congrArg Host.Outcome.next (ctxScrubDone_silent scrubs clean none_), ctxOf_setCtx .., (setCtx_fr _ _ _).onlyChanges _⟩
  · refine ⟨_, congrArg Host.Outcome.next (ctxScrubDone_asked scrubs clean asked), ?_, commandEnded_written may (.of (setCtx_fr _ _ _)) empty _⟩
    rw [commandEnded_ctxOf, ctxOf_setCtx]

end Sys2Proof.Machine

/-! ### Frames that reach the spine: R93, R102, R105, R158 -/

namespace Sys2Proof.Machine

set_option Elab.async false

/-- The state in which a unit of the spine takes a frame that came on link l: its credits, the counts of its link and
the record of the tap are all that the frame has left so far. -/
structure Reached (s x : State) (l : Nat) : Prop where
  fr : Fr 82117 s x
  cnt : ∀ j, j < 0x34000 → (∀ k, k < 32 → j ≠ cLink l k) → cntGet x j = cntGet s j

/-- The checks of R105 let a frame for the spine through. -/
theorem checkFrame_passes {q : QFrame} (s : State) (notCtl : q.f.type ≠ tLINKCTL) (ver : q.f.ver = 3)
    (class_ : typeOk q.f.type q.f.tc = true) (short : q.f.length ≤ 4096) (single : q.f.mc = false)
    (src : undefinedEid q.f.src = false) (dest : undefinedEid q.f.dest = false) (direct : q.f.detour = false) :
    checkFrame q s = lookup q s := by
  unfold checkFrame
  dsimp only
  rw [if_neg (by simp [notCtl]), if_neg (by simp [ver, class_]), if_neg (by omega), if_neg (by simp [single]),
    if_neg (by simp [src, dest]), if_neg (by simp [direct])]

/-- A frame of a partition that its link carries, from a source whose route names the link, is consumed (R95, R158). -/
theorem lookup_consumes {q : QFrame} {s : State} {part : Nat} (valid : rtValid (routeOf s q.f.src) = true)
    (own : rtPart (routeOf s q.f.src) = part)
    (leaf : q.inLink < 2048 → (part = q.inLink / 32 ∨ part = 64) ∧ (sprayOf (routeOf s q.f.src)).contains q.inLink = true)
    (single : q.f.mc = false) (dest : selfEid s = some q.f.dest) (whole : q.rx = 0) :
    lookup q s = consume { q with store := q.store || false } part s := by
  have placed : (decide (q.inLink < 2048) && !(sprayOf (routeOf s q.f.src)).contains q.inLink) = false := by
    by_cases h : q.inLink < 2048
    · rw [(leaf h).2, Bool.not_true, Bool.and_false]
    · simp [h]
  have carried : ¬ ((!rtValid (routeOf s q.f.src) || (decide (q.inLink < 2048) &&
      rtPart (routeOf s q.f.src) != q.inLink / 32 && rtPart (routeOf s q.f.src) != 64)) = true) := by
    rw [valid, own]
    by_cases h : q.inLink < 2048
    · rcases (leaf h).1 with e | e <;> simp [e]
    · simp [h]
  have here : (!q.f.mc && selfEid s == some q.f.dest) = true := by simp [single, dest]
  unfold lookup
  dsimp only
  rw [if_neg carried, placed]
  simp only [Bool.not_true, Bool.false_eq_true, if_false]
  rw [if_pos here, own]
  unfold selfFrame
  dsimp only
  rw [if_pos whole]

theorem linkOf_near {q : Nat} (near : q < 4160) : linkOf q < 2050 := by
  unfold linkOf
  split <;> omega

/-- What arrives and passes every check is consumed with the route's partition (R105, R158). -/
theorem reachesSpine_consumed {s : State} {q type part : Nat} {hdr : List Word} {payload : List Byte} {f : Frame}
    (read : f = readFrame (link s (linkOf q)).bl2 hdr payload) (notCtl : type ≠ tLINKCTL)
    (reaches_ : ReachesSpine s q type part hdr f) :
    ∃ x fr, frameReceive q hdr payload s = consume fr part x ∧ Reached s x (linkOf q) ∧ fr.f = f ∧
      fr.inLink = linkOf q ∧ fr.inBl2 = (link s (linkOf q)).bl2 := by
  obtain ⟨near, up, good, cells, clear, typed, ver, class_, short, single, dest, src, destOk_, direct, valid, own, leaf⟩ :=
    reaches_
  obtain ⟨k, found⟩ := Option.isSome_iff_exists.mp cells
  set y := modLane s q fun x => { x with hcrcBad := false } with hy
  have frY : Fr 64 s y := modLane_fr s q _
  have linkY (l : Nat) : link y l = link s l := rfl
  have held : covered (link y (linkOf q)) f.tc (cellsOf (link y (linkOf q)).bl2 f.length) = true := by
    rw [linkY]
    exact covered_of_takeCells found
  set z := admitted (entered y q f false).1 (entered y q f false).2 with hz
  have frE : Fr 82053 y (entered y q f false).1 := entered_fr y q f false
  have frZ : Fr 82117 s z := by
    have counted : Fr 65600 (entered y q f false).1 z :=
      (bumpN_fr _ _ _).step ((bump_fr _ _).step ((setLink_fr _ _ _).mono))
    exact counted.step (frE.step (frY.mono))
  have fenceZ : fenced z (linkOf q) = false := by
    rw [hz, (admitted_spec y q f false near).2.2.2.2.1]
    exact clear
  have routeZ : routeOf z f.src = routeOf s f.src := by
    unfold routeOf seenWord beforeImage
    rw [frZ.tbl rfl]
  have destZ : selfEid z = some f.dest := by
    unfold selfEid
    rw [frZ.getR]
    exact dest
  refine ⟨z, { (entered y q f false).2 with store := (entered y q f false).2.store || false }, ?_, ⟨frZ, ?_⟩, rfl, rfl,
    rfl⟩
  · unfold frameReceive
    dsimp only
    rw [← read, if_neg (by simp [up]), if_neg (by simp [good]), ← hy, arrive_of_covered false held, ← hz,
      if_neg (by simp [fenceZ])]
    rw [checkFrame_passes z (by rw [show (entered y q f false).2.f = f from rfl, typed]; exact notCtl) ver class_ short
      single src destOk_ direct]
    exact lookup_consumes (by rw [← routeZ] at valid; exact valid) (by rw [← routeZ] at own; exact own)
      (by rw [← routeZ] at leaf; exact leaf) single destZ rfl
  · intro j low other
    have first : cntGet z j = cntGet (entered y q f false).1 j := by
      have frame : (entered y q f false).2.inLink = linkOf q := rfl
      rw [hz]
      unfold admitted
      rw [frame, cntGet_bumpN, if_neg (other 2 (by decide)), cntGet_bump, if_neg (other 0 (by decide))]
      rfl
    rw [first, entered_cnt _ _ _ _ _ low]
    rfl

end Sys2Proof.Machine

/-! ### O51: contributions -/

namespace Sys2Proof.Machine

set_option Elab.async false

/-! #### ECC errors that the crucible finds as it takes a frame: R215 -/

theorem arrivalEcc_one (s : State) (x : EccError) :
    arrivalEcc s [x] = slotEcc (fun c i => (win (planOf s c) i).st == 1) s x := rfl

theorem arrivalEcc_single {s : State} {x : EccError} (has : hasCrucibles s = true) (single : x.double = false) :
    arrivalEcc s [x] = bump s (cSeq x.cru 5) := by
  rw [arrivalEcc_one]
  unfold slotEcc
  rw [if_neg (by simp [has]), if_pos (by simp [single])]

/-- The slot is marked and the event raised before the chunks that use the slot are poisoned. -/
def errSlot (s : State) (x : EccError) : State :=
  raiseEvent (setCruSlot s (512 * x.cru + x.slot) { cruSlot s (512 * x.cru + x.slot) with ue := true }) 0x501 0x7F x.cru x.slot

theorem errSlot_fr (s : State) (x : EccError) : Fr 82436 s (errSlot s x) :=
  (raiseEvent_fr _ _ _ _ _).step ((setCruSlot_fr _ _ _).mono)

theorem errSlot_slot (s : State) (x : EccError) :
    cruSlot (errSlot s x) (512 * x.cru + x.slot) = { cruSlot s (512 * x.cru + x.slot) with ue := true } := by
  unfold errSlot
  rw [cruSlot_congr ((raiseEvent_fr _ _ _ _ _).cru rfl), cruSlot_setCruSlot_same]

theorem arrivalEcc_double {s : State} {x : EccError} (has : hasCrucibles s = true) (double : x.double = true) :
    arrivalEcc s [x] = poisonSlot (errSlot s x) (512 * x.cru + x.slot) fun c i => (win (planOf s c) i).st == 1 := by
  rw [arrivalEcc_one]
  unfold slotEcc
  rw [if_neg (by simp [has]), if_neg (by simp [double])]
  rfl

theorem ctxChunk_modChunk_same (s : State) (c k : Nat) (f : Chunk → Chunk) :
    ctxChunk (ctxOf (modChunk s c k f) c) k = f (ctxChunk (ctxOf s c) k) := by
  unfold modChunk setChunk
  rw [ctxOf_modCtx]
  exact tget_tset_same ..

theorem ctxChunk_modChunk_other (s : State) (c : Nat) {k j : Nat} (f : Chunk → Chunk) (other : j ≠ k) :
    ctxChunk (ctxOf (modChunk s c k f) c) j = ctxChunk (ctxOf s c) j := by
  unfold modChunk setChunk
  rw [ctxOf_modCtx]
  exact tget_tset_other _ _ _ _ _ _ other

/-- The open chunks of a context that hold a slot are poisoned with it (R215, R262). -/
theorem poisonSlot_chunk {s : State} {g c k : Nat} (reads : Nat → Nat → Bool) (dynamic : (cruSlot s g).use = 2)
    (owner : (cruSlot s g).owner = c) (open_ : k ∈ openChunks (ctxOf s c))
    (holds : (ctxChunk (ctxOf s c) k).slots.contains g = true) :
    csPOISONED ≤ (ctxChunk (ctxOf (poisonSlot s g reads) c) k).poison := by
  unfold poisonSlot
  dsimp only
  rw [if_pos dynamic, owner]
  refine forEach_reaches (fun k y => csPOISONED ≤ (ctxChunk (ctxOf y c) k).poison)
    (fun s k => modChunk s c k fun x => { x with poison := max x.poison csPOISONED }) (fun y a => ?_) (fun y a b poisoned => ?_) _ s k
    (List.mem_filter.mpr ⟨open_, holds⟩)
  · rw [ctxChunk_modChunk_same]
    exact Nat.le_max_right _ _
  · by_cases same : b = a
    · subst same
      rw [ctxChunk_modChunk_same]
      exact Nat.le_max_right _ _
    · rw [ctxChunk_modChunk_other _ _ _ same]
      exact poisoned

/-- A double-bit error marks its slot, is told of, and poisons the chunks that hold it (R215). -/
theorem arrivalEcc_double_spec {s : State} {x : EccError} (has : hasCrucibles s = true) (double : x.double = true) :
    (cruSlot (arrivalEcc s [x]) (512 * x.cru + x.slot)).ue = true ∧
      cntGet (arrivalEcc s [x]) 0x501 = (cntGet s 0x501 + 1) % 2 ^ 64 ∧
      ∀ c k, (cruSlot s (512 * x.cru + x.slot)).use = 2 → (cruSlot s (512 * x.cru + x.slot)).owner = c →
        k ∈ openChunks (ctxOf s c) → (ctxChunk (ctxOf s c) k).slots.contains (512 * x.cru + x.slot) = true →
        csPOISONED ≤ (ctxChunk (ctxOf (arrivalEcc s [x]) c) k).poison := by
  have slot := errSlot_slot s x
  have ctx (c : Nat) : ctxOf (errSlot s x) c = ctxOf s c := ctxOf_congr ((errSlot_fr s x).coll rfl) c
  rw [arrivalEcc_double has double]
  refine ⟨?_, ?_, fun c k dynamic owner open_ holds => poisonSlot_chunk _ ?_ ?_ ?_ ?_⟩
  · rw [cruSlot_congr ((poisonSlot_fr _ _ _).cru rfl), slot]
  · rw [cntGet_congr ((poisonSlot_fr _ _ _).cnt rfl)]
    unfold errSlot
    rw [raiseEvent_cnt _ _ _ _ _ _ (by decide), if_pos rfl]
    rfl
  · rw [slot]
    exact dynamic
  · rw [slot]
    exact owner
  · rw [ctx]
    exact open_
  · rw [ctx]
    exact holds

/-! #### What is left to FRAME_RECEIVE -/

theorem readFrame_head (bl2 : Bool) (hdr : List Word) (payload : List Byte) :
    readFrame bl2 hdr [] = { readFrame bl2 hdr payload with payload := (readFrame bl2 hdr []).payload } := by
  cases bl2 <;> rfl

theorem forSelf_eq {s : State} {type q : Nat} {hdr : List Word} {f : Frame} (payload : List Byte)
    (read : f = readFrame (link s (linkOf q)).bl2 hdr payload) :
    forSelf s type q hdr = (f.type == type && !f.mc && selfEid s == some f.dest) := by
  unfold forSelf
  dsimp only
  rw [readFrame_head _ _ payload, ← read]

theorem forSelf_of {s : State} {type q : Nat} {hdr : List Word} {f : Frame} {payload : List Byte}
    (read : f = readFrame (link s (linkOf q)).bl2 hdr payload) (typed : f.type = type) (single : f.mc = false)
    (dest : selfEid s = some f.dest) : forSelf s type q hdr = true := by
  rw [forSelf_eq payload read]
  simp [typed, single, dest]

theorem forSelf_of_not {s : State} {type q : Nat} {hdr : List Word} {f : Frame} {payload : List Byte}
    (read : f = readFrame (link s (linkOf q)).bl2 hdr payload)
    (elsewhere : f.type ≠ type ∨ f.mc = true ∨ selfEid s ≠ some f.dest) : forSelf s type q hdr = false := by
  rw [forSelf_eq payload read]
  rcases elsewhere with h | h | h <;> simp [h]

theorem forSelf_arrivalEcc (s : State) (l : List EccError) (type q : Nat) (hdr : List Word) :
    forSelf (arrivalEcc s l) type q hdr = forSelf s type q hdr := by
  unfold forSelf selfEid
  rw [(arrivalEcc_fr s l).link, (arrivalEcc_fr s l).getR]

/-- The errors come first, and the frame then finds what they left (R215). -/
theorem cruReceive_ecc (s : State) (type q : Nat) (hdr : List Word) (payload : List Byte) (l : List EccError)
    (here : forSelf s type q hdr = true) :
    cruReceive type q hdr ⟨payload, l⟩ s = cruReceive type q hdr ⟨payload, []⟩ (arrivalEcc s l) := by
  unfold cruReceive
  rw [forSelf_arrivalEcc, here, if_pos rfl, if_pos rfl]
  rfl

end Sys2Proof.Machine

/-! #### Counters that a contribution moves only by its cause: R263, R393 -/

namespace Sys2Proof.Machine

set_option Elab.async false

/-- A counter that neither the frames of the spine's own nor the completion of a chunk move. -/
structure OffChunk (j : Nat) : Prop extends OffRiser j where
  low : j < 0x30000
  calm : j ≠ 0x603
  results : ∀ c, j ≠ cCtx c 1
  health : j ≠ 1

/-- What a context counts of its contributions, but for the results and losses of its own (R393). -/
theorem offChunk_ctx {c k : Nat} (within : c < 4096) (small : k < 16) (kept : k ≠ 1) (notLost : k ≠ 4) :
    OffChunk (cCtx c k) where
  apart := by unfold cCtx; omega
  links l k near member := by
    unfold cLink cCtx
    simp only [List.mem_cons, List.not_mem_nil, or_false] at member
    omega
  ctxs c := by unfold cCtx; omega
  events := by unfold cCtx; omega
  low := by unfold cCtx; omega
  calm := by unfold cCtx; omega
  results c := by unfold cCtx; omega
  health := by unfold cCtx; omega

/-- The events of a context that a contribution raises (R261, R263). -/
theorem offChunk_event {code : Nat} (code_ : code = 0x601 ∨ code = 0x602) : OffChunk code where
  apart := by omega
  links l k near member := by unfold cLink; omega
  ctxs c := by unfold cCtx; omega
  events := by omega
  low := by omega
  calm := by omega
  results c := by unfold cCtx; omega
  health := by omega

theorem cCtx_inj {c k k' : Nat} (same : cCtx c k = cCtx c k') : k = k' := by
  unfold cCtx at same
  omega

section Counters

variable {j : Nat} (off : OffChunk j)
include off

theorem sendNack_cntGet (s : State) {q : QFrame} (near : q.inLink < 2050) (cause backoff : Nat) :
    cntGet (sendNack s q cause backoff) j = cntGet s j := by
  have lost (y : State) : cntGet (if q.inLink = 0xFFF then y else bump y (cLink q.inLink 13)) j = cntGet y j := by
    rw [if_neg (by omega), off.bump_link _ near (by simp)]
  unfold sendNack
  dsimp only
  split
  · exact lost s
  · split
    · exact lost s
    · rw [originate_cntGet off.toOffRiser, cntGet_bump, if_neg (by have := off.low; unfold cNack; omega)]

theorem refuse_cntGet (s : State) {q : QFrame} (near : q.inLink < 2050) (cause backoff : Nat) :
    cntGet (refuse s q cause backoff) j = cntGet s j :=
  (sendNack_cntGet off _ near _ _).trans (freeCredit_cntGet _ _ _ _ _)

theorem refuseContrib_cntGet (s : State) {q : QFrame} (near : q.inLink < 2050) (cause backoff : Nat)
    (other : 0x40 ≤ cause → j ≠ cCtx q.f.ctx (causeCnt cause)) :
    cntGet (refuseContrib s q cause backoff) j = cntGet s j := by
  unfold refuseContrib
  rw [refuse_cntGet off _ near]
  split
  · next collective => rw [cntGet_bump, if_neg (other collective)]
  · rfl

theorem refuseContrib_counted (s : State) {q : QFrame} (near : q.inLink < 2050) {cause : Nat} (backoff : Nat)
    (collective : 0x40 ≤ cause) (own : j = cCtx q.f.ctx (causeCnt cause)) :
    cntGet (refuseContrib s q cause backoff) j = (cntGet s j + 1) % 2 ^ 64 := by
  unfold refuseContrib
  rw [refuse_cntGet off _ near, if_pos collective, cntGet_bump, if_pos own, own]

omit off in
theorem writeLine_cntGet (s : State) (g i : Nat) (v : Line) (low : j < 0x39000) : cntGet (writeLine s g i v) j = cntGet s j := by
  unfold writeLine
  split
  · rw [cntGet_bump, if_neg (by unfold cMod; omega)]
  · exact cntGet_congr ((noteWritten_fr _ _ _).cnt rfl) j

omit off in
theorem writeBytes_cntGet (s : State) (base p : Nat) (data : List Byte) (low : j < 0x39000) :
    cntGet (writeBytes s base p data) j = cntGet s j :=
  forEach_cnt _ _ _ _ fun y i => writeLine_cntGet y _ _ _ low

omit off in
theorem writePlanes_cntGet (s : State) (base : Nat) (offs : List Nat) (l : List (Nat × Nat × Nat)) (low : j < 0x39000) :
    cntGet (writePlanes s base offs l) j = cntGet s j :=
  forEach_cnt _ _ _ _ fun y i => writeBytes_cntGet y _ _ _ low

theorem updateChunk_cntGet (s : State) (c e0 : Nat) (vals : List FVal) :
    cntGet (updateChunk s c e0 vals).1 j = cntGet s j := by
  have advanced : cntGet (advanceOnce s c) j = cntGet s j := cntGet_congr ((advanceOnce_fr s c).cnt rfl) j
  have low : j < 0x39000 := Nat.lt_trans off.low (by decide)
  unfold updateChunk
  dsimp only
  split
  · exact advanced
  · split
    · exact (cntGet_congr ((readPlanes_fr _ _ _ _).cnt rfl) j).trans advanced
    · exact ((writePlanes_cntGet _ _ _ _ low).trans (cntGet_congr ((readPlanes_fr _ _ _ _).cnt rfl) j)).trans advanced

theorem chunkOutput_cntGet (s : State) (c k : Nat) (v : Chunk) : cntGet (chunkOutput s c k v).1 j = cntGet s j := by
  unfold chunkOutput
  dsimp only
  split
  · rfl
  · split
    · split
      · exact updateChunk_cntGet off ..
      · exact updateChunk_cntGet off ..
    · split
      · rfl
      · rfl

theorem sendResult_cntGet (s : State) (c die : Nat) (mc : Bool) (dest chunk : Nat) (ce : Bool) (l : List Frame) :
    cntGet (sendResult s c die mc dest chunk ce l) j = cntGet s j := by
  refine forEach_cnt _ _ _ _ fun y f => ?_
  dsimp only
  split
  · rw [cntGet_bump, if_neg (off.results c), collFrame_cntGet off.toOffRiser]
  · exact collFrame_cntGet off.toOffRiser ..

theorem chunkCompletes_cntGet (s : State) (c die chunk : Nat) (mc : Bool) (dest : Nat) (one : CmplSum) :
    cntGet (chunkCompletes s c die chunk mc dest one) j = cntGet s j := by
  unfold chunkCompletes
  dsimp only
  split
  · rfl
  · exact collFrame_cntGet off.toOffRiser ..

theorem releaseSlots_cntGet (s : State) (l : List Nat) : cntGet (releaseSlots s l) j = cntGet s j := by
  unfold releaseSlots
  rw [noteHealth_cnt _ _ (Nat.lt_trans off.low (by decide)) off.health]
  exact forEach_cnt _ _ _ _ fun y g => cntGet_congr ((releaseSlot_fr y g).cnt rfl) j

theorem chunkReported_cntGet (s : State) (c k : Nat) : cntGet (chunkReported s c k) j = cntGet s j := by
  unfold chunkReported
  dsimp only
  rw [releaseSlots_cntGet off, chunkCompletes_cntGet off, cntGet_congr ((missedMembers_fr _ _ _).cnt rfl),
    sendResult_cntGet off, chunkOutput_cntGet off]

theorem checkChunk_cntGet (s : State) (c k : Nat) : cntGet (checkChunk s c k) j = cntGet s j := by
  have done : cntGet (chunkDone s c k) j = cntGet s j :=
    (cntGet_congr ((setChunk_fr _ _ _ _).cnt rfl) j).trans (chunkReported_cntGet off s c k)
  unfold checkChunk
  dsimp only
  split
  · rw [completeChunk_eq]
    split
    · exact (endInvocation_cntGet off.toOffRiser off.calm ..).trans done
    · exact done
  · rfl

theorem takeDyn_cntGet (s : State) (q : QFrame) (c member k : Nat) (t : Taking) (segs : Option (List Seg)) :
    cntGet (takeDyn s q c member k t segs) j = cntGet s j := by
  unfold takeDyn
  dsimp only
  rw [checkChunk_cntGet off, cntGet_congr ((modCtx_fr _ _ _).cnt rfl), cntGet_congr ((modChunk_fr _ _ _ _).cnt rfl),
    cntGet_congr ((startChunk_fr _ _ _).cnt rfl)]

theorem takeWin_cntGet (s : State) (q : QFrame) (c member i : Nat) (t : Taking) (segs : Option (List Seg)) :
    cntGet (takeWin s q c member i t segs) j = cntGet s j := by
  have kept (x : Ctx) (e : Word × Word × Word × Word) (b : List Byte) : cntGet (keptBytes s x e b).1 j = cntGet s j :=
    cntGet_congr ((keptBytes_fr _ _ _ _).cnt rfl) j
  unfold takeWin
  dsimp only
  rw [cntGet_congr ((noteDone_fr _ _).cnt rfl)]
  split
  · rw [cntGet_congr ((modWin_fr _ _ _ _).cnt rfl)]
    split
    · exact kept _ _ _
    · rfl
  · rw [cntGet_bumpN, if_neg (by have := off.low; unfold cSeq; omega), cntGet_congr ((modWin_fr _ _ _ _).cnt rfl)]
    split
    · exact kept _ _ _
    · rfl

omit off in
theorem cntGet_bump_own (s : State) (i j : Nat) :
    cntGet (bump s i) j = if j = i then (cntGet s j + 1) % 2 ^ 64 else cntGet s j := by
  rw [cntGet_bump]
  exact if_ctx_congr Iff.rfl (fun h => by rw [h]) fun _ => rfl

theorem cntGet_raise_own (s : State) (code part a0 a1 : Nat) : cntGet (raiseEvent s code part a0 a1) j =
    if j = code then (cntGet s j + 1) % 2 ^ 64 else cntGet s j := by
  rw [raiseEvent_cnt _ _ _ _ _ _ (Nat.lt_trans off.low (by decide))]
  exact if_ctx_congr Iff.rfl (fun h => by rw [h]) fun _ => rfl

theorem noteMismatch_cntGet (s : State) (c : Nat) (f : Frame) (expected : Nat) :
    cntGet (noteMismatch s c f expected) j = if j = 0x601 then (cntGet s j + 1) % 2 ^ 64 else cntGet s j := by
  unfold noteMismatch
  dsimp only
  generalize logged : (if bit (getR s oMISMATCH0) 63 = true then s else _) = y
  have same : cntGet y j = cntGet s j := by
    rw [← logged]
    split <;> rfl
  split
  · exact (cntGet_bump_own y 0x601 j).trans (by rw [same])
  · exact (cntGet_raise_own off _ 0x601 _ _ _).trans (by rw [cntGet_congr ((setCtx_fr _ _ _).cnt rfl), same])

theorem excludedEvent_cntGet (s : State) (c member eid : Nat) :
    cntGet (excludedEvent s c member eid) j = if j = 0x602 then (cntGet s j + 1) % 2 ^ 64 else cntGet s j := by
  unfold excludedEvent
  dsimp only
  split
  · exact cntGet_bump_own s 0x602 j
  · exact (cntGet_raise_own off _ 0x602 _ _ _).trans (by rw [cntGet_congr ((setCtx_fr _ _ _).cnt rfl)])

end Counters

end Sys2Proof.Machine

/-! #### The checks of a contribution in order: R263 -/

namespace Sys2Proof.Machine

set_option Elab.async false

/-- A unit that has yet to take a frame sees contexts, plans, time and registers as they were. -/
theorem Reached.ctxOf {s x : State} {l : Nat} (h : Reached s x l) (c : Nat) : Machine.ctxOf x c = Machine.ctxOf s c :=
  ctxOf_congr (h.fr.coll rfl) c

theorem Reached.planOf {s x : State} {l : Nat} (h : Reached s x l) (c : Nat) : Machine.planOf x c = Machine.planOf s c :=
  h.fr.planOf c

theorem Reached.planned {s x : State} {l : Nat} (h : Reached s x l) (c : Nat) : Machine.planned x c = Machine.planned s c := by
  unfold Machine.planned
  rw [h.planOf]

theorem Reached.hasCrucibles {s x : State} {l : Nat} (h : Reached s x l) : Machine.hasCrucibles x = Machine.hasCrucibles s := by
  unfold Machine.hasCrucibles
  rw [h.fr.variant]

theorem Reached.memberOf {s x : State} {l : Nat} (h : Reached s x l) (part c eid : Nat) :
    Machine.memberOf x part c eid = Machine.memberOf s part c eid := by
  have same (e0 e1 : Word) : emLook x e0 e1 = emLook s e0 e1 := by
    unfold emLook beforeImage emFind emSlot emCands emKeyBytes rf
    rw [h.fr.tbl rfl, h.fr.getR]
  unfold Machine.memberOf
  rw [same]

theorem Reached.ntNs {s x : State} {l : Nat} (h : Reached s x l) : Machine.ntNs x = Machine.ntNs s :=
  calc Machine.ntNs x
    _ = Machine.ntNs { s with tim := x.tim, now := x.now } := rfl
    _ = Machine.ntNs s := by rw [h.fr.tim rfl, h.fr.now rfl]

theorem Reached.planPlace {s x : State} {l : Nat} (h : Reached s x l) (c member chunk : Nat) :
    Machine.planPlace x c member chunk = Machine.planPlace s c member chunk := by
  unfold Machine.planPlace earlyBackoff
  rw [h.planOf, h.ctxOf, h.ntNs]

theorem Reached.poolSlots {s x : State} {l : Nat} (h : Reached s x l) (cu : Nat) :
    Machine.poolSlots x cu = Machine.poolSlots s cu := by
  have free : slotFree x = slotFree s := by
    funext g
    unfold slotFree
    rw [cruSlot_congr (h.fr.cru rfl)]
  unfold Machine.poolSlots dynSlots rf
  rw [free, h.fr.getR]

theorem Reached.dynPlace {s x : State} {l : Nat} (h : Reached s x l) (c member chunk : Nat) :
    Machine.dynPlace x c member chunk = Machine.dynPlace s c member chunk := by
  unfold Machine.dynPlace busyBackoff rf
  dsimp only
  rw [h.ctxOf, h.poolSlots, h.fr.getR, h.fr.coll rfl, h.fr.now rfl]

theorem Reached.checkForm {s x : State} {l : Nat} (h : Reached s x l) (c member i : Nat) (planned_ : Bool) (f : Frame) :
    Machine.checkForm x c member i planned_ f = Machine.checkForm s c member i planned_ f := by
  unfold Machine.checkForm tokensOf
  rw [h.ctxOf, h.planOf]

variable {x : State} {fr : QFrame} {c m : Nat}

theorem contribution_noContext (down : ctxUp (ctxOf x fr.f.ctx) = false) :
    contribution fr x = refuseContrib x fr nkNO_CONTEXT 0 := by
  unfold contribution
  dsimp only
  rw [if_pos (by simp [down])]

theorem contribution_excluded (up : ctxUp (ctxOf x fr.f.ctx) = true)
    (member : memberOf x (ctxPart (ctxOf x fr.f.ctx)) fr.f.ctx fr.f.src = some m) (within : m < ctxMembers (ctxOf x fr.f.ctx))
    (excluded : (ctxOf x fr.f.ctx).excluded.contains m = true) :
    contribution fr x = excludedEvent (refuseContrib x fr nkEXCLUDED 0) fr.f.ctx m fr.f.src := by
  unfold contribution
  dsimp only
  rw [if_neg (by simp [up]), member]
  dsimp only
  rw [if_neg (by omega), if_pos excluded]

/-- A member's contribution that its context admits: where it belongs decides (R231, R263). -/
structure Admitted (x : State) (fr : QFrame) (m : Nat) : Prop where
  up : ctxUp (ctxOf x fr.f.ctx) = true
  member : memberOf x (ctxPart (ctxOf x fr.f.ctx)) fr.f.ctx fr.f.src = some m
  within : m < ctxMembers (ctxOf x fr.f.ctx)
  included : (ctxOf x fr.f.ctx).excluded.contains m = false
  class_ : fr.f.tc = ctxTc (ctxOf x fr.f.ctx)
  op : fr.f.type = tCOMBINE ↔ isCombine (ctxOf x fr.f.ctx) = true
  crucibles : hasCrucibles x = true
  full : fr.inBl2 = false

/-- Where a contribution belongs, or the cause and back-off that refuse it. -/
def contribPlace (x : State) (c m chunk : Nat) : Except (Nat × Nat) Nat :=
  if planned x c = true then planPlace x c m chunk else dynPlace x c m chunk

/-- What becomes of a contribution that its context admits. -/
def contribAt (x : State) (fr : QFrame) (m : Nat) : Except (Nat × Nat) Nat → State
  | .error e => refuseContrib x fr e.1 e.2
  | .ok i => takeContrib x fr fr.f.ctx m i (planned x fr.f.ctx)

theorem contribution_admitted (admitted : Admitted x fr m) :
    contribution fr x = contribAt x fr m (contribPlace x fr.f.ctx m fr.f.chunk) := by
  obtain ⟨up, member, within, included, class_, op, crucibles, full⟩ := admitted
  unfold contribution contribAt contribPlace
  dsimp only
  rw [if_neg (by simp [up]), member]
  dsimp only
  rw [if_neg (by omega), if_neg (ne_true_of_eq_false included), if_neg (by simp [class_, op]),
    if_neg (by simp [crucibles]), if_neg (by simp [full])]
  generalize (if planned x fr.f.ctx = true then planPlace x fr.f.ctx m fr.f.chunk else _) = place_
  rcases place_ with ⟨_, _⟩ | _ <;> rfl

/-- The segments of a form, none where it is wrong. -/
def formSegs (form : Except Nat (Option (List Seg))) : Option (List Seg) :=
  match form with
  | .ok l => l
  | .error _ => none

/-- Another hash: refused, noted, and the chunk poisoned (R261). -/
theorem takeContrib_mismatch {k : Nat} (full : fr.inBl2 = false) (other : fr.f.dhash ≠ (ctxOf x c).hash) :
    takeContrib x fr c m k false =
      takeDyn (noteMismatch (refuseContrib x fr nkMISMATCH 0) c fr.f (ctxOf x c).hash) fr c m k .mismatch
        (formSegs (checkForm x c m k false fr.f)) := by
  unfold takeContrib
  dsimp only
  rw [if_pos (by simp [full, other]), if_neg (by decide)]
  rfl

theorem takeContrib_dyn {k : Nat} {segs : Option (List Seg)} (hash : fr.f.dhash = (ctxOf x c).hash)
    (form : checkForm x c m k false fr.f = .ok segs) :
    takeContrib x fr c m k false =
      takeDyn (noteTaken (freeCredit x fr.inLink fr.f.tc (inCells fr)) fr c m) fr c m k
        (if fr.f.poison then .poison else .add) segs := by
  unfold takeContrib
  dsimp only
  rw [if_neg (by simp [hash]), form]
  dsimp only
  rw [if_neg (by decide)]

theorem takeContrib_win {i : Nat} {segs : Option (List Seg)} (hash : fr.f.dhash = (ctxOf x c).hash)
    (form : checkForm x c m i true fr.f = .ok segs) :
    takeContrib x fr c m i true =
      takeWin (noteTaken (freeCredit x fr.inLink fr.f.tc (inCells fr)) fr c m) fr c m i
        (if fr.f.poison then .poison else .add) segs := by
  unfold takeContrib
  dsimp only
  rw [if_neg (by simp [hash]), form]
  dsimp only
  rw [if_pos rfl]

end Sys2Proof.Machine

/-! #### What a contribution leaves: R231, R261, R262, R271, R272 -/

namespace Sys2Proof.Machine

set_option Elab.async false

/-! The causes that place no contribution are collective ones. -/

/-- A collective cause, counted for its context at a place of its own (R393). -/
def Collective (cause : Nat) : Prop := 0x40 ≤ cause ∧ causeCnt cause ≠ 1 ∧ causeCnt cause ≠ 4 ∧ causeCnt cause < 16

theorem collective_of_mem {cause : Nat} (member : cause ∈ [nkBUSY, nkMISMATCH, nkDUPLICATE, nkLATE, nkEARLY, nkNOT_ARMED,
    nkNO_WINDOW, nkPLAN_STOPPED, nkNO_CONTEXT, nkEXCLUDED, nkBAD_CHUNK]) : Collective cause := by
  simp only [List.mem_cons, List.not_mem_nil, or_false] at member
  rcases member with h | h | h | h | h | h | h | h | h | h | h <;> subst h <;> unfold Collective <;> decide

/-- Every refusal of a placement has a collective cause. -/
def Refuses (r : Except (Nat × Nat) Nat) : Prop := ∀ cause back, r = .error (cause, back) → Collective cause

theorem Refuses.ok (i : Nat) : Refuses (.ok i) := fun _ _ h => nomatch h

theorem Refuses.error {cause back : Nat} (collective : Collective cause) : Refuses (.error (cause, back)) := by
  rintro _ _ h
  cases h
  exact collective

theorem Refuses.ite {p : Prop} [Decidable p] {a b : Except (Nat × Nat) Nat} (ha : Refuses a) (hb : Refuses b) :
    Refuses (if p then a else b) := by
  split <;> assumption

theorem planPlace_refuses (s : State) (c m chunk : Nat) : Refuses (planPlace s c m chunk) := by
  have cause {n back : Nat} (member : n ∈ [nkBUSY, nkMISMATCH, nkDUPLICATE, nkLATE, nkEARLY, nkNOT_ARMED, nkNO_WINDOW,
      nkPLAN_STOPPED, nkNO_CONTEXT, nkEXCLUDED, nkBAD_CHUNK]) : Refuses (.error (n, back)) :=
    .error (collective_of_mem member)
  unfold planPlace
  dsimp only
  refine .ite (cause (by simp)) (.ite (cause (by simp)) ?_)
  split
  · exact cause (by simp)
  · exact .ite (cause (by simp)) (.ite (cause (by simp)) (.ite (cause (by simp)) (.ite (cause (by simp))
      (.ite (cause (by simp)) (.ok _)))))

theorem dynPlace_refuses (s : State) (c m chunk : Nat) : Refuses (dynPlace s c m chunk) := by
  have cause {n back : Nat} (member : n ∈ [nkBUSY, nkMISMATCH, nkDUPLICATE, nkLATE, nkEARLY, nkNOT_ARMED, nkNO_WINDOW,
      nkPLAN_STOPPED, nkNO_CONTEXT, nkEXCLUDED, nkBAD_CHUNK]) : Refuses (.error (n, back)) :=
    .error (collective_of_mem member)
  unfold dynPlace
  dsimp only
  exact .ite (cause (by simp)) (.ite (cause (by simp)) (.ite (cause (by simp)) (.ite (cause (by simp))
    (.ite (cause (by simp)) (.ite (cause (by simp)) (.ite (cause (by simp)) (.ok _)))))))

theorem contribPlace_refuses (s : State) (c m chunk : Nat) : Refuses (contribPlace s c m chunk) :=
  .ite (planPlace_refuses s c m chunk) (dynPlace_refuses s c m chunk)

/-! The log of the first mismatch. -/

theorem regInfo_mismatch (v : Variant) (bl2 : Bool) :
    regInfo v bl2 oMISMATCH0 = { w1c := mask 63 63, hw := mask 63 51 + mask 23 0 } := rfl

theorem mismatchLog_toNat {c src : Nat} (ctx : c < 4096) (eid : src < 2 ^ 24) :
    (mkWord [at_ 63 1, at_ 51 c, src]).toNat = 2 ^ 63 + c * 2 ^ 51 + src := by
  unfold mkWord at_
  simp only [List.foldl, Nat.shiftLeft_eq, BitVec.toNat_ofNat]
  omega

/-- MISMATCH0 is valid once a mismatch has been noted (R261). -/
theorem noteMismatch_valid (s : State) {c : Nat} {f : Frame} (expected : Nat) (ctx : c < 4096) (eid : f.src < 2 ^ 24) :
    bit (getR (noteMismatch s c f expected) oMISMATCH0) 63 = true := by
  have logged : bit (getR (putR (putR s oMISMATCH0 (mkWord [at_ 63 1, at_ 51 c, f.src])) oMISMATCH1
      (mkWord [at_ 32 expected, f.dhash])) oMISMATCH0) 63 = true := by
    have high : (2 ^ 63 + c * 2 ^ 51 + f.src).testBit 63 = true := by
      rw [Nat.testBit_eq_decide_div_mod_eq]
      simp only [decide_eq_true_eq]
      omega
    have kept : (regBits { w1c := mask 63 63, hw := mask 63 51 + mask 23 0 }).testBit 63 = true := by decide
    rw [getR_putR_other _ _ _ _ (by decide), getR_putR, regInfo_mismatch, mismatchLog_toNat ctx eid]
    unfold bit regClip
    rw [BitVec.toNat_ofNat, Nat.testBit_mod_two_pow, Nat.testBit_or, Nat.testBit_and, Nat.testBit_and, high, kept]
    simp
  unfold noteMismatch
  dsimp only
  generalize noted : (if bit (getR s oMISMATCH0) 63 = true then s else _) = y
  have valid : bit (getR y oMISMATCH0) 63 = true := by
    rw [← noted]
    split
    · assumption
    · exact logged
  split
  · exact valid
  · rw [(raiseEvent_fr _ _ _ _ _).getR, (setCtx_fr _ _ _).getR]
    exact valid

/-! A contribution that is taken. -/

theorem noteTaken_ctx (s : State) (q : QFrame) (c m : Nat) : ctxOf (noteTaken s q c m) c =
    { ctxOf s c with arrivals := tset 0 (ctxOf s c).arrivals m (s.now + 1) } := by
  unfold noteTaken arrived
  dsimp only
  rw [ctxOf_modCtx]
  split <;> rfl

theorem noteTaken_cntGet (s : State) {q : QFrame} (full : q.inBl2 = false) (c m : Nat) :
    cntGet (noteTaken s q c m) (cCtx c 0) = (cntGet s (cCtx c 0) + 1) % 2 ^ 64 := by
  unfold noteTaken arrived
  dsimp only
  rw [cntGet_congr ((modCtx_fr _ _ _).cnt rfl), if_neg (by simp [full]), cntGet_bump, if_pos rfl]

/-- A dynamic chunk has taken a contribution; whether it completes is yet to be seen. -/
def dynTaken (s : State) (q : QFrame) (c member k : Nat) (t : Taking) (segs : Option (List Seg)) : State :=
  let s := startChunk s c k
  let x := ctxOf s c
  let k1 := ctxArith x
  let n := chunkElems x k
  let s := modChunk s c k fun v =>
    let v := noteContrib v t q.f member x.hash segs
    if t = .add && !isCombine x then
      let r := accList k1 (runsExact x true) 0 (if v.acc.isEmpty then List.replicate n .none else v.acc)
        (decPayload (aIn k1) q.f.payload n)
      { v with acc := r.1, flags := v.flags ||| r.2 }
    else v
  modCtx s c fun x => { x with lastTaken := s.now }

theorem takeDyn_eq (s : State) (q : QFrame) (c member k : Nat) (t : Taking) (segs : Option (List Seg)) :
    takeDyn s q c member k t segs = checkChunk (dynTaken s q c member k t segs) c k := rfl

theorem noteContrib_received (v : Chunk) (t : Taking) (f : Frame) (member expected : Nat) (segs : Option (List Seg)) :
    (noteContrib v t f member expected segs).received = addNew v.received member := by
  unfold noteContrib
  cases t <;> rfl

theorem startChunk_ctx (s : State) (c k : Nat) :
    (ctxOf (startChunk s c k) c).n = (ctxOf s c).n ∧ (ctxOf (startChunk s c k) c).arrivals = (ctxOf s c).arrivals ∧
      (chunkOpen (ctxChunk (ctxOf s c) k) = false → (ctxOf (startChunk s c k) c).dyn = true) := by
  unfold startChunk
  dsimp only
  split
  · next open_ => exact ⟨rfl, rfl, fun shut => absurd (open_.symm.trans shut) (by decide)⟩
  · unfold modChunk setChunk
    rw [ctxOf_modCtx, ctxOf_modCtx,
      ctxOf_congr ((Fr.forEach (m := 512) _ _ (fun _ _ => setCruSlot_fr _ _ _) (.refl _ _)).coll rfl) c]
    exact ⟨rfl, rfl, fun _ => rfl⟩

theorem dynTaken_ctx (s : State) (q : QFrame) (c member k : Nat) (t : Taking) (segs : Option (List Seg)) :
    let z := ctxOf (dynTaken s q c member k t segs) c
    z.n = (ctxOf s c).n ∧ z.arrivals = (ctxOf s c).arrivals ∧ (ctxChunk z k).received.contains member = true ∧
      (chunkOpen (ctxChunk (ctxOf s c) k) = false → z.dyn = true) := by
  obtain ⟨n, arrivals, started⟩ := startChunk_ctx s c k
  unfold dynTaken
  dsimp only
  rw [ctxOf_modCtx]
  refine ⟨?_, ?_, ?_, fun shut => ?_⟩
  · unfold modChunk setChunk
    rw [ctxOf_modCtx]
    exact n
  · unfold modChunk setChunk
    rw [ctxOf_modCtx]
    exact arrivals
  · show (ctxChunk (ctxOf (modChunk _ _ _ _) c) k).received.contains member = true
    rw [ctxChunk_modChunk_same]
    split
    · dsimp only
      rw [noteContrib_received]
      exact contains_addNew _ _
    · rw [noteContrib_received]
      exact contains_addNew _ _
  · unfold modChunk setChunk
    rw [ctxOf_modCtx]
    exact started shut

theorem next_ne (n : Nat) : (n + 1) % 2 ^ 32 ≠ n := by omega

/-- A chunk that may complete keeps what it has received, unless its invocation ends. -/
theorem checkChunk_keeps {z : State} {c k member : Nat} (got : (ctxChunk (ctxOf z c) k).received.contains member = true)
    (same : (ctxOf (checkChunk z c k) c).n = (ctxOf z c).n) :
    (ctxChunk (ctxOf (checkChunk z c k) c) k).received.contains member = true ∧
      (ctxOf (checkChunk z c k) c).arrivals = (ctxOf z c).arrivals ∧
      (ctxOf (checkChunk z c k) c).dyn = (ctxOf z c).dyn := by
  unfold checkChunk at same ⊢
  dsimp only at same ⊢
  split at same
  · next full =>
    rw [if_pos full]
    obtain ⟨y, held, done | ended⟩ := completeChunk_ctx z c k
    · simp only [ctxHeld, Prod.mk.injEq] at held
      obtain ⟨-, -, -, -, arrivals, dyn⟩ := held
      rw [done]
      refine ⟨?_, arrivals, dyn⟩
      rw [ctxChunk, tget_tset_same]
      exact got
    · simp only [ctxHeld, Prod.mk.injEq] at held
      rw [ended] at same
      exact absurd (show (y.n + 1) % 2 ^ 32 = y.n from same.trans held.1.symm) (next_ne y.n)
  · next open_ =>
    rw [if_neg open_]
    exact ⟨got, rfl, rfl⟩

/-- A dynamic chunk with a contribution that it takes (R231, R262). -/
theorem takeDyn_spec {s : State} {q : QFrame} {c member k : Nat} {t : Taking} {segs : Option (List Seg)}
    (same : (ctxOf (takeDyn s q c member k t segs) c).n = (ctxOf s c).n) :
    (ctxChunk (ctxOf (takeDyn s q c member k t segs) c) k).received.contains member = true ∧
      (ctxOf (takeDyn s q c member k t segs) c).arrivals = (ctxOf s c).arrivals ∧
      (chunkOpen (ctxChunk (ctxOf s c) k) = false → (ctxOf (takeDyn s q c member k t segs) c).dyn = true) := by
  obtain ⟨n, arrivals, received, started⟩ := dynTaken_ctx s q c member k t segs
  rw [takeDyn_eq] at same ⊢
  obtain ⟨kept, arrivals', dyn⟩ := checkChunk_keeps received (same.trans n.symm)
  exact ⟨kept, arrivals'.trans arrivals, fun shut => dyn.trans (started shut)⟩

theorem takeWin_received (s : State) (q : QFrame) (c member i : Nat) (t : Taking) (segs : Option (List Seg)) :
    (win (planOf (takeWin s q c member i t segs) c) i).c.received.contains member = true := by
  unfold takeWin
  dsimp only
  generalize (if (t = Taking.add && !isCombine (ctxOf s c)) = true then _ else (s, [])) = kept
  generalize taken : modWin kept.1 c i _ = y
  have got : (win (planOf y c) i).c.received.contains member = true := by
    rw [← taken, win_modWin]
    split
    · rw [noteContrib_received]
      exact contains_addNew _ _
    · split
      · unfold accTake
        dsimp only
        rw [noteContrib_received]
        exact contains_addNew _ _
      · dsimp only
        rw [noteContrib_received]
        exact contains_addNew _ _
  generalize counted : (if t = Taking.mismatch then y else _) = z
  have plan : planOf z c = planOf y c := by
    rw [← counted]
    split <;> rfl
  have noted := (noteDone_noted z c).2 i
  unfold DoneNoted at noted
  rw [noted, plan]
  exact got

end Sys2Proof.Machine

/-! #### Contributions judged, and dynamic invocations that time out: R263, R271, R272 -/

namespace Sys2Proof.Machine

set_option Elab.async false

theorem readFrame_ctx (bl2 : Bool) (hdr : List Word) (payload : List Byte) : (readFrame bl2 hdr payload).ctx < 4096 := by
  cases bl2
  · exact Nat.mod_lt _ (by decide)
  · exact Nat.mod_lt _ (by decide)

theorem readFrame_src (bl2 : Bool) (hdr : List Word) (payload : List Byte) : (readFrame bl2 hdr payload).src < 2 ^ 24 := by
  cases bl2
  · exact Nat.mod_lt _ (by decide)
  · exact Nat.lt_trans (Nat.mod_lt _ (by decide)) (by decide)

/-- A contribution of frame f has come to the crucible over link l. -/
structure Came (s x : State) (fr : QFrame) (f : Frame) (l : Nat) : Prop where
  reached : Reached s x l
  frame : fr.f = f
  link : fr.inLink = l
  near : l < 2050
  ctx : f.ctx < 4096
  src : f.src < 2 ^ 24

variable {s x : State} {fr : QFrame} {f : Frame} {l m : Nat}

theorem Came.cnt (came : Came s x fr f l) {j : Nat} (off : OffChunk j) (notLink : j < 0x1000 ∨ 0x20000 ≤ j) :
    cntGet x j = cntGet s j :=
  came.reached.cnt j (Nat.lt_trans off.low (by decide)) fun k small => by
    have := came.near
    unfold cLink
    omega

theorem Came.cnt_ctx (came : Came s x fr f l) {k : Nat} (small : k < 16) (kept : k ≠ 1) (notLost : k ≠ 4) :
    cntGet x (cCtx f.ctx k) = cntGet s (cCtx f.ctx k) :=
  came.cnt (offChunk_ctx came.ctx small kept notLost) (.inr (by unfold cCtx; omega))

/-- A refused contribution is counted for its cause, and leaves contexts and plans as they were. -/
theorem refused_spec (came : Came s x fr f l) {cause : Nat} (back : Nat) (collective : Collective cause) :
    cntGet (refuseContrib x fr cause back) (cCtx f.ctx (causeCnt cause)) =
        (cntGet s (cCtx f.ctx (causeCnt cause)) + 1) % 2 ^ 64 ∧
      (refuseContrib x fr cause back).coll = s.coll ∧ (refuseContrib x fr cause back).plan = s.plan := by
  obtain ⟨nack, kept, notLost, small⟩ := collective
  have frame : Fr 82117 s (refuseContrib x fr cause back) := (refuseContrib_fr _ _ _ _).step came.reached.fr
  refine ⟨?_, frame.coll rfl, frame.plan rfl⟩
  rw [refuseContrib_counted (offChunk_ctx came.ctx small kept notLost) _ (by rw [came.link]; exact came.near) _ nack
    (by rw [came.frame]), came.cnt_ctx small kept notLost]

/-- An excluded member's contribution is told of as well (R263). -/
theorem excluded_spec (came : Came s x fr f l) :
    let t := excludedEvent (refuseContrib x fr nkEXCLUDED 0) f.ctx m f.src
    cntGet t (cCtx f.ctx 13) = (cntGet s (cCtx f.ctx 13) + 1) % 2 ^ 64 ∧ cntGet t 0x602 = (cntGet s 0x602 + 1) % 2 ^ 64 ∧
      t.plan = s.plan ∧ (ctxOf t f.ctx).excluded = (ctxOf s f.ctx).excluded ∧
      (ctxOf t f.ctx).chunks = (ctxOf s f.ctx).chunks := by
  intro t
  obtain ⟨counted, coll, plan⟩ := refused_spec came 0 (cause := nkEXCLUDED) (collective_of_mem (by simp))
  have off := offChunk_ctx came.ctx (k := 13) (by decide) (by decide) (by decide)
  have event := offChunk_event (code := 0x602) (.inr rfl)
  have near : fr.inLink < 2050 := by
    rw [came.link]
    exact came.near
  have ctx : ctxOf (refuseContrib x fr nkEXCLUDED 0) f.ctx = ctxOf s f.ctx := ctxOf_congr coll f.ctx
  have marked : (ctxOf t f.ctx).excluded = (ctxOf s f.ctx).excluded ∧ (ctxOf t f.ctx).chunks = (ctxOf s f.ctx).chunks := by
    show (ctxOf (excludedEvent _ _ _ _) f.ctx).excluded = _ ∧ (ctxOf (excludedEvent _ _ _ _) f.ctx).chunks = _
    unfold excludedEvent
    dsimp only
    split
    · rw [ctxOf_congr (show (countEvent _ _).coll = _ from (bump_fr _ _).coll rfl) f.ctx, ctx]
      exact ⟨rfl, rfl⟩
    · rw [ctxOf_congr ((raiseEvent_fr _ _ _ _ _).coll rfl) f.ctx, ctxOf_setCtx, ctx]
      exact ⟨rfl, rfl⟩
  refine ⟨?_, ?_, ((excludedEvent_fr _ _ _ _).plan rfl).trans plan, marked⟩
  · rw [excludedEvent_cntGet off, if_neg (by unfold cCtx; omega)]
    exact counted
  · rw [excludedEvent_cntGet event, if_pos rfl, refuseContrib_cntGet event _ near _ _ (fun _ => by unfold cCtx; omega),
      came.cnt event (.inl (by decide))]

/-- Another hash is refused, told of and logged (R261). -/
theorem hashMismatch_spec (came : Came s x fr f l) (k : Nat) (t : Taking) (segs : Option (List Seg)) (expected : Nat) :
    let t := takeDyn (noteMismatch (refuseContrib x fr nkMISMATCH 0) f.ctx f expected) fr f.ctx m k t segs
    cntGet t (cCtx f.ctx 3) = (cntGet s (cCtx f.ctx 3) + 1) % 2 ^ 64 ∧ cntGet t 0x601 = (cntGet s 0x601 + 1) % 2 ^ 64 ∧
      bit (getR t oMISMATCH0) 63 = true := by
  intro t
  obtain ⟨counted, coll, plan⟩ := refused_spec came 0 (cause := nkMISMATCH) (collective_of_mem (by simp))
  have off := offChunk_ctx came.ctx (k := 3) (by decide) (by decide) (by decide)
  have event := offChunk_event (code := 0x601) (.inl rfl)
  have near : fr.inLink < 2050 := by
    rw [came.link]
    exact came.near
  refine ⟨?_, ?_, ?_⟩
  · rw [takeDyn_cntGet off, noteMismatch_cntGet off, if_neg (by unfold cCtx; omega)]
    exact counted
  · rw [takeDyn_cntGet event, noteMismatch_cntGet event, if_pos rfl,
      refuseContrib_cntGet event _ near _ _ (fun _ => by unfold cCtx; omega), came.cnt event (.inl (by decide))]
  · rw [(takeDyn_fr _ _ _ _ _ _ _).getR]
    exact noteMismatch_valid _ _ came.ctx came.src

/-- What a contribution's arrival leaves before its chunk or window takes it. -/
theorem taken_spec (came : Came s x fr f l) (full : fr.inBl2 = false) (c : Nat) :
    let y := noteTaken (freeCredit x fr.inLink f.tc (inCells fr)) fr c m
    cntGet y (cCtx c 0) = (cntGet x (cCtx c 0) + 1) % 2 ^ 64 ∧ ctxOf y c =
      { ctxOf s c with arrivals := tset 0 (ctxOf s c).arrivals m (s.now + 1) } := by
  intro y
  have ctx : ctxOf (freeCredit x fr.inLink f.tc (inCells fr)) c = ctxOf s c :=
    (ctxOf_congr ((freeCredit_fr _ _ _ _).coll rfl) c).trans (came.reached.ctxOf c)
  have now : (freeCredit x fr.inLink f.tc (inCells fr)).now = s.now := ((freeCredit_fr _ _ _ _).now rfl).trans (came.reached.fr.now rfl)
  refine ⟨?_, ?_⟩
  · rw [show y = noteTaken (freeCredit x fr.inLink f.tc (inCells fr)) fr c m from rfl, noteTaken_cntGet _ full,
      freeCredit_cntGet]
  · rw [show y = noteTaken (freeCredit x fr.inLink f.tc (inCells fr)) fr c m from rfl, noteTaken_ctx, ctx, now]

/-- A contribution that a dynamic chunk takes (R262). -/
theorem takenDyn_spec (came : Came s x fr f l) (full : fr.inBl2 = false) (k : Nat) (t : Taking) (segs : Option (List Seg)) :
    let t := takeDyn (noteTaken (freeCredit x fr.inLink f.tc (inCells fr)) fr f.ctx m) fr f.ctx m k t segs
    cntGet t (cCtx f.ctx 0) = (cntGet s (cCtx f.ctx 0) + 1) % 2 ^ 64 ∧
      ((ctxOf t f.ctx).n = (ctxOf s f.ctx).n →
        (ctxChunk (ctxOf t f.ctx) k).received.contains m = true ∧ tget 0 (ctxOf t f.ctx).arrivals m = s.now + 1 ∧
        (chunkOpen (ctxChunk (ctxOf s f.ctx) k) = false → (ctxOf t f.ctx).dyn = true)) := by
  intro z
  obtain ⟨counted, ctx⟩ := taken_spec (m := m) came full f.ctx
  refine ⟨?_, fun same => ?_⟩
  · rw [takeDyn_cntGet (offChunk_ctx came.ctx (by decide) (by decide) (by decide)), counted,
      came.cnt_ctx (by decide) (by decide) (by decide)]
  · obtain ⟨received, arrivals, started⟩ := takeDyn_spec (show (ctxOf z f.ctx).n = (ctxOf _ f.ctx).n by rw [same, ctx])
    refine ⟨received, ?_, fun shut => started (by rw [ctx]; exact shut)⟩
    rw [arrivals, ctx]
    exact tget_tset_same ..

/-- A contribution that a window takes (R231). -/
theorem takenWin_spec (came : Came s x fr f l) (full : fr.inBl2 = false) (i : Nat) (t : Taking) (segs : Option (List Seg)) :
    let t := takeWin (noteTaken (freeCredit x fr.inLink f.tc (inCells fr)) fr f.ctx m) fr f.ctx m i t segs
    cntGet t (cCtx f.ctx 0) = (cntGet s (cCtx f.ctx 0) + 1) % 2 ^ 64 ∧
      (win (planOf t f.ctx) i).c.received.contains m = true ∧ tget 0 (ctxOf t f.ctx).arrivals m = s.now + 1 := by
  intro z
  obtain ⟨counted, ctx⟩ := taken_spec (m := m) came full f.ctx
  refine ⟨?_, takeWin_received .., ?_⟩
  · rw [takeWin_cntGet (offChunk_ctx came.ctx (by decide) (by decide) (by decide)), counted,
      came.cnt_ctx (by decide) (by decide) (by decide)]
  · rw [ctxOf_congr ((takeWin_fr _ _ _ _ _ _ _).coll rfl) f.ctx, ctx]
    exact tget_tset_same ..

end Sys2Proof.Machine

/-! #### O51 settled -/

namespace Sys2Proof.Machine

set_option Elab.async false

theorem consume_contribution {fr : QFrame} {p : Nat} {x : State} (typed : fr.f.type = tCONTRIB ∨ fr.f.type = tCOMBINE) :
    consume fr p x = contribution fr x := by
  unfold consume
  dsimp only
  rcases typed with h | h <;> rw [h, if_neg (by decide), if_pos (by simp)]

/-- A contribution with no ECC error is received where it is addressed to the spine. -/
theorem cruReceive_here {s : State} {type q : Nat} {hdr : List Word} {payload : List Byte} (here : forSelf s type q hdr = true) :
    cruReceive type q hdr ⟨payload, []⟩ s = frameReceive q hdr payload s := by
  unfold cruReceive
  rw [if_pos here]
  rfl

/-- A contribution that reaches the spine comes to the crucible. -/
theorem reachesSpine_came {s : State} {q type part : Nat} {hdr : List Word} {payload : List Byte} {f : Frame}
    (read : f = readFrame (link s (linkOf q)).bl2 hdr payload) (typed : type = tCONTRIB ∨ type = tCOMBINE)
    (reaches_ : ReachesSpine s q type part hdr f) :
    ∃ x fr, cruReceive type q hdr ⟨payload, []⟩ s = contribution fr x ∧ Came s x fr f (linkOf q) ∧
      fr.inBl2 = (link s (linkOf q)).bl2 := by
  obtain ⟨x, fr, received, reached, frame, inLink, bl2⟩ :=
    reachesSpine_consumed read (by rcases typed with h | h <;> rw [h] <;> decide) reaches_
  obtain ⟨near, -, -, -, -, ofType, -, -, -, single, dest, -⟩ := reaches_
  refine ⟨x, fr, ?_, ⟨reached, frame, inLink, linkOf_near near, ?_, ?_⟩, bl2⟩
  · rw [cruReceive_here (forSelf_of read ofType single dest), received,
      consume_contribution (by rw [frame, ofType]; exact typed)]
  · rw [read]
    exact readFrame_ctx _ _ _
  · rw [read]
    exact readFrame_src _ _ _

/-- What the checks of R263 let through comes to its place. -/
theorem Came.admitted {s x : State} {fr : QFrame} {f : Frame} {l m : Nat} (came : Came s x fr f l)
    (up : ctxUp (Machine.ctxOf s f.ctx) = true) (member : memberOf s (ctxPart (Machine.ctxOf s f.ctx)) f.ctx f.src = some m)
    (within : m < ctxMembers (Machine.ctxOf s f.ctx)) (included : (Machine.ctxOf s f.ctx).excluded.contains m = false)
    (class_ : f.tc = ctxTc (Machine.ctxOf s f.ctx)) (op : f.type = tCOMBINE ↔ isCombine (Machine.ctxOf s f.ctx) = true)
    (crucibles : hasCrucibles s = true) (full : fr.inBl2 = false) : Admitted x fr m := by
  have frame := came.frame
  have ctx := came.reached.ctxOf f.ctx
  constructor
  · rw [frame, ctx]
    exact up
  · rw [frame, ctx, came.reached.memberOf]
    exact member
  · rw [frame, ctx]
    exact within
  · rw [frame, ctx]
    exact included
  · rw [frame, ctx]
    exact class_
  · rw [frame, ctx]
    exact op
  · rw [came.reached.hasCrucibles]
    exact crucibles
  · exact full

theorem Came.place {s x : State} {fr : QFrame} {f : Frame} {l : Nat} (came : Came s x fr f l) (m : Nat) :
    contribPlace x fr.f.ctx m fr.f.chunk = contribPlace s f.ctx m f.chunk := by
  unfold contribPlace
  rw [came.frame, came.reached.planned, came.reached.planPlace, came.reached.dynPlace]

theorem dynTimeoutExpiry_stays {s : State} {c : Nat} (off : ctxUp (ctxOf s c) = false ∨ (ctxOf s c).dyn = false) :
    dynTimeoutExpiry c s = s := by
  unfold dynTimeoutExpiry
  dsimp only
  rw [if_neg (by rcases off with h | h <;> simp [h])]

/-- A dynamic invocation that ends early leaves no chunk, and its slots are scrubbed (R271, R272). -/
theorem endDynamic_spec (s : State) (c status eid : Nat) :
    let t := endDynamic s c status eid
    t.now = s.now ∧ (ctxOf t c).dyn = false ∧ (ctxOf t c).chunks = [] ∧ (ctxOf t c).n = ((ctxOf s c).n + 1) % 2 ^ 32 ∧
      ∀ k g, k ∈ openChunks (ctxOf s c) → g ∈ (ctxChunk (ctxOf s c) k).slots → (cruSlot t g).use = 3 := by
  unfold endDynamic
  dsimp only
  generalize (some (status, _, eid) : Option (Nat × Nat × Nat)) = early
  obtain ⟨v, held, next⟩ := endInvocation_held
    (releaseSlots s ((openChunks (ctxOf s c)).flatMap fun k => (ctxChunk (ctxOf s c) k).slots)) c early
  rw [ctxOf_congr ((releaseSlots_fr _ _).coll rfl) c] at held
  simp only [ctxHeld, Prod.mk.injEq] at held
  refine ⟨?_, ?_, ?_, ?_, fun k g open_ holds => ?_⟩
  · rw [(endInvocation_fr _ _ _).now rfl, (releaseSlots_fr _ _).now rfl]
  · rw [next]
    rfl
  · rw [next]
    rfl
  · rw [next, nextInvocation, held.1]
  · rw [cruSlot_congr ((endInvocation_fr _ _ _).cru rfl)]
    exact releaseSlots_use _ _ g (List.mem_flatMap.mpr ⟨k, open_, holds⟩)

theorem missedMembers_ctx (s : State) (c : Nat) (l : List Nat) :
    ctxOf (missedMembers s c l) c = { ctxOf s c with missing := l.foldl addNew (ctxOf s c).missing } := ctxOf_modCtx ..

theorem dynTimeoutExpiry_eq {s : State} {c : Nat} (up : ctxUp (ctxOf s c) = true) (dyn : (ctxOf s c).dyn = true) :
    ∃ missed eid, dynTimeoutExpiry c s =
      endDynamic (missedMembers (await s (ctxOf s c).lastTaken (rf s oCTX_CFG 63 47 * usT)) c missed) c csLATE eid := by
  unfold dynTimeoutExpiry
  dsimp only
  rw [if_pos (by simp [up, dyn])]
  exact ⟨_, _, rfl⟩

/-- DYN_TIMEOUT ends the invocation (R272). -/
theorem dynTimeoutExpiry_spec {s : State} {c : Nat} (up : ctxUp (ctxOf s c) = true) (dyn : (ctxOf s c).dyn = true) :
    let t := dynTimeoutExpiry c s
    t.now = max s.now ((ctxOf s c).lastTaken + rf s oCTX_CFG 63 47 * usT) ∧ (ctxOf t c).dyn = false ∧
      (ctxOf t c).chunks = [] ∧ (ctxOf t c).n = ((ctxOf s c).n + 1) % 2 ^ 32 ∧
      ∀ k g, k ∈ openChunks (ctxOf s c) → g ∈ (ctxChunk (ctxOf s c) k).slots → (cruSlot t g).use = 3 := by
  obtain ⟨missed, eid, ended⟩ := dynTimeoutExpiry_eq up dyn
  have spec := endDynamic_spec (missedMembers (await s (ctxOf s c).lastTaken (rf s oCTX_CFG 63 47 * usT)) c missed) c csLATE eid
  rw [missedMembers_ctx, ← ended] at spec
  exact spec

/-- Settles O51: a contribution comes to the crucible with its context, plan and pool as they were, so that the check
that refuses it, or the chunk or window that takes it, is the one of the state in which it arrived. -/
theorem contributionsReceived : Obligations.ContributionsReceived := by
  unfold Obligations.ContributionsReceived
  rintro s q type hdr payload f e read row
  have typed : type = tCONTRIB ∨ type = tCOMBINE := row.imp And.left And.left
  have run (y : State) : exec e y = .next (cruReceive type q hdr ⟨payload, []⟩ y) := by
    rcases row with ⟨rfl, rfl⟩ | ⟨rfl, rfl⟩ <;> rfl
  refine ⟨fun l ofType single dest => ⟨?_, ?_⟩, fun x has => ⟨fun single => arrivalEcc_single has single,
    fun double => arrivalEcc_double_spec has double⟩, fun elsewhere => ?_, fun part reaches_ => ?_,
    fun c up dyn => ⟨_, rfl, dynTimeoutExpiry_spec up dyn⟩, fun c off => congrArg Host.Outcome.next (dynTimeoutExpiry_stays off)⟩
  · rintro rfl
    rw [run]
    exact congrArg Host.Outcome.next (cruReceive_ecc s _ q hdr payload l (forSelf_of read ofType single dest))
  · rintro rfl
    rw [run]
    exact congrArg Host.Outcome.next (cruReceive_ecc s _ q hdr payload l (forSelf_of read ofType single dest))
  · rw [run]
    unfold cruReceive
    rw [forSelf_of_not read elsewhere]
    rfl
  obtain ⟨x, fr, received, came, bl2⟩ := reachesSpine_came read typed reaches_
  have ofType : f.type = type := reaches_.2.2.2.2.2.1
  have ctx := came.reached.ctxOf f.ctx
  have next {z : State} (h : contribution fr x = z) : exec e s = .next z := by rw [run, received, h]
  refine ⟨fun down => ?_, fun m up member within => ⟨fun excluded => ?_, fun included class_ op crucibles full => ?_⟩⟩
  · exact ⟨_, next (contribution_noContext (by rw [came.frame, ctx]; exact down)),
      refused_spec came 0 (cause := nkNO_CONTEXT) (collective_of_mem (by simp))⟩
  · refine ⟨_, next (contribution_excluded (m := m) (by rw [came.frame, ctx]; exact up) ?_ (by rw [came.frame, ctx]; exact within)
      (by rw [came.frame, ctx]; exact excluded)), ?_⟩
    · rw [came.frame, ctx, came.reached.memberOf]
      exact member
    · rw [came.frame]
      exact excluded_spec came
  have full' : fr.inBl2 = false := bl2.trans full
  have admitted := came.admitted up member within included class_ (by rw [ofType]; exact op) crucibles full'
  have decided := contribution_admitted admitted
  rw [came.place] at decided
  have taken {i : Nat} (placed : contribPlace s f.ctx m f.chunk = .ok i) :
      contribution fr x = takeContrib x fr f.ctx m i (planned s f.ctx) := by
    rw [decided, placed, contribAt, came.frame, came.reached.planned]
  refine ⟨fun cause back refused => ?_, fun k notPlanned placed => ?_, fun i segs isPlanned placed hash form => ?_⟩
  · have place_ : contribPlace s f.ctx m f.chunk = .error (cause, back) := refused
    rw [place_] at decided
    exact ⟨_, next decided, refused_spec came back (contribPlace_refuses _ _ _ _ _ _ place_)⟩
  · have taken := taken ((if_neg (by simp [notPlanned])).trans placed)
    rw [notPlanned] at taken
    refine ⟨fun other => ?_, fun segs hash form => ?_⟩
    · rw [takeContrib_mismatch full' (by rw [came.frame, ctx]; exact other), came.frame] at taken
      exact ⟨_, next taken, hashMismatch_spec came k .mismatch _ _⟩
    · rw [takeContrib_dyn (segs := segs) (by rw [came.frame, ctx]; exact hash)
        (by rw [came.frame, came.reached.checkForm]; exact form), came.frame] at taken
      exact ⟨_, next taken, takenDyn_spec came full' k _ _⟩
  · have taken := taken ((if_pos isPlanned).trans placed)
    rw [isPlanned, takeContrib_win (segs := segs) (by rw [came.frame, ctx]; exact hash)
      (by rw [came.frame, came.reached.checkForm]; exact form), came.frame] at taken
    exact ⟨_, next taken, takenWin_spec came full' i _ _⟩

end Sys2Proof.Machine

/-! ### O52: channel rotation -/

namespace Sys2Proof.Machine

set_option Elab.async false

/-! #### Channels of a stack and their rotations -/

theorem memCh_congr {s t : State} (h : t.mem.chans = s.mem.chans) (k i : Nat) : memCh t k i = memCh s k i := by
  unfold memCh
  rw [h]

/-- A channel that is in use, or bears a logical channel, reads as it was set. -/
theorem memCh_setMemCh_same (s : State) (k h : Nat) {c : MemCh} (known : c.state ≠ 0 ∨ c.logical ≠ 0x3FF) :
    memCh (setMemCh s k h c) k h = c := by
  unfold memCh setMemCh
  dsimp only
  rw [tget_tset_same, if_neg (by omega)]

theorem memCh_setMemCh_other (s : State) (k : Nat) {h i : Nat} (c : MemCh) (other : i ≠ h) :
    memCh (setMemCh s k h c) k i = memCh s k i := by
  unfold memCh setMemCh
  dsimp only
  rw [tget_tset_other _ _ _ _ _ _ (by omega)]

theorem memCh_modMemCh_same (s : State) (k h : Nat) (f : MemCh → MemCh)
    (known : (f (memCh s k h)).state ≠ 0 ∨ (f (memCh s k h)).logical ≠ 0x3FF) :
    memCh (modMemCh s k h f) k h = f (memCh s k h) := memCh_setMemCh_same s k h known

theorem memCh_modMemCh_other (s : State) (k : Nat) {h i : Nat} (f : MemCh → MemCh) (other : i ≠ h) :
    memCh (modMemCh s k h f) k i = memCh s k i := memCh_setMemCh_other s k _ other

theorem memCh_modRot (s : State) (j : Nat) (f : Rot → Rot) (k i : Nat) : memCh (modRot s j f) k i = memCh s k i := rfl

/-- What a table holds of a kind does not grow by a value that is not of it. -/
theorem filter_tset_le {α : Type} [DecidableEq α] (d : α) (t : Tab α) (k : Nat) (v : α) (p : Nat × α → Bool)
    (not_ : p (k, v) = false) : ((tset d t k v).filter p).length ≤ (t.filter p).length := by
  have drop (l : Tab α) : ((tdrop l k).filter p).length ≤ (l.filter p).length :=
    ((List.filter_sublist (l := l)).filter p).length_le
  induction t with
  | nil =>
    unfold tset
    split
    · exact Nat.le_refl _
    · simp [not_]
  | cons e t ih =>
    unfold tset
    split
    · rw [List.filter_cons, List.filter_cons]
      split
      · exact Nat.succ_le_succ ih
      · exact ih
    · split
      · exact drop _
      · rw [List.filter_cons, not_]
        exact drop _

theorem rotating_setRot (s : State) (k : Nat) {r : Rot} (still : r.phase = 0) : rotating (setRot s k r) ≤ rotating s :=
  filter_tset_le _ _ _ _ _ (by simp [still])

theorem rotNext_stays {s : State} {k : Nat} (busy : (rot s k).phase ≠ 0 ∨ stacksRun s = false) : rotNext s k = s := by
  unfold rotNext
  dsimp only
  rw [if_pos (by rcases busy with h | h <;> simp [h])]

/-- The rotation of a channel begins with its copy onto the spare (R286). -/
theorem startRot_spec (s : State) (k : Nat) {h : Nat} (repair : Bool) (other : (stk s k).spare ≠ h) :
    let t := startRot s k h repair
    rot t k = { rot s k with
        phase := 1, src := h, dst := (stk s k).spare, repair := repair, copyLine := 0, written := [], zeroed := [],
        poisonY := [], startAt := s.now } ∧
      (memCh t k h).state = 2 ∧ (memCh t k (stk s k).spare).state = 3 := by
  unfold startRot
  dsimp only
  refine ⟨rot_modRot _ _ _, ?_, ?_⟩
  · rw [memCh_modRot, memCh_modMemCh_other _ _ _ other.symm, memCh_modMemCh_same _ _ _ _ (.inl (Nat.succ_ne_zero _))]
  · rw [memCh_modRot, memCh_modMemCh_same _ _ _ _ (.inl (Nat.succ_ne_zero _))]

/-- A stack with a spare that makes no rotation starts the next, within ROT_MAX (R290). -/
theorem rotNext_starts {s : State} {k h : Nat} (run : stacksRun s = true) (still : (rot s k).phase = 0)
    (repairs : (rot s k).repairs = []) (spare : (stk s k).spare < 33) (within : rotating s < rf s oMEM_ROT_CFG 36 32)
    (next : nextRot s k = some h) :
    rotNext s k = startRot (setRot s k { rot s k with
      requests := remNat (rot s k).requests h, pass := remNat (rot s k).pass h }) k h false := by
  unfold rotNext
  dsimp only
  rw [if_neg (by simp [run, still]), repairs]
  dsimp only
  rw [if_neg (by unfold noSpare; simp; omega), next]

/-- The channel that rotates is MAPPED, and the spare is not. -/
theorem rotNext_begun {s : State} {k h : Nat} (run : stacksRun s = true) (still : (rot s k).phase = 0)
    (repairs : (rot s k).repairs = []) (spare : (stk s k).spare < 33) (free : (memCh s k (stk s k).spare).state ≠ 0)
    (within : rotating s < rf s oMEM_ROT_CFG 36 32) (next : nextRot s k = some h) (mapped : (memCh s k h).state = 0) :
    RotationBegun s (rotNext s k) k ∧ (rot (rotNext s k) k).src = h := by
  have other : (stk s k).spare ≠ h := fun same => free (same ▸ mapped)
  rw [rotNext_starts run still repairs spare within next]
  obtain ⟨begun, src, dst⟩ := startRot_spec (setRot s k { rot s k with
    requests := remNat (rot s k).requests h, pass := remNat (rot s k).pass h }) k false other
  refine ⟨⟨?_, ?_, ?_, ?_, ?_⟩, ?_⟩
  · rw [begun]
  · rw [begun]
    rfl
  · rw [begun]
    exact mapped
  · rw [begun]
    exact src
  · rw [begun]
    exact dst
  · rw [begun]

theorem nextRot_requested {s : State} {k h : Nat} (requests : (rot s k).requests = [h]) (mapped : (memCh s k h).state = 0) :
    nextRot s k = some h := by
  unfold nextRot
  rw [requests]
  simp [mapped]

/-- A pass with a MAPPED channel left rotates one of them (R290). -/
theorem nextRot_passed {s : State} {k : Nat} (requests : (rot s k).requests = []) (on : bit (getR s oMEM_ROT_CFG) 0 = true)
    (left : ∃ h ∈ (rot s k).pass, (memCh s k h).state = 0) : ∃ h, nextRot s k = some h ∧ (memCh s k h).state = 0 := by
  obtain ⟨h, member, mapped⟩ := left
  have some_ : h ∈ (rot s k).pass.filter fun h => (memCh s k h).state == 0 := List.mem_filter.mpr ⟨member, by simp [mapped]⟩
  have is {i : Nat} (member : i ∈ (rot s k).pass.filter fun h => (memCh s k h).state == 0) : (memCh s k i).state = 0 := by
    simpa using (List.mem_filter.mp member).2
  unfold nextRot
  rw [requests]
  dsimp only [List.find?_nil]
  rw [if_neg (by simp [on])]
  split
  · next found => exact ⟨_, rfl, is (List.mem_of_find?_eq_some found)⟩
  · obtain ⟨i, rest, cons⟩ := List.exists_cons_of_ne_nil (List.ne_nil_of_mem some_)
    rw [cons] at is ⊢
    exact ⟨i, rfl, is List.mem_cons_self⟩

end Sys2Proof.Machine

/-! #### Passes, requests and copies: R286, R290, R310 -/

namespace Sys2Proof.Machine

set_option Elab.async false

theorem retireLogical_rots (s : State) (k h : Nat) : (retireLogical s k h).mem.rots = s.mem.rots := by
  unfold retireLogical
  dsimp only
  split
  · rfl
  · rw [(noteHealth_fr _).mem rfl, (journalCh_fr _ _ _ _ _).mem rfl, (raiseEvent_fr _ _ _ _ _).mem rfl]
    rfl

theorem rot_congr {s t : State} (h : t.mem.rots = s.mem.rots) (k : Nat) : rot t k = rot s k := by
  unfold rot
  rw [h]

theorem memCh_setRot (s : State) (j : Nat) (r : Rot) (k i : Nat) : memCh (setRot s j r) k i = memCh s k i := rfl
theorem stk_modRot (s : State) (j : Nat) (f : Rot → Rot) (k : Nat) : stk (modRot s j f) k = stk s k := rfl

theorem startRot_lastPass (s : State) (k h : Nat) (repair : Bool) :
    (rot (startRot s k h repair) k).lastPass = (rot s k).lastPass := by
  unfold startRot
  dsimp only
  rw [rot_modRot]
  rfl

/-- What a stack starts leaves the time of its pass. -/
theorem rotNext_lastPass (s : State) (k : Nat) : (rot (rotNext s k) k).lastPass = (rot s k).lastPass := by
  unfold rotNext
  dsimp only
  split
  · rfl
  · split
    · split
      · rw [forEach_keeps (fun y => (rot y k).lastPass) _ (fun y h => by rw [rot_congr (retireLogical_rots y k h)]),
          rot_setRot]
      · rw [startRot_lastPass, rot_setRot]
    · split
      · rfl
      · split
        · rfl
        · rw [startRot_lastPass, rot_setRot]

/-- The pass of a stack as it begins (R290). -/
def passBegun (s : State) (k : Nat) : State :=
  let y := awaitOpt s (rot s k).lastPass (rf s oMEM_ROT_CFG 63 44 * secT)
  setRot y k { rot s k with pass := (List.range 33).filter (fun h => (memCh s k h).state == 0), lastPass := some y.now }

theorem passBegun_fr (s : State) (k : Nat) : Fr 135168 s (passBegun s k) :=
  (setRot_fr _ _ _).step ((awaitOpt_fr _ _ _).mono)

theorem passBegun_rot (s : State) (k : Nat) : rot (passBegun s k) k = { rot s k with
    pass := (List.range 33).filter (fun h => (memCh s k h).state == 0), lastPass := some (passBegun s k).now } := rot_setRot _ _ _

theorem passBegun_chans (s : State) (k : Nat) : (passBegun s k).mem.chans = s.mem.chans := by
  show (awaitOpt s (rot s k).lastPass (rf s oMEM_ROT_CFG 63 44 * secT)).mem.chans = s.mem.chans
  rw [awaitOpt_mem]

theorem passBegun_stk (s : State) (k j : Nat) : stk (passBegun s k) j = stk s j :=
  congrArg (fun m : Mem => tget {} m.stks j) (awaitOpt_mem s (rot s k).lastPass (rf s oMEM_ROT_CFG 63 44 * secT))

theorem rotPassStart_run {s : State} {k : Nat} (has : hasStacks s = true) (ready : moduleReadyNow s = true)
    (run : stacksRun s = true) (on : bit (getR s oMEM_ROT_CFG) 0 = true) :
    rotPassStart k s = rotNext (passBegun s k) k := by
  have chans : (fun h => (memCh (awaitOpt s (rot s k).lastPass (rf s oMEM_ROT_CFG 63 44 * secT)) k h).state == 0) =
      fun h => (memCh s k h).state == 0 := by
    funext h
    rw [memCh_congr (congrArg Mem.chans (awaitOpt_mem s _ _))]
  unfold rotPassStart passBegun
  dsimp only
  rw [if_pos (by simp [has, ready, run, on]), chans]

theorem rotPassStart_stays {s : State} {k : Nat} (off : hasStacks s = false ∨ moduleReadyNow s = false ∨ stacksRun s = false ∨
    bit (getR s oMEM_ROT_CFG) 0 = false) : rotPassStart k s = s := by
  unfold rotPassStart
  dsimp only
  rw [if_neg (by rcases off with h | h | h | h <;> simp [h])]

theorem passBegun_starts {s : State} {k : Nat} (run : stacksRun s = true) (on : bit (getR s oMEM_ROT_CFG) 0 = true)
    (still : (rot s k).phase = 0) (repairs : (rot s k).repairs = []) (requests : (rot s k).requests = [])
    (spare : (stk s k).spare < 33) (free : (memCh s k (stk s k).spare).state ≠ 0)
    (within : rotating s < rf s oMEM_ROT_CFG 36 32) (mapped : ∃ h, h < 33 ∧ (memCh s k h).state = 0) :
    RotationBegun s (rotNext (passBegun s k) k) k := by
  have rotP := passBegun_rot s k
  have regs (off : Nat) : getR (passBegun s k) off = getR s off := (passBegun_fr s k).getR off
  have chan (h : Nat) : memCh (passBegun s k) k h = memCh s k h := memCh_congr (passBegun_chans s k) k h
  have stack : stk (passBegun s k) k = stk s k := passBegun_stk s k k
  have rots : rotating (passBegun s k) ≤ rotating s := by
    refine (rotating_setRot (awaitOpt s (rot s k).lastPass _) k (r := { rot s k with
      pass := _, lastPass := some _ }) still).trans (Nat.le_of_eq ?_)
    unfold rotating
    rw [awaitOpt_mem]
  obtain ⟨h, within33, state⟩ := mapped
  obtain ⟨i, next, state_⟩ := nextRot_passed (s := passBegun s k) (k := k) (by rw [rotP]; exact requests) (by rw [regs]; exact on)
    ⟨h, by rw [rotP]; exact List.mem_filter.mpr ⟨List.mem_range.mpr within33, by simp [state]⟩, by rw [chan]; exact state⟩
  have begun := (rotNext_begun (s := passBegun s k) (k := k) (h := i)
    (by unfold stacksRun; rw [(passBegun_fr s k).pwr rfl]; exact run) (by rw [rotP]; exact still) (by rw [rotP]; exact repairs)
    (by rw [stack]; exact spare) (by rw [stack, chan]; exact free)
    (by unfold rf; rw [regs]; exact Nat.lt_of_le_of_lt rots within) next state_).1
  unfold RotationBegun at begun ⊢
  rw [stack, chan] at begun
  exact begun

/-- A periodic pass (R290, R417). -/
theorem rotPassStart_spec {s : State} {k : Nat} (has : hasStacks s = true) (ready : moduleReadyNow s = true)
    (run : stacksRun s = true) (on : bit (getR s oMEM_ROT_CFG) 0 = true) :
    let t := rotPassStart k s
    (rot t k).lastPass = some t.now ∧ t.now = (awaitOpt s (rot s k).lastPass (rf s oMEM_ROT_CFG 63 44 * secT)).now ∧
      ((rot s k).phase ≠ 0 → OnlyChanges [.mem, .clock] s t ∧ rot t k = { rot s k with
        pass := (List.range 33).filter (fun h => (memCh s k h).state == 0), lastPass := some t.now }) ∧
      ((rot s k).phase = 0 → (rot s k).repairs = [] → (rot s k).requests = [] → (stk s k).spare < 33 →
        (memCh s k (stk s k).spare).state ≠ 0 → rotating s < rf s oMEM_ROT_CFG 36 32 →
        (∃ h, h < 33 ∧ (memCh s k h).state = 0) → RotationBegun s t k) := by
  have rotP := passBegun_rot s k
  have now : (rotNext (passBegun s k) k).now = (passBegun s k).now := (rotNext_fr _ _).now rfl
  intro t
  rw [show t = rotNext (passBegun s k) k from rotPassStart_run has ready run on]
  refine ⟨?_, now, fun busy => ?_, passBegun_starts run on⟩
  · rw [rotNext_lastPass, rotP, now]
  · rw [rotNext_stays (.inl (by rw [rotP]; exact busy))]
    exact ⟨(passBegun_fr s k).onlyChanges _, rotP⟩

/-! A request for a rotation (R290, R310). -/

/-- The request as it waits. -/
def rotAsked (s : State) (k h : Nat) : State := modRot s k fun r => { r with requests := addNew r.requests h }

theorem memRotReqWrite_eq {s : State} {f : Func} {v : Word} {k h : Nat} (may : mayWriteIn s f 9 = true)
    (has : hasStacks s = true) (go : bit v 63 = true) (stack : fld v 12 8 = k) (chan : fld v 5 0 = h) (small : k < 20)
    (within : h < 33) (mapped : (memCh s k h).state = 0) : memRotReqWrite f v s = rotNext (rotAsked s k h) k := by
  unfold memRotReqWrite memRotReq
  dsimp only
  rw [if_pos may, stack, chan, if_pos (by simp [has, go, small, within, mapped])]
  rfl

theorem rotAsked_rot (s : State) (k h : Nat) :
    rot (rotAsked s k h) k = { rot s k with requests := addNew (rot s k).requests h } := rot_modRot _ _ _

theorem rotAsked_starts {s : State} {k h : Nat} (run : stacksRun s = true) (still : (rot s k).phase = 0)
    (repairs : (rot s k).repairs = []) (requests : (rot s k).requests = []) (spare : (stk s k).spare < 33)
    (free : (memCh s k (stk s k).spare).state ≠ 0) (within : rotating s < rf s oMEM_ROT_CFG 36 32)
    (mapped : (memCh s k h).state = 0) :
    RotationBegun s (rotNext (rotAsked s k h) k) k ∧ (rot (rotNext (rotAsked s k h) k) k).src = h :=
  rotNext_begun (s := rotAsked s k h) (h := h) run (by rw [rotAsked_rot]; exact still) (by rw [rotAsked_rot]; exact repairs) spare free
    (Nat.lt_of_le_of_lt (rotating_setRot s k (r := { rot s k with requests := addNew (rot s k).requests h }) still) within)
    (nextRot_requested (by rw [rotAsked_rot, requests]; rfl) mapped) mapped

/-! The copy, the switch, the training and the test (R286 to R289). -/

theorem rotCopyDone_run {s : State} {k : Nat} (copying : (rot s k).phase = 1) :
    rotCopyDone k s = setRot s k { rot s k with phase := 2, copyLine := 8388608 } := if_pos copying

theorem rotCopyDone_stays {s : State} {k : Nat} (other : (rot s k).phase ≠ 1) : rotCopyDone k s = s := if_neg other

theorem rotTrainDone_stays {s : State} {k : Nat} (ok : Bool) (other : (rot s k).phase ≠ 3) : rotTrainDone k ok s = s :=
  if_pos other

theorem rotTestDone_stays {s : State} {k : Nat} (ok : Bool) (other : (rot s k).phase ≠ 4) : rotTestDone k ok s = s :=
  if_pos other

theorem nothingWaits_setRot {s : State} (idle : NothingWaits s) (k : Nat) {r : Rot} (same : r.repairs = (rot s k).repairs ∧
    r.requests = (rot s k).requests ∧ r.pass = (rot s k).pass) : NothingWaits (setRot s k r) := by
  intro j
  by_cases h : j = k
  · subst h
    rw [rot_setRot, same.1, same.2.1, same.2.2]
    exact idle j
  · rw [show rot (setRot s k r) j = rot s j from tget_tset_other _ _ _ _ _ _ h]
    exact idle j

theorem nothingWaits_congr {s t : State} (idle : NothingWaits s) (h : t.mem.rots = s.mem.rots) : NothingWaits t := fun j => by
  rw [rot_congr h]
  exact idle j

theorem nothingWaits_endRot {s : State} (idle : NothingWaits s) (k : Nat) : NothingWaits (endRot s k) := by
  unfold endRot modRot
  exact nothingWaits_setRot idle k ⟨rfl, rfl, rfl⟩

/-- A channel that has failed is FAILED, its stack has one more of them, and the event tells (R289, R291). -/
theorem failChannel_spec (s : State) (k h : Nat) :
    let t := failChannel s k h
    t.mem.rots = s.mem.rots ∧ (memCh t k h).state = 6 ∧ (stk t k).spare = (stk s k).spare ∧
      cntGet t 0x703 = (cntGet s 0x703 + 1) % 2 ^ 64 := by
  set y := modMemCh s k h fun c => { c with state := 6, logical := 0x3FF, rdq := [], wrq := [] } with hy
  set z := modStk y k fun t => { t with failed := t.failed + 1 } with hz
  have mem : (failChannel s k h).mem = z.mem := by
    show (noteHealth (journalCh (raiseEvent z 0x703 0x7F (scWord k h) 0) 4 k h 0)).mem = z.mem
    rw [(noteHealth_fr _).mem rfl, (journalCh_fr _ _ _ _ _).mem rfl, (raiseEvent_fr _ _ _ _ _).mem rfl]
  refine ⟨?_, ?_, ?_, ?_⟩
  · rw [mem]
    rfl
  · rw [memCh_congr (congrArg Mem.chans mem)]
    show (memCh y k h).state = 6
    rw [hy, memCh_modMemCh_same _ _ _ _ (.inl (Nat.succ_ne_zero _))]
  · show (tget {} (failChannel s k h).mem.stks k).spare = _
    rw [mem]
    show (stk z k).spare = _
    rw [hz, stk_modStk]
    rfl
  · show cntGet (noteHealth (journalCh (raiseEvent z 0x703 0x7F (scWord k h) 0) 4 k h 0)) 0x703 = _
    rw [noteHealth_cnt _ _ (by decide) (by decide), cntGet_congr ((journalCh_fr _ _ _ _ _).cnt rfl),
      raiseEvent_cnt _ _ _ _ _ _ (by decide), if_pos rfl]
    rfl

theorem endRot_phase (s : State) (k : Nat) : (rot (endRot s k) k).phase = 0 := by
  unfold endRot
  rw [rot_modRot]

/-- The rotation of a failed channel is over, and its stack has no spare. -/
def spareLost (s : State) (k : Nat) : State := endRot (modStk s k fun t => { t with spare := noSpare }) k

theorem spareLost_fr (s : State) (k : Nat) : Fr 4096 s (spareLost s k) := (endRot_fr _ k).step (modStk_fr s k _)

theorem spareLost_spare (s : State) (k : Nat) : (stk (spareLost s k) k).spare = noSpare := by
  unfold spareLost endRot
  rw [stk_modRot, stk_modStk]

theorem rotFail_eq (s : State) (k : Nat) : rotFail s k = rotAll (failChannel (spareLost s k) k (rot s k).src) := rfl

theorem rotFail_spec {s : State} {k : Nat} (idle : NothingWaits s) : RotationFailed s (rotFail s k) k := by
  obtain ⟨rots, state, spare, counted⟩ := failChannel_spec (spareLost s k) k (rot s k).src
  have waits : NothingWaits (spareLost s k) := nothingWaits_endRot (nothingWaits_congr idle rfl) k
  rw [rotFail_eq, rotAll_idle (nothingWaits_congr waits rots)]
  refine ⟨?_, state, ?_, ?_⟩
  · rw [rot_congr rots]
    exact endRot_phase _ _
  · rw [spare, spareLost_spare]
  · rw [counted, cntGet_congr ((spareLost_fr s k).cnt rfl)]

theorem rotTrainDone_failed {s : State} {k : Nat} (training : (rot s k).phase = 3) : rotTrainDone k false s = rotFail s k := by
  unfold rotTrainDone
  dsimp only
  rw [if_neg (by simp [training]), if_pos (by decide)]

theorem rotTestDone_failed {s : State} {k : Nat} (testing : (rot s k).phase = 4) : rotTestDone k false s = rotFail s k := by
  unfold rotTestDone
  dsimp only
  rw [if_neg (by simp [testing]), if_pos (by decide)]

/-- The channel as its test starts. -/
def trained (s : State) (k : Nat) : State :=
  setRot (modMemCh s k (rot s k).src fun c => { c with state := 5, trainTemp := (stk s k).temp }) k { rot s k with phase := 4 }

theorem rotTrainDone_passed {s : State} {k : Nat} (training : (rot s k).phase = 3) : rotTrainDone k true s = trained s k := by
  unfold rotTrainDone
  dsimp only
  rw [if_neg (by simp [training]), if_neg (by decide)]
  rfl

theorem trained_spec (s : State) (k : Nat) : OnlyChanges [.mem] s (trained s k) ∧ (rot (trained s k) k).phase = 4 ∧
    (memCh (trained s k) k (rot s k).src).state = 5 := by
  refine ⟨((setRot_fr _ _ _).step (modMemCh_fr _ _ _ _)).onlyChanges _, ?_, ?_⟩
  · unfold trained
    rw [rot_setRot]
  · unfold trained
    rw [memCh_setRot, memCh_modMemCh_same _ _ _ _ (.inl (Nat.succ_ne_zero _))]

/-- The channel as it has become the spare. -/
def spared (s : State) (k : Nat) : State := endRot (modMemCh s k (rot s k).src fun c => { c with state := 1 }) k

theorem rotTestDone_passed {s : State} {k : Nat} (testing : (rot s k).phase = 4) (idle : NothingWaits s) :
    rotTestDone k true s = spared s k := by
  have waits : NothingWaits (spared s k) :=
    nothingWaits_endRot (nothingWaits_congr idle rfl) k
  have eq : rotTestDone k true s = rotAll (spared s k) := by
    unfold rotTestDone
    dsimp only
    rw [if_neg (by simp [testing]), if_neg (by decide)]
    rfl
  rw [eq, rotAll_idle waits]

theorem spared_spec (s : State) (k : Nat) : OnlyChanges [.mem] s (spared s k) ∧ (rot (spared s k) k).phase = 0 ∧
    (memCh (spared s k) k (rot s k).src).state = 1 := by
  refine ⟨((endRot_fr _ _).step (modMemCh_fr _ _ _ _)).onlyChanges _, ?_, ?_⟩
  · exact endRot_phase _ _
  · unfold spared endRot
    rw [memCh_modRot, memCh_modMemCh_same _ _ _ _ (.inl (Nat.succ_ne_zero _))]

end Sys2Proof.Machine

/-! #### The switch of a rotation: R288 -/

namespace Sys2Proof.Machine

set_option Elab.async false

/-- Lines put one after the other change lines alone. -/
theorem forEach_putLine (ns : List Nat) (s : State) (f : Nat → Nat) (v : Line) :
    ∃ ls, forEach ns s (fun s n => putLine s (f n) v) = { s with mem := { s.mem with lines := ls } } := by
  induction ns generalizing s with
  | nil => exact ⟨s.mem.lines, rfl⟩
  | cons n ns ih =>
    obtain ⟨ls, rest⟩ := ih (putLine s (f n) v)
    rw [forEach_cons, rest]
    exact ⟨ls, rfl⟩

theorem lineAt_putLine_same (s : State) (key : Nat) (v : Line) : lineAt (putLine s key v) key = v :=
  tget_tset_same (lineDef s key) s.mem.lines key v

theorem lineAt_putLine_other (s : State) {key key' : Nat} (v : Line) (other : key' ≠ key) :
    lineAt (putLine s key v) key' = lineAt s key' := tget_tset_other _ _ _ _ _ _ other

/-- Each of the lines put reads as it was put. -/
theorem lineAt_forEach_putLine (ns : List Nat) (s : State) (f : Nat → Nat) (v : Line) (key : Nat) :
    ((∃ n, n ∈ ns ∧ key = f n) → lineAt (forEach ns s fun s n => putLine s (f n) v) key = v) ∧
      (¬ (∃ n, n ∈ ns ∧ key = f n) → lineAt (forEach ns s fun s n => putLine s (f n) v) key = lineAt s key) := by
  have kept (ns : List Nat) (y : State) (put : lineAt y key = v) :
      lineAt (forEach ns y fun s n => putLine s (f n) v) key = v := by
    induction ns generalizing y with
    | nil => exact put
    | cons n ns ih =>
      rw [forEach_cons]
      refine ih _ ?_
      by_cases same : key = f n
      · rw [← same, lineAt_putLine_same]
      · rw [lineAt_putLine_other _ _ same, put]
  induction ns generalizing s with
  | nil => exact ⟨fun ⟨n, h, _⟩ => absurd h List.not_mem_nil, fun _ => rfl⟩
  | cons n ns ih =>
    rw [forEach_cons]
    refine ⟨?_, fun none_ => ?_⟩
    · rintro ⟨i, member, same⟩
      rcases List.mem_cons.mp member with rfl | rest
      · exact kept _ _ (by rw [← same, lineAt_putLine_same])
      · exact (ih _).1 ⟨i, rest, same⟩
    · rw [(ih _).2 fun ⟨i, rest, same⟩ => none_ ⟨i, List.mem_cons_of_mem _ rest, same⟩,
        lineAt_putLine_other _ _ fun same => none_ ⟨n, List.mem_cons_self, same⟩]

/-- The map entry and the poisoned lines of a switch, before its channels change. -/
def mapSwitched (s : State) (k : Nat) : State :=
  let r := rot s k
  let l := (memCh s k r.src).logical
  forEach r.poisonY (setMap s l { mapOf s l with ch := r.dst }) fun s n => putLine s (4 * (640 * (n / 4) + l) + n % 4) .poison

/-- The stack once its map entry has moved from X to Y. -/
def switched (s : State) (k : Nat) : State :=
  let r := rot s k
  let held := (memCh s k r.src).rdq
  let l := (memCh s k r.src).logical
  let s := mapSwitched s k
  let s := modMemCh s k r.dst fun c => { c with state := 0, logical := l, rdq := c.rdq ++ held }
  let s := modMemCh s k r.src fun c => { c with state := 4, logical := 0x3FF, rdq := [] }
  let s := modStk s k fun t => { t with spare := r.src }
  setRot s k { r with phase := 3, written := [], zeroed := [], poisonY := [] }

theorem rotSwitch_run {s : State} {k : Nat} (waits : (rot s k).phase = 2)
    (still : (rot (finishWrites k (rot s k).dst (finishWrites k (rot s k).src s)) k).phase = 2) :
    rotSwitch k s = switched (finishWrites k (rot s k).dst (finishWrites k (rot s k).src s)) k := by
  unfold rotSwitch
  rw [if_pos waits]
  dsimp only
  rw [if_neg (by simp [still])]
  rfl

theorem rotSwitch_stays {s : State} {k : Nat} (other : (rot s k).phase ≠ 2) : rotSwitch k s = s := by
  unfold rotSwitch
  rw [if_neg other]
  dsimp only
  rw [if_pos other]

theorem mapSwitched_eq (s : State) (k : Nat) : ∃ ls, mapSwitched s k =
    { setMap s (memCh s k (rot s k).src).logical { mapOf s (memCh s k (rot s k).src).logical with ch := (rot s k).dst } with
      mem := { (setMap s (memCh s k (rot s k).src).logical
        { mapOf s (memCh s k (rot s k).src).logical with ch := (rot s k).dst }).mem with lines := ls } } :=
  forEach_putLine _ _ _ _

theorem mapSwitched_fr (s : State) (k : Nat) : Fr 4096 s (mapSwitched s k) :=
  Fr.forEach _ _ (fun y n => putLine_fr _ _ _) (setMap_fr _ _ _)

theorem mapSwitched_chans (s : State) (k : Nat) : (mapSwitched s k).mem.chans = s.mem.chans := by
  obtain ⟨ls, eq⟩ := mapSwitched_eq s k
  rw [eq]
  rfl

theorem mapSwitched_map (s : State) (k : Nat) : mapOf (mapSwitched s k) (memCh s k (rot s k).src).logical =
    { mapOf s (memCh s k (rot s k).src).logical with ch := (rot s k).dst, moved := true } := by
  obtain ⟨ls, eq⟩ := mapSwitched_eq s k
  rw [eq]
  show (if (tget {} (tset {} s.mem.map _ _) _).moved = true then tget {} (tset {} s.mem.map _ _) _ else _) = _
  rw [tget_tset_same, if_pos rfl]

theorem switched_fr (s : State) (k : Nat) : Fr 4096 s (switched s k) :=
  (setRot_fr _ _ _).step ((modStk_fr _ _ _).step ((modMemCh_fr _ _ _ _).step ((modMemCh_fr _ _ _ _).step (mapSwitched_fr s k))))

end Sys2Proof.Machine

/-! #### O52 settled -/

namespace Sys2Proof.Machine

set_option Elab.async false

theorem stk_setRot (s : State) (j : Nat) (r : Rot) (k : Nat) : stk (setRot s j r) k = stk s k := rfl

/-- The channels of a stack once its map entry has moved. -/
def chansSwitched (s : State) (k : Nat) : State :=
  modMemCh (modMemCh (mapSwitched s k) k (rot s k).dst fun c => { c with
      state := 0, logical := (memCh s k (rot s k).src).logical, rdq := c.rdq ++ (memCh s k (rot s k).src).rdq })
    k (rot s k).src fun c => { c with state := 4, logical := 0x3FF, rdq := [] }

theorem switched_mem (s : State) (k : Nat) : switched s k =
    setRot (modStk (chansSwitched s k) k fun t => { t with spare := (rot s k).src }) k
      { rot s k with phase := 3, written := [], zeroed := [], poisonY := [] } := rfl

theorem memCh_switched (s : State) (k i : Nat) : memCh (switched s k) k i = memCh (chansSwitched s k) k i := rfl

/-- X leaves the map and Y takes its place, with the requests held (R288). -/
theorem chansSwitched_spec {s : State} {k : Nat} (apart : (rot s k).src ≠ (rot s k).dst)
    (placed : (memCh s k (rot s k).src).logical < 640) :
    let t := chansSwitched s k
    (memCh t k (rot s k).dst).state = 0 ∧ (memCh t k (rot s k).dst).logical = (memCh s k (rot s k).src).logical ∧
      (memCh t k (rot s k).dst).rdq = (memCh s k (rot s k).dst).rdq ++ (memCh s k (rot s k).src).rdq ∧
      (memCh t k (rot s k).src).state = 4 ∧ (memCh t k (rot s k).src).rdq = [] := by
  have before (i : Nat) : memCh (mapSwitched s k) k i = memCh s k i := memCh_congr (mapSwitched_chans s k) k i
  unfold chansSwitched
  dsimp only
  rw [memCh_modMemCh_other _ _ _ apart.symm, memCh_modMemCh_same _ _ _ _ (.inr (Nat.ne_of_lt (Nat.lt_trans placed (by decide)))),
    memCh_modMemCh_same _ _ _ _ (.inl (Nat.succ_ne_zero _)), before]
  exact ⟨rfl, rfl, rfl, rfl, rfl⟩

theorem switched_lines (s : State) (k : Nat) : (switched s k).mem.lines = (mapSwitched s k).mem.lines := rfl
theorem switched_relief (s : State) (k : Nat) : (switched s k).mem.relief = (mapSwitched s k).mem.relief := rfl
theorem switched_map (s : State) (k : Nat) : (switched s k).mem.map = (mapSwitched s k).mem.map := rfl

theorem mapOf_congr {s t : State} (h : t.mem.map = s.mem.map) (l : Nat) : mapOf t l = mapOf s l := by
  unfold mapOf
  rw [h]

/-- What a switch leaves of its stack, and of the lines poisoned on Y alone (R288). -/
theorem switched_spec {s : State} {k l : Nat} (apart : (rot s k).src ≠ (rot s k).dst)
    (bears : l = (memCh s k (rot s k).src).logical) (placed : l < 640) :
    let t := switched s k
    OnlyChanges [.mem] s t ∧ (rot t k).phase = 3 ∧
      mapOf t l = { mapOf s l with ch := (rot s k).dst, moved := true } ∧ (stk t k).spare = (rot s k).src ∧
      (memCh t k (rot s k).dst).state = 0 ∧ (memCh t k (rot s k).dst).logical = l ∧
      (memCh t k (rot s k).dst).rdq = (memCh s k (rot s k).dst).rdq ++ (memCh s k (rot s k).src).rdq ∧
      (memCh t k (rot s k).src).state = 4 ∧ (memCh t k (rot s k).src).rdq = [] ∧
      ∀ key, ((∃ n, n ∈ (rot s k).poisonY ∧ key = 4 * (640 * (n / 4) + l) + n % 4) → lineAt t key = .poison) ∧
        (¬ (∃ n, n ∈ (rot s k).poisonY ∧ key = 4 * (640 * (n / 4) + l) + n % 4) → lineAt t key = lineAt s key) := by
  intro t
  subst bears
  obtain ⟨state, logical, reads, left, none_⟩ := chansSwitched_spec apart placed
  refine ⟨(switched_fr s k).onlyChanges _, ?_, ?_, ?_, ?_, ?_, ?_, ?_, ?_, fun key => ?_⟩
  · rw [show t = _ from switched_mem s k, rot_setRot]
  · rw [mapOf_congr (switched_map s k), mapSwitched_map]
  · rw [show t = _ from switched_mem s k, stk_setRot, stk_modStk]
  · rw [memCh_switched, state]
  · rw [memCh_switched, logical]
  · rw [memCh_switched, reads]
  · rw [memCh_switched, left]
  · rw [memCh_switched, none_]
  · rw [lineAt_congr (switched_lines s k) (switched_relief s k)]
    exact lineAt_forEach_putLine _ _ _ _ key

theorem finishWrites_idle {s : State} {k h : Nat} (none_ : (memCh s k h).wrq = []) :
    finishWrites k h s = modMemCh s k h fun c => { c with wrq := [] } := by
  unfold finishWrites
  rw [none_]
  rfl

theorem memCh_setMemCh_wrq (s : State) (k h : Nat) (c : MemCh) : (memCh (setMemCh s k h c) k h).wrq = c.wrq := by
  unfold memCh setMemCh
  dsimp only
  rw [tget_tset_same]
  split
  · split <;> rfl
  · rfl

/-- With no write issued the stack is as it was (R288). -/
theorem finishWrites_both {s : State} {k h i : Nat} (first : (memCh s k h).wrq = []) (second : (memCh s k i).wrq = []) :
    let u := finishWrites k i (finishWrites k h s)
    OnlyChanges [.mem] s u ∧ rot u k = rot s k ∧ u.mem.lines = s.mem.lines ∧ u.mem.map = s.mem.map := by
  have then_ : (memCh (modMemCh s k h fun c => { c with wrq := [] }) k i).wrq = [] := by
    by_cases same : i = h
    · subst same
      exact memCh_setMemCh_wrq _ _ _ _
    · rw [memCh_modMemCh_other _ _ _ same]
      exact second
  intro u
  rw [show u = finishWrites k i (finishWrites k h s) from rfl, finishWrites_idle first, finishWrites_idle then_]
  exact ⟨((modMemCh_fr _ _ _ _).step (modMemCh_fr _ _ _ _)).onlyChanges _, rfl, rfl, rfl⟩

/-- Settles O52: what a stack has waiting starts where it may, and every later phase of a rotation changes the channels
and the map entry that it names. -/
theorem channelsRotate : Obligations.ChannelsRotate := by
  unfold Obligations.ChannelsRotate
  intro s k small
  refine ⟨fun has ready run on => ?_, fun off => congrArg Host.Outcome.next (rotPassStart_stays off),
    fun f v h may has go stack chan within mapped => ?_, fun copying => ?_,
    fun other => congrArg Host.Outcome.next (rotCopyDone_stays other), ?_,
    fun other => congrArg Host.Outcome.next (rotSwitch_stays other), fun training near => ?_,
    fun testing near idle => ?_, fun ok => ⟨fun other => congrArg Host.Outcome.next (rotTrainDone_stays ok other),
      fun other => congrArg Host.Outcome.next (rotTestDone_stays ok other)⟩⟩
  · obtain ⟨last, now, busy, starts⟩ := rotPassStart_spec has ready run on
    refine ⟨_, rfl, last, now.trans ?_, busy, starts⟩
    cases (rot s k).lastPass <;> rfl
  · have asked := memRotReqWrite_eq may has go stack chan small within mapped
    refine ⟨fun busy => ⟨_, congrArg Host.Outcome.next asked, ?_⟩,
      fun still run repairs requests spare free below => ⟨_, congrArg Host.Outcome.next asked,
        rotAsked_starts run still repairs requests spare free below mapped⟩⟩
    rw [rotNext_stays (s := rotAsked s k h) (busy.imp (fun h => by rw [rotAsked_rot]; exact h) id)]
    exact ⟨(modRot_fr _ _ _).onlyChanges _, rotAsked_rot s k h⟩
  · exact ⟨_, congrArg Host.Outcome.next (rotCopyDone_run copying), (setRot_fr _ _ _).onlyChanges _, rot_setRot _ _ _, rfl⟩
  · rintro u l waits written still src dst apart bears placed
    rw [written] at still
    have run := rotSwitch_run waits still
    rw [← written] at run
    obtain ⟨only, phase, map, spare, state, logical, reads, left, none_, lines⟩ := switched_spec apart bears placed
    refine ⟨_, congrArg Host.Outcome.next run, only, phase, map, spare, state, logical, reads, left, none_, fun first second => ?_,
      fun key => ?_⟩
    · rw [written]
      exact finishWrites_both first second
    · obtain ⟨put, kept⟩ := lines key
      split
      · next h => exact put h
      · next h => exact kept h
  · exact ⟨⟨_, congrArg Host.Outcome.next (rotTrainDone_passed training), trained_spec s k⟩,
      fun idle => ⟨_, congrArg Host.Outcome.next (rotTrainDone_failed training), rotFail_spec idle⟩⟩
  · exact ⟨⟨_, congrArg Host.Outcome.next (rotTestDone_passed testing idle), spared_spec s k⟩,
      ⟨_, congrArg Host.Outcome.next (rotTestDone_failed testing), rotFail_spec idle⟩⟩

end Sys2Proof.Machine

/-! ### O53: transfers -/

namespace Sys2Proof.Machine

set_option Elab.async false

/-! #### A transfer on a channel whose bus is free: R292, R380 -/

/-- A MAPPED channel bears a logical channel. -/
theorem memCh_mapped {s : State} {k h : Nat} (near : h < 33) (small : k < 20) (mapped : (memCh s k h).state = 0) :
    (memCh s k h).logical ≠ 0x3FF := by
  unfold memCh at mapped ⊢
  dsimp only at mapped ⊢
  split at mapped
  · next fresh =>
    rw [if_pos fresh]
    split at mapped
    · exact absurd mapped (by simp)
    · next below =>
      rw [if_neg below]
      dsimp only
      omega
  · next known =>
    rw [if_neg known]
    exact fun none_ => known ⟨mapped, none_⟩

/-- A change that keeps a channel's state and its logical channel is read back. -/
theorem memCh_modMemCh_kept {s : State} {k h : Nat} {f : MemCh → MemCh} (bears : (memCh s k h).logical ≠ 0x3FF)
    (kept : (f (memCh s k h)).logical = (memCh s k h).logical) : memCh (modMemCh s k h f) k h = f (memCh s k h) :=
  memCh_modMemCh_same s k h f (.inr (by rw [kept]; exact bears))

/-- A line that its stack does not hold back is the one to be moved. -/
theorem mayMove_one {lim : Bool} {c : MemCh} {x : MemXfer} (free : quarterWaits lim c x = false) (notCopy : x.user ≠ .copy) :
    mayMove lim c [x] = [0] := by
  have served : servable lim c [x] = [0] := by simp [servable, List.range_succ, free]
  unfold mayMove
  rw [served]
  have others : ([0].filter fun i => (([x] : List MemXfer)[i]?.map (·.user)) == some .copy) = [] := by simp [notCopy]
  have rank : userRank x.user ≤ 9 := by cases x.user <;> decide
  dsimp only
  rw [others, if_neg (by simp)]
  simp [rank]

/-- A line that its stack holds back moves not. -/
theorem mayMove_none {lim : Bool} {c : MemCh} {x : MemXfer} (held : quarterWaits lim c x = true) :
    mayMove lim c [x] = [] ∧ servable lim c [x] = [] := by
  have served : servable lim c [x] = [] := by simp [servable, List.range_succ, held]
  unfold mayMove
  rw [served]
  simp

/-- A queue of the one line that has come. -/
def oneQueued (c : MemCh) (now : Nat) (write : Bool) (x : MemXfer) : MemCh :=
  { c with
    freeAt := max c.freeAt now, rdq := if write then [] else [x], wrq := if write then [x] else [] }

/-- The transfer waits for the controller (R292). -/
def xferQueued (s : State) (k h : Nat) (write : Bool) (x : MemXfer) : State :=
  modMemCh s k h fun c => oneQueued c s.now write x

section Transfer

variable {s : State} {k h line : Nat} {user : MemUser} {tries : List TransferResult} {write : Bool}
variable (near : h < 33) (small : k < 20) (has : hasStacks s = true) (run : stacksRun s = true)
variable (mapped : (memCh s k h).state = 0) (noReads : (memCh s k h).rdq = []) (noWrites : (memCh s k h).wrq = [])
variable (within : line < 8388608)

include has run mapped noReads noWrites within in
/-- What comes to an idle channel is queued and the controller takes it up (R292). -/
theorem memTransfer_queued (whole : ¬ ((outcome 4 tries 0).1 = none ∧ (outcome 4 tries 0).2 < 4)) :
    memTransfer k h line write user tries s =
      serveDue k h 1 (xferQueued s k h write { user := user, line := line, tries := tries }) := by
  have serves : channelServes s k h write = true := by
    unfold channelServes
    simp [mapped]
  have idle (n : Nat) : serveDue k h n s = s := by
    cases n with
    | zero => rfl
    | succ n =>
      unfold serveDue
      dsimp only
      rw [if_pos (by simp [noReads, noWrites])]
  have room : makeRoom k h write 1024 s = s := by
    unfold makeRoom
    dsimp only
    rw [if_pos (by cases write <;> simp [noReads, noWrites, queueLines])]
  have enters : mirrorEnters s k h line user = some s := by
    unfold mirrorEnters
    dsimp only
    rw [if_pos (by omega)]
  have queued : (modMemCh s k h fun c => { c with
      freeAt := if (c.rdq.isEmpty && c.wrq.isEmpty) = true then max c.freeAt s.now else c.freeAt
      rdq := if write = true then c.rdq else c.rdq ++ [{ user := user, line := line, tries := tries }]
      wrq := if write = true then c.wrq ++ [{ user := user, line := line, tries := tries }] else c.wrq }) =
      xferQueued s k h write { user := user, line := line, tries := tries } := by
    unfold xferQueued modMemCh oneQueued
    dsimp only
    rw [noReads, noWrites]
    rfl
  unfold memTransfer
  dsimp only
  rw [if_neg (by
    simp only [has, run, serves, Bool.not_true, Bool.false_or, Bool.or_eq_true, decide_eq_true_eq, Bool.and_eq_true,
      Option.isNone_iff_eq_none]
    rintro (far | lost)
    · omega
    · exact whole lost), enters]
  dsimp only
  rw [idle, room, queued]

include near small mapped in
theorem memCh_xferQueued (x : MemXfer) : memCh (xferQueued s k h write x) k h = oneQueued (memCh s k h) s.now write x :=
  memCh_modMemCh_kept (memCh_mapped near small mapped) rfl

/-- The channel once the controller has taken the line off its queue. -/
def oneTaken (c : MemCh) (lim write : Bool) (x : MemXfer) : MemCh :=
  let turn := decide (c.dir ≠ 0) && (c.dir == 2) != write
  let start := c.freeAt + (if turn then 14 * nsT else 0)
  let slow := lim && decide (3 ≤ userRank x.user) && !(x.user == .copy && c.slots % 64 == 63)
  { c with
    rdq := [], wrq := [], freeAt := start + 75
    quarterAt := if slow then start + 4 * 75 else c.quarterAt
    slots := (c.slots + 1) % 64 }

/-- The line is taken off its queue (R292). -/
def xferTaken (s : State) (k h : Nat) (write : Bool) (x : MemXfer) : State :=
  modMemCh (xferQueued s k h write x) k h fun c => oneTaken c (stackLimits s k) write x

theorem nextWrites_one (lim : Bool) (c : MemCh) (write : Bool) (x : MemXfer)
    (reads : c.rdq = if write then [] else [x]) (writes : c.wrq = if write then [x] else [])
    (free : quarterWaits lim c x = false) : nextWrites lim c = write := by
  have served : servable lim c [x] = [0] := by simp [servable, List.range_succ, free]
  have none_ : servable lim c [] = [] := rfl
  unfold nextWrites
  rw [reads, writes]
  cases write
  · simp [none_]
  · simp [served, none_]

include near small mapped in
/-- The line is moved at once where its stack does not hold it back (R292, R380). -/
theorem serveDue_moves {x : MemXfer} (free : quarterWaits (stackLimits s k) (oneQueued (memCh s k h) s.now write x) x = false)
    (due : (memCh s k h).freeAt ≤ s.now) (notCopy : x.user ≠ .copy) :
    serveDue k h 1 (xferQueued s k h write x) = moveLine (xferTaken s k h write x) k h write x := by
  have chan := memCh_xferQueued near small mapped (write := write) x
  have limits : stackLimits (xferQueued s k h write x) k = stackLimits s k := rfl
  have writes := nextWrites_one (stackLimits s k) (oneQueued (memCh s k h) s.now write x) write x rfl rfl free
  have queue : (if write = true then (oneQueued (memCh s k h) s.now write x).wrq
      else (oneQueued (memCh s k h) s.now write x).rdq) = [x] := by cases write <;> rfl
  have may := mayMove_one free notCopy
  unfold serveDue
  dsimp only
  rw [chan, if_neg (by
    simp only [oneQueued, Bool.or_eq_true, Bool.and_eq_true, List.isEmpty_iff, decide_eq_true_eq]
    cases write
    · simp
      exact ⟨due, Nat.le_refl _⟩
    · simp
      exact ⟨due, Nat.le_refl _⟩)]
  unfold serveDue serveNext
  dsimp only
  rw [chan, limits, writes, queue, may, if_neg (by decide)]
  unfold pickOne xferTaken modMemCh
  dsimp only [List.getElem?_cons_zero]
  rw [chan]
  unfold oneTaken
  cases write <;> rfl

end Transfer

end Sys2Proof.Machine

/-! #### What the repair of a channel leaves of it: R290, R291, R298, R300 -/

namespace Sys2Proof.Machine

set_option Elab.async false

/-- What the state and the queues of a channel leave alone. -/
def chHeld (c : MemCh) : Nat × Nat × Tab Nat × List (Nat × Nat) := (c.ce, c.repairRows, c.rowsUsed, c.pages)

theorem chHeld_memCh (s : State) (k h : Nat) : chHeld (memCh s k h) = chHeld (tget {} s.mem.chans (33 * k + h)) := by
  unfold memCh
  dsimp only
  split
  · split <;> rfl
  · rfl

/-- Every channel has kept its counts, rows and tracked pages. -/
def HeldKept (s t : State) : Prop := ∀ i, chHeld (tget {} t.mem.chans i) = chHeld (tget {} s.mem.chans i)

theorem HeldKept.of_chans {s t : State} (h : t.mem.chans = s.mem.chans) : HeldKept s t := fun i => by rw [h]

theorem HeldKept.trans {s t u : State} (h : HeldKept s t) (g : HeldKept t u) : HeldKept s u := fun i => (g i).trans (h i)

theorem HeldKept.memCh {s t : State} (h : HeldKept s t) (k i : Nat) : chHeld (memCh t k i) = chHeld (memCh s k i) := by
  rw [chHeld_memCh, chHeld_memCh, h]

theorem heldKept_setMemCh {s : State} {k h : Nat} {c : MemCh} (same : chHeld c = chHeld (memCh s k h)) :
    HeldKept s (setMemCh s k h c) := by
  intro i
  unfold setMemCh
  dsimp only
  by_cases own : i = 33 * k + h
  · rw [own, tget_tset_same, same, chHeld_memCh]
  · rw [tget_tset_other _ _ _ _ _ _ own]

theorem heldKept_modMemCh (s : State) (k h : Nat) {f : MemCh → MemCh} (same : ∀ c, chHeld (f c) = chHeld c) :
    HeldKept s (modMemCh s k h f) := heldKept_setMemCh (same _)

theorem chHeld_setMemCh (s : State) (k h : Nat) (c : MemCh) : chHeld (memCh (setMemCh s k h c) k h) = chHeld c := by
  rw [chHeld_memCh]
  unfold setMemCh
  dsimp only
  rw [tget_tset_same]

theorem retireLogical_held (s : State) (k h : Nat) : HeldKept s (retireLogical s k h) := by
  unfold retireLogical
  dsimp only
  split
  · exact .of_chans rfl
  · have marked : HeldKept s (markRetired s k h (memCh s k h).logical) :=
      (HeldKept.of_chans (t := setMap s (memCh s k h).logical
        { mapOf s (memCh s k h).logical with retired := true, rebuilt := false }) rfl).trans
        (heldKept_modMemCh _ k h (f := fun c => { c with state := 7, rdq := [], wrq := [] }) fun _ => rfl)
    refine marked.trans (.of_chans ?_)
    rw [(noteHealth_fr _).mem rfl, (journalCh_fr _ _ _ _ _).mem rfl, (raiseEvent_fr _ _ _ _ _).mem rfl]

theorem startRot_held (s : State) (k h : Nat) (repair : Bool) : HeldKept s (startRot s k h repair) := by
  unfold startRot
  dsimp only
  exact (heldKept_modMemCh s k h (f := fun c => { c with state := 2 }) fun _ => rfl).trans
    ((heldKept_modMemCh _ k _ (f := fun c => { c with state := 3, logical := 0x3FF }) fun _ => rfl).trans (.of_chans rfl))

theorem abortRot_held (s : State) (k cause : Nat) : HeldKept s (abortRot s k cause) := by
  unfold abortRot
  dsimp only
  exact (heldKept_modMemCh s k _ (f := fun c => { c with state := 0 }) fun _ => rfl).trans
    ((heldKept_modMemCh _ k _ (f := fun c => { c with state := 1 }) fun _ => rfl).trans
      (.of_chans (by rw [(raiseEvent_fr _ _ _ _ _).mem rfl]; rfl)))

theorem repairChannel_held (s : State) (k h : Nat) : HeldKept s (repairChannel s k h) := by
  unfold repairChannel
  dsimp only
  split
  · exact .of_chans rfl
  · split
    · exact .of_chans rfl
    · split
      · split
        · exact retireLogical_held s k h
        · exact startRot_held s k h true
      · split
        · exact (abortRot_held s k 1).trans (startRot_held _ k h true)
        · exact .of_chans rfl

/-! #### Counters that a repair leaves alone -/

/-- A counter that the repair of a channel does not move: neither its events nor that of HEALTH. -/
structure OffRepair (j : Nat) : Prop where
  low : j < 0x34000
  health : j ≠ 1
  events : j ≠ 0x704 ∧ j ≠ 0x705

theorem offRepair_chan {k h : Nat} (near : h < 33) (small : k < 20) {i : Nat} (within : i < 8) : OffRepair (cChan k h i) where
  low := by unfold cChan; omega
  health := by unfold cChan; omega
  events := by unfold cChan; omega

theorem offRepair_faulty : OffRepair 0x701 where
  low := by decide
  health := by decide
  events := by decide

section Counters

variable {j : Nat} (off : OffRepair j)
include off

theorem retireLogical_cntGet (s : State) (k h : Nat) : cntGet (retireLogical s k h) j = cntGet s j := by
  unfold retireLogical
  dsimp only
  split
  · rfl
  · rw [noteHealth_cnt _ _ off.low off.health, cntGet_congr ((journalCh_fr _ _ _ _ _).cnt rfl),
      raiseEvent_cnt _ _ _ _ _ _ off.low, if_neg off.events.1, cntGet_congr ((markRetired_fr _ _ _ _).cnt rfl)]

theorem abortRot_cntGet (s : State) (k cause : Nat) : cntGet (abortRot s k cause) j = cntGet s j := by
  unfold abortRot
  dsimp only
  rw [raiseEvent_cnt _ _ _ _ _ _ off.low, if_neg off.events.2]
  rfl

theorem repairChannel_cntGet (s : State) (k h : Nat) : cntGet (repairChannel s k h) j = cntGet s j := by
  unfold repairChannel
  dsimp only
  split
  · rfl
  · split
    · rfl
    · split
      · split
        · exact retireLogical_cntGet off s k h
        · exact cntGet_congr ((startRot_fr _ _ _ _).cnt rfl) j
      · split
        · exact (cntGet_congr ((startRot_fr _ _ _ _).cnt rfl) j).trans (abortRot_cntGet off s k 1)
        · rfl

theorem trackPage_cntGet (s : State) (k h page : Nat) : cntGet (trackPage s k h page) j = cntGet s j :=
  cntGet_congr ((trackPage_fr _ _ _ _).cnt rfl) j

theorem judgePages_cntGet (s : State) (k h : Nat) : cntGet (judgePages s k h) j = cntGet s j := by
  unfold judgePages
  dsimp only
  split
  · rfl
  · split
    · rfl
    · split
      · rfl
      · exact repairChannel_cntGet off _ k h

end Counters

/-! #### Pages under judgement: R298 -/

theorem chHeld_eq {c d : MemCh} (h : chHeld c = chHeld d) :
    c.ce = d.ce ∧ c.repairRows = d.repairRows ∧ c.rowsUsed = d.rowsUsed ∧ c.pages = d.pages := by
  simpa only [chHeld, Prod.mk.injEq] using h

/-- A page may be retired, or its channel repaired; the rest of the channel's records stays. -/
theorem judgePages_spec (s : State) (k h : Nat) :
    let c := memCh (judgePages s k h) k h
    c.ce = (memCh s k h).ce ∧ c.repairRows = (memCh s k h).repairRows ∧ c.rowsUsed = (memCh s k h).rowsUsed ∧
      c.pages ⊆ (memCh s k h).pages := by
  unfold judgePages
  dsimp only
  split
  · exact ⟨rfl, rfl, rfl, List.Subset.refl _⟩
  · split
    · exact ⟨rfl, rfl, rfl, List.Subset.refl _⟩
    · next p found =>
      split
      · obtain ⟨ce, rows, used, pages⟩ := chHeld_eq (chHeld_setMemCh s k h { memCh s k h with retiring := some (p.1, s.now) })
        exact ⟨ce, rows, used, fun x member => pages ▸ member⟩
      · obtain ⟨ce, rows, used, pages⟩ := chHeld_eq (((repairChannel_held (setMemCh s k h { memCh s k h with
          pages := (memCh s k h).pages.filter fun x => decide (x.1 ≠ p.1) }) k h).memCh k h).trans (chHeld_setMemCh _ _ _ _))
        exact ⟨ce, rows, used, fun x member => List.mem_of_mem_filter (show x ∈ (memCh s k h).pages.filter _ from pages ▸ member)⟩

theorem trackPage_ce (s : State) (k h page : Nat) : (memCh (trackPage s k h page) k h).ce = (memCh s k h).ce := by
  unfold trackPage
  dsimp only
  split
  · exact (chHeld_eq (chHeld_setMemCh _ _ _ _)).1
  · split
    · exact (chHeld_eq (chHeld_setMemCh _ _ _ _)).1
    · exact (chHeld_eq (chHeld_setMemCh _ _ _ _)).1

end Sys2Proof.Machine

/-! #### A line that is moved: R295 to R297 -/

namespace Sys2Proof.Machine

set_option Elab.async false

/-- A channel has changed none of memory but itself, and its own state, place and counts of errors not at all. -/
structure ChanOnly (s z : State) (k h : Nat) : Prop where
  fr : Fr 69632 s z
  mem : z.mem = { s.mem with chans := z.mem.chans }
  state : (memCh z k h).state = (memCh s k h).state
  logical : (memCh z k h).logical = (memCh s k h).logical
  ce : (memCh z k h).ce = (memCh s k h).ce

theorem ChanOnly.trans {s y z : State} {k h : Nat} (a : ChanOnly s y k h) (b : ChanOnly y z k h) : ChanOnly s z k h where
  fr := b.fr.step a.fr
  mem := by rw [b.mem, a.mem]
  state := b.state.trans a.state
  logical := b.logical.trans a.logical
  ce := b.ce.trans a.ce

/-- A change of the channel's queues, times and records. -/
theorem chanOnly_modMemCh {s : State} {k h : Nat} {f : MemCh → MemCh} (bears : (memCh s k h).logical ≠ 0x3FF)
    (state : (f (memCh s k h)).state = (memCh s k h).state) (logical : (f (memCh s k h)).logical = (memCh s k h).logical)
    (ce : (f (memCh s k h)).ce = (memCh s k h).ce) : ChanOnly s (modMemCh s k h f) k h := by
  have chan := memCh_modMemCh_kept bears logical
  exact ⟨(modMemCh_fr _ _ _ _).mono, rfl, by rw [chan, state], by rw [chan, logical], by rw [chan, ce]⟩

theorem chanOnly_bumpN (s : State) (i n k h : Nat) : ChanOnly s (bumpN s i n) k h :=
  ⟨(bumpN_fr _ _ _).mono, rfl, rfl, rfl, rfl⟩

theorem chanOnly_bump (s : State) (i k h : Nat) : ChanOnly s (bump s i) k h := ⟨(bump_fr _ _).mono, rfl, rfl, rfl, rfl⟩

theorem xferTaken_only {s : State} {k h : Nat} {write : Bool} {x : MemXfer} (bears : (memCh s k h).logical ≠ 0x3FF) :
    ChanOnly s (xferTaken s k h write x) k h := by
  have queued : ChanOnly s (xferQueued s k h write x) k h := chanOnly_modMemCh bears rfl rfl rfl
  exact queued.trans (chanOnly_modMemCh (by rw [queued.logical]; exact bears) rfl rfl rfl)

theorem xferTaken_cnt (s : State) (k h : Nat) (write : Bool) (x : MemXfer) (j : Nat) :
    cntGet (xferTaken s k h write x) j = cntGet s j := rfl

/-- The retries of a transfer are counted with its channel (R295). -/
def xferRetried (s : State) (k h n : Nat) : State :=
  modMemCh (bumpN s (cChan k h 4) n) k h fun c => { c with retries := min 0xFFFF (c.retries + n) }

theorem xferRetried_only {s : State} {k h : Nat} (n : Nat) (bears : (memCh s k h).logical ≠ 0x3FF) :
    ChanOnly s (xferRetried s k h n) k h :=
  (chanOnly_bumpN s _ n k h).trans (chanOnly_modMemCh bears rfl rfl rfl)

theorem xferRetried_cnt (s : State) (k h n j : Nat) :
    cntGet (xferRetried s k h n) j = if j = cChan k h 4 then (cntGet s (cChan k h 4) + n) % 2 ^ 64 else cntGet s j :=
  cntGet_bumpN _ _ _ _

theorem countMove_only {s : State} {k h : Nat} (write : Bool) (bears : (memCh s k h).logical ≠ 0x3FF) :
    ChanOnly s (countMove s k h write) k h := by
  unfold countMove
  dsimp only
  generalize (if write = true then 2 else 1) = d
  have counted : ChanOnly s (bump s (cChan k h (if write = true then 1 else 0))) k h := chanOnly_bump _ _ _ _
  have turned : ChanOnly s (if (memCh s k h).dir ≠ 0 ∧ (memCh s k h).dir ≠ d then
      bump (bump s (cChan k h (if write = true then 1 else 0))) (cChan k h 2)
    else bump s (cChan k h (if write = true then 1 else 0))) k h := by
    split
    · exact counted.trans (chanOnly_bump _ _ _ _)
    · exact counted
  refine turned.trans ?_
  generalize (if (memCh s k h).dir ≠ 0 ∧ (memCh s k h).dir ≠ d then _ else _) = y at turned ⊢
  have chan := memCh_setMemCh_same y k h (c := { memCh s k h with dir := d, run := if (memCh s k h).dir = d then (memCh s k h).run + 1 else 1 })
    (.inr bears)
  exact ⟨(setMemCh_fr _ _ _ _).mono, rfl, by rw [chan, turned.state], by rw [chan, turned.logical], by rw [chan, turned.ce]⟩

theorem countMove_cnt (s : State) (k h : Nat) (write : Bool) {j : Nat} (other : j ≠ cChan k h 2) :
    cntGet (countMove s k h write) j = if j = cChan k h (if write then 1 else 0) then (cntGet s j + 1) % 2 ^ 64
      else cntGet s j := by
  have counted := cntGet_bump_own s (cChan k h (if write then 1 else 0)) j
  unfold countMove
  dsimp only
  rw [cntGet_congr ((setMemCh_fr _ _ _ _).cnt rfl)]
  generalize (if write = true then 2 else 1) = d
  generalize (if write = true then 1 else 0) = i at counted ⊢
  split
  · rw [cntGet_bump, if_neg other]
    exact counted
  · exact counted

theorem granule_key (l line : Nat) : 4 * granuleOf l line + line % 4 = 4 * (640 * (line / 4) + l) + line % 4 := rfl

section Moves

variable {s : State} {k h : Nat} {x : MemXfer} {e : List Nat}

theorem channelServes_mapped (write : Bool) (mapped : (memCh s k h).state = 0) : channelServes s k h write = true := by
  unfold channelServes
  simp [mapped]

theorem outcome_given (e : List Nat) : outcome 4 [{ parityError := false, errors := e }] 0 = (some e, 0) := rfl

theorem outcome_lost (e : List Nat) : outcome 4 (List.replicate 4 { parityError := true, errors := e }) 0 = (none, 4) := rfl

/-- A line without a parity error is counted, and judged where it was read (R295, R297). -/
theorem moveLine_given (write : Bool) (mapped : (memCh s k h).state = 0) (first : x.tries = [{ parityError := false, errors := e }]) :
    moveLine s k h write x =
      if write = true then countMove (xferRetried s k h 0) k h write
      else judgeRead (noteRead (countMove (xferRetried s k h 0) k h write) k h x.line x.user) k h x.line
        (4 * (640 * (x.line / 4) + (memCh s k h).logical) + x.line % 4) e := by
  unfold moveLine
  dsimp only
  rw [if_neg (by simp [channelServes_mapped write mapped]), first, outcome_given]
  rfl

/-- Four parity errors end a transfer (R295). -/
theorem moveLine_lost (write : Bool) (mapped : (memCh s k h).state = 0)
    (lost : x.tries = List.replicate 4 { parityError := true, errors := e }) :
    moveLine s k h write x = transferFails (xferRetried s k h 3) k h x.line
      (4 * (640 * (x.line / 4) + (memCh s k h).logical) + x.line % 4) write x.user := by
  unfold moveLine
  dsimp only
  rw [if_neg (by simp [channelServes_mapped write mapped]), lost, outcome_lost]
  rfl

end Moves

/-! #### The line as it is judged: R297 -/

/-- Lines, relief blocks, channels and counters as the judgement of a line finds them. -/
structure LineGiven (s y : State) (k h : Nat) : Prop where
  fr : Fr 69632 s y
  lines : y.mem.lines = s.mem.lines
  relief : y.mem.relief = s.mem.relief
  ce : (memCh y k h).ce = (memCh s k h).ce
  cnt : ∀ j, j ≠ cChan k h 2 → j ≠ cChan k h 4 →
    cntGet y j = if j = cChan k h 0 then (cntGet s j + 1) % 2 ^ 64 else cntGet s j

theorem noteRead_fr' (s : State) (k h line : Nat) (user : MemUser) : Fr 4096 s (noteRead s k h line user) := noteRead_fr ..

theorem noteRead_mem {s : State} {k h line : Nat} {user : MemUser} (notCopy : user ≠ .copy) :
    (noteRead s k h line user).mem = { s.mem with patrol := (noteRead s k h line user).mem.patrol } := by
  unfold noteRead
  dsimp only
  split
  · exact absurd rfl notCopy
  · split <;> rfl
  · rfl

theorem LineGiven.of_only {s z : State} {k h line : Nat} {user : MemUser} (only : ChanOnly s z k h) (notCopy : user ≠ .copy)
    (cnt : ∀ j, j ≠ cChan k h 2 → j ≠ cChan k h 4 →
      cntGet z j = if j = cChan k h 0 then (cntGet s j + 1) % 2 ^ 64 else cntGet s j) :
    LineGiven s (noteRead z k h line user) k h := by
  have mem := noteRead_mem (s := z) (k := k) (h := h) (line := line) notCopy
  refine ⟨(noteRead_fr' _ _ _ _ _).step only.fr, ?_, ?_, ?_, fun j a b => ?_⟩
  · rw [mem]
    dsimp only
    rw [only.mem]
  · rw [mem]
    dsimp only
    rw [only.mem]
  · rw [memCh_congr (show (noteRead z k h line user).mem.chans = z.mem.chans by rw [mem])]
    exact only.ce
  · rw [cntGet_congr ((noteRead_fr' _ _ _ _ _).cnt rfl), cnt j a b]

end Sys2Proof.Machine

/-! #### Verdicts and lost transfers: R295 to R297 -/

namespace Sys2Proof.Machine

set_option Elab.async false

theorem cChan_inj {k h i j : Nat} (other : i ≠ j) : cChan k h i ≠ cChan k h j := by
  unfold cChan
  omega

theorem regInfo_ueLog {v : Variant} (bl2 : Bool) (present : v ≠ .m) :
    (regBits (regInfo v bl2 oMEM_UE_LOG)).testBit 63 = true := by
  have info : regInfo v bl2 oMEM_UE_LOG = if v = .m then {} else { w1c := mask 63 63, hw := mask 63 29 } := rfl
  rw [info, if_neg present]
  decide

/-- A bit that a register holds is stored as it is written. -/
theorem bit_putR {s : State} {off n : Nat} {v : Word} (holds : (regBits (regInfo s.variant s.boot.strapBl2 off)).testBit n = true)
    (small : n < 64) : bit (getR (putR s off v) off) n = v.toNat.testBit n := by
  have all : ones.testBit n = true := (Nat.testBit_two_pow_sub_one 64 n).trans (by simp [small])
  unfold bit
  rw [getR_putR, regClip, BitVec.toNat_ofNat, Nat.testBit_mod_two_pow, Nat.testBit_or, Nat.testBit_and, Nat.testBit_and,
    Nat.testBit_xor, holds, all]
  simp [small]

theorem ueLog_toNat {k h line : Nat} (small : k < 20) (near : h < 33) (within : line < 8388608) :
    (mkWord [at_ 63 1, at_ 58 k, at_ 52 h, at_ 31 (line / 4), at_ 29 (line % 4)]).toNat.testBit 63 = true := by
  have value : (mkWord [at_ 63 1, at_ 58 k, at_ 52 h, at_ 31 (line / 4), at_ 29 (line % 4)]).toNat =
      2 ^ 63 + k * 2 ^ 58 + h * 2 ^ 52 + line / 4 * 2 ^ 31 + line % 4 * 2 ^ 29 := by
    unfold mkWord at_
    simp only [List.foldl, Nat.shiftLeft_eq, BitVec.toNat_ofNat]
    omega
  rw [value, Nat.testBit_eq_decide_div_mod_eq]
  simp only [decide_eq_true_eq]
  omega

/-- An uncorrectable line is POISONED, told of and logged, and no other line changes (R297). -/
theorem uncorrectable_spec {s : State} {k h line : Nat} (key : Nat) (present : hasStacks s = true) (small : k < 20) (near : h < 33) (within : line < 8388608) :
    let t := uncorrectable s k h line key
    lineAt t key = .poison ∧ cntGet t 0x702 = (cntGet s 0x702 + 1) % 2 ^ 64 ∧ bit (getR t oMEM_UE_LOG) 63 = true ∧
      (∀ o, o ≠ key → lineAt t o = lineAt s o) ∧ ∀ j, j < 0x34000 → j ≠ 0x702 → cntGet t j = cntGet s j := by
  unfold uncorrectable
  dsimp only
  generalize logged : (if bit (getR (putLine s key Line.poison) oMEM_UE_LOG) 63 = true then putLine s key Line.poison else _) = y
  have frY : Fr 2 (putLine s key .poison) y := by
    rw [← logged]
    split
    · exact .refl _ _
    · exact putR_fr _ _ _
  have valid : bit (getR y oMEM_UE_LOG) 63 = true := by
    rw [← logged]
    split
    · assumption
    · exact (bit_putR (s := putLine s key .poison) (regInfo_ueLog _ (of_decide_eq_true present)) (by decide)).trans
        (ueLog_toNat small near within)
  have cnt (j : Nat) : cntGet y j = cntGet s j := cntGet_congr ((frY.cnt rfl).trans ((putLine_fr s key .poison).cnt rfl)) j
  have line_ (w o : Nat) : lineAt (raiseEvent y 0x702 0x7F (scWord k h) w) o = lineAt (putLine s key .poison) o :=
    lineAt_congr (by rw [(raiseEvent_fr _ _ _ _ _).mem rfl, frY.mem rfl])
      (by rw [(raiseEvent_fr _ _ _ _ _).mem rfl, frY.mem rfl]) o
  refine ⟨?_, ?_, ?_, fun o other => ?_, fun j low other => ?_⟩
  · rw [line_, lineAt_putLine_same]
  · rw [raiseEvent_cnt _ _ _ _ _ _ (by decide), if_pos rfl, cnt]
  · rw [(raiseEvent_fr _ _ _ _ _).getR]
    exact valid
  · rw [line_, lineAt_putLine_other _ _ other]
  · rw [raiseEvent_cnt _ _ _ _ _ _ low, if_neg other, cnt]

section Verdicts

variable {s y : State} {k h line key : Nat} {e : List Nat}

/-- The line that is judged is the one that memory holds. -/
theorem LineGiven.read (given : LineGiven s y k h) (key : Nat) : lineAt y key = lineAt s key :=
  lineAt_congr given.lines given.relief key

theorem judgeRead_good (good : lineVerdict (lineAt y key) e = .good) : judgeRead y k h line key e = y := by
  unfold judgeRead
  rw [good]

theorem judgeRead_poison (poison : lineVerdict (lineAt y key) e = .poison) :
    judgeRead y k h line key e = bump y (cChan k h 5) := by
  unfold judgeRead
  rw [poison]

/-- A corrected line is counted with its channel, and its page is tracked (R297, R298). -/
def correctedAt (s : State) (k h line : Nat) : State :=
  judgePages (trackPage (modMemCh (bump s (cChan k h 3)) k h fun c => { c with ce := min 0xFFFF (c.ce + 1) }) k h (pageOf line)) k h

theorem judgeRead_corrected {n : Nat} (corrected : lineVerdict (lineAt y key) e = .corrected n) :
    judgeRead y k h line key e = correctedAt y k h line := by
  unfold judgeRead
  rw [corrected]
  rfl

theorem judgeRead_bad (bad : lineVerdict (lineAt y key) e = .bad) :
    judgeRead y k h line key e = uncorrectable y k h line key := by
  unfold judgeRead
  rw [bad]

theorem correctedAt_cnt (s : State) (line : Nat) {j : Nat} (off : OffRepair j) :
    cntGet (correctedAt s k h line) j = if j = cChan k h 3 then (cntGet s j + 1) % 2 ^ 64 else cntGet s j := by
  unfold correctedAt
  rw [judgePages_cntGet off, trackPage_cntGet off, cntGet_congr ((modMemCh_fr _ _ _ _).cnt rfl)]
  exact cntGet_bump_own _ _ _

theorem correctedAt_ce (s : State) (k h line : Nat) :
    (memCh (correctedAt s k h line) k h).ce = min 0xFFFF ((memCh s k h).ce + 1) := by
  unfold correctedAt
  rw [(judgePages_spec _ k h).1, trackPage_ce]
  exact (chHeld_eq (chHeld_setMemCh _ _ _ _)).1

/-- What a line that was read has left, by its verdict (R297). -/
theorem judgeRead_spec (given : LineGiven s y k h) (present : hasStacks s = true) (small : k < 20) (near : h < 33) (within : line < 8388608) :
    let t := judgeRead y k h line key e
    cntGet t (cChan k h 0) = (cntGet s (cChan k h 0) + 1) % 2 ^ 64 ∧
      (lineVerdict (lineAt s key) e = .poison →
        cntGet t (cChan k h 5) = (cntGet s (cChan k h 5) + 1) % 2 ^ 64 ∧ t.mem.lines = s.mem.lines) ∧
      (lineVerdict (lineAt s key) e = .good → OnlyChanges [.mem, .cnt] s t ∧ t.mem.lines = s.mem.lines) ∧
      (∀ n, lineVerdict (lineAt s key) e = .corrected n →
        cntGet t (cChan k h 3) = (cntGet s (cChan k h 3) + 1) % 2 ^ 64 ∧
        (memCh t k h).ce = min 0xFFFF ((memCh s k h).ce + 1)) ∧
      (lineVerdict (lineAt s key) e = .bad → lineAt t key = .poison ∧
        cntGet t 0x702 = (cntGet s 0x702 + 1) % 2 ^ 64 ∧ bit (getR t oMEM_UE_LOG) 63 = true ∧
        ∀ o, o ≠ key → lineAt t o = lineAt s o) := by
  have own : cntGet y (cChan k h 0) = (cntGet s (cChan k h 0) + 1) % 2 ^ 64 := by
    rw [given.cnt _ (cChan_inj (by decide)) (cChan_inj (by decide)), if_pos rfl]
  have other {i : Nat} (h0 : i ≠ 0) (h2 : i ≠ 2) (h4 : i ≠ 4) : cntGet y (cChan k h i) = cntGet s (cChan k h i) := by
    rw [given.cnt _ (cChan_inj h2) (cChan_inj h4), if_neg (cChan_inj h0)]
  have presentY : hasStacks y = true := by
    unfold hasStacks at present ⊢
    rw [given.fr.variant]
    exact present
  have ue : cntGet y 0x702 = cntGet s 0x702 := by
    rw [given.cnt _ (by unfold cChan; omega) (by unfold cChan; omega), if_neg (by unfold cChan; omega)]
  intro t
  rw [← given.read key]
  refine ⟨?_, fun poison => ?_, fun good => ?_, fun n corrected => ?_, fun bad => ?_⟩
  · cases verdict : lineVerdict (lineAt y key) e with
    | good => rw [show t = y from judgeRead_good verdict, own]
    | poison => rw [show t = _ from judgeRead_poison verdict, cntGet_bump, if_neg (cChan_inj (by decide)), own]
    | corrected n =>
      rw [show t = _ from judgeRead_corrected verdict, correctedAt_cnt _ _ (offRepair_chan near small (by decide)),
        if_neg (cChan_inj (by decide)), own]
    | bad =>
      rw [show t = _ from judgeRead_bad verdict, (uncorrectable_spec key presentY small near within).2.2.2.2 _
        (by unfold cChan; omega) (by unfold cChan; omega), own]
  · rw [show t = _ from judgeRead_poison poison, cntGet_bump, if_pos rfl, other (by decide) (by decide) (by decide)]
    exact ⟨rfl, given.lines⟩
  · rw [show t = y from judgeRead_good good]
    exact ⟨given.fr.onlyChanges _, given.lines⟩
  · rw [show t = _ from judgeRead_corrected corrected, correctedAt_cnt _ _ (offRepair_chan near small (by decide)), if_pos rfl,
      other (by decide) (by decide) (by decide), correctedAt_ce, given.ce]
    exact ⟨rfl, rfl⟩
  · obtain ⟨poisoned, counted, logged, others, -⟩ := uncorrectable_spec key presentY small near within
    rw [show t = _ from judgeRead_bad bad]
    exact ⟨poisoned, by rw [counted, ue], logged, fun o apart => by rw [others o apart, given.read]⟩

end Verdicts

/-! A transfer that has failed four times. -/

theorem declareFaulty_counted (s : State) {k h : Nat} (other : ¬ (((rot s k).phase = 1 ∨ (rot s k).phase = 2) ∧ (rot s k).dst = h))
    {j : Nat} (off : OffRepair j) : cntGet (declareFaulty s k h) j =
      if j = 0x701 then (cntGet s j + 1) % 2 ^ 64 else cntGet s j := by
  have counted : cntGet (raiseEvent s 0x701 0x7F (scWord k h) 0) j =
      if j = 0x701 then (cntGet s j + 1) % 2 ^ 64 else cntGet s j := by
    rw [raiseEvent_cnt _ _ _ _ _ _ off.low]
    exact if_ctx_congr Iff.rfl (fun e => by rw [e]) fun _ => rfl
  unfold declareFaulty
  dsimp only
  rw [if_neg other]
  split
  · exact counted
  · exact (repairChannel_cntGet off _ k h).trans counted

/-- The read of one that waits for its data fails (R295). -/
theorem transferFails_read (s : State) (k h line key : Nat) {user : MemUser} (other : ¬ (((rot s k).phase = 1 ∨
    (rot s k).phase = 2) ∧ (rot s k).dst = h)) {j : Nat} (off : OffRepair j) :
    cntGet (transferFails s k h line key false user) j = (if j = 0x701 then (cntGet s j + 1) % 2 ^ 64 else cntGet s j) ∧
      (user = .plan ∨ user = .update ∨ user = .fabric →
        (transferFails s k h line key false user).mem.readFailed.contains key = true) := by
  have counted := declareFaulty_counted s other off
  unfold transferFails
  dsimp only
  rw [if_neg (by decide)]
  refine ⟨?_, fun waits => ?_⟩
  · split
    · split
      · exact counted
      · exact counted
    · split
      · exact counted
      · exact counted
  · rw [if_neg (by rcases waits with h | h | h <;> simp [h]), if_pos (by rcases waits with h | h | h <;> simp [h, readsForUse])]
    exact contains_addNew _ _

end Sys2Proof.Machine

/-! #### Transfers that move, wait or fail: R292, R295, R380 -/

namespace Sys2Proof.Machine

set_option Elab.async false

theorem ChanOnly.lines {s z : State} {k h : Nat} (only : ChanOnly s z k h) : z.mem.lines = s.mem.lines := by rw [only.mem]
theorem ChanOnly.rots {s z : State} {k h : Nat} (only : ChanOnly s z k h) : z.mem.rots = s.mem.rots := by rw [only.mem]

section Transfer

variable {s : State} {k h line : Nat} {user : MemUser}
variable (small : k < 20) (near : h < 33) (has : hasStacks s = true) (run : stacksRun s = true)
variable (mapped : (memCh s k h).state = 0) (noReads : (memCh s k h).rdq = []) (noWrites : (memCh s k h).wrq = [])
variable (due : (memCh s k h).freeAt ≤ s.now) (within : line < 8388608) (notCopy : user ≠ .copy)
variable (allowed : s.hlt.limited.contains k = false ∨ userRank user < 3 ∨ (memCh s k h).quarterAt ≤ s.now)

/-- The channel's bus is free for the line: it is moved at once (R292, R380). -/
theorem quarterWaits_allowed {tries : List TransferResult} (write : Bool)
    (allowed : s.hlt.limited.contains k = false ∨ userRank user < 3 ∨ (memCh s k h).quarterAt ≤ s.now) :
    quarterWaits (stackLimits s k) (oneQueued (memCh s k h) s.now write { user := user, line := line, tries := tries })
      { user := user, line := line, tries := tries } = false := by
  unfold quarterWaits stackLimits oneQueued
  dsimp only
  rcases allowed with free | rank | quarter
  · rw [free]
    rfl
  · rw [show decide (3 ≤ userRank user) = false by simp; omega]
    simp
  · rw [show decide (max (memCh s k h).freeAt s.now < (memCh s k h).quarterAt) = false by
      simp only [decide_eq_false_iff_not]
      omega]
    simp

include small near has run mapped noReads noWrites due within notCopy allowed in
theorem memTransfer_moves {tries : List TransferResult} (write : Bool)
    (whole : ¬ ((outcome 4 tries 0).1 = none ∧ (outcome 4 tries 0).2 < 4)) :
    memTransfer k h line write user tries s = moveLine (xferTaken s k h write { user := user, line := line, tries := tries })
      k h write { user := user, line := line, tries := tries } := by
  rw [memTransfer_queued has run mapped noReads noWrites within whole]
  exact serveDue_moves near small mapped (quarterWaits_allowed write allowed) due notCopy

/-- A line as it has been moved and counted. -/
def xferMoved (s : State) (k h : Nat) (write : Bool) (x : MemXfer) : State :=
  countMove (xferRetried (xferTaken s k h write x) k h 0) k h write

theorem xferMoved_only (write : Bool) (x : MemXfer) (bears : (memCh s k h).logical ≠ 0x3FF) :
    ChanOnly s (xferMoved s k h write x) k h := by
  have taken : ChanOnly s (xferTaken s k h write x) k h := xferTaken_only bears
  have again := taken.trans (xferRetried_only 0 (by rw [taken.logical]; exact bears))
  exact again.trans (countMove_only write (by rw [again.logical]; exact bears))

theorem xferMoved_cnt (write : Bool) (x : MemXfer) {j : Nat} (h2 : j ≠ cChan k h 2) (h4 : j ≠ cChan k h 4) :
    cntGet (xferMoved s k h write x) j = if j = cChan k h (if write then 1 else 0) then (cntGet s j + 1) % 2 ^ 64
      else cntGet s j := by
  unfold xferMoved
  rw [countMove_cnt _ _ _ _ h2, xferRetried_cnt, if_neg h4, xferTaken_cnt]

include small near has run mapped noReads noWrites due within notCopy allowed in
/-- A write is moved and counted (R292, R295). -/
theorem memTransfer_write (e : List Nat) :
    let t := memTransfer k h line true user [{ parityError := false, errors := e }] s
    OnlyChanges [.mem, .cnt] s t ∧ t.mem.lines = s.mem.lines ∧
      cntGet t (cChan k h 1) = (cntGet s (cChan k h 1) + 1) % 2 ^ 64 := by
  have bears := memCh_mapped near small mapped
  have only := xferMoved_only true { user := user, line := line, tries := [{ parityError := false, errors := e }] } bears
  intro t
  rw [show t = _ from memTransfer_moves small near has run mapped noReads noWrites due within notCopy allowed true
    (by rw [outcome_given]; simp), moveLine_given true (by rw [(xferTaken_only bears).state]; exact mapped) rfl, if_pos rfl]
  refine ⟨only.fr.onlyChanges _, only.lines, ?_⟩
  exact (xferMoved_cnt true _ (cChan_inj (by decide)) (cChan_inj (by decide))).trans (if_pos rfl)

include small near has run mapped noReads noWrites due within notCopy allowed in
/-- A read is moved, counted and judged (R295, R297). -/
theorem memTransfer_read (e : List Nat) : ∃ y, LineGiven s y k h ∧
    memTransfer k h line false user [{ parityError := false, errors := e }] s =
      judgeRead y k h line (4 * (640 * (line / 4) + (memCh s k h).logical) + line % 4) e := by
  have bears := memCh_mapped near small mapped
  have only := xferMoved_only false { user := user, line := line, tries := [{ parityError := false, errors := e }] } bears
  have taken : ChanOnly s (xferTaken s k h false { user := user, line := line, tries := [{ parityError := false, errors := e }] }) k h :=
    xferTaken_only bears
  refine ⟨noteRead (xferMoved s k h false { user := user, line := line, tries := [{ parityError := false, errors := e }] }) k h line user,
    .of_only only notCopy fun j h2 h4 => xferMoved_cnt false _ h2 h4, ?_⟩
  rw [memTransfer_moves small near has run mapped noReads noWrites due within notCopy allowed false (by rw [outcome_given]; simp),
    moveLine_given false (by rw [taken.state]; exact mapped) rfl, if_neg (by decide), taken.logical]
  rfl

include small near has run mapped noReads noWrites due within notCopy allowed in
/-- A read without a good attempt (R295). -/
theorem memTransfer_lost (e : List Nat) (other : ¬ (((rot s k).phase = 1 ∨ (rot s k).phase = 2) ∧ (rot s k).dst = h)) :
    let t := memTransfer k h line false user (List.replicate 4 { parityError := true, errors := e }) s
    cntGet t (cChan k h 4) = (cntGet s (cChan k h 4) + 3) % 2 ^ 64 ∧ cntGet t 0x701 = (cntGet s 0x701 + 1) % 2 ^ 64 ∧
      (user = .plan ∨ user = .update ∨ user = .fabric →
        t.mem.readFailed.contains (4 * (640 * (line / 4) + (memCh s k h).logical) + line % 4) = true) := by
  have bears := memCh_mapped near small mapped
  have taken : ChanOnly s (xferTaken s k h false { user := user, line := line, tries := List.replicate 4 { parityError := true, errors := e } }) k h :=
    xferTaken_only bears
  have again := taken.trans (xferRetried_only 3 (by rw [taken.logical]; exact bears))
  have rotS : rot (xferRetried (xferTaken s k h false
      { user := user, line := line, tries := List.replicate 4 { parityError := true, errors := e } }) k h 3) k = rot s k :=
    rot_congr (again.rots) k
  have fails {j : Nat} (off : OffRepair j) := transferFails_read _ k h line
    (4 * (640 * (line / 4) + (memCh s k h).logical) + line % 4) (user := user) (by rw [rotS]; exact other) off
  intro t
  rw [show t = _ from memTransfer_moves small near has run mapped noReads noWrites due within notCopy allowed false
    (by rw [outcome_lost]; simp), moveLine_lost false (by rw [taken.state]; exact mapped) rfl, taken.logical]
  refine ⟨?_, ?_, (fails offRepair_faulty).2⟩
  · rw [(fails (offRepair_chan near small (by decide))).1, if_neg (by unfold cChan; omega), xferRetried_cnt, if_pos rfl,
      xferTaken_cnt]
  · rw [(fails offRepair_faulty).1, if_pos rfl, xferRetried_cnt, if_neg (by unfold cChan; omega), xferTaken_cnt]

include small near has run mapped noReads noWrites due within notCopy in
/-- A line that the stack holds back waits until a quarter of the channel's time has been given (R380). -/
theorem memTransfer_waits (tries : List TransferResult) (whole : ¬ ((outcome 4 tries 0).1 = none ∧ (outcome 4 tries 0).2 < 4))
    (limits : s.hlt.limited.contains k = true) (rank : 3 ≤ userRank user) (early : s.now < (memCh s k h).quarterAt) :
    let t := memTransfer k h line false user tries s
    OnlyChanges [.mem] s t ∧ t.mem.lines = s.mem.lines ∧ (memCh t k h).freeAt = (memCh s k h).quarterAt ∧
      (memCh t k h).rdq = [{ user := user, line := line, tries := tries }] := by
  have bears := memCh_mapped near small mapped
  set x : MemXfer := { user := user, line := line, tries := tries } with hx
  set y := xferQueued s k h false x with hy
  have chan : memCh y k h = oneQueued (memCh s k h) s.now false x := memCh_xferQueued near small mapped x
  have held : quarterWaits (stackLimits y k) (memCh y k h) x = true := by
    rw [chan]
    unfold quarterWaits stackLimits oneQueued
    have slow : ¬ (x.user == MemUser.copy && (memCh s k h).slots % 64 == 63) = true := by simp [hx, notCopy]
    have rank' : 3 ≤ userRank x.user := rank
    have limits' : y.hlt.limited.contains k = true := limits
    simp only [limits', Bool.true_and, rank', decide_true, slow, Bool.not_false, Bool.and_true, decide_eq_true_eq]
    omega
  have served : serveDue k h 1 y = modMemCh y k h fun c => { c with freeAt := max c.freeAt c.quarterAt } := by
    have reads : (memCh y k h).rdq = [x] := by rw [chan]; rfl
    have writes : (memCh y k h).wrq = [] := by rw [chan]; rfl
    have now : ¬ y.now < (memCh y k h).freeAt := by
      rw [chan]
      show ¬ s.now < max (memCh s k h).freeAt s.now
      omega
    obtain ⟨may, servable_⟩ := mayMove_none held
    have direction : nextWrites (stackLimits y k) (memCh y k h) = false := by
      unfold nextWrites
      rw [writes]
      rfl
    unfold serveDue
    dsimp only
    rw [if_neg (by rw [reads]; simpa using now)]
    unfold serveDue serveNext
    dsimp only
    rw [direction, reads]
    rw [show (if false = true then (memCh y k h).wrq else [x]) = [x] from rfl, may]
    rfl
  have last : memCh (serveDue k h 1 y) k h = { memCh y k h with freeAt := max (memCh y k h).freeAt (memCh y k h).quarterAt } := by
    rw [served]
    exact memCh_modMemCh_kept (by rw [chan]; exact bears) rfl
  intro t
  rw [show t = serveDue k h 1 y from memTransfer_queued has run mapped noReads noWrites within whole]
  refine ⟨?_, ?_, ?_, ?_⟩
  · rw [served]
    exact ((modMemCh_fr _ _ _ _).step (modMemCh_fr s k h _)).onlyChanges _
  · rw [served]
    rfl
  · rw [last, chan]
    show max (max (memCh s k h).freeAt s.now) (memCh s k h).quarterAt = (memCh s k h).quarterAt
    omega
  · rw [last, chan]
    rfl

end Transfer

end Sys2Proof.Machine

/-! #### Pages, passes, rebuilds and scrubs: R294, R298 to R301, R304 -/

namespace Sys2Proof.Machine

set_option Elab.async false

theorem lineVerdict_clean (v : BitVec 512) {e : List Nat} (clean : ∀ x, x ∈ e → x % 65536 = 0) :
    lineVerdict (.data v) e = .good ∧ lineVerdict .poison e = .poison := by
  have all : (e.all fun x => x % 65536 == 0) = true := List.all_eq_true.mpr fun x member => by simp [clean x member]
  unfold lineVerdict
  rw [if_pos all, if_pos all]
  exact ⟨rfl, rfl⟩

theorem memTransfer_absent {s : State} (k h line : Nat) (write : Bool) (user : MemUser) (tries : List TransferResult)
    (absent : hasStacks s = false) : memTransfer k h line write user tries s = s := by
  unfold memTransfer
  dsimp only
  rw [if_pos (by simp [absent])]

/-! A page is retired (R298). -/

theorem pageRetirementDone_stays {s : State} {k h : Nat} (none_ : (memCh s k h).retiring = none) :
    pageRetirementDone k h s = s := by
  unfold pageRetirementDone
  dsimp only
  rw [none_]

/-- The page's data lie in a redundant row, before the other pages are judged. -/
def pageRetired (s : State) (k h p : Nat) : State :=
  bump (setMemCh s k h { memCh s k h with
    retiring := none, repairRows := (memCh s k h).repairRows - 1
    rowsUsed := tset 0 (memCh s k h).rowsUsed (bankOf p) (tget 0 (memCh s k h).rowsUsed (bankOf p) + 1)
    pages := (memCh s k h).pages.filter fun x => decide (x.1 ≠ p) }) (cChan k h 6)

theorem pageRetirementDone_run {s : State} {k h p a : Nat} (retiring : (memCh s k h).retiring = some (p, a)) :
    pageRetirementDone k h s = judgePages (pageRetired s k h p) k h := by
  unfold pageRetirementDone
  dsimp only
  rw [retiring]
  rfl

theorem pageRetirementDone_spec {s : State} {k h p a : Nat} (small : k < 20) (near : h < 33)
    (retiring : (memCh s k h).retiring = some (p, a)) :
    let t := pageRetirementDone k h s
    (memCh t k h).repairRows = (memCh s k h).repairRows - 1 ∧
      tget 0 (memCh t k h).rowsUsed (bankOf p) = tget 0 (memCh s k h).rowsUsed (bankOf p) + 1 ∧
      (∀ x, x ∈ (memCh t k h).pages → x.1 ≠ p) ∧ cntGet t (cChan k h 6) = (cntGet s (cChan k h 6) + 1) % 2 ^ 64 := by
  obtain ⟨-, rows, used, pages⟩ := judgePages_spec (pageRetired s k h p) k h
  obtain ⟨-, rows', used', pages'⟩ := chHeld_eq (show chHeld (memCh (pageRetired s k h p) k h) = _ from chHeld_setMemCh s k h _)
  intro t
  rw [show t = _ from pageRetirementDone_run retiring]
  refine ⟨rows.trans rows', ?_, fun x member => ?_, ?_⟩
  · rw [used, used']
    exact tget_tset_same ..
  · have kept := pages member
    rw [pages'] at kept
    simpa using (List.mem_filter.mp kept).2
  · rw [judgePages_cntGet (offRepair_chan near small (by decide)), pageRetired, cntGet_bump, if_pos rfl]
    rfl

/-! A patrol pass (R298, R299). -/

theorem patrolPassStart_stays {s : State} (reading : patrolDone s = false) : patrolPassStart s = s := by
  unfold patrolPassStart
  rw [if_neg (by simp [reading])]

/-- The pass as it begins. -/
def patrolBegun (s : State) : State :=
  let s := awaitOpt s s.mem.patrolAt (rf s oMEM_CFG 63 44 * secT)
  { s with mem := { s.mem with
    patrolAt := some s.now, patrol := [], chans := tmap {} s.mem.chans fun _ c => { c with pages := [] } } }

theorem patrolPassStart_run {s : State} (has : hasStacks s = true) (ready : moduleReadyNow s = true) (run : stacksRun s = true)
    (on : bit (getR s oMEM_CFG) 0 = true) (read : patrolDone s = true) : patrolPassStart s = patrolBegun s := by
  unfold patrolPassStart
  rw [if_pos (by simp [has, ready, run, on, read])]
  rfl

theorem patrolBegun_fr (s : State) : Fr 135168 s (patrolBegun s) :=
  Fr.put_mem _ ((awaitOpt_fr s _ _).mono)

theorem patrolBegun_pages (s : State) (k h : Nat) : (memCh (patrolBegun s) k h).pages = [] := by
  rw [(chHeld_eq (show chHeld (memCh (patrolBegun s) k h) = chHeld (tget {} (patrolBegun s).mem.chans (33 * k + h)) from
    chHeld_memCh _ _ _)).2.2.2]
  rcases tget_tmap {} (awaitOpt s s.mem.patrolAt (rf s oMEM_CFG 63 44 * secT)).mem.chans
    (fun _ (c : MemCh) => { c with pages := [] }) (33 * k + h) with default_ | ⟨v, cleared⟩
  · exact congrArg MemCh.pages default_
  · exact congrArg MemCh.pages cleared

/-! A cooled stack leaves HOT (R294). -/

theorem memHotClear_stays {s : State} {k : Nat} (off : (stk s k).hot = false ∨ (stk s k).coolSince = none) :
    memHotClear k s = s := by
  unfold memHotClear
  dsimp only
  rw [if_neg (by rcases off with h | h <;> simp [h])]

theorem memHotClear_spec {s : State} {k a : Nat} (hot : (stk s k).hot = true) (cool : (stk s k).coolSince = some a) :
    let t := memHotClear k s
    t.now = max s.now (a + secT) ∧ stk t k = { stk s k with hot := false, coolSince := none } ∧
      cntGet t 0x708 = (cntGet s 0x708 + 1) % 2 ^ 64 := by
  have run : memHotClear k s = raiseEvent (modStk (await s a secT) k fun t => { t with hot := false, coolSince := none }) 0x708
      0x7F k (stk s k).temp := by
    unfold memHotClear
    dsimp only
    rw [if_pos (by simp [hot, cool]), cool]
    rfl
  intro t
  rw [show t = _ from run]
  refine ⟨(raiseEvent_fr _ _ _ _ _).now rfl, ?_, ?_⟩
  · show tget {} (raiseEvent _ _ _ _ _).mem.stks k = _
    rw [(raiseEvent_fr _ _ _ _ _).mem rfl]
    exact stk_modStk _ _ _
  · rw [raiseEvent_cnt _ _ _ _ _ _ (by decide), if_pos rfl]
    rfl

/-! A rebuilt channel is redirected (R301). -/

theorem rebuildComplete_stays {s : State} {l : Nat} (ready : ∀ r, r ∈ s.mem.relief → r.logical = l → r.ready = true) :
    rebuildComplete l s = s := by
  have none_ : (s.mem.relief.any fun r => r.logical == l && !r.ready) = false := by
    rw [List.any_eq_false]
    intro r member
    by_cases own : r.logical = l
    · simp [ready r member own]
    · simp [own]
  unfold rebuildComplete
  rw [if_neg (by simp only [none_, Bool.false_and]; decide)]

/-- The redirection in force, before its event. -/
def rebuilt (s : State) (l : Nat) : State :=
  let s := setMap s l { mapOf s l with rebuilt := true }
  { s with mem := { s.mem with
    rebuilds := s.mem.rebuilds + 1
    relief := s.mem.relief.map fun r => if r.logical = l then { r with ready := true } else r } }

theorem rebuildComplete_spec {s : State} {l : Nat} {r : Relief} (member : r ∈ s.mem.relief) (own : r.logical = l)
    (waits : r.ready = false) (fits : deepUsed s ≤ deepSize s) :
    let t := rebuildComplete l s
    (mapOf t l).rebuilt = true ∧ t.mem.rebuilds = s.mem.rebuilds + 1 ∧
      (∀ x, x ∈ t.mem.relief → x.logical = l → x.ready = true) ∧ cntGet t 0x707 = (cntGet s 0x707 + 1) % 2 ^ 64 := by
  have some_ : (s.mem.relief.any fun r => r.logical == l && !r.ready) = true :=
    List.any_eq_true.mpr ⟨r, member, by simp [own, waits]⟩
  have run : rebuildComplete l s = raiseEvent (rebuilt s l) 0x707 0x7F l (rebuilt s l).mem.rebuilds := by
    unfold rebuildComplete
    rw [if_pos (by simp only [some_, Bool.true_and]; exact decide_eq_true fits)]
    rfl
  have mem : (raiseEvent (rebuilt s l) 0x707 0x7F l (rebuilt s l).mem.rebuilds).mem = (rebuilt s l).mem :=
    (raiseEvent_fr _ _ _ _ _).mem rfl
  intro t
  rw [show t = _ from run]
  refine ⟨?_, ?_, ?_, ?_⟩
  · rw [mapOf_congr (congrArg Mem.map mem)]
    show (mapOf (setMap s l { mapOf s l with rebuilt := true }) l).rebuilt = true
    unfold mapOf setMap
    dsimp only
    rw [tget_tset_same, if_pos rfl]
  · rw [mem]
    rfl
  · rw [mem]
    intro x member own
    obtain ⟨y, -, same⟩ := List.mem_map.mp (show x ∈ s.mem.relief.map _ from member)
    rw [← same] at own ⊢
    split
    · rfl
    · next other =>
      rw [if_neg other] at own
      exact absurd own other
  · rw [raiseEvent_cnt _ _ _ _ _ _ (by decide), if_pos rfl]
    rfl

/-! A range given up reads as zeros (R304). -/

/-- A table without the keys of a kind. -/
theorem tget_filter {α : Type} (d : α) (t : Tab α) (p : Nat → Bool) (k : Nat) :
    tget d (t.filter fun e => p e.1) k = if p k = true then tget d t k else d := by
  induction t with
  | nil => simp [tget]
  | cons e t ih =>
    obtain ⟨j, v⟩ := e
    rw [List.filter_cons]
    by_cases same : j = k
    · subst same
      by_cases kept : p j = true
      · simp [kept, tget]
      · rw [if_neg kept, ih, if_neg kept, if_neg kept]
    · split
      · rw [tget, if_neg same, tget, if_neg same, ih]
      · rw [tget, if_neg same, ih]

theorem regionScrubDone_stays {s : State} (none_ : s.mem.scrubbing = []) : regionScrubDone s = s := by
  unfold regionScrubDone
  rw [none_]

/-- The range's lines vanish from the list. -/
def rangeZeroed (s : State) (g n : Nat) (rest : List (Nat × Nat)) : State :=
  { s with mem := { s.mem with
    scrubbing := rest, lines := s.mem.lines.filter fun e => !inRange g n (e.1 / 4)
    readFailed := s.mem.readFailed.filter fun k => !inRange g n (k / 4) } }

theorem regionScrubDone_run {s : State} {g n : Nat} {rest : List (Nat × Nat)} (first : s.mem.scrubbing = (g, n) :: rest)
    (inPlace : ∀ l, (tget ({} : MapEntry) s.mem.map l).retired = false) :
    regionScrubDone s = noteZeroed (rangeZeroed s g n rest) g n := by
  have none_ : ((upTo 640).filter fun l => (tget ({} : MapEntry) s.mem.map l).retired) = [] :=
    List.filter_eq_nil_iff.mpr fun l _ => by simp [inPlace l]
  unfold regionScrubDone
  rw [first]
  unfold zeroRange
  dsimp only
  rw [none_]
  rfl

theorem regionScrubDone_spec {s : State} {g n : Nat} {rest : List (Nat × Nat)} (first : s.mem.scrubbing = (g, n) :: rest)
    (inPlace : ∀ l, (tget ({} : MapEntry) s.mem.map l).retired = false) (below : g + n ≤ reliefBase s) :
    let t := regionScrubDone s
    OnlyChanges [.mem] s t ∧ t.mem.scrubbing = rest ∧
      ∀ key, lineAt t key = if g ≤ key / 4 ∧ key / 4 < g + n then .data 0 else lineAt s key := by
  have fr : Fr 4096 s (noteZeroed (rangeZeroed s g n rest) g n) :=
    (noteZeroed_fr _ _ _).step (Fr.put_filter _ _ (.refl _ _) rfl)
  intro t
  rw [show t = _ from regionScrubDone_run first inPlace]
  refine ⟨fr.onlyChanges _, rfl, fun key => ?_⟩
  have kept : lineAt (noteZeroed (rangeZeroed s g n rest) g n) key =
      if (!inRange g n (key / 4)) = true then lineAt s key else lineDef s key := by
    show tget (lineDef s key) (s.mem.lines.filter fun e => (fun k => !inRange g n (k / 4)) e.1) key = _
    exact tget_filter (lineDef s key) s.mem.lines (fun k => !inRange g n (k / 4)) key
  rw [kept]
  unfold inRange
  by_cases within : g ≤ key / 4 ∧ key / 4 < g + n
  · rw [if_pos within, if_neg (by simp [within]), lineDef, if_neg (by omega)]
  · rw [if_neg within, if_pos]
    simp only [Bool.not_eq_true', Bool.and_eq_false_iff, decide_eq_false_iff_not]
    omega

/-- Settles O53: the one line that waits on an idle channel is the one that is moved, counted and judged, and what a
channel's repair changes leaves its counts and records as they were. -/
theorem transfersJudgedAndRepaired : Obligations.TransfersJudgedAndRepaired := by
  unfold Obligations.TransfersJudgedAndRepaired
  intro s k h line small near
  refine ⟨?_, ?_, fun v e clean => lineVerdict_clean v clean,
    fun write user tries absent => congrArg Host.Outcome.next (memTransfer_absent k h line write user tries absent),
    fun p a retiring => ⟨_, rfl, pageRetirementDone_spec small near retiring⟩,
    fun none_ => congrArg Host.Outcome.next (pageRetirementDone_stays none_), fun has ready run on => ⟨?_, ?_⟩,
    fun a hot cool => ⟨_, rfl, memHotClear_spec hot cool⟩, fun off => congrArg Host.Outcome.next (memHotClear_stays off),
    fun l r member own waits fits => ⟨_, rfl, rebuildComplete_spec member own waits fits⟩,
    fun l ready => congrArg Host.Outcome.next (rebuildComplete_stays ready),
    fun none_ => congrArg Host.Outcome.next (regionScrubDone_stays none_),
    fun g n rest first inPlace below => ⟨_, rfl, regionScrubDone_spec first inPlace below⟩⟩
  · rintro user key has run mapped noReads noWrites due within notCopy allowed rfl
    refine ⟨fun e => ⟨_, rfl, memTransfer_write small near has run mapped noReads noWrites due within notCopy allowed e⟩,
      fun e => ?_, fun e other => ⟨_, rfl, memTransfer_lost small near has run mapped noReads noWrites due within notCopy allowed e other⟩⟩
    obtain ⟨y, given, read⟩ := memTransfer_read small near has run mapped noReads noWrites due within notCopy allowed e
    exact ⟨_, congrArg Host.Outcome.next read, judgeRead_spec given has small near within⟩
  · intro user e has run mapped noReads noWrites due within notCopy limits rank early
    exact ⟨_, rfl, memTransfer_waits small near has run mapped noReads noWrites due within notCopy _ (by rw [outcome_given]; simp)
      limits rank early⟩
  · exact fun reading => congrArg Host.Outcome.next (patrolPassStart_stays reading)
  · intro read
    refine ⟨_, congrArg Host.Outcome.next (patrolPassStart_run has ready run on read), (patrolBegun_fr s).onlyChanges _, rfl, rfl, ?_,
      patrolBegun_pages s⟩
    show (awaitOpt s s.mem.patrolAt (rf s oMEM_CFG 63 44 * secT)).now = _
    cases s.mem.patrolAt <;> rfl

end Sys2Proof.Machine

/-! ### O54: fabric memory -/

namespace Sys2Proof.Machine

set_option Elab.async false

/-! #### A request as it comes: R306 -/

theorem Reached.emLook {s x : State} {l : Nat} (h : Reached s x l) (e0 e1 : Word) : Machine.emLook x e0 e1 = Machine.emLook s e0 e1 := by
  unfold Machine.emLook beforeImage emFind emSlot emCands emKeyBytes rf
  rw [h.fr.tbl rfl, h.fr.getR]

theorem Reached.hasStacks {s x : State} {l : Nat} (h : Reached s x l) : Machine.hasStacks x = Machine.hasStacks s := by
  unfold Machine.hasStacks
  rw [h.fr.variant]

theorem Reached.regionOf {s x : State} {l : Nat} (h : Reached s x l) (part key : Nat) :
    Machine.regionOf x part key = Machine.regionOf s part key := by
  unfold Machine.regionOf
  rw [h.hasStacks, h.emLook]

theorem Reached.reaches {s x : State} {l : Nat} (h : Reached s x l) (p q : Nat) : Machine.reaches x p q = Machine.reaches s p q := by
  unfold Machine.reaches beforeImage
  rw [h.fr.tbl rfl]

theorem Reached.regionClaimed {s x : State} {l : Nat} (h : Reached s x l) (g n : Nat) :
    Machine.regionClaimed x g n = Machine.regionClaimed s g n := by
  have regions : Machine.regionOf x = Machine.regionOf s := by
    funext part key
    exact h.regionOf part key
  unfold Machine.regionClaimed
  rw [h.fr.plan rfl, regions]

/-- The check reads of a request its frame and its form alone. -/
theorem Reached.memCheck {s x : State} {l : Nat} (h : Reached s x l) {fr : QFrame} {f : Frame} {bl2 : Bool} (frame : fr.f = f)
    (form : fr.inBl2 = bl2) (p : Nat) : Machine.memCheck x fr p = Machine.memCheck s { f := f, inBl2 := bl2 } p := by
  subst frame form
  unfold Machine.memCheck
  dsimp only
  rw [h.hasStacks, h.reaches, h.regionOf]
  split
  · rfl
  · split
    · rfl
    · split
      · rfl
      · split
        · rfl
        · split
          · rfl
          · rw [h.regionClaimed]

theorem consume_memory {fr : QFrame} {p : Nat} {x : State} (typed : fr.f.type = tPUT ∨ fr.f.type = tGET ∨ fr.f.type = tATOMIC) :
    consume fr p x = memRequest fr p x := by
  unfold consume
  dsimp only
  rcases typed with h | h | h <;> rw [h, if_neg (by decide), if_neg (by simp [tPUT, tGET, tATOMIC, tCONTRIB, tCOMBINE, tRESULT]),
    if_pos (by simp)]

/-- A request refused leaves memory as it was. -/
theorem memRequest_refused {s : State} {q : QFrame} {p c : Nat} (refused : memCheck s q p = .error c) :
    (memRequest q p s).mem = s.mem := by
  unfold memRequest
  rw [refused]
  exact (refuse_fr _ _ _ _).mem rfl

theorem memRequest_accepted {s : State} {q : QFrame} {p : Nat} {v : Word × Word} (accepted : memCheck s q p = .ok v) :
    (memRequest q p s).mem = { s.mem with reqs := s.mem.reqs ++ [{ q := q, base := rgBase v, rid := rgId v }] } := by
  unfold memRequest
  rw [accepted]
  dsimp only
  rw [(freeCredit_fr _ _ _ _).mem rfl]

/-! #### A request as it is carried out: R307, R308 -/

theorem memResp_mem (s : State) (q : QFrame) (payload : List Byte) : (memResp s q payload).mem = s.mem :=
  (memResp_fr s q payload).mem rfl

theorem setRegionLine_reqs (s : State) (base n : Nat) (v : Line) : (setRegionLine s base n v).mem.reqs = s.mem.reqs := by
  unfold setRegionLine writeLine noteWritten
  split
  · rfl
  · dsimp only
    split <;> rfl

theorem writeLines_reqs (base c : Nat) (s : State) (n : Nat) (b : List Byte) : (writeLines base c s n b).mem.reqs = s.mem.reqs := by
  induction c generalizing s n b with
  | zero => rfl
  | succ c ih =>
    unfold writeLines
    rw [ih, setRegionLine_reqs]

theorem serveMem_put {s : State} {r : MemReq} (put : r.q.f.type = tPUT) :
    (serveMem s r).mem = (writeLines r.base (memLen r.q.f / 64) s r.q.f.chunk r.q.f.payload).mem := by
  unfold serveMem
  dsimp only
  rw [if_pos put, memResp_mem]

/-- A read that is POISONED is answered so, and a GET with what it read. -/
theorem serveMem_reads {s : State} {r : MemReq} (notPut : r.q.f.type ≠ tPUT)
    (reads : r.q.f.type = tGET ∨ ∃ n, (readLines s r.base (memLen r.q.f / 64) r.q.f.chunk).2 = some n) :
    (serveMem s r).mem = (doneReads s r.base r.q.f.chunk (memLen r.q.f / 64)).mem := by
  unfold serveMem
  dsimp only
  rw [if_neg notPut]
  split
  · exact sendNack_mem _ _ _ _
  · next whole =>
    rcases reads with get | ⟨n, bad⟩
    · rw [if_pos get, memResp_mem]
    · exact nomatch whole.symm.trans bad

theorem serveMem_atomic {s : State} {r : MemReq} {b : List Byte} (atomic : r.q.f.type = tATOMIC)
    (read : readLines s r.base (memLen r.q.f / 64) r.q.f.chunk = (b, none)) :
    (serveMem s r).mem = (setRegionLine (doneReads s r.base r.q.f.chunk (memLen r.q.f / 64)) r.base r.q.f.chunk
      (.data (bytesLine (putBytes b (8 * (r.q.f.aux % 8)) (leBytes 8 (atomicOp (r.q.f.aux / 2 ^ 24 % 256)
        (leAt b (8 * (r.q.f.aux % 8)) 8) (leAt r.q.f.payload 0 8) (leAt r.q.f.payload 8 8))))))).mem := by
  unfold serveMem
  dsimp only
  rw [if_neg (by rw [atomic]; decide), read]
  dsimp only
  rw [if_neg (by rw [atomic]; decide), memResp_mem]

/-- Whatever a request does, the requests that wait stay. -/
theorem serveMem_reqs (s : State) (r : MemReq) : (serveMem s r).mem.reqs = s.mem.reqs := by
  unfold serveMem
  dsimp only
  split
  · rw [memResp_mem, writeLines_reqs]
  · split
    · rw [sendNack_mem]
      rfl
    · split
      · rw [memResp_mem]
        rfl
      · rw [memResp_mem, setRegionLine_reqs]
        rfl

theorem fabricMemDone_stays {s : State} (none_ : s.mem.reqs = []) : fabricMemDone s = s := by
  have free : freeReqs s = [] := by
    unfold freeReqs
    rw [none_]
    rfl
  unfold fabricMemDone
  rw [free]

/-- The state in which the oldest request is carried out. -/
def reqTaken (s : State) (rest : List MemReq) : State :=
  { takeFree s with mem := { s.mem with reqs := rest } }

/-- Where only the oldest request may complete, it does (R307). -/
theorem fabricMemDone_oldest {s : State} {r : MemReq} {rest : List MemReq} (first : s.mem.reqs = r :: rest)
    (free : freeReqs s = [0]) : fabricMemDone s = serveMem (reqTaken s rest) r := by
  have pick : nth 0 [0] (Config.freeNat s.freeCtr % [0].length) = 0 := by
    rw [List.length_singleton, Nat.mod_one]
    rfl
  unfold fabricMemDone
  rw [free]
  dsimp only
  rw [pick, first, show (takeFree s).mem.reqs = r :: rest from first]
  rfl

theorem freeReqs_one {s : State} {r : MemReq} (only : s.mem.reqs = [r]) : freeReqs s = [0] := by
  unfold freeReqs
  rw [only]
  rfl

theorem freeReqs_two {s : State} {a b : MemReq} (both : s.mem.reqs = [a, b]) (same : sameLine a b = true) : freeReqs s = [0] := by
  unfold freeReqs
  rw [both]
  simp [List.range_succ, nth, same]

theorem reqTaken_read (s : State) (rest : List MemReq) (base c n : Nat) :
    readLines (reqTaken s rest) base c n = readLines s base c n := by
  have line (i : Nat) : regionLine (reqTaken s rest) base i = regionLine s base i := by
    have at_ (m g : Nat) : placeOf (reqTaken s rest) m g = placeOf s m g := by
      induction m generalizing g with
      | zero => rfl
      | succ m ih =>
        unfold placeOf
        dsimp only
        simp only [ih]
        rfl
    unfold regionLine readLine place
    rw [at_]
    rfl
  induction c generalizing n with
  | zero => rfl
  | succ c ih =>
    unfold readLines
    rw [line, ih]

/-! #### O54 settled -/

theorem doneReads_lineAt (s : State) (base l0 n key : Nat) : lineAt (doneReads s base l0 n) key = lineAt s key := rfl

theorem reqTaken_lineAt (s : State) (rest : List MemReq) (key : Nat) : lineAt (reqTaken s rest) key = lineAt s key := rfl

theorem lineAt_mem {s t : State} (mem : t.mem = s.mem) (key : Nat) : lineAt t key = lineAt s key :=
  lineAt_congr (by rw [mem]) (by rw [mem]) key

/-- A request that is the only one is carried out (R307, R308). -/
theorem fabricMemDone_one {s : State} {r : MemReq} (only : s.mem.reqs = [r]) :
    fabricMemDone s = serveMem (reqTaken s []) r ∧ (fabricMemDone s).mem.reqs = [] := by
  have run := fabricMemDone_oldest only (freeReqs_one only)
  refine ⟨run, ?_⟩
  rw [run, serveMem_reqs]
  rfl

theorem fabricMemDone_put {s : State} {r : MemReq} (only : s.mem.reqs = [r])
    (live : ∀ l, (tget ({} : MapEntry) s.mem.map l).retired = false) (put : r.q.f.type = tPUT) (key : Nat) :
    lineAt (fabricMemDone s) key =
      if 4 * r.base + r.q.f.chunk ≤ key ∧ key < 4 * r.base + r.q.f.chunk + memLen r.q.f / 64 then
        .data (bytesLine (r.q.f.payload.drop (64 * (key - (4 * r.base + r.q.f.chunk)))))
      else lineAt s key := by
  rw [(fabricMemDone_one only).1, lineAt_mem (serveMem_put put)]
  exact lineAt_writeLines r.base _ (s := reqTaken s []) live _ _ key

theorem fabricMemDone_reads {s : State} {r : MemReq} (only : s.mem.reqs = [r]) (notPut : r.q.f.type ≠ tPUT)
    (reads : r.q.f.type = tGET ∨ ∃ n, (readLines s r.base (memLen r.q.f / 64) r.q.f.chunk).2 = some n) :
    (fabricMemDone s).mem.lines = s.mem.lines := by
  rw [(fabricMemDone_one only).1, serveMem_reads notPut (by rw [reqTaken_read]; exact reads)]
  rfl

theorem fabricMemDone_atomic {s : State} {r : MemReq} {b : List Byte} (only : s.mem.reqs = [r])
    (live : ∀ l, (tget ({} : MapEntry) s.mem.map l).retired = false) (atomic : r.q.f.type = tATOMIC)
    (read : readLines s r.base (memLen r.q.f / 64) r.q.f.chunk = (b, none)) (key : Nat) :
    lineAt (fabricMemDone s) key =
      if key = 4 * r.base + r.q.f.chunk then
        .data (bytesLine (putBytes b (8 * (r.q.f.aux % 8)) (leBytes 8 (atomicOp (r.q.f.aux / 2 ^ 24 % 256)
          (leAt b (8 * (r.q.f.aux % 8)) 8) (leAt r.q.f.payload 0 8) (leAt r.q.f.payload 8 8)))))
      else lineAt s key := by
  rw [(fabricMemDone_one only).1, lineAt_mem (serveMem_atomic atomic (by rw [reqTaken_read]; exact read)),
    (setRegionLine_live (s := doneReads (reqTaken s []) r.base r.q.f.chunk (memLen r.q.f / 64)) live _ _ _).2,
    doneReads_lineAt, reqTaken_lineAt]

theorem atomic_one {f : Frame} (atomic : f.type = tATOMIC) : memLen f / 64 = 1 := by
  unfold memLen
  rw [atomic, if_neg (by decide), if_neg (by decide)]

theorem fabricMemDone_two {s : State} {a b : MemReq} (both : s.mem.reqs = [a, b]) (same : sameLine a b = true) :
    (fabricMemDone s).mem.reqs = [b] := by
  rw [fabricMemDone_oldest both (freeReqs_two both same), serveMem_reqs]
  rfl

/-- Settles O54: a request finds the tables and plans as they were when it came, and the one that may complete is
carried out line by line. -/
theorem fabricMemoryServed : Obligations.FabricMemoryServed := by
  unfold Obligations.FabricMemoryServed
  intro s
  refine ⟨?_, fun none_ => congrArg Host.Outcome.next (fabricMemDone_stays none_), fun r only live => ⟨fun put => ?_,
    fun get => ?_, fun b atomic read => ?_, fun b n atomic read => ?_⟩, fun a b both same => ⟨_, rfl, fabricMemDone_two both same⟩⟩
  · intro q type hdr payload f e read row
    have typed : type = tPUT ∨ type = tGET ∨ type = tATOMIC := row.imp And.left (Or.imp And.left And.left)
    have run : exec e s = .next (selfReceive type q hdr payload s) := by
      rcases row with ⟨rfl, rfl⟩ | ⟨rfl, rfl⟩ | ⟨rfl, rfl⟩ <;> rfl
    refine ⟨fun elsewhere => ?_, fun part reaches_ => ?_⟩
    · rw [run]
      unfold selfReceive
      rw [forSelf_of_not read elsewhere]
      rfl
    · obtain ⟨x, fr, received, reached, frame, -, form⟩ :=
        reachesSpine_consumed read (by rcases typed with h | h | h <;> rw [h] <;> decide) reaches_
      obtain ⟨-, -, -, -, -, ofType, -, -, -, single, dest, -⟩ := reaches_
      have taken : exec e s = .next (memRequest fr part x) := by
        rw [run]
        unfold selfReceive
        rw [if_pos (forSelf_of read ofType single dest), received, consume_memory (by rw [frame, ofType]; exact typed)]
      have check := reached.memCheck frame form part
      have mem : x.mem = s.mem := reached.fr.mem rfl
      refine ⟨fun c refused => ⟨_, taken, ?_⟩, fun v accepted =>
          ⟨_, { q := fr, base := rgBase v, rid := rgId v }, taken, ?_, rfl, rfl, frame⟩⟩
      · rw [memRequest_refused (check.trans refused), mem]
      · rw [memRequest_accepted (check.trans accepted), mem]
  · exact ⟨_, rfl, (fabricMemDone_one only).2, fabricMemDone_put only live put⟩
  · exact ⟨_, rfl, (fabricMemDone_one only).2, fabricMemDone_reads only (by rw [get]; decide) (.inl get)⟩
  · exact ⟨_, rfl, (fabricMemDone_one only).2, fabricMemDone_atomic only live atomic (by rw [atomic_one atomic]; exact read)⟩
  · exact ⟨_, rfl, (fabricMemDone_one only).2, fabricMemDone_reads only (by rw [atomic]; decide)
      (.inr ⟨n, by rw [atomic_one atomic, read]⟩)⟩

end Sys2Proof.Machine


/-! ### The time domains: what a change of one leaves -/

namespace Sys2Proof.Machine
set_option Elab.async false

theorem dom_setDom_other (s : State) {k j : Nat} (d : Dom) (other : j ≠ k) : dom (setDom s k d) j = dom s j :=
  tget_tset_other (hj := other) ..

theorem dom_modDom_other (s : State) {k j : Nat} (f : Dom → Dom) (other : j ≠ k) : dom (modDom s k f) j = dom s j :=
  dom_setDom_other s _ other

/-- A domain is the same where the table of the domains is. -/
theorem dom_congr {s t : State} (doms : t.tim.doms = s.tim.doms) (k : Nat) : dom t k = dom s k := by
  unfold dom
  rw [doms]

theorem Fr.dom {m : Nat} {s t : State} (h : Fr m s t) (k : Nat) (h13 : m.testBit 13 = false := by rfl) :
    dom t k = dom s k := dom_congr (by rw [h.tim h13]) k

theorem Fr.domEn {m : Nat} {s t : State} (h : Fr m s t) (k : Nat) (h1 : m.testBit 1 = false := by rfl)
    (h3 : m.testBit 3 = false := by rfl) : domEn t k = domEn s k := by
  unfold Machine.domEn
  rw [h.getR _ h1 h3]

theorem Fr.domPps {m : Nat} {s t : State} (h : Fr m s t) (k : Nat) (h1 : m.testBit 1 = false := by rfl)
    (h3 : m.testBit 3 = false := by rfl) : domPps t k = domPps s k := by
  unfold Machine.domPps rf
  rw [h.getR _ h1 h3]

/-- Two domains that count alike. -/
structure CountsAlike (d e : Dom) : Prop where
  state : e.state = d.state
  base : e.base = d.base
  per : e.per = d.per
  rate : e.rate = d.rate

theorem CountsAlike.refl (d : Dom) : CountsAlike d d := ⟨rfl, rfl, rfl, rfl⟩

theorem CountsAlike.of_eq {d e : Dom} (h : e = d) : CountsAlike d e := h ▸ .refl d

theorem CountsAlike.trans {d e f : Dom} (h : CountsAlike d e) (g : CountsAlike e f) : CountsAlike d f :=
  ⟨g.state.trans h.state, g.base.trans h.base, g.per.trans h.per, g.rate.trans h.rate⟩

theorem perNow_congr {s t : State} (now : t.now = s.now) : perNow t = perNow s := by
  unfold perNow
  rw [now]

theorem domValue_congr {s t : State} {k : Nat} (now : t.now = s.now) (same : CountsAlike (dom s k) (dom t k)) :
    domValue t k = domValue s k := by
  unfold domValue
  simp only [same.state, same.base, same.per, same.rate, perNow_congr now]

/-- NT is the same where the selected domain has its value and nothing of the selection differs. -/
theorem ntFine_congr {s t : State} (now : t.now = s.now) (force : t.tim.inForce = s.tim.inForce)
    (sel : t.tim.sel = s.tim.sel) (free : t.tim.free = s.tim.free) (d : t.tim.d = s.tim.d)
    (value : domValue t s.tim.sel = domValue s s.tim.sel) : ntFine t = ntFine s := by
  unfold ntFine
  rw [force, sel, free, d, value]
  simp only [perNow_congr now]

/-! #### The choice of a master -/

/-- What the choice of a master leaves of a domain. -/
structure Rechosen (d e : Dom) : Prop where
  counts : CountsAlike d e
  drift : e.drift = d.drift
  stepNeeded : e.stepNeeded = d.stepNeeded
  offset : e.offset = d.offset
  cands : e.cands = d.cands
  acqAt : e.acqAt = d.acqAt
  exch : e.exch = d.exch
  lastSync : e.lastSync = d.lastSync
  lastEdge : e.lastEdge = d.lastEdge

theorem follow_rechosen (d : Dom) (c : Option (Nat × Cand)) : Rechosen d (follow d c) := by
  cases c <;> exact ⟨⟨rfl, rfl, rfl, rfl⟩, rfl, rfl, rfl, rfl, rfl, rfl, rfl, rfl⟩

/-- A choice changes what it ends in only in the part that a choice may change. -/
theorem Rechosen.of_follow {d e : Dom} {c : Option (Nat × Cand)}
    (same : ∀ f : Dom, f = follow d c → Rechosen f e) : Rechosen d e := by
  have h := follow_rechosen d c
  have g := same _ rfl
  exact ⟨h.counts.trans g.counts, g.drift.trans h.drift, g.stepNeeded.trans h.stepNeeded, g.offset.trans h.offset,
    g.cands.trans h.cands, g.acqAt.trans h.acqAt, g.exch.trans h.exch, g.lastSync.trans h.lastSync,
    g.lastEdge.trans h.lastEdge⟩

/-- The choice writes the domain alone, and of it what names the master (R317). -/
theorem reselect_eq (s : State) (k : Nat) : ∃ e, reselect s k = setDom s k e ∧ Rechosen (dom s k) e := by
  unfold reselect
  rcases bestCand s k with _ | ⟨l, c⟩
  · exact ⟨_, rfl, .of_follow (c := none) fun f h => h ▸ ⟨⟨rfl, rfl, rfl, rfl⟩, rfl, rfl, rfl, rfl, rfl, rfl, rfl, rfl⟩⟩
  · dsimp only
    split
    · exact ⟨_, rfl, .of_follow (c := some (l, c)) fun f h =>
        h ▸ ⟨⟨rfl, rfl, rfl, rfl⟩, rfl, rfl, rfl, rfl, rfl, rfl, rfl, rfl⟩⟩
    · split
      · exact ⟨_, rfl, .of_follow (c := some (l, c)) fun f h =>
          h ▸ ⟨⟨rfl, rfl, rfl, rfl⟩, rfl, rfl, rfl, rfl, rfl, rfl, rfl, rfl⟩⟩
      · exact ⟨_, rfl, .of_follow (c := bestOf s k fun x => x.identity == (dom s k).gm) fun f h =>
          h ▸ ⟨⟨rfl, rfl, rfl, rfl⟩, rfl, rfl, rfl, rfl, rfl, rfl, rfl, rfl⟩⟩

theorem reselect_rechosen (s : State) (k : Nat) : Rechosen (dom s k) (dom (reselect s k) k) := by
  obtain ⟨e, eq, same⟩ := reselect_eq s k
  rw [eq, dom_setDom]
  exact same

theorem reselect_other (s : State) {k j : Nat} (other : j ≠ k) : dom (reselect s k) j = dom s j := by
  obtain ⟨e, eq, -⟩ := reselect_eq s k
  rw [eq, dom_setDom_other s e other]

/-- What of network time a change of domains leaves: the selection, and which domain counts how. -/
structure TimeRuns (s t : State) : Prop where
  now : t.now = s.now
  force : t.tim.inForce = s.tim.inForce
  sel : t.tim.sel = s.tim.sel
  free : t.tim.free = s.tim.free
  d : t.tim.d = s.tim.d

theorem TimeRuns.refl (s : State) : TimeRuns s s := ⟨rfl, rfl, rfl, rfl, rfl⟩

theorem TimeRuns.trans {s t u : State} (h : TimeRuns s t) (g : TimeRuns t u) : TimeRuns s u :=
  ⟨g.now.trans h.now, g.force.trans h.force, g.sel.trans h.sel, g.free.trans h.free, g.d.trans h.d⟩

theorem setDom_runs (s : State) (k : Nat) (d : Dom) : TimeRuns s (setDom s k d) := ⟨rfl, rfl, rfl, rfl, rfl⟩

theorem reselect_runs (s : State) (k : Nat) : TimeRuns s (reselect s k) := by
  obtain ⟨e, eq, -⟩ := reselect_eq s k
  rw [eq]
  exact setDom_runs s k e

theorem TimeRuns.ntFine {s t : State} (h : TimeRuns s t) (same : ∀ j, CountsAlike (dom s j) (dom t j)) :
    ntFine t = ntFine s := ntFine_congr h.now h.force h.sel h.free h.d (domValue_congr h.now (same _))

/-! #### The time in force -/

theorem switchNt_dom (s : State) (k cause j : Nat) : dom (switchNt s k cause) j = dom s j :=
  ((raiseEvent_fr _ _ _ _ _).dom j).trans rfl

theorem switchNt_tim (s : State) (k cause : Nat) :
    (switchNt s k cause).tim = { s.tim with sel := k, d := ntFine s - domValue s k, free := none } :=
  ((raiseEvent_fr _ _ _ _ _).tim rfl).trans rfl

/-- NT keeps its value as it moves to another domain (R322). -/
theorem switchNt_ntFine (s : State) (k cause : Nat) (force : s.tim.inForce = true) :
    ntFine (switchNt s k cause) = ntFine s := by
  have value : domValue (switchNt s k cause) k = domValue s k :=
    domValue_congr ((switchNt_fr s k cause).now rfl) (.of_eq (switchNt_dom s k cause k))
  rw [show ntFine (switchNt s k cause) = domValue (switchNt s k cause) k + (ntFine s - domValue s k) by
    rw [Machine.ntFine, switchNt_tim]
    simp only [force]
    rfl, value]
  omega

theorem switchNt_cnt (s : State) (k cause : Nat) {j : Nat} (low : j < 0x34000) :
    cntGet (switchNt s k cause) j = if j = 0x801 then (cntGet s 0x801 + 1) % 2 ^ 64 else cntGet s j := by
  rw [switchNt, raiseEvent_cnt _ _ _ _ _ _ low]
  rfl

/-- NT stays with its domain, or moves and keeps its value (R322). -/
theorem settleNt_cases (s : State) : settleNt s = s ∨
    (s.tim.inForce = true ∧ ∃ cause, settleNt s = switchNt s (1 - s.tim.sel) cause) := by
  unfold settleNt
  dsimp only
  split
  · rename_i gives
    simp only [Bool.and_eq_true] at gives
    exact .inr ⟨gives.1.1, _, rfl⟩
  · exact .inl rfl

@[simp] theorem settleNt_dom (s : State) (j : Nat) : dom (settleNt s) j = dom s j := by
  rcases settleNt_cases s with h | ⟨-, cause, h⟩ <;> rw [h]
  exact switchNt_dom s _ _ _

theorem settleNt_ntFine (s : State) : ntFine (settleNt s) = ntFine s := by
  rcases settleNt_cases s with h | ⟨force, cause, h⟩ <;> rw [h]
  exact switchNt_ntFine s _ _ force

theorem settleNt_inForce (s : State) : (settleNt s).tim.inForce = s.tim.inForce := by
  rcases settleNt_cases s with h | ⟨-, cause, h⟩ <;> rw [h]
  rw [switchNt_tim]

theorem settleNt_cnt (s : State) {j : Nat} (low : j < 0x34000) (other : j ≠ 0x801) :
    cntGet (settleNt s) j = cntGet s j := by
  rcases settleNt_cases s with h | ⟨-, cause, h⟩ <;> rw [h]
  rw [switchNt_cnt s _ _ low, if_neg other]

/-- NT stays with its domain while the other one is not LOCKED. -/
theorem settleNt_stays {s : State} (unlocked : (dom s (1 - s.tim.sel)).state ≠ 2) : settleNt s = s := by
  unfold settleNt
  simp only [beq_eq_false_iff_ne.mpr unlocked, Bool.and_false, Bool.false_eq_true, if_false]

/-- NT leaves a domain in HOLDOVER for the other that is LOCKED. -/
theorem settleNt_leaves {s : State} (force : s.tim.inForce = true) (held : (dom s s.tim.sel).state = 3)
    (locked : (dom s (1 - s.tim.sel)).state = 2) : settleNt s = switchNt s (1 - s.tim.sel) 1 := by
  unfold settleNt
  simp only [force, held, locked]
  rfl

end Sys2Proof.Machine


/-! ### O56: domains returned, held and driven by an edge -/

namespace Sys2Proof.Machine
set_option Elab.async false

/-! #### Domains that become UNACQUIRED -/

/-- A domain that is UNACQUIRED and keeps what its links have announced. -/
def emptied (d : Dom) : Dom := { cands := d.cands }

theorem forEach_emptied (l : List Nat) (s : State) (j : Nat) :
    dom (forEach l s fun s j => setDom s j (emptied (dom s j))) j = if j ∈ l then emptied (dom s j) else dom s j := by
  induction l generalizing s with
  | nil => rfl
  | cons a l ih =>
    rw [forEach_cons, ih]
    by_cases here : j = a
    · subst here
      rw [dom_setDom, if_pos List.mem_cons_self]
      exact ite_self (emptied (dom s j))
    · rw [dom_setDom_other s _ here]
      simp only [List.mem_cons, here, false_or]

/-- The domains of a list are emptied and their exchanges given up (R314). -/
def givenUp (s : State) (ks : List Nat) : State :=
  forEach ks (giveUpExch s ks) fun s j => setDom s j (emptied (dom s j))

theorem givenUp_dom (s : State) (ks : List Nat) (j : Nat) :
    dom (givenUp s ks) j = if j ∈ ks then emptied (dom s j) else dom s j := by
  rw [givenUp, forEach_emptied, (giveUpExch_fr s ks).dom j]

theorem givenUp_runs (s : State) (ks : List Nat) : TimeRuns s (givenUp s ks) := by
  unfold givenUp
  have fr := giveUpExch_fr s ks
  generalize giveUpExch s ks = y at fr
  have start : TimeRuns s y := ⟨fr.now rfl, by rw [fr.tim rfl], by rw [fr.tim rfl], by rw [fr.tim rfl], by rw [fr.tim rfl]⟩
  clear fr
  induction ks generalizing y with
  | nil => exact start
  | cons a l ih => exact ih _ (start.trans (setDom_runs y a _))

/-- The value of NT as the selected domain was, where NT runs on without it (R313). -/
def runsOn (s : State) (ks : List Nat) : Option (Int × Nat × Int) :=
  if s.tim.inForce && ks.contains s.tim.sel && (dom s s.tim.sel).state != 0 then
    some (ntFine s, perNow s, (dom s s.tim.sel).rate)
  else s.tim.free

/-- The domains of a list are emptied, and NT runs on. -/
def leftRunning (s : State) (ks : List Nat) : State :=
  { givenUp s ks with tim := { (givenUp s ks).tim with free := runsOn s ks } }

theorem unacquire_eq (s : State) (ks : List Nat) : unacquire s ks = settleNt (leftRunning s ks) := rfl

theorem unacquire_dom (s : State) (ks : List Nat) (j : Nat) :
    dom (unacquire s ks) j = if j ∈ ks then emptied (dom s j) else dom s j := by
  rw [unacquire_eq, settleNt_dom]
  exact givenUp_dom s ks j

theorem unacquire_inForce (s : State) (ks : List Nat) : (unacquire s ks).tim.inForce = s.tim.inForce :=
  (settleNt_inForce _).trans (givenUp_runs s ks).force

theorem leftRunning_dom (s : State) (ks : List Nat) (j : Nat) :
    dom (leftRunning s ks) j = if j ∈ ks then emptied (dom s j) else dom s j := givenUp_dom s ks j

theorem leftRunning_value (s : State) (ks : List Nat) (j : Nat) (keeps : j ∈ ks → (dom s j).state = 0) :
    domValue (leftRunning s ks) j = domValue s j := by
  have of := leftRunning_dom s ks j
  by_cases member : j ∈ ks
  · rw [if_pos member] at of
    simp only [domValue, of, keeps member]
    rfl
  · rw [if_neg member] at of
    exact domValue_congr (givenUp_runs s ks).now (.of_eq of)

/-- NT runs on where its domain becomes UNACQUIRED (R313). -/
theorem leftRunning_ntFine (s : State) (ks : List Nat) : ntFine (leftRunning s ks) = ntFine s := by
  have runs := givenUp_runs s ks
  have free : (leftRunning s ks).tim.free = runsOn s ks := rfl
  have force : (leftRunning s ks).tim.inForce = s.tim.inForce := runs.force
  have now : (leftRunning s ks).now = s.now := runs.now
  unfold runsOn at free
  split at free
  · rename_i on
    simp only [Bool.and_eq_true] at on
    rw [ntFine, force, on.1.1, free]
    simp only [perNow_congr now, Nat.sub_self]
    simp
  · rename_i off
    by_cases on : s.tim.inForce = true
    · refine ntFine_congr now force runs.sel free runs.d (leftRunning_value s ks _ fun member => ?_)
      simpa [on, member] using off
    · unfold ntFine
      rw [force, if_pos (by simp [on]), if_pos (by simp [on])]

theorem unacquire_ntFine (s : State) (ks : List Nat) : ntFine (unacquire s ks) = ntFine s := by
  rw [unacquire_eq, settleNt_ntFine, leftRunning_ntFine]

/-! #### The start of an acquisition -/

/-- The moment from which a domain counts provisionally once its acquisition starts (R315). -/
def acquiredAt (s : State) (k : Nat) : Option Nat := if domEn s k = true ∧ domPps s k = false then some (perNow s) else none

/-- A domain whose acquisition may start counts provisionally from now. -/
def startedCount (s : State) (k : Nat) : State :=
  if domEn s k && !domPps s k then modDom s k fun d => { d with acqAt := some (perNow s) } else s

theorem acquire_eq (s : State) (k : Nat) : acquire s k = reselect (startedCount s k) k := by
  unfold acquire startedCount
  split <;> rfl

theorem startedCount_dom (s : State) (k : Nat) :
    dom (startedCount s k) k = { dom s k with acqAt := (acquiredAt s k).or (dom s k).acqAt } := by
  unfold startedCount acquiredAt
  by_cases on : domEn s k = true ∧ domPps s k = false
  · rw [if_pos (by simp [on]), if_pos on, dom_modDom]
    rfl
  · rw [if_neg (by simpa using on), if_neg on]
    rfl

theorem startedCount_other (s : State) {k j : Nat} (other : j ≠ k) : dom (startedCount s k) j = dom s j := by
  unfold startedCount
  split
  · exact dom_modDom_other s _ other
  · rfl

theorem startedCount_runs (s : State) (k : Nat) : TimeRuns s (startedCount s k) := by
  unfold startedCount
  split
  · exact setDom_runs s k _
  · exact .refl s

theorem acquire_other (s : State) {k j : Nat} (other : j ≠ k) : dom (acquire s k) j = dom s j := by
  rw [acquire_eq, reselect_other _ other, startedCount_other s other]

theorem acquire_runs (s : State) (k : Nat) : TimeRuns s (acquire s k) := by
  rw [acquire_eq]
  exact (startedCount_runs s k).trans (reselect_runs _ k)

theorem acquire_counts (s : State) (k j : Nat) : CountsAlike (dom s j) (dom (acquire s k) j) := by
  by_cases here : j = k
  · subst here
    rw [acquire_eq]
    refine CountsAlike.trans ?_ (reselect_rechosen _ j).counts
    rw [startedCount_dom]
    exact ⟨rfl, rfl, rfl, rfl⟩
  · exact .of_eq (acquire_other s here)

theorem acquire_ntFine (s : State) (k : Nat) : ntFine (acquire s k) = ntFine s :=
  (acquire_runs s k).ntFine (acquire_counts s k)

/-- A domain has been returned to UNACQUIRED and its acquisition started (R315). -/
structure Reacquired (s t : State) (k : Nat) : Prop where
  state : (dom t k).state = 0
  exch : (dom t k).exch = []
  acqAt : (dom t k).acqAt = acquiredAt s k
  cands : (dom t k).cands = (dom s k).cands

theorem Reacquired.congr {s t u : State} {k : Nat} (h : Reacquired s t k) (same : dom u k = dom t k) : Reacquired s u k := by
  obtain ⟨state, exch, acqAt, cands⟩ := h
  rw [← same] at state exch acqAt cands
  exact ⟨state, exch, acqAt, cands⟩

theorem acquire_reacquires {m : Nat} {s u : State} {k : Nat} (fr : Fr m s u) (empty : dom u k = emptied (dom s k))
    (h1 : m.testBit 1 = false := by rfl) (h3 : m.testBit 3 = false := by rfl) (h17 : m.testBit 17 = false := by rfl) :
    Reacquired s (acquire u k) k := by
  have at_ : acquiredAt u k = acquiredAt s k := by
    unfold acquiredAt
    rw [fr.domEn k h1 h3, fr.domPps k h1 h3, perNow_congr (fr.now h17)]
  have started := startedCount_dom u k
  rw [at_, empty] at started
  have same := reselect_rechosen (startedCount u k) k
  rw [started] at same
  rw [acquire_eq]
  exact ⟨same.counts.state, same.exch, same.acqAt.trans (Option.or_none ..), same.cands⟩

/-- REACQ returns the domains that it names to UNACQUIRED (R315). -/
theorem timeReacq_spec {s : State} {f : Func} {ta tb : Bool} (may : mayWriteIn s f 3 = true) (named : (ta || tb) = true) :
    let t := timeReacq f ta tb s
    ntFine t = ntFine s ∧ t.tim.inForce = s.tim.inForce ∧ (ta = true → Reacquired s t 0) ∧ (tb = true → Reacquired s t 1) ∧
      (ta = false → dom t 0 = dom s 0) ∧ (tb = false → dom t 1 = dom s 1) := by
  intro t
  have run : t = forEach ((if ta then [0] else []) ++ (if tb then [1] else []))
      (unacquire s ((if ta then [0] else []) ++ (if tb then [1] else []))) acquire :=
    if_pos (by rw [may, named]; rfl)
  cases ta <;> cases tb
  · exact absurd named (by decide)
  · have run : t = acquire (unacquire s [1]) 1 := run
    rw [run]
    exact ⟨(acquire_ntFine _ 1).trans (unacquire_ntFine s _), (acquire_runs _ 1).force.trans (unacquire_inForce s _),
      nofun, fun _ => acquire_reacquires (unacquire_fr s _) (unacquire_dom s [1] 1),
      fun _ => (acquire_other _ (by decide)).trans (unacquire_dom s [1] 0), nofun⟩
  · have run : t = acquire (unacquire s [0]) 0 := run
    rw [run]
    exact ⟨(acquire_ntFine _ 0).trans (unacquire_ntFine s _), (acquire_runs _ 0).force.trans (unacquire_inForce s _),
      fun _ => acquire_reacquires (unacquire_fr s _) (unacquire_dom s [0] 0), nofun, nofun,
      fun _ => (acquire_other _ (by decide)).trans (unacquire_dom s [0] 1)⟩
  · have run : t = acquire (acquire (unacquire s [0, 1]) 0) 1 := run
    rw [run]
    exact ⟨((acquire_ntFine _ 1).trans (acquire_ntFine _ 0)).trans (unacquire_ntFine s _),
      ((acquire_runs _ 1).force.trans (acquire_runs _ 0).force).trans (unacquire_inForce s _),
      fun _ => (acquire_reacquires (unacquire_fr s _) (unacquire_dom s [0, 1] 0)).congr (acquire_other _ (by decide)),
      fun _ => acquire_reacquires (Fr.step (acquire_fr _ 0) (unacquire_fr s _))
        ((acquire_other _ (by decide)).trans (unacquire_dom s [0, 1] 1)), nofun, nofun⟩

/-! #### A domain that loses its master -/

theorem holdDom_dom (s : State) (k : Nat) : dom (holdDom s k) k =
    { dom s k with state := 3, goodRun := 0, measuring := false, probe := 0xFFF } := dom_modDom ..

theorem holdDom_other (s : State) {k j : Nat} (other : j ≠ k) : dom (holdDom s k) j = dom s j := dom_modDom_other s _ other

/-- A domain that goes to HOLDOVER is there, whatever NT does. -/
theorem enterHoldover_state (s : State) (k cause : Nat) : (dom (enterHoldover s k cause) k).state = 3 := by
  have held : (dom (settleNt (holdDom s k)) k).state = 3 := by rw [settleNt_dom, holdDom_dom]
  unfold enterHoldover
  dsimp only
  split
  · exact held
  · rw [(raiseEvent_fr _ _ _ _ _).dom k]
    exact held

/-- Without another domain that is LOCKED, TIME_HOLDOVER tells of it (R321). -/
theorem enterHoldover_told {s : State} {k cause : Nat} (small : k < 2) (unlocked : (dom s (1 - k)).state ≠ 2) :
    (enterHoldover s k cause).tim.sel = s.tim.sel ∧
      cntGet (enterHoldover s k cause) 0x802 = (cntGet s 0x802 + 1) % 2 ^ 64 := by
  have other : (dom (holdDom s k) (1 - (holdDom s k).tim.sel)).state ≠ 2 := by
    by_cases own : 1 - (holdDom s k).tim.sel = k
    · rw [own, holdDom_dom]
      exact fun no => absurd no (by decide : (3 : Nat) ≠ 2)
    · have : 1 - (holdDom s k).tim.sel = 1 - k := by omega
      rw [this, holdDom_other s (by omega)]
      exact unlocked
  unfold enterHoldover
  rw [settleNt_stays other]
  simp only [show (holdDom s k).tim.sel = s.tim.sel from rfl, ne_eq, not_true_eq_false, if_false]
  exact ⟨(congrArg Tim.sel ((raiseEvent_fr _ _ _ _ _).tim rfl)).trans rfl, by
    rw [raiseEvent_cnt _ _ _ _ _ _ (by decide), if_pos rfl]
    rfl⟩

/-- NT leaves a selected domain that goes to HOLDOVER for the other that is LOCKED (R322). -/
theorem enterHoldover_left {s : State} {k cause : Nat} (small : k < 2) (locked : (dom s (1 - k)).state = 2)
    (force : s.tim.inForce = true) (sel : s.tim.sel = k) : (enterHoldover s k cause).tim.sel = 1 - k ∧
      cntGet (enterHoldover s k cause) 0x801 = (cntGet s 0x801 + 1) % 2 ^ 64 := by
  have chosen : (holdDom s k).tim.sel = k := sel
  have leaves : settleNt (holdDom s k) = switchNt (holdDom s k) (1 - k) 1 := by
    rw [settleNt_leaves (s := holdDom s k) force (by rw [chosen, holdDom_dom])
      (by rw [chosen, holdDom_other s (by omega)]; exact locked), chosen]
  have away : (switchNt (holdDom s k) (1 - k) 1).tim.sel = 1 - k := by rw [switchNt_tim]
  unfold enterHoldover
  rw [leaves]
  simp only [away, sel]
  rw [if_pos (by omega)]
  exact ⟨away, by
    rw [switchNt_cnt _ _ _ (by decide), if_pos rfl]
    rfl⟩

end Sys2Proof.Machine


namespace Sys2Proof.Machine
set_option Elab.async false

/-! #### The write of TIME_DOM_CFG -/

/-- What a write of TIME_DOM_CFG that is taken does once the register holds its value. -/
def domCfgTaken (s t : State) (k : Nat) : State :=
  if domEn s k && !domEn t k then unacquire t [k]
  else if !domEn s k && domEn t k then acquire t k
  else if !domPps s k && domPps t k then reselect (modDom t k fun d => { d with lastEdge := some t.now }) k
  else reselect t k

theorem domCfgTaken_fr (s t : State) (k : Nat) : Fr 90116 t (domCfgTaken s t k) := by
  unfold domCfgTaken
  split
  · exact unacquire_fr t _
  · split
    · exact (acquire_fr t k).mono
    · split
      · exact (Fr.step (reselect_fr _ k) (modDom_fr t k _)).mono
      · exact (reselect_fr t k).mono

/-- A register written keeps its value over what leaves the registers alone. -/
theorem RegWritten.keep {m : Nat} {s x t : State} {off : Nat} {v : Word} (h : RegWritten s x off v) (fr : Fr m x t)
    (h1 : m.testBit 1 = false := by rfl) (h3 : m.testBit 3 = false := by rfl) : RegWritten s t off v :=
  fun o => (fr.getR o h1 h3).trans (h o)

theorem domCfgWrite_taken {s : State} {f : Func} {k : Nat} {v : Word} (may : mayWriteIn s f 3 = true)
    (one : ¬ (fld v 2 1 = 1 ∧ domPps s (1 - k) = true)) :
    domCfgWrite f k v s = domCfgTaken s (writeReg s (oDOM_CFG k) v) k := by
  unfold domCfgWrite
  exact if_neg (by simpa [may] using one)

theorem domCfgWrite_refused {s : State} {f : Func} {k : Nat} {v : Word}
    (refused : mayWriteIn s f 3 = false ∨ (fld v 2 1 = 1 ∧ domPps s (1 - k) = true)) : domCfgWrite f k v s = s := by
  unfold domCfgWrite
  refine if_pos ?_
  rcases refused with may | ⟨source, other⟩
  · simp [may]
  · simp [source, other]

/-- EN 0 makes a domain that was enabled UNACQUIRED (R314). -/
theorem domCfgTaken_off {s t : State} {k : Nat} (was : domEn s k = true) (off : domEn t k = false) :
    dom (domCfgTaken s t k) k = emptied (dom t k) := by
  have run : domCfgTaken s t k = unacquire t [k] := if_pos (by simp [was, off])
  rw [run, unacquire_dom, if_pos List.mem_cons_self]

theorem setFld_bit0 (v : Word) (k : Nat) : fld (setFld v 0 0 0) 2 1 = fld v 2 1 := by
  unfold setFld fld
  rw [BitVec.toNat_ofNat]
  have h := v.isLt
  simp only [Nat.shiftRight_eq_div_pow]
  omega

/-! #### Edges of PPS -/

/-- What an offset leaves of the domain that it drives. -/
structure Steered (d e : Dom) : Prop where
  offset : e.offset = d.offset
  lastEdge : e.lastEdge = d.lastEdge
  exch : e.exch = d.exch
  cands : e.cands = d.cands

theorem Steered.refl (d : Dom) : Steered d d := ⟨rfl, rfl, rfl, rfl⟩

theorem Steered.trans {d e f : Dom} (h : Steered d e) (g : Steered e f) : Steered d f :=
  ⟨g.offset.trans h.offset, g.lastEdge.trans h.lastEdge, g.exch.trans h.exch, g.cands.trans h.cands⟩

theorem Rechosen.steered {d e : Dom} (h : Rechosen d e) : Steered d e := ⟨h.offset, h.lastEdge, h.exch, h.cands⟩

theorem servo_steered (s : State) (k : Nat) (off : Int) : Steered (dom s k) (dom (servo s k off) k) := by
  unfold servo rebase
  rw [dom_modDom]
  exact ⟨rfl, rfl, rfl, rfl⟩

theorem followOffset_steered (s : State) (k : Nat) (off : Int) : Steered (dom s k) (dom (followOffset s k off) k) := by
  unfold followOffset
  rw [settleNt_dom, dom_modDom]
  exact (servo_steered s k off).trans ⟨rfl, rfl, rfl, rfl⟩

theorem measureOffset_steered (s : State) (k : Nat) (off : Int) : Steered (dom s k) (dom (measureOffset s k off) k) := by
  unfold measureOffset
  dsimp only
  split
  · refine Steered.trans ?_ (followOffset_steered _ k off)
    rw [dom_setDom]
    split
    · have h := (follow_rechosen (dom s k) (bestCand s k)).steered
      exact ⟨h.offset, h.lastEdge, h.exch, h.cands⟩
    · exact ⟨rfl, rfl, rfl, rfl⟩
  · rw [(raiseEvent_fr _ _ _ _ _).dom k, settleNt_dom, dom_modDom, holdDom_dom]
    exact ⟨rfl, rfl, rfl, rfl⟩

/-- An accepted edge is the domain's last one and gives its offset (R324). -/
theorem ppsAccept_spec (s : State) (k : Nat) (e : Int) :
    (dom (ppsAccept s k e) k).lastEdge = some s.now ∧ (dom (ppsAccept s k e) k).offset = e / 2 ^ 32 := by
  have noted : ∀ t, Steered (dom (modDom s k fun d => { d with lastEdge := some s.now, offset := e / 2 ^ 32 }) k) (dom t k) →
      (dom t k).lastEdge = some s.now ∧ (dom t k).offset = e / 2 ^ 32 := fun t h => by
    rw [dom_modDom] at h
    exact ⟨h.lastEdge, h.offset⟩
  unfold ppsAccept
  dsimp only
  split
  · split
    · exact noted _ (.refl _)
    · exact noted _ (measureOffset_steered _ k e)
  · exact noted _ (followOffset_steered _ k e)

/-! ##### A step -/

/-- A domain that has been stepped to a value. -/
def stepped (s : State) (v rate : Int) (d : Dom) : Dom :=
  { d with
    state := 1, base := v, per := perNow s, rate := rate, drift := rate, stepNeeded := false, goodRun := 0, acqAt := none,
    acq := [], measuring := false, probe := 0xFFF, lastSync := s.now }

/-- A step sets the domain, and NT is in force (R313). -/
theorem stepDom_spec (s : State) (k : Nat) (v rate : Int) :
    dom (stepDom s k v rate) k = stepped s v rate (dom s k) ∧ (stepDom s k v rate).tim.inForce = true := by
  have own : dom (modDom s k (stepped s v rate)) k = stepped s v rate (dom s k) := dom_modDom ..
  unfold stepDom
  extract_lets p t u
  split
  · exact ⟨own, rfl⟩
  · rename_i on
    have force : u.inForce = true := by simpa using on
    split
    · exact ⟨own, force⟩
    · split
      · exact ⟨((timeStepPlans_fr _).dom k).trans own, (congrArg Tim.inForce ((timeStepPlans_fr _).tim rfl)).trans force⟩
      · exact ⟨own, force⟩

theorem setFld_bit63 (w : Word) : (setFld w 63 63 0).toNat.testBit 63 = false := by
  unfold setFld fld
  rw [BitVec.toNat_ofNat, Nat.testBit_eq_decide_div_mod_eq]
  refine decide_eq_false ?_
  have h := w.isLt
  simp only [Nat.shiftRight_eq_div_pow]
  omega

theorem regInfo_ppsTod (v : Variant) (bl2 : Bool) : (regBits (regInfo v bl2 oPPS_TOD)).testBit 63 = true := by
  cases v <;> cases bl2 <;> decide

/-- The time of day has been used (R324). -/
theorem ppsTod_used (s : State) : bit (getR (setRf s oPPS_TOD 63 63 0) oPPS_TOD) 63 = false := by
  unfold setRf
  rw [bit_putR (regInfo_ppsTod _ _) (by decide), setFld_bit63]

/-- The time of day at the next edge. -/
def todValue (s : State) : Int := ((rf s oPPS_TOD 47 0 : Int) * 1000000000 + ppsDelay s + 1000) * 2 ^ 48

/-- The domain stepped to the time of day of the edge that has come. -/
def todStepped (s : State) (k : Nat) : State :=
  stepDom (trend (setRf s oPPS_TOD 63 63 0)).1 k (todValue s) (trend (setRf s oPPS_TOD 63 63 0)).2

theorem todStepped_spec (s : State) (k : Nat) :
    dom (modDom (todStepped s k) k fun d => { d with lastEdge := some s.now }) k =
      { stepped s (todValue s) (trend (setRf s oPPS_TOD 63 63 0)).2 (dom s k) with lastEdge := some s.now } ∧
    bit (getR (modDom (todStepped s k) k fun d => { d with lastEdge := some s.now }) oPPS_TOD) 63 = false ∧
    (modDom (todStepped s k) k fun d => { d with lastEdge := some s.now }).tim.inForce = true := by
  obtain ⟨own, force⟩ := stepDom_spec (trend (setRf s oPPS_TOD 63 63 0)).1 k (todValue s) (trend (setRf s oPPS_TOD 63 63 0)).2
  refine ⟨?_, ?_, force⟩
  · rw [dom_modDom, todStepped, own]
    rfl
  · have fr : Fr 93381 (setRf s oPPS_TOD 63 63 0) (modDom (todStepped s k) k fun d => { d with lastEdge := some s.now }) :=
      Fr.step (modDom_fr _ k _) (Fr.step (stepDom_fr _ k _ _) (trend_fr _).mono)
    rw [fr.getR oPPS_TOD]
    exact ppsTod_used s

end Sys2Proof.Machine


namespace Sys2Proof.Machine
set_option Elab.async false

/-! ##### The moment of an edge -/

theorem ppsEdge_taken {s : State} {k : Nat} (taken : ppsTaken s = true) (source : ppsDom s = some k)
    (on : bit (getR s oPPS_CFG) 40 = true) : ppsEdge s =
      if (dom s k).state = 0 then
        if bit (getR s oPPS_TOD) 63 then modDom (todStepped s k) k fun d => { d with lastEdge := some s.now } else s
      else if (ppsError s (domValue s k - 1000 * (2 ^ 48 + (dom s k).rate))).natAbs ≤ 50000 * 2 ^ 48 then
        ppsAccept s k (ppsError s (domValue s k - 1000 * (2 ^ 48 + (dom s k).rate)))
      else bump s (cMod 5) := by
  unfold ppsEdge
  rw [taken, source]
  simp only [on]
  rfl

/-- An edge is ignored without a domain for it, with its input off, and in PARKED and lower states (R407). -/
theorem ppsEdge_ignored {s : State} (h : ppsDom s = none ∨ bit (getR s oPPS_CFG) 40 = false ∨ ppsTaken s = false) :
    ppsEdge s = s := by
  unfold ppsEdge
  rcases h with none_ | off | no
  · rw [none_]
    exact ite_self s
  · rcases ppsDom s with _ | k
    · exact ite_self s
    · simp only [off, Bool.not_false, if_true, ite_self]
  · rw [no]
    rfl

/-- 3 s after its last edge a domain is in HOLDOVER (R325). -/
theorem ppsNoEdgeTimeout_held {s : State} {k : Nat} (source : ppsDom s = some k)
    (on : (dom s k).state = 1 ∨ (dom s k).state = 2) : (dom (ppsNoEdgeTimeout s) k).state = 3 ∧
      (ppsNoEdgeTimeout s).now = (awaitOpt s (dom s k).lastEdge (3 * secT)).now ∧
      cntGet (ppsNoEdgeTimeout s) 0x804 = (cntGet s 0x804 + 1) % 2 ^ 64 := by
  have run : ppsNoEdgeTimeout s =
      raiseEvent (settleNt (holdDom (awaitOpt s (dom s k).lastEdge (3 * secT)) k)) 0x804 0x7F k 0 := by
    unfold ppsNoEdgeTimeout
    rw [source]
    exact if_pos (by simpa using on)
  rw [run]
  have fr := raiseEvent_fr (settleNt (holdDom (awaitOpt s (dom s k).lastEdge (3 * secT)) k)) 0x804 0x7F k 0
  refine ⟨?_, ?_, ?_⟩
  · rw [fr.dom k, settleNt_dom, holdDom_dom]
  · rw [fr.now rfl, settleNt_now]
    rfl
  · rw [raiseEvent_cnt _ _ _ _ _ _ (by decide), if_pos rfl, settleNt_cnt _ (by decide) (by decide),
      cntGet_congr ((holdDom_fr _ k).cnt rfl), cntGet_congr ((awaitOpt_fr s (dom s k).lastEdge (3 * secT)).cnt rfl)]

theorem ppsNoEdgeTimeout_idle {s : State} (h : ∀ k, ppsDom s = some k → (dom s k).state ≠ 1 ∧ (dom s k).state ≠ 2) :
    ppsNoEdgeTimeout s = s := by
  unfold ppsNoEdgeTimeout
  rcases source : ppsDom s with _ | k
  · rfl
  · exact if_neg (by simpa using h k source)

/-- NT is awaited, the pin rises, and the moment is kept. -/
theorem ppsOutRise_on {s : State} (out : bit (getR s oPPS_CFG) 41 = true) (force : s.tim.inForce = true)
    (low : s.pwr.ppsOut = false) : ppsOutRise s =
      { awaitNt s (ceilDiv (ntWhole s).toNat 1000000000 * 1000000000) with
        pwr := { s.pwr with ppsOut := true }
        tim := { s.tim with ppsHigh := some (awaitNt s (ceilDiv (ntWhole s).toNat 1000000000 * 1000000000)).now } } := by
  unfold ppsOutRise
  rw [if_pos (by rw [out, force, low]; rfl)]
  dsimp only
  rw [awaitNt_pwr, awaitNt_tim]

theorem ppsOutRise_off {s : State}
    (off : bit (getR s oPPS_CFG) 41 = false ∨ s.tim.inForce = false ∨ s.pwr.ppsOut = true) : ppsOutRise s = s := by
  unfold ppsOutRise
  refine if_neg ?_
  rcases off with h | h | h <;> simp [h]

theorem ppsOutFall_on {s : State} {a : Nat} (high : s.pwr.ppsOut = true) (since : s.tim.ppsHigh = some a) :
    ppsOutFall s = { await s a (rf s oPPS_CFG 39 32 * msT) with
      pwr := { s.pwr with ppsOut := false }, tim := { s.tim with ppsHigh := none } } := by
  unfold ppsOutFall
  rw [if_pos (by rw [high, since]; rfl), since]
  rfl

theorem ppsOutFall_off {s : State} (off : s.pwr.ppsOut = false ∨ s.tim.ppsHigh = none) : ppsOutFall s = s := by
  unfold ppsOutFall
  refine if_neg ?_
  rcases off with h | h <;> simp [h]

/-! ##### The driver's switch, and a master that is lost -/

theorem timeSwitch_taken {s : State} {f : Func} (may : mayWriteIn s f 3 = true) (force : s.tim.inForce = true)
    (locked : (dom s (1 - s.tim.sel)).state = 2) : timeSwitch f s = switchNt s (1 - s.tim.sel) 3 :=
  if_pos (by rw [may, force, locked]; rfl)

theorem timeSwitch_refused {s : State} {f : Func}
    (refused : mayWriteIn s f 3 = false ∨ s.tim.inForce = false ∨ (dom s (1 - s.tim.sel)).state ≠ 2) :
    timeSwitch f s = s := by
  refine if_neg ?_
  rcases refused with h | h | h <;> simp [h]

theorem timeMasterLost_held {s : State} {k : Nat} (small : k < 2) (links : domPps s k = false)
    (on : (dom s k).state = 1 ∨ (dom s k).state = 2) :
    timeMasterLost k s = enterHoldover (await s (dom s k).lastSync (3 * syncT s)) k 1 :=
  if_pos (by simpa [small, links] using on)

theorem timeMasterLost_idle {s : State} {k : Nat}
    (idle : domPps s k = true ∨ ((dom s k).state ≠ 1 ∧ (dom s k).state ≠ 2)) : timeMasterLost k s = s := by
  refine if_neg ?_
  rcases idle with h | ⟨one, two⟩
  · simp [h]
  · simp [one, two]

theorem exec_ppsOutRise_changes {s t : State} (h : exec .ppsOutRise s = .next t) : OnlyChanges [.pwr, .tim, .clock] s t :=
  (ppsOutRise_exec_fr s t h).onlyChanges _

theorem exec_ppsOutFall_changes {s t : State} (h : exec .ppsOutFall s = .next t) : OnlyChanges [.pwr, .tim, .clock] s t :=
  (ppsOutFall_exec_fr s t h).onlyChanges _

/-- Settles O56: a step of one domain, seen through `CountsAlike` and `TimeRuns`, leaves the other domain and NT. -/
theorem timeSwitchedAndPulsed : Obligations.TimeSwitchedAndPulsed := by
  unfold Obligations.TimeSwitchedAndPulsed
  intro s f k
  refine ⟨fun may force locked => ?_, fun refused => congrArg Host.Outcome.next (timeSwitch_refused refused),
    fun ta tb may named => ?_, fun v small => ⟨fun may one => ?_, fun refused => ?_⟩, fun small links on => ?_,
    fun idle => congrArg Host.Outcome.next (timeMasterLost_idle idle), fun none_ => ⟨?_, ?_⟩, fun e source error => ?_,
    fun out force low => ?_, fun off => congrArg Host.Outcome.next (ppsOutRise_off off), fun a high since => ?_,
    fun off => congrArg Host.Outcome.next (ppsOutFall_off off)⟩
  · have tim := switchNt_tim s (1 - s.tim.sel) 3
    exact ⟨_, congrArg Host.Outcome.next (timeSwitch_taken may force locked), by rw [tim], switchNt_ntFine s _ 3 force,
      by rw [tim], by rw [switchNt_cnt s _ 3 (by decide), if_pos rfl]⟩
  · obtain ⟨fine, force, first, second, otherA, otherB⟩ := timeReacq_spec may named
    exact ⟨_, rfl, fine, force, fun on => ⟨(first on).state, (first on).exch, (first on).acqAt, (first on).cands⟩,
      fun on => ⟨(second on).state, (second on).exch, (second on).acqAt, (second on).cands⟩, otherA, otherB⟩
  · have run : timeDomainDisable f k v s = domCfgTaken s (writeReg s (oDOM_CFG k) (setFld v 0 0 0)) k :=
      (if_pos small).trans (domCfgWrite_taken may (by rw [setFld_bit0 v k]; exact one))
    refine ⟨_, congrArg Host.Outcome.next run, (writeReg_written s _ _).keep (domCfgTaken_fr s _ k), fun was off => ?_⟩
    rw [domCfgTaken_off was (((domCfgTaken_fr s _ k).domEn k).symm.trans off)]
    exact ⟨rfl, rfl⟩
  · refine congrArg Host.Outcome.next ((if_pos small).trans (domCfgWrite_refused ?_))
    rwa [setFld_bit0 v k]
  · refine ⟨_, congrArg Host.Outcome.next (timeMasterLost_held small links on),
      ((enterHoldover_fr _ k 1).now rfl).trans rfl, enterHoldover_state _ k 1, fun unlocked => ?_, fun locked force sel => ?_⟩
    · exact enterHoldover_told (s := await s _ _) small unlocked
    · exact enterHoldover_left (s := await s _ _) small locked force sel
  · exact congrArg Host.Outcome.next (ppsEdge_ignored (.inl none_))
  · exact congrArg Host.Outcome.next (ppsNoEdgeTimeout_idle fun k source => by rw [none_] at source; cases source)
  · refine ⟨fun ignored => congrArg Host.Outcome.next (ppsEdge_ignored (.inr ignored)), fun on taken => ?_,
      fun state => ?_, fun one two => congrArg Host.Outcome.next (ppsNoEdgeTimeout_idle fun j at_ => ?_)⟩
    · have run := ppsEdge_taken taken source on
      rw [← error] at run
      refine ⟨fun zero unset => ?_, fun zero isSet => ?_, fun active near => ?_, fun active far => ?_⟩
      · exact congrArg Host.Outcome.next (run.trans (by rw [if_pos zero, if_neg (by simp [unset])]))
      · obtain ⟨own, used, force⟩ := todStepped_spec s k
        rw [if_pos zero, if_pos isSet] at run
        exact ⟨_, congrArg Host.Outcome.next run, by rw [own]; rfl, by rw [own], by rw [own]; rfl, by rw [own]; rfl, used, force⟩
      · rw [if_neg active, if_pos near] at run
        exact ⟨_, congrArg Host.Outcome.next run, (ppsAccept_spec s k e).1, (ppsAccept_spec s k e).2⟩
      · rw [if_neg active, if_neg (by omega)] at run
        exact ⟨_, congrArg Host.Outcome.next run, (bump_fr s _).onlyChanges _, (cntGet_bump_own s _ _).trans (if_pos rfl)⟩
    · obtain ⟨held, now, count⟩ := ppsNoEdgeTimeout_held source state
      refine ⟨_, rfl, held, now.trans ?_, count⟩
      cases (dom s k).lastEdge <;> rfl
    · rw [source] at at_
      cases at_
      exact ⟨one, two⟩
  · have run : exec .ppsOutRise s = .next _ := congrArg Host.Outcome.next (ppsOutRise_on out force low)
    exact ⟨_, run, rfl, rfl, rfl, exec_ppsOutRise_changes run⟩
  · have run : exec .ppsOutFall s = .next _ := congrArg Host.Outcome.next (ppsOutFall_on high since)
    exact ⟨_, run, rfl, rfl, rfl, exec_ppsOutFall_changes run⟩

end Sys2Proof.Machine


/-! ### O55: the master that a domain follows -/

namespace Sys2Proof.Machine
set_option Elab.async false

/-! #### The best candidate -/

theorem Fr.linkUp {m : Nat} {s t : State} (h : Fr m s t) (l : Nat) (h6 : m.testBit 6 = false := by rfl) :
    linkUp t l = linkUp s l := by
  unfold Machine.linkUp upLanes laneUp
  simp only [h.lane _ h6]

theorem Fr.slavePort {m : Nat} {s t : State} (h : Fr m s t) (k l : Nat) (h1 : m.testBit 1 = false := by rfl)
    (h3 : m.testBit 3 = false := by rfl) (h6 : m.testBit 6 = false := by rfl) : slavePort t k l = slavePort s k l := by
  unfold Machine.slavePort permitted timeLink
  rw [h.domEn k h1 h3, h.domPps k h1 h3, h.getR _ h1 h3, h.linkUp l h6, h.link l h6]

theorem Fr.candOk {m : Nat} {s t : State} (h : Fr m s t) (k l : Nat) (c : Cand) (h1 : m.testBit 1 = false := by rfl)
    (h3 : m.testBit 3 = false := by rfl) (h6 : m.testBit 6 = false := by rfl) (h17 : m.testBit 17 = false := by rfl) :
    candOk t k l c = candOk s k l c := by
  unfold Machine.candOk syncT rf
  rw [h.slavePort k l h1 h3 h6, h.now h17, h.getR _ h1 h3]

/-- The best of some candidates is one of them. -/
theorem foldl_best_mem (l : List (Nat × Cand)) (b : Option (Nat × Cand)) (x : Nat × Cand)
    (best : l.foldl (fun b e => match b with
      | none => some e
      | some x => if candLt e x then some e else some x) b = some x) : x ∈ l ∨ b = some x := by
  induction l generalizing b with
  | nil => exact .inr best
  | cons a l ih =>
    rcases ih _ best with later | now
    · exact .inl (List.mem_cons_of_mem _ later)
    · cases b with
      | none => exact .inl (by cases now; exact List.mem_cons_self)
      | some y =>
        dsimp only at now
        split at now <;> cases now
        · exact .inl List.mem_cons_self
        · exact .inr rfl

theorem bestOf_admits {s : State} {k : Nat} {p : Cand → Bool} {e : Nat × Cand} (best : bestOf s k p = some e) :
    p e.2 = true := by
  have member : e ∈ (dom s k).cands.filter fun e => candOk s k e.1 e.2 && p e.2 :=
    (foldl_best_mem _ none e best).resolve_right nofun
  exact (Bool.and_eq_true_iff.1 (List.mem_filter.1 member).2).2

theorem bestOf_congr {m : Nat} {s t : State} (fr : Fr m s t) {k : Nat} (cands : (dom t k).cands = (dom s k).cands)
    (p : Cand → Bool) (h1 : m.testBit 1 = false := by rfl) (h3 : m.testBit 3 = false := by rfl)
    (h6 : m.testBit 6 = false := by rfl) (h17 : m.testBit 17 = false := by rfl) : bestOf t k p = bestOf s k p := by
  unfold bestOf
  rw [cands]
  simp only [fr.candOk k _ _ h1 h3 h6 h17]

/-- The choice leaves who is the best. -/
theorem bestCand_reselect (s : State) (k : Nat) : bestCand (reselect s k) k = bestCand s k :=
  bestOf_congr (reselect_fr s k) (reselect_rechosen s k).cands _

/-! #### What a choice follows -/

theorem reselect_none {s : State} {k : Nat} (none_ : bestCand s k = none) :
    dom (reselect s k) k = { follow (dom s k) none with measuring := false, probe := 0xFFF } := by
  unfold reselect
  rw [none_]
  exact dom_setDom ..

/-- The master that is followed already, or that an UNACQUIRED domain takes (R317). -/
theorem reselect_takes {s : State} {k : Nat} {e : Nat × Cand} (best : bestCand s k = some e)
    (taken : e.2.identity = (dom s k).gm ∨ (dom s k).state = 0) :
    (dom (reselect s k) k).upstream = e.1 ∧ (dom (reselect s k) k).gm = e.2.identity := by
  unfold reselect
  rw [best]
  dsimp only
  split
  · rw [dom_setDom]
    exact ⟨rfl, rfl⟩
  · rename_i other
    rw [if_pos (taken.resolve_left (other ·.symm)), dom_setDom]
    exact ⟨rfl, rfl⟩

theorem follow_own (d : Dom) (c : Option (Nat × Cand)) (own : ∀ e, c = some e → e.2.identity = d.gm) :
    (follow d c).gm = d.gm := by
  cases c with
  | none => rfl
  | some e => exact own e rfl

/-- Any other domain keeps its grandmaster and measures the best (R321). -/
theorem reselect_measures {s : State} {k : Nat} {e : Nat × Cand} (best : bestCand s k = some e)
    (other : e.2.identity ≠ (dom s k).gm) (acquired : (dom s k).state ≠ 0) :
    (dom (reselect s k) k).gm = (dom s k).gm ∧ (dom (reselect s k) k).measuring = !(dom s k).stepNeeded ∧
      ((dom s k).stepNeeded = false → (dom (reselect s k) k).probe = e.1) := by
  have own : ∀ x, bestOf s k (fun x => x.identity == (dom s k).gm) = some x → x.2.identity = (dom s k).gm :=
    fun x h => beq_iff_eq.1 (bestOf_admits h)
  unfold reselect
  rw [best]
  dsimp only
  rw [if_neg (other ·.symm), if_neg acquired, dom_setDom]
  exact ⟨follow_own _ _ own, rfl, fun free => by rw [free]; rfl⟩

/-- After a choice the domain follows the best, or measures it (R317, R321). -/
theorem reselect_follows {s x : State} {k : Nat} (gm : (dom x k).gm = (dom s k).gm) (state : (dom x k).state = (dom s k).state)
    (step : (dom x k).stepNeeded = (dom s k).stepNeeded) : FollowsBest s (reselect x k) k := by
  unfold FollowsBest
  rw [bestCand_reselect, ← gm, ← state, ← step]
  cases best : bestCand x k with
  | none =>
    rw [reselect_none best]
    exact ⟨rfl, rfl⟩
  | some e =>
    dsimp only
    split
    · rename_i taken
      exact reselect_takes best taken
    · rename_i kept
      exact reselect_measures best (fun same => kept (.inl same)) fun zero => kept (.inr zero)

/-! #### Reads of the time, and the sets of a master -/

theorem timeNowRead_answers {s : State} {f : Func} (may : mayReadMain s f = true) (locked : pllLost s 3 = false) :
    timeNowRead f s = emit { s with tim := { s.tim with nowHi := ntSeconds s } } (.readData f (timeNowLo s)) := by
  obtain ⟨reaches, alive⟩ := Bool.and_eq_true_iff.1 may
  unfold timeNowRead
  simp only [reaches, alive, locked]
  rfl

theorem timeNowRead_lost {s : State} {f : Func} (may : mayReadMain s f = true) (lost : pllLost s 3 = true) :
    timeNowRead f s = emit s (.readData f (BitVec.allOnes 64)) := by
  obtain ⟨reaches, alive⟩ := Bool.and_eq_true_iff.1 may
  unfold timeNowRead
  simp only [reaches, alive, lost]
  rfl

theorem timeNowRead_dead {s : State} {f : Func} (reaches : readReaches s f = true) (dead : mainAlive s = false) :
    timeNowRead f s = emit s (.readData f 0) := by
  unfold timeNowRead
  simp only [reaches, dead]
  rfl

theorem timeNowRead_unreached {s : State} {f : Func} (no : readReaches s f = false) : timeNowRead f s = s := by
  unfold timeNowRead
  rw [no]
  rfl

/-- The next SEQ of a port has been taken, and the moment at which TIME_SYNC leaves it kept. -/
def syncNoted (s : State) (l k : Nat) : State :=
  { s with tim := { s.tim with
    syncSeq := tset 0 s.tim.syncSeq (2 * l + k) ((tget 0 s.tim.syncSeq (2 * l + k) + 1) % 128)
    syncAt := tset 0 s.tim.syncAt (2 * l + k) (s.now + 1) } }

/-- The same of TIME_ANNOUNCE. -/
def annNoted (s : State) (l k : Nat) : State :=
  { s with tim := { s.tim with
    syncSeq := tset 0 s.tim.syncSeq (2 * l + k) ((tget 0 s.tim.syncSeq (2 * l + k) + 1) % 128)
    annAt := tset 0 s.tim.annAt (2 * l + k) (s.now + 1) } }

theorem firstUp_of {s : State} {l u : Nat} {rest : List Nat} (up : upLanes s l = u :: rest) : firstUp s l = some u := by
  unfold firstUp
  rw [up]
  rfl

theorem timeSyncSend_due {s : State} {l k u : Nat} {rest : List Nat} (small : k < 2) (master : masterPort s k l = true)
    (up : upLanes s l = u :: rest) (due : sentDue s (tget 0 s.tim.syncAt (2 * l + k)) (syncT s) = true) :
    timeSyncSend l k s =
      queueOs (syncNoted s l k) u osTIME_SYNC (timeBody k (tget 0 s.tim.syncSeq (2 * l + k)) 0) := by
  have run : timeSyncSend l k s = (match firstUp (syncNoted s l k) l with
    | some q => queueOs (syncNoted s l k) q osTIME_SYNC (timeBody k (tget 0 s.tim.syncSeq (2 * l + k)) 0)
    | none => syncNoted s l k) := if_pos (by simp [small, master, due])
  rw [run, show firstUp (syncNoted s l k) l = some u from firstUp_of up]

theorem timeAnnounceSend_due {s : State} {l k u : Nat} {rest : List Nat} (small : k < 2) (master : masterPort s k l = true)
    (up : upLanes s l = u :: rest) (due : sentDue s (tget 0 s.tim.annAt (2 * l + k)) (8 * syncT s) = true) :
    timeAnnounceSend l k s = sendOs (annNoted s l k) u osTIME_ANNOUNCE
      (mkBody [at_ 103 k, at_ 96 (tget 0 s.tim.syncSeq (2 * l + k)), at_ 88 (announced s k).1,
        at_ 80 (announced s k).2.1, at_ 16 ((announced s k).2.2 % 2 ^ 64)]) := by
  have run : timeAnnounceSend l k s = (match firstUp (annNoted s l k) l with
    | some q => sendOs (annNoted s l k) q osTIME_ANNOUNCE
      (mkBody [at_ 103 k, at_ 96 (tget 0 s.tim.syncSeq (2 * l + k)), at_ 88 (announced s k).1,
        at_ 80 (announced s k).2.1, at_ 16 ((announced s k).2.2 % 2 ^ 64)])
    | none => annNoted s l k) := if_pos (by simp [small, master, due])
  rw [run, show firstUp (annNoted s l k) l = some u from firstUp_of up]

theorem timeSyncSend_waits {s : State} {l k : Nat}
    (waits : masterPort s k l = false ∨ sentDue s (tget 0 s.tim.syncAt (2 * l + k)) (syncT s) = false) :
    timeSyncSend l k s = s := by
  refine if_neg ?_
  rcases waits with h | h <;> simp [h]

theorem timeAnnounceSend_waits {s : State} {l k : Nat}
    (waits : masterPort s k l = false ∨ sentDue s (tget 0 s.tim.annAt (2 * l + k)) (8 * syncT s) = false) :
    timeAnnounceSend l k s = s := by
  refine if_neg ?_
  rcases waits with h | h <;> simp [h]

theorem queueOs_osOut (s : State) (q type : Nat) (body : BitVec 104) :
    (lane (queueOs s q type body) q).osOut = (lane s q).osOut ++ [(type, body)] := by
  rw [queueOs, lane_modLane]

/-- The one set that leaves is stamped with the time of its domain (R82, R319). -/
theorem stampSets_one {s : State} {q : Nat} {o : Nat × BitVec 104} (only : (lane s q).osOut = [o])
    (stamped : o.1 = osTIME_SYNC ∨ o.1 = osTIME_DELAY_REQ) :
    (stampSets s q).2 = [(o.1, timeBody (osDom o.2) (osSeq o.2) (stampNow s (osDom o.2)))] := by
  unfold stampSets
  rw [only]
  simp only [List.take_succ_cons, List.take_nil, List.foldl_cons, List.foldl_nil]
  unfold stampOne
  dsimp only
  rw [if_neg (by tauto)]
  rfl

end Sys2Proof.Machine


/-! ### O55: exchanges of a slave -/

namespace Sys2Proof.Machine
set_option Elab.async false

theorem stampNow_congr {s t : State} {k : Nat} (now : t.now = s.now) (same : CountsAlike (dom s k) (dom t k))
    (acqAt : (dom t k).acqAt = (dom s k).acqAt) : stampNow t k = stampNow s k := by
  unfold stampNow provisional
  simp only [same.state, acqAt, perNow_congr now, domValue_congr now same]

/-! #### An announce -/

/-- What an announce says of the link's grandmaster (R317). -/
def announcedCand (s : State) (k l : Nat) (b : BitVec 104) : Cand :=
  { at_ := s.now, priority := bf b 95 88, cls := bf b 87 80, identity := bf b 79 16,
    delay := (tget noCand (dom s k).cands l).delay }

/-- The announce is the link's last one. -/
def announceKept (s : State) (k l : Nat) (b : BitVec 104) : State :=
  modDom s k fun d => { d with cands := tset noCand d.cands l (announcedCand s k l b) }

theorem timeAnnounceReceive_slave {s : State} {q : Nat} {b : BitVec 104} (up : laneUp s q = true)
    (slave : slavePort s (osDom b) (linkOf q) = true) :
    timeAnnounceReceive q b s = reselect (announceKept s (osDom b) (linkOf q) b) (osDom b) := by
  unfold timeAnnounceReceive
  simp only [up, slave]
  rfl

theorem announceKept_spec (s : State) (k l : Nat) (b : BitVec 104) :
    tget noCand (dom (reselect (announceKept s k l b) k) k).cands l = announcedCand s k l b ∧
      FollowsBest s (reselect (announceKept s k l b) k) k ∧
      (dom (reselect (announceKept s k l b) k) k).state = (dom s k).state := by
  have kept : dom (announceKept s k l b) k =
      { dom s k with cands := tset noCand (dom s k).cands l (announcedCand s k l b) } := dom_modDom ..
  have same := reselect_rechosen (announceKept s k l b) k
  refine ⟨?_, reselect_follows (by rw [kept]) (by rw [kept]) (by rw [kept]), ?_⟩
  · rw [same.cands, kept]
    exact tget_tset_same ..
  · rw [same.counts.state, kept]

/-- A link that has announced nothing for 8 sync intervals has lapsed. -/
def announceLapsed (s : State) (k l : Nat) (e : Nat × Cand) : State :=
  setDom (await s e.2.at_ (8 * syncT s)) k
    { dom s k with cands := tset noCand (dom s k).cands l { e.2 with lapsed := true } }

theorem timeAnnounceExpiry_some {s : State} {l k : Nat} {e : Nat × Cand} (small : k < 2)
    (found : (dom s k).cands.find? (fun e => e.1 == l) = some e) :
    timeAnnounceExpiry l k s = reselect (announceLapsed s k l e) k := by
  unfold timeAnnounceExpiry
  dsimp only
  rw [found]
  exact if_pos small

theorem timeAnnounceExpiry_none {s : State} {l k : Nat} (none_ : (dom s k).cands.find? (fun e => e.1 == l) = none) :
    timeAnnounceExpiry l k s = s := by
  unfold timeAnnounceExpiry
  dsimp only
  rw [none_]

theorem announceLapsed_spec (s : State) (k l : Nat) (e : Nat × Cand) :
    (reselect (announceLapsed s k l e) k).now = max s.now (e.2.at_ + 8 * syncT s) ∧
      (dom (reselect (announceLapsed s k l e) k) k).cands = tset noCand (dom s k).cands l { e.2 with lapsed := true } ∧
      FollowsBest s (reselect (announceLapsed s k l e) k) k := by
  have lapsed : dom (announceLapsed s k l e) k =
      { dom s k with cands := tset noCand (dom s k).cands l { e.2 with lapsed := true } } := dom_setDom ..
  refine ⟨((reselect_fr _ k).now rfl).trans rfl, ?_,
    reselect_follows (by rw [lapsed]) (by rw [lapsed]) (by rw [lapsed])⟩
  rw [(reselect_rechosen _ k).cands, lapsed]

/-! #### TIME_SYNC -/

/-- TIME_SYNC of the grandmaster that a domain follows is syncHeard (R321). -/
def syncHeard (s : State) (k : Nat) (e : Nat × Cand) : State :=
  if e.2.identity = (dom s k).gm then modDom s k fun d => { d with lastSync := s.now } else s

/-- The first TIME_SYNC of the chosen master starts the provisional count (R315). -/
def countStarted (s x : State) (k : Nat) : State :=
  if (dom s k).state = 0 ∧ (dom s k).acqAt.isNone then modDom x k fun d => { d with acqAt := some (perNow x) } else x

/-- A candidate's TIME_SYNC is taken: the master chosen again, the sync heard and the count started. -/
def syncTaken (s : State) (k : Nat) (e : Nat × Cand) : State :=
  countStarted (reselect s k) (syncHeard (reselect s k) k e) k

/-- An exchange is in progress from the time at which TIME_SYNC came. -/
def exchBegun (x : State) (q : Nat) (b : BitVec 104) : State :=
  modDom x (osDom b) fun d => { d with
    exch := d.exch ++ [(osSeq b, tsDec (bf b 95 0), stampNow x (osDom b), stampNow x (osDom b), linkOf q, x.now)] }

/-- TIME_DELAY_REQ asks for the answer. -/
def asked (x : State) (q : Nat) (b : BitVec 104) : State :=
  queueOs (exchBegun x q b) q osTIME_DELAY_REQ (timeBody (osDom b) (osSeq b) 0)

theorem timeSyncReceive_eq {s : State} {q : Nat} {b : BitVec 104} {e : Nat × Cand} (up : laneUp s q = true)
    (slave : slavePort s (osDom b) (linkOf q) = true)
    (found : (dom (reselect s (osDom b)) (osDom b)).cands.find? (fun e => e.1 == linkOf q) = some e) :
    timeSyncReceive q b s =
      let y := reselect s (osDom b)
      let d := dom y (osDom b)
      let x := syncHeard y (osDom b) e
      if !candOk x (osDom b) (linkOf q) e.2 || (d.state == 0 && d.acqAt.isNone && d.upstream != linkOf q) then x
      else asked (countStarted y x (osDom b)) q b := by
  unfold timeSyncReceive
  simp only [up, slave, found]
  rfl

theorem syncHeard_fr (s : State) (k : Nat) (e : Nat × Cand) : Fr 8192 s (syncHeard s k e) := by
  unfold syncHeard
  split
  · exact modDom_fr s k _
  · exact .refl _ s

theorem countStarted_fr (s x : State) (k : Nat) : Fr 8192 x (countStarted s x k) := by
  unfold countStarted
  split
  · exact modDom_fr x k _
  · exact .refl _ x

theorem exchBegun_fr (x : State) (q : Nat) (b : BitVec 104) : Fr 8192 x (exchBegun x q b) := modDom_fr _ _ _

/-- A sync that is heard changes nothing else of its domain. -/
theorem syncHeard_same (s : State) (k : Nat) (e : Nat × Cand) : (dom (syncHeard s k e) k).state = (dom s k).state ∧
    (dom (syncHeard s k e) k).exch = (dom s k).exch := by
  unfold syncHeard
  split
  · rw [dom_modDom]
    exact ⟨rfl, rfl⟩
  · exact ⟨rfl, rfl⟩

theorem syncHeard_lastSync {s : State} {k : Nat} {e : Nat × Cand} (own : e.2.identity = (dom s k).gm) :
    (dom (syncHeard s k e) k).lastSync = s.now := by
  rw [syncHeard, if_pos own, dom_modDom]

theorem countStarted_same (s x : State) (k : Nat) : (dom (countStarted s x k) k).state = (dom x k).state ∧
    (dom (countStarted s x k) k).exch = (dom x k).exch ∧ (dom (countStarted s x k) k).lastSync = (dom x k).lastSync := by
  unfold countStarted
  split
  · rw [dom_modDom]
    exact ⟨rfl, rfl, rfl⟩
  · exact ⟨rfl, rfl, rfl⟩

theorem exchBegun_dom (x : State) (q : Nat) (b : BitVec 104) : dom (exchBegun x q b) (osDom b) =
    { dom x (osDom b) with exch := (dom x (osDom b)).exch ++
        [(osSeq b, tsDec (bf b 95 0), stampNow x (osDom b), stampNow x (osDom b), linkOf q, x.now)] } := dom_modDom ..

theorem asked_dom (x : State) (q : Nat) (b : BitVec 104) :
    dom (asked x q b) (osDom b) = dom (exchBegun x q b) (osDom b) :=
  (queueOs_fr _ q _ _).dom _

theorem asked_osOut (x : State) (q : Nat) (b : BitVec 104) : (lane (asked x q b) q).osOut =
    (lane x q).osOut ++ [(osTIME_DELAY_REQ, timeBody (osDom b) (osSeq b) 0)] := by
  rw [asked, queueOs_osOut, (exchBegun_fr x q b).lane q]

theorem asked_stamp (x : State) (q : Nat) (b : BitVec 104) :
    stampNow (asked x q b) (osDom b) = stampNow x (osDom b) := by
  have own := (asked_dom x q b).trans (exchBegun_dom x q b)
  exact stampNow_congr (((queueOs_fr _ q _ _).now rfl).trans rfl) (by rw [own]; exact ⟨rfl, rfl, rfl, rfl⟩) (by rw [own])

/-- The exchange is in progress, and those that were are. -/
theorem asked_exch (x : State) (q : Nat) (b : BitVec 104) :
    (dom (asked x q b) (osDom b)).exch = (dom x (osDom b)).exch ++
      [(osSeq b, tsDec (bf b 95 0), stampNow (asked x q b) (osDom b), stampNow (asked x q b) (osDom b), linkOf q, x.now)] := by
  rw [asked_stamp, asked_dom, exchBegun_dom]

/-- TIME_SYNC of the domain's own grandmaster keeps it heard, whether an exchange starts or not. -/
theorem timeSyncReceive_heard {s : State} {q : Nat} {b : BitVec 104} {e : Nat × Cand} (up : laneUp s q = true)
    (slave : slavePort s (osDom b) (linkOf q) = true)
    (found : (dom (reselect s (osDom b)) (osDom b)).cands.find? (fun e => e.1 == linkOf q) = some e)
    (own : e.2.identity = (dom (reselect s (osDom b)) (osDom b)).gm) :
    (dom (timeSyncReceive q b s) (osDom b)).lastSync = s.now := by
  have last := (syncHeard_lastSync own).trans ((reselect_fr s (osDom b)).now rfl)
  rw [timeSyncReceive_eq up slave found]
  dsimp only
  split
  · exact last
  · rw [asked_dom, exchBegun_dom, (countStarted_same _ _ _).2.2]
    exact last

/-- A candidate that the domain may measure is asked (R319). -/
theorem timeSyncReceive_asks {s : State} {q : Nat} {b : BitVec 104} {e : Nat × Cand} (up : laneUp s q = true)
    (slave : slavePort s (osDom b) (linkOf q) = true)
    (found : (dom (reselect s (osDom b)) (osDom b)).cands.find? (fun e => e.1 == linkOf q) = some e)
    (ok : candOk s (osDom b) (linkOf q) e.2 = true)
    (may : (dom s (osDom b)).state ≠ 0 ∨ (dom (reselect s (osDom b)) (osDom b)).acqAt.isSome = true ∨
      (dom (reselect s (osDom b)) (osDom b)).upstream = linkOf q) :
    timeSyncReceive q b s = asked (syncTaken s (osDom b) e) q b := by
  rw [timeSyncReceive_eq up slave found]
  dsimp only
  have still : candOk (syncHeard (reselect s (osDom b)) (osDom b) e) (osDom b) (linkOf q) e.2 = true :=
    ((Fr.step (syncHeard_fr _ _ e) (reselect_fr s (osDom b))).candOk ..).trans ok
  refine if_neg ?_
  rw [still, (reselect_rechosen s (osDom b)).counts.state]
  rcases may with active | started | chosen
  · simp [active]
  · simp [Option.isSome_iff_ne_none.1 started]
  · simp [chosen]

/-- What the candidate's exchange leaves. -/
theorem asks_spec {s t : State} {q : Nat} {b : BitVec 104} {e : Nat × Cand}
    (run : t = asked (syncTaken s (osDom b) e) q b) :
    (lane t q).osOut = (lane s q).osOut ++ [(osTIME_DELAY_REQ, timeBody (osDom b) (osSeq b) 0)] ∧
      (dom t (osDom b)).exch = (dom s (osDom b)).exch ++
        [(osSeq b, tsDec (bf b 95 0), stampNow t (osDom b), stampNow t (osDom b), linkOf q, s.now)] ∧
      (dom t (osDom b)).state = (dom s (osDom b)).state := by
  have fr : Fr 8192 s (syncTaken s (osDom b) e) :=
    Fr.step (countStarted_fr _ _ _) (Fr.step (syncHeard_fr _ _ e) (reselect_fr s _))
  obtain ⟨state, exch, -⟩ :=
    countStarted_same (reselect s (osDom b)) (syncHeard (reselect s (osDom b)) (osDom b) e) (osDom b)
  obtain ⟨stateH, exchH⟩ := syncHeard_same (reselect s (osDom b)) (osDom b) e
  have same := reselect_rechosen s (osDom b)
  subst run
  refine ⟨?_, ?_, ?_⟩
  · rw [asked_osOut, fr.lane q]
  · rw [asked_exch, syncTaken, exch, exchH, same.exch]
    exact congrArg (fun n => _ ++ [(_, _, _, _, _, n)]) (fr.now rfl)
  · rw [asked_dom, exchBegun_dom, syncTaken, state, stateH, same.counts.state]

end Sys2Proof.Machine


/-! ### O55: the answers to a slave -/

namespace Sys2Proof.Machine
set_option Elab.async false

/-- An exchange in progress: SEQ, t1, t2, t3, link, start. -/
abbrev Exch : Type := Nat × Int × Int × Int × Nat × Nat

theorem dropExch_spec (s : State) (k l seq : Nat) :
    dom (dropExch s k l seq) k = { dom s k with exch := (dom s k).exch.filter fun x => !isExch l seq x } ∧
      cntGet (dropExch s k l seq) (cMod 4) = (cntGet s (cMod 4) + 1) % 2 ^ 64 := by
  refine ⟨((bump_fr _ _).dom k).trans (dom_modDom ..), ?_⟩
  rw [dropExch, cntGet_bump_own, if_pos rfl]
  rfl

/-! #### TIME_DELAY_RESP -/

/-- No exchange of the link is in progress: the answer has no effect (R319). -/
theorem timeDelayRespReceive_none {s : State} {q : Nat} {b : BitVec 104} (up : laneUp s q = true)
    (none_ : ∀ x, x ∈ (dom s (osDom b)).exch → x.2.2.2.2.1 ≠ linkOf q) : timeDelayRespReceive q b s = s := by
  have other : (dom s (osDom b)).exch.find? (fun x => x.2.2.2.2.1 == linkOf q) = none :=
    List.find?_eq_none.2 fun x member => by simpa using none_ x member
  have own : (dom s (osDom b)).exch.find? (isExch (linkOf q) (osSeq b)) = none :=
    List.find?_eq_none.2 fun x member => by simp [isExch, none_ x member]
  unfold timeDelayRespReceive
  simp only [up, own, other, Bool.not_true, Bool.false_eq_true, if_false, ite_self]

/-- A SEQ of no exchange of the link discards the oldest. -/
theorem timeDelayRespReceive_stray {s : State} {q : Nat} {b : BitVec 104} {x : Exch} (up : laneUp s q = true)
    (slave : slavePort s (osDom b) (linkOf q) = true)
    (own : (dom s (osDom b)).exch.find? (isExch (linkOf q) (osSeq b)) = none)
    (oldest : (dom s (osDom b)).exch.find? (fun x => x.2.2.2.2.1 == linkOf q) = some x) :
    timeDelayRespReceive q b s = dropExch s (osDom b) (linkOf q) x.1 := by
  unfold timeDelayRespReceive
  simp only [up, slave, own, oldest]
  rfl

/-- The exchange is over, its delay kept and the master chosen again. -/
def answered (s : State) (k l seq delay : Nat) : State := reselect (noteDelay (endExch s k l seq) k l delay) k

/-- What the offset of an exchange does to its domain (R319, R321). -/
def offsetUsed (s : State) (k l : Nat) (off : Int) : State :=
  if (dom s k).measuring ∧ (dom s k).probe = l then measureOffset (noteOffset s k off) k off
  else if (dom s k).upstream = l then takeOffset s k off
  else s

theorem timeDelayRespReceive_own {s : State} {q : Nat} {b : BitVec 104} {x : Exch} (up : laneUp s q = true)
    (slave : slavePort s (osDom b) (linkOf q) = true)
    (own : (dom s (osDom b)).exch.find? (isExch (linkOf q) (osSeq b)) = some x) {e : Int × Int}
    (times : e = exchangeOf x.2.1 x.2.2.1 x.2.2.2.1 (tsDec (bf b 95 0)) (sx 16 (rf s (oTIME_ASYM (linkOf q)) 15 0) * 2 ^ 12)) :
    timeDelayRespReceive q b s =
      if due s x.2.2.2.2.2 (msT + 1) = true ∨ e.1 < 0 ∨ 2 * 65535 * 65536 < e.1 then dropExch s (osDom b) (linkOf q) x.1
      else offsetUsed (answered s (osDom b) (linkOf q) x.1 e.1.toNat) (osDom b) (linkOf q) (e.2 * 2 ^ 31) := by
  obtain ⟨seq, t1, t2, t3, j, a⟩ := x
  dsimp only at times ⊢
  unfold timeDelayRespReceive
  simp only [up, slave, own, Bool.not_true, Bool.false_eq_true, if_false]
  rw [← times]
  unfold offsetUsed answered
  split <;> rfl

theorem noteDelay_dom (s : State) (k l delay : Nat) : CountsAlike (dom s k) (dom (noteDelay s k l delay) k) ∧
    (dom (noteDelay s k l delay) k).exch = (dom s k).exch ∧
    ((dom s k).cands.any (fun c => c.1 == l) = true → (tget noCand (dom (noteDelay s k l delay) k).cands l).delay = delay) := by
  unfold noteDelay
  split
  · rw [dom_modDom]
    exact ⟨⟨rfl, rfl, rfl, rfl⟩, rfl, fun _ => congrArg Cand.delay (tget_tset_same ..)⟩
  · rename_i none_
    exact ⟨.refl _, rfl, fun any => absurd any none_⟩

theorem endExch_dom (s : State) (k l seq : Nat) : dom (endExch s k l seq) k =
    { dom s k with exch := (dom s k).exch.filter fun x => !isExch l seq x } := dom_modDom ..

theorem answered_spec (s : State) (k l seq delay : Nat) :
    (dom (answered s k l seq delay) k).exch = (dom s k).exch.filter (fun x => !isExch l seq x) ∧
      ((dom s k).cands.any (fun c => c.1 == l) = true →
        (tget noCand (dom (answered s k l seq delay) k).cands l).delay = delay) := by
  have same := reselect_rechosen (noteDelay (endExch s k l seq) k l delay) k
  obtain ⟨-, exch, cands⟩ := noteDelay_dom (endExch s k l seq) k l delay
  rw [endExch_dom] at exch cands
  exact ⟨by rw [answered, same.exch, exch], fun any => by rw [answered, same.cands]; exact cands any⟩

theorem noteOffset_dom (s : State) (k : Nat) (off : Int) :
    dom (noteOffset s k off) k = { dom s k with offset := off / 2 ^ 32 } := dom_modDom ..

/-- The offset is noted, whatever it does. -/
theorem takeOffset_steered (s : State) (k : Nat) (off : Int) :
    Steered (dom (noteOffset s k off) k) (dom (takeOffset s k off) k) := by
  unfold takeOffset
  dsimp only
  split
  · split
    · rw [dom_modDom]
      exact ⟨rfl, rfl, rfl, rfl⟩
    · rw [(stepDom_spec _ k _ _).1]
      exact ⟨rfl, rfl, rfl, rfl⟩
  · split
    · split
      · exact .refl _
      · exact measureOffset_steered _ k off
    · exact followOffset_steered _ k off

/-- The exchanges and the candidates stay; an offset of the link that is followed is the domain's last. -/
theorem offsetUsed_spec (s : State) (k l : Nat) (off : Int) :
    (dom (offsetUsed s k l off) k).exch = (dom s k).exch ∧ (dom (offsetUsed s k l off) k).cands = (dom s k).cands ∧
      ((dom (offsetUsed s k l off) k).upstream = l → (dom (offsetUsed s k l off) k).offset = off / 2 ^ 32) := by
  have noted : ∀ t, Steered (dom (noteOffset s k off) k) (dom t k) → (dom t k).exch = (dom s k).exch ∧
      (dom t k).cands = (dom s k).cands ∧ ((dom t k).upstream = l → (dom t k).offset = off / 2 ^ 32) := fun t h => by
    rw [noteOffset_dom] at h
    exact ⟨h.exch, h.cands, fun _ => h.offset⟩
  unfold offsetUsed
  split
  · exact noted _ (measureOffset_steered _ k off)
  · split
    · exact noted _ (takeOffset_steered s k off)
    · rename_i elsewhere
      exact ⟨rfl, rfl, fun here => absurd here elsewhere⟩

/-! #### Exchanges that end without an answer -/

theorem dropExch_keeps (s : State) (k j l seq : Nat) (x : Exch) (h : x ∈ (dom (dropExch s k l seq) j).exch) :
    x ∈ (dom s j).exch := by
  by_cases here : j = k
  · subst here
    rw [(dropExch_spec s j l seq).1] at h
    exact (List.mem_filter.1 h).1
  · rwa [show dom (dropExch s k l seq) j = dom s j from ((bump_fr _ _).dom j).trans (dom_modDom_other s _ here)] at h

/-- The exchanges of a list are discarded. -/
def discarded (s : State) (k : Nat) (l : List Exch) : State := forEach l s fun s x => dropExch s k x.2.2.2.2.1 x.1

theorem discarded_fr (s : State) (k : Nat) (l : List Exch) : Fr 73728 s (discarded s k l) :=
  Fr.forEach (m := 73728) _ _ (fun _ _ => dropExch_fr _ _ _ _) (.refl _ _)

theorem discarded_keeps (s : State) (k : Nat) (l : List Exch) (x : Exch) (h : x ∈ (dom (discarded s k l) k).exch) :
    x ∈ (dom s k).exch := by
  induction l generalizing s with
  | nil => exact h
  | cons a l ih => exact dropExch_keeps s k k _ _ x (ih _ h)

/-- None of them is left. -/
theorem discarded_gone (s : State) (k : Nat) (l : List Exch) : ∀ x ∈ l, x ∉ (dom (discarded s k l) k).exch :=
  forEach_reaches (fun (x : Exch) y => x ∉ (dom y k).exch) (fun y (x : Exch) => dropExch y k x.2.2.2.2.1 x.1)
    (fun y a there => by
      rw [(dropExch_spec y k _ _).1] at there
      simpa [isExch] using (List.mem_filter.1 there).2)
    (fun y a b gone there => gone (dropExch_keeps y k k _ _ b there)) l s

/-- The moment 1 ms after the start of the oldest exchange. -/
def exchWaited (s : State) (k : Nat) : State := awaitOpt s ((dom s k).exch.map fun x => x.2.2.2.2.2).min? msT

theorem timeExchangeTimeout_small {s : State} {k : Nat} (small : k < 2) : timeExchangeTimeout k s =
    discarded (exchWaited s k) k ((dom (exchWaited s k) k).exch.filter fun x => due (exchWaited s k) x.2.2.2.2.2 msT) :=
  if_pos small

theorem exchWaited_fr (s : State) (k : Nat) : Fr 131072 s (exchWaited s k) := awaitOpt_fr _ _ _

/-- Every exchange that is left has waited less than 1 ms (R319). -/
theorem timeExchangeTimeout_left {s : State} {k : Nat} (small : k < 2) {x : Exch}
    (left : x ∈ (dom (timeExchangeTimeout k s) k).exch) :
    x ∈ (dom s k).exch ∧ due (timeExchangeTimeout k s) x.2.2.2.2.2 msT = false := by
  rw [timeExchangeTimeout_small small] at left ⊢
  have was := discarded_keeps _ k _ x left
  refine ⟨by rwa [(exchWaited_fr s k).dom k] at was, ?_⟩
  rw [show due (discarded _ k _) x.2.2.2.2.2 msT = due (exchWaited s k) x.2.2.2.2.2 msT by
    unfold due
    rw [(discarded_fr _ k _).now rfl]]
  by_contra over_
  exact discarded_gone _ k _ x (List.mem_filter.2 ⟨was, by simpa using over_⟩) left

theorem timeExchangeTimeout_empty {s : State} {k : Nat} (empty : (dom s k).exch = []) : timeExchangeTimeout k s = s := by
  unfold timeExchangeTimeout
  rw [empty]
  split
  · dsimp only
    rw [show awaitOpt s (List.map _ ([] : List Exch)).min? msT = s from rfl, empty]
    rfl
  · rfl

/-- The one exchange is discarded 1 ms after its start, and counted. -/
theorem timeExchangeTimeout_one {s : State} {k : Nat} {x : Exch} (small : k < 2) (only : (dom s k).exch = [x]) :
    timeExchangeTimeout k s = dropExch (await s x.2.2.2.2.2 msT) k x.2.2.2.2.1 x.1 := by
  have waited : exchWaited s k = await s x.2.2.2.2.2 msT := by
    unfold exchWaited
    rw [only]
    rfl
  have isDue : due (await s x.2.2.2.2.2 msT) x.2.2.2.2.2 msT = true := decide_eq_true (Nat.le_max_right ..)
  rw [timeExchangeTimeout_small small, waited]
  rw [show (dom (await s x.2.2.2.2.2 msT) k).exch = [x] from only]
  rw [List.filter_cons_of_pos (p := fun y : Exch => due (await s x.2.2.2.2.2 msT) y.2.2.2.2.2 msT) isDue]
  rfl

end Sys2Proof.Machine


namespace Sys2Proof.Machine
set_option Elab.async false

/-! #### The clauses of one master, one slave port, one domain -/

theorem timeSyncSend_sent {s t : State} {l k u : Nat} {n : Nat}
    (run : t = queueOs (syncNoted s l k) u osTIME_SYNC (timeBody k n 0)) :
    (lane t u).osOut = (lane s u).osOut ++ [(osTIME_SYNC, timeBody k n 0)] ∧
      tget 0 t.tim.syncAt (2 * l + k) = s.now + 1 ∧
      tget 0 t.tim.syncSeq (2 * l + k) = (tget 0 s.tim.syncSeq (2 * l + k) + 1) % 128 ∧ t.tim.doms = s.tim.doms := by
  have tim : t.tim = (syncNoted s l k).tim := by rw [run]; exact (queueOs_fr _ _ _ _).tim rfl
  refine ⟨by rw [run, queueOs_osOut]; rfl, ?_, ?_, ?_⟩ <;> rw [tim]
  · exact tget_tset_same ..
  · exact tget_tset_same ..
  · rfl

theorem timeAnnounceSend_sent {s t : State} {l k u : Nat} {body : BitVec 104}
    (run : t = sendOs (annNoted s l k) u osTIME_ANNOUNCE body) :
    t.out = s.out ++ [.os u osTIME_ANNOUNCE body] ∧ tget 0 t.tim.annAt (2 * l + k) = s.now + 1 ∧
      t.tim.doms = s.tim.doms := by
  have tim : t.tim = (annNoted s l k).tim := by rw [run]; exact (sendOs_fr _ _ _ _).tim rfl
  refine ⟨by rw [run, sendOs_out]; rfl, ?_, ?_⟩ <;> rw [tim]
  · exact tget_tset_same ..
  · rfl

theorem timeDelayReqReceive_master {s : State} {q : Nat} {b : BitVec 104} (up : laneUp s q = true)
    (master : masterPort s (osDom b) (linkOf q) = true) : timeDelayReqReceive q b s =
      sendOs s q osTIME_DELAY_RESP (timeBody (osDom b) (osSeq b) (stampNow s (osDom b))) := by
  unfold timeDelayReqReceive
  simp only [up, master]
  rfl

theorem timeDelayReqReceive_other {s : State} {q : Nat} {b : BitVec 104} (up : laneUp s q = true)
    (other : masterPort s (osDom b) (linkOf q) = false) : timeDelayReqReceive q b s = s := by
  unfold timeDelayReqReceive
  simp only [up, other]
  rfl

/-- A port that is no slave of the domain takes no time from it. -/
theorem timeReceive_noSlave {s : State} {q : Nat} {b : BitVec 104} (up : laneUp s q = true)
    (other : slavePort s (osDom b) (linkOf q) = false) :
    timeAnnounceReceive q b s = s ∧ timeSyncReceive q b s = s ∧ timeDelayRespReceive q b s = s := by
  unfold timeAnnounceReceive timeSyncReceive timeDelayRespReceive
  simp only [up, other]
  exact ⟨rfl, rfl, rfl⟩

/-- On a lane that is not UP time sets are illegal (R105). -/
theorem time_illegal {s : State} {q : Nat} {b : BitVec 104} (down : laneUp s q = false) : ∀ c,
    c ∈ [Instr.timeDelayReqReceive q b, .timeAnnounceReceive q b, .timeSyncReceive q b, .timeDelayRespReceive q b] →
    exec c s = .next (bump s (cLane q 5)) := by
  intro c member
  simp only [List.mem_cons, List.not_mem_nil, or_false] at member
  have illegal : (!laneUp s q) = true := by rw [down]; rfl
  rcases member with rfl | rfl | rfl | rfl <;> exact congrArg Host.Outcome.next (if_pos illegal)

/-- An answer of an exchange: dropped where it is late or out of range, else its delay and its offset are used. -/
theorem timeDelayRespReceive_spec {s : State} {q : Nat} {b : BitVec 104} {seq j a : Nat} {t1 t2 t3 : Int} {e : Int × Int}
    (up : laneUp s q = true) (slave : slavePort s (osDom b) (linkOf q) = true)
    (own : (dom s (osDom b)).exch.find? (isExch (linkOf q) (osSeq b)) = some (seq, t1, t2, t3, j, a))
    (times : e = exchangeOf t1 t2 t3 (tsDec (bf b 95 0)) (sx 16 (rf s (oTIME_ASYM (linkOf q)) 15 0) * 2 ^ 12)) :
    (due s a (msT + 1) = true ∨ e.1 < 0 ∨ 2 * 65535 * 65536 < e.1 →
      timeDelayRespReceive q b s = dropExch s (osDom b) (linkOf q) seq) ∧
    (due s a (msT + 1) = false → 0 ≤ e.1 → e.1 ≤ 2 * 65535 * 65536 → timeDelayRespReceive q b s =
      offsetUsed (answered s (osDom b) (linkOf q) seq e.1.toNat) (osDom b) (linkOf q) (e.2 * 2 ^ 31)) := by
  have run := timeDelayRespReceive_own up slave own times
  dsimp only at run
  refine ⟨fun out => by rw [run, if_pos out], fun early low high => ?_⟩
  rw [run, if_neg]
  rintro (late | negative | beyond)
  · rw [early] at late
    cases late
  · omega
  · omega

/-- What the answer leaves of its domain. -/
theorem answer_spec (s : State) (k l seq delay : Nat) (off : Int) :
    (∀ x, x ∈ (dom (offsetUsed (answered s k l seq delay) k l off) k).exch → isExch l seq x = false) ∧
      ((dom s k).cands.any (fun c => c.1 == l) = true →
        (tget noCand (dom (offsetUsed (answered s k l seq delay) k l off) k).cands l).delay = delay) ∧
      ((dom (offsetUsed (answered s k l seq delay) k l off) k).upstream = l →
        (dom (offsetUsed (answered s k l seq delay) k l off) k).offset = off / 2 ^ 32) := by
  obtain ⟨exch, cands, offset⟩ := offsetUsed_spec (answered s k l seq delay) k l off
  obtain ⟨ended, kept⟩ := answered_spec s k l seq delay
  refine ⟨fun x member => ?_, fun any => by rw [cands]; exact kept any, offset⟩
  rw [exch, ended] at member
  simpa using (List.mem_filter.1 member).2

/-- Settles O55: a choice leaves all of a domain but its master (`Rechosen`), an offset all but what it drives
(`Steered`). -/
theorem timeExchanged : Obligations.TimeExchanged := by
  unfold Obligations.TimeExchanged
  intro s q l k b
  refine ⟨fun f may => ⟨fun locked => ?_, fun lost => congrArg Host.Outcome.next (timeNowRead_lost may lost)⟩,
    fun f reaches dead => congrArg Host.Outcome.next (timeNowRead_dead reaches dead),
    fun f no => congrArg Host.Outcome.next (timeNowRead_unreached no),
    fun u rest small master up => ⟨fun due => ?_,
      fun early => congrArg Host.Outcome.next (timeSyncSend_waits (.inr early)),
      fun due => ?_, fun early => congrArg Host.Outcome.next (timeAnnounceSend_waits (.inr early))⟩,
    fun other => ⟨congrArg Host.Outcome.next (timeSyncSend_waits (.inl other)),
      congrArg Host.Outcome.next (timeAnnounceSend_waits (.inl other))⟩,
    fun o only stamped => stampSets_one only stamped, fun down => time_illegal down, fun ofDom ofLink up => ?_,
    fun empty => congrArg Host.Outcome.next (timeExchangeTimeout_empty empty),
    fun small => ⟨_, rfl, fun x left => timeExchangeTimeout_left small left⟩, fun x small only => ?_,
    fun e small found => ?_, fun none_ => congrArg Host.Outcome.next (timeAnnounceExpiry_none none_)⟩
  · have run : exec (.timeNowRead f) s = .next _ := congrArg Host.Outcome.next (timeNowRead_answers may locked)
    exact ⟨_, run, (timeNowRead_exec_fr f s _ run).onlyChanges _, rfl, rfl⟩
  · have run := timeSyncSend_due small master up due
    exact ⟨_, rfl, (timeSyncSend_exec_fr l k s _ rfl).onlyChanges _, timeSyncSend_sent run⟩
  · have run := timeAnnounceSend_due small master up due
    exact ⟨_, rfl, (timeAnnounceSend_exec_fr l k s _ rfl).onlyChanges _, timeAnnounceSend_sent run⟩
  · subst ofDom ofLink
    refine ⟨fun master => ?_, fun other => congrArg Host.Outcome.next (timeDelayReqReceive_other up other),
      fun other => ?_, fun slave => ⟨?_,
        fun e found => ⟨fun own => ⟨_, rfl, timeSyncReceive_heard up slave found own⟩,
        fun ok may => ?_⟩, fun none_ => congrArg Host.Outcome.next (timeDelayRespReceive_none up none_),
        fun x own oldest => ?_, fun seq t1 t2 t3 j a e own times => ⟨fun out => ?_, fun early low high => ?_⟩⟩⟩
    · exact ⟨_, congrArg Host.Outcome.next (timeDelayReqReceive_master up master),
        (sendOs_fr _ _ _ _).onlyChanges _, sendOs_out _ _ _ _⟩
    · obtain ⟨announce, sync, resp⟩ := timeReceive_noSlave up other
      exact ⟨congrArg Host.Outcome.next announce, congrArg Host.Outcome.next sync, congrArg Host.Outcome.next resp⟩
    · exact ⟨_, congrArg Host.Outcome.next (timeAnnounceReceive_slave up slave),
        (Fr.step (reselect_fr _ _) (modDom_fr s _ _)).onlyChanges _, announceKept_spec s _ _ b⟩
    · have run := timeSyncReceive_asks up slave found ok may
      obtain ⟨sent, exch, state⟩ := asks_spec run
      refine ⟨_, rfl, ?_, sent, ?_, fun x member => ?_, state⟩
      · rw [run]
        have taken : Fr 8192 s (syncTaken s (osDom b) e) :=
          Fr.step (countStarted_fr _ _ _) (Fr.step (syncHeard_fr _ _ e) (reselect_fr s _))
        exact (Fr.step (queueOs_fr _ q _ _) (Fr.step (exchBegun_fr _ q b) taken.mono) :
          Fr 8256 s (asked (syncTaken s (osDom b) e) q b)).onlyChanges _
      · rw [exch]
        exact List.mem_append_right _ List.mem_cons_self
      · rw [exch]
        exact List.mem_append_left _ member
    · obtain ⟨gone, count⟩ := dropExch_spec s (osDom b) (linkOf q) x.1
      exact ⟨_, congrArg Host.Outcome.next (timeDelayRespReceive_stray up slave own oldest),
        (dropExch_fr s _ _ _).onlyChanges _, by rw [gone], count⟩
    · obtain ⟨gone, count⟩ := dropExch_spec s (osDom b) (linkOf q) seq
      exact ⟨_, congrArg Host.Outcome.next ((timeDelayRespReceive_spec up slave own times).1 out),
        (dropExch_fr s _ _ _).onlyChanges _, by rw [gone], count⟩
    · exact ⟨_, congrArg Host.Outcome.next ((timeDelayRespReceive_spec up slave own times).2 early low high),
        answer_spec s _ _ _ _ _⟩
  · obtain ⟨gone, count⟩ := dropExch_spec (await s x.2.2.2.2.2 msT) k x.2.2.2.2.1 x.1
    refine ⟨_, congrArg Host.Outcome.next (timeExchangeTimeout_one small only),
      ((dropExch_fr _ _ _ _).now rfl).trans rfl, ?_, count⟩
    rw [gone, show dom (await s x.2.2.2.2.2 msT) k = dom s k from rfl, only]
    simp [isExch]
  · obtain ⟨now, cands, follows⟩ := announceLapsed_spec s k l e
    exact ⟨_, congrArg Host.Outcome.next (timeAnnounceExpiry_some small found),
      (Fr.step (reselect_fr _ k) (Fr.step (setDom_fr _ k _) (await_fr s _ _).mono) :
        Fr 139264 s (reselect (announceLapsed s k l e) k)).onlyChanges _, now, cands, follows⟩

end Sys2Proof.Machine
